-- ==== Sys2Proof/Word.lean ====
section
/-!
DEFINITION. The word types of the device and their plainest arithmetic (R5 to R8).
-/

namespace Sys2Proof

/-- A byte, as memories hold it (R6). -/
abbrev Byte := BitVec 8
/-- A 32-bit word: a G register, an IO-space register (R7), a D-space address (R8). -/
abbrev Word := BitVec 32
/-- A 64-bit F register or Deck word. -/
abbrev DWord := BitVec 64
/-- A 256-bit W register (R101). -/
abbrev WVec := BitVec 256

/-- `2 ^ w - 1`. -/
def ones (w : Nat) : Nat := 2 ^ w - 1

/-- A Nat kept at most `m`: the saturating counters. -/
def satAdd (m a b : Nat) : Nat := min m (a + b)

/-- 1 for true, 0 for false. -/
def b2n (b : Bool) : Nat := if b then 1 else 0

end Sys2Proof
end

