-- ==== Sys2Proof/Machine/Types.lean ====
section
/-!
DEFINITION. The names that commands and the state share: piers, threads, register numbers, sources of a register
access, element types.

Choices and readings of this file: log 40.
-/

namespace Sys2Proof.Machine

/-- A pier P0 to P15 (R2). -/
abbrev PierIx := Fin 16
/-- A Span S0 to S3, or the Deck quarter or Q island of that number. -/
abbrev QIx := Fin 4
/-- A 5-bit G or F register field (R72). -/
abbrev RegIx := Fin 32
/-- A W register (R102). -/
abbrev WIx := Fin 8

/-- A hardware thread of a pier. -/
structure Thr where
  pier : PierIx
  th : Fin 8
  deriving DecidableEq, Repr

/-- The number of a thread among all: 8 × pier + thread. -/
def Thr.ix (t : Thr) : Nat := 8 * t.pier.val + t.th.val

/-- Who accesses an IO-space register (R11, R32, R538). A pier thread names itself; mode is checked at the pier (R128). -/
inductive Src where
  | pier (th : Thr)
  | fobex
  | keystone
  | debug
  deriving DecidableEq, Repr

/-- The scalar formats .S and .D (R103). -/
inductive FSz where
  | s | d
  deriving DecidableEq, Repr

/-- Short-vector element types (Table fp-1). -/
inductive VTy where
  | f32 | f64 | i16 | i8
  deriving DecidableEq, Repr

/-- The PLLs (R271). -/
inductive Pll where
  | iopll | cpll | spll
  deriving DecidableEq, Repr

/-- Operating point OP0 to OP3. -/
abbrev OpIx := Fin 4

/-- Reset causes (Table boot-1). -/
inductive ResetCause where
  | por | wdt | fobex | iopll | firmware
  deriving DecidableEq, Repr

/-- What asserts POR (R516). -/
inductive PorCause where
  | porN | vddCore | vddIo33 | vddIo18 | vddPll | vddFl | vddAon
  deriving DecidableEq, Repr

/-- System causes of R133. -/
inductive SysCause where
  | wdt | abutment | thermal | debt
  deriving DecidableEq, Repr

/-- Error responses of the Viaduct (R130, R247), by their SUB code. -/
inductive RespErr where
  | offline | route | malformed | timeout | poison
  deriving DecidableEq, Repr

/-- The grade of the device (R2, Table scope-1). -/
inductive Grade where
  | sx16 | sx8 | sx4
  deriving DecidableEq, Repr

/-- A packet's head as a gauge sees it granted at a point (R257, R258, Table gau-2): the point, the head's fields, the cycles it
waited there and how many of them were credit-starved, the same for all the packet's flits (stall, stallStarved), and CYC of its
record. -/
structure Head where
  port : Fin 8
  typ : BitVec 4
  vc : BitVec 2
  cls : Bool
  dir : Bool
  src : BitVec 7
  dst : BitVec 7
  len : BitVec 3
  gen : BitVec 4
  addr : BitVec 32
  tag : BitVec 16
  wait : Nat
  starved : Nat
  stall : Nat
  stallStarved : Nat
  cyc : Nat
  deriving DecidableEq, Repr

/-- What the core regulator does in a PMBus transaction (R298, R300): whether it acknowledged every byte, whether it held the clock low for
more than 25 ms, the word it sent and its PEC byte. -/
structure PmbReply where
  ack : Bool
  low : Bool
  word : BitVec 16
  pec : BitVec 8
  deriving DecidableEq, Repr

/-- What befalls a packet on its way (R244): nothing; this many flits arrive of it; a bit of one of its flits is inverted. -/
inductive Damage where
  | none
  | flits (n : Nat)
  | flip (k b : Nat)
  deriving DecidableEq, Repr

/-- What the die returns for an operation (operands of DIE_OPERATION_COMPLETE): of a read, for each threshold set tried in order, the bit
errors in each of the page's four codewords (none where nothing is listed), and whether an interrupted page shows its marker INVALID; of a
program or an erase, whether it succeeded. -/
structure DieOut where
  tries : List (List Nat)
  invalid : Bool
  ok : Bool
  deriving DecidableEq, Repr

end Sys2Proof.Machine
end

