-- ==== Sys2Proof/Syntax.lean ====
section
/-!
DEFINITION. The commands: one constructor per row of spec/opcode_table.json, in its order. A row of the pier families is the issue
of that instruction by a thread; a row named after a register is a write or read of it; the other rows are the events the spec
names (a packet arriving, a window ending, a sample taken), with what the outside supplies as operands.
-/

namespace Sys2Proof

open Machine

/-- The commands of spec/opcode_table.json. The docstring of a constructor names its row and rule. -/
inductive Instr where
  /-- VBAT_RESET (R10). -/
  | vbatReset
  /-- POR (R10). -/
  | por (jumperLow pwrfailLow : Bool)
  /-- SYS_RESET (R10). -/
  | sysReset (c : ResetCause)
  /-- POR_N_ASSERT (R516). -/
  | porNAssert (c : PorCause)
  /-- REGISTER_WRITE (R11). -/
  | registerWrite (src : Src) (a : BitVec 16) (v : Word)
  /-- RC_READ (R16). -/
  | rcRead (src : Src) (a : BitVec 16)
  /-- ADD (R74). -/
  | add (th : Thr) (rd rs rt : RegIx)
  /-- SUB (R74). -/
  | sub (th : Thr) (rd rs rt : RegIx)
  /-- AND (R74). -/
  | and (th : Thr) (rd rs rt : RegIx)
  /-- OR (R74). -/
  | or (th : Thr) (rd rs rt : RegIx)
  /-- XOR (R74). -/
  | xor (th : Thr) (rd rs rt : RegIx)
  /-- NOR (R74). -/
  | nor (th : Thr) (rd rs rt : RegIx)
  /-- SLT (R74). -/
  | slt (th : Thr) (rd rs rt : RegIx)
  /-- SLTU (R74). -/
  | sltu (th : Thr) (rd rs rt : RegIx)
  /-- SLL (R74). -/
  | sll (th : Thr) (rd rs rt : RegIx)
  /-- SRL (R74). -/
  | srl (th : Thr) (rd rs rt : RegIx)
  /-- SRA (R74). -/
  | sra (th : Thr) (rd rs rt : RegIx)
  /-- SLLI (R74). -/
  | slli (th : Thr) (rd rs : RegIx) (sh : BitVec 5)
  /-- SRLI (R74). -/
  | srli (th : Thr) (rd rs : RegIx) (sh : BitVec 5)
  /-- SRAI (R74). -/
  | srai (th : Thr) (rd rs : RegIx) (sh : BitVec 5)
  /-- MIN (R74). -/
  | min (th : Thr) (rd rs rt : RegIx)
  /-- MAX (R74). -/
  | max (th : Thr) (rd rs rt : RegIx)
  /-- MINU (R74). -/
  | minu (th : Thr) (rd rs rt : RegIx)
  /-- MAXU (R74). -/
  | maxu (th : Thr) (rd rs rt : RegIx)
  /-- ADDSAT (R74). -/
  | addsat (th : Thr) (rd rs rt : RegIx)
  /-- SUBSAT (R74). -/
  | subsat (th : Thr) (rd rs rt : RegIx)
  /-- CLZ (R74). -/
  | clz (th : Thr) (rd rs : RegIx)
  /-- POPC (R74). -/
  | popc (th : Thr) (rd rs : RegIx)
  /-- SEXTB (R74). -/
  | sextb (th : Thr) (rd rs : RegIx)
  /-- SEXTH (R74). -/
  | sexth (th : Thr) (rd rs : RegIx)
  /-- ZEXTH (R74). -/
  | zexth (th : Thr) (rd rs : RegIx)
  /-- ADDI (R73). -/
  | addi (th : Thr) (rd rs : RegIx) (imm : BitVec 16)
  /-- ANDI (R73). -/
  | andi (th : Thr) (rd rs : RegIx) (imm : BitVec 16)
  /-- ORI (R73). -/
  | ori (th : Thr) (rd rs : RegIx) (imm : BitVec 16)
  /-- XORI (R73). -/
  | xori (th : Thr) (rd rs : RegIx) (imm : BitVec 16)
  /-- SLTI (R73). -/
  | slti (th : Thr) (rd rs : RegIx) (imm : BitVec 16)
  /-- SLTIU (R73). -/
  | sltiu (th : Thr) (rd rs : RegIx) (imm : BitVec 16)
  /-- LUI (R73). -/
  | lui (th : Thr) (rd : RegIx) (imm : BitVec 16)
  /-- BEQ (R75). -/
  | beq (th : Thr) (ra rb : RegIx) (off : BitVec 16)
  /-- BNE (R75). -/
  | bne (th : Thr) (ra rb : RegIx) (off : BitVec 16)
  /-- BLT (R75). -/
  | blt (th : Thr) (ra rb : RegIx) (off : BitVec 16)
  /-- BGE (R75). -/
  | bge (th : Thr) (ra rb : RegIx) (off : BitVec 16)
  /-- BLTU (R75). -/
  | bltu (th : Thr) (ra rb : RegIx) (off : BitVec 16)
  /-- BGEU (R75). -/
  | bgeu (th : Thr) (ra rb : RegIx) (off : BitVec 16)
  /-- J (R75). -/
  | j (th : Thr) (off : BitVec 26)
  /-- JAL (R75). -/
  | jal (th : Thr) (off : BitVec 26)
  /-- JALR (R75). -/
  | jalr (th : Thr) (rd rs : RegIx)
  /-- LD (R76). -/
  | ld (th : Thr) (rd rb : RegIx) (sz : BitVec 2) (u pi : Bool) (disp : BitVec 12)
  /-- ST (R76). -/
  | st (th : Thr) (rd rb : RegIx) (sz : BitVec 2) (pi : Bool) (disp : BitVec 12)
  /-- FLD (R77). -/
  | fld (th : Thr) (rd rb : RegIx) (sz : BitVec 2) (pi : Bool) (disp : BitVec 12)
  /-- FST (R77). -/
  | fst (th : Thr) (rd rb : RegIx) (sz : BitVec 2) (pi : Bool) (disp : BitVec 12)
  /-- MLD (R78). -/
  | mld (th : Thr) (rd rb : RegIx) (sz : BitVec 2) (off : BitVec 12)
  /-- MST (R78). -/
  | mst (th : Thr) (rd rb : RegIx) (sz : BitVec 2) (off : BitVec 12)
  /-- ILOAD (R80). -/
  | iload (th : Thr) (rd rs : RegIx)
  /-- IN (R79). -/
  | inIo (th : Thr) (rd rs : RegIx) (imm : BitVec 16)
  /-- OUT (R79). -/
  | outIo (th : Thr) (rd rs : RegIx) (imm : BitVec 16)
  /-- MUL (R51). -/
  | mul (th : Thr) (rs rt : RegIx)
  /-- MULU (R51). -/
  | mulu (th : Thr) (rs rt : RegIx)
  /-- MAC (R51). -/
  | mac (th : Thr) (rs rt : RegIx)
  /-- MACU (R51). -/
  | macu (th : Thr) (rs rt : RegIx)
  /-- DIV (R82). -/
  | div (th : Thr) (rd rs rt : RegIx)
  /-- DIVU (R82). -/
  | divu (th : Thr) (rd rs rt : RegIx)
  /-- REM (R82). -/
  | rem (th : Thr) (rd rs rt : RegIx)
  /-- REMU (R82). -/
  | remu (th : Thr) (rd rs rt : RegIx)
  /-- MFPL (R81). -/
  | mfpl (th : Thr) (rd : RegIx)
  /-- MFPH (R81). -/
  | mfph (th : Thr) (rd : RegIx)
  /-- MTPL (R81). -/
  | mtpl (th : Thr) (rs : RegIx)
  /-- MTPH (R81). -/
  | mtph (th : Thr) (rs : RegIx)
  /-- GATE (R142). -/
  | gate (th : Thr) (k : BitVec 8)
  /-- GRET (R139). -/
  | gret (th : Thr)
  /-- WAIT (R67). -/
  | wait (th : Thr) (rd : RegIx)
  /-- MFS (R83). -/
  | mfs (th : Thr) (rd : RegIx) (sr : BitVec 11)
  /-- MTS (R83). -/
  | mts (th : Thr) (sr : BitVec 11) (rs : RegIx)
  /-- BRK (R147). -/
  | brk (th : Thr) (code : BitVec 11)
  /-- RPT (R86). -/
  | rpt (th : Thr) (rs : RegIx) (rsrc : Bool) (cntm1 : BitVec 16)
  /-- RPTI (R89). -/
  | rpti (th : Thr) (rs : RegIx) (rsrc : Bool) (cntm1 : BitVec 16)
  /-- TLI (R94). -/
  | tli (th : Thr) (rd rs rt : RegIx)
  /-- TLIH (R97). -/
  | tlih (th : Thr) (rd rs rt : RegIx)
  /-- TLINV (R93). -/
  | tlinv (th : Thr)
  /-- FADD (R106). -/
  | fadd (th : Thr) (z : FSz) (rd rs rt : RegIx)
  /-- FSUB (R106). -/
  | fsub (th : Thr) (z : FSz) (rd rs rt : RegIx)
  /-- FMUL (R106). -/
  | fmul (th : Thr) (z : FSz) (rd rs rt : RegIx)
  /-- FDIV (R49). -/
  | fdiv (th : Thr) (z : FSz) (rd rs rt : RegIx)
  /-- FSQRT (R49). -/
  | fsqrt (th : Thr) (z : FSz) (rd rs : RegIx)
  /-- FMIN (R111). -/
  | fmin (th : Thr) (z : FSz) (rd rs rt : RegIx)
  /-- FMAX (R111). -/
  | fmax (th : Thr) (z : FSz) (rd rs rt : RegIx)
  /-- FABS (R108). -/
  | fabs (th : Thr) (z : FSz) (rd rs : RegIx)
  /-- FNEG (R108). -/
  | fneg (th : Thr) (z : FSz) (rd rs : RegIx)
  /-- FSGNJ (R108). -/
  | fsgnj (th : Thr) (z : FSz) (rd rs rt : RegIx)
  /-- FMA (R107). -/
  | fma (th : Thr) (z : FSz) (rd rs rt : RegIx)
  /-- FMSUB (R107). -/
  | fmsub (th : Thr) (z : FSz) (rd rs rt : RegIx)
  /-- FNMSUB (R107). -/
  | fnmsub (th : Thr) (z : FSz) (rd rs rt : RegIx)
  /-- FNMADD (R107). -/
  | fnmadd (th : Thr) (z : FSz) (rd rs rt : RegIx)
  /-- FEQ (R111). -/
  | feq (th : Thr) (z : FSz) (rd rs rt : RegIx)
  /-- FLT (R111). -/
  | flt (th : Thr) (z : FSz) (rd rs rt : RegIx)
  /-- FLE (R111). -/
  | fle (th : Thr) (z : FSz) (rd rs rt : RegIx)
  /-- FCLASS (R103). -/
  | fclass (th : Thr) (z : FSz) (rd rs : RegIx)
  /-- FRND (R106). -/
  | frnd (th : Thr) (z : FSz) (rd rs : RegIx)
  /-- FCVT_S_D (R110). -/
  | fcvtSD (th : Thr) (rd rs : RegIx)
  /-- FCVT_D_S (R110). -/
  | fcvtDS (th : Thr) (rd rs : RegIx)
  /-- FCVT_W_S (R112). -/
  | fcvtWS (th : Thr) (rd rs : RegIx)
  /-- FCVT_WU_S (R112). -/
  | fcvtWuS (th : Thr) (rd rs : RegIx)
  /-- FCVT_S_W (R106). -/
  | fcvtSW (th : Thr) (rd rs : RegIx)
  /-- FCVT_S_WU (R106). -/
  | fcvtSWu (th : Thr) (rd rs : RegIx)
  /-- FCVT_W_D (R112). -/
  | fcvtWD (th : Thr) (rd rs : RegIx)
  /-- FCVT_WU_D (R112). -/
  | fcvtWuD (th : Thr) (rd rs : RegIx)
  /-- FCVT_D_W (R106). -/
  | fcvtDW (th : Thr) (rd rs : RegIx)
  /-- FCVT_D_WU (R106). -/
  | fcvtDWu (th : Thr) (rd rs : RegIx)
  /-- FCVTZ_W_S (R112). -/
  | fcvtzWS (th : Thr) (rd rs : RegIx)
  /-- FCVTZ_WU_S (R112). -/
  | fcvtzWuS (th : Thr) (rd rs : RegIx)
  /-- FCVTZ_W_D (R112). -/
  | fcvtzWD (th : Thr) (rd rs : RegIx)
  /-- FCVTZ_WU_D (R112). -/
  | fcvtzWuD (th : Thr) (rd rs : RegIx)
  /-- FMV_X_S (R103). -/
  | fmvXS (th : Thr) (rd rs : RegIx)
  /-- FMV_S_X (R103). -/
  | fmvSX (th : Thr) (rd rs : RegIx)
  /-- FMV_X_DH (R103). -/
  | fmvXDh (th : Thr) (rd rs : RegIx)
  /-- FMV_D_X (R103). -/
  | fmvDX (th : Thr) (rd rs rt : RegIx)
  /-- FMV_D (R103). -/
  | fmvD (th : Thr) (rd rs : RegIx)
  /-- FPBAR (R118). -/
  | fpbar (th : Thr)
  /-- VADD (R104). -/
  | vadd (th : Thr) (ty : VTy) (wd ws wt : WIx)
  /-- VSUB (R104). -/
  | vsub (th : Thr) (ty : VTy) (wd ws wt : WIx)
  /-- VMUL (R104). -/
  | vmul (th : Thr) (ty : VTy) (wd ws wt : WIx)
  /-- VFMA (R107). -/
  | vfma (th : Thr) (ty : VTy) (wd ws wt : WIx)
  /-- VMIN (R111). -/
  | vmin (th : Thr) (ty : VTy) (wd ws wt : WIx)
  /-- VMAX (R111). -/
  | vmax (th : Thr) (ty : VTy) (wd ws wt : WIx)
  /-- VABS (R104). -/
  | vabs (th : Thr) (ty : VTy) (wd ws : WIx)
  /-- VNEG (R104). -/
  | vneg (th : Thr) (ty : VTy) (wd ws : WIx)
  /-- VCEQ (R111). -/
  | vceq (th : Thr) (ty : VTy) (wd ws wt : WIx)
  /-- VCLT (R111). -/
  | vclt (th : Thr) (ty : VTy) (wd ws wt : WIx)
  /-- VCLE (R111). -/
  | vcle (th : Thr) (ty : VTy) (wd ws wt : WIx)
  /-- VAND (R104). -/
  | vand (th : Thr) (ty : VTy) (wd ws wt : WIx)
  /-- VOR (R104). -/
  | vor (th : Thr) (ty : VTy) (wd ws wt : WIx)
  /-- VXOR (R104). -/
  | vxor (th : Thr) (ty : VTy) (wd ws wt : WIx)
  /-- VSEL (R104). -/
  | vsel (th : Thr) (ty : VTy) (wd ws wt : WIx)
  /-- VADDS (R104). -/
  | vadds (th : Thr) (ty : VTy) (wd ws wt : WIx)
  /-- VSUBS (R104). -/
  | vsubs (th : Thr) (ty : VTy) (wd ws wt : WIx)
  /-- VMULQ (R104). -/
  | vmulq (th : Thr) (ty : VTy) (wd ws wt : WIx)
  /-- VSPLAT (R104). -/
  | vsplat (th : Thr) (ty : VTy) (wd : WIx) (rs : RegIx)
  /-- VEXT (R104). -/
  | vext (th : Thr) (ty : VTy) (rd : RegIx) (ws : WIx) (ln : BitVec 5)
  /-- VINS (R104). -/
  | vins (th : Thr) (ty : VTy) (wd : WIx) (rs : RegIx) (ln : BitVec 5)
  /-- VSUM (R113). -/
  | vsum (th : Thr) (ty : VTy) (rd : RegIx) (ws : WIx)
  /-- VCVT_F32_I16L (R104). -/
  | vcvtF32I16l (th : Thr) (wd ws : WIx)
  /-- VCVT_F32_I16H (R104). -/
  | vcvtF32I16h (th : Thr) (wd ws : WIx)
  /-- VCVT_I16_F32 (R112). -/
  | vcvtI16F32 (th : Thr) (wd ws wt : WIx)
  /-- VCVT_F64_F32L (R110). -/
  | vcvtF64F32l (th : Thr) (wd ws : WIx)
  /-- VCVT_F64_F32H (R110). -/
  | vcvtF64F32h (th : Thr) (wd ws : WIx)
  /-- VCVT_F32_F64 (R110). -/
  | vcvtF32F64 (th : Thr) (wd ws wt : WIx)
  /-- VCVT_I16_I8L (R104). -/
  | vcvtI16I8l (th : Thr) (wd ws : WIx)
  /-- VCVT_I16_I8H (R104). -/
  | vcvtI16I8h (th : Thr) (wd ws : WIx)
  /-- VCVT_I8_I16 (R112). -/
  | vcvtI8I16 (th : Thr) (wd ws wt : WIx)
  /-- WLD (R120). -/
  | wld (th : Thr) (wd : WIx) (rb : RegIx) (pi : Bool) (disp : BitVec 12)
  /-- WST (R120). -/
  | wst (th : Thr) (wd : WIx) (rb : RegIx) (pi : Bool) (disp : BitVec 12)
  /-- WGATH (R121). -/
  | wgath (th : Thr) (ty : VTy) (wd ws : WIx) (rt : RegIx)
  /-- WSCAT (R121). -/
  | wscat (th : Thr) (ty : VTy) (wd ws : WIx) (rt : RegIx)
  /-- EXCEPTION_ENTRY (R129). -/
  | exceptionEntry (th : Thr)
  /-- PIER_THRUN_WRITE (R64). -/
  | pierThrunWrite (src : Src) (p : PierIx) (v : Word)
  /-- THREAD_STOPPED (R64). -/
  | threadStopped (th : Thr)
  /-- PIER_THPC_WRITE (R65). -/
  | pierThpcWrite (src : Src) (th : Thr) (v : Word)
  /-- PIER_EVMASK_WRITE (R68). -/
  | pierEvmaskWrite (src : Src) (th : Thr) (hi : Bool) (v : Word)
  /-- IN_PACKET (R536). -/
  | inPacket (id : Nat) (d : Damage)
  /-- OUT_PACKET (R536). -/
  | outPacket (id : Nat) (d : Damage)
  /-- DRD (R243). -/
  | drd (id : Nat) (d : Damage)
  /-- BULK_WRITE (R243). -/
  | bulkWrite (id : Nat) (d : Damage) (w : Nat)
  /-- RD (R208). -/
  | rd (id : Nat) (d : Damage) (w : Nat)
  /-- WR_INLINE (R208). -/
  | wrInline (id : Nat) (d : Damage) (w : Nat)
  /-- READ_RESPONSE (R45). -/
  | readResponse (id : Nat) (d : Damage)
  /-- WRITE_ACKNOWLEDGEMENT (R46). -/
  | writeAcknowledgement (id : Nat) (d : Damage)
  /-- ERROR_RESPONSE (R247). -/
  | errorResponse (id : Nat) (d : Damage)
  /-- EVENT (R229). -/
  | event (i : Nat) (d : Damage) (stop : Fin 24)
  /-- SYSCAUSE (R133). -/
  | syscause (i : Nat) (d : Damage) (stop : Fin 24)
  /-- SPANFAULT (R135). -/
  | spanfault (i : Nat) (d : Damage)
  /-- REQUEST_TIMEOUT (R248). -/
  | requestTimeout (id : Nat)
  /-- QUIESCE_TIMEOUT (R251). -/
  | quiesceTimeout (isl : Fin 30)
  /-- SHELL_OFFLINE (R251). -/
  | shellOffline (isl : Fin 30) (ni : Fin 56)
  /-- VIA_RT_SEL_WRITE (R254). -/
  | viaRtSelWrite (v : Word)
  /-- VIA_RT_DATA_WRITE (R238). -/
  | viaRtDataWrite (v : Word)
  /-- GROUP_START (R540). -/
  | groupStart (q : QIx)
  /-- ELEMENT_LOAD_RETURN (R166). -/
  | elementLoadReturn (q : QIx) (gi : Nat) (u : Fin 3) (k : Nat) (d b : Damage) (w : Nat)
  /-- CONFLICT_CHECK (R168). -/
  | conflictCheck (q : QIx) (gi : Nat) (u : Fin 3) (k : Nat)
  /-- REPLAY_REISSUE (R169). -/
  | replayReissue (q : QIx) (gi : Nat)
  /-- STORE_ACKNOWLEDGEMENT (R167). -/
  | storeAcknowledgement (q : QIx) (d b : Damage) (w : Nat)
  /-- JOB_FAULT_END (R173). -/
  | jobFaultEnd (q : QIx)
  /-- JOB_COMPLETION (R199). -/
  | jobCompletion (q : QIx) (raw : Nat)
  /-- SPAN_VADD (R185). -/
  | spanVadd (q : QIx)
  /-- SPAN_VSUB (R185). -/
  | spanVsub (q : QIx)
  /-- SPAN_VMUL (R185). -/
  | spanVmul (q : QIx)
  /-- SPAN_VFMA (R185). -/
  | spanVfma (q : QIx)
  /-- VFMS (R185). -/
  | vfms (q : QIx)
  /-- VFNMA (R185). -/
  | vfnma (q : QIx)
  /-- VCMUL (R185). -/
  | vcmul (q : QIx)
  /-- VBFLY (R185). -/
  | vbfly (q : QIx)
  /-- VCABS2 (R185). -/
  | vcabs2 (q : QIx)
  /-- VMOV (R185). -/
  | vmov (q : QIx)
  /-- VIADD (R185). -/
  | viadd (q : QIx)
  /-- VISUB (R185). -/
  | visub (q : QIx)
  /-- VIMUL (R185). -/
  | vimul (q : QIx)
  /-- SPAN_VAND (R185). -/
  | spanVand (q : QIx)
  /-- SPAN_VOR (R185). -/
  | spanVor (q : QIx)
  /-- SPAN_VXOR (R185). -/
  | spanVxor (q : QIx)
  /-- VSHL (R185). -/
  | vshl (q : QIx)
  /-- VSHR (R185). -/
  | vshr (q : QIx)
  /-- SPAN_VMIN (R185). -/
  | spanVmin (q : QIx)
  /-- SPAN_VMAX (R185). -/
  | spanVmax (q : QIx)
  /-- SPAN_VABS (R185). -/
  | spanVabs (q : QIx)
  /-- SPAN_VNEG (R185). -/
  | spanVneg (q : QIx)
  /-- VCMP (R185). -/
  | vcmp (q : QIx)
  /-- SPAN_VSEL (R185). -/
  | spanVsel (q : QIx)
  /-- SPAN_VCVT (R186). -/
  | spanVcvt (q : QIx)
  /-- VIOTA (R185). -/
  | viota (q : QIx)
  /-- VTLI (R190). -/
  | vtli (q : QIx)
  /-- VLUT (R185). -/
  | vlut (q : QIx)
  /-- VRSUM (R189). -/
  | vrsum (q : QIx)
  /-- VRMIN (R189). -/
  | vrmin (q : QIx)
  /-- VRMAX (R189). -/
  | vrmax (q : QIx)
  /-- VRMINI (R189). -/
  | vrmini (q : QIx)
  /-- VRMAXI (R189). -/
  | vrmaxi (q : QIx)
  /-- VEND (R182). -/
  | vend (q : QIx)
  /-- SPAN_CTL_WRITE (R181). -/
  | spanCtlWrite (q : QIx) (v : Word)
  /-- JOB_SUBMISSION (R193). -/
  | jobSubmission (src : Src) (v : Word)
  /-- ABORT_SLOT (R201). -/
  | abortSlot (src : Src) (slot : BitVec 8)
  /-- ABORT_TAG (R201). -/
  | abortTag (src : Src) (tag : BitVec 16)
  /-- ABORT_ALL (R201). -/
  | abortAll (src : Src)
  /-- ABORT_DRAINED (R201). -/
  | abortDrained (q : QIx)
  /-- SCRUB_WRITE_BACK (R209). -/
  | scrubWriteBack (w : Nat)
  /-- DECK_INIT_START (R212). -/
  | deckInitStart (q : QIx)
  /-- DECK_INIT_DONE (R212). -/
  | deckInitDone (q : QIx)
  /-- DECK_ECC_INJ_WRITE (R211). -/
  | deckEccInjWrite (q : QIx) (v : Word)
  /-- DMA_START (R214). -/
  | dmaStart (c : Fin 16) (stop prio : Bool)
  /-- DMA_STOP (R221). -/
  | dmaStop (c : Fin 16) (prio : Bool)
  /-- DMA_CH_DESC_WRITE (R214). -/
  | dmaChDescWrite (c : Fin 16) (v : Word)
  /-- DMA_STOP_DRAINED (R221). -/
  | dmaStopDrained (c : Fin 16)
  /-- GAUGE_CLEAR (R259). -/
  | gaugeClear (g : Fin 24) (v : Word)
  /-- TRACE_START (R262). -/
  | traceStart (g : Fin 24) (v : Word)
  /-- TRACE_STOP (R262). -/
  | traceStop (g : Fin 24) (v : Word)
  /-- GAUGE_PACKET_OBSERVED (R257). -/
  | gaugePacketObserved (g : Fin 24) (h : Head) (mal : Bool)
  /-- GAUGE_TRIGGER (R265). -/
  | gaugeTrigger (g : Fin 24) (n : Nat) (head : Bool)
  /-- TRACE_RECORD_ACK (R264). -/
  | traceRecordAck (g : Fin 24)
  /-- REFCLK_MONITOR_WINDOW (R269). -/
  | refclkMonitorWindow (count : Nat)
  /-- LOCK_WINDOW (R271). -/
  | lockWindow (pll : Pll) (count : Nat)
  /-- IOPLL_RELOCK_TIMEOUT (R272). -/
  | iopllRelockTimeout
  /-- BAND_SEARCH_STEP (R277). -/
  | bandSearchStep (count : Nat)
  /-- HOP_REQUEST (R283). -/
  | hopRequest (src : Src) (op : OpIx)
  /-- HOP_START (R281). -/
  | hopStart
  /-- MEMO_CLR (R278). -/
  | memoClr (v : Word)
  /-- SPLL_OPCFG_WRITE (R275). -/
  | spllOpcfgWrite (src : Src) (op : OpIx) (v : Word)
  /-- SPLL_SSC_WRITE (R286). -/
  | spllSscWrite (src : Src) (v : Word)
  /-- SSC_APPLY (R286). -/
  | sscApply
  /-- CPLL_CTL_WRITE (R273). -/
  | cpllCtlWrite (v : Word)
  /-- ISLAND_RESET (R288). -/
  | islandReset (src : Src) (isl : Fin 32)
  /-- ISLAND_GATE (R288). -/
  | islandGate (src : Src) (isl : Fin 32)
  /-- ISLAND_OFF (R288). -/
  | islandOff (src : Src) (isl : Fin 32)
  /-- ISLAND_RESTART (R288). -/
  | islandRestart (src : Src) (isl : Fin 32)
  /-- ISLAND_ACTION_END (R288). -/
  | islandActionEnd (isl : Fin 30)
  /-- ISLAND_DIV_WRITE (R290). -/
  | islandDivWrite (src : Src) (isl : Fin 30) (v : Word)
  /-- THERMAL_SAMPLE (R295). -/
  | thermalSample (rs : List (Option Int))
  /-- PMBUS_POLL (R298). -/
  | pmbusPoll (cmd vout iout sword : PmbReply)
  /-- LEDGER_TICK (R302). -/
  | ledgerTick (base : Nat)
  /-- UPSTEP_TIMEOUT (R312). -/
  | upstepTimeout
  /-- WINDOW_CLOSE (R303). -/
  | windowClose
  /-- ACCT_CLOSE (R303). -/
  | acctClose (src : Src) (v : Word)
  /-- TRIM_UPDATE (R305). -/
  | trimUpdate (drawn : List Nat)
  /-- ADMISSION (R309). -/
  | admission
  /-- TRIP_CLR (R316). -/
  | tripClr (src : Src) (v : Word)
  /-- LDR_OP_VSET (R313). -/
  | ldrOpVset (src : Src) (mv : BitVec 10)
  /-- FLC_READ (R331). -/
  | flcRead (src : Src) (v : Word)
  /-- FLC_APPEND (R334). -/
  | flcAppend (src : Src) (v : Word)
  /-- FLC_JREAD (R335). -/
  | flcJread (src : Src) (v : Word)
  /-- FLC_PROGRAM (R331). -/
  | flcProgram
  /-- FLC_ERASE (R339). -/
  | flcErase
  /-- DIE_OPERATION_COMPLETE (R331). -/
  | dieOperationComplete (o : DieOut)
  /-- FLC_OPERATION_TIMEOUT (R325). -/
  | flcOperationTimeout
  /-- TAIL_ERASE (R335). -/
  | tailErase
  /-- BBT_COPY_RECORD (R342). -/
  | bbtCopyRecord
  /-- FLC_INIT (R344). -/
  | flcInit (dieOk : Bool) (fails : List Nat)
  /-- FLC_BUF_DATA_ACCESS (R329). -/
  | flcBufDataAccess (src : Src) (w : Option Word)
  /-- FLC_RDWAIT_WRITE (R326). -/
  | flcRdwaitWrite (src : Src) (v : Word)
  /-- PWRFAIL_ASSERT (R366). -/
  | pwrfailAssert
  /-- PWRFAIL_DEASSERT (R366). -/
  | pwrfailDeassert
  /-- VAULT_RECORD_WRITE (R348). -/
  | vaultRecordWrite
  /-- OPSEC_ADVANCE (R352). -/
  | opsecAdvance
  /-- RTC_SLEW_WRITE (R355). -/
  | rtcSlewWrite (src : Src) (v : Word)
  /-- SLEW_END (R355). -/
  | slewEnd
  /-- CALENDAR_STEP (R356). -/
  | calendarStep (src : Src) (v : Word)
  /-- CHANNEL_SAMPLE (R357). -/
  | channelSample (n : Fin 64)
  /-- SAMPLE_RESPONSE (R362). -/
  | sampleResponse (id : Nat) (d : Damage)
  /-- REC_PUSH (R364). -/
  | recPush (src : Src) (n : Fin 64) (v : Word)
  /-- CHANNEL_CONFIG_WRITE (R363). -/
  | channelConfigWrite (src : Src) (n : Fin 64) (i : Fin 5) (v : Word)
  /-- FLUSH (R365). -/
  | flush
  /-- REC_FLUSH_NOW (R365). -/
  | recFlushNow (src : Src)
  /-- HISTORY_CLEAR (R368). -/
  | historyClear (src : Src) (v : Word)
  /-- SNAPSHOT_FIRE (R370). -/
  | snapshotFire
  /-- REC_SNAP_FIRE (R369). -/
  | recSnapFire (src : Src) (mask : BitVec 8)
  /-- RECORDER_APPEND (R371). -/
  | recorderAppend
  /-- REC_HIST_SEL_WRITE (R365). -/
  | recHistSelWrite (v : Word)
  /-- REC_CH_SEL_WRITE (R365). -/
  | recChSelWrite (v : Word)
  /-- REC_OPSEC_LO_READ (R352). -/
  | recOpsecLoRead
  /-- RTC_SEC_READ (R354). -/
  | rtcSecRead
  /-- VAULT_CHECK (R350). -/
  | vaultCheck (flips : List (Nat × Bool × Nat))
  /-- PRESS_BEGIN (R381). -/
  | pressBegin
  /-- PRESS_END (R381). -/
  | pressEnd
  /-- HOLD_REACHED (R381). -/
  | holdReached
  /-- WINDOW_EXPIRY (R381). -/
  | windowExpiry
  /-- BUTTON_ARMED (R382). -/
  | buttonArmed
  /-- BTN_STUCK (R382). -/
  | btnStuck
  /-- SEAL_SAMPLE (R380). -/
  | sealSample (level : Bool)
  /-- PAR_CFG_WRITE (R393). -/
  | parCfgWrite (src : Src) (v : Word)
  /-- SLOT_SELECTION (R406). -/
  | slotSelection (errs : List (Nat × List Nat))
  /-- VERIFICATION (R407). -/
  | verification (errs : List (Nat × List Nat))
  /-- OVERLAY_APPLY (R409). -/
  | overlayApply (errs : List (Nat × List Nat))
  /-- ROLE_INSTANTIATION (R410). -/
  | roleInstantiation (errs : List (Nat × List Nat))
  /-- ROUTES_WRITE (R403). -/
  | routesWrite
  /-- RELEASE (R411). -/
  | release
  /-- BOOT_CONFIRM (R414). -/
  | bootConfirm (src : Src) (v : Word)
  /-- TRIAL_CONFIRM (R414). -/
  | trialConfirm (src : Src) (v : Word)
  /-- TRIAL_REJECT (R414). -/
  | trialReject (src : Src) (v : Word)
  /-- BOOT_SYSRESET (R394). -/
  | bootSysreset (src : Src) (v : Word)
  /-- WDT_KEY_WRITE (R417). -/
  | wdtKeyWrite (src : Src) (v : Word)
  /-- WDT_STAGE1 (R416). -/
  | wdtStage1
  /-- WDT_STAGE2 (R416). -/
  | wdtStage2
  /-- PORT_START (R448). -/
  | portStart (src : Src) (mask : BitVec 8)
  /-- PORT_STOP (R448). -/
  | portStop (src : Src) (mask : BitVec 8)
  /-- INPUT_FRAME (R449). -/
  | inputFrame (p : Fin 8) (line : List (Bool × Bool)) (bad : Bool) (period : Nat)
  /-- OUTPUT_FRAME (R449). -/
  | outputFrame (p : Fin 8) (bad : Bool) (period : Nat)
  /-- FOLLOWER_CLOCK_LOSS (R450). -/
  | followerClockLoss (p : Fin 8)
  /-- CALIBRATION_START (R453). -/
  | calibrationStart (src : Src) (p : BitVec 3) (mask : BitVec 8) (log2n : BitVec 4)
  /-- CALIBRATION_SETTLED (R453). -/
  | calibrationSettled
  /-- CALIBRATION_RESULT (R454). -/
  | calibrationResult
  /-- CALIBRATION_RESTORED (R453). -/
  | calibrationRestored
  /-- CVP_OFS_WRITE (R455). -/
  | cvpOfsWrite (src : Src) (p i : Fin 8) (v : Word)
  /-- ABUTMENT_TRIP (R458). -/
  | abutmentTrip (src : Fin 17)
  /-- SOURCE_LATCH_SYNC (R460). -/
  | sourceLatchSync
  /-- CLOCKED_MUTE_SOURCE (R461). -/
  | clockedMuteSource (k : Fin 3)
  /-- ABT_RELEASE (R463). -/
  | abtRelease (src : Src) (v : Word)
  /-- FRAME_RECEIVE (R468). -/
  | frameReceive (m : Fin 2) (f : List Byte) (fcsOk full : Bool)
  /-- ARP_RETRY (R472). -/
  | arpRetry (i : Fin 2)
  /-- ARP_AGE (R472). -/
  | arpAge (m : Fin 2) (ip : BitVec 32)
  /-- TX_DISCARD (R470). -/
  | txDiscard (m : Fin 2)
  /-- PHY_POLL (R465). -/
  | phyPoll (m : Fin 2) (r1 r4 r5 r9 r10 : BitVec 16)
  /-- MDIO_CMD (R466). -/
  | mdioCmd (src : Src) (v : Word)
  /-- MDIO_COMPLETE (R466). -/
  | mdioComplete (data : BitVec 16)
  /-- DHCP_RETRANSMIT (R475). -/
  | dhcpRetransmit (m : Fin 2)
  /-- DHCP_T1 (R475). -/
  | dhcpT1 (m : Fin 2)
  /-- DHCP_T2 (R475). -/
  | dhcpT2 (m : Fin 2)
  /-- LEASE_EXPIRY (R475). -/
  | leaseExpiry (m : Fin 2)
  /-- HELLO (R479). -/
  | hello
  /-- BYE (R480). -/
  | bye
  /-- PRESENCE_STATUS (R482). -/
  | presenceStatus
  /-- CLOSE (R381). -/
  | close
  /-- READ_IO (R483). -/
  | readIo (cut : Option Nat)
  /-- WRITE_IO (R484). -/
  | writeIo (cut : Option Nat)
  /-- READ_HIST (R485). -/
  | readHist
  /-- READ_EXTREMES (R485). -/
  | readExtremes
  /-- READ_LOG (R486). -/
  | readLog
  /-- STREAM_OPEN (R489). -/
  | streamOpen
  /-- STREAM_CLOSE (R489). -/
  | streamClose
  /-- SET_TIME (R487). -/
  | setTime
  /-- UPDATE_BEGIN (R419). -/
  | updateBegin
  /-- UPDATE_DATA (R420). -/
  | updateData
  /-- UPDATE_COMMIT (R422). -/
  | updateCommit
  /-- RESET (R482). -/
  | reset
  /-- FOBEX_RESET_DELAY (R482). -/
  | fobexResetDelay
  /-- SESSION_AGEOUT (R480). -/
  | sessionAgeout (k : Fin 4)
  /-- LANE_START_TIMEOUT (R481). -/
  | laneStartTimeout (i : Nat)
  /-- FSV_STREAM_DATA_WRITE (R489). -/
  | fsvStreamDataWrite (src : Src) (n : Fin 4) (v : Word)
  /-- STREAM_PUSH (R490). -/
  | streamPush (src : Src) (n : Fin 4) (v : Word)
  /-- STREAM_MAXAGE (R490). -/
  | streamMaxage (n : Fin 4)
  /-- ETH_FRX_DATA_READ (R491). -/
  | ethFrxDataRead (src : Src)
  /-- ETH_FRX_POP (R491). -/
  | ethFrxPop (src : Src) (v : Word)
  /-- ETH_FTX_DATA_WRITE (R491). -/
  | ethFtxDataWrite (src : Src) (v : Word)
  /-- ETH_FTX_SEND (R491). -/
  | ethFtxSend (src : Src) (v : Word)
  /-- PANEL_ENABLE (R493). -/
  | panelEnable (src : Src) (v : Word)
  /-- PANEL_SCAN (R499). -/
  | panelScan (counts : List Nat)
  /-- SAVE_REF (R500). -/
  | saveRef (src : Src) (v : Word)
  /-- REBASE (R499). -/
  | rebase (src : Src) (mask : BitVec 12) (v : Word)
  /-- GPIO_OSET (R502). -/
  | gpioOset (b : Fin 2) (v : Word)
  /-- GPIO_OCLR (R502). -/
  | gpioOclr (b : Fin 2) (v : Word)
  /-- GPIO_EDGE (R503). -/
  | gpioEdge (b : Fin 2) (i : Fin 32) (level : Bool)
  /-- PWM_PERIOD_BOUNDARY (R504). -/
  | pwmPeriodBoundary (c : Fin 16)
  /-- PWM_CFG_WRITE (R504). -/
  | pwmCfgWrite (c : Fin 16) (v : Word)
  /-- UART_TXD (R506). -/
  | uartTxd (u : Fin 4) (b : Byte)
  /-- UART_RECEIVE (R506). -/
  | uartReceive (u : Fin 4) (b : Byte) (stopOk parOk low : Bool)
  /-- UART_RXD_READ (R506). -/
  | uartRxdRead (u : Fin 4)
  /-- I2C_CMD (R508). -/
  | i2cCmd (m : Fin 2) (v : Word)
  /-- I2C_TRANSFER_END (R508). -/
  | i2cTransferEnd (m : Fin 2) (r : Fin 5) (n : Nat) (got : List Byte)
  /-- I2C_DATA (R508). -/
  | i2cData (m : Fin 2) (b : Option Byte)
  /-- SPI_CMD (R509). -/
  | spiCmd (m : Fin 2) (v : Word)
  /-- SPI_TRANSFER_END (R509). -/
  | spiTransferEnd (m : Fin 2) (got : List Byte)
  /-- SPI_DATA (R509). -/
  | spiData (m : Fin 2) (b : Option Byte)
  /-- TRIG_IN (R510). -/
  | trigIn (level : Bool)
  /-- TRIG_PULSE (R510). -/
  | trigPulse (v : Word)
  /-- PULSE_END (R510). -/
  | pulseEnd
  /-- EXTEST (R531). -/
  | extest (sel : Bool)
  /-- DBGACC_IO_READ (R532). -/
  | dbgaccIoRead (a : BitVec 16)
  /-- DBGACC_IO_WRITE (R532). -/
  | dbgaccIoWrite (a : BitVec 16) (v : Word)
  /-- DBGACC_REG_READ (R532). -/
  | dbgaccRegRead (th : Thr) (r : BitVec 8)
  /-- DBGACC_REG_WRITE (R532). -/
  | dbgaccRegWrite (th : Thr) (r : BitVec 8) (v : Word)
  /-- ABUTMENT_SOURCE_CLEAR (R463). -/
  | abutmentSourceClear (src : Fin 17)
  /-- VAULT_WRITE_COMPLETE (R348). -/
  | vaultWriteComplete (ok : Bool)
  /-- UART_CHARACTER_SENT (R507). -/
  | uartCharacterSent (u : Fin 4)
  /-- FRAME_TRANSMIT_END (R470). -/
  | frameTransmitEnd (m : Fin 2)
  /-- PAUSE_EXPIRY (R470). -/
  | pauseExpiry (m : Fin 2)
  /-- SEQUENCER_VOUT_TIMEOUT (R395). -/
  | sequencerVoutTimeout
  deriving DecidableEq, Repr

end Sys2Proof
end

