-- ==== Sys2Proof/Decode.lean ====
section
/-!
DEFINITION. The command that a word of spec/opcode_table.json spells. The table gives no row any bits (every row's fields are
empty): a command of this block is a register access, an instruction issue or an event, and its operands come from outside as
they stand in Syntax.lean. No word spells a command.

Choices and readings of this file: log 6.
-/

namespace Sys2Proof

/-- The command a word of `nbits` bits spells by the table's bits: none, since the table gives no row bits. -/
def decodeTableWord (_nbits _w : Nat) : Option Instr := none

end Sys2Proof
end

