-- ==== Sys2Proof/Config.lean ====
section
/-!
DEFINITION. The free values: what the spec leaves open and the device nevertheless has. Each is an opaque constant
without a body, applied to a counter of the state or to the operands it depends on, so that no proof can rest on a
value. notes/assumptions names each.

Choices and readings of this file: log 9, 41, 50, 83, 112, 116.
-/

namespace Sys2Proof.Config

/-- A value the spec leaves undefined at one moment of a run; the state's `free` counter says which moment. -/
opaque freeNat : Nat → Nat

/-- Whether a higher VCO band number means a higher frequency (R277 does not say). -/
opaque bandRises : Bool

/-- The factory MAC address of the IDENT record (R467). -/
opaque factoryMac : BitVec 48

/-- The next number of the session LFSR, whose polynomial the spec does not give (R478). -/
opaque sessionLfsr : Nat → BitVec 16

/-- The range of VDD_FL the integrator's regulator guarantees (R326, Table flc-7): 0 1.71–1.75 V, 1 1.75–1.85 V, 2 1.85–1.89 V. -/
opaque flashVdd : Fin 3

/-- The level at which a clock master that is not RUNNING holds CVPp_BCLK, by BEDGE (R448; the spec names it inactive and no more). -/
opaque bclkIdle : Bool → Bool

end Sys2Proof.Config
end

