-- ==== Sys2Proof/Machine/Regs.lean ====
section
/-!
DEFINITION. The layout of IO-space: every register's address, every field's place, access code and reset value,
from the Register reference sections of spec/02 and spec/05 to spec/20, laid out by block as R533 and R534 state.
-/

namespace Sys2Proof.Machine

/-- Access codes of a field (R11, Table scope-9). -/
inductive Acc where
  | ro | rw | wo | w1c | w1s | rc | rwl | rwp | rws
  deriving DecidableEq, Repr

/-- A field of a register as the table of its register entry gives it. -/
structure FSpec where
  lo : Nat
  width : Nat
  acc : Acc
  rst : Nat
  deriving DecidableEq, Repr

/-- `cnt` registers of one layout from offset `off` of their block. -/
structure RRow where
  off : Nat
  cnt : Nat
  fields : List FSpec
  deriving DecidableEq, Repr

/-- A named field: register address, lowest bit, width. -/
structure Fd where
  addr : Nat
  lo : Nat
  width : Nat
  deriving DecidableEq, Repr

/-- A row for `cnt` registers from offset `off`. -/
def row (off cnt : Nat) (fs : List FSpec) : RRow := ⟨off, cnt, fs⟩
/-- A field row. -/
def fld (lo w : Nat) (a : Acc) (r : Nat) : FSpec := ⟨lo, w, a, r⟩

/-- Pier-local registers (spec/02, spec/05; R534). -/
def pierRows : List RRow :=
  [ row 0x0 1 [fld 0 4 .ro 0, fld 8 8 .ro 161],
    row 0x1 1 [fld 0 8 .rw 0],
    row 0x2 1 [fld 0 3 .ro 0, fld 3 3 .ro 0, fld 6 3 .ro 0, fld 9 3 .ro 0, fld 12 3 .ro 0, fld 15 3 .ro 0, fld 18 3 .ro 0, fld 21 3 .ro 0],
    row 0x3 1 [fld 0 8 .rw 0],
    row 0x4 1 [fld 0 1 .w1c 0, fld 1 2 .ro 0, fld 8 6 .rw 0, fld 14 1 .rw 0],
    row 0x5 1 [fld 0 32 .w1c 0],
    row 0x6 1 [fld 0 32 .w1c 0],
    row 0x7 1 [fld 0 16 .rc 0],
    row 0x8 8 [fld 2 15 .rw 0],
    row 0x10 8 [fld 0 32 .rw 0],
    row 0x18 8 [fld 0 32 .rw 0],
    row 0x20 1 [fld 0 32 .rc 0],
    row 0x21 1 [fld 0 32 .rc 0],
    row 0x22 1 [fld 0 32 .ro 0],
    row 0x23 1 [fld 0 32 .ro 0],
    row 0x24 1 [fld 0 32 .rc 0],
    row 0x40 1 [fld 0 1 .w1s 0, fld 8 6 .rw 0, fld 14 1 .rw 0],
    row 0x41 1 [fld 2 15 .rwl 0],
    row 0x42 1 [fld 5 11 .rwl 0],
    row 0x43 1 [fld 0 9 .rwl 0],
    row 0x44 1 [fld 3 13 .rwl 0],
    row 0x45 1 [fld 3 14 .rwl 0],
    row 0x46 4 [fld 0 1 .rwl 0, fld 1 1 .rwl 0, fld 3 29 .rwl 0],
    row 0x4A 4 [fld 3 29 .rwl 0],
    row 0x4E 2 [fld 0 16 .rwl 0xffff, fld 16 16 .rwl 0],
    row 0x50 1 [fld 0 8 .w1c 0, fld 8 1 .w1c 0],
    row 0x51 1 [fld 0 8 .ro 0, fld 8 3 .ro 0],
    row 0x52 1 [fld 0 32 .ro 0],
    row 0x53 1 [fld 0 8 .rw 0, fld 8 8 .rw 0, fld 16 8 .rw 0, fld 24 8 .rw 0],
    row 0x54 1 [fld 0 32 .w1c 0],
    row 0x55 1 [fld 0 8 .w1c 0, fld 16 16 .rc 0],
    row 0x58 8 [fld 0 32 .rw 0],
    row 0x60 8 [fld 0 32 .rw 0],
    row 0x68 1 [fld 0 8 .rw 0, fld 8 8 .rw 0],
    row 0x69 1 [fld 0 8 .w1c 0] ]

/-- Span registers (spec/06, spec/07). -/
def spanRows : List RRow :=
  [ row 0x0 1 [fld 0 2 .ro 0, fld 8 8 .ro 161],
    row 0x1 1 [fld 0 2 .ro 0, fld 2 1 .ro 0, fld 8 1 .w1c 0, fld 16 6 .rw 0, fld 22 1 .rw 0],
    row 0x2 1 [fld 0 1 .rw 1],
    row 0x3 1 [fld 0 16 .ro 0, fld 16 8 .ro 0, fld 31 1 .ro 0],
    row 0x4 1 [fld 0 24 .ro 0],
    row 0x5 1 [fld 0 8 .ro 0, fld 8 8 .ro 0, fld 16 8 .ro 0, fld 24 8 .ro 0],
    row 0x6 1 [fld 0 10 .rc 0],
    row 0x7 1 [fld 0 4 .ro 0],
    row 0x8 1 [fld 0 32 .rc 0],
    row 0x9 1 [fld 0 32 .rc 0],
    row 0xA 1 [fld 0 32 .rc 0],
    row 0xB 1 [fld 0 32 .rc 0],
    row 0xC 1 [fld 0 32 .ro 0],
    row 0xD 1 [fld 0 32 .ro 0],
    row 0x40 1 [fld 0 32 .ro 0],
    row 0x41 1 [fld 0 32 .rc 0],
    row 0x42 1 [fld 0 32 .ro 0],
    row 0x43 1 [fld 0 1 .ro 0, fld 3 29 .ro 0],
    row 0x44 1 [fld 0 32 .rc 0] ]

/-- Dispatcher (spec/07). -/
def dispRows : List RRow :=
  [ row 0x0 1 [fld 0 32 .wo 0],
    row 0x1 1 [fld 0 1 .w1c 0, fld 1 1 .w1c 0, fld 8 6 .rw 0, fld 14 1 .rw 0],
    row 0x2 1 [fld 0 4 .ro 0, fld 4 4 .ro 0, fld 8 3 .ro 0, fld 11 1 .ro 0, fld 12 1 .ro 0],
    row 0x3 1 [fld 0 32 .ro 0],
    row 0x4 1 [fld 0 9 .ro 256, fld 9 9 .ro 0, fld 18 3 .ro 0],
    row 0x5 1 [fld 0 8 .wo 0, fld 8 16 .wo 0, fld 30 2 .wo 0],
    row 0x6 1 [fld 0 8 .rw 0],
    row 0x7 1 [fld 0 2 .ro 0, fld 2 2 .ro 0, fld 4 2 .ro 0, fld 6 4 .ro 0, fld 10 3 .ro 0, fld 16 16 .ro 0],
    row 0x8 1 [fld 0 32 .ro 0],
    row 0x9 1 [fld 0 32 .rc 0],
    row 0xA 1 [fld 0 8 .ro 0, fld 16 16 .ro 0] ]

/-- Deck quarter (spec/08). -/
def deckRows : List RRow :=
  [ row 0x0 1 [fld 0 1 .w1c 0, fld 1 1 .ro 0, fld 2 1 .ro 0, fld 8 6 .rw 0, fld 14 1 .rw 0],
    row 0x1 1 [fld 0 1 .wo 0],
    row 0x2 1 [fld 0 32 .rw 0],
    row 0x3 1 [fld 0 8 .rw 32, fld 8 8 .rw 128],
    row 0x4 1 [fld 0 6 .rw 0, fld 6 1 .rw 0, fld 8 6 .rw 0, fld 14 1 .rw 0],
    row 0x5 1 [fld 0 32 .rc 0],
    row 0x6 1 [fld 0 32 .ro 0],
    row 0x7 1 [fld 0 32 .rc 0],
    row 0x8 1 [fld 0 32 .ro 0],
    row 0x9 1 [fld 0 2 .rw 0, fld 3 22 .rw 0],
    row 0xA 1 [fld 0 32 .rc 0],
    row 0xB 1 [fld 0 32 .rc 0],
    row 0xC 1 [fld 0 32 .rc 0] ]

/-- DMA (spec/08). -/
def dmaRows : List RRow :=
  [ row 0x0 1 [fld 0 1 .w1c 0, fld 8 6 .rw 0, fld 14 1 .rw 0],
    row 0x1 1 [fld 0 16 .w1c 0],
    row 0x2 1 [fld 0 6 .rw 0, fld 6 1 .rw 0],
    row 0x3 1 [fld 0 16 .ro 0] ]

/-- DMA channel (spec/08). -/
def dmaChRows : List RRow :=
  [ row 0x0 1 [fld 5 27 .rw 0],
    row 0x1 1 [fld 0 1 .wo 0, fld 1 1 .wo 0, fld 8 1 .rw 0],
    row 0x2 1 [fld 0 2 .ro 0, fld 2 2 .ro 0, fld 8 4 .ro 0],
    row 0x3 1 [fld 0 32 .ro 0],
    row 0x4 1 [fld 0 24 .ro 0],
    row 0x5 1 [fld 0 32 .ro 0] ]

/-- Viaduct (spec/09). -/
def viaRows : List RRow :=
  [ row 0x0 1 [fld 0 1 .w1c 0, fld 1 1 .w1c 0, fld 8 6 .rw 0, fld 14 1 .rw 0, fld 15 1 .ro 0, fld 16 6 .rw 0, fld 22 1 .rw 0],
    row 0x1 1 [fld 0 1 .w1s 0],
    row 0x2 1 [fld 0 6 .rw 0, fld 8 6 .rw 0],
    row 0x3 1 [fld 0 32 .rwl 0],
    row 0x4 1 [fld 0 4 .ro 0, fld 8 6 .ro 0, fld 16 6 .ro 0],
    row 0x5 1 [fld 0 16 .rwl 100],
    row 0x6 1 [fld 0 16 .rwl 200],
    row 0x7 1 [fld 0 6 .rw 0, fld 6 2 .rw 0],
    row 0x8 1 [fld 0 2 .ro 0, fld 4 4 .ro 0, fld 8 8 .ro 0],
    row 0x9 1 [fld 0 4 .ro 0, fld 4 4 .ro 0, fld 8 4 .ro 0, fld 12 4 .ro 0],
    row 0xA 1 [fld 0 32 .rc 0],
    row 0xB 1 [fld 0 32 .rc 0],
    row 0xC 1 [fld 0 32 .rc 0],
    row 0xD 1 [fld 0 32 .rc 0],
    row 0xE 1 [fld 0 32 .rc 0],
    row 0xF 1 [fld 0 16 .w1c 0],
    row 0x10 1 [fld 0 32 .rc 0],
    row 0x11 1 [fld 0 32 .rc 0],
    row 0x12 1 [fld 0 32 .rc 0],
    row 0x13 1 [fld 0 2 .ro 0, fld 2 5 .ro 0] ]

/-- Gauge (spec/10). -/
def gaugeRows : List RRow :=
  [ row 0x0 1 [fld 0 1 .rw 0, fld 1 3 .rw 0, fld 4 1 .rw 0, fld 5 1 .wo 0, fld 8 6 .rw 0, fld 14 1 .rw 0, fld 15 1 .rw 0, fld 16 6 .rw 0, fld 22 1 .rw 0],
    row 0x1 1 [fld 0 1 .w1c 0, fld 1 1 .w1c 0],
    row 0x2 1 [fld 0 7 .rw 0, fld 8 7 .rw 0, fld 16 7 .rw 0, fld 24 7 .rw 0],
    row 0x3 1 [fld 0 4 .rw 15, fld 16 16 .rw 0xffff],
    row 0x4 1 [fld 0 32 .rw 0],
    row 0x5 1 [fld 0 32 .rw 0xffffffff],
    row 0x6 5 [fld 0 32 .rc 0],
    row 0xB 1 [fld 0 3 .rw 0, fld 8 24 .rw 0],
    row 0xC 1 [fld 0 2 .rw 0, fld 2 1 .wo 0, fld 3 1 .wo 0, fld 8 8 .rw 0, fld 16 1 .rw 0],
    row 0xD 1 [fld 0 2 .ro 0, fld 2 1 .ro 0, fld 8 24 .ro 0],
    row 0xE 1 [fld 0 8 .rw 0, fld 8 2 .rw 0],
    row 0xF 1 [fld 0 32 .ro 0],
    row 0x10 1 [fld 0 32 .rw 0],
    row 0x11 1 [fld 0 32 .rw 0],
    row 0x12 1 [fld 0 32 .rc 0] ]

/-- Clocks (spec/11). -/
def clkRows : List RRow :=
  [ row 0x0 1 [fld 0 1 .w1c 0, fld 1 1 .ro 1, fld 2 1 .w1c 0, fld 3 1 .ro 0, fld 4 1 .w1c 0, fld 5 1 .w1c 0, fld 8 6 .rw 0, fld 14 1 .rw 0, fld 16 6 .rw 0, fld 22 1 .rw 0],
    row 0x1 1 [fld 0 1 .w1s 0, fld 1 2 .rwl 1, fld 3 3 .rwl 2],
    row 0x2 1 [fld 0 4 .ro 0, fld 4 5 .ro 0],
    row 0x3 1 [fld 0 8 .ro 0, fld 16 16 .rc 0],
    row 0x4 1 [fld 0 5 .wo 0, fld 8 3 .wo 0],
    row 0x10 1 [fld 0 1 .rwl 0, fld 1 1 .wo 0],
    row 0x11 1 [fld 0 3 .ro 0, fld 3 2 .ro 1, fld 5 1 .ro 0, fld 6 1 .w1c 0, fld 7 1 .w1c 0, fld 8 1 .ro 0, fld 9 1 .ro 0, fld 10 6 .ro 0],
    row 0x12 1 [fld 0 2 .wo 0],
    row 0x13 1 [fld 0 1 .rw 0, fld 1 1 .rw 0, fld 2 2 .rw 0],
    row 0x14 1 [fld 0 6 .rwl 20],
    row 0x15 1 [fld 0 3 .rw 0],
    row 0x16 1 [fld 0 1 .ro 0, fld 1 7 .ro 0, fld 8 6 .ro 0, fld 16 8 .ro 0, fld 24 3 .ro 0],
    row 0x17 1 [fld 0 16 .ro 0, fld 16 16 .ro 0],
    row 0x18 1 [fld 0 16 .ro 0, fld 16 16 .ro 0],
    row 0x19 1 [fld 0 32 .rc 0],
    row 0x1A 1 [fld 0 16 .ro 0],
    row 0x20 1 [fld 0 7 .rwl 64, fld 8 3 .rwl 4],
    row 0x21 1 [fld 0 7 .rwl 72, fld 8 3 .rwl 3],
    row 0x22 1 [fld 0 7 .rwl 64, fld 8 3 .rwl 2],
    row 0x23 1 [fld 0 7 .rwl 80, fld 8 3 .rwl 2],
    row 0x30 1 [fld 0 1 .rw 0, fld 1 1 .rw 0],
    row 0x31 1 [fld 0 1 .ro 0, fld 1 1 .w1c 0],
    row 0x40 16 [fld 0 3 .ro 0, fld 4 2 .rw 0],
    row 0x50 7 [fld 0 3 .ro 0, fld 4 2 .ro 0],
    row 0x57 1 [fld 0 3 .ro 0, fld 4 2 .rw 2],
    row 0x58 1 [fld 0 3 .ro 0, fld 4 2 .ro 0],
    row 0x59 1 [fld 0 3 .ro 3, fld 4 2 .ro 0],
    row 0x5A 4 [fld 0 3 .ro 0, fld 4 2 .ro 0] ]

/-- Load rating, thermal, PMBus (spec/12). -/
def ldrRows : List RRow :=
  [ row 0x0 1 [fld 0 1 .w1c 0, fld 1 1 .w1c 0, fld 2 1 .w1c 0, fld 3 1 .w1c 0, fld 4 1 .ro 0, fld 5 1 .w1c 0, fld 6 1 .w1c 0, fld 7 1 .ro 0, fld 8 2 .ro 0, fld 12 4 .ro 0],
    row 0x1 1 [fld 0 1 .w1s 0, fld 1 1 .rwl 0, fld 2 1 .wo 0],
    row 0x2 1 [fld 0 6 .rw 0, fld 6 1 .rw 0, fld 8 6 .rw 0, fld 14 1 .rw 0],
    row 0x3 1 [fld 0 16 .rwl 0x4e20, fld 16 16 .rwl 3200],
    row 0x4 1 [fld 0 32 .ro 0],
    row 0x5 1 [fld 0 32 .ro 0],
    row 0x6 1 [fld 0 32 .ro 0],
    row 0x7 1 [fld 0 32 .ro 0],
    row 0x8 1 [fld 0 32 .ro 0],
    row 0x9 1 [fld 0 32 .ro 0],
    row 0xA 1 [fld 0 10 .rw 1, fld 10 1 .wo 0, fld 16 16 .ro 0],
    row 0xB 1 [fld 0 32 .ro 0],
    row 0xC 1 [fld 0 32 .ro 0],
    row 0xD 1 [fld 0 32 .ro 0],
    row 0xE 1 [fld 0 32 .ro 0],
    row 0xF 1 [fld 0 32 .ro 0],
    row 0x10 1 [fld 0 16 .rwl 2000, fld 16 16 .rwl 1000],
    row 0x11 1 [fld 0 16 .rwl 100],
    row 0x12 1 [fld 0 11 .rwl 617],
    row 0x13 1 [fld 0 11 .rwl 735],
    row 0x14 1 [fld 0 11 .rwl 862],
    row 0x15 1 [fld 0 11 .rwl 1024],
    row 0x16 1 [fld 0 10 .rwl 660],
    row 0x17 1 [fld 0 10 .rwl 720],
    row 0x18 1 [fld 0 10 .rwl 780],
    row 0x19 1 [fld 0 10 .rwl 850],
    row 0x1A 1 [fld 0 16 .rwl 1600, fld 16 8 .rwl 100, fld 24 8 .rwl 115],
    row 0x1B 1 [fld 0 16 .rwl 4000, fld 16 16 .rwl 0x3e80],
    row 0x1C 1 [fld 0 16 .rwl 100, fld 16 8 .rwl 10],
    row 0x1D 1 [fld 0 8 .rwl 108, fld 8 8 .rwl 112, fld 16 4 .rwl 2],
    row 0x1E 1 [fld 0 2 .ro 1, fld 2 2 .ro 1, fld 4 1 .ro 0, fld 16 10 .rw 720],
    row 0x1F 1 [fld 0 16 .ro 0, fld 16 16 .ro 0],
    row 0x20 1 [fld 0 16 .rc 0, fld 16 16 .rc 0],
    row 0x21 1 [fld 0 32 .rc 0],
    row 0x22 1 [fld 0 16 .ro 0, fld 16 8 .ro 0, fld 24 1 .ro 0],
    row 0x23 1 [fld 0 16 .ro 0x4000, fld 16 1 .ro 0],
    row 0x24 1 [fld 0 16 .ro 0, fld 16 2 .ro 0],
    row 0x80 24 [fld 0 16 .ro 0, fld 16 1 .ro 1],
    row 0x98 1 [fld 0 16 .ro 0, fld 16 5 .ro 0, fld 21 1 .ro 0, fld 22 1 .ro 0],
    row 0x99 1 [fld 0 16 .rc 0x8000],
    row 0xC0 1 [fld 0 7 .rwl 64, fld 7 1 .rwl 1, fld 8 1 .rwl 0, fld 9 5 .rwl 23],
    row 0xC1 1 [fld 0 1 .ro 0, fld 1 1 .w1c 0, fld 8 8 .rc 0, fld 16 16 .ro 0],
    row 0xC2 1 [fld 0 16 .ro 0, fld 16 16 .ro 0],
    row 0xC3 1 [fld 0 16 .ro 0],
    row 0xC4 1 [fld 0 16 .rwl 0, fld 16 16 .rwl 800] ]

/-- Flash (spec/13). -/
def flashRows : List RRow :=
  [ row 0x0 1 [fld 0 1 .w1c 0, fld 1 1 .ro 0, fld 2 1 .ro 1, fld 3 1 .ro 0, fld 4 1 .w1c 0, fld 5 1 .w1c 0, fld 6 1 .ro 0, fld 7 1 .ro 0, fld 8 4 .ro 0, fld 12 1 .ro 0],
    row 0x1 1 [fld 0 4 .wo 0, fld 4 1 .wo 0, fld 8 13 .wo 0],
    row 0x2 1 [fld 0 11 .rw 0, fld 16 8 .rw 0],
    row 0x3 1 [fld 0 32 .rw 0],
    row 0x4 1 [fld 0 4 .ro 0, fld 4 1 .ro 0, fld 5 3 .ro 0, fld 8 6 .ro 0],
    row 0x5 1 [fld 0 4 .rw 15],
    row 0x6 1 [fld 2 11 .rw 0, fld 16 1 .rw 0],
    row 0x7 1 [fld 0 32 .rw 0],
    row 0x8 1 [fld 0 6 .rw 0, fld 6 1 .rw 0, fld 8 6 .rw 0, fld 14 1 .rw 0, fld 16 6 .rw 0, fld 22 1 .rw 0],
    row 0x9 1 [fld 0 20 .ro 0],
    row 0xA 1 [fld 0 20 .ro 0],
    row 0xB 1 [fld 0 20 .ro 0],
    row 0xC 1 [fld 0 20 .ro 0],
    row 0xD 1 [fld 0 32 .ro 0],
    row 0xE 1 [fld 0 32 .ro 0],
    row 0xF 1 [fld 0 32 .rc 0],
    row 0x10 1 [fld 0 32 .rc 0],
    row 0x11 1 [fld 0 32 .rc 0],
    row 0x12 1 [fld 0 11 .rw 0],
    row 0x13 1 [fld 0 2 .ro 0, fld 2 3 .ro 0, fld 5 1 .ro 1, fld 6 4 .ro 0, fld 10 1 .ro 0, fld 11 21 .ro 0],
    row 0x14 1 [fld 0 5 .ro 0, fld 8 8 .ro 0, fld 16 8 .ro 0] ]

/-- Recorder (spec/14). -/
def recRows : List RRow :=
  [ row 0x0 1 [fld 0 1 .w1c 0, fld 1 1 .w1c 0, fld 2 1 .ro 0, fld 3 1 .ro 0, fld 8 4 .ro 0],
    row 0x1 1 [fld 0 10 .rwp 10],
    row 0x2 1 [fld 0 6 .rw 0, fld 6 1 .rw 0, fld 8 6 .rw 0, fld 14 1 .rw 0],
    row 0x3 1 [fld 0 32 .ro 0],
    row 0x4 1 [fld 0 8 .ro 0],
    row 0x5 1 [fld 0 32 .ro 0],
    row 0x6 1 [fld 0 32 .ro 0],
    row 0x7 1 [fld 0 1 .wo 0, fld 16 16 .ro 0],
    row 0x8 1 [fld 0 32 .rc 0],
    row 0x9 1 [fld 0 32 .rc 0],
    row 0xA 1 [fld 0 6 .rw 0, fld 8 8 .rw 0],
    row 0xB 1 [fld 0 32 .ro 0],
    row 0xC 1 [fld 0 16 .ro 0],
    row 0xD 1 [fld 0 6 .rw 0, fld 8 4 .rw 0],
    row 0xE 1 [fld 0 32 .ro 0],
    row 0xF 1 [fld 0 6 .rw 0, fld 6 2 .rw 0],
    row 0x10 1 [fld 0 32 .ro 0],
    row 0x11 1 [fld 0 6 .rws 0, fld 8 6 .rws 0, fld 16 1 .rws 0, fld 17 1 .rws 0, fld 31 1 .rws 0],
    row 0x12 1 [fld 0 8 .wo 0],
    row 0x13 1 [fld 0 8 .ro 0, fld 8 8 .ro 0] ]

/-- Recorder channel (spec/14). -/
def recChRows : List RRow :=
  [ row 0x0 1 [fld 0 16 .rwp 0, fld 16 2 .rwp 0, fld 18 2 .rwp 0, fld 20 5 .rwp 0, fld 25 5 .rwp 0, fld 31 1 .rwp 0],
    row 0x1 1 [fld 0 14 .rwp 0x2710, fld 16 1 .rwp 0, fld 17 3 .rwp 0],
    row 0x2 1 [fld 0 32 .rwp 0],
    row 0x3 1 [fld 0 32 .rwp 1],
    row 0x4 1 [fld 0 32 .rwp 0],
    row 0x5 1 [fld 0 32 .wo 0] ]

/-- Trigger set (spec/14). -/
def snapRows : List RRow :=
  [ row 0x0 1 [fld 0 7 .rwp 0, fld 8 6 .rwp 0, fld 14 2 .ro 0, fld 16 16 .ro 0],
    row 0x20 32 [fld 0 16 .rwp 0] ]

/-- Parapet, AON and RTC, watchdog (spec/14 to spec/16). -/
def aonRows : List RRow :=
  [ row 0x20 1 [fld 0 1 .ro 0, fld 1 1 .ro 0],
    row 0x21 1 [fld 0 1 .rw 0, fld 8 3 .ro 0],
    row 0x28 1 [fld 0 32 .ro 0],
    row 0x29 1 [fld 0 15 .ro 0],
    row 0x2A 1 [fld 0 1 .ro 0, fld 1 1 .ro 0],
    row 0x2B 1 [fld 0 32 .rw 0],
    row 0x2C 1 [fld 0 32 .rwp 0],
    row 0x2D 1 [fld 0 15 .rwp 0, fld 31 1 .rwp 0],
    row 0x0 1 [fld 0 1 .w1c 0, fld 1 2 .ro 0, fld 3 1 .ro 0, fld 4 1 .ro 0, fld 5 1 .w1c 0, fld 6 1 .ro 0, fld 7 1 .ro 0, fld 8 1 .ro 0, fld 9 1 .ro 0, fld 12 4 .ro 0],
    row 0x1 1 [fld 0 4 .rwp 3, fld 8 6 .rwp 10],
    row 0x2 1 [fld 0 12 .ro 0],
    row 0x3 1 [fld 0 32 .ro 0],
    row 0x4 1 [fld 0 15 .ro 0, fld 15 1 .ro 0, fld 16 1 .ro 0],
    row 0x5 1 [fld 0 32 .ro 0],
    row 0x6 1 [fld 0 16 .ro 0, fld 16 16 .ro 0],
    row 0x7 1 [fld 0 6 .rw 0, fld 6 1 .rw 0, fld 8 6 .rw 0, fld 14 1 .rw 0, fld 16 6 .rw 0, fld 22 1 .rw 0],
    row 0x30 1 [fld 0 1 .w1s 0],
    row 0x31 1 [fld 0 6 .rwl 10, fld 16 14 .rwl 1000],
    row 0x32 1 [fld 0 16 .wo 0],
    row 0x33 1 [fld 0 1 .w1c 0, fld 1 1 .ro 0, fld 2 1 .ro 1, fld 3 1 .ro 0, fld 4 4 .ro 0, fld 16 16 .rc 0],
    row 0x34 1 [fld 0 16 .ro 0x2710] ]

/-- Boot (spec/16). -/
def bootRows : List RRow :=
  [ row 0x0 1 [fld 0 2 .ro 0, fld 2 2 .ro 0, fld 4 1 .ro 0, fld 5 1 .w1c 0, fld 8 4 .ro 0, fld 12 4 .ro 0, fld 16 16 .ro 0],
    row 0x1 1 [fld 0 32 .ro 0],
    row 0x2 1 [fld 0 4 .ro 0, fld 4 4 .ro 0, fld 8 4 .ro 0, fld 12 4 .ro 0],
    row 0x3 1 [fld 0 16 .ro 0],
    row 0x4 1 [fld 0 3 .ro 0],
    row 0x5 1 [fld 0 2 .ro 0, fld 2 2 .ro 0],
    row 0x6 1 [fld 0 32 .ro 0],
    row 0x7 1 [fld 0 32 .ro 0],
    row 0x8 1 [fld 0 32 .ro 0],
    row 0x9 1 [fld 0 32 .ro 0],
    row 0xA 1 [fld 0 16 .wo 0, fld 16 1 .wo 0],
    row 0xB 1 [fld 0 1 .rwp 0, fld 1 1 .rwp 0],
    row 0xC 1 [fld 0 16 .wo 0],
    row 0xD 1 [fld 0 6 .rw 0, fld 6 1 .rw 0] ]

/-- Converter ports (spec/18). -/
def cvpRows : List RRow :=
  [ row 0x0 1 [fld 0 1 .w1c 0, fld 1 1 .w1c 0, fld 2 1 .ro 0, fld 8 4 .ro 0],
    row 0x1 1 [fld 0 8 .wo 0, fld 8 8 .wo 0],
    row 0x2 1 [fld 0 1 .rw 0],
    row 0x3 1 [fld 0 6 .rw 0, fld 6 1 .rw 0, fld 8 6 .rw 0, fld 14 1 .rw 0, fld 16 6 .rw 0, fld 22 1 .rw 0],
    row 0x4 1 [fld 0 3 .rw 0, fld 8 8 .rw 0, fld 16 4 .rw 12, fld 31 1 .wo 0],
    row 0x5 1 [fld 0 32 .rw 64],
    row 0x6 1 [fld 0 32 .rw 256],
    row 0x7 1 [fld 0 10 .rw 20],
    row 0x8 1 [fld 0 2 .ro 0, fld 2 2 .ro 0, fld 4 2 .ro 0, fld 8 3 .ro 0],
    row 0x9 1 [fld 0 32 .ro 0],
    row 0xA 1 [fld 0 32 .ro 0] ]

/-- One converter port (spec/18). -/
def cvpPortRows : List RRow :=
  [ row 0x0 1 [fld 0 1 .rw 0, fld 1 1 .rw 0, fld 2 3 .rw 0, fld 5 2 .rw 2, fld 8 8 .rw 255, fld 16 2 .rw 0, fld 18 1 .rw 0, fld 19 1 .rw 0, fld 20 1 .rw 0, fld 24 8 .rw 0],
    row 0x1 1 [fld 0 2 .ro 0, fld 2 2 .ro 0, fld 4 1 .w1c 0, fld 5 1 .w1c 0, fld 6 1 .w1c 0, fld 7 1 .w1c 0, fld 8 1 .ro 0, fld 16 10 .ro 0],
    row 0x2 1 [fld 0 32 .rc 0],
    row 0x3 1 [fld 0 32 .rc 0],
    row 0x4 1 [fld 0 32 .rc 0],
    row 0x5 1 [fld 0 32 .ro 0],
    row 0x8 8 [fld 0 32 .rw 0] ]

/-- Abutment (spec/18). -/
def abtRows : List RRow :=
  [ row 0x0 1 [fld 0 1 .w1c 0, fld 1 1 .ro 1, fld 2 1 .ro 1, fld 3 1 .ro 0, fld 8 4 .ro 0],
    row 0x1 1 [fld 0 1 .w1s 0, fld 1 1 .rw 0, fld 8 8 .rwl 0],
    row 0x2 1 [fld 0 16 .rwl 0xffff, fld 16 16 .rwl 0xffff],
    row 0x3 1 [fld 0 14 .rwl 100],
    row 0x4 1 [fld 0 21 .ro 0],
    row 0x5 1 [fld 0 21 .ro 0x100000],
    row 0x6 1 [fld 0 16 .wo 0],
    row 0x7 1 [fld 0 16 .ro 0],
    row 0x8 1 [fld 0 32 .rc 0],
    row 0x9 1 [fld 0 32 .ro 0],
    row 0xA 1 [fld 0 6 .rw 0, fld 6 1 .rw 0] ]

/-- Service port (spec/19). -/
def ethRows : List RRow :=
  [ row 0x0 1 [fld 0 1 .w1c 0, fld 1 1 .ro 0, fld 8 4 .ro 0],
    row 0x1 1 [fld 0 1 .w1s 0],
    row 0x2 1 [fld 0 6 .rw 0, fld 6 1 .rw 0, fld 8 6 .rw 0, fld 14 1 .rw 0, fld 16 6 .rw 0, fld 22 1 .rw 0, fld 24 6 .rw 0, fld 30 1 .rw 0],
    row 0x3 1 [fld 0 5 .wo 0, fld 8 5 .wo 0, fld 16 1 .wo 0],
    row 0x4 1 [fld 0 16 .rw 0],
    row 0x80 2 [fld 0 16 .rw 0, fld 16 16 .rw 0],
    row 0x82 3 [fld 0 32 .ro 0],
    row 0x85 1 [fld 0 32 .ro 0],
    row 0x86 1 [fld 0 32 .wo 0],
    row 0x87 1 [fld 0 32 .rw 0],
    row 0x88 1 [fld 0 16 .rw 0, fld 16 16 .rw 0],
    row 0x89 1 [fld 0 32 .wo 0],
    row 0x8A 1 [fld 0 11 .wo 0, fld 16 1 .wo 0],
    row 0x8B 1 [fld 0 2 .ro 0, fld 16 16 .ro 0],
    row 0x100 1 [fld 0 3 .ro 0, fld 3 1 .ro 0, fld 4 4 .ro 0],
    row 0x101 1 [fld 0 2 .rw 0],
    row 0x102 1 [fld 0 32 .ro 0],
    row 0x103 1 [fld 0 32 .ro 0],
    row 0x104 1 [fld 0 32 .ro 0],
    row 0x105 1 [fld 0 32 .rc 0] ]

/-- One MAC (spec/19). -/
def macRows : List RRow :=
  [ row 0x0 1 [fld 0 1 .rwl 1, fld 1 2 .rwl 0, fld 3 1 .rwl 0, fld 4 1 .rwl 0, fld 8 5 .rwl 0],
    row 0x1 1 [fld 0 1 .ro 0, fld 1 1 .ro 0, fld 2 2 .ro 0, fld 4 1 .ro 0],
    row 0x2 1 [fld 0 32 .ro 0],
    row 0x3 1 [fld 0 16 .ro 0],
    row 0x4 1 [fld 0 2 .rwl 2],
    row 0x5 1 [fld 0 32 .rwl 0],
    row 0x6 1 [fld 0 32 .rwl 0],
    row 0x7 1 [fld 0 32 .rwl 0],
    row 0x8 1 [fld 0 12 .rwl 0, fld 12 3 .rwl 0, fld 16 1 .rwl 0, fld 17 1 .rwl 0],
    row 0x9 1 [fld 0 3 .ro 0, fld 8 24 .ro 0],
    row 0xA 1 [fld 0 5 .rw 0],
    row 0xB 1 [fld 0 32 .rc 0],
    row 0xC 1 [fld 0 32 .ro 0],
    row 0xD 1 [fld 0 32 .ro 0] ]

/-- One stream (spec/19). -/
def streamRows : List RRow :=
  [ row 0x0 1 [fld 0 1 .wo 0, fld 8 8 .rw 10],
    row 0x1 1 [fld 0 1 .ro 0, fld 1 15 .ro 0, fld 16 16 .rc 0],
    row 0x2 1 [fld 0 32 .wo 0],
    row 0x3 1 [fld 0 32 .rw 0] ]

/-- Panel (spec/20). -/
def pnlRows : List RRow :=
  [ row 0x0 1 [fld 0 1 .w1c 0, fld 1 1 .ro 0, fld 2 1 .ro 0, fld 8 4 .ro 0],
    row 0x1 1 [fld 0 1 .rw 0, fld 1 1 .w1s 0, fld 2 1 .wo 0, fld 4 4 .rwl 6, fld 16 12 .wo 0],
    row 0x2 1 [fld 0 10 .rwl 120, fld 10 10 .rwl 60, fld 20 10 .rwl 60],
    row 0x3 1 [fld 0 16 .rwl 150, fld 16 16 .rwl 40],
    row 0x4 1 [fld 0 10 .rwl 60, fld 16 10 .rwl 30],
    row 0x5 1 [fld 0 12 .ro 0, fld 16 12 .ro 0],
    row 0x6 1 [fld 0 12 .ro 0, fld 16 12 .w1c 0],
    row 0x7 1 [fld 0 6 .rw 0, fld 6 1 .rw 0, fld 8 6 .rw 0, fld 14 1 .rw 0, fld 16 6 .rw 0, fld 22 1 .rw 0],
    row 0x10 12 [fld 0 16 .ro 0, fld 16 16 .ro 0],
    row 0x20 12 [fld 0 16 .ro 0] ]

/-- General I/O and pads (spec/20). -/
def gioRows : List RRow :=
  [ row 0x0 1 [fld 0 1 .w1c 0, fld 8 4 .ro 0],
    row 0x1 1 [fld 0 1 .w1s 0],
    row 0x2 1 [fld 0 6 .rw 0, fld 6 1 .rw 0, fld 8 6 .rw 0, fld 14 1 .rw 0, fld 16 6 .rw 0, fld 22 1 .rw 0],
    row 0x20 1 [fld 0 1 .ro 0, fld 1 1 .w1c 0, fld 8 1 .rw 0, fld 9 1 .wo 0, fld 16 16 .rw 1],
    row 0x300 1 [fld 0 2 .rwl 1, fld 2 2 .rwl 1, fld 4 2 .rwl 1, fld 6 2 .rwl 1, fld 8 2 .rwl 1, fld 10 2 .rwl 1, fld 12 2 .rwl 1],
    row 0x301 1 [fld 0 3 .rwl 0, fld 3 3 .rwl 0, fld 6 3 .rwl 0, fld 9 3 .rwl 0, fld 12 3 .rwl 0] ]

/-- GPIO bank (spec/20). -/
def gpioBankRows : List RRow :=
  [ row 0x0 1 [fld 0 32 .rw 0],
    row 0x1 1 [fld 0 32 .rw 0],
    row 0x2 1 [fld 0 32 .wo 0],
    row 0x3 1 [fld 0 32 .wo 0],
    row 0x4 1 [fld 0 32 .ro 0],
    row 0x5 1 [fld 0 32 .w1c 0],
    row 0x6 1 [fld 0 32 .rw 0],
    row 0x7 1 [fld 0 32 .rw 0] ]

/-- PWM channel (spec/20). -/
def pwmRows : List RRow :=
  [ row 0x0 1 [fld 0 20 .rw 0, fld 28 1 .rw 0, fld 29 1 .rw 0, fld 30 1 .rw 0],
    row 0x1 1 [fld 0 16 .rw 1],
    row 0x2 1 [fld 0 16 .rw 0] ]

/-- UART (spec/20). -/
def uartRows : List RRow :=
  [ row 0x0 1 [fld 0 16 .rw 54, fld 16 2 .rw 0, fld 18 1 .rw 0, fld 19 1 .rw 0, fld 20 4 .rw 0, fld 24 1 .rw 0],
    row 0x1 1 [fld 0 7 .ro 0, fld 8 7 .ro 0, fld 16 1 .ro 0, fld 17 1 .w1c 0],
    row 0x2 1 [fld 0 8 .wo 0],
    row 0x3 1 [fld 0 8 .ro 0, fld 8 1 .ro 0],
    row 0x4 1 [fld 0 8 .rc 0, fld 8 8 .rc 0, fld 16 8 .rc 0] ]

/-- I2C master (spec/20). -/
def i2cRows : List RRow :=
  [ row 0x0 1 [fld 0 1 .rwl 0, fld 1 1 .rw 0],
    row 0x1 1 [fld 0 7 .wo 0, fld 7 1 .wo 0, fld 8 6 .wo 0, fld 16 1 .wo 0],
    row 0x2 1 [fld 0 8 .rw 0],
    row 0x3 1 [fld 0 1 .ro 0, fld 1 3 .ro 0, fld 8 6 .ro 0, fld 16 6 .ro 0] ]

/-- SPI master (spec/20). -/
def spiRows : List RRow :=
  [ row 0x0 1 [fld 0 8 .rw 4, fld 8 1 .rw 0, fld 9 1 .rw 0],
    row 0x1 1 [fld 0 7 .wo 0, fld 8 2 .wo 0, fld 10 1 .wo 0],
    row 0x2 1 [fld 0 8 .rw 0],
    row 0x3 1 [fld 0 1 .ro 0, fld 1 1 .ro 0, fld 8 7 .ro 0, fld 16 7 .ro 0] ]

/-- GPIO bank 1: pins 32 to 47, bits [31:16] reserved (spec/20). -/
def gpioBank1Rows : List RRow :=
  gpioBankRows.map (fun r => row r.off r.cnt (r.fields.map (fun f => fld f.lo 16 f.acc f.rst)))

/-! Named registers (`_at`: the address) and fields. A parameter is the index its heading gives. -/

def Reg.PIER_ID_at (p : Nat) : Nat := 0x0100 + 0x100 * p
def Reg.PIER_ID.INDEX (p : Nat) : Fd := ⟨Reg.PIER_ID_at p, 0, 4⟩
def Reg.PIER_ID.STEPPING (p : Nat) : Fd := ⟨Reg.PIER_ID_at p, 8, 8⟩
def Reg.PIER_THRUN_at (p : Nat) : Nat := 0x0101 + 0x100 * p
def Reg.PIER_THRUN.RUN (p : Nat) : Fd := ⟨Reg.PIER_THRUN_at p, 0, 8⟩
def Reg.PIER_THSTAT_at (p : Nat) : Nat := 0x0102 + 0x100 * p
def Reg.PIER_THSTAT.STATE_0 (p : Nat) : Fd := ⟨Reg.PIER_THSTAT_at p, 0, 3⟩
def Reg.PIER_THSTAT.STATE_1 (p : Nat) : Fd := ⟨Reg.PIER_THSTAT_at p, 3, 3⟩
def Reg.PIER_THSTAT.STATE_2 (p : Nat) : Fd := ⟨Reg.PIER_THSTAT_at p, 6, 3⟩
def Reg.PIER_THSTAT.STATE_3 (p : Nat) : Fd := ⟨Reg.PIER_THSTAT_at p, 9, 3⟩
def Reg.PIER_THSTAT.STATE_4 (p : Nat) : Fd := ⟨Reg.PIER_THSTAT_at p, 12, 3⟩
def Reg.PIER_THSTAT.STATE_5 (p : Nat) : Fd := ⟨Reg.PIER_THSTAT_at p, 15, 3⟩
def Reg.PIER_THSTAT.STATE_6 (p : Nat) : Fd := ⟨Reg.PIER_THSTAT_at p, 18, 3⟩
def Reg.PIER_THSTAT.STATE_7 (p : Nat) : Fd := ⟨Reg.PIER_THSTAT_at p, 21, 3⟩
def Reg.PIER_CRIT_at (p : Nat) : Nat := 0x0103 + 0x100 * p
def Reg.PIER_CRIT.CRIT (p : Nat) : Fd := ⟨Reg.PIER_CRIT_at p, 0, 8⟩
def Reg.PIER_STATUS_at (p : Nat) : Nat := 0x0104 + 0x100 * p
def Reg.PIER_STATUS.REFUSED (p : Nat) : Fd := ⟨Reg.PIER_STATUS_at p, 0, 1⟩
def Reg.PIER_STATUS.THROTTLE (p : Nat) : Fd := ⟨Reg.PIER_STATUS_at p, 1, 2⟩
def Reg.PIER_STATUS.REFUSE_EVENT (p : Nat) : Fd := ⟨Reg.PIER_STATUS_at p, 8, 6⟩
def Reg.PIER_STATUS.REFUSE_EVENT_EN (p : Nat) : Fd := ⟨Reg.PIER_STATUS_at p, 14, 1⟩
def Reg.PIER_EVPEND_LO_at (p : Nat) : Nat := 0x0105 + 0x100 * p
def Reg.PIER_EVPEND_LO.PEND (p : Nat) : Fd := ⟨Reg.PIER_EVPEND_LO_at p, 0, 32⟩
def Reg.PIER_EVPEND_HI_at (p : Nat) : Nat := 0x0106 + 0x100 * p
def Reg.PIER_EVPEND_HI.PEND (p : Nat) : Fd := ⟨Reg.PIER_EVPEND_HI_at p, 0, 32⟩
def Reg.PIER_EVCOAL_at (p : Nat) : Nat := 0x0107 + 0x100 * p
def Reg.PIER_EVCOAL.COUNT (p : Nat) : Fd := ⟨Reg.PIER_EVCOAL_at p, 0, 16⟩
def Reg.PIER_THPC_at (p : Nat) (i : Nat) : Nat := 0x0108 + 0x100 * p + i
def Reg.PIER_THPC.PC (p : Nat) (i : Nat) : Fd := ⟨Reg.PIER_THPC_at p i, 0, 17⟩
def Reg.PIER_EVMASK_LO_at (p : Nat) (i : Nat) : Nat := 0x0110 + 0x100 * p + i
def Reg.PIER_EVMASK_LO.MASK (p : Nat) (i : Nat) : Fd := ⟨Reg.PIER_EVMASK_LO_at p i, 0, 32⟩
def Reg.PIER_EVMASK_HI_at (p : Nat) (i : Nat) : Nat := 0x0118 + 0x100 * p + i
def Reg.PIER_EVMASK_HI.MASK (p : Nat) (i : Nat) : Fd := ⟨Reg.PIER_EVMASK_HI_at p i, 0, 32⟩
def Reg.PIER_SPDMA_WAIT_at (p : Nat) : Nat := 0x0120 + 0x100 * p
def Reg.PIER_SPDMA_WAIT.COUNT (p : Nat) : Fd := ⟨Reg.PIER_SPDMA_WAIT_at p, 0, 32⟩
def Reg.PIER_SPDMA_MAX_at (p : Nat) : Nat := 0x0121 + 0x100 * p
def Reg.PIER_SPDMA_MAX.MAX (p : Nat) : Fd := ⟨Reg.PIER_SPDMA_MAX_at p, 0, 32⟩
def Reg.PIER_RETIRED_at (p : Nat) : Nat := 0x0122 + 0x100 * p
def Reg.PIER_RETIRED.COUNT (p : Nat) : Fd := ⟨Reg.PIER_RETIRED_at p, 0, 32⟩
def Reg.PIER_CYCLES_at (p : Nat) : Nat := 0x0123 + 0x100 * p
def Reg.PIER_CYCLES.COUNT (p : Nat) : Fd := ⟨Reg.PIER_CYCLES_at p, 0, 32⟩
def Reg.PIER_SPLIT_CNT_at (p : Nat) : Nat := 0x0124 + 0x100 * p
def Reg.PIER_SPLIT_CNT.COUNT (p : Nat) : Fd := ⟨Reg.PIER_SPLIT_CNT_at p, 0, 32⟩
def Reg.PIER_TRAP_CTL_at (p : Nat) : Nat := 0x0140 + 0x100 * p
def Reg.PIER_TRAP_CTL.LOCK (p : Nat) : Fd := ⟨Reg.PIER_TRAP_CTL_at p, 0, 1⟩
def Reg.PIER_TRAP_CTL.EXC_EVENT (p : Nat) : Fd := ⟨Reg.PIER_TRAP_CTL_at p, 8, 6⟩
def Reg.PIER_TRAP_CTL.EXC_EVENT_EN (p : Nat) : Fd := ⟨Reg.PIER_TRAP_CTL_at p, 14, 1⟩
def Reg.PIER_ENTRY_at (p : Nat) : Nat := 0x0141 + 0x100 * p
def Reg.PIER_ENTRY.ADDR (p : Nat) : Fd := ⟨Reg.PIER_ENTRY_at p, 0, 17⟩
def Reg.PIER_GATE_BASE_at (p : Nat) : Nat := 0x0142 + 0x100 * p
def Reg.PIER_GATE_BASE.BASE (p : Nat) : Fd := ⟨Reg.PIER_GATE_BASE_at p, 0, 16⟩
def Reg.PIER_GATE_COUNT_at (p : Nat) : Nat := 0x0143 + 0x100 * p
def Reg.PIER_GATE_COUNT.COUNT (p : Nat) : Fd := ⟨Reg.PIER_GATE_COUNT_at p, 0, 9⟩
def Reg.PIER_KSTK_BASE_at (p : Nat) : Nat := 0x0144 + 0x100 * p
def Reg.PIER_KSTK_BASE.BASE (p : Nat) : Fd := ⟨Reg.PIER_KSTK_BASE_at p, 0, 16⟩
def Reg.PIER_KSTK_LIM_at (p : Nat) : Nat := 0x0145 + 0x100 * p
def Reg.PIER_KSTK_LIM.LIM (p : Nat) : Fd := ⟨Reg.PIER_KSTK_LIM_at p, 0, 17⟩
def Reg.PIER_TWIN_BASE_at (p : Nat) (i : Nat) : Nat := 0x0146 + 0x100 * p + i
def Reg.PIER_TWIN_BASE.VALID (p : Nat) (i : Nat) : Fd := ⟨Reg.PIER_TWIN_BASE_at p i, 0, 1⟩
def Reg.PIER_TWIN_BASE.WRITE (p : Nat) (i : Nat) : Fd := ⟨Reg.PIER_TWIN_BASE_at p i, 1, 1⟩
def Reg.PIER_TWIN_BASE.BASE (p : Nat) (i : Nat) : Fd := ⟨Reg.PIER_TWIN_BASE_at p i, 3, 29⟩
def Reg.PIER_TWIN_LIM_at (p : Nat) (i : Nat) : Nat := 0x014A + 0x100 * p + i
def Reg.PIER_TWIN_LIM.LIM (p : Nat) (i : Nat) : Fd := ⟨Reg.PIER_TWIN_LIM_at p i, 3, 29⟩
def Reg.PIER_TIOWIN_at (p : Nat) (i : Nat) : Nat := 0x014E + 0x100 * p + i
def Reg.PIER_TIOWIN.FIRST (p : Nat) (i : Nat) : Fd := ⟨Reg.PIER_TIOWIN_at p i, 0, 16⟩
def Reg.PIER_TIOWIN.LAST (p : Nat) (i : Nat) : Fd := ⟨Reg.PIER_TIOWIN_at p i, 16, 16⟩
def Reg.PIER_EXC_STATUS_at (p : Nat) : Nat := 0x0150 + 0x100 * p
def Reg.PIER_EXC_STATUS.DOUBLE (p : Nat) : Fd := ⟨Reg.PIER_EXC_STATUS_at p, 0, 8⟩
def Reg.PIER_EXC_STATUS.REFUSED (p : Nat) : Fd := ⟨Reg.PIER_EXC_STATUS_at p, 8, 1⟩
def Reg.PIER_DBLCAUSE_at (p : Nat) : Nat := 0x0151 + 0x100 * p
def Reg.PIER_DBLCAUSE.CODE (p : Nat) : Fd := ⟨Reg.PIER_DBLCAUSE_at p, 0, 8⟩
def Reg.PIER_DBLCAUSE.THREAD (p : Nat) : Fd := ⟨Reg.PIER_DBLCAUSE_at p, 8, 3⟩
def Reg.PIER_DBLEPC_at (p : Nat) : Nat := 0x0152 + 0x100 * p
def Reg.PIER_DBLEPC.ADDR (p : Nat) : Fd := ⟨Reg.PIER_DBLEPC_at p, 0, 32⟩
def Reg.PIER_SYSMASK_at (p : Nat) : Nat := 0x0153 + 0x100 * p
def Reg.PIER_SYSMASK.WDT (p : Nat) : Fd := ⟨Reg.PIER_SYSMASK_at p, 0, 8⟩
def Reg.PIER_SYSMASK.ABT (p : Nat) : Fd := ⟨Reg.PIER_SYSMASK_at p, 8, 8⟩
def Reg.PIER_SYSMASK.THM (p : Nat) : Fd := ⟨Reg.PIER_SYSMASK_at p, 16, 8⟩
def Reg.PIER_SYSMASK.DEBT (p : Nat) : Fd := ⟨Reg.PIER_SYSMASK_at p, 24, 8⟩
def Reg.PIER_SYSPEND_at (p : Nat) : Nat := 0x0154 + 0x100 * p
def Reg.PIER_SYSPEND.PEND (p : Nat) : Fd := ⟨Reg.PIER_SYSPEND_at p, 0, 32⟩
def Reg.PIER_SPF_at (p : Nat) : Nat := 0x0155 + 0x100 * p
def Reg.PIER_SPF.PEND (p : Nat) : Fd := ⟨Reg.PIER_SPF_at p, 0, 8⟩
def Reg.PIER_SPF.LOST (p : Nat) : Fd := ⟨Reg.PIER_SPF_at p, 16, 16⟩
def Reg.PIER_EVTRAP_LO_at (p : Nat) (i : Nat) : Nat := 0x0158 + 0x100 * p + i
def Reg.PIER_EVTRAP_LO.MASK (p : Nat) (i : Nat) : Fd := ⟨Reg.PIER_EVTRAP_LO_at p i, 0, 32⟩
def Reg.PIER_EVTRAP_HI_at (p : Nat) (i : Nat) : Nat := 0x0160 + 0x100 * p + i
def Reg.PIER_EVTRAP_HI.MASK (p : Nat) (i : Nat) : Fd := ⟨Reg.PIER_EVTRAP_HI_at p i, 0, 32⟩
def Reg.PIER_DBG_CTL_at (p : Nat) : Nat := 0x0168 + 0x100 * p
def Reg.PIER_DBG_CTL.HALT_BRK (p : Nat) : Fd := ⟨Reg.PIER_DBG_CTL_at p, 0, 8⟩
def Reg.PIER_DBG_CTL.HALT_STEP (p : Nat) : Fd := ⟨Reg.PIER_DBG_CTL_at p, 8, 8⟩
def Reg.PIER_DBG_STATUS_at (p : Nat) : Nat := 0x0169 + 0x100 * p
def Reg.PIER_DBG_STATUS.HALTED (p : Nat) : Fd := ⟨Reg.PIER_DBG_STATUS_at p, 0, 8⟩
def Reg.SPAN_ID_at (n : Nat) : Nat := 0x1100 + 0x100 * n
def Reg.SPAN_ID.INDEX (n : Nat) : Fd := ⟨Reg.SPAN_ID_at n, 0, 2⟩
def Reg.SPAN_ID.STEPPING (n : Nat) : Fd := ⟨Reg.SPAN_ID_at n, 8, 8⟩
def Reg.SPAN_STATUS_at (n : Nat) : Nat := 0x1101 + 0x100 * n
def Reg.SPAN_STATUS.STATE (n : Nat) : Fd := ⟨Reg.SPAN_STATUS_at n, 0, 2⟩
def Reg.SPAN_STATUS.RUNAHEAD (n : Nat) : Fd := ⟨Reg.SPAN_STATUS_at n, 2, 1⟩
def Reg.SPAN_STATUS.REFUSED (n : Nat) : Fd := ⟨Reg.SPAN_STATUS_at n, 8, 1⟩
def Reg.SPAN_STATUS.REFUSE_EVENT (n : Nat) : Fd := ⟨Reg.SPAN_STATUS_at n, 16, 6⟩
def Reg.SPAN_STATUS.REFUSE_EVENT_EN (n : Nat) : Fd := ⟨Reg.SPAN_STATUS_at n, 22, 1⟩
def Reg.SPAN_CTL_at (n : Nat) : Nat := 0x1102 + 0x100 * n
def Reg.SPAN_CTL.RUNAHEAD_EN (n : Nat) : Fd := ⟨Reg.SPAN_CTL_at n, 0, 1⟩
def Reg.SPAN_JOB_at (n : Nat) : Nat := 0x1103 + 0x100 * n
def Reg.SPAN_JOB.TAG (n : Nat) : Fd := ⟨Reg.SPAN_JOB_at n, 0, 16⟩
def Reg.SPAN_JOB.SLOT (n : Nat) : Fd := ⟨Reg.SPAN_JOB_at n, 16, 8⟩
def Reg.SPAN_JOB.VALID (n : Nat) : Fd := ⟨Reg.SPAN_JOB_at n, 31, 1⟩
def Reg.SPAN_POS_at (n : Nat) : Nat := 0x1104 + 0x100 * n
def Reg.SPAN_POS.INDEX (n : Nat) : Fd := ⟨Reg.SPAN_POS_at n, 0, 24⟩
def Reg.SPAN_INFLIGHT_at (n : Nat) : Nat := 0x1105 + 0x100 * n
def Reg.SPAN_INFLIGHT.LA (n : Nat) : Fd := ⟨Reg.SPAN_INFLIGHT_at n, 0, 8⟩
def Reg.SPAN_INFLIGHT.LB (n : Nat) : Fd := ⟨Reg.SPAN_INFLIGHT_at n, 8, 8⟩
def Reg.SPAN_INFLIGHT.LC (n : Nat) : Fd := ⟨Reg.SPAN_INFLIGHT_at n, 16, 8⟩
def Reg.SPAN_INFLIGHT.SA (n : Nat) : Fd := ⟨Reg.SPAN_INFLIGHT_at n, 24, 8⟩
def Reg.SPAN_INFLIGHT_PEAK_at (n : Nat) : Nat := 0x1106 + 0x100 * n
def Reg.SPAN_INFLIGHT_PEAK.PEAK (n : Nat) : Fd := ⟨Reg.SPAN_INFLIGHT_PEAK_at n, 0, 10⟩
def Reg.SPAN_SRT_OCC_at (n : Nat) : Nat := 0x1107 + 0x100 * n
def Reg.SPAN_SRT_OCC.USED (n : Nat) : Fd := ⟨Reg.SPAN_SRT_OCC_at n, 0, 4⟩
def Reg.SPAN_SRT_WAIT_at (n : Nat) : Nat := 0x1108 + 0x100 * n
def Reg.SPAN_SRT_WAIT.COUNT (n : Nat) : Fd := ⟨Reg.SPAN_SRT_WAIT_at n, 0, 32⟩
def Reg.SPAN_REPLAY_CNT_at (n : Nat) : Nat := 0x1109 + 0x100 * n
def Reg.SPAN_REPLAY_CNT.COUNT (n : Nat) : Fd := ⟨Reg.SPAN_REPLAY_CNT_at n, 0, 32⟩
def Reg.SPAN_SQUASH_CNT_at (n : Nat) : Nat := 0x110A + 0x100 * n
def Reg.SPAN_SQUASH_CNT.COUNT (n : Nat) : Fd := ⟨Reg.SPAN_SQUASH_CNT_at n, 0, 32⟩
def Reg.SPAN_BARRIER_WAIT_at (n : Nat) : Nat := 0x110B + 0x100 * n
def Reg.SPAN_BARRIER_WAIT.COUNT (n : Nat) : Fd := ⟨Reg.SPAN_BARRIER_WAIT_at n, 0, 32⟩
def Reg.SPAN_ELEM_CNT_at (n : Nat) : Nat := 0x110C + 0x100 * n
def Reg.SPAN_ELEM_CNT.COUNT (n : Nat) : Fd := ⟨Reg.SPAN_ELEM_CNT_at n, 0, 32⟩
def Reg.SPAN_BUSY_CNT_at (n : Nat) : Nat := 0x110D + 0x100 * n
def Reg.SPAN_BUSY_CNT.COUNT (n : Nat) : Fd := ⟨Reg.SPAN_BUSY_CNT_at n, 0, 32⟩
def Reg.DISP_SUBMIT_at : Nat := 0x1500
def Reg.DISP_SUBMIT.ADDR : Fd := ⟨Reg.DISP_SUBMIT_at, 0, 32⟩
def Reg.DISP_STATUS_at : Nat := 0x1501
def Reg.DISP_STATUS.REFUSED : Fd := ⟨Reg.DISP_STATUS_at, 0, 1⟩
def Reg.DISP_STATUS.SWLOST : Fd := ⟨Reg.DISP_STATUS_at, 1, 1⟩
def Reg.DISP_STATUS.REFUSE_EVENT : Fd := ⟨Reg.DISP_STATUS_at, 8, 6⟩
def Reg.DISP_STATUS.REFUSE_EVENT_EN : Fd := ⟨Reg.DISP_STATUS_at, 14, 1⟩
def Reg.DISP_REFUSE_INFO_at : Nat := 0x1502
def Reg.DISP_REFUSE_INFO.REASON : Fd := ⟨Reg.DISP_REFUSE_INFO_at, 0, 4⟩
def Reg.DISP_REFUSE_INFO.PIER : Fd := ⟨Reg.DISP_REFUSE_INFO_at, 4, 4⟩
def Reg.DISP_REFUSE_INFO.THREAD : Fd := ⟨Reg.DISP_REFUSE_INFO_at, 8, 3⟩
def Reg.DISP_REFUSE_INFO.FOBEX : Fd := ⟨Reg.DISP_REFUSE_INFO_at, 11, 1⟩
def Reg.DISP_REFUSE_INFO.NONPIER : Fd := ⟨Reg.DISP_REFUSE_INFO_at, 12, 1⟩
def Reg.DISP_REFUSE_ADDR_at : Nat := 0x1503
def Reg.DISP_REFUSE_ADDR.VALUE : Fd := ⟨Reg.DISP_REFUSE_ADDR_at, 0, 32⟩
def Reg.DISP_COUNT_at : Nat := 0x1504
def Reg.DISP_COUNT.FREE : Fd := ⟨Reg.DISP_COUNT_at, 0, 9⟩
def Reg.DISP_COUNT.QUEUED : Fd := ⟨Reg.DISP_COUNT_at, 9, 9⟩
def Reg.DISP_COUNT.RUNNING : Fd := ⟨Reg.DISP_COUNT_at, 18, 3⟩
def Reg.DISP_ABORT_at : Nat := 0x1505
def Reg.DISP_ABORT.SLOT : Fd := ⟨Reg.DISP_ABORT_at, 0, 8⟩
def Reg.DISP_ABORT.TAG : Fd := ⟨Reg.DISP_ABORT_at, 8, 16⟩
def Reg.DISP_ABORT.MODE : Fd := ⟨Reg.DISP_ABORT_at, 30, 2⟩
def Reg.DISP_SLOT_SEL_at : Nat := 0x1506
def Reg.DISP_SLOT_SEL.SLOT : Fd := ⟨Reg.DISP_SLOT_SEL_at, 0, 8⟩
def Reg.DISP_SLOT_VIEW_at : Nat := 0x1507
def Reg.DISP_SLOT_VIEW.STATE : Fd := ⟨Reg.DISP_SLOT_VIEW_at, 0, 2⟩
def Reg.DISP_SLOT_VIEW.CLASS : Fd := ⟨Reg.DISP_SLOT_VIEW_at, 2, 2⟩
def Reg.DISP_SLOT_VIEW.SPAN : Fd := ⟨Reg.DISP_SLOT_VIEW_at, 4, 2⟩
def Reg.DISP_SLOT_VIEW.PIER : Fd := ⟨Reg.DISP_SLOT_VIEW_at, 6, 4⟩
def Reg.DISP_SLOT_VIEW.THREAD : Fd := ⟨Reg.DISP_SLOT_VIEW_at, 10, 3⟩
def Reg.DISP_SLOT_VIEW.TAG : Fd := ⟨Reg.DISP_SLOT_VIEW_at, 16, 16⟩
def Reg.DISP_SUBMIT_CNT_at : Nat := 0x1508
def Reg.DISP_SUBMIT_CNT.COUNT : Fd := ⟨Reg.DISP_SUBMIT_CNT_at, 0, 32⟩
def Reg.DISP_REFUSE_CNT_at : Nat := 0x1509
def Reg.DISP_REFUSE_CNT.COUNT : Fd := ⟨Reg.DISP_REFUSE_CNT_at, 0, 32⟩
def Reg.DISP_SWLOST_INFO_at : Nat := 0x150A
def Reg.DISP_SWLOST_INFO.SLOT : Fd := ⟨Reg.DISP_SWLOST_INFO_at, 0, 8⟩
def Reg.DISP_SWLOST_INFO.TAG : Fd := ⟨Reg.DISP_SWLOST_INFO_at, 16, 16⟩
def Reg.SPAN_JOBS_DONE_at (n : Nat) : Nat := 0x1140 + 0x100 * n
def Reg.SPAN_JOBS_DONE.COUNT (n : Nat) : Fd := ⟨Reg.SPAN_JOBS_DONE_at n, 0, 32⟩
def Reg.SPAN_JOBS_BAD_at (n : Nat) : Nat := 0x1141 + 0x100 * n
def Reg.SPAN_JOBS_BAD.COUNT (n : Nat) : Fd := ⟨Reg.SPAN_JOBS_BAD_at n, 0, 32⟩
def Reg.SPAN_LAST_END_at (n : Nat) : Nat := 0x1142 + 0x100 * n
def Reg.SPAN_LAST_END.WORD0 (n : Nat) : Fd := ⟨Reg.SPAN_LAST_END_at n, 0, 32⟩
def Reg.SPAN_XLU_ADDR_at (n : Nat) : Nat := 0x1143 + 0x100 * n
def Reg.SPAN_XLU_ADDR.VALID (n : Nat) : Fd := ⟨Reg.SPAN_XLU_ADDR_at n, 0, 1⟩
def Reg.SPAN_XLU_ADDR.ADDR (n : Nat) : Fd := ⟨Reg.SPAN_XLU_ADDR_at n, 3, 29⟩
def Reg.SPAN_XLU_LOADS_at (n : Nat) : Nat := 0x1144 + 0x100 * n
def Reg.SPAN_XLU_LOADS.COUNT (n : Nat) : Fd := ⟨Reg.SPAN_XLU_LOADS_at n, 0, 32⟩
def Reg.DECK_STATUS_at (q : Nat) : Nat := 0x1800 + 0x200 * q
def Reg.DECK_STATUS.REFUSED (q : Nat) : Fd := ⟨Reg.DECK_STATUS_at q, 0, 1⟩
def Reg.DECK_STATUS.INIT_BUSY (q : Nat) : Fd := ⟨Reg.DECK_STATUS_at q, 1, 1⟩
def Reg.DECK_STATUS.INIT_DONE (q : Nat) : Fd := ⟨Reg.DECK_STATUS_at q, 2, 1⟩
def Reg.DECK_STATUS.REFUSE_EVENT (q : Nat) : Fd := ⟨Reg.DECK_STATUS_at q, 8, 6⟩
def Reg.DECK_STATUS.REFUSE_EVENT_EN (q : Nat) : Fd := ⟨Reg.DECK_STATUS_at q, 14, 1⟩
def Reg.DECK_INIT_at (q : Nat) : Nat := 0x1801 + 0x200 * q
def Reg.DECK_INIT.START (q : Nat) : Fd := ⟨Reg.DECK_INIT_at q, 0, 1⟩
def Reg.DECK_INIT_PAT_at (q : Nat) : Nat := 0x1802 + 0x200 * q
def Reg.DECK_INIT_PAT.PAT (q : Nat) : Fd := ⟨Reg.DECK_INIT_PAT_at q, 0, 32⟩
def Reg.DECK_ARB_at (q : Nat) : Nat := 0x1803 + 0x200 * q
def Reg.DECK_ARB.REMOTE_AGE (q : Nat) : Fd := ⟨Reg.DECK_ARB_at q, 0, 8⟩
def Reg.DECK_ARB.DMA_AGE (q : Nat) : Fd := ⟨Reg.DECK_ARB_at q, 8, 8⟩
def Reg.DECK_EVCFG_at (q : Nat) : Nat := 0x1804 + 0x200 * q
def Reg.DECK_EVCFG.CE_EVENT (q : Nat) : Fd := ⟨Reg.DECK_EVCFG_at q, 0, 6⟩
def Reg.DECK_EVCFG.CE_EN (q : Nat) : Fd := ⟨Reg.DECK_EVCFG_at q, 6, 1⟩
def Reg.DECK_EVCFG.UE_EVENT (q : Nat) : Fd := ⟨Reg.DECK_EVCFG_at q, 8, 6⟩
def Reg.DECK_EVCFG.UE_EN (q : Nat) : Fd := ⟨Reg.DECK_EVCFG_at q, 14, 1⟩
def Reg.DECK_CE_CNT_at (q : Nat) : Nat := 0x1805 + 0x200 * q
def Reg.DECK_CE_CNT.COUNT (q : Nat) : Fd := ⟨Reg.DECK_CE_CNT_at q, 0, 32⟩
def Reg.DECK_CE_ADDR_at (q : Nat) : Nat := 0x1806 + 0x200 * q
def Reg.DECK_CE_ADDR.ADDR (q : Nat) : Fd := ⟨Reg.DECK_CE_ADDR_at q, 0, 32⟩
def Reg.DECK_UE_CNT_at (q : Nat) : Nat := 0x1807 + 0x200 * q
def Reg.DECK_UE_CNT.COUNT (q : Nat) : Fd := ⟨Reg.DECK_UE_CNT_at q, 0, 32⟩
def Reg.DECK_UE_ADDR_at (q : Nat) : Nat := 0x1808 + 0x200 * q
def Reg.DECK_UE_ADDR.ADDR (q : Nat) : Fd := ⟨Reg.DECK_UE_ADDR_at q, 0, 32⟩
def Reg.DECK_ECC_INJ_at (q : Nat) : Nat := 0x1809 + 0x200 * q
def Reg.DECK_ECC_INJ.MODE (q : Nat) : Fd := ⟨Reg.DECK_ECC_INJ_at q, 0, 2⟩
def Reg.DECK_ECC_INJ.WORD (q : Nat) : Fd := ⟨Reg.DECK_ECC_INJ_at q, 3, 22⟩
def Reg.DECK_CONFLICT_CNT_at (q : Nat) : Nat := 0x180A + 0x200 * q
def Reg.DECK_CONFLICT_CNT.COUNT (q : Nat) : Fd := ⟨Reg.DECK_CONFLICT_CNT_at q, 0, 32⟩
def Reg.DECK_PROMOTE_CNT_at (q : Nat) : Nat := 0x180B + 0x200 * q
def Reg.DECK_PROMOTE_CNT.COUNT (q : Nat) : Fd := ⟨Reg.DECK_PROMOTE_CNT_at q, 0, 32⟩
def Reg.DECK_SCRUB_CNT_at (q : Nat) : Nat := 0x180C + 0x200 * q
def Reg.DECK_SCRUB_CNT.COUNT (q : Nat) : Fd := ⟨Reg.DECK_SCRUB_CNT_at q, 0, 32⟩
def Reg.DMA_STATUS_at : Nat := 0x2000
def Reg.DMA_STATUS.REFUSED : Fd := ⟨Reg.DMA_STATUS_at, 0, 1⟩
def Reg.DMA_STATUS.REFUSE_EVENT : Fd := ⟨Reg.DMA_STATUS_at, 8, 6⟩
def Reg.DMA_STATUS.REFUSE_EVENT_EN : Fd := ⟨Reg.DMA_STATUS_at, 14, 1⟩
def Reg.DMA_ERR_at : Nat := 0x2001
def Reg.DMA_ERR.CH : Fd := ⟨Reg.DMA_ERR_at, 0, 16⟩
def Reg.DMA_ERR_EVCFG_at : Nat := 0x2002
def Reg.DMA_ERR_EVCFG.ERR_EVENT : Fd := ⟨Reg.DMA_ERR_EVCFG_at, 0, 6⟩
def Reg.DMA_ERR_EVCFG.ERR_EN : Fd := ⟨Reg.DMA_ERR_EVCFG_at, 6, 1⟩
def Reg.DMA_ACTIVE_at : Nat := 0x2003
def Reg.DMA_ACTIVE.CH : Fd := ⟨Reg.DMA_ACTIVE_at, 0, 16⟩
def Reg.DMA_CH_DESC_at (c : Nat) : Nat := 0x2100 + 0x10 * c
def Reg.DMA_CH_DESC.ADDR (c : Nat) : Fd := ⟨Reg.DMA_CH_DESC_at c, 0, 32⟩
def Reg.DMA_CH_CTL_at (c : Nat) : Nat := 0x2101 + 0x10 * c
def Reg.DMA_CH_CTL.START (c : Nat) : Fd := ⟨Reg.DMA_CH_CTL_at c, 0, 1⟩
def Reg.DMA_CH_CTL.STOP (c : Nat) : Fd := ⟨Reg.DMA_CH_CTL_at c, 1, 1⟩
def Reg.DMA_CH_CTL.PRIO (c : Nat) : Fd := ⟨Reg.DMA_CH_CTL_at c, 8, 1⟩
def Reg.DMA_CH_STAT_at (c : Nat) : Nat := 0x2102 + 0x10 * c
def Reg.DMA_CH_STAT.STATE (c : Nat) : Fd := ⟨Reg.DMA_CH_STAT_at c, 0, 2⟩
def Reg.DMA_CH_STAT.END (c : Nat) : Fd := ⟨Reg.DMA_CH_STAT_at c, 2, 2⟩
def Reg.DMA_CH_STAT.ERR (c : Nat) : Fd := ⟨Reg.DMA_CH_STAT_at c, 8, 4⟩
def Reg.DMA_CH_CUR_at (c : Nat) : Nat := 0x2103 + 0x10 * c
def Reg.DMA_CH_CUR.ADDR (c : Nat) : Fd := ⟨Reg.DMA_CH_CUR_at c, 0, 32⟩
def Reg.DMA_CH_DONE_at (c : Nat) : Nat := 0x2104 + 0x10 * c
def Reg.DMA_CH_DONE.BYTES (c : Nat) : Fd := ⟨Reg.DMA_CH_DONE_at c, 0, 24⟩
def Reg.DMA_CH_DCNT_at (c : Nat) : Nat := 0x2105 + 0x10 * c
def Reg.DMA_CH_DCNT.COUNT (c : Nat) : Fd := ⟨Reg.DMA_CH_DCNT_at c, 0, 32⟩
def Reg.VIA_STATUS_at : Nat := 0x2800
def Reg.VIA_STATUS.REFUSED : Fd := ⟨Reg.VIA_STATUS_at, 0, 1⟩
def Reg.VIA_STATUS.ROUTE_FAULT : Fd := ⟨Reg.VIA_STATUS_at, 1, 1⟩
def Reg.VIA_STATUS.REFUSE_EVENT : Fd := ⟨Reg.VIA_STATUS_at, 8, 6⟩
def Reg.VIA_STATUS.REFUSE_EVENT_EN : Fd := ⟨Reg.VIA_STATUS_at, 14, 1⟩
def Reg.VIA_STATUS.SEL_REFUSED : Fd := ⟨Reg.VIA_STATUS_at, 15, 1⟩
def Reg.VIA_STATUS.FAULT_EVENT : Fd := ⟨Reg.VIA_STATUS_at, 16, 6⟩
def Reg.VIA_STATUS.FAULT_EVENT_EN : Fd := ⟨Reg.VIA_STATUS_at, 22, 1⟩
def Reg.VIA_CTL_at : Nat := 0x2801
def Reg.VIA_CTL.LOCK : Fd := ⟨Reg.VIA_CTL_at, 0, 1⟩
def Reg.VIA_RT_SEL_at : Nat := 0x2802
def Reg.VIA_RT_SEL.ENTRY : Fd := ⟨Reg.VIA_RT_SEL_at, 0, 6⟩
def Reg.VIA_RT_SEL.NI : Fd := ⟨Reg.VIA_RT_SEL_at, 8, 6⟩
def Reg.VIA_RT_DATA_at : Nat := 0x2803
def Reg.VIA_RT_DATA.ENTRY : Fd := ⟨Reg.VIA_RT_DATA_at, 0, 32⟩
def Reg.VIA_RT_FAULT_at : Nat := 0x2804
def Reg.VIA_RT_FAULT.CODE : Fd := ⟨Reg.VIA_RT_FAULT_at, 0, 4⟩
def Reg.VIA_RT_FAULT.NI : Fd := ⟨Reg.VIA_RT_FAULT_at, 8, 6⟩
def Reg.VIA_RT_FAULT.ENTRY : Fd := ⟨Reg.VIA_RT_FAULT_at, 16, 6⟩
def Reg.VIA_REQ_TIMEOUT_at : Nat := 0x2805
def Reg.VIA_REQ_TIMEOUT.US : Fd := ⟨Reg.VIA_REQ_TIMEOUT_at, 0, 16⟩
def Reg.VIA_QUIESCE_TIMEOUT_at : Nat := 0x2806
def Reg.VIA_QUIESCE_TIMEOUT.US : Fd := ⟨Reg.VIA_QUIESCE_TIMEOUT_at, 0, 16⟩
def Reg.VIA_NI_SEL_at : Nat := 0x2807
def Reg.VIA_NI_SEL.NI : Fd := ⟨Reg.VIA_NI_SEL_at, 0, 6⟩
def Reg.VIA_NI_SEL.ISL : Fd := ⟨Reg.VIA_NI_SEL_at, 6, 2⟩
def Reg.VIA_NI_STATE_at : Nat := 0x2808
def Reg.VIA_NI_STATE.STATE : Fd := ⟨Reg.VIA_NI_STATE_at, 0, 2⟩
def Reg.VIA_NI_STATE.GEN : Fd := ⟨Reg.VIA_NI_STATE_at, 4, 4⟩
def Reg.VIA_NI_STATE.STALE : Fd := ⟨Reg.VIA_NI_STATE_at, 8, 8⟩
def Reg.VIA_NI_ESCROW_at : Nat := 0x2809
def Reg.VIA_NI_ESCROW.VC0 : Fd := ⟨Reg.VIA_NI_ESCROW_at, 0, 4⟩
def Reg.VIA_NI_ESCROW.VC1 : Fd := ⟨Reg.VIA_NI_ESCROW_at, 4, 4⟩
def Reg.VIA_NI_ESCROW.VC2 : Fd := ⟨Reg.VIA_NI_ESCROW_at, 8, 4⟩
def Reg.VIA_NI_ESCROW.VC3 : Fd := ⟨Reg.VIA_NI_ESCROW_at, 12, 4⟩
def Reg.VIA_TIMEOUT_CNT_at : Nat := 0x280A
def Reg.VIA_TIMEOUT_CNT.COUNT : Fd := ⟨Reg.VIA_TIMEOUT_CNT_at, 0, 32⟩
def Reg.VIA_LATE_CNT_at : Nat := 0x280B
def Reg.VIA_LATE_CNT.COUNT : Fd := ⟨Reg.VIA_LATE_CNT_at, 0, 32⟩
def Reg.VIA_MALFORMED_CNT_at : Nat := 0x280C
def Reg.VIA_MALFORMED_CNT.COUNT : Fd := ⟨Reg.VIA_MALFORMED_CNT_at, 0, 32⟩
def Reg.VIA_OFFLINE_CNT_at : Nat := 0x280D
def Reg.VIA_OFFLINE_CNT.COUNT : Fd := ⟨Reg.VIA_OFFLINE_CNT_at, 0, 32⟩
def Reg.VIA_EV_DROP_CNT_at : Nat := 0x280E
def Reg.VIA_EV_DROP_CNT.COUNT : Fd := ⟨Reg.VIA_EV_DROP_CNT_at, 0, 32⟩
def Reg.VIA_EV_DROP_PIER_at : Nat := 0x280F
def Reg.VIA_EV_DROP_PIER.PIER : Fd := ⟨Reg.VIA_EV_DROP_PIER_at, 0, 16⟩
def Reg.VIA_EV_NOACC_CNT_at : Nat := 0x2810
def Reg.VIA_EV_NOACC_CNT.COUNT : Fd := ⟨Reg.VIA_EV_NOACC_CNT_at, 0, 32⟩
def Reg.VIA_QSC_ABANDON_at : Nat := 0x2811
def Reg.VIA_QSC_ABANDON.COUNT : Fd := ⟨Reg.VIA_QSC_ABANDON_at, 0, 32⟩
def Reg.VIA_ROUTE_ERR_CNT_at : Nat := 0x2812
def Reg.VIA_ROUTE_ERR_CNT.COUNT : Fd := ⟨Reg.VIA_ROUTE_ERR_CNT_at, 0, 32⟩
def Reg.VIA_GRADE_at : Nat := 0x2813
def Reg.VIA_GRADE.SHAPE : Fd := ⟨Reg.VIA_GRADE_at, 0, 2⟩
def Reg.VIA_GRADE.ROUTERS : Fd := ⟨Reg.VIA_GRADE_at, 2, 5⟩
def Reg.GAU_CTL_at (g : Nat) : Nat := 0x3000 + 0x20 * g
def Reg.GAU_CTL.EN (g : Nat) : Fd := ⟨Reg.GAU_CTL_at g, 0, 1⟩
def Reg.GAU_CTL.PORT (g : Nat) : Fd := ⟨Reg.GAU_CTL_at g, 1, 3⟩
def Reg.GAU_CTL.AEN (g : Nat) : Fd := ⟨Reg.GAU_CTL_at g, 4, 1⟩
def Reg.GAU_CTL.CLR (g : Nat) : Fd := ⟨Reg.GAU_CTL_at g, 5, 1⟩
def Reg.GAU_CTL.TRIG_EVENT (g : Nat) : Fd := ⟨Reg.GAU_CTL_at g, 8, 6⟩
def Reg.GAU_CTL.TRIG_EVENT_EN (g : Nat) : Fd := ⟨Reg.GAU_CTL_at g, 14, 1⟩
def Reg.GAU_CTL.REC_EN (g : Nat) : Fd := ⟨Reg.GAU_CTL_at g, 15, 1⟩
def Reg.GAU_CTL.REFUSE_EVENT (g : Nat) : Fd := ⟨Reg.GAU_CTL_at g, 16, 6⟩
def Reg.GAU_CTL.REFUSE_EVENT_EN (g : Nat) : Fd := ⟨Reg.GAU_CTL_at g, 22, 1⟩
def Reg.GAU_STATUS_at (g : Nat) : Nat := 0x3001 + 0x20 * g
def Reg.GAU_STATUS.REFUSED (g : Nat) : Fd := ⟨Reg.GAU_STATUS_at g, 0, 1⟩
def Reg.GAU_STATUS.TRIGGERED (g : Nat) : Fd := ⟨Reg.GAU_STATUS_at g, 1, 1⟩
def Reg.GAU_FILT_ID_at (g : Nat) : Nat := 0x3002 + 0x20 * g
def Reg.GAU_FILT_ID.SRC (g : Nat) : Fd := ⟨Reg.GAU_FILT_ID_at g, 0, 7⟩
def Reg.GAU_FILT_ID.SRCM (g : Nat) : Fd := ⟨Reg.GAU_FILT_ID_at g, 8, 7⟩
def Reg.GAU_FILT_ID.DST (g : Nat) : Fd := ⟨Reg.GAU_FILT_ID_at g, 16, 7⟩
def Reg.GAU_FILT_ID.DSTM (g : Nat) : Fd := ⟨Reg.GAU_FILT_ID_at g, 24, 7⟩
def Reg.GAU_FILT_KIND_at (g : Nat) : Nat := 0x3003 + 0x20 * g
def Reg.GAU_FILT_KIND.VCMASK (g : Nat) : Fd := ⟨Reg.GAU_FILT_KIND_at g, 0, 4⟩
def Reg.GAU_FILT_KIND.TYPEMASK (g : Nat) : Fd := ⟨Reg.GAU_FILT_KIND_at g, 16, 16⟩
def Reg.GAU_FILT_ALO_at (g : Nat) : Nat := 0x3004 + 0x20 * g
def Reg.GAU_FILT_ALO.ADDR (g : Nat) : Fd := ⟨Reg.GAU_FILT_ALO_at g, 0, 32⟩
def Reg.GAU_FILT_AHI_at (g : Nat) : Nat := 0x3005 + 0x20 * g
def Reg.GAU_FILT_AHI.ADDR (g : Nat) : Fd := ⟨Reg.GAU_FILT_AHI_at g, 0, 32⟩
def Reg.GAU_CNT_at (g : Nat) (i : Nat) : Nat := 0x3006 + 0x20 * g + i
def Reg.GAU_CNT.COUNT (g : Nat) (i : Nat) : Fd := ⟨Reg.GAU_CNT_at g i, 0, 32⟩
def Reg.GAU_TRIG_at (g : Nat) : Nat := 0x300B + 0x20 * g
def Reg.GAU_TRIG.SRC (g : Nat) : Fd := ⟨Reg.GAU_TRIG_at g, 0, 3⟩
def Reg.GAU_TRIG.THRESH (g : Nat) : Fd := ⟨Reg.GAU_TRIG_at g, 8, 24⟩
def Reg.GAU_TRACE_CTL_at (g : Nat) : Nat := 0x300C + 0x20 * g
def Reg.GAU_TRACE_CTL.MODE (g : Nat) : Fd := ⟨Reg.GAU_TRACE_CTL_at g, 0, 2⟩
def Reg.GAU_TRACE_CTL.START (g : Nat) : Fd := ⟨Reg.GAU_TRACE_CTL_at g, 2, 1⟩
def Reg.GAU_TRACE_CTL.STOP (g : Nat) : Fd := ⟨Reg.GAU_TRACE_CTL_at g, 3, 1⟩
def Reg.GAU_TRACE_CTL.POST (g : Nat) : Fd := ⟨Reg.GAU_TRACE_CTL_at g, 8, 8⟩
def Reg.GAU_TRACE_CTL.STOP_ON_TRIG (g : Nat) : Fd := ⟨Reg.GAU_TRACE_CTL_at g, 16, 1⟩
def Reg.GAU_TRACE_POS_at (g : Nat) : Nat := 0x300D + 0x20 * g
def Reg.GAU_TRACE_POS.STATE (g : Nat) : Fd := ⟨Reg.GAU_TRACE_POS_at g, 0, 2⟩
def Reg.GAU_TRACE_POS.WRAPPED (g : Nat) : Fd := ⟨Reg.GAU_TRACE_POS_at g, 2, 1⟩
def Reg.GAU_TRACE_POS.NEXT (g : Nat) : Fd := ⟨Reg.GAU_TRACE_POS_at g, 8, 24⟩
def Reg.GAU_TRACE_SEL_at (g : Nat) : Nat := 0x300E + 0x20 * g
def Reg.GAU_TRACE_SEL.RECORD (g : Nat) : Fd := ⟨Reg.GAU_TRACE_SEL_at g, 0, 8⟩
def Reg.GAU_TRACE_SEL.WORD (g : Nat) : Fd := ⟨Reg.GAU_TRACE_SEL_at g, 8, 2⟩
def Reg.GAU_TRACE_DATA_at (g : Nat) : Nat := 0x300F + 0x20 * g
def Reg.GAU_TRACE_DATA.DATA (g : Nat) : Fd := ⟨Reg.GAU_TRACE_DATA_at g, 0, 32⟩
def Reg.GAU_RING_BASE_at (g : Nat) : Nat := 0x3010 + 0x20 * g
def Reg.GAU_RING_BASE.VALUE (g : Nat) : Fd := ⟨Reg.GAU_RING_BASE_at g, 0, 32⟩
def Reg.GAU_RING_COUNT_at (g : Nat) : Nat := 0x3011 + 0x20 * g
def Reg.GAU_RING_COUNT.VALUE (g : Nat) : Fd := ⟨Reg.GAU_RING_COUNT_at g, 0, 32⟩
def Reg.GAU_TRACE_LOST_at (g : Nat) : Nat := 0x3012 + 0x20 * g
def Reg.GAU_TRACE_LOST.COUNT (g : Nat) : Fd := ⟨Reg.GAU_TRACE_LOST_at g, 0, 32⟩
def Reg.IOPLL_STATUS_at : Nat := 0x3400
def Reg.IOPLL_STATUS.REFUSED : Fd := ⟨Reg.IOPLL_STATUS_at, 0, 1⟩
def Reg.IOPLL_STATUS.REF_ABSENT : Fd := ⟨Reg.IOPLL_STATUS_at, 1, 1⟩
def Reg.IOPLL_STATUS.REF_LOST : Fd := ⟨Reg.IOPLL_STATUS_at, 2, 1⟩
def Reg.IOPLL_STATUS.IOPLL_LOCK : Fd := ⟨Reg.IOPLL_STATUS_at, 3, 1⟩
def Reg.IOPLL_STATUS.IOPLL_LOL : Fd := ⟨Reg.IOPLL_STATUS_at, 4, 1⟩
def Reg.IOPLL_STATUS.ISL_DONE : Fd := ⟨Reg.IOPLL_STATUS_at, 5, 1⟩
def Reg.IOPLL_STATUS.REFUSE_EVENT : Fd := ⟨Reg.IOPLL_STATUS_at, 8, 6⟩
def Reg.IOPLL_STATUS.REFUSE_EVENT_EN : Fd := ⟨Reg.IOPLL_STATUS_at, 14, 1⟩
def Reg.IOPLL_STATUS.CLK_EVENT : Fd := ⟨Reg.IOPLL_STATUS_at, 16, 6⟩
def Reg.IOPLL_STATUS.CLK_EVENT_EN : Fd := ⟨Reg.IOPLL_STATUS_at, 22, 1⟩
def Reg.IOPLL_CTL_at : Nat := 0x3401
def Reg.IOPLL_CTL.LOCK : Fd := ⟨Reg.IOPLL_CTL_at, 0, 1⟩
def Reg.IOPLL_CTL.WIN : Fd := ⟨Reg.IOPLL_CTL_at, 1, 2⟩
def Reg.IOPLL_CTL.TOL : Fd := ⟨Reg.IOPLL_CTL_at, 3, 3⟩
def Reg.IOPLL_REFUSE_INFO_at : Nat := 0x3402
def Reg.IOPLL_REFUSE_INFO.REASON : Fd := ⟨Reg.IOPLL_REFUSE_INFO_at, 0, 4⟩
def Reg.IOPLL_REFUSE_INFO.ISL : Fd := ⟨Reg.IOPLL_REFUSE_INFO_at, 4, 5⟩
def Reg.IOPLL_REF_CNT_at : Nat := 0x3403
def Reg.IOPLL_REF_CNT.COUNT : Fd := ⟨Reg.IOPLL_REF_CNT_at, 0, 8⟩
def Reg.IOPLL_REF_CNT.ABSENT_CNT : Fd := ⟨Reg.IOPLL_REF_CNT_at, 16, 16⟩
def Reg.IOPLL_ISL_CMD_at : Nat := 0x3404
def Reg.IOPLL_ISL_CMD.ISL : Fd := ⟨Reg.IOPLL_ISL_CMD_at, 0, 5⟩
def Reg.IOPLL_ISL_CMD.ACTION : Fd := ⟨Reg.IOPLL_ISL_CMD_at, 8, 3⟩
def Reg.SPLL_CTL_at : Nat := 0x3410
def Reg.SPLL_CTL.FWHOP : Fd := ⟨Reg.SPLL_CTL_at, 0, 1⟩
def Reg.SPLL_CTL.MEMO_CLR : Fd := ⟨Reg.SPLL_CTL_at, 1, 1⟩
def Reg.SPLL_STATUS_at : Nat := 0x3411
def Reg.SPLL_STATUS.STATE : Fd := ⟨Reg.SPLL_STATUS_at, 0, 3⟩
def Reg.SPLL_STATUS.OP : Fd := ⟨Reg.SPLL_STATUS_at, 3, 2⟩
def Reg.SPLL_STATUS.QUEUED : Fd := ⟨Reg.SPLL_STATUS_at, 5, 1⟩
def Reg.SPLL_STATUS.HOP_FAIL : Fd := ⟨Reg.SPLL_STATUS_at, 6, 1⟩
def Reg.SPLL_STATUS.LOL : Fd := ⟨Reg.SPLL_STATUS_at, 7, 1⟩
def Reg.SPLL_STATUS.SSC_ACTIVE : Fd := ⟨Reg.SPLL_STATUS_at, 8, 1⟩
def Reg.SPLL_STATUS.SSC_SUPPRESSED : Fd := ⟨Reg.SPLL_STATUS_at, 9, 1⟩
def Reg.SPLL_STATUS.BAND : Fd := ⟨Reg.SPLL_STATUS_at, 10, 6⟩
def Reg.SPLL_HOP_at : Nat := 0x3412
def Reg.SPLL_HOP.OP : Fd := ⟨Reg.SPLL_HOP_at, 0, 2⟩
def Reg.SPLL_SSC_at : Nat := 0x3413
def Reg.SPLL_SSC.EN : Fd := ⟨Reg.SPLL_SSC_at, 0, 1⟩
def Reg.SPLL_SSC.MODE : Fd := ⟨Reg.SPLL_SSC_at, 1, 1⟩
def Reg.SPLL_SSC.DEPTH : Fd := ⟨Reg.SPLL_SSC_at, 2, 2⟩
def Reg.SPLL_MEMO_DT_at : Nat := 0x3414
def Reg.SPLL_MEMO_DT.DT : Fd := ⟨Reg.SPLL_MEMO_DT_at, 0, 6⟩
def Reg.SPLL_MEMO_SEL_at : Nat := 0x3415
def Reg.SPLL_MEMO_SEL.ENTRY : Fd := ⟨Reg.SPLL_MEMO_SEL_at, 0, 3⟩
def Reg.SPLL_MEMO_DATA_at : Nat := 0x3416
def Reg.SPLL_MEMO_DATA.VALID : Fd := ⟨Reg.SPLL_MEMO_DATA_at, 0, 1⟩
def Reg.SPLL_MEMO_DATA.N : Fd := ⟨Reg.SPLL_MEMO_DATA_at, 1, 7⟩
def Reg.SPLL_MEMO_DATA.BAND : Fd := ⟨Reg.SPLL_MEMO_DATA_at, 8, 6⟩
def Reg.SPLL_MEMO_DATA.TAG : Fd := ⟨Reg.SPLL_MEMO_DATA_at, 16, 8⟩
def Reg.SPLL_MEMO_DATA.RANK : Fd := ⟨Reg.SPLL_MEMO_DATA_at, 24, 3⟩
def Reg.SPLL_HOP_CNT_at : Nat := 0x3417
def Reg.SPLL_HOP_CNT.HOPS : Fd := ⟨Reg.SPLL_HOP_CNT_at, 0, 16⟩
def Reg.SPLL_HOP_CNT.HITS : Fd := ⟨Reg.SPLL_HOP_CNT_at, 16, 16⟩
def Reg.SPLL_SEARCH_CNT_at : Nat := 0x3418
def Reg.SPLL_SEARCH_CNT.SEARCHES : Fd := ⟨Reg.SPLL_SEARCH_CNT_at, 0, 16⟩
def Reg.SPLL_SEARCH_CNT.VERIFY_FAILS : Fd := ⟨Reg.SPLL_SEARCH_CNT_at, 16, 16⟩
def Reg.SPLL_LOL_CNT_at : Nat := 0x3419
def Reg.SPLL_LOL_CNT.COUNT : Fd := ⟨Reg.SPLL_LOL_CNT_at, 0, 32⟩
def Reg.SPLL_HOP_TIME_at : Nat := 0x341A
def Reg.SPLL_HOP_TIME.CYCLES : Fd := ⟨Reg.SPLL_HOP_TIME_at, 0, 16⟩
def Reg.SPLL_OPCFG_at (i : Nat) : Nat := 0x3420 + i
def Reg.SPLL_OPCFG.N (i : Nat) : Fd := ⟨Reg.SPLL_OPCFG_at i, 0, 7⟩
def Reg.SPLL_OPCFG.P (i : Nat) : Fd := ⟨Reg.SPLL_OPCFG_at i, 8, 3⟩
def Reg.CPLL_CTL_at : Nat := 0x3430
def Reg.CPLL_CTL.EN : Fd := ⟨Reg.CPLL_CTL_at, 0, 1⟩
def Reg.CPLL_CTL.FAMILY : Fd := ⟨Reg.CPLL_CTL_at, 1, 1⟩
def Reg.CPLL_STATUS_at : Nat := 0x3431
def Reg.CPLL_STATUS.LOCK : Fd := ⟨Reg.CPLL_STATUS_at, 0, 1⟩
def Reg.CPLL_STATUS.LOL : Fd := ⟨Reg.CPLL_STATUS_at, 1, 1⟩
def Reg.IOPLL_ISL_at (i : Nat) : Nat := 0x3440 + i
def Reg.IOPLL_ISL.STATE (i : Nat) : Fd := ⟨Reg.IOPLL_ISL_at i, 0, 3⟩
def Reg.IOPLL_ISL.DIV (i : Nat) : Fd := ⟨Reg.IOPLL_ISL_at i, 4, 2⟩
def Reg.LDR_STATUS_at : Nat := 0x1600
def Reg.LDR_STATUS.REFUSED : Fd := ⟨Reg.LDR_STATUS_at, 0, 1⟩
def Reg.LDR_STATUS.DEBT : Fd := ⟨Reg.LDR_STATUS_at, 1, 1⟩
def Reg.LDR_STATUS.OVERRUN : Fd := ⟨Reg.LDR_STATUS_at, 2, 1⟩
def Reg.LDR_STATUS.CLIPPED : Fd := ⟨Reg.LDR_STATUS_at, 3, 1⟩
def Reg.LDR_STATUS.TRIP : Fd := ⟨Reg.LDR_STATUS_at, 4, 1⟩
def Reg.LDR_STATUS.TRIP_SEEN : Fd := ⟨Reg.LDR_STATUS_at, 5, 1⟩
def Reg.LDR_STATUS.VFAIL : Fd := ⟨Reg.LDR_STATUS_at, 6, 1⟩
def Reg.LDR_STATUS.PMB_FAIL : Fd := ⟨Reg.LDR_STATUS_at, 7, 1⟩
def Reg.LDR_STATUS.THROTTLE : Fd := ⟨Reg.LDR_STATUS_at, 8, 2⟩
def Reg.LDR_STATUS.REASON : Fd := ⟨Reg.LDR_STATUS_at, 12, 4⟩
def Reg.LDR_CTL_at : Nat := 0x1601
def Reg.LDR_CTL.LOCK : Fd := ⟨Reg.LDR_CTL_at, 0, 1⟩
def Reg.LDR_CTL.FITFIRST : Fd := ⟨Reg.LDR_CTL_at, 1, 1⟩
def Reg.LDR_CTL.TRIP_CLR : Fd := ⟨Reg.LDR_CTL_at, 2, 1⟩
def Reg.LDR_EVCFG_at : Nat := 0x1602
def Reg.LDR_EVCFG.REFUSE_EVENT : Fd := ⟨Reg.LDR_EVCFG_at, 0, 6⟩
def Reg.LDR_EVCFG.REFUSE_EN : Fd := ⟨Reg.LDR_EVCFG_at, 6, 1⟩
def Reg.LDR_EVCFG.LDR_EVENT : Fd := ⟨Reg.LDR_EVCFG_at, 8, 6⟩
def Reg.LDR_EVCFG.LDR_EVENT_EN : Fd := ⟨Reg.LDR_EVCFG_at, 14, 1⟩
def Reg.LDR_CAP_at : Nat := 0x1603
def Reg.LDR_CAP.CAPACITY : Fd := ⟨Reg.LDR_CAP_at, 0, 16⟩
def Reg.LDR_CAP.PCAP : Fd := ⟨Reg.LDR_CAP_at, 16, 16⟩
def Reg.LDR_AVAIL_at : Nat := 0x1604
def Reg.LDR_AVAIL.EQ : Fd := ⟨Reg.LDR_AVAIL_at, 0, 32⟩
def Reg.LDR_RESERVED_at : Nat := 0x1605
def Reg.LDR_RESERVED.EQ : Fd := ⟨Reg.LDR_RESERVED_at, 0, 32⟩
def Reg.LDR_SPENT_at : Nat := 0x1606
def Reg.LDR_SPENT.EQ : Fd := ⟨Reg.LDR_SPENT_at, 0, 32⟩
def Reg.LDR_DEPOSIT_at : Nat := 0x1607
def Reg.LDR_DEPOSIT.EQ : Fd := ⟨Reg.LDR_DEPOSIT_at, 0, 32⟩
def Reg.LDR_SPILL_at : Nat := 0x1608
def Reg.LDR_SPILL.EQ : Fd := ⟨Reg.LDR_SPILL_at, 0, 32⟩
def Reg.LDR_SPENT_BASE_at : Nat := 0x1609
def Reg.LDR_SPENT_BASE.EQ : Fd := ⟨Reg.LDR_SPENT_BASE_at, 0, 32⟩
def Reg.LDR_ACCT_at : Nat := 0x160A
def Reg.LDR_ACCT.PERIOD : Fd := ⟨Reg.LDR_ACCT_at, 0, 10⟩
def Reg.LDR_ACCT.CLOSE : Fd := ⟨Reg.LDR_ACCT_at, 10, 1⟩
def Reg.LDR_ACCT.WINDOWS : Fd := ⟨Reg.LDR_ACCT_at, 16, 16⟩
def Reg.LDR_W_AVAIL_at : Nat := 0x160B
def Reg.LDR_W_AVAIL.EQ : Fd := ⟨Reg.LDR_W_AVAIL_at, 0, 32⟩
def Reg.LDR_W_RESERVED_at : Nat := 0x160C
def Reg.LDR_W_RESERVED.EQ : Fd := ⟨Reg.LDR_W_RESERVED_at, 0, 32⟩
def Reg.LDR_W_SPENT_at : Nat := 0x160D
def Reg.LDR_W_SPENT.EQ : Fd := ⟨Reg.LDR_W_SPENT_at, 0, 32⟩
def Reg.LDR_W_DEPOSIT_at : Nat := 0x160E
def Reg.LDR_W_DEPOSIT.EQ : Fd := ⟨Reg.LDR_W_DEPOSIT_at, 0, 32⟩
def Reg.LDR_W_SPILL_at : Nat := 0x160F
def Reg.LDR_W_SPILL.EQ : Fd := ⟨Reg.LDR_W_SPILL_at, 0, 32⟩
def Reg.LDR_POLICY_at : Nat := 0x1610
def Reg.LDR_POLICY.C0_FLOOR : Fd := ⟨Reg.LDR_POLICY_at, 0, 16⟩
def Reg.LDR_POLICY.DEBT_LIMIT : Fd := ⟨Reg.LDR_POLICY_at, 16, 16⟩
def Reg.LDR_TOL_at : Nat := 0x1611
def Reg.LDR_TOL.TOL : Fd := ⟨Reg.LDR_TOL_at, 0, 16⟩
def Reg.LDR_OPSCALE_at (i : Nat) : Nat := 0x1612 + i
def Reg.LDR_OPSCALE.SCALE (i : Nat) : Fd := ⟨Reg.LDR_OPSCALE_at i, 0, 11⟩
def Reg.LDR_OPV_at (i : Nat) : Nat := 0x1616 + i
def Reg.LDR_OPV.MV (i : Nat) : Fd := ⟨Reg.LDR_OPV_at i, 0, 10⟩
def Reg.LDR_THERM_at : Nat := 0x161A
def Reg.LDR_THERM.GTH : Fd := ⟨Reg.LDR_THERM_at, 0, 16⟩
def Reg.LDR_THERM.TLIMIT : Fd := ⟨Reg.LDR_THERM_at, 16, 8⟩
def Reg.LDR_THERM.TTRIP : Fd := ⟨Reg.LDR_THERM_at, 24, 8⟩
def Reg.LDR_WM_at : Nat := 0x161B
def Reg.LDR_WM.WM_LO : Fd := ⟨Reg.LDR_WM_at, 0, 16⟩
def Reg.LDR_WM.WM_HI : Fd := ⟨Reg.LDR_WM_at, 16, 16⟩
def Reg.LDR_STEP_CFG_at : Nat := 0x161C
def Reg.LDR_STEP_CFG.TICKS : Fd := ⟨Reg.LDR_STEP_CFG_at, 0, 16⟩
def Reg.LDR_STEP_CFG.UP_MARGIN : Fd := ⟨Reg.LDR_STEP_CFG_at, 16, 8⟩
def Reg.LDR_THROTTLE_at : Nat := 0x161D
def Reg.LDR_THROTTLE.T1 : Fd := ⟨Reg.LDR_THROTTLE_at, 0, 8⟩
def Reg.LDR_THROTTLE.T2 : Fd := ⟨Reg.LDR_THROTTLE_at, 8, 8⟩
def Reg.LDR_THROTTLE.HYST : Fd := ⟨Reg.LDR_THROTTLE_at, 16, 4⟩
def Reg.LDR_OP_at : Nat := 0x161E
def Reg.LDR_OP.CUR : Fd := ⟨Reg.LDR_OP_at, 0, 2⟩
def Reg.LDR_OP.WANT : Fd := ⟨Reg.LDR_OP_at, 2, 2⟩
def Reg.LDR_OP.STEPPING : Fd := ⟨Reg.LDR_OP_at, 4, 1⟩
def Reg.LDR_OP.VSET : Fd := ⟨Reg.LDR_OP_at, 16, 10⟩
def Reg.LDR_OP_CNT_at : Nat := 0x161F
def Reg.LDR_OP_CNT.DOWN : Fd := ⟨Reg.LDR_OP_CNT_at, 0, 16⟩
def Reg.LDR_OP_CNT.UP : Fd := ⟨Reg.LDR_OP_CNT_at, 16, 16⟩
def Reg.LDR_DEBT_CNT_at : Nat := 0x1620
def Reg.LDR_DEBT_CNT.DEBTS : Fd := ⟨Reg.LDR_DEBT_CNT_at, 0, 16⟩
def Reg.LDR_DEBT_CNT.OVERRUNS : Fd := ⟨Reg.LDR_DEBT_CNT_at, 16, 16⟩
def Reg.LDR_DEBT_MIN_at : Nat := 0x1621
def Reg.LDR_DEBT_MIN.EQ : Fd := ⟨Reg.LDR_DEBT_MIN_at, 0, 32⟩
def Reg.LDR_LAST_EXC_at : Nat := 0x1622
def Reg.LDR_LAST_EXC.TAG : Fd := ⟨Reg.LDR_LAST_EXC_at, 0, 16⟩
def Reg.LDR_LAST_EXC.SLOT : Fd := ⟨Reg.LDR_LAST_EXC_at, 16, 8⟩
def Reg.LDR_LAST_EXC.KIND : Fd := ⟨Reg.LDR_LAST_EXC_at, 24, 1⟩
def Reg.LDR_TRIM_at : Nat := 0x1623
def Reg.LDR_TRIM.TRIM : Fd := ⟨Reg.LDR_TRIM_at, 0, 16⟩
def Reg.LDR_TRIM.FROZEN : Fd := ⟨Reg.LDR_TRIM_at, 16, 1⟩
def Reg.LDR_PALLOW_at : Nat := 0x1624
def Reg.LDR_PALLOW.P : Fd := ⟨Reg.LDR_PALLOW_at, 0, 16⟩
def Reg.LDR_PALLOW.LIMIT : Fd := ⟨Reg.LDR_PALLOW_at, 16, 2⟩
def Reg.THM_T_at (i : Nat) : Nat := 0x1680 + i
def Reg.THM_T.T (i : Nat) : Fd := ⟨Reg.THM_T_at i, 0, 16⟩
def Reg.THM_T.FAULT (i : Nat) : Fd := ⟨Reg.THM_T_at i, 16, 1⟩
def Reg.THM_MAX_at : Nat := 0x1698
def Reg.THM_MAX.T_MAX : Fd := ⟨Reg.THM_MAX_at, 0, 16⟩
def Reg.THM_MAX.SENSOR : Fd := ⟨Reg.THM_MAX_at, 16, 5⟩
def Reg.THM_MAX.DEGRADED : Fd := ⟨Reg.THM_MAX_at, 21, 1⟩
def Reg.THM_MAX.SHDN : Fd := ⟨Reg.THM_MAX_at, 22, 1⟩
def Reg.THM_PEAK_at : Nat := 0x1699
def Reg.THM_PEAK.T : Fd := ⟨Reg.THM_PEAK_at, 0, 16⟩
def Reg.PMB_CFG_at : Nat := 0x16C0
def Reg.PMB_CFG.ADDR : Fd := ⟨Reg.PMB_CFG_at, 0, 7⟩
def Reg.PMB_CFG.SPEED : Fd := ⟨Reg.PMB_CFG_at, 7, 1⟩
def Reg.PMB_CFG.PEC : Fd := ⟨Reg.PMB_CFG_at, 8, 1⟩
def Reg.PMB_CFG.VEXP : Fd := ⟨Reg.PMB_CFG_at, 9, 5⟩
def Reg.PMB_STATUS_at : Nat := 0x16C1
def Reg.PMB_STATUS.FAIL : Fd := ⟨Reg.PMB_STATUS_at, 0, 1⟩
def Reg.PMB_STATUS.ALERT : Fd := ⟨Reg.PMB_STATUS_at, 1, 1⟩
def Reg.PMB_STATUS.ERRS : Fd := ⟨Reg.PMB_STATUS_at, 8, 8⟩
def Reg.PMB_STATUS.SWORD : Fd := ⟨Reg.PMB_STATUS_at, 16, 16⟩
def Reg.PMB_VOUT_at : Nat := 0x16C2
def Reg.PMB_VOUT.READ : Fd := ⟨Reg.PMB_VOUT_at, 0, 16⟩
def Reg.PMB_VOUT.CMD : Fd := ⟨Reg.PMB_VOUT_at, 16, 16⟩
def Reg.PMB_IOUT_at : Nat := 0x16C3
def Reg.PMB_IOUT.READ : Fd := ⟨Reg.PMB_IOUT_at, 0, 16⟩
def Reg.PMB_LIMITS_at : Nat := 0x16C4
def Reg.PMB_LIMITS.ILIMIT : Fd := ⟨Reg.PMB_LIMITS_at, 0, 16⟩
def Reg.PMB_LIMITS.PFAIL : Fd := ⟨Reg.PMB_LIMITS_at, 16, 16⟩
def Reg.FLC_STATUS_at : Nat := 0x3600
def Reg.FLC_STATUS.REFUSED : Fd := ⟨Reg.FLC_STATUS_at, 0, 1⟩
def Reg.FLC_STATUS.CMD_BUSY : Fd := ⟨Reg.FLC_STATUS_at, 1, 1⟩
def Reg.FLC_STATUS.INIT : Fd := ⟨Reg.FLC_STATUS_at, 2, 1⟩
def Reg.FLC_STATUS.DIE_BUSY : Fd := ⟨Reg.FLC_STATUS_at, 3, 1⟩
def Reg.FLC_STATUS.DONE : Fd := ⟨Reg.FLC_STATUS_at, 4, 1⟩
def Reg.FLC_STATUS.FAULT : Fd := ⟨Reg.FLC_STATUS_at, 5, 1⟩
def Reg.FLC_STATUS.DIE_FAULT : Fd := ⟨Reg.FLC_STATUS_at, 6, 1⟩
def Reg.FLC_STATUS.COPY_FULL : Fd := ⟨Reg.FLC_STATUS_at, 7, 1⟩
def Reg.FLC_STATUS.REASON : Fd := ⟨Reg.FLC_STATUS_at, 8, 4⟩
def Reg.FLC_STATUS.PWRFAIL : Fd := ⟨Reg.FLC_STATUS_at, 12, 1⟩
def Reg.FLC_CMD_at : Nat := 0x3601
def Reg.FLC_CMD.OP : Fd := ⟨Reg.FLC_CMD_at, 0, 4⟩
def Reg.FLC_CMD.BUF : Fd := ⟨Reg.FLC_CMD_at, 4, 1⟩
def Reg.FLC_CMD.LEN : Fd := ⟨Reg.FLC_CMD_at, 8, 13⟩
def Reg.FLC_ADDR_at : Nat := 0x3602
def Reg.FLC_ADDR.BLOCK : Fd := ⟨Reg.FLC_ADDR_at, 0, 11⟩
def Reg.FLC_ADDR.PAGE : Fd := ⟨Reg.FLC_ADDR_at, 16, 8⟩
def Reg.FLC_JSN_at : Nat := 0x3603
def Reg.FLC_JSN.JSN : Fd := ⟨Reg.FLC_JSN_at, 0, 32⟩
def Reg.FLC_RESULT_at : Nat := 0x3604
def Reg.FLC_RESULT.ERR : Fd := ⟨Reg.FLC_RESULT_at, 0, 4⟩
def Reg.FLC_RESULT.RELOC : Fd := ⟨Reg.FLC_RESULT_at, 4, 1⟩
def Reg.FLC_RESULT.SHIFT : Fd := ⟨Reg.FLC_RESULT_at, 5, 3⟩
def Reg.FLC_RESULT.CORR : Fd := ⟨Reg.FLC_RESULT_at, 8, 6⟩
def Reg.FLC_RDWAIT_at : Nat := 0x3605
def Reg.FLC_RDWAIT.WAIT : Fd := ⟨Reg.FLC_RDWAIT_at, 0, 4⟩
def Reg.FLC_BUF_ADDR_at : Nat := 0x3606
def Reg.FLC_BUF_ADDR.OFFSET : Fd := ⟨Reg.FLC_BUF_ADDR_at, 0, 13⟩
def Reg.FLC_BUF_ADDR.BUF : Fd := ⟨Reg.FLC_BUF_ADDR_at, 16, 1⟩
def Reg.FLC_BUF_DATA_at : Nat := 0x3607
def Reg.FLC_BUF_DATA.DATA : Fd := ⟨Reg.FLC_BUF_DATA_at, 0, 32⟩
def Reg.FLC_EVCFG_at : Nat := 0x3608
def Reg.FLC_EVCFG.DONE_EVENT : Fd := ⟨Reg.FLC_EVCFG_at, 0, 6⟩
def Reg.FLC_EVCFG.DONE_EN : Fd := ⟨Reg.FLC_EVCFG_at, 6, 1⟩
def Reg.FLC_EVCFG.FAULT_EVENT : Fd := ⟨Reg.FLC_EVCFG_at, 8, 6⟩
def Reg.FLC_EVCFG.FAULT_EN : Fd := ⟨Reg.FLC_EVCFG_at, 14, 1⟩
def Reg.FLC_EVCFG.REFUSE_EVENT : Fd := ⟨Reg.FLC_EVCFG_at, 16, 6⟩
def Reg.FLC_EVCFG.REFUSE_EN : Fd := ⟨Reg.FLC_EVCFG_at, 22, 1⟩
def Reg.FLC_PG_FREE_at : Nat := 0x3609
def Reg.FLC_PG_FREE.PAGES : Fd := ⟨Reg.FLC_PG_FREE_at, 0, 20⟩
def Reg.FLC_PG_VALID_at : Nat := 0x360A
def Reg.FLC_PG_VALID.PAGES : Fd := ⟨Reg.FLC_PG_VALID_at, 0, 20⟩
def Reg.FLC_PG_STALE_at : Nat := 0x360B
def Reg.FLC_PG_STALE.PAGES : Fd := ⟨Reg.FLC_PG_STALE_at, 0, 20⟩
def Reg.FLC_PG_RETIRED_at : Nat := 0x360C
def Reg.FLC_PG_RETIRED.PAGES : Fd := ⟨Reg.FLC_PG_RETIRED_at, 0, 20⟩
def Reg.FLC_J_HEAD_at : Nat := 0x360D
def Reg.FLC_J_HEAD.JSN : Fd := ⟨Reg.FLC_J_HEAD_at, 0, 32⟩
def Reg.FLC_J_TAIL_at : Nat := 0x360E
def Reg.FLC_J_TAIL.JSN : Fd := ⟨Reg.FLC_J_TAIL_at, 0, 32⟩
def Reg.FLC_CE_CNT_at : Nat := 0x360F
def Reg.FLC_CE_CNT.COUNT : Fd := ⟨Reg.FLC_CE_CNT_at, 0, 32⟩
def Reg.FLC_UE_CNT_at : Nat := 0x3610
def Reg.FLC_UE_CNT.COUNT : Fd := ⟨Reg.FLC_UE_CNT_at, 0, 32⟩
def Reg.FLC_RETRY_CNT_at : Nat := 0x3611
def Reg.FLC_RETRY_CNT.COUNT : Fd := ⟨Reg.FLC_RETRY_CNT_at, 0, 32⟩
def Reg.FLC_BLK_SEL_at : Nat := 0x3612
def Reg.FLC_BLK_SEL.BLOCK : Fd := ⟨Reg.FLC_BLK_SEL_at, 0, 11⟩
def Reg.FLC_BLK_INFO_at : Nat := 0x3613
def Reg.FLC_BLK_INFO.STATE : Fd := ⟨Reg.FLC_BLK_INFO_at, 0, 2⟩
def Reg.FLC_BLK_INFO.SHIFT : Fd := ⟨Reg.FLC_BLK_INFO_at, 2, 3⟩
def Reg.FLC_BLK_INFO.INTENT : Fd := ⟨Reg.FLC_BLK_INFO_at, 5, 1⟩
def Reg.FLC_BLK_INFO.SPARE : Fd := ⟨Reg.FLC_BLK_INFO_at, 6, 4⟩
def Reg.FLC_BLK_INFO.REMAPPED : Fd := ⟨Reg.FLC_BLK_INFO_at, 10, 1⟩
def Reg.FLC_BLK_INFO.ERASES : Fd := ⟨Reg.FLC_BLK_INFO_at, 11, 21⟩
def Reg.FLC_HEALTH_at : Nat := 0x3614
def Reg.FLC_HEALTH.SPARES_FREE : Fd := ⟨Reg.FLC_HEALTH_at, 0, 5⟩
def Reg.FLC_HEALTH.REERASE : Fd := ⟨Reg.FLC_HEALTH_at, 8, 8⟩
def Reg.FLC_HEALTH.COPY_USED : Fd := ⟨Reg.FLC_HEALTH_at, 16, 8⟩
def Reg.REC_STATUS_at : Nat := 0x3800
def Reg.REC_STATUS.REFUSED : Fd := ⟨Reg.REC_STATUS_at, 0, 1⟩
def Reg.REC_STATUS.LOG_FAULT : Fd := ⟨Reg.REC_STATUS_at, 1, 1⟩
def Reg.REC_STATUS.FLUSHING : Fd := ⟨Reg.REC_STATUS_at, 2, 1⟩
def Reg.REC_STATUS.PWRFAIL : Fd := ⟨Reg.REC_STATUS_at, 3, 1⟩
def Reg.REC_STATUS.REASON : Fd := ⟨Reg.REC_STATUS_at, 8, 4⟩
def Reg.REC_CFG_at : Nat := 0x3801
def Reg.REC_CFG.FLUSH_S : Fd := ⟨Reg.REC_CFG_at, 0, 10⟩
def Reg.REC_EVCFG_at : Nat := 0x3802
def Reg.REC_EVCFG.REFUSE_EVENT : Fd := ⟨Reg.REC_EVCFG_at, 0, 6⟩
def Reg.REC_EVCFG.REFUSE_EN : Fd := ⟨Reg.REC_EVCFG_at, 6, 1⟩
def Reg.REC_EVCFG.FAULT_EVENT : Fd := ⟨Reg.REC_EVCFG_at, 8, 6⟩
def Reg.REC_EVCFG.FAULT_EN : Fd := ⟨Reg.REC_EVCFG_at, 14, 1⟩
def Reg.REC_OPSEC_LO_at : Nat := 0x3803
def Reg.REC_OPSEC_LO.SEC : Fd := ⟨Reg.REC_OPSEC_LO_at, 0, 32⟩
def Reg.REC_OPSEC_HI_at : Nat := 0x3804
def Reg.REC_OPSEC_HI.SEC : Fd := ⟨Reg.REC_OPSEC_HI_at, 0, 8⟩
def Reg.REC_PWRCYC_at : Nat := 0x3805
def Reg.REC_PWRCYC.COUNT : Fd := ⟨Reg.REC_PWRCYC_at, 0, 32⟩
def Reg.REC_RESETS_at : Nat := 0x3806
def Reg.REC_RESETS.COUNT : Fd := ⟨Reg.REC_RESETS_at, 0, 32⟩
def Reg.REC_FLUSH_at : Nat := 0x3807
def Reg.REC_FLUSH.NOW : Fd := ⟨Reg.REC_FLUSH_at, 0, 1⟩
def Reg.REC_FLUSH.COUNT : Fd := ⟨Reg.REC_FLUSH_at, 16, 16⟩
def Reg.REC_LOST_at : Nat := 0x3808
def Reg.REC_LOST.COUNT : Fd := ⟨Reg.REC_LOST_at, 0, 32⟩
def Reg.REC_PUSH_IGN_at : Nat := 0x3809
def Reg.REC_PUSH_IGN.COUNT : Fd := ⟨Reg.REC_PUSH_IGN_at, 0, 32⟩
def Reg.REC_HIST_SEL_at : Nat := 0x380A
def Reg.REC_HIST_SEL.CHANNEL : Fd := ⟨Reg.REC_HIST_SEL_at, 0, 6⟩
def Reg.REC_HIST_SEL.BIN : Fd := ⟨Reg.REC_HIST_SEL_at, 8, 8⟩
def Reg.REC_HIST_LO_at : Nat := 0x380B
def Reg.REC_HIST_LO.COUNT : Fd := ⟨Reg.REC_HIST_LO_at, 0, 32⟩
def Reg.REC_HIST_HI_at : Nat := 0x380C
def Reg.REC_HIST_HI.COUNT : Fd := ⟨Reg.REC_HIST_HI_at, 0, 16⟩
def Reg.REC_CH_SEL_at : Nat := 0x380D
def Reg.REC_CH_SEL.CHANNEL : Fd := ⟨Reg.REC_CH_SEL_at, 0, 6⟩
def Reg.REC_CH_SEL.WORD : Fd := ⟨Reg.REC_CH_SEL_at, 8, 4⟩
def Reg.REC_CH_DATA_at : Nat := 0x380E
def Reg.REC_CH_DATA.DATA : Fd := ⟨Reg.REC_CH_DATA_at, 0, 32⟩
def Reg.REC_LEDGER_SEL_at : Nat := 0x380F
def Reg.REC_LEDGER_SEL.ENTRY : Fd := ⟨Reg.REC_LEDGER_SEL_at, 0, 6⟩
def Reg.REC_LEDGER_SEL.WORD : Fd := ⟨Reg.REC_LEDGER_SEL_at, 6, 2⟩
def Reg.REC_LEDGER_DATA_at : Nat := 0x3810
def Reg.REC_LEDGER_DATA.DATA : Fd := ⟨Reg.REC_LEDGER_DATA_at, 0, 32⟩
def Reg.REC_CLEAR_at : Nat := 0x3811
def Reg.REC_CLEAR.FIRST : Fd := ⟨Reg.REC_CLEAR_at, 0, 6⟩
def Reg.REC_CLEAR.LAST : Fd := ⟨Reg.REC_CLEAR_at, 8, 6⟩
def Reg.REC_CLEAR.CH : Fd := ⟨Reg.REC_CLEAR_at, 16, 1⟩
def Reg.REC_CLEAR.LEDGER : Fd := ⟨Reg.REC_CLEAR_at, 17, 1⟩
def Reg.REC_CLEAR.GO : Fd := ⟨Reg.REC_CLEAR_at, 31, 1⟩
def Reg.REC_SNAP_FIRE_at : Nat := 0x3812
def Reg.REC_SNAP_FIRE.SET : Fd := ⟨Reg.REC_SNAP_FIRE_at, 0, 8⟩
def Reg.REC_VAULT_STATUS_at : Nat := 0x3813
def Reg.REC_VAULT_STATUS.REPAIRED : Fd := ⟨Reg.REC_VAULT_STATUS_at, 0, 8⟩
def Reg.REC_VAULT_STATUS.LOST : Fd := ⟨Reg.REC_VAULT_STATUS_at, 8, 8⟩
def Reg.REC_CH_SRC_at (n : Nat) : Nat := 0x3900 + 0x8 * n
def Reg.REC_CH_SRC.ADDR (n : Nat) : Fd := ⟨Reg.REC_CH_SRC_at n, 0, 16⟩
def Reg.REC_CH_SRC.KIND (n : Nat) : Fd := ⟨Reg.REC_CH_SRC_at n, 16, 2⟩
def Reg.REC_CH_SRC.VTYPE (n : Nat) : Fd := ⟨Reg.REC_CH_SRC_at n, 18, 2⟩
def Reg.REC_CH_SRC.LSB (n : Nat) : Fd := ⟨Reg.REC_CH_SRC_at n, 20, 5⟩
def Reg.REC_CH_SRC.WIDTH (n : Nat) : Fd := ⟨Reg.REC_CH_SRC_at n, 25, 5⟩
def Reg.REC_CH_SRC.EN (n : Nat) : Fd := ⟨Reg.REC_CH_SRC_at n, 31, 1⟩
def Reg.REC_CH_RATE_at (n : Nat) : Nat := 0x3901 + 0x8 * n
def Reg.REC_CH_RATE.PERIOD (n : Nat) : Fd := ⟨Reg.REC_CH_RATE_at n, 0, 14⟩
def Reg.REC_CH_RATE.MODE (n : Nat) : Fd := ⟨Reg.REC_CH_RATE_at n, 16, 1⟩
def Reg.REC_CH_RATE.DSH (n : Nat) : Fd := ⟨Reg.REC_CH_RATE_at n, 17, 3⟩
def Reg.REC_CH_OFS_at (n : Nat) : Nat := 0x3902 + 0x8 * n
def Reg.REC_CH_OFS.VALUE (n : Nat) : Fd := ⟨Reg.REC_CH_OFS_at n, 0, 32⟩
def Reg.REC_CH_WID_at (n : Nat) : Nat := 0x3903 + 0x8 * n
def Reg.REC_CH_WID.VALUE (n : Nat) : Fd := ⟨Reg.REC_CH_WID_at n, 0, 32⟩
def Reg.REC_CH_THR_at (n : Nat) : Nat := 0x3904 + 0x8 * n
def Reg.REC_CH_THR.VALUE (n : Nat) : Fd := ⟨Reg.REC_CH_THR_at n, 0, 32⟩
def Reg.REC_PUSH_at (n : Nat) : Nat := 0x3905 + 0x8 * n
def Reg.REC_PUSH.VALUE (n : Nat) : Fd := ⟨Reg.REC_PUSH_at n, 0, 32⟩
def Reg.REC_SNAP_CTL_at (s : Nat) : Nat := 0x3B00 + 0x40 * s
def Reg.REC_SNAP_CTL.TRIGMASK (s : Nat) : Fd := ⟨Reg.REC_SNAP_CTL_at s, 0, 7⟩
def Reg.REC_SNAP_CTL.COUNT (s : Nat) : Fd := ⟨Reg.REC_SNAP_CTL_at s, 8, 6⟩
def Reg.REC_SNAP_CTL.STATE (s : Nat) : Fd := ⟨Reg.REC_SNAP_CTL_at s, 14, 2⟩
def Reg.REC_SNAP_CTL.FIRED (s : Nat) : Fd := ⟨Reg.REC_SNAP_CTL_at s, 16, 16⟩
def Reg.REC_SNAP_ADDR_at (s : Nat) (i : Nat) : Nat := 0x3B20 + 0x40 * s + i
def Reg.REC_SNAP_ADDR.ADDR (s : Nat) (i : Nat) : Fd := ⟨Reg.REC_SNAP_ADDR_at s i, 0, 16⟩
def Reg.AON_STATUS_at : Nat := 0x4020
def Reg.AON_STATUS.VAULT_FAULT : Fd := ⟨Reg.AON_STATUS_at, 0, 1⟩
def Reg.AON_STATUS.PWRFAIL : Fd := ⟨Reg.AON_STATUS_at, 1, 1⟩
def Reg.AON_LED_at : Nat := 0x4021
def Reg.AON_LED.ON : Fd := ⟨Reg.AON_LED_at, 0, 1⟩
def Reg.AON_LED.CODE : Fd := ⟨Reg.AON_LED_at, 8, 3⟩
def Reg.RTC_SEC_at : Nat := 0x4028
def Reg.RTC_SEC.VALUE : Fd := ⟨Reg.RTC_SEC_at, 0, 32⟩
def Reg.RTC_FRAC_at : Nat := 0x4029
def Reg.RTC_FRAC.VALUE : Fd := ⟨Reg.RTC_FRAC_at, 0, 15⟩
def Reg.RTC_STATUS_at : Nat := 0x402A
def Reg.RTC_STATUS.VALID : Fd := ⟨Reg.RTC_STATUS_at, 0, 1⟩
def Reg.RTC_STATUS.SLEWING : Fd := ⟨Reg.RTC_STATUS_at, 1, 1⟩
def Reg.RTC_SLEW_at : Nat := 0x402B
def Reg.RTC_SLEW.AMOUNT : Fd := ⟨Reg.RTC_SLEW_at, 0, 32⟩
def Reg.RTC_SET_SEC_at : Nat := 0x402C
def Reg.RTC_SET_SEC.VALUE : Fd := ⟨Reg.RTC_SET_SEC_at, 0, 32⟩
def Reg.RTC_SET_FRAC_at : Nat := 0x402D
def Reg.RTC_SET_FRAC.FRAC : Fd := ⟨Reg.RTC_SET_FRAC_at, 0, 15⟩
def Reg.RTC_SET_FRAC.GO : Fd := ⟨Reg.RTC_SET_FRAC_at, 31, 1⟩
def Reg.PAR_STATUS_at : Nat := 0x4000
def Reg.PAR_STATUS.REFUSED : Fd := ⟨Reg.PAR_STATUS_at, 0, 1⟩
def Reg.PAR_STATUS.WIN : Fd := ⟨Reg.PAR_STATUS_at, 1, 2⟩
def Reg.PAR_STATUS.BTN : Fd := ⟨Reg.PAR_STATUS_at, 3, 1⟩
def Reg.PAR_STATUS.ARMED : Fd := ⟨Reg.PAR_STATUS_at, 4, 1⟩
def Reg.PAR_STATUS.BTN_STUCK : Fd := ⟨Reg.PAR_STATUS_at, 5, 1⟩
def Reg.PAR_STATUS.SEAL_BROKEN : Fd := ⟨Reg.PAR_STATUS_at, 6, 1⟩
def Reg.PAR_STATUS.SEAL_OPEN : Fd := ⟨Reg.PAR_STATUS_at, 7, 1⟩
def Reg.PAR_STATUS.JUMPER : Fd := ⟨Reg.PAR_STATUS_at, 8, 1⟩
def Reg.PAR_STATUS.VBAT_LOST : Fd := ⟨Reg.PAR_STATUS_at, 9, 1⟩
def Reg.PAR_STATUS.REASON : Fd := ⟨Reg.PAR_STATUS_at, 12, 4⟩
def Reg.PAR_CFG_at : Nat := 0x4001
def Reg.PAR_CFG.HOLD_S : Fd := ⟨Reg.PAR_CFG_at, 0, 4⟩
def Reg.PAR_CFG.WINDOW_MIN : Fd := ⟨Reg.PAR_CFG_at, 8, 6⟩
def Reg.PAR_WIN_LEFT_at : Nat := 0x4002
def Reg.PAR_WIN_LEFT.SEC : Fd := ⟨Reg.PAR_WIN_LEFT_at, 0, 12⟩
def Reg.PAR_SEAL_SEC_at : Nat := 0x4003
def Reg.PAR_SEAL_SEC.CAL_SEC : Fd := ⟨Reg.PAR_SEAL_SEC_at, 0, 32⟩
def Reg.PAR_SEAL_INFO_at : Nat := 0x4004
def Reg.PAR_SEAL_INFO.CAL_FRAC : Fd := ⟨Reg.PAR_SEAL_INFO_at, 0, 15⟩
def Reg.PAR_SEAL_INFO.CAL_VALID : Fd := ⟨Reg.PAR_SEAL_INFO_at, 15, 1⟩
def Reg.PAR_SEAL_INFO.ON_VBAT : Fd := ⟨Reg.PAR_SEAL_INFO_at, 16, 1⟩
def Reg.PAR_WINDOWS_at : Nat := 0x4005
def Reg.PAR_WINDOWS.COUNT : Fd := ⟨Reg.PAR_WINDOWS_at, 0, 32⟩
def Reg.PAR_LIFE_at : Nat := 0x4006
def Reg.PAR_LIFE.BENCH_BOOTS : Fd := ⟨Reg.PAR_LIFE_at, 0, 16⟩
def Reg.PAR_LIFE.VBAT_LOSSES : Fd := ⟨Reg.PAR_LIFE_at, 16, 16⟩
def Reg.PAR_EVCFG_at : Nat := 0x4007
def Reg.PAR_EVCFG.REFUSE_EVENT : Fd := ⟨Reg.PAR_EVCFG_at, 0, 6⟩
def Reg.PAR_EVCFG.REFUSE_EN : Fd := ⟨Reg.PAR_EVCFG_at, 6, 1⟩
def Reg.PAR_EVCFG.PRES_EVENT : Fd := ⟨Reg.PAR_EVCFG_at, 8, 6⟩
def Reg.PAR_EVCFG.PRES_EN : Fd := ⟨Reg.PAR_EVCFG_at, 14, 1⟩
def Reg.PAR_EVCFG.SEAL_EVENT : Fd := ⟨Reg.PAR_EVCFG_at, 16, 6⟩
def Reg.PAR_EVCFG.SEAL_EN : Fd := ⟨Reg.PAR_EVCFG_at, 22, 1⟩
def Reg.BOOT_STATUS_at : Nat := 0x4100
def Reg.BOOT_STATUS.STATE : Fd := ⟨Reg.BOOT_STATUS_at, 0, 2⟩
def Reg.BOOT_STATUS.SLOT : Fd := ⟨Reg.BOOT_STATUS_at, 2, 2⟩
def Reg.BOOT_STATUS.TRIAL : Fd := ⟨Reg.BOOT_STATUS_at, 4, 1⟩
def Reg.BOOT_STATUS.REFUSED : Fd := ⟨Reg.BOOT_STATUS_at, 5, 1⟩
def Reg.BOOT_STATUS.REASON : Fd := ⟨Reg.BOOT_STATUS_at, 8, 4⟩
def Reg.BOOT_STATUS.FALLBACKS : Fd := ⟨Reg.BOOT_STATUS_at, 12, 4⟩
def Reg.BOOT_STATUS.OVL_ERR : Fd := ⟨Reg.BOOT_STATUS_at, 16, 16⟩
def Reg.BOOT_IMAGE_at : Nat := 0x4101
def Reg.BOOT_IMAGE.UPSEQ : Fd := ⟨Reg.BOOT_IMAGE_at, 0, 32⟩
def Reg.BOOT_FAIL_at : Nat := 0x4102
def Reg.BOOT_FAIL.A : Fd := ⟨Reg.BOOT_FAIL_at, 0, 4⟩
def Reg.BOOT_FAIL.B : Fd := ⟨Reg.BOOT_FAIL_at, 4, 4⟩
def Reg.BOOT_FAIL.FACTORY : Fd := ⟨Reg.BOOT_FAIL_at, 8, 4⟩
def Reg.BOOT_FAIL.DEFAULTS : Fd := ⟨Reg.BOOT_FAIL_at, 12, 4⟩
def Reg.BOOT_TIME_at : Nat := 0x4103
def Reg.BOOT_TIME.MS : Fd := ⟨Reg.BOOT_TIME_at, 0, 16⟩
def Reg.BOOT_RESET_CAUSE_at : Nat := 0x4104
def Reg.BOOT_RESET_CAUSE.CAUSE : Fd := ⟨Reg.BOOT_RESET_CAUSE_at, 0, 3⟩
def Reg.BOOT_TRIAL_at : Nat := 0x4105
def Reg.BOOT_TRIAL.SLOT : Fd := ⟨Reg.BOOT_TRIAL_at, 0, 2⟩
def Reg.BOOT_TRIAL.TRIES : Fd := ⟨Reg.BOOT_TRIAL_at, 2, 2⟩
def Reg.BOOT_CONF_A_at : Nat := 0x4106
def Reg.BOOT_CONF_A.UPSEQ : Fd := ⟨Reg.BOOT_CONF_A_at, 0, 32⟩
def Reg.BOOT_CONF_B_at : Nat := 0x4107
def Reg.BOOT_CONF_B.UPSEQ : Fd := ⟨Reg.BOOT_CONF_B_at, 0, 32⟩
def Reg.BOOT_REJ_A_at : Nat := 0x4108
def Reg.BOOT_REJ_A.UPSEQ : Fd := ⟨Reg.BOOT_REJ_A_at, 0, 32⟩
def Reg.BOOT_REJ_B_at : Nat := 0x4109
def Reg.BOOT_REJ_B.UPSEQ : Fd := ⟨Reg.BOOT_REJ_B_at, 0, 32⟩
def Reg.BOOT_CONFIRM_at : Nat := 0x410A
def Reg.BOOT_CONFIRM.KEY : Fd := ⟨Reg.BOOT_CONFIRM_at, 0, 16⟩
def Reg.BOOT_CONFIRM.REJECT : Fd := ⟨Reg.BOOT_CONFIRM_at, 16, 1⟩
def Reg.BOOT_TRIAL_CTL_at : Nat := 0x410B
def Reg.BOOT_TRIAL_CTL.CONFIRM : Fd := ⟨Reg.BOOT_TRIAL_CTL_at, 0, 1⟩
def Reg.BOOT_TRIAL_CTL.REJECT : Fd := ⟨Reg.BOOT_TRIAL_CTL_at, 1, 1⟩
def Reg.BOOT_SYSRESET_at : Nat := 0x410C
def Reg.BOOT_SYSRESET.KEY : Fd := ⟨Reg.BOOT_SYSRESET_at, 0, 16⟩
def Reg.BOOT_EVCFG_at : Nat := 0x410D
def Reg.BOOT_EVCFG.REFUSE_EVENT : Fd := ⟨Reg.BOOT_EVCFG_at, 0, 6⟩
def Reg.BOOT_EVCFG.REFUSE_EN : Fd := ⟨Reg.BOOT_EVCFG_at, 6, 1⟩
def Reg.WDT_CTL_at : Nat := 0x4030
def Reg.WDT_CTL.LOCK : Fd := ⟨Reg.WDT_CTL_at, 0, 1⟩
def Reg.WDT_CFG_at : Nat := 0x4031
def Reg.WDT_CFG.TIMEOUT_S : Fd := ⟨Reg.WDT_CFG_at, 0, 6⟩
def Reg.WDT_CFG.GRACE_MS : Fd := ⟨Reg.WDT_CFG_at, 16, 14⟩
def Reg.WDT_KEY_at : Nat := 0x4032
def Reg.WDT_KEY.KEY : Fd := ⟨Reg.WDT_KEY_at, 0, 16⟩
def Reg.WDT_STATUS_at : Nat := 0x4033
def Reg.WDT_STATUS.REFUSED : Fd := ⟨Reg.WDT_STATUS_at, 0, 1⟩
def Reg.WDT_STATUS.STAGE1 : Fd := ⟨Reg.WDT_STATUS_at, 1, 1⟩
def Reg.WDT_STATUS.HELD : Fd := ⟨Reg.WDT_STATUS_at, 2, 1⟩
def Reg.WDT_STATUS.ARMED : Fd := ⟨Reg.WDT_STATUS_at, 3, 1⟩
def Reg.WDT_STATUS.REASON : Fd := ⟨Reg.WDT_STATUS_at, 4, 4⟩
def Reg.WDT_STATUS.BADKEY : Fd := ⟨Reg.WDT_STATUS_at, 16, 16⟩
def Reg.WDT_LEFT_at : Nat := 0x4034
def Reg.WDT_LEFT.MS : Fd := ⟨Reg.WDT_LEFT_at, 0, 16⟩
def Reg.CVP_STATUS_at : Nat := 0x4200
def Reg.CVP_STATUS.REFUSED : Fd := ⟨Reg.CVP_STATUS_at, 0, 1⟩
def Reg.CVP_STATUS.CLK_FAULT : Fd := ⟨Reg.CVP_STATUS_at, 1, 1⟩
def Reg.CVP_STATUS.CAL_BUSY : Fd := ⟨Reg.CVP_STATUS_at, 2, 1⟩
def Reg.CVP_STATUS.REASON : Fd := ⟨Reg.CVP_STATUS_at, 8, 4⟩
def Reg.CVP_START_at : Nat := 0x4201
def Reg.CVP_START.START : Fd := ⟨Reg.CVP_START_at, 0, 8⟩
def Reg.CVP_START.STOP : Fd := ⟨Reg.CVP_START_at, 8, 8⟩
def Reg.CVP_MCLK_at : Nat := 0x4202
def Reg.CVP_MCLK.EN : Fd := ⟨Reg.CVP_MCLK_at, 0, 1⟩
def Reg.CVP_EVCFG_at : Nat := 0x4203
def Reg.CVP_EVCFG.REFUSE_EVENT : Fd := ⟨Reg.CVP_EVCFG_at, 0, 6⟩
def Reg.CVP_EVCFG.REFUSE_EN : Fd := ⟨Reg.CVP_EVCFG_at, 6, 1⟩
def Reg.CVP_EVCFG.PORT_EVENT : Fd := ⟨Reg.CVP_EVCFG_at, 8, 6⟩
def Reg.CVP_EVCFG.PORT_EN : Fd := ⟨Reg.CVP_EVCFG_at, 14, 1⟩
def Reg.CVP_EVCFG.CAL_EVENT : Fd := ⟨Reg.CVP_EVCFG_at, 16, 6⟩
def Reg.CVP_EVCFG.CAL_EN : Fd := ⟨Reg.CVP_EVCFG_at, 22, 1⟩
def Reg.CVP_CAL_CTL_at : Nat := 0x4204
def Reg.CVP_CAL_CTL.PORT : Fd := ⟨Reg.CVP_CAL_CTL_at, 0, 3⟩
def Reg.CVP_CAL_CTL.SLOTMASK : Fd := ⟨Reg.CVP_CAL_CTL_at, 8, 8⟩
def Reg.CVP_CAL_CTL.LOG2N : Fd := ⟨Reg.CVP_CAL_CTL_at, 16, 4⟩
def Reg.CVP_CAL_CTL.GO : Fd := ⟨Reg.CVP_CAL_CTL_at, 31, 1⟩
def Reg.CVP_CAL_LIM_MEAN_at : Nat := 0x4205
def Reg.CVP_CAL_LIM_MEAN.LIMIT : Fd := ⟨Reg.CVP_CAL_LIM_MEAN_at, 0, 32⟩
def Reg.CVP_CAL_LIM_VAR_at : Nat := 0x4206
def Reg.CVP_CAL_LIM_VAR.LIMIT : Fd := ⟨Reg.CVP_CAL_LIM_VAR_at, 0, 32⟩
def Reg.CVP_CAL_SETTLE_at : Nat := 0x4207
def Reg.CVP_CAL_SETTLE.MS : Fd := ⟨Reg.CVP_CAL_SETTLE_at, 0, 10⟩
def Reg.CVP_CAL_STATUS_at : Nat := 0x4208
def Reg.CVP_CAL_STATUS.STATE : Fd := ⟨Reg.CVP_CAL_STATUS_at, 0, 2⟩
def Reg.CVP_CAL_STATUS.RESULT : Fd := ⟨Reg.CVP_CAL_STATUS_at, 2, 2⟩
def Reg.CVP_CAL_STATUS.CAUSE : Fd := ⟨Reg.CVP_CAL_STATUS_at, 4, 2⟩
def Reg.CVP_CAL_STATUS.SLOT : Fd := ⟨Reg.CVP_CAL_STATUS_at, 8, 3⟩
def Reg.CVP_CAL_MEAN_at : Nat := 0x4209
def Reg.CVP_CAL_MEAN.VALUE : Fd := ⟨Reg.CVP_CAL_MEAN_at, 0, 32⟩
def Reg.CVP_CAL_VAR_at : Nat := 0x420A
def Reg.CVP_CAL_VAR.VALUE : Fd := ⟨Reg.CVP_CAL_VAR_at, 0, 32⟩
def Reg.CVP_CFG_at (p : Nat) : Nat := 0x4240 + 0x20 * p
def Reg.CVP_CFG.DIR (p : Nat) : Fd := ⟨Reg.CVP_CFG_at p, 0, 1⟩
def Reg.CVP_CFG.MASTER (p : Nat) : Fd := ⟨Reg.CVP_CFG_at p, 1, 1⟩
def Reg.CVP_CFG.SLOTS (p : Nat) : Fd := ⟨Reg.CVP_CFG_at p, 2, 3⟩
def Reg.CVP_CFG.WIDTH (p : Nat) : Fd := ⟨Reg.CVP_CFG_at p, 5, 2⟩
def Reg.CVP_CFG.FLEN (p : Nat) : Fd := ⟨Reg.CVP_CFG_at p, 8, 8⟩
def Reg.CVP_CFG.FSW (p : Nat) : Fd := ⟨Reg.CVP_CFG_at p, 16, 2⟩
def Reg.CVP_CFG.FSPOL (p : Nat) : Fd := ⟨Reg.CVP_CFG_at p, 18, 1⟩
def Reg.CVP_CFG.FSDLY (p : Nat) : Fd := ⟨Reg.CVP_CFG_at p, 19, 1⟩
def Reg.CVP_CFG.BEDGE (p : Nat) : Fd := ⟨Reg.CVP_CFG_at p, 20, 1⟩
def Reg.CVP_CFG.BDIV (p : Nat) : Fd := ⟨Reg.CVP_CFG_at p, 24, 8⟩
def Reg.CVP_STAT_at (p : Nat) : Nat := 0x4241 + 0x20 * p
def Reg.CVP_STAT.STATE (p : Nat) : Fd := ⟨Reg.CVP_STAT_at p, 0, 2⟩
def Reg.CVP_STAT.STOP_CAUSE (p : Nat) : Fd := ⟨Reg.CVP_STAT_at p, 2, 2⟩
def Reg.CVP_STAT.OVERRUN (p : Nat) : Fd := ⟨Reg.CVP_STAT_at p, 4, 1⟩
def Reg.CVP_STAT.UNDERRUN (p : Nat) : Fd := ⟨Reg.CVP_STAT_at p, 5, 1⟩
def Reg.CVP_STAT.FRAME_ERR (p : Nat) : Fd := ⟨Reg.CVP_STAT_at p, 6, 1⟩
def Reg.CVP_STAT.PAD (p : Nat) : Fd := ⟨Reg.CVP_STAT_at p, 7, 1⟩
def Reg.CVP_STAT.CAL (p : Nat) : Fd := ⟨Reg.CVP_STAT_at p, 8, 1⟩
def Reg.CVP_STAT.LEVEL (p : Nat) : Fd := ⟨Reg.CVP_STAT_at p, 16, 10⟩
def Reg.CVP_OVR_CNT_at (p : Nat) : Nat := 0x4242 + 0x20 * p
def Reg.CVP_OVR_CNT.COUNT (p : Nat) : Fd := ⟨Reg.CVP_OVR_CNT_at p, 0, 32⟩
def Reg.CVP_UND_CNT_at (p : Nat) : Nat := 0x4243 + 0x20 * p
def Reg.CVP_UND_CNT.COUNT (p : Nat) : Fd := ⟨Reg.CVP_UND_CNT_at p, 0, 32⟩
def Reg.CVP_FERR_CNT_at (p : Nat) : Nat := 0x4244 + 0x20 * p
def Reg.CVP_FERR_CNT.COUNT (p : Nat) : Fd := ⟨Reg.CVP_FERR_CNT_at p, 0, 32⟩
def Reg.CVP_FRAMES_at (p : Nat) : Nat := 0x4245 + 0x20 * p
def Reg.CVP_FRAMES.COUNT (p : Nat) : Fd := ⟨Reg.CVP_FRAMES_at p, 0, 32⟩
def Reg.CVP_OFS_at (p : Nat) (i : Nat) : Nat := 0x4248 + 0x20 * p + i
def Reg.CVP_OFS.OFS (p : Nat) (i : Nat) : Fd := ⟨Reg.CVP_OFS_at p i, 0, 32⟩
def Reg.ABT_STATUS_at : Nat := 0x4500
def Reg.ABT_STATUS.REFUSED : Fd := ⟨Reg.ABT_STATUS_at, 0, 1⟩
def Reg.ABT_STATUS.MUTE_0 : Fd := ⟨Reg.ABT_STATUS_at, 1, 1⟩
def Reg.ABT_STATUS.MUTE_1 : Fd := ⟨Reg.ABT_STATUS_at, 2, 1⟩
def Reg.ABT_STATUS.QUIET : Fd := ⟨Reg.ABT_STATUS_at, 3, 1⟩
def Reg.ABT_STATUS.REASON : Fd := ⟨Reg.ABT_STATUS_at, 8, 4⟩
def Reg.ABT_CTL_at : Nat := 0x4501
def Reg.ABT_CTL.LOCK : Fd := ⟨Reg.ABT_CTL_at, 0, 1⟩
def Reg.ABT_CTL.FW_MUTE : Fd := ⟨Reg.ABT_CTL_at, 1, 1⟩
def Reg.ABT_CTL.ZERO_MASK : Fd := ⟨Reg.ABT_CTL_at, 8, 8⟩
def Reg.ABT_OVR_EN_at : Nat := 0x4502
def Reg.ABT_OVR_EN.TO_0 : Fd := ⟨Reg.ABT_OVR_EN_at, 0, 16⟩
def Reg.ABT_OVR_EN.TO_1 : Fd := ⟨Reg.ABT_OVR_EN_at, 16, 16⟩
def Reg.ABT_HOLD_at : Nat := 0x4503
def Reg.ABT_HOLD.MS : Fd := ⟨Reg.ABT_HOLD_at, 0, 14⟩
def Reg.ABT_SRC_LIVE_at : Nat := 0x4504
def Reg.ABT_SRC_LIVE.SRC : Fd := ⟨Reg.ABT_SRC_LIVE_at, 0, 21⟩
def Reg.ABT_SRC_LATCH_at : Nat := 0x4505
def Reg.ABT_SRC_LATCH.SRC : Fd := ⟨Reg.ABT_SRC_LATCH_at, 0, 21⟩
def Reg.ABT_RELEASE_at : Nat := 0x4506
def Reg.ABT_RELEASE.KEY : Fd := ⟨Reg.ABT_RELEASE_at, 0, 16⟩
def Reg.ABT_QUIET_at : Nat := 0x4507
def Reg.ABT_QUIET.MS : Fd := ⟨Reg.ABT_QUIET_at, 0, 16⟩
def Reg.ABT_TRIP_CNT_at : Nat := 0x4508
def Reg.ABT_TRIP_CNT.COUNT : Fd := ⟨Reg.ABT_TRIP_CNT_at, 0, 32⟩
def Reg.ABT_TRIP_US_at : Nat := 0x4509
def Reg.ABT_TRIP_US.US : Fd := ⟨Reg.ABT_TRIP_US_at, 0, 32⟩
def Reg.ABT_EVCFG_at : Nat := 0x450A
def Reg.ABT_EVCFG.REFUSE_EVENT : Fd := ⟨Reg.ABT_EVCFG_at, 0, 6⟩
def Reg.ABT_EVCFG.REFUSE_EN : Fd := ⟨Reg.ABT_EVCFG_at, 6, 1⟩
def Reg.ETH_STATUS_at : Nat := 0x4600
def Reg.ETH_STATUS.REFUSED : Fd := ⟨Reg.ETH_STATUS_at, 0, 1⟩
def Reg.ETH_STATUS.MDIO_BUSY : Fd := ⟨Reg.ETH_STATUS_at, 1, 1⟩
def Reg.ETH_STATUS.REASON : Fd := ⟨Reg.ETH_STATUS_at, 8, 4⟩
def Reg.ETH_CTL_at : Nat := 0x4601
def Reg.ETH_CTL.LOCK : Fd := ⟨Reg.ETH_CTL_at, 0, 1⟩
def Reg.ETH_EVCFG_at : Nat := 0x4602
def Reg.ETH_EVCFG.REFUSE_EVENT : Fd := ⟨Reg.ETH_EVCFG_at, 0, 6⟩
def Reg.ETH_EVCFG.REFUSE_EN : Fd := ⟨Reg.ETH_EVCFG_at, 6, 1⟩
def Reg.ETH_EVCFG.LINK_EVENT : Fd := ⟨Reg.ETH_EVCFG_at, 8, 6⟩
def Reg.ETH_EVCFG.LINK_EN : Fd := ⟨Reg.ETH_EVCFG_at, 14, 1⟩
def Reg.ETH_EVCFG.FRX_EVENT : Fd := ⟨Reg.ETH_EVCFG_at, 16, 6⟩
def Reg.ETH_EVCFG.FRX_EN : Fd := ⟨Reg.ETH_EVCFG_at, 22, 1⟩
def Reg.ETH_EVCFG.STREAM_EVENT : Fd := ⟨Reg.ETH_EVCFG_at, 24, 6⟩
def Reg.ETH_EVCFG.STREAM_EN : Fd := ⟨Reg.ETH_EVCFG_at, 30, 1⟩
def Reg.ETH_MDIO_CMD_at : Nat := 0x4603
def Reg.ETH_MDIO_CMD.REG : Fd := ⟨Reg.ETH_MDIO_CMD_at, 0, 5⟩
def Reg.ETH_MDIO_CMD.PHY : Fd := ⟨Reg.ETH_MDIO_CMD_at, 8, 5⟩
def Reg.ETH_MDIO_CMD.WRITE : Fd := ⟨Reg.ETH_MDIO_CMD_at, 16, 1⟩
def Reg.ETH_MDIO_DATA_at : Nat := 0x4604
def Reg.ETH_MDIO_DATA.DATA : Fd := ⟨Reg.ETH_MDIO_DATA_at, 0, 16⟩
def Reg.ETH_MAC_CFG_at (m : Nat) : Nat := 0x4640 + 0x20 * m
def Reg.ETH_MAC_CFG.EN (m : Nat) : Fd := ⟨Reg.ETH_MAC_CFG_at m, 0, 1⟩
def Reg.ETH_MAC_CFG.SPEED (m : Nat) : Fd := ⟨Reg.ETH_MAC_CFG_at m, 1, 2⟩
def Reg.ETH_MAC_CFG.TXDLY (m : Nat) : Fd := ⟨Reg.ETH_MAC_CFG_at m, 3, 1⟩
def Reg.ETH_MAC_CFG.RXDLY (m : Nat) : Fd := ⟨Reg.ETH_MAC_CFG_at m, 4, 1⟩
def Reg.ETH_MAC_CFG.PHYADDR (m : Nat) : Fd := ⟨Reg.ETH_MAC_CFG_at m, 8, 5⟩
def Reg.ETH_LINK_at (m : Nat) : Nat := 0x4641 + 0x20 * m
def Reg.ETH_LINK.UP (m : Nat) : Fd := ⟨Reg.ETH_LINK_at m, 0, 1⟩
def Reg.ETH_LINK.HALF (m : Nat) : Fd := ⟨Reg.ETH_LINK_at m, 1, 1⟩
def Reg.ETH_LINK.SPEED (m : Nat) : Fd := ⟨Reg.ETH_LINK_at m, 2, 2⟩
def Reg.ETH_LINK.PAUSED (m : Nat) : Fd := ⟨Reg.ETH_LINK_at m, 4, 1⟩
def Reg.ETH_MACADDR_LO_at (m : Nat) : Nat := 0x4642 + 0x20 * m
def Reg.ETH_MACADDR_LO.ADDR (m : Nat) : Fd := ⟨Reg.ETH_MACADDR_LO_at m, 0, 32⟩
def Reg.ETH_MACADDR_HI_at (m : Nat) : Nat := 0x4643 + 0x20 * m
def Reg.ETH_MACADDR_HI.ADDR (m : Nat) : Fd := ⟨Reg.ETH_MACADDR_HI_at m, 0, 16⟩
def Reg.ETH_IPCFG_at (m : Nat) : Nat := 0x4644 + 0x20 * m
def Reg.ETH_IPCFG.MODE (m : Nat) : Fd := ⟨Reg.ETH_IPCFG_at m, 0, 2⟩
def Reg.ETH_IPADDR_at (m : Nat) : Nat := 0x4645 + 0x20 * m
def Reg.ETH_IPADDR.VALUE (m : Nat) : Fd := ⟨Reg.ETH_IPADDR_at m, 0, 32⟩
def Reg.ETH_NETMASK_at (m : Nat) : Nat := 0x4646 + 0x20 * m
def Reg.ETH_NETMASK.VALUE (m : Nat) : Fd := ⟨Reg.ETH_NETMASK_at m, 0, 32⟩
def Reg.ETH_GATEWAY_at (m : Nat) : Nat := 0x4647 + 0x20 * m
def Reg.ETH_GATEWAY.VALUE (m : Nat) : Fd := ⟨Reg.ETH_GATEWAY_at m, 0, 32⟩
def Reg.ETH_VLAN_at (m : Nat) : Nat := 0x4648 + 0x20 * m
def Reg.ETH_VLAN.VID (m : Nat) : Fd := ⟨Reg.ETH_VLAN_at m, 0, 12⟩
def Reg.ETH_VLAN.PCP (m : Nat) : Fd := ⟨Reg.ETH_VLAN_at m, 12, 3⟩
def Reg.ETH_VLAN.VEN (m : Nat) : Fd := ⟨Reg.ETH_VLAN_at m, 16, 1⟩
def Reg.ETH_VLAN.UNTAG_OK (m : Nat) : Fd := ⟨Reg.ETH_VLAN_at m, 17, 1⟩
def Reg.ETH_DHCP_at (m : Nat) : Nat := 0x4649 + 0x20 * m
def Reg.ETH_DHCP.STATE (m : Nat) : Fd := ⟨Reg.ETH_DHCP_at m, 0, 3⟩
def Reg.ETH_DHCP.LEFT (m : Nat) : Fd := ⟨Reg.ETH_DHCP_at m, 8, 24⟩
def Reg.ETH_DROP_SEL_at (m : Nat) : Nat := 0x464A + 0x20 * m
def Reg.ETH_DROP_SEL.CODE (m : Nat) : Fd := ⟨Reg.ETH_DROP_SEL_at m, 0, 5⟩
def Reg.ETH_DROP_CNT_at (m : Nat) : Nat := 0x464B + 0x20 * m
def Reg.ETH_DROP_CNT.COUNT (m : Nat) : Fd := ⟨Reg.ETH_DROP_CNT_at m, 0, 32⟩
def Reg.ETH_RX_FRAMES_at (m : Nat) : Nat := 0x464C + 0x20 * m
def Reg.ETH_RX_FRAMES.COUNT (m : Nat) : Fd := ⟨Reg.ETH_RX_FRAMES_at m, 0, 32⟩
def Reg.ETH_TX_FRAMES_at (m : Nat) : Nat := 0x464D + 0x20 * m
def Reg.ETH_TX_FRAMES.COUNT (m : Nat) : Fd := ⟨Reg.ETH_TX_FRAMES_at m, 0, 32⟩
def Reg.ETH_FW_PORT_at (i : Nat) : Nat := 0x4680 + i
def Reg.ETH_FW_PORT.PORT_A (i : Nat) : Fd := ⟨Reg.ETH_FW_PORT_at i, 0, 16⟩
def Reg.ETH_FW_PORT.PORT_B (i : Nat) : Fd := ⟨Reg.ETH_FW_PORT_at i, 16, 16⟩
def Reg.ETH_FRX_INFO_at (i : Nat) : Nat := 0x4682 + i
def Reg.ETH_FRX_INFO.INFO (i : Nat) : Fd := ⟨Reg.ETH_FRX_INFO_at i, 0, 32⟩
def Reg.ETH_FRX_DATA_at : Nat := 0x4685
def Reg.ETH_FRX_DATA.DATA : Fd := ⟨Reg.ETH_FRX_DATA_at, 0, 32⟩
def Reg.ETH_FRX_POP_at : Nat := 0x4686
def Reg.ETH_FRX_POP.DATA : Fd := ⟨Reg.ETH_FRX_POP_at, 0, 32⟩
def Reg.ETH_FTX_DST_at : Nat := 0x4687
def Reg.ETH_FTX_DST.VALUE : Fd := ⟨Reg.ETH_FTX_DST_at, 0, 32⟩
def Reg.ETH_FTX_PORTS_at : Nat := 0x4688
def Reg.ETH_FTX_PORTS.SRC : Fd := ⟨Reg.ETH_FTX_PORTS_at, 0, 16⟩
def Reg.ETH_FTX_PORTS.DST : Fd := ⟨Reg.ETH_FTX_PORTS_at, 16, 16⟩
def Reg.ETH_FTX_DATA_at : Nat := 0x4689
def Reg.ETH_FTX_DATA.VALUE : Fd := ⟨Reg.ETH_FTX_DATA_at, 0, 32⟩
def Reg.ETH_FTX_SEND_at : Nat := 0x468A
def Reg.ETH_FTX_SEND.LEN : Fd := ⟨Reg.ETH_FTX_SEND_at, 0, 11⟩
def Reg.ETH_FTX_SEND.MAC : Fd := ⟨Reg.ETH_FTX_SEND_at, 16, 1⟩
def Reg.ETH_FTX_STAT_at : Nat := 0x468B
def Reg.ETH_FTX_STAT.WAITING : Fd := ⟨Reg.ETH_FTX_STAT_at, 0, 2⟩
def Reg.ETH_FTX_STAT.SENT : Fd := ⟨Reg.ETH_FTX_STAT_at, 16, 16⟩
def Reg.FSV_STATUS_at : Nat := 0x4700
def Reg.FSV_STATUS.SESSIONS : Fd := ⟨Reg.FSV_STATUS_at, 0, 3⟩
def Reg.FSV_STATUS.UPDATE : Fd := ⟨Reg.FSV_STATUS_at, 3, 1⟩
def Reg.FSV_STATUS.STREAMS : Fd := ⟨Reg.FSV_STATUS_at, 4, 4⟩
def Reg.FSV_SESS_SEL_at : Nat := 0x4701
def Reg.FSV_SESS_SEL.SLOT : Fd := ⟨Reg.FSV_SESS_SEL_at, 0, 2⟩
def Reg.FSV_SESS_INFO_at : Nat := 0x4702
def Reg.FSV_SESS_INFO.VALUE : Fd := ⟨Reg.FSV_SESS_INFO_at, 0, 32⟩
def Reg.FSV_SESS_ADDR_at : Nat := 0x4703
def Reg.FSV_SESS_ADDR.VALUE : Fd := ⟨Reg.FSV_SESS_ADDR_at, 0, 32⟩
def Reg.FSV_REQ_CNT_at : Nat := 0x4704
def Reg.FSV_REQ_CNT.COUNT : Fd := ⟨Reg.FSV_REQ_CNT_at, 0, 32⟩
def Reg.FSV_BUSY_CNT_at : Nat := 0x4705
def Reg.FSV_BUSY_CNT.COUNT : Fd := ⟨Reg.FSV_BUSY_CNT_at, 0, 32⟩
def Reg.FSV_STREAM_CTL_at (n : Nat) : Nat := 0x4710 + 0x4 * n
def Reg.FSV_STREAM_CTL.PUSH (n : Nat) : Fd := ⟨Reg.FSV_STREAM_CTL_at n, 0, 1⟩
def Reg.FSV_STREAM_CTL.MAXAGE_MS (n : Nat) : Fd := ⟨Reg.FSV_STREAM_CTL_at n, 8, 8⟩
def Reg.FSV_STREAM_STAT_at (n : Nat) : Nat := 0x4711 + 0x4 * n
def Reg.FSV_STREAM_STAT.OPEN (n : Nat) : Fd := ⟨Reg.FSV_STREAM_STAT_at n, 0, 1⟩
def Reg.FSV_STREAM_STAT.LEVEL (n : Nat) : Fd := ⟨Reg.FSV_STREAM_STAT_at n, 1, 15⟩
def Reg.FSV_STREAM_STAT.OVF (n : Nat) : Fd := ⟨Reg.FSV_STREAM_STAT_at n, 16, 16⟩
def Reg.FSV_STREAM_DATA_at (n : Nat) : Nat := 0x4712 + 0x4 * n
def Reg.FSV_STREAM_DATA.VALUE (n : Nat) : Fd := ⟨Reg.FSV_STREAM_DATA_at n, 0, 32⟩
def Reg.FSV_STREAM_TAG_at (n : Nat) : Nat := 0x4713 + 0x4 * n
def Reg.FSV_STREAM_TAG.VALUE (n : Nat) : Fd := ⟨Reg.FSV_STREAM_TAG_at n, 0, 32⟩
def Reg.PNL_STATUS_at : Nat := 0x4A00
def Reg.PNL_STATUS.REFUSED : Fd := ⟨Reg.PNL_STATUS_at, 0, 1⟩
def Reg.PNL_STATUS.INIT : Fd := ⟨Reg.PNL_STATUS_at, 1, 1⟩
def Reg.PNL_STATUS.NOREF : Fd := ⟨Reg.PNL_STATUS_at, 2, 1⟩
def Reg.PNL_STATUS.REASON : Fd := ⟨Reg.PNL_STATUS_at, 8, 4⟩
def Reg.PNL_CTL_at : Nat := 0x4A01
def Reg.PNL_CTL.EN : Fd := ⟨Reg.PNL_CTL_at, 0, 1⟩
def Reg.PNL_CTL.LOCK : Fd := ⟨Reg.PNL_CTL_at, 1, 1⟩
def Reg.PNL_CTL.SAVE_REF : Fd := ⟨Reg.PNL_CTL_at, 2, 1⟩
def Reg.PNL_CTL.TRACK : Fd := ⟨Reg.PNL_CTL_at, 4, 4⟩
def Reg.PNL_CTL.REBASE : Fd := ⟨Reg.PNL_CTL_at, 16, 12⟩
def Reg.PNL_THR_at : Nat := 0x4A02
def Reg.PNL_THR.ON : Fd := ⟨Reg.PNL_THR_at, 0, 10⟩
def Reg.PNL_THR.OFF : Fd := ⟨Reg.PNL_THR_at, 10, 10⟩
def Reg.PNL_THR.NEG : Fd := ⟨Reg.PNL_THR_at, 20, 10⟩
def Reg.PNL_STUCK_THRESH_at : Nat := 0x4A03
def Reg.PNL_STUCK_THRESH.THRESH : Fd := ⟨Reg.PNL_STUCK_THRESH_at, 0, 16⟩
def Reg.PNL_STUCK_THRESH.NEAR : Fd := ⟨Reg.PNL_STUCK_THRESH_at, 16, 16⟩
def Reg.PNL_TIME_at : Nat := 0x4A04
def Reg.PNL_TIME.MAXON_S : Fd := ⟨Reg.PNL_TIME_at, 0, 10⟩
def Reg.PNL_TIME.SUSPECT_S : Fd := ⟨Reg.PNL_TIME_at, 16, 10⟩
def Reg.PNL_KEYS_at : Nat := 0x4A05
def Reg.PNL_KEYS.TOUCHED : Fd := ⟨Reg.PNL_KEYS_at, 0, 12⟩
def Reg.PNL_KEYS.SUSPECT : Fd := ⟨Reg.PNL_KEYS_at, 16, 12⟩
def Reg.PNL_STUCK_at : Nat := 0x4A06
def Reg.PNL_STUCK.STUCK : Fd := ⟨Reg.PNL_STUCK_at, 0, 12⟩
def Reg.PNL_STUCK.STUCK_SEEN : Fd := ⟨Reg.PNL_STUCK_at, 16, 12⟩
def Reg.PNL_EVCFG_at : Nat := 0x4A07
def Reg.PNL_EVCFG.KEY_EVENT : Fd := ⟨Reg.PNL_EVCFG_at, 0, 6⟩
def Reg.PNL_EVCFG.KEY_EN : Fd := ⟨Reg.PNL_EVCFG_at, 6, 1⟩
def Reg.PNL_EVCFG.FLAG_EVENT : Fd := ⟨Reg.PNL_EVCFG_at, 8, 6⟩
def Reg.PNL_EVCFG.FLAG_EN : Fd := ⟨Reg.PNL_EVCFG_at, 14, 1⟩
def Reg.PNL_EVCFG.REFUSE_EVENT : Fd := ⟨Reg.PNL_EVCFG_at, 16, 6⟩
def Reg.PNL_EVCFG.REFUSE_EN : Fd := ⟨Reg.PNL_EVCFG_at, 22, 1⟩
def Reg.PNL_COUNT_at (i : Nat) : Nat := 0x4A10 + i
def Reg.PNL_COUNT.COUNT (i : Nat) : Fd := ⟨Reg.PNL_COUNT_at i, 0, 16⟩
def Reg.PNL_COUNT.BASELINE (i : Nat) : Fd := ⟨Reg.PNL_COUNT_at i, 16, 16⟩
def Reg.PNL_REF_at (i : Nat) : Nat := 0x4A20 + i
def Reg.PNL_REF.REF (i : Nat) : Fd := ⟨Reg.PNL_REF_at i, 0, 16⟩
def Reg.GPIO_STATUS_at : Nat := 0x4C00
def Reg.GPIO_STATUS.REFUSED : Fd := ⟨Reg.GPIO_STATUS_at, 0, 1⟩
def Reg.GPIO_STATUS.REASON : Fd := ⟨Reg.GPIO_STATUS_at, 8, 4⟩
def Reg.GPIO_CTL_at : Nat := 0x4C01
def Reg.GPIO_CTL.LOCK : Fd := ⟨Reg.GPIO_CTL_at, 0, 1⟩
def Reg.GPIO_EVCFG_at : Nat := 0x4C02
def Reg.GPIO_EVCFG.EDGE_EVENT : Fd := ⟨Reg.GPIO_EVCFG_at, 0, 6⟩
def Reg.GPIO_EVCFG.EDGE_EN : Fd := ⟨Reg.GPIO_EVCFG_at, 6, 1⟩
def Reg.GPIO_EVCFG.SERIAL_EVENT : Fd := ⟨Reg.GPIO_EVCFG_at, 8, 6⟩
def Reg.GPIO_EVCFG.SERIAL_EN : Fd := ⟨Reg.GPIO_EVCFG_at, 14, 1⟩
def Reg.GPIO_EVCFG.REFUSE_EVENT : Fd := ⟨Reg.GPIO_EVCFG_at, 16, 6⟩
def Reg.GPIO_EVCFG.REFUSE_EN : Fd := ⟨Reg.GPIO_EVCFG_at, 22, 1⟩
def Reg.GPIO_DIR_at (b : Nat) : Nat := 0x4C10 + 0x8 * b
def Reg.GPIO_DIR.PINS (b : Nat) : Fd := ⟨Reg.GPIO_DIR_at b, 0, 32⟩
def Reg.GPIO_OUT_at (b : Nat) : Nat := 0x4C11 + 0x8 * b
def Reg.GPIO_OUT.PINS (b : Nat) : Fd := ⟨Reg.GPIO_OUT_at b, 0, 32⟩
def Reg.GPIO_OSET_at (b : Nat) : Nat := 0x4C12 + 0x8 * b
def Reg.GPIO_OSET.PINS (b : Nat) : Fd := ⟨Reg.GPIO_OSET_at b, 0, 32⟩
def Reg.GPIO_OCLR_at (b : Nat) : Nat := 0x4C13 + 0x8 * b
def Reg.GPIO_OCLR.PINS (b : Nat) : Fd := ⟨Reg.GPIO_OCLR_at b, 0, 32⟩
def Reg.GPIO_IN_at (b : Nat) : Nat := 0x4C14 + 0x8 * b
def Reg.GPIO_IN.PINS (b : Nat) : Fd := ⟨Reg.GPIO_IN_at b, 0, 32⟩
def Reg.GPIO_EDGE_at (b : Nat) : Nat := 0x4C15 + 0x8 * b
def Reg.GPIO_EDGE.PINS (b : Nat) : Fd := ⟨Reg.GPIO_EDGE_at b, 0, 32⟩
def Reg.GPIO_RISE_at (b : Nat) : Nat := 0x4C16 + 0x8 * b
def Reg.GPIO_RISE.PINS (b : Nat) : Fd := ⟨Reg.GPIO_RISE_at b, 0, 32⟩
def Reg.GPIO_FALL_at (b : Nat) : Nat := 0x4C17 + 0x8 * b
def Reg.GPIO_FALL.PINS (b : Nat) : Fd := ⟨Reg.GPIO_FALL_at b, 0, 32⟩
def Reg.GPIO_TRIG_at : Nat := 0x4C20
def Reg.GPIO_TRIG.IN : Fd := ⟨Reg.GPIO_TRIG_at, 0, 1⟩
def Reg.GPIO_TRIG.IN_SEEN : Fd := ⟨Reg.GPIO_TRIG_at, 1, 1⟩
def Reg.GPIO_TRIG.OUT : Fd := ⟨Reg.GPIO_TRIG_at, 8, 1⟩
def Reg.GPIO_TRIG.PULSE : Fd := ⟨Reg.GPIO_TRIG_at, 9, 1⟩
def Reg.GPIO_TRIG.WIDTH : Fd := ⟨Reg.GPIO_TRIG_at, 16, 16⟩
def Reg.PWM_CFG_at (c : Nat) : Nat := 0x4D00 + 0x4 * c
def Reg.PWM_CFG.PRESCALE (c : Nat) : Fd := ⟨Reg.PWM_CFG_at c, 0, 20⟩
def Reg.PWM_CFG.EN (c : Nat) : Fd := ⟨Reg.PWM_CFG_at c, 28, 1⟩
def Reg.PWM_CFG.SAFE (c : Nat) : Fd := ⟨Reg.PWM_CFG_at c, 29, 1⟩
def Reg.PWM_CFG.POL (c : Nat) : Fd := ⟨Reg.PWM_CFG_at c, 30, 1⟩
def Reg.PWM_PERIOD_at (c : Nat) : Nat := 0x4D01 + 0x4 * c
def Reg.PWM_PERIOD.PERIOD (c : Nat) : Fd := ⟨Reg.PWM_PERIOD_at c, 0, 16⟩
def Reg.PWM_DUTY_at (c : Nat) : Nat := 0x4D02 + 0x4 * c
def Reg.PWM_DUTY.DUTY (c : Nat) : Fd := ⟨Reg.PWM_DUTY_at c, 0, 16⟩
def Reg.UART_CFG_at (u : Nat) : Nat := 0x4E00 + 0x8 * u
def Reg.UART_CFG.DIV (u : Nat) : Fd := ⟨Reg.UART_CFG_at u, 0, 16⟩
def Reg.UART_CFG.PARITY (u : Nat) : Fd := ⟨Reg.UART_CFG_at u, 16, 2⟩
def Reg.UART_CFG.STOP2 (u : Nat) : Fd := ⟨Reg.UART_CFG_at u, 18, 1⟩
def Reg.UART_CFG.RS485 (u : Nat) : Fd := ⟨Reg.UART_CFG_at u, 19, 1⟩
def Reg.UART_CFG.DE_TAIL (u : Nat) : Fd := ⟨Reg.UART_CFG_at u, 20, 4⟩
def Reg.UART_CFG.EN (u : Nat) : Fd := ⟨Reg.UART_CFG_at u, 24, 1⟩
def Reg.UART_STAT_at (u : Nat) : Nat := 0x4E01 + 0x8 * u
def Reg.UART_STAT.TXLEVEL (u : Nat) : Fd := ⟨Reg.UART_STAT_at u, 0, 7⟩
def Reg.UART_STAT.RXLEVEL (u : Nat) : Fd := ⟨Reg.UART_STAT_at u, 8, 7⟩
def Reg.UART_STAT.TXBUSY (u : Nat) : Fd := ⟨Reg.UART_STAT_at u, 16, 1⟩
def Reg.UART_STAT.BREAK (u : Nat) : Fd := ⟨Reg.UART_STAT_at u, 17, 1⟩
def Reg.UART_TXD_at (u : Nat) : Nat := 0x4E02 + 0x8 * u
def Reg.UART_TXD.BYTE (u : Nat) : Fd := ⟨Reg.UART_TXD_at u, 0, 8⟩
def Reg.UART_RXD_at (u : Nat) : Nat := 0x4E03 + 0x8 * u
def Reg.UART_RXD.BYTE (u : Nat) : Fd := ⟨Reg.UART_RXD_at u, 0, 8⟩
def Reg.UART_RXD.VALID (u : Nat) : Fd := ⟨Reg.UART_RXD_at u, 8, 1⟩
def Reg.UART_ERR_at (u : Nat) : Nat := 0x4E04 + 0x8 * u
def Reg.UART_ERR.FRAMING (u : Nat) : Fd := ⟨Reg.UART_ERR_at u, 0, 8⟩
def Reg.UART_ERR.PARITY (u : Nat) : Fd := ⟨Reg.UART_ERR_at u, 8, 8⟩
def Reg.UART_ERR.OVERRUN (u : Nat) : Fd := ⟨Reg.UART_ERR_at u, 16, 8⟩
def Reg.I2C_CFG_at (m : Nat) : Nat := 0x4E40 + 0x8 * m
def Reg.I2C_CFG.FAST (m : Nat) : Fd := ⟨Reg.I2C_CFG_at m, 0, 1⟩
def Reg.I2C_CFG.EN (m : Nat) : Fd := ⟨Reg.I2C_CFG_at m, 1, 1⟩
def Reg.I2C_CMD_at (m : Nat) : Nat := 0x4E41 + 0x8 * m
def Reg.I2C_CMD.ADDR (m : Nat) : Fd := ⟨Reg.I2C_CMD_at m, 0, 7⟩
def Reg.I2C_CMD.READ (m : Nat) : Fd := ⟨Reg.I2C_CMD_at m, 7, 1⟩
def Reg.I2C_CMD.LEN (m : Nat) : Fd := ⟨Reg.I2C_CMD_at m, 8, 6⟩
def Reg.I2C_CMD.RSTART (m : Nat) : Fd := ⟨Reg.I2C_CMD_at m, 16, 1⟩
def Reg.I2C_DATA_at (m : Nat) : Nat := 0x4E42 + 0x8 * m
def Reg.I2C_DATA.BYTE (m : Nat) : Fd := ⟨Reg.I2C_DATA_at m, 0, 8⟩
def Reg.I2C_STAT_at (m : Nat) : Nat := 0x4E43 + 0x8 * m
def Reg.I2C_STAT.BUSY (m : Nat) : Fd := ⟨Reg.I2C_STAT_at m, 0, 1⟩
def Reg.I2C_STAT.RESULT (m : Nat) : Fd := ⟨Reg.I2C_STAT_at m, 1, 3⟩
def Reg.I2C_STAT.TXLEVEL (m : Nat) : Fd := ⟨Reg.I2C_STAT_at m, 8, 6⟩
def Reg.I2C_STAT.RXLEVEL (m : Nat) : Fd := ⟨Reg.I2C_STAT_at m, 16, 6⟩
def Reg.SPI_CFG_at (s : Nat) : Nat := 0x4E60 + 0x8 * s
def Reg.SPI_CFG.DIV (s : Nat) : Fd := ⟨Reg.SPI_CFG_at s, 0, 8⟩
def Reg.SPI_CFG.MODE (s : Nat) : Fd := ⟨Reg.SPI_CFG_at s, 8, 1⟩
def Reg.SPI_CFG.EN (s : Nat) : Fd := ⟨Reg.SPI_CFG_at s, 9, 1⟩
def Reg.SPI_CMD_at (s : Nat) : Nat := 0x4E61 + 0x8 * s
def Reg.SPI_CMD.LEN (s : Nat) : Fd := ⟨Reg.SPI_CMD_at s, 0, 7⟩
def Reg.SPI_CMD.CS (s : Nat) : Fd := ⟨Reg.SPI_CMD_at s, 8, 2⟩
def Reg.SPI_CMD.HOLD (s : Nat) : Fd := ⟨Reg.SPI_CMD_at s, 10, 1⟩
def Reg.SPI_DATA_at (s : Nat) : Nat := 0x4E62 + 0x8 * s
def Reg.SPI_DATA.BYTE (s : Nat) : Fd := ⟨Reg.SPI_DATA_at s, 0, 8⟩
def Reg.SPI_STAT_at (s : Nat) : Nat := 0x4E63 + 0x8 * s
def Reg.SPI_STAT.BUSY (s : Nat) : Fd := ⟨Reg.SPI_STAT_at s, 0, 1⟩
def Reg.SPI_STAT.CS_HELD (s : Nat) : Fd := ⟨Reg.SPI_STAT_at s, 1, 1⟩
def Reg.SPI_STAT.TXLEVEL (s : Nat) : Fd := ⟨Reg.SPI_STAT_at s, 8, 7⟩
def Reg.SPI_STAT.RXLEVEL (s : Nat) : Fd := ⟨Reg.SPI_STAT_at s, 16, 7⟩
def Reg.EMC_EDGE_at : Nat := 0x4F00
def Reg.EMC_EDGE.EDGE_0 : Fd := ⟨Reg.EMC_EDGE_at, 0, 2⟩
def Reg.EMC_EDGE.EDGE_1 : Fd := ⟨Reg.EMC_EDGE_at, 2, 2⟩
def Reg.EMC_EDGE.EDGE_2 : Fd := ⟨Reg.EMC_EDGE_at, 4, 2⟩
def Reg.EMC_EDGE.EDGE_3 : Fd := ⟨Reg.EMC_EDGE_at, 6, 2⟩
def Reg.EMC_EDGE.EDGE_4 : Fd := ⟨Reg.EMC_EDGE_at, 8, 2⟩
def Reg.EMC_EDGE.EDGE_5 : Fd := ⟨Reg.EMC_EDGE_at, 10, 2⟩
def Reg.EMC_EDGE.EDGE_6 : Fd := ⟨Reg.EMC_EDGE_at, 12, 2⟩
def Reg.EMC_FILT_at : Nat := 0x4F01
def Reg.EMC_FILT.FILT_0 : Fd := ⟨Reg.EMC_FILT_at, 0, 3⟩
def Reg.EMC_FILT.FILT_1 : Fd := ⟨Reg.EMC_FILT_at, 3, 3⟩
def Reg.EMC_FILT.FILT_2 : Fd := ⟨Reg.EMC_FILT_at, 6, 3⟩
def Reg.EMC_FILT.FILT_3 : Fd := ⟨Reg.EMC_FILT_at, 9, 3⟩
def Reg.EMC_FILT.FILT_4 : Fd := ⟨Reg.EMC_FILT_at, 12, 3⟩

end Sys2Proof.Machine
end

