-- ==== Sys2Proof/Machine/IoMap.lean ====
section
/-!
DEFINITION. IO-space by block (R533, R534): the register an address holds, its island (R228, Table via-5), the reset
kind that loads it (R10), and the ranges absent on a grade (R535).
-/

namespace Sys2Proof.Machine

/-- The row of a block's table that covers an offset. -/
def look (rows : List RRow) (off : Nat) : Option RRow :=
  rows.find? (fun r => r.off ≤ off && off < r.off + r.cnt)

/-- The register row at an IO address, none where the address is reserved or unassigned (R533). -/
def regRow (a : Nat) : Option RRow :=
  if a < 0x100 then look pierRows a
  else if a < 0x1100 then look pierRows ((a - 0x100) % 0x100)
  else if a < 0x1500 then look spanRows ((a - 0x1100) % 0x100)
  else if a < 0x1600 then look dispRows (a - 0x1500)
  else if a < 0x1800 then look ldrRows (a - 0x1600)
  else if a < 0x2000 then look deckRows ((a - 0x1800) % 0x200)
  else if a < 0x2100 then look dmaRows (a - 0x2000)
  else if a < 0x2200 then look dmaChRows ((a - 0x2100) % 0x10)
  else if a < 0x2800 then none
  else if a < 0x3000 then look viaRows (a - 0x2800)
  else if a < 0x3300 then look gaugeRows ((a - 0x3000) % 0x20)
  else if a < 0x3400 then none
  else if a < 0x3600 then look clkRows (a - 0x3400)
  else if a < 0x3800 then look flashRows (a - 0x3600)
  else if a < 0x3900 then look recRows (a - 0x3800)
  else if a < 0x3B00 then look recChRows ((a - 0x3900) % 8)
  else if a < 0x3D00 then look snapRows ((a - 0x3B00) % 0x40)
  else if a < 0x4000 then none
  else if a < 0x4100 then look aonRows (a - 0x4000)
  else if a < 0x4200 then look bootRows (a - 0x4100)
  else if a < 0x4240 then look cvpRows (a - 0x4200)
  else if a < 0x4340 then look cvpPortRows ((a - 0x4240) % 0x20)
  else if a < 0x4500 then none
  else if a < 0x4600 then look abtRows (a - 0x4500)
  else if a < 0x4640 then look ethRows (a - 0x4600)
  else if a < 0x4680 then look macRows ((a - 0x4640) % 0x20)
  else if a < 0x4710 then look ethRows (a - 0x4600)
  else if a < 0x4720 then look streamRows ((a - 0x4710) % 4)
  else if a < 0x4A00 then none
  else if a < 0x4C00 then look pnlRows (a - 0x4A00)
  else if a < 0x4C10 then look gioRows (a - 0x4C00)
  else if a < 0x4C18 then look gpioBankRows ((a - 0x4C10) % 8)
  else if a < 0x4C20 then look gpioBank1Rows ((a - 0x4C10) % 8)
  else if a < 0x4D00 then look gioRows (a - 0x4C00)
  else if a < 0x4D40 then look pwmRows ((a - 0x4D00) % 4)
  else if a < 0x4E00 then none
  else if a < 0x4E20 then look uartRows ((a - 0x4E00) % 8)
  else if a < 0x4E40 then none
  else if a < 0x4E50 then look i2cRows ((a - 0x4E40) % 8)
  else if a < 0x4E60 then none
  else if a < 0x4E70 then look spiRows ((a - 0x4E60) % 8)
  else if a < 0x4F00 then none
  else if a < 0x5000 then look gioRows (a - 0x4C00)
  else none

/-- The fields of the register at `a`; none at a reserved address, where every field is reserved (R536 step 6). -/
def fieldsAt (a : Nat) : List FSpec := match regRow a with | some r => r.fields | none => []

/-- Reset values that differ from one instance of a register to the next: PIER_ID and SPAN_ID INDEX,
ETH_MAC_CFG_1 PHYADDR. -/
def regIndexReset (a : Nat) : Nat :=
  if 0x100 ≤ a && a < 0x1100 && a % 0x100 == 0 then a / 0x100 - 1
  else if 0x1100 ≤ a && a < 0x1500 && a % 0x100 == 0 then a / 0x100 - 0x11
  else if a == 0x4660 then 0x100
  else 0

/-- The word a register holds after the reset that loads it. -/
def regReset (a : Nat) : Word :=
  BitVec.ofNat 32 (regIndexReset a + ((fieldsAt a).map (fun f => f.rst * 2 ^ f.lo)).sum)

/-- Island numbers 0 to 29 (spec/11, R287): P0 to P15, Q0 to Q3, then these. -/
def islRing : Nat := 20
/-- DISP. -/
def islDisp : Nat := 21
/-- LDR. -/
def islLdr : Nat := 22
/-- FLASH. -/
def islFlash : Nat := 23
/-- AON. -/
def islAon : Nat := 24
/-- CONV. -/
def islConv : Nat := 25
/-- ETH. -/
def islEth : Nat := 26
/-- PANEL. -/
def islPanel : Nat := 27
/-- GIO. -/
def islGio : Nat := 28
/-- BOOT. -/
def islBoot : Nat := 29

/-- The island of a global IO address 0x0100 to 0x4FFF (Table via-5); none above, where nothing is assigned. -/
def islandOf (a : Nat) : Option Nat :=
  if a < 0x100 then none
  else if a < 0x1100 then some ((a - 0x100) / 0x100)
  else if a < 0x1500 then some (16 + (a - 0x1100) / 0x100)
  else if a < 0x1600 then some islDisp
  else if a < 0x1800 then some islLdr
  else if a < 0x2000 then some (16 + (a - 0x1800) / 0x200)
  else if a < 0x2800 then some islDisp
  else if a < 0x3000 then some islRing
  else if a < 0x3200 then some (16 + (a - 0x3000) / 0x80)
  else if a < 0x3400 then some islRing
  else if a < 0x3600 then some islAon
  else if a < 0x3800 then some islFlash
  else if a < 0x4100 then some islAon
  else if a < 0x4200 then some islBoot
  else if a < 0x4500 then some islConv
  else if a < 0x4600 then some islAon
  else if a < 0x4A00 then some islEth
  else if a < 0x4C00 then some islPanel
  else if a < 0x5000 then some islGio
  else none

/-- The Trestle stop of an island (Table arch-3). -/
def stopOf (isl : Nat) : Nat :=
  if isl < 20 then isl
  else if isl = islDisp || isl = islLdr then 20
  else if isl = islFlash || isl = islBoot then 21
  else if isl = islAon || isl = islRing then 22
  else 23

/-- Piers present on a grade (Table scope-1). -/
def Grade.piers : Grade → Nat
  | .sx16 => 16 | .sx8 => 8 | .sx4 => 4

/-- Quarters and Spans present on a grade. -/
def Grade.quarters : Grade → Nat
  | .sx16 => 4 | .sx8 => 2 | .sx4 => 1

/-- Lattice routers of a grade. -/
def Grade.routers (g : Grade) : Nat := g.piers

/-- Bytes of the Deck (Table deck-1). -/
def Grade.deckBytes (g : Grade) : Nat := g.quarters * 0x800000

/-- An island present on the grade (R27). -/
def Grade.hasIsland (g : Grade) (isl : Nat) : Bool :=
  if isl < 16 then isl < g.piers else if isl < 20 then isl - 16 < g.quarters else isl < 30

/-- The reset kinds of Table scope-8. -/
inductive RstKind where
  | isl | sys | por | vbat
  deriving DecidableEq, Repr

/-- The narrowest reset that loads the register at a global address. -/
def regKind (a : Nat) : RstKind :=
  if 0x4028 ≤ a && a ≤ 0x402A then .vbat
  else if 0x4105 ≤ a && a ≤ 0x4109 then .vbat
  else if a = 0x4104 then .por
  else if 0x3440 ≤ a && a ≤ 0x345D then .sys
  else if 0x3400 ≤ a && a < 0x3600 then .por
  else if 0x3800 ≤ a && a < 0x4100 then .por
  else if 0x4500 ≤ a && a < 0x4600 then .por
  else match islandOf a with
    | none => .sys
    | some i => if i < 20 || i = islFlash || i = islConv || i = islPanel || i = islGio then .isl else .sys

end Sys2Proof.Machine
end

