-- ==== Sys2Proof/Machine/SMap.lean ====
section
/-!
DEFINITION. Sparse maps by address: a list of (key, value) pairs in ONE canonical form: keys strictly rising, and no
entry equal to what an unlisted key reads as. Register files, memories and tables of the device are held so, so that
equal contents are equal data.
-/

namespace Sys2Proof.Machine

/-- A sparse map from Nat keys. -/
abbrev SMap (α : Type) := List (Nat × α)

/-- The value at key `k`; an unlisted key reads as `d`. -/
def SMap.get {α : Type} (m : SMap α) (d : α) (k : Nat) : α :=
  match m with
  | [] => d
  | (k', v) :: t => if k' = k then v else SMap.get t d k

/-- Every entry of key `k` removed. -/
def SMap.erase {α : Type} (m : SMap α) (k : Nat) : SMap α := m.filter (fun e => e.1 != k)

/-- An entry put in its place by key. -/
def SMap.insert {α : Type} (m : SMap α) (k : Nat) (v : α) : SMap α :=
  match m with
  | [] => [(k, v)]
  | (k', v') :: t => if k < k' then (k, v) :: (k', v') :: t else (k', v') :: SMap.insert t k v

/-- The value of key `k` replaced; the value an unlisted key reads as removes the entry. -/
def SMap.set {α : Type} [DecidableEq α] (m : SMap α) (d : α) (k : Nat) (v : α) : SMap α :=
  if v = d then SMap.erase m k else SMap.insert (SMap.erase m k) k v

/-- Keys strictly rising from above `lo`. -/
def SMap.rising {α : Type} (m : SMap α) (lo : Option Nat) : Bool :=
  match m with
  | [] => true
  | (k, _) :: t => (match lo with | none => true | some l => decide (l < k)) && SMap.rising t (some k)

/-- No entry equal to what its key reads as when unlisted. -/
def SMap.tight {α : Type} [DecidableEq α] (m : SMap α) (d : Nat → α) : Bool := m.all (fun e => e.2 != d e.1)

/-- The canonical form. -/
def SMap.wf {α : Type} [DecidableEq α] (m : SMap α) (d : Nat → α) : Bool := SMap.rising m none && SMap.tight m d

/-- Every entry of a key outside `p` kept: what a reset of the keys `p` leaves. -/
def SMap.drop {α : Type} (m : SMap α) (p : Nat → Bool) : SMap α := m.filter (fun e => !p e.1)

end Sys2Proof.Machine
end

