-- ==== Sys2Proof/Machine/State.lean ====
section
/-!
DEFINITION. The state of the device as plain data, its faults and refusals, and the state right after a power-on
reset. Registers of IO-space have ONE home, `io`; what a block holds beside its registers stands in a structure of
that block.

Choices and readings of this file: log 2, 3, 4, 5, 50, 73, 93.
-/

namespace Sys2Proof.Machine

/-- Reasons to stop with a fault. No command of the table stops the device: each has an effect in the spec. -/
inductive Fault where
  /-- Raised by nothing: kept so that the type names the one way a later repair could stop. Safe. -/
  | unreachable
  deriving DecidableEq, Repr

/-- Reasons to refuse. -/
inductive Refusal where
  /-- A row without its meaning yet, named by its mnemonic. Safe: nothing is claimed of it. -/
  | notModelled (mnemonic : String)
  deriving DecidableEq, Repr

/-! ## Pier threads (spec/02, spec/03, spec/05) -/

/-- Whether a thread runs (R64, Table pier-7); READY and BLOCKED are told apart by what it has outstanding. -/
inductive RunState where
  | stopped | running | waiting
  deriving DecidableEq, Repr

/-- A repeat in progress (R86 to R90). -/
structure Repeat where
  /-- RPTI, which may be interrupted between iterations (R89). -/
  interruptible : Bool
  /-- Address of the prefix. -/
  prefixPc : Word
  deriving DecidableEq, Repr

/-- What an R45 access does with its response. -/
inductive AccKind where
  | loadG (rd : RegIx) (bytes : Nat) (signed : Bool)
  | loadF (rd : RegIx) (bytes : Nat)
  | loadW (wd : WIx)
  | iload (rd rs : RegIx)
  | store
  | ioIn (rd : RegIx)
  | ioOut
  deriving DecidableEq, Repr

/-- An access of R45 that leaves its thread ineligible: what to do on the response, the post-increment of R76, and the
EINFO an error response gives (Table trap-2). -/
structure Access where
  kind : AccKind
  post : Option (RegIx × Word)
  einfo : Word
  deriving DecidableEq, Repr

/-- A validated interpolation table descriptor in a thread's latch (R93) or a Span's XLU. -/
structure TblDesc where
  addr : Nat
  n : Nat
  extrap : Nat
  xmode : Bool
  ytype : Bool
  x0 : Word
  dx : Word
  xaddr : Word
  yaddr : Word
  deriving DecidableEq, Repr

/-- A deferred Deck store error (R47): D-space address and response. -/
structure DefErr where
  addr : Word
  err : RespErr
  deriving DecidableEq, Repr

/-- The registers and status of one thread (R63, Table pier-6). -/
structure Thread where
  g : SMap Word
  f : SMap DWord
  w : SMap WVec
  pl : Word
  ph : Word
  /-- A product of the last multiply, visible after the next instruction (R51). -/
  pendL : Option Word
  pendH : Option Word
  pc : Word
  tstat : Word
  cause : Word
  epc : Word
  einfo : Word
  ksp : Word
  usp : Word
  rptc : Word
  fstat : Word
  fctl : Word
  run : RunState
  /-- A stop was requested or caused: RUN reads 0 (R64). -/
  stopReq : Bool
  /-- Destination of the WAIT being executed (R67). -/
  waitRd : RegIx
  rep : Option Repeat
  /-- The next instruction was reached by GRET (R90). -/
  viaGret : Bool
  acc : Option Access
  /-- Posted Deck stores without acknowledgement (R46). -/
  stores : Nat
  defErrs : List DefErr
  latch : Option TblDesc
  /-- SINGLE_STEP due, with the address of the stepped instruction (R148). -/
  stepDue : Option Word
  /-- Address of the earliest instruction whose flags set TPEND since the last delivery (R117). -/
  fpAddr : Word
  /-- Instructions of the thread issued since then; delivery comes after three at the latest (R116). -/
  fpAge : Nat
  /-- EINFO of the pending system causes of R133 and of SPAN_FAULT (R135). -/
  infoAbt : Word
  infoThm : Word
  infoDebt : Word
  /-- SUB of the pending LDR_DEBT: 1 debt, 2 overrun. -/
  debtSub : Nat
  infoSpan : Word
  deriving DecidableEq, Repr

/-- Thread number t's registers after any reset (R539); G, F and W read as 0 until written (DESIGN CHOICE, log 3). -/
def Thread.reset (t : Nat) : Thread :=
  { g := [], f := [], w := [], pl := 0, ph := 0, pendL := none, pendH := none, pc := 0,
    tstat := BitVec.ofNat 32 (1 + 256 * (t % 8)), cause := 0, epc := 0, einfo := 0, ksp := 0, usp := 0, rptc := 0,
    fstat := 0, fctl := 0, run := .stopped, stopReq := false, waitRd := 0, rep := none, viaGret := false, acc := none,
    stores := 0, defErrs := [], latch := none, stepDue := none, fpAddr := 0, fpAge := 0, infoAbt := 0, infoThm := 0, infoDebt := 0,
    debtSub := 0, infoSpan := 0 }

/-! ## The Viaduct (spec/09) -/

/-- Who waits for a response. -/
inductive Who where
  /-- An R45 access of a thread. -/
  | access (th : Thr)
  /-- A posted Deck store of a thread, with its D-space address. -/
  | store (th : Thr) (daddr : Word)
  /-- A descriptor fetch of a DMA channel, in its run `ep`. -/
  | dmaDesc (c : Fin 16) (ep : Nat)
  /-- A read of a DMA channel: byte offset within the descriptor's bytes, and how many. -/
  | dmaRead (c : Fin 16) (ep off bytes : Nat)
  /-- A write of a DMA channel. -/
  | dmaWrite (c : Fin 16) (ep off bytes : Nat)
  /-- A sampled read (R357) of channel n < 64, or of a snapshot as 64 + 32 × set + index. -/
  | sample (n : Nat)
  /-- A Span, the Dispatcher, a TLI instruction, the Fobex engine, the sequencer or the debug unit, which makes its access within one command. -/
  | engine
  deriving DecidableEq, Repr

/-- What a request asks for. -/
inductive NetOp where
  /-- Bytes from a Deck offset, for a pier or DMA. -/
  | deckRd (off bytes : Nat)
  | deckWr (off bytes data : Nat)
  /-- Mailbox port B of a pier. -/
  | mboxRd (p off bytes : Nat)
  | mboxWr (p off bytes data : Nat)
  /-- Scratchpad of a pier, DMA only. -/
  | spadRd (p off bytes : Nat)
  | spadWr (p off bytes data : Nat)
  | ioRd (addr : Nat)
  | ioWr (addr : Nat) (v : Word)
  /-- DMA to a converter port or a flash page buffer over the Trestle. -/
  | portRd (addr bytes : Nat) (flc : Bool)
  | portWr (addr bytes data : Nat) (flc : Bool)
  deriving DecidableEq, Repr

/-- A response on its way. -/
inductive Resp where
  | data (v : Nat)
  | ack (refuse : Nat)
  | err (e : RespErr)
  /-- A page buffer held by the flash controller (R217); DMA only. -/
  | busy
  deriving DecidableEq, Repr

/-- Where a request is: before its destination; accepted there by the core, the n-th of all to arrive; or turned away by the destination's
shell, which was not ONLINE when it arrived (R250). -/
inductive Arr where
  | away
  | core (n : Nat)
  | shell
  deriving DecidableEq, Repr

/-- A request from its formation until its tag is free (R246 to R249). -/
structure Req where
  id : Nat
  who : Who
  op : NetOp
  /-- Source NI (Table via-1), endpoint or stop, and virtual channel; the content of the route entry: what R236 orders by. -/
  ni : Nat
  entry : Nat
  vc : Nat
  route : Word
  /-- TAG of its packets. -/
  tag : Nat
  /-- It was sent: its own shell did not answer it (R228, R237). -/
  sent : Bool
  /-- Source island and its generation when sent. -/
  isl : Nat
  gen : Nat
  resp : Option Resp
  /-- It waits in the core's output while the shell is not ONLINE (R250). -/
  held : Bool
  /-- Its tag is STALE: the requester has been answered (R248, R251). -/
  stale : Bool
  /-- Its response was discarded for want of a route (R237), or it or its response as malformed (R244). -/
  lost : Bool
  /-- How far it has come. -/
  place : Arr
  /-- Its response has reached its own shell. -/
  back : Bool
  deriving DecidableEq, Repr

/-- A flit: the packet it is of, and its place in it. -/
structure Flit where
  id : Nat
  resp : Bool
  ix : Nat
  deriving DecidableEq, Repr

/-- A packet in the network: request `id` or its response, its VC and number of flits; its path, each link with the dateline class in which
it takes it (R227, R233); how many of its flits its source has sent. -/
structure Pkt where
  id : Nat
  resp : Bool
  vc : Nat
  len : Nat
  path : List (Nat × Nat)
  out : Nat
  deriving DecidableEq, Repr

/-- The links of both networks: packets that have not arrived, in the order of their sending; by receiver buffer its flits, the oldest
first, and the sender's credits; the packet that holds a VC and class of a link; the VC and the input port granted last (R227, R232, R235). -/
structure Fab where
  pkts : List Pkt
  bufs : SMap (List Flit)
  cred : SMap Nat
  hold : SMap (Option (Nat × Bool))
  lastVc : SMap Nat
  lastIn : SMap Nat
  deriving DecidableEq, Repr

/-- No packet in flight: every credit with its sender. -/
def Fab.empty : Fab := ⟨[], [], [], [], [], []⟩

/-- NI shell states (Table via-12). -/
inductive NiState where
  | online | quiesce | offline | absent
  deriving DecidableEq, Repr

/-- Actions of IOPLL_ISL_CMD (Table clk-5). -/
inductive IslAction where
  | reset | gate | off | restart
  deriving DecidableEq, Repr

/-- The shells of an island (R223, R249, R252): their state, in QUIESCE the NIs whose shell is already OFFLINE, the generation, credits in
escrow by NI, and the island action in progress. -/
structure Shell where
  st : NiState
  off : List Nat
  gen : Nat
  escrow : SMap Word
  action : Option IslAction
  deriving DecidableEq, Repr

/-- A shell after reset: ONLINE. -/
def Shell.reset : Shell := ⟨.online, [], 0, [], none⟩

/-- The networks: requests, broadcasts and deliveries in flight, route tables, shells. -/
structure Net where
  nextId : Nat
  reqs : List Req
  /-- Packets and links; requests that have arrived so far. -/
  fab : Fab
  arrived : Nat
  /-- Broadcast events in flight (R229). -/
  events : List (Fin 64)
  /-- System causes in flight: cause, EINFO, SUB (R133). -/
  causes : List (SysCause × Word × Nat)
  /-- SPAN_FAULT deliveries in flight: thread, EINFO (R135). -/
  spanFaults : List (Thr × Word)
  /-- Route entries that differ from the boot route set, by 64 × NI + entry (R238, R242). -/
  routes : SMap Word
  /-- Shells by island number. -/
  shells : SMap Shell
  deriving DecidableEq, Repr

/-- The networks after POR: every shell ONLINE but that of CONV, whose island stays GATED (R274). -/
def Net.reset : Net := ⟨0, [], Fab.empty, 0, [], [], [], [], [(islConv, ⟨.offline, [], 0, [], none⟩)]⟩

/-! ## The Dispatcher and the Spans (spec/06, spec/07) -/

/-- Slot states (Table job-10). -/
inductive SlotState where
  | free | waiting | ready | running
  deriving DecidableEq, Repr

/-- One of the 256 slots: the descriptor as read (Table job-8), the submitting thread, the slots it still waits on, and what the
ledger keeps of the job (R306, R309). -/
structure Slot where
  st : SlotState
  /-- Acceptance order (R193). -/
  seq : Nat
  desc : List Word
  thr : Thr
  span : Nat
  deps : List Nat
  /-- A job it waited on ended in a state other than DONE (R196). -/
  depBad : Bool
  /-- Reservation r and scaled cost e. -/
  res : Nat
  cost : Nat
  bypass : Nat
  deriving DecidableEq, Repr

/-- A FREE slot. -/
def Slot.none : Slot := ⟨.free, 0, [], ⟨0, 0⟩, 0, [], false, 0, 0, 0⟩

/-- A returned load: its lane value or the fault code of its error response, whether its bytes were in a store range when the bank was read
(R168), and whether its check completed clear (R166). -/
structure SGot where
  v : Nat
  err : Nat
  hit : Bool
  clear : Bool
  deriving DecidableEq, Repr

/-- A store issued and not acknowledged (R163): group, element index, Deck offset, bytes, value. -/
structure SStore where
  first : Nat
  k : Nat
  off : Nat
  size : Nat
  v : Nat
  deriving DecidableEq, Repr

/-- A segment of a reduction in progress (R189). -/
structure SRed where
  total : Option Nat
  /-- Elements of the current block, the last first; none for an inactive one. -/
  blk : List (Option Nat)
  /-- Offset of the best element so far. -/
  best : Nat
  deriving DecidableEq, Repr

/-- A chain group from its start until every store is acknowledged (R160 to R173). -/
structure SGroup where
  /-- Index of its first instruction. -/
  first : Nat
  ins : List DWord
  n : Nat
  /-- The next element to enter the pipes, the instruction it is at, and the results of the ones before. -/
  nxt : Nat
  pos : Nat
  chain : List Nat
  /-- Returned loads by 4 × element + stream. -/
  got : SMap SGot
  /-- A squash at this element: what it must wait for, offset and bytes (R169). -/
  replay : Option (Nat × Nat × Nat)
  /-- The elements at which replays began, where a beat begins anew (R169). -/
  cuts : List Nat
  red : SRed
  /-- Results of a reduction computed. -/
  results : Nat
  /-- A fault of the group: its code, and the stored element of a store error (R174). -/
  fault : Option (Nat × Option Nat)
  /-- It failed its group-start checks: it never began. -/
  unstarted : Bool
  deriving DecidableEq, Repr

/-- A table in the XLU's RAM (R190). -/
structure XTable where
  desc : TblDesc
  xs : List Nat
  ys : List Nat
  deriving DecidableEq, Repr

/-- The job of a Span from admission to its status word (R197 to R201). -/
structure SJob where
  slot : Nat
  desc : List Word
  /-- The descriptor table as read at the start (R153), 256 words. -/
  sdt : List Word
  runahead : Bool
  /-- Instruction index of the next group. -/
  next : Nat
  /-- Groups started and not completed, oldest first. -/
  groups : List SGroup
  stores : List SStore
  /-- The last group started contains a scatter (R171). -/
  scatter : Bool
  xlu : Option XTable
  flags : Nat
  indexRange : Bool
  /-- Element count of the last completed group that stored, and whether there was one. -/
  commit : Nat
  cvalid : Bool
  aborting : Bool
  /-- The job has ended: STATE, FAULT, INSTR, COMMIT, CVALID; its status word is due (R199). -/
  ended : Option (Nat × Nat × Nat × Nat × Bool)
  deriving DecidableEq, Repr

/-! ## The Deck and the DMA (spec/08) -/

/-- A DMA descriptor (Table deck-4). -/
structure DmaDesc where
  src : Nat
  dst : Nat
  len : Nat
  ctrl : Nat
  next : Nat
  deriving DecidableEq, Repr

/-- The fetch of the next descriptor: none wanted, awaited, or held with the result of its checks (R217, R219). -/
inductive DmaFetch where
  | none
  | waiting
  | good (d : DmaDesc)
  | bad (err : Nat)
  deriving DecidableEq, Repr

/-- A DMA channel beside its registers (R214 to R221). -/
structure DmaCh where
  /-- The descriptor being moved; none while the first or next one is awaited. -/
  cur : Option DmaDesc
  /-- The offset fetched last, and what became of it. -/
  fetchAddr : Nat
  fetch : DmaFetch
  /-- Bytes whose read, and whose write, has been issued. -/
  rd : Nat
  wr : Nat
  /-- Returned words not yet written, by word index. -/
  got : SMap Nat
  /-- The lowest byte whose write failed. -/
  failed : Option Nat
  /-- The first transfer error, 0 for none. -/
  err : Nat
  /-- Which run of the channel: responses of an earlier one are dropped. -/
  epoch : Nat
  deriving DecidableEq, Repr

/-- A channel that does nothing. -/
def DmaCh.idle (epoch : Nat) : DmaCh := ⟨Option.none, 0, .none, 0, 0, [], Option.none, 0, epoch⟩

/-- An initialisation of a quarter in progress (R212): what its banks held before, for the rows a reset leaves unwritten. -/
structure DeckInit where
  fills : List (Nat × Nat × Word)
  deck : List Host.Cell
  ecc : SMap Nat
  deriving DecidableEq, Repr

/-! ## Gauges (spec/10) -/

/-- A trace record waiting for its Deck bank: its offset, its words, and the run it belongs to (R264). -/
structure GauHeld where
  addr : Nat
  words : List Word
  run : Nat
  deriving DecidableEq, Repr

/-- A gauge beside its registers. -/
structure Gau where
  /-- The local buffer by 4 × record + word (R262). -/
  buf : SMap Word
  held : List GauHeld
  run : Nat
  /-- The trigger condition is met and has not yet fired (R265). -/
  due : Bool
  /-- The record of the packet observed last: its place in the local buffer, 0 for one held for a Deck ring; none where it has none. -/
  last : Option Nat
  /-- The record of the packet that waits is to be marked (SRC 7). -/
  mark : Bool
  /-- Records left after the trigger (STOP_ON_TRIG). -/
  post : Option Nat
  deriving DecidableEq, Repr

/-- A gauge after reset. -/
def Gau.reset : Gau := ⟨[], [], 0, false, none, false, none⟩


/-! ## Clocks (spec/11) -/

/-- A band-memo entry (R278); TAG in whole °C. -/
structure Memo where
  valid : Bool
  n : Nat
  band : Nat
  tag : Int
  deriving DecidableEq, Repr

/-- What the SPLL does: nothing; waits for REFCLK and the IOPLL at the start (R294); verifies a memo hit, windows good so far; takes
band-search steps done and the lowest band left; attempts lock, whether at the adjacent band, windows ended and whether all were
good (R277, R281). -/
inductive SpllPhase where
  | idle
  | waiting
  | verify (ok : Nat)
  | search (steps lo : Nat)
  | attempt (second : Bool) (ended : Nat) (good : Bool)
  deriving DecidableEq, Repr

/-- Why the SPLL searches. -/
inductive SpllWhy where
  | start | hop | relock
  deriving DecidableEq, Repr

/-- What the Keystone sequencer does at the SPLL after a SYS reset (R395): nothing; waits for what is in progress; waits for 710 mV;
hops to OP1, writing 720 mV afterwards or not. -/
inductive KeyStep where
  | none
  | waits
  | volt
  | hop (thenVolt : Bool)
  deriving DecidableEq, Repr

/-- The PLLs beside their registers. -/
structure Spll where
  /-- The eight entries of the memo, and their numbers from the most recently used on. -/
  memo : List Memo
  order : List Nat
  phase : SpllPhase
  why : SpllWhy
  target : OpIx
  queue : Option OpIx
  /-- REFCLK cycles since the hop started (R282). -/
  cycles : Nat
  /-- Consecutive good windows: REFCLK monitor, IOPLL, CPLL. -/
  refGood : Nat
  ioGood : Nat
  cpGood : Nat
  /-- W and TOL of the window in progress of the IOPLL, the CPLL and the SPLL, as they were when it began (R271). -/
  ioWin : Nat × Nat
  cpWin : Nat × Nat
  spWin : Nat × Nat
  /-- The IOPLL lost lock and has not declared it again (R272). -/
  ioLost : Bool
  /-- SPLL_SSC as it is in effect (R286). -/
  ssc : Word
  key : KeyStep
  deriving DecidableEq, Repr

/-- The PLLs after POR. -/
def Spll.reset : Spll :=
  ⟨List.replicate 8 ⟨false, 0, 0, 0⟩, [0, 1, 2, 3, 4, 5, 6, 7], .waiting, .start, 1, none, 0, 0, 0, 0, (64, 2), (64, 2), (64, 2), false, 0, .none⟩

/-! ## Load rating (spec/12) -/

/-- An operating-point step in progress (R312): its points, and whether the hop has been requested. -/
structure OpStep where
  from' : Nat
  to' : Nat
  hop : Bool
  deriving DecidableEq, Repr

/-- Who commands VDD_CORE: the unit within a step, a write to LDR_OP.VSET, the Keystone sequencer (R312, R313, R395). -/
inductive VoutBy where
  | step | vset | keystone
  deriving DecidableEq, Repr

/-- A VOUT_COMMAND that waits: mV and who gave it. -/
structure VoutCmd where
  mv : Nat
  by' : VoutBy
  deriving DecidableEq, Repr

/-- The Load-rating unit beside its registers. -/
structure Ldr where
  /-- Remainders of deposit (mW) and of base charge (nJ before the division by the trim's 16384) (R302). -/
  depRem : Nat
  baseRem : Nat
  lowCnt : Nat
  highCnt : Nat
  step : Option OpStep
  /-- Consecutive failed and successful polls (R300). -/
  fails : Nat
  oks : Nat
  /-- A VOUT_COMMAND waits for its place between polls (R298). -/
  vcmd : Option VoutCmd
  /-- The bytes of each transaction of the last round of polls, in order (R298): those the master drove, then those it read. -/
  sent : List (List Byte)
  /-- CLOSE was written, or a window limit was reached (R303). -/
  closing : Bool
  /-- Rail energy and raw estimate of the 100 ms interval (R305). -/
  rail : Nat
  raw : Nat
  /-- Of each Span's job, the raw energy already counted in an interval that has ended (R305). -/
  drawn : List Nat
  /-- A valid reading exists in the latest set (R295). -/
  valid : Bool
  /-- The fields that show THERM_SHDN_N latched until POR (R297). -/
  shdn : Bool
  /-- Ticks since the window opened; a closure is due in the cycle after the tick (R303). -/
  ticks : Nat
  due : Bool
  deriving DecidableEq, Repr

/-- After a SYS reset; the shutdown latch is AON's. -/
def Ldr.reset (shdn : Bool) : Ldr := ⟨0, 0, 0, 0, none, 0, 0, none, [], false, 0, 0, [0, 0, 0, 0], false, shdn, 0, false⟩


/-! ## The Vault (spec/14) -/

/-- A copy of a Vault record (R347): its bytes, header first, as a little-endian number; torn while a write over it has not ended, when its
bytes are neither the old copy nor the new. -/
structure VCopy where
  raw : Nat
  torn : Bool
  deriving DecidableEq, Repr

/-- A record: copies A and B. -/
structure VRec where
  a : VCopy
  b : VCopy
  deriving DecidableEq, Repr

/-- A record to write: its ID, and whether a flush asked for it (R349, R365). -/
structure VReq where
  id : Nat
  flush : Bool
  deriving DecidableEq, Repr

/-- A Vault write in progress (R348): the record, whether over copy B, the body captured, and whether it is a flush's. -/
structure VWrite where
  id : Nat
  overB : Bool
  body : Nat
  flush : Bool
  deriving DecidableEq, Repr

/-- The Vault and its interface (R346, R349). -/
structure Vault where
  /-- Records that differ from what the factory wrote, by ID. -/
  recs : SMap (Option VRec)
  /-- Records to write, in the order of request. -/
  queue : List VReq
  cur : Option VWrite
  deriving DecidableEq, Repr

/-! ## The flash die and its controller (spec/13) -/

/-- A programmed page: bytes 0 to 4,127 (SLC) or 4,047 (MLC) as a little-endian number; `ok` is false where its program was
interrupted or failed. -/
structure FPage where
  data : Nat
  ok : Bool
  deriving DecidableEq, Repr

/-- Requesters of the die (Table flc-8). -/
inductive FWho where
  | boot | recorder | maint | reg | fsv
  deriving DecidableEq, Repr

/-- Die operations (R328, Table flc-9). -/
inductive FOp where
  | read (blk pg : Nat)
  | jread (jsn : Nat)
  /-- Payload, SRC, and the blocks that have failed (R340). -/
  | append (payload src tries : Nat)
  | program (lb pg data : Nat)
  /-- ERASE of a logical block; whether a spare has taken its place. -/
  | erase (lb : Nat) (reloc : Bool)
  /-- The erase of the spare that took the place of a block whose program failed. -/
  | respare (lb : Nat)
  /-- The erase of the tail block (R335). -/
  | tail (blk : Nat)
  /-- A copy record programmed into the BBT field of a page of block 0 (R342). -/
  | bbt (pg body : Nat)
  deriving DecidableEq, Repr

/-- A request of the die. -/
structure FJob where
  who : FWho
  op : FOp
  buf : Nat
  deriving DecidableEq, Repr

/-- The end of an operation for its requester (R331): the result's fields and the data read. -/
structure FEnd where
  job : FJob
  err : Nat
  reloc : Bool
  shift : Nat
  corr : Nat
  data : Nat
  deriving DecidableEq, Repr

/-- The die and the controller beside its registers. -/
structure Flc where
  /-- Programmed pages by 256 × physical block + page. -/
  pages : SMap (Option FPage)
  /-- BBT fields of block 0 by page (R320): programmed whole or not, and the record. -/
  fields : SMap (Option (Bool × Nat))
  /-- Erase-intent cells: true is 1, erased. -/
  intent : SMap Bool
  /-- Page buffers by 0x2000 × buffer + offset. -/
  bufs : List Host.Cell
  cur : Option FJob
  /-- Physical block and page of the operation in progress. -/
  tgt : Nat × Nat
  queue : List FJob
  /-- A completion that waits for the Vault to hold its retirements (R342). -/
  pend : Option FEnd
  /-- Program points of logical slot blocks: 0 UNKNOWN, 1 erased, p + 2 page p (R331). -/
  points : SMap Nat
  /-- Head block and its next page (R334). -/
  headBlk : Nat
  headPg : Nat
  /-- The tail block whose erase is due (R335). -/
  tailDue : Option Nat
  /-- The block index (R335): erase counts, sticky shifts, first JSN + 1 (0 for none). -/
  erases : SMap Nat
  shift : SMap Nat
  first : SMap Nat
  /-- The bad-block table (R342): reason by physical block, spare index + 1 by logical block. -/
  bad : SMap Nat
  spare : SMap Nat
  /-- Blocks whose retirement or remapping no copy record holds yet; the last record's number. -/
  unrec : List Nat
  recSeq : Nat
  /-- Blocks whose intent cell read 0 at the last scan. -/
  scanned : List Nat
  /-- The Fobex engine has a flash-lane request executing (R328). -/
  hold : Bool
  deriving DecidableEq, Repr

/-- The die as it leaves the factory, and the controller after POR. -/
def Flc.reset : Flc :=
  ⟨[], [], [], [], none, (0, 0), [], none, [], 128, 0, none, [], [], [], [], [], [], 0, [], false⟩


/-! ## The recorder (spec/14) -/

/-- An extreme of a channel (R361, Table rec-2). -/
structure Ext where
  v : Word
  opsec : Nat
  sec : Nat
  frac : Nat
  valid : Bool
  deriving DecidableEq, Repr

/-- The shadow of a histogram channel (Table rec-2). -/
structure Chan where
  taken : Nat
  dropped : Nat
  tat : Nat
  mn : Option Ext
  mx : Option Ext
  recovered : Bool
  bins : SMap Nat
  deriving DecidableEq, Repr

/-- A channel without samples. -/
def Chan.zero : Chan := ⟨0, 0, 0, none, none, false, []⟩

/-- The time bases of a record (R373), with RSEQ. -/
structure Stamp where
  cycles : Nat
  opsec : Nat
  slewing : Bool
  sec : Nat
  frac : Nat
  valid : Bool
  rseq : Nat
  deriving DecidableEq, Repr

/-- An EVENT record (R374). -/
structure EvRec where
  stamp : Stamp
  code : Nat
  a0 : Nat
  a1 : Nat
  a2 : Nat
  deriving DecidableEq, Repr

/-- A snapshot from its firing until its record is appended (R370): values by index, none for an error. -/
structure Snap where
  stamp : Stamp
  cause : Nat
  merged : Nat
  addrs : List Nat
  got : SMap (Option (Option Word))
  /-- LOST has counted it (R366): it is dropped when its last read returns. -/
  lost : Bool
  deriving DecidableEq, Repr

/-- An entry of the fault ledger (R377). -/
structure LedEnt where
  opsec : Nat
  kind : Nat
  a0 : Nat
  a1 : Nat
  deriving DecidableEq, Repr

/-- The recorder beside its registers. -/
structure Rec where
  chans : SMap Chan
  /-- Channels whose shadow has changed since its last write; the ledger. -/
  dirty : List Nat
  dirtyLedger : Bool
  /-- OPSEC, the counters of TIMEBASE (R351). -/
  opsec : Nat
  cycles : Nat
  resets : Nat
  pwrfails : Nat
  histClears : Nat
  lost : Nat
  /-- LOST when the ledger last took an entry for it (R376). -/
  lostNoted : Nat
  /-- Words latched for a later read: OPSEC high, a bin, a channel. -/
  opHi : Nat
  bin : Nat
  chan : List Word
  /-- Channel samples due and not issued; snapshot reads not issued, as 32 × set + index. -/
  due : List Nat
  snapDue : List Nat
  snaps : SMap (Option Snap)
  events : List EvRec
  rseq : Nat
  /-- A page being appended: the sets and how many EVENT records it holds. -/
  page : Option (List Nat × Nat)
  /-- Records of the flush still to be written; another flush after it (R365); the flush of PWRFAIL_N, after which the records not yet
  appended are lost (R366). -/
  flush : List Nat
  again : Bool
  losing : Bool
  /-- The ledger: TOTAL, NEXT, entries by index. -/
  total : Nat
  next : Nat
  ledger : SMap (Option LedEnt)
  /-- AON microseconds since PWRFAIL_N was asserted. -/
  pwrUs : Nat
  deriving DecidableEq, Repr

/-- After POR, before the Vault check. -/
def Rec.reset : Rec :=
  ⟨[], [], false, 0, 0, 0, 0, 0, 0, 0, 0, 0, [], [], [], [], [], 0, none, [], false, false, 0, 0, [], 0⟩

/-- The RTC beside its registers (R354 to R356), in the VBAT domain: calendar time in 1/32,768 s, the slew still to apply, the crystal
ticks of the current 64, the phase of the crystal against the microsecond, and RTC_FRAC as latched. -/
structure Rtc where
  cal : Nat
  slew : Int
  sub : Nat
  phase : Nat
  frac : Nat
  deriving DecidableEq, Repr

/-! ## The Parapet (spec/15) and the Keystone (spec/16) -/

/-- The VBAT seal latch (R387, R388): the calendar time of the break, whether it was valid, and whether VDD_AON was present. -/
structure SealBreak where
  sec : Nat
  frac : Nat
  valid : Bool
  powered : Bool
  deriving DecidableEq, Repr

/-- A close of the window in this AON cycle (R385): its cause, the RSEQ of its EVENT record, whether the window timer stood at 0. -/
structure PresClose where
  why : Nat
  rseq : Nat
  due : Bool
  deriving DecidableEq, Repr

/-- The Parapet beside its registers: the seal latch, the last sample's mismatch, the press in progress (it may still open, renew or
close), the microseconds within the window's second, a VBAT loss since the last POR. -/
structure Par where
  latch : Option SealBreak
  miss : Bool
  press : Bool
  winUs : Nat
  vbatLost : Bool
  /-- The rest of the SEAL record (Table par-3): BREAK_OPSEC, BREAK_POWER_CYCLES, WINDOWS, BENCH_BOOTS, VBAT_LOSSES. -/
  brokeOp : Nat
  brokeCycles : Nat
  windows : Nat
  bench : Nat
  losses : Nat
  /-- The latch has been written to the record. -/
  recorded : Bool
  /-- Level of the last SEAL_A pulse (R379). -/
  sealA : Bool
  /-- The window as it stood at the end of the previous AON cycle (R385). -/
  was : Nat
  /-- The close of this AON cycle (R385). -/
  closed : Option PresClose
  deriving DecidableEq, Repr

/-- Where the Keystone sequence stands (Table boot-2). -/
inductive BootPhase where
  | start | checked | chosen | verified | overlaid | loaded | routed | released | halted
  deriving DecidableEq, Repr

/-- The Keystone sequencer and the watchdog beside their registers: the phase; whether a SYS reset started it; candidates left, in
order (0 factory, 1 A, 2 B); the slot a fallback leaves; a slot whose trial was given up; whether the defaults verified; microseconds
since the reset, and within the watchdog's millisecond. -/
structure Boot where
  phase : BootPhase
  sys : Bool
  cands : List Nat
  left : Option Nat
  revert : Option Nat
  defaults : Bool
  us : Nat
  wdtUs : Nat
  deriving DecidableEq, Repr

/-- At the start of a sequence. -/
def Boot.start (sys : Bool) : Boot := ⟨.start, sys, [], none, none, false, 0, 0⟩

/-! ## Converter ports (spec/18) -/

/-- A converter port beside its registers. -/
structure CvpPort where
  fifo : List Byte
  /-- STOP was written: the port stops at the end of the frame in progress (R448). -/
  stopping : Bool
  /-- Offset coefficients in force for the frame in progress (R455). -/
  force : List Word
  /-- The last frame an output port transmitted, by slot (R449, R462). -/
  tx : List Word
  deriving DecidableEq, Repr

/-- A port after reset. -/
def CvpPort.reset : CvpPort := ⟨[], false, [], []⟩

/-- A calibration from GO to its end (R453, R454): sums, sums of squares and clipping by slot. -/
structure CvpCal where
  port : Nat
  mask : Nat
  log2n : Nat
  /-- The frame in progress when accumulation was called for is not counted. -/
  skip : Bool
  frames : Nat
  sum : List Int
  sq : List Nat
  clip : List Bool
  deriving DecidableEq, Repr



/-! ## The service port (spec/19) -/

/-- A frame to send, from its destination address up to the FCS: its class (R470: 0 ARP, ICMP and DHCP, 1 Fobex replies, 2 firmware,
3 streams) and, of a stream datagram, its stream. -/
structure TxFrame where
  cls : Nat
  stream : Nat
  bytes : List Byte
  deriving DecidableEq, Repr

/-- An entry of an ARP cache (R472). -/
structure ArpEnt where
  ip : Nat
  hw : Nat
  deriving DecidableEq, Repr

/-- The DHCP client beside ETH_DHCP (R475): transaction, offered address, server, its MAC address, mask and router, lease, T1 and T2
of the last ACK or OFFER, and how often the present message was sent. -/
structure Dhcp where
  xid : Nat
  offer : Nat
  server : Nat
  hw : Nat
  mask : Nat
  router : Nat
  lease : Nat
  /-- Seconds of the lease left. -/
  left : Nat
  t1 : Nat
  t2 : Nat
  sends : Nat
  deriving DecidableEq, Repr

/-- A MAC beside its registers: frames waiting in order of arrival, the frame being sent, the ARP cache (most recently used first), the
next IPv4 identification, the DHCP client, the counters of Table fsv-2. -/
structure Mac where
  txq : List TxFrame
  sending : Option TxFrame
  arp : List ArpEnt
  ident : Nat
  dhcp : Dhcp
  drops : SMap Nat
  deriving DecidableEq, Repr

/-- A MAC after reset. -/
def Mac.reset : Mac := ⟨[], none, [], 0, ⟨0, 0, 0, 0, 0, 0, 0, 0, 0, 0, 0⟩, []⟩

/-- A firmware datagram received (R491). -/
structure FwIn where
  mac : Nat
  ip : Nat
  sport : Nat
  dport : Nat
  data : List Byte
  deriving DecidableEq, Repr

/-- A firmware datagram that waits for its destination's MAC address: the address asked for and the ARP requests sent (R472). -/
structure FwOut where
  mac : Nat
  ip : Nat
  hop : Nat
  sport : Nat
  dport : Nat
  data : List Byte
  tries : Nat
  deriving DecidableEq, Repr

/-- The MACs, the firmware queues and the MDIO master: receive queue, words of its head read, staged words, unresolved datagrams, the
MDIO command in progress. -/
structure Eth where
  macs : SMap Mac
  frx : List FwIn
  frxAt : Nat
  words : List Word
  ftx : List FwOut
  mdio : Option Word
  deriving DecidableEq, Repr

/-- Where a request came from: MAC, the sender's MAC address, IP address and port; and the address it reached (R476). -/
structure Peer where
  mac : Nat
  hw : Nat
  ip : Nat
  port : Nat
  own : Nat
  deriving DecidableEq, Repr

/-- A session (R478 to R480): number, peer, last SEQ, stored reply, SEQ of the request queued or executing. -/
structure Sess where
  num : Nat
  peer : Peer
  seq : Nat
  reply : Option (List Byte)
  exec : Option Nat
  deriving DecidableEq, Repr

/-- A request in its lane (R481): session slot, none for a HELLO without one; sent to a broadcast address; whether it has started. -/
structure FReq where
  slot : Option Nat
  peer : Peer
  bcast : Bool
  op : Nat
  seq : Nat
  session : Nat
  data : List Byte
  started : Bool
  deriving DecidableEq, Repr

/-- An open update (R419 to R423): session slot, target slot, UPSEQ, LENGTH; blocks erased; next page and offset; the page's bytes so
far; pages programmed, in order. -/
structure Upd where
  slot : Nat
  target : Nat
  upseq : Nat
  len : Nat
  erased : Nat
  next : Nat
  off : Nat
  buf : List Byte
  pages : List Nat
  deriving DecidableEq, Repr

/-- A stream (R489, R490): owner's slot, destination port, words waiting with the tag at their writing, how many of them must go out,
BYTE_OFFSET and SEQ of the next datagram. -/
structure Strm where
  owner : Option Nat
  port : Nat
  fifo : List (Word × Word)
  due : Nat
  off : Nat
  seq : Nat
  deriving DecidableEq, Repr

/-- A stream after reset. -/
def Strm.reset : Strm := ⟨none, 0, [], 0, 0, 0⟩

/-- The Fobex engine: sessions by slot, requests in order of arrival, HELLOs that created a session, the page in the staging buffer
(JSN, bytes, CORR), the update, streams, a RESET answered and due (R482). -/
structure Fsv where
  sess : SMap (Option Sess)
  reqs : List FReq
  hellos : Nat
  page : Option (Nat × Nat × Nat)
  upd : Option Upd
  strm : SMap Strm
  resetDue : Bool
  deriving DecidableEq, Repr

/-! ## Panel and general I/O (spec/20) -/

/-- A key beside its registers: the sum of the first counts, and consecutive scans at or above ON, below OFF, touched, at or below
−NEG, and near the reference (R493 to R498). -/
structure Key where
  sum : Nat
  up : Nat
  down : Nat
  held : Nat
  neg : Nat
  near : Nat
  deriving DecidableEq, Repr

/-- A key before its first scan. -/
def Key.zero : Key := ⟨0, 0, 0, 0, 0, 0⟩

/-- The panel: its keys, scans since EN became 1, and the REBASE bits that act on the next scan. -/
structure Panel where
  keys : SMap Key
  scans : Nat
  rebase : Nat
  deriving DecidableEq, Repr

/-- A PWM channel: PERIOD and DUTY as loaded for the period in progress, and whether the watchdog holds it inactive (R504, R505). -/
structure PwmCh where
  period : Nat
  duty : Nat
  hold : Bool
  deriving DecidableEq, Repr

/-- A UART: its FIFOs, the character being sent, the level of DE (R506, R507). -/
structure Uart where
  tx : List Byte
  rx : List Byte
  shift : Option Byte
  de : Bool
  deriving DecidableEq, Repr

/-- An I²C master: its FIFOs, the command of the transfer in progress, and whether the last one left the bus held (R508). -/
structure I2cM where
  tx : List Byte
  rx : List Byte
  cur : Option Word
  rstart : Bool
  deriving DecidableEq, Repr

/-- An SPI master: its FIFOs, the command of the transfer in progress, and the chip select held low (R509). -/
structure SpiM where
  tx : List Byte
  rx : List Byte
  cur : Option Word
  held : Option Nat
  deriving DecidableEq, Repr

/-- The GIO island beside its registers; whether a pulse of TRIG_OUT is in progress (R510). -/
structure Gio where
  pwm : SMap PwmCh
  uart : SMap Uart
  i2c : SMap I2cM
  spi : SMap SpiM
  pulse : Bool
  deriving DecidableEq, Repr

/-- Masters and channels after reset. -/
def PwmCh.reset : PwmCh := ⟨1, 0, false⟩
/-- A UART after reset. -/
def Uart.reset : Uart := ⟨[], [], none, false⟩
/-- An I²C master after reset. -/
def I2cM.reset : I2cM := ⟨[], [], none, false⟩
/-- An SPI master after reset. -/
def SpiM.reset : SpiM := ⟨[], [], none, none⟩
/-- The GIO island after reset. -/
def Gio.reset : Gio := ⟨[], [], [], [], false⟩
/-- The panel after reset. -/
def Panel.reset : Panel := ⟨[], 0, 0⟩

/-! ## Resets held (spec/21) -/

/-- What holds islands in reset: POR asserted, VDD_AON absent, VDD_CORE lost after a thermal shutdown (R516), EXTEST selected (R531). -/
structure Held where
  por : Bool
  aon : Bool
  core : Bool
  extest : Bool
  deriving DecidableEq, Repr

/-- The debug access register as captured after the last operation (R532): STATUS and DATA. -/
structure DbgOut where
  status : Nat
  data : Word
  deriving DecidableEq, Repr

/-- The state of the device. -/
structure State where
  /-- Commands waiting, first in first out. -/
  pending : List Instr
  /-- The grade of the device; no command changes it. -/
  grade : Grade
  /-- IO-space registers by global address; an unlisted one holds its reset value. -/
  io : SMap Word
  /-- Threads by 8 × pier + thread. -/
  threads : SMap Thread
  /-- I-space bytes by 0x20000 × pier + address. -/
  ispace : List Host.Cell
  /-- Scratchpad bytes by 0x10000 × pier + offset. -/
  spad : List Host.Cell
  /-- Mailbox bytes by 0x1000 × pier + offset. -/
  mbox : List Host.Cell
  /-- Deck bytes by Deck offset. -/
  deck : List Host.Cell
  /-- Bit errors of Deck words by offset / 8: 1 correctable, 2 poisoned (R209, R210). -/
  ecc : SMap Nat
  net : Net
  /-- Dispatcher slots by number; an unlisted one is FREE. -/
  slots : SMap Slot
  /-- Submissions accepted so far: the order of acceptance. -/
  accepted : Nat
  /-- Jobs by Span. -/
  spans : SMap (Option SJob)
  /-- Initialisations of Deck quarters, newest first: quarter, how many rows from row 0, pattern (R212). -/
  fills : List (Nat × Nat × Word)
  /-- Words (offset / 8) with a scrub write-back queued (R209). -/
  scrubs : List Nat
  /-- Initialisations in progress by quarter. -/
  inits : SMap (Option DeckInit)
  /-- DMA channels; the ones whose write and whose read were issued last (R222). -/
  dma : SMap DmaCh
  dmaTurn : Nat × Nat
  gauges : SMap Gau
  /-- The PLLs. -/
  spll : Spll
  ldr : Ldr
  vault : Vault
  flc : Flc
  /-- Trigger sources of the recorder that have signalled and whose sets have not yet fired (R369, R370). -/
  trigs : List Nat
  record : Rec
  rtc : Rtc
  par : Par
  boot : Boot
  cvp : SMap CvpPort
  cal : Option CvpCal
  /-- Levels of OVR_IN_0 to OVR_IN_15 (R457). -/
  ovrIn : BitVec 16
  /-- Level of ESTOP_N. -/
  estopN : Bool
  /-- Source bits newly latched and not yet synchronised, the oldest first; whether a latch went from clear to set (R460). -/
  abtNew : List (Nat × Bool)
  /-- AON microseconds since a source was last live or latched (R463). -/
  quietUs : Nat
  /-- The AON microsecond count since POR. -/
  us : Nat
  eth : Eth
  fsv : Fsv
  panel : Panel
  gio : Gio
  held : Held
  dbg : DbgOut
  /-- Level of PWRFAIL_N as filtered: low (R524). -/
  pwrLow : Bool
  /-- How many free values the run has taken (Config.freeNat); the model's own field. -/
  free : Nat
  deriving DecidableEq, Repr

/-- The state right after a power-on reset (R10): every register at its reset value, nothing listed in memory. -/
def State.reset : State :=
  { pending := [], grade := .sx16, io := [], threads := [], ispace := [], spad := [], mbox := [], deck := [], ecc := [],
    net := Net.reset,
    slots := [], accepted := 0, spans := [],
    fills := [], scrubs := [], inits := [], dma := [], dmaTurn := (15, 15),
    gauges := [],
    spll := Spll.reset,
    ldr := Ldr.reset false,
    vault := ⟨[], [], none⟩, flc := Flc.reset,
    trigs := [], record := Rec.reset, rtc := ⟨0, 0, 0, 0, 0⟩,
    par := ⟨none, false, false, 0, true, 0, 0, 0, 0, 0, false, false, 0, none⟩, boot := Boot.start false,
    cvp := [], cal := none,
    ovrIn := 0, estopN := true, abtNew := [], quietUs := 0, us := 0,
    eth := ⟨[], [], 0, [], [], none⟩, fsv := ⟨[], [], 0, none, none, [], false⟩,
    panel := Panel.reset, gio := Gio.reset,
    held := ⟨false, false, false, false⟩, dbg := ⟨0, 0⟩, pwrLow := false,
    free := 0 }

end Sys2Proof.Machine
end

