-- ==== Sys2Proof/Machine/Ops.lean ====
section
/-!
DEFINITION. The named operations over registers, memories, events and threads, and taking an exception.

Choices and readings of this file: log 3, 4, 9, 13, 92, 94, 104.
-/

namespace Sys2Proof.Machine

/-! ## IO-space registers and their fields -/

/-- The register at a global IO address as stored. -/
def State.reg (s : State) (a : Nat) : Word := SMap.get s.io (regReset a) a

/-- The register at a global IO address replaced whole. -/
def State.setReg (s : State) (a : Nat) (v : Word) : State := { s with io := SMap.set s.io (regReset a) a v }

/-- Bits [lo + width - 1 : lo] of a word. -/
def getBits (w : Word) (lo width : Nat) : Nat := w.toNat / 2 ^ lo % 2 ^ width

/-- Bits [lo + width - 1 : lo] of a word replaced. -/
def putBits (w : Word) (lo width v : Nat) : Word :=
  BitVec.ofNat 32 (w.toNat % 2 ^ lo + v % 2 ^ width * 2 ^ lo + w.toNat / 2 ^ (lo + width) * 2 ^ (lo + width))

/-- The value of a field. -/
def State.rf (s : State) (f : Fd) : Nat := getBits (s.reg f.addr) f.lo f.width

/-- A field written by the device. -/
def State.wf (s : State) (f : Fd) (v : Nat) : State := s.setReg f.addr (putBits (s.reg f.addr) f.lo f.width v)

/-- A field read as a Boolean. -/
def State.on (s : State) (f : Fd) : Bool := s.rf f != 0

/-- A count that saturates at its field's greatest value. -/
def State.incSat (s : State) (f : Fd) (n : Nat := 1) : State := s.wf f (min (2 ^ f.width - 1) (s.rf f + n))

/-- A count that wraps. -/
def State.incWrap (s : State) (f : Fd) (n : Nat := 1) : State := s.wf f (s.rf f + n)

/-- One bit of a field set or cleared. -/
def State.setBit (s : State) (f : Fd) (i : Nat) (v : Bool) : State :=
  s.setReg f.addr (putBits (s.reg f.addr) (f.lo + i) 1 (b2n v))

/-- One bit of a field. -/
def State.bit (s : State) (f : Fd) (i : Nat) : Bool := getBits (s.reg f.addr) (f.lo + i) 1 == 1

/-- A free value (Config.freeNat) taken; the counter moves on. -/
def State.takeFree (s : State) : Nat × State := (Config.freeNat s.free, { s with free := s.free + 1 })

/-! ## Two's complement -/

/-- The integer a number of `w` bits stands for. -/
def sInt (w n : Nat) : Int := if n % 2 ^ w < 2 ^ (w - 1) then (n % 2 ^ w : Nat) else (n % 2 ^ w : Nat) - (2 ^ w : Nat)

/-- An integer modulo 2^w. -/
def uNat (w : Nat) (i : Int) : Nat := (i % (2 ^ w : Nat)).toNat

/-- An integer clamped to `w` bits signed. -/
def satS (w : Nat) (i : Int) : Int := max (-(2 ^ (w - 1) : Nat)) (min ((2 ^ (w - 1) : Nat) - 1) i)

/-! ## Memories -/

/-- The one canonical form of a memory over what a byte nothing has written reads as: addresses strictly rising, no listed byte equal to
its default (DESIGN CHOICE, log 4). -/
abbrev Memory.wf (m : List Host.Cell) (d : Nat → Byte) : Bool := SMap.wf m d

/-- `n` bytes from address `a`, little-endian (R6); a byte nothing has written reads 0 (DESIGN CHOICE, log 4). -/
def getBytes (m : List Host.Cell) (a n : Nat) : Nat :=
  match n with
  | 0 => 0
  | k + 1 => (SMap.get m 0 a).toNat + 256 * getBytes m (a + 1) k

/-- `n` bytes of `v` stored from address `a`, little-endian. -/
def setBytes (m : List Host.Cell) (a n v : Nat) : List Host.Cell :=
  match n with
  | 0 => m
  | k + 1 => setBytes (SMap.set m 0 a (BitVec.ofNat 8 v)) (a + 1) k (v / 256)

/-- The bytes of `v` whose enable bit in `mask` is 1 stored from `a` (BMASK of Table via-6). -/
def setMasked (m : List Host.Cell) (a n mask v : Nat) : List Host.Cell :=
  match n with
  | 0 => m
  | k + 1 =>
    setMasked (if mask % 2 = 1 then SMap.set m 0 a (BitVec.ofNat 8 v) else m) (a + 1) k (mask / 2) (v / 256)

/-- Scratchpad bytes of a pier. -/
def State.spadRd (s : State) (p a n : Nat) : Nat := getBytes s.spad (0x10000 * p + a) n
/-- Scratchpad bytes of a pier written. -/
def State.spadWr (s : State) (p a n v : Nat) : State := { s with spad := setBytes s.spad (0x10000 * p + a) n v }
/-- Mailbox bytes of a pier. -/
def State.mboxRd (s : State) (p a n : Nat) : Nat := getBytes s.mbox (0x1000 * p + a) n
/-- Mailbox bytes of a pier written. -/
def State.mboxWr (s : State) (p a n v : Nat) : State := { s with mbox := setBytes s.mbox (0x1000 * p + a) n v }
/-- An I-space word of a pier (R53). -/
def State.ifetch (s : State) (p : Nat) (pc : Word) : Word := BitVec.ofNat 32 (getBytes s.ispace (0x20000 * p + pc.toNat) 4)

/-! ## Events (R38, R229) -/

/-- Event `e` broadcast: in flight until the EVENT command. -/
def State.raise (s : State) (e : Nat) : State :=
  { s with net := { s.net with events := s.net.events ++ [Fin.ofNat 64 e] } }

/-- An event raised if its enable is 1. -/
def State.raiseIf (s : State) (ev en : Fd) : State := if s.on en then s.raise (s.rf ev) else s

/-- A system cause sent (R133). -/
def State.cause (s : State) (c : SysCause) (einfo : Word) (sub : Nat := 0) : State :=
  { s with net := { s.net with causes := s.net.causes ++ [(c, einfo, sub)] } }

/-! ## Refusals (R13) -/

/-- Where a block shows a refusal: REFUSED, its REASON, its event and enable. -/
structure RefuseAt where
  refused : Fd
  reason : Option Fd
  event : Option (Fd × Fd)
  deriving DecidableEq, Repr

/-- A refused write recorded by its block. -/
def State.refuse (s : State) (r : RefuseAt) (reason : Nat) : State :=
  let s := s.wf r.refused 1
  let s := match r.reason with | some f => s.wf f reason | none => s
  match r.event with | some (ev, en) => s.raiseIf ev en | none => s

/-- The outcome of a register write: the state, and the REFUSE code of the write acknowledgement (Table via-4): 0 every
field accepted, 1 presence, 2 seal, 3 any other reason. -/
structure WRes where
  st : State
  code : Nat

/-- An accepted write. -/
def WRes.ok (s : State) : WRes := ⟨s, 0⟩

/-- A write refused as R13 states, for a reason other than presence or seal. -/
def State.refused (s : State) (r : RefuseAt) (reason : Nat) : WRes := ⟨s.refuse r reason, 3⟩

/-! ## Threads -/

/-- The registers of a thread. -/
def State.thr (s : State) (t : Thr) : Thread := SMap.get s.threads (Thread.reset t.ix) t.ix
/-- The registers of a thread replaced. -/
def State.setThr (s : State) (t : Thr) (v : Thread) : State :=
  { s with threads := SMap.set s.threads (Thread.reset t.ix) t.ix v }
/-- The registers of a thread changed. -/
def State.onThr (s : State) (t : Thr) (f : Thread → Thread) : State := s.setThr t (f (s.thr t))

/-- G0 reads 0 (R63). -/
def Thread.rg (t : Thread) (r : RegIx) : Word := if r = 0 then 0 else SMap.get t.g 0 r.val
/-- A write of G0 is discarded (R63, R72). -/
def Thread.wg (t : Thread) (r : RegIx) (v : Word) : Thread := if r = 0 then t else { t with g := SMap.set t.g 0 r.val v }
/-- F register. -/
def Thread.rf (t : Thread) (r : RegIx) : DWord := SMap.get t.f 0 r.val
/-- F register written. -/
def Thread.wf (t : Thread) (r : RegIx) (v : DWord) : Thread := { t with f := SMap.set t.f 0 r.val v }
/-- W register. -/
def Thread.rw (t : Thread) (r : WIx) : WVec := SMap.get t.w 0 r.val
/-- W register written. -/
def Thread.ww (t : Thread) (r : WIx) (v : WVec) : Thread := { t with w := SMap.set t.w 0 r.val v }

/-! TSTAT (Table trap-1) -/

/-- MODE: Kernel. -/
def Thread.kernel (t : Thread) : Bool := getBits t.tstat 0 1 == 1
/-- EXL. -/
def Thread.exl (t : Thread) : Bool := getBits t.tstat 1 1 == 1
/-- IE. -/
def Thread.ie (t : Thread) : Bool := getBits t.tstat 2 1 == 1
/-- SS. -/
def Thread.ss (t : Thread) : Bool := getBits t.tstat 3 1 == 1
/-- MODE, EXL, IE, SS written together: bits [3:0] of TSTAT. -/
def Thread.setMode (t : Thread) (mode exl ie ss : Bool) : Thread :=
  { t with tstat := putBits t.tstat 0 4 (b2n mode + 2 * b2n exl + 4 * b2n ie + 8 * b2n ss) }
/-- TPEND of FSTAT (Table fp-9). -/
def Thread.tpend (t : Thread) : Nat := getBits t.fstat 5 5
/-- TPEND copied to TLAST and cleared (R117). -/
def Thread.deliverTpend (t : Thread) : Thread :=
  { t with fstat := putBits (putBits t.fstat 10 5 t.tpend) 5 5 0 }
/-- RPTC.COUNT (Table isa-11). -/
def Thread.count (t : Thread) : Nat := getBits t.rptc 0 17
/-- RPTC.RESUME. -/
def Thread.resume (t : Thread) : Bool := getBits t.rptc 31 1 == 1

/-- A pending product becomes visible (R51, R52). -/
def Thread.commitProduct (t : Thread) : Thread :=
  { t with pl := t.pendL.getD t.pl, ph := t.pendH.getD t.ph, pendL := none, pendH := none }

/-- A repeat ended at an iteration boundary: PC back to the prefix, RESUME set (R89). -/
def Thread.endRepeat (t : Thread) : Thread :=
  match t.rep with
  | none => t
  | some r => { t with pc := r.prefixPc, rptc := putBits t.rptc 31 1 1, rep := none }

/-! ## Taking an exception (R129, R138, R149) -/

/-- Cause codes of Table trap-2. -/
def cIllegal : Nat := 0x01
/-- PRIV. -/
def cPriv : Nat := 0x02
/-- ALIGN. -/
def cAlign : Nat := 0x03
/-- DSPACE_FAULT. -/
def cDspace : Nat := 0x04
/-- ISPACE_FAULT. -/
def cIspace : Nat := 0x05
/-- IO_ERROR. -/
def cIoError : Nat := 0x06
/-- IO_TIMEOUT. -/
def cIoTimeout : Nat := 0x07
/-- GATE_NUM. -/
def cGateNum : Nat := 0x08
/-- GATE_ARG. -/
def cGateArg : Nat := 0x09
/-- GATE_MODE. -/
def cGateMode : Nat := 0x0A
/-- STACK. -/
def cStack : Nat := 0x0B
/-- REPEAT. -/
def cRepeat : Nat := 0x0C
/-- DIV_ZERO. -/
def cDivZero : Nat := 0x0D
/-- FP_IMPRECISE. -/
def cFp : Nat := 0x10
/-- ECC_UNCORR. -/
def cEcc : Nat := 0x14
/-- SPAN_FAULT. -/
def cSpan : Nat := 0x18
/-- EVENT. -/
def cEvent : Nat := 0x20
/-- WDT_STAGE1. -/
def cWdt : Nat := 0x21
/-- ABUTMENT. -/
def cAbut : Nat := 0x22
/-- THERMAL. -/
def cTherm : Nat := 0x23
/-- LDR_DEBT. -/
def cDebt : Nat := 0x24
/-- DEBUG_BREAK. -/
def cBreak : Nat := 0x30
/-- SINGLE_STEP. -/
def cStep : Nat := 0x31

/-- SUB of a response cause (R130). -/
def RespErr.code : RespErr → Nat
  | .offline => 1 | .route => 2 | .malformed => 3 | .timeout => 4 | .poison => 5

/-- The cause an error response raises in a pier (Table pier-3). -/
def RespErr.cause : RespErr → Nat
  | .timeout => cIoTimeout | .poison => cEcc | _ => cIoError

/-- A cause about to be taken. -/
structure Cause where
  code : Nat
  sub : Nat
  deferred : Bool
  einfo : Word
  deriving DecidableEq, Repr

/-- A precise cause. -/
def Cause.mk' (code sub : Nat) (einfo : Word) : Cause := ⟨code, sub, false, einfo⟩

/-- The CAUSE word (R130). -/
def Cause.word (c : Cause) : Word := BitVec.ofNat 32 (c.code + 256 * c.sub + 65536 * b2n c.deferred)

/-- The registers of a thread at entry (R129 steps 1 to 4); an unfinished repeat ends at its prefix (R89), a product
becomes visible (R52), a WAIT and an access end. -/
def Thread.enter (t : Thread) (c : Cause) (epc entry : Word) : Thread :=
  let task := !t.kernel
  let sp := t.rg 30
  let epc := match t.rep with | some r => r.prefixPc | none => epc
  let t := (t.endRepeat).commitProduct
  let t := { t with
    cause := c.word, epc := epc, einfo := c.einfo,
    tstat := putBits (putBits t.tstat 4 3 (getBits t.tstat 0 1 + 2 * getBits t.tstat 2 1 + 4 * getBits t.tstat 3 1)) 0 4 3,
    run := .running, acc := none, viaGret := false }
  let t := if task then { t with usp := sp }.wg 30 t.ksp else t
  { t with pc := entry }

/-- A double exception (R138): the second cause recorded, the thread stopping. For a deferred store error or FP_IMPRECISE the instruction
address recorded is `epc`, the one EPC would have held (DESIGN CHOICE, log 104). -/
def State.doubleException (s : State) (th : Thr) (c : Cause) (epc : Word) : State :=
  let p := th.pier.val
  let s := s.wf (Reg.PIER_DBLCAUSE.CODE p) c.code
  let s := s.wf (Reg.PIER_DBLCAUSE.THREAD p) th.th.val
  let s := s.wf (Reg.PIER_DBLEPC.ADDR p) epc.toNat
  let s := s.setBit (Reg.PIER_EXC_STATUS.DOUBLE p) th.th.val true
  let s := s.onThr th (fun t =>
    let t := if c.code = cFp then t.deliverTpend else t
    { (t.endRepeat).commitProduct with stopReq := true, run := .running, acc := none, viaGret := false })
  s.raiseIf (Reg.PIER_TRAP_CTL.EXC_EVENT p) (Reg.PIER_TRAP_CTL.EXC_EVENT_EN p)

/-- Debug halt selected for this cause (R149). -/
def State.haltSelected (s : State) (th : Thr) (c : Cause) : Bool :=
  (c.code == cBreak && s.bit (Reg.PIER_DBG_CTL.HALT_BRK th.pier.val) th.th.val) ||
  (c.code == cStep && s.bit (Reg.PIER_DBG_CTL.HALT_STEP th.pier.val) th.th.val)

/-- Taking a cause (R129): with EXL 1 it is a double exception (R138); with a debug halt selected the thread stops
before its first handler instruction (R149). -/
def State.takeException (s : State) (th : Thr) (c : Cause) (epc : Word) : State :=
  if (s.thr th).exl then s.doubleException th c epc
  else
    let s := s.onThr th (fun t =>
      (if c.code = cFp then t.deliverTpend else t).enter c epc (s.reg (Reg.PIER_ENTRY_at th.pier.val)))
    if s.haltSelected th c then
      (s.onThr th (fun t => { t with stopReq := true })).setBit (Reg.PIER_DBG_STATUS.HALTED th.pier.val) th.th.val true
    else s

/-- The return from an exception (R139): PC from EPC, the mode bits from the P fields, EXL 0, G30 from USP in Task mode.
PC bits [1:0] are always 0 (R53). -/
def Thread.returnFromException (t : Thread) : Thread :=
  let mode := getBits t.tstat 4 1
  let t := { t with
    pc := putBits t.epc 0 2 0,
    tstat := putBits t.tstat 0 4 (mode + 4 * getBits t.tstat 5 1 + 8 * getBits t.tstat 6 1), viaGret := true }
  if mode = 0 then t.wg 30 t.usp else t

end Sys2Proof.Machine
end

