-- ==== Sys2Proof/Machine/Fields.lean ====
section
/-!
DEFINITION. Register accesses by field codes (R11 to R16): what a write does to each field, what a read clears, and who is
permitted.

Choices and readings of this file: log 77, 94.
-/

namespace Sys2Proof.Machine

/-- Which of the conditional codes a write may use. -/
structure Permit where
  /-- RWL: the block's LOCK bit is 0. -/
  lockOk : Bool
  /-- RWP: from the Fobex engine within an open presence window. -/
  presOk : Bool
  /-- RWS: as RWP, and SEAL_BROKEN latched. -/
  sealOk : Bool
  deriving DecidableEq, Repr

/-- Whether a code takes the write. -/
def Permit.allows (p : Permit) : Acc → Bool
  | .rwl => p.lockOk
  | .rwp => p.presOk
  | .rws => p.presOk && p.sealOk
  | _ => true

/-- A field's new value (Table scope-9). -/
def Acc.written (a : Acc) (old v : Nat) : Nat :=
  match a with
  | .ro => old
  | .rc => old
  | .wo => old
  | .rw => v
  | .rwl => v
  | .rwp => v
  | .rws => v
  | .w1c => old &&& (old ^^^ v)
  | .w1s => old ||| v

/-- A word with each field written by its own code; fields not permitted and bits outside every field stay (R12, R13, R15). -/
def writeFields (p : Permit) (fs : List FSpec) (old v : Word) : Word :=
  match fs with
  | [] => old
  | f :: t =>
    writeFields p t
      (if p.allows f.acc then putBits old f.lo f.width (f.acc.written (getBits old f.lo f.width) (getBits v f.lo f.width))
       else old) v

/-- A word with every RC field at its reset value (R16). -/
def clearRc (fs : List FSpec) (w : Word) : Word :=
  match fs with
  | [] => w
  | f :: t => clearRc t (if f.acc = .rc then putBits w f.lo f.width f.rst else w)

/-- A word as read: WO fields and bits outside every field read 0 (R11, R15). -/
def readFields (fs : List FSpec) (w : Word) : Word :=
  match fs with
  | [] => 0
  | f :: t => if f.acc = .wo then readFields t w else putBits (readFields t w) f.lo f.width (getBits w f.lo f.width)

/-- Whether some field of a code refuses the write. -/
def someRefused (p : Permit) (fs : List FSpec) : Bool := fs.any (fun f => !p.allows f.acc)

/-- The REFUSE code of a write acknowledgement (Table via-4): 1 for want of a presence window, 2 for an intact seal, 3 any
other reason, 0 none; presence is judged first (R13). -/
def refuseCode (p : Permit) (fs : List FSpec) : Nat :=
  if fs.any (fun f => (f.acc == .rwp || f.acc == .rws) && !p.presOk) then 1
  else if fs.any (fun f => f.acc == .rws && !p.sealOk) then 2
  else if someRefused p fs then 3
  else 0

/-- Everything permitted. -/
def Permit.all : Permit := ⟨true, true, true⟩

/-- The register at `a` written field by field. -/
def State.writeReg (s : State) (p : Permit) (a : Nat) (v : Word) : State :=
  s.setReg a (writeFields p (fieldsAt a) (s.reg a) v)

/-- A register write with a block's refusal (R13): each field by its code; one refusal recorded when any field refuses. -/
def State.writeOr (s : State) (p : Permit) (r : RefuseAt) (reason : Nat) (a : Nat) (v : Word) : WRes :=
  let s := s.writeReg p a v
  let code := refuseCode p (fieldsAt a)
  if code = 0 then ⟨s, 0⟩ else ⟨s.refuse r reason, code⟩

/-- A word written but for fields kept at their old value. -/
def State.keeping (s : State) (v : Word) (keep : List Fd) : Word := keep.foldl (fun w f => putBits w f.lo f.width (s.rf f)) v

/-- A write in which the fields `bad` are refused for their values, with `reason`: each keeps its own and the others take effect; `locked` is the
reason where a field's code refuses it (R12, R13). -/
def State.writeBut (s : State) (p : Permit) (r : RefuseAt) (locked reason : Nat) (a : Nat) (v : Word) (bad : List Fd) : WRes :=
  let w := s.writeOr p r locked a (s.keeping v bad)
  if bad.isEmpty || w.code != 0 then w else w.st.refused r reason

/-- Whether a source's read clears RC fields (R16): a pier IN and a Fobex READ_IO do. -/
def Src.clears : Src → Bool
  | .pier _ => true
  | .fobex => true
  | _ => false

/-- A live source or a newly latched bit keeps ABT_QUIET at 0 (R463). -/
def State.notQuiet (s : State) : State := { s with quietUs := 0 }

end Sys2Proof.Machine
end

