-- ==== Sys2Proof/Machine/DeckMem.lean ====
section
/-!
DEFINITION. The Deck's banks: where an offset lies (R204), reads and writes with SECDED, poison and injection (R209 to R211), and
what a byte nothing has written reads as (R212).

Choices and readings of this file: log 4.
-/

namespace Sys2Proof.Machine

/-- Quarter of a Deck offset (Table deck-2). -/
def deckQuarter (a : Nat) : Nat := a / 0x800000 % 4
/-- Bank within the quarter: A[9:3] XOR A[16:10]. -/
def deckBank (a : Nat) : Nat := (a / 8 % 128) ^^^ (a / 1024 % 128)
/-- Row: A[22:10]. -/
def deckRow (a : Nat) : Nat := a / 1024 % 8192
/-- Deck group: b[6:5]. -/
def deckGroup (a : Nat) : Nat := deckBank a / 32
/-- Router of the Deck group NI that serves an offset: L(4n + g). -/
def deckRouter (a : Nat) : Nat := 4 * deckQuarter a + deckGroup a

/-- What an unlisted Deck byte reads as: the pattern of the newest initialisation that covers its row, else 0 (R212; DESIGN CHOICE, log 4). -/
def deckDefault (fills : List (Nat × Nat × Word)) (a : Nat) : Byte :=
  match fills with
  | [] => 0
  | (q, rows, pat) :: t =>
    if q = deckQuarter a ∧ deckRow a < rows then BitVec.ofNat 8 (getBits pat (8 * (a % 4)) 8) else deckDefault t a

/-- A Deck byte. -/
def State.deckByte (s : State) (a : Nat) : Byte := SMap.get s.deck (deckDefault s.fills a) a

/-- `n` Deck bytes from offset `a`, little-endian, with no check. -/
def State.deckPeek (s : State) (a n : Nat) : Nat :=
  match n with
  | 0 => 0
  | k + 1 => (s.deckByte a).toNat + 256 * s.deckPeek (a + 1) k

/-- Bytes put into a Deck memory from offset `a`. -/
def deckPut (fills : List (Nat × Nat × Word)) (m : List Host.Cell) (a n v : Nat) : List Host.Cell :=
  match n with
  | 0 => m
  | k + 1 => deckPut fills (SMap.set m (deckDefault fills a) a (BitVec.ofNat 8 v)) (a + 1) k (v / 256)

/-- `n` Deck bytes stored with no check. -/
def State.deckPoke (s : State) (a n v : Nat) : State := { s with deck := deckPut s.fills s.deck a n v }

/-- The bit errors of a word: 0 none, 1 correctable, 2 poisoned. -/
def State.eccOf (s : State) (w : Nat) : Nat := SMap.get s.ecc 0 w
/-- Bit errors of a word replaced. -/
def State.setEcc (s : State) (w e : Nat) : State := { s with ecc := SMap.set s.ecc 0 w e }

/-- A scrub of a word queued, once. -/
def State.queueScrub (s : State) (w : Nat) : State := if s.scrubs.contains w then s else { s with scrubs := s.scrubs ++ [w] }

/-- A corrected error at a word (R209): counted, its offset, its event, and a scrub queued. -/
def State.correct (s : State) (w : Nat) : State :=
  let q := deckQuarter (8 * w)
  let s := s.incSat (Reg.DECK_CE_CNT.COUNT q)
  let s := s.wf (Reg.DECK_CE_ADDR.ADDR q) (8 * w)
  (s.raiseIf (Reg.DECK_EVCFG.CE_EVENT q) (Reg.DECK_EVCFG.CE_EN q)).queueScrub w

/-- A poison detection at a word (R210). -/
def State.detectPoison (s : State) (w : Nat) : State :=
  let q := deckQuarter (8 * w)
  let s := s.incSat (Reg.DECK_UE_CNT.COUNT q)
  let s := s.wf (Reg.DECK_UE_ADDR.ADDR q) (8 * w)
  s.raiseIf (Reg.DECK_EVCFG.UE_EVENT q) (Reg.DECK_EVCFG.UE_EN q)

/-- The check a bank makes on reading a word: true when the word is poisoned. -/
def State.checkWord (s : State) (w : Nat) : Bool × State :=
  if s.eccOf w = 2 then (true, s.detectPoison w) else if s.eccOf w = 1 then (false, s.correct w) else (false, s)

/-- The checks of `k` words from word `w`; true when one is poisoned. -/
def State.checkWords (s : State) (w k : Nat) : Bool × State :=
  match k with
  | 0 => (false, s)
  | k + 1 =>
    let r := s.checkWord w
    let r' := r.2.checkWords (w + 1) k
    (r.1 || r'.1, r'.2)

/-- Words touched by `n` bytes at `a`. -/
def wordsTouched (a n : Nat) : Nat := if n = 0 then 0 else (a + n - 1) / 8 - a / 8 + 1

/-- A Deck read: the bytes, or none where a word is poisoned. -/
def State.deckRead (s : State) (a n : Nat) : Option Nat × State :=
  let r := s.checkWords (a / 8) (wordsTouched a n)
  if r.1 then (none, r.2) else (some (s.deckPeek a n), r.2)

/-- What a granted write leaves of a word's bit errors: none, or those of an armed injection, which disarms (R211). Its scrub is
cancelled (R209). -/
def State.writtenWord (s : State) (w : Nat) : State :=
  let q := deckQuarter (8 * w)
  let s := { s with scrubs := s.scrubs.filter (fun x => x != w) }
  let mode := s.rf (Reg.DECK_ECC_INJ.MODE q)
  if mode ≠ 0 ∧ s.rf (Reg.DECK_ECC_INJ.WORD q) = w % 2 ^ 22 then
    (s.wf (Reg.DECK_ECC_INJ.MODE q) 0).setEcc w mode
  else s.setEcc w 0

/-- A write of `n` bytes within one word: true when it is not performed, the word being poisoned and the write partial (R210). -/
def State.deckWriteWord (s : State) (a n v : Nat) : Bool × State :=
  let w := a / 8
  if n = 8 then (false, (s.deckPoke a 8 v).writtenWord w)
  else
    let r := s.checkWord w
    if r.1 then (true, r.2) else (false, (r.2.deckPoke a n v).writtenWord w)

/-- The bytes of one word that writes of (offset, bytes, value) cover. -/
def coversWord (ps : List (Nat × Nat × Nat)) : Bool :=
  (List.range 8).all (fun i => ps.any (fun p => decide (p.1 % 8 ≤ i) && decide (i < p.1 % 8 + p.2.1)))

/-- Several writes within one word stored, the last winning. -/
def State.deckPokes (s : State) (ps : List (Nat × Nat × Nat)) : State :=
  match ps with
  | [] => s
  | p :: t => (s.deckPoke p.1 p.2.1 p.2.2).deckPokes t

/-- Writes within word `w` served by one bank access (R206): true when it is not performed, the word being poisoned and the access partial. -/
def State.deckWriteMany (s : State) (w : Nat) (ps : List (Nat × Nat × Nat)) : Bool × State :=
  if coversWord ps then (false, (s.deckPokes ps).writtenWord w)
  else
    let r := s.checkWord w
    if r.1 then (true, r.2) else (false, (r.2.deckPokes ps).writtenWord w)

/-- A Deck write of `n` bytes at `a`, word by word (`fuel` words at most); true when a word answered POISON. -/
def State.deckWriteFrom (s : State) (fuel a n v : Nat) : Bool × State :=
  match fuel with
  | 0 => (false, s)
  | fuel + 1 =>
    if n = 0 then (false, s)
    else
      let k := min n (8 - a % 8)
      let r := s.deckWriteWord a k (v % 2 ^ (8 * k))
      let r' := r.2.deckWriteFrom fuel (a + k) (n - k) (v / 2 ^ (8 * k))
      (r.1 || r'.1, r'.2)

/-- A Deck write; true when a word answered POISON. -/
def State.deckWrite (s : State) (a n v : Nat) : Bool × State := s.deckWriteFrom (wordsTouched a n) a n v

/-- Every listed byte and bit error of a quarter's rows below `rows` dropped. -/
def State.deckDrop (s : State) (q rows : Nat) : State :=
  { s with
    deck := SMap.drop s.deck (fun a => deckQuarter a == q && decide (deckRow a < rows)),
    ecc := SMap.drop s.ecc (fun w => deckQuarter (8 * w) == q && decide (deckRow (8 * w) < rows)),
    scrubs := s.scrubs.filter (fun w => !(deckQuarter (8 * w) == q && decide (deckRow (8 * w) < rows))) }

/-- The pattern written to rows 0 to `rows` − 1 of a quarter, with valid check bits (R212). -/
def State.deckFill (s : State) (q rows : Nat) (pat : Word) : State :=
  let s := s.deckDrop q rows
  { s with fills := (q, rows, pat) :: (if rows = 8192 then s.fills.filter (fun f => f.1 != q) else s.fills) }

end Sys2Proof.Machine
end

