-- ==== Sys2Proof/Machine/Fabric.lean ====
section
/-!
DEFINITION. The links of the Viaduct flit by flit (R227, R232, R235, R253): receiver buffers, credits, and what one cycle grants. Links are
numbered: a Lattice router's outputs 6r + o (o the heading, or 4 + local port), an NI's link into its router 96 + NI, a Trestle stop's outputs
128 + 2·stop + direction, an island's link into its stop 176 + 4·stop + index, and a stop's link out to an island 272 + 4·stop + index.

Choices and readings of this file: log 33, 97.
-/

namespace Sys2Proof.Machine

/-! ## Links and buffers -/

/-- The Lattice's links. -/
def linkLattice (l : Nat) : Bool := decide (l < 128)
/-- Links to an NI, whose core takes each flit as it comes: the spec gives its input buffers no size. -/
def linkEject (l : Nat) : Bool := (decide (l < 96) && decide (4 ≤ l % 6)) || decide (272 ≤ l)
/-- Links from a stop to the next (R227). -/
def linkRing (l : Nat) : Bool := decide (128 ≤ l) && decide (l < 176)

/-- The buffer at the end of a link for a VC and a dateline class. -/
def bufKey (l vc cls : Nat) : Nat := 8 * l + 2 * vc + cls
/-- Flits of a buffer: 4 on the Lattice, 10 on the Trestle (R253). -/
def bufDepth (k : Nat) : Nat := if linkLattice (k / 8) then 4 else 10

/-- The flits in a buffer. -/
def Fab.buf (f : Fab) (k : Nat) : List Flit := SMap.get f.bufs [] k
/-- The credits its sender holds. -/
def Fab.credit (f : Fab) (k : Nat) : Nat := SMap.get f.cred (bufDepth k) k

/-- The input port of its router or stop on which a link arrives. -/
def inPort (l : Nat) : Nat := if l < 96 then l % 6 else if l < 128 then 4 + (l - 96) / 16 else if l < 176 then 0 else 1 + l % 4

/-! ## What wants to go on -/

/-- A flit that wants a link: the buffer it stands in, none at its source; its packet's number, place in the packet, VC and length; the link
and class, and whether the packet ends there. -/
structure Want where
  src : Option Nat
  flit : Flit
  vc : Nat
  len : Nat
  link : Nat
  cls : Nat
  deriving DecidableEq, Repr

/-- The key of the buffer a flit wants to enter. -/
def Want.key (w : Want) : Nat := bufKey w.link w.vc w.cls
/-- It is the packet's last flit. -/
def Want.isTail (w : Want) : Bool := w.flit.ix + 1 == w.len
/-- The port it comes in on. -/
def Want.port (w : Want) : Nat := match w.src with | some k => inPort (k / 8) | none => 0

/-- The packet a flit is of. -/
def Fab.pkt (f : Fab) (x : Flit) : Option Pkt := f.pkts.find? (fun p => p.id == x.id && p.resp == x.resp)

/-- The link after link `l` on a path. -/
def nextLink (path : List (Nat × Nat)) (l : Nat) : Option (Nat × Nat) :=
  match path with
  | [] => none
  | e :: t => if e.1 = l then t.head? else nextLink t l

/-- What the front flit of a buffer wants. -/
def Fab.wantOf (f : Fab) (e : Nat × List Flit) : Option Want :=
  match e.2 with
  | [] => none
  | x :: _ =>
    match f.pkt x with
    | none => none
    | some p => (nextLink p.path (e.1 / 8)).map (fun l => ⟨some e.1, x, p.vc, p.len, l.1, l.2⟩)

/-- What the sources want: of each first link and VC, the next flit of the packet sent first. -/
def sourceWants (ps : List Pkt) (seen : List (Nat × Nat)) : List Want :=
  match ps with
  | [] => []
  | p :: t =>
    match p.path with
    | [] => sourceWants t seen
    | l :: _ =>
      if p.out < p.len then
        (if seen.contains (l.1, p.vc) then sourceWants t seen
         else ⟨none, ⟨p.id, p.resp, p.out⟩, p.vc, p.len, l.1, l.2⟩ :: sourceWants t ((l.1, p.vc) :: seen))
      else sourceWants t seen

/-- Every flit that wants a link. -/
def Fab.wants (f : Fab) : List Want := f.bufs.filterMap f.wantOf ++ sourceWants f.pkts []

/-! ## Arbitration -/

/-- The packet that holds a VC and class of a link, from its head to its tail (R232). -/
def Fab.holder (f : Fab) (k : Nat) : Option (Nat × Bool) := SMap.get f.hold none k

/-- Free flits a head needs downstream: a flit on the Lattice; the packet's on a ring, and all ten where it is injected (R227). -/
def Want.room (w : Want) : Nat :=
  if !linkRing w.link ∨ w.flit.ix ≠ 0 then 1
  else match w.src with
    | some k => if linkRing (k / 8) then w.len else 10
    | none => 10

/-- Whether a flit may be granted: it holds the VC and class, or is a head that finds them free, and has its credits. -/
def Fab.mayGo (f : Fab) (w : Want) : Bool :=
  (match f.holder w.key with | some h => h == (w.flit.id, w.flit.resp) | none => w.flit.ix == 0) &&
    (linkEject w.link || decide (w.room ≤ f.credit w.key))

/-- The place of a VC in the round: request, stream, DMA. -/
def vcTurn (vc : Nat) : Nat := if vc = 0 then 0 else vc - 1

/-- The order in which a link grants (R227, R235): the response VC first; then on the Lattice the other VCs and within one the input ports in
round-robin order, class 1 before class 0; on the Trestle ring traffic before injections. -/
def Fab.order (f : Fab) (w : Want) : Nat :=
  let vc := if w.vc = 1 then 0 else if linkLattice w.link then 1 + (vcTurn w.vc + 5 - vcTurn (SMap.get f.lastVc 3 w.link)) % 3 else 1
  let port := if linkLattice w.link then (w.port + 7 - SMap.get f.lastIn 7 w.key) % 8 else w.port
  (2 * vc + (1 - w.cls)) * 8 + port

/-- The want a link grants among those given. -/
def Fab.best (f : Fab) (ws : List Want) : Option Want :=
  match ws with
  | [] => none
  | w :: t =>
    match f.best t with
    | none => if f.mayGo w then some w else none
    | some b => if f.mayGo w && decide (f.order w ≤ f.order b) then some w else some b

/-- Each number once. -/
def distinct (ls : List Nat) : List Nat := ls.foldl (fun a l => if a.contains l then a else a ++ [l]) []

/-- One flit for each link that can grant one (R235). -/
def Fab.grants (f : Fab) : List Want :=
  let ws := f.wants
  (distinct (ws.map Want.link)).filterMap (fun l => f.best (ws.filter (fun w => w.link == l)))

/-! ## A cycle -/

/-- A flit gone from where it stood: its buffer's credit returns to the sender, or its source has sent one more. -/
def Fab.leave (f : Fab) (w : Want) : Fab :=
  match w.src with
  | some k => { f with bufs := SMap.set f.bufs [] k (f.buf k).tail, cred := SMap.set f.cred (bufDepth k) k (f.credit k + 1) }
  | none => { f with pkts := f.pkts.map (fun p => if p.id = w.flit.id ∧ p.resp = w.flit.resp then { p with out := p.out + 1 } else p) }

/-- A flit arrived at the end of its link: in the buffer against a credit; or at its NI, where the tail ends the packet. -/
def Fab.enter (f : Fab) (w : Want) : Fab :=
  if linkEject w.link then
    (if w.isTail then { f with pkts := f.pkts.filter (fun p => !(p.id == w.flit.id && p.resp == w.flit.resp)) } else f)
  else
    { f with bufs := SMap.set f.bufs [] w.key (f.buf w.key ++ [w.flit]), cred := SMap.set f.cred (bufDepth w.key) w.key (f.credit w.key - 1) }

/-- A grant noted: who holds the VC and class now, and whose turn it was. -/
def Fab.note (f : Fab) (w : Want) : Fab :=
  { f with
    hold := SMap.set f.hold none w.key (if w.isTail then none else some (w.flit.id, w.flit.resp)),
    lastVc := if w.vc = 1 then f.lastVc else SMap.set f.lastVc 3 w.link w.vc,
    lastIn := if w.flit.ix = 0 then SMap.set f.lastIn 7 w.key w.port else f.lastIn }

/-- Whether the flit stands where it wants to leave, and the buffer it enters has a credit. -/
def Fab.stands (f : Fab) (w : Want) : Bool :=
  (match w.src with | some k => (f.buf k).head? == some w.flit | none => true) && (linkEject w.link || decide (0 < f.credit w.key))

/-- One grant carried out. -/
def Fab.go (f : Fab) (w : Want) : Fab := if f.stands w then ((f.leave w).enter w).note w else f

/-- A cycle of the networks: every link grants one flit at most. With it, the packets whose tail reached their NI. -/
def Fab.cycle (f : Fab) : Fab × List (Nat × Bool) :=
  let gs := f.grants
  (gs.foldl Fab.go f, gs.filterMap (fun w => if linkEject w.link && w.isTail then some (w.flit.id, w.flit.resp) else none))

/-! ## Sending, and what the links hold -/

/-- A packet handed to its first link. -/
def Fab.launch (f : Fab) (p : Pkt) : Fab := { f with pkts := f.pkts ++ [p] }

/-- Whether a packet is still in the network. -/
def Fab.has (f : Fab) (k : Nat × Bool) : Bool := f.pkts.any (fun p => p.id == k.1 && p.resp == k.2)

/-- R253: of every buffer that has flits or lacks credits, the credits with its sender and the flits in it are its depth together. -/
def Fab.conserved (f : Fab) : Prop := ∀ k, f.credit k + (f.buf k).length = bufDepth k

/-- Credits of a link that are not with its sender, by VC: what the network side owes it (R252). -/
def Fab.owed (f : Fab) (l vc : Nat) : Nat :=
  (bufDepth (bufKey l vc 0) - f.credit (bufKey l vc 0)) + (bufDepth (bufKey l vc 1) - f.credit (bufKey l vc 1))

/-- VIA_NI_ESCROW for the link of an NI into the network. -/
def Fab.owedWord (f : Fab) (l : Nat) : Word :=
  BitVec.ofNat 32 (min 15 (f.owed l 0) + 2 ^ 4 * min 15 (f.owed l 1) + 2 ^ 8 * min 15 (f.owed l 2) + 2 ^ 12 * min 15 (f.owed l 3))

end Sys2Proof.Machine
end

