-- ==== Sys2Proof/Machine/Bytes.lean ====
section
/-!
DEFINITION. Byte strings as little-endian numbers, and the codes over them: CRC-32C, SHA-256 (FIPS 180-4), and the BCH codes of the flash
die (R323).
-/

namespace Sys2Proof.Machine

/-! ## Layouts -/

/-- Fields in ascending byte order, each a value and its bytes, little-endian. -/
def pack (fs : List (Nat × Nat)) : Nat :=
  match fs with
  | [] => 0
  | (v, n) :: t => v % 256 ^ n + 256 ^ n * pack t

/-- `n` bytes from offset `off`. -/
def bytesAt (w off n : Nat) : Nat := w / 256 ^ off % 256 ^ n

/-- The `n` bytes of a number, the first first. -/
def toBytes (w n : Nat) : List Nat :=
  match n with
  | 0 => []
  | k + 1 => w % 256 :: toBytes (w / 256) k

/-- Bytes read big-endian. -/
def beNat (bs : List Nat) : Nat := bs.foldl (fun a b => 256 * a + b) 0

/-- `n` bytes of a value, the most significant first. -/
def toBe (v n : Nat) : List Nat := (toBytes v n).reverse

/-- A number of little-endian bytes. -/
def ofBytes (bs : List Nat) : Nat :=
  match bs with
  | [] => 0
  | b :: t => b + 256 * ofBytes t

/-! ## CRC-32C -/

/-- One bit of the reflected CRC with polynomial 0x1EDC6F41. -/
def crcBit (c : Nat) : Nat := if c % 2 = 1 then (c / 2) ^^^ 0x82F63B78 else c / 2
/-- One byte. -/
def crcByte (c b : Nat) : Nat := (List.range 8).foldl (fun x _ => crcBit x) (c ^^^ b)
/-- CRC-32C of a byte string. -/
def crc32c (bs : List Nat) : Nat := (bs.foldl crcByte 0xFFFFFFFF) ^^^ 0xFFFFFFFF

/-! ## SHA-256 -/

/-- The first 64 primes. -/
def shaPrimes : List Nat :=
  [2, 3, 5, 7, 11, 13, 17, 19, 23, 29, 31, 37, 41, 43, 47, 53, 59, 61, 67, 71, 73, 79, 83, 89, 97, 101, 103, 107, 109, 113, 127, 131] ++
  [137, 139, 149, 151, 157, 163, 167, 173, 179, 181, 191, 193, 197, 199, 211, 223, 227, 229, 233, 239, 241, 251, 257, 263, 269, 271,
   277, 281, 283, 293, 307, 311]

/-- The integer `k`-th root of a number, below 2^36. -/
def rootOf (k x : Nat) : Nat :=
  (List.range 36).foldl (fun r i => if (r + 2 ^ (35 - i)) ^ k ≤ x then r + 2 ^ (35 - i) else r) 0

/-- The round constants: 32 bits of the fractions of the primes' cube roots. -/
def shaK : List Nat := shaPrimes.map (fun p => rootOf 3 (p * 2 ^ 96) % 2 ^ 32)

/-- The initial hash value: 32 bits of the fractions of the first eight primes' square roots. -/
def shaInit : List Nat := (shaPrimes.take 8).map (fun p => rootOf 2 (p * 2 ^ 64) % 2 ^ 32)

/-- A right rotation of 32 bits. -/
def rotr32 (x n : Nat) : Nat := x / 2 ^ n + x % 2 ^ n * 2 ^ (32 - n)

/-- The message schedule, the latest word first. -/
def shaExtend (w : List Nat) (n : Nat) : List Nat :=
  match n with
  | 0 => w
  | k + 1 =>
    let a := w.getD 14 0
    let b := w.getD 1 0
    let s0 := rotr32 a 7 ^^^ rotr32 a 18 ^^^ a / 8
    let s1 := rotr32 b 17 ^^^ rotr32 b 19 ^^^ b / 1024
    shaExtend ((w.getD 15 0 + s0 + w.getD 6 0 + s1) % 2 ^ 32 :: w) k

/-- One round on the eight working variables. -/
def shaRound (h : List Nat) (kw : Nat) : List Nat :=
  match h with
  | [a, b, c, d, e, f, g, x] =>
    let s1 := rotr32 e 6 ^^^ rotr32 e 11 ^^^ rotr32 e 25
    let ch := (e &&& f) ^^^ ((e ^^^ 0xFFFFFFFF) &&& g)
    let t1 := x + s1 + ch + kw
    let s0 := rotr32 a 2 ^^^ rotr32 a 13 ^^^ rotr32 a 22
    let mj := (a &&& b) ^^^ (a &&& c) ^^^ (b &&& c)
    [(t1 + s0 + mj) % 2 ^ 32, a, b, c, (d + t1) % 2 ^ 32, e, f, g]
  | _ => h

/-- One 64-byte block. -/
def shaBlock (h : List Nat) (blk : List Nat) : List Nat :=
  let w := (List.range 16).map (fun i => beNat ((blk.drop (4 * i)).take 4))
  let ws := (shaExtend w.reverse 48).reverse
  let r := (List.zipWith (· + ·) shaK ws).foldl shaRound h
  List.zipWith (fun a b => (a + b) % 2 ^ 32) h r

/-- Blocks of a padded message. -/
def shaBlocks (h : List Nat) (m : List Nat) (n : Nat) : List Nat :=
  match n with
  | 0 => h
  | k + 1 => shaBlocks (shaBlock h (m.take 64)) (m.drop 64) k

/-- SHA-256 of a byte string: 32 bytes. -/
def sha256 (m : List Nat) : List Nat :=
  let l := m.length
  let z := (119 - l % 64) % 64
  let p := m ++ [0x80] ++ List.replicate z 0 ++ toBe (8 * l) 8
  (shaBlocks shaInit p (p.length / 64)).flatMap (fun x => toBe x 4)

/-! ## BCH codes (R323) -/

/-- Multiplication in GF(2^14) with x^14 + x^10 + x^6 + x + 1. -/
def gfMul (a b : Nat) : Nat :=
  ((List.range 14).foldl
    (fun (acc : Nat × Nat) i =>
      let r := if b / 2 ^ i % 2 = 1 then acc.1 ^^^ acc.2 else acc.1
      let x := 2 * acc.2
      (r, if 2 ^ 14 ≤ x then x ^^^ 0x4443 else x)) (0, a)).1

/-- A power of a field element. -/
def gfPow (a n : Nat) : Nat := (List.range 14).foldl (fun (acc : Nat × Nat) i =>
  (if n / 2 ^ i % 2 = 1 then gfMul acc.1 acc.2 else acc.1, gfMul acc.2 acc.2)) (1, a) |>.1

/-- Exponents conjugate to `i`: i · 2^k modulo 2^14 − 1. -/
def conjugates (i : Nat) : List Nat := ((List.range 14).map (fun k => i * 2 ^ k % 16383)).dedup

/-- A polynomial over the field (coefficients from the constant term) times (x + r). -/
def timesRoot (p : List Nat) (r : Nat) : List Nat :=
  List.zipWith (· ^^^ ·) (0 :: p) ((p.map (gfMul r)) ++ [0])

/-- The exponents whose powers of α are roots of the generator: those of α^1, α^3, …, α^(2t−1) and their conjugates. -/
def bchRoots (t : Nat) : List Nat := ((List.range t).flatMap (fun k => conjugates (2 * k + 1))).dedup

/-- The generator, as a number whose bit i is the coefficient of x^i. -/
def bchGen (t : Nat) : Nat :=
  (((bchRoots t).foldl (fun p e => timesRoot p (gfPow 2 e)) [1]).mapIdx (fun i c => c % 2 * 2 ^ i)).sum

/-- The remainder by a polynomial `g` of degree `d`, one message bit at a time. -/
def bchStep (g d : Nat) (r : Nat) (bit : Nat) : Nat :=
  let top := r / 2 ^ (d - 1) % 2
  let r := r * 2 % 2 ^ d
  if (top + bit) % 2 = 1 then r ^^^ (g % 2 ^ d) else r

/-- Parity of a codeword: the message bytes taken most significant bit first, the parity in the same order. -/
def bchParity (t : Nat) (m : List Nat) : List Nat :=
  let d := 14 * t
  let g := bchGen t
  let r := m.foldl (fun r b => (List.range 8).foldl (fun r i => bchStep g d r (b / 2 ^ (7 - i) % 2)) r) 0
  toBe r (d / 8)

end Sys2Proof.Machine
end

