-- ==== Sys2Proof/Machine/Packet.lean ====
section
/-!
DEFINITION. Packets as the networks carry them (R226, R231, R243): head flits laid out by their tables, flits, and the checks of R244 on a
packet as it arrives.

Choices and readings of this file: log 99.
-/

namespace Sys2Proof.Machine

/-- A field of a head: its lowest bit, its width, its value. -/
structure PField where
  lo : Nat
  width : Nat
  val : Nat
  deriving DecidableEq, Repr

/-- A head's bits. -/
def packFields (fs : List PField) : Nat := (fs.map (fun f => f.val % 2 ^ f.width * 2 ^ f.lo)).sum

/-- Bits of a flit. -/
def bitsOf (x lo w : Nat) : Nat := x / 2 ^ lo % 2 ^ w

/-! ## Packet types (Table via-10) -/

/-- IN or RD. -/
def tyRead : Nat := 0
/-- OUT or WR_INLINE. -/
def tyWrite : Nat := 1
/-- A bulk write. -/
def tyBulk : Nat := 2
/-- DRD. -/
def tyDrd : Nat := 3
/-- EVENT. -/
def tyEvent : Nat := 4
/-- SYSCAUSE. -/
def tyCause : Nat := 5
/-- SPANFAULT. -/
def tySpanFault : Nat := 6
/-- A read response. -/
def tyData : Nat := 8
/-- A write acknowledgement. -/
def tyAck : Nat := 9
/-- An error response. -/
def tyError : Nat := 15

/-- Whether a Trestle packet of a type may have a LEN. -/
def trestleLen (ty len : Nat) : Bool :=
  if ty = tyWrite ∨ ty = tySpanFault then len == 1
  else if ty = tyBulk ∨ ty = tyData then decide (1 ≤ len) && decide (len ≤ 4)
  else if ty = tyRead ∨ ty = tyDrd ∨ ty = tyEvent ∨ ty = tyCause ∨ ty = tyAck ∨ ty = tyError then len == 0
  else false

/-- Whether a Lattice packet of a type, with its WORDS field, may have a LEN. -/
def latticeLen (ty words len : Nat) : Bool :=
  if ty = tyBulk then len == (words + 8) / 8
  else if ty = tyData then len == (if words = 0 then 0 else (words + 8) / 8)
  else if ty = tyRead ∨ ty = tyWrite ∨ ty = tyAck ∨ ty = tyError then len == 0
  else false

/-! ## Trestle flits (Table via-3, Table via-4) -/

/-- What a Trestle head says. -/
structure THead where
  dest : Nat
  disl : Nat
  src : Nat
  sisl : Nat
  dir : Nat
  hops : Nat
  typ : Nat
  gen : Nat
  tag : Nat
  addr : Nat
  status : Nat
  aux : Nat
  acc : Bool
  bcast : Bool
  deriving DecidableEq, Repr

/-- Its 64 data bits (Table via-4). -/
def THead.data (h : THead) : Nat :=
  packFields [⟨0, 5, h.dest⟩, ⟨5, 2, h.disl⟩, ⟨7, 5, h.src⟩, ⟨12, 2, h.sisl⟩, ⟨14, 1, h.dir⟩, ⟨15, 5, h.hops⟩, ⟨20, 4, h.typ⟩,
    ⟨24, 4, h.gen⟩, ⟨28, 8, h.tag⟩, ⟨36, 16, h.addr⟩, ⟨52, 4, h.status⟩, ⟨56, 6, h.aux⟩, ⟨62, 1, b2n h.acc⟩, ⟨63, 1, b2n h.bcast⟩]

/-- Bits of `x` below `n` that are 1. -/
def onesIn (x n : Nat) : Nat := ((List.range n).filter (fun i => x.testBit i)).length

/-- A Trestle flit, its control bits above its data: HEAD, TAIL, VC, LEN and odd parity over the data and control bits [5:0]. -/
def trestleFlit (data : Nat) (head tail : Bool) (vc len : Nat) : Nat :=
  let low := data % 2 ^ 64 + 2 ^ 64 * packFields [⟨0, 1, b2n head⟩, ⟨1, 1, b2n tail⟩, ⟨2, 1, vc⟩, ⟨3, 3, len⟩]
  low + 2 ^ 70 * ((onesIn low 70 + 1) % 2)

/-- A Trestle packet: the head, then `n` payload flits of 8 bytes. -/
def trestleFlits (h : THead) (vc n payload : Nat) : List Nat :=
  trestleFlit h.data true (n == 0) vc n ::
    (List.range n).map (fun k => trestleFlit (bitsOf payload (64 * k) 64) false (k + 1 == n) vc 0)

/-- Odd parity holds. -/
def parityOk (flit : Nat) : Bool := onesIn flit 71 % 2 == 1

/-- TAIL of a flit. -/
def flitTail (flit : Nat) : Bool := bitsOf flit 65 1 == 1

/-- R244 on a Trestle packet as it arrives. -/
def trestleBad (fs : List Nat) : Bool :=
  match fs with
  | [] => true
  | h :: _ =>
    let len := bitsOf h 67 3
    fs.length != len + 1 || (fs.dropLast).any flitTail || !trestleLen (bitsOf h 20 4) len || !fs.all parityOk

/-! ## Lattice flits (Table via-6) -/

/-- What a Lattice head says. -/
structure LHead where
  vc : Nat
  cls : Nat
  dclass : Nat
  dir0 : Nat
  nt : Nat
  ptr : Nat
  turns : Nat
  dest : Nat
  dport : Nat
  src : Nat
  sport : Nat
  len : Nat
  typ : Nat
  gen : Nat
  tag : Nat
  addr : Nat
  bmask : Nat
  words : Nat
  status : Nat
  inl : Nat
  deriving DecidableEq, Repr

/-- Its 512 bits (Table via-6). -/
def LHead.data (h : LHead) : Nat :=
  packFields [⟨0, 2, h.vc⟩, ⟨2, 1, h.cls⟩, ⟨3, 1, h.dclass⟩, ⟨4, 2, h.dir0⟩, ⟨6, 4, h.nt⟩, ⟨10, 4, h.ptr⟩, ⟨14, 24, h.turns⟩,
    ⟨38, 4, h.dest⟩, ⟨42, 1, h.dport⟩, ⟨43, 4, h.src⟩, ⟨47, 1, h.sport⟩, ⟨48, 3, h.len⟩, ⟨51, 4, h.typ⟩, ⟨55, 4, h.gen⟩,
    ⟨60, 16, h.tag⟩, ⟨76, 32, h.addr⟩, ⟨108, 8, h.bmask⟩, ⟨116, 5, h.words⟩, ⟨121, 4, h.status⟩, ⟨128, 64, h.inl⟩]

/-- A Lattice packet: the head, then LEN data flits of 64 bytes. -/
def latticeFlits (h : LHead) (data : Nat) : List Nat := h.data :: (List.range h.len).map (fun k => bitsOf data (512 * k) 512)

/-- R244 on a Lattice packet as it arrives at local port `port` of router `r`; the form of ADDR is checked at a pier NI's requests. -/
def latticeBad (r port : Nat) (fs : List Nat) : Bool :=
  match fs with
  | [] => true
  | h :: _ =>
    let len := bitsOf h 48 3
    let ty := bitsOf h 51 4
    fs.length != len + 1 || !latticeLen ty (bitsOf h 116 5) len || bitsOf h 38 4 != r ||
      (port == 0 && decide (ty ≤ 2) && (decide (2 ≤ bitsOf h 92 2) || bitsOf h 94 14 != 0))

/-! ## What may befall a packet on its way -/

/-- The flits that arrive where `sent` were sent: all of them, a number of them, or one with a bit inverted. -/
def Damage.apply (d : Damage) (sent : List Nat) : List Nat :=
  match d with
  | .none => sent
  | .flits n => sent.take n ++ List.replicate (n - sent.length) (sent.getLastD 0)
  | .flip k b => sent.set k (sent.getD k 0 ^^^ 2 ^ b)

end Sys2Proof.Machine
end

