-- ==== Sys2Proof/Machine/Net.lean ====
section
/-!
DEFINITION. The Viaduct: NIs and shells (R223, R224, R249 to R252), route entries, their boot set and validation (R237 to R242),
and a request formed (R237, R246, R250).

Choices and readings of this file: log 32, 34, 35, 37, 39, 98, 99.
-/

namespace Sys2Proof.Machine

/-! ## Shells -/

/-- The shell of an island; ABSENT for one the grade lacks (Table via-12). -/
def State.shell (s : State) (isl : Nat) : Shell :=
  if s.grade.hasIsland isl then SMap.get s.net.shells Shell.reset isl else { Shell.reset with st := .absent }
/-- The shell of an island replaced. -/
def State.setShell (s : State) (isl : Nat) (v : Shell) : State :=
  { s with net := { s.net with shells := SMap.set s.net.shells Shell.reset isl v } }
/-- An island ONLINE. -/
def State.online (s : State) (isl : Nat) : Bool := (s.shell isl).st == .online

/-- The islands of a stop in the order of Table arch-3. -/
def stopIslands (stop : Nat) : List Nat :=
  if stop < 20 then [stop]
  else if stop = 20 then [islDisp, islLdr]
  else if stop = 21 then [islFlash, islBoot]
  else if stop = 22 then [islAon, islRing]
  else if stop = 23 then [islConv, islEth, islPanel, islGio]
  else []

/-- The island an NI serves (Table via-1); a Trestle NI by the island's index in its stop's list. -/
def niIsland (ni ix : Nat) : Option Nat :=
  if ni < 16 then some ni
  else if ni < 32 then some (16 + (ni - 16) / 4)
  else if ni < 56 then (stopIslands (ni - 32))[ix]?
  else none

/-- NIs present on a grade (Table via-1). -/
def niPresent (g : Grade) (ni : Nat) : Bool :=
  if ni < 16 then ni < g.routers else if ni < 32 then ni - 16 < g.routers else ni < 56

/-! ## Routes -/

/-- A heading of the Lattice (Table via-6): 0 +x, 1 −x, 2 +y, 3 −y. -/
abbrev Heading := Nat

/-- The heading after a left turn (Table via-8). -/
def leftOf (h : Heading) : Heading := if h = 0 then 2 else if h = 1 then 3 else if h = 2 then 1 else 0
/-- The heading after a right turn. -/
def rightOf (h : Heading) : Heading := if h = 0 then 3 else if h = 1 then 2 else if h = 2 then 0 else 1

/-- Routers in a y ring of the grade (R233); 1 where there are no y links. -/
def Grade.ySize (g : Grade) : Nat := g.routers / 4

/-- One hop from router k: the next router and whether it takes a wrap link; none where the shape has no link. -/
def hop (g : Grade) (k : Nat) (h : Heading) : Option (Nat × Bool) :=
  let x := k % 4
  let y := k / 4
  let n := g.ySize
  if h = 0 then some (4 * y + (x + 1) % 4, x == 3)
  else if h = 1 then some (4 * y + (x + 3) % 4, x == 0)
  else if n = 1 then none
  else if h = 2 then some (x + 4 * ((y + 1) % n), y == n - 1)
  else some (x + 4 * ((y + n - 1) % n), y == 0)

/-- The headings of a shortest walk round one ring of `n`: `pos` when the positive direction has no more hops. -/
def ringWalk (a b n : Nat) (pos neg : Heading) : List Heading :=
  let d := (b + n - a) % n
  if d = 0 then [] else if 2 * d ≤ n then List.replicate d pos else List.replicate (n - d) neg

/-- The turn code from heading `a` to heading `b`. -/
def turnCode (a b : Heading) : Nat := if a = b then 0 else if b = leftOf a then 1 else 2

/-- The codes of a walk, the last being eject. -/
def walkCodes (h : Heading) (hs : List Heading) : List Nat :=
  match hs with
  | [] => [3]
  | h' :: t => turnCode h h' :: walkCodes h' t

/-- Whether a walk traverses a wrap link. -/
def walkWraps (g : Grade) (k : Nat) (hs : List Heading) : Bool :=
  match hs with
  | [] => false
  | h :: t =>
    match hop g k h with
    | none => false
    | some (k', w) => w || walkWraps g k' t

/-- Codes packed two bits each, code 0 lowest. -/
def packCodes (cs : List Nat) : Nat :=
  match cs with
  | [] => 0
  | c :: t => c + 4 * packCodes t

/-- A Lattice entry of the boot route set: router `a` to router `b`, x first (R242). -/
def bootLattice (g : Grade) (a b : Nat) : Word :=
  let hs := ringWalk (a % 4) (b % 4) 4 0 1 ++ ringWalk (a / 4) (b / 4) g.ySize 2 3
  let dir0 := hs.headD 0
  BitVec.ofNat 32
    (dir0 + 4 * (hs.length + 1) + 64 * packCodes (walkCodes dir0 hs) + 2 ^ 30 * b2n (walkWraps g a hs) + 2 ^ 31)

/-- A Trestle entry of the boot route set: stop `a` to stop `b`. -/
def bootTrestle (a b : Nat) : Word :=
  let d := (b + 24 - a) % 24
  BitVec.ofNat 32 ((if d ≤ 12 then 2 * d else 1 + 2 * (24 - d)) + 2 ^ 31)

/-- The boot route set (R242); absent endpoints and entries not implemented are 0, which is invalid. -/
def bootRoute (g : Grade) (ni entry : Nat) : Word :=
  if ni < 32 then
    let d := entry % 32 / 2
    if ni % 16 < g.routers ∧ d < g.routers then bootLattice g (ni % 16) d else 0
  else if entry < 24 then bootTrestle (ni - 32) entry
  else 0

/-- A route entry. -/
def State.route (s : State) (ni entry : Nat) : Word :=
  SMap.get s.net.routes (bootRoute s.grade ni entry) (64 * ni + entry)
/-- A route entry written. -/
def State.setRoute (s : State) (ni entry : Nat) (v : Word) : State :=
  { s with net := { s.net with routes := SMap.set s.net.routes (bootRoute s.grade ni entry) (64 * ni + entry) v } }
/-- VALID. -/
def State.routeOk (s : State) (ni entry : Nat) : Bool := getBits (s.route ni entry) 31 1 == 1

/-- A walk by turn codes: the routers visited in order and whether a wrap link was taken; none for a missing link. -/
def walkRoute (g : Grade) (k : Nat) (h : Heading) (codes : List Nat) : Option (List Nat × Bool) :=
  match codes with
  | [] => some ([], false)
  | c :: t =>
    let h' := if c = 1 then leftOf h else if c = 2 then rightOf h else h
    match hop g k h' with
    | none => none
    | some (k', w) =>
      match walkRoute g k' h' t with
      | none => none
      | some (ks, w') => some (k' :: ks, w || w')

/-- Turn codes of a Lattice entry, `n` of them. -/
def entryCodes (v : Word) (n : Nat) : List Nat := (List.range n).map (fun m => getBits v (6 + 2 * m) 2)

/-- Table via-9 for a Lattice entry: the fault code of the first check that fails, 0 for none. -/
def validateLattice (g : Grade) (ni entry : Nat) (v : Word) : Nat :=
  let nt := getBits v 2 4
  let codes := entryCodes v nt
  if nt = 0 ∨ 12 < nt then 1
  else if (codes.take (nt - 1)).contains 3 || codes.getLastD 0 != 3 then 2
  else
    match walkRoute g (ni % 16) (getBits v 0 2) (codes.take (nt - 1)) with
    | none => 3
    | some (ks, w) =>
      if !(ni % 16 :: ks).Nodup then 4
      else if ks.getLastD (ni % 16) ≠ entry % 32 / 2 then 5
      else if (getBits v 30 1 == 1) != w then 6
      else 0

/-- Table via-9 for a Trestle entry. -/
def validateTrestle (ni entry : Nat) (v : Word) : Nat :=
  let hops := getBits v 1 5
  let s := ni - 32
  if 23 < hops then 1
  else if (if getBits v 0 1 = 0 then (s + hops) % 24 else (s + 24 - hops) % 24) ≠ entry then 5
  else if getBits v 6 25 ≠ 0 then 7
  else 0

/-- Table via-9. -/
def validateRoute (g : Grade) (ni entry : Nat) (v : Word) : Nat :=
  if ni < 32 then validateLattice g ni entry v else validateTrestle ni entry v

/-! ## Requests -/

/-- The island a request is for; none at unassigned IO addresses. -/
def NetOp.island : NetOp → Option Nat
  | .deckRd off _ => some (16 + deckQuarter off)
  | .deckWr off _ _ => some (16 + deckQuarter off)
  | .mboxRd p _ _ => some p
  | .mboxWr p _ _ _ => some p
  | .spadRd p _ _ => some p
  | .spadWr p _ _ _ => some p
  | .ioRd a => islandOf a
  | .ioWr a _ => islandOf a
  | .portRd _ _ flc => some (if flc then islFlash else islConv)
  | .portWr _ _ _ flc => some (if flc then islFlash else islConv)

/-- Bank of the first word a Deck request touches; none for any other. -/
def NetOp.bank : NetOp → Option (Nat × Nat)
  | .deckRd off _ => some (deckQuarter off, deckBank off)
  | .deckWr off _ _ => some (deckQuarter off, deckBank off)
  | _ => none

/-- Whether a request travels on the Lattice (Table via-2). -/
def NetOp.lattice : NetOp → Bool
  | .ioRd _ => false
  | .ioWr _ _ => false
  | .portRd _ _ _ => false
  | .portWr _ _ _ _ => false
  | _ => true

/-- The route entry a request uses (R237): the Lattice endpoint 2k + p, or the destination stop. -/
def NetOp.entry : NetOp → Nat
  | .deckRd off _ => 2 * deckRouter off + 1
  | .deckWr off _ _ => 2 * deckRouter off + 1
  | .mboxRd p _ _ => 2 * p
  | .mboxWr p _ _ _ => 2 * p
  | .spadRd p _ _ => 2 * p
  | .spadWr p _ _ _ => 2 * p
  | op => match op.island with | some i => stopOf i | none => 0

/-- The NI that answers a request, and the entry its response uses: 32 + e on the Lattice, the requester's stop on the
Trestle (R237). -/
def Req.backRoute (r : Req) : Nat × Nat :=
  if r.op.lattice then
    let k := r.entry / 2
    (if r.entry % 2 = 0 then k else 16 + k, 32 + 2 * (r.ni % 16) + (if r.ni < 16 then 0 else 1))
  else (32 + r.entry, r.ni - 32)

/-! ## Paths (R227, R233) -/

/-- The links of a Lattice packet from router `k` with its heading, the turn codes left and its class, to local port `port` (Table via-7). -/
def latticePath (g : Grade) (k : Nat) (h : Heading) (cls port : Nat) (codes : List Nat) : List (Nat × Nat) :=
  match codes with
  | [] => []
  | c :: t =>
    if c = 3 then [(6 * k + 4 + port, cls)]
    else
      let h' := if c = 1 then leftOf h else if c = 2 then rightOf h else h
      match hop g k h' with
      | none => []
      | some (k', w) =>
        let cls' := if w then 1 else if c = 0 then cls else 0
        (6 * k + h', cls') :: latticePath g k' h' cls' port t

/-- The ring links of a Trestle packet: direction, stop, hops left. -/
def ringPath (dir stop hops : Nat) : List (Nat × Nat) :=
  match hops with
  | 0 => []
  | n + 1 => (128 + 2 * stop + dir, 0) :: ringPath dir (if dir = 0 then (stop + 1) % 24 else (stop + 23) % 24) n

/-- An island's index at its stop (Table arch-3). -/
def islIndex (isl : Nat) : Nat := (stopIslands (stopOf isl)).findIdx (fun i => i == isl)

/-- A packet's path from NI `ni` (its island `a` on the Trestle) to endpoint or stop `e` (island `b`), by the content of its entry. -/
def netPath (g : Grade) (lat : Bool) (route : Word) (ni a e b : Nat) : List (Nat × Nat) :=
  if lat then (96 + ni, 0) :: latticePath g (ni % 16) (getBits route 0 2) 0 (e % 2) (entryCodes route (getBits route 2 4))
  else (176 + 4 * (ni - 32) + islIndex a, 0) ::
    (ringPath (getBits route 0 1) (ni - 32) (getBits route 1 5) ++ [(272 + 4 * e + islIndex b, 0)])

/-! ## The packets of a request (Table via-4, Table via-6) -/

/-- Address and bytes of a request. -/
def NetOp.span : NetOp → Nat × Nat
  | .deckRd off n => (off, n)
  | .deckWr off n _ => (off, n)
  | .mboxRd _ off n => (off, n)
  | .mboxWr _ off n _ => (off, n)
  | .spadRd _ off n => (off, n)
  | .spadWr _ off n _ => (off, n)
  | .ioRd a => (a, 4)
  | .ioWr a _ => (a, 4)
  | .portRd a n _ => (a, n)
  | .portWr a n _ _ => (a, n)

/-- The data a request carries. -/
def NetOp.carried : NetOp → Option Nat
  | .deckWr _ _ v => some v
  | .mboxWr _ _ _ v => some v
  | .spadWr _ _ _ v => some v
  | .ioWr _ v => some v.toNat
  | .portWr _ _ v _ => some v
  | _ => none

/-- ADDR of a request: to a pier NI its SPACE stands above the offset. -/
def NetOp.addrField (op : NetOp) : Nat :=
  match op with
  | .mboxRd _ off _ => off + 0x10000
  | .mboxWr _ off _ _ => off + 0x10000
  | op => op.span.1

/-- 8-byte words a request touches; a port's and a page buffer's from the first on. -/
def NetOp.words (op : NetOp) : Nat :=
  if op.lattice then (if op.span.2 = 0 then 0 else (op.span.1 + op.span.2 - 1) / 8 - op.span.1 / 8 + 1) else (op.span.2 + 7) / 8

/-- A request of a DMA channel. -/
def Req.isDma (r : Req) : Bool := match r.who with | .dmaDesc _ _ => true | .dmaRead _ _ _ _ => true | .dmaWrite _ _ _ _ => true | _ => false

/-- Bytes of a Lattice write, none for anything else. -/
def NetOp.latticeWrite : NetOp → Option Nat
  | .deckWr _ n _ => some n
  | .mboxWr _ _ n _ => some n
  | .spadWr _ _ n _ => some n
  | _ => none

/-- Whether a request is a single write of at most 8 bytes (Table via-10). -/
def Req.isInline (r : Req) : Bool := match r.op.latticeWrite with | some n => !r.isDma && decide (n ≤ 8) | none => false

/-- TYPE of a request. -/
def Req.typ (r : Req) : Nat :=
  match r.op with
  | .portRd _ _ _ => tyDrd
  | .portWr _ _ _ _ => tyBulk
  | .ioWr _ _ => tyWrite
  | op => if op.latticeWrite.isSome then (if r.isInline then tyWrite else tyBulk) else tyRead

/-- LEN of a request. -/
def Req.len (r : Req) : Nat :=
  if r.typ = tyBulk then (if r.op.lattice then (r.op.words + 7) / 8 else r.op.words)
  else if r.typ = tyWrite ∧ !r.op.lattice then 1
  else 0

/-- TYPE of a response. -/
def Resp.typ : Resp → Nat
  | .data _ => tyData
  | .ack _ => tyAck
  | _ => tyError

/-- SUB of an error response (R130). -/
def RespErr.status : RespErr → Nat
  | .offline => 1 | .route => 2 | .malformed => 3 | .timeout => 4 | .poison => 5

/-- STATUS of a response. BUSY of a page buffer has no value in Table via-11: 6 here (DESIGN CHOICE). -/
def Resp.status : Resp → Nat
  | .err e => e.status
  | .busy => 6
  | _ => 0

/-- LEN of a response. -/
def Req.backLen (r : Req) (p : Resp) : Nat :=
  match p with
  | .data _ => if r.op.lattice then (if r.op.words ≤ 1 then 0 else (r.op.words + 7) / 8) else r.op.words
  | _ => 0

/-- Data put at their place in their first word. -/
def NetOp.placed (op : NetOp) (v : Nat) : Nat := if op.lattice then v * 256 ^ (op.span.1 % 8) else v

/-- BMASK of a request. -/
def NetOp.bmask (op : NetOp) : Nat := if op.span.2 ≤ 8 then (2 ^ op.span.2 - 1) * 2 ^ (op.span.1 % 8) else 0

/-- The island a request or its response is for on the Trestle. -/
def Req.dstIsl (r : Req) : Nat := r.op.island.getD 0

/-- The request's packet as it arrives: a Lattice head at its eject code, a Trestle head with no hops left. -/
def Req.flits (r : Req) : List Nat :=
  if r.op.lattice then
    latticeFlits
      { vc := r.vc, cls := 0, dclass := getBits r.route 30 1, dir0 := getBits r.route 0 2, nt := getBits r.route 2 4,
        ptr := getBits r.route 2 4, turns := getBits r.route 6 24, dest := r.entry / 2, dport := r.entry % 2, src := r.ni % 16,
        sport := r.ni / 16, len := r.len, typ := r.typ, gen := r.gen, tag := r.tag, addr := r.op.addrField, bmask := r.op.bmask,
        words := r.op.words - 1, status := 0, inl := if r.isInline then r.op.placed (r.op.carried.getD 0) else 0 }
      (r.op.placed (r.op.carried.getD 0))
  else
    trestleFlits
      { dest := r.entry, disl := islIndex r.dstIsl, src := r.ni - 32, sisl := islIndex r.isl, dir := getBits r.route 0 1, hops := 0,
        typ := r.typ, gen := r.gen, tag := r.tag, addr := r.op.addrField, status := 0,
        aux := if r.typ = tyDrd then r.op.words - 1 else 0, acc := false, bcast := false }
      r.vc r.len (r.op.carried.getD 0)

/-- The response's packet as it arrives, sent by entry content `route`. -/
def Req.backFlits (r : Req) (p : Resp) (route : Word) : List Nat :=
  let v := match p with | .data v => v | _ => 0
  if r.op.lattice then
    latticeFlits
      { vc := 1, cls := 0, dclass := getBits route 30 1, dir0 := getBits route 0 2, nt := getBits route 2 4, ptr := getBits route 2 4,
        turns := getBits route 6 24, dest := r.ni % 16, dport := r.ni / 16, src := r.entry / 2, sport := r.entry % 2,
        len := r.backLen p, typ := p.typ, gen := r.gen, tag := r.tag, addr := 0, bmask := 0, words := r.op.words - 1,
        status := p.status, inl := if r.op.words ≤ 1 then r.op.placed v else 0 }
      (r.op.placed v)
  else
    trestleFlits
      { dest := r.ni - 32, disl := islIndex r.isl, src := r.entry, sisl := islIndex r.dstIsl, dir := getBits route 0 1, hops := 0,
        typ := p.typ, gen := r.gen, tag := r.tag, addr := r.op.addrField, status := p.status,
        aux := match p with | .ack c => c | _ => 0, acc := false, bcast := false }
      1 (r.backLen p) v

/-! ## Tags, and a request let in -/

/-- A request on its way. -/
def Req.onWay (r : Req) : Bool := r.sent && r.resp.isNone && !r.lost

/-- The tags an NI has for an island: TAG has 16 bits on the Lattice, 8 on the Trestle. -/
def tagLimit (ni : Nat) : Nat := if ni < 32 then 65536 else 256

/-- The requests whose tags an NI's shell holds for an island (R248): sent, of the present generation, answered or not. -/
def State.tagHolders (s : State) (ni isl : Nat) : List Req :=
  s.net.reqs.filter (fun r => r.sent && r.ni == ni && r.isl == isl && r.gen == (s.shell isl).gen)

/-- Whether a tag is free. -/
def State.tagFree (s : State) (ni isl : Nat) : Bool := decide ((s.tagHolders ni isl).length < tagLimit ni)

/-- The lowest free tag; which one a source takes the spec does not say (DESIGN CHOICE, log 98). -/
def State.newTag (s : State) (ni isl : Nat) : Nat :=
  let ts := s.tagHolders ni isl
  ((List.range (ts.length + 1)).find? (fun t => !(ts.any (fun r => r.tag == t)))).getD 0

/-- A packet put on its first link. -/
def State.launch (s : State) (p : Pkt) : State := { s with net := { s.net with fab := s.net.fab.launch p } }

/-- A request handed to its shell: sent, or answered by the shell itself, OFFLINE for a destination absent on the grade or
unassigned, ROUTE for an invalid entry (R228, R237, R537). -/
def State.letIn (s : State) (r : Req) : Req × State :=
  let here := match r.op.island with | some i => s.grade.hasIsland i | none => false
  let own := { r with held := false, sent := false, back := true }
  if !here then ({ own with resp := some (.err .offline) }, s.incSat Reg.VIA_OFFLINE_CNT.COUNT)
  else if !s.routeOk r.ni r.entry then ({ own with resp := some (.err .route) }, s.incSat Reg.VIA_ROUTE_ERR_CNT.COUNT)
  else
    let r := { r with held := false, sent := true, route := s.route r.ni r.entry, tag := s.newTag r.ni r.isl }
    (r, s.launch ⟨r.id, false, r.vc, r.len + 1, netPath s.grade r.op.lattice r.route r.ni r.isl r.entry r.dstIsl, 0⟩)

/-- The list of requests replaced. -/
def State.setReqs (s : State) (rs : List Req) : State := { s with net := { s.net with reqs := rs } }

/-- A request formed by the core of island `isl` at NI `ni` on VC `vc`; it waits in the core's output while the shell is not
ONLINE or has no free tag (R248, R250). -/
def State.send (s : State) (isl ni vc : Nat) (who : Who) (op : NetOp) : State :=
  let r : Req :=
    { id := s.net.nextId, who := who, op := op, ni := ni, entry := NetOp.entry op, vc := vc, route := 0, tag := 0, sent := false,
      isl := isl, gen := (s.shell isl).gen, resp := none, held := true, stale := false, lost := false, place := .away, back := false }
  let s := { s with net := { s.net with nextId := s.net.nextId + 1 } }
  let q := if s.online isl && s.tagFree ni isl then s.letIn r else (r, s)
  q.2.setReqs (q.2.net.reqs ++ [q.1])

/-- The requests among `rs` that wait in an island's output accepted while there are tags (R248, R250), with its present generation. -/
def State.admitHeld (s : State) (isl : Nat) (rs : List Req) : State :=
  match rs with
  | [] => s
  | r :: t =>
    if r.isl = isl ∧ r.held ∧ s.tagFree r.ni isl then
      let q := s.letIn { r with gen := (s.shell isl).gen }
      (q.2.setReqs (q.2.net.reqs.map (fun x => if x.id = r.id then q.1 else x))).admitHeld isl t
    else s.admitHeld isl t

/-- A delivery dropped at or for pier `p` (R229). -/
def State.dropDelivery (s : State) (p : Nat) : State :=
  (s.incSat Reg.VIA_EV_DROP_CNT.COUNT).setBit Reg.VIA_EV_DROP_PIER.PIER p true

/-- A point-to-point delivery from a stop to a pier (R229): sent only where the route entry of the pier's stop is valid. -/
def State.toPier (s : State) (stop p : Nat) (deliver : State → State) : State :=
  if s.routeOk (32 + stop) p then deliver s else (s.incSat Reg.VIA_ROUTE_ERR_CNT.COUNT).dropDelivery p

/-- NI entries of a pier in use on the Lattice (R48): a tag stays in use while STALE, until its response or the island's next
generation (R248). -/
def State.niInUse (s : State) (p : Nat) : Nat :=
  (s.net.reqs.filter (fun r => r.isl == p && r.ni == p && r.gen == (s.shell p).gen)).length

/-- Whether the pier NI has no entry left (R48). -/
def State.niFull (s : State) (p : Nat) : Bool := 40 ≤ s.niInUse p

/-! ## What a gauge counts (R255, R257, R265, R267) -/

/-- A gauge. -/
def State.gau (s : State) (g : Nat) : Gau := SMap.get s.gauges Gau.reset g
/-- A gauge changed. -/
def State.onGau (s : State) (g : Nat) (f : Gau → Gau) : State :=
  { s with gauges := SMap.set s.gauges Gau.reset g (f (s.gau g)) }

/-- The island of a gauge (R255). -/
def gauIsland (g : Nat) : Nat := if g < 16 then 16 + g / 4 else islRing
/-- A gauge present whose island is ONLINE or still clocked (R267). -/
def State.gauLive (s : State) (g : Nat) : Bool :=
  s.grade.hasIsland (gauIsland g) && (s.shell (gauIsland g)).st != .offline
/-- A counter advanced; the trigger falls due when it crosses THRESH. -/
def State.gauCount (s : State) (g i n : Nat) : State :=
  let old := s.rf (Reg.GAU_CNT.COUNT g i)
  let s := s.incSat (Reg.GAU_CNT.COUNT g i) n
  let t := s.rf (Reg.GAU_TRIG.THRESH g)
  if s.rf (Reg.GAU_TRIG.SRC g) = i + 2 ∧ 0 < t ∧ old < t ∧ t ≤ s.rf (Reg.GAU_CNT.COUNT g i) ∧ !s.on (Reg.GAU_STATUS.TRIGGERED g) then
    s.onGau g (fun x => { x with due := true })
  else s

/-! ## Malformed packets (R244) -/

/-- The gauge of a router or stop counts a packet discarded there, whatever its filter and point (R257). -/
def State.tellGauge (s : State) (g : Nat) : State :=
  if s.gauLive g && s.on (Reg.GAU_CTL.EN g) then s.gauCount g 4 1 else s

/-- The gauge at an NI's router or stop, if there is one (R255). -/
def gaugeAt (ni : Nat) : Option Nat := if ni < 32 then some (ni % 16) else if 48 ≤ ni then some (ni - 32) else none

/-- A packet discarded at an NI. -/
def State.discard (s : State) (ni : Nat) : State :=
  let s := s.incSat Reg.VIA_MALFORMED_CNT.COUNT
  match gaugeAt ni with | some g => s.tellGauge g | none => s

/-- Whether a request's packet is malformed after what befell it; as it was sent it is not. -/
def Req.bad (r : Req) (d : Damage) : Bool :=
  match d with
  | .none => false
  | d => if r.op.lattice then latticeBad (r.entry / 2) (r.entry % 2) (d.apply r.flits) else trestleBad (d.apply r.flits)

/-- Whether its SRC still names the requester. -/
def Req.srcKept (r : Req) (d : Damage) : Bool :=
  match d.apply r.flits with
  | [] => false
  | h :: _ => if r.op.lattice then bitsOf h 43 5 == r.ni else bitsOf h 7 5 == r.ni - 32

/-- Whether a response's packet is malformed after what befell it. -/
def State.backBad (s : State) (r : Req) (p : Resp) (d : Damage) : Bool :=
  match d with
  | .none => false
  | d =>
    let fs := d.apply (r.backFlits p (s.route r.backRoute.1 r.backRoute.2))
    if r.op.lattice then latticeBad (r.ni % 16) (r.ni / 16) fs else trestleBad fs

/-! ## An access made within one command: the Dispatcher's, the DMA's and the Spans' own, and TLI table reads -/

/-- Whether an earlier request from NI `ni` on the same VC, by the same entry content, has not been served at its destination (R46, R236). -/
def State.behind (s : State) (ni vc entry : Nat) : Bool :=
  s.net.reqs.any (fun r => r.ni == ni && r.vc == vc && r.route == s.route ni entry && r.onWay)

/-- Whether an access to a quarter must wait: the quarter initialising (R212). -/
def State.quarterBusy (s : State) (off : Nat) : Bool := s.on (Reg.DECK_STATUS.INIT_BUSY (deckQuarter off))

/-- The error that turns a request away before its destination acts: OFFLINE or ROUTE from the source shell, OFFLINE from the
destination's (R237, R250). -/
def State.turnAway (s : State) (ni : Nat) (op : NetOp) : Option RespErr × State :=
  match op.island with
  | none => (some .offline, s.incSat Reg.VIA_OFFLINE_CNT.COUNT)
  | some i =>
    if !s.grade.hasIsland i then (some .offline, s.incSat Reg.VIA_OFFLINE_CNT.COUNT)
    else if !s.routeOk ni op.entry then (some .route, s.incSat Reg.VIA_ROUTE_ERR_CNT.COUNT)
    else if !s.online i then (some .offline, s.incSat Reg.VIA_OFFLINE_CNT.COUNT)
    else (none, s)

/-- Whether the response to a request from `ni` has a valid entry (R237). -/
def State.backOk (s : State) (ni : Nat) (op : NetOp) : Bool :=
  let lat := op.lattice
  let k := op.entry / 2
  if lat then
    s.routeOk (if op.entry % 2 = 0 then k else 16 + k) (32 + 2 * (ni % 16) + (if ni < 16 then 0 else 1))
  else s.routeOk (32 + op.entry) (ni - 32)

/-- The island of a Lattice NI (R249). -/
def niHome (ni : Nat) : Nat := if ni < 16 then ni else 16 + (ni - 16) / 4

/-- The request of an access made within one command. -/
def State.asReq (s : State) (isl ni vc : Nat) (op : NetOp) : Req :=
  { id := s.net.nextId, who := .engine, op := op, ni := ni, entry := NetOp.entry op, vc := vc, route := s.route ni op.entry,
    tag := s.newTag ni isl, sent := true, isl := isl, gen := (s.shell isl).gen, resp := none, held := false, stale := false,
    lost := false, place := .away, back := false }

/-- A response that never arrives: the requester's own shell times it out, and the tag stays STALE (R248). -/
def State.loseTag (s : State) (r : Req) : State :=
  let s := { s with net := { s.net with nextId := s.net.nextId + 1, reqs := s.net.reqs ++ [{ r with stale := true, lost := true }] } }
  s.incSat Reg.VIA_TIMEOUT_CNT.COUNT

/-- A response lost for want of a route (R237). -/
def State.loseResponse (s : State) (isl ni : Nat) (op : NetOp) : State :=
  (s.incSat Reg.VIA_ROUTE_ERR_CNT.COUNT).loseTag (s.asReq isl ni 0 op)

/-- A request found malformed at its destination: the error its requester receives (R244). -/
def State.malformedEnd (s : State) (r : Req) (d : Damage) : RespErr × State :=
  let s := s.discard r.backRoute.1
  if !r.srcKept d then (.timeout, s.loseTag r)
  else if s.backOk r.ni r.op then (.malformed, s)
  else (.timeout, s.loseResponse r.isl r.ni r.op)

/-- A response sent back: the error where it is lost for want of a route, or malformed on its way (R237, R244). -/
def State.comesBack (s : State) (r : Req) (p : Resp) (b : Damage) : Option RespErr × State :=
  if !s.backOk r.ni r.op then (some .timeout, s.loseResponse r.isl r.ni r.op)
  else if s.backBad r p b then (some .timeout, (s.discard r.ni).loseTag r)
  else match p with
    | .err e => (some e, s)
    | _ => (none, s)

/-- A Deck read from NI `ni` on VC `vc`: the data, or the error its requester receives; `d` befell the request, `b` the response. -/
def State.deckFetch (s : State) (ni vc off n : Nat) (d : Damage := .none) (b : Damage := .none) : (Option Nat × RespErr) × State :=
  match s.turnAway ni (.deckRd off n) with
  | (some e, s) => ((none, e), s)
  | (none, s) =>
    let r := s.asReq (niHome ni) ni vc (.deckRd off n)
    if r.bad d then ((none, (s.malformedEnd r d).1), (s.malformedEnd r d).2)
    else
      let q := s.deckRead off n
      let c := q.2.comesBack r (match q.1 with | some v => .data v | none => .err .poison) b
      match c.1, q.1 with
      | none, some v => ((some v, .poison), c.2)
      | some e, _ => ((none, e), c.2)
      | none, none => ((none, .poison), c.2)

/-- Writes within one Deck word from NI `ni` on VC `vc`, one access at the bank (R206): the error its requester receives, if any. -/
def State.deckSendMany (s : State) (ni vc w : Nat) (ps : List (Nat × Nat × Nat)) (d : Damage := .none) (b : Damage := .none) :
    Option RespErr × State :=
  match s.turnAway ni (.deckWr (8 * w) 8 0) with
  | (some e, s) => (some e, s)
  | (none, s) =>
    let r := s.asReq (niHome ni) ni vc (.deckWr (8 * w) 8 0)
    if r.bad d then (some (s.malformedEnd r d).1, (s.malformedEnd r d).2)
    else
      let q := s.deckWriteMany w ps
      q.2.comesBack r (if q.1 then .err .poison else .ack 0) b

/-- A Deck write from NI `ni` on VC `vc`: the error its requester receives, if any. -/
def State.deckSend (s : State) (ni vc off n v : Nat) (d : Damage := .none) (b : Damage := .none) : Option RespErr × State :=
  match s.turnAway ni (.deckWr off n v) with
  | (some e, s) => (some e, s)
  | (none, s) =>
    let r := s.asReq (niHome ni) ni vc (.deckWr off n v)
    if r.bad d then (some (s.malformedEnd r d).1, (s.malformedEnd r d).2)
    else
      let q := s.deckWrite off n v
      q.2.comesBack r (if q.1 then .err .poison else .ack 0) b

end Sys2Proof.Machine
end

