-- ==== Sys2Proof/Machine/Ledger.lean ====
section
/-!
DEFINITION. The energy ledger (spec/12, R303, R306 to R308), and the signals of one block to another: recorder triggers (Table rec-3)
and mute sources of the abutment (R461).

Choices and readings of this file: log 27, 47, 59, 92.
-/

namespace Sys2Proof.Machine

/-! ## Signals -/

/-- A trigger source of the recorder signals (Table rec-3). -/
def State.trigger (s : State) (src : Nat) : State := { s with trigs := s.trigs ++ [src] }

/-- A change of the Load-rating unit. -/
def State.onLdr (s : State) (f : Ldr → Ldr) : State := { s with ldr := f s.ldr }

/-! ## The ledger -/

/-- AVAIL, signed (R303). -/
def State.avail (s : State) : Int := sInt 32 (s.rf Reg.LDR_AVAIL.EQ)
/-- The lowest AVAIL below 0 recorded. -/
def State.noteMin (s : State) : State :=
  if s.avail < min 0 (sInt 32 (s.rf Reg.LDR_DEBT_MIN.EQ)) then s.wf Reg.LDR_DEBT_MIN.EQ (s.rf Reg.LDR_AVAIL.EQ) else s
/-- AVAIL changed by an amount. -/
def State.addAvail (s : State) (d : Int) : State := (s.wf Reg.LDR_AVAIL.EQ (uNat 32 (s.avail + d))).noteMin
/-- A term of the ledger changed by an amount, modulo 2^32. -/
def State.addTerm (s : State) (f : Fd) (d : Int) : State := s.wf f (uNat 32 ((s.rf f : Int) + d))

/-- A debt or an overrun recorded (R307, R308): LDR_LAST_EXC, LDR_DEBT with its SUB, the recorder's trigger. The EINFO of LDR_DEBT
is the job's tag and slot. -/
def State.ldrException (s : State) (tag slot kind sub : Nat) : State :=
  let s := s.wf Reg.LDR_LAST_EXC.TAG tag
  let s := s.wf Reg.LDR_LAST_EXC.SLOT slot
  let s := s.wf Reg.LDR_LAST_EXC.KIND kind
  let s := s.cause .debt (BitVec.ofNat 32 (tag % 65536 + 65536 * (slot % 256))) sub
  s.trigger 3

/-- The scaled cost e (R306): ⌈ENERGY × OPSCALE / 1024⌉ at the point in effect. -/
def State.scaledCost (s : State) (energy : Nat) : Nat :=
  (energy * s.rf (Reg.LDR_OPSCALE.SCALE (s.rf Reg.SPLL_STATUS.OP)) + 1023) / 1024

/-- The greatest reservation of a class (R306). -/
def State.resLimit (s : State) (cls : Nat) : Nat :=
  if cls = 0 then s.rf Reg.LDR_CAP.CAPACITY + s.rf Reg.LDR_POLICY.DEBT_LIMIT
  else s.rf Reg.LDR_CAP.CAPACITY - s.rf Reg.LDR_POLICY.C0_FLOOR

/-- The reservation r of a job (R306). -/
def State.reservation (s : State) (cls energy : Nat) : Nat := min (s.scaledCost energy) (s.resLimit cls)

/-- Whether a reservation fits (R309). -/
def State.fits (s : State) (cls r : Nat) : Bool :=
  if cls = 0 then decide (-(s.rf Reg.LDR_POLICY.DEBT_LIMIT : Int) ≤ s.avail - r)
  else decide ((s.rf Reg.LDR_POLICY.C0_FLOOR : Int) ≤ s.avail - r)

/-- A job reserved at its admission (R306, R308). -/
def State.reserve (s : State) (cls energy tag slot : Nat) : State :=
  let r := s.reservation cls energy
  let s := if r < s.scaledCost energy then s.wf Reg.LDR_STATUS.CLIPPED 1 else s
  let s := s.addAvail (-(r : Int))
  let s := s.addTerm Reg.LDR_RESERVED.EQ r
  if s.avail < 0 then
    let s := s.wf Reg.LDR_STATUS.DEBT 1
    let s := s.incSat Reg.LDR_DEBT_CNT.DEBTS
    s.ldrException tag slot 0 1
  else s

/-- A reservation `r` of cost `e` reconciled with the measured energy `m` (R307). -/
def State.reconcile (s : State) (r e m tag slot : Nat) : State :=
  let s := s.addTerm Reg.LDR_RESERVED.EQ (-(r : Int))
  let s := s.addTerm Reg.LDR_SPENT.EQ m
  let s := s.addAvail ((r : Int) - m)
  if e + s.rf Reg.LDR_TOL.TOL < m then
    let s := s.wf Reg.LDR_STATUS.OVERRUN 1
    let s := s.incSat Reg.LDR_DEBT_CNT.OVERRUNS
    s.ldrException tag slot 1 2
  else s

/-- The measured energy of a job in EQ (R305): the raw estimate in nJ times TRIM, rounded down. -/
def State.measured (s : State) (raw : Nat) : Nat := raw * s.rf Reg.LDR_TRIM.TRIM / 16384 / 1000

end Sys2Proof.Machine
end

