-- ==== Sys2Proof/Machine/Abutment.lean ====
section
/-!
DEFINITION. The abutment (R457 to R464): the mute latches, their sources and the release.

Choices and readings of this file: log 77, 92.
-/

namespace Sys2Proof.Machine

/-- Refusal with a reason of R464. -/
def abtRefuse : RefuseAt := ⟨Reg.ABT_STATUS.REFUSED, some Reg.ABT_STATUS.REASON, some (Reg.ABT_EVCFG.REFUSE_EVENT, Reg.ABT_EVCFG.REFUSE_EN)⟩

/-- ABT_SRC_LIVE (Table cvp-4). -/
def State.srcLive (s : State) : Nat :=
  s.ovrIn.toNat + 2 ^ 16 * b2n (!s.estopN) + 2 ^ 17 * s.rf Reg.LDR_STATUS.TRIP + 2 ^ 18 * s.rf Reg.WDT_STATUS.STAGE1 +
    2 ^ 19 * s.rf Reg.ABT_CTL.FW_MUTE

/-- ABT_QUIET (R463): 0 while a source is live. -/
def State.abtQuiet (s : State) : Nat := if s.srcLive ≠ 0 then 0 else min 65535 (s.quietUs / 1000)
/-- ABT_STATUS as read. -/
def State.abtStatusView (s : State) : Word :=
  putBits (s.reg Reg.ABT_STATUS_at) 3 1 (b2n (decide (s.rf Reg.ABT_HOLD.MS ≤ s.abtQuiet)))
/-- The latches set by outputs of `m0` and `m1`, and source bit `src` latched (R458, R460). -/
def State.latch (s : State) (src : Nat) (m0 m1 : Bool) : State :=
  let clear := !s.on Reg.ABT_STATUS.MUTE_0 && !s.on Reg.ABT_STATUS.MUTE_1
  let s := if m0 then s.wf Reg.ABT_STATUS.MUTE_0 1 else s
  let s := if m1 then s.wf Reg.ABT_STATUS.MUTE_1 1 else s
  if s.bit Reg.ABT_SRC_LATCH.SRC src then s.notQuiet
  else { (s.setBit Reg.ABT_SRC_LATCH.SRC src true) with abtNew := s.abtNew ++ [(src, clear)] }.notQuiet

/-- POR and SYS reset (R459): both latches set, RESET latched. -/
def State.latchReset (s : State) : State :=
  let s := s.wf Reg.ABT_STATUS.MUTE_0 1
  let s := s.wf Reg.ABT_STATUS.MUTE_1 1
  (s.setBit Reg.ABT_SRC_LATCH.SRC 20 true).notQuiet

/-- The oldest newly latched bit synchronised (R460, steps 1 to 4). -/
def State.syncSource (s : State) : State :=
  match s.abtNew with
  | [] => s
  | (_, fresh) :: t =>
    let s := { s with abtNew := t }
    let s := s.incSat Reg.ABT_TRIP_CNT.COUNT
    let s := if fresh then s.wf Reg.ABT_TRIP_US.US s.us else s
    let s := s.cause .abutment (s.reg Reg.ABT_SRC_LATCH_at)
    s.trigger 0

/-- Whether a clocked source's condition is true (R461). -/
def State.clockedOn (s : State) (src : Nat) : Bool := s.srcLive / 2 ^ src % 2 == 1

/-- ABT_RELEASE written (R463), judged in the order KEY, NOT_MUTED, SOURCE_LIVE, HOLD. -/
def State.release (s : State) (v : Word) : WRes :=
  if getBits v 0 16 ≠ 0x3C5A then s.refused abtRefuse 4
  else if !s.on Reg.ABT_STATUS.MUTE_0 && !s.on Reg.ABT_STATUS.MUTE_1 then s.refused abtRefuse 3
  else if s.srcLive ≠ 0 ∨ !s.abtNew.isEmpty then s.refused abtRefuse 1
  else if s.abtQuiet < s.rf Reg.ABT_HOLD.MS then s.refused abtRefuse 2
  else .ok (((s.wf Reg.ABT_STATUS.MUTE_0 0).wf Reg.ABT_STATUS.MUTE_1 0).wf Reg.ABT_SRC_LATCH.SRC 0)

/-- A write at an abutment address (R464). -/
def State.abtWrite (s : State) (src : Src) (a : Nat) (v : Word) : WRes :=
  let lockOk := !s.on Reg.ABT_CTL.LOCK
  let s := if s.srcLive ≠ 0 then s.notQuiet else s
  if src = .fobex ∧ a ≠ Reg.ABT_STATUS_at then s.refused abtRefuse 7
  else if a = Reg.ABT_RELEASE_at then s.release v
  else if a = Reg.ABT_HOLD_at ∧ lockOk ∧ (getBits v 0 14 < 10 ∨ 10000 < getBits v 0 14) then s.refused abtRefuse 6
  else
    let r := s.writeOr ⟨lockOk, true, true⟩ abtRefuse 5 a v
    if r.st.srcLive ≠ 0 then ⟨r.st.notQuiet, r.code⟩ else r

/-! ## Commands -/

/-- ABUTMENT_TRIP (R458): OVR_IN_i goes high, or ESTOP_N (16) goes low. -/
def execAbutmentTrip (src : Fin 17) (s : State) : Host.Outcome State Fault Refusal :=
  .next (if src.val = 16 then { s with estopN := false }.latch 16 true true
    else { s with ovrIn := s.ovrIn ||| BitVec.ofNat 16 (2 ^ src.val) }.latch src.val (s.bit Reg.ABT_OVR_EN.TO_0 src.val)
      (s.bit Reg.ABT_OVR_EN.TO_1 src.val))

/-- SOURCE_LATCH_SYNC (R460): the oldest newly latched bit reaches the AON clock. -/
def execSourceLatchSync (s : State) : Host.Outcome State Fault Refusal := .next s.syncSource

/-- CLOCKED_MUTE_SOURCE (R461): THERMAL (0), WDT (1) or FW (2) true at an AON cycle. -/
def execClockedMuteSource (k : Fin 3) (s : State) : Host.Outcome State Fault Refusal :=
  .next (if s.clockedOn (17 + k.val) then s.latch (17 + k.val) true true else s)

/-- ABT_RELEASE (R463): ABT_RELEASE written. -/
def execAbtRelease (src : Src) (v : Word) (s : State) : Host.Outcome State Fault Refusal :=
  .next (s.abtWrite src Reg.ABT_RELEASE_at v).st

/-- ABUTMENT_SOURCE_CLEAR (R463): OVR_IN_i falls, or ESTOP_N (16) returns high. -/
def execAbutmentSourceClear (src : Fin 17) (s : State) : Host.Outcome State Fault Refusal :=
  .next (if src.val = 16 then { s with estopN := true }.notQuiet
    else { s with ovrIn := s.ovrIn &&& ~~~ (BitVec.ofNat 16 (2 ^ src.val)) }.notQuiet)

end Sys2Proof.Machine
end

