-- ==== Sys2Proof/Machine/Disp.lean ====
section
/-!
DEFINITION. The Dispatcher (spec/07): job descriptors, slots and dependencies (R192 to R198), the end of a job (R199, R202), submission
(R193), and DISP_ABORT (R201).

Choices and readings of this file: log 18, 24, 25, 28.
-/

namespace Sys2Proof.Machine

/-! ## Job descriptors (Table job-8) -/

/-- A word of a descriptor. -/
def jw (d : List Word) (i : Nat) : Word := d.getD i 0
/-- PROG. -/
def jProg (d : List Word) : Nat := (jw d 0).toNat
/-- SDT. -/
def jSdt (d : List Word) : Nat := (jw d 1).toNat
/-- STATUS. -/
def jStatus (d : List Word) : Nat := (jw d 2).toNat
/-- ENERGY. -/
def jEnergy (d : List Word) : Nat := getBits (jw d 3) 0 24
/-- A field of CTRL. -/
def jCtrl (d : List Word) (lo w : Nat) : Nat := getBits (jw d 4) lo w
/-- CLASS. -/
def jClass (d : List Word) : Nat := jCtrl d 0 2
/-- Whether SPANS permits Span `n`. -/
def jSpan (d : List Word) (n : Nat) : Bool := jCtrl d 4 4 == 0 || jCtrl d (4 + n) 1 == 1
/-- Whether the job carries tag `b` (TAGEN, DTAG). -/
def jCarries (d : List Word) (b : Nat) : Bool := jCtrl d 13 1 == 1 && jCtrl d 8 5 == b
/-- BAR. -/
def jBar (d : List Word) : Bool := jCtrl d 14 1 == 1
/-- DEPF. -/
def jDepf (d : List Word) : Bool := jCtrl d 15 1 == 1
/-- EVENT. -/
def jEvent (d : List Word) : Nat := jCtrl d 16 6
/-- EVEN. -/
def jEven (d : List Word) : Bool := jCtrl d 22 1 == 1
/-- TRAP. -/
def jTrap (d : List Word) : Bool := jCtrl d 23 1 == 1
/-- WAIT has bit `b`. -/
def jWaits (d : List Word) (b : Nat) : Bool := getBits (jw d 5) b 1 == 1
/-- Job tag. -/
def jTag (d : List Word) : Nat := getBits (jw d 6) 0 16
/-- FEN. -/
def jFen (d : List Word) : Nat := getBits (jw d 7) 0 5
/-- XTABk. -/
def jXtab (d : List Word) (k : Nat) : Word := jw d (8 + k % 4)

/-- STATUS aligned and within the Deck. -/
def jStatusOk (g : Grade) (d : List Word) : Bool := jStatus d % 16 == 0 && jStatus d + 16 ≤ g.deckBytes
/-- BADDESC (Table job-9): a reserved field nonzero, or STATUS, SDT or PROG misaligned or outside the Deck. -/
def jBad (g : Grade) (d : List Word) : Bool :=
  getBits (jw d 3) 24 8 != 0 || jCtrl d 2 2 != 0 || jCtrl d 28 4 != 0 || getBits (jw d 6) 16 16 != 0 ||
  getBits (jw d 7) 5 27 != 0 || (d.drop 12).any (fun w => w != 0) || !jStatusOk g d ||
  jSdt d % 64 != 0 || g.deckBytes ≤ jSdt d || jProg d % 8 != 0 || g.deckBytes ≤ jProg d

/-! ## Slots -/

/-- A slot. -/
def State.slot (s : State) (k : Nat) : Slot := SMap.get s.slots Slot.none k
/-- A slot replaced. -/
def State.setSlot (s : State) (k : Nat) (v : Slot) : State := { s with slots := SMap.set s.slots Slot.none k v }
/-- The job of a Span. -/
def State.span (s : State) (q : Nat) : Option SJob := SMap.get s.spans none q
/-- The job of a Span replaced. -/
def State.setSpan (s : State) (q : Nat) (v : Option SJob) : State := { s with spans := SMap.set s.spans none q v }
/-- The running job of a Span changed. -/
def State.onSpan (s : State) (q : Nat) (f : SJob → SJob) : State := s.setSpan q ((s.span q).map f)

/-- A Span present whose Q island is online and not about to leave (R197, R198). -/
def State.spanUsable (s : State) (q : Nat) : Bool := s.online (16 + q) && (s.shell (16 + q)).action.isNone
/-- Spans a job may run on (R197). -/
def State.spansFor (s : State) (d : List Word) : List Nat := (List.range 4).filter (fun q => jSpan d q && s.spanUsable q)
/-- The Span a job is admitted to: the lowest-numbered permitted idle one. -/
def State.idleSpan (s : State) (d : List Word) : Option Nat := (s.spansFor d).find? (fun q => (s.span q).isNone)
/-- The lowest-numbered FREE slot. -/
def State.freeSlot (s : State) : Option Nat := (List.range 256).find? (fun k => (s.slot k).st == .free)
/-- Slots in a state. -/
def State.slotCount (s : State) (p : SlotState → Bool) : Nat := ((List.range 256).filter (fun k => p (s.slot k).st)).length

/-- Whether a job with descriptor `d` waits on the earlier job of slot `u` (R196). -/
def Slot.holds (u : Slot) (d : List Word) : Bool :=
  u.st != .free && ((List.range 32).any (fun b => jWaits d b && jCarries u.desc b) || jBar u.desc || jBar d)

/-- DISP_COUNT as read (R195). -/
def State.dispCount (s : State) : Word :=
  BitVec.ofNat 32 (s.slotCount (· == .free) + 2 ^ 9 * s.slotCount (fun x => x == .waiting || x == .ready) +
    2 ^ 18 * s.slotCount (· == .running))
/-- DISP_SLOT_VIEW as read; a FREE slot shows 0. -/
def State.slotView (s : State) : Word :=
  let u := s.slot (s.rf Reg.DISP_SLOT_SEL.SLOT)
  let code := match u.st with | .free => 0 | .waiting => 1 | .ready => 2 | .running => 3
  if u.st = .free then 0
  else BitVec.ofNat 32 (code + 4 * jClass u.desc + 16 * (if u.st = .running then u.span else 0) + 64 * u.thr.pier.val +
    1024 * u.thr.th.val + 65536 * jTag u.desc)

/-! ## Deck access of the Dispatcher (R31, R225) -/

/-- The Dispatcher's NI for an offset: the Deck group NI at L(g), g the target's bank group. -/
def dispNi (off : Nat) : Nat := 16 + deckGroup off

/-- Whether the Dispatcher's access must wait: the quarter initialising (R212), or DMA requests before it on its way (R31, R236). -/
def State.dispWaits (s : State) (off : Nat) : Bool :=
  s.quarterBusy off || s.behind (dispNi off) 3 (NetOp.entry (.deckRd off 8))

/-- Whether a status word of the Dispatcher's must wait. -/
def State.statusWaits (s : State) (d : List Word) : Bool := s.dispWaits (jStatus d) || s.dispWaits (jStatus d + 8)

/-- `n` 8-byte words from an offset, the first error ending the read. -/
def State.dispRead (s : State) (off n : Nat) : Option (List Word) × State :=
  match n with
  | 0 => (some [], s)
  | n + 1 =>
    let r := s.deckFetch (dispNi off) 3 off 8
    match r.1.1 with
    | none => (none, r.2)
    | some v =>
      let q := r.2.dispRead (off + 8) n
      (q.1.map (fun t => BitVec.ofNat 32 v :: BitVec.ofNat 32 (v / 2 ^ 32) :: t), q.2)

/-- The status word written by the Dispatcher, its second half first (R199); true when both writes succeeded. -/
def State.dispStatus (s : State) (off w0 w1 : Nat) : Bool × State :=
  let r := s.deckSend (dispNi (off + 8)) 3 (off + 8) 8 0
  let q := r.2.deckSend (dispNi off) 3 off 8 (w0 + 2 ^ 32 * w1)
  (r.1.isNone && q.1.isNone, q.2)

/-! ## The end of a job (R196, R199, R202) -/

/-- End states (Table job-11). -/
def endDone : Nat := 1
/-- FAULT. -/
def endFault : Nat := 2
/-- ABORTED. -/
def endAborted : Nat := 3
/-- CANCELLED. -/
def endCancelled : Nat := 4
/-- REFUSED. -/
def endRefused : Nat := 5
/-- Fault DEP (Table job-13). -/
def faultDep : Nat := 0x10
/-- Fault OFFLINE. -/
def faultOffline : Nat := 6

/-- SPAN_FAULT sent from a stop to a thread (R135, R229): its EINFO is the job tag and slot. -/
def State.sendSpanFault (s : State) (stop : Nat) (th : Thr) (tag slot : Nat) : State :=
  s.toPier stop th.pier.val (fun s =>
    { s with net := { s.net with
        spanFaults := s.net.spanFaults ++ [(th, BitVec.ofNat 32 (tag % 65536 + 65536 * (slot % 256)))] } })

/-- A status word lost (R202). -/
def State.swLost (s : State) (slot tag : Nat) : State :=
  ((s.wf Reg.DISP_STATUS.SWLOST 1).wf Reg.DISP_SWLOST_INFO.SLOT slot).wf Reg.DISP_SWLOST_INFO.TAG tag

/-- A completed job leaves every other job's dependencies (R196). -/
def closeDeps (m : SMap Slot) (k : Nat) (bad : Bool) : SMap Slot :=
  m.map (fun e =>
    if e.2.deps.contains k then
      (e.1, { e.2 with deps := e.2.deps.filter (fun x => x != k), depBad := e.2.depBad || bad })
    else e)

/-- What follows the commit of slot `k`'s status word (R199, R202): the event, SPAN_FAULT from the stop of who ended it, and the slot FREE; `ok` tells whether
the word was written. -/
def State.afterStatus (s : State) (stop k endState : Nat) (ok : Bool) : State :=
  let u := s.slot k
  let s := if jEven u.desc then s.raise (jEvent u.desc) else s
  let s := if jTrap u.desc && (endState == endFault || endState == endCancelled) then s.sendSpanFault stop u.thr (jTag u.desc) k else s
  let s := if ok then s else s.swLost k (jTag u.desc)
  let s := s.setSlot k Slot.none
  { s with slots := closeDeps s.slots k (endState != endDone) }

/-- A job ended by the Dispatcher before its admission (Table job-11). -/
def State.dispEnd (s : State) (k endState fault : Nat) : State :=
  let u := s.slot k
  let r := s.dispStatus (jStatus u.desc) (endState + 16 * fault + 65536 * jTag u.desc) (2 ^ 24 * k)
  r.2.afterStatus 20 k endState r.1

/-- Whether a WAITING job whose dependencies have closed is to be CANCELLED with fault DEP (R196). -/
def Slot.depEnds (u : Slot) : Bool := jDepf u.desc && u.depBad

/-- A WAITING slot whose dependencies have all closed, and whose status word, if one is due, can be written. -/
def State.closedSlot (s : State) : Option Nat :=
  (List.range 256).find? (fun k =>
    (s.slot k).st == .waiting && (s.slot k).deps.isEmpty && !((s.slot k).depEnds && s.statusWaits (s.slot k).desc))

/-- Every WAITING job whose dependencies have closed becomes READY, or is CANCELLED with fault DEP (R196); a cancellation closes
others in turn. -/
def State.settleDeps (s : State) (fuel : Nat) : State :=
  match fuel with
  | 0 => s
  | fuel + 1 =>
    match s.closedSlot with
    | none => s
    | some k =>
      let u := s.slot k
      (if u.depEnds then s.dispEnd k endCancelled faultDep
       else s.setSlot k { u with st := .ready }).settleDeps fuel

/-- Slots that can settle: each leaves WAITING once. -/
def settleFuel : Nat := 256

/-- The queued jobs left with no Span cancelled with fault OFFLINE, slot `k` on, `n` of them (R198). -/
def State.cancelOrphans (s : State) (k n : Nat) : State :=
  match n with
  | 0 => s
  | n + 1 =>
    let u := s.slot k
    (if (u.st == .waiting || u.st == .ready) && (s.spansFor u.desc).isEmpty && !s.statusWaits u.desc then s.dispEnd k endCancelled faultOffline
     else s).cancelOrphans (k + 1) n

/-- R198, second step; an orphan whose status word must wait ends when it can be written. -/
def State.dropOrphans (s : State) : State := (s.cancelOrphans 0 256).settleDeps settleFuel

/-! ## Submission (R193, R194) -/

/-- Refusal reasons (Table job-9, DISP_REFUSE_INFO). -/
def rFull : Nat := 1
/-- BADDESC. -/
def rBadDesc : Nat := 2
/-- SPAN. -/
def rSpan : Nat := 3
/-- READ. -/
def rRead : Nat := 4
/-- ADDR. -/
def rAddr : Nat := 5
/-- SOURCE. -/
def rSource : Nat := 6
/-- ABORT_NONE. -/
def rAbortNone : Nat := 7
/-- ABORT_MODE. -/
def rAbortMode : Nat := 8

/-- Where the Dispatcher shows refusals. -/
def dispRefuse : RefuseAt :=
  ⟨Reg.DISP_STATUS.REFUSED, some Reg.DISP_REFUSE_INFO.REASON, some (Reg.DISP_STATUS.REFUSE_EVENT, Reg.DISP_STATUS.REFUSE_EVENT_EN)⟩

/-- A refused submission or abort recorded with its source and value. -/
def State.dispRefused (s : State) (src : Src) (v : Word) (reason : Nat) : State :=
  let s := s.refuse dispRefuse reason
  let s := s.wf Reg.DISP_REFUSE_INFO.PIER (match src with | .pier t => t.pier.val | _ => 0)
  let s := s.wf Reg.DISP_REFUSE_INFO.THREAD (match src with | .pier t => t.th.val | _ => 0)
  let s := s.wf Reg.DISP_REFUSE_INFO.FOBEX (b2n (src == .fobex))
  let s := s.wf Reg.DISP_REFUSE_INFO.NONPIER (b2n (src == .keystone || src == .debug))
  let s := s.wf Reg.DISP_REFUSE_ADDR.VALUE v.toNat
  s.incSat Reg.DISP_REFUSE_CNT.COUNT

/-- A refusal with a REFUSED status word and the job's event. -/
def State.refuseJob (s : State) (src : Src) (v : Word) (reason : Nat) (d : List Word) : State :=
  let s := s.dispRefused src v reason
  let r := s.dispStatus (jStatus d) (endRefused + 16 * (0x10 + reason) + 65536 * jTag d) 0
  let s := if r.1 then r.2 else r.2.swLost 0 (jTag d)
  if jEven d then s.raise (jEvent d) else s

/-- A job accepted into slot `k` (R193, R196). -/
def State.accept (s : State) (th : Thr) (d : List Word) (k : Nat) : State :=
  let deps := (List.range 256).filter (fun u => (s.slot u).holds d)
  let s := s.setSlot k ⟨if deps.isEmpty then .ready else .waiting, s.accepted, d, th, 0, deps, false, 0, 0, 0⟩
  { s with accepted := s.accepted + 1 }.incWrap Reg.DISP_SUBMIT_CNT.COUNT

/-- A submission by a pier thread of the descriptor `d` it names, in the order BADDESC, SPAN, FULL. -/
def State.submitDesc (s : State) (th : Thr) (v : Word) (d : List Word) : WRes :=
  if jBad s.grade d then
    ⟨if jStatusOk s.grade d then s.refuseJob (.pier th) v rBadDesc d else s.dispRefused (.pier th) v rBadDesc, 3⟩
  else if (s.spansFor d).isEmpty then ⟨s.refuseJob (.pier th) v rSpan d, 3⟩
  else
    match s.freeSlot with
    | none => ⟨s.refuseJob (.pier th) v rFull d, 3⟩
    | some k => .ok (s.accept th d k)

/-- DISP_SUBMIT written (R193, R194). -/
def State.submit (s : State) (src : Src) (v : Word) : WRes :=
  match src with
  | .pier th =>
    if v.toNat % 64 ≠ 0 ∨ s.grade.deckBytes ≤ v.toNat then ⟨s.dispRefused src v rAddr, 3⟩
    else
      let r := s.dispRead v.toNat 8
      match r.1 with
      | none => ⟨r.2.dispRefused src v rRead, 3⟩
      | some d => r.2.submitDesc th v d
  | _ => ⟨s.dispRefused src v rSource, 3⟩

/-- Whether a submission of the descriptor at `v` must wait for its reads, or for the status word of a refusal. -/
def State.submitWaits (s : State) (v : Word) : Bool :=
  v.toNat % 64 == 0 && decide (v.toNat < s.grade.deckBytes) &&
    (s.dispWaits v.toNat ||
     (let d : List Word := [0, 0, BitVec.ofNat 32 (s.deckPeek (v.toNat + 8) 4)]
      jStatusOk s.grade d && s.statusWaits d))

/-! ## Abort (R201) -/

/-- The group whose elements are computed next, or whose fault is to be taken. -/
def SJob.current (j : SJob) : Option SGroup := j.groups.find? (fun g => g.fault.isSome || decide (g.nxt < g.n))
/-- The fault the job is to end with has been found (R173). -/
def SJob.faulting (j : SJob) : Bool := j.current.any (fun g => g.fault.isSome)

/-- Whether the job of a slot can be aborted: not FREE, and its Span neither draining for a fault nor ending nor aborting
already. -/
def State.abortable (s : State) (k : Nat) : Bool :=
  let u := s.slot k
  match u.st with
  | .free => false
  | .running =>
    match s.span u.span with
    | none => false
    | some j => !j.aborting && j.ended.isNone && !j.faulting
  | _ => true

/-- The job of a slot aborted: the Span drains, or the Dispatcher writes ABORTED. -/
def State.abortSlot (s : State) (k : Nat) : State :=
  if (s.slot k).st = .running then s.onSpan (s.slot k).span (fun j => { j with aborting := true })
  else s.dispEnd k endAborted 0

/-- The slots of a list aborted where they can be. -/
def State.abortAll (s : State) (ks : List Nat) : State :=
  match ks with
  | [] => s
  | k :: t => (if s.abortable k then s.abortSlot k else s).abortAll t

/-- Whether an abort of slots must wait for a status word of the Dispatcher's. -/
def State.abortWaits (s : State) (ks : List Nat) : Bool :=
  ks.any (fun k => (s.slot k).st != .free && (s.slot k).st != .running && s.statusWaits (s.slot k).desc)

/-- An abort of the slots `ks` by value `v`: ABORT_NONE where none can be aborted. -/
def State.abortThese (s : State) (src : Src) (v : Word) (ks : List Nat) : WRes :=
  match src with
  | .pier _ =>
    if ks.any s.abortable then .ok ((s.abortAll ks).settleDeps settleFuel) else ⟨s.dispRefused src v rAbortNone, 3⟩
  | _ => ⟨s.dispRefused src v rSource, 3⟩

/-- Slots whose job carries a tag. -/
def State.tagged (s : State) (tag : Nat) : List Nat := (List.range 256).filter (fun k => jTag (s.slot k).desc == tag)

/-- The slots a value of DISP_ABORT names. -/
def State.abortTargets (s : State) (v : Word) : List Nat :=
  let mode := getBits v 30 2
  if mode = 0 then [getBits v 0 8] else if mode = 1 then s.tagged (getBits v 8 16) else if mode = 2 then List.range 256 else []

/-- DISP_ABORT written (R194, R201). -/
def State.abortWrite (s : State) (src : Src) (v : Word) : WRes :=
  if getBits v 30 2 = 3 then
    (match src with
     | .pier _ => ⟨s.dispRefused src v rAbortMode, 3⟩
     | _ => ⟨s.dispRefused src v rSource, 3⟩)
  else s.abortThese src v (s.abortTargets v)

/-- Whether a write of a Dispatcher register must wait for the Dispatcher's own Deck accesses. -/
def State.dispBusy (s : State) (a : Nat) (v : Word) : Bool :=
  (a == Reg.DISP_SUBMIT_at && s.submitWaits v) || (a == Reg.DISP_ABORT_at && s.abortWaits (s.abortTargets v))

/-- Every RUNNING job aborted as R201 states (R315). -/
def State.abortRunning (s : State) : State := s.abortAll ((List.range 256).filter (fun k => (s.slot k).st == .running))

/-! ## Commands -/

/-- What the Dispatcher still had to do and can do now: the orphans of R198 and the dependencies of R196. -/
def State.dispResume (s : State) : State := s.dropOrphans

/-- A pier's write waits while the Dispatcher's own accesses must; one from any other source is refused unread (R194). -/
def State.unlessHeld (s : State) (src : Src) (held : Bool) (r : WRes) : State :=
  match src with
  | .pier _ => if held then s else r.st
  | _ => r.st

/-- JOB_SUBMISSION (R193): an OUT of `v` to DISP_SUBMIT reaches the Dispatcher. -/
def execJobSubmission (src : Src) (v : Word) (s : State) : Host.Outcome State Fault Refusal :=
  .next (s.unlessHeld src (s.submitWaits v) (s.submit src v))

/-- ABORT_SLOT (R201): MODE 0b00. -/
def execAbortSlot (src : Src) (slot : BitVec 8) (s : State) : Host.Outcome State Fault Refusal :=
  .next (s.unlessHeld src (s.abortWaits [slot.toNat]) (s.abortThese src (BitVec.ofNat 32 slot.toNat) [slot.toNat]))

/-- ABORT_TAG (R201): MODE 0b01. -/
def execAbortTag (src : Src) (tag : BitVec 16) (s : State) : Host.Outcome State Fault Refusal :=
  .next (s.unlessHeld src (s.abortWaits (s.tagged tag.toNat))
    (s.abortThese src (BitVec.ofNat 32 (2 ^ 30 + 256 * tag.toNat)) (s.tagged tag.toNat)))

/-- ABORT_ALL (R201): MODE 0b10. -/
def execAbortAll (src : Src) (s : State) : Host.Outcome State Fault Refusal :=
  .next (s.unlessHeld src (s.abortWaits (List.range 256)) (s.abortThese src (BitVec.ofNat 32 (2 ^ 31)) (List.range 256)))

end Sys2Proof.Machine
end

