-- ==== Sys2Proof/Machine/Flags.lean ====
section
/-!
DEFINITION. Floating-point arithmetic of piers and Spans (R100 to R115, R123): values, one rounding, the five flags, NaN rules,
conversions, and how flags reach FSTAT. Numbers are bit patterns as Nat; a result comes with its flags.

Choices and readings of this file: log 16.
-/

namespace Sys2Proof.Machine

/-! ## Formats and values -/

/-- A binary format: exponent bits and fraction bits. -/
structure Fmt where
  eb : Nat
  fb : Nat
  deriving DecidableEq, Repr

/-- binary32. -/
def b32 : Fmt := ⟨8, 23⟩
/-- binary64. -/
def b64 : Fmt := ⟨11, 52⟩
/-- The format of a scalar suffix (Table fp-3). -/
def FSz.fmt : FSz → Fmt
  | .s => b32 | .d => b64

/-- Width in bits. -/
def Fmt.width (f : Fmt) : Nat := f.eb + f.fb + 1
/-- Exponent bias. -/
def Fmt.bias (f : Fmt) : Nat := 2 ^ (f.eb - 1) - 1
/-- The sign bit's weight. -/
def Fmt.signW (f : Fmt) : Nat := 2 ^ (f.eb + f.fb)
/-- Positive infinity. -/
def Fmt.infP (f : Fmt) : Nat := (2 ^ f.eb - 1) * 2 ^ f.fb
/-- The default NaN (R109). -/
def Fmt.defNaN (f : Fmt) : Nat := f.infP + 2 ^ (f.fb - 1)

/-- Sign bit. -/
def Fmt.neg (f : Fmt) (b : Nat) : Bool := b / f.signW % 2 == 1
/-- Magnitude bits. -/
def Fmt.mag (f : Fmt) (b : Nat) : Nat := b % f.signW
/-- NaN. -/
def Fmt.isNaN (f : Fmt) (b : Nat) : Bool := f.mag b > f.infP
/-- Infinity. -/
def Fmt.isInf (f : Fmt) (b : Nat) : Bool := f.mag b == f.infP
/-- Zero. -/
def Fmt.isZero (f : Fmt) (b : Nat) : Bool := f.mag b == 0
/-- Subnormal. -/
def Fmt.isSub (f : Fmt) (b : Nat) : Bool := 0 < f.mag b && f.mag b < 2 ^ f.fb
/-- Signalling NaN: the most significant fraction bit is 0 (R109). -/
def Fmt.isSNaN (f : Fmt) (b : Nat) : Bool := f.isNaN b && b / 2 ^ (f.fb - 1) % 2 == 0
/-- A NaN quieted (R109). -/
def Fmt.quiet (f : Fmt) (b : Nat) : Nat := if f.isSNaN b then b + 2 ^ (f.fb - 1) else b
/-- A magnitude with a sign. -/
def Fmt.signed (f : Fmt) (neg : Bool) (mag : Nat) : Nat := (if neg then f.signW else 0) + mag

/-- Flags (R114): NX. -/
def fNX : Nat := 1
/-- UF. -/
def fUF : Nat := 2
/-- OF. -/
def fOF : Nat := 4
/-- DZ. -/
def fDZ : Nat := 8
/-- NV. -/
def fNV : Nat := 16

/-- A result and the flags it raises. -/
structure Fr where
  bits : Nat
  flags : Nat
  deriving DecidableEq, Repr

/-- Format, rounding direction and flush-to-zero of an operation. -/
structure FCtx where
  f : Fmt
  rm : Nat
  ftz : Bool
  deriving DecidableEq, Repr

/-- An input of an affected instruction: a subnormal is a zero of its sign with FTZ = 1 (R108). -/
def FCtx.inp (c : FCtx) (b : Nat) : Nat := if c.ftz && c.f.isSub b then c.f.signed (c.f.neg b) 0 else b

/-- A finite number ±m × 2^e. -/
structure Dy where
  neg : Bool
  m : Nat
  e : Int
  deriving DecidableEq, Repr

/-- The exact value of a finite bit pattern. -/
def Fmt.dy (f : Fmt) (b : Nat) : Dy :=
  let ex := f.mag b / 2 ^ f.fb
  let fr := f.mag b % 2 ^ f.fb
  if ex = 0 then ⟨f.neg b, fr, 1 - (f.bias : Int) - (f.fb : Int)⟩
  else ⟨f.neg b, fr + 2 ^ f.fb, (ex : Int) - (f.bias : Int) - (f.fb : Int)⟩

/-! ## Rounding (R106, R108) -/

/-- m × 2^(−d) rounded to an integer in direction rm (R106), and whether it changed. -/
def roundShift (rm : Nat) (neg : Bool) (m d : Nat) : Nat × Bool :=
  let q := m / 2 ^ d
  let lo := m % 2 ^ d
  let up :=
    if lo = 0 then false
    else if rm = 0 then decide (2 ^ d < 2 * lo) || (2 * lo == 2 ^ d && q % 2 == 1)
    else if rm = 1 then false
    else if rm = 2 then neg
    else !neg
  (if up then q + 1 else q, lo != 0)

/-- The exact value ±m × 2^e, m > 0, scaled to units of 2^q and rounded. -/
def roundAt (rm : Nat) (neg : Bool) (m : Nat) (e q : Int) : Nat × Bool :=
  if q ≤ e then (m * 2 ^ (e - q).toNat, false) else roundShift rm neg m (q - e).toNat

/-- The exact value ±m × 2^e rounded once to the format, with tininess detected after rounding (R106, R108). -/
def FCtx.round (c : FCtx) (x : Dy) : Fr :=
  if x.m = 0 then ⟨c.f.signed x.neg 0, 0⟩
  else
    let top : Int := (Nat.log2 x.m : Int) + x.e
    let emin : Int := 1 - (c.f.bias : Int)
    let unb := roundAt c.rm x.neg x.m x.e (top - (c.f.fb : Int))
    let tiny := decide (top < emin) && !(top == emin - 1 && unb.1 == 2 ^ (c.f.fb + 1))
    let q := max (top - (c.f.fb : Int)) (emin - (c.f.fb : Int))
    let r := roundAt c.rm x.neg x.m x.e q
    if c.ftz && tiny then ⟨c.f.signed x.neg 0, fUF ||| fNX⟩
    else
      let mag := (q + (c.f.fb : Int) + (c.f.bias : Int) - 1).toNat * 2 ^ c.f.fb + r.1
      if c.f.infP ≤ mag then
        let toInf := c.rm == 0 || (c.rm == 2 && x.neg) || (c.rm == 3 && !x.neg)
        ⟨c.f.signed x.neg (if toInf then c.f.infP else c.f.infP - 1), fOF ||| fNX⟩
      else ⟨c.f.signed x.neg mag, (if r.2 then fNX else 0) ||| (if tiny && r.2 then fUF else 0)⟩

/-- ±(num / den) × 2^e rounded once: the quotient to more bits than any format has, its remainder as a sticky bit. -/
def FCtx.roundRat (c : FCtx) (neg : Bool) (num den : Nat) (e : Int) : Fr :=
  if num = 0 then ⟨c.f.signed neg 0, 0⟩
  else
    let k := c.f.fb + 4 + Nat.log2 den
    let q := num * 2 ^ k / den
    let st := if num * 2 ^ k % den = 0 then 0 else 1
    c.round ⟨neg, 2 * q + st, e - (k : Int) - 1⟩

/-- The exact sum of two dyadics; the sign of an exact zero as R106 states. -/
def dyAdd (rm : Nat) (a b : Dy) : Dy :=
  let e := min a.e b.e
  let sa : Int := (if a.neg then -1 else 1) * ((a.m * 2 ^ (a.e - e).toNat : Nat) : Int)
  let sb : Int := (if b.neg then -1 else 1) * ((b.m * 2 ^ (b.e - e).toNat : Nat) : Int)
  let t := sa + sb
  if t = 0 then ⟨if a.neg == b.neg then a.neg else rm == 2, 0, 0⟩
  else ⟨decide (t < 0), t.natAbs, e⟩

/-! ## NaNs (R109) -/

/-- The first NaN of the operands in order, quieted; NV for any signalling one (R109). -/
def Fmt.nans (f : Fmt) (ops : List Nat) : Option Fr :=
  match ops.find? f.isNaN with
  | none => none
  | some b => some ⟨f.quiet b, if ops.any f.isSNaN then fNV else 0⟩

/-- An invalid operation without NaN operands (R109). -/
def Fmt.invalid (f : Fmt) : Fr := ⟨f.defNaN, fNV⟩

/-! ## Operations (Table fp-3) -/

/-- a + b, or a − b (FADD, FSUB). -/
def FCtx.add (c : FCtx) (sub : Bool) (a0 b0 : Nat) : Fr :=
  let f := c.f
  match f.nans [a0, b0] with
  | some r => r
  | none =>
    let a := c.inp a0
    let b := c.inp b0
    let nb := xor (f.neg b) sub
    if f.isInf a then (if f.isInf b && f.neg a != nb then f.invalid else ⟨a, 0⟩)
    else if f.isInf b then ⟨f.signed nb f.infP, 0⟩
    else c.round (dyAdd c.rm (f.dy a) { f.dy b with neg := nb })

/-- a × b (FMUL). -/
def FCtx.mul (c : FCtx) (a0 b0 : Nat) : Fr :=
  let f := c.f
  match f.nans [a0, b0] with
  | some r => r
  | none =>
    let a := c.inp a0
    let b := c.inp b0
    let n := xor (f.neg a) (f.neg b)
    if f.isInf a || f.isInf b then (if f.isZero a || f.isZero b then f.invalid else ⟨f.signed n f.infP, 0⟩)
    else c.round ⟨n, (f.dy a).m * (f.dy b).m, (f.dy a).e + (f.dy b).e⟩

/-- ±(a × b) ± d with one rounding (R107): `np` negates the product, `nd` the addend. -/
def FCtx.fma (c : FCtx) (np nd : Bool) (a0 b0 d0 : Nat) : Fr :=
  let f := c.f
  let a := c.inp a0
  let b := c.inp b0
  let d := c.inp d0
  let bad := (f.isInf a && f.isZero b) || (f.isZero a && f.isInf b)
  match f.nans [a0, b0, d0] with
  | some r => ⟨r.bits, if bad then r.flags ||| fNV else r.flags⟩
  | none =>
    if bad then f.invalid
    else
      let n := xor (xor (f.neg a) (f.neg b)) np
      let m := xor (f.neg d) nd
      if f.isInf a || f.isInf b then (if f.isInf d && m != n then f.invalid else ⟨f.signed n f.infP, 0⟩)
      else if f.isInf d then ⟨f.signed m f.infP, 0⟩
      else c.round (dyAdd c.rm ⟨n, (f.dy a).m * (f.dy b).m, (f.dy a).e + (f.dy b).e⟩ { f.dy d with neg := m })

/-- a ÷ b (FDIV). -/
def FCtx.div (c : FCtx) (a0 b0 : Nat) : Fr :=
  let f := c.f
  match f.nans [a0, b0] with
  | some r => r
  | none =>
    let a := c.inp a0
    let b := c.inp b0
    let n := xor (f.neg a) (f.neg b)
    if f.isInf a then (if f.isInf b then f.invalid else ⟨f.signed n f.infP, 0⟩)
    else if f.isInf b then ⟨f.signed n 0, 0⟩
    else if f.isZero b then (if f.isZero a then f.invalid else ⟨f.signed n f.infP, fDZ⟩)
    else c.roundRat n (f.dy a).m (f.dy b).m ((f.dy a).e - (f.dy b).e)

/-- The integer square root, bit by bit from bit `k`. -/
def isqrt (n k r : Nat) : Nat :=
  match k with
  | 0 => r
  | k + 1 => isqrt n k (if (r + 2 ^ k) * (r + 2 ^ k) ≤ n then r + 2 ^ k else r)

/-- √a (FSQRT). -/
def FCtx.sqrt (c : FCtx) (a0 : Nat) : Fr :=
  let f := c.f
  match f.nans [a0] with
  | some r => r
  | none =>
    let a := c.inp a0
    if f.isZero a then ⟨a, 0⟩
    else if f.neg a then f.invalid
    else if f.isInf a then ⟨a, 0⟩
    else
      let d := f.dy a
      let k : Nat := 2 * (f.fb + 4) + (d.e % 2).toNat
      let m := d.m * 2 ^ k
      let r := isqrt m (2 * f.fb + 8) 0
      let st := if r * r = m then 0 else 1
      c.round ⟨false, 2 * r + st, (d.e - (k : Int)) / 2 - 1⟩

/-- The order of non-NaN numbers: −0 and +0 are equal. -/
def Fmt.key (f : Fmt) (b : Nat) : Int := if f.neg b then -(f.mag b : Int) else f.mag b

/-- minimumNumber and maximumNumber (R111). -/
def FCtx.minMax (c : FCtx) (max? : Bool) (a0 b0 : Nat) : Fr :=
  let f := c.f
  let nv := if f.isSNaN a0 || f.isSNaN b0 then fNV else 0
  let a := c.inp a0
  let b := c.inp b0
  if f.isNaN a0 && f.isNaN b0 then ⟨f.quiet a0, nv⟩
  else if f.isNaN a0 then ⟨b, nv⟩
  else if f.isNaN b0 then ⟨a, nv⟩
  else
    let aLess := f.key a < f.key b || (f.key a == f.key b && f.neg a && !f.neg b)
    ⟨if xor aLess max? then a else b, 0⟩

/-- A sign-bit operation of the short-vector and Span forms: inputs flush (R108), a NaN propagates with its sign (R109). -/
def FCtx.signOp (c : FCtx) (g : Bool → Bool) (a0 : Nat) : Fr :=
  match c.f.nans [a0] with
  | some r => r
  | none => ⟨c.f.signed (g (c.f.neg a0)) (c.f.mag (c.inp a0)), 0⟩

/-- A compare (R111): equal, less, less or equal. -/
inductive FCmp where
  | eq | lt | le
  deriving DecidableEq, Repr

/-- A compare's truth and flags. -/
def FCtx.cmp (c : FCtx) (k : FCmp) (a0 b0 : Nat) : Bool × Nat :=
  let f := c.f
  if f.isNaN a0 || f.isNaN b0 then
    (false, if k != .eq || f.isSNaN a0 || f.isSNaN b0 then fNV else 0)
  else
    let x := f.key (c.inp a0)
    let y := f.key (c.inp b0)
    (match k with | .eq => x == y | .lt => decide (x < y) | .le => decide (x ≤ y), 0)

/-- The class mask (Table fp-5). -/
def Fmt.fclass (f : Fmt) (b : Nat) : Nat :=
  if f.isNaN b then (if f.isSNaN b then 0x100 else 0x200)
  else if f.isInf b then (if f.neg b then 0x1 else 0x80)
  else if f.isZero b then (if f.neg b then 0x8 else 0x10)
  else if f.isSub b then (if f.neg b then 0x4 else 0x20)
  else if f.neg b then 0x2 else 0x40

/-- A finite number rounded to an integer: magnitude, and whether it changed. -/
def dyInt (rm : Nat) (x : Dy) : Nat × Bool := roundAt rm x.neg x.m x.e 0

/-- roundToIntegralExact (FRND). -/
def FCtx.rnd (c : FCtx) (a0 : Nat) : Fr :=
  let f := c.f
  match f.nans [a0] with
  | some r => r
  | none =>
    let a := c.inp a0
    if f.isInf a then ⟨a, 0⟩
    else
      let r := dyInt c.rm (f.dy a)
      ⟨(c.round ⟨f.neg a, r.1, 0⟩).bits, if r.2 then fNX else 0⟩

/-- The integer a floating-point number converts to within [lo, hi] (R112, Table fp-8), and the flags. -/
def FCtx.toInt (c : FCtx) (lo hi : Int) (a0 : Nat) : Int × Nat :=
  let f := c.f
  if f.isNaN a0 then (0, fNV)
  else
    let a := c.inp a0
    if f.isInf a then (if f.neg a then lo else hi, fNV)
    else
      let r := dyInt c.rm (f.dy a)
      let v : Int := if f.neg a then -(r.1 : Int) else r.1
      if v < lo then (lo, fNV) else if hi < v then (hi, fNV) else (v, if r.2 then fNX else 0)

/-- An integer converted to floating point. -/
def FCtx.ofInt (c : FCtx) (i : Int) : Fr := c.round ⟨decide (i < 0), i.natAbs, 0⟩

/-- binary64 to binary32 (FCVT.S.D), NaNs by R110. -/
def cvtSD (rm : Nat) (ftz : Bool) (b0 : Nat) : Fr :=
  if b64.isNaN b0 then
    ⟨b32.signed (b64.neg b0) (b32.infP + (b0 / 2 ^ 29 % 2 ^ 22) + 2 ^ 22), if b64.isSNaN b0 then fNV else 0⟩
  else
    let b := FCtx.inp ⟨b64, rm, ftz⟩ b0
    if b64.isInf b then ⟨b32.signed (b64.neg b) b32.infP, 0⟩ else FCtx.round ⟨b32, rm, ftz⟩ (b64.dy b)

/-- binary32 to binary64 (FCVT.D.S), exact; NaNs by R110. -/
def cvtDS (ftz : Bool) (b0 : Nat) : Fr :=
  if b32.isNaN b0 then
    ⟨b64.signed (b32.neg b0) (b64.infP + 2 ^ 51 + (b0 % 2 ^ 22) * 2 ^ 29), if b32.isSNaN b0 then fNV else 0⟩
  else
    let b := FCtx.inp ⟨b32, 0, ftz⟩ b0
    if b32.isInf b then ⟨b64.signed (b32.neg b) b64.infP, 0⟩ else FCtx.round ⟨b64, 0, false⟩ (b32.dy b)

/-! ## Flags reaching FSTAT (R115, R117) -/

/-- The context of a thread's FCTL (Table fp-10). -/
def Thread.fctx (t : Thread) (f : Fmt) : FCtx := ⟨f, getBits t.fctl 0 2, getBits t.fctl 2 1 == 1⟩

/-- Flags ORed into FLAGS, and into TPEND where TEN enables them (R115). -/
def Thread.orFlags (t : Thread) (fl : Nat) : Thread :=
  let hit := fl &&& getBits t.fctl 3 5
  { t with fstat := putBits (putBits t.fstat 0 5 (getBits t.fstat 0 5 ||| fl)) 5 5 (t.tpend ||| hit) }

/-- The flags of an operation of a thread at its PC. When they set the first TPEND bit since the last delivery, that
instruction's address is kept (R117). -/
def Thread.raiseFlags (t : Thread) (fl : Nat) : Thread :=
  if t.tpend = 0 ∧ fl &&& getBits t.fctl 3 5 ≠ 0 then { t.orFlags fl with fpAddr := t.pc, fpAge := 0 } else t.orFlags fl

end Sys2Proof.Machine
end

