-- ==== Sys2Proof/Machine/Operands.lean ====
section
/-!
DEFINITION. The operand forms of pier instructions: the formats of Table isa-1, immediates, effective addresses, D-space and
its checks, Task windows, and which words are legal (R71) and repeatable (R87, R105).

Choices and readings of this file: log 14, 101.
-/

namespace Sys2Proof.Machine

/-! ## Formats (Table isa-1) -/

/-- Format A. -/
def encA (op rd rs rt fn : Nat) : Word := BitVec.ofNat 32 (op * 2 ^ 26 + rd * 2 ^ 21 + rs * 2 ^ 16 + rt * 2 ^ 11 + fn)
/-- Formats B and C. -/
def encB (op rd rs : Nat) (imm : BitVec 16) : Word := BitVec.ofNat 32 (op * 2 ^ 26 + rd * 2 ^ 21 + rs * 2 ^ 16 + imm.toNat)
/-- Format D. -/
def encD (op rd rb sz : Nat) (u pi : Bool) (disp : BitVec 12) : Word :=
  BitVec.ofNat 32 (op * 2 ^ 26 + rd * 2 ^ 21 + rb * 2 ^ 16 + sz * 2 ^ 14 + b2n u * 2 ^ 13 + b2n pi * 2 ^ 12 + disp.toNat)
/-- Format E. -/
def encE (op rd rs fn imm : Nat) : Word := BitVec.ofNat 32 (op * 2 ^ 26 + rd * 2 ^ 21 + rs * 2 ^ 16 + fn * 2 ^ 11 + imm)
/-- Format J. -/
def encJ (op : Nat) (off : BitVec 26) : Word := BitVec.ofNat 32 (op * 2 ^ 26 + off.toNat)
/-- Format P. -/
def encP (op rs : Nat) (rsrc : Bool) (cntm1 : BitVec 16) : Word :=
  BitVec.ofNat 32 (op * 2 ^ 26 + rs * 2 ^ 21 + b2n rsrc * 2 ^ 20 + cntm1.toNat)

/-- Fields of a word: OP. -/
def wOp (w : Word) : Nat := getBits w 26 6
/-- rd, ra, or rs of format P. -/
def wRd (w : Word) : Nat := getBits w 21 5
/-- rs or rb. -/
def wRs (w : Word) : Nat := getBits w 16 5
/-- rt. -/
def wRt (w : Word) : Nat := getBits w 11 5
/-- FN of format A. -/
def wFn (w : Word) : Nat := getBits w 0 11

/-! ## Immediates and addresses (R73, R75, R76) -/

/-- Sign extension to a word. -/
def sx {n : Nat} (b : BitVec n) : Word := b.signExtend 32
/-- Zero extension to a word. -/
def zx {n : Nat} (b : BitVec n) : Word := b.setWidth 32
/-- A branch or jump target (R75): the instruction's own address plus 4 × offset. -/
def branchTarget {n : Nat} (pc : Word) (off : BitVec n) : Word := pc + 4 * sx off
/-- Effective address of format D (R76). -/
def effAddr (t : Thread) (rb : RegIx) (pi : Bool) (disp : BitVec 12) : Word := if pi then t.rg rb else t.rg rb + sx disp
/-- The post-increment of PI = 1 (R76): register and its new value. -/
def postInc (t : Thread) (rb : RegIx) (pi : Bool) (disp : BitVec 12) : Option (RegIx × Word) :=
  if pi then some (rb, t.rg rb + sx disp) else none
/-- A post-increment applied. -/
def Thread.applyPost (t : Thread) (p : Option (RegIx × Word)) : Thread :=
  match p with
  | none => t
  | some (r, v) => t.wg r v
/-- IO address of IN and OUT, modulo 2^16 (R79). -/
def ioAddr (t : Thread) (rs : RegIx) (imm : BitVec 16) : Nat := (t.rg rs + zx imm).toNat % 65536
/-- Bytes moved by SZ (R76). -/
def szBytes (sz : BitVec 2) : Nat := 2 ^ sz.toNat

/-! ## D-space (Table pier-5) -/

/-- The mapped regions of D-space. -/
inductive Space where
  | spad | mbox | deck
  deriving DecidableEq, Repr

/-- First D-space address of the Deck. -/
def deckBase : Nat := 0x10000000

/-- The region of an address and the first address beyond it. -/
def spaceOf (g : Grade) (a : Nat) : Option (Space × Nat) :=
  if a < 0x10000 then some (.spad, 0x10000)
  else if a < 0x11000 then some (.mbox, 0x11000)
  else if deckBase ≤ a ∧ a < deckBase + g.deckBytes then some (.deck, deckBase + g.deckBytes)
  else none

/-- Whether an address is in the Deck window. -/
def isDeck (g : Grade) (a : Nat) : Bool := match spaceOf g a with | some (.deck, _) => true | _ => false

/-- R55, R56: the address that fails the mapping check of `n` bytes at `a`, if any. -/
def mapFault (g : Grade) (a n : Nat) : Option Nat :=
  match spaceOf g a with
  | none => some a
  | some (_, lim) => if a + n ≤ lim then none else some lim

/-- A Task window: VALID, WRITE, BASE, LIM (R127). -/
structure TWin where
  valid : Bool
  write : Bool
  base : Nat
  lim : Nat
  deriving DecidableEq, Repr

/-- Task window `i` of pier `p`. -/
def State.twin (s : State) (p i : Nat) : TWin :=
  ⟨s.on (Reg.PIER_TWIN_BASE.VALID p i), s.on (Reg.PIER_TWIN_BASE.WRITE p i), 8 * s.rf (Reg.PIER_TWIN_BASE.BASE p i),
    8 * s.rf (Reg.PIER_TWIN_LIM.LIM p i)⟩

/-- The windows of a pier that qualify for a load, or for a store (R127). -/
def State.twins (s : State) (p : Nat) (store : Bool) : List TWin :=
  ([0, 1, 2, 3].map (s.twin p)).filter (fun w => w.valid && (w.write || !store))

/-- R127: the address that fails the Task window check of `n` bytes at `a`, if any. -/
def State.taskFault (s : State) (p a n : Nat) (store : Bool) : Option Nat :=
  let ws := s.twins p store
  if ws.any (fun w => w.base ≤ a && a + n ≤ w.lim) then none
  else
    let holding := ws.filter (fun w => w.base ≤ a && a < w.lim)
    if holding.isEmpty then some a else some ((holding.map TWin.lim).foldl max 0)

/-- The checks of a D-space access in the order of R127 and R136: Task window, mapping, alignment on the Deck to
`al` bytes. -/
def State.dspaceCheck (s : State) (th : Thr) (a n al : Nat) (store : Bool) : Option Cause :=
  match (if (s.thr th).kernel then none else s.taskFault th.pier.val a n store) with
  | some e => some (.mk' cDspace 2 (BitVec.ofNat 32 e))
  | none =>
    match mapFault s.grade a n with
    | some e => some (.mk' cDspace 1 (BitVec.ofNat 32 e))
    | none => if isDeck s.grade a && a % al != 0 then some (.mk' cAlign 0 (BitVec.ofNat 32 a)) else none

/-- Whether `n` bytes at `a` cross an 8-byte row (R57). -/
def splits (a n : Nat) : Bool := a % 8 + n > 8

/-- Bytes of the scratchpad or own mailbox at D-space address `a`. -/
def State.localRd (s : State) (p a n : Nat) : Nat :=
  if a < 0x10000 then s.spadRd p a n else s.mboxRd p (a - 0x10000) n
/-- Bytes of the scratchpad or own mailbox written. -/
def State.localWr (s : State) (p a n v : Nat) : State :=
  if a < 0x10000 then s.spadWr p a n v else s.mboxWr p (a - 0x10000) n v

/-- A split access counted (R57). -/
def State.countSplit (s : State) (p a n : Nat) : State :=
  if splits a n then s.incSat (Reg.PIER_SPLIT_CNT.COUNT p) else s
/-- Issue slots of a scratchpad or mailbox access of up to 8 bytes (R57). -/
def slotsOf (a n : Nat) : Nat := if splits a n then 2 else 1

/-- A loaded value as Gd receives it (R77). -/
def loadExtend (bytes : Nat) (signed : Bool) (v : Nat) : Word :=
  if signed then BitVec.ofInt 32 (sInt (8 * bytes) v) else BitVec.ofNat 32 v

/-! ## Legal words (R71, R102) and the repeatable set (R87, R105) -/

/-- FN assigned in OP 0x20, where FN[4] is the format (Table fp-3), with rt 0 where it must be. -/
def legalFp (w : Word) : Bool :=
  wFn w < 32 && wFn w % 16 < 14 && (wRt w == 0 || !([4, 7, 8].contains (wFn w % 16)))
/-- OP 0x21 (Table fp-4). -/
def legalFpMove (w : Word) : Bool :=
  [0x0, 0x1, 0x2, 0x10, 0x11, 0x12, 0x33].contains (wFn w) ||
  (wRt w == 0 && [0x3, 0x4, 0x13, 0x14, 0x20, 0x21, 0x22, 0x23, 0x24, 0x25, 0x26, 0x27, 0x28, 0x29, 0x62, 0x63, 0x66, 0x67,
    0x30, 0x31, 0x32, 0x34].contains (wFn w))
/-- Lanes of a T code (Table fp-1); none for 4 to 7. -/
def tLanes (t : Nat) : Option Nat := [8, 4, 16, 32][t]?
/-- OP 0x23 (Table fp-6). -/
def legalVec (w : Word) : Bool :=
  let op := wFn w / 8
  let t := wFn w % 8
  wRd w < 8 && wRs w < 8 && t < 4 &&
  (if op = 6 ∨ op = 7 then wRt w == 0 else wRt w < 8) &&
  (if op = 3 then t < 2 else if op = 0x0F ∨ op = 0x10 then 2 ≤ t else if op = 0x11 then t == 2 else op < 0x0F)
/-- OP 0x24 (Table fp-7). -/
def legalVecMove (w : Word) : Bool :=
  let fn := wFn w
  let t := fn % 8
  if fn < 0x20 then
    match tLanes t with
    | none => false
    | some n =>
      if fn < 8 then wRd w < 8 && wRt w == 0
      else if fn < 0x10 then wRs w < 8 && wRt w < n
      else if fn < 0x18 then wRd w < 8 && wRt w < n
      else wRs w < 8 && wRt w == 0
  else if fn = 0x22 ∨ fn = 0x25 ∨ fn = 0x28 then wRd w < 8 && wRs w < 8 && wRt w < 8
  else fn < 0x28 && wRd w < 8 && wRs w < 8 && wRt w == 0

/-- Whether a word is an instruction (R71): OP and FN assigned, reserved fields 0; BRK fixes nothing but its FN (Table isa-9). A load with
PI = 1 and rd = rb is LD alone: the rd of FLD and WLD names a register of another file (DESIGN CHOICE, log 101). -/
def pierLegal (w : Word) : Bool :=
  let op := wOp w
  let fn := wFn w
  if op = 0 then fn < 0xB || (0xC ≤ fn && fn < 0xF) || (0x10 ≤ fn && fn < 0x16) || (0x18 ≤ fn && fn < 0x1D && wRt w == 0)
  else if op < 7 then true
  else if op = 7 then wRs w == 0
  else if op = 8 then
    if fn < 4 then wRd w == 0
    else if 8 ≤ fn ∧ fn < 12 then true
    else if fn = 0x10 ∨ fn = 0x11 then wRs w == 0 && wRt w == 0
    else (fn == 0x12 || fn == 0x13) && wRd w == 0 && wRt w == 0
  else if op = 9 then getBits w 14 2 < 3 && !(getBits w 12 1 == 1 && wRd w == wRs w)
  else if op = 0xA then getBits w 14 2 < 3 && getBits w 13 1 == 0
  else if op = 0xB ∨ op = 0xC then 2 ≤ getBits w 14 2 && getBits w 13 1 == 0
  else if op = 0xD ∨ op = 0xE then 2 ≤ getBits w 14 2 && getBits w 12 2 == 0
  else if op = 0xF ∨ op = 0x1A then fn == 0 && wRt w == 0
  else if op < 0x1A then true
  else if op = 0x1B then
    let f := wRt w
    if f = 0 then wRd w == 0 && wRs w == 0 && getBits w 8 3 == 0
    else if f = 1 then getBits w 0 11 == 0 && wRd w == 0 && wRs w == 0
    else if f = 2 then wRs w == 0 && getBits w 0 11 == 0
    else if f = 3 then wRs w == 0 && getBits w 0 11 < 10
    else if f = 4 then wRd w == 0 && getBits w 0 11 < 10 && getBits w 0 11 != 0
    else f == 5
  else if op = 0x1C ∨ op = 0x1D then getBits w 16 4 == 0 && (getBits w 20 1 == 0 || getBits w 0 16 == 0)
  else if op = 0x20 then legalFp w
  else if op = 0x21 then legalFpMove w
  else if op = 0x22 then fn == 0 && wRd w == 0 && wRs w == 0 && wRt w == 0
  else if op = 0x23 then legalVec w
  else if op = 0x24 then legalVecMove w
  else if op = 0x25 ∨ op = 0x26 then wRd w < 8 && getBits w 13 3 == 0
  else if op = 0x27 then fn % 8 < 4 && fn < 16 && wRd w < 8 && wRs w < 8
  else if op = 0x28 then fn < 2 || (fn == 2 && wRd w == 0 && wRs w == 0 && wRt w == 0)
  else false

/-- Whether a word belongs to the repeatable set (R87, R105), judged by OP, FN and PI. A word of OP 0x20, 0x21, 0x23 or 0x24 with an unassigned
FN or a bad register field counts as of the set: it raises ILLEGAL itself (DESIGN CHOICE, log 101). -/
def pierRepeatable (w : Word) : Bool :=
  let op := wOp w
  if op < 8 then true
  else if 9 ≤ op ∧ op ≤ 0xC then getBits w 12 1 == 1
  else if op = 0xF then true
  else if op = 0x20 then wFn w % 16 != 3 && wFn w % 16 != 4
  else if op = 0x21 ∨ op = 0x23 ∨ op = 0x24 then true
  else if op = 0x25 ∨ op = 0x26 then getBits w 12 1 == 1
  else false

end Sys2Proof.Machine
end

