-- ==== Sys2Proof/Machine/PierCore.lean ====
section
/-!
DEFINITION. The issue of one instruction by a thread (R41 to R52, R64, R86 to R90, R116, R117, R129 to R138, R148): when it can
issue, which cause is taken in its place, and what retiring it does.

Choices and readings of this file: log 8, 10, 11, 13, 101, 104.
-/

namespace Sys2Proof.Machine

/-- What an instruction does once issued. -/
inductive Out where
  /-- It needs an NI entry, a store slot or an earlier acknowledgement it does not have: it does not issue (R34, R46, R48). -/
  | stall
  /-- It raises a precise cause and has no effect. -/
  | trap (c : Cause)
  /-- It raises a precise cause after accesses that changed counters and ECC state elsewhere, but nothing of its own. -/
  | fail (s : State) (c : Cause)
  /-- It completes; the next PC, and the pier cycles it takes (slots and hold). -/
  | done (s : State) (npc : Word) (cycles : Nat)
  /-- It completes without a step of its own falling due: a GATE, which is stepped over (R146, R148). -/
  | gated (s : State) (npc : Word) (cycles : Nat)
  /-- A multiply completes: its product waits for the next instruction (R51). -/
  | product (s : State) (npc : Word)
  /-- An access of R45 or a WAIT leaves the thread waiting; it retires later. -/
  | wait (s : State) (cycles : Nat)

/-- Whether a repeat is in progress that asynchronous causes may not interrupt: an RPT (R89). -/
def Thread.inRpt (t : Thread) : Bool := match t.rep with | some r => !r.interruptible | none => false

/-- Whether the thread is at an instruction boundary and runs. -/
def Thread.atBoundary (t : Thread) : Bool := t.run == .running && t.acc.isNone && (!t.stopReq || t.inRpt)

/-- A pier's island is clocked: ONLINE or in QUIESCE (Table clk-4, R251). -/
def State.clocked (s : State) (p : Nat) : Bool :=
  let st := (s.shell p).st
  st == .online || st == .quiesce

/-- Whether an instruction of the thread may issue: `rp` tells whether it is of the repeatable set, since within a repeat
nothing else of the thread issues (R88). -/
def State.canIssue (s : State) (th : Thr) (rp : Bool) : Bool :=
  s.clocked th.pier.val && (s.thr th).atBoundary && ((s.thr th).rep.isNone || rp)

/-- An instruction issues: what comes after it is not reached by GRET (R90). -/
def Thread.gretSeen (t : Thread) : Thread := { t with viaGret := false }

/-- Whether FP_IMPRECISE must be delivered at this boundary (R116): before `settle` instructions always; within an RPT not;
within an RPTI at the first boundary; else after three further instructions. EXCEPTION_ENTRY may deliver it at any boundary
before (DESIGN CHOICE, log 10). -/
def Thread.fpDue (t : Thread) (settle : Bool) : Bool :=
  t.tpend != 0 && !t.inRpt && (settle || t.rep.isSome || decide (3 ≤ t.fpAge))

/-- FP_IMPRECISE taken (R117). -/
def State.takeFp (s : State) (th : Thr) (epc : Word) : State :=
  s.takeException th (.mk' cFp 0 (s.thr th).fpAddr) epc

/-- A cause taken at the PC, unless a TPEND bit makes FP_IMPRECISE come first (R137). -/
def State.takeCause (s : State) (th : Thr) (c : Cause) : State :=
  let t := s.thr th
  if t.tpend ≠ 0 then s.takeFp th t.pc else s.takeException th c t.pc

/-- The oldest deferred Deck store error taken (R47, R136). -/
def State.takeDeferred (s : State) (th : Thr) : State :=
  let t := s.thr th
  match t.defErrs with
  | [] => s
  | e :: rest =>
    if t.tpend ≠ 0 then s.takeFp th t.pc
    else (s.onThr th (fun t => { t with defErrs := rest })).takeException th ⟨e.err.cause, e.err.code, true, e.addr⟩ t.pc

/-! ## Asynchronous causes (R132 to R136) -/

/-- Bit `e` of a pair of 32-bit masks. -/
def State.pairBit (s : State) (lo hi : Fd) (e : Nat) : Bool := if e < 32 then s.bit lo e else s.bit hi (e - 32)
/-- Event `e` pending at a pier. -/
def State.evPending (s : State) (p e : Nat) : Bool := s.pairBit (Reg.PIER_EVPEND_LO.PEND p) (Reg.PIER_EVPEND_HI.PEND p) e
/-- Event `e` in a thread's wait mask. -/
def State.evMask (s : State) (p t e : Nat) : Bool := s.pairBit (Reg.PIER_EVMASK_LO.MASK p t) (Reg.PIER_EVMASK_HI.MASK p t) e
/-- Event `e` in a thread's event-trap mask. -/
def State.evTrap (s : State) (p t e : Nat) : Bool := s.pairBit (Reg.PIER_EVTRAP_LO.MASK p t) (Reg.PIER_EVTRAP_HI.MASK p t) e
/-- The pending bit of an event written. -/
def State.setEvPending (s : State) (p e : Nat) (v : Bool) : State :=
  if e < 32 then s.setBit (Reg.PIER_EVPEND_LO.PEND p) e v else s.setBit (Reg.PIER_EVPEND_HI.PEND p) (e - 32) v

/-- Thread `t` of pier `p`. -/
def thrOf (p t : Nat) : Thr := ⟨Fin.ofNat 16 p, Fin.ofNat 8 t⟩

/-- Maskable causes may be taken (R132): EXL 0, Task mode or IE, no RPT in progress. -/
def Thread.open (t : Thread) : Bool := !t.exl && !t.inRpt && (!t.kernel || t.ie)

/-- A thread that can take EVENT under R132. -/
def State.canTakeEvent (s : State) (th : Thr) : Bool :=
  let t := s.thr th
  t.run != .stopped && !t.stopReq && t.open

/-- The lowest pending event whose chosen consumer is this thread (R134). -/
def State.eventFor (s : State) (th : Thr) : Option Nat :=
  let p := th.pier.val
  if !s.canTakeEvent th then none
  else (List.range 64).find? (fun e =>
    s.evPending p e && s.evTrap p th.th.val e &&
    !((List.range 8).any (fun u => (s.thr (thrOf p u)).run == .waiting && s.evMask p u e)) &&
    !((List.range th.th.val).any (fun u => s.evTrap p u e && s.canTakeEvent (thrOf p u))))

/-- The first asynchronous cause due (Table trap-3), FP_IMPRECISE and deferred store errors apart. -/
def State.asyncDue (s : State) (th : Thr) : Option Cause :=
  let p := th.pier.val
  let i := th.th.val
  let t := s.thr th
  let pend := Reg.PIER_SYSPEND.PEND p
  if t.exl || t.inRpt then none
  else if s.bit pend i && p == 0 then some (.mk' cWdt 0 0)
  else if t.open && s.bit pend (16 + i) then some (.mk' cTherm 0 t.infoThm)
  else if t.open && s.bit pend (8 + i) then some (.mk' cAbut 0 t.infoAbt)
  else if t.open && s.bit pend (24 + i) then some (.mk' cDebt t.debtSub t.infoDebt)
  else if t.open && s.bit (Reg.PIER_SPF.PEND p) i then some (.mk' cSpan 0 t.infoSpan)
  else
    match s.eventFor th with
    | some e => some (.mk' cEvent 0 (BitVec.ofNat 32 e))
    | none => t.stepDue.map (fun a => .mk' cStep 0 a)

/-- The pending bit of a cause about to be taken cleared. -/
def State.clearPending (s : State) (th : Thr) (c : Cause) : State :=
  let p := th.pier.val
  let i := th.th.val
  let pend := Reg.PIER_SYSPEND.PEND p
  if c.code = cWdt then s.setBit pend i false
  else if c.code = cTherm then s.setBit pend (16 + i) false
  else if c.code = cAbut then s.setBit pend (8 + i) false
  else if c.code = cDebt then s.setBit pend (24 + i) false
  else if c.code = cSpan then s.setBit (Reg.PIER_SPF.PEND p) i false
  else if c.code = cEvent then s.setEvPending p (c.einfo.toNat % 64) false
  else if c.code = cStep then s.onThr th (fun t => { t with stepDue := none })
  else s

/-- An asynchronous cause taken: FP_IMPRECISE in its place while a TPEND bit is 1 (R137). -/
def State.takeAsync (s : State) (th : Thr) (c : Cause) : State :=
  let t := s.thr th
  if t.tpend ≠ 0 then s.takeFp th t.pc else (s.clearPending th c).takeException th c t.pc

/-! ## Retiring -/

/-- The thread after its instruction completed: one iteration of a repeat, or the next PC; a single step due (R148). `old` is
the thread as the instruction found it. -/
def Thread.retire (t old : Thread) (npc : Word) : Thread :=
  let t := { t with fpAge := if old.tpend ≠ 0 then old.fpAge + 1 else t.fpAge }
  match t.rep with
  | none => { t with pc := npc, stepDue := if old.ss then some old.pc else t.stepDue }
  | some r =>
    let n := t.count - 1
    let t := { t with rptc := putBits t.rptc 0 17 n }
    if n = 0 then { t with rep := none, pc := npc, stepDue := if old.ss then some r.prefixPc else t.stepDue }
    else { t with stepDue := if old.ss && r.interruptible then some r.prefixPc else t.stepDue }

/-- Retired instructions and pier cycles counted. -/
def State.countRetired (s : State) (p cycles : Nat) : State :=
  (s.incWrap (Reg.PIER_RETIRED.COUNT p)).incWrap (Reg.PIER_CYCLES.COUNT p) cycles

/-- An instruction retired. -/
def State.retire (s : State) (th : Thr) (old : Thread) (npc : Word) (cycles : Nat) : State :=
  (s.onThr th (fun t => t.retire old npc)).countRetired th.pier.val cycles

/-- A PC from which a word can be fetched (R53). -/
def pcOk (pc : Word) : Bool := pc.toNat ≤ 0x1FFFC

/-- What takes the place of the instruction before it is fetched: FP_IMPRECISE, then a deferred store error. -/
def State.headCause (s : State) (th : Thr) (settle : Bool) : Option State :=
  let t := s.thr th
  if t.fpDue settle then some (s.takeFp th t.pc)
  else if t.defErrs.isEmpty then none
  else some (s.takeDeferred th)

/-- The outcome of an issued instruction: its precise cause, an asynchronous cause in its place (R136), or its effect. -/
def State.conclude (s : State) (th : Thr) (o : Out) : State :=
  let t := s.thr th
  match o with
  | .stall => s
  | .trap c => s.takeCause th c
  | .fail s' c => s'.takeCause th c
  | .done s' npc n =>
    match s.asyncDue th with
    | some c => s.takeAsync th c
    | none => (s'.onThr th Thread.commitProduct).retire th t npc n
  | .gated s' npc n =>
    match s.asyncDue th with
    | some c => s.takeAsync th c
    | none => (s'.onThr th Thread.commitProduct).retire th { t with tstat := 0 } npc n
  | .product s' npc =>
    match s.asyncDue th with
    | some c => s.takeAsync th c
    | none => s'.retire th t npc 1
  | .wait s' n =>
    match s.asyncDue th with
    | some c => s.takeAsync th c
    | none => s'.incWrap (Reg.PIER_CYCLES.COUNT th.pier.val) n

/-- The issue of an instruction other than a prefix. -/
def State.issue (s : State) (th : Thr) (rp settle : Bool) (body : State → Out) : State :=
  if !s.canIssue th rp then s
  else
    let s := s.onThr th Thread.gretSeen
    match s.headCause th settle with
    | some s' => s'
    | none => s.conclude th (if pcOk (s.thr th).pc then body s else .trap (.mk' cIspace 0 (s.thr th).pc))

/-- The address after the instruction at the PC. -/
def State.npc (s : State) (th : Thr) : Word := (s.thr th).pc + 4

/-- An instruction that changes only registers of its thread and completes in one slot (class N). -/
def State.issueReg (s : State) (th : Thr) (rp : Bool) (f : Thread → Thread) : State :=
  s.issue th rp false (fun s => .done (s.onThr th f) (s.npc th) 1)

/-- A word that is no legal instruction (R71). -/
def illegal (w : Word) : Out := .trap (.mk' cIllegal 0 w)

/-! ## The access of R45 completing -/

/-- A response with data or an acknowledgement for the outstanding access: its effect, its post-increment, and retiring. An ILOAD whose rd
and rs are one register advances it by 8 once (DESIGN CHOICE, log 101). -/
def Access.finish (a : Access) (t : Thread) (v : Nat) : Thread :=
  let t := { t with acc := none }
  let t := match a.kind with
    | .loadG rd n sg => t.wg rd (loadExtend n sg v)
    | .loadF rd n => t.wf rd (BitVec.ofNat 64 (v % 2 ^ (8 * n)))
    | .loadW wd => t.ww wd (BitVec.ofNat 256 v)
    | .iload rd rs => let d := t.rg rd; let a := t.rg rs; (t.wg rd (d + 8)).wg rs (a + 8)
    | .ioIn rd => t.wg rd (BitVec.ofNat 32 v)
    | .store => t
    | .ioOut => t
  t.applyPost a.post

/-- Two I-space words written, the lower first (R80). -/
def State.iwrite8 (s : State) (p a v : Nat) : State := { s with ispace := setBytes s.ispace (0x20000 * p + a) 8 v }

/-- The outstanding access of a thread ends well with data `v`. -/
def State.finishAccess (s : State) (th : Thr) (v : Nat) : State :=
  let t := s.thr th
  match t.acc with
  | none => s
  | some a =>
    let s := match a.kind with
      | .iload rd _ => s.iwrite8 th.pier.val (t.rg rd).toNat v
      | _ => s
    (s.onThr th (fun t => (a.finish t v).commitProduct)).retire th t (t.pc + 4) 0

/-- The outstanding access of a thread ends with an error (R47): precise, EPC naming the access. A deferred store error comes before it, and
the access is made again after the return (R136). -/
def State.failAccess (s : State) (th : Thr) (e : RespErr) : State :=
  let t := s.thr th
  match t.acc with
  | none => s
  | some a =>
    let s := s.onThr th (fun t => { t with acc := none })
    if t.defErrs.isEmpty then s.takeCause th (.mk' e.cause e.code a.einfo) else s.takeDeferred th

end Sys2Proof.Machine
end

