-- ==== Sys2Proof/Machine/PierRegs.lean ====
section
/-!
DEFINITION. A pier's own registers (spec/02, spec/05): thread start and stop (R64, R65), event delivery to WAIT (R66 to R68), and
reads and writes at pier-local addresses (R58, R150).

Choices and readings of this file: log 11, 12, 19.
-/

namespace Sys2Proof.Machine

/-! ## Events and WAIT -/

/-- The lowest event both pending and in the thread's mask. -/
def State.waitEvent (s : State) (th : Thr) : Option Nat :=
  (List.range 64).find? (fun e => s.evPending th.pier.val e && s.evMask th.pier.val th.th.val e)

/-- A WAIT completed by event `e`: Gd written, the pending bit cleared, the thread READY (R67). -/
def State.wakeWith (s : State) (th : Thr) (e : Nat) : State :=
  let t := s.thr th
  let s := s.setEvPending th.pier.val e false
  (s.onThr th (fun t => { (t.wg t.waitRd (BitVec.ofNat 32 e)).commitProduct with run := .running })).retire th t (t.pc + 4) 0

/-- A WAITING thread checked against its mask (R67, R68). -/
def State.tryWake (s : State) (th : Thr) : State :=
  if (s.thr th).run = .waiting then
    match s.waitEvent th with
    | some e => s.wakeWith th e
    | none => s
  else s

/-- Threads of a pier from `u` on, `n` of them, checked in ascending order. -/
def State.tryWakes (s : State) (p u n : Nat) : State :=
  match n with
  | 0 => s
  | n + 1 => (s.tryWake (thrOf p u)).tryWakes p (u + 1) n

/-- Whether a pier accepts event `e` (R66). -/
def State.accepts (s : State) (p e : Nat) : Bool :=
  (List.range 8).any (fun t => s.evMask p t e || s.evTrap p t e)

/-- An event accepted by a pier: pending or merged, then offered to WAITING threads, lowest first (R66, R67). -/
def State.acceptEvent (s : State) (p e : Nat) : State :=
  if s.evPending p e then s.incSat (Reg.PIER_EVCOAL.COUNT p)
  else (s.setEvPending p e true).tryWakes p 0 8

/-! ## Thread control (R64) -/

/-- A thread started from STOPPED: at PIER_THPC, in Kernel mode, its descriptor latch cleared (R93, R125). A prefix there takes its own
count: R90 lets one reached by GRET alone resume (DEDUCED, log 12). A TPEND bit left set is delivered before its first instruction (R119). -/
def State.startThread (s : State) (th : Thr) : State :=
  let pc := s.rf (Reg.PIER_THPC.PC th.pier.val th.th.val)
  s.onThr th (fun t =>
    { t with
      run := .running, stopReq := false, pc := putBits (BitVec.ofNat 32 pc) 0 2 0, tstat := putBits t.tstat 0 1 1,
      latch := none, viaGret := false, fpAge := if t.tpend ≠ 0 then 3 else t.fpAge })

/-- A stop requested: a WAITING thread leaves WAITING at once, its PC at the WAIT. -/
def State.requestStop (s : State) (th : Thr) : State :=
  s.onThr th (fun t => if t.run = .stopped then t else { t with stopReq := true, run := .running })

/-- One RUN bit written. -/
def State.writeRun (s : State) (th : Thr) (b : Bool) : State :=
  if b then (if (s.thr th).run = .stopped then s.startThread th else s) else s.requestStop th

/-- The RUN bits of threads `u` on, `n` of them. -/
def State.writeRuns (s : State) (p u n : Nat) (v : Nat) : State :=
  match n with
  | 0 => s
  | n + 1 => (s.writeRun (thrOf p u) (v % 2 == 1)).writeRuns p (u + 1) n (v / 2)

/-- A thread whose stop has been requested enters STOPPED once nothing of it is outstanding; an RPT ends first, an RPTI saves
its count; PIER_THPC takes the resume PC (R64, R65). -/
def State.stopThread (s : State) (th : Thr) : State :=
  let t := s.thr th
  if t.run != .stopped && t.stopReq && t.acc.isNone && t.stores == 0 && !t.inRpt then
    let t := t.endRepeat
    (s.setThr th { t with run := .stopped, stopReq := false, viaGret := false }).wf (Reg.PIER_THPC.PC th.pier.val th.th.val) t.pc.toNat
  else s

/-! ## Register reads and writes -/

/-- RUN as read: running with no stop requested or caused. -/
def Thread.runBit (t : Thread) : Bool := t.run != .stopped && !t.stopReq

/-- PIER_THRUN as read. -/
def State.thrunView (s : State) (p : Nat) : Word :=
  BitVec.ofNat 32 (((List.range 8).map (fun t => b2n (s.thr (thrOf p t)).runBit * 2 ^ t)).sum)
/-- Refusals of spec/02's registers. -/
def pierRefuse (p : Nat) : RefuseAt :=
  ⟨Reg.PIER_STATUS.REFUSED p, none, some (Reg.PIER_STATUS.REFUSE_EVENT p, Reg.PIER_STATUS.REFUSE_EVENT_EN p)⟩
/-- Refusals of spec/05's registers (R150). -/
def trapRefuse (p : Nat) : RefuseAt :=
  ⟨Reg.PIER_EXC_STATUS.REFUSED p, none, some (Reg.PIER_TRAP_CTL.EXC_EVENT p, Reg.PIER_TRAP_CTL.EXC_EVENT_EN p)⟩

/-- PIER_THRUN written (R64). -/
def State.writeThrun (s : State) (p : Nat) (v : Word) : WRes := .ok (s.writeRuns p 0 8 v.toNat)

/-- PIER_THPC written: refused unless the thread is STOPPED (R65). -/
def State.writeThpc (s : State) (th : Thr) (v : Word) : WRes :=
  let p := th.pier.val
  if (s.thr th).run = .stopped then .ok (s.writeReg .all (Reg.PIER_THPC_at p th.th.val) v)
  else s.refused (pierRefuse p) 0

/-- PIER_EVMASK_LO or _HI written: a WAITING thread is checked at once (R68). -/
def State.writeEvmask (s : State) (th : Thr) (hi : Bool) (v : Word) : WRes :=
  let p := th.pier.val
  let a := if hi then Reg.PIER_EVMASK_HI_at p th.th.val else Reg.PIER_EVMASK_LO_at p th.th.val
  .ok ((s.writeReg .all a v).tryWake th)

/-- A write at a pier's register offset (R58, R150). -/
def State.pierWrite (s : State) (p off : Nat) (v : Word) : WRes :=
  if off = 1 then s.writeThrun p v
  else if 8 ≤ off ∧ off < 0x10 then s.writeThpc (thrOf p (off - 8)) v
  else if 0x10 ≤ off ∧ off < 0x18 then s.writeEvmask (thrOf p (off - 0x10)) false v
  else if 0x18 ≤ off ∧ off < 0x20 then s.writeEvmask (thrOf p (off - 0x18)) true v
  else s.writeOr ⟨!s.on (Reg.PIER_TRAP_CTL.LOCK p), true, true⟩ (trapRefuse p) 0 (0x100 + 0x100 * p + off) v

end Sys2Proof.Machine
end

