-- ==== Sys2Proof/Machine/PierTli.lean ====
section
/-!
DEFINITION. Table look-up with interpolation (spec/03, R91 to R99): the descriptor and its checks, the interval search, and the
interpolation, shared with the Span XLU.

Choices and readings of this file: log 15, 18, 105.
-/

namespace Sys2Proof.Machine

/-! ## The descriptor (Tables isa-12 and isa-13) -/

/-- A descriptor from its 32 bytes. -/
def TblDesc.parse (addr v : Nat) : TblDesc :=
  let w (i : Nat) : Word := BitVec.ofNat 32 (v / 2 ^ (32 * i))
  { addr := addr, n := getBits (w 0) 0 17, extrap := getBits (w 0) 20 2, xmode := getBits (w 0) 22 1 == 1,
    ytype := getBits (w 0) 23 1 == 1, x0 := w 1, dx := w 2, xaddr := w 3, yaddr := w 4 }

/-- Bytes of an element. -/
def TblDesc.esize (d : TblDesc) : Nat := if d.ytype then 2 else 4

/-- The ILLEGAL rows of Table isa-13; `h` for the 16-bit form. -/
def TblDesc.illegal (d : TblDesc) (h : Bool) : Bool :=
  d.n < 2 || 65536 < d.n || d.extrap == 3 || d.ytype != h ||
  (if d.xmode then
    (if d.ytype then decide (sInt 16 d.dx.toNat ≤ sInt 16 d.x0.toNat)
     else b32.isNaN d.x0.toNat || b32.isNaN d.dx.toNat || decide (b32.key d.dx.toNat ≤ b32.key d.x0.toNat))
   else if d.ytype then getBits d.dx 4 28 != 0
   else b32.neg d.dx.toNat || b32.isSub d.dx.toNat || b32.isZero d.dx.toNat || decide (b32.infP ≤ b32.mag d.dx.toNat) ||
     decide (b32.infP ≤ b32.mag d.x0.toNat))

/-- The address that breaks the alignment row, if any: YADDR first. -/
def TblDesc.misaligned (d : TblDesc) : Option Word :=
  if d.yaddr.toNat % d.esize ≠ 0 then some d.yaddr
  else if d.xmode && d.xaddr.toNat % d.esize != 0 then some d.xaddr
  else none

/-- Address of x[i]. -/
def TblDesc.xAt (d : TblDesc) (i : Nat) : Nat := (d.xaddr.toNat + d.esize * i) % 2 ^ 32
/-- Address of y[i]. -/
def TblDesc.yAt (d : TblDesc) (i : Nat) : Nat := (d.yaddr.toNat + d.esize * i) % 2 ^ 32

/-! ## Values and intervals (R94) -/

/-- A finite binary32 in units of 2^−149. -/
def fx (b : Nat) : Int :=
  let d := b32.dy b
  (if d.neg then -1 else 1) * ((d.m * 2 ^ (d.e + 149).toNat : Nat) : Int)

/-- Where x lies. -/
inductive XLoc where
  | below | inside | last | above
  deriving DecidableEq, Repr

/-- An integer against first and last. -/
def locate (x first last : Int) : XLoc :=
  if x < first then .below else if last < x then .above else if x = last then .last else .inside

/-- First breakpoint and spacing of a uniform table, and its last breakpoint. -/
def TblDesc.uni (d : TblDesc) : Int × Int × Int :=
  let x0 := if d.ytype then sInt 16 d.x0.toNat else fx d.x0.toNat
  let dx := if d.ytype then ((2 ^ (d.dx.toNat % 16) : Nat) : Int) else fx d.dx.toNat
  (x0, dx, x0 + ((d.n : Int) - 1) * dx)

/-- Where x lies (R94): by exact value; `x` is bits for the binary32 form, 16 bits for the integer form. -/
def TblDesc.loc (d : TblDesc) (x : Nat) : XLoc :=
  if d.ytype then
    (if d.xmode then locate (sInt 16 x) (sInt 16 d.x0.toNat) (sInt 16 d.dx.toNat)
     else locate (sInt 16 x) d.uni.1 d.uni.2.2)
  else if d.xmode then locate (b32.key x) (b32.key d.x0.toNat) (b32.key d.dx.toNat)
  else if b32.isInf x then (if b32.neg x then .below else .above)
  else locate (fx x) d.uni.1 d.uni.2.2

/-- Whether x is at or above an x array element (the search of R94); never for a NaN element. -/
def TblDesc.ge (d : TblDesc) (x e : Nat) : Bool :=
  if d.ytype then decide (sInt 16 e ≤ sInt 16 x)
  else !b32.isNaN e && decide (b32.key e ≤ b32.key x)

/-! ## Results (R95 to R97) -/

/-- y as TLI returns it without arithmetic: bit for bit, a signalling NaN quieted (R95). -/
def yOut (c : FCtx) (y : Nat) : Fr := ⟨b32.quiet (c.inp y), if b32.isSNaN y then fNV else 0⟩

/-- y0 + f × (y1 − y0) with f = num / den, den not 0, rounded once; infinite and NaN y values as IEEE 754 evaluates the
formula (DESIGN CHOICE, log 15). -/
def interpF (c : FCtx) (num den : Int) (y0 y1 : Nat) : Fr :=
  if num = 0 then yOut c y0
  else
    match b32.nans [y0, y1] with
    | some r => r
    | none =>
      let a := c.inp y0
      let b := c.inp y1
      let fneg := decide (num < 0) != decide (den < 0)
      if b32.isInf a || b32.isInf b then
        let dy := c.add true b a
        if b32.isNaN dy.bits then dy
        else c.add false a (b32.signed (b32.neg dy.bits != fneg) b32.infP)
      else
        let t := (fx a * den + num * (fx b - fx a)) * (if den < 0 then -1 else 1)
        if t = 0 then ⟨b32.signed (c.rm == 2) 0, 0⟩ else c.roundRat (decide (t < 0)) t.natAbs den.natAbs (-149)

/-- LINEAR with an infinite x (R96): f is an infinity of sign `fneg`; the difference is exact, so flush-to-zero does not touch it (R95). -/
def interpInf (c : FCtx) (fneg : Bool) (y0 y1 : Nat) : Fr :=
  match b32.nans [y0, y1] with
  | some r => r
  | none =>
    let a := c.inp y0
    let b := c.inp y1
    if b32.isInf a || b32.isInf b then
      let dy := c.add true b a
      if b32.isNaN dy.bits then dy else c.add false a (b32.signed (b32.neg dy.bits != fneg) b32.infP)
    else if fx b = fx a then b32.invalid
    else ⟨b32.signed (decide (fx b < fx a) != fneg) b32.infP, 0⟩

/-- TLIH (R97): y0 + ⌊v + 1/2⌋ saturated, v = (num / den) × (y1 − y0). -/
def interpI (num den y0 y1 : Int) : Int :=
  if num = 0 ∨ den = 0 then y0
  else
    let sg : Int := if den < 0 then -1 else 1
    satS 16 (y0 + (2 * num * sg * (y1 - y0) + den * sg) / (2 * (den * sg)))

/-! ## Reads -/

/-- A table or descriptor read that failed, or its value, with the state and the issue slots so far. -/
structure TRead where
  st : State
  err : Option Cause
  v : Nat
  slots : Nat

/-- Whether a Deck read by a pier must wait: its shell is not ONLINE, its NI has no entry left, earlier requests to the same endpoint are
not yet performed, or the quarter initialises (R46, R48, R212, R250). -/
def State.deckWait (s : State) (p off n : Nat) : Bool :=
  !s.online p || s.niFull p || s.behind p 0 (NetOp.entry (.deckRd off n)) || s.quarterBusy off

/-- One Deck access of a TLI: `n` bytes at D-space address `a`, or nothing while it must wait. -/
def State.tblDeck (s : State) (p a n slots : Nat) : TRead :=
  if s.deckWait p (a - deckBase) n then ⟨s, some (.mk' 0 0 0), 0, slots⟩
  else
    let r := s.deckFetch p 0 (a - deckBase) n
    match r.1.1 with
    | some v => ⟨r.2, none, v, slots⟩
    | none => ⟨r.2, some (.mk' r.1.2.cause r.1.2.code (BitVec.ofNat 32 a)), 0, slots⟩

/-- A read of `n` bytes at D-space address `a` by a thread's TLI: its checks, then the scratchpad, mailbox or Deck. -/
def State.tblRead (s : State) (th : Thr) (a n slots : Nat) : TRead :=
  let p := th.pier.val
  match s.dspaceCheck th a n 1 false with
  | some c => ⟨s, some c, 0, slots⟩
  | none =>
    if isDeck s.grade a then s.tblDeck p a n slots
    else ⟨s, none, s.localRd p a n, slots + (if n = 32 then 4 else 1)⟩

/-- Two adjacent elements at `a` and `b`, each checked: one slot, or one Deck access, when both lie in one row (Table isa-14). -/
def TRead.pair (r : TRead) (th : Thr) (a b n : Nat) : TRead × TRead :=
  let s := r.st
  let row := a / 8 = b / 8 ∧ a < b
  if row ∧ isDeck s.grade a then
    match (s.dspaceCheck th a n 1 false).or (s.dspaceCheck th b n 1 false) with
    | some c => ({ r with err := some c }, { r with err := some c })
    | none =>
      let q := s.tblDeck th.pier.val a (b - a + n) r.slots
      ({ q with v := q.v % 256 ^ n }, { q with v := q.v / 256 ^ (b - a) })
  else
    let r1 := s.tblRead th a n r.slots
    match r1.err with
    | some _ => (r1, r1)
    | none =>
      let r2 := r1.st.tblRead th b n r1.slots
      (r1, if row then { r2 with slots := r1.slots } else r2)

/-- Passes of the search over `n` points, as Table isa-14 counts them: ⌈log2(n − 1)⌉. -/
def searchPasses (n : Nat) : Nat := if n ≤ 2 then 0 else Nat.log2 (n - 2) + 1

/-- The search of R94 over the x array: the interval's lower index. -/
def State.tblSearch (s : State) (th : Thr) (d : TblDesc) (x : Nat) (fuel lo hi slots : Nat) : TRead :=
  match fuel with
  | 0 => ⟨s, none, lo, slots⟩
  | fuel + 1 =>
    if hi - lo ≤ 1 then ⟨s, none, lo, slots⟩
    else
      let mid := (lo + hi) / 2
      let r := s.tblRead th (d.xAt mid) d.esize slots
      match r.err with
      | some _ => r
      | none => if d.ge x r.v then r.st.tblSearch th d x fuel mid hi r.slots else r.st.tblSearch th d x fuel lo mid r.slots

/-- The fraction of an interpolation: f = num / den, or an infinity, or no value the spec states. -/
inductive Frac where
  | ratio (num den : Int)
  | infinite (neg : Bool)
  | unstated
  deriving DecidableEq, Repr

/-- f of a uniform table in interval i. -/
def TblDesc.fracUni (d : TblDesc) (x i : Nat) : Frac :=
  if !d.ytype && b32.isInf x then .infinite (b32.neg x)
  else .ratio ((if d.ytype then sInt 16 x else fx x) - d.uni.1 - (i : Int) * d.uni.2.1) d.uni.2.1

/-- f of an x array in the interval from a to b: 0 where they are equal, and where x is a (R94). Other infinite breakpoints, and NaN ones,
leave f unstated. -/
def TblDesc.fracArr (d : TblDesc) (x a b : Nat) : Frac :=
  if d.ytype then .ratio (sInt 16 x - sInt 16 a) (sInt 16 b - sInt 16 a)
  else if b32.isNaN a ∨ b32.isNaN b then .unstated
  else if b32.key a = b32.key b ∨ b32.key a = b32.key x then .ratio 0 1
  else if b32.infP ≤ b32.mag a ∨ b32.infP ≤ b32.mag b then .unstated
  else if b32.isInf x then .infinite (b32.neg x != decide (b32.key b < b32.key a))
  else .ratio (fx x - fx a) (fx b - fx a)

/-- The lower index of the interval: from the uniform spacing, the search, or the end of the table out of range. -/
def State.tblIndex (s : State) (th : Thr) (d : TblDesc) (x slots : Nat) : TRead :=
  match d.loc x with
  | .below => ⟨s, none, 0, slots⟩
  | .above => ⟨s, none, d.n - 2, slots⟩
  | _ =>
    if d.xmode then
      let r := s.tblSearch th d x 17 0 (d.n - 1) slots
      if r.err.isSome ∨ isDeck s.grade d.xaddr.toNat then r else { r with slots := slots + searchPasses d.n }
    else ⟨s, none, (((if d.ytype then sInt 16 x else fx x) - d.uni.1) / d.uni.2.1).toNat, slots⟩

/-- The result of a look-up: state, cause of failure, result and flags, slots. -/
structure TRes where
  st : State
  err : Option Cause
  res : Fr
  slots : Nat

/-- The interpolation in an interval: breakpoints where the table has them, then y values (R95 to R97). -/
def State.tblInterp (s : State) (th : Thr) (c : FCtx) (d : TblDesc) (x slots : Nat) : TRes :=
  let ix := s.tblIndex th d x slots
  match ix.err with
  | some e => ⟨ix.st, some e, ⟨0, 0⟩, ix.slots⟩
  | none =>
    let i := ix.v
    let xs := if d.xmode then ix.pair th (d.xAt i) (d.xAt (i + 1)) d.esize else (ix, ix)
    match xs.2.err with
    | some e => ⟨xs.2.st, some e, ⟨0, 0⟩, xs.2.slots⟩
    | none =>
      let f := if d.xmode then d.fracArr x xs.1.v xs.2.v else d.fracUni x i
      let ys := xs.2.pair th (d.yAt i) (d.yAt (i + 1)) d.esize
      match ys.2.err with
      | some e => ⟨ys.2.st, some e, ⟨0, 0⟩, ys.2.slots⟩
      | none =>
        let s := ys.2.st
        let y0 := ys.1.v
        let y1 := ys.2.v
        match f with
        | .ratio num den =>
          if d.ytype then ⟨s, none, ⟨uNat 32 (interpI num den (sInt 16 y0) (sInt 16 y1)), 0⟩, ys.2.slots⟩
          else ⟨s, none, interpF c num den y0 y1, ys.2.slots⟩
        | .infinite neg => ⟨s, none, interpInf c neg y0 y1, ys.2.slots⟩
        | .unstated =>
          let r := s.takeFree
          ⟨r.2, none, ⟨r.1 % 2 ^ 32, 0⟩, ys.2.slots⟩

/-- One y value returned bit for bit. -/
def State.tblOne (s : State) (th : Thr) (c : FCtx) (d : TblDesc) (i slots : Nat) : TRes :=
  let r := s.tblRead th (d.yAt i) d.esize slots
  ⟨r.st, r.err, if d.ytype then ⟨uNat 32 (sInt 16 r.v), 0⟩ else yOut c r.v, r.slots⟩

/-- A look-up of x in a validated table (R94 to R97). -/
def State.tblLook (s : State) (th : Thr) (c : FCtx) (d : TblDesc) (x0 slots : Nat) : TRes :=
  if !d.ytype && b32.isNaN x0 then ⟨s, none, ⟨b32.quiet x0, if b32.isSNaN x0 then fNV else 0⟩, slots⟩
  else
    let x := if d.ytype then x0 else c.inp x0
    match d.loc x with
    | .last => s.tblOne th c d (d.n - 1) slots
    | .inside => s.tblInterp th c d x slots
    | l =>
      if d.extrap = 0 then s.tblOne th c d (if l = .below then 0 else d.n - 1) slots
      else if d.extrap = 1 then s.tblInterp th c d x slots
      else ⟨s, none, if d.ytype then ⟨uNat 32 (-32768), 0⟩ else ⟨b32.defNaN, 0⟩, slots⟩

/-- The descriptor of a TLI: the latched copy, or read and checked in the row order of Table isa-13 (R92, R93). -/
def State.tblDesc (s : State) (th : Thr) (gt : Word) (h : Bool) : TRead × TblDesc :=
  let t := s.thr th
  let none' : TblDesc := TblDesc.parse 0 0
  if gt.toNat % 8 ≠ 0 then (⟨s, some (.mk' cAlign 0 gt), 0, 1⟩, none')
  else
    let hit := match t.latch with | some d => if d.addr = gt.toNat then some d else none | none => none
    let r := match hit with
      | some _ => (⟨s, none, 0, 1⟩ : TRead)
      | none => s.tblRead th gt.toNat 32 1
    let d := match hit with | some d => d | none => TblDesc.parse gt.toNat r.v
    match r.err with
    | some _ => (r, d)
    | none =>
      if d.illegal h then ({ r with err := some (.mk' cIllegal 0 gt) }, d)
      else match d.misaligned with
        | some a => ({ r with err := some (.mk' cAlign 0 a) }, d)
        | none => ({ r with st := r.st.onThr th (fun t => { t with latch := some d }) }, d)

/-- A failed read as the instruction's outcome; the waiting one issues nothing. -/
def TRead.out (s : State) (c : Cause) : Out := if c.code = 0 then .stall else .fail s c

/-- A look-up by a thread: `x` the operand and `put` the destination. -/
def State.lookup (s : State) (th : Thr) (rt : RegIx) (h : Bool) (x : Thread → Nat)
    (put : Thread → Nat → Thread) : State :=
  s.issue th false false (fun s =>
    let t := s.thr th
    let dd := s.tblDesc th (t.rg rt) h
    match dd.1.err with
    | some c => TRead.out dd.1.st c
    | none =>
      let r := dd.1.st.tblLook th (t.fctx b32) dd.2 (x t) dd.1.slots
      match r.err with
      | some c => TRead.out r.st c
      | none => .done (r.st.onThr th (fun t => (put t r.res.bits).raiseFlags r.res.flags)) (s.npc th) r.slots)

/-- TLI (R91, R94 to R96): Fd ← the interpolated binary32 of Fs[31:0] in the table at Gt. -/
def execTli (th : Thr) (rd rs rt : RegIx) (s : State) : Host.Outcome State Fault Refusal :=
  .next (s.lookup th rt false (fun t => (t.rf rs).toNat % 2 ^ 32)
    (fun t v => t.wf rd (BitVec.ofNat 64 v)))

/-- TLIH (R91, R97): Gd ← the interpolated 16-bit value of Gs[15:0], sign-extended. -/
def execTlih (th : Thr) (rd rs rt : RegIx) (s : State) : Host.Outcome State Fault Refusal :=
  .next (s.lookup th rt true (fun t => (t.rg rs).toNat % 2 ^ 16)
    (fun t v => t.wg rd (BitVec.ofNat 32 v)))

/-- TLINV (R93): the thread's descriptor latch cleared. -/
def execTlinv (th : Thr) (s : State) : Host.Outcome State Fault Refusal :=
  .next (s.issueReg th false (fun t => { t with latch := none }))

end Sys2Proof.Machine
end

