-- ==== Sys2Proof/Machine/PierFp.lean ====
section
/-!
DEFINITION. Scalar floating-point instructions (spec/04, Tables fp-3 and fp-4; R100, R103, R106 to R112, R115, R118).
-/

namespace Sys2Proof.Machine

/-- An operand of format z in an F register: binary32 in bits [31:0] (R100). -/
def Thread.fop (t : Thread) (z : FSz) (r : RegIx) : Nat := (t.rf r).toNat % 2 ^ z.fmt.width
/-- A result written to an F register; a binary32 clears bits [63:32] (R100). -/
def Thread.fres (t : Thread) (rd : RegIx) (v : Nat) : Thread := t.wf rd (BitVec.ofNat 64 v)

/-- A floating-point instruction: registers changed and flags raised (R115), `n` pier cycles. -/
def State.fp (s : State) (th : Thr) (rp : Bool) (n : Nat) (f : Thread → Thread × Nat) : State :=
  s.issue th rp false (fun s =>
    .done (s.onThr th (fun t => (f t).1.raiseFlags (f t).2)) (s.npc th) n)

/-- Fd ← f Fs Ft. -/
def State.fpArith (s : State) (th : Thr) (z : FSz) (rd rs rt : RegIx) (rp : Bool) (n : Nat)
    (f : FCtx → Nat → Nat → Fr) : State :=
  s.fp th rp n (fun t =>
    let r := f (t.fctx z.fmt) (t.fop z rs) (t.fop z rt)
    (t.fres rd r.bits, r.flags))

/-- Fd ← f Fs. -/
def State.fpUnary (s : State) (th : Thr) (z : FSz) (rd rs : RegIx) (rp : Bool) (n : Nat) (f : FCtx → Nat → Fr) : State :=
  s.fp th rp n (fun t =>
    let r := f (t.fctx z.fmt) (t.fop z rs)
    (t.fres rd r.bits, r.flags))

/-- Fd ← ±(Fs × Ft) ± Fd with one rounding (R107). -/
def State.fpFma (s : State) (th : Thr) (z : FSz) (rd rs rt : RegIx) (np nd : Bool) : State :=
  s.fp th true 1 (fun t =>
    let r := (t.fctx z.fmt).fma np nd (t.fop z rs) (t.fop z rt) (t.fop z rd)
    (t.fres rd r.bits, r.flags))

/-- Gd ← the truth of a compare (R111). -/
def State.fpCmp (s : State) (th : Thr) (z : FSz) (rd rs rt : RegIx) (k : FCmp) : State :=
  s.fp th true 1 (fun t =>
    let r := (t.fctx z.fmt).cmp k (t.fop z rs) (t.fop z rt)
    (t.wg rd (BitVec.ofNat 32 (b2n r.1)), r.2))

/-- Gd ← an integer of Fs in [lo, hi] (R112), in FCTL.RM or toward zero. -/
def State.fpToInt (s : State) (th : Thr) (z : FSz) (rd rs : RegIx) (toZero : Bool) (lo hi : Int) : State :=
  s.fp th true 1 (fun t =>
    let c := t.fctx z.fmt
    let r := FCtx.toInt { c with rm := if toZero then 1 else c.rm } lo hi (t.fop z rs)
    (t.wg rd (BitVec.ofInt 32 r.1), r.2))

/-- Fd ← an integer of Gs. -/
def State.fpOfInt (s : State) (th : Thr) (z : FSz) (rd rs : RegIx) (f : Word → Int) : State :=
  s.fp th true 1 (fun t =>
    let r := (t.fctx z.fmt).ofInt (f (t.rg rs))
    (t.fres rd r.bits, r.flags))

/-- Cycles of FDIV (Table pier-4). -/
def divCycles : FSz → Nat
  | .s => 14 | .d => 28
/-- Cycles of FSQRT (Table pier-4). -/
def sqrtCycles : FSz → Nat
  | .s => 16 | .d => 30

/-- FADD (Table fp-3): Fd ← Fs + Ft. -/
def execFadd (th : Thr) (z : FSz) (rd rs rt : RegIx) (s : State) : Host.Outcome State Fault Refusal :=
  .next (s.fpArith th z rd rs rt true 1 (fun c a b => c.add false a b))

/-- FSUB (Table fp-3): Fd ← Fs − Ft. -/
def execFsub (th : Thr) (z : FSz) (rd rs rt : RegIx) (s : State) : Host.Outcome State Fault Refusal :=
  .next (s.fpArith th z rd rs rt true 1 (fun c a b => c.add true a b))

/-- FMUL (Table fp-3): Fd ← Fs × Ft. -/
def execFmul (th : Thr) (z : FSz) (rd rs rt : RegIx) (s : State) : Host.Outcome State Fault Refusal :=
  .next (s.fpArith th z rd rs rt true 1 (fun c a b => c.mul a b))

/-- FDIV (Table fp-3): Fd ← Fs ÷ Ft; a long operation (R49), not repeatable (R105). -/
def execFdiv (th : Thr) (z : FSz) (rd rs rt : RegIx) (s : State) : Host.Outcome State Fault Refusal :=
  .next (s.fpArith th z rd rs rt false (divCycles z) (fun c a b => c.div a b))

/-- FSQRT (Table fp-3): Fd ← √Fs; a long operation. -/
def execFsqrt (th : Thr) (z : FSz) (rd rs : RegIx) (s : State) : Host.Outcome State Fault Refusal :=
  .next (s.fpUnary th z rd rs false (sqrtCycles z) (fun c a => c.sqrt a))

/-- FMIN (R111): minimumNumber. -/
def execFmin (th : Thr) (z : FSz) (rd rs rt : RegIx) (s : State) : Host.Outcome State Fault Refusal :=
  .next (s.fpArith th z rd rs rt true 1 (fun c a b => c.minMax false a b))

/-- FMAX (R111): maximumNumber. -/
def execFmax (th : Thr) (z : FSz) (rd rs rt : RegIx) (s : State) : Host.Outcome State Fault Refusal :=
  .next (s.fpArith th z rd rs rt true 1 (fun c a b => c.minMax true a b))

/-- FABS (R108): sign bit cleared. -/
def execFabs (th : Thr) (z : FSz) (rd rs : RegIx) (s : State) : Host.Outcome State Fault Refusal :=
  .next (s.fpUnary th z rd rs true 1 (fun c a => ⟨c.f.signed false (c.f.mag a), 0⟩))

/-- FNEG (R108): sign bit inverted. -/
def execFneg (th : Thr) (z : FSz) (rd rs : RegIx) (s : State) : Host.Outcome State Fault Refusal :=
  .next (s.fpUnary th z rd rs true 1 (fun c a => ⟨c.f.signed (!c.f.neg a) (c.f.mag a), 0⟩))

/-- FSGNJ (R108): magnitude of Fs with the sign bit of Ft. -/
def execFsgnj (th : Thr) (z : FSz) (rd rs rt : RegIx) (s : State) : Host.Outcome State Fault Refusal :=
  .next (s.fpArith th z rd rs rt true 1 (fun c a b => ⟨c.f.signed (c.f.neg b) (c.f.mag a), 0⟩))

/-- FMA (R107): Fd ← Fs × Ft + Fd. -/
def execFma (th : Thr) (z : FSz) (rd rs rt : RegIx) (s : State) : Host.Outcome State Fault Refusal :=
  .next (s.fpFma th z rd rs rt false false)

/-- FMSUB (R107): Fd ← Fs × Ft − Fd. -/
def execFmsub (th : Thr) (z : FSz) (rd rs rt : RegIx) (s : State) : Host.Outcome State Fault Refusal :=
  .next (s.fpFma th z rd rs rt false true)

/-- FNMSUB (R107): Fd ← −(Fs × Ft) + Fd. -/
def execFnmsub (th : Thr) (z : FSz) (rd rs rt : RegIx) (s : State) : Host.Outcome State Fault Refusal :=
  .next (s.fpFma th z rd rs rt true false)

/-- FNMADD (R107): Fd ← −(Fs × Ft) − Fd. -/
def execFnmadd (th : Thr) (z : FSz) (rd rs rt : RegIx) (s : State) : Host.Outcome State Fault Refusal :=
  .next (s.fpFma th z rd rs rt true true)

/-- FEQ (R111): Gd ← 1 or 0. -/
def execFeq (th : Thr) (z : FSz) (rd rs rt : RegIx) (s : State) : Host.Outcome State Fault Refusal :=
  .next (s.fpCmp th z rd rs rt .eq)

/-- FLT (R111): Gd ← 1 or 0. -/
def execFlt (th : Thr) (z : FSz) (rd rs rt : RegIx) (s : State) : Host.Outcome State Fault Refusal :=
  .next (s.fpCmp th z rd rs rt .lt)

/-- FLE (R111): Gd ← 1 or 0. -/
def execFle (th : Thr) (z : FSz) (rd rs rt : RegIx) (s : State) : Host.Outcome State Fault Refusal :=
  .next (s.fpCmp th z rd rs rt .le)

/-- FCLASS (Table fp-5): Gd ← class mask. -/
def execFclass (th : Thr) (z : FSz) (rd rs : RegIx) (s : State) : Host.Outcome State Fault Refusal :=
  .next (s.fp th true 1 (fun t => (t.wg rd (BitVec.ofNat 32 (z.fmt.fclass (t.fop z rs))), 0)))

/-- FRND (R106): Fs rounded to an integral value. -/
def execFrnd (th : Thr) (z : FSz) (rd rs : RegIx) (s : State) : Host.Outcome State Fault Refusal :=
  .next (s.fpUnary th z rd rs true 1 (fun c a => c.rnd a))

/-- FCVT.S.D (R106, R110). -/
def execFcvtSD (th : Thr) (rd rs : RegIx) (s : State) : Host.Outcome State Fault Refusal :=
  .next (s.fp th true 1 (fun t =>
    let r := cvtSD (t.fctx b64).rm (t.fctx b64).ftz (t.fop .d rs)
    (t.fres rd r.bits, r.flags)))

/-- FCVT.D.S (R110): exact. -/
def execFcvtDS (th : Thr) (rd rs : RegIx) (s : State) : Host.Outcome State Fault Refusal :=
  .next (s.fp th true 1 (fun t =>
    let r := cvtDS (t.fctx b32).ftz (t.fop .s rs)
    (t.fres rd r.bits, r.flags)))

/-- FcvtWS (R112): signed 32-bit of Fs. -/
def execFcvtWS (th : Thr) (rd rs : RegIx) (s : State) : Host.Outcome State Fault Refusal :=
  .next (s.fpToInt th .s rd rs false (-2147483648) 2147483647)

/-- FcvtWD (R112): signed 32-bit of Fs. -/
def execFcvtWD (th : Thr) (rd rs : RegIx) (s : State) : Host.Outcome State Fault Refusal :=
  .next (s.fpToInt th .d rd rs false (-2147483648) 2147483647)

/-- FcvtzWS (R112): signed 32-bit of Fs, toward zero. -/
def execFcvtzWS (th : Thr) (rd rs : RegIx) (s : State) : Host.Outcome State Fault Refusal :=
  .next (s.fpToInt th .s rd rs true (-2147483648) 2147483647)

/-- FcvtzWD (R112): signed 32-bit of Fs, toward zero. -/
def execFcvtzWD (th : Thr) (rd rs : RegIx) (s : State) : Host.Outcome State Fault Refusal :=
  .next (s.fpToInt th .d rd rs true (-2147483648) 2147483647)

/-- FcvtWuS (R112): unsigned 32-bit of Fs. -/
def execFcvtWuS (th : Thr) (rd rs : RegIx) (s : State) : Host.Outcome State Fault Refusal :=
  .next (s.fpToInt th .s rd rs false 0 4294967295)

/-- FcvtWuD (R112): unsigned 32-bit of Fs. -/
def execFcvtWuD (th : Thr) (rd rs : RegIx) (s : State) : Host.Outcome State Fault Refusal :=
  .next (s.fpToInt th .d rd rs false 0 4294967295)

/-- FcvtzWuS (R112): unsigned 32-bit of Fs, toward zero. -/
def execFcvtzWuS (th : Thr) (rd rs : RegIx) (s : State) : Host.Outcome State Fault Refusal :=
  .next (s.fpToInt th .s rd rs true 0 4294967295)

/-- FcvtzWuD (R112): unsigned 32-bit of Fs, toward zero. -/
def execFcvtzWuD (th : Thr) (rd rs : RegIx) (s : State) : Host.Outcome State Fault Refusal :=
  .next (s.fpToInt th .d rd rs true 0 4294967295)

/-- FcvtSW (R106): Fd ← the integer Gs. -/
def execFcvtSW (th : Thr) (rd rs : RegIx) (s : State) : Host.Outcome State Fault Refusal :=
  .next (s.fpOfInt th .s rd rs (fun a => a.toInt))

/-- FcvtSWu (R106): Fd ← the integer Gs. -/
def execFcvtSWu (th : Thr) (rd rs : RegIx) (s : State) : Host.Outcome State Fault Refusal :=
  .next (s.fpOfInt th .s rd rs (fun a => (a.toNat : Int)))

/-- FcvtDW (R106): Fd ← the integer Gs. -/
def execFcvtDW (th : Thr) (rd rs : RegIx) (s : State) : Host.Outcome State Fault Refusal :=
  .next (s.fpOfInt th .d rd rs (fun a => a.toInt))

/-- FcvtDWu (R106): Fd ← the integer Gs. -/
def execFcvtDWu (th : Thr) (rd rs : RegIx) (s : State) : Host.Outcome State Fault Refusal :=
  .next (s.fpOfInt th .d rd rs (fun a => (a.toNat : Int)))

/-- FMV.X.S (Table fp-4): Gd ← Fs[31:0]. -/
def execFmvXS (th : Thr) (rd rs : RegIx) (s : State) : Host.Outcome State Fault Refusal :=
  .next (s.issueReg th true (fun t => t.wg rd ((t.rf rs).setWidth 32)))

/-- FMV.S.X (Table fp-4): Fd[31:0] ← Gs; Fd[63:32] ← 0. -/
def execFmvSX (th : Thr) (rd rs : RegIx) (s : State) : Host.Outcome State Fault Refusal :=
  .next (s.issueReg th true (fun t => t.wf rd ((t.rg rs).setWidth 64)))

/-- FMV.X.DH (Table fp-4): Gd ← Fs[63:32]. -/
def execFmvXDh (th : Thr) (rd rs : RegIx) (s : State) : Host.Outcome State Fault Refusal :=
  .next (s.issueReg th true (fun t => t.wg rd ((t.rf rs).extractLsb 63 32)))

/-- FMV.D.X (Table fp-4): Fd[63:32] ← Gt; Fd[31:0] ← Gs. -/
def execFmvDX (th : Thr) (rd rs rt : RegIx) (s : State) : Host.Outcome State Fault Refusal :=
  .next (s.issueReg th true (fun t => t.wf rd (t.rg rt ++ t.rg rs)))

/-- FMV.D (Table fp-4): Fd ← Fs. -/
def execFmvD (th : Thr) (rd rs : RegIx) (s : State) : Host.Outcome State Fault Refusal :=
  .next (s.issueReg th true (fun t => t.wf rd (t.rf rs)))

/-- FPBAR (R118): the flags of earlier operations have reached FSTAT; FP_IMPRECISE is delivered if any TPEND bit is 1, EPC naming
the instruction after FPBAR; else it completes. Where R116 lets no further instruction enter F1 before the delivery, it comes before FPBAR. -/
def execFpbar (th : Thr) (s : State) : Host.Outcome State Fault Refusal :=
  .next (
    let t := s.thr th
    if s.canIssue th false && t.tpend != 0 && !t.fpDue false then (s.onThr th Thread.gretSeen).takeFp th (t.pc + 4)
    else s.issue th false false (fun s => .done s (s.npc th) 1))

end Sys2Proof.Machine
end

