-- ==== Sys2Proof/Machine/PierVec.lean ====
section
/-!
DEFINITION. Short vectors (spec/04, Tables fp-1, fp-6 and fp-7; R101, R104, R110 to R113, R120 to R122).

Choices and readings of this file: log 16.
-/

namespace Sys2Proof.Machine

/-! ## Lanes (R101) -/

/-- Lane width in bits. -/
def VTy.w : VTy → Nat
  | .f32 => 32 | .f64 => 64 | .i16 => 16 | .i8 => 8
/-- Lanes. -/
def VTy.lanes : VTy → Nat
  | .f32 => 8 | .f64 => 4 | .i16 => 16 | .i8 => 32
/-- T code. -/
def VTy.code : VTy → Nat
  | .f32 => 0 | .f64 => 1 | .i16 => 2 | .i8 => 3
/-- A floating-point type. -/
def VTy.isF : VTy → Bool
  | .f32 => true | .f64 => true | _ => false
/-- Its format; binary32 for the integer types, which do not use it. -/
def VTy.fmt : VTy → Fmt
  | .f64 => b64 | _ => b32

/-- Lane j of width w. -/
def lane (v : WVec) (w j : Nat) : Nat := v.toNat / 2 ^ (w * j) % 2 ^ w
/-- The lanes of a register, lane 0 first. -/
def lanesOf (v : WVec) (w n : Nat) : List Nat := (List.range n).map (lane v w)
/-- Lanes packed, lane 0 lowest. -/
def packLanes (w : Nat) (ls : List Nat) : Nat :=
  match ls with
  | [] => 0
  | l :: t => l % 2 ^ w + 2 ^ w * packLanes w t
/-- A register of lanes. -/
def ofLanes (w : Nat) (ls : List Nat) : WVec := BitVec.ofNat 256 (packLanes w ls)
/-- The union of the flags of lanes (R115). -/
def orAll (rs : List Fr) : Nat := (rs.map Fr.flags).foldl (· ||| ·) 0

/-- A short-vector instruction: its word must be legal for the type (R102, R104). -/
def State.vec (s : State) (th : Thr) (ok : Bool) (w : Word) (f : Thread → Thread × Nat) : State :=
  s.issue th true false (fun s =>
    if !ok then illegal w
    else .done (s.onThr th (fun t => (f t).1.raiseFlags (f t).2)) (s.npc th) 1)

/-- Wd ← lane by lane of Ws and Wt, with each lane's flags. -/
def Thread.lanes2 (t : Thread) (ty : VTy) (wd ws wt : WIx) (f : Nat → Nat → Fr) : Thread × Nat :=
  let rs := List.zipWith f (lanesOf (t.rw ws) ty.w ty.lanes) (lanesOf (t.rw wt) ty.w ty.lanes)
  (t.ww wd (ofLanes ty.w (rs.map Fr.bits)), orAll rs)

/-- Word of OP 0x23. -/
def encV (op : Nat) (ty : VTy) (rd rs rt : Nat) : Word := encA 0x23 rd rs rt (8 * op + ty.code)
/-- Word of OP 0x24 with a T code. -/
def encM (base : Nat) (ty : VTy) (rd rs rt : Nat) : Word := encA 0x24 rd rs rt (base + ty.code)

/-- A lane operation of OP 0x23: `ff` for the floating-point types, `fi` for the integer ones by width. -/
def State.vecOp (s : State) (th : Thr) (op : Nat) (ty : VTy) (ok : Bool) (wd ws wt : WIx) (ff : FCtx → Nat → Nat → Fr)
    (fi : Nat → Int → Int → Int) : State :=
  s.vec th ok (encV op ty wd.val ws.val wt.val) (fun t =>
    t.lanes2 ty wd ws wt (fun a b =>
      if ty.isF then ff (t.fctx ty.fmt) a b else ⟨uNat ty.w (fi ty.w (sInt ty.w a) (sInt ty.w b)), 0⟩))

/-- All ones or zeros. -/
def maskOf (w : Nat) (b : Bool) : Nat := if b then 2 ^ w - 1 else 0

/-- A lane compare (R111). -/
def State.vecCmp (s : State) (th : Thr) (op : Nat) (ty : VTy) (wd ws wt : WIx) (k : FCmp) (ki : Int → Int → Bool) : State :=
  s.vecOp th op ty true wd ws wt (fun c a b => let r := c.cmp k a b; ⟨maskOf ty.w r.1, r.2⟩)
    (fun _ a b => if ki a b then -1 else 0)

/-- A bitwise operation over 256 bits. -/
def State.vecBits (s : State) (th : Thr) (op : Nat) (ty : VTy) (wd ws wt : WIx) (f : WVec → WVec → WVec → WVec) : State :=
  s.vec th true (encV op ty wd.val ws.val wt.val) (fun t => (t.ww wd (f (t.rw wd) (t.rw ws) (t.rw wt)), 0))

/-- VADD (Table fp-6): Ws + Wt. -/
def execVadd (th : Thr) (ty : VTy) (wd ws wt : WIx) (s : State) : Host.Outcome State Fault Refusal :=
  .next (s.vecOp th 0x00 ty true wd ws wt (fun c a b => c.add false a b) (fun _ a b => a + b))
/-- VSUB (Table fp-6): Ws − Wt. -/
def execVsub (th : Thr) (ty : VTy) (wd ws wt : WIx) (s : State) : Host.Outcome State Fault Refusal :=
  .next (s.vecOp th 0x01 ty true wd ws wt (fun c a b => c.add true a b) (fun _ a b => a - b))
/-- VMUL (Table fp-6): Ws × Wt; integer lanes keep the low bits. -/
def execVmul (th : Thr) (ty : VTy) (wd ws wt : WIx) (s : State) : Host.Outcome State Fault Refusal :=
  .next (s.vecOp th 0x02 ty true wd ws wt (fun c a b => c.mul a b) (fun _ a b => a * b))
/-- VFMA (R107): Ws × Wt + Wd with one rounding; illegal for integers. -/
def execVfma (th : Thr) (ty : VTy) (wd ws wt : WIx) (s : State) : Host.Outcome State Fault Refusal :=
  .next (s.vec th ty.isF (encV 0x03 ty wd.val ws.val wt.val) (fun t =>
    let rs := (List.range ty.lanes).map (fun j =>
      (t.fctx ty.fmt).fma false false (lane (t.rw ws) ty.w j) (lane (t.rw wt) ty.w j) (lane (t.rw wd) ty.w j))
    (t.ww wd (ofLanes ty.w (rs.map Fr.bits)), orAll rs)))
/-- VMIN (R111). -/
def execVmin (th : Thr) (ty : VTy) (wd ws wt : WIx) (s : State) : Host.Outcome State Fault Refusal :=
  .next (s.vecOp th 0x04 ty true wd ws wt (fun c a b => c.minMax false a b) (fun _ a b => min a b))
/-- VMAX (R111). -/
def execVmax (th : Thr) (ty : VTy) (wd ws wt : WIx) (s : State) : Host.Outcome State Fault Refusal :=
  .next (s.vecOp th 0x05 ty true wd ws wt (fun c a b => c.minMax true a b) (fun _ a b => max a b))
/-- VABS (Table fp-6): sign bit cleared; a NaN keeps its sign (R109; DEDUCED, log 16); integers saturate. -/
def execVabs (th : Thr) (ty : VTy) (wd ws : WIx) (s : State) : Host.Outcome State Fault Refusal :=
  .next (s.vecOp th 0x06 ty true wd ws ws (fun c a _ => c.signOp (fun _ => false) a) (fun w a _ => satS w |a|))
/-- VNEG (Table fp-6): sign bit inverted; not applied to a NaN (R109); integers saturate. -/
def execVneg (th : Thr) (ty : VTy) (wd ws : WIx) (s : State) : Host.Outcome State Fault Refusal :=
  .next (s.vecOp th 0x07 ty true wd ws ws (fun c a _ => c.signOp (fun n => !n) a) (fun w a _ => satS w (-a)))
/-- VCEQ (R111). -/
def execVceq (th : Thr) (ty : VTy) (wd ws wt : WIx) (s : State) : Host.Outcome State Fault Refusal :=
  .next (s.vecCmp th 0x08 ty wd ws wt .eq (fun a b => a == b))
/-- VCLT (R111). -/
def execVclt (th : Thr) (ty : VTy) (wd ws wt : WIx) (s : State) : Host.Outcome State Fault Refusal :=
  .next (s.vecCmp th 0x09 ty wd ws wt .lt (fun a b => decide (a < b)))
/-- VCLE (R111). -/
def execVcle (th : Thr) (ty : VTy) (wd ws wt : WIx) (s : State) : Host.Outcome State Fault Refusal :=
  .next (s.vecCmp th 0x0A ty wd ws wt .le (fun a b => decide (a ≤ b)))
/-- VAND (Table fp-6). -/
def execVand (th : Thr) (ty : VTy) (wd ws wt : WIx) (s : State) : Host.Outcome State Fault Refusal :=
  .next (s.vecBits th 0x0B ty wd ws wt (fun _ a b => a &&& b))
/-- VOR (Table fp-6). -/
def execVor (th : Thr) (ty : VTy) (wd ws wt : WIx) (s : State) : Host.Outcome State Fault Refusal :=
  .next (s.vecBits th 0x0C ty wd ws wt (fun _ a b => a ||| b))
/-- VXOR (Table fp-6). -/
def execVxor (th : Thr) (ty : VTy) (wd ws wt : WIx) (s : State) : Host.Outcome State Fault Refusal :=
  .next (s.vecBits th 0x0D ty wd ws wt (fun _ a b => a ^^^ b))
/-- VSEL (Table fp-6): (Wd AND Ws) OR (NOT Wd AND Wt). -/
def execVsel (th : Thr) (ty : VTy) (wd ws wt : WIx) (s : State) : Host.Outcome State Fault Refusal :=
  .next (s.vecBits th 0x0E ty wd ws wt (fun d a b => (d &&& a) ||| (~~~d &&& b)))
/-- VADDS (Table fp-6): signed saturated sum; integers only. -/
def execVadds (th : Thr) (ty : VTy) (wd ws wt : WIx) (s : State) : Host.Outcome State Fault Refusal :=
  .next (s.vecOp th 0x0F ty (!ty.isF) wd ws wt (fun _ _ _ => ⟨0, 0⟩) (fun w a b => satS w (a + b)))
/-- VSUBS (Table fp-6): signed saturated difference; integers only. -/
def execVsubs (th : Thr) (ty : VTy) (wd ws wt : WIx) (s : State) : Host.Outcome State Fault Refusal :=
  .next (s.vecOp th 0x10 ty (!ty.isF) wd ws wt (fun _ _ _ => ⟨0, 0⟩) (fun w a b => satS w (a - b)))
/-- VMULQ (Table fp-6): (Ws × Wt + 2^14) >> 15, saturated; I16 only. -/
def execVmulq (th : Thr) (ty : VTy) (wd ws wt : WIx) (s : State) : Host.Outcome State Fault Refusal :=
  .next (s.vecOp th 0x11 ty (ty == .i16) wd ws wt (fun _ _ _ => ⟨0, 0⟩) (fun _ a b => satS 16 ((a * b + 16384) / 32768)))

/-! ## Moves, sums and conversions (Table fp-7) -/

/-- VSPLAT: every lane of Wd ← low bits of Fs or Gs. -/
def execVsplat (th : Thr) (ty : VTy) (wd : WIx) (rs : RegIx) (s : State) : Host.Outcome State Fault Refusal :=
  .next (s.vec th true (encM 0x000 ty wd.val rs.val 0) (fun t =>
    let v := if ty.isF then (t.rf rs).toNat else (t.rg rs).toNat
    (t.ww wd (ofLanes ty.w (List.replicate ty.lanes v)), 0)))

/-- A lane value written to Fd or, sign-extended, to Gd. -/
def Thread.putLane (t : Thread) (ty : VTy) (rd : RegIx) (v : Nat) : Thread :=
  if ty.isF then t.fres rd v else t.wg rd (BitVec.ofInt 32 (sInt ty.w v))

/-- VEXT: Fd or Gd ← a lane of Ws; a lane number not below the lane count is illegal. -/
def execVext (th : Thr) (ty : VTy) (rd : RegIx) (ws : WIx) (ln : BitVec 5) (s : State) : Host.Outcome State Fault Refusal :=
  .next (s.vec th (ln.toNat < ty.lanes) (encM 0x008 ty rd.val ws.val ln.toNat) (fun t =>
    (t.putLane ty rd (lane (t.rw ws) ty.w ln.toNat), 0)))

/-- VINS: a lane of Wd ← low bits of Fs or Gs. -/
def execVins (th : Thr) (ty : VTy) (wd : WIx) (rs : RegIx) (ln : BitVec 5) (s : State) : Host.Outcome State Fault Refusal :=
  .next (s.vec th (ln.toNat < ty.lanes) (encM 0x010 ty wd.val rs.val ln.toNat) (fun t =>
    let v := if ty.isF then (t.rf rs).toNat else (t.rg rs).toNat
    (t.ww wd (ofLanes ty.w ((lanesOf (t.rw wd) ty.w ty.lanes).set ln.toNat v)), 0)))

/-- One level of the pairwise tree of R113. -/
def sumPairs (c : FCtx) (ls : List Nat) : List Nat × Nat :=
  match ls with
  | a :: b :: t =>
    let r := c.add false a b
    let p := sumPairs c t
    (r.bits :: p.1, r.flags ||| p.2)
  | l => (l, 0)

/-- The tree of R113, level by level. -/
def sumTree (c : FCtx) (fuel : Nat) (ls : List Nat) : Fr :=
  match fuel with
  | 0 => ⟨ls.headD 0, 0⟩
  | fuel + 1 =>
    let p := sumPairs c ls
    let r := sumTree c fuel p.1
    ⟨r.bits, p.2 ||| r.flags⟩

/-- VSUM (R113): the exact sum of integer lanes to Gd, or the pairwise sum of floating-point lanes to Fd. -/
def execVsum (th : Thr) (ty : VTy) (rd : RegIx) (ws : WIx) (s : State) : Host.Outcome State Fault Refusal :=
  .next (s.vec th true (encM 0x018 ty rd.val ws.val 0) (fun t =>
    let ls := lanesOf (t.rw ws) ty.w ty.lanes
    if ty.isF then
      let r := sumTree (t.fctx ty.fmt) (if ty = .f32 then 3 else 2) ls
      (t.fres rd r.bits, r.flags)
    else (t.wg rd (BitVec.ofInt 32 ((ls.map (sInt ty.w)).sum)), 0)))

/-- A conversion of the lanes of one or two registers. -/
def State.vecCvt (s : State) (th : Thr) (fn : Nat) (wd ws wt : WIx) (wOut : Nat) (src : Thread → List Nat)
    (f : Thread → Nat → Fr) : State :=
  s.vec th true (encA 0x24 wd.val ws.val wt.val fn) (fun t =>
    let rs := (src t).map (f t)
    (t.ww wd (ofLanes wOut (rs.map Fr.bits)), orAll rs))

/-- VCVT.F32.I16L: F32 lane j ← I16 lane j, exact. -/
def execVcvtF32I16l (th : Thr) (wd ws : WIx) (s : State) : Host.Outcome State Fault Refusal :=
  .next (s.vecCvt th 0x020 wd ws 0 32 (fun t => (lanesOf (t.rw ws) 16 16).take 8) (fun _ v => FCtx.ofInt ⟨b32, 0, false⟩ (sInt 16 v)))
/-- VCVT.F32.I16H: F32 lane j ← I16 lane j + 8, exact. -/
def execVcvtF32I16h (th : Thr) (wd ws : WIx) (s : State) : Host.Outcome State Fault Refusal :=
  .next (s.vecCvt th 0x021 wd ws 0 32 (fun t => (lanesOf (t.rw ws) 16 16).drop 8) (fun _ v => FCtx.ofInt ⟨b32, 0, false⟩ (sInt 16 v)))
/-- VCVT.I16.F32 (R112): I16 lanes 0–7 from Ws, 8–15 from Wt. -/
def execVcvtI16F32 (th : Thr) (wd ws wt : WIx) (s : State) : Host.Outcome State Fault Refusal :=
  .next (s.vecCvt th 0x022 wd ws wt 16 (fun t => lanesOf (t.rw ws) 32 8 ++ lanesOf (t.rw wt) 32 8) (fun t v =>
    let r := (t.fctx b32).toInt (-32768) 32767 v
    ⟨uNat 16 r.1, r.2⟩))
/-- VCVT.F64.F32L: F64 lane j ← F32 lane j, exact. -/
def execVcvtF64F32l (th : Thr) (wd ws : WIx) (s : State) : Host.Outcome State Fault Refusal :=
  .next (s.vecCvt th 0x023 wd ws 0 64 (fun t => (lanesOf (t.rw ws) 32 8).take 4) (fun t v => cvtDS (t.fctx b32).ftz v))
/-- VCVT.F64.F32H: F64 lane j ← F32 lane j + 4, exact. -/
def execVcvtF64F32h (th : Thr) (wd ws : WIx) (s : State) : Host.Outcome State Fault Refusal :=
  .next (s.vecCvt th 0x024 wd ws 0 64 (fun t => (lanesOf (t.rw ws) 32 8).drop 4) (fun t v => cvtDS (t.fctx b32).ftz v))
/-- VCVT.F32.F64: F32 lanes 0–3 from Ws, 4–7 from Wt. -/
def execVcvtF32F64 (th : Thr) (wd ws wt : WIx) (s : State) : Host.Outcome State Fault Refusal :=
  .next (s.vecCvt th 0x025 wd ws wt 32 (fun t => lanesOf (t.rw ws) 64 4 ++ lanesOf (t.rw wt) 64 4)
    (fun t v => cvtSD (t.fctx b64).rm (t.fctx b64).ftz v))
/-- VCVT.I16.I8L: I16 lane j ← I8 lane j, sign-extended. -/
def execVcvtI16I8l (th : Thr) (wd ws : WIx) (s : State) : Host.Outcome State Fault Refusal :=
  .next (s.vecCvt th 0x026 wd ws 0 16 (fun t => (lanesOf (t.rw ws) 8 32).take 16) (fun _ v => ⟨uNat 16 (sInt 8 v), 0⟩))
/-- VCVT.I16.I8H: I16 lane j ← I8 lane j + 16, sign-extended. -/
def execVcvtI16I8h (th : Thr) (wd ws : WIx) (s : State) : Host.Outcome State Fault Refusal :=
  .next (s.vecCvt th 0x027 wd ws 0 16 (fun t => (lanesOf (t.rw ws) 8 32).drop 16) (fun _ v => ⟨uNat 16 (sInt 8 v), 0⟩))
/-- VCVT.I8.I16 (R112): I8 lanes 0–15 from Ws, 16–31 from Wt, saturated with no flag. -/
def execVcvtI8I16 (th : Thr) (wd ws wt : WIx) (s : State) : Host.Outcome State Fault Refusal :=
  .next (s.vecCvt th 0x028 wd ws wt 8 (fun t => lanesOf (t.rw ws) 16 16 ++ lanesOf (t.rw wt) 16 16)
    (fun _ v => ⟨uNat 8 (satS 8 (sInt 16 v)), 0⟩))

/-! ## Gather and scatter (R121, R122) -/

/-- Address of lane j: Gt + index × element size modulo 2^32; for F64 only the lane's low 32 bits are the index. -/
def gatherAddr (t : Thread) (ty : VTy) (ws : WIx) (rt : RegIx) (j : Nat) : Nat :=
  ((t.rg rt).toNat + lane (t.rw ws) ty.w j % 2 ^ 32 * (ty.w / 8)) % 2 ^ 32

/-- The checks of one lane: Task window, then scratchpad or own mailbox, then alignment to the element (R121, R127). -/
def State.gatherCheck (s : State) (th : Thr) (a n : Nat) (store : Bool) : Option Cause :=
  match (if (s.thr th).kernel then none else s.taskFault th.pier.val a n store) with
  | some e => some (.mk' cDspace 2 (BitVec.ofNat 32 e))
  | none =>
    if 0x11000 ≤ a then some (.mk' cDspace 1 (BitVec.ofNat 32 a))
    else if a % n ≠ 0 then some (.mk' cAlign 0 (BitVec.ofNat 32 a))
    else none

/-- The first failing lane in ascending order. -/
def State.gatherFault (s : State) (th : Thr) (ty : VTy) (ws : WIx) (rt : RegIx) (store : Bool) : Option Cause :=
  (List.range ty.lanes).findSome? (fun j => s.gatherCheck th (gatherAddr (s.thr th) ty ws rt j) (ty.w / 8) store)

/-- WGATH (R121): lane j of Wd ← the element at its address; the pier holds for one cycle per lane (R122). -/
def execWgath (th : Thr) (ty : VTy) (wd ws : WIx) (rt : RegIx) (s : State) : Host.Outcome State Fault Refusal :=
  .next (s.issue th false false (fun s =>
    let t := s.thr th
    match s.gatherFault th ty ws rt false with
    | some c => .trap c
    | none =>
      let v := ofLanes ty.w ((List.range ty.lanes).map (fun j =>
        s.localRd th.pier.val (gatherAddr t ty ws rt j) (ty.w / 8)))
      .done (s.onThr th (fun t => t.ww wd v)) (s.npc th) ty.lanes))

/-- Lanes j, j + 1, … stored in ascending order; of repeated addresses the highest lane remains (R122). -/
def State.scatter (s : State) (p : Nat) (t : Thread) (ty : VTy) (wd ws : WIx) (rt : RegIx) (js : List Nat) : State :=
  match js with
  | [] => s
  | j :: rest =>
    (s.localWr p (gatherAddr t ty ws rt j) (ty.w / 8) (lane (t.rw wd) ty.w j)).scatter p t ty wd ws rt rest

/-- WSCAT (R121): lane j of Wd to its address. -/
def execWscat (th : Thr) (ty : VTy) (wd ws : WIx) (rt : RegIx) (s : State) : Host.Outcome State Fault Refusal :=
  .next (s.issue th false false (fun s =>
    match s.gatherFault th ty ws rt true with
    | some c => .trap c
    | none => .done (s.scatter th.pier.val (s.thr th) ty wd ws rt (List.range ty.lanes)) (s.npc th) ty.lanes))

end Sys2Proof.Machine
end

