-- ==== Sys2Proof/Machine/SpanOps.lean ====
section
/-!
DEFINITION. Span instruction words and descriptors (spec/06, spec/07): decoding, the operations on one element by type (R185 to R187),
reductions (R189), and the XLU (R190). Lane values are bit patterns as Nat; a c32 holds its real part in bits [31:0].

Choices and readings of this file: log 15, 21, 22, 23, 102.
-/

namespace Sys2Proof.Machine

/-! ## Descriptors (Table span-1) and element types (Table span-2) -/

/-- A stream descriptor. -/
structure SDesc where
  base : Nat
  stride : Int
  len : Nat
  ty : Nat
  limit : Nat
  msd : Nat
  men : Bool
  minv : Bool
  /-- A reserved bit is 1. -/
  bad : Bool
  deriving DecidableEq, Repr

/-- Descriptor `i` of a table of words. -/
def SDesc.get (t : List Word) (i : Nat) : SDesc :=
  let w (k : Nat) : Word := t.getD (8 * i + k) 0
  { base := (w 0).toNat, stride := sInt 32 (w 1).toNat, len := getBits (w 2) 0 24, ty := getBits (w 2) 24 4,
    limit := (w 3).toNat, msd := getBits (w 4) 0 5, men := getBits (w 4) 5 1 == 1, minv := getBits (w 4) 6 1 == 1,
    bad := getBits (w 2) 28 4 != 0 || getBits (w 4) 7 25 != 0 || w 5 != 0 || w 6 != 0 || w 7 != 0 }

/-- Element sizes in bytes; 1 for an invalid type, whose check comes first. -/
def tySize (t : Nat) : Nat :=
  if t = 1 ∨ t = 4 then 2 else if t = 2 ∨ t = 5 ∨ t = 6 then 4 else if t = 7 ∨ t = 8 then 8 else 1
/-- An integer stream type. -/
def tyInt (t : Nat) : Bool := t ≤ 5
/-- An element of two lanes. -/
def tyWide (t : Nat) : Bool := t == 7 || t == 8

/-- Deck offset of the element for index `x` (R155, R175): exact. -/
def SDesc.at (d : SDesc) (x : Nat) : Int := (d.base : Int) + (x : Int) * d.stride * (tySize d.ty : Int)

/-- The lane form of a loaded element (Table span-2). -/
def laneOf (t v : Nat) : Nat :=
  if t = 0 then uNat 32 (sInt 8 v) else if t = 1 then uNat 32 (sInt 16 v) else v

/-! ## Instruction words (Tables job-1 and job-2) -/

/-- A decoded instruction word. -/
structure SIns where
  opc : Nat
  ct : Nat
  ch : Bool
  res : Nat
  d : Nat
  a : Nat
  b : Nat
  c : Nat
  x : Nat
  xr : Nat
  md : Nat
  deriving DecidableEq, Repr

/-- The fields of a word. -/
def SIns.parse (w : DWord) : SIns :=
  let f (lo n : Nat) : Nat := w.toNat / 2 ^ lo % 2 ^ n
  ⟨f 56 8, f 52 4, f 51 1 == 1, f 48 3, f 42 6, f 36 6, f 30 6, f 24 6, f 18 6, f 16 2, f 0 16⟩

/-- No operand. -/
def noOp : Nat := 0x3F
/-- VEND as encoded (R183). -/
def vendWord : DWord := 0x0100000000000000#64

/-- Pipes (Table span-4). -/
inductive Pipe where
  | fma | alu | xlu | red | vend
  deriving DecidableEq, Repr

/-- The pipe of an operation; none where the OPC is unassigned (Tables job-4 to job-7). -/
def opPipe (o : Nat) : Option Pipe :=
  if o = 1 then some .vend
  else if 0x10 ≤ o ∧ o ≤ 0x18 then some .fma
  else if 0x20 ≤ o ∧ o ≤ 0x30 then some .alu
  else if o = 0x40 ∨ o = 0x41 then some .xlu
  else if 0x50 ≤ o ∧ o ≤ 0x54 then some .red
  else none

/-- The compute types an operation accepts, by CT code. -/
def opCts (o : Nat) : List Nat :=
  if o ≤ 0x12 then [6, 7, 8]
  else if o ≤ 0x15 then [6, 7]
  else if o ≤ 0x18 then [8]
  else if o = 0x20 then [2, 5, 6, 7, 8]
  else if o ≤ 0x28 then [2, 5]
  else if o ≤ 0x2A then [2, 5, 6, 7]
  else if o ≤ 0x2C then [2, 6, 7]
  else if o = 0x2D then [2, 5, 6, 7]
  else if o ≤ 0x2F then [2, 5, 6, 7, 8]
  else if o = 0x30 then [5]
  else if o = 0x40 then [2, 6]
  else if o = 0x41 then [5]
  else if o = 0x50 then [2, 5, 6, 7, 8]
  else [2, 5, 6, 7]

/-- How many source operands an operation uses: A, then B, then C. -/
def opSrcs (o : Nat) : Nat :=
  if o = 0x13 ∨ o = 0x14 ∨ o = 0x15 ∨ o = 0x17 ∨ o = 0x2E then 3
  else if o = 0x18 ∨ o = 0x20 ∨ o = 0x2B ∨ o = 0x2C ∨ o = 0x2F ∨ 0x40 ≤ o then 1
  else if o = 0x30 then 0
  else 2

/-- The MOD bits an operation names, IV among them. -/
def opMod (o : Nat) : Nat :=
  if o = 0x30 then 0
  else 0xC000 + (if o = 0x17 ∨ o = 0x2D ∨ o = 0x40 ∨ o = 0x41 then 3 else if o = 0x2F ∨ 0x50 ≤ o then 0x1F else 0)

/-- The sources of an instruction in operand order. -/
def SIns.srcs (i : SIns) : List Nat := [i.a, i.b, i.c].take (opSrcs i.opc)
/-- IV (R187). -/
def SIns.iv (i : SIns) : Nat := i.md / 2 ^ 14
/-- SEGSH. -/
def SIns.segsh (i : SIns) : Nat := i.md % 32
/-- TT of VCVT. -/
def SIns.tt (i : SIns) : Nat := i.md % 16
/-- A reduction. -/
def SIns.isRed (i : SIns) : Bool := opPipe i.opc == some .red
/-- An XLU instruction. -/
def SIns.isXlu (i : SIns) : Bool := opPipe i.opc == some .xlu

/-- An operand code of Table job-2. -/
def codeOk (c : Nat) : Bool := c < 35 || c == noOp

/-- The ILLEGAL conditions of R183, R186, R187 and R188 rule 5 for a word that is no VEND. -/
def SIns.illegal (i : SIns) : Bool :=
  match opPipe i.opc with
  | none => true
  | some .vend => true
  | some p =>
    !(opCts i.opc).contains i.ct || i.res != 0 || !(([i.d, i.a, i.b, i.c] : List Nat).all codeOk) || !(i.x < 32 || i.x == noOp) ||
    i.srcs.contains noOp || ([i.a, i.b, i.c].drop (opSrcs i.opc)).any (fun c => c != noOp) ||
    (i.md &&& (0xFFFF - opMod i.opc)) != 0 || i.iv == 3 ||
    (i.opc == 0x2F && !(([2, 5, 6, 7] : List Nat).contains i.tt && (i.ct != 8 || i.tt == 6))) ||
    (p == .red && 24 ≤ i.segsh && i.segsh ≤ 30)

/-- The result type of an instruction; none for a VLUT whose table is not known (R184, Tables job-4 to job-7). -/
def SIns.result (i : SIns) (yt : Option Bool) : Option Nat :=
  if i.opc = 0x18 then some 6
  else if i.opc = 0x2D ∨ i.opc = 0x30 ∨ i.opc = 0x53 ∨ i.opc = 0x54 then some 5
  else if i.opc = 0x2F then some i.tt
  else if i.opc = 0x41 then yt.map (fun b => if b then 2 else 6)
  else some i.ct

/-! ## Inactive elements (R187) -/

/-- The value an inactive element of lane type `t` contributes. -/
def ivValue (iv t : Nat) : Nat :=
  if iv = 0 then 0
  else if iv = 1 then (if t = 6 ∨ t = 8 then 0x3F800000 else if t = 7 then 0x3FF0000000000000 else 1)
  else if t = 6 then b32.defNaN
  else if t = 7 then b64.defNaN
  else if t = 8 then b32.defNaN + 2 ^ 32 * b32.defNaN
  else 0xFFFFFFFF

/-! ## Complex arithmetic (R185): each component exact and rounded once -/

/-- Real part. -/
def cre (v : Nat) : Nat := v % 2 ^ 32
/-- Imaginary part. -/
def cim (v : Nat) : Nat := v / 2 ^ 32 % 2 ^ 32
/-- A complex value. -/
def cmk (re im : Nat) : Nat := re + 2 ^ 32 * im

/-- A signed term x × y of a component. -/
structure CTerm where
  neg : Bool
  x : Nat
  y : Nat
  deriving DecidableEq, Repr

/-- 1.0. -/
def one32 : Nat := 0x3F800000

/-- Infinity times zero among the terms, which raises NV even beside a NaN in the same component (DESIGN CHOICE, log 102). -/
def CTerm.bad (c : FCtx) (t : CTerm) : Bool :=
  let x := c.inp t.x
  let y := c.inp t.y
  (b32.isInf x && b32.isZero y) || (b32.isZero x && b32.isInf y)
/-- Sign of a term. -/
def CTerm.sign (t : CTerm) : Bool := xor t.neg (xor (b32.neg t.x) (b32.neg t.y))
/-- A term that is an infinity. -/
def CTerm.inf (c : FCtx) (t : CTerm) : Bool := b32.isInf (c.inp t.x) || b32.isInf (c.inp t.y)
/-- The exact value of a finite term. -/
def CTerm.dy (c : FCtx) (t : CTerm) : Dy :=
  let x := b32.dy (c.inp t.x)
  let y := b32.dy (c.inp t.y)
  ⟨t.sign, x.m * y.m, x.e + y.e⟩

/-- The exact sum of finite terms. -/
def dySum (rm : Nat) (ts : List Dy) : Dy :=
  match ts with
  | [] => ⟨false, 0, 0⟩
  | [t] => t
  | t :: r => dyAdd rm t (dySum rm r)

/-- An exact sum of signed products rounded once; `ops` are the operand components in the order of R109. An exact zero is negative
only where every term is, or toward negative infinity (R106). -/
def sumTerms (c : FCtx) (ts : List CTerm) (ops : List Nat) : Fr :=
  let bad := ts.any (fun t => t.bad c)
  match b32.nans ops with
  | some r => ⟨r.bits, if bad then r.flags ||| fNV else r.flags⟩
  | none =>
    let infs := ts.filter (fun t => t.inf c)
    if bad then b32.invalid
    else if infs.isEmpty then
      let v := dySum c.rm (ts.map (fun t => t.dy c))
      if v.m = 0 then
        ⟨b32.signed (if ts.all CTerm.sign then true else if ts.any CTerm.sign then c.rm == 2 else false) 0, 0⟩
      else c.round v
    else if infs.all CTerm.sign then ⟨b32.signed true b32.infP, 0⟩
    else if infs.any CTerm.sign then b32.invalid
    else ⟨b32.infP, 0⟩

/-- Two components of a result. -/
def cpair (re im : Fr) : Fr := ⟨cmk re.bits im.bits, re.flags ||| im.flags⟩

/-- A × B, or A × conj(B). Among NaN operands the real component of A comes before its imaginary one, both before those of B (R109 orders
A and B only; DESIGN CHOICE, log 102). -/
def cmul (c : FCtx) (conj : Bool) (a b : Nat) : Fr :=
  let ops := [cre a, cim a, cre b, cim b]
  cpair (sumTerms c [⟨false, cre a, cre b⟩, ⟨!conj, cim a, cim b⟩] ops)
    (sumTerms c [⟨conj, cre a, cim b⟩, ⟨false, cim a, cre b⟩] ops)

/-- A ± W × B, W = C or its conjugate (VBFLY). Each component's NaN operands are its own, in the order A, B, C,
within B and C real before imaginary (DESIGN CHOICE, log 102). -/
def cbfly (c : FCtx) (h j : Bool) (a b w : Nat) : Fr :=
  cpair
    (sumTerms c [⟨false, cre a, one32⟩, ⟨h, cre w, cre b⟩, ⟨xor (!h) j, cim w, cim b⟩] [cre a, cre b, cim b, cre w, cim w])
    (sumTerms c [⟨false, cim a, one32⟩, ⟨h, cre w, cim b⟩, ⟨xor h j, cim w, cre b⟩] [cim a, cre b, cim b, cre w, cim w])

/-! ## Operations on one element -/

/-- Rounding direction and flush-to-zero of the job (R191) for a compute type. -/
def jobCtx (rm : Nat) (ftz : Bool) (ct : Nat) : FCtx := ⟨if ct = 7 then b64 else b32, rm, ftz⟩

/-- An integer operand by its compute type. -/
def ctInt (ct v : Nat) : Int := if ct = 2 then sInt 32 v else ((v % 2 ^ 32 : Nat) : Int)

/-- A, B and C of an element. -/
structure Abc where
  a : Nat
  b : Nat
  c : Nat
  deriving DecidableEq, Repr

/-- A result without flags. -/
def plain (v : Nat) : Fr := ⟨v, 0⟩

/-- VADD and VSUB: per component for c32. -/
def spAdd (sub : Bool) (c : FCtx) (ct : Nat) (o : Abc) : Fr :=
  if ct = 8 then cpair (c.add sub (cre o.a) (cre o.b)) (c.add sub (cim o.a) (cim o.b)) else c.add sub o.a o.b
/-- VMUL. -/
def spMul (c : FCtx) (ct : Nat) (o : Abc) : Fr := if ct = 8 then cmul c false o.a o.b else c.mul o.a o.b
/-- VMIN and VMAX. -/
def spMinMax (mx : Bool) (c : FCtx) (ct : Nat) (o : Abc) : Fr :=
  if 6 ≤ ct then c.minMax mx o.a o.b
  else plain (if (decide (ctInt ct o.b < ctInt ct o.a) != mx) && ctInt ct o.a != ctInt ct o.b then o.b else o.a)
/-- VABS and VNEG (Table job-5): the sign bit cleared or inverted, whatever the value, or saturating for i32. -/
def spSign (neg : Bool) (c : FCtx) (ct : Nat) (o : Abc) : Fr :=
  if 6 ≤ ct then plain (c.f.signed (neg && !c.f.neg o.a) (c.f.mag o.a))
  else plain (uNat 32 (satS 32 (if neg then -(sInt 32 o.a) else ((sInt 32 o.a).natAbs : Int))))
/-- VCMP by predicate P. -/
def spCmp (p : Nat) (c : FCtx) (ct : Nat) (o : Abc) : Fr :=
  if 6 ≤ ct then
    let r := c.cmp (if p = 1 then .lt else if p = 2 then .le else .eq) o.a o.b
    ⟨b2n (if p = 3 then !r.1 else r.1), r.2⟩
  else
    let x := ctInt ct o.a
    let y := ctInt ct o.b
    plain (b2n (if p = 0 then decide (x = y) else if p = 1 then decide (x < y) else if p = 2 then decide (x ≤ y) else decide (x ≠ y)))
/-- VSHR. -/
def spShr (ct : Nat) (o : Abc) : Fr := plain (uNat 32 (ctInt ct o.a / ((2 ^ (o.b % 32) : Nat) : Int)))

/-- A conversion from one floating-point format to itself: NaNs quieted, flush-to-zero (R186). -/
def cvtSame (c : FCtx) (a : Nat) : Fr :=
  match c.f.nans [a] with
  | some r => r
  | none => ⟨c.inp a, 0⟩

/-- The least and the greatest value of an integer compute type. -/
def intRange (t : Nat) : Int × Int := if t = 2 then (-(2 ^ 31 : Nat), (2 ^ 31 - 1 : Nat)) else (0, (2 ^ 32 - 1 : Nat))

/-- VCVT to type `tt` (R186), toward zero when `z`. -/
def spCvt (tt : Nat) (z : Bool) (rm0 : Nat) (ftz : Bool) (ct0 : Nat) (o : Abc) : Fr :=
  let rm := if z then 1 else rm0
  let ct := if ct0 = 8 then 6 else ct0
  let a := if ct0 = 8 then cre o.a else o.a
  let r := intRange tt
  if 6 ≤ ct then
    if 6 ≤ tt then
      (if ct = tt then cvtSame (jobCtx rm ftz ct) a
       else if ct = 7 then cvtSD rm ftz a else cvtDS ftz a)
    else
      let v := (jobCtx rm ftz ct).toInt r.1 r.2 a
      ⟨uNat 32 v.1, v.2⟩
  else if 6 ≤ tt then (jobCtx rm ftz tt).ofInt (ctInt ct a)
  else
    let v := ctInt ct a
    if v < r.1 then ⟨uNat 32 r.1, fNV⟩ else if r.2 < v then ⟨uNat 32 r.2, fNV⟩ else plain (uNat 32 v)

/-! ## Reductions (R189) -/

/-- The empty-segment value. -/
def redEmpty (opc ct : Nat) : Nat :=
  if opc = 0x50 then 0
  else if opc = 0x53 ∨ opc = 0x54 then 0xFFFFFFFF
  else if opc = 0x51 then (if ct = 2 then 0x7FFFFFFF else if ct = 5 then 0xFFFFFFFF else if ct = 6 then b32.infP else b64.infP)
  else if ct = 2 then 0x80000000
  else if ct = 5 then 0
  else if ct = 6 then b32.signed true b32.infP
  else b64.signed true b64.infP

/-- An addition of a sum: per component for c32. -/
def redAdd (c : FCtx) (ct a b : Nat) : Fr := spAdd false c ct ⟨a, b, 0⟩

/-- One level of the tree with missing leaves (R189): a missing leaf passes its sibling on. -/
def redPairs (c : FCtx) (ct : Nat) (ls : List (Option Nat)) : List (Option Nat) × Nat :=
  match ls with
  | some a :: some b :: t =>
    let r := redAdd c ct a b
    let p := redPairs c ct t
    (some r.bits :: p.1, r.flags ||| p.2)
  | some a :: none :: t =>
    let p := redPairs c ct t
    (some a :: p.1, p.2)
  | none :: b :: t =>
    let p := redPairs c ct t
    (b :: p.1, p.2)
  | l => (l, 0)

/-- The tree of a block, level by level. -/
def redTree (c : FCtx) (ct fuel : Nat) (ls : List (Option Nat)) : Option Nat × Nat :=
  match fuel with
  | 0 => ((ls.headD none), 0)
  | fuel + 1 =>
    let p := redPairs c ct ls
    let r := redTree c ct fuel p.1
    (r.1, p.2 ||| r.2)

/-- A finished block added to the segment's total. -/
def SRed.endBlock (r : SRed) (c : FCtx) (ct : Nat) : SRed × Nat :=
  let t := redTree c ct 5 r.blk.reverse
  match t.1, r.total with
  | none, _ => ({ r with blk := [] }, t.2)
  | some v, none => ({ r with blk := [], total := some v }, t.2)
  | some v, some w =>
    let q := redAdd c ct w v
    ({ r with blk := [], total := some q.bits }, t.2 ||| q.flags)

/-- The value of an element that takes part in a comparison: flushed under FTZ. -/
def cmpIn (c : FCtx) (ct v : Nat) : Nat := if 6 ≤ ct then c.inp v else v
/-- An element above another in the order of VMIN and VMAX, −0 below +0. -/
def ordLess (c : FCtx) (ct a b : Nat) : Bool :=
  if 6 ≤ ct then
    let x := c.inp a
    let y := c.inp b
    decide (c.f.key x < c.f.key y) || (c.f.key x == c.f.key y && c.f.neg x && !c.f.neg y)
  else decide (ctInt ct a < ctInt ct b)

/-- One element of a segment, at offset `off` within it: none when inactive (R187, R189); `w` is the beat width. -/
def SRed.take (r : SRed) (c : FCtx) (opc ct w off : Nat) (e : Option Nat) : SRed × Nat :=
  if opc = 0x50 then
    if ct < 6 then
      ({ r with total := match e with | some v => some ((r.total.getD 0 + v) % 2 ^ 32) | none => r.total }, 0)
    else
      let r := { r with blk := e :: r.blk }
      if (off + 1) % w = 0 then r.endBlock c ct else (r, 0)
  else
    match e with
    | none => (r, 0)
    | some v =>
      if opc = 0x51 ∨ opc = 0x52 then
        let q := spMinMax (opc == 0x52) c ct ⟨r.total.getD (redEmpty opc ct), v, 0⟩
        ({ r with total := some q.bits }, q.flags)
      else if 6 ≤ ct && c.f.isNaN v then (r, if c.f.isSNaN v then fNV else 0)
      else
        match r.total with
        | none => ({ r with total := some v, best := off }, 0)
        | some t =>
          if (if opc = 0x53 then ordLess c ct v t else ordLess c ct t v) then ({ r with total := some v, best := off }, 0)
          else (r, 0)

/-- The result of a finished segment. -/
def SRed.finish (r : SRed) (c : FCtx) (opc ct : Nat) : Nat × Nat :=
  if opc = 0x53 ∨ opc = 0x54 then ((if r.total.isSome then r.best else 0xFFFFFFFF), 0)
  else if opc = 0x50 ∧ 6 ≤ ct ∧ r.blk ≠ [] then
    let q := r.endBlock c ct
    (q.1.total.getD 0, q.2)
  else (r.total.getD (redEmpty opc ct), 0)

/-- A segment not begun. -/
def SRed.start : SRed := ⟨none, [], 0⟩

/-! ## The XLU (R94 to R97, R159, R190) -/

/-- The search of R94 over a loaded x array. -/
def XTable.search (t : XTable) (x fuel lo hi : Nat) : Nat :=
  match fuel with
  | 0 => lo
  | fuel + 1 =>
    if hi - lo ≤ 1 then lo
    else
      let mid := (lo + hi) / 2
      if t.desc.ge x (t.xs.getD mid 0) then t.search x fuel mid hi else t.search x fuel lo mid

/-- The lower index of the interval of x. -/
def XTable.index (t : XTable) (x : Nat) : Nat :=
  let d := t.desc
  match d.loc x with
  | .below => 0
  | .above => d.n - 2
  | _ =>
    if d.xmode then t.search x 17 0 (d.n - 1)
    else (((if d.ytype then sInt 16 x else fx x) - d.uni.1) / d.uni.2.1).toNat

/-- The interpolation in an interval; a free value where the spec states none (DESIGN CHOICE, log 15). -/
def XTable.interp (t : XTable) (c : FCtx) (x free : Nat) : Fr :=
  let d := t.desc
  let i := t.index x
  let f := if d.xmode then d.fracArr x (t.xs.getD i 0) (t.xs.getD (i + 1) 0) else d.fracUni x i
  let y0 := t.ys.getD i 0
  let y1 := t.ys.getD (i + 1) 0
  match f with
  | .ratio num den =>
    if d.ytype then plain (uNat 32 (interpI num den (sInt 16 y0) (sInt 16 y1))) else interpF c num den y0 y1
  | .infinite neg => interpInf c neg y0 y1
  | .unstated => plain (free % 2 ^ 32)

/-- One y value as returned without arithmetic. -/
def XTable.one (t : XTable) (c : FCtx) (i : Nat) : Fr :=
  if t.desc.ytype then plain (uNat 32 (sInt 16 (t.ys.getD i 0))) else yOut c (t.ys.getD i 0)

/-- VTLI (Table job-6): the TLI of a binary32, or the TLIH of an i32 saturated to 16 bits. -/
def XTable.tli (t : XTable) (c : FCtx) (a free : Nat) : Fr :=
  let d := t.desc
  if !d.ytype && b32.isNaN a then ⟨b32.quiet a, if b32.isSNaN a then fNV else 0⟩
  else
    let x := if d.ytype then uNat 16 (satS 16 (sInt 32 a)) else c.inp a
    match d.loc x with
    | .last => t.one c (d.n - 1)
    | .inside => t.interp c x free
    | l =>
      if d.extrap = 0 then t.one c (if l = .below then 0 else d.n - 1)
      else if d.extrap = 1 then t.interp c x free
      else plain (if d.ytype then uNat 32 (-32768) else b32.defNaN)

/-- VLUT (Table job-6). -/
def XTable.lut (t : XTable) (a : Nat) : Fr :=
  let d := t.desc
  let y (i : Nat) : Nat := if d.ytype then uNat 32 (sInt 16 (t.ys.getD i 0)) else t.ys.getD i 0
  plain (if a < d.n then y a else if d.extrap = 2 then (if d.ytype then uNat 32 (-32768) else b32.defNaN) else y (d.n - 1))

end Sys2Proof.Machine
end

