-- ==== Sys2Proof/Machine/Span.lean ====
section
/-!
DEFINITION. The Spans (spec/06, spec/07): groups checked and started (R156 to R162, R540), loads with their checks, squash and replay
(R163 to R174), gather and scatter (R175 to R178), elements computed in program order, stores and commit points, and the end of a
job (R199 to R202). A request's issue, its service by the bank and its return are one step; stores are acknowledged in the order of
issue (DESIGN CHOICE, log 20).

Choices and readings of this file: log 18, 20, 21, 22, 24, 26, 27, 28, 100, 103, 109.
-/

namespace Sys2Proof.Machine

/-! ## Deck access of a Span (R30, R165, R174) -/

/-- The fault code of an error response (Table job-13). -/
def respFault (e : RespErr) : Nat := 5 + e.code
/-- The NI through which Span `q` reaches a remote offset. -/
def spanNi (q off : Nat) : Nat := 16 + 4 * q + deckGroup off

/-- A read of `n` bytes within one word: the value, or the fault of the response; `d` and `b` befell the packets of a remote access. -/
def State.spanRead (s : State) (q off n : Nat) (d : Damage := .none) (b : Damage := .none) : (Nat × Nat) × State :=
  if deckQuarter off = q then
    let r := s.deckRead off n
    match r.1 with
    | some v => ((v, 0), r.2)
    | none => ((0, respFault .poison), r.2)
  else
    let r := s.deckFetch (spanNi q off) 2 off n d b
    match r.1.1 with
    | some v => ((v, 0), r.2)
    | none => ((0, respFault r.1.2), r.2)

/-- A write of `n` bytes within one word: the fault of the response, 0 for none. -/
def State.spanWrite (s : State) (q off n v : Nat) : Nat × State :=
  if deckQuarter off = q then
    let r := s.deckWrite off n v
    (if r.1 then respFault .poison else 0, r.2)
  else
    let r := s.deckSend (spanNi q off) 2 off n v
    (match r.1 with | some e => respFault e | none => 0, r.2)

/-- The stores of a beat to word `w`, one access (R206): the fault of the response, 0 for none. -/
def State.spanStore (s : State) (q w : Nat) (ps : List (Nat × Nat × Nat)) (d b : Damage) : Nat × State :=
  if deckQuarter (8 * w) = q then
    let r := s.deckWriteMany w ps
    (if r.1 then respFault .poison else 0, r.2)
  else
    let r := s.deckSendMany (spanNi q (8 * w)) 2 w ps d b
    (match r.1 with | some e => respFault e | none => 0, r.2)

/-- Whether an access to `n` bytes must wait: a quarter they lie in is initialising (R212). -/
def State.rangeBusy (s : State) (off n : Nat) : Bool := s.quarterBusy off || s.quarterBusy (off + n - 1)

/-- 8-byte words from an offset: the words, or the fault of the first error. -/
def State.spanWords (s : State) (q off n : Nat) : (List Nat × Nat) × State :=
  match n with
  | 0 => (([], 0), s)
  | n + 1 =>
    let r := s.spanRead q off 8
    if r.1.2 ≠ 0 then (([], r.1.2), r.2)
    else
      let t := r.2.spanWords q (off + 8) n
      ((r.1.1 :: t.1.1, t.1.2), t.2)

/-- Words as 32-bit words. -/
def words32 (l : List Nat) : List Word := l.flatMap (fun v => [BitVec.ofNat 32 v, BitVec.ofNat 32 (v / 2 ^ 32)])

/-- Whether the home Span has a store waiting at a bank of its quarter (R208). -/
def State.homeWaits (s : State) (q bank : Nat) : Bool :=
  match s.span q with
  | none => false
  | some j => j.stores.any (fun t => deckQuarter t.off == q && deckBank t.off == bank)

/-- Whether a request waits at the bank of an offset, which a scrub or a gauge's record has to let go first (R208, R264). -/
def State.bankWanted (s : State) (off : Nat) : Bool :=
  s.homeWaits (deckQuarter off) (deckBank off) ||
    s.net.reqs.any (fun r => r.onWay && r.place != .away && r.op.bank == some (deckQuarter off, deckBank off))

/-! ## Streams of a group (R160, R161) -/

/-- Roles of a stream: data, gather target, index, mask, and the mask of a reduction's store. -/
inductive Role where
  | data | gather | index | mask | smask
  deriving DecidableEq, Repr

/-- A load stream: descriptor and role. -/
structure SStream where
  d : Nat
  role : Role
  deriving DecidableEq, Repr

/-- A stream and, where it is masked, its mask. -/
def withMask (t : List Word) (r : Role) (d : Nat) : List SStream :=
  ⟨d, r⟩ :: (if (SDesc.get t d).men then [⟨(SDesc.get t d).msd, .mask⟩] else [])

/-- Whether the operand at position `k` among A, B, C is gathered: XR 1 names A, 2 names B; 3 names the destination (R175). -/
def SIns.gathers (i : SIns) (k : Nat) : Bool := i.xr == k + 1 && decide (k < 2)

/-- Streams of one source operand: position `k` among A, B, C. -/
def srcStreams (t : List Word) (i : SIns) (k c : Nat) : List SStream :=
  if c < 32 then withMask t (if i.gathers k then .gather else .data) c else []

/-- Load streams of an instruction: sources, then the index stream. -/
def insStreams (t : List Word) (i : SIns) : List SStream :=
  (i.srcs.zipIdx.flatMap (fun e => srcStreams t i e.2 e.1)) ++ (if i.xr ≠ 0 ∧ i.x < 32 then withMask t .index i.x else [])

/-- The mask of the group's store stream. A reduction's is a stream of its own role, apart from an element mask through the same descriptor
(DESIGN CHOICE, log 103). -/
def storeMask (t : List Word) (i : SIns) : List SStream :=
  if i.d < 32 ∧ (SDesc.get t i.d).men then [⟨(SDesc.get t i.d).msd, if i.isRed then .smask else .mask⟩] else []

/-- No instruction. -/
def SIns.none : SIns := SIns.parse vendWord
/-- The last instruction of a group. -/
def lastIns (ins : List SIns) : SIns := ins.getLastD SIns.none

/-- Load streams of a group in the order of their first appearance: LA, LB, LC. -/
def groupStreams (t : List Word) (ins : List SIns) : List SStream :=
  ((ins.flatMap (insStreams t)) ++ storeMask t (lastIns ins)).eraseDups

/-- Results of a reduction over `n` elements (R188 rule 5). -/
def segCount (n segsh : Nat) : Nat := if segsh = 31 then 1 else (n + 2 ^ segsh - 1) / 2 ^ segsh

/-! ## Group-start checks (R540) -/

/-- A descriptor the group names, and how: indexed or not, and as an index stream or not. -/
structure Named where
  d : Nat
  indexed : Bool
  index : Bool
  deriving DecidableEq, Repr

/-- Descriptors named by an instruction in the order D, A, B, C, X. -/
def insNamed (i : SIns) : List Named :=
  (if i.d < 32 then [⟨i.d, i.xr == 3, false⟩] else []) ++
  (i.srcs.zipIdx.flatMap (fun e => if e.1 < 32 then [⟨e.1, i.gathers e.2, false⟩] else [])) ++
  (if i.x < 32 then [⟨i.x, false, i.xr != 0⟩] else [])

/-- Descriptors the group names, and their masks. -/
def groupNamed (t : List Word) (ins : List SIns) : List Named :=
  let l := ins.flatMap insNamed
  l ++ (l.filter (fun n => (SDesc.get t n.d).men)).map (fun n => ⟨(SDesc.get t n.d).msd, false, false⟩)

/-- An element within the grade's Deck. -/
def SDesc.inside (d : SDesc) (g : Grade) (x : Nat) : Bool :=
  decide (0 ≤ d.at x) && decide (d.at x + (tySize d.ty : Int) ≤ (g.deckBytes : Int))

/-- The address-range rows of Table span-3 broken. -/
def Named.outside (n : Named) (g : Grade) (t : List Word) : Bool :=
  let d := SDesc.get t n.d
  let c := if n.indexed then d.limit else d.len
  decide (1 ≤ c) && !(d.inside g 0 && d.inside g (c - 1))

/-- LENGTHs that R161 makes equal, and the group's own store's: R188's rule 10 reads 'its own store' as the group's (DESIGN CHOICE, log 103). -/
def groupLens (t : List Word) (ins : List SIns) : List Nat :=
  let l := lastIns ins
  ((groupStreams t ins).filter (fun r => r.role != .gather && r.role != .smask)).map (fun r => (SDesc.get t r.d).len) ++
    (if l.d < 32 ∧ !l.isRed ∧ l.xr ≠ 3 then [(SDesc.get t l.d).len] else [])

/-- The rules R188 sets one instruction, `k` its position and `last` whether it is the last. -/
def insChain (i : SIns) (k : Nat) (last : Bool) : Bool :=
  (!last && i.d != noOp) || (32 ≤ i.d && i.d != noOp) || (i.srcs.any (fun c => 32 ≤ c && decide (k ≤ c - 32))) ||
  (i.isRed && (!last || 32 ≤ i.d)) || ((i.xr == 0) != (i.x == noOp)) ||
  ((i.xr == 1 || i.xr == 2) && decide (32 ≤ [i.a, i.b].getD (i.xr - 1) noOp)) ||
  (i.xr == 3 && (!last || 32 ≤ i.d || i.isRed))

/-- CHAIN under R160 to R162 and R188. -/
def groupChain (t : List Word) (ins : List SIns) : Bool :=
  let l := lastIns ins
  let lens := groupLens t ins
  let n := lens.headD 0
  !(ins.map (fun i => opPipe i.opc)).Nodup || (ins.zipIdx.any (fun e => insChain e.1 e.2 (e.2 + 1 == ins.length))) ||
  decide (1 < (ins.filter (fun i => i.xr != 0)).length) || decide (3 < (groupStreams t ins).length) ||
  lens.isEmpty || lens.any (fun x => x != n) ||
  (l.isRed && l.d < 32 &&
    ((SDesc.get t l.d).len != segCount n l.segsh ||
     (storeMask t l).any (fun m => (SDesc.get t m.d).len != (SDesc.get t l.d).len)))

/-- The rows of Table span-3 in order: the fault code of the first broken, 0 for none. -/
def groupDescs (g : Grade) (t : List Word) (ins : List SIns) : Nat :=
  let l := groupNamed t ins
  let sd (n : Named) : SDesc := SDesc.get t n.d
  if l.any (fun n => (sd n).bad || 8 < (sd n).ty) then 1
  else if l.any (fun n => (sd n).base % tySize (sd n).ty != 0) then 2
  else if l.any (fun n => n.outside g t) then 3
  else if l.any (fun n => (sd n).men && ((SDesc.get t (sd n).msd).men || !([0, 3, 2, 5] : List Nat).contains (SDesc.get t (sd n).msd).ty)) then 1
  else if l.any (fun n => n.index && !((sd n).ty == 2 || (sd n).ty == 5)) then 1
  else if groupChain t ins then 4
  else 0

/-- A stream or producer of type `have'` where `want` is required (Table job-3). -/
def tyFits (want have' : Nat) : Bool := if tyInt want then tyInt have' else want == have'

/-- The type a source must have (R184): CT, or any integer type for the C operand of VSEL. -/
def srcWant (i : SIns) (k : Nat) : Nat := if i.opc = 0x2E ∧ k = 2 then 2 else i.ct

/-- TYPE under R184; a VLUT's result is judged only when its table is known. -/
def groupType (t : List Word) (ins : List SIns) (yt : Option Bool) : Bool :=
  let res (c : Nat) : Option Nat := (ins.getD (c - 32) SIns.none).result yt
  let l := lastIns ins
  (ins.any (fun i => i.srcs.zipIdx.any (fun e =>
    if e.1 < 32 then !tyFits (srcWant i e.2) (SDesc.get t e.1).ty
    else (res e.1).any (fun r => !tyFits (srcWant i e.2) r)))) ||
  (l.d < 32 && (l.result yt).any (fun r => !tyFits r (SDesc.get t l.d).ty))

/-- Beat width (R162). -/
def groupWidth (t : List Word) (ins : List SIns) : Nat :=
  if (ins.any (fun i => tyWide i.ct || tyWide ((i.result none).getD 0))) || (groupNamed t ins).any (fun n => tyWide (SDesc.get t n.d).ty)
  then 16 else 32

/-! ## Groups in flight -/

/-- Decoded instructions of a group. -/
def SGroup.sins (g : SGroup) : List SIns := g.ins.map SIns.parse
/-- Its last instruction. -/
def SGroup.fin (g : SGroup) : SIns := lastIns g.sins
/-- It has a store stream that began: it passed its checks with n at least 1. -/
def SGroup.stores (g : SGroup) : Bool := !g.unstarted && g.fin.d < 32
/-- Its store is a scatter. -/
def SGroup.isScatter (g : SGroup) : Bool := g.fin.xr == 3
/-- Elements of its store stream. -/
def SGroup.storeLen (g : SGroup) : Nat := if g.fin.isRed then segCount g.n g.fin.segsh else g.n
/-- Elements of its store stream computed. -/
def SGroup.computed (g : SGroup) : Nat := if g.fin.isRed then g.results else g.nxt

/-- The commit point (R167): the lowest element whose store is not acknowledged. -/
def SJob.commitOf (j : SJob) (g : SGroup) : Nat :=
  match g.fault with
  | some (_, some k) => k
  | _ =>
    match j.stores.find? (fun t => t.first == g.first) with
    | some t => t.k
    | none => g.computed

/-- A group complete: every element computed, every store acknowledged. -/
def SJob.complete (j : SJob) (g : SGroup) : Bool :=
  g.fault.isNone && g.nxt == g.n && !(j.stores.any (fun t => t.first == g.first))

/-- Completed groups leave from the front (`fuel` at most). -/
def SJob.trim (j : SJob) (fuel : Nat) : SJob :=
  match fuel with
  | 0 => j
  | fuel + 1 =>
    match j.groups with
    | [] => j
    | g :: t =>
      if j.complete g then
        ({ j with
            groups := t, commit := if g.stores then g.storeLen else j.commit, cvalid := j.cvalid || g.stores }).trim fuel
      else j

/-- A returned load of a group. -/
def SGroup.gotAt (g : SGroup) (u j : Nat) : Option SGot := (g.got.find? (fun e => e.1 == 4 * j + u)).map (fun e => e.2)
/-- A returned load put in. -/
def SGroup.putGot (g : SGroup) (u j : Nat) (v : SGot) : SGroup :=
  { g with got := SMap.insert (SMap.erase g.got (4 * j + u)) (4 * j + u) v }
/-- The load of a stream by its role and descriptor. -/
def SGroup.look (g : SGroup) (ss : List SStream) (r : Role) (d j : Nat) : Option SGot :=
  (ss.idxOf? ⟨d, r⟩).bind (fun u => g.gotAt u j)

/-- Whether element `j` of descriptor `d` is active (R157), `r` the role of its mask; none while the mask has not returned. -/
def SGroup.active (g : SGroup) (t : List Word) (ss : List SStream) (r : Role) (d j : Nat) : Option Bool :=
  let sd := SDesc.get t d
  if !sd.men then some true
  else (g.look ss r sd.msd j).map (fun m => m.err == 0 && ((m.v != 0) != sd.minv))

/-- The index of element `j` of an indexed stream (R175, R176): none while not known; some none for an inactive element. -/
def SGroup.indexOf (g : SGroup) (t : List Word) (ss : List SStream) (d x j : Nat) : Option (Option Nat) :=
  match g.active t ss .mask d j, g.active t ss .mask x j with
  | some true, some true =>
    (g.look ss .index x j).map (fun v => if v.err = 0 then some v.v else none)
  | some _, some _ => some none
  | _, _ => none

/-- The instruction with the group's indexed stream. -/
def SGroup.indexIns (g : SGroup) : SIns := (g.sins.find? (fun i => i.xr != 0)).getD SIns.none

/-- What the load stream needs at element `j`: none while not known, some none where it makes no request, else the Deck offset. -/
def SGroup.request (g : SGroup) (t : List Word) (ss : List SStream) (r : SStream) (j : Nat) : Option (Option Int) :=
  let sd := SDesc.get t r.d
  match r.role with
  | .gather =>
    (g.indexOf t ss r.d g.indexIns.x j).map (fun o =>
      match o with
      | some x => if x < sd.limit then some (sd.at x) else none
      | none => none)
  | .mask => some (some (sd.at j))
  | .smask => some (some (sd.at j))
  | _ => (g.active t ss .mask r.d j).map (fun a => if a then some (sd.at j) else none)

/-- Elements of a load stream. -/
def SGroup.streamLen (g : SGroup) (r : SStream) : Nat := if r.role = .smask then g.storeLen else g.n
/-- The first element of a load stream not yet used. -/
def SGroup.streamPos (g : SGroup) (r : SStream) : Nat := if r.role = .smask then g.results else g.nxt

/-- Elements of a stream below `j` that need a request and have not returned (R164). -/
def SGroup.outstanding (g : SGroup) (t : List Word) (ss : List SStream) (u : Nat) (r : SStream) (j : Nat) : Nat :=
  ((List.range' (g.streamPos r) (j - g.streamPos r)).filter (fun i =>
    (g.gotAt u i).isNone && g.request t ss r i != some none)).length

/-- Whether what each element of a stream needs is known: no index or mask it depends on is still to come. -/
def SGroup.known (g : SGroup) (t : List Word) (ss : List SStream) (r : SStream) : Bool :=
  (List.range' (g.streamPos r) (g.streamLen r - g.streamPos r)).all (fun i => (g.request t ss r i).isSome)

/-- One past the highest element of a stream that has returned. -/
def SGroup.issuedTo (g : SGroup) (u : Nat) : Nat :=
  ((g.got.filter (fun e => e.1 % 4 == u)).map (fun e => e.1 / 4 + 1)).foldl max 0

/-- Entries of load stream `u` in use by a group. -/
def SGroup.inflight (g : SGroup) (t : List Word) (u : Nat) : Nat :=
  let ss := groupStreams t g.sins
  match ss[u]? with
  | none => 0
  | some r => g.outstanding t ss u r (g.issuedTo u)

/-- Elements of load stream `u` of a group that have not returned. -/
def SGroup.unreturned (g : SGroup) (t : List Word) (u : Nat) : Nat :=
  let ss := groupStreams t g.sins
  match ss[u]? with
  | none => 0
  | some r => g.outstanding t ss u r (g.streamLen r)

/-- Entries of load unit `u` that the groups before instruction `first` hold (R163): each of them has issued all it has. -/
def SJob.usedBefore (j : SJob) (first u : Nat) : Nat :=
  ((j.groups.takeWhile (fun h => decide (h.first < first))).map (fun h => h.unreturned j.sdt u)).sum

/-- Every load stream of a group has issued its last request: the units have entries for all that has not returned, and every index and mask
they depend on is there (R163, R164). -/
def SJob.allIssued (j : SJob) (g : SGroup) : Bool :=
  let ss := groupStreams j.sdt g.sins
  ss.zipIdx.all (fun e =>
    decide (g.outstanding j.sdt ss e.2 e.1 (g.streamLen e.1) + j.usedBefore g.first e.2 ≤ 128) && g.known j.sdt ss e.1)

/-- Entries of a load unit in use. -/
def SJob.inflight (j : SJob) (u : Nat) : Nat := (j.groups.map (fun g => g.inflight j.sdt u)).sum
/-- Entries in use, all units. -/
def SJob.total (j : SJob) : Nat := j.inflight 0 + j.inflight 1 + j.inflight 2 + j.stores.length

/-- Whether every load that element `j` needs has returned and its check is clear (R166). -/
def SGroup.ready (g : SGroup) (t : List Word) (ss : List SStream) (j : Nat) : Bool :=
  ss.zipIdx.all (fun e =>
    e.1.role == .smask ||
    (match g.request t ss e.1 j with
     | none => false
     | some none => true
     | some (some _) => (g.gotAt e.2 j).any (fun v => v.clear)))

/-- The beat of element `k` (R158, R169): beats of the group's width from element 0, and anew from each element at which a replay began. -/
def SGroup.beat (g : SGroup) (t : List Word) (k : Nat) : Nat × Nat :=
  let w := groupWidth t g.sins
  let base := (g.cuts.filter (fun c => decide (c ≤ k))).foldl max 0
  let lo := base + (k - base) / w * w
  (lo, (g.cuts.filter (fun c => decide (lo < c))).foldl min (min (lo + w) g.n))

/-- Whether element `k` may be computed: its beat has entered the pipes, or every element of the beat is ready (R166). -/
def SGroup.enters (g : SGroup) (t : List Word) (ss : List SStream) (k : Nat) : Bool :=
  let b := g.beat t k
  b.1 != k || (List.range' b.1 (b.2 - b.1)).all (fun i => g.ready t ss i)

/-- The index-fault flag of the job (R176). -/
def SJob.ixf (j : SJob) : Bool := jCtrl j.desc 24 1 == 1
/-- The job's rounding direction. -/
def SJob.rm (j : SJob) : Nat := jCtrl j.desc 25 2
/-- The job's flush-to-zero. -/
def SJob.ftz (j : SJob) : Bool := jCtrl j.desc 27 1 == 1

/-- The indexed stream's descriptor. -/
def SIns.target (i : SIns) : Nat := if i.xr = 1 then i.a else if i.xr = 2 then i.b else i.d

/-- Whether element `j`'s index is out of range (R176). -/
def SGroup.outOfRange (g : SGroup) (t : List Word) (ss : List SStream) (j : Nat) : Bool :=
  let i := g.indexIns
  i.xr != 0 &&
    (match g.indexOf t ss i.target i.x j with
     | some (some x) => decide ((SDesc.get t i.target).limit ≤ x)
     | _ => false)

/-- The fault of element `j`, all of whose loads have returned: a load's response, that of the lowest stream unit first, or INDEX_FAULT after any
of them (DESIGN CHOICE, log 103). -/
def SGroup.elemFault (g : SGroup) (t : List Word) (ss : List SStream) (ixf : Bool) (j : Nat) : Option Nat :=
  match ss.zipIdx.find? (fun e => e.1.role != .smask && (g.gotAt e.2 j).any (fun v => v.err != 0)) with
  | some e => (g.gotAt e.2 j).map (fun v => v.err)
  | none => if ixf && g.outOfRange t ss j then some 5 else none

/-- A fault of the next element noted, once its loads have returned and are clear (R173). -/
def SJob.noteGroup (j : SJob) (g : SGroup) : SGroup :=
  let ss := groupStreams j.sdt g.sins
  if g.fault.isNone && g.pos == 0 && decide (g.nxt < g.n) && g.ready j.sdt ss g.nxt then
    { g with fault := (g.elemFault j.sdt ss j.ixf g.nxt).map (fun c => (c, none)) }
  else g

/-- The group of a job with first instruction `f` changed. -/
def SJob.onGroup (j : SJob) (f : Nat) (h : SGroup → SGroup) : SJob :=
  { j with groups := j.groups.map (fun g => if g.first = f then h g else g) }

/-- The current group's fault noted; later groups wait for it. -/
def SJob.note (j : SJob) : SJob :=
  match j.current with
  | none => j
  | some g => j.onGroup g.first (fun g => j.noteGroup g)

/-- The job of Span `q` replaced after a step of it: completed groups leave, the next element's fault is noted, SPAN_POS and
SPAN_INFLIGHT_PEAK follow; `extra` requests were outstanding within the step. -/
def State.setJob (s : State) (q : Nat) (j : SJob) (extra : Nat) : State :=
  let j := (j.trim 16).note
  let s := s.setSpan q (some j)
  let s := s.wf (Reg.SPAN_POS.INDEX q) ((j.groups.head?.map (fun g => g.first)).getD j.next)
  s.wf (Reg.SPAN_INFLIGHT_PEAK.PEAK q) (max (s.rf (Reg.SPAN_INFLIGHT_PEAK.PEAK q)) (j.total + extra))

/-! ## The start of a job (R153, R197) -/

/-- A group that failed its checks, or the job's start. -/
def SGroup.failed (first code : Nat) : SGroup :=
  ⟨first, [], 0, 0, 0, [], [], none, [], SRed.start, 0, some (code, none), true⟩

/-- The job of slot `k` started on Span `q`: the descriptor table read, the XLU table cleared (R153, R197). -/
def State.startJob (s : State) (q k : Nat) : State :=
  let d := (s.slot k).desc
  let s := s.wf (Reg.SPAN_JOB.TAG q) (jTag d)
  let s := s.wf (Reg.SPAN_JOB.SLOT q) k
  let s := s.wf (Reg.SPAN_JOB.VALID q) 1
  let s := s.wf (Reg.SPAN_XLU_ADDR.VALID q) 0
  let bad := jSdt d % 64 ≠ 0 ∨ s.grade.deckBytes < jSdt d + 1024
  let r := if bad then (([], 1), s) else s.spanWords q (jSdt d) 128
  r.2.setJob q
    { slot := k, desc := d, sdt := words32 r.1.1, runahead := s.on (Reg.SPAN_CTL.RUNAHEAD_EN q), next := 0,
      groups := if r.1.2 = 0 then [] else [SGroup.failed 0 r.1.2], stores := [], scatter := false, xlu := none, flags := 0,
      indexRange := false, commit := 0, cvalid := false, aborting := false, ended := none } 0

/-! ## Group start (R182, R183, R190, R540) -/

/-- The words of the group at instruction `m`, at most `fuel`: up to the first with CH = 0; or the fault of the fetch. -/
def State.spanFetch (s : State) (q : Nat) (prog m fuel : Nat) : (List DWord × Nat) × State :=
  match fuel with
  | 0 => (([], 0), s)
  | fuel + 1 =>
    let off := prog + 8 * m
    if prog % 8 ≠ 0 ∨ s.grade.deckBytes < off + 8 then (([], 0xC), s)
    else
      let r := s.spanRead q off 8
      if r.1.2 ≠ 0 then (([], r.1.2), r.2)
      else
        let w : DWord := BitVec.ofNat 64 r.1.1
        if (SIns.parse w).ch then
          let t := r.2.spanFetch q prog (m + 1) fuel
          ((w :: t.1.1, t.1.2), t.2)
        else (([w], 0), r.2)

/-- Words a group can have: as many as the Deck holds. -/
def State.groupFuel (s : State) : Nat := s.grade.deckBytes / 8 + 1

/-- More than four instructions, or a VEND within the group (R183). -/
def overlong (ws : List DWord) : Bool := 4 < ws.length || (1 < ws.length && ws.contains vendWord)

/-- ILLEGAL (R540 step 1): a word of the group that is no legal instruction; a VEND as encoded is legal. -/
def groupIllegal (ws : List DWord) : Bool := ws.any (fun w => w != vendWord && (SIns.parse w).illegal)

/-- The checks of R540 up to Table span-3: the fault code, 0 for none. -/
def groupCheck (g : Grade) (t : List Word) (ws : List DWord) : Nat :=
  if groupIllegal ws then 0xB
  else if overlong ws then 4
  else groupDescs g t (ws.map SIns.parse)

/-- The XLU instruction's table address, if the group has one. -/
def xluAddr (d : List Word) (ins : List SIns) : Option Word :=
  (ins.find? SIns.isXlu).map (fun i => jXtab d (i.md % 4))

/-- Base of the Deck window in D-space (R190). -/
def deckWindow : Nat := 0x10000000

/-- `n` elements of `sz` bytes at D-space address `a` lie in the grade's Deck window. -/
def inWindow (g : Grade) (a n sz : Nat) : Bool := deckWindow ≤ a && a + n * sz ≤ deckWindow + g.deckBytes

/-- Elements of `sz` bytes from the words that hold them; the first lies at byte `b` of the first word. -/
def elemsOf (ws : List Nat) (b sz n : Nat) : List Nat :=
  (List.range n).map (fun i => ws.getD ((b + i * sz) / 8) 0 / 2 ^ (8 * ((b + i * sz) % 8)) % 2 ^ (8 * sz))

/-- An array of a table read whole. -/
def State.spanArray (s : State) (q a n sz : Nat) : (List Nat × Nat) × State :=
  let off := a - deckWindow
  let r := s.spanWords q (off - off % 8) ((off % 8 + n * sz + 7) / 8)
  ((elemsOf r.1.1 (off % 8) sz n, r.1.2), r.2)

/-- A table load (R190): the table, or the fault: TABLE, or that of an error response; with the descriptor where it was read. -/
def State.xluLoad (s : State) (q : Nat) (a : Word) (i : SIns) : (Option TblDesc × Option XTable × Nat) × State :=
  if a = 0 ∨ a.toNat % 8 ≠ 0 ∨ !inWindow s.grade a.toNat 32 1 then ((none, none, 0xD), s)
  else
    let r := s.spanWords q (a.toNat - deckWindow) 4
    if r.1.2 ≠ 0 then ((none, none, r.1.2), r.2)
    else
      let d := TblDesc.parse a.toNat (r.1.1.zipIdx.map (fun e => e.1 * 2 ^ (64 * e.2))).sum
      let h := if i.opc = 0x41 then d.ytype else i.ct == 2
      if d.illegal h ∨ d.misaligned.isSome ∨ (if d.xmode then 256 < d.n else 4096 < d.n) ∨
          !inWindow s.grade d.yaddr.toNat d.n d.esize ∨ (d.xmode && !inWindow s.grade d.xaddr.toNat d.n d.esize) then
        ((some d, none, 0xD), r.2)
      else
        let x := if d.xmode then r.2.spanArray q d.xaddr.toNat d.n d.esize else (([], 0), r.2)
        let y := x.2.spanArray q d.yaddr.toNat d.n d.esize
        if x.1.2 ≠ 0 then ((some d, none, x.1.2), x.2)
        else if y.1.2 ≠ 0 then ((some d, none, y.1.2), y.2)
        else ((some d, some ⟨d, x.1.1, y.1.1⟩, 0), y.2)

/-- A group that passed every check begins; one with n = 0 completes at once. -/
def SJob.begin (j : SJob) (ws : List DWord) (xlu : Option XTable) : SJob :=
  let ins := ws.map SIns.parse
  let n := (groupLens j.sdt ins).headD 0
  let g : SGroup := ⟨j.next, ws, n, 0, 0, [], [], none, [], SRed.start, 0, none, false⟩
  { j with
    groups := if n = 0 then j.groups else j.groups ++ [g], next := j.next + ws.length,
    scatter := (lastIns ins).xr == 3, xlu := xlu }

/-- A group-start fault: the group stands last, and nothing starts after it. -/
def SJob.failStart (j : SJob) (code : Nat) : SJob := { j with groups := j.groups ++ [SGroup.failed j.next code] }

/-- Whether the next group would take an entry of the store-range table (R167). -/
def takesEntry (t : List Word) (ins : List SIns) : Bool :=
  let l := lastIns ins
  l.d < 32 && l.xr != 3 && (groupLens t ins).headD 0 != 0
/-- Entries of the store-range table in use. -/
def SJob.srtUsed (j : SJob) : Nat := (j.groups.filter (fun g => g.stores && !g.isScatter && decide (j.commitOf g < g.storeLen))).length

/-- The last checks, TYPE and TABLE, and the table load (R184, R190); the barrier of R171 holds before a load. A group with n = 0 loads its
table too (DESIGN CHOICE, log 103). -/
def State.startXlu (s : State) (q : Nat) (j : SJob) (ws : List DWord) : State :=
  let ins := ws.map SIns.parse
  let i := (ins.find? SIns.isXlu).getD SIns.none
  match xluAddr j.desc ins with
  | none => s.setJob q (j.begin ws j.xlu) 0
  | some a =>
    let same := match j.xlu with | some x => x.desc.addr == a.toNat | none => false
    if same then
      let x := j.xlu
      (if groupType j.sdt ins (x.map (fun x => x.desc.ytype)) then s.setJob q (j.failStart 0xF) 0
       else if x.any (fun x => x.desc.illegal (if i.opc = 0x41 then x.desc.ytype else i.ct == 2)) then s.setJob q (j.failStart 0xD) 0
       else s.setJob q (j.begin ws x) 0)
    else if !j.groups.isEmpty then s.incSat (Reg.SPAN_BARRIER_WAIT.COUNT q)
    else
      let r := s.xluLoad q a i
      if groupType j.sdt ins (r.1.1.map (fun d => d.ytype)) then r.2.setJob q (j.failStart 0xF) 0
      else
        match r.1.2.1 with
        | none => r.2.setJob q (j.failStart r.1.2.2) 0
        | some t =>
          let s := r.2.wf (Reg.SPAN_XLU_ADDR.VALID q) 1
          let s := s.wf (Reg.SPAN_XLU_ADDR.ADDR q) (a.toNat / 8)
          (s.incSat (Reg.SPAN_XLU_LOADS.COUNT q)).setJob q (j.begin ws (some t)) 0

/-- A fetched group: its checks, its store-range entry (R167), its table. -/
def State.startChecked (s : State) (q : Nat) (j : SJob) (ws : List DWord) : State :=
  let ins := ws.map SIns.parse
  let c := groupCheck s.grade j.sdt ws
  if c ≠ 0 then s.setJob q (j.failStart c) 0
  else if groupType j.sdt ins none then s.setJob q (j.failStart 0xF) 0
  else if takesEntry j.sdt ins && 8 ≤ j.srtUsed then s.incSat (Reg.SPAN_SRT_WAIT.COUNT q)
  else s.startXlu q j ws

/-- The words of the group at instruction `m` as they stand in the Deck, for what their fetch has to wait for. -/
def State.peekGroup (s : State) (prog m fuel : Nat) : List DWord :=
  match fuel with
  | 0 => []
  | fuel + 1 =>
    let off := prog + 8 * m
    if s.grade.deckBytes < off + 8 then []
    else
      let w : DWord := BitVec.ofNat 64 (s.deckPeek off 8)
      w :: (if (SIns.parse w).ch then s.peekGroup prog (m + 1) fuel else [])

/-- Whether the table at `a` lies, in part, in a quarter that is initialising. -/
def State.tableBusy (s : State) (a : Nat) : Bool :=
  let d := TblDesc.parse a (s.deckPeek (a - deckWindow) 32)
  s.rangeBusy (a - deckWindow) 32 || s.rangeBusy (d.yaddr.toNat - deckWindow) (d.n * d.esize) ||
    (d.xmode && s.rangeBusy (d.xaddr.toNat - deckWindow) (d.n * d.esize))

/-- Whether the next group must wait for a quarter that is initialising (R212): its words' or its table's. -/
def State.groupBusy (s : State) (j : SJob) : Bool :=
  let ws := s.peekGroup (jProg j.desc) j.next s.groupFuel
  s.rangeBusy (jProg j.desc + 8 * j.next) (8 * ws.length) ||
    (match xluAddr j.desc (ws.map SIns.parse) with
     | none => false
     | some a => !(j.xlu.any (fun x => x.desc.addr == a.toNat)) && decide (deckWindow ≤ a.toNat) && s.tableBusy a.toNat)

/-- The next group fetched whole (R182, R183); a VEND starts none, and a malformed one is ILLEGAL. A word that cannot be fetched is the
fault whatever the words before it are (DESIGN CHOICE, log 103). -/
def State.startFetched (s : State) (q : Nat) (j : SJob) : State :=
  let r := s.spanFetch q (jProg j.desc) j.next s.groupFuel
  if r.1.2 ≠ 0 then r.2.setJob q (j.failStart r.1.2) 0
  else if r.1.1 = [vendWord] then s
  else r.2.startChecked q j r.1.1

/-- A job of Span `q` that runs: not ended, not aborting. -/
def State.running (s : State) (q : Nat) : Option SJob := (s.span q).filter (fun j => j.ended.isNone && !j.aborting)

/-- GROUP_START (R156, R164, R167, R171, R172, R182, R183, R190, R540): the next group is fetched, checked and begins; while a
barrier, a full store-range table or the previous group's loads hold it back, the wait counts a cycle. -/
def execGroupStart (q : QIx) (s : State) : Host.Outcome State Fault Refusal :=
  match s.running q.val with
  | none => .next s
  | some j =>
    if j.groups.any (fun g => g.fault.isSome) then .next s
    else if (j.scatter || !j.runahead) && !j.groups.isEmpty then .next (s.incSat (Reg.SPAN_BARRIER_WAIT.COUNT q.val))
    else if !j.groups.all j.allIssued || s.groupBusy j then .next s
    else .next (s.startFetched q.val j)

/-! ## Loads (R163 to R170) -/

/-- Whether bytes [a, a+n) and [b, b+m) overlap. -/
def overlaps (a : Int) (n : Nat) (b : Int) (m : Nat) : Bool := decide (a < b + (m : Int)) && decide (b < a + (n : Int))

/-- A conflict of the bytes at `off` with elements [c, hi) of a group's store stream. -/
def SGroup.hits (g : SGroup) (t : List Word) (c hi : Nat) (off : Int) (n : Nat) : Bool :=
  let sd := SDesc.get t g.fin.d
  (List.range' c (hi - c)).any (fun k => overlaps off n (sd.at k) (tySize sd.ty))

/-- A conflict of element `k` of group `first` with the store-range table (R168): uncommitted elements of earlier groups, and
those below `k` of its own. -/
def SJob.conflict (j : SJob) (first k : Nat) (off : Int) (n : Nat) : Bool :=
  (j.groups.takeWhile (fun g => decide (g.first ≤ first))).any (fun g =>
    g.stores && !g.isScatter &&
    g.hits j.sdt (j.commitOf g) (if g.first = first then min k g.storeLen else g.storeLen) off n)

/-- A store of this Span to the word of `off`, issued earlier, that the bank has not performed (R165). -/
def SJob.wordBusy (j : SJob) (off : Nat) : Bool := j.stores.any (fun t => t.off / 8 == off / 8)

/-- A load of element `k` of stream `u` of group `g` may issue and return: known activity of every earlier element, an entry for
each unreturned one, no squash pending there, earlier groups issued. -/
def SJob.canLoad (j : SJob) (g : SGroup) (ss : List SStream) (u : Nat) (r : SStream) (k : Nat) : Bool :=
  g.fault.isNone && decide (g.streamPos r ≤ k) && decide (k < g.streamLen r) && (g.gotAt u k).isNone &&
  !(g.replay.any (fun p => decide (p.1 ≤ k))) &&
  ((List.range' (g.streamPos r) (k - g.streamPos r)).all (fun i => (g.request j.sdt ss r i).isSome)) &&
  decide (g.outstanding j.sdt ss u r k + j.usedBefore g.first u < 128) &&
  ((j.groups.takeWhile (fun h => decide (h.first < g.first))).all j.allIssued)

/-- The elements of one access (R206): those of the beat of element `k` that lie in its word and may issue. -/
def SJob.sharers (j : SJob) (g : SGroup) (ss : List SStream) (u : Nat) (r : SStream) (k : Nat) (w : Int) : List (Nat × Int) :=
  let b := if r.role = .smask then (k, k + 1) else g.beat j.sdt k
  (List.range' b.1 (b.2 - b.1)).filterMap (fun i =>
    match g.request j.sdt ss r i with
    | some (some off) => if off / 8 = w && j.canLoad g ss u r i then some (i, off) else none
    | _ => none)

/-- A returned element put in, with what its check has to find (R168). -/
def SJob.putLoad (j : SJob) (g : SGroup) (u : Nat) (r : SStream) (v err : Nat) (e : Nat × Int) : SJob :=
  let ty := (SDesc.get j.sdt r.d).ty
  let x := v / 2 ^ (8 * (e.2.toNat % 8)) % 2 ^ (8 * tySize ty)
  let hit := j.conflict g.first e.1 e.2 (tySize ty)
  j.onGroup g.first (fun g => g.putGot u e.1 ⟨if err = 0 then laneOf ty x else 0, err, hit, false⟩)

/-- A promoted grant of a remote Span's element that waited `w` cycles at its bank, counted (R208). -/
def State.noteRemote (s : State) (q off w : Nat) : State :=
  let age := s.rf (Reg.DECK_ARB.REMOTE_AGE (deckQuarter off))
  if deckQuarter off ≠ q ∧ age ≠ 0 ∧ age ≤ w then s.incSat (Reg.DECK_PROMOTE_CNT.COUNT (deckQuarter off)) else s

/-- ELEMENT_LOAD_RETURN (R154, R157, R163 to R166, R174, R206): the load of element `k` of stream `u` of the `gi`-th group in flight, and those
of its beat that share its word, return their data or their error; their checks are still open. `d` and `b` befell the packets of a remote
element, which waited `w` cycles at its bank. -/
def execElementLoadReturn (q : QIx) (gi : Nat) (u : Fin 3) (k : Nat) (d b : Damage) (w : Nat) (s : State) : Host.Outcome State Fault Refusal :=
  match s.running q.val with
  | none => .next s
  | some j =>
    match j.groups[gi]? with
    | none => .next s
    | some g =>
      let ss := groupStreams j.sdt g.sins
      match ss[u.val]? with
      | none => .next s
      | some r =>
        match g.request j.sdt ss r k with
        | some (some off) =>
          if !j.canLoad g ss u.val r k || j.wordBusy off.toNat || s.quarterBusy off.toNat then .next s
          else
            let es := j.sharers g ss u.val r k (off / 8)
            let v := (s.noteRemote q.val off.toNat w).spanRead q.val (off.toNat / 8 * 8) 8 d b
            .next (v.2.setJob q.val (es.foldl (fun x e => x.putLoad g u.val r v.1.1 v.1.2 e) j) es.length)
        | _ => .next s

/-- Requests of a group's load streams at elements `k` and above that have issued: what a squash removes. -/
def SGroup.issuedFrom (g : SGroup) (t : List Word) (k : Nat) : Nat :=
  let ss := groupStreams t g.sins
  (g.got.filter (fun e => decide (k ≤ e.1 / 4))).length +
  (ss.zipIdx.map (fun e => g.outstanding t ss e.2 e.1 (g.issuedTo e.2) - g.outstanding t ss e.2 e.1 (min k (g.issuedTo e.2)))).sum

/-- Elements `k` and above of a group squashed; the replay waits for the conflict of `n` bytes at `off` (R169). -/
def SGroup.squash (g : SGroup) (k off n : Nat) : SGroup :=
  { g with
    got := g.got.filter (fun e => decide (e.1 / 4 < k)), cuts := k :: g.cuts.filter (fun c => decide (c < k)),
    replay := some (match g.replay with | some p => if p.1 < k then p else (k, off, n) | none => (k, off, n)) }

/-- CONFLICT_CHECK (R168 to R170): the check of a returned load completes clear, or in conflict: the group's loads from that element
are squashed and a replay is due. -/
def execConflictCheck (q : QIx) (gi : Nat) (u : Fin 3) (k : Nat) (s : State) : Host.Outcome State Fault Refusal :=
  match s.running q.val with
  | none => .next s
  | some j =>
    match j.groups[gi]? with
    | none => .next s
    | some g =>
      let ss := groupStreams j.sdt g.sins
      match ss[u.val]?, g.gotAt u.val k with
      | some r, some v =>
        if v.clear then .next s
        else
          let n := tySize (SDesc.get j.sdt r.d).ty
          let off := ((g.request j.sdt ss r k).getD none).getD 0
          if v.hit then
            let s := s.incSat (Reg.SPAN_REPLAY_CNT.COUNT q.val)
            let s := s.incSat (Reg.SPAN_SQUASH_CNT.COUNT q.val) (g.issuedFrom j.sdt k)
            .next (s.setJob q.val (j.onGroup g.first (fun g => g.squash k off.toNat n)) 0)
          else .next (s.setJob q.val (j.onGroup g.first (fun g => g.putGot u.val k { v with clear := true })) 0)
      | _, _ => .next s

/-- REPLAY_REISSUE (R169): once the stores in conflict are committed, the group's load streams reissue from the squashed element. -/
def execReplayReissue (q : QIx) (gi : Nat) (s : State) : Host.Outcome State Fault Refusal :=
  match s.running q.val with
  | none => .next s
  | some j =>
    match j.groups[gi]? with
    | none => .next s
    | some g =>
      match g.replay with
      | none => .next s
      | some p =>
        if j.conflict g.first p.1 (p.2.1 : Int) p.2.2 then .next s
        else .next (s.setJob q.val (j.onGroup g.first (fun g => { g with replay := none })) 0)

/-! ## Elements computed -/

/-- What an operation sees of one element. -/
structure SEnv where
  i : SIns
  c : FCtx
  o : Abc
  el : Nat
  xlu : Option XTable
  rm : Nat
  ftz : Bool
  free : Nat

/-- The value of a source of an instruction at the next element, and whether it is active: a chained result, a loaded element, or
the value of an inactive one (R187). -/
def SGroup.source (g : SGroup) (t : List Word) (ss : List SStream) (i : SIns) (k : Nat) : Nat × Bool :=
  let c := i.srcs.getD k noOp
  if 32 ≤ c then (g.chain.getD (c - 32) 0, true)
  else
    let r : SStream := ⟨c, if i.gathers k then .gather else .data⟩
    match g.request t ss r g.nxt with
    | some (some _) => (((g.look ss r.role r.d g.nxt).map (fun v => v.v)).getD 0, true)
    | _ => (ivValue (if i.isRed then 0 else i.iv) (srcWant i k), false)

/-- Whether the element became inactive by an out-of-range gather index, for the rest of the group (R176). -/
def SGroup.dead (g : SGroup) (t : List Word) (ss : List SStream) : Bool := g.indexIns.xr != 3 && g.outOfRange t ss g.nxt

/-- The store of the next element, if it makes one: offset and bytes. -/
def SGroup.target (g : SGroup) (t : List Word) (ss : List SStream) : Option (Nat × Nat) :=
  let l := g.fin
  let sd := SDesc.get t l.d
  if l.d < 32 ∧ !g.dead t ss then
    (if l.xr = 3 then
      (match g.indexOf t ss l.d l.x g.nxt with
       | some (some x) => if x < sd.limit then some ((sd.at x).toNat, tySize sd.ty) else none
       | _ => none)
     else if g.active t ss .mask l.d g.nxt = some true then some ((sd.at g.nxt).toNat, tySize sd.ty) else none)
  else none

/-- The next element done: its loads dropped, the element after it next. -/
def SGroup.advance (g : SGroup) (ss : List SStream) : SGroup :=
  { g with
    nxt := g.nxt + 1, pos := 0, chain := [],
    got := g.got.filter (fun e => !(e.1 / 4 == g.nxt && (ss[e.1 % 4]?).any (fun r => r.role != .smask))) }

/-- A store issued. -/
def SJob.issue (j : SJob) (g : SGroup) (k off n v : Nat) : SJob :=
  { j with stores := j.stores ++ [⟨g.first, k, off, n, v % 2 ^ (8 * n)⟩] }

/-- Flags of an element joined to the job's; a flag in FEN is the fault FP of the group (R191). -/
def SJob.raise (j : SJob) (g : SGroup) (fl : Nat) : SJob :=
  let j := { j with flags := j.flags ||| fl }
  if fl &&& jFen j.desc ≠ 0 then j.onGroup g.first (fun g => { g with fault := some (0xE, none) }) else j

/-- An instruction of the current group at its next element computed with result `r`. -/
def SJob.computed (j : SJob) (g : SGroup) (ss : List SStream) (r : Fr) : SJob :=
  let j := if g.pos = 0 && g.outOfRange j.sdt ss g.nxt then { j with indexRange := true } else j
  let j := j.raise g r.flags
  if r.flags &&& jFen j.desc ≠ 0 then j
  else if g.pos + 1 < g.ins.length then j.onGroup g.first (fun g => { g with pos := g.pos + 1, chain := g.chain ++ [r.bits] })
  else
    let j := match g.target j.sdt ss with
      | some t => j.issue g g.nxt t.1 t.2 r.bits
      | none => j
    j.onGroup g.first (fun g => g.advance ss)

/-- The current group with the instruction it is at, when that has OPC `opc` and can be computed: its element's loads are there, no
fault is due, and a store entry is free (R163, R166). -/
def SJob.at (j : SJob) (opc : Nat) : Option (SGroup × SIns) :=
  match j.current with
  | none => none
  | some g =>
    let i := g.sins.getD g.pos SIns.none
    if g.fault.isNone && i.opc == opc && (g.pos != 0 || g.enters j.sdt (groupStreams j.sdt g.sins) g.nxt) &&
        decide (j.stores.length < 128) then some (g, i)
    else none

/-- One element of an operation with OPC `opc` on Span `q`. -/
def State.spanOp (s : State) (q : QIx) (opc : Nat) (f : SEnv → Fr) : State :=
  match s.running q.val with
  | none => s
  | some j =>
    match j.at opc with
    | none => s
    | some (g, i) =>
      let ss := groupStreams j.sdt g.sins
      let o : Abc := ⟨(g.source j.sdt ss i 0).1, (g.source j.sdt ss i 1).1, (g.source j.sdt ss i 2).1⟩
      let r := f ⟨i, jobCtx j.rm j.ftz i.ct, o, g.nxt, j.xlu, j.rm, j.ftz, Config.freeNat s.free⟩
      s.setJob q.val (j.computed g ss r) 0

/-- Offset within the segment of an element. -/
def segOff (segsh j : Nat) : Nat := if segsh = 31 then j else j % 2 ^ segsh
/-- Whether element `j` of `n` ends its segment. -/
def segEnd (segsh j n : Nat) : Bool := j + 1 == n || (segsh != 31 && (j + 1) % 2 ^ segsh == 0)

/-- Result `k` of a reduction: stored where element `k` of the store's mask is active (R161, R189). -/
def SJob.result (j : SJob) (g : SGroup) (ss : List SStream) (v : Nat) : SJob :=
  let sd := SDesc.get j.sdt g.fin.d
  let j := if g.active j.sdt ss .smask g.fin.d g.results = some true then
      j.issue g g.results (sd.at g.results).toNat (tySize sd.ty) v else j
  j.onGroup g.first (fun g => { g with
    results := g.results + 1, red := SRed.start,
    got := g.got.filter (fun e => !(e.1 / 4 == g.results && (ss[e.1 % 4]?).any (fun r => r.role == .smask))) })

/-- The element of a reduction at the current group: its result where it ends a segment. -/
def SJob.reduced (j : SJob) (g : SGroup) (i : SIns) (ss : List SStream) : SJob :=
  let c := jobCtx j.rm j.ftz i.ct
  let a := g.source j.sdt ss i 0
  let e := if a.2 && !g.dead j.sdt ss then some a.1 else none
  let t := g.red.take c i.opc i.ct (groupWidth j.sdt g.sins) (segOff i.segsh g.nxt) e
  let fin := segEnd i.segsh g.nxt g.n
  let r := if fin then t.1.finish c i.opc i.ct else (0, 0)
  let fl := t.2 ||| r.2
  let j := if g.pos = 0 && g.outOfRange j.sdt ss g.nxt then { j with indexRange := true } else j
  let j := j.raise g fl
  if fl &&& jFen j.desc ≠ 0 then j
  else
    let j := j.onGroup g.first (fun g => { g.advance ss with red := t.1 })
    if fin then j.result g ss r.1 else j

/-- The fault of the mask element of result `k`, if its load answered one. -/
def SGroup.maskFault (g : SGroup) (ss : List SStream) : Option Nat :=
  match ss.zipIdx.find? (fun e => e.1.role == .smask) with
  | none => none
  | some e => (g.gotAt e.2 g.results).bind (fun v => if v.err = 0 then none else some v.err)

/-- Whether the mask element of the next result has returned and its check is clear, or the store has no mask (R166, R170). -/
def SGroup.maskClear (g : SGroup) (ss : List SStream) : Bool :=
  match ss.zipIdx.find? (fun e => e.1.role == .smask) with
  | none => true
  | some e => (g.gotAt e.2 g.results).any (fun v => v.clear)

/-- One element of a reduction; the result waits for its mask element and its check, whose fault the group takes. -/
def State.spanRed (s : State) (q : QIx) (opc : Nat) : State :=
  match s.running q.val with
  | none => s
  | some j =>
    match j.at opc with
    | none => s
    | some (g, i) =>
      let ss := groupStreams j.sdt g.sins
      if segEnd i.segsh g.nxt g.n then
        if !g.maskClear ss then s
        else match g.maskFault ss with
        | some c => s.setJob q.val (j.onGroup g.first (fun g => { g with fault := some (c, none) })) 0
        | none =>
          if (g.active j.sdt ss .smask i.d g.results).isNone then s else s.setJob q.val (j.reduced g i ss) 0
      else s.setJob q.val (j.reduced g i ss) 0

/-! ## Stores (R163, R167, R173, R174) -/

/-- The oldest store answered with an error: the fault of its group at its element; nothing later is stored (R173, R174). -/
def SJob.storeFault (j : SJob) (t : SStore) (code : Nat) : SJob :=
  let j := j.onGroup t.first (fun g => { g with fault := some (code, some t.k) })
  { j with groups := j.groups.filter (fun g => decide (g.first ≤ t.first)), stores := [] }

/-- The outstanding stores that share the oldest one's access (R206): of its group, its beat and its word. A reduction's results come one by
one. -/
def SJob.storesWith (j : SJob) (t : SStore) : List SStore :=
  match j.groups.find? (fun g => g.first == t.first) with
  | none => [t]
  | some g =>
    if g.fin.isRed then [t]
    else j.stores.filter (fun x => x.first == t.first && x.off / 8 == t.off / 8 && (g.beat j.sdt x.k).1 == (g.beat j.sdt t.k).1)

/-- Whether the beat of a store has been computed as far as it will be. -/
def SJob.beatDone (j : SJob) (t : SStore) : Bool :=
  match j.groups.find? (fun g => g.first == t.first) with
  | none => true
  | some g => g.fin.isRed || g.fault.isSome || j.aborting || decide ((g.beat j.sdt t.k).2 ≤ g.nxt)

/-- STORE_ACKNOWLEDGEMENT (R167, R174, R206): the bank performs the oldest outstanding store of Span `q`, and those of its beat in the same
word, and acknowledges them. `d` and `b` befell the packets of a remote one, which waited `w` cycles at its bank. -/
def execStoreAcknowledgement (q : QIx) (d b : Damage) (w : Nat) (s : State) : Host.Outcome State Fault Refusal :=
  match (s.span q.val).filter (fun j => j.ended.isNone) with
  | none => .next s
  | some j =>
    match j.stores with
    | [] => .next s
    | t :: _ =>
      if s.quarterBusy t.off || !j.beatDone t then .next s
      else
        let es := j.storesWith t
        let r := (s.noteRemote q.val t.off w).spanStore q.val (t.off / 8) (es.map (fun x => (x.off, x.size, x.v))) d b
        if r.1 ≠ 0 then .next (r.2.setJob q.val (j.storeFault t r.1) 0)
        else
          let s := es.foldl (fun s _ => s.incWrap (Reg.SPAN_ELEM_CNT.COUNT q.val)) r.2
          .next (s.setJob q.val { j with stores := j.stores.filter (fun x => !es.contains x) } 0)

/-! ## The end of a job (R173, R182, R199 to R202) -/

/-- COMMIT and CVALID by the last store stream begun among `gs` (Table job-12). -/
def SJob.commitAt (j : SJob) (gs : List SGroup) : Nat × Bool :=
  match (gs.filter (fun g => g.stores)).getLast? with
  | some g => (j.commitOf g, true)
  | none => (j.commit, j.cvalid)

/-- The job ended in a state with a fault and INSTR; its status word is due. -/
def SJob.finish (j : SJob) (st fault instr : Nat) (gs : List SGroup) : SJob :=
  { j with ended := some (st, fault, instr, j.commitAt gs) }

/-- JOB_FAULT_END (R173): the oldest fault is taken once every earlier store has completed. -/
def execJobFaultEnd (q : QIx) (s : State) : Host.Outcome State Fault Refusal :=
  match s.running q.val with
  | none => .next s
  | some j =>
    match j.groups with
    | [] => .next s
    | g :: _ =>
      match g.fault with
      | none => .next s
      | some f =>
        if !j.stores.isEmpty then .next s
        else .next (s.setSpan q.val (some (j.finish endFault f.1 g.first [g])))

/-- ABORT_DRAINED (R201): an aborted job has no request outstanding; it ends ABORTED. -/
def execAbortDrained (q : QIx) (s : State) : Host.Outcome State Fault Refusal :=
  match (s.span q.val).filter (fun j => j.aborting && j.ended.isNone && j.stores.isEmpty) with
  | none => .next s
  | some j => .next (s.setSpan q.val (some (j.finish endAborted 0 ((j.groups.head?.map (fun g => g.first)).getD j.next) j.groups)))

/-- VEND (R182, R199): the next word is VEND and every group has completed; the job is DONE. -/
def execVend (q : QIx) (s : State) : Host.Outcome State Fault Refusal :=
  match s.running q.val with
  | none => .next s
  | some j =>
    if !j.groups.isEmpty || s.rangeBusy (jProg j.desc + 8 * j.next) 8 then .next s
    else
      let r := s.spanFetch q.val (jProg j.desc) j.next 1
      if r.1.2 = 0 ∧ r.1.1 = [vendWord] then .next (r.2.setSpan q.val (some (j.finish endDone 0 j.next [])))
      else .next s

/-- The four words of a status word (Table job-12). -/
def statusWords (j : SJob) (q st fault instr commit : Nat) (cv : Bool) (m : Nat) : Nat × Nat × Nat × Nat :=
  (st + 16 * fault + 2 ^ 9 * b2n j.indexRange + 2 ^ 10 * (j.flags % 32) + 65536 * jTag j.desc,
   instr % 2 ^ 24 + 2 ^ 24 * (j.slot % 256),
   commit % 2 ^ 24 + 2 ^ 24 * b2n cv + 2 ^ 25 * (q % 4),
   m % 2 ^ 32)

/-- The status word written by Span `q`, bytes 0x08 to 0x0F first (R199); true when both writes succeeded. -/
def State.spanStatus (s : State) (q off : Nat) (w : Nat × Nat × Nat × Nat) : Bool × State :=
  let r := s.spanWrite q (off + 8) 8 (w.2.2.1 + 2 ^ 32 * w.2.2.2)
  if r.1 ≠ 0 then (false, r.2)
  else
    let t := r.2.spanWrite q off 8 (w.1 + 2 ^ 32 * w.2.1)
    (t.1 = 0, t.2)

/-- What a Span keeps of an ended job: SPAN_LAST_END, the job counts, idle. -/
def State.spanEnded (s : State) (q st w0 : Nat) : State :=
  let s := s.wf (Reg.SPAN_LAST_END.WORD0 q) w0
  let s := if st = endDone then s.incWrap (Reg.SPAN_JOBS_DONE.COUNT q) else s.incSat (Reg.SPAN_JOBS_BAD.COUNT q)
  let s := s.wf (Reg.SPAN_JOB.VALID q) 0
  s.setSpan q none

/-- A Q island whose job had to end first begins to quiesce (R198). -/
def State.quiesceNow (s : State) (isl : Nat) : State :=
  let h := s.shell isl
  if h.action.isSome && h.st == .online then s.setShell isl { h with st := .quiesce, off := [] } else s

/-- JOB_COMPLETION (R199, R202, R305, R307): the status word of Span `q`'s ended job commits, then the event and SPAN_FAULT are
raised, the slot freed and the reservation reconciled; `raw` is the Span's raw energy estimate in nJ (R305). -/
def execJobCompletion (q : QIx) (raw : Nat) (s : State) : Host.Outcome State Fault Refusal :=
  match s.span q.val with
  | none => .next s
  | some j =>
    match j.ended with
    | none => .next s
    | some e =>
      if s.rangeBusy (jStatus j.desc) 16 then .next s
      else
      let u := s.slot j.slot
      let m := s.measured raw
      let w := statusWords j q.val e.1 e.2.1 e.2.2.1 e.2.2.2.1 e.2.2.2.2 m
      let r := s.spanStatus q.val (jStatus j.desc) w
      let s := r.2.spanEnded q.val e.1 w.1
      let s := s.afterStatus (16 + q.val) j.slot e.1 r.1
      let s := (s.reconcile u.res u.cost m (jTag j.desc) j.slot).onLdr (fun l =>
        { l with raw := l.raw + (raw - l.drawn.getD q.val 0), drawn := l.drawn.set q.val 0 })
      .next ((s.settleDeps settleFuel).quiesceNow (16 + q.val))

/-! ## Registers (R181) -/

/-- SPAN_STATUS as read: STATE and RUNAHEAD from the job. -/
def State.spanStatusView (s : State) (q : Nat) : Word :=
  let st := match s.span q with
    | none => 0
    | some j => if j.aborting || (j.faulting && j.ended.isNone) then 2 else 1
  let ra := match s.span q with
    | none => false
    | some j => (j.groups.drop 1).any (fun g => decide (0 < g.inflight j.sdt 0 + g.inflight j.sdt 1 + g.inflight j.sdt 2))
  putBits (putBits (s.reg (Reg.SPAN_STATUS_at q)) 0 2 st) 2 1 (b2n ra)

/-- SPAN_INFLIGHT as read (R163). -/
def State.spanInflightView (s : State) (q : Nat) : Word :=
  match s.span q with
  | none => 0
  | some j => BitVec.ofNat 32 (j.inflight 0 + 2 ^ 8 * j.inflight 1 + 2 ^ 16 * j.inflight 2 + 2 ^ 24 * j.stores.length)

/-- SPAN_SRT_OCC as read (R167). -/
def State.spanSrtView (s : State) (q : Nat) : Word :=
  match s.span q with
  | none => 0
  | some j => BitVec.ofNat 32 j.srtUsed

/-- Where a Span shows refusals (R181). -/
def spanRefuse (q : Nat) : RefuseAt :=
  ⟨Reg.SPAN_STATUS.REFUSED q, none, some (Reg.SPAN_STATUS.REFUSE_EVENT q, Reg.SPAN_STATUS.REFUSE_EVENT_EN q)⟩

/-- SPAN_CTL written: refused unless IDLE (R181). -/
def State.writeSpanCtl (s : State) (q : Nat) (v : Word) : WRes :=
  if (s.span q).isSome then s.refused (spanRefuse q) 0 else .ok (s.writeReg .all (Reg.SPAN_CTL_at q) v)

/-- SPAN_CTL_WRITE (R172, R181): a write of `v` to SPAN_CTL of Span `q`. -/
def execSpanCtlWrite (q : QIx) (v : Word) (s : State) : Host.Outcome State Fault Refusal :=
  .next (s.writeSpanCtl q.val v).st

end Sys2Proof.Machine
end

