-- ==== Sys2Proof/Machine/Dma.lean ====
section
/-!
DEFINITION. The central DMA (R213 to R222): descriptors and their checks, the requests a channel issues, what their responses do,
the engine that serves the ready channels, and the end of a descriptor or a channel. The engine issues every request it may as soon as it may.

Choices and readings of this file: log 30, 31, 36, 117.
-/

namespace Sys2Proof.Machine

/-! ## Channels and descriptors -/

/-- A channel. -/
def State.dmaCh (s : State) (c : Nat) : DmaCh := SMap.get s.dma (DmaCh.idle 0) c
/-- A channel replaced. -/
def State.setDma (s : State) (c : Nat) (v : DmaCh) : State := { s with dma := SMap.set s.dma (DmaCh.idle 0) c v }
/-- A channel changed. -/
def State.onDma (s : State) (c : Nat) (f : DmaCh → DmaCh) : State := s.setDma c (f (s.dmaCh c))

/-- DMA_CH_STAT.STATE: 0 IDLE, 1 RUNNING, 2 STOPPING. -/
def State.dmaState (s : State) (c : Nat) : Nat := s.rf (Reg.DMA_CH_STAT.STATE c)

/-- A field of CTRL. -/
def DmaDesc.ctl (d : DmaDesc) (lo w : Nat) : Nat := d.ctrl / 2 ^ lo % 2 ^ w
/-- SRCK. -/
def DmaDesc.srck (d : DmaDesc) : Nat := d.ctl 0 4
/-- DSTK. -/
def DmaDesc.dstk (d : DmaDesc) : Nat := d.ctl 4 4
/-- SRCINC. -/
def DmaDesc.srcinc (d : DmaDesc) : Bool := d.ctl 8 1 == 1
/-- DSTINC. -/
def DmaDesc.dstinc (d : DmaDesc) : Bool := d.ctl 9 1 == 1
/-- CHAIN. -/
def DmaDesc.chain (d : DmaDesc) : Bool := d.ctl 17 1 == 1

/-- Endpoint kinds of Table deck-5. -/
def kDeck : Nat := 0
/-- MBOX. -/
def kMbox : Nat := 1
/-- SPAD. -/
def kSpad : Nat := 2
/-- CVP. -/
def kCvp : Nat := 3
/-- FLC. -/
def kFlc : Nat := 4

/-- Whether Table deck-5 allows an INC value for a kind. -/
def incOk (k : Nat) (inc : Bool) : Bool := if k = kCvp then !inc else if k = kFlc then inc else true
/-- Address bits outside a kind's form. -/
def formBits (g : Grade) (k a : Nat) : Bool :=
  if k = kDeck then g.deckBytes ≤ a
  else if k = kMbox then a / 0x1000 % 16 ≠ 0 || 0x100000 ≤ a
  else if k = kSpad then 0x100000 ≤ a
  else if k = kCvp then 8 ≤ a
  else a / 0x2000 % 4 ≠ 0 || 0x10000 ≤ a
/-- Offset of an address within its kind's region, and the region's size. -/
def regionOf (g : Grade) (k a : Nat) : Nat × Nat :=
  if k = kDeck then (a, g.deckBytes)
  else if k = kMbox then (a % 0x1000, 0x1000)
  else if k = kSpad then (a % 0x10000, 0x10000)
  else (a % 0x2000, 4352)
/-- RANGE for one side. -/
def rangeBad (g : Grade) (k a len : Nat) (inc : Bool) : Bool :=
  formBits g k a || (inc && decide ((regionOf g k a).2 < (regionOf g k a).1 + len))

/-- A descriptor's 32 bytes. -/
def parseDesc (v : Nat) : DmaDesc :=
  ⟨v % 2 ^ 32, v / 2 ^ 32 % 2 ^ 32, v / 2 ^ 64 % 2 ^ 24 / 8 * 8, v / 2 ^ 96 % 2 ^ 32, v / 2 ^ 128 % 2 ^ 32⟩

/-- A reserved bit of Table deck-4 is 1. -/
def descReserved (v : Nat) : Bool :=
  v / 2 ^ 88 % 2 ^ 8 != 0 || v / 2 ^ 114 % 2 ^ 14 != 0 || v / 2 ^ 160 % 2 ^ 96 != 0

/-- CVP side against the port's direction: a source configured as an output, or a destination as an input. -/
def State.cvpWrong (s : State) (k a : Nat) (src : Bool) : Bool :=
  k == kCvp && (s.rf (Reg.CVP_CFG.DIR (a % 8)) == 1) == src

/-- Table deck-6 on a fetched descriptor, in its row order: the error code, 0 for none. -/
def State.checkDesc (s : State) (v : Nat) : Nat :=
  let d := parseDesc v
  if descReserved v || (d.chain && d.next % 32 != 0) then 1
  else if 5 ≤ d.srck || 5 ≤ d.dstk || (3 ≤ d.srck && 3 ≤ d.dstk) || !incOk d.srck d.srcinc || !incOk d.dstk d.dstinc ||
      s.cvpWrong d.srck d.src true || s.cvpWrong d.dstk d.dst false then 2
  else if (d.srck != kCvp && d.src % 8 != 0) || (d.dstk != kCvp && d.dst % 8 != 0) then 3
  else if rangeBad s.grade d.srck d.src d.len d.srcinc || rangeBad s.grade d.dstk d.dst d.len d.dstinc then 4
  else 0

/-! ## Requests (R213, R216, R218, R222, R225) -/

/-- The address of byte `off` on one side. -/
def sideAddr (a off : Nat) (inc : Bool) : Nat := if inc then a + off else a
/-- Bytes of the packet at byte `off`: at most 32, within 32 aligned bytes, one word at a fixed address; a port takes four. -/
def packetBytes (k a off : Nat) (inc : Bool) (rest : Nat) : Nat :=
  if k = kCvp then min 32 rest
  else if inc then min (32 - (a + off) % 32) rest
  else min 8 rest
/-- The NI a channel uses for a side. -/
def dmaNi (k a : Nat) : Nat :=
  if k = kDeck then 16 + deckGroup a
  else if k = kMbox || k = kSpad then 16 + a / 0x10000 % 16 % 4
  else 52
/-- A read of a side. -/
def readOp (k a n : Nat) : NetOp :=
  if k = kDeck then .deckRd a n
  else if k = kMbox then .mboxRd (a / 0x10000 % 16) (a % 0x1000) n
  else if k = kSpad then .spadRd (a / 0x10000 % 16) (a % 0x10000) n
  else .portRd a n (k == kFlc)
/-- A write of a side. -/
def writeOp (k a n v : Nat) : NetOp :=
  if k = kDeck then .deckWr a n v
  else if k = kMbox then .mboxWr (a / 0x10000 % 16) (a % 0x1000) n v
  else if k = kSpad then .spadWr (a / 0x10000 % 16) (a % 0x10000) n v
  else .portWr a n v (k == kFlc)
/-- The virtual channel: DMA on the Lattice, request on the Trestle. -/
def dmaVc (k : Nat) : Nat := if k = kCvp || k = kFlc then 0 else 3

/-- Reads and writes of a channel's current run awaiting a response. -/
def Req.ofDma (r : Req) (c ep : Nat) : Option (Bool × Nat × Nat) :=
  if r.stale then none
  else match r.who with
    | .dmaRead c' ep' off n => if c'.val = c ∧ ep' = ep then some (false, off, n) else none
    | .dmaWrite c' ep' off n => if c'.val = c ∧ ep' = ep then some (true, off, n) else none
    | _ => none
/-- Offsets of a channel's unacknowledged writes. -/
def State.dmaWrites (s : State) (c : Nat) : List Nat :=
  s.net.reqs.filterMap (fun r => match r.ofDma c (s.dmaCh c).epoch with | some (true, off, _) => some off | _ => none)
/-- Bytes of a channel's unanswered reads. -/
def State.dmaReads (s : State) (c : Nat) : Nat :=
  (s.net.reqs.filterMap (fun r => match r.ofDma c (s.dmaCh c).epoch with | some (false, _, n) => some n | _ => none)).sum

/-- Bytes asked of, or sent to, a port's FIFO and not yet served. -/
def State.portWaiting (s : State) (p : Nat) : Nat :=
  (s.net.reqs.filterMap (fun r =>
    if r.resp.isSome || r.lost || r.stale then none
    else match r.op with
      | .portRd a n false => if a = p then some n else none
      | .portWr a n _ false => if a = p then some n else none
      | _ => none)).sum
/-- A port's FIFO. -/
def State.cvpPort (s : State) (p : Nat) : CvpPort := SMap.get s.cvp CvpPort.reset p
/-- A port replaced. -/
def State.setCvp (s : State) (p : Nat) (v : CvpPort) : State := { s with cvp := SMap.set s.cvp CvpPort.reset p v }
/-- A port changed. -/
def State.onCvp (s : State) (p : Nat) (f : CvpPort → CvpPort) : State := s.setCvp p (f (s.cvpPort p))

/-- Bytes an input port offers now (R447): 32 or more, or any once stopped. -/
def State.cvpOffers (s : State) (p : Nat) : Nat :=
  let n := (s.cvpPort p).fifo.length - s.portWaiting p
  if 32 ≤ n || s.rf (Reg.CVP_STAT.STATE p) == 2 then n else 0
/-- Whether an output port asks for a write now (R447): at least 32 bytes free. -/
def State.cvpRoom (s : State) (p : Nat) : Bool := decide ((s.cvpPort p).fifo.length + s.portWaiting p + 32 ≤ 512)

/-- A read that may be issued now: byte offset and bytes (R218). -/
def State.nextRead (s : State) (c : Nat) (d : DmaDesc) : Option (Nat × Nat) :=
  let h := s.dmaCh c
  let n := packetBytes d.srck d.src h.rd d.srcinc (d.len - h.rd)
  let n := if d.srck = kCvp then min n (s.cvpOffers d.src / 8 * 8) else n
  if h.rd < d.len && n != 0 && decide (h.rd + n ≤ h.wr + 512) then some (h.rd, n) else none

/-- Words returned in a row from word `w`, `n` at most: how many, and their bytes. -/
def gotRun (m : SMap Nat) (w n : Nat) : Nat × Nat :=
  match n with
  | 0 => (0, 0)
  | n + 1 =>
    match (m.find? (fun e => e.1 == w)) with
    | none => (0, 0)
    | some e =>
      let r := gotRun m (w + 1) n
      (r.1 + 1, e.2 + 2 ^ 64 * r.2)

/-- The island whose NIs serve a side: the Deck group NIs of Q0 on the Lattice, the Dispatcher's on the Trestle (R31). -/
def dmaHome (k : Nat) : Nat := if dmaVc k = 3 then 16 else islDisp

/-- The descriptor a channel may issue requests of, and whether there is a tag for one on that side (R248). -/
def State.dmaIssues (s : State) (c : Nat) (side : DmaDesc → Nat × Nat) : Option DmaDesc :=
  ((s.dmaCh c).cur).filter (fun d => (s.dmaCh c).err == 0 && s.tagFree (dmaNi (side d).1 (side d).2) (dmaHome (side d).1))

/-- The read a channel is ready to issue: descriptor, byte offset, bytes (R218). -/
def State.readReady (s : State) (c : Nat) : Option (DmaDesc × Nat × Nat) :=
  if s.dmaState c ≠ 1 then none
  else match s.dmaIssues c (fun d => (d.srck, sideAddr d.src (s.dmaCh c).rd d.srcinc)) with
    | none => none
    | some d => (s.nextRead c d).map (fun r => (d, r.1, r.2))

/-- The write a channel is ready to issue: descriptor, bytes, value. Its words have returned (R218), and a port has room (R447). -/
def State.writeReady (s : State) (c : Nat) : Option (DmaDesc × Nat × Nat) :=
  let h := s.dmaCh c
  if s.dmaState c = 0 then none
  else match s.dmaIssues c (fun d => (d.dstk, sideAddr d.dst h.wr d.dstinc)) with
    | none => none
    | some d =>
      let r := gotRun h.got (h.wr / 8) (packetBytes d.dstk d.dst h.wr d.dstinc (d.len - h.wr) / 8)
      if r.1 = 0 ∨ (d.dstk = kCvp ∧ !s.cvpRoom d.dst) then none else some (d, 8 * r.1, r.2)

/-- The channel served next among the ready ones: PRIO first, then round-robin after the last one served (R222). -/
def State.dmaPick (s : State) (last : Nat) (ready : Nat → Bool) : Option Nat :=
  let order := (List.range 16).map (fun i => (last + 1 + i) % 16)
  (order.find? (fun c => s.on (Reg.DMA_CH_CTL.PRIO c) && ready c)).or (order.find? ready)

/-- The engine issues one write, if a channel is ready with one. -/
def State.issueWrite (s : State) : Bool × State :=
  match s.dmaPick s.dmaTurn.1 (fun c => (s.writeReady c).isSome) with
  | none => (false, s)
  | some c =>
    match s.writeReady c with
    | none => (false, s)
    | some (d, n, v) =>
      let h := s.dmaCh c
      let a := sideAddr d.dst h.wr d.dstinc
      let t := s.onDma c (fun h => { h with wr := h.wr + n, got := SMap.drop h.got (fun w => decide (w < (h.wr + n) / 8)) })
      (true, ({ t with dmaTurn := (c, t.dmaTurn.2) }).send (dmaHome d.dstk) (dmaNi d.dstk a) (dmaVc d.dstk)
        (.dmaWrite (Fin.ofNat 16 c) h.epoch h.wr n) (writeOp d.dstk a n v))

/-- The engine issues one read, if a channel is ready with one. -/
def State.issueRead (s : State) : Bool × State :=
  match s.dmaPick s.dmaTurn.2 (fun c => (s.readReady c).isSome) with
  | none => (false, s)
  | some c =>
    match s.readReady c with
    | none => (false, s)
    | some (d, off, n) =>
      let a := sideAddr d.src off d.srcinc
      let t := s.onDma c (fun h => { h with rd := off + n })
      (true, ({ t with dmaTurn := (t.dmaTurn.1, c) }).send (dmaHome d.srck) (dmaNi d.srck a) (dmaVc d.srck)
        (.dmaRead (Fin.ofNat 16 c) (s.dmaCh c).epoch off n) (readOp d.srck a n))

/-- The engine runs while a channel is ready: a write and a read a turn (R222), `fuel` turns at most. -/
def State.dmaEngine (s : State) (fuel : Nat) : State :=
  match fuel with
  | 0 => s
  | fuel + 1 =>
    let w := s.issueWrite
    let r := w.2.issueRead
    if w.1 || r.1 then r.2.dmaEngine fuel else s

/-- Turns after which no channel is ready: each holds 512 bytes of reads, in packets of 8 bytes at least. -/
def dmaFuel : Nat := 2048

/-- Every channel that is ready served. -/
def State.dmaServe (s : State) : State := s.dmaEngine dmaFuel

/-! ## The end of a channel (R219 to R221) -/

/-- A channel IDLE with an END code and error. -/
def State.dmaEnd (s : State) (c fin err : Nat) : State :=
  let s := s.wf (Reg.DMA_CH_STAT.STATE c) 0
  let s := s.wf (Reg.DMA_CH_STAT.END c) fin
  let s := s.wf (Reg.DMA_CH_STAT.ERR c) err
  let s := s.setDma c (DmaCh.idle ((s.dmaCh c).epoch + 1))
  if fin = 3 then (s.setBit Reg.DMA_ERR.CH c true).raiseIf Reg.DMA_ERR_EVCFG.ERR_EVENT Reg.DMA_ERR_EVCFG.ERR_EN else s

/-- The fetch of the descriptor at `a` (R217): refused at once with DESC where misaligned or outside the Deck. -/
def State.fetchDesc (s : State) (c a : Nat) : State :=
  let s := s.onDma c (fun h => { h with fetchAddr := a })
  if a % 32 ≠ 0 ∨ s.grade.deckBytes ≤ a then s.onDma c (fun h => { h with fetch := .bad 1 })
  else (s.onDma c (fun h => { h with fetch := .waiting })).send 16 (dmaNi kDeck a) 3
    (.dmaDesc (Fin.ofNat 16 c) (s.dmaCh c).epoch) (.deckRd a 32)

/-- A checked descriptor begun: DMA_CH_CUR, and the fetch of the one after it (R219). -/
def State.beginDesc (s : State) (c : Nat) (d : DmaDesc) : State :=
  let s := s.wf (Reg.DMA_CH_CUR.ADDR c) (s.dmaCh c).fetchAddr
  let s := s.wf (Reg.DMA_CH_DONE.BYTES c) 0
  let s := s.onDma c (fun h => { h with cur := some d, fetch := .none, rd := 0, wr := 0, got := [], failed := none })
  if d.chain then s.fetchDesc c d.next else s

/-- The next descriptor of a chain, once its fetch has answered (R219). -/
def State.chainOn (s : State) (c : Nat) : State :=
  match (s.dmaCh c).fetch with
  | .good d => s.beginDesc c d
  | .bad e => s.dmaEnd c 3 e
  | _ => s.onDma c (fun h => { h with cur := none })

/-- A descriptor complete: DCNT, the event, then the chain or its end (R219). -/
def State.descDone (s : State) (c : Nat) (d : DmaDesc) : State :=
  let s := s.incWrap (Reg.DMA_CH_DCNT.COUNT c)
  let s := if d.ctl 16 1 = 1 then s.raise (d.ctl 10 6) else s
  if d.chain then s.chainOn c else s.dmaEnd c 1 0

/-- Whether every byte of the current descriptor has been written and acknowledged. -/
def State.allWritten (s : State) (c : Nat) (d : DmaDesc) : Bool :=
  decide (d.len ≤ (s.dmaCh c).wr) && (s.dmaWrites c).isEmpty

/-- What a channel that has nothing more to issue does: it ends after an error, or its descriptor is complete (R219, R220). A
descriptor of no bytes completes at its start, so `fuel` 3 covers every run of completions. -/
def State.dmaSettle (s : State) (c fuel : Nat) : State :=
  match fuel with
  | 0 => s
  | fuel + 1 =>
    let h := s.dmaCh c
    if s.dmaState c = 0 then s
    else if h.err ≠ 0 then (if (s.dmaWrites c).isEmpty then s.dmaEnd c 3 h.err else s)
    else match h.cur with
      | none => s
      | some d => if s.dmaState c = 1 && s.allWritten c d then (s.descDone c d).dmaSettle c fuel else s

/-- The engine run after a change of channel `c`, which may have completed its descriptor and begun another. -/
def State.dmaDrive (s : State) (c : Nat) : State := (s.dmaServe.dmaSettle c 3).dmaServe

/-- DMA_CH_DONE (R220): the prefix of the descriptor whose writes were all acknowledged. -/
def State.notePrefix (s : State) (c : Nat) : State :=
  let h := s.dmaCh c
  s.wf (Reg.DMA_CH_DONE.BYTES c) ((s.dmaWrites c).foldl min (match h.failed with | some f => min f h.wr | none => h.wr))

/-! ## Responses -/

/-- Whether a response belongs to the run the channel is in. -/
def State.dmaCurrent (s : State) (c ep : Nat) : Bool := s.dmaState c != 0 && (s.dmaCh c).epoch == ep

/-- A fetched descriptor checked: it begins at once when nothing precedes it (R217). A STOPPING channel begins none. -/
def State.dmaFetched (s : State) (c ep : Nat) (res : Except Nat DmaDesc) : State :=
  if !s.dmaCurrent c ep then s
  else
    let s := s.onDma c (fun h => { h with fetch := match res with | .ok d => .good d | .error e => .bad e })
    if (s.dmaCh c).cur.isNone && s.dmaState c == 1 then (s.chainOn c).dmaDrive c else s

/-- Words put among the returned ones from word `w`, `n` of them. -/
def putWords (m : SMap Nat) (w n v : Nat) : SMap Nat :=
  match n with
  | 0 => m
  | n + 1 => putWords (SMap.insert (SMap.erase m w) w (v % 2 ^ 64)) (w + 1) n (v / 2 ^ 64)

/-- A read answered; after an error its data are dropped (R220). -/
def State.dmaGot (s : State) (c ep off n v : Nat) : State :=
  if !s.dmaCurrent c ep || (s.dmaCh c).err != 0 then s
  else (s.onDma c (fun h => { h with got := putWords h.got (off / 8) (n / 8) v })).dmaDrive c

/-- A write acknowledged. -/
def State.dmaAcked (s : State) (c ep : Nat) : State :=
  if !s.dmaCurrent c ep then s else (s.notePrefix c).dmaDrive c

/-- The error of Table deck-6 and R220 for a response. -/
def RespErr.dma : RespErr → Nat
  | .offline => 5 | .route => 6 | .malformed => 7 | .timeout => 8 | .poison => 9

/-- A read failed: returned words not yet written are discarded (R220). -/
def State.dmaReadErr (s : State) (c ep e : Nat) : State :=
  if !s.dmaCurrent c ep then s
  else (s.onDma c (fun h => { h with err := if h.err = 0 then e else h.err, got := [] })).dmaDrive c

/-- A write failed. -/
def State.dmaWriteErr (s : State) (c ep off e : Nat) : State :=
  if !s.dmaCurrent c ep then s
  else
    let s := s.onDma c (fun h =>
      { h with err := if h.err = 0 then e else h.err, got := [], failed := some (match h.failed with | some f => min f off | none => off) })
    (s.notePrefix c).dmaDrive c

/-! ## Registers (R214) -/

/-- Where the DMA shows refusals. -/
def dmaRefuse : RefuseAt :=
  ⟨Reg.DMA_STATUS.REFUSED, none, some (Reg.DMA_STATUS.REFUSE_EVENT, Reg.DMA_STATUS.REFUSE_EVENT_EN)⟩

/-- A channel started at DMA_CH_DESC. -/
def State.dmaStart (s : State) (c : Nat) : State :=
  let s := s.wf (Reg.DMA_CH_STAT.STATE c) 1
  let s := s.setDma c (DmaCh.idle ((s.dmaCh c).epoch + 1))
  let s := s.fetchDesc c (s.rf (Reg.DMA_CH_DESC.ADDR c) / 32 * 32)
  if (s.dmaCh c).fetch = .waiting then s else s.chainOn c

/-- DMA_CH_CTL written (R214). -/
def State.writeDmaCtl (s : State) (c : Nat) (v : Word) : WRes :=
  let s := s.writeReg .all (Reg.DMA_CH_CTL_at c) v
  let start := getBits v 0 1 = 1
  let stop := getBits v 1 1 = 1
  if start ∧ stop ∨ start ∧ s.dmaState c ≠ 0 ∨ stop ∧ s.dmaState c = 0 then s.refused dmaRefuse 0
  else if start then .ok (s.dmaStart c)
  else if stop then .ok (s.wf (Reg.DMA_CH_STAT.STATE c) 2)
  else .ok s

/-- DMA_CH_DESC written: refused unless IDLE; bits [4:0] read 0. -/
def State.writeDmaDesc (s : State) (c : Nat) (v : Word) : WRes :=
  if s.dmaState c ≠ 0 then s.refused dmaRefuse 0
  else .ok (s.writeReg .all (Reg.DMA_CH_DESC_at c) (putBits v 0 5 0))

/-- DMA_ACTIVE as read. -/
def State.dmaActive (s : State) : Word :=
  BitVec.ofNat 32 (((List.range 16).map (fun c => b2n (s.dmaState c != 0) * 2 ^ c)).sum)

/-- Whether a STOPPING channel has written what it read and received every acknowledgement (R221). -/
def State.dmaDrained (s : State) (c : Nat) : Bool :=
  s.dmaState c == 2 && s.dmaReads c == 0 && (s.dmaWrites c).isEmpty && (s.dmaCh c).got.isEmpty

/-! ## Commands -/

/-- DMA_START (R214): DMA_CH_CTL written with START set; `stop` and `prio` are its other fields. -/
def execDmaStart (c : Fin 16) (stop prio : Bool) (s : State) : Host.Outcome State Fault Refusal :=
  .next (s.writeDmaCtl c.val (BitVec.ofNat 32 (1 + 2 * b2n stop + 256 * b2n prio))).st

/-- DMA_STOP (R214, R221): DMA_CH_CTL written with STOP alone set. -/
def execDmaStop (c : Fin 16) (prio : Bool) (s : State) : Host.Outcome State Fault Refusal :=
  .next (s.writeDmaCtl c.val (BitVec.ofNat 32 (2 + 256 * b2n prio))).st

/-- DMA_CH_DESC_WRITE (R214). -/
def execDmaChDescWrite (c : Fin 16) (v : Word) (s : State) : Host.Outcome State Fault Refusal :=
  .next (s.writeDmaDesc c.val v).st

/-- DMA_STOP_DRAINED (R221): a STOPPING channel with nothing outstanding becomes IDLE, END = stopped. -/
def execDmaStopDrained (c : Fin 16) (s : State) : Host.Outcome State Fault Refusal :=
  .next (if s.dmaDrained c.val then s.dmaEnd c.val 2 0 else s)

end Sys2Proof.Machine
end

