-- ==== Sys2Proof/Machine/Cvp.lean ====
section
/-!
DEFINITION. Converter ports (R443 to R456): frames, start and stop, calibration.

Choices and readings of this file: log 43, 74, 75, 76, 116.
-/

namespace Sys2Proof.Machine

/-! ## Configuration -/

/-- Refusal with a reason of R451. -/
def cvpRefuse : RefuseAt := ⟨Reg.CVP_STATUS.REFUSED, some Reg.CVP_STATUS.REASON, some (Reg.CVP_EVCFG.REFUSE_EVENT, Reg.CVP_EVCFG.REFUSE_EN)⟩
/-- PORT_EVENT. -/
def State.portEvent (s : State) : State := s.raiseIf Reg.CVP_EVCFG.PORT_EVENT Reg.CVP_EVCFG.PORT_EN
/-- Slots of a port. -/
def State.cvpSlots (s : State) (p : Nat) : Nat := s.rf (Reg.CVP_CFG.SLOTS p) + 1
/-- WIDTH in bits. -/
def State.cvpBits (s : State) (p : Nat) : Nat := [16, 24, 32, 32].getD (s.rf (Reg.CVP_CFG.WIDTH p)) 32
/-- Memory size S of a slot (Table cvp-2). -/
def State.cvpSize (s : State) (p : Nat) : Nat := if s.rf (Reg.CVP_CFG.WIDTH p) = 0 then 2 else 4
/-- Bytes of a frame. -/
def State.cvpFrame (s : State) (p : Nat) : Nat := s.cvpSlots p * s.cvpSize p
/-- FLEN. -/
def State.cvpFlen (s : State) (p : Nat) : Nat := s.rf (Reg.CVP_CFG.FLEN p) + 1
/-- CONV cycles of the shortest frame, 1 / 204.8 kS/s (R446). -/
def State.cvpLimit (s : State) : Nat := if s.rf Reg.CPLL_CTL.FAMILY = 0 then 960 else 1024
/-- STATE: 0 IDLE, 1 RUNNING, 2 STOPPED. -/
def State.cvpState (s : State) (p : Nat) : Nat := s.rf (Reg.CVP_STAT.STATE p)
/-- An output port. -/
def State.cvpOut (s : State) (p : Nat) : Bool := s.rf (Reg.CVP_CFG.DIR p) == 1
/-- A follower. -/
def State.cvpFollows (s : State) (p : Nat) : Bool := s.rf (Reg.CVP_CFG.MASTER p) == 0
/-- CVP_STAT as read: LEVEL is the FIFO's. -/
def State.cvpStatView (s : State) (p : Nat) : Word :=
  putBits (s.reg (Reg.CVP_STAT_at p)) 16 10 (s.cvpPort p).fifo.length

/-! ## Lines (R443 to R445, R448) -/

/-- Bit clocks for which FS is active (R444). -/
def State.fsWidth (s : State) (p : Nat) : Nat :=
  let w := s.rf (Reg.CVP_CFG.FSW p)
  if w = 1 then s.cvpBits p else if w = 2 then s.cvpFlen p / 2 else 1
/-- The level a clock master drives on FS in bit clock k of a frame, its first the one in which FS becomes active; the inactive one while it
is not RUNNING. -/
def State.fsLevel (s : State) (p k : Nat) : Bool :=
  (s.cvpState p == 1 && decide (k % s.cvpFlen p < s.fsWidth p)) != s.on (Reg.CVP_CFG.FSPOL p)
/-- The level a clock master drives on BCLK in a CONV cycle, counted from the beginning of a bit clock: data and FS change with its first half
and are sampled at its middle (R444, R445). -/
def State.bclkLevel (s : State) (p cyc : Nat) : Bool :=
  let half := 2 * (s.rf (Reg.CVP_CFG.BDIV p) + 1)
  if s.cvpState p = 1 then decide (half ≤ cyc % (2 * half)) != s.on (Reg.CVP_CFG.BEDGE p)
  else Config.bclkIdle (s.on (Reg.CVP_CFG.BEDGE p))
/-- The level of CVP_MCLK in a CONV cycle: the clock divided by 4 while EN is 1, else low (R443). -/
def State.mclkLevel (s : State) (cyc : Nat) : Bool := s.on Reg.CVP_MCLK.EN && decide (2 ≤ cyc % 4)
/-- The level an output port drives on SD, k bit clocks after slot 0 begins: its slots back to back, the most significant bit first, then 0. -/
def State.sdLevel (s : State) (p k : Nat) : Bool :=
  let w := s.cvpBits p
  decide (k < s.cvpSlots p * w) && ((s.cvpPort p).tx.getD (k / w) 0).getLsbD (w - 1 - k % w)

/-- The bits an input port samples from a line (R444): SD at the rising and at the falling edge of BCLK, bit clock by bit clock from the one in
which FS becomes active; a bit clock the line does not give reads low. -/
def State.sdBit (s : State) (p : Nat) (line : List (Bool × Bool)) (k : Nat) : Bool :=
  let e := line.getD (k + s.rf (Reg.CVP_CFG.FSDLY p)) (false, false)
  if s.on (Reg.CVP_CFG.BEDGE p) then e.2 else e.1
/-- The raw value of a slot, its most significant bit first. -/
def State.slotRaw (s : State) (p : Nat) (line : List (Bool × Bool)) (i : Nat) : Word :=
  let w := s.cvpBits p
  BitVec.ofNat 32 ((List.range w).foldl (fun a k => 2 * a + b2n (s.sdBit p line (w * i + k))) 0)
/-- The raw slots of an input frame. -/
def State.frameRaw (s : State) (p : Nat) (line : List (Bool × Bool)) : List Word := (List.range (s.cvpSlots p)).map (s.slotRaw p line)

/-! ## Calibration (R453 to R456) -/

/-- CAL_SHORT_p: high from GO to the result. -/
def State.calShort (s : State) (p : Nat) : Bool :=
  let st := s.rf Reg.CVP_CAL_STATUS.STATE
  (st == 1 || st == 2) && s.cal.any (fun k => k.port == p)

/-- A calibration over: STATE IDLE, CAL 0, CAL_EVENT. -/
def State.endCal (s : State) (p : Nat) : State :=
  let s := s.wf Reg.CVP_CAL_STATUS.STATE 0
  let s := s.wf (Reg.CVP_STAT.CAL p) 0
  let s := s.wf Reg.CVP_STATUS.CAL_BUSY 0
  { s with cal := none }.raiseIf Reg.CVP_EVCFG.CAL_EVENT Reg.CVP_EVCFG.CAL_EN

/-- A calibration of port `p` before its result ends ABORTED (R456). -/
def State.abortCal (s : State) (p : Nat) : State :=
  if s.calShort p then (s.wf Reg.CVP_CAL_STATUS.RESULT 3).endCal p else s

/-! ## Start and stop (R448, R450, R451) -/

/-- A port stopped with a cause: 0 FIRMWARE, 1 RATE, 2 CLOCK. An input pads its last word; an output empties its FIFO. -/
def State.stopPort (s : State) (p cause : Nat) : State :=
  let h := s.cvpPort p
  let s := s.wf (Reg.CVP_STAT.STATE p) 2
  let s := s.wf (Reg.CVP_STAT.STOP_CAUSE p) cause
  let short := (8 - h.fifo.length % 8) % 8
  let s :=
    if s.cvpOut p then s.setCvp p { h with fifo := [], stopping := false }
    else
      let s := if short = 0 then s else s.wf (Reg.CVP_STAT.PAD p) 1
      s.setCvp p { h with fifo := h.fifo ++ List.replicate short 0, stopping := false }
  let s := s.abortCal p
  let s := if cause = 0 then s else s.portEvent
  s.dmaServe

/-- The reason START of port `p` is refused, 0 for none. -/
def State.startRefused (s : State) (p : Nat) : Nat :=
  if s.cvpState p = 1 then 1
  else if s.rf (Reg.CVP_CFG.WIDTH p) = 3 ∨ s.cvpFlen p < s.cvpSlots p * s.cvpBits p then 2
  else if !s.cvpFollows p ∧ 4 * (s.rf (Reg.CVP_CFG.BDIV p) + 1) * s.cvpFlen p < s.cvpLimit then 3
  else if !s.on Reg.CPLL_STATUS.LOCK then 4
  else 0

/-- A port started. -/
def State.startPort (s : State) (p : Nat) : State :=
  let s := s.wf (Reg.CVP_STAT.STATE p) 1
  let ofs := (List.range 8).map (fun i => s.reg (Reg.CVP_OFS_at p i))
  s.onCvp p (fun h => { h with fifo := if s.cvpOut p then h.fifo else [], stopping := false, force := ofs })

/-- Ports of a mask. -/
def maskPorts (m : Nat) : List Nat := (List.range 8).filter (fun p => m / 2 ^ p % 2 == 1)

/-- Ports started in order. -/
def State.startPorts (s : State) (ps : List Nat) : State :=
  match ps with
  | [] => s
  | p :: t => (s.startPort p).startPorts t

/-- START of the ports of a mask: refused as a whole when one fails, with the first one's reason. -/
def State.writeStart (s : State) (m : Nat) : WRes :=
  match (maskPorts m).find? (fun p => s.startRefused p != 0) with
  | some p => s.refused cvpRefuse (s.startRefused p)
  | none => .ok ((s.startPorts (maskPorts m)).dmaServe)

/-- STOP of the ports of a list: each RUNNING one stops at the end of its frame. -/
def State.stopPorts (s : State) (ps : List Nat) : State :=
  match ps with
  | [] => s
  | p :: t => (if s.cvpState p = 1 then s.onCvp p (fun h => { h with stopping := true }) else s).stopPorts t

/-- STOP of the ports of a mask; STATE where one of them is not RUNNING. -/
def State.writeStop (s : State) (m : Nat) : WRes :=
  let bad := (maskPorts m).any (fun p => s.cvpState p != 1)
  let s := s.stopPorts (maskPorts m)
  if bad then s.refused cvpRefuse 1 else .ok s

/-- CVP_START written: START is judged on the ports as they are, then STOP. -/
def State.writeCvpStart (s : State) (v : Word) : WRes :=
  let stop := getBits v 8 8
  let bad := (maskPorts stop).any (fun p => s.cvpState p != 1)
  let r := s.writeStart (getBits v 0 8)
  let s' := r.st.stopPorts ((maskPorts stop).filter (fun p => s.cvpState p == 1))
  if bad ∧ r.code = 0 then s'.refused cvpRefuse 1 else ⟨s', r.code⟩

/-- Every RUNNING port stopped for CLOCK, port `p` on, `n` of them. -/
def State.stopAllPorts (s : State) (p n : Nat) : State :=
  match n with
  | 0 => s
  | n + 1 => (if s.cvpState p = 1 then s.stopPort p 2 else s).stopAllPorts (p + 1) n

/-- CPLL loss of lock (R450). -/
def State.cvpClockFault (s : State) : State :=
  if (List.range 8).any (fun p => s.cvpState p == 1) then (s.stopAllPorts 0 8).wf Reg.CVP_STATUS.CLK_FAULT 1 else s

/-! ## Frames (R444, R447, R449, R455, R462) -/

/-- A raw slot value as a signed number of its width. -/
def rawSample (bits : Nat) (v : Word) : Int := sInt bits v.toNat

/-- Little-endian bytes of a number. -/
def bytesOf (v n : Nat) : List Byte :=
  match n with
  | 0 => []
  | n + 1 => BitVec.ofNat 8 v :: bytesOf (v / 256) n

/-- A slot as the input port delivers it: raw minus OFS, saturated to WIDTH, in its memory form. -/
def slotBytes (bits size : Nat) (v ofs : Word) : List Byte :=
  bytesOf (uNat 32 (satS bits (rawSample bits v - sInt 32 ofs.toNat))) size

/-- The bytes of an input frame, slot `i` on, `n` slots. -/
def frameBytes (bits size : Nat) (vs ofs : List Word) (i n : Nat) : List Byte :=
  match n with
  | 0 => []
  | n + 1 => slotBytes bits size (vs.getD i 0) (ofs.getD i 0) ++ frameBytes bits size vs ofs (i + 1) n

/-- A frame added to a calibration's sums. -/
def CvpCal.add (k : CvpCal) (bits : Nat) (vs : List Word) : CvpCal :=
  if k.skip then { k with skip := false }
  else if k.frames = 2 ^ k.log2n then k
  else
    let raw := (List.range 8).map (fun i => rawSample bits (vs.getD i 0))
    { k with
      frames := k.frames + 1,
      sum := List.zipWith (· + ·) k.sum raw,
      sq := List.zipWith (fun a (b : Int) => a + b.natAbs * b.natAbs) k.sq raw,
      clip := List.zipWith (fun a (b : Int) => a || decide (b = 2 ^ (bits - 1) - 1) || decide (b = -(2 ^ (bits - 1)))) k.clip raw }

/-- A frame seen by the calibration of its port. -/
def State.calFrame (s : State) (p : Nat) (vs : List Word) : State :=
  match s.cal with
  | none => s
  | some k => if k.port = p ∧ s.rf Reg.CVP_CAL_STATUS.STATE = 2 then { s with cal := some (k.add (s.cvpBits p) vs) } else s

/-- The frame in progress as accumulation was called for ends in error (R453): the next one is the first. -/
def State.calBad (s : State) (p : Nat) : State :=
  match s.cal with
  | none => s
  | some k => if k.port = p then { s with cal := some { k with skip := false } } else s

/-- A frame error (R450). -/
def State.frameError (s : State) (p : Nat) : State :=
  (((s.calBad p).incSat (Reg.CVP_FERR_CNT.COUNT p)).wf (Reg.CVP_STAT.FRAME_ERR p) 1).portEvent

/-- A whole input frame written to the FIFO, or dropped (R449). -/
def State.takeFrame (s : State) (p : Nat) (vs : List Word) : State :=
  let h := s.cvpPort p
  let bs := frameBytes (s.cvpBits p) (s.cvpSize p) vs h.force 0 (s.cvpSlots p)
  if h.fifo.length + bs.length ≤ 512 then
    (s.setCvp p { h with fifo := h.fifo ++ bs }).incWrap (Reg.CVP_FRAMES.COUNT p)
  else ((s.incSat (Reg.CVP_OVR_CNT.COUNT p)).wf (Reg.CVP_STAT.OVERRUN p) 1).portEvent

/-- The frame boundary of a port: coefficients taken for the next frame (R455), a stop asked for or by rate. -/
def State.frameEnd (s : State) (p period : Nat) : State :=
  let ofs := (List.range 8).map (fun i => s.reg (Reg.CVP_OFS_at p i))
  let s := s.onCvp p (fun h => { h with force := ofs })
  if s.cvpFollows p ∧ period < s.cvpLimit then s.stopPort p 1
  else if (s.cvpPort p).stopping then s.stopPort p 0
  else s.dmaServe

/-- Slots taken from the head of an output FIFO. -/
def slotsOut (size : Nat) (bs : List Byte) (n : Nat) : List Word :=
  match n with
  | 0 => []
  | n + 1 =>
    BitVec.ofNat 32 ((bs.take size).foldr (fun b acc => b.toNat + 256 * acc) 0) :: slotsOut size (bs.drop size) n

/-- The output of a port zeroed by a mute (R462). -/
def State.zeroed (s : State) (p : Nat) : Bool :=
  (s.on Reg.ABT_STATUS.MUTE_0 || s.on Reg.ABT_STATUS.MUTE_1) && s.bit Reg.ABT_CTL.ZERO_MASK p

/-- A frame of zeros sent. -/
def State.sendZeros (s : State) (p : Nat) : State :=
  s.onCvp p (fun h => { h with tx := List.replicate (s.cvpSlots p) 0 })

/-- An output frame taken from the FIFO and sent; zeros when it is not whole, or while muted (R449, R462). -/
def State.giveFrame (s : State) (p : Nat) : State :=
  let h := s.cvpPort p
  let n := s.cvpFrame p
  if n ≤ h.fifo.length then
    let vs := (slotsOut (s.cvpSize p) h.fifo (s.cvpSlots p)).map (fun w => BitVec.ofNat 32 (w.toNat % 2 ^ s.cvpBits p))
    (s.setCvp p { h with fifo := h.fifo.drop n, tx := if s.zeroed p then List.replicate (s.cvpSlots p) 0 else vs }).incWrap
      (Reg.CVP_FRAMES.COUNT p)
  else (((s.sendZeros p).incSat (Reg.CVP_UND_CNT.COUNT p)).wf (Reg.CVP_STAT.UNDERRUN p) 1).portEvent

/-! ## Calibration steps -/

/-- Whether CVP_CAL_CTL.GO is refused (R453). -/
def State.calRefused (s : State) (p m l : Nat) : Bool :=
  s.cvpOut p || s.cvpState p != 1 || m == 0 || decide (2 ^ s.cvpSlots p ≤ m) || decide (l < 8) || s.cal.isSome

/-- CVP_CAL_CTL written. -/
def State.writeCal (s : State) (v : Word) : WRes :=
  let s := s.writeReg .all Reg.CVP_CAL_CTL_at v
  if getBits v 31 1 = 0 then .ok s
  else
    let p := getBits v 0 3
    let m := getBits v 8 8
    let l := getBits v 16 4
    if s.calRefused p m l then s.refused cvpRefuse 5
    else
      let s := s.setReg Reg.CVP_CAL_STATUS_at 1
      let s := s.wf (Reg.CVP_STAT.CAL p) 1
      let s := s.wf Reg.CVP_STATUS.CAL_BUSY 1
      .ok { s with cal := some ⟨p, m, l, false, 0, List.replicate 8 0, List.replicate 8 0, List.replicate 8 false⟩ }

/-- The cause a slot fails for (R454): 1 CLIP, 2 MEAN, 3 VAR, 0 none. -/
def State.calCause (s : State) (k : CvpCal) (i : Nat) : Nat :=
  let n := 2 ^ k.log2n
  let sum := k.sum.getD i 0
  if k.clip.getD i false then 1
  else if s.rf Reg.CVP_CAL_LIM_MEAN.LIMIT * n < sum.natAbs then 2
  else if s.rf Reg.CVP_CAL_LIM_VAR.LIMIT * n * n < k.sq.getD i 0 * n - sum.natAbs * sum.natAbs then 3
  else 0

/-- A sum over 2^l, to nearest with ties to even. -/
def roundMean (sum : Int) (l : Nat) : Int :=
  let n : Int := 2 ^ l
  let q := sum / n
  let r := sum % n
  if 2 * r < n then q else if n < 2 * r then q + 1 else if q % 2 = 0 then q else q + 1

/-- The selected slot of largest |m|, the first of equals. -/
def CvpCal.largest (k : CvpCal) (slots : List Nat) : Nat :=
  slots.foldl (fun b i => if (k.sum.getD b 0).natAbs < (k.sum.getD i 0).natAbs then i else b) (slots.headD 0)

/-- CVP_CAL_MEAN, CVP_CAL_VAR and SLOT for a slot. -/
def State.calReport (s : State) (k : CvpCal) (i : Nat) : State :=
  let n := 2 ^ k.log2n
  let sum := k.sum.getD i 0
  let s := s.wf Reg.CVP_CAL_STATUS.SLOT i
  let s := s.wf Reg.CVP_CAL_MEAN.VALUE (uNat 32 (roundMean sum k.log2n))
  s.wf Reg.CVP_CAL_VAR.VALUE (min (2 ^ 32 - 1) ((k.sq.getD i 0 * n - sum.natAbs * sum.natAbs) / (n * n)))

/-- The coefficients of the selected slots taken (R455). -/
def State.calTake (s : State) (k : CvpCal) (slots : List Nat) : State :=
  match slots with
  | [] => s
  | i :: t => (s.wf (Reg.CVP_OFS.OFS k.port i) (uNat 32 (roundMean (k.sum.getD i 0) k.log2n))).calTake k t

/-- The result decided (R454, R455). -/
def State.calDecide (s : State) (k : CvpCal) : State :=
  let slots := maskPorts k.mask
  let s := s.wf Reg.CVP_CAL_STATUS.STATE 3
  match slots.find? (fun i => s.calCause k i != 0) with
  | some i => ((s.wf Reg.CVP_CAL_STATUS.RESULT 2).wf Reg.CVP_CAL_STATUS.CAUSE (s.calCause k i)).calReport k i
  | none => ((s.wf Reg.CVP_CAL_STATUS.RESULT 1).calReport k (k.largest slots)).calTake k slots

/-! ## Register writes (R451) -/

/-- CVP_CFG written: refused while RUNNING. -/
def State.writeCvpCfg (s : State) (p : Nat) (v : Word) : WRes :=
  if s.cvpState p = 1 then s.refused cvpRefuse 1 else .ok (s.writeReg .all (Reg.CVP_CFG_at p) v)

/-- CVP_OFS written: refused while the port calibrates. -/
def State.writeOfs (s : State) (p i : Nat) (v : Word) : WRes :=
  if s.on (Reg.CVP_STAT.CAL p) then s.refused cvpRefuse 1 else .ok (s.writeReg .all (Reg.CVP_OFS_at p i) v)

/-- A write at a converter-port address. -/
def State.cvpWrite (s : State) (src : Src) (a : Nat) (v : Word) : WRes :=
  let p := (a - 0x4240) / 0x20
  let off := (a - 0x4240) % 0x20
  if src = .fobex then s.refused cvpRefuse 6
  else if a = Reg.CVP_START_at then s.writeCvpStart v
  else if a = Reg.CVP_CAL_CTL_at then s.writeCal v
  else if a < 0x4240 then .ok (s.writeReg .all a v)
  else if off = 0 then s.writeCvpCfg p v
  else if 8 ≤ off ∧ off < 16 then s.writeOfs p (off - 8) v
  else .ok (s.writeReg .all a v)

/-- The ports after a reset of CONV (R452): idle, every FIFO empty; its registers are reset with the island. -/
def State.resetCvp (s : State) : State := { s with cvp := [], cal := none }

/-! ## Commands -/

/-- A write reaching CONV, refused when it is from the Fobex engine. -/
def State.toCvp (s : State) (src : Src) (f : State → WRes) : State :=
  if !s.online islConv then s else if src = .fobex then (s.refused cvpRefuse 6).st else (f s).st

/-- PORT_START (R448): CVP_START written with START bits. -/
def execPortStart (src : Src) (mask : BitVec 8) (s : State) : Host.Outcome State Fault Refusal :=
  .next (s.toCvp src (fun s => s.writeStart mask.toNat))

/-- PORT_STOP (R448): CVP_START written with STOP bits. -/
def execPortStop (src : Src) (mask : BitVec 8) (s : State) : Host.Outcome State Fault Refusal :=
  .next (s.toCvp src (fun s => s.writeStop mask.toNat))

/-- INPUT_FRAME (R444, R449): a frame of port `p` completes; `line`: SD at the rising and at the falling edge of each bit clock, from the one in
which FS becomes active; `bad` for a follower FS at a wrong bit count or none in time (R450), `period` its period in CONV cycles (R446). -/
def execInputFrame (p : Fin 8) (line : List (Bool × Bool)) (bad : Bool) (period : Nat) (s : State) :
    Host.Outcome State Fault Refusal :=
  let vs := s.frameRaw p.val line
  .next (if s.cvpState p.val = 1 && !s.cvpOut p.val then
      (if bad && s.cvpFollows p.val then s.frameError p.val
       else (s.calFrame p.val vs).takeFrame p.val vs).frameEnd p.val period
    else s)

/-- OUTPUT_FRAME (R449): a frame of port `p` begins; a stop asked for takes effect at this boundary. -/
def execOutputFrame (p : Fin 8) (bad : Bool) (period : Nat) (s : State) : Host.Outcome State Fault Refusal :=
  .next (if s.cvpState p.val = 1 && s.cvpOut p.val then
      (if (s.cvpPort p.val).stopping then s
       else if bad && s.cvpFollows p.val then (s.sendZeros p.val).frameError p.val
       else s.giveFrame p.val).frameEnd p.val period
    else s)

/-- FOLLOWER_CLOCK_LOSS (R450): 4,096 CONV cycles without a BCLK edge. -/
def execFollowerClockLoss (p : Fin 8) (s : State) : Host.Outcome State Fault Refusal :=
  .next (if s.cvpState p.val = 1 && s.cvpFollows p.val then s.stopPort p.val 2 else s)

/-- CALIBRATION_START (R453): CVP_CAL_CTL written with GO. -/
def execCalibrationStart (src : Src) (p : BitVec 3) (mask : BitVec 8) (log2n : BitVec 4) (s : State) :
    Host.Outcome State Fault Refusal :=
  .next (s.toCvp src (fun s => s.writeCal (BitVec.ofNat 32 (p.toNat + 256 * mask.toNat + 65536 * log2n.toNat + 2 ^ 31))))

/-- Accumulation called for: it begins at the next frame (R453). -/
def State.calAccumulate (s : State) : State :=
  match s.cal with
  | none => s
  | some k => { s with cal := some { k with skip := true } }.wf Reg.CVP_CAL_STATUS.STATE 2

/-- CALIBRATION_SETTLED (R453, Table cvp-3 step 2). -/
def execCalibrationSettled (s : State) : Host.Outcome State Fault Refusal :=
  .next (if s.rf Reg.CVP_CAL_STATUS.STATE = 1 then s.calAccumulate else s)

/-- CALIBRATION_RESULT (R454): the last frame has been accumulated. -/
def execCalibrationResult (s : State) : Host.Outcome State Fault Refusal :=
  .next (match s.cal with
    | none => s
    | some k => if s.rf Reg.CVP_CAL_STATUS.STATE = 2 ∧ k.frames = 2 ^ k.log2n then s.calDecide k else s)

/-- CALIBRATION_RESTORED (R453, Table cvp-3 step 4). -/
def execCalibrationRestored (s : State) : Host.Outcome State Fault Refusal :=
  .next (match s.cal with
    | none => s
    | some k => if s.rf Reg.CVP_CAL_STATUS.STATE = 3 then s.endCal k.port else s)

/-- CVP_OFS_WRITE (R455). -/
def execCvpOfsWrite (src : Src) (p i : Fin 8) (v : Word) (s : State) : Host.Outcome State Fault Refusal :=
  .next (s.toCvp src (fun s => s.writeOfs p.val i.val v))

end Sys2Proof.Machine
end

