-- ==== Sys2Proof/Machine/Spll.lean ====
section
/-!
DEFINITION. The PLLs (R268 to R286, R294): the SPLL's band memo, searches, hops and relocks; lock detection of the IOPLL and the
CPLL; the REFCLK monitor.

Choices and readings of this file: log 41, 42, 43, 106.
-/

namespace Sys2Proof.Machine

/-- A change of the PLLs. -/
def State.onSpll (s : State) (f : Spll → Spll) : State := { s with spll := f s.spll }
/-- The clock event (R269, R272, R273, R276, R281, R285, R288). -/
def State.clkEvent (s : State) : State := s.raiseIf Reg.IOPLL_STATUS.CLK_EVENT Reg.IOPLL_STATUS.CLK_EVENT_EN
/-- Refusals of this chapter (Table clk-10). -/
def clkRefuse : RefuseAt :=
  ⟨Reg.IOPLL_STATUS.REFUSED, some Reg.IOPLL_REFUSE_INFO.REASON,
   some (Reg.IOPLL_STATUS.REFUSE_EVENT, Reg.IOPLL_STATUS.REFUSE_EVENT_EN)⟩

/-- STATE of SPLL_STATUS. -/
def spStarting : Nat := 0
/-- LOCKED. -/
def spLocked : Nat := 1
/-- HOP. -/
def spHop : Nat := 2
/-- RELOCK. -/
def spRelock : Nat := 3
/-- BYPASS_FAIL. -/
def spBypass : Nat := 4

/-- SPLL_STATUS.STATE. -/
def State.spState (s : State) : Nat := s.rf Reg.SPLL_STATUS.STATE
/-- W and TOL for a window that begins now (R271); a TOL of 0 acts as 1. -/
def State.lockNow (s : State) : Nat × Nat := (32 * 2 ^ s.rf Reg.IOPLL_CTL.WIN, max 1 (s.rf Reg.IOPLL_CTL.TOL))
/-- The next window of a PLL begins: WIN and TOL as they are apply to it (R271). -/
def State.openWindow (s : State) (p : Pll) : State :=
  s.onSpll (fun x => match p with
    | .iopll => { x with ioWin := s.lockNow }
    | .cpll => { x with cpWin := s.lockNow }
    | .spll => { x with spWin := s.lockNow })
/-- A count within a tolerance of its nominal value. -/
def within (count nominal tol : Nat) : Bool := decide (nominal ≤ count + tol) && decide (count ≤ nominal + tol)

/-! ## The band memo (R278 to R280) -/

/-- The entry whose N field is `n`, valid or not. -/
def Spll.slotOf (x : Spll) (n : Nat) : Option Nat := (List.range 8).find? (fun i => (x.memo.map Memo.n)[i]? == some n)
/-- A lookup by N (R278): the band of a valid entry. -/
def Spll.lookup (x : Spll) (n : Nat) : Option Nat := (x.memo.find? (fun m => m.valid && m.n == n)).map Memo.band
/-- The entry a search writes (R278): the one of that N, else the lowest invalid one, else the least recently used. -/
def Spll.victim (x : Spll) (n : Nat) : Nat :=
  match x.slotOf n with
  | some i => i
  | none =>
    match (List.range 8).find? (fun i => (x.memo.map Memo.valid)[i]? == some false) with
    | some i => i
    | none => x.order.getLastD 0
/-- The order of use with entry `i` the most recent. -/
def Spll.used (x : Spll) (i : Nat) : Spll := { x with order := i :: x.order.filter (· != i) }
/-- A result written (R278). -/
def Spll.remember (x : Spll) (n band : Nat) (tag : Int) : Spll :=
  { (x.used (x.victim n)) with memo := x.memo.set (x.victim n) ⟨true, n, band, tag⟩ }
/-- The entry of an N invalidated; it keeps its N. -/
def Spll.forget (x : Spll) (n : Nat) : Spll :=
  { x with memo := x.memo.map (fun m => if m.n == n then { m with valid := false } else m) }
/-- Every entry invalidated (MEMO_CLR, R280). -/
def Spll.forgetAll (x : Spll) : Spll := { x with memo := x.memo.map (fun m => { m with valid := false }) }
/-- The reading of sensor 0 in 1/16 °C. -/
def State.sensor0 (s : State) : Int := sInt 16 (s.rf (Reg.THM_T.T 0))
/-- Sensor 0 is invalid: the memo is out of use (R280). -/
def State.memoOut (s : State) : Bool := s.on (Reg.THM_T.FAULT 0)
/-- TAG of a reading (R278): the nearest whole °C, halves up. -/
def tagOf (t : Int) : Int := (t + 8) / 16
/-- Ageing at a reading `t` (R279). -/
def State.ageMemo (s : State) (t : Int) : State :=
  let dt : Int := max 1 (s.rf Reg.SPLL_MEMO_DT.DT)
  s.onSpll (fun x =>
    { x with memo := x.memo.map (fun m => if 16 * dt < (t - 16 * m.tag).natAbs then { m with valid := false } else m) })

/-- SPLL_MEMO_DATA as read. -/
def State.memoDataView (s : State) : Word :=
  let i := s.rf Reg.SPLL_MEMO_SEL.ENTRY
  let m := s.spll.memo.getD i ⟨false, 0, 0, 0⟩
  BitVec.ofNat 32 (b2n m.valid + 2 * m.n + 2 ^ 8 * m.band + 2 ^ 16 * uNat 8 m.tag + 2 ^ 24 * s.spll.order.idxOf i)

/-! ## Spread (R286) -/

/-- Spread in effect when the SPLL is locked: SSC_ACTIVE and SSC_SUPPRESSED judged at the point in effect. -/
def State.judgeSpread (s : State) : State :=
  let c := s.spll.ssc
  let op := s.rf Reg.SPLL_STATUS.OP
  let tooFast := decide (400000 * s.rf (Reg.SPLL_OPCFG.P op) < 25 * s.rf (Reg.SPLL_OPCFG.N op) * (401 + getBits c 2 2))
  let supp := getBits c 0 1 == 1 && getBits c 1 1 == 1 && tooFast
  let s := s.wf Reg.SPLL_STATUS.SSC_SUPPRESSED (b2n supp)
  s.wf Reg.SPLL_STATUS.SSC_ACTIVE (b2n (getBits c 0 1 == 1 && !supp))

/-- The settings of SPLL_SSC put into effect. -/
def State.applySpread (s : State) : State := (s.onSpll (fun x => { x with ssc := s.reg Reg.SPLL_SSC_at })).judgeSpread

/-- Whether a loss-of-lock window is good: within 8 counts of W, or of W (1 − d/2) under downward spread (R271, R286). -/
def State.spllHeld (s : State) (count : Nat) : Bool :=
  let d := if s.on Reg.SPLL_STATUS.SSC_ACTIVE && getBits s.spll.ssc 1 1 == 0 then getBits s.spll.ssc 2 2 + 1 else 0
  within (400 * count) (s.spll.spWin.1 * (400 - d)) 3200

/-! ## Searches and hops (R276, R277, R281, R285) -/

/-- How a window or step left the SPLL: nothing ended; a hop succeeded or failed; a relock or the start ended. -/
inductive HopEnd where
  | none
  | ok
  | failed
  | other
  deriving DecidableEq, Repr

/-- REFCLK cycles of the stage in progress (R277, R281, R282, R284): 3 of switching to the bypass where the hop has just started, 20 of
waiting where N, P or the band has changed, and its window. -/
def Spll.stageLen (x : Spll) : Nat :=
  (if x.cycles = 0 then 3 else 0) +
    (match x.phase with
     | .idle => 0
     | .waiting => 0
     | .verify ok => if ok = 0 then 52 else 32
     | .search _ _ => 52
     | .attempt _ ended _ => x.spWin.1 + (if ended = 0 then 20 else 0))

/-- A stage ends and another begins: its cycles added to the hop's time, its first window opened. -/
def State.spPhase (s : State) (ph : SpllPhase) : State :=
  (s.onSpll (fun x =>
    { x with phase := ph, cycles := if x.phase = .idle ∨ x.phase = .waiting then x.cycles else x.cycles + x.stageLen })).openWindow .spll

/-- N of the target. -/
def State.spN (s : State) : Nat := s.rf (Reg.SPLL_OPCFG.N s.spll.target.val)

/-- A full search begins (R277). -/
def State.startSearch (s : State) : State := (s.incWrap Reg.SPLL_SEARCH_CNT.SEARCHES).spPhase (.search 0 0)

/-- The islands on the bypass: no spread (R284, R286). -/
def State.onBypass (s : State) : State := s.wf Reg.SPLL_STATUS.SSC_ACTIVE 0

/-- A hop starts (R281): the memo sampled, unless the SPLL stands in BYPASS_FAIL (R285) or sensor 0 is invalid (R280). -/
def State.startHop (s : State) (t : OpIx) : State :=
  let failed := s.spState == spBypass
  let s := s.incWrap Reg.SPLL_HOP_CNT.HOPS
  let s := s.onBypass.onSpll (fun x => { x with why := .hop, target := t, cycles := 0 })
  let hit := if failed || s.memoOut then none else s.spll.lookup (s.rf (Reg.SPLL_OPCFG.N t.val))
  let s := s.wf Reg.SPLL_STATUS.STATE spHop
  match hit with
  | some b => ((s.incWrap Reg.SPLL_HOP_CNT.HITS).wf Reg.SPLL_STATUS.BAND b).spPhase (.verify 0)
  | none => s.startSearch

/-- A relock starts (R276). -/
def State.startRelock (s : State) : State :=
  let s := s.wf Reg.SPLL_STATUS.LOL 1
  let s := s.incSat Reg.SPLL_LOL_CNT.COUNT
  let s := s.clkEvent.onBypass.wf Reg.SPLL_STATUS.STATE spRelock
  let s := s.onSpll (fun x => { (x.forget (s.rf (Reg.SPLL_OPCFG.N (s.rf Reg.SPLL_STATUS.OP)))) with
    why := .relock, target := Fin.ofNat 4 (s.rf Reg.SPLL_STATUS.OP), cycles := 0 })
  s.startSearch

/-- A relock or hop failed (R285), its time known. The start stays in BYPASS_FAIL alike (R294). -/
def State.failHop (s : State) : HopEnd × State :=
  let hop := s.spll.why == .hop
  let s := s.onSpll (fun x => { x with phase := .idle })
  let s := s.wf Reg.SPLL_STATUS.STATE spBypass
  let s := s.wf Reg.SPLL_STATUS.HOP_FAIL 1
  let s := if hop then s.wf Reg.SPLL_HOP_TIME.CYCLES s.spll.cycles else s
  let s := s.clkEvent
  (if hop then .failed else .other, s)

/-- Lock declared (R278, R281): the memo, unless sensor 0 is invalid; spread resumes; the point; the switch back from the bypass takes 3
cycles. -/
def State.endLock (s : State) : HopEnd × State :=
  let hop := s.spll.why == .hop
  let s := if s.memoOut then s else
    s.onSpll (fun x => x.remember s.spN (s.rf Reg.SPLL_STATUS.BAND) (tagOf s.sensor0))
  let s := s.wf Reg.SPLL_STATUS.STATE spLocked
  let s := s.wf Reg.SPLL_STATUS.OP s.spll.target.val
  let s := s.onSpll (fun x => { x with cycles := x.cycles + 3 })
  let s := s.applySpread
  if hop then (.ok, (s.wf Reg.SPLL_HOP_TIME.CYCLES s.spll.cycles).clkEvent) else (.other, s)

/-- The band on the side a count indicates (R277): a low count calls for a higher frequency. A nominal count indicates no side,
and there is no band beyond 0 and 63: a free value. -/
def State.adjacent (s : State) (count nominal : Nat) : Nat × State :=
  let b := s.rf Reg.SPLL_STATUS.BAND
  let up := decide (count < nominal) == Config.bandRises
  if count = nominal ∨ (up ∧ b = 63) ∨ (¬up ∧ b = 0) then
    let f := s.takeFree
    (f.1 % 64, f.2)
  else (if up then b + 1 else b - 1, s)

/-- A window ends for the SPLL (R271, R277, R281). -/
def State.spllWindow (s : State) (count : Nat) : HopEnd × State :=
  match s.spll.phase with
  | .idle =>
    if s.spState = spLocked ∧ !s.spllHeld count then (.none, s.startRelock) else (.none, s.openWindow .spll)
  | .waiting => (.none, s)
  | .search _ _ => (.none, s)
  | .verify ok =>
    if within count 32 s.spll.spWin.2 then
      if ok = 0 then (.none, s.spPhase (.verify 1)) else (s.spPhase .idle).endLock
    else
      let s := s.spPhase .idle
      let s := s.incWrap Reg.SPLL_SEARCH_CNT.VERIFY_FAILS
      (.none, (s.onSpll (fun x => x.forget s.spN)).startSearch)
  | .attempt second ended good =>
    let w := s.spll.spWin.1
    let good := good && within count w s.spll.spWin.2
    if ended = 0 then (.none, s.spPhase (.attempt second 1 good))
    else if good then (s.spPhase .idle).endLock
    else if second then (s.spPhase .idle).failHop
    else
      let r := s.adjacent count w
      (.none, (r.2.wf Reg.SPLL_STATUS.BAND r.1).spPhase (.attempt true 0 true))

/-- A step of the search ends (R277): its half of the bands is kept by the count of 32 REFCLK cycles. The test point of a step is
the first band of the upper half; an exactly nominal count leaves a free choice. -/
def State.bandStep (s : State) (count : Nat) : State :=
  match s.spll.phase with
  | .search steps lo =>
    let half := 32 / 2 ^ steps
    let r := if count = 32 then
        let f := s.takeFree
        (f.1 % 2 == 0, f.2)
      else (decide (count < 32) == Config.bandRises, s)
    let lo := if r.1 then lo + half else lo
    let s := r.2.wf Reg.SPLL_STATUS.BAND lo
    if steps = 5 then s.spPhase (.attempt false 0 true) else s.spPhase (.search (steps + 1) lo)
  | _ => s

/-! ## Requests (R283) -/

/-- Whether a hop or a relock is in progress, or the start. -/
def State.spBusy (s : State) : Bool := s.spll.phase != .idle

/-- The reason a request is refused, 0 for none: HOP_BUSY, HOP_SAME, REF_ABSENT. -/
def State.hopReason (s : State) (t : OpIx) : Nat :=
  let dest := if s.spBusy then s.spll.target.val else s.rf Reg.SPLL_STATUS.OP
  if s.spll.queue.isSome then 1
  else if s.spState ≠ spBypass ∧ t.val = dest then 2
  else if s.on Reg.IOPLL_STATUS.REF_ABSENT then 4
  else 0

/-- An accepted request starts at once, or is queued behind what is in progress. -/
def State.takeHop (s : State) (t : OpIx) : State :=
  if s.spBusy then (s.onSpll (fun x => { x with queue := some t })).wf Reg.SPLL_STATUS.QUEUED 1 else s.startHop t

/-- A request of the Load-rating unit or of the Keystone sequencer; a refusal is recorded as R13 states. -/
def State.requestHop (s : State) (t : OpIx) : Bool × State :=
  if s.hopReason t = 0 then (true, s.takeHop t) else (false, s.refuse clkRefuse (s.hopReason t))

/-- SPLL_HOP written (R283, R293). -/
def State.writeHop (s : State) (src : Src) (v : Word) : WRes :=
  if src = .fobex then s.refused clkRefuse 0xE
  else if !s.on Reg.SPLL_CTL.FWHOP then s.refused clkRefuse 3
  else
    let t : OpIx := Fin.ofNat 4 (getBits v 0 2)
    if s.hopReason t = 0 then .ok (s.takeHop t) else s.refused clkRefuse (s.hopReason t)

/-- The queued request starts when nothing is in progress (R283, R285); while REF_ABSENT is set no hop starts and it stays queued (R270). -/
def State.startQueued (s : State) : State :=
  match s.spll.queue with
  | some t =>
    if s.spBusy ∨ s.on Reg.IOPLL_STATUS.REF_ABSENT then s
    else ((s.onSpll (fun x => { x with queue := none })).wf Reg.SPLL_STATUS.QUEUED 0).startHop t
  | none => s

/-! ## REFCLK, IOPLL, CPLL (R269 to R273, R294) -/

/-- The start goes on once REFCLK is present and the IOPLL locked: the full search to OP1 (R294). -/
def State.startUp (s : State) : State :=
  if s.spll.phase = .waiting ∧ s.on Reg.IOPLL_STATUS.IOPLL_LOCK ∧ !s.on Reg.IOPLL_STATUS.REF_ABSENT then
    (s.onSpll (fun x => { x with why := .start, target := 1, cycles := 0 })).startSearch
  else s

/-- REF_ABSENT declared (R269, R270, R294): a hop or relock ends as a failure, its time the stages ended and a part of the one in
progress (R282); the start waits again. -/
def State.refLost (s : State) : HopEnd × State :=
  let s := s.wf Reg.IOPLL_STATUS.REF_ABSENT 1
  let s := s.wf Reg.IOPLL_STATUS.REF_LOST 1
  let s := (s.incSat Reg.IOPLL_REF_CNT.ABSENT_CNT).clkEvent
  let s := s.onSpll (fun x => { x with ioGood := 0, cpGood := 0 })
  if s.spState = spStarting then (.none, s.onSpll (fun x => { x with phase := .waiting }))
  else if s.spBusy then
    let f := s.takeFree
    (f.2.onSpll (fun x => { x with cycles := x.cycles + f.1 % x.stageLen })).failHop
  else (.none, s)

/-- A REFCLK monitor window ends (R269). -/
def State.refWindow (s : State) (count : Nat) : HopEnd × State :=
  let s := s.wf Reg.IOPLL_REF_CNT.COUNT (min 255 count)
  let good := decide (58 ≤ count) && decide (count ≤ 70)
  if !s.on Reg.IOPLL_STATUS.REF_ABSENT then (if good then (.none, s) else s.refLost)
  else if !good then (.none, s.onSpll (fun x => { x with refGood := 0 }))
  else if s.spll.refGood = 0 then (.none, s.onSpll (fun x => { x with refGood := 1 }))
  else
    let s := (s.onSpll (fun x => { x with refGood := 0 })).wf Reg.IOPLL_STATUS.REF_ABSENT 0
    (.none, (((s.openWindow .iopll).openWindow .cpll).openWindow .spll).startUp)

/-- A window ends for the IOPLL (R271, R272). -/
def State.ioWindow (s : State) (count : Nat) : State :=
  let w := s.spll.ioWin.1
  let tol := s.spll.ioWin.2
  let s := s.openWindow .iopll
  if s.on Reg.IOPLL_STATUS.IOPLL_LOCK then
    if within count w 8 then s
    else
      let s := s.wf Reg.IOPLL_STATUS.IOPLL_LOCK 0
      (s.wf Reg.IOPLL_STATUS.IOPLL_LOL 1).clkEvent.onSpll (fun x => { x with ioLost := true, ioGood := 0 })
  else if !within count w tol then s.onSpll (fun x => { x with ioGood := 0 })
  else if s.spll.ioGood = 0 then s.onSpll (fun x => { x with ioGood := 1 })
  else ((s.wf Reg.IOPLL_STATUS.IOPLL_LOCK 1).onSpll (fun x => { x with ioGood := 0, ioLost := false })).startUp

/-- A window ends for the CPLL (R271, R273); its loss stops the converter ports (R450). -/
def State.cpWindow (s : State) (count : Nat) : State :=
  let w := s.spll.cpWin.1
  let tol := s.spll.cpWin.2
  let s := s.openWindow .cpll
  if !s.on Reg.CPLL_CTL.EN then s
  else if s.on Reg.CPLL_STATUS.LOCK then
    if within count w 8 then s
    else
      let s := s.wf Reg.CPLL_STATUS.LOCK 0
      ((s.wf Reg.CPLL_STATUS.LOL 1).clkEvent.onSpll (fun x => { x with cpGood := 0 })).cvpClockFault
  else if !within count w tol then s.onSpll (fun x => { x with cpGood := 0 })
  else if s.spll.cpGood = 0 then s.onSpll (fun x => { x with cpGood := 1 })
  else (s.wf Reg.CPLL_STATUS.LOCK 1).onSpll (fun x => { x with cpGood := 0 })

end Sys2Proof.Machine
end

