-- ==== Sys2Proof/Machine/Load.lean ====
section
/-!
DEFINITION. Load rating (spec/12): sensing, the PMBus master, ledger ticks and windows, stepping, throttling and trips, admission; and the
Keystone sequencer's own step to OP1 (R395).

Choices and readings of this file: log 27, 45, 46, 47, 48, 95, 107, 108, 109.
-/

namespace Sys2Proof.Machine

/-- Refusals of R317. -/
def ldrRefuse : RefuseAt :=
  ⟨Reg.LDR_STATUS.REFUSED, some Reg.LDR_STATUS.REASON, some (Reg.LDR_EVCFG.REFUSE_EVENT, Reg.LDR_EVCFG.REFUSE_EN)⟩
/-- LDR_EVENT (R298, R300, R312, R316). -/
def State.ldrEvent (s : State) : State := s.raiseIf Reg.LDR_EVCFG.LDR_EVENT Reg.LDR_EVCFG.LDR_EVENT_EN

/-! ## Stepping (R311 to R313) and the Keystone's step (R395) -/

/-- A VOUT_COMMAND takes the next place between polls (R298). -/
def State.voutCommand (s : State) (mv : Nat) (b : VoutBy) : State := s.onLdr (fun l => { l with vcmd := some ⟨mv, b⟩ })

/-- LDR_OPV_n. -/
def State.opv (s : State) (n : Nat) : Nat := s.rf (Reg.LDR_OPV.MV n)

/-- A request of the Load-rating unit (R283): refused while FWHOP is 1. -/
def State.ldrHop (s : State) (t : OpIx) : Bool × State :=
  if s.on Reg.SPLL_CTL.FWHOP then (false, s.refuse clkRefuse 3) else s.requestHop t

/-- A step begins (R312). A refused request leaves no step in progress. -/
def State.beginStep (s : State) (a b : Nat) : State :=
  if b < a then
    let r := s.ldrHop (Fin.ofNat 4 b)
    if r.1 then r.2.onLdr (fun l => { l with step := some ⟨a, b, true⟩ }) else r.2
  else (s.voutCommand (s.opv b) .step).onLdr (fun l => { l with step := some ⟨a, b, false⟩ })

/-- READ_VOUT during an up-step (R312). -/
def State.stepVout (s : State) (mv : Nat) : State :=
  match s.ldr.step with
  | none => s
  | some x =>
    if x.hop ∨ mv + 10 < s.opv x.to' then s
    else
      let r := s.ldrHop (Fin.ofNat 4 x.to')
      r.2.onLdr (fun l => { l with step := if r.1 then some { x with hop := true } else none })

/-- A hop of a step ends (R312); with FWHOP set meanwhile, the unit commands no voltage of its own (R313). -/
def State.stepHopEnd (s : State) (ok : Bool) : State :=
  match s.ldr.step with
  | none => s
  | some x =>
    if !x.hop then s
    else
      let s := s.onLdr (fun l => { l with step := none })
      if !ok ∨ s.rf Reg.SPLL_STATUS.OP ≠ x.to' then s
      else if x.to' < x.from' then
        let s := if s.on Reg.PMB_STATUS.FAIL ∨ s.on Reg.SPLL_CTL.FWHOP then s else s.voutCommand (s.opv x.to') .step
        (s.incWrap Reg.LDR_OP_CNT.DOWN).ldrEvent
      else (s.incWrap Reg.LDR_OP_CNT.UP).ldrEvent

/-- The sequencer's step of the SPLL changed. -/
def State.setKey (s : State) (k : KeyStep) : State := s.onSpll (fun x => { x with key := k })

/-- The sequencer's hop to OP1; a refusal leaves the point in effect. -/
def State.keyHop (s : State) (thenVolt : Bool) : State :=
  let r := s.requestHop 1
  r.2.setKey (if r.1 then .hop thenVolt else .none)

/-- The sequencer brings the SPLL islands to OP1 (R395). -/
def State.keyBegin (s : State) : State :=
  if s.spBusy then s.setKey .waits
  else
    let op := s.rf Reg.SPLL_STATUS.OP
    if 2 ≤ op then s.keyHop true
    else if op = 0 then (s.voutCommand 720 .keystone).setKey .volt
    else (s.voutCommand 720 .keystone).setKey .none

/-- What the sequencer does when a hop or relock ends. -/
def State.keyHopEnd (s : State) (ok : Bool) : State :=
  match s.spll.key with
  | .waits => s.keyBegin
  | .hop v => if ok && v then (s.voutCommand 720 .keystone).setKey .none else s.setKey .none
  | _ => s

/-- READ_VOUT as the sequencer waits for it: 710 mV (R395). -/
def State.keyVout (s : State) (mv : Nat) : State :=
  if s.spll.key = .volt ∧ 710 ≤ mv then s.keyHop false else s

/-- Those who wait for a hop are told of its end. -/
def State.hopEnded (s : State) (e : HopEnd) : State :=
  match e with
  | .none => s
  | .ok => (s.stepHopEnd true).keyHopEnd true
  | .failed => (s.stepHopEnd false).keyHopEnd false
  | .other => s.keyHopEnd false

/-! ## Sensors (R295 to R297, R314, R315) -/

/-- A valid reading (R296): −60 °C to 160 °C in 1/16 °C. -/
def thmValid (r : Option Int) : Option Int :=
  match r with
  | some t => if -960 ≤ t ∧ t ≤ 2560 then some t else none
  | none => none

/-- The set of readings stored; an invalid one leaves T. -/
def State.putReadings (s : State) (rs : List (Option Int)) (i : Nat) : State :=
  match rs with
  | [] => s
  | r :: t =>
    let s := match thmValid r with
      | some v => (s.wf (Reg.THM_T.T i) (uNat 16 v)).wf (Reg.THM_T.FAULT i) 0
      | none => s.wf (Reg.THM_T.FAULT i) 1
    s.putReadings t (i + 1)

/-- The highest valid reading and the lowest-numbered sensor that holds it. -/
def hottest (rs : List (Option Int)) (i : Nat) : Option (Int × Nat) :=
  match rs with
  | [] => none
  | r :: t =>
    match thmValid r, hottest t (i + 1) with
    | none, q => q
    | some v, none => some (v, i)
    | some v, some q => if q.1 ≤ v then some (v, i) else some q

/-- T_max in 1/16 °C as THM_MAX shows it. -/
def State.tMax (s : State) : Int := sInt 16 (s.rf Reg.THM_MAX.T_MAX)

/-- The throttle level (R314): 0 none, 1 a half, 2 a quarter. -/
def State.throttle (s : State) (t : Int) : Nat :=
  let l := s.rf Reg.LDR_STATUS.THROTTLE
  let t1 : Int := 16 * s.rf Reg.LDR_THROTTLE.T1
  let t2 : Int := 16 * s.rf Reg.LDR_THROTTLE.T2
  let h : Int := 16 * s.rf Reg.LDR_THROTTLE.HYST
  if t2 ≤ t ∨ (l = 2 ∧ t2 - h ≤ t) then 2 else if t1 ≤ t ∨ (l ≠ 0 ∧ t1 - h ≤ t) then 1 else 0

/-- EINFO of THERMAL (Table trap-2): the sensor and its reading. -/
def State.thermInfo (s : State) : Word := BitVec.ofNat 32 (s.rf Reg.THM_MAX.SENSOR + 2 ^ 16 * s.rf Reg.THM_MAX.T_MAX)

/-- The trip actions (R315); the mute source follows TRIP (R461). -/
def State.trip (s : State) : State :=
  let s := (s.wf Reg.LDR_STATUS.TRIP 1).notQuiet
  let s := s.wf Reg.LDR_STATUS.TRIP_SEEN 1
  let s := s.cause .thermal s.thermInfo
  let s := s.abortRunning.wf Reg.LDR_STATUS.THROTTLE 2
  s.trigger 1

/-- The memo at a reading of sensor 0 (R279, R280). -/
def State.memoReading (s : State) (r : Option Int) : State :=
  match r with
  | some t => s.ageMemo t
  | none => s.onSpll Spll.forgetAll

/-- The set of 24 readings judged (R295 to R297, R314, R315). -/
def State.thermalSample (s : State) (rs : List (Option Int)) : State :=
  let rs := (List.range 24).map (fun i => (rs.getD i none))
  let faults := (rs.filter (fun r => (thmValid r).isNone)).length
  let s := s.putReadings rs 0
  let s := s.memoReading (thmValid (rs.headD none))
  let top := hottest rs 0
  let s := s.onLdr (fun l => { l with valid := top.isSome })
  let s := s.wf Reg.THM_MAX.DEGRADED (b2n (decide (4 ≤ faults)))
  let s := match top with
    | none => s
    | some q =>
      let s := (s.wf Reg.THM_MAX.T_MAX (uNat 16 q.1)).wf Reg.THM_MAX.SENSOR q.2
      let s := if sInt 16 (s.rf Reg.THM_PEAK.T) < q.1 then s.wf Reg.THM_PEAK.T (uNat 16 q.1) else s
      let s := if 2000 ≤ q.1 then s.onLdr (fun l => { l with shdn := true }) else s
      s.wf Reg.LDR_STATUS.THROTTLE (if s.on Reg.LDR_STATUS.TRIP then 2 else s.throttle q.1)
  let hot := match top with | none => false | some q => decide ((16 * s.rf Reg.LDR_THERM.TTRIP : Nat) ≤ q.1)
  if !s.on Reg.LDR_STATUS.TRIP && (hot || decide (12 ≤ faults)) then s.trip else s

/-- THM_MAX as read: SHDN is AON's latch (R297). -/
def State.thmMaxView (s : State) : Word := putBits (s.reg Reg.THM_MAX_at) 22 1 (b2n s.ldr.shdn)
/-- LDR_OP as read: CUR and STEPPING. -/
def State.ldrOpView (s : State) : Word :=
  putBits (putBits (s.reg Reg.LDR_OP_at) 0 2 (s.rf Reg.SPLL_STATUS.OP)) 4 1 (b2n s.ldr.step.isSome)

/-! ## The PMBus master (R298 to R300) -/

/-- A number of `e` (5 bits signed) steps of 2, times a factor, rounded to the nearest with halves up. -/
def scaleRound (m k e : Nat) : Nat :=
  if e < 16 then m * k * 2 ^ e else (m * k + 2 ^ (31 - e)) / 2 ^ (32 - e)

/-- The mantissa of a VOUT_COMMAND (R299): mV × 2^(−VEXP) / 1000, to nearest with halves up. -/
def voutMantissa (mv e : Nat) : Nat :=
  if e < 16 then (2 * mv + 1000 * 2 ^ e) / (2000 * 2 ^ e) else (2 * mv * 2 ^ (32 - e) + 1000) / 2000

/-- The PEC of a transaction's bytes (PRESUMED, log 107: SMBus, x^8 + x^2 + x + 1). -/
def pmbPec (bs : List Byte) : Byte :=
  bs.foldl (fun c b => (List.range 8).foldl (fun (c : Byte) _ => if c.msb then (c <<< 1) ^^^ 0x07 else c <<< 1) (c ^^^ b)) 0

/-- The low and the high byte of a word. -/
def pmbWord (w : BitVec 16) : List Byte := [w.setWidth 8, (w >>> 8).setWidth 8]

/-- A Write Word transaction: address, code, word, and PEC where PMB_CFG.PEC is 1 (R298). -/
def State.pmbWrite (s : State) (code : Byte) (w : BitVec 16) : List Byte :=
  let bs := [BitVec.ofNat 8 (2 * s.rf Reg.PMB_CFG.ADDR), code] ++ pmbWord w
  if s.on Reg.PMB_CFG.PEC then bs ++ [pmbPec bs] else bs
/-- The address and command bytes of a Read Word transaction. -/
def State.pmbAsk (s : State) (code : Byte) : List Byte :=
  [BitVec.ofNat 8 (2 * s.rf Reg.PMB_CFG.ADDR), code, BitVec.ofNat 8 (2 * s.rf Reg.PMB_CFG.ADDR + 1)]
/-- The bytes of a Read Word transaction as they pass on the bus. -/
def State.pmbRead (s : State) (code : Byte) (r : PmbReply) : List Byte :=
  s.pmbAsk code ++ pmbWord r.word ++ (if s.on Reg.PMB_CFG.PEC then [r.pec] else [])
/-- The word a Read Word transaction gives; none where it fails (R300). -/
def State.pmbGot (s : State) (code : Byte) (r : PmbReply) : Option (BitVec 16) :=
  if !r.ack || r.low || (s.on Reg.PMB_CFG.PEC && r.pec != pmbPec (s.pmbAsk code ++ pmbWord r.word)) then none else some r.word

/-- READ_VOUT in mV (R299): linear16 with VEXP. -/
def State.voutMv (s : State) (v : BitVec 16) : Nat := scaleRound v.toNat 1000 (s.rf Reg.PMB_CFG.VEXP)
/-- READ_IOUT in 10 mA units (R299): linear11; a negative value is taken as 0. -/
def iout10 (v : BitVec 16) : Nat :=
  if v.toNat / 2 ^ 10 % 2 = 1 then 0 else scaleRound (v.toNat % 2 ^ 10) 100 (v.toNat / 2 ^ 11)

/-- A reading stored in its 16 bits; what a larger one shows the spec does not state: a free value. -/
def State.putReading (s : State) (f : Fd) (v : Nat) : State :=
  if v < 2 ^ 16 then s.wf f v
  else
    let x := s.takeFree
    x.2.wf f x.1

/-- A poll fails or succeeds (R300). -/
def State.pollResult (s : State) (ok : Bool) : State :=
  let s := if ok then s.onLdr (fun l => { l with fails := 0, oks := l.oks + 1 })
    else (s.incSat Reg.PMB_STATUS.ERRS).onLdr (fun l => { l with fails := l.fails + 1, oks := 0 })
  if !s.on Reg.PMB_STATUS.FAIL ∧ 3 ≤ s.ldr.fails then
    (((s.wf Reg.PMB_STATUS.FAIL 1).wf Reg.LDR_STATUS.PMB_FAIL 1).wf Reg.LDR_TRIM.FROZEN 1).ldrEvent
  else if s.on Reg.PMB_STATUS.FAIL ∧ 3 ≤ s.ldr.oks then
    ((s.wf Reg.PMB_STATUS.FAIL 0).wf Reg.LDR_STATUS.PMB_FAIL 0).wf Reg.LDR_TRIM.FROZEN 0
  else s

/-- A transaction of this round noted. -/
def State.pmbSent (s : State) (bs : List Byte) : State := s.onLdr (fun l => { l with sent := l.sent ++ [bs] })

/-- A VOUT_COMMAND that waits is sent between polls (R298). One of the unit's own waits while STATE is BYPASS_FAIL (R285, R312), and is
dropped while FWHOP is 1 (R313). What is sent for a mantissa beyond 16 bits the spec does not state: a free value. -/
def State.sendVout (s : State) (r : PmbReply) : State :=
  match s.ldr.vcmd with
  | none => s
  | some c =>
    if c.by' = .step ∧ s.on Reg.SPLL_CTL.FWHOP then s.onLdr (fun l => { l with vcmd := none })
    else if c.by' = .step ∧ s.spState = spBypass then s
    else
      let m := voutMantissa c.mv (s.rf Reg.PMB_CFG.VEXP)
      let f := s.takeFree
      let w := if m < 2 ^ 16 then (m, s) else (f.1, f.2)
      let s := w.2.pmbSent (w.2.pmbWrite 0x21 (BitVec.ofNat 16 w.1))
      let s := (s.wf Reg.PMB_VOUT.CMD c.mv).onLdr (fun l => { l with vcmd := none })
      if r.ack && !r.low then s else s.incSat Reg.PMB_STATUS.ERRS

/-- A Read Word transaction (R298, R300): noted, with the word it gives. -/
def State.pmbPoll (s : State) (code : Byte) (r : PmbReply) : Option (BitVec 16) × State :=
  (s.pmbGot code r, s.pmbSent (s.pmbRead code r))

/-- READ_VOUT: stored, then judged by a step and by the sequencer. -/
def State.pollVout (s : State) (r : Option (BitVec 16)) : State :=
  match r with
  | none => s.pollResult false
  | some v => (((s.pollResult true).putReading Reg.PMB_VOUT.READ (s.voutMv v)).stepVout (s.voutMv v)).keyVout (s.voutMv v)
/-- READ_IOUT. -/
def State.pollIout (s : State) (r : Option (BitVec 16)) : State :=
  match r with
  | none => s.pollResult false
  | some v => (s.pollResult true).putReading Reg.PMB_IOUT.READ (iout10 v)
/-- STATUS_WORD: any bit set is an alert (R298). -/
def State.pollStatus (s : State) (r : Option (BitVec 16)) : State :=
  match r with
  | none => s.pollResult false
  | some v =>
    let s := (s.pollResult true).wf Reg.PMB_STATUS.SWORD v.toNat
    if v = 0 then s else (s.wf Reg.PMB_STATUS.ALERT 1).ldrEvent

/-- One round of polls (R298): a waiting command, then READ_VOUT alone during an up-step, else all three; the rail energy of R305
in nJ, over the 1 ms or 2 ms of the round. -/
def State.pmbusPoll (s : State) (cmd vout iout sword : PmbReply) : State :=
  let up := match s.ldr.step with | some x => !x.hop | none => false
  let v := ((s.onLdr (fun l => { l with sent := [] })).sendVout cmd).pmbPoll 0x8B vout
  let s := v.2.pollVout v.1
  if up then s
  else
    let i := s.pmbPoll 0x8C iout
    let w := (i.2.pollIout i.1).pmbPoll 0x79 sword
    let s := w.2.pollStatus w.1
    match v.1, i.1 with
    | some v, some i =>
      let e := s.voutMv v * iout10 i * 10 * (if s.on Reg.PMB_CFG.SPEED then 1 else 2)
      s.onLdr (fun l => { l with rail := l.rail + e })
    | _, _ => s

/-! ## Ticks (R301, R302, R311) -/

/-- P_allow in mW and the limit that sets it, the first of equals (R301). -/
def State.pAllow (s : State) : Nat × Nat :=
  let th := if s.ldr.valid && !s.on Reg.THM_MAX.DEGRADED then
      ((s.rf Reg.LDR_THERM.GTH : Int) * (16 * s.rf Reg.LDR_THERM.TLIMIT - s.tMax) / 16).toNat else 0
  let cap := 10 * s.rf Reg.LDR_CAP.PCAP
  let rail := if s.on Reg.PMB_STATUS.FAIL then some (10 * s.rf Reg.PMB_LIMITS.PFAIL)
    else if s.rf Reg.PMB_LIMITS.ILIMIT = 0 then none
    else some (s.rf Reg.PMB_VOUT.READ * s.rf Reg.PMB_LIMITS.ILIMIT / 100)
  match rail with
  | none => if th ≤ cap then (th, 0) else (cap, 2)
  | some r => if th ≤ r ∧ th ≤ cap then (th, 0) else if r ≤ cap then (r, 1) else (cap, 2)

/-- The two cycles of a tick (R302): deposit d, base charge b. -/
def State.tickBooks (s : State) (d b : Nat) : State :=
  let s := s.addTerm Reg.LDR_DEPOSIT.EQ d
  let s := (s.addTerm Reg.LDR_SPENT.EQ b).addTerm Reg.LDR_SPENT_BASE.EQ b
  let s := s.addAvail ((d : Int) - b)
  let spilt := s.avail - s.rf Reg.LDR_CAP.CAPACITY
  if 0 < spilt then (s.wf Reg.LDR_AVAIL.EQ (s.rf Reg.LDR_CAP.CAPACITY)).addTerm Reg.LDR_SPILL.EQ spilt else s

/-- The step counters judged at a tick (R311). -/
def State.countSteps (s : State) (d b : Nat) : State :=
  let low := decide (s.avail < s.rf Reg.LDR_WM.WM_LO) && decide (d ≤ b)
  let high := decide ((s.rf Reg.LDR_WM.WM_HI : Int) ≤ s.avail) && s.ldr.valid &&
    decide (s.tMax ≤ 16 * ((s.rf Reg.LDR_THERM.TLIMIT : Int) - s.rf Reg.LDR_STEP_CFG.UP_MARGIN))
  s.onLdr (fun l => { l with lowCnt := if low then l.lowCnt + 1 else 0, highCnt := if high then l.highCnt + 1 else 0 })

/-- The step chosen, shown in WANT, and requested unless firmware hops (R311, R313). -/
def State.chooseStep (s : State) (a b : Nat) : State :=
  let s := (s.wf Reg.LDR_OP.WANT b).onLdr (fun l => { l with lowCnt := 0, highCnt := 0 })
  if s.on Reg.SPLL_CTL.FWHOP then s else s.beginStep a b

/-- Whether no request is made: a step, a hop, a relock, BYPASS_FAIL or a trip (R311). -/
def State.stepHeld (s : State) : Bool :=
  s.ldr.step.isSome || s.spState == spHop || s.spState == spRelock || s.spState == spBypass || s.on Reg.LDR_STATUS.TRIP

/-- A step requested when a count has reached TICKS (R300, R311); the step down goes first. -/
def State.judgeStep (s : State) : State :=
  let n := max 1 (s.rf Reg.LDR_STEP_CFG.TICKS)
  let a := s.rf Reg.SPLL_STATUS.OP
  if s.stepHeld then s
  else if n ≤ s.ldr.lowCnt ∧ 0 < a then s.chooseStep a (a - 1)
  else if n ≤ s.ldr.highCnt ∧ a < 3 ∧ (!s.on Reg.PMB_STATUS.FAIL ∨ s.opv (a + 1) ≤ s.opv a) then s.chooseStep a (a + 1)
  else s

/-- A tick (R302): `base` is the raw energy in nJ of the tick's non-Span activity. -/
def State.ledgerTick (s : State) (base : Nat) : State :=
  let p := s.pAllow
  let s := (s.wf Reg.LDR_PALLOW.P (p.1 / 10)).wf Reg.LDR_PALLOW.LIMIT p.2
  let d := (p.1 + s.ldr.depRem) / 100
  let raw := base * s.rf Reg.LDR_TRIM.TRIM + s.ldr.baseRem
  let b := raw / (16384 * 1000)
  let s := s.onLdr (fun l =>
    { l with depRem := (p.1 + l.depRem) % 100, baseRem := raw % (16384 * 1000), raw := l.raw + base, ticks := l.ticks + 1 })
  let s := s.tickBooks d b
  let limit := decide (s.rf Reg.LDR_ACCT.PERIOD * 100000 ≤ s.ldr.ticks) || decide (2 ^ 31 ≤ s.rf Reg.LDR_DEPOSIT.EQ) ||
    decide (2 ^ 31 ≤ s.rf Reg.LDR_SPENT.EQ)
  let s := s.onLdr (fun l => { l with due := l.due || l.closing || limit })
  (s.countSteps d b).judgeStep

/-- A window closes (R303): the five values copied as one action, the next window opened. -/
def State.closeWindow (s : State) : State :=
  let s := s.setReg Reg.LDR_W_AVAIL_at (s.reg Reg.LDR_AVAIL_at)
  let s := s.setReg Reg.LDR_W_RESERVED_at (s.reg Reg.LDR_RESERVED_at)
  let s := s.setReg Reg.LDR_W_SPENT_at (s.reg Reg.LDR_SPENT_at)
  let s := s.setReg Reg.LDR_W_DEPOSIT_at (s.reg Reg.LDR_DEPOSIT_at)
  let s := s.setReg Reg.LDR_W_SPILL_at (s.reg Reg.LDR_SPILL_at)
  let s := s.wf Reg.LDR_DEPOSIT.EQ (uNat 32 (s.avail + s.rf Reg.LDR_RESERVED.EQ))
  let s := ((s.wf Reg.LDR_SPENT.EQ 0).wf Reg.LDR_SPENT_BASE.EQ 0).wf Reg.LDR_SPILL.EQ 0
  (s.incWrap Reg.LDR_ACCT.WINDOWS).onLdr (fun l => { l with ticks := 0, due := false, closing := false })

/-- What the jobs in progress have drawn since the interval began joins its raw estimate; `drawn`: of each Span, the raw energy of its job
so far (R305). -/
def State.countDrawn (s : State) (drawn : List Nat) : State :=
  let upTo := fun (q : Nat) =>
    let seen := s.ldr.drawn.getD q 0
    if (s.span q).isSome then max seen (drawn.getD q 0) else seen
  s.onLdr (fun l =>
    { l with raw := l.raw + ((List.range 4).map (fun q => upTo q - l.drawn.getD q 0)).sum, drawn := (List.range 4).map upTo })

/-- The trim of a 100 ms interval (R305): toward the ratio of rail to raw energy, by at most 64 of its units, within 12,288 to 20,480;
frozen while FAIL is set, and unchanged where nothing was estimated. -/
def State.updateTrim (s : State) (drawn : List Nat) : State :=
  let s := s.countDrawn drawn
  let t := s.rf Reg.LDR_TRIM.TRIM
  let goal := if s.ldr.raw = 0 then t else s.ldr.rail * 16384 / s.ldr.raw
  let next := max 12288 (min 20480 (max (t - 64) (min (t + 64) goal)))
  let s := if s.on Reg.PMB_STATUS.FAIL ∨ s.ldr.raw = 0 then s else s.wf Reg.LDR_TRIM.TRIM next
  s.onLdr (fun l => { l with rail := 0, raw := 0 })

/-! ## Admission (R309) -/

/-- A READY job some permitted Span of which is idle. -/
def State.eligible (s : State) (k : Nat) : Bool := (s.slot k).st == .ready && (s.idleSpan (s.slot k).desc).isSome

/-- Slots in acceptance order. -/
def State.byAcceptance (s : State) (ks : List Nat) : List Nat := ks.mergeSort (fun a b => (s.slot a).seq ≤ (s.slot b).seq)

/-- Whether the job of a slot fits. -/
def State.slotFits (s : State) (k : Nat) : Bool :=
  s.fits (jClass (s.slot k).desc) (s.reservation (jClass (s.slot k).desc) (jEnergy (s.slot k).desc))

/-- The slot a class admits and the slot it passes, or whether lower classes wait. -/
def State.admitClass (s : State) (q : List Nat) : Option (Nat × Option Nat) :=
  match q with
  | [] => none
  | h :: t =>
    if s.slotFits h then some (h, none)
    else if s.on Reg.LDR_CTL.FITFIRST ∧ (s.slot h).bypass < 8 then
      (t.find? s.slotFits).map (fun j => (j, some h))
    else none

/-- The choice of R309 from class `c` on: the first class with eligible jobs decides. -/
def State.admitFrom (s : State) (c fuel : Nat) : Option (Nat × Option Nat) :=
  match fuel with
  | 0 => none
  | f + 1 =>
    let q := s.byAcceptance ((List.range 256).filter (fun k => s.eligible k && jClass (s.slot k).desc == c))
    if q.isEmpty then s.admitFrom (c + 1) f else s.admitClass q

/-- A job admitted: reserved, then started on its Span (R197, R306). -/
def State.admitJob (s : State) (k : Nat) : State :=
  let u := s.slot k
  match s.idleSpan u.desc with
  | none => s
  | some q =>
    let r := s.reservation (jClass u.desc) (jEnergy u.desc)
    let e := s.scaledCost (jEnergy u.desc)
    let s := s.reserve (jClass u.desc) (jEnergy u.desc) (jTag u.desc) k
    let s := s.setSlot k { u with st := .running, span := q, res := r, cost := e, bypass := 0 }
    let s := s.onLdr (fun l => { l with drawn := l.drawn.set q 0 })
    s.startJob q k

/-- One LDR cycle of admission (R309); none while the trip is active (R310), or while the job's descriptor table waits for a quarter that is
initialising (R212). -/
def State.admission (s : State) : State :=
  if s.on Reg.LDR_STATUS.TRIP then s
  else
    match s.admitFrom 0 4 with
    | none => s
    | some (k, h) =>
      if s.rangeBusy (jSdt (s.slot k).desc) 1024 then s
      else
      let s := match h with
        | some h => s.setSlot h { s.slot h with bypass := (s.slot h).bypass + 1 }
        | none => s
      s.admitJob k

/-! ## Register writes (R317) -/

/-- The RWL fields of the block are open while LOCK is 0. -/
def State.ldrPermit (s : State) : Permit := ⟨!s.on Reg.LDR_CTL.LOCK, true, true⟩

/-- A value written to a register of the block, with fields out of range kept as they are, and whether there was one (R317 RANGE). -/
def State.ldrRange (s : State) (a : Nat) (v : Word) : Bool × Word :=
  let old := s.reg a
  if a = Reg.LDR_THERM_at then
    let t := getBits v 24 8
    if 115 < t ∨ t < 85 then (true, putBits v 24 8 (getBits old 24 8)) else (false, v)
  else if Reg.LDR_OPV_at 0 ≤ a ∧ a ≤ Reg.LDR_OPV_at 3 then
    let m := getBits v 0 10
    if m < 620 ∨ 900 < m then (true, putBits v 0 10 (getBits old 0 10)) else (false, v)
  else if a = Reg.LDR_ACCT_at then
    let p := getBits v 0 10
    if p = 0 ∨ 600 < p then (true, putBits v 0 10 (getBits old 0 10)) else (false, v)
  else if a = Reg.LDR_THROTTLE_at then
    if getBits v 8 8 < getBits v 0 8 then (true, putBits v 0 16 (getBits old 0 16)) else (false, v)
  else (false, v)

/-- The first nonzero reason of a list. -/
def firstReason (rs : List Nat) : Nat := (rs.find? (· != 0)).getD 0

/-- The outcome of a write with these reasons: one refusal, the first of them. -/
def State.refuseFirst (s : State) (r : RefuseAt) (rs : List Nat) : WRes :=
  if firstReason rs = 0 then .ok s else s.refused r (firstReason rs)

/-- TRIP_CLR (R316): the reason it is refused. -/
def State.tripClrReason (s : State) (src : Src) : Nat :=
  if src = .fobex then 5
  else if !s.on Reg.LDR_STATUS.TRIP ∨ !s.ldr.valid ∨ 16 * ((s.rf Reg.LDR_THERM.TTRIP : Int) - 5) < s.tMax then 4
  else 0

/-- A write of a register of the block by the permissions and ranges alone: the reasons and the state. -/
def State.ldrWriteFields (s : State) (a : Nat) (v : Word) : List Nat × State :=
  let r := s.ldrRange a v
  let locked := refuseCode s.ldrPermit (fieldsAt a) ≠ 0
  ([if locked then 1 else 0, if r.1 && !locked then 2 else 0], s.writeReg s.ldrPermit a r.2)

/-- LDR_, THM_ and PMB_ registers written (R313, R316, R317). -/
def State.writeLdr (s : State) (src : Src) (a : Nat) (v : Word) : WRes :=
  if a = Reg.LDR_CTL_at then
    let r := s.ldrWriteFields a v
    if getBits v 2 1 = 0 then r.2.refuseFirst ldrRefuse r.1
    else
      let why := s.tripClrReason src
      let t := if why = 0 then ((r.2.wf Reg.LDR_STATUS.TRIP 0).notQuiet).ldrEvent else r.2
      t.refuseFirst ldrRefuse (r.1 ++ [why])
  else if a = Reg.LDR_ACCT_at then
    let r := s.ldrWriteFields a v
    if getBits v 10 1 = 0 then r.2.refuseFirst ldrRefuse r.1
    else if src = .fobex then r.2.refuseFirst ldrRefuse (r.1 ++ [5])
    else (r.2.onLdr (fun l => { l with closing := true })).refuseFirst ldrRefuse r.1
  else if a = Reg.LDR_OP_at then
    if src = .fobex then s.refused ldrRefuse 5
    else if !s.on Reg.SPLL_CTL.FWHOP then s.refused ldrRefuse 3
    else .ok ((s.wf Reg.LDR_OP.VSET (getBits v 16 10)).voutCommand (getBits v 16 10) .vset)
  else
    let r := s.ldrWriteFields a v
    r.2.refuseFirst ldrRefuse r.1

/-! ## Commands -/

/-- THERMAL_SAMPLE (R295): the readings of the sensors in 1/16 °C; none for a conversion that failed. -/
def execThermalSample (rs : List (Option Int)) (s : State) : Host.Outcome State Fault Refusal := .next (s.thermalSample rs)

/-- PMBUS_POLL (R298): what the regulator does in the transactions of the round: VOUT_COMMAND, READ_VOUT, READ_IOUT, STATUS_WORD. -/
def execPmbusPoll (cmd vout iout sword : PmbReply) (s : State) : Host.Outcome State Fault Refusal :=
  .next (s.pmbusPoll cmd vout iout sword)

/-- LEDGER_TICK (R302). -/
def execLedgerTick (base : Nat) (s : State) : Host.Outcome State Fault Refusal := .next (s.ledgerTick base)

/-- UPSTEP_TIMEOUT (R312): 2 ms after the command of an up-step, its voltage not reached. -/
def execUpstepTimeout (s : State) : Host.Outcome State Fault Refusal :=
  match s.ldr.step with
  | none => .next s
  | some x =>
    if x.hop then .next s
    else .next (((s.voutCommand (s.opv x.from') .step).onLdr (fun l => { l with step := none })).wf Reg.LDR_STATUS.VFAIL 1).ldrEvent

/-- WINDOW_CLOSE (R303): the LDR cycle after a tick, where a closure is due. -/
def execWindowClose (s : State) : Host.Outcome State Fault Refusal := .next (if s.ldr.due then s.closeWindow else s)

/-- ACCT_CLOSE (R303): LDR_ACCT written with CLOSE 1. -/
def execAcctClose (src : Src) (v : Word) (s : State) : Host.Outcome State Fault Refusal :=
  .next (s.writeLdr src Reg.LDR_ACCT_at (putBits v 10 1 1)).st

/-- TRIM_UPDATE (R305): the end of a 100 ms interval; `drawn`: of each Span, the raw energy in nJ its job has drawn since its admission. -/
def execTrimUpdate (drawn : List Nat) (s : State) : Host.Outcome State Fault Refusal := .next (s.updateTrim drawn)

/-- ADMISSION (R309): one LDR cycle. -/
def execAdmission (s : State) : Host.Outcome State Fault Refusal := .next s.admission

/-- TRIP_CLR (R316): LDR_CTL written with TRIP_CLR 1. -/
def execTripClr (src : Src) (v : Word) (s : State) : Host.Outcome State Fault Refusal :=
  .next (s.writeLdr src Reg.LDR_CTL_at (putBits v 2 1 1)).st

/-- LDR_OP_VSET (R313): LDR_OP written with this VSET. -/
def execLdrOpVset (src : Src) (mv : BitVec 10) (s : State) : Host.Outcome State Fault Refusal :=
  .next (s.writeLdr src Reg.LDR_OP_at (BitVec.ofNat 32 (2 ^ 16 * mv.toNat))).st

/-- SEQUENCER_VOUT_TIMEOUT (R395): 2 ms after the sequencer's 720 mV at OP0, 710 mV not read: 660 mV, no hop. -/
def execSequencerVoutTimeout (s : State) : Host.Outcome State Fault Refusal :=
  .next (if s.spll.key = .volt then (s.voutCommand 660 .keystone).setKey .none else s)

end Sys2Proof.Machine
end

