-- ==== Sys2Proof/Machine/Clock.lean ====
section
/-!
DEFINITION. The clock commands (spec/11): windows, searches, hops, and the registers of the clock controller but for its island
commands and cells.

Choices and readings of this file: log 43, 95.
-/

namespace Sys2Proof.Machine

/-- RWL fields are open while IOPLL_CTL.LOCK is 0. -/
def State.clkPermit (s : State) : Permit := ⟨!s.on Reg.IOPLL_CTL.LOCK, true, true⟩

/-- Whether N and P are refused for point `n` (R275). -/
def State.opcfgBad (s : State) (n : Nat) (v : Word) : Bool :=
  let nn := getBits v 0 7
  let p := getBits v 8 3
  decide (nn < 64) || decide (80 < nn) || decide (p < 2) || decide (4 < p) || decide (25 * nn < 400 * p) ||
  decide (1000 * p < 25 * nn) || (n != 0 && decide (25 * nn < 500 * p)) || n == s.rf Reg.SPLL_STATUS.OP ||
  (s.spBusy && n == s.spll.target.val) || (match s.spll.queue with | some t => n == t.val | none => false)

/-- SPLL_OPCFG_n written (R275, R293). -/
def State.writeOpcfg (s : State) (src : Src) (n : Nat) (v : Word) : WRes :=
  if src = .fobex then s.refused clkRefuse 0xE
  else if s.on Reg.IOPLL_CTL.LOCK then s.refused clkRefuse 0xD
  else if s.opcfgBad n v then s.refused clkRefuse 5
  else .ok (s.writeReg .all (Reg.SPLL_OPCFG_at n) v)

/-- SPLL_SSC written (R286, R293). -/
def State.writeSsc (s : State) (src : Src) (v : Word) : WRes :=
  if src = .fobex then s.refused clkRefuse 0xE else .ok (s.writeReg .all Reg.SPLL_SSC_at v)

/-- CPLL_CTL written (R273): a change needs CONV GATED or OFF, and starts the lock anew. -/
def State.writeCpll (s : State) (v : Word) : WRes :=
  let same := getBits v 0 2 == getBits (s.reg Reg.CPLL_CTL_at) 0 2
  let st := s.rf (Reg.IOPLL_ISL.STATE islConv)
  if same then .ok s
  else if st ≠ 3 ∧ st ≠ 4 then s.refused clkRefuse 0xA
  else .ok ((((s.writeReg .all Reg.CPLL_CTL_at v).wf Reg.CPLL_STATUS.LOCK 0).onSpll (fun x => { x with cpGood := 0 })).openWindow .cpll)

/-- SPLL_CTL written: FWHOP, and MEMO_CLR (R278). -/
def State.writeSpllCtl (s : State) (v : Word) : WRes :=
  let s := if getBits v 1 1 = 1 then s.onSpll Spll.forgetAll else s
  s.writeOr s.clkPermit clkRefuse 0xD Reg.SPLL_CTL_at v

/-- A register of the clock controller written, its island command and island cells apart. -/
def State.writeClk (s : State) (src : Src) (a : Nat) (v : Word) : WRes :=
  if a = Reg.SPLL_HOP_at then s.writeHop src v
  else if a = Reg.SPLL_CTL_at then s.writeSpllCtl v
  else if a = Reg.SPLL_SSC_at then s.writeSsc src v
  else if a = Reg.CPLL_CTL_at then s.writeCpll v
  else if Reg.SPLL_OPCFG_at 0 ≤ a ∧ a ≤ Reg.SPLL_OPCFG_at 3 then s.writeOpcfg src (a - Reg.SPLL_OPCFG_at 0) v
  else s.writeOr s.clkPermit clkRefuse 0xD a v

/-! ## Commands -/

/-- REFCLK_MONITOR_WINDOW (R269): the REFCLK edges counted in a window. -/
def execRefclkMonitorWindow (count : Nat) (s : State) : Host.Outcome State Fault Refusal :=
  let r := s.refWindow count
  .next (r.2.hopEnded r.1)

/-- LOCK_WINDOW (R271): the feedback edges counted in a window of a PLL; none counts while REF_ABSENT is set (R270). -/
def execLockWindow (pll : Pll) (count : Nat) (s : State) : Host.Outcome State Fault Refusal :=
  if s.on Reg.IOPLL_STATUS.REF_ABSENT then .next s
  else
    match pll with
    | .iopll => .next (s.ioWindow count)
    | .cpll => .next (s.cpWindow count)
    | .spll =>
      let r := s.spllWindow count
      .next (r.2.hopEnded r.1)

/-- BAND_SEARCH_STEP (R277): the feedback edges counted in the step's 32 REFCLK cycles. -/
def execBandSearchStep (count : Nat) (s : State) : Host.Outcome State Fault Refusal :=
  if s.on Reg.IOPLL_STATUS.REF_ABSENT then .next s else .next (s.bandStep count)

/-- HOP_REQUEST (R283): SPLL_HOP written. -/
def execHopRequest (src : Src) (op : OpIx) (s : State) : Host.Outcome State Fault Refusal :=
  .next (s.writeHop src (BitVec.ofNat 32 op.val)).st

/-- HOP_START (R281): the queued request starts. -/
def execHopStart (s : State) : Host.Outcome State Fault Refusal := .next s.startQueued

/-- MEMO_CLR (R278): SPLL_CTL written with MEMO_CLR 1. -/
def execMemoClr (v : Word) (s : State) : Host.Outcome State Fault Refusal := .next (s.writeSpllCtl (putBits v 1 1 1)).st

/-- SPLL_OPCFG_WRITE (R275). -/
def execSpllOpcfgWrite (src : Src) (op : OpIx) (v : Word) (s : State) : Host.Outcome State Fault Refusal :=
  .next (s.writeOpcfg src op.val v).st

/-- SPLL_SSC_WRITE (R286). -/
def execSpllSscWrite (src : Src) (v : Word) (s : State) : Host.Outcome State Fault Refusal := .next (s.writeSsc src v).st

/-- SSC_APPLY (R286): a zero crossing of the triangle while LOCKED. -/
def execSscApply (s : State) : Host.Outcome State Fault Refusal :=
  .next (if s.spState = spLocked then s.applySpread else s)

/-- CPLL_CTL_WRITE (R273). -/
def execCpllCtlWrite (v : Word) (s : State) : Host.Outcome State Fault Refusal := .next (s.writeCpll v).st

end Sys2Proof.Machine
end

