-- ==== Sys2Proof/Machine/Deck.lean ====
section
/-!
DEFINITION. The Deck's own steps (spec/08): initialisation (R212), error injection (R211), scrubs (R209), and what resets leave of
an initialisation in progress.

Choices and readings of this file: log 4, 29.
-/

namespace Sys2Proof.Machine

/-- The initialisation of a quarter in progress. -/
def State.deckInit (s : State) (q : Nat) : Option DeckInit := SMap.get s.inits none q
/-- The initialisation of a quarter replaced. -/
def State.setInit (s : State) (q : Nat) (v : Option DeckInit) : State := { s with inits := SMap.set s.inits none q v }

/-- Where a quarter shows refusals. -/
def deckRefuse (q : Nat) : RefuseAt :=
  ⟨Reg.DECK_STATUS.REFUSED q, none, some (Reg.DECK_STATUS.REFUSE_EVENT q, Reg.DECK_STATUS.REFUSE_EVENT_EN q)⟩

/-- Initialisation started: the pattern in every word, what was there before kept for a reset that ends it early (R212). -/
def State.startInit (s : State) (q : Nat) : State :=
  let s := s.wf (Reg.DECK_STATUS.INIT_BUSY q) 1
  let s := s.setInit q (some ⟨s.fills, s.deck, s.ecc⟩)
  s.deckFill q 8192 (s.reg (Reg.DECK_INIT_PAT_at q))

/-- DECK_INIT written (R212): a START while INIT_BUSY is refused. -/
def State.writeDeckInit (s : State) (q : Nat) (v : Word) : WRes :=
  if getBits v 0 1 = 0 then .ok s
  else if s.on (Reg.DECK_STATUS.INIT_BUSY q) then s.refused (deckRefuse q) 0
  else .ok (s.startInit q)

/-- Initialisation complete. -/
def State.endInit (s : State) (q : Nat) : State :=
  let s := s.wf (Reg.DECK_STATUS.INIT_BUSY q) 0
  let s := s.wf (Reg.DECK_STATUS.INIT_DONE q) 1
  s.setInit q none

/-- The listed cells of a map that a reset keeps put back. -/
def restoreCells (fills : List (Nat × Nat × Word)) (m old : List Host.Cell) : List Host.Cell :=
  match old with
  | [] => m
  | e :: t => restoreCells fills (SMap.set m (deckDefault fills e.1) e.1 e.2) t

/-- The listed bit errors that a reset keeps put back. -/
def restoreEcc (m old : SMap Nat) : SMap Nat :=
  match old with
  | [] => m
  | e :: t => restoreEcc (SMap.set m 0 e.1 e.2) t

/-- An initialisation ended by a reset after `rows` rows: the others as they were before it (R212). -/
def State.cutInit (s : State) (q rows : Nat) (i : DeckInit) (pat : Word) : State :=
  let s := s.deckDrop q 8192
  let fills := (q, rows, pat) :: (i.fills.filter (fun f => f.1 == q) ++ s.fills.filter (fun f => f.1 != q))
  { s with
    fills := fills,
    deck := restoreCells fills s.deck (i.deck.filter (fun e => deckQuarter e.1 == q && decide (rows ≤ deckRow e.1))),
    ecc := restoreEcc s.ecc (i.ecc.filter (fun e => deckQuarter (8 * e.1) == q && decide (rows ≤ deckRow (8 * e.1)))) }

/-- What an ISL or SYS reset does to an initialisation in progress: how many rows it had written the spec leaves open. Queued
scrubs of the quarter are lost with its logic. -/
def State.resetDeck (s : State) (q : Nat) : State :=
  let s := match s.deckInit q with
    | none => s
    | some i =>
      let f := s.takeFree
      (f.2.cutInit q (f.1 % 8192) i (f.2.reg (Reg.DECK_INIT_PAT_at q))).setInit q none
  { s with scrubs := s.scrubs.filter (fun w => deckQuarter (8 * w) != q) }

/-- Deck contents after a power-up: undefined; the model reads zeros (DESIGN CHOICE, log 4). -/
def State.powerUpDeck (s : State) (q : Nat) : State :=
  let s := s.deckDrop q 8192
  let s := s.setInit q none
  let s := s.wf (Reg.DECK_STATUS.INIT_DONE q) 0
  let s := s.wf (Reg.DECK_STATUS.INIT_BUSY q) 0
  { s with fills := s.fills.filter (fun f => f.1 != q) }

/-- Whether a write of DECK_ECC_INJ is refused (R211). -/
def injRefused (q : Nat) (v : Word) : Bool :=
  getBits v 0 2 == 3 || (getBits v 0 2 != 0 && deckQuarter (8 * getBits v 3 22) != q)

/-- DECK_ECC_INJ written (R211). -/
def State.writeInj (s : State) (q : Nat) (v : Word) : WRes :=
  if injRefused q v then s.refused (deckRefuse q) 0 else .ok (s.writeReg .all (Reg.DECK_ECC_INJ_at q) v)

/-! ## Commands -/

/-- SCRUB_WRITE_BACK (R208, R209): the queued scrub of word `w` is granted once nothing else wants its bank; an injection armed for it
applies (R211). -/
def execScrubWriteBack (w : Nat) (s : State) : Host.Outcome State Fault Refusal :=
  .next (if s.scrubs.contains w && !s.quarterBusy (8 * w) && !s.bankWanted (8 * w) then
      (s.writtenWord w).incSat (Reg.DECK_SCRUB_CNT.COUNT (deckQuarter (8 * w)))
    else s)

/-- DECK_INIT_START (R212): START written in DECK_INIT. -/
def execDeckInitStart (q : QIx) (s : State) : Host.Outcome State Fault Refusal :=
  .next (if s.online (16 + q.val) then (s.writeDeckInit q.val 1).st else s)

/-- DECK_INIT_DONE (R212): the 8,192 Deck cycles have passed; the Dispatcher goes on with what waited for it. -/
def execDeckInitDone (q : QIx) (s : State) : Host.Outcome State Fault Refusal :=
  .next (if s.on (Reg.DECK_STATUS.INIT_BUSY q.val) then (s.endInit q.val).dispResume else s)

/-- DECK_ECC_INJ_WRITE (R211). -/
def execDeckEccInjWrite (q : QIx) (v : Word) (s : State) : Host.Outcome State Fault Refusal :=
  .next (if s.online (16 + q.val) then (s.writeInj q.val v).st else s)

end Sys2Proof.Machine
end

