-- ==== Sys2Proof/Machine/Vault.lean ====
section
/-!
DEFINITION. The Vault (R346 to R349, R351): its records as bytes, the copy that is current, and writes; the fault ledger (R377) and EVENT
records (R371, R375), which every block may make.

Choices and readings of this file: log 49, 50, 58, 69, 92, 110.
-/

namespace Sys2Proof.Machine

/-! ## EVENT records and the fault ledger -/

/-- A change of the recorder. -/
def State.onRec (s : State) (f : Rec → Rec) : State := { s with record := f s.record }

/-- CAL_SEC and CAL_FRAC (R354). -/
def State.calSec (s : State) : Nat := s.rtc.cal / 2 ^ 15 % 2 ^ 32
/-- CAL_FRAC. -/
def State.calFrac (s : State) : Nat := s.rtc.cal % 2 ^ 15

/-- The time bases now (R373). -/
def State.stamp (s : State) : Stamp :=
  ⟨s.record.cycles, s.record.opsec, s.on Reg.RTC_STATUS.SLEWING, s.calSec, s.calFrac, s.on Reg.RTC_STATUS.VALID, s.record.rseq⟩

/-- The number of a record taken: RSEQ wraps at 65,536. -/
def State.nextRseq (s : State) : State := s.onRec (fun r => { r with rseq := (r.rseq + 1) % 65536 })

/-- Records lost (R371). -/
def State.loseRecords (s : State) (n : Nat) : State :=
  (s.incSat Reg.REC_LOST.COUNT n).onRec (fun r => { r with lost := min (2 ^ 32 - 1) (r.lost + n) })

/-- An EVENT record queued (R371); at most 128 wait. -/
def State.evRecord (s : State) (code : Nat) (a0 a1 a2 : Nat := 0) : State :=
  if 128 ≤ s.record.events.length then s.loseRecords 1
  else (s.onRec (fun r => { r with events := r.events ++ [⟨s.stamp, code, a0 % 2 ^ 32, a1 % 2 ^ 32, a2 % 2 ^ 32⟩] })).nextRseq

/-- A record to be written to the Vault, in the order of request (R349). -/
def State.vaultQueue (s : State) (id : Nat) : State := { s with vault := { s.vault with queue := s.vault.queue ++ [⟨id, false⟩] } }
/-- The records of a flush, to be written in their order (R365). -/
def State.vaultFlush (s : State) (ids : List Nat) : State :=
  { s with vault := { s.vault with queue := s.vault.queue ++ ids.map (fun id => ⟨id, true⟩) } }

/-- An entry of the fault ledger (R377). -/
def State.ledgerNote (s : State) (kind a0 a1 : Nat) : State :=
  s.onRec (fun r =>
    { r with
      ledger := SMap.set r.ledger none r.next (some ⟨r.opsec, kind, a0 % 2 ^ 32, a1 % 2 ^ 32⟩), next := (r.next + 1) % 64,
      total := min (2 ^ 32 - 1) (r.total + 1), dirtyLedger := true })
/-- An entry of the fault ledger, which is then written. -/
def State.ledgerEntry (s : State) (kind a0 a1 : Nat) : State := (s.ledgerNote kind a0 a1).vaultQueue 0x300

/-! ## Records as bytes (Table rec-1) -/

/-- A histogram channel's shadow. -/
def State.chan (s : State) (n : Nat) : Chan := SMap.get s.record.chans Chan.zero n
/-- A shadow replaced. -/
def State.setChan (s : State) (n : Nat) (c : Chan) : State :=
  s.onRec (fun r => { r with chans := SMap.set r.chans Chan.zero n c })

/-- An extreme (Table rec-2): 20 bytes. -/
def extBytes (e : Option Ext) : Nat :=
  match e with
  | none => 0
  | some x => pack [(x.v.toNat, 4), (x.opsec + 2 ^ 40, 8), (x.sec + 2 ^ 32 * x.frac + 2 ^ 47 * b2n x.valid, 8)]

/-- An extreme read from bytes. -/
def extOf (w : Nat) : Option Ext :=
  if bytesAt w 4 8 / 2 ^ 40 % 2 = 0 then none
  else
    some ⟨BitVec.ofNat 32 w, bytesAt w 4 5, bytesAt w 12 4, bytesAt w 16 2 % 2 ^ 15, bytesAt w 16 2 / 2 ^ 15 == 1⟩

/-- The CHDATA body (Table rec-2). -/
def chanBytes (c : Chan) : Nat :=
  pack ([(c.taken, 8), (c.dropped, 8), (c.tat, 8), (extBytes c.mn, 20), (extBytes c.mx, 20), (b2n c.recovered, 4)] ++
    (List.range 256).map (fun i => (SMap.get c.bins 0 i, 6)) ++ [(0, 4)])

/-- A shadow loaded from a body. -/
def chanOf (w : Nat) : Chan :=
  { taken := bytesAt w 0 6, dropped := bytesAt w 8 6, tat := bytesAt w 16 6, mn := extOf (bytesAt w 24 20),
    mx := extOf (bytesAt w 44 20), recovered := bytesAt w 64 1 % 2 == 1,
    bins := (List.range 256).filterMap (fun i => if bytesAt w (68 + 6 * i) 6 = 0 then none else some (i, bytesAt w (68 + 6 * i) 6)) }

/-- An entry of the ledger (R377). -/
def entBytes (e : Option LedEnt) : Nat :=
  match e with
  | none => 0
  | some x => pack [(x.opsec, 5), (x.kind, 1), (0, 2), (x.a0, 4), (x.a1, 4)]

/-- The SEAL body (Table par-3). -/
def State.sealBytes (s : State) : Nat :=
  pack [(s.rf Reg.PAR_STATUS.SEAL_BROKEN + 2 * s.rf Reg.PAR_SEAL_INFO.CAL_VALID + 4 * s.rf Reg.PAR_SEAL_INFO.ON_VBAT, 4),
    (s.rf Reg.PAR_SEAL_SEC.CAL_SEC, 4), (s.rf Reg.PAR_SEAL_INFO.CAL_FRAC, 4), (s.par.brokeOp, 8), (s.par.brokeCycles, 4),
    (s.par.windows, 4), (s.par.bench, 4), (s.par.losses, 4), ((s.reg Reg.PAR_CFG_at).toNat, 4)]

/-- A block's bytes in a BBT record (DESIGN CHOICE, log 49): its reason, and of a logical block its spare index + 1. -/
def State.bbtBytes (s : State) (b : Nat) : Nat := SMap.get s.flc.bad 0 b + 256 * SMap.get s.flc.spare 0 b
/-- A log block's bytes in a JINDEX record (DESIGN CHOICE, log 49): first JSN + 1, then erase count and sticky shift. -/
def State.jindexBytes (s : State) (b : Nat) : Nat :=
  pack [(SMap.get s.flc.first 0 b, 4), (SMap.get s.flc.erases 0 b % 2 ^ 21 + 2 ^ 21 * SMap.get s.flc.shift 0 b, 4)]

/-- The body of a record as its owner holds it now (R365: captured when its write begins). The layouts of RECCFG, SNAPSET, CHCFG, BBT,
JINDEX, JHEAD and IDENT are the model's (DESIGN CHOICE, log 49). -/
def State.vaultBody (s : State) (id : Nat) : Nat :=
  if id = 1 then pack [(Config.factoryMac.toNat, 6)]
  else if id = 2 then
    pack [(s.record.opsec, 8), (s.record.cycles, 4), (s.record.resets, 4), (s.record.pwrfails, 4), (s.record.histClears, 4),
      (s.record.lost, 4)]
  else if id = 3 then s.sealBytes
  else if id = 4 then pack ((1, 4) :: (List.range 12).map (fun k => (s.rf (Reg.PNL_COUNT.BASELINE k), 2)))
  else if id = 5 then s.rf Reg.REC_CFG.FLUSH_S
  else if 0x10 ≤ id ∧ id < 0x18 then
    pack ((s.rf (Reg.REC_SNAP_CTL.TRIGMASK (id - 0x10)) + 2 ^ 8 * s.rf (Reg.REC_SNAP_CTL.COUNT (id - 0x10)), 4) ::
      (List.range 32).map (fun i => (s.rf (Reg.REC_SNAP_ADDR.ADDR (id - 0x10) i), 2)))
  else if 0x100 ≤ id ∧ id < 0x140 then
    pack ((List.range 5).map (fun i => ((s.reg (Reg.REC_CH_SRC_at (id - 0x100) + i)).toNat, 4)))
  else if 0x200 ≤ id ∧ id < 0x240 then chanBytes (s.chan (id - 0x200))
  else if id = 0x300 then
    pack ([(s.record.total, 4), (s.record.next, 4), (0, 8)] ++
      (List.range 64).map (fun i => (entBytes (SMap.get s.record.ledger none i), 16)))
  else if 0x400 ≤ id ∧ id < 0x404 then pack ((List.range 512).map (fun i => (s.bbtBytes (512 * (id - 0x400) + i), 2)))
  else if 0x500 ≤ id ∧ id < 0x51E then pack ((List.range 64).map (fun i => (s.jindexBytes (128 + 64 * (id - 0x500) + i), 8)))
  else if id = 0x520 then pack [(s.flc.headBlk, 2), (s.flc.headPg, 2), (s.rf Reg.FLC_J_HEAD.JSN, 4)]
  else 0

/-- What the factory wrote (R346): the shadows at their reset values; no panel reference. -/
def factoryBody (id : Nat) : Nat := if id = 4 then 0 else State.reset.vaultBody id

/-- The records of Table rec-1. -/
def vaultIds : List Nat :=
  [1, 2, 3, 4, 5] ++ (List.range 8).map (0x10 + ·) ++ (List.range 64).map (0x100 + ·) ++ (List.range 64).map (0x200 + ·) ++
  [0x300] ++ (List.range 4).map (0x400 + ·) ++ (List.range 30).map (0x500 + ·) ++ [0x520]

/-! ## Copies (R347) -/

/-- Bytes of a copy, its header included (Table rec-1). -/
def vaultLen (id : Nat) : Nat :=
  if id = 5 ∨ id = 0x520 then 32
  else if id < 5 then 64
  else if id < 0x18 then 96
  else if id < 0x140 then 48
  else if id < 0x240 then 1624
  else if id = 0x300 then 1056
  else if id < 0x404 then 1040
  else 528

/-- The header of a copy but for its CRC: SEQ, ID, LEN, 0. -/
def vaultHead (id seq : Nat) : Nat := pack [(seq % 2 ^ 32, 4), (id, 2), (vaultLen id, 2), (0, 4)]
/-- A copy formed: its header, the CRC-32C over all but the CRC, its body. -/
def vaultCopy (id seq body : Nat) : VCopy :=
  let n := vaultLen id - 16
  let h := vaultHead id seq
  ⟨pack [(h, 12), (crc32c (toBytes h 12 ++ toBytes body n), 4), (body, n)], false⟩

/-- SEQ of a copy. -/
def VCopy.seq (c : VCopy) : Nat := bytesAt c.raw 0 4
/-- ID. -/
def VCopy.id (c : VCopy) : Nat := bytesAt c.raw 4 2
/-- LEN. -/
def VCopy.len (c : VCopy) : Nat := bytesAt c.raw 6 2
/-- The CRC. -/
def VCopy.crc (c : VCopy) : Nat := bytesAt c.raw 12 4
/-- The body: bytes from 0x10 on. -/
def VCopy.body (c : VCopy) : Nat := c.raw / 2 ^ 128
/-- A valid copy at the place of record `id`: its CRC matches, and its ID and LEN match the place. -/
def VCopy.ok (c : VCopy) (id : Nat) : Bool :=
  !c.torn && c.id == id && c.len == vaultLen id && c.crc == crc32c (toBytes c.raw 12 ++ toBytes c.body (c.len - 16))

/-- A record: as the factory wrote it, copy A current, until it is written. -/
def State.vrec (s : State) (id : Nat) : VRec :=
  match SMap.get s.vault.recs none id with
  | some r => r
  | none => ⟨vaultCopy id 1 (factoryBody id), vaultCopy id 0 (factoryBody id)⟩
/-- A record replaced. -/
def State.setVrec (s : State) (id : Nat) (r : VRec) : State :=
  { s with vault := { s.vault with recs := SMap.set s.vault.recs none id (some r) } }

/-- SEQ `a` later than `b` (R347). -/
def seqLater (a b : Nat) : Bool :=
  let d := (a + 2 ^ 32 - b % 2 ^ 32) % 2 ^ 32
  decide (1 ≤ d) && decide (d ≤ 2 ^ 31 - 1)

/-- Whether copy B is current; none for a lost record (R347). -/
def VRec.currentB (r : VRec) (id : Nat) : Option Bool :=
  if r.a.ok id && r.b.ok id then some (seqLater r.b.seq r.a.seq)
  else if r.a.ok id then some false
  else if r.b.ok id then some true
  else none

/-- The current copy. -/
def VRec.current (r : VRec) (id : Nat) : Option VCopy := (r.currentB id).map (fun b => if b then r.b else r.a)
/-- The body of the current copy of a record; both copies the factory wrote are valid. -/
def State.vaultRead (s : State) (id : Nat) : Option Nat :=
  match SMap.get s.vault.recs none id with
  | some r => (r.current id).map VCopy.body
  | none => some (factoryBody id)
/-- The current copy of a record with its header. -/
def State.vaultCurrent (s : State) (id : Nat) : Option VCopy :=
  match SMap.get s.vault.recs none id with
  | some r => r.current id
  | none => some (vaultCopy id 1 (factoryBody id))
/-- Records with no valid copy. -/
def State.vaultLost (s : State) : List Nat :=
  vaultIds.filter (fun id => match SMap.get s.vault.recs none id with | some r => (r.currentB id).isNone | none => false)
/-- Records with one valid copy. -/
def State.vaultHalf (s : State) : List Nat :=
  vaultIds.filter (fun id => match SMap.get s.vault.recs none id with | some r => r.a.ok id != r.b.ok id | none => false)

/-! ## Writes (R348, R349) -/

/-- A shadow captured: no longer changed since its last write (R365). -/
def State.vaultCaptured (s : State) (id : Nat) : State :=
  if 0x200 ≤ id ∧ id < 0x240 then s.onRec (fun r => { r with dirty := r.dirty.filter (· != id - 0x200) })
  else if id = 0x300 then s.onRec (fun r => { r with dirtyLedger := false })
  else s

/-- The next write begins: its contents captured, the copy that is not current torn. -/
def State.vaultBegin (s : State) : State :=
  match s.vault.cur, s.vault.queue with
  | some _, _ => s
  | none, [] => s
  | none, q :: rest =>
    let r := s.vrec q.id
    let b := (match r.currentB q.id with | some true => false | _ => true)
    let w : VWrite := ⟨q.id, b, s.vaultBody q.id, q.flush⟩
    let r := if b then { r with b := { r.b with torn := true } } else { r with a := { r.a with torn := true } }
    let s := s.setVrec q.id r
    ({ s with vault := { s.vault with queue := rest, cur := some w } }).vaultCaptured q.id

/-- A write ends (R348): the new copy is current; or, at a second mismatch, a Vault write-verify failure. -/
def State.vaultEnd (s : State) (ok : Bool) : State :=
  match s.vault.cur with
  | none => s
  | some w =>
    let s := { s with vault := { s.vault with cur := none } }
    if ok then
      let r := s.vrec w.id
      let seq := (if w.overB then r.a.seq else r.b.seq) + 1
      let c := vaultCopy w.id seq w.body
      s.setVrec w.id (if w.overB then { r with b := c } else { r with a := c })
    else
      let s := s.wf Reg.AON_STATUS.VAULT_FAULT 1
      let s := s.ledgerEntry 4 w.id (b2n w.overB)
      s.evRecord 8 w.id (b2n w.overB)

/-- Whether a record of some kind waits to be written or is being written. -/
def State.vaultPending (s : State) (p : Nat → Bool) : Bool :=
  s.vault.queue.any (fun q => p q.id) || (match s.vault.cur with | some w => p w.id | none => false)

/-- STATUS_LED_N's level under a blink code of c pulses, t microseconds into its pattern (R376): c times 200 ms low and 200 ms high, then
1,600 ms high. -/
def blinkLevel (c t : Nat) : Bool :=
  let u := t % (400000 * c + 1600000)
  decide (400000 * c ≤ u) || decide (200000 ≤ u % 400000)

/-- STATUS_LED_N's blink code (R376, R408): 3 for a Vault fault, 5 in HALTED. -/
def State.blinkCode (s : State) : Nat :=
  if s.on Reg.AON_STATUS.VAULT_FAULT then 3 else if s.boot.phase = .halted then 5 else 0

/-- The level of STATUS_LED_N (R376): a blink code's pattern, whose start the AON microsecond count gives (DESIGN CHOICE, log 110), else
low while AON_LED.ON is 1. -/
def State.statusLedN (s : State) : Bool := if s.blinkCode ≠ 0 then blinkLevel s.blinkCode s.us else !s.on Reg.AON_LED.ON

end Sys2Proof.Machine
end

