-- ==== Sys2Proof/Machine/Flash.lean ====
section
/-!
DEFINITION. The flash die and its controller (spec/13): blocks and pages, requests and their grant, the outcome of each die operation,
retirement, page accounting, and initialisation.

Choices and readings of this file: log 4, 49, 52, 53, 54, 55, 56, 112.
-/

namespace Sys2Proof.Machine

/-- A change of the flash store. -/
def State.onFlc (s : State) (f : Flc → Flc) : State := { s with flc := f s.flc }

/-- Refusals of Table flc-10. -/
def flcRefuse : RefuseAt :=
  ⟨Reg.FLC_STATUS.REFUSED, some Reg.FLC_STATUS.REASON, some (Reg.FLC_EVCFG.REFUSE_EVENT, Reg.FLC_EVCFG.REFUSE_EN)⟩

/-! ## Blocks and pages (R319 to R324) -/

/-- A page, none when erased. -/
def State.fpage (s : State) (b p : Nat) : Option FPage := SMap.get s.flc.pages none (256 * b + p)
/-- A page programmed. -/
def State.setFpage (s : State) (b p : Nat) (v : Option FPage) : State :=
  s.onFlc (fun x => { x with pages := SMap.set x.pages none (256 * b + p) v })
/-- Every page of a block erased. -/
def State.eraseBlock (s : State) (b : Nat) : State :=
  s.onFlc (fun x =>
    { x with pages := SMap.drop x.pages (fun k => k / 256 == b), erases := SMap.set x.erases 0 b (SMap.get x.erases 0 b + 1),
             shift := SMap.set x.shift 0 b 0 })
/-- Whether a block holds any programmed page. -/
def State.blockUsed (s : State) (b : Nat) : Bool := s.flc.pages.any (fun e => e.1 / 256 == b)
/-- A block not retired. -/
def State.goodBlock (s : State) (b : Nat) : Bool := SMap.get s.flc.bad 0 b == 0
/-- The physical block of a logical one (R321). -/
def State.physOf (s : State) (b : Nat) : Nat :=
  if b < 112 then (match SMap.get s.flc.spare 0 b with | 0 => b | k + 1 => 112 + k) else b
/-- The lowest free spare's index (R340). -/
def State.freeSpare (s : State) : Option Nat :=
  (List.range 16).find? (fun i => s.goodBlock (112 + i) && !(s.flc.spare.any (fun e => e.2 == i + 1)))
/-- The next good log block in ascending order, wrapping from 2047 to 128 (R334). -/
def State.nextGood (s : State) (b : Nat) : Nat :=
  let at' := fun i => 128 + (b - 128 + 1 + i) % 1920
  match (List.range 1920).find? (fun i => s.goodBlock (at' i)) with
  | some i => at' i
  | none => b
/-- JSN of a log page (R322). -/
def FPage.jsn (p : FPage) : Nat := bytesAt p.data 4000 4

/-- The spare area of a log page: metadata of the four codewords (R322). -/
def logMeta (jsn erases src : Nat) : Nat :=
  pack [(jsn, 4), (erases, 4), (src, 1), (1, 1), (0, 2), (jsn, 4), (0, 8), (jsn, 4), (0, 8), (jsn, 4), (0, 8)]

/-- Parity of a page's four codewords (R322, R323): `n` data and `m` metadata bytes each, from `n4` on. -/
def pageParity (t n m data : Nat) : List Nat :=
  (List.range 4).flatMap (fun k => bchParity t (toBytes (bytesAt data (n * k) n) n ++ toBytes (bytesAt data (4 * n + m * k) m) m))

/-- The 4,352 bytes of a programmed page as the die holds them (Tables flc-2 and flc-3). -/
def State.pageBytes (s : State) (b p data : Nat) : Nat :=
  if b < 128 then
    let fld := match SMap.get s.flc.fields none p with | some q => if b = 0 then q.2 else 256 ^ 64 - 1 | none => 256 ^ 64 - 1
    pack [(data, 4128), (ofBytes (pageParity 16 1024 8 data), 112), (0, 16), (fld, 64), (256 ^ 32 - 1, 32)]
  else pack [(data, 4048), (ofBytes (pageParity 40 1000 12 data), 280), (0, 16), (256 ^ 8 - 1, 8)]

/-! ## Page accounting (R338) -/

/-- Log pages that are retained: GOOD with JSN in [tail, head). -/
def State.pageValid (s : State) (p : FPage) : Bool :=
  p.ok && decide (s.rf Reg.FLC_J_TAIL.JSN ≤ p.jsn) && decide (p.jsn < s.rf Reg.FLC_J_HEAD.JSN)

/-- The block whose erase is in progress; a retired one is not erased (R340, R341). -/
def State.erasing (s : State) : Option Nat :=
  match s.flc.cur with
  | some j =>
    let b := if s.goodBlock s.flc.tgt.1 then some s.flc.tgt.1 else none
    (match j.op with
     | .tail _ => b
     | .erase _ _ => b
     | .respare _ => b
     | _ => none)
  | none => none

/-- A log page program in flight. -/
def State.appending (s : State) : Bool :=
  match s.flc.cur with | some j => (match j.op with | .append _ _ _ => true | _ => false) | none => false

/-- The four counts, health and the tail, from the die and the tables; they show nothing before initialisation step 6. -/
def State.recount (s : State) : State :=
  if s.on Reg.FLC_STATUS.INIT then s
  else
    let log := s.flc.pages.filter (fun e => decide (32768 ≤ e.1))
    let good := ((List.range 1920).filter (fun i => s.goodBlock (128 + i))).length
    let valid := (log.filter (fun e =>
      s.erasing != some (e.1 / 256) && (match e.2 with | some p => s.pageValid p | none => false))).length
    let inGood := (log.filter (fun e => s.goodBlock (e.1 / 256))).length
    let validGood := (log.filter (fun e => s.goodBlock (e.1 / 256) && s.erasing != some (e.1 / 256) &&
      (match e.2 with | some p => s.pageValid p | none => false))).length
    let free := 256 * good - inGood
    let stale := inGood - validGood
    let s := s.wf Reg.FLC_PG_RETIRED.PAGES (491520 - free - valid - stale)
    let s := (s.wf Reg.FLC_PG_VALID.PAGES valid).wf Reg.FLC_PG_STALE.PAGES stale
    let s := s.wf Reg.FLC_PG_FREE.PAGES (free - b2n s.appending)
    let s := s.wf Reg.FLC_HEALTH.SPARES_FREE
      ((List.range 16).filter (fun i => s.goodBlock (112 + i) && !(s.flc.spare.any (fun e => e.2 == i + 1)))).length
    s.wf Reg.FLC_HEALTH.COPY_USED s.flc.fields.length

/-- JSN of the first GOOD page of a block, below the head. -/
def State.firstJsn (s : State) (b : Nat) : Option Nat :=
  (List.range 256).findSome? (fun p =>
    match s.fpage b p with
    | some q => if q.ok ∧ q.jsn < s.rf Reg.FLC_J_HEAD.JSN then some q.jsn else none
    | none => none)

/-- The tail in journal order (R335): the JSN of the first valid page of good blocks from `b` on, ascending and wrapping; the head where none
has one. Retired blocks on the way have been passed, and their pages with them (R340). -/
def State.tailFrom (s : State) (b : Nat) : Nat :=
  ((List.range 1920).findSome? (fun i =>
    let c := 128 + (b - 128 + i) % 1920
    if s.goodBlock c then s.firstJsn c else none)).getD (s.rf Reg.FLC_J_HEAD.JSN)

/-! ## Requests and grant (R327 to R330) -/

/-- Whether the controller is busy (R330). -/
def State.flcBusy (s : State) : Bool :=
  s.flc.cur.isSome || s.flc.pend.isSome || !s.flc.queue.isEmpty || s.flc.tailDue.isSome || s.on Reg.FLC_STATUS.INIT

/-- Priority of a requester (Table flc-8). -/
def FWho.rank : FWho → Nat
  | .boot => 1 | .recorder => 2 | .maint => 3 | .reg => 4 | .fsv => 5

/-- Where an APPEND goes (R334): the lowest unprogrammed page of the head block, else page 0 of the next good one. -/
def State.appendAt (s : State) : Nat × Nat :=
  if s.flc.headPg < 256 ∧ s.goodBlock s.flc.headBlk then (s.flc.headBlk, s.flc.headPg) else (s.nextGood s.flc.headBlk, 0)

/-- Whether a request can start: an APPEND waits for the erase of the block it enters (R335). -/
def State.startable (s : State) (j : FJob) : Bool :=
  match j.op with
  | .append _ _ _ => s.appendAt.2 != 0 || !s.blockUsed s.appendAt.1
  | _ => true

/-- The request granted (R328): while the engine has a flash-lane request executing, its operations alone; else by priority, in
order of arrival. -/
def State.granted (s : State) : Option FJob :=
  let q := if s.flc.hold then s.flc.queue.filter (fun j => j.who == .fsv || j.who == .boot) else s.flc.queue
  let best := (List.range 6).find? (fun r => q.any (fun j => j.who.rank == r && s.startable j))
  match best with
  | some r => q.find? (fun j => j.who.rank == r && s.startable j)
  | none => none

/-- The first occurrence of a request removed. -/
def dropJob (q : List FJob) (j : FJob) : List FJob :=
  match q with
  | [] => []
  | h :: t => if h = j then t else h :: dropJob t j

/-- The tail block, the good block after the head block, is due for its erase where it holds any programmed page (R335). -/
def State.dueTail (s : State) : State :=
  let t := s.nextGood s.flc.headBlk
  if s.blockUsed t ∧ t ≠ s.flc.headBlk then s.onFlc (fun x => { x with tailDue := some t }) else s

/-- The head enters a block (R335): the index updated, the tail block due for its erase where it holds any programmed page. -/
def State.enterBlock (s : State) (b : Nat) : State :=
  let s := s.onFlc (fun x =>
    { x with headBlk := b, headPg := 0, first := SMap.set x.first 0 b (s.rf Reg.FLC_J_HEAD.JSN + 1) })
  ((s.dueTail).vaultQueue (0x500 + (b - 128) / 64)).vaultQueue 0x520

/-- The intent cell of a block: programmed to 0 before its erase, cleared to 1 after (R339). -/
def State.intend (s : State) (b : Nat) (v : Bool) : State :=
  s.onFlc (fun x => { x with intent := SMap.set x.intent true b v })

/-- The intent cell of the block about to be erased programmed to 0 (R339, step 1); a retired block is not erased. -/
def State.intendTgt (s : State) : State := (if s.goodBlock s.flc.tgt.1 then s.intend s.flc.tgt.1 false else s).recount

/-- An operation starts on the die. -/
def State.flcStart (s : State) (j : FJob) : State :=
  let s := s.onFlc (fun x => { x with queue := dropJob x.queue j })
  let s := (s.wf Reg.FLC_STATUS.DIE_BUSY 1).onFlc (fun x => { x with cur := some j })
  match j.op with
  | .append _ _ _ =>
    let t := s.appendAt
    let s := if t.1 = s.flc.headBlk ∧ t.2 ≠ 0 ∨ SMap.get s.flc.first 0 t.1 ≠ 0 ∧ t.1 = s.flc.headBlk then s else s.enterBlock t.1
    (s.onFlc (fun x => { x with tgt := t })).recount
  | .erase lb _ => (s.onFlc (fun x => { x with tgt := (s.physOf lb, 0) })).intendTgt
  | .respare lb => (s.onFlc (fun x => { x with tgt := (s.physOf lb, 0) })).intendTgt
  | .tail b =>
    let s := s.onFlc (fun x => { x with tgt := (b, 0) })
    (s.wf Reg.FLC_J_TAIL.JSN (s.tailFrom (s.nextGood b))).intendTgt
  | .program lb pg _ => s.onFlc (fun x => { x with tgt := (s.physOf lb, pg) })
  | .read b pg => s.onFlc (fun x => { x with tgt := (s.physOf b, pg) })
  | .jread _ => s
  | .bbt pg _ => s.onFlc (fun x => { x with tgt := (0, pg) })

/-- The die granted when it is free: nothing starts during initialisation (but BOOT reads, before release) or PWRFAIL (R344, R345). -/
def State.flcGrant (s : State) : State :=
  if s.flc.cur.isSome || s.flc.pend.isSome || s.on Reg.FLC_STATUS.PWRFAIL || s.on Reg.FLC_STATUS.INIT then s
  else match s.granted with
    | some j => s.flcStart j
    | none => s

/-- A request made. -/
def State.flcRequest (s : State) (j : FJob) : State := (s.onFlc (fun x => { x with queue := x.queue ++ [j] })).flcGrant

/-- Whether a buffer is controller-owned (R329). -/
def State.bufOwned (s : State) (b : Nat) : Bool :=
  let own := fun (j : FJob) => j.who == .reg && j.buf == b
  s.flc.queue.any own || (match s.flc.cur with | some j => own j | none => false) ||
    (match s.flc.pend with | some e => own e.job | none => false)

/-! ## Failure and retirement (R337, R340 to R342) -/

/-- FAULT set and its event (R337, R340). -/
def State.flcFault (s : State) : State := (s.wf Reg.FLC_STATUS.FAULT 1).raiseIf Reg.FLC_EVCFG.FAULT_EVENT Reg.FLC_EVCFG.FAULT_EN

/-- A log-path failure reported to the recorder (R337, R376): ledger kind and its two words, and the EVENT record's. -/
def State.logFault (s : State) (kind a0 a1 code arg : Nat) : State :=
  let s := s.flcFault.ledgerEntry kind a0 a1
  let s := (s.wf Reg.REC_STATUS.LOG_FAULT 1).raiseIf Reg.REC_EVCFG.FAULT_EVENT Reg.REC_EVCFG.FAULT_EN
  s.evRecord 6 code arg

/-- A block noted in the table and for the next copy record; its Vault record written (R342). -/
def State.noteBlock (s : State) (b : Nat) : State :=
  (s.onFlc (fun x => { x with unrec := x.unrec.filter (· != b) ++ [b] })).vaultQueue (0x400 + b / 512)

/-- A block marked retired for a reason: 2 program, 3 erase. -/
def State.markBad (s : State) (b reason : Nat) : State := (s.onFlc (fun x => { x with bad := SMap.set x.bad 0 b reason })).noteBlock b
/-- A block retired; FAULT and its event. -/
def State.retireBlock (s : State) (b reason : Nat) : State := (s.markBad b reason).flcFault

/-- A logical block given the lowest free spare; false where none is free (R340, R341). -/
def State.respareBlock (s : State) (lb : Nat) : Bool × State :=
  match s.freeSpare with
  | none => (false, s)
  | some i => (true, (s.onFlc (fun x => { x with spare := SMap.set x.spare 0 lb (i + 1) })).noteBlock lb)

/-! ## Outcomes (R324, R331, R333) -/

/-- What a set of threshold levels gives: none where a codeword has more than t bit errors, else the most in a codeword and their sum (R323). -/
def decodeSet (t : Nat) (errs : List Nat) : Option (Nat × Nat) :=
  if errs.all (fun e => decide (e ≤ t)) then some (errs.foldl max 0, errs.sum) else none

/-- The classification of a page read (R324, R336): ERR, the shift set and CORR, bits corrected, extra reads. -/
structure Rd where
  err : Nat
  shift : Nat
  corr : Nat
  bits : Nat
  extra : Nat
  deriving DecidableEq, Repr

/-- The first set that decodes, with its number of extra reads. -/
def firstDecode (ts : List (Option (Nat × Nat))) (n : Nat) : Option (Nat × Nat × Nat) :=
  match ts with
  | [] => none
  | some c :: _ => some (n, c.1, c.2)
  | none :: t => firstDecode t (n + 1)

/-- A page read and classified; `log` pages have eight sets from the sticky shift and t = 40, others one and t = 16. -/
def classify (p : Option FPage) (log : Bool) (sticky : Nat) (o : DieOut) : Rd :=
  let sets := if log then 8 else 1
  let tries := (o.tries.take sets).map (decodeSet (if log then 40 else 16))
  match p with
  | none => ⟨2, 0, 0, 0, 0⟩
  | some q =>
    if !q.ok && o.invalid then ⟨3, 0, 0, 0, 0⟩
    else if !q.ok then ⟨1, 0, 0, 0, sets - 1⟩
    else match firstDecode tries 0 with
      | some (n, c, bits) => ⟨0, if log then (sticky + n) % 8 else 0, c, bits, n⟩
      | none => ⟨1, 0, 0, 0, sets - 1⟩

/-- The least FLC_RDWAIT of Table flc-7 for the link clock in effect and a range of VDD_FL: 2 for 1.85–1.89 V, 1 for 1.75–1.85 V, 0 below. -/
def State.rdwaitFor (s : State) (vdd : Fin 3) : Nat :=
  let row := fun (l : List Nat) => l.getD vdd.val 0
  let d := s.rf (Reg.IOPLL_ISL.DIV islFlash)
  if d = 0 then row [7, 6, 5] else if d = 1 then row [6, 5, 4] else row [3, 3, 2]

/-- FLC_RDWAIT lies below what the link clock and the guaranteed VDD_FL need, at most 7: data read are undefined (R326). -/
def State.rdwaitLow (s : State) : Bool :=
  decide (s.rf Reg.FLC_RDWAIT.WAIT < 7) && decide (s.rf Reg.FLC_RDWAIT.WAIT < s.rdwaitFor Config.flashVdd)

/-- The classification of a page read: below the wait states needed the result shows as corrected or uncorrectable errors, with numbers that
nothing gives (R326). -/
def State.classifyPage (s : State) (p : Option FPage) (b : Nat) (o : DieOut) : Rd × State :=
  let log := decide (128 ≤ b)
  if s.rdwaitLow then
    let f := s.takeFree
    let g := f.2.takeFree
    let t := if log then 40 else 16
    if f.1 % 2 = 0 then (⟨1, 0, 0, 0, if log then 7 else 0⟩, g.2)
    else (⟨0, if log then g.1 % 8 else 0, 1 + g.1 / 8 % t, 1 + g.1 / 8 % t + g.1 / 512 % (3 * t), if log then g.1 % 8 else 0⟩, g.2)
  else (classify p log (SMap.get s.flc.shift 0 b) o, s)

/-- The counts a read leaves (R336). -/
def State.countRead (s : State) (b : Nat) (r : Rd) : State :=
  let s := s.incSat Reg.FLC_CE_CNT.COUNT r.bits
  let s := if r.err = 1 then s.incSat Reg.FLC_UE_CNT.COUNT else s
  let s := s.incSat Reg.FLC_RETRY_CNT.COUNT r.extra
  if r.err = 0 ∧ 128 ≤ b then s.onFlc (fun x => { x with shift := SMap.set x.shift 0 b r.shift }) else s

/-- The bytes a read leaves in a buffer: corrected data; parity and marker as read. Data as read where a codeword does not decode, the
bits of an erased page, and parity with errors, are free values. -/
def State.readBytes (s : State) (b p : Nat) (r : Rd) : Nat × State :=
  let f := s.takeFree
  let len := if b < 128 then 4128 else 4048
  if r.err = 0 ∧ !s.rdwaitLow then
    match s.fpage b p with
    | some q =>
      let w := s.pageBytes b p q.data
      if r.bits = 0 then (w, s) else (pack [(w, len), (f.1, 4352 - len)], f.2)
    | none => (f.1, f.2)
  else (f.1 % 256 ^ 4352, f.2)

/-- The end of an operation for its requester. -/
def fend (j : FJob) (err : Nat) : FEnd := ⟨j, err, false, 0, 0, 0⟩

/-- A READ ends. -/
def State.endRead (s : State) (j : FJob) (b pg : Nat) (o : DieOut) : FEnd × State :=
  let ph := s.physOf b
  if !s.goodBlock ph then (fend j 4, s)
  else
    let c := s.classifyPage (s.fpage ph pg) ph o
    let r := c.1
    let s := c.2.countRead ph r
    let s := if r.err = 1 ∧ 128 ≤ ph ∧ j.who ≠ .boot then
        s.logFault 2 ((s.fpage ph pg).elim 0 FPage.jsn) ph 1 ph else s
    let d := s.readBytes ph pg r
    (⟨j, r.err, false, r.shift, r.corr, d.1⟩, d.2)

/-- The page that holds a JSN. -/
def State.findJsn (s : State) (k : Nat) : Option (Nat × Nat) :=
  (s.flc.pages.find? (fun e =>
    decide (32768 ≤ e.1) && (match e.2 with | some p => p.ok && p.jsn == k | none => false))).map (fun e => (e.1 / 256, e.1 % 256))

/-- A JREAD ends (R335). -/
def State.endJread (s : State) (j : FJob) (k : Nat) (o : DieOut) : FEnd × State :=
  if k < s.rf Reg.FLC_J_TAIL.JSN ∨ s.rf Reg.FLC_J_HEAD.JSN ≤ k then (fend j 5, s)
  else
    match s.findJsn k with
    | none => (fend j 5, s)
    | some (b, p) =>
      let c := s.classifyPage (s.fpage b p) b o
      let r := c.1
      let s := c.2.countRead b r
      let s := if r.err = 1 then s.logFault 2 k b 1 k else s
      let d := s.readBytes b p r
      (⟨j, r.err, false, r.shift, r.corr, d.1 % 256 ^ 4048⟩, d.2)

/-- An operation that goes on elsewhere after a failure: next in the queue, or ABORTED while PWRFAIL_N is asserted (R345). -/
def State.goOn (s : State) (j : FJob) (op : FOp) : Option FEnd × State :=
  if s.on Reg.FLC_STATUS.PWRFAIL then (some (fend j 9), s)
  else (none, s.onFlc (fun x => { x with queue := { j with op := op } :: x.queue }))

/-- An APPEND's program ends (R334, R340): the end of the command, or none where it goes on at another block. -/
def State.endAppend (s : State) (j : FJob) (pl src tries : Nat) (ok : Bool) : Option FEnd × State :=
  let b := s.flc.tgt.1
  let p := s.flc.tgt.2
  let k := s.rf Reg.FLC_J_HEAD.JSN
  if k = 0xFFFFFFFF then (some (fend j 6), s)
  else
    let d := pack [(pl, 4000), (logMeta k (SMap.get s.flc.erases 0 b) src, 48)]
    let s := s.onFlc (fun x => { x with headPg := p + 1 })
    if ok then
      let s := (s.setFpage b p (some ⟨d, true⟩)).wf Reg.FLC_J_HEAD.JSN (k + 1)
      (some { fend j 0 with reloc := tries != 0, data := k }, s)
    else
      let s := (s.setFpage b p (some ⟨d, false⟩)).markBad b 2
      let s := s.logFault 1 b 6 6 b
      if tries = 2 then (some (fend j 6), s) else s.goOn j (.append pl src (tries + 1))

/-- A slot PROGRAM ends (R331, R340, R341). -/
def State.endProgram (s : State) (j : FJob) (lb pg data : Nat) (ok : Bool) : Option FEnd × State :=
  let b := s.physOf lb
  let pt := SMap.get s.flc.points 0 lb
  if !s.goodBlock b then (some (fend j 7), s)
  else if pt = 0 ∨ pg + 2 ≤ pt then (some (fend j 0xA), s)
  else
    let d := data % 256 ^ 4128
    if ok then
      (some (fend j 0), (s.setFpage b pg (some ⟨d, true⟩)).onFlc (fun x => { x with points := SMap.set x.points 0 lb (pg + 2) }))
    else
      let s := (s.setFpage b pg (some ⟨d, false⟩)).retireBlock b 2
      let s := s.onFlc (fun x => { x with points := SMap.set x.points 0 lb 0 })
      let r := s.respareBlock lb
      if r.1 then r.2.goOn j (.respare lb) else (some (fend j 7), r.2)

/-- The erase of a block verified (R339, steps 3 and 4). -/
def State.eraseOk (s : State) (b : Nat) : State := (s.eraseBlock b).intend b true

/-- An ERASE, or the erase of a spare, ends: `err` where it succeeds, and the operation that follows a failure. -/
def State.endErase (s : State) (j : FJob) (lb err : Nat) (reloc : Bool) (again : FOp) (ok : Bool) : Option FEnd × State :=
  let b := s.physOf lb
  if !s.goodBlock b then (some (fend j 7), s)
  else if ok then
    let s := (s.eraseOk b).onFlc (fun x => { x with points := SMap.set x.points 0 lb 1 })
    (some { fend j err with reloc := reloc }, s)
  else
    let s := (s.retireBlock b 3).intend b true
    let r := s.respareBlock lb
    if r.1 then r.2.goOn j again else (some (fend j 7), r.2)

/-- The tail block's erase ends (R335, R340); after a failure the next good block is the tail block. -/
def State.endTail (s : State) (j : FJob) (b : Nat) (ok : Bool) : Option FEnd × State :=
  if ok then (some (fend j 0), (s.eraseOk b).onFlc (fun x => { x with first := SMap.set x.first 0 b 0 }))
  else
    let s := ((s.retireBlock b 3).intend b true).onFlc (fun x => { x with pages := SMap.drop x.pages (fun k => k / 256 == b) })
    (some (fend j 0), s.dueTail)

/-- An entry of a copy record (Table flc-12). -/
def State.bbtEntry (s : State) (b : Nat) : Nat :=
  let r := SMap.get s.flc.bad 0 b
  match (if b < 112 then SMap.get s.flc.spare 0 b else 0) with
  | 0 => b + 2 ^ 24 * r
  | k + 1 => b + 2 ^ 16 * k + 2 ^ 20 + 2 ^ 24 * r

/-- A copy record of up to 12 blocks (Table flc-12). -/
def State.bbtRecord (s : State) (bs : List Nat) : Nat :=
  let es := (bs.map s.bbtEntry) ++ List.replicate (12 - bs.length) 0xFFFFFFFF
  let w := pack ([(s.flc.recSeq + 1, 4), (bs.length, 4)] ++ es.map (fun e => (e, 4)))
  pack [(w, 56), (crc32c (toBytes w 56), 4), (0xFFFFFFFF, 4)]

/-- The entries of a record. -/
def recEntries (r : Nat) : List Nat := (List.range (min 12 (bytesAt r 4 1))).map (fun i => bytesAt r (8 + 4 * i) 4)

/-- A BBT field program ends (R342): the retirements it holds as they still stand are recorded; a failed one leaves a record whose CRC fails. -/
def State.endBbt (s : State) (j : FJob) (pg body : Nat) (ok : Bool) : Option FEnd × State :=
  let s := s.onFlc (fun x => { x with fields := SMap.set x.fields none pg (some (ok, body)) })
  let s := if ok then s.onFlc (fun x =>
      { x with recSeq := bytesAt body 0 4, unrec := x.unrec.filter (fun b => !(recEntries body).contains (s.bbtEntry b)) }) else s
  let s := if 127 ≤ pg then s.wf Reg.FLC_STATUS.COPY_FULL 1 else s
  (some (fend j 0), s)

/-- The operation in progress ends with what the die returned. -/
def State.dieEnd (s : State) (j : FJob) (o : DieOut) : Option FEnd × State :=
  match j.op with
  | .read b pg => let r := s.endRead j b pg o; (some r.1, r.2)
  | .jread k => let r := s.endJread j k o; (some r.1, r.2)
  | .append pl src tries => s.endAppend j pl src tries o.ok
  | .program lb pg data => s.endProgram j lb pg data o.ok
  | .erase lb reloc => s.endErase j lb 0 reloc (.erase lb true) o.ok
  | .respare lb => s.endErase j lb 6 false (.respare lb) o.ok
  | .tail b => s.endTail j b o.ok
  | .bbt pg body => s.endBbt j pg body o.ok

/-- The die is free. -/
def State.dieFree (s : State) : State := (s.onFlc (fun x => { x with cur := none })).wf Reg.FLC_STATUS.DIE_BUSY 0

/-- An operation interrupted, or ended with TIMEOUT (R325, Table flc-14): a page program leaves its page incomplete; an erase leaves its
intent cell 0 and the block's pages undefined; a BBT record fails its CRC. -/
def State.interrupt (s : State) (j : FJob) : State :=
  let b := s.flc.tgt.1
  let p := s.flc.tgt.2
  let spoil := fun (s : State) => s.onFlc (fun x =>
    { x with pages := x.pages.map (fun e => if e.1 / 256 = b then (e.1, e.2.map (fun q => { q with ok := false })) else e) })
  match j.op with
  | .append pl src _ =>
    (s.setFpage b p (some ⟨pack [(pl, 4000), (logMeta (s.rf Reg.FLC_J_HEAD.JSN) (SMap.get s.flc.erases 0 b) src, 48)], false⟩)).onFlc
      (fun x => { x with headPg := p + 1 })
  | .program lb pg data =>
    if SMap.get s.flc.points 0 lb = 0 ∨ pg + 2 ≤ SMap.get s.flc.points 0 lb then s
    else (s.setFpage b pg (some ⟨data % 256 ^ 4128, false⟩)).onFlc (fun x => { x with points := SMap.set x.points 0 lb (pg + 2) })
  | .erase _ _ => if s.erasing.isSome then spoil s else s
  | .respare _ => if s.erasing.isSome then spoil s else s
  | .tail _ => spoil s
  | .bbt pg body => s.onFlc (fun x => { x with fields := SMap.set x.fields none pg (some (false, body)) })
  | _ => s

/-- FLC_RESULT and the completion of a register-path command (R331). A READ that moved no page (RETIRED, TIMEOUT, ABORTED) leaves its
buffer as it was (DEDUCED, log 52). -/
def State.regDone (s : State) (e : FEnd) : State :=
  let s := s.setReg Reg.FLC_RESULT_at (BitVec.ofNat 32 (e.err + 2 ^ 4 * b2n e.reloc + 2 ^ 5 * e.shift + 2 ^ 8 * e.corr))
  let b := 0x2000 * e.job.buf
  let s := match e.job.op with
    | .read _ _ => if e.err ≤ 3 then s.onFlc (fun x => { x with bufs := setBytes x.bufs b 4352 e.data }) else s
    | .jread _ => if e.err ≤ 1 then s.onFlc (fun x => { x with bufs := setBytes x.bufs b 4048 e.data }) else s
    | .append _ _ _ => if e.err = 0 then s.wf Reg.FLC_JSN.JSN e.data else s
    | _ => s
  ((s.wf Reg.FLC_STATUS.DONE 1).wf Reg.FLC_STATUS.CMD_BUSY 0).raiseIf Reg.FLC_EVCFG.DONE_EVENT Reg.FLC_EVCFG.DONE_EN

/-! ## Register-path commands (R331, R332) -/

/-- Pages of a block (Table flc-1). -/
def blockPages (b : Nat) : Nat := if b < 128 then 128 else 256

/-- The reason an FLC_CMD write is refused, 0 for none; judged in the order SOURCE, INIT, PWRFAIL, BUSY, SLOT_WRITE, OPCODE, LENGTH,
REGION (DEDUCED, log 52). -/
def State.cmdReason (s : State) (src : Src) (v : Word) : Nat :=
  let op := getBits v 0 4
  let len := getBits v 8 13
  let b := s.rf Reg.FLC_ADDR.BLOCK
  if src = .fobex then 7
  else if s.on Reg.FLC_STATUS.INIT ∨ s.on Reg.FLC_STATUS.DIE_FAULT then 5
  else if s.on Reg.FLC_STATUS.PWRFAIL then 0xA
  else if s.on Reg.FLC_STATUS.CMD_BUSY then 1
  else if op = 8 ∨ op = 9 then 2
  else if op = 0 ∨ 3 < op then 9
  else if len ≠ (if op = 2 then 4000 else 0) then 4
  else if op = 1 ∧ (2047 < b ∨ 112 ≤ b ∧ b ≤ 127 ∨ blockPages b ≤ s.rf Reg.FLC_ADDR.PAGE) then 3
  else 0

/-- FLC_CMD written. -/
def State.writeFlcCmd (s : State) (src : Src) (v : Word) : WRes :=
  let why := s.cmdReason src v
  if why ≠ 0 then s.refused flcRefuse why
  else
    let op := getBits v 0 4
    let buf := getBits v 4 1
    let job : FJob := ⟨.reg,
      (if op = 1 then .read (s.rf Reg.FLC_ADDR.BLOCK) (s.rf Reg.FLC_ADDR.PAGE)
       else if op = 2 then .append (getBytes s.flc.bufs (0x2000 * buf) 4000) 1 0
       else .jread (s.rf Reg.FLC_JSN.JSN)), buf⟩
    .ok ((s.wf Reg.FLC_STATUS.CMD_BUSY 1).flcRequest job)

/-- The offset after an access to FLC_BUF_DATA. -/
def State.bufAdvance (s : State) : State :=
  let o := s.rf Reg.FLC_BUF_ADDR.OFFSET
  s.wf Reg.FLC_BUF_ADDR.OFFSET (if 4348 ≤ o then 0 else o + 4)

/-- FLC_BUF_DATA written (R329). -/
def State.writeBuf (s : State) (src : Src) (v : Word) : WRes :=
  let b := s.rf Reg.FLC_BUF_ADDR.BUF
  if src = .fobex then s.refused flcRefuse 7
  else if s.bufOwned b then s.refused flcRefuse 8
  else
    let o := 0x2000 * b + s.rf Reg.FLC_BUF_ADDR.OFFSET
    .ok (s.onFlc (fun x => { x with bufs := setBytes x.bufs o 4 v.toNat })).bufAdvance

/-- FLC_BUF_DATA read: each read advances OFFSET, a controller-owned buffer reads 0 (R329). -/
def State.readBuf (s : State) : Word × State :=
  let b := s.rf Reg.FLC_BUF_ADDR.BUF
  let v := if s.bufOwned b then 0 else getBytes s.flc.bufs (0x2000 * b + s.rf Reg.FLC_BUF_ADDR.OFFSET) 4
  (BitVec.ofNat 32 v, s.bufAdvance)

/-- The least FLC_RDWAIT a write may give: the 1.85–1.89 V entry for the link clock in effect (R326). -/
def State.rdwaitMin (s : State) : Nat := s.rdwaitFor 2

/-- A register of the controller written. -/
def State.writeFlc (s : State) (src : Src) (a : Nat) (v : Word) : WRes :=
  if a = Reg.FLC_CMD_at then s.writeFlcCmd src v
  else if a = Reg.FLC_BUF_DATA_at then s.writeBuf src v
  else if a = Reg.FLC_BUF_ADDR_at then
    (if src = .fobex then s.refused flcRefuse 7
     else s.writeBut .all flcRefuse 8 8 a (putBits v 0 2 0) (if 4348 < getBits v 0 13 then [Reg.FLC_BUF_ADDR.OFFSET] else []))
  else if a = Reg.FLC_RDWAIT_at then
    (if getBits v 0 4 < s.rdwaitMin then s.refused flcRefuse 6 else .ok (s.writeReg .all a v))
  else .ok (s.writeReg .all a v)

/-- FLC_BLK_INFO as read. -/
def State.blkInfoView (s : State) : Word :=
  let b := s.rf Reg.FLC_BLK_SEL.BLOCK
  let used := 112 ≤ b && decide (b < 128) && s.flc.spare.any (fun e => e.2 == b - 112 + 1)
  let live := s.flc.pages.any (fun e => e.1 / 256 == b && (match e.2 with | some p => s.pageValid p | none => false))
  let st := if !s.goodBlock b then (if 128 ≤ b && live then 1 else 2) else if 112 ≤ b ∧ b < 128 ∧ !used then 3 else 0
  let sp := if b < 112 then SMap.get s.flc.spare 0 b else 0
  BitVec.ofNat 32 (st + 2 ^ 2 * (if 128 ≤ b then SMap.get s.flc.shift 0 b else 0) + 2 ^ 5 * b2n (!s.flc.scanned.contains b) +
    2 ^ 6 * (sp - 1) + 2 ^ 10 * b2n (sp != 0) + 2 ^ 11 * (SMap.get s.flc.erases 0 b % 2 ^ 21))

/-! ## Reset, power failure and initialisation (R343 to R345) -/

/-- The die reset of an ISL or wider reset (R344, Table flc-14): the operation in progress is interrupted; the intent cell of an erase may
already or still read 1, the block then untouched or erased: free values. Requests are gone; the buffers hold zeros (DESIGN CHOICE, log 4). -/
def State.resetFlash (s : State) : State :=
  let s := match s.flc.cur with
    | none => s
    | some j =>
      match s.erasing with
      | none => s.interrupt j
      | some b =>
        let f := s.takeFree
        if f.1 % 3 = 0 then f.2.interrupt j
        else if f.1 % 3 = 1 then f.2.intend b true
        else f.2.eraseOk b
  s.onFlc (fun x => { x with cur := none, queue := [], pend := none, bufs := [], points := [], tailDue := none, hold := false })

/-- Table entries applied from a record of block 0 (R343): reason and spare of each entry. -/
def applyEntry (t : SMap Nat × SMap Nat) (e : Nat) : SMap Nat × SMap Nat :=
  let b := e % 2 ^ 11
  (SMap.set t.1 0 b (e / 2 ^ 24 % 256), SMap.set t.2 0 b (if e / 2 ^ 20 % 2 = 1 then e / 2 ^ 16 % 16 + 1 else 0))

/-- The records of block 0 whose CRC matches, in the order of their pages, which is SEQ order. -/
def State.copyRecords (s : State) : List Nat := s.flc.fields.filterMap (fun e => match e.2 with | some (true, r) => some r | _ => none)

/-- The tables as the records alone give them. -/
def State.tableOfRecords (s : State) : SMap Nat × SMap Nat :=
  (s.copyRecords.flatMap recEntries).foldl applyEntry ([], [])

/-- The tables as the Vault gives them; the blocks of a lost record are none. -/
def State.tableOfVault (s : State) : SMap Nat × SMap Nat :=
  (List.range 2048).foldl (fun t b =>
    match s.vaultRead (0x400 + b / 512) with
    | none => t
    | some w => (SMap.set t.1 0 b (bytesAt w (2 * (b % 512)) 1), SMap.set t.2 0 b (bytesAt w (2 * (b % 512) + 1) 1))) ([], [])

/-- Reconciliation (R343): the union, Vault entries winning; entries of one side only are written to the other. -/
def State.reconcileTables (s : State) : State :=
  let v := s.tableOfVault
  let r := s.tableOfRecords
  let inV := fun b => SMap.get v.1 0 b != 0 || SMap.get v.2 0 b != 0
  let inR := fun b => SMap.get r.1 0 b != 0 || SMap.get r.2 0 b != 0
  let all := (List.range 2048).filter (fun b => inV b || inR b)
  let bad := all.foldl (fun m b => SMap.set m 0 b (if inV b then SMap.get v.1 0 b else SMap.get r.1 0 b)) []
  let spare := all.foldl (fun m b => SMap.set m 0 b (if inV b then SMap.get v.2 0 b else SMap.get r.2 0 b)) []
  let seqs := s.copyRecords.map (fun w => bytesAt w 0 4)
  let s := s.onFlc (fun x =>
    { x with bad := bad, spare := spare, unrec := all.filter (fun b => !inR b), recSeq := seqs.foldl max 0 })
  (((List.range 4).filter (fun q => all.any (fun b => b / 512 == q && !inV b))).map (0x400 + ·)).foldl State.vaultQueue s

/-- The block index and head position loaded from the Vault (Table flc-13, step 5). -/
def State.loadIndex (s : State) : State :=
  let ent := fun b => (s.vaultRead (0x500 + (b - 128) / 64)).map (fun w => bytesAt w (8 * ((b - 128) % 64)) 8)
  let each := fun (f : Nat → Nat) => (List.range 1920).foldl (fun m i =>
    match ent (128 + i) with | some w => SMap.set m 0 (128 + i) (f w) | none => m) ([] : SMap Nat)
  let s := s.onFlc (fun x =>
    { x with first := each (· % 2 ^ 32),
             erases := x.erases.filter (fun e => decide (e.1 < 128)) ++ each (fun w => w / 2 ^ 32 % 2 ^ 21), shift := each (fun w => w / 2 ^ 53 % 8) })
  match s.vaultRead 0x520 with
  | none => s
  | some w =>
    (s.onFlc (fun x => { x with headBlk := max 128 (bytesAt w 0 2), headPg := bytesAt w 2 2 })).wf Reg.FLC_J_HEAD.JSN (bytesAt w 4 4)

/-- The head block scanned (step 6): past each GOOD page whose JSN continues and each incomplete one, to the first ERASED page. -/
def State.scanHead (s : State) (fuel : Nat) : State :=
  match fuel with
  | 0 => s
  | n + 1 =>
    match s.fpage s.flc.headBlk s.flc.headPg with
    | none => s
    | some p =>
      let k := s.rf Reg.FLC_J_HEAD.JSN
      let s := if p.ok ∧ p.jsn = k then s.wf Reg.FLC_J_HEAD.JSN (k + 1) else s
      if p.ok ∧ p.jsn ≠ k then s else (s.onFlc (fun x => { x with headPg := x.headPg + 1 })).scanHead n

/-- Blocks re-erased whose intent cell read 0 (R339): the four steps each; the ones of `fails` fail and are retired. -/
def State.reErase (s : State) (bs fails : List Nat) : State :=
  match bs with
  | [] => s
  | b :: t =>
    let s := (s.incSat Reg.FLC_HEALTH.REERASE).evRecord 7 b
    let s := if fails.contains b then ((s.retireBlock b 3).intend b true).onFlc
        (fun x => { x with pages := SMap.drop x.pages (fun k => k / 256 == b) })
      else s.eraseOk b
    s.reErase t fails

/-- The logical block that a physical block of 0–127 serves. -/
def State.logicalOf (s : State) (b : Nat) : Option Nat := (List.range 112).find? (fun lb => s.physOf lb == b)

/-- A logical block moved to the lowest free spare, which is erased; one of `fails` fails, is retired, and the next is taken (R340). -/
def State.respareErase (s : State) (lb : Nat) (fails : List Nat) (fuel : Nat) : State :=
  match fuel with
  | 0 => s
  | n + 1 =>
    let r := s.respareBlock lb
    if !r.1 then s
    else
      let p := r.2.physOf lb
      if fails.contains p then (r.2.retireBlock p 3).respareErase lb fails n else r.2.eraseOk p

/-- Logical blocks whose physical blocks a re-erase retired take spares (R340). -/
def State.respareAll (s : State) (bs fails : List Nat) : State :=
  match bs with
  | [] => s
  | b :: t => (match s.logicalOf b with | some lb => s.respareErase lb fails 17 | none => s).respareAll t fails

/-- Initialisation (Table flc-13), steps 1 to 7, after which the tail block's erase is due again where a reset came before it (R335); `dieOk`: the die responds; `fails`: blocks whose re-erase fails. -/
def State.flcInit (s : State) (dieOk : Bool) (fails : List Nat) : State :=
  if !s.on Reg.FLC_STATUS.INIT ∨ s.on Reg.FLC_STATUS.DIE_FAULT then s
  else if !dieOk then s.wf Reg.FLC_STATUS.DIE_FAULT 1
  else
    let zero := (List.range 2048).filter (fun b => !(SMap.get s.flc.intent true b))
    let s := s.onFlc (fun x => { x with scanned := zero })
    let s := if zero.any (· < 16) then s.wf Reg.FLC_STATUS.DIE_FAULT 1 else s
    let s := (s.reconcileTables).loadIndex
    let s := s.reErase (zero.filter (fun b => decide (16 ≤ b))) fails
    let s := s.respareAll (zero.filter (fun b => decide (16 ≤ b ∧ b < 128) && fails.contains b)) fails
    let s := s.scanHead 256
    let s := s.wf Reg.FLC_J_TAIL.JSN (s.tailFrom (s.nextGood s.flc.headBlk))
    let s := s.dueTail
    let s := s.onFlc (fun x => { x with points := [] })
    let s := if 128 ≤ s.flc.fields.length then s.wf Reg.FLC_STATUS.COPY_FULL 1 else s
    ((s.wf Reg.FLC_STATUS.INIT 0).recount).flcGrant

end Sys2Proof.Machine
end

