-- ==== Sys2Proof/Machine/Rec.lean ====
section
/-!
DEFINITION. The inspection recorder (spec/14): sampled reads and channels, pushes, flushes, snapshots, appended pages, history, calendar
time, and its registers.

Choices and readings of this file: log 38, 56, 57, 58, 59, 60, 64, 113.
-/

namespace Sys2Proof.Machine

/-- Refusals of R378. -/
def recRefuse : RefuseAt :=
  ⟨Reg.REC_STATUS.REFUSED, some Reg.REC_STATUS.REASON, some (Reg.REC_EVCFG.REFUSE_EVENT, Reg.REC_EVCFG.REFUSE_EN)⟩

/-- A presence window open, OPEN or BENCH (R381, R386), as it stood at the end of the previous AON cycle (R385). -/
def State.winOpen (s : State) : Bool := decide (2 ≤ s.par.was)
/-- The permissions of a write (R11, R391): RWP and RWS from the Fobex engine alone. -/
def State.permit (s : State) (src : Src) (lockOk : Bool) : Permit :=
  ⟨lockOk, src == .fobex && s.winOpen, src == .fobex && s.winOpen && s.on Reg.PAR_STATUS.SEAL_BROKEN⟩
/-- The outcome of a write that needs a window: 5 PRESENCE with REFUSE code 1, then 3 STATE during PWRFAIL (R378, R392); none where it
may go on. -/
def State.gate (s : State) (src : Src) : Option WRes :=
  if !(s.permit src true).presOk then some ⟨s.refuse recRefuse 5, 1⟩
  else if s.on Reg.REC_STATUS.PWRFAIL then some (s.refused recRefuse 3)
  else none

/-! ## Values and bins (R358, R359) -/

/-- A value as an integer in units of 2^-149, infinities beyond every finite one; none for a NaN. -/
def fixed32 (w : Nat) : Option Int :=
  let e := w / 2 ^ 23 % 256
  let m := w % 2 ^ 23
  if e = 255 then (if m = 0 then some (if w / 2 ^ 31 % 2 = 1 then -(2 ^ 400 : Int) else 2 ^ 400) else none)
  else
    let v : Nat := if e = 0 then m else (m + 2 ^ 23) * 2 ^ (e - 1)
    some (if w / 2 ^ 31 % 2 = 1 then -(v : Int) else v)

/-- The number a word or field of `w` bits stands for under VTYPE (R358). -/
def valueOf (vt w v : Nat) : Option Int :=
  if vt = 2 then fixed32 v else if vt = 1 then some (sInt w v) else some (v % 2 ^ w : Nat)

/-- VTYPE. -/
def State.chType (s : State) (n : Nat) : Nat := s.rf (Reg.REC_CH_SRC.VTYPE n)
/-- Field width. -/
def State.chWidth (s : State) (n : Nat) : Nat := s.rf (Reg.REC_CH_SRC.WIDTH n) + 1

/-- Infinity, as `fixed32` gives it. -/
def fixedInf : Int := 2 ^ 400

/-- The linear bin of v (R359). -/
def linBin (v ofs wid : Int) : Nat :=
  let d := v - ofs
  if d < 0 then 0 else if 254 * wid ≤ d then 255 else (d / wid).toNat + 1
/-- The log2 bin of v: ⌊2^DSH log2 (v / OFS)⌋ from exact powers. -/
def logBin (v ofs : Int) (dsh : Nat) : Nat :=
  if v < ofs then 0
  else
    let m := 2 ^ dsh
    let k := Nat.log2 (v.toNat ^ m / ofs.toNat ^ m)
    if 254 ≤ k then 255 else k + 1

/-- The bin of a value of channel n. What a NaN in OFS or WID gives the spec does not state: none. -/
def State.binOf (s : State) (n : Nat) (v : Int) : Option Nat :=
  let vt := s.chType n
  if vt = 2 ∧ v.natAbs = fixedInf.natAbs then some (if v < 0 then 0 else 255)
  else
  match valueOf vt 32 (s.rf (Reg.REC_CH_OFS.VALUE n)), valueOf vt 32 (s.rf (Reg.REC_CH_WID.VALUE n)) with
  | some o, some w =>
    if s.on (Reg.REC_CH_RATE.MODE n) then (if 0 < o then some (logBin v o (s.rf (Reg.REC_CH_RATE.DSH n))) else none)
    else if 0 < w then some (linBin v o w) else none
  | _, _ => none

/-! ## Samples (R360 to R362) -/

/-- A channel's shadow changed: it is due at the next flush. -/
def State.dirtyChan (s : State) (n : Nat) (c : Chan) : State :=
  (s.setChan n c).onRec (fun r => { r with dirty := if r.dirty.contains n then r.dirty else r.dirty ++ [n] })

/-- A dropped sample (R360). -/
def State.dropSample (s : State) (n : Nat) : State :=
  let c := s.chan n
  s.dirtyChan n { c with taken := c.taken + 1, dropped := c.dropped + 1 }

/-- An extreme now. -/
def State.extNow (s : State) (v : Word) : Ext := ⟨v, s.record.opsec, s.calSec, s.calFrac, s.on Reg.RTC_STATUS.VALID⟩

/-- Whether v replaces an extreme; `less`: for MIN. -/
def State.beats (s : State) (n : Nat) (v : Int) (e : Option Ext) (less : Bool) : Bool :=
  match e with
  | none => true
  | some x =>
    match valueOf (s.chType n) 32 x.v.toNat with
    | none => true
    | some o => if less then decide (v < o) else decide (o < v)

/-- The value as a word of its VTYPE, for extremes: signed fields extended. -/
def State.valueWord (s : State) (n v : Nat) : Word :=
  if s.chType n = 1 then BitVec.ofNat 32 (uNat 32 (sInt (s.chWidth n) v)) else BitVec.ofNat 32 v

/-- One sample of channel n with field value `v` (R358 to R362). -/
def State.takeSample (s : State) (n v : Nat) : State :=
  match valueOf (s.chType n) (s.chWidth n) v with
  | none => s.dropSample n
  | some x =>
    let f := s.takeFree
    let q := match s.binOf n x with | some b => (b, s) | none => (f.1 % 256, f.2)
    let s := q.2
    let c := s.chan n
    let w := s.valueWord n v
    let above := match valueOf (s.chType n) 32 (s.rf (Reg.REC_CH_THR.VALUE n)) with | some t => decide (t ≤ x) | none => false
    s.dirtyChan n
      { c with
        taken := c.taken + 1, bins := SMap.set c.bins 0 q.1 (SMap.get c.bins 0 q.1 + 1),
        mn := if s.beats n x c.mn true then some (s.extNow w) else c.mn,
        mx := if s.beats n x c.mx false then some (s.extNow w) else c.mx,
        tat := if above then c.tat + s.rf (Reg.REC_CH_RATE.PERIOD n) else c.tat }

/-- The field of a word that a channel samples. -/
def State.chField (s : State) (n : Nat) (w : Word) : Nat := getBits w (s.rf (Reg.REC_CH_SRC.LSB n)) (s.chWidth n)

/-! ## Sampled reads (R357, R370) -/

/-- NI of stop TS22. -/
def niAon : Nat := 54

/-- Sampled reads outstanding. -/
def State.samplesOut (s : State) : Nat :=
  (s.net.reqs.filter (fun r => !r.stale && (match r.who with | .sample _ => true | _ => false))).length

/-- A set's capture. -/
def State.snap (s : State) (k : Nat) : Option Snap := SMap.get s.record.snaps none k
/-- A set's capture replaced. -/
def State.setSnap (s : State) (k : Nat) (v : Option Snap) : State :=
  s.onRec (fun r => { r with snaps := SMap.set r.snaps none k v })

/-- The least element of a list. -/
def leastOf (l : List Nat) : Nat := l.foldl min (l.headD 0)

/-- Reads issued while fewer than eight are outstanding: snapshot reads in their order, then channel samples in ascending order. -/
def State.issueReads (s : State) (fuel : Nat) : State :=
  match fuel with
  | 0 => s
  | k + 1 =>
    if 8 ≤ s.samplesOut then s
    else match s.record.snapDue with
      | i :: t =>
        let a := match s.snap (i / 32) with | some x => x.addrs.getD (i % 32) 0 | none => 0
        ((s.onRec (fun r => { r with snapDue := t })).send islAon niAon 0 (.sample (64 + i)) (.ioRd a)).issueReads k
      | [] =>
        match s.record.due with
        | [] => s
        | d =>
          let n := leastOf d
          let s := s.onRec (fun r => { r with due := r.due.filter (· != n) })
          (s.send islAon niAon 0 (.sample n) (.ioRd (s.rf (Reg.REC_CH_SRC.ADDR n)))).issueReads k

/-- A channel's period expires (R357, R360). -/
def State.channelDue (s : State) (n : Nat) : State :=
  if s.rf (Reg.REC_CH_SRC.KIND n) ≠ 1 ∨ !s.on (Reg.REC_CH_SRC.EN n) ∨ s.on Reg.REC_STATUS.PWRFAIL then s
  else
    let s := if s.record.due.contains n then s.dropSample n else s.onRec (fun r => { r with due := r.due ++ [n] })
    s.issueReads 8

/-! ## Snapshots (R369, R370) -/

/-- Every value of a set has arrived: PENDING, or IDLE again where its record has been counted as lost (R366). -/
def State.snapReady (s : State) (k : Nat) : State :=
  match s.snap k with
  | none => s
  | some x =>
    if (List.range x.addrs.length).all (fun i => (SMap.get x.got none i).isSome) then
      (if x.lost then (s.setSnap k none).wf (Reg.REC_SNAP_CTL.STATE k) 0 else s.wf (Reg.REC_SNAP_CTL.STATE k) 2)
    else s

/-- Set k fires for the sources of `mask`. -/
def State.fireSet (s : State) (k mask : Nat) : State :=
  match s.snap k with
  | some x => s.setSnap k (some { x with merged := min 65535 (x.merged + 1) })
  | none =>
    let n := min 32 (s.rf (Reg.REC_SNAP_CTL.COUNT k))
    let x : Snap := ⟨s.stamp, mask, 0, (List.range n).map (fun i => s.rf (Reg.REC_SNAP_ADDR.ADDR k i)), [], false⟩
    let s := (s.setSnap k (some x)).nextRseq
    let s := (s.wf (Reg.REC_SNAP_CTL.STATE k) 1).incWrap (Reg.REC_SNAP_CTL.FIRED k)
    (s.onRec (fun r => { r with snapDue := r.snapDue ++ (List.range n).map (fun i => 32 * k + i) })).snapReady k

/-- The sources of set k among those that fired: source 6 of a set is 8 + k (R369). -/
def State.setMask (s : State) (k : Nat) (srcs : List Nat) : Nat :=
  let m := s.rf (Reg.REC_SNAP_CTL.TRIGMASK k)
  ((List.range 7).map (fun i =>
    if m / 2 ^ i % 2 = 1 ∧ srcs.contains (if i = 6 then 8 + k else i) then 2 ^ i else 0)).sum

/-- Sets from k on fire. -/
def State.fireSets (s : State) (srcs : List Nat) (k fuel : Nat) : State :=
  match fuel with
  | 0 => s
  | n + 1 => (if s.setMask k srcs = 0 then s else s.fireSet k (s.setMask k srcs)).fireSets srcs (k + 1) n

/-- A value of a snapshot, or the error of its read. -/
def State.snapValue (s : State) (i : Nat) (v : Option Word) : State :=
  match s.snap (i / 32) with
  | none => s
  | some x => (s.setSnap (i / 32) (some { x with got := SMap.set x.got none (i % 32) (some v) })).snapReady (i / 32)

/-- A sampled read returns, with its value or an error. -/
def State.sampled (s : State) (n : Nat) (v : Option Word) : State :=
  let s := if 64 ≤ n then s.snapValue (n - 64) v
    else match v with
      | none => s.dropSample n
      | some w => s.takeSample n (s.chField n w)
  s.issueReads 8

/-! ## Diarajan pages (R371 to R374) -/

/-- The 24-byte header of a record (R373). -/
def headBytes (kind len : Nat) (t : Stamp) : List (Nat × Nat) :=
  [(kind, 2), (len, 2), (t.cycles, 4), (t.opsec % 2 ^ 32, 4), (t.opsec / 2 ^ 32 % 256 + 256 * b2n t.slewing, 4), (t.sec, 4),
   (t.frac + 2 ^ 15 * b2n t.valid, 2), (t.rseq, 2)]

/-- An EVENT record: 40 bytes (R374). -/
def EvRec.bytes (e : EvRec) : Nat := pack (headBytes 2 40 e.stamp ++ [(e.code, 4), (e.a0, 4), (e.a1, 4), (e.a2, 4)])

/-- A SNAPSHOT record of set k: 36 + 8n bytes (R374). -/
def Snap.bytes (x : Snap) (k : Nat) : Nat :=
  let n := x.addrs.length
  let val := fun i => (SMap.get x.got none i).getD none
  let errs := ((List.range n).map (fun i => if (val i).isNone then 2 ^ i else 0)).sum
  pack (headBytes 1 (36 + 8 * n) x.stamp ++ [(k + 2 ^ 8 * x.cause + 2 ^ 16 * n, 4), (x.merged, 4), (errs, 4)] ++
    (List.range n).flatMap (fun i => [(x.addrs.getD i 0, 4), (((val i).elim 0 BitVec.toNat), 4)]))

/-- A record that waits: when it was made, its bytes, their number, and the set it is of. -/
structure Waiting where
  rseq : Nat
  body : Nat
  len : Nat
  set : Option Nat

/-- Records waiting, in order of creation: by their distance from the next RSEQ, which wraps (R373). -/
def State.waiting (s : State) : List Waiting :=
  let ev := s.record.events.map (fun e => (⟨e.stamp.rseq, e.bytes, 40, none⟩ : Waiting))
  let sn := (List.range 8).filterMap (fun k =>
    if s.rf (Reg.REC_SNAP_CTL.STATE k) = 2 then
      (s.snap k).map (fun x => (⟨x.stamp.rseq, x.bytes k, 36 + 8 * x.addrs.length, some k⟩ : Waiting)) else none)
  let age := fun (w : Waiting) => (s.record.rseq + 65535 - w.rseq) % 65536
  (ev ++ sn).mergeSort (fun a b => decide (age b ≤ age a))

/-- Records packed until the next does not fit. -/
def packRecords (ws : List Waiting) (room : Nat) : List Waiting :=
  match ws with
  | [] => []
  | w :: t => if w.len ≤ room then w :: packRecords t (room - w.len) else []

/-- The payload of a page (R372): 4,000 bytes. -/
def pagePayload (ws : List Waiting) : Nat :=
  let used := 16 + (ws.map Waiting.len).sum
  let recs := pack (ws.map (fun w => (w.body, w.len)))
  let head := pack [(0x4A44, 2), (1, 1), (ws.length, 1), (used, 4), ((ws.map Waiting.rseq).headD 0, 4)]
  let crc := crc32c (toBytes head 12 ++ toBytes recs (used - 16))
  pack [(head, 12), (crc, 4), (recs, used - 16), (256 ^ (4000 - used) - 1, 4000 - used)]

/-- A page formed and its APPEND requested, where records wait and none is in progress. -/
def State.appendPage (s : State) : State :=
  let ws := packRecords s.waiting 3984
  if s.record.page.isSome ∨ ws.isEmpty then s
  else
    let sets := ws.filterMap Waiting.set
    let s := s.onRec (fun r => { r with page := some (sets, ws.length - sets.length) })
    if s.on Reg.FLC_STATUS.PWRFAIL then s.onRec (fun r => { r with page := none })
    else s.flcRequest ⟨.recorder, .append (pagePayload ws) 0 0, 0⟩

/-- A page's APPEND ends: its records leave, or stay for the next page (R371). -/
def State.pageEnd (s : State) (ok : Bool) : State :=
  match s.record.page with
  | none => s
  | some (sets, n) =>
    let s := s.onRec (fun r => { r with page := none })
    if !ok then s
    else
      let s := s.onRec (fun r => { r with events := r.events.drop n })
      sets.foldl (fun s k => (s.setSnap k none).wf (Reg.REC_SNAP_CTL.STATE k) 0) s

/-- Records not yet appended, those of a page whose program is in progress apart, dropped and counted (R366; DEDUCED, log 56). -/
def State.loseWaiting (s : State) : State :=
  let busy : Bool := match s.flc.cur with | some j => j.who == .recorder | none => false
  let held := match s.record.page with | some p => if busy then p else ([], 0) | none => ([], 0)
  let sets := (List.range 8).filter (fun k => (match s.snap k with | some x => !x.lost | none => false) && !held.1.contains k)
  let n := s.record.events.length - held.2 + sets.length
  let s := s.onRec (fun r => { r with events := r.events.take held.2 })
  (sets.foldl (fun s k =>
    (s.onRec (fun r => { r with snaps := SMap.set r.snaps none k ((s.snap k).map (fun x => { x with lost := true })) })).snapReady k) s).loseRecords n

/-! ## Flushes (R365, R376) -/

/-- A flush: TIMEBASE, the channels that changed, the ledger if it changed, with an entry where LOST has grown; one more after it where one
is in progress. -/
def State.flush (s : State) : State :=
  if s.on Reg.REC_STATUS.FLUSHING then s.onRec (fun r => { r with again := true })
  else
    let s := if s.record.lostNoted < s.record.lost then
        (s.ledgerNote 3 (s.record.lost - s.record.lostNoted) 0).onRec (fun r => { r with lostNoted := r.lost })
      else s
    let ids := [2] ++ (s.record.dirty.mergeSort (· ≤ ·)).map (0x200 + ·) ++ (if s.record.dirtyLedger then [0x300] else [])
    (((s.vaultFlush ids).wf Reg.REC_STATUS.FLUSHING 1).onRec (fun r => { r with flush := ids })).vaultBegin

/-- A record of the flush is written. After the flush of PWRFAIL_N the records not yet appended are lost (R366). -/
def State.flushed (s : State) (id : Nat) : State :=
  if !s.on Reg.REC_STATUS.FLUSHING then s
  else
    let s := s.onRec (fun r => { r with flush := r.flush.erase id })
    if !s.record.flush.isEmpty then s
    else
      let s := (s.wf Reg.REC_STATUS.FLUSHING 0).incWrap Reg.REC_FLUSH.COUNT
      if s.record.again then (s.onRec (fun r => { r with again := false })).flush
      else if s.record.losing then (s.onRec (fun r => { r with losing := false })).loseWaiting
      else s

/-! ## Configuration (R363, R364, R368, R369) -/

/-- A positive value within the limits of R359: at least 1, or positive and finite. -/
def limitOk (vt v : Nat) : Bool :=
  match valueOf vt 32 v with
  | none => false
  | some x => decide (0 < x) && (vt != 2 || decide (x < 2 ^ 400))

/-- Whether a channel's five words are in range (R363): `ws` SRC, RATE, OFS, WID. -/
def chanInRange (src rate ofs wid : Word) : Bool :=
  let vt := getBits src 18 2
  let kind := getBits src 16 2
  let lsb := getBits src 20 5
  let w := getBits src 25 5
  let p := getBits rate 0 14
  kind != 3 && (kind != 1 || decide (0x100 ≤ getBits src 0 16)) && decide (lsb + w ≤ 31) && vt != 3 &&
  (vt != 2 || (lsb == 0 && w == 31)) && decide (1 ≤ p) && decide (p ≤ 10000) && decide (getBits rate 17 3 ≤ 5) &&
  limitOk vt wid.toNat && (getBits rate 16 1 == 0 || limitOk vt ofs.toNat)

/-- Whether a write of register `i` of a channel changes a mapping field. -/
def mapChange (i : Nat) (old v : Word) : Bool :=
  if i = 0 then getBits old 0 30 != getBits v 0 30
  else if i = 1 then getBits old 16 4 != getBits v 16 4
  else old != v

/-- REC_CH_ register `i` of channel n written (R363). -/
def State.writeChan (s : State) (src : Src) (n i : Nat) (v : Word) : WRes :=
  let a := Reg.REC_CH_SRC_at n + i
  let w := fun j => if j = i then v else s.reg (Reg.REC_CH_SRC_at n + j)
  match s.gate src with
  | some r => r
  | none =>
    if (s.chan n).taken ≠ 0 ∧ mapChange i (s.reg a) v then s.refused recRefuse 2
    else if !chanInRange (w 0) (w 1) (w 2) (w 3) then s.refused recRefuse 1
    else
      let s := s.writeReg .all a v
      let s := if s.on (Reg.REC_CH_SRC.EN n) then s else s.onRec (fun r => { r with due := r.due.filter (· != n) })
      .ok (((s.vaultQueue (0x100 + n)).evRecord 4 a v.toNat).vaultBegin)

/-- REC_PUSH_n written (R364). -/
def State.writePush (s : State) (src : Src) (n : Nat) (v : Word) : WRes :=
  if src = .fobex then s.refused recRefuse 4
  else if s.rf (Reg.REC_CH_SRC.KIND n) ≠ 2 ∨ !s.on (Reg.REC_CH_SRC.EN n) ∨ s.on Reg.REC_STATUS.PWRFAIL then
    .ok (s.incSat Reg.REC_PUSH_IGN.COUNT)
  else .ok (s.takeSample n (s.chField n v))

/-- REC_SNAP_ registers of set k written (R369). -/
def State.writeSnap (s : State) (src : Src) (k a : Nat) (v : Word) : WRes :=
  match s.gate src with
  | some r => r
  | none =>
    let r := s.writeBut .all recRefuse 1 1 a v (if a = Reg.REC_SNAP_CTL_at k ∧ 32 < getBits v 8 6 then [Reg.REC_SNAP_CTL.COUNT k] else [])
    ⟨(r.st.vaultQueue (0x10 + k)).vaultBegin, r.code⟩

/-- Channels `n` to `n + fuel` cleared. -/
def State.clearChans (s : State) (n fuel : Nat) : State :=
  match fuel with
  | 0 => s
  | k + 1 =>
    let c := s.chan n
    ((s.dirtyChan n { Chan.zero with recovered := c.recovered }).vaultQueue (0x200 + n)).clearChans (n + 1) k

/-- A history clear (R368). -/
def State.clearHistory (s : State) (v : Word) : State :=
  let first := getBits v 0 6
  let last := getBits v 8 6
  let s := if getBits v 16 1 = 1 then s.clearChans first (last + 1 - first) else s
  let s := if getBits v 17 1 = 1 then
      (s.onRec (fun r => { r with total := 0, next := 0, ledger := [], dirtyLedger := true })).vaultQueue 0x300 else s
  let s := s.onRec (fun r => { r with histClears := min (2 ^ 32 - 1) (r.histClears + 1) })
  ((s.vaultQueue 2).evRecord 5 v.toNat).vaultBegin

/-- REC_CLEAR written (R368, R378): presence, then the seal, PWRFAIL, RANGE. -/
def State.writeClear (s : State) (src : Src) (v : Word) : WRes :=
  let p := s.permit src true
  if !p.presOk then ⟨s.refuse recRefuse 5, 1⟩
  else if !p.sealOk then ⟨s.refuse recRefuse 6, 2⟩
  else if s.on Reg.REC_STATUS.PWRFAIL then s.refused recRefuse 3
  else if getBits v 8 6 < getBits v 0 6 then s.refused recRefuse 1
  else
    let s := s.writeReg .all Reg.REC_CLEAR_at (putBits v 31 1 0)
    .ok (if getBits v 31 1 = 1 then s.clearHistory v else s)

/-- The words REC_CH_DATA shows of a channel. -/
def State.chanWords (s : State) (n : Nat) : List Word :=
  let c := s.chan n
  let lo := fun (v : Nat) => BitVec.ofNat 32 v
  let hi := fun (v : Nat) => BitVec.ofNat 32 (v / 2 ^ 32)
  let ext := fun (e : Option Ext) => match e with
    | none => [(0 : Word), 0, 0]
    | some x => [x.v, lo x.opsec, BitVec.ofNat 32 (x.opsec / 2 ^ 32 + 256)]
  [lo c.taken, hi c.taken, lo c.dropped, hi c.dropped, lo c.tat, hi c.tat] ++ ext c.mn ++ ext c.mx ++
    [lo (c.mn.elim 0 Ext.sec), lo (c.mx.elim 0 Ext.sec)]

/-- REC_HIST_SEL written: the bin's count latched (R365). -/
def State.writeHistSel (s : State) (v : Word) : State :=
  let s := s.writeReg .all Reg.REC_HIST_SEL_at v
  s.onRec (fun r => { r with bin := SMap.get (s.chan (getBits v 0 6)).bins 0 (getBits v 8 8) })
/-- REC_CH_SEL written: the channel's words latched. -/
def State.writeChSel (s : State) (v : Word) : State :=
  let s := s.writeReg .all Reg.REC_CH_SEL_at v
  s.onRec (fun r => { r with chan := s.chanWords (getBits v 0 6) })

/-- A register of 0x3800 to 0x3CFF written. -/
def State.writeRec (s : State) (src : Src) (a : Nat) (v : Word) : WRes :=
  if a = Reg.REC_CFG_at then
    (match s.gate src with
     | some r => r
     | none =>
       if getBits v 0 10 = 0 ∨ 600 < getBits v 0 10 then s.refused recRefuse 1
       else .ok (((s.writeReg .all a v).vaultQueue 5).vaultBegin))
  else if a = Reg.REC_FLUSH_at then .ok (if getBits v 0 1 = 1 then s.flush else s)
  else if a = Reg.REC_HIST_SEL_at then .ok (s.writeHistSel v)
  else if a = Reg.REC_CH_SEL_at then .ok (s.writeChSel v)
  else if a = Reg.REC_LEDGER_SEL_at then .ok (s.setReg a (BitVec.ofNat 32 (getBits v 0 9)))
  else if a = Reg.REC_CLEAR_at then s.writeClear src v
  else if a = Reg.REC_SNAP_FIRE_at then
    (if src = .fobex then s.refused recRefuse 4
     else .ok ((List.range 8).foldl (fun s k => if getBits v k 1 = 1 then { s with trigs := s.trigs ++ [8 + k] } else s) s))
  else if 0x3900 ≤ a ∧ a < 0x3B00 then
    (let n := (a - 0x3900) / 8
     let i := (a - 0x3900) % 8
     if i < 5 then s.writeChan src n i v else if i = 5 then s.writePush src n v else .ok s)
  else if 0x3B00 ≤ a ∧ a < 0x3D00 then
    (match regRow a with
     | some _ => s.writeSnap src ((a - 0x3B00) / 0x40) a v
     | none => .ok s)
  else .ok (s.writeReg .all a v)

/-! ## Calendar time (R354 to R356) -/

/-- RTC_SLEW written (R355). -/
def State.writeSlew (s : State) (src : Src) (v : Word) : WRes :=
  let n := sInt 32 v.toNat
  if s.on Reg.RTC_STATUS.SLEWING then s.refused recRefuse 3
  else if 327680 < n.natAbs then s.refused recRefuse 1
  else
    let s := { s with rtc := { s.rtc with slew := n, sub := 0 } }
    let s := s.wf Reg.RTC_STATUS.SLEWING (b2n (n != 0))
    .ok (s.evRecord 3 v.toNat (if src = .fobex then 1 else 0))

/-- A step of calendar time (R356). -/
def State.stepCalendar (s : State) (sec frac : Nat) : State :=
  let old := s.calSec
  let s := { s with rtc := { s.rtc with cal := sec * 2 ^ 15 + frac, slew := 0, sub := 0 } }
  let s := (s.wf Reg.RTC_STATUS.VALID 1).wf Reg.RTC_STATUS.SLEWING 0
  s.evRecord 2 old sec frac

/-- RTC_SET_SEC or RTC_SET_FRAC written (R356). -/
def State.writeRtcSet (s : State) (src : Src) (a : Nat) (v : Word) : WRes :=
  match s.gate src with
  | some r => r
  | none =>
    let s := s.writeReg .all a (if a = Reg.RTC_SET_FRAC_at then putBits v 31 1 0 else v)
    .ok (if a = Reg.RTC_SET_FRAC_at ∧ getBits v 31 1 = 1 then s.stepCalendar (s.rf Reg.RTC_SET_SEC.VALUE) (getBits v 0 15) else s)

/-- Registers 0x4020 to 0x402D written. -/
def State.writeAon (s : State) (src : Src) (a : Nat) (v : Word) : WRes :=
  if a = Reg.RTC_SLEW_at then s.writeSlew src v
  else if a = Reg.RTC_SET_SEC_at ∨ a = Reg.RTC_SET_FRAC_at then s.writeRtcSet src a v
  else .ok (s.writeReg .all a v)

/-! ## Reads -/

/-- REC_LEDGER_DATA as read. -/
def State.ledgerView (s : State) : Word :=
  let e := s.rf Reg.REC_LEDGER_SEL.ENTRY
  let w := s.rf Reg.REC_LEDGER_SEL.WORD
  if e = 63 ∧ w = 3 ∧ getBits (s.reg Reg.REC_LEDGER_SEL_at) 8 1 = 1 then BitVec.ofNat 32 s.record.total
  else BitVec.ofNat 32 (bytesAt (entBytes (SMap.get s.record.ledger none e)) (4 * w) 4)

/-- The recorder's and the RTC's read-only registers as they show the shadows. -/
def State.recView (s : State) (a : Nat) : Word :=
  if a = Reg.REC_OPSEC_LO_at then BitVec.ofNat 32 s.record.opsec
  else if a = Reg.REC_OPSEC_HI_at then BitVec.ofNat 32 (s.record.opHi % 256)
  else if a = Reg.REC_PWRCYC_at then BitVec.ofNat 32 s.record.cycles
  else if a = Reg.REC_RESETS_at then BitVec.ofNat 32 s.record.resets
  else if a = Reg.REC_HIST_LO_at then BitVec.ofNat 32 s.record.bin
  else if a = Reg.REC_HIST_HI_at then BitVec.ofNat 32 (s.record.bin / 2 ^ 32 % 2 ^ 16)
  else if a = Reg.REC_CH_DATA_at then s.record.chan.getD (s.rf Reg.REC_CH_SEL.WORD) 0
  else if a = Reg.REC_LEDGER_DATA_at then s.ledgerView
  else if a = Reg.RTC_SEC_at then BitVec.ofNat 32 s.calSec
  else if a = Reg.RTC_FRAC_at then BitVec.ofNat 32 s.rtc.frac
  else if a = Reg.RTC_SLEW_at then BitVec.ofNat 32 (uNat 32 s.rtc.slew)
  else if a = Reg.AON_LED_at then putBits (s.reg a) 8 3 s.blinkCode
  else s.reg a

/-- What a read of these registers latches (R352, R354). -/
def State.recRead (s : State) (a : Nat) : State :=
  if a = Reg.REC_OPSEC_LO_at then s.onRec (fun r => { r with opHi := r.opsec / 2 ^ 32 })
  else if a = Reg.RTC_SEC_at then { s with rtc := { s.rtc with frac := s.calFrac } }
  else s

end Sys2Proof.Machine
end

