-- ==== Sys2Proof/Machine/Panel.lean ====
section
/-!
DEFINITION. The panel (spec/20): enable and first baseline, scans and what each does to a key, the saved reference, and its registers.

Choices and readings of this file: log 88, 95.
-/

namespace Sys2Proof.Machine

/-- Refusals of R501. -/
def pnlRefuse : RefuseAt :=
  ⟨Reg.PNL_STATUS.REFUSED, some Reg.PNL_STATUS.REASON, some (Reg.PNL_EVCFG.REFUSE_EVENT, Reg.PNL_EVCFG.REFUSE_EN)⟩

/-- A key. -/
def State.key (s : State) (k : Nat) : Key := SMap.get s.panel.keys Key.zero k
/-- A key replaced. -/
def State.setPnlKey (s : State) (k : Nat) (v : Key) : State :=
  { s with panel := { s.panel with keys := SMap.set s.panel.keys Key.zero k v } }

/-- TOUCHED of a key changed: KEY_EVENT (R495). -/
def State.setTouched (s : State) (k : Nat) (v : Bool) : State :=
  if s.bit Reg.PNL_KEYS.TOUCHED k = v then s
  else (s.setBit Reg.PNL_KEYS.TOUCHED k v).raiseIf Reg.PNL_EVCFG.KEY_EVENT Reg.PNL_EVCFG.KEY_EN

/-- FLAG_EVENT. -/
def State.flagEvent (s : State) : State := s.raiseIf Reg.PNL_EVCFG.FLAG_EVENT Reg.PNL_EVCFG.FLAG_EN

/-- |count − reference|. -/
def dist (a b : Nat) : Nat := (a - b) + (b - a)

/-- A REBASE bit acting on this scan (R499). -/
def State.rebaseKey (s : State) (k c : Nat) : State :=
  let s := (s.wf (Reg.PNL_COUNT.BASELINE k) c).setBit Reg.PNL_KEYS.SUSPECT k false
  ((s.setBit Reg.PNL_STUCK.STUCK k false).setTouched k false).setPnlKey k { Key.zero with sum := (s.key k).sum }

/-- A count of the first baseline; at the sixteenth, the baseline and the SUSPECT check (R493, R494). -/
def State.initKey (s : State) (k n c : Nat) : State :=
  let sum := (s.key k).sum + c
  if n < 16 then s.setPnlKey k { s.key k with sum := sum }
  else
    let s := (s.wf (Reg.PNL_COUNT.BASELINE k) (sum / 16)).setPnlKey k Key.zero
    if !s.on Reg.PNL_STATUS.NOREF ∧ s.rf Reg.PNL_STUCK_THRESH.THRESH < dist (sum / 16) (s.rf (Reg.PNL_REF.REF k)) then
      (s.setBit Reg.PNL_KEYS.SUSPECT k true).flagEvent
    else s

/-- A SUSPECT key (R494): `n` scans since EN became 1. -/
def State.suspectKey (s : State) (k n c : Nat) : State :=
  let near := if dist c (s.rf (Reg.PNL_REF.REF k)) ≤ s.rf Reg.PNL_STUCK_THRESH.NEAR then (s.key k).near + 1 else 0
  if 5 ≤ near ∨ 16 + 100 * s.rf Reg.PNL_TIME.SUSPECT_S ≤ n then
    ((s.setBit Reg.PNL_KEYS.SUSPECT k false).wf (Reg.PNL_COUNT.BASELINE k) c).setPnlKey k Key.zero
  else s.setPnlKey k { s.key k with near := near }

/-- Delta of a key at this count. -/
def State.delta (s : State) (k c : Nat) : Int := (c : Int) - (s.rf (Reg.PNL_COUNT.BASELINE k) : Nat)

/-- R498: five scans at or below −NEG. -/
def State.recoverKey (s : State) (k c : Nat) : State :=
  let neg := if s.delta k c ≤ -(s.rf Reg.PNL_THR.NEG : Nat) then (s.key k).neg + 1 else 0
  if 5 ≤ neg then
    ((s.wf (Reg.PNL_COUNT.BASELINE k) c).setBit Reg.PNL_STUCK.STUCK k false).setPnlKey k { s.key k with neg := 0 }
  else s.setPnlKey k { s.key k with neg := neg }

/-- R495: touch and release. -/
def State.judgeKey (s : State) (k c : Nat) : State :=
  let d := s.delta k c
  let up := if (s.rf Reg.PNL_THR.ON : Nat) ≤ d then (s.key k).up + 1 else 0
  let down := if d < (s.rf Reg.PNL_THR.OFF : Nat) then (s.key k).down + 1 else 0
  let s := s.setPnlKey k { s.key k with up := up, down := down }
  if s.bit Reg.PNL_KEYS.TOUCHED k then (if 2 ≤ down then s.setTouched k false else s)
  else if 2 ≤ up then s.setTouched k true
  else s

/-- R497: touched for 100 × MAXON_S scans. -/
def State.maxOnKey (s : State) (k c : Nat) : State :=
  let held := if s.bit Reg.PNL_KEYS.TOUCHED k then (s.key k).held + 1 else 0
  if 100 * s.rf Reg.PNL_TIME.MAXON_S ≤ held then
    let s := s.setTouched k false
    let s := (s.setBit Reg.PNL_STUCK.STUCK k true).setBit Reg.PNL_STUCK.STUCK_SEEN k true
    (s.flagEvent.wf (Reg.PNL_COUNT.BASELINE k) c).setPnlKey k { s.key k with held := 0, up := 0 }
  else s.setPnlKey k { s.key k with held := held }

/-- R496: the baseline moves one count every 2^TRACK scans, counted from EN (DEDUCED, log 88). -/
def State.trackKey (s : State) (k n c : Nat) : State :=
  let b := s.rf (Reg.PNL_COUNT.BASELINE k)
  if s.bit Reg.PNL_KEYS.TOUCHED k ∨ s.rf Reg.PNL_THR.OFF ≤ dist c b ∨ n % 2 ^ s.rf Reg.PNL_CTL.TRACK ≠ 0 ∨ c = b then s
  else s.wf (Reg.PNL_COUNT.BASELINE k) (if b < c then b + 1 else b - 1)

/-- Key k in scan n, with its count (R499). -/
def State.scanKey (s : State) (k n c : Nat) : State :=
  let c := min 0xFFFF c
  let s := s.wf (Reg.PNL_COUNT.COUNT k) c
  let again := s.panel.rebase / 2 ^ k % 2 = 1
  let s := if again then s.rebaseKey k c else s
  if n ≤ 16 then s.initKey k n c
  else if again then s
  else if s.bit Reg.PNL_KEYS.SUSPECT k then s.suspectKey k n c
  else ((((s.recoverKey k c).judgeKey k c).maxOnKey k c).trackKey k n c)

/-- Keys from k on. -/
def State.scanKeys (s : State) (n k : Nat) (cs : List Nat) : State :=
  match cs with
  | [] => s
  | c :: t => (s.scanKey k n c).scanKeys n (k + 1) t

/-- A scan. -/
def State.scan (s : State) (cs : List Nat) : State :=
  let n := s.panel.scans + 1
  let s := s.scanKeys n 0 (cs.take 12)
  let s := { s with panel := { s.panel with scans := n, rebase := 0 } }
  if n = 16 then s.wf Reg.PNL_STATUS.INIT 0 else s

/-- EN became 1 (R493). -/
def State.panelOn (s : State) : State :=
  let s := { s with panel := Panel.reset }
  let s := (s.wf Reg.PNL_STATUS.INIT 1).wf Reg.PNL_KEYS.SUSPECT 0
  match s.vaultRead 4 with
  | none => s.wf Reg.PNL_STATUS.NOREF 1
  | some w =>
    let s := (List.range 12).foldl (fun s k => s.wf (Reg.PNL_REF.REF k) (bytesAt w (4 + 2 * k) 2)) s
    s.wf Reg.PNL_STATUS.NOREF (1 - bytesAt w 0 1 % 2)

/-- EN became 0: every key reads untouched (R492). -/
def State.panelOff (s : State) : State :=
  ((List.range 12).foldl (fun s k => s.setTouched k false) s).wf Reg.PNL_STATUS.INIT 0

/-- Whether the reference may be saved (R500). -/
def State.refSavable (s : State) : Bool :=
  s.on Reg.PNL_CTL.EN && !s.on Reg.PNL_STATUS.INIT && s.rf Reg.PNL_KEYS.TOUCHED == 0 && s.rf Reg.PNL_KEYS.SUSPECT == 0 &&
    s.rf Reg.PNL_STUCK.STUCK == 0

/-- PNL_CTL written. -/
def State.writePnlCtl (s : State) (src : Src) (v : Word) : WRes :=
  let was := s.on Reg.PNL_CTL.EN
  let r := s.writeOr (s.permit src (!s.on Reg.PNL_CTL.LOCK)) pnlRefuse 3 Reg.PNL_CTL_at (putBits (putBits v 2 1 0) 16 12 0)
  let s := r.st
  let s := if !was && s.on Reg.PNL_CTL.EN then s.panelOn else if was && !s.on Reg.PNL_CTL.EN then s.panelOff else s
  let s := { s with panel := { s.panel with rebase := s.panel.rebase ||| getBits v 16 12 } }
  if getBits v 2 1 = 0 then ⟨s, r.code⟩
  else if s.refSavable then ⟨(s.vaultQueue 4).vaultBegin, r.code⟩
  else s.refused pnlRefuse 2

/-- A register of the panel written (R501). -/
def State.writePnl (s : State) (src : Src) (a : Nat) (v : Word) : WRes :=
  if a = Reg.PNL_CTL_at then s.writePnlCtl src v
  else
    let p := s.permit src (!s.on Reg.PNL_CTL.LOCK)
    s.writeBut p pnlRefuse 3 1 a v
      (if a = Reg.PNL_THR_at then
        (if getBits v 0 10 ≤ getBits v 10 10 ∨ getBits v 10 10 = 0 then [Reg.PNL_THR.ON, Reg.PNL_THR.OFF] else []) ++
          (if getBits v 20 10 = 0 then [Reg.PNL_THR.NEG] else [])
       else if a = Reg.PNL_TIME_at then
        (if getBits v 0 10 = 0 ∨ 600 < getBits v 0 10 then [Reg.PNL_TIME.MAXON_S] else []) ++
          (if getBits v 16 10 = 0 ∨ 600 < getBits v 16 10 then [Reg.PNL_TIME.SUSPECT_S] else [])
       else [])

/-! ## Commands -/

/-- PANEL_ENABLE (R493): a write of PNL_CTL with EN 1. -/
def execPanelEnable (src : Src) (v : Word) (s : State) : Host.Outcome State Fault Refusal :=
  if s.online islPanel then .next (s.writePnl src Reg.PNL_CTL_at (putBits v 0 1 1)).st else .next s

/-- PANEL_SCAN (R492 to R499): the counts of the twelve keys. -/
def execPanelScan (counts : List Nat) (s : State) : Host.Outcome State Fault Refusal :=
  if s.online islPanel && s.on Reg.PNL_CTL.EN then .next (s.scan counts) else .next s

/-- SAVE_REF (R500): a write of PNL_CTL with SAVE_REF 1. -/
def execSaveRef (src : Src) (v : Word) (s : State) : Host.Outcome State Fault Refusal :=
  if s.online islPanel then .next (s.writePnl src Reg.PNL_CTL_at (putBits v 2 1 1)).st else .next s

/-- REBASE (R499): a write of PNL_CTL with the REBASE bits `mask`. -/
def execRebase (src : Src) (mask : BitVec 12) (v : Word) (s : State) : Host.Outcome State Fault Refusal :=
  if s.online islPanel then .next (s.writePnl src Reg.PNL_CTL_at (putBits v 16 12 mask.toNat)).st else .next s

end Sys2Proof.Machine
end

