-- ==== Sys2Proof/Machine/Mac.lean ====
section
/-!
DEFINITION. The MACs (spec/19): addresses, frames and their transmission, links, ARP, ICMP, DHCP, UDP and the firmware queues.

Choices and readings of this file: log 78, 79, 81, 82.
-/

namespace Sys2Proof.Machine

/-- Refusals of Table fsv-11. -/
def ethRefuse : RefuseAt :=
  ⟨Reg.ETH_STATUS.REFUSED, some Reg.ETH_STATUS.REASON, some (Reg.ETH_EVCFG.REFUSE_EVENT, Reg.ETH_EVCFG.REFUSE_EN)⟩

/-- A MAC beside its registers. -/
def State.mac (s : State) (m : Nat) : Mac := SMap.get s.eth.macs Mac.reset m
/-- A MAC replaced. -/
def State.setMac (s : State) (m : Nat) (v : Mac) : State :=
  { s with eth := { s.eth with macs := SMap.set s.eth.macs Mac.reset m v } }
/-- A change of a MAC. -/
def State.onMac (s : State) (m : Nat) (f : Mac → Mac) : State := s.setMac m (f (s.mac m))
/-- A change of the service port beside the MACs. -/
def State.onEth (s : State) (f : Eth → Eth) : State := { s with eth := f s.eth }

/-- A counter of Table fsv-2, which saturates. -/
def State.drop (s : State) (m code : Nat) : State :=
  s.onMac m (fun x => { x with drops := SMap.set x.drops 0 code (min (2 ^ 32 - 1) (SMap.get x.drops 0 code + 1)) })

/-- LINK_EVENT. -/
def State.linkEvent (s : State) : State := s.raiseIf Reg.ETH_EVCFG.LINK_EVENT Reg.ETH_EVCFG.LINK_EN

/-- The address of a MAC (R467), octet 0 most significant. -/
def macAddr (m : Nat) : Nat := (Config.factoryMac.toNat + m) % 2 ^ 48
/-- The broadcast address. -/
def hwAll : Nat := 2 ^ 48 - 1
/-- 255.255.255.255. -/
def ipAll : Nat := 2 ^ 32 - 1

/-- The MAC's IPv4 address, 0 where it has none (R475). -/
def State.ipAddr (s : State) (m : Nat) : Nat := if s.rf (Reg.ETH_IPCFG.MODE m) = 0 then 0 else s.rf (Reg.ETH_IPADDR.VALUE m)
/-- Its subnet-directed broadcast address. -/
def State.ipSubAll (s : State) (m : Nat) : Nat := s.ipAddr m ||| (s.rf (Reg.ETH_NETMASK.VALUE m) ^^^ ipAll)

/-! ## Frames -/

/-- Bytes as stored. -/
def octetsOf (ns : List Nat) : List Byte := ns.map (BitVec.ofNat 8)
/-- Bytes as numbers. -/
def natsOf (bs : List Byte) : List Nat := bs.map BitVec.toNat

/-- A slice of a byte string. -/
def slice (bs : List Nat) (off n : Nat) : List Nat := (bs.drop off).take n
/-- A big-endian field. -/
def beAt (bs : List Nat) (off n : Nat) : Nat := beNat (slice bs off n)

/-- The Internet checksum of a byte string: the ones' complement of the ones' complement sum of its 16-bit words. -/
def csum16 (bs : List Nat) : Nat :=
  let rec sum : List Nat → Nat
    | a :: b :: t => 256 * a + b + sum t
    | [a] => 256 * a
    | [] => 0
  let x := sum bs
  0xFFFF - (if x = 0 then 0 else (x - 1) % 0xFFFF + 1)

/-- An Ethernet header, with one tag when VEN is 1 (R469). -/
def State.etherHead (s : State) (m dst type : Nat) : List Nat :=
  let tag := if s.on (Reg.ETH_VLAN.VEN m) then
      [0x81, 0] ++ toBe (s.rf (Reg.ETH_VLAN.PCP m) * 2 ^ 13 + s.rf (Reg.ETH_VLAN.VID m)) 2 else []
  toBe dst 6 ++ toBe (macAddr m) 6 ++ tag ++ toBe type 2

/-- Whether a MAC may send: link up and not paused. -/
def State.canSend (s : State) (m : Nat) : Bool := s.on (Reg.ETH_LINK.UP m) && !s.on (Reg.ETH_LINK.PAUSED m)

/-- The first frame of a class. -/
def firstOf (q : List TxFrame) (c : Nat) : Option TxFrame := q.find? (fun f => f.cls == c)
/-- The first frame equal to `f` removed. -/
def dropFrame (q : List TxFrame) (f : TxFrame) : List TxFrame :=
  match q with
  | [] => []
  | h :: t => if h = f then t else h :: dropFrame t f

/-- The next frame starts (R470: by class, in order). -/
def State.txNext (s : State) (m : Nat) : State :=
  let x := s.mac m
  if x.sending.isSome || !s.canSend m then s
  else
    match (List.range 4).findSome? (firstOf x.txq) with
    | some f => s.setMac m { x with txq := dropFrame x.txq f, sending := some f }
    | none => s

/-- A frame queued for transmission. -/
def State.txFrame (s : State) (m cls stream : Nat) (bs : List Nat) : State :=
  (s.onMac m (fun x => { x with txq := x.txq ++ [⟨cls, stream, octetsOf bs⟩] })).txNext m

/-- An IPv4 packet queued (R471): no options, TOS 0, TTL 64, DF, an incrementing identification. -/
def State.txIp (s : State) (m cls stream hw src dst proto : Nat) (pl : List Nat) : State :=
  let id := (s.mac m).ident
  let h := fun (c : Nat) =>
    [0x45, 0] ++ toBe (20 + pl.length) 2 ++ toBe id 2 ++ [0x40, 0, 64, proto] ++ toBe c 2 ++ toBe src 4 ++ toBe dst 4
  let s := s.onMac m (fun x => { x with ident := (id + 1) % 2 ^ 16 })
  s.txFrame m cls stream (s.etherHead m hw 0x0800 ++ h (csum16 (h 0)) ++ pl)

/-- The UDP checksum over the pseudo-header; 0 is sent as 0xFFFF. -/
def udpSum (src dst : Nat) (u : List Nat) : Nat := csum16 (toBe src 4 ++ toBe dst 4 ++ [0, 17] ++ toBe u.length 2 ++ u)

/-- A UDP datagram queued (R474: the checksum is always computed). -/
def State.txUdp (s : State) (m cls stream hw src dst sport dport : Nat) (pl : List Nat) : State :=
  let u := fun (c : Nat) => toBe sport 2 ++ toBe dport 2 ++ toBe (8 + pl.length) 2 ++ toBe c 2 ++ pl
  let c := udpSum src dst (u 0)
  s.txIp m cls stream hw src dst 17 (u (if c = 0 then 0xFFFF else c))

/-! ## ARP (R472) -/

/-- An ARP frame: operation, target MAC address field and IP address, to `hw`. -/
def State.txArp (s : State) (m op hw thw tip : Nat) : State :=
  s.txFrame m 0 0 (s.etherHead m hw 0x0806 ++ [0, 1, 8, 0, 6, 4] ++ toBe op 2 ++ toBe (macAddr m) 6 ++ toBe (s.ipAddr m) 4 ++
    toBe thw 6 ++ toBe tip 4)

/-- A gratuitous request, as an address becomes configured or bound. -/
def State.gratuitous (s : State) (m : Nat) : State := if s.ipAddr m = 0 then s else s.txArp m 1 hwAll 0 (s.ipAddr m)

/-- The cache's answer for an address, which becomes the most recently used. -/
def State.arpLook (s : State) (m ip : Nat) : Option Nat × State :=
  let x := s.mac m
  match x.arp.find? (fun e => e.ip == ip) with
  | none => (none, s)
  | some e => (some e.hw, s.setMac m { x with arp := e :: x.arp.filter (fun y => y.ip != ip) })

/-- An entry learned; the least recently used of eight leaves. -/
def State.arpLearn (s : State) (m ip hw : Nat) : State :=
  s.onMac m (fun x => { x with arp := (⟨ip, hw⟩ :: x.arp.filter (fun y => y.ip != ip)).take 8 })

/-- A firmware datagram sent. -/
def State.sendFw (s : State) (f : FwOut) (hw : Nat) : State :=
  s.txUdp f.mac 2 0 hw (s.ipAddr f.mac) f.ip f.sport f.dport (natsOf f.data)

/-- Unresolved datagrams whose address has been learned are sent. -/
def State.arpFlush (s : State) (m ip hw : Nat) : State :=
  let go := s.eth.ftx.filter (fun f => f.mac == m && f.hop == ip)
  let s := s.onEth (fun x => { x with ftx := x.ftx.filter (fun f => !(f.mac == m && f.hop == ip)) })
  go.foldl (fun s f => s.sendFw f hw) s

/-- An ARP frame received: requests for the own address answered, replies learned, everything else ignored. -/
def State.rxArp (s : State) (m : Nat) (p : List Nat) : State :=
  let op := beAt p 6 2
  let shw := beAt p 8 6
  let sip := beAt p 14 4
  let fmt := slice p 0 6 = [0, 1, 8, 0, 6, 4] ∧ 28 ≤ p.length
  if s.rf (Reg.ETH_IPCFG.MODE m) = 0 ∨ ¬ fmt then s
  else if op = 1 ∧ beAt p 24 4 = s.ipAddr m ∧ s.ipAddr m ≠ 0 then s.txArp m 2 shw shw sip
  else if op = 2 then (s.arpLearn m sip shw).arpFlush m sip shw
  else s

/-- An ARP retry: another request, none while the MAC's mode is OFF (R475), or after three the datagram discarded. -/
def State.arpRetry (s : State) (i : Nat) : State :=
  match s.eth.ftx[i]? with
  | none => s
  | some f =>
    if 3 ≤ f.tries then (s.onEth (fun x => { x with ftx := x.ftx.eraseIdx i })).drop f.mac 0x14
    else
      let s := s.onEth (fun x => { x with ftx := x.ftx.set i { f with tries := f.tries + 1 } })
      if s.rf (Reg.ETH_IPCFG.MODE f.mac) = 0 then s else s.txArp f.mac 1 hwAll 0 f.hop

/-! ## ICMP (R473) -/

/-- An ICMP message received. -/
def State.rxIcmp (s : State) (m hw src : Nat) (bcast : Bool) (p : List Nat) : State :=
  if bcast ∨ slice p 0 2 ≠ [8, 0] ∨ 1480 < p.length then s.drop m 0x0B
  else
    let body := p.drop 4
    let c := csum16 ([0, 0, 0, 0] ++ body)
    s.txIp m 0 0 hw (s.ipAddr m) src 1 ([0, 0] ++ toBe c 2 ++ body)

/-! ## DHCP (R475, Table fsv-3) -/

/-- ETH_DHCP.STATE changed. -/
def State.dhcpState (s : State) (m st : Nat) : State := (s.wf (Reg.ETH_DHCP.STATE m) st).linkEvent
/-- A change of the client. -/
def State.onDhcp (s : State) (m : Nat) (f : Dhcp → Dhcp) : State := s.onMac m (fun x => { x with dhcp := f x.dhcp })

/-- A client message: broadcast with the flag while it has no address; `opts`: its options after 53. -/
def State.txDhcp (s : State) (m ty : Nat) (bcast : Bool) (opts : List Nat) : State :=
  let d := (s.mac m).dhcp
  let own := s.ipAddr m
  let b := [1, 1, 6, 0] ++ toBe d.xid 4 ++ [0, 0] ++ toBe (if own = 0 then 0x8000 else 0) 2 ++ toBe own 4 ++ List.replicate 12 0 ++
    toBe (macAddr m) 6 ++ List.replicate 202 0 ++ [0x63, 0x82, 0x53, 0x63, 53, 1, ty] ++ opts ++ [255]
  if bcast then s.txUdp m 0 0 hwAll own ipAll 68 67 b else s.txUdp m 0 0 d.hw own d.server 68 67 b

/-- DISCOVER, with options 61 and 55. -/
def State.txDiscover (s : State) (m : Nat) : State :=
  s.txDhcp m 1 true ([61, 7, 1] ++ toBe (macAddr m) 6 ++ [55, 4, 1, 3, 51, 54])
/-- REQUEST of the offered address, with options 50 and 54. -/
def State.txRequest (s : State) (m : Nat) : State :=
  let d := (s.mac m).dhcp
  s.txDhcp m 3 true ([50, 4] ++ toBe d.offer 4 ++ [54, 4] ++ toBe d.server 4)

/-- The address and what came with it cleared. -/
def State.clearLease (s : State) (m : Nat) : State :=
  (((s.wf (Reg.ETH_IPADDR.VALUE m) 0).wf (Reg.ETH_NETMASK.VALUE m) 0).wf (Reg.ETH_GATEWAY.VALUE m) 0).wf (Reg.ETH_DHCP.LEFT m) 0

/-- INIT: the address cleared, a new transaction, DISCOVER at once, SELECTING. -/
def State.dhcpInit (s : State) (m : Nat) : State :=
  let f := (s.clearLease m).takeFree
  let s := f.2.onDhcp m (fun d => { d with xid := f.1 % 2 ^ 32, sends := 1 })
  (s.dhcpState m 1).txDiscover m

/-- The value of an option, none where it is absent. -/
def dhcpOpt (os : List Nat) (code fuel : Nat) : Option (List Nat) :=
  match fuel, os with
  | 0, _ => none
  | _, [] => none
  | n + 1, c :: t =>
    if c = 0 then dhcpOpt t code n
    else if c = 255 then none
    else
      match t with
      | [] => none
      | l :: r => if c = code then some (r.take l) else dhcpOpt (r.drop l) code n

/-- A 4-byte option as a number. -/
def opt4 (os : List Nat) (code : Nat) : Option Nat :=
  match dhcpOpt os code os.length with
  | some v => if 4 ≤ v.length then some (beNat (v.take 4)) else none
  | none => none

/-- An ACK binds the address. -/
def State.dhcpBind (s : State) (m hw ip : Nat) (os : List Nat) : State :=
  let d := (s.mac m).dhcp
  let mask := (opt4 os 1).getD d.mask
  let gw := (opt4 os 3).getD d.router
  let lease := (opt4 os 51).getD d.lease
  let t1 := (opt4 os 58).getD (lease / 2)
  let t2 := (opt4 os 59).getD (lease * 7 / 8)
  let s := s.onDhcp m (fun d => { d with hw := hw, mask := mask, router := gw, lease := lease, left := lease, t1 := t1, t2 := t2, sends := 0 })
  let new := s.rf (Reg.ETH_IPADDR.VALUE m) ≠ ip
  let s := ((s.wf (Reg.ETH_IPADDR.VALUE m) ip).wf (Reg.ETH_NETMASK.VALUE m) mask).wf (Reg.ETH_GATEWAY.VALUE m) gw
  let s := (s.wf (Reg.ETH_DHCP.LEFT m) (min 0xFFFFFF lease)).dhcpState m 3
  if new then s.gratuitous m else s

/-- A message to port 68. -/
def State.rxDhcp (s : State) (m hw : Nat) (p : List Nat) : State :=
  let d := (s.mac m).dhcp
  let st := s.rf (Reg.ETH_DHCP.STATE m)
  let os := p.drop 240
  let ok := s.rf (Reg.ETH_IPCFG.MODE m) = 2 ∧ beAt p 0 1 = 2 ∧ beAt p 4 4 = d.xid ∧ beAt p 28 6 = macAddr m ∧
    slice p 236 4 = [0x63, 0x82, 0x53, 0x63]
  if ¬ ok then s
  else
    let ty := (dhcpOpt os 53 os.length).getD []
    let ip := beAt p 16 4
    if ty = [2] then
      (match st, opt4 os 1, opt4 os 51, opt4 os 54 with
       | 1, some mask, some lease, some srv =>
         let s := s.onDhcp m (fun d =>
           { d with offer := ip, server := srv, hw := hw, mask := mask, router := (opt4 os 3).getD 0, lease := lease, sends := 1 })
         (s.dhcpState m 2).txRequest m
       | _, _, _, _ => s)
    else if ty = [5] then (if st = 2 ∨ st = 4 ∨ st = 5 then s.dhcpBind m hw ip os else s)
    else if ty = [6] then (if st = 2 ∨ st = 4 ∨ st = 5 then s.dhcpInit m else s)
    else s

/-- A retransmission time expires. -/
def State.dhcpAgain (s : State) (m : Nat) : State :=
  let st := s.rf (Reg.ETH_DHCP.STATE m)
  let d := (s.mac m).dhcp
  let s' := s.onDhcp m (fun d => { d with sends := d.sends + 1 })
  if st = 1 then s'.txDiscover m
  else if st = 2 then (if 4 ≤ d.sends then s.dhcpInit m else s'.txRequest m)
  else if st = 4 then s'.txDhcp m 3 false []
  else if st = 5 then s'.txDhcp m 3 true []
  else s

/-- Whether the lease runs out. -/
def State.leaseFinite (s : State) (m : Nat) : Bool := (s.mac m).dhcp.lease != 0xFFFFFFFF

/-! ## Firmware queues (R491) -/

/-- A datagram for firmware; the queue holds 16 KiB of payload. -/
def State.rxFw (s : State) (m ip sport dport : Nat) (p : List Nat) : State :=
  let used := (s.eth.frx.map (fun d => d.data.length)).sum
  if 16384 < used + p.length then s.drop m 0x12
  else
    let first := s.eth.frx.isEmpty
    let s := s.onEth (fun x => { x with frx := x.frx ++ [⟨m, ip, sport, dport, octetsOf p⟩] })
    if first then s.raiseIf Reg.ETH_EVCFG.FRX_EVENT Reg.ETH_EVCFG.FRX_EN else s

/-- ETH_FRX_DATA as read. -/
def State.frxWord (s : State) : Word :=
  match s.eth.frx with
  | [] => 0
  | d :: _ => BitVec.ofNat 32 (ofBytes (slice (natsOf d.data) (4 * s.eth.frxAt) 4))
/-- A read of ETH_FRX_DATA moves to the next word. -/
def State.frxRead (s : State) : State := s.onEth (fun x => { x with frxAt := x.frxAt + 1 })
/-- ETH_FRX_POP written. -/
def State.frxPop (s : State) : State := s.onEth (fun x => { x with frx := x.frx.drop 1, frxAt := 0 })

/-- Firmware datagrams waiting: unresolved, or in a transmit queue. -/
def State.fwWaiting (s : State) : Nat :=
  s.eth.ftx.length + ((s.mac 0).txq.filter (fun f => f.cls == 2)).length + ((s.mac 1).txq.filter (fun f => f.cls == 2)).length

/-- A port a firmware datagram may not leave from. -/
def sportBad (p : Nat) : Bool := p == 0 || p == 67 || p == 68 || p == 47110
/-- A port ETH_FW_PORT may not name. -/
def fwPortBad (p : Nat) : Bool := p == 67 || p == 68 || p == 47110

/-- ETH_FTX_DATA written. -/
def State.ftxData (s : State) (v : Word) : WRes :=
  if 2 ≤ s.fwWaiting then s.refused ethRefuse 6 else .ok (s.onEth (fun x => { x with words := x.words ++ [v] }))

/-- A firmware datagram resolved, or asked for (R472). -/
def State.fwRoute (s : State) (m ip sport dport : Nat) (p : List Byte) : State :=
  let mask := s.rf (Reg.ETH_NETMASK.VALUE m)
  let gw := s.rf (Reg.ETH_GATEWAY.VALUE m)
  let near := ip &&& mask = s.ipAddr m &&& mask
  if ¬ near ∧ gw = 0 then s.drop m 0x15
  else
    let h := if near then ip else gw
    let r := s.arpLook m h
    match r.1 with
    | some hw => r.2.sendFw ⟨m, ip, h, sport, dport, p, 0⟩ hw
    | none => (s.onEth (fun x => { x with ftx := x.ftx ++ [⟨m, ip, h, sport, dport, p, 1⟩] })).txArp m 1 hwAll 0 h

/-- ETH_FTX_SEND written; judged in the order of the table: LENGTH, PORT, BUSY, STATE. -/
def State.ftxSend (s : State) (v : Word) : WRes :=
  let len := getBits v 0 11
  let m := getBits v 16 1
  let sport := s.rf Reg.ETH_FTX_PORTS.SRC
  if len = 0 ∨ 1472 < len ∨ s.eth.words.length ≠ (len + 3) / 4 then s.refused ethRefuse 5
  else if sportBad sport then s.refused ethRefuse 4
  else if 2 ≤ s.fwWaiting then s.refused ethRefuse 6
  else if s.ipAddr m = 0 then s.refused ethRefuse 1
  else
    let p := (octetsOf (s.eth.words.flatMap (fun w => toBytes w.toNat 4))).take len
    let s := s.onEth (fun x => { x with words := [] })
    .ok (s.fwRoute m (s.rf Reg.ETH_FTX_DST.VALUE) sport (s.rf Reg.ETH_FTX_PORTS.DST) p)

/-! ## Links, MDIO and start (R465, R466) -/

/-- ETH_LINK changed. -/
def State.setLink (s : State) (m : Nat) (up half : Bool) (speed : Nat) : State :=
  let old := s.reg (Reg.ETH_LINK_at m)
  let s := ((s.wf (Reg.ETH_LINK.UP m) (b2n up)).wf (Reg.ETH_LINK.HALF m) (b2n half)).wf (Reg.ETH_LINK.SPEED m) speed
  let s := if s.reg (Reg.ETH_LINK_at m) = old then s else s.linkEvent
  s.txNext m

/-- Whether the MACs serve: from release or HALTED on (R465). -/
def State.ethServes (s : State) : Bool := s.boot.phase == .released || s.boot.phase == .halted

/-- The link of a MAC with a fixed speed, or disabled (DEDUCED, log 79). -/
def State.fixLink (s : State) (m : Nat) : State :=
  let sp := s.rf (Reg.ETH_MAC_CFG.SPEED m)
  if !s.ethServes then s
  else if !s.on (Reg.ETH_MAC_CFG.EN m) then s.setLink m false false 0
  else if sp = 0 then s
  else s.setLink m true false sp

/-- The mode both ends advertise that comes first: 1000, 100, 10 Mb/s, full before half duplex, from registers 4, 5, 9 and 10 of
clause 22; the speed's code, and half duplex. -/
def resolveLink (r4 r5 r9 r10 : BitVec 16) : Option (Nat × Bool) :=
  let both := fun (i : Nat) => r4.getLsbD i && r5.getLsbD i
  if r9.getLsbD 9 && r10.getLsbD 11 then some (3, false)
  else if r9.getLsbD 8 && r10.getLsbD 10 then some (3, true)
  else if both 8 then some (2, false)
  else if both 7 then some (2, true)
  else if both 6 then some (1, false)
  else if both 5 then some (1, true)
  else none

/-- A poll of the PHY: registers 1, 4, 5, 9 and 10. -/
def State.phyPoll (s : State) (m : Nat) (r1 r4 r5 r9 r10 : BitVec 16) : State :=
  if !s.ethServes || !s.on (Reg.ETH_MAC_CFG.EN m) || s.rf (Reg.ETH_MAC_CFG.SPEED m) != 0 then s
  else if !(r1.getLsbD 2 && r1.getLsbD 5) then s.setLink m false false 0
  else
    match resolveLink r4 r5 r9 r10 with
    | none => s.setLink m false false 0
    | some (sp, half) => s.setLink m (!half) half sp

/-- The address mode begins: DHCP starts at INIT, a static address is announced. -/
def State.ipStart (s : State) (m : Nat) : State :=
  if !s.ethServes then s
  else
    let md := s.rf (Reg.ETH_IPCFG.MODE m)
    if md = 2 then s.dhcpInit m else if md = 1 then s.gratuitous m else s

/-- Both MACs start, at release or on entry to HALTED. -/
def State.ethStart (s : State) : State := ((((s.fixLink 0).fixLink 1).ipStart 0).ipStart 1)

/-- ETH_MDIO_CMD written. -/
def State.mdioCmd (s : State) (v : Word) : WRes :=
  if s.on Reg.ETH_STATUS.MDIO_BUSY then s.refused ethRefuse 1
  else .ok ((s.wf Reg.ETH_STATUS.MDIO_BUSY 1).onEth (fun x => { x with mdio := some v }))

/-- An MDIO transaction ends; a read leaves its data. -/
def State.mdioEnd (s : State) (data : BitVec 16) : State :=
  match s.eth.mdio with
  | none => s
  | some v =>
    let s := (s.wf Reg.ETH_STATUS.MDIO_BUSY 0).onEth (fun x => { x with mdio := none })
    if getBits v 16 1 = 1 then s else s.wf Reg.ETH_MDIO_DATA.DATA data.toNat

/-! ## Registers of 0x4600 to 0x468B -/

/-- ETH_IPCFG written: leaving DHCP clears the lease; a new mode begins. -/
def State.writeIpCfg (s : State) (p : Permit) (m : Nat) (v : Word) : WRes :=
  let old := s.rf (Reg.ETH_IPCFG.MODE m)
  if p.lockOk ∧ getBits v 0 2 = 3 then s.refused ethRefuse 8
  else
    let r := s.writeOr p ethRefuse 2 (Reg.ETH_IPCFG_at m) v
    let s := r.st
    let new := s.rf (Reg.ETH_IPCFG.MODE m)
    if old = new then r
    else
      let s := if old = 2 then ((s.clearLease m).wf (Reg.ETH_DHCP.STATE m) 0).linkEvent else s
      ⟨s.ipStart m, r.code⟩

/-- An ETH_ register of MAC m written. -/
def State.writeMac (s : State) (p : Permit) (m a : Nat) (v : Word) : WRes :=
  if a = Reg.ETH_IPCFG_at m then s.writeIpCfg p m v
  else if Reg.ETH_IPADDR_at m ≤ a ∧ a ≤ Reg.ETH_GATEWAY_at m then
    (if p.lockOk ∧ s.rf (Reg.ETH_IPCFG.MODE m) = 2 then s.refused ethRefuse 1
     else
       let r := s.writeOr p ethRefuse 2 a v
       if r.code = 0 ∧ a = Reg.ETH_IPADDR_at m ∧ s.rf (Reg.ETH_IPCFG.MODE m) = 1 ∧ s.ethServes then .ok (r.st.gratuitous m) else r)
  else if a = Reg.ETH_MAC_CFG_at m then
    (let r := s.writeOr p ethRefuse 2 a v
     ⟨r.st.fixLink m, r.code⟩)
  else s.writeOr p ethRefuse 2 a v

/-- A register of 0x4600 to 0x468B written; the engine's own writes are refused (R484). -/
def State.writeEth (s : State) (src : Src) (a : Nat) (v : Word) : WRes :=
  let p := s.permit src (!s.on Reg.ETH_CTL.LOCK)
  if src = .fobex then s.refused ethRefuse 3
  else if a = Reg.ETH_MDIO_CMD_at then s.mdioCmd v
  else if 0x4640 ≤ a ∧ a < 0x4660 then s.writeMac p 0 a v
  else if 0x4660 ≤ a ∧ a < 0x4680 then s.writeMac p 1 a v
  else if a = Reg.ETH_FW_PORT_at 0 ∨ a = Reg.ETH_FW_PORT_at 1 then
    (let i := a - Reg.ETH_FW_PORT_at 0
     s.writeBut .all ethRefuse 2 4 a v
      ((if fwPortBad (getBits v 0 16) then [Reg.ETH_FW_PORT.PORT_A i] else []) ++
        (if fwPortBad (getBits v 16 16) then [Reg.ETH_FW_PORT.PORT_B i] else [])))
  else if a = Reg.ETH_FRX_POP_at then .ok s.frxPop
  else if a = Reg.ETH_FTX_DATA_at then s.ftxData v
  else if a = Reg.ETH_FTX_SEND_at then s.ftxSend v
  else s.writeOr p ethRefuse 2 a v

/-- These registers as read. -/
def State.ethView (s : State) (a : Nat) : Word :=
  let m := if a < 0x4660 then 0 else 1
  if a = Reg.ETH_MACADDR_LO_at m then BitVec.ofNat 32 (macAddr m)
  else if a = Reg.ETH_MACADDR_HI_at m then BitVec.ofNat 32 (macAddr m / 2 ^ 32)
  else if a = Reg.ETH_DROP_CNT_at m then BitVec.ofNat 32 (SMap.get (s.mac m).drops 0 (s.rf (Reg.ETH_DROP_SEL.CODE m)))
  else if a = Reg.ETH_FRX_INFO_at 0 then
    (match s.eth.frx with | [] => 0 | d :: _ => BitVec.ofNat 32 (d.data.length + 2 ^ 16 * d.mac))
  else if a = Reg.ETH_FRX_INFO_at 1 then (match s.eth.frx with | [] => 0 | d :: _ => BitVec.ofNat 32 d.ip)
  else if a = Reg.ETH_FRX_INFO_at 2 then
    (match s.eth.frx with | [] => 0 | d :: _ => BitVec.ofNat 32 (d.sport + 2 ^ 16 * d.dport))
  else if a = Reg.ETH_FRX_DATA_at then s.frxWord
  else if a = Reg.ETH_FTX_STAT_at then putBits (s.reg a) 0 2 s.fwWaiting
  else s.reg a

/-- What a read of these registers does: ETH_FRX_DATA moves on; ETH_DROP_CNT clears where the source clears RC fields (R16). -/
def State.ethRead (s : State) (clears : Bool) (a : Nat) : State :=
  let m := if a < 0x4660 then 0 else 1
  if a = Reg.ETH_FRX_DATA_at then s.frxRead
  else if clears ∧ a = Reg.ETH_DROP_CNT_at m then
    s.onMac m (fun x => { x with drops := SMap.set x.drops 0 (s.rf (Reg.ETH_DROP_SEL.CODE m)) 0 })
  else s

end Sys2Proof.Machine
end

