-- ==== Sys2Proof/Machine/Mirnak.lean ====
section
/-!
DEFINITION. The Mirnak container (R398 to R407): regions and pages, header, sections, roles, relocations, and every check of
Table boot-6.

Choices and readings of this file: log 72, 111.
-/

namespace Sys2Proof.Machine

/-! ## Regions (Table boot-5): 0 factory image, 1 slot A, 2 slot B, 3 factory defaults -/

/-- Base block of a region. -/
def regionBase (r : Nat) : Nat := if r = 0 then 0 else if r = 1 then 16 else if r = 2 then 64 else 8
/-- Pages of a region. -/
def regionPages (r : Nat) : Nat := if r = 1 ∨ r = 2 then 6144 else 1024
/-- The largest LENGTH of a region. -/
def regionLimit (r : Nat) : Nat := 4096 * (regionPages r - 1)

/-- The physical page, 256 × block + page, of container page p of a region (R404). -/
def State.contAt (s : State) (r p : Nat) : Nat := 256 * s.physOf (regionBase r + p / 128) + p % 128
/-- Bit errors in the codewords of a physical page as the sequencer reads it; none where `errs` does not list it. -/
def errsAt (errs : List (Nat × List Nat)) (k : Nat) : List Nat :=
  match errs.find? (fun e => e.1 == k) with | some e => e.2 | none => []
/-- A BOOT read of a physical page (R323, R324, R327): whether it is GOOD. -/
def State.bootGood (s : State) (errs : List (Nat × List Nat)) (k : Nat) : Bool :=
  s.goodBlock (k / 256) && !s.rdwaitLow && (decodeSet 16 (errsAt errs k)).isSome &&
    (match s.fpage (k / 256) (k % 256) with | some q => q.ok | none => false)

/-- Container page p where it reads GOOD; `errs`: bit errors of the pages read this time (R404). -/
def State.contPage (s : State) (errs : List (Nat × List Nat)) (r p : Nat) : Option Nat :=
  let k := s.contAt r p
  match s.fpage (k / 256) (k % 256) with
  | some q => if s.bootGood errs k ∧ p < regionPages r then some q.data else none
  | none => none

/-- The counts of the sequencer's reads of container pages (R327, R333): bits corrected, and reads ending UNCORR. -/
def State.bootReads (s : State) (errs : List (Nat × List Nat)) (r : Nat) (ps : List Nat) : State :=
  ps.foldl (fun s p =>
    let k := s.contAt r p
    if !s.goodBlock (k / 256) || s.rdwaitLow then s
    else
      match s.fpage (k / 256) (k % 256) with
      | none => s
      | some q =>
        match (if q.ok then decodeSet 16 (errsAt errs k) else none) with
        | some c => s.incSat Reg.FLC_CE_CNT.COUNT c.2
        | none => s.incSat Reg.FLC_UE_CNT.COUNT) s

/-- The metadata of a page names UPSEQ, p and each codeword (R404). -/
def metaOk (data upseq p : Nat) : Bool :=
  (List.range 4).all (fun k =>
    bytesAt data (4096 + 8 * k) 8 == pack [(upseq, 4), (p, 2), (k, 1), (0, 1)])

/-- Data bytes of the first n pages; a page not GOOD reads 0 here, where no check has passed it. -/
def State.contBytes (s : State) (errs : List (Nat × List Nat)) (r n : Nat) : Nat :=
  pack ((List.range n).map (fun p => ((s.contPage errs r p).getD 0, 4096)))

/-! ## Header and commit page (R398, R405) -/

/-- What a container's header and metadata give. -/
structure Head1 where
  upseq : Nat
  len : Nat
  nsect : Nat
  minPiers : Nat
  deriving DecidableEq, Repr

/-- The header of a region where it passes HEADER. -/
def State.contHead (s : State) (errs : List (Nat × List Nat)) (r : Nat) : Option Head1 :=
  match s.contPage errs r 0 with
  | none => none
  | some d =>
    let u := bytesAt d 4096 4
    let n := bytesAt d 0xC 1
    let tbl := 64 + 16 * n
    let full := s.contBytes errs r (if 4096 < tbl then 2 else 1)
    let len := bytesAt d 8 4
    if metaOk d u 0 && (if r = 1 ∨ r = 2 then u != 0 else u == 0) && bytesAt d 0 4 == 0x314B4E4D && bytesAt d 4 2 == 1 &&
        bytesAt d 6 2 == 64 && decide (64 ≤ len) && decide (len ≤ regionLimit r) && n != 0 &&
        bytesAt d 0x1C 4 == crc32c (toBytes full 0x1C ++ toBytes (bytesAt full 64 (16 * n)) (16 * n)) then
      some ⟨u, len, n, bytesAt d 0xD 1⟩
    else none

/-- The number of the commit page: ⌈LENGTH / 4,096⌉. -/
def Head1.n (h : Head1) : Nat := (h.len + 4095) / 4096

/-- The commit page where it passes COMMIT: its digest as a byte string's number. -/
def State.contCommit (s : State) (errs : List (Nat × List Nat)) (r : Nat) (h : Head1) : Option Nat :=
  match s.contPage errs r h.n with
  | none => none
  | some d =>
    if metaOk d h.upseq h.n && bytesAt d 0 4 == 0x434B4E4D && bytesAt d 4 4 == h.upseq && bytesAt d 8 4 == h.len &&
        bytesAt d 0xC 4 == h.n && bytesAt d 0x30 4 == crc32c (toBytes d 0x30) then some (bytesAt d 0x10 32)
    else none

/-- The commit page of a container (R405). -/
def commitPage (upseq len : Nat) (digest : List Nat) : Nat :=
  let n := (len + 4095) / 4096
  let w := pack [(0x434B4E4D, 4), (upseq, 4), (len, 4), (n, 4), (ofBytes digest, 32)]
  let mt := pack ((List.range 4).map (fun k => (pack [(upseq, 4), (n, 2), (k, 1), (0, 1)], 8)))
  pack [(w, 48), (crc32c (toBytes w 48), 4), (0, 4044), (mt, 32)]

/-- UPSEQ of a committed region (R405), none where it is not committed. -/
def State.committed (s : State) (errs : List (Nat × List Nat)) (r : Nat) : Option Nat :=
  match s.contHead errs r with
  | none => none
  | some h => (s.contCommit errs r h).map (fun _ => h.upseq)

/-! ## Sections (R399) -/

/-- An entry of the section table with its body. -/
structure Sec where
  ty : Nat
  arg : Nat
  off : Nat
  size : Nat
  crc : Nat
  extra : Nat
  body : Nat
  deriving DecidableEq, Repr

/-- The sections of a container's bytes. -/
def sections (w n : Nat) : List Sec :=
  (List.range n).map (fun i =>
    let o := 64 + 16 * i
    let off := bytesAt w (o + 4) 4
    let size := bytesAt w (o + 8) 4
    ⟨bytesAt w o 1, bytesAt w (o + 1) 1, off, size, bytesAt w (o + 12) 4, bytesAt w (o + 2) 2, bytesAt w off size⟩)

/-- Sections that do not overlap. -/
def disjoint (ss : List Sec) : Bool :=
  match ss with
  | [] => true
  | a :: t => t.all (fun b => decide (a.off + a.size ≤ b.off) || decide (b.off + b.size ≤ a.off)) && disjoint t

/-- SECTION: every entry as R399 says, its CRC matching. -/
def sectionsOk (ss : List Sec) (len n : Nat) : Bool :=
  ss.all (fun x => decide (1 ≤ x.ty) && decide (x.ty ≤ 9) && x.extra == 0 && x.off % 8 == 0 && decide (64 + 16 * n ≤ x.off) &&
    decide (x.off + x.size ≤ len) && x.crc == crc32c (toBytes x.body x.size)) && disjoint ss

/-- Sections of a type. -/
def ofType (ss : List Sec) (ty : Nat) : List Sec := ss.filter (fun x => x.ty == ty)

/-! ## Roles (R400) -/

/-- A role record. -/
structure MRole where
  kind : Nat
  count : Nat
  run : Nat
  thpc : List Nat
  ok : Bool
  deriving DecidableEq, Repr

/-- The records of a ROLES body. -/
def rolesOf (x : Sec) : List MRole :=
  (List.range (x.size / 32)).map (fun i =>
    let w := bytesAt x.body (32 * i) 32
    let k := bytesAt w 0 1
    ⟨k % 4, bytesAt w 1 1, bytesAt w 4 1, (List.range 8).map (fun t => 4 * bytesAt w (8 + 2 * t) 2),
     decide (k < 4) && bytesAt w 2 2 == 0 && bytesAt w 5 3 == 0 && bytesAt w 24 8 == 0⟩)

/-- ROLES as R400 says. -/
def rolesOk (rs : List MRole) : Bool :=
  rs.all (fun r => r.ok && r.kind != 3 && (if r.kind = 1 then decide (1 ≤ r.count) && decide (r.count ≤ 15) else r.count == 0)) &&
  (rs.map MRole.kind).headD 3 == 0 && (rs.filter (fun r => r.kind == 0)).length == 1 &&
  decide ((rs.filter (fun r => r.kind == 2)).length ≤ 1)

/-- k: 1 + the sum of the SERVICE counts. -/
def rolesK (rs : List MRole) : Nat := 1 + (rs.map MRole.count).sum

/-- The roles by pier from P1 on for the SERVICE records, in index order. -/
def servicePiers (rs : List MRole) (i : Nat) : List Nat :=
  match rs with
  | [] => []
  | r :: t => (if r.kind = 1 then List.replicate r.count i else []) ++ servicePiers t (i + 1)

/-- The role of pier p (R400); none where it runs nothing. -/
def roleOf (rs : List MRole) (p : Nat) : Option Nat :=
  if p = 0 then some 0
  else if p < rolesK rs then (servicePiers rs 0)[p - 1]?
  else rs.findIdx? (fun r => r.kind == 2)

/-! ## Relocations (R401) -/

/-- A relocation record. -/
structure Reloc where
  kind : Nat
  form : Nat
  sec : Nat
  shift : Nat
  off : Nat
  ok : Bool
  deriving DecidableEq, Repr

/-- The records of RELOC bodies. -/
def relocsOf (x : Sec) : List Reloc :=
  (List.range (x.size / 8)).map (fun i =>
    let w := bytesAt x.body (8 * i) 4
    ⟨w % 16, w / 16 % 4, w / 256 % 256, w / 2 ^ 16 % 32, bytesAt x.body (8 * i + 4) 4, w / 2 ^ 6 % 4 == 0 && w / 2 ^ 21 == 0⟩)

/-- The value v of a kind, for the copy of pier p. -/
def relocValue (g : Grade) (kind p : Nat) : Nat :=
  if kind = 1 then g.piers else if kind = 2 then p else if kind = 3 then g.quarters else g.deckBytes

/-- Bytes of a section before its data: the head of ICODE, SPAD and DECK. -/
def dataOf (x : Sec) : Nat := bytesAt x.body 8 (x.size - 8)

/-- A value placed at an offset of a byte string. -/
def putAt (w off n v : Nat) : Nat := w % 256 ^ off + v % 256 ^ n * 256 ^ off + w / 256 ^ (off + n) * 256 ^ (off + n)

/-- Relocations applied to the data of section i for pier p; none where an IMM16 sum exceeds 0xFFFF. -/
def applyRelocs (g : Grade) (rs : List Reloc) (i p d : Nat) : Option Nat :=
  match rs with
  | [] => some d
  | r :: t =>
    if r.sec ≠ i then applyRelocs g t i p d
    else
      let v := relocValue g r.kind p * 2 ^ r.shift
      if r.form = 0 then applyRelocs g t i p (putAt d r.off 4 (bytesAt d r.off 4 + v))
      else if 0xFFFF < bytesAt d r.off 2 + v then none
      else applyRelocs g t i p (putAt d r.off 2 (bytesAt d r.off 2 + v))

/-! ## Overlays (R402) -/

/-- An overlay record. -/
structure Ovl where
  addr : Nat
  perPier : Bool
  last : Bool
  role : Nat
  mask : Nat
  value : Nat
  ok : Bool
  deriving DecidableEq, Repr

/-- The records of an OVERLAY body. -/
def ovlsOf (x : Sec) : List Ovl :=
  (List.range (x.size / 12)).map (fun i =>
    let w := bytesAt x.body (12 * i) 4
    let a := w % 2 ^ 16
    let pp := w / 2 ^ 16 % 2 = 1
    ⟨a, pp, w / 2 ^ 17 % 2 = 1, w / 2 ^ 18 % 8, bytesAt x.body (12 * i + 4) 4, bytesAt x.body (12 * i + 8) 4,
     w / 2 ^ 21 == 0 && (if pp then decide (a < 0x100) else decide (0x100 ≤ a) && decide (a < 0x5000))⟩)

/-! ## The checks (Table boot-6) -/

/-- Per-section structure of a container that is not the defaults'. -/
def secOk (g : Grade) (nroles : Nat) (x : Sec) : Bool :=
  let head := decide (8 ≤ x.size) && x.size % 8 == 0 && bytesAt x.body 0 4 % 8 == 0 && bytesAt x.body 4 4 == 0
  let fits := fun (lim : Nat) => decide (bytesAt x.body 0 4 + (x.size - 8) ≤ lim)
  if x.ty = 1 then x.arg == 0 && x.size % 32 == 0 && decide (32 ≤ x.size) && decide (x.size ≤ 256)
  else if x.ty = 2 then decide (x.arg < nroles) && head && fits 0x20000
  else if x.ty = 3 then decide (x.arg < nroles) && head && fits 0x10000
  else if x.ty = 4 then x.arg == 0 && head && fits g.deckBytes
  else if x.ty = 5 then x.arg == 0 && x.size % 8 == 0
  else if x.ty = 6 then x.arg == 0 && x.size % 12 == 0
  else if x.ty = 7 then decide (x.arg ≤ 2) && x.size % 8 == 0
  else if x.ty = 8 then
    x.arg == 0 && x.size == 32 &&
      (List.range 4).all (fun i => decide (620 ≤ bytesAt x.body (16 + 4 * i) 4 % 1024) && decide (bytesAt x.body (16 + 4 * i) 4 % 1024 ≤ 900))
  else true

/-- Relocation records as R401 says. -/
def relocOk (ss : List Sec) (r : Reloc) : Bool :=
  match ss[r.sec]? with
  | none => false
  | some x =>
    r.ok && decide (1 ≤ r.kind) && decide (r.kind ≤ 4) && decide (r.form ≤ 1) && r.off % 4 == 0 &&
      (x.ty == 2 || x.ty == 3 || (x.ty == 4 && r.kind != 2)) && decide (r.off + 4 ≤ x.size - 8)

/-- A route record (R403): NI, entry, value, other bits 0. -/
def routesOf (x : Sec) : List (Nat × Nat × Word × Bool) :=
  (List.range (x.size / 8)).map (fun i =>
    let w := bytesAt x.body (8 * i) 4
    (w % 64, w / 2 ^ 8 % 64, BitVec.ofNat 32 (bytesAt x.body (8 * i + 4) 4), w / 2 ^ 6 % 4 == 0 && w / 2 ^ 14 == 0))

/-- VIA_GRADE.SHAPE. -/
def Grade.shape : Grade → Nat
  | .sx16 => 0 | .sx8 => 1 | .sx4 => 2

/-- All relocation and overlay records. -/
def relocs (ss : List Sec) : List Reloc := (ofType ss 5).flatMap relocsOf
/-- Overlay records in container order. -/
def ovls (ss : List Sec) : List Ovl := (ofType ss 6).flatMap ovlsOf
/-- The roles. -/
def roles (ss : List Sec) : List MRole := (ofType ss 1).flatMap rolesOf

/-- STRUCTURE of an image. -/
def structureOk (g : Grade) (ss : List Sec) : Bool :=
  let rs := roles ss
  let n := rs.length
  let once := fun (ty a : Nat) => ((ofType ss ty).filter (fun x => x.arg == a)).length
  (ofType ss 1).length == 1 && decide ((ofType ss 8).length ≤ 1) && ss.all (secOk g n) && rolesOk rs &&
  (ofType ss 7).all (fun x => once 7 x.arg == 1 && (routesOf x).all (fun q => q.2.2.2)) &&
  (List.range n).all (fun i => once 2 i == 1 && decide (once 3 i ≤ 1)) &&
  (relocs ss).all (relocOk ss) && (ovls ss).all (fun o => o.ok && (!o.perPier || decide (o.role < n)))

/-- STRUCTURE of the defaults container (R409). -/
def defaultsOk (ss : List Sec) : Bool :=
  ss.all (fun x => (x.ty == 6 && x.size % 12 == 0 && x.arg == 0) || x.ty == 9) &&
    (ovls ss).all (fun o => o.ok && !o.perPier && o.role == 0)

/-- PIERS. -/
def piersOk (g : Grade) (minPiers : Nat) (ss : List Sec) : Bool :=
  let rs := roles ss
  let k := rolesK rs + (if rs.any (fun r => r.kind == 2) then 1 else 0)
  decide (minPiers ≤ g.piers) && decide (k ≤ minPiers)

/-- ROUTES: the set of the grade's shape, every value as R239 checks it. -/
def routesOk (g : Grade) (ss : List Sec) : Bool :=
  match (ofType ss 7).filter (fun x => x.arg == g.shape) with
  | [] => false
  | x :: _ =>
    (routesOf x).all (fun q =>
      niPresent g q.1 && (decide (q.1 < 32) || decide (q.2.1 < 24)) &&
        (getBits q.2.2.1 31 1 == 0 || validateRoute g q.1 q.2.1 q.2.2.1 == 0))

/-- RELOC: no IMM16 sum exceeds 0xFFFF for the copies of the grade. -/
def relocsFit (g : Grade) (ss : List Sec) : Bool :=
  let rs := roles ss
  (List.range ss.length).all (fun i =>
    match ss[i]? with
    | none => true
    | some x =>
      if x.ty = 4 then (applyRelocs g (relocs ss) i 0 (dataOf x)).isSome
      else if x.ty = 2 ∨ x.ty = 3 then
        (List.range g.piers).all (fun p => roleOf rs p != some x.arg || (applyRelocs g (relocs ss) i p (dataOf x)).isSome)
      else true)

/-- The container of region r: its header and bytes, once HEADER passes. -/
def State.contSections (s : State) (errs : List (Nat × List Nat)) (r : Nat) (h : Head1) : List Sec :=
  sections (s.contBytes errs r h.n % 256 ^ h.len) h.nsect

/-- The first check of Table boot-6 that region r fails, 0 for none; the defaults container is region 3 (R409). -/
def State.verifyCode (s : State) (errs : List (Nat × List Nat)) (r : Nat) : Nat :=
  match s.contHead errs r with
  | none => 1
  | some h =>
    match s.contCommit errs r h with
    | none => 2
    | some digest =>
      let pages := (List.range h.n).all (fun p =>
        match s.contPage errs r p with | some d => metaOk d h.upseq p | none => false)
      let ss := s.contSections errs r h
      if !pages then 3
      else if !sectionsOk ss h.len h.nsect then 4
      else if digest ≠ ofBytes (sha256 (toBytes (s.contBytes errs r h.n) h.len)) then 5
      else if !(if r = 3 then defaultsOk ss && h.minPiers == 1 else structureOk s.grade ss) then 6
      else if r = 3 then 0
      else if !piersOk s.grade h.minPiers ss then 7
      else if !routesOk s.grade ss then 8
      else if !relocsFit s.grade ss then 9
      else 0

/-- The sections of a region that has passed verification. -/
def State.contOf (s : State) (errs : List (Nat × List Nat)) (r : Nat) : List Sec :=
  match s.contHead errs r with
  | none => []
  | some h => s.contSections errs r h

end Sys2Proof.Machine
end

