-- ==== Sys2Proof/Machine/Fobex.lean ====
section
/-!
DEFINITION. The Fobex engine (spec/19): datagrams and their checks, sessions, lanes, replies, streams, and the slot update (R419 to
R423) with its flash operations.

Choices and readings of this file: log 84, 85, 86.
-/

namespace Sys2Proof.Machine

/-- A change of the engine. -/
def State.onFsv (s : State) (f : Fsv → Fsv) : State := { s with fsv := f s.fsv }

/-- A session slot. -/
def State.sess (s : State) (k : Nat) : Option Sess := SMap.get s.fsv.sess none k
/-- A session slot replaced. -/
def State.setSess (s : State) (k : Nat) (v : Option Sess) : State :=
  s.onFsv (fun x => { x with sess := SMap.set x.sess none k v })
/-- A change of an active session. -/
def State.onSess (s : State) (k : Nat) (f : Sess → Sess) : State := s.setSess k ((s.sess k).map f)
/-- Active sessions. -/
def State.sessions (s : State) : Nat := ((List.range 4).filter (fun k => (s.sess k).isSome)).length
/-- The slot of an active session number, from its bound address. -/
def State.findSess (s : State) (num : Nat) (p : Peer) : Option Nat :=
  (List.range 4).find? (fun k =>
    match s.sess k with | some x => x.num == num && x.peer.ip == p.ip && x.peer.port == p.port | none => false)

/-! ## Replies (R476) -/

/-- Status codes of Table fsv-6. -/
inductive FStat where
  | ok | notInState | needPresence | needSeal | badCrc | badLength | busy | noSession | badOpcode | badVersion | flashFail | ioError
  | notRetained | range
  deriving DecidableEq, Repr

/-- A status's code. -/
def FStat.code : FStat → Nat
  | .ok => 0 | .notInState => 1 | .needPresence => 2 | .needSeal => 3 | .badCrc => 4 | .badLength => 5 | .busy => 6 | .noSession => 7
  | .badOpcode => 8 | .badVersion => 9 | .flashFail => 10 | .ioError => 11 | .notRetained => 12 | .range => 13

/-- A datagram: header, data, CRC-32C. -/
def fobexBytes (flags op status session seq : Nat) (data : List Nat) : List Nat :=
  let h := toBytes (pack [(0x4642, 2), (1, 1), (flags, 1), (op, 1), (status, 1), (data.length, 2), (session, 4), (seq, 2), (0, 2)]) 16
  h ++ data ++ toBytes (crc32c (h ++ data)) 4

/-- A payload sent from port 47110 of the address the peer's request reached, on its MAC, to the MAC address its frame came from (R472, R476);
nothing while the MAC's mode is OFF (R475). -/
def State.txFobex (s : State) (p : Peer) (cls stream dport : Nat) (pl : List Nat) : State :=
  if s.rf (Reg.ETH_IPCFG.MODE p.mac) = 0 then s else s.txUdp p.mac cls stream p.hw p.own p.ip 47110 dport pl

/-- A reply; BUSY replies are counted. -/
def State.answer (s : State) (p : Peer) (op session seq : Nat) (st : FStat) (data : List Nat) : State :=
  let s := if st = .busy then s.incSat Reg.FSV_BUSY_CNT.COUNT else s
  s.txFobex p 1 0 p.port (fobexBytes 1 op st.code session seq data)

/-- A request's end: its reply sent and stored, the session's last SEQ its own (R480). -/
def State.finish (s : State) (r : FReq) (st : FStat) (data : List Nat) : State :=
  let s := s.onFsv (fun x => { x with reqs := x.reqs.erase r })
  let s := (s.incWrap Reg.FSV_REQ_CNT.COUNT).answer r.peer r.op r.session r.seq st data
  match r.slot with
  | none => s
  | some k =>
    s.onSess k (fun x => { x with seq := r.seq, exec := none, reply := some (octetsOf (fobexBytes 1 r.op st.code r.session r.seq data)) })

/-- A request refused by one of its checks: LEN 0 and no other effect (R477). -/
def State.fail (s : State) (r : FReq) (st : FStat) : State := s.finish r st []

/-! ## Lanes (R481) -/

/-- The flash lane's opcodes. -/
def flashLane (op : Nat) : Bool := op == 0x22 || op == 0x50 || op == 0x51 || op == 0x52
/-- The request at the head of a lane. -/
def State.laneHead (s : State) (flash : Bool) : Option FReq := s.fsv.reqs.find? (fun r => flashLane r.op == flash)
/-- The request at the head of its lane, of an opcode, that has not started. -/
def State.ready (s : State) (op : Nat) : Option FReq :=
  match s.laneHead (flashLane op) with
  | some r => if r.op = op ∧ !r.started then some r else none
  | none => none
/-- A flash-lane request starts: its operations take precedence (R328). -/
def State.startFlash (s : State) (r : FReq) : State :=
  (s.onFsv (fun x => { x with reqs := x.reqs.map (fun y => if y = r then { r with started := true } else y) })).onFlc
    (fun x => { x with hold := true })
/-- A flash-lane request ends: the die is granted to others. -/
def State.finishFlash (s : State) (r : FReq) (st : FStat) (data : List Nat) : State :=
  ((s.onFlc (fun x => { x with hold := false })).finish r st data).flcGrant

/-! ## Streams (R489, R490) -/

/-- A stream. -/
def State.strm (s : State) (n : Nat) : Strm := SMap.get s.fsv.strm Strm.reset n
/-- A stream replaced. -/
def State.setStrm (s : State) (n : Nat) (v : Strm) : State := s.onFsv (fun x => { x with strm := SMap.set x.strm Strm.reset n v })
/-- STREAM_EVENT. -/
def State.streamEvent (s : State) : State := s.raiseIf Reg.ETH_EVCFG.STREAM_EVENT Reg.ETH_EVCFG.STREAM_EN

/-- Whether a datagram of the stream waits for its MAC or is being sent: one at a time (DEDUCED, log 85). -/
def State.streamBusy (s : State) (m n : Nat) : Bool :=
  ((s.mac m).txq.any (fun f => f.cls == 3 && f.stream == n)) ||
    (match (s.mac m).sending with | some f => f.cls == 3 && f.stream == n | none => false)

/-- A datagram formed where 1,440 bytes wait, or some must go out (R490). -/
def State.formStream (s : State) (n : Nat) : State :=
  let x := s.strm n
  match x.owner.bind s.sess with
  | none => s
  | some o =>
    if x.fifo.isEmpty ∨ (x.fifo.length < 360 ∧ x.due = 0) ∨ s.streamBusy o.peer.mac n then s
    else
      let ws := x.fifo.take 360
      let tag := (ws.map Prod.snd).headD 0
      let data := toBytes (pack [(n, 4), (x.off, 4), (tag.toNat, 4)]) 12 ++ ws.flatMap (fun w => toBytes w.1.toNat 4)
      let s := s.setStrm n { x with
        fifo := x.fifo.drop 360, due := x.due - ws.length, off := (x.off + 4 * ws.length) % 2 ^ 32, seq := (x.seq + 1) % 2 ^ 16 }
      s.txFobex { o.peer with own := s.ipAddr o.peer.mac } 3 n x.port (fobexBytes 2 0x80 0 o.num x.seq data)

/-- Every stream's turn. -/
def State.formStreams (s : State) : State := (List.range 4).foldl State.formStream s

/-- A stream closed: what waits is discarded (DEDUCED, log 85). -/
def State.closeStream (s : State) (n : Nat) : State :=
  let x := s.strm n
  if x.owner.isNone then s else (s.setStrm n { x with owner := none, fifo := [], due := 0 }).streamEvent

/-- A word written to a stream (R489). -/
def State.streamData (s : State) (src : Src) (n : Nat) (v : Word) : WRes :=
  let x := s.strm n
  if src = .fobex then s.refused ethRefuse 3
  else if x.owner.isNone then s.refused ethRefuse 7
  else if 4096 ≤ x.fifo.length then .ok (s.incSat (Reg.FSV_STREAM_STAT.OVF n))
  else .ok ((s.setStrm n { x with fifo := x.fifo ++ [(v, s.reg (Reg.FSV_STREAM_TAG_at n))] }).formStream n)

/-- Everything waiting is to go out. -/
def State.streamPush (s : State) (n : Nat) : State :=
  (s.setStrm n { s.strm n with due := (s.strm n).fifo.length }).formStream n

/-! ## Sessions (R478 to R480) -/

/-- The update ends, its target uncommitted (R423). -/
def State.endUpdate (s : State) : State := s.onFsv (fun x => { x with upd := none })

/-- A session ends: its streams close, its update ends, its requests and stored reply are gone. -/
def State.endSession (s : State) (k : Nat) : State :=
  if (s.sess k).isNone then s
  else
    let s := (List.range 4).foldl (fun s n => if (s.strm n).owner = some k then s.closeStream n else s) s
    let s := match s.fsv.upd with | some u => if u.slot = k then s.endUpdate else s | none => s
    let flash := s.fsv.reqs.any (fun r => r.slot == some k && flashLane r.op && r.started)
    let s := s.onFsv (fun x => { x with reqs := x.reqs.filter (fun r => r.slot != some k) })
    let s := s.setSess k none
    if flash then (s.onFlc (fun x => { x with hold := false, queue := x.queue.filter (fun j => j.who != .fsv) })).flcGrant else s

/-- A request queued in its lane. -/
def State.enqueue (s : State) (r : FReq) : State :=
  let s := match r.slot with
    | some k => s.onSess k (fun x => { x with exec := some r.seq, peer := r.peer })
    | none => s
  s.onFsv (fun x => { x with reqs := x.reqs ++ [r] })

/-- The checks of R479 and R480 on a request, and its place in its lane. -/
def State.fsvSession (s : State) (p : Peer) (bcast : Bool) (op session seq : Nat) (data : List Nat) : State :=
  let r : FReq := ⟨none, p, bcast, op, seq, session, octetsOf data, false⟩
  if op = 1 ∧ (bcast ∨ session = 0) then s.enqueue r
  else
    match s.findSess session p with
    | none => s.answer p op session seq .noSession []
    | some k =>
      match s.sess k with
      | none => s
      | some x =>
        match x.exec with
        | some e => if e = seq then s else s.answer p op session seq .busy []
        | none =>
          if op = 1 then s.enqueue { r with slot := some k }
          else if seq = x.seq ∧ x.reply.isSome then
            (s.onSess k (fun x => { x with peer := p })).txFobex p 1 0 p.port (natsOf (x.reply.getD []))
          else if seq = (x.seq + 1) % 2 ^ 16 then s.enqueue { r with slot := some k }
          else s.answer p op session seq .notInState []

/-- The opcodes of Table fsv-7. -/
def opcodes : List Nat := [0x01, 0x02, 0x03, 0x04, 0x10, 0x11, 0x20, 0x21, 0x22, 0x30, 0x31, 0x40, 0x50, 0x51, 0x52, 0x60]

/-- A datagram to port 47110 (R477, in its order). -/
def State.fsvDatagram (s : State) (p : Peer) (bcast : Bool) (d : List Nat) : State :=
  let n := d.length
  let w := ofBytes (slice d 0 16)
  let op := bytesAt w 4 1
  let session := bytesAt w 8 4
  let seq := bytesAt w 12 2
  if n ≤ 19 then s.drop p.mac 0x0E
  else if bytesAt w 0 2 ≠ 0x4642 ∨ bytesAt w 3 1 ≠ 0 ∨ bytesAt w 5 1 ≠ 0 ∨ bytesAt w 14 2 ≠ 0 then s.drop p.mac 0x0F
  else if ofBytes (d.drop (n - 4)) ≠ crc32c (d.take (n - 4)) then s.drop p.mac 0x10
  else if bytesAt w 6 2 + 20 ≠ n then s.answer p op session seq .badLength []
  else if bytesAt w 2 1 ≠ 1 then s.answer p op session seq .badVersion []
  else if bcast ∧ op ≠ 1 then s.drop p.mac 0x09
  else if !opcodes.contains op then s.answer p op session seq .badOpcode []
  else s.fsvSession p bcast op session seq ((d.drop 16).take (n - 20))

/-! ## The update's flash operations (R419 to R422) -/

/-- Whether one of the engine's operations waits for the die or is in progress. -/
def State.fsvOnDie (s : State) : Bool :=
  s.flc.queue.any (fun j => j.who == .fsv) || (match s.flc.cur with | some j => j.who == .fsv | none => false) ||
    (match s.flc.pend with | some e => e.job.who == .fsv | none => false)

/-- The UPDATE request in execution. -/
def State.updReq (s : State) : Option FReq :=
  match s.laneHead true with
  | some r => if r.started ∧ r.op ≠ 0x22 then some r else none
  | none => none

/-- A change of the update. -/
def State.onUpd (s : State) (f : Upd → Upd) : State := s.onFsv (fun x => { x with upd := x.upd.map f })

/-- The page being staged, as the controller programs it: 4,128 bytes. -/
def Upd.page (u : Upd) : Nat := ofBytes (natsOf u.buf) % 256 ^ 4128

/-- The reply data of UPDATE_DATA: next page and offset. -/
def updData (next off : Nat) : List Nat := toBytes (next + 2 ^ 16 * off) 4

/-- An erase of UPDATE_BEGIN ends. -/
def State.eraseDone (s : State) (r : FReq) (u : Upd) (err : Nat) : State :=
  if err ≠ 0 then s.endUpdate.finishFlash r .flashFail []
  else
    let s := s.onUpd (fun u => { u with erased := u.erased + 1 })
    if u.erased + 1 < 48 then s
    else s.finishFlash r .ok (toBytes (pack [(u.target, 4), (u.upseq, 4), ((u.len + 4095) / 4096, 4)]) 12)

/-- A program failed (R421): back to the first page of the block; NO_SPARE, and every other failure, ends the update without a resume page
in its reply. -/
def State.programFailed (s : State) (r : FReq) (at' err : Nat) : State :=
  if err = 6 then
    let p := at' / 128 * 128
    let s := s.onUpd (fun u => { u with next := p, off := 0, buf := [], pages := u.pages.take p })
    s.finishFlash r .flashFail (if r.op = 0x51 then updData p 0 else [])
  else s.endUpdate.finishFlash r .flashFail []

/-- A page program ends. -/
def State.programDone (s : State) (r : FReq) (u : Upd) (err : Nat) : State :=
  if err ≠ 0 then s.programFailed r (if r.op = 0x51 then u.next else (u.len + 4095) / 4096) err
  else if r.op = 0x51 then
    let s := s.onUpd (fun u => { u with next := u.next + 1, off := 0, buf := [], pages := u.pages ++ [u.page % 256 ^ 4096] })
    s.finishFlash r .ok (updData (u.next + 1) 0)
  else
    let s := (s.wf Reg.BOOT_TRIAL.SLOT 0).wf Reg.BOOT_TRIAL.TRIES 0
    ((s.evRecord 0x22 u.target u.upseq).endUpdate).finishFlash r .ok []

/-- A log page read for READ_LOG: the reply (R486). -/
def State.logReply (s : State) (r : FReq) (jsn data corr : Nat) : State :=
  let w := ofBytes (natsOf r.data)
  let off := bytesAt w 4 2
  let n := bytesAt w 6 2
  s.finishFlash r .ok
    (toBytes (pack [(jsn, 4), (s.rf Reg.FLC_J_TAIL.JSN, 4), (s.rf Reg.FLC_J_HEAD.JSN, 4), (bytesAt data 4008 1 + 2 ^ 8 * corr, 4)]) 16 ++
      toBytes (bytesAt data off n) n)

/-- An operation of the engine ends. -/
def State.fsvDone (s : State) (e : FEnd) : State :=
  match s.laneHead true with
  | none => s
  | some r =>
    if !r.started then s
    else match e.job.op with
      | .jread k =>
        if r.op ≠ 0x22 then s
        else if e.err = 0 then (s.onFsv (fun x => { x with page := some (k, e.data, e.corr) })).logReply r k e.data e.corr
        else s.finishFlash r (if e.err = 5 then .notRetained else .flashFail) []
      | .erase _ _ =>
        (match s.fsv.upd with
         | some u => s.eraseDone r u e.err
         | none => s.finishFlash r .needPresence [])
      | _ =>
        (match s.fsv.upd with
         | some u => s.programDone r u e.err
         | none => s.finishFlash r .needPresence [])

/-- An operation asked of the die: one that comes to wait while PWRFAIL_N is asserted ends ABORTED (R345). -/
def State.fsvRequest (s : State) (j : FJob) : State :=
  if s.on Reg.FLC_STATUS.PWRFAIL then s.fsvDone (fend j 9) else s.flcRequest j

/-- The next erase of an UPDATE_BEGIN (R419). -/
def State.eraseNext (s : State) : State :=
  match s.updReq, s.fsv.upd with
  | some r, some u =>
    if r.op = 0x50 ∧ u.erased < 48 ∧ !s.fsvOnDie then
      s.fsvRequest ⟨.fsv, .erase (regionBase u.target + u.erased) false, 0⟩
    else s
  | some r, none => if s.fsvOnDie then s else s.finishFlash r .needPresence []
  | none, _ => s

/-- The program of a completed page, or of the commit page (R420, R422). -/
def State.programNext (s : State) : State :=
  match s.updReq, s.fsv.upd with
  | some r, some u =>
    let b := regionBase u.target
    if s.fsvOnDie then s
    else if r.op = 0x51 then s.fsvRequest ⟨.fsv, .program (b + u.next / 128) (u.next % 128) u.page, 0⟩
    else if r.op = 0x52 then
      let n := (u.len + 4095) / 4096
      let sha := sha256 (toBytes (pack (u.pages.map (fun p => (p, 4096)))) u.len)
      s.fsvRequest ⟨.fsv, .program (b + n / 128) (n % 128) (commitPage u.upseq u.len sha), 0⟩
    else s
  | some r, none => if s.fsvOnDie then s else s.finishFlash r .needPresence []
  | none, _ => s

/-! ## Registers of 0x4700 to 0x471F -/

/-- A register of the engine written. -/
def State.writeFsv (s : State) (src : Src) (a : Nat) (v : Word) : WRes :=
  if src = .fobex then s.refused ethRefuse 3
  else if 0x4710 ≤ a ∧ a < 0x4720 ∧ a % 4 = 2 then s.streamData src ((a - 0x4710) / 4) v
  else if 0x4710 ≤ a ∧ a < 0x4720 ∧ a % 4 = 0 then
    (let s := s.writeReg .all a (putBits v 0 1 0)
     .ok (if getBits v 0 1 = 1 then s.streamPush ((a - 0x4710) / 4) else s))
  else .ok (s.writeReg .all a v)

/-- These registers as read. -/
def State.fsvView (s : State) (a : Nat) : Word :=
  let k := s.rf Reg.FSV_SESS_SEL.SLOT
  if a = Reg.FSV_STATUS_at then
    BitVec.ofNat 32 (s.sessions + 8 * b2n s.fsv.upd.isSome +
      16 * ((List.range 4).map (fun n => if (s.strm n).owner.isSome then 2 ^ n else 0)).sum)
  else if a = Reg.FSV_SESS_INFO_at then BitVec.ofNat 32 ((s.sess k).elim 0 Sess.num)
  else if a = Reg.FSV_SESS_ADDR_at then BitVec.ofNat 32 ((s.sess k).elim 0 (fun x => x.peer.ip))
  else if 0x4710 ≤ a ∧ a < 0x4720 ∧ a % 4 = 1 then
    let n := (a - 0x4710) / 4
    putBits (putBits (s.reg a) 0 1 (b2n (s.strm n).owner.isSome)) 1 15 (4 * (s.strm n).fifo.length)
  else s.reg a

end Sys2Proof.Machine
end

