-- ==== Sys2Proof/Machine/Parapet.lean ====
section
/-!
DEFINITION. The Parapet (spec/15): the presence button and its window, the seal, and the Parapet's registers.

Choices and readings of this file: log 51, 61, 62, 63, 64, 114, 115.
-/

namespace Sys2Proof.Machine

/-- A change of the Parapet. -/
def State.onPar (s : State) (f : Par → Par) : State := { s with par := f s.par }

/-- Refusals of Table par-7. -/
def parRefuse : RefuseAt :=
  ⟨Reg.PAR_STATUS.REFUSED, some Reg.PAR_STATUS.REASON, some (Reg.PAR_EVCFG.REFUSE_EVENT, Reg.PAR_EVCFG.REFUSE_EN)⟩

/-! ## The window (R381 to R386) -/

/-- CLOSED (PAR_STATUS.WIN). -/
def wClosed : Nat := 0
/-- HOLDING. -/
def wHolding : Nat := 1
/-- OPEN. -/
def wOpen : Nat := 2
/-- BENCH. -/
def wBench : Nat := 3

/-- The window's state. -/
def State.win (s : State) : Nat := s.rf Reg.PAR_STATUS.WIN

/-- A change of the window's state raises PRES_EVENT (R381). -/
def State.setWin (s : State) (w : Nat) : State :=
  if s.win = w then s else (s.wf Reg.PAR_STATUS.WIN w).raiseIf Reg.PAR_EVCFG.PRES_EVENT Reg.PAR_EVCFG.PRES_EN

/-- The window timer set to WINDOW_MIN. -/
def State.setTimer (s : State) : State :=
  (s.wf Reg.PAR_WIN_LEFT.SEC (60 * s.rf Reg.PAR_CFG.WINDOW_MIN)).onPar (fun p => { p with winUs := 0 })

/-- Which cause of a close stands when several fall in one AON cycle (R385): CLOSE, then expiry, then a short press. -/
def closeRank (why : Nat) : Nat := if why = 2 then 2 else if why = 0 then 1 else 0

/-- The cause of this cycle's close replaced in its EVENT record. -/
def State.recause (s : State) (c : PresClose) (why : Nat) : State :=
  (s.onRec (fun r =>
    { r with events := r.events.map (fun e => if e.stamp.rseq = c.rseq ∧ e.code = 0x11 then { e with a0 := why } else e) })).onPar
    (fun p => { p with closed := some { c with why := why } })

/-- A window that was OPEN closes (Table par-2): PRESENCE_CLOSE with its cause, and an open update ends (R423). Where it has closed in this
AON cycle already, the cause that stands is recorded (R385). -/
def State.closePresence (s : State) (why : Nat) : State :=
  if s.win = wOpen then
    let c : PresClose := ⟨why, s.record.rseq, s.rf Reg.PAR_WIN_LEFT.SEC == 0⟩
    (((s.setWin wClosed).wf Reg.PAR_WIN_LEFT.SEC 0).onPar (fun p => { p with closed := some c })).endUpdate.evRecord 0x11 why
  else
    match s.par.closed with
    | some c => if closeRank c.why < closeRank why then s.recause c why else s
    | none => s

/-- The window timer stands at 0: in an OPEN window, or in the one that closed in this AON cycle. -/
def State.timerOut (s : State) : Bool :=
  if s.win = wOpen then s.rf Reg.PAR_WIN_LEFT.SEC == 0
  else match s.par.closed with | some c => c.due | none => false

/-- The hold of a press reaches HOLD_S: a window opens, or is renewed without a record. -/
def State.holdReached (s : State) : State :=
  let press := s.par.press
  let s := s.onPar (fun p => { p with press := false })
  if s.win = wHolding then
    let s := (s.setWin wOpen).setTimer
    let s := s.onPar (fun p => { p with windows := min (2 ^ 32 - 1) (p.windows + 1) })
    ((s.vaultQueue 3).evRecord 0x10 0).vaultBegin
  else if s.win = wOpen ∧ press = true then s.setTimer
  else s

/-- The level of PRESENCE_LED (R384): in the last minute it toggles every 500 ms, low first. -/
def State.presenceLed (s : State) : Bool :=
  let left := s.rf Reg.PAR_WIN_LEFT.SEC
  if s.held.por then false
  else if s.win = wBench then true
  else if s.win = wOpen then decide (60 < left) || decide (500000 ≤ s.par.winUs)
  else false

/-! ## The seal (R387, R388) -/

/-- The break latched put into the SEAL record, which is written; the EVENT record and the event follow (R388). Nothing where this latching
stands in the record already. -/
def State.recordSeal (s : State) : State :=
  match s.par.latch with
  | none => s
  | some b =>
    if s.par.recorded ∧ s.on Reg.PAR_STATUS.SEAL_BROKEN then s
    else
      let s := (s.wf Reg.PAR_STATUS.SEAL_BROKEN 1).wf Reg.PAR_SEAL_SEC.CAL_SEC b.sec
      let s := (s.wf Reg.PAR_SEAL_INFO.CAL_FRAC b.frac).wf Reg.PAR_SEAL_INFO.CAL_VALID (b2n b.valid)
      let s := s.wf Reg.PAR_SEAL_INFO.ON_VBAT (b2n (!b.powered))
      let s := s.onPar (fun p => { p with recorded := true, brokeOp := s.record.opsec, brokeCycles := s.record.cycles })
      ((((s.vaultQueue 3).evRecord 0x12).raiseIf Reg.PAR_EVCFG.SEAL_EVENT Reg.PAR_EVCFG.SEAL_EN)).vaultBegin

/-- A seal sample (R379, R380, R387): the pulse alternates, and SEAL_B reads `level`; two samples in a row that do not read the level driven
are an open loop. Before the Vault check of a POR the record is not yet known: the check writes it (R388). -/
def State.sealSample (s : State) (level : Bool) : State :=
  let s := s.onPar (fun p => { p with sealA := !p.sealA })
  let isMatch := level == s.par.sealA
  let isOpen := !isMatch && s.par.miss
  let s := s.onPar (fun p => { p with miss := !isMatch })
  let s := if s.held.aon then s else s.wf Reg.PAR_STATUS.SEAL_OPEN (b2n isOpen)
  let s := if isOpen && s.par.latch.isNone then
      s.onPar (fun p => { p with latch := some ⟨s.calSec, s.calFrac, s.on Reg.RTC_STATUS.VALID, !s.held.aon⟩ })
    else s
  if s.held.aon || s.held.por || (!s.boot.sys && s.boot.phase == .start) then s else s.recordSeal

/-! ## Registers 0x4000 to 0x4007 -/

/-- PAR_CFG written (R392, R393). -/
def State.writeParCfg (s : State) (src : Src) (v : Word) : WRes :=
  let h := getBits v 0 4
  let w := getBits v 8 6
  if !(s.permit src true).presOk then ⟨s.refuse parRefuse 1, 1⟩
  else
    let r := s.writeBut .all parRefuse 2 2 Reg.PAR_CFG_at v
      ((if h = 0 ∨ 10 < h then [Reg.PAR_CFG.HOLD_S] else []) ++ (if w = 0 ∨ 60 < w then [Reg.PAR_CFG.WINDOW_MIN] else []))
    ⟨(r.st.vaultQueue 3).vaultBegin, r.code⟩

/-- A Parapet register written. -/
def State.writePar (s : State) (src : Src) (a : Nat) (v : Word) : WRes :=
  if a = Reg.PAR_CFG_at then s.writeParCfg src v else .ok (s.writeReg .all a v)

/-- PAR_WINDOWS and PAR_LIFE show the record's counts. -/
def State.parView (s : State) (a : Nat) : Word :=
  if a = Reg.PAR_WINDOWS_at then BitVec.ofNat 32 s.par.windows
  else if a = Reg.PAR_LIFE_at then BitVec.ofNat 32 (min 0xFFFF s.par.bench + 2 ^ 16 * min 0xFFFF s.par.losses)
  else s.reg a

/-! ## Commands -/

/-- Some island is held in reset. -/
def Held.any (h : Held) : Bool := h.por || h.core || h.extest

/-- The AON domain runs: POR is not asserted (R516). -/
def State.aonUp (s : State) : Bool := !s.held.por

/-- PRESS_BEGIN (R381, R382): the debounced PRESENCE_N goes low. -/
def execPressBegin (s : State) : Host.Outcome State Fault Refusal :=
  if !s.aonUp || s.on Reg.PAR_STATUS.BTN then .next s
  else
    let armed := s.on Reg.PAR_STATUS.ARMED
    let s := (s.wf Reg.PAR_STATUS.BTN 1).wf Reg.PAR_STATUS.ARMED 0
    let s := s.onPar (fun p => { p with press := decide ((armed ∧ s.win = wClosed) ∨ s.win = wOpen) })
    .next (if armed ∧ s.win = wClosed then s.setWin wHolding else s)

/-- PRESS_END (R381): a press shorter than HOLD_S ends HOLDING, or closes an OPEN window. -/
def execPressEnd (s : State) : Host.Outcome State Fault Refusal :=
  if !s.aonUp || !s.on Reg.PAR_STATUS.BTN then .next s
  else
    let press := s.par.press
    let s := (s.wf Reg.PAR_STATUS.BTN 0).onPar (fun p => { p with press := false })
    .next (if s.win = wHolding then s.setWin wClosed
      else if press then s.closePresence 1
      else s)

/-- HOLD_REACHED (R381): the press has lasted HOLD_S seconds. -/
def execHoldReached (s : State) : Host.Outcome State Fault Refusal :=
  if s.aonUp && s.on Reg.PAR_STATUS.BTN then .next s.holdReached else .next s

/-- WINDOW_EXPIRY (R381, R383, R385): the window timer has reached 0. -/
def execWindowExpiry (s : State) : Host.Outcome State Fault Refusal :=
  if s.aonUp && s.timerOut then .next (s.closePresence 0) else .next s

/-- BUTTON_ARMED (R382): PRESENCE_N has been high for 1 s. -/
def execButtonArmed (s : State) : Host.Outcome State Fault Refusal :=
  if s.aonUp && !s.on Reg.PAR_STATUS.BTN then .next (s.wf Reg.PAR_STATUS.ARMED 1) else .next s

/-- BTN_STUCK (R382): a press has lasted more than 60 s; nothing further happens until it ends. -/
def execBtnStuck (s : State) : Host.Outcome State Fault Refusal :=
  if s.aonUp && s.on Reg.PAR_STATUS.BTN then
    .next ((s.wf Reg.PAR_STATUS.BTN_STUCK 1).onPar (fun p => { p with press := false }))
  else .next s

/-- SEAL_SAMPLE (R380, R387): the level SEAL_B reads at the end of the pulse. The VBAT domain samples whatever else is powered. -/
def execSealSample (level : Bool) (s : State) : Host.Outcome State Fault Refusal := .next (s.sealSample level)

/-- PAR_CFG_WRITE (R393). -/
def execParCfgWrite (src : Src) (v : Word) (s : State) : Host.Outcome State Fault Refusal :=
  if s.aonUp then .next (s.writePar src Reg.PAR_CFG_at v).st else .next s

end Sys2Proof.Machine
end

