-- ==== Sys2Proof/Machine/FlashCmd.lean ====
section
/-!
DEFINITION. The commands of the flash store (spec/13): the register path, what the die returns, MAINT operations, initialisation; and
PWRFAIL_N (R345, R366).

Choices and readings of this file: log 55, 56, 95, 113.
-/

namespace Sys2Proof.Machine

/-! ## The end of an operation -/

/-- The result goes to its requester (R331, R371, R419); the die serves the next request. -/
def State.flcEnd (s : State) (e : FEnd) : State :=
  let s := match e.job.who with
    | .reg => s.regDone e
    | .recorder => s.pageEnd (e.err == 0)
    | .fsv => s.fsvDone e
    | _ => s
  (s.recount.flcGrant).vaultBegin

/-- Retirements not yet in the Vault hold a completion back (R342). -/
def State.bbtPending (s : State) : Bool := s.vaultPending (fun id => 0x400 ≤ id && id < 0x404)

/-- An operation has ended for its requester. -/
def State.flcDone (s : State) (e : FEnd) : State :=
  if s.bbtPending then ((s.onFlc (fun x => { x with pend := some e })).recount).vaultBegin else s.flcEnd e

/-- A completion held back goes on once the Vault holds its retirements. -/
def State.flcResume (s : State) : State :=
  match s.flc.pend with
  | some e => if s.bbtPending then s else (s.onFlc (fun x => { x with pend := none })).flcEnd e
  | none => s

/-- The die finishes the operation in progress. -/
def State.dieComplete (s : State) (o : DieOut) : State :=
  match s.flc.cur with
  | none => s
  | some j =>
    let r := s.dieEnd j o
    let s := r.2.dieFree
    match r.1 with
    | some e => s.flcDone e
    | none => (s.recount.flcGrant).vaultBegin

/-- A tail block's erase cut short is due again. -/
def State.tailAgain (s : State) (j : FJob) : State :=
  match j.op with
  | .tail b => s.onFlc (fun x => { x with tailDue := some b })
  | _ => s

/-- The operation in progress cut short, with a result code: its effect on the die, the die free, the result to its requester. -/
def State.dieCut (s : State) (j : FJob) (err : Nat) : State := (((s.interrupt j).dieFree).tailAgain j).flcDone (fend j err)

/-- A queued request ends with ABORTED (R345). -/
def State.abortJobs (s : State) (js : List FJob) : State :=
  match js with
  | [] => s
  | j :: t => ((s.onFlc (fun x => { x with queue := dropJob x.queue j })).tailAgain j).flcEnd (fend j 9) |>.abortJobs t

/-! ## PWRFAIL_N (R345, R366, R500) -/

/-- PWRFAIL_N low shows in three registers (R366, R524). -/
def State.showPwrfail (s : State) (low : Bool) : State :=
  ((s.wf Reg.REC_STATUS.PWRFAIL (b2n low)).wf Reg.AON_STATUS.PWRFAIL (b2n low)).wf Reg.FLC_STATUS.PWRFAIL (b2n low)

/-- The controller: an erase in flight aborted, every waiting command ended. What comes to wait later ends at once. -/
def State.flcPowerFail (s : State) : State :=
  let s := s.wf Reg.FLC_STATUS.PWRFAIL 1
  let s := match s.flc.cur with
    | some j => if s.erasing.isSome then s.dieCut j 9 else s
    | none => s
  s.abortJobs s.flc.queue

/-- PWRFAIL_N asserted. -/
def State.pwrfail (s : State) : State :=
  let s := (s.wf Reg.REC_STATUS.PWRFAIL 1).wf Reg.AON_STATUS.PWRFAIL 1
  let s := s.onRec (fun r => { r with due := [], pwrfails := min (2 ^ 32 - 1) (r.pwrfails + 1), pwrUs := 0, losing := true })
  let s := { s with pwrLow := true }.flush
  let s := if s.online islPanel && s.refSavable then s.vaultQueue 4 else s
  s.flcPowerFail.vaultBegin

/-- PWRFAIL_N deasserted while power remains. -/
def State.pwrGood (s : State) : State :=
  let s := { s with pwrLow := false }.showPwrfail false
  (s.evRecord 9 (min (2 ^ 32 - 1) s.record.pwrUs)).flcGrant

/-! ## Commands -/

/-- A register command of the FLASH island reaches it. -/
def State.toFlash (s : State) (f : State → WRes) : State := if s.online islFlash then (f s).st else s

/-- FLC_READ (R331): FLC_CMD written with OP READ. -/
def execFlcRead (src : Src) (v : Word) (s : State) : Host.Outcome State Fault Refusal :=
  .next (s.toFlash (fun s => s.writeFlc src Reg.FLC_CMD_at (putBits v 0 4 1)))

/-- FLC_APPEND (R334): FLC_CMD written with OP APPEND. -/
def execFlcAppend (src : Src) (v : Word) (s : State) : Host.Outcome State Fault Refusal :=
  .next (s.toFlash (fun s => s.writeFlc src Reg.FLC_CMD_at (putBits v 0 4 2)))

/-- FLC_JREAD (R335): FLC_CMD written with OP JREAD. -/
def execFlcJread (src : Src) (v : Word) (s : State) : Host.Outcome State Fault Refusal :=
  .next (s.toFlash (fun s => s.writeFlc src Reg.FLC_CMD_at (putBits v 0 4 3)))

/-- FLC_PROGRAM (R331, R420): the Fobex engine's next program of the request in execution. -/
def execFlcProgram (s : State) : Host.Outcome State Fault Refusal := .next s.programNext

/-- FLC_ERASE (R339, R419): the Fobex engine's next erase of the request in execution. -/
def execFlcErase (s : State) : Host.Outcome State Fault Refusal := .next s.eraseNext

/-- DIE_OPERATION_COMPLETE (R331, R336 to R342): what the die returns. -/
def execDieOperationComplete (o : DieOut) (s : State) : Host.Outcome State Fault Refusal := .next (s.dieComplete o)

/-- FLC_OPERATION_TIMEOUT (R325): the operation in progress ends with TIMEOUT. -/
def execFlcOperationTimeout (s : State) : Host.Outcome State Fault Refusal :=
  match s.flc.cur with
  | some j => .next (s.dieCut j 8)
  | none => .next s

/-- TAIL_ERASE (R335): the erase of the tail block is requested. -/
def execTailErase (s : State) : Host.Outcome State Fault Refusal :=
  match s.flc.tailDue with
  | some b =>
    if s.on Reg.FLC_STATUS.PWRFAIL then .next s
    else .next ((s.onFlc (fun x => { x with tailDue := none })).flcRequest ⟨.maint, .tail b, 0⟩)
  | none => .next s

/-- BBT_COPY_RECORD (R342): a copy record of the retirements that none holds is requested, for the lowest unused field. -/
def execBbtCopyRecord (s : State) : Host.Outcome State Fault Refusal :=
  let isBbt := fun (j : FJob) => match j.op with | .bbt _ _ => true | _ => false
  let busy := s.flc.queue.any isBbt || (match s.flc.cur with | some j => isBbt j | none => false)
  let pg := (List.range 128).find? (fun p => (SMap.get s.flc.fields none p).isNone)
  match pg with
  | some p =>
    if s.flc.unrec.isEmpty || busy || s.on Reg.FLC_STATUS.PWRFAIL || s.on Reg.FLC_STATUS.INIT then .next s
    else .next (s.flcRequest ⟨.maint, .bbt p (s.bbtRecord (s.flc.unrec.take 12)), 0⟩)
  | none => .next s

/-- FLC_INIT (R343, R344): whether the die answers, and the blocks whose re-erase fails. The Vault's table is read, so the Vault check
comes first (Table boot-2). -/
def execFlcInit (dieOk : Bool) (fails : List Nat) (s : State) : Host.Outcome State Fault Refusal :=
  if !s.online islFlash || s.boot.phase == .start || s.on Reg.FLC_STATUS.PWRFAIL then .next s
  else .next (s.flcInit dieOk fails).vaultBegin

/-- FLC_BUF_DATA_ACCESS (R329): a write of `w`, or a read. -/
def execFlcBufDataAccess (src : Src) (w : Option Word) (s : State) : Host.Outcome State Fault Refusal :=
  match w with
  | some v => .next (s.toFlash (fun s => s.writeFlc src Reg.FLC_BUF_DATA_at v))
  | none => .next (s.toFlash (fun s => .ok s.readBuf.2))

/-- FLC_RDWAIT_WRITE (R326). -/
def execFlcRdwaitWrite (src : Src) (v : Word) (s : State) : Host.Outcome State Fault Refusal :=
  .next (s.toFlash (fun s => s.writeFlc src Reg.FLC_RDWAIT_at v))

/-- PWRFAIL_ASSERT (R345, R366). -/
def execPwrfailAssert (s : State) : Host.Outcome State Fault Refusal :=
  if s.pwrLow then .next s
  else if !s.aonUp then .next { s with pwrLow := true }
  else .next s.pwrfail

/-- PWRFAIL_DEASSERT (R345, R366). -/
def execPwrfailDeassert (s : State) : Host.Outcome State Fault Refusal :=
  if !s.pwrLow then .next s
  else if !s.aonUp then .next { s with pwrLow := false }
  else .next s.pwrGood

end Sys2Proof.Machine
end

