-- ==== Sys2Proof/Machine/Gauge.lean ====
section
/-!
DEFINITION. The gauges (R255 to R267): filters, counters, traces and triggers.

Choices and readings of this file: log 8, 39, 40.
-/

namespace Sys2Proof.Machine

/-- Where a gauge shows refusals. -/
def gauRefuse (g : Nat) : RefuseAt :=
  ⟨Reg.GAU_STATUS.REFUSED g, none, some (Reg.GAU_CTL.REFUSE_EVENT g, Reg.GAU_CTL.REFUSE_EVENT_EN g)⟩
/-- RUNNING. -/
def State.tracing (s : State) (g : Nat) : Bool := s.rf (Reg.GAU_TRACE_POS.STATE g) == 1

/-! ## Filter (R258) -/

/-- A masked compare. -/
def maskedEq (field value mask : Nat) : Bool := (field ^^^ value) &&& mask == 0

/-- Whether a packet matches. -/
def State.gauMatch (s : State) (g : Nat) (h : Head) : Bool :=
  maskedEq h.src.toNat (s.rf (Reg.GAU_FILT_ID.SRC g)) (s.rf (Reg.GAU_FILT_ID.SRCM g)) &&
  maskedEq h.dst.toNat (s.rf (Reg.GAU_FILT_ID.DST g)) (s.rf (Reg.GAU_FILT_ID.DSTM g)) &&
  s.bit (Reg.GAU_FILT_KIND.VCMASK g) h.vc.toNat && s.bit (Reg.GAU_FILT_KIND.TYPEMASK g) h.typ.toNat &&
  (!s.on (Reg.GAU_CTL.AEN g) ||
    (h.typ.toNat ≤ 3 && s.rf (Reg.GAU_FILT_ALO.ADDR g) ≤ h.addr.toNat && h.addr.toNat ≤ s.rf (Reg.GAU_FILT_AHI.ADDR g)))

/-! ## Trace (R261 to R264) -/

/-- A trace record (Table gau-2): CLS is 0 and TAG and ADDR have 8 and 16 bits on the Trestle, DIR is 0 on the Lattice. -/
def State.gauRecord (s : State) (g : Nat) (h : Head) (trig : Bool) : List Word :=
  let lat := decide (g < 16)
  [ BitVec.ofNat 32 (min h.cyc 1023 + 2 ^ 10 * (s.us % 2 ^ 22)),
    BitVec.ofNat 32 (h.typ.toNat + 2 ^ 4 * h.vc.toNat + 2 ^ 6 * b2n (lat && h.cls) + 2 ^ 7 * b2n (!lat && h.dir) + 2 ^ 8 * h.src.toNat +
      2 ^ 16 * h.dst.toNat + 2 ^ 23 * h.len.toNat + 2 ^ 26 * h.gen.toNat),
    if lat then h.addr else BitVec.ofNat 32 (h.addr.toNat % 2 ^ 16),
    BitVec.ofNat 32 ((if lat then h.tag.toNat else h.tag.toNat % 2 ^ 8) + 2 ^ 16 * min h.wait 255 + 2 ^ 24 * b2n (h.starved != 0) + 2 ^ 25 * b2n trig + 2 ^ 26 * g) ]

/-- The trace ended. -/
def State.gauDone (s : State) (g : Nat) : State :=
  (s.wf (Reg.GAU_TRACE_POS.STATE g) 2).onGau g (fun x => { x with post := none })

/-- NEXT after one more record of a buffer of `n`. -/
def State.gauNext (s : State) (g n : Nat) (wraps : Bool) : State :=
  let i := s.rf (Reg.GAU_TRACE_POS.NEXT g) + 1
  if i < n then s.wf (Reg.GAU_TRACE_POS.NEXT g) i
  else if wraps then (s.wf (Reg.GAU_TRACE_POS.NEXT g) 0).wf (Reg.GAU_TRACE_POS.WRAPPED g) 1
  else (s.wf (Reg.GAU_TRACE_POS.NEXT g) i).gauDone g

/-- The four words of a local record. -/
def putRecord (m : SMap Word) (i : Nat) (ws : List Word) : SMap Word :=
  SMap.set (SMap.set (SMap.set (SMap.set m 0 (4 * i) (ws.getD 0 0)) 0 (4 * i + 1) (ws.getD 1 0)) 0 (4 * i + 2) (ws.getD 2 0)) 0
    (4 * i + 3) (ws.getD 3 0)

/-- A record written, locally or towards the Deck ring; a full holding queue drops it. -/
def State.gauStore (s : State) (g : Nat) (ws : List Word) : State :=
  let mode := s.rf (Reg.GAU_TRACE_CTL.MODE g)
  if mode < 2 then
    let i := s.rf (Reg.GAU_TRACE_POS.NEXT g) % 256
    (s.onGau g (fun x => { x with buf := putRecord x.buf i ws, last := some i })).gauNext g 256 (mode == 1)
  else
    let x := s.gau g
    if 16 ≤ x.held.length then (s.incSat (Reg.GAU_TRACE_LOST.COUNT g)).onGau g (fun x => { x with last := none })
    else
      let ahead := (x.held.filter (fun r => r.run == x.run)).length
      let i := (s.rf (Reg.GAU_TRACE_POS.NEXT g) + ahead) % max 1 (s.rf (Reg.GAU_RING_COUNT.VALUE g))
      s.onGau g (fun x => { x with held := x.held ++ [⟨s.rf (Reg.GAU_RING_BASE.VALUE g) + 16 * i, ws, x.run⟩], last := some 0 })

/-- TRIG set in a record. -/
def markTrig (ws : List Word) : List Word := ws.set 3 (putBits (ws.getD 3 0) 25 1 1)

/-- TRIG set in the record of the packet observed last, if it has one. -/
def State.gauMark (s : State) (g : Nat) : State :=
  s.onGau g (fun x =>
    match x.last with
    | none => x
    | some i =>
      if s.rf (Reg.GAU_TRACE_CTL.MODE g) < 2 then
        { x with buf := SMap.set x.buf 0 (4 * i + 3) (putBits (SMap.get x.buf 0 (4 * i + 3)) 25 1 1) }
      else { x with held := x.held.dropLast ++ ((x.held.getLast?).toList.map (fun r => { r with words := markTrig r.words })) })

/-- After the trigger record: POST further records, or DONE at once (R265). -/
def State.gauPost (s : State) (g : Nat) : State :=
  if !s.tracing g || !s.on (Reg.GAU_TRACE_CTL.STOP_ON_TRIG g) then s
  else if s.rf (Reg.GAU_TRACE_CTL.POST g) = 0 then s.gauDone g
  else s.onGau g (fun x => { x with post := some (s.rf (Reg.GAU_TRACE_CTL.POST g)) })

/-- The trigger fires (R265). SRC 7 concerns the packet that waits: its record is still to come while its `head` waits, else it is the one
written last. SRC 6 concerns no recorded packet. The record that ended the trace is marked too. -/
def State.gauFire (s : State) (g : Nat) (head : Bool) : State :=
  let src := s.rf (Reg.GAU_TRIG.SRC g)
  let s := s.wf (Reg.GAU_STATUS.TRIGGERED g) 1
  let s := s.onGau g (fun x => { x with due := false })
  let s := s.raiseIf (Reg.GAU_CTL.TRIG_EVENT g) (Reg.GAU_CTL.TRIG_EVENT_EN g)
  let s := if s.on (Reg.GAU_CTL.REC_EN g) then s.trigger 4 else s
  if src = 7 ∧ head then (if s.tracing g then s.onGau g (fun x => { x with mark := true }) else s)
  else if src = 6 then s.gauPost g
  else (s.gauMark g).gauPost g

/-- A trigger that fell due before fires before anything else happens to the gauge. -/
def State.gauFlush (s : State) (g : Nat) : State := if (s.gau g).due then s.gauFire g false else s

/-- A record counted against POST. -/
def State.gauCountPost (s : State) (g : Nat) : State :=
  match (s.gau g).post with
  | none => s
  | some n => if n ≤ 1 then s.gauDone g else s.onGau g (fun x => { x with post := some (n - 1) })

/-- The record of a matching packet (R261). The packet that waited when SRC 7 fired was starved of credit then. -/
def State.gauTrace (s : State) (g : Nat) (h : Head) : State :=
  if !s.tracing g then s.onGau g (fun x => { x with last := none })
  else
    let trig := (s.gau g).mark && h.starved != 0
    let s := s.gauStore g (s.gauRecord g h trig)
    if trig then (s.onGau g (fun x => { x with mark := false })).gauPost g
    else if (s.gau g).last.isNone then s
    else s.gauCountPost g

/-- A matching packet granted at the point: four counts and a record. A starved cycle is a stall cycle (R257). -/
def State.gauObserve (s : State) (g : Nat) (h : Head) : State :=
  let s := s.gauCount g 0 1
  let s := s.gauCount g 1 (h.len.toNat + 1)
  let s := s.gauCount g 2 h.stall
  let s := s.gauCount g 3 (min h.stallStarved h.stall)
  let s :=
    if s.rf (Reg.GAU_TRIG.SRC g) = 1 ∧ !s.on (Reg.GAU_STATUS.TRIGGERED g) then s.onGau g (fun x => { x with due := true }) else s
  s.gauTrace g h

/-! ## Registers (R256, R259, R262, R263, R266) -/

/-- A PORT value that no point answers to. -/
def State.portRefused (s : State) (g v : Nat) : Bool :=
  if g < 16 then (v == 2 || v == 3) && s.grade.ySize == 1 else 4 ≤ v

/-- The counters cleared. -/
def State.gauClear (s : State) (g : Nat) : State :=
  ((((s.wf (Reg.GAU_CNT.COUNT g 0) 0).wf (Reg.GAU_CNT.COUNT g 1) 0).wf (Reg.GAU_CNT.COUNT g 2) 0).wf (Reg.GAU_CNT.COUNT g 3) 0).wf
    (Reg.GAU_CNT.COUNT g 4) 0

/-- A register written but for fields kept at their old value. -/
def State.writeKeeping (s : State) (a : Nat) (v : Word) (keep : List Fd) : State := s.writeReg .all a (s.keeping v keep)

/-- GAU_CTL written. -/
def State.writeGauCtl (s : State) (g : Nat) (v : Word) : WRes :=
  let en := s.on (Reg.GAU_CTL.EN g)
  let portBad := s.portRefused g (getBits v 1 3) || (en && getBits v 1 3 != s.rf (Reg.GAU_CTL.PORT g))
  let aenBad := en && getBits v 4 1 != s.rf (Reg.GAU_CTL.AEN g)
  let s := s.writeKeeping (Reg.GAU_CTL_at g) v
    ((if portBad then [Reg.GAU_CTL.PORT g] else []) ++ (if aenBad then [Reg.GAU_CTL.AEN g] else []))
  let s := if getBits v 5 1 = 1 then s.gauClear g else s
  if portBad || aenBad then s.refused (gauRefuse g) 0 else .ok s

/-- Whether a Deck ring is refused (R263). -/
def State.ringBad (s : State) (g : Nat) : Bool :=
  let b := s.rf (Reg.GAU_RING_BASE.VALUE g)
  let n := s.rf (Reg.GAU_RING_COUNT.VALUE g)
  let q := if g < 16 then g / 4 else 0
  b % 16 != 0 || decide (n < 16) || decide (1048576 < n) || decide (b < q * 0x800000) || decide ((q + 1) * 0x800000 < b + 16 * n)

/-- An IDLE or DONE trace started. -/
def State.gauStart (s : State) (g : Nat) : State :=
  (s.setReg (Reg.GAU_TRACE_POS_at g) 1).onGau g (fun x => { x with run := x.run + 1, post := none, mark := false, last := none })

/-- GAU_TRACE_CTL written: START uses the values of the word. -/
def State.writeTraceCtl (s : State) (g : Nat) (v : Word) : WRes :=
  let run := s.tracing g
  let start := getBits v 2 1 == 1
  let stop := getBits v 3 1 == 1
  let modeBad := getBits v 0 2 == 3 || (run && getBits v 0 2 != s.rf (Reg.GAU_TRACE_CTL.MODE g))
  let postBad := run && getBits v 8 8 != s.rf (Reg.GAU_TRACE_CTL.POST g)
  let sotBad := run && getBits v 16 1 != s.rf (Reg.GAU_TRACE_CTL.STOP_ON_TRIG g)
  let startBad := start && !run && (getBits v 0 2 == 3 || (getBits v 0 2 == 2 && s.ringBad g))
  let stopBad := stop && !run
  let s := s.writeKeeping (Reg.GAU_TRACE_CTL_at g) v
    ((if modeBad then [Reg.GAU_TRACE_CTL.MODE g] else []) ++ (if postBad then [Reg.GAU_TRACE_CTL.POST g] else []) ++
      (if sotBad then [Reg.GAU_TRACE_CTL.STOP_ON_TRIG g] else []))
  let s := if start && !run && !startBad then s.gauStart g else s
  let s := if stop && run then s.gauDone g else s
  if modeBad || postBad || sotBad || startBad || stopBad then s.refused (gauRefuse g) 0 else .ok s

/-- A write at a gauge's register offset. -/
def State.gauWrite (s : State) (g off : Nat) (v : Word) : WRes :=
  let s := s.gauFlush g
  let a := 0x3000 + 0x20 * g + off
  if off = 0 then s.writeGauCtl g v
  else if off = 0xC then s.writeTraceCtl g v
  else if (2 ≤ off ∧ off ≤ 5) ∨ off = 0xB then (if s.on (Reg.GAU_CTL.EN g) then s.refused (gauRefuse g) 0 else .ok (s.writeReg .all a v))
  else if off = 0xE ∨ off = 0x10 ∨ off = 0x11 then
    (if s.tracing g then s.refused (gauRefuse g) 0 else .ok (s.writeReg .all a v))
  else .ok (s.writeReg .all a v)

/-- GAU_TRACE_DATA as read. -/
def State.gauDataView (s : State) (g : Nat) : Word :=
  SMap.get (s.gau g).buf 0 (4 * s.rf (Reg.GAU_TRACE_SEL.RECORD g) + s.rf (Reg.GAU_TRACE_SEL.WORD g))

/-- Gauges of a Q island reset with it (R267). -/
def State.resetGauges (s : State) (isl : Nat) : State := { s with gauges := SMap.drop s.gauges (fun g => gauIsland g == isl) }

/-! ## Commands -/

/-- GAUGE_CLEAR (R259): GAU_CTL written with CLR; `v` gives its other fields. -/
def execGaugeClear (g : Fin 24) (v : Word) (s : State) : Host.Outcome State Fault Refusal :=
  .next (if s.online (gauIsland g.val) then (s.gauWrite g.val 0 (putBits v 5 1 1)).st else s)

/-- TRACE_START (R262): GAU_TRACE_CTL written with START. -/
def execTraceStart (g : Fin 24) (v : Word) (s : State) : Host.Outcome State Fault Refusal :=
  .next (if s.online (gauIsland g.val) then (s.gauWrite g.val 0xC (putBits v 2 2 1)).st else s)

/-- TRACE_STOP (R262): GAU_TRACE_CTL written with STOP. -/
def execTraceStop (g : Fin 24) (v : Word) (s : State) : Host.Outcome State Fault Refusal :=
  .next (if s.online (gauIsland g.val) then (s.gauWrite g.val 0xC (putBits v 2 2 2)).st else s)

/-- GAUGE_PACKET_OBSERVED (R257, R261): a packet's head is granted at a point of the gauge's router or stop; `mal` for one
discarded there under R244, which is counted whatever the filter and the point. -/
def execGaugePacketObserved (g : Fin 24) (h : Head) (mal : Bool) (s : State) : Host.Outcome State Fault Refusal :=
  .next (if s.gauLive g.val && s.on (Reg.GAU_CTL.EN g.val) then
      let s := s.gauFlush g.val
      if mal then s.gauCount g.val 4 1
      else if h.port.val = s.rf (Reg.GAU_CTL.PORT g.val) ∧ s.gauMatch g.val h then s.gauObserve g.val h
      else s
    else s)

/-- GAUGE_TRIGGER (R265): a condition met by a packet or a count fires, or for SRC 7 an unbroken run of `n` credit-starved
cycles reaches THRESH, `head` telling whether the flit that waits is its packet's head. -/
def execGaugeTrigger (g : Fin 24) (n : Nat) (head : Bool) (s : State) : Host.Outcome State Fault Refusal :=
  .next (if s.gauLive g.val && s.on (Reg.GAU_CTL.EN g.val) && !s.on (Reg.GAU_STATUS.TRIGGERED g.val) &&
      ((s.gau g.val).due || (s.rf (Reg.GAU_TRIG.SRC g.val) == 7 && decide (0 < s.rf (Reg.GAU_TRIG.THRESH g.val)) &&
        decide (s.rf (Reg.GAU_TRIG.THRESH g.val) ≤ n))) then
      s.gauFire g.val head
    else s)

end Sys2Proof.Machine
end

