-- ==== Sys2Proof/Machine/Gio.lean ====
section
/-!
DEFINITION. General I/O (spec/20): GPIO, PWM, UARTs, I²C and SPI masters, triggers, pads, and their registers.

Choices and readings of this file: log 89, 90.
-/

namespace Sys2Proof.Machine

/-- Refusals of R512. -/
def gioRefuse : RefuseAt :=
  ⟨Reg.GPIO_STATUS.REFUSED, some Reg.GPIO_STATUS.REASON, some (Reg.GPIO_EVCFG.REFUSE_EVENT, Reg.GPIO_EVCFG.REFUSE_EN)⟩

/-- A change of the GIO island. -/
def State.onGio (s : State) (f : Gio → Gio) : State := { s with gio := f s.gio }
/-- A PWM channel. -/
def State.pwm (s : State) (c : Nat) : PwmCh := SMap.get s.gio.pwm PwmCh.reset c
/-- A PWM channel replaced. -/
def State.setPwm (s : State) (c : Nat) (v : PwmCh) : State := s.onGio (fun g => { g with pwm := SMap.set g.pwm PwmCh.reset c v })
/-- A UART. -/
def State.uart (s : State) (u : Nat) : Uart := SMap.get s.gio.uart Uart.reset u
/-- A UART replaced. -/
def State.setUart (s : State) (u : Nat) (v : Uart) : State := s.onGio (fun g => { g with uart := SMap.set g.uart Uart.reset u v })
/-- An I²C master. -/
def State.i2c (s : State) (m : Nat) : I2cM := SMap.get s.gio.i2c I2cM.reset m
/-- An I²C master replaced. -/
def State.setI2c (s : State) (m : Nat) (v : I2cM) : State := s.onGio (fun g => { g with i2c := SMap.set g.i2c I2cM.reset m v })
/-- An SPI master. -/
def State.spi (s : State) (m : Nat) : SpiM := SMap.get s.gio.spi SpiM.reset m
/-- An SPI master replaced. -/
def State.setSpi (s : State) (m : Nat) (v : SpiM) : State := s.onGio (fun g => { g with spi := SMap.set g.spi SpiM.reset m v })

/-- EDGE_EVENT. -/
def State.edgeEvent (s : State) : State := s.raiseIf Reg.GPIO_EVCFG.EDGE_EVENT Reg.GPIO_EVCFG.EDGE_EN
/-- SERIAL_EVENT. -/
def State.serialEvent (s : State) : State := s.raiseIf Reg.GPIO_EVCFG.SERIAL_EVENT Reg.GPIO_EVCFG.SERIAL_EN

/-! ## GPIO (R502, R503) -/

/-- The pins of a bank. -/
def bankMask (b : Nat) : Word := if b = 0 then 0xFFFFFFFF else 0xFFFF

/-- OUT bits set or cleared. -/
def State.outBits (s : State) (b : Nat) (v : Word) (up : Bool) : State :=
  let o := s.reg (Reg.GPIO_OUT_at b)
  s.setReg (Reg.GPIO_OUT_at b) (if up then o ||| (v &&& bankMask b) else o &&& ~~~ v)

/-- A pin's level reaches GPIO_IN. -/
def State.pinLevel (s : State) (b i : Nat) (level : Bool) : State :=
  let was := s.bit (Reg.GPIO_IN.PINS b) i
  let s := s.setBit (Reg.GPIO_IN.PINS b) i level
  let sel := (!was && level && s.bit (Reg.GPIO_RISE.PINS b) i) || (was && !level && s.bit (Reg.GPIO_FALL.PINS b) i)
  if sel && !s.bit (Reg.GPIO_EDGE.PINS b) i then (s.setBit (Reg.GPIO_EDGE.PINS b) i true).edgeEvent else s

/-! ## PWM (R504, R505) -/

/-- Whether the watchdog holds a channel: stage 1 with SAFE, and from then to the first boundary after it. -/
def State.pwmHold (s : State) (c : Nat) (boundary : Bool) : Bool :=
  s.on (Reg.PWM_CFG.SAFE c) && (s.on Reg.WDT_STATUS.STAGE1 || (!boundary && (s.pwm c).hold))

/-- PERIOD and DUTY loaded at a boundary. -/
def State.pwmLoad (s : State) (c : Nat) : State :=
  s.setPwm c ⟨s.rf (Reg.PWM_PERIOD.PERIOD c), s.rf (Reg.PWM_DUTY.DUTY c), s.pwmHold c true⟩

/-- Whether PWM_c is active in tick t of its period. -/
def State.pwmActive (s : State) (c t : Nat) : Bool :=
  s.on (Reg.PWM_CFG.EN c) && !(s.pwm c).hold && decide (t < (s.pwm c).duty)
/-- The level PWM_c drives in tick t; none while high-impedance (R502). -/
def State.pwmLevel (s : State) (c t : Nat) : Option Bool :=
  if s.online islGio then some (s.pwmActive c t != s.on (Reg.PWM_CFG.POL c)) else none

/-- PWM_CFG_c written. -/
def State.writePwmCfg (s : State) (c : Nat) (v : Word) : WRes :=
  let was := s.on (Reg.PWM_CFG.EN c)
  let r := s.writeBut .all gioRefuse 4 2 (Reg.PWM_CFG_at c) v
    ((if was ∧ getBits v 0 20 ≠ s.rf (Reg.PWM_CFG.PRESCALE c) then [Reg.PWM_CFG.PRESCALE c] else []) ++
      (if was ∧ getBits v 30 1 ≠ s.rf (Reg.PWM_CFG.POL c) then [Reg.PWM_CFG.POL c] else []))
  let s := if !was && r.st.on (Reg.PWM_CFG.EN c) then r.st.pwmLoad c else r.st
  ⟨s.setPwm c { s.pwm c with hold := s.pwmHold c false }, r.code⟩

/-- Stage 1 of the watchdog reaches the GIO island (R505). -/
def State.pwmSafe (s : State) : State := (List.range 16).foldl (fun s c => s.setPwm c { s.pwm c with hold := s.pwmHold c false }) s

/-! ## UARTs (R506, R507) -/

/-- The next character starts, where one waits and the transmitter is free. -/
def State.uartNext (s : State) (u : Nat) : State :=
  let x := s.uart u
  match x.shift, x.tx with
  | none, b :: t => if s.on (Reg.UART_CFG.EN u) then s.setUart u { x with tx := t, shift := some b, de := s.on (Reg.UART_CFG.RS485 u) } else s
  | _, _ => s

/-- UART_TXD written. -/
def State.uartTx (s : State) (u : Nat) (b : Byte) : WRes :=
  let x := s.uart u
  if 64 ≤ x.tx.length then s.refused gioRefuse 3 else .ok ((s.setUart u { x with tx := x.tx ++ [b] }).uartNext u)

/-- A character ends: the next one, or the transmitter idle and DE low. -/
def State.uartSent (s : State) (u : Nat) : State :=
  let x := s.uart u
  let s := s.setUart u { x with shift := none, de := x.de && !x.tx.isEmpty }
  s.uartNext u

/-- A character received: its byte, whether its stop bit and parity are right, and whether RX was low throughout. -/
def State.uartRx (s : State) (u : Nat) (b : Byte) (stopOk parOk low : Bool) : State :=
  let x := s.uart u
  let par := !parOk && s.rf (Reg.UART_CFG.PARITY u) != 0
  if !s.on (Reg.UART_CFG.EN u) || x.de then s
  else
    let s := if low ∨ !stopOk then s.incSat (Reg.UART_ERR.FRAMING u) else s
    let s := if par then s.incSat (Reg.UART_ERR.PARITY u) else s
    let s := if low then (s.wf (Reg.UART_STAT.BREAK u) 1).serialEvent else s
    if low ∨ !stopOk ∨ par then s
    else if 64 ≤ x.rx.length then s.incSat (Reg.UART_ERR.OVERRUN u)
    else s.setUart u { x with rx := x.rx ++ [b] }

/-- UART_RXD as read. -/
def State.rxdView (s : State) (u : Nat) : Word :=
  match (s.uart u).rx with
  | [] => 0
  | b :: _ => BitVec.ofNat 32 (b.toNat + 256)
/-- The byte a read of UART_RXD removes. -/
def State.rxdPop (s : State) (u : Nat) : State := s.setUart u { s.uart u with rx := (s.uart u).rx.drop 1 }

/-- UART_CFG written (R512). -/
def State.writeUartCfg (s : State) (u : Nat) (v : Word) : WRes :=
  let x := s.uart u
  let bad := (if getBits v 0 16 = 0 then [Reg.UART_CFG.DIV u] else []) ++ (if getBits v 16 2 = 3 then [Reg.UART_CFG.PARITY u] else [])
  if x.shift.isSome ∨ !x.tx.isEmpty ∨ !x.rx.isEmpty then s.refused gioRefuse (if bad.isEmpty then 2 else 1)
  else s.writeBut .all gioRefuse 4 1 (Reg.UART_CFG_at u) v bad

/-! ## I²C masters (R508) -/

/-- I2C_CMD written: a transfer starts. -/
def State.i2cStart (s : State) (m : Nat) (v : Word) : WRes :=
  let x := s.i2c m
  let len := getBits v 8 6
  let rd := getBits v 7 1 = 1
  if x.cur.isSome then s.refused gioRefuse 3
  else if len = 0 ∨ 32 < len then s.refused gioRefuse 1
  else if (¬ rd ∧ x.tx.length < len) ∨ (rd ∧ 32 - x.rx.length < len) then s.refused gioRefuse 2
  else if !s.on (Reg.I2C_CFG.EN m) then .ok s
  else .ok (s.setI2c m { x with cur := some v })

/-- A transfer ends with RESULT `r`; `n`: bytes of a write that were sent; `got`: bytes of a read. -/
def State.i2cEnd (s : State) (m r n : Nat) (got : List Byte) : State :=
  let x := s.i2c m
  match x.cur with
  | none => s
  | some v =>
    let len := getBits v 8 6
    let rd := getBits v 7 1 = 1
    let n := if r = 0 then len else min n len
    let x := if rd then { x with rx := x.rx ++ got.take len } else { x with tx := x.tx.drop n }
    let s := s.setI2c m { x with cur := none, rstart := decide (r = 0) && getBits v 16 1 == 1 }
    (s.wf (Reg.I2C_STAT.RESULT m) r).serialEvent

/-- I2C_DATA written: a transmit byte pushed. -/
def State.i2cPush (s : State) (m : Nat) (b : Byte) : WRes :=
  let x := s.i2c m
  if 32 ≤ x.tx.length then s.refused gioRefuse 3 else .ok (s.setI2c m { x with tx := x.tx ++ [b] })
/-- I2C_DATA read: a received byte popped. -/
def State.i2cPop (s : State) (m : Nat) : State := s.setI2c m { s.i2c m with rx := (s.i2c m).rx.drop 1 }

/-! ## SPI masters (R509) -/

/-- SPI_CMD written: a transfer starts. -/
def State.spiStart (s : State) (m : Nat) (v : Word) : WRes :=
  let x := s.spi m
  let len := getBits v 0 7
  let other := match x.held with | some c => decide (c ≠ getBits v 8 2) | none => false
  if x.cur.isSome then s.refused gioRefuse 3
  else if len = 0 ∨ 64 < len then s.refused gioRefuse 1
  else if x.tx.length < len ∨ 64 - x.rx.length < len ∨ other = true then s.refused gioRefuse 2
  else if !s.on (Reg.SPI_CFG.EN m) then .ok s
  else .ok (s.setSpi m { x with cur := some v })

/-- A transfer ends with the bytes received. -/
def State.spiEnd (s : State) (m : Nat) (got : List Byte) : State :=
  let x := s.spi m
  match x.cur with
  | none => s
  | some v =>
    let len := getBits v 0 7
    let held := if getBits v 10 1 = 1 then some (getBits v 8 2) else none
    (s.setSpi m { tx := x.tx.drop len, rx := x.rx ++ got.take len, cur := none, held := held }).serialEvent

/-- SPI_DATA written: a transmit byte pushed. -/
def State.spiPush (s : State) (m : Nat) (b : Byte) : WRes :=
  let x := s.spi m
  if 64 ≤ x.tx.length then s.refused gioRefuse 3 else .ok (s.setSpi m { x with tx := x.tx ++ [b] })
/-- SPI_DATA read: a received byte popped. -/
def State.spiPop (s : State) (m : Nat) : State := s.setSpi m { s.spi m with rx := (s.spi m).rx.drop 1 }

/-! ## Triggers (R510) -/

/-- TRIG_IN as filtered. -/
def State.trigIn (s : State) (level : Bool) : State :=
  let rise := level && !s.on Reg.GPIO_TRIG.IN
  let s := s.wf Reg.GPIO_TRIG.IN (b2n level)
  if rise then ({ s.wf Reg.GPIO_TRIG.IN_SEEN 1 with trigs := s.trigs ++ [5] }).edgeEvent else s

/-- GPIO_TRIG written. -/
def State.writeTrig (s : State) (v : Word) : WRes :=
  let r := s.writeBut .all gioRefuse 4 1 Reg.GPIO_TRIG_at (putBits v 9 1 0) (if getBits v 16 16 = 0 then [Reg.GPIO_TRIG.WIDTH] else [])
  ⟨if getBits v 9 1 = 1 then r.st.onGio (fun g => { g with pulse := true }) else r.st, r.code⟩

/-- The level of TRIG_OUT; none while high-impedance. -/
def State.trigOut (s : State) : Option Bool := if s.online islGio then some (s.gio.pulse || s.on Reg.GPIO_TRIG.OUT) else none

/-! ## Registers -/

/-- A register of the GIO island written (R512). -/
def State.writeGio (s : State) (src : Src) (a : Nat) (v : Word) : WRes :=
  let p := s.permit src (!s.on Reg.GPIO_CTL.LOCK)
  if 0x4C10 ≤ a ∧ a < 0x4C20 ∧ a % 8 = 2 then .ok (s.outBits ((a - 0x4C10) / 8) v true)
  else if 0x4C10 ≤ a ∧ a < 0x4C20 ∧ a % 8 = 3 then .ok (s.outBits ((a - 0x4C10) / 8) v false)
  else if a = Reg.GPIO_TRIG_at then s.writeTrig v
  else if 0x4D00 ≤ a ∧ a < 0x4D40 ∧ a % 4 = 0 then s.writePwmCfg ((a - 0x4D00) / 4) v
  else if 0x4D00 ≤ a ∧ a < 0x4D40 ∧ a % 4 = 1 ∧ getBits v 0 16 = 0 then s.refused gioRefuse 1
  else if 0x4E00 ≤ a ∧ a < 0x4E20 then
    (let u := (a - 0x4E00) / 8
     if a % 8 = 0 then s.writeUartCfg u v else if a % 8 = 2 then s.uartTx u (v.setWidth 8) else .ok (s.writeReg .all a v))
  else if 0x4E40 ≤ a ∧ a < 0x4E50 ∧ a % 8 = 1 then s.i2cStart ((a - 0x4E40) / 8) v
  else if 0x4E40 ≤ a ∧ a < 0x4E50 ∧ a % 8 = 2 then s.i2cPush ((a - 0x4E40) / 8) (v.setWidth 8)
  else if 0x4E60 ≤ a ∧ a < 0x4E70 ∧ a % 8 = 1 then s.spiStart ((a - 0x4E60) / 8) v
  else if 0x4E60 ≤ a ∧ a < 0x4E70 ∧ a % 8 = 2 then s.spiPush ((a - 0x4E60) / 8) (v.setWidth 8)
  else s.writeOr p gioRefuse 4 a v

/-- UART_STAT, I2C_STAT, SPI_STAT and the data registers as read. -/
def State.gioView (s : State) (a : Nat) : Word :=
  if 0x4E00 ≤ a ∧ a < 0x4E20 ∧ a % 8 = 1 then
    let x := s.uart ((a - 0x4E00) / 8)
    putBits (putBits (putBits (s.reg a) 0 7 x.tx.length) 8 7 x.rx.length) 16 1 (b2n x.shift.isSome)
  else if 0x4E00 ≤ a ∧ a < 0x4E20 ∧ a % 8 = 3 then s.rxdView ((a - 0x4E00) / 8)
  else if 0x4E40 ≤ a ∧ a < 0x4E50 ∧ a % 8 = 2 then
    ((s.i2c ((a - 0x4E40) / 8)).rx.headD 0).setWidth 32
  else if 0x4E40 ≤ a ∧ a < 0x4E50 ∧ a % 8 = 3 then
    let x := s.i2c ((a - 0x4E40) / 8)
    putBits (putBits (putBits (s.reg a) 0 1 (b2n x.cur.isSome)) 8 6 x.tx.length) 16 6 x.rx.length
  else if 0x4E60 ≤ a ∧ a < 0x4E70 ∧ a % 8 = 2 then
    ((s.spi ((a - 0x4E60) / 8)).rx.headD 0).setWidth 32
  else if 0x4E60 ≤ a ∧ a < 0x4E70 ∧ a % 8 = 3 then
    let x := s.spi ((a - 0x4E60) / 8)
    putBits (putBits (putBits (putBits (s.reg a) 0 1 (b2n x.cur.isSome)) 1 1 (b2n x.held.isSome)) 8 7 x.tx.length) 16 7 x.rx.length
  else s.reg a

/-- What a read of these registers removes. -/
def State.gioRead (s : State) (a : Nat) : State :=
  if 0x4E00 ≤ a ∧ a < 0x4E20 ∧ a % 8 = 3 then s.rxdPop ((a - 0x4E00) / 8)
  else if 0x4E40 ≤ a ∧ a < 0x4E50 ∧ a % 8 = 2 then s.i2cPop ((a - 0x4E40) / 8)
  else if 0x4E60 ≤ a ∧ a < 0x4E70 ∧ a % 8 = 2 then s.spiPop ((a - 0x4E60) / 8)
  else s

/-! ## Commands -/

/-- What a command does while the island is ONLINE. -/
def gioStep (s : State) (t : State) : Host.Outcome State Fault Refusal := if s.online islGio then .next t else .next s

/-- GPIO_OSET (R502). -/
def execGpioOset (b : Fin 2) (v : Word) (s : State) : Host.Outcome State Fault Refusal := gioStep s (s.outBits b.val v true)
/-- GPIO_OCLR (R502). -/
def execGpioOclr (b : Fin 2) (v : Word) (s : State) : Host.Outcome State Fault Refusal := gioStep s (s.outBits b.val v false)
/-- GPIO_EDGE (R503): pin 32 b + i is now at `level`; pins 48 to 63 do not exist. -/
def execGpioEdge (b : Fin 2) (i : Fin 32) (level : Bool) (s : State) : Host.Outcome State Fault Refusal :=
  if b.val = 1 ∧ 16 ≤ i.val then .next s else gioStep s (s.pinLevel b.val i.val level)
/-- PWM_PERIOD_BOUNDARY (R504). -/
def execPwmPeriodBoundary (c : Fin 16) (s : State) : Host.Outcome State Fault Refusal :=
  if s.on (Reg.PWM_CFG.EN c) then gioStep s (s.pwmLoad c.val) else .next s
/-- PWM_CFG_WRITE (R504). -/
def execPwmCfgWrite (c : Fin 16) (v : Word) (s : State) : Host.Outcome State Fault Refusal := gioStep s (s.writePwmCfg c.val v).st
/-- UART_TXD (R506). -/
def execUartTxd (u : Fin 4) (b : Byte) (s : State) : Host.Outcome State Fault Refusal := gioStep s (s.uartTx u.val b).st
/-- UART_RECEIVE (R506, R507). -/
def execUartReceive (u : Fin 4) (b : Byte) (stopOk parOk low : Bool) (s : State) : Host.Outcome State Fault Refusal :=
  gioStep s (s.uartRx u.val b stopOk parOk low)
/-- UART_RXD_READ (R506). -/
def execUartRxdRead (u : Fin 4) (s : State) : Host.Outcome State Fault Refusal := gioStep s (s.rxdPop u.val)
/-- UART_CHARACTER_SENT (R507). -/
def execUartCharacterSent (u : Fin 4) (s : State) : Host.Outcome State Fault Refusal :=
  if (s.uart u.val).shift.isSome then gioStep s (s.uartSent u.val) else .next s
/-- I2C_CMD (R508). -/
def execI2cCmd (m : Fin 2) (v : Word) (s : State) : Host.Outcome State Fault Refusal := gioStep s (s.i2cStart m.val v).st
/-- I2C_TRANSFER_END (R508): RESULT 0 to 4, bytes sent, bytes received. -/
def execI2cTransferEnd (m : Fin 2) (r : Fin 5) (n : Nat) (got : List Byte) (s : State) : Host.Outcome State Fault Refusal :=
  gioStep s (s.i2cEnd m.val r.val n got)
/-- I2C_DATA (R508): a write of a byte, or a read. -/
def execI2cData (m : Fin 2) (b : Option Byte) (s : State) : Host.Outcome State Fault Refusal :=
  gioStep s (match b with | some v => (s.i2cPush m.val v).st | none => s.i2cPop m.val)
/-- SPI_CMD (R509). -/
def execSpiCmd (m : Fin 2) (v : Word) (s : State) : Host.Outcome State Fault Refusal := gioStep s (s.spiStart m.val v).st
/-- SPI_TRANSFER_END (R509). -/
def execSpiTransferEnd (m : Fin 2) (got : List Byte) (s : State) : Host.Outcome State Fault Refusal :=
  gioStep s (s.spiEnd m.val got)
/-- SPI_DATA (R509). -/
def execSpiData (m : Fin 2) (b : Option Byte) (s : State) : Host.Outcome State Fault Refusal :=
  gioStep s (match b with | some v => (s.spiPush m.val v).st | none => s.spiPop m.val)
/-- TRIG_IN (R510): the filtered level. -/
def execTrigIn (level : Bool) (s : State) : Host.Outcome State Fault Refusal := gioStep s (s.trigIn level)
/-- TRIG_PULSE (R510): a write of GPIO_TRIG with PULSE 1. -/
def execTrigPulse (v : Word) (s : State) : Host.Outcome State Fault Refusal := gioStep s (s.writeTrig (putBits v 9 1 1)).st
/-- PULSE_END (R510). -/
def execPulseEnd (s : State) : Host.Outcome State Fault Refusal := gioStep s (s.onGio (fun g => { g with pulse := false }))

end Sys2Proof.Machine
end

