-- ==== Sys2Proof/Machine/Reset.lean ====
section
/-!
DEFINITION. Resets (R10, R394, R516, R531): what each kind loads and keeps, the reset of one island, and what holds islands in reset.

Choices and readings of this file: log 4, 5, 65, 73.
-/

namespace Sys2Proof.Machine

/-! ## Holding (R516, R531) -/

/-- Shells of held islands: OFFLINE; the AON island's only while POR is asserted. -/
def heldShells (aonToo : Bool) : SMap Shell :=
  ((List.range 30).filter (fun i => aonToo || i != islAon)).map (fun i => (i, ⟨.offline, [], 0, [], none⟩))

/-- The shells as what holds the islands leaves them. -/
def State.holdShells (s : State) : State :=
  if s.held.any then { s with net := { s.net with shells := heldShells s.held.por } } else s

/-! ## A SYS reset -/

/-- Quarters that keep INIT_DONE (R212). -/
def State.initDone (s : State) : List Nat := (List.range 4).filter (fun q => s.on (Reg.DECK_STATUS.INIT_DONE q))

/-- Sampled reads in flight. -/
def State.samplesInFlight (s : State) : List Nat :=
  s.net.reqs.filterMap (fun r => match r.who with | .sample n => if r.stale then none else some n | _ => none)

/-- Every island of VDD_CORE reset (R10, R26): registers, threads, jobs, channels and queues at their reset values, the networks as
after POR; I-space, scratchpads, mailboxes and the Deck kept; the recorder's reads in flight end in error (DEDUCED, log 73). -/
def State.coreReset (s : State) : State :=
  let s := (List.range 4).foldl State.resetDeck s
  let done := s.initDone
  let lost := s.samplesInFlight
  let s := s.resetFlash
  let s := s.resetCvp
  let s :=
    { s with
      io := s.io.filter (fun e => regKind e.1 == RstKind.por || regKind e.1 == RstKind.vbat), threads := [], net := Net.reset,
      slots := [], accepted := 0, spans := [], dma := [], dmaTurn := (15, 15), gauges := [], ldr := Ldr.reset s.ldr.shdn,
      eth := State.reset.eth, fsv := State.reset.fsv, panel := Panel.reset, gio := Gio.reset }
  let s := done.foldl (fun s q => s.wf (Reg.DECK_STATUS.INIT_DONE q) 1) s
  let s := s.onRec (fun r => { r with page := none })
  lost.foldl (fun s n => s.sampled n none) s

/-- The watchdog held while the sequence runs (R416). -/
def State.holdWdt (s : State) : State := (s.wf Reg.WDT_STATUS.HELD 1).wf Reg.WDT_STATUS.STAGE1 0

/-- A start cause's code (Table boot-1). -/
def ResetCause.code : ResetCause → Nat
  | .por => 0 | .wdt => 1 | .fobex => 2 | .iopll => 3 | .firmware => 4

/-- A SYS reset with a cause's code (R10, R292, R394, R395, R416, R459): the islands return ONLINE, CONV only on a locked CPLL (R274). -/
def State.sysReset (s : State) (cause : Nat) : State :=
  let s := s.coreReset
  let s := if s.on Reg.CPLL_STATUS.LOCK then
      { s with net := { s.net with shells := [] } }.wf (Reg.IOPLL_ISL.STATE islConv) 0
    else s
  let s := (s.wf Reg.SPLL_STATUS.QUEUED 0).onSpll (fun x => { x with queue := none })
  let s := (s.latchReset.holdWdt).wf Reg.BOOT_RESET_CAUSE.CAUSE cause
  let s := s.wf Reg.FLC_STATUS.PWRFAIL (b2n s.pwrLow)
  { s with boot := Boot.start true }.keyBegin

/-- A SYS reset as it is called for: while POR is asserted it adds nothing; while the core's islands are held in reset (R516, R531) it
has its effects in AON alone: the abutment's latches and the watchdog. -/
def State.sysResetNow (s : State) (cause : Nat) : State :=
  if s.held.por || s.held.aon then s else if s.held.any then s.latchReset.holdWdt else s.sysReset cause

/-! ## A power-on reset -/

/-- Inputs of the abutment that are live latch (R458). -/
def State.latchLive (s : State) : State :=
  let live := s.srcLive
  let s := (List.range 16).foldl (fun s i =>
    if live / 2 ^ i % 2 = 1 then s.latch i (s.bit Reg.ABT_OVR_EN.TO_0 i) (s.bit Reg.ABT_OVR_EN.TO_1 i) else s) s
  if live / 2 ^ 16 % 2 = 1 then s.latch 16 true true else s

/-- The state of a power-on reset (R10): everything but the VBAT domain, the Vault and the die's contents at its reset value; the levels of
pins stay. -/
def State.porReset (s : State) (pwrLow : Bool) : State :=
  let s := s.resetFlash
  let d := State.reset
  let r : State :=
    { d with
      pending := s.pending, grade := s.grade, io := s.io.filter (fun e => regKind e.1 == RstKind.vbat),
      vault := { s.vault with queue := [], cur := none },
      flc :=
        { d.flc with
          pages := s.flc.pages, fields := s.flc.fields, intent := s.flc.intent,
          erases := s.flc.erases.filter (fun e => decide (e.1 < 128)) },
      rtc := { s.rtc with slew := 0, sub := 0 },
      par :=
        { d.par with
          latch := s.par.latch, miss := s.par.miss, vbatLost := s.par.vbatLost, recorded := s.par.recorded, sealA := s.par.sealA },
      ovrIn := s.ovrIn, estopN := s.estopN, pwrLow := pwrLow, free := s.free,
      held := { s.held with core := false } }
  (((r.wf Reg.RTC_STATUS.SLEWING 0).showPwrfail pwrLow).latchReset).latchLive

/-! ## The reset of one island (R70, R198, R250, R344) -/

/-- Registers an ISL reset loads. -/
def islOwns (isl a : Nat) : Bool := islandOf a == some isl && regKind a == RstKind.isl

/-- The flash controller's requests, the one in progress first. -/
def State.flashJobs (s : State) : List FJob := s.flc.cur.toList ++ (s.flc.pend.map FEnd.job).toList ++ s.flc.queue
/-- A request of the recorder or of the Fobex engine that an ISL reset of FLASH ends: ABORTED (R333, R344). -/
def State.flashCut (s : State) (j : FJob) : State :=
  match j.who with
  | .recorder => s.pageEnd false
  | .fsv => s.fsvDone (fend j 9)
  | _ => s

/-- An ISL reset: the island's registers and its blocks' state at reset values; its core's unsent requests discarded; memories kept. -/
def State.islandReset (s : State) (isl : Nat) : State :=
  let s := if 16 ≤ isl ∧ isl < 20 then s.resetDeck (isl - 16) else s
  let done := s.initDone
  let cut := if isl = islFlash then s.flashJobs else []
  let hold := s.flc.hold
  let s := if isl = islFlash then s.resetFlash.onFlc (fun x => { x with hold := hold }) else if isl = islConv then s.resetCvp else s
  let s :=
    { s with
      io := SMap.drop s.io (islOwns isl), threads := if isl < 16 then SMap.drop s.threads (fun k => k / 8 == isl) else s.threads,
      spans := if 16 ≤ isl ∧ isl < 20 then SMap.drop s.spans (fun q => q == isl - 16) else s.spans,
      panel := if isl = islPanel then Panel.reset else s.panel, gio := if isl = islGio then Gio.reset else s.gio,
      net := { s.net with reqs := s.net.reqs.filter (fun r => !(r.isl == isl && !r.sent)) } }
  let s := if isl = islFlash then s.wf Reg.FLC_STATUS.PWRFAIL (b2n s.pwrLow) else s
  let s := cut.foldl State.flashCut s
  (done.foldl (fun s q => s.wf (Reg.DECK_STATUS.INIT_DONE q) 1) s).resetGauges isl

/-- A power-down's loss: scratchpad and mailbox of a pier, contents of a quarter (R70, R212); undefined, read as 0 (DESIGN CHOICE, log 4). -/
def State.powerLoss (s : State) (isl : Nat) : State :=
  if isl < 16 then { s with spad := SMap.drop s.spad (fun k => k / 0x10000 == isl), mbox := SMap.drop s.mbox (fun k => k / 0x1000 == isl) }
  else if isl < 20 then s.powerUpDeck (isl - 16)
  else s

/-! ## Commands -/

/-- VBAT_RESET (R10, R389, R415): the RTC, the seal latch and the other VBAT latches. -/
def execVbatReset (s : State) : Host.Outcome State Fault Refusal :=
  let d := State.reset
  .next { s with
    io := s.io.filter (fun e => regKind e.1 != RstKind.vbat), rtc := d.rtc,
    par := { s.par with latch := none, miss := false, vbatLost := true, recorded := false, sealA := false } }

/-- POR (R10, R381, R386, R394): the levels of JUMPER_N and PWRFAIL_N at its release. -/
def execPor (jumperLow pwrfailLow : Bool) (s : State) : Host.Outcome State Fault Refusal :=
  let s := s.porReset pwrfailLow
  let s := { s with held := { s.held with por := false, aon := false } }
  let s := if jumperLow then ((s.wf Reg.PAR_STATUS.JUMPER 1).wf Reg.PAR_STATUS.WIN wBench).onPar (fun p => { p with was := wBench }) else s
  .next s.holdShells

/-- SYS_RESET (R10, R394). A cause of POR is no SYS reset. -/
def execSysReset (c : ResetCause) (s : State) : Host.Outcome State Fault Refusal :=
  if c = .por then .next s else .next (s.sysResetNow c.code)

/-- POR_N_ASSERT (R516): what falls; POR stays asserted until the POR command. -/
def execPorNAssert (c : PorCause) (s : State) : Host.Outcome State Fault Refusal :=
  if c = .vddCore ∧ s.ldr.shdn ∧ !s.held.por then
    .next ({ s.coreReset with held := { s.held with core := true }, boot := Boot.start true }).holdShells
  else if s.held.core ∧ c ≠ .porN ∧ c ≠ .vddAon then .next s
  else
    let s := s.porReset s.pwrLow
    .next ({ s with held := { s.held with por := true, aon := s.held.aon || c == PorCause.vddAon } }).holdShells

/-- IOPLL_RELOCK_TIMEOUT (R272): the IOPLL has not relocked within 1 ms. -/
def execIopllRelockTimeout (s : State) : Host.Outcome State Fault Refusal :=
  if s.spll.ioLost then .next (s.sysResetNow ResetCause.iopll.code) else .next s

/-- FOBEX_RESET_DELAY (R482): 10 ms after the reply to RESET reached the MAC. -/
def execFobexResetDelay (s : State) : Host.Outcome State Fault Refusal :=
  if s.fsv.resetDue then .next (s.sysResetNow ResetCause.fobex.code) else .next s

/-- EXTEST (R531): selected, or left. Which start cause the exit's SYS reset shows the spec does not state: a free value among Table
boot-1's codes. -/
def execExtest (sel : Bool) (s : State) : Host.Outcome State Fault Refusal :=
  if sel = s.held.extest then .next s
  else if s.held.por ∨ s.held.core then .next { s with held := { s.held with extest := sel } }
  else if sel then .next ({ s.coreReset with held := { s.held with extest := true }, boot := Boot.start true }).holdShells
  else
    let s := { s with held := { s.held with extest := false } }
    let f := s.takeFree
    .next (f.2.sysReset (1 + f.1 % 4))

end Sys2Proof.Machine
end

