-- ==== Sys2Proof/Machine/Island.lean ====
section
/-!
DEFINITION. Island actions and the quiesce of a shell (R198, R249 to R252, R287 to R293), and the islands' clock cells.

Choices and readings of this file: log 28, 44.
-/

namespace Sys2Proof.Machine

/-! ## IOPLL_ISL_CMD (R288, R289) -/

/-- The actions of Table clk-5. -/
def actionOf (n : Nat) : Option IslAction :=
  if n = 1 then some .reset else if n = 2 then some .gate else if n = 3 then some .off else if n = 4 then some .restart else none

/-- Whether Table arch-2 permits an action for an island. -/
def actionPermitted (isl : Nat) (a : IslAction) : Bool :=
  let common := (decide (1 ≤ isl) && decide (isl ≤ 15)) || (decide (17 ≤ isl) && decide (isl ≤ 19)) || isl == islConv || isl == islPanel ||
    isl == islGio
  common || (a == .reset && isl == islFlash)

/-- STATE of an island as IOPLL_ISL_n shows it (Table clk-4). -/
def State.islState (s : State) (isl : Nat) : Nat := if s.grade.hasIsland isl then s.rf (Reg.IOPLL_ISL.STATE isl) else 6

/-- Whether Table clk-5 permits an action from a state. -/
def actionFrom (a : IslAction) (st : Nat) : Bool :=
  match a with
  | .restart => st == 3 || st == 4
  | _ => st == 0

/-- The reason a command is refused, 0 for none (R289, R293; DEDUCED, log 44). -/
def State.islRefusal (s : State) (src : Src) (isl act : Nat) : Nat :=
  if src = .fobex then 0xE
  else
    match actionOf act with
    | none => 6
    | some a =>
      if 29 < isl then 6
      else if !s.grade.hasIsland isl then 7
      else if !actionPermitted isl a then 6
      else if s.islState isl = 1 ∨ s.islState isl = 2 ∨ s.islState isl = 5 then 9
      else if !actionFrom a (s.islState isl) then 8
      else if a = .restart ∧ isl = islConv ∧ !s.on Reg.CPLL_STATUS.LOCK then 0xB
      else 0

/-- A Q island about to leave ONLINE (R198): the job running on its Span is aborted, the jobs left with no Span end, and the quiesce begins
once that job's status word is committed. -/
def State.leaveQ (s : State) (q : Nat) : State :=
  match s.span q with
  | some j => (s.abortAll [j.slot]).dropOrphans
  | none => s.dropOrphans.quiesceNow (16 + q)

/-- An accepted action begins. -/
def State.beginAction (s : State) (isl : Nat) (a : IslAction) : State :=
  let s := s.setShell isl { s.shell isl with action := some a }
  if a = .restart then s.wf (Reg.IOPLL_ISL.STATE isl) 5
  else
    let s := s.wf (Reg.IOPLL_ISL.STATE isl) 1
    if 16 ≤ isl ∧ isl < 20 then s.leaveQ (isl - 16) else s.quiesceNow isl

/-- IOPLL_ISL_CMD written. -/
def State.writeIslCmd (s : State) (src : Src) (v : Word) : WRes :=
  let isl := getBits v 0 5
  let why := s.islRefusal src isl (getBits v 8 3)
  if why ≠ 0 then (s.wf Reg.IOPLL_REFUSE_INFO.ISL isl).refused clkRefuse why
  else match actionOf (getBits v 8 3) with
    | some a => .ok (s.beginAction isl a)
    | none => .ok s

/-! ## The end of the quiesce and of the action (R249 to R252) -/

/-- Whether an island's request awaits its response. -/
def Req.awaited (r : Req) (isl : Nat) : Bool := r.isl == isl && r.sent && !r.stale

/-- Whether an island's core has accepted a request and not answered it. -/
def Req.accepted (r : Req) (isl : Nat) : Bool := r.place != .away && r.place != .shell && r.sent && r.resp.isNone && !r.lost && r.dstIsl == isl

/-- The NIs of an island (Table via-1, R224). -/
def islNis (isl : Nat) : List Nat :=
  if isl < 16 then [isl, 32 + isl]
  else if isl < 20 then [4 * isl - 48, 4 * isl - 47, 4 * isl - 46, 4 * isl - 45, 32 + isl]
  else [32 + stopOf isl]

/-- Those whose shell is not OFFLINE yet. -/
def State.openNis (s : State) (isl : Nat) : List Nat := (islNis isl).filter (fun n => !((s.shell isl).off.contains n))

/-- The link of an NI into the network. -/
def niLink (ni isl : Nat) : Nat := if ni < 32 then 96 + ni else 176 + 4 * (ni - 32) + islIndex isl

/-- The shells of NIs OFFLINE, the credits owed to the island's side of their links in escrow (R252). -/
def State.closeNis (s : State) (isl : Nat) (ns : List Nat) : State :=
  match ns with
  | [] => s
  | n :: t =>
    let h := s.shell isl
    (s.setShell isl { h with off := n :: h.off, escrow := SMap.set h.escrow 0 n (s.net.fab.owedWord (niLink n isl)) }).closeNis isl t

/-- Every shell of the island is OFFLINE. An ISL reset or a power-down follows; a GATE of CONV resets it (R452). -/
def State.shellOffline (s : State) (isl : Nat) : State :=
  let h := s.shell isl
  let s := s.setShell isl { h with st := .offline }
  match h.action with
  | some .reset => (s.islandReset isl).wf (Reg.IOPLL_ISL.STATE isl) 2
  | some .off => s.islandReset isl
  | _ => if isl = islConv then s.islandReset isl else s

/-- Whether nothing that came or went through an NI is outstanding (R251). -/
def State.niQuiet (s : State) (isl ni : Nat) : Bool :=
  !(s.net.reqs.any (fun r => (r.awaited isl && r.ni == ni) || (r.accepted isl && r.backRoute.1 == ni)))

/-- The island ONLINE again: the generation counts, tags of the last one are free, the escrowed credits go back (R249, R252). -/
def State.backOnline (s : State) (isl : Nat) : State :=
  let h := s.shell isl
  let s := s.setShell isl ⟨.online, [], (h.gen + 1) % 16, [], none⟩
  let s := s.setReqs (s.net.reqs.filter (fun r => !(r.isl == isl && r.stale && r.lost)))
  (s.admitHeld isl s.net.reqs).wf (Reg.IOPLL_ISL.STATE isl) 0

/-- The action's final state. -/
def State.actionEnd (s : State) (isl : Nat) (a : IslAction) : State :=
  let h := s.shell isl
  let s := match a with
    | .gate => (s.setShell isl { h with action := none }).wf (Reg.IOPLL_ISL.STATE isl) 3
    | .off => ((s.setShell isl { h with action := none }).powerLoss isl).wf (Reg.IOPLL_ISL.STATE isl) 4
    | _ => s.backOnline isl
  (s.wf Reg.IOPLL_STATUS.ISL_DONE 1).clkEvent

/-! ## DIV (R290, R291) -/

/-- IOPLL_ISL_n written: DIV of a P island or of FLASH; every other DIV is fixed. -/
def State.writeDiv (s : State) (src : Src) (isl : Nat) (v : Word) : WRes :=
  let d := getBits v 4 2
  let no := fun (why : Nat) => (s.wf Reg.IOPLL_REFUSE_INFO.ISL isl).refused clkRefuse why
  if src = .fobex then no 0xE
  else if !s.grade.hasIsland isl then .ok s
  else if isl < 16 then .ok (s.wf (Reg.IOPLL_ISL.DIV isl) d)
  else if isl ≠ islFlash then .ok s
  else if d = 3 then no 0xF
  else if d ≠ s.rf (Reg.IOPLL_ISL.DIV isl) ∧ s.flcBusy then no 0xC
  else .ok (s.wf (Reg.IOPLL_ISL.DIV isl) d)

/-- IOPLL_ISL_n as read: an absent island shows ABSENT. -/
def State.islView (s : State) (isl : Nat) : Word := putBits (s.reg (Reg.IOPLL_ISL_at isl)) 0 3 (s.islState isl)

/-! ## Commands -/

/-- IOPLL_ISL_CMD naming an island and an action. -/
def islCmd (isl : Fin 32) (act : Nat) : Word := BitVec.ofNat 32 (isl.val + 256 * act)

/-- ISLAND_RESET (R288). -/
def execIslandReset (src : Src) (isl : Fin 32) (s : State) : Host.Outcome State Fault Refusal :=
  if s.aonUp then .next (s.writeIslCmd src (islCmd isl 1)).st else .next s

/-- ISLAND_GATE (R288). -/
def execIslandGate (src : Src) (isl : Fin 32) (s : State) : Host.Outcome State Fault Refusal :=
  if s.aonUp then .next (s.writeIslCmd src (islCmd isl 2)).st else .next s

/-- ISLAND_OFF (R288). -/
def execIslandOff (src : Src) (isl : Fin 32) (s : State) : Host.Outcome State Fault Refusal :=
  if s.aonUp then .next (s.writeIslCmd src (islCmd isl 3)).st else .next s

/-- ISLAND_RESTART (R288). -/
def execIslandRestart (src : Src) (isl : Fin 32) (s : State) : Host.Outcome State Fault Refusal :=
  if s.aonUp then .next (s.writeIslCmd src (islCmd isl 4)).st else .next s

/-- SHELL_OFFLINE (R251, R252): the shell of NI `ni` in QUIESCE has nothing outstanding; with the island's last shell its action goes on. -/
def execShellOffline (isl : Fin 30) (ni : Fin 56) (s : State) : Host.Outcome State Fault Refusal :=
  if (s.shell isl.val).st = .quiesce ∧ (s.openNis isl.val).contains ni.val ∧ s.niQuiet isl.val ni.val then
    let s := s.closeNis isl.val [ni.val]
    .next (if (s.openNis isl.val).isEmpty then s.shellOffline isl.val else s)
  else .next s

/-- ISLAND_ACTION_END (R288). -/
def execIslandActionEnd (isl : Fin 30) (s : State) : Host.Outcome State Fault Refusal :=
  match (s.shell isl.val).action with
  | some a => if (s.shell isl.val).st = .offline then .next (s.actionEnd isl.val a) else .next s
  | none => .next s

/-- ISLAND_DIV_WRITE (R290, R291). -/
def execIslandDivWrite (src : Src) (isl : Fin 30) (v : Word) (s : State) : Host.Outcome State Fault Refusal :=
  if s.aonUp then .next (s.writeDiv src isl.val v).st else .next s

end Sys2Proof.Machine
end

