-- ==== Sys2Proof/Machine/PierMem.lean ====
section
/-!
DEFINITION. Loads, stores, remote mailbox accesses, ILOAD and IO-space accesses of a pier (spec/02, spec/03; R45 to R48, R55 to R57,
R62, R76 to R80, R120, R128).

Choices and readings of this file: log 14, 17, 19.
-/

namespace Sys2Proof.Machine

/-- An access of R45 issued: kept by the thread, sent on NI `ni`. -/
def State.startAccess (s : State) (th : Thr) (ni : Nat) (a : Access) (op : NetOp) : State :=
  (s.onThr th (fun t => { t with acc := some a })).send th.pier.val ni 0 (.access th) op

/-- A load of `n` bytes, aligned on the Deck to `n`, in `slots` issue slots where local; `w` is its word and `ok` whether
the word is legal. -/
def State.load (s : State) (th : Thr) (ok : Bool) (w : Word) (rb : RegIx) (pi : Bool) (disp : BitVec 12) (n : Nat)
    (split : Bool) (slots : Nat → Nat) (kind : AccKind) : State :=
  s.issue th pi false (fun s =>
    if !ok then illegal w
    else
      let t := s.thr th
      let p := th.pier.val
      let a := (effAddr t rb pi disp).toNat
      match s.dspaceCheck th a n n false with
      | some c => .trap c
      | none =>
        let acc : Access := ⟨kind, postInc t rb pi disp, BitVec.ofNat 32 a⟩
        if isDeck s.grade a then
          (if s.niFull p then .stall else .wait (s.startAccess th p acc (.deckRd (a - deckBase) n)) 1)
        else
          let v := s.localRd p a n
          let s := if split then s.countSplit p a n else s
          .done (s.onThr th (fun t => acc.finish t v)) (s.npc th) (slots a))

/-- A store of `n` bytes of `v`; on the Deck it is posted, at most four per thread (R46). -/
def State.store (s : State) (th : Thr) (ok : Bool) (w : Word) (rb : RegIx) (pi : Bool) (disp : BitVec 12) (n : Nat)
    (split : Bool) (slots : Nat → Nat) (v : Thread → Nat) : State :=
  s.issue th pi false (fun s =>
    if !ok then illegal w
    else
      let t := s.thr th
      let p := th.pier.val
      let a := (effAddr t rb pi disp).toNat
      match s.dspaceCheck th a n n true with
      | some c => .trap c
      | none =>
        if isDeck s.grade a then
          if s.niFull p || decide (4 ≤ t.stores) then .stall
          else
            let s := s.send p p 0 (.store th (BitVec.ofNat 32 a)) (.deckWr (a - deckBase) n (v t))
            .done (s.onThr th (fun t => { t with stores := t.stores + 1 }.applyPost (postInc t rb pi disp))) (s.npc th) 1
        else
          let s := s.localWr p a n (v t)
          let s := if split then s.countSplit p a n else s
          .done (s.onThr th (fun t => t.applyPost (postInc t rb pi disp))) (s.npc th) (slots a))

/-- LD (R76, R77): Gd ← D-space, sign-extended with U = 0; SZ 0b11, and PI = 1 with rd = rb, are illegal. -/
def execLd (th : Thr) (rd rb : RegIx) (sz : BitVec 2) (u pi : Bool) (disp : BitVec 12) (s : State) :
    Host.Outcome State Fault Refusal :=
  let n := szBytes sz
  .next (s.load th (sz != 3 && !(pi && rd == rb)) (encD 0x9 rd.val rb.val sz.toNat u pi disp) rb pi disp n true
    (fun a => slotsOf a n) (.loadG rd n (!u)))

/-- ST (R76): the low 8, 16 or 32 bits of Gd to D-space; SZ 0b11 is illegal. -/
def execSt (th : Thr) (rd rb : RegIx) (sz : BitVec 2) (pi : Bool) (disp : BitVec 12) (s : State) :
    Host.Outcome State Fault Refusal :=
  let n := szBytes sz
  .next (s.store th (sz != 3) (encD 0xA rd.val rb.val sz.toNat false pi disp) rb pi disp n true (fun a => slotsOf a n)
    (fun t => (t.rg rd).toNat % 2 ^ (8 * n)))

/-- FLD (R77): Fd ← D-space, 32 or 64 bits; 32 bits clear Fd[63:32]. -/
def execFld (th : Thr) (rd rb : RegIx) (sz : BitVec 2) (pi : Bool) (disp : BitVec 12) (s : State) :
    Host.Outcome State Fault Refusal :=
  let n := szBytes sz
  .next (s.load th (2 ≤ sz.toNat) (encD 0xB rd.val rb.val sz.toNat false pi disp) rb pi disp n true (fun a => slotsOf a n)
    (.loadF rd n))

/-- FST (R77): Fd, or Fd[31:0], to D-space. -/
def execFst (th : Thr) (rd rb : RegIx) (sz : BitVec 2) (pi : Bool) (disp : BitVec 12) (s : State) :
    Host.Outcome State Fault Refusal :=
  let n := szBytes sz
  .next (s.store th (2 ≤ sz.toNat) (encD 0xC rd.val rb.val sz.toNat false pi disp) rb pi disp n true (fun a => slotsOf a n)
    (fun t => (t.rf rd).toNat % 2 ^ (8 * n)))

/-- Issue slots of a local 32-byte access: one per row touched (R120). -/
def rowsOf32 (a : Nat) : Nat := if a % 8 = 0 then 4 else 5

/-- WLD (R120): Wd ← 32 bytes of D-space. -/
def execWld (th : Thr) (wd : WIx) (rb : RegIx) (pi : Bool) (disp : BitVec 12) (s : State) :
    Host.Outcome State Fault Refusal :=
  .next (s.load th true (encD 0x25 wd.val rb.val 0 false pi disp) rb pi disp 32 false rowsOf32 (.loadW wd))

/-- WST (R120): 32 bytes of Wd to D-space. -/
def execWst (th : Thr) (wd : WIx) (rb : RegIx) (pi : Bool) (disp : BitVec 12) (s : State) :
    Host.Outcome State Fault Refusal :=
  .next (s.store th true (encD 0x26 wd.val rb.val 0 false pi disp) rb pi disp 32 false rowsOf32 (fun t => (t.rw wd).toNat))

/-! ## Remote mailboxes (R62, R78) -/

/-- The pier a mailbox access names; an index of 16 or above stands for an absent pier (R78). -/
def mboxTarget (i : Nat) : Nat := if i < 16 then i else 99

/-- EINFO of a remote mailbox access: pier in [19:16], offset in [11:0] (Table trap-2). -/
def mboxInfo (i off : Nat) : Word := BitVec.ofNat 32 (i % 16 * 65536 + off)

/-- A remote mailbox access of `n` bytes. -/
def State.mboxAccess (s : State) (th : Thr) (sz : BitVec 2) (w : Word) (rb : RegIx) (off : BitVec 12) (kind : AccKind)
    (op : Thread → Nat → NetOp) : State :=
  s.issue th false false (fun s =>
    if sz.toNat < 2 then illegal w
    else
      let t := s.thr th
      let i := (t.rg rb).toNat
      if off.toNat % szBytes sz ≠ 0 then .trap (.mk' cAlign 0 (zx off))
      else if s.niFull th.pier.val then .stall
      else .wait (s.startAccess th th.pier.val ⟨kind, none, mboxInfo i off.toNat⟩ (op t (mboxTarget i))) 1)

/-- MLD (R78): Gd or Fd ← mailbox of pier Gb. -/
def execMld (th : Thr) (rd rb : RegIx) (sz : BitVec 2) (off : BitVec 12) (s : State) : Host.Outcome State Fault Refusal :=
  .next (s.mboxAccess th sz (encD 0xD rd.val rb.val sz.toNat false false off) rb off
    (if sz = 2 then .loadG rd 4 false else .loadF rd 8) (fun _ p => .mboxRd p off.toNat (szBytes sz)))

/-- MST (R78): mailbox of pier Gb ← Gd or Fd. -/
def execMst (th : Thr) (rd rb : RegIx) (sz : BitVec 2) (off : BitVec 12) (s : State) : Host.Outcome State Fault Refusal :=
  .next (s.mboxAccess th sz (encD 0xE rd.val rb.val sz.toNat false false off) rb off .store
    (fun t p => .mboxWr p off.toNat (szBytes sz) (if sz = 2 then (t.rg rd).toNat else (t.rf rd).toNat)))

/-! ## I-space overlay (R80) -/

/-- ILOAD (R80): 8 bytes from D-space Gs to I-space Gd, both then advanced by 8. The checks run in the order of R136. -/
def execIload (th : Thr) (rd rs : RegIx) (s : State) : Host.Outcome State Fault Refusal :=
  .next (s.issue th true false (fun s =>
    let t := s.thr th
    let p := th.pier.val
    let d := (t.rg rd).toNat
    let a := (t.rg rs).toNat
    if 0x20000 < d + 8 then .trap (.mk' cIspace 0 (t.rg rd))
    else if !t.kernel then .trap (.mk' cPriv 0 (encA 0xF rd.val rs.val 0 0))
    else
      match mapFault s.grade a 8 with
      | some e => .trap (.mk' cDspace 1 (BitVec.ofNat 32 e))
      | none =>
        if d % 8 ≠ 0 then .trap (.mk' cAlign 0 (t.rg rd))
        else if a % 8 ≠ 0 then .trap (.mk' cAlign 0 (t.rg rs))
        else
          let acc : Access := ⟨.iload rd rs, none, t.rg rs⟩
          if isDeck s.grade a then
            (if s.niFull p then .stall else .wait (s.startAccess th p acc (.deckRd (a - deckBase) 8)) 1)
          else
            let v := s.localRd p a 8
            .done ((s.iwrite8 p d v).onThr th (fun t => acc.finish t v)) (s.npc th) 1))

/-! ## IO-space (R79, R128) -/

/-- Whether a Task window covers an IO address and Task mode may reach it (R128). -/
def State.taskIo (s : State) (p a : Nat) : Bool :=
  !(0x40 ≤ a && a < 0x80) &&
  [0, 1].any (fun i => s.rf (Reg.PIER_TIOWIN.FIRST p i) ≤ a && a ≤ s.rf (Reg.PIER_TIOWIN.LAST p i))

/-- The Deck addresses whose NI entry the word at a thread's PC needs, and whether it is a store: the access of a load or store, the
descriptor of a table look-up. Nothing for any other word (R45, R46). -/
def Thread.deckAccess (t : Thread) (w : Word) : Option (Nat × Bool) :=
  let op := wOp w
  let a := (effAddr t (Fin.ofNat 32 (wRs w)) (getBits w 12 1 == 1) (BitVec.ofNat 12 w.toNat)).toNat
  if op = 9 ∨ op = 0xB ∨ op = 0x25 then some (a, false)
  else if op = 0xA ∨ op = 0xC ∨ op = 0x26 then some (a, true)
  else if op = 0xF then some ((t.rg (Fin.ofNat 32 (wRs w))).toNat, false)
  else if op = 0x28 then some ((t.rg (Fin.ofNat 32 (wRt w))).toNat, false)
  else none

/-- Whether the instruction at a thread's PC, as it stands in I-space, has to wait for an NI entry, a store slot or earlier stores (R34, R46,
R48): the thread is ineligible by resources. -/
def State.starved (s : State) (th : Thr) : Bool :=
  let t := s.thr th
  let p := th.pier.val
  let w := s.ifetch p t.pc
  pcOk t.pc &&
    (match t.deckAccess w with
     | some (a, st) => isDeck s.grade a && (s.niFull p || (st && decide (4 ≤ t.stores)))
     | none =>
       ((wOp w == 0xD || wOp w == 0xE) && s.niFull p) ||
       (wOp w == 0x11 && decide (0x100 ≤ ioAddr t (Fin.ofNat 32 (wRs w)) (BitVec.ofNat 16 w.toNat)) && t.stores != 0))

/-- The code of PIER_THSTAT for a thread (Table pier-7): BLOCKED while an access is outstanding, a stop completes, or resources lack. -/
def State.stateCode (s : State) (th : Thr) : Nat :=
  match (s.thr th).run with
  | .stopped => 0
  | .waiting => 3
  | .running => if (s.thr th).acc.isSome || (s.thr th).stopReq || s.starved th then 2 else 1

/-- PIER_THSTAT as read. -/
def State.thstatView (s : State) (p : Nat) : Word :=
  BitVec.ofNat 32 (((List.range 8).map (fun t => s.stateCode (thrOf p t) * 8 ^ t)).sum)

/-- A register of a pier as read at its offset: THRUN and THSTAT from the threads, the throttle level in force in STATUS (R69), the others as
stored. -/
def State.pierView (s : State) (p off : Nat) : Word :=
  let a := 0x100 + 0x100 * p + off
  if off = 1 then s.thrunView p
  else if off = 2 then s.thstatView p
  else if off = 4 then putBits (readFields (fieldsAt a) (s.reg a)) 1 2 (s.rf Reg.LDR_STATUS.THROTTLE)
  else readFields (fieldsAt a) (s.reg a)

/-- A pier-local read by a thread; RC fields clear (R16). Reserved addresses read 0 (R536). -/
def State.pierIn (s : State) (p off : Nat) : Word × State :=
  let a := 0x100 + 0x100 * p + off
  (s.pierView p off, s.setReg a (clearRc (fieldsAt a) (s.reg a)))

/-- IN (R79): Gd ← the IO-space register at (Gs + imm16)[15:0]; pier-local addresses complete in stage M. -/
def execInIo (th : Thr) (rd rs : RegIx) (imm : BitVec 16) (s : State) : Host.Outcome State Fault Refusal :=
  .next (s.issue th false false (fun s =>
    let t := s.thr th
    let p := th.pier.val
    let a := ioAddr t rs imm
    if !t.kernel && !s.taskIo p a then .trap (.mk' cPriv 0 (BitVec.ofNat 32 a))
    else if a < 0x100 then
      let r := s.pierIn p a
      .done (r.2.onThr th (fun t => t.wg rd r.1)) (s.npc th) 1
    else .wait (s.startAccess th (32 + p) ⟨.ioIn rd, none, BitVec.ofNat 32 a⟩ (.ioRd a)) 1))

/-- OUT (R79): the IO-space register at (Gs + imm16)[15:0] ← Gd. A global one waits for the thread's Deck stores (R34). -/
def execOutIo (th : Thr) (rd rs : RegIx) (imm : BitVec 16) (s : State) : Host.Outcome State Fault Refusal :=
  .next (s.issue th false false (fun s =>
    let t := s.thr th
    let p := th.pier.val
    let a := ioAddr t rs imm
    if !t.kernel && !s.taskIo p a then .trap (.mk' cPriv 0 (BitVec.ofNat 32 a))
    else if a < 0x100 then .done (s.pierWrite p a (t.rg rd)).st (s.npc th) 1
    else if t.stores ≠ 0 then .stall
    else .wait (s.startAccess th (32 + p) ⟨.ioOut, none, BitVec.ofNat 32 a⟩ (.ioWr a (t.rg rd))) 1))

end Sys2Proof.Machine
end

