-- ==== Sys2Proof/Machine/Via.lean ====
section
/-!
DEFINITION. The Viaduct's registers (R238, R239, R250, R254).

Choices and readings of this file: log 33, 35.
-/

namespace Sys2Proof.Machine

/-- Refusals of R254. -/
def viaRefuse : RefuseAt :=
  ⟨Reg.VIA_STATUS.REFUSED, none, some (Reg.VIA_STATUS.REFUSE_EVENT, Reg.VIA_STATUS.REFUSE_EVENT_EN)⟩

/-- VIA_RT_SEL written: an NI above 55 or absent, or a Trestle entry 24 to 63, is refused and marks the selection. -/
def State.writeRtSel (s : State) (v : Word) : WRes :=
  let ni := getBits v 8 6
  let e := getBits v 0 6
  if !niPresent s.grade ni || (decide (32 ≤ ni) && decide (24 ≤ e)) then (s.wf Reg.VIA_STATUS.SEL_REFUSED 1).refused viaRefuse 0
  else .ok ((s.wf Reg.VIA_STATUS.SEL_REFUSED 0).writeReg .all Reg.VIA_RT_SEL_at v)

/-- VIA_RT_DATA written (R238, R239). A write that fails validation is not a refusal of R13: the entry keeps its value. -/
def State.writeRtData (s : State) (v : Word) : WRes :=
  let ni := s.rf Reg.VIA_RT_SEL.NI
  let e := s.rf Reg.VIA_RT_SEL.ENTRY
  if s.on Reg.VIA_CTL.LOCK || s.on Reg.VIA_STATUS.SEL_REFUSED then s.refused viaRefuse 0
  else if getBits v 31 1 = 0 then .ok (s.setRoute ni e v)
  else
    let f := validateRoute s.grade ni e v
    if f = 0 then .ok (s.setRoute ni e v)
    else
      let s := ((s.wf Reg.VIA_STATUS.ROUTE_FAULT 1).wf Reg.VIA_RT_FAULT.CODE f).wf Reg.VIA_RT_FAULT.NI ni
      ⟨(s.wf Reg.VIA_RT_FAULT.ENTRY e).raiseIf Reg.VIA_STATUS.FAULT_EVENT Reg.VIA_STATUS.FAULT_EVENT_EN, 3⟩

/-- A register of the Viaduct written. -/
def State.writeVia (s : State) (a : Nat) (v : Word) : WRes :=
  if a = Reg.VIA_RT_SEL_at then s.writeRtSel v
  else if a = Reg.VIA_RT_DATA_at then s.writeRtData v
  else s.writeOr ⟨!s.on Reg.VIA_CTL.LOCK, true, true⟩ viaRefuse 0 a v

/-- Tags of an NI marked STALE and not yet freed (R248). -/
def State.staleTags (s : State) (ni isl : Nat) : Nat :=
  ((s.tagHolders ni isl).filter Req.stale).length

/-- The state of an NI's shell for an island: one of an island in QUIESCE may already be OFFLINE. -/
def State.niState (s : State) (ni isl : Nat) : NiState :=
  if (s.shell isl).st = .quiesce ∧ (s.shell isl).off.contains ni then .offline else (s.shell isl).st

/-- Codes of Table via-12. -/
def NiState.code : NiState → Nat
  | .online => 0 | .quiesce => 1 | .offline => 2 | .absent => 3

/-- These registers as read. -/
def State.viaView (s : State) (a : Nat) : Word :=
  let ni := s.rf Reg.VIA_NI_SEL.NI
  if a = Reg.VIA_RT_DATA_at then
    (if s.on Reg.VIA_STATUS.SEL_REFUSED then 0 else s.route (s.rf Reg.VIA_RT_SEL.NI) (s.rf Reg.VIA_RT_SEL.ENTRY))
  else if a = Reg.VIA_NI_STATE_at then
    (match niIsland ni (s.rf Reg.VIA_NI_SEL.ISL) with
     | some i => BitVec.ofNat 32 ((s.niState ni i).code + 2 ^ 4 * ((s.shell i).gen % 16) + 2 ^ 8 * min 255 (s.staleTags ni i))
     | none => BitVec.ofNat 32 NiState.absent.code)
  else if a = Reg.VIA_NI_ESCROW_at then
    (match niIsland ni (s.rf Reg.VIA_NI_SEL.ISL) with
     | some i => SMap.get (s.shell i).escrow 0 ni
     | none => 0)
  else if a = Reg.VIA_GRADE_at then
    BitVec.ofNat 32 ((match s.grade with | .sx16 => 0 | .sx8 => 1 | .sx4 => 2) + 4 * s.grade.routers)
  else s.reg a

/-! ## Commands -/

/-- VIA_RT_SEL_WRITE (R254). -/
def execViaRtSelWrite (v : Word) (s : State) : Host.Outcome State Fault Refusal :=
  if s.online islRing then .next (s.writeVia Reg.VIA_RT_SEL_at v).st else .next s

/-- VIA_RT_DATA_WRITE (R238, R239). -/
def execViaRtDataWrite (v : Word) (s : State) : Host.Outcome State Fault Refusal :=
  if s.online islRing then .next (s.writeVia Reg.VIA_RT_DATA_at v).st else .next s

end Sys2Proof.Machine
end

