-- ==== Sys2Proof/Machine/Watch.lean ====
section
/-!
DEFINITION. The watchdog (R416 to R418), the trial latches (R412, R414) and the BOOT registers (R424).

Choices and readings of this file: log 65, 66.
-/

namespace Sys2Proof.Machine

/-! ## Watchdog -/

/-- Refusals of the watchdog (Table boot-10). -/
def wdtRefuse : RefuseAt := ⟨Reg.WDT_STATUS.REFUSED, some Reg.WDT_STATUS.REASON, none⟩

/-- The count restarted at TIMEOUT_S; stage 1 ends, and with it the abutment's WDT source (R460, R463). -/
def State.wdtRestart (s : State) : State :=
  let s := if s.on Reg.WDT_STATUS.STAGE1 then s.notQuiet else s
  { (s.wf Reg.WDT_STATUS.STAGE1 0).wf Reg.WDT_LEFT.MS (1000 * s.rf Reg.WDT_CFG.TIMEOUT_S) with boot := { s.boot with wdtUs := 0 } }

/-- A pet completed (R416): nothing to restart while the watchdog is held. -/
def State.pet (s : State) : State := if s.on Reg.WDT_STATUS.HELD then s else s.wdtRestart

/-- WDT_KEY written (R417). -/
def State.writeWdtKey (s : State) (src : Src) (v : Word) : WRes :=
  let key := getBits v 0 16
  let armed := s.on Reg.WDT_STATUS.ARMED
  if src = .fobex then s.refused wdtRefuse 3
  else if armed = false ∧ key = 0x5A5A then .ok (s.wf Reg.WDT_STATUS.ARMED 1)
  else
    let s := s.wf Reg.WDT_STATUS.ARMED 0
    .ok (if armed = true ∧ key = 0xA5A5 then s.pet else s.incSat Reg.WDT_STATUS.BADKEY)

/-- WDT_CFG written (R418). -/
def State.writeWdtCfg (s : State) (v : Word) : WRes :=
  let t := getBits v Reg.WDT_CFG.TIMEOUT_S.lo Reg.WDT_CFG.TIMEOUT_S.width
  let g := getBits v Reg.WDT_CFG.GRACE_MS.lo Reg.WDT_CFG.GRACE_MS.width
  if s.on Reg.WDT_CTL.LOCK then s.refused wdtRefuse 2
  else
    s.writeBut .all wdtRefuse 2 1 Reg.WDT_CFG_at v
      ((if t = 0 ∨ 60 < t then [Reg.WDT_CFG.TIMEOUT_S] else []) ++ (if g < 10 ∨ 10000 < g then [Reg.WDT_CFG.GRACE_MS] else []))

/-- Registers 0x4030 to 0x4034 written. -/
def State.writeWdt (s : State) (src : Src) (a : Nat) (v : Word) : WRes :=
  if a = Reg.WDT_KEY_at then s.writeWdtKey src v
  else if a = Reg.WDT_CFG_at then s.writeWdtCfg v
  else .ok (s.writeReg .all a v)

/-- WDT_LEFT as read: TIMEOUT_S while held (R416). -/
def State.wdtLeftView (s : State) : Word :=
  if s.on Reg.WDT_STATUS.HELD then BitVec.ofNat 32 (1000 * s.rf Reg.WDT_CFG.TIMEOUT_S) else s.reg Reg.WDT_LEFT_at

/-- Stage 1 (R416): the cause to P0, snapshot source 2, the grace count. -/
def State.wdtStage1 (s : State) : State :=
  let s := ((s.wf Reg.WDT_STATUS.STAGE1 1).notQuiet).wf Reg.WDT_LEFT.MS (s.rf Reg.WDT_CFG.GRACE_MS)
  let s := { s with boot := { s.boot with wdtUs := 0 }, trigs := s.trigs ++ [2] }
  (s.toPier (stopOf islAon) 0 (fun s => s.cause .wdt 0)).pwmSafe

/-! ## Trial and BOOT registers (R412, R414, R424) -/

/-- Refusals of the BOOT block (Table boot-10). -/
def bootRefuse : RefuseAt :=
  ⟨Reg.BOOT_STATUS.REFUSED, some Reg.BOOT_STATUS.REASON, some (Reg.BOOT_EVCFG.REFUSE_EVENT, Reg.BOOT_EVCFG.REFUSE_EN)⟩

/-- BOOT_CONF_ or BOOT_REJ_ of a user slot: 1 A, 2 B. -/
def confOf (slot : Nat) : Fd := if slot = 1 then Reg.BOOT_CONF_A.UPSEQ else Reg.BOOT_CONF_B.UPSEQ
/-- BOOT_REJ_ of a user slot. -/
def rejOf (slot : Nat) : Fd := if slot = 1 then Reg.BOOT_REJ_A.UPSEQ else Reg.BOOT_REJ_B.UPSEQ

/-- The trial latch cleared. -/
def State.clearTrial (s : State) : State := (s.wf Reg.BOOT_TRIAL.SLOT 0).wf Reg.BOOT_TRIAL.TRIES 0

/-- The trial of the booted image ends (R414): confirmed or rejected. -/
def State.endTrial (s : State) (reject : Bool) : State :=
  let k := s.rf Reg.BOOT_STATUS.SLOT
  let q := s.rf Reg.BOOT_IMAGE.UPSEQ
  ((if reject then s.wf (rejOf k) q else s.wf (confOf k) q).clearTrial).wf Reg.BOOT_STATUS.TRIAL 0

/-- BOOT_CONFIRM written. -/
def State.writeConfirm (s : State) (src : Src) (v : Word) : WRes :=
  if src = .fobex then s.refused bootRefuse 3
  else if getBits v 0 16 ≠ 0xC0F1 then s.refused bootRefuse 2
  else if !s.on Reg.BOOT_STATUS.TRIAL then s.refused bootRefuse 1
  else .ok (s.endTrial (getBits v 16 1 == 1))

/-- BOOT_TRIAL_CTL written (R390, R414): for the host alone, within a window. -/
def State.writeTrialCtl (s : State) (src : Src) (v : Word) : WRes :=
  let c := getBits v 0 2
  if !(s.permit src true).presOk then ⟨s.refuse bootRefuse 4, 1⟩
  else if c = 0 then .ok s
  else if c = 3 ∨ !s.on Reg.BOOT_STATUS.TRIAL then s.refused bootRefuse 1
  else .ok (s.endTrial (c == 2))

/-- BOOT_SYSRESET written (R394, R424). -/
def State.writeSysreset (s : State) (src : Src) (v : Word) : WRes :=
  if src = .fobex then s.refused bootRefuse 3
  else if getBits v 0 16 ≠ 0x5E57 then s.refused bootRefuse 2
  else .ok (s.sysResetNow ResetCause.firmware.code)

/-- Registers 0x4100 to 0x410D written. -/
def State.writeBoot (s : State) (src : Src) (a : Nat) (v : Word) : WRes :=
  if a = Reg.BOOT_CONFIRM_at then s.writeConfirm src v
  else if a = Reg.BOOT_TRIAL_CTL_at then s.writeTrialCtl src v
  else if a = Reg.BOOT_SYSRESET_at then s.writeSysreset src v
  else .ok (s.writeReg .all a v)

/-! ## Commands -/

/-- A register command of the BOOT island reaches it. -/
def State.toBoot (s : State) (f : State → WRes) : State := if s.online islBoot then (f s).st else s

/-- BOOT_CONFIRM (R414): BOOT_CONFIRM written. -/
def execBootConfirm (src : Src) (v : Word) (s : State) : Host.Outcome State Fault Refusal :=
  .next (s.toBoot (fun s => s.writeBoot src Reg.BOOT_CONFIRM_at v))

/-- TRIAL_CONFIRM (R414): BOOT_TRIAL_CTL written with CONFIRM 1. -/
def execTrialConfirm (src : Src) (v : Word) (s : State) : Host.Outcome State Fault Refusal :=
  .next (s.toBoot (fun s => s.writeBoot src Reg.BOOT_TRIAL_CTL_at (putBits v 0 1 1)))

/-- TRIAL_REJECT (R414): BOOT_TRIAL_CTL written with REJECT 1. -/
def execTrialReject (src : Src) (v : Word) (s : State) : Host.Outcome State Fault Refusal :=
  .next (s.toBoot (fun s => s.writeBoot src Reg.BOOT_TRIAL_CTL_at (putBits v 1 1 1)))

/-- BOOT_SYSRESET (R394): BOOT_SYSRESET written. -/
def execBootSysreset (src : Src) (v : Word) (s : State) : Host.Outcome State Fault Refusal :=
  .next (s.toBoot (fun s => s.writeBoot src Reg.BOOT_SYSRESET_at v))

/-- WDT_KEY_WRITE (R417). -/
def execWdtKeyWrite (src : Src) (v : Word) (s : State) : Host.Outcome State Fault Refusal :=
  if s.aonUp then .next (s.writeWdt src Reg.WDT_KEY_at v).st else .next s

/-- WDT_STAGE1 (R416): the count has reached 0, and no pet restarted it. -/
def execWdtStage1 (s : State) : Host.Outcome State Fault Refusal :=
  if s.on Reg.WDT_STATUS.HELD || s.on Reg.WDT_STATUS.STAGE1 || s.rf Reg.WDT_LEFT.MS != 0 then .next s else .next s.wdtStage1

/-- WDT_STAGE2 (R416): the grace count has reached 0, and no pet restarted it. -/
def execWdtStage2 (s : State) : Host.Outcome State Fault Refusal :=
  if s.on Reg.WDT_STATUS.HELD || !s.on Reg.WDT_STATUS.STAGE1 || s.rf Reg.WDT_LEFT.MS != 0 then .next s else .next (s.sysResetNow ResetCause.wdt.code)

end Sys2Proof.Machine
end

