-- ==== Sys2Proof/Machine/Bus.lean ====
section
/-!
DEFINITION. A register access at its island (R533 to R538): writes and reads by block, what a read leaves behind, and the commands that
write or read a register without a behaviour of its own.

Choices and readings of this file: log 38.
-/

namespace Sys2Proof.Machine

/-! ## Writes -/

/-- A Dispatcher register written. -/
def State.writeDisp (s : State) (src : Src) (a : Nat) (v : Word) : WRes :=
  if a = Reg.DISP_SUBMIT_at then s.submit src v
  else if a = Reg.DISP_ABORT_at then s.abortWrite src v
  else .ok (s.writeReg .all a v)

/-- A register of a Deck quarter written. -/
def State.writeDeckReg (s : State) (a : Nat) (v : Word) : WRes :=
  let q := (a - 0x1800) / 0x200
  let off := (a - 0x1800) % 0x200
  if off = 1 then s.writeDeckInit q v
  else if off = 9 then s.writeInj q v
  else .ok (s.writeReg .all a v)

/-- A DMA register written. -/
def State.writeDmaReg (s : State) (a : Nat) (v : Word) : WRes :=
  let c := (a - 0x2100) / 16
  if a < 0x2100 then .ok (s.writeReg .all a v)
  else if (a - 0x2100) % 16 = 0 then s.writeDmaDesc c v
  else if (a - 0x2100) % 16 = 1 then s.writeDmaCtl c v
  else .ok (s.writeReg .all a v)

/-- A register of the Clocks block written. -/
def State.writeClocks (s : State) (src : Src) (a : Nat) (v : Word) : WRes :=
  if a = Reg.IOPLL_ISL_CMD_at then s.writeIslCmd src v
  else if 0x3440 ≤ a ∧ a ≤ 0x345D then s.writeDiv src (a - 0x3440) v
  else s.writeClk src a v

/-- A register of the Parapet, the RTC and AON block, or the watchdog written. -/
def State.writeAonBlock (s : State) (src : Src) (a : Nat) (v : Word) : WRes :=
  if a < 0x4010 then s.writePar src a v else if a < 0x4030 then s.writeAon src a v else s.writeWdt src a v

/-- A write reaching its island (R536, steps 6 and 7): a reserved address takes no effect. -/
def State.busWrite (s : State) (src : Src) (a : Nat) (v : Word) : WRes :=
  if (regRow a).isNone then .ok s
  else if a < 0x1100 then s.pierWrite ((a - 0x100) / 0x100) ((a - 0x100) % 0x100) v
  else if a < 0x1500 then
    (if (a - 0x1100) % 0x100 = 2 then s.writeSpanCtl ((a - 0x1100) / 0x100) v else .ok (s.writeReg .all a v))
  else if a < 0x1600 then s.writeDisp src a v
  else if a < 0x1800 then s.writeLdr src a v
  else if a < 0x2000 then s.writeDeckReg a v
  else if a < 0x2800 then s.writeDmaReg a v
  else if a < 0x3000 then s.writeVia a v
  else if a < 0x3400 then s.gauWrite ((a - 0x3000) / 0x20) ((a - 0x3000) % 0x20) v
  else if a < 0x3600 then s.writeClocks src a v
  else if a < 0x3800 then s.writeFlc src a v
  else if a < 0x4000 then s.writeRec src a v
  else if a < 0x4100 then s.writeAonBlock src a v
  else if a < 0x4200 then s.writeBoot src a v
  else if a < 0x4500 then s.cvpWrite src a v
  else if a < 0x4600 then s.abtWrite src a v
  else if a < 0x4700 then s.writeEth src a v
  else if a < 0x4A00 then s.writeFsv src a v
  else if a < 0x4C00 then s.writePnl src a v
  else s.writeGio src a v

/-! ## Reads -/

/-- A Span register as it stands. -/
def State.spanView (s : State) (a : Nat) : Word :=
  let q := (a - 0x1100) / 0x100
  let off := (a - 0x1100) % 0x100
  if off = 1 then s.spanStatusView q
  else if off = 5 then s.spanInflightView q
  else if off = 7 then s.spanSrtView q
  else s.reg a

/-- An AON-block register as it stands. -/
def State.aonView (s : State) (a : Nat) : Word :=
  if a < 0x4010 then s.parView a
  else if a = Reg.WDT_LEFT_at then s.wdtLeftView
  else s.recView a

/-- A clock register as it stands. -/
def State.clkView (s : State) (a : Nat) : Word :=
  if a = Reg.SPLL_MEMO_DATA_at then s.memoDataView
  else if 0x3440 ≤ a ∧ a ≤ 0x345D then s.islView (a - 0x3440)
  else s.reg a

/-- An abutment register as it stands. -/
def State.abtView (s : State) (a : Nat) : Word :=
  if a = Reg.ABT_STATUS_at then s.abtStatusView
  else if a = Reg.ABT_SRC_LIVE_at then BitVec.ofNat 32 s.srcLive
  else if a = Reg.ABT_QUIET_at then BitVec.ofNat 32 (if s.srcLive = 0 then s.abtQuiet else 0)
  else s.reg a

/-- The word a register shows, before its write-only and reserved bits read 0. -/
def State.busView (s : State) (a : Nat) : Word :=
  if a < 0x1100 then s.pierView ((a - 0x100) / 0x100) ((a - 0x100) % 0x100)
  else if a < 0x1500 then s.spanView a
  else if a < 0x1600 then (if a = Reg.DISP_COUNT_at then s.dispCount else if a = Reg.DISP_SLOT_VIEW_at then s.slotView else s.reg a)
  else if a < 0x1800 then (if a = Reg.LDR_OP_at then s.ldrOpView else if a = Reg.THM_MAX_at then s.thmMaxView else s.reg a)
  else if a < 0x2800 then (if a = Reg.DMA_ACTIVE_at then s.dmaActive else s.reg a)
  else if a < 0x3000 then s.viaView a
  else if a < 0x3400 then (if (a - 0x3000) % 0x20 = 0xF then s.gauDataView ((a - 0x3000) / 0x20) else s.reg a)
  else if a < 0x3600 then s.clkView a
  else if a < 0x3800 then
    (if a = Reg.FLC_BUF_DATA_at then s.readBuf.1 else if a = Reg.FLC_BLK_INFO_at then s.blkInfoView else s.reg a)
  else if a < 0x4000 then s.recView a
  else if a < 0x4100 then s.aonView a
  else if a < 0x4200 then s.reg a
  else if a < 0x4500 then
    (if 0x4240 ≤ a ∧ (a - 0x4240) % 0x20 = 1 then s.cvpStatView ((a - 0x4240) / 0x20) else s.reg a)
  else if a < 0x4600 then s.abtView a
  else if a < 0x4700 then s.ethView a
  else if a < 0x4A00 then s.fsvView a
  else if a < 0x4C00 then s.reg a
  else s.gioView a

/-- What a read does beside answering: RC fields return to their reset values (R16), latches and queues move on. -/
def State.readEffect (s : State) (src : Src) (a : Nat) : State :=
  let s := if src.clears then s.setReg a (clearRc (fieldsAt a) (s.reg a)) else s
  if a = Reg.FLC_BUF_DATA_at then s.readBuf.2
  else if (0x3800 ≤ a ∧ a < 0x4000) ∨ (0x4020 ≤ a ∧ a < 0x4030) then s.recRead a
  else if 0x4600 ≤ a ∧ a < 0x4700 then s.ethRead src.clears a
  else if 0x4C00 ≤ a ∧ a < 0x5000 then s.gioRead a
  else s

/-- A read reaching its island (R536, steps 6 and 7). -/
def State.busRead (s : State) (src : Src) (a : Nat) : Word × State :=
  if (regRow a).isNone then (0, s) else (readFields (fieldsAt a) (s.busView a), s.readEffect src a)

/-- The word a sampled read returns (R357): it changes nothing at the target. -/
def State.sampleWord (s : State) (a : Nat) : Word := if (regRow a).isNone then 0 else readFields (fieldsAt a) (s.busView a)

/-! ## An access made within one command: the Fobex engine's, the sequencer's, the debug unit's -/

/-- How an access ended: data or REFUSE code, or the error response. -/
inductive IoEnd where
  | done (v : Nat)
  | error (e : RespErr)
  deriving DecidableEq, Repr

/-- The island a source's access comes from (R34, R59). -/
def Src.island : Src → Nat
  | .pier th => th.pier.val
  | .fobex => islEth
  | .keystone => islBoot
  | .debug => islAon

/-- A read from an NI, its response included (R536, R237). -/
def State.ioRead (s : State) (src : Src) (ni a : Nat) : IoEnd × State :=
  match s.turnAway ni (.ioRd a) with
  | (some e, s) => (.error e, s)
  | (none, s) =>
    let r := s.busRead src a
    if s.backOk ni (.ioRd a) then (.done r.1.toNat, r.2) else (.error .timeout, r.2.loseResponse (src.island) ni (.ioRd a))

/-- A write from an NI, its acknowledgement included. -/
def State.ioWrite (s : State) (src : Src) (ni a : Nat) (v : Word) : IoEnd × State :=
  match s.turnAway ni (.ioWr a v) with
  | (some e, s) => (.error e, s)
  | (none, s) =>
    let r := s.busWrite src a v
    if s.backOk ni (.ioWr a v) then (.done r.code, r.st) else (.error .timeout, r.st.loseResponse (src.island) ni (.ioWr a v))

/-! ## Commands -/

/-- A global address whose island is present and ONLINE. -/
def State.reaches (s : State) (a : Nat) : Bool := match islandOf a with | some i => s.online i | none => false

/-- REGISTER_WRITE (R11 to R13): a write reaches the register at a global address. -/
def execRegisterWrite (src : Src) (a : BitVec 16) (v : Word) (s : State) : Host.Outcome State Fault Refusal :=
  if s.reaches a.toNat then .next (s.busWrite src a.toNat v).st else .next s

/-- RC_READ (R16): a read reaches the register at a global address. -/
def execRcRead (src : Src) (a : BitVec 16) (s : State) : Host.Outcome State Fault Refusal :=
  if s.reaches a.toNat then .next (s.busRead src a.toNat).2 else .next s

end Sys2Proof.Machine
end

