-- ==== Sys2Proof/Machine/NetOps.lean ====
section
/-!
DEFINITION. Requests served at their destination (R208, R217, R243, R536), responses delivered (R45 to R47, R247 to R251), timeouts, and
broadcasts and deliveries (R66, R133, R135, R229).

Choices and readings of this file: log 8, 31, 34, 36, 38, 97, 99, 100, 117.
-/

namespace Sys2Proof.Machine

/-! ## Arrival at the destination -/

/-- The request with a number. -/
def State.req (s : State) (id : Nat) : Option Req := s.net.reqs.find? (fun r => r.id == id)
/-- A request replaced. -/
def State.setReq (s : State) (r : Req) : State := s.setReqs (s.net.reqs.map (fun x => if x.id = r.id then r else x))
/-- A request gone. -/
def State.dropReq (s : State) (id : Nat) : State := s.setReqs (s.net.reqs.filter (fun r => r.id != id))

/-- Whether an earlier request of the same NI and VC, by the same entry content, has not been served (R236). -/
def earlier (rs : List Req) (r : Req) : Bool :=
  match rs with
  | [] => false
  | x :: t => if x.id = r.id then false else (x.onWay && x.ni == r.ni && x.vc == r.vc && x.route == r.route) || earlier t r

/-- Who a register access is from. -/
def Who.src : Who → Src
  | .access th => .pier th
  | _ => .keystone

/-- Whether the destination cannot serve a request yet: a quarter initialising (R212), a port without the bytes or the room (R447), the Dispatcher's
own accesses behind others (R31, R236). -/
def State.mustWait (s : State) (op : NetOp) : Bool :=
  match op with
  | .deckRd off _ => s.quarterBusy off
  | .deckWr off _ _ => s.quarterBusy off
  | .portRd p n false => decide ((s.cvpPort p).fifo.length < n)
  | .portWr p n _ false => decide (512 < (s.cvpPort p).fifo.length + n)
  | .ioWr a v => s.dispBusy a v
  | _ => false

/-- What the destination does and answers. -/
def State.serve (s : State) (src : Src) (op : NetOp) : Resp × State :=
  match op with
  | .deckRd off n => let r := s.deckRead off n; ((match r.1 with | some v => .data v | none => .err .poison), r.2)
  | .deckWr off n v => let r := s.deckWrite off n v; ((if r.1 then .err .poison else .ack 0), r.2)
  | .mboxRd p off n => (.data (s.mboxRd p off n), s)
  | .mboxWr p off n v => (.ack 0, s.mboxWr p off n v)
  | .spadRd p off n => (.data (s.spadRd p off n), s)
  | .spadWr p off n v => (.ack 0, s.spadWr p off n v)
  | .ioRd a => let r := s.busRead src a; (.data r.1.toNat, r.2)
  | .ioWr a v => let r := s.busWrite src a v; (.ack r.code, r.st)
  | .portRd a n false => (.data (ofBytes (((s.cvpPort a).fifo.take n).map BitVec.toNat)), s.onCvp a (fun h => { h with fifo := h.fifo.drop n }))
  | .portWr a n v false => (.ack 0, s.onCvp a (fun h => { h with fifo := h.fifo ++ (toBytes v n).map (BitVec.ofNat 8) }))
  | .portRd a n true =>
    if s.bufOwned (a / 0x8000) then (.busy, s) else (.data (getBytes s.flc.bufs (0x2000 * (a / 0x8000) + a % 0x2000) n), s)
  | .portWr a n v true =>
    if s.bufOwned (a / 0x8000) then (.busy, s)
    else (.ack 0, s.onFlc (fun x => { x with bufs := setBytes x.bufs (0x2000 * (a / 0x8000) + a % 0x2000) n v }))

/-- What the destination of a request does and answers; a sampled read changes nothing there (R357). -/
def State.serveReq (s : State) (r : Req) : Resp × State :=
  match r.who, r.op with
  | .sample _, .ioRd a => (.data (s.sampleWord a).toNat, s)
  | _, _ => s.serve r.who.src r.op

/-- A response sent back on its VC, or lost for want of a valid entry (R237). -/
def State.respond (s : State) (r : Req) (p : Resp) : State :=
  match s.req r.id with
  | none => s
  | some r =>
    let b := r.backRoute
    if s.routeOk b.1 b.2 then
      (s.setReq { r with resp := some p }).launch
        ⟨r.id, true, 1, r.backLen p + 1,
          netPath s.grade r.op.lattice (s.route b.1 b.2) b.1 r.dstIsl (if r.op.lattice then 2 * (r.ni % 16) + r.ni / 16 else r.ni - 32) r.isl, 0⟩
    else (s.setReq { r with lost := true }).incSat Reg.VIA_ROUTE_ERR_CNT.COUNT

/-! ## The networks carry packets (R227, R232 to R236) -/

/-- A packet's tail has reached its NI: a request is accepted by the core, or turned away by a shell that is not ONLINE (R250); a response is
at its requester's shell. -/
def State.land (s : State) (k : Nat × Bool) : State :=
  match s.req k.1 with
  | none => s
  | some r =>
    if k.2 then s.setReq { r with back := true }
    else
      let up := match r.op.island with | some i => s.online i | none => false
      let s := { s with net := { s.net with arrived := s.net.arrived + 1 } }
      s.setReq { r with place := if up then .core s.net.arrived else .shell }

/-- A cycle of the networks. -/
def State.netCycle (s : State) : State :=
  let r := s.net.fab.cycle
  r.2.foldl State.land { s with net := { s.net with fab := r.1 } }

/-- The networks run until a packet has arrived, `fuel` cycles at most. -/
def State.carry (s : State) (k : Nat × Bool) (fuel : Nat) : State :=
  match fuel with
  | 0 => s
  | n + 1 => if s.net.fab.has k then s.netCycle.carry k n else s

/-- Cycles in which a network that is free of deadlock delivers what it holds. -/
def State.netFuel (s : State) : Nat := 64 * (1 + s.net.fab.pkts.length)

/-- A packet that is still on its way brought to its NI; in a deadlocked network it does not arrive (R240). -/
def State.bring (s : State) (k : Nat × Bool) : State := s.carry k s.netFuel

/-! ## Malformed packets (R244) -/

/-- A malformed request discarded: its source is answered MALFORMED. -/
def State.discardReq (s : State) (r : Req) (d : Damage) : State :=
  let t := s.discard r.backRoute.1
  if r.srcKept d then t.respond r (.err .malformed) else t.setReq { r with lost := true }

/-! ## The order at a Deck bank (R208) -/

/-- The order of arrival at the destination. -/
def Req.arrival (r : Req) : Nat := match r.place with | .core n => n | _ => 0

/-- Whether a request that has waited `w` Deck cycles at its bank is promoted. -/
def State.promoted (s : State) (r : Req) (w : Nat) : Bool :=
  match r.op.bank with
  | none => false
  | some (q, _) =>
    let age := if r.vc = 3 then s.rf (Reg.DECK_ARB.DMA_AGE q) else s.rf (Reg.DECK_ARB.REMOTE_AGE q)
    age != 0 && decide (age ≤ w)

/-- The level of a request (R208): promoted remote, promoted DMA, home Span, remote, DMA. -/
def State.level (s : State) (r : Req) (w : Nat) : Nat :=
  if s.promoted r w then (if r.vc = 3 then 1 else 0) else (if r.vc = 3 then 4 else 3)

/-- Whether request `x` goes before request `r`, which has waited `w` cycles: one that came before it has waited as long at least. -/
def State.goesBefore (s : State) (x r : Req) (w : Nat) : Bool :=
  let lx := s.level x (if x.arrival < r.arrival then w else 0)
  decide (lx < s.level r w) || (lx == s.level r w && decide (x.arrival < r.arrival))

/-- Whether another request has to be granted first at its bank. -/
def State.bankTaken (s : State) (r : Req) (w : Nat) : Bool :=
  match r.op.bank with
  | none => false
  | some b =>
    s.net.reqs.any (fun x => x.id != r.id && x.onWay && x.place != .away && x.op.bank == some b && s.goesBefore x r w) ||
      (decide (2 < s.level r w) && s.homeWaits b.1 b.2)

/-- A promoted grant counted. -/
def State.notePromoted (s : State) (r : Req) (w : Nat) : State :=
  if s.promoted r w then s.incSat (Reg.DECK_PROMOTE_CNT.COUNT ((r.op.bank.getD (0, 0)).1)) else s

/-! ## Arrival -/

/-- A request that has arrived: malformed (R244), turned away by its shell (R250), to wait, or served. A command that resets the networks
while it is served leaves nothing to answer. -/
def State.atNi (s : State) (r : Req) (d : Damage) (w : Nat) : State :=
  if r.place = .away ∨ earlier s.net.reqs r then s
  else if r.bad d then s.discardReq r d
  else match r.place with
    | .away => s
    | .shell => (s.incSat Reg.VIA_OFFLINE_CNT.COUNT).respond r (.err .offline)
    | .core _ =>
      if s.mustWait r.op || s.bankTaken r w then s
      else
        let q := (s.notePromoted r w).serveReq r
        let t := q.2.respond r q.1
        if r.op.lattice && r.vc == 3 then t.dispResume else t

/-- A request arrives, brought through the network where it is still on its way; `d` befell its packet, and it has waited `w` Deck cycles at
its bank. -/
def State.arrive (s : State) (id : Nat) (d : Damage) (w : Nat) (kind : Req → Bool) : State :=
  match s.req id with
  | none => s
  | some r =>
    if !r.onWay || !kind r then s
    else if r.place ≠ .away then s.atNi r d w
    else
      let t := s.bring (id, false)
      match t.req id with
      | none => t
      | some r => t.atNi r d w

/-! ## Delivery to the requester -/

/-- The DMA's code for a page buffer that answers BUSY (Table deck-6). -/
def dmaBusy : Nat := 10

/-- A descriptor's read checked (R217). -/
def State.descOf (s : State) (v : Nat) : Except Nat DmaDesc := if s.checkDesc v = 0 then .ok (parseDesc v) else .error (s.checkDesc v)

/-- A posted Deck store is answered (R46, R47). -/
def State.storeDone (s : State) (th : Thr) (e : Option DefErr) : State :=
  s.onThr th (fun t => { t with stores := t.stores - 1, defErrs := match e with | some d => t.defErrs ++ [d] | none => t.defErrs })

/-- Data reach a requester. -/
def State.tookData (s : State) (w : Who) (v : Nat) : State :=
  match w with
  | .access th => s.finishAccess th v
  | .store th _ => s.storeDone th none
  | .dmaDesc c ep => s.dmaFetched c.val ep (s.descOf v)
  | .dmaRead c ep off n => s.dmaGot c.val ep off n v
  | .dmaWrite c ep _ _ => s.dmaAcked c.val ep
  | .sample n => s.sampled n (some (BitVec.ofNat 32 v))
  | .engine => s

/-- An error reaches a requester: the response's, or BUSY. -/
def State.tookError (s : State) (w : Who) (e : Option RespErr) : State :=
  let code := match e with | some x => x.dma | none => dmaBusy
  match w with
  | .access th => (match e with | some x => s.failAccess th x | none => s)
  | .store th a => s.storeDone th (e.map (fun x => ⟨a, x⟩))
  | .dmaDesc c ep => s.dmaFetched c.val ep (.error 1)
  | .dmaRead c ep _ _ => s.dmaReadErr c.val ep code
  | .dmaWrite c ep off _ => s.dmaWriteErr c.val ep off code
  | .sample n => s.sampled n none
  | .engine => s

/-- A response at its requester's shell: consumed where its tag is STALE or of an earlier generation (R248, R249), else delivered; its tag
is free, and a request that waited for one may go. -/
def State.deliver (s : State) (r : Req) (p : Resp) : State :=
  let s := s.dropReq r.id
  let s := if s.online r.isl then s.admitHeld r.isl s.net.reqs else s
  if r.sent && (r.stale || r.gen != (s.shell r.isl).gen) then s.incSat Reg.VIA_LATE_CNT.COUNT
  else match p with
    | .data v => s.tookData r.who v
    | .ack _ => s.tookData r.who 0
    | .err e => s.tookError r.who (some e)
    | .busy => s.tookError r.who none

/-- A response that has arrived: malformed, and only counted (R244), or delivered. -/
def State.atShell (s : State) (r : Req) (p : Resp) (d : Damage) : State :=
  if r.sent && s.backBad r p d then (s.discard r.ni).setReq { r with resp := none, lost := true } else s.deliver r p

/-- A response reaches its requester's shell, brought through the network where it is still on its way. -/
def State.receive (s : State) (id : Nat) (d : Damage) (kind : Req → Resp → Bool) : State :=
  match s.req id with
  | none => s
  | some r =>
    match r.resp with
    | none => s
    | some p =>
      if !kind r p then s
      else if r.back then s.atShell r p d
      else
        let t := s.bring (id, true)
        match t.req id with
        | none => t
        | some r => if r.back then t.atShell r p d else t

/-- The shell answers a request itself and marks its tag STALE (R248, R251). -/
def State.abandon (s : State) (r : Req) (e : RespErr) : State := (s.setReq { r with stale := true }).tookError r.who (some e)

/-- Every outstanding request of an island abandoned (R251). -/
def State.abandonAll (s : State) (rs : List Req) : State :=
  match rs with
  | [] => s
  | r :: t => ((s.abandon r .offline).incSat Reg.VIA_QSC_ABANDON.COUNT).abandonAll t

/-- Requests an island has accepted and not answered, answered OFFLINE by its shell and counted (R251). -/
def State.answerOffline (s : State) (rs : List Req) : State :=
  match rs with
  | [] => s
  | r :: t =>
    (((s.respond r (.err .offline)).incSat Reg.VIA_OFFLINE_CNT.COUNT).incSat Reg.VIA_QSC_ABANDON.COUNT).answerOffline t

/-! ## Broadcasts and deliveries (R229) -/

/-- The broadcast at pier stop `p` on, `n` of them: a present pier that is not ONLINE drops it; `take` accepts it or not. -/
def State.lap (s : State) (p n : Nat) (acc : Bool) (take : State → Nat → Bool × State) : Bool × State :=
  match n with
  | 0 => (acc, s)
  | n + 1 =>
    if !s.grade.hasIsland p then s.lap (p + 1) n acc take
    else if !s.online p then (s.dropDelivery p).lap (p + 1) n acc take
    else
      let r := take s p
      r.2.lap (p + 1) n (acc || r.1) take

/-- A broadcast removed at its source: one no pier accepted is counted. -/
def State.removed (r : Bool × State) : State := if r.1 then r.2 else r.2.incSat Reg.VIA_EV_NOACC_CNT.COUNT

/-- An event at a pier (R66). -/
def State.eventAt (e : Nat) (s : State) (p : Nat) : Bool × State := if s.accepts p e then (true, s.acceptEvent p e) else (false, s)

/-- The place of a cause's bits in PIER_SYSPEND and PIER_SYSMASK (R133). -/
def SysCause.lo : SysCause → Nat
  | .wdt => 0 | .abutment => 8 | .thermal => 16 | .debt => 24

/-- EINFO of a pending cause. -/
def Thread.setInfo (t : Thread) (c : SysCause) (info : Word) (sub : Nat) : Thread :=
  match c with
  | .wdt => t
  | .abutment => { t with infoAbt := info }
  | .thermal => { t with infoThm := info }
  | .debt => { t with infoDebt := info, debtSub := sub }

/-- A system cause at a pier: pending in each thread whose mask bit is 1, the latest EINFO standing (R133). -/
def State.causeAt (c : SysCause) (info : Word) (sub : Nat) (s : State) (p : Nat) : Bool × State :=
  let ts := (List.range 8).filter (fun t => getBits (s.reg (Reg.PIER_SYSMASK_at p)) (c.lo + t) 1 == 1)
  (!ts.isEmpty,
   ts.foldl (fun s t => (s.setBit (Reg.PIER_SYSPEND.PEND p) (c.lo + t) true).onThr (thrOf p t) (fun x => x.setInfo c info sub)) s)

/-- SPAN_FAULT at its thread (R135). -/
def State.spanFaultAt (s : State) (th : Thr) (info : Word) : State :=
  let p := th.pier.val
  if !s.online p then s.dropDelivery p
  else if s.bit (Reg.PIER_SPF.PEND p) th.th.val then s.incSat (Reg.PIER_SPF.LOST p)
  else (s.setBit (Reg.PIER_SPF.PEND p) th.th.val true).onThr th (fun t => { t with infoSpan := info })

/-! ## Commands -/

/-- IN_PACKET (R536): an IN, READ_IO or sampled read arrives; `d` befell its packet. -/
def execInPacket (id : Nat) (d : Damage) (s : State) : Host.Outcome State Fault Refusal :=
  .next (s.arrive id d 0 (fun r => match r.op with | .ioRd _ => true | _ => false))

/-- OUT_PACKET (R536): an OUT arrives. -/
def execOutPacket (id : Nat) (d : Damage) (s : State) : Host.Outcome State Fault Refusal :=
  .next (s.arrive id d 0 (fun r => match r.op with | .ioWr _ _ => true | _ => false))

/-- DRD (R243): a Trestle DMA read arrives at a port or page buffer. -/
def execDrd (id : Nat) (d : Damage) (s : State) : Host.Outcome State Fault Refusal :=
  .next (s.arrive id d 0 (fun r => match r.op with | .portRd _ _ _ => true | _ => false))

/-- BULK_WRITE (R243): a DMA write, or a Lattice write of more than 8 bytes, arrives. -/
def execBulkWrite (id : Nat) (d : Damage) (w : Nat) (s : State) : Host.Outcome State Fault Refusal :=
  .next (s.arrive id d w (fun r => match r.op with | .portWr _ _ _ _ => true | op => op.latticeWrite.isSome && !r.isInline))

/-- RD (R208): a Lattice read arrives; it has waited `w` Deck cycles at its bank. -/
def execRd (id : Nat) (d : Damage) (w : Nat) (s : State) : Host.Outcome State Fault Refusal :=
  .next (s.arrive id d w (fun r => match r.op with | .deckRd _ _ => true | .mboxRd _ _ _ => true | .spadRd _ _ _ => true | _ => false))

/-- WR_INLINE (R208): a Lattice write of up to 8 bytes arrives. -/
def execWrInline (id : Nat) (d : Damage) (w : Nat) (s : State) : Host.Outcome State Fault Refusal :=
  .next (s.arrive id d w Req.isInline)

/-- READ_RESPONSE (R45, R218, R248). -/
def execReadResponse (id : Nat) (d : Damage) (s : State) : Host.Outcome State Fault Refusal :=
  .next (s.receive id d (fun _ p => match p with | .data _ => true | _ => false))

/-- WRITE_ACKNOWLEDGEMENT (R46, R218, R248). -/
def execWriteAcknowledgement (id : Nat) (d : Damage) (s : State) : Host.Outcome State Fault Refusal :=
  .next (s.receive id d (fun _ p => match p with | .ack _ => true | _ => false))

/-- ERROR_RESPONSE (R47, R220, R247). -/
def execErrorResponse (id : Nat) (d : Damage) (s : State) : Host.Outcome State Fault Refusal :=
  .next (s.receive id d (fun _ p => match p with | .err _ => true | .busy => true | _ => false))

/-- SAMPLE_RESPONSE (R360, R362, R370): the response to a sampled read. -/
def execSampleResponse (id : Nat) (d : Damage) (s : State) : Host.Outcome State Fault Refusal :=
  .next (s.receive id d (fun r _ => match r.who with | .sample _ => true | _ => false))

/-- REQUEST_TIMEOUT (R248): VIA_REQ_TIMEOUT has passed and no response has arrived. -/
def execRequestTimeout (id : Nat) (s : State) : Host.Outcome State Fault Refusal :=
  match s.req id with
  | none => .next s
  | some r =>
    if r.sent && !r.stale && !r.back then .next ((s.incSat Reg.VIA_TIMEOUT_CNT.COUNT).abandon r .timeout) else .next s

/-- QUIESCE_TIMEOUT (R251): what the core has accepted and not answered is answered OFFLINE, what the island awaits is abandoned, and every
shell of the island is OFFLINE. -/
def execQuiesceTimeout (isl : Fin 30) (s : State) : Host.Outcome State Fault Refusal :=
  if (s.shell isl.val).st = .quiesce then
    let s := s.answerOffline (s.net.reqs.filter (fun r => r.accepted isl.val))
    let s := s.abandonAll (s.net.reqs.filter (fun r => r.awaited isl.val))
    .next ((s.closeNis isl.val (s.openNis isl.val)).shellOffline isl.val)
  else .next s

/-- The flits of a broadcast or a delivery (Table via-10). -/
def castFlits (ty aux n payload : Nat) : List Nat :=
  trestleFlits
    { dest := 0, disl := 0, src := 0, sisl := 0, dir := 0, hops := 0, typ := ty, gen := 0, tag := 0, addr := 0, status := 0, aux := aux,
      acc := false, bcast := n == 0 }
    0 n payload

/-- Whether a broadcast or delivery is malformed after what befell it. -/
def castBad (d : Damage) (fs : List Nat) : Bool := match d with | .none => false | d => trestleBad (d.apply fs)

/-- A broadcast goes round the pier stops (R229); a malformed one as far as stop `stop`, where it is discarded (R244). -/
def State.roundTrip (s : State) (bad : Bool) (stop : Nat) (take : State → Nat → Bool × State) : State :=
  if bad then (s.lap 0 (min stop 16) false take).2.discard (32 + stop) else State.removed (s.lap 0 16 false take)

/-- EVENT (R38, R66, R229): the broadcast at place i of those in flight goes round; `d` befell its packet before stop `stop`. -/
def execEvent (i : Nat) (d : Damage) (stop : Fin 24) (s : State) : Host.Outcome State Fault Refusal :=
  match s.net.events[i]? with
  | none => .next s
  | some e =>
    .next ({ s with net := { s.net with events := s.net.events.eraseIdx i } }.roundTrip
      (castBad d (castFlits tyEvent e.val 0 0)) stop.val (State.eventAt e.val))

/-- The cause code a SYSCAUSE packet carries (Table trap-2). -/
def SysCause.code : SysCause → Nat
  | .wdt => 0x21 | .abutment => 0x22 | .thermal => 0x23 | .debt => 0x24

/-- SYSCAUSE (R133, R229): the system cause at place i of those in flight; WDT_STAGE1 is for P0 alone. -/
def execSyscause (i : Nat) (d : Damage) (stop : Fin 24) (s : State) : Host.Outcome State Fault Refusal :=
  match s.net.causes[i]? with
  | none => .next s
  | some (c, info, sub) =>
    let s := { s with net := { s.net with causes := s.net.causes.eraseIdx i } }
    let bad := castBad d (castFlits tyCause c.code 0 0)
    if c = .wdt then .next (if bad then s.discard 32 else (s.lap 0 1 false (State.causeAt c info sub)).2)
    else .next (s.roundTrip bad stop.val (State.causeAt c info sub))

/-- SPANFAULT (R135, R229): the delivery at place i of those in flight, behind the earlier ones to its pier (R236). -/
def execSpanfault (i : Nat) (d : Damage) (s : State) : Host.Outcome State Fault Refusal :=
  match s.net.spanFaults[i]? with
  | none => .next s
  | some (th, info) =>
    if (s.net.spanFaults.take i).any (fun e => e.1.pier == th.pier) then .next s
    else
      let s := { s with net := { s.net with spanFaults := s.net.spanFaults.eraseIdx i } }
      .next (if castBad d (castFlits tySpanFault 0 1 (info.toNat + 2 ^ 24 * th.th.val)) then s.discard (32 + th.pier.val)
        else s.spanFaultAt th info)

end Sys2Proof.Machine
end

