-- ==== Sys2Proof/Machine/EthCmd.lean ====
section
/-!
DEFINITION. Commands of the MACs and of the engine's timers: frames received (R468 to R474), frames sent, pause and discard (R470), ARP,
PHY, MDIO and DHCP (R465 to R475), the firmware queues (R491), streams (R489, R490), sessions and lanes (R480, R481).

Choices and readings of this file: log 78, 80, 95.
-/

namespace Sys2Proof.Machine

/-! ## A frame received (R468 to R474) -/

/-- The destination of a pause frame. -/
def pauseDa : Nat := 0x0180C2000001

/-- The parts of a frame: one 802.1Q tag, its VID, EtherType and what follows it, without the FCS. -/
structure FrameParts where
  tagged : Bool
  vid : Nat
  type : Nat
  body : List Nat
  deriving DecidableEq, Repr

/-- A frame from its bytes, destination address to FCS. -/
def framePartsOf (f : List Nat) : FrameParts :=
  let tag := beAt f 12 2 = 0x8100
  ⟨decide tag, beAt f 14 2 % 4096, if tag then beAt f 16 2 else beAt f 12 2, ((f.take (f.length - 4)).drop (if tag then 18 else 14))⟩

/-- A pause frame (R470). -/
def isPause (f : List Nat) : Bool :=
  let p := framePartsOf f
  p.type == 0x8808 && beAt f 0 6 == pauseDa && beAt p.body 0 2 == 1

/-- The VLAN rule of R469. -/
def State.vlanOk (s : State) (m : Nat) (p : FrameParts) : Bool :=
  let vid := if p.tagged then p.vid else 0
  if s.on (Reg.ETH_VLAN.VEN m) then
    (p.tagged && vid == s.rf (Reg.ETH_VLAN.VID m)) || (vid == 0 && s.on (Reg.ETH_VLAN.UNTAG_OK m))
  else vid == 0

/-- Table fsv-1 in its order: the counter of the first check that fails. -/
def State.frameCheck (s : State) (m : Nat) (f : List Nat) (fcsOk full : Bool) : Option Nat :=
  let p := framePartsOf f
  let da := beAt f 0 6
  let tags := beAt f 12 2 == 0x88A8 || (p.tagged && (p.type == 0x8100 || p.type == 0x88A8))
  if !fcsOk then some 0x00
  else if f.length < 64 then some 0x01
  else if !tags ∧ (if p.tagged then 1522 else 1518) < f.length then some 0x02
  else if tags then some 0x03
  else if !isPause f ∧ da ≠ macAddr m ∧ da ≠ hwAll then some 0x04
  else if !isPause f ∧ !s.vlanOk m p then some 0x03
  else if !isPause f ∧ p.type ≠ 0x0800 ∧ p.type ≠ 0x0806 then some 0x05
  else if full then some 0x06
  else none

/-- A pause frame: transmission stops at the next frame boundary; quanta 0 resumes it. -/
def State.rxPause (s : State) (m quanta : Nat) : State :=
  ((s.drop m 0x16).wf (Reg.ETH_LINK.PAUSED m) (b2n (quanta != 0))).txNext m

/-- A UDP datagram by destination port (R474). -/
def State.rxUdp (s : State) (m hw src dst : Nat) (bcast : Bool) (p : List Nat) : State :=
  let len := beAt p 4 2
  let u := p.take len
  let sport := beAt u 0 2
  let dport := beAt u 2 2
  let d := u.drop 8
  let fw := dport ≠ 0 ∧ (dport = s.rf (Reg.ETH_FW_PORT.PORT_A 0) ∨ dport = s.rf (Reg.ETH_FW_PORT.PORT_B 0) ∨
    dport = s.rf (Reg.ETH_FW_PORT.PORT_A 1) ∨ dport = s.rf (Reg.ETH_FW_PORT.PORT_B 1))
  if beAt u 6 2 ≠ 0 ∧ udpSum src dst u ≠ 0 then s.drop m 0x0C
  else if dport = 47110 then s.fsvDatagram ⟨m, hw, src, sport, s.ipAddr m⟩ bcast d
  else if dport = 68 then s.rxDhcp m hw d
  else if fw then (if bcast then s.drop m 0x09 else s.rxFw m src sport dport d)
  else s.drop m 0x0D

/-- An IPv4 packet (R471); `b`: what follows the EtherType. -/
def State.rxIp (s : State) (m hw : Nat) (b : List Nat) : State :=
  let total := beAt b 2 2
  let dst := beAt b 16 4
  let src := beAt b 12 4
  let own := s.ipAddr m
  let p := slice b 20 (total - 20)
  if beAt b 0 1 ≠ 0x45 ∨ b.length < 20 ∨ csum16 (slice b 0 20) ≠ 0 ∨ total < 20 ∨ b.length < total then s.drop m 0x07
  else if beAt b 6 2 % 2 ^ 14 ≠ 0 then s.drop m 0x08
  else if ¬ ((dst = own ∧ own ≠ 0) ∨ dst = ipAll ∨ dst = s.ipSubAll m) then s.drop m 0x09
  else
    let bcast := decide (¬ (dst = own ∧ own ≠ 0))
    if beAt b 9 1 = 1 then s.rxIcmp m hw src bcast p
    else if beAt b 9 1 = 17 then s.rxUdp m hw src dst bcast p
    else s.drop m 0x0A

/-- A frame received on a serving MAC with its link up. -/
def State.rxFrame (s : State) (m : Nat) (f : List Nat) (fcsOk full : Bool) : State :=
  match s.frameCheck m f fcsOk full with
  | some c => s.drop m c
  | none =>
    let s := s.incWrap (Reg.ETH_RX_FRAMES.COUNT m)
    let p := framePartsOf f
    let hw := beAt f 6 6
    if isPause f then s.rxPause m (beAt p.body 2 2)
    else if s.rf (Reg.ETH_IPCFG.MODE m) = 0 then s
    else if p.type = 0x0806 then s.rxArp m p.body
    else s.rxIp m hw p.body

/-- Whether the ETH island runs. -/
def State.ethUp (s : State) : Bool := s.reaches 0x4600

/-- FRAME_RECEIVE (R465, R468): a frame, its FCS included, whether the FCS was right and whether the receive buffer was full. -/
def execFrameReceive (m : Fin 2) (f : List Byte) (fcsOk full : Bool) (s : State) : Host.Outcome State Fault Refusal :=
  if !s.ethUp then .next s
  else if !s.ethServes then .next (s.drop m.val 0x11)
  else if !s.on (Reg.ETH_LINK.UP m.val) then .next s
  else .next (s.rxFrame m.val (natsOf f) fcsOk full)

/-! ## Transmission (R470) -/

/-- FRAME_TRANSMIT_END (R470): the frame is out; the next one starts; a firmware datagram is counted as sent. -/
def execFrameTransmitEnd (m : Fin 2) (s : State) : Host.Outcome State Fault Refusal :=
  match (s.mac m.val).sending with
  | none => .next s
  | some f =>
    let s := (s.onMac m.val (fun x => { x with sending := none })).incWrap (Reg.ETH_TX_FRAMES.COUNT m.val)
    let s := if f.cls = 2 then s.incWrap Reg.ETH_FTX_STAT.SENT else s
    .next ((s.txNext m.val).formStreams)

/-- TX_DISCARD (R470): the frame that has waited 2 s is the oldest in the queue. -/
def execTxDiscard (m : Fin 2) (s : State) : Host.Outcome State Fault Refusal :=
  if (s.mac m.val).txq.isEmpty then .next s
  else .next (((s.onMac m.val (fun x => { x with txq := x.txq.drop 1 })).drop m.val 0x13).formStreams)

/-- PAUSE_EXPIRY (R470): transmission goes on. -/
def execPauseExpiry (m : Fin 2) (s : State) : Host.Outcome State Fault Refusal :=
  if s.on (Reg.ETH_LINK.PAUSED m.val) then .next ((s.wf (Reg.ETH_LINK.PAUSED m.val) 0).txNext m.val) else .next s

/-! ## ARP, PHY, MDIO, DHCP -/

/-- ARP_RETRY (R472) of the i-th unresolved datagram. -/
def execArpRetry (i : Fin 2) (s : State) : Host.Outcome State Fault Refusal := .next (s.arpRetry i.val)

/-- ARP_AGE (R472): the entry of an address leaves. -/
def execArpAge (m : Fin 2) (ip : BitVec 32) (s : State) : Host.Outcome State Fault Refusal :=
  .next (s.onMac m.val (fun x => { x with arp := x.arp.filter (fun e => e.ip != ip.toNat) }))

/-- PHY_POLL (R465): what clause 22 registers 1, 4, 5, 9 and 10 read. -/
def execPhyPoll (m : Fin 2) (r1 r4 r5 r9 r10 : BitVec 16) (s : State) : Host.Outcome State Fault Refusal :=
  if s.ethUp then .next (s.phyPoll m.val r1 r4 r5 r9 r10) else .next s

/-- MDIO_CMD (R466): a write of ETH_MDIO_CMD. -/
def execMdioCmd (src : Src) (v : Word) (s : State) : Host.Outcome State Fault Refusal :=
  if s.ethUp then .next (s.writeEth src Reg.ETH_MDIO_CMD_at v).st else .next s

/-- MDIO_COMPLETE (R466): the transaction ends; `data`: what the PHY drove for a read. -/
def execMdioComplete (data : BitVec 16) (s : State) : Host.Outcome State Fault Refusal := .next (s.mdioEnd data)

/-- Whether the client runs. -/
def State.dhcpOn (s : State) (m : Nat) : Bool := s.ethServes && s.rf (Reg.ETH_IPCFG.MODE m) == 2

/-- DHCP_RETRANSMIT (R475). -/
def execDhcpRetransmit (m : Fin 2) (s : State) : Host.Outcome State Fault Refusal :=
  if s.dhcpOn m.val then .next (s.dhcpAgain m.val) else .next s

/-- DHCP_T1 (R475): BOUND becomes RENEWING, with a unicast REQUEST. -/
def execDhcpT1 (m : Fin 2) (s : State) : Host.Outcome State Fault Refusal :=
  if s.dhcpOn m.val ∧ s.rf (Reg.ETH_DHCP.STATE m.val) = 3 ∧ s.leaseFinite m.val then
    .next ((s.dhcpState m.val 4).txDhcp m.val 3 false [])
  else .next s

/-- DHCP_T2 (R475): RENEWING becomes REBINDING, with a broadcast REQUEST. -/
def execDhcpT2 (m : Fin 2) (s : State) : Host.Outcome State Fault Refusal :=
  if s.dhcpOn m.val ∧ s.rf (Reg.ETH_DHCP.STATE m.val) = 4 ∧ s.leaseFinite m.val then
    .next ((s.dhcpState m.val 5).txDhcp m.val 3 true [])
  else .next s

/-- LEASE_EXPIRY (R475): a client that holds a lease enters INIT. -/
def execLeaseExpiry (m : Fin 2) (s : State) : Host.Outcome State Fault Refusal :=
  if s.dhcpOn m.val ∧ 3 ≤ s.rf (Reg.ETH_DHCP.STATE m.val) ∧ s.leaseFinite m.val then .next (s.dhcpInit m.val) else .next s

/-! ## Firmware queues (R491) -/

/-- ETH_FRX_DATA_READ (R491): a read moves to the next word of the head datagram. -/
def execEthFrxDataRead (src : Src) (s : State) : Host.Outcome State Fault Refusal :=
  if s.ethUp then .next (s.busRead src Reg.ETH_FRX_DATA_at).2 else .next s

/-- ETH_FRX_POP (R491): the head datagram leaves. -/
def execEthFrxPop (src : Src) (v : Word) (s : State) : Host.Outcome State Fault Refusal :=
  if s.ethUp then .next (s.writeEth src Reg.ETH_FRX_POP_at v).st else .next s

/-- ETH_FTX_DATA_WRITE (R491): the next word is staged. -/
def execEthFtxDataWrite (src : Src) (v : Word) (s : State) : Host.Outcome State Fault Refusal :=
  if s.ethUp then .next (s.writeEth src Reg.ETH_FTX_DATA_at v).st else .next s

/-- ETH_FTX_SEND (R491): the staged datagram goes out, or is refused. -/
def execEthFtxSend (src : Src) (v : Word) (s : State) : Host.Outcome State Fault Refusal :=
  if s.ethUp then .next (s.writeEth src Reg.ETH_FTX_SEND_at v).st else .next s

/-! ## Streams, sessions and lanes -/

/-- FSV_STREAM_DATA_WRITE (R489). -/
def execFsvStreamDataWrite (src : Src) (n : Fin 4) (v : Word) (s : State) : Host.Outcome State Fault Refusal :=
  if s.ethUp then .next (s.writeFsv src (Reg.FSV_STREAM_DATA_at n.val) v).st else .next s

/-- STREAM_PUSH (R490): a write of FSV_STREAM_CTL. -/
def execStreamPush (src : Src) (n : Fin 4) (v : Word) (s : State) : Host.Outcome State Fault Refusal :=
  if s.ethUp then .next (s.writeFsv src (Reg.FSV_STREAM_CTL_at n.val) v).st else .next s

/-- STREAM_MAXAGE (R490): a datagram is formed with the oldest waiting byte. -/
def execStreamMaxage (n : Fin 4) (s : State) : Host.Outcome State Fault Refusal :=
  let x := s.strm n.val
  if x.fifo.isEmpty then .next s
  else .next ((s.setStrm n.val { x with due := max x.due (min 360 x.fifo.length) }).formStream n.val)

/-- SESSION_AGEOUT (R480): a session that runs no request ends. -/
def execSessionAgeout (k : Fin 4) (s : State) : Host.Outcome State Fault Refusal :=
  match s.sess k.val with
  | some x => if x.exec.isNone then .next (s.endSession k.val) else .next s
  | none => .next s

/-- LANE_START_TIMEOUT (R481): the i-th request, not started, is answered BUSY. -/
def execLaneStartTimeout (i : Nat) (s : State) : Host.Outcome State Fault Refusal :=
  match s.fsv.reqs[i]? with
  | none => .next s
  | some r =>
    if r.started then .next s
    else
      let s := s.onFsv (fun x => { x with reqs := x.reqs.eraseIdx i })
      let s := match r.slot with | some k => s.onSess k (fun x => { x with exec := none }) | none => s
      .next (s.answer r.peer r.op r.session r.seq .busy [])

end Sys2Proof.Machine
end

