-- ==== Sys2Proof/Machine/FobexCmd.lean ====
section
/-!
DEFINITION. The Fobex opcodes (R479 to R489, R419 to R422): each command executes the request of its opcode that heads its lane and has
not started; without one it does nothing.

Choices and readings of this file: log 83, 86, 87.
-/

namespace Sys2Proof.Machine

/-- The bytes of a request's data as a number. -/
def FReq.w (r : FReq) : Nat := ofBytes (natsOf r.data)
/-- LEN. -/
def FReq.len (r : FReq) : Nat := r.data.length

/-- A command that acts on the request of an opcode at the head of its lane. -/
def State.onReady (s : State) (op : Nat) (f : FReq → State) : Host.Outcome State Fault Refusal :=
  match s.ready op with
  | some r => .next (f r)
  | none => .next s

/-- The status of a REFUSE code (R484). -/
def refuseStat (code : Nat) : FStat := if code = 1 then .needPresence else if code = 2 then .needSeal else .notInState

/-! ## HELLO, BYE, presence, RESET (R479, R480, R482) -/

/-- A register as the engine reads it for a reply. -/
def State.fsvWord (s : State) (a : Nat) : Nat := (s.busRead .fobex a).1.toNat

/-- The IDENT body as the factory wrote it. -/
def identBody : Nat := factoryBody 1

/-- The reply of HELLO (Table fsv-8). -/
def State.helloData (s : State) (m : Nat) : List Nat :=
  toBytes (pack [(s.grade.piers + 0xA1 * 2 ^ 8 + (4 - s.sessions) * 2 ^ 16 + m * 2 ^ 24, 4), (60, 4), (s.fsvWord Reg.BOOT_STATUS_at, 4),
    (s.fsvWord Reg.BOOT_IMAGE_at, 4), (s.record.opsec, 4), (s.record.opsec / 2 ^ 32 % 256, 4), (s.record.cycles, 4), (s.calSec, 4),
    (s.calFrac + 2 ^ 15 * s.rf Reg.RTC_STATUS.VALID, 4), (s.fsvWord Reg.PAR_STATUS_at, 4), (identBody, 48)]) 88

/-- A request replaced in its lane. -/
def State.swapReq (s : State) (r r' : FReq) : State :=
  s.onFsv (fun x => { x with reqs := x.reqs.map (fun y => if y = r then r' else y) })

/-- A session created for a HELLO (R478): its slot and number. -/
def State.newSession (s : State) (k : Nat) (r : FReq) : Nat × State :=
  let c := (s.fsv.hellos + 1) % 2 ^ 16
  let low := (Config.sessionLfsr (s.fsv.hellos + 1)).toNat
  let num := c * 2 ^ 16 + (if c = 0 ∧ low = 0 then 1 else low)
  let s := s.onFsv (fun x => { x with hellos := x.hellos + 1 })
  (num, s.setSess k (some ⟨num, r.peer, r.seq, none, none⟩))

/-- HELLO executed. -/
def State.runHello (s : State) (r : FReq) : State :=
  if r.slot.isNone ∧ !r.bcast ∧ 4 ≤ s.sessions then s.fail r .busy
  else if r.len ≠ 0 then s.fail r .badLength
  else if r.slot.isSome then s.finish r .ok (s.helloData r.peer.mac)
  else if r.bcast then
    (let r' := { r with session := 0 }
     (s.swapReq r r').finish r' .ok (s.helloData r.peer.mac))
  else
    match (List.range 4).find? (fun k => (s.sess k).isNone) with
    | none => s.fail r .busy
    | some k =>
      let n := s.newSession k r
      let r' := { r with slot := some k, session := n.1 }
      (n.2.swapReq r r').finish r' .ok (n.2.helloData r.peer.mac)

/-- HELLO (R479). -/
def execHello (s : State) : Host.Outcome State Fault Refusal := s.onReady 0x01 s.runHello

/-- BYE executed: the reply, then the session's end. -/
def State.runBye (s : State) (r : FReq) : State :=
  if r.len ≠ 0 then s.fail r .badLength
  else
    let s := s.finish r .ok []
    match r.slot with | some k => s.endSession k | none => s

/-- BYE (R480). -/
def execBye (s : State) : Host.Outcome State Fault Refusal := s.onReady 0x02 s.runBye

/-- PRESENCE_STATUS executed. -/
def State.runPresence (s : State) (r : FReq) : State :=
  if r.len ≠ 0 then s.fail r .badLength
  else
    s.finish r .ok (toBytes (pack [(s.fsvWord Reg.PAR_STATUS_at, 4), (s.fsvWord Reg.PAR_WIN_LEFT_at, 4),
      (s.fsvWord Reg.PAR_SEAL_SEC_at, 4), (s.fsvWord Reg.PAR_SEAL_INFO_at, 4)]) 16)

/-- PRESENCE_STATUS (R482). -/
def execPresenceStatus (s : State) : Host.Outcome State Fault Refusal := s.onReady 0x03 s.runPresence

/-- CLOSE executed (R381): from OPEN alone, as the window stood at the end of the previous AON cycle (R385). -/
def State.runClose (s : State) (r : FReq) : State :=
  if s.par.was ≠ wOpen then s.fail r .notInState
  else if r.len ≠ 0 then s.fail r .badLength
  else (s.closePresence 2).finish r .ok []

/-- CLOSE (R381, R482). -/
def execClose (s : State) : Host.Outcome State Fault Refusal := s.onReady 0x04 s.runClose

/-- RESET executed: the SYS reset follows 10 ms after the reply (FOBEX_RESET_DELAY). -/
def State.runReset (s : State) (r : FReq) : State :=
  if r.len ≠ 4 then s.fail r .badLength
  else if bytesAt r.w 0 2 ≠ 0x5E57 then s.fail r .notInState
  else (s.finish r .ok []).onFsv (fun x => { x with resetDue := true })

/-- RESET (R482). -/
def execReset (s : State) : Host.Outcome State Fault Refusal := s.onReady 0x60 s.runReset

/-! ## READ_IO and WRITE_IO (R481, R483, R484) -/

/-- The engine's Viaduct NI. -/
def niFobex : Nat := 55

/-- Reads in order; `left`: how many may still begin before the 400 ms of R481. The words read, and whether all were. -/
def State.readAll (s : State) (as : List Nat) (left : Option Nat) (got : List Nat) : List Nat × Bool × State :=
  match as with
  | [] => (got, true, s)
  | a :: t =>
    if left = some 0 then (got, false, s)
    else
      match s.ioRead .fobex niFobex a with
      | (.done v, s) => s.readAll t (left.map (· - 1)) (got ++ [v])
      | (.error _, s) => (got, false, s)

/-- The addresses of a READ_IO. -/
def readAddrs (w : Nat) : List Nat :=
  (List.range (bytesAt w 2 2 % 2 ^ 15)).map (fun i => if bytesAt w 3 1 < 128 then (bytesAt w 0 2 + i) % 2 ^ 16 else bytesAt w (4 + 2 * i) 2)

/-- READ_IO executed. -/
def State.runReadIo (s : State) (r : FReq) (cut : Option Nat) : State :=
  let n := bytesAt r.w 2 2 % 2 ^ 15
  let list := 128 ≤ bytesAt r.w 3 1
  let as := readAddrs r.w
  if r.len < 4 then s.fail r .badLength
  else if n = 0 ∨ 363 < n then s.fail r .range
  else if r.len ≠ (if list then 4 + (2 * n + 3) / 4 * 4 else 4) then s.fail r .badLength
  else if as.any (fun a => decide (a < 0x100)) then s.fail r .range
  else
    let x := s.readAll as cut []
    x.2.2.finish r (if x.2.1 then .ok else .ioError) (toBytes (pack (x.1.map (fun v => (v, 4)))) (4 * x.1.length))

/-- READ_IO (R483); `cut`: how many accesses begin within 400 ms, none where all do. -/
def execReadIo (cut : Option Nat) (s : State) : Host.Outcome State Fault Refusal := s.onReady 0x10 (fun r => s.runReadIo r cut)

/-- Writes in order; the records wholly accepted, and the status. -/
def State.writeAll (s : State) (rs : List (Nat × Nat)) (left : Option Nat) (n : Nat) : Nat × FStat × State :=
  match rs with
  | [] => (n, .ok, s)
  | (a, v) :: t =>
    if left = some 0 then (n, .ioError, s)
    else
      match s.ioWrite .fobex niFobex a (BitVec.ofNat 32 v) with
      | (.done code, s) => if code = 0 then s.writeAll t (left.map (· - 1)) (n + 1) else (n, refuseStat code, s)
      | (.error _, s) => (n, .ioError, s)

/-- The records of a WRITE_IO. -/
def writeRecs (r : FReq) : List (Nat × Nat) :=
  (List.range (r.len / 8)).map (fun i => (bytesAt r.w (8 * i) 2, bytesAt r.w (8 * i + 4) 4))

/-- WRITE_IO executed. -/
def State.runWriteIo (s : State) (r : FReq) (cut : Option Nat) : State :=
  let rs := writeRecs r
  if r.len = 0 ∨ r.len % 8 ≠ 0 ∨ 8 * 181 < r.len then s.fail r .badLength
  else if rs.any (fun x => decide (x.1 < 0x100)) then s.fail r .range
  else
    let x := s.writeAll rs cut 0
    x.2.2.finish r x.2.1 (toBytes x.1 4)

/-- WRITE_IO (R484). -/
def execWriteIo (cut : Option Nat) (s : State) : Host.Outcome State Fault Refusal := s.onReady 0x11 (fun r => s.runWriteIo r cut)

/-! ## History (R485) -/

/-- READ_HIST executed. -/
def State.runReadHist (s : State) (r : FReq) : State :=
  let ch := bytesAt r.w 0 1 % 64
  let first := bytesAt r.w 1 1
  let n := bytesAt r.w 2 2
  if r.len ≠ 4 then s.fail r .badLength
  else
    match s.vaultCurrent (0x200 + ch) with
    | none => s.fail r .notInState
    | some c =>
      if n = 0 ∨ 240 < n ∨ 256 < first + n then s.fail r .range
      else s.finish r .ok (toBytes (pack [(r.w, 4), (c.seq, 4), (bytesAt c.body (68 + 6 * first) (6 * n), 6 * n)]) (8 + 6 * n))

/-- READ_HIST (R485). -/
def execReadHist (s : State) : Host.Outcome State Fault Refusal := s.onReady 0x20 s.runReadHist

/-- READ_EXTREMES executed. -/
def State.runReadExtremes (s : State) (r : FReq) : State :=
  let first := bytesAt r.w 0 1 % 64
  let n := bytesAt r.w 1 1
  let cs := (List.range n).filterMap (fun i => s.vaultCurrent (0x200 + first + i))
  if r.len ≠ 4 then s.fail r .badLength
  else if n = 0 ∨ 20 < n ∨ 64 < first + n then s.fail r .range
  else if cs.length ≠ n then s.fail r .notInState
  else s.finish r .ok (toBytes (pack (cs.flatMap (fun c => [(c.seq, 4), (bytesAt c.body 0 68, 68)]))) (72 * n))

/-- READ_EXTREMES (R485). -/
def execReadExtremes (s : State) : Host.Outcome State Fault Refusal := s.onReady 0x21 s.runReadExtremes

/-! ## READ_LOG (R486) -/

/-- READ_LOG executed: from the staging buffer, or by a read on the FSV path. -/
def State.runReadLog (s : State) (r : FReq) : State :=
  let jsn := bytesAt r.w 0 4
  let off := bytesAt r.w 4 2
  let n := bytesAt r.w 6 2
  let kept := decide (s.rf Reg.FLC_J_TAIL.JSN ≤ jsn)
  if s.on Reg.FLC_STATUS.INIT ∨ s.on Reg.FLC_STATUS.DIE_FAULT then s.fail r .notInState
  else if r.len ≠ 8 then s.fail r .badLength
  else if n = 0 ∨ 1436 < n ∨ 4000 < off + n then s.fail r .range
  else
    match s.fsv.page with
    | some (k, d, c) =>
      if k = jsn ∧ kept then s.logReply r jsn d c else (s.startFlash r).fsvRequest ⟨.fsv, .jread jsn, 0⟩
    | none => (s.startFlash r).fsvRequest ⟨.fsv, .jread jsn, 0⟩

/-- READ_LOG (R486). -/
def execReadLog (s : State) : Host.Outcome State Fault Refusal := s.onReady 0x22 s.runReadLog

/-! ## Streams (R489) -/

/-- STREAM_OPEN executed. -/
def State.runStreamOpen (s : State) (r : FReq) : State :=
  let n := bytesAt r.w 0 1 % 4
  let port := if bytesAt r.w 2 2 = 0 then r.peer.port else bytesAt r.w 2 2
  let x := s.strm n
  if r.len ≠ 4 then s.fail r .badLength
  else if x.owner.isSome ∧ x.owner ≠ r.slot then s.fail r .busy
  else
    let s := if x.owner.isSome then s.setStrm n { x with port := port }
      else (s.setStrm n { x with owner := r.slot, port := port, fifo := [], due := 0 }).streamEvent
    s.finish r .ok (toBytes (pack [(n, 4), (x.off, 4)]) 8)

/-- STREAM_OPEN (R489). -/
def execStreamOpen (s : State) : Host.Outcome State Fault Refusal := s.onReady 0x30 s.runStreamOpen

/-- STREAM_CLOSE executed. -/
def State.runStreamClose (s : State) (r : FReq) : State :=
  let n := bytesAt r.w 0 1 % 4
  if r.len ≠ 4 then s.fail r .badLength
  else if (s.strm n).owner.isNone ∨ (s.strm n).owner ≠ r.slot then s.fail r .notInState
  else (s.closeStream n).finish r .ok []

/-- STREAM_CLOSE (R489). -/
def execStreamClose (s : State) : Host.Outcome State Fault Refusal := s.onReady 0x31 s.runStreamClose

/-! ## SET_TIME (R487) -/

/-- The reply of SET_TIME. -/
def timeData (d : Int) (act : Nat) : List Nat := toBytes (pack [(uNat 32 (satS 32 d), 4), (act, 4)]) 8

/-- The step of SET_TIME, through RTC_SET_SEC and RTC_SET_FRAC. -/
def State.stepTime (s : State) (r : FReq) (sec frac : Nat) (d : Int) : State :=
  let a := s.writeAon .fobex Reg.RTC_SET_SEC_at (BitVec.ofNat 32 sec)
  if a.code ≠ 0 then a.st.fail r (refuseStat a.code)
  else
    let b := a.st.writeAon .fobex Reg.RTC_SET_FRAC_at (BitVec.ofNat 32 (frac + 2 ^ 31))
    if b.code ≠ 0 then b.st.fail r (refuseStat b.code) else b.st.finish r .ok (timeData d 2)

/-- SET_TIME executed. -/
def State.runSetTime (s : State) (r : FReq) : State :=
  let sec := bytesAt r.w 0 4
  let frac := bytesAt r.w 4 2 % 2 ^ 15
  let d : Int := ((sec * 2 ^ 15 + frac : Nat) : Int) - ((s.calSec * 2 ^ 15 + s.calFrac : Nat) : Int)
  if r.len ≠ 8 then s.fail r .badLength
  else if bytesAt r.w 6 1 % 2 = 1 ∨ !s.on Reg.RTC_STATUS.VALID ∨ 327680 < d.natAbs then s.stepTime r sec frac d
  else if d = 0 then s.finish r .ok (timeData d 0)
  else if s.on Reg.RTC_STATUS.SLEWING then s.fail r .notInState
  else
    let a := s.writeAon .fobex Reg.RTC_SLEW_at (BitVec.ofNat 32 (uNat 32 d))
    if a.code ≠ 0 then a.st.fail r (refuseStat a.code) else a.st.finish r .ok (timeData d 1)

/-- SET_TIME (R487). -/
def execSetTime (s : State) : Host.Outcome State Fault Refusal := s.onReady 0x40 s.runSetTime

/-! ## The slot update (R419 to R423) -/

/-- The checks every UPDATE opcode shares: presence, the controller, the update's session. -/
def State.updRefusal (s : State) (r : FReq) : Option FStat :=
  if !s.winOpen then some .needPresence
  else
    match s.fsv.upd with
    | some u => if some u.slot ≠ r.slot then some .busy else none
    | none => none

/-- An UPDATE request refused by one of them; without a window the BOOT block shows it too (R392). -/
def State.updFail (s : State) (r : FReq) (st : FStat) : State :=
  (if st = .needPresence then s.refuse bootRefuse 4 else s).fail r st

/-- The target of an update (R419). -/
def State.updTarget (s : State) : Nat :=
  let b := s.rf Reg.BOOT_STATUS.SLOT
  if b = 1 then 2
  else if b = 2 then 1
  else
    match s.committed [] 1, s.committed [] 2 with
    | none, _ => 1
    | some _, none => 2
    | some a, some b => if a ≤ b then 1 else 2

/-- UPSEQ for a new update: 1 + the highest committed one of any region. -/
def State.updSeq (s : State) : Nat := (((List.range 4).map (fun k => (s.committed [] k).getD 0)).foldl max 0 + 1) % 2 ^ 32

/-- UPDATE_BEGIN executed; its erases follow (FLC_ERASE). -/
def State.runUpdateBegin (s : State) (r : FReq) : State :=
  let n := r.w % 2 ^ 32
  match s.updRefusal r with
  | some st => s.updFail r st
  | none =>
    if s.on Reg.BOOT_STATUS.TRIAL ∨ s.fsv.upd.isSome ∨ s.on Reg.FLC_STATUS.INIT ∨ s.on Reg.FLC_STATUS.DIE_FAULT then s.fail r .notInState
    else if r.len ≠ 4 ∨ n < 64 ∨ 6144 < (n + 4095) / 4096 + 1 then s.fail r .badLength
    else (s.onFsv (fun x => { x with upd := some ⟨r.slot.getD 0, s.updTarget, s.updSeq, n, 0, 0, 0, [], []⟩ })).startFlash r

/-- UPDATE_BEGIN (R419). -/
def execUpdateBegin (s : State) : Host.Outcome State Fault Refusal := s.onReady 0x50 s.runUpdateBegin

/-- The metadata of the staged page names UPSEQ, its page and each codeword (R404). -/
def Upd.metaGood (u : Upd) : Bool := metaOk u.page u.upseq u.next

/-- A fragment staged; a completed page waits for its program (FLC_PROGRAM). -/
def State.stage (s : State) (r : FReq) (u : Upd) : State :=
  let frag := r.data.drop 4
  let off := u.off + frag.length
  let u' := { u with buf := (u.buf ++ frag).take 4128, off := off }
  if off < 4128 then (s.onUpd (fun _ => u')).finish r .ok (updData u.next off)
  else if !u'.metaGood then (s.onUpd (fun _ => { u with buf := [], off := 0 })).fail r .badCrc
  else (s.onUpd (fun _ => u')).startFlash r

/-- UPDATE_DATA executed. -/
def State.runUpdateData (s : State) (r : FReq) : State :=
  let p := bytesAt r.w 0 2
  let o := bytesAt r.w 2 2
  match s.updRefusal r, s.fsv.upd with
  | some st, _ => s.updFail r st
  | none, none => s.fail r .notInState
  | none, some u =>
    if r.len < 5 ∨ 1452 < r.len then s.fail r .badLength
    else if p < u.next then s.finish r .ok (updData u.next u.off)
    else if u.next < p ∨ o ≠ u.off ∨ (u.len + 4095) / 4096 ≤ p then s.fail r .notInState
    else if 4351 < o + (r.len - 4) - 1 then s.fail r .badLength
    else s.stage r u

/-- UPDATE_DATA (R420, R488). -/
def execUpdateData (s : State) : Host.Outcome State Fault Refusal := s.onReady 0x51 s.runUpdateData

/-- UPDATE_COMMIT executed; the commit page's program follows (FLC_PROGRAM). -/
def State.runUpdateCommit (s : State) (r : FReq) : State :=
  match s.updRefusal r, s.fsv.upd with
  | some st, _ => s.updFail r st
  | none, none => s.fail r .notInState
  | none, some u =>
    if u.next < (u.len + 4095) / 4096 then s.fail r .notInState
    else if r.len ≠ 32 then s.fail r .badLength
    else if natsOf r.data ≠ sha256 (toBytes (pack (u.pages.map (fun p => (p, 4096)))) u.len) then s.endUpdate.fail r .badCrc
    else s.startFlash r

/-- UPDATE_COMMIT (R422). -/
def execUpdateCommit (s : State) : Host.Outcome State Fault Refusal := s.onReady 0x52 s.runUpdateCommit

end Sys2Proof.Machine
end

