-- ==== Sys2Proof/Machine/BootCmd.lean ====
section
/-!
DEFINITION. The Keystone sequence from slot selection to release (R403, R406 to R413): each command is one step, in the order of
Table boot-2.

Choices and readings of this file: log 66, 67, 68, 69, 70, 71, 111.
-/

namespace Sys2Proof.Machine

/-- A change of the sequencer. -/
def State.onBoot (s : State) (f : Boot → Boot) : State := { s with boot := f s.boot }
/-- The sequence moved on. -/
def State.bootPhase (s : State) (p : BootPhase) : State := s.onBoot (fun b => { b with phase := p })

/-- The sequencer's Viaduct NI. -/
def niBoot : Nat := 53

/-- A step of the sequence is due: the phase before it, nothing held in reset, the PLLs started (R294). -/
def State.seqAt (s : State) (p : BootPhase) : Bool := decide (s.boot.phase = p) && !s.held.any && s.spState != spStarting
/-- A step that reads flash is due: the die is free for the sequencer's requests (R327). -/
def State.readAt (s : State) (p : BootPhase) : Bool := s.seqAt p && s.flc.cur.isNone && s.flc.pend.isNone
/-- A write of the sequence has restarted it (R394, R395): it goes no further. -/
def State.restarted (s : State) : Bool := s.boot.phase == .start
/-- The sections of a region as verification found them. -/
def State.verified (s : State) (r : Nat) : List Sec := (s.wf Reg.FLC_RDWAIT.WAIT 15).contOf [] r

/-- UPSEQ of a region that is committed; none where the die failed its start. -/
def State.bootCommitted (s : State) (errs : List (Nat × List Nat)) (r : Nat) : Option Nat :=
  if s.on Reg.FLC_STATUS.DIE_FAULT then none else s.committed errs r
/-- The pages read to verify region r (R327, R407): page 0, and where its header passes all up to the commit page. -/
def State.verifyReads (s : State) (errs : List (Nat × List Nat)) (r : Nat) : State :=
  if s.on Reg.FLC_STATUS.DIE_FAULT then s else s.bootReads errs r (List.range ((s.contHead errs r).elim 1 (fun h => h.n + 1)))
/-- The pages read to select a slot: page 0 and the commit page of each candidate (Table boot-2). -/
def State.selectReads (s : State) (errs : List (Nat × List Nat)) : State :=
  if s.on Reg.FLC_STATUS.DIE_FAULT then s
  else (List.range 3).foldl (fun s r => s.bootReads errs r ([0] ++ ((s.contHead errs r).map Head1.n).toList)) s
/-- The first check region r fails. -/
def State.bootVerify (s : State) (errs : List (Nat × List Nat)) (r : Nat) : Nat := if s.on Reg.FLC_STATUS.DIE_FAULT then 1 else s.verifyCode errs r

/-! ## Slot selection (R406, R413) -/

/-- A start with cause WDT gives up the trial it interrupts (R413). -/
def State.abandonTrial (s : State) (errs : List (Nat × List Nat)) : State :=
  let k := s.rf Reg.BOOT_TRIAL.SLOT
  if s.boot.sys ∧ s.rf Reg.BOOT_RESET_CAUSE.CAUSE = 1 ∧ (k = 1 ∨ k = 2) then
    (((s.wf (rejOf k) ((s.contHead errs k).elim 0 Head1.upseq)).clearTrial).onBoot (fun b => { b with revert := some k }))
  else s

/-- The candidates in order (R406). -/
def State.candidates (s : State) (errs : List (Nat × List Nat)) : List Nat :=
  let user := fun (k : Nat) =>
    match s.bootCommitted errs k with | some q => if q ≠ s.rf (rejOf k) then some q else none | none => none
  let us := match user 1, user 2 with
    | some a, some b => if b ≤ a then [1, 2] else [2, 1]
    | some _, none => [1]
    | none, some _ => [2]
    | none, none => []
  us ++ (if (s.bootCommitted errs 0).isSome then [0] else [])

/-- SLOT_SELECTION (R406), once flash initialisation has completed; `errs`: bit errors of the pages read. -/
def execSlotSelection (errs : List (Nat × List Nat)) (s : State) : Host.Outcome State Fault Refusal :=
  if s.readAt .checked ∧ (!s.on Reg.FLC_STATUS.INIT ∨ s.on Reg.FLC_STATUS.DIE_FAULT) then
    let s := (s.abandonTrial errs).selectReads errs
    .next (s.onBoot (fun b => { b with cands := s.candidates errs, phase := .chosen }))
  else .next s

/-! ## Overlays (R402, R409) -/

/-- One overlay write: whole, or of the bits in MASK; a refusal or an error response is counted. -/
def State.overlayAt (s : State) (o : Ovl) (a : Nat) : State :=
  let put := fun (s : State) (v : Nat) =>
    match s.ioWrite .keystone niBoot a (BitVec.ofNat 32 v) with
    | (.done code, s) => if code = 0 then s else s.incSat Reg.BOOT_STATUS.OVL_ERR
    | (.error _, s) => s.incSat Reg.BOOT_STATUS.OVL_ERR
  if o.mask = 0xFFFFFFFF then put s o.value
  else
    match s.ioRead .keystone niBoot a with
    | (.done v, s) => put s ((v &&& (0xFFFFFFFF - o.mask)) ||| (o.value &&& o.mask))
    | (.error _, s) => s.incSat Reg.BOOT_STATUS.OVL_ERR

/-- The addresses of an overlay record: one, or one per pier of its role. -/
def ovlAddrs (g : Grade) (rs : List MRole) (o : Ovl) : List Nat :=
  if o.perPier then ((List.range g.piers).filter (fun p => roleOf rs p == some o.role)).map (fun p => 0x100 + 0x100 * p + o.addr)
  else [o.addr]

/-- Overlay records in order, to the end or to a write that restarts the sequence (R395). -/
def State.overlays (s : State) (rs : List MRole) (os : List Ovl) : State :=
  os.foldl (fun s o => (ovlAddrs s.grade rs o).foldl (fun s a => if s.restarted then s else s.overlayAt o a) s) s

/-- The defaults container verified (R409): its records, or none and its nibble. -/
def State.defaultsChecked (s : State) (errs : List (Nat × List Nat)) : List Ovl × State :=
  let c := s.bootVerify errs 3
  let s := s.verifyReads errs 3
  if c = 0 then (ovls (s.verified 3), s.onBoot (fun b => { b with defaults := true }))
  else ([], s.wf Reg.BOOT_FAIL.DEFAULTS c)

/-- Sections of the booted container. -/
def State.imageOf (s : State) : List Sec := s.verified (s.rf Reg.BOOT_STATUS.SLOT)

/-! ## Verification (R407, R408, R412) -/

/-- HALTED (R408): every record of the defaults applied; the engine serves; the watchdog stays held. -/
def State.halt (s : State) (errs : List (Nat × List Nat)) : State :=
  let s := match s.boot.revert with
    | some k => let f := s.takeFree; (f.2.onBoot (fun b => { b with revert := none })).evRecord 0x21 k (f.1 % 2 ^ 32)
    | none => s
  let d := s.defaultsChecked errs
  let s := d.2.overlays [] d.1
  if s.restarted then s else ((s.bootPhase .halted).wf Reg.BOOT_STATUS.STATE 2).ethStart

/-- BOOT_FAIL's nibble of a candidate. -/
def failOf (k : Nat) : Fd := if k = 1 then Reg.BOOT_FAIL.A else if k = 2 then Reg.BOOT_FAIL.B else Reg.BOOT_FAIL.FACTORY

/-- A candidate failed: its reason; the next one with a record, or HALTED. -/
def State.fallBack (s : State) (errs : List (Nat × List Nat)) (k code : Nat) (rest : List Nat) : State :=
  let s := (s.wf (failOf k) code).onBoot (fun b => { b with cands := rest })
  match rest with
  | [] => s.halt errs
  | n :: _ => (s.incSat Reg.BOOT_STATUS.FALLBACKS).evRecord 0x20 k n

/-- A candidate is booted, in TRIAL or NORMAL. -/
def State.chooseImage (s : State) (k q : Nat) (trial : Bool) : State :=
  let s := ((s.wf Reg.BOOT_STATUS.SLOT k).wf Reg.BOOT_STATUS.TRIAL (b2n trial)).wf Reg.BOOT_IMAGE.UPSEQ q
  let s := match s.boot.revert with
    | some a => (s.onBoot (fun b => { b with revert := none })).evRecord 0x21 a k
    | none => s
  s.bootPhase .verified

/-- A candidate that passed, by Table R412. -/
def State.trialRule (s : State) (errs : List (Nat × List Nat)) (k q : Nat) (rest : List Nat) : State :=
  if k = 0 ∨ s.rf (confOf k) = q then s.chooseImage k q false
  else if s.rf Reg.BOOT_TRIAL.SLOT = k then
    (if s.rf Reg.BOOT_TRIAL.TRIES = 3 then
      (((s.wf (rejOf k) q).clearTrial).onBoot (fun b => { b with revert := some k })).fallBack errs k 0xA rest
     else (s.wf Reg.BOOT_TRIAL.TRIES (s.rf Reg.BOOT_TRIAL.TRIES + 1)).chooseImage k q true)
  else ((s.wf Reg.BOOT_TRIAL.SLOT k).wf Reg.BOOT_TRIAL.TRIES 1).chooseImage k q true

/-- VERIFICATION (R407) of the candidate in turn; without one, HALTED. `errs`: bit errors of the pages read. -/
def execVerification (errs : List (Nat × List Nat)) (s : State) : Host.Outcome State Fault Refusal :=
  if s.readAt .chosen then
    match s.boot.cands with
    | [] => .next (s.halt errs)
    | k :: rest =>
      let c := s.bootVerify errs k
      let s := s.verifyReads errs k
      if c ≠ 0 then .next (s.fallBack errs k c rest) else .next (s.trialRule errs k ((s.contHead errs k).elim 0 Head1.upseq) rest)
  else .next s

/-! ## Steps 7 to 10 -/

/-- OVERLAY_APPLY (R409): the defaults' records, then the image's, FINAL ones held back; `errs`: bit errors of the defaults' pages. -/
def execOverlayApply (errs : List (Nat × List Nat)) (s : State) : Host.Outcome State Fault Refusal :=
  if s.readAt .verified then
    let d := s.defaultsChecked errs
    let img := s.imageOf
    let now := fun (os : List Ovl) => os.filter (fun o => !o.last)
    let s := (d.2.overlays [] (now d.1)).overlays (roles img) (now (ovls img))
    .next (if s.restarted then s else s.bootPhase .overlaid)
  else .next s

/-- A copy of an ICODE or SPAD section for pier p, or of a DECK section, with its relocations. -/
def secCopy (g : Grade) (ss : List Sec) (i p : Nat) (x : Sec) : Nat := (applyRelocs g (relocs ss) i p (dataOf x)).getD (dataOf x)

/-- A section loaded into one pier (R410). -/
def State.loadPier (s : State) (ss : List Sec) (i : Nat) (x : Sec) (p : Nat) : State :=
  let at' := bytesAt x.body 0 4
  let d := secCopy s.grade ss i p x
  if !s.online p then s
  else if x.ty = 2 then { s with ispace := setBytes s.ispace (0x20000 * p + at') (x.size - 8) d }
  else s.spadWr p at' (x.size - 8) d

/-- A section loaded. -/
def State.loadSection (s : State) (ss : List Sec) (i : Nat) : State :=
  match ss[i]? with
  | none => s
  | some x =>
    if x.ty = 2 ∨ x.ty = 3 then
      ((List.range s.grade.piers).filter (fun p => roleOf (roles ss) p == some x.arg)).foldl (fun s p => s.loadPier ss i x p) s
    else if x.ty = 4 then (s.deckWrite (bytesAt x.body 0 4) (x.size - 8) (secCopy s.grade ss i 0 x)).2
    else s

/-- The booted container read again for loading (Table boot-2): its layout as verification found it, and what is loaded as it reads now; what
a page that does not read GOOD gives is not stated, so free (DESIGN CHOICE, log 111). -/
def State.loadImage (s : State) (errs : List (Nat × List Nat)) : List Sec × State :=
  let r := s.rf Reg.BOOT_STATUS.SLOT
  let ss := s.verified r
  let n := ((s.wf Reg.FLC_RDWAIT.WAIT 15).contHead [] r).elim 0 Head1.n
  let w := pack ((List.range n).map (fun p => ((s.contPage errs r p).getD (Config.freeNat (s.free + p)), 4096)))
  (ss.map (fun x => if 2 ≤ x.ty ∧ x.ty ≤ 4 then { x with body := bytesAt x.body 0 8 + 256 ^ 8 * bytesAt w (x.off + 8) (x.size - 8) } else x),
   { (s.bootReads errs r (List.range n)) with free := s.free + n })

/-- ROLE_INSTANTIATION (R410); `errs`: bit errors of the pages read. -/
def execRoleInstantiation (errs : List (Nat × List Nat)) (s : State) : Host.Outcome State Fault Refusal :=
  if s.readAt .overlaid then
    let l := s.loadImage errs
    .next (((List.range l.1.length).foldl (fun s i => s.loadSection l.1 i) l.2).bootPhase .loaded)
  else .next s

/-- A write of the sequencer whose outcome nothing records. -/
def State.seqWrite (s : State) (a : Nat) (v : Nat) : State := (s.ioWrite .keystone niBoot a (BitVec.ofNat 32 v)).2

/-- ROUTES_WRITE (R403): the route records of the grade's shape, one at a time, then LDRTAB. -/
def execRoutesWrite (s : State) : Host.Outcome State Fault Refusal :=
  if s.seqAt .loaded then
    let img := s.imageOf
    let rts := ((ofType img 7).filter (fun x => x.arg == s.grade.shape)).flatMap routesOf
    let s := rts.foldl (fun s q => (s.seqWrite Reg.VIA_RT_SEL_at (2 ^ 8 * q.1 + q.2.1)).seqWrite Reg.VIA_RT_DATA_at q.2.2.1.toNat) s
    let s := (ofType img 8).foldl (fun s x =>
      (List.range 4).foldl (fun s i => s.seqWrite (Reg.LDR_OPV_at i) (bytesAt x.body (16 + 4 * i) 4))
        ((List.range 4).foldl (fun s i => s.seqWrite (Reg.LDR_OPSCALE_at i) (bytesAt x.body (4 * i) 4)) s)) s
    .next (s.bootPhase .routed)
  else .next s

/-- The threads of a pier started from its role (R411, step 1). -/
def State.startRole (s : State) (rs : List MRole) (p : Nat) : State :=
  match (roleOf rs p).bind (fun i => rs[i]?) with
  | none => s
  | some r =>
    let s := (List.range 8).foldl (fun s t => s.seqWrite (Reg.PIER_THPC_at p t) (r.thpc.getD t 0)) s
    s.seqWrite (Reg.PIER_THRUN_at p) r.run

/-- RELEASE (R411), once the Vault holds TIMEBASE. -/
def execRelease (s : State) : Host.Outcome State Fault Refusal :=
  if s.seqAt .routed ∧ !s.vaultPending (fun id => id == 2) then
    let img := s.imageOf
    let last := fun (os : List Ovl) => os.filter (fun o => o.last)
    let s := (List.range s.grade.piers).foldl (fun s p => s.startRole (roles img) p) s
    let s := if s.boot.defaults then s.overlays [] (last (ovls (s.verified 3))) else s
    let s := s.overlays (roles img) (last (ovls img))
    if s.restarted then .next s
    else
    let s := s.wf Reg.BOOT_STATUS.STATE 1
    let s := (s.wf Reg.BOOT_TIME.MS (min 65535 (s.boot.us / 1000))).wdtRestart.wf Reg.WDT_STATUS.HELD 0
    let s := s.evRecord 1 (b2n s.boot.sys) (s.rf Reg.BOOT_RESET_CAUSE.CAUSE) (s.rf Reg.BOOT_STATUS.SLOT)
    .next (s.bootPhase .released).ethStart
  else .next s

end Sys2Proof.Machine
end

