-- ==== Sys2Proof/Machine/GaugeAck.lean ====
section
/-!
DEFINITION. Deck-ring records of a gauge reaching their bank (R264).

Choices and readings of this file: log 39.
-/

namespace Sys2Proof.Machine

/-- The oldest held record written as two full words, once nothing else wants their banks (R208), and acknowledged; NEXT advances when it is of the current trace. -/
def State.gauAck (s : State) (g : Nat) : State :=
  match (s.gau g).held with
  | [] => s
  | r :: t =>
    if s.quarterBusy r.addr || s.bankWanted r.addr || s.bankWanted (r.addr + 8) then s
    else
      let s := s.onGau g (fun x => { x with held := t })
      let s := (s.deckWrite r.addr 8 ((r.words.getD 0 0).toNat + 2 ^ 32 * (r.words.getD 1 0).toNat)).2
      let s := (s.deckWrite (r.addr + 8) 8 ((r.words.getD 2 0).toNat + 2 ^ 32 * (r.words.getD 3 0).toNat)).2
      if r.run = (s.gau g).run then s.gauNext g (max 1 (s.rf (Reg.GAU_RING_COUNT.VALUE g))) true else s

/-- TRACE_RECORD_ACK (R264). -/
def execTraceRecordAck (g : Fin 24) (s : State) : Host.Outcome State Fault Refusal :=
  .next (if s.gauLive g.val then (s.gauFlush g.val).gauAck g.val else s)

end Sys2Proof.Machine
end

