-- ==== Sys2Proof/Machine/PierSys.lean ====
section
/-!
DEFINITION. The SYS group, the repeat prefixes and exception entry (spec/03, spec/05): GATE, GRET, WAIT, MFS, MTS, BRK, RPT, RPTI,
and the commands on thread-control registers.

Choices and readings of this file: log 10, 12, 13, 14, 19.
-/

namespace Sys2Proof.Machine

/-! ## Gates (R140 to R146) -/

/-- A gate descriptor as read from the scratchpad (Table trap-4). -/
structure GateDesc where
  handler : Word
  ctrl : Word
  args : List Word
  deriving DecidableEq, Repr

/-- Descriptor at scratchpad address `a`. -/
def State.gateDesc (s : State) (p a : Nat) : GateDesc :=
  ⟨BitVec.ofNat 32 (s.spadRd p a 4), BitVec.ofNat 32 (s.spadRd p (a + 4) 4),
    (List.range 6).map (fun j => BitVec.ofNat 32 (s.spadRd p (a + 8 + 4 * j) 4))⟩

/-- NARGS. -/
def GateDesc.nargs (d : GateDesc) : Nat := getBits d.ctrl 3 3

/-- Whether argument word `j` (1 to 6) breaks R142 step 3. -/
def gateArgBad (nargs j : Nat) (w : Word) : Bool :=
  let ty := getBits w 0 2
  if ty = 0 then getBits w 2 30 != 0
  else if ty = 1 then getBits w 31 1 != 0
  else if ty = 2 then getBits w 11 5 != 0 || decide (nargs < getBits w 2 3) || getBits w 2 3 == j
  else true

/-- Whether a descriptor is invalid (R142 step 3). -/
def GateDesc.invalid (d : GateDesc) : Bool :=
  getBits d.ctrl 0 1 == 0 || decide (6 < d.nargs) || getBits d.ctrl 7 25 != 0 ||
  getBits d.handler 0 2 != 0 || getBits d.handler 17 15 != 0 ||
  ((List.range d.nargs).any (fun j => gateArgBad d.nargs (j + 1) (d.args.getD j 0)))

/-- Whether [v, v + len) lies in one permitted region of a PTR argument (R143). -/
def regionOk (g : Grade) (w : Word) (v len : Nat) : Bool :=
  (getBits w 6 1 == 1 && decide (v + len ≤ 0x10000)) ||
  (getBits w 7 1 == 1 && decide (0x10000 ≤ v) && decide (v + len ≤ 0x11000)) ||
  (getBits w 8 1 == 1 && decide (deckBase ≤ v) && decide (v + len ≤ deckBase + g.deckBytes))

/-- The check of one argument (R143): the SUB of its failure, 0 for none. -/
def State.gateArg (s : State) (th : Thr) (w : Word) (v : Word) : Nat :=
  let t := s.thr th
  let ty := getBits w 0 2
  if ty = 1 then
    let signed := getBits w 2 1 == 1
    let lo : Int := if signed then sInt 14 (getBits w 3 14) else (getBits w 3 14 : Nat)
    let hi : Int := if signed then sInt 14 (getBits w 17 14) else (getBits w 17 14 : Nat)
    let x : Int := if signed then v.toInt else (v.toNat : Int)
    if x < lo ∨ hi < x then 1 else 0
  else if ty = 2 then
    let len := if getBits w 2 3 = 0 then getBits w 16 16 else (t.rg (Fin.ofNat 32 (getBits w 2 3))).toNat
    if v.toNat % 2 ^ getBits w 9 2 ≠ 0 then 2
    else if len = 0 then 0
    else if 2 ^ 32 < v.toNat + len then 4
    else if !regionOk s.grade w v.toNat len then 3
    else if !t.kernel &&
        !((s.twins th.pier.val (getBits w 5 1 == 1)).any (fun x => x.base ≤ v.toNat && v.toNat + len ≤ x.lim)) then 3
    else 0
  else 0

/-- The first argument that fails, from number `j` on: its number and SUB. -/
def State.gateArgs (s : State) (th : Thr) (j : Nat) (ws : List Word) : Option (Nat × Nat) :=
  match ws with
  | [] => none
  | w :: rest =>
    let e := s.gateArg th w ((s.thr th).rg (Fin.ofNat 32 j))
    if e ≠ 0 then some (j, e) else s.gateArgs th (j + 1) rest

/-- Whether a 16-byte frame at `f` fails the stack check (R144, R146). -/
def State.stackBad (s : State) (p : Nat) (f : Word) : Bool :=
  f.toNat % 8 != 0 || decide (f.toNat < s.rf (Reg.PIER_KSTK_BASE.BASE p)) ||
  decide (min 0x10000 (s.rf (Reg.PIER_KSTK_LIM.LIM p)) < f.toNat + 16)

/-- The entry of a gate (R144): the frame written, the stack switched, Kernel mode. -/
def State.enterGate (s : State) (th : Thr) (d : GateDesc) (sp : Word) (k : BitVec 8) : State :=
  let t := s.thr th
  let p := th.pier.val
  let frame := (t.pc + 4).toNat + t.tstat.toNat * 2 ^ 32 + k.toNat * 2 ^ 64
  (s.spadWr p sp.toNat 16 frame).onThr th (fun t =>
    let t := if t.kernel then t else { t with usp := t.rg 30 }
    (t.wg 30 sp).setMode true t.exl (getBits d.ctrl 6 1 == 1) false)

/-- GATE #k (R142): the checks in order, then the gate's entry; seven issue slots (R145). -/
def execGate (th : Thr) (k : BitVec 8) (s : State) : Host.Outcome State Fault Refusal :=
  .next (s.issue th false true (fun s =>
    let t := s.thr th
    let p := th.pier.val
    let kw : Word := zx k
    let a := s.rf (Reg.PIER_GATE_BASE.BASE p) + 32 * k.toNat
    let d := s.gateDesc p a
    let sp := (if t.kernel then t.rg 30 else t.ksp) - 16
    if min 256 (s.rf (Reg.PIER_GATE_COUNT.COUNT p)) ≤ k.toNat ∨ 0x10000 < a + 32 then .trap (.mk' cGateNum 1 kw)
    else if d.invalid then .trap (.mk' cGateNum 2 kw)
    else if getBits d.ctrl (if t.kernel then 2 else 1) 1 = 0 then .trap (.mk' cGateMode 0 kw)
    else
      match s.gateArgs th 1 (d.args.take d.nargs) with
      | some (j, e) => .trap (.mk' cGateArg e (BitVec.ofNat 32 (j + 256 * k.toNat)))
      | none =>
        if s.stackBad p sp then .trap (.mk' cStack 1 sp)
        else .gated (s.enterGate th d sp k) d.handler 7))

/-- A prefix word (R86). -/
def isPrefix (w : Word) : Bool := wOp w == 0x1C || wOp w == 0x1D

/-- The target of a GRET reached: one that is no prefix clears RPTC.RESUME (R90). -/
def State.gretTo (s : State) (th : Thr) : State :=
  s.onThr th (fun t =>
    { t with viaGret := true, rptc := if isPrefix (s.ifetch th.pier.val t.pc) then t.rptc else putBits t.rptc 31 1 0 })

/-- The return from a gate (R146): PC, MODE, IE and SS from the frame at G30, the stack switched back; a restored SS = 1 makes
SINGLE_STEP due before the instruction at the return address, its EINFO naming the GATE, 4 below that address (DESIGN CHOICE, log 13). -/
def State.gateReturn (s : State) (th : Thr) : State :=
  let f := (s.thr th).rg 30
  let ret : Word := putBits (BitVec.ofNat 32 (s.spadRd th.pier.val f.toNat 4)) 0 2 0
  let ts : Word := BitVec.ofNat 32 (s.spadRd th.pier.val (f.toNat + 4) 4)
  s.onThr th (fun t =>
    let t := t.setMode (getBits ts 0 1 == 1) false (getBits ts 2 1 == 1) (getBits ts 3 1 == 1)
    let t := if t.kernel then t.wg 30 (f + 16) else t.wg 30 t.usp
    { t with pc := ret, stepDue := if t.ss then some (ret - 4) else t.stepDue })

/-- GRET (R139, R146): with EXL = 1 the return from an exception, with EXL = 0 the return from a gate; Kernel mode only. -/
def execGret (th : Thr) (s : State) : Host.Outcome State Fault Refusal :=
  .next (s.issue th false false (fun s =>
    let t := s.thr th
    if !t.kernel then .trap (.mk' cPriv 0 (encE 0x1B 0 0 1 0))
    else if t.exl then
      let s := (s.onThr th Thread.returnFromException).gretTo th
      .done s (s.thr th).pc 1
    else if s.stackBad th.pier.val (t.rg 30) then .trap (.mk' cStack 2 (t.rg 30))
    else
      let s := (s.gateReturn th).gretTo th
      .done s (s.thr th).pc 3))

/-! ## WAIT, special registers, BRK -/

/-- WAIT (R67): the lowest event pending in the thread's mask to Gd, or the thread WAITING. -/
def execWait (th : Thr) (rd : RegIx) (s : State) : Host.Outcome State Fault Refusal :=
  .next (s.issue th false true (fun s =>
    match s.waitEvent th with
    | some e =>
      .done ((s.setEvPending th.pier.val e false).onThr th (fun t => t.wg rd (BitVec.ofNat 32 e))) (s.npc th) 1
    | none => .wait (s.onThr th (fun t => { t with run := .waiting, waitRd := rd })) 1))

/-- A special register by number (Table isa-8). -/
def Thread.special (t : Thread) (n : Nat) : Word :=
  match n with
  | 0 => t.pc
  | 1 => t.tstat
  | 2 => t.cause
  | 3 => t.epc
  | 4 => t.einfo
  | 5 => t.ksp
  | 6 => t.usp
  | 7 => t.rptc
  | 8 => t.fstat
  | _ => t.fctl

/-- A special register written: only the fields MTS may write (R83, R114, R125, R130, Table isa-11). -/
def Thread.setSpecial (t : Thread) (n : Nat) (v : Word) : Thread :=
  match n with
  | 0 => t
  | 1 => { t with tstat := putBits t.tstat 1 6 (getBits v 1 6) }
  | 2 => { t with cause := putBits 0 0 17 (getBits v 0 17) }
  | 3 => { t with epc := v }
  | 4 => { t with einfo := v }
  | 5 => { t with ksp := v }
  | 6 => { t with usp := v }
  | 7 => { t with rptc := putBits (putBits 0 0 17 (getBits v 0 17)) 31 1 (getBits v 31 1) }
  | 8 => { t with fstat := putBits (putBits t.fstat 0 5 (getBits v 0 5)) 10 5 (getBits v 10 5) }
  | _ => { t with fctl := putBits 0 0 8 (getBits v 0 8) }

/-- MFS (R83): Gd ← special register; FSTAT and FCTL wait for the thread's flags (R118). -/
def execMfs (th : Thr) (rd : RegIx) (sr : BitVec 11) (s : State) : Host.Outcome State Fault Refusal :=
  let w := encE 0x1B rd.val 0 3 sr.toNat
  .next (s.issue th false (sr == 8 || sr == 9) (fun s =>
    if 9 < sr.toNat then illegal w
    else if !(s.thr th).kernel && !([0, 1, 7, 8, 9].contains sr.toNat) then .trap (.mk' cPriv 0 w)
    else .done (s.onThr th (fun t => t.wg rd (t.special sr.toNat))) (s.npc th) 1))

/-- MTS (R83): special register ← Gs; PC is ILLEGAL. -/
def execMts (th : Thr) (sr : BitVec 11) (rs : RegIx) (s : State) : Host.Outcome State Fault Refusal :=
  let w := encE 0x1B 0 rs.val 4 sr.toNat
  .next (s.issue th false (sr == 8 || sr == 9) (fun s =>
    if 9 < sr.toNat ∨ sr = 0 then illegal w
    else if !(s.thr th).kernel && !([8, 9].contains sr.toNat) then .trap (.mk' cPriv 0 w)
    else .done (s.onThr th (fun t => t.setSpecial sr.toNat (t.rg rs))) (s.npc th) 1))

/-- BRK #c (R147): DEBUG_BREAK with EINFO = c. -/
def execBrk (th : Thr) (code : BitVec 11) (s : State) : Host.Outcome State Fault Refusal :=
  .next (s.issue th false false (fun _ => .trap (.mk' cBreak 0 (zx code))))

/-! ## Repeat prefixes (R86 to R90) -/

/-- The count of a prefix: RPTC.COUNT when it resumes (R90), Gs, or CNTM1 + 1. -/
def Thread.prefixCount (t : Thread) (rs : RegIx) (rsrc : Bool) (cntm1 : BitVec 16) : Nat :=
  if t.viaGret && t.resume then t.count else if rsrc then (t.rg rs).toNat else cntm1.toNat + 1

/-- A prefix started: RPTC holds the count with RESUME 0, and the repeated instruction is next. -/
def Thread.startRepeat (t : Thread) (intr : Bool) (n : Nat) : Thread :=
  { t.commitProduct with
    rptc := BitVec.ofNat 32 n, rep := some ⟨intr, t.pc⟩, pc := t.pc + 4, viaGret := false,
    fpAge := if t.tpend ≠ 0 then t.fpAge + 1 else t.fpAge }

/-- A prefix: its checks in the order of R136 and R90, then the repeat. -/
def State.prefix (s : State) (th : Thr) (intr : Bool) (limit : Nat) (w : Word) (rs : RegIx) (rsrc : Bool)
    (cntm1 : BitVec 16) : State :=
  if !s.canIssue th false then s
  else
    match s.headCause th false with
    | some s' => s'
    | none =>
      let t := s.thr th
      let n := t.prefixCount rs rsrc cntm1
      let word := s.ifetch th.pier.val (t.pc + 4)
      if !pcOk t.pc then s.takeCause th (.mk' cIspace 0 t.pc)
      else if !pcOk (t.pc + 4) then
        (if t.tpend ≠ 0 then s.takeFp th t.pc else s.takeException th (.mk' cIspace 0 (t.pc + 4)) (t.pc + 4))
      else if rsrc && cntm1 != 0 then s.takeCause th (.mk' cIllegal 0 w)
      else if n = 0 ∨ limit < n then s.takeCause th (.mk' cRepeat 1 (BitVec.ofNat 32 n))
      else if !pierRepeatable word then s.takeCause th (.mk' cRepeat 2 word)
      else
        match s.asyncDue th with
        | some c => s.takeAsync th c
        | none => (s.onThr th (fun t => t.startRepeat intr n)).countRetired th.pier.val 1

/-- RPT (R86, R89): the next instruction executes count times, 1 to 256, without interruption. -/
def execRpt (th : Thr) (rs : RegIx) (rsrc : Bool) (cntm1 : BitVec 16) (s : State) : Host.Outcome State Fault Refusal :=
  .next (s.prefix th false 256 (encP 0x1C rs.val rsrc cntm1) rs rsrc cntm1)

/-- RPTI (R86, R89): likewise, 1 to 65,536 times, interruptible between iterations. -/
def execRpti (th : Thr) (rs : RegIx) (rsrc : Bool) (cntm1 : BitVec 16) (s : State) : Host.Outcome State Fault Refusal :=
  .next (s.prefix th true 65536 (encP 0x1D rs.val rsrc cntm1) rs rsrc cntm1)

/-! ## Exception entry and thread control -/

/-- EXCEPTION_ENTRY (R129, R136): the first cause due at the thread's boundary is taken. An instruction word that is no
instruction raises ILLEGAL here (R71), a PC outside I-space ISPACE_FAULT (R53). -/
def execExceptionEntry (th : Thr) (s : State) : Host.Outcome State Fault Refusal :=
  let t := s.thr th
  let word := s.ifetch th.pier.val t.pc
  .next (
    if !s.clocked th.pier.val then s
    else if t.run = .waiting then
      if !t.defErrs.isEmpty then s.takeDeferred th
      else
      match s.asyncDue th with
      | some c => s.takeAsync th c
      | none => s
    else if !t.atBoundary then s
    else if t.tpend != 0 && !t.inRpt && (!t.exl || t.fpDue false) then s.takeFp th t.pc
    else if !t.defErrs.isEmpty then s.takeDeferred th
    else if !pcOk t.pc then s.takeCause th (.mk' cIspace 0 t.pc)
    else if !pierLegal word then s.takeCause th (.mk' cIllegal 0 word)
    else
      match s.asyncDue th with
      | some c => s.takeAsync th c
      | none => s)

/-- THREAD_STOPPED (R64): a stopping thread with nothing outstanding enters STOPPED. -/
def execThreadStopped (th : Thr) (s : State) : Host.Outcome State Fault Refusal :=
  .next (if s.clocked th.pier.val then s.stopThread th else s)

/-- PIER_THRUN_WRITE (R64): RUN bits written from anywhere; a pier whose island is not ONLINE is not reached (R250). -/
def execPierThrunWrite (_src : Src) (p : PierIx) (v : Word) (s : State) : Host.Outcome State Fault Refusal :=
  .next (if s.online p.val then (s.writeThrun p.val v).st else s)

/-- PIER_THPC_WRITE (R65). -/
def execPierThpcWrite (_src : Src) (th : Thr) (v : Word) (s : State) : Host.Outcome State Fault Refusal :=
  .next (if s.online th.pier.val then (s.writeThpc th v).st else s)

/-- PIER_EVMASK_WRITE (R68): either half of a thread's event mask. -/
def execPierEvmaskWrite (_src : Src) (th : Thr) (hi : Bool) (v : Word) (s : State) : Host.Outcome State Fault Refusal :=
  .next (if s.online th.pier.val then (s.writeEvmask th hi v).st else s)

end Sys2Proof.Machine
end

