-- ==== Sys2Proof/Machine/Jtag.lean ====
section
/-!
DEFINITION. Debug access through DBGACC (R532, Table elec-23): each command is one operation, from Update-DR to its captured result.

Choices and readings of this file: log 91.
-/

namespace Sys2Proof.Machine

/-- The result captured. -/
def State.dbgResult (s : State) (status : Nat) (data : Word) : State := { s with dbg := ⟨status, data⟩ }
/-- A result without a value the spec states for DATA. -/
def State.dbgFail (s : State) (status : Nat) : State :=
  let f := s.takeFree
  f.2.dbgResult status (BitVec.ofNat 32 f.1)

/-- Whether the TAP answers: POR resets it, and it lies in the AON island. -/
def State.tapUp (s : State) : Bool := !s.held.por && !s.held.aon && !s.held.extest

/-- DBGACC_IO_READ (R532): a Kernel-mode access from TS22 that clears no RC field. -/
def execDbgaccIoRead (a : BitVec 16) (s : State) : Host.Outcome State Fault Refusal :=
  if !s.tapUp then .next s
  else
    match s.ioRead .debug niAon a.toNat with
    | (.done v, s) => .next (s.dbgResult 0 (BitVec.ofNat 32 v))
    | (.error _, s) => .next (s.dbgFail 3)

/-- DBGACC_IO_WRITE (R532): never an RWP or RWS field (R391). -/
def execDbgaccIoWrite (a : BitVec 16) (v : Word) (s : State) : Host.Outcome State Fault Refusal :=
  if !s.tapUp then .next s
  else
    match s.ioWrite .debug niAon a.toNat v with
    | (.done code, s) => .next (s.dbgResult (if code = 0 then 0 else 4) v)
    | (.error _, s) => .next (s.dbgResult 3 v)

/-! ## Thread registers -/

/-- Registers REG names. -/
inductive DbgReg where
  | g (i : RegIx) | fLo (i : RegIx) | fHi (i : RegIx) | w (i : WIx) (k : Fin 8) | pl | ph | special (n : Fin 10)
  deriving DecidableEq, Repr

/-- REG, none where it is invalid. -/
def dbgRegOf (n : Nat) : Option DbgReg :=
  if n < 0x20 then some (.g (Fin.ofNat 32 n))
  else if n < 0x40 then some (.fLo (Fin.ofNat 32 (n - 0x20)))
  else if n < 0x60 then some (.fHi (Fin.ofNat 32 (n - 0x40)))
  else if 0x80 ≤ n ∧ n < 0xC0 then some (.w (Fin.ofNat 8 ((n - 0x80) / 8)) (Fin.ofNat 8 (n % 8)))
  else if n = 0xC0 then some .pl
  else if n = 0xC1 then some .ph
  else if 0xD0 ≤ n ∧ n < 0xDA then some (.special (Fin.ofNat 10 (n - 0xD0)))
  else none

/-- A register of a STOPPED thread; `pc`: the PC at which it will resume (R65). -/
def Thread.dbgRead (t : Thread) (pc : Word) : DbgReg → Word
  | .g i => t.rg i
  | .fLo i => BitVec.setWidth 32 (t.rf i)
  | .fHi i => BitVec.setWidth 32 (t.rf i >>> 32)
  | .w i k => BitVec.setWidth 32 (t.rw i >>> (32 * k.val))
  | .pl => t.pendL.getD t.pl
  | .ph => t.pendH.getD t.ph
  | .special n => if n = 0 then pc else t.special n.val

/-- A register written. -/
def Thread.dbgWrite (t : Thread) (v : Word) : DbgReg → Thread
  | .g i => t.wg i v
  | .fLo i => t.wf i (BitVec.ofNat 64 (v.toNat + 2 ^ 32 * ((t.rf i).toNat / 2 ^ 32)))
  | .fHi i => t.wf i (BitVec.ofNat 64 ((t.rf i).toNat % 2 ^ 32 + 2 ^ 32 * v.toNat))
  | .w i k =>
    let o := 32 * k.val
    let x := (t.rw i).toNat
    t.ww i (BitVec.ofNat 256 (x % 2 ^ o + v.toNat * 2 ^ o + x / 2 ^ (o + 32) * 2 ^ (o + 32)))
  | .pl => { t with pl := v, pendL := none }
  | .ph => { t with ph := v, pendH := none }
  | .special n => if n = 0 then { t with pc := BitVec.ofNat 32 (v.toNat % 2 ^ 17) } else t.setSpecial n.val v

/-- What an access to a register of a thread ends with before it is made: 6, 5 or 2, in that order; none where it may go on. -/
def State.dbgDenied (s : State) (th : Thr) (r : BitVec 8) : Option Nat :=
  if !s.online th.pier.val then some 6
  else if (dbgRegOf r.toNat).isNone then some 5
  else if (s.thr th).run ≠ .stopped then some 2
  else none

/-- DBGACC_REG_READ (R532). -/
def execDbgaccRegRead (th : Thr) (r : BitVec 8) (s : State) : Host.Outcome State Fault Refusal :=
  if !s.tapUp then .next s
  else
    match s.dbgDenied th r, dbgRegOf r.toNat with
    | none, some x => .next (s.dbgResult 0 ((s.thr th).dbgRead (BitVec.ofNat 32 (s.rf (Reg.PIER_THPC.PC th.pier.val th.th.val))) x))
    | some st, _ => .next (s.dbgFail st)
    | none, none => .next s

/-- DBGACC_REG_WRITE (R532); the PC of a STOPPED thread is the one PIER_THPC holds (R65). -/
def execDbgaccRegWrite (th : Thr) (r : BitVec 8) (v : Word) (s : State) : Host.Outcome State Fault Refusal :=
  if !s.tapUp then .next s
  else
    match s.dbgDenied th r, dbgRegOf r.toNat with
    | none, some x =>
      let s := s.onThr th (fun t => t.dbgWrite v x)
      let s := if x = .special 0 then s.wf (Reg.PIER_THPC.PC th.pier.val th.th.val) v.toNat else s
      .next (s.dbgResult 0 v)
    | some st, _ => .next (s.dbgResult st v)
    | none, none => .next s

end Sys2Proof.Machine
end

