-- ==== Sys2Proof/Machine/PierAlu.lean ====
section
/-!
DEFINITION. The integer and logic instructions, branches and jumps (spec/03, Tables isa-4 and isa-5).
-/

namespace Sys2Proof.Machine

/-! ## Results (R74) -/

/-- 1 or 0. -/
def ofBool (b : Bool) : Word := BitVec.ofNat 32 (b2n b)
/-- Signed saturation of an exact result to a word (ADDSAT, SUBSAT). -/
def satWord (i : Int) : Word := BitVec.ofInt 32 (satS 32 i)
/-- Leading zeros of a word; 32 for 0. -/
def clzWord (w : Word) : Nat := if w = 0 then 32 else 31 - Nat.log2 w.toNat
/-- Number of 1 bits among the lowest `n` of `v`. -/
def popBits (n v : Nat) : Nat :=
  match n with
  | 0 => 0
  | k + 1 => v % 2 + popBits k (v / 2)
/-- Signed minimum. -/
def sMin (a b : Word) : Word := if a.slt b then a else b
/-- Signed maximum. -/
def sMax (a b : Word) : Word := if a.slt b then b else a
/-- Unsigned minimum. -/
def uMin (a b : Word) : Word := if a.ult b then a else b
/-- Unsigned maximum. -/
def uMax (a b : Word) : Word := if a.ult b then b else a

/-! ## ALU, register forms (OP 0x00) -/

/-- Gd ← f Gs Gt. -/
def State.aluRR (s : State) (th : Thr) (rd rs rt : RegIx) (f : Word → Word → Word) : State :=
  s.issueReg th true (fun t => t.wg rd (f (t.rg rs) (t.rg rt)))
/-- Gd ← f Gs. -/
def State.aluR (s : State) (th : Thr) (rd rs : RegIx) (f : Word → Word) : State :=
  s.issueReg th true (fun t => t.wg rd (f (t.rg rs)))

/-- ADD (Table isa-4): Gd ← Gs + Gt. -/
def execAdd (th : Thr) (rd rs rt : RegIx) (s : State) : Host.Outcome State Fault Refusal :=
  .next (s.aluRR th rd rs rt (fun a b => a + b))

/-- SUB (Table isa-4): Gd ← Gs − Gt. -/
def execSub (th : Thr) (rd rs rt : RegIx) (s : State) : Host.Outcome State Fault Refusal :=
  .next (s.aluRR th rd rs rt (fun a b => a - b))

/-- AND (Table isa-4): Gd ← Gs AND Gt. -/
def execAnd (th : Thr) (rd rs rt : RegIx) (s : State) : Host.Outcome State Fault Refusal :=
  .next (s.aluRR th rd rs rt (fun a b => a &&& b))

/-- OR (Table isa-4): Gd ← Gs OR Gt. -/
def execOr (th : Thr) (rd rs rt : RegIx) (s : State) : Host.Outcome State Fault Refusal :=
  .next (s.aluRR th rd rs rt (fun a b => a ||| b))

/-- XOR (Table isa-4): Gd ← Gs XOR Gt. -/
def execXor (th : Thr) (rd rs rt : RegIx) (s : State) : Host.Outcome State Fault Refusal :=
  .next (s.aluRR th rd rs rt (fun a b => a ^^^ b))

/-- NOR (Table isa-4): Gd ← NOT (Gs OR Gt). -/
def execNor (th : Thr) (rd rs rt : RegIx) (s : State) : Host.Outcome State Fault Refusal :=
  .next (s.aluRR th rd rs rt (fun a b => ~~~(a ||| b)))

/-- SLT (Table isa-4): Gd ← 1 if Gs < Gt signed. -/
def execSlt (th : Thr) (rd rs rt : RegIx) (s : State) : Host.Outcome State Fault Refusal :=
  .next (s.aluRR th rd rs rt (fun a b => ofBool (a.slt b)))

/-- SLTU (Table isa-4): Gd ← 1 if Gs < Gt unsigned. -/
def execSltu (th : Thr) (rd rs rt : RegIx) (s : State) : Host.Outcome State Fault Refusal :=
  .next (s.aluRR th rd rs rt (fun a b => ofBool (a.ult b)))

/-- SLL (Table isa-4): Gs shifted left by Gt[4:0]. -/
def execSll (th : Thr) (rd rs rt : RegIx) (s : State) : Host.Outcome State Fault Refusal :=
  .next (s.aluRR th rd rs rt (fun a b => a <<< (b.toNat % 32)))

/-- SRL (Table isa-4): Gs shifted right, logical, by Gt[4:0]. -/
def execSrl (th : Thr) (rd rs rt : RegIx) (s : State) : Host.Outcome State Fault Refusal :=
  .next (s.aluRR th rd rs rt (fun a b => a >>> (b.toNat % 32)))

/-- SRA (Table isa-4): Gs shifted right, arithmetic, by Gt[4:0]. -/
def execSra (th : Thr) (rd rs rt : RegIx) (s : State) : Host.Outcome State Fault Refusal :=
  .next (s.aluRR th rd rs rt (fun a b => a.sshiftRight (b.toNat % 32)))

/-- MIN (Table isa-4): signed minimum. -/
def execMin (th : Thr) (rd rs rt : RegIx) (s : State) : Host.Outcome State Fault Refusal :=
  .next (s.aluRR th rd rs rt (fun a b => sMin a b))

/-- MAX (Table isa-4): signed maximum. -/
def execMax (th : Thr) (rd rs rt : RegIx) (s : State) : Host.Outcome State Fault Refusal :=
  .next (s.aluRR th rd rs rt (fun a b => sMax a b))

/-- MINU (Table isa-4): unsigned minimum. -/
def execMinu (th : Thr) (rd rs rt : RegIx) (s : State) : Host.Outcome State Fault Refusal :=
  .next (s.aluRR th rd rs rt (fun a b => uMin a b))

/-- MAXU (Table isa-4): unsigned maximum. -/
def execMaxu (th : Thr) (rd rs rt : RegIx) (s : State) : Host.Outcome State Fault Refusal :=
  .next (s.aluRR th rd rs rt (fun a b => uMax a b))

/-- ADDSAT (Table isa-4): signed saturated sum. -/
def execAddsat (th : Thr) (rd rs rt : RegIx) (s : State) : Host.Outcome State Fault Refusal :=
  .next (s.aluRR th rd rs rt (fun a b => satWord (a.toInt + b.toInt)))

/-- SUBSAT (Table isa-4): signed saturated difference. -/
def execSubsat (th : Thr) (rd rs rt : RegIx) (s : State) : Host.Outcome State Fault Refusal :=
  .next (s.aluRR th rd rs rt (fun a b => satWord (a.toInt - b.toInt)))

/-- SLLI (Table isa-4): Gs shifted left. -/
def execSlli (th : Thr) (rd rs : RegIx) (sh : BitVec 5) (s : State) : Host.Outcome State Fault Refusal :=
  .next (s.aluR th rd rs (fun a => a <<< sh.toNat))

/-- SRLI (Table isa-4): Gs shifted right, logical. -/
def execSrli (th : Thr) (rd rs : RegIx) (sh : BitVec 5) (s : State) : Host.Outcome State Fault Refusal :=
  .next (s.aluR th rd rs (fun a => a >>> sh.toNat))

/-- SRAI (Table isa-4): Gs shifted right, arithmetic. -/
def execSrai (th : Thr) (rd rs : RegIx) (sh : BitVec 5) (s : State) : Host.Outcome State Fault Refusal :=
  .next (s.aluR th rd rs (fun a => a.sshiftRight sh.toNat))

/-- CLZ (Table isa-4): leading zeros of Gs. -/
def execClz (th : Thr) (rd rs : RegIx) (s : State) : Host.Outcome State Fault Refusal :=
  .next (s.aluR th rd rs (fun a => BitVec.ofNat 32 (clzWord a)))

/-- POPC (Table isa-4): 1 bits of Gs. -/
def execPopc (th : Thr) (rd rs : RegIx) (s : State) : Host.Outcome State Fault Refusal :=
  .next (s.aluR th rd rs (fun a => BitVec.ofNat 32 (popBits 32 a.toNat)))

/-- SEXTB (Table isa-4): Gs[7:0] sign-extended. -/
def execSextb (th : Thr) (rd rs : RegIx) (s : State) : Host.Outcome State Fault Refusal :=
  .next (s.aluR th rd rs (fun a => (a.setWidth 8).signExtend 32))

/-- SEXTH (Table isa-4): Gs[15:0] sign-extended. -/
def execSexth (th : Thr) (rd rs : RegIx) (s : State) : Host.Outcome State Fault Refusal :=
  .next (s.aluR th rd rs (fun a => (a.setWidth 16).signExtend 32))

/-- ZEXTH (Table isa-4): Gs[15:0] zero-extended. -/
def execZexth (th : Thr) (rd rs : RegIx) (s : State) : Host.Outcome State Fault Refusal :=
  .next (s.aluR th rd rs (fun a => (a.setWidth 16).setWidth 32))

/-! ## Immediates (R73) -/

/-- ADDI (Table isa-4): Gd ← Gs + imm16. -/
def execAddi (th : Thr) (rd rs : RegIx) (imm : BitVec 16) (s : State) : Host.Outcome State Fault Refusal :=
  .next (s.aluR th rd rs (fun a => a + sx imm))

/-- ANDI (Table isa-4): Gd ← Gs AND imm16. -/
def execAndi (th : Thr) (rd rs : RegIx) (imm : BitVec 16) (s : State) : Host.Outcome State Fault Refusal :=
  .next (s.aluR th rd rs (fun a => a &&& zx imm))

/-- ORI (Table isa-4): Gd ← Gs OR imm16. -/
def execOri (th : Thr) (rd rs : RegIx) (imm : BitVec 16) (s : State) : Host.Outcome State Fault Refusal :=
  .next (s.aluR th rd rs (fun a => a ||| zx imm))

/-- XORI (Table isa-4): Gd ← Gs XOR imm16. -/
def execXori (th : Thr) (rd rs : RegIx) (imm : BitVec 16) (s : State) : Host.Outcome State Fault Refusal :=
  .next (s.aluR th rd rs (fun a => a ^^^ zx imm))

/-- SLTI (Table isa-4): Gd ← 1 if Gs < imm16 signed. -/
def execSlti (th : Thr) (rd rs : RegIx) (imm : BitVec 16) (s : State) : Host.Outcome State Fault Refusal :=
  .next (s.aluR th rd rs (fun a => ofBool (a.slt (sx imm))))

/-- SLTIU (Table isa-4): Gd ← 1 if Gs < imm16, sign-extended, unsigned. -/
def execSltiu (th : Thr) (rd rs : RegIx) (imm : BitVec 16) (s : State) : Host.Outcome State Fault Refusal :=
  .next (s.aluR th rd rs (fun a => ofBool (a.ult (sx imm))))

/-- LUI (Table isa-4): Gd ← imm16 << 16. -/
def execLui (th : Thr) (rd : RegIx) (imm : BitVec 16) (s : State) : Host.Outcome State Fault Refusal :=
  .next (s.issueReg th true (fun t => t.wg rd (zx imm <<< 16)))

/-! ## Branches and jumps (R75) -/

/-- A conditional branch. -/
def State.branch (s : State) (th : Thr) (ra rb : RegIx) (off : BitVec 16) (c : Word → Word → Bool) : State :=
  s.issue th false false (fun s =>
    let t := s.thr th
    .done s (if c (t.rg ra) (t.rg rb) then branchTarget t.pc off else t.pc + 4) 1)

/-- BEQ (Table isa-5): taken if Ga = Gb. -/
def execBeq (th : Thr) (ra rb : RegIx) (off : BitVec 16) (s : State) : Host.Outcome State Fault Refusal :=
  .next (s.branch th ra rb off (fun a b => a == b))

/-- BNE (Table isa-5): taken if Ga ≠ Gb. -/
def execBne (th : Thr) (ra rb : RegIx) (off : BitVec 16) (s : State) : Host.Outcome State Fault Refusal :=
  .next (s.branch th ra rb off (fun a b => a != b))

/-- BLT (Table isa-5): taken if Ga < Gb signed. -/
def execBlt (th : Thr) (ra rb : RegIx) (off : BitVec 16) (s : State) : Host.Outcome State Fault Refusal :=
  .next (s.branch th ra rb off (fun a b => a.slt b))

/-- BGE (Table isa-5): taken if Ga ≥ Gb signed. -/
def execBge (th : Thr) (ra rb : RegIx) (off : BitVec 16) (s : State) : Host.Outcome State Fault Refusal :=
  .next (s.branch th ra rb off (fun a b => !(a.slt b)))

/-- BLTU (Table isa-5): taken if Ga < Gb unsigned. -/
def execBltu (th : Thr) (ra rb : RegIx) (off : BitVec 16) (s : State) : Host.Outcome State Fault Refusal :=
  .next (s.branch th ra rb off (fun a b => a.ult b))

/-- BGEU (Table isa-5): taken if Ga ≥ Gb unsigned. -/
def execBgeu (th : Thr) (ra rb : RegIx) (off : BitVec 16) (s : State) : Host.Outcome State Fault Refusal :=
  .next (s.branch th ra rb off (fun a b => !(a.ult b)))

/-- J (R75): a jump. -/
def execJ (th : Thr) (off : BitVec 26) (s : State) : Host.Outcome State Fault Refusal :=
  .next (s.issue th false false (fun s => .done s (branchTarget (s.thr th).pc off) 1))

/-- JAL (R75): G31 ← own address plus 4, and a jump. -/
def execJal (th : Thr) (off : BitVec 26) (s : State) : Host.Outcome State Fault Refusal :=
  .next (s.issue th false false (fun s =>
    .done (s.onThr th (fun t => t.wg 31 (t.pc + 4))) (branchTarget (s.thr th).pc off) 1))

/-- JALR (R75): Gd ← own address plus 4, and a jump to Gs; a misaligned Gs raises ALIGN, with no link and no jump. -/
def execJalr (th : Thr) (rd rs : RegIx) (s : State) : Host.Outcome State Fault Refusal :=
  .next (s.issue th false false (fun s =>
    let a := (s.thr th).rg rs
    if a.toNat % 4 ≠ 0 then .trap (.mk' cAlign 0 a)
    else .done (s.onThr th (fun t => t.wg rd (t.pc + 4))) a 1))

end Sys2Proof.Machine
end

