-- ==== Sys2Proof/Machine/PierMul.lean ====
section
/-!
DEFINITION. The MULDIV group (spec/03, Table isa-7; R50 to R52, R81, R82).
-/

namespace Sys2Proof.Machine

/-- The product pair as the instruction after the previous multiply sees it: {PH, PL} before that product (R51). -/
def Thread.pair (t : Thread) : Nat := t.pl.toNat + t.ph.toNat * 2 ^ 32

/-- A new product, visible to the second instruction from here; the product before it becomes visible now (R51). -/
def Thread.setProduct (t : Thread) (p : Nat) : Thread :=
  { t.commitProduct with pendL := some (BitVec.ofNat 32 p), pendH := some (BitVec.ofNat 32 (p / 2 ^ 32)) }

/-- A multiply: `f` gives the 64-bit product pair from the operands and the visible pair. -/
def State.multiply (s : State) (th : Thr) (rs rt : RegIx) (f : Word → Word → Nat → Nat) : State :=
  s.issue th false false (fun s =>
    .product (s.onThr th (fun t => t.setProduct (f (t.rg rs) (t.rg rt) t.pair % 2 ^ 64))) (s.npc th))

/-- MUL (Table isa-7): {PH, PL} ← signed Gs × Gt. -/
def execMul (th : Thr) (rs rt : RegIx) (s : State) : Host.Outcome State Fault Refusal :=
  .next (s.multiply th rs rt (fun a b _ => uNat 64 (a.toInt * b.toInt)))
/-- MULU (Table isa-7): {PH, PL} ← unsigned Gs × Gt. -/
def execMulu (th : Thr) (rs rt : RegIx) (s : State) : Host.Outcome State Fault Refusal :=
  .next (s.multiply th rs rt (fun a b _ => a.toNat * b.toNat))
/-- MAC (Table isa-7): {PH, PL} ← {PH, PL} + signed Gs × Gt, modulo 2^64. -/
def execMac (th : Thr) (rs rt : RegIx) (s : State) : Host.Outcome State Fault Refusal :=
  .next (s.multiply th rs rt (fun a b p => p + uNat 64 (a.toInt * b.toInt)))
/-- MACU (Table isa-7): {PH, PL} ← {PH, PL} + unsigned Gs × Gt, modulo 2^64. -/
def execMacu (th : Thr) (rs rt : RegIx) (s : State) : Host.Outcome State Fault Refusal :=
  .next (s.multiply th rs rt (fun a b p => p + a.toNat * b.toNat))

/-- A divide or remainder: DIV_ZERO for divisor 0 with no hold (R50), else the whole pier holds for 20 cycles (R49). -/
def State.divide (s : State) (th : Thr) (rd rs rt : RegIx) (fn : Nat) (f : Word → Word → Word) : State :=
  s.issue th false false (fun s =>
    let t := s.thr th
    if t.rg rt = 0 then .trap (.mk' cDivZero 0 (encA 8 rd.val rs.val rt.val fn))
    else .done (s.onThr th (fun t => t.wg rd (f (t.rg rs) (t.rg rt)))) (t.pc + 4) 20)

/-- DIV (R82): signed quotient, truncated toward zero; −2^31 by −1 gives −2^31. -/
def execDiv (th : Thr) (rd rs rt : RegIx) (s : State) : Host.Outcome State Fault Refusal :=
  .next (s.divide th rd rs rt 0x8 (fun a b => BitVec.ofInt 32 (Int.tdiv a.toInt b.toInt)))
/-- DIVU: unsigned quotient. -/
def execDivu (th : Thr) (rd rs rt : RegIx) (s : State) : Host.Outcome State Fault Refusal :=
  .next (s.divide th rd rs rt 0x9 (fun a b => BitVec.ofNat 32 (a.toNat / b.toNat)))
/-- REM (R82): signed remainder, with the sign of Gs. -/
def execRem (th : Thr) (rd rs rt : RegIx) (s : State) : Host.Outcome State Fault Refusal :=
  .next (s.divide th rd rs rt 0xA (fun a b => BitVec.ofInt 32 (Int.tmod a.toInt b.toInt)))
/-- REMU: unsigned remainder. -/
def execRemu (th : Thr) (rd rs rt : RegIx) (s : State) : Host.Outcome State Fault Refusal :=
  .next (s.divide th rd rs rt 0xB (fun a b => BitVec.ofNat 32 (a.toNat % b.toNat)))

/-- MFPL (R81): Gd ← PL as visible here. -/
def execMfpl (th : Thr) (rd : RegIx) (s : State) : Host.Outcome State Fault Refusal :=
  .next (s.issueReg th false (fun t => t.wg rd t.pl))
/-- MFPH (R81): Gd ← PH as visible here. -/
def execMfph (th : Thr) (rd : RegIx) (s : State) : Host.Outcome State Fault Refusal :=
  .next (s.issueReg th false (fun t => t.wg rd t.ph))
/-- MTPL (R81): PL ← Gs, visible to the next instruction, over the PL of a multiply directly before. -/
def execMtpl (th : Thr) (rs : RegIx) (s : State) : Host.Outcome State Fault Refusal :=
  .next (s.issueReg th false (fun t => { t with pl := t.rg rs, pendL := none }))
/-- MTPH (R81): PH ← Gs, likewise. -/
def execMtph (th : Thr) (rs : RegIx) (s : State) : Host.Outcome State Fault Refusal :=
  .next (s.issueReg th false (fun t => { t with ph := t.rg rs, pendH := none }))

end Sys2Proof.Machine
end

