-- ==== Sys2Proof/Machine/RecCmd.lean ====
section
/-!
DEFINITION. The commands of the recorder, the Vault and the RTC (spec/14): the Vault check, writes, samples, flushes, snapshots, pages,
and time.

Choices and readings of this file: log 29, 49, 51, 60, 115, 117.
-/

namespace Sys2Proof.Machine

/-! ## The Vault check (R350, R353, R386, R388, R389) -/

/-- Bits of a copy found flipped since it was written: copy B or A of a record. -/
def State.spoilCopy (s : State) (id : Nat) (b : Bool) (mask : Nat) : State :=
  if vaultIds.contains id then
    let r := s.vrec id
    let hit := fun (c : VCopy) => { c with raw := c.raw ^^^ (mask % 256 ^ vaultLen id) }
    s.setVrec id (if b then { r with b := hit r.b } else { r with a := hit r.a })
  else s

/-- TIMEBASE loaded. -/
def State.loadTimebase (s : State) : State :=
  match s.vaultRead 2 with
  | none => s
  | some w =>
    s.onRec (fun r =>
      { r with
        opsec := bytesAt w 0 5, cycles := bytesAt w 8 4, resets := bytesAt w 12 4, pwrfails := bytesAt w 16 4,
        histClears := bytesAt w 20 4, lost := bytesAt w 24 4, lostNoted := bytesAt w 24 4 })

/-- A trigger set loaded; a lost record leaves it disabled. -/
def State.loadSet (s : State) (k : Nat) : State :=
  match s.vaultRead (0x10 + k) with
  | none => s
  | some w =>
    let s := (s.wf (Reg.REC_SNAP_CTL.TRIGMASK k) (bytesAt w 0 1)).wf (Reg.REC_SNAP_CTL.COUNT k) (bytesAt w 1 1)
    (List.range 32).foldl (fun s i => s.wf (Reg.REC_SNAP_ADDR.ADDR k i) (bytesAt w (4 + 2 * i) 2)) s

/-- A channel's configuration loaded; a lost record leaves it disabled. -/
def State.loadChCfg (s : State) (n : Nat) : State :=
  match s.vaultRead (0x100 + n) with
  | none => s
  | some w =>
    (List.range 5).foldl (fun s i => s.setReg (Reg.REC_CH_SRC_at n + i) (BitVec.ofNat 32 (bytesAt w (4 * i) 4))) s

/-- A channel's shadow loaded; a lost record starts at zero, RECOVERED. -/
def State.loadChan (s : State) (n : Nat) : State :=
  s.setChan n (match s.vaultRead (0x200 + n) with | some w => chanOf w | none => { Chan.zero with recovered := true })

/-- An entry of the ledger from its bytes. -/
def entOf (w : Nat) : Option LedEnt :=
  if w = 0 then none else some ⟨bytesAt w 0 5, bytesAt w 5 1, bytesAt w 8 4, bytesAt w 12 4⟩

/-- The ledger loaded. -/
def State.loadLedger (s : State) : State :=
  match s.vaultRead 0x300 with
  | none => s
  | some w =>
    let ents := (List.range 64).foldl (fun m i => SMap.set m none i (entOf (bytesAt w (16 + 16 * i) 16))) ([] : SMap (Option LedEnt))
    s.onRec (fun r => { r with total := bytesAt w 0 4, next := bytesAt w 4 4 % 64, ledger := ents })

/-- The SEAL record loaded (Table par-3); PAR_STATUS.SEAL_BROKEN shows the record's bit. -/
def State.loadSeal (s : State) : State :=
  match s.vaultRead 3 with
  | none => s
  | some w =>
    let flags := bytesAt w 0 1
    let s := (s.wf Reg.PAR_STATUS.SEAL_BROKEN (flags % 2)).wf Reg.PAR_SEAL_INFO.CAL_VALID (flags / 2)
    let s := (s.wf Reg.PAR_SEAL_INFO.ON_VBAT (flags / 4)).wf Reg.PAR_SEAL_SEC.CAL_SEC (bytesAt w 4 4)
    let s := s.wf Reg.PAR_SEAL_INFO.CAL_FRAC (bytesAt w 8 2)
    let s := s.setReg Reg.PAR_CFG_at (BitVec.ofNat 32 (bytesAt w 36 4))
    s.onPar (fun p =>
      { p with
        brokeOp := bytesAt w 12 5, brokeCycles := bytesAt w 20 4, windows := min (2 ^ 32 - 1) (p.windows + bytesAt w 24 4),
        bench := bytesAt w 28 4, losses := bytesAt w 32 4 })

/-- A lost record: VAULT_FAULT and a ledger entry. -/
def State.noteLost (s : State) (id : Nat) : State := (s.wf Reg.AON_STATUS.VAULT_FAULT 1).ledgerEntry 5 id 0

/-- The shadows loaded after a POR, with what the Parapet does at that check. -/
def State.loadShadows (s : State) : State :=
  let lost := s.vaultLost
  let half := s.vaultHalf
  let s := (s.wf Reg.REC_VAULT_STATUS.REPAIRED (min 255 half.length)).wf Reg.REC_VAULT_STATUS.LOST (min 255 lost.length)
  let s := (s.loadTimebase).loadSeal
  let s := match s.vaultRead 5 with | some w => s.wf Reg.REC_CFG.FLUSH_S w | none => s
  let s := (List.range 8).foldl State.loadSet s
  let s := (List.range 64).foldl State.loadChCfg s
  let s := (List.range 64).foldl State.loadChan s
  lost.foldl State.noteLost s.loadLedger

/-- VBAT losses, a bench start, and a seal broken while only VBAT was present (R386, R388, R389). -/
def State.checkSeal (s : State) : State :=
  let s := if s.par.vbatLost then
      ((s.onPar (fun p => { p with vbatLost := false, losses := min (2 ^ 32 - 1) (p.losses + 1) })).wf Reg.PAR_STATUS.VBAT_LOST 1).vaultQueue 3
    else s
  let s := if s.win = wBench then
      ((s.onPar (fun p => { p with bench := min (2 ^ 32 - 1) (p.bench + 1) })).vaultQueue 3).evRecord 0x10 1
    else s
  s.recordSeal

/-- Quarters present, initialised to pattern 0 by the sequencer (Table boot-2, step 1); after a POR they hold zeros already. -/
def State.deckReady (s : State) : State :=
  (List.range s.grade.quarters).foldl (fun s q => s.wf (Reg.DECK_STATUS.INIT_DONE q) 1) s

/-- The Vault check of a start. -/
def State.vaultCheck (s : State) (flips : List (Nat × Bool × Nat)) : State :=
  let s :=
    if s.boot.sys then s.onRec (fun r => { r with resets := min (2 ^ 32 - 1) (r.resets + 1) })
    else
      let s := flips.foldl (fun s e => s.spoilCopy e.1 e.2.1 e.2.2) s
      let s := (s.loadShadows).onRec (fun r => { r with cycles := min (2 ^ 32 - 1) (r.cycles + 1) })
      s.checkSeal.deckReady
  ({ s with boot := { s.boot with phase := .checked } }.vaultQueue 2).vaultBegin

/-! ## Commands -/

/-- VAULT_CHECK (R350, R353): the bits found flipped in copies, by record and whether copy B. Until the PLLs have started the sequence waits
at step 2 of Table clk-6 (R294). -/
def execVaultCheck (flips : List (Nat × Bool × Nat)) (s : State) : Host.Outcome State Fault Refusal :=
  if s.boot.phase = .start ∧ s.spll.key = .none ∧ !s.held.any ∧ s.spState ≠ spStarting then .next (s.vaultCheck flips) else .next s

/-- VAULT_RECORD_WRITE (R348): the next write begins. -/
def execVaultRecordWrite (s : State) : Host.Outcome State Fault Refusal :=
  if s.aonUp then .next s.vaultBegin else .next s

/-- VAULT_WRITE_COMPLETE (R348): whether the copy read back as written, at the second attempt at the latest. -/
def execVaultWriteComplete (ok : Bool) (s : State) : Host.Outcome State Fault Refusal :=
  match s.vault.cur with
  | none => .next s
  | some w => .next ((((if w.flush then (s.vaultEnd ok).flushed w.id else s.vaultEnd ok)).flcResume).vaultBegin)

/-- OPSEC_ADVANCE (R352): 40 bits. -/
def execOpsecAdvance (s : State) : Host.Outcome State Fault Refusal :=
  if s.aonUp then .next (s.onRec (fun r => { r with opsec := (r.opsec + 1) % 2 ^ 40 })) else .next s

/-- RTC_SLEW_WRITE (R355). -/
def execRtcSlewWrite (src : Src) (v : Word) (s : State) : Host.Outcome State Fault Refusal :=
  if s.aonUp then .next (s.writeSlew src v).st else .next s

/-- SLEW_END (R355): every tick of the slew has been added or withheld. -/
def execSlewEnd (s : State) : Host.Outcome State Fault Refusal :=
  if s.aonUp && s.rtc.slew == 0 then .next (s.wf Reg.RTC_STATUS.SLEWING 0) else .next s

/-- CALENDAR_STEP (R356): RTC_SET_FRAC written with GO. -/
def execCalendarStep (src : Src) (v : Word) (s : State) : Host.Outcome State Fault Refusal :=
  if s.aonUp then .next (s.writeAon src Reg.RTC_SET_FRAC_at (putBits v 31 1 1)).st else .next s

/-- CHANNEL_SAMPLE (R357, R360): a channel's period expires. -/
def execChannelSample (n : Fin 64) (s : State) : Host.Outcome State Fault Refusal :=
  if s.aonUp then .next (s.channelDue n.val) else .next s

/-- REC_PUSH (R364): REC_PUSH_n written. -/
def execRecPush (src : Src) (n : Fin 64) (v : Word) (s : State) : Host.Outcome State Fault Refusal :=
  if s.aonUp then .next (s.writePush src n.val v).st else .next s

/-- CHANNEL_CONFIG_WRITE (R363): configuration word i of channel n. -/
def execChannelConfigWrite (src : Src) (n : Fin 64) (i : Fin 5) (v : Word) (s : State) : Host.Outcome State Fault Refusal :=
  if s.aonUp then .next (s.writeChan src n.val i.val v).st else .next s

/-- FLUSH (R365): FLUSH_S seconds have passed. -/
def execFlush (s : State) : Host.Outcome State Fault Refusal :=
  if s.aonUp then .next s.flush else .next s

/-- REC_FLUSH_NOW (R365): REC_FLUSH written with NOW. -/
def execRecFlushNow (src : Src) (s : State) : Host.Outcome State Fault Refusal :=
  if s.aonUp then .next (s.writeRec src Reg.REC_FLUSH_at 1).st else .next s

/-- HISTORY_CLEAR (R368): REC_CLEAR written with GO. -/
def execHistoryClear (src : Src) (v : Word) (s : State) : Host.Outcome State Fault Refusal :=
  if s.aonUp then .next (s.writeRec src Reg.REC_CLEAR_at (putBits v 31 1 1)).st else .next s

/-- SNAPSHOT_FIRE (R369, R370): the sets of the sources that have signalled fire, their reads issue. -/
def execSnapshotFire (s : State) : Host.Outcome State Fault Refusal :=
  if s.aonUp then .next (({ s with trigs := [] }.fireSets s.trigs 0 8).issueReads 8) else .next s

/-- REC_SNAP_FIRE (R369): source 6 of the sets in `mask`. -/
def execRecSnapFire (src : Src) (mask : BitVec 8) (s : State) : Host.Outcome State Fault Refusal :=
  if s.aonUp then .next (s.writeRec src Reg.REC_SNAP_FIRE_at (mask.setWidth 32)).st else .next s

/-- RECORDER_APPEND (R371, R372): a page of the records that wait. -/
def execRecorderAppend (s : State) : Host.Outcome State Fault Refusal :=
  if s.aonUp && !s.on Reg.REC_STATUS.PWRFAIL then .next s.appendPage else .next s

/-- REC_HIST_SEL_WRITE (R365). -/
def execRecHistSelWrite (v : Word) (s : State) : Host.Outcome State Fault Refusal :=
  if s.aonUp then .next (s.writeHistSel v) else .next s

/-- REC_CH_SEL_WRITE (R365). -/
def execRecChSelWrite (v : Word) (s : State) : Host.Outcome State Fault Refusal :=
  if s.aonUp then .next (s.writeChSel v) else .next s

/-- REC_OPSEC_LO_READ (R352). -/
def execRecOpsecLoRead (s : State) : Host.Outcome State Fault Refusal :=
  if s.aonUp then .next (s.recRead Reg.REC_OPSEC_LO_at) else .next s

/-- RTC_SEC_READ (R354). -/
def execRtcSecRead (s : State) : Host.Outcome State Fault Refusal :=
  if s.aonUp then .next (s.recRead Reg.RTC_SEC_at) else .next s

end Sys2Proof.Machine
end

