-- ==== Sys2Proof/Machine/SpanExec.lean ====
section
/-!
DEFINITION. The Span operations (Tables job-4 to job-7): each computes one element of the group in progress where its instruction is
the next one there, and leaves the state as it is otherwise.

Choices and readings of this file: log 15.
-/

namespace Sys2Proof.Machine

/-- VADD (R185, Tables job-4 to job-6): the element takes A + B. -/
def execSpanVadd (q : QIx) (s : State) : Host.Outcome State Fault Refusal :=
  .next (s.spanOp q 0x10 (fun e => spAdd false e.c e.i.ct e.o))

/-- VSUB (R185, Tables job-4 to job-6): the element takes A − B. -/
def execSpanVsub (q : QIx) (s : State) : Host.Outcome State Fault Refusal :=
  .next (s.spanOp q 0x11 (fun e => spAdd true e.c e.i.ct e.o))

/-- VMUL (R185, Tables job-4 to job-6): the element takes A × B, the complex product for c32. -/
def execSpanVmul (q : QIx) (s : State) : Host.Outcome State Fault Refusal :=
  .next (s.spanOp q 0x12 (fun e => spMul e.c e.i.ct e.o))

/-- VFMA (R185, Tables job-4 to job-6): the element takes A × B + C with one rounding. -/
def execSpanVfma (q : QIx) (s : State) : Host.Outcome State Fault Refusal :=
  .next (s.spanOp q 0x13 (fun e => e.c.fma false false e.o.a e.o.b e.o.c))

/-- VFMS (R185, Tables job-4 to job-6): the element takes A × B − C with one rounding. -/
def execVfms (q : QIx) (s : State) : Host.Outcome State Fault Refusal :=
  .next (s.spanOp q 0x14 (fun e => e.c.fma false true e.o.a e.o.b e.o.c))

/-- VFNMA (R185, Tables job-4 to job-6): the element takes −(A × B) + C with one rounding. -/
def execVfnma (q : QIx) (s : State) : Host.Outcome State Fault Refusal :=
  .next (s.spanOp q 0x15 (fun e => e.c.fma true false e.o.a e.o.b e.o.c))

/-- VCMUL (R185, Tables job-4 to job-6): the element takes A × conj(B). -/
def execVcmul (q : QIx) (s : State) : Host.Outcome State Fault Refusal :=
  .next (s.spanOp q 0x16 (fun e => cmul e.c true e.o.a e.o.b))

/-- VBFLY (R185, Tables job-4 to job-6): the element takes A ± W × B: MOD[0] is H, MOD[1] is J. -/
def execVbfly (q : QIx) (s : State) : Host.Outcome State Fault Refusal :=
  .next (s.spanOp q 0x17 (fun e => cbfly e.c (e.i.md % 2 == 1) (e.i.md / 2 % 2 == 1) e.o.a e.o.b e.o.c))

/-- VCABS2 (R185, Tables job-4 to job-6): the element takes re(A)² + im(A)² in binary32. -/
def execVcabs2 (q : QIx) (s : State) : Host.Outcome State Fault Refusal :=
  .next (s.spanOp q 0x18 (fun e =>
    sumTerms e.c [⟨false, cre e.o.a, cre e.o.a⟩, ⟨false, cim e.o.a, cim e.o.a⟩] [cre e.o.a, cim e.o.a]))

/-- VMOV (R185, Tables job-4 to job-6): the element takes A. -/
def execVmov (q : QIx) (s : State) : Host.Outcome State Fault Refusal :=
  .next (s.spanOp q 0x20 (fun e => plain e.o.a))

/-- VIADD (R185, Tables job-4 to job-6): the element takes A + B modulo 2^32. -/
def execViadd (q : QIx) (s : State) : Host.Outcome State Fault Refusal :=
  .next (s.spanOp q 0x21 (fun e => plain ((e.o.a + e.o.b) % 2 ^ 32)))

/-- VISUB (R185, Tables job-4 to job-6): the element takes A − B modulo 2^32. -/
def execVisub (q : QIx) (s : State) : Host.Outcome State Fault Refusal :=
  .next (s.spanOp q 0x22 (fun e => plain (uNat 32 ((e.o.a : Int) - e.o.b))))

/-- VIMUL (R185, Tables job-4 to job-6): the element takes the low 32 bits of A × B. -/
def execVimul (q : QIx) (s : State) : Host.Outcome State Fault Refusal :=
  .next (s.spanOp q 0x23 (fun e => plain (e.o.a * e.o.b % 2 ^ 32)))

/-- VAND (R185, Tables job-4 to job-6): the element takes A AND B. -/
def execSpanVand (q : QIx) (s : State) : Host.Outcome State Fault Refusal :=
  .next (s.spanOp q 0x24 (fun e => plain (e.o.a &&& e.o.b)))

/-- VOR (R185, Tables job-4 to job-6): the element takes A OR B. -/
def execSpanVor (q : QIx) (s : State) : Host.Outcome State Fault Refusal :=
  .next (s.spanOp q 0x25 (fun e => plain (e.o.a ||| e.o.b)))

/-- VXOR (R185, Tables job-4 to job-6): the element takes A XOR B. -/
def execSpanVxor (q : QIx) (s : State) : Host.Outcome State Fault Refusal :=
  .next (s.spanOp q 0x26 (fun e => plain (e.o.a ^^^ e.o.b)))

/-- VSHL (R185, Tables job-4 to job-6): the element takes A << B[4:0]. -/
def execVshl (q : QIx) (s : State) : Host.Outcome State Fault Refusal :=
  .next (s.spanOp q 0x27 (fun e => plain (e.o.a * 2 ^ (e.o.b % 32) % 2 ^ 32)))

/-- VSHR (R185, Tables job-4 to job-6): the element takes A >> B[4:0], arithmetic for i32. -/
def execVshr (q : QIx) (s : State) : Host.Outcome State Fault Refusal :=
  .next (s.spanOp q 0x28 (fun e => spShr e.i.ct e.o))

/-- VMIN (R185, Tables job-4 to job-6): the element takes the minimum of A and B by CT. -/
def execSpanVmin (q : QIx) (s : State) : Host.Outcome State Fault Refusal :=
  .next (s.spanOp q 0x29 (fun e => spMinMax false e.c e.i.ct e.o))

/-- VMAX (R185, Tables job-4 to job-6): the element takes the maximum of A and B by CT. -/
def execSpanVmax (q : QIx) (s : State) : Host.Outcome State Fault Refusal :=
  .next (s.spanOp q 0x2A (fun e => spMinMax true e.c e.i.ct e.o))

/-- VABS (R185, Tables job-4 to job-6): the element takes the absolute value of A, saturating for i32. -/
def execSpanVabs (q : QIx) (s : State) : Host.Outcome State Fault Refusal :=
  .next (s.spanOp q 0x2B (fun e => spSign false e.c e.i.ct e.o))

/-- VNEG (R185, Tables job-4 to job-6): the element takes the negation of A, saturating for i32. -/
def execSpanVneg (q : QIx) (s : State) : Host.Outcome State Fault Refusal :=
  .next (s.spanOp q 0x2C (fun e => spSign true e.c e.i.ct e.o))

/-- VCMP (R185, Tables job-4 to job-6): the element takes 1 where A P B holds, P in MOD[1:0]. -/
def execVcmp (q : QIx) (s : State) : Host.Outcome State Fault Refusal :=
  .next (s.spanOp q 0x2D (fun e => spCmp (e.i.md % 4) e.c e.i.ct e.o))

/-- VSEL (R185, Tables job-4 to job-6): the element takes A where C is not 0, else B. -/
def execSpanVsel (q : QIx) (s : State) : Host.Outcome State Fault Refusal :=
  .next (s.spanOp q 0x2E (fun e => plain (if e.o.c % 2 ^ 32 ≠ 0 then e.o.a else e.o.b)))

/-- VCVT (R185, Tables job-4 to job-6): the element takes A converted to type TT, toward zero when Z (R186). -/
def execSpanVcvt (q : QIx) (s : State) : Host.Outcome State Fault Refusal :=
  .next (s.spanOp q 0x2F (fun e => spCvt e.i.tt (e.i.md / 16 % 2 == 1) e.rm e.ftz e.i.ct e.o))

/-- VIOTA (R185, Tables job-4 to job-6): the element takes the element index. -/
def execViota (q : QIx) (s : State) : Host.Outcome State Fault Refusal :=
  .next (s.spanOp q 0x30 (fun e => plain (e.el % 2 ^ 32)))

/-- VLUT (R185, Tables job-4 to job-6): the element takes y[A], or the end of the table. -/
def execVlut (q : QIx) (s : State) : Host.Outcome State Fault Refusal :=
  .next (s.spanOp q 0x41 (fun e => match e.xlu with | some t => t.lut e.o.a | none => plain 0))

/-- VTLI (Table job-6): TLI of a binary32 A, or TLIH of an i32 A; a look-up whose value the spec leaves open takes a free value. -/
def execVtli (q : QIx) (s : State) : Host.Outcome State Fault Refusal :=
  .next ((s.takeFree.2).spanOp q 0x40 (fun e => match e.xlu with | some t => t.tli e.c e.o.a e.free | none => plain 0))

/-- VRSUM (R189, Table job-7): the sum of each segment; the element joins its segment, and the last stores its result. -/
def execVrsum (q : QIx) (s : State) : Host.Outcome State Fault Refusal :=
  .next (s.spanRed q 0x50)

/-- VRMIN (R189, Table job-7): the minimum of each segment; the element joins its segment, and the last stores its result. -/
def execVrmin (q : QIx) (s : State) : Host.Outcome State Fault Refusal :=
  .next (s.spanRed q 0x51)

/-- VRMAX (R189, Table job-7): the maximum of each segment; the element joins its segment, and the last stores its result. -/
def execVrmax (q : QIx) (s : State) : Host.Outcome State Fault Refusal :=
  .next (s.spanRed q 0x52)

/-- VRMINI (R189, Table job-7): the offset of the first minimum of each segment; the element joins its segment, and the last stores its result. -/
def execVrmini (q : QIx) (s : State) : Host.Outcome State Fault Refusal :=
  .next (s.spanRed q 0x53)

/-- VRMAXI (R189, Table job-7): the offset of the first maximum of each segment; the element joins its segment, and the last stores its result. -/
def execVrmaxi (q : QIx) (s : State) : Host.Outcome State Fault Refusal :=
  .next (s.spanRed q 0x54)

end Sys2Proof.Machine
end

