-- ==== Sys2Proof/Machine/Dispatch.lean ====
section
/-!
DEFINITION. One arm per command: a direct call of its meaning.
-/

namespace Sys2Proof.Machine

def exec (i : Instr) (s : State) : Host.Outcome State Fault Refusal :=
  match i with
  | .vbatReset => Sys2Proof.Machine.execVbatReset s
  | .por jumperLow pwrfailLow => Sys2Proof.Machine.execPor jumperLow pwrfailLow s
  | .sysReset c => Sys2Proof.Machine.execSysReset c s
  | .porNAssert c => Sys2Proof.Machine.execPorNAssert c s
  | .registerWrite src a v => Sys2Proof.Machine.execRegisterWrite src a v s
  | .rcRead src a => Sys2Proof.Machine.execRcRead src a s
  | .add th rd rs rt => Sys2Proof.Machine.execAdd th rd rs rt s
  | .sub th rd rs rt => Sys2Proof.Machine.execSub th rd rs rt s
  | .and th rd rs rt => Sys2Proof.Machine.execAnd th rd rs rt s
  | .or th rd rs rt => Sys2Proof.Machine.execOr th rd rs rt s
  | .xor th rd rs rt => Sys2Proof.Machine.execXor th rd rs rt s
  | .nor th rd rs rt => Sys2Proof.Machine.execNor th rd rs rt s
  | .slt th rd rs rt => Sys2Proof.Machine.execSlt th rd rs rt s
  | .sltu th rd rs rt => Sys2Proof.Machine.execSltu th rd rs rt s
  | .sll th rd rs rt => Sys2Proof.Machine.execSll th rd rs rt s
  | .srl th rd rs rt => Sys2Proof.Machine.execSrl th rd rs rt s
  | .sra th rd rs rt => Sys2Proof.Machine.execSra th rd rs rt s
  | .slli th rd rs sh => Sys2Proof.Machine.execSlli th rd rs sh s
  | .srli th rd rs sh => Sys2Proof.Machine.execSrli th rd rs sh s
  | .srai th rd rs sh => Sys2Proof.Machine.execSrai th rd rs sh s
  | .min th rd rs rt => Sys2Proof.Machine.execMin th rd rs rt s
  | .max th rd rs rt => Sys2Proof.Machine.execMax th rd rs rt s
  | .minu th rd rs rt => Sys2Proof.Machine.execMinu th rd rs rt s
  | .maxu th rd rs rt => Sys2Proof.Machine.execMaxu th rd rs rt s
  | .addsat th rd rs rt => Sys2Proof.Machine.execAddsat th rd rs rt s
  | .subsat th rd rs rt => Sys2Proof.Machine.execSubsat th rd rs rt s
  | .clz th rd rs => Sys2Proof.Machine.execClz th rd rs s
  | .popc th rd rs => Sys2Proof.Machine.execPopc th rd rs s
  | .sextb th rd rs => Sys2Proof.Machine.execSextb th rd rs s
  | .sexth th rd rs => Sys2Proof.Machine.execSexth th rd rs s
  | .zexth th rd rs => Sys2Proof.Machine.execZexth th rd rs s
  | .addi th rd rs imm => Sys2Proof.Machine.execAddi th rd rs imm s
  | .andi th rd rs imm => Sys2Proof.Machine.execAndi th rd rs imm s
  | .ori th rd rs imm => Sys2Proof.Machine.execOri th rd rs imm s
  | .xori th rd rs imm => Sys2Proof.Machine.execXori th rd rs imm s
  | .slti th rd rs imm => Sys2Proof.Machine.execSlti th rd rs imm s
  | .sltiu th rd rs imm => Sys2Proof.Machine.execSltiu th rd rs imm s
  | .lui th rd imm => Sys2Proof.Machine.execLui th rd imm s
  | .beq th ra rb off => Sys2Proof.Machine.execBeq th ra rb off s
  | .bne th ra rb off => Sys2Proof.Machine.execBne th ra rb off s
  | .blt th ra rb off => Sys2Proof.Machine.execBlt th ra rb off s
  | .bge th ra rb off => Sys2Proof.Machine.execBge th ra rb off s
  | .bltu th ra rb off => Sys2Proof.Machine.execBltu th ra rb off s
  | .bgeu th ra rb off => Sys2Proof.Machine.execBgeu th ra rb off s
  | .j th off => Sys2Proof.Machine.execJ th off s
  | .jal th off => Sys2Proof.Machine.execJal th off s
  | .jalr th rd rs => Sys2Proof.Machine.execJalr th rd rs s
  | .ld th rd rb sz u pi disp => Sys2Proof.Machine.execLd th rd rb sz u pi disp s
  | .st th rd rb sz pi disp => Sys2Proof.Machine.execSt th rd rb sz pi disp s
  | .fld th rd rb sz pi disp => Sys2Proof.Machine.execFld th rd rb sz pi disp s
  | .fst th rd rb sz pi disp => Sys2Proof.Machine.execFst th rd rb sz pi disp s
  | .mld th rd rb sz off => Sys2Proof.Machine.execMld th rd rb sz off s
  | .mst th rd rb sz off => Sys2Proof.Machine.execMst th rd rb sz off s
  | .iload th rd rs => Sys2Proof.Machine.execIload th rd rs s
  | .inIo th rd rs imm => Sys2Proof.Machine.execInIo th rd rs imm s
  | .outIo th rd rs imm => Sys2Proof.Machine.execOutIo th rd rs imm s
  | .mul th rs rt => Sys2Proof.Machine.execMul th rs rt s
  | .mulu th rs rt => Sys2Proof.Machine.execMulu th rs rt s
  | .mac th rs rt => Sys2Proof.Machine.execMac th rs rt s
  | .macu th rs rt => Sys2Proof.Machine.execMacu th rs rt s
  | .div th rd rs rt => Sys2Proof.Machine.execDiv th rd rs rt s
  | .divu th rd rs rt => Sys2Proof.Machine.execDivu th rd rs rt s
  | .rem th rd rs rt => Sys2Proof.Machine.execRem th rd rs rt s
  | .remu th rd rs rt => Sys2Proof.Machine.execRemu th rd rs rt s
  | .mfpl th rd => Sys2Proof.Machine.execMfpl th rd s
  | .mfph th rd => Sys2Proof.Machine.execMfph th rd s
  | .mtpl th rs => Sys2Proof.Machine.execMtpl th rs s
  | .mtph th rs => Sys2Proof.Machine.execMtph th rs s
  | .gate th k => Sys2Proof.Machine.execGate th k s
  | .gret th => Sys2Proof.Machine.execGret th s
  | .wait th rd => Sys2Proof.Machine.execWait th rd s
  | .mfs th rd sr => Sys2Proof.Machine.execMfs th rd sr s
  | .mts th sr rs => Sys2Proof.Machine.execMts th sr rs s
  | .brk th code => Sys2Proof.Machine.execBrk th code s
  | .rpt th rs rsrc cntm1 => Sys2Proof.Machine.execRpt th rs rsrc cntm1 s
  | .rpti th rs rsrc cntm1 => Sys2Proof.Machine.execRpti th rs rsrc cntm1 s
  | .tli th rd rs rt => Sys2Proof.Machine.execTli th rd rs rt s
  | .tlih th rd rs rt => Sys2Proof.Machine.execTlih th rd rs rt s
  | .tlinv th => Sys2Proof.Machine.execTlinv th s
  | .fadd th z rd rs rt => Sys2Proof.Machine.execFadd th z rd rs rt s
  | .fsub th z rd rs rt => Sys2Proof.Machine.execFsub th z rd rs rt s
  | .fmul th z rd rs rt => Sys2Proof.Machine.execFmul th z rd rs rt s
  | .fdiv th z rd rs rt => Sys2Proof.Machine.execFdiv th z rd rs rt s
  | .fsqrt th z rd rs => Sys2Proof.Machine.execFsqrt th z rd rs s
  | .fmin th z rd rs rt => Sys2Proof.Machine.execFmin th z rd rs rt s
  | .fmax th z rd rs rt => Sys2Proof.Machine.execFmax th z rd rs rt s
  | .fabs th z rd rs => Sys2Proof.Machine.execFabs th z rd rs s
  | .fneg th z rd rs => Sys2Proof.Machine.execFneg th z rd rs s
  | .fsgnj th z rd rs rt => Sys2Proof.Machine.execFsgnj th z rd rs rt s
  | .fma th z rd rs rt => Sys2Proof.Machine.execFma th z rd rs rt s
  | .fmsub th z rd rs rt => Sys2Proof.Machine.execFmsub th z rd rs rt s
  | .fnmsub th z rd rs rt => Sys2Proof.Machine.execFnmsub th z rd rs rt s
  | .fnmadd th z rd rs rt => Sys2Proof.Machine.execFnmadd th z rd rs rt s
  | .feq th z rd rs rt => Sys2Proof.Machine.execFeq th z rd rs rt s
  | .flt th z rd rs rt => Sys2Proof.Machine.execFlt th z rd rs rt s
  | .fle th z rd rs rt => Sys2Proof.Machine.execFle th z rd rs rt s
  | .fclass th z rd rs => Sys2Proof.Machine.execFclass th z rd rs s
  | .frnd th z rd rs => Sys2Proof.Machine.execFrnd th z rd rs s
  | .fcvtSD th rd rs => Sys2Proof.Machine.execFcvtSD th rd rs s
  | .fcvtDS th rd rs => Sys2Proof.Machine.execFcvtDS th rd rs s
  | .fcvtWS th rd rs => Sys2Proof.Machine.execFcvtWS th rd rs s
  | .fcvtWuS th rd rs => Sys2Proof.Machine.execFcvtWuS th rd rs s
  | .fcvtSW th rd rs => Sys2Proof.Machine.execFcvtSW th rd rs s
  | .fcvtSWu th rd rs => Sys2Proof.Machine.execFcvtSWu th rd rs s
  | .fcvtWD th rd rs => Sys2Proof.Machine.execFcvtWD th rd rs s
  | .fcvtWuD th rd rs => Sys2Proof.Machine.execFcvtWuD th rd rs s
  | .fcvtDW th rd rs => Sys2Proof.Machine.execFcvtDW th rd rs s
  | .fcvtDWu th rd rs => Sys2Proof.Machine.execFcvtDWu th rd rs s
  | .fcvtzWS th rd rs => Sys2Proof.Machine.execFcvtzWS th rd rs s
  | .fcvtzWuS th rd rs => Sys2Proof.Machine.execFcvtzWuS th rd rs s
  | .fcvtzWD th rd rs => Sys2Proof.Machine.execFcvtzWD th rd rs s
  | .fcvtzWuD th rd rs => Sys2Proof.Machine.execFcvtzWuD th rd rs s
  | .fmvXS th rd rs => Sys2Proof.Machine.execFmvXS th rd rs s
  | .fmvSX th rd rs => Sys2Proof.Machine.execFmvSX th rd rs s
  | .fmvXDh th rd rs => Sys2Proof.Machine.execFmvXDh th rd rs s
  | .fmvDX th rd rs rt => Sys2Proof.Machine.execFmvDX th rd rs rt s
  | .fmvD th rd rs => Sys2Proof.Machine.execFmvD th rd rs s
  | .fpbar th => Sys2Proof.Machine.execFpbar th s
  | .vadd th ty wd ws wt => Sys2Proof.Machine.execVadd th ty wd ws wt s
  | .vsub th ty wd ws wt => Sys2Proof.Machine.execVsub th ty wd ws wt s
  | .vmul th ty wd ws wt => Sys2Proof.Machine.execVmul th ty wd ws wt s
  | .vfma th ty wd ws wt => Sys2Proof.Machine.execVfma th ty wd ws wt s
  | .vmin th ty wd ws wt => Sys2Proof.Machine.execVmin th ty wd ws wt s
  | .vmax th ty wd ws wt => Sys2Proof.Machine.execVmax th ty wd ws wt s
  | .vabs th ty wd ws => Sys2Proof.Machine.execVabs th ty wd ws s
  | .vneg th ty wd ws => Sys2Proof.Machine.execVneg th ty wd ws s
  | .vceq th ty wd ws wt => Sys2Proof.Machine.execVceq th ty wd ws wt s
  | .vclt th ty wd ws wt => Sys2Proof.Machine.execVclt th ty wd ws wt s
  | .vcle th ty wd ws wt => Sys2Proof.Machine.execVcle th ty wd ws wt s
  | .vand th ty wd ws wt => Sys2Proof.Machine.execVand th ty wd ws wt s
  | .vor th ty wd ws wt => Sys2Proof.Machine.execVor th ty wd ws wt s
  | .vxor th ty wd ws wt => Sys2Proof.Machine.execVxor th ty wd ws wt s
  | .vsel th ty wd ws wt => Sys2Proof.Machine.execVsel th ty wd ws wt s
  | .vadds th ty wd ws wt => Sys2Proof.Machine.execVadds th ty wd ws wt s
  | .vsubs th ty wd ws wt => Sys2Proof.Machine.execVsubs th ty wd ws wt s
  | .vmulq th ty wd ws wt => Sys2Proof.Machine.execVmulq th ty wd ws wt s
  | .vsplat th ty wd rs => Sys2Proof.Machine.execVsplat th ty wd rs s
  | .vext th ty rd ws ln => Sys2Proof.Machine.execVext th ty rd ws ln s
  | .vins th ty wd rs ln => Sys2Proof.Machine.execVins th ty wd rs ln s
  | .vsum th ty rd ws => Sys2Proof.Machine.execVsum th ty rd ws s
  | .vcvtF32I16l th wd ws => Sys2Proof.Machine.execVcvtF32I16l th wd ws s
  | .vcvtF32I16h th wd ws => Sys2Proof.Machine.execVcvtF32I16h th wd ws s
  | .vcvtI16F32 th wd ws wt => Sys2Proof.Machine.execVcvtI16F32 th wd ws wt s
  | .vcvtF64F32l th wd ws => Sys2Proof.Machine.execVcvtF64F32l th wd ws s
  | .vcvtF64F32h th wd ws => Sys2Proof.Machine.execVcvtF64F32h th wd ws s
  | .vcvtF32F64 th wd ws wt => Sys2Proof.Machine.execVcvtF32F64 th wd ws wt s
  | .vcvtI16I8l th wd ws => Sys2Proof.Machine.execVcvtI16I8l th wd ws s
  | .vcvtI16I8h th wd ws => Sys2Proof.Machine.execVcvtI16I8h th wd ws s
  | .vcvtI8I16 th wd ws wt => Sys2Proof.Machine.execVcvtI8I16 th wd ws wt s
  | .wld th wd rb pi disp => Sys2Proof.Machine.execWld th wd rb pi disp s
  | .wst th wd rb pi disp => Sys2Proof.Machine.execWst th wd rb pi disp s
  | .wgath th ty wd ws rt => Sys2Proof.Machine.execWgath th ty wd ws rt s
  | .wscat th ty wd ws rt => Sys2Proof.Machine.execWscat th ty wd ws rt s
  | .exceptionEntry th => Sys2Proof.Machine.execExceptionEntry th s
  | .pierThrunWrite src p v => Sys2Proof.Machine.execPierThrunWrite src p v s
  | .threadStopped th => Sys2Proof.Machine.execThreadStopped th s
  | .pierThpcWrite src th v => Sys2Proof.Machine.execPierThpcWrite src th v s
  | .pierEvmaskWrite src th hi v => Sys2Proof.Machine.execPierEvmaskWrite src th hi v s
  | .inPacket id d => Sys2Proof.Machine.execInPacket id d s
  | .outPacket id d => Sys2Proof.Machine.execOutPacket id d s
  | .drd id d => Sys2Proof.Machine.execDrd id d s
  | .bulkWrite id d w => Sys2Proof.Machine.execBulkWrite id d w s
  | .rd id d w => Sys2Proof.Machine.execRd id d w s
  | .wrInline id d w => Sys2Proof.Machine.execWrInline id d w s
  | .readResponse id d => Sys2Proof.Machine.execReadResponse id d s
  | .writeAcknowledgement id d => Sys2Proof.Machine.execWriteAcknowledgement id d s
  | .errorResponse id d => Sys2Proof.Machine.execErrorResponse id d s
  | .event k d stop => Sys2Proof.Machine.execEvent k d stop s
  | .syscause k d stop => Sys2Proof.Machine.execSyscause k d stop s
  | .spanfault k d => Sys2Proof.Machine.execSpanfault k d s
  | .requestTimeout id => Sys2Proof.Machine.execRequestTimeout id s
  | .quiesceTimeout isl => Sys2Proof.Machine.execQuiesceTimeout isl s
  | .shellOffline isl ni => Sys2Proof.Machine.execShellOffline isl ni s
  | .viaRtSelWrite v => Sys2Proof.Machine.execViaRtSelWrite v s
  | .viaRtDataWrite v => Sys2Proof.Machine.execViaRtDataWrite v s
  | .groupStart q => Sys2Proof.Machine.execGroupStart q s
  | .elementLoadReturn q gi u k d b w => Sys2Proof.Machine.execElementLoadReturn q gi u k d b w s
  | .conflictCheck q gi u k => Sys2Proof.Machine.execConflictCheck q gi u k s
  | .replayReissue q gi => Sys2Proof.Machine.execReplayReissue q gi s
  | .storeAcknowledgement q d b w => Sys2Proof.Machine.execStoreAcknowledgement q d b w s
  | .jobFaultEnd q => Sys2Proof.Machine.execJobFaultEnd q s
  | .jobCompletion q raw => Sys2Proof.Machine.execJobCompletion q raw s
  | .spanVadd q => Sys2Proof.Machine.execSpanVadd q s
  | .spanVsub q => Sys2Proof.Machine.execSpanVsub q s
  | .spanVmul q => Sys2Proof.Machine.execSpanVmul q s
  | .spanVfma q => Sys2Proof.Machine.execSpanVfma q s
  | .vfms q => Sys2Proof.Machine.execVfms q s
  | .vfnma q => Sys2Proof.Machine.execVfnma q s
  | .vcmul q => Sys2Proof.Machine.execVcmul q s
  | .vbfly q => Sys2Proof.Machine.execVbfly q s
  | .vcabs2 q => Sys2Proof.Machine.execVcabs2 q s
  | .vmov q => Sys2Proof.Machine.execVmov q s
  | .viadd q => Sys2Proof.Machine.execViadd q s
  | .visub q => Sys2Proof.Machine.execVisub q s
  | .vimul q => Sys2Proof.Machine.execVimul q s
  | .spanVand q => Sys2Proof.Machine.execSpanVand q s
  | .spanVor q => Sys2Proof.Machine.execSpanVor q s
  | .spanVxor q => Sys2Proof.Machine.execSpanVxor q s
  | .vshl q => Sys2Proof.Machine.execVshl q s
  | .vshr q => Sys2Proof.Machine.execVshr q s
  | .spanVmin q => Sys2Proof.Machine.execSpanVmin q s
  | .spanVmax q => Sys2Proof.Machine.execSpanVmax q s
  | .spanVabs q => Sys2Proof.Machine.execSpanVabs q s
  | .spanVneg q => Sys2Proof.Machine.execSpanVneg q s
  | .vcmp q => Sys2Proof.Machine.execVcmp q s
  | .spanVsel q => Sys2Proof.Machine.execSpanVsel q s
  | .spanVcvt q => Sys2Proof.Machine.execSpanVcvt q s
  | .viota q => Sys2Proof.Machine.execViota q s
  | .vtli q => Sys2Proof.Machine.execVtli q s
  | .vlut q => Sys2Proof.Machine.execVlut q s
  | .vrsum q => Sys2Proof.Machine.execVrsum q s
  | .vrmin q => Sys2Proof.Machine.execVrmin q s
  | .vrmax q => Sys2Proof.Machine.execVrmax q s
  | .vrmini q => Sys2Proof.Machine.execVrmini q s
  | .vrmaxi q => Sys2Proof.Machine.execVrmaxi q s
  | .vend q => Sys2Proof.Machine.execVend q s
  | .spanCtlWrite q v => Sys2Proof.Machine.execSpanCtlWrite q v s
  | .jobSubmission src v => Sys2Proof.Machine.execJobSubmission src v s
  | .abortSlot src slot => Sys2Proof.Machine.execAbortSlot src slot s
  | .abortTag src tag => Sys2Proof.Machine.execAbortTag src tag s
  | .abortAll src => Sys2Proof.Machine.execAbortAll src s
  | .abortDrained q => Sys2Proof.Machine.execAbortDrained q s
  | .scrubWriteBack w => Sys2Proof.Machine.execScrubWriteBack w s
  | .deckInitStart q => Sys2Proof.Machine.execDeckInitStart q s
  | .deckInitDone q => Sys2Proof.Machine.execDeckInitDone q s
  | .deckEccInjWrite q v => Sys2Proof.Machine.execDeckEccInjWrite q v s
  | .dmaStart c stop prio => Sys2Proof.Machine.execDmaStart c stop prio s
  | .dmaStop c prio => Sys2Proof.Machine.execDmaStop c prio s
  | .dmaChDescWrite c v => Sys2Proof.Machine.execDmaChDescWrite c v s
  | .dmaStopDrained c => Sys2Proof.Machine.execDmaStopDrained c s
  | .gaugeClear g v => Sys2Proof.Machine.execGaugeClear g v s
  | .traceStart g v => Sys2Proof.Machine.execTraceStart g v s
  | .traceStop g v => Sys2Proof.Machine.execTraceStop g v s
  | .gaugePacketObserved g h mal => Sys2Proof.Machine.execGaugePacketObserved g h mal s
  | .gaugeTrigger g n head => Sys2Proof.Machine.execGaugeTrigger g n head s
  | .traceRecordAck g => Sys2Proof.Machine.execTraceRecordAck g s
  | .refclkMonitorWindow count => Sys2Proof.Machine.execRefclkMonitorWindow count s
  | .lockWindow pll count => Sys2Proof.Machine.execLockWindow pll count s
  | .iopllRelockTimeout => Sys2Proof.Machine.execIopllRelockTimeout s
  | .bandSearchStep count => Sys2Proof.Machine.execBandSearchStep count s
  | .hopRequest src op => Sys2Proof.Machine.execHopRequest src op s
  | .hopStart => Sys2Proof.Machine.execHopStart s
  | .memoClr v => Sys2Proof.Machine.execMemoClr v s
  | .spllOpcfgWrite src op v => Sys2Proof.Machine.execSpllOpcfgWrite src op v s
  | .spllSscWrite src v => Sys2Proof.Machine.execSpllSscWrite src v s
  | .sscApply => Sys2Proof.Machine.execSscApply s
  | .cpllCtlWrite v => Sys2Proof.Machine.execCpllCtlWrite v s
  | .islandReset src isl => Sys2Proof.Machine.execIslandReset src isl s
  | .islandGate src isl => Sys2Proof.Machine.execIslandGate src isl s
  | .islandOff src isl => Sys2Proof.Machine.execIslandOff src isl s
  | .islandRestart src isl => Sys2Proof.Machine.execIslandRestart src isl s
  | .islandActionEnd isl => Sys2Proof.Machine.execIslandActionEnd isl s
  | .islandDivWrite src isl v => Sys2Proof.Machine.execIslandDivWrite src isl v s
  | .thermalSample rs => Sys2Proof.Machine.execThermalSample rs s
  | .pmbusPoll cmd vout iout sword => Sys2Proof.Machine.execPmbusPoll cmd vout iout sword s
  | .ledgerTick base => Sys2Proof.Machine.execLedgerTick base s
  | .upstepTimeout => Sys2Proof.Machine.execUpstepTimeout s
  | .windowClose => Sys2Proof.Machine.execWindowClose s
  | .acctClose src v => Sys2Proof.Machine.execAcctClose src v s
  | .trimUpdate drawn => Sys2Proof.Machine.execTrimUpdate drawn s
  | .admission => Sys2Proof.Machine.execAdmission s
  | .tripClr src v => Sys2Proof.Machine.execTripClr src v s
  | .ldrOpVset src mv => Sys2Proof.Machine.execLdrOpVset src mv s
  | .flcRead src v => Sys2Proof.Machine.execFlcRead src v s
  | .flcAppend src v => Sys2Proof.Machine.execFlcAppend src v s
  | .flcJread src v => Sys2Proof.Machine.execFlcJread src v s
  | .flcProgram => Sys2Proof.Machine.execFlcProgram s
  | .flcErase => Sys2Proof.Machine.execFlcErase s
  | .dieOperationComplete o => Sys2Proof.Machine.execDieOperationComplete o s
  | .flcOperationTimeout => Sys2Proof.Machine.execFlcOperationTimeout s
  | .tailErase => Sys2Proof.Machine.execTailErase s
  | .bbtCopyRecord => Sys2Proof.Machine.execBbtCopyRecord s
  | .flcInit dieOk fails => Sys2Proof.Machine.execFlcInit dieOk fails s
  | .flcBufDataAccess src w => Sys2Proof.Machine.execFlcBufDataAccess src w s
  | .flcRdwaitWrite src v => Sys2Proof.Machine.execFlcRdwaitWrite src v s
  | .pwrfailAssert => Sys2Proof.Machine.execPwrfailAssert s
  | .pwrfailDeassert => Sys2Proof.Machine.execPwrfailDeassert s
  | .vaultRecordWrite => Sys2Proof.Machine.execVaultRecordWrite s
  | .opsecAdvance => Sys2Proof.Machine.execOpsecAdvance s
  | .rtcSlewWrite src v => Sys2Proof.Machine.execRtcSlewWrite src v s
  | .slewEnd => Sys2Proof.Machine.execSlewEnd s
  | .calendarStep src v => Sys2Proof.Machine.execCalendarStep src v s
  | .channelSample n => Sys2Proof.Machine.execChannelSample n s
  | .sampleResponse id d => Sys2Proof.Machine.execSampleResponse id d s
  | .recPush src n v => Sys2Proof.Machine.execRecPush src n v s
  | .channelConfigWrite src n k v => Sys2Proof.Machine.execChannelConfigWrite src n k v s
  | .flush => Sys2Proof.Machine.execFlush s
  | .recFlushNow src => Sys2Proof.Machine.execRecFlushNow src s
  | .historyClear src v => Sys2Proof.Machine.execHistoryClear src v s
  | .snapshotFire => Sys2Proof.Machine.execSnapshotFire s
  | .recSnapFire src mask => Sys2Proof.Machine.execRecSnapFire src mask s
  | .recorderAppend => Sys2Proof.Machine.execRecorderAppend s
  | .recHistSelWrite v => Sys2Proof.Machine.execRecHistSelWrite v s
  | .recChSelWrite v => Sys2Proof.Machine.execRecChSelWrite v s
  | .recOpsecLoRead => Sys2Proof.Machine.execRecOpsecLoRead s
  | .rtcSecRead => Sys2Proof.Machine.execRtcSecRead s
  | .vaultCheck flips => Sys2Proof.Machine.execVaultCheck flips s
  | .pressBegin => Sys2Proof.Machine.execPressBegin s
  | .pressEnd => Sys2Proof.Machine.execPressEnd s
  | .holdReached => Sys2Proof.Machine.execHoldReached s
  | .windowExpiry => Sys2Proof.Machine.execWindowExpiry s
  | .buttonArmed => Sys2Proof.Machine.execButtonArmed s
  | .btnStuck => Sys2Proof.Machine.execBtnStuck s
  | .sealSample level => Sys2Proof.Machine.execSealSample level s
  | .parCfgWrite src v => Sys2Proof.Machine.execParCfgWrite src v s
  | .slotSelection errs => Sys2Proof.Machine.execSlotSelection errs s
  | .verification errs => Sys2Proof.Machine.execVerification errs s
  | .overlayApply errs => Sys2Proof.Machine.execOverlayApply errs s
  | .roleInstantiation errs => Sys2Proof.Machine.execRoleInstantiation errs s
  | .routesWrite => Sys2Proof.Machine.execRoutesWrite s
  | .release => Sys2Proof.Machine.execRelease s
  | .bootConfirm src v => Sys2Proof.Machine.execBootConfirm src v s
  | .trialConfirm src v => Sys2Proof.Machine.execTrialConfirm src v s
  | .trialReject src v => Sys2Proof.Machine.execTrialReject src v s
  | .bootSysreset src v => Sys2Proof.Machine.execBootSysreset src v s
  | .wdtKeyWrite src v => Sys2Proof.Machine.execWdtKeyWrite src v s
  | .wdtStage1 => Sys2Proof.Machine.execWdtStage1 s
  | .wdtStage2 => Sys2Proof.Machine.execWdtStage2 s
  | .portStart src mask => Sys2Proof.Machine.execPortStart src mask s
  | .portStop src mask => Sys2Proof.Machine.execPortStop src mask s
  | .inputFrame p line bad period => Sys2Proof.Machine.execInputFrame p line bad period s
  | .outputFrame p bad period => Sys2Proof.Machine.execOutputFrame p bad period s
  | .followerClockLoss p => Sys2Proof.Machine.execFollowerClockLoss p s
  | .calibrationStart src p mask log2n => Sys2Proof.Machine.execCalibrationStart src p mask log2n s
  | .calibrationSettled => Sys2Proof.Machine.execCalibrationSettled s
  | .calibrationResult => Sys2Proof.Machine.execCalibrationResult s
  | .calibrationRestored => Sys2Proof.Machine.execCalibrationRestored s
  | .cvpOfsWrite src p k v => Sys2Proof.Machine.execCvpOfsWrite src p k v s
  | .abutmentTrip src => Sys2Proof.Machine.execAbutmentTrip src s
  | .sourceLatchSync => Sys2Proof.Machine.execSourceLatchSync s
  | .clockedMuteSource k => Sys2Proof.Machine.execClockedMuteSource k s
  | .abtRelease src v => Sys2Proof.Machine.execAbtRelease src v s
  | .frameReceive m f fcsOk full => Sys2Proof.Machine.execFrameReceive m f fcsOk full s
  | .arpRetry k => Sys2Proof.Machine.execArpRetry k s
  | .arpAge m ip => Sys2Proof.Machine.execArpAge m ip s
  | .txDiscard m => Sys2Proof.Machine.execTxDiscard m s
  | .phyPoll m r1 r4 r5 r9 r10 => Sys2Proof.Machine.execPhyPoll m r1 r4 r5 r9 r10 s
  | .mdioCmd src v => Sys2Proof.Machine.execMdioCmd src v s
  | .mdioComplete data => Sys2Proof.Machine.execMdioComplete data s
  | .dhcpRetransmit m => Sys2Proof.Machine.execDhcpRetransmit m s
  | .dhcpT1 m => Sys2Proof.Machine.execDhcpT1 m s
  | .dhcpT2 m => Sys2Proof.Machine.execDhcpT2 m s
  | .leaseExpiry m => Sys2Proof.Machine.execLeaseExpiry m s
  | .hello => Sys2Proof.Machine.execHello s
  | .bye => Sys2Proof.Machine.execBye s
  | .presenceStatus => Sys2Proof.Machine.execPresenceStatus s
  | .close => Sys2Proof.Machine.execClose s
  | .readIo cut => Sys2Proof.Machine.execReadIo cut s
  | .writeIo cut => Sys2Proof.Machine.execWriteIo cut s
  | .readHist => Sys2Proof.Machine.execReadHist s
  | .readExtremes => Sys2Proof.Machine.execReadExtremes s
  | .readLog => Sys2Proof.Machine.execReadLog s
  | .streamOpen => Sys2Proof.Machine.execStreamOpen s
  | .streamClose => Sys2Proof.Machine.execStreamClose s
  | .setTime => Sys2Proof.Machine.execSetTime s
  | .updateBegin => Sys2Proof.Machine.execUpdateBegin s
  | .updateData => Sys2Proof.Machine.execUpdateData s
  | .updateCommit => Sys2Proof.Machine.execUpdateCommit s
  | .reset => Sys2Proof.Machine.execReset s
  | .fobexResetDelay => Sys2Proof.Machine.execFobexResetDelay s
  | .sessionAgeout k => Sys2Proof.Machine.execSessionAgeout k s
  | .laneStartTimeout k => Sys2Proof.Machine.execLaneStartTimeout k s
  | .fsvStreamDataWrite src n v => Sys2Proof.Machine.execFsvStreamDataWrite src n v s
  | .streamPush src n v => Sys2Proof.Machine.execStreamPush src n v s
  | .streamMaxage n => Sys2Proof.Machine.execStreamMaxage n s
  | .ethFrxDataRead src => Sys2Proof.Machine.execEthFrxDataRead src s
  | .ethFrxPop src v => Sys2Proof.Machine.execEthFrxPop src v s
  | .ethFtxDataWrite src v => Sys2Proof.Machine.execEthFtxDataWrite src v s
  | .ethFtxSend src v => Sys2Proof.Machine.execEthFtxSend src v s
  | .panelEnable src v => Sys2Proof.Machine.execPanelEnable src v s
  | .panelScan counts => Sys2Proof.Machine.execPanelScan counts s
  | .saveRef src v => Sys2Proof.Machine.execSaveRef src v s
  | .rebase src mask v => Sys2Proof.Machine.execRebase src mask v s
  | .gpioOset b v => Sys2Proof.Machine.execGpioOset b v s
  | .gpioOclr b v => Sys2Proof.Machine.execGpioOclr b v s
  | .gpioEdge b k level => Sys2Proof.Machine.execGpioEdge b k level s
  | .pwmPeriodBoundary c => Sys2Proof.Machine.execPwmPeriodBoundary c s
  | .pwmCfgWrite c v => Sys2Proof.Machine.execPwmCfgWrite c v s
  | .uartTxd u b => Sys2Proof.Machine.execUartTxd u b s
  | .uartReceive u b stopOk parOk low => Sys2Proof.Machine.execUartReceive u b stopOk parOk low s
  | .uartRxdRead u => Sys2Proof.Machine.execUartRxdRead u s
  | .i2cCmd m v => Sys2Proof.Machine.execI2cCmd m v s
  | .i2cTransferEnd m r n got => Sys2Proof.Machine.execI2cTransferEnd m r n got s
  | .i2cData m b => Sys2Proof.Machine.execI2cData m b s
  | .spiCmd m v => Sys2Proof.Machine.execSpiCmd m v s
  | .spiTransferEnd m got => Sys2Proof.Machine.execSpiTransferEnd m got s
  | .spiData m b => Sys2Proof.Machine.execSpiData m b s
  | .trigIn level => Sys2Proof.Machine.execTrigIn level s
  | .trigPulse v => Sys2Proof.Machine.execTrigPulse v s
  | .pulseEnd => Sys2Proof.Machine.execPulseEnd s
  | .extest sel => Sys2Proof.Machine.execExtest sel s
  | .dbgaccIoRead a => Sys2Proof.Machine.execDbgaccIoRead a s
  | .dbgaccIoWrite a v => Sys2Proof.Machine.execDbgaccIoWrite a v s
  | .dbgaccRegRead th r => Sys2Proof.Machine.execDbgaccRegRead th r s
  | .dbgaccRegWrite th r v => Sys2Proof.Machine.execDbgaccRegWrite th r v s
  | .abutmentSourceClear src => Sys2Proof.Machine.execAbutmentSourceClear src s
  | .vaultWriteComplete ok => Sys2Proof.Machine.execVaultWriteComplete ok s
  | .uartCharacterSent u => Sys2Proof.Machine.execUartCharacterSent u s
  | .frameTransmitEnd m => Sys2Proof.Machine.execFrameTransmitEnd m s
  | .pauseExpiry m => Sys2Proof.Machine.execPauseExpiry m s
  | .sequencerVoutTimeout => Sys2Proof.Machine.execSequencerVoutTimeout s

end Sys2Proof.Machine
end

