-- ==== Sys2Proof/Machine/Tick.lean ====
section
/-!
DEFINITION. One microsecond of the AON tick (R21), which passes while no command waits (DESIGN CHOICE, log 1): the counts that show time move on. What
happens when a count ends is a command of its own.

Choices and readings of this file: log 1, 60, 96, 114.
-/

namespace Sys2Proof.Machine

/-- A microsecond of the crystal (R354, R355): at a tick of 1/32,768 s calendar time moves on, with one tick more or less in 64 during a
slew. -/
def State.tickRtc (s : State) : State :=
  let r := s.rtc
  let ph := r.phase + 32768
  if ph < 1000000 then { s with rtc := { r with phase := ph } }
  else
    let turn := r.slew ≠ 0 ∧ 63 ≤ r.sub
    let n := if turn then (if 0 < r.slew then 2 else 0) else 1
    { s with rtc :=
      { r with
        phase := ph - 1000000, cal := (r.cal + n) % 2 ^ 47, sub := if turn ∨ r.slew = 0 then 0 else r.sub + 1,
        slew := if turn then (if 0 < r.slew then r.slew - 1 else r.slew + 1) else r.slew } }

/-- A register that counts down, kept at 0. -/
def State.countDown (s : State) (f : Fd) : State := s.wf f (s.rf f - 1)

/-- WDT_LEFT counts milliseconds while the watchdog is not held (R416). -/
def State.tickWdt (s : State) : State :=
  if s.on Reg.WDT_STATUS.HELD then s
  else if s.boot.wdtUs + 1 < 1000 then { s with boot := { s.boot with wdtUs := s.boot.wdtUs + 1 } }
  else ({ s with boot := { s.boot with wdtUs := 0 } }).countDown Reg.WDT_LEFT.MS

/-- PAR_WIN_LEFT counts the seconds of an OPEN window (R381). -/
def State.tickWin (s : State) : State :=
  if s.rf Reg.PAR_STATUS.WIN ≠ 2 then s
  else if s.par.winUs + 1 < 1000000 then { s with par := { s.par with winUs := s.par.winUs + 1 } }
  else ({ s with par := { s.par with winUs := 0 } }).countDown Reg.PAR_WIN_LEFT.SEC

/-- A second of a lease that ends; ETH_DHCP.LEFT shows what is left, saturating (R475). -/
def State.tickLease (s : State) (m : Nat) : State :=
  if s.leaseFinite m && decide (3 ≤ s.rf (Reg.ETH_DHCP.STATE m)) then
    let n := (s.mac m).dhcp.left - 1
    (s.onDhcp m (fun d => { d with left := n })).wf (Reg.ETH_DHCP.LEFT m) (min 0xFFFFFF n)
  else s

/-- A microsecond of the AON domain out of reset; the AON cycles in which its commands took place are over (R385). -/
def State.tickAon (s : State) : State :=
  let s := (s.tickWdt).tickWin
  let quiet := if s.srcLive ≠ 0 then 0 else s.quietUs + 1
  let s := { s with us := s.us + 1, quietUs := quiet, boot := { s.boot with us := s.boot.us + 1 } }
  let s := s.onPar (fun p => { p with was := s.win, closed := none })
  let s := if s.pwrLow then s.onRec (fun r => { r with pwrUs := r.pwrUs + 1 }) else s
  if s.us % 1000000 = 0 then (s.tickLease 0).tickLease 1 else s

/-- A microsecond: the RTC always counts, the AON domain while it is out of reset. -/
def State.tick (s : State) : State :=
  let s := s.tickRtc
  if s.held.por || s.held.aon then s else s.tickAon

end Sys2Proof.Machine
end

