-- ==== Sys2Proof/Safety.lean ====
section
/-!
DEFINITION. What counts as a safe run: a step answers a next state, neither a fault nor a refusal.
-/

namespace Sys2Proof.Machine

/-- A step that goes on. -/
def State.safe (s : State) : Prop := ∃ t, step s = .next t

end Sys2Proof.Machine
end

