-- ==== Sys2Proof/WellFormed.lean ====
section
/-!
DEFINITION. Commands whose operands the spec lets the outside supply: an instruction word the encodings of spec/03 and spec/04 give a
meaning, and an event with as many values as the unit it names delivers. A command that is not well-formed still has a meaning (an
illegal word raises ILLEGAL, R85); claims name this predicate where they need it.
-/

namespace Sys2Proof

open Machine

/-- A scalar load or store: SZ names a width of the form, and a post-increment load does not name its base (R76, R77). -/
def ldOk (sz : BitVec 2) (pi : Bool) (rd rb : RegIx) : Bool := sz != 3 && !(pi && rd == rb)
/-- A width of the F forms: 4 or 8 bytes, SZ 2 or 3 (R77, R78). -/
def wideOk (sz : BitVec 2) : Bool := decide (2 ≤ sz.toNat)
/-- A type VFMA takes (Table fp-1). -/
def fpTy : VTy → Bool
  | .f32 => true
  | .f64 => true
  | _ => false

/-- Lanes of a type. -/
def laneCount : VTy → Nat
  | .f32 => 8
  | .f64 => 4
  | .i16 => 16
  | .i8 => 32

/-- Bit errors of pages: a page of the die, and at most one count for each of its codewords (R323). -/
def errsOk (errs : List (Nat × List Nat)) : Bool := errs.all (fun e => decide (e.1 < 2 ^ 19) && decide (e.2.length ≤ 4))

/-- Whether a command is well-formed. Every operand that is not named here is bounded by its type. -/
def Instr.wf : Instr → Bool
  | .sysReset c => c != .por
  | .ld _ d b sz _ pi _ => ldOk sz pi d b
  | .st _ _ _ sz _ _ => sz != 3
  | .fld _ _ _ sz _ _ => wideOk sz
  | .fst _ _ _ sz _ _ => wideOk sz
  | .mld _ _ _ sz _ => wideOk sz
  | .mst _ _ _ sz _ => wideOk sz
  | .mfs _ _ sr => decide (sr.toNat ≤ 9)
  | .mts _ sr _ => decide (1 ≤ sr.toNat) && decide (sr.toNat ≤ 9)
  | .rpt _ _ rsrc cnt => !(rsrc && cnt != 0)
  | .rpti _ _ rsrc cnt => !(rsrc && cnt != 0)
  | .vfma _ ty _ _ _ => fpTy ty
  | .vadds _ ty _ _ _ => !fpTy ty
  | .vsubs _ ty _ _ _ => !fpTy ty
  | .vmulq _ ty _ _ _ => ty == .i16
  | .vext _ ty _ _ ln => decide (ln.toNat < laneCount ty)
  | .vins _ ty _ _ ln => decide (ln.toNat < laneCount ty)
  | .panelScan cs => cs.length == 12 && cs.all (fun c => decide (c < 2 ^ 16))
  | .islandReset _ i => decide (i.val < 30)
  | .islandGate _ i => decide (i.val < 30)
  | .islandOff _ i => decide (i.val < 30)
  | .islandRestart _ i => decide (i.val < 30)
  | .inputFrame _ line _ _ => decide (line.length ≤ 257)
  | .frameReceive _ f _ _ => decide (f.length < 2 ^ 16)
  | .slotSelection errs => errsOk errs
  | .verification errs => errsOk errs
  | .overlayApply errs => errsOk errs
  | .roleInstantiation errs => errsOk errs
  | .dieOperationComplete o => decide (o.tries.length ≤ 8) && o.tries.all (fun e => decide (e.length ≤ 4))
  | .trimUpdate drawn => decide (drawn.length ≤ 4)
  | _ => true

end Sys2Proof
end

