-- ==== Sys2Proof/Certificates/Slice0/Obligations.lean ====
section
/-!
DEFINITION. The statements for the provers: each names the rule of spec/ or the table it formalises. The definitions of namespace
Sys2Proof.Claims are the words the statements share.
-/

namespace Sys2Proof.Claims
open Sys2Proof Sys2Proof.Machine

/-! ## Words for the piers -/

/-- Nothing stands before the next instruction of thread `th`: its pier is clocked, it runs with no access, stop or repeat in progress,
no deferred or floating-point cause waits, its PC is in I-space, and no asynchronous cause is due (R64, R88, R116, R136). -/
structure Runs (s : State) (th : Thr) : Prop where
  clocked : s.clocked th.pier.val = true
  running : (s.thr th).run = .running
  noAccess : (s.thr th).acc = none
  noStop : (s.thr th).stopReq = false
  noRepeat : (s.thr th).rep = none
  noTpend : (s.thr th).tpend = 0
  noDeferred : (s.thr th).defErrs = []
  fetchable : (s.thr th).pc.toNat ≤ 0x1FFFC
  noAsync : s.asyncDue th = none

/-- A thread as an instruction that retires leaves it before its own results: PC at `npc`, the product of a multiply directly before
now visible (R51), a single step due (R148), no longer where GRET led (R90). -/
def retired (o : Thread) (npc : Word) : Thread :=
  { o with
    pc := npc, pl := o.pendL.getD o.pl, ph := o.pendH.getD o.ph, pendL := none, pendH := none,
    stepDue := if o.ss then some o.pc else o.stepDue, viaGret := false }

/-- The device but for thread `th` and the registers of its pier that count: nothing else changes, one instruction and `n` cycles are
counted (R58). -/
def OnlyThread (s t : State) (th : Thr) (n : Nat) : Prop :=
  t = { s with threads := t.threads, io := t.io } ∧ (∀ u, u ≠ th → t.thr u = s.thr u) ∧
  (∀ a, a ≠ Reg.PIER_RETIRED_at th.pier.val → a ≠ Reg.PIER_CYCLES_at th.pier.val → t.reg a = s.reg a) ∧
  t.rf (Reg.PIER_RETIRED.COUNT th.pier.val) = (s.rf (Reg.PIER_RETIRED.COUNT th.pier.val) + 1) % 2 ^ 32 ∧
  t.rf (Reg.PIER_CYCLES.COUNT th.pier.val) = (s.rf (Reg.PIER_CYCLES.COUNT th.pier.val) + n) % 2 ^ 32

/-- Gd takes `v`, every other G register keeps its value; G0 stays 0 (R63, R72). -/
def GWritten (o n : Thread) (rd : RegIx) (v : Word) : Prop :=
  ∀ r, n.rg r = if r = rd ∧ r ≠ 0 then v else o.rg r

/-- Fd takes `v`, every other F register keeps its value. -/
def FWritten (o n : Thread) (rd : RegIx) (v : DWord) : Prop := ∀ r, n.rf r = if r = rd then v else o.rf r

/-- Wd takes `v`, every other W register keeps its value. -/
def WWritten (o n : Thread) (wd : WIx) (v : WVec) : Prop := ∀ r, n.rw r = if r = wd then v else o.rw r

/-- The command completes at thread `th`, next PC `npc`, in `n` cycles, with Gd ← `v` and nothing else. -/
def WritesG (i : Instr) (s : State) (th : Thr) (rd : RegIx) (v npc : Word) (n : Nat) : Prop :=
  ∃ t, exec i s = .next t ∧ OnlyThread s t th n ∧ GWritten (s.thr th) (t.thr th) rd v ∧
    t.thr th = { retired (s.thr th) npc with g := (t.thr th).g }

/-- The command completes with Fd ← `v` and the flags `fl` raised (R115), and nothing else. -/
def WritesF (i : Instr) (s : State) (th : Thr) (rd : RegIx) (v : Nat) (fl n : Nat) : Prop :=
  ∃ t, exec i s = .next t ∧ OnlyThread s t th n ∧ FWritten (s.thr th) (t.thr th) rd (BitVec.ofNat 64 v) ∧
    t.thr th = { retired ((s.thr th).raiseFlags fl) ((s.thr th).pc + 4) with f := (t.thr th).f }

/-- The command completes with Gd ← `v` and the flags `fl` raised, and nothing else. -/
def WritesGF (i : Instr) (s : State) (th : Thr) (rd : RegIx) (v : Word) (fl n : Nat) : Prop :=
  ∃ t, exec i s = .next t ∧ OnlyThread s t th n ∧ GWritten (s.thr th) (t.thr th) rd v ∧
    t.thr th = { retired ((s.thr th).raiseFlags fl) ((s.thr th).pc + 4) with g := (t.thr th).g }

/-- The command completes with Wd ← `v` and the flags `fl` raised, and nothing else. -/
def WritesW (i : Instr) (s : State) (th : Thr) (wd : WIx) (v : WVec) (fl n : Nat) : Prop :=
  ∃ t, exec i s = .next t ∧ OnlyThread s t th n ∧ WWritten (s.thr th) (t.thr th) wd v ∧
    t.thr th = { retired ((s.thr th).raiseFlags fl) ((s.thr th).pc + 4) with w := (t.thr th).w }

/-- A truth as a word. -/
def truth (b : Prop) [Decidable b] : Word := if b then 1 else 0
/-- An integer held to the range of a signed word. -/
def clamp32 (i : Int) : Word := BitVec.ofInt 32 (max (-2147483648) (min 2147483647 i))

/-- Three-register forms of Table isa-4. -/
def aluRows : List ((Thr → RegIx → RegIx → RegIx → Instr) × (Word → Word → Word)) :=
  [(.add, fun a b => a + b), (.sub, fun a b => a - b), (.and, fun a b => a &&& b), (.or, fun a b => a ||| b),
   (.xor, fun a b => a ^^^ b), (.nor, fun a b => ~~~(a ||| b)),
   (.slt, fun a b => truth (a.toInt < b.toInt)), (.sltu, fun a b => truth (a.toNat < b.toNat)),
   (.sll, fun a b => BitVec.ofNat 32 (a.toNat * 2 ^ (b.toNat % 32))),
   (.srl, fun a b => BitVec.ofNat 32 (a.toNat / 2 ^ (b.toNat % 32))),
   (.sra, fun a b => BitVec.ofInt 32 (a.toInt / 2 ^ (b.toNat % 32))),
   (.min, fun a b => BitVec.ofInt 32 (Min.min a.toInt b.toInt)), (.max, fun a b => BitVec.ofInt 32 (Max.max a.toInt b.toInt)),
   (.minu, fun a b => BitVec.ofNat 32 (Min.min a.toNat b.toNat)), (.maxu, fun a b => BitVec.ofNat 32 (Max.max a.toNat b.toNat)),
   (.addsat, fun a b => clamp32 (a.toInt + b.toInt)), (.subsat, fun a b => clamp32 (a.toInt - b.toInt))]

/-- Two-register forms of Table isa-4. -/
def aluOneRows : List ((Thr → RegIx → RegIx → Instr) × (Word → Word)) :=
  [(.clz, fun a => BitVec.ofNat 32 ((List.range 32).countP (fun i => decide (a.toNat < 2 ^ i)))),
   (.popc, fun a => BitVec.ofNat 32 ((List.range 32).countP (fun i => a.toNat.testBit i))),
   (.sextb, fun a => (a.setWidth 8).signExtend 32), (.sexth, fun a => (a.setWidth 16).signExtend 32),
   (.zexth, fun a => BitVec.ofNat 32 (a.toNat % 65536))]

/-- Forms of Table isa-4 with imm16: ADDI, SLTI and SLTIU extend its sign, ANDI, ORI and XORI zero-extend it (R73). -/
def aluImmRows : List ((Thr → RegIx → RegIx → BitVec 16 → Instr) × (Word → BitVec 16 → Word)) :=
  [(.addi, fun a i => BitVec.ofInt 32 (a.toInt + i.toInt)), (.andi, fun a i => BitVec.ofNat 32 (a.toNat &&& i.toNat)),
   (.ori, fun a i => BitVec.ofNat 32 (a.toNat ||| i.toNat)), (.xori, fun a i => BitVec.ofNat 32 (a.toNat ^^^ i.toNat)),
   (.slti, fun a i => truth (a.toInt < i.toInt)), (.sltiu, fun a i => truth (a.toNat < (i.signExtend 32).toNat))]

/-- Shifts by an immediate of Table isa-4. -/
def shiftImmRows : List ((Thr → RegIx → RegIx → BitVec 5 → Instr) × (Word → Nat → Word)) :=
  [(.slli, fun a n => BitVec.ofNat 32 (a.toNat * 2 ^ n)), (.srli, fun a n => BitVec.ofNat 32 (a.toNat / 2 ^ n)),
   (.srai, fun a n => BitVec.ofInt 32 (a.toInt / 2 ^ n))]

/-- Conditional branches of Table isa-5. -/
def branchRows : List ((Thr → RegIx → RegIx → BitVec 16 → Instr) × (Word → Word → Bool)) :=
  [(.beq, fun a b => a == b), (.bne, fun a b => a != b), (.blt, fun a b => decide (a.toInt < b.toInt)),
   (.bge, fun a b => decide (b.toInt ≤ a.toInt)), (.bltu, fun a b => decide (a.toNat < b.toNat)),
   (.bgeu, fun a b => decide (b.toNat ≤ a.toNat))]

/-- A branch or jump that leaves every register as it is. -/
def Jumps (i : Instr) (s : State) (th : Thr) (npc : Word) : Prop :=
  ∃ t, exec i s = .next t ∧ OnlyThread s t th 1 ∧ t.thr th = retired (s.thr th) npc

/-- A cause taken in place of an instruction: the state after R129, the PC saved. -/
def Takes (i : Instr) (s : State) (th : Thr) (code sub : Nat) (einfo : Word) : Prop :=
  ∃ t, exec i s = .next t ∧ t.thr th = ((s.thr th).gretSeen.enter ⟨code, sub, false, einfo⟩ (s.thr th).pc
      (s.reg (Reg.PIER_ENTRY_at th.pier.val))) ∧
    t = { s with threads := t.threads } ∧ (∀ u, u ≠ th → t.thr u = s.thr u)

/-- The registers R129 writes: CAUSE, EPC, EINFO, the saved and the new mode bits, the stack of a Task thread, the PC at PIER_ENTRY. -/
structure Entered (o n : Thread) (code sub : Nat) (einfo epc entry : Word) : Prop where
  cause : n.cause = BitVec.ofNat 32 (code + 256 * sub)
  epc : n.epc = epc
  einfo : n.einfo = einfo
  saved : getBits n.tstat 4 1 = b2n o.kernel ∧ getBits n.tstat 5 1 = b2n o.ie ∧ getBits n.tstat 6 1 = b2n o.ss
  mode : n.kernel = true ∧ n.exl = true ∧ n.ie = false ∧ n.ss = false
  stack : if o.kernel then n.rg 30 = o.rg 30 ∧ n.usp = o.usp else n.rg 30 = o.ksp ∧ n.usp = o.rg 30
  others : ∀ r, r ≠ 30 → n.rg r = o.rg r
  pc : n.pc = entry

end Sys2Proof.Claims


open Sys2Proof Sys2Proof.Machine Sys2Proof.Claims

/-! ## The device as a block -/

/-- A step with a command waiting runs the command at the front of the queue with the queue's rest; with none waiting it is an idle
microsecond, which leaves the queue empty (log 1). -/
def Obligations.StepRunsFrontCommand : Prop :=
  (∀ (c : Instr) (rest : List Instr) (s : State), s.pending = c :: rest → step s = exec c { s with pending := rest }) ∧
  (∀ s : State, s.pending = [] → step s = .next s.tick)

/-- No command stops the device, whatever state it finds. -/
def Obligations.EveryCommandAnswersNextState : Prop := ∀ (c : Instr) (s : State), ∃ t, exec c s = .next t

/-! ## Piers: integer instructions (spec/03) -/

/-- Table isa-4: each integer instruction writes its result to Gd and changes nothing else but the PC and the counts; G0 discards. -/
def Obligations.IntegerInstructionsWriteGd : Prop :=
  ∀ (th : Thr) (rd rs rt : RegIx) (imm : BitVec 16) (sh : BitVec 5) (s : State), Runs s th →
    (∀ e ∈ aluRows, WritesG (e.1 th rd rs rt) s th rd (e.2 ((s.thr th).rg rs) ((s.thr th).rg rt)) ((s.thr th).pc + 4) 1) ∧
    (∀ e ∈ aluOneRows, WritesG (e.1 th rd rs) s th rd (e.2 ((s.thr th).rg rs)) ((s.thr th).pc + 4) 1) ∧
    (∀ e ∈ aluImmRows, WritesG (e.1 th rd rs imm) s th rd (e.2 ((s.thr th).rg rs) imm) ((s.thr th).pc + 4) 1) ∧
    (∀ e ∈ shiftImmRows, WritesG (e.1 th rd rs sh) s th rd (e.2 ((s.thr th).rg rs) sh.toNat) ((s.thr th).pc + 4) 1) ∧
    WritesG (.lui th rd imm) s th rd (BitVec.ofNat 32 (imm.toNat * 65536)) ((s.thr th).pc + 4) 1

/-- R75: a conditional branch, J, JAL and JALR set the PC to the target and write their link; a misaligned JALR raises ALIGN with
neither jump nor link. -/
def Obligations.BranchesAndJumpsSetPc : Prop :=
  ∀ (th : Thr) (ra rb rd rs : RegIx) (off : BitVec 16) (off26 : BitVec 26) (s : State), Runs s th →
    let o := s.thr th
    (∀ e ∈ branchRows, Jumps (e.1 th ra rb off) s th
      (if e.2 (o.rg ra) (o.rg rb) then BitVec.ofInt 32 (o.pc.toInt + 4 * off.toInt) else o.pc + 4)) ∧
    Jumps (.j th off26) s th (BitVec.ofInt 32 (o.pc.toInt + 4 * off26.toInt)) ∧
    WritesG (.jal th off26) s th 31 (o.pc + 4) (BitVec.ofInt 32 (o.pc.toInt + 4 * off26.toInt)) 1 ∧
    ((o.rg rs).toNat % 4 = 0 → WritesG (.jalr th rd rs) s th rd (o.pc + 4) (o.rg rs) 1) ∧
    ((o.rg rs).toNat % 4 ≠ 0 → o.exl = false → Takes (.jalr th rd rs) s th 0x03 0 (o.rg rs))

namespace Sys2Proof.Claims

/-- The multiplies of Table isa-7: the exact product, accumulated for MAC and MACU to the pair visible to the instruction. -/
def mulRows : List ((Thr → RegIx → RegIx → Instr) × (Word → Word → Int → Int)) :=
  [(.mul, fun a b _ => a.toInt * b.toInt), (.mulu, fun a b _ => a.toNat * b.toNat),
   (.mac, fun a b p => p + a.toInt * b.toInt), (.macu, fun a b p => p + a.toNat * b.toNat)]

/-- The divides of Table isa-7, with FN. -/
def divRows : List ((Thr → RegIx → RegIx → RegIx → Instr) × Nat × (Word → Word → Word)) :=
  [(.div, 0x8, fun a b => BitVec.ofInt 32 (a.toInt.tdiv b.toInt)), (.divu, 0x9, fun a b => BitVec.ofNat 32 (a.toNat / b.toNat)),
   (.rem, 0xA, fun a b => BitVec.ofInt 32 (a.toInt.tmod b.toInt)), (.remu, 0xB, fun a b => BitVec.ofNat 32 (a.toNat % b.toNat))]

end Sys2Proof.Claims

/-- R51, R81: a multiply leaves PL and PH as the next instruction may read them, and its 64-bit result pending for the one after;
MFPL and MFPH read, MTPL and MTPH write the visible halves. -/
def Sys2Proof.Claims.ProductVisibleAfterOneInstruction : Prop :=
  ∀ (th : Thr) (rd rs rt : RegIx) (s : State), Runs s th →
    let o := s.thr th
    let npc := o.pc + 4
    (∀ e ∈ mulRows, ∃ t, exec (e.1 th rs rt) s = .next t ∧ OnlyThread s t th 1 ∧
      t.thr th = { retired o npc with
        pendL := some (BitVec.ofInt 32 (e.2 (o.rg rs) (o.rg rt) (o.pl.toNat + o.ph.toNat * 2 ^ 32))),
        pendH := some (BitVec.ofInt 32 (e.2 (o.rg rs) (o.rg rt) (o.pl.toNat + o.ph.toNat * 2 ^ 32) / 2 ^ 32)) }) ∧
    WritesG (.mfpl th rd) s th rd o.pl npc 1 ∧ WritesG (.mfph th rd) s th rd o.ph npc 1 ∧
    (∃ t, exec (.mtpl th rs) s = .next t ∧ OnlyThread s t th 1 ∧ t.thr th = { retired o npc with pl := o.rg rs }) ∧
    (∃ t, exec (.mtph th rs) s = .next t ∧ OnlyThread s t th 1 ∧ t.thr th = { retired o npc with ph := o.rg rs })

/-- Table isa-7, R49, R50: a divide with a divisor other than 0 writes quotient or remainder after 20 cycles; with divisor 0 it raises
DIV_ZERO with no hold. -/
def Sys2Proof.Claims.DividesWriteGdOrRaiseDivZero : Prop :=
  ∀ (th : Thr) (rd rs rt : RegIx) (s : State), Runs s th → ∀ e ∈ divRows,
    ((s.thr th).rg rt ≠ 0 →
      WritesG (e.1 th rd rs rt) s th rd (e.2.2 ((s.thr th).rg rs) ((s.thr th).rg rt)) ((s.thr th).pc + 4) 20) ∧
    ((s.thr th).rg rt = 0 → (s.thr th).exl = false →
      Takes (e.1 th rd rs rt) s th 0x0D 0 (BitVec.ofNat 32 (8 * 2 ^ 26 + rd.val * 2 ^ 21 + rs.val * 2 ^ 16 + rt.val * 2 ^ 11 + e.2.1)))

/-- R51, R81: a multiply leaves PL and PH as the next instruction may read them, and its 64-bit result pending for the one after;
MFPL and MFPH read, MTPL and MTPH write the visible halves. Table isa-7, R49, R50: a divide with a divisor other than 0 writes quotient or remainder after 20 cycles; with divisor 0 it raises
DIV_ZERO with no hold. -/
def Obligations.MultiplyAndDivide : Prop :=
  Sys2Proof.Claims.ProductVisibleAfterOneInstruction ∧ Sys2Proof.Claims.DividesWriteGdOrRaiseDivZero

/-- R82: DIV of −2^31 by −1 yields −2^31 and REM of the same yields 0, without an exception; a divisor of 0 raises DIV_ZERO and Gd is
unchanged. -/
def Obligations.DivideCorners : Prop :=
  ∀ (th : Thr) (rd rs rt : RegIx) (s : State), Runs s th →
    ((s.thr th).rg rs = 0x80000000 → (s.thr th).rg rt = 0xFFFFFFFF →
      WritesG (.div th rd rs rt) s th rd 0x80000000 ((s.thr th).pc + 4) 20 ∧
      WritesG (.rem th rd rs rt) s th rd 0 ((s.thr th).pc + 4) 20) ∧
    ((s.thr th).rg rt = 0 → (s.thr th).exl = false → (rd ≠ 30 ∨ (s.thr th).kernel = true) → ∀ e ∈ divRows, ∃ t, exec (e.1 th rd rs rt) s = .next t ∧
      (t.thr th).cause = 0x0D ∧ (t.thr th).rg rd = (s.thr th).rg rd)

/-! ## Piers: floating point (spec/04) -/

namespace Sys2Proof.Claims

/-- An operand of format `z`: all 64 bits of the F register, or its bits [31:0] (R100). -/
def fval (o : Thread) (z : FSz) (r : RegIx) : Nat :=
  match z with | .s => (o.rf r).toNat % 2 ^ 32 | .d => (o.rf r).toNat

/-- Cycles of a long operation, .S and .D (Table pier-4). -/
def long (s d : Nat) (z : FSz) : Nat := match z with | .s => s | .d => d

/-- Table fp-3: the operation on Fs, Ft and Fd, and its pier cycles. -/
def fpRows : List ((Thr → FSz → RegIx → RegIx → RegIx → Instr) × (FSz → Nat) × (FCtx → Nat → Nat → Nat → Fr)) :=
  [(.fadd, fun _ => 1, fun c a b _ => c.add false a b), (.fsub, fun _ => 1, fun c a b _ => c.add true a b),
   (.fmul, fun _ => 1, fun c a b _ => c.mul a b), (.fdiv, long 14 28, fun c a b _ => c.div a b),
   (.fmin, fun _ => 1, fun c a b _ => c.minMax false a b), (.fmax, fun _ => 1, fun c a b _ => c.minMax true a b),
   (.fsgnj, fun _ => 1, fun c a b _ => ⟨(if c.f.neg b then c.f.signW else 0) + c.f.mag a, 0⟩),
   (.fma, fun _ => 1, fun c a b d => c.fma false false a b d), (.fmsub, fun _ => 1, fun c a b d => c.fma false true a b d),
   (.fnmsub, fun _ => 1, fun c a b d => c.fma true false a b d), (.fnmadd, fun _ => 1, fun c a b d => c.fma true true a b d),
   (fun th z rd rs _ => .fsqrt th z rd rs, long 16 30, fun c a _ _ => c.sqrt a),
   (fun th z rd rs _ => .fabs th z rd rs, fun _ => 1, fun c a _ _ => ⟨c.f.mag a, 0⟩),
   (fun th z rd rs _ => .fneg th z rd rs, fun _ => 1, fun c a _ _ => ⟨(if c.f.neg a then 0 else c.f.signW) + c.f.mag a, 0⟩),
   (fun th z rd rs _ => .frnd th z rd rs, fun _ => 1, fun c a _ _ => c.rnd a)]

/-- Compares of Table fp-4. -/
def fcmpRows : List ((Thr → FSz → RegIx → RegIx → RegIx → Instr) × FCmp) := [(.feq, .eq), (.flt, .lt), (.fle, .le)]

/-- Conversions to a 32-bit integer: format, whether toward zero, range. -/
def toIntRows : List ((Thr → RegIx → RegIx → Instr) × FSz × Bool × Int × Int) :=
  [(.fcvtWS, .s, false, -2147483648, 2147483647), (.fcvtWuS, .s, false, 0, 4294967295),
   (.fcvtWD, .d, false, -2147483648, 2147483647), (.fcvtWuD, .d, false, 0, 4294967295),
   (.fcvtzWS, .s, true, -2147483648, 2147483647), (.fcvtzWuS, .s, true, 0, 4294967295),
   (.fcvtzWD, .d, true, -2147483648, 2147483647), (.fcvtzWuD, .d, true, 0, 4294967295)]

/-- Conversions from a 32-bit integer. -/
def ofIntRows : List ((Thr → RegIx → RegIx → Instr) × FSz × (Word → Int)) :=
  [(.fcvtSW, .s, fun a => a.toInt), (.fcvtSWu, .s, fun a => a.toNat), (.fcvtDW, .d, fun a => a.toInt),
   (.fcvtDWu, .d, fun a => a.toNat)]

end Sys2Proof.Claims

/-- Table fp-3, R100, R115: each scalar operation writes its rounded result to Fd, raises its flags and changes nothing else. -/
def Sys2Proof.Claims.FloatArithmeticWritesFd : Prop :=
  ∀ (th : Thr) (z : FSz) (rd rs rt : RegIx) (s : State), Runs s th → ∀ e ∈ fpRows,
    let o := s.thr th
    let r := e.2.2 (o.fctx z.fmt) (fval o z rs) (fval o z rt) (fval o z rd)
    WritesF (e.1 th z rd rs rt) s th rd r.bits r.flags (e.2.1 z)

/-- Tables fp-4 and fp-5, R106, R111, R112, R118: compares, classes, conversions, moves and FPBAR. -/
def Sys2Proof.Claims.FloatComparesConversionsAndMoves : Prop :=
  ∀ (th : Thr) (z : FSz) (rd rs rt : RegIx) (s : State), Runs s th →
    let o := s.thr th
    let npc := o.pc + 4
    (∀ e ∈ fcmpRows, let r := (o.fctx z.fmt).cmp e.2 (fval o z rs) (fval o z rt)
      WritesGF (e.1 th z rd rs rt) s th rd (if r.1 then 1 else 0) r.2 1) ∧
    WritesGF (.fclass th z rd rs) s th rd (BitVec.ofNat 32 (z.fmt.fclass (fval o z rs))) 0 1 ∧
    (∀ e ∈ toIntRows, let c := o.fctx e.2.1.fmt
      let r := FCtx.toInt { c with rm := if e.2.2.1 then 1 else c.rm } e.2.2.2.1 e.2.2.2.2 (fval o e.2.1 rs)
      WritesGF (e.1 th rd rs) s th rd (BitVec.ofInt 32 r.1) r.2 1) ∧
    (∀ e ∈ ofIntRows, let r := (o.fctx e.2.1.fmt).ofInt (e.2.2 (o.rg rs))
      WritesF (e.1 th rd rs) s th rd r.bits r.flags 1) ∧
    (let r := cvtSD (o.fctx b64).rm (o.fctx b64).ftz (fval o .d rs); WritesF (.fcvtSD th rd rs) s th rd r.bits r.flags 1) ∧
    (let r := cvtDS (o.fctx b32).ftz (fval o .s rs); WritesF (.fcvtDS th rd rs) s th rd r.bits r.flags 1) ∧
    WritesG (.fmvXS th rd rs) s th rd (BitVec.ofNat 32 (o.rf rs).toNat) npc 1 ∧
    WritesG (.fmvXDh th rd rs) s th rd (BitVec.ofNat 32 ((o.rf rs).toNat / 2 ^ 32)) npc 1 ∧
    WritesF (.fmvSX th rd rs) s th rd (o.rg rs).toNat 0 1 ∧
    WritesF (.fmvDX th rd rs rt) s th rd ((o.rg rs).toNat + (o.rg rt).toNat * 2 ^ 32) 0 1 ∧
    WritesF (.fmvD th rd rs) s th rd (o.rf rs).toNat 0 1 ∧
    Jumps (.fpbar th) s th npc

/-- Table fp-3, R100, R115: each scalar operation writes its rounded result to Fd, raises its flags and changes nothing else. Tables fp-4 and fp-5, R106, R111, R112, R118: compares, classes, conversions, moves and FPBAR. -/
def Obligations.FloatInstructionsWriteResults : Prop :=
  Sys2Proof.Claims.FloatArithmeticWritesFd ∧ Sys2Proof.Claims.FloatComparesConversionsAndMoves

namespace Sys2Proof.Claims

/-- The value of a finite bit pattern. -/
def Fmt.rat (f : Fmt) (b : Nat) : Rat :=
  (if f.neg b then -1 else 1) * ((f.dy b).m : Rat) * (2 : Rat) ^ (f.dy b).e
/-- The value of an exact number ±m × 2^e. -/
def dyRat (x : Dy) : Rat := (if x.neg then -1 else 1) * (x.m : Rat) * (2 : Rat) ^ x.e
/-- A finite bit pattern of the format. -/
def Fmt.finite (f : Fmt) (b : Nat) : Prop := b < 2 ^ f.width ∧ f.mag b < f.infP

end Sys2Proof.Claims

/-- R106: a result that does not overflow is the value of the format that the direction selects: no finite value lies nearer (RM 0), it
does not exceed the exact value's magnitude (RM 1), does not lie above it (RM 2) or below it (RM 3), and none lies between; NX is raised
exactly where it differs. -/
def Obligations.RoundingFollowsDirection : Prop :=
  ∀ (f : Fmt) (rm : Nat) (x : Dy), (f = b32 ∨ f = b64) → rm < 4 → x.m ≠ 0 →
    let r := FCtx.round ⟨f, rm, false⟩ x
    let v := Claims.Fmt.rat f r.bits
    r.flags &&& fOF = 0 → Claims.Fmt.finite f r.bits ∧
      (rm = 0 → ∀ b, Claims.Fmt.finite f b → |dyRat x - v| ≤ |dyRat x - Claims.Fmt.rat f b|) ∧
      (rm = 1 → |v| ≤ |dyRat x|) ∧ (rm = 2 → v ≤ dyRat x) ∧ (rm = 3 → dyRat x ≤ v) ∧
      (∀ b, Claims.Fmt.finite f b → let u := Claims.Fmt.rat f b
        ¬ ((v < u ∧ u < dyRat x) ∨ (dyRat x < u ∧ u < v) ∨ (v ≠ dyRat x ∧ u = dyRat x))) ∧
      (r.flags &&& fNX = fNX ↔ v ≠ dyRat x)


/-! ## Piers: short vectors (spec/04) -/

namespace Sys2Proof.Claims

/-- A signed number of `w` bits. -/
def lint (w n : Nat) : Int := (BitVec.ofNat w n).toInt
/-- A signed saturation to `w` bits. -/
def lsat (w : Nat) (i : Int) : Int := max (-2 ^ (w - 1)) (min (2 ^ (w - 1) - 1) i)
/-- The floating-point result of a lane of a compare: all ones or zeros. -/
def laneMask (w : Nat) (r : Bool × Nat) : Fr := ⟨if r.1 then 2 ^ w - 1 else 0, r.2⟩

/-- Table fp-6, lane operations: the types for which the word is legal; on floating-point lanes of Ws, Wt, Wd; on integer lanes of Ws
and Wt, kept to the lane's width. -/
def laneRows : List ((Thr → VTy → WIx → WIx → WIx → Instr) × (VTy → Bool) × (FCtx → Nat → Nat → Nat → Nat → Fr) ×
    (Nat → Int → Int → Int)) :=
  [(.vadd, fun _ => true, fun c _ a b _ => c.add false a b, fun _ a b => a + b),
   (.vsub, fun _ => true, fun c _ a b _ => c.add true a b, fun _ a b => a - b),
   (.vmul, fun _ => true, fun c _ a b _ => c.mul a b, fun _ a b => a * b),
   (.vfma, VTy.isF, fun c _ a b d => c.fma false false a b d, fun _ _ _ => 0),
   (.vmin, fun _ => true, fun c _ a b _ => c.minMax false a b, fun _ a b => min a b),
   (.vmax, fun _ => true, fun c _ a b _ => c.minMax true a b, fun _ a b => max a b),
   (fun th ty wd ws _ => .vabs th ty wd ws, fun _ => true, fun c _ a _ _ => c.signOp (fun _ => false) a, fun w a _ => lsat w |a|),
   (fun th ty wd ws _ => .vneg th ty wd ws, fun _ => true, fun c _ a _ _ => c.signOp (fun n => !n) a, fun w a _ => lsat w (-a)),
   (.vceq, fun _ => true, fun c w a b _ => laneMask w (c.cmp .eq a b), fun _ a b => if a = b then -1 else 0),
   (.vclt, fun _ => true, fun c w a b _ => laneMask w (c.cmp .lt a b), fun _ a b => if a < b then -1 else 0),
   (.vcle, fun _ => true, fun c w a b _ => laneMask w (c.cmp .le a b), fun _ a b => if a ≤ b then -1 else 0),
   (.vadds, fun ty => !ty.isF, fun _ _ _ _ _ => ⟨0, 0⟩, fun w a b => lsat w (a + b)),
   (.vsubs, fun ty => !ty.isF, fun _ _ _ _ _ => ⟨0, 0⟩, fun w a b => lsat w (a - b)),
   (.vmulq, fun ty => ty == .i16, fun _ _ _ _ _ => ⟨0, 0⟩, fun _ a b => lsat 16 ((a * b + 16384) / 32768))]

/-- The result and flags of lane `j` under a row of `laneRows`. -/
def laneOut (o : Thread) (ty : VTy) (wd ws wt : WIx) (ff : FCtx → Nat → Nat → Nat → Nat → Fr) (fi : Nat → Int → Int → Int)
    (j : Nat) : Fr :=
  let a := lane (o.rw ws) ty.w j
  let b := lane (o.rw wt) ty.w j
  if ty.isF then ff (o.fctx ty.fmt) ty.w a b (lane (o.rw wd) ty.w j)
  else ⟨(BitVec.ofInt ty.w (fi ty.w (lint ty.w a) (lint ty.w b))).toNat, 0⟩

/-- Table fp-6, operations over 256 bits, on Wd, Ws and Wt. -/
def wideRows : List ((Thr → VTy → WIx → WIx → WIx → Instr) × (WVec → WVec → WVec → WVec)) :=
  [(.vand, fun _ a b => a &&& b), (.vor, fun _ a b => a ||| b), (.vxor, fun _ a b => a ^^^ b),
   (.vsel, fun d a b => (d &&& a) ||| (~~~d &&& b))]

/-- Table fp-7, conversions: lane widths of result and source, first source lane, whether lanes go on in Wt, one lane converted. -/
def laneCvtRows : List ((Thr → WIx → WIx → WIx → Instr) × Nat × Nat × Nat × Bool × (Thread → Nat → Fr)) :=
  [(fun th wd ws _ => .vcvtF32I16l th wd ws, 32, 16, 0, false, fun _ v => FCtx.ofInt ⟨b32, 0, false⟩ (lint 16 v)),
   (fun th wd ws _ => .vcvtF32I16h th wd ws, 32, 16, 8, false, fun _ v => FCtx.ofInt ⟨b32, 0, false⟩ (lint 16 v)),
   (.vcvtI16F32, 16, 32, 0, true,
     fun o v => let r := (o.fctx b32).toInt (-32768) 32767 v; ⟨(BitVec.ofInt 16 r.1).toNat, r.2⟩),
   (fun th wd ws _ => .vcvtF64F32l th wd ws, 64, 32, 0, false, fun o v => cvtDS (o.fctx b32).ftz v),
   (fun th wd ws _ => .vcvtF64F32h th wd ws, 64, 32, 4, false, fun o v => cvtDS (o.fctx b32).ftz v),
   (.vcvtF32F64, 32, 64, 0, true, fun o v => cvtSD (o.fctx b64).rm (o.fctx b64).ftz v),
   (fun th wd ws _ => .vcvtI16I8l th wd ws, 16, 8, 0, false, fun _ v => ⟨(BitVec.ofInt 16 (lint 8 v)).toNat, 0⟩),
   (fun th wd ws _ => .vcvtI16I8h th wd ws, 16, 8, 16, false, fun _ v => ⟨(BitVec.ofInt 16 (lint 8 v)).toNat, 0⟩),
   (.vcvtI8I16, 8, 16, 0, true, fun _ v => ⟨(BitVec.ofInt 8 (lsat 8 (lint 16 v))).toNat, 0⟩)]

/-- Source lane `j` of a conversion. -/
def cvtLane (o : Thread) (ws wt : WIx) (wIn first : Nat) (both : Bool) (j : Nat) : Nat :=
  let n := 256 / wIn
  if both && decide (n ≤ j) then lane (o.rw wt) wIn (j - n) else lane (o.rw ws) wIn (first + j)

/-- The command completes with the lanes of Wd, `w` bits wide, as given, with the flags of every lane raised (R115), and nothing else. -/
def WritesLanes (i : Instr) (s : State) (th : Thr) (wd : WIx) (w : Nat) (f : Nat → Fr) : Prop :=
  ∃ v : WVec, (∀ j, j < 256 / w → lane v w j = (f j).bits % 2 ^ w) ∧
    WritesW i s th wd v (((List.range (256 / w)).map (fun j => (f j).flags)).foldl (· ||| ·) 0) 1

/-- The word of an operation of OP 0x23 or 0x24 (Table isa-1, format A). -/
def wordA (op rd rs rt fn : Nat) : Word := BitVec.ofNat 32 (op * 2 ^ 26 + rd * 2 ^ 21 + rs * 2 ^ 16 + rt * 2 ^ 11 + fn)

end Sys2Proof.Claims

/-- Table fp-6, R101, R107, R109, R111, R115: each lane of Wd takes the operation on the same lanes of Ws and Wt; the bitwise forms act on
all 256 bits. -/
def Sys2Proof.Claims.VectorOperationsWriteLanes : Prop :=
  ∀ (th : Thr) (ty : VTy) (wd ws wt : WIx) (s : State), Runs s th →
    (∀ e ∈ laneRows, e.2.1 ty = true →
      WritesLanes (e.1 th ty wd ws wt) s th wd ty.w (laneOut (s.thr th) ty wd ws wt e.2.2.1 e.2.2.2)) ∧
    (∀ e ∈ wideRows, WritesW (e.1 th ty wd ws wt) s th wd (e.2 ((s.thr th).rw wd) ((s.thr th).rw ws) ((s.thr th).rw wt)) 0 1) ∧
    (∀ e ∈ laneCvtRows, WritesLanes (e.1 th wd ws wt) s th wd e.2.1
      (fun j => e.2.2.2.2.2 (s.thr th) (cvtLane (s.thr th) ws wt e.2.2.1 e.2.2.2.1 e.2.2.2.2.1 j)))

/-- Table fp-7, R101, R113: VSPLAT, VEXT, VINS and VSUM; F registers serve the floating-point types, G registers the integer ones. -/
def Sys2Proof.Claims.VectorMovesAndSums : Prop :=
  ∀ (th : Thr) (ty : VTy) (wd ws : WIx) (rd rs : RegIx) (ln : BitVec 5) (s : State), Runs s th →
    let o := s.thr th
    let v := if ty.isF then (o.rf rs).toNat else (o.rg rs).toNat
    let l := lane (o.rw ws) ty.w ln.toNat
    let ls := (List.range ty.lanes).map (fun j => lint ty.w (lane (o.rw ws) ty.w j))
    WritesLanes (.vsplat th ty wd rs) s th wd ty.w (fun _ => ⟨v, 0⟩) ∧
    (ln.toNat < ty.lanes →
      (if ty.isF then WritesF (.vext th ty rd ws ln) s th rd l 0 1
       else WritesG (.vext th ty rd ws ln) s th rd (BitVec.ofInt 32 (lint ty.w l)) (o.pc + 4) 1) ∧
      WritesLanes (.vins th ty wd rs ln) s th wd ty.w (fun j => ⟨if j = ln.toNat then v else lane (o.rw wd) ty.w j, 0⟩)) ∧
    (ty.isF = false → WritesG (.vsum th ty rd ws) s th rd (BitVec.ofInt 32 ls.sum) (o.pc + 4) 1) ∧
    (ty = .f64 →
      let c := o.fctx b64
      let x := c.add false (lane (o.rw ws) 64 0) (lane (o.rw ws) 64 1)
      let y := c.add false (lane (o.rw ws) 64 2) (lane (o.rw ws) 64 3)
      let r := c.add false x.bits y.bits
      WritesF (.vsum th ty rd ws) s th rd r.bits (x.flags ||| y.flags ||| r.flags) 1)

/-- R102, R104, Table fp-6, Table fp-7: a form not assigned to a type, or a lane number beyond the lanes, raises ILLEGAL with the word. -/
def Sys2Proof.Claims.VectorFormsIllegal : Prop :=
  ∀ (th : Thr) (ty : VTy) (wd ws wt : WIx) (rd rs : RegIx) (ln : BitVec 5) (s : State), Runs s th → (s.thr th).exl = false →
    (ty.isF = false →
      Takes (.vfma th ty wd ws wt) s th 1 0 (wordA 0x23 wd.val ws.val wt.val (8 * 0x03 + ty.code))) ∧
    (ty.isF = true →
      Takes (.vadds th ty wd ws wt) s th 1 0 (wordA 0x23 wd.val ws.val wt.val (8 * 0x0F + ty.code)) ∧
      Takes (.vsubs th ty wd ws wt) s th 1 0 (wordA 0x23 wd.val ws.val wt.val (8 * 0x10 + ty.code))) ∧
    (ty ≠ .i16 → Takes (.vmulq th ty wd ws wt) s th 1 0 (wordA 0x23 wd.val ws.val wt.val (8 * 0x11 + ty.code))) ∧
    (ty.lanes ≤ ln.toNat →
      Takes (.vext th ty rd ws ln) s th 1 0 (wordA 0x24 rd.val ws.val ln.toNat (8 + ty.code)) ∧
      Takes (.vins th ty wd rs ln) s th 1 0 (wordA 0x24 wd.val rs.val ln.toNat (16 + ty.code)))

/-- Table fp-6, R101, R107, R109, R111, R115: each lane of Wd takes the operation on the same lanes of Ws and Wt; the bitwise forms act on
all 256 bits. Table fp-7, R101, R113: VSPLAT, VEXT, VINS and VSUM; F registers serve the floating-point types, G registers the integer ones. R102, R104, Table fp-6, Table fp-7: a form not assigned to a type, or a lane number beyond the lanes, raises ILLEGAL with the word. -/
def Obligations.VectorInstructionsWriteResults : Prop :=
  Sys2Proof.Claims.VectorOperationsWriteLanes ∧ Sys2Proof.Claims.VectorMovesAndSums ∧ Sys2Proof.Claims.VectorFormsIllegal

/-! ## Piers: D-space (spec/02, spec/03) -/

namespace Sys2Proof.Claims

/-- A byte of a pier's scratchpad or mailbox by its D-space address (Table pier-5). -/
def localByte (s : State) (p a : Nat) : Byte :=
  if a < 0x10000 then SMap.get s.spad 0 (0x10000 * p + a) else SMap.get s.mbox 0 (0x1000 * p + (a - 0x10000))

/-- `n` bytes from D-space address `a`, little-endian (R6). -/
def localBytes (s : State) (p a n : Nat) : Nat := ((List.range n).map (fun k => (localByte s p (a + k)).toNat * 256 ^ k)).sum

/-- Every byte of every scratchpad and mailbox is as before, but for `n` bytes of `v` stored at `a` in pier `p`. -/
def LocalStored (s t : State) (p a n v : Nat) : Prop :=
  ∀ (p' : PierIx) (x : Nat), x < 0x11000 → localByte t p'.val x =
    if p'.val = p ∧ a ≤ x ∧ x < a + n then BitVec.ofNat 8 (v / 256 ^ (x - a)) else localByte s p'.val x

/-- The registers of a pier that a local access counts in: PIER_RETIRED, PIER_CYCLES, and PIER_SPLIT_CNT when it crosses a row (R57). -/
def CountsAccess (s t : State) (p n : Nat) (split : Bool) : Prop :=
  t.rf (Reg.PIER_RETIRED.COUNT p) = (s.rf (Reg.PIER_RETIRED.COUNT p) + 1) % 2 ^ 32 ∧
  t.rf (Reg.PIER_CYCLES.COUNT p) = (s.rf (Reg.PIER_CYCLES.COUNT p) + n) % 2 ^ 32 ∧
  t.rf (Reg.PIER_SPLIT_CNT.COUNT p) = min (2 ^ 32 - 1) (s.rf (Reg.PIER_SPLIT_CNT.COUNT p) + b2n split) ∧
  ∀ a, a ≠ Reg.PIER_RETIRED_at p → a ≠ Reg.PIER_CYCLES_at p → a ≠ Reg.PIER_SPLIT_CNT_at p → t.reg a = s.reg a

/-- A local access may proceed: in Kernel mode, or within a Task window (R127); its bytes in the scratchpad or the mailbox (R55, R56). -/
def LocalOk (s : State) (th : Thr) (a n : Nat) (store : Bool) : Prop :=
  ((s.thr th).kernel = true ∨ s.taskFault th.pier.val a n store = none) ∧ (a + n ≤ 0x10000 ∨ (0x10000 ≤ a ∧ a + n ≤ 0x11000))

/-- G registers after a load into G or an access to other registers with its post-increment (R76). -/
def gAfter (o : Thread) (dest : Option (RegIx × Word)) (rb : RegIx) (pi : Bool) (disp : BitVec 12) (r : RegIx) : Word :=
  if pi ∧ r = rb ∧ r ≠ 0 then o.rg rb + disp.signExtend 32
  else match dest with
    | some (rd, v) => if r = rd ∧ r ≠ 0 then v else o.rg r
    | none => o.rg r

/-- A load completes: registers as given, memory unchanged. -/
def Loads (i : Instr) (s : State) (th : Thr) (g : RegIx → Word) (f : RegIx → DWord) (w : WIx → WVec) (slots : Nat) (split : Bool) :
    Prop :=
  ∃ t, exec i s = .next t ∧ t = { s with threads := t.threads, io := t.io } ∧ (∀ u, u ≠ th → t.thr u = s.thr u) ∧
    CountsAccess s t th.pier.val slots split ∧ (∀ r, (t.thr th).rg r = g r) ∧ (∀ r, (t.thr th).rf r = f r) ∧
    (∀ r, (t.thr th).rw r = w r) ∧
    t.thr th = { retired (s.thr th) ((s.thr th).pc + 4) with g := (t.thr th).g, f := (t.thr th).f, w := (t.thr th).w }

/-- A store completes: `n` bytes of `v` at `a`, the post-increment, nothing else. -/
def Stores (i : Instr) (s : State) (th : Thr) (a n v : Nat) (g : RegIx → Word) (slots : Nat) (split : Bool) : Prop :=
  ∃ t, exec i s = .next t ∧ t = { s with threads := t.threads, io := t.io, spad := t.spad, mbox := t.mbox } ∧
    (∀ u, u ≠ th → t.thr u = s.thr u) ∧ CountsAccess s t th.pier.val slots split ∧ (∀ r, (t.thr th).rg r = g r) ∧
    t.thr th = { retired (s.thr th) ((s.thr th).pc + 4) with g := (t.thr th).g } ∧ LocalStored s t th.pier.val a n v

/-- Bytes that cross an 8-byte row (R57). -/
def crosses (a n : Nat) : Bool := decide (8 < a % 8 + n)
/-- The effective address of format D (R76). -/
def eff (o : Thread) (rb : RegIx) (pi : Bool) (disp : BitVec 12) : Nat :=
  (if pi then o.rg rb else BitVec.ofInt 32 ((o.rg rb).toInt + disp.toInt)).toNat

end Sys2Proof.Claims

/-- R76, R77, R120: LD, FLD and WLD of scratchpad or mailbox bytes: the value to Gd, Fd or Wd, the post-increment to Gb, one or two slots
(four or five for WLD), no byte of memory changed. -/
def Sys2Proof.Claims.LocalLoadsWriteDestination : Prop :=
  ∀ (th : Thr) (rd rb : RegIx) (wd : WIx) (sz : BitVec 2) (u pi : Bool) (disp : BitVec 12) (s : State), Runs s th →
    let o := s.thr th
    let a := eff o rb pi disp
    let n := 2 ^ sz.toNat
    let v := localBytes s th.pier.val a n
    let slots := if crosses a n then 2 else 1
    (sz ≠ 3 → ¬ (pi = true ∧ rd = rb) → LocalOk s th a n false →
      Loads (.ld th rd rb sz u pi disp) s th
        (gAfter o (some (rd, if u then BitVec.ofNat 32 v else BitVec.ofInt 32 (lint (8 * n) v))) rb pi disp) o.rf o.rw slots
        (crosses a n)) ∧
    (2 ≤ sz.toNat → LocalOk s th a n false →
      Loads (.fld th rd rb sz pi disp) s th (gAfter o none rb pi disp) (fun r => if r = rd then BitVec.ofNat 64 v else o.rf r) o.rw slots
        (crosses a n)) ∧
    (LocalOk s th a 32 false →
      Loads (.wld th wd rb pi disp) s th (gAfter o none rb pi disp) o.rf
        (fun r => if r = wd then BitVec.ofNat 256 (localBytes s th.pier.val a 32) else o.rw r) (if a % 8 = 0 then 4 else 5) false)

/-- R76, R77, R120: ST, FST and WST to the scratchpad or mailbox store exactly their bytes, with the post-increment to Gb. -/
def Sys2Proof.Claims.LocalStoresWriteBytes : Prop :=
  ∀ (th : Thr) (rd rb : RegIx) (wd : WIx) (sz : BitVec 2) (pi : Bool) (disp : BitVec 12) (s : State), Runs s th →
    let o := s.thr th
    let a := eff o rb pi disp
    let n := 2 ^ sz.toNat
    let g := gAfter o none rb pi disp
    let slots := if crosses a n then 2 else 1
    (sz ≠ 3 → LocalOk s th a n true → Stores (.st th rd rb sz pi disp) s th a n (o.rg rd).toNat g slots (crosses a n)) ∧
    (2 ≤ sz.toNat → LocalOk s th a n true → Stores (.fst th rd rb sz pi disp) s th a n (o.rf rd).toNat g slots (crosses a n)) ∧
    (LocalOk s th a 32 true →
      Stores (.wst th wd rb pi disp) s th a 32 (o.rw wd).toNat g (if a % 8 = 0 then 4 else 5) false)

/-- R76, R77, R120: LD, FLD and WLD of scratchpad or mailbox bytes: the value to Gd, Fd or Wd, the post-increment to Gb, one or two slots
(four or five for WLD), no byte of memory changed. R76, R77, R120: ST, FST and WST to the scratchpad or mailbox store exactly their bytes, with the post-increment to Gb. -/
def Obligations.LocalAccessesReadAndWrite : Prop :=
  Sys2Proof.Claims.LocalLoadsWriteDestination ∧ Sys2Proof.Claims.LocalStoresWriteBytes

/-- R55, R56, R127, R136: a D-space access outside the mapped regions, or of a Task thread outside its windows, raises DSPACE_FAULT with
neither load nor store; a misaligned one on the Deck raises ALIGN. -/
def Sys2Proof.Claims.DspaceFaultsAreTaken : Prop :=
  ∀ (th : Thr) (rd rb : RegIx) (sz : BitVec 2) (u : Bool) (disp : BitVec 12) (s : State), Runs s th → (s.thr th).exl = false →
    sz ≠ 3 →
    let o := s.thr th
    let a := eff o rb false disp
    let n := 2 ^ sz.toNat
    (o.kernel = true → 0x11000 ≤ a → a < 0x10000000 →
      Takes (.ld th rd rb sz u false disp) s th 0x04 1 (BitVec.ofNat 32 a) ∧ Takes (.st th rd rb sz false disp) s th 0x04 1 (BitVec.ofNat 32 a)) ∧
    (o.kernel = true → a < 0x10000 → 0x10000 < a + n →
      Takes (.ld th rd rb sz u false disp) s th 0x04 1 0x10000 ∧ Takes (.st th rd rb sz false disp) s th 0x04 1 0x10000) ∧
    (o.kernel = true → 0x10000000 ≤ a → a + n ≤ 0x10000000 + s.grade.deckBytes → a % n ≠ 0 →
      Takes (.ld th rd rb sz u false disp) s th 0x03 0 (BitVec.ofNat 32 a) ∧ Takes (.st th rd rb sz false disp) s th 0x03 0 (BitVec.ofNat 32 a)) ∧
    (∀ (x : Nat), o.kernel = false → s.taskFault th.pier.val a n false = some x →
      Takes (.ld th rd rb sz u false disp) s th 0x04 2 (BitVec.ofNat 32 x))

namespace Sys2Proof.Claims

/-- The destination island of a request is on the grade. -/
def reaches (s : State) (op : NetOp) : Bool := match op.island with | some i => s.grade.hasIsland i | none => false

/-- Request `op` formed by the core of island `p` for `who` at NI `ni` on VC `vc` is the newest of the network's requests. It waits in the core's
output while the shell is not ONLINE or has no free tag (R248, R250); the shell answers it itself, OFFLINE for an absent island, ROUTE for an
invalid entry (R228, R237); else it is sent by the content of its entry, under a tag no other request of the shell holds, its packet on its
first link. Nothing else of the network changes; the two counts of Table via-13 count what the shell answered. -/
def Sends (s t : State) (p ni vc : Nat) (who : Who) (op : NetOp) : Prop :=
  let free := s.online p && s.tagFree ni p
  let goes := free && reaches s op && s.routeOk ni op.entry
  (∃ r, t.net.reqs = s.net.reqs ++ [r] ∧
    r.id = s.net.nextId ∧ r.who = who ∧ r.op = op ∧ r.ni = ni ∧ r.vc = vc ∧ r.isl = p ∧ r.gen = (s.shell p).gen ∧ r.held = !free ∧
    r.sent = goes ∧ r.stale = false ∧ r.lost = false ∧
    r.resp = (if free && !goes then some (.err (if reaches s op then .route else .offline)) else none) ∧
    (goes = true → r.route = s.route ni op.entry ∧ (s.tagHolders ni p).all (fun x => x.tag != r.tag) = true ∧
      t.net.fab.pkts = s.net.fab.pkts ++
        [⟨r.id, false, vc, r.len + 1, netPath s.grade op.lattice r.route ni p op.entry (op.island.getD 0), 0⟩])) ∧
  (goes = false → t.net.fab = s.net.fab) ∧
  t.net = { s.net with reqs := t.net.reqs, nextId := s.net.nextId + 1, fab := { s.net.fab with pkts := t.net.fab.pkts } } ∧
  t.rf Reg.VIA_OFFLINE_CNT.COUNT = min (2 ^ 32 - 1) (s.rf Reg.VIA_OFFLINE_CNT.COUNT + b2n (free && !reaches s op)) ∧
  t.rf Reg.VIA_ROUTE_ERR_CNT.COUNT = min (2 ^ 32 - 1) (s.rf Reg.VIA_ROUTE_ERR_CNT.COUNT + b2n (free && reaches s op && !goes))

/-- An access of R45 leaves the thread waiting for its response, the request formed, a cycle counted; no other register and no byte of memory
changes. -/
def Awaits (i : Instr) (s : State) (th : Thr) (ni : Nat) (acc : Access) (op : NetOp) : Prop :=
  ∃ t, exec i s = .next t ∧ t.thr th = { (s.thr th).gretSeen with acc := some acc } ∧ (∀ u, u ≠ th → t.thr u = s.thr u) ∧
    Sends s t th.pier.val ni 0 (.access th) op ∧ t = { s with threads := t.threads, io := t.io, net := t.net } ∧
    t.rf (Reg.PIER_CYCLES.COUNT th.pier.val) = (s.rf (Reg.PIER_CYCLES.COUNT th.pier.val) + 1) % 2 ^ 32 ∧
    ∀ a, a ∉ [Reg.PIER_CYCLES_at th.pier.val, Reg.VIA_OFFLINE_CNT_at, Reg.VIA_ROUTE_ERR_CNT_at] → t.reg a = s.reg a

/-- A Deck access of `n` bytes may issue (R55, R56, R127, R48): permitted, mapped, aligned, an NI entry free. -/
def DeckOk (s : State) (th : Thr) (a n : Nat) (store : Bool) : Prop :=
  ((s.thr th).kernel = true ∨ s.taskFault th.pier.val a n store = none) ∧ 0x10000000 ≤ a ∧ a + n ≤ 0x10000000 + s.grade.deckBytes ∧
    a % n = 0 ∧ s.niInUse th.pier.val < 40

end Sys2Proof.Claims

/-- R45, R46, R62, R78, R79: Deck loads, remote mailbox accesses and global IO accesses send one request and leave the thread waiting; a
Deck store is posted, counted against its thread, and retires at once. -/
def Sys2Proof.Claims.RemoteAccessesSendRequests : Prop :=
  ∀ (th : Thr) (rd rb : RegIx) (sz : BitVec 2) (u pi : Bool) (disp off : BitVec 12) (imm : BitVec 16) (s : State), Runs s th →
    let o := s.thr th
    let p := th.pier.val
    let a := eff o rb pi disp
    let n := 2 ^ sz.toNat
    let post := if pi then some (rb, o.rg rb + disp.signExtend 32) else none
    let i := (o.rg rb).toNat
    let q := if i < 16 then i else 99
    let x := ((o.rg rb).toNat + imm.toNat) % 65536
    (sz ≠ 3 → ¬ (pi = true ∧ rd = rb) → DeckOk s th a n false →
      Awaits (.ld th rd rb sz u pi disp) s th p ⟨.loadG rd n (!u), post, BitVec.ofNat 32 a⟩ (.deckRd (a - 0x10000000) n)) ∧
    (sz ≠ 3 → DeckOk s th a n true → o.stores < 4 →
      ∃ t, exec (.st th rd rb sz pi disp) s = .next t ∧ t = { s with threads := t.threads, io := t.io, net := t.net } ∧
        Sends s t p p 0 (.store th (BitVec.ofNat 32 a)) (.deckWr (a - 0x10000000) n ((o.rg rd).toNat % 256 ^ n)) ∧
        t.rf (Reg.PIER_RETIRED.COUNT p) = (s.rf (Reg.PIER_RETIRED.COUNT p) + 1) % 2 ^ 32 ∧
        t.rf (Reg.PIER_CYCLES.COUNT p) = (s.rf (Reg.PIER_CYCLES.COUNT p) + 1) % 2 ^ 32 ∧
        (∀ a, a ∉ [Reg.PIER_RETIRED_at p, Reg.PIER_CYCLES_at p, Reg.VIA_OFFLINE_CNT_at, Reg.VIA_ROUTE_ERR_CNT_at] → t.reg a = s.reg a) ∧
        t.thr th = { retired o (o.pc + 4) with stores := o.stores + 1, g := (t.thr th).g } ∧
        (∀ r, (t.thr th).rg r = gAfter o none rb pi disp r) ∧ (∀ u, u ≠ th → t.thr u = s.thr u)) ∧
    (2 ≤ sz.toNat → off.toNat % n = 0 → s.niInUse p < 40 →
      Awaits (.mld th rd rb sz off) s th p
        ⟨if sz = 2 then .loadG rd 4 false else .loadF rd 8, none, BitVec.ofNat 32 (i % 16 * 65536 + off.toNat)⟩
        (.mboxRd q off.toNat n) ∧
      Awaits (.mst th rd rb sz off) s th p ⟨.store, none, BitVec.ofNat 32 (i % 16 * 65536 + off.toNat)⟩
        (.mboxWr q off.toNat n (if sz = 2 then (o.rg rd).toNat else (o.rf rd).toNat))) ∧
    (0x100 ≤ x → (o.kernel = true ∨ s.taskIo p x = true) →
      Awaits (.inIo th rd rb imm) s th (32 + p) ⟨.ioIn rd, none, BitVec.ofNat 32 x⟩ (.ioRd x) ∧
      (o.stores = 0 → Awaits (.outIo th rd rb imm) s th (32 + p) ⟨.ioOut, none, BitVec.ofNat 32 x⟩ (.ioWr x (o.rg rd))))

/-- R79, R58, R128: IN and OUT of a pier-local address complete in their slot: IN reads PIER_CYCLES as it stands, OUT replaces
PIER_ENTRY while TRAP_CTL is unlocked (R150); a Task thread without an IO window raises PRIV. -/
def Sys2Proof.Claims.PierLocalIoCompletes : Prop :=
  ∀ (th : Thr) (rd rs : RegIx) (imm : BitVec 16) (s : State), Runs s th →
    let o := s.thr th
    let p := th.pier.val
    let x := ((o.rg rs).toNat + imm.toNat) % 65536
    (o.kernel = true → x = 0x23 →
      WritesG (.inIo th rd rs imm) s th rd (BitVec.ofNat 32 (s.rf (Reg.PIER_CYCLES.COUNT p))) (o.pc + 4) 1) ∧
    (o.kernel = true → x = 0x41 → s.on (Reg.PIER_TRAP_CTL.LOCK p) = false →
      ∃ t, exec (.outIo th rd rs imm) s = .next t ∧ t = { s with threads := t.threads, io := t.io } ∧
        t.rf (Reg.PIER_ENTRY.ADDR p) = (o.rg rd).toNat % 2 ^ 17 ∧ t.thr th = retired o (o.pc + 4)) ∧
    (o.kernel = false → o.exl = false → s.taskIo p x = false →
      Takes (.inIo th rd rs imm) s th 0x02 0 (BitVec.ofNat 32 x) ∧ Takes (.outIo th rd rs imm) s th 0x02 0 (BitVec.ofNat 32 x))

/-- R55, R56, R127, R136: a D-space access outside the mapped regions, or of a Task thread outside its windows, raises DSPACE_FAULT with
neither load nor store; a misaligned one on the Deck raises ALIGN. R45, R46, R62, R78, R79: Deck loads, remote mailbox accesses and global IO accesses send one request and leave the thread waiting; a
Deck store is posted, counted against its thread, and retires at once. R79, R58, R128: IN and OUT of a pier-local address complete in their slot: IN reads PIER_CYCLES as it stands, OUT replaces
PIER_ENTRY while TRAP_CTL is unlocked (R150); a Task thread without an IO window raises PRIV. -/
def Obligations.AccessesFaultOrSendRequests : Prop :=
  Sys2Proof.Claims.DspaceFaultsAreTaken ∧ Sys2Proof.Claims.RemoteAccessesSendRequests ∧ Sys2Proof.Claims.PierLocalIoCompletes

/-! ## Piers: gather, scatter, overlay, tables (spec/03, spec/04) -/

namespace Sys2Proof.Claims

/-- R121: the address of lane `j`: Gt plus the lane's index (its low 32 bits) times the element size, modulo 2^32. -/
def laneAddr (o : Thread) (ty : VTy) (ws : WIx) (rt : RegIx) (j : Nat) : Nat :=
  ((o.rg rt).toNat + lane (o.rw ws) ty.w j % 2 ^ 32 * (ty.w / 8)) % 2 ^ 32

/-- R121, R127: every lane's element is aligned, in the scratchpad or own mailbox, and permitted. -/
def LanesOk (s : State) (th : Thr) (ty : VTy) (ws : WIx) (rt : RegIx) (store : Bool) : Prop :=
  ∀ j, j < ty.lanes → let a := laneAddr (s.thr th) ty ws rt j
    a % (ty.w / 8) = 0 ∧ a < 0x11000 ∧ ((s.thr th).kernel = true ∨ s.taskFault th.pier.val a (ty.w / 8) store = none)

/-- The lane whose byte lies at `x` after a scatter: the highest whose element covers it (R122). -/
def scatterLane (o : Thread) (ty : VTy) (ws : WIx) (rt : RegIx) (x : Nat) : Option Nat :=
  (List.range ty.lanes).reverse.find? (fun j => decide (laneAddr o ty ws rt j ≤ x ∧ x < laneAddr o ty ws rt j + ty.w / 8))

end Sys2Proof.Claims

/-- R121, R122: WGATH reads each lane's element, WSCAT stores each lane's, a later lane over an earlier one; both hold the pier for one
cycle per lane. -/
def Obligations.GatherAndScatterLanes : Prop :=
  ∀ (th : Thr) (ty : VTy) (wd ws : WIx) (rt : RegIx) (s : State), Runs s th →
    let o := s.thr th
    let p := th.pier.val
    (LanesOk s th ty ws rt false → ∃ t, exec (.wgath th ty wd ws rt) s = .next t ∧ OnlyThread s t th ty.lanes ∧
      (∀ j, j < ty.lanes → lane ((t.thr th).rw wd) ty.w j = localBytes s p (laneAddr o ty ws rt j) (ty.w / 8)) ∧
      (∀ r, r ≠ wd → (t.thr th).rw r = o.rw r) ∧ t.thr th = { retired o (o.pc + 4) with w := (t.thr th).w }) ∧
    (LanesOk s th ty ws rt true → ∃ t, exec (.wscat th ty wd ws rt) s = .next t ∧
      t = { s with threads := t.threads, io := t.io, spad := t.spad, mbox := t.mbox } ∧
      (∀ u, u ≠ th → t.thr u = s.thr u) ∧ t.thr th = retired o (o.pc + 4) ∧
      ∀ (q : PierIx) (x : Nat), x < 0x11000 → localByte t q.val x =
        if q.val = p then
          match scatterLane o ty ws rt x with
          | some j => BitVec.ofNat 8 (lane (o.rw wd) ty.w j / 256 ^ (x - laneAddr o ty ws rt j))
          | none => localByte s p x
        else localByte s q.val x)

/-- R80: ILOAD from the scratchpad or mailbox copies one 8-byte row into I-space and advances both registers by 8; in Task mode it raises
PRIV, beyond I-space ISPACE_FAULT. -/
def Sys2Proof.Claims.IloadCopiesRow : Prop :=
  ∀ (th : Thr) (rd rs : RegIx) (s : State), Runs s th →
    let o := s.thr th
    let p := th.pier.val
    let d := (o.rg rd).toNat
    let a := (o.rg rs).toNat
    (o.kernel = true → d % 8 = 0 → a % 8 = 0 → d + 8 ≤ 0x20000 → a + 8 ≤ 0x11000 →
      ∃ t, exec (.iload th rd rs) s = .next t ∧ t = { s with threads := t.threads, io := t.io, ispace := t.ispace } ∧
        (∀ u, u ≠ th → t.thr u = s.thr u) ∧ t.thr th = { retired o (o.pc + 4) with g := (t.thr th).g } ∧
        (∀ r, (t.thr th).rg r = if r = rs ∧ r ≠ 0 then o.rg rs + 8 else if r = rd ∧ r ≠ 0 then o.rg rd + 8 else o.rg r) ∧
        (∀ (q : PierIx) (x : Nat), x < 0x20000 → SMap.get t.ispace 0 (0x20000 * q.val + x) =
          if q.val = p ∧ d ≤ x ∧ x < d + 8 then localByte s p (a + (x - d)) else SMap.get s.ispace 0 (0x20000 * q.val + x))) ∧
    (o.exl = false → 0x20000 < d + 8 → Takes (.iload th rd rs) s th 0x05 0 (o.rg rd)) ∧
    (o.exl = false → o.kernel = false → d + 8 ≤ 0x20000 → Takes (.iload th rd rs) s th 0x02 0 (wordA 0x0F rd.val rs.val 0 0))

namespace Sys2Proof.Claims

/-- A 16-bit table with a uniform spacing of one, latched, whose values lie in the scratchpad. -/
structure UnitTable (s : State) (th : Thr) (gt : Word) (d : TblDesc) : Prop where
  latched : (s.thr th).latch = some d
  addr : d.addr = gt.toNat
  aligned : gt.toNat % 8 = 0
  form : d.ytype = true ∧ d.xmode = false ∧ d.extrap = 0 ∧ 2 ≤ d.n ∧ d.n ≤ 65536 ∧ d.dx = 0
  values : d.yaddr.toNat % 2 = 0 ∧ d.yaddr.toNat + 2 * d.n ≤ 0x10000
  kernel : (s.thr th).kernel = true

end Sys2Proof.Claims

/-- R93 to R97: TLIH in a latched integer table of spacing 1 returns the value at its breakpoint, and the end value beyond the table (hold);
TLI of a quiet NaN under a latched binary32 table returns that NaN; TLINV clears the latch. -/
def Sys2Proof.Claims.TableLookupsReturnValues : Prop :=
  ∀ (th : Thr) (rd rs rt : RegIx) (d : TblDesc) (s : State), Runs s th →
    let o := s.thr th
    let p := th.pier.val
    let x := lint 16 ((o.rg rs).toNat % 2 ^ 16)
    let x0 := lint 16 (d.x0.toNat % 2 ^ 16)
    (UnitTable s th (o.rg rt) d →
      ∃ t, exec (.tlih th rd rs rt) s = .next t ∧ t = { s with threads := t.threads, io := t.io } ∧
        (∀ r, (t.thr th).rg r = if r = rd ∧ r ≠ 0 then
          BitVec.ofInt 32 (lint 16 (localBytes s p (d.yaddr.toNat + 2 * (max 0 (min ((d.n : Int) - 1) (x - x0))).toNat) 2)) else o.rg r) ∧
        (t.thr th).pc = o.pc + 4 ∧ (t.thr th).latch = some d) ∧
    (o.latch = some d → d.addr = (o.rg rt).toNat → d.addr % 8 = 0 → d.ytype = false → d.illegal false = false → d.misaligned = none →
      b32.isNaN (fval o .s rs) = true → b32.isSNaN (fval o .s rs) = false →
      WritesF (.tli th rd rs rt) s th rd (fval o .s rs) 0 1) ∧
    (∃ t, exec (.tlinv th) s = .next t ∧ OnlyThread s t th 1 ∧ t.thr th = { retired o (o.pc + 4) with latch := none })

/-- R80: ILOAD from the scratchpad or mailbox copies one 8-byte row into I-space and advances both registers by 8; in Task mode it raises
PRIV, beyond I-space ISPACE_FAULT. R93 to R97: TLIH in a latched integer table of spacing 1 returns the value at its breakpoint, and the end value beyond the table (hold);
TLI of a quiet NaN under a latched binary32 table returns that NaN; TLINV clears the latch. -/
def Obligations.IloadAndTableLookups : Prop :=
  Sys2Proof.Claims.IloadCopiesRow ∧ Sys2Proof.Claims.TableLookupsReturnValues

/-! ## Piers: system instructions (spec/03, spec/05) -/

namespace Sys2Proof.Claims

/-- A gate call passes the checks of R142 to R144: in the table, a valid descriptor, permitted, its arguments good, the stack good. -/
structure GateOk (s : State) (th : Thr) (k : BitVec 8) : Prop where
  counted : k.toNat < min 256 (s.rf (Reg.PIER_GATE_COUNT.COUNT th.pier.val))
  within : s.rf (Reg.PIER_GATE_BASE.BASE th.pier.val) + 32 * k.toNat + 32 ≤ 0x10000
  valid : (s.gateDesc th.pier.val (s.rf (Reg.PIER_GATE_BASE.BASE th.pier.val) + 32 * k.toNat)).invalid = false
  permitted : getBits (s.gateDesc th.pier.val (s.rf (Reg.PIER_GATE_BASE.BASE th.pier.val) + 32 * k.toNat)).ctrl
    (if (s.thr th).kernel then 2 else 1) 1 = 1
  arguments : let d := s.gateDesc th.pier.val (s.rf (Reg.PIER_GATE_BASE.BASE th.pier.val) + 32 * k.toNat)
    s.gateArgs th 1 (d.args.take d.nargs) = none

/-- The stack pointer of a gate entry (R144). -/
def gateSp (o : Thread) : Word := (if o.kernel then o.rg 30 else o.ksp) - 16

end Sys2Proof.Claims

/-- R142, R144: a gate whose checks hold writes its frame, switches the stack, enters Kernel mode with IE from CTRL and SS 0, at HANDLER;
every other register is as before. -/
def Sys2Proof.Claims.GateEntersHandler : Prop :=
  ∀ (th : Thr) (k : BitVec 8) (s : State), Runs s th → GateOk s th k → s.stackBad th.pier.val (gateSp (s.thr th)) = false →
    let o := s.thr th
    let p := th.pier.val
    let d := s.gateDesc p (s.rf (Reg.PIER_GATE_BASE.BASE p) + 32 * k.toNat)
    let f := (gateSp o).toNat
    ∃ t, exec (.gate th k) s = .next t ∧ t = { s with threads := t.threads, io := t.io, spad := t.spad } ∧
      (t.thr th).pc = d.handler ∧ (t.thr th).kernel = true ∧ (t.thr th).exl = o.exl ∧
      (t.thr th).ie = (getBits d.ctrl 6 1 == 1) ∧ (t.thr th).ss = false ∧
      (t.thr th).usp = (if o.kernel then o.usp else o.rg 30) ∧
      (∀ r, (t.thr th).rg r = if r = 30 then gateSp o else o.rg r) ∧ (t.thr th).f = o.f ∧ (t.thr th).w = o.w ∧
      (t.thr th).ksp = o.ksp ∧ (t.thr th).epc = o.epc ∧ (t.thr th).cause = o.cause ∧ (t.thr th).einfo = o.einfo ∧
      localBytes t p f 4 = (o.pc + 4).toNat ∧ localBytes t p (f + 4) 4 = o.tstat.toNat ∧ localBytes t p (f + 8) 8 = k.toNat ∧
      (∀ (q : PierIx) (x : Nat), x < 0x11000 → ¬ (q.val = p ∧ f ≤ x ∧ x < f + 16) → localByte t q.val x = localByte s q.val x) ∧
      (∀ u, u ≠ th → t.thr u = s.thr u)

/-- R142: the checks of GATE in order: beyond COUNT or the scratchpad GATE_NUM 1, an invalid descriptor GATE_NUM 2, a mode not permitted
GATE_MODE, a failed stack check STACK 1 with EINFO the new stack pointer. -/
def Sys2Proof.Claims.GateChecksInOrder : Prop :=
  ∀ (th : Thr) (k : BitVec 8) (s : State), Runs s th → (s.thr th).exl = false →
    let o := s.thr th
    let p := th.pier.val
    let a := s.rf (Reg.PIER_GATE_BASE.BASE p) + 32 * k.toNat
    let d := s.gateDesc p a
    let inTable := k.toNat < min 256 (s.rf (Reg.PIER_GATE_COUNT.COUNT p)) ∧ a + 32 ≤ 0x10000
    (¬ inTable → Takes (.gate th k) s th 0x08 1 (BitVec.ofNat 32 k.toNat)) ∧
    (inTable → d.invalid = true → Takes (.gate th k) s th 0x08 2 (BitVec.ofNat 32 k.toNat)) ∧
    (inTable → d.invalid = false → getBits d.ctrl (if o.kernel then 2 else 1) 1 = 0 →
      Takes (.gate th k) s th 0x0A 0 (BitVec.ofNat 32 k.toNat)) ∧
    (GateOk s th k → s.stackBad p (gateSp o) = true → Takes (.gate th k) s th 0x0B 1 (gateSp o))

/-- R142, R144: a gate whose checks hold writes its frame, switches the stack, enters Kernel mode with IE from CTRL and SS 0, at HANDLER;
every other register is as before. R142: the checks of GATE in order: beyond COUNT or the scratchpad GATE_NUM 1, an invalid descriptor GATE_NUM 2, a mode not permitted
GATE_MODE, a failed stack check STACK 1 with EINFO the new stack pointer. -/
def Obligations.GateEntersOrRefuses : Prop :=
  Sys2Proof.Claims.GateEntersHandler ∧ Sys2Proof.Claims.GateChecksInOrder

namespace Sys2Proof.Claims

/-- RPTC after a GRET to `pc`: RESUME stays 1 only where the word there is a prefix, OP 0x1C or 0x1D (R90). -/
def rptcAt (s : State) (th : Thr) (pc : Word) : Word :=
  let op := (s.ifetch th.pier.val pc).toNat / 2 ^ 26
  if op = 0x1C ∨ op = 0x1D then (s.thr th).rptc else (s.thr th).rptc &&& 0x7FFFFFFF

end Sys2Proof.Claims

/-- R90, R139: GRET with EXL = 1: PC ← EPC, MODE, IE and SS from the P fields, EXL ← 0, G30 ← USP in Task mode, RPTC.RESUME ← 0 where the
word at the PC is no prefix; KSP and the other registers as before. -/
def Sys2Proof.Claims.GretReturnsFromException : Prop :=
  ∀ (th : Thr) (s : State), Runs s th → (s.thr th).kernel = true → (s.thr th).exl = true →
    let o := s.thr th
    ∃ t, exec (.gret th) s = .next t ∧ OnlyThread s t th 1 ∧ (t.thr th).pc = BitVec.ofNat 32 (o.epc.toNat / 4 * 4) ∧
      (t.thr th).kernel = (getBits o.tstat 4 1 == 1) ∧ (t.thr th).ie = (getBits o.tstat 5 1 == 1) ∧
      (t.thr th).ss = (getBits o.tstat 6 1 == 1) ∧ (t.thr th).exl = false ∧
      (∀ r, (t.thr th).rg r = if r = 30 ∧ getBits o.tstat 4 1 = 0 then o.usp else o.rg r) ∧
      (t.thr th).ksp = o.ksp ∧ (t.thr th).usp = o.usp ∧ (t.thr th).epc = o.epc ∧ (t.thr th).cause = o.cause ∧
      (t.thr th).f = o.f ∧ (t.thr th).w = o.w ∧ (t.thr th).rptc = rptcAt s th (t.thr th).pc

/-- R146: GRET with EXL = 0 reads the frame at G30: the return address, the saved mode bits, G30 from USP or past the frame; a bad frame
raises STACK 2, and in Task mode GRET raises PRIV. -/
def Sys2Proof.Claims.GretReturnsFromGate : Prop :=
  ∀ (th : Thr) (s : State), Runs s th → (s.thr th).exl = false →
    let o := s.thr th
    let p := th.pier.val
    let f := o.rg 30
    let ts : Word := BitVec.ofNat 32 (localBytes s p (f.toNat + 4) 4)
    (o.kernel = true → s.stackBad p f = false →
      ∃ t, exec (.gret th) s = .next t ∧ OnlyThread s t th 3 ∧
        (t.thr th).pc = BitVec.ofNat 32 (localBytes s p f.toNat 4 / 4 * 4) ∧
        (t.thr th).kernel = (getBits ts 0 1 == 1) ∧ (t.thr th).ie = (getBits ts 2 1 == 1) ∧ (t.thr th).ss = (getBits ts 3 1 == 1) ∧
        (t.thr th).exl = false ∧ (t.thr th).rptc = rptcAt s th (t.thr th).pc ∧
        (∀ r, (t.thr th).rg r = if r = 30 then (if getBits ts 0 1 = 1 then f + 16 else o.usp) else o.rg r)) ∧
    (o.kernel = true → s.stackBad p f = true → Takes (.gret th) s th 0x0B 2 f) ∧
    (o.kernel = false → Takes (.gret th) s th 0x02 0 (wordA 0x1B 0 0 1 0))

/-- R90, R139: GRET with EXL = 1: PC ← EPC, MODE, IE and SS from the P fields, EXL ← 0, G30 ← USP in Task mode, RPTC.RESUME ← 0 where the
word at the PC is no prefix; KSP and the other registers as before. R146: GRET with EXL = 0 reads the frame at G30: the return address, the saved mode bits, G30 from USP or past the frame; a bad frame
raises STACK 2, and in Task mode GRET raises PRIV. -/
def Obligations.GretReturns : Prop :=
  Sys2Proof.Claims.GretReturnsFromException ∧ Sys2Proof.Claims.GretReturnsFromGate

/-- R147: BRK #c raises DEBUG_BREAK in both modes, with EPC naming the BRK and EINFO = c, when no debug halt is selected (R149). -/
def Obligations.BrkRaisesDebugBreak : Prop :=
  ∀ (th : Thr) (code : BitVec 11) (s : State), Runs s th → (s.thr th).exl = false →
    s.bit (Reg.PIER_DBG_CTL.HALT_BRK th.pier.val) th.th.val = false →
    ∃ t, exec (.brk th code) s = .next t ∧ t = { s with threads := t.threads } ∧ (∀ u, u ≠ th → t.thr u = s.thr u) ∧
      Entered (s.thr th) (t.thr th) 0x30 0 (BitVec.ofNat 32 code.toNat) (s.thr th).pc (s.reg (Reg.PIER_ENTRY_at th.pier.val))

/-- R129, R136, R71, R53: at the boundary of a thread, EXCEPTION_ENTRY takes ISPACE_FAULT for a PC outside I-space, ILLEGAL for a word that is
no instruction, and otherwise the first asynchronous cause due, with the registers R129 writes. -/
def Sys2Proof.Claims.ExceptionEntryWritesRegisters : Prop :=
  ∀ (th : Thr) (s : State), s.clocked th.pier.val = true → (s.thr th).run = .running → (s.thr th).acc = none →
    (s.thr th).stopReq = false → (s.thr th).rep = none → (s.thr th).tpend = 0 → (s.thr th).defErrs = [] → (s.thr th).exl = false →
    let o := s.thr th
    let w := s.ifetch th.pier.val o.pc
    let entry := s.reg (Reg.PIER_ENTRY_at th.pier.val)
    (0x1FFFC < o.pc.toNat → ∃ t, exec (.exceptionEntry th) s = .next t ∧ Entered o (t.thr th) 0x05 0 o.pc o.pc entry) ∧
    (o.pc.toNat ≤ 0x1FFFC → pierLegal w = false →
      ∃ t, exec (.exceptionEntry th) s = .next t ∧ Entered o (t.thr th) 0x01 0 w o.pc entry) ∧
    (∀ c, o.pc.toNat ≤ 0x1FFFC → pierLegal w = true → s.asyncDue th = some c → c.deferred = false →
      s.haltSelected th c = false →
      ∃ t, exec (.exceptionEntry th) s = .next t ∧ Entered o (t.thr th) c.code c.sub c.einfo o.pc entry)

/-- R138: a precise cause with EXL = 1 is a double exception: CAUSE, EPC, EINFO and TSTAT unchanged, the cause and its address in
PIER_DBLCAUSE and PIER_DBLEPC, the thread's DOUBLE bit set, the thread stopping. -/
def Sys2Proof.Claims.DoubleExceptionStopsThread : Prop :=
  ∀ (th : Thr) (code : BitVec 11) (s : State), Runs s th → (s.thr th).exl = true →
    let o := s.thr th
    let p := th.pier.val
    ∃ t, exec (.brk th code) s = .next t ∧ (t.thr th).cause = o.cause ∧ (t.thr th).epc = o.epc ∧ (t.thr th).einfo = o.einfo ∧
      (t.thr th).tstat = o.tstat ∧ (t.thr th).g = o.g ∧ (t.thr th).stopReq = true ∧ (t.thr th).pc = o.pc ∧
      t.rf (Reg.PIER_DBLCAUSE.CODE p) = 0x30 ∧ t.rf (Reg.PIER_DBLCAUSE.THREAD p) = th.th.val ∧
      t.rf (Reg.PIER_DBLEPC.ADDR p) = o.pc.toNat ∧ t.bit (Reg.PIER_EXC_STATUS.DOUBLE p) th.th.val = true ∧
      (s.on (Reg.PIER_TRAP_CTL.EXC_EVENT_EN p) = true →
        t.net.events = s.net.events ++ [Fin.ofNat 64 (s.rf (Reg.PIER_TRAP_CTL.EXC_EVENT p))])

/-- R129, R136, R71, R53: at the boundary of a thread, EXCEPTION_ENTRY takes ISPACE_FAULT for a PC outside I-space, ILLEGAL for a word that is
no instruction, and otherwise the first asynchronous cause due, with the registers R129 writes. R138: a precise cause with EXL = 1 is a double exception: CAUSE, EPC, EINFO and TSTAT unchanged, the cause and its address in
PIER_DBLCAUSE and PIER_DBLEPC, the thread's DOUBLE bit set, the thread stopping. -/
def Obligations.ExceptionEntryAndDoubleException : Prop :=
  Sys2Proof.Claims.ExceptionEntryWritesRegisters ∧ Sys2Proof.Claims.DoubleExceptionStopsThread

namespace Sys2Proof.Claims

/-- The special registers of Table isa-8 that MTS writes: number, the bits it takes from Gs, the bits it keeps. -/
def specialRows : List (Nat × Word × Word) :=
  [(1, 0x7E, ~~~0x7E), (2, 0x1FFFF, 0), (3, 0xFFFFFFFF, 0), (4, 0xFFFFFFFF, 0), (5, 0xFFFFFFFF, 0), (6, 0xFFFFFFFF, 0),
   (7, 0x8001FFFF, 0), (8, 0x7C1F, ~~~0x7C1F), (9, 0xFF, 0)]

/-- A special register of a thread by its number (Table isa-8). -/
def specialOf (t : Thread) : Nat → Word
  | 0 => t.pc | 1 => t.tstat | 2 => t.cause | 3 => t.epc | 4 => t.einfo | 5 => t.ksp | 6 => t.usp | 7 => t.rptc | 8 => t.fstat
  | _ => t.fctl

end Sys2Proof.Claims

/-- R83, R114, R125, R130: MFS reads each special register into Gd; MTS writes the fields of its register that may be written, and no other
special register; Task mode may read PC, TSTAT, RPTC, FSTAT and FCTL and write FSTAT and FCTL, else PRIV; MTS of the PC is ILLEGAL. -/
def Sys2Proof.Claims.SpecialRegisterMoves : Prop :=
  ∀ (th : Thr) (rd rs : RegIx) (sr : BitVec 11) (s : State), Runs s th →
    let o := s.thr th
    (sr.toNat < 10 → (o.kernel = true ∨ sr.toNat ∈ [0, 1, 7, 8, 9]) → 
      WritesG (.mfs th rd sr) s th rd (specialOf o sr.toNat) (o.pc + 4) 1) ∧
    (∀ e ∈ specialRows, sr.toNat = e.1 → (o.kernel = true ∨ sr.toNat ∈ [8, 9]) →
      ∃ t, exec (.mts th sr rs) s = .next t ∧ OnlyThread s t th 1 ∧
        specialOf (t.thr th) e.1 = (o.rg rs &&& e.2.1) ||| (specialOf o e.1 &&& e.2.2) ∧
        (∀ m, 0 < m → m < 10 → m ≠ e.1 → specialOf (t.thr th) m = specialOf o m) ∧
        (t.thr th).pc = o.pc + 4 ∧ (t.thr th).g = o.g ∧ (t.thr th).f = o.f ∧ (t.thr th).w = o.w) ∧
    (o.exl = false → o.kernel = false → 2 ≤ sr.toNat → sr.toNat ≤ 6 →
      Takes (.mfs th rd sr) s th 0x02 0 (wordA 0x1B rd.val 0 3 sr.toNat) ∧ Takes (.mts th sr rs) s th 0x02 0 (wordA 0x1B 0 rs.val 4 sr.toNat)) ∧
    (o.exl = false → sr = 0 → Takes (.mts th sr rs) s th 0x01 0 (wordA 0x1B 0 rs.val 4 0))

/-- R67: WAIT with an event pending and in the thread's mask writes the lowest one to Gd and clears its pending bit; with none the thread
is WAITING at the WAIT. -/
def Sys2Proof.Claims.WaitTakesLowestEvent : Prop :=
  ∀ (th : Thr) (rd : RegIx) (s : State), Runs s th →
    let o := s.thr th
    let p := th.pier.val
    (∀ e, e < 64 → s.evPending p e = true → s.evMask p th.th.val e = true →
      (∀ e', e' < e → ¬ (s.evPending p e' = true ∧ s.evMask p th.th.val e' = true)) →
      ∃ t, exec (.wait th rd) s = .next t ∧ t = { s with threads := t.threads, io := t.io } ∧ (∀ u, u ≠ th → t.thr u = s.thr u) ∧
        (∀ r, (t.thr th).rg r = if r = rd ∧ r ≠ 0 then BitVec.ofNat 32 e else o.rg r) ∧ (t.thr th).pc = o.pc + 4 ∧
        (∀ e', e' < 64 → t.evPending p e' = if e' = e then false else s.evPending p e')) ∧
    ((∀ e, e < 64 → ¬ (s.evPending p e = true ∧ s.evMask p th.th.val e = true)) →
      ∃ t, exec (.wait th rd) s = .next t ∧ (t.thr th).run = .waiting ∧ (t.thr th).pc = o.pc ∧ (∀ r, (t.thr th).rg r = o.rg r) ∧
        (∀ e, e < 64 → t.evPending p e = s.evPending p e))

/-- R86, R87, R90: a prefix whose count (its own, or RPTC's where a GRET resumes it) is in range and whose instruction is of the repeatable
set starts the repeat; a count out of range
raises REPEAT 1, an instruction outside the set REPEAT 2; and an ADD within a repeat executes with the PC held until the last time. -/
def Sys2Proof.Claims.RepeatPrefixesCount : Prop :=
  ∀ (th : Thr) (rd rs rt : RegIx) (rsrc : Bool) (cntm1 : BitVec 16) (s : State), Runs s th →
    let o := s.thr th
    let n := if o.viaGret = true ∧ getBits o.rptc 31 1 = 1 then getBits o.rptc 0 17 else if rsrc then (o.rg rs).toNat else cntm1.toNat + 1
    let word := s.ifetch th.pier.val (o.pc + 4)
    ∀ e ∈ [(Instr.rpt th rs rsrc cntm1, false, 256), (Instr.rpti th rs rsrc cntm1, true, 65536)],
      (o.pc + 4).toNat ≤ 0x1FFFC → (rsrc = true → cntm1 = 0) →
      (1 ≤ n → n ≤ e.2.2 → pierRepeatable word = true →
        ∃ t, exec e.1 s = .next t ∧ OnlyThread s t th 1 ∧
          (t.thr th).rep = some ⟨e.2.1, o.pc⟩ ∧ (t.thr th).rptc = BitVec.ofNat 32 n ∧ (t.thr th).pc = o.pc + 4 ∧ (t.thr th).g = o.g ∧
          (∀ u, exec (.add th rd rs rt) t = .next u → t.asyncDue th = none →
            (u.thr th).count = n - 1 ∧ (∀ r, (u.thr th).rg r = if r = rd ∧ r ≠ 0 then o.rg rs + o.rg rt else o.rg r) ∧
            (if n = 1 then (u.thr th).rep = none ∧ (u.thr th).pc = o.pc + 8
             else (u.thr th).rep = (t.thr th).rep ∧ (u.thr th).pc = o.pc + 4))) ∧
      (o.exl = false → (n = 0 ∨ e.2.2 < n) → Takes e.1 s th 0x0C 1 (BitVec.ofNat 32 n)) ∧
      (o.exl = false → 1 ≤ n → n ≤ e.2.2 → pierRepeatable word = false → Takes e.1 s th 0x0C 2 word)

/-- R67: WAIT with an event pending and in the thread's mask writes the lowest one to Gd and clears its pending bit; with none the thread
is WAITING at the WAIT. R86, R87, R90: a prefix whose count (its own, or RPTC's where a GRET resumes it) is in range and whose instruction is of the repeatable
set starts the repeat; a count out of range
raises REPEAT 1, an instruction outside the set REPEAT 2; and an ADD within a repeat executes with the PC held until the last time. -/
def Obligations.WaitAndRepeat : Prop :=
  Sys2Proof.Claims.WaitTakesLowestEvent ∧ Sys2Proof.Claims.RepeatPrefixesCount

/-- R64, R65, R68: RUN written 1 starts a STOPPED thread at PIER_THPC in Kernel mode, written 0 requests a stop; a thread with a stop
requested and nothing outstanding enters STOPPED with its PC in PIER_THPC; PIER_THPC is written only while STOPPED, and a mask at any
time. -/
def Sys2Proof.Claims.ThreadControlRegisters : Prop :=
  ∀ (th : Thr) (src : Src) (v : Word) (hi : Bool) (s : State), s.online th.pier.val = true →
    let o := s.thr th
    let p := th.pier.val
    (o.run = .stopped → v = BitVec.ofNat 32 (2 ^ th.th.val) → (∀ u : Fin 8, u ≠ th.th → (s.thr ⟨th.pier, u⟩).run = .stopped) →
      ∃ t, exec (.pierThrunWrite src th.pier v) s = .next t ∧ (t.thr th).run = .running ∧ (t.thr th).stopReq = false ∧
        (t.thr th).kernel = true ∧ (t.thr th).pc = BitVec.ofNat 32 (s.rf (Reg.PIER_THPC.PC p th.th.val) / 4 * 4) ∧
        (t.thr th).g = o.g ∧ t = { s with threads := t.threads }) ∧
    (o.run = .running → v = 0 → ∃ t, exec (.pierThrunWrite src th.pier v) s = .next t ∧ (t.thr th).stopReq = true ∧
      (t.thr th).run = .running ∧ (t.thr th).pc = o.pc ∧ t = { s with threads := t.threads }) ∧
    (o.run = .running → o.stopReq = true → o.acc = none → o.stores = 0 → o.rep = none →
      ∃ t, exec (.threadStopped th) s = .next t ∧ (t.thr th).run = .stopped ∧ (t.thr th).pc = o.pc ∧ (t.thr th).g = o.g ∧
        t.rf (Reg.PIER_THPC.PC p th.th.val) = o.pc.toNat % 2 ^ (Reg.PIER_THPC.PC p th.th.val).width) ∧
    (o.run = .stopped → ∃ t, exec (.pierThpcWrite src th v) s = .next t ∧
      t.rf (Reg.PIER_THPC.PC p th.th.val) = getBits v (Reg.PIER_THPC.PC p th.th.val).lo (Reg.PIER_THPC.PC p th.th.val).width ∧
      t.threads = s.threads) ∧
    (o.run ≠ .stopped → ∃ t, exec (.pierThpcWrite src th v) s = .next t ∧
      t.rf (Reg.PIER_THPC.PC p th.th.val) = s.rf (Reg.PIER_THPC.PC p th.th.val) ∧ t.on (Reg.PIER_STATUS.REFUSED p) = true) ∧
    (o.run ≠ .waiting → ∃ t, exec (.pierEvmaskWrite src th hi v) s = .next t ∧
      (if hi then t.rf (Reg.PIER_EVMASK_HI.MASK p th.th.val) else t.rf (Reg.PIER_EVMASK_LO.MASK p th.th.val)) = v.toNat ∧
      t.threads = s.threads)

/-- R83, R114, R125, R130: MFS reads each special register into Gd; MTS writes the fields of its register that may be written, and no other
special register; Task mode may read PC, TSTAT, RPTC, FSTAT and FCTL and write FSTAT and FCTL, else PRIV; MTS of the PC is ILLEGAL. R64, R65, R68: RUN written 1 starts a STOPPED thread at PIER_THPC in Kernel mode, written 0 requests a stop; a thread with a stop
requested and nothing outstanding enters STOPPED with its PC in PIER_THPC; PIER_THPC is written only while STOPPED, and a mask at any
time. -/
def Obligations.SpecialAndThreadRegisters : Prop :=
  Sys2Proof.Claims.SpecialRegisterMoves ∧ Sys2Proof.Claims.ThreadControlRegisters

/-! ## Spans and the Dispatcher (spec/06, spec/07) -/

namespace Sys2Proof.Claims

/-- Tables job-4 to job-6: the OPC of each operation and its result for one element. -/
def spanOpRows : List ((QIx → Instr) × Nat × (SEnv → Fr)) :=
  [(.spanVadd, 0x10, fun e => spAdd false e.c e.i.ct e.o), (.spanVsub, 0x11, fun e => spAdd true e.c e.i.ct e.o),
   (.spanVmul, 0x12, fun e => spMul e.c e.i.ct e.o), (.spanVfma, 0x13, fun e => e.c.fma false false e.o.a e.o.b e.o.c),
   (.vfms, 0x14, fun e => e.c.fma false true e.o.a e.o.b e.o.c), (.vfnma, 0x15, fun e => e.c.fma true false e.o.a e.o.b e.o.c),
   (.vcmul, 0x16, fun e => cmul e.c true e.o.a e.o.b),
   (.vbfly, 0x17, fun e => cbfly e.c (e.i.md.testBit 0) (e.i.md.testBit 1) e.o.a e.o.b e.o.c),
   (.vcabs2, 0x18, fun e => sumTerms e.c [⟨false, e.o.a % 2 ^ 32, e.o.a % 2 ^ 32⟩, ⟨false, e.o.a / 2 ^ 32 % 2 ^ 32, e.o.a / 2 ^ 32 % 2 ^ 32⟩]
     [e.o.a % 2 ^ 32, e.o.a / 2 ^ 32 % 2 ^ 32]),
   (.vmov, 0x20, fun e => ⟨e.o.a, 0⟩), (.viadd, 0x21, fun e => ⟨(e.o.a + e.o.b) % 2 ^ 32, 0⟩),
   (.visub, 0x22, fun e => ⟨(((e.o.a : Int) - e.o.b) % 2 ^ 32).toNat, 0⟩), (.vimul, 0x23, fun e => ⟨e.o.a * e.o.b % 2 ^ 32, 0⟩),
   (.spanVand, 0x24, fun e => ⟨e.o.a &&& e.o.b, 0⟩), (.spanVor, 0x25, fun e => ⟨e.o.a ||| e.o.b, 0⟩),
   (.spanVxor, 0x26, fun e => ⟨e.o.a ^^^ e.o.b, 0⟩), (.vshl, 0x27, fun e => ⟨e.o.a * 2 ^ (e.o.b % 32) % 2 ^ 32, 0⟩),
   (.vshr, 0x28, fun e => spShr e.i.ct e.o), (.spanVmin, 0x29, fun e => spMinMax false e.c e.i.ct e.o),
   (.spanVmax, 0x2A, fun e => spMinMax true e.c e.i.ct e.o), (.spanVabs, 0x2B, fun e => spSign false e.c e.i.ct e.o),
   (.spanVneg, 0x2C, fun e => spSign true e.c e.i.ct e.o), (.vcmp, 0x2D, fun e => spCmp (e.i.md % 4) e.c e.i.ct e.o),
   (.spanVsel, 0x2E, fun e => ⟨if e.o.c % 2 ^ 32 = 0 then e.o.b else e.o.a, 0⟩),
   (.spanVcvt, 0x2F, fun e => spCvt (e.i.md % 16) (e.i.md.testBit 4) e.rm e.ftz e.i.ct e.o),
   (.viota, 0x30, fun e => ⟨e.el % 2 ^ 32, 0⟩),
   (.vtli, 0x40, fun e => match e.xlu with | some t => t.tli e.c e.o.a e.free | none => ⟨0, 0⟩),
   (.vlut, 0x41, fun e => match e.xlu with | some t => t.lut e.o.a | none => ⟨0, 0⟩)]

/-- The reductions of Table job-7, by OPC. -/
def redRows : List ((QIx → Instr) × Nat) :=
  [(.vrsum, 0x50), (.vrmin, 0x51), (.vrmax, 0x52), (.vrmini, 0x53), (.vrmaxi, 0x54)]

/-- What an operation sees of the element that the job of Span `q` is at: the sources, the job's rounding (R191), the element's index, the
table, a free value. -/
def spanEnv (j : SJob) (g : SGroup) (i : SIns) (free : Nat) : SEnv :=
  let ss := groupStreams j.sdt g.sins
  ⟨i, jobCtx (jCtrl j.desc 25 2) (jCtrl j.desc 27 1 == 1) i.ct,
    ⟨(g.source j.sdt ss i 0).1, (g.source j.sdt ss i 1).1, (g.source j.sdt ss i 2).1⟩, g.nxt, j.xlu, jCtrl j.desc 25 2,
    jCtrl j.desc 27 1 == 1, free⟩

/-- Nothing of the device but Span `q`'s job and registers changes, and the counter of free values. -/
def OnlySpan (s t : State) (q : QIx) : Prop :=
  t = { s with spans := t.spans, io := t.io, free := t.free } ∧ (∀ p, p ≠ q → t.span p.val = s.span p.val) ∧
  (∀ a, a ≠ Reg.SPAN_POS_at q.val → a ≠ Reg.SPAN_INFLIGHT_PEAK_at q.val → t.reg a = s.reg a)

/-- The job of Span `q` afterwards, with the group that began at the same instruction as `g`. -/
def SpanNow (t : State) (q : QIx) (g : SGroup) (P : SJob → SGroup → Prop) : Prop :=
  ∃ j' g', t.span q.val = some j' ∧ g' ∈ j'.groups ∧ g'.first = g.first ∧ P j' g'

end Sys2Proof.Claims

/-- Tables job-4 to job-6, R160, R163, R185, R191: an operation computes its element where its instruction is next: within a group the
result is chained; at the group's end it is stored where the element is active; its flags join the job's, and one in FEN is a fault FP. -/
def Obligations.SpanOperationsComputeElements : Prop :=
  ∀ (q : QIx) (s : State) (j : SJob) (g : SGroup) (i : SIns), s.running q.val = some j → ∀ e ∈ spanOpRows, j.at e.2.1 = some (g, i) →
    ∃ free, let r := e.2.2 (spanEnv j g i free)
      ∃ t, exec (e.1 q) s = .next t ∧ OnlySpan s t q ∧
        (r.flags &&& jFen j.desc ≠ 0 → SpanNow t q g (fun j' g' =>
          g'.fault = some (0xE, none) ∧ j'.flags = j.flags ||| r.flags ∧ j'.stores = j.stores)) ∧
        (r.flags &&& jFen j.desc = 0 → g.pos + 1 < g.ins.length → SpanNow t q g (fun j' g' =>
          g'.pos = g.pos + 1 ∧ g'.nxt = g.nxt ∧ g'.chain = g.chain ++ [r.bits] ∧ j'.flags = j.flags ||| r.flags ∧ j'.stores = j.stores)) ∧
        (∀ off n, r.flags &&& jFen j.desc = 0 → g.pos + 1 = g.ins.length →
          g.target j.sdt (groupStreams j.sdt g.sins) = some (off, n) → SpanNow t q g (fun j' g' =>
            g'.pos = 0 ∧ g'.nxt = g.nxt + 1 ∧ g'.chain = [] ∧ j'.flags = j.flags ||| r.flags ∧
            j'.stores = j.stores ++ [⟨g.first, g.nxt, off, n, r.bits % 2 ^ (8 * n)⟩])) ∧
        (r.flags &&& jFen j.desc = 0 → g.pos + 1 = g.ins.length → g.target j.sdt (groupStreams j.sdt g.sins) = none → g.nxt + 1 < g.n →
          SpanNow t q g (fun j' g' =>
            g'.pos = 0 ∧ g'.nxt = g.nxt + 1 ∧ g'.chain = [] ∧ j'.flags = j.flags ||| r.flags ∧ j'.stores = j.stores))

/-- R187, R189, Table job-7: a reduction takes the element into its segment; the element that ends a segment stores the result where the
store's mask is active, and the next segment starts anew. -/
def Sys2Proof.Claims.SpanReductionsStoreSegments : Prop :=
  ∀ (q : QIx) (s : State) (j : SJob) (g : SGroup) (i : SIns), s.running q.val = some j → ∀ e ∈ redRows, j.at e.2 = some (g, i) →
    (g.fin = i) → g.pos + 1 = g.ins.length → jFen j.desc = 0 →
    let ss := groupStreams j.sdt g.sins
    let c := jobCtx (jCtrl j.desc 25 2) (jCtrl j.desc 27 1 == 1) i.ct
    let a := g.source j.sdt ss i 0
    let x := if a.2 && !g.dead j.sdt ss then some a.1 else none
    let r := g.red.take c e.2 i.ct (groupWidth j.sdt g.sins) (segOff i.segsh g.nxt) x
    let v := r.1.finish c e.2 i.ct
    let sd := SDesc.get j.sdt i.d
    (segEnd i.segsh g.nxt g.n = false → ∃ t, exec (e.1 q) s = .next t ∧ OnlySpan s t q ∧
      SpanNow t q g (fun j' g' => g'.red = r.1 ∧ g'.nxt = g.nxt + 1 ∧ j'.flags = j.flags ||| r.2 ∧ j'.stores = j.stores)) ∧
    (segEnd i.segsh g.nxt g.n = true → g.active j.sdt ss .smask i.d g.results = some false → g.maskClear ss = true →
      g.maskFault ss = none → g.nxt + 1 < g.n → ∃ t, exec (e.1 q) s = .next t ∧ OnlySpan s t q ∧
        SpanNow t q g (fun j' g' => g'.red = SRed.start ∧ g'.nxt = g.nxt + 1 ∧ g'.results = g.results + 1 ∧ j'.stores = j.stores)) ∧
    (segEnd i.segsh g.nxt g.n = true → g.active j.sdt ss .smask i.d g.results = some true → g.maskClear ss = true →
      g.maskFault ss = none → ∃ t, exec (e.1 q) s = .next t ∧ OnlySpan s t q ∧
        SpanNow t q g (fun j' g' => g'.red = SRed.start ∧ g'.nxt = g.nxt + 1 ∧ g'.results = g.results + 1 ∧
          j'.stores = j.stores ++ [⟨g.first, g.results, (sd.at g.results).toNat, tySize sd.ty, v.1 % 2 ^ (8 * tySize sd.ty)⟩]))

namespace Sys2Proof.Claims

/-- A segment's elements taken in order, `off` the offset of the first. -/
def redAll (c : FCtx) (opc ct w : Nat) (r : SRed) (off : Nat) : List (Option Nat) → SRed
  | [] => r
  | e :: t => redAll c opc ct w (r.take c opc ct w off e).1 (off + 1) t

/-- An integer element by its compute type: i32 signed, u32 unsigned. -/
def ival (ct v : Nat) : Int := if ct = 2 then lint 32 v else v

end Sys2Proof.Claims

/-- R187, R189: over the active integer elements of a segment VRSUM gives the sum modulo 2^32, VRMIN and VRMAX the least and the greatest,
VRMINI and VRMAXI the offset of the first of them; a segment with no active element gives 0, the neutral value, or 0xFFFFFFFF. -/
def Sys2Proof.Claims.IntegerReductionValues : Prop :=
  ∀ (c : FCtx) (ct w : Nat) (es : List (Option Nat)), ct = 2 ∨ ct = 5 → (∀ v, some v ∈ es → v < 2 ^ 32) →
    let out (opc : Nat) : Nat := ((redAll c opc ct w SRed.start 0 es).finish c opc ct).1
    let vs := es.filterMap id
    out 0x50 = vs.sum % 2 ^ 32 ∧
    (vs ≠ [] → out 0x51 ∈ vs ∧ out 0x52 ∈ vs ∧ (∀ v ∈ vs, ival ct (out 0x51) ≤ ival ct v ∧ ival ct v ≤ ival ct (out 0x52)) ∧
      es[out 0x53]? = some (some (out 0x51)) ∧ es[out 0x54]? = some (some (out 0x52)) ∧
      (∀ m, m < out 0x53 → es[m]? ≠ some (some (out 0x51))) ∧ (∀ m, m < out 0x54 → es[m]? ≠ some (some (out 0x52)))) ∧
    (vs = [] → out 0x51 = (if ct = 2 then 0x7FFFFFFF else 0xFFFFFFFF) ∧ out 0x52 = (if ct = 2 then 0x80000000 else 0) ∧
      out 0x53 = 0xFFFFFFFF ∧ out 0x54 = 0xFFFFFFFF)

/-- R187, R189, Table job-7: a reduction takes the element into its segment; the element that ends a segment stores the result where the
store's mask is active, and the next segment starts anew. R187, R189: over the active integer elements of a segment VRSUM gives the sum modulo 2^32, VRMIN and VRMAX the least and the greatest,
VRMINI and VRMAXI the offset of the first of them; a segment with no active element gives 0, the neutral value, or 0xFFFFFFFF. -/
def Obligations.SpanReductions : Prop :=
  Sys2Proof.Claims.SpanReductionsStoreSegments ∧ Sys2Proof.Claims.IntegerReductionValues

/-- R156, R163 to R170, R182, R540: GROUP_START begins the next group when its words pass every check; a load returns the data of
its element and of those of its beat in the same word, with the conflict found as it issued; its check clears it, or squashes the group's
loads from there and counts the replay; a replay reissues once no store conflicts. -/
def Obligations.SpanGroupsLoadAndCheck : Prop :=
  ∀ (q : QIx) (s : State) (j : SJob), s.running q.val = some j →
    (∀ ws : List DWord, j.groups = [] → s.groupBusy j = false →
      (s.spanFetch q.val (jProg j.desc) j.next s.groupFuel).1 = (ws, 0) → ws ≠ [vendWord] → groupCheck s.grade j.sdt ws = 0 → groupType j.sdt (ws.map SIns.parse) none = false →
      (ws.map SIns.parse).find? SIns.isXlu = none → (groupLens j.sdt (ws.map SIns.parse)).headD 0 ≠ 0 →
      ∃ t j', exec (.groupStart q) s = .next t ∧ t.span q.val = some j' ∧ j'.next = j.next + ws.length ∧
        j'.groups = [⟨j.next, ws, (groupLens j.sdt (ws.map SIns.parse)).headD 0, 0, 0, [], [], none, [], SRed.start, 0, none,
          false⟩]) ∧
    (∀ (gi : Nat) (u : Fin 3) (k w : Nat) (d b : Damage) (g : SGroup) (r : SStream), j.groups[gi]? = some g → g.nxt < g.n →
      (groupStreams j.sdt g.sins)[u.val]? = some r →
      (∀ (off : Int), g.request j.sdt (groupStreams j.sdt g.sins) r k = some (some off) →
        j.canLoad g (groupStreams j.sdt g.sins) u.val r k = true → j.wordBusy off.toNat = false → s.quarterBusy off.toNat = false →
        let ty := (SDesc.get j.sdt r.d).ty
        let v := ((s.noteRemote q.val off.toNat w).spanRead q.val (off.toNat / 8 * 8) 8 d b).1
        let es := j.sharers g (groupStreams j.sdt g.sins) u.val r k (off / 8)
        (k, off) ∈ es ∧ ∃ t, exec (.elementLoadReturn q gi u k d b w) s = .next t ∧
          SpanNow t q g (fun _ g' => g'.nxt = g.nxt ∧ ∀ e ∈ es, g'.gotAt u.val e.1 =
            some ⟨if v.2 = 0 then laneOf ty (v.1 / 256 ^ (e.2.toNat % 8) % 256 ^ tySize ty) else 0, v.2,
              j.conflict g.first e.1 e.2 (tySize ty), false⟩)) ∧
      (∀ v : SGot, g.gotAt u.val k = some v → v.clear = false →
        (v.hit = false → ∃ t, exec (.conflictCheck q gi u k) s = .next t ∧
          SpanNow t q g (fun _ g' => g'.gotAt u.val k = some { v with clear := true })) ∧
        (v.hit = true → ∃ t, exec (.conflictCheck q gi u k) s = .next t ∧
          t.rf (Reg.SPAN_REPLAY_CNT.COUNT q.val) = min (2 ^ 32 - 1) (s.rf (Reg.SPAN_REPLAY_CNT.COUNT q.val) + 1) ∧
          SpanNow t q g (fun _ g' => g'.replay.isSome = true ∧ ∀ (w : Fin 3) (m : Nat), k ≤ m → g'.gotAt w.val m = none))) ∧
      (∀ p, g.replay = some p → j.conflict g.first p.1 (p.2.1 : Int) p.2.2 = false →
        ∃ t, exec (.replayReissue q gi) s = .next t ∧ SpanNow t q g (fun _ g' => g'.replay = none ∧ g'.got = g.got)))

/-- R167, R173, R182, R199, R201, R202, R206: the oldest store is performed and acknowledged with those of its beat in the same word; a job ends DONE at VEND, FAULT at its oldest fault, ABORTED once
drained; its completion frees the slot, leaves the Span idle and, in the home quarter with no job waiting, writes the status word. -/
def Sys2Proof.Claims.SpanJobsEnd : Prop :=
  ∀ (q : QIx) (s : State) (j : SJob), s.span q.val = some j →
    (∀ (x : SStore) (rest : List SStore) (d b : Damage) (w : Nat), j.ended = none → j.stores = x :: rest →
      s.quarterBusy x.off = false → j.beatDone x = true →
      let es := j.storesWith x
      let r := (s.noteRemote q.val x.off w).spanStore q.val (x.off / 8) (es.map (fun y => (y.off, y.size, y.v))) d b
      r.1 = 0 → ∃ t, exec (.storeAcknowledgement q d b w) s = .next t ∧ t.deck = r.2.deck ∧ x ∈ es ∧
        (t.span q.val).map SJob.stores = some (j.stores.filter (fun y => !es.contains y))) ∧
    (∀ (g : SGroup) (rest : List SGroup) (f : Nat × Option Nat), j.ended = none → j.aborting = false → j.groups = g :: rest → g.fault = some f →
      j.stores = [] → ∃ t e, exec (.jobFaultEnd q) s = .next t ∧ t = { s with spans := t.spans } ∧
        (t.span q.val).bind SJob.ended = some (2, f.1, g.first, e)) ∧
    (j.ended = none → j.aborting = false → j.groups = [] → s.rangeBusy (jProg j.desc + 8 * j.next) 8 = false →
      (s.spanFetch q.val (jProg j.desc) j.next 1).1 = ([vendWord], 0) →
      ∃ t e, exec (.vend q) s = .next t ∧ (t.span q.val).bind SJob.ended = some (1, 0, j.next, e)) ∧
    (j.ended = none → j.aborting = true → j.stores = [] →
      ∃ t e, exec (.abortDrained q) s = .next t ∧ t = { s with spans := t.spans } ∧ (t.span q.val).bind SJob.ended = some (3, 0, e)) ∧
    (∀ (raw : Nat) (st fault instr commit : Nat) (cv : Bool), j.ended = some (st, fault, instr, commit, cv) → st < 16 →
      fault < 32 → j.slot < 256 → s.rangeBusy (jStatus j.desc) 16 = false →
      ∃ t, exec (.jobCompletion q raw) s = .next t ∧ t.span q.val = none ∧ (t.slot j.slot).st = .free ∧
        t.on (Reg.SPAN_JOB.VALID q.val) = false ∧
        ((∀ k, k < 256 → (s.slot k).st ≠ .waiting) → jStatus j.desc % 16 = 0 → deckQuarter (jStatus j.desc) = q.val →
          t.deckPeek (jStatus j.desc) 4 =
            (st + 16 * fault + 2 ^ 9 * b2n j.indexRange + 2 ^ 10 * (j.flags % 32) + 65536 * jTag j.desc) % 2 ^ 32 ∧
          t.deckPeek (jStatus j.desc + 4) 4 = instr % 2 ^ 24 + 2 ^ 24 * (j.slot % 256) ∧
          t.deckPeek (jStatus j.desc + 12) 4 = s.measured raw % 2 ^ 32))

/-- R172, R181: SPAN_CTL is written while the Span is idle, and refused otherwise. -/
def Sys2Proof.Claims.SpanControlRefusedUnlessIdle : Prop :=
  ∀ (q : QIx) (v : Word) (s : State),
    (s.span q.val = none → ∃ t, exec (.spanCtlWrite q v) s = .next t ∧ t = { s with io := t.io } ∧
      t.on (Reg.SPAN_CTL.RUNAHEAD_EN q.val) = v.getLsbD (Reg.SPAN_CTL.RUNAHEAD_EN q.val).lo) ∧
    (s.span q.val ≠ none → ∃ t, exec (.spanCtlWrite q v) s = .next t ∧ t.on (Reg.SPAN_STATUS.REFUSED q.val) = true ∧
      t.on (Reg.SPAN_CTL.RUNAHEAD_EN q.val) = s.on (Reg.SPAN_CTL.RUNAHEAD_EN q.val))

/-- R167, R173, R182, R199, R201, R202, R206: the oldest store is performed and acknowledged with those of its beat in the same word; a job ends DONE at VEND, FAULT at its oldest fault, ABORTED once
drained; its completion frees the slot, leaves the Span idle and, in the home quarter with no job waiting, writes the status word. R172, R181: SPAN_CTL is written while the Span is idle, and refused otherwise. -/
def Obligations.SpanJobsEndAndControl : Prop :=
  Sys2Proof.Claims.SpanJobsEnd ∧ Sys2Proof.Claims.SpanControlRefusedUnlessIdle

/-- R193, R194, R196: a pier thread's good submission takes the free slot, READY or WAITING by what it depends on, with the next acceptance
number; a write from any other source is refused with reason SOURCE. -/
def Sys2Proof.Claims.SubmissionsTakeSlots : Prop :=
  ∀ (th : Thr) (v : Word) (s : State),
    (∀ (d : List Word) (k : Nat), s.submitWaits v = false → v.toNat % 64 = 0 → v.toNat < s.grade.deckBytes → (s.dispRead v.toNat 8).1 = some d →
      jBad s.grade d = false → ((s.dispRead v.toNat 8).2.spansFor d) ≠ [] → (s.dispRead v.toNat 8).2.freeSlot = some k →
      ∃ t, exec (.jobSubmission (.pier th) v) s = .next t ∧ (t.slot k).desc = d ∧ (t.slot k).thr = th ∧
        (t.slot k).seq = (s.dispRead v.toNat 8).2.accepted ∧
        (t.slot k).st = (if (List.range 256).any (fun u => ((s.dispRead v.toNat 8).2.slot u).holds d) then .waiting else .ready) ∧
        t.accepted = (s.dispRead v.toNat 8).2.accepted + 1) ∧
    (∀ src ∈ [Src.fobex, .keystone, .debug], ∃ t, exec (.jobSubmission src v) s = .next t ∧ t.slots = s.slots ∧
      t.on Reg.DISP_STATUS.REFUSED = true ∧ t.rf Reg.DISP_REFUSE_INFO.REASON = 6)

/-- R194, R201: an abort by slot, by tag or of all frees every WAITING or READY target and makes every RUNNING target's Span drain; where
nothing can be aborted it is refused with ABORT_NONE, and from any source but a pier with SOURCE. -/
def Sys2Proof.Claims.AbortsEndTheirTargets : Prop :=
  ∀ (th : Thr) (slot : BitVec 8) (tag : BitVec 16) (s : State),
    ∀ e ∈ [((fun src => Instr.abortSlot src slot), [slot.toNat]),
           ((fun src => Instr.abortTag src tag), (List.range 256).filter (fun k => jTag (s.slot k).desc == tag.toNat)),
           ((fun src => Instr.abortAll src), List.range 256)],
      (∀ k ∈ e.2, s.abortWaits e.2 = false → s.abortable k = true → ∃ t, exec (e.1 (.pier th)) s = .next t ∧
        ((s.slot k).st = .waiting ∨ (s.slot k).st = .ready → (t.slot k).st = .free) ∧
        ((s.slot k).st = .running → (t.span (s.slot k).span).map SJob.aborting = some true)) ∧
      (s.abortWaits e.2 = false → (∀ k ∈ e.2, s.abortable k = false) → ∃ t, exec (e.1 (.pier th)) s = .next t ∧ t.slots = s.slots ∧ t.spans = s.spans ∧
        t.on Reg.DISP_STATUS.REFUSED = true ∧ t.rf Reg.DISP_REFUSE_INFO.REASON = 7) ∧
      (∀ src ∈ [Src.fobex, .keystone, .debug], ∃ t, exec (e.1 src) s = .next t ∧ t.slots = s.slots ∧ t.spans = s.spans ∧
        t.rf Reg.DISP_REFUSE_INFO.REASON = 6)

/-- R193, R194, R196: a pier thread's good submission takes the free slot, READY or WAITING by what it depends on, with the next acceptance
number; a write from any other source is refused with reason SOURCE. R194, R201: an abort by slot, by tag or of all frees every WAITING or READY target and makes every RUNNING target's Span drain; where
nothing can be aborted it is refused with ABORT_NONE, and from any source but a pier with SOURCE. -/
def Obligations.SubmissionsAndAborts : Prop :=
  Sys2Proof.Claims.SubmissionsTakeSlots ∧ Sys2Proof.Claims.AbortsEndTheirTargets

/-! ## Deck, DMA, Viaduct (spec/08, spec/09, spec/22) -/

namespace Sys2Proof.Claims

/-- The command answers a next state of which `P` holds. -/
def Does (i : Instr) (s : State) (P : State → Prop) : Prop := ∃ t, exec i s = .next t ∧ P t

/-- The event a block raises where its enable is 1 (R38). -/
def ev (s : State) (p : Fd × Fd) : List (Fin 64) := if s.on p.2 then [Fin.ofNat 64 (s.rf p.1)] else []

/-- Nothing changes but registers among `as` and the events `es` now in flight. -/
def Regs (s t : State) (as : List Nat) (es : List (Fin 64)) : Prop :=
  t = { s with io := t.io, net := { s.net with events := s.net.events ++ es } } ∧ ∀ a, a ∉ as → t.reg a = s.reg a

/-- The registers in which a block shows a refusal. -/
def refuseRegs (r : RefuseAt) : List Nat := r.refused.addr :: (match r.reason with | some f => [f.addr] | none => [])

/-- R13: the command is refused: REFUSED becomes 1, REASON tells why, the event is raised where enabled; nothing else changes, but for
registers among `also`. -/
def Refuses (i : Instr) (s : State) (r : RefuseAt) (reason : Nat) (also : List Nat := []) : Prop :=
  Does i s (fun t => Regs s t (refuseRegs r ++ also) (match r.event with | some p => ev s p | none => []) ∧
    t.rf r.refused = 1 ∧ ∀ f, r.reason = some f → t.rf f = reason)

/-- A count one higher, saturating (R16 of a count). -/
def Counted (s t : State) (f : Fd) : Prop := t.rf f = min (2 ^ f.width - 1) (s.rf f + 1)

/-- No word that the `n` bytes at Deck offset `off` touch is poisoned. -/
def Clean (s : State) (off n : Nat) : Prop := ∀ x, off ≤ x → x < off + n → s.eccOf (x / 8) ≠ 2

/-- Bytes stored in a memory kept as a map from bytes nothing has written reading 0. -/
def Stored (m m' : List Host.Cell) (a n v : Nat) : Prop :=
  ∀ x, SMap.get m' 0 x = if a ≤ x ∧ x < a + n then BitVec.ofNat 8 (v / 256 ^ (x - a)) else SMap.get m 0 x

/-- What each request does at its destination and what is answered: reads give the bytes, writes store them, a poisoned word answers
POISON (R208 to R210), a register is read or written (R536) or, for a sampled read, only looked at (R357), a port's FIFO gives or takes bytes
(R447), a page buffer in use is BUSY. -/
def Served (s t : State) (who : Who) (p : Resp) : NetOp → Prop
  | .deckRd off n => t.deck = s.deck ∧ (Clean s off n → p = .data (s.deckPeek off n)) ∧
      (∀ x, off ≤ x → x < off + n → s.eccOf (x / 8) = 2 → p = .err .poison)
  | .deckWr off n v => (Clean s off n → p = .ack 0 ∧ ∀ x, t.deckByte x =
      if off ≤ x ∧ x < off + n then BitVec.ofNat 8 (v / 256 ^ (x - off)) else s.deckByte x) ∧
      (0 < n → n < 8 → off % 8 + n ≤ 8 → s.eccOf (off / 8) = 2 → p = .err .poison ∧ t.deck = s.deck)
  | .mboxRd k off n => t = s ∧ p = .data (getBytes s.mbox (0x1000 * k + off) n)
  | .mboxWr k off n v => t = { s with mbox := t.mbox } ∧ p = .ack 0 ∧ Stored s.mbox t.mbox (0x1000 * k + off) n v
  | .spadRd k off n => t = s ∧ p = .data (getBytes s.spad (0x10000 * k + off) n)
  | .spadWr k off n v => t = { s with spad := t.spad } ∧ p = .ack 0 ∧ Stored s.spad t.spad (0x10000 * k + off) n v
  | .ioRd a => match who with
      | .sample _ => t = s ∧ p = .data (s.sampleWord a).toNat
      | _ => t = (s.busRead who.src a).2 ∧ p = .data (s.busRead who.src a).1.toNat
  | .ioWr a v => t = (s.busWrite who.src a v).st ∧ p = .ack (s.busWrite who.src a v).code
  | .portRd a n false => t = { s with cvp := t.cvp } ∧ p = .data (ofBytes (((s.cvpPort a).fifo.take n).map BitVec.toNat)) ∧
      (t.cvpPort a).fifo = (s.cvpPort a).fifo.drop n
  | .portWr a n v false => t = { s with cvp := t.cvp } ∧ p = .ack 0 ∧
      (t.cvpPort a).fifo = (s.cvpPort a).fifo ++ (List.range n).map (fun k => BitVec.ofNat 8 (v / 256 ^ k))
  | .portRd a n true => t = s ∧
      p = if s.bufOwned (a / 0x8000) then .busy else .data (getBytes s.flc.bufs (0x2000 * (a / 0x8000) + a % 0x2000) n)
  | .portWr a n v true => if s.bufOwned (a / 0x8000) then t = s ∧ p = .busy
      else p = .ack 0 ∧ Stored s.flc.bufs t.flc.bufs (0x2000 * (a / 0x8000) + a % 0x2000) n v

/-- The commands of a request's arrival and the requests they are for (Table via-10). -/
def arrivalRows : List ((Nat → Damage → Nat → Instr) × (Req → Bool)) :=
  [(fun id d _ => .inPacket id d, fun r => match r.op with | .ioRd _ => true | _ => false),
   (fun id d _ => .outPacket id d, fun r => match r.op with | .ioWr _ _ => true | _ => false),
   (fun id d _ => .drd id d, fun r => match r.op with | .portRd _ _ _ => true | _ => false),
   (.rd, fun r => match r.op with | .deckRd _ _ => true | .mboxRd _ _ _ => true | .spadRd _ _ _ => true | _ => false),
   (.wrInline, fun r => match r.op with
      | .deckWr _ n _ => !r.isDma && decide (n ≤ 8) | .mboxWr _ _ n _ => !r.isDma && decide (n ≤ 8)
      | .spadWr _ _ n _ => !r.isDma && decide (n ≤ 8) | _ => false),
   (.bulkWrite, fun r => match r.op with
      | .deckWr _ n _ => r.isDma || decide (8 < n) | .mboxWr _ _ n _ => r.isDma || decide (8 < n)
      | .spadWr _ _ n _ => r.isDma || decide (8 < n) | .portWr _ _ _ _ => true | _ => false)]

/-- Request `r` is sent, and neither answered nor lost. -/
def OnItsWay (s : State) (r : Req) : Prop := s.req r.id = some r ∧ r.sent = true ∧ r.resp = none ∧ r.lost = false

/-- Only request `r` changes among the requests in the network. -/
def OnlyReq (s t : State) (r r' : Req) : Prop :=
  t.net = { s.net with reqs := t.net.reqs } ∧ t.net.reqs = s.net.reqs.map (fun x => if x.id = r.id then r' else x)

/-- Request `r` is answered `p` in state `s`: its packet goes on VC 1 by the entry for the requester, or, where that entry is invalid, the
response is lost and counted (R237). -/
def NetReplied (s t : State) (r : Req) (p : Resp) : Prop :=
  let b := r.backRoute
  let ok := s.routeOk b.1 b.2
  t = { s with io := t.io, net := t.net } ∧ (∀ a, a ≠ Reg.VIA_ROUTE_ERR_CNT_at → t.reg a = s.reg a) ∧
  t.rf Reg.VIA_ROUTE_ERR_CNT.COUNT = min (2 ^ 32 - 1) (s.rf Reg.VIA_ROUTE_ERR_CNT.COUNT + b2n (!ok)) ∧
  t.net = { s.net with
    reqs := s.net.reqs.map (fun x => if x.id = r.id then (if ok then { r with resp := some p } else { r with lost := true }) else x),
    fab := if ok then s.net.fab.launch ⟨r.id, true, 1, r.backLen p + 1, netPath s.grade r.op.lattice (s.route b.1 b.2) b.1 r.dstIsl
      (if r.op.lattice then 2 * (r.ni % 16) + r.ni / 16 else r.ni - 32) r.isl, 0⟩ else s.net.fab }

/-- State `u` is `s` with a count one higher. -/
def OneMore (s u : State) (f : Fd) : Prop := u = { s with io := u.io } ∧ Counted s u f ∧ ∀ a, a ≠ f.addr → u.reg a = s.reg a

end Sys2Proof.Claims

/-- R208 to R210, R227, R232, R235 to R237, R243, R244, R250, R447: a request on its way is brought through the network first, where each link
grants a flit at a time; at its NI it waits for the requests before it, the destination's resources and the bank's order; a malformed one is
counted, at its gauge too, and answered MALFORMED where its SRC is kept; a shell that is not ONLINE answers OFFLINE; else it is served and answered. -/
def Obligations.ArrivingRequestsAreServed : Prop :=
  (∀ f : Fab, (f.grants.map Want.link).Nodup ∧ ∀ w ∈ f.grants, w ∈ f.wants ∧
    (∀ h, f.holder w.key = some h → h = (w.flit.id, w.flit.resp)) ∧ (f.holder w.key = none → w.flit.ix = 0) ∧
    (linkLattice w.link = true → linkEject w.link = false → 1 ≤ f.credit w.key) ∧
    (linkRing w.link = true → w.flit.ix = 0 →
      (if ∃ k, w.src = some k ∧ linkRing (k / 8) = true then w.len else 10) ≤ f.credit w.key) ∧
    (∀ x ∈ f.wants, x.link = w.link → f.mayGo x = true → x.vc = 1 → w.vc = 1)) ∧
  ∀ (s : State) (r : Req) (d : Damage) (w : Nat), ∀ e ∈ arrivalRows, e.2 r = true → OnItsWay s r →
    (r.place = .away → ∀ pl, pl ≠ .away → (s.bring (r.id, false)).req r.id = some { r with place := pl } →
      exec (e.1 r.id d w) s = exec (e.1 r.id d w) (s.bring (r.id, false))) ∧
    (r.place ≠ .away → earlier s.net.reqs r = true → exec (e.1 r.id d w) s = .next s) ∧
    (r.place ≠ .away → earlier s.net.reqs r = false → r.bad d = true →
      let g := gaugeAt r.backRoute.1
      Does (e.1 r.id d w) s (fun t => Counted s t Reg.VIA_MALFORMED_CNT.COUNT ∧
        (∀ k, g = some k → s.gauLive k = true → s.on (Reg.GAU_CTL.EN k) = true → Counted s t (Reg.GAU_CNT.COUNT k 4)) ∧
        (∀ a, a ∉ [Reg.VIA_MALFORMED_CNT_at, Reg.VIA_ROUTE_ERR_CNT_at, Reg.GAU_CNT_at (g.getD 0) 4] → t.reg a = s.reg a) ∧
        (if r.srcKept d = true then NetReplied (s.discard r.backRoute.1) t r (.err .malformed)
         else t.net.reqs = s.net.reqs.map (fun x => if x.id = r.id then { r with lost := true } else x)))) ∧
    (r.place = .shell → earlier s.net.reqs r = false → r.bad d = false →
      let u := s.incSat Reg.VIA_OFFLINE_CNT.COUNT
      OneMore s u Reg.VIA_OFFLINE_CNT.COUNT ∧ Does (e.1 r.id d w) s (fun t => NetReplied u t r (.err .offline))) ∧
    (∀ n, r.place = .core n → earlier s.net.reqs r = false → r.bad d = false →
      ((s.mustWait r.op = true ∨ s.bankTaken r w = true) → exec (e.1 r.id d w) s = .next s) ∧
      (s.mustWait r.op = false → s.bankTaken r w = false →
        let q := (s.notePromoted r w).serveReq r
        let v := q.2.respond r q.1
        Served (s.notePromoted r w) q.2 r.who q.1 r.op ∧ (q.2.req r.id = some r → NetReplied q.2 v r q.1) ∧
        exec (e.1 r.id d w) s = .next (if r.op.lattice = true ∧ r.vc = 3 then v.dispResume else v)))

namespace Sys2Proof.Claims

/-- A loaded value of `n` bytes, its sign extended or not (R77). -/
def loaded (n : Nat) (sg : Bool) (v : Nat) : Word := if sg then BitVec.ofInt 32 (lint (8 * n) v) else BitVec.ofNat 32 v

/-- G registers with the post-increment of an access that ends (R76). -/
def posted (post : Option (RegIx × Word)) (g : RegIx → Word) (r : RegIx) : Word :=
  if r = 0 then 0 else match post with
    | some (b, x) => if r = b then x else g r
    | none => g r

/-- Registers of thread `n` after access `a` of thread `o` ends with data `v`. -/
def Landed (a : Access) (o n : Thread) (v : Nat) : Prop :=
  match a.kind with
  | .loadG rd k sg => (∀ r, n.rg r = posted a.post (fun x => if x = rd then loaded k sg v else o.rg x) r) ∧ n.f = o.f ∧ n.w = o.w
  | .loadF rd k => (∀ r, n.rg r = posted a.post o.rg r) ∧ (∀ r, n.rf r = if r = rd then BitVec.ofNat 64 (v % 2 ^ (8 * k)) else o.rf r) ∧ n.w = o.w
  | .loadW wd => (∀ r, n.rg r = posted a.post o.rg r) ∧ n.f = o.f ∧ ∀ r, n.rw r = if r = wd then BitVec.ofNat 256 v else o.rw r
  | .iload rd rs => (∀ r, n.rg r = posted a.post (fun x => if x = rs then o.rg rs + 8 else if x = rd then o.rg rd + 8 else o.rg x) r) ∧ n.f = o.f ∧ n.w = o.w
  | .ioIn rd => (∀ r, n.rg r = posted a.post (fun x => if x = rd then BitVec.ofNat 32 v else o.rg x) r) ∧ n.f = o.f ∧ n.w = o.w
  | .store => (∀ r, n.rg r = posted a.post o.rg r) ∧ n.f = o.f ∧ n.w = o.w
  | .ioOut => (∀ r, n.rg r = posted a.post o.rg r) ∧ n.f = o.f ∧ n.w = o.w

/-- A response is at the shell of a request whose tag is still good (R248, R249), no request of the island waiting for a tag. -/
def Answered (s : State) (r : Req) (p : Resp) : Prop :=
  s.req r.id = some r ∧ r.resp = some p ∧ r.back = true ∧ r.stale = false ∧ r.gen = (s.shell r.isl).gen ∧
    ∀ x ∈ s.net.reqs, x.isl = r.isl → x.held = false

/-- The request is gone and the network is otherwise as it was. -/
def Gone (s t : State) (r : Req) : Prop := t.net = { s.net with reqs := s.net.reqs.filter (fun x => x.id != r.id) }

/-- A thread waiting for an access, with nothing else about it. -/
structure Waits (s : State) (th : Thr) (a : Access) : Prop where
  acc : (s.thr th).acc = some a
  noRepeat : (s.thr th).rep = none
  noTpend : (s.thr th).tpend = 0
  plain : (s.thr th).viaGret = false ∧ (s.thr th).pendL = none ∧ (s.thr th).pendH = none

/-- SUB of the cause an error response raises (R130). -/
def subOf (x : RespErr) : Nat := match x with | .offline => 1 | .route => 2 | .malformed => 3 | .timeout => 4 | .poison => 5
/-- Its code: IO_ERROR, IO_TIMEOUT or ECC (Table pier-3). -/
def codeOf (x : RespErr) : Nat := match x with | .timeout => 0x07 | .poison => 0x14 | _ => 0x06

/-- Data `v` or an acknowledgement end access `a` of thread `th`: its registers are written and it retires. -/
def Ends (s t : State) (r : Req) (th : Thr) (a : Access) (v : Nat) : Prop :=
  let o := s.thr th
  Gone s t r ∧ OnlyThread { s with net := t.net, ispace := t.ispace } t th 0 ∧
  (∀ rd rs, a.kind = .iload rd rs → Stored s.ispace t.ispace (0x20000 * th.pier.val + (o.rg rd).toNat) 8 v) ∧
  ((∀ rd rs, a.kind ≠ .iload rd rs) → t.ispace = s.ispace) ∧ Landed a o (t.thr th) v ∧
  t.thr th = { retired { o with acc := none } (o.pc + 4) with g := (t.thr th).g, f := (t.thr th).f, w := (t.thr th).w }

/-- A response to a STALE tag or one of an earlier generation is consumed and counted. -/
def Late (i : Instr) (s : State) (r : Req) : Prop :=
  Does i s (fun t => t = { s with io := t.io, net := t.net } ∧ Gone s t r ∧ Counted s t Reg.VIA_LATE_CNT.COUNT ∧
    ∀ a, a ≠ Reg.VIA_LATE_CNT_at → t.reg a = s.reg a)

/-- The commands of a response's arrival, by what it is. -/
def responseRows : List ((Nat → Damage → Instr) × (Resp → Bool)) :=
  [(.readResponse, fun p => match p with | .data _ => true | _ => false),
   (.writeAcknowledgement, fun p => match p with | .ack _ => true | _ => false),
   (.errorResponse, fun p => match p with | .err _ => true | .busy => true | _ => false)]

end Sys2Proof.Claims

/-- R45 to R47, R130, R136, R244, R248, R249: READ_RESPONSE and WRITE_ACKNOWLEDGEMENT end the access: its registers are written and it retires;
ERROR_RESPONSE raises the response's cause, EPC naming the access, after any deferred store error; a Deck store's is deferred. A response on
its way is brought through the network first; a malformed one is counted and lost; one to a STALE or earlier tag is only counted; and a freed
tag goes to the first request of the island that waits for one. -/
def Sys2Proof.Claims.ResponsesEndAccesses : Prop :=
  ∀ (s : State) (r : Req) (p : Resp),
    (Answered s r p → ∀ (th : Thr) (a : Access), r.who = .access th → Waits s th a →
      let o := s.thr th
      (∀ v, p = .data v → (∀ rd k sg, a.kind = .loadG rd k sg → v < 256 ^ k) →
        Does (.readResponse r.id .none) s (fun t => Ends s t r th a v)) ∧
      (∀ c, p = .ack c → Does (.writeAcknowledgement r.id .none) s (fun t => Ends s t r th a 0)) ∧
      (∀ x, p = .err x → o.exl = false → Does (.errorResponse r.id .none) s (fun t =>
        t = { s with threads := t.threads, net := t.net } ∧ Gone s t r ∧ (∀ u, u ≠ th → t.thr u = s.thr u) ∧
        (o.defErrs = [] → Entered o (t.thr th) (codeOf x) (subOf x) a.einfo o.pc (s.reg (Reg.PIER_ENTRY_at th.pier.val))) ∧
        (∀ y rest, o.defErrs = y :: rest → (t.thr th).defErrs = rest ∧
          Entered o (t.thr th) (0x10000 + codeOf y.err) (subOf y.err) y.addr o.pc (s.reg (Reg.PIER_ENTRY_at th.pier.val)))))) ∧
    (Answered s r p → ∀ (th : Thr) (a : Word), r.who = .store th a →
      (∀ c, p = .ack c → Does (.writeAcknowledgement r.id .none) s (fun t => t = { s with threads := t.threads, net := t.net } ∧ Gone s t r ∧
        t.thr th = { s.thr th with stores := (s.thr th).stores - 1 } ∧ ∀ u, u ≠ th → t.thr u = s.thr u)) ∧
      (∀ x, p = .err x → Does (.errorResponse r.id .none) s (fun t => t = { s with threads := t.threads, net := t.net } ∧ Gone s t r ∧
        t.thr th = { s.thr th with stores := (s.thr th).stores - 1, defErrs := (s.thr th).defErrs ++ [⟨a, x⟩] } ∧
        ∀ u, u ≠ th → t.thr u = s.thr u))) ∧
    (s.req r.id = some r → r.resp = some p → ∀ e ∈ responseRows, e.2 p = true →
      (r.back = false → ∀ d, (s.bring (r.id, true)).req r.id = some { r with back := true } →
        exec (e.1 r.id d) s = exec (e.1 r.id d) (s.bring (r.id, true))) ∧
      (r.back = true → r.sent = true → (r.stale = true ∨ r.gen ≠ (s.shell r.isl).gen) → (∀ x ∈ s.net.reqs, x.isl = r.isl → x.held = false) →
        Late (e.1 r.id .none) s r) ∧
      (∀ d, r.back = true → r.sent = true → s.backBad r p d = true → Does (e.1 r.id d) s (fun t =>
        Counted s t Reg.VIA_MALFORMED_CNT.COUNT ∧ t.threads = s.threads ∧
        OnlyReq s t r { r with resp := none, lost := true })) ∧
      (∀ (pre post : List Req) (x : Req), r.back = true → r.sent = true → r.stale = true → s.online r.isl = true →
        s.net.reqs.filter (fun y => y.id != r.id) = pre ++ x :: post → x.isl = r.isl → x.held = true →
        (∀ y ∈ pre, y.isl = r.isl → y.held = false) → (s.dropReq r.id).tagFree x.ni r.isl = true →
        Does (e.1 r.id .none) s (fun t => ∃ y ∈ t.net.reqs, y.id = x.id ∧ y.held = false)))

/-- R248, R251: a request without a response in VIA_REQ_TIMEOUT is counted, answered TIMEOUT by its own shell, its tag STALE; a quiesce that
times out answers OFFLINE what the core has accepted and abandons what it awaits; a shell with nothing outstanding is OFFLINE, its side's
credits in escrow (R252), and with the last one the island is. -/
def Sys2Proof.Claims.TimeoutsAndQuiesceEnd : Prop :=
  (∀ (s : State) (r : Req), s.req r.id = some r → r.sent = true → r.stale = false → r.back = false →
    (∀ th a, r.who = .store th a → Does (.requestTimeout r.id) s (fun t =>
      t = { s with io := t.io, threads := t.threads, net := t.net } ∧ OnlyReq s t r { r with stale := true } ∧
      Counted s t Reg.VIA_TIMEOUT_CNT.COUNT ∧ (∀ x, x ≠ Reg.VIA_TIMEOUT_CNT_at → t.reg x = s.reg x) ∧
      t.thr th = { s.thr th with stores := (s.thr th).stores - 1, defErrs := (s.thr th).defErrs ++ [⟨a, .timeout⟩] } ∧
      (∀ u, u ≠ th → t.thr u = s.thr u))) ∧
    (∀ th a, r.who = .access th → Waits s th a → (s.thr th).exl = false → (s.thr th).defErrs = [] → Does (.requestTimeout r.id) s (fun t =>
      OnlyReq s t r { r with stale := true } ∧ Counted s t Reg.VIA_TIMEOUT_CNT.COUNT ∧
      Entered (s.thr th) (t.thr th) 0x07 4 a.einfo (s.thr th).pc (s.reg (Reg.PIER_ENTRY_at th.pier.val))))) ∧
  (∀ (s : State) (isl : Fin 30), (s.shell isl.val).st = .quiesce →
    ((∀ r ∈ s.net.reqs, r.isl = isl.val → ∃ th a, r.who = .store th a) →
      Does (.quiesceTimeout isl) s (fun t => (t.shell isl.val).st = .offline ∧
        (∀ r ∈ s.net.reqs, r.isl = isl.val → r.sent = true → ∃ r' ∈ t.net.reqs, r'.id = r.id ∧ r'.stale = true) ∧
        (∀ r ∈ s.net.reqs, s.req r.id = some r → r.accepted isl.val = true →
          ∃ r' ∈ t.net.reqs, r'.id = r.id ∧ (r'.resp = some (.err .offline) ∨ r'.lost = true)))) ∧
    (∀ ni : Fin 56, ni.val ∈ s.openNis isl.val → s.niQuiet isl.val ni.val = true →
      Does (.shellOffline isl ni) s (fun t =>
        (∀ k, k ≠ isl.val → t.shell k = s.shell k) ∧ (∀ r ∈ s.net.reqs, r.isl ≠ isl.val → r ∈ t.net.reqs) ∧
        (t.shell isl.val).off = ni.val :: (s.shell isl.val).off ∧
        SMap.get (t.shell isl.val).escrow 0 ni.val = s.net.fab.owedWord (niLink ni.val isl.val) ∧
        (t.shell isl.val).st = if (s.openNis isl.val).all (fun n => n == ni.val) then .offline else .quiesce)))

/-- R45 to R47, R130, R136, R244, R248, R249: READ_RESPONSE and WRITE_ACKNOWLEDGEMENT end the access: its registers are written and it retires;
ERROR_RESPONSE raises the response's cause, EPC naming the access, after any deferred store error; a Deck store's is deferred. A response on
its way is brought through the network first; a malformed one is counted and lost; one to a STALE or earlier tag is only counted; and a freed
tag goes to the first request of the island that waits for one. R248, R251: a request without a response in VIA_REQ_TIMEOUT is counted, answered TIMEOUT by its own shell, its tag STALE; a quiesce that
times out answers OFFLINE what the core has accepted and abandons what it awaits; a shell with nothing outstanding is OFFLINE, its side's
credits in escrow (R252), and with the last one the island is. -/
def Obligations.ResponsesTimeoutsAndQuiesce : Prop :=
  Sys2Proof.Claims.ResponsesEndAccesses ∧ Sys2Proof.Claims.TimeoutsAndQuiesceEnd

namespace Sys2Proof.Claims

/-- The registers a broadcast may change: `mine` of each pier, and the counts of drops and of broadcasts no pier accepted. -/
def castRegs (mine : Nat → List Nat) : List Nat :=
  [Reg.VIA_EV_DROP_CNT_at, Reg.VIA_EV_DROP_PIER_at, Reg.VIA_EV_NOACC_CNT_at] ++ (List.range 16).flatMap mine

end Sys2Proof.Claims

/-- R66, R133, R135, R229, R244: a broadcast event becomes pending at every ONLINE pier that accepts it, or is counted there as merged; a system
cause becomes pending in every thread whose mask bit is 1, its EINFO the latest; SPAN_FAULT in its thread, a second one counted lost, behind
the earlier ones to its pier (R236). A malformed one is counted where it is discarded. -/
def Obligations.BroadcastsReachPiers : Prop :=
  (∀ (s : State) (i : Nat) (d : Damage) (stop : Fin 24) (e : Fin 64), s.net.events[i]? = some e → (∀ u, (s.thr u).run ≠ .waiting) →
    (castBad d (castFlits tyEvent e.val 0 0) = false → Does (.event i d stop) s (fun t =>
      t = { s with io := t.io, net := { s.net with events := s.net.events.eraseIdx i } } ∧
      (∀ p : PierIx, s.online p.val = true →
        t.evPending p.val e.val = (s.evPending p.val e.val || s.accepts p.val e.val) ∧
        (∀ x : Fin 64, x ≠ e → t.evPending p.val x.val = s.evPending p.val x.val) ∧
        (s.evPending p.val e.val = true → s.accepts p.val e.val = true → Counted s t (Reg.PIER_EVCOAL.COUNT p.val))) ∧
      (∀ p : PierIx, s.grade.hasIsland p.val = true → s.online p.val = false → t.bit Reg.VIA_EV_DROP_PIER.PIER p.val = true) ∧
      ((∀ p : PierIx, s.online p.val = true → s.accepts p.val e.val = false) → Counted s t Reg.VIA_EV_NOACC_CNT.COUNT) ∧
      (∀ a, a ∉ castRegs (fun p => [Reg.PIER_EVPEND_LO_at p, Reg.PIER_EVPEND_HI_at p, Reg.PIER_EVCOAL_at p]) → t.reg a = s.reg a))) ∧
    (castBad d (castFlits tyEvent e.val 0 0) = true → Does (.event i d stop) s (fun t => Counted s t Reg.VIA_MALFORMED_CNT.COUNT ∧
      (∀ p : PierIx, stop.val ≤ p.val → t.evPending p.val e.val = s.evPending p.val e.val)))) ∧
  (∀ (s : State) (i : Nat) (d : Damage) (stop : Fin 24) (c : SysCause) (info : Word) (sub : Nat), s.net.causes[i]? = some (c, info, sub) →
    (castBad d (castFlits tyCause c.code 0 0) = false → Does (.syscause i d stop) s (fun t =>
      t = { s with io := t.io, threads := t.threads, net := { s.net with causes := s.net.causes.eraseIdx i } } ∧
      (∀ a, a ∉ castRegs (fun p => [Reg.PIER_SYSPEND_at p]) → t.reg a = s.reg a) ∧
      ∀ th : Thr, s.online th.pier.val = true → (c = .wdt → th.pier = 0) →
        let k := (match c with | .wdt => 0 | .abutment => 8 | .thermal => 16 | .debt => 24) + th.th.val
        if getBits (s.reg (Reg.PIER_SYSMASK_at th.pier.val)) k 1 = 1 then
          t.bit (Reg.PIER_SYSPEND.PEND th.pier.val) k = true ∧ (c = .abutment → (t.thr th).infoAbt = info) ∧
          (c = .thermal → (t.thr th).infoThm = info) ∧ (c = .debt → (t.thr th).infoDebt = info ∧ (t.thr th).debtSub = sub)
        else t.bit (Reg.PIER_SYSPEND.PEND th.pier.val) k = s.bit (Reg.PIER_SYSPEND.PEND th.pier.val) k ∧ t.thr th = s.thr th)) ∧
    (castBad d (castFlits tyCause c.code 0 0) = true → Does (.syscause i d stop) s (fun t => Counted s t Reg.VIA_MALFORMED_CNT.COUNT))) ∧
  (∀ (s : State) (i : Nat) (d : Damage) (th : Thr) (info : Word), s.net.spanFaults[i]? = some (th, info) →
    let s' := { s with net := { s.net with spanFaults := s.net.spanFaults.eraseIdx i } }
    let bad := castBad d (castFlits tySpanFault 0 1 (info.toNat + 2 ^ 24 * th.th.val))
    if (s.net.spanFaults.take i).any (fun e => e.1.pier == th.pier) = true then exec (.spanfault i d) s = .next s
    else
      (bad = true → Does (.spanfault i d) s (fun t => t.threads = s.threads ∧ Counted s t Reg.VIA_MALFORMED_CNT.COUNT ∧
        t.bit (Reg.PIER_SPF.PEND th.pier.val) th.th.val = s.bit (Reg.PIER_SPF.PEND th.pier.val) th.th.val)) ∧
      (bad = false → s.online th.pier.val = false → Does (.spanfault i d) s (fun t => t = { s' with io := t.io } ∧
        Counted s t Reg.VIA_EV_DROP_CNT.COUNT ∧ t.bit Reg.VIA_EV_DROP_PIER.PIER th.pier.val = true)) ∧
      (bad = false → s.online th.pier.val = true →
        (s.bit (Reg.PIER_SPF.PEND th.pier.val) th.th.val = false → Does (.spanfault i d) s (fun t =>
          t = { s' with io := t.io, threads := t.threads } ∧ t.bit (Reg.PIER_SPF.PEND th.pier.val) th.th.val = true ∧
          (∀ a, a ≠ Reg.PIER_SPF_at th.pier.val → t.reg a = s.reg a) ∧
          t.thr th = { s.thr th with infoSpan := info } ∧ ∀ u, u ≠ th → t.thr u = s.thr u)) ∧
        (s.bit (Reg.PIER_SPF.PEND th.pier.val) th.th.val = true → Does (.spanfault i d) s (fun t =>
          t = { s' with io := t.io } ∧ Counted s t (Reg.PIER_SPF.LOST th.pier.val) ∧
          ∀ a, a ≠ Reg.PIER_SPF_at th.pier.val → t.reg a = s.reg a))))

/-- R212: DECK_INIT.START leaves every word of the quarter at the pattern with valid check bits and no other quarter changed; while INIT_BUSY
is 1 it is refused; at the end INIT_BUSY is 0 and INIT_DONE 1. -/
def Sys2Proof.Claims.DeckInitialisationFillsQuarter : Prop :=
  ∀ (q : QIx) (s : State),
    (s.online (16 + q.val) = true → s.on (Reg.DECK_STATUS.INIT_BUSY q.val) = false → Does (.deckInitStart q) s (fun t =>
      t.on (Reg.DECK_STATUS.INIT_BUSY q.val) = true ∧
      t = { s with io := t.io, deck := t.deck, ecc := t.ecc, scrubs := t.scrubs, fills := t.fills, inits := t.inits } ∧
      (∀ a, a ≠ Reg.DECK_STATUS_at q.val → t.reg a = s.reg a) ∧
      ∀ a, a < 0x2000000 → if a / 0x800000 = q.val then
          t.deckByte a = BitVec.ofNat 8 (getBits (s.reg (Reg.DECK_INIT_PAT_at q.val)) (8 * (a % 4)) 8) ∧ t.eccOf (a / 8) = 0
        else t.deckByte a = s.deckByte a ∧ t.eccOf (a / 8) = s.eccOf (a / 8))) ∧
    (s.online (16 + q.val) = true → s.on (Reg.DECK_STATUS.INIT_BUSY q.val) = true → Refuses (.deckInitStart q) s (deckRefuse q.val) 0) ∧
    (s.on (Reg.DECK_STATUS.INIT_BUSY q.val) = true → (∀ k, k < 256 → (s.slot k).st = .free ∨ (s.slot k).st = .running) →
      Does (.deckInitDone q) s (fun t =>
        t = { s with io := t.io, inits := t.inits } ∧ t.on (Reg.DECK_STATUS.INIT_BUSY q.val) = false ∧
        t.on (Reg.DECK_STATUS.INIT_DONE q.val) = true ∧ ∀ a, a ≠ Reg.DECK_STATUS_at q.val → t.reg a = s.reg a))

/-- R208, R209, R211: a scrub write-back waits for the requests at its bank; it clears the word's bit errors and is counted, or leaves those of the injection armed for the word, which
disarms; DECK_ECC_INJ takes a mode and a word of its quarter, and refuses MODE 3 and a word of another. -/
def Sys2Proof.Claims.ScrubsAndErrorInjection : Prop :=
  (∀ (w : Nat) (s : State), w < 0x400000 → w ∈ s.scrubs → s.bankWanted (8 * w) = true → exec (.scrubWriteBack w) s = .next s) ∧
  (∀ (w : Nat) (s : State), w < 0x400000 → w ∈ s.scrubs → s.on (Reg.DECK_STATUS.INIT_BUSY (w / 0x100000)) = false →
    s.bankWanted (8 * w) = false →
    let q := w / 0x100000
    let armed := s.rf (Reg.DECK_ECC_INJ.MODE q) ≠ 0 ∧ s.rf (Reg.DECK_ECC_INJ.WORD q) = w
    Does (.scrubWriteBack w) s (fun t =>
      t = { s with io := t.io, ecc := t.ecc, scrubs := s.scrubs.filter (fun x => x != w) } ∧
      Counted s t (Reg.DECK_SCRUB_CNT.COUNT q) ∧ (∀ x, x ≠ w → t.eccOf x = s.eccOf x) ∧
      (armed → t.eccOf w = s.rf (Reg.DECK_ECC_INJ.MODE q) ∧ t.rf (Reg.DECK_ECC_INJ.MODE q) = 0) ∧
      (¬ armed → t.eccOf w = 0 ∧ t.reg (Reg.DECK_ECC_INJ_at q) = s.reg (Reg.DECK_ECC_INJ_at q)))) ∧
  (∀ (q : QIx) (v : Word) (s : State), s.online (16 + q.val) = true →
    let mode := getBits v 0 2
    let w := getBits v 3 22
    (mode = 3 ∨ (mode ≠ 0 ∧ w / 0x100000 ≠ q.val) → Refuses (.deckEccInjWrite q v) s (deckRefuse q.val) 0) ∧
    (mode = 0 ∨ (mode < 3 ∧ w / 0x100000 = q.val) → Does (.deckEccInjWrite q v) s (fun t =>
      Regs s t [Reg.DECK_ECC_INJ_at q.val] [] ∧ t.rf (Reg.DECK_ECC_INJ.MODE q.val) = mode ∧ t.rf (Reg.DECK_ECC_INJ.WORD q.val) = w)))

/-- R212: DECK_INIT.START leaves every word of the quarter at the pattern with valid check bits and no other quarter changed; while INIT_BUSY
is 1 it is refused; at the end INIT_BUSY is 0 and INIT_DONE 1. R208, R209, R211: a scrub write-back waits for the requests at its bank; it clears the word's bit errors and is counted, or leaves those of the injection armed for the word, which
disarms; DECK_ECC_INJ takes a mode and a word of its quarter, and refuses MODE 3 and a word of another. -/
def Obligations.DeckInitialisationAndErrors : Prop :=
  Sys2Proof.Claims.DeckInitialisationFillsQuarter ∧ Sys2Proof.Claims.ScrubsAndErrorInjection

/-- R31, R213, R214, R217, R221, R222: the engine serves a ready channel with PRIO first, and among equals the next in turn; an IDLE channel starts by fetching 32 bytes at DMA_CH_DESC, or ends with DESC outside the Deck; STOP makes a
running one STOPPING, which ends, stopped, with nothing outstanding; DMA_CH_DESC takes an address while IDLE; anything else is refused. -/
def Sys2Proof.Claims.DmaChannelsStartAndStop : Prop :=
  ∀ (c : Fin 16) (stop prio : Bool) (v : Word) (s : State),
    let a := s.rf (Reg.DMA_CH_DESC.ADDR c.val) / 32 * 32
    (s.dmaState c.val = 0 →
      (a < s.grade.deckBytes → Does (.dmaStart c false prio) s (fun t => t.dmaState c.val = 1 ∧ (t.dmaCh c.val).fetch = .waiting ∧
        t = { s with io := t.io, dma := t.dma, net := t.net } ∧ (∀ d, d ≠ c.val → t.dmaCh d = s.dmaCh d) ∧
        Sends s t 16 (16 + deckGroup a) 3 (.dmaDesc c ((s.dmaCh c.val).epoch + 1)) (.deckRd a 32))) ∧
      (s.grade.deckBytes ≤ a → Does (.dmaStart c false prio) s (fun t => t.dmaState c.val = 0 ∧ t.rf (Reg.DMA_CH_STAT.END c.val) = 3 ∧
        t.rf (Reg.DMA_CH_STAT.ERR c.val) = 1 ∧ t.bit Reg.DMA_ERR.CH c.val = true ∧ t.net.reqs = s.net.reqs)) ∧
      Does (.dmaChDescWrite c v) s (fun t => Regs s t [Reg.DMA_CH_DESC_at c.val] [] ∧ t.rf (Reg.DMA_CH_DESC.ADDR c.val) = v.toNat / 32 * 32) ∧
      Refuses (.dmaStop c prio) s dmaRefuse 0 [Reg.DMA_CH_CTL_at c.val] ∧ Refuses (.dmaStart c true prio) s dmaRefuse 0 [Reg.DMA_CH_CTL_at c.val]) ∧
    (s.dmaState c.val ≠ 0 →
      Does (.dmaStop c prio) s (fun t => Regs s t [Reg.DMA_CH_STAT_at c.val, Reg.DMA_CH_CTL_at c.val] [] ∧ t.dmaState c.val = 2) ∧
      Refuses (.dmaStart c stop prio) s dmaRefuse 0 [Reg.DMA_CH_CTL_at c.val] ∧ Refuses (.dmaChDescWrite c v) s dmaRefuse 0) ∧
    (s.dmaState c.val = 2 → (s.dmaCh c.val).got = [] → (∀ r ∈ s.net.reqs, r.ofDma c.val (s.dmaCh c.val).epoch = none) →
      Does (.dmaStopDrained c) s (fun t => t = { s with io := t.io, dma := t.dma } ∧ t.dmaState c.val = 0 ∧
        t.rf (Reg.DMA_CH_STAT.END c.val) = 2 ∧ t.rf (Reg.DMA_CH_STAT.ERR c.val) = 0 ∧
        (∀ x, x ≠ Reg.DMA_CH_STAT_at c.val → t.reg x = s.reg x) ∧ (t.dmaCh c.val).cur = none)) ∧
    (∀ (last k : Nat) (ready : Nat → Bool), s.dmaPick last ready = some k → k < 16 ∧ ready k = true ∧
      ∀ m, m < 16 → ready m = true → (s.on (Reg.DMA_CH_CTL.PRIO m) = true → s.on (Reg.DMA_CH_CTL.PRIO k) = true) ∧
        (s.on (Reg.DMA_CH_CTL.PRIO m) = s.on (Reg.DMA_CH_CTL.PRIO k) → (k + 31 - last % 16) % 16 ≤ (m + 31 - last % 16) % 16))

/-- Table deck-6, R217: a descriptor that fails a check ends its channel with the code of the first check that fails; one that passes
begins, DMA_CH_CUR naming it. -/
def Sys2Proof.Claims.DescriptorsAreChecked : Prop :=
  ∀ (s : State) (r : Req) (c : Fin 16) (ep v : Nat), Answered s r (.data v) → r.who = .dmaDesc c ep → (s.dmaCh c.val).epoch = ep →
    s.dmaState c.val = 1 → (s.dmaCh c.val).cur = none →
    let d := parseDesc v
    let bad := v / 2 ^ 88 % 2 ^ 8 ≠ 0 ∨ v / 2 ^ 114 % 2 ^ 14 ≠ 0 ∨ v / 2 ^ 160 % 2 ^ 96 ≠ 0 ∨ (d.chain = true ∧ d.next % 32 ≠ 0)
    let kinds := 4 < d.srck ∨ 4 < d.dstk ∨ (2 < d.srck ∧ 2 < d.dstk) ∨ (d.srck = 3 ∧ d.srcinc = true) ∨ (d.srck = 4 ∧ d.srcinc = false) ∨
      (d.dstk = 3 ∧ d.dstinc = true) ∨ (d.dstk = 4 ∧ d.dstinc = false) ∨ s.cvpWrong d.srck d.src true = true ∨
      s.cvpWrong d.dstk d.dst false = true
    let align := (d.srck ≠ 3 ∧ d.src % 8 ≠ 0) ∨ (d.dstk ≠ 3 ∧ d.dst % 8 ≠ 0)
    let range := rangeBad s.grade d.srck d.src d.len d.srcinc = true ∨ rangeBad s.grade d.dstk d.dst d.len d.dstinc = true
    let fails (e : Nat) := Does (.readResponse r.id .none) s (fun t => t.dmaState c.val = 0 ∧ t.rf (Reg.DMA_CH_STAT.END c.val) = 3 ∧
      t.rf (Reg.DMA_CH_STAT.ERR c.val) = e ∧ t.bit Reg.DMA_ERR.CH c.val = true ∧ t.deck = s.deck)
    (bad → fails 1) ∧ (¬ bad → kinds → fails 2) ∧ (¬ bad → ¬ kinds → align → fails 3) ∧ (¬ bad → ¬ kinds → ¬ align → range → fails 4) ∧
    (¬ bad → ¬ kinds → ¬ align → ¬ range → d.len ≠ 0 → d.chain = false → Does (.readResponse r.id .none) s (fun t => t.dmaState c.val = 1 ∧
      (t.dmaCh c.val).cur = some d ∧ t.rf (Reg.DMA_CH_CUR.ADDR c.val) = (s.dmaCh c.val).fetchAddr % 2 ^ 32 ∧ t.deck = s.deck))

/-- R31, R213, R214, R217, R221, R222: the engine serves a ready channel with PRIO first, and among equals the next in turn; an IDLE channel starts by fetching 32 bytes at DMA_CH_DESC, or ends with DESC outside the Deck; STOP makes a
running one STOPPING, which ends, stopped, with nothing outstanding; DMA_CH_DESC takes an address while IDLE; anything else is refused. Table deck-6, R217: a descriptor that fails a check ends its channel with the code of the first check that fails; one that passes
begins, DMA_CH_CUR naming it. -/
def Obligations.DmaChannelsAndDescriptors : Prop :=
  Sys2Proof.Claims.DmaChannelsStartAndStop ∧ Sys2Proof.Claims.DescriptorsAreChecked

namespace Sys2Proof.Claims

/-- Registers whose write is a command of its own: address and command. -/
def OwnWrites (th : Thr) (q : QIx) (c : Fin 16) (p i : Fin 8) (n : Fin 4) (m : Fin 2) (op : OpIx) (isl : Fin 30)
    (P : Nat → (Src → Word → Instr) → Prop) : Prop :=
  P (Reg.PIER_THRUN_at th.pier.val) (fun src v => .pierThrunWrite src th.pier v) ∧
  P (Reg.PIER_THPC_at th.pier.val th.th.val) (fun src v => .pierThpcWrite src th v) ∧
  P (Reg.PIER_EVMASK_LO_at th.pier.val th.th.val) (fun src v => .pierEvmaskWrite src th false v) ∧
  P (Reg.PIER_EVMASK_HI_at th.pier.val th.th.val) (fun src v => .pierEvmaskWrite src th true v) ∧
  P (Reg.SPAN_CTL_at q.val) (fun _ v => .spanCtlWrite q v) ∧ P (Reg.DECK_ECC_INJ_at q.val) (fun _ v => .deckEccInjWrite q v) ∧
  P (Reg.DMA_CH_DESC_at c.val) (fun _ v => .dmaChDescWrite c v) ∧ P Reg.VIA_RT_SEL_at (fun _ v => .viaRtSelWrite v) ∧
  P Reg.VIA_RT_DATA_at (fun _ v => .viaRtDataWrite v) ∧ P (Reg.SPLL_OPCFG_at op.val) (fun src v => .spllOpcfgWrite src op v) ∧
  P Reg.SPLL_SSC_at .spllSscWrite ∧ P Reg.CPLL_CTL_at (fun _ v => .cpllCtlWrite v) ∧
  P (Reg.IOPLL_ISL_at isl.val) (fun src v => .islandDivWrite src isl v) ∧ P Reg.FLC_RDWAIT_at .flcRdwaitWrite ∧
  P Reg.RTC_SLEW_at .rtcSlewWrite ∧ P Reg.REC_HIST_SEL_at (fun _ v => .recHistSelWrite v) ∧
  P Reg.REC_CH_SEL_at (fun _ v => .recChSelWrite v) ∧ P Reg.PAR_CFG_at .parCfgWrite ∧ P Reg.BOOT_CONFIRM_at .bootConfirm ∧
  P Reg.BOOT_SYSRESET_at .bootSysreset ∧ P Reg.WDT_KEY_at .wdtKeyWrite ∧
  P (Reg.CVP_OFS_at p.val i.val) (fun src v => .cvpOfsWrite src p i v) ∧ P Reg.ABT_RELEASE_at .abtRelease ∧
  P Reg.ETH_MDIO_CMD_at .mdioCmd ∧ P Reg.ETH_FRX_POP_at .ethFrxPop ∧ P Reg.ETH_FTX_DATA_at .ethFtxDataWrite ∧
  P Reg.ETH_FTX_SEND_at .ethFtxSend ∧ P (Reg.FSV_STREAM_DATA_at n.val) (fun src v => .fsvStreamDataWrite src n v) ∧
  P (Reg.FSV_STREAM_CTL_at n.val) (fun src v => .streamPush src n v) ∧ P (Reg.GPIO_OSET_at m.val) (fun _ v => .gpioOset m v) ∧
  P (Reg.GPIO_OCLR_at m.val) (fun _ v => .gpioOclr m v) ∧ P (Reg.PWM_CFG_at c.val) (fun _ v => .pwmCfgWrite c v) ∧
  P (Reg.I2C_CMD_at m.val) (fun _ v => .i2cCmd m v) ∧ P (Reg.SPI_CMD_at m.val) (fun _ v => .spiCmd m v)

/-- Registers whose read is a command of its own. -/
def OwnReads (u : Fin 4) (m : Fin 2) (P : Nat → (Src → Instr) → Prop) : Prop :=
  P Reg.REC_OPSEC_LO_at (fun _ => .recOpsecLoRead) ∧ P Reg.RTC_SEC_at (fun _ => .rtcSecRead) ∧
  P Reg.ETH_FRX_DATA_at .ethFrxDataRead ∧ P Reg.FLC_BUF_DATA_at (fun src => .flcBufDataAccess src none) ∧
  P (Reg.UART_RXD_at u.val) (fun _ => .uartRxdRead u) ∧ P (Reg.I2C_DATA_at m.val) (fun _ => .i2cData m none) ∧
  P (Reg.SPI_DATA_at m.val) (fun _ => .spiData m none)

end Sys2Proof.Claims

/-- R11, R12, R15, R16, R238, R536: REGISTER_WRITE changes each field of the register by its code, and nothing else; RWL fields of a locked
Viaduct refuse it; a reserved address, or one whose island is not ONLINE, takes no effect; RC_READ by a pier or the Fobex engine returns RC
fields to their reset values; and at the address of a register whose write or read is a command of its own each is that command. -/
def Obligations.RegisterFieldsFollowTheirCodes : Prop :=
  ∀ (src : Src) (a : BitVec 16) (v : Word) (s : State),
    (s.reaches a.toNat = false → exec (.registerWrite src a v) s = .next s ∧ exec (.rcRead src a) s = .next s) ∧
    (∀ (th : Thr) (q : QIx) (c : Fin 16) (p i : Fin 8) (n : Fin 4) (m : Fin 2) (op : OpIx) (isl : Fin 30),
      OwnWrites th q c p i n m op isl (fun x f => a.toNat = x → s.reaches x = true → s.held.por = false →
        exec (.registerWrite src a v) s = exec (f src v) s)) ∧
    (∀ (c : Fin 16) (stop prio : Bool), a.toNat = Reg.DMA_CH_CTL_at c.val → s.reaches a.toNat = true →
      (v = BitVec.ofNat 32 (1 + 2 * b2n stop + 256 * b2n prio) → exec (.registerWrite src a v) s = exec (.dmaStart c stop prio) s) ∧
      (v = BitVec.ofNat 32 (2 + 256 * b2n prio) → exec (.registerWrite src a v) s = exec (.dmaStop c prio) s)) ∧
    (∀ (u : Fin 4) (m : Fin 2), OwnReads u m (fun x f => a.toNat = x → s.reaches x = true → s.held.por = false →
      src = .keystone ∨ src = .debug → exec (.rcRead src a) s = exec (f src) s)) ∧
    (regRow a.toNat = none → Does (.registerWrite src a v) s (fun t => t = s) ∧ Does (.rcRead src a) s (fun t => t = s)) ∧
    (s.reaches a.toNat = true → (0x2000 ≤ a.toNat ∧ a.toNat < 0x2100) ∨
        (0x2800 ≤ a.toNat ∧ a.toNat < 0x3000 ∧ a.toNat ≠ Reg.VIA_RT_SEL_at ∧ a.toNat ≠ Reg.VIA_RT_DATA_at ∧ s.on Reg.VIA_CTL.LOCK = false) →
      Does (.registerWrite src a v) s (fun t => Regs s t [a.toNat] [] ∧
        ∀ f ∈ fieldsAt a.toNat, getBits (t.reg a.toNat) f.lo f.width =
          (let old := getBits (s.reg a.toNat) f.lo f.width
           let new := getBits v f.lo f.width
           match f.acc with
           | .ro => old | .rc => old | .wo => old | .w1c => old &&& (old ^^^ new) | .w1s => old ||| new | _ => new))) ∧
    (s.reaches a.toNat = true → 0x2800 ≤ a.toNat → a.toNat < 0x3000 → a.toNat ≠ Reg.VIA_RT_SEL_at → a.toNat ≠ Reg.VIA_RT_DATA_at →
      a.toNat ≠ Reg.VIA_STATUS_at → s.on Reg.VIA_CTL.LOCK = true → (∃ f ∈ fieldsAt a.toNat, f.acc = .rwl) →
      Does (.registerWrite src a v) s (fun t => t.on Reg.VIA_STATUS.REFUSED = true ∧
        ∀ f ∈ fieldsAt a.toNat, f.acc = .rwl → getBits (t.reg a.toNat) f.lo f.width = getBits (s.reg a.toNat) f.lo f.width)) ∧
    (s.reaches a.toNat = true → 0x2000 ≤ a.toNat → a.toNat < 0x3000 → regRow a.toNat ≠ none →
      ((∃ th, src = .pier th) ∨ src = .fobex → Does (.rcRead src a) s (fun t => Regs s t [a.toNat] [] ∧
        ∀ f ∈ fieldsAt a.toNat, getBits (t.reg a.toNat) f.lo f.width = if f.acc = .rc then f.rst else getBits (s.reg a.toNat) f.lo f.width)) ∧
      (src = .keystone ∨ src = .debug → Does (.rcRead src a) s (fun t => t = s)))

/-- R238, R239, R254, Table via-9: VIA_RT_SEL names an implemented entry or is refused; VIA_RT_DATA, unlocked, invalidates the entry,
stores a route that passes every check, and records the fault code of the first check that fails, the entry unchanged. -/
def Obligations.RouteEntriesAreValidated : Prop :=
  ∀ (v : Word) (s : State), s.online islRing = true →
    let n := getBits v 8 6
    let e := getBits v 0 6
    let ni := s.rf Reg.VIA_RT_SEL.NI
    let entry := s.rf Reg.VIA_RT_SEL.ENTRY
    let exists' := niPresent s.grade n = true ∧ (n < 32 ∨ e < 24)
    (exists' → Does (.viaRtSelWrite v) s (fun t => Regs s t [Reg.VIA_RT_SEL_at, Reg.VIA_STATUS_at] [] ∧ t.rf Reg.VIA_RT_SEL.NI = n ∧
      t.rf Reg.VIA_RT_SEL.ENTRY = e ∧ t.on Reg.VIA_STATUS.SEL_REFUSED = false)) ∧
    (¬ exists' → Refuses (.viaRtSelWrite v) s viaRefuse 0) ∧
    (s.on Reg.VIA_CTL.LOCK = true ∨ s.on Reg.VIA_STATUS.SEL_REFUSED = true → Refuses (.viaRtDataWrite v) s viaRefuse 0) ∧
    (s.on Reg.VIA_CTL.LOCK = false → s.on Reg.VIA_STATUS.SEL_REFUSED = false →
      let stores := Does (.viaRtDataWrite v) s (fun t => t = { s with net := t.net } ∧ t.net = { s.net with routes := t.net.routes } ∧
        t.route ni entry = v ∧ ∀ n e, e < 64 → ¬ (n = ni ∧ e = entry) → t.route n e = s.route n e)
      let faults (f : Nat) := Does (.viaRtDataWrite v) s (fun t => t.net.routes = s.net.routes ∧ t.on Reg.VIA_STATUS.ROUTE_FAULT = true ∧
        t.rf Reg.VIA_RT_FAULT.CODE = f ∧ t.rf Reg.VIA_RT_FAULT.NI = ni ∧ t.rf Reg.VIA_RT_FAULT.ENTRY = entry)
      let hops := getBits v 1 5
      let dest := if v.getLsbD 0 = false then (ni - 32 + hops) % 24 else (ni - 32 + 24 - hops) % 24
      let turns := entryCodes v (getBits v 2 4)
      (v.getLsbD 31 = false → stores) ∧
      (v.getLsbD 31 = true → 32 ≤ ni → (23 < hops → faults 1) ∧ (hops ≤ 23 → dest ≠ entry → faults 5) ∧
        (hops ≤ 23 → dest = entry → getBits v 6 25 ≠ 0 → faults 7) ∧ (hops ≤ 23 → dest = entry → getBits v 6 25 = 0 → stores)) ∧
      (v.getLsbD 31 = true → ni < 32 → (turns = [] ∨ 12 < turns.length → faults 1) ∧
        (turns ≠ [] → turns.length ≤ 12 → 3 ∈ turns.dropLast ∨ turns.getLast? ≠ some 3 → faults 2) ∧
        (turns ≠ [] → turns.length ≤ 12 → 3 ∉ turns.dropLast → turns.getLast? = some 3 →
          ∀ w, w = walkRoute s.grade (ni % 16) (getBits v 0 2) turns.dropLast → (w = none → faults 3) ∧
            (∀ ks wraps, w = some (ks, wraps) → (¬ (ni % 16 :: ks).Nodup → faults 4) ∧
              ((ni % 16 :: ks).Nodup → ks.getLastD (ni % 16) ≠ entry % 32 / 2 → faults 5) ∧
              ((ni % 16 :: ks).Nodup → ks.getLastD (ni % 16) = entry % 32 / 2 → v.getLsbD 30 ≠ wraps → faults 6) ∧
              ((ni % 16 :: ks).Nodup → ks.getLastD (ni % 16) = entry % 32 / 2 → v.getLsbD 30 = wraps → stores)))))


/-! ## Islands and PLLs (spec/11) -/

namespace Sys2Proof.Claims

/-- Islands that take every action (Table arch-2): piers 1 to 15, quarters 1 to 3, CONV, PANEL and GIO. -/
def switchable (i : Nat) : Prop := (1 ≤ i ∧ i ≤ 15) ∨ (17 ≤ i ∧ i ≤ 19) ∨ i = islConv ∨ i = islPanel ∨ i = islGio

/-- IOPLL_ISL_CMD refused with a reason, IOPLL_REFUSE_INFO naming the island (R289). -/
def RefusesIsl (i : Instr) (s : State) (isl reason : Nat) : Prop :=
  Does i s (fun t => Regs s t [Reg.IOPLL_STATUS_at, Reg.IOPLL_REFUSE_INFO_at] (ev s (Reg.IOPLL_STATUS.REFUSE_EVENT, Reg.IOPLL_STATUS.REFUSE_EVENT_EN)) ∧
    t.rf Reg.IOPLL_STATUS.REFUSED = 1 ∧ t.rf Reg.IOPLL_REFUSE_INFO.REASON = reason ∧ t.rf Reg.IOPLL_REFUSE_INFO.ISL = isl)

/-- The clock event (R288). -/
def clkEv (s : State) : List (Fin 64) := ev s (Reg.IOPLL_STATUS.CLK_EVENT, Reg.IOPLL_STATUS.CLK_EVENT_EN)

/-- The shell of one island replaced; nothing else but registers among `as`. -/
def OnlyShell (s t : State) (isl : Nat) (h : Shell) (as : List Nat) : Prop :=
  t = { s with io := t.io, net := { s.net with shells := t.net.shells } } ∧ t.shell isl = h ∧ (∀ k, k ≠ isl → t.shell k = s.shell k) ∧
    ∀ a, a ∉ as → t.reg a = s.reg a

end Sys2Proof.Claims

/-- R25, R287 to R290, Table clk-5: RESET, GATE and OFF of an ONLINE island begin its quiesce, RESTART of a GATED or OFF one its return; any
other command is refused with its reason; an action's end leaves GATED, OFF (a pier's memories lost), or ONLINE with the next generation. -/
def Sys2Proof.Claims.IslandActionsBeginAndEnd : Prop :=
  ∀ (src : Src) (isl : Fin 32) (s : State), s.aonUp = true →
    ∀ e ∈ ([(.islandReset, .reset), (.islandGate, .gate), (.islandOff, .off), (.islandRestart, .restart)] : List ((Src → Fin 32 → Instr) × IslAction)),
    let n := isl.val
    let st := s.islState n
    (src = .fobex → RefusesIsl (e.1 src isl) s n 0xE) ∧
    (src ≠ .fobex →
      (29 < n → RefusesIsl (e.1 src isl) s n 6) ∧
      (n ≤ 29 → s.grade.hasIsland n = false → RefusesIsl (e.1 src isl) s n 7) ∧
      (n ≤ 29 → s.grade.hasIsland n = true →
        (¬ switchable n → ¬ (n = islFlash ∧ e.2 = .reset) → RefusesIsl (e.1 src isl) s n 6) ∧
        (switchable n ∨ (n = islFlash ∧ e.2 = .reset) →
          (st = 1 ∨ st = 2 ∨ st = 5 → RefusesIsl (e.1 src isl) s n 9) ∧
          (st ≠ 1 → st ≠ 2 → st ≠ 5 → ¬ (if e.2 = .restart then st = 3 ∨ st = 4 else st = 0) → RefusesIsl (e.1 src isl) s n 8) ∧
          (st = 3 ∨ st = 4 → e.2 = .restart → n = islConv → s.on Reg.CPLL_STATUS.LOCK = false → RefusesIsl (e.1 src isl) s n 0xB) ∧
          (st = 3 ∨ st = 4 → e.2 = .restart → (n = islConv → s.on Reg.CPLL_STATUS.LOCK = true) → Does (e.1 src isl) s (fun t =>
            OnlyShell s t n { s.shell n with action := some .restart } [Reg.IOPLL_ISL_at n] ∧ t.rf (Reg.IOPLL_ISL.STATE n) = 5)) ∧
          (st = 0 → e.2 ≠ .restart → (n < 16 ∨ 20 ≤ n) → (s.shell n).st = .online → Does (e.1 src isl) s (fun t =>
            OnlyShell s t n { s.shell n with action := some e.2, st := .quiesce, off := [] } [Reg.IOPLL_ISL_at n] ∧ t.rf (Reg.IOPLL_ISL.STATE n) = 1)) ∧
          (st = 0 → e.2 ≠ .restart → 16 ≤ n → n < 20 → (s.shell n).st = .online → s.span (n - 16) = none → Does (e.1 src isl) s (fun t =>
            (t.shell n).st = .quiesce ∧ (t.shell n).action = some e.2 ∧ t.rf (Reg.IOPLL_ISL.STATE n) = 1)))))

/-- R251, R252, R288, R290, R291: an action ends GATED, OFF (a pier's scratchpad and mailbox lost) or ONLINE with the next generation, ISL_DONE
set and the clock event raised; DIV of a pier or of FLASH takes its value, 0b11 of FLASH and a change while it is busy are refused. -/
def Sys2Proof.Claims.IslandActionsComplete : Prop :=
  (∀ (isl : Fin 30) (a : IslAction) (s : State), (s.shell isl.val).st = .offline → (s.shell isl.val).action = some a →
    (∀ x ∈ s.net.reqs, x.isl = isl.val → x.held = false) →
    Does (.islandActionEnd isl) s (fun t => t.on Reg.IOPLL_STATUS.ISL_DONE = true ∧ t.net.events = s.net.events ++ clkEv s ∧
      (∀ k, k ≠ isl.val → t.shell k = s.shell k) ∧
      (a = .gate → t.shell isl.val = { s.shell isl.val with action := none } ∧ t.rf (Reg.IOPLL_ISL.STATE isl.val) = 3 ∧ t.spad = s.spad) ∧
      (a = .off → t.shell isl.val = { s.shell isl.val with action := none } ∧ t.rf (Reg.IOPLL_ISL.STATE isl.val) = 4 ∧
        (isl.val < 16 → ∀ x, SMap.get t.spad 0 x = (if x / 0x10000 = isl.val then 0 else SMap.get s.spad 0 x) ∧
          SMap.get t.mbox 0 x = (if x / 0x1000 = isl.val then 0 else SMap.get s.mbox 0 x))) ∧
      (a = .reset ∨ a = .restart → t.shell isl.val = ⟨.online, [], ((s.shell isl.val).gen + 1) % 16, [], none⟩ ∧
        t.rf (Reg.IOPLL_ISL.STATE isl.val) = 0 ∧ t.spad = s.spad ∧ t.deck = s.deck))) ∧
  (∀ (src : Src) (isl : Fin 30) (v : Word) (s : State), s.aonUp = true →
    let d := getBits v 4 2
    let writes := Does (.islandDivWrite src isl v) s (fun t => Regs s t [Reg.IOPLL_ISL_at isl.val] [] ∧ t.rf (Reg.IOPLL_ISL.DIV isl.val) = d)
    (src = .fobex → RefusesIsl (.islandDivWrite src isl v) s isl.val 0xE) ∧
    (src ≠ .fobex → s.grade.hasIsland isl.val = true →
      (isl.val < 16 → writes) ∧
      (isl.val = islFlash → (d = 3 → RefusesIsl (.islandDivWrite src isl v) s isl.val 0xF) ∧
        (d ≠ 3 → d ≠ s.rf (Reg.IOPLL_ISL.DIV isl.val) → s.flcBusy = true → RefusesIsl (.islandDivWrite src isl v) s isl.val 0xC) ∧
        (d ≠ 3 → s.flcBusy = false → writes)) ∧
      (16 ≤ isl.val → isl.val ≠ islFlash → Does (.islandDivWrite src isl v) s (fun t => t = s))))

/-- R25, R287 to R290, Table clk-5: RESET, GATE and OFF of an ONLINE island begin its quiesce, RESTART of a GATED or OFF one its return; any
other command is refused with its reason; an action's end leaves GATED, OFF (a pier's memories lost), or ONLINE with the next generation. R251, R252, R288, R290, R291: an action ends GATED, OFF (a pier's scratchpad and mailbox lost) or ONLINE with the next generation, ISL_DONE
set and the clock event raised; DIV of a pier or of FLASH takes its value, 0b11 of FLASH and a change while it is busy are refused. -/
def Obligations.IslandActions : Prop :=
  Sys2Proof.Claims.IslandActionsBeginAndEnd ∧ Sys2Proof.Claims.IslandActionsComplete

namespace Sys2Proof.Claims

/-- Nothing changes but the PLLs' own state, registers among `as`, and the events `es` in flight. -/
def PllRegs (s t : State) (x : Spll) (as : List Nat) (es : List (Fin 64)) : Prop :=
  t = { s with spll := x, io := t.io, net := { s.net with events := s.net.events ++ es } } ∧ ∀ a, a ∉ as → t.reg a = s.reg a

/-- Whether a count lies within `tol` of W. -/
def inWin (count w tol : Nat) : Prop := w ≤ count + tol ∧ count ≤ w + tol
/-- W and TOL of a window that begins now (R271); a TOL of 0 acts as 1. -/
def nextWin (s : State) : Nat × Nat := (32 * 2 ^ s.rf Reg.IOPLL_CTL.WIN, max 1 (s.rf Reg.IOPLL_CTL.TOL))

end Sys2Proof.Claims

/-- R269 to R273: REFCLK is absent at one bad window and present again at the second good one in a row; the IOPLL and the CPLL lose lock at one
count outside 8 of W and declare it at two within TOL; WIN and TOL apply to a window as they
stood when it began; no lock window and no search step counts while REF_ABSENT is set. -/
def Obligations.ClockWindowsDeclareLock : Prop :=
  ∀ (count : Nat) (s : State),
    (let good := 58 ≤ count ∧ count ≤ 70
     (s.on Reg.IOPLL_STATUS.REF_ABSENT = false → good → Does (.refclkMonitorWindow count) s (fun t =>
        Regs s t [Reg.IOPLL_REF_CNT_at] [] ∧ t.rf Reg.IOPLL_REF_CNT.COUNT = count)) ∧
     (s.on Reg.IOPLL_STATUS.REF_ABSENT = false → ¬ good → s.spll.phase = .idle → s.spState = 1 → Does (.refclkMonitorWindow count) s (fun t =>
        PllRegs s t { s.spll with ioGood := 0, cpGood := 0 } [Reg.IOPLL_REF_CNT_at, Reg.IOPLL_STATUS_at] (clkEv s) ∧
        t.on Reg.IOPLL_STATUS.REF_ABSENT = true ∧ t.on Reg.IOPLL_STATUS.REF_LOST = true ∧ Counted s t Reg.IOPLL_REF_CNT.ABSENT_CNT ∧
        t.rf Reg.IOPLL_REF_CNT.COUNT = min 255 count)) ∧
     (s.on Reg.IOPLL_STATUS.REF_ABSENT = true → ¬ good → Does (.refclkMonitorWindow count) s (fun t =>
        PllRegs s t { s.spll with refGood := 0 } [Reg.IOPLL_REF_CNT_at] [])) ∧
     (s.on Reg.IOPLL_STATUS.REF_ABSENT = true → good → s.spll.refGood = 0 → Does (.refclkMonitorWindow count) s (fun t =>
        PllRegs s t { s.spll with refGood := 1 } [Reg.IOPLL_REF_CNT_at] [])) ∧
     (s.on Reg.IOPLL_STATUS.REF_ABSENT = true → good → s.spll.refGood ≠ 0 → s.spll.phase ≠ .waiting → Does (.refclkMonitorWindow count) s (fun t =>
        PllRegs s t { s.spll with refGood := 0, ioWin := nextWin s, cpWin := nextWin s, spWin := nextWin s }
          [Reg.IOPLL_REF_CNT_at, Reg.IOPLL_STATUS_at] [] ∧ t.on Reg.IOPLL_STATUS.REF_ABSENT = false))) ∧
    (s.on Reg.IOPLL_STATUS.REF_ABSENT = true → (∀ p, Does (.lockWindow p count) s (fun t => t = s)) ∧ Does (.bandSearchStep count) s (fun t => t = s)) ∧
    (s.on Reg.IOPLL_STATUS.REF_ABSENT = false →
      let io := { s.spll with ioWin := nextWin s }
      let cp := { s.spll with cpWin := nextWin s }
      let w := s.spll.ioWin
      let cw := s.spll.cpWin
      (s.on Reg.IOPLL_STATUS.IOPLL_LOCK = true →
        (inWin count w.1 8 → Does (.lockWindow .iopll count) s (fun t => t = { s with spll := io })) ∧
        (¬ inWin count w.1 8 → Does (.lockWindow .iopll count) s (fun t =>
          PllRegs s t { io with ioLost := true, ioGood := 0 } [Reg.IOPLL_STATUS_at] (clkEv s) ∧
          t.on Reg.IOPLL_STATUS.IOPLL_LOCK = false ∧ t.on Reg.IOPLL_STATUS.IOPLL_LOL = true))) ∧
      (s.on Reg.IOPLL_STATUS.IOPLL_LOCK = false →
        (¬ inWin count w.1 w.2 → Does (.lockWindow .iopll count) s (fun t => t = { s with spll := { io with ioGood := 0 } })) ∧
        (inWin count w.1 w.2 → s.spll.ioGood = 0 → Does (.lockWindow .iopll count) s (fun t => t = { s with spll := { io with ioGood := 1 } })) ∧
        (inWin count w.1 w.2 → s.spll.ioGood ≠ 0 → s.spll.phase ≠ .waiting → Does (.lockWindow .iopll count) s (fun t =>
          PllRegs s t { io with ioGood := 0, ioLost := false } [Reg.IOPLL_STATUS_at] [] ∧ t.on Reg.IOPLL_STATUS.IOPLL_LOCK = true))) ∧
      (s.on Reg.CPLL_CTL.EN = false → Does (.lockWindow .cpll count) s (fun t => t = { s with spll := cp })) ∧
      (s.on Reg.CPLL_CTL.EN = true → s.on Reg.CPLL_STATUS.LOCK = true →
        (inWin count cw.1 8 → Does (.lockWindow .cpll count) s (fun t => t = { s with spll := cp })) ∧
        (¬ inWin count cw.1 8 → Does (.lockWindow .cpll count) s (fun t =>
          t.on Reg.CPLL_STATUS.LOCK = false ∧ t.on Reg.CPLL_STATUS.LOL = true ∧ t.spll = { cp with cpGood := 0 }))) ∧
      (s.on Reg.CPLL_CTL.EN = true → s.on Reg.CPLL_STATUS.LOCK = false → inWin count cw.1 cw.2 → s.spll.cpGood ≠ 0 →
        Does (.lockWindow .cpll count) s (fun t => PllRegs s t { cp with cpGood := 0 } [Reg.CPLL_STATUS_at] [] ∧ t.on Reg.CPLL_STATUS.LOCK = true)))

namespace Sys2Proof.Claims

/-- A hop to point `op` has started (R281): the memo hit it samples is verified, else a full search runs. -/
def HopStarted (s t : State) (op : OpIx) : Prop :=
  let hit := if s.spState = 4 ∨ s.on (Reg.THM_T.FAULT 0) = true then none else s.spll.lookup (s.rf (Reg.SPLL_OPCFG.N op.val))
  t.spState = 2 ∧ t.spll.target = op ∧ t.spll.why = .hop ∧ t.spll.cycles = 0 ∧ t.spll.spWin = nextWin s ∧ t.spll.memo = s.spll.memo ∧ t.on Reg.SPLL_STATUS.SSC_ACTIVE = false ∧
  t.rf Reg.SPLL_HOP_CNT.HOPS = (s.rf Reg.SPLL_HOP_CNT.HOPS + 1) % 2 ^ 16 ∧ t.rf Reg.SPLL_STATUS.OP = s.rf Reg.SPLL_STATUS.OP ∧
  (∀ b, hit = some b → t.spll.phase = .verify 0 ∧ t.rf Reg.SPLL_STATUS.BAND = b % 64 ∧
    t.rf Reg.SPLL_HOP_CNT.HITS = (s.rf Reg.SPLL_HOP_CNT.HITS + 1) % 2 ^ 16) ∧
  (hit = none → t.spll.phase = .search 0 0 ∧ t.rf Reg.SPLL_SEARCH_CNT.SEARCHES = (s.rf Reg.SPLL_SEARCH_CNT.SEARCHES + 1) % 2 ^ 16 ∧
    t.rf Reg.SPLL_HOP_CNT.HITS = s.rf Reg.SPLL_HOP_CNT.HITS)

/-- Table clk-2's limits of R275 for point `n`: N 64 to 80, P 2 to 4, 400 MHz to 1,000 MHz, at least 500 MHz but at OP0. -/
def pointOk (n nn p : Nat) : Prop := 64 ≤ nn ∧ nn ≤ 80 ∧ 2 ≤ p ∧ p ≤ 4 ∧ 400 * p ≤ 25 * nn ∧ 25 * nn ≤ 1000 * p ∧ (n ≠ 0 → 500 * p ≤ 25 * nn)

end Sys2Proof.Claims

/-- R276 to R278, R281, R283, R285: a hop request starts a hop, is queued behind one, or is refused with its reason; a search step halves the
bands by its count; the second good window ends the hop LOCKED at its point, the memo written; loss of lock starts a relock. -/
def Obligations.SpllHopsAndSearches : Prop :=
  ∀ (src : Src) (op : OpIx) (count : Nat) (s : State),
    (let dest := if s.spll.phase ≠ .idle then s.spll.target.val else s.rf Reg.SPLL_STATUS.OP
     let same := s.spState ≠ 4 ∧ op.val = dest
     (src = .fobex → Refuses (.hopRequest src op) s clkRefuse 0xE) ∧
     (src ≠ .fobex → s.on Reg.SPLL_CTL.FWHOP = false → Refuses (.hopRequest src op) s clkRefuse 3) ∧
     (src ≠ .fobex → s.on Reg.SPLL_CTL.FWHOP = true →
       (s.spll.queue ≠ none → Refuses (.hopRequest src op) s clkRefuse 1) ∧
       (s.spll.queue = none → same → Refuses (.hopRequest src op) s clkRefuse 2) ∧
       (s.spll.queue = none → ¬ same → s.on Reg.IOPLL_STATUS.REF_ABSENT = true → Refuses (.hopRequest src op) s clkRefuse 4) ∧
       (s.spll.queue = none → ¬ same → s.on Reg.IOPLL_STATUS.REF_ABSENT = false →
         (s.spll.phase = .idle → Does (.hopRequest src op) s (fun t => HopStarted s t op)) ∧
         (s.spll.phase ≠ .idle → Does (.hopRequest src op) s (fun t =>
           PllRegs s t { s.spll with queue := some op } [Reg.SPLL_STATUS_at] [] ∧ t.on Reg.SPLL_STATUS.QUEUED = true))))) ∧
    (s.spll.queue = some op → s.spll.phase = .idle → s.on Reg.IOPLL_STATUS.REF_ABSENT = true → Does .hopStart s (fun t => t = s)) ∧
    (s.spll.queue = some op → s.spll.phase = .idle → s.on Reg.IOPLL_STATUS.REF_ABSENT = false → Does .hopStart s (fun t =>
      HopStarted s t op ∧ t.spll.queue = none ∧ t.on Reg.SPLL_STATUS.QUEUED = false)) ∧
    (s.spll.queue = none → Does .hopStart s (fun t => t = s)) ∧
    (s.on Reg.IOPLL_STATUS.REF_ABSENT = false →
      (∀ k lo, s.spll.phase = .search k lo → k ≤ 5 → count ≠ 32 → Does (.bandSearchStep count) s (fun t =>
        let lo' := if decide (count < 32) = Config.bandRises then lo + 32 / 2 ^ k else lo
        let total := s.spll.cycles + (if s.spll.cycles = 0 then 3 else 0) + 52
        t.rf Reg.SPLL_STATUS.BAND = lo' % 64 ∧ t.spll.phase = (if k = 5 then .attempt false 0 true else .search (k + 1) lo') ∧
        t = { s with io := t.io, spll := { s.spll with phase := t.spll.phase, spWin := nextWin s, cycles := total } } ∧
        ∀ a, a ≠ Reg.SPLL_STATUS_at → t.reg a = s.reg a)) ∧
      (s.spll.phase = .verify 1 → inWin count 32 s.spll.spWin.2 → s.spll.why = .hop → s.ldr.step = none → s.spll.key = .none →
        s.on (Reg.THM_T.FAULT 0) = false → Does (.lockWindow .spll count) s (fun t =>
          t.spState = 1 ∧ t.rf Reg.SPLL_STATUS.OP = s.spll.target.val ∧ t.spll.phase = .idle ∧ t.net.events = s.net.events ++ clkEv s ∧
          t.spll.memo = (s.spll.remember (s.rf (Reg.SPLL_OPCFG.N s.spll.target.val)) (s.rf Reg.SPLL_STATUS.BAND) (tagOf s.sensor0)).memo)) ∧
      (s.spll.phase = .idle → s.spState = 1 → s.on Reg.SPLL_STATUS.SSC_ACTIVE = false → ¬ inWin count s.spll.spWin.1 8 →
        Does (.lockWindow .spll count) s (fun t =>
          t.spState = 3 ∧ t.on Reg.SPLL_STATUS.LOL = true ∧ Counted s t Reg.SPLL_LOL_CNT.COUNT ∧ t.spll.why = .relock ∧
          t.spll.phase = .search 0 0 ∧ t.net.events = s.net.events ++ clkEv s ∧
          t.spll.lookup (s.rf (Reg.SPLL_OPCFG.N (s.rf Reg.SPLL_STATUS.OP))) = none)))

/-- R273, R275, R278, R286, R293: MEMO_CLR invalidates the memo; SPLL_OPCFG takes a point within the limits that no hop names; spread follows
SPLL_SSC at a zero crossing while LOCKED; CPLL_CTL changes only with CONV GATED or OFF, and starts its lock anew. -/
def Obligations.ClockRegistersAreChecked : Prop :=
  ∀ (src : Src) (op : OpIx) (v : Word) (s : State),
    Does (.memoClr v) s (fun t => t.spll.memo = s.spll.memo.map (fun m => { m with valid := false }) ∧ t.spll.phase = s.spll.phase ∧
      (s.on Reg.IOPLL_CTL.LOCK = false → t.on Reg.SPLL_CTL.FWHOP = v.getLsbD 0)) ∧
    (src = .fobex → Refuses (.spllOpcfgWrite src op v) s clkRefuse 0xE ∧ Refuses (.spllSscWrite src v) s clkRefuse 0xE) ∧
    (src ≠ .fobex →
      (let nn := getBits v 0 7
       let p := getBits v 8 3
       let used := op.val = s.rf Reg.SPLL_STATUS.OP ∨ (s.spll.phase ≠ .idle ∧ op = s.spll.target) ∨ s.spll.queue = some op
       (s.on Reg.IOPLL_CTL.LOCK = true → Refuses (.spllOpcfgWrite src op v) s clkRefuse 0xD) ∧
       (s.on Reg.IOPLL_CTL.LOCK = false → ¬ pointOk op.val nn p ∨ used → Refuses (.spllOpcfgWrite src op v) s clkRefuse 5) ∧
       (s.on Reg.IOPLL_CTL.LOCK = false → pointOk op.val nn p → ¬ used → Does (.spllOpcfgWrite src op v) s (fun t =>
         Regs s t [Reg.SPLL_OPCFG_at op.val] [] ∧ t.rf (Reg.SPLL_OPCFG.N op.val) = nn ∧ t.rf (Reg.SPLL_OPCFG.P op.val) = p))) ∧
      Does (.spllSscWrite src v) s (fun t => Regs s t [Reg.SPLL_SSC_at] [] ∧ t.rf Reg.SPLL_SSC.EN = getBits v 0 1 ∧
        t.rf Reg.SPLL_SSC.MODE = getBits v 1 1 ∧ t.rf Reg.SPLL_SSC.DEPTH = getBits v 2 2)) ∧
    (s.spState = 1 → Does .sscApply s (fun t =>
      let fast := 400000 * s.rf (Reg.SPLL_OPCFG.P (s.rf Reg.SPLL_STATUS.OP)) <
        25 * s.rf (Reg.SPLL_OPCFG.N (s.rf Reg.SPLL_STATUS.OP)) * (401 + s.rf Reg.SPLL_SSC.DEPTH)
      let suppressed := s.on Reg.SPLL_SSC.EN = true ∧ s.on Reg.SPLL_SSC.MODE = true ∧ fast
      PllRegs s t { s.spll with ssc := s.reg Reg.SPLL_SSC_at } [Reg.SPLL_STATUS_at] [] ∧ t.on Reg.SPLL_STATUS.SSC_SUPPRESSED = decide suppressed ∧
      t.on Reg.SPLL_STATUS.SSC_ACTIVE = (s.on Reg.SPLL_SSC.EN && decide (¬ suppressed)))) ∧
    (s.spState ≠ 1 → Does .sscApply s (fun t => t = s)) ∧
    (getBits v 0 2 = getBits (s.reg Reg.CPLL_CTL_at) 0 2 → Does (.cpllCtlWrite v) s (fun t => t = s)) ∧
    (getBits v 0 2 ≠ getBits (s.reg Reg.CPLL_CTL_at) 0 2 →
      let st := s.rf (Reg.IOPLL_ISL.STATE islConv)
      (st ≠ 3 → st ≠ 4 → Refuses (.cpllCtlWrite v) s clkRefuse 0xA) ∧
      (st = 3 ∨ st = 4 → Does (.cpllCtlWrite v) s (fun t => PllRegs s t { s.spll with cpGood := 0, cpWin := nextWin s } [Reg.CPLL_CTL_at, Reg.CPLL_STATUS_at] [] ∧
        t.on Reg.CPLL_STATUS.LOCK = false ∧ getBits (t.reg Reg.CPLL_CTL_at) 0 2 = getBits v 0 2)))

/-! ## Load rating (spec/12) -/

namespace Sys2Proof.Claims

/-- LDR_EVENT where enabled. -/
def ldrEv (s : State) : List (Fin 64) := ev s (Reg.LDR_EVCFG.LDR_EVENT, Reg.LDR_EVCFG.LDR_EVENT_EN)

/-- P_allow in mW (R301): the least of the thermal, rail and cap limits. -/
def allowed (s : State) : Nat :=
  let thermal := if s.ldr.valid = true ∧ s.on Reg.THM_MAX.DEGRADED = false then
    ((s.rf Reg.LDR_THERM.GTH : Int) * (16 * s.rf Reg.LDR_THERM.TLIMIT - lint 16 (s.rf Reg.THM_MAX.T_MAX)) / 16).toNat else 0
  let cap := 10 * s.rf Reg.LDR_CAP.PCAP
  let rail := if s.on Reg.PMB_STATUS.FAIL = true then 10 * s.rf Reg.PMB_LIMITS.PFAIL
    else if s.rf Reg.PMB_LIMITS.ILIMIT = 0 then cap else s.rf Reg.PMB_VOUT.READ * s.rf Reg.PMB_LIMITS.ILIMIT / 100
  min thermal (min rail cap)

/-- A reading of Table R296's range, in 1/16 °C. -/
def reading (rs : List (Option Int)) (i : Nat) : Option Int := (rs.getD i none).filter (fun t => decide (-960 ≤ t) && decide (t ≤ 2560))

/-- A number of 2^e units times `k`, `e` signed in five bits, to the nearest whole, halves up (R299). -/
def nearest (m k e : Nat) : Nat := if e < 16 then m * k * 2 ^ e else (2 * (m * k) + 2 ^ (32 - e)) / 2 ^ (33 - e)

/-- Of Span `q`, the raw energy counted once an interval ends (R305): what its job has drawn so far, never less than what was counted. -/
def countedTo (s : State) (drawn : List Nat) (q : Nat) : Nat :=
  if (s.span q).isSome then max (s.ldr.drawn.getD q 0) (drawn.getD q 0) else s.ldr.drawn.getD q 0

/-- The raw estimate of the interval that ends (R305). -/
def intervalRaw (s : State) (drawn : List Nat) : Nat :=
  s.ldr.raw + ((List.range 4).map (fun q => countedTo s drawn q - s.ldr.drawn.getD q 0)).sum

/-- The bytes of a Read Word transaction that the PEC covers (R298). -/
def readBytesOf (s : State) (code : Byte) (w : BitVec 16) : List Byte :=
  let adr := BitVec.ofNat 8 (2 * s.rf Reg.PMB_CFG.ADDR)
  [adr, code, adr ||| 1, w.setWidth 8, (w >>> 8).setWidth 8]

/-- A Read Word transaction that succeeds (R300). -/
def PmbAnswered (s : State) (code : Byte) (r : PmbReply) : Prop :=
  r.ack = true ∧ r.low = false ∧ (s.on Reg.PMB_CFG.PEC = true → r.pec = pmbPec (readBytesOf s code r.word))

/-- A transaction that fails: not acknowledged, the clock held low, or a wrong PEC (R300). -/
def PmbFailed (s : State) (code : Byte) (r : PmbReply) : Prop :=
  r.ack = false ∨ r.low = true ∨ (s.on Reg.PMB_CFG.PEC = true ∧ r.pec ≠ pmbPec (readBytesOf s code r.word))

/-- The VOUT_COMMAND of a round (R298, R299): its mantissa, address, code, word and PEC. -/
def voutBytes (s : State) (mv : Nat) : List Byte :=
  let e := s.rf Reg.PMB_CFG.VEXP
  let m := if e < 16 then (2 * mv + 1000 * 2 ^ e) / (2000 * 2 ^ e) else (2 * mv * 2 ^ (32 - e) + 1000) / 2000
  let bs := [BitVec.ofNat 8 (2 * s.rf Reg.PMB_CFG.ADDR), 0x21, BitVec.ofNat 8 m, BitVec.ofNat 8 (m / 256)]
  if s.on Reg.PMB_CFG.PEC = true then bs ++ [pmbPec bs] else bs

/-- What a round of polls does with a waiting VOUT_COMMAND (R298, R285, R313). -/
def VoutPlace (s t : State) : Prop :=
  match s.ldr.vcmd with
  | none => t.ldr.vcmd = none ∧ t.rf Reg.PMB_VOUT.CMD = s.rf Reg.PMB_VOUT.CMD
  | some c =>
    (c.by' = .step → s.on Reg.SPLL_CTL.FWHOP = true → t.ldr.vcmd = none ∧ t.rf Reg.PMB_VOUT.CMD = s.rf Reg.PMB_VOUT.CMD) ∧
    (c.by' = .step → s.on Reg.SPLL_CTL.FWHOP = false → s.rf Reg.SPLL_STATUS.STATE = 4 →
      t.ldr.vcmd = some c ∧ t.rf Reg.PMB_VOUT.CMD = s.rf Reg.PMB_VOUT.CMD) ∧
    (c.by' ≠ .step ∨ (s.on Reg.SPLL_CTL.FWHOP = false ∧ s.rf Reg.SPLL_STATUS.STATE ≠ 4) →
      t.ldr.vcmd = none ∧ t.rf Reg.PMB_VOUT.CMD = c.mv % 2 ^ 16 ∧
      (c.mv < 1024 → s.rf Reg.PMB_CFG.VEXP < 16 ∨ 17 ≤ s.rf Reg.PMB_CFG.VEXP → t.ldr.sent.head? = some (voutBytes s c.mv)))

/-- The reservation of a job (R306). -/
def reserved (s : State) (cls energy : Nat) : Nat :=
  min ((energy * s.rf (Reg.LDR_OPSCALE.SCALE (s.rf Reg.SPLL_STATUS.OP)) + 1023) / 1024)
    (if cls = 0 then s.rf Reg.LDR_CAP.CAPACITY + s.rf Reg.LDR_POLICY.DEBT_LIMIT else s.rf Reg.LDR_CAP.CAPACITY - s.rf Reg.LDR_POLICY.C0_FLOOR)

end Sys2Proof.Claims

/-- R301 to R303, R305, R317: a tick deposits and charges, spilling what exceeds CAPACITY; a due closure copies the window's terms and opens the
next; CLOSE asks for one, but not from the Fobex engine; TRIM moves toward the measured ratio by at most 64. -/
def Obligations.LedgerKeepsItsBooks : Prop :=
  ∀ (s : State),
    (∀ base : Nat,
      let p := allowed s
      let d := (p + s.ldr.depRem) / 100
      let b := (base * s.rf Reg.LDR_TRIM.TRIM + s.ldr.baseRem) / 16384000
      let a := s.avail + d - b
      let cap := s.rf Reg.LDR_CAP.CAPACITY
      a < 2 ^ 31 → -2 ^ 31 ≤ a → Does (.ledgerTick base) s (fun t =>
        t.rf Reg.LDR_PALLOW.P = p / 10 % 2 ^ 16 ∧ t.avail = min a cap ∧
        t.rf Reg.LDR_DEPOSIT.EQ = (s.rf Reg.LDR_DEPOSIT.EQ + d) % 2 ^ 32 ∧ t.rf Reg.LDR_SPENT.EQ = (s.rf Reg.LDR_SPENT.EQ + b) % 2 ^ 32 ∧
        t.rf Reg.LDR_SPENT_BASE.EQ = (s.rf Reg.LDR_SPENT_BASE.EQ + b) % 2 ^ 32 ∧
        t.rf Reg.LDR_SPILL.EQ = (s.rf Reg.LDR_SPILL.EQ + (a - cap).toNat) % 2 ^ 32 ∧
        t.rf Reg.LDR_RESERVED.EQ = s.rf Reg.LDR_RESERVED.EQ ∧ t.ldr.depRem = (p + s.ldr.depRem) % 100 ∧
        t.ldr.baseRem = (base * s.rf Reg.LDR_TRIM.TRIM + s.ldr.baseRem) % 16384000)) ∧
    (s.ldr.due = true → Does .windowClose s (fun t =>
      t = { s with io := t.io, ldr := { s.ldr with ticks := 0, due := false, closing := false } } ∧
      t.reg Reg.LDR_W_AVAIL_at = s.reg Reg.LDR_AVAIL_at ∧ t.reg Reg.LDR_W_RESERVED_at = s.reg Reg.LDR_RESERVED_at ∧
      t.reg Reg.LDR_W_SPENT_at = s.reg Reg.LDR_SPENT_at ∧ t.reg Reg.LDR_W_DEPOSIT_at = s.reg Reg.LDR_DEPOSIT_at ∧
      t.reg Reg.LDR_W_SPILL_at = s.reg Reg.LDR_SPILL_at ∧ t.reg Reg.LDR_AVAIL_at = s.reg Reg.LDR_AVAIL_at ∧
      t.rf Reg.LDR_DEPOSIT.EQ = ((s.avail + s.rf Reg.LDR_RESERVED.EQ) % 2 ^ 32).toNat ∧ t.rf Reg.LDR_SPENT.EQ = 0 ∧
      t.rf Reg.LDR_SPENT_BASE.EQ = 0 ∧ t.rf Reg.LDR_SPILL.EQ = 0 ∧
      t.rf Reg.LDR_ACCT.WINDOWS = (s.rf Reg.LDR_ACCT.WINDOWS + 1) % 2 ^ 16)) ∧
    (s.ldr.due = false → Does .windowClose s (fun t => t = s)) ∧
    (∀ (src : Src) (v : Word), getBits v 0 10 ≠ 0 → getBits v 0 10 ≤ 600 →
      (src ≠ .fobex → Does (.acctClose src v) s (fun t => t = { s with io := t.io, ldr := { s.ldr with closing := true } } ∧
        t.rf Reg.LDR_ACCT.PERIOD = getBits v 0 10 ∧ ∀ a, a ≠ Reg.LDR_ACCT_at → t.reg a = s.reg a)) ∧
      (src = .fobex → Refuses (.acctClose src v) s ldrRefuse 5 [Reg.LDR_ACCT_at])) ∧
    (∀ drawn : List Nat, s.on Reg.PMB_STATUS.FAIL = true ∨ intervalRaw s drawn = 0 → Does (.trimUpdate drawn) s (fun t =>
      t = { s with ldr := { s.ldr with rail := 0, raw := 0, drawn := (List.range 4).map (countedTo s drawn) } })) ∧
    (∀ drawn : List Nat, s.on Reg.PMB_STATUS.FAIL = false → intervalRaw s drawn ≠ 0 → Does (.trimUpdate drawn) s (fun t =>
      let old := s.rf Reg.LDR_TRIM.TRIM
      let new := t.rf Reg.LDR_TRIM.TRIM
      let goal := s.ldr.rail * 16384 / intervalRaw s drawn
      t = { s with io := t.io, ldr := { s.ldr with rail := 0, raw := 0, drawn := (List.range 4).map (countedTo s drawn) } } ∧ (∀ a, a ≠ Reg.LDR_TRIM_at → t.reg a = s.reg a) ∧
      12288 ≤ new ∧ new ≤ 20480 ∧ (12288 ≤ old → old ≤ 20480 → (new : Int) - old ≤ 64 ∧ (old : Int) - new ≤ 64 ∧
        (old ≤ goal + 64 → goal ≤ old + 64 → 12288 ≤ goal → goal ≤ 20480 → new = goal))))

/-- R295, R296, R314, R315: the readings, the hottest of the valid ones, the throttle, and a trip at TTRIP or twelve faults; R298 to R300: a
round of PMBus polls stores its readings, a third failure in a row sets FAIL. -/
def Obligations.SensorsAndPollsAreJudged : Prop :=
  (∀ (rs : List (Option Int)) (s : State),
    let faults := (List.range 24).countP (fun i => (reading rs i).isNone)
    Does (.thermalSample rs) s (fun t =>
      (∀ i, i < 24 → t.rf (Reg.THM_T.T i) = (match reading rs i with | some v => (BitVec.ofInt 16 v).toNat | none => s.rf (Reg.THM_T.T i)) ∧
        t.on (Reg.THM_T.FAULT i) = (reading rs i).isNone) ∧
      t.on Reg.THM_MAX.DEGRADED = decide (4 ≤ faults) ∧ (t.ldr.valid = true ↔ faults < 24) ∧
      (∀ k m, k < 24 → reading rs k = some m → (∀ i v, i < 24 → reading rs i = some v → v < m ∨ (v = m ∧ k ≤ i)) →
        t.rf Reg.THM_MAX.T_MAX = (BitVec.ofInt 16 m).toNat ∧ t.rf Reg.THM_MAX.SENSOR = k ∧ (2000 ≤ m → t.ldr.shdn = true) ∧
        (s.on Reg.LDR_STATUS.TRIP = false → (16 * s.rf Reg.LDR_THERM.TTRIP : Nat) ≤ m ∨ 12 ≤ faults →
          t.on Reg.LDR_STATUS.TRIP = true ∧ t.on Reg.LDR_STATUS.TRIP_SEEN = true ∧ t.rf Reg.LDR_STATUS.THROTTLE = 2 ∧
          (SysCause.thermal, BitVec.ofNat 32 (k + 65536 * (BitVec.ofInt 16 m).toNat), 0) ∈ t.net.causes) ∧
        (s.on Reg.LDR_STATUS.TRIP = false → m < (16 * s.rf Reg.LDR_THERM.TTRIP : Nat) → faults < 12 →
          t.on Reg.LDR_STATUS.TRIP = false ∧ t.spans = s.spans ∧
          let t1 := (16 * s.rf Reg.LDR_THROTTLE.T1 : Nat)
          let t2 := (16 * s.rf Reg.LDR_THROTTLE.T2 : Nat)
          let h := (16 * s.rf Reg.LDR_THROTTLE.HYST : Nat)
          let l := s.rf Reg.LDR_STATUS.THROTTLE
          t.rf Reg.LDR_STATUS.THROTTLE = (if t2 ≤ m ∨ (l = 2 ∧ (t2 : Int) - h ≤ m) then 2
            else if t1 ≤ m ∨ (l ≠ 0 ∧ (t1 : Int) - h ≤ m) then 1 else 0))))) ∧
  (∀ (cmd v i w : PmbReply) (s : State), s.ldr.step = none → s.spll.key ≠ .volt →
    (let mv := nearest v.word.toNat 1000 (s.rf Reg.PMB_CFG.VEXP)
     let ma := if i.word.getLsbD 10 then 0 else nearest (i.word.toNat % 2 ^ 10) 100 (i.word.toNat / 2 ^ 11)
     mv < 2 ^ 16 → ma < 2 ^ 16 → PmbAnswered s 0x8B v → PmbAnswered s 0x8C i → PmbAnswered s 0x79 w → Does (.pmbusPoll cmd v i w) s (fun t =>
       t.rf Reg.PMB_VOUT.READ = mv ∧ t.rf Reg.PMB_IOUT.READ = ma ∧ t.rf Reg.PMB_STATUS.SWORD = w.word.toNat ∧
       t.on Reg.PMB_STATUS.FAIL = false ∧ t.on Reg.PMB_STATUS.ALERT = (s.on Reg.PMB_STATUS.ALERT || w.word != 0) ∧
       t.ldr.rail = s.ldr.rail + mv * ma * 10 * (if s.on Reg.PMB_CFG.SPEED then 1 else 2) ∧ VoutPlace s t)) ∧
    (s.on Reg.PMB_STATUS.FAIL = false → s.ldr.vcmd = none → PmbFailed s 0x8B v → PmbFailed s 0x8C i → PmbFailed s 0x79 w →
     Does (.pmbusPoll cmd v i w) s (fun t =>
       t.on Reg.PMB_STATUS.FAIL = true ∧ t.on Reg.LDR_STATUS.PMB_FAIL = true ∧ t.on Reg.LDR_TRIM.FROZEN = true ∧
       t.rf Reg.PMB_STATUS.ERRS = min 255 (s.rf Reg.PMB_STATUS.ERRS + 3) ∧ t.rf Reg.PMB_VOUT.READ = s.rf Reg.PMB_VOUT.READ)))

/-- R306, R309, R312, R313, R316, R395: admission starts the first eligible job of the best class where it fits and reserves its cost; TRIP_CLR
ends a trip once cool; an up-step and the sequencer's step give up after 2 ms; firmware sets the voltage only while it hops. -/
def Obligations.AdmissionStepsAndTrips : Prop :=
  ∀ (s : State),
    (s.on Reg.LDR_STATUS.TRIP = true ∨ (∀ k, k < 256 → s.eligible k = false) → Does .admission s (fun t => t = s)) ∧
    (∀ k, s.on Reg.LDR_STATUS.TRIP = false → k < 256 → s.eligible k = true →
      let c := fun j => jClass (s.slot j).desc
      (∀ j, j < 256 → s.eligible j = true → j ≠ k → c k < c j ∨ (c j = c k ∧ (s.slot k).seq < (s.slot j).seq)) →
      let r := reserved s (c k) (jEnergy (s.slot k).desc)
      let fits := if c k = 0 then -(s.rf Reg.LDR_POLICY.DEBT_LIMIT : Int) ≤ s.avail - r else (s.rf Reg.LDR_POLICY.C0_FLOOR : Int) ≤ s.avail - r
      (s.rangeBusy (jSdt (s.slot k).desc) 1024 = true → fits → Does .admission s (fun t => t = s)) ∧
      (s.rangeBusy (jSdt (s.slot k).desc) 1024 = false → fits → Does .admission s (fun t => (t.slot k).st = .running ∧ (t.slot k).desc = (s.slot k).desc ∧
        s.idleSpan (s.slot k).desc = some (t.slot k).span ∧ (t.span (t.slot k).span).map SJob.slot = some k ∧
        t.rf Reg.LDR_RESERVED.EQ = (s.rf Reg.LDR_RESERVED.EQ + r) % 2 ^ 32 ∧ ∀ j, j ≠ k → t.slot j = s.slot j)) ∧
      (¬ fits → s.on Reg.LDR_CTL.FITFIRST = false → Does .admission s (fun t => t = s))) ∧
    (∀ (src : Src) (v : Word), s.on Reg.LDR_CTL.LOCK = false →
      let cool := s.on Reg.LDR_STATUS.TRIP = true ∧ s.ldr.valid = true ∧ lint 16 (s.rf Reg.THM_MAX.T_MAX) ≤ 16 * ((s.rf Reg.LDR_THERM.TTRIP : Int) - 5)
      (src = .fobex → Refuses (.tripClr src v) s ldrRefuse 5 [Reg.LDR_CTL_at]) ∧
      (src ≠ .fobex → ¬ cool → Refuses (.tripClr src v) s ldrRefuse 4 [Reg.LDR_CTL_at]) ∧
      (src ≠ .fobex → cool → Does (.tripClr src v) s (fun t => Regs s t [Reg.LDR_CTL_at, Reg.LDR_STATUS_at] (ldrEv s) ∧
        t.on Reg.LDR_STATUS.TRIP = false ∧ t.on Reg.LDR_STATUS.TRIP_SEEN = s.on Reg.LDR_STATUS.TRIP_SEEN))) ∧
    (∀ (src : Src) (mv : BitVec 10),
      (src = .fobex → Refuses (.ldrOpVset src mv) s ldrRefuse 5) ∧
      (src ≠ .fobex → s.on Reg.SPLL_CTL.FWHOP = false → Refuses (.ldrOpVset src mv) s ldrRefuse 3) ∧
      (src ≠ .fobex → s.on Reg.SPLL_CTL.FWHOP = true → Does (.ldrOpVset src mv) s (fun t =>
        t = { s with io := t.io, ldr := { s.ldr with vcmd := some ⟨mv.toNat, .vset⟩ } } ∧ t.rf Reg.LDR_OP.VSET = mv.toNat ∧
        ∀ a, a ≠ Reg.LDR_OP_at → t.reg a = s.reg a))) ∧
    (∀ x : OpStep, s.ldr.step = some x → x.hop = false → Does .upstepTimeout s (fun t =>
      t = { s with io := t.io, net := { s.net with events := s.net.events ++ ldrEv s },
                   ldr := { s.ldr with step := none, vcmd := some ⟨s.rf (Reg.LDR_OPV.MV x.from'), .step⟩ } } ∧
      t.on Reg.LDR_STATUS.VFAIL = true ∧ ∀ a, a ≠ Reg.LDR_STATUS_at → t.reg a = s.reg a)) ∧
    (s.spll.key = .volt → Does .sequencerVoutTimeout s (fun t =>
      t = { s with ldr := { s.ldr with vcmd := some ⟨660, .keystone⟩ }, spll := { s.spll with key := .none } })) ∧
    (s.spll.key ≠ .volt → Does .sequencerVoutTimeout s (fun t => t = s))

/-! ## Flash store and Vault (spec/13, spec/14) -/

namespace Sys2Proof.Claims

/-- The controller and the die are idle. -/
def FlashIdle (s : State) : Prop :=
  s.flc.cur = none ∧ s.flc.pend = none ∧ s.flc.queue = [] ∧ s.on Reg.FLC_STATUS.PWRFAIL = false ∧ s.on Reg.FLC_STATUS.INIT = false ∧
    s.flc.hold = false

/-- Nothing waits to be written to the Vault. -/
def VaultIdle (s : State) : Prop := s.vault.cur = none ∧ s.vault.queue = []

/-- FLC_BUF_ADDR.OFFSET after an access (R329). -/
def nextOffset (s : State) : Nat := if 4348 ≤ s.rf Reg.FLC_BUF_ADDR.OFFSET then 0 else s.rf Reg.FLC_BUF_ADDR.OFFSET + 4

end Sys2Proof.Claims

/-- R326, R329, R331, R332, R334, R335: FLC_CMD starts a READ, APPEND or JREAD on an idle die, queues it on a busy one, or is refused with the
first reason that holds; FLC_BUF_DATA moves one word of a buffer and OFFSET on; FLC_RDWAIT keeps to the link clock's least value. -/
def Obligations.FlashRegisterPath : Prop :=
  ∀ (src : Src) (v : Word) (s : State), s.online islFlash = true →
    (∀ e ∈ ([(.flcRead, 0, .read (s.rf Reg.FLC_ADDR.BLOCK) (s.rf Reg.FLC_ADDR.PAGE)),
             (.flcAppend, 4000, .append (getBytes s.flc.bufs (0x2000 * getBits v 4 1) 4000) 1 0),
             (.flcJread, 0, .jread (s.rf Reg.FLC_JSN.JSN))] : List ((Src → Word → Instr) × Nat × FOp)),
      let i := e.1 src v
      let job : FJob := ⟨.reg, e.2.2, getBits v 4 1⟩
      let b := s.rf Reg.FLC_ADDR.BLOCK
      let region := (∃ b p, e.2.2 = .read b p) ∧ ((112 ≤ b ∧ b ≤ 127) ∨ (b < 128 ∧ 128 ≤ s.rf Reg.FLC_ADDR.PAGE))
      let dead := s.on Reg.FLC_STATUS.INIT = true ∨ s.on Reg.FLC_STATUS.DIE_FAULT = true
      let free := ¬ dead ∧ s.on Reg.FLC_STATUS.PWRFAIL = false
      (src = .fobex → Refuses i s flcRefuse 7) ∧
      (src ≠ .fobex → (dead → Refuses i s flcRefuse 5) ∧
        (¬ dead → s.on Reg.FLC_STATUS.PWRFAIL = true → Refuses i s flcRefuse 0xA) ∧
        (free → s.on Reg.FLC_STATUS.CMD_BUSY = true → Refuses i s flcRefuse 1) ∧
        (free → s.on Reg.FLC_STATUS.CMD_BUSY = false → getBits v 8 13 ≠ e.2.1 → Refuses i s flcRefuse 4) ∧
        (free → s.on Reg.FLC_STATUS.CMD_BUSY = false → getBits v 8 13 = e.2.1 → region → Refuses i s flcRefuse 3) ∧
        (free → s.on Reg.FLC_STATUS.CMD_BUSY = false → getBits v 8 13 = e.2.1 → ¬ region →
          (s.flc.cur ≠ none → Does i s (fun t => t = { s with io := t.io, flc := { s.flc with queue := s.flc.queue ++ [job] } } ∧
            t.on Reg.FLC_STATUS.CMD_BUSY = true ∧ ∀ a, a ≠ Reg.FLC_STATUS_at → t.reg a = s.reg a)) ∧
          (FlashIdle s → (∀ p k n, e.2.2 = .append p k n → s.appendAt.2 ≠ 0 ∨ s.blockUsed s.appendAt.1 = false) →
            Does i s (fun t => t.flc.cur = some job ∧ t.flc.queue = [] ∧ t.on Reg.FLC_STATUS.CMD_BUSY = true ∧
              t.on Reg.FLC_STATUS.DIE_BUSY = true ∧ t.flc.pages = s.flc.pages ∧ t.flc.bufs = s.flc.bufs))))) ∧
    (∀ w : Word,
      let b := s.rf Reg.FLC_BUF_ADDR.BUF
      (src = .fobex → Refuses (.flcBufDataAccess src (some w)) s flcRefuse 7) ∧
      (src ≠ .fobex → s.bufOwned b = true → Refuses (.flcBufDataAccess src (some w)) s flcRefuse 8) ∧
      (src ≠ .fobex → s.bufOwned b = false → Does (.flcBufDataAccess src (some w)) s (fun t =>
        t = { s with io := t.io, flc := { s.flc with bufs := t.flc.bufs } } ∧ t.rf Reg.FLC_BUF_ADDR.OFFSET = nextOffset s ∧
        Stored s.flc.bufs t.flc.bufs (0x2000 * b + s.rf Reg.FLC_BUF_ADDR.OFFSET) 4 w.toNat ∧
        ∀ a, a ≠ Reg.FLC_BUF_ADDR_at → t.reg a = s.reg a))) ∧
    Does (.flcBufDataAccess src none) s (fun t => Regs s t [Reg.FLC_BUF_ADDR_at] [] ∧ t.rf Reg.FLC_BUF_ADDR.OFFSET = nextOffset s) ∧
    (let d := s.rf (Reg.IOPLL_ISL.DIV islFlash)
     let least := if d = 0 then 5 else if d = 1 then 4 else 2
     (getBits v 0 4 < least → Refuses (.flcRdwaitWrite src v) s flcRefuse 6) ∧
     (least ≤ getBits v 0 4 → Does (.flcRdwaitWrite src v) s (fun t =>
       Regs s t [Reg.FLC_RDWAIT_at] [] ∧ t.rf Reg.FLC_RDWAIT.WAIT = getBits v 0 4)))

namespace Sys2Proof.Claims

/-- Correctable bit errors in a codeword of a physical block's pages (R323). -/
def codeT (b : Nat) : Nat := if b < 128 then 16 else 40

/-- Each set of threshold levels a page of block `b` is read with leaves a codeword beyond what its code corrects (R323, R324). -/
def Hopeless (b : Nat) (o : DieOut) : Prop := ∀ es ∈ o.tries.take (if b < 128 then 1 else 8), ∃ e ∈ es, codeT b < e

end Sys2Proof.Claims

/-- R324, R325, R331, R334, R335, R340, R342, R343: a page read and decoded reaches its buffer, an appended page the die under the next JSN; a
failed append retires its block; a timeout ends the operation with TIMEOUT; erases, copy records and initialisation run as due. -/
def Obligations.FlashOperationsEnd : Prop :=
  ∀ (s : State),
    (∀ (j : FJob) (b pg : Nat) (pv : FPage) (es : List Nat) (rest : List (List Nat)) (ok inv : Bool), s.flc.cur = some j → j.who = .reg → j.op = .read b pg →
      s.flc.pend = none → s.flc.queue = [] → VaultIdle s → s.on Reg.FLC_STATUS.PWRFAIL = false →
      s.goodBlock (s.physOf b) = true → s.fpage (s.physOf b) pg = some pv → pv.ok = true → s.rdwaitLow = false →
      (∀ e ∈ es, e ≤ codeT (s.physOf b)) → Does (.dieOperationComplete ⟨es :: rest, inv, ok⟩) s (fun t =>
        t.rf Reg.FLC_RESULT.ERR = 0 ∧ (∀ e ∈ es, e ≤ t.rf Reg.FLC_RESULT.CORR) ∧
        (t.rf Reg.FLC_RESULT.CORR ∈ es ∨ t.rf Reg.FLC_RESULT.CORR = 0) ∧
        t.rf Reg.FLC_CE_CNT.COUNT = min (2 ^ Reg.FLC_CE_CNT.COUNT.width - 1) (s.rf Reg.FLC_CE_CNT.COUNT + es.sum) ∧ t.on Reg.FLC_STATUS.DONE = true ∧
        t.on Reg.FLC_STATUS.CMD_BUSY = false ∧ t.on Reg.FLC_STATUS.DIE_BUSY = false ∧ t.flc.cur = none ∧ t.flc.pages = s.flc.pages ∧
        ∀ x, x < (if s.physOf b < 128 then 4128 else 4048) →
          SMap.get t.flc.bufs 0 (0x2000 * j.buf + x) = BitVec.ofNat 8 (pv.data / 256 ^ x))) ∧
    (∀ (j : FJob) (b pg : Nat) (pv : FPage) (o : DieOut), s.flc.cur = some j → j.who = .reg → j.op = .read b pg →
      s.flc.pend = none → s.flc.queue = [] → VaultIdle s → s.on Reg.FLC_STATUS.PWRFAIL = false →
      s.goodBlock (s.physOf b) = true → s.fpage (s.physOf b) pg = some pv → pv.ok = true → s.rdwaitLow = false → Hopeless (s.physOf b) o →
      Does (.dieOperationComplete o) s (fun t => t.rf Reg.FLC_RESULT.ERR = 1 ∧ t.on Reg.FLC_STATUS.DONE = true ∧
        t.rf Reg.FLC_CE_CNT.COUNT = s.rf Reg.FLC_CE_CNT.COUNT ∧
        t.rf Reg.FLC_UE_CNT.COUNT = min (2 ^ Reg.FLC_UE_CNT.COUNT.width - 1) (s.rf Reg.FLC_UE_CNT.COUNT + 1) ∧ t.flc.pages = s.flc.pages)) ∧
    (∀ (j : FJob) (pl src tries : Nat) (inv : Bool) (reads : List (List Nat)), s.flc.cur = some j → j.who = .reg → j.op = .append pl src tries →
      s.flc.pend = none → s.flc.queue = [] → VaultIdle s → s.on Reg.FLC_STATUS.PWRFAIL = false →
      s.rf Reg.FLC_J_HEAD.JSN < 0xFFFFFFFF → s.flc.tgt.2 < 256 →
      let k := s.rf Reg.FLC_J_HEAD.JSN
      Does (.dieOperationComplete ⟨reads, inv, true⟩) s (fun t =>
        t.rf Reg.FLC_RESULT.ERR = 0 ∧ t.rf Reg.FLC_JSN.JSN = k ∧ t.rf Reg.FLC_J_HEAD.JSN = k + 1 ∧ t.on Reg.FLC_STATUS.DONE = true ∧
        t.flc.headPg = s.flc.tgt.2 + 1 ∧ ∃ q, t.fpage s.flc.tgt.1 s.flc.tgt.2 = some q ∧ q.ok = true ∧ q.jsn = k ∧
          q.data % 256 ^ 4000 = pl % 256 ^ 4000) ∧
      Does (.dieOperationComplete ⟨reads, inv, false⟩) s (fun t =>
        t.goodBlock s.flc.tgt.1 = false ∧ t.on Reg.FLC_STATUS.FAULT = true ∧ t.rf Reg.FLC_J_HEAD.JSN = k)) ∧
    (∀ (j : FJob) (b pg : Nat), s.flc.cur = some j → j.who = .reg → j.op = .read b pg → s.flc.queue = [] → VaultIdle s →
      Does .flcOperationTimeout s (fun t => t.rf Reg.FLC_RESULT.ERR = 8 ∧ t.on Reg.FLC_STATUS.DONE = true ∧
        t.on Reg.FLC_STATUS.CMD_BUSY = false ∧ t.on Reg.FLC_STATUS.DIE_BUSY = false ∧ t.flc.cur = none ∧ t.flc.pages = s.flc.pages ∧ t.flc.bufs = s.flc.bufs)) ∧
    (∀ b, s.flc.tailDue = some b → FlashIdle s → s.goodBlock b = true → Does .tailErase s (fun t => t.flc.tailDue = none ∧
      t.flc.cur = some ⟨.maint, .tail b, 0⟩ ∧ SMap.get t.flc.intent true b = false ∧ t.flc.pages = s.flc.pages)) ∧
    (∀ p, s.flc.unrec ≠ [] → FlashIdle s → p < 128 → SMap.get s.flc.fields none p = none → (∀ q, q < p → SMap.get s.flc.fields none q ≠ none) →
      Does .bbtCopyRecord s (fun t => t.flc.cur = some ⟨.maint, .bbt p (s.bbtRecord (s.flc.unrec.take 12)), 0⟩ ∧ t.flc.fields = s.flc.fields)) ∧
    (s.flc.unrec = [] → Does .bbtCopyRecord s (fun t => t = s)) ∧
    (∀ (r : FReq) (u : Upd), s.updReq = some r → s.fsv.upd = some u → s.fsvOnDie = false → s.flc.cur ≠ none → s.on Reg.FLC_STATUS.PWRFAIL = false →
      (r.op = 0x51 → Does .flcProgram s (fun t => t = { s with flc := { s.flc with
        queue := s.flc.queue ++ [⟨.fsv, .program (regionBase u.target + u.next / 128) (u.next % 128) u.page, 0⟩] } })) ∧
      (r.op = 0x50 → u.erased < 48 → Does .flcErase s (fun t => t = { s with flc := { s.flc with
        queue := s.flc.queue ++ [⟨.fsv, .erase (regionBase u.target + u.erased) false, 0⟩] } }))) ∧
    (s.online islFlash = true → s.boot.phase ≠ .start → s.on Reg.FLC_STATUS.PWRFAIL = false → s.on Reg.FLC_STATUS.INIT = true →
      s.on Reg.FLC_STATUS.DIE_FAULT = false → ∀ fails : List Nat,
      Does (.flcInit false fails) s (fun t => t.on Reg.FLC_STATUS.DIE_FAULT = true ∧ t.on Reg.FLC_STATUS.INIT = true ∧ t.flc = s.flc) ∧
      ((∀ b, b < 2048 → SMap.get s.flc.intent true b = true) → Does (.flcInit true fails) s (fun t =>
        t.on Reg.FLC_STATUS.INIT = false ∧ t.on Reg.FLC_STATUS.DIE_FAULT = false ∧ t.flc.pages = s.flc.pages ∧ t.flc.scanned = [])))

/-- R294, R345, R347 to R350, R353, R366: PWRFAIL_N shows in three registers and its end makes a record; a Vault write leaves the current copy readable
until the new one is verified, then that one is current; the check at a start loads TIMEBASE and counts the start. -/
def Obligations.VaultAndPowerFailure : Prop :=
  ∀ (s : State),
    (s.boot.phase = .start → s.rf Reg.SPLL_STATUS.STATE = 0 → ∀ flips, Does (.vaultCheck flips) s (fun t => t = s)) ∧
    (s.pwrLow = true → Does .pwrfailAssert s (fun t => t = s)) ∧ (s.pwrLow = false → Does .pwrfailDeassert s (fun t => t = s)) ∧
    (s.pwrLow = false → s.aonUp = true → s.flc.cur = none → s.flc.queue = [] → Does .pwrfailAssert s (fun t => t.pwrLow = true ∧
      t.record.pwrfails = min (2 ^ 32 - 1) (s.record.pwrfails + 1) ∧ t.on Reg.REC_STATUS.PWRFAIL = true ∧
      t.on Reg.AON_STATUS.PWRFAIL = true ∧ t.on Reg.FLC_STATUS.PWRFAIL = true)) ∧
    (s.pwrLow = true → s.aonUp = true → s.record.events.length < 128 → Does .pwrfailDeassert s (fun t => t.pwrLow = false ∧
      t.on Reg.REC_STATUS.PWRFAIL = false ∧ t.on Reg.AON_STATUS.PWRFAIL = false ∧ t.on Reg.FLC_STATUS.PWRFAIL = false ∧
      ∃ e, t.record.events = s.record.events ++ [e] ∧ e.code = 9 ∧ e.a0 = min (2 ^ 32 - 1) s.record.pwrUs)) ∧
    (∀ q rest, s.aonUp = true → s.vault.cur = none → s.vault.queue = q :: rest → q.id ∈ vaultIds → Does .vaultRecordWrite s (fun t =>
      ∃ w, t.vault.cur = some w ∧ w.id = q.id ∧ w.flush = q.flush ∧ w.body = s.vaultBody q.id ∧ t.vault.queue = rest ∧ ∀ k, t.vaultRead k = s.vaultRead k)) ∧
    (∀ w, s.vault.cur = some w → s.vault.queue = [] → s.on Reg.REC_STATUS.FLUSHING = false → s.flc.pend = none → w.id ∈ vaultIds →
      Does (.vaultWriteComplete true) s (fun t => t = { s with vault := t.vault } ∧ t.vault.cur = none ∧
        t.vaultRead w.id = some (w.body % 256 ^ (vaultLen w.id - 16)) ∧
        (∃ c, t.vaultCurrent w.id = some c ∧ c.id = w.id ∧ c.len = vaultLen w.id ∧ c.crc = crc32c (toBytes c.raw 12 ++ toBytes c.body (vaultLen w.id - 16))) ∧
        ∀ k, k ≠ w.id → t.vaultRead k = s.vaultRead k) ∧
      Does (.vaultWriteComplete false) s (fun t => t.on Reg.AON_STATUS.VAULT_FAULT = true ∧ t.record.total = min (2 ^ 32 - 1) (s.record.total + 1) ∧
        ∀ k, t.vaultRead k = s.vaultRead k)) ∧
    (s.boot.phase = .start → s.spll.key = .none → s.held.any = false → s.rf Reg.SPLL_STATUS.STATE ≠ 0 →
      (s.boot.sys = true → Does (.vaultCheck []) s (fun t => t.boot.phase = .checked ∧ t.record.resets = min (2 ^ 32 - 1) (s.record.resets + 1))) ∧
      (s.boot.sys = false → ∀ w, s.vaultRead 2 = some w → Does (.vaultCheck []) s (fun t => t.boot.phase = .checked ∧
        t.record.opsec = bytesAt w 0 5 ∧ t.record.cycles = min (2 ^ 32 - 1) (bytesAt w 8 4 + 1))))

/-! ## Recorder (spec/14) -/

namespace Sys2Proof.Claims

/-- A presence window was open to the Fobex engine at the end of the previous AON cycle (R385, R391). -/
def presence (src : Src) (s : State) : Prop := src = .fobex ∧ 2 ≤ s.par.was

/-- The newest EVENT record has a code and arguments. -/
def Recorded (s t : State) (code a0 a1 : Nat) : Prop :=
  ∃ e, t.record.events = s.record.events ++ [e] ∧ e.code = code ∧ e.a0 = a0 % 2 ^ 32 ∧ e.a1 = a1 % 2 ^ 32 ∧ e.stamp.opsec = s.record.opsec

end Sys2Proof.Claims

/-- R352, R354 to R356, R365, R378: operating seconds count in 40 bits; a slew is held to 10 s and ends when every tick of it has been added or withheld; a calendar step needs a window
and sets the time; reading the low word, or selecting a bin or a channel, latches what a later read shows. -/
def Obligations.RecorderTimeAndLatches : Prop :=
  ∀ (src : Src) (v : Word) (s : State), s.aonUp = true →
    Does .opsecAdvance s (fun t => t = { s with record := { s.record with opsec := (s.record.opsec + 1) % 2 ^ 40 } }) ∧
    (s.on Reg.RTC_STATUS.SLEWING = true → Refuses (.rtcSlewWrite src v) s recRefuse 3) ∧
    (s.on Reg.RTC_STATUS.SLEWING = false → (327680 < v.toInt ∨ v.toInt < -327680) → Refuses (.rtcSlewWrite src v) s recRefuse 1) ∧
    (s.on Reg.RTC_STATUS.SLEWING = false → v.toInt ≤ 327680 → -327680 ≤ v.toInt → s.record.events.length < 128 →
      Does (.rtcSlewWrite src v) s (fun t => t = { s with io := t.io, rtc := { s.rtc with slew := v.toInt, sub := 0 }, record := t.record } ∧
        t.on Reg.RTC_STATUS.SLEWING = (v != 0) ∧ Recorded s t 3 v.toNat (if src = .fobex then 1 else 0))) ∧
    (s.rtc.slew = 0 → Does .slewEnd s (fun t => Regs s t [Reg.RTC_STATUS_at] [] ∧ t.on Reg.RTC_STATUS.SLEWING = false ∧
      t.on Reg.RTC_STATUS.VALID = s.on Reg.RTC_STATUS.VALID)) ∧
    (s.rtc.slew ≠ 0 → Does .slewEnd s (fun t => t = s)) ∧
    (¬ presence src s → Refuses (.calendarStep src v) s recRefuse 5) ∧
    (presence src s → s.on Reg.REC_STATUS.PWRFAIL = true → Refuses (.calendarStep src v) s recRefuse 3) ∧
    (presence src s → s.on Reg.REC_STATUS.PWRFAIL = false → s.record.events.length < 128 → Does (.calendarStep src v) s (fun t =>
      t.rtc = { s.rtc with cal := s.rf Reg.RTC_SET_SEC.VALUE * 2 ^ 15 + getBits v 0 15, slew := 0, sub := 0 } ∧
      t.on Reg.RTC_STATUS.VALID = true ∧ t.on Reg.RTC_STATUS.SLEWING = false ∧ Recorded s t 2 s.calSec (s.rf Reg.RTC_SET_SEC.VALUE))) ∧
    Does .recOpsecLoRead s (fun t => t = { s with record := { s.record with opHi := s.record.opsec / 2 ^ 32 } }) ∧
    Does .rtcSecRead s (fun t => t = { s with rtc := { s.rtc with frac := s.rtc.cal % 2 ^ 15 } }) ∧
    Does (.recHistSelWrite v) s (fun t => t.record = { s.record with bin := SMap.get (s.chan (getBits v 0 6)).bins 0 (getBits v 8 8) } ∧
      t.rf Reg.REC_HIST_SEL.CHANNEL = getBits v 0 6 ∧ t.rf Reg.REC_HIST_SEL.BIN = getBits v 8 8) ∧
    Does (.recChSelWrite v) s (fun t => t.record = { s.record with chan := t.record.chan } ∧ t.rf Reg.REC_CH_SEL.CHANNEL = getBits v 0 6 ∧
      t.record.chan[0]? = some (BitVec.ofNat 32 (s.chan (getBits v 0 6)).taken) ∧
      t.record.chan[2]? = some (BitVec.ofNat 32 (s.chan (getBits v 0 6)).dropped))

namespace Sys2Proof.Claims

/-- A sample dropped (R360). -/
def Dropped (s t : State) (n : Nat) : Prop :=
  t.chan n = { s.chan n with taken := (s.chan n).taken + 1, dropped := (s.chan n).dropped + 1 } ∧ (∀ m, m ≠ n → t.chan m = s.chan m) ∧
    n ∈ t.record.dirty

/-- The linear bin of R359. -/
def bin (x ofs wid : Int) : Nat := if x < ofs then 0 else if ofs + 254 * wid ≤ x then 255 else ((x - ofs) / wid).toNat + 1

/-- A sample of an integer channel in linear mode taken (R358 to R362): field `x` of word `v`, its bin one higher, the extremes and the time above
the threshold brought up. -/
def Sampled (s t : State) (n : Nat) (v : Word) : Prop :=
  let sg := s.rf (Reg.REC_CH_SRC.VTYPE n) = 1
  let w := s.rf (Reg.REC_CH_SRC.WIDTH n) + 1
  let num (k x : Nat) : Int := if sg then lint k x else (x % 2 ^ k : Nat)
  let x := num w (getBits v (s.rf (Reg.REC_CH_SRC.LSB n)) w)
  let c := s.chan n
  let b := bin x (num 32 (s.rf (Reg.REC_CH_OFS.VALUE n))) (num 32 (s.rf (Reg.REC_CH_WID.VALUE n)))
  (t.chan n).taken = c.taken + 1 ∧ (t.chan n).dropped = c.dropped ∧
    (∀ k, SMap.get (t.chan n).bins 0 k = SMap.get c.bins 0 k + if k = b then 1 else 0) ∧
    (t.chan n).tat = (if num 32 (s.rf (Reg.REC_CH_THR.VALUE n)) ≤ x then c.tat + s.rf (Reg.REC_CH_RATE.PERIOD n) else c.tat) ∧
    ((c.mn.map (fun e => decide (num 32 e.v.toNat ≤ x))).getD false = false → (t.chan n).mn = some (s.extNow (BitVec.ofInt 32 x))) ∧
    ((c.mx.map (fun e => decide (x ≤ num 32 e.v.toNat))).getD false = false → (t.chan n).mx = some (s.extNow (BitVec.ofInt 32 x))) ∧
    (∀ e, c.mn = some e → num 32 e.v.toNat ≤ x → (t.chan n).mn = c.mn) ∧ (∀ e, c.mx = some e → x ≤ num 32 e.v.toNat → (t.chan n).mx = c.mx) ∧
    (∀ m, m ≠ n → t.chan m = s.chan m) ∧ n ∈ t.record.dirty

/-- Channel `n` samples integers in linear bins of positive width. -/
def Integers (s : State) (n : Nat) : Prop :=
  s.rf (Reg.REC_CH_SRC.VTYPE n) < 2 ∧ s.on (Reg.REC_CH_RATE.MODE n) = false ∧
    0 < (if s.rf (Reg.REC_CH_SRC.VTYPE n) = 1 then lint 32 (s.rf (Reg.REC_CH_WID.VALUE n)) else (s.rf (Reg.REC_CH_WID.VALUE n) : Int))

/-- No sampled or snapshot read waits to be issued. -/
def NoReadsDue (s : State) : Prop := s.record.due = [] ∧ s.record.snapDue = []

end Sys2Proof.Claims

/-- R357 to R364, R370, R378: a period issues the channel's read, or drops a sample still waiting; a value that arrives or is pushed is counted in its
bin, with extremes and time above threshold; an error is a dropped sample; configuration needs a window, no taken samples, values in range. -/
def Obligations.ChannelsTakeSamples : Prop :=
  ∀ (n : Fin 64) (s : State), s.aonUp = true →
    (s.rf (Reg.REC_CH_SRC.KIND n.val) = 1 → s.on (Reg.REC_CH_SRC.EN n.val) = true → s.on Reg.REC_STATUS.PWRFAIL = false →
      (NoReadsDue s → s.samplesOut < 8 → Does (.channelSample n) s (fun t => t.record = s.record ∧
        t = { s with io := t.io, net := t.net } ∧ Sends s t islAon 54 0 (.sample n.val) (.ioRd (s.rf (Reg.REC_CH_SRC.ADDR n.val))))) ∧
      (n.val ∈ s.record.due → 8 ≤ s.samplesOut → Does (.channelSample n) s (fun t => Dropped s t n.val ∧ t.net = s.net))) ∧
    (¬ (s.rf (Reg.REC_CH_SRC.KIND n.val) = 1 ∧ s.on (Reg.REC_CH_SRC.EN n.val) = true) → Does (.channelSample n) s (fun t => t = s)) ∧
    (∀ (r : Req) (p : Resp), Answered s r p → r.who = .sample n.val → NoReadsDue s →
      (∀ v, p = .data v → Integers s n.val → Does (.sampleResponse r.id .none) s (fun t => Gone s t r ∧ Sampled s t n.val (BitVec.ofNat 32 v))) ∧
      (∀ e, p = .err e → Does (.sampleResponse r.id .none) s (fun t => Gone s t r ∧ Dropped s t n.val))) ∧
    (∀ (src : Src) (v : Word),
      let live := s.rf (Reg.REC_CH_SRC.KIND n.val) = 2 ∧ s.on (Reg.REC_CH_SRC.EN n.val) = true ∧ s.on Reg.REC_STATUS.PWRFAIL = false
      (src = .fobex → Refuses (.recPush src n v) s recRefuse 4) ∧
      (src ≠ .fobex → ¬ live → Does (.recPush src n v) s (fun t => Regs s t [Reg.REC_PUSH_IGN_at] [] ∧ Counted s t Reg.REC_PUSH_IGN.COUNT)) ∧
      (src ≠ .fobex → live → Integers s n.val → Does (.recPush src n v) s (fun t => t = { s with record := t.record, free := t.free } ∧
        Sampled s t n.val v))) ∧
    (∀ (src : Src) (i : Fin 5) (v : Word),
      let a := Reg.REC_CH_SRC_at n.val + i.val
      let cmd := Instr.channelConfigWrite src n i v
      let w (j : Nat) := if j = i.val then v else s.reg (Reg.REC_CH_SRC_at n.val + j)
      let changes := mapChange i.val (s.reg a) v = true
      let inRange := chanInRange (w 0) (w 1) (w 2) (w 3) = true
      (¬ presence src s → Refuses cmd s recRefuse 5) ∧
      (presence src s → s.on Reg.REC_STATUS.PWRFAIL = true → Refuses cmd s recRefuse 3) ∧
      (presence src s → s.on Reg.REC_STATUS.PWRFAIL = false → (s.chan n.val).taken ≠ 0 → changes → Refuses cmd s recRefuse 2) ∧
      (presence src s → s.on Reg.REC_STATUS.PWRFAIL = false → ((s.chan n.val).taken = 0 ∨ ¬ changes) → ¬ inRange → Refuses cmd s recRefuse 1) ∧
      (presence src s → s.on Reg.REC_STATUS.PWRFAIL = false → ((s.chan n.val).taken = 0 ∨ ¬ changes) → inRange → s.vault.cur ≠ none →
        s.record.events.length < 128 → Does cmd s (fun t => Recorded s t 4 a v.toNat ∧ t.vault.queue = s.vault.queue ++ [⟨0x100 + n.val, false⟩] ∧
          ∀ f ∈ fieldsAt a, getBits (t.reg a) f.lo f.width = getBits v f.lo f.width)))

/-- R365, R368 to R372: a flush queues TIMEBASE, the changed channels and ledger; a history clear needs a window and a broken seal; sets fire for
their sources and list their addresses; waiting records go into one page of the journal. -/
def Obligations.RecorderWritesItsRecords : Prop :=
  ∀ (s : State), s.aonUp = true →
    (∀ i ∈ [Instr.flush, .recFlushNow .keystone],
      (s.on Reg.REC_STATUS.FLUSHING = true → Does i s (fun t => t = { s with record := { s.record with again := true } })) ∧
      (s.on Reg.REC_STATUS.FLUSHING = false → s.record.lost ≤ s.record.lostNoted → s.record.dirty = [] → s.record.dirtyLedger = false →
        s.vault.cur ≠ none → Does i s (fun t => t = { s with io := t.io, vault := t.vault, record := { s.record with flush := [2] } } ∧
          t.vault = { s.vault with queue := s.vault.queue ++ [⟨2, true⟩] } ∧ t.on Reg.REC_STATUS.FLUSHING = true))) ∧
    (∀ (src : Src) (v : Word),
      let i := Instr.historyClear src v
      let sealed' := s.on Reg.PAR_STATUS.SEAL_BROKEN = false
      (¬ presence src s → Refuses i s recRefuse 5) ∧ (presence src s → sealed' → Refuses i s recRefuse 6) ∧
      (presence src s → ¬ sealed' → s.on Reg.REC_STATUS.PWRFAIL = true → Refuses i s recRefuse 3) ∧
      (presence src s → ¬ sealed' → s.on Reg.REC_STATUS.PWRFAIL = false → getBits v 8 6 < getBits v 0 6 → Refuses i s recRefuse 1) ∧
      (presence src s → ¬ sealed' → s.on Reg.REC_STATUS.PWRFAIL = false → getBits v 0 6 ≤ getBits v 8 6 → Does i s (fun t =>
        t.record.histClears = min (2 ^ 32 - 1) (s.record.histClears + 1) ∧
        (∀ n, t.chan n = if v.getLsbD 16 = true ∧ getBits v 0 6 ≤ n ∧ n ≤ getBits v 8 6 then { Chan.zero with recovered := (s.chan n).recovered }
          else s.chan n) ∧
        (v.getLsbD 17 = true → t.record.total = 0 ∧ t.record.ledger = []) ∧
        (v.getLsbD 17 = false → t.record.total = s.record.total ∧ t.record.ledger = s.record.ledger)))) ∧
    (∀ (src : Src) (mask : BitVec 8),
      (src = .fobex → Refuses (.recSnapFire src mask) s recRefuse 4) ∧
      (src ≠ .fobex → Does (.recSnapFire src mask) s (fun t => t = { s with trigs := t.trigs } ∧
        t.trigs = s.trigs ++ ((List.range 8).filter (fun k => mask.getLsbD k)).map (8 + ·)))) ∧
    Does .snapshotFire s (fun t => t.trigs = [] ∧ ∀ k, k < 8 →
      (s.setMask k s.trigs = 0 → t.snap k = s.snap k) ∧
      (∀ x, s.setMask k s.trigs ≠ 0 → s.snap k = some x → t.snap k = some { x with merged := min 65535 (x.merged + 1) }) ∧
      (s.setMask k s.trigs ≠ 0 → s.snap k = none → ∃ x, t.snap k = some x ∧ x.cause = s.setMask k s.trigs ∧ x.stamp.opsec = s.record.opsec ∧
        x.addrs = (List.range (min 32 (s.rf (Reg.REC_SNAP_CTL.COUNT k)))).map (fun i => s.rf (Reg.REC_SNAP_ADDR.ADDR k i)) ∧ x.merged = 0)) ∧
    (s.on Reg.REC_STATUS.PWRFAIL = false → s.on Reg.FLC_STATUS.PWRFAIL = false → s.record.page = none → packRecords s.waiting 3984 ≠ [] → s.flc.cur ≠ none →
      Does .recorderAppend s (fun t => t.record.page.isSome = true ∧ t.record.events = s.record.events ∧
        t.flc.queue = s.flc.queue ++ [⟨.recorder, .append (pagePayload (packRecords s.waiting 3984)) 0 0, 0⟩])) ∧
    (s.record.page ≠ none ∨ s.on Reg.REC_STATUS.PWRFAIL = true → Does .recorderAppend s (fun t => t = s))

/-! ## Parapet, resets, watchdog and boot (spec/15, spec/16) -/

namespace Sys2Proof.Claims

/-- What the Parapet changes beside registers among `as`: its own state, the recorder's, the Vault's and events in flight. -/
def ParOnly (s t : State) (as : List Nat) : Prop :=
  t = { s with io := t.io, par := t.par, net := { s.net with events := t.net.events }, record := t.record, vault := t.vault } ∧
    ∀ a, a ∉ as → t.reg a = s.reg a

/-- The event of a change of the window (R381). -/
def presEv (s : State) : List (Fin 64) := ev s (Reg.PAR_EVCFG.PRES_EVENT, Reg.PAR_EVCFG.PRES_EN)

/-- An OPEN window closes with its cause (R381): CLOSED, the timer 0, PRESENCE_CLOSE recorded, an open update ended (R423). -/
def WindowCloses (s t : State) (why : Nat) : Prop :=
  t.rf Reg.PAR_STATUS.WIN = 0 ∧ t.rf Reg.PAR_WIN_LEFT.SEC = 0 ∧ t.net.events = s.net.events ++ presEv s ∧ Recorded s t 0x11 why 0 ∧
    t.fsv = { s.fsv with upd := none } ∧ ∀ a, a ∉ [Reg.PAR_STATUS_at, Reg.PAR_WIN_LEFT_at] → t.reg a = s.reg a

end Sys2Proof.Claims

/-- R12, R379 to R383, R385, R387, R388, R392, R393: an armed press opens the window, any renews an open one, when it lasts HOLD_S; a shorter one or the
timer at 0 closes it, the timer's cause standing in a shared cycle; two seal samples in a row that do not read the level driven break the seal, once,
with the time of the break; PAR_CFG needs a window, and takes the fields whose values are in range. -/
def Obligations.WindowAndSealFollowTheParapet : Prop :=
  (∀ (s : State), s.aonUp = true → s.record.events.length < 128 →
    let win := s.rf Reg.PAR_STATUS.WIN
    let armed := s.on Reg.PAR_STATUS.ARMED = true
    let down := s.on Reg.PAR_STATUS.BTN = true
    (down → Does .pressBegin s (fun t => t = s)) ∧
    (¬ down → Does .pressBegin s (fun t => ParOnly s t [Reg.PAR_STATUS_at] ∧ t.on Reg.PAR_STATUS.BTN = true ∧ t.on Reg.PAR_STATUS.ARMED = false ∧
      t.record = s.record ∧ (armed → win = 0 → t.rf Reg.PAR_STATUS.WIN = 1 ∧ t.net.events = s.net.events ++ presEv s) ∧
      (¬ (armed ∧ win = 0) → t.rf Reg.PAR_STATUS.WIN = win ∧ t.net = s.net) ∧
      t.par = { s.par with press := s.on Reg.PAR_STATUS.ARMED && decide (win = 0) || decide (win = 2) })) ∧
    (¬ down → Does .pressEnd s (fun t => t = s)) ∧
    (down → win = 1 → Does .pressEnd s (fun t => ParOnly s t [Reg.PAR_STATUS_at] ∧ t.record = s.record ∧ t.rf Reg.PAR_STATUS.WIN = 0 ∧
      t.on Reg.PAR_STATUS.BTN = false ∧ t.net.events = s.net.events ++ presEv s)) ∧
    (down → win = 2 → s.par.press = true → Does .pressEnd s (fun t => WindowCloses s t 1 ∧ t.on Reg.PAR_STATUS.BTN = false)) ∧
    (down → (win = 0 ∨ win = 3 ∨ (win = 2 ∧ s.par.press = false)) → Does .pressEnd s (fun t =>
      t = { s with io := t.io, par := { s.par with press := false } } ∧ t.rf Reg.PAR_STATUS.WIN = win ∧ t.on Reg.PAR_STATUS.BTN = false)) ∧
    (down → win = 1 → Does .holdReached s (fun t => ParOnly s t [Reg.PAR_STATUS_at, Reg.PAR_WIN_LEFT_at] ∧ t.rf Reg.PAR_STATUS.WIN = 2 ∧
      t.rf Reg.PAR_WIN_LEFT.SEC = 60 * s.rf Reg.PAR_CFG.WINDOW_MIN ∧ t.par.windows = min (2 ^ 32 - 1) (s.par.windows + 1) ∧
      t.net.events = s.net.events ++ presEv s ∧ Recorded s t 0x10 0 0)) ∧
    (down → win = 2 → s.par.press = true → Does .holdReached s (fun t => t = { s with io := t.io, par := t.par } ∧
      t.rf Reg.PAR_STATUS.WIN = 2 ∧ t.rf Reg.PAR_WIN_LEFT.SEC = 60 * s.rf Reg.PAR_CFG.WINDOW_MIN)) ∧
    (win = 2 → s.rf Reg.PAR_WIN_LEFT.SEC = 0 → Does .windowExpiry s (fun t => WindowCloses s t 0)) ∧
    (win = 2 → s.rf Reg.PAR_WIN_LEFT.SEC ≠ 0 → Does .windowExpiry s (fun t => t = s)) ∧
    (win ≠ 2 → s.par.closed = none → Does .windowExpiry s (fun t => t = s)) ∧
    (∀ c, win ≠ 2 → s.par.closed = some c → c.due = true → c.why = 1 → Does .windowExpiry s (fun t =>
      t = { s with par := t.par, record := { s.record with
        events := s.record.events.map (fun e => if e.stamp.rseq = c.rseq ∧ e.code = 0x11 then { e with a0 := 0 } else e) } } ∧
      t.par = { s.par with closed := some { c with why := 0 } })) ∧
    (¬ down → Does .buttonArmed s (fun t => t = { s with io := t.io } ∧ t.on Reg.PAR_STATUS.ARMED = true ∧
      ∀ a, a ≠ Reg.PAR_STATUS_at → t.reg a = s.reg a)) ∧
    (down → Does .btnStuck s (fun t => t = { s with io := t.io, par := { s.par with press := false } } ∧ t.on Reg.PAR_STATUS.BTN_STUCK = true ∧
      t.rf Reg.PAR_STATUS.WIN = win))) ∧
  (∀ (s : State) (level : Bool),
    let m := decide (level = !s.par.sealA)
    Does (.sealSample level) s (fun t => t.par.sealA = !s.par.sealA ∧ t.par.miss = !m ∧
      (m = true ∨ s.par.miss = false → t.par.latch = s.par.latch) ∧ (∀ x, s.par.latch = some x → t.par.latch = some x) ∧
      (m = false → s.par.miss = true → s.par.latch = none → 
        t.par.latch = some ⟨s.calSec, s.calFrac, s.on Reg.RTC_STATUS.VALID, !s.held.aon⟩) ∧
      (s.held.aon = false → t.on Reg.PAR_STATUS.SEAL_OPEN = (!m && s.par.miss)) ∧
      ∀ a, a ∉ [Reg.PAR_STATUS_at, Reg.PAR_SEAL_SEC_at, Reg.PAR_SEAL_INFO_at, Reg.REC_LOST_at] → t.reg a = s.reg a)) ∧
  (∀ (s : State), s.aonUp = true → s.held.aon = false → (s.boot.phase ≠ .start ∨ s.boot.sys = true) →
    (s.on Reg.PAR_STATUS.SEAL_BROKEN = false ∨ s.par.recorded = false) → s.par.miss = true → s.par.latch = none →
    s.record.events.length < 128 →
    Does (.sealSample s.par.sealA) s (fun t => t.on Reg.PAR_STATUS.SEAL_BROKEN = true ∧ t.rf Reg.PAR_SEAL_SEC.CAL_SEC = s.calSec ∧
      t.rf Reg.PAR_SEAL_INFO.CAL_FRAC = s.calFrac ∧ t.on Reg.PAR_SEAL_INFO.CAL_VALID = s.on Reg.RTC_STATUS.VALID ∧
      t.on Reg.PAR_SEAL_INFO.ON_VBAT = false ∧ t.par.brokeOp = s.record.opsec ∧ Recorded s t 0x12 0 0 ∧
      t.net.events = s.net.events ++ ev s (Reg.PAR_EVCFG.SEAL_EVENT, Reg.PAR_EVCFG.SEAL_EN))) ∧
  (∀ (src : Src) (v : Word) (s : State), s.aonUp = true →
    let okH := 1 ≤ getBits v 0 4 ∧ getBits v 0 4 ≤ 10
    let okW := 1 ≤ getBits v 8 6 ∧ getBits v 8 6 ≤ 60
    (¬ presence src s → Refuses (.parCfgWrite src v) s parRefuse 1) ∧
    (presence src s → s.vault.cur ≠ none → Does (.parCfgWrite src v) s (fun t =>
      t = { s with io := t.io, net := { s.net with events := t.net.events }, vault := { s.vault with queue := s.vault.queue ++ [⟨3, false⟩] } } ∧
      (okH → t.rf Reg.PAR_CFG.HOLD_S = getBits v 0 4) ∧ (¬ okH → t.rf Reg.PAR_CFG.HOLD_S = s.rf Reg.PAR_CFG.HOLD_S) ∧
      (okW → t.rf Reg.PAR_CFG.WINDOW_MIN = getBits v 8 6) ∧ (¬ okW → t.rf Reg.PAR_CFG.WINDOW_MIN = s.rf Reg.PAR_CFG.WINDOW_MIN) ∧
      (okH ∧ okW → t.net = s.net ∧ ∀ a, a ≠ Reg.PAR_CFG_at → t.reg a = s.reg a) ∧
      (¬ (okH ∧ okW) → t.on Reg.PAR_STATUS.REFUSED = true ∧ t.rf Reg.PAR_STATUS.REASON = 2 ∧
        t.net.events = s.net.events ++ ev s (Reg.PAR_EVCFG.REFUSE_EVENT, Reg.PAR_EVCFG.REFUSE_EN) ∧
        ∀ a, a ∉ [Reg.PAR_CFG_at, Reg.PAR_STATUS_at] → t.reg a = s.reg a))))

namespace Sys2Proof.Claims

/-- What a SYS reset leaves (R10, R26, R394, R416, R459): registers of the piers, Spans and Dispatcher at their reset values, no thread
state, no slot; the memories, the RTC, the Vault's records and registers that only POR or VBAT loads kept, but for CAUSE; both mute latches set and
RESET latched; the watchdog held; the sequence at its start. -/
def SysReset (s t : State) (cause : Nat) : Prop :=
  t.threads = [] ∧ t.slots = [] ∧ t.spans = [] ∧ t.dma = [] ∧ t.gauges = [] ∧ t.cvp = [] ∧ t.cal = none ∧
    (∀ a, a < 0x1600 → t.reg a = State.reset.reg a) ∧ (∀ a, regKind a = .vbat → t.reg a = s.reg a) ∧
    t.ispace = s.ispace ∧ t.spad = s.spad ∧ t.mbox = s.mbox ∧ ((∀ q, q < 4 → s.deckInit q = none) → t.deck = s.deck ∧ t.fills = s.fills) ∧
    t.rtc = s.rtc ∧ t.vault = s.vault ∧ t.par = s.par ∧ t.ovrIn = s.ovrIn ∧ t.estopN = s.estopN ∧
    t.rf Reg.BOOT_RESET_CAUSE.CAUSE = cause ∧ t.on Reg.WDT_STATUS.HELD = true ∧ t.on Reg.WDT_STATUS.STAGE1 = false ∧
    t.on Reg.WDT_STATUS.ARMED = s.on Reg.WDT_STATUS.ARMED ∧
    t.on Reg.ABT_STATUS.MUTE_0 = true ∧ t.on Reg.ABT_STATUS.MUTE_1 = true ∧ t.bit Reg.ABT_SRC_LATCH.SRC 20 = true ∧
    t.boot = Boot.start true

/-- No flash operation, no sampled read and no snapshot read is in progress. -/
def Quiet (s : State) : Prop :=
  s.flc.cur = none ∧ s.samplesInFlight = []

/-- Every island held: OFFLINE but, where `aon`, for AON. -/
def AllOffline (t : State) (aon : Bool) : Prop :=
  ∀ i, i < 30 → t.grade.hasIsland i = true → (t.shell i).st = if aon ∧ i = islAon then .online else .offline

end Sys2Proof.Claims

/-- R10, R26, R272, R389, R394, R415, R416, R459, R482, R516, R531: each cause of a SYS reset has its effect and its code; POR keeps the VBAT
domain, the Vault and the die; POR_N holds every island OFFLINE; a VBAT reset loads the VBAT registers alone; EXTEST holds and releases. -/
def Obligations.ResetsLoadAndKeep : Prop :=
  (∀ (s : State), Quiet s → s.held.any = false →
    (∀ c : ResetCause, c ≠ .por → Does (.sysReset c) s (fun t => SysReset s t c.code)) ∧
    (s.spll.ioLost = true → Does .iopllRelockTimeout s (fun t => SysReset s t 3)) ∧
    (s.fsv.resetDue = true → Does .fobexResetDelay s (fun t => SysReset s t 2)) ∧
    (s.on Reg.WDT_STATUS.HELD = false → s.on Reg.WDT_STATUS.STAGE1 = true → s.rf Reg.WDT_LEFT.MS = 0 → Does .wdtStage2 s (fun t => SysReset s t 1)) ∧
    (∀ (src : Src) (v : Word), s.online islBoot = true → src ≠ .fobex → getBits v 0 16 = 0x5E57 →
      Does (.bootSysreset src v) s (fun t => SysReset s t 4)) ∧
    (Does (.extest true) s (fun t => t.held = { s.held with extest := true } ∧ AllOffline t true ∧ t.threads = [] ∧ t.spad = s.spad))) ∧
  (∀ (s : State), Quiet s → s.held.extest = true → s.held.por = false → s.held.core = false →
    Does (.extest false) s (fun t => t.held.extest = false ∧ ∃ c, 1 ≤ c ∧ c ≤ 4 ∧ SysReset s t c)) ∧
  (∀ (s : State) (jmp pwr : Bool), Quiet s → Does (.por jmp pwr) s (fun t =>
    t.held.por = false ∧ (s.held.extest = false → t.net = Net.reset) ∧ t.threads = [] ∧ t.slots = [] ∧ t.vault = { s.vault with queue := [], cur := none } ∧
    t.flc.pages = s.flc.pages ∧ t.flc.fields = s.flc.fields ∧ t.rtc = { s.rtc with slew := 0, sub := 0 } ∧ t.pwrLow = pwr ∧
    (∀ a, a ∉ [Reg.RTC_STATUS_at, Reg.REC_STATUS_at, Reg.AON_STATUS_at, Reg.FLC_STATUS_at, Reg.ABT_STATUS_at, Reg.ABT_SRC_LATCH_at, Reg.PAR_STATUS_at] →
      t.reg a = if regKind a = .vbat then s.reg a else State.reset.reg a) ∧
    t.on Reg.ABT_STATUS.MUTE_0 = true ∧ t.on Reg.ABT_STATUS.MUTE_1 = true ∧ t.bit Reg.ABT_SRC_LATCH.SRC 20 = true ∧
    t.on Reg.REC_STATUS.PWRFAIL = pwr ∧ t.on Reg.PAR_STATUS.JUMPER = jmp ∧ t.rf Reg.PAR_STATUS.WIN = (if jmp then 3 else 0))) ∧
  (∀ (s : State) (c : PorCause), Quiet s →
    (¬ (c = .vddCore ∧ s.ldr.shdn = true) → s.held.core = false → Does (.porNAssert c) s (fun t =>
      t.held.por = true ∧ AllOffline t false ∧ t.threads = [] ∧ t.rtc.cal = s.rtc.cal ∧ t.vault.recs = s.vault.recs)) ∧
    (c = .vddCore → s.ldr.shdn = true → s.held.por = false → Does (.porNAssert c) s (fun t =>
      t.held = { s.held with core := true } ∧ AllOffline t true ∧ t.threads = [] ∧ t.record.opsec = s.record.opsec ∧ t.rtc = s.rtc))) ∧
  (∀ (s : State), Does .vbatReset s (fun t => t = { s with io := t.io, rtc := State.reset.rtc, par := t.par } ∧
    (∀ a, t.reg a = if regKind a = .vbat then State.reset.reg a else s.reg a) ∧ t.par.latch = none ∧ t.par.vbatLost = true))

/-- R390, R412, R414, R416, R417, R424, R464: a confirm or reject ends the trial of the booted image and latches its UPSEQ; keys, callers and states are
checked in order; 0x5A5A then 0xA5A5 pet the watchdog, anything else counts BADKEY; stage 1 raises the cause, mutes nothing itself and starts the grace count. -/
def Obligations.WatchdogAndTrials : Prop :=
  (∀ (src : Src) (v : Word) (s : State), s.online islBoot = true →
    let trial := s.on Reg.BOOT_STATUS.TRIAL = true
    let k := s.rf Reg.BOOT_STATUS.SLOT
    let ends (i : Instr) (reject : Bool) : Prop := Does i s (fun t => t = { s with io := t.io } ∧ t.rf (if reject then rejOf k else confOf k) = s.rf Reg.BOOT_IMAGE.UPSEQ ∧
      t.rf Reg.BOOT_TRIAL.SLOT = 0 ∧ t.rf Reg.BOOT_TRIAL.TRIES = 0 ∧
      ∀ a, a ∉ [(if reject then rejOf k else confOf k).addr, Reg.BOOT_TRIAL_at, Reg.BOOT_STATUS_at] → t.reg a = s.reg a)
    (src = .fobex → Refuses (.bootConfirm src v) s bootRefuse 3) ∧
    (src ≠ .fobex → getBits v 0 16 ≠ 0xC0F1 → Refuses (.bootConfirm src v) s bootRefuse 2) ∧
    (src ≠ .fobex → getBits v 0 16 = 0xC0F1 → ¬ trial → Refuses (.bootConfirm src v) s bootRefuse 1) ∧
    (src ≠ .fobex → getBits v 0 16 = 0xC0F1 → trial → ends (.bootConfirm src v) (v.getLsbD 16)) ∧
    (∀ e ∈ ([(.trialConfirm, false, 1), (.trialReject, true, 0)] : List ((Src → Word → Instr) × Bool × Nat)),
      (¬ presence src s → Refuses (e.1 src v) s bootRefuse 4) ∧
      (presence src s → ¬ trial ∨ v.getLsbD e.2.2 = true → Refuses (e.1 src v) s bootRefuse 1) ∧
      (presence src s → trial → v.getLsbD e.2.2 = false → ends (e.1 src v) e.2.1)) ∧
    (src = .fobex → Refuses (.bootSysreset src v) s bootRefuse 3) ∧
    (src ≠ .fobex → getBits v 0 16 ≠ 0x5E57 → Refuses (.bootSysreset src v) s bootRefuse 2)) ∧
  (∀ (src : Src) (v : Word) (s : State), s.aonUp = true →
    let key := getBits v 0 16
    let armed := s.on Reg.WDT_STATUS.ARMED = true
    (src = .fobex → Refuses (.wdtKeyWrite src v) s wdtRefuse 3) ∧
    (src ≠ .fobex → ¬ armed → key = 0x5A5A → Does (.wdtKeyWrite src v) s (fun t => t = { s with io := t.io } ∧ t.on Reg.WDT_STATUS.ARMED = true ∧
      ∀ a, a ≠ Reg.WDT_STATUS_at → t.reg a = s.reg a)) ∧
    (src ≠ .fobex → armed → key = 0xA5A5 → s.on Reg.WDT_STATUS.HELD = false → Does (.wdtKeyWrite src v) s (fun t =>
      t = { s with io := t.io, boot := { s.boot with wdtUs := 0 }, quietUs := if s.on Reg.WDT_STATUS.STAGE1 then 0 else s.quietUs } ∧
      t.on Reg.WDT_STATUS.ARMED = false ∧ t.on Reg.WDT_STATUS.STAGE1 = false ∧
      t.rf Reg.WDT_LEFT.MS = 1000 * s.rf Reg.WDT_CFG.TIMEOUT_S ∧ ∀ a, a ∉ [Reg.WDT_STATUS_at, Reg.WDT_LEFT_at] → t.reg a = s.reg a)) ∧
    (src ≠ .fobex → ¬ (armed ∧ key = 0xA5A5) → ¬ (¬ armed ∧ key = 0x5A5A) → Does (.wdtKeyWrite src v) s (fun t => t = { s with io := t.io } ∧
      t.on Reg.WDT_STATUS.ARMED = false ∧ Counted s t Reg.WDT_STATUS.BADKEY))) ∧
  (∀ (s : State),
    (s.on Reg.WDT_STATUS.HELD = false → s.on Reg.WDT_STATUS.STAGE1 = false → s.rf Reg.WDT_LEFT.MS = 0 → s.routeOk (32 + stopOf islAon) 0 = true → Does .wdtStage1 s (fun t =>
      t = { s with io := t.io, boot := { s.boot with wdtUs := 0 }, quietUs := 0, trigs := s.trigs ++ [2], net := t.net, gio := t.gio } ∧
      t.net = { s.net with causes := s.net.causes ++ [(.wdt, 0, 0)] } ∧ t.on Reg.WDT_STATUS.STAGE1 = true ∧
      t.rf Reg.WDT_LEFT.MS = s.rf Reg.WDT_CFG.GRACE_MS ∧ ∀ a, a ∉ [Reg.WDT_STATUS_at, Reg.WDT_LEFT_at] → t.reg a = s.reg a)) ∧
    (s.on Reg.WDT_STATUS.HELD = true ∨ s.rf Reg.WDT_LEFT.MS ≠ 0 → Does .wdtStage1 s (fun t => t = s) ∧ Does .wdtStage2 s (fun t => t = s)))

namespace Sys2Proof.Claims

/-- The sequence moved to a phase; nothing else but its own fields and registers among `as`. -/
def SeqOnly (s t : State) (p : BootPhase) (as : List Nat) : Prop :=
  t = { s with io := t.io, boot := t.boot } ∧ t.boot.phase = p ∧ ∀ a, a ∉ as → t.reg a = s.reg a

/-- The counts a BOOT read of flash may change (R327, R333). -/
def readCounts : List Nat := [Reg.FLC_CE_CNT_at, Reg.FLC_UE_CNT_at]

/-- A candidate of R406: committed, and a user slot's UPSEQ not the one rejected. -/
def Candidate (s : State) (errs : List (Nat × List Nat)) (k : Nat) : Prop :=
  k < 3 ∧ ∃ q, s.bootCommitted errs k = some q ∧ (k ≠ 0 → q ≠ s.rf (rejOf k))

/-- The image is chosen (R412, R413): SLOT, TRIAL and UPSEQ show it. -/
def Chosen (s t : State) (k q : Nat) (trial : Bool) : Prop :=
  t.boot.phase = .verified ∧ t.rf Reg.BOOT_STATUS.SLOT = k ∧ t.on Reg.BOOT_STATUS.TRIAL = trial ∧ t.rf Reg.BOOT_IMAGE.UPSEQ = q ∧
    t = { s with io := t.io, boot := t.boot } ∧
    ∀ a, a ∉ [Reg.BOOT_STATUS_at, Reg.BOOT_IMAGE_at, Reg.BOOT_TRIAL_at] ++ readCounts → t.reg a = s.reg a

/-- Overlay records the sequence applies before release. -/
def early (os : List Ovl) : List Ovl := os.filter (fun o => !o.last)

/-- The sequence goes on to a phase, unless a write has restarted it (R394, R395). -/
def goesOn (u : State) (p : BootPhase) : State := if u.boot.phase = .start then u else { u with boot := { u.boot with phase := p } }

end Sys2Proof.Claims

/-- R403, R406 to R413: candidates in order of UPSEQ, the factory image last; one that fails falls back, one that passes is booted in NORMAL or TRIAL by
Table R412; overlays write whole words or the bits of MASK, and one that resets restarts the sequence; sections are loaded into the piers of their role or the Deck; routes and LDRTAB are written; release
starts the watchdog and records the boot. -/
def Obligations.BootSequenceRuns : Prop :=
  (∀ (errs : List (Nat × List Nat)) (s : State), s.readAt .checked = true → s.on Reg.FLC_STATUS.INIT = false →
    let k := s.rf Reg.BOOT_TRIAL.SLOT
    let lost := s.boot.sys = true ∧ s.rf Reg.BOOT_RESET_CAUSE.CAUSE = 1 ∧ (k = 1 ∨ k = 2)
    (¬ lost → Does (.slotSelection errs) s (fun t => SeqOnly s t .chosen readCounts ∧ (∀ j, j ∈ t.boot.cands ↔ Candidate s errs j) ∧
      (0 ∈ t.boot.cands → t.boot.cands.getLast? = some 0) ∧
      (∀ a b, Candidate s errs 1 → Candidate s errs 2 → s.bootCommitted errs 1 = some a → s.bootCommitted errs 2 = some b →
        t.boot.cands.head? = some (if b ≤ a then 1 else 2)))) ∧
    (lost → Does (.slotSelection errs) s (fun t => SeqOnly s t .chosen ([(rejOf k).addr, Reg.BOOT_TRIAL_at] ++ readCounts) ∧ t.rf Reg.BOOT_TRIAL.SLOT = 0 ∧
      t.rf Reg.BOOT_TRIAL.TRIES = 0 ∧ t.rf (rejOf k) = (s.contHead errs k).elim 0 Head1.upseq % 2 ^ 32 ∧ t.boot.revert = some k))) ∧
  (∀ (errs : List (Nat × List Nat)) (s : State), s.readAt .chosen = true → s.boot.revert = none → s.record.events.length < 127 →
    (s.boot.cands = [] → s.bootVerify errs 3 ≠ 0 ∨ ovls (s.verified 3) = [] → Does (.verification errs) s (fun t => t.boot.phase = .halted ∧ t.rf Reg.BOOT_STATUS.STATE = 2)) ∧
    (∀ k rest, s.boot.cands = k :: rest → k < 3 →
      let c := s.bootVerify errs k
      let q := (s.contHead errs k).elim 0 Head1.upseq
      let fails (code : Nat) : Prop := ∀ n r, rest = n :: r → Does (.verification errs) s (fun t => t.boot.phase = .chosen ∧ t.boot.cands = rest ∧
        t.rf (failOf k) = code % 16 ∧ Counted s t Reg.BOOT_STATUS.FALLBACKS ∧ Recorded s t 0x20 k n)
      (c ≠ 0 → fails c) ∧
      (c = 0 → q < 2 ^ 32 → k = 0 ∨ s.rf (confOf k) = q → Does (.verification errs) s (fun t => Chosen s t k q false ∧
        t.reg Reg.BOOT_TRIAL_at = s.reg Reg.BOOT_TRIAL_at)) ∧
      (c = 0 → q < 2 ^ 32 → k ≠ 0 → s.rf (confOf k) ≠ q → s.rf Reg.BOOT_TRIAL.SLOT = k →
        (s.rf Reg.BOOT_TRIAL.TRIES < 3 → Does (.verification errs) s (fun t => Chosen s t k q true ∧ t.rf Reg.BOOT_TRIAL.SLOT = k ∧
          t.rf Reg.BOOT_TRIAL.TRIES = s.rf Reg.BOOT_TRIAL.TRIES + 1)) ∧
        (s.rf Reg.BOOT_TRIAL.TRIES = 3 → fails 0xA)) ∧
      (c = 0 → q < 2 ^ 32 → k ≠ 0 → s.rf (confOf k) ≠ q → s.rf Reg.BOOT_TRIAL.SLOT ≠ k → Does (.verification errs) s (fun t =>
        Chosen s t k q true ∧ t.rf Reg.BOOT_TRIAL.SLOT = k ∧ t.rf Reg.BOOT_TRIAL.TRIES = 1)))) ∧
  (∀ (errs : List (Nat × List Nat)) (s : State), s.readAt .verified = true →
    let c := s.bootVerify errs 3
    let own := early (ovls s.imageOf)
    (c ≠ 0 → own = [] → Does (.overlayApply errs) s (fun t => SeqOnly s t .overlaid (Reg.BOOT_FAIL_at :: readCounts) ∧ t.rf Reg.BOOT_FAIL.DEFAULTS = c % 16)) ∧
    (c = 0 → own = [] → early (ovls (s.verified 3)) = [] → Does (.overlayApply errs) s (fun t => SeqOnly s t .overlaid readCounts ∧ t.boot.defaults = true)) ∧
    (∀ o, c = 0 → own = [] → early (ovls (s.verified 3)) = [o] → o.perPier = false →
      let r := s.verifyReads errs 3
      let s' := { r with boot := { r.boot with defaults := true } }
      (∀ u, o.mask = 0xFFFFFFFF → s'.ioWrite .keystone 53 o.addr (BitVec.ofNat 32 o.value) = (.done 0, u) →
        Does (.overlayApply errs) s (fun t => t = goesOn u .overlaid)) ∧
      (∀ u v w, o.mask ≠ 0xFFFFFFFF → s'.ioRead .keystone 53 o.addr = (.done v, u) →
        u.ioWrite .keystone 53 o.addr (BitVec.ofNat 32 ((v &&& (0xFFFFFFFF - o.mask)) ||| (o.value &&& o.mask))) = (.done 0, w) →
        Does (.overlayApply errs) s (fun t => t = goesOn w .overlaid)) ∧
      (∀ u e, o.mask = 0xFFFFFFFF → s'.ioWrite .keystone 53 o.addr (BitVec.ofNat 32 o.value) = (e, u) → e ≠ .done 0 → u.boot.phase ≠ .start →
        Does (.overlayApply errs) s (fun t => Counted u t Reg.BOOT_STATUS.OVL_ERR ∧ t.boot.phase = .overlaid)))) ∧
  (∀ (errs : List (Nat × List Nat)) (s : State), s.readAt .overlaid = true →
    let img := (s.loadImage errs).1
    Does (.roleInstantiation errs) s (fun t => t.boot.phase = .loaded ∧ t.threads = s.threads ∧ t.mbox = s.mbox ∧
      (∀ (i p : Nat) (x : Sec), img[i]? = some x → x.ty = 2 → p < s.grade.piers → s.online p = true → roleOf (roles img) p = some x.arg →
        (∀ j y, img[j]? = some y → y.ty = 2 → bytesAt y.body 0 4 + (y.size - 8) ≤ 0x20000 ∧ (roleOf (roles img) p = some y.arg → j = i)) →
        ∀ k, k < x.size - 8 → SMap.get t.ispace 0 (0x20000 * p + bytesAt x.body 0 4 + k) = BitVec.ofNat 8 (secCopy s.grade img i p x / 256 ^ k)) ∧
      ((∀ y ∈ img, y.ty ≠ 4) → t.deck = s.deck) ∧ ((∀ y ∈ img, y.ty ≠ 2) → t.ispace = s.ispace) ∧ ((∀ y ∈ img, y.ty ≠ 3) → t.spad = s.spad))) ∧
  (∀ (s : State), s.seqAt .loaded = true → ofType s.imageOf 8 = [] →
    let rts := ((ofType s.imageOf 7).filter (fun x => x.arg == s.grade.shape)).flatMap routesOf
    (rts = [] → Does .routesWrite s (fun t => SeqOnly s t .routed [])) ∧
    (∀ q u w, rts = [q] → (s.ioWrite .keystone 53 Reg.VIA_RT_SEL_at (BitVec.ofNat 32 (2 ^ 8 * q.1 + q.2.1))).2 = u →
      (u.ioWrite .keystone 53 Reg.VIA_RT_DATA_at (BitVec.ofNat 32 q.2.2.1.toNat)).2 = w →
      Does .routesWrite s (fun t => t = { w with boot := { w.boot with phase := .routed } }))) ∧
  (∀ (s : State), s.seqAt .routed = true → s.vaultPending (fun id => id == 2) = false → s.boot.defaults = false → roles s.imageOf = [] →
    (ovls s.imageOf).filter (fun o => o.last) = [] → s.record.events.length < 128 →
    Does .release s (fun t => t.boot.phase = .released ∧ t.rf Reg.BOOT_STATUS.STATE = 1 ∧ t.on Reg.WDT_STATUS.HELD = false ∧
      t.rf Reg.WDT_LEFT.MS = 1000 * s.rf Reg.WDT_CFG.TIMEOUT_S ∧ t.rf Reg.BOOT_TIME.MS = min 65535 (s.boot.us / 1000) ∧ t.threads = s.threads ∧
      Recorded s t 1 (b2n s.boot.sys) (s.rf Reg.BOOT_RESET_CAUSE.CAUSE)))

/-! ## Service port (spec/19) -/

namespace Sys2Proof.Claims

/-- Nothing changes but the MACs and registers among `as`. -/
def MacOnly (s t : State) (as : List Nat) : Prop :=
  t = { s with io := t.io, eth := { s.eth with macs := t.eth.macs } } ∧ ∀ a, a ∉ as → t.reg a = s.reg a

/-- A discard counted (Table fsv-2), and nothing else. -/
def Discarded (s t : State) (m code : Nat) : Prop :=
  MacOnly s t [] ∧ (∀ c, SMap.get (t.mac m).drops 0 c = if c = code then min (2 ^ 32 - 1) (SMap.get (s.mac m).drops 0 c + 1)
    else SMap.get (s.mac m).drops 0 c) ∧
    ∀ k, t.mac k = if k = m then { s.mac m with drops := (t.mac m).drops } else s.mac k

/-- One frame more waits on MAC `m`, of a class: to `da`, its EtherType and what follows. -/
def Queued (s t : State) (m cls da ty : Nat) (body : List Nat → Prop) : Prop :=
  ∃ f, (t.mac m).txq = (s.mac m).txq ++ [f] ∧ f.cls = cls ∧
    slice (natsOf f.bytes) 0 12 = toBe da 6 ++ toBe (macAddr m) 6 ∧
    (s.on (Reg.ETH_VLAN.VEN m) = false → slice (natsOf f.bytes) 12 2 = toBe ty 2 ∧ body ((natsOf f.bytes).drop 14))

/-- A DHCP message of a type (Table fsv-4): UDP from 68 to 67, magic cookie, option 53. -/
def IsDhcp (ty : Nat) (b : List Nat) : Prop :=
  slice b 9 1 = [17] ∧ slice b 20 4 = toBe 68 2 ++ toBe 67 2 ∧ slice b 264 7 = [0x63, 0x82, 0x53, 0x63, 53, 1, ty]

/-- The MAC is sending: a frame queued waits. -/
def Sending (s : State) (m : Nat) : Prop := (s.mac m).sending ≠ none

/-- LINK_EVENT (R465, R475). -/
def linkEv (s : State) : List (Fin 64) := ev s (Reg.ETH_EVCFG.LINK_EVENT, Reg.ETH_EVCFG.LINK_EN)

/-- An IPv4 header of the form R471 sends, checked: total length and protocol, from `src` to `dst`. -/
def IpHeader (b : List Nat) (total proto src dst : Nat) : Prop :=
  20 ≤ b.length ∧ total ≤ b.length ∧ 20 ≤ total ∧ beAt b 0 1 = 0x45 ∧ beAt b 2 2 = total ∧ csum16 (slice b 0 20) = 0 ∧
    beAt b 9 1 = proto ∧ beAt b 12 4 = src ∧ beAt b 16 4 = dst

end Sys2Proof.Claims

/-- R465, R468 to R474, R491, Tables fsv-1 and fsv-2: a frame is discarded by its first failing check, each counted; ARP requests for the own address are
answered, pause frames stop transmission, datagrams for firmware are queued; a frame sent is counted and the next of the highest class starts. -/
def Obligations.FramesAreCheckedAndServed : Prop :=
  (∀ (m : Fin 2) (f : List Byte) (fcs full : Bool) (s : State), s.ethUp = true →
    let n := natsOf f
    let cmd := Instr.frameReceive m f fcs full
    let da := beAt n 0 6
    let ty := beAt n 12 2
    let body := (n.take (n.length - 4)).drop 14
    (s.ethServes = false → Does cmd s (fun t => Discarded s t m.val 0x11)) ∧
    (s.ethServes = true → s.on (Reg.ETH_LINK.UP m.val) = false → Does cmd s (fun t => t = s)) ∧
    (s.ethServes = true → s.on (Reg.ETH_LINK.UP m.val) = true →
      (fcs = false → Does cmd s (fun t => Discarded s t m.val 0x00)) ∧
      (fcs = true → f.length < 64 → Does cmd s (fun t => Discarded s t m.val 0x01)) ∧
      (fcs = true → 64 ≤ f.length → ty = 0x8100 →
        (beAt n 16 2 = 0x8100 ∨ beAt n 16 2 = 0x88A8 → Does cmd s (fun t => Discarded s t m.val 0x03)) ∧
        (beAt n 16 2 ≠ 0x8100 → beAt n 16 2 ≠ 0x88A8 → 1522 < f.length → Does cmd s (fun t => Discarded s t m.val 0x02))) ∧
      (fcs = true → 64 ≤ f.length → ty ≠ 0x8100 →
        (1518 < f.length → ty ≠ 0x88A8 → Does cmd s (fun t => Discarded s t m.val 0x02)) ∧
        (ty = 0x88A8 → Does cmd s (fun t => Discarded s t m.val 0x03)) ∧
        (f.length ≤ 1518 → ty ≠ 0x88A8 → ty ≠ 0x8808 → da ≠ macAddr m.val → da ≠ 2 ^ 48 - 1 → Does cmd s (fun t => Discarded s t m.val 0x04)) ∧
        (f.length ≤ 1518 → ty ≠ 0x88A8 → ty ≠ 0x8808 → (da = macAddr m.val ∨ da = 2 ^ 48 - 1) → s.on (Reg.ETH_VLAN.VEN m.val) = false →
          (ty ≠ 0x0800 → ty ≠ 0x0806 → Does cmd s (fun t => Discarded s t m.val 0x05)) ∧
          ((ty = 0x0800 ∨ ty = 0x0806) → full = true → Does cmd s (fun t => Discarded s t m.val 0x06)) ∧
          ((ty = 0x0800 ∨ ty = 0x0806) → full = false →
            let counted (t : State) : Prop := t.rf (Reg.ETH_RX_FRAMES.COUNT m.val) = (s.rf (Reg.ETH_RX_FRAMES.COUNT m.val) + 1) % 2 ^ 32
            let own := s.rf (Reg.ETH_IPADDR.VALUE m.val)
            (s.rf (Reg.ETH_IPCFG.MODE m.val) = 0 → Does cmd s (fun t => counted t ∧ MacOnly s t [Reg.ETH_RX_FRAMES_at m.val] ∧ t.eth = s.eth)) ∧
            (s.rf (Reg.ETH_IPCFG.MODE m.val) ≠ 0 → own ≠ 0 → ty = 0x0806 → Sending s m.val → slice body 0 8 = [0, 1, 8, 0, 6, 4, 0, 1] →
              beAt body 24 4 = own → Does cmd s (fun t => counted t ∧ MacOnly s t [Reg.ETH_RX_FRAMES_at m.val] ∧
                Queued s t m.val 0 (beAt body 8 6) 0x0806 (fun b => b = [0, 1, 8, 0, 6, 4, 0, 2] ++ toBe (macAddr m.val) 6 ++ toBe own 4 ++
                  toBe (beAt body 8 6) 6 ++ toBe (beAt body 14 4) 4))) ∧
            (s.rf (Reg.ETH_IPCFG.MODE m.val) ≠ 0 → ty = 0x0800 →
              let badIp (code : Nat) : Prop := Does cmd s (fun t => counted t ∧ SMap.get (t.mac m.val).drops 0 code =
                min (2 ^ 32 - 1) (SMap.get (s.mac m.val).drops 0 code + 1) ∧ MacOnly s t [Reg.ETH_RX_FRAMES_at m.val])
              (beAt body 0 1 ≠ 0x45 ∨ csum16 (slice body 0 20) ≠ 0 ∨ body.length < beAt body 2 2 → badIp 0x07) ∧
              (∀ total proto src dst, IpHeader body total proto src dst →
                (beAt body 6 2 % 2 ^ 14 ≠ 0 → badIp 0x08) ∧
                (beAt body 6 2 % 2 ^ 14 = 0 → own ≠ 0 → dst ≠ own → dst ≠ 2 ^ 32 - 1 → dst ≠ s.ipSubAll m.val → badIp 0x09) ∧
                (beAt body 6 2 % 2 ^ 14 = 0 → own ≠ 0 → dst = own → proto ≠ 1 → proto ≠ 17 → badIp 0x0A) ∧
                (beAt body 6 2 % 2 ^ 14 = 0 → own ≠ 0 → dst = own → proto = 17 → 28 ≤ total →
                  let u := slice body 20 (total - 20)
                  let port := beAt u 2 2
                  beAt u 4 2 = total - 20 → beAt u 6 2 = 0 → port = s.rf (Reg.ETH_FW_PORT.PORT_A 0) → port ≠ 0 → port ≠ 68 → port ≠ 47110 →
                  ((s.eth.frx.map (fun d => d.data.length)).sum + (total - 28) ≤ 16384 → Does cmd s (fun t => counted t ∧
                    t.eth.frx = s.eth.frx ++ [⟨m.val, src, beAt u 0 2, port, octetsOf (u.drop 8)⟩])) ∧
                  (16384 < (s.eth.frx.map (fun d => d.data.length)).sum + (total - 28) → badIp 0x12))))))))) ∧
  (∀ (m : Fin 2) (s : State),
    (∀ f, (s.mac m.val).sending = some f → (∀ n, n < 4 → (s.strm n).owner = none) → Does (.frameTransmitEnd m) s (fun t =>
      MacOnly s t [Reg.ETH_TX_FRAMES_at m.val, Reg.ETH_FTX_STAT_at] ∧
      t.rf (Reg.ETH_TX_FRAMES.COUNT m.val) = (s.rf (Reg.ETH_TX_FRAMES.COUNT m.val) + 1) % 2 ^ 32 ∧
      (f.cls = 2 → t.rf Reg.ETH_FTX_STAT.SENT = (s.rf Reg.ETH_FTX_STAT.SENT + 1) % 2 ^ Reg.ETH_FTX_STAT.SENT.width) ∧
      ((s.mac m.val).txq = [] ∨ s.canSend m.val = false → (t.mac m.val).sending = none ∧ (t.mac m.val).txq = (s.mac m.val).txq) ∧
      (∀ g rest, s.canSend m.val = true → (s.mac m.val).txq = g :: rest → g.cls < 4 → (∀ h ∈ rest, g.cls ≤ h.cls) →
        (t.mac m.val).sending = some g ∧ (t.mac m.val).txq = rest))) ∧
    ((s.mac m.val).sending = none → Does (.frameTransmitEnd m) s (fun t => t = s)) ∧
    ((s.mac m.val).txq ≠ [] → (∀ n, n < 4 → (s.strm n).owner = none) → Does (.txDiscard m) s (fun t => MacOnly s t [] ∧
      (t.mac m.val).txq = (s.mac m.val).txq.drop 1 ∧
      SMap.get (t.mac m.val).drops 0 0x13 = min (2 ^ 32 - 1) (SMap.get (s.mac m.val).drops 0 0x13 + 1))) ∧
    (s.on (Reg.ETH_LINK.PAUSED m.val) = true → Does (.pauseExpiry m) s (fun t => MacOnly s t [Reg.ETH_LINK_at m.val] ∧
      t.on (Reg.ETH_LINK.PAUSED m.val) = false ∧ t.on (Reg.ETH_LINK.UP m.val) = s.on (Reg.ETH_LINK.UP m.val) ∧
      (Sending s m.val → t.eth = s.eth) ∧
      (∀ g, (s.mac m.val).sending = none → s.on (Reg.ETH_LINK.UP m.val) = true → (s.mac m.val).txq = [g] → g.cls < 4 →
        (t.mac m.val).sending = some g ∧ (t.mac m.val).txq = []))))

/-- R465, R466, R472, R475, R491: ARP retries three times and ages; the PHY's registers set the link, MDIO runs one transaction at a time; the DHCP client repeats,
renews, rebinds and loses its lease; firmware reads, pops, stages and sends its datagrams, or is refused. -/
def Obligations.ClientsAndFirmwareQueues : Prop :=
  (∀ (i : Fin 2) (f : FwOut) (s : State), s.eth.ftx[i.val]? = some f → f.mac < 2 →
    (f.tries < 3 → s.rf (Reg.ETH_IPCFG.MODE f.mac) = 0 → Does (.arpRetry i) s (fun t =>
      t = { s with eth := { s.eth with ftx := s.eth.ftx.set i.val { f with tries := f.tries + 1 } } })) ∧
    (f.tries < 3 → s.rf (Reg.ETH_IPCFG.MODE f.mac) ≠ 0 → Sending s f.mac → Does (.arpRetry i) s (fun t => t = { s with eth := t.eth } ∧
      t.eth.ftx = s.eth.ftx.set i.val { f with tries := f.tries + 1 } ∧
      Queued s t f.mac 0 (2 ^ 48 - 1) 0x0806 (fun b => slice b 0 8 = [0, 1, 8, 0, 6, 4, 0, 1] ∧ slice b 24 4 = toBe f.hop 4))) ∧
    (3 ≤ f.tries → Does (.arpRetry i) s (fun t => t = { s with eth := t.eth } ∧ t.eth.ftx = s.eth.ftx.eraseIdx i.val ∧
      SMap.get (t.mac f.mac).drops 0 0x14 = min (2 ^ 32 - 1) (SMap.get (s.mac f.mac).drops 0 0x14 + 1)))) ∧
  (∀ (m : Fin 2) (ip : BitVec 32) (s : State), Does (.arpAge m ip) s (fun t => MacOnly s t [] ∧
    (t.mac m.val).arp = (s.mac m.val).arp.filter (fun e => e.ip != ip.toNat) ∧ (t.mac m.val).txq = (s.mac m.val).txq)) ∧
  (∀ (m : Fin 2) (r1 r4 r5 r9 r10 : BitVec 16) (s : State), s.ethUp = true → s.ethServes = true → s.on (Reg.ETH_MAC_CFG.EN m.val) = true →
    s.rf (Reg.ETH_MAC_CFG.SPEED m.val) = 0 → Sending s m.val →
    let up := r1.getLsbD 2 = true ∧ r1.getLsbD 5 = true
    let link (u h : Bool) (sp : Nat) : Prop := Does (.phyPoll m r1 r4 r5 r9 r10) s (fun t =>
      Regs s t [Reg.ETH_LINK_at m.val] (if t.reg (Reg.ETH_LINK_at m.val) = s.reg (Reg.ETH_LINK_at m.val) then [] else linkEv s) ∧
      t.on (Reg.ETH_LINK.UP m.val) = u ∧ t.on (Reg.ETH_LINK.HALF m.val) = h ∧ t.rf (Reg.ETH_LINK.SPEED m.val) = sp)
    (¬ up → link false false 0) ∧
    (up → r9.getLsbD 9 = true → r10.getLsbD 11 = true → link true false 3) ∧
    (up → r9.getLsbD 9 = false → r9.getLsbD 8 = false → r4.getLsbD 8 = true → r5.getLsbD 8 = true → link true false 2) ∧
    (up → r9 = 0 → r4.getLsbD 8 = false → r4.getLsbD 7 = false → r4.getLsbD 6 = true → r5.getLsbD 6 = true → link true false 1) ∧
    (up → r9 = 0 → r4 = 0 → link false false 0)) ∧
  (∀ (src : Src) (v : Word) (data : BitVec 16) (s : State), s.ethUp = true →
    (src = .fobex → Refuses (.mdioCmd src v) s ethRefuse 3) ∧
    (src ≠ .fobex → s.on Reg.ETH_STATUS.MDIO_BUSY = true → Refuses (.mdioCmd src v) s ethRefuse 1) ∧
    (src ≠ .fobex → s.on Reg.ETH_STATUS.MDIO_BUSY = false → Does (.mdioCmd src v) s (fun t =>
      t = { s with io := t.io, eth := { s.eth with mdio := some v } } ∧ t.on Reg.ETH_STATUS.MDIO_BUSY = true)) ∧
    (∀ w, s.eth.mdio = some w → Does (.mdioComplete data) s (fun t => t = { s with io := t.io, eth := { s.eth with mdio := none } } ∧
      t.on Reg.ETH_STATUS.MDIO_BUSY = false ∧ t.rf Reg.ETH_MDIO_DATA.DATA = if w.getLsbD 16 then s.rf Reg.ETH_MDIO_DATA.DATA else data.toNat))) ∧
  (∀ (m : Fin 2) (s : State), s.ethServes = true → s.rf (Reg.ETH_IPCFG.MODE m.val) = 2 → Sending s m.val →
    let st := s.rf (Reg.ETH_DHCP.STATE m.val)
    let d := (s.mac m.val).dhcp
    let asks (t : State) (da ty : Nat) : Prop := Queued s t m.val 0 da 0x0800 (IsDhcp ty)
    let init (i : Instr) : Prop := Does i s (fun t => t.rf (Reg.ETH_DHCP.STATE m.val) = 1 ∧ t.rf (Reg.ETH_IPADDR.VALUE m.val) = 0 ∧
      t.rf (Reg.ETH_DHCP.LEFT m.val) = 0 ∧ asks t (2 ^ 48 - 1) 1 ∧ t.net.events = s.net.events ++ linkEv s)
    (st = 1 → Does (.dhcpRetransmit m) s (fun t => MacOnly s t [] ∧ asks t (2 ^ 48 - 1) 1 ∧ (t.mac m.val).dhcp = { d with sends := d.sends + 1 })) ∧
    (st = 2 → d.sends < 4 → Does (.dhcpRetransmit m) s (fun t => MacOnly s t [] ∧ asks t (2 ^ 48 - 1) 3 ∧
      (t.mac m.val).dhcp = { d with sends := d.sends + 1 })) ∧
    (st = 2 → 4 ≤ d.sends → init (.dhcpRetransmit m)) ∧
    (st = 4 → Does (.dhcpRetransmit m) s (fun t => MacOnly s t [] ∧ asks t d.hw 3)) ∧
    (st = 5 → Does (.dhcpRetransmit m) s (fun t => MacOnly s t [] ∧ asks t (2 ^ 48 - 1) 3)) ∧
    (st = 3 → d.lease ≠ 0xFFFFFFFF → Does (.dhcpT1 m) s (fun t => t.rf (Reg.ETH_DHCP.STATE m.val) = 4 ∧ asks t d.hw 3 ∧
      t.net.events = s.net.events ++ linkEv s)) ∧
    (st = 4 → d.lease ≠ 0xFFFFFFFF → Does (.dhcpT2 m) s (fun t => t.rf (Reg.ETH_DHCP.STATE m.val) = 5 ∧ asks t (2 ^ 48 - 1) 3)) ∧
    (3 ≤ st → d.lease ≠ 0xFFFFFFFF → init (.leaseExpiry m)) ∧
    (d.lease = 0xFFFFFFFF → Does (.dhcpT1 m) s (fun t => t = s) ∧ Does (.dhcpT2 m) s (fun t => t = s) ∧ Does (.leaseExpiry m) s (fun t => t = s))) ∧
  (∀ (src : Src) (v : Word) (s : State), s.ethUp = true →
    Does (.ethFrxDataRead src) s (fun t => t = { s with io := t.io, eth := { s.eth with frxAt := s.eth.frxAt + 1 } } ∧ ∀ a, t.reg a = s.reg a) ∧
    (src = .fobex → Refuses (.ethFrxPop src v) s ethRefuse 3 ∧ Refuses (.ethFtxDataWrite src v) s ethRefuse 3 ∧
      Refuses (.ethFtxSend src v) s ethRefuse 3) ∧
    (src ≠ .fobex →
      Does (.ethFrxPop src v) s (fun t => t = { s with eth := { s.eth with frx := s.eth.frx.drop 1, frxAt := 0 } }) ∧
      (2 ≤ s.fwWaiting → Refuses (.ethFtxDataWrite src v) s ethRefuse 6) ∧
      (s.fwWaiting < 2 → Does (.ethFtxDataWrite src v) s (fun t => t = { s with eth := { s.eth with words := s.eth.words ++ [v] } })) ∧
      (let len := getBits v 0 11
       let m := getBits v 16 1
       let sport := s.rf Reg.ETH_FTX_PORTS.SRC
       let dst := s.rf Reg.ETH_FTX_DST.VALUE
       let lenOk := 1 ≤ len ∧ len ≤ 1472 ∧ s.eth.words.length = (len + 3) / 4
       let near := dst &&& s.rf (Reg.ETH_NETMASK.VALUE m) = s.ipAddr m &&& s.rf (Reg.ETH_NETMASK.VALUE m)
       (¬ lenOk → Refuses (.ethFtxSend src v) s ethRefuse 5) ∧
       (lenOk → sport ∈ [0, 67, 68, 47110] → Refuses (.ethFtxSend src v) s ethRefuse 4) ∧
       (lenOk → sport ∉ [0, 67, 68, 47110] → 2 ≤ s.fwWaiting → Refuses (.ethFtxSend src v) s ethRefuse 6) ∧
       (lenOk → sport ∉ [0, 67, 68, 47110] → s.fwWaiting < 2 → s.ipAddr m = 0 → Refuses (.ethFtxSend src v) s ethRefuse 1) ∧
       (lenOk → sport ∉ [0, 67, 68, 47110] → s.fwWaiting < 2 → s.ipAddr m ≠ 0 →
         (¬ near → s.rf (Reg.ETH_GATEWAY.VALUE m) = 0 → Does (.ethFtxSend src v) s (fun t => t.eth.words = [] ∧
           SMap.get (t.mac m).drops 0 0x15 = min (2 ^ 32 - 1) (SMap.get (s.mac m).drops 0 0x15 + 1))) ∧
         (∀ e ∈ (s.mac m).arp, near → e.ip = dst → (∀ e' ∈ (s.mac m).arp, e'.ip = dst → e' = e) → Sending s m → Does (.ethFtxSend src v) s (fun t =>
           t.eth.words = [] ∧ Queued s t m 2 (e.hw % 2 ^ 48) 0x0800 (fun b => slice b 9 1 = [17] ∧ slice b 16 4 = toBe dst 4 ∧
             slice b 20 4 = toBe sport 2 ++ toBe (s.rf Reg.ETH_FTX_PORTS.DST) 2 ∧
             b.drop 28 = (s.eth.words.flatMap (fun w => toBytes w.toNat 4)).take len))) ∧
         (near → (∀ e ∈ (s.mac m).arp, e.ip ≠ dst) → Sending s m → Does (.ethFtxSend src v) s (fun t =>
           t.eth.words = [] ∧ t.eth.ftx.length = s.eth.ftx.length + 1 ∧
           Queued s t m 0 (2 ^ 48 - 1) 0x0806 (fun b => slice b 0 8 = [0, 1, 8, 0, 6, 4, 0, 1] ∧ slice b 24 4 = toBe dst 4)))))))

namespace Sys2Proof.Claims

/-- A Fobex datagram (Table fsv-5): magic, version 1, FLAGS, OPCODE, STATUS, LEN, SESSION, SEQ, 0, the data and its CRC-32C. -/
def datagram (flags op status session seq : Nat) (data : List Nat) : List Nat :=
  let h := [0x42, 0x46, 1, flags, op, status] ++ toBytes data.length 2 ++ toBytes session 4 ++ toBytes seq 2 ++ [0, 0]
  h ++ data ++ toBytes (crc32c (h ++ data)) 4

/-- A payload of the engine waits on the peer's MAC: a frame of a class to the peer's MAC address, from the address its request reached. -/
def SentTo (s t : State) (p : Peer) (cls : Nat) (pl : List Nat) : Prop :=
  ∃ f, (t.mac p.mac).txq = (s.mac p.mac).txq ++ [f] ∧ f.cls = cls ∧ slice (natsOf f.bytes) 0 6 = toBe p.hw 6 ∧
    (s.on (Reg.ETH_VLAN.VEN p.mac) = false → slice (natsOf f.bytes) 26 8 = toBe p.own 4 ++ toBe p.ip 4 ∧ (natsOf f.bytes).drop 42 = pl)

/-- Request `r` heads the queue, of an opcode, not started, its peer's MAC with an address mode and sending another frame. -/
def Waiting' (s : State) (r : FReq) (op : Nat) (rest : List FReq) : Prop :=
  s.fsv.reqs = r :: rest ∧ r ∉ rest ∧ r.op = op ∧ r.started = false ∧ Sending s r.peer.mac ∧ s.rf (Reg.ETH_IPCFG.MODE r.peer.mac) ≠ 0

/-- The reply of R476 and R480: sent, counted, the request gone, the session's last SEQ and stored reply this one's. -/
def Replied (s t : State) (r : FReq) (st : Nat) (data : List Nat) : Prop :=
  SentTo s t r.peer 1 (datagram 1 r.op st r.session r.seq data) ∧ t.fsv.reqs = s.fsv.reqs.drop 1 ∧
    t.rf Reg.FSV_REQ_CNT.COUNT = (s.rf Reg.FSV_REQ_CNT.COUNT + 1) % 2 ^ 32 ∧ (st = 6 → Counted s t Reg.FSV_BUSY_CNT.COUNT) ∧
    (∀ k x, r.slot = some k → s.sess k = some x →
      t.sess k = some { x with seq := r.seq, exec := none, reply := some (octetsOf (datagram 1 r.op st r.session r.seq data)) })

/-- The command replies to `r` with a status and data. -/
def Replies (i : Instr) (s : State) (r : FReq) (st : Nat) (data : List Nat) : Prop := Does i s (fun t => Replied s t r st data)

/-- A request started in the flash lane: it holds the die (R328). -/
def Started (t : State) (r : FReq) : Prop := t.fsv.reqs.head? = some { r with started := true } ∧ t.flc.hold = true

/-- The words of registers as bytes. -/
def regBytes (s : State) (as : List Nat) : List Nat := as.flatMap (fun a => toBytes (s.busRead .fobex a).1.toNat 4)

/-- A stream's datagram (R490): at most 360 words, BYTE_OFFSET and SEQ moved on. -/
def StreamSent (s t : State) (n due : Nat) : Prop :=
  let x := s.strm n
  let ws := x.fifo.take 360
  ∃ k o, x.owner = some k ∧ s.sess k = some o ∧
    t.strm n = { x with fifo := x.fifo.drop 360, due := due, off := (x.off + 4 * ws.length) % 2 ^ 32, seq := (x.seq + 1) % 2 ^ 16 } ∧
    SentTo s t { o.peer with own := s.ipAddr o.peer.mac } 3 (datagram 2 0x80 0 o.num x.seq
      (toBytes n 4 ++ toBytes x.off 4 ++ toBytes ((ws.map Prod.snd).headD 0).toNat 4 ++ ws.flatMap (fun w => toBytes w.1.toNat 4)))

/-- A stream that may send: owned by a session, with words waiting, its MAC sending something else. -/
def Streams (s : State) (n : Nat) : Prop :=
  ∃ k o, (s.strm n).owner = some k ∧ s.sess k = some o ∧ Sending s o.peer.mac ∧ s.rf (Reg.ETH_IPCFG.MODE o.peer.mac) ≠ 0 ∧ s.streamBusy o.peer.mac n = false

end Sys2Proof.Claims

/-- R476, R478 to R487, R423: each request is answered in the state's terms: HELLO creates a session, BYE ends it, RESET is due, registers are read and written,
history and log pages returned, streams opened and closed, the time slewed or stepped; a wrong length, state or range has its status. -/
def Obligations.FobexRequestsAreAnswered : Prop :=
  ∀ (s : State) (r : FReq) (rest : List FReq),
    (Waiting' s r 0x01 rest → s.fsv.hellos < 2 ^ 32 →
      (r.slot = none → r.bcast = false → (∀ k, k < 4 → s.sess k ≠ none) → Replies .hello s r 6 []) ∧
      (r.slot ≠ none → r.data ≠ [] → Replies .hello s r 5 []) ∧
      (∀ k, r.slot = none → r.bcast = false → r.data = [] → k < 4 → s.sess k = none → (∀ j, j < k → s.sess j ≠ none) → Does .hello s (fun t =>
        ∃ num data, num ≠ 0 ∧ num / 2 ^ 16 = (s.fsv.hellos + 1) % 2 ^ 16 ∧ data.length = 88 ∧ t.fsv.hellos = s.fsv.hellos + 1 ∧ t.fsv.reqs = rest ∧
        SentTo s t r.peer 1 (datagram 1 1 0 num r.seq data) ∧
        t.sess k = some ⟨num, r.peer, r.seq, some (octetsOf (datagram 1 1 0 num r.seq data)), none⟩))) ∧
    (Waiting' s r 0x02 rest → (r.data ≠ [] → Replies .bye s r 5 []) ∧
      (∀ k, r.data = [] → r.slot = some k → s.sess k ≠ none → Does .bye s (fun t => SentTo s t r.peer 1 (datagram 1 2 0 r.session r.seq []) ∧
        t.sess k = none ∧ (∀ n, n < 4 → (t.strm n).owner ≠ some k) ∧ ∀ x ∈ t.fsv.reqs, x.slot ≠ some k))) ∧
    (Waiting' s r 0x03 rest → (r.data ≠ [] → Replies .presenceStatus s r 5 []) ∧
      (r.data = [] → Replies .presenceStatus s r 0 (regBytes s [Reg.PAR_STATUS_at, Reg.PAR_WIN_LEFT_at, Reg.PAR_SEAL_SEC_at, Reg.PAR_SEAL_INFO_at]))) ∧
    (Waiting' s r 0x04 rest → (s.par.was ≠ 2 → Replies .close s r 1 []) ∧
      (s.par.was = 2 → r.data ≠ [] → Replies .close s r 5 []) ∧
      (s.par.was = 2 → s.rf Reg.PAR_STATUS.WIN = 2 → r.data = [] → s.record.events.length < 128 → Does .close s (fun t => Replied s t r 0 [] ∧
        t.rf Reg.PAR_STATUS.WIN = 0 ∧ t.fsv.upd = none ∧ Recorded s t 0x11 2 0))) ∧
    (Waiting' s r 0x60 rest → (r.len ≠ 4 → Replies .reset s r 5 []) ∧ (r.len = 4 → r.w % 2 ^ 16 ≠ 0x5E57 → Replies .reset s r 1 []) ∧
      (r.len = 4 → r.w % 2 ^ 16 = 0x5E57 → Does .reset s (fun t => Replied s t r 0 [] ∧ t.fsv.resetDue = true))) ∧
    (Waiting' s r 0x10 rest → (r.len < 4 → Replies (.readIo none) s r 5 []) ∧
      (r.len = 4 → r.w / 2 ^ 16 = 1 →
        (r.w % 2 ^ 16 < 0x100 → Replies (.readIo none) s r 13 []) ∧
        (0x100 ≤ r.w % 2 ^ 16 → ∀ u, u.fsv = s.fsv → u.eth = s.eth → u.rf (Reg.ETH_IPCFG.MODE r.peer.mac) ≠ 0 →
          (∀ v, s.ioRead .fobex 55 (r.w % 2 ^ 16) = (.done v, u) → Does (.readIo none) s (fun t => Replied u t r 0 (toBytes v 4))) ∧
          (∀ e, s.ioRead .fobex 55 (r.w % 2 ^ 16) = (.error e, u) → Does (.readIo none) s (fun t => Replied u t r 11 []))) ∧
        (0x100 ≤ r.w % 2 ^ 16 → Replies (.readIo (some 0)) s r 11 []))) ∧
    (Waiting' s r 0x11 rest → (r.len % 8 ≠ 0 → Replies (.writeIo none) s r 5 []) ∧
      (r.len = 8 → r.w % 2 ^ 16 < 0x100 → Replies (.writeIo none) s r 13 []) ∧
      (r.len = 8 → 0x100 ≤ r.w % 2 ^ 16 → ∀ u, u.fsv = s.fsv → u.eth = s.eth → u.rf (Reg.ETH_IPCFG.MODE r.peer.mac) ≠ 0 →
        (∀ c, s.ioWrite .fobex 55 (r.w % 2 ^ 16) (BitVec.ofNat 32 (r.w / 2 ^ 32)) = (.done c, u) → Does (.writeIo none) s (fun t =>
          Replied u t r (if c = 0 then 0 else if c = 1 then 2 else if c = 2 then 3 else 1) [if c = 0 then 1 else 0, 0, 0, 0])) ∧
        (∀ e, s.ioWrite .fobex 55 (r.w % 2 ^ 16) (BitVec.ofNat 32 (r.w / 2 ^ 32)) = (.error e, u) →
          Does (.writeIo none) s (fun t => Replied u t r 11 [0, 0, 0, 0])))) ∧
    (Waiting' s r 0x20 rest → (r.len ≠ 4 → Replies .readHist s r 5 []) ∧
      (r.len = 4 → ∀ c, s.vaultCurrent (0x200 + r.w % 64) = some c →
        let first := r.w / 2 ^ 8 % 256
        let n := r.w / 2 ^ 16 % 2 ^ 16
        (n = 0 ∨ 240 < n ∨ 256 < first + n → Replies .readHist s r 13 []) ∧
        (1 ≤ n → n ≤ 240 → first + n ≤ 256 → Replies .readHist s r 0 (toBytes r.w 4 ++ toBytes c.seq 4 ++ toBytes (bytesAt c.body (68 + 6 * first) (6 * n)) (6 * n))))) ∧
    (Waiting' s r 0x21 rest → (r.len ≠ 4 → Replies .readExtremes s r 5 []) ∧
      (r.len = 4 →
        let first := r.w % 64
        let n := r.w / 2 ^ 8 % 256
        (n = 0 ∨ 20 < n ∨ 64 < first + n → Replies .readExtremes s r 13 []) ∧
        (∀ c, n = 1 → s.vaultCurrent (0x200 + first) = some c → Replies .readExtremes s r 0 (toBytes c.seq 4 ++ toBytes (bytesAt c.body 0 68) 68)) ∧
        (n = 1 → s.vaultCurrent (0x200 + first) = none → Replies .readExtremes s r 1 []))) ∧
    (Waiting' s r 0x22 rest → s.flc.cur ≠ none →
      let jsn := r.w % 2 ^ 32
      let off := r.w / 2 ^ 32 % 2 ^ 16
      let n := r.w / 2 ^ 48 % 2 ^ 16
      (s.on Reg.FLC_STATUS.INIT = true → Replies .readLog s r 1 []) ∧
      (s.on Reg.FLC_STATUS.INIT = false → s.on Reg.FLC_STATUS.DIE_FAULT = false →
        (r.len ≠ 8 → Replies .readLog s r 5 []) ∧ (r.len = 8 → n = 0 ∨ 1436 < n ∨ 4000 < off + n → Replies .readLog s r 13 []) ∧
        (r.len = 8 → 1 ≤ n → n ≤ 1436 → off + n ≤ 4000 →
          (∀ d c, s.fsv.page = some (jsn, d, c) → s.rf Reg.FLC_J_TAIL.JSN ≤ jsn → Replies .readLog s r 0 (toBytes jsn 4 ++
            toBytes (s.rf Reg.FLC_J_TAIL.JSN) 4 ++ toBytes (s.rf Reg.FLC_J_HEAD.JSN) 4 ++ toBytes (bytesAt d 4008 1 + 2 ^ 8 * c) 4 ++ toBytes (bytesAt d off n) n)) ∧
          (s.fsv.page = none → s.on Reg.FLC_STATUS.PWRFAIL = true → Replies .readLog s r 10 []) ∧
          (s.fsv.page = none → s.on Reg.FLC_STATUS.PWRFAIL = false → Does .readLog s (fun t => Started t r ∧ t.flc.queue = s.flc.queue ++ [⟨.fsv, .jread jsn, 0⟩]))))) ∧
    (∀ k, r.slot = some k → (s.sess k).isSome = true →
      let n := r.w % 4
      let port := r.w / 2 ^ 16 % 2 ^ 16
      (Waiting' s r 0x30 rest → (r.len ≠ 4 → Replies .streamOpen s r 5 []) ∧
        (∀ j, r.len = 4 → (s.strm n).owner = some j → j ≠ k → Replies .streamOpen s r 6 []) ∧
        (r.len = 4 → (s.strm n).owner = none → Does .streamOpen s (fun t => Replied s t r 0 (toBytes n 4 ++ toBytes (s.strm n).off 4) ∧
          t.strm n = { s.strm n with owner := some k, port := if port = 0 then r.peer.port else port, fifo := [], due := 0 }))) ∧
      (Waiting' s r 0x31 rest → (r.len ≠ 4 → Replies .streamClose s r 5 []) ∧
        (r.len = 4 → (s.strm n).owner ≠ some k → Replies .streamClose s r 1 []) ∧
        (r.len = 4 → (s.strm n).owner = some k → Does .streamClose s (fun t => Replied s t r 0 [] ∧ (t.strm n).owner = none ∧ (t.strm n).fifo = [])))) ∧
    (Waiting' s r 0x40 rest → s.record.events.length < 128 →
      let sec := r.w % 2 ^ 32
      let frac := r.w / 2 ^ 32 % 2 ^ 15
      let force := r.w / 2 ^ 48 % 2 = 1
      let d : Int := (sec * 2 ^ 15 + frac : Nat) - (s.calSec * 2 ^ 15 + s.calFrac : Nat)
      let small := ¬ force ∧ s.on Reg.RTC_STATUS.VALID = true ∧ -327680 ≤ d ∧ d ≤ 327680
      (r.len ≠ 8 → Replies .setTime s r 5 []) ∧
      (r.len = 8 → small → d = 0 → Replies .setTime s r 0 [0, 0, 0, 0, 0, 0, 0, 0]) ∧
      (r.len = 8 → small → d ≠ 0 → s.on Reg.RTC_STATUS.SLEWING = true → Replies .setTime s r 1 []) ∧
      (r.len = 8 → small → d ≠ 0 → s.on Reg.RTC_STATUS.SLEWING = false → Does .setTime s (fun t =>
        Replied s t r 0 (toBytes (d % 2 ^ 32).toNat 4 ++ [1, 0, 0, 0]) ∧ t.rtc.slew = d ∧ t.on Reg.RTC_STATUS.SLEWING = true)) ∧
      (r.len = 8 → ¬ small → s.par.was < 2 → Replies .setTime s r 2 []) ∧
      (r.len = 8 → ¬ small → 2 ≤ s.par.was → s.on Reg.REC_STATUS.PWRFAIL = false → Does .setTime s (fun t =>
        Replied s t r 0 (toBytes ((max (-2147483648) (min 2147483647 d)) % 2 ^ 32).toNat 4 ++ [2, 0, 0, 0]) ∧ t.rtc.cal = sec * 2 ^ 15 + frac ∧
        t.on Reg.RTC_STATUS.VALID = true)))

/-- R419 to R423, R480, R481, R488 to R490: an update begins within a window, takes its fragments in order, a whole page or commit starts a program; streams hold words
and send datagrams when full, pushed or old; a session that runs nothing ages out, a request that cannot start is answered BUSY. -/
def Obligations.UpdatesStreamsAndTimeouts : Prop :=
  (∀ (s : State) (r : FReq) (rest : List FReq) (k : Nat), r.slot = some k →
    let open' := 2 ≤ s.par.was
    let noWindow (i : Instr) : Prop := Does i s (fun t => Replied s t r 2 [] ∧ t.on Reg.BOOT_STATUS.REFUSED = true ∧ t.rf Reg.BOOT_STATUS.REASON = 4)
    let calm := s.on Reg.FLC_STATUS.INIT = false ∧ s.on Reg.FLC_STATUS.DIE_FAULT = false
    (Waiting' s r 0x50 rest →
      (¬ open' → noWindow .updateBegin) ∧
      (∀ u, open' → s.fsv.upd = some u → u.slot ≠ k → Replies .updateBegin s r 6 []) ∧
      (open' → s.fsv.upd = none → s.on Reg.BOOT_STATUS.TRIAL = true ∨ ¬ calm → Replies .updateBegin s r 1 []) ∧
      (open' → s.fsv.upd = none → s.on Reg.BOOT_STATUS.TRIAL = false → calm →
        (r.len ≠ 4 ∨ r.w % 2 ^ 32 < 64 ∨ 25161728 < r.w % 2 ^ 32 → Replies .updateBegin s r 5 []) ∧
        (r.len = 4 → 64 ≤ r.w % 2 ^ 32 → r.w % 2 ^ 32 ≤ 25161728 → Does .updateBegin s (fun t => Started t r ∧
          ∃ tgt, t.fsv.upd = some ⟨k, tgt, s.updSeq, r.w % 2 ^ 32, 0, 0, 0, [], []⟩ ∧ (tgt = 1 ∨ tgt = 2) ∧
          (s.rf Reg.BOOT_STATUS.SLOT = 1 → tgt = 2) ∧ (s.rf Reg.BOOT_STATUS.SLOT = 2 → tgt = 1) ∧
          ∀ j q, j < 4 → s.committed [] j = some q → q + 1 < 2 ^ 32 → (∀ i x, i < 4 → s.committed [] i = some x → x < 2 ^ 32 - 1) → q < s.updSeq)))) ∧
    (Waiting' s r 0x51 rest → (¬ open' → noWindow .updateData) ∧ (open' → s.fsv.upd = none → Replies .updateData s r 1 []) ∧
      (∀ u, open' → s.fsv.upd = some u → u.slot = k →
        let p := r.w % 2 ^ 16
        let o := r.w / 2 ^ 16 % 2 ^ 16
        let frag := r.data.drop 4
        (r.len < 5 ∨ 1452 < r.len → Replies .updateData s r 5 []) ∧
        (5 ≤ r.len → r.len ≤ 1452 →
          (p < u.next → Replies .updateData s r 0 (toBytes (u.next + 2 ^ 16 * u.off) 4)) ∧
          (u.next < p ∨ (p = u.next ∧ o ≠ u.off) → Replies .updateData s r 1 []) ∧
          (p = u.next → o = u.off → p < (u.len + 4095) / 4096 →
            (o + frag.length < 4128 → Does .updateData s (fun t => Replied s t r 0 (toBytes (u.next + 2 ^ 16 * (o + frag.length)) 4) ∧
              t.fsv.upd = some { u with buf := (u.buf ++ frag).take 4128, off := o + frag.length })) ∧
            (4128 ≤ o + frag.length → o + frag.length ≤ 4352 →
              let u' := { u with buf := (u.buf ++ frag).take 4128, off := o + frag.length }
              (u'.metaGood = true → Does .updateData s (fun t => Started t r ∧ t.fsv.upd = some u')) ∧
              (u'.metaGood = false → Does .updateData s (fun t => Replied s t r 4 [] ∧ t.fsv.upd = some { u with buf := [], off := 0 }))))))) ∧
    (Waiting' s r 0x52 rest → (¬ open' → noWindow .updateCommit) ∧
      (∀ u, open' → s.fsv.upd = some u → u.slot = k →
        let sha := sha256 (toBytes (pack (u.pages.map (fun p => (p, 4096)))) u.len)
        (u.next < (u.len + 4095) / 4096 → Replies .updateCommit s r 1 []) ∧
        ((u.len + 4095) / 4096 ≤ u.next →
          (r.len ≠ 32 → Replies .updateCommit s r 5 []) ∧
          (r.len = 32 → natsOf r.data ≠ sha → Does .updateCommit s (fun t => Replied s t r 4 [] ∧ t.fsv.upd = none)) ∧
          (r.len = 32 → natsOf r.data = sha → Does .updateCommit s (fun t => Started t r ∧ t.fsv.upd = some u)))))) ∧
  (∀ (s : State) (n : Fin 4) (src : Src) (v : Word), s.ethUp = true →
    let x := s.strm n.val
    let word := (v, s.reg (Reg.FSV_STREAM_TAG_at n.val))
    (src = .fobex → Refuses (.fsvStreamDataWrite src n v) s ethRefuse 3 ∧ Refuses (.streamPush src n v) s ethRefuse 3) ∧
    (src ≠ .fobex → x.owner = none → Refuses (.fsvStreamDataWrite src n v) s ethRefuse 7) ∧
    (src ≠ .fobex → x.owner ≠ none → 4096 ≤ x.fifo.length → Does (.fsvStreamDataWrite src n v) s (fun t =>
      t = { s with io := t.io } ∧ Counted s t (Reg.FSV_STREAM_STAT.OVF n.val))) ∧
    (src ≠ .fobex → x.owner ≠ none → x.fifo.length < 359 → x.due = 0 → Does (.fsvStreamDataWrite src n v) s (fun t =>
      t = { s with fsv := t.fsv } ∧ t.strm n.val = { x with fifo := x.fifo ++ [word] } ∧ ∀ m, m ≠ n.val → t.strm m = s.strm m)) ∧
    (src ≠ .fobex → x.fifo.length = 359 → x.due = 0 → Streams s n.val → Does (.fsvStreamDataWrite src n v) s (fun t =>
      StreamSent (s.setStrm n.val { x with fifo := x.fifo ++ [word] }) t n.val 0)) ∧
    (src ≠ .fobex → v.getLsbD 0 = true → x.fifo ≠ [] → Streams s n.val → Does (.streamPush src n v) s (fun t => StreamSent s t n.val (x.fifo.length - 360))) ∧
    (x.fifo ≠ [] → x.due = 0 → Streams s n.val → Does (.streamMaxage n) s (fun t => StreamSent s t n.val 0)) ∧
    (x.fifo = [] → Does (.streamMaxage n) s (fun t => t = s))) ∧
  (∀ (s : State) (k : Fin 4) (x : Sess), s.sess k.val = some x →
    (x.exec = none → Does (.sessionAgeout k) s (fun t => t.sess k.val = none ∧ (∀ n, n < 4 → (t.strm n).owner ≠ some k.val) ∧
      ∀ j, j ≠ k.val → t.sess j = s.sess j)) ∧
    (x.exec ≠ none → Does (.sessionAgeout k) s (fun t => t = s))) ∧
  (∀ (s : State) (i : Nat) (r : FReq), s.fsv.reqs[i]? = some r → r.op < 256 → r.slot = none → Sending s r.peer.mac → s.rf (Reg.ETH_IPCFG.MODE r.peer.mac) ≠ 0 →
    (r.started = false → Does (.laneStartTimeout i) s (fun t => t.fsv.reqs = s.fsv.reqs.eraseIdx i ∧ Counted s t Reg.FSV_BUSY_CNT.COUNT ∧
      SentTo s t r.peer 1 (datagram 1 r.op 6 r.session r.seq []))) ∧
    (r.started = true → Does (.laneStartTimeout i) s (fun t => t = s)))

/-! ## Gauges, abutment, converter ports (spec/10, spec/18) -/

namespace Sys2Proof.Claims

/-- A gauge that works, with no trigger due before. -/
def GaugeOn (s : State) (g : Nat) : Prop := s.gauLive g = true ∧ s.on (Reg.GAU_CTL.EN g) = true ∧ (s.gau g).due = false

/-- R258: the packet passes the filter at the gauge's point. -/
def Passes (s : State) (g : Nat) (h : Head) : Prop :=
  h.port.val = s.rf (Reg.GAU_CTL.PORT g) ∧
  (h.src.toNat ^^^ s.rf (Reg.GAU_FILT_ID.SRC g)) &&& s.rf (Reg.GAU_FILT_ID.SRCM g) = 0 ∧
  (h.dst.toNat ^^^ s.rf (Reg.GAU_FILT_ID.DST g)) &&& s.rf (Reg.GAU_FILT_ID.DSTM g) = 0 ∧
  s.bit (Reg.GAU_FILT_KIND.VCMASK g) h.vc.toNat = true ∧ s.bit (Reg.GAU_FILT_KIND.TYPEMASK g) h.typ.toNat = true ∧
  (s.on (Reg.GAU_CTL.AEN g) = true → h.typ.toNat ≤ 3 ∧ s.rf (Reg.GAU_FILT_ALO.ADDR g) ≤ h.addr.toNat ∧ h.addr.toNat ≤ s.rf (Reg.GAU_FILT_AHI.ADDR g))

/-- A count of a gauge `n` higher, saturating. -/
def CountsUp (s t : State) (g i n : Nat) : Prop := t.rf (Reg.GAU_CNT.COUNT g i) = min (2 ^ 32 - 1) (s.rf (Reg.GAU_CNT.COUNT g i) + n)

/-- Nothing changes but the gauges and registers among `as`. -/
def GauOnly (s t : State) (as : List Nat) : Prop := t = { s with io := t.io, gauges := t.gauges } ∧ ∀ a, a ∉ as → t.reg a = s.reg a

end Sys2Proof.Claims

/-- R256 to R266: packets that pass are counted and traced, discarded ones counted apart; a trigger sets TRIGGERED, its event and a snapshot source; CLR clears the
counts, START and STOP rule the trace, a Deck-ring record is written as two words. -/
def Obligations.GaugesCountAndTrace : Prop :=
  (∀ (g : Fin 24) (h : Head) (s : State),
    (GaugeOn s g.val →
      (s.rf (Reg.GAU_TRIG.SRC g.val) = 0 → Does (.gaugePacketObserved g h true) s (fun t => t = { s with io := t.io } ∧ CountsUp s t g.val 4 1 ∧
        ∀ a, a ≠ (Reg.GAU_CNT.COUNT g.val 4).addr → t.reg a = s.reg a)) ∧
      (¬ Passes s g.val h → Does (.gaugePacketObserved g h false) s (fun t => t = s)) ∧
      (Passes s g.val h → s.rf (Reg.GAU_TRIG.SRC g.val) = 0 → s.tracing g.val = false → Does (.gaugePacketObserved g h false) s (fun t =>
        GauOnly s t ((List.range 4).map (fun i => (Reg.GAU_CNT.COUNT g.val i).addr)) ∧ t.gau g.val = { s.gau g.val with last := none } ∧
        CountsUp s t g.val 0 1 ∧ CountsUp s t g.val 1 (h.len.toNat + 1) ∧ CountsUp s t g.val 2 h.stall ∧
        CountsUp s t g.val 3 (min h.stallStarved h.stall))) ∧
      (Passes s g.val h → s.rf (Reg.GAU_TRIG.SRC g.val) = 0 → s.tracing g.val = true → s.rf (Reg.GAU_TRACE_CTL.MODE g.val) = 1 →
        (s.gau g.val).mark = false → (s.gau g.val).post = none →
        let i := s.rf (Reg.GAU_TRACE_POS.NEXT g.val)
        i < 255 → Does (.gaugePacketObserved g h false) s (fun t => CountsUp s t g.val 0 1 ∧ t.rf (Reg.GAU_TRACE_POS.NEXT g.val) = i + 1 ∧
          SMap.get (t.gau g.val).buf 0 (4 * i) = BitVec.ofNat 32 (min h.cyc 1023 + 2 ^ 10 * (s.us % 2 ^ 22)) ∧
          SMap.get (t.gau g.val).buf 0 (4 * i + 1) = BitVec.ofNat 32 (h.typ.toNat + 2 ^ 4 * h.vc.toNat + 2 ^ 6 * (if g.val < 16 ∧ h.cls = true then 1 else 0) +
            2 ^ 7 * (if 16 ≤ g.val ∧ h.dir = true then 1 else 0) + 2 ^ 8 * h.src.toNat + 2 ^ 16 * h.dst.toNat + 2 ^ 23 * h.len.toNat + 2 ^ 26 * h.gen.toNat) ∧
          SMap.get (t.gau g.val).buf 0 (4 * i + 2) = BitVec.ofNat 32 (h.addr.toNat % 2 ^ (if g.val < 16 then 32 else 16)) ∧
          SMap.get (t.gau g.val).buf 0 (4 * i + 3) = BitVec.ofNat 32 (h.tag.toNat % 2 ^ (if g.val < 16 then 16 else 8) + 2 ^ 16 * min h.wait 255 + 2 ^ 24 * (if h.starved = 0 then 0 else 1) + 2 ^ 26 * g.val) ∧
          ∀ k, k / 4 ≠ i → SMap.get (t.gau g.val).buf 0 k = SMap.get (s.gau g.val).buf 0 k))) ∧
    (s.on (Reg.GAU_CTL.EN g.val) = false → Does (.gaugePacketObserved g h false) s (fun t => t = s))) ∧
  (∀ (g : Fin 24) (n : Nat) (head : Bool) (s : State), s.gauLive g.val = true → s.on (Reg.GAU_CTL.EN g.val) = true →
    let src := s.rf (Reg.GAU_TRIG.SRC g.val)
    let thr := s.rf (Reg.GAU_TRIG.THRESH g.val)
    let fires := s.on (Reg.GAU_STATUS.TRIGGERED g.val) = false ∧ ((s.gau g.val).due = true ∨ (src = 7 ∧ 0 < thr ∧ thr ≤ n))
    (fires → s.tracing g.val = false → Does (.gaugeTrigger g n head) s (fun t => t = { s with io := t.io, gauges := t.gauges, trigs := t.trigs, net := t.net } ∧
      t.on (Reg.GAU_STATUS.TRIGGERED g.val) = true ∧ (t.gau g.val).due = false ∧
      t.net = { s.net with events := s.net.events ++ ev s (Reg.GAU_CTL.TRIG_EVENT g.val, Reg.GAU_CTL.TRIG_EVENT_EN g.val) } ∧
      t.trigs = s.trigs ++ (if s.on (Reg.GAU_CTL.REC_EN g.val) then [4] else []) ∧
      (∀ i, (s.gau g.val).last = some i → s.rf (Reg.GAU_TRACE_CTL.MODE g.val) < 2 → src ≠ 6 → ¬ (src = 7 ∧ head = true) →
        (SMap.get (t.gau g.val).buf 0 (4 * i + 3)).getLsbD 25 = true))) ∧
    (fires → s.tracing g.val = true → ¬ (src = 7 ∧ head = true) → s.on (Reg.GAU_TRACE_CTL.STOP_ON_TRIG g.val) = true →
      s.rf (Reg.GAU_TRACE_CTL.POST g.val) = 0 → Does (.gaugeTrigger g n head) s (fun t => t.on (Reg.GAU_STATUS.TRIGGERED g.val) = true ∧
        t.rf (Reg.GAU_TRACE_POS.STATE g.val) = 2)) ∧
    (fires → s.tracing g.val = true → src = 7 → head = true → Does (.gaugeTrigger g n head) s (fun t =>
      t.on (Reg.GAU_STATUS.TRIGGERED g.val) = true ∧ t.tracing g.val = true ∧ (t.gau g.val).mark = true)) ∧
    (¬ fires → Does (.gaugeTrigger g n head) s (fun t => t = s))) ∧
  (∀ (g : Fin 24) (v : Word) (s : State), s.online (gauIsland g.val) = true → (s.gau g.val).due = false →
    let at' := Reg.GAU_CTL_at g.val
    let port := getBits v 1 3
    let bad := s.portRefused g.val port = true ∨ (s.on (Reg.GAU_CTL.EN g.val) = true ∧ (port ≠ s.rf (Reg.GAU_CTL.PORT g.val) ∨ getBits v 4 1 ≠ s.rf (Reg.GAU_CTL.AEN g.val)))
    (¬ bad → Does (.gaugeClear g v) s (fun t => t = { s with io := t.io } ∧ (∀ i, i < 5 → t.rf (Reg.GAU_CNT.COUNT g.val i) = 0) ∧
      t.rf (Reg.GAU_CTL.PORT g.val) = port ∧ ∀ a, a ≠ at' → (∀ i, i < 5 → a ≠ (Reg.GAU_CNT.COUNT g.val i).addr) → t.reg a = s.reg a)) ∧
    (bad → Does (.gaugeClear g v) s (fun t => t.on (Reg.GAU_STATUS.REFUSED g.val) = true ∧ (∀ i, i < 5 → t.rf (Reg.GAU_CNT.COUNT g.val i) = 0))) ∧
    (let mode := getBits v 0 2
     let run := s.tracing g.val = true
     (¬ run → mode < 2 ∨ (mode = 2 ∧ s.ringBad g.val = false) → Does (.traceStart g v) s (fun t =>
       GauOnly s t [Reg.GAU_TRACE_CTL_at g.val, Reg.GAU_TRACE_POS_at g.val] ∧ t.tracing g.val = true ∧ t.rf (Reg.GAU_TRACE_POS.NEXT g.val) = 0 ∧
       t.rf (Reg.GAU_TRACE_CTL.MODE g.val) = mode ∧ t.gau g.val = { s.gau g.val with run := (s.gau g.val).run + 1, post := none, mark := false, last := none })) ∧
     (¬ run → mode = 3 ∨ (mode = 2 ∧ s.ringBad g.val = true) → Does (.traceStart g v) s (fun t => t.on (Reg.GAU_STATUS.REFUSED g.val) = true ∧
       t.tracing g.val = false ∧ t.gauges = s.gauges)) ∧
     (run → mode = s.rf (Reg.GAU_TRACE_CTL.MODE g.val) → mode ≠ 3 → getBits v 8 8 = s.rf (Reg.GAU_TRACE_CTL.POST g.val) →
       getBits v 16 1 = s.rf (Reg.GAU_TRACE_CTL.STOP_ON_TRIG g.val) → Does (.traceStop g v) s (fun t =>
       GauOnly s t [Reg.GAU_TRACE_CTL_at g.val, Reg.GAU_TRACE_POS_at g.val] ∧ t.rf (Reg.GAU_TRACE_POS.STATE g.val) = 2 ∧ (t.gau g.val).post = none)) ∧
     (¬ run → Does (.traceStop g v) s (fun t => t.on (Reg.GAU_STATUS.REFUSED g.val) = true ∧ t.gauges = s.gauges)))) ∧
  (∀ (g : Fin 24) (r : GauHeld) (rest : List GauHeld) (s : State), s.gauLive g.val = true → (s.gau g.val).due = false → (s.gau g.val).held = r :: rest →
    r.addr % 16 = 0 → r.words.length = 4 → s.quarterBusy r.addr = false →
    s.bankWanted r.addr = false → s.bankWanted (r.addr + 8) = false → Does (.traceRecordAck g) s (fun t => (t.gau g.val).held = rest ∧
      (∀ x, t.deckByte x = if r.addr ≤ x ∧ x < r.addr + 16 then BitVec.ofNat 8 ((r.words.getD ((x - r.addr) / 4) 0).toNat / 256 ^ ((x - r.addr) % 4)) else s.deckByte x) ∧
      (r.run = (s.gau g.val).run → s.rf (Reg.GAU_TRACE_POS.NEXT g.val) + 1 < s.rf (Reg.GAU_RING_COUNT.VALUE g.val) →
        t.rf (Reg.GAU_TRACE_POS.NEXT g.val) = s.rf (Reg.GAU_TRACE_POS.NEXT g.val) + 1)))

namespace Sys2Proof.Claims

/-- The abutment's own state changes, and registers among `as`. -/
def AbtOnly (s t : State) (as : List Nat) : Prop :=
  t = { s with io := t.io, ovrIn := t.ovrIn, estopN := t.estopN, abtNew := t.abtNew, quietUs := 0 } ∧ ∀ a, a ∉ as → t.reg a = s.reg a

/-- Mutes `m0`, `m1` set and source bit `i` latched (R458): queued once for the AON clock, with whether a latch went from clear to set. -/
def Latched (s t : State) (i : Nat) (m0 m1 : Bool) : Prop :=
  AbtOnly s t [Reg.ABT_STATUS_at, Reg.ABT_SRC_LATCH_at] ∧ t.on Reg.ABT_STATUS.MUTE_0 = (s.on Reg.ABT_STATUS.MUTE_0 || m0) ∧
    t.on Reg.ABT_STATUS.MUTE_1 = (s.on Reg.ABT_STATUS.MUTE_1 || m1) ∧
    (∀ k, k < 21 → t.bit Reg.ABT_SRC_LATCH.SRC k = (s.bit Reg.ABT_SRC_LATCH.SRC k || k == i)) ∧
    t.abtNew = s.abtNew ++ (if s.bit Reg.ABT_SRC_LATCH.SRC i then [] else
      [(i, !s.on Reg.ABT_STATUS.MUTE_0 && !s.on Reg.ABT_STATUS.MUTE_1)])

end Sys2Proof.Claims

/-- R457 to R464: an override input mutes the outputs it is routed to, ESTOP_N and the clocked sources both; each new source is counted, recorded and raises the
cause; a release needs its key, a mute, no live source and the hold time, in that order. -/
def Obligations.AbutmentLatchesAndReleases : Prop :=
  (∀ (i : Fin 17) (s : State),
    (i.val < 16 → Does (.abutmentTrip i) s (fun t => Latched s t i.val (s.bit Reg.ABT_OVR_EN.TO_0 i.val) (s.bit Reg.ABT_OVR_EN.TO_1 i.val) ∧
      t.ovrIn = s.ovrIn ||| BitVec.ofNat 16 (2 ^ i.val) ∧ t.estopN = s.estopN)) ∧
    (i.val = 16 → Does (.abutmentTrip i) s (fun t => Latched s t 16 true true ∧ t.ovrIn = s.ovrIn ∧ t.estopN = false)) ∧
    Does (.abutmentSourceClear i) s (fun t => AbtOnly s t [] ∧ t.abtNew = s.abtNew ∧
      (i.val < 16 → t.estopN = s.estopN ∧ ∀ k : Fin 16, t.ovrIn.getLsbD k.val = (s.ovrIn.getLsbD k.val && k.val != i.val)) ∧
      (i.val = 16 → t.estopN = true ∧ t.ovrIn = s.ovrIn))) ∧
  (∀ (k : Fin 3) (s : State),
    let live := (k.val = 0 ∧ s.on Reg.LDR_STATUS.TRIP = true) ∨ (k.val = 1 ∧ s.on Reg.WDT_STATUS.STAGE1 = true) ∨ (k.val = 2 ∧ s.on Reg.ABT_CTL.FW_MUTE = true)
    (live → Does (.clockedMuteSource k) s (fun t => Latched s t (17 + k.val) true true)) ∧ (¬ live → Does (.clockedMuteSource k) s (fun t => t = s))) ∧
  (∀ (s : State),
    (s.abtNew = [] → Does .sourceLatchSync s (fun t => t = s)) ∧
    (∀ i fresh rest, s.abtNew = (i, fresh) :: rest → Does .sourceLatchSync s (fun t =>
      t = { s with io := t.io, abtNew := rest, trigs := s.trigs ++ [0],
                   net := { s.net with causes := s.net.causes ++ [(.abutment, s.reg Reg.ABT_SRC_LATCH_at, 0)] } } ∧
      Counted s t Reg.ABT_TRIP_CNT.COUNT ∧ t.rf Reg.ABT_TRIP_US.US = (if fresh then s.us % 2 ^ 32 else s.rf Reg.ABT_TRIP_US.US) ∧
      ∀ a, a ≠ Reg.ABT_TRIP_CNT_at → a ≠ Reg.ABT_TRIP_US_at → t.reg a = s.reg a))) ∧
  (∀ (src : Src) (v : Word) (s : State),
    let key := getBits v 0 16 = 0x3C5A
    let muted := s.on Reg.ABT_STATUS.MUTE_0 = true ∨ s.on Reg.ABT_STATUS.MUTE_1 = true
    let quiet := min 65535 (s.quietUs / 1000)
    (s.srcLive = 0 →
      (src = .fobex → Refuses (.abtRelease src v) s abtRefuse 7) ∧
      (src ≠ .fobex → ¬ key → Refuses (.abtRelease src v) s abtRefuse 4) ∧
      (src ≠ .fobex → key → ¬ muted → Refuses (.abtRelease src v) s abtRefuse 3) ∧
      (src ≠ .fobex → key → muted → s.abtNew ≠ [] → Refuses (.abtRelease src v) s abtRefuse 1) ∧
      (src ≠ .fobex → key → muted → s.abtNew = [] → quiet < s.rf Reg.ABT_HOLD.MS → Refuses (.abtRelease src v) s abtRefuse 2) ∧
      (src ≠ .fobex → key → muted → s.abtNew = [] → s.rf Reg.ABT_HOLD.MS ≤ quiet → Does (.abtRelease src v) s (fun t => t = { s with io := t.io } ∧
        t.on Reg.ABT_STATUS.MUTE_0 = false ∧ t.on Reg.ABT_STATUS.MUTE_1 = false ∧ t.rf Reg.ABT_SRC_LATCH.SRC = 0))) ∧
    (s.srcLive ≠ 0 → Does (.abtRelease src v) s (fun t => t.on Reg.ABT_STATUS.MUTE_0 = s.on Reg.ABT_STATUS.MUTE_0 ∧
      t.on Reg.ABT_STATUS.MUTE_1 = s.on Reg.ABT_STATUS.MUTE_1 ∧ t.on Reg.ABT_STATUS.REFUSED = true)))

namespace Sys2Proof.Claims

/-- No DMA channel has a descriptor in hand: nothing feeds or drains a port. -/
def DmaIdle (s : State) : Prop := ∀ c, c < 16 → (s.dmaCh c).cur = none

/-- Nothing changes but the ports, a calibration, events in flight and registers among `as`. -/
def PortsOnly (s t : State) (as : List Nat) (es : List (Fin 64)) : Prop :=
  t = { s with io := t.io, cvp := t.cvp, cal := t.cal, net := { s.net with events := s.net.events ++ es } } ∧ ∀ a, a ∉ as → t.reg a = s.reg a

/-- PORT_EVENT (R450). -/
def portEv (s : State) : List (Fin 64) := ev s (Reg.CVP_EVCFG.PORT_EVENT, Reg.CVP_EVCFG.PORT_EN)

/-- A running port, no calibration on it, nothing that ends it at this frame (R446, R448). -/
def Frames (s : State) (p : Nat) (period : Nat) : Prop :=
  s.cvpState p = 1 ∧ s.cal = none ∧ DmaIdle s ∧ (s.cvpPort p).stopping = false ∧ (s.cvpFollows p = true → s.cvpLimit ≤ period)

/-- One slot as Table cvp-2 stores it: raw less the coefficient, held to the slot's width (R444, R455). -/
def slot (bits size : Nat) (v ofs : Word) : List Byte :=
  let x := lint bits v.toNat - ofs.toInt
  (List.range size).map (fun k => BitVec.ofNat 8 ((lsat bits x % 2 ^ 32).toNat / 256 ^ k))

/-- The raw value of slot `i` of a frame on a line, SD at the rising and the falling edge of each bit clock from the one in which FS becomes
active (R444): FSDLY bit clocks later the slots follow each other, the most significant bit first, sampled at the edge BEDGE names. -/
def rawOf (s : State) (p : Nat) (line : List (Bool × Bool)) (i : Nat) : Word :=
  let w := s.cvpBits p
  let at' (k : Nat) : Bool × Bool := line.getD (k + s.rf (Reg.CVP_CFG.FSDLY p)) (false, false)
  BitVec.ofNat 32 ((List.range w).map (fun k =>
    if (if s.on (Reg.CVP_CFG.BEDGE p) then (at' (w * i + k)).2 else (at' (w * i + k)).1) then 2 ^ (w - 1 - k) else 0)).sum

/-- The average of 2^l samples, to nearest, ties to even (R454). -/
def IsMean (sum : Int) (l : Nat) (m : Int) : Prop :=
  let n : Int := 2 ^ l
  2 * (m * n - sum) ≤ n ∧ -n ≤ 2 * (m * n - sum) ∧ (2 * (m * n - sum) = n ∨ 2 * (m * n - sum) = -n → m % 2 = 0)

end Sys2Proof.Claims

/-- R444 to R450, R453 to R456: START judges the ports in order and starts all or none; frames move whole between FIFO and pins, less their coefficients, else are
dropped or zeros and counted; a stop takes effect at a boundary; a calibration ends with its means, the first failing slot, or aborted. -/
def Obligations.ConverterPortsMoveFrames : Prop :=
  (∀ (src : Src) (p : Fin 8) (mask : BitVec 8) (s : State), s.online islConv = true →
    let one := BitVec.ofNat 8 (2 ^ p.val)
    let running := s.cvpState p.val = 1
    let format := s.rf (Reg.CVP_CFG.WIDTH p.val) ≠ 3 ∧ s.cvpSlots p.val * s.cvpBits p.val ≤ s.cvpFlen p.val
    let slow := s.cvpFollows p.val = true ∨ s.cvpLimit ≤ 4 * (s.rf (Reg.CVP_CFG.BDIV p.val) + 1) * s.cvpFlen p.val
    (src = .fobex → Refuses (.portStart src mask) s cvpRefuse 6 ∧ Refuses (.portStop src mask) s cvpRefuse 6) ∧
    (src ≠ .fobex → running → Refuses (.portStart src one) s cvpRefuse 1) ∧
    (src ≠ .fobex → ¬ running → ¬ format → Refuses (.portStart src one) s cvpRefuse 2) ∧
    (src ≠ .fobex → ¬ running → format → ¬ slow → Refuses (.portStart src one) s cvpRefuse 3) ∧
    (src ≠ .fobex → ¬ running → format → slow → s.on Reg.CPLL_STATUS.LOCK = false → Refuses (.portStart src one) s cvpRefuse 4) ∧
    (src ≠ .fobex → DmaIdle s → (∀ q, q < 8 → mask.getLsbD q = true → s.startRefused q = 0) → Does (.portStart src mask) s (fun t =>
      t = { s with io := t.io, cvp := t.cvp } ∧ (∀ q, q < 8 → t.cvpState q = if mask.getLsbD q then 1 else s.cvpState q) ∧
      (∀ q, q < 8 → mask.getLsbD q = true → s.cvpOut q = false → (t.cvpPort q).fifo = []) ∧
      (∀ q, q < 8 → mask.getLsbD q = false → t.cvpPort q = s.cvpPort q))) ∧
    (src ≠ .fobex → ¬ running → Refuses (.portStop src one) s cvpRefuse 1) ∧
    (src ≠ .fobex → running → Does (.portStop src one) s (fun t => t = { s with cvp := t.cvp } ∧ t.cvpPort p.val = { s.cvpPort p.val with stopping := true } ∧
      ∀ q, q ≠ p.val → t.cvpPort q = s.cvpPort q))) ∧
  (∀ (p : Fin 8) (line : List (Bool × Bool)) (bad : Bool) (period : Nat) (s : State),
    let x := s.cvpPort p.val
    let bits := s.cvpBits p.val
    let bytes := (List.range (s.cvpSlots p.val)).flatMap (fun i => slot bits (s.cvpSize p.val) (rawOf s p.val line i) (x.force.getD i 0))
    let lostFrame := bad = true ∧ s.cvpFollows p.val = true
    (Frames s p.val period → s.cvpOut p.val = false →
      (¬ lostFrame → x.fifo.length + bytes.length ≤ 512 → Does (.inputFrame p line bad period) s (fun t => PortsOnly s t [Reg.CVP_FRAMES_at p.val] [] ∧
        (t.cvpPort p.val).fifo = x.fifo ++ bytes ∧ t.rf (Reg.CVP_FRAMES.COUNT p.val) = (s.rf (Reg.CVP_FRAMES.COUNT p.val) + 1) % 2 ^ (Reg.CVP_FRAMES.COUNT p.val).width)) ∧
      (¬ lostFrame → 512 < x.fifo.length + bytes.length → Does (.inputFrame p line bad period) s (fun t =>
        PortsOnly s t [Reg.CVP_OVR_CNT_at p.val, Reg.CVP_STAT_at p.val] (portEv s) ∧ (t.cvpPort p.val).fifo = x.fifo ∧
        Counted s t (Reg.CVP_OVR_CNT.COUNT p.val) ∧ t.on (Reg.CVP_STAT.OVERRUN p.val) = true)) ∧
      (lostFrame → Does (.inputFrame p line bad period) s (fun t => PortsOnly s t [Reg.CVP_FERR_CNT_at p.val, Reg.CVP_STAT_at p.val] (portEv s) ∧
        (t.cvpPort p.val).fifo = x.fifo ∧ Counted s t (Reg.CVP_FERR_CNT.COUNT p.val) ∧ t.on (Reg.CVP_STAT.FRAME_ERR p.val) = true))) ∧
    (Frames s p.val period → s.cvpOut p.val = true → ¬ lostFrame →
      let n := s.cvpSlots p.val * s.cvpSize p.val
      (n ≤ x.fifo.length → Does (.outputFrame p bad period) s (fun t => PortsOnly s t [Reg.CVP_FRAMES_at p.val] [] ∧ (t.cvpPort p.val).fifo = x.fifo.drop n ∧
        (t.cvpPort p.val).tx = (List.range (s.cvpSlots p.val)).map (fun i => if s.zeroed p.val then 0 else
          BitVec.ofNat 32 (ofBytes (((x.fifo.drop (i * s.cvpSize p.val)).take (s.cvpSize p.val)).map BitVec.toNat) % 2 ^ bits)))) ∧
      (x.fifo.length < n → Does (.outputFrame p bad period) s (fun t => PortsOnly s t [Reg.CVP_UND_CNT_at p.val, Reg.CVP_STAT_at p.val] (portEv s) ∧
        (t.cvpPort p.val).fifo = x.fifo ∧ (t.cvpPort p.val).tx = List.replicate (s.cvpSlots p.val) 0 ∧ Counted s t (Reg.CVP_UND_CNT.COUNT p.val) ∧
        t.on (Reg.CVP_STAT.UNDERRUN p.val) = true))) ∧
    (s.cvpState p.val = 1 → s.cvpOut p.val = true → x.stopping = true → s.cvpFollows p.val = false → s.cal = none → DmaIdle s →
      Does (.outputFrame p bad period) s (fun t => PortsOnly s t [Reg.CVP_STAT_at p.val] [] ∧ t.cvpState p.val = 2 ∧ t.rf (Reg.CVP_STAT.STOP_CAUSE p.val) = 0 ∧
        (t.cvpPort p.val).fifo = [])) ∧
    (s.cvpState p.val = 1 → s.cvpFollows p.val = true → s.cal = none → DmaIdle s → Does (.followerClockLoss p) s (fun t =>
      PortsOnly s t [Reg.CVP_STAT_at p.val] (portEv s) ∧ t.cvpState p.val = 2 ∧ t.rf (Reg.CVP_STAT.STOP_CAUSE p.val) = 2)) ∧
    (s.cvpState p.val ≠ 1 → Does (.followerClockLoss p) s (fun t => t = s) ∧ Does (.inputFrame p line bad period) s (fun t => t = s))) ∧
  (∀ (src : Src) (p : BitVec 3) (mask : BitVec 8) (l : BitVec 4) (s : State), s.online islConv = true →
    let n := p.toNat
    let ok := s.cvpOut n = false ∧ s.cvpState n = 1 ∧ mask ≠ 0 ∧ mask.toNat < 2 ^ s.cvpSlots n ∧ 8 ≤ l.toNat ∧ s.cal = none
    (src = .fobex → Refuses (.calibrationStart src p mask l) s cvpRefuse 6) ∧
    (src ≠ .fobex → ¬ ok → Refuses (.calibrationStart src p mask l) s cvpRefuse 5 [Reg.CVP_CAL_CTL_at]) ∧
    (src ≠ .fobex → ok → Does (.calibrationStart src p mask l) s (fun t => t = { s with io := t.io, cal := t.cal } ∧ t.rf Reg.CVP_CAL_STATUS.STATE = 1 ∧
      t.on (Reg.CVP_STAT.CAL n) = true ∧ t.on Reg.CVP_STATUS.CAL_BUSY = true ∧ t.cvpState n = 1 ∧
      t.cal = some ⟨n, mask.toNat, l.toNat, false, 0, List.replicate 8 0, List.replicate 8 0, List.replicate 8 false⟩))) ∧
  (∀ (s : State) (k : CvpCal), s.cal = some k → k.port < 8 →
    (s.rf Reg.CVP_CAL_STATUS.STATE = 1 → Does .calibrationSettled s (fun t => t = { s with io := t.io, cal := some { k with skip := true } } ∧
      t.rf Reg.CVP_CAL_STATUS.STATE = 2)) ∧
    (s.rf Reg.CVP_CAL_STATUS.STATE = 2 → k.frames = 2 ^ k.log2n →
      ((∀ i, i < 8 → k.mask.testBit i = true → s.calCause k i = 0) → Does .calibrationResult s (fun t => t.cal = s.cal ∧ t.cvp = s.cvp ∧
        t.rf Reg.CVP_CAL_STATUS.STATE = 3 ∧ t.rf Reg.CVP_CAL_STATUS.RESULT = 1 ∧
        (∀ i, i < 8 → k.mask.testBit i = true → ∃ m, IsMean (k.sum.getD i 0) k.log2n m ∧
          t.rf (Reg.CVP_OFS.OFS k.port i) = (m % 2 ^ (Reg.CVP_OFS.OFS k.port i).width).toNat) ∧
        (∀ i, i < 8 → k.mask.testBit i = false → t.reg (Reg.CVP_OFS_at k.port i) = s.reg (Reg.CVP_OFS_at k.port i)))) ∧
      (∀ i, i < 8 → k.mask.testBit i = true → s.calCause k i ≠ 0 → (∀ j, j < i → k.mask.testBit j = true → s.calCause k j = 0) →
        Does .calibrationResult s (fun t => t.rf Reg.CVP_CAL_STATUS.STATE = 3 ∧ t.rf Reg.CVP_CAL_STATUS.RESULT = 2 ∧
          t.rf Reg.CVP_CAL_STATUS.SLOT = i ∧ t.rf Reg.CVP_CAL_STATUS.CAUSE = s.calCause k i ∧ (k.clip.getD i false = true → s.calCause k i = 1) ∧
          ∀ j, j < 8 → t.reg (Reg.CVP_OFS_at k.port j) = s.reg (Reg.CVP_OFS_at k.port j)))) ∧
    (s.rf Reg.CVP_CAL_STATUS.STATE = 3 → Does .calibrationRestored s (fun t => t.cal = none ∧ t.rf Reg.CVP_CAL_STATUS.STATE = 0 ∧
      t.on (Reg.CVP_STAT.CAL k.port) = false ∧ t.on Reg.CVP_STATUS.CAL_BUSY = false ∧
      t.net.events = s.net.events ++ ev s (Reg.CVP_EVCFG.CAL_EVENT, Reg.CVP_EVCFG.CAL_EN)))) ∧
  (∀ (src : Src) (p i : Fin 8) (v : Word) (s : State), s.online islConv = true →
    (src = .fobex → Refuses (.cvpOfsWrite src p i v) s cvpRefuse 6) ∧
    (src ≠ .fobex → s.on (Reg.CVP_STAT.CAL p.val) = true → Refuses (.cvpOfsWrite src p i v) s cvpRefuse 1) ∧
    (src ≠ .fobex → s.on (Reg.CVP_STAT.CAL p.val) = false → Does (.cvpOfsWrite src p i v) s (fun t => t = { s with io := t.io } ∧
      t.rf (Reg.CVP_OFS.OFS p.val i.val) = getBits v 0 (Reg.CVP_OFS.OFS p.val i.val).width ∧
      ∀ a, a ≠ Reg.CVP_OFS_at p.val i.val → t.reg a = s.reg a)))

/-! ## Panel, general I/O and debug access (spec/20, spec/21) -/

namespace Sys2Proof.Claims

/-- Nothing changes but the panel, registers among `as` and events. -/
def PanelOnly (s t : State) : Prop := t = { s with io := t.io, panel := t.panel, net := { s.net with events := t.net.events } }

/-- A key in the ordinary scans: past the first sixteen, not suspect, not rebased, its maximum on-time not reached. -/
def Plain (s : State) (k : Nat) : Prop :=
  16 ≤ s.panel.scans ∧ s.panel.rebase.testBit k = false ∧ s.bit Reg.PNL_KEYS.SUSPECT k = false ∧
    (s.key k).held + 1 < 100 * s.rf Reg.PNL_TIME.MAXON_S ∧ (s.key k).neg = 0

end Sys2Proof.Claims

/-- R492 to R500: enabling begins the baselines and loads the saved reference; sixteen scans make a baseline; two scans at or above ON touch a key, two below OFF release
it; REBASE acts on the next scan; the reference is saved only from a settled panel. -/
def Obligations.PanelScansItsKeys : Prop :=
  (∀ (src : Src) (v : Word) (mask : BitVec 12) (s : State), s.online islPanel = true → s.on Reg.PNL_CTL.LOCK = false →
    (s.on Reg.PNL_CTL.EN = false → getBits v 2 1 = 0 → Does (.panelEnable src v) s (fun t => PanelOnly s t ∧ t.on Reg.PNL_CTL.EN = true ∧
      t.on Reg.PNL_STATUS.INIT = true ∧ t.panel = { Panel.reset with rebase := getBits v 16 12 } ∧
      (s.vaultRead 4 = none → t.on Reg.PNL_STATUS.NOREF = true) ∧
      (∀ w, s.vaultRead 4 = some w → t.on Reg.PNL_STATUS.NOREF = !w.testBit 0 ∧
        ∀ k, k < 12 → t.rf (Reg.PNL_REF.REF k) = w / 256 ^ (4 + 2 * k) % 2 ^ 16))) ∧
    (getBits v 0 1 = 1 → s.on Reg.PNL_CTL.EN = true →
      let savable := s.on Reg.PNL_STATUS.INIT = false ∧ s.rf Reg.PNL_KEYS.TOUCHED = 0 ∧ s.rf Reg.PNL_KEYS.SUSPECT = 0 ∧ s.rf Reg.PNL_STUCK.STUCK = 0
      (savable → s.vault.cur ≠ none → Does (.saveRef src v) s (fun t => t = { s with io := t.io, panel := t.panel, vault := t.vault } ∧
        t.vault.queue = s.vault.queue ++ [⟨4, false⟩] ∧ ∀ a, a ≠ Reg.PNL_CTL_at → t.reg a = s.reg a)) ∧
      (¬ savable → Does (.saveRef src v) s (fun t => PanelOnly s t ∧ t.on Reg.PNL_STATUS.REFUSED = true ∧ t.rf Reg.PNL_STATUS.REASON = 2)) ∧
      (getBits v 2 1 = 0 → Does (.rebase src mask v) s (fun t => t = { s with io := t.io, panel := t.panel } ∧
        t.panel = { s.panel with rebase := s.panel.rebase ||| mask.toNat } ∧ ∀ a, a ≠ Reg.PNL_CTL_at → t.reg a = s.reg a)))) ∧
  (∀ (cs : List Nat) (k : Nat) (s : State), s.online islPanel = true → k < 12 → cs.length = 12 →
    let c := min 0xFFFF (cs.getD k 0)
    let n := s.panel.scans + 1
    let d : Int := (c : Nat) - (s.rf (Reg.PNL_COUNT.BASELINE k) : Nat)
    let cmd := Instr.panelScan cs
    (s.on Reg.PNL_CTL.EN = false → Does cmd s (fun t => t = s)) ∧
    (s.on Reg.PNL_CTL.EN = true →
      Does cmd s (fun t => PanelOnly s t ∧ t.panel.scans = n ∧ t.panel.rebase = 0 ∧ t.rf (Reg.PNL_COUNT.COUNT k) = c) ∧
      (n < 16 → s.panel.rebase.testBit k = false → Does cmd s (fun t => (t.key k).sum = (s.key k).sum + c)) ∧
      (n = 16 → s.panel.rebase.testBit k = false → (s.key k).sum + c < 2 ^ 20 → Does cmd s (fun t =>
        t.rf (Reg.PNL_COUNT.BASELINE k) = ((s.key k).sum + c) / 16 ∧ t.on Reg.PNL_STATUS.INIT = false ∧
        (s.on Reg.PNL_STATUS.NOREF = false → s.bit Reg.PNL_KEYS.SUSPECT k = false → (t.bit Reg.PNL_KEYS.SUSPECT k = true ↔
          s.rf Reg.PNL_STUCK_THRESH.THRESH < ((((s.key k).sum + c) / 16 : Nat) - (s.rf (Reg.PNL_REF.REF k) : Nat) : Int).natAbs)))) ∧
      (17 ≤ n → s.panel.rebase.testBit k = true → Does cmd s (fun t => t.rf (Reg.PNL_COUNT.BASELINE k) = c ∧ t.bit Reg.PNL_KEYS.TOUCHED k = false ∧
        t.bit Reg.PNL_KEYS.SUSPECT k = false ∧ t.bit Reg.PNL_STUCK.STUCK k = false)) ∧
      (Plain s k → -(s.rf Reg.PNL_THR.NEG : Int) < d →
        (s.bit Reg.PNL_KEYS.TOUCHED k = false → 1 ≤ (s.key k).up → (s.rf Reg.PNL_THR.ON : Int) ≤ d → Does cmd s (fun t =>
          t.bit Reg.PNL_KEYS.TOUCHED k = true ∧ t.rf (Reg.PNL_COUNT.BASELINE k) = s.rf (Reg.PNL_COUNT.BASELINE k))) ∧
        (s.bit Reg.PNL_KEYS.TOUCHED k = false → (s.key k).up = 0 → (s.rf Reg.PNL_THR.ON : Int) ≤ d → Does cmd s (fun t =>
          t.bit Reg.PNL_KEYS.TOUCHED k = false ∧ (t.key k).up = 1)) ∧
        (s.bit Reg.PNL_KEYS.TOUCHED k = true → 1 ≤ (s.key k).down → d < (s.rf Reg.PNL_THR.OFF : Int) → Does cmd s (fun t =>
          t.bit Reg.PNL_KEYS.TOUCHED k = false)) ∧
        (s.bit Reg.PNL_KEYS.TOUCHED k = true → (s.rf Reg.PNL_THR.OFF : Int) ≤ d → Does cmd s (fun t => t.bit Reg.PNL_KEYS.TOUCHED k = true)))))

namespace Sys2Proof.Claims

/-- Nothing changes but the serial masters and PWM, registers among `as`, and events `es`. -/
def GioOnly (s t : State) (as : List Nat) (es : List (Fin 64)) : Prop :=
  t = { s with io := t.io, gio := t.gio, net := { s.net with events := s.net.events ++ es } } ∧ ∀ a, a ∉ as → t.reg a = s.reg a

/-- EDGE_EVENT (R503). -/
def edgeEv (s : State) : List (Fin 64) := ev s (Reg.GPIO_EVCFG.EDGE_EVENT, Reg.GPIO_EVCFG.EDGE_EN)
/-- SERIAL_EVENT (R507 to R509). -/
def serialEv (s : State) : List (Fin 64) := ev s (Reg.GPIO_EVCFG.SERIAL_EVENT, Reg.GPIO_EVCFG.SERIAL_EN)

end Sys2Proof.Claims

/-- R502 to R505, R510: OSET and OCLR change output bits, an input edge selected by RISE or FALL is latched once with its event; a PWM channel loads PERIOD and DUTY at a
boundary or when enabled, SAFE holds it; TRIG_IN's rise is seen and a trigger source, PULSE drives TRIG_OUT until its end. -/
def Sys2Proof.Claims.PinsPwmAndTriggers : Prop :=
  ∀ (s : State), s.online islGio = true →
    (∀ (b : Fin 2) (v : Word),
      Does (.gpioOset b v) s (fun t => GioOnly s t [Reg.GPIO_OUT_at b.val] [] ∧ t.reg (Reg.GPIO_OUT_at b.val) =
        s.reg (Reg.GPIO_OUT_at b.val) ||| (if b = 0 then v else v &&& 0xFFFF)) ∧
      Does (.gpioOclr b v) s (fun t => GioOnly s t [Reg.GPIO_OUT_at b.val] [] ∧ t.reg (Reg.GPIO_OUT_at b.val) = s.reg (Reg.GPIO_OUT_at b.val) &&& ~~~ v)) ∧
    (∀ (b : Fin 2) (i : Fin 32) (level : Bool), (b = 0 ∨ i.val < 16) →
      let was := s.bit (Reg.GPIO_IN.PINS b.val) i.val
      let sel := (was = false ∧ level = true ∧ s.bit (Reg.GPIO_RISE.PINS b.val) i.val = true) ∨
        (was = true ∧ level = false ∧ s.bit (Reg.GPIO_FALL.PINS b.val) i.val = true)
      Does (.gpioEdge b i level) s (fun t => t.bit (Reg.GPIO_IN.PINS b.val) i.val = level ∧
        (∀ j : Fin 32, j ≠ i → t.bit (Reg.GPIO_IN.PINS b.val) j.val = s.bit (Reg.GPIO_IN.PINS b.val) j.val) ∧
        (sel → s.bit (Reg.GPIO_EDGE.PINS b.val) i.val = false → GioOnly s t [Reg.GPIO_IN_at b.val, Reg.GPIO_EDGE_at b.val] (edgeEv s) ∧
          t.bit (Reg.GPIO_EDGE.PINS b.val) i.val = true) ∧
        (¬ sel ∨ s.bit (Reg.GPIO_EDGE.PINS b.val) i.val = true → GioOnly s t [Reg.GPIO_IN_at b.val] []))) ∧
    (∀ (c : Fin 16) (v : Word),
      (s.on (Reg.PWM_CFG.EN c.val) = true → Does (.pwmPeriodBoundary c) s (fun t => GioOnly s t [] [] ∧
        t.pwm c.val = ⟨s.rf (Reg.PWM_PERIOD.PERIOD c.val), s.rf (Reg.PWM_DUTY.DUTY c.val), s.on (Reg.PWM_CFG.SAFE c.val) && s.on Reg.WDT_STATUS.STAGE1⟩ ∧
        ∀ k, k ≠ c.val → t.pwm k = s.pwm k)) ∧
      (s.on (Reg.PWM_CFG.EN c.val) = true → getBits v 0 20 ≠ s.rf (Reg.PWM_CFG.PRESCALE c.val) ∨ getBits v 30 1 ≠ s.rf (Reg.PWM_CFG.POL c.val) →
        Does (.pwmCfgWrite c v) s (fun t => GioOnly s t [Reg.PWM_CFG_at c.val, Reg.GPIO_STATUS_at] (ev s (Reg.GPIO_EVCFG.REFUSE_EVENT, Reg.GPIO_EVCFG.REFUSE_EN)) ∧
          t.on Reg.GPIO_STATUS.REFUSED = true ∧ t.rf Reg.GPIO_STATUS.REASON = 2 ∧ t.rf (Reg.PWM_CFG.SAFE c.val) = getBits v 29 1 ∧
          (t.rf (Reg.PWM_CFG.PRESCALE c.val) = if getBits v 0 20 = s.rf (Reg.PWM_CFG.PRESCALE c.val) then getBits v 0 20 else s.rf (Reg.PWM_CFG.PRESCALE c.val)) ∧
          (t.rf (Reg.PWM_CFG.POL c.val) = if getBits v 30 1 = s.rf (Reg.PWM_CFG.POL c.val) then getBits v 30 1 else s.rf (Reg.PWM_CFG.POL c.val)))) ∧
      (s.on (Reg.PWM_CFG.EN c.val) = false → Does (.pwmCfgWrite c v) s (fun t => GioOnly s t [Reg.PWM_CFG_at c.val] [] ∧
        t.rf (Reg.PWM_CFG.PRESCALE c.val) = getBits v 0 20 ∧ t.rf (Reg.PWM_CFG.POL c.val) = getBits v 30 1 ∧
        (t.on (Reg.PWM_CFG.EN c.val) = true → (t.pwm c.val).period = s.rf (Reg.PWM_PERIOD.PERIOD c.val) ∧ (t.pwm c.val).duty = s.rf (Reg.PWM_DUTY.DUTY c.val)) ∧
        (t.on (Reg.PWM_CFG.SAFE c.val) = true → s.on Reg.WDT_STATUS.STAGE1 = true → (t.pwm c.val).hold = true ∧ ∀ k, t.pwmActive c.val k = false)))) ∧
    (∀ (level : Bool),
      (level = true → s.on Reg.GPIO_TRIG.IN = false → Does (.trigIn level) s (fun t => t = { s with io := t.io, trigs := s.trigs ++ [5], net := t.net } ∧
          t.net = { s.net with events := s.net.events ++ edgeEv s } ∧ t.on Reg.GPIO_TRIG.IN = true ∧ t.on Reg.GPIO_TRIG.IN_SEEN = true)) ∧
      (level = false ∨ s.on Reg.GPIO_TRIG.IN = true → Does (.trigIn level) s (fun t => t = { s with io := t.io } ∧ t.on Reg.GPIO_TRIG.IN = level ∧
        t.on Reg.GPIO_TRIG.IN_SEEN = s.on Reg.GPIO_TRIG.IN_SEEN))) ∧
    (∀ (v : Word), (getBits v 16 16 = 0 → Does (.trigPulse v) s (fun t =>
        GioOnly s t [Reg.GPIO_TRIG_at, Reg.GPIO_STATUS_at] (ev s (Reg.GPIO_EVCFG.REFUSE_EVENT, Reg.GPIO_EVCFG.REFUSE_EN)) ∧
        t.on Reg.GPIO_STATUS.REFUSED = true ∧ t.rf Reg.GPIO_STATUS.REASON = 1 ∧ t.gio = { s.gio with pulse := true } ∧
        t.rf Reg.GPIO_TRIG.WIDTH = s.rf Reg.GPIO_TRIG.WIDTH ∧ t.rf Reg.GPIO_TRIG.OUT = getBits v 8 1)) ∧
      (getBits v 16 16 ≠ 0 → Does (.trigPulse v) s (fun t => GioOnly s t [Reg.GPIO_TRIG_at] [] ∧ t.gio = { s.gio with pulse := true } ∧
        t.rf Reg.GPIO_TRIG.WIDTH = getBits v 16 16 ∧ t.trigOut = some true))) ∧
    Does .pulseEnd s (fun t => t = { s with gio := { s.gio with pulse := false } } ∧ t.trigOut = some (s.on Reg.GPIO_TRIG.OUT))

/-- R506 to R509, R512: UART bytes wait, are sent in order and received where stop and parity are right, errors counted; I²C and SPI transfers need their bytes and room, take
them at their end and leave a result; a full FIFO, a busy master or a bad length is refused with its reason. -/
def Sys2Proof.Claims.SerialPortsMoveBytes : Prop :=
  ∀ (s : State), s.online islGio = true →
    (∀ (u : Fin 4) (b : Byte) (stopOk parOk low : Bool),
      let x := s.uart u.val
      (64 ≤ x.tx.length → Refuses (.uartTxd u b) s gioRefuse 3) ∧
      (x.tx.length < 64 → x.shift ≠ none → Does (.uartTxd u b) s (fun t => GioOnly s t [] [] ∧ t.uart u.val = { x with tx := x.tx ++ [b] } ∧
        ∀ k, k ≠ u.val → t.uart k = s.uart k)) ∧
      (x.tx = [] → x.shift = none → s.on (Reg.UART_CFG.EN u.val) = true → Does (.uartTxd u b) s (fun t => GioOnly s t [] [] ∧
        t.uart u.val = { x with shift := some b, de := s.on (Reg.UART_CFG.RS485 u.val) })) ∧
      (x.shift ≠ none → s.on (Reg.UART_CFG.EN u.val) = true → Does (.uartCharacterSent u) s (fun t => GioOnly s t [] [] ∧
        (x.tx = [] → t.uart u.val = { x with shift := none, de := false }) ∧
        (∀ c rest, x.tx = c :: rest → (t.uart u.val).shift = some c ∧ (t.uart u.val).tx = rest))) ∧
      Does (.uartRxdRead u) s (fun t => GioOnly s t [] [] ∧ t.uart u.val = { x with rx := x.rx.drop 1 }) ∧
      (let par := parOk = false ∧ s.rf (Reg.UART_CFG.PARITY u.val) ≠ 0
       (s.on (Reg.UART_CFG.EN u.val) = true → x.de = false →
         (stopOk = true → low = false → ¬ par → x.rx.length < 64 → Does (.uartReceive u b stopOk parOk low) s (fun t => GioOnly s t [] [] ∧
           t.uart u.val = { x with rx := x.rx ++ [b] })) ∧
         (stopOk = true → low = false → ¬ par → 64 ≤ x.rx.length → Does (.uartReceive u b stopOk parOk low) s (fun t => t = { s with io := t.io } ∧
           Counted s t (Reg.UART_ERR.OVERRUN u.val))) ∧
         (stopOk = false ∨ low = true → Does (.uartReceive u b stopOk parOk low) s (fun t => t.gio = s.gio ∧ Counted s t (Reg.UART_ERR.FRAMING u.val) ∧
           t.net.events = s.net.events ++ (if low then serialEv s else []) ∧ (low = true → t.on (Reg.UART_STAT.BREAK u.val) = true))) ∧
         (par → Does (.uartReceive u b stopOk parOk low) s (fun t => t.gio = s.gio ∧ Counted s t (Reg.UART_ERR.PARITY u.val)))) ∧
       (s.on (Reg.UART_CFG.EN u.val) = false → Does (.uartReceive u b stopOk parOk low) s (fun t => t = s)))) ∧
    (∀ (m : Fin 2) (v : Word) (b : Byte) (r : Fin 5) (n : Nat) (got : List Byte),
      let x := s.i2c m.val
      let len := getBits v 8 6
      let rd := getBits v 7 1 = 1
      let fits := if rd then x.rx.length + len ≤ 32 else len ≤ x.tx.length
      (x.cur ≠ none → Refuses (.i2cCmd m v) s gioRefuse 3) ∧
      (x.cur = none → len = 0 ∨ 32 < len → Refuses (.i2cCmd m v) s gioRefuse 1) ∧
      (x.cur = none → 1 ≤ len → len ≤ 32 → ¬ fits → x.rx.length ≤ 32 → Refuses (.i2cCmd m v) s gioRefuse 2) ∧
      (x.cur = none → 1 ≤ len → len ≤ 32 → fits → s.on (Reg.I2C_CFG.EN m.val) = true → Does (.i2cCmd m v) s (fun t => GioOnly s t [] [] ∧
        t.i2c m.val = { x with cur := some v })) ∧
      (x.cur = some v → Does (.i2cTransferEnd m r n got) s (fun t => GioOnly s t [Reg.I2C_STAT_at m.val] (serialEv s) ∧ t.rf (Reg.I2C_STAT.RESULT m.val) = r.val ∧
        (t.i2c m.val).cur = none ∧ ((t.i2c m.val).rstart = true ↔ r.val = 0 ∧ v.getLsbD 16 = true) ∧ (rd → (t.i2c m.val).rx = x.rx ++ got.take len ∧ (t.i2c m.val).tx = x.tx) ∧
        (¬ rd → r.val = 0 → (t.i2c m.val).tx = x.tx.drop len) ∧ (¬ rd → r.val ≠ 0 → (t.i2c m.val).tx = x.tx.drop (min n len)))) ∧
      (32 ≤ x.tx.length → Refuses (.i2cData m (some b)) s gioRefuse 3) ∧
      (x.tx.length < 32 → Does (.i2cData m (some b)) s (fun t => GioOnly s t [] [] ∧ t.i2c m.val = { x with tx := x.tx ++ [b] })) ∧
      Does (.i2cData m none) s (fun t => GioOnly s t [] [] ∧ t.i2c m.val = { x with rx := x.rx.drop 1 })) ∧
    (∀ (m : Fin 2) (v : Word) (b : Byte) (got : List Byte),
      let x := s.spi m.val
      let len := getBits v 0 7
      let fits := len ≤ x.tx.length ∧ x.rx.length + len ≤ 64 ∧ ∀ c, x.held = some c → c = getBits v 8 2
      (x.cur ≠ none → Refuses (.spiCmd m v) s gioRefuse 3) ∧
      (x.cur = none → len = 0 ∨ 64 < len → Refuses (.spiCmd m v) s gioRefuse 1) ∧
      (x.cur = none → 1 ≤ len → len ≤ 64 → ¬ fits → x.rx.length ≤ 64 → Refuses (.spiCmd m v) s gioRefuse 2) ∧
      (x.cur = none → 1 ≤ len → len ≤ 64 → fits → s.on (Reg.SPI_CFG.EN m.val) = true → Does (.spiCmd m v) s (fun t => GioOnly s t [] [] ∧
        t.spi m.val = { x with cur := some v })) ∧
      (x.cur = some v → Does (.spiTransferEnd m got) s (fun t => GioOnly s t [] (serialEv s) ∧
        t.spi m.val = ⟨x.tx.drop len, x.rx ++ got.take len, none, if v.getLsbD 10 then some (getBits v 8 2) else none⟩)) ∧
      (64 ≤ x.tx.length → Refuses (.spiData m (some b)) s gioRefuse 3) ∧
      (x.tx.length < 64 → Does (.spiData m (some b)) s (fun t => GioOnly s t [] [] ∧ t.spi m.val = { x with tx := x.tx ++ [b] })) ∧
      Does (.spiData m none) s (fun t => GioOnly s t [] [] ∧ t.spi m.val = { x with rx := x.rx.drop 1 }))

/-- R502 to R505, R510: OSET and OCLR change output bits, an input edge selected by RISE or FALL is latched once with its event; a PWM channel loads PERIOD and DUTY at a
boundary or when enabled, SAFE holds it; TRIG_IN's rise is seen and a trigger source, PULSE drives TRIG_OUT until its end. R506 to R509, R512: UART bytes wait, are sent in order and received where stop and parity are right, errors counted; I²C and SPI transfers need their bytes and room, take
them at their end and leave a result; a full FIFO, a busy master or a bad length is refused with its reason. -/
def Obligations.PinsAndSerialPorts : Prop :=
  Sys2Proof.Claims.PinsPwmAndTriggers ∧ Sys2Proof.Claims.SerialPortsMoveBytes

/-- R65, R391, R532: debug access reads and writes registers from TS22 and captures a status: 0, 3 for an error response, 4 refused; a thread's registers only while it is
STOPPED: 6 for a pier not ONLINE, then 5 for no such register, then 2 otherwise. -/
def Obligations.DebugAccessReachesRegistersAndThreads : Prop :=
  ∀ (s : State), s.tapUp = true →
    (∀ (a : BitVec 16) (v : Word) (u : State),
      (∀ d, s.ioRead .debug 54 a.toNat = (.done d, u) → Does (.dbgaccIoRead a) s (fun t => t = { u with dbg := ⟨0, BitVec.ofNat 32 d⟩ })) ∧
      (∀ e, s.ioRead .debug 54 a.toNat = (.error e, u) → Does (.dbgaccIoRead a) s (fun t => t = { u with dbg := t.dbg, free := t.free } ∧ t.dbg.status = 3)) ∧
      (∀ c, s.ioWrite .debug 54 a.toNat v = (.done c, u) → Does (.dbgaccIoWrite a v) s (fun t => t = { u with dbg := ⟨if c = 0 then 0 else 4, v⟩ })) ∧
      (∀ e, s.ioWrite .debug 54 a.toNat v = (.error e, u) → Does (.dbgaccIoWrite a v) s (fun t => t = { u with dbg := ⟨3, v⟩ }))) ∧
    (∀ (th : Thr) (r : BitVec 8) (v : Word),
      let n := r.toNat
      let o := s.thr th
      let valid := n < 0x60 ∨ (0x80 ≤ n ∧ n < 0xC2) ∨ (0xD0 ≤ n ∧ n < 0xDA)
      let fails (st : Nat) : Prop := Does (.dbgaccRegRead th r) s (fun t => t = { s with dbg := t.dbg, free := t.free } ∧ t.dbg.status = st) ∧
        Does (.dbgaccRegWrite th r v) s (fun t => t = { s with dbg := ⟨st, v⟩ })
      (s.online th.pier.val = false → fails 6) ∧ (s.online th.pier.val = true → ¬ valid → fails 5) ∧
      (s.online th.pier.val = true → valid → o.run ≠ .stopped → fails 2) ∧
      (s.online th.pier.val = true → o.run = .stopped →
        (∀ i : RegIx, n = i.val → Does (.dbgaccRegRead th r) s (fun t => t = { s with dbg := ⟨0, o.rg i⟩ }) ∧
          Does (.dbgaccRegWrite th r v) s (fun t => t = { s with threads := t.threads, dbg := ⟨0, v⟩ } ∧ GWritten o (t.thr th) i v ∧
            (∀ k, k ≠ th → t.thr k = s.thr k) ∧ t.thr th = { o with g := (t.thr th).g })) ∧
        (∀ i : RegIx, n = 0x20 + i.val → Does (.dbgaccRegRead th r) s (fun t => t = { s with dbg := ⟨0, (o.rf i).setWidth 32⟩ }) ∧
          Does (.dbgaccRegWrite th r v) s (fun t => FWritten o (t.thr th) i (BitVec.ofNat 64 (v.toNat + 2 ^ 32 * ((o.rf i).toNat / 2 ^ 32))))) ∧
        (∀ i : RegIx, n = 0x40 + i.val → Does (.dbgaccRegRead th r) s (fun t => t = { s with dbg := ⟨0, BitVec.ofNat 32 ((o.rf i).toNat / 2 ^ 32)⟩ }) ∧
          Does (.dbgaccRegWrite th r v) s (fun t => FWritten o (t.thr th) i (BitVec.ofNat 64 ((o.rf i).toNat % 2 ^ 32 + 2 ^ 32 * v.toNat)))) ∧
        (∀ (i : WIx) (k : Fin 8), n = 0x80 + 8 * i.val + k.val → Does (.dbgaccRegRead th r) s (fun t =>
          t = { s with dbg := ⟨0, BitVec.ofNat 32 ((o.rw i).toNat / 2 ^ (32 * k.val))⟩ }) ∧
          Does (.dbgaccRegWrite th r v) s (fun t => ∀ j, ((t.thr th).rw i).toNat / 2 ^ (32 * j) % 2 ^ 32 = if j = k.val then v.toNat
            else (o.rw i).toNat / 2 ^ (32 * j) % 2 ^ 32)) ∧
        (n = 0xC0 → Does (.dbgaccRegWrite th r v) s (fun t => t.thr th = { o with pl := v, pendL := none })) ∧
        (n = 0xD0 → Does (.dbgaccRegRead th r) s (fun t => t = { s with dbg := ⟨0, BitVec.ofNat 32 (s.rf (Reg.PIER_THPC.PC th.pier.val th.th.val))⟩ }) ∧
          Does (.dbgaccRegWrite th r v) s (fun t => (t.thr th).pc = BitVec.ofNat 32 (v.toNat % 2 ^ 17)))))

/-! ## Reset and the memories (spec/00, spec/08) -/

namespace Sys2Proof.Claims

/-- Every memory in its one canonical form: I-spaces, scratchpads and mailboxes over 0, the Deck over what a byte nothing has written reads as, the Deck's bit
errors over none. -/
structure MemWf (s : State) : Prop where
  ispace : Memory.wf s.ispace (fun _ => 0) = true
  spad : Memory.wf s.spad (fun _ => 0) = true
  mbox : Memory.wf s.mbox (fun _ => 0) = true
  deck : Memory.wf s.deck (deckDefault s.fills) = true
  ecc : SMap.wf s.ecc (fun _ => 0) = true

end Sys2Proof.Claims

/-- R53, R67, R204, R208 to R212: whatever command or microsecond a step takes, each memory keeps its canonical form, so that equal contents are equal data. -/
def Obligations.MemoriesStayCanonical : Prop := ∀ s t : State, MemWf s → step s = .next t → MemWf t

/-- R10, R69, R274, R394, R416, R459: after a power-on reset both mutes are latched with RESET as their source, the watchdog is held, CONV alone of the present islands is
OFFLINE, threads are STOPPED in Kernel mode, the sequence is at its start, no memory byte is listed and every memory is canonical. -/
def Obligations.ResetStateIsCanonicalAndMuted : Prop :=
  let s := State.reset
  MemWf s ∧ s.pending = [] ∧ s.ispace = [] ∧ s.deck = [] ∧ s.on Reg.ABT_STATUS.MUTE_0 = true ∧ s.on Reg.ABT_STATUS.MUTE_1 = true ∧
    s.bit Reg.ABT_SRC_LATCH.SRC 20 = true ∧ s.on Reg.WDT_STATUS.HELD = true ∧ s.boot.phase = .start ∧ s.rf Reg.BOOT_STATUS.STATE = 0 ∧
    (s.shell islConv).st = .offline ∧ (∀ i : Fin 30, i.val ≠ islConv → (s.shell i.val).st = .online) ∧
    (∀ th : Thr, (s.thr th).run = .stopped ∧ (s.thr th).kernel = true) ∧ s.rf Reg.BOOT_RESET_CAUSE.CAUSE = 0 ∧ s.held.any = false
end

