-- ==== Sys2Proof/Laws/SMap.lean ====
section
/-!
SUPPORT. The laws of sparse maps: a read after a write, and the canonical form kept by every operation.
-/

namespace Sys2Proof.Machine

variable {α : Type}

@[simp] theorem SMap.get_nil (d : α) (k : Nat) : SMap.get ([] : SMap α) d k = d := rfl

@[simp] theorem SMap.get_cons (e : Nat × α) (t : SMap α) (d : α) (k : Nat) :
    SMap.get (e :: t) d k = if e.1 = k then e.2 else SMap.get t d k := rfl

/-- An erased key reads as unlisted. -/
theorem SMap.get_erase_same (m : SMap α) (d : α) (k : Nat) : SMap.get (SMap.erase m k) d k = d := by
  induction m with
  | nil => rfl
  | cons e t ih =>
    by_cases h : e.1 = k
    · simpa [SMap.erase, h] using ih
    · simpa [SMap.erase, h] using ih

/-- Erasing a key leaves every other key. -/
theorem SMap.get_erase_other (m : SMap α) (d : α) (j k : Nat) (hne : j ≠ k) : SMap.get (SMap.erase m k) d j = SMap.get m d j := by
  induction m with
  | nil => rfl
  | cons e t ih =>
    have ih' : SMap.get (List.filter (fun e => e.1 != k) t) d j = SMap.get t d j := ih
    by_cases h : e.1 = k
    · have : e.1 ≠ j := fun hj => hne (hj.symm.trans h)
      simp [SMap.erase, h, ih', hne.symm]
    · simp [SMap.erase, h, ih']

/-- An inserted key that was absent reads as inserted. -/
theorem SMap.get_insert_same (m : SMap α) (d : α) (k : Nat) (v : α) (ha : ∀ e ∈ m, e.1 ≠ k) : SMap.get (SMap.insert m k v) d k = v := by
  induction m with
  | nil => simp [SMap.insert]
  | cons e t ih =>
    have h1 : e.1 ≠ k := ha e (by simp)
    have h2 := ih (fun x hx => ha x (by simp [hx]))
    by_cases h : k < e.1
    · simp [SMap.insert, h]
    · simp [SMap.insert, h, h1, h2]

/-- Inserting a key leaves every other key. -/
theorem SMap.get_insert_other (m : SMap α) (d : α) (j k : Nat) (v : α) (hne : j ≠ k) :
    SMap.get (SMap.insert m k v) d j = SMap.get m d j := by
  induction m with
  | nil => simp [SMap.insert, hne.symm]
  | cons e t ih =>
    by_cases h : k < e.1
    · simp [SMap.insert, h, hne.symm]
    · simp [SMap.insert, h, ih]

theorem SMap.mem_erase (m : SMap α) (k : Nat) (e : Nat × α) : e ∈ SMap.erase m k ↔ e ∈ m ∧ e.1 ≠ k := by
  simp [SMap.erase]

/-- A read after a write of the same key gives the value written. -/
@[simp] theorem SMap.get_set_same [DecidableEq α] (m : SMap α) (d : α) (k : Nat) (v : α) : SMap.get (SMap.set m d k v) d k = v := by
  unfold SMap.set
  by_cases h : v = d
  · simp [h, SMap.get_erase_same]
  · simp [h, SMap.get_insert_same _ _ _ _ (fun e he => ((SMap.mem_erase m k e).1 he).2)]

/-- A write leaves every other key alone, whatever the read's default. -/
theorem SMap.get_set_other [DecidableEq α] (m : SMap α) (d d' : α) (j k : Nat) (v : α) (hne : j ≠ k) :
    SMap.get (SMap.set m d k v) d' j = SMap.get m d' j := by
  unfold SMap.set
  by_cases h : v = d
  · simp [h, SMap.get_erase_other _ _ _ _ hne]
  · simp [h, SMap.get_insert_other _ _ _ _ _ hne, SMap.get_erase_other _ _ _ _ hne]

/-- A read after a write, in one line. -/
theorem SMap.get_set [DecidableEq α] (m : SMap α) (d : α) (j k : Nat) (v : α) :
    SMap.get (SMap.set m d k v) d j = if j = k then v else SMap.get m d j := by
  by_cases h : j = k
  · simp [h]
  · simp [h, SMap.get_set_other _ _ _ _ _ _ h]

/-- A dropped key reads as unlisted; the others are kept. -/
theorem SMap.get_drop (m : SMap α) (d : α) (p : Nat → Bool) (k : Nat) :
    SMap.get (SMap.drop m p) d k = if p k then d else SMap.get m d k := by
  induction m with
  | nil => simp [SMap.drop]
  | cons e t ih =>
    have ih' : SMap.get (List.filter (fun e => !p e.1) t) d k = if p k then d else SMap.get t d k := ih
    by_cases h : p e.1 = true
    · by_cases hk : e.1 = k
      · subst hk; simp [SMap.drop, h, ih']
      · simp [SMap.drop, h, ih', hk]
    · have h0 : p e.1 = false := by simpa using h
      by_cases hk : e.1 = k
      · subst hk; simp [SMap.drop, h0]
      · simp [SMap.drop, h0, ih', hk]

/-! ## The canonical form -/

/-- Keys rising, as a statement about pairs. -/
theorem SMap.rising_iff (m : SMap α) (lo : Option Nat) :
    SMap.rising m lo = true ↔ (∀ l ∈ lo, ∀ e ∈ m, l < e.1) ∧ m.Pairwise (fun a b => a.1 < b.1) := by
  induction m generalizing lo with
  | nil => simp [SMap.rising]
  | cons e t ih =>
    obtain ⟨k, v⟩ := e
    simp only [SMap.rising, Bool.and_eq_true, ih, List.pairwise_cons, Option.mem_def, Option.some.injEq, forall_eq']
    constructor
    · rintro ⟨h1, h2, h3⟩
      refine ⟨?_, h2, h3⟩
      rintro l rfl x hx
      have hl : l < k := by simpa using h1
      rcases List.mem_cons.1 hx with rfl | hx
      · exact hl
      · exact lt_trans hl (h2 x hx)
    · rintro ⟨h1, h2, h3⟩
      refine ⟨?_, h2, h3⟩
      cases lo with
      | none => rfl
      | some l => simpa using h1 l rfl (k, v) (by simp)

/-- The canonical form as a statement about pairs. -/
theorem SMap.wf_iff [DecidableEq α] (m : SMap α) (d : Nat → α) :
    SMap.wf m d = true ↔ m.Pairwise (fun a b => a.1 < b.1) ∧ ∀ e ∈ m, e.2 ≠ d e.1 := by
  simp [SMap.wf, SMap.rising_iff, SMap.tight]

@[simp] theorem SMap.wf_nil [DecidableEq α] (d : Nat → α) : SMap.wf ([] : SMap α) d = true := rfl

/-- A part of a canonical map, in order, is canonical. -/
theorem SMap.wf_filter [DecidableEq α] (m : SMap α) (d : Nat → α) (p : Nat × α → Bool) (h : SMap.wf m d = true) :
    SMap.wf (m.filter p) d = true := by
  rw [SMap.wf_iff] at *
  exact ⟨h.1.sublist List.filter_sublist, fun e he => h.2 e (List.mem_filter.1 he).1⟩

theorem SMap.wf_erase [DecidableEq α] (m : SMap α) (d : Nat → α) (k : Nat) (h : SMap.wf m d = true) :
    SMap.wf (SMap.erase m k) d = true := SMap.wf_filter m d _ h

theorem SMap.wf_drop [DecidableEq α] (m : SMap α) (d : Nat → α) (p : Nat → Bool) (h : SMap.wf m d = true) :
    SMap.wf (SMap.drop m p) d = true := SMap.wf_filter m d _ h

theorem SMap.mem_insert (m : SMap α) (k : Nat) (v : α) (e : Nat × α) : e ∈ SMap.insert m k v ↔ e = (k, v) ∨ e ∈ m := by
  induction m with
  | nil => simp [SMap.insert]
  | cons x t ih =>
    by_cases h : k < x.1
    · simp [SMap.insert, h]
    · simp only [SMap.insert, h, if_false, List.mem_cons, ih]; tauto

theorem SMap.pairwise_insert (m : SMap α) (k : Nat) (v : α) (hp : m.Pairwise (fun a b => a.1 < b.1)) (ha : ∀ e ∈ m, e.1 ≠ k) :
    (SMap.insert m k v).Pairwise (fun a b => a.1 < b.1) := by
  induction m with
  | nil => simp [SMap.insert]
  | cons x t ih =>
    obtain ⟨h1, h2⟩ := List.pairwise_cons.1 hp
    by_cases h : k < x.1
    · simp only [SMap.insert, h, if_true, List.pairwise_cons]
      refine ⟨?_, h1, h2⟩
      intro e he
      rcases List.mem_cons.1 he with rfl | he
      · exact h
      · exact lt_trans h (h1 e he)
    · simp only [SMap.insert, h, if_false, List.pairwise_cons]
      refine ⟨?_, ih h2 (fun e he => ha e (by simp [he]))⟩
      intro e he
      rcases (SMap.mem_insert t k v e).1 he with rfl | he
      · have := ha x (by simp); simp only; omega
      · exact h1 e he

/-- A write keeps the canonical form. -/
theorem SMap.wf_set [DecidableEq α] (m : SMap α) (d : Nat → α) (k : Nat) (v : α) (h : SMap.wf m d = true) :
    SMap.wf (SMap.set m (d k) k v) d = true := by
  unfold SMap.set
  by_cases hv : v = d k
  · simpa [hv] using SMap.wf_erase m d k h
  · simp only [hv, if_false]
    have he := (SMap.wf_iff _ _).1 (SMap.wf_erase m d k h)
    rw [SMap.wf_iff]
    refine ⟨SMap.pairwise_insert _ _ _ he.1 (fun e h' => ((SMap.mem_erase m k e).1 h').2), ?_⟩
    intro e h'
    rcases (SMap.mem_insert _ _ _ _).1 h' with rfl | h'
    · exact hv
    · exact he.2 e h'

/-- The canonical form depends on what the listed keys read as when unlisted, and on nothing else. -/
theorem SMap.wf_congr [DecidableEq α] (m : SMap α) (d d' : Nat → α) (h : SMap.wf m d = true) (hd : ∀ e ∈ m, d' e.1 = d e.1) :
    SMap.wf m d' = true := by
  rw [SMap.wf_iff] at *
  exact ⟨h.1, fun e he => by rw [hd e he]; exact h.2 e he⟩

/-- Two canonical maps that read alike are equal: equal contents are equal data. -/
theorem SMap.wf_ext [DecidableEq α] (m n : SMap α) (d : Nat → α) (hm : SMap.wf m d = true) (hn : SMap.wf n d = true)
    (h : ∀ k, SMap.get m (d k) k = SMap.get n (d k) k) : m = n := by
  rw [SMap.wf_iff] at hm hn
  induction m generalizing n with
  | nil =>
    cases n with
    | nil => rfl
    | cons e t => exact absurd (by simpa using (h e.1).symm) (hn.2 e (by simp))
  | cons x s ih =>
    have hlow : ∀ (z : Nat × α) (r : SMap α), (z :: r).Pairwise (fun a b => a.1 < b.1) →
        ∀ k, k < z.1 → SMap.get (z :: r) (d k) k = d k := by
      intro z r hz k hk
      have hr : ∀ (r : SMap α), (∀ e ∈ r, k < e.1) → SMap.get r (d k) k = d k := by
        intro r
        induction r with
        | nil => intro _; rfl
        | cons y r ihr =>
          intro hy
          have h1 : y.1 ≠ k := by have := hy y (by simp); omega
          simp [h1, ihr (fun e he => hy e (by simp [he]))]
      apply hr
      intro e he
      rcases List.mem_cons.1 he with rfl | he
      · exact hk
      · exact lt_trans hk ((List.pairwise_cons.1 hz).1 e he)
    cases n with
    | nil => exact absurd (by simpa using h x.1) (hm.2 x (by simp))
    | cons y t =>
      have hxy : x.1 = y.1 := by
        rcases lt_trichotomy x.1 y.1 with hlt | heq | hgt
        · have := h x.1
          rw [hlow y t hn.1 x.1 hlt] at this
          exact absurd (by simpa using this) (hm.2 x (by simp))
        · exact heq
        · have := h y.1
          rw [hlow x s hm.1 y.1 hgt] at this
          exact absurd (by simpa using this.symm) (hn.2 y (by simp))
      have hv : x.2 = y.2 := by have := h x.1; simpa [hxy] using this
      have hx : x = y := Prod.ext hxy hv
      subst hx
      congr 1
      obtain ⟨hx1, hs1⟩ := List.pairwise_cons.1 hm.1
      obtain ⟨hx2, ht1⟩ := List.pairwise_cons.1 hn.1
      refine ih t ⟨hs1, fun e he => hm.2 e (by simp [he])⟩ ⟨ht1, fun e he => hn.2 e (by simp [he])⟩ ?_
      intro k
      by_cases hk : x.1 = k
      · subst hk
        have lowT : ∀ r : SMap α, (∀ e ∈ r, x.1 < e.1) → SMap.get r (d x.1) x.1 = d x.1 := by
          intro r
          induction r with
          | nil => intro _; rfl
          | cons y r ihr =>
            intro hy
            have h1 : y.1 ≠ x.1 := by have := hy y (by simp); omega
            simp [h1, ihr (fun e he => hy e (by simp [he]))]
        rw [lowT s hx1, lowT t hx2]
      · simpa [hk] using h k

end Sys2Proof.Machine
end

