-- ==== Sys2Proof/Laws/Fabric.lean ====
section
/-!
SUPPORT. Credits and flits are conserved on every link (R253): a grant moves both together, so a cycle and a sending keep
`Fab.conserved`.
-/

namespace Sys2Proof.Laws

open Sys2Proof.Machine

/-- With every credit at its sender and no flit in flight the equality holds. -/
theorem fab_empty_conserved : Fab.empty.conserved := fun k => by simp [Fab.credit, Fab.buf, Fab.empty]

/-- Sending a packet touches no link. -/
theorem fab_launch_conserved (f : Fab) (p : Pkt) (h : f.conserved) : (f.launch p).conserved := h

/-- A flit that leaves a buffer gives its credit back. -/
theorem fab_leave_conserved (f : Fab) (w : Want) (h : f.conserved) (hs : f.stands w = true) : (f.leave w).conserved := by
  intro k
  cases hsrc : w.src with
  | none => simpa [Fab.leave, hsrc, Fab.credit, Fab.buf] using h k
  | some j =>
    have hne : (f.buf j) ≠ [] := by
      intro h0
      simp [Fab.stands, hsrc, h0] at hs
    have hj := h j
    have hl : 0 < (f.buf j).length := List.length_pos_of_ne_nil hne
    have hk := h k
    by_cases e : k = j
    · subst e
      simp only [Fab.leave, hsrc, Fab.credit, Fab.buf, SMap.get_set_same, List.length_tail] at *
      omega
    · simp only [Fab.leave, hsrc, Fab.credit, Fab.buf] at *
      rw [SMap.get_set_other _ _ _ _ _ _ e, SMap.get_set_other _ _ _ _ _ _ e]
      exact hk

/-- What leaving does to the credits of another buffer: none is lost. -/
theorem fab_leave_credit (f : Fab) (w : Want) (k : Nat) : f.credit k ≤ (f.leave w).credit k := by
  cases hsrc : w.src with
  | none => simp [Fab.leave, hsrc, Fab.credit]
  | some j =>
    by_cases e : k = j
    · subst e; simp [Fab.leave, hsrc, Fab.credit]
    · simp only [Fab.leave, hsrc, Fab.credit]
      rw [SMap.get_set_other _ _ _ _ _ _ e]

/-- A flit that enters a buffer takes a credit. -/
theorem fab_enter_conserved (f : Fab) (w : Want) (h : f.conserved) (hc : linkEject w.link = true ∨ 0 < f.credit w.key) :
    (f.enter w).conserved := by
  intro k
  have hk := h k
  by_cases he : linkEject w.link = true
  · simp only [Fab.enter, he, if_true]
    split <;> simpa [Fab.credit, Fab.buf] using hk
  · have hc := hc.resolve_left he
    by_cases e : k = w.key
    · subst e
      simp only [Fab.enter, he, Bool.false_eq_true, if_false, Fab.credit, Fab.buf, SMap.get_set_same, List.length_append,
        List.length_singleton] at *
      omega
    · simp only [Fab.enter, he, Bool.false_eq_true, if_false, Fab.credit, Fab.buf] at *
      rw [SMap.get_set_other _ _ _ _ _ _ e, SMap.get_set_other _ _ _ _ _ _ e]
      exact hk

/-- A grant conserves. -/
theorem fab_go_conserved (f : Fab) (w : Want) (h : f.conserved) : (f.go w).conserved := by
  unfold Fab.go
  split
  · rename_i hs
    have hl := fab_leave_conserved f w h hs
    have hc : linkEject w.link = true ∨ 0 < (f.leave w).credit w.key := by
      simp only [Fab.stands, Bool.and_eq_true, Bool.or_eq_true, decide_eq_true_eq] at hs
      exact hs.2.imp id (fun x => lt_of_lt_of_le x (fab_leave_credit f w w.key))
    exact fab_enter_conserved _ w hl hc
  · exact h

/-- A cycle of the networks conserves. -/
theorem fab_cycle_conserved (f : Fab) (h : f.conserved) : f.cycle.1.conserved := by
  have : ∀ (gs : List Want) (f : Fab), f.conserved → (gs.foldl Fab.go f).conserved := by
    intro gs
    induction gs with
    | nil => intro f h; exact h
    | cons w t ih => intro f h; exact ih _ (fab_go_conserved f w h)
  exact this _ f h

end Sys2Proof.Laws
end

