-- ==== Sys2Proof/Laws/State.lean ====
section
/-!
SUPPORT. One lemma per field of State per update: what each update leaves alone, so that no later proof unfolds a record update.
-/

namespace Sys2Proof.Machine

/-! ## State.setReg -/

@[simp] theorem State.setReg_pending (s : State) (a : Nat) (v : Word) : (s.setReg a v).pending = s.pending := rfl
@[simp] theorem State.setReg_grade (s : State) (a : Nat) (v : Word) : (s.setReg a v).grade = s.grade := rfl
@[simp] theorem State.setReg_threads (s : State) (a : Nat) (v : Word) : (s.setReg a v).threads = s.threads := rfl
@[simp] theorem State.setReg_ispace (s : State) (a : Nat) (v : Word) : (s.setReg a v).ispace = s.ispace := rfl
@[simp] theorem State.setReg_spad (s : State) (a : Nat) (v : Word) : (s.setReg a v).spad = s.spad := rfl
@[simp] theorem State.setReg_mbox (s : State) (a : Nat) (v : Word) : (s.setReg a v).mbox = s.mbox := rfl
@[simp] theorem State.setReg_deck (s : State) (a : Nat) (v : Word) : (s.setReg a v).deck = s.deck := rfl
@[simp] theorem State.setReg_ecc (s : State) (a : Nat) (v : Word) : (s.setReg a v).ecc = s.ecc := rfl
@[simp] theorem State.setReg_net (s : State) (a : Nat) (v : Word) : (s.setReg a v).net = s.net := rfl
@[simp] theorem State.setReg_slots (s : State) (a : Nat) (v : Word) : (s.setReg a v).slots = s.slots := rfl
@[simp] theorem State.setReg_accepted (s : State) (a : Nat) (v : Word) : (s.setReg a v).accepted = s.accepted := rfl
@[simp] theorem State.setReg_spans (s : State) (a : Nat) (v : Word) : (s.setReg a v).spans = s.spans := rfl
@[simp] theorem State.setReg_fills (s : State) (a : Nat) (v : Word) : (s.setReg a v).fills = s.fills := rfl
@[simp] theorem State.setReg_scrubs (s : State) (a : Nat) (v : Word) : (s.setReg a v).scrubs = s.scrubs := rfl
@[simp] theorem State.setReg_inits (s : State) (a : Nat) (v : Word) : (s.setReg a v).inits = s.inits := rfl
@[simp] theorem State.setReg_dma (s : State) (a : Nat) (v : Word) : (s.setReg a v).dma = s.dma := rfl
@[simp] theorem State.setReg_dmaTurn (s : State) (a : Nat) (v : Word) : (s.setReg a v).dmaTurn = s.dmaTurn := rfl
@[simp] theorem State.setReg_gauges (s : State) (a : Nat) (v : Word) : (s.setReg a v).gauges = s.gauges := rfl
@[simp] theorem State.setReg_spll (s : State) (a : Nat) (v : Word) : (s.setReg a v).spll = s.spll := rfl
@[simp] theorem State.setReg_ldr (s : State) (a : Nat) (v : Word) : (s.setReg a v).ldr = s.ldr := rfl
@[simp] theorem State.setReg_vault (s : State) (a : Nat) (v : Word) : (s.setReg a v).vault = s.vault := rfl
@[simp] theorem State.setReg_flc (s : State) (a : Nat) (v : Word) : (s.setReg a v).flc = s.flc := rfl
@[simp] theorem State.setReg_trigs (s : State) (a : Nat) (v : Word) : (s.setReg a v).trigs = s.trigs := rfl
@[simp] theorem State.setReg_record (s : State) (a : Nat) (v : Word) : (s.setReg a v).record = s.record := rfl
@[simp] theorem State.setReg_rtc (s : State) (a : Nat) (v : Word) : (s.setReg a v).rtc = s.rtc := rfl
@[simp] theorem State.setReg_par (s : State) (a : Nat) (v : Word) : (s.setReg a v).par = s.par := rfl
@[simp] theorem State.setReg_boot (s : State) (a : Nat) (v : Word) : (s.setReg a v).boot = s.boot := rfl
@[simp] theorem State.setReg_cvp (s : State) (a : Nat) (v : Word) : (s.setReg a v).cvp = s.cvp := rfl
@[simp] theorem State.setReg_cal (s : State) (a : Nat) (v : Word) : (s.setReg a v).cal = s.cal := rfl
@[simp] theorem State.setReg_ovrIn (s : State) (a : Nat) (v : Word) : (s.setReg a v).ovrIn = s.ovrIn := rfl
@[simp] theorem State.setReg_estopN (s : State) (a : Nat) (v : Word) : (s.setReg a v).estopN = s.estopN := rfl
@[simp] theorem State.setReg_abtNew (s : State) (a : Nat) (v : Word) : (s.setReg a v).abtNew = s.abtNew := rfl
@[simp] theorem State.setReg_quietUs (s : State) (a : Nat) (v : Word) : (s.setReg a v).quietUs = s.quietUs := rfl
@[simp] theorem State.setReg_us (s : State) (a : Nat) (v : Word) : (s.setReg a v).us = s.us := rfl
@[simp] theorem State.setReg_eth (s : State) (a : Nat) (v : Word) : (s.setReg a v).eth = s.eth := rfl
@[simp] theorem State.setReg_fsv (s : State) (a : Nat) (v : Word) : (s.setReg a v).fsv = s.fsv := rfl
@[simp] theorem State.setReg_panel (s : State) (a : Nat) (v : Word) : (s.setReg a v).panel = s.panel := rfl
@[simp] theorem State.setReg_gio (s : State) (a : Nat) (v : Word) : (s.setReg a v).gio = s.gio := rfl
@[simp] theorem State.setReg_held (s : State) (a : Nat) (v : Word) : (s.setReg a v).held = s.held := rfl
@[simp] theorem State.setReg_dbg (s : State) (a : Nat) (v : Word) : (s.setReg a v).dbg = s.dbg := rfl
@[simp] theorem State.setReg_pwrLow (s : State) (a : Nat) (v : Word) : (s.setReg a v).pwrLow = s.pwrLow := rfl
@[simp] theorem State.setReg_free (s : State) (a : Nat) (v : Word) : (s.setReg a v).free = s.free := rfl

/-! ## State.wf -/

@[simp] theorem State.wf_pending (s : State) (f : Fd) (v : Nat) : (s.wf f v).pending = s.pending := rfl
@[simp] theorem State.wf_grade (s : State) (f : Fd) (v : Nat) : (s.wf f v).grade = s.grade := rfl
@[simp] theorem State.wf_threads (s : State) (f : Fd) (v : Nat) : (s.wf f v).threads = s.threads := rfl
@[simp] theorem State.wf_ispace (s : State) (f : Fd) (v : Nat) : (s.wf f v).ispace = s.ispace := rfl
@[simp] theorem State.wf_spad (s : State) (f : Fd) (v : Nat) : (s.wf f v).spad = s.spad := rfl
@[simp] theorem State.wf_mbox (s : State) (f : Fd) (v : Nat) : (s.wf f v).mbox = s.mbox := rfl
@[simp] theorem State.wf_deck (s : State) (f : Fd) (v : Nat) : (s.wf f v).deck = s.deck := rfl
@[simp] theorem State.wf_ecc (s : State) (f : Fd) (v : Nat) : (s.wf f v).ecc = s.ecc := rfl
@[simp] theorem State.wf_net (s : State) (f : Fd) (v : Nat) : (s.wf f v).net = s.net := rfl
@[simp] theorem State.wf_slots (s : State) (f : Fd) (v : Nat) : (s.wf f v).slots = s.slots := rfl
@[simp] theorem State.wf_accepted (s : State) (f : Fd) (v : Nat) : (s.wf f v).accepted = s.accepted := rfl
@[simp] theorem State.wf_spans (s : State) (f : Fd) (v : Nat) : (s.wf f v).spans = s.spans := rfl
@[simp] theorem State.wf_fills (s : State) (f : Fd) (v : Nat) : (s.wf f v).fills = s.fills := rfl
@[simp] theorem State.wf_scrubs (s : State) (f : Fd) (v : Nat) : (s.wf f v).scrubs = s.scrubs := rfl
@[simp] theorem State.wf_inits (s : State) (f : Fd) (v : Nat) : (s.wf f v).inits = s.inits := rfl
@[simp] theorem State.wf_dma (s : State) (f : Fd) (v : Nat) : (s.wf f v).dma = s.dma := rfl
@[simp] theorem State.wf_dmaTurn (s : State) (f : Fd) (v : Nat) : (s.wf f v).dmaTurn = s.dmaTurn := rfl
@[simp] theorem State.wf_gauges (s : State) (f : Fd) (v : Nat) : (s.wf f v).gauges = s.gauges := rfl
@[simp] theorem State.wf_spll (s : State) (f : Fd) (v : Nat) : (s.wf f v).spll = s.spll := rfl
@[simp] theorem State.wf_ldr (s : State) (f : Fd) (v : Nat) : (s.wf f v).ldr = s.ldr := rfl
@[simp] theorem State.wf_vault (s : State) (f : Fd) (v : Nat) : (s.wf f v).vault = s.vault := rfl
@[simp] theorem State.wf_flc (s : State) (f : Fd) (v : Nat) : (s.wf f v).flc = s.flc := rfl
@[simp] theorem State.wf_trigs (s : State) (f : Fd) (v : Nat) : (s.wf f v).trigs = s.trigs := rfl
@[simp] theorem State.wf_record (s : State) (f : Fd) (v : Nat) : (s.wf f v).record = s.record := rfl
@[simp] theorem State.wf_rtc (s : State) (f : Fd) (v : Nat) : (s.wf f v).rtc = s.rtc := rfl
@[simp] theorem State.wf_par (s : State) (f : Fd) (v : Nat) : (s.wf f v).par = s.par := rfl
@[simp] theorem State.wf_boot (s : State) (f : Fd) (v : Nat) : (s.wf f v).boot = s.boot := rfl
@[simp] theorem State.wf_cvp (s : State) (f : Fd) (v : Nat) : (s.wf f v).cvp = s.cvp := rfl
@[simp] theorem State.wf_cal (s : State) (f : Fd) (v : Nat) : (s.wf f v).cal = s.cal := rfl
@[simp] theorem State.wf_ovrIn (s : State) (f : Fd) (v : Nat) : (s.wf f v).ovrIn = s.ovrIn := rfl
@[simp] theorem State.wf_estopN (s : State) (f : Fd) (v : Nat) : (s.wf f v).estopN = s.estopN := rfl
@[simp] theorem State.wf_abtNew (s : State) (f : Fd) (v : Nat) : (s.wf f v).abtNew = s.abtNew := rfl
@[simp] theorem State.wf_quietUs (s : State) (f : Fd) (v : Nat) : (s.wf f v).quietUs = s.quietUs := rfl
@[simp] theorem State.wf_us (s : State) (f : Fd) (v : Nat) : (s.wf f v).us = s.us := rfl
@[simp] theorem State.wf_eth (s : State) (f : Fd) (v : Nat) : (s.wf f v).eth = s.eth := rfl
@[simp] theorem State.wf_fsv (s : State) (f : Fd) (v : Nat) : (s.wf f v).fsv = s.fsv := rfl
@[simp] theorem State.wf_panel (s : State) (f : Fd) (v : Nat) : (s.wf f v).panel = s.panel := rfl
@[simp] theorem State.wf_gio (s : State) (f : Fd) (v : Nat) : (s.wf f v).gio = s.gio := rfl
@[simp] theorem State.wf_held (s : State) (f : Fd) (v : Nat) : (s.wf f v).held = s.held := rfl
@[simp] theorem State.wf_dbg (s : State) (f : Fd) (v : Nat) : (s.wf f v).dbg = s.dbg := rfl
@[simp] theorem State.wf_pwrLow (s : State) (f : Fd) (v : Nat) : (s.wf f v).pwrLow = s.pwrLow := rfl
@[simp] theorem State.wf_free (s : State) (f : Fd) (v : Nat) : (s.wf f v).free = s.free := rfl

/-! ## State.setBit -/

@[simp] theorem State.setBit_pending (s : State) (f : Fd) (i : Nat) (v : Bool) : (s.setBit f i v).pending = s.pending := rfl
@[simp] theorem State.setBit_grade (s : State) (f : Fd) (i : Nat) (v : Bool) : (s.setBit f i v).grade = s.grade := rfl
@[simp] theorem State.setBit_threads (s : State) (f : Fd) (i : Nat) (v : Bool) : (s.setBit f i v).threads = s.threads := rfl
@[simp] theorem State.setBit_ispace (s : State) (f : Fd) (i : Nat) (v : Bool) : (s.setBit f i v).ispace = s.ispace := rfl
@[simp] theorem State.setBit_spad (s : State) (f : Fd) (i : Nat) (v : Bool) : (s.setBit f i v).spad = s.spad := rfl
@[simp] theorem State.setBit_mbox (s : State) (f : Fd) (i : Nat) (v : Bool) : (s.setBit f i v).mbox = s.mbox := rfl
@[simp] theorem State.setBit_deck (s : State) (f : Fd) (i : Nat) (v : Bool) : (s.setBit f i v).deck = s.deck := rfl
@[simp] theorem State.setBit_ecc (s : State) (f : Fd) (i : Nat) (v : Bool) : (s.setBit f i v).ecc = s.ecc := rfl
@[simp] theorem State.setBit_net (s : State) (f : Fd) (i : Nat) (v : Bool) : (s.setBit f i v).net = s.net := rfl
@[simp] theorem State.setBit_slots (s : State) (f : Fd) (i : Nat) (v : Bool) : (s.setBit f i v).slots = s.slots := rfl
@[simp] theorem State.setBit_accepted (s : State) (f : Fd) (i : Nat) (v : Bool) : (s.setBit f i v).accepted = s.accepted := rfl
@[simp] theorem State.setBit_spans (s : State) (f : Fd) (i : Nat) (v : Bool) : (s.setBit f i v).spans = s.spans := rfl
@[simp] theorem State.setBit_fills (s : State) (f : Fd) (i : Nat) (v : Bool) : (s.setBit f i v).fills = s.fills := rfl
@[simp] theorem State.setBit_scrubs (s : State) (f : Fd) (i : Nat) (v : Bool) : (s.setBit f i v).scrubs = s.scrubs := rfl
@[simp] theorem State.setBit_inits (s : State) (f : Fd) (i : Nat) (v : Bool) : (s.setBit f i v).inits = s.inits := rfl
@[simp] theorem State.setBit_dma (s : State) (f : Fd) (i : Nat) (v : Bool) : (s.setBit f i v).dma = s.dma := rfl
@[simp] theorem State.setBit_dmaTurn (s : State) (f : Fd) (i : Nat) (v : Bool) : (s.setBit f i v).dmaTurn = s.dmaTurn := rfl
@[simp] theorem State.setBit_gauges (s : State) (f : Fd) (i : Nat) (v : Bool) : (s.setBit f i v).gauges = s.gauges := rfl
@[simp] theorem State.setBit_spll (s : State) (f : Fd) (i : Nat) (v : Bool) : (s.setBit f i v).spll = s.spll := rfl
@[simp] theorem State.setBit_ldr (s : State) (f : Fd) (i : Nat) (v : Bool) : (s.setBit f i v).ldr = s.ldr := rfl
@[simp] theorem State.setBit_vault (s : State) (f : Fd) (i : Nat) (v : Bool) : (s.setBit f i v).vault = s.vault := rfl
@[simp] theorem State.setBit_flc (s : State) (f : Fd) (i : Nat) (v : Bool) : (s.setBit f i v).flc = s.flc := rfl
@[simp] theorem State.setBit_trigs (s : State) (f : Fd) (i : Nat) (v : Bool) : (s.setBit f i v).trigs = s.trigs := rfl
@[simp] theorem State.setBit_record (s : State) (f : Fd) (i : Nat) (v : Bool) : (s.setBit f i v).record = s.record := rfl
@[simp] theorem State.setBit_rtc (s : State) (f : Fd) (i : Nat) (v : Bool) : (s.setBit f i v).rtc = s.rtc := rfl
@[simp] theorem State.setBit_par (s : State) (f : Fd) (i : Nat) (v : Bool) : (s.setBit f i v).par = s.par := rfl
@[simp] theorem State.setBit_boot (s : State) (f : Fd) (i : Nat) (v : Bool) : (s.setBit f i v).boot = s.boot := rfl
@[simp] theorem State.setBit_cvp (s : State) (f : Fd) (i : Nat) (v : Bool) : (s.setBit f i v).cvp = s.cvp := rfl
@[simp] theorem State.setBit_cal (s : State) (f : Fd) (i : Nat) (v : Bool) : (s.setBit f i v).cal = s.cal := rfl
@[simp] theorem State.setBit_ovrIn (s : State) (f : Fd) (i : Nat) (v : Bool) : (s.setBit f i v).ovrIn = s.ovrIn := rfl
@[simp] theorem State.setBit_estopN (s : State) (f : Fd) (i : Nat) (v : Bool) : (s.setBit f i v).estopN = s.estopN := rfl
@[simp] theorem State.setBit_abtNew (s : State) (f : Fd) (i : Nat) (v : Bool) : (s.setBit f i v).abtNew = s.abtNew := rfl
@[simp] theorem State.setBit_quietUs (s : State) (f : Fd) (i : Nat) (v : Bool) : (s.setBit f i v).quietUs = s.quietUs := rfl
@[simp] theorem State.setBit_us (s : State) (f : Fd) (i : Nat) (v : Bool) : (s.setBit f i v).us = s.us := rfl
@[simp] theorem State.setBit_eth (s : State) (f : Fd) (i : Nat) (v : Bool) : (s.setBit f i v).eth = s.eth := rfl
@[simp] theorem State.setBit_fsv (s : State) (f : Fd) (i : Nat) (v : Bool) : (s.setBit f i v).fsv = s.fsv := rfl
@[simp] theorem State.setBit_panel (s : State) (f : Fd) (i : Nat) (v : Bool) : (s.setBit f i v).panel = s.panel := rfl
@[simp] theorem State.setBit_gio (s : State) (f : Fd) (i : Nat) (v : Bool) : (s.setBit f i v).gio = s.gio := rfl
@[simp] theorem State.setBit_held (s : State) (f : Fd) (i : Nat) (v : Bool) : (s.setBit f i v).held = s.held := rfl
@[simp] theorem State.setBit_dbg (s : State) (f : Fd) (i : Nat) (v : Bool) : (s.setBit f i v).dbg = s.dbg := rfl
@[simp] theorem State.setBit_pwrLow (s : State) (f : Fd) (i : Nat) (v : Bool) : (s.setBit f i v).pwrLow = s.pwrLow := rfl
@[simp] theorem State.setBit_free (s : State) (f : Fd) (i : Nat) (v : Bool) : (s.setBit f i v).free = s.free := rfl

/-! ## State.incSat -/

@[simp] theorem State.incSat_pending (s : State) (f : Fd) (n : Nat) : (s.incSat f n).pending = s.pending := rfl
@[simp] theorem State.incSat_grade (s : State) (f : Fd) (n : Nat) : (s.incSat f n).grade = s.grade := rfl
@[simp] theorem State.incSat_threads (s : State) (f : Fd) (n : Nat) : (s.incSat f n).threads = s.threads := rfl
@[simp] theorem State.incSat_ispace (s : State) (f : Fd) (n : Nat) : (s.incSat f n).ispace = s.ispace := rfl
@[simp] theorem State.incSat_spad (s : State) (f : Fd) (n : Nat) : (s.incSat f n).spad = s.spad := rfl
@[simp] theorem State.incSat_mbox (s : State) (f : Fd) (n : Nat) : (s.incSat f n).mbox = s.mbox := rfl
@[simp] theorem State.incSat_deck (s : State) (f : Fd) (n : Nat) : (s.incSat f n).deck = s.deck := rfl
@[simp] theorem State.incSat_ecc (s : State) (f : Fd) (n : Nat) : (s.incSat f n).ecc = s.ecc := rfl
@[simp] theorem State.incSat_net (s : State) (f : Fd) (n : Nat) : (s.incSat f n).net = s.net := rfl
@[simp] theorem State.incSat_slots (s : State) (f : Fd) (n : Nat) : (s.incSat f n).slots = s.slots := rfl
@[simp] theorem State.incSat_accepted (s : State) (f : Fd) (n : Nat) : (s.incSat f n).accepted = s.accepted := rfl
@[simp] theorem State.incSat_spans (s : State) (f : Fd) (n : Nat) : (s.incSat f n).spans = s.spans := rfl
@[simp] theorem State.incSat_fills (s : State) (f : Fd) (n : Nat) : (s.incSat f n).fills = s.fills := rfl
@[simp] theorem State.incSat_scrubs (s : State) (f : Fd) (n : Nat) : (s.incSat f n).scrubs = s.scrubs := rfl
@[simp] theorem State.incSat_inits (s : State) (f : Fd) (n : Nat) : (s.incSat f n).inits = s.inits := rfl
@[simp] theorem State.incSat_dma (s : State) (f : Fd) (n : Nat) : (s.incSat f n).dma = s.dma := rfl
@[simp] theorem State.incSat_dmaTurn (s : State) (f : Fd) (n : Nat) : (s.incSat f n).dmaTurn = s.dmaTurn := rfl
@[simp] theorem State.incSat_gauges (s : State) (f : Fd) (n : Nat) : (s.incSat f n).gauges = s.gauges := rfl
@[simp] theorem State.incSat_spll (s : State) (f : Fd) (n : Nat) : (s.incSat f n).spll = s.spll := rfl
@[simp] theorem State.incSat_ldr (s : State) (f : Fd) (n : Nat) : (s.incSat f n).ldr = s.ldr := rfl
@[simp] theorem State.incSat_vault (s : State) (f : Fd) (n : Nat) : (s.incSat f n).vault = s.vault := rfl
@[simp] theorem State.incSat_flc (s : State) (f : Fd) (n : Nat) : (s.incSat f n).flc = s.flc := rfl
@[simp] theorem State.incSat_trigs (s : State) (f : Fd) (n : Nat) : (s.incSat f n).trigs = s.trigs := rfl
@[simp] theorem State.incSat_record (s : State) (f : Fd) (n : Nat) : (s.incSat f n).record = s.record := rfl
@[simp] theorem State.incSat_rtc (s : State) (f : Fd) (n : Nat) : (s.incSat f n).rtc = s.rtc := rfl
@[simp] theorem State.incSat_par (s : State) (f : Fd) (n : Nat) : (s.incSat f n).par = s.par := rfl
@[simp] theorem State.incSat_boot (s : State) (f : Fd) (n : Nat) : (s.incSat f n).boot = s.boot := rfl
@[simp] theorem State.incSat_cvp (s : State) (f : Fd) (n : Nat) : (s.incSat f n).cvp = s.cvp := rfl
@[simp] theorem State.incSat_cal (s : State) (f : Fd) (n : Nat) : (s.incSat f n).cal = s.cal := rfl
@[simp] theorem State.incSat_ovrIn (s : State) (f : Fd) (n : Nat) : (s.incSat f n).ovrIn = s.ovrIn := rfl
@[simp] theorem State.incSat_estopN (s : State) (f : Fd) (n : Nat) : (s.incSat f n).estopN = s.estopN := rfl
@[simp] theorem State.incSat_abtNew (s : State) (f : Fd) (n : Nat) : (s.incSat f n).abtNew = s.abtNew := rfl
@[simp] theorem State.incSat_quietUs (s : State) (f : Fd) (n : Nat) : (s.incSat f n).quietUs = s.quietUs := rfl
@[simp] theorem State.incSat_us (s : State) (f : Fd) (n : Nat) : (s.incSat f n).us = s.us := rfl
@[simp] theorem State.incSat_eth (s : State) (f : Fd) (n : Nat) : (s.incSat f n).eth = s.eth := rfl
@[simp] theorem State.incSat_fsv (s : State) (f : Fd) (n : Nat) : (s.incSat f n).fsv = s.fsv := rfl
@[simp] theorem State.incSat_panel (s : State) (f : Fd) (n : Nat) : (s.incSat f n).panel = s.panel := rfl
@[simp] theorem State.incSat_gio (s : State) (f : Fd) (n : Nat) : (s.incSat f n).gio = s.gio := rfl
@[simp] theorem State.incSat_held (s : State) (f : Fd) (n : Nat) : (s.incSat f n).held = s.held := rfl
@[simp] theorem State.incSat_dbg (s : State) (f : Fd) (n : Nat) : (s.incSat f n).dbg = s.dbg := rfl
@[simp] theorem State.incSat_pwrLow (s : State) (f : Fd) (n : Nat) : (s.incSat f n).pwrLow = s.pwrLow := rfl
@[simp] theorem State.incSat_free (s : State) (f : Fd) (n : Nat) : (s.incSat f n).free = s.free := rfl

/-! ## State.incWrap -/

@[simp] theorem State.incWrap_pending (s : State) (f : Fd) (n : Nat) : (s.incWrap f n).pending = s.pending := rfl
@[simp] theorem State.incWrap_grade (s : State) (f : Fd) (n : Nat) : (s.incWrap f n).grade = s.grade := rfl
@[simp] theorem State.incWrap_threads (s : State) (f : Fd) (n : Nat) : (s.incWrap f n).threads = s.threads := rfl
@[simp] theorem State.incWrap_ispace (s : State) (f : Fd) (n : Nat) : (s.incWrap f n).ispace = s.ispace := rfl
@[simp] theorem State.incWrap_spad (s : State) (f : Fd) (n : Nat) : (s.incWrap f n).spad = s.spad := rfl
@[simp] theorem State.incWrap_mbox (s : State) (f : Fd) (n : Nat) : (s.incWrap f n).mbox = s.mbox := rfl
@[simp] theorem State.incWrap_deck (s : State) (f : Fd) (n : Nat) : (s.incWrap f n).deck = s.deck := rfl
@[simp] theorem State.incWrap_ecc (s : State) (f : Fd) (n : Nat) : (s.incWrap f n).ecc = s.ecc := rfl
@[simp] theorem State.incWrap_net (s : State) (f : Fd) (n : Nat) : (s.incWrap f n).net = s.net := rfl
@[simp] theorem State.incWrap_slots (s : State) (f : Fd) (n : Nat) : (s.incWrap f n).slots = s.slots := rfl
@[simp] theorem State.incWrap_accepted (s : State) (f : Fd) (n : Nat) : (s.incWrap f n).accepted = s.accepted := rfl
@[simp] theorem State.incWrap_spans (s : State) (f : Fd) (n : Nat) : (s.incWrap f n).spans = s.spans := rfl
@[simp] theorem State.incWrap_fills (s : State) (f : Fd) (n : Nat) : (s.incWrap f n).fills = s.fills := rfl
@[simp] theorem State.incWrap_scrubs (s : State) (f : Fd) (n : Nat) : (s.incWrap f n).scrubs = s.scrubs := rfl
@[simp] theorem State.incWrap_inits (s : State) (f : Fd) (n : Nat) : (s.incWrap f n).inits = s.inits := rfl
@[simp] theorem State.incWrap_dma (s : State) (f : Fd) (n : Nat) : (s.incWrap f n).dma = s.dma := rfl
@[simp] theorem State.incWrap_dmaTurn (s : State) (f : Fd) (n : Nat) : (s.incWrap f n).dmaTurn = s.dmaTurn := rfl
@[simp] theorem State.incWrap_gauges (s : State) (f : Fd) (n : Nat) : (s.incWrap f n).gauges = s.gauges := rfl
@[simp] theorem State.incWrap_spll (s : State) (f : Fd) (n : Nat) : (s.incWrap f n).spll = s.spll := rfl
@[simp] theorem State.incWrap_ldr (s : State) (f : Fd) (n : Nat) : (s.incWrap f n).ldr = s.ldr := rfl
@[simp] theorem State.incWrap_vault (s : State) (f : Fd) (n : Nat) : (s.incWrap f n).vault = s.vault := rfl
@[simp] theorem State.incWrap_flc (s : State) (f : Fd) (n : Nat) : (s.incWrap f n).flc = s.flc := rfl
@[simp] theorem State.incWrap_trigs (s : State) (f : Fd) (n : Nat) : (s.incWrap f n).trigs = s.trigs := rfl
@[simp] theorem State.incWrap_record (s : State) (f : Fd) (n : Nat) : (s.incWrap f n).record = s.record := rfl
@[simp] theorem State.incWrap_rtc (s : State) (f : Fd) (n : Nat) : (s.incWrap f n).rtc = s.rtc := rfl
@[simp] theorem State.incWrap_par (s : State) (f : Fd) (n : Nat) : (s.incWrap f n).par = s.par := rfl
@[simp] theorem State.incWrap_boot (s : State) (f : Fd) (n : Nat) : (s.incWrap f n).boot = s.boot := rfl
@[simp] theorem State.incWrap_cvp (s : State) (f : Fd) (n : Nat) : (s.incWrap f n).cvp = s.cvp := rfl
@[simp] theorem State.incWrap_cal (s : State) (f : Fd) (n : Nat) : (s.incWrap f n).cal = s.cal := rfl
@[simp] theorem State.incWrap_ovrIn (s : State) (f : Fd) (n : Nat) : (s.incWrap f n).ovrIn = s.ovrIn := rfl
@[simp] theorem State.incWrap_estopN (s : State) (f : Fd) (n : Nat) : (s.incWrap f n).estopN = s.estopN := rfl
@[simp] theorem State.incWrap_abtNew (s : State) (f : Fd) (n : Nat) : (s.incWrap f n).abtNew = s.abtNew := rfl
@[simp] theorem State.incWrap_quietUs (s : State) (f : Fd) (n : Nat) : (s.incWrap f n).quietUs = s.quietUs := rfl
@[simp] theorem State.incWrap_us (s : State) (f : Fd) (n : Nat) : (s.incWrap f n).us = s.us := rfl
@[simp] theorem State.incWrap_eth (s : State) (f : Fd) (n : Nat) : (s.incWrap f n).eth = s.eth := rfl
@[simp] theorem State.incWrap_fsv (s : State) (f : Fd) (n : Nat) : (s.incWrap f n).fsv = s.fsv := rfl
@[simp] theorem State.incWrap_panel (s : State) (f : Fd) (n : Nat) : (s.incWrap f n).panel = s.panel := rfl
@[simp] theorem State.incWrap_gio (s : State) (f : Fd) (n : Nat) : (s.incWrap f n).gio = s.gio := rfl
@[simp] theorem State.incWrap_held (s : State) (f : Fd) (n : Nat) : (s.incWrap f n).held = s.held := rfl
@[simp] theorem State.incWrap_dbg (s : State) (f : Fd) (n : Nat) : (s.incWrap f n).dbg = s.dbg := rfl
@[simp] theorem State.incWrap_pwrLow (s : State) (f : Fd) (n : Nat) : (s.incWrap f n).pwrLow = s.pwrLow := rfl
@[simp] theorem State.incWrap_free (s : State) (f : Fd) (n : Nat) : (s.incWrap f n).free = s.free := rfl

/-! ## State.setThr -/

@[simp] theorem State.setThr_pending (s : State) (th : Thr) (v : Thread) : (s.setThr th v).pending = s.pending := rfl
@[simp] theorem State.setThr_grade (s : State) (th : Thr) (v : Thread) : (s.setThr th v).grade = s.grade := rfl
@[simp] theorem State.setThr_io (s : State) (th : Thr) (v : Thread) : (s.setThr th v).io = s.io := rfl
@[simp] theorem State.setThr_ispace (s : State) (th : Thr) (v : Thread) : (s.setThr th v).ispace = s.ispace := rfl
@[simp] theorem State.setThr_spad (s : State) (th : Thr) (v : Thread) : (s.setThr th v).spad = s.spad := rfl
@[simp] theorem State.setThr_mbox (s : State) (th : Thr) (v : Thread) : (s.setThr th v).mbox = s.mbox := rfl
@[simp] theorem State.setThr_deck (s : State) (th : Thr) (v : Thread) : (s.setThr th v).deck = s.deck := rfl
@[simp] theorem State.setThr_ecc (s : State) (th : Thr) (v : Thread) : (s.setThr th v).ecc = s.ecc := rfl
@[simp] theorem State.setThr_net (s : State) (th : Thr) (v : Thread) : (s.setThr th v).net = s.net := rfl
@[simp] theorem State.setThr_slots (s : State) (th : Thr) (v : Thread) : (s.setThr th v).slots = s.slots := rfl
@[simp] theorem State.setThr_accepted (s : State) (th : Thr) (v : Thread) : (s.setThr th v).accepted = s.accepted := rfl
@[simp] theorem State.setThr_spans (s : State) (th : Thr) (v : Thread) : (s.setThr th v).spans = s.spans := rfl
@[simp] theorem State.setThr_fills (s : State) (th : Thr) (v : Thread) : (s.setThr th v).fills = s.fills := rfl
@[simp] theorem State.setThr_scrubs (s : State) (th : Thr) (v : Thread) : (s.setThr th v).scrubs = s.scrubs := rfl
@[simp] theorem State.setThr_inits (s : State) (th : Thr) (v : Thread) : (s.setThr th v).inits = s.inits := rfl
@[simp] theorem State.setThr_dma (s : State) (th : Thr) (v : Thread) : (s.setThr th v).dma = s.dma := rfl
@[simp] theorem State.setThr_dmaTurn (s : State) (th : Thr) (v : Thread) : (s.setThr th v).dmaTurn = s.dmaTurn := rfl
@[simp] theorem State.setThr_gauges (s : State) (th : Thr) (v : Thread) : (s.setThr th v).gauges = s.gauges := rfl
@[simp] theorem State.setThr_spll (s : State) (th : Thr) (v : Thread) : (s.setThr th v).spll = s.spll := rfl
@[simp] theorem State.setThr_ldr (s : State) (th : Thr) (v : Thread) : (s.setThr th v).ldr = s.ldr := rfl
@[simp] theorem State.setThr_vault (s : State) (th : Thr) (v : Thread) : (s.setThr th v).vault = s.vault := rfl
@[simp] theorem State.setThr_flc (s : State) (th : Thr) (v : Thread) : (s.setThr th v).flc = s.flc := rfl
@[simp] theorem State.setThr_trigs (s : State) (th : Thr) (v : Thread) : (s.setThr th v).trigs = s.trigs := rfl
@[simp] theorem State.setThr_record (s : State) (th : Thr) (v : Thread) : (s.setThr th v).record = s.record := rfl
@[simp] theorem State.setThr_rtc (s : State) (th : Thr) (v : Thread) : (s.setThr th v).rtc = s.rtc := rfl
@[simp] theorem State.setThr_par (s : State) (th : Thr) (v : Thread) : (s.setThr th v).par = s.par := rfl
@[simp] theorem State.setThr_boot (s : State) (th : Thr) (v : Thread) : (s.setThr th v).boot = s.boot := rfl
@[simp] theorem State.setThr_cvp (s : State) (th : Thr) (v : Thread) : (s.setThr th v).cvp = s.cvp := rfl
@[simp] theorem State.setThr_cal (s : State) (th : Thr) (v : Thread) : (s.setThr th v).cal = s.cal := rfl
@[simp] theorem State.setThr_ovrIn (s : State) (th : Thr) (v : Thread) : (s.setThr th v).ovrIn = s.ovrIn := rfl
@[simp] theorem State.setThr_estopN (s : State) (th : Thr) (v : Thread) : (s.setThr th v).estopN = s.estopN := rfl
@[simp] theorem State.setThr_abtNew (s : State) (th : Thr) (v : Thread) : (s.setThr th v).abtNew = s.abtNew := rfl
@[simp] theorem State.setThr_quietUs (s : State) (th : Thr) (v : Thread) : (s.setThr th v).quietUs = s.quietUs := rfl
@[simp] theorem State.setThr_us (s : State) (th : Thr) (v : Thread) : (s.setThr th v).us = s.us := rfl
@[simp] theorem State.setThr_eth (s : State) (th : Thr) (v : Thread) : (s.setThr th v).eth = s.eth := rfl
@[simp] theorem State.setThr_fsv (s : State) (th : Thr) (v : Thread) : (s.setThr th v).fsv = s.fsv := rfl
@[simp] theorem State.setThr_panel (s : State) (th : Thr) (v : Thread) : (s.setThr th v).panel = s.panel := rfl
@[simp] theorem State.setThr_gio (s : State) (th : Thr) (v : Thread) : (s.setThr th v).gio = s.gio := rfl
@[simp] theorem State.setThr_held (s : State) (th : Thr) (v : Thread) : (s.setThr th v).held = s.held := rfl
@[simp] theorem State.setThr_dbg (s : State) (th : Thr) (v : Thread) : (s.setThr th v).dbg = s.dbg := rfl
@[simp] theorem State.setThr_pwrLow (s : State) (th : Thr) (v : Thread) : (s.setThr th v).pwrLow = s.pwrLow := rfl
@[simp] theorem State.setThr_free (s : State) (th : Thr) (v : Thread) : (s.setThr th v).free = s.free := rfl

/-! ## State.onThr -/

@[simp] theorem State.onThr_pending (s : State) (th : Thr) (g : Thread → Thread) : (s.onThr th g).pending = s.pending := rfl
@[simp] theorem State.onThr_grade (s : State) (th : Thr) (g : Thread → Thread) : (s.onThr th g).grade = s.grade := rfl
@[simp] theorem State.onThr_io (s : State) (th : Thr) (g : Thread → Thread) : (s.onThr th g).io = s.io := rfl
@[simp] theorem State.onThr_ispace (s : State) (th : Thr) (g : Thread → Thread) : (s.onThr th g).ispace = s.ispace := rfl
@[simp] theorem State.onThr_spad (s : State) (th : Thr) (g : Thread → Thread) : (s.onThr th g).spad = s.spad := rfl
@[simp] theorem State.onThr_mbox (s : State) (th : Thr) (g : Thread → Thread) : (s.onThr th g).mbox = s.mbox := rfl
@[simp] theorem State.onThr_deck (s : State) (th : Thr) (g : Thread → Thread) : (s.onThr th g).deck = s.deck := rfl
@[simp] theorem State.onThr_ecc (s : State) (th : Thr) (g : Thread → Thread) : (s.onThr th g).ecc = s.ecc := rfl
@[simp] theorem State.onThr_net (s : State) (th : Thr) (g : Thread → Thread) : (s.onThr th g).net = s.net := rfl
@[simp] theorem State.onThr_slots (s : State) (th : Thr) (g : Thread → Thread) : (s.onThr th g).slots = s.slots := rfl
@[simp] theorem State.onThr_accepted (s : State) (th : Thr) (g : Thread → Thread) : (s.onThr th g).accepted = s.accepted := rfl
@[simp] theorem State.onThr_spans (s : State) (th : Thr) (g : Thread → Thread) : (s.onThr th g).spans = s.spans := rfl
@[simp] theorem State.onThr_fills (s : State) (th : Thr) (g : Thread → Thread) : (s.onThr th g).fills = s.fills := rfl
@[simp] theorem State.onThr_scrubs (s : State) (th : Thr) (g : Thread → Thread) : (s.onThr th g).scrubs = s.scrubs := rfl
@[simp] theorem State.onThr_inits (s : State) (th : Thr) (g : Thread → Thread) : (s.onThr th g).inits = s.inits := rfl
@[simp] theorem State.onThr_dma (s : State) (th : Thr) (g : Thread → Thread) : (s.onThr th g).dma = s.dma := rfl
@[simp] theorem State.onThr_dmaTurn (s : State) (th : Thr) (g : Thread → Thread) : (s.onThr th g).dmaTurn = s.dmaTurn := rfl
@[simp] theorem State.onThr_gauges (s : State) (th : Thr) (g : Thread → Thread) : (s.onThr th g).gauges = s.gauges := rfl
@[simp] theorem State.onThr_spll (s : State) (th : Thr) (g : Thread → Thread) : (s.onThr th g).spll = s.spll := rfl
@[simp] theorem State.onThr_ldr (s : State) (th : Thr) (g : Thread → Thread) : (s.onThr th g).ldr = s.ldr := rfl
@[simp] theorem State.onThr_vault (s : State) (th : Thr) (g : Thread → Thread) : (s.onThr th g).vault = s.vault := rfl
@[simp] theorem State.onThr_flc (s : State) (th : Thr) (g : Thread → Thread) : (s.onThr th g).flc = s.flc := rfl
@[simp] theorem State.onThr_trigs (s : State) (th : Thr) (g : Thread → Thread) : (s.onThr th g).trigs = s.trigs := rfl
@[simp] theorem State.onThr_record (s : State) (th : Thr) (g : Thread → Thread) : (s.onThr th g).record = s.record := rfl
@[simp] theorem State.onThr_rtc (s : State) (th : Thr) (g : Thread → Thread) : (s.onThr th g).rtc = s.rtc := rfl
@[simp] theorem State.onThr_par (s : State) (th : Thr) (g : Thread → Thread) : (s.onThr th g).par = s.par := rfl
@[simp] theorem State.onThr_boot (s : State) (th : Thr) (g : Thread → Thread) : (s.onThr th g).boot = s.boot := rfl
@[simp] theorem State.onThr_cvp (s : State) (th : Thr) (g : Thread → Thread) : (s.onThr th g).cvp = s.cvp := rfl
@[simp] theorem State.onThr_cal (s : State) (th : Thr) (g : Thread → Thread) : (s.onThr th g).cal = s.cal := rfl
@[simp] theorem State.onThr_ovrIn (s : State) (th : Thr) (g : Thread → Thread) : (s.onThr th g).ovrIn = s.ovrIn := rfl
@[simp] theorem State.onThr_estopN (s : State) (th : Thr) (g : Thread → Thread) : (s.onThr th g).estopN = s.estopN := rfl
@[simp] theorem State.onThr_abtNew (s : State) (th : Thr) (g : Thread → Thread) : (s.onThr th g).abtNew = s.abtNew := rfl
@[simp] theorem State.onThr_quietUs (s : State) (th : Thr) (g : Thread → Thread) : (s.onThr th g).quietUs = s.quietUs := rfl
@[simp] theorem State.onThr_us (s : State) (th : Thr) (g : Thread → Thread) : (s.onThr th g).us = s.us := rfl
@[simp] theorem State.onThr_eth (s : State) (th : Thr) (g : Thread → Thread) : (s.onThr th g).eth = s.eth := rfl
@[simp] theorem State.onThr_fsv (s : State) (th : Thr) (g : Thread → Thread) : (s.onThr th g).fsv = s.fsv := rfl
@[simp] theorem State.onThr_panel (s : State) (th : Thr) (g : Thread → Thread) : (s.onThr th g).panel = s.panel := rfl
@[simp] theorem State.onThr_gio (s : State) (th : Thr) (g : Thread → Thread) : (s.onThr th g).gio = s.gio := rfl
@[simp] theorem State.onThr_held (s : State) (th : Thr) (g : Thread → Thread) : (s.onThr th g).held = s.held := rfl
@[simp] theorem State.onThr_dbg (s : State) (th : Thr) (g : Thread → Thread) : (s.onThr th g).dbg = s.dbg := rfl
@[simp] theorem State.onThr_pwrLow (s : State) (th : Thr) (g : Thread → Thread) : (s.onThr th g).pwrLow = s.pwrLow := rfl
@[simp] theorem State.onThr_free (s : State) (th : Thr) (g : Thread → Thread) : (s.onThr th g).free = s.free := rfl

/-! ## State.raise -/

@[simp] theorem State.raise_pending (s : State) (e : Nat) : (s.raise e).pending = s.pending := rfl
@[simp] theorem State.raise_grade (s : State) (e : Nat) : (s.raise e).grade = s.grade := rfl
@[simp] theorem State.raise_io (s : State) (e : Nat) : (s.raise e).io = s.io := rfl
@[simp] theorem State.raise_threads (s : State) (e : Nat) : (s.raise e).threads = s.threads := rfl
@[simp] theorem State.raise_ispace (s : State) (e : Nat) : (s.raise e).ispace = s.ispace := rfl
@[simp] theorem State.raise_spad (s : State) (e : Nat) : (s.raise e).spad = s.spad := rfl
@[simp] theorem State.raise_mbox (s : State) (e : Nat) : (s.raise e).mbox = s.mbox := rfl
@[simp] theorem State.raise_deck (s : State) (e : Nat) : (s.raise e).deck = s.deck := rfl
@[simp] theorem State.raise_ecc (s : State) (e : Nat) : (s.raise e).ecc = s.ecc := rfl
@[simp] theorem State.raise_slots (s : State) (e : Nat) : (s.raise e).slots = s.slots := rfl
@[simp] theorem State.raise_accepted (s : State) (e : Nat) : (s.raise e).accepted = s.accepted := rfl
@[simp] theorem State.raise_spans (s : State) (e : Nat) : (s.raise e).spans = s.spans := rfl
@[simp] theorem State.raise_fills (s : State) (e : Nat) : (s.raise e).fills = s.fills := rfl
@[simp] theorem State.raise_scrubs (s : State) (e : Nat) : (s.raise e).scrubs = s.scrubs := rfl
@[simp] theorem State.raise_inits (s : State) (e : Nat) : (s.raise e).inits = s.inits := rfl
@[simp] theorem State.raise_dma (s : State) (e : Nat) : (s.raise e).dma = s.dma := rfl
@[simp] theorem State.raise_dmaTurn (s : State) (e : Nat) : (s.raise e).dmaTurn = s.dmaTurn := rfl
@[simp] theorem State.raise_gauges (s : State) (e : Nat) : (s.raise e).gauges = s.gauges := rfl
@[simp] theorem State.raise_spll (s : State) (e : Nat) : (s.raise e).spll = s.spll := rfl
@[simp] theorem State.raise_ldr (s : State) (e : Nat) : (s.raise e).ldr = s.ldr := rfl
@[simp] theorem State.raise_vault (s : State) (e : Nat) : (s.raise e).vault = s.vault := rfl
@[simp] theorem State.raise_flc (s : State) (e : Nat) : (s.raise e).flc = s.flc := rfl
@[simp] theorem State.raise_trigs (s : State) (e : Nat) : (s.raise e).trigs = s.trigs := rfl
@[simp] theorem State.raise_record (s : State) (e : Nat) : (s.raise e).record = s.record := rfl
@[simp] theorem State.raise_rtc (s : State) (e : Nat) : (s.raise e).rtc = s.rtc := rfl
@[simp] theorem State.raise_par (s : State) (e : Nat) : (s.raise e).par = s.par := rfl
@[simp] theorem State.raise_boot (s : State) (e : Nat) : (s.raise e).boot = s.boot := rfl
@[simp] theorem State.raise_cvp (s : State) (e : Nat) : (s.raise e).cvp = s.cvp := rfl
@[simp] theorem State.raise_cal (s : State) (e : Nat) : (s.raise e).cal = s.cal := rfl
@[simp] theorem State.raise_ovrIn (s : State) (e : Nat) : (s.raise e).ovrIn = s.ovrIn := rfl
@[simp] theorem State.raise_estopN (s : State) (e : Nat) : (s.raise e).estopN = s.estopN := rfl
@[simp] theorem State.raise_abtNew (s : State) (e : Nat) : (s.raise e).abtNew = s.abtNew := rfl
@[simp] theorem State.raise_quietUs (s : State) (e : Nat) : (s.raise e).quietUs = s.quietUs := rfl
@[simp] theorem State.raise_us (s : State) (e : Nat) : (s.raise e).us = s.us := rfl
@[simp] theorem State.raise_eth (s : State) (e : Nat) : (s.raise e).eth = s.eth := rfl
@[simp] theorem State.raise_fsv (s : State) (e : Nat) : (s.raise e).fsv = s.fsv := rfl
@[simp] theorem State.raise_panel (s : State) (e : Nat) : (s.raise e).panel = s.panel := rfl
@[simp] theorem State.raise_gio (s : State) (e : Nat) : (s.raise e).gio = s.gio := rfl
@[simp] theorem State.raise_held (s : State) (e : Nat) : (s.raise e).held = s.held := rfl
@[simp] theorem State.raise_dbg (s : State) (e : Nat) : (s.raise e).dbg = s.dbg := rfl
@[simp] theorem State.raise_pwrLow (s : State) (e : Nat) : (s.raise e).pwrLow = s.pwrLow := rfl
@[simp] theorem State.raise_free (s : State) (e : Nat) : (s.raise e).free = s.free := rfl

/-! ## State.cause -/

@[simp] theorem State.cause_pending (s : State) (c : SysCause) (e : Word) (u : Nat) : (s.cause c e u).pending = s.pending := rfl
@[simp] theorem State.cause_grade (s : State) (c : SysCause) (e : Word) (u : Nat) : (s.cause c e u).grade = s.grade := rfl
@[simp] theorem State.cause_io (s : State) (c : SysCause) (e : Word) (u : Nat) : (s.cause c e u).io = s.io := rfl
@[simp] theorem State.cause_threads (s : State) (c : SysCause) (e : Word) (u : Nat) : (s.cause c e u).threads = s.threads := rfl
@[simp] theorem State.cause_ispace (s : State) (c : SysCause) (e : Word) (u : Nat) : (s.cause c e u).ispace = s.ispace := rfl
@[simp] theorem State.cause_spad (s : State) (c : SysCause) (e : Word) (u : Nat) : (s.cause c e u).spad = s.spad := rfl
@[simp] theorem State.cause_mbox (s : State) (c : SysCause) (e : Word) (u : Nat) : (s.cause c e u).mbox = s.mbox := rfl
@[simp] theorem State.cause_deck (s : State) (c : SysCause) (e : Word) (u : Nat) : (s.cause c e u).deck = s.deck := rfl
@[simp] theorem State.cause_ecc (s : State) (c : SysCause) (e : Word) (u : Nat) : (s.cause c e u).ecc = s.ecc := rfl
@[simp] theorem State.cause_slots (s : State) (c : SysCause) (e : Word) (u : Nat) : (s.cause c e u).slots = s.slots := rfl
@[simp] theorem State.cause_accepted (s : State) (c : SysCause) (e : Word) (u : Nat) : (s.cause c e u).accepted = s.accepted := rfl
@[simp] theorem State.cause_spans (s : State) (c : SysCause) (e : Word) (u : Nat) : (s.cause c e u).spans = s.spans := rfl
@[simp] theorem State.cause_fills (s : State) (c : SysCause) (e : Word) (u : Nat) : (s.cause c e u).fills = s.fills := rfl
@[simp] theorem State.cause_scrubs (s : State) (c : SysCause) (e : Word) (u : Nat) : (s.cause c e u).scrubs = s.scrubs := rfl
@[simp] theorem State.cause_inits (s : State) (c : SysCause) (e : Word) (u : Nat) : (s.cause c e u).inits = s.inits := rfl
@[simp] theorem State.cause_dma (s : State) (c : SysCause) (e : Word) (u : Nat) : (s.cause c e u).dma = s.dma := rfl
@[simp] theorem State.cause_dmaTurn (s : State) (c : SysCause) (e : Word) (u : Nat) : (s.cause c e u).dmaTurn = s.dmaTurn := rfl
@[simp] theorem State.cause_gauges (s : State) (c : SysCause) (e : Word) (u : Nat) : (s.cause c e u).gauges = s.gauges := rfl
@[simp] theorem State.cause_spll (s : State) (c : SysCause) (e : Word) (u : Nat) : (s.cause c e u).spll = s.spll := rfl
@[simp] theorem State.cause_ldr (s : State) (c : SysCause) (e : Word) (u : Nat) : (s.cause c e u).ldr = s.ldr := rfl
@[simp] theorem State.cause_vault (s : State) (c : SysCause) (e : Word) (u : Nat) : (s.cause c e u).vault = s.vault := rfl
@[simp] theorem State.cause_flc (s : State) (c : SysCause) (e : Word) (u : Nat) : (s.cause c e u).flc = s.flc := rfl
@[simp] theorem State.cause_trigs (s : State) (c : SysCause) (e : Word) (u : Nat) : (s.cause c e u).trigs = s.trigs := rfl
@[simp] theorem State.cause_record (s : State) (c : SysCause) (e : Word) (u : Nat) : (s.cause c e u).record = s.record := rfl
@[simp] theorem State.cause_rtc (s : State) (c : SysCause) (e : Word) (u : Nat) : (s.cause c e u).rtc = s.rtc := rfl
@[simp] theorem State.cause_par (s : State) (c : SysCause) (e : Word) (u : Nat) : (s.cause c e u).par = s.par := rfl
@[simp] theorem State.cause_boot (s : State) (c : SysCause) (e : Word) (u : Nat) : (s.cause c e u).boot = s.boot := rfl
@[simp] theorem State.cause_cvp (s : State) (c : SysCause) (e : Word) (u : Nat) : (s.cause c e u).cvp = s.cvp := rfl
@[simp] theorem State.cause_cal (s : State) (c : SysCause) (e : Word) (u : Nat) : (s.cause c e u).cal = s.cal := rfl
@[simp] theorem State.cause_ovrIn (s : State) (c : SysCause) (e : Word) (u : Nat) : (s.cause c e u).ovrIn = s.ovrIn := rfl
@[simp] theorem State.cause_estopN (s : State) (c : SysCause) (e : Word) (u : Nat) : (s.cause c e u).estopN = s.estopN := rfl
@[simp] theorem State.cause_abtNew (s : State) (c : SysCause) (e : Word) (u : Nat) : (s.cause c e u).abtNew = s.abtNew := rfl
@[simp] theorem State.cause_quietUs (s : State) (c : SysCause) (e : Word) (u : Nat) : (s.cause c e u).quietUs = s.quietUs := rfl
@[simp] theorem State.cause_us (s : State) (c : SysCause) (e : Word) (u : Nat) : (s.cause c e u).us = s.us := rfl
@[simp] theorem State.cause_eth (s : State) (c : SysCause) (e : Word) (u : Nat) : (s.cause c e u).eth = s.eth := rfl
@[simp] theorem State.cause_fsv (s : State) (c : SysCause) (e : Word) (u : Nat) : (s.cause c e u).fsv = s.fsv := rfl
@[simp] theorem State.cause_panel (s : State) (c : SysCause) (e : Word) (u : Nat) : (s.cause c e u).panel = s.panel := rfl
@[simp] theorem State.cause_gio (s : State) (c : SysCause) (e : Word) (u : Nat) : (s.cause c e u).gio = s.gio := rfl
@[simp] theorem State.cause_held (s : State) (c : SysCause) (e : Word) (u : Nat) : (s.cause c e u).held = s.held := rfl
@[simp] theorem State.cause_dbg (s : State) (c : SysCause) (e : Word) (u : Nat) : (s.cause c e u).dbg = s.dbg := rfl
@[simp] theorem State.cause_pwrLow (s : State) (c : SysCause) (e : Word) (u : Nat) : (s.cause c e u).pwrLow = s.pwrLow := rfl
@[simp] theorem State.cause_free (s : State) (c : SysCause) (e : Word) (u : Nat) : (s.cause c e u).free = s.free := rfl

/-! ## State.spadWr -/

@[simp] theorem State.spadWr_pending (s : State) (p a n v : Nat) : (s.spadWr p a n v).pending = s.pending := rfl
@[simp] theorem State.spadWr_grade (s : State) (p a n v : Nat) : (s.spadWr p a n v).grade = s.grade := rfl
@[simp] theorem State.spadWr_io (s : State) (p a n v : Nat) : (s.spadWr p a n v).io = s.io := rfl
@[simp] theorem State.spadWr_threads (s : State) (p a n v : Nat) : (s.spadWr p a n v).threads = s.threads := rfl
@[simp] theorem State.spadWr_ispace (s : State) (p a n v : Nat) : (s.spadWr p a n v).ispace = s.ispace := rfl
@[simp] theorem State.spadWr_mbox (s : State) (p a n v : Nat) : (s.spadWr p a n v).mbox = s.mbox := rfl
@[simp] theorem State.spadWr_deck (s : State) (p a n v : Nat) : (s.spadWr p a n v).deck = s.deck := rfl
@[simp] theorem State.spadWr_ecc (s : State) (p a n v : Nat) : (s.spadWr p a n v).ecc = s.ecc := rfl
@[simp] theorem State.spadWr_net (s : State) (p a n v : Nat) : (s.spadWr p a n v).net = s.net := rfl
@[simp] theorem State.spadWr_slots (s : State) (p a n v : Nat) : (s.spadWr p a n v).slots = s.slots := rfl
@[simp] theorem State.spadWr_accepted (s : State) (p a n v : Nat) : (s.spadWr p a n v).accepted = s.accepted := rfl
@[simp] theorem State.spadWr_spans (s : State) (p a n v : Nat) : (s.spadWr p a n v).spans = s.spans := rfl
@[simp] theorem State.spadWr_fills (s : State) (p a n v : Nat) : (s.spadWr p a n v).fills = s.fills := rfl
@[simp] theorem State.spadWr_scrubs (s : State) (p a n v : Nat) : (s.spadWr p a n v).scrubs = s.scrubs := rfl
@[simp] theorem State.spadWr_inits (s : State) (p a n v : Nat) : (s.spadWr p a n v).inits = s.inits := rfl
@[simp] theorem State.spadWr_dma (s : State) (p a n v : Nat) : (s.spadWr p a n v).dma = s.dma := rfl
@[simp] theorem State.spadWr_dmaTurn (s : State) (p a n v : Nat) : (s.spadWr p a n v).dmaTurn = s.dmaTurn := rfl
@[simp] theorem State.spadWr_gauges (s : State) (p a n v : Nat) : (s.spadWr p a n v).gauges = s.gauges := rfl
@[simp] theorem State.spadWr_spll (s : State) (p a n v : Nat) : (s.spadWr p a n v).spll = s.spll := rfl
@[simp] theorem State.spadWr_ldr (s : State) (p a n v : Nat) : (s.spadWr p a n v).ldr = s.ldr := rfl
@[simp] theorem State.spadWr_vault (s : State) (p a n v : Nat) : (s.spadWr p a n v).vault = s.vault := rfl
@[simp] theorem State.spadWr_flc (s : State) (p a n v : Nat) : (s.spadWr p a n v).flc = s.flc := rfl
@[simp] theorem State.spadWr_trigs (s : State) (p a n v : Nat) : (s.spadWr p a n v).trigs = s.trigs := rfl
@[simp] theorem State.spadWr_record (s : State) (p a n v : Nat) : (s.spadWr p a n v).record = s.record := rfl
@[simp] theorem State.spadWr_rtc (s : State) (p a n v : Nat) : (s.spadWr p a n v).rtc = s.rtc := rfl
@[simp] theorem State.spadWr_par (s : State) (p a n v : Nat) : (s.spadWr p a n v).par = s.par := rfl
@[simp] theorem State.spadWr_boot (s : State) (p a n v : Nat) : (s.spadWr p a n v).boot = s.boot := rfl
@[simp] theorem State.spadWr_cvp (s : State) (p a n v : Nat) : (s.spadWr p a n v).cvp = s.cvp := rfl
@[simp] theorem State.spadWr_cal (s : State) (p a n v : Nat) : (s.spadWr p a n v).cal = s.cal := rfl
@[simp] theorem State.spadWr_ovrIn (s : State) (p a n v : Nat) : (s.spadWr p a n v).ovrIn = s.ovrIn := rfl
@[simp] theorem State.spadWr_estopN (s : State) (p a n v : Nat) : (s.spadWr p a n v).estopN = s.estopN := rfl
@[simp] theorem State.spadWr_abtNew (s : State) (p a n v : Nat) : (s.spadWr p a n v).abtNew = s.abtNew := rfl
@[simp] theorem State.spadWr_quietUs (s : State) (p a n v : Nat) : (s.spadWr p a n v).quietUs = s.quietUs := rfl
@[simp] theorem State.spadWr_us (s : State) (p a n v : Nat) : (s.spadWr p a n v).us = s.us := rfl
@[simp] theorem State.spadWr_eth (s : State) (p a n v : Nat) : (s.spadWr p a n v).eth = s.eth := rfl
@[simp] theorem State.spadWr_fsv (s : State) (p a n v : Nat) : (s.spadWr p a n v).fsv = s.fsv := rfl
@[simp] theorem State.spadWr_panel (s : State) (p a n v : Nat) : (s.spadWr p a n v).panel = s.panel := rfl
@[simp] theorem State.spadWr_gio (s : State) (p a n v : Nat) : (s.spadWr p a n v).gio = s.gio := rfl
@[simp] theorem State.spadWr_held (s : State) (p a n v : Nat) : (s.spadWr p a n v).held = s.held := rfl
@[simp] theorem State.spadWr_dbg (s : State) (p a n v : Nat) : (s.spadWr p a n v).dbg = s.dbg := rfl
@[simp] theorem State.spadWr_pwrLow (s : State) (p a n v : Nat) : (s.spadWr p a n v).pwrLow = s.pwrLow := rfl
@[simp] theorem State.spadWr_free (s : State) (p a n v : Nat) : (s.spadWr p a n v).free = s.free := rfl

/-! ## State.mboxWr -/

@[simp] theorem State.mboxWr_pending (s : State) (p a n v : Nat) : (s.mboxWr p a n v).pending = s.pending := rfl
@[simp] theorem State.mboxWr_grade (s : State) (p a n v : Nat) : (s.mboxWr p a n v).grade = s.grade := rfl
@[simp] theorem State.mboxWr_io (s : State) (p a n v : Nat) : (s.mboxWr p a n v).io = s.io := rfl
@[simp] theorem State.mboxWr_threads (s : State) (p a n v : Nat) : (s.mboxWr p a n v).threads = s.threads := rfl
@[simp] theorem State.mboxWr_ispace (s : State) (p a n v : Nat) : (s.mboxWr p a n v).ispace = s.ispace := rfl
@[simp] theorem State.mboxWr_spad (s : State) (p a n v : Nat) : (s.mboxWr p a n v).spad = s.spad := rfl
@[simp] theorem State.mboxWr_deck (s : State) (p a n v : Nat) : (s.mboxWr p a n v).deck = s.deck := rfl
@[simp] theorem State.mboxWr_ecc (s : State) (p a n v : Nat) : (s.mboxWr p a n v).ecc = s.ecc := rfl
@[simp] theorem State.mboxWr_net (s : State) (p a n v : Nat) : (s.mboxWr p a n v).net = s.net := rfl
@[simp] theorem State.mboxWr_slots (s : State) (p a n v : Nat) : (s.mboxWr p a n v).slots = s.slots := rfl
@[simp] theorem State.mboxWr_accepted (s : State) (p a n v : Nat) : (s.mboxWr p a n v).accepted = s.accepted := rfl
@[simp] theorem State.mboxWr_spans (s : State) (p a n v : Nat) : (s.mboxWr p a n v).spans = s.spans := rfl
@[simp] theorem State.mboxWr_fills (s : State) (p a n v : Nat) : (s.mboxWr p a n v).fills = s.fills := rfl
@[simp] theorem State.mboxWr_scrubs (s : State) (p a n v : Nat) : (s.mboxWr p a n v).scrubs = s.scrubs := rfl
@[simp] theorem State.mboxWr_inits (s : State) (p a n v : Nat) : (s.mboxWr p a n v).inits = s.inits := rfl
@[simp] theorem State.mboxWr_dma (s : State) (p a n v : Nat) : (s.mboxWr p a n v).dma = s.dma := rfl
@[simp] theorem State.mboxWr_dmaTurn (s : State) (p a n v : Nat) : (s.mboxWr p a n v).dmaTurn = s.dmaTurn := rfl
@[simp] theorem State.mboxWr_gauges (s : State) (p a n v : Nat) : (s.mboxWr p a n v).gauges = s.gauges := rfl
@[simp] theorem State.mboxWr_spll (s : State) (p a n v : Nat) : (s.mboxWr p a n v).spll = s.spll := rfl
@[simp] theorem State.mboxWr_ldr (s : State) (p a n v : Nat) : (s.mboxWr p a n v).ldr = s.ldr := rfl
@[simp] theorem State.mboxWr_vault (s : State) (p a n v : Nat) : (s.mboxWr p a n v).vault = s.vault := rfl
@[simp] theorem State.mboxWr_flc (s : State) (p a n v : Nat) : (s.mboxWr p a n v).flc = s.flc := rfl
@[simp] theorem State.mboxWr_trigs (s : State) (p a n v : Nat) : (s.mboxWr p a n v).trigs = s.trigs := rfl
@[simp] theorem State.mboxWr_record (s : State) (p a n v : Nat) : (s.mboxWr p a n v).record = s.record := rfl
@[simp] theorem State.mboxWr_rtc (s : State) (p a n v : Nat) : (s.mboxWr p a n v).rtc = s.rtc := rfl
@[simp] theorem State.mboxWr_par (s : State) (p a n v : Nat) : (s.mboxWr p a n v).par = s.par := rfl
@[simp] theorem State.mboxWr_boot (s : State) (p a n v : Nat) : (s.mboxWr p a n v).boot = s.boot := rfl
@[simp] theorem State.mboxWr_cvp (s : State) (p a n v : Nat) : (s.mboxWr p a n v).cvp = s.cvp := rfl
@[simp] theorem State.mboxWr_cal (s : State) (p a n v : Nat) : (s.mboxWr p a n v).cal = s.cal := rfl
@[simp] theorem State.mboxWr_ovrIn (s : State) (p a n v : Nat) : (s.mboxWr p a n v).ovrIn = s.ovrIn := rfl
@[simp] theorem State.mboxWr_estopN (s : State) (p a n v : Nat) : (s.mboxWr p a n v).estopN = s.estopN := rfl
@[simp] theorem State.mboxWr_abtNew (s : State) (p a n v : Nat) : (s.mboxWr p a n v).abtNew = s.abtNew := rfl
@[simp] theorem State.mboxWr_quietUs (s : State) (p a n v : Nat) : (s.mboxWr p a n v).quietUs = s.quietUs := rfl
@[simp] theorem State.mboxWr_us (s : State) (p a n v : Nat) : (s.mboxWr p a n v).us = s.us := rfl
@[simp] theorem State.mboxWr_eth (s : State) (p a n v : Nat) : (s.mboxWr p a n v).eth = s.eth := rfl
@[simp] theorem State.mboxWr_fsv (s : State) (p a n v : Nat) : (s.mboxWr p a n v).fsv = s.fsv := rfl
@[simp] theorem State.mboxWr_panel (s : State) (p a n v : Nat) : (s.mboxWr p a n v).panel = s.panel := rfl
@[simp] theorem State.mboxWr_gio (s : State) (p a n v : Nat) : (s.mboxWr p a n v).gio = s.gio := rfl
@[simp] theorem State.mboxWr_held (s : State) (p a n v : Nat) : (s.mboxWr p a n v).held = s.held := rfl
@[simp] theorem State.mboxWr_dbg (s : State) (p a n v : Nat) : (s.mboxWr p a n v).dbg = s.dbg := rfl
@[simp] theorem State.mboxWr_pwrLow (s : State) (p a n v : Nat) : (s.mboxWr p a n v).pwrLow = s.pwrLow := rfl
@[simp] theorem State.mboxWr_free (s : State) (p a n v : Nat) : (s.mboxWr p a n v).free = s.free := rfl

/-! ## State.deckPoke -/

@[simp] theorem State.deckPoke_pending (s : State) (a n v : Nat) : (s.deckPoke a n v).pending = s.pending := rfl
@[simp] theorem State.deckPoke_grade (s : State) (a n v : Nat) : (s.deckPoke a n v).grade = s.grade := rfl
@[simp] theorem State.deckPoke_io (s : State) (a n v : Nat) : (s.deckPoke a n v).io = s.io := rfl
@[simp] theorem State.deckPoke_threads (s : State) (a n v : Nat) : (s.deckPoke a n v).threads = s.threads := rfl
@[simp] theorem State.deckPoke_ispace (s : State) (a n v : Nat) : (s.deckPoke a n v).ispace = s.ispace := rfl
@[simp] theorem State.deckPoke_spad (s : State) (a n v : Nat) : (s.deckPoke a n v).spad = s.spad := rfl
@[simp] theorem State.deckPoke_mbox (s : State) (a n v : Nat) : (s.deckPoke a n v).mbox = s.mbox := rfl
@[simp] theorem State.deckPoke_ecc (s : State) (a n v : Nat) : (s.deckPoke a n v).ecc = s.ecc := rfl
@[simp] theorem State.deckPoke_net (s : State) (a n v : Nat) : (s.deckPoke a n v).net = s.net := rfl
@[simp] theorem State.deckPoke_slots (s : State) (a n v : Nat) : (s.deckPoke a n v).slots = s.slots := rfl
@[simp] theorem State.deckPoke_accepted (s : State) (a n v : Nat) : (s.deckPoke a n v).accepted = s.accepted := rfl
@[simp] theorem State.deckPoke_spans (s : State) (a n v : Nat) : (s.deckPoke a n v).spans = s.spans := rfl
@[simp] theorem State.deckPoke_fills (s : State) (a n v : Nat) : (s.deckPoke a n v).fills = s.fills := rfl
@[simp] theorem State.deckPoke_scrubs (s : State) (a n v : Nat) : (s.deckPoke a n v).scrubs = s.scrubs := rfl
@[simp] theorem State.deckPoke_inits (s : State) (a n v : Nat) : (s.deckPoke a n v).inits = s.inits := rfl
@[simp] theorem State.deckPoke_dma (s : State) (a n v : Nat) : (s.deckPoke a n v).dma = s.dma := rfl
@[simp] theorem State.deckPoke_dmaTurn (s : State) (a n v : Nat) : (s.deckPoke a n v).dmaTurn = s.dmaTurn := rfl
@[simp] theorem State.deckPoke_gauges (s : State) (a n v : Nat) : (s.deckPoke a n v).gauges = s.gauges := rfl
@[simp] theorem State.deckPoke_spll (s : State) (a n v : Nat) : (s.deckPoke a n v).spll = s.spll := rfl
@[simp] theorem State.deckPoke_ldr (s : State) (a n v : Nat) : (s.deckPoke a n v).ldr = s.ldr := rfl
@[simp] theorem State.deckPoke_vault (s : State) (a n v : Nat) : (s.deckPoke a n v).vault = s.vault := rfl
@[simp] theorem State.deckPoke_flc (s : State) (a n v : Nat) : (s.deckPoke a n v).flc = s.flc := rfl
@[simp] theorem State.deckPoke_trigs (s : State) (a n v : Nat) : (s.deckPoke a n v).trigs = s.trigs := rfl
@[simp] theorem State.deckPoke_record (s : State) (a n v : Nat) : (s.deckPoke a n v).record = s.record := rfl
@[simp] theorem State.deckPoke_rtc (s : State) (a n v : Nat) : (s.deckPoke a n v).rtc = s.rtc := rfl
@[simp] theorem State.deckPoke_par (s : State) (a n v : Nat) : (s.deckPoke a n v).par = s.par := rfl
@[simp] theorem State.deckPoke_boot (s : State) (a n v : Nat) : (s.deckPoke a n v).boot = s.boot := rfl
@[simp] theorem State.deckPoke_cvp (s : State) (a n v : Nat) : (s.deckPoke a n v).cvp = s.cvp := rfl
@[simp] theorem State.deckPoke_cal (s : State) (a n v : Nat) : (s.deckPoke a n v).cal = s.cal := rfl
@[simp] theorem State.deckPoke_ovrIn (s : State) (a n v : Nat) : (s.deckPoke a n v).ovrIn = s.ovrIn := rfl
@[simp] theorem State.deckPoke_estopN (s : State) (a n v : Nat) : (s.deckPoke a n v).estopN = s.estopN := rfl
@[simp] theorem State.deckPoke_abtNew (s : State) (a n v : Nat) : (s.deckPoke a n v).abtNew = s.abtNew := rfl
@[simp] theorem State.deckPoke_quietUs (s : State) (a n v : Nat) : (s.deckPoke a n v).quietUs = s.quietUs := rfl
@[simp] theorem State.deckPoke_us (s : State) (a n v : Nat) : (s.deckPoke a n v).us = s.us := rfl
@[simp] theorem State.deckPoke_eth (s : State) (a n v : Nat) : (s.deckPoke a n v).eth = s.eth := rfl
@[simp] theorem State.deckPoke_fsv (s : State) (a n v : Nat) : (s.deckPoke a n v).fsv = s.fsv := rfl
@[simp] theorem State.deckPoke_panel (s : State) (a n v : Nat) : (s.deckPoke a n v).panel = s.panel := rfl
@[simp] theorem State.deckPoke_gio (s : State) (a n v : Nat) : (s.deckPoke a n v).gio = s.gio := rfl
@[simp] theorem State.deckPoke_held (s : State) (a n v : Nat) : (s.deckPoke a n v).held = s.held := rfl
@[simp] theorem State.deckPoke_dbg (s : State) (a n v : Nat) : (s.deckPoke a n v).dbg = s.dbg := rfl
@[simp] theorem State.deckPoke_pwrLow (s : State) (a n v : Nat) : (s.deckPoke a n v).pwrLow = s.pwrLow := rfl
@[simp] theorem State.deckPoke_free (s : State) (a n v : Nat) : (s.deckPoke a n v).free = s.free := rfl

/-! ## State.setEcc -/

@[simp] theorem State.setEcc_pending (s : State) (w e : Nat) : (s.setEcc w e).pending = s.pending := rfl
@[simp] theorem State.setEcc_grade (s : State) (w e : Nat) : (s.setEcc w e).grade = s.grade := rfl
@[simp] theorem State.setEcc_io (s : State) (w e : Nat) : (s.setEcc w e).io = s.io := rfl
@[simp] theorem State.setEcc_threads (s : State) (w e : Nat) : (s.setEcc w e).threads = s.threads := rfl
@[simp] theorem State.setEcc_ispace (s : State) (w e : Nat) : (s.setEcc w e).ispace = s.ispace := rfl
@[simp] theorem State.setEcc_spad (s : State) (w e : Nat) : (s.setEcc w e).spad = s.spad := rfl
@[simp] theorem State.setEcc_mbox (s : State) (w e : Nat) : (s.setEcc w e).mbox = s.mbox := rfl
@[simp] theorem State.setEcc_deck (s : State) (w e : Nat) : (s.setEcc w e).deck = s.deck := rfl
@[simp] theorem State.setEcc_net (s : State) (w e : Nat) : (s.setEcc w e).net = s.net := rfl
@[simp] theorem State.setEcc_slots (s : State) (w e : Nat) : (s.setEcc w e).slots = s.slots := rfl
@[simp] theorem State.setEcc_accepted (s : State) (w e : Nat) : (s.setEcc w e).accepted = s.accepted := rfl
@[simp] theorem State.setEcc_spans (s : State) (w e : Nat) : (s.setEcc w e).spans = s.spans := rfl
@[simp] theorem State.setEcc_fills (s : State) (w e : Nat) : (s.setEcc w e).fills = s.fills := rfl
@[simp] theorem State.setEcc_scrubs (s : State) (w e : Nat) : (s.setEcc w e).scrubs = s.scrubs := rfl
@[simp] theorem State.setEcc_inits (s : State) (w e : Nat) : (s.setEcc w e).inits = s.inits := rfl
@[simp] theorem State.setEcc_dma (s : State) (w e : Nat) : (s.setEcc w e).dma = s.dma := rfl
@[simp] theorem State.setEcc_dmaTurn (s : State) (w e : Nat) : (s.setEcc w e).dmaTurn = s.dmaTurn := rfl
@[simp] theorem State.setEcc_gauges (s : State) (w e : Nat) : (s.setEcc w e).gauges = s.gauges := rfl
@[simp] theorem State.setEcc_spll (s : State) (w e : Nat) : (s.setEcc w e).spll = s.spll := rfl
@[simp] theorem State.setEcc_ldr (s : State) (w e : Nat) : (s.setEcc w e).ldr = s.ldr := rfl
@[simp] theorem State.setEcc_vault (s : State) (w e : Nat) : (s.setEcc w e).vault = s.vault := rfl
@[simp] theorem State.setEcc_flc (s : State) (w e : Nat) : (s.setEcc w e).flc = s.flc := rfl
@[simp] theorem State.setEcc_trigs (s : State) (w e : Nat) : (s.setEcc w e).trigs = s.trigs := rfl
@[simp] theorem State.setEcc_record (s : State) (w e : Nat) : (s.setEcc w e).record = s.record := rfl
@[simp] theorem State.setEcc_rtc (s : State) (w e : Nat) : (s.setEcc w e).rtc = s.rtc := rfl
@[simp] theorem State.setEcc_par (s : State) (w e : Nat) : (s.setEcc w e).par = s.par := rfl
@[simp] theorem State.setEcc_boot (s : State) (w e : Nat) : (s.setEcc w e).boot = s.boot := rfl
@[simp] theorem State.setEcc_cvp (s : State) (w e : Nat) : (s.setEcc w e).cvp = s.cvp := rfl
@[simp] theorem State.setEcc_cal (s : State) (w e : Nat) : (s.setEcc w e).cal = s.cal := rfl
@[simp] theorem State.setEcc_ovrIn (s : State) (w e : Nat) : (s.setEcc w e).ovrIn = s.ovrIn := rfl
@[simp] theorem State.setEcc_estopN (s : State) (w e : Nat) : (s.setEcc w e).estopN = s.estopN := rfl
@[simp] theorem State.setEcc_abtNew (s : State) (w e : Nat) : (s.setEcc w e).abtNew = s.abtNew := rfl
@[simp] theorem State.setEcc_quietUs (s : State) (w e : Nat) : (s.setEcc w e).quietUs = s.quietUs := rfl
@[simp] theorem State.setEcc_us (s : State) (w e : Nat) : (s.setEcc w e).us = s.us := rfl
@[simp] theorem State.setEcc_eth (s : State) (w e : Nat) : (s.setEcc w e).eth = s.eth := rfl
@[simp] theorem State.setEcc_fsv (s : State) (w e : Nat) : (s.setEcc w e).fsv = s.fsv := rfl
@[simp] theorem State.setEcc_panel (s : State) (w e : Nat) : (s.setEcc w e).panel = s.panel := rfl
@[simp] theorem State.setEcc_gio (s : State) (w e : Nat) : (s.setEcc w e).gio = s.gio := rfl
@[simp] theorem State.setEcc_held (s : State) (w e : Nat) : (s.setEcc w e).held = s.held := rfl
@[simp] theorem State.setEcc_dbg (s : State) (w e : Nat) : (s.setEcc w e).dbg = s.dbg := rfl
@[simp] theorem State.setEcc_pwrLow (s : State) (w e : Nat) : (s.setEcc w e).pwrLow = s.pwrLow := rfl
@[simp] theorem State.setEcc_free (s : State) (w e : Nat) : (s.setEcc w e).free = s.free := rfl

/-! ## State.raiseIf -/

@[simp] theorem State.raiseIf_pending (s : State) (ev en : Fd) : (s.raiseIf ev en).pending = s.pending := by
  unfold State.raiseIf; split <;> rfl
@[simp] theorem State.raiseIf_grade (s : State) (ev en : Fd) : (s.raiseIf ev en).grade = s.grade := by
  unfold State.raiseIf; split <;> rfl
@[simp] theorem State.raiseIf_io (s : State) (ev en : Fd) : (s.raiseIf ev en).io = s.io := by
  unfold State.raiseIf; split <;> rfl
@[simp] theorem State.raiseIf_threads (s : State) (ev en : Fd) : (s.raiseIf ev en).threads = s.threads := by
  unfold State.raiseIf; split <;> rfl
@[simp] theorem State.raiseIf_ispace (s : State) (ev en : Fd) : (s.raiseIf ev en).ispace = s.ispace := by
  unfold State.raiseIf; split <;> rfl
@[simp] theorem State.raiseIf_spad (s : State) (ev en : Fd) : (s.raiseIf ev en).spad = s.spad := by
  unfold State.raiseIf; split <;> rfl
@[simp] theorem State.raiseIf_mbox (s : State) (ev en : Fd) : (s.raiseIf ev en).mbox = s.mbox := by
  unfold State.raiseIf; split <;> rfl
@[simp] theorem State.raiseIf_deck (s : State) (ev en : Fd) : (s.raiseIf ev en).deck = s.deck := by
  unfold State.raiseIf; split <;> rfl
@[simp] theorem State.raiseIf_ecc (s : State) (ev en : Fd) : (s.raiseIf ev en).ecc = s.ecc := by
  unfold State.raiseIf; split <;> rfl
@[simp] theorem State.raiseIf_slots (s : State) (ev en : Fd) : (s.raiseIf ev en).slots = s.slots := by
  unfold State.raiseIf; split <;> rfl
@[simp] theorem State.raiseIf_accepted (s : State) (ev en : Fd) : (s.raiseIf ev en).accepted = s.accepted := by
  unfold State.raiseIf; split <;> rfl
@[simp] theorem State.raiseIf_spans (s : State) (ev en : Fd) : (s.raiseIf ev en).spans = s.spans := by
  unfold State.raiseIf; split <;> rfl
@[simp] theorem State.raiseIf_fills (s : State) (ev en : Fd) : (s.raiseIf ev en).fills = s.fills := by
  unfold State.raiseIf; split <;> rfl
@[simp] theorem State.raiseIf_scrubs (s : State) (ev en : Fd) : (s.raiseIf ev en).scrubs = s.scrubs := by
  unfold State.raiseIf; split <;> rfl
@[simp] theorem State.raiseIf_inits (s : State) (ev en : Fd) : (s.raiseIf ev en).inits = s.inits := by
  unfold State.raiseIf; split <;> rfl
@[simp] theorem State.raiseIf_dma (s : State) (ev en : Fd) : (s.raiseIf ev en).dma = s.dma := by
  unfold State.raiseIf; split <;> rfl
@[simp] theorem State.raiseIf_dmaTurn (s : State) (ev en : Fd) : (s.raiseIf ev en).dmaTurn = s.dmaTurn := by
  unfold State.raiseIf; split <;> rfl
@[simp] theorem State.raiseIf_gauges (s : State) (ev en : Fd) : (s.raiseIf ev en).gauges = s.gauges := by
  unfold State.raiseIf; split <;> rfl
@[simp] theorem State.raiseIf_spll (s : State) (ev en : Fd) : (s.raiseIf ev en).spll = s.spll := by
  unfold State.raiseIf; split <;> rfl
@[simp] theorem State.raiseIf_ldr (s : State) (ev en : Fd) : (s.raiseIf ev en).ldr = s.ldr := by
  unfold State.raiseIf; split <;> rfl
@[simp] theorem State.raiseIf_vault (s : State) (ev en : Fd) : (s.raiseIf ev en).vault = s.vault := by
  unfold State.raiseIf; split <;> rfl
@[simp] theorem State.raiseIf_flc (s : State) (ev en : Fd) : (s.raiseIf ev en).flc = s.flc := by
  unfold State.raiseIf; split <;> rfl
@[simp] theorem State.raiseIf_trigs (s : State) (ev en : Fd) : (s.raiseIf ev en).trigs = s.trigs := by
  unfold State.raiseIf; split <;> rfl
@[simp] theorem State.raiseIf_record (s : State) (ev en : Fd) : (s.raiseIf ev en).record = s.record := by
  unfold State.raiseIf; split <;> rfl
@[simp] theorem State.raiseIf_rtc (s : State) (ev en : Fd) : (s.raiseIf ev en).rtc = s.rtc := by
  unfold State.raiseIf; split <;> rfl
@[simp] theorem State.raiseIf_par (s : State) (ev en : Fd) : (s.raiseIf ev en).par = s.par := by
  unfold State.raiseIf; split <;> rfl
@[simp] theorem State.raiseIf_boot (s : State) (ev en : Fd) : (s.raiseIf ev en).boot = s.boot := by
  unfold State.raiseIf; split <;> rfl
@[simp] theorem State.raiseIf_cvp (s : State) (ev en : Fd) : (s.raiseIf ev en).cvp = s.cvp := by
  unfold State.raiseIf; split <;> rfl
@[simp] theorem State.raiseIf_cal (s : State) (ev en : Fd) : (s.raiseIf ev en).cal = s.cal := by
  unfold State.raiseIf; split <;> rfl
@[simp] theorem State.raiseIf_ovrIn (s : State) (ev en : Fd) : (s.raiseIf ev en).ovrIn = s.ovrIn := by
  unfold State.raiseIf; split <;> rfl
@[simp] theorem State.raiseIf_estopN (s : State) (ev en : Fd) : (s.raiseIf ev en).estopN = s.estopN := by
  unfold State.raiseIf; split <;> rfl
@[simp] theorem State.raiseIf_abtNew (s : State) (ev en : Fd) : (s.raiseIf ev en).abtNew = s.abtNew := by
  unfold State.raiseIf; split <;> rfl
@[simp] theorem State.raiseIf_quietUs (s : State) (ev en : Fd) : (s.raiseIf ev en).quietUs = s.quietUs := by
  unfold State.raiseIf; split <;> rfl
@[simp] theorem State.raiseIf_us (s : State) (ev en : Fd) : (s.raiseIf ev en).us = s.us := by
  unfold State.raiseIf; split <;> rfl
@[simp] theorem State.raiseIf_eth (s : State) (ev en : Fd) : (s.raiseIf ev en).eth = s.eth := by
  unfold State.raiseIf; split <;> rfl
@[simp] theorem State.raiseIf_fsv (s : State) (ev en : Fd) : (s.raiseIf ev en).fsv = s.fsv := by
  unfold State.raiseIf; split <;> rfl
@[simp] theorem State.raiseIf_panel (s : State) (ev en : Fd) : (s.raiseIf ev en).panel = s.panel := by
  unfold State.raiseIf; split <;> rfl
@[simp] theorem State.raiseIf_gio (s : State) (ev en : Fd) : (s.raiseIf ev en).gio = s.gio := by
  unfold State.raiseIf; split <;> rfl
@[simp] theorem State.raiseIf_held (s : State) (ev en : Fd) : (s.raiseIf ev en).held = s.held := by
  unfold State.raiseIf; split <;> rfl
@[simp] theorem State.raiseIf_dbg (s : State) (ev en : Fd) : (s.raiseIf ev en).dbg = s.dbg := by
  unfold State.raiseIf; split <;> rfl
@[simp] theorem State.raiseIf_pwrLow (s : State) (ev en : Fd) : (s.raiseIf ev en).pwrLow = s.pwrLow := by
  unfold State.raiseIf; split <;> rfl
@[simp] theorem State.raiseIf_free (s : State) (ev en : Fd) : (s.raiseIf ev en).free = s.free := by
  unfold State.raiseIf; split <;> rfl

/-! ## State.takeFree -/

@[simp] theorem State.takeFree_pending (s : State) : s.takeFree.2.pending = s.pending := rfl
@[simp] theorem State.takeFree_grade (s : State) : s.takeFree.2.grade = s.grade := rfl
@[simp] theorem State.takeFree_io (s : State) : s.takeFree.2.io = s.io := rfl
@[simp] theorem State.takeFree_threads (s : State) : s.takeFree.2.threads = s.threads := rfl
@[simp] theorem State.takeFree_ispace (s : State) : s.takeFree.2.ispace = s.ispace := rfl
@[simp] theorem State.takeFree_spad (s : State) : s.takeFree.2.spad = s.spad := rfl
@[simp] theorem State.takeFree_mbox (s : State) : s.takeFree.2.mbox = s.mbox := rfl
@[simp] theorem State.takeFree_deck (s : State) : s.takeFree.2.deck = s.deck := rfl
@[simp] theorem State.takeFree_ecc (s : State) : s.takeFree.2.ecc = s.ecc := rfl
@[simp] theorem State.takeFree_net (s : State) : s.takeFree.2.net = s.net := rfl
@[simp] theorem State.takeFree_slots (s : State) : s.takeFree.2.slots = s.slots := rfl
@[simp] theorem State.takeFree_accepted (s : State) : s.takeFree.2.accepted = s.accepted := rfl
@[simp] theorem State.takeFree_spans (s : State) : s.takeFree.2.spans = s.spans := rfl
@[simp] theorem State.takeFree_fills (s : State) : s.takeFree.2.fills = s.fills := rfl
@[simp] theorem State.takeFree_scrubs (s : State) : s.takeFree.2.scrubs = s.scrubs := rfl
@[simp] theorem State.takeFree_inits (s : State) : s.takeFree.2.inits = s.inits := rfl
@[simp] theorem State.takeFree_dma (s : State) : s.takeFree.2.dma = s.dma := rfl
@[simp] theorem State.takeFree_dmaTurn (s : State) : s.takeFree.2.dmaTurn = s.dmaTurn := rfl
@[simp] theorem State.takeFree_gauges (s : State) : s.takeFree.2.gauges = s.gauges := rfl
@[simp] theorem State.takeFree_spll (s : State) : s.takeFree.2.spll = s.spll := rfl
@[simp] theorem State.takeFree_ldr (s : State) : s.takeFree.2.ldr = s.ldr := rfl
@[simp] theorem State.takeFree_vault (s : State) : s.takeFree.2.vault = s.vault := rfl
@[simp] theorem State.takeFree_flc (s : State) : s.takeFree.2.flc = s.flc := rfl
@[simp] theorem State.takeFree_trigs (s : State) : s.takeFree.2.trigs = s.trigs := rfl
@[simp] theorem State.takeFree_record (s : State) : s.takeFree.2.record = s.record := rfl
@[simp] theorem State.takeFree_rtc (s : State) : s.takeFree.2.rtc = s.rtc := rfl
@[simp] theorem State.takeFree_par (s : State) : s.takeFree.2.par = s.par := rfl
@[simp] theorem State.takeFree_boot (s : State) : s.takeFree.2.boot = s.boot := rfl
@[simp] theorem State.takeFree_cvp (s : State) : s.takeFree.2.cvp = s.cvp := rfl
@[simp] theorem State.takeFree_cal (s : State) : s.takeFree.2.cal = s.cal := rfl
@[simp] theorem State.takeFree_ovrIn (s : State) : s.takeFree.2.ovrIn = s.ovrIn := rfl
@[simp] theorem State.takeFree_estopN (s : State) : s.takeFree.2.estopN = s.estopN := rfl
@[simp] theorem State.takeFree_abtNew (s : State) : s.takeFree.2.abtNew = s.abtNew := rfl
@[simp] theorem State.takeFree_quietUs (s : State) : s.takeFree.2.quietUs = s.quietUs := rfl
@[simp] theorem State.takeFree_us (s : State) : s.takeFree.2.us = s.us := rfl
@[simp] theorem State.takeFree_eth (s : State) : s.takeFree.2.eth = s.eth := rfl
@[simp] theorem State.takeFree_fsv (s : State) : s.takeFree.2.fsv = s.fsv := rfl
@[simp] theorem State.takeFree_panel (s : State) : s.takeFree.2.panel = s.panel := rfl
@[simp] theorem State.takeFree_gio (s : State) : s.takeFree.2.gio = s.gio := rfl
@[simp] theorem State.takeFree_held (s : State) : s.takeFree.2.held = s.held := rfl
@[simp] theorem State.takeFree_dbg (s : State) : s.takeFree.2.dbg = s.dbg := rfl
@[simp] theorem State.takeFree_pwrLow (s : State) : s.takeFree.2.pwrLow = s.pwrLow := rfl
@[simp] theorem State.takeFree_free (s : State) : s.takeFree.2.free = s.free + 1 := rfl

/-! ## The field each update changes -/

theorem State.setReg_io (s : State) (a : Nat) (v : Word) : (s.setReg a v).io = SMap.set s.io (regReset a) a v := rfl
theorem State.setThr_threads (s : State) (th : Thr) (v : Thread) :
    (s.setThr th v).threads = SMap.set s.threads (Thread.reset th.ix) th.ix v := rfl
theorem State.raise_net (s : State) (e : Nat) : (s.raise e).net = { s.net with events := s.net.events ++ [Fin.ofNat 64 e] } := rfl
theorem State.cause_net (s : State) (c : SysCause) (e : Word) (u : Nat) :
    (s.cause c e u).net = { s.net with causes := s.net.causes ++ [(c, e, u)] } := rfl

end Sys2Proof.Machine
end

