-- ==== Sys2Proof/Laws/Reg.lean ====
section
/-!
SUPPORT. The laws of IO-space registers and their fields: a read after a write, and what a write leaves alone.
-/

namespace Sys2Proof.Machine

/-! ## Bits of a word -/

theorem getBits_lt (w : Word) (lo width : Nat) : getBits w lo width < 2 ^ width := Nat.mod_lt _ (Nat.two_pow_pos _)

/-- A bit of a field is the bit of the word. -/
theorem testBit_getBits (w : Word) (lo width i : Nat) : (getBits w lo width).testBit i = (decide (i < width) && w.getLsbD (lo + i)) := by
  simp [getBits, Nat.testBit_mod_two_pow, Nat.testBit_div_two_pow, BitVec.getLsbD, Nat.add_comm]

/-- Three adjacent pieces of a number, bit by bit. -/
theorem testBit_pieces (a b c lo width i : Nat) :
    (a % 2 ^ lo + b % 2 ^ width * 2 ^ lo + c / 2 ^ (lo + width) * 2 ^ (lo + width)).testBit i =
      if i < lo then a.testBit i else if i < lo + width then b.testBit (i - lo) else c.testBit i := by
  have h1 : a % 2 ^ lo + b % 2 ^ width * 2 ^ lo < 2 ^ (lo + width) := by
    have ha : a % 2 ^ lo < 2 ^ lo := Nat.mod_lt _ (Nat.two_pow_pos _)
    have hb : b % 2 ^ width + 1 ≤ 2 ^ width := Nat.mod_lt _ (Nat.two_pow_pos _)
    have := Nat.mul_le_mul_right (2 ^ lo) hb
    rw [Nat.pow_add, Nat.mul_comm (2 ^ lo)]
    rw [Nat.add_mul] at this
    omega
  have h2 : a % 2 ^ lo + b % 2 ^ width * 2 ^ lo + c / 2 ^ (lo + width) * 2 ^ (lo + width) =
      2 ^ (lo + width) * (c / 2 ^ (lo + width)) + (a % 2 ^ lo + b % 2 ^ width * 2 ^ lo) := by
    rw [Nat.mul_comm (2 ^ (lo + width))]; omega
  have h3 : a % 2 ^ lo + b % 2 ^ width * 2 ^ lo = 2 ^ lo * (b % 2 ^ width) + a % 2 ^ lo := by
    rw [Nat.mul_comm (2 ^ lo)]; omega
  rw [h2, Nat.testBit_two_pow_mul_add _ h1, h3, Nat.testBit_two_pow_mul_add _ (Nat.mod_lt _ (Nat.two_pow_pos _))]
  by_cases hi : i < lo
  · simp [hi, Nat.lt_add_right width hi, Nat.testBit_mod_two_pow]
  · by_cases hj : i < lo + width
    · simp [hi, hj, Nat.testBit_mod_two_pow]; omega
    · simp [hi, hj, Nat.testBit_div_two_pow, Nat.sub_add_cancel (Nat.le_of_not_lt hj)]

/-- A bit of a word with a field replaced. -/
theorem getLsbD_putBits (w : Word) (lo width v i : Nat) :
    (putBits w lo width v).getLsbD i =
      (decide (i < 32) && if i < lo then w.getLsbD i else if i < lo + width then v.testBit (i - lo) else w.getLsbD i) := by
  rw [putBits, BitVec.getLsbD_ofNat, testBit_pieces]
  rfl

/-- A field reads as written. -/
theorem getBits_putBits_same (w : Word) (lo width v : Nat) (h : lo + width ≤ 32) :
    getBits (putBits w lo width v) lo width = v % 2 ^ width := by
  apply Nat.eq_of_testBit_eq
  intro i
  rw [testBit_getBits, getLsbD_putBits, Nat.testBit_mod_two_pow]
  by_cases hi : i < width
  · have h1 : lo + i < 32 := by omega
    simp [hi, h1]
  · simp [hi]

/-- A field apart from the one written keeps its value. -/
theorem getBits_putBits_other (w : Word) (lo width v lo' width' : Nat) (h : lo' + width' ≤ lo ∨ lo + width ≤ lo') :
    getBits (putBits w lo width v) lo' width' = getBits w lo' width' := by
  apply Nat.eq_of_testBit_eq
  intro i
  rw [testBit_getBits, testBit_getBits, getLsbD_putBits]
  by_cases hi : i < width'
  · simp only [hi, decide_true, Bool.true_and]
    by_cases h32 : lo' + i < 32
    · rcases h with h | h
      · simp [h32, show lo' + i < lo by omega]
      · simp [h32, show ¬lo' + i < lo by omega, show ¬lo' + i < lo + width by omega]
    · simp [h32, BitVec.getLsbD_of_ge w (lo' + i) (by omega)]
  · simp [hi]

/-- A part of the field written reads as that part of the value. -/
theorem getBits_putBits_part (w : Word) (lo width v lo' width' : Nat) (h1 : lo ≤ lo') (h2 : lo' + width' ≤ lo + width)
    (h3 : lo + width ≤ 32) : getBits (putBits w lo width v) lo' width' = v / 2 ^ (lo' - lo) % 2 ^ width' := by
  apply Nat.eq_of_testBit_eq
  intro i
  rw [testBit_getBits, getLsbD_putBits, Nat.testBit_mod_two_pow, Nat.testBit_div_two_pow]
  by_cases hi : i < width'
  · simp [hi, show lo' + i < 32 by omega, show ¬lo' + i < lo by omega, show lo' + i < lo + width by omega,
      show i + (lo' - lo) = lo' + i - lo by omega]
  · simp [hi]

/-- A field written with its own value leaves the word. -/
theorem putBits_getBits (w : Word) (lo width : Nat) : putBits w lo width (getBits w lo width) = w := by
  apply BitVec.eq_of_getLsbD_eq
  intro i hi
  rw [getLsbD_putBits]
  by_cases h1 : i < lo
  · simp [h1, hi]
  · by_cases h2 : i < lo + width
    · simp [h1, h2, hi, testBit_getBits, show i - lo < width by omega, show lo + (i - lo) = i by omega]
    · simp [h1, h2, hi]

/-- The later of two writes of one field counts. -/
theorem putBits_putBits (w : Word) (lo width u v : Nat) : putBits (putBits w lo width u) lo width v = putBits w lo width v := by
  apply BitVec.eq_of_getLsbD_eq
  intro i hi
  simp only [getLsbD_putBits]
  by_cases h1 : i < lo
  · simp [h1, hi]
  · by_cases h2 : i < lo + width
    · simp [h1, h2, hi]
    · simp [h1, h2, hi]

/-! ## Registers -/

@[simp] theorem State.reg_setReg_same (s : State) (a : Nat) (v : Word) : (s.setReg a v).reg a = v := SMap.get_set_same _ _ _ _

theorem State.reg_setReg_other (s : State) (a b : Nat) (v : Word) (h : b ≠ a) : (s.setReg a v).reg b = s.reg b :=
  SMap.get_set_other _ _ _ _ _ _ h

theorem State.reg_setReg (s : State) (a b : Nat) (v : Word) : (s.setReg a v).reg b = if b = a then v else s.reg b := by
  by_cases h : b = a
  · subst h; simp
  · simp [h, s.reg_setReg_other a b v h]

/-- Registers at another address keep their value when a field is written. -/
theorem State.reg_wf_other (s : State) (f : Fd) (v a : Nat) (h : a ≠ f.addr) : (s.wf f v).reg a = s.reg a := s.reg_setReg_other _ _ _ h

theorem State.reg_wf (s : State) (f : Fd) (v : Nat) : (s.wf f v).reg f.addr = putBits (s.reg f.addr) f.lo f.width v :=
  s.reg_setReg_same _ _

/-- A field reads as written. -/
theorem State.rf_wf_same (s : State) (f : Fd) (v : Nat) (h : f.lo + f.width ≤ 32) : (s.wf f v).rf f = v % 2 ^ f.width := by
  rw [State.rf, s.reg_wf, getBits_putBits_same _ _ _ _ h]

/-- A field at another address, or apart in the same register, keeps its value. -/
theorem State.rf_wf_other (s : State) (f g : Fd) (v : Nat)
    (h : g.addr ≠ f.addr ∨ g.lo + g.width ≤ f.lo ∨ f.lo + f.width ≤ g.lo) : (s.wf f v).rf g = s.rf g := by
  by_cases ha : g.addr = f.addr
  · have h' := h.resolve_left (not_not.2 ha)
    rw [State.rf, State.rf, ha, s.reg_wf, getBits_putBits_other _ _ _ _ _ _ h']
  · rw [State.rf, State.rf, s.reg_wf_other _ _ _ ha]

theorem State.rf_setReg_other (s : State) (a : Nat) (w : Word) (f : Fd) (h : f.addr ≠ a) : (s.setReg a w).rf f = s.rf f := by
  rw [State.rf, State.rf, s.reg_setReg_other _ _ _ h]

theorem State.rf_setReg_same (s : State) (w : Word) (f : Fd) : (s.setReg f.addr w).rf f = getBits w f.lo f.width := by
  rw [State.rf, s.reg_setReg_same]

/-- One bit of a field reads as written. -/
theorem State.bit_setBit_same (s : State) (f : Fd) (i : Nat) (v : Bool) (h : f.lo + i < 32) : (s.setBit f i v).bit f i = v := by
  have := getBits_putBits_same (s.reg f.addr) (f.lo + i) 1 (b2n v) (by omega)
  unfold State.bit State.setBit
  rw [s.reg_setReg_same, this]
  cases v <;> rfl

/-- Another bit keeps its value. -/
theorem State.bit_setBit_other (s : State) (f g : Fd) (i j : Nat) (v : Bool) (h : g.addr ≠ f.addr ∨ g.lo + j ≠ f.lo + i) :
    (s.setBit f i v).bit g j = s.bit g j := by
  unfold State.bit State.setBit
  by_cases ha : g.addr = f.addr
  · have h' := h.resolve_left (not_not.2 ha)
    rw [ha, s.reg_setReg_same, getBits_putBits_other _ _ _ _ _ _ (by omega)]
  · rw [s.reg_setReg_other _ _ _ ha]

theorem State.reg_setBit_other (s : State) (f : Fd) (i a : Nat) (v : Bool) (h : a ≠ f.addr) : (s.setBit f i v).reg a = s.reg a :=
  s.reg_setReg_other _ _ _ h

/-- A saturating count. -/
theorem State.rf_incSat (s : State) (f : Fd) (n : Nat) (h : f.lo + f.width ≤ 32) :
    (s.incSat f n).rf f = min (2 ^ f.width - 1) (s.rf f + n) := by
  rw [State.incSat, s.rf_wf_same _ _ h, Nat.mod_eq_of_lt]
  have := Nat.two_pow_pos f.width
  omega

/-- A count that wraps. -/
theorem State.rf_incWrap (s : State) (f : Fd) (n : Nat) (h : f.lo + f.width ≤ 32) :
    (s.incWrap f n).rf f = (s.rf f + n) % 2 ^ f.width := s.rf_wf_same _ _ h

theorem State.reg_incSat_other (s : State) (f : Fd) (n a : Nat) (h : a ≠ f.addr) : (s.incSat f n).reg a = s.reg a := s.reg_wf_other _ _ _ h
theorem State.reg_incWrap_other (s : State) (f : Fd) (n a : Nat) (h : a ≠ f.addr) : (s.incWrap f n).reg a = s.reg a := s.reg_wf_other _ _ _ h

/-! ## Events and refusals -/

@[simp] theorem State.reg_raise (s : State) (e a : Nat) : (s.raise e).reg a = s.reg a := rfl
@[simp] theorem State.reg_cause (s : State) (c : SysCause) (e : Word) (u a : Nat) : (s.cause c e u).reg a = s.reg a := rfl

@[simp] theorem State.reg_raiseIf (s : State) (ev en : Fd) (a : Nat) : (s.raiseIf ev en).reg a = s.reg a := by
  unfold State.raiseIf; split <;> rfl

/-- All that raiseIf can do. -/
theorem State.raiseIf_cases (s : State) (ev en : Fd) :
    (s.rf en = 0 ∧ s.raiseIf ev en = s) ∨ (s.rf en ≠ 0 ∧ s.raiseIf ev en = s.raise (s.rf ev)) := by
  by_cases h : s.rf en = 0
  · exact .inl ⟨h, by simp [State.raiseIf, State.on, h]⟩
  · exact .inr ⟨h, by simp [State.raiseIf, State.on, h]⟩

/-- A refusal changes the registers of REFUSED and its reason, and no other (R13). -/
theorem State.reg_refuse_other (s : State) (r : RefuseAt) (reason a : Nat) (h : a ≠ r.refused.addr)
    (h' : ∀ f ∈ r.reason, a ≠ f.addr) : (s.refuse r reason).reg a = s.reg a := by
  obtain ⟨rf, rs, ev⟩ := r
  cases rs with
  | none =>
    cases ev with
    | none => exact s.reg_wf_other _ _ _ h
    | some e => simp only [State.refuse, State.reg_raiseIf]; exact s.reg_wf_other _ _ _ h
  | some f =>
    have hf := h' f (by simp)
    cases ev with
    | none =>
      show ((s.wf rf 1).wf f reason).reg a = _
      rw [State.reg_wf_other _ _ _ _ hf, State.reg_wf_other _ _ _ _ h]
    | some e =>
      simp only [State.refuse, State.reg_raiseIf]
      rw [State.reg_wf_other _ _ _ _ hf, State.reg_wf_other _ _ _ _ h]

@[simp] theorem State.refused_code (s : State) (r : RefuseAt) (reason : Nat) : (s.refused r reason).code = 3 := rfl
@[simp] theorem State.refused_st (s : State) (r : RefuseAt) (reason : Nat) : (s.refused r reason).st = s.refuse r reason := rfl
@[simp] theorem WRes.ok_st (s : State) : (WRes.ok s).st = s := rfl
@[simp] theorem WRes.ok_code (s : State) : (WRes.ok s).code = 0 := rfl

end Sys2Proof.Machine
end

