-- ==== Sys2Proof/Laws/Thread.lean ====
section
/-!
SUPPORT. The laws of threads and their registers, and what taking an exception and returning from one do (R129, R138, R139).
-/

namespace Sys2Proof.Machine

/-! ## Threads -/

/-- Two threads of one number are one thread. -/
theorem Thr.ix_inj (t u : Thr) (h : t.ix = u.ix) : t = u := by
  obtain ⟨p, q⟩ := t
  obtain ⟨p', q'⟩ := u
  have h : 8 * p.val + q.val = 8 * p'.val + q'.val := h
  have hp : p = p' := Fin.ext (by omega)
  have hq : q = q' := Fin.ext (by omega)
  rw [hp, hq]

@[simp] theorem State.thr_setThr_same (s : State) (t : Thr) (v : Thread) : (s.setThr t v).thr t = v := SMap.get_set_same _ _ _ _

theorem State.thr_setThr_other (s : State) (t u : Thr) (v : Thread) (h : u ≠ t) : (s.setThr t v).thr u = s.thr u :=
  SMap.get_set_other _ _ _ _ _ _ (fun e => h (Thr.ix_inj _ _ e))

@[simp] theorem State.thr_onThr_same (s : State) (t : Thr) (f : Thread → Thread) : (s.onThr t f).thr t = f (s.thr t) :=
  s.thr_setThr_same _ _

theorem State.thr_onThr_other (s : State) (t u : Thr) (f : Thread → Thread) (h : u ≠ t) : (s.onThr t f).thr u = s.thr u :=
  s.thr_setThr_other _ _ _ h

@[simp] theorem State.thr_setReg (s : State) (a : Nat) (v : Word) (t : Thr) : (s.setReg a v).thr t = s.thr t := rfl
@[simp] theorem State.thr_wf (s : State) (f : Fd) (v : Nat) (t : Thr) : (s.wf f v).thr t = s.thr t := rfl
@[simp] theorem State.thr_setBit (s : State) (f : Fd) (i : Nat) (v : Bool) (t : Thr) : (s.setBit f i v).thr t = s.thr t := rfl
@[simp] theorem State.thr_incSat (s : State) (f : Fd) (n : Nat) (t : Thr) : (s.incSat f n).thr t = s.thr t := rfl
@[simp] theorem State.thr_incWrap (s : State) (f : Fd) (n : Nat) (t : Thr) : (s.incWrap f n).thr t = s.thr t := rfl
@[simp] theorem State.thr_raise (s : State) (e : Nat) (t : Thr) : (s.raise e).thr t = s.thr t := rfl
@[simp] theorem State.thr_raiseIf (s : State) (ev en : Fd) (t : Thr) : (s.raiseIf ev en).thr t = s.thr t := by
  unfold State.raiseIf; split <;> rfl
@[simp] theorem State.reg_setThr (s : State) (t : Thr) (v : Thread) (a : Nat) : (s.setThr t v).reg a = s.reg a := rfl
@[simp] theorem State.reg_onThr (s : State) (t : Thr) (f : Thread → Thread) (a : Nat) : (s.onThr t f).reg a = s.reg a := rfl
@[simp] theorem State.rf_setThr (s : State) (t : Thr) (v : Thread) (f : Fd) : (s.setThr t v).rf f = s.rf f := rfl
@[simp] theorem State.rf_onThr (s : State) (t : Thr) (g : Thread → Thread) (f : Fd) : (s.onThr t g).rf f = s.rf f := rfl

/-! ## G, F and W registers -/

@[simp] theorem Thread.rg_zero (t : Thread) : t.rg 0 = 0 := rfl
@[simp] theorem Thread.wg_zero (t : Thread) (v : Word) : t.wg 0 v = t := rfl

theorem Thread.rg_wg (t : Thread) (d r : RegIx) (v : Word) : (t.wg d v).rg r = if r = d ∧ r ≠ 0 then v else t.rg r := by
  by_cases hd : d = 0
  · subst hd
    by_cases hr : r = 0 <;> simp [hr]
  · by_cases hr : r = 0
    · subst hr; simp
    · have hw : t.wg d v = { t with g := SMap.set t.g 0 d.val v } := by simp [Thread.wg, hd]
      rw [hw]
      simp only [Thread.rg, hr, if_false, SMap.get_set, ne_eq, not_false_iff, and_true, Fin.ext_iff]

theorem Thread.rf_wf (t : Thread) (d r : RegIx) (v : DWord) : (t.wf d v).rf r = if r = d then v else t.rf r := by
  simp only [Thread.wf, Thread.rf, SMap.get_set, Fin.ext_iff]

theorem Thread.rw_ww (t : Thread) (d r : WIx) (v : WVec) : (t.ww d v).rw r = if r = d then v else t.rw r := by
  simp only [Thread.ww, Thread.rw, SMap.get_set, Fin.ext_iff]

/-- A write of G changes the G registers and nothing else. -/
theorem Thread.wg_frame (t : Thread) (d : RegIx) (v : Word) : t.wg d v = { t with g := (t.wg d v).g } := by
  unfold Thread.wg; split <;> rfl

@[simp] theorem Thread.wg_pc (t : Thread) (d : RegIx) (v : Word) : (t.wg d v).pc = t.pc := by rw [Thread.wg_frame]
@[simp] theorem Thread.wg_tstat (t : Thread) (d : RegIx) (v : Word) : (t.wg d v).tstat = t.tstat := by rw [Thread.wg_frame]
@[simp] theorem Thread.wg_cause (t : Thread) (d : RegIx) (v : Word) : (t.wg d v).cause = t.cause := by rw [Thread.wg_frame]
@[simp] theorem Thread.wg_epc (t : Thread) (d : RegIx) (v : Word) : (t.wg d v).epc = t.epc := by rw [Thread.wg_frame]
@[simp] theorem Thread.wg_einfo (t : Thread) (d : RegIx) (v : Word) : (t.wg d v).einfo = t.einfo := by rw [Thread.wg_frame]
@[simp] theorem Thread.wg_run (t : Thread) (d : RegIx) (v : Word) : (t.wg d v).run = t.run := by rw [Thread.wg_frame]
@[simp] theorem Thread.wg_acc (t : Thread) (d : RegIx) (v : Word) : (t.wg d v).acc = t.acc := by rw [Thread.wg_frame]
@[simp] theorem Thread.wg_fstat (t : Thread) (d : RegIx) (v : Word) : (t.wg d v).fstat = t.fstat := by rw [Thread.wg_frame]
@[simp] theorem Thread.wg_f (t : Thread) (d : RegIx) (v : Word) : (t.wg d v).f = t.f := by rw [Thread.wg_frame]
@[simp] theorem Thread.wg_w (t : Thread) (d : RegIx) (v : Word) : (t.wg d v).w = t.w := by rw [Thread.wg_frame]

/-! ## Taking an exception (R129) -/

@[simp] theorem Thread.endRepeat_g (t : Thread) : t.endRepeat.g = t.g := by unfold Thread.endRepeat; split <;> rfl
@[simp] theorem Thread.endRepeat_tstat (t : Thread) : t.endRepeat.tstat = t.tstat := by unfold Thread.endRepeat; split <;> rfl
@[simp] theorem Thread.endRepeat_ksp (t : Thread) : t.endRepeat.ksp = t.ksp := by unfold Thread.endRepeat; split <;> rfl

/-- Entry continues at ENTRY. -/
theorem Thread.enter_pc (t : Thread) (c : Cause) (epc entry : Word) : (t.enter c epc entry).pc = entry := rfl

theorem Thread.enter_cause (t : Thread) (c : Cause) (epc entry : Word) : (t.enter c epc entry).cause = c.word := by
  simp only [Thread.enter]; split <;> simp

theorem Thread.enter_einfo (t : Thread) (c : Cause) (epc entry : Word) : (t.enter c epc entry).einfo = c.einfo := by
  simp only [Thread.enter]; split <;> simp

/-- EPC takes the address given, or the prefix of an unfinished repeat (R89). -/
theorem Thread.enter_epc (t : Thread) (c : Cause) (epc entry : Word) :
    (t.enter c epc entry).epc = (match t.rep with | some r => r.prefixPc | none => epc) := by
  simp only [Thread.enter]; split <;> simp <;> cases t.rep <;> rfl

/-- TSTAT at entry: the P fields take MODE, IE and SS; Kernel mode, EXL 1, IE and SS 0 (R129). -/
theorem Thread.enter_tstat (t : Thread) (c : Cause) (epc entry : Word) :
    (t.enter c epc entry).tstat =
      putBits (putBits t.tstat 4 3 (getBits t.tstat 0 1 + 2 * getBits t.tstat 2 1 + 4 * getBits t.tstat 3 1)) 0 4 3 := by
  simp only [Thread.enter]; split <;> simp [Thread.commitProduct]

theorem Thread.enter_kernel (t : Thread) (c : Cause) (epc entry : Word) : (t.enter c epc entry).kernel = true := by
  rw [Thread.kernel, Thread.enter_tstat, getBits_putBits_part _ _ _ _ _ _ (by omega) (by omega) (by omega)]; rfl

theorem Thread.enter_exl (t : Thread) (c : Cause) (epc entry : Word) : (t.enter c epc entry).exl = true := by
  rw [Thread.exl, Thread.enter_tstat, getBits_putBits_part _ _ _ _ _ _ (by omega) (by omega) (by omega)]; rfl

theorem Thread.enter_ie (t : Thread) (c : Cause) (epc entry : Word) : (t.enter c epc entry).ie = false := by
  rw [Thread.ie, Thread.enter_tstat, getBits_putBits_part _ _ _ _ _ _ (by omega) (by omega) (by omega)]; rfl

theorem Thread.enter_ss (t : Thread) (c : Cause) (epc entry : Word) : (t.enter c epc entry).ss = false := by
  rw [Thread.ss, Thread.enter_tstat, getBits_putBits_part _ _ _ _ _ _ (by omega) (by omega) (by omega)]; rfl

/-! ## Returning from an exception (R139) -/

theorem Thread.returnFromException_pc (t : Thread) : t.returnFromException.pc = putBits t.epc 0 2 0 := by
  simp only [Thread.returnFromException]; split <;> simp

theorem Thread.returnFromException_tstat (t : Thread) :
    t.returnFromException.tstat =
      putBits t.tstat 0 4 (getBits t.tstat 4 1 + 4 * getBits t.tstat 5 1 + 8 * getBits t.tstat 6 1) := by
  simp only [Thread.returnFromException]; split <;> simp

end Sys2Proof.Machine
end

