-- ==== Sys2Proof/Laws/Issue.lean ====
section
/-!
SUPPORT. What the shared operations of the issue of an instruction can do: taking a cause, retiring, and the outcome of an instruction.
-/

namespace Sys2Proof.Machine

/-! ## Taking a cause changes registers, threads and broadcasts alone -/

/-- `t` differs from `s` in registers, threads and the network alone. -/
structure State.OnlyPier (s t : State) : Prop where
  eq : t = { s with io := t.io, threads := t.threads, net := t.net }

theorem State.OnlyPier.refl (s : State) : s.OnlyPier s := ⟨rfl⟩

theorem State.OnlyPier.trans {s t u : State} (h : s.OnlyPier t) (k : t.OnlyPier u) : s.OnlyPier u := by
  have h := h.eq
  have k := k.eq
  refine ⟨?_⟩
  generalize u.io = a at *
  generalize u.threads = b at *
  generalize u.net = c at *
  subst k
  generalize t.io = a' at *
  generalize t.threads = b' at *
  generalize t.net = c' at *
  subst h
  rfl

/-! What OnlyPier leaves alone. -/

theorem State.OnlyPier.pending_eq {s t : State} (h : s.OnlyPier t) : t.pending = s.pending := by rw [h.eq]
theorem State.OnlyPier.grade_eq {s t : State} (h : s.OnlyPier t) : t.grade = s.grade := by rw [h.eq]
theorem State.OnlyPier.ispace_eq {s t : State} (h : s.OnlyPier t) : t.ispace = s.ispace := by rw [h.eq]
theorem State.OnlyPier.spad_eq {s t : State} (h : s.OnlyPier t) : t.spad = s.spad := by rw [h.eq]
theorem State.OnlyPier.mbox_eq {s t : State} (h : s.OnlyPier t) : t.mbox = s.mbox := by rw [h.eq]
theorem State.OnlyPier.deck_eq {s t : State} (h : s.OnlyPier t) : t.deck = s.deck := by rw [h.eq]
theorem State.OnlyPier.ecc_eq {s t : State} (h : s.OnlyPier t) : t.ecc = s.ecc := by rw [h.eq]
theorem State.OnlyPier.slots_eq {s t : State} (h : s.OnlyPier t) : t.slots = s.slots := by rw [h.eq]
theorem State.OnlyPier.accepted_eq {s t : State} (h : s.OnlyPier t) : t.accepted = s.accepted := by rw [h.eq]
theorem State.OnlyPier.spans_eq {s t : State} (h : s.OnlyPier t) : t.spans = s.spans := by rw [h.eq]
theorem State.OnlyPier.fills_eq {s t : State} (h : s.OnlyPier t) : t.fills = s.fills := by rw [h.eq]
theorem State.OnlyPier.scrubs_eq {s t : State} (h : s.OnlyPier t) : t.scrubs = s.scrubs := by rw [h.eq]
theorem State.OnlyPier.inits_eq {s t : State} (h : s.OnlyPier t) : t.inits = s.inits := by rw [h.eq]
theorem State.OnlyPier.dma_eq {s t : State} (h : s.OnlyPier t) : t.dma = s.dma := by rw [h.eq]
theorem State.OnlyPier.gauges_eq {s t : State} (h : s.OnlyPier t) : t.gauges = s.gauges := by rw [h.eq]
theorem State.OnlyPier.spll_eq {s t : State} (h : s.OnlyPier t) : t.spll = s.spll := by rw [h.eq]
theorem State.OnlyPier.ldr_eq {s t : State} (h : s.OnlyPier t) : t.ldr = s.ldr := by rw [h.eq]
theorem State.OnlyPier.vault_eq {s t : State} (h : s.OnlyPier t) : t.vault = s.vault := by rw [h.eq]
theorem State.OnlyPier.flc_eq {s t : State} (h : s.OnlyPier t) : t.flc = s.flc := by rw [h.eq]
theorem State.OnlyPier.trigs_eq {s t : State} (h : s.OnlyPier t) : t.trigs = s.trigs := by rw [h.eq]
theorem State.OnlyPier.record_eq {s t : State} (h : s.OnlyPier t) : t.record = s.record := by rw [h.eq]
theorem State.OnlyPier.rtc_eq {s t : State} (h : s.OnlyPier t) : t.rtc = s.rtc := by rw [h.eq]
theorem State.OnlyPier.par_eq {s t : State} (h : s.OnlyPier t) : t.par = s.par := by rw [h.eq]
theorem State.OnlyPier.boot_eq {s t : State} (h : s.OnlyPier t) : t.boot = s.boot := by rw [h.eq]
theorem State.OnlyPier.cvp_eq {s t : State} (h : s.OnlyPier t) : t.cvp = s.cvp := by rw [h.eq]
theorem State.OnlyPier.cal_eq {s t : State} (h : s.OnlyPier t) : t.cal = s.cal := by rw [h.eq]
theorem State.OnlyPier.ovrIn_eq {s t : State} (h : s.OnlyPier t) : t.ovrIn = s.ovrIn := by rw [h.eq]
theorem State.OnlyPier.estopN_eq {s t : State} (h : s.OnlyPier t) : t.estopN = s.estopN := by rw [h.eq]
theorem State.OnlyPier.abtNew_eq {s t : State} (h : s.OnlyPier t) : t.abtNew = s.abtNew := by rw [h.eq]
theorem State.OnlyPier.quietUs_eq {s t : State} (h : s.OnlyPier t) : t.quietUs = s.quietUs := by rw [h.eq]
theorem State.OnlyPier.us_eq {s t : State} (h : s.OnlyPier t) : t.us = s.us := by rw [h.eq]
theorem State.OnlyPier.eth_eq {s t : State} (h : s.OnlyPier t) : t.eth = s.eth := by rw [h.eq]
theorem State.OnlyPier.fsv_eq {s t : State} (h : s.OnlyPier t) : t.fsv = s.fsv := by rw [h.eq]
theorem State.OnlyPier.panel_eq {s t : State} (h : s.OnlyPier t) : t.panel = s.panel := by rw [h.eq]
theorem State.OnlyPier.gio_eq {s t : State} (h : s.OnlyPier t) : t.gio = s.gio := by rw [h.eq]
theorem State.OnlyPier.held_eq {s t : State} (h : s.OnlyPier t) : t.held = s.held := by rw [h.eq]
theorem State.OnlyPier.dbg_eq {s t : State} (h : s.OnlyPier t) : t.dbg = s.dbg := by rw [h.eq]
theorem State.OnlyPier.pwrLow_eq {s t : State} (h : s.OnlyPier t) : t.pwrLow = s.pwrLow := by rw [h.eq]
theorem State.OnlyPier.free_eq {s t : State} (h : s.OnlyPier t) : t.free = s.free := by rw [h.eq]

theorem State.onlyPier_setReg (s : State) (a : Nat) (v : Word) : s.OnlyPier (s.setReg a v) := ⟨rfl⟩
theorem State.onlyPier_wf (s : State) (f : Fd) (v : Nat) : s.OnlyPier (s.wf f v) := ⟨rfl⟩
theorem State.onlyPier_setBit (s : State) (f : Fd) (i : Nat) (v : Bool) : s.OnlyPier (s.setBit f i v) := ⟨rfl⟩
theorem State.onlyPier_incWrap (s : State) (f : Fd) (n : Nat) : s.OnlyPier (s.incWrap f n) := ⟨rfl⟩
theorem State.onlyPier_incSat (s : State) (f : Fd) (n : Nat) : s.OnlyPier (s.incSat f n) := ⟨rfl⟩
theorem State.onlyPier_setThr (s : State) (th : Thr) (v : Thread) : s.OnlyPier (s.setThr th v) := ⟨rfl⟩
theorem State.onlyPier_onThr (s : State) (th : Thr) (g : Thread → Thread) : s.OnlyPier (s.onThr th g) := ⟨rfl⟩
theorem State.onlyPier_raise (s : State) (e : Nat) : s.OnlyPier (s.raise e) := ⟨rfl⟩

theorem State.onlyPier_raiseIf (s : State) (ev en : Fd) : s.OnlyPier (s.raiseIf ev en) := by
  unfold State.raiseIf
  split
  · exact s.onlyPier_raise _
  · exact .refl s

/-- A refusal leaves every memory and block alone but for registers and the event it may raise (R13). -/
theorem State.onlyPier_refuse (s : State) (r : RefuseAt) (n : Nat) : s.OnlyPier (s.refuse r n) := by
  obtain ⟨rf, rs, ev⟩ := r
  rcases rs with _ | f <;> rcases ev with _ | ⟨ev, en⟩
  · exact s.onlyPier_wf _ _
  · exact (s.onlyPier_wf rf 1).trans ((s.wf rf 1).onlyPier_raiseIf ev en)
  · exact (s.onlyPier_wf rf 1).trans ((s.wf rf 1).onlyPier_wf f n)
  · exact ((s.onlyPier_wf rf 1).trans ((s.wf rf 1).onlyPier_wf f n)).trans (State.onlyPier_raiseIf _ ev en)

theorem State.onlyPier_doubleException (s : State) (th : Thr) (c : Cause) (epc : Word) : s.OnlyPier (s.doubleException th c epc) := by
  unfold State.doubleException
  dsimp only
  exact (((((s.onlyPier_wf _ _).trans (State.onlyPier_wf _ _ _)).trans (State.onlyPier_wf _ _ _)).trans
    (State.onlyPier_setBit _ _ _ _)).trans (State.onlyPier_onThr _ _ _)).trans (State.onlyPier_raiseIf _ _ _)

theorem State.onlyPier_takeException (s : State) (th : Thr) (c : Cause) (epc : Word) : s.OnlyPier (s.takeException th c epc) := by
  unfold State.takeException
  split
  · exact s.onlyPier_doubleException th c epc
  · dsimp only
    generalize (fun t : Thread => Thread.enter (if c.code = cFp then t.deliverTpend else t) c epc (s.reg (Reg.PIER_ENTRY_at th.pier.val))) = g
    split
    · exact ((s.onlyPier_onThr _ _).trans (State.onlyPier_onThr _ _ _)).trans (State.onlyPier_setBit _ _ _ _)
    · exact s.onlyPier_onThr _ _

theorem State.onlyPier_takeFp (s : State) (th : Thr) (epc : Word) : s.OnlyPier (s.takeFp th epc) := s.onlyPier_takeException _ _ _

theorem State.onlyPier_takeCause (s : State) (th : Thr) (c : Cause) : s.OnlyPier (s.takeCause th c) := by
  unfold State.takeCause
  dsimp only
  split
  · exact s.onlyPier_takeFp _ _
  · exact s.onlyPier_takeException _ _ _

theorem State.onlyPier_takeDeferred (s : State) (th : Thr) : s.OnlyPier (s.takeDeferred th) := by
  unfold State.takeDeferred
  dsimp only
  split
  · exact .refl s
  · split
    · exact s.onlyPier_takeFp _ _
    · exact (s.onlyPier_onThr _ _).trans (State.onlyPier_takeException _ _ _ _)

theorem State.onlyPier_clearPending (s : State) (th : Thr) (c : Cause) : s.OnlyPier (s.clearPending th c) := by
  unfold State.clearPending State.setEvPending
  dsimp only
  repeat' split
  all_goals first | exact s.onlyPier_setBit _ _ _ | exact s.onlyPier_onThr _ _ | exact .refl s

theorem State.onlyPier_takeAsync (s : State) (th : Thr) (c : Cause) : s.OnlyPier (s.takeAsync th c) := by
  unfold State.takeAsync
  dsimp only
  split
  · exact s.onlyPier_takeFp _ _
  · exact (s.onlyPier_clearPending th c).trans (State.onlyPier_takeException _ _ _ _)

/-! ## Retiring -/

theorem State.onlyPier_retire (s : State) (th : Thr) (o : Thread) (npc : Word) (n : Nat) : s.OnlyPier (s.retire th o npc n) :=
  ((s.onlyPier_onThr _ _).trans (State.onlyPier_incWrap _ _ _)).trans (State.onlyPier_incWrap _ _ _)

/-- Retiring changes its own thread alone. -/
theorem State.thr_retire_other (s : State) (th u : Thr) (o : Thread) (npc : Word) (n : Nat) (h : u ≠ th) :
    (s.retire th o npc n).thr u = s.thr u := by
  unfold State.retire State.countRetired
  rw [State.thr_incWrap, State.thr_incWrap, State.thr_onThr_other _ _ _ _ h]

theorem State.thr_retire_same (s : State) (th : Thr) (o : Thread) (npc : Word) (n : Nat) :
    (s.retire th o npc n).thr th = (s.thr th).retire o npc := by
  unfold State.retire State.countRetired
  rw [State.thr_incWrap, State.thr_incWrap, State.thr_onThr_same]

/-- Retiring changes the two counters of the pier alone. -/
theorem State.reg_retire_other (s : State) (th : Thr) (o : Thread) (npc : Word) (n a : Nat)
    (h1 : a ≠ (Reg.PIER_RETIRED.COUNT th.pier.val).addr) (h2 : a ≠ (Reg.PIER_CYCLES.COUNT th.pier.val).addr) :
    (s.retire th o npc n).reg a = s.reg a := by
  unfold State.retire State.countRetired
  rw [State.reg_incWrap_other _ _ _ _ h2, State.reg_incWrap_other _ _ _ _ h1, State.reg_onThr]

/-! ## The outcome of an issued instruction -/

/-- All that concluding can do: nothing for a stall; a cause in its place; or its own effect, retired where it completes. -/
theorem State.conclude_cases (s : State) (th : Thr) (o : Out) :
    (o = .stall ∧ s.conclude th o = s) ∨
    (∃ c, o = .trap c ∧ s.conclude th o = s.takeCause th c) ∨
    (∃ s' c, o = .fail s' c ∧ s.conclude th o = s'.takeCause th c) ∨
    (∃ c, s.asyncDue th = some c ∧ s.conclude th o = s.takeAsync th c) ∨
    (s.asyncDue th = none ∧
      ((∃ s' npc n, o = .done s' npc n ∧
          s.conclude th o = (s'.onThr th Thread.commitProduct).retire th (s.thr th) npc n) ∨
       (∃ s' npc n, o = .gated s' npc n ∧
          s.conclude th o = (s'.onThr th Thread.commitProduct).retire th { s.thr th with tstat := 0 } npc n) ∨
       (∃ s' npc, o = .product s' npc ∧ s.conclude th o = s'.retire th (s.thr th) npc 1) ∨
       (∃ s' n, o = .wait s' n ∧ s.conclude th o = s'.incWrap (Reg.PIER_CYCLES.COUNT th.pier.val) n))) := by
  cases o with
  | stall => exact .inl ⟨rfl, rfl⟩
  | trap c => exact .inr (.inl ⟨c, rfl, rfl⟩)
  | fail s' c => exact .inr (.inr (.inl ⟨s', c, rfl, rfl⟩))
  | done s' npc n =>
    cases h : s.asyncDue th with
    | some c => exact .inr (.inr (.inr (.inl ⟨c, rfl, by simp [State.conclude, h]⟩)))
    | none => exact .inr (.inr (.inr (.inr ⟨rfl, .inl ⟨s', npc, n, rfl, by simp [State.conclude, h]⟩⟩)))
  | gated s' npc n =>
    cases h : s.asyncDue th with
    | some c => exact .inr (.inr (.inr (.inl ⟨c, rfl, by simp [State.conclude, h]⟩)))
    | none => exact .inr (.inr (.inr (.inr ⟨rfl, .inr (.inl ⟨s', npc, n, rfl, by simp [State.conclude, h]⟩)⟩)))
  | product s' npc =>
    cases h : s.asyncDue th with
    | some c => exact .inr (.inr (.inr (.inl ⟨c, rfl, by simp [State.conclude, h]⟩)))
    | none => exact .inr (.inr (.inr (.inr ⟨rfl, .inr (.inr (.inl ⟨s', npc, rfl, by simp [State.conclude, h]⟩))⟩)))
  | wait s' n =>
    cases h : s.asyncDue th with
    | some c => exact .inr (.inr (.inr (.inl ⟨c, rfl, by simp [State.conclude, h]⟩)))
    | none => exact .inr (.inr (.inr (.inr ⟨rfl, .inr (.inr (.inr ⟨s', n, rfl, by simp [State.conclude, h]⟩))⟩)))

/-- All that the issue of an instruction can do: nothing while it cannot issue; a cause before it; or its outcome. -/
theorem State.issue_cases (s : State) (th : Thr) (rp settle : Bool) (body : State → Out) :
    (s.canIssue th rp = false ∧ s.issue th rp settle body = s) ∨
    (s.canIssue th rp = true ∧
      ((∃ t, (s.onThr th Thread.gretSeen).headCause th settle = some t ∧ s.issue th rp settle body = t) ∨
       ((s.onThr th Thread.gretSeen).headCause th settle = none ∧
         s.issue th rp settle body =
           (s.onThr th Thread.gretSeen).conclude th
             (if pcOk ((s.onThr th Thread.gretSeen).thr th).pc then body (s.onThr th Thread.gretSeen)
              else .trap (.mk' cIspace 0 ((s.onThr th Thread.gretSeen).thr th).pc))))) := by
  cases h : s.canIssue th rp with
  | false => exact .inl ⟨rfl, by simp [State.issue, h]⟩
  | true =>
    refine .inr ⟨rfl, ?_⟩
    cases h2 : (s.onThr th Thread.gretSeen).headCause th settle with
    | some t => exact .inl ⟨t, rfl, by simp [State.issue, h, h2]⟩
    | none => exact .inr ⟨rfl, by simp [State.issue, h, h2]⟩

theorem State.onlyPier_headCause (s t : State) (th : Thr) (settle : Bool) (h : s.headCause th settle = some t) : s.OnlyPier t := by
  unfold State.headCause at h
  dsimp only at h
  split at h
  · cases h; exact s.onlyPier_takeFp _ _
  · split at h
    · cases h
    · cases h; exact s.onlyPier_takeDeferred _

end Sys2Proof.Machine
end

