-- ==== Sys2Proof/Laws/Memory.lean ====
section
/-!
SUPPORT. The laws of the memories: a read after a write, the bytes a write leaves alone, and the canonical form kept by every operation.
-/

namespace Sys2Proof.Machine

/-! ## Bytes over a default of 0 (I-spaces, scratchpads, mailboxes) -/

/-- A byte outside those stored reads as before. -/
theorem get_setBytes_other (m : List Host.Cell) (a n v b : Nat) (h : b < a ∨ a + n ≤ b) :
    SMap.get (setBytes m a n v) 0 b = SMap.get m 0 b := by
  induction n generalizing m a v with
  | zero => rfl
  | succ k ih =>
    rw [setBytes, ih _ _ _ (by omega)]
    exact SMap.get_set_other _ _ _ _ _ _ (by omega)

/-- A stored byte reads as the byte of the value. -/
theorem get_setBytes (m : List Host.Cell) (a n v i : Nat) (h : i < n) :
    SMap.get (setBytes m a n v) 0 (a + i) = BitVec.ofNat 8 (v / 256 ^ i) := by
  induction n generalizing m a v i with
  | zero => omega
  | succ k ih =>
    rw [setBytes]
    cases i with
    | zero => rw [get_setBytes_other _ _ _ _ _ (by omega)]; simp
    | succ j =>
      rw [show a + (j + 1) = a + 1 + j by omega, ih _ _ _ _ (by omega), Nat.div_div_eq_div_mul, Nat.pow_succ']

/-- Bytes outside those stored read as before, many at once. -/
theorem getBytes_setBytes_other (m : List Host.Cell) (a n v b k : Nat) (h : b + k ≤ a ∨ a + n ≤ b) :
    getBytes (setBytes m a n v) b k = getBytes m b k := by
  induction k generalizing b with
  | zero => rfl
  | succ j ih => rw [getBytes, getBytes, get_setBytes_other _ _ _ _ _ (by omega), ih _ (by omega)]

/-- A read of the bytes just stored gives the value. -/
theorem getBytes_setBytes (m : List Host.Cell) (a n v : Nat) : getBytes (setBytes m a n v) a n = v % 256 ^ n := by
  induction n generalizing m a v with
  | zero => simp [getBytes, Nat.mod_one]
  | succ k ih =>
    rw [getBytes, setBytes, ih, get_setBytes_other _ _ _ _ _ (by omega), SMap.get_set_same, Nat.pow_succ', Nat.mod_mul]
    simp

theorem wf_setBytes (m : List Host.Cell) (a n v : Nat) (h : Memory.wf m (fun _ => 0) = true) :
    Memory.wf (setBytes m a n v) (fun _ => 0) = true := by
  induction n generalizing m a v with
  | zero => exact h
  | succ k ih => exact ih _ _ _ (SMap.wf_set m (fun _ => 0) a _ h)

theorem wf_setMasked (m : List Host.Cell) (a n mask v : Nat) (h : Memory.wf m (fun _ => 0) = true) :
    Memory.wf (setMasked m a n mask v) (fun _ => 0) = true := by
  induction n generalizing m a mask v with
  | zero => exact h
  | succ k ih =>
    refine ih _ _ _ _ ?_
    split
    · exact SMap.wf_set m (fun _ => 0) a _ h
    · exact h

/-! ## The Deck -/

theorem wf_deckPut (fills : List (Nat × Nat × Word)) (m : List Host.Cell) (a n v : Nat) (h : Memory.wf m (deckDefault fills) = true) :
    Memory.wf (deckPut fills m a n v) (deckDefault fills) = true := by
  induction n generalizing m a v with
  | zero => exact h
  | succ k ih => exact ih _ _ _ (SMap.wf_set m (deckDefault fills) a _ h)

/-- A Deck byte outside those stored reads as before. -/
theorem get_deckPut_other (fills : List (Nat × Nat × Word)) (m : List Host.Cell) (a n v b : Nat) (d : Byte) (h : b < a ∨ a + n ≤ b) :
    SMap.get (deckPut fills m a n v) d b = SMap.get m d b := by
  induction n generalizing m a v with
  | zero => rfl
  | succ k ih =>
    rw [deckPut, ih _ _ _ (by omega)]
    exact SMap.get_set_other _ _ _ _ _ _ (by omega)

/-- A stored Deck byte reads as the byte of the value. -/
theorem get_deckPut (fills : List (Nat × Nat × Word)) (m : List Host.Cell) (a n v i : Nat) (h : i < n) :
    SMap.get (deckPut fills m a n v) (deckDefault fills (a + i)) (a + i) = BitVec.ofNat 8 (v / 256 ^ i) := by
  induction n generalizing m a v i with
  | zero => omega
  | succ k ih =>
    rw [deckPut]
    cases i with
    | zero => rw [get_deckPut_other _ _ _ _ _ _ _ (by omega)]; simp
    | succ j =>
      rw [show a + (j + 1) = a + 1 + j by omega, ih _ _ _ _ (by omega), Nat.div_div_eq_div_mul, Nat.pow_succ']

theorem State.deckByte_deckPoke (s : State) (a n v i : Nat) (h : i < n) :
    (s.deckPoke a n v).deckByte (a + i) = BitVec.ofNat 8 (v / 256 ^ i) := get_deckPut _ _ _ _ _ _ h

theorem State.deckByte_deckPoke_other (s : State) (a n v b : Nat) (h : b < a ∨ a + n ≤ b) :
    (s.deckPoke a n v).deckByte b = s.deckByte b := get_deckPut_other _ _ _ _ _ _ _ h

/-- A read of the Deck bytes just stored gives the value. -/
theorem State.deckPeek_deckPoke (s : State) (a n v : Nat) : (s.deckPoke a n v).deckPeek a n = v % 256 ^ n := by
  have key : ∀ (t : State) (a n v : Nat), (∀ i < n, t.deckByte (a + i) = BitVec.ofNat 8 (v / 256 ^ i)) →
      t.deckPeek a n = v % 256 ^ n := by
    intro t a n
    induction n generalizing a with
    | zero => intro v _; simp [State.deckPeek, Nat.mod_one]
    | succ k ih =>
      intro v h
      have h0 := h 0 (by omega)
      have h1 := ih (a + 1) (v / 256) (fun i hi => by
        have := h (i + 1) (by omega)
        rw [show a + 1 + i = a + (i + 1) by omega, this, Nat.div_div_eq_div_mul, Nat.pow_succ'])
      simp only [State.deckPeek, h1]
      simp only [Nat.add_zero, Nat.pow_zero, Nat.div_one] at h0
      rw [h0, Nat.pow_succ', Nat.mod_mul]
      simp
  exact key _ _ _ _ (fun i hi => s.deckByte_deckPoke a n v i hi)

/-- Fills of another quarter do not change what an offset reads as. -/
theorem deckDefault_filter (fills : List (Nat × Nat × Word)) (q a : Nat) (h : deckQuarter a ≠ q) :
    deckDefault (fills.filter (fun f => f.1 != q)) a = deckDefault fills a := by
  induction fills with
  | nil => rfl
  | cons f t ih =>
    obtain ⟨q', r, p⟩ := f
    by_cases hq : q' = q
    · have : q' ≠ deckQuarter a := fun e => h (e.symm.trans hq)
      simp [hq, ih, deckDefault, h.symm]
    · simp [hq, ih, deckDefault]

/-- A fill of another quarter, or of rows below the offset's, does not change what it reads as. -/
theorem deckDefault_cons (fills : List (Nat × Nat × Word)) (q r a : Nat) (p : Word) (h : ¬(q = deckQuarter a ∧ deckRow a < r)) :
    deckDefault ((q, r, p) :: fills) a = deckDefault fills a := by simp [deckDefault, h]

/-- Fills of quarter `q` alone, put before others, do not change another quarter. -/
theorem deckDefault_append (f g : List (Nat × Nat × Word)) (q a : Nat) (h : deckQuarter a ≠ q) (hf : ∀ e ∈ f, e.1 = q) :
    deckDefault (f ++ g) a = deckDefault g a := by
  induction f with
  | nil => rfl
  | cons e t ih =>
    obtain ⟨q', r, p⟩ := e
    have hq : q' = q := hf (q', r, p) (by simp)
    rw [List.cons_append, deckDefault_cons _ _ _ _ _ (fun hc => h (hc.1.symm.trans hq)), ih (fun e he => hf e (by simp [he]))]

theorem State.wf_deckPoke (s : State) (a n v : Nat) (h : Memory.wf s.deck (deckDefault s.fills) = true) :
    Memory.wf (s.deckPoke a n v).deck (deckDefault (s.deckPoke a n v).fills) = true := wf_deckPut _ _ _ _ _ h

theorem State.wf_setEcc (s : State) (w e : Nat) (h : SMap.wf s.ecc (fun _ => 0) = true) :
    SMap.wf (s.setEcc w e).ecc (fun _ => 0) = true := SMap.wf_set s.ecc (fun _ => 0) w e h

/-- No listed byte of a dropped row remains. -/
theorem State.mem_deckDrop (s : State) (q rows : Nat) (e : Host.Cell) (he : e ∈ (s.deckDrop q rows).deck) :
    ¬(q = deckQuarter e.1 ∧ deckRow e.1 < rows) := by
  have h : (!(deckQuarter e.1 == q && decide (deckRow e.1 < rows))) = true := (List.mem_filter.1 he).2
  intro hc
  simp [← hc.1, hc.2] at h

theorem deckRow_lt (a : Nat) : deckRow a < 8192 := Nat.mod_lt _ (by decide)

theorem State.wf_deckDrop (s : State) (q rows : Nat) (h : Memory.wf s.deck (deckDefault s.fills) = true) :
    Memory.wf (s.deckDrop q rows).deck (deckDefault s.fills) = true :=
  SMap.wf_drop s.deck _ (fun a => deckQuarter a == q && decide (deckRow a < rows)) h

theorem State.wf_deckFill (s : State) (q rows : Nat) (pat : Word) (h : Memory.wf s.deck (deckDefault s.fills) = true) :
    Memory.wf (s.deckFill q rows pat).deck (deckDefault (s.deckFill q rows pat).fills) = true := by
  refine SMap.wf_congr (s.deckDrop q rows).deck (deckDefault s.fills) _ (s.wf_deckDrop q rows h) ?_
  intro e he
  have hm := s.mem_deckDrop q rows e he
  show deckDefault ((q, rows, pat) :: if rows = 8192 then s.fills.filter (fun f => f.1 != q) else s.fills) e.1 = _
  rw [deckDefault_cons _ _ _ _ _ hm]
  split
  · next hr =>
    subst hr
    exact deckDefault_filter _ _ _ (fun hq => hm ⟨hq.symm, deckRow_lt _⟩)
  · rfl

theorem State.wf_powerUpDeck (s : State) (q : Nat) (h : Memory.wf s.deck (deckDefault s.fills) = true) :
    Memory.wf (s.powerUpDeck q).deck (deckDefault (s.powerUpDeck q).fills) = true := by
  refine SMap.wf_congr (s.deckDrop q 8192).deck (deckDefault s.fills) _ (s.wf_deckDrop q 8192 h) ?_
  intro e he
  have hm := s.mem_deckDrop q 8192 e he
  exact deckDefault_filter _ _ _ (fun hq => hm ⟨hq.symm, deckRow_lt _⟩)

theorem wf_restoreCells (fills : List (Nat × Nat × Word)) (m old : List Host.Cell) (h : Memory.wf m (deckDefault fills) = true) :
    Memory.wf (restoreCells fills m old) (deckDefault fills) = true := by
  induction old generalizing m with
  | nil => exact h
  | cons e t ih => exact ih _ (SMap.wf_set m (deckDefault fills) e.1 e.2 h)

theorem wf_restoreEcc (m old : SMap Nat) (h : SMap.wf m (fun _ => 0) = true) : SMap.wf (restoreEcc m old) (fun _ => 0) = true := by
  induction old generalizing m with
  | nil => exact h
  | cons e t ih => exact ih _ (SMap.wf_set m (fun _ => 0) e.1 e.2 h)

theorem State.wf_cutInit (s : State) (q rows : Nat) (i : DeckInit) (pat : Word) (h : Memory.wf s.deck (deckDefault s.fills) = true) :
    Memory.wf (s.cutInit q rows i pat).deck (deckDefault (s.cutInit q rows i pat).fills) = true := by
  refine wf_restoreCells _ _ _ (SMap.wf_congr (s.deckDrop q 8192).deck (deckDefault s.fills) _ (s.wf_deckDrop q 8192 h) ?_)
  intro e he
  have hm := s.mem_deckDrop q 8192 e he
  have hq : deckQuarter e.1 ≠ q := fun hq => hm ⟨hq.symm, deckRow_lt _⟩
  rw [deckDefault_cons _ _ _ _ _ (fun hc => hq hc.1.symm)]
  rw [deckDefault_append _ _ q _ hq (fun f hf => by simpa using (List.mem_filter.1 hf).2)]
  exact deckDefault_filter _ _ _ hq

theorem State.wf_powerLoss_spad (s : State) (isl : Nat) (h : Memory.wf s.spad (fun _ => 0) = true) :
    Memory.wf (s.powerLoss isl).spad (fun _ => 0) = true := by
  unfold State.powerLoss
  split
  · exact SMap.wf_drop s.spad _ (fun k => k / 0x10000 == isl) h
  · split <;> exact h

theorem State.wf_powerLoss_mbox (s : State) (isl : Nat) (h : Memory.wf s.mbox (fun _ => 0) = true) :
    Memory.wf (s.powerLoss isl).mbox (fun _ => 0) = true := by
  unfold State.powerLoss
  split
  · exact SMap.wf_drop s.mbox _ (fun k => k / 0x1000 == isl) h
  · split <;> exact h

/-! ## Reads and writes with their checks (R209 to R211) -/

/-- `t` differs from `s` in registers, events and queued scrubs alone. -/
structure State.OnlyCheck (s t : State) : Prop where
  deck : t.deck = s.deck
  ecc : t.ecc = s.ecc
  fills : t.fills = s.fills
  spad : t.spad = s.spad
  mbox : t.mbox = s.mbox
  ispace : t.ispace = s.ispace
  threads : t.threads = s.threads

theorem State.OnlyCheck.refl (s : State) : s.OnlyCheck s := ⟨rfl, rfl, rfl, rfl, rfl, rfl, rfl⟩

theorem State.OnlyCheck.trans {s t u : State} (h : s.OnlyCheck t) (k : t.OnlyCheck u) : s.OnlyCheck u :=
  ⟨k.deck.trans h.deck, k.ecc.trans h.ecc, k.fills.trans h.fills, k.spad.trans h.spad, k.mbox.trans h.mbox,
    k.ispace.trans h.ispace, k.threads.trans h.threads⟩

theorem State.onlyCheck_wf (s : State) (f : Fd) (v : Nat) : s.OnlyCheck (s.wf f v) := ⟨rfl, rfl, rfl, rfl, rfl, rfl, rfl⟩

theorem State.onlyCheck_raiseIf (s : State) (ev en : Fd) : s.OnlyCheck (s.raiseIf ev en) := by
  unfold State.raiseIf
  split
  · exact ⟨rfl, rfl, rfl, rfl, rfl, rfl, rfl⟩
  · exact .refl s

theorem State.onlyCheck_queueScrub (s : State) (w : Nat) : s.OnlyCheck (s.queueScrub w) := by
  unfold State.queueScrub
  split
  · exact .refl s
  · exact ⟨rfl, rfl, rfl, rfl, rfl, rfl, rfl⟩

theorem State.onlyCheck_correct (s : State) (w : Nat) : s.OnlyCheck (s.correct w) := by
  unfold State.correct
  exact (s.onlyCheck_wf _ _).trans ((State.onlyCheck_wf _ _ _).trans ((State.onlyCheck_raiseIf _ _ _).trans
    (State.onlyCheck_queueScrub _ _)))

theorem State.onlyCheck_detectPoison (s : State) (w : Nat) : s.OnlyCheck (s.detectPoison w) := by
  unfold State.detectPoison
  exact (s.onlyCheck_wf _ _).trans ((State.onlyCheck_wf _ _ _).trans (State.onlyCheck_raiseIf _ _ _))

theorem State.onlyCheck_checkWord (s : State) (w : Nat) : s.OnlyCheck (s.checkWord w).2 := by
  unfold State.checkWord
  split
  · exact s.onlyCheck_detectPoison w
  · split
    · exact s.onlyCheck_correct w
    · exact .refl s

theorem State.onlyCheck_checkWords (s : State) (w k : Nat) : s.OnlyCheck (s.checkWords w k).2 := by
  induction k generalizing s w with
  | zero => exact .refl s
  | succ k ih => exact (s.onlyCheck_checkWord w).trans (ih _ _)

/-- A Deck read changes no memory. -/
theorem State.onlyCheck_deckRead (s : State) (a n : Nat) : s.OnlyCheck (s.deckRead a n).2 := by
  unfold State.deckRead
  dsimp only
  split <;> exact s.onlyCheck_checkWords _ _

/-- A Deck read of words without poison gives the bytes. -/
theorem State.deckRead_value (s : State) (a n : Nat) (h : (s.checkWords (a / 8) (wordsTouched a n)).1 = false) :
    (s.deckRead a n).1 = some (s.deckPeek a n) := by simp [State.deckRead, h]

/-- The Deck in its canonical form, bytes and bit errors. -/
structure State.DeckWf (s : State) : Prop where
  deck : Memory.wf s.deck (deckDefault s.fills) = true
  ecc : SMap.wf s.ecc (fun _ => 0) = true

theorem State.OnlyCheck.deckWf {s t : State} (h : s.OnlyCheck t) (k : s.DeckWf) : t.DeckWf :=
  ⟨by rw [h.deck, h.fills]; exact k.deck, by rw [h.ecc]; exact k.ecc⟩

theorem State.deckWf_writtenWord (s : State) (w : Nat) (h : s.DeckWf) : (s.writtenWord w).DeckWf := by
  unfold State.writtenWord
  dsimp only
  split
  · exact ⟨h.deck, SMap.wf_set s.ecc (fun _ => 0) w _ h.ecc⟩
  · exact ⟨h.deck, SMap.wf_set s.ecc (fun _ => 0) w 0 h.ecc⟩

theorem State.deckWf_deckPoke (s : State) (a n v : Nat) (h : s.DeckWf) : (s.deckPoke a n v).DeckWf :=
  ⟨s.wf_deckPoke a n v h.deck, h.ecc⟩

theorem State.deckWf_deckWriteWord (s : State) (a n v : Nat) (h : s.DeckWf) : (s.deckWriteWord a n v).2.DeckWf := by
  unfold State.deckWriteWord
  dsimp only
  split
  · exact State.deckWf_writtenWord _ _ (s.deckWf_deckPoke a 8 v h)
  · split
    · exact (s.onlyCheck_checkWord _).deckWf h
    · exact State.deckWf_writtenWord _ _ (State.deckWf_deckPoke _ a n v ((s.onlyCheck_checkWord _).deckWf h))

theorem State.deckWf_deckWriteFrom (s : State) (fuel a n v : Nat) (h : s.DeckWf) : (s.deckWriteFrom fuel a n v).2.DeckWf := by
  induction fuel generalizing s a n v with
  | zero => exact h
  | succ k ih =>
    unfold State.deckWriteFrom
    split
    · exact h
    · exact ih _ _ _ _ (s.deckWf_deckWriteWord _ _ _ h)

/-- A Deck write keeps the canonical form. -/
theorem State.deckWf_deckWrite (s : State) (a n v : Nat) (h : s.DeckWf) : (s.deckWrite a n v).2.DeckWf :=
  s.deckWf_deckWriteFrom _ _ _ _ h

theorem State.deckWf_deckFill (s : State) (q rows : Nat) (pat : Word) (h : s.DeckWf) : (s.deckFill q rows pat).DeckWf :=
  ⟨s.wf_deckFill q rows pat h.deck, SMap.wf_drop s.ecc _ (fun w => deckQuarter (8 * w) == q && decide (deckRow (8 * w) < rows)) h.ecc⟩

theorem State.deckWf_cutInit (s : State) (q rows : Nat) (i : DeckInit) (pat : Word) (h : s.DeckWf) : (s.cutInit q rows i pat).DeckWf :=
  ⟨s.wf_cutInit q rows i pat h.deck,
    wf_restoreEcc _ _ (SMap.wf_drop s.ecc _ (fun w => deckQuarter (8 * w) == q && decide (deckRow (8 * w) < 8192)) h.ecc)⟩

theorem State.deckWf_powerUpDeck (s : State) (q : Nat) (h : s.DeckWf) : (s.powerUpDeck q).DeckWf :=
  ⟨s.wf_powerUpDeck q h.deck, SMap.wf_drop s.ecc _ (fun w => deckQuarter (8 * w) == q && decide (deckRow (8 * w) < 8192)) h.ecc⟩

/-- The memories after reset: nothing listed, every one canonical. -/
theorem State.deckWf_reset : State.reset.DeckWf := ⟨rfl, rfl⟩

end Sys2Proof.Machine
end

