-- ==== Sys2Proof/Tests/Slice0.lean ====
section
/-!
SUPPORT. Tests of the model: terms that WellFormed refuses, single steps with results the spec states, and for each statement a state and
operands that meet its hypotheses.
-/

namespace Sys2Proof.Tests
open Sys2Proof Sys2Proof.Machine Sys2Proof.Claims

/-! ## Helpers -/

/-- Thread 0 of pier 0. -/
abbrev t0 : Thr := ⟨0, 0⟩
/-- The state after reset with thread 0 of pier 0 running. -/
def base : State := State.reset.onThr t0 (fun t => { t with run := .running })
/-- `base` with G registers of thread 0. -/
def withG (l : List (RegIx × Word)) : State := base.onThr t0 (fun t => l.foldl (fun t x => t.wg x.1 x.2) t)
/-- `base` with thread 0 in Task mode. -/
def task : State := base.onThr t0 (fun t => t.setMode false false false false)
/-- The next state of a command; reset where it stops. -/
def after (c : Instr) (s : State) : State := match exec c s with | .next t => t | _ => State.reset

/-- Runs, as a test. -/
def runsB (s : State) (th : Thr) : Bool :=
  let t := s.thr th
  s.clocked th.pier.val && t.run == .running && t.acc == none && !t.stopReq && t.rep == none && t.tpend == 0 && t.defErrs == [] &&
    decide (t.pc.toNat ≤ 0x1FFFC) && (s.asyncDue th).isNone

theorem runs_of (s : State) (th : Thr) (h : runsB s th = true) : Runs s th := by
  simp only [runsB, Bool.and_eq_true, beq_iff_eq, Bool.not_eq_true', decide_eq_true_eq, Option.isNone_iff_eq_none] at h
  exact ⟨h.1.1.1.1.1.1.1.1, h.1.1.1.1.1.1.1.2, h.1.1.1.1.1.1.2, h.1.1.1.1.1.2, h.1.1.1.1.2, h.1.1.1.2, h.1.1.2, h.1.2, h.2⟩

/-! ## WellFormed refuses -/

theorem test_wf_refuses_sys : (Instr.sysReset .por).wf = false := by decide
theorem test_wf_refuses_scalar_accesses :
    (Instr.ld t0 1 2 3 true false 0).wf = false ∧ (Instr.ld t0 2 2 2 true true 0).wf = false ∧ (Instr.st t0 1 2 3 false 0).wf = false ∧
      (Instr.fld t0 1 2 1 false 0).wf = false ∧ (Instr.fst t0 1 2 0 false 0).wf = false ∧ (Instr.mld t0 1 2 1 0).wf = false ∧
      (Instr.mst t0 1 2 0 0).wf = false := by decide
theorem test_wf_refuses_special_registers :
    (Instr.mfs t0 1 10).wf = false ∧ (Instr.mts t0 0 1).wf = false ∧ (Instr.mts t0 10 1).wf = false := by decide
theorem test_wf_refuses_repeats : (Instr.rpt t0 1 true 1).wf = false ∧ (Instr.rpti t0 1 true 5).wf = false := by decide
theorem test_wf_refuses_vectors :
    (Instr.vfma t0 .i16 0 1 2).wf = false ∧ (Instr.vadds t0 .f32 0 1 2).wf = false ∧ (Instr.vsubs t0 .f64 0 1 2).wf = false ∧
      (Instr.vmulq t0 .i8 0 1 2).wf = false ∧ (Instr.vext t0 .f64 1 0 4).wf = false ∧ (Instr.vins t0 .f32 0 1 8).wf = false := by decide
set_option maxRecDepth 20000 in
theorem test_wf_refuses_device_commands :
    (Instr.panelScan [0]).wf = false ∧ (Instr.panelScan (List.replicate 12 65536)).wf = false ∧ (Instr.islandReset .fobex 30).wf = false ∧
      (Instr.islandGate .fobex 31).wf = false ∧ (Instr.islandOff .fobex 30).wf = false ∧ (Instr.islandRestart .fobex 31).wf = false ∧
      (Instr.inputFrame 0 (List.replicate 258 (false, false)) false 0).wf = false ∧
      (Instr.slotSelection [(524288, [])]).wf = false ∧ (Instr.verification [(0, [0, 0, 0, 0, 0])]).wf = false ∧
      (Instr.overlayApply [(524288, [])]).wf = false ∧ (Instr.roleInstantiation [(524288, [])]).wf = false ∧
      (Instr.dieOperationComplete ⟨[[0, 0, 0, 0, 0]], false, true⟩).wf = false ∧ (Instr.trimUpdate [0, 0, 0, 0, 0]).wf = false := by decide
theorem test_wf_refuses_long_frames (f : List Byte) (h : 2 ^ 16 ≤ f.length) : (Instr.frameReceive 0 f true false).wf = false :=
  decide_eq_false (by omega)

/-! ## Piers: single steps -/

/-- Table isa-4: ADD wraps modulo 2^32. -/
theorem test_add_wraps : ((after (.add t0 3 1 2) (withG [(1, 0xFFFFFFFF), (2, 3)])).thr t0).rg 3 = 2 := by decide
/-- G0 discards (R72). -/
theorem test_add_g0 : ((after (.add t0 0 1 2) (withG [(1, 5), (2, 3)])).thr t0).rg 0 = 0 := by decide
/-- Table isa-4: SRA by Gt mod 32 copies the sign. -/
theorem test_sra : ((after (.sra t0 3 1 2) (withG [(1, 0x80000000), (2, 33)])).thr t0).rg 3 = 0xC0000000 := by decide
/-- Table isa-4: ADDSAT clamps to 2^31 − 1. -/
theorem test_addsat : ((after (.addsat t0 3 1 2) (withG [(1, 0x7FFFFFFF), (2, 1)])).thr t0).rg 3 = 0x7FFFFFFF := by decide
/-- Table isa-4: CLZ of 0 is 32. -/
theorem test_clz_zero : ((after (.clz t0 3 1) base).thr t0).rg 3 = 32 := by decide
/-- R73: SLTIU compares with the sign-extended immediate. -/
theorem test_sltiu : ((after (.sltiu t0 3 1 0xFFFF) (withG [(1, 0xFFFFFFFE)])).thr t0).rg 3 = 1 := by decide
/-- R75: a taken branch goes to PC + 4 × off16. -/
theorem test_bne : ((after (.bne t0 1 2 3) (withG [(1, 1)])).thr t0).pc = 12 := by decide
/-- R75: JALR to an address that is no multiple of 4 raises ALIGN (0x03) without linking. -/
theorem test_jalr_align :
    ((after (.jalr t0 3 1) (withG [(1, 6), (3, 9)])).thr t0).cause = 3 ∧ ((after (.jalr t0 3 1) (withG [(1, 6), (3, 9)])).thr t0).rg 3 = 9 := by
  decide
/-- R51: the instruction after a MUL reads the old PL. -/
theorem test_mul_pl_old : ((after (.mfpl t0 4) (after (.mul t0 1 2) (withG [(1, 6), (2, 7)]))).thr t0).rg 4 = 0 := by decide
/-- R51: the second instruction after it reads the product. -/
theorem test_mul_pl_new :
    ((after (.mfpl t0 4) (after (.tlinv t0) (after (.mul t0 1 2) (withG [(1, 6), (2, 7)])))).thr t0).rg 4 = 42 := by decide
/-- R82: DIV of −2^31 by −1 yields −2^31. -/
theorem test_div_corner : ((after (.div t0 3 1 2) (withG [(1, 0x80000000), (2, 0xFFFFFFFF)])).thr t0).rg 3 = 0x80000000 := by decide
/-- R50, R82: a divisor of 0 raises DIV_ZERO (0x0D); EPC names the divide. -/
theorem test_div_zero : ((after (.div t0 3 1 2) (withG [(1, 7)])).thr t0).cause = 0x0D := by decide
/-- R106: 1.0 + 2.0 = 3.0 in binary32. -/
theorem test_fadd : ((after (.fadd t0 .s 3 1 2) (base.onThr t0 (fun t => (t.wf 1 0x3F800000).wf 2 0x40000000))).thr t0).rf 3 = 0x40400000 := by
  decide
/-- R111: FLT with a quiet NaN is 0 and raises NV. -/
theorem test_flt_nan : ((after (.flt t0 .s 3 1 2) (base.onThr t0 (fun t => t.wf 1 0x7FC00000))).thr t0).rg 3 = 0 := by decide
/-- Table fp-6: VADDS saturates each signed byte lane. -/
theorem test_vadds :
    ((after (.vadds t0 .i8 2 0 1) (base.onThr t0 (fun t => (t.ww 0 0x7F).ww 1 0x01))).thr t0).rw 2 = 0x7F := by decide
/-- R102: VFMA of an integer type is no instruction: ILLEGAL (0x01). -/
theorem test_vfma_illegal : ((after (.vfma t0 .i16 2 0 1) base).thr t0).cause = 1 := by decide
/-- R76, R77: a byte load extends the sign; a post-increment load takes its address before the increment. -/
theorem test_ld_signed_post :
    let s := (after (.ld t0 3 1 0 false true 4) ((withG [(1, 0x20)]).spadWr 0 0x20 1 0x80)).thr t0
    s.rg 3 = 0xFFFFFF80 ∧ s.rg 1 = 0x24 := by decide
/-- R6: a stored word is little-endian. -/
theorem test_st_bytes : ((after (.st t0 3 1 2 false 0) (withG [(1, 0x20), (3, 0x11223344)])).spadRd 0 0x21 1) = 0x33 := by decide
/-- R55: a load at 0x11000 lies in no region: DSPACE_FAULT (0x04), SUB 1. -/
theorem test_ld_unmapped : ((after (.ld t0 3 1 2 false false 0) (withG [(1, 0x11000)])).thr t0).cause = 0x104 := by decide
/-- R128: OUT of a Task thread without a window raises PRIV (0x02). -/
theorem test_out_priv : ((after (.outIo t0 3 1 0x41) task).thr t0).cause = 2 := by decide
/-- R139: GRET with EXL returns to EPC in the saved mode. -/
theorem test_gret :
    let s := (after (.gret t0) (base.onThr t0 (fun t => { t with epc := 0x40, tstat := 3 }))).thr t0
    s.pc = 0x40 ∧ s.kernel = false ∧ s.exl = false := by decide
/-- R147: EINFO of a BRK is its code. -/
theorem test_brk : ((after (.brk t0 5) base).thr t0).einfo = 5 := by decide
/-- R138: a second cause with EXL stops the thread. -/
theorem test_double : ((after (.brk t0 5) (base.onThr t0 (fun t => t.setMode true true false false))).thr t0).stopReq = true := by decide
/-- R142: GATE with COUNT 0 raises GATE_NUM (0x08), SUB 1. -/
theorem test_gate_num : ((after (.gate t0 0) base).thr t0).cause = 0x108 := by decide
/-- R67: WAIT with nothing pending waits. -/
theorem test_wait : ((after (.wait t0 3) base).thr t0).run = .waiting := by decide
/-- R86: an RPT count of 257 raises REPEAT (0x0C), SUB 1. -/
theorem test_rpt_count : ((after (.rpt t0 0 false 256) base).thr t0).cause = 0x10C := by decide

/-! ## Piers: hypotheses met -/

theorem witness_runs : Runs base t0 := runs_of _ _ (by decide)
theorem witness_pending : (∃ s : State, s.pending = [.gret t0]) ∧ State.reset.pending = [] := ⟨⟨{ base with pending := [.gret t0] }, rfl⟩, rfl⟩

theorem witness_BranchesAndJumpsSetPc :
    Runs (withG [(1, 0xFFFFFFFC), (2, 0xFFFFFFFF)]) t0 ∧ ((((withG [(1, 0xFFFFFFFC), (2, 0xFFFFFFFF)]).thr t0).rg 1).toNat % 4 = 0) ∧
      ((((withG [(1, 0xFFFFFFFC), (2, 0xFFFFFFFF)]).thr t0).rg 2).toNat % 4 ≠ 0) ∧
      ((withG [(1, 0xFFFFFFFC), (2, 0xFFFFFFFF)]).thr t0).exl = false := ⟨runs_of _ _ (by decide), by decide⟩

theorem witness_MultiplyAndDivide :
    Runs (withG [(1, 7), (2, 1)]) t0 ∧ ((withG [(1, 7), (2, 1)]).thr t0).rg 2 ≠ 0 ∧ ((withG [(1, 7), (2, 1)]).thr t0).rg 3 = 0 ∧
      ((withG [(1, 7), (2, 1)]).thr t0).exl = false := ⟨runs_of _ _ (by decide), by decide⟩

theorem witness_DivideCorners :
    Runs (withG [(1, 0x80000000), (2, 0xFFFFFFFF)]) t0 ∧ ((withG [(1, 0x80000000), (2, 0xFFFFFFFF)]).thr t0).rg 1 = 0x80000000 ∧
      ((withG [(1, 0x80000000), (2, 0xFFFFFFFF)]).thr t0).rg 2 = 0xFFFFFFFF ∧
      ((withG [(1, 0x80000000), (2, 0xFFFFFFFF)]).thr t0).rg 3 = 0 ∧
      ((withG [(1, 0x80000000), (2, 0xFFFFFFFF)]).thr t0).exl = false ∧
      ((30 : RegIx) ≠ 30 ∨ ((withG [(1, 0x80000000), (2, 0xFFFFFFFF)]).thr t0).kernel = true) := ⟨runs_of _ _ (by decide), by decide⟩

/-- 3 × 2^−1: exact, so that no direction overflows. -/
theorem witness_RoundingFollowsDirection :
    ∀ rm < 4, (⟨false, 3, -1⟩ : Dy).m ≠ 0 ∧ (FCtx.round ⟨b32, rm, false⟩ ⟨false, 3, -1⟩).flags &&& fOF = 0 ∧
      (FCtx.round ⟨b64, rm, false⟩ ⟨true, 2 ^ 60 + 1, 0⟩).flags &&& fOF = 0 := by decide

theorem witness_VectorInstructionsWriteResults :
    Runs base t0 ∧ (base.thr t0).exl = false ∧ VTy.isF .f64 = true ∧ VTy.isF .i8 = false ∧ (VTy.i8 ≠ .i16) ∧
      (31 : BitVec 5).toNat < VTy.lanes .i8 ∧ (3 : BitVec 5).toNat < VTy.lanes .f64 ∧ VTy.lanes .f64 ≤ (4 : BitVec 5).toNat ∧
      (∀ e ∈ laneRows, ∃ ty, e.2.1 ty = true) := ⟨runs_of _ _ (by decide), by
  refine ⟨by decide, rfl, rfl, by decide, by decide, by decide, by decide, ?_⟩
  intro e he
  fin_cases he
  all_goals first | exact ⟨.f32, rfl⟩ | exact ⟨.i16, rfl⟩⟩

/-- The last word of the scratchpad, the first and the last of the mailbox. -/
theorem witness_LocalAccessesReadAndWrite :
    Runs base t0 ∧ LocalOk base t0 0xFFFC 4 false ∧ LocalOk base t0 0x10000 8 true ∧ LocalOk base t0 0x10FE0 32 true ∧
      eff ((withG [(1, 0xFFFC)]).thr t0) 1 true 4 = 0xFFFC ∧ (2 : BitVec 2) ≠ 3 ∧ 2 ≤ (2 : BitVec 2).toNat ∧
      ¬(true = true ∧ (3 : RegIx) = 1) :=
  ⟨runs_of _ _ (by decide), by unfold LocalOk; decide, by unfold LocalOk; decide, by unfold LocalOk; decide, by decide⟩

/-- The first unmapped byte, an access across the end of the scratchpad, a misaligned Deck word at either end, a Task access. -/
theorem witness_DspaceFaultsAreTaken :
    Runs base t0 ∧ (base.thr t0).exl = false ∧ (base.thr t0).kernel = true ∧
      eff ((withG [(1, 0x11000)]).thr t0) 1 false 0 = 0x11000 ∧ eff ((withG [(1, 0x0FFFFFFF)]).thr t0) 1 false 0 = 0x0FFFFFFF ∧
      (eff ((withG [(1, 0xFFFD)]).thr t0) 1 false 0 < 0x10000 ∧ 0x10000 < eff ((withG [(1, 0xFFFD)]).thr t0) 1 false 0 + 4) ∧
      (0x10000002 % 4 ≠ 0 ∧ 0x10000002 + 4 ≤ 0x10000000 + base.grade.deckBytes) ∧
      (eff ((withG [(1, 0x10000001)]).thr t0) 1 false 1 = 0x10000002) ∧
      Runs task t0 ∧ (task.thr t0).kernel = false ∧ (task.thr t0).exl = false ∧ task.taskFault 0 0x40 4 false = some 0x40 :=
  ⟨runs_of _ _ (by decide), by decide, by decide, by decide, by decide, by decide, by decide, by decide, runs_of _ _ (by decide), by decide,
    by decide, by decide⟩

theorem witness_RemoteAccessesSendRequests :
    Runs base t0 ∧ DeckOk base t0 0x10000000 4 false ∧ DeckOk base t0 (0x10000000 + base.grade.deckBytes - 4) 4 true ∧
      (base.thr t0).stores < 4 ∧ (base.thr t0).stores = 0 ∧ base.niInUse 0 < 40 ∧ (0xFF8 : BitVec 12).toNat % 8 = 0 ∧
      0x100 ≤ (((withG [(1, 0xFFFF)]).thr t0).rg 1).toNat + (0x101 : BitVec 16).toNat - 65536 :=
  ⟨runs_of _ _ (by decide), by unfold DeckOk; decide, by unfold DeckOk; decide, by decide⟩

theorem witness_PierLocalIoCompletes :
    Runs base t0 ∧ (base.thr t0).kernel = true ∧ base.on (Reg.PIER_TRAP_CTL.LOCK 0) = false ∧
      ((((withG [(1, 0xFFFF)]).thr t0).rg 1).toNat + (0x24 : BitVec 16).toNat) % 65536 = 0x23 ∧
      (((base.thr t0).rg 1).toNat + (0x41 : BitVec 16).toNat) % 65536 = 0x41 ∧
      Runs task t0 ∧ (task.thr t0).kernel = false ∧ (task.thr t0).exl = false ∧ task.taskIo 0 0x23 = false :=
  ⟨runs_of _ _ (by decide), by decide, by decide, by decide, by decide, runs_of _ _ (by decide), by decide⟩

/-- Index 0 in every lane: one element, in range. -/
theorem witness_GatherAndScatterLanes :
    LanesOk (withG [(1, 0x10FFC)]) t0 .f32 0 1 false ∧ LanesOk (withG [(1, 0x10FFC)]) t0 .f32 0 1 true ∧ Runs (withG [(1, 0x10FFC)]) t0 :=
  ⟨by unfold LanesOk; decide, by unfold LanesOk; decide, runs_of _ _ (by decide)⟩

/-- The last row of I-space from the last row of the mailbox; one row beyond. -/
theorem witness_IloadCopiesRow :
    Runs (withG [(1, 0x1FFF8), (2, 0x10FF8), (3, 0x1FFFC)]) t0 ∧
      (((withG [(1, 0x1FFF8), (2, 0x10FF8), (3, 0x1FFFC)]).thr t0).kernel = true ∧
      (((withG [(1, 0x1FFF8), (2, 0x10FF8), (3, 0x1FFFC)]).thr t0).rg 1).toNat + 8 = 0x20000 ∧
      (((withG [(1, 0x1FFF8), (2, 0x10FF8), (3, 0x1FFFC)]).thr t0).rg 2).toNat + 8 = 0x11000 ∧
      0x20000 < (((withG [(1, 0x1FFF8), (2, 0x10FF8), (3, 0x1FFFC)]).thr t0).rg 3).toNat + 8 ∧
      ((withG [(1, 0x1FFF8), (2, 0x10FF8), (3, 0x1FFFC)]).thr t0).exl = false) ∧
      (Runs task t0 ∧ (task.thr t0).exl = false ∧ (task.thr t0).kernel = false ∧ ((task.thr t0).rg 1).toNat + 8 ≤ 0x20000) :=
  ⟨runs_of _ _ (by decide), by decide, runs_of _ _ (by decide), by decide⟩

/-- A table of two halfwords at scratchpad 0, its descriptor latched from 0x100; one of two words for TLI. -/
def tableH : TblDesc := ⟨0x100, 2, 0, false, true, 0, 0, 0, 0⟩
def tableS : TblDesc := ⟨0x100, 2, 0, false, false, 0, 0x3F800000, 0, 0⟩

theorem witness_TableLookupsReturnValues :
    UnitTable ((withG [(1, 0x100)]).onThr t0 (fun t => { t with latch := some tableH })) t0 0x100 tableH ∧
      Runs ((withG [(1, 0x100)]).onThr t0 (fun t => { t with latch := some tableH })) t0 ∧
      (((withG [(1, 0x100)]).thr t0).rg 1 = 0x100 ∧ tableS.ytype = false ∧ tableS.illegal false = false ∧ tableS.misaligned = none ∧
        tableS.addr % 8 = 0 ∧ b32.isNaN 0x7FC00001 = true ∧ b32.isSNaN 0x7FC00001 = false) :=
  ⟨⟨by decide, by decide, by decide, by decide, by decide, by decide⟩, runs_of _ _ (by decide), by decide⟩

/-- Gate 0 at scratchpad 0: valid, Kernel mode permitted, no argument; the stack from 0x1000 to 0x2000, G30 at its top. -/
def gated : State :=
  ((((withG [(30, 0x2000)]).wf (Reg.PIER_GATE_COUNT.COUNT 0) 1).spadWr 0 4 4 0x5).wf (Reg.PIER_KSTK_BASE.BASE 0) 0x1000).wf
    (Reg.PIER_KSTK_LIM.LIM 0) 0x2000

theorem witness_GateEntersOrRefuses :
    Runs gated t0 ∧ GateOk gated t0 0 ∧ gated.stackBad 0 (gateSp (gated.thr t0)) = false ∧
      (gated.thr t0).exl = false ∧ ¬((1 : BitVec 8).toNat < min 256 (gated.rf (Reg.PIER_GATE_COUNT.COUNT 0))) ∧
      ((gated.spadWr 0 4 4 0).gateDesc 0 0).invalid = true ∧
      (((gated.spadWr 0 4 4 1).gateDesc 0 0).invalid = false ∧ getBits ((gated.spadWr 0 4 4 1).gateDesc 0 0).ctrl 2 1 = 0) ∧
      GateOk (gated.wf (Reg.PIER_KSTK_BASE.BASE 0) 0x1FF8) t0 0 ∧
      (gated.wf (Reg.PIER_KSTK_BASE.BASE 0) 0x1FF8).stackBad 0 (gateSp (gated.thr t0)) = true :=
  ⟨runs_of _ _ (by decide), ⟨by decide, by decide, by decide, by decide, by decide⟩, by decide, by decide, by decide, by decide, by decide,
    ⟨by decide, by decide, by decide, by decide, by decide⟩, by decide⟩

theorem witness_GretReturns :
    (Runs (base.onThr t0 (fun t => t.setMode true true false false)) t0 ∧
      ((base.onThr t0 (fun t => t.setMode true true false false)).thr t0).kernel = true ∧
      ((base.onThr t0 (fun t => t.setMode true true false false)).thr t0).exl = true) ∧
      ((gated.thr t0).kernel = true ∧ gated.stackBad 0 ((gated.thr t0).rg 30) = true ∧ (gated.thr t0).exl = false) ∧
      ((gated.onThr t0 (fun t => t.wg 30 0x1FF0)).stackBad 0 0x1FF0 = false) ∧ (task.thr t0).kernel = false :=
  ⟨⟨runs_of _ _ (by decide), by decide, by decide⟩, by decide, by decide, by decide⟩

theorem witness_BrkRaisesDebugBreak :
    Runs base t0 ∧ (base.thr t0).exl = false ∧ base.bit (Reg.PIER_DBG_CTL.HALT_BRK 0) 0 = false := ⟨runs_of _ _ (by decide), by decide⟩

/-- A PC beyond I-space, the word 0xFFFFFFFF at PC 0, and a single step due after a legal word. -/
theorem witness_ExceptionEntryAndDoubleException :
    (base.clocked 0 = true ∧ (base.thr t0).run = .running ∧ (base.thr t0).acc = none ∧ (base.thr t0).stopReq = false ∧
      (base.thr t0).rep = none ∧ (base.thr t0).tpend = 0 ∧ (base.thr t0).defErrs = [] ∧ (base.thr t0).exl = false) ∧
      (0x1FFFC < ((base.onThr t0 (fun t => { t with pc := 0x20000 })).thr t0).pc.toNat) ∧
      (pierLegal (({ base with ispace := setBytes [] 0 4 0xFFFFFFFF } : State).ifetch 0 0) = false) ∧
      (pierLegal (base.ifetch 0 0) = true ∧
        (base.onThr t0 (fun t => { t with stepDue := some 0x40 })).asyncDue t0 = some (.mk' cStep 0 0x40) ∧
        base.haltSelected t0 (.mk' cStep 0 0x40) = false) ∧
      (Runs (base.onThr t0 (fun t => t.setMode true true false false)) t0 ∧
        ((base.onThr t0 (fun t => t.setMode true true false false)).thr t0).exl = true) :=
  ⟨by decide, by decide, by decide, by decide, runs_of _ _ (by decide), by decide⟩

theorem witness_SpecialRegisterMoves :
    Runs base t0 ∧ Runs task t0 ∧ (base.thr t0).kernel = true ∧ (base.thr t0).viaGret = false ∧ (base.thr t0).exl = false ∧
      (task.thr t0).kernel = false ∧ (task.thr t0).viaGret = false ∧ (task.thr t0).exl = false ∧ (9 : BitVec 11).toNat < 10 ∧
      (∀ e ∈ specialRows, ∃ sr : BitVec 11, sr.toNat = e.1) := ⟨runs_of _ _ (by decide), runs_of _ _ (by decide), by decide, by decide, by decide,
  by decide, by decide, by decide, by decide, by
    intro e he
    refine ⟨BitVec.ofNat 11 e.1, ?_⟩
    fin_cases he <;> rfl⟩

/-- Event 63 alone pending and awaited; nothing pending. -/
theorem witness_WaitTakesLowestEvent :
    (let s := (base.wf (Reg.PIER_EVPEND_HI.PEND 0) 0x80000000).wf (Reg.PIER_EVMASK_HI.MASK 0 0) 0x80000000;
      runsB s t0 = true ∧ s.evPending 0 63 = true ∧ s.evMask 0 0 63 = true ∧
      ∀ e' < 63, ¬(s.evPending 0 e' = true ∧ s.evMask 0 0 e' = true)) ∧
      (∀ e < 64, ¬(base.evPending 0 e = true ∧ base.evMask 0 0 e = true)) := ⟨by decide, by decide⟩

/-- ADD G0, G0, G0 (the word 0) after the prefix, once and 256 or 65,536 times; counts 0, 257 and 65,537; BEQ, not repeatable. -/
theorem witness_RepeatPrefixesCount :
    Runs base t0 ∧ (base.thr t0).viaGret = false ∧ ((base.thr t0).pc + 4).toNat ≤ 0x1FFFC ∧ (base.thr t0).exl = false ∧
      pierRepeatable (base.ifetch 0 4) = true ∧ ((0 : BitVec 16).toNat + 1 = 1 ∧ (255 : BitVec 16).toNat + 1 = 256 ∧
      (65535 : BitVec 16).toNat + 1 = 65536 ∧ (256 : BitVec 16).toNat + 1 = 257) ∧
      ((withG [(1, 0x10001)]).thr t0).rg 1 = 65537 ∧
      pierRepeatable (({ base with ispace := setBytes [] 4 4 0x40000000 } : State).ifetch 0 4) = false :=
  ⟨runs_of _ _ (by decide), by decide⟩

theorem witness_ThreadControlRegisters :
    State.reset.online 0 = true ∧ (State.reset.thr t0).run = .stopped ∧ (∀ u : Fin 8, u ≠ 0 → (State.reset.thr ⟨0, u⟩).run = .stopped) ∧
      (base.thr t0).run = .running ∧
      (let s := base.onThr t0 (fun t => { t with stopReq := true });
        (s.thr t0).run = .running ∧ (s.thr t0).stopReq = true ∧ (s.thr t0).acc = none ∧ (s.thr t0).stores = 0 ∧ (s.thr t0).rep = none) := by
  decide

/-! ## Spans: a job whose one group adds two streams of two words into a third that begins one word past the first -/

/-- An instruction word: OPC, CT, D, A, B and MOD, the other operands none (Table job-1). -/
def spanWord (opc ct d a b md : Nat) : DWord :=
  BitVec.ofNat 64 (opc * 2 ^ 56 + ct * 2 ^ 52 + d * 2 ^ 42 + a * 2 ^ 36 + b * 2 ^ 30 + 63 * 2 ^ 24 + 63 * 2 ^ 18 + md)
/-- A stream descriptor of words (Table span-1): BASE, STRIDE 1, LENGTH with TYPE i32. -/
def sdWords (base len : Nat) : List Word := [BitVec.ofNat 32 base, 1, BitVec.ofNat 32 (len + 2 * 2 ^ 24), 0, 0, 0, 0, 0]
/-- A job descriptor: PROG, SDT, STATUS, and zeros (Table job-8). -/
def jobDesc : List Word := [0x1000, 0x2000, 0x3000, 0] ++ List.replicate 12 0
/-- A job at its first instruction, its destination of `n` elements. -/
def sJob (n : Nat) : SJob :=
  ⟨0, jobDesc, sdWords 0x4000 n ++ sdWords 0x3FFC 2 ++ sdWords 0x5000 2, false, 0, [], [], false, none, 0, false, 0, false, false, none⟩
/-- Span 0 about to begin its job: one instruction `w` and VEND. -/
def spanAt (w : DWord) (n : Nat) : State :=
  ((base.deckPoke 0x1000 8 w.toNat).deckPoke 0x1008 8 vendWord.toNat).setSpan 0 (some (sJob n))
/-- VIADD of the two streams. -/
def addJob : State := spanAt (spanWord 0x21 2 0 1 2 0) 2
/-- VRSUM of the second over one segment. -/
def sumJob : State := spanAt (spanWord 0x50 2 0 2 63 31) 1
/-- Its group begun. -/
def begun : State := after (.groupStart 0) addJob
/-- Elements of the first group: stream `u`, element `k`, returned and checked. -/
def loadedAt (s : State) (u : Fin 3) (k : Nat) : State := after (.conflictCheck 0 0 u k) (after (.elementLoadReturn 0 0 u k .none .none 0) s)
/-- Element 1 of the first stream returned before element 0 is stored: it conflicts. -/
def early : State := after (.elementLoadReturn 0 0 0 1 .none .none 0) begun
/-- Element 0, its beat cut short by that squash, ready to compute. -/
def ready0 (s : State) : State := loadedAt (loadedAt (after (.conflictCheck 0 0 0 1) (after (.elementLoadReturn 0 0 0 1 .none .none 0) s)) 0 0) 1 0
def readyAdd : State := ready0 begun
/-- Both elements of VRSUM's only beat returned and checked. -/
def readySum : State := after (.conflictCheck 0 0 0 1) (loadedAt (after (.groupStart 0) sumJob) 0 0)
def theJob (s : State) : SJob := (s.running 0).getD (sJob 0)
def theGroup (s : State) : SGroup := (theJob s).groups.headD ⟨0, [], 0, 0, 0, [], [], none, [], SRed.start, 0, none, false⟩

/-- R160, R185: the element is the sum of its sources, stored at the group's end. -/
theorem test_span_viadd :
    (theJob (after (.viadd 0) (ready0 (after (.groupStart 0) ((addJob.deckPoke 0x3FFC 4 5).deckPoke 0x5000 4 7))))).stores =
      [⟨0, 0, 0x4000, 4, 12⟩] := by decide
/-- R168, R169: a load that overlaps an uncommitted store is squashed and counted. -/
theorem test_span_replay : (after (.conflictCheck 0 0 0 1) early).rf (Reg.SPAN_REPLAY_CNT.COUNT 0) = 1 := by decide
/-- R202: VEND with nothing in flight ends the job DONE (1). -/
theorem test_span_vend :
    ((after (.vend 0) (addJob.setSpan 0 (some { sJob 2 with next := 1 }))).span 0).bind SJob.ended = some (1, 0, 1, 0, false) := by decide

theorem witness_SpanOperationsComputeElements :
    readyAdd.running 0 = some (theJob readyAdd) ∧ (theJob readyAdd).at 0x21 = some (theGroup readyAdd, SIns.parse (spanWord 0x21 2 0 1 2 0)) ∧
      (theGroup readyAdd).pos + 1 = (theGroup readyAdd).ins.length ∧
      (theGroup readyAdd).target (theJob readyAdd).sdt (groupStreams (theJob readyAdd).sdt (theGroup readyAdd).sins) = some (0x4000, 4) := by decide

/-- Element 0 of VRSUM ends no segment; with one element taken, element 1 ends it. -/
theorem witness_SpanReductions :
    (let s := readySum; let g := theGroup s; let j := theJob s;
      s.running 0 = some j ∧ j.at 0x50 = some (g, g.fin) ∧ g.pos + 1 = g.ins.length ∧ jFen j.desc = 0 ∧ segEnd g.fin.segsh g.nxt g.n = false) ∧
      (let s := after (.vrsum 0) readySum; let g := theGroup s; let j := theJob s;
        s.running 0 = some j ∧ j.at 0x50 = some (g, g.fin) ∧ segEnd g.fin.segsh g.nxt g.n = true ∧
        g.active j.sdt (groupStreams j.sdt g.sins) .smask g.fin.d g.results = some true ∧ g.maskFault (groupStreams j.sdt g.sins) = none) ∧
      (∀ v, some v ∈ [some 3, none, some 0xFFFFFFFF] → v < 2 ^ 32) ∧ (some 3 ∈ [some 3, none, some 0xFFFFFFFF]) := by
  refine ⟨by decide, by decide, ?_, by decide⟩
  intro v hv
  simp at hv
  omega

set_option maxRecDepth 20000 in
theorem witness_SpanGroupsLoadAndCheck :
    (addJob.running 0 = some (sJob 2) ∧ (sJob 2).groups = [] ∧ addJob.groupBusy (sJob 2) = false ∧
      (addJob.spanFetch 0 0x1000 0 addJob.groupFuel).1 = ([spanWord 0x21 2 0 1 2 0], 0) ∧ [spanWord 0x21 2 0 1 2 0] ≠ [vendWord] ∧
      groupCheck .sx16 (sJob 2).sdt [spanWord 0x21 2 0 1 2 0] = 0 ∧
      groupType (sJob 2).sdt [SIns.parse (spanWord 0x21 2 0 1 2 0)] none = false ∧
      [SIns.parse (spanWord 0x21 2 0 1 2 0)].find? SIns.isXlu = none ∧ groupLens (sJob 2).sdt [SIns.parse (spanWord 0x21 2 0 1 2 0)] = [2, 2, 2]) ∧
      (let g := theGroup begun; let j := theJob begun; let ss := groupStreams j.sdt g.sins;
        begun.running 0 = some j ∧ j.groups[0]? = some g ∧ g.nxt < g.n ∧
        (∃ r, ss[0]? = some r ∧ g.request j.sdt ss r 1 = some (some 0x4000) ∧ j.canLoad g ss 0 r 1 = true ∧ j.wordBusy 0x4000 = false ∧ begun.quarterBusy 0x4000 = false)) ∧
      (let g := theGroup (after (.elementLoadReturn 0 0 0 0 .none .none 0) begun); let j := theJob (after (.elementLoadReturn 0 0 0 0 .none .none 0) begun);
        g.gotAt 0 0 = some ⟨0, 0, false, false⟩ ∧ j.groups[0]? = some g) ∧
      (let g := theGroup early; let j := theJob early;
        g.gotAt 0 1 = some ⟨0, 0, true, false⟩ ∧ j.groups[0]? = some g) ∧
      (let s := after (.storeAcknowledgement 0 .none .none 0) (after (.viadd 0) readyAdd);
        ∃ p, (theGroup s).replay = some p ∧ (theJob s).conflict (theGroup s).first p.1 (p.2.1 : Int) p.2.2 = false) := by
  refine ⟨by decide, ⟨by decide, by decide, by decide, ⟨_, rfl, by decide, by decide, by decide, by decide⟩⟩, by decide, by decide, ?_⟩
  exact ⟨(1, 0x4000, 4), by decide, by decide⟩

/-- A store waiting; a fault of the oldest group; VEND next; aborting and drained; ended. -/
def endedJob : SJob := { sJob 2 with ended := some (1, 0, 1, 0, false) }
set_option maxRecDepth 20000 in
theorem witness_SpanJobsEndAndControl :
    (let s := after (.viadd 0) readyAdd; s.span 0 = some (theJob s) ∧ (theJob s).ended = none ∧
      (∃ x rest, (theJob s).stores = x :: rest ∧ s.quarterBusy x.off = false ∧ (theJob s).beatDone x = true ∧
        ((s.noteRemote 0 x.off 0).spanStore 0 (x.off / 8) ((theJob s).storesWith x |>.map (fun y => (y.off, y.size, y.v))) .none .none).1 = 0)) ∧
      (∃ g f, ({ sJob 2 with groups := [{ theGroup begun with fault := some (0xE, none) }] } : SJob).groups = [g] ∧ g.fault = some f) ∧
      (addJob.rangeBusy 0x1008 8 = false ∧ (addJob.spanFetch 0 0x1000 1 1).1 = ([vendWord], 0)) ∧
      (({ sJob 2 with aborting := true } : SJob).ended = none ∧ ({ sJob 2 with aborting := true } : SJob).stores = []) ∧
      (endedJob.slot < 256 ∧ (∀ k < 256, (addJob.slot k).st ≠ .waiting) ∧ jStatus endedJob.desc % 16 = 0 ∧
        deckQuarter (jStatus endedJob.desc) = 0 ∧ addJob.rangeBusy (jStatus endedJob.desc) 16 = false) ∧ base.span 0 = none ∧ addJob.span 0 ≠ none := by
  refine ⟨⟨by decide, by decide, _, _, rfl, by decide, by decide, by decide⟩, ⟨_, _, rfl, rfl⟩, by decide, by decide, by decide, by decide, by decide⟩

/-- A good descriptor at Deck offset 0x2000 × 64 bytes and the last aligned offset of the Deck. -/
def submitted : State := (base.deckPoke 0x40 4 0x1000).deckPoke 0x44 4 0x2000
set_option maxRecDepth 20000 in
theorem witness_SubmissionsAndAborts :
    (submitted.submitWaits 0x40 = false ∧ (0x40 : Word).toNat % 64 = 0 ∧ (0x40 : Word).toNat < submitted.grade.deckBytes ∧
      (submitted.dispRead 0x40 8).1 = some ([0x1000, 0x2000] ++ List.replicate 14 0) ∧
      jBad submitted.grade ([0x1000, 0x2000] ++ List.replicate 14 0) = false ∧
      (submitted.dispRead 0x40 8).2.spansFor ([0x1000, 0x2000] ++ List.replicate 14 0) ≠ [] ∧ (submitted.dispRead 0x40 8).2.freeSlot = some 0) ∧
      (let s := after (.jobSubmission (.pier t0) 0x40) submitted; s.abortable 0 = true ∧ s.abortWaits [0] = false ∧ (s.slot 0).st = .ready ∧ s.abortable 1 = false) ∧
      (base.abortWaits [0] = false ∧ ∀ k ∈ [(0 : BitVec 8).toNat], base.abortable k = false) := by decide

/-! ## The networks -/

/-- Thread 0 with a Deck load on its way; the same with a posted Deck store; an OUT and an IN of global registers. -/
def loading : State := after (.ld t0 3 1 2 true false 0) (withG [(1, 0x10000000)])
def storing : State := after (.st t0 3 1 2 false 0) (withG [(1, 0x10000000), (3, 0x11223344)])
def reading : State := after (.inIo t0 3 1 0x2000) base
/-- The newest request. -/
def theReq (s : State) : Req := s.net.reqs.getLastD ⟨0, .access t0, .ioRd 0, 0, 0, 0, 0, 0, false, 0, 0, none, false, false, false, .away, false⟩
/-- Quarter 0's shell OFFLINE. -/
def noQ0 (s : State) : State := s.setShell 16 { s.shell 16 with st := .offline }

/-- R208: a Deck load's data reach the destination, little-endian. -/
theorem test_deck_load : ((after (.readResponse 0 .none) (after (.rd 0 .none 0) (loading.deckPoke 0 4 0x11223344))).thr t0).rg 3 = 0x11223344 := by decide
/-- R250: an island that is not ONLINE answers OFFLINE: IO_ERROR (0x06), SUB 1. -/
theorem test_deck_offline : ((after (.errorResponse 0 .none) (after (.rd 0 .none 0) (noQ0 loading))).thr t0).cause = 0x106 := by decide
/-- R46: a posted store is acknowledged and no longer counts. -/
theorem test_posted_store :
    let s := after (.writeAcknowledgement 0 .none) (after (.wrInline 0 .none 0) storing)
    (storing.thr t0).stores = 1 ∧ (s.thr t0).stores = 0 ∧ s.deckPeek 0 4 = 0x11223344 := by decide
/-- R212: an initialised quarter reads as its pattern. -/
theorem test_deck_init : (after (.deckInitStart 1) (base.setReg (Reg.DECK_INIT_PAT_at 1) 0xA5A5A5A5)).deckPeek 0x800004 4 = 0xA5A5A5A5 := by
  decide

/-- Request `r` at its destination, brought there. -/
def brought (s : State) : State := s.bring ((theReq s).id, false)
/-- A second load of another thread, behind the first. -/
def doubled : State := after (.ld ⟨0, 1⟩ 3 1 2 true false 0)
  (((loading.onThr ⟨0, 1⟩ (fun t => { t with run := .running })).onThr ⟨0, 1⟩ (fun t => t.wg 1 0x10000000)))

set_option maxRecDepth 20000 in
theorem witness_ArrivingRequestsAreServed :
    (OnItsWay loading (theReq loading) ∧ (theReq loading).place = .away ∧ (brought loading).req 0 = some { theReq loading with place := .core 1 }) ∧
      (OnItsWay storing (theReq storing) ∧ (theReq storing).op.island = some 16 ∧ OnItsWay reading (theReq reading)) ∧
      (let s := brought doubled; OnItsWay s (theReq s) ∧ (theReq s).place = .core 2 ∧ earlier s.net.reqs (theReq s) = true ∧
        earlier loading.net.reqs (theReq loading) = false) ∧
      ((theReq storing).bad (.flits 0) = true ∧ (theReq storing).bad .none = false) ∧
      ((brought (noQ0 loading)).req 0 = some { theReq loading with place := .shell }) ∧
      (loading.mustWait (theReq loading).op = false ∧ loading.bankTaken (theReq loading) 0 = false) := by
  unfold OnItsWay; decide

/-- The response of request 0, brought back to its shell. -/
def home (s : State) : State := s.bring (0, true)
/-- A load answered, one answered OFFLINE; a posted store answered, one answered OFFLINE; each at its shell. -/
def loaded0 : State := home (after (.rd 0 .none 0) loading)
def failed0 : State := home (after (.rd 0 .none 0) (noQ0 loading))
def stored0 : State := home (after (.wrInline 0 .none 0) storing)
def failed1 : State := home (after (.wrInline 0 .none 0) (noQ0 storing))
/-- The answered load after its shell's generation moved on; its tag STALE, a request waiting for a tag behind it. -/
def late0 : State := loaded0.setShell 0 { State.reset.shell 0 with gen := 1 }
def stale0 : State := { loaded0 with net := { loaded0.net with
  reqs := [{ theReq loaded0 with stale := true }, { theReq loaded0 with id := 1, resp := none, back := false, held := true, sent := false }] } }

/-- Data for a load, an error for it, an acknowledgement and an error for a store, a stale tag, a malformed response, a freed tag. -/
theorem witness_ResponsesEndAccesses :
    (Answered loaded0 (theReq loaded0) (.data 0) ∧ (theReq loaded0).who = .access t0 ∧
      (∃ a, Waits loaded0 t0 a ∧ ∀ rd k sg, a.kind = .loadG rd k sg → 0 < 256 ^ k) ∧ (loaded0.thr t0).exl = false ∧ (loaded0.thr t0).defErrs = []) ∧
      (Answered failed0 (theReq failed0) (.err .offline)) ∧
      (Answered stored0 (theReq stored0) (.ack 0) ∧ (theReq stored0).who = .store t0 0x10000000) ∧
      (Answered failed1 (theReq failed1) (.err .offline)) ∧
      (late0.req 0 = some (theReq late0) ∧ (theReq late0).back = true ∧ (theReq late0).sent = true ∧ (theReq late0).gen ≠ (late0.shell 0).gen) ∧
      (loaded0.backBad (theReq loaded0) (.data 0) (.flip 0 38) = true) ∧
      ((after (.rd 0 .none 0) loading).req 0 = some { theReq loaded0 with back := false }) ∧
      (stale0.req 0 = some { theReq loaded0 with stale := true } ∧ stale0.online 0 = true ∧
        (stale0.dropReq 0).tagFree (theReq stale0).ni 0 = true ∧
        stale0.net.reqs.filter (fun y => y.id != 0) = [] ++ theReq stale0 :: []) := by
  refine ⟨⟨by unfold Answered; decide, by decide, ⟨_, ⟨rfl, by decide, by decide, by decide⟩, ?_⟩, by decide, by decide⟩, by unfold Answered; decide,
    ⟨by unfold Answered; decide, by decide⟩, by unfold Answered; decide, by decide, by decide, by decide, by decide⟩
  intro _ k _ _
  exact Nat.pow_pos (by decide)

theorem witness_TimeoutsAndQuiesceEnd :
    (storing.req (theReq storing).id = some (theReq storing) ∧ (theReq storing).sent = true ∧ (theReq storing).stale = false ∧
      (theReq storing).back = false ∧ (theReq storing).who = .store t0 0x10000000) ∧
      (loading.req (theReq loading).id = some (theReq loading) ∧ (theReq loading).sent = true ∧ (theReq loading).stale = false ∧
        (theReq loading).back = false ∧ (theReq loading).who = .access t0 ∧ (loading.thr t0).exl = false ∧ (loading.thr t0).defErrs = []) ∧
      (∃ a, Waits loading t0 a) ∧
      (let s := storing.setShell 0 { State.reset.shell 0 with st := .quiesce }; (s.shell 0).st = .quiesce ∧
        ∀ r ∈ s.net.reqs, r.isl = 0 → r.who = .store t0 0x10000000) ∧
      (let s := (brought storing).setShell 16 { State.reset.shell 16 with st := .quiesce }; (s.shell 16).st = .quiesce ∧
        (theReq s).accepted 16 = true ∧ s.req 0 = some (theReq s)) ∧
      (let s := base.setShell 0 { State.reset.shell 0 with st := .quiesce }; (s.shell 0).st = .quiesce ∧ 0 ∈ s.openNis 0 ∧ s.niQuiet 0 0 = true) :=
  ⟨by decide, by decide, ⟨_, ⟨rfl, by decide, by decide, by decide⟩⟩, by decide, by decide, by decide⟩

/-- Event 63 in flight with no pier, and with pier 0, accepting it; a thermal cause; two SPAN_FAULT deliveries. -/
def eventful : State := { (State.reset.wf (Reg.PIER_EVTRAP_HI.MASK 0 0) 0x80000000) with
  net := { State.reset.net with events := [63], causes := [(.thermal, 5, 0)], spanFaults := [(t0, 7)] } }
theorem witness_BroadcastsReachPiers :
    eventful.net.events[0]? = some 63 ∧ (∀ u : Fin 8, (eventful.thr ⟨0, u⟩).run ≠ .waiting) ∧ eventful.accepts 0 63 = true ∧
      eventful.online 0 = true ∧ eventful.accepts 1 63 = false ∧ (eventful.setEvPending 0 63 true).evPending 0 63 = true ∧
      eventful.net.causes[0]? = some (.thermal, 5, 0) ∧
      getBits ((eventful.wf (Reg.PIER_SYSMASK.THM 0) 1).reg (Reg.PIER_SYSMASK_at 0)) 16 1 = 1 ∧
      eventful.net.spanFaults[0]? = some (t0, 7) ∧ eventful.bit (Reg.PIER_SPF.PEND 0) 0 = false ∧
      (eventful.setBit (Reg.PIER_SPF.PEND 0) 0 true).bit (Reg.PIER_SPF.PEND 0) 0 = true := by decide

theorem witness_waiting_none : ∀ u : Thr, (eventful.thr u).run ≠ .waiting := by
  intro u
  have h : eventful.thr u = Thread.reset u.ix := rfl
  rw [h]
  show RunState.stopped ≠ RunState.waiting
  decide

/-! ## Deck and DMA -/

theorem witness_DeckInitialisationAndErrors :
    (∀ q : QIx, q.val < 2 → base.online (16 + q.val) = true ∧ base.on (Reg.DECK_STATUS.INIT_BUSY q.val) = false) ∧
      (after (.deckInitStart 0) base).on (Reg.DECK_STATUS.INIT_BUSY 0) = true ∧
      (let s : State := { base with scrubs := [0xFFFFF, 0x100000] }; (0xFFFFF ∈ s.scrubs) ∧ 0xFFFFF / 0x100000 = 0 ∧ 0x100000 / 0x100000 = 1 ∧
        s.on (Reg.DECK_STATUS.INIT_BUSY 0) = false ∧ s.on (Reg.DECK_STATUS.INIT_BUSY 1) = false ∧ s.rf (Reg.DECK_ECC_INJ.MODE 0) = 0 ∧
        ((s.wf (Reg.DECK_ECC_INJ.MODE 0) 2).wf (Reg.DECK_ECC_INJ.WORD 0) 0xFFFFF).rf (Reg.DECK_ECC_INJ.WORD 0) = 0xFFFFF) ∧
      (getBits (3 : Word) 0 2 = 3 ∧ (getBits (0x800001 : Word) 0 2 = 1 ∧ getBits (0x800001 : Word) 3 22 / 0x100000 = 1) ∧
        (getBits (0x7FFFFA : Word) 0 2 = 2 ∧ getBits (0x7FFFFA : Word) 3 22 / 0x100000 = 0) ∧ getBits (0 : Word) 0 2 = 0) := by decide

/-- A channel IDLE with its descriptor within the Deck and beyond; RUNNING; STOPPING and drained. -/
def dmaUp : State := base
theorem witness_DmaChannelsStartAndStop :
    dmaUp.dmaState 0 = 0 ∧ dmaUp.rf (Reg.DMA_CH_DESC.ADDR 0) / 32 * 32 < dmaUp.grade.deckBytes ∧
      dmaUp.grade.deckBytes ≤ (dmaUp.wf (Reg.DMA_CH_DESC.ADDR 0) 0xFFFFFFE0).rf (Reg.DMA_CH_DESC.ADDR 0) / 32 * 32 ∧
      (after (.dmaStart 0 false false) dmaUp).dmaState 0 ≠ 0 ∧
      (let s := after (.dmaStop 0 false) (after (.dmaStart 0 false false) dmaUp); s.dmaState 0 = 2 ∧ (s.dmaCh 0).got = [] ∧
        ∀ r ∈ s.net.reqs, r.ofDma 0 (s.dmaCh 0).epoch = none) := by decide

/-- Descriptors (Table deck-4): 8 bytes within the Deck; a reserved bit; kinds 5; a misaligned source; a source beyond the Deck. -/
def descWait (v : Nat) : State := home (after (.rd 0 .none 0) ((after (.dmaStart 0 false false) dmaUp).deckPoke 0 32 v))
set_option maxRecDepth 20000 in
theorem witness_DescriptorsAreChecked :
    (let s := descWait (8 * 2 ^ 64); Answered s (theReq s) (.data (8 * 2 ^ 64)) ∧ (theReq s).who = .dmaDesc 0 1 ∧ (s.dmaCh 0).epoch = 1 ∧
      s.dmaState 0 = 1 ∧ (s.dmaCh 0).cur = none) ∧ Answered (descWait (2 ^ 88)) (theReq (descWait (2 ^ 88))) (.data (2 ^ 88)) ∧
      (dmaUp.checkDesc (2 ^ 88) = 1 ∧ dmaUp.checkDesc (5 * 2 ^ 96 + 8 * 2 ^ 64) ≠ 0 ∧ dmaUp.checkDesc (8 * 2 ^ 64 + 4) = 3 ∧
        dmaUp.checkDesc (8 * 2 ^ 64 + 0x7FFFFFF8) = 4 ∧ dmaUp.checkDesc (8 * 2 ^ 64) = 0 ∧ (parseDesc (8 * 2 ^ 64)).len ≠ 0 ∧
        (parseDesc (8 * 2 ^ 64)).chain = false) :=
  ⟨⟨by unfold Answered; decide, by decide⟩, by unfold Answered; decide, by decide⟩

/-! ## Registers and routes -/

theorem witness_RegisterFieldsFollowTheirCodes :
    regRow 0x27FF = none ∧ (base.reaches 0x2000 = true ∧ base.reaches 0x28FF = true ∨ base.reaches 0x2803 = true) ∧
      base.on Reg.VIA_CTL.LOCK = false ∧ (base.wf Reg.VIA_CTL.LOCK 1).on Reg.VIA_CTL.LOCK = true ∧
      (∃ f ∈ fieldsAt 0x2803, f.acc = .rwl) ∧ regRow 0x2000 ≠ none ∧ 0x2803 ≠ Reg.VIA_RT_SEL_at ∧ 0x2803 ≠ Reg.VIA_STATUS_at := by decide

/-- VIA_RT_SEL of an Lattice NI, of the last Trestle entry and beyond it; VIA_RT_DATA over each NI kind. -/
def selNi (n e : Nat) : State := (base.wf Reg.VIA_RT_SEL.NI n).wf Reg.VIA_RT_SEL.ENTRY e
theorem witness_RouteEntriesAreValidated :
    base.online islRing = true ∧ niPresent .sx16 31 = true ∧ niPresent .sx16 32 = true ∧ (32 < 32 ∨ 23 < 24) ∧ ¬((33 : Nat) < 32 ∨ 24 < 24) ∧
      base.on Reg.VIA_CTL.LOCK = false ∧ (base.wf Reg.VIA_CTL.LOCK 1).on Reg.VIA_CTL.LOCK = true ∧
      base.on Reg.VIA_STATUS.SEL_REFUSED = false ∧ (selNi 32 1).rf Reg.VIA_RT_SEL.NI = 32 ∧
      (validateRoute .sx16 0 2 (bootRoute .sx16 0 2) = 0 ∧ (bootRoute .sx16 0 2).getLsbD 31 = true) ∧
      validateRoute .sx16 32 1 0x80000030 ≠ 0 ∧ validateRoute .sx16 0 2 0x80000000 = 1 ∧ (0 : Word).getLsbD 31 = false := by decide

/-! ## Islands and PLLs -/

/-- The SPLL LOCKED at OP1, no hop in progress. -/
def locked : State := { base with spll := { base.spll with phase := .idle } }.wf Reg.SPLL_STATUS.STATE 1 |>.wf Reg.SPLL_STATUS.OP 1 |>.wf Reg.IOPLL_STATUS.REF_ABSENT 0
/-- The same with firmware hops permitted. -/
def fwhop : State := locked.wf Reg.SPLL_CTL.FWHOP 1
/-- REFCLK absent. -/
def absent (s : State) : State := s.wf Reg.IOPLL_STATUS.REF_ABSENT 1

/-- Table clk-5: GATE of an ONLINE island begins its quiesce. -/
theorem test_island_gate : ((after (.islandGate .keystone 3) base).shell 3).st = .quiesce := by decide
/-- R287: an action from the Fobex engine is refused with SOURCE (14). -/
theorem test_island_fobex : (after (.islandReset .fobex 3) base).rf Reg.IOPLL_REFUSE_INFO.REASON = 14 := by decide
/-- R270: 57 cycles in a window of 64 ± 6 is absence. -/
theorem test_ref_absent :
    (after (.refclkMonitorWindow 57) locked).on Reg.IOPLL_STATUS.REF_ABSENT = true ∧
      (after (.refclkMonitorWindow 58) locked).on Reg.IOPLL_STATUS.REF_ABSENT = false := by decide
/-- R281: a hop to another point starts: STATE is HOPPING (2). -/
theorem test_hop : (after (.hopRequest .keystone 2) fwhop).spState = 2 := by decide

theorem witness_IslandActions :
    base.aonUp = true ∧ ({ base with grade := .sx4 } : State).grade.hasIsland 4 = false ∧ base.grade.hasIsland 3 = true ∧ base.islState 3 = 0 ∧ (base.shell 3).st = .online ∧
      (islFlash ≠ 3 ∧ (29 : Nat) < 30) ∧ (base.wf (Reg.IOPLL_ISL.STATE 3) 1).islState 3 = 1 ∧
      (base.wf (Reg.IOPLL_ISL.STATE 3) 5).islState 3 = 5 ∧ (base.wf (Reg.IOPLL_ISL.STATE 3) 4).islState 3 = 4 ∧
      base.islState islConv = 3 ∧ base.on Reg.CPLL_STATUS.LOCK = false ∧ (base.wf Reg.CPLL_STATUS.LOCK 1).on Reg.CPLL_STATUS.LOCK = true ∧
      base.grade.hasIsland 17 = true ∧ base.islState 17 = 0 ∧ base.span 1 = none ∧
      (let s := base.setShell 3 { State.reset.shell 3 with st := .offline, action := some .off }; (s.shell 3).st = .offline ∧
        (s.shell 3).action = some .off ∧ s.net.reqs = []) ∧
      (getBits (0x30 : Word) 4 2 = 3 ∧ base.flcBusy = true ∧ (base.wf Reg.FLC_STATUS.INIT 0).flcBusy = false) := by decide

theorem witness_ClockWindowsDeclareLock :
    locked.on Reg.IOPLL_STATUS.REF_ABSENT = false ∧ locked.spll.phase = .idle ∧ locked.spState = 1 ∧
      (absent locked).on Reg.IOPLL_STATUS.REF_ABSENT = true ∧ (absent locked).spll.refGood = 0 ∧
      ({ absent locked with spll := { locked.spll with refGood := 1 } } : State).spll.refGood ≠ 0 ∧ ¬(57 ≥ 58 ∧ 57 ≤ 70) ∧ (58 ≤ 58 ∧ 70 ≤ 70) ∧
      (locked.wf Reg.IOPLL_STATUS.IOPLL_LOCK 1).on Reg.IOPLL_STATUS.IOPLL_LOCK = true ∧ locked.on Reg.IOPLL_STATUS.IOPLL_LOCK = false ∧
      (let w := locked.spll.ioWin
       inWin w.1 w.1 8 ∧ inWin (w.1 + 8) w.1 8 ∧ ¬inWin (w.1 + 9) w.1 8 ∧ inWin (w.1 + w.2) w.1 w.2 ∧ ¬inWin (w.1 + w.2 + 1) w.1 w.2) ∧
      locked.spll.ioGood = 0 ∧ ((locked.wf Reg.CPLL_CTL.EN 1).wf Reg.CPLL_STATUS.LOCK 1).on Reg.CPLL_STATUS.LOCK = true ∧
      (locked.wf Reg.CPLL_CTL.EN 1).on Reg.CPLL_CTL.EN = true := by
  unfold inWin; decide

theorem witness_SpllHopsAndSearches :
    locked.on Reg.SPLL_CTL.FWHOP = false ∧ fwhop.on Reg.SPLL_CTL.FWHOP = true ∧ fwhop.spll.queue = none ∧
      ({ fwhop with spll := { fwhop.spll with queue := some 2 } } : State).spll.queue ≠ none ∧
      (fwhop.spState ≠ 4 ∧ (1 : OpIx).val = fwhop.rf Reg.SPLL_STATUS.OP) ∧ ¬(fwhop.spState ≠ 4 ∧ (2 : OpIx).val = fwhop.rf Reg.SPLL_STATUS.OP) ∧
      fwhop.on Reg.IOPLL_STATUS.REF_ABSENT = false ∧ (absent fwhop).on Reg.IOPLL_STATUS.REF_ABSENT = true ∧ fwhop.spll.phase = .idle ∧
      (after (.hopRequest .keystone 2) fwhop).spll.phase = .search 0 0 ∧
      (let s := ({ fwhop with spll := { fwhop.spll with phase := .verify 1, why := .hop, target := 2 } } : State).wf (Reg.THM_T.FAULT 0) 0; s.spll.phase = .verify 1 ∧
        inWin 32 32 s.spll.spWin.2 ∧ s.spll.why = .hop ∧ s.ldr.step = none ∧ s.spll.key = .none ∧ s.on (Reg.THM_T.FAULT 0) = false) ∧
      locked.on Reg.SPLL_STATUS.SSC_ACTIVE = false ∧ ¬inWin 0 locked.spll.spWin.1 8 ∧
      (let s : State := { absent fwhop with spll := { fwhop.spll with queue := some 2 } }; s.spll.queue = some 2 ∧ s.spll.phase = .idle) := by
  unfold inWin; decide

theorem witness_ClockRegistersAreChecked :
    base.on Reg.IOPLL_CTL.LOCK = false ∧ (base.wf Reg.IOPLL_CTL.LOCK 1).on Reg.IOPLL_CTL.LOCK = true ∧
      (pointOk 2 (getBits (0x350 : Word) 0 7) (getBits (0x350 : Word) 8 3) ∧ pointOk 0 80 4 ∧ ¬pointOk 1 63 2 ∧ ¬pointOk 1 81 4) ∧
      ((2 : OpIx).val ≠ locked.rf Reg.SPLL_STATUS.OP ∧ locked.spll.queue ≠ some 2) ∧ ((1 : OpIx).val = locked.rf Reg.SPLL_STATUS.OP) ∧
      locked.spState = 1 ∧ base.spState ≠ 1 ∧ getBits (0 : Word) 0 2 = getBits (base.reg Reg.CPLL_CTL_at) 0 2 ∧
      getBits (1 : Word) 0 2 ≠ getBits (base.reg Reg.CPLL_CTL_at) 0 2 ∧ base.rf (Reg.IOPLL_ISL.STATE islConv) = 3 ∧
      (let st := (base.wf (Reg.IOPLL_ISL.STATE islConv) 0).rf (Reg.IOPLL_ISL.STATE islConv); st ≠ 3 ∧ st ≠ 4) := by
  unfold pointOk; decide

/-! ## Load rating -/

/-- A tick due to close its window; a raw estimate to trim by; a trip. -/
def tripped : State := (base.wf Reg.LDR_STATUS.TRIP 1)
/-- One READY job of class 0 without cost in slot 0. -/
def readyJob : State := after (.jobSubmission (.pier t0) 0x40) submitted

theorem witness_LedgerKeepsItsBooks :
    (base.avail + ((allowed base + base.ldr.depRem) / 100 : Nat) < 2 ^ 31 ∧ -2 ^ 31 ≤ base.avail) ∧
      ({ base with ldr := { base.ldr with due := true } } : State).ldr.due = true ∧ base.ldr.due = false ∧
      (getBits (600 : Word) 0 10 = 600 ∧ getBits (1 : Word) 0 10 ≠ 0) ∧ intervalRaw base [] = 0 ∧ base.on Reg.PMB_STATUS.FAIL = false ∧
      intervalRaw { base with ldr := { base.ldr with raw := 100, rail := 100 } } [] ≠ 0 ∧
      (12288 ≤ base.rf Reg.LDR_TRIM.TRIM ∧ base.rf Reg.LDR_TRIM.TRIM ≤ 20480) := by decide

set_option maxRecDepth 20000 in
/-- Sensor 5 the hottest at 80 °C, at TTRIP, and at 125 °C; a poll of 1 V and 1 A; one that fails. -/
theorem witness_SensorsAndPollsAreJudged :
    (let rs := (List.replicate 24 (some (640 : Int))).set 5 (some 1280); Claims.reading rs 5 = some 1280 ∧
      (∀ i < 24, ∀ v, Claims.reading rs i = some v → v < 1280 ∨ (v = 1280 ∧ 5 ≤ i)) ∧ (List.range 24).countP (fun i => (Claims.reading rs i).isNone) = 0) ∧
      (Claims.reading [some 2000] 0 = some 2000 ∧ Claims.reading [some 2561] 0 = none ∧ Claims.reading [some (-960)] 0 = some (-960)) ∧
      base.on Reg.LDR_STATUS.TRIP = false ∧ (1280 : Int) < (16 * base.rf Reg.LDR_THERM.TTRIP : Nat) ∧ base.ldr.step = none ∧
      base.spll.key ≠ .volt ∧ nearest 4096 1000 (base.rf Reg.PMB_CFG.VEXP) < 2 ^ 16 ∧ nearest (0x0064 % 2 ^ 10) 100 0 < 2 ^ 16 ∧
      base.on Reg.PMB_STATUS.FAIL = false ∧ base.ldr.vcmd = none ∧
      (PmbAnswered base 0x8B ⟨true, false, 4096, pmbPec (readBytesOf base 0x8B 4096)⟩ ∧ PmbFailed base 0x8B ⟨false, false, 0, 0⟩) := by
  refine ⟨⟨by decide, ?_, by decide⟩, by decide, by decide, by decide, by decide, by decide, by decide, by decide, by decide, by decide,
    ⟨by unfold PmbAnswered; exact ⟨rfl, rfl, fun _ => rfl⟩, .inl rfl⟩⟩
  intro i hi v hv
  interval_cases i <;> simp [Claims.reading] at hv <;> omega

set_option maxRecDepth 20000 in
theorem witness_AdmissionStepsAndTrips :
    tripped.on Reg.LDR_STATUS.TRIP = true ∧ readyJob.on Reg.LDR_STATUS.TRIP = false ∧ readyJob.eligible 0 = true ∧
      (∀ j < 256, j ≠ 0 → readyJob.eligible j = false) ∧ readyJob.rangeBusy (jSdt (readyJob.slot 0).desc) 1024 = false ∧
      ((readyJob.rf Reg.LDR_POLICY.C0_FLOOR : Int) ≤ readyJob.avail - reserved readyJob 1 0 ∨
        -(readyJob.rf Reg.LDR_POLICY.DEBT_LIMIT : Int) ≤ readyJob.avail - reserved readyJob 0 0) ∧
      base.on Reg.LDR_CTL.LOCK = false ∧ base.on Reg.LDR_CTL.FITFIRST = false ∧
      (let s := { (tripped.wf Reg.THM_MAX.T_MAX 640) with ldr := { base.ldr with valid := true } }; s.on Reg.LDR_STATUS.TRIP = true ∧
        s.ldr.valid = true ∧ lint 16 (s.rf Reg.THM_MAX.T_MAX) ≤ 16 * ((s.rf Reg.LDR_THERM.TTRIP : Int) - 5)) ∧
      base.on Reg.SPLL_CTL.FWHOP = false ∧ fwhop.on Reg.SPLL_CTL.FWHOP = true ∧
      (let s : State := { base with ldr := { base.ldr with step := some ⟨1, 2, false⟩ } }; s.ldr.step = some ⟨1, 2, false⟩) ∧
      (let s : State := { base with spll := { base.spll with key := .volt } }; s.spll.key = .volt) ∧ base.spll.key ≠ .volt := by decide

/-! ## Flash store and Vault -/

/-- The flash controller initialised and idle. -/
def fl : State := base.wf Reg.FLC_STATUS.INIT 0
/-- A register READ of block 5 page 0 in progress, the page written. -/
def flRead : State :=
  let s := fl.setFpage 5 0 (some ⟨0x1234, true⟩)
  { s with flc := { s.flc with cur := some ⟨.reg, .read 5 0, 0⟩ } }
/-- An append in progress. -/
def flApp : State := { fl with flc := { fl.flc with cur := some ⟨.reg, .append 7 1 0, 0⟩, tgt := (128, 3) } }
/-- A request of the first host, of operation `op`, in execution in the flash lane. -/
def flReq (op : Nat) : FReq := ⟨none, ⟨1, 0, 2, 3, 4⟩, false, op, 0, 1, [], true⟩
/-- An update request in execution while the die is busy. -/
def flUpd (op : Nat) : State :=
  { flApp with fsv := { flApp.fsv with reqs := [flReq op], upd := some ⟨0, 1, 1, 4096, 0, 0, 0, [], []⟩ } }

/-- R331: a command longer than its operation is refused with LENGTH (4). -/
theorem test_flc_length : (after (.flcRead .keystone 0x100) fl).rf Reg.FLC_STATUS.REASON = 4 := by decide
/-- R329: the word goes to the buffer and OFFSET on by 4. -/
theorem test_flc_buf :
    let s := after (.flcBufDataAccess .keystone (some 0xAABBCCDD)) fl
    SMap.get s.flc.bufs 0 1 = 0xCC ∧ s.rf Reg.FLC_BUF_ADDR.OFFSET = 4 := by decide
/-- R326: at DIV 0 a wait of 4 is too short. -/
theorem test_flc_rdwait : (after (.flcRdwaitWrite .keystone 4) (fl.wf (Reg.IOPLL_ISL.DIV islFlash) 0)).rf Reg.FLC_STATUS.REASON = 6 := by decide
set_option maxRecDepth 20000 in
/-- R331: an operation that does not end has ERR 8. -/
theorem test_flc_timeout : (after .flcOperationTimeout flRead).rf Reg.FLC_RESULT.ERR = 8 := by decide

theorem witness_FlashRegisterPath :
    fl.online islFlash = true ∧ (fl.on Reg.FLC_STATUS.INIT = false ∧ fl.on Reg.FLC_STATUS.DIE_FAULT = false) ∧ base.on Reg.FLC_STATUS.INIT = true ∧
      (fl.wf Reg.FLC_STATUS.PWRFAIL 1).on Reg.FLC_STATUS.PWRFAIL = true ∧ fl.on Reg.FLC_STATUS.PWRFAIL = false ∧
      fl.on Reg.FLC_STATUS.CMD_BUSY = false ∧ (fl.wf Reg.FLC_STATUS.CMD_BUSY 1).on Reg.FLC_STATUS.CMD_BUSY = true ∧
      getBits (0 : Word) 8 13 = 0 ∧ getBits (0xFA000 : Word) 8 13 = 4000 ∧
      (let b := fl.rf Reg.FLC_ADDR.BLOCK; ¬(112 ≤ b ∧ b ≤ 127) ∧ ¬(b < 128 ∧ 128 ≤ fl.rf Reg.FLC_ADDR.PAGE)) ∧
      (fl.wf Reg.FLC_ADDR.BLOCK 112).rf Reg.FLC_ADDR.BLOCK = 112 ∧ (fl.wf Reg.FLC_ADDR.PAGE 128).rf Reg.FLC_ADDR.PAGE = 128 ∧
      flApp.flc.cur ≠ none ∧ fl.appendAt = (128, 0) ∧ fl.blockUsed 128 = false ∧
      fl.bufOwned (fl.rf Reg.FLC_BUF_ADDR.BUF) = false ∧ flRead.bufOwned (flRead.rf Reg.FLC_BUF_ADDR.BUF) = true ∧
      getBits (1 : Word) 0 4 = 1 ∧ getBits (5 : Word) 0 4 = 5 ∧ fl.rf (Reg.IOPLL_ISL.DIV islFlash) = 2 := by decide

theorem witness_Hopeless : Hopeless 5 ⟨[[0, 17]], false, true⟩ ∧ ¬Hopeless 130 ⟨[[41], [40]], false, true⟩ := by
  unfold Hopeless codeT; decide

theorem witness_FlashIdle : FlashIdle fl ∧ VaultIdle flRead ∧ VaultIdle flApp := by unfold FlashIdle VaultIdle; decide

set_option maxRecDepth 20000 in
theorem witness_FlashOperationsEnd :
    (flRead.flc.cur = some ⟨.reg, .read 5 0, 0⟩ ∧ flRead.flc.pend = none ∧ flRead.flc.queue = [] ∧ flRead.on Reg.FLC_STATUS.PWRFAIL = false ∧
      flRead.goodBlock (flRead.physOf 5) = true ∧ flRead.fpage (flRead.physOf 5) 0 = some ⟨0x1234, true⟩ ∧
      flRead.rdwaitLow = false ∧ (∀ e ∈ [16, 0, 3], e ≤ codeT (flRead.physOf 5)) ∧ ¬(17 ≤ codeT (flRead.physOf 5))) ∧
    (flApp.flc.cur = some ⟨.reg, .append 7 1 0, 0⟩ ∧ flApp.flc.pend = none ∧ flApp.flc.queue = [] ∧ flApp.on Reg.FLC_STATUS.PWRFAIL = false ∧
      flApp.rf Reg.FLC_J_HEAD.JSN < 0xFFFFFFFF ∧ flApp.flc.tgt.2 < 256) ∧
    (let s : State := { fl with flc := { fl.flc with tailDue := some 129 } }; s.flc.tailDue = some 129 ∧ s.goodBlock 129 = true) ∧
    (let s : State := { fl with flc := { fl.flc with unrec := [200] } }; s.flc.unrec ≠ [] ∧ SMap.get s.flc.fields none 0 = none) ∧ fl.flc.unrec = [] ∧
    ((flUpd 0x51).updReq = some (flReq 0x51) ∧ (flUpd 0x50).updReq = some (flReq 0x50) ∧ (flUpd 0x51).fsvOnDie = false ∧
      (flUpd 0x51).flc.cur ≠ none ∧ (flUpd 0x50).fsv.upd = some ⟨0, 1, 1, 4096, 0, 0, 0, [], []⟩) ∧
    (let s : State := { base with boot := { base.boot with phase := .checked } }; s.online islFlash = true ∧ s.boot.phase ≠ .start ∧
      s.on Reg.FLC_STATUS.PWRFAIL = false ∧ s.on Reg.FLC_STATUS.INIT = true ∧ s.on Reg.FLC_STATUS.DIE_FAULT = false) := by decide

theorem witness_intent_whole : ∀ b, b < 2048 → SMap.get base.flc.intent true b = true := fun _ _ => rfl

theorem witness_VaultAndPowerFailure :
    base.pwrLow = false ∧ ({ base with pwrLow := true } : State).pwrLow = true ∧ base.aonUp = true ∧ base.flc.cur = none ∧ base.flc.queue = [] ∧
      base.record.events.length < 128 ∧
      (let s : State := { base with vault := { base.vault with queue := [⟨2, true⟩] } }; s.vault.cur = none ∧ s.vault.queue = ⟨2, true⟩ :: []) ∧
      (let s : State := { fl with vault := { fl.vault with cur := some ⟨2, true, 5, false⟩ } }; s.vault.cur = some ⟨2, true, 5, false⟩ ∧ s.vault.queue = [] ∧
        s.on Reg.REC_STATUS.FLUSHING = false ∧ s.flc.pend = none) ∧
      (2 ∈ vaultIds ∧ base.boot.phase = .start ∧ base.rf Reg.SPLL_STATUS.STATE = 0 ∧ locked.rf Reg.SPLL_STATUS.STATE ≠ 0 ∧ locked.boot.phase = .start) ∧
      base.spll.key = .none ∧ base.held.any = false ∧ base.boot.sys = false ∧ base.vaultRead 2 ≠ none ∧
      ({ base with boot := { base.boot with sys := true } } : State).boot.sys = true := by decide

/-! ## Recorder -/

/-- A window open to the Fobex engine. -/
def opened : State := { base.wf Reg.PAR_STATUS.WIN 2 with par := { base.par with was := 2 } }
/-- Channel 3 enabled with kind `k`, its bins one wide. -/
def chan (k : Nat) : State := (((base.wf (Reg.REC_CH_SRC.KIND 3) k).wf (Reg.REC_CH_SRC.WIDTH 3) 31).wf (Reg.REC_CH_SRC.EN 3) 1).wf (Reg.REC_CH_WID.VALUE 3) 1
/-- A request of channel 3 answered. -/
def sampleReq (p : Resp) : Req := ⟨7, .sample 3, .ioRd 0x2803, 54, 0, 0, 0, 0, true, islAon, 0, some p, false, false, false, .core 0, true⟩
def sampled (p : Resp) : State := { chan 1 with net := { (chan 1).net with reqs := [sampleReq p] } }
/-- One record waiting. -/
def anEvent : EvRec := ⟨⟨0, 0, false, 0, 0, false, 0⟩, 9, 1, 0, 0⟩

/-- R355: a slew of more than 10 s is refused with RANGE (1). -/
theorem test_slew_range : (after (.rtcSlewWrite .keystone 327681) base).rf Reg.REC_STATUS.REASON = 1 := by decide
/-- R356: a calendar step without presence is refused with reason 5. -/
theorem test_calendar : (after (.calendarStep .keystone 0) opened).rf Reg.REC_STATUS.REASON = 5 := by decide
/-- R359: 5 lies in bin 6 of bins one wide from 0. -/
theorem test_rec_bin : SMap.get ((after (.recPush .keystone 3 5) (chan 2)).chan 3).bins 0 6 = 1 := by decide
/-- R370: REC_SNAP_FIRE from the Fobex engine is refused with reason 4. -/
theorem test_snap_fobex : (after (.recSnapFire .fobex 1) base).rf Reg.REC_STATUS.REASON = 4 := by decide

theorem witness_RecorderTimeAndLatches :
    base.aonUp = true ∧ base.rtc.slew = 0 ∧ ({ base with rtc := { base.rtc with slew := -1 } } : State).rtc.slew ≠ 0 ∧
      base.on Reg.RTC_STATUS.SLEWING = false ∧ (base.wf Reg.RTC_STATUS.SLEWING 1).on Reg.RTC_STATUS.SLEWING = true ∧
      (327680 < (327681 : Word).toInt ∧ (327680 : Word).toInt ≤ 327680 ∧ -327680 ≤ (0xFFFB0000 : Word).toInt ∧ (0xFFFAFFFF : Word).toInt < -327680) ∧
      base.record.events.length < 128 ∧ presence .fobex opened ∧ ¬presence .keystone opened ∧ ¬presence .fobex base ∧
      opened.on Reg.REC_STATUS.PWRFAIL = false ∧ (opened.wf Reg.REC_STATUS.PWRFAIL 1).on Reg.REC_STATUS.PWRFAIL = true := by
  unfold presence; decide

theorem witness_ChannelsTakeSamples :
    ((chan 1).rf (Reg.REC_CH_SRC.KIND 3) = 1 ∧ (chan 1).on (Reg.REC_CH_SRC.EN 3) = true ∧ (chan 1).on Reg.REC_STATUS.PWRFAIL = false ∧
      NoReadsDue (chan 1) ∧ (chan 1).samplesOut < 8) ∧
    (let s : State := { chan 1 with record := { base.record with due := [3] }, net := { base.net with reqs := List.replicate 8 { sampleReq (.data 0) with resp := none } } };
      3 ∈ s.record.due ∧ s.samplesOut = 8) ∧ base.rf (Reg.REC_CH_SRC.KIND 3) ≠ 1 ∧
    (Answered (sampled (.data 5)) (sampleReq (.data 5)) (.data 5) ∧ Integers (sampled (.data 5)) 3 ∧ NoReadsDue (sampled (.data 5))) ∧
    Answered (sampled (.err .timeout)) (sampleReq (.err .timeout)) (.err .timeout) ∧
    ((chan 2).rf (Reg.REC_CH_SRC.KIND 3) = 2 ∧ Integers (chan 2) 3) ∧
    (presence .fobex opened ∧ (opened.chan 3).taken = 0 ∧ chanInRange 0 1 0 1 = true ∧ chanInRange 0 0 0 1 = false ∧
      mapChange 0 0 1 = true ∧ mapChange 0 1 1 = false ∧
      ({ opened with record := { base.record with chans := [(3, { Chan.zero with taken := 1 })] } } : State).chan 3 ≠ Chan.zero) := by
  unfold NoReadsDue Answered Integers presence; decide

theorem witness_RecorderWritesItsRecords :
    base.on Reg.REC_STATUS.FLUSHING = false ∧ (base.wf Reg.REC_STATUS.FLUSHING 1).on Reg.REC_STATUS.FLUSHING = true ∧
      (base.record.lost ≤ base.record.lostNoted ∧ base.record.dirty = [] ∧ base.record.dirtyLedger = false) ∧
      (let s : State := { base with vault := { base.vault with cur := some ⟨2, true, 5, false⟩ } }; s.vault.cur ≠ none) ∧
      presence .fobex opened ∧ opened.on Reg.PAR_STATUS.SEAL_BROKEN = false ∧ (opened.wf Reg.PAR_STATUS.SEAL_BROKEN 1).on Reg.PAR_STATUS.SEAL_BROKEN = true ∧
      (getBits (0x30105 : Word) 8 6 < getBits (0x30105 : Word) 0 6 ∧ getBits (0x30501 : Word) 0 6 ≤ getBits (0x30501 : Word) 8 6) ∧
      (let s : State := { base.wf (Reg.REC_SNAP_CTL.TRIGMASK 2) 1 with trigs := [0] }; s.setMask 2 s.trigs ≠ 0 ∧ s.setMask 1 s.trigs = 0 ∧ s.snap 2 = none ∧
        (s.setSnap 2 (some ⟨⟨0, 0, false, 0, 0, false, 0⟩, 1, 0, [], [], false⟩)).snap 2 ≠ none) ∧
      base.record.page = none ∧ fl.on Reg.FLC_STATUS.PWRFAIL = false ∧ flApp.flc.cur ≠ none ∧ base.on Reg.REC_STATUS.PWRFAIL = false := by
  unfold presence; decide

theorem witness_record_waits :
    packRecords ({ base with record := { base.record with events := [anEvent] } } : State).waiting 3984 ≠ [] := by
  have h : ({ base with record := { base.record with events := [anEvent] } } : State).waiting = [⟨0, anEvent.bytes, 40, none⟩] := by
    unfold State.waiting
    have hs : ((List.range 8).filterMap (fun k =>
        if ({ base with record := { base.record with events := [anEvent] } } : State).rf (Reg.REC_SNAP_CTL.STATE k) = 2 then
          (({ base with record := { base.record with events := [anEvent] } } : State).snap k).map
            (fun x => (⟨x.stamp.rseq, x.bytes k, 36 + 8 * x.addrs.length, some k⟩ : Waiting)) else none)) = [] := by decide
    simp only [hs, List.map_cons, List.map_nil, List.append_nil, List.mergeSort_singleton]
    rfl
  rw [h]
  exact List.cons_ne_nil _ _

/-! ## Parapet, resets, watchdog -/

/-- `base` with the window in a state, and the button. -/
def winAt (w : Nat) (down : Bool) : State := (base.wf Reg.PAR_STATUS.WIN w).wf Reg.PAR_STATUS.BTN (b2n down)
/-- The press counts. -/
def pressed (s : State) : State := { s with par := { s.par with press := true } }
/-- `base` after the Vault check. -/
def checked : State := { base with boot := { base.boot with phase := .checked } }
/-- One mismatch seen. -/
def missed : State := { checked with par := { checked.par with miss := true } }
/-- Held by EXTEST. -/
def scanned : State := { base with held := { base.held with extest := true } }

/-- R380: a press shorter than HOLD_S closes the window. -/
theorem test_press_short : (after .pressEnd (pressed (winAt 2 true))).rf Reg.PAR_STATUS.WIN = 0 := by decide
/-- R381: HOLD_S opens it for WINDOW_MIN minutes (Table par-1: 10). -/
theorem test_hold : (after .holdReached (winAt 1 true)).rf Reg.PAR_WIN_LEFT.SEC = 60 * base.rf Reg.PAR_CFG.WINDOW_MIN := by decide
/-- R387: the second mismatch in a row breaks the seal. -/
theorem test_seal : (after (.sealSample missed.par.sealA) missed).on Reg.PAR_STATUS.SEAL_BROKEN = true := by decide
/-- R416: the keys 0x5A5A then 0xA5A5 leave the watchdog unarmed and reloaded. -/
theorem test_pet :
    let s := after (.wdtKeyWrite .keystone 0xA5A5) (after (.wdtKeyWrite .keystone 0x5A5A) (base.wf Reg.WDT_STATUS.HELD 0))
    s.on Reg.WDT_STATUS.ARMED = false ∧ s.rf Reg.WDT_LEFT.MS = 1000 * base.rf Reg.WDT_CFG.TIMEOUT_S := by decide
set_option maxRecDepth 20000 in
/-- Table boot-3: a SYS reset by BOOT_SYSRESET has cause 4. -/
theorem test_sysreset : (after (.bootSysreset .keystone 0x5E57) base).rf Reg.BOOT_RESET_CAUSE.CAUSE = 4 := by decide

theorem witness_WindowAndSealFollowTheParapet :
    (base.aonUp = true ∧ base.record.events.length < 128 ∧ base.on Reg.PAR_STATUS.BTN = false ∧ (winAt 0 true).on Reg.PAR_STATUS.BTN = true) ∧
      ((winAt 1 true).rf Reg.PAR_STATUS.WIN = 1 ∧ (winAt 2 true).rf Reg.PAR_STATUS.WIN = 2 ∧ (winAt 3 true).rf Reg.PAR_STATUS.WIN = 3 ∧
        (pressed (winAt 2 true)).par.press = true ∧ (winAt 2 true).par.press = false ∧ base.rf Reg.PAR_STATUS.WIN = 0) ∧
      (let s : State := { base with par := { base.par with closed := some ⟨1, 3, true⟩ } }; s.par.closed = some ⟨1, 3, true⟩ ∧ base.par.closed = none ∧
        s.rf Reg.PAR_STATUS.WIN ≠ 2) ∧
      ((base.wf Reg.PAR_STATUS.ARMED 1).on Reg.PAR_STATUS.ARMED = true ∧ (base.wf Reg.PAR_STATUS.ARMED 0).on Reg.PAR_STATUS.ARMED = false) ∧
      (missed.aonUp = true ∧ missed.held.aon = false ∧ missed.boot.phase ≠ .start ∧ missed.on Reg.PAR_STATUS.SEAL_BROKEN = false ∧
        missed.par.recorded = false ∧ missed.par.miss = true ∧ missed.par.latch = none ∧ missed.record.events.length < 128) ∧
      (presence .fobex opened ∧ ¬presence .fobex base) ∧
      (getBits (0x3C0A : Word) 0 4 = 10 ∧ getBits (0x3C0A : Word) 8 6 = 60 ∧ getBits (0x101 : Word) 0 4 = 1 ∧ getBits (0x101 : Word) 8 6 = 1 ∧
        getBits (0x3D0A : Word) 8 6 = 61 ∧ getBits (0x3C0B : Word) 0 4 = 11 ∧ getBits (0x100 : Word) 0 4 = 0 ∧ getBits (1 : Word) 8 6 = 0) ∧
      (let s : State := { opened with vault := { opened.vault with cur := some ⟨2, true, 5, false⟩ } }; s.vault.cur ≠ none) := by
  unfold presence; decide

theorem witness_ResetsLoadAndKeep :
    Quiet base ∧ base.held.any = false ∧ (ResetCause.wdt ≠ .por) ∧
      ({ base with spll := { base.spll with ioLost := true } } : State).spll.ioLost = true ∧
      ({ base with fsv := { base.fsv with resetDue := true } } : State).fsv.resetDue = true ∧
      (let s := (base.wf Reg.WDT_STATUS.HELD 0).wf Reg.WDT_STATUS.STAGE1 1; s.on Reg.WDT_STATUS.HELD = false ∧ s.on Reg.WDT_STATUS.STAGE1 = true ∧
        (s.wf Reg.WDT_LEFT.MS 0).rf Reg.WDT_LEFT.MS = 0) ∧
      (base.online islBoot = true ∧ Src.keystone ≠ .fobex ∧ getBits (0x15E57 : Word) 0 16 = 0x5E57) ∧
      (Quiet scanned ∧ scanned.held.extest = true ∧ scanned.held.por = false ∧ scanned.held.core = false) ∧ base.held.core = false ∧
      (let s : State := { base with ldr := { base.ldr with shdn := true } }; s.ldr.shdn = true ∧ s.held.por = false) ∧ base.ldr.shdn = false ∧
      (∀ q, q < 4 → base.deckInit q = none) := by unfold Quiet; decide

theorem witness_WatchdogAndTrials :
    base.online islBoot = true ∧ base.on Reg.BOOT_STATUS.TRIAL = false ∧ (base.wf Reg.BOOT_STATUS.TRIAL 1).on Reg.BOOT_STATUS.TRIAL = true ∧
      (getBits (0xC0F1 : Word) 0 16 = 0xC0F1 ∧ getBits (0x1C0F1 : Word) 0 16 = 0xC0F1 ∧ getBits (0xC0F0 : Word) 0 16 ≠ 0xC0F1) ∧
      (presence .fobex opened ∧ ¬presence .keystone opened ∧ (2 : Word).getLsbD 1 = true ∧ (2 : Word).getLsbD 0 = false ∧ (1 : Word).getLsbD 1 = false) ∧
      getBits (0x5E56 : Word) 0 16 ≠ 0x5E57 ∧ base.aonUp = true ∧ base.on Reg.WDT_STATUS.ARMED = false ∧
      (let s := (base.wf Reg.WDT_STATUS.ARMED 1).wf Reg.WDT_STATUS.HELD 0; s.on Reg.WDT_STATUS.ARMED = true ∧ s.on Reg.WDT_STATUS.HELD = false) ∧
      (getBits (0x5A5A : Word) 0 16 = 0x5A5A ∧ getBits (0xA5A5 : Word) 0 16 = 0xA5A5) ∧
      (let s := base.wf Reg.WDT_STATUS.HELD 0; s.on Reg.WDT_STATUS.HELD = false ∧ s.on Reg.WDT_STATUS.STAGE1 = false ∧
        (s.wf Reg.WDT_LEFT.MS 0).rf Reg.WDT_LEFT.MS = 0 ∧ s.rf Reg.WDT_LEFT.MS ≠ 0 ∧ s.routeOk (32 + stopOf islAon) 0 = true) ∧ base.on Reg.WDT_STATUS.HELD = true := by
  unfold presence; decide

/-! ## Boot: containers laid out by spec/15, their CRCs and digest as those codes give them -/

/-- A container with one empty section: its bytes and those of its commit page. -/
def boxEmpty : Nat × Nat := (0x5000000009000000000000000000000000000000000000000000000000000000000000000021f29ae2000000000000000000000000000001010000005000400001314b4e4d,
  0x9f33c4424d2923cec6613b39d8349658a4728536fb304943cb82e2aa187259ae7fbd1736000000010000005000000000434b4e4d)
/-- Defaults with one overlay of a whole word. -/
def boxWhole : Nat × Nat := (0x1f4003cffffffff000040317a4efc7a0000000c00000050000000060000000000000000000000000000000000000000000000000000000000000000fc2fc3dd000000000000000000000000000001010000005c00400001314b4e4d,
  0x4d5e0b2468be3be9f6b2b8b4555b811c1588ff550bac23d4381276144a032f3a739edbbd000000010000005c00000000434b4e4d)
/-- The same under a mask. -/
def boxMask : Nat × Nat := (0x3c000000ff00004031eef74d0b0000000c000000500000000600000000000000000000000000000000000000000000000000000000000000006b04282a000000000000000000000000000001010000005c00400001314b4e4d,
  0x2872614ca158c807cd6abba8e7edee91213d652ceed0f3b1fde8932eaf13300ec3d51f8f000000010000005c00000000434b4e4d)
/-- An overlay of a register whose island is not ONLINE. -/
def boxError : Nat × Nat := (0x1ffffffff00004200dd5348b60000000c0000005000000006000000000000000000000000000000000000000000000000000000000000000085284808000000000000000000000000000001010000005c00400001314b4e4d,
  0xbc48b8021614e7624e5c9e795d808e1c669a7f2e0a65a9b2d73f52ada93c0e8dd752748b000000010000005c00000000434b4e4d)
/-- An image of one role, its code, and no route, UPSEQ 5. -/
def boxImage : Nat × Nat := (0x100000000000000000000000000000098000000078c28b28a0000000800000090000000022884bd9e00000020000000700000000100000000000000000000000000000000000000000000000000000000000000008a643803000000000000000000000000000001030000009800400001314b4e4d,
  0xeaa9c73a9032bac73df457a827f7c71e1b109d2f5a50e737bfdcb2102aca2e6744ecde000000010000009800000005434b4e4d)
/-- The same with one route and longer code. -/
def boxRoute : Nat × Nat := (0x8000030800000200112233445566778800000000000000000000000000000000000000000000000000000000000000000000000100000000c2b273f700000008000000a000000007610179760000001000000090000000022884bd9e0000002000000070000000010000000000000000000000000000000000000000000000000000000000000000657950a700000000000000000000000000000103000000a800400001314b4e4d,
  0xf838d82c592b2a7cb4428d316b0da911d18500de7324d21aaa47fd09bf376d782f4fd1cc00000001000000a800000005434b4e4d)

/-- Metadata of page `p` (R404). -/
def metaOf (u p : Nat) : Nat := pack ((List.range 4).map (fun k => (pack [(u, 4), (p, 2), (k, 1), (0, 1)], 8)))
/-- A container of one page in region `r`. -/
def putBox (s : State) (r u : Nat) (b : Nat × Nat) : State :=
  (s.setFpage (regionBase r) 0 (some ⟨pack [(b.1, 4096), (metaOf u 0, 32)], true⟩)).setFpage (regionBase r) 1
    (some ⟨pack [(b.2, 4096), (metaOf u 1, 32)], true⟩)
/-- The sequence at a phase, the flash controller ready. -/
def phased (p : BootPhase) (s : State) : State := ({ s with boot := { s.boot with phase := p } } : State).wf Reg.SPLL_STATUS.STATE 1
/-- Slots A and B hold the image. -/
def slotsAB : State := putBox (putBox fl 1 5 boxImage) 2 5 boxImage
/-- Candidates chosen, the first of them slot A. -/
def chosenA : State := phased .chosen { slotsAB with boot := { slotsAB.boot with cands := [1, 0] } }

set_option exponentiation.threshold 100000
set_option maxRecDepth 100000

/-- R407: the factory region of an erased die fails HEADER (1). -/
theorem test_verify_erased : fl.verifyCode [] 0 = 1 := by decide
/-- R407: a container whose page 0 does not read GOOD fails HEADER. -/
theorem test_verify_bad : slotsAB.verifyCode [(256 * 16, [0, 17])] 1 = 1 := by decide
/-- R412: an image that is not confirmed is booted in TRIAL. -/
theorem test_trial :
    let s := after (.verification []) chosenA
    s.on Reg.BOOT_STATUS.TRIAL = true ∧ s.rf Reg.BOOT_TRIAL.TRIES = 1 := by decide

theorem witness_slots_chosen :
    (phased .checked slotsAB).readAt .checked = true ∧ (phased .checked slotsAB).on Reg.FLC_STATUS.INIT = false ∧
      (phased .checked slotsAB).boot.sys = false ∧
      (let s := ({ phased .checked slotsAB with boot := { base.boot with phase := .checked, sys := true } } : State).wf Reg.BOOT_RESET_CAUSE.CAUSE 1
       let s := s.wf Reg.BOOT_TRIAL.SLOT 2
       s.boot.sys = true ∧ s.rf Reg.BOOT_RESET_CAUSE.CAUSE = 1 ∧ s.rf Reg.BOOT_TRIAL.SLOT = 2) ∧
      slotsAB.bootCommitted [] 1 = some 5 ∧ slotsAB.bootCommitted [] 2 = some 5 ∧ slotsAB.rf (rejOf 1) ≠ 5 ∧ slotsAB.rf (rejOf 2) ≠ 5 := by decide

theorem witness_candidates : Candidate slotsAB [] 1 ∧ Candidate slotsAB [] 2 :=
  ⟨⟨by decide, 5, by decide, by decide⟩, ⟨by decide, 5, by decide, by decide⟩⟩

theorem witness_candidate_verified :
    chosenA.readAt .chosen = true ∧ chosenA.boot.revert = none ∧ chosenA.record.events.length < 127 ∧ chosenA.boot.cands = 1 :: [0] ∧
      (phased .chosen fl).boot.cands = [] ∧ chosenA.bootVerify [] 1 = 0 ∧ chosenA.bootVerify [(4096, [17])] 1 ≠ 0 ∧
      (chosenA.contHead [] 1).elim 0 Head1.upseq = 5 ∧ (chosenA.wf (confOf 1) 5).rf (confOf 1) = 5 ∧ chosenA.rf (confOf 1) ≠ 5 ∧
      chosenA.rf Reg.BOOT_TRIAL.SLOT ≠ 1 ∧
      (let s := (chosenA.wf Reg.BOOT_TRIAL.SLOT 1).wf Reg.BOOT_TRIAL.TRIES 3; s.rf Reg.BOOT_TRIAL.SLOT = 1 ∧ s.rf Reg.BOOT_TRIAL.TRIES = 3) ∧
      (chosenA.wf Reg.BOOT_TRIAL.SLOT 1).rf Reg.BOOT_TRIAL.TRIES < 3 := by decide

/-- Defaults in place, the image chosen. -/
def withDefaults (b : Nat × Nat) : State := phased .verified (putBox fl 3 0 b)
/-- The record of a defaults container. -/
def ovl (a m v : Nat) : Ovl := ⟨a, false, false, 0, m, v, true⟩
theorem witness_defaults_verified :
    (phased .verified fl).readAt .verified = true ∧ (phased .verified fl).bootVerify [] 3 ≠ 0 ∧ Claims.early (ovls (phased .verified fl).imageOf) = [] ∧
      (withDefaults boxEmpty).bootVerify [] 3 = 0 ∧ Claims.early (ovls ((withDefaults boxEmpty).verified 3)) = [] ∧
      (withDefaults boxWhole).bootVerify [] 3 = 0 ∧ (withDefaults boxMask).bootVerify [] 3 = 0 ∧ (withDefaults boxError).bootVerify [] 3 = 0 := by decide
theorem witness_defaults_records :
    Claims.early (ovls ((withDefaults boxWhole).verified 3)) = [ovl 0x4031 0xFFFFFFFF 0x1F4003C] ∧
      Claims.early (ovls ((withDefaults boxMask).verified 3)) = [ovl 0x4031 0xFF 0x3C] ∧
      Claims.early (ovls ((withDefaults boxError).verified 3)) = [ovl 0x4200 0xFFFFFFFF 1] := by decide
/-- The end of an access as a number: 0 where it went through, 1 where refused, 2 for an error. -/
def endOf (e : IoEnd) : Nat := match e with | .done 0 => 0 | .done _ => 1 | .error _ => 2
theorem witness_defaults_written :
    endOf (fl.ioWrite .keystone 53 0x4031 0x1F4003C).1 = 0 ∧ endOf (fl.ioWrite .keystone 53 0x4200 1).1 = 2 ∧
      fl.online 29 = true ∧ (fl.ioRead .keystone 53 0x4031).1 = .done (fl.reg 0x4031).toNat := by decide

/-- The image of slot A booted, its overlays applied. -/
def booted (p : BootPhase) (b : Nat × Nat) : State := (phased p (putBox fl 1 5 b)).wf Reg.BOOT_STATUS.SLOT 1
theorem witness_image_loaded :
    (booted .overlaid boxRoute).readAt .overlaid = true ∧
      (let img := ((booted .overlaid boxRoute).loadImage []).1; img.length = 3 ∧ (img[1]?).map Sec.ty = some 2 ∧ (img[1]?).map Sec.arg = some 0 ∧
        roleOf (roles img) 0 = some 0 ∧ (∀ y ∈ img, y.ty = 2 → bytesAt y.body 0 4 + (y.size - 8) ≤ 0x20000) ∧ (∀ y ∈ img, y.ty ≠ 4) ∧
        (∀ y ∈ img, y.ty ≠ 3) ∧ ofType img 8 = []) ∧ (booted .overlaid boxRoute).online 0 = true ∧
      (booted .loaded boxRoute).seqAt .loaded = true ∧
      ((ofType (booted .loaded boxRoute).imageOf 7).filter (fun x => x.arg == (booted .loaded boxRoute).grade.shape)).flatMap routesOf =
        [(0, 2, bootRoute .sx16 0 2, true)] ∧
      ((ofType (booted .loaded boxImage).imageOf 7).filter (fun x => x.arg == (booted .loaded boxImage).grade.shape)).flatMap routesOf = [] := by
  decide
theorem witness_image_released :
    (phased .routed fl).seqAt .routed = true ∧ (phased .routed fl).vaultPending (fun id => id == 2) = false ∧
      (phased .routed fl).boot.defaults = false ∧ roles (phased .routed fl).imageOf = [] ∧
      (ovls (phased .routed fl).imageOf).filter (fun o => o.last) = [] ∧ (phased .routed fl).record.events.length < 128 := by decide

/-! ## Service port -/

/-- A frame to `da`: an EtherType, a body padded to 46 bytes, and room for the FCS. -/
def frameOf (da ty : Nat) (body : List Nat) : List Byte :=
  octetsOf (toBe da 6 ++ toBe 0x020000000009 6 ++ toBe ty 2 ++ body ++ List.replicate (46 - body.length) 0 ++ [0, 0, 0, 0])
/-- An ARP request for 10.0.0.1. -/
def arpReq : List Nat := [0, 1, 8, 0, 6, 4, 0, 1] ++ toBe 0x020000000009 6 ++ [10, 0, 0, 9] ++ toBe 0 6 ++ [10, 0, 0, 1]
/-- An IPv4 packet from 10.0.0.9 with its checksum: flags and fragment word, protocol, destination, payload. -/
def ipPkt (frag proto dst : Nat) (pl : List Nat) : List Nat :=
  let h (c : Nat) : List Nat := [0x45, 0] ++ toBe (20 + pl.length) 2 ++ [0, 0] ++ toBe frag 2 ++ [64, proto] ++ toBe c 2 ++ [10, 0, 0, 9] ++ toBe dst 4
  h (csum16 (h 0)) ++ pl
/-- A UDP datagram without checksum. -/
def udp (sp dp : Nat) (d : List Nat) : List Nat := toBe sp 2 ++ toBe dp 2 ++ toBe (8 + d.length) 2 ++ [0, 0] ++ d
/-- 10.0.0.1 and the broadcast address. -/
def ip1 : Nat := 0x0A000001
def allHw : Nat := 2 ^ 48 - 1
/-- A released device: MAC 0 up at 10.0.0.1/24, firmware port 5000. -/
def served : State :=
  ((((phased .released base).wf (Reg.ETH_LINK.UP 0) 1).wf (Reg.ETH_IPCFG.MODE 0) 1).wf (Reg.ETH_IPADDR.VALUE 0) ip1).wf (Reg.ETH_NETMASK.VALUE 0) 0xFFFFFF00
    |>.wf (Reg.ETH_FW_PORT.PORT_A 0) 5000
/-- MAC 0 sends a frame. -/
def aFrame : TxFrame := ⟨2, 0, [1]⟩
def busyMac (s : State) : State := s.onMac 0 (fun m => { m with sending := some aFrame })
/-- The same with a frame that waits. -/
def queuedMac (s : State) : State := s.onMac 0 (fun m => { m with sending := some aFrame, txq := [⟨1, 0, [2]⟩, ⟨3, 1, [3]⟩] })

set_option maxRecDepth 20000

/-- R468: an FCS that is wrong counts row 0 alone. -/
theorem test_frame_fcs : SMap.get ((after (.frameReceive 0 (frameOf allHw 0x0800 []) false false) served).mac 0).drops 0 0 = 1 := by decide
/-- R468: a frame of fewer than 64 octets counts row 1. -/
theorem test_frame_short : SMap.get ((after (.frameReceive 0 (octetsOf [1, 2, 3]) true false) served).mac 0).drops 0 1 = 1 := by decide
/-- R470: the frame of the lowest class is sent next. -/
theorem test_tx_class : (((after (.frameTransmitEnd 0) (queuedMac served)).mac 0).sending).map TxFrame.cls = some 1 := by decide
/-- R491: port 47110 may not be a source port (PORT, 4). -/
theorem test_fw_port :
    (after (.ethFtxSend .keystone 4) ({ served.wf Reg.ETH_FTX_PORTS.SRC 47110 with eth := { served.eth with words := [1] } })).rf Reg.ETH_STATUS.REASON = 4 := by
  decide

theorem witness_macs : ∃ da ∈ [1, 2], da ≠ macAddr 0 ∧ da ≠ 2 ^ 48 - 1 ∧ beAt (natsOf (frameOf da 0x0800 [])) 0 6 = da := by
  by_cases h : macAddr 0 = 1
  · exact ⟨2, by decide, by omega, by decide, by decide⟩
  · exact ⟨1, by decide, fun e => h e.symm, by decide, by decide⟩

theorem witness_frames :
    served.ethUp = true ∧ base.ethUp = true ∧ base.ethServes = false ∧ served.ethServes = true ∧ served.on (Reg.ETH_LINK.UP 0) = true ∧
      (served.wf (Reg.ETH_LINK.UP 0) 0).on (Reg.ETH_LINK.UP 0) = false ∧ (frameOf allHw 0x0800 []).length = 64 ∧ (octetsOf [1]).length < 64 ∧
      1518 < (frameOf allHw 0x0800 (List.replicate 1501 0)).length ∧ (frameOf allHw 0x0800 (List.replicate 1500 0)).length ≤ 1518 ∧
      beAt (natsOf (frameOf allHw 0x88A8 [])) 12 2 = 0x88A8 ∧ beAt (natsOf (frameOf allHw 0x0800 [])) 0 6 = 2 ^ 48 - 1 ∧
      beAt (natsOf (frameOf allHw 0x0800 [])) 12 2 = 0x0800 ∧ beAt (natsOf (frameOf allHw 0x0806 [])) 12 2 = 0x0806 ∧
      beAt (natsOf (frameOf allHw 0x1234 [])) 12 2 = 0x1234 ∧ served.on (Reg.ETH_VLAN.VEN 0) = false ∧ served.rf (Reg.ETH_IPCFG.MODE 0) ≠ 0 ∧
      base.rf (Reg.ETH_IPCFG.MODE 0) ≠ 0 ∧ (base.wf (Reg.ETH_IPCFG.MODE 0) 0).rf (Reg.ETH_IPCFG.MODE 0) = 0 ∧
      served.rf (Reg.ETH_IPADDR.VALUE 0) = ip1 := by decide

/-- What follows the EtherType, without the FCS. -/
def bodyOf (f : List Byte) : List Nat := ((natsOf f).take (f.length - 4)).drop 14
theorem witness_arp :
    (let b := bodyOf (frameOf allHw 0x0806 arpReq); slice b 0 8 = [0, 1, 8, 0, 6, 4, 0, 1] ∧ beAt b 24 4 = ip1) ∧ Sending (busyMac served) 0 := by
  unfold Sending; decide

theorem witness_headers :
    (∀ e ∈ ([(0x2000, 17, ip1), (0, 17, 0x0A000002), (0, 6, ip1), (0, 17, ip1), (0x4000, 17, 2 ^ 32 - 1)] : List (Nat × Nat × Nat)),
      let b := bodyOf (frameOf allHw 0x0800 (ipPkt e.1 e.2.1 e.2.2 (udp 7 5000 [1, 2, 3])))
      IpHeader b 31 e.2.1 0x0A000009 e.2.2 ∧ beAt b 6 2 = e.1) ∧
    (let b := bodyOf (frameOf allHw 0x0800 [0x46]); beAt b 0 1 ≠ 0x45) ∧
    (let u := slice (bodyOf (frameOf allHw 0x0800 (ipPkt 0 17 ip1 (udp 7 5000 [1, 2, 3])))) 20 11
     beAt u 4 2 = 11 ∧ beAt u 6 2 = 0 ∧ beAt u 2 2 = 5000) ∧ served.rf (Reg.ETH_FW_PORT.PORT_A 0) = 5000 ∧ served.eth.frx = [] ∧
    (0x0A000002 ≠ served.ipSubAll 0) := by unfold IpHeader; decide

theorem witness_transmit :
    (queuedMac served).mac 0 ≠ Mac.reset ∧ ((queuedMac served).mac 0).sending = some aFrame ∧ (∀ n, n < 4 → ((queuedMac served).strm n).owner = none) ∧
      ((busyMac served).mac 0).txq = [] ∧ (queuedMac base).canSend 0 = false ∧ (queuedMac served).canSend 0 = true ∧
      (served.mac 0).sending = none ∧ ((served.wf (Reg.ETH_LINK.PAUSED 0) 1).on (Reg.ETH_LINK.PAUSED 0) = true) ∧
      (let s := (served.wf (Reg.ETH_LINK.PAUSED 0) 1).onMac 0 (fun m => { m with txq := [⟨1, 0, [2]⟩] }); (s.mac 0).sending = none ∧
        (s.mac 0).txq = [⟨1, 0, [2]⟩] ∧ s.on (Reg.ETH_LINK.UP 0) = true) := by decide

/-- A firmware datagram that waits for an address. -/
def asking (tries : Nat) : FwOut := ⟨0, 0x0A000002, 0x0A000002, 5000, 7, [1], tries⟩
/-- The DHCP client of MAC 0 in a state, its MAC sending. -/
def dhcpAt (st : Nat) : State := ((busyMac served).wf (Reg.ETH_IPCFG.MODE 0) 2).wf (Reg.ETH_DHCP.STATE 0) st
/-- One word staged from port 5000 to 10.0.0.2. -/
def staged : State :=
  let s := ((busyMac served).wf Reg.ETH_FTX_PORTS.SRC 5000).wf Reg.ETH_FTX_DST.VALUE 0x0A000002
  { s with eth := { s.eth with words := [5] } }

theorem witness_ClientsAndFirmwareQueues :
    (let s : State := { busyMac served with eth := { (busyMac served).eth with ftx := [asking 2, asking 3] } };
      s.eth.ftx[0]? = some (asking 2) ∧ s.eth.ftx[1]? = some (asking 3) ∧ (s.mac 0).sending ≠ none) ∧
    (let s := (busyMac served).wf (Reg.ETH_MAC_CFG.EN 0) 1; s.on (Reg.ETH_MAC_CFG.EN 0) = true ∧ s.rf (Reg.ETH_MAC_CFG.SPEED 0) = 0 ∧ s.ethServes = true) ∧
    ((0x24 : BitVec 16).getLsbD 2 = true ∧ (0x24 : BitVec 16).getLsbD 5 = true ∧ (0x200 : BitVec 16).getLsbD 9 = true ∧ (0x800 : BitVec 16).getLsbD 11 = true ∧
      (0x100 : BitVec 16).getLsbD 8 = true ∧ (0x40 : BitVec 16).getLsbD 6 = true) ∧
    served.on Reg.ETH_STATUS.MDIO_BUSY = false ∧ (served.wf Reg.ETH_STATUS.MDIO_BUSY 1).on Reg.ETH_STATUS.MDIO_BUSY = true ∧
    ({ served with eth := { served.eth with mdio := some 0 } } : State).eth.mdio = some 0 ∧
    (∀ st, st < 6 → (dhcpAt st).rf (Reg.ETH_DHCP.STATE 0) = st ∧ (dhcpAt st).rf (Reg.ETH_IPCFG.MODE 0) = 2 ∧ ((dhcpAt st).mac 0).sending ≠ none ∧
      ((dhcpAt st).mac 0).dhcp.lease ≠ 0xFFFFFFFF ∧ ((dhcpAt st).mac 0).dhcp.sends < 4) ∧
    (let s := (dhcpAt 2).onMac 0 (fun m => { m with dhcp := { m.dhcp with sends := 4, lease := 0xFFFFFFFF } }); 4 ≤ (s.mac 0).dhcp.sends ∧
      (s.mac 0).dhcp.lease = 0xFFFFFFFF) := by decide

theorem witness_firmware_queue :
    (let s := (busyMac served).onMac 0 (fun m => { m with txq := [aFrame, aFrame] }); 2 ≤ s.fwWaiting) ∧ staged.fwWaiting < 2 ∧
    (getBits (4 : Word) 0 11 = 4 ∧ staged.eth.words.length = (4 + 3) / 4 ∧ served.eth.words.length ≠ (4 + 3) / 4 ∧ getBits (4 : Word) 16 1 = 0) ∧
    staged.rf Reg.ETH_FTX_PORTS.SRC ∉ [0, 67, 68, 47110] ∧ staged.ipAddr 0 ≠ 0 ∧ (staged.wf (Reg.ETH_IPADDR.VALUE 0) 0).ipAddr 0 = 0 ∧
    (staged.rf Reg.ETH_FTX_DST.VALUE &&& staged.rf (Reg.ETH_NETMASK.VALUE 0) = staged.ipAddr 0 &&& staged.rf (Reg.ETH_NETMASK.VALUE 0)) ∧
    (let s := staged.wf Reg.ETH_FTX_DST.VALUE 0x0B000002
     s.rf Reg.ETH_FTX_DST.VALUE &&& s.rf (Reg.ETH_NETMASK.VALUE 0) ≠ s.ipAddr 0 &&& s.rf (Reg.ETH_NETMASK.VALUE 0) ∧ s.rf (Reg.ETH_GATEWAY.VALUE 0) = 0) ∧
    (staged.mac 0).arp = [] ∧ ((staged.onMac 0 (fun m => { m with arp := [⟨0x0A000002, 9⟩] })).mac 0).arp = [⟨0x0A000002, 9⟩] := by decide

/-! ## Fobex -/

/-- The peer of the tests, on MAC 0, and a request of it. -/
def peer : Peer := ⟨0, 9, 0x0A000009, 4000, 0x0A000001⟩
def req (op : Nat) (slot : Option Nat) (data : List Nat) : FReq := ⟨slot, peer, false, op, 3, 0x10001, octetsOf data, false⟩
/-- MAC 0 sending, session 0 the peer's, one request waiting. -/
def asked (op : Nat) (slot : Option Nat) (data : List Nat) : State :=
  let s := busyMac served
  { s with fsv := { s.fsv with reqs := [req op slot data] } }.setSess 0 (some ⟨0x10001, peer, 2, none, none⟩)
/-- The same without a session. -/
def helloed (data : List Nat) : State := { busyMac served with fsv := { (busyMac served).fsv with reqs := [req 1 none data] } }
/-- In an open window. -/
def inWindow (s : State) : State := { s.wf Reg.PAR_STATUS.WIN 2 with par := { s.par with was := 2 } }
/-- An update of 4,096 bytes open. -/
def upd1 : Upd := ⟨0, 1, 7, 4096, 48, 0, 0, [], []⟩
def updating (op : Nat) (data : List Nat) (u : Upd) : State :=
  let s := inWindow (asked op (some 0) data)
  { s with fsv := { s.fsv with upd := some u } }
/-- A stream of session 0 with words waiting. -/
def streaming (n : Nat) : State :=
  let s := asked 3 (some 0) []
  s.setStrm 0 { s.strm 0 with owner := some 0, fifo := List.replicate n (0, 0) }

/-- R484: RESET with another key is answered NOT_IN_STATE and no reset is due. -/
theorem test_reset_key : (after .reset (asked 0x60 (some 0) [1, 2, 3, 4])).fsv.resetDue = false := by decide
/-- R487: a stream opened by a session is its own. -/
theorem test_stream_open : ((after .streamOpen (asked 0x30 (some 0) [2, 0, 0, 0])).strm 2).owner = some 0 := by decide
/-- R489: a word for a stream nobody opened is refused (7). -/
theorem test_stream_refuse : (after (.fsvStreamDataWrite .keystone 1 5) served).rf Reg.ETH_STATUS.REASON = 7 := by decide

theorem witness_requests_wait :
    ∀ op ∈ [1, 2, 3, 4, 0x10, 0x11, 0x20, 0x21, 0x22, 0x30, 0x31, 0x40, 0x50, 0x51, 0x52, 0x60],
      let s := asked op (some 0) []
      s.fsv.reqs = req op (some 0) [] :: [] ∧ req op (some 0) [] ∉ ([] : List FReq) ∧ (req op (some 0) []).op = op ∧ (req op (some 0) []).started = false ∧
        (s.mac (req op (some 0) []).peer.mac).sending ≠ none ∧ s.rf (Reg.ETH_IPCFG.MODE (req op (some 0) []).peer.mac) ≠ 0 := by decide

theorem witness_requests_data :
    (helloed []).fsv.hellos < 2 ^ 32 ∧ (helloed []).sess 0 = none ∧ (req 1 none []).slot = none ∧ (req 1 none []).bcast = false ∧ (req 1 none []).data = [] ∧
      (req 1 (some 0) [1]).data ≠ [] ∧ (asked 2 (some 0) []).sess 0 ≠ none ∧
      (let s := ((((asked 1 (some 0) []).setSess 1 (some ⟨1, peer, 2, none, none⟩)).setSess 2 (some ⟨1, peer, 2, none, none⟩)).setSess 3
        (some ⟨1, peer, 2, none, none⟩)); ∀ k, k < 4 → s.sess k ≠ none) ∧
      (asked 4 (some 0) []).par.was ≠ 2 ∧ (inWindow (asked 4 (some 0) [])).par.was = 2 ∧
      ((req 0x60 (some 0) [0x57, 0x5E, 0, 0]).len = 4 ∧ (req 0x60 (some 0) [0x57, 0x5E, 0, 0]).w % 2 ^ 16 = 0x5E57 ∧
        (req 0x60 (some 0) [1, 2, 3, 4]).w % 2 ^ 16 ≠ 0x5E57 ∧ (req 0x60 (some 0) []).len ≠ 4) ∧
      ((req 0x10 (some 0) [0x31, 0x40, 1, 0]).len = 4 ∧ (req 0x10 (some 0) [0x31, 0x40, 1, 0]).w / 2 ^ 16 = 1 ∧
        (req 0x10 (some 0) [0x31, 0x40, 1, 0]).w % 2 ^ 16 = 0x4031 ∧ (req 0x10 (some 0) [0xFF, 0, 1, 0]).w % 2 ^ 16 < 0x100) ∧
      ((req 0x11 (some 0) [0x31, 0x40, 0, 0, 60, 0, 0xF4, 1]).len = 8 ∧ (req 0x11 (some 0) [0x31, 0x40, 0, 0, 60, 0, 0xF4, 1]).w % 2 ^ 16 = 0x4031 ∧
        (req 0x11 (some 0) [0xFF, 0, 0, 0, 0, 0, 0, 0]).w % 2 ^ 16 < 0x100 ∧ (req 0x11 (some 0) [1]).len % 8 ≠ 0) := by decide

/-- The value an access ends with, none for an error. -/
def valueOf (e : IoEnd) : Option Nat := match e with | .done v => some v | .error _ => none
theorem witness_register_requests :
    (∀ op ∈ [0x10, 0x11], let s := asked op (some 0) []
      (s.ioRead .fobex 55 0x4031).2.fsv = s.fsv ∧ (s.ioRead .fobex 55 0x4031).2.eth = s.eth ∧ valueOf (s.ioRead .fobex 55 0x4031).1 ≠ none ∧
        (s.ioWrite .fobex 55 0x4031 0x1F4003C).2.fsv = s.fsv ∧ (s.ioWrite .fobex 55 0x4031 0x1F4003C).2.eth = s.eth ∧
        valueOf (s.ioWrite .fobex 55 0x4031 0x1F4003C).1 ≠ none ∧ valueOf (s.ioRead .fobex 55 0x4200).1 = none ∧
        valueOf (s.ioWrite .fobex 55 0x4200 0).1 = none ∧ (s.ioRead .fobex 55 0x4200).2.fsv = s.fsv ∧ (s.ioRead .fobex 55 0x4200).2.eth = s.eth) := by
  decide

theorem witness_history_requests :
    (asked 0x20 (some 0) []).vaultCurrent 0x203 ≠ none ∧ (req 0x20 (some 0) [3, 16, 240, 0]).len = 4 ∧
      (let w := (req 0x20 (some 0) [3, 16, 240, 0]).w; w % 64 = 3 ∧ w / 2 ^ 8 % 256 = 16 ∧ w / 2 ^ 16 % 2 ^ 16 = 240 ∧ 16 + 240 ≤ 256) ∧
      (let w := (req 0x20 (some 0) [3, 17, 240, 0]).w; 256 < w / 2 ^ 8 % 256 + w / 2 ^ 16 % 2 ^ 16) ∧
      (let w := (req 0x21 (some 0) [3, 1, 0, 0]).w; w % 64 = 3 ∧ w / 2 ^ 8 % 256 = 1) ∧ (let w := (req 0x21 (some 0) [3, 21, 0, 0]).w; 20 < w / 2 ^ 8 % 256) ∧
      (let s := (asked 0x21 (some 0) []).setVrec 0x203 ⟨⟨0, false⟩, ⟨0, false⟩⟩; s.vaultCurrent 0x203 = none) ∧
      (let s := asked 0x22 (some 0) []; let d : State := { s with flc := { s.flc with cur := some ⟨.reg, .read 5 0, 0⟩ } };
        d.flc.cur ≠ none ∧ d.on Reg.FLC_STATUS.INIT = true ∧ (d.wf Reg.FLC_STATUS.INIT 0).on Reg.FLC_STATUS.INIT = false ∧
        (d.wf Reg.FLC_STATUS.INIT 0).on Reg.FLC_STATUS.DIE_FAULT = false ∧ d.fsv.page = none ∧
        ({ d with fsv := { d.fsv with page := some (5, 7, 0) } } : State).fsv.page = some (5, 7, 0) ∧ d.rf Reg.FLC_J_TAIL.JSN ≤ 5) ∧
      (let w := (req 0x22 (some 0) [5, 0, 0, 0, 4, 10, 0x9C, 5]).w; w % 2 ^ 32 = 5 ∧ w / 2 ^ 32 % 2 ^ 16 = 2564 ∧ w / 2 ^ 48 % 2 ^ 16 = 1436) := by decide

theorem witness_stream_requests :
    (req 0x30 (some 0) [2, 0, 0, 0]).slot = some 0 ∧ ((asked 0x30 (some 0) [2, 0, 0, 0]).sess 0).isSome = true ∧
      ((asked 0x30 (some 0) [2, 0, 0, 0]).strm 2).owner = none ∧ (req 0x30 (some 0) [2, 0, 0, 0]).w % 4 = 2 ∧ (req 0x30 (some 0) [1]).len ≠ 4 ∧
      ((streaming 1).strm 0).owner = some 0 ∧ (((streaming 1).setStrm 0 { (streaming 1).strm 0 with owner := some 1 }).strm 0).owner = some 1 := by decide

theorem witness_time_requests :
    (let s := asked 0x40 (some 0) []; s.record.events.length < 128 ∧ s.on Reg.RTC_STATUS.VALID = false ∧ s.par.was < 2 ∧
      2 ≤ (inWindow s).par.was ∧ s.on Reg.REC_STATUS.PWRFAIL = false ∧ s.calSec = 0 ∧ s.calFrac = 0 ∧
      (s.wf Reg.RTC_STATUS.VALID 1).on Reg.RTC_STATUS.VALID = true ∧ s.on Reg.RTC_STATUS.SLEWING = false ∧
      (s.wf Reg.RTC_STATUS.SLEWING 1).on Reg.RTC_STATUS.SLEWING = true) ∧
      (let w := (req 0x40 (some 0) [10, 0, 0, 0, 0, 0, 0, 0]).w; w % 2 ^ 32 = 10 ∧ w / 2 ^ 32 % 2 ^ 15 = 0 ∧ w / 2 ^ 48 % 2 = 0 ∧
        (10 * 2 ^ 15 : Int) ≤ 327680 ∧ (327680 : Int) < 11 * 2 ^ 15) := by decide

/-- Metadata of page 0 of an update with UPSEQ 7, its codeword numbers in order. -/
def goodPage : List Nat := List.replicate 4096 0 ++ (List.range 4).flatMap (fun k => toBytes 7 4 ++ [0, 0, k, 0])
set_option maxRecDepth 100000 in
set_option exponentiation.threshold 100000 in
theorem witness_updates :
    (asked 0x50 (some 0) []).par.was < 2 ∧ 2 ≤ (inWindow (asked 0x50 (some 0) [])).par.was ∧
      (inWindow (asked 0x50 (some 0) [])).fsv.upd = none ∧
      (let s := (asked 0x50 (some 0) []).wf Reg.FLC_STATUS.INIT 0; s.on Reg.FLC_STATUS.INIT = false ∧ s.on Reg.FLC_STATUS.DIE_FAULT = false ∧
        s.on Reg.BOOT_STATUS.TRIAL = false) ∧
      ((req 0x50 (some 0) [0, 0xF0, 0x7F, 1]).w % 2 ^ 32 = 25161728 ∧ (req 0x50 (some 0) [0, 0xF0, 0x7F, 1]).len = 4 ∧
        25161728 < (req 0x50 (some 0) [1, 0xF0, 0x7F, 1]).w % 2 ^ 32 ∧ (req 0x50 (some 0) [64, 0, 0, 0]).w % 2 ^ 32 = 64) ∧
      ((updating 0x51 [] upd1).fsv.upd = some upd1 ∧ upd1.slot = 0 ∧ upd1.next = 0 ∧ upd1.off = 0) ∧
      (let r := req 0x51 (some 0) [0, 0, 0, 0, 9]; r.len = 5 ∧ r.w % 2 ^ 16 = 0 ∧ r.w / 2 ^ 16 % 2 ^ 16 = 0 ∧ 0 < (upd1.len + 4095) / 4096) ∧
      (let u := { upd1 with buf := octetsOf (goodPage.take 4000), off := 4000 }
       let u' := { u with buf := (u.buf ++ octetsOf (goodPage.drop 4000)).take 4128, off := 4128 }
       u'.metaGood = true) ∧
      (let u' := { upd1 with buf := octetsOf (List.replicate 4128 0), off := 4128 }; u'.metaGood = false) ∧
      ({ upd1 with next := 1, len := 1, pages := [0] }.next ≥ (1 + 4095) / 4096 ∧ upd1.next < (upd1.len + 4095) / 4096) := by decide

set_option maxRecDepth 100000 in
/-- The digest of one zero byte, as the client sends it. -/
theorem witness_digest :
    let u := { upd1 with next := 1, len := 1, pages := [0] }
    let r := req 0x52 (some 0) (sha256 [0])
    r.len = 32 ∧ natsOf r.data = sha256 [0] ∧ toBytes (pack (u.pages.map (fun p => (p, 4096)))) u.len = [0] ∧
      natsOf (req 0x52 (some 0) (List.replicate 32 0)).data ≠ sha256 [0] := by decide

set_option maxRecDepth 20000 in
theorem witness_streams :
    ((streaming 1).ethUp = true ∧ ((streaming 1).strm 0).owner ≠ none ∧ ((streaming 1).strm 1).owner = none ∧ ((streaming 1).strm 0).due = 0) ∧
      ((streaming 358).strm 0).fifo.length < 359 ∧ ((streaming 359).strm 0).fifo.length = 359 ∧ 4096 ≤ ((streaming 4096).strm 0).fifo.length ∧
      ((streaming 1).strm 0).fifo ≠ [] ∧ ((streaming 0).strm 0).fifo = [] := by decide
theorem witness_streams_send : Streams (streaming 359) 0 :=
  ⟨0, ⟨0x10001, peer, 2, none, none⟩, by decide, by decide, by unfold Sending; decide, by decide, by decide⟩

theorem witness_sessions :
    (asked 3 (some 0) []).sess 0 = some ⟨0x10001, peer, 2, none, none⟩ ∧
      (let s := (asked 3 (some 0) []).setSess 0 (some ⟨0x10001, peer, 2, none, some 3⟩); s.sess 0 = some ⟨0x10001, peer, 2, none, some 3⟩) ∧
      ((helloed []).fsv.reqs[0]? = some (req 1 none []) ∧ (req 1 none []).op < 256 ∧ (req 1 none []).started = false ∧
        ((helloed []).mac (req 1 none []).peer.mac).sending ≠ none ∧ (helloed []).rf (Reg.ETH_IPCFG.MODE 0) ≠ 0) := by decide

/-! ## Gauges, abutment, converter ports -/

/-- A head at point `p` of type READ. -/
def headAt (p : Fin 8) : Head := ⟨p, 1, 0, false, false, 5, 6, 2, 0, 0x40, 9, 3, 0, 4, 1, 7⟩
/-- Gauge 2 on, every mask open. -/
def gaugeOn : State :=
  ((base.wf (Reg.GAU_CTL.EN 2) 1).wf (Reg.GAU_FILT_KIND.VCMASK 2) 0xF).wf (Reg.GAU_FILT_KIND.TYPEMASK 2) 0xFFFF
/-- Tracing to its buffer as a ring. -/
def gaugeTraces : State := (gaugeOn.wf (Reg.GAU_TRACE_POS.STATE 2) 1).wf (Reg.GAU_TRACE_CTL.MODE 2) 1
/-- A record waiting for the Deck. -/
def held1 : GauHeld := ⟨0x100, [1, 2, 3, 4], 0⟩
def gaugeHolds : State := (gaugeOn.onGau 2 (fun g => { g with held := [held1] })).wf (Reg.GAU_RING_COUNT.VALUE 2) 16

/-- R258: a packet at another point is not counted. -/
theorem test_gauge_port : (after (.gaugePacketObserved 2 (headAt 1) false) gaugeOn).rf (Reg.GAU_CNT.COUNT 2 0) = 0 := by decide
/-- R260: LEN + 1 flits are counted. -/
theorem test_gauge_flits : (after (.gaugePacketObserved 2 (headAt 0) false) gaugeOn).rf (Reg.GAU_CNT.COUNT 2 1) = 3 := by decide
/-- R457: OVR_IN 4 routed to output 1 alone mutes that one. -/
theorem test_abt_route :
    let s := after (.abutmentTrip 4) (((base.wf Reg.ABT_STATUS.MUTE_0 0).wf Reg.ABT_STATUS.MUTE_1 0).wf Reg.ABT_OVR_EN.TO_1 0x10 |>.wf Reg.ABT_OVR_EN.TO_0 0)
    s.on Reg.ABT_STATUS.MUTE_0 = false ∧ s.on Reg.ABT_STATUS.MUTE_1 = true := by decide
/-- R463: the release key is 0x3C5A. -/
theorem test_abt_key : (after (.abtRelease .keystone 0x3C5B) base).rf Reg.ABT_STATUS.REASON = 4 := by decide

theorem witness_gauges_pass :
    (GaugeOn gaugeOn 2 ∧ gaugeOn.rf (Reg.GAU_TRIG.SRC 2) = 0 ∧ Passes gaugeOn 2 (headAt 0) ∧ ¬Passes gaugeOn 2 (headAt 1) ∧ gaugeOn.tracing 2 = false) := by
  unfold GaugeOn Passes; decide

theorem witness_gauges_trace :
    GaugeOn gaugeTraces 2 ∧ Passes gaugeTraces 2 (headAt 0) ∧ gaugeTraces.tracing 2 = true ∧ gaugeTraces.rf (Reg.GAU_TRACE_CTL.MODE 2) = 1 ∧
      (gaugeTraces.gau 2).mark = false ∧ (gaugeTraces.gau 2).post = none ∧ gaugeTraces.rf (Reg.GAU_TRACE_POS.NEXT 2) < 255 ∧
      (gaugeTraces.wf (Reg.GAU_TRACE_POS.NEXT 2) 254).rf (Reg.GAU_TRACE_POS.NEXT 2) = 254 := by
  unfold GaugeOn Passes; decide

theorem witness_gauges_control :
    base.on (Reg.GAU_CTL.EN 2) = false ∧
      (let s := (gaugeOn.wf (Reg.GAU_TRIG.SRC 2) 7).wf (Reg.GAU_TRIG.THRESH 2) 5; s.gauLive 2 = true ∧ s.on (Reg.GAU_STATUS.TRIGGERED 2) = false ∧
        s.rf (Reg.GAU_TRIG.SRC 2) = 7 ∧ s.rf (Reg.GAU_TRIG.THRESH 2) = 5 ∧ (s.gau 2).due = false) ∧
      (base.online (gauIsland 2) = true ∧ base.online (gauIsland 23) = true ∧ base.portRefused 2 0 = false ∧ base.portRefused 23 4 = true ∧
        getBits (0x20 : Word) 1 3 = 0 ∧ getBits (8 : Word) 1 3 = 4) ∧
      (base.tracing 2 = false ∧ base.ringBad 2 = true ∧ ((base.wf (Reg.GAU_RING_COUNT.VALUE 2) 16).ringBad 2 = false) ∧
        getBits (2 : Word) 0 2 = 2 ∧ getBits (1 : Word) 0 2 = 1 ∧ getBits (3 : Word) 0 2 = 3) ∧
      (gaugeTraces.rf (Reg.GAU_TRACE_CTL.POST 2) = 0 ∧ ((gaugeTraces.onGau 2 (fun g => { g with last := some 3 })).gau 2).last = some 3 ∧ gaugeTraces.rf (Reg.GAU_TRACE_CTL.STOP_ON_TRIG 2) = 0) := by decide

theorem witness_gauges_drain :
    gaugeHolds.gauLive 2 = true ∧ (gaugeHolds.gau 2).due = false ∧ (gaugeHolds.gau 2).held = held1 :: [] ∧ held1.addr % 16 = 0 ∧ held1.words.length = 4 ∧
      gaugeHolds.quarterBusy held1.addr = false ∧ gaugeHolds.bankWanted held1.addr = false ∧ gaugeHolds.bankWanted (held1.addr + 8) = false ∧ held1.run = (gaugeHolds.gau 2).run ∧
      gaugeHolds.rf (Reg.GAU_TRACE_POS.NEXT 2) + 1 < gaugeHolds.rf (Reg.GAU_RING_COUNT.VALUE 2) := by decide

theorem witness_AbutmentLatchesAndReleases :
    base.on Reg.LDR_STATUS.TRIP = false ∧ tripped.on Reg.LDR_STATUS.TRIP = true ∧ (base.wf Reg.ABT_CTL.FW_MUTE 1).on Reg.ABT_CTL.FW_MUTE = true ∧
      base.abtNew = [] ∧ ({ base with abtNew := [(4, true)] } : State).abtNew = (4, true) :: [] ∧ base.srcLive = 0 ∧
      (tripped.srcLive ≠ 0) ∧ getBits (0x3C5A : Word) 0 16 = 0x3C5A ∧ getBits (0 : Word) 0 16 ≠ 0x3C5A ∧ base.on Reg.ABT_STATUS.MUTE_0 = true ∧
      (let s := (base.wf Reg.ABT_STATUS.MUTE_0 0).wf Reg.ABT_STATUS.MUTE_1 0; s.on Reg.ABT_STATUS.MUTE_0 = false ∧ s.on Reg.ABT_STATUS.MUTE_1 = false) ∧
      (let s : State := { base.wf Reg.ABT_HOLD.MS 1 with quietUs := 999 }; min 65535 (s.quietUs / 1000) < s.rf Reg.ABT_HOLD.MS) ∧
      (let s : State := { base.wf Reg.ABT_HOLD.MS 1 with quietUs := 1000 }; s.rf Reg.ABT_HOLD.MS ≤ min 65535 (s.quietUs / 1000)) := by decide

/-- CONV ONLINE, the CPLL locked. -/
def convUp : State := (base.setShell islConv { State.reset.shell islConv with st := .online }).wf Reg.CPLL_STATUS.LOCK 1
/-- Port 1 an input with its own clock: a frame of two slots of 16 bits in 32 bit clocks, BDIV `b`. -/
def port (b : Nat) (out : Bool) : State :=
  ((((convUp.wf (Reg.CVP_CFG.MASTER 1) 1).wf (Reg.CVP_CFG.SLOTS 1) 1).wf (Reg.CVP_CFG.WIDTH 1) 0).wf (Reg.CVP_CFG.FLEN 1) 31).wf (Reg.CVP_CFG.BDIV 1) b
    |>.wf (Reg.CVP_CFG.DIR 1) (b2n out)
/-- It runs, with `n` bytes waiting. -/
def portRuns (n : Nat) (out : Bool) : State :=
  ((port 31 out).wf (Reg.CVP_STAT.STATE 1) 1).onCvp 1 (fun h => { h with fifo := List.replicate n 7 })
/-- As a follower. -/
def follows (s : State) : State := s.wf (Reg.CVP_CFG.MASTER 1) 0
/-- A calibration of its slot 0 over 2^8 frames of `x`. -/
def calOf (x : Int) (sq : Nat) (clip : Bool) : CvpCal := ⟨1, 1, 8, true, 256, [256 * x, 0, 0, 0, 0, 0, 0, 0], [256 * sq, 0, 0, 0, 0, 0, 0, 0], [clip]⟩
def calAt (st : Nat) (k : CvpCal) : State := { (portRuns 0 false).wf Reg.CVP_CAL_STATUS.STATE st with cal := some k }

/-- SD at the edges of each bit clock of a frame of 16-bit slots, the first a bit clock after FS (FSDLY at its reset value). -/
def aLine (vs : List Nat) : List (Bool × Bool) :=
  List.replicate (base.rf (Reg.CVP_CFG.FSDLY 1)) (false, false) ++
    vs.flatMap (fun v => (List.range 16).map (fun k => (v.testBit (15 - k), v.testBit (15 - k))))

/-- Table cvp-2: a 16-bit slot less its coefficient is stored little-endian. -/
theorem test_cvp_frame :
    ((after (.inputFrame 1 (aLine [0x1234, 0xFFFF]) false 1024) (portRuns 0 false)).cvpPort 1).fifo = [0x34, 0x12, 0xFF, 0xFF] := by decide
/-- R450: an output port without a whole frame sends zeros and counts. -/
theorem test_cvp_underrun : (after (.outputFrame 1 false 1024) (portRuns 3 true)).rf (Reg.CVP_UND_CNT.COUNT 1) = 1 := by decide

theorem witness_ports_idle : DmaIdle convUp ∧ DmaIdle (port 31 false) ∧ DmaIdle (portRuns 0 false) ∧ DmaIdle (portRuns 0 true) := by
  unfold DmaIdle; decide

theorem witness_ports_start :
    (convUp.online islConv = true ∧ (portRuns 0 false).cvpState 1 = 1 ∧ (port 31 false).cvpState 1 ≠ 1) ∧
      ((port 31 false).rf (Reg.CVP_CFG.WIDTH 1) ≠ 3 ∧ (port 31 false).cvpSlots 1 * (port 31 false).cvpBits 1 ≤ (port 31 false).cvpFlen 1 ∧
        ((port 31 false).wf (Reg.CVP_CFG.FLEN 1) 30).cvpFlen 1 < 32) ∧
      ((port 31 false).cvpFollows 1 = false ∧ (port 31 false).cvpLimit ≤ 4 * ((port 31 false).rf (Reg.CVP_CFG.BDIV 1) + 1) * (port 31 false).cvpFlen 1 ∧
        4 * ((port 6 false).rf (Reg.CVP_CFG.BDIV 1) + 1) * (port 6 false).cvpFlen 1 < (port 6 false).cvpLimit) ∧
      ((port 31 false).on Reg.CPLL_STATUS.LOCK = true ∧ ((port 31 false).wf Reg.CPLL_STATUS.LOCK 0).on Reg.CPLL_STATUS.LOCK = false) ∧
      (∀ q, q < 8 → (2 : BitVec 8).getLsbD q = true → (port 31 false).startRefused q = 0) := by decide

theorem witness_ports_frames :
    Frames (portRuns 508 false) 1 1024 ∧ (portRuns 508 false).cvpOut 1 = false ∧ ((portRuns 508 false).cvpPort 1).fifo.length + 4 = 512 ∧
      512 < ((portRuns 509 false).cvpPort 1).fifo.length + 4 ∧ Frames (follows (portRuns 0 false)) 1 1024 ∧ (follows (portRuns 0 false)).cvpFollows 1 = true ∧
      Frames (portRuns 4 true) 1 1024 ∧ (portRuns 4 true).cvpOut 1 = true ∧ (portRuns 4 true).cvpSlots 1 * (portRuns 4 true).cvpSize 1 = 4 ∧
      ((portRuns 3 true).cvpPort 1).fifo.length < 4 ∧
      (let s := (portRuns 4 true).onCvp 1 (fun h => { h with stopping := true }); s.cvpState 1 = 1 ∧ (s.cvpPort 1).stopping = true ∧ s.cvpFollows 1 = false ∧ s.cal = none) := by
  unfold Frames DmaIdle; decide

theorem witness_calibrations :
    (let s := portRuns 0 false; s.cvpOut 1 = false ∧ s.cvpState 1 = 1 ∧ (1 : BitVec 8) ≠ 0 ∧ (1 : BitVec 8).toNat < 2 ^ s.cvpSlots 1 ∧ s.cal = none ∧
        (3 : BitVec 8).toNat < 2 ^ s.cvpSlots 1 ∧ 2 ^ s.cvpSlots 1 ≤ (4 : BitVec 8).toNat) ∧
      ((calAt 1 (calOf 3 9 false)).cal = some (calOf 3 9 false) ∧ (calOf 3 9 false).port < 8 ∧ (calAt 1 (calOf 3 9 false)).rf Reg.CVP_CAL_STATUS.STATE = 1 ∧
        (calAt 2 (calOf 3 9 false)).rf Reg.CVP_CAL_STATUS.STATE = 2 ∧ (calAt 3 (calOf 3 9 false)).rf Reg.CVP_CAL_STATUS.STATE = 3) ∧
      ((calOf 0 0 false).frames = 2 ^ 8 ∧ (∀ i, i < 8 → (calOf 0 0 false).mask.testBit i = true → (calAt 2 (calOf 0 0 false)).calCause (calOf 0 0 false) i = 0)) ∧
      ((calOf 0 0 true).mask.testBit 0 = true ∧ (calAt 2 (calOf 0 0 true)).calCause (calOf 0 0 true) 0 = 1) ∧
      ((portRuns 0 false).on (Reg.CVP_STAT.CAL 1) = false ∧ ((portRuns 0 false).wf (Reg.CVP_STAT.CAL 1) 1).on (Reg.CVP_STAT.CAL 1) = true) := by decide

/-! ## Panel, general I/O, debug access -/

/-- The panel enabled, past its first sixteen scans, baselines 100. -/
def panelOn : State :=
  let s := base.wf Reg.PNL_CTL.EN 1
  { (List.range 12).foldl (fun s k => s.wf (Reg.PNL_COUNT.BASELINE k) 100) s with panel := { s.panel with scans := 20 } }
/-- Key 4 touched or with scans towards it. -/
def keyAt (touched : Bool) (up down : Nat) : State :=
  (panelOn.setBit Reg.PNL_KEYS.TOUCHED 4 touched).setPnlKey 4 { Key.zero with up := up, down := down }
/-- Twelve counts. -/
def counts (c : Nat) : List Nat := List.replicate 12 c

/-- R495: the second scan at ON touches the key. -/
theorem test_panel_touch :
    (after (.panelScan (counts (100 + base.rf Reg.PNL_THR.ON))) (keyAt false 1 0)).bit Reg.PNL_KEYS.TOUCHED 4 = true := by decide
/-- R502: OCLR clears the bits written 1. -/
theorem test_gpio_oclr : (after (.gpioOclr 0 5) (base.setReg (Reg.GPIO_OUT_at 0) 0xF)).reg (Reg.GPIO_OUT_at 0) = 0xA := by decide
/-- R506: the 65th waiting byte is refused (3). -/
theorem test_uart_full :
    (after (.uartTxd 1 5) (base.setUart 1 ⟨List.replicate 64 0, [], some 1, false⟩)).rf Reg.GPIO_STATUS.REASON = 3 := by decide
/-- R532: a register read captures status 0 and the value. -/
theorem test_debug_read : (after (.dbgaccIoRead 0x4031) base).dbg = ⟨0, base.reg 0x4031⟩ := by decide
/-- R532: a running thread's registers are not read (2). -/
theorem test_debug_running : (after (.dbgaccRegRead t0 3) base).dbg.status = 2 := by decide

theorem witness_PanelScansItsKeys :
    (base.online islPanel = true ∧ base.on Reg.PNL_CTL.LOCK = false ∧ base.on Reg.PNL_CTL.EN = false ∧ getBits (1 : Word) 2 1 = 0 ∧
        base.vaultRead 4 ≠ none ∧ ((base.setVrec 4 ⟨⟨0, false⟩, ⟨0, false⟩⟩).vaultRead 4 = none)) ∧
      (getBits (1 : Word) 0 1 = 1 ∧ panelOn.on Reg.PNL_CTL.EN = true ∧ panelOn.on Reg.PNL_CTL.LOCK = false ∧ panelOn.on Reg.PNL_STATUS.INIT = false ∧
        panelOn.rf Reg.PNL_KEYS.TOUCHED = 0 ∧ panelOn.rf Reg.PNL_KEYS.SUSPECT = 0 ∧ panelOn.rf Reg.PNL_STUCK.STUCK = 0 ∧
        (keyAt true 0 0).rf Reg.PNL_KEYS.TOUCHED ≠ 0 ∧
        ({ panelOn with vault := { panelOn.vault with cur := some ⟨2, true, 5, false⟩ } } : State).vault.cur ≠ none) ∧
      ((4 : Nat) < 12 ∧ (counts 5).length = 12 ∧ panelOn.panel.rebase.testBit 4 = false ∧
        ({ panelOn with panel := { panelOn.panel with scans := 15 } } : State).panel.scans + 1 = 16 ∧ (panelOn.key 4).sum + 5 < 2 ^ 20 ∧
        panelOn.on Reg.PNL_STATUS.NOREF = false ∧ panelOn.bit Reg.PNL_KEYS.SUSPECT 4 = false ∧
        ({ panelOn with panel := { panelOn.panel with rebase := 16 } } : State).panel.rebase.testBit 4 = true) ∧
      (Plain (keyAt false 1 0) 4 ∧ Plain (keyAt false 0 0) 4 ∧ Plain (keyAt true 0 1) 4 ∧ (keyAt true 0 1).bit Reg.PNL_KEYS.TOUCHED 4 = true ∧
        (keyAt false 1 0).bit Reg.PNL_KEYS.TOUCHED 4 = false ∧ ((keyAt true 0 1).key 4).down = 1 ∧ ((keyAt false 1 0).key 4).up = 1 ∧
        -(base.rf Reg.PNL_THR.NEG : Int) < 0 ∧ (0 : Int) < base.rf Reg.PNL_THR.OFF ∧ base.rf Reg.PNL_THR.OFF ≤ base.rf Reg.PNL_THR.ON) := by
  unfold Plain; decide

theorem witness_PinsPwmAndTriggers :
    base.online islGio = true ∧ (let s := base.setReg (Reg.GPIO_RISE_at 0) 1; s.bit (Reg.GPIO_RISE.PINS 0) 0 = true ∧ s.bit (Reg.GPIO_IN.PINS 0) 0 = false ∧
        s.bit (Reg.GPIO_EDGE.PINS 0) 0 = false) ∧ (31 : Fin 32).val ≥ 16 ∧ (15 : Fin 32).val < 16 ∧
      (base.wf (Reg.PWM_CFG.EN 3) 1).on (Reg.PWM_CFG.EN 3) = true ∧ base.on (Reg.PWM_CFG.EN 3) = false ∧
      getBits (1 : Word) 0 20 ≠ base.rf (Reg.PWM_CFG.PRESCALE 3) ∧
      (base.wf Reg.GPIO_TRIG.WIDTH 5).rf Reg.GPIO_TRIG.WIDTH = 5 ∧ base.on Reg.GPIO_TRIG.IN = false ∧
      (base.wf Reg.GPIO_TRIG.IN 1).on Reg.GPIO_TRIG.IN = true ∧ getBits (0 : Word) 16 16 = 0 ∧ getBits (0x10000 : Word) 16 16 = 1 ∧
      (let s := (after (.pwmCfgWrite 3 0xE0000000) (base.wf Reg.WDT_STATUS.STAGE1 1)); s.on (Reg.PWM_CFG.EN 3) = true ∨ s.on (Reg.PWM_CFG.SAFE 3) = true) := by
  decide

/-- Masters with a transfer in progress, full and empty. -/
def full (n : Nat) : List Byte := List.replicate n 1
theorem witness_SerialPortsMoveBytes :
    (let s := (base.setUart 1 ⟨full 64, full 64, some 1, false⟩).wf (Reg.UART_CFG.EN 1) 1; 64 ≤ (s.uart 1).tx.length ∧ (s.uart 1).shift ≠ none ∧
        s.on (Reg.UART_CFG.EN 1) = true ∧ 64 ≤ (s.uart 1).rx.length ∧ (s.uart 1).de = false) ∧
      (let s := base.wf (Reg.UART_CFG.EN 1) 1; (s.uart 1).tx = [] ∧ (s.uart 1).shift = none ∧ s.on (Reg.UART_CFG.EN 1) = true ∧ (s.uart 1).rx.length < 64) ∧
      (base.wf (Reg.UART_CFG.PARITY 1) 1).rf (Reg.UART_CFG.PARITY 1) ≠ 0 ∧ base.on (Reg.UART_CFG.EN 1) = false ∧ base.rf (Reg.UART_CFG.PARITY 1) = 0 ∧
      (let s := (base.setI2c 0 ⟨full 32, [], none, false⟩).wf (Reg.I2C_CFG.EN 0) 1; (s.i2c 0).cur = none ∧ getBits (0x2000 : Word) 8 6 = 32 ∧
        getBits (0x2000 : Word) 7 1 = 0 ∧ getBits (0x2080 : Word) 7 1 = 1 ∧ 32 ≤ (s.i2c 0).tx.length ∧ (s.i2c 0).rx.length + 32 ≤ 32 ∧
        s.on (Reg.I2C_CFG.EN 0) = true) ∧ 32 < getBits (0x2100 : Word) 8 6 ∧ (base.i2c 0).tx.length < 32 ∧
      ((base.setI2c 0 ⟨[], [], some 0x100, false⟩).i2c 0).cur = some 0x100 ∧
      (let s := (base.setSpi 0 ⟨full 64, [], none, none⟩).wf (Reg.SPI_CFG.EN 0) 1; (s.spi 0).cur = none ∧ getBits (0x40 : Word) 0 7 = 64 ∧
        64 ≤ (s.spi 0).tx.length ∧ (s.spi 0).rx.length + 64 ≤ 64 ∧ (s.spi 0).held = none ∧ s.on (Reg.SPI_CFG.EN 0) = true) ∧
      64 < getBits (0x41 : Word) 0 7 ∧ (base.spi 0).tx.length < 64 ∧ ((base.setSpi 0 ⟨[], [], some 1, none⟩).spi 0).cur = some 1 := by decide

theorem witness_DebugAccessReachesRegistersAndThreads :
    base.tapUp = true ∧ valueOf (base.ioRead .debug 54 0x4031).1 ≠ none ∧ valueOf (base.ioRead .debug 54 0x4200).1 = none ∧
      valueOf (base.ioWrite .debug 54 0x4031 1).1 ≠ none ∧ valueOf (base.ioWrite .debug 54 0x4200 1).1 = none ∧ base.online 0 = true ∧
      (base.setShell 0 { base.shell 0 with st := .offline }).online 0 = false ∧ (base.thr t0).run ≠ .stopped ∧ (base.thr ⟨1, 0⟩).run = .stopped ∧
      ((0x5F : BitVec 8).toNat < 0x60 ∧ (0xC1 : BitVec 8).toNat < 0xC2 ∧ (0xD9 : BitVec 8).toNat < 0xDA ∧ 0x60 ≤ (0x60 : BitVec 8).toNat ∧
        (0x60 : BitVec 8).toNat < 0x80 ∧ 0xC2 ≤ (0xC2 : BitVec 8).toNat ∧ 0xDA ≤ (0xDA : BitVec 8).toNat) := by decide

/-! ## Memories -/

theorem witness_MemoriesStayCanonical : MemWf State.reset ∧ ∃ t, step State.reset = .next t :=
  ⟨⟨by decide, by decide, by decide, by decide, by decide⟩, ⟨_, rfl⟩⟩

/-! ## Clauses on packets, banks and registers of their own -/

/-- A SPAN_FAULT behind another to its pier, and one to a pier that is OFFLINE. -/
def faulting : State := { base with net := { base.net with spanFaults := [(t0, 7), (⟨0, 1⟩, 8)] } }
theorem witness_deliveries_wait_and_break :
    (castBad (.flits 0) (castFlits tyEvent 63 0 0) = true ∧ castBad .none (castFlits tyEvent 63 0 0) = false) ∧
      castBad (.flits 0) (castFlits tyCause SysCause.thermal.code 0 0) = true ∧
      (faulting.net.spanFaults[1]? = some (⟨0, 1⟩, 8) ∧ (faulting.net.spanFaults.take 1).any (fun e => e.1.pier == (0 : PierIx)) = true ∧
        (faulting.net.spanFaults.take 0).any (fun e => e.1.pier == (0 : PierIx)) = false) ∧
      (let s := faulting.setShell 0 { base.shell 0 with st := .offline }; s.online 0 = false ∧ s.grade.hasIsland 0 = true) := by decide

/-- A scrub behind a request at its bank; a quarter at the end of its initialisation. -/
theorem witness_scrubs_wait :
    ({ brought loading with scrubs := [0] } : State).bankWanted (8 * 0) = true ∧ base.bankWanted (8 * 0xFFFFF) = false := by decide
theorem witness_deck_init_done : ∀ k, k < 256 → ((after (.deckInitStart 0) base).slot k).st = .free := fun _ _ => rfl

/-- The registers whose write or read is a command of its own are reached; channel 2's DMA_CH_CTL too. -/
theorem witness_own_registers :
    [Reg.PIER_THRUN_at 3, Reg.PIER_THPC_at 3 7, Reg.PIER_EVMASK_LO_at 3 7, Reg.PIER_EVMASK_HI_at 3 7, Reg.SPAN_CTL_at 3, Reg.DECK_ECC_INJ_at 3,
      Reg.DMA_CH_DESC_at 2, Reg.DMA_CH_CTL_at 2, Reg.VIA_RT_SEL_at, Reg.VIA_RT_DATA_at, Reg.SPLL_OPCFG_at 2, Reg.SPLL_SSC_at, Reg.CPLL_CTL_at,
      Reg.IOPLL_ISL_at 4, Reg.FLC_RDWAIT_at, Reg.RTC_SLEW_at, Reg.REC_HIST_SEL_at, Reg.REC_CH_SEL_at, Reg.PAR_CFG_at, Reg.BOOT_CONFIRM_at,
      Reg.BOOT_SYSRESET_at, Reg.WDT_KEY_at, Reg.CVP_OFS_at 7 7, Reg.ABT_RELEASE_at, Reg.ETH_MDIO_CMD_at, Reg.ETH_FRX_POP_at,
      Reg.ETH_FTX_DATA_at, Reg.ETH_FTX_SEND_at, Reg.FSV_STREAM_DATA_at 3, Reg.FSV_STREAM_CTL_at 3, Reg.GPIO_OSET_at 1, Reg.GPIO_OCLR_at 1,
      Reg.PWM_CFG_at 2, Reg.I2C_CMD_at 1, Reg.SPI_CMD_at 1, Reg.REC_OPSEC_LO_at, Reg.RTC_SEC_at, Reg.ETH_FRX_DATA_at, Reg.FLC_BUF_DATA_at,
      Reg.UART_RXD_at 3, Reg.I2C_DATA_at 1, Reg.SPI_DATA_at 1].all (fun a => convUp.reaches a) = true ∧
      convUp.held.por = false := by decide

/-- Flits granted: sent on the Lattice, injected on a ring, and carried on there; a flit's packet holds its link, and its credit is spent. -/
theorem witness_links_grant :
    (loading.net.fab.grants.map (fun w => (linkLattice w.link, linkEject w.link, w.flit.ix)) = [(true, false, 0)]) ∧
      (let f := reading.net.fab.cycle.1; f.grants.map (fun w => (linkRing w.link, w.src)) = [(true, some (8 * 176))] ∧ linkRing 176 = false ∧
        f.cycle.1.grants.any (fun w => linkRing w.link && (match w.src with | some k => linkRing (k / 8) | none => false)) = true) ∧
      (let f := storing.net.fab.cycle.1; f.cred ≠ [] ∧ f.wants.any (fun x => f.mayGo x) = true) := by decide

end Sys2Proof.Tests
end

section
/-!
PROOFS. No command stops the device: whatever test or look-up on the state stands before a command's effect, each of its branches ends
in a next state.
-/

namespace Sys2Proof.Machine

/-- A command with one test before its effect answers a next state either way. -/
theorem next_ite {p : Prop} [Decidable p] (a b : State) :
    ∃ t, (if p then (.next a : Host.Outcome State Fault Refusal) else .next b) = .next t := by
  by_cases h : p
  · exact ⟨a, if_pos h⟩
  · exact ⟨b, if_neg h⟩

/-- A command of the GIO island answers a next state whether or not the island is ONLINE. -/
theorem gioStep_next (s t : State) : ∃ u, gioStep s t = .next u := next_ite t s

/-- A Fobex command answers a next state whether or not its request stands at the head of its lane. -/
theorem State.onReady_next (s : State) (op : Nat) (f : FReq → State) : ∃ t, s.onReady op f = .next t := by
  unfold State.onReady
  cases s.ready op with
  | none => exact ⟨s, rfl⟩
  | some r => exact ⟨f r, rfl⟩

theorem execGpioEdge_next (b : Fin 2) (i : Fin 32) (level : Bool) (s : State) : ∃ t, execGpioEdge b i level s = .next t := by
  unfold execGpioEdge
  split
  · exact ⟨s, rfl⟩
  · exact gioStep_next s _

theorem execPwmPeriodBoundary_next (c : Fin 16) (s : State) : ∃ t, execPwmPeriodBoundary c s = .next t := by
  unfold execPwmPeriodBoundary
  split
  · exact gioStep_next s _
  · exact ⟨s, rfl⟩

theorem execUartCharacterSent_next (u : Fin 4) (s : State) : ∃ t, execUartCharacterSent u s = .next t := by
  unfold execUartCharacterSent
  split
  · exact gioStep_next s _
  · exact ⟨s, rfl⟩

/-- Each command answers a next state. The cases stand by what comes before the effect: a Fobex request, the GIO island's state, a
look-up of a packet, a job or a group, several tests, one test, nothing. -/
theorem exec_next (c : Instr) (s : State) : ∃ t, exec c s = .next t := by
  cases c with
  | hello | bye | presenceStatus | close | readIo | writeIo | readHist | readExtremes | readLog | streamOpen | streamClose
  | setTime | updateBegin | updateData | updateCommit | reset => exact s.onReady_next _ _
  | gpioEdge b i level => exact execGpioEdge_next b i level s
  | pwmPeriodBoundary c => exact execPwmPeriodBoundary_next c s
  | uartCharacterSent u => exact execUartCharacterSent_next u s
  | event | syscause | spanfault | requestTimeout | groupStart | elementLoadReturn | conflictCheck | replayReissue
  | storeAcknowledgement | jobFaultEnd | jobCompletion | vend | abortDrained =>
    dsimp only [exec, execEvent, execSyscause, execSpanfault, execRequestTimeout, execGroupStart, execElementLoadReturn,
      execConflictCheck, execReplayReissue, execStoreAcknowledgement, execJobFaultEnd, execJobCompletion, execVend, execAbortDrained]
    repeat' split
    all_goals exact ⟨_, rfl⟩
  | porNAssert | lockWindow | islandActionEnd | upstepTimeout | flcOperationTimeout | tailErase | bbtCopyRecord | flcBufDataAccess
  | pwrfailAssert | pwrfailDeassert | verification | release | frameReceive | sessionAgeout | laneStartTimeout
  | extest | dbgaccIoRead | dbgaccIoWrite | dbgaccRegRead | dbgaccRegWrite | vaultWriteComplete | frameTransmitEnd =>
    dsimp only [exec, execPorNAssert, execLockWindow, execIslandActionEnd, execUpstepTimeout, execFlcOperationTimeout, execTailErase,
      execBbtCopyRecord, execFlcBufDataAccess, execPwrfailAssert, execPwrfailDeassert, execVerification, execRelease, execFrameReceive,
      execSessionAgeout, execLaneStartTimeout, execExtest, execDbgaccIoRead, execDbgaccIoWrite, execDbgaccRegRead,
      execDbgaccRegWrite, execVaultWriteComplete, execFrameTransmitEnd]
    repeat' split
    all_goals exact ⟨_, rfl⟩
  | bandSearchStep | btnStuck | buttonArmed | calendarStep | channelConfigWrite | channelSample | dhcpRetransmit | dhcpT1 | dhcpT2
  | ethFrxDataRead | ethFrxPop | ethFtxDataWrite | ethFtxSend | flcInit | flush | fobexResetDelay | fsvStreamDataWrite | gpioOclr
  | gpioOset | historyClear | holdReached | i2cCmd | i2cData | i2cTransferEnd | iopllRelockTimeout | islandDivWrite | islandGate
  | islandOff | islandReset | islandRestart | leaseExpiry | mdioCmd | opsecAdvance | overlayApply | panelEnable | panelScan
  | parCfgWrite | pauseExpiry | phyPoll | pressBegin | pressEnd | pulseEnd | pwmCfgWrite | quiesceTimeout | rcRead | rebase
  | recChSelWrite | recFlushNow | recHistSelWrite | recOpsecLoRead | recPush | recSnapFire | recorderAppend | registerWrite
  | roleInstantiation | routesWrite | rtcSecRead | rtcSlewWrite | saveRef | shellOffline | slewEnd | slotSelection | snapshotFire
  | spiCmd | spiData | spiTransferEnd | streamMaxage | streamPush | sysReset | trigIn | trigPulse | txDiscard | uartReceive
  | uartRxdRead | uartTxd | vaultCheck | vaultRecordWrite | viaRtDataWrite | viaRtSelWrite | wdtKeyWrite | wdtStage1 | wdtStage2
  | windowExpiry => exact next_ite _ _
  | _ => exact ⟨_, rfl⟩

/-- Settles O2: by the command, each branch of its meaning a next state. -/
theorem everyCommandAnswersNextState : Obligations.EveryCommandAnswersNextState := exec_next

end Sys2Proof.Machine
end

section
/-!
PROOFS. The state after a power-on reset (R10, R539), and a SYS reset called for while VDD_AON is absent.
-/

namespace Sys2Proof.Machine
open Sys2Proof.Claims

/-- After a power-on reset no memory lists a byte, and each is canonical over what an unlisted byte reads as. -/
theorem memWf_reset : MemWf State.reset := ⟨rfl, rfl, rfl, rfl, rfl⟩

theorem thr_reset (th : Thr) : State.reset.thr th = Thread.reset th.ix := rfl

/-- MODE is Kernel in the TSTAT a thread has after a reset, whatever number THREAD holds (R539). -/
theorem Thread.reset_kernel (n : Nat) : (Thread.reset n).kernel = true := by
  have h : getBits (BitVec.ofNat 32 (1 + 256 * (n % 8))) 0 1 = 1 := by
    simp only [getBits, BitVec.toNat_ofNat]
    omega
  simp [Thread.kernel, Thread.reset, h]

theorem Thread.reset_run (n : Nat) : (Thread.reset n).run = .stopped := rfl

/-- Every island but CONV returns ONLINE from POR (R274). -/
theorem shell_reset_online : ∀ i : Fin 30, i.val ≠ islConv → (State.reset.shell i.val).st = .online := by decide

theorem shell_reset_conv : (State.reset.shell islConv).st = .offline := by decide

/-- Both mutes are latched with RESET as their source (R459). -/
theorem reset_muted : State.reset.on Reg.ABT_STATUS.MUTE_0 = true ∧ State.reset.on Reg.ABT_STATUS.MUTE_1 = true ∧
    State.reset.bit Reg.ABT_SRC_LATCH.SRC 20 = true := by decide

/-- The watchdog is held, and BOOT shows the start of a sequence after POR (R394, R416). -/
theorem reset_boot_regs : State.reset.on Reg.WDT_STATUS.HELD = true ∧ State.reset.rf Reg.BOOT_STATUS.STATE = 0 ∧
    State.reset.rf Reg.BOOT_RESET_CAUSE.CAUSE = 0 := by decide

/-- Settles O60: the registers by their reset values, the threads by `Thread.reset`, the shells by `Net.reset`. -/
theorem resetStateIsCanonicalAndMuted : Obligations.ResetStateIsCanonicalAndMuted := by
  obtain ⟨hmute0, hmute1, hsrc⟩ := reset_muted
  obtain ⟨hheld, hstate, hcause⟩ := reset_boot_regs
  have hthreads (th : Thr) : (State.reset.thr th).run = .stopped ∧ (State.reset.thr th).kernel = true := by
    rw [thr_reset]
    exact ⟨Thread.reset_run _, Thread.reset_kernel _⟩
  exact ⟨memWf_reset, rfl, rfl, rfl, hmute0, hmute1, hsrc, hheld, rfl, hstate, shell_reset_conv, shell_reset_online, hthreads, hcause, rfl⟩

/-! ## A SYS reset while VDD_AON is absent -/

/-- Thread 0 runs while VDD_AON is marked absent without POR asserted; `Held.any` does not look at VDD_AON. -/
def aonAbsent : State :=
  { State.reset with
    threads := [(0, { Thread.reset 0 with run := .running })]
    held := { State.reset.held with aon := true } }

theorem aonAbsent_quiet : Quiet aonAbsent := ⟨rfl, rfl⟩

theorem aonAbsent_not_held : aonAbsent.held.any = false := rfl

/-- With VDD_AON absent a SYS reset adds nothing (`State.sysResetNow`). -/
theorem exec_sysReset_of_aonAbsent (s : State) (c : ResetCause) (h : s.held.aon = true) : exec (.sysReset c) s = .next s := by
  show execSysReset c s = .next s
  unfold execSysReset
  split
  · rfl
  · simp [State.sysResetNow, h]

/-- Refutes O46: its first clause asks `held.any = false` alone, which says nothing of `held.aon`; with VDD_AON absent the command SYS_RESET
changes nothing, and `aonAbsent` keeps its running thread. The clause needs `s.held.aon = false` beside it: the model sets `held.aon`
together with `held.por` alone (PorCause.vddAon), so only such unreached states separate the two. -/
theorem not_resetsLoadAndKeep : ¬ Obligations.ResetsLoadAndKeep := by
  rintro ⟨hsys, -⟩
  obtain ⟨hreset, -⟩ := hsys aonAbsent aonAbsent_quiet aonAbsent_not_held
  obtain ⟨t, ht, hthreads, -⟩ := hreset .wdt (by decide)
  have hsame : aonAbsent = t := by
    rw [exec_sysReset_of_aonAbsent aonAbsent .wdt rfl] at ht
    injection ht
  subst hsame
  exact List.cons_ne_nil _ _ hthreads

end Sys2Proof.Machine
end

section
/-!
PROOFS. The laws of a register written and read field by field (R11, R12, R15, R16): in every row of the map the fields lie within the
word, apart, and hold their reset values.
-/

namespace Sys2Proof.Machine

/-! ## The layout of a register -/

/-- Two fields share no bit. -/
abbrev FSpec.Apart (f g : FSpec) : Prop := f.lo + f.width ≤ g.lo ∨ g.lo + g.width ≤ f.lo

/-- Each field lies within the word and holds its reset value. -/
abbrev FSpec.Fits (f : FSpec) : Prop := f.lo + f.width ≤ 32 ∧ f.rst < 2 ^ f.width

/-- Fields of one register: each fits, any two are apart. -/
abbrev Laidout (fs : List FSpec) : Prop := (∀ f ∈ fs, f.Fits) ∧ fs.Pairwise FSpec.Apart

/-- The tables of register rows that `regRow` looks in. -/
def rowTables : List (List RRow) :=
  [pierRows, spanRows, dispRows, ldrRows, deckRows, dmaRows, dmaChRows, viaRows, gaugeRows, clkRows, flashRows, recRows, recChRows,
    snapRows, aonRows, bootRows, cvpRows, cvpPortRows, abtRows, ethRows, macRows, streamRows, pnlRows, gioRows, gpioBankRows,
    gpioBank1Rows, pwmRows, uartRows, i2cRows, spiRows]

theorem rowTables_laidout : ∀ rows ∈ rowTables, ∀ r ∈ rows, Laidout r.fields := by decide

/-- A look-up answers rows of the tables alone. -/
def FromTables (x : Option RRow) : Prop := ∀ r ∈ x, ∃ rows ∈ rowTables, r ∈ rows

theorem FromTables.none : FromTables none := by simp [FromTables]

theorem FromTables.look {rows : List RRow} (h : rows ∈ rowTables) (off : Nat) : FromTables (look rows off) :=
  fun _ hr => ⟨rows, h, List.mem_of_find?_eq_some hr⟩

theorem FromTables.ite {p : Prop} [Decidable p] {x y : Option RRow} (hx : FromTables x) (hy : FromTables y) :
    FromTables (if p then x else y) := by
  split
  · exact hx
  · exact hy

/-- Whatever block an address lies in, its row is one of the tables'. -/
theorem fromTables_regRow (a : Nat) : FromTables (regRow a) := by
  unfold regRow
  repeat' with_reducible apply FromTables.ite
  any_goals with_reducible exact .none
  all_goals with_reducible exact .look (by simp [rowTables]) _

theorem laidout_fieldsAt (a : Nat) : Laidout (fieldsAt a) := by
  unfold fieldsAt
  cases h : regRow a with
  | none => exact ⟨by simp, List.Pairwise.nil⟩
  | some r =>
    obtain ⟨rows, hrows, hr⟩ := fromTables_regRow a r h
    exact rowTables_laidout rows hrows r hr

theorem fieldsAt_eq_nil {a : Nat} (h : regRow a = none) : fieldsAt a = [] := by simp [fieldsAt, h]

/-! ## A write -/

theorem Acc.written_lt (acc : Acc) {old v n : Nat} (ho : old < 2 ^ n) (hv : v < 2 ^ n) : acc.written old v < 2 ^ n := by
  cases acc with
  | ro | rc | wo => exact ho
  | rw | rwl | rwp | rws => exact hv
  | w1c => exact Nat.lt_of_le_of_lt Nat.and_le_left ho
  | w1s => exact Nat.or_lt_two_pow ho hv

/-- A field after a write of its register: its code's value where the permit takes it, its own value where not. -/
def FSpec.after (f : FSpec) (p : Permit) (old v : Word) : Nat :=
  if p.allows f.acc then f.acc.written (getBits old f.lo f.width) (getBits v f.lo f.width) else getBits old f.lo f.width

/-- A field apart from every field written keeps its value (R12). -/
theorem getBits_writeFields_apart (p : Permit) (fs : List FSpec) (old v : Word) (g : FSpec) (h : ∀ f ∈ fs, f.Apart g) :
    getBits (writeFields p fs old v) g.lo g.width = getBits old g.lo g.width := by
  induction fs generalizing old with
  | nil => rfl
  | cons f t ih =>
    have hf : f.Apart g := h f (by simp)
    rw [writeFields, ih _ (fun x hx => h x (by simp [hx]))]
    split
    · exact getBits_putBits_other _ _ _ _ _ _ hf.symm
    · rfl

/-- Each field of a register takes the value of its own code (R11, R12). -/
theorem getBits_writeFields (p : Permit) (fs : List FSpec) (old v : Word) (hw : Laidout fs) (f : FSpec) (hf : f ∈ fs) :
    getBits (writeFields p fs old v) f.lo f.width = f.after p old v := by
  obtain ⟨hfits, hapart⟩ := hw
  induction fs generalizing old with
  | nil => simp at hf
  | cons g t ih =>
    obtain ⟨hg, ht⟩ := List.pairwise_cons.1 hapart
    rw [writeFields]
    rcases List.mem_cons.1 hf with rfl | hmem
    · rw [getBits_writeFields_apart _ _ _ _ _ (fun x hx => (hg x hx).symm), FSpec.after]
      split
      · rw [getBits_putBits_same _ _ _ _ (hfits f (by simp)).1,
          Nat.mod_eq_of_lt (f.acc.written_lt (getBits_lt _ _ _) (getBits_lt _ _ _))]
      · rfl
    · rw [ih _ hmem (fun x hx => hfits x (by simp [hx])) ht, FSpec.after, FSpec.after]
      have hkeep (u : Nat) : getBits (putBits old g.lo g.width u) f.lo f.width = getBits old f.lo f.width :=
        getBits_putBits_other _ _ _ _ _ _ (hg f hmem).symm
      split_ifs <;> simp only [hkeep]

/-- A field of a register written by `writeReg`. -/
theorem State.getBits_writeReg (s : State) (p : Permit) (a : Nat) (v : Word) (f : FSpec) (hf : f ∈ fieldsAt a) :
    getBits ((s.writeReg p a v).reg a) f.lo f.width = f.after p (s.reg a) v := by
  rw [State.writeReg, State.reg_setReg_same]
  exact getBits_writeFields _ _ _ _ (laidout_fieldsAt a) f hf

/-! ## A read that clears -/

theorem getBits_clearRc_apart (fs : List FSpec) (w : Word) (g : FSpec) (h : ∀ f ∈ fs, f.Apart g) :
    getBits (clearRc fs w) g.lo g.width = getBits w g.lo g.width := by
  induction fs generalizing w with
  | nil => rfl
  | cons f t ih =>
    have hf : f.Apart g := h f (by simp)
    rw [clearRc, ih _ (fun x hx => h x (by simp [hx]))]
    split
    · exact getBits_putBits_other _ _ _ _ _ _ hf.symm
    · rfl

/-- A clearing read returns each RC field to its reset value and no other field (R16). -/
theorem getBits_clearRc (fs : List FSpec) (w : Word) (hw : Laidout fs) (f : FSpec) (hf : f ∈ fs) :
    getBits (clearRc fs w) f.lo f.width = if f.acc = .rc then f.rst else getBits w f.lo f.width := by
  obtain ⟨hfits, hapart⟩ := hw
  induction fs generalizing w with
  | nil => simp at hf
  | cons g t ih =>
    obtain ⟨hg, ht⟩ := List.pairwise_cons.1 hapart
    rw [clearRc]
    rcases List.mem_cons.1 hf with rfl | hmem
    · rw [getBits_clearRc_apart _ _ _ (fun x hx => (hg x hx).symm)]
      obtain ⟨hlo, hrst⟩ := hfits f (by simp)
      split
      · rw [getBits_putBits_same _ _ _ _ hlo, Nat.mod_eq_of_lt hrst]
      · rfl
    · rw [ih _ hmem (fun x hx => hfits x (by simp [hx])) ht]
      have hkeep (u : Nat) : getBits (putBits w g.lo g.width u) f.lo f.width = getBits w f.lo f.width :=
        getBits_putBits_other _ _ _ _ _ _ (hg f hmem).symm
      split_ifs <;> simp only [hkeep]

end Sys2Proof.Machine
end

section
/-!
PROOFS. What a register access at its island does, by block of the map (R533 to R536), and the registers whose write or read is a command
of its own.
-/

namespace Sys2Proof.Machine
open Sys2Proof.Claims

/-! ## Accesses that reach no register -/

theorem exec_registerWrite (src : Src) (a : BitVec 16) (v : Word) (s : State) :
    exec (.registerWrite src a v) s = .next (if s.reaches a.toNat then (s.busWrite src a.toNat v).st else s) := by
  show execRegisterWrite src a v s = _
  unfold execRegisterWrite
  split <;> rfl

theorem exec_rcRead (src : Src) (a : BitVec 16) (s : State) :
    exec (.rcRead src a) s = .next (if s.reaches a.toNat then (s.busRead src a.toNat).2 else s) := by
  show execRcRead src a s = _
  unfold execRcRead
  split <;> rfl

theorem State.busWrite_reserved (s : State) (src : Src) {a : Nat} (v : Word) (h : regRow a = none) : s.busWrite src a v = .ok s := by
  simp [State.busWrite, h]

theorem State.busRead_reserved (s : State) (src : Src) {a : Nat} (h : regRow a = none) : s.busRead src a = (0, s) := by
  simp [State.busRead, h]

theorem State.reaches_eq (s : State) {a isl : Nat} (h : islandOf a = some isl) : s.reaches a = s.online isl := by
  simp [State.reaches, h]

/-! ## A write by block -/

section Blocks
variable (s : State) (src : Src) {a : Nat} (v : Word)

theorem State.busWrite_pier (h : regRow a ≠ none) (hi : a < 0x1100) :
    s.busWrite src a v = s.pierWrite ((a - 0x100) / 0x100) ((a - 0x100) % 0x100) v := by
  unfold State.busWrite
  rw [if_neg (by simpa using h), if_pos hi]

theorem State.busWrite_dma (h : regRow a ≠ none) (lo : 0x2000 ≤ a) (hi : a < 0x2800) : s.busWrite src a v = s.writeDmaReg a v := by
  unfold State.busWrite
  rw [if_neg (by simpa using h)]
  repeat rw [if_neg (by omega)]
  rw [if_pos hi]

theorem State.busWrite_via (h : regRow a ≠ none) (lo : 0x2800 ≤ a) (hi : a < 0x3000) : s.busWrite src a v = s.writeVia a v := by
  unfold State.busWrite
  rw [if_neg (by simpa using h)]
  repeat rw [if_neg (by omega)]
  rw [if_pos hi]

theorem State.busWrite_boot (h : regRow a ≠ none) (lo : 0x4100 ≤ a) (hi : a < 0x4200) : s.busWrite src a v = s.writeBoot src a v := by
  unfold State.busWrite
  rw [if_neg (by simpa using h)]
  repeat rw [if_neg (by omega)]
  rw [if_pos hi]

theorem State.busWrite_abt (h : regRow a ≠ none) (lo : 0x4500 ≤ a) (hi : a < 0x4600) : s.busWrite src a v = s.abtWrite src a v := by
  unfold State.busWrite
  rw [if_neg (by simpa using h)]
  repeat rw [if_neg (by omega)]
  rw [if_pos hi]

theorem State.busWrite_eth (h : regRow a ≠ none) (lo : 0x4600 ≤ a) (hi : a < 0x4700) : s.busWrite src a v = s.writeEth src a v := by
  unfold State.busWrite
  rw [if_neg (by simpa using h)]
  repeat rw [if_neg (by omega)]
  rw [if_pos hi]

/-- A DMA register below the channels' is written by its codes. -/
theorem State.busWrite_dmaCommon (h : regRow a ≠ none) (lo : 0x2000 ≤ a) (hi : a < 0x2100) :
    s.busWrite src a v = .ok (s.writeReg .all a v) := by
  rw [s.busWrite_dma src v h lo (by omega), State.writeDmaReg]
  exact if_pos hi

/-- A Viaduct register but the route table's two is written by its codes, RWL fields while LOCK is 0 (R238). -/
theorem State.busWrite_viaPlain (h : regRow a ≠ none) (lo : 0x2800 ≤ a) (hi : a < 0x3000) (hsel : a ≠ Reg.VIA_RT_SEL_at)
    (hdata : a ≠ Reg.VIA_RT_DATA_at) : s.busWrite src a v = s.writeOr ⟨!s.on Reg.VIA_CTL.LOCK, true, true⟩ viaRefuse 0 a v := by
  rw [s.busWrite_via src v h lo hi, State.writeVia, if_neg hsel, if_neg hdata]

end Blocks

/-! ## Registers whose write is a command of its own -/

/-- While POR is not asserted, REGISTER_WRITE at `x`, reached, is command `i`. -/
def IsWriteAt (src : Src) (v : Word) (s : State) (x : Nat) (i : Instr) : Prop :=
  ∀ a : BitVec 16, a.toNat = x → s.reaches x = true → s.held.por = false → exec (.registerWrite src a v) s = exec i s

/-- What the write does at the register is what the command does, once its island is reached and POR is not asserted. -/
theorem isWriteAt_of {src : Src} {v : Word} {s : State} {x : Nat} {i : Instr} {w : WRes} (hbus : s.busWrite src x v = w)
    (hexec : s.reaches x = true → s.held.por = false → exec i s = .next w.st) : IsWriteAt src v s x i := by
  rintro a rfl hr hp
  rw [exec_registerWrite, if_pos hr, hbus, hexec hr hp]

/-- A command that takes effect while POR is not asserted. -/
theorem next_of_aonUp {s t : State} (hp : s.held.por = false) :
    (if s.aonUp = true then (.next t : Host.Outcome State Fault Refusal) else .next s) = .next t := by
  simp [State.aonUp, hp]

/-- A command that takes effect while its island, the one at `x`, is ONLINE. -/
theorem next_of_reaches {s t : State} {x isl : Nat} (hr : s.reaches x = true) (hi : islandOf x = some isl) :
    (if s.online isl = true then (.next t : Host.Outcome State Fault Refusal) else .next s) = .next t := by
  rw [s.reaches_eq hi] at hr
  exact if_pos hr

/-- The same, the test within the state answered. -/
theorem next_ite_of_reaches {s t : State} {x isl : Nat} (hr : s.reaches x = true) (hi : islandOf x = some isl) :
    (.next (if s.online isl = true then t else s) : Host.Outcome State Fault Refusal) = .next t := by
  rw [s.reaches_eq hi] at hr
  rw [if_pos hr]

section OwnWrites
variable (src : Src) (v : Word) (s : State)

/-! ### Piers -/

theorem islandOf_pier {p off : Nat} (hp : p < 16) (ho : off < 0x100) : islandOf (0x100 + 0x100 * p + off) = some p := by
  unfold islandOf
  rw [if_neg (by omega), if_pos (by omega)]
  exact congrArg some (by omega)

theorem regRow_pier {p off : Nat} (hp : p < 16) (ho : off < 0x100) : regRow (0x100 + 0x100 * p + off) = look pierRows off := by
  unfold regRow
  rw [if_neg (by omega), if_pos (by omega)]
  exact congrArg (look pierRows) (by omega)

/-- A write at offset `off` of pier `p`. -/
theorem State.busWrite_pierAt {p off : Nat} (hp : p < 16) (ho : off < 0x100) (h : look pierRows off ≠ none) :
    s.busWrite src (0x100 + 0x100 * p + off) v = s.pierWrite p off v := by
  rw [s.busWrite_pier src v (by rwa [regRow_pier hp ho]) (by omega), show (0x100 + 0x100 * p + off - 0x100) / 0x100 = p by omega,
    show (0x100 + 0x100 * p + off - 0x100) % 0x100 = off by omega]

theorem thrOf_eq (th : Thr) : thrOf th.pier.val th.th.val = th := by
  cases th
  simp [thrOf]

/-- REGISTER_WRITE at an offset of a pier that is a command's own. -/
theorem isWriteAt_pier {p : PierIx} {off x : Nat} {i : Instr} {w : WRes} (hx : x = 0x100 + 0x100 * p.val + off) (ho : off < 0x100)
    (h : look pierRows off ≠ none) (hw : s.pierWrite p.val off v = w)
    (hexec : exec i s = .next (if s.online p.val = true then w.st else s)) : IsWriteAt src v s x i := by
  subst hx
  refine isWriteAt_of ((s.busWrite_pierAt src v p.isLt ho h).trans hw) fun hr _ => ?_
  rw [hexec]
  exact next_ite_of_reaches hr (islandOf_pier p.isLt ho)

theorem look_pier_thread : ∀ k : Fin 24, look pierRows (8 + k.val) ≠ none := by decide

theorem isWriteAt_thrun (p : PierIx) : IsWriteAt src v s (Reg.PIER_THRUN_at p.val) (.pierThrunWrite src p v) :=
  isWriteAt_pier src v s (off := 1) (by unfold Reg.PIER_THRUN_at; omega) (by omega) (by decide) rfl rfl

theorem isWriteAt_thpc (th : Thr) : IsWriteAt src v s (Reg.PIER_THPC_at th.pier.val th.th.val) (.pierThpcWrite src th v) := by
  have hi := th.th.isLt
  refine isWriteAt_pier src v s (off := 8 + th.th.val) (w := s.writeThpc th v) (by unfold Reg.PIER_THPC_at; omega) (by omega)
    (look_pier_thread ⟨th.th.val, by omega⟩) ?_ rfl
  unfold State.pierWrite
  rw [if_neg (by omega), if_pos (by omega), Nat.add_sub_cancel_left, thrOf_eq]

theorem isWriteAt_evmaskLo (th : Thr) :
    IsWriteAt src v s (Reg.PIER_EVMASK_LO_at th.pier.val th.th.val) (.pierEvmaskWrite src th false v) := by
  have hi := th.th.isLt
  refine isWriteAt_pier src v s (off := 8 + (8 + th.th.val)) (w := s.writeEvmask th false v)
    (by unfold Reg.PIER_EVMASK_LO_at; omega) (by omega) (look_pier_thread ⟨8 + th.th.val, by omega⟩) ?_ rfl
  unfold State.pierWrite
  rw [if_neg (by omega), if_neg (by omega), if_pos (by omega), show 8 + (8 + th.th.val) - 0x10 = th.th.val by omega, thrOf_eq]

theorem isWriteAt_evmaskHi (th : Thr) :
    IsWriteAt src v s (Reg.PIER_EVMASK_HI_at th.pier.val th.th.val) (.pierEvmaskWrite src th true v) := by
  have hi := th.th.isLt
  refine isWriteAt_pier src v s (off := 8 + (16 + th.th.val)) (w := s.writeEvmask th true v)
    (by unfold Reg.PIER_EVMASK_HI_at; omega) (by omega) (look_pier_thread ⟨16 + th.th.val, by omega⟩) ?_ rfl
  unfold State.pierWrite
  rw [if_neg (by omega), if_neg (by omega), if_neg (by omega), if_pos (by omega),
    show 8 + (16 + th.th.val) - 0x18 = th.th.val by omega, thrOf_eq]

/-! ### Spans, the Deck, the DMA and the Viaduct -/

theorem isWriteAt_spanCtl (q : QIx) : IsWriteAt src v s (Reg.SPAN_CTL_at q.val) (.spanCtlWrite q v) :=
  isWriteAt_of (w := s.writeSpanCtl q.val v) (by fin_cases q <;> rfl) fun _ _ => rfl

theorem islandOf_deckEccInj : ∀ q : QIx, islandOf (Reg.DECK_ECC_INJ_at q.val) = some (16 + q.val) := by decide

theorem isWriteAt_deckEccInj (q : QIx) : IsWriteAt src v s (Reg.DECK_ECC_INJ_at q.val) (.deckEccInjWrite q v) :=
  isWriteAt_of (w := s.writeInj q.val v) (by fin_cases q <;> rfl) fun hr _ => next_ite_of_reaches hr (islandOf_deckEccInj q)

theorem isWriteAt_dmaChDesc (c : Fin 16) : IsWriteAt src v s (Reg.DMA_CH_DESC_at c.val) (.dmaChDescWrite c v) :=
  isWriteAt_of (w := s.writeDmaDesc c.val v) (by fin_cases c <;> rfl) fun _ _ => rfl

theorem isWriteAt_viaRtSel : IsWriteAt src v s Reg.VIA_RT_SEL_at (.viaRtSelWrite v) :=
  isWriteAt_of (s.busWrite_via src v (by decide) (by decide) (by decide)) fun hr _ => next_of_reaches hr rfl

theorem isWriteAt_viaRtData : IsWriteAt src v s Reg.VIA_RT_DATA_at (.viaRtDataWrite v) :=
  isWriteAt_of (s.busWrite_via src v (by decide) (by decide) (by decide)) fun hr _ => next_of_reaches hr rfl

/-! ### Clocks, flash, the recorder, AON and BOOT -/

theorem isWriteAt_spllOpcfg (op : OpIx) : IsWriteAt src v s (Reg.SPLL_OPCFG_at op.val) (.spllOpcfgWrite src op v) :=
  isWriteAt_of (w := s.writeOpcfg src op.val v) (by fin_cases op <;> rfl) fun _ _ => rfl

theorem isWriteAt_spllSsc : IsWriteAt src v s Reg.SPLL_SSC_at (.spllSscWrite src v) :=
  isWriteAt_of (w := s.writeSsc src v) rfl fun _ _ => rfl

theorem isWriteAt_cpllCtl : IsWriteAt src v s Reg.CPLL_CTL_at (.cpllCtlWrite v) :=
  isWriteAt_of (w := s.writeCpll v) rfl fun _ _ => rfl

theorem isWriteAt_islandDiv (isl : Fin 30) : IsWriteAt src v s (Reg.IOPLL_ISL_at isl.val) (.islandDivWrite src isl v) :=
  isWriteAt_of (w := s.writeDiv src isl.val v) (by fin_cases isl <;> rfl) fun _ hp => next_of_aonUp hp

theorem isWriteAt_flcRdwait : IsWriteAt src v s Reg.FLC_RDWAIT_at (.flcRdwaitWrite src v) :=
  isWriteAt_of (w := s.writeFlc src Reg.FLC_RDWAIT_at v) rfl fun hr _ => next_ite_of_reaches hr rfl

theorem isWriteAt_rtcSlew : IsWriteAt src v s Reg.RTC_SLEW_at (.rtcSlewWrite src v) :=
  isWriteAt_of (w := s.writeSlew src v) rfl fun _ hp => next_of_aonUp hp

theorem isWriteAt_recHistSel : IsWriteAt src v s Reg.REC_HIST_SEL_at (.recHistSelWrite v) :=
  isWriteAt_of (w := .ok (s.writeHistSel v)) rfl fun _ hp => next_of_aonUp hp

theorem isWriteAt_recChSel : IsWriteAt src v s Reg.REC_CH_SEL_at (.recChSelWrite v) :=
  isWriteAt_of (w := .ok (s.writeChSel v)) rfl fun _ hp => next_of_aonUp hp

theorem isWriteAt_parCfg : IsWriteAt src v s Reg.PAR_CFG_at (.parCfgWrite src v) :=
  isWriteAt_of (w := s.writePar src Reg.PAR_CFG_at v) rfl fun _ hp => next_of_aonUp hp

theorem isWriteAt_wdtKey : IsWriteAt src v s Reg.WDT_KEY_at (.wdtKeyWrite src v) :=
  isWriteAt_of (w := s.writeWdt src Reg.WDT_KEY_at v) rfl fun _ hp => next_of_aonUp hp

theorem isWriteAt_bootConfirm : IsWriteAt src v s Reg.BOOT_CONFIRM_at (.bootConfirm src v) :=
  isWriteAt_of (s.busWrite_boot src v (by decide) (by decide) (by decide)) fun hr _ => next_ite_of_reaches hr rfl

theorem isWriteAt_bootSysreset : IsWriteAt src v s Reg.BOOT_SYSRESET_at (.bootSysreset src v) :=
  isWriteAt_of (s.busWrite_boot src v (by decide) (by decide) (by decide)) fun hr _ => next_ite_of_reaches hr rfl

/-! ### Converter ports, the abutment and the service port -/

theorem islandOf_cvpOfs : ∀ p i : Fin 8, islandOf (Reg.CVP_OFS_at p.val i.val) = some islConv := by decide

/-- A write of CVP_OFS at its island: the Fobex engine is refused (R451). -/
theorem State.busWrite_cvpOfs (p i : Fin 8) : s.busWrite src (Reg.CVP_OFS_at p.val i.val) v =
    if src = .fobex then s.refused cvpRefuse 6 else s.writeOfs p.val i.val v := by
  fin_cases p <;> fin_cases i <;> rfl

theorem isWriteAt_cvpOfs (p i : Fin 8) : IsWriteAt src v s (Reg.CVP_OFS_at p.val i.val) (.cvpOfsWrite src p i v) := by
  refine isWriteAt_of (s.busWrite_cvpOfs src v p i) fun hr _ => ?_
  rw [s.reaches_eq (islandOf_cvpOfs p i)] at hr
  show Host.Outcome.next (s.toCvp src _) = _
  by_cases h : src = .fobex <;> simp [State.toCvp, hr, h]

theorem isWriteAt_abtRelease : IsWriteAt src v s Reg.ABT_RELEASE_at (.abtRelease src v) :=
  isWriteAt_of (s.busWrite_abt src v (by decide) (by decide) (by decide)) fun _ _ => rfl

theorem isWriteAt_mdioCmd : IsWriteAt src v s Reg.ETH_MDIO_CMD_at (.mdioCmd src v) :=
  isWriteAt_of (s.busWrite_eth src v (by decide) (by decide) (by decide)) fun hr _ => next_of_reaches hr rfl

theorem isWriteAt_ethFrxPop : IsWriteAt src v s Reg.ETH_FRX_POP_at (.ethFrxPop src v) :=
  isWriteAt_of (s.busWrite_eth src v (by decide) (by decide) (by decide)) fun hr _ => next_of_reaches hr rfl

theorem isWriteAt_ethFtxData : IsWriteAt src v s Reg.ETH_FTX_DATA_at (.ethFtxDataWrite src v) :=
  isWriteAt_of (s.busWrite_eth src v (by decide) (by decide) (by decide)) fun hr _ => next_of_reaches hr rfl

theorem isWriteAt_ethFtxSend : IsWriteAt src v s Reg.ETH_FTX_SEND_at (.ethFtxSend src v) :=
  isWriteAt_of (s.busWrite_eth src v (by decide) (by decide) (by decide)) fun hr _ => next_of_reaches hr rfl

theorem isWriteAt_fsvStreamData (n : Fin 4) :
    IsWriteAt src v s (Reg.FSV_STREAM_DATA_at n.val) (.fsvStreamDataWrite src n v) :=
  isWriteAt_of (w := s.writeFsv src (Reg.FSV_STREAM_DATA_at n.val) v) (by fin_cases n <;> rfl) fun hr _ => next_of_reaches hr (by fin_cases n <;> rfl)

theorem isWriteAt_fsvStreamCtl (n : Fin 4) : IsWriteAt src v s (Reg.FSV_STREAM_CTL_at n.val) (.streamPush src n v) :=
  isWriteAt_of (w := s.writeFsv src (Reg.FSV_STREAM_CTL_at n.val) v) (by fin_cases n <;> rfl) fun hr _ => next_of_reaches hr (by fin_cases n <;> rfl)

/-! ### The GIO island -/

theorem isWriteAt_gpioOset (m : Fin 2) : IsWriteAt src v s (Reg.GPIO_OSET_at m.val) (.gpioOset m v) :=
  isWriteAt_of (w := .ok (s.outBits m.val v true)) (by fin_cases m <;> rfl) fun hr _ => next_of_reaches hr (by fin_cases m <;> rfl)

theorem isWriteAt_gpioOclr (m : Fin 2) : IsWriteAt src v s (Reg.GPIO_OCLR_at m.val) (.gpioOclr m v) :=
  isWriteAt_of (w := .ok (s.outBits m.val v false)) (by fin_cases m <;> rfl) fun hr _ => next_of_reaches hr (by fin_cases m <;> rfl)

theorem isWriteAt_pwmCfg (c : Fin 16) : IsWriteAt src v s (Reg.PWM_CFG_at c.val) (.pwmCfgWrite c v) :=
  isWriteAt_of (w := s.writePwmCfg c.val v) (by fin_cases c <;> rfl) fun hr _ => next_of_reaches hr (by fin_cases c <;> rfl)

theorem isWriteAt_i2cCmd (m : Fin 2) : IsWriteAt src v s (Reg.I2C_CMD_at m.val) (.i2cCmd m v) :=
  isWriteAt_of (w := s.i2cStart m.val v) (by fin_cases m <;> rfl) fun hr _ => next_of_reaches hr (by fin_cases m <;> rfl)

theorem isWriteAt_spiCmd (m : Fin 2) : IsWriteAt src v s (Reg.SPI_CMD_at m.val) (.spiCmd m v) :=
  isWriteAt_of (w := s.spiStart m.val v) (by fin_cases m <;> rfl) fun hr _ => next_of_reaches hr (by fin_cases m <;> rfl)

end OwnWrites
end Sys2Proof.Machine
end

section
/-!
PROOFS. Register reads that are commands of their own, and the writes and reads of the DMA's and the Viaduct's registers by field code
(R11, R12, R15, R16, R238, R536).
-/

namespace Sys2Proof.Machine
open Sys2Proof.Claims

/-! ## Registers whose read is a command of its own -/

/-- While POR is not asserted, RC_READ at `x`, reached, by a source that clears no RC field is command `i`. -/
def IsReadAt (src : Src) (s : State) (x : Nat) (i : Instr) : Prop :=
  ∀ a : BitVec 16, a.toNat = x → s.reaches x = true → s.held.por = false → src = .keystone ∨ src = .debug →
    exec (.rcRead src a) s = exec i s

theorem Src.not_clears {src : Src} (h : src = .keystone ∨ src = .debug) : src.clears = false := by
  obtain rfl | rfl := h <;> rfl

/-- What a read leaves behind at an assigned address. -/
theorem State.busRead_state (s : State) (src : Src) {a : Nat} (h : regRow a ≠ none) : (s.busRead src a).2 = s.readEffect src a := by
  unfold State.busRead
  rw [if_neg (by simpa using h)]

/-- A source that clears no RC field (the Keystone, the debug unit) moves the latches and queues on alone. -/
theorem State.readEffect_of_not_clears (s : State) {src : Src} (a : Nat) (h : src.clears = false) :
    s.readEffect src a =
      if a = Reg.FLC_BUF_DATA_at then s.readBuf.2
      else if (0x3800 ≤ a ∧ a < 0x4000) ∨ (0x4020 ≤ a ∧ a < 0x4030) then s.recRead a
      else if 0x4600 ≤ a ∧ a < 0x4700 then s.ethRead false a
      else if 0x4C00 ≤ a ∧ a < 0x5000 then s.gioRead a
      else s := by
  simp only [State.readEffect, h, Bool.false_eq_true, if_false]

/-- What the read does at the register is what the command does, once its island is reached and POR is not asserted. -/
theorem isReadAt_of {src : Src} {s : State} {x : Nat} {i : Instr} {t : State}
    (hbus : src.clears = false → (s.busRead src x).2 = t)
    (hexec : s.reaches x = true → s.held.por = false → exec i s = .next t) : IsReadAt src s x i := by
  rintro a rfl hr hp hsrc
  rw [exec_rcRead, if_pos hr, hbus (Src.not_clears hsrc), hexec hr hp]

section OwnReads
variable (src : Src) (s : State)

theorem State.busRead_rec {a : Nat} (h : regRow a ≠ none) (hbuf : a ≠ Reg.FLC_BUF_DATA_at)
    (hr : (0x3800 ≤ a ∧ a < 0x4000) ∨ (0x4020 ≤ a ∧ a < 0x4030)) (hc : src.clears = false) : (s.busRead src a).2 = s.recRead a := by
  rw [s.busRead_state src h, s.readEffect_of_not_clears a hc, if_neg hbuf, if_pos hr]

theorem State.busRead_gio {a : Nat} (h : regRow a ≠ none) (lo : 0x4C00 ≤ a) (hi : a < 0x5000) (hc : src.clears = false) :
    (s.busRead src a).2 = s.gioRead a := by
  have hbuf : a ≠ Reg.FLC_BUF_DATA_at := by unfold Reg.FLC_BUF_DATA_at; omega
  rw [s.busRead_state src h, s.readEffect_of_not_clears a hc, if_neg hbuf, if_neg (by omega), if_neg (by omega), if_pos ⟨lo, hi⟩]

theorem isReadAt_recOpsecLo : IsReadAt src s Reg.REC_OPSEC_LO_at .recOpsecLoRead :=
  isReadAt_of (s.busRead_rec src (by decide) (by decide) (by decide)) fun _ hp => next_of_aonUp hp

theorem isReadAt_rtcSec : IsReadAt src s Reg.RTC_SEC_at .rtcSecRead :=
  isReadAt_of (s.busRead_rec src (by decide) (by decide) (by decide)) fun _ hp => next_of_aonUp hp

theorem isReadAt_ethFrxData : IsReadAt src s Reg.ETH_FRX_DATA_at (.ethFrxDataRead src) :=
  isReadAt_of (fun _ => rfl) fun hr _ => next_of_reaches hr (isl := islEth) rfl

theorem isReadAt_flcBufData : IsReadAt src s Reg.FLC_BUF_DATA_at (.flcBufDataAccess src none) := by
  refine isReadAt_of (t := s.readBuf.2) (fun hc => ?_) fun hr _ => next_ite_of_reaches hr (isl := islFlash) rfl
  rw [s.busRead_state src (by decide), s.readEffect_of_not_clears _ hc, if_pos rfl]

theorem uartRxd_row : ∀ u : Fin 4, regRow (Reg.UART_RXD_at u.val) ≠ none ∧ islandOf (Reg.UART_RXD_at u.val) = some islGio := by decide

theorem serialData_row : ∀ m : Fin 2,
    regRow (Reg.I2C_DATA_at m.val) ≠ none ∧ islandOf (Reg.I2C_DATA_at m.val) = some islGio ∧
      regRow (Reg.SPI_DATA_at m.val) ≠ none ∧ islandOf (Reg.SPI_DATA_at m.val) = some islGio := by decide

theorem isReadAt_uartRxd (u : Fin 4) : IsReadAt src s (Reg.UART_RXD_at u.val) (.uartRxdRead u) := by
  obtain ⟨hrow, hisl⟩ := uartRxd_row u
  refine isReadAt_of (t := s.rxdPop u.val) (fun hc => ?_) fun hr _ => next_of_reaches hr hisl
  rw [s.busRead_gio src hrow (by unfold Reg.UART_RXD_at; omega) (by unfold Reg.UART_RXD_at; omega) hc]
  fin_cases u <;> rfl

theorem isReadAt_i2cData (m : Fin 2) : IsReadAt src s (Reg.I2C_DATA_at m.val) (.i2cData m none) := by
  obtain ⟨hrow, hisl, -, -⟩ := serialData_row m
  refine isReadAt_of (t := s.i2cPop m.val) (fun hc => ?_) fun hr _ => next_of_reaches hr hisl
  rw [s.busRead_gio src hrow (by unfold Reg.I2C_DATA_at; omega) (by unfold Reg.I2C_DATA_at; omega) hc]
  fin_cases m <;> rfl

theorem isReadAt_spiData (m : Fin 2) : IsReadAt src s (Reg.SPI_DATA_at m.val) (.spiData m none) := by
  obtain ⟨-, -, hrow, hisl⟩ := serialData_row m
  refine isReadAt_of (t := s.spiPop m.val) (fun hc => ?_) fun hr _ => next_of_reaches hr hisl
  rw [s.busRead_gio src hrow (by unfold Reg.SPI_DATA_at; omega) (by unfold Reg.SPI_DATA_at; omega) hc]
  fin_cases m <;> rfl

end OwnReads

/-! ## DMA_CH_CTL -/

theorem State.busWrite_dmaChCtl (s : State) (src : Src) (c : Fin 16) (v : Word) :
    s.busWrite src (Reg.DMA_CH_CTL_at c.val) v = s.writeDmaCtl c.val v := by
  fin_cases c <;> rfl

/-- A write of DMA_CH_CTL is the command its bits spell (R214). -/
theorem exec_registerWrite_dmaChCtl (src : Src) (a : BitVec 16) (v : Word) (s : State) (c : Fin 16) (h : a.toNat = Reg.DMA_CH_CTL_at c.val)
    (hr : s.reaches a.toNat = true) : exec (.registerWrite src a v) s = .next (s.writeDmaCtl c.val v).st := by
  rw [exec_registerWrite, if_pos hr, h, s.busWrite_dmaChCtl]

/-! ## Writes by field code -/

theorem regs_refl (s : State) (as : List Nat) : Regs s s as [] := ⟨by simp, fun _ _ => rfl⟩

theorem regs_setReg (s : State) (a : Nat) (v : Word) : Regs s (s.setReg a v) [a] [] :=
  ⟨by simp [State.setReg], fun b hb => s.reg_setReg_other a b v (by simpa using hb)⟩

theorem regs_writeReg (s : State) (p : Permit) (a : Nat) (v : Word) : Regs s (s.writeReg p a v) [a] [] := regs_setReg s a _

/-- With every code permitted no field refuses. -/
theorem refuseCode_all (fs : List FSpec) : refuseCode .all fs = 0 := by
  have h (acc : Acc) : Permit.all.allows acc = true := by cases acc <;> rfl
  simp [refuseCode, someRefused, h]
  simp [Permit.all]

theorem State.writeOr_all (s : State) (r : RefuseAt) (reason a : Nat) (v : Word) :
    s.writeOr .all r reason a v = .ok (s.writeReg .all a v) := by
  simp [State.writeOr, refuseCode_all, WRes.ok]

/-- A field the lock refuses makes the write a refusal (R238). -/
theorem refuseCode_ne_zero {p : Permit} {fs : List FSpec} (h : ∃ f ∈ fs, p.allows f.acc = false) : refuseCode p fs ≠ 0 := by
  obtain ⟨f, hf, hno⟩ := h
  have hsome : someRefused p fs = true := List.any_eq_true.2 ⟨f, hf, by simp [hno]⟩
  simp only [refuseCode, hsome, if_true]
  split_ifs <;> decide

theorem FSpec.after_all (f : FSpec) (old v : Word) :
    f.after .all old v = f.acc.written (getBits old f.lo f.width) (getBits v f.lo f.width) := by
  unfold FSpec.after
  cases f.acc <;> rfl

/-- While LOCK is 0 a write of the DMA's own registers or of the Viaduct's, its route table apart, is field by field. -/
theorem State.busWrite_byFields (s : State) (src : Src) {a : Nat} (v : Word) (h : regRow a ≠ none)
    (ha : (0x2000 ≤ a ∧ a < 0x2100) ∨
      (0x2800 ≤ a ∧ a < 0x3000 ∧ a ≠ Reg.VIA_RT_SEL_at ∧ a ≠ Reg.VIA_RT_DATA_at ∧ s.on Reg.VIA_CTL.LOCK = false)) :
    s.busWrite src a v = .ok (s.writeReg .all a v) := by
  rcases ha with ⟨lo, hi⟩ | ⟨lo, hi, hsel, hdata, hlock⟩
  · exact s.busWrite_dmaCommon src v h lo hi
  · rw [s.busWrite_viaPlain src v h lo hi hsel hdata, hlock]
    exact s.writeOr_all _ _ _ _

/-- While LOCK is 1 a write of a Viaduct register with an RWL field is a refusal; the register's other fields take their values (R12, R238). -/
theorem State.busWrite_viaLocked (s : State) (src : Src) {a : Nat} (v : Word) (lo : 0x2800 ≤ a) (hi : a < 0x3000)
    (hsel : a ≠ Reg.VIA_RT_SEL_at) (hdata : a ≠ Reg.VIA_RT_DATA_at) (hlock : s.on Reg.VIA_CTL.LOCK = true)
    (hf : ∃ f ∈ fieldsAt a, f.acc = .rwl) :
    (s.busWrite src a v).st = (s.writeReg ⟨false, true, true⟩ a v).refuse viaRefuse 0 := by
  obtain ⟨f, hmem, hacc⟩ := hf
  have hrow : regRow a ≠ none := fun h => by simp [fieldsAt_eq_nil h] at hmem
  have hcode : refuseCode ⟨false, true, true⟩ (fieldsAt a) ≠ 0 := refuseCode_ne_zero ⟨f, hmem, by rw [hacc]; rfl⟩
  rw [s.busWrite_viaPlain src v hrow lo hi hsel hdata, hlock]
  simp [State.writeOr, hcode]

/-- A refusal of the Viaduct sets REFUSED and changes no register but VIA_STATUS. -/
theorem State.on_refuse_via (s : State) : (s.refuse viaRefuse 0).on Reg.VIA_STATUS.REFUSED = true := by
  have h : (s.wf Reg.VIA_STATUS.REFUSED 1).rf Reg.VIA_STATUS.REFUSED = 1 := s.rf_wf_same _ _ (by decide)
  simp only [State.refuse, viaRefuse, State.on, State.rf, State.reg_raiseIf]
  rw [State.rf] at h
  rw [h]
  rfl

theorem State.reg_refuse_via (s : State) {a : Nat} (h : a ≠ Reg.VIA_STATUS_at) : (s.refuse viaRefuse 0).reg a = s.reg a :=
  s.reg_refuse_other _ _ _ h (by simp [viaRefuse])

/-! ## Reads of the DMA's and the Viaduct's registers -/

/-- What a read of these registers leaves behind: RC fields at their reset values where the source clears them (R16). -/
theorem State.readEffect_dmaVia (s : State) (src : Src) {a : Nat} (lo : 0x2000 ≤ a) (hi : a < 0x3000) :
    s.readEffect src a = if src.clears then s.setReg a (clearRc (fieldsAt a) (s.reg a)) else s := by
  have hbuf : a ≠ Reg.FLC_BUF_DATA_at := by unfold Reg.FLC_BUF_DATA_at; omega
  unfold State.readEffect
  dsimp only
  rw [if_neg hbuf, if_neg (by omega), if_neg (by omega), if_neg (by omega)]

/-! ## The obligation -/

section
variable (src : Src) (a : BitVec 16) (v : Word) (s : State)

/-- Every register of `OwnWrites` written is its command. -/
theorem ownWrites_registerWrite (th : Thr) (q : QIx) (c : Fin 16) (p i : Fin 8) (n : Fin 4) (m : Fin 2) (op : OpIx) (isl : Fin 30) :
    OwnWrites th q c p i n m op isl (fun x f => a.toNat = x → s.reaches x = true → s.held.por = false →
      exec (.registerWrite src a v) s = exec (f src v) s) :=
  ⟨isWriteAt_thrun src v s th.pier a, isWriteAt_thpc src v s th a, isWriteAt_evmaskLo src v s th a, isWriteAt_evmaskHi src v s th a,
    isWriteAt_spanCtl src v s q a, isWriteAt_deckEccInj src v s q a, isWriteAt_dmaChDesc src v s c a, isWriteAt_viaRtSel src v s a,
    isWriteAt_viaRtData src v s a, isWriteAt_spllOpcfg src v s op a, isWriteAt_spllSsc src v s a, isWriteAt_cpllCtl src v s a,
    isWriteAt_islandDiv src v s isl a, isWriteAt_flcRdwait src v s a, isWriteAt_rtcSlew src v s a, isWriteAt_recHistSel src v s a,
    isWriteAt_recChSel src v s a, isWriteAt_parCfg src v s a, isWriteAt_bootConfirm src v s a, isWriteAt_bootSysreset src v s a,
    isWriteAt_wdtKey src v s a, isWriteAt_cvpOfs src v s p i a, isWriteAt_abtRelease src v s a, isWriteAt_mdioCmd src v s a,
    isWriteAt_ethFrxPop src v s a, isWriteAt_ethFtxData src v s a, isWriteAt_ethFtxSend src v s a, isWriteAt_fsvStreamData src v s n a,
    isWriteAt_fsvStreamCtl src v s n a, isWriteAt_gpioOset src v s m a, isWriteAt_gpioOclr src v s m a, isWriteAt_pwmCfg src v s c a,
    isWriteAt_i2cCmd src v s m a, isWriteAt_spiCmd src v s m a⟩

/-- Every register of `OwnReads` read is its command. -/
theorem ownReads_rcRead (u : Fin 4) (m : Fin 2) :
    OwnReads u m (fun x f => a.toNat = x → s.reaches x = true → s.held.por = false → src = .keystone ∨ src = .debug →
      exec (.rcRead src a) s = exec (f src) s) :=
  ⟨isReadAt_recOpsecLo src s a, isReadAt_rtcSec src s a, isReadAt_ethFrxData src s a, isReadAt_flcBufData src s a,
    isReadAt_uartRxd src s u a, isReadAt_i2cData src s m a, isReadAt_spiData src s m a⟩

theorem exec_registerWrite_reserved (h : regRow a.toNat = none) : exec (.registerWrite src a v) s = .next s := by
  rw [exec_registerWrite, s.busWrite_reserved src v h]
  simp

theorem exec_rcRead_reserved (h : regRow a.toNat = none) : exec (.rcRead src a) s = .next s := by
  rw [exec_rcRead, s.busRead_reserved src h]
  simp

theorem registerWrite_byFields (hr : s.reaches a.toNat = true)
    (ha : (0x2000 ≤ a.toNat ∧ a.toNat < 0x2100) ∨
      (0x2800 ≤ a.toNat ∧ a.toNat < 0x3000 ∧ a.toNat ≠ Reg.VIA_RT_SEL_at ∧ a.toNat ≠ Reg.VIA_RT_DATA_at ∧ s.on Reg.VIA_CTL.LOCK = false)) :
    Does (.registerWrite src a v) s (fun t => Regs s t [a.toNat] [] ∧ ∀ f ∈ fieldsAt a.toNat,
      getBits (t.reg a.toNat) f.lo f.width =
        f.acc.written (getBits (s.reg a.toNat) f.lo f.width) (getBits v f.lo f.width)) := by
  by_cases h : regRow a.toNat = none
  · exact ⟨s, exec_registerWrite_reserved src a v s h, regs_refl s _, by simp [fieldsAt_eq_nil h]⟩
  · refine ⟨s.writeReg .all a.toNat v, ?_, regs_writeReg s _ _ _, fun f hf => ?_⟩
    · rw [exec_registerWrite, if_pos hr, s.busWrite_byFields src v h ha, WRes.ok_st]
    · rw [s.getBits_writeReg _ _ _ f hf, f.after_all]

theorem registerWrite_viaLocked (hr : s.reaches a.toNat = true) (lo : 0x2800 ≤ a.toNat) (hi : a.toNat < 0x3000)
    (hsel : a.toNat ≠ Reg.VIA_RT_SEL_at) (hdata : a.toNat ≠ Reg.VIA_RT_DATA_at) (hst : a.toNat ≠ Reg.VIA_STATUS_at)
    (hlock : s.on Reg.VIA_CTL.LOCK = true) (hf : ∃ f ∈ fieldsAt a.toNat, f.acc = .rwl) :
    Does (.registerWrite src a v) s (fun t => t.on Reg.VIA_STATUS.REFUSED = true ∧ ∀ f ∈ fieldsAt a.toNat, f.acc = .rwl →
      getBits (t.reg a.toNat) f.lo f.width = getBits (s.reg a.toNat) f.lo f.width) := by
  refine ⟨(s.writeReg ⟨false, true, true⟩ a.toNat v).refuse viaRefuse 0, ?_, State.on_refuse_via _, fun f hmem hacc => ?_⟩
  · rw [exec_registerWrite, if_pos hr, s.busWrite_viaLocked src v lo hi hsel hdata hlock hf]
  · rw [State.reg_refuse_via _ hst, s.getBits_writeReg _ _ _ f hmem, FSpec.after, hacc]
    rfl

theorem rcRead_dmaVia (hr : s.reaches a.toNat = true) (lo : 0x2000 ≤ a.toNat) (hi : a.toNat < 0x3000) (h : regRow a.toNat ≠ none) :
    exec (.rcRead src a) s = .next (if src.clears then s.setReg a.toNat (clearRc (fieldsAt a.toNat) (s.reg a.toNat)) else s) := by
  rw [exec_rcRead, if_pos hr, s.busRead_state src h, s.readEffect_dmaVia src lo hi]

theorem rcRead_clearing (hr : s.reaches a.toNat = true) (lo : 0x2000 ≤ a.toNat) (hi : a.toNat < 0x3000) (h : regRow a.toNat ≠ none)
    (hsrc : src.clears = true) : Does (.rcRead src a) s (fun t => Regs s t [a.toNat] [] ∧ ∀ f ∈ fieldsAt a.toNat,
      getBits (t.reg a.toNat) f.lo f.width = if f.acc = .rc then f.rst else getBits (s.reg a.toNat) f.lo f.width) := by
  refine ⟨s.setReg a.toNat (clearRc (fieldsAt a.toNat) (s.reg a.toNat)), ?_, regs_setReg s _ _, fun f hf => ?_⟩
  · rw [rcRead_dmaVia src a s hr lo hi h, if_pos hsrc]
  · rw [State.reg_setReg_same, getBits_clearRc _ _ (laidout_fieldsAt _) f hf]

end

theorem Src.clears_of {src : Src} (h : (∃ th, src = .pier th) ∨ src = .fobex) : src.clears = true := by
  obtain ⟨th, rfl⟩ | rfl := h <;> rfl

/-- Settles O30: the registers with commands of their own by address, the DMA's and the Viaduct's by the laws of `writeFields` and
`clearRc`. -/
theorem registerFieldsFollowTheirCodes : Obligations.RegisterFieldsFollowTheirCodes := by
  intro src a v s
  refine ⟨fun hr => ?_, fun th q c p i n m op isl => ownWrites_registerWrite src a v s th q c p i n m op isl,
    fun c stop prio ha hr => ⟨?_, ?_⟩, fun u m => ownReads_rcRead src a s u m, fun h => ?_, fun hr ha => ?_, ?_, fun hr lo hi h => ⟨?_, ?_⟩⟩
  · rw [exec_registerWrite, exec_rcRead]
    simp [hr]
  · rintro rfl
    exact exec_registerWrite_dmaChCtl src a _ s c ha hr
  · rintro rfl
    exact exec_registerWrite_dmaChCtl src a _ s c ha hr
  · exact ⟨⟨s, exec_registerWrite_reserved src a v s h, rfl⟩, s, exec_rcRead_reserved src a s h, rfl⟩
  · obtain ⟨t, ht, hregs, hfields⟩ := registerWrite_byFields src a v s hr ha
    refine ⟨t, ht, hregs, fun f hf => ?_⟩
    rw [hfields f hf]
    cases f.acc <;> rfl
  · exact fun hr lo hi hsel hdata hst hlock hf => registerWrite_viaLocked src a v s hr lo hi hsel hdata hst hlock hf
  · exact fun hsrc => rcRead_clearing src a s hr lo hi h (Src.clears_of hsrc)
  · intro hsrc
    exact ⟨s, by rw [rcRead_dmaVia src a s hr lo hi h, Src.not_clears hsrc]; rfl, rfl⟩

end Sys2Proof.Machine
end

section
/-!
PROOFS. The laws of an island's shell, of changes in registers alone, and of a clock refusal (R13, R223, R289).
-/

namespace Sys2Proof.Machine
open Sys2Proof.Claims

/-! ## Shells -/

section Shells
variable (s : State) (n : Nat) (h : Shell)

@[simp] theorem State.setShell_events : (s.setShell n h).net.events = s.net.events := rfl
@[simp] theorem State.rf_setShell (f : Fd) : (s.setShell n h).rf f = s.rf f := rfl
@[simp] theorem State.shell_wf (f : Fd) (v k : Nat) : (s.wf f v).shell k = s.shell k := rfl

/-- The shells a state shows depend on its grade and its list of shells alone. -/
theorem State.shell_congr {s t : State} (hg : t.grade = s.grade) (hs : t.net.shells = s.net.shells) (k : Nat) : t.shell k = s.shell k := by
  rw [State.shell, State.shell, hg, hs]

/-- An island whose shell is not ABSENT is on the grade (Table via-12). -/
theorem State.hasIsland_of_shell {s : State} {n : Nat} (hs : (s.shell n).st ≠ .absent) : s.grade.hasIsland n = true := by
  by_contra hg
  exact hs (by simp [State.shell, hg])

/-- A shell replaced reads as replaced, on a grade that has the island. -/
theorem State.shell_setShell_same (hg : s.grade.hasIsland n = true) : (s.setShell n h).shell n = h := by
  simp [State.shell, State.setShell, hg]

theorem State.shell_setShell_other {k : Nat} (hk : k ≠ n) : (s.setShell n h).shell k = s.shell k := by
  simp only [State.shell, State.setShell, SMap.get_set_other _ _ _ _ _ _ hk]

end Shells

/-! ## One shell replaced, and registers -/

section
variable {s t : State} {n : Nat} {h : Shell} {as : List Nat}

theorem onlyShell_refl (s : State) (n : Nat) (as : List Nat) : OnlyShell s s n (s.shell n) as :=
  ⟨rfl, rfl, fun _ _ => rfl, fun _ _ => rfl⟩

theorem onlyShell_wf (ht : OnlyShell s t n h as) (f : Fd) (v : Nat) (hf : f.addr ∈ as) : OnlyShell s (t.wf f v) n h as := by
  obtain ⟨heq, hsame, hother, hregs⟩ := ht
  refine ⟨?_, hsame, hother, fun a ha => ?_⟩
  · exact (congrArg (fun u : State => u.wf f v) heq).trans rfl
  · rw [t.reg_wf_other f v a (fun e => ha (e ▸ hf)), hregs a ha]

theorem onlyShell_setShell (ht : OnlyShell s t n h as) (hg : s.grade.hasIsland n = true) (h' : Shell) :
    OnlyShell s (t.setShell n h') n h' as := by
  obtain ⟨heq, -, hother, hregs⟩ := ht
  have hgrade : t.grade = s.grade := by rw [heq]
  refine ⟨?_, t.shell_setShell_same n h' (hgrade ▸ hg), fun k hk => ?_, fun a ha => hregs a ha⟩
  · exact (congrArg (fun u : State => u.setShell n h') heq).trans rfl
  · rw [t.shell_setShell_other n h' hk, hother k hk]

end

/-! ## Changes in registers and events -/

/-- What an enabled event reads does not depend on other fields. -/
theorem ev_wf_other (s : State) (f : Fd) (v : Nat) (p : Fd × Fd)
    (he : p.1.addr ≠ f.addr ∨ p.1.lo + p.1.width ≤ f.lo ∨ f.lo + f.width ≤ p.1.lo)
    (hen : p.2.addr ≠ f.addr ∨ p.2.lo + p.2.width ≤ f.lo ∨ f.lo + f.width ≤ p.2.lo) : ev (s.wf f v) p = ev s p := by
  rw [ev, ev, State.on, State.on, s.rf_wf_other f p.1 v he, s.rf_wf_other f p.2 v hen]

/-- What an enabled event reads is in its register. -/
theorem ev_congr {s t : State} {p : Fd × Fd} (he : t.reg p.1.addr = s.reg p.1.addr) (hen : t.reg p.2.addr = s.reg p.2.addr) :
    ev t p = ev s p := by
  rw [ev, ev, State.on, State.on, State.rf, State.rf, State.rf, State.rf, he, hen]

/-- An event raised where enabled is one more in flight. -/
theorem State.raiseIf_events (s : State) (e en : Fd) : (s.raiseIf e en).net.events = s.net.events ++ ev s (e, en) := by
  unfold State.raiseIf ev
  split <;> simp [State.raise]

@[simp] theorem State.shell_raiseIf (s : State) (e en : Fd) (k : Nat) : (s.raiseIf e en).shell k = s.shell k := by
  unfold State.raiseIf
  split <;> rfl

@[simp] theorem State.rf_raiseIf (s : State) (e en f : Fd) : (s.raiseIf e en).rf f = s.rf f := by
  rw [State.rf, State.rf, s.reg_raiseIf]

section
variable {s t : State} {as : List Nat} {es : List (Fin 64)}

theorem regs_wf (ht : Regs s t as es) (f : Fd) (v : Nat) (hf : f.addr ∈ as) : Regs s (t.wf f v) as es := by
  obtain ⟨heq, hregs⟩ := ht
  refine ⟨(congrArg (fun u : State => u.wf f v) heq).trans rfl, fun a ha => ?_⟩
  rw [t.reg_wf_other f v a (fun e => ha (e ▸ hf)), hregs a ha]

theorem regs_raiseIf (ht : Regs s t as []) (e en : Fd) : Regs s (t.raiseIf e en) as (ev t (e, en)) := by
  obtain ⟨heq, hregs⟩ := ht
  refine ⟨?_, fun a ha => by rw [t.reg_raiseIf, hregs a ha]⟩
  unfold State.raiseIf ev
  split
  · exact (congrArg (fun u : State => u.raise (t.rf e)) heq).trans (by simp [State.raise])
  · exact heq

end

/-! ## The refusals of the clock controller (R289, R293) -/

/-- A refusal of an island's write: IOPLL_REFUSE_INFO names the island. -/
def State.refuseIsl (s : State) (n why : Nat) : State := (s.wf Reg.IOPLL_REFUSE_INFO.ISL n).refuse clkRefuse why

theorem State.refuseIsl_eq (s : State) (n why : Nat) : s.refuseIsl n why =
    (((s.wf Reg.IOPLL_REFUSE_INFO.ISL n).wf Reg.IOPLL_STATUS.REFUSED 1).wf Reg.IOPLL_REFUSE_INFO.REASON why).raiseIf
      Reg.IOPLL_STATUS.REFUSE_EVENT Reg.IOPLL_STATUS.REFUSE_EVENT_EN := rfl

/-- A command whose next state is the refusal is refused as R289 says. -/
theorem refusesIsl_of_exec {i : Instr} {s : State} {n why : Nat} (hn : n < 32) (hwhy : why < 16)
    (h : exec i s = .next (s.refuseIsl n why)) : RefusesIsl i s n why := by
  refine ⟨_, h, ?_, ?_, ?_, ?_⟩
  · rw [s.refuseIsl_eq]
    have hregs := regs_raiseIf (regs_wf (regs_wf (regs_wf (regs_refl s [Reg.IOPLL_STATUS_at, Reg.IOPLL_REFUSE_INFO_at])
      Reg.IOPLL_REFUSE_INFO.ISL n (by decide)) Reg.IOPLL_STATUS.REFUSED 1 (by decide)) Reg.IOPLL_REFUSE_INFO.REASON why (by decide))
      Reg.IOPLL_STATUS.REFUSE_EVENT Reg.IOPLL_STATUS.REFUSE_EVENT_EN
    rwa [ev_wf_other _ _ _ _ (by decide) (by decide), ev_wf_other _ _ _ _ (by decide) (by decide),
      ev_wf_other _ _ _ _ (by decide) (by decide)] at hregs
  · rw [s.refuseIsl_eq, State.rf_raiseIf, State.rf_wf_other _ _ _ _ (by decide), State.rf_wf_same _ _ _ (by decide)]
    rfl
  · rw [s.refuseIsl_eq, State.rf_raiseIf, State.rf_wf_same _ _ _ (by decide)]
    exact Nat.mod_eq_of_lt hwhy
  · rw [s.refuseIsl_eq, State.rf_raiseIf, State.rf_wf_other _ _ _ _ (by decide), State.rf_wf_other _ _ _ _ (by decide),
      State.rf_wf_same _ _ _ (by decide)]
    exact Nat.mod_eq_of_lt hn

end Sys2Proof.Machine
end

section
/-!
PROOFS. The Dispatcher's orphans (R198) leave every island's shell and clock cell alone: a status word goes through the Deck, the
Viaduct's counters and the slots.
-/

namespace Sys2Proof.Machine

/-- `t` shows the islands as `s` does: the grade, the shells, and every register from the clock controller's on. -/
structure State.SameIslands (s t : State) : Prop where
  grade : t.grade = s.grade
  shells : t.net.shells = s.net.shells
  cells : ∀ a, 0x3400 ≤ a → t.reg a = s.reg a

theorem Req.bad_none (r : Req) : r.bad .none = false := rfl

theorem State.backBad_none (s : State) (r : Req) (p : Resp) : s.backBad r p .none = false := rfl

namespace State.SameIslands

theorem refl (s : State) : s.SameIslands s := ⟨rfl, rfl, fun _ _ => rfl⟩

theorem trans {s t u : State} (h : s.SameIslands t) (k : t.SameIslands u) : s.SameIslands u :=
  ⟨k.grade.trans h.grade, k.shells.trans h.shells, fun a ha => (k.cells a ha).trans (h.cells a ha)⟩

theorem shell {s t : State} (h : s.SameIslands t) (k : Nat) : t.shell k = s.shell k := State.shell_congr h.grade h.shells k

theorem rf {s t : State} (h : s.SameIslands t) (f : Fd) (hf : 0x3400 ≤ f.addr) : t.rf f = s.rf f := by
  rw [State.rf, State.rf, h.cells _ hf]

/-- A change outside the registers, the grade and the shells. -/
theorem of_eq {s t : State} (hg : t.grade = s.grade) (hs : t.net.shells = s.net.shells) (hio : t.io = s.io) : s.SameIslands t :=
  ⟨hg, hs, fun a _ => by rw [State.reg, State.reg, hio]⟩

theorem wf (s : State) (f : Fd) (v : Nat) (hf : f.addr < 0x3400) : s.SameIslands (s.wf f v) :=
  ⟨rfl, rfl, fun a ha => s.reg_wf_other f v a (by omega)⟩

theorem incSat (s : State) (f : Fd) (n : Nat) (hf : f.addr < 0x3400) : s.SameIslands (s.incSat f n) := wf s f _ hf

theorem setBit (s : State) (f : Fd) (i : Nat) (v : Bool) (hf : f.addr < 0x3400) : s.SameIslands (s.setBit f i v) :=
  ⟨rfl, rfl, fun a ha => s.reg_setBit_other f i a v (by omega)⟩

theorem raise (s : State) (e : Nat) : s.SameIslands (s.raise e) := of_eq rfl rfl rfl

theorem raiseIf (s : State) (e en : Fd) : s.SameIslands (s.raiseIf e en) := by
  unfold State.raiseIf
  split
  · exact raise s _
  · exact refl s

/-! ### The Deck -/

theorem deckQuarter_lt (a : Nat) : deckQuarter a < 4 := Nat.mod_lt _ (by decide)

theorem queueScrub (s : State) (w : Nat) : s.SameIslands (s.queueScrub w) := by
  unfold State.queueScrub
  split
  · exact refl s
  · exact of_eq rfl rfl rfl

theorem correct (s : State) (w : Nat) : s.SameIslands (s.correct w) := by
  have hq := deckQuarter_lt (8 * w)
  have hcnt : (Reg.DECK_CE_CNT.COUNT (deckQuarter (8 * w))).addr < 0x3400 := by
    show 0x1805 + 0x200 * _ < _
    omega
  have haddr : (Reg.DECK_CE_ADDR.ADDR (deckQuarter (8 * w))).addr < 0x3400 := by
    show 0x1806 + 0x200 * _ < _
    omega
  exact (((incSat s _ 1 hcnt).trans (wf _ _ (8 * w) haddr)).trans
    (raiseIf _ (Reg.DECK_EVCFG.CE_EVENT _) (Reg.DECK_EVCFG.CE_EN _))).trans (queueScrub _ w)

theorem detectPoison (s : State) (w : Nat) : s.SameIslands (s.detectPoison w) := by
  have hq := deckQuarter_lt (8 * w)
  have hcnt : (Reg.DECK_UE_CNT.COUNT (deckQuarter (8 * w))).addr < 0x3400 := by
    show 0x1807 + 0x200 * _ < _
    omega
  have haddr : (Reg.DECK_UE_ADDR.ADDR (deckQuarter (8 * w))).addr < 0x3400 := by
    show 0x1808 + 0x200 * _ < _
    omega
  exact ((incSat s _ 1 hcnt).trans (wf _ _ (8 * w) haddr)).trans (raiseIf _ _ _)

theorem checkWord (s : State) (w : Nat) : s.SameIslands (s.checkWord w).2 := by
  unfold State.checkWord
  split
  · exact detectPoison s w
  · split
    · exact correct s w
    · exact refl s

theorem writtenWord (s : State) (w : Nat) : s.SameIslands (s.writtenWord w) := by
  have hmode : (Reg.DECK_ECC_INJ.MODE (deckQuarter (8 * w))).addr < 0x3400 := by
    have hq := deckQuarter_lt (8 * w)
    show 0x1809 + 0x200 * _ < _
    omega
  have hscrub : s.SameIslands { s with scrubs := s.scrubs.filter (fun x => x != w) } := of_eq rfl rfl rfl
  unfold State.writtenWord
  dsimp only
  split
  · exact (hscrub.trans (wf _ _ 0 hmode)).trans (of_eq rfl rfl rfl)
  · exact hscrub.trans (of_eq rfl rfl rfl)

theorem deckPoke (s : State) (a n v : Nat) : s.SameIslands (s.deckPoke a n v) := of_eq rfl rfl rfl

theorem deckWriteWord (s : State) (a n v : Nat) : s.SameIslands (s.deckWriteWord a n v).2 := by
  unfold State.deckWriteWord
  dsimp only
  split
  · exact (deckPoke s a 8 v).trans (writtenWord _ _)
  · split
    · exact checkWord s _
    · exact ((checkWord s _).trans (deckPoke _ a n v)).trans (writtenWord _ _)

theorem deckWriteFrom (s : State) (fuel a n v : Nat) : s.SameIslands (s.deckWriteFrom fuel a n v).2 := by
  induction fuel generalizing s a n v with
  | zero => exact refl s
  | succ fuel ih =>
    unfold State.deckWriteFrom
    split
    · exact refl s
    · exact (deckWriteWord s _ _ _).trans (ih _ _ _ _)

/-! ### The Viaduct -/

theorem turnAway (s : State) (ni : Nat) (op : NetOp) : s.SameIslands (s.turnAway ni op).2 := by
  have hoff : s.SameIslands (s.incSat Reg.VIA_OFFLINE_CNT.COUNT) := incSat s _ 1 (by decide)
  unfold State.turnAway
  split
  · exact hoff
  · split
    · exact hoff
    · split
      · exact incSat s _ 1 (by decide)
      · split
        · exact hoff
        · exact refl s

theorem loseTag (s : State) (r : Req) : s.SameIslands (s.loseTag r) := by
  have hreqs (rs : List Req) (n : Nat) : s.SameIslands { s with net := { s.net with nextId := n, reqs := rs } } := of_eq rfl rfl rfl
  exact (hreqs _ _).trans (incSat _ _ 1 (by decide))

theorem loseResponse (s : State) (isl ni : Nat) (op : NetOp) : s.SameIslands (s.loseResponse isl ni op) := by
  have herr : s.SameIslands (s.incSat Reg.VIA_ROUTE_ERR_CNT.COUNT) := incSat s _ 1 (by decide)
  exact herr.trans (loseTag _ _)

/-- A response that nothing befalls on its way. -/
theorem comesBack (s : State) (r : Req) (p : Resp) : s.SameIslands (s.comesBack r p .none).2 := by
  unfold State.comesBack
  rw [State.backBad_none]
  split
  · exact loseResponse s _ _ _
  · cases p <;> exact refl s

theorem deckSend (s : State) (ni vc off n v : Nat) : s.SameIslands (s.deckSend ni vc off n v).2 := by
  have hturn := turnAway s ni (.deckWr off n v)
  unfold State.deckSend
  generalize s.turnAway ni (.deckWr off n v) = x at hturn ⊢
  obtain ⟨e, t⟩ := x
  cases e with
  | some e => exact hturn
  | none =>
    dsimp only at hturn ⊢
    rw [if_neg (by rw [Req.bad_none]; decide)]
    exact (hturn.trans (deckWriteFrom t _ off n v)).trans (comesBack _ _ _)

theorem toPier (s : State) (stop p : Nat) (f : State → State) (hf : s.SameIslands (f s)) : s.SameIslands (s.toPier stop p f) := by
  unfold State.toPier
  split
  · exact hf
  · exact ((incSat s _ 1 (by decide)).trans (incSat _ _ 1 (by decide))).trans (setBit _ _ _ _ (by decide))

/-! ### The Dispatcher -/

theorem setSlot (s : State) (k : Nat) (v : Slot) : s.SameIslands (s.setSlot k v) := of_eq rfl rfl rfl

theorem dispStatus (s : State) (off w0 w1 : Nat) : s.SameIslands (s.dispStatus off w0 w1).2 :=
  (deckSend s _ _ _ _ _).trans (deckSend _ _ _ _ _ _)

theorem swLost (s : State) (slot tag : Nat) : s.SameIslands (s.swLost slot tag) :=
  ((wf s _ 1 (by decide)).trans (wf _ _ slot (by decide))).trans (wf _ _ tag (by decide))

theorem ite {s t u : State} {p : Prop} [Decidable p] (ht : s.SameIslands t) (hu : s.SameIslands u) : s.SameIslands (if p then t else u) := by
  split
  · exact ht
  · exact hu

theorem afterStatus (s : State) (stop k endState : Nat) (ok : Bool) : s.SameIslands (s.afterStatus stop k endState ok) := by
  have hevent (t : State) (u : Slot) : t.SameIslands (if jEven u.desc then t.raise (jEvent u.desc) else t) := ite (raise t _) (refl t)
  have hfault (t : State) (u : Slot) (b : Bool) : t.SameIslands
      (if jTrap u.desc && b then t.sendSpanFault stop u.thr (jTag u.desc) k else t) :=
    ite (toPier t _ _ _ (of_eq rfl rfl rfl)) (refl t)
  have hlost (t : State) (u : Slot) : t.SameIslands (if ok then t else t.swLost k (jTag u.desc)) := ite (refl t) (swLost t _ _)
  have hslots (t : State) (m : SMap Slot) : t.SameIslands { t with slots := m } := of_eq rfl rfl rfl
  unfold State.afterStatus
  exact ((((hevent s _).trans (hfault _ _ _)).trans (hlost _ _)).trans (setSlot _ _ _)).trans (hslots _ _)

theorem dispEnd (s : State) (k endState fault : Nat) : s.SameIslands (s.dispEnd k endState fault) :=
  (dispStatus s _ _ _).trans (afterStatus _ _ _ _ _)

theorem settleDeps (s : State) (fuel : Nat) : s.SameIslands (s.settleDeps fuel) := by
  induction fuel generalizing s with
  | zero => exact refl s
  | succ fuel ih =>
    unfold State.settleDeps
    split
    · exact refl s
    · exact (ite (dispEnd s _ _ _) (setSlot s _ _)).trans (ih _)

theorem cancelOrphans (s : State) (k n : Nat) : s.SameIslands (s.cancelOrphans k n) := by
  induction n generalizing s k with
  | zero => exact refl s
  | succ n ih =>
    unfold State.cancelOrphans
    exact (ite (dispEnd s _ _ _) (refl s)).trans (ih _ _)

/-- Queued jobs left with no Span end without a trace on the islands. -/
theorem dropOrphans (s : State) : s.SameIslands s.dropOrphans := (cancelOrphans s _ _).trans (settleDeps _ _)

end State.SameIslands
end Sys2Proof.Machine
end

section
/-!
PROOFS. IOPLL_ISL_CMD (R287 to R289): what each refusal rests on, and how an accepted action begins.
-/

namespace Sys2Proof.Machine
open Sys2Proof.Claims

/-! ## The write the commands make -/

/-- An action's code in IOPLL_ISL_CMD.ACTION (Table clk-5). -/
def IslAction.code : IslAction → Nat
  | .reset => 1 | .gate => 2 | .off => 3 | .restart => 4

@[simp] theorem actionOf_code (a : IslAction) : actionOf a.code = some a := by cases a <;> rfl

theorem IslAction.code_lt (a : IslAction) : a.code < 8 := by cases a <;> decide

theorem islCmd_isl (isl : Fin 32) (act : Nat) : getBits (islCmd isl act) 0 5 = isl.val := by
  simp only [getBits, islCmd, BitVec.toNat_ofNat]
  omega

theorem islCmd_action (isl : Fin 32) {act : Nat} (h : act < 8) : getBits (islCmd isl act) 8 3 = act := by
  simp only [getBits, islCmd, BitVec.toNat_ofNat]
  omega

/-- A refused write of IOPLL_ISL_CMD. -/
theorem State.writeIslCmd_refused {s : State} {src : Src} {isl : Fin 32} {a : IslAction} {why : Nat}
    (h : s.islRefusal src isl.val a.code = why) (hwhy : why ≠ 0) : (s.writeIslCmd src (islCmd isl a.code)).st = s.refuseIsl isl.val why := by
  unfold State.writeIslCmd
  simp only [islCmd_isl, islCmd_action isl a.code_lt, h, if_pos hwhy]
  rfl

/-- An accepted write of IOPLL_ISL_CMD. -/
theorem State.writeIslCmd_accepted {s : State} {src : Src} {isl : Fin 32} {a : IslAction} (h : s.islRefusal src isl.val a.code = 0) :
    (s.writeIslCmd src (islCmd isl a.code)).st = s.beginAction isl.val a := by
  unfold State.writeIslCmd
  simp only [islCmd_isl, islCmd_action isl a.code_lt, h, ne_eq, not_true_eq_false, if_false, actionOf_code]
  rfl

/-- Each command of Table clk-5 writes IOPLL_ISL_CMD while AON is up. -/
theorem exec_islandCommand {s : State} (hup : s.aonUp = true) (src : Src) (isl : Fin 32) :
    ∀ e ∈ ([(.islandReset, .reset), (.islandGate, .gate), (.islandOff, .off), (.islandRestart, .restart)] :
      List ((Src → Fin 32 → Instr) × IslAction)), exec (e.1 src isl) s = .next (s.writeIslCmd src (islCmd isl e.2.code)).st := by
  intro e he
  have hexec (t : State) : (if s.aonUp = true then .next t else .next s : Host.Outcome State Fault Refusal) = .next t := if_pos hup
  fin_cases he <;> exact hexec _

/-! ## The reasons of a refusal (R289, R293) -/

/-- The actions Table arch-2 permits for an island. -/
def mayAct (n : Nat) (a : IslAction) : Prop := switchable n ∨ (n = islFlash ∧ a = .reset)

theorem actionPermitted_iff (n : Nat) (a : IslAction) : actionPermitted n a = true ↔ mayAct n a := by
  cases a <;> simp [actionPermitted, mayAct, switchable, or_assoc, and_comm]

/-- The states from which Table clk-5 permits an action. -/
theorem actionFrom_iff (a : IslAction) (st : Nat) : actionFrom a st = true ↔ if a = .restart then st = 3 ∨ st = 4 else st = 0 := by
  cases a <;> simp [actionFrom]

section
variable {s : State} {src : Src} {n : Nat} {a : IslAction}

theorem State.islRefusal_fobex (h : src = .fobex) : s.islRefusal src n a.code = 0xE := by
  simp [State.islRefusal, h]

theorem State.islRefusal_outOfRange (hsrc : src ≠ .fobex) (h : 29 < n) : s.islRefusal src n a.code = 6 := by
  simp [State.islRefusal, hsrc, h]

theorem State.islRefusal_absent (hsrc : src ≠ .fobex) (hn : n ≤ 29) (h : s.grade.hasIsland n = false) :
    s.islRefusal src n a.code = 7 := by
  simp [State.islRefusal, hsrc, Nat.not_lt.2 hn, h]

theorem State.islRefusal_notPermitted (hsrc : src ≠ .fobex) (hn : n ≤ 29) (hg : s.grade.hasIsland n = true) (h : ¬ mayAct n a) :
    s.islRefusal src n a.code = 6 := by
  have hp : actionPermitted n a = false := by rwa [← Bool.not_eq_true, actionPermitted_iff]
  simp [State.islRefusal, hsrc, Nat.not_lt.2 hn, hg, hp]

end

section Permitted
variable {s : State} {src : Src} {n : Nat} {a : IslAction}
variable (hsrc : src ≠ .fobex) (hn : n ≤ 29) (hg : s.grade.hasIsland n = true) (hp : mayAct n a)
include hsrc hn hg hp

/-- An action permitted for its island turns on the island's state, and RESTART of CONV on the CPLL. -/
theorem State.islRefusal_permitted : s.islRefusal src n a.code =
    if s.islState n = 1 ∨ s.islState n = 2 ∨ s.islState n = 5 then 9
    else if !actionFrom a (s.islState n) then 8
    else if a = .restart ∧ n = islConv ∧ !s.on Reg.CPLL_STATUS.LOCK then 0xB
    else 0 := by
  simp only [State.islRefusal, if_neg hsrc, actionOf_code, if_neg (Nat.not_lt.2 hn), hg, (actionPermitted_iff n a).2 hp,
    Bool.not_true, Bool.false_eq_true, if_false]

theorem State.islRefusal_transition (h : s.islState n = 1 ∨ s.islState n = 2 ∨ s.islState n = 5) :
    s.islRefusal src n a.code = 9 := by
  rw [State.islRefusal_permitted hsrc hn hg hp, if_pos h]

theorem State.islRefusal_state (h : ¬ (s.islState n = 1 ∨ s.islState n = 2 ∨ s.islState n = 5))
    (hfrom : ¬ if a = .restart then s.islState n = 3 ∨ s.islState n = 4 else s.islState n = 0) : s.islRefusal src n a.code = 8 := by
  rw [← actionFrom_iff] at hfrom
  rw [State.islRefusal_permitted hsrc hn hg hp, if_neg h, if_pos (by simpa using hfrom)]

/-- A state from which Table clk-5 permits the action leaves the CPLL's lock alone to look at. -/
theorem State.islRefusal_from (hfrom : if a = .restart then s.islState n = 3 ∨ s.islState n = 4 else s.islState n = 0) :
    s.islRefusal src n a.code = if a = .restart ∧ n = islConv ∧ !s.on Reg.CPLL_STATUS.LOCK then 0xB else 0 := by
  have hrest : ¬ (s.islState n = 1 ∨ s.islState n = 2 ∨ s.islState n = 5) := by
    split at hfrom <;> omega
  rw [← actionFrom_iff] at hfrom
  rw [State.islRefusal_permitted hsrc hn hg hp, if_neg hrest, if_neg (by simp [hfrom])]

theorem State.islRefusal_unlocked (hst : s.islState n = 3 ∨ s.islState n = 4) (ha : a = .restart) (hconv : n = islConv)
    (hlock : s.on Reg.CPLL_STATUS.LOCK = false) : s.islRefusal src n a.code = 0xB := by
  rw [State.islRefusal_from hsrc hn hg hp (by rwa [if_pos ha]), if_pos ⟨ha, hconv, by rw [hlock]; rfl⟩]

theorem State.islRefusal_restart (hst : s.islState n = 3 ∨ s.islState n = 4) (ha : a = .restart)
    (hlock : n = islConv → s.on Reg.CPLL_STATUS.LOCK = true) : s.islRefusal src n a.code = 0 := by
  rw [State.islRefusal_from hsrc hn hg hp (by rwa [if_pos ha]), if_neg]
  rintro ⟨-, hconv, hno⟩
  simp [hlock hconv] at hno

theorem State.islRefusal_leaves (hst : s.islState n = 0) (ha : a ≠ .restart) : s.islRefusal src n a.code = 0 := by
  rw [State.islRefusal_from hsrc hn hg hp (by rwa [if_neg ha]), if_neg fun h => ha h.1]

end Permitted

/-! ## An accepted action begins (R198, R251, R288) -/

section
variable {s : State} {n : Nat} {a : IslAction}

theorem State.rf_wf_state (s : State) (n : Nat) {v : Nat} (hv : v < 8) :
    (s.wf (Reg.IOPLL_ISL.STATE n) v).rf (Reg.IOPLL_ISL.STATE n) = v := by
  rw [s.rf_wf_same _ _ (by show 0 + 3 ≤ 32; decide)]
  exact Nat.mod_eq_of_lt hv

/-- An island ONLINE whose action waits begins to quiesce. -/
theorem State.quiesceNow_online (ha : (s.shell n).action = some a) (hst : (s.shell n).st = .online) :
    s.quiesceNow n = s.setShell n { s.shell n with st := .quiesce, off := [] } := by
  simp [State.quiesceNow, ha, hst]

/-- An accepted action that leaves ONLINE noted in the island's shell; its cell shows QUIESCE, and its shell is ONLINE still (R288). -/
def State.noted (s : State) (n : Nat) (a : IslAction) : State :=
  (s.setShell n { s.shell n with action := some a }).wf (Reg.IOPLL_ISL.STATE n) 1

theorem State.shell_noted (hg : s.grade.hasIsland n = true) : (s.noted n a).shell n = { s.shell n with action := some a } :=
  s.shell_setShell_same n _ hg

theorem State.beginAction_restart (s : State) (n : Nat) : s.beginAction n .restart =
    (s.setShell n { s.shell n with action := some .restart }).wf (Reg.IOPLL_ISL.STATE n) 5 := rfl

theorem State.beginAction_leaves (ha : a ≠ .restart) :
    s.beginAction n a = if 16 ≤ n ∧ n < 20 then (s.noted n a).leaveQ (n - 16) else (s.noted n a).quiesceNow n := by
  simp only [State.beginAction, if_neg ha]
  rfl

/-- RESTART begins the return: RESTARTING, and no other change. -/
theorem beginAction_restart_spec (hg : s.grade.hasIsland n = true) :
    OnlyShell s (s.beginAction n .restart) n { s.shell n with action := some .restart } [Reg.IOPLL_ISL_at n] ∧
      (s.beginAction n .restart).rf (Reg.IOPLL_ISL.STATE n) = 5 := by
  rw [s.beginAction_restart]
  exact ⟨onlyShell_wf (onlyShell_setShell (onlyShell_refl s n _) hg _) _ _ (by simp [Reg.IOPLL_ISL.STATE]), State.rf_wf_state _ n (by decide)⟩

/-- RESET, GATE or OFF of an ONLINE island that is no quarter begins its quiesce, and changes nothing else. -/
theorem beginAction_quiesces (ha : a ≠ .restart) (hn : n < 16 ∨ 20 ≤ n) (hg : s.grade.hasIsland n = true) (hst : (s.shell n).st = .online) :
    OnlyShell s (s.beginAction n a) n { s.shell n with action := some a, st := .quiesce, off := [] } [Reg.IOPLL_ISL_at n] ∧
      (s.beginAction n a).rf (Reg.IOPLL_ISL.STATE n) = 1 := by
  have hshell := s.shell_noted (a := a) hg
  have hnoted : OnlyShell s (s.noted n a) n { s.shell n with action := some a } [Reg.IOPLL_ISL_at n] :=
    onlyShell_wf (onlyShell_setShell (onlyShell_refl s n _) hg { s.shell n with action := some a }) _ _ (by simp [Reg.IOPLL_ISL.STATE])
  rw [State.beginAction_leaves ha, if_neg (by omega), State.quiesceNow_online (a := a) (by rw [hshell]) (by rw [hshell]; exact hst), hshell,
    State.rf_setShell]
  exact ⟨onlyShell_setShell hnoted hg _, State.rf_wf_state _ n (by decide)⟩

/-- RESET, GATE or OFF of an ONLINE quarter whose Span is idle drops the orphaned jobs and begins the quiesce. -/
theorem beginAction_quiescesQuarter (ha : a ≠ .restart) (lo : 16 ≤ n) (hi : n < 20) (hg : s.grade.hasIsland n = true)
    (hst : (s.shell n).st = .online) (hidle : s.span (n - 16) = none) :
    ((s.beginAction n a).shell n).st = .quiesce ∧ ((s.beginAction n a).shell n).action = some a ∧
      (s.beginAction n a).rf (Reg.IOPLL_ISL.STATE n) = 1 := by
  have hsame := State.SameIslands.dropOrphans (s.noted n a)
  have hshell : (s.noted n a).dropOrphans.shell n = { s.shell n with action := some a } := by
    rw [hsame.shell, s.shell_noted hg]
  have hpresent : (s.noted n a).dropOrphans.grade.hasIsland n = true := by rw [hsame.grade]; exact hg
  have hleave : (s.noted n a).leaveQ (n - 16) = (s.noted n a).dropOrphans.quiesceNow n := by
    have hspan : (s.noted n a).span (n - 16) = none := hidle
    rw [State.leaveQ, hspan, Nat.add_sub_cancel' lo]
  have hcell : (Reg.IOPLL_ISL.STATE n).addr ≥ 0x3400 := by
    show 0x3440 + n ≥ 0x3400
    omega
  rw [State.beginAction_leaves ha, if_pos ⟨lo, hi⟩, hleave,
    State.quiesceNow_online (a := a) (by rw [hshell]) (by rw [hshell]; exact hst), State.shell_setShell_same _ _ _ hpresent, hshell,
    State.rf_setShell, hsame.rf _ hcell]
  exact ⟨rfl, rfl, State.rf_wf_state _ n (by decide)⟩

end

/-- R289 and R288 for every command of Table clk-5, by the order of the refusal's checks. -/
theorem islandActionsBeginAndEnd : IslandActionsBeginAndEnd := by
  intro src isl s hup e he
  have hexec := exec_islandCommand hup src isl e he
  have hn := isl.isLt
  have refuses {why : Nat} (hwhy : s.islRefusal src isl.val e.2.code = why) (h0 : why ≠ 0) (h16 : why < 16) :
      RefusesIsl (e.1 src isl) s isl.val why :=
    refusesIsl_of_exec hn h16 (by rw [hexec, State.writeIslCmd_refused hwhy h0])
  have begins {P : State → Prop} (hwhy : s.islRefusal src isl.val e.2.code = 0) (hP : P (s.beginAction isl.val e.2)) :
      Does (e.1 src isl) s P := ⟨_, by rw [hexec, State.writeIslCmd_accepted hwhy], hP⟩
  refine ⟨fun hf => refuses (State.islRefusal_fobex hf) (by decide) (by decide), fun hf => ⟨fun hr => ?_, fun hr hg => ?_,
    fun hr hg => ⟨fun hsw hfl => ?_, fun hp => ⟨fun hst => ?_, fun h1 h2 h5 hfrom => ?_, fun hst hre hconv hlock => ?_,
      fun hst hre hlock => ?_, fun hst hre hq hon => ?_, fun hst hre lo hi hon hidle => ?_⟩⟩⟩⟩
  · exact refuses (State.islRefusal_outOfRange hf hr) (by decide) (by decide)
  · exact refuses (State.islRefusal_absent hf hr hg) (by decide) (by decide)
  · exact refuses (State.islRefusal_notPermitted hf hr hg (not_or.2 ⟨hsw, hfl⟩)) (by decide) (by decide)
  · exact refuses (State.islRefusal_transition hf hr hg hp hst) (by decide) (by decide)
  · exact refuses (State.islRefusal_state hf hr hg hp (by simp [h1, h2, h5]) hfrom) (by decide) (by decide)
  · exact refuses (State.islRefusal_unlocked hf hr hg hp hst hre hconv hlock) (by decide) (by decide)
  · refine begins (State.islRefusal_restart hf hr hg hp hst hre hlock) ?_
    rw [hre]
    exact beginAction_restart_spec hg
  · exact begins (State.islRefusal_leaves hf hr hg hp hst hre) (beginAction_quiesces hre hq hg hon)
  · exact begins (State.islRefusal_leaves hf hr hg hp hst hre) (beginAction_quiescesQuarter hre lo hi hg hon hidle)

end Sys2Proof.Machine
end

section
/-!
PROOFS. The end of an island's action (R249, R252, R288) and the DIV fields (R290, R291).
-/

namespace Sys2Proof.Machine
open Sys2Proof.Claims

/-! ## An action's end -/

section
variable {s : State} {n : Nat}

/-- The last step of every action: ISL_DONE, and the clock event. -/
def State.actionDone (s : State) : State := (s.wf Reg.IOPLL_STATUS.ISL_DONE 1).clkEvent

theorem State.actionDone_isl_done (s : State) : s.actionDone.on Reg.IOPLL_STATUS.ISL_DONE = true := by
  unfold State.actionDone State.clkEvent State.on
  rw [State.rf_raiseIf, State.rf_wf_same _ _ _ (by decide)]
  rfl

theorem State.actionDone_events (s : State) : s.actionDone.net.events = s.net.events ++ clkEv s := by
  unfold State.actionDone State.clkEvent
  rw [State.raiseIf_events, ev_wf_other _ _ _ _ (by decide) (by decide)]
  rfl

@[simp] theorem State.shell_actionDone (s : State) (k : Nat) : s.actionDone.shell k = s.shell k := State.shell_raiseIf _ _ _ k
@[simp] theorem State.actionDone_spad (s : State) : s.actionDone.spad = s.spad := State.raiseIf_spad _ _ _
@[simp] theorem State.actionDone_mbox (s : State) : s.actionDone.mbox = s.mbox := State.raiseIf_mbox _ _ _
@[simp] theorem State.actionDone_deck (s : State) : s.actionDone.deck = s.deck := State.raiseIf_deck _ _ _

theorem State.rf_actionDone (s : State) {f : Fd} (h : f.addr ≠ Reg.IOPLL_STATUS_at) : s.actionDone.rf f = s.rf f := by
  unfold State.actionDone State.clkEvent
  rw [State.rf_raiseIf, State.rf_wf_other _ _ _ _ (.inl h)]

/-- The clock event reads a register that an island's cell is not. -/
theorem clkEv_wf_state (s : State) (n v : Nat) : clkEv (s.wf (Reg.IOPLL_ISL.STATE n) v) = clkEv s := by
  have h : Reg.IOPLL_STATUS_at ≠ Reg.IOPLL_ISL_at n := by
    unfold Reg.IOPLL_STATUS_at Reg.IOPLL_ISL_at
    omega
  exact ev_wf_other _ _ _ _ (.inl h) (.inl h)

/-! ### The supply switched off -/

theorem State.powerLoss_net (s : State) (n : Nat) : (s.powerLoss n).net = s.net := by
  unfold State.powerLoss
  split
  · rfl
  · split <;> rfl

theorem State.SameIslands.powerUpDeck (s : State) {q : Nat} (hq : q < 4) : s.SameIslands (s.powerUpDeck q) := by
  have haddr : 0x1800 + 0x200 * q < 0x3400 := by omega
  have hdrop : s.SameIslands ((s.deckDrop q 8192).setInit q none) := of_eq rfl rfl rfl
  have hregs := (hdrop.trans (wf _ (Reg.DECK_STATUS.INIT_DONE q) 0 haddr)).trans (wf _ (Reg.DECK_STATUS.INIT_BUSY q) 0 haddr)
  exact hregs.trans (of_eq rfl rfl rfl)

theorem State.SameIslands.powerLoss (s : State) (n : Nat) : s.SameIslands (s.powerLoss n) := by
  unfold State.powerLoss
  split
  · exact of_eq rfl rfl rfl
  · split
    · exact powerUpDeck s (by omega)
    · exact refl s

/-- A pier's scratchpad is lost with its supply, and no other's (R70). -/
theorem State.powerLoss_spad (s : State) (hn : n < 16) (x : Nat) :
    SMap.get (s.powerLoss n).spad 0 x = if x / 0x10000 = n then 0 else SMap.get s.spad 0 x := by
  unfold State.powerLoss
  rw [if_pos hn]
  simp only [SMap.get_drop, beq_iff_eq]

/-- A pier's mailbox is lost with its supply, and no other's (R70). -/
theorem State.powerLoss_mbox (s : State) (hn : n < 16) (x : Nat) :
    SMap.get (s.powerLoss n).mbox 0 x = if x / 0x1000 = n then 0 else SMap.get s.mbox 0 x := by
  unfold State.powerLoss
  rw [if_pos hn]
  simp only [SMap.get_drop, beq_iff_eq]

/-! ### Back ONLINE -/

/-- With no request of the island's waiting in its core, none is admitted. -/
theorem State.admitHeld_none (s : State) (n : Nat) {rs : List Req} (h : ∀ x ∈ rs, x.isl = n → x.held = false) : s.admitHeld n rs = s := by
  induction rs with
  | nil => rfl
  | cons r t ih =>
    have hr : ¬ (r.isl = n ∧ r.held ∧ s.tagFree r.ni n) := by
      rintro ⟨hisl, hheld, -⟩
      simp [h r (by simp) hisl] at hheld
    rw [State.admitHeld, if_neg hr]
    exact ih fun x hx => h x (by simp [hx])

/-- The shell of an island ONLINE with its next generation (R249). -/
def Shell.renewed (h : Shell) : Shell := ⟨.online, [], (h.gen + 1) % 16, [], none⟩

theorem State.backOnline_eq (h : ∀ x ∈ s.net.reqs, x.isl = n → x.held = false) : s.backOnline n =
    ((s.setShell n (s.shell n).renewed).setReqs (s.net.reqs.filter (fun r => !(r.isl == n && r.stale && r.lost)))).wf
      (Reg.IOPLL_ISL.STATE n) 0 := by
  unfold State.backOnline
  exact congrArg (fun u : State => u.wf (Reg.IOPLL_ISL.STATE n) 0)
    (State.admitHeld_none _ n fun x hx => h x (List.mem_of_mem_filter hx))

end

/-- What an action's end leaves before ISL_DONE: the island shows `v` in its cell and `h` in its shell; every other shell, the events in
flight and the clock event stay. -/
structure EndsIn (s t : State) (n v : Nat) (h : Shell) : Prop where
  shell : t.shell n = h
  others : ∀ k, k ≠ n → t.shell k = s.shell k
  state : t.rf (Reg.IOPLL_ISL.STATE n) = v
  events : t.net.events = s.net.events
  clock : clkEv t = clkEv s

section
variable {s : State} {n : Nat}

/-- A shell replaced, then the cell written, with anything between that leaves the islands and the events alone. -/
theorem endsIn_of {u : State} (hg : s.grade.hasIsland n = true) {h : Shell} (hu : (s.setShell n h).SameIslands u)
    (hev : u.net.events = s.net.events) {v : Nat} (hv : v < 8) : EndsIn s (u.wf (Reg.IOPLL_ISL.STATE n) v) n v h where
  shell := by rw [State.shell_wf, hu.shell, s.shell_setShell_same n h hg]
  others k hk := by rw [State.shell_wf, hu.shell, s.shell_setShell_other n h hk]
  state := u.rf_wf_state n hv
  events := hev
  clock := by
    rw [clkEv_wf_state]
    exact ev_congr (hu.cells _ (by decide)) (hu.cells _ (by decide))

theorem endsIn_gate (hg : s.grade.hasIsland n = true) :
    EndsIn s ((s.setShell n { s.shell n with action := none }).wf (Reg.IOPLL_ISL.STATE n) 3) n 3 { s.shell n with action := none } :=
  endsIn_of hg (.refl _) rfl (by decide)

theorem endsIn_off (hg : s.grade.hasIsland n = true) :
    EndsIn s (((s.setShell n { s.shell n with action := none }).powerLoss n).wf (Reg.IOPLL_ISL.STATE n) 4) n 4
      { s.shell n with action := none } :=
  endsIn_of hg (.powerLoss _ n) (by rw [State.powerLoss_net, State.setShell_events]) (by decide)

theorem endsIn_backOnline (hg : s.grade.hasIsland n = true) (h : ∀ x ∈ s.net.reqs, x.isl = n → x.held = false) :
    EndsIn s (s.backOnline n) n 0 (s.shell n).renewed := by
  rw [State.backOnline_eq h]
  have hreqs (u : State) (rs : List Req) : u.SameIslands (u.setReqs rs) := .of_eq rfl rfl rfl
  exact endsIn_of hg (hreqs _ _) rfl (by decide)

end

/-- What follows from an action's end once ISL_DONE is set and the clock event raised. -/
theorem EndsIn.done {s t : State} {n v : Nat} {h : Shell} (ht : EndsIn s t n v h) :
    t.actionDone.on Reg.IOPLL_STATUS.ISL_DONE = true ∧ t.actionDone.net.events = s.net.events ++ clkEv s ∧
      (∀ k, k ≠ n → t.actionDone.shell k = s.shell k) ∧ t.actionDone.shell n = h ∧ t.actionDone.rf (Reg.IOPLL_ISL.STATE n) = v := by
  have hcell : Reg.IOPLL_ISL_at n ≠ Reg.IOPLL_STATUS_at := by
    unfold Reg.IOPLL_STATUS_at Reg.IOPLL_ISL_at
    omega
  refine ⟨t.actionDone_isl_done, ?_, fun k hk => ?_, ?_, ?_⟩
  · rw [t.actionDone_events, ht.events, ht.clock]
  · rw [t.shell_actionDone, ht.others k hk]
  · rw [t.shell_actionDone, ht.shell]
  · rw [t.rf_actionDone hcell, ht.state]

theorem exec_islandActionEnd {s : State} {isl : Fin 30} {a : IslAction} (hst : (s.shell isl.val).st = .offline)
    (ha : (s.shell isl.val).action = some a) : exec (.islandActionEnd isl) s = .next (s.actionEnd isl.val a) := by
  show execIslandActionEnd isl s = _
  simp [execIslandActionEnd, ha, hst]

/-- R288 for every action's end, by the action. -/
theorem islandActionEnd_completes (isl : Fin 30) (a : IslAction) (s : State) (hst : (s.shell isl.val).st = .offline)
    (ha : (s.shell isl.val).action = some a) (hreqs : ∀ x ∈ s.net.reqs, x.isl = isl.val → x.held = false) :
    Does (.islandActionEnd isl) s (fun t => t.on Reg.IOPLL_STATUS.ISL_DONE = true ∧ t.net.events = s.net.events ++ clkEv s ∧
      (∀ k, k ≠ isl.val → t.shell k = s.shell k) ∧
      (a = .gate → t.shell isl.val = { s.shell isl.val with action := none } ∧ t.rf (Reg.IOPLL_ISL.STATE isl.val) = 3 ∧ t.spad = s.spad) ∧
      (a = .off → t.shell isl.val = { s.shell isl.val with action := none } ∧ t.rf (Reg.IOPLL_ISL.STATE isl.val) = 4 ∧
        (isl.val < 16 → ∀ x, SMap.get t.spad 0 x = (if x / 0x10000 = isl.val then 0 else SMap.get s.spad 0 x) ∧
          SMap.get t.mbox 0 x = (if x / 0x1000 = isl.val then 0 else SMap.get s.mbox 0 x))) ∧
      (a = .reset ∨ a = .restart → t.shell isl.val = ⟨.online, [], ((s.shell isl.val).gen + 1) % 16, [], none⟩ ∧
        t.rf (Reg.IOPLL_ISL.STATE isl.val) = 0 ∧ t.spad = s.spad ∧ t.deck = s.deck)) := by
  have hg : s.grade.hasIsland isl.val = true := State.hasIsland_of_shell (by rw [hst]; decide)
  refine ⟨_, exec_islandActionEnd hst ha, ?_⟩
  obtain ⟨hspad, hdeck⟩ : (s.backOnline isl.val).spad = s.spad ∧ (s.backOnline isl.val).deck = s.deck := by
    rw [State.backOnline_eq hreqs]
    exact ⟨rfl, rfl⟩
  cases a with
  | gate =>
    obtain ⟨hdone, hevents, hothers, hshell, hstate⟩ := (endsIn_gate hg).done
    exact ⟨hdone, hevents, hothers, fun _ => ⟨hshell, hstate, State.actionDone_spad _⟩, by simp, by simp⟩
  | off =>
    obtain ⟨hdone, hevents, hothers, hshell, hstate⟩ := (endsIn_off hg).done
    refine ⟨hdone, hevents, hothers, by simp, fun _ => ⟨hshell, hstate, fun hn x => ?_⟩, by simp⟩
    exact ⟨(congrArg (SMap.get · 0 x) (State.actionDone_spad _)).trans (State.powerLoss_spad _ hn x),
      (congrArg (SMap.get · 0 x) (State.actionDone_mbox _)).trans (State.powerLoss_mbox _ hn x)⟩
  | reset | restart =>
    obtain ⟨hdone, hevents, hothers, hshell, hstate⟩ := (endsIn_backOnline hg hreqs).done
    exact ⟨hdone, hevents, hothers, by simp, by simp, fun _ => ⟨hshell, hstate, (State.actionDone_spad _).trans hspad,
      (State.actionDone_deck _).trans hdeck⟩⟩

/-! ## DIV -/

section
variable {s : State} {src : Src} {n : Nat} {v : Word}

theorem State.writeDiv_fobex (h : src = .fobex) : (s.writeDiv src n v).st = s.refuseIsl n 0xE := by
  simp only [State.writeDiv, if_pos h]
  rfl

/-- DIV of an island on the grade: a pier's is written, FLASH's under the conditions of R291, any other fixed. -/
theorem State.writeDiv_present (hsrc : src ≠ .fobex) (hg : s.grade.hasIsland n = true) : (s.writeDiv src n v).st =
    if n < 16 then s.wf (Reg.IOPLL_ISL.DIV n) (getBits v 4 2)
    else if n ≠ islFlash then s
    else if getBits v 4 2 = 3 then s.refuseIsl n 0xF
    else if getBits v 4 2 ≠ s.rf (Reg.IOPLL_ISL.DIV n) ∧ s.flcBusy = true then s.refuseIsl n 0xC
    else s.wf (Reg.IOPLL_ISL.DIV n) (getBits v 4 2) := by
  simp only [State.writeDiv, if_neg hsrc, hg, Bool.not_true, Bool.false_eq_true, if_false]
  repeat' split
  all_goals rfl

/-- DIV written: its register alone changes. -/
theorem does_writesDiv {i : Instr} (h : exec i s = .next (s.wf (Reg.IOPLL_ISL.DIV n) (getBits v 4 2))) :
    Does i s (fun t => Regs s t [Reg.IOPLL_ISL_at n] [] ∧ t.rf (Reg.IOPLL_ISL.DIV n) = getBits v 4 2) := by
  refine ⟨_, h, regs_setReg s _ _, ?_⟩
  rw [s.rf_wf_same _ _ (by show 4 + 2 ≤ 32; decide)]
  exact Nat.mod_eq_of_lt (getBits_lt v 4 2)

end

theorem exec_islandDivWrite {s : State} (hup : s.aonUp = true) (src : Src) (isl : Fin 30) (v : Word) :
    exec (.islandDivWrite src isl v) s = .next (s.writeDiv src isl.val v).st := if_pos hup

theorem islandActionsComplete : IslandActionsComplete := by
  refine ⟨islandActionEnd_completes, fun src isl v s hup => ?_⟩
  have hexec := exec_islandDivWrite hup src isl v
  have hn : isl.val < 32 := by omega
  refine ⟨fun hf => refusesIsl_of_exec hn (by decide) (by rw [hexec, State.writeDiv_fobex hf]), fun hf hg => ?_⟩
  rw [State.writeDiv_present hf hg] at hexec
  refine ⟨fun hp => ?_, fun hfl => ?_, fun lo hne => ?_⟩
  · rw [if_pos hp] at hexec
    exact does_writesDiv hexec
  · rw [if_neg (by rw [hfl]; decide), if_neg (not_not.2 hfl)] at hexec
    refine ⟨fun h3 => ?_, fun h3 hd hb => ?_, fun h3 hb => ?_⟩
    · rw [if_pos h3] at hexec
      exact refusesIsl_of_exec hn (by decide) hexec
    · rw [if_neg h3, if_pos ⟨hd, hb⟩] at hexec
      exact refusesIsl_of_exec hn (by decide) hexec
    · rw [if_neg h3, if_neg (by simp [hb])] at hexec
      exact does_writesDiv hexec
  · rw [if_neg (by omega), if_pos hne] at hexec
    exact ⟨s, hexec, rfl⟩

/-- Settles O32: the beginnings by the order of the refusal's checks, the ends by the action, DIV by the island. -/
theorem islandActions : Obligations.IslandActions := ⟨islandActionsBeginAndEnd, islandActionsComplete⟩

end Sys2Proof.Machine
end

section
/-!
PROOFS. O59. Few operations of the model write a memory: the scratchpads', mailboxes' and I-spaces' byte writes, the Deck's pokes,
fills and bit errors, and what a reset or a power loss drops. Their laws on memories are proved above; every other operation is a
chain of those and of updates outside the memories, so one lemma per operation, `MemWf.f`, says that `f` keeps the memories canonical,
and cites those of the operations `f` calls. They stand in the order of the model.
-/

namespace Sys2Proof.Claims
open Sys2Proof.Machine

/-- Whatever state an issued instruction leaves, before it retires or its cause is taken, has every memory canonical. -/
def KeepsOut : Out → Prop
  | .stall | .trap _ => True
  | .fail s _ | .done s _ _ | .gated s _ _ | .product s _ | .wait s _ => MemWf s

/-- The next state a command answers has every memory canonical. -/
def Keeps : Host.Outcome State Fault Refusal → Prop
  | .next s => MemWf s
  | .fault _ | .refused _ => True

/-- A state that differs from a canonical one outside the memories is canonical. -/
theorem MemWf.upd {s : State} (h : MemWf s)
    {pending grade io threads net slots accepted spans scrubs inits dma dmaTurn gauges spll ldr vault flc trigs record rtc par
    boot cvp cal ovrIn estopN abtNew quietUs us eth fsv panel gio held dbg pwrLow free} :
    MemWf ⟨pending, grade, io, threads, s.ispace, s.spad, s.mbox, s.deck, s.ecc, net, slots, accepted, spans, s.fills, scrubs,
      inits, dma, dmaTurn, gauges, spll, ldr, vault, flc, trigs, record, rtc, par, boot, cvp, cal, ovrIn, estopN, abtNew,
      quietUs, us, eth, fsv, panel, gio, held, dbg, pwrLow, free⟩ :=
  ⟨h.ispace, h.spad, h.mbox, h.deck, h.ecc⟩

/-! Both ends of a test: of a state, of a write's result, of an instruction's outcome, of a command's, of a value with a state. -/

theorem MemWf.ite {c : Prop} [Decidable c] {p q : State} (hp : MemWf p) (hq : MemWf q) : MemWf (if c then p else q) := by
  split <;> assumption
theorem MemWf.ite_st {c : Prop} [Decidable c] {p q : WRes} (hp : MemWf p.st) (hq : MemWf q.st) :
    MemWf (if c then p else q).st := by
  split <;> assumption
theorem MemWf.ite_out {c : Prop} [Decidable c] {p q : Out} (hp : KeepsOut p) (hq : KeepsOut q) :
    KeepsOut (if c then p else q) := by
  split <;> assumption
theorem MemWf.ite_next {c : Prop} [Decidable c] {p q : Host.Outcome State Fault Refusal} (hp : Keeps p) (hq : Keeps q) :
    Keeps (if c then p else q) := by
  split <;> assumption
theorem MemWf.ite_snd {α} {c : Prop} [Decidable c] {p q : α × State} (hp : MemWf p.2) (hq : MemWf q.2) :
    MemWf (if c then p else q).2 := by
  split <;> assumption

/-! A state as a part of a result. -/

theorem MemWf.snd {α} {a : α} {s} (h : MemWf s) : MemWf (a, s).2 := h
theorem MemWf.res {s} (h : MemWf s) {code} : MemWf (WRes.mk s code).st := h
theorem MemWf.ok {s} (h : MemWf s) : MemWf (WRes.ok s).st := h

theorem MemWf.foldl {α} {f : State → α → State} (hf : ∀ s a, MemWf s → MemWf (f s a)) {s} (h : MemWf s) {l : List α} :
    MemWf (l.foldl f s) :=
  match l with
  | [] => h
  | _ :: _ => MemWf.foldl hf (hf _ _ h)

/-! ### Reset -/

theorem MemWf.reset : MemWf State.reset := memWf_reset

/-! ### The named operations over registers, memories, events and threads -/

theorem MemWf.setReg {s} (h : MemWf s) {a v} : MemWf (s.setReg a v) := h.upd
theorem MemWf.wf {s} (h : MemWf s) {f v} : MemWf (s.wf f v) := h.setReg
theorem MemWf.incSat {s} (h : MemWf s) {f n} : MemWf (s.incSat f n) := h.wf
theorem MemWf.incWrap {s} (h : MemWf s) {f n} : MemWf (s.incWrap f n) := h.wf
theorem MemWf.setBit {s} (h : MemWf s) {f i v} : MemWf (s.setBit f i v) := h.setReg
theorem MemWf.takeFree {s} (h : MemWf s) : MemWf s.takeFree.2 := h.upd.snd
theorem MemWf.spadWr {s} (h : MemWf s) {p a n v} : MemWf (s.spadWr p a n v) :=
  ⟨h.ispace, wf_setBytes _ _ _ _ h.spad, h.mbox, h.deck, h.ecc⟩
theorem MemWf.mboxWr {s} (h : MemWf s) {p a n v} : MemWf (s.mboxWr p a n v) :=
  ⟨h.ispace, h.spad, wf_setBytes _ _ _ _ h.mbox, h.deck, h.ecc⟩
theorem MemWf.raise {s} (h : MemWf s) {e} : MemWf (s.raise e) := h.upd
theorem MemWf.raiseIf {s} (h : MemWf s) {ev en} : MemWf (s.raiseIf ev en) := .ite h.raise h
theorem MemWf.cause {s} (h : MemWf s) {c einfo sub} : MemWf (s.cause c einfo sub) := h.upd
theorem MemWf.refuse {s} (h : MemWf s) {r reason} : MemWf (s.refuse r reason) := by
  unfold State.refuse
  dsimp only
  split
  · refine MemWf.raiseIf ?_
    split
    · exact h.wf.wf
    · exact h.wf
  · split
    · exact h.wf.wf
    · exact h.wf
theorem MemWf.refused {s} (h : MemWf s) {r reason} : MemWf (s.refused r reason).st := h.refuse.res
theorem MemWf.setThr {s} (h : MemWf s) {t v} : MemWf (s.setThr t v) := h.upd
theorem MemWf.onThr {s} (h : MemWf s) {t f} : MemWf (s.onThr t f) := h.setThr
theorem MemWf.doubleException {s} (h : MemWf s) {th c epc} : MemWf (s.doubleException th c epc) := h.wf.wf.wf.setBit.upd.raiseIf
theorem MemWf.takeException {s} (h : MemWf s) {th c epc} : MemWf (s.takeException th c epc) :=
  .ite h.doubleException (.ite h.upd.upd.setBit h.upd)

/-! ### Register accesses by field codes -/

theorem MemWf.writeReg {s} (h : MemWf s) {p a v} : MemWf (s.writeReg p a v) := h.setReg
theorem MemWf.writeOr {s} (h : MemWf s) {p r reason a v} : MemWf (s.writeOr p r reason a v).st :=
  .ite_st h.writeReg.res h.writeReg.refuse.res
theorem MemWf.writeBut {s} (h : MemWf s) {p r locked reason a v bad} : MemWf (s.writeBut p r locked reason a v bad).st :=
  .ite_st h.writeOr h.writeOr.refused
theorem MemWf.notQuiet {s} (h : MemWf s) : MemWf s.notQuiet := h.upd

/-! ### The Deck -/

theorem MemWf.deckPoke {s} (h : MemWf s) {a n v} : MemWf (s.deckPoke a n v) :=
  ⟨h.ispace, h.spad, h.mbox, s.wf_deckPoke a n v h.deck, h.ecc⟩
theorem MemWf.setEcc {s} (h : MemWf s) {w e} : MemWf (s.setEcc w e) :=
  ⟨h.ispace, h.spad, h.mbox, h.deck, s.wf_setEcc w e h.ecc⟩
theorem MemWf.queueScrub {s} (h : MemWf s) {w} : MemWf (s.queueScrub w) := .ite h h.upd
theorem MemWf.correct {s} (h : MemWf s) {w} : MemWf (s.correct w) := h.incSat.wf.raiseIf.queueScrub
theorem MemWf.detectPoison {s} (h : MemWf s) {w} : MemWf (s.detectPoison w) := h.incSat.wf.raiseIf
theorem MemWf.checkWord {s} (h : MemWf s) {w} : MemWf (s.checkWord w).2 :=
  .ite_snd h.detectPoison.snd (.ite_snd h.correct.snd h.snd)
theorem MemWf.checkWords {s} (h : MemWf s) {w k} : MemWf (s.checkWords w k).2 :=
  match k with
  | 0 => h.snd
  | _ + 1 => h.checkWord.checkWords.snd
theorem MemWf.deckRead {s} (h : MemWf s) {a n} : MemWf (s.deckRead a n).2 := .ite_snd h.checkWords.snd h.checkWords.snd
theorem MemWf.writtenWord {s} (h : MemWf s) {w} : MemWf (s.writtenWord w) := .ite h.upd.wf.setEcc h.upd.setEcc
theorem MemWf.deckWriteWord {s} (h : MemWf s) {a n v} : MemWf (s.deckWriteWord a n v).2 :=
  .ite_snd h.deckPoke.writtenWord.snd (.ite_snd h.checkWord.snd h.checkWord.deckPoke.writtenWord.snd)
theorem MemWf.deckPokes {s} (h : MemWf s) {ps} : MemWf (s.deckPokes ps) :=
  match ps with
  | [] => h
  | _ :: _ => h.deckPoke.deckPokes
theorem MemWf.deckWriteMany {s} (h : MemWf s) {w ps} : MemWf (s.deckWriteMany w ps).2 :=
  .ite_snd h.deckPokes.writtenWord.snd (.ite_snd h.checkWord.snd h.checkWord.deckPokes.writtenWord.snd)
theorem MemWf.deckWriteFrom {s} (h : MemWf s) {fuel a n v} : MemWf (s.deckWriteFrom fuel a n v).2 :=
  match fuel with
  | 0 => h.snd
  | _ + 1 => .ite_snd h.snd h.deckWriteWord.deckWriteFrom.snd
theorem MemWf.deckWrite {s} (h : MemWf s) {a n v} : MemWf (s.deckWrite a n v).2 := h.deckWriteFrom
/-- What the Deck's own laws show of the Deck, with the other memories as they were. -/
theorem MemWf.of_deckWf {s t : State} (h : MemWf s) (hd : s.DeckWf → t.DeckWf) (hi : t.ispace = s.ispace) (hs : t.spad = s.spad)
    (hm : t.mbox = s.mbox) : MemWf t :=
  ⟨hi ▸ h.ispace, hs ▸ h.spad, hm ▸ h.mbox, (hd ⟨h.deck, h.ecc⟩).deck, (hd ⟨h.deck, h.ecc⟩).ecc⟩
theorem MemWf.deckFill {s} (h : MemWf s) {q rows pat} : MemWf (s.deckFill q rows pat) :=
  h.of_deckWf (s.deckWf_deckFill q rows pat) rfl rfl rfl

/-! ### The Viaduct -/

theorem MemWf.setShell {s} (h : MemWf s) {isl v} : MemWf (s.setShell isl v) := h.upd
theorem MemWf.setRoute {s} (h : MemWf s) {ni entry v} : MemWf (s.setRoute ni entry v) := h.upd
theorem MemWf.launch {s} (h : MemWf s) {p} : MemWf (s.launch p) := h.upd
theorem MemWf.letIn {s} (h : MemWf s) {r} : MemWf (s.letIn r).2 := .ite_snd h.incSat.snd (.ite_snd h.incSat.snd h.launch.snd)
theorem MemWf.setReqs {s} (h : MemWf s) {rs} : MemWf (s.setReqs rs) := h.upd
theorem MemWf.send {s} (h : MemWf s) {isl ni vc who op} : MemWf (s.send isl ni vc who op) :=
  (MemWf.ite_snd h.upd.letIn h.upd.snd).setReqs
theorem MemWf.admitHeld {s} (h : MemWf s) {isl rs} : MemWf (s.admitHeld isl rs) :=
  match rs with
  | [] => h
  | _ :: _ => .ite h.letIn.setReqs.admitHeld h.admitHeld
theorem MemWf.dropDelivery {s} (h : MemWf s) {p} : MemWf (s.dropDelivery p) := h.incSat.setBit
theorem MemWf.toPier {s} (h : MemWf s) {stop p deliver} (hdeliver : ∀ u, MemWf u → MemWf (deliver u)) : MemWf
    (s.toPier stop p deliver) :=
  .ite (hdeliver _ h) h.incSat.dropDelivery
theorem MemWf.gauCount {s} (h : MemWf s) {g i n} : MemWf (s.gauCount g i n) := .ite h.incSat.upd h.incSat
theorem MemWf.tellGauge {s} (h : MemWf s) {g} : MemWf (s.tellGauge g) := .ite h.gauCount h
theorem MemWf.discard {s} (h : MemWf s) {ni} : MemWf (s.discard ni) := by
  unfold State.discard
  dsimp only
  split
  · exact h.incSat.tellGauge
  · exact h.incSat
theorem MemWf.turnAway {s} (h : MemWf s) {ni op} : MemWf (s.turnAway ni op).2 := by
  unfold State.turnAway
  split
  · exact h.incSat.snd
  · exact .ite_snd h.incSat.snd (.ite_snd h.incSat.snd (.ite_snd h.incSat.snd h.snd))
theorem MemWf.loseTag {s} (h : MemWf s) {r} : MemWf (s.loseTag r) := h.upd.incSat
theorem MemWf.loseResponse {s} (h : MemWf s) {isl ni op} : MemWf (s.loseResponse isl ni op) := h.incSat.loseTag
theorem MemWf.malformedEnd {s} (h : MemWf s) {r d} : MemWf (s.malformedEnd r d).2 :=
  .ite_snd h.discard.loseTag.snd (.ite_snd h.discard.snd h.discard.loseResponse.snd)
theorem MemWf.comesBack {s} (h : MemWf s) {r p b} : MemWf (s.comesBack r p b).2 := by
  unfold State.comesBack
  refine MemWf.ite_snd h.loseResponse.snd ?_
  refine MemWf.ite_snd h.discard.loseTag.snd ?_
  split <;> exact h.snd
theorem MemWf.deckFetch {s} (h : MemWf s) {ni vc off n d b} : MemWf (s.deckFetch ni vc off n d b).2 := by
  unfold State.deckFetch
  have ht : MemWf (s.turnAway ni (.deckRd off n)).2 := h.turnAway
  generalize s.turnAway ni (.deckRd off n) = r at ht ⊢
  obtain ⟨_ | e, u⟩ := r
  · refine .ite_snd ht.malformedEnd ?_
    dsimp only
    split <;> exact ht.deckRead.comesBack
  · exact ht
theorem MemWf.deckSendMany {s} (h : MemWf s) {ni vc w ps d b} : MemWf (s.deckSendMany ni vc w ps d b).2 := by
  unfold State.deckSendMany
  have ht : MemWf (s.turnAway ni (.deckWr (8 * w) 8 0)).2 := h.turnAway
  generalize s.turnAway ni (.deckWr (8 * w) 8 0) = r at ht ⊢
  obtain ⟨_ | e, u⟩ := r
  · exact .ite_snd ht.malformedEnd ht.deckWriteMany.comesBack
  · exact ht
theorem MemWf.deckSend {s} (h : MemWf s) {ni vc off n v d b} : MemWf (s.deckSend ni vc off n v d b).2 := by
  unfold State.deckSend
  have ht : MemWf (s.turnAway ni (.deckWr off n v)).2 := h.turnAway
  generalize s.turnAway ni (.deckWr off n v) = r at ht ⊢
  obtain ⟨_ | e, u⟩ := r
  · exact .ite_snd ht.malformedEnd ht.deckWrite.comesBack
  · exact ht

/-! ### The energy ledger -/

theorem MemWf.trigger {s} (h : MemWf s) {src} : MemWf (s.trigger src) := h.upd
theorem MemWf.noteMin {s} (h : MemWf s) : MemWf s.noteMin := .ite h.wf h
theorem MemWf.addAvail {s} (h : MemWf s) {d} : MemWf (s.addAvail d) := h.wf.noteMin
theorem MemWf.addTerm {s} (h : MemWf s) {f d} : MemWf (s.addTerm f d) := h.wf
theorem MemWf.ldrException {s} (h : MemWf s) {tag slot kind sub} : MemWf (s.ldrException tag slot kind sub) :=
  h.wf.wf.wf.cause.trigger
theorem MemWf.reserve {s} (h : MemWf s) {cls energy tag slot} : MemWf (s.reserve cls energy tag slot) :=
  .ite ((MemWf.ite h.wf h).addAvail.addTerm.wf.incSat.ldrException) ((MemWf.ite h.wf h).addAvail.addTerm)
theorem MemWf.reconcile {s} (h : MemWf s) {r e m tag slot} : MemWf (s.reconcile r e m tag slot) :=
  .ite h.addTerm.addTerm.addAvail.wf.incSat.ldrException h.addTerm.addTerm.addAvail

/-! ### The abutment -/

theorem MemWf.latch {s} (h : MemWf s) {src m0 m1} : MemWf (s.latch src m0 m1) :=
  .ite ((MemWf.ite ((MemWf.ite h.wf h).wf) (.ite h.wf h)).notQuiet)
    ((MemWf.ite ((MemWf.ite h.wf h).wf) (.ite h.wf h)).setBit.upd.notQuiet)
theorem MemWf.latchReset {s} (h : MemWf s) : MemWf s.latchReset := h.wf.wf.setBit.notQuiet
theorem MemWf.syncSource {s} (h : MemWf s) : MemWf s.syncSource := by
  unfold State.syncSource
  dsimp only
  split
  · exact h
  · exact (MemWf.ite h.upd.incSat.wf h.upd.incSat).cause.trigger
theorem MemWf.release {s} (h : MemWf s) {v} : MemWf (s.release v).st :=
  .ite_st h.refused (.ite_st h.refused (.ite_st h.refused (.ite_st h.refused h.wf.wf.wf.ok)))
theorem MemWf.abtWrite {s} (h : MemWf s) {src a v} : MemWf (s.abtWrite src a v).st :=
  .ite_st ((MemWf.ite h.notQuiet h).refused) (.ite_st ((MemWf.ite h.notQuiet h).release)
    (.ite_st ((MemWf.ite h.notQuiet h).refused) (.ite_st ((MemWf.ite h.notQuiet h).writeOr.notQuiet.res)
    ((MemWf.ite h.notQuiet h).writeOr))))

/-! ### The Dispatcher -/

theorem MemWf.setSlot {s} (h : MemWf s) {k v} : MemWf (s.setSlot k v) := h.upd
theorem MemWf.setSpan {s} (h : MemWf s) {q v} : MemWf (s.setSpan q v) := h.upd
theorem MemWf.onSpan {s} (h : MemWf s) {q f} : MemWf (s.onSpan q f) := h.setSpan
theorem MemWf.dispRead {s} (h : MemWf s) {off n} : MemWf (s.dispRead off n).2 :=
  match n with
  | 0 => h.snd
  | _ + 1 => by
    unfold State.dispRead
    dsimp only
    split
    · exact h.deckFetch.snd
    · exact h.deckFetch.dispRead.snd
theorem MemWf.dispStatus {s} (h : MemWf s) {off w0 w1} : MemWf (s.dispStatus off w0 w1).2 := h.deckSend.deckSend.snd
theorem MemWf.sendSpanFault {s} (h : MemWf s) {stop th tag slot} : MemWf (s.sendSpanFault stop th tag slot) :=
  h.toPier (fun _ h' => h'.upd)
theorem MemWf.swLost {s} (h : MemWf s) {slot tag} : MemWf (s.swLost slot tag) := h.wf.wf.wf
theorem MemWf.afterStatus {s} (h : MemWf s) {stop k endState ok} : MemWf (s.afterStatus stop k endState ok) :=
  (MemWf.ite (.ite ((MemWf.ite h.raise h).sendSpanFault) (.ite h.raise h))
    ((MemWf.ite ((MemWf.ite h.raise h).sendSpanFault) (.ite h.raise h)).swLost)).setSlot.upd
theorem MemWf.dispEnd {s} (h : MemWf s) {k endState fault} : MemWf (s.dispEnd k endState fault) := h.dispStatus.afterStatus
theorem MemWf.settleDeps {s} (h : MemWf s) {fuel} : MemWf (s.settleDeps fuel) :=
  match fuel with
  | 0 => h
  | _ + 1 => by
    unfold State.settleDeps
    dsimp only
    split
    · exact h
    · exact (MemWf.ite h.dispEnd h.setSlot).settleDeps
theorem MemWf.cancelOrphans {s} (h : MemWf s) {k n} : MemWf (s.cancelOrphans k n) :=
  match n with
  | 0 => h
  | _ + 1 => (MemWf.ite h.dispEnd h).cancelOrphans
theorem MemWf.dropOrphans {s} (h : MemWf s) : MemWf s.dropOrphans := h.cancelOrphans.settleDeps
theorem MemWf.dispRefused {s} (h : MemWf s) {src v reason} : MemWf (s.dispRefused src v reason) :=
  h.refuse.wf.wf.wf.wf.wf.incSat
theorem MemWf.refuseJob {s} (h : MemWf s) {src v reason d} : MemWf (s.refuseJob src v reason d) :=
  .ite ((MemWf.ite h.dispRefused.dispStatus h.dispRefused.dispStatus.swLost).raise)
    (.ite h.dispRefused.dispStatus h.dispRefused.dispStatus.swLost)
theorem MemWf.accept {s} (h : MemWf s) {th d k} : MemWf (s.accept th d k) := h.setSlot.upd.incWrap
theorem MemWf.submitDesc {s} (h : MemWf s) {th v d} : MemWf (s.submitDesc th v d).st := by
  unfold State.submitDesc
  refine MemWf.ite_st ((MemWf.ite h.refuseJob h.dispRefused).res) ?_
  refine MemWf.ite_st h.refuseJob.res ?_
  split
  · exact h.refuseJob.res
  · exact h.accept.ok
theorem MemWf.submit {s} (h : MemWf s) {src v} : MemWf (s.submit src v).st := by
  unfold State.submit
  dsimp only
  split
  · refine MemWf.ite_st h.dispRefused.res ?_
    split
    · exact h.dispRead.dispRefused.res
    · exact h.dispRead.submitDesc
  · exact h.dispRefused.res
theorem MemWf.abortSlot {s} (h : MemWf s) {k} : MemWf (s.abortSlot k) := .ite h.onSpan h.dispEnd
theorem MemWf.abortAll {s} (h : MemWf s) {ks} : MemWf (s.abortAll ks) :=
  match ks with
  | [] => h
  | _ :: _ => (MemWf.ite h.abortSlot h).abortAll
theorem MemWf.abortThese {s} (h : MemWf s) {src v ks} : MemWf (s.abortThese src v ks).st := by
  unfold State.abortThese
  split
  · exact .ite_st h.abortAll.settleDeps.ok h.dispRefused.res
  · exact h.dispRefused.res
theorem MemWf.abortWrite {s} (h : MemWf s) {src v} : MemWf (s.abortWrite src v).st := by
  unfold State.abortWrite
  refine MemWf.ite_st ?_ h.abortThese
  split <;> exact h.dispRefused.res
theorem MemWf.abortRunning {s} (h : MemWf s) : MemWf s.abortRunning := h.abortAll
theorem MemWf.dispResume {s} (h : MemWf s) : MemWf s.dispResume := h.dropOrphans
theorem MemWf.unlessHeld {s} (h : MemWf s) {src held r} (hr : MemWf r.st) : MemWf (s.unlessHeld src held r) := by
  unfold State.unlessHeld
  split
  · exact .ite h hr
  · exact hr

/-! ### Operands of pier instructions -/

theorem MemWf.localWr {s} (h : MemWf s) {p a n v} : MemWf (s.localWr p a n v) := .ite h.spadWr h.mboxWr
theorem MemWf.countSplit {s} (h : MemWf s) {p a n} : MemWf (s.countSplit p a n) := .ite h.incSat h

/-! ### Issue of an instruction -/

theorem MemWf.takeFp {s} (h : MemWf s) {th epc} : MemWf (s.takeFp th epc) := h.takeException
theorem MemWf.takeCause {s} (h : MemWf s) {th c} : MemWf (s.takeCause th c) := .ite h.takeFp h.takeException
theorem MemWf.takeDeferred {s} (h : MemWf s) {th} : MemWf (s.takeDeferred th) := by
  unfold State.takeDeferred
  dsimp only
  split
  · exact h
  · exact .ite h.takeFp h.upd.takeException
theorem MemWf.setEvPending {s} (h : MemWf s) {p e v} : MemWf (s.setEvPending p e v) := .ite h.setBit h.setBit
theorem MemWf.clearPending {s} (h : MemWf s) {th c} : MemWf (s.clearPending th c) :=
  .ite h.setBit (.ite h.setBit (.ite h.setBit (.ite h.setBit (.ite h.setBit (.ite h.setEvPending (.ite h.upd h))))))
theorem MemWf.takeAsync {s} (h : MemWf s) {th c} : MemWf (s.takeAsync th c) := .ite h.takeFp h.clearPending.takeException
theorem MemWf.countRetired {s} (h : MemWf s) {p cycles} : MemWf (s.countRetired p cycles) := h.incWrap.incWrap
theorem MemWf.retire {s} (h : MemWf s) {th old npc cycles} : MemWf (s.retire th old npc cycles) := h.upd.countRetired
theorem MemWf.headCause {s t} (h : MemWf s) {th settle} (ht : s.headCause th settle = some t) : MemWf t := by
  unfold State.headCause at ht
  dsimp only at ht
  split at ht
  · exact Option.some.inj ht ▸ h.takeFp
  · split at ht
    · cases ht
    · exact Option.some.inj ht ▸ h.takeDeferred
theorem MemWf.conclude {s} (h : MemWf s) {th o} (ho : KeepsOut o) : MemWf (s.conclude th o) := by
  rcases s.conclude_cases th o with ⟨-, e⟩ | ⟨c, -, e⟩ | ⟨t, c, rfl, e⟩ | ⟨c, -, e⟩ |
    ⟨-, ⟨t, npc, n, rfl, e⟩ | ⟨t, npc, n, rfl, e⟩ |
    ⟨t, npc, rfl, e⟩ | ⟨t, n, rfl, e⟩⟩ <;> rw [e]
  · exact h
  · exact h.takeCause
  · exact MemWf.takeCause ho
  · exact h.takeAsync
  · exact (MemWf.onThr ho).retire
  · exact (MemWf.onThr ho).retire
  · exact MemWf.retire ho
  · exact MemWf.incWrap ho
theorem MemWf.issue {s} (h : MemWf s) {th rp settle body} (hbody : ∀ u, MemWf u → KeepsOut (body u)) :
    MemWf (s.issue th rp settle body) := by
  have hg : MemWf (s.onThr th Thread.gretSeen) := h.onThr
  rcases s.issue_cases th rp settle body with ⟨-, e⟩ | ⟨-, ⟨t, ht, e⟩ | ⟨-, e⟩⟩ <;> rw [e]
  · exact h
  · exact hg.headCause ht
  · exact hg.conclude (MemWf.ite_out (hbody _ hg) trivial)
theorem MemWf.issueReg {s} (h : MemWf s) {th rp f} : MemWf (s.issueReg th rp f) := h.issue (fun _ h' => h'.upd)
theorem MemWf.illegal {s} (_ : MemWf s) {w} : KeepsOut (illegal w) := trivial
theorem MemWf.iwrite8 {s} (h : MemWf s) {p a v} : MemWf (s.iwrite8 p a v) :=
  ⟨wf_setBytes _ _ _ _ h.ispace, h.spad, h.mbox, h.deck, h.ecc⟩
theorem MemWf.finishAccess {s} (h : MemWf s) {th v} : MemWf (s.finishAccess th v) := by
  unfold State.finishAccess
  dsimp only
  split
  · exact h
  · refine MemWf.retire ?_
    refine MemWf.upd ?_
    split
    · exact h.iwrite8
    · exact h
theorem MemWf.failAccess {s} (h : MemWf s) {th e} : MemWf (s.failAccess th e) := by
  unfold State.failAccess
  dsimp only
  split
  · exact h
  · exact .ite h.upd.takeCause h.upd.takeDeferred

/-! ### A pier's own registers -/

theorem MemWf.wakeWith {s} (h : MemWf s) {th e} : MemWf (s.wakeWith th e) := h.setEvPending.upd.retire
theorem MemWf.tryWake {s} (h : MemWf s) {th} : MemWf (s.tryWake th) := by
  unfold State.tryWake
  refine MemWf.ite ?_ h
  split
  · exact h.wakeWith
  · exact h
theorem MemWf.tryWakes {s} (h : MemWf s) {p u n} : MemWf (s.tryWakes p u n) :=
  match n with
  | 0 => h
  | _ + 1 => h.tryWake.tryWakes
theorem MemWf.acceptEvent {s} (h : MemWf s) {p e} : MemWf (s.acceptEvent p e) := .ite h.incSat h.setEvPending.tryWakes
theorem MemWf.startThread {s} (h : MemWf s) {th} : MemWf (s.startThread th) := h.upd
theorem MemWf.requestStop {s} (h : MemWf s) {th} : MemWf (s.requestStop th) := h.upd
theorem MemWf.writeRun {s} (h : MemWf s) {th b} : MemWf (s.writeRun th b) := .ite (.ite h.startThread h) h.requestStop
theorem MemWf.writeRuns {s} (h : MemWf s) {p u n v} : MemWf (s.writeRuns p u n v) :=
  match n with
  | 0 => h
  | _ + 1 => h.writeRun.writeRuns
theorem MemWf.stopThread {s} (h : MemWf s) {th} : MemWf (s.stopThread th) := .ite h.setThr.wf h
theorem MemWf.writeThrun {s} (h : MemWf s) {p v} : MemWf (s.writeThrun p v).st := h.writeRuns.ok
theorem MemWf.writeThpc {s} (h : MemWf s) {th v} : MemWf (s.writeThpc th v).st := .ite_st h.writeReg.ok h.refused
theorem MemWf.writeEvmask {s} (h : MemWf s) {th hi v} : MemWf (s.writeEvmask th hi v).st := h.writeReg.tryWake.ok
theorem MemWf.pierWrite {s} (h : MemWf s) {p off v} : MemWf (s.pierWrite p off v).st :=
  .ite_st h.writeThrun (.ite_st h.writeThpc (.ite_st h.writeEvmask (.ite_st h.writeEvmask h.writeOr)))
theorem MemWf.tblDeck {s} (h : MemWf s) {p a n slots} : MemWf (s.tblDeck p a n slots).st := by
  unfold State.tblDeck
  have hr : MemWf (s.deckFetch p 0 (a - deckBase) n).2 := h.deckFetch
  split
  · exact h
  · generalize s.deckFetch p 0 (a - deckBase) n = r at hr ⊢
    obtain ⟨⟨_ | v, e⟩, u⟩ := r
    · exact hr
    · exact hr
theorem MemWf.tblRead {s} (h : MemWf s) {th a n slots} : MemWf (s.tblRead th a n slots).st := by
  unfold State.tblRead
  dsimp only
  split
  · exact h
  · split
    · exact h.tblDeck
    · exact h
theorem MemWf.pair {r : TRead} (h : MemWf r.st) {th a b n} : MemWf (r.pair th a b n).2.st := by
  unfold TRead.pair
  dsimp only
  split
  · split
    · exact h
    · exact h.tblDeck
  · split
    · exact h.tblRead
    · dsimp only
      split <;> exact h.tblRead.tblRead
theorem MemWf.tblSearch {s} (h : MemWf s) {th d x fuel lo hi slots} : MemWf (s.tblSearch th d x fuel lo hi slots).st := by
  induction fuel generalizing s lo hi slots with
  | zero => exact h
  | succ fuel ih =>
    unfold State.tblSearch
    split
    · exact h
    · dsimp only
      split
      · exact h.tblRead
      · split <;> exact ih h.tblRead
theorem MemWf.tblIndex {s} (h : MemWf s) {th d x slots} : MemWf (s.tblIndex th d x slots).st := by
  unfold State.tblIndex
  split
  · exact h
  · exact h
  · split
    · dsimp only
      split <;> exact h.tblSearch
    · exact h
theorem MemWf.tblInterp {s} (h : MemWf s) {th c d x slots} : MemWf (s.tblInterp th c d x slots).st := by
  unfold State.tblInterp
  have hix : MemWf (s.tblIndex th d x slots).st := h.tblIndex
  generalize s.tblIndex th d x slots = ix at hix ⊢
  have hxs : MemWf (if d.xmode then ix.pair th (d.xAt ix.v) (d.xAt (ix.v + 1)) d.esize else (ix, ix)).2.st := by
    split
    · exact hix.pair
    · exact hix
  dsimp only
  generalize (if d.xmode then ix.pair th (d.xAt ix.v) (d.xAt (ix.v + 1)) d.esize else (ix, ix)) = xs at hxs ⊢
  have hys : MemWf (xs.2.pair th (d.yAt ix.v) (d.yAt (ix.v + 1)) d.esize).2.st := hxs.pair
  generalize xs.2.pair th (d.yAt ix.v) (d.yAt (ix.v + 1)) d.esize = ys at hys ⊢
  repeat' split
  all_goals first | exact hix | exact hxs | exact hys | exact hys.takeFree
theorem MemWf.tblOne {s} (h : MemWf s) {th c d i slots} : MemWf (s.tblOne th c d i slots).st := h.tblRead
theorem MemWf.tblLook {s} (h : MemWf s) {th c d x0 slots} : MemWf (s.tblLook th c d x0 slots).st := by
  unfold State.tblLook
  split
  · exact h
  · dsimp only
    split
    · exact h.tblOne
    · exact h.tblInterp
    · split
      · exact h.tblOne
      · split
        · exact h.tblInterp
        · exact h
/-- The descriptor's checks after it is found latched or read: the state is that of the read, with a latch that may be written.
-/
theorem MemWf.tblDesc {s} (h : MemWf s) {th gt hf} : MemWf (s.tblDesc th gt hf).1.st := by
  unfold State.tblDesc
  extract_lets t z hit r d
  have hr : MemWf r.st := by
    unfold r
    cases hit with
    | some _ => exact h
    | none => exact h.tblRead
  clear_value r d
  split
  · exact h
  · split
    · exact hr
    · split
      · exact hr
      · split
        · exact hr
        · dsimp only
          exact hr.onThr

/-! ### Table look-up -/

theorem MemWf.out {s} (h : MemWf s) {c} : KeepsOut (TRead.out s c) := MemWf.ite_out trivial h
theorem MemWf.lookup {s} (h : MemWf s) {th rt hf x put} : MemWf (s.lookup th rt hf x put) := by
  unfold State.lookup
  refine h.issue fun u hu => ?_
  extract_lets t dd r
  have hd : MemWf dd.1.st := hu.tblDesc
  have hl : MemWf r.st := hd.tblLook
  clear_value r dd
  split
  · exact hd.out
  · split
    · exact hl.out
    · show MemWf _
      exact hl.onThr

/-! ### Scalar floating point -/

theorem MemWf.fp {s} (h : MemWf s) {th rp n f} : MemWf (s.fp th rp n f) := h.issue (fun _ h' => h'.upd)
theorem MemWf.fpArith {s} (h : MemWf s) {th z rd rs rt rp n f} : MemWf (s.fpArith th z rd rs rt rp n f) := h.fp
theorem MemWf.fpUnary {s} (h : MemWf s) {th z rd rs rp n f} : MemWf (s.fpUnary th z rd rs rp n f) := h.fp
theorem MemWf.fpFma {s} (h : MemWf s) {th z rd rs rt np nd} : MemWf (s.fpFma th z rd rs rt np nd) := h.fp
theorem MemWf.fpCmp {s} (h : MemWf s) {th z rd rs rt k} : MemWf (s.fpCmp th z rd rs rt k) := h.fp
theorem MemWf.fpToInt {s} (h : MemWf s) {th z rd rs toZero lo hi} : MemWf (s.fpToInt th z rd rs toZero lo hi) := h.fp
theorem MemWf.fpOfInt {s} (h : MemWf s) {th z rd rs f} : MemWf (s.fpOfInt th z rd rs f) := h.fp

/-! ### Short vectors -/

theorem MemWf.vec {s} (h : MemWf s) {th ok w f} : MemWf (s.vec th ok w f) := h.issue (fun _ h' => MemWf.ite_out trivial h'.upd)
theorem MemWf.vecOp {s} (h : MemWf s) {th op ty ok wd ws wt ff fi} : MemWf (s.vecOp th op ty ok wd ws wt ff fi) := h.vec
theorem MemWf.vecCmp {s} (h : MemWf s) {th op ty wd ws wt k ki} : MemWf (s.vecCmp th op ty wd ws wt k ki) := h.vecOp
theorem MemWf.vecBits {s} (h : MemWf s) {th op ty wd ws wt f} : MemWf (s.vecBits th op ty wd ws wt f) := h.vec
theorem MemWf.vecCvt {s} (h : MemWf s) {th fn wd ws wt wOut src f} : MemWf (s.vecCvt th fn wd ws wt wOut src f) := h.vec
theorem MemWf.scatter {s} (h : MemWf s) {p t ty wd ws rt js} : MemWf (s.scatter p t ty wd ws rt js) :=
  match js with
  | [] => h
  | _ :: _ => h.localWr.scatter

/-! ### The Spans -/

theorem MemWf.spanRead {s} (h : MemWf s) {q off n d b} : MemWf (s.spanRead q off n d b).2 := by
  unfold State.spanRead
  dsimp only
  refine MemWf.ite_snd ?_ ?_
  · split <;> exact h.deckRead.snd
  · split <;> exact h.deckFetch.snd
theorem MemWf.spanWrite {s} (h : MemWf s) {q off n v} : MemWf (s.spanWrite q off n v).2 :=
  .ite_snd h.deckWrite.snd h.deckSend.snd
theorem MemWf.spanStore {s} (h : MemWf s) {q w ps d b} : MemWf (s.spanStore q w ps d b).2 :=
  .ite_snd h.deckWriteMany.snd h.deckSendMany.snd
theorem MemWf.spanWords {s} (h : MemWf s) {q off n} : MemWf (s.spanWords q off n).2 :=
  match n with
  | 0 => h.snd
  | _ + 1 => .ite_snd h.spanRead.snd h.spanRead.spanWords.snd
theorem MemWf.setJob {s} (h : MemWf s) {q j extra} : MemWf (s.setJob q j extra) := h.setSpan.wf.wf
theorem MemWf.startJob {s} (h : MemWf s) {q k} : MemWf (s.startJob q k) :=
  (MemWf.ite_snd h.wf.wf.wf.wf.snd h.wf.wf.wf.wf.spanWords).setJob
theorem MemWf.spanFetch {s} (h : MemWf s) {q prog m fuel} : MemWf (s.spanFetch q prog m fuel).2 :=
  match fuel with
  | 0 => h.snd
  | _ + 1 => .ite_snd h.snd (.ite_snd h.spanRead.snd (.ite_snd h.spanRead.spanFetch.snd h.spanRead.snd))
theorem MemWf.spanArray {s} (h : MemWf s) {q a n sz} : MemWf (s.spanArray q a n sz).2 := by
  unfold State.spanArray
  exact h.spanWords.snd
theorem MemWf.xluLoad {s} (h : MemWf s) {q a i} : MemWf (s.xluLoad q a i).2 := by
  unfold State.xluLoad
  split
  · exact h
  · have hr : MemWf (s.spanWords q (a.toNat - deckWindow) 4).2 := h.spanWords
    generalize s.spanWords q (a.toNat - deckWindow) 4 = r at hr ⊢
    simp only
    generalize TblDesc.parse a.toNat _ = d
    have hx (o n e : Nat) : MemWf (if d.xmode then r.2.spanArray q o n e else (([], 0), r.2)).2 :=
      .ite_snd hr.spanArray hr.snd
    refine .ite_snd hr.snd (.ite_snd hr.snd ?_)
    exact .ite_snd (hx ..).snd (.ite_snd (hx ..).spanArray.snd (hx ..).spanArray.snd)
theorem MemWf.startXlu {s} (h : MemWf s) {q j ws} : MemWf (s.startXlu q j ws) := by
  unfold State.startXlu
  dsimp only
  split
  · exact h.setJob
  · refine MemWf.ite (.ite h.setJob (.ite h.setJob h.setJob)) ?_
    refine MemWf.ite h.incSat ?_
    refine MemWf.ite h.xluLoad.setJob ?_
    split
    · exact h.xluLoad.setJob
    · exact h.xluLoad.wf.wf.incSat.setJob
theorem MemWf.startChecked {s} (h : MemWf s) {q j ws} : MemWf (s.startChecked q j ws) :=
  .ite h.setJob (.ite h.setJob (.ite h.incSat h.startXlu))
theorem MemWf.startFetched {s} (h : MemWf s) {q j} : MemWf (s.startFetched q j) :=
  .ite h.spanFetch.setJob (.ite h h.spanFetch.startChecked)
theorem MemWf.noteRemote {s} (h : MemWf s) {q off w} : MemWf (s.noteRemote q off w) := .ite h.incSat h
theorem MemWf.spanOp {s} (h : MemWf s) {q opc f} : MemWf (s.spanOp q opc f) := by
  unfold State.spanOp
  dsimp only
  split
  · exact h
  · split
    · exact h
    · exact h.setJob
theorem MemWf.spanRed {s} (h : MemWf s) {q opc} : MemWf (s.spanRed q opc) := by
  unfold State.spanRed
  dsimp only
  split
  · exact h
  · split
    · exact h
    · refine MemWf.ite ?_ h.setJob
      refine MemWf.ite h ?_
      split
      · exact h.setJob
      · exact .ite h h.setJob
theorem MemWf.spanStatus {s} (h : MemWf s) {q off w} : MemWf (s.spanStatus q off w).2 :=
  .ite_snd h.spanWrite.snd h.spanWrite.spanWrite.snd
theorem MemWf.spanEnded {s} (h : MemWf s) {q st w0} : MemWf (s.spanEnded q st w0) :=
  (MemWf.ite h.wf.incWrap h.wf.incSat).wf.setSpan
theorem MemWf.quiesceNow {s} (h : MemWf s) {isl} : MemWf (s.quiesceNow isl) := .ite h.setShell h
theorem MemWf.writeSpanCtl {s} (h : MemWf s) {q v} : MemWf (s.writeSpanCtl q v).st := .ite_st h.refused h.writeReg.ok

/-! ### The central DMA -/

theorem MemWf.setDma {s} (h : MemWf s) {c v} : MemWf (s.setDma c v) := h.upd
theorem MemWf.onDma {s} (h : MemWf s) {c f} : MemWf (s.onDma c f) := h.setDma
theorem MemWf.setCvp {s} (h : MemWf s) {p v} : MemWf (s.setCvp p v) := h.upd
theorem MemWf.onCvp {s} (h : MemWf s) {p f} : MemWf (s.onCvp p f) := h.setCvp
theorem MemWf.issueWrite {s} (h : MemWf s) : MemWf s.issueWrite.2 := by
  unfold State.issueWrite
  dsimp only
  split
  · exact h.snd
  · split
    · exact h.snd
    · exact h.onDma.upd.send.snd
theorem MemWf.issueRead {s} (h : MemWf s) : MemWf s.issueRead.2 := by
  unfold State.issueRead
  dsimp only
  split
  · exact h.snd
  · split
    · exact h.snd
    · exact h.onDma.upd.send.snd
theorem MemWf.dmaEngine {s} (h : MemWf s) {fuel} : MemWf (s.dmaEngine fuel) :=
  match fuel with
  | 0 => h
  | _ + 1 => .ite h.issueWrite.issueRead.dmaEngine h
theorem MemWf.dmaServe {s} (h : MemWf s) : MemWf s.dmaServe := h.dmaEngine
theorem MemWf.dmaEnd {s} (h : MemWf s) {c fin err} : MemWf (s.dmaEnd c fin err) :=
  .ite h.wf.wf.wf.setDma.setBit.raiseIf h.wf.wf.wf.setDma
theorem MemWf.fetchDesc {s} (h : MemWf s) {c a} : MemWf (s.fetchDesc c a) := .ite h.onDma.onDma h.onDma.onDma.send
theorem MemWf.beginDesc {s} (h : MemWf s) {c d} : MemWf (s.beginDesc c d) := .ite h.wf.wf.onDma.fetchDesc h.wf.wf.onDma
theorem MemWf.chainOn {s} (h : MemWf s) {c} : MemWf (s.chainOn c) := by
  unfold State.chainOn
  split
  · exact h.beginDesc
  · exact h.dmaEnd
  · exact h.onDma
theorem MemWf.descDone {s} (h : MemWf s) {c d} : MemWf (s.descDone c d) :=
  .ite ((MemWf.ite h.incWrap.raise h.incWrap).chainOn) ((MemWf.ite h.incWrap.raise h.incWrap).dmaEnd)
theorem MemWf.dmaSettle {s} (h : MemWf s) {c fuel} : MemWf (s.dmaSettle c fuel) :=
  match fuel with
  | 0 => h
  | _ + 1 => by
    unfold State.dmaSettle
    refine MemWf.ite h ?_
    refine MemWf.ite (.ite h.dmaEnd h) ?_
    split
    · exact h
    · exact .ite h.descDone.dmaSettle h
theorem MemWf.dmaDrive {s} (h : MemWf s) {c} : MemWf (s.dmaDrive c) := h.dmaServe.dmaSettle.dmaServe
theorem MemWf.notePrefix {s} (h : MemWf s) {c} : MemWf (s.notePrefix c) := h.wf
theorem MemWf.dmaFetched {s} (h : MemWf s) {c ep res} : MemWf (s.dmaFetched c ep res) :=
  .ite h (.ite h.onDma.chainOn.dmaDrive h.onDma)
theorem MemWf.dmaGot {s} (h : MemWf s) {c ep off n v} : MemWf (s.dmaGot c ep off n v) := .ite h h.onDma.dmaDrive
theorem MemWf.dmaAcked {s} (h : MemWf s) {c ep} : MemWf (s.dmaAcked c ep) := .ite h h.notePrefix.dmaDrive
theorem MemWf.dmaReadErr {s} (h : MemWf s) {c ep e} : MemWf (s.dmaReadErr c ep e) := .ite h h.onDma.dmaDrive
theorem MemWf.dmaWriteErr {s} (h : MemWf s) {c ep off e} : MemWf (s.dmaWriteErr c ep off e) :=
  .ite h h.onDma.notePrefix.dmaDrive
theorem MemWf.dmaStart {s} (h : MemWf s) {c} : MemWf (s.dmaStart c) := .ite h.wf.setDma.fetchDesc h.wf.setDma.fetchDesc.chainOn
theorem MemWf.writeDmaCtl {s} (h : MemWf s) {c v} : MemWf (s.writeDmaCtl c v).st :=
  .ite_st h.writeReg.refused (.ite_st h.writeReg.dmaStart.ok (.ite_st h.writeReg.wf.ok h.writeReg.ok))
theorem MemWf.writeDmaDesc {s} (h : MemWf s) {c v} : MemWf (s.writeDmaDesc c v).st := .ite_st h.refused h.writeReg.ok

/-! ### Converter ports -/

theorem MemWf.portEvent {s} (h : MemWf s) : MemWf s.portEvent := h.raiseIf
theorem MemWf.endCal {s} (h : MemWf s) {p} : MemWf (s.endCal p) := h.wf.wf.wf.upd.raiseIf
theorem MemWf.abortCal {s} (h : MemWf s) {p} : MemWf (s.abortCal p) := .ite h.wf.endCal h
theorem MemWf.stopPort {s} (h : MemWf s) {p cause} : MemWf (s.stopPort p cause) :=
  (MemWf.ite ((MemWf.ite h.wf.wf.setCvp ((MemWf.ite h.wf.wf h.wf.wf.wf).setCvp)).abortCal)
    ((MemWf.ite h.wf.wf.setCvp ((MemWf.ite h.wf.wf h.wf.wf.wf).setCvp)).abortCal.portEvent)).dmaServe
theorem MemWf.startPort {s} (h : MemWf s) {p} : MemWf (s.startPort p) := by
  unfold State.startPort
  exact h.wf.onCvp
theorem MemWf.startPorts {s} (h : MemWf s) {ps} : MemWf (s.startPorts ps) :=
  match ps with
  | [] => h
  | _ :: _ => h.startPort.startPorts
theorem MemWf.writeStart {s} (h : MemWf s) {m} : MemWf (s.writeStart m).st := by
  unfold State.writeStart
  split
  · exact h.refused
  · exact h.startPorts.dmaServe.ok
theorem MemWf.stopPorts {s} (h : MemWf s) {ps} : MemWf (s.stopPorts ps) :=
  match ps with
  | [] => h
  | _ :: _ => (MemWf.ite h.onCvp h).stopPorts
theorem MemWf.writeStop {s} (h : MemWf s) {m} : MemWf (s.writeStop m).st := .ite_st h.stopPorts.refused h.stopPorts.ok
theorem MemWf.writeCvpStart {s} (h : MemWf s) {v} : MemWf (s.writeCvpStart v).st :=
  .ite_st h.writeStart.stopPorts.refused h.writeStart.stopPorts.res
theorem MemWf.stopAllPorts {s} (h : MemWf s) {p n} : MemWf (s.stopAllPorts p n) :=
  match n with
  | 0 => h
  | _ + 1 => (MemWf.ite h.stopPort h).stopAllPorts
theorem MemWf.cvpClockFault {s} (h : MemWf s) : MemWf s.cvpClockFault := .ite h.stopAllPorts.wf h
theorem MemWf.calFrame {s} (h : MemWf s) {p vs} : MemWf (s.calFrame p vs) := by
  unfold State.calFrame
  split
  · exact h
  · exact .ite h.upd h
theorem MemWf.calBad {s} (h : MemWf s) {p} : MemWf (s.calBad p) := by
  unfold State.calBad
  split
  · exact h
  · exact .ite h.upd h
theorem MemWf.frameError {s} (h : MemWf s) {p} : MemWf (s.frameError p) := h.calBad.incSat.wf.portEvent
theorem MemWf.takeFrame {s} (h : MemWf s) {p vs} : MemWf (s.takeFrame p vs) := .ite h.setCvp.incWrap h.incSat.wf.portEvent
theorem MemWf.frameEnd {s} (h : MemWf s) {p period} : MemWf (s.frameEnd p period) :=
  .ite h.onCvp.stopPort (.ite h.onCvp.stopPort h.onCvp.dmaServe)
theorem MemWf.sendZeros {s} (h : MemWf s) {p} : MemWf (s.sendZeros p) := h.onCvp
theorem MemWf.giveFrame {s} (h : MemWf s) {p} : MemWf (s.giveFrame p) := .ite h.setCvp.incWrap h.sendZeros.incSat.wf.portEvent
theorem MemWf.writeCal {s} (h : MemWf s) {v} : MemWf (s.writeCal v).st :=
  .ite_st h.writeReg.ok (.ite_st h.writeReg.refused h.writeReg.setReg.wf.wf.upd.ok)
theorem MemWf.calReport {s} (h : MemWf s) {k i} : MemWf (s.calReport k i) := h.wf.wf.wf
theorem MemWf.calTake {s} (h : MemWf s) {k slots} : MemWf (s.calTake k slots) := by
  induction slots generalizing s with
  | nil => exact h
  | cons i t ih => unfold State.calTake; exact ih h.wf
theorem MemWf.calDecide {s} (h : MemWf s) {k} : MemWf (s.calDecide k) := by
  unfold State.calDecide
  dsimp only
  split
  · exact h.wf.wf.wf.calReport
  · exact h.wf.wf.calReport.calTake
theorem MemWf.writeCvpCfg {s} (h : MemWf s) {p v} : MemWf (s.writeCvpCfg p v).st := .ite_st h.refused h.writeReg.ok
theorem MemWf.writeOfs {s} (h : MemWf s) {p i v} : MemWf (s.writeOfs p i v).st := .ite_st h.refused h.writeReg.ok
theorem MemWf.cvpWrite {s} (h : MemWf s) {src a v} : MemWf (s.cvpWrite src a v).st :=
  .ite_st h.refused (.ite_st h.writeCvpStart (.ite_st h.writeCal (.ite_st h.writeReg.ok
    (.ite_st h.writeCvpCfg (.ite_st h.writeOfs h.writeReg.ok)))))
theorem MemWf.resetCvp {s} (h : MemWf s) : MemWf s.resetCvp := h.upd
theorem MemWf.toCvp {s} (h : MemWf s) {src f} (hf : ∀ u, MemWf u → MemWf (f u).st) : MemWf (s.toCvp src f) :=
  .ite h (.ite h.refused (hf _ h))
theorem MemWf.calAccumulate {s} (h : MemWf s) : MemWf s.calAccumulate := by
  unfold State.calAccumulate
  split
  · exact h
  · exact h.upd.wf

/-! ### The PLLs -/

theorem MemWf.clkEvent {s} (h : MemWf s) : MemWf s.clkEvent := h.raiseIf
theorem MemWf.openWindow {s} (h : MemWf s) {p} : MemWf (s.openWindow p) := h.upd
theorem MemWf.ageMemo {s} (h : MemWf s) {t} : MemWf (s.ageMemo t) := h.upd
theorem MemWf.judgeSpread {s} (h : MemWf s) : MemWf s.judgeSpread := h.wf.wf
theorem MemWf.applySpread {s} (h : MemWf s) : MemWf s.applySpread := h.upd.judgeSpread
theorem MemWf.spPhase {s} (h : MemWf s) {ph} : MemWf (s.spPhase ph) := h.upd.openWindow
theorem MemWf.startSearch {s} (h : MemWf s) : MemWf s.startSearch := h.incWrap.spPhase
theorem MemWf.onBypass {s} (h : MemWf s) : MemWf s.onBypass := h.wf
theorem MemWf.startHop {s} (h : MemWf s) {t} : MemWf (s.startHop t) := by
  unfold State.startHop
  dsimp only
  split
  · exact h.incWrap.onBypass.upd.wf.incWrap.wf.spPhase
  · exact h.incWrap.onBypass.upd.wf.startSearch
theorem MemWf.startRelock {s} (h : MemWf s) : MemWf s.startRelock := h.wf.incSat.clkEvent.onBypass.wf.upd.startSearch
theorem MemWf.failHop {s} (h : MemWf s) : MemWf s.failHop.2 := (MemWf.ite h.upd.wf.wf.wf h.upd.wf.wf).clkEvent.snd
theorem MemWf.endLock {s} (h : MemWf s) : MemWf s.endLock.2 :=
  .ite_snd ((MemWf.ite h h.upd).wf.wf.upd.applySpread.wf.clkEvent.snd) ((MemWf.ite h h.upd).wf.wf.upd.applySpread.snd)
theorem MemWf.adjacent {s} (h : MemWf s) {count nominal} : MemWf (s.adjacent count nominal).2 := .ite_snd h.takeFree.snd h.snd
theorem MemWf.spllWindow {s} (h : MemWf s) {count} : MemWf (s.spllWindow count).2 := by
  unfold State.spllWindow
  dsimp only
  split
  · exact .ite_snd h.startRelock.snd h.openWindow.snd
  · exact h.snd
  · exact h.snd
  · exact .ite_snd (.ite_snd h.spPhase.snd h.spPhase.endLock) h.spPhase.incWrap.upd.startSearch.snd
  · exact .ite_snd h.spPhase.snd (.ite_snd h.spPhase.endLock (.ite_snd h.spPhase.failHop h.adjacent.wf.spPhase.snd))
theorem MemWf.bandStep {s} (h : MemWf s) {count} : MemWf (s.bandStep count) := by
  unfold State.bandStep
  dsimp only
  split
  · exact .ite ((MemWf.ite_snd h.takeFree.snd h.snd).wf.spPhase) ((MemWf.ite_snd h.takeFree.snd h.snd).wf.spPhase)
  · exact h
theorem MemWf.takeHop {s} (h : MemWf s) {t} : MemWf (s.takeHop t) := .ite h.upd.wf h.startHop
theorem MemWf.requestHop {s} (h : MemWf s) {t} : MemWf (s.requestHop t).2 := .ite_snd h.takeHop.snd h.refuse.snd
theorem MemWf.writeHop {s} (h : MemWf s) {src v} : MemWf (s.writeHop src v).st :=
  .ite_st h.refused (.ite_st h.refused (.ite_st h.takeHop.ok h.refused))
theorem MemWf.startQueued {s} (h : MemWf s) : MemWf s.startQueued := by
  unfold State.startQueued
  split
  · exact .ite h h.upd.wf.startHop
  · exact h
theorem MemWf.startUp {s} (h : MemWf s) : MemWf s.startUp := .ite h.upd.startSearch h
theorem MemWf.refLost {s} (h : MemWf s) : MemWf s.refLost.2 :=
  .ite_snd h.wf.wf.incSat.clkEvent.upd.upd.snd (.ite_snd h.wf.wf.incSat.clkEvent.upd.takeFree.upd.failHop
    h.wf.wf.incSat.clkEvent.upd.snd)
theorem MemWf.refWindow {s} (h : MemWf s) {count} : MemWf (s.refWindow count).2 :=
  .ite_snd (.ite_snd h.wf.snd h.wf.refLost) (.ite_snd h.wf.upd.snd
    (.ite_snd h.wf.upd.snd h.wf.upd.wf.openWindow.openWindow.openWindow.startUp.snd))
theorem MemWf.ioWindow {s} (h : MemWf s) {count} : MemWf (s.ioWindow count) :=
  .ite (.ite h.openWindow h.openWindow.wf.wf.clkEvent.upd) (.ite h.openWindow.upd
    (.ite h.openWindow.upd h.openWindow.wf.upd.startUp))
theorem MemWf.cpWindow {s} (h : MemWf s) {count} : MemWf (s.cpWindow count) :=
  .ite h.openWindow (.ite (.ite h.openWindow h.openWindow.wf.wf.clkEvent.upd.cvpClockFault)
    (.ite h.openWindow.upd (.ite h.openWindow.upd h.openWindow.wf.upd)))

/-! ### Load rating -/

theorem MemWf.ldrEvent {s} (h : MemWf s) : MemWf s.ldrEvent := h.raiseIf
theorem MemWf.voutCommand {s} (h : MemWf s) {mv b} : MemWf (s.voutCommand mv b) := h.upd
theorem MemWf.ldrHop {s} (h : MemWf s) {t} : MemWf (s.ldrHop t).2 := .ite_snd h.refuse.snd h.requestHop
theorem MemWf.beginStep {s} (h : MemWf s) {a b} : MemWf (s.beginStep a b) := .ite (.ite h.ldrHop.upd h.ldrHop) h.voutCommand.upd
theorem MemWf.stepVout {s} (h : MemWf s) {mv} : MemWf (s.stepVout mv) := by
  unfold State.stepVout
  dsimp only
  split
  · exact h
  · exact .ite h h.ldrHop.upd
theorem MemWf.stepHopEnd {s} (h : MemWf s) {ok} : MemWf (s.stepHopEnd ok) := by
  unfold State.stepHopEnd
  dsimp only
  split
  · exact h
  · exact .ite h (.ite h.upd (.ite ((MemWf.ite h.upd h.upd.voutCommand).incWrap.ldrEvent) h.upd.incWrap.ldrEvent))
theorem MemWf.setKey {s} (h : MemWf s) {k} : MemWf (s.setKey k) := h.upd
theorem MemWf.keyHop {s} (h : MemWf s) {thenVolt} : MemWf (s.keyHop thenVolt) := h.requestHop.setKey
theorem MemWf.keyBegin {s} (h : MemWf s) : MemWf s.keyBegin :=
  .ite h.setKey (.ite h.keyHop (.ite h.voutCommand.setKey h.voutCommand.setKey))
theorem MemWf.keyHopEnd {s} (h : MemWf s) {ok} : MemWf (s.keyHopEnd ok) := by
  unfold State.keyHopEnd
  split
  · exact h.keyBegin
  · exact .ite h.voutCommand.setKey h.setKey
  · exact h
theorem MemWf.keyVout {s} (h : MemWf s) {mv} : MemWf (s.keyVout mv) := .ite h.keyHop h
theorem MemWf.hopEnded {s} (h : MemWf s) {e} : MemWf (s.hopEnded e) := by
  unfold State.hopEnded
  split
  · exact h
  · exact h.stepHopEnd.keyHopEnd
  · exact h.stepHopEnd.keyHopEnd
  · exact h.keyHopEnd
theorem MemWf.putReadings {s} (h : MemWf s) {rs i} : MemWf (s.putReadings rs i) :=
  match rs with
  | [] => h
  | _ :: _ => by
    unfold State.putReadings
    refine MemWf.putReadings ?_
    split
    · exact h.wf.wf
    · exact h.wf
theorem MemWf.trip {s} (h : MemWf s) : MemWf s.trip := h.wf.notQuiet.wf.cause.abortRunning.wf.trigger
theorem MemWf.memoReading {s} (h : MemWf s) {r} : MemWf (s.memoReading r) := by
  unfold State.memoReading
  split
  · exact h.ageMemo
  · exact h.upd
theorem MemWf.thermalSample {s} (h : MemWf s) {rs} : MemWf (s.thermalSample rs) := by
  unfold State.thermalSample
  dsimp only
  refine MemWf.ite ?_ ?_
  · refine MemWf.trip ?_
    split
    · exact h.putReadings.memoReading.upd.wf
    · exact (MemWf.ite ((MemWf.ite h.putReadings.memoReading.upd.wf.wf.wf.wf h.putReadings.memoReading.upd.wf.wf.wf).upd)
        (.ite h.putReadings.memoReading.upd.wf.wf.wf.wf h.putReadings.memoReading.upd.wf.wf.wf)).wf
  · split
    · exact h.putReadings.memoReading.upd.wf
    · exact (MemWf.ite ((MemWf.ite h.putReadings.memoReading.upd.wf.wf.wf.wf h.putReadings.memoReading.upd.wf.wf.wf).upd)
        (.ite h.putReadings.memoReading.upd.wf.wf.wf.wf h.putReadings.memoReading.upd.wf.wf.wf)).wf
theorem MemWf.putReading {s} (h : MemWf s) {f v} : MemWf (s.putReading f v) := .ite h.wf h.takeFree.wf
theorem MemWf.pollResult {s} (h : MemWf s) {ok} : MemWf (s.pollResult ok) :=
  .ite ((MemWf.ite h.upd h.incSat.upd).wf.wf.wf.ldrEvent) (.ite ((MemWf.ite h.upd h.incSat.upd).wf.wf.wf)
    (.ite h.upd h.incSat.upd))
theorem MemWf.pmbSent {s} (h : MemWf s) {bs} : MemWf (s.pmbSent bs) := h.upd
theorem MemWf.sendVout {s} (h : MemWf s) {r} : MemWf (s.sendVout r) := by
  unfold State.sendVout
  dsimp only
  split
  · exact h
  · exact .ite h.upd (.ite h (.ite ((MemWf.ite_snd h.snd h.takeFree.snd).pmbSent.wf.upd)
      ((MemWf.ite_snd h.snd h.takeFree.snd).pmbSent.wf.upd.incSat)))
theorem MemWf.pmbPoll {s} (h : MemWf s) {code r} : MemWf (s.pmbPoll code r).2 := h.pmbSent.snd
theorem MemWf.pollVout {s} (h : MemWf s) {r} : MemWf (s.pollVout r) := by
  unfold State.pollVout
  split
  · exact h.pollResult
  · exact h.pollResult.putReading.stepVout.keyVout
theorem MemWf.pollIout {s} (h : MemWf s) {r} : MemWf (s.pollIout r) := by
  unfold State.pollIout
  split
  · exact h.pollResult
  · exact h.pollResult.putReading
theorem MemWf.pollStatus {s} (h : MemWf s) {r} : MemWf (s.pollStatus r) := by
  unfold State.pollStatus
  dsimp only
  split
  · exact h.pollResult
  · exact .ite h.pollResult.wf h.pollResult.wf.wf.ldrEvent
theorem MemWf.pmbusPoll {s} (h : MemWf s) {cmd vout iout sword} : MemWf (s.pmbusPoll cmd vout iout sword) := by
  unfold State.pmbusPoll
  dsimp only
  refine MemWf.ite h.upd.sendVout.pmbPoll.pollVout ?_
  split
  · exact h.upd.sendVout.pmbPoll.pollVout.pmbPoll.pollIout.pmbPoll.pollStatus.upd
  · exact h.upd.sendVout.pmbPoll.pollVout.pmbPoll.pollIout.pmbPoll.pollStatus
theorem MemWf.tickBooks {s} (h : MemWf s) {d b} : MemWf (s.tickBooks d b) :=
  .ite h.addTerm.addTerm.addTerm.addAvail.wf.addTerm h.addTerm.addTerm.addTerm.addAvail
theorem MemWf.countSteps {s} (h : MemWf s) {d b} : MemWf (s.countSteps d b) := h.upd
theorem MemWf.chooseStep {s} (h : MemWf s) {a b} : MemWf (s.chooseStep a b) := .ite h.wf.upd h.wf.upd.beginStep
theorem MemWf.judgeStep {s} (h : MemWf s) : MemWf s.judgeStep := .ite h (.ite h.chooseStep (.ite h.chooseStep h))
theorem MemWf.ledgerTick {s} (h : MemWf s) {base} : MemWf (s.ledgerTick base) := h.wf.wf.upd.tickBooks.upd.countSteps.judgeStep
theorem MemWf.closeWindow {s} (h : MemWf s) : MemWf s.closeWindow :=
  h.setReg.setReg.setReg.setReg.setReg.wf.wf.wf.wf.incWrap.upd
theorem MemWf.countDrawn {s} (h : MemWf s) {drawn} : MemWf (s.countDrawn drawn) := h.upd
theorem MemWf.updateTrim {s} (h : MemWf s) {drawn} : MemWf (s.updateTrim drawn) := (MemWf.ite h.countDrawn h.countDrawn.wf).upd
theorem MemWf.admitJob {s} (h : MemWf s) {k} : MemWf (s.admitJob k) := by
  unfold State.admitJob
  dsimp only
  split
  · exact h
  · exact h.reserve.setSlot.upd.startJob
theorem MemWf.admission {s} (h : MemWf s) : MemWf s.admission := by
  unfold State.admission
  dsimp only
  refine MemWf.ite h ?_
  split
  · exact h
  · refine MemWf.ite h ?_
    refine MemWf.admitJob ?_
    split
    · exact h.setSlot
    · exact h
theorem MemWf.refuseFirst {s} (h : MemWf s) {r rs} : MemWf (s.refuseFirst r rs).st := .ite_st h.ok h.refused
theorem MemWf.ldrWriteFields {s} (h : MemWf s) {a v} : MemWf (s.ldrWriteFields a v).2 := h.writeReg.snd
theorem MemWf.writeLdr {s} (h : MemWf s) {src a v} : MemWf (s.writeLdr src a v).st :=
  .ite_st (.ite_st h.ldrWriteFields.refuseFirst ((MemWf.ite h.ldrWriteFields.wf.notQuiet.ldrEvent
    h.ldrWriteFields).refuseFirst)) (.ite_st (.ite_st h.ldrWriteFields.refuseFirst
    (.ite_st h.ldrWriteFields.refuseFirst h.ldrWriteFields.upd.refuseFirst))
    (.ite_st (.ite_st h.refused (.ite_st h.refused h.wf.voutCommand.ok)) h.ldrWriteFields.refuseFirst))

/-! ### Clock registers -/

theorem MemWf.writeOpcfg {s} (h : MemWf s) {src n v} : MemWf (s.writeOpcfg src n v).st :=
  .ite_st h.refused (.ite_st h.refused (.ite_st h.refused h.writeReg.ok))
theorem MemWf.writeSsc {s} (h : MemWf s) {src v} : MemWf (s.writeSsc src v).st := .ite_st h.refused h.writeReg.ok
theorem MemWf.writeCpll {s} (h : MemWf s) {v} : MemWf (s.writeCpll v).st :=
  .ite_st h.ok (.ite_st h.refused h.writeReg.wf.upd.openWindow.ok)
theorem MemWf.writeSpllCtl {s} (h : MemWf s) {v} : MemWf (s.writeSpllCtl v).st := (MemWf.ite h.upd h).writeOr
theorem MemWf.writeClk {s} (h : MemWf s) {src a v} : MemWf (s.writeClk src a v).st :=
  .ite_st h.writeHop (.ite_st h.writeSpllCtl (.ite_st h.writeSsc (.ite_st h.writeCpll (.ite_st h.writeOpcfg h.writeOr))))

/-! ### The Deck's own steps -/

theorem MemWf.setInit {s} (h : MemWf s) {q v} : MemWf (s.setInit q v) := h.upd
theorem MemWf.startInit {s} (h : MemWf s) {q} : MemWf (s.startInit q) := h.wf.setInit.deckFill
theorem MemWf.writeDeckInit {s} (h : MemWf s) {q v} : MemWf (s.writeDeckInit q v).st :=
  .ite_st h.ok (.ite_st h.refused h.startInit.ok)
theorem MemWf.endInit {s} (h : MemWf s) {q} : MemWf (s.endInit q) := h.wf.wf.setInit
theorem MemWf.cutInit {s} (h : MemWf s) {q rows i pat} : MemWf (s.cutInit q rows i pat) :=
  h.of_deckWf (s.deckWf_cutInit q rows i pat) rfl rfl rfl
theorem MemWf.resetDeck {s} (h : MemWf s) {q} : MemWf (s.resetDeck q) := by
  unfold State.resetDeck
  dsimp only
  refine MemWf.upd ?_
  split
  · exact h
  · exact h.takeFree.cutInit.setInit
theorem MemWf.powerUpDeck {s} (h : MemWf s) {q} : MemWf (s.powerUpDeck q) :=
  h.of_deckWf (s.deckWf_powerUpDeck q) rfl rfl rfl
theorem MemWf.writeInj {s} (h : MemWf s) {q v} : MemWf (s.writeInj q v).st := .ite_st h.refused h.writeReg.ok

/-! ### The Vault -/

theorem MemWf.nextRseq {s} (h : MemWf s) : MemWf s.nextRseq := h.upd
theorem MemWf.loseRecords {s} (h : MemWf s) {n} : MemWf (s.loseRecords n) := h.incSat.upd
theorem MemWf.evRecord {s} (h : MemWf s) {code a0 a1 a2} : MemWf (s.evRecord code a0 a1 a2) := .ite h.loseRecords h.upd.nextRseq
theorem MemWf.vaultQueue {s} (h : MemWf s) {id} : MemWf (s.vaultQueue id) := h.upd
theorem MemWf.vaultFlush {s} (h : MemWf s) {ids} : MemWf (s.vaultFlush ids) := h.upd
theorem MemWf.ledgerNote {s} (h : MemWf s) {kind a0 a1} : MemWf (s.ledgerNote kind a0 a1) := h.upd
theorem MemWf.ledgerEntry {s} (h : MemWf s) {kind a0 a1} : MemWf (s.ledgerEntry kind a0 a1) := h.ledgerNote.vaultQueue
theorem MemWf.setChan {s} (h : MemWf s) {n c} : MemWf (s.setChan n c) := h.upd
theorem MemWf.setVrec {s} (h : MemWf s) {id r} : MemWf (s.setVrec id r) := h.upd
theorem MemWf.vaultCaptured {s} (h : MemWf s) {id} : MemWf (s.vaultCaptured id) := .ite h.upd (.ite h.upd h)
theorem MemWf.vaultBegin {s} (h : MemWf s) : MemWf s.vaultBegin := by
  unfold State.vaultBegin
  dsimp only
  split
  · exact h
  · exact h
  · exact h.setVrec.upd.vaultCaptured
theorem MemWf.vaultEnd {s} (h : MemWf s) {ok} : MemWf (s.vaultEnd ok) := by
  unfold State.vaultEnd
  dsimp only
  split
  · exact h
  · exact .ite h.upd.setVrec h.upd.wf.ledgerEntry.evRecord

/-! ### The flash controller -/

theorem MemWf.setFpage {s} (h : MemWf s) {b p v} : MemWf (s.setFpage b p v) := h.upd
theorem MemWf.eraseBlock {s} (h : MemWf s) {b} : MemWf (s.eraseBlock b) := h.upd
theorem MemWf.recount {s} (h : MemWf s) : MemWf s.recount := .ite h h.wf.wf.wf.wf.wf.wf
theorem MemWf.dueTail {s} (h : MemWf s) : MemWf s.dueTail := .ite h.upd h
theorem MemWf.enterBlock {s} (h : MemWf s) {b} : MemWf (s.enterBlock b) := h.upd.dueTail.vaultQueue.vaultQueue
theorem MemWf.intend {s} (h : MemWf s) {b v} : MemWf (s.intend b v) := h.upd
theorem MemWf.intendTgt {s} (h : MemWf s) : MemWf s.intendTgt := (MemWf.ite h.intend h).recount
theorem MemWf.flcStart {s} (h : MemWf s) {j} : MemWf (s.flcStart j) := by
  unfold State.flcStart
  dsimp only
  split
  · exact (MemWf.ite h.upd.wf.upd h.upd.wf.upd.enterBlock).upd.recount
  · exact h.upd.wf.upd.upd.intendTgt
  · exact h.upd.wf.upd.upd.intendTgt
  · exact h.upd.wf.upd.upd.wf.intendTgt
  · exact h.upd.wf.upd.upd
  · exact h.upd.wf.upd.upd
  · exact h.upd.wf.upd
  · exact h.upd.wf.upd.upd
theorem MemWf.flcGrant {s} (h : MemWf s) : MemWf s.flcGrant := by
  unfold State.flcGrant
  refine MemWf.ite h ?_
  split
  · exact h.flcStart
  · exact h
theorem MemWf.flcRequest {s} (h : MemWf s) {j} : MemWf (s.flcRequest j) := h.upd.flcGrant
theorem MemWf.flcFault {s} (h : MemWf s) : MemWf s.flcFault := h.wf.raiseIf
theorem MemWf.logFault {s} (h : MemWf s) {kind a0 a1 code arg} : MemWf (s.logFault kind a0 a1 code arg) :=
  h.flcFault.ledgerEntry.wf.raiseIf.evRecord
theorem MemWf.noteBlock {s} (h : MemWf s) {b} : MemWf (s.noteBlock b) := h.upd.vaultQueue
theorem MemWf.markBad {s} (h : MemWf s) {b reason} : MemWf (s.markBad b reason) := h.upd.noteBlock
theorem MemWf.retireBlock {s} (h : MemWf s) {b reason} : MemWf (s.retireBlock b reason) := h.markBad.flcFault
theorem MemWf.respareBlock {s} (h : MemWf s) {lb} : MemWf (s.respareBlock lb).2 := by
  unfold State.respareBlock
  split
  · exact h.snd
  · exact h.upd.noteBlock.snd
theorem MemWf.classifyPage {s} (h : MemWf s) {p b o} : MemWf (s.classifyPage p b o).2 :=
  .ite_snd (.ite_snd h.takeFree.takeFree.snd h.takeFree.takeFree.snd) h.snd
theorem MemWf.countRead {s} (h : MemWf s) {b r} : MemWf (s.countRead b r) :=
  .ite ((MemWf.ite h.incSat.incSat h.incSat).incSat.upd) ((MemWf.ite h.incSat.incSat h.incSat).incSat)
theorem MemWf.readBytes {s} (h : MemWf s) {b p r} : MemWf (s.readBytes b p r).2 := by
  unfold State.readBytes
  dsimp only
  refine MemWf.ite_snd ?_ h.takeFree.snd
  split
  · exact .ite_snd h.snd h.takeFree.snd
  · exact h.takeFree.snd
theorem MemWf.endRead {s} (h : MemWf s) {j b pg o} : MemWf (s.endRead j b pg o).2 :=
  .ite_snd h.snd ((MemWf.ite h.classifyPage.countRead.logFault h.classifyPage.countRead).readBytes.snd)
theorem MemWf.endJread {s} (h : MemWf s) {j k o} : MemWf (s.endJread j k o).2 := by
  unfold State.endJread
  dsimp only
  refine MemWf.ite_snd h.snd ?_
  split
  · exact h.snd
  · exact (MemWf.ite h.classifyPage.countRead.logFault h.classifyPage.countRead).readBytes.snd
theorem MemWf.goOn {s} (h : MemWf s) {j op} : MemWf (s.goOn j op).2 := .ite_snd h.snd h.upd.snd
theorem MemWf.endAppend {s} (h : MemWf s) {j pl src tries ok} : MemWf (s.endAppend j pl src tries ok).2 :=
  .ite_snd h.snd (.ite_snd h.upd.setFpage.wf.snd (.ite_snd h.upd.setFpage.markBad.logFault.snd
    h.upd.setFpage.markBad.logFault.goOn))
theorem MemWf.endProgram {s} (h : MemWf s) {j lb pg data ok} : MemWf (s.endProgram j lb pg data ok).2 :=
  .ite_snd h.snd (.ite_snd h.snd (.ite_snd h.setFpage.upd.snd (.ite_snd h.setFpage.retireBlock.upd.respareBlock.goOn
    h.setFpage.retireBlock.upd.respareBlock.snd)))
theorem MemWf.eraseOk {s} (h : MemWf s) {b} : MemWf (s.eraseOk b) := h.eraseBlock.intend
theorem MemWf.endErase {s} (h : MemWf s) {j lb err reloc again ok} : MemWf (s.endErase j lb err reloc again ok).2 :=
  .ite_snd h.snd (.ite_snd h.eraseOk.upd.snd (.ite_snd h.retireBlock.intend.respareBlock.goOn
    h.retireBlock.intend.respareBlock.snd))
theorem MemWf.endTail {s} (h : MemWf s) {j b ok} : MemWf (s.endTail j b ok).2 :=
  .ite_snd h.eraseOk.upd.snd h.retireBlock.intend.upd.dueTail.snd
theorem MemWf.endBbt {s} (h : MemWf s) {j pg body ok} : MemWf (s.endBbt j pg body ok).2 :=
  (MemWf.ite ((MemWf.ite h.upd.upd h.upd).wf) (.ite h.upd.upd h.upd)).snd
theorem MemWf.dieEnd {s} (h : MemWf s) {j o} : MemWf (s.dieEnd j o).2 := by
  unfold State.dieEnd
  dsimp only
  split
  · exact h.endRead.snd
  · exact h.endJread.snd
  · exact h.endAppend
  · exact h.endProgram
  · exact h.endErase
  · exact h.endErase
  · exact h.endTail
  · exact h.endBbt
theorem MemWf.dieFree {s} (h : MemWf s) : MemWf s.dieFree := h.upd.wf
theorem MemWf.interrupt {s} (h : MemWf s) {j} : MemWf (s.interrupt j) := by
  unfold State.interrupt
  dsimp only
  split
  · exact h.setFpage.upd
  · exact .ite h h.setFpage.upd
  · exact .ite h.upd h
  · exact .ite h.upd h
  · exact h.upd
  · exact h.upd
  · exact h
theorem MemWf.regDone {s} (h : MemWf s) {e} : MemWf (s.regDone e) := by
  unfold State.regDone
  dsimp only
  refine MemWf.raiseIf ?_
  refine MemWf.wf ?_
  refine MemWf.wf ?_
  split
  · exact .ite h.setReg.upd h.setReg
  · exact .ite h.setReg.upd h.setReg
  · exact .ite h.setReg.wf h.setReg
  · exact h.setReg
theorem MemWf.writeFlcCmd {s} (h : MemWf s) {src v} : MemWf (s.writeFlcCmd src v).st := .ite_st h.refused h.wf.flcRequest.ok
theorem MemWf.bufAdvance {s} (h : MemWf s) : MemWf s.bufAdvance := h.wf
theorem MemWf.writeBuf {s} (h : MemWf s) {src v} : MemWf (s.writeBuf src v).st :=
  .ite_st h.refused (.ite_st h.refused h.upd.bufAdvance.ok)
theorem MemWf.readBuf {s} (h : MemWf s) : MemWf s.readBuf.2 := h.bufAdvance.snd
theorem MemWf.writeFlc {s} (h : MemWf s) {src a v} : MemWf (s.writeFlc src a v).st :=
  .ite_st h.writeFlcCmd (.ite_st h.writeBuf (.ite_st (.ite_st h.refused h.writeBut)
    (.ite_st (.ite_st h.refused h.writeReg.ok) h.writeReg.ok)))
theorem MemWf.resetFlash {s} (h : MemWf s) : MemWf s.resetFlash := by
  unfold State.resetFlash
  dsimp only
  refine MemWf.upd ?_
  split
  · exact h
  · split
    · exact h.interrupt
    · exact .ite h.takeFree.interrupt (.ite h.takeFree.intend h.takeFree.eraseOk)
theorem MemWf.reconcileTables {s} (h : MemWf s) : MemWf s.reconcileTables := MemWf.foldl (fun _ _ h' => h'.vaultQueue) h.upd
theorem MemWf.loadIndex {s} (h : MemWf s) : MemWf s.loadIndex := by
  unfold State.loadIndex
  dsimp only
  split
  · exact h.upd
  · exact h.upd.upd.wf
theorem MemWf.scanHead {s} (h : MemWf s) {fuel} : MemWf (s.scanHead fuel) :=
  match fuel with
  | 0 => h
  | _ + 1 => by
    unfold State.scanHead
    dsimp only
    split
    · exact h
    · exact .ite (.ite h.wf h) ((MemWf.ite h.wf h).upd.scanHead)
theorem MemWf.reErase {s} (h : MemWf s) {bs fails} : MemWf (s.reErase bs fails) :=
  match bs with
  | [] => h
  | _ :: _ => (MemWf.ite h.incSat.evRecord.retireBlock.intend.upd h.incSat.evRecord.eraseOk).reErase
theorem MemWf.respareErase {s} (h : MemWf s) {lb fails fuel} : MemWf (s.respareErase lb fails fuel) :=
  match fuel with
  | 0 => h
  | _ + 1 => .ite h (.ite h.respareBlock.retireBlock.respareErase h.respareBlock.eraseOk)
theorem MemWf.respareAll {s} (h : MemWf s) {bs fails} : MemWf (s.respareAll bs fails) :=
  match bs with
  | [] => h
  | _ :: _ => by
    unfold State.respareAll
    refine MemWf.respareAll ?_
    split
    · exact h.respareErase
    · exact h
theorem MemWf.flcInit {s} (h : MemWf s) {dieOk fails} : MemWf (s.flcInit dieOk fails) :=
  .ite h (.ite h.wf
    ((MemWf.ite ((MemWf.ite h.upd.wf h.upd).reconcileTables.loadIndex.reErase.respareAll.scanHead.wf.dueTail.upd.wf)
    ((MemWf.ite h.upd.wf h.upd).reconcileTables.loadIndex.reErase.respareAll.scanHead.wf.dueTail.upd)).wf.recount.flcGrant))

/-! ### The recorder -/

theorem MemWf.gate {s r} (h : MemWf s) {src} (hr : s.gate src = some r) : MemWf r.st := by
  unfold State.gate at hr
  split at hr
  · exact Option.some.inj hr ▸ h.refuse.res
  · split at hr
    · exact Option.some.inj hr ▸ h.refused
    · cases hr
theorem MemWf.dirtyChan {s} (h : MemWf s) {n c} : MemWf (s.dirtyChan n c) := h.setChan.upd
theorem MemWf.dropSample {s} (h : MemWf s) {n} : MemWf (s.dropSample n) := h.dirtyChan
theorem MemWf.takeSample {s} (h : MemWf s) {n v} : MemWf (s.takeSample n v) := by
  unfold State.takeSample
  dsimp only
  split
  · exact h.dropSample
  · refine MemWf.dirtyChan ?_
    split
    · exact h.snd
    · exact h.takeFree.snd
theorem MemWf.setSnap {s} (h : MemWf s) {k v} : MemWf (s.setSnap k v) := h.upd
theorem MemWf.issueReads {s} (h : MemWf s) {fuel} : MemWf (s.issueReads fuel) :=
  match fuel with
  | 0 => h
  | _ + 1 => by
    unfold State.issueReads
    dsimp only
    refine MemWf.ite h ?_
    split
    · exact h.upd.send.issueReads
    · split
      · exact h
      · exact h.upd.send.issueReads
theorem MemWf.channelDue {s} (h : MemWf s) {n} : MemWf (s.channelDue n) := .ite h ((MemWf.ite h.dropSample h.upd).issueReads)
theorem MemWf.snapReady {s} (h : MemWf s) {k} : MemWf (s.snapReady k) := by
  unfold State.snapReady
  split
  · exact h
  · exact .ite (.ite h.setSnap.wf h.wf) h
theorem MemWf.fireSet {s} (h : MemWf s) {k mask} : MemWf (s.fireSet k mask) := by
  unfold State.fireSet
  dsimp only
  split
  · exact h.setSnap
  · exact h.setSnap.nextRseq.wf.incWrap.upd.snapReady
theorem MemWf.fireSets {s} (h : MemWf s) {srcs k fuel} : MemWf (s.fireSets srcs k fuel) :=
  match fuel with
  | 0 => h
  | _ + 1 => (MemWf.ite h h.fireSet).fireSets
theorem MemWf.snapValue {s} (h : MemWf s) {i v} : MemWf (s.snapValue i v) := by
  unfold State.snapValue
  split
  · exact h
  · exact h.setSnap.snapReady
theorem MemWf.sampled {s} (h : MemWf s) {n v} : MemWf (s.sampled n v) := by
  unfold State.sampled
  dsimp only
  refine MemWf.issueReads ?_
  refine MemWf.ite h.snapValue ?_
  split
  · exact h.dropSample
  · exact h.takeSample
theorem MemWf.appendPage {s} (h : MemWf s) : MemWf s.appendPage := .ite h (.ite h.upd.upd h.upd.flcRequest)
theorem MemWf.pageEnd {s} (h : MemWf s) {ok} : MemWf (s.pageEnd ok) := by
  unfold State.pageEnd
  dsimp only
  split
  · exact h
  · exact .ite h.upd (MemWf.foldl (fun _ _ h' => h'.setSnap.wf) h.upd.upd)
theorem MemWf.loseWaiting {s} (h : MemWf s) : MemWf s.loseWaiting :=
  (MemWf.foldl (fun _ _ h' => h'.upd.snapReady) h.upd).loseRecords
theorem MemWf.flush {s} (h : MemWf s) : MemWf s.flush :=
  .ite h.upd ((MemWf.ite h.ledgerNote.upd h).vaultFlush.wf.upd.vaultBegin)
theorem MemWf.flushed {s} (h : MemWf s) {id} : MemWf (s.flushed id) :=
  .ite h (.ite h.upd (.ite h.upd.wf.incWrap.upd.flush (.ite h.upd.wf.incWrap.upd.loseWaiting h.upd.wf.incWrap)))
theorem MemWf.writeChan {s} (h : MemWf s) {src n i v} : MemWf (s.writeChan src n i v).st := by
  unfold State.writeChan
  dsimp only
  split
  · next hr => exact h.gate hr
  · exact .ite_st h.refused (.ite_st h.refused (MemWf.ite h.writeReg h.writeReg.upd).vaultQueue.evRecord.vaultBegin.ok)
theorem MemWf.writePush {s} (h : MemWf s) {src n v} : MemWf (s.writePush src n v).st :=
  .ite_st h.refused (.ite_st h.incSat.ok h.takeSample.ok)
theorem MemWf.writeSnap {s} (h : MemWf s) {src k a v} : MemWf (s.writeSnap src k a v).st := by
  unfold State.writeSnap
  split
  · next hr => exact h.gate hr
  · exact h.writeBut.vaultQueue.vaultBegin.res
theorem MemWf.clearChans {s} (h : MemWf s) {n fuel} : MemWf (s.clearChans n fuel) :=
  match fuel with
  | 0 => h
  | _ + 1 => h.dirtyChan.vaultQueue.clearChans
theorem MemWf.clearHistory {s} (h : MemWf s) {v} : MemWf (s.clearHistory v) :=
  (MemWf.ite ((MemWf.ite h.clearChans h).upd.vaultQueue) (.ite h.clearChans h)).upd.vaultQueue.evRecord.vaultBegin
theorem MemWf.writeClear {s} (h : MemWf s) {src v} : MemWf (s.writeClear src v).st :=
  .ite_st h.refuse.res (.ite_st h.refuse.res (.ite_st h.refused (.ite_st h.refused
    ((MemWf.ite h.writeReg.clearHistory h.writeReg).ok))))
theorem MemWf.writeHistSel {s} (h : MemWf s) {v} : MemWf (s.writeHistSel v) := h.writeReg.upd
theorem MemWf.writeChSel {s} (h : MemWf s) {v} : MemWf (s.writeChSel v) := h.writeReg.upd
theorem MemWf.writeRec {s} (h : MemWf s) {src a v} : MemWf (s.writeRec src a v).st := by
  unfold State.writeRec
  refine .ite_st ?_ ?_
  · split
    · next hr => exact h.gate hr
    · exact .ite_st h.refused h.writeReg.vaultQueue.vaultBegin.ok
  refine .ite_st (MemWf.ite h.flush h).ok ?_
  refine .ite_st h.writeHistSel.ok (.ite_st h.writeChSel.ok (.ite_st h.setReg.ok ?_))
  refine .ite_st h.writeClear ?_
  refine .ite_st (.ite_st h.refused (MemWf.foldl (fun _ _ h' => .ite h'.upd h') h).ok) ?_
  simp only
  refine .ite_st (.ite_st h.writeChan (.ite_st h.writePush h.ok)) (.ite_st ?_ h.writeReg.ok)
  split
  · exact h.writeSnap
  · exact h.ok
theorem MemWf.writeSlew {s} (h : MemWf s) {src v} : MemWf (s.writeSlew src v).st :=
  .ite_st h.refused (.ite_st h.refused h.upd.wf.evRecord.ok)
theorem MemWf.stepCalendar {s} (h : MemWf s) {sec frac} : MemWf (s.stepCalendar sec frac) := h.upd.wf.wf.evRecord
theorem MemWf.writeRtcSet {s} (h : MemWf s) {src a v} : MemWf (s.writeRtcSet src a v).st := by
  unfold State.writeRtcSet
  split
  · next hr => exact h.gate hr
  · exact (MemWf.ite h.writeReg.stepCalendar h.writeReg).ok
theorem MemWf.writeAon {s} (h : MemWf s) {src a v} : MemWf (s.writeAon src a v).st :=
  .ite_st h.writeSlew (.ite_st h.writeRtcSet h.writeReg.ok)
theorem MemWf.recRead {s} (h : MemWf s) {a} : MemWf (s.recRead a) := .ite h.upd (.ite h.upd h)

/-! ### The panel -/

theorem MemWf.setPnlKey {s} (h : MemWf s) {k v} : MemWf (s.setPnlKey k v) := h.upd
theorem MemWf.setTouched {s} (h : MemWf s) {k v} : MemWf (s.setTouched k v) := .ite h h.setBit.raiseIf
theorem MemWf.flagEvent {s} (h : MemWf s) : MemWf s.flagEvent := h.raiseIf
theorem MemWf.rebaseKey {s} (h : MemWf s) {k c} : MemWf (s.rebaseKey k c) := h.wf.setBit.setBit.setTouched.setPnlKey
theorem MemWf.initKey {s} (h : MemWf s) {k n c} : MemWf (s.initKey k n c) :=
  .ite h.setPnlKey (.ite h.wf.setPnlKey.setBit.flagEvent h.wf.setPnlKey)
theorem MemWf.suspectKey {s} (h : MemWf s) {k n c} : MemWf (s.suspectKey k n c) := .ite h.setBit.wf.setPnlKey h.setPnlKey
theorem MemWf.recoverKey {s} (h : MemWf s) {k c} : MemWf (s.recoverKey k c) := .ite h.wf.setBit.setPnlKey h.setPnlKey
theorem MemWf.judgeKey {s} (h : MemWf s) {k c} : MemWf (s.judgeKey k c) :=
  .ite (.ite h.setPnlKey.setTouched h.setPnlKey) (.ite h.setPnlKey.setTouched h.setPnlKey)
theorem MemWf.maxOnKey {s} (h : MemWf s) {k c} : MemWf (s.maxOnKey k c) :=
  .ite h.setTouched.setBit.setBit.flagEvent.wf.setPnlKey h.setPnlKey
theorem MemWf.trackKey {s} (h : MemWf s) {k n c} : MemWf (s.trackKey k n c) := .ite h h.wf
theorem MemWf.scanKey {s} (h : MemWf s) {k n c} : MemWf (s.scanKey k n c) :=
  .ite ((MemWf.ite h.wf.rebaseKey h.wf).initKey) (.ite (.ite h.wf.rebaseKey h.wf)
    (.ite ((MemWf.ite h.wf.rebaseKey h.wf).suspectKey) ((MemWf.ite h.wf.rebaseKey h.wf).recoverKey.judgeKey.maxOnKey.trackKey)))
theorem MemWf.scanKeys {s} (h : MemWf s) {n k cs} : MemWf (s.scanKeys n k cs) :=
  match cs with
  | [] => h
  | _ :: _ => h.scanKey.scanKeys
theorem MemWf.scan {s} (h : MemWf s) {cs} : MemWf (s.scan cs) := .ite h.scanKeys.upd.wf h.scanKeys.upd
theorem MemWf.panelOn {s} (h : MemWf s) : MemWf s.panelOn := by
  unfold State.panelOn
  dsimp only
  split
  · exact h.upd.wf.wf.wf
  · exact (MemWf.foldl (fun _ _ h' => h'.wf) h.upd.wf.wf).wf
theorem MemWf.panelOff {s} (h : MemWf s) : MemWf s.panelOff := (MemWf.foldl (fun _ _ h' => h'.setTouched) h).wf
theorem MemWf.writePnlCtl {s} (h : MemWf s) {src v} : MemWf (s.writePnlCtl src v).st :=
  .ite_st ((MemWf.ite h.writeOr.panelOn (.ite h.writeOr.panelOff h.writeOr)).upd.res)
    (.ite_st ((MemWf.ite h.writeOr.panelOn (.ite h.writeOr.panelOff h.writeOr)).upd.vaultQueue.vaultBegin.res)
    ((MemWf.ite h.writeOr.panelOn (.ite h.writeOr.panelOff h.writeOr)).upd.refused))
theorem MemWf.writePnl {s} (h : MemWf s) {src a v} : MemWf (s.writePnl src a v).st := .ite_st h.writePnlCtl h.writeBut

/-! ### The MACs -/

theorem MemWf.setMac {s} (h : MemWf s) {m v} : MemWf (s.setMac m v) := h.upd
theorem MemWf.onMac {s} (h : MemWf s) {m f} : MemWf (s.onMac m f) := h.setMac
theorem MemWf.drop {s} (h : MemWf s) {m code} : MemWf (s.drop m code) := h.onMac
theorem MemWf.linkEvent {s} (h : MemWf s) : MemWf s.linkEvent := h.raiseIf
theorem MemWf.txNext {s} (h : MemWf s) {m} : MemWf (s.txNext m) := by
  unfold State.txNext
  dsimp only
  refine MemWf.ite h ?_
  split
  · exact h.setMac
  · exact h
theorem MemWf.txFrame {s} (h : MemWf s) {m cls stream bs} : MemWf (s.txFrame m cls stream bs) := h.onMac.txNext
theorem MemWf.txIp {s} (h : MemWf s) {m cls stream hw src dst proto pl} : MemWf (s.txIp m cls stream hw src dst proto pl) :=
  h.onMac.txFrame
theorem MemWf.txUdp {s} (h : MemWf s) {m cls stream hw src dst sport dport pl} : MemWf
    (s.txUdp m cls stream hw src dst sport dport pl) :=
  h.txIp
theorem MemWf.txArp {s} (h : MemWf s) {m op hw thw tip} : MemWf (s.txArp m op hw thw tip) := h.txFrame
theorem MemWf.gratuitous {s} (h : MemWf s) {m} : MemWf (s.gratuitous m) := .ite h h.txArp
theorem MemWf.arpLook {s} (h : MemWf s) {m ip} : MemWf (s.arpLook m ip).2 := by
  unfold State.arpLook
  dsimp only
  split
  · exact h.snd
  · exact h.setMac.snd
theorem MemWf.arpLearn {s} (h : MemWf s) {m ip hw} : MemWf (s.arpLearn m ip hw) := h.onMac
theorem MemWf.sendFw {s} (h : MemWf s) {f hw} : MemWf (s.sendFw f hw) := h.txUdp
theorem MemWf.arpFlush {s} (h : MemWf s) {m ip hw} : MemWf (s.arpFlush m ip hw) := MemWf.foldl (fun _ _ h' => h'.sendFw) h.upd
theorem MemWf.rxArp {s} (h : MemWf s) {m p} : MemWf (s.rxArp m p) := .ite h (.ite h.txArp (.ite h.arpLearn.arpFlush h))
theorem MemWf.arpRetry {s} (h : MemWf s) {i} : MemWf (s.arpRetry i) := by
  unfold State.arpRetry
  dsimp only
  split
  · exact h
  · exact .ite h.upd.drop (.ite h.upd h.upd.txArp)
theorem MemWf.rxIcmp {s} (h : MemWf s) {m hw src bcast p} : MemWf (s.rxIcmp m hw src bcast p) := .ite h.drop h.txIp
theorem MemWf.dhcpState {s} (h : MemWf s) {m st} : MemWf (s.dhcpState m st) := h.wf.linkEvent
theorem MemWf.onDhcp {s} (h : MemWf s) {m f} : MemWf (s.onDhcp m f) := h.onMac
theorem MemWf.txDhcp {s} (h : MemWf s) {m ty bcast opts} : MemWf (s.txDhcp m ty bcast opts) := .ite h.txUdp h.txUdp
theorem MemWf.txDiscover {s} (h : MemWf s) {m} : MemWf (s.txDiscover m) := h.txDhcp
theorem MemWf.txRequest {s} (h : MemWf s) {m} : MemWf (s.txRequest m) := by
  unfold State.txRequest
  exact h.txDhcp
theorem MemWf.clearLease {s} (h : MemWf s) {m} : MemWf (s.clearLease m) := h.wf.wf.wf.wf
theorem MemWf.dhcpInit {s} (h : MemWf s) {m} : MemWf (s.dhcpInit m) := h.clearLease.takeFree.onDhcp.dhcpState.txDiscover
theorem MemWf.dhcpBind {s} (h : MemWf s) {m hw ip os} : MemWf (s.dhcpBind m hw ip os) :=
  .ite h.onDhcp.wf.wf.wf.wf.dhcpState.gratuitous h.onDhcp.wf.wf.wf.wf.dhcpState
theorem MemWf.rxDhcp {s} (h : MemWf s) {m hw p} : MemWf (s.rxDhcp m hw p) := by
  unfold State.rxDhcp
  dsimp only
  refine MemWf.ite h ?_
  refine MemWf.ite ?_ (.ite (.ite h.dhcpBind h) (.ite (.ite h.dhcpInit h) h))
  split
  · exact h.onDhcp.dhcpState.txRequest
  · exact h
theorem MemWf.dhcpAgain {s} (h : MemWf s) {m} : MemWf (s.dhcpAgain m) :=
  .ite h.onDhcp.txDiscover (.ite (.ite h.dhcpInit h.onDhcp.txRequest) (.ite h.onDhcp.txDhcp (.ite h.onDhcp.txDhcp h)))
theorem MemWf.rxFw {s} (h : MemWf s) {m ip sport dport p} : MemWf (s.rxFw m ip sport dport p) :=
  .ite h.drop (.ite h.upd.raiseIf h.upd)
theorem MemWf.frxRead {s} (h : MemWf s) : MemWf s.frxRead := h.upd
theorem MemWf.frxPop {s} (h : MemWf s) : MemWf s.frxPop := h.upd
theorem MemWf.ftxData {s} (h : MemWf s) {v} : MemWf (s.ftxData v).st := .ite_st h.refused h.upd.ok
theorem MemWf.fwRoute {s} (h : MemWf s) {m ip sport dport p} : MemWf (s.fwRoute m ip sport dport p) := by
  unfold State.fwRoute
  dsimp only
  refine MemWf.ite h.drop ?_
  split
  · exact h.arpLook.sendFw
  · exact h.upd.txArp
theorem MemWf.ftxSend {s} (h : MemWf s) {v} : MemWf (s.ftxSend v).st :=
  .ite_st h.refused (.ite_st h.refused (.ite_st h.refused (.ite_st h.refused h.upd.fwRoute.ok)))
theorem MemWf.setLink {s} (h : MemWf s) {m up half speed} : MemWf (s.setLink m up half speed) :=
  (MemWf.ite h.wf.wf.wf h.wf.wf.wf.linkEvent).txNext
theorem MemWf.fixLink {s} (h : MemWf s) {m} : MemWf (s.fixLink m) := .ite h (.ite h.setLink (.ite h h.setLink))
theorem MemWf.phyPoll {s} (h : MemWf s) {m r1 r4 r5 r9 r10} : MemWf (s.phyPoll m r1 r4 r5 r9 r10) := by
  unfold State.phyPoll
  refine MemWf.ite h ?_
  refine MemWf.ite h.setLink ?_
  split <;> exact h.setLink
theorem MemWf.ipStart {s} (h : MemWf s) {m} : MemWf (s.ipStart m) := .ite h (.ite h.dhcpInit (.ite h.gratuitous h))
theorem MemWf.ethStart {s} (h : MemWf s) : MemWf s.ethStart := h.fixLink.fixLink.ipStart.ipStart
theorem MemWf.mdioCmd {s} (h : MemWf s) {v} : MemWf (s.mdioCmd v).st := .ite_st h.refused h.wf.upd.ok
theorem MemWf.mdioEnd {s} (h : MemWf s) {data} : MemWf (s.mdioEnd data) := by
  unfold State.mdioEnd
  dsimp only
  split
  · exact h
  · exact .ite h.wf.upd h.wf.upd.wf
theorem MemWf.writeIpCfg {s} (h : MemWf s) {p m v} : MemWf (s.writeIpCfg p m v).st :=
  .ite_st h.refused (.ite_st h.writeOr ((MemWf.ite h.writeOr.clearLease.wf.linkEvent h.writeOr).ipStart.res))
theorem MemWf.writeMac {s} (h : MemWf s) {p m a v} : MemWf (s.writeMac p m a v).st :=
  .ite_st h.writeIpCfg (.ite_st (.ite_st h.refused (.ite_st h.writeOr.gratuitous.ok h.writeOr))
    (.ite_st h.writeOr.fixLink.res h.writeOr))
theorem MemWf.writeEth {s} (h : MemWf s) {src a v} : MemWf (s.writeEth src a v).st :=
  .ite_st h.refused (.ite_st h.mdioCmd (.ite_st h.writeMac (.ite_st h.writeMac
    (.ite_st h.writeBut (.ite_st h.frxPop.ok (.ite_st h.ftxData (.ite_st h.ftxSend h.writeOr)))))))
theorem MemWf.ethRead {s} (h : MemWf s) {clears a} : MemWf (s.ethRead clears a) := .ite h.frxRead (.ite h.onMac h)

/-! ### The Mirnak container -/

theorem MemWf.bootReads {s} (h : MemWf s) {errs r ps} : MemWf (s.bootReads errs r ps) := by
  unfold State.bootReads
  dsimp only
  refine MemWf.foldl (fun u _ h' => ?_) h
  refine MemWf.ite h' ?_
  split
  · exact h'
  · split <;> exact h'.incSat

/-! ### The Fobex engine -/

theorem MemWf.setSess {s} (h : MemWf s) {k v} : MemWf (s.setSess k v) := h.upd
theorem MemWf.onSess {s} (h : MemWf s) {k f} : MemWf (s.onSess k f) := h.setSess
theorem MemWf.txFobex {s} (h : MemWf s) {p cls stream dport pl} : MemWf (s.txFobex p cls stream dport pl) := .ite h h.txUdp
theorem MemWf.answer {s} (h : MemWf s) {p op session seq st data} : MemWf (s.answer p op session seq st data) :=
  (MemWf.ite h.incSat h).txFobex
theorem MemWf.finish {s} (h : MemWf s) {r st data} : MemWf (s.finish r st data) := by
  unfold State.finish
  dsimp only
  split
  · exact h.upd.incWrap.answer
  · exact h.upd.incWrap.answer.onSess
theorem MemWf.fail {s} (h : MemWf s) {r st} : MemWf (s.fail r st) := h.finish
theorem MemWf.startFlash {s} (h : MemWf s) {r} : MemWf (s.startFlash r) := h.upd.upd
theorem MemWf.finishFlash {s} (h : MemWf s) {r st data} : MemWf (s.finishFlash r st data) := h.upd.finish.flcGrant
theorem MemWf.setStrm {s} (h : MemWf s) {n v} : MemWf (s.setStrm n v) := h.upd
theorem MemWf.streamEvent {s} (h : MemWf s) : MemWf s.streamEvent := h.raiseIf
theorem MemWf.formStream {s} (h : MemWf s) {n} : MemWf (s.formStream n) := by
  unfold State.formStream
  dsimp only
  split
  · exact h
  · exact .ite h h.setStrm.txFobex
theorem MemWf.formStreams {s} (h : MemWf s) : MemWf s.formStreams := MemWf.foldl (fun _ _ h' => h'.formStream) h
theorem MemWf.closeStream {s} (h : MemWf s) {n} : MemWf (s.closeStream n) := .ite h h.setStrm.streamEvent
theorem MemWf.streamData {s} (h : MemWf s) {src n v} : MemWf (s.streamData src n v).st :=
  .ite_st h.refused (.ite_st h.refused (.ite_st h.incSat.ok h.setStrm.formStream.ok))
theorem MemWf.streamPush {s} (h : MemWf s) {n} : MemWf (s.streamPush n) := h.setStrm.formStream
theorem MemWf.endUpdate {s} (h : MemWf s) : MemWf s.endUpdate := h.upd
theorem MemWf.endSession {s} (h : MemWf s) {k} : MemWf (s.endSession k) := by
  unfold State.endSession
  dsimp only
  refine MemWf.ite h ?_
  refine MemWf.ite ?_ ?_
  · refine MemWf.flcGrant ?_
    refine MemWf.upd ?_
    refine MemWf.setSess ?_
    refine MemWf.upd ?_
    split
    · exact .ite ((MemWf.foldl (fun _ _ h' => .ite h'.closeStream h') h).endUpdate)
        (MemWf.foldl (fun _ _ h' => .ite h'.closeStream h') h)
    · exact MemWf.foldl (fun _ _ h' => .ite h'.closeStream h') h
  · refine MemWf.setSess ?_
    refine MemWf.upd ?_
    split
    · exact .ite ((MemWf.foldl (fun _ _ h' => .ite h'.closeStream h') h).endUpdate)
        (MemWf.foldl (fun _ _ h' => .ite h'.closeStream h') h)
    · exact MemWf.foldl (fun _ _ h' => .ite h'.closeStream h') h
theorem MemWf.enqueue {s} (h : MemWf s) {r} : MemWf (s.enqueue r) := by
  unfold State.enqueue
  dsimp only
  refine MemWf.upd ?_
  split
  · exact h.onSess
  · exact h
theorem MemWf.fsvSession {s} (h : MemWf s) {p bcast op session seq data} : MemWf (s.fsvSession p bcast op session seq data) :=
    by
  unfold State.fsvSession
  dsimp only
  refine MemWf.ite h.enqueue ?_
  split
  · exact h.answer
  · split
    · exact h
    · split
      · exact .ite h h.answer
      · exact .ite h.enqueue (.ite h.onSess.txFobex (.ite h.enqueue h.answer))
theorem MemWf.fsvDatagram {s} (h : MemWf s) {p bcast d} : MemWf (s.fsvDatagram p bcast d) :=
  .ite h.drop (.ite h.drop (.ite h.drop (.ite h.answer (.ite h.answer (.ite h.drop (.ite h.answer h.fsvSession))))))
theorem MemWf.eraseDone {s} (h : MemWf s) {r u err} : MemWf (s.eraseDone r u err) :=
  .ite h.endUpdate.finishFlash (.ite h.upd h.upd.finishFlash)
theorem MemWf.programFailed {s} (h : MemWf s) {r at' err} : MemWf (s.programFailed r at' err) :=
  .ite h.upd.finishFlash h.endUpdate.finishFlash
theorem MemWf.programDone {s} (h : MemWf s) {r u err} : MemWf (s.programDone r u err) :=
  .ite h.programFailed (.ite h.upd.finishFlash h.wf.wf.evRecord.endUpdate.finishFlash)
theorem MemWf.logReply {s} (h : MemWf s) {r jsn data corr} : MemWf (s.logReply r jsn data corr) := h.finishFlash
theorem MemWf.fsvDone {s} (h : MemWf s) {e} : MemWf (s.fsvDone e) := by
  unfold State.fsvDone
  split
  · exact h
  · refine MemWf.ite h ?_
    split
    · exact .ite h (.ite h.upd.logReply h.finishFlash)
    · split
      · exact h.eraseDone
      · exact h.finishFlash
    · split
      · exact h.programDone
      · exact h.finishFlash
theorem MemWf.fsvRequest {s} (h : MemWf s) {j} : MemWf (s.fsvRequest j) := .ite h.fsvDone h.flcRequest
theorem MemWf.eraseNext {s} (h : MemWf s) : MemWf s.eraseNext := by
  unfold State.eraseNext
  split
  · exact .ite h.fsvRequest h
  · exact .ite h h.finishFlash
  · exact h
theorem MemWf.programNext {s} (h : MemWf s) : MemWf s.programNext := by
  unfold State.programNext
  dsimp only
  split
  · exact .ite h (.ite h.fsvRequest (.ite h.fsvRequest h))
  · exact .ite h h.finishFlash
  · exact h
theorem MemWf.writeFsv {s} (h : MemWf s) {src a v} : MemWf (s.writeFsv src a v).st :=
  .ite_st h.refused (.ite_st h.streamData (.ite_st ((MemWf.ite h.writeReg.streamPush h.writeReg).ok) h.writeReg.ok))

/-! ### The Parapet -/

theorem MemWf.setWin {s} (h : MemWf s) {w} : MemWf (s.setWin w) := .ite h h.wf.raiseIf
theorem MemWf.setTimer {s} (h : MemWf s) : MemWf s.setTimer := h.wf.upd
theorem MemWf.recause {s} (h : MemWf s) {c why} : MemWf (s.recause c why) := h.upd.upd
theorem MemWf.closePresence {s} (h : MemWf s) {why} : MemWf (s.closePresence why) := by
  unfold State.closePresence
  dsimp only
  refine MemWf.ite h.setWin.wf.upd.endUpdate.evRecord ?_
  split
  · exact .ite h.recause h
  · exact h
theorem MemWf.holdReached {s} (h : MemWf s) : MemWf s.holdReached :=
  .ite h.upd.setWin.setTimer.upd.vaultQueue.evRecord.vaultBegin (.ite h.upd.setTimer h.upd)
theorem MemWf.recordSeal {s} (h : MemWf s) : MemWf s.recordSeal := by
  unfold State.recordSeal
  dsimp only
  split
  · exact h
  · exact .ite h h.wf.wf.wf.wf.wf.upd.vaultQueue.evRecord.raiseIf.vaultBegin
theorem MemWf.sealSample {s} (h : MemWf s) {level} : MemWf (s.sealSample level) :=
  .ite (.ite ((MemWf.ite h.upd.upd h.upd.upd.wf).upd) (.ite h.upd.upd h.upd.upd.wf))
    ((MemWf.ite ((MemWf.ite h.upd.upd h.upd.upd.wf).upd) (.ite h.upd.upd h.upd.upd.wf)).recordSeal)
theorem MemWf.writeParCfg {s} (h : MemWf s) {src v} : MemWf (s.writeParCfg src v).st :=
  .ite_st h.refuse.res h.writeBut.vaultQueue.vaultBegin.res
theorem MemWf.writePar {s} (h : MemWf s) {src a v} : MemWf (s.writePar src a v).st := .ite_st h.writeParCfg h.writeReg.ok

/-! ### Commands of the flash store -/

theorem MemWf.flcEnd {s} (h : MemWf s) {e} : MemWf (s.flcEnd e) := by
  unfold State.flcEnd
  dsimp only
  refine MemWf.vaultBegin ?_
  refine MemWf.flcGrant ?_
  refine MemWf.recount ?_
  split
  · exact h.regDone
  · exact h.pageEnd
  · exact h.fsvDone
  · exact h
theorem MemWf.flcDone {s} (h : MemWf s) {e} : MemWf (s.flcDone e) := .ite h.upd.recount.vaultBegin h.flcEnd
theorem MemWf.flcResume {s} (h : MemWf s) : MemWf s.flcResume := by
  unfold State.flcResume
  split
  · exact .ite h h.upd.flcEnd
  · exact h
theorem MemWf.dieComplete {s} (h : MemWf s) {o} : MemWf (s.dieComplete o) := by
  unfold State.dieComplete
  dsimp only
  split
  · exact h
  · split
    · exact h.dieEnd.dieFree.flcDone
    · exact h.dieEnd.dieFree.recount.flcGrant.vaultBegin
theorem MemWf.tailAgain {s} (h : MemWf s) {j} : MemWf (s.tailAgain j) := by
  unfold State.tailAgain
  split
  · exact h.upd
  · exact h
theorem MemWf.dieCut {s} (h : MemWf s) {j err} : MemWf (s.dieCut j err) := h.interrupt.dieFree.tailAgain.flcDone
theorem MemWf.abortJobs {s} (h : MemWf s) {js} : MemWf (s.abortJobs js) :=
  match js with
  | [] => h
  | _ :: _ => h.upd.tailAgain.flcEnd.abortJobs
theorem MemWf.showPwrfail {s} (h : MemWf s) {low} : MemWf (s.showPwrfail low) := h.wf.wf.wf
theorem MemWf.flcPowerFail {s} (h : MemWf s) : MemWf s.flcPowerFail := by
  unfold State.flcPowerFail
  dsimp only
  refine MemWf.abortJobs ?_
  split
  · exact .ite h.wf.dieCut h.wf
  · exact h.wf
theorem MemWf.pwrfail {s} (h : MemWf s) : MemWf s.pwrfail :=
  (MemWf.ite h.wf.wf.upd.upd.flush.vaultQueue h.wf.wf.upd.upd.flush).flcPowerFail.vaultBegin
theorem MemWf.pwrGood {s} (h : MemWf s) : MemWf s.pwrGood := h.upd.showPwrfail.evRecord.flcGrant
theorem MemWf.toFlash {s} (h : MemWf s) {f} (hf : ∀ u, MemWf u → MemWf (f u).st) : MemWf (s.toFlash f) := .ite (hf _ h) h

/-! ### Gauges -/

theorem MemWf.gauDone {s} (h : MemWf s) {g} : MemWf (s.gauDone g) := h.wf.upd
theorem MemWf.gauNext {s} (h : MemWf s) {g n wraps} : MemWf (s.gauNext g n wraps) := .ite h.wf (.ite h.wf.wf h.wf.gauDone)
theorem MemWf.gauStore {s} (h : MemWf s) {g ws} : MemWf (s.gauStore g ws) := .ite h.upd.gauNext (.ite h.incSat.upd h.upd)
theorem MemWf.gauMark {s} (h : MemWf s) {g} : MemWf (s.gauMark g) := h.upd
theorem MemWf.gauPost {s} (h : MemWf s) {g} : MemWf (s.gauPost g) := .ite h (.ite h.gauDone h.upd)
theorem MemWf.gauFire {s} (h : MemWf s) {g head} : MemWf (s.gauFire g head) :=
  .ite (.ite ((MemWf.ite h.wf.upd.raiseIf.trigger h.wf.upd.raiseIf).upd) (.ite h.wf.upd.raiseIf.trigger h.wf.upd.raiseIf))
    (.ite ((MemWf.ite h.wf.upd.raiseIf.trigger h.wf.upd.raiseIf).gauPost)
    ((MemWf.ite h.wf.upd.raiseIf.trigger h.wf.upd.raiseIf).gauMark.gauPost))
theorem MemWf.gauFlush {s} (h : MemWf s) {g} : MemWf (s.gauFlush g) := .ite h.gauFire h
theorem MemWf.gauCountPost {s} (h : MemWf s) {g} : MemWf (s.gauCountPost g) := by
  unfold State.gauCountPost
  split
  · exact h
  · exact .ite h.gauDone h.upd
theorem MemWf.gauTrace {s} (h : MemWf s) {g x3} : MemWf (s.gauTrace g x3) :=
  .ite h.upd (.ite h.gauStore.upd.gauPost (.ite h.gauStore h.gauStore.gauCountPost))
theorem MemWf.gauObserve {s} (h : MemWf s) {g x3} : MemWf (s.gauObserve g x3) :=
  (MemWf.ite h.gauCount.gauCount.gauCount.gauCount.upd h.gauCount.gauCount.gauCount.gauCount).gauTrace
theorem MemWf.gauClear {s} (h : MemWf s) {g} : MemWf (s.gauClear g) := h.wf.wf.wf.wf.wf
theorem MemWf.writeKeeping {s} (h : MemWf s) {a v keep} : MemWf (s.writeKeeping a v keep) := h.writeReg
theorem MemWf.writeGauCtl {s} (h : MemWf s) {g v} : MemWf (s.writeGauCtl g v).st :=
  .ite_st ((MemWf.ite h.writeKeeping.gauClear h.writeKeeping).refused) ((MemWf.ite h.writeKeeping.gauClear h.writeKeeping).ok)
theorem MemWf.gauStart {s} (h : MemWf s) {g} : MemWf (s.gauStart g) := h.setReg.upd
theorem MemWf.writeTraceCtl {s} (h : MemWf s) {g v} : MemWf (s.writeTraceCtl g v).st :=
  .ite_st ((MemWf.ite ((MemWf.ite h.writeKeeping.gauStart h.writeKeeping).gauDone)
    (.ite h.writeKeeping.gauStart h.writeKeeping)).refused) ((MemWf.ite
    ((MemWf.ite h.writeKeeping.gauStart h.writeKeeping).gauDone) (.ite h.writeKeeping.gauStart h.writeKeeping)).ok)
theorem MemWf.gauWrite {s} (h : MemWf s) {g off v} : MemWf (s.gauWrite g off v).st :=
  .ite_st h.gauFlush.writeGauCtl (.ite_st h.gauFlush.writeTraceCtl
    (.ite_st (.ite_st h.gauFlush.refused h.gauFlush.writeReg.ok) (.ite_st (.ite_st h.gauFlush.refused h.gauFlush.writeReg.ok)
    h.gauFlush.writeReg.ok)))
theorem MemWf.resetGauges {s} (h : MemWf s) {isl} : MemWf (s.resetGauges isl) := h.upd

/-! ### General I/O -/

theorem MemWf.setPwm {s} (h : MemWf s) {c v} : MemWf (s.setPwm c v) := h.upd
theorem MemWf.setUart {s} (h : MemWf s) {u v} : MemWf (s.setUart u v) := h.upd
theorem MemWf.setI2c {s} (h : MemWf s) {m v} : MemWf (s.setI2c m v) := h.upd
theorem MemWf.setSpi {s} (h : MemWf s) {m v} : MemWf (s.setSpi m v) := h.upd
theorem MemWf.edgeEvent {s} (h : MemWf s) : MemWf s.edgeEvent := h.raiseIf
theorem MemWf.serialEvent {s} (h : MemWf s) : MemWf s.serialEvent := h.raiseIf
theorem MemWf.outBits {s} (h : MemWf s) {b v up} : MemWf (s.outBits b v up) := h.setReg
theorem MemWf.pinLevel {s} (h : MemWf s) {b i level} : MemWf (s.pinLevel b i level) := .ite h.setBit.setBit.edgeEvent h.setBit
theorem MemWf.pwmLoad {s} (h : MemWf s) {c} : MemWf (s.pwmLoad c) := h.setPwm
theorem MemWf.writePwmCfg {s} (h : MemWf s) {c v} : MemWf (s.writePwmCfg c v).st :=
  (MemWf.ite h.writeBut.pwmLoad h.writeBut).setPwm.res
theorem MemWf.pwmSafe {s} (h : MemWf s) : MemWf s.pwmSafe := MemWf.foldl (fun _ _ h' => h'.setPwm) h
theorem MemWf.uartNext {s} (h : MemWf s) {u} : MemWf (s.uartNext u) := by
  unfold State.uartNext
  dsimp only
  split
  · exact .ite h.setUart h
  · exact h
theorem MemWf.uartTx {s} (h : MemWf s) {u b} : MemWf (s.uartTx u b).st := .ite_st h.refused h.setUart.uartNext.ok
theorem MemWf.uartSent {s} (h : MemWf s) {u} : MemWf (s.uartSent u) := h.setUart.uartNext
theorem MemWf.uartRx {s} (h : MemWf s) {u b stopOk parOk low} : MemWf (s.uartRx u b stopOk parOk low) :=
  .ite h (.ite (.ite ((MemWf.ite ((MemWf.ite h.incSat h).incSat) (.ite h.incSat h)).wf.serialEvent)
    (.ite ((MemWf.ite h.incSat h).incSat) (.ite h.incSat h))) (.ite
    ((MemWf.ite ((MemWf.ite ((MemWf.ite h.incSat h).incSat) (.ite h.incSat h)).wf.serialEvent)
    (.ite ((MemWf.ite h.incSat h).incSat) (.ite h.incSat h))).incSat)
    ((MemWf.ite ((MemWf.ite ((MemWf.ite h.incSat h).incSat) (.ite h.incSat h)).wf.serialEvent)
    (.ite ((MemWf.ite h.incSat h).incSat) (.ite h.incSat h))).setUart)))
theorem MemWf.rxdPop {s} (h : MemWf s) {u} : MemWf (s.rxdPop u) := h.setUart
theorem MemWf.writeUartCfg {s} (h : MemWf s) {u v} : MemWf (s.writeUartCfg u v).st := .ite_st h.refused h.writeBut
theorem MemWf.i2cStart {s} (h : MemWf s) {m v} : MemWf (s.i2cStart m v).st :=
  .ite_st h.refused (.ite_st h.refused (.ite_st h.refused (.ite_st h.ok h.setI2c.ok)))
theorem MemWf.i2cEnd {s} (h : MemWf s) {m r n got} : MemWf (s.i2cEnd m r n got) := by
  unfold State.i2cEnd
  dsimp only
  split
  · exact h
  · exact h.setI2c.wf.serialEvent
theorem MemWf.i2cPush {s} (h : MemWf s) {m b} : MemWf (s.i2cPush m b).st := .ite_st h.refused h.setI2c.ok
theorem MemWf.i2cPop {s} (h : MemWf s) {m} : MemWf (s.i2cPop m) := h.setI2c
theorem MemWf.spiStart {s} (h : MemWf s) {m v} : MemWf (s.spiStart m v).st :=
  .ite_st h.refused (.ite_st h.refused (.ite_st h.refused (.ite_st h.ok h.setSpi.ok)))
theorem MemWf.spiEnd {s} (h : MemWf s) {m got} : MemWf (s.spiEnd m got) := by
  unfold State.spiEnd
  dsimp only
  split
  · exact h
  · exact h.setSpi.serialEvent
theorem MemWf.spiPush {s} (h : MemWf s) {m b} : MemWf (s.spiPush m b).st := .ite_st h.refused h.setSpi.ok
theorem MemWf.spiPop {s} (h : MemWf s) {m} : MemWf (s.spiPop m) := h.setSpi
theorem MemWf.trigIn {s} (h : MemWf s) {level} : MemWf (s.trigIn level) := .ite h.wf.wf.upd.edgeEvent h.wf
theorem MemWf.writeTrig {s} (h : MemWf s) {v} : MemWf (s.writeTrig v).st := (MemWf.ite h.writeBut.upd h.writeBut).res
theorem MemWf.writeGio {s} (h : MemWf s) {src a v} : MemWf (s.writeGio src a v).st :=
  .ite_st h.outBits.ok (.ite_st h.outBits.ok (.ite_st h.writeTrig
    (.ite_st h.writePwmCfg (.ite_st h.refused (.ite_st (.ite_st h.writeUartCfg (.ite_st h.uartTx h.writeReg.ok))
    (.ite_st h.i2cStart (.ite_st h.i2cPush (.ite_st h.spiStart (.ite_st h.spiPush h.writeOr)))))))))
theorem MemWf.gioRead {s} (h : MemWf s) {a} : MemWf (s.gioRead a) := .ite h.rxdPop (.ite h.i2cPop (.ite h.spiPop h))
theorem MemWf.gioStep {s} (h : MemWf s) {t} (ht : MemWf t) : Keeps (gioStep s t) := MemWf.ite_next ht h

/-! ### Resets -/

theorem MemWf.holdShells {s} (h : MemWf s) : MemWf s.holdShells := .ite h.upd h
theorem MemWf.coreReset {s} (h : MemWf s) : MemWf s.coreReset :=
  MemWf.foldl (fun _ _ h' => h'.sampled) ((MemWf.foldl (fun _ _ h' => h'.wf)
    ((MemWf.foldl (fun _ _ h' => h'.resetDeck) h).resetFlash.resetCvp.upd)).upd)
theorem MemWf.holdWdt {s} (h : MemWf s) : MemWf s.holdWdt := h.wf.wf
theorem MemWf.sysReset {s} (h : MemWf s) {cause} : MemWf (s.sysReset cause) :=
  (MemWf.ite h.coreReset.upd.wf h.coreReset).wf.upd.latchReset.holdWdt.wf.wf.upd.keyBegin
theorem MemWf.sysResetNow {s} (h : MemWf s) {cause} : MemWf (s.sysResetNow cause) :=
  .ite h (.ite h.latchReset.holdWdt h.sysReset)
theorem MemWf.latchLive {s} (h : MemWf s) : MemWf s.latchLive :=
  .ite ((MemWf.foldl (fun _ _ h' => .ite h'.latch h') h).latch) (MemWf.foldl (fun _ _ h' => .ite h'.latch h') h)
theorem MemWf.porReset {s} (_ : MemWf s) {pwrLow} : MemWf (s.porReset pwrLow) :=
  MemWf.reset.upd.wf.showPwrfail.latchReset.latchLive
theorem MemWf.flashCut {s} (h : MemWf s) {j} : MemWf (s.flashCut j) := by
  unfold State.flashCut
  split
  · exact h.pageEnd
  · exact h.fsvDone
  · exact h
theorem MemWf.islandReset {s} (h : MemWf s) {isl} : MemWf (s.islandReset isl) :=
  (MemWf.foldl (fun _ _ h' => h'.wf) (MemWf.foldl (fun _ _ h' => h'.flashCut)
    (.ite ((MemWf.ite ((MemWf.ite h.resetDeck h).resetFlash.upd) (.ite ((MemWf.ite h.resetDeck h).resetCvp)
    (.ite h.resetDeck h))).upd.wf) ((MemWf.ite ((MemWf.ite h.resetDeck h).resetFlash.upd)
    (.ite ((MemWf.ite h.resetDeck h).resetCvp) (.ite h.resetDeck h))).upd)))).resetGauges
theorem MemWf.powerLoss {s} (h : MemWf s) {isl} : MemWf (s.powerLoss isl) := by
  unfold State.powerLoss
  refine .ite ⟨h.ispace, ?_, ?_, h.deck, h.ecc⟩ (.ite h.powerUpDeck h)
  · exact SMap.wf_drop s.spad _ (fun k => k / 0x10000 == isl) h.spad
  · exact SMap.wf_drop s.mbox _ (fun k => k / 0x1000 == isl) h.mbox

/-! ### Island actions -/

theorem MemWf.leaveQ {s} (h : MemWf s) {q} : MemWf (s.leaveQ q) := by
  unfold State.leaveQ
  split
  · exact h.abortAll.dropOrphans
  · exact h.dropOrphans.quiesceNow
theorem MemWf.beginAction {s} (h : MemWf s) {isl a} : MemWf (s.beginAction isl a) :=
  .ite h.setShell.wf (.ite h.setShell.wf.leaveQ h.setShell.wf.quiesceNow)
theorem MemWf.writeIslCmd {s} (h : MemWf s) {src v} : MemWf (s.writeIslCmd src v).st := by
  unfold State.writeIslCmd
  dsimp only
  refine MemWf.ite_st h.wf.refused ?_
  split
  · exact h.beginAction.ok
  · exact h.ok
theorem MemWf.closeNis {s} (h : MemWf s) {isl ns} : MemWf (s.closeNis isl ns) :=
  match ns with
  | [] => h
  | _ :: _ => h.setShell.closeNis
theorem MemWf.shellOffline {s} (h : MemWf s) {isl} : MemWf (s.shellOffline isl) := by
  unfold State.shellOffline
  dsimp only
  split
  · exact h.setShell.islandReset.wf
  · exact h.setShell.islandReset
  · exact .ite h.setShell.islandReset h.setShell
theorem MemWf.backOnline {s} (h : MemWf s) {isl} : MemWf (s.backOnline isl) := h.setShell.setReqs.admitHeld.wf
theorem MemWf.actionEnd {s} (h : MemWf s) {isl a} : MemWf (s.actionEnd isl a) := by
  unfold State.actionEnd
  dsimp only
  refine MemWf.clkEvent ?_
  refine MemWf.wf ?_
  split
  · exact h.setShell.wf
  · exact h.setShell.powerLoss.wf
  · exact h.backOnline
theorem MemWf.writeDiv {s} (h : MemWf s) {src isl v} : MemWf (s.writeDiv src isl v).st :=
  .ite_st h.wf.refused (.ite_st h.ok (.ite_st h.wf.ok (.ite_st h.ok (.ite_st h.wf.refused (.ite_st h.wf.refused h.wf.ok)))))

/-! ### Accesses of a pier -/

theorem MemWf.startAccess {s} (h : MemWf s) {th ni a op} : MemWf (s.startAccess th ni a op) := h.upd.send
theorem MemWf.load {s} (h : MemWf s) {th ok w rb pi disp n split slots kind} : MemWf
    (s.load th ok w rb pi disp n split slots kind) := by
  unfold State.load
  dsimp only
  refine h.issue fun _ h' => ?_
  refine MemWf.ite_out trivial ?_
  split
  · exact trivial
  · exact MemWf.ite_out (MemWf.ite_out trivial h'.startAccess) ((MemWf.ite h'.countSplit h').upd)
theorem MemWf.store {s} (h : MemWf s) {th ok w rb pi disp n split slots v} : MemWf
    (s.store th ok w rb pi disp n split slots v) := by
  unfold State.store
  dsimp only
  refine h.issue fun _ h' => ?_
  refine MemWf.ite_out trivial ?_
  split
  · exact trivial
  · exact MemWf.ite_out (MemWf.ite_out trivial h'.send.upd) ((MemWf.ite h'.localWr.countSplit h'.localWr).upd)
theorem MemWf.mboxAccess {s} (h : MemWf s) {th sz w rb off kind op} : MemWf (s.mboxAccess th sz w rb off kind op) :=
  h.issue (fun _ h' => MemWf.ite_out trivial (MemWf.ite_out trivial (MemWf.ite_out trivial h'.startAccess)))
theorem MemWf.pierIn {s} (h : MemWf s) {p off} : MemWf (s.pierIn p off).2 := h.setReg.snd

/-! ### The Viaduct's registers -/

theorem MemWf.writeRtSel {s} (h : MemWf s) {v} : MemWf (s.writeRtSel v).st := .ite_st h.wf.refused h.wf.writeReg.ok
theorem MemWf.writeRtData {s} (h : MemWf s) {v} : MemWf (s.writeRtData v).st :=
  .ite_st h.refused (.ite_st h.setRoute.ok (.ite_st h.setRoute.ok h.wf.wf.wf.wf.raiseIf.res))
theorem MemWf.writeVia {s} (h : MemWf s) {a v} : MemWf (s.writeVia a v).st :=
  .ite_st h.writeRtSel (.ite_st h.writeRtData h.writeOr)

/-! ### Watchdog and BOOT registers -/

theorem MemWf.wdtRestart {s} (h : MemWf s) : MemWf s.wdtRestart := (MemWf.ite h.notQuiet h).wf.wf.upd
theorem MemWf.pet {s} (h : MemWf s) : MemWf s.pet := .ite h h.wdtRestart
theorem MemWf.writeWdtKey {s} (h : MemWf s) {src v} : MemWf (s.writeWdtKey src v).st :=
  .ite_st h.refused (.ite_st h.wf.ok ((MemWf.ite h.wf.pet h.wf.incSat).ok))
theorem MemWf.writeWdtCfg {s} (h : MemWf s) {v} : MemWf (s.writeWdtCfg v).st := .ite_st h.refused h.writeBut
theorem MemWf.writeWdt {s} (h : MemWf s) {src a v} : MemWf (s.writeWdt src a v).st :=
  .ite_st h.writeWdtKey (.ite_st h.writeWdtCfg h.writeReg.ok)
theorem MemWf.wdtStage1 {s} (h : MemWf s) : MemWf s.wdtStage1 := (h.wf.notQuiet.wf.upd.toPier (fun _ h' => h'.cause)).pwmSafe
theorem MemWf.clearTrial {s} (h : MemWf s) : MemWf s.clearTrial := h.wf.wf
theorem MemWf.endTrial {s} (h : MemWf s) {reject} : MemWf (s.endTrial reject) := (MemWf.ite h.wf h.wf).clearTrial.wf
theorem MemWf.writeConfirm {s} (h : MemWf s) {src v} : MemWf (s.writeConfirm src v).st :=
  .ite_st h.refused (.ite_st h.refused (.ite_st h.refused h.endTrial.ok))
theorem MemWf.writeTrialCtl {s} (h : MemWf s) {src v} : MemWf (s.writeTrialCtl src v).st :=
  .ite_st h.refuse.res (.ite_st h.ok (.ite_st h.refused h.endTrial.ok))
theorem MemWf.writeSysreset {s} (h : MemWf s) {src v} : MemWf (s.writeSysreset src v).st :=
  .ite_st h.refused (.ite_st h.refused h.sysResetNow.ok)
theorem MemWf.writeBoot {s} (h : MemWf s) {src a v} : MemWf (s.writeBoot src a v).st :=
  .ite_st h.writeConfirm (.ite_st h.writeTrialCtl (.ite_st h.writeSysreset h.writeReg.ok))
theorem MemWf.toBoot {s} (h : MemWf s) {f} (hf : ∀ u, MemWf u → MemWf (f u).st) : MemWf (s.toBoot f) := .ite (hf _ h) h

/-! ### A register access at its island -/

theorem MemWf.writeDisp {s} (h : MemWf s) {src a v} : MemWf (s.writeDisp src a v).st :=
  .ite_st h.submit (.ite_st h.abortWrite h.writeReg.ok)
theorem MemWf.writeDeckReg {s} (h : MemWf s) {a v} : MemWf (s.writeDeckReg a v).st := by
  unfold State.writeDeckReg
  exact .ite_st h.writeDeckInit (.ite_st h.writeInj h.writeReg.ok)
theorem MemWf.writeDmaReg {s} (h : MemWf s) {a v} : MemWf (s.writeDmaReg a v).st :=
  .ite_st h.writeReg.ok (.ite_st h.writeDmaDesc (.ite_st h.writeDmaCtl h.writeReg.ok))
theorem MemWf.writeClocks {s} (h : MemWf s) {src a v} : MemWf (s.writeClocks src a v).st :=
  .ite_st h.writeIslCmd (.ite_st h.writeDiv h.writeClk)
theorem MemWf.writeAonBlock {s} (h : MemWf s) {src a v} : MemWf (s.writeAonBlock src a v).st :=
  .ite_st h.writePar (.ite_st h.writeAon h.writeWdt)
theorem MemWf.busWrite {s} (h : MemWf s) {src a v} : MemWf (s.busWrite src a v).st :=
  .ite_st h.ok (.ite_st h.pierWrite (.ite_st (.ite_st h.writeSpanCtl h.writeReg.ok)
    (.ite_st h.writeDisp (.ite_st h.writeLdr (.ite_st h.writeDeckReg
    (.ite_st h.writeDmaReg (.ite_st h.writeVia (.ite_st h.gauWrite
    (.ite_st h.writeClocks (.ite_st h.writeFlc (.ite_st h.writeRec
    (.ite_st h.writeAonBlock (.ite_st h.writeBoot (.ite_st h.cvpWrite
    (.ite_st h.abtWrite (.ite_st h.writeEth (.ite_st h.writeFsv (.ite_st h.writePnl h.writeGio))))))))))))))))))
theorem MemWf.readEffect {s} (h : MemWf s) {src a} : MemWf (s.readEffect src a) :=
  .ite ((MemWf.ite h.setReg h).readBuf) (.ite ((MemWf.ite h.setReg h).recRead)
    (.ite ((MemWf.ite h.setReg h).ethRead) (.ite ((MemWf.ite h.setReg h).gioRead) (.ite h.setReg h))))
theorem MemWf.busRead {s} (h : MemWf s) {src a} : MemWf (s.busRead src a).2 := .ite_snd h.snd h.readEffect.snd
theorem MemWf.ioRead {s} (h : MemWf s) {src ni a} : MemWf (s.ioRead src ni a).2 := by
  unfold State.ioRead
  have ht : MemWf (s.turnAway ni (.ioRd a)).2 := h.turnAway
  generalize s.turnAway ni (.ioRd a) = r at ht ⊢
  obtain ⟨_ | e, u⟩ := r
  · exact .ite_snd ht.busRead ht.busRead.loseResponse
  · exact ht
theorem MemWf.ioWrite {s} (h : MemWf s) {src ni a v} : MemWf (s.ioWrite src ni a v).2 := by
  unfold State.ioWrite
  have ht : MemWf (s.turnAway ni (.ioWr a v)).2 := h.turnAway
  generalize s.turnAway ni (.ioWr a v) = r at ht ⊢
  obtain ⟨_ | e, u⟩ := r
  · exact .ite_snd ht.busWrite ht.busWrite.loseResponse
  · exact ht

/-! ### Requests served and responses delivered -/

theorem MemWf.setReq {s} (h : MemWf s) {r} : MemWf (s.setReq r) := h.setReqs
theorem MemWf.dropReq {s} (h : MemWf s) {id} : MemWf (s.dropReq id) := h.setReqs
theorem MemWf.serve {s} (h : MemWf s) {src op} : MemWf (s.serve src op).2 := by
  unfold State.serve
  dsimp only
  split
  · exact h.deckRead.snd
  · exact h.deckWrite.snd
  · exact h.snd
  · exact h.mboxWr.snd
  · exact h.snd
  · exact h.spadWr.snd
  · exact h.busRead.snd
  · exact h.busWrite.snd
  · exact h.onCvp.snd
  · exact h.onCvp.snd
  · exact .ite_snd h.snd h.snd
  · exact .ite_snd h.snd h.upd.snd
theorem MemWf.serveReq {s} (h : MemWf s) {r} : MemWf (s.serveReq r).2 := by
  unfold State.serveReq
  split
  · exact h.snd
  · exact h.serve
theorem MemWf.respond {s} (h : MemWf s) {r p} : MemWf (s.respond r p) := by
  unfold State.respond
  dsimp only
  split
  · exact h
  · exact .ite h.setReq.launch h.setReq.incSat
theorem MemWf.land {s} (h : MemWf s) {k} : MemWf (s.land k) := by
  unfold State.land
  dsimp only
  split
  · exact h
  · exact .ite h.setReq h.upd.setReq
theorem MemWf.netCycle {s} (h : MemWf s) : MemWf s.netCycle := MemWf.foldl (fun _ _ h' => h'.land) h.upd
theorem MemWf.carry {s} (h : MemWf s) {k fuel} : MemWf (s.carry k fuel) :=
  match fuel with
  | 0 => h
  | _ + 1 => .ite h.netCycle.carry h
theorem MemWf.bring {s} (h : MemWf s) {k} : MemWf (s.bring k) := h.carry
theorem MemWf.discardReq {s} (h : MemWf s) {r d} : MemWf (s.discardReq r d) := .ite h.discard.respond h.discard.setReq
theorem MemWf.notePromoted {s} (h : MemWf s) {r w} : MemWf (s.notePromoted r w) := .ite h.incSat h
theorem MemWf.atNi {s} (h : MemWf s) {r d w} : MemWf (s.atNi r d w) := by
  unfold State.atNi
  dsimp only
  refine MemWf.ite h ?_
  refine MemWf.ite h.discardReq ?_
  split
  · exact h
  · exact h.incSat.respond
  · exact .ite h (.ite h.notePromoted.serveReq.respond.dispResume h.notePromoted.serveReq.respond)
theorem MemWf.arrive {s} (h : MemWf s) {id d w kind} : MemWf (s.arrive id d w kind) := by
  unfold State.arrive
  dsimp only
  split
  · exact h
  · refine MemWf.ite h ?_
    refine MemWf.ite h.atNi ?_
    split
    · exact h.bring
    · exact h.bring.atNi
theorem MemWf.storeDone {s} (h : MemWf s) {th e} : MemWf (s.storeDone th e) := h.upd
theorem MemWf.tookData {s} (h : MemWf s) {w v} : MemWf (s.tookData w v) := by
  unfold State.tookData
  split
  · exact h.finishAccess
  · exact h.storeDone
  · exact h.dmaFetched
  · exact h.dmaGot
  · exact h.dmaAcked
  · exact h.sampled
  · exact h
theorem MemWf.tookError {s} (h : MemWf s) {w e} : MemWf (s.tookError w e) := by
  unfold State.tookError
  dsimp only
  split
  · split
    · exact h.failAccess
    · exact h
  · exact h.storeDone
  · exact h.dmaFetched
  · exact h.dmaReadErr
  · exact h.dmaWriteErr
  · exact h.sampled
  · exact h
theorem MemWf.deliver {s} (h : MemWf s) {r p} : MemWf (s.deliver r p) := by
  unfold State.deliver
  dsimp only
  refine MemWf.ite ((MemWf.ite h.dropReq.admitHeld h.dropReq).incSat) ?_
  split
  · exact (MemWf.ite h.dropReq.admitHeld h.dropReq).tookData
  · exact (MemWf.ite h.dropReq.admitHeld h.dropReq).tookData
  · exact (MemWf.ite h.dropReq.admitHeld h.dropReq).tookError
  · exact (MemWf.ite h.dropReq.admitHeld h.dropReq).tookError
theorem MemWf.atShell {s} (h : MemWf s) {r p d} : MemWf (s.atShell r p d) := .ite h.discard.setReq h.deliver
theorem MemWf.receive {s} (h : MemWf s) {id d kind} : MemWf (s.receive id d kind) := by
  unfold State.receive
  dsimp only
  split
  · exact h
  · split
    · exact h
    · refine MemWf.ite h ?_
      refine MemWf.ite h.atShell ?_
      split
      · exact h.bring
      · exact .ite h.bring.atShell h.bring
theorem MemWf.abandon {s} (h : MemWf s) {r e} : MemWf (s.abandon r e) := h.setReq.tookError
theorem MemWf.abandonAll {s} (h : MemWf s) {rs} : MemWf (s.abandonAll rs) :=
  match rs with
  | [] => h
  | _ :: _ => h.abandon.incSat.abandonAll
theorem MemWf.answerOffline {s} (h : MemWf s) {rs} : MemWf (s.answerOffline rs) :=
  match rs with
  | [] => h
  | _ :: _ => h.respond.incSat.incSat.answerOffline
theorem MemWf.lap {s} (h : MemWf s) {p n acc take} (htake : ∀ u, MemWf u → ∀ a2, MemWf (take u a2).2) : MemWf
  (s.lap p n acc take).2 :=
  match n with
  | 0 => h.snd
  | _ + 1 => .ite_snd (h.lap htake) (.ite_snd (h.dropDelivery.lap htake) ((htake _ h _).lap htake))
theorem MemWf.removed {r : Bool × State} (h : MemWf r.2) : MemWf (State.removed r) := .ite h h.incSat
theorem MemWf.eventAt {s} (h : MemWf s) {e p} : MemWf (State.eventAt e s p).2 := .ite_snd h.acceptEvent.snd h.snd
theorem MemWf.causeAt {s} (h : MemWf s) {c info sub p} : MemWf (State.causeAt c info sub s p).2 :=
  (MemWf.foldl (fun _ _ h' => h'.setBit.upd) h).snd
theorem MemWf.spanFaultAt {s} (h : MemWf s) {th info} : MemWf (s.spanFaultAt th info) :=
  .ite h.dropDelivery (.ite h.incSat h.setBit.upd)
theorem MemWf.roundTrip {s} (h : MemWf s) {bad stop take} (htake : ∀ u, MemWf u → ∀ p, MemWf (take u p).2) :
    MemWf (s.roundTrip bad stop take) := .ite (h.lap htake).discard (h.lap htake).removed

/-! ### Commands of the MACs -/

theorem MemWf.rxPause {s} (h : MemWf s) {m quanta} : MemWf (s.rxPause m quanta) := h.drop.wf.txNext
theorem MemWf.rxUdp {s} (h : MemWf s) {m hw src dst bcast p} : MemWf (s.rxUdp m hw src dst bcast p) :=
  .ite h.drop (.ite h.fsvDatagram (.ite h.rxDhcp (.ite (.ite h.drop h.rxFw) h.drop)))
theorem MemWf.rxIp {s} (h : MemWf s) {m hw b} : MemWf (s.rxIp m hw b) :=
  .ite h.drop (.ite h.drop (.ite h.drop (.ite h.rxIcmp (.ite h.rxUdp h.drop))))
theorem MemWf.rxFrame {s} (h : MemWf s) {m f fcsOk full} : MemWf (s.rxFrame m f fcsOk full) := by
  unfold State.rxFrame
  dsimp only
  split
  · exact h.drop
  · exact .ite h.incWrap.rxPause (.ite h.incWrap (.ite h.incWrap.rxArp h.incWrap.rxIp))

/-! ### The Fobex opcodes -/

theorem MemWf.onReady {s} (h : MemWf s) {op f} (hf : ∀ a1, MemWf (f a1)) : Keeps (s.onReady op f) := by
  unfold State.onReady
  split
  · exact hf _
  · exact h
theorem MemWf.swapReq {s} (h : MemWf s) {r r'} : MemWf (s.swapReq r r') := h.upd
theorem MemWf.newSession {s} (h : MemWf s) {k r} : MemWf (s.newSession k r).2 := h.upd.setSess.snd
theorem MemWf.runHello {s} (h : MemWf s) {r} : MemWf (s.runHello r) := by
  unfold State.runHello
  dsimp only
  refine MemWf.ite h.fail ?_
  refine MemWf.ite h.fail ?_
  refine MemWf.ite h.finish ?_
  refine MemWf.ite h.swapReq.finish ?_
  split
  · exact h.fail
  · exact h.newSession.swapReq.finish
theorem MemWf.runBye {s} (h : MemWf s) {r} : MemWf (s.runBye r) := by
  unfold State.runBye
  dsimp only
  refine MemWf.ite h.fail ?_
  split
  · exact h.finish.endSession
  · exact h.finish
theorem MemWf.runPresence {s} (h : MemWf s) {r} : MemWf (s.runPresence r) := .ite h.fail h.finish
theorem MemWf.runClose {s} (h : MemWf s) {r} : MemWf (s.runClose r) := .ite h.fail (.ite h.fail h.closePresence.finish)
theorem MemWf.runReset {s} (h : MemWf s) {r} : MemWf (s.runReset r) := .ite h.fail (.ite h.fail h.finish.upd)
theorem MemWf.readAll {s} (h : MemWf s) {as left got} : MemWf (s.readAll as left got).2.2 := by
  induction as generalizing s left got with
  | nil => exact h
  | cons a t ih =>
    unfold State.readAll
    split
    · exact h
    · have hr : MemWf (s.ioRead .fobex niFobex a).2 := h.ioRead
      generalize s.ioRead .fobex niFobex a = r at hr ⊢
      obtain ⟨v | e, u⟩ := r
      · exact ih hr
      · exact hr
theorem MemWf.runReadIo {s} (h : MemWf s) {r cut} : MemWf (s.runReadIo r cut) :=
  .ite h.fail (.ite h.fail (.ite h.fail (.ite h.fail h.readAll.finish)))
theorem MemWf.writeAll {s} (h : MemWf s) {rs left n} : MemWf (s.writeAll rs left n).2.2 := by
  induction rs generalizing s left n with
  | nil => exact h
  | cons a t ih =>
    obtain ⟨a, v⟩ := a
    unfold State.writeAll
    split
    · exact h
    · have hw : MemWf (s.ioWrite .fobex niFobex a (BitVec.ofNat 32 v)).2 := h.ioWrite
      generalize s.ioWrite .fobex niFobex a (BitVec.ofNat 32 v) = r at hw ⊢
      obtain ⟨code | e, u⟩ := r
      · dsimp only
        split
        · exact ih hw
        · exact hw
      · exact hw
theorem MemWf.runWriteIo {s} (h : MemWf s) {r cut} : MemWf (s.runWriteIo r cut) := .ite h.fail (.ite h.fail h.writeAll.finish)
theorem MemWf.runReadHist {s} (h : MemWf s) {r} : MemWf (s.runReadHist r) := by
  unfold State.runReadHist
  dsimp only
  refine MemWf.ite h.fail ?_
  split
  · exact h.fail
  · exact .ite h.fail h.finish
theorem MemWf.runReadExtremes {s} (h : MemWf s) {r} : MemWf (s.runReadExtremes r) :=
  .ite h.fail (.ite h.fail (.ite h.fail h.finish))
theorem MemWf.runReadLog {s} (h : MemWf s) {r} : MemWf (s.runReadLog r) := by
  unfold State.runReadLog
  dsimp only
  refine MemWf.ite h.fail ?_
  refine MemWf.ite h.fail ?_
  refine MemWf.ite h.fail ?_
  split
  · exact .ite h.logReply h.startFlash.fsvRequest
  · exact h.startFlash.fsvRequest
theorem MemWf.runStreamOpen {s} (h : MemWf s) {r} : MemWf (s.runStreamOpen r) :=
  .ite h.fail (.ite h.fail ((MemWf.ite h.setStrm h.setStrm.streamEvent).finish))
theorem MemWf.runStreamClose {s} (h : MemWf s) {r} : MemWf (s.runStreamClose r) :=
  .ite h.fail (.ite h.fail h.closeStream.finish)
theorem MemWf.stepTime {s} (h : MemWf s) {r sec frac d} : MemWf (s.stepTime r sec frac d) :=
  .ite h.writeAon.fail (.ite h.writeAon.writeAon.fail h.writeAon.writeAon.finish)
theorem MemWf.runSetTime {s} (h : MemWf s) {r} : MemWf (s.runSetTime r) :=
  .ite h.fail (.ite h.stepTime (.ite h.finish (.ite h.fail (.ite h.writeAon.fail h.writeAon.finish))))
theorem MemWf.updFail {s} (h : MemWf s) {r st} : MemWf (s.updFail r st) := (MemWf.ite h.refuse h).fail
theorem MemWf.runUpdateBegin {s} (h : MemWf s) {r} : MemWf (s.runUpdateBegin r) := by
  unfold State.runUpdateBegin
  dsimp only
  split
  · exact h.updFail
  · exact .ite h.fail (.ite h.fail h.upd.startFlash)
theorem MemWf.stage {s} (h : MemWf s) {r u} : MemWf (s.stage r u) := .ite h.upd.finish (.ite h.upd.fail h.upd.startFlash)
theorem MemWf.runUpdateData {s} (h : MemWf s) {r} : MemWf (s.runUpdateData r) := by
  unfold State.runUpdateData
  dsimp only
  split
  · exact h.updFail
  · exact h.fail
  · exact .ite h.fail (.ite h.finish (.ite h.fail (.ite h.fail h.stage)))
theorem MemWf.runUpdateCommit {s} (h : MemWf s) {r} : MemWf (s.runUpdateCommit r) := by
  unfold State.runUpdateCommit
  split
  · exact h.updFail
  · exact h.fail
  · exact .ite h.fail (.ite h.fail (.ite h.endUpdate.fail h.startFlash))

/-! ### The Keystone sequence -/

theorem MemWf.bootPhase {s} (h : MemWf s) {p} : MemWf (s.bootPhase p) := h.upd
theorem MemWf.verifyReads {s} (h : MemWf s) {errs r} : MemWf (s.verifyReads errs r) := .ite h h.bootReads
theorem MemWf.selectReads {s} (h : MemWf s) {errs} : MemWf (s.selectReads errs) :=
  .ite h (MemWf.foldl (fun _ _ h' => h'.bootReads) h)
theorem MemWf.abandonTrial {s} (h : MemWf s) {errs} : MemWf (s.abandonTrial errs) := .ite h.wf.clearTrial.upd h
/-- A value put by an overlay entry, counted where it is refused or fails. -/
theorem MemWf.overlayPut {s} (h : MemWf s) {a v} : MemWf (match s.ioWrite .keystone niBoot a v with
    | (.done code, t) => if code = 0 then t else t.incSat Reg.BOOT_STATUS.OVL_ERR
    | (.error _, t) => t.incSat Reg.BOOT_STATUS.OVL_ERR) := by
  have hw : MemWf (s.ioWrite .keystone niBoot a v).2 := h.ioWrite
  generalize s.ioWrite .keystone niBoot a v = r at hw ⊢
  obtain ⟨code | e, u⟩ := r
  · exact .ite hw hw.incSat
  · exact hw.incSat
theorem MemWf.overlayAt {s} (h : MemWf s) {o a} : MemWf (s.overlayAt o a) := by
  unfold State.overlayAt
  refine .ite h.overlayPut ?_
  have hr : MemWf (s.ioRead .keystone niBoot a).2 := h.ioRead
  generalize s.ioRead .keystone niBoot a = r at hr ⊢
  obtain ⟨v | e, u⟩ := r
  · exact hr.overlayPut
  · exact hr.incSat
theorem MemWf.overlays {s} (h : MemWf s) {rs os} : MemWf (s.overlays rs os) :=
  MemWf.foldl (fun _ _ h' => MemWf.foldl (fun _ _ h' => .ite h' h'.overlayAt) h') h
theorem MemWf.defaultsChecked {s} (h : MemWf s) {errs} : MemWf (s.defaultsChecked errs).2 :=
  .ite_snd h.verifyReads.upd.snd h.verifyReads.wf.snd
theorem MemWf.halt {s} (h : MemWf s) {errs} : MemWf (s.halt errs) := by
  unfold State.halt
  dsimp only
  refine MemWf.ite ?_ ?_
  · refine MemWf.overlays ?_
    refine MemWf.defaultsChecked ?_
    split
    · exact h.takeFree.upd.evRecord
    · exact h
  · refine MemWf.ethStart ?_
    refine MemWf.wf ?_
    refine MemWf.bootPhase ?_
    refine MemWf.overlays ?_
    refine MemWf.defaultsChecked ?_
    split
    · exact h.takeFree.upd.evRecord
    · exact h
theorem MemWf.fallBack {s} (h : MemWf s) {errs k code rest} : MemWf (s.fallBack errs k code rest) := by
  unfold State.fallBack
  dsimp only
  split
  · exact h.wf.upd.halt
  · exact h.wf.upd.incSat.evRecord
theorem MemWf.chooseImage {s} (h : MemWf s) {k q trial} : MemWf (s.chooseImage k q trial) := by
  unfold State.chooseImage
  dsimp only
  refine MemWf.bootPhase ?_
  split
  · exact h.wf.wf.wf.upd.evRecord
  · exact h.wf.wf.wf
theorem MemWf.trialRule {s} (h : MemWf s) {errs k q rest} : MemWf (s.trialRule errs k q rest) :=
  .ite h.chooseImage (.ite (.ite h.wf.clearTrial.upd.fallBack h.wf.chooseImage) h.wf.wf.chooseImage)
theorem MemWf.loadPier {s} (h : MemWf s) {ss i x p} : MemWf (s.loadPier ss i x p) :=
  .ite h (.ite ⟨wf_setBytes _ _ _ _ h.ispace, h.spad, h.mbox, h.deck, h.ecc⟩ h.spadWr)
theorem MemWf.loadSection {s} (h : MemWf s) {ss i} : MemWf (s.loadSection ss i) := by
  unfold State.loadSection
  split
  · exact h
  · exact .ite (MemWf.foldl (fun _ _ h' => h'.loadPier) h) (.ite h.deckWrite h)
theorem MemWf.loadImage {s} (h : MemWf s) {errs} : MemWf (s.loadImage errs).2 := h.bootReads.upd.snd
theorem MemWf.seqWrite {s} (h : MemWf s) {a v} : MemWf (s.seqWrite a v) := h.ioWrite
theorem MemWf.startRole {s} (h : MemWf s) {rs p} : MemWf (s.startRole rs p) := by
  unfold State.startRole
  dsimp only
  split
  · exact h
  · exact (MemWf.foldl (fun _ _ h' => h'.seqWrite) h).seqWrite

/-! ### Trace records -/

theorem MemWf.gauAck {s} (h : MemWf s) {g} : MemWf (s.gauAck g) := by
  unfold State.gauAck
  dsimp only
  split
  · exact h
  · exact .ite h (.ite h.upd.deckWrite.deckWrite.gauNext h.upd.deckWrite.deckWrite)

/-! ### Gates and repeats -/

theorem MemWf.enterGate {s} (h : MemWf s) {th d sp k} : MemWf (s.enterGate th d sp k) := h.spadWr.upd
theorem MemWf.gretTo {s} (h : MemWf s) {th} : MemWf (s.gretTo th) := h.upd
theorem MemWf.gateReturn {s} (h : MemWf s) {th} : MemWf (s.gateReturn th) := h.upd
/-- The command that starts a repeat: RPTI where the repeat may be interrupted, else RPT (R86, R89). -/
def repeatCommand (intr : Bool) (th : Thr) (rs : RegIx) (rsrc : Bool) (cntm1 : BitVec 16) : Instr :=
  match intr with
  | false => .rpt th rs rsrc cntm1
  | true => .rpti th rs rsrc cntm1

theorem repeatCommand_keeps {s} (h : MemWf s) {intr th rs rsrc cntm1} : Keeps (exec (repeatCommand intr th rs rsrc cntm1) s) := by
  cases intr
  all_goals
    change MemWf (ite _ _ _)
    refine .ite h ?_
    split
    · next ht => exact h.headCause ht
    · refine .ite h.takeCause (.ite (.ite h.takeFp h.takeException) (.ite h.takeCause (.ite h.takeCause (.ite h.takeCause ?_))))
      split
      · exact h.takeAsync
      · exact h.onThr.countRetired

/-! ### Debug access -/

theorem MemWf.dbgResult {s} (h : MemWf s) {status data} : MemWf (s.dbgResult status data) := h.upd
theorem MemWf.dbgFail {s} (h : MemWf s) {status} : MemWf (s.dbgFail status) := h.takeFree.dbgResult

/-! ### Integer instructions and branches -/

theorem MemWf.aluRR {s} (h : MemWf s) {th rd rs rt f} : MemWf (s.aluRR th rd rs rt f) := h.issueReg
theorem MemWf.aluR {s} (h : MemWf s) {th rd rs f} : MemWf (s.aluR th rd rs f) := h.issueReg
theorem MemWf.branch {s} (h : MemWf s) {th ra rb off c} : MemWf (s.branch th ra rb off c) := h.issue (fun _ h' => h')

/-! ### Products and quotients -/

theorem MemWf.multiply {s} (h : MemWf s) {th rs rt f} : MemWf (s.multiply th rs rt f) := h.issue (fun _ h' => h'.upd)
theorem MemWf.divide {s} (h : MemWf s) {th rd rs rt fn f} : MemWf (s.divide th rd rs rt fn f) :=
  h.issue (fun _ h' => MemWf.ite_out trivial h'.upd)

/-! ### Commands of the recorder and the Vault -/

theorem MemWf.spoilCopy {s} (h : MemWf s) {id b mask} : MemWf (s.spoilCopy id b mask) := .ite h.setVrec h
theorem MemWf.loadTimebase {s} (h : MemWf s) : MemWf s.loadTimebase := by
  unfold State.loadTimebase
  split
  · exact h
  · exact h.upd
theorem MemWf.loadSet {s} (h : MemWf s) {k} : MemWf (s.loadSet k) := by
  unfold State.loadSet
  dsimp only
  split
  · exact h
  · exact MemWf.foldl (fun _ _ h' => h'.wf) h.wf.wf
theorem MemWf.loadChCfg {s} (h : MemWf s) {n} : MemWf (s.loadChCfg n) := by
  unfold State.loadChCfg
  split
  · exact h
  · exact MemWf.foldl (fun _ _ h' => h'.setReg) h
theorem MemWf.loadChan {s} (h : MemWf s) {n} : MemWf (s.loadChan n) := h.setChan
theorem MemWf.loadLedger {s} (h : MemWf s) : MemWf s.loadLedger := by
  unfold State.loadLedger
  dsimp only
  split
  · exact h
  · exact h.upd
theorem MemWf.loadSeal {s} (h : MemWf s) : MemWf s.loadSeal := by
  unfold State.loadSeal
  dsimp only
  split
  · exact h
  · exact h.wf.wf.wf.wf.wf.setReg.upd
theorem MemWf.noteLost {s} (h : MemWf s) {id} : MemWf (s.noteLost id) := h.wf.ledgerEntry
theorem MemWf.loadShadows {s} (h : MemWf s) : MemWf s.loadShadows := by
  unfold State.loadShadows
  have h5 : ∀ t : State, MemWf t → MemWf (match t.vaultRead 5 with | some w => t.wf Reg.REC_CFG.FLUSH_S w | none => t) := by
    intro t ht
    split
    · exact ht.wf
    · exact ht
  exact .foldl (fun _ _ h' => h'.noteLost) (MemWf.loadLedger (.foldl (fun _ _ h' => h'.loadChan)
    (.foldl (fun _ _ h' => h'.loadChCfg)
    (.foldl (fun _ _ h' => h'.loadSet) (h5 _ h.wf.wf.loadTimebase.loadSeal)))))
theorem MemWf.checkSeal {s} (h : MemWf s) : MemWf s.checkSeal :=
  (MemWf.ite ((MemWf.ite h.upd.wf.vaultQueue h).upd.vaultQueue.evRecord) (.ite h.upd.wf.vaultQueue h)).recordSeal
theorem MemWf.deckReady {s} (h : MemWf s) : MemWf s.deckReady := MemWf.foldl (fun _ _ h' => h'.wf) h
theorem MemWf.vaultCheck {s} (h : MemWf s) {flips} : MemWf (s.vaultCheck flips) :=
  (MemWf.ite h.upd ((MemWf.foldl (fun _ _ h' => h'.spoilCopy) h).loadShadows.upd.checkSeal.deckReady)).upd.vaultQueue.vaultBegin

/-! ### The tick -/

theorem MemWf.tickRtc {s} (h : MemWf s) : MemWf s.tickRtc := by
  unfold State.tickRtc
  dsimp only
  split
  · exact h.upd
  · exact h.upd
theorem MemWf.countDown {s} (h : MemWf s) {f} : MemWf (s.countDown f) := h.wf
theorem MemWf.tickWdt {s} (h : MemWf s) : MemWf s.tickWdt := .ite h (.ite h.upd h.upd.countDown)
theorem MemWf.tickWin {s} (h : MemWf s) : MemWf s.tickWin := .ite h (.ite h.upd h.upd.countDown)
theorem MemWf.tickLease {s} (h : MemWf s) {m} : MemWf (s.tickLease m) := .ite h.onDhcp.wf h
theorem MemWf.tickAon {s} (h : MemWf s) : MemWf s.tickAon :=
  .ite ((MemWf.ite h.tickWdt.tickWin.upd.upd.upd h.tickWdt.tickWin.upd.upd).tickLease.tickLease)
    (.ite h.tickWdt.tickWin.upd.upd.upd h.tickWdt.tickWin.upd.upd)
theorem MemWf.tick {s} (h : MemWf s) : MemWf s.tick := by
  unfold State.tick
  exact .ite h.tickRtc h.tickRtc.tickAon

/-! ### The commands -/

theorem execIload_keeps {s} (h : MemWf s) {th rd rs} : Keeps (execIload th rd rs s) := by
  unfold execIload
  dsimp only
  refine h.issue fun _ h' => ?_
  refine MemWf.ite_out trivial ?_
  refine MemWf.ite_out trivial ?_
  split
  · exact trivial
  · exact MemWf.ite_out trivial (MemWf.ite_out trivial (MemWf.ite_out (MemWf.ite_out trivial h'.startAccess) h'.iwrite8.upd))
theorem execOutIo_keeps {s} (h : MemWf s) {th rd rs imm} : Keeps (execOutIo th rd rs imm s) :=
  h.issue (fun _ h' => MemWf.ite_out trivial (MemWf.ite_out h'.pierWrite (MemWf.ite_out trivial h'.startAccess)))
theorem execGate_keeps {s} (h : MemWf s) {th k} : Keeps (execGate th k s) := by
  unfold execGate
  dsimp only
  refine h.issue fun _ h' => ?_
  refine MemWf.ite_out trivial ?_
  refine MemWf.ite_out trivial ?_
  refine MemWf.ite_out trivial ?_
  split
  · exact trivial
  · exact MemWf.ite_out trivial h'.enterGate
theorem execGret_keeps {s} (h : MemWf s) {th} : Keeps (execGret th s) :=
  h.issue (fun _ h' => MemWf.ite_out trivial (MemWf.ite_out h'.upd.gretTo (MemWf.ite_out trivial h'.gateReturn.gretTo)))
theorem execWait_keeps {s} (h : MemWf s) {th rd} : Keeps (execWait th rd s) := by
  unfold execWait
  refine h.issue fun _ h' => ?_
  split
  · exact h'.setEvPending.upd
  · exact h'.upd
theorem execWgath_keeps {s} (h : MemWf s) {th ty wd ws rt} : Keeps (execWgath th ty wd ws rt s) := by
  unfold execWgath
  dsimp only
  refine h.issue fun _ h' => ?_
  split
  · exact trivial
  · exact h'.upd
theorem execWscat_keeps {s} (h : MemWf s) {th ty wd ws rt} : Keeps (execWscat th ty wd ws rt s) := by
  unfold execWscat
  refine h.issue fun _ h' => ?_
  split
  · exact trivial
  · exact h'.scatter
theorem execExceptionEntry_keeps {s} (h : MemWf s) {th} : Keeps (execExceptionEntry th s) := by
  unfold execExceptionEntry
  dsimp only
  refine MemWf.ite h ?_
  refine MemWf.ite ?_ ?_
  · refine MemWf.ite h.takeDeferred ?_
    split
    · exact h.takeAsync
    · exact h
  · refine MemWf.ite h ?_
    refine MemWf.ite h.takeFp ?_
    refine MemWf.ite h.takeDeferred ?_
    refine MemWf.ite h.takeCause ?_
    refine MemWf.ite h.takeCause ?_
    split
    · exact h.takeAsync
    · exact h
theorem execEvent_keeps {s} (h : MemWf s) {i d stop} : Keeps (execEvent i d stop s) := by
  unfold execEvent
  dsimp only
  split
  · exact h
  · exact h.upd.roundTrip (fun _ h' _ => h'.eventAt)
theorem execSyscause_keeps {s} (h : MemWf s) {i d stop} : Keeps (execSyscause i d stop s) := by
  unfold execSyscause
  dsimp only
  split
  · exact h
  · exact MemWf.ite_next (.ite h.upd.discard (h.upd.lap (fun _ h' _ => h'.causeAt)))
      (h.upd.roundTrip (fun _ h' _ => h'.causeAt))
theorem execSpanfault_keeps {s} (h : MemWf s) {i d} : Keeps (execSpanfault i d s) := by
  unfold execSpanfault
  dsimp only
  split
  · exact h
  · exact MemWf.ite_next h (.ite h.upd.discard h.upd.spanFaultAt)
theorem execRequestTimeout_keeps {s} (h : MemWf s) {id} : Keeps (execRequestTimeout id s) := by
  unfold execRequestTimeout
  split
  · exact h
  · exact MemWf.ite_next h.incSat.abandon h
theorem execGroupStart_keeps {s} (h : MemWf s) {q} : Keeps (execGroupStart q s) := by
  unfold execGroupStart
  split
  · exact h
  · exact MemWf.ite_next h (MemWf.ite_next h.incSat (MemWf.ite_next h h.startFetched))
theorem execElementLoadReturn_keeps {s} (h : MemWf s) {q gi u k d b w} : Keeps (execElementLoadReturn q gi u k d b w s) := by
  unfold execElementLoadReturn
  dsimp only
  split
  · exact h
  · split
    · exact h
    · split
      · exact h
      · split
        · exact MemWf.ite_next h h.noteRemote.spanRead.setJob
        · exact h
theorem execConflictCheck_keeps {s} (h : MemWf s) {q gi u k} : Keeps (execConflictCheck q gi u k s) := by
  unfold execConflictCheck
  dsimp only
  split
  · exact h
  · split
    · exact h
    · split
      · exact MemWf.ite_next h (MemWf.ite_next h.incSat.incSat.setJob h.setJob)
      · exact h
theorem execReplayReissue_keeps {s} (h : MemWf s) {q gi} : Keeps (execReplayReissue q gi s) := by
  unfold execReplayReissue
  split
  · exact h
  · split
    · exact h
    · split
      · exact h
      · exact MemWf.ite_next h h.setJob
theorem execStoreAcknowledgement_keeps {s} (h : MemWf s) {q d b w} : Keeps (execStoreAcknowledgement q d b w s) := by
  unfold execStoreAcknowledgement
  dsimp only
  split
  · exact h
  · split
    · exact h
    · exact MemWf.ite_next h (MemWf.ite_next h.noteRemote.spanStore.setJob
        ((MemWf.foldl (fun _ _ h' => h'.incWrap) h.noteRemote.spanStore).setJob))
theorem execJobFaultEnd_keeps {s} (h : MemWf s) {q} : Keeps (execJobFaultEnd q s) := by
  unfold execJobFaultEnd
  split
  · exact h
  · split
    · exact h
    · split
      · exact h
      · exact MemWf.ite_next h h.setSpan
theorem execJobCompletion_keeps {s} (h : MemWf s) {q raw} : Keeps (execJobCompletion q raw s) := by
  unfold execJobCompletion
  dsimp only
  split
  · exact h
  · split
    · exact h
    · exact MemWf.ite_next h h.spanStatus.spanEnded.afterStatus.reconcile.upd.settleDeps.quiesceNow
theorem execVend_keeps {s} (h : MemWf s) {q} : Keeps (execVend q s) := by
  unfold execVend
  dsimp only
  split
  · exact h
  · exact MemWf.ite_next h (MemWf.ite_next h.spanFetch.setSpan h)
theorem execAbortDrained_keeps {s} (h : MemWf s) {q} : Keeps (execAbortDrained q s) := by
  unfold execAbortDrained
  split
  · exact h
  · exact h.setSpan
theorem execLockWindow_keeps {s} (h : MemWf s) {pll count} : Keeps (execLockWindow pll count s) := by
  unfold execLockWindow
  dsimp only
  refine MemWf.ite_next h ?_
  split
  · exact h.ioWindow
  · exact h.cpWindow
  · exact h.spllWindow.hopEnded
theorem execIslandActionEnd_keeps {s} (h : MemWf s) {isl} : Keeps (execIslandActionEnd isl s) := by
  unfold execIslandActionEnd
  split
  · exact MemWf.ite_next h.actionEnd h
  · exact h
theorem execUpstepTimeout_keeps {s} (h : MemWf s) : Keeps (execUpstepTimeout s) := by
  unfold execUpstepTimeout
  split
  · exact h
  · exact MemWf.ite_next h h.voutCommand.upd.wf.ldrEvent
theorem execFlcOperationTimeout_keeps {s} (h : MemWf s) : Keeps (execFlcOperationTimeout s) := by
  unfold execFlcOperationTimeout
  split
  · exact h.dieCut
  · exact h
theorem execTailErase_keeps {s} (h : MemWf s) : Keeps (execTailErase s) := by
  unfold execTailErase
  split
  · exact MemWf.ite_next h h.upd.flcRequest
  · exact h
theorem execBbtCopyRecord_keeps {s} (h : MemWf s) : Keeps (execBbtCopyRecord s) := by
  unfold execBbtCopyRecord
  dsimp only
  split
  · exact MemWf.ite_next h h.flcRequest
  · exact h
theorem execFlcBufDataAccess_keeps {s} (h : MemWf s) {src w} : Keeps (execFlcBufDataAccess src w s) := by
  unfold execFlcBufDataAccess
  split
  · exact h.toFlash (fun _ h' => h'.writeFlc)
  · exact h.toFlash (fun _ h' => h'.readBuf.ok)
theorem execVerification_keeps {s} (h : MemWf s) {errs} : Keeps (execVerification errs s) := by
  unfold execVerification
  dsimp only
  refine MemWf.ite_next ?_ h
  split
  · exact h.halt
  · exact MemWf.ite_next h.verifyReads.fallBack h.verifyReads.trialRule
theorem execOverlayApply_keeps {s} (h : MemWf s) {errs} : Keeps (execOverlayApply errs s) :=
  MemWf.ite_next (.ite h.defaultsChecked.overlays.overlays h.defaultsChecked.overlays.overlays.bootPhase) h
theorem execRoutesWrite_keeps {s} (h : MemWf s) : Keeps (execRoutesWrite s) :=
  MemWf.ite_next ((MemWf.foldl (fun _ _ h' => MemWf.foldl (fun _ _ h' => h'.seqWrite)
    (MemWf.foldl (fun _ _ h' => h'.seqWrite) h')) (MemWf.foldl (fun _ _ h' => h'.seqWrite.seqWrite) h)).bootPhase) h
theorem execRelease_keeps {s} (h : MemWf s) : Keeps (execRelease s) :=
  MemWf.ite_next (MemWf.ite_next ((MemWf.ite ((MemWf.foldl (fun _ _ h' => h'.startRole) h).overlays)
    (MemWf.foldl (fun _ _ h' => h'.startRole) h)).overlays) ((MemWf.ite ((MemWf.foldl (fun _ _ h' => h'.startRole) h).overlays)
    (MemWf.foldl (fun _ _ h' => h'.startRole) h)).overlays.wf.wf.wdtRestart.wf.evRecord.bootPhase.ethStart)) h
theorem execCalibrationStart_keeps {s} (h : MemWf s) {src p mask log2n} : Keeps (execCalibrationStart src p mask log2n s) := by
  unfold execCalibrationStart
  have hv (v : Word) : Keeps (.next (s.toCvp src (fun u => u.writeCal v))) := h.toCvp fun _ h' => h'.writeCal
  exact hv _
theorem execCalibrationResult_keeps {s} (h : MemWf s) : Keeps (execCalibrationResult s) := by
  unfold execCalibrationResult
  split
  · exact h
  · exact .ite h.calDecide h
theorem execCalibrationRestored_keeps {s} (h : MemWf s) : Keeps (execCalibrationRestored s) := by
  unfold execCalibrationRestored
  split
  · exact h
  · exact .ite h.endCal h
theorem execSessionAgeout_keeps {s} (h : MemWf s) {k} : Keeps (execSessionAgeout k s) := by
  unfold execSessionAgeout
  split
  · exact MemWf.ite_next h.endSession h
  · exact h
theorem execLaneStartTimeout_keeps {s} (h : MemWf s) {i} : Keeps (execLaneStartTimeout i s) := by
  unfold execLaneStartTimeout
  dsimp only
  split
  · exact h
  · refine MemWf.ite_next h ?_
    refine MemWf.answer ?_
    split
    · exact h.upd.onSess
    · exact h.upd
theorem execI2cData_keeps {s} (h : MemWf s) {m b} : Keeps (execI2cData m b s) := by
  cases b with
  | some _ => exact h.gioStep h.i2cPush
  | none => exact h.gioStep h.i2cPop
theorem execSpiData_keeps {s} (h : MemWf s) {m b} : Keeps (execSpiData m b s) := by
  cases b with
  | some _ => exact h.gioStep h.spiPush
  | none => exact h.gioStep h.spiPop
theorem execExtest_keeps {s} (h : MemWf s) {sel} : Keeps (execExtest sel s) :=
  MemWf.ite_next h (MemWf.ite_next h.upd (MemWf.ite_next h.coreReset.upd.holdShells h.upd.takeFree.sysReset))
theorem execDbgaccIoRead_keeps {s} (h : MemWf s) {a} : Keeps (execDbgaccIoRead a s) := by
  unfold execDbgaccIoRead
  refine MemWf.ite_next h ?_
  have hr : MemWf (s.ioRead .debug niAon a.toNat).2 := h.ioRead
  generalize s.ioRead .debug niAon a.toNat = r at hr ⊢
  obtain ⟨v | e, u⟩ := r
  · exact MemWf.dbgResult hr
  · exact MemWf.dbgFail hr
theorem execDbgaccIoWrite_keeps {s} (h : MemWf s) {a v} : Keeps (execDbgaccIoWrite a v s) := by
  unfold execDbgaccIoWrite
  refine MemWf.ite_next h ?_
  have hr : MemWf (s.ioWrite .debug niAon a.toNat v).2 := h.ioWrite
  generalize s.ioWrite .debug niAon a.toNat v = r at hr ⊢
  obtain ⟨v | e, u⟩ := r
  · exact MemWf.dbgResult hr
  · exact MemWf.dbgResult hr
theorem execDbgaccRegRead_keeps {s} (h : MemWf s) {th r} : Keeps (execDbgaccRegRead th r s) := by
  unfold execDbgaccRegRead
  refine MemWf.ite_next h ?_
  split
  · exact h.dbgResult
  · exact h.dbgFail
  · exact h
theorem execDbgaccRegWrite_keeps {s} (h : MemWf s) {th r v} : Keeps (execDbgaccRegWrite th r v s) := by
  unfold execDbgaccRegWrite
  dsimp only
  refine MemWf.ite_next h ?_
  split
  · exact (MemWf.ite h.upd.wf h.upd).dbgResult
  · exact h.dbgResult
  · exact h
theorem execVaultWriteComplete_keeps {s} (h : MemWf s) {ok} : Keeps (execVaultWriteComplete ok s) := by
  unfold execVaultWriteComplete
  split
  · exact h
  · exact (MemWf.ite h.vaultEnd.flushed h.vaultEnd).flcResume.vaultBegin
theorem execFrameTransmitEnd_keeps {s} (h : MemWf s) {m} : Keeps (execFrameTransmitEnd m s) := by
  unfold execFrameTransmitEnd
  dsimp only
  split
  · exact h
  · exact (MemWf.ite h.onMac.incWrap.incWrap h.onMac.incWrap).txNext.formStreams

/-- Every command keeps the memories canonical, by the operation it is. -/
theorem exec_keeps {s} (h : MemWf s) (c : Instr) : Keeps (exec c s) := by
  cases c with
  | vbatReset => exact h.upd
  | por => exact (MemWf.ite h.porReset.upd.wf.wf.upd h.porReset.upd).holdShells
  | sysReset | wdtStage2 => exact MemWf.ite_next h h.sysResetNow
  | porNAssert => exact MemWf.ite_next h.coreReset.upd.holdShells (MemWf.ite_next h h.porReset.upd.holdShells)
  | registerWrite => exact MemWf.ite_next h.busWrite h
  | rcRead | ethFrxDataRead => exact MemWf.ite_next h.busRead h
  | add | sub | and | or | xor | nor | slt | sltu | sll | srl | sra | min | max | minu | maxu | addsat | subsat => exact h.aluRR
  | slli | srli | srai | clz | popc | sextb | sexth | zexth | addi | andi | ori | xori | slti | sltiu => exact h.aluR
  | lui | mfpl | mfph | mtpl | mtph | tlinv | fmvXS | fmvSX | fmvXDh | fmvDX | fmvD => exact h.issueReg
  | beq | bne | blt | bge | bltu | bgeu => exact h.branch
  | j => exact h.issue (fun _ h' => h')
  | jal => exact h.issue (fun _ h' => h'.upd)
  | jalr => exact h.issue (fun _ h' => MemWf.ite_out trivial h'.upd)
  | ld | fld | wld => exact h.load
  | st | fst | wst => exact h.store
  | mld | mst => exact h.mboxAccess
  | iload => exact execIload_keeps h
  | inIo => exact h.issue (fun _ h' => MemWf.ite_out trivial (MemWf.ite_out h'.pierIn.upd h'.startAccess))
  | outIo => exact execOutIo_keeps h
  | mul | mulu | mac | macu => exact h.multiply
  | div | divu | rem | remu => exact h.divide
  | gate => exact execGate_keeps h
  | gret => exact execGret_keeps h
  | wait => exact execWait_keeps h
  | mfs | mts => exact h.issue (fun _ h' => MemWf.ite_out trivial (MemWf.ite_out trivial h'.upd))
  | brk => exact h.issue (fun _ h' => trivial)
  | rpt => exact repeatCommand_keeps h (intr := false)
  | rpti => exact repeatCommand_keeps h (intr := true)
  | tli | tlih => exact h.lookup
  | fadd | fsub | fmul | fdiv | fmin | fmax | fsgnj => exact h.fpArith
  | fsqrt | fabs | fneg | frnd => exact h.fpUnary
  | fma | fmsub | fnmsub | fnmadd => exact h.fpFma
  | feq | flt | fle => exact h.fpCmp
  | fclass | fcvtSD | fcvtDS => exact h.fp
  | fcvtWS | fcvtWuS | fcvtWD | fcvtWuD | fcvtzWS | fcvtzWuS | fcvtzWD | fcvtzWuD => exact h.fpToInt
  | fcvtSW | fcvtSWu | fcvtDW | fcvtDWu => exact h.fpOfInt
  | fpbar => exact .ite h.upd.takeFp (h.issue (fun _ h' => h'))
  | vadd | vsub | vmul | vmin | vmax | vabs | vneg | vadds | vsubs | vmulq => exact h.vecOp
  | vfma | vsplat | vext | vins | vsum => exact h.vec
  | vceq | vclt | vcle => exact h.vecCmp
  | vand | vor | vxor | vsel => exact h.vecBits
  | vcvtF32I16l | vcvtF32I16h | vcvtI16F32 | vcvtF64F32l | vcvtF64F32h | vcvtF32F64 | vcvtI16I8l | vcvtI16I8h | vcvtI8I16 =>
    exact h.vecCvt
  | wgath => exact execWgath_keeps h
  | wscat => exact execWscat_keeps h
  | exceptionEntry => exact execExceptionEntry_keeps h
  | pierThrunWrite => exact .ite h.writeThrun h
  | threadStopped => exact .ite h.stopThread h
  | pierThpcWrite => exact .ite h.writeThpc h
  | pierEvmaskWrite => exact .ite h.writeEvmask h
  | inPacket | outPacket | drd | bulkWrite | rd | wrInline => exact h.arrive
  | readResponse | writeAcknowledgement | errorResponse | sampleResponse => exact h.receive
  | event => exact execEvent_keeps h
  | syscause => exact execSyscause_keeps h
  | spanfault => exact execSpanfault_keeps h
  | requestTimeout => exact execRequestTimeout_keeps h
  | quiesceTimeout => exact MemWf.ite_next h.answerOffline.abandonAll.closeNis.shellOffline h
  | shellOffline => exact MemWf.ite_next (.ite h.closeNis.shellOffline h.closeNis) h
  | viaRtSelWrite | viaRtDataWrite => exact MemWf.ite_next h.writeVia h
  | groupStart => exact execGroupStart_keeps h
  | elementLoadReturn => exact execElementLoadReturn_keeps h
  | conflictCheck => exact execConflictCheck_keeps h
  | replayReissue => exact execReplayReissue_keeps h
  | storeAcknowledgement => exact execStoreAcknowledgement_keeps h
  | jobFaultEnd => exact execJobFaultEnd_keeps h
  | jobCompletion => exact execJobCompletion_keeps h
  | spanVadd | spanVsub | spanVmul | spanVfma | vfms | vfnma | vcmul | vbfly | vcabs2 | vmov | viadd | visub | vimul | spanVand
  | spanVor | spanVxor | vshl | vshr | spanVmin | spanVmax | spanVabs | spanVneg | vcmp | spanVsel | spanVcvt | viota | vlut =>
    exact h.spanOp
  | vtli => exact h.takeFree.spanOp
  | vrsum | vrmin | vrmax | vrmini | vrmaxi => exact h.spanRed
  | vend => exact execVend_keeps h
  | spanCtlWrite => exact h.writeSpanCtl
  | jobSubmission => exact h.unlessHeld h.submit
  | abortSlot | abortTag | abortAll => exact h.unlessHeld h.abortThese
  | abortDrained => exact execAbortDrained_keeps h
  | scrubWriteBack => exact .ite h.writtenWord.incSat h
  | deckInitStart => exact .ite h.writeDeckInit h
  | deckInitDone => exact .ite h.endInit.dispResume h
  | deckEccInjWrite => exact .ite h.writeInj h
  | dmaStart | dmaStop => exact h.writeDmaCtl
  | dmaChDescWrite => exact h.writeDmaDesc
  | dmaStopDrained => exact .ite h.dmaEnd h
  | gaugeClear | traceStart | traceStop => exact .ite h.gauWrite h
  | gaugePacketObserved => exact .ite (.ite h.gauFlush.gauCount (.ite h.gauFlush.gauObserve h.gauFlush)) h
  | gaugeTrigger => exact .ite h.gauFire h
  | traceRecordAck => exact .ite h.gauFlush.gauAck h
  | refclkMonitorWindow => exact h.refWindow.hopEnded
  | lockWindow => exact execLockWindow_keeps h
  | iopllRelockTimeout | fobexResetDelay => exact MemWf.ite_next h.sysResetNow h
  | bandSearchStep => exact MemWf.ite_next h h.bandStep
  | hopRequest => exact h.writeHop
  | hopStart => exact h.startQueued
  | memoClr => exact h.writeSpllCtl
  | spllOpcfgWrite => exact h.writeOpcfg
  | spllSscWrite => exact h.writeSsc
  | sscApply => exact .ite h.applySpread h
  | cpllCtlWrite => exact h.writeCpll
  | islandReset | islandGate | islandOff | islandRestart => exact MemWf.ite_next h.writeIslCmd h
  | islandActionEnd => exact execIslandActionEnd_keeps h
  | islandDivWrite => exact MemWf.ite_next h.writeDiv h
  | thermalSample => exact h.thermalSample
  | pmbusPoll => exact h.pmbusPoll
  | ledgerTick => exact h.ledgerTick
  | upstepTimeout => exact execUpstepTimeout_keeps h
  | windowClose => exact .ite h.closeWindow h
  | acctClose | tripClr | ldrOpVset => exact h.writeLdr
  | trimUpdate => exact h.updateTrim
  | admission => exact h.admission
  | flcRead | flcAppend | flcJread | flcRdwaitWrite => exact h.toFlash (fun _ h' => h'.writeFlc)
  | flcProgram => exact h.programNext
  | flcErase => exact h.eraseNext
  | dieOperationComplete => exact h.dieComplete
  | flcOperationTimeout => exact execFlcOperationTimeout_keeps h
  | tailErase => exact execTailErase_keeps h
  | bbtCopyRecord => exact execBbtCopyRecord_keeps h
  | flcInit => exact MemWf.ite_next h h.flcInit.vaultBegin
  | flcBufDataAccess => exact execFlcBufDataAccess_keeps h
  | pwrfailAssert => exact MemWf.ite_next h (MemWf.ite_next h.upd h.pwrfail)
  | pwrfailDeassert => exact MemWf.ite_next h (MemWf.ite_next h.upd h.pwrGood)
  | vaultRecordWrite => exact MemWf.ite_next h.vaultBegin h
  | opsecAdvance => exact MemWf.ite_next h.upd h
  | rtcSlewWrite => exact MemWf.ite_next h.writeSlew h
  | slewEnd | buttonArmed => exact MemWf.ite_next h.wf h
  | calendarStep => exact MemWf.ite_next h.writeAon h
  | channelSample => exact MemWf.ite_next h.channelDue h
  | recPush => exact MemWf.ite_next h.writePush h
  | channelConfigWrite => exact MemWf.ite_next h.writeChan h
  | flush => exact MemWf.ite_next h.flush h
  | recFlushNow | historyClear | recSnapFire => exact MemWf.ite_next h.writeRec h
  | snapshotFire => exact MemWf.ite_next h.upd.fireSets.issueReads h
  | recorderAppend => exact MemWf.ite_next h.appendPage h
  | recHistSelWrite => exact MemWf.ite_next h.writeHistSel h
  | recChSelWrite => exact MemWf.ite_next h.writeChSel h
  | recOpsecLoRead | rtcSecRead => exact MemWf.ite_next h.recRead h
  | vaultCheck => exact MemWf.ite_next h.vaultCheck h
  | pressBegin => exact MemWf.ite_next h (.ite h.wf.wf.upd.setWin h.wf.wf.upd)
  | pressEnd => exact MemWf.ite_next h (.ite h.wf.upd.setWin (.ite h.wf.upd.closePresence h.wf.upd))
  | holdReached => exact MemWf.ite_next h.holdReached h
  | windowExpiry => exact MemWf.ite_next h.closePresence h
  | btnStuck => exact MemWf.ite_next h.wf.upd h
  | sealSample => exact h.sealSample
  | parCfgWrite => exact MemWf.ite_next h.writePar h
  | slotSelection => exact MemWf.ite_next h.abandonTrial.selectReads.upd h
  | verification => exact execVerification_keeps h
  | overlayApply => exact execOverlayApply_keeps h
  | roleInstantiation => exact MemWf.ite_next ((MemWf.foldl (fun _ _ h' => h'.loadSection) h.loadImage).bootPhase) h
  | routesWrite => exact execRoutesWrite_keeps h
  | release => exact execRelease_keeps h
  | bootConfirm | trialConfirm | trialReject | bootSysreset => exact h.toBoot (fun _ h' => h'.writeBoot)
  | wdtKeyWrite => exact MemWf.ite_next h.writeWdt h
  | wdtStage1 => exact MemWf.ite_next h h.wdtStage1
  | portStart => exact h.toCvp (fun _ h' => h'.writeStart)
  | portStop => exact h.toCvp (fun _ h' => h'.writeStop)
  | inputFrame => exact .ite ((MemWf.ite h.frameError h.calFrame.takeFrame).frameEnd) h
  | outputFrame => exact .ite ((MemWf.ite h (.ite h.sendZeros.frameError h.giveFrame)).frameEnd) h
  | followerClockLoss => exact .ite h.stopPort h
  | calibrationStart => exact execCalibrationStart_keeps h
  | calibrationSettled => exact .ite h.calAccumulate h
  | calibrationResult => exact execCalibrationResult_keeps h
  | calibrationRestored => exact execCalibrationRestored_keeps h
  | cvpOfsWrite => exact h.toCvp (fun _ h' => h'.writeOfs)
  | abutmentTrip => exact .ite h.upd.latch h.upd.latch
  | sourceLatchSync => exact h.syncSource
  | clockedMuteSource => exact .ite h.latch h
  | abtRelease => exact h.abtWrite
  | frameReceive => exact MemWf.ite_next h (MemWf.ite_next h.drop (MemWf.ite_next h h.rxFrame))
  | arpRetry => exact h.arpRetry
  | arpAge => exact h.onMac
  | txDiscard => exact MemWf.ite_next h h.onMac.drop.formStreams
  | phyPoll => exact MemWf.ite_next h.phyPoll h
  | mdioCmd | ethFrxPop | ethFtxDataWrite | ethFtxSend => exact MemWf.ite_next h.writeEth h
  | mdioComplete => exact h.mdioEnd
  | dhcpRetransmit => exact MemWf.ite_next h.dhcpAgain h
  | dhcpT1 | dhcpT2 => exact MemWf.ite_next h.dhcpState.txDhcp h
  | leaseExpiry => exact MemWf.ite_next h.dhcpInit h
  | hello => exact h.onReady (fun _ => h.runHello)
  | bye => exact h.onReady (fun _ => h.runBye)
  | presenceStatus => exact h.onReady (fun _ => h.runPresence)
  | close => exact h.onReady (fun _ => h.runClose)
  | readIo => exact h.onReady (fun _ => h.runReadIo)
  | writeIo => exact h.onReady (fun _ => h.runWriteIo)
  | readHist => exact h.onReady (fun _ => h.runReadHist)
  | readExtremes => exact h.onReady (fun _ => h.runReadExtremes)
  | readLog => exact h.onReady (fun _ => h.runReadLog)
  | streamOpen => exact h.onReady (fun _ => h.runStreamOpen)
  | streamClose => exact h.onReady (fun _ => h.runStreamClose)
  | setTime => exact h.onReady (fun _ => h.runSetTime)
  | updateBegin => exact h.onReady (fun _ => h.runUpdateBegin)
  | updateData => exact h.onReady (fun _ => h.runUpdateData)
  | updateCommit => exact h.onReady (fun _ => h.runUpdateCommit)
  | reset => exact h.onReady (fun _ => h.runReset)
  | sessionAgeout => exact execSessionAgeout_keeps h
  | laneStartTimeout => exact execLaneStartTimeout_keeps h
  | fsvStreamDataWrite | streamPush => exact MemWf.ite_next h.writeFsv h
  | streamMaxage => exact MemWf.ite_next h h.setStrm.formStream
  | panelEnable | saveRef | rebase => exact MemWf.ite_next h.writePnl h
  | panelScan => exact MemWf.ite_next h.scan h
  | gpioOset | gpioOclr => exact h.gioStep h.outBits
  | gpioEdge => exact MemWf.ite_next h (h.gioStep h.pinLevel)
  | pwmPeriodBoundary => exact MemWf.ite_next (h.gioStep h.pwmLoad) h
  | pwmCfgWrite => exact h.gioStep h.writePwmCfg
  | uartTxd => exact h.gioStep h.uartTx
  | uartReceive => exact h.gioStep h.uartRx
  | uartRxdRead => exact h.gioStep h.rxdPop
  | i2cCmd => exact h.gioStep h.i2cStart
  | i2cTransferEnd => exact h.gioStep h.i2cEnd
  | i2cData => exact execI2cData_keeps h
  | spiCmd => exact h.gioStep h.spiStart
  | spiTransferEnd => exact h.gioStep h.spiEnd
  | spiData => exact execSpiData_keeps h
  | trigIn => exact h.gioStep h.trigIn
  | trigPulse => exact h.gioStep h.writeTrig
  | pulseEnd => exact h.gioStep h.upd
  | extest => exact execExtest_keeps h
  | dbgaccIoRead => exact execDbgaccIoRead_keeps h
  | dbgaccIoWrite => exact execDbgaccIoWrite_keeps h
  | dbgaccRegRead => exact execDbgaccRegRead_keeps h
  | dbgaccRegWrite => exact execDbgaccRegWrite_keeps h
  | abutmentSourceClear => exact .ite h.upd.notQuiet h.upd.notQuiet
  | vaultWriteComplete => exact execVaultWriteComplete_keeps h
  | uartCharacterSent => exact MemWf.ite_next (h.gioStep h.uartSent) h
  | frameTransmitEnd => exact execFrameTransmitEnd_keeps h
  | pauseExpiry => exact MemWf.ite_next h.wf.txNext h
  | sequencerVoutTimeout => exact .ite h.voutCommand.setKey h

/-- A step takes the first command that waits, or the microsecond of the tick. -/
theorem step_keeps {s} (h : MemWf s) : Keeps (step s) := by
  unfold step
  split
  · exact h.tick
  · exact exec_keeps h.upd _

/-- Settles O59: each operation keeps the memories canonical, so every command and the tick do. -/
theorem memoriesStayCanonical : Obligations.MemoriesStayCanonical := by
  intro s t h ht
  have hk : Keeps (step s) := step_keeps h
  rw [ht] at hk
  exact hk

end Sys2Proof.Claims
end

section
/-!
PROOFS. The issue of an instruction before which nothing stands (R64, R136): it is concluded, and retiring it changes its thread and
the counts of its pier alone. O3 follows row by row of Table isa-4.
-/

namespace Sys2Proof.Claims
open Sys2Proof.Machine

theorem thr_gretSeen (s : State) (th u : Thr) :
    (s.onThr th Thread.gretSeen).thr u = if u = th then (s.thr u).gretSeen else s.thr u := by
  by_cases h : u = th
  · subst h; simp
  · rw [if_neg h, State.thr_onThr_other _ _ _ _ h]

/-- Whether GRET led here is no part of what an asynchronous cause depends on. -/
theorem asyncDue_gretSeen (s : State) (th : Thr) : (s.onThr th Thread.gretSeen).asyncDue th = s.asyncDue th := by
  have hrun (u : Thr) : ((s.onThr th Thread.gretSeen).thr u).run = (s.thr u).run := by
    rw [thr_gretSeen]; split <;> rfl
  have hcan (u : Thr) : (s.onThr th Thread.gretSeen).canTakeEvent u = s.canTakeEvent u := by
    unfold State.canTakeEvent; rw [thr_gretSeen]; split <;> rfl
  have hev : (s.onThr th Thread.gretSeen).eventFor th = s.eventFor th := by
    simp only [State.eventFor, hcan, hrun]; rfl
  unfold State.asyncDue
  rw [hev, State.thr_onThr_same]
  rfl

theorem Runs.canIssue {s th} (h : Runs s th) (rp : Bool) : s.canIssue th rp = true := by
  simp [State.canIssue, Thread.atBoundary, h.clocked, h.running, h.noAccess, h.noStop, h.noRepeat]

theorem headCause_none {s : State} {th : Thr} (htp : (s.thr th).tpend = 0) (hd : (s.thr th).defErrs = []) (settle : Bool) :
    s.headCause th settle = none := by
  simp [State.headCause, Thread.fpDue, htp, hd]

/-- An instruction that can issue, with no earlier cause and a PC in I-space, is concluded. -/
theorem issue_of_canIssue {s : State} {th : Thr} {rp : Bool} (hcan : s.canIssue th rp = true) (htp : (s.thr th).tpend = 0)
    (hd : (s.thr th).defErrs = []) (hpc : (s.thr th).pc.toNat ≤ 0x1FFFC) (settle : Bool) (body : State → Out) :
    s.issue th rp settle body = (s.onThr th Thread.gretSeen).conclude th (body (s.onThr th Thread.gretSeen)) := by
  have hg : (s.onThr th Thread.gretSeen).thr th = (s.thr th).gretSeen := State.thr_onThr_same _ _ _
  have hh : (s.onThr th Thread.gretSeen).headCause th settle = none :=
    headCause_none (by rw [hg]; exact htp) (by rw [hg]; exact hd) settle
  have hok : pcOk (s.thr th).gretSeen.pc = true := decide_eq_true hpc
  simp [State.issue, hcan, hh, hok]

/-- The instruction of a thread before which nothing stands is concluded. -/
theorem Runs.issue {s th} (h : Runs s th) (rp settle : Bool) (body : State → Out) :
    s.issue th rp settle body = (s.onThr th Thread.gretSeen).conclude th (body (s.onThr th Thread.gretSeen)) :=
  issue_of_canIssue (h.canIssue rp) h.noTpend h.noDeferred h.fetchable settle body

theorem conclude_done {s : State} {th : Thr} (ha : s.asyncDue th = none) (u : State) (npc : Word) (n : Nat) :
    (s.onThr th Thread.gretSeen).conclude th (.done u npc n) =
      (u.onThr th Thread.commitProduct).retire th (s.thr th).gretSeen npc n := by
  simp [State.conclude, asyncDue_gretSeen, ha]

/-! ### Retiring -/

/-- `t` differs from `s` in threads and registers alone. -/
def OnlyThreadsAndRegs (s t : State) : Prop := ∃ threads io, t = { s with threads := threads, io := io }

theorem OnlyThreadsAndRegs.eq {s t : State} (h : OnlyThreadsAndRegs s t) : t = { s with threads := t.threads, io := t.io } := by
  obtain ⟨_, _, rfl⟩ := h
  rfl
theorem OnlyThreadsAndRegs.refl (s : State) : OnlyThreadsAndRegs s s := ⟨s.threads, s.io, rfl⟩
theorem OnlyThreadsAndRegs.setReg {s t : State} (h : OnlyThreadsAndRegs s t) (a : Nat) (v : Word) :
    OnlyThreadsAndRegs s (t.setReg a v) := by
  obtain ⟨_, _, rfl⟩ := h
  exact ⟨_, _, rfl⟩
theorem OnlyThreadsAndRegs.onThr {s t : State} (h : OnlyThreadsAndRegs s t) (th : Thr) (f : Thread → Thread) :
    OnlyThreadsAndRegs s (t.onThr th f) := by
  obtain ⟨_, _, rfl⟩ := h
  exact ⟨_, _, rfl⟩
theorem OnlyThreadsAndRegs.retire {s t : State} (h : OnlyThreadsAndRegs s t) (th : Thr) (o : Thread) (npc : Word) (n : Nat) :
    OnlyThreadsAndRegs s (t.retire th o npc n) := ((h.onThr th _).setReg _ _).setReg _ _

theorem pier_counts_apart (p : Nat) : Reg.PIER_RETIRED_at p ≠ Reg.PIER_CYCLES_at p := by
  unfold Reg.PIER_RETIRED_at Reg.PIER_CYCLES_at
  omega

theorem thr_countRetired (s : State) (p n : Nat) (u : Thr) : (s.countRetired p n).thr u = s.thr u := by
  unfold State.countRetired
  rw [State.thr_incWrap, State.thr_incWrap]

/-- A change of one thread, with an instruction counted, changes no other thread and, but for the counts, no register. -/
theorem onlyThread_countRetired {s u : State} {th : Thr} (hu : OnlyThreadsAndRegs s u) (ho : ∀ v, v ≠ th → u.thr v = s.thr v)
    (hr : ∀ a, u.reg a = s.reg a) (n : Nat) : OnlyThread s (u.countRetired th.pier.val n) th n := by
  have hcount (f : Fd) : u.rf f = s.rf f := by rw [State.rf, State.rf, hr]
  refine ⟨((hu.setReg _ _).setReg _ _).eq, fun v hv => ?_, fun a h1 h2 => ?_, ?_, ?_⟩
  · rw [thr_countRetired, ho v hv]
  · rw [State.countRetired, State.reg_incWrap_other _ _ _ _ h2, State.reg_incWrap_other _ _ _ _ h1, hr]
  · unfold State.countRetired
    rw [State.incWrap, State.rf_wf_other _ _ _ _ (.inl (pier_counts_apart _)), State.rf_incWrap _ _ _ (by exact Nat.le_refl 32), hcount]
    rfl
  · unfold State.countRetired
    rw [State.rf_incWrap _ _ _ (by exact Nat.le_refl 32), State.incWrap, State.rf_wf_other _ _ _ _ (.inl (pier_counts_apart _).symm), hcount]
    rfl

theorem onlyThread_retire {s u : State} {th : Thr} (hu : OnlyThreadsAndRegs s u) (ho : ∀ v, v ≠ th → u.thr v = s.thr v)
    (hr : ∀ a, u.reg a = s.reg a) (o : Thread) (npc : Word) (n : Nat) : OnlyThread s (u.retire th o npc n) th n :=
  onlyThread_countRetired (hu.onThr th _) (fun v hv => by rw [State.thr_onThr_other _ _ _ _ hv, ho v hv]) hr n

/-- What retiring leaves of a thread outside a repeat, with no floating-point cause waiting. -/
theorem retire_noRepeat {o t : Thread} (hrep : t.rep = none) (htp : o.tpend = 0) (npc : Word) :
    t.retire o npc = { t with pc := npc, stepDue := if o.ss then some o.pc else t.stepDue } := by
  simp [Thread.retire, hrep, htp]

theorem Runs.onlyThread {s th} (f : Thread → Thread) (npc : Word) (n : Nat) :
    OnlyThread s ((((s.onThr th Thread.gretSeen).onThr th f).onThr th Thread.commitProduct).retire th (s.thr th).gretSeen npc n)
      th n := by
  refine onlyThread_retire ((((OnlyThreadsAndRegs.refl s).onThr th _).onThr th _).onThr th _) (fun v hv => ?_) (fun a => rfl) _ _ _
  rw [State.thr_onThr_other _ _ _ _ hv, State.thr_onThr_other _ _ _ _ hv, State.thr_onThr_other _ _ _ _ hv]

/-- A result written to Gd by an instruction that retires. -/
theorem retire_wg {o : Thread} (hrep : o.rep = none) (htp : o.tpend = 0) (rd : RegIx) (v npc : Word) :
    (o.gretSeen.wg rd v).commitProduct.retire o.gretSeen npc = { retired o npc with g := (o.wg rd v).g } := by
  have hg : (o.gretSeen.wg rd v).g = (o.wg rd v).g := by
    unfold Thread.wg
    split <;> rfl
  rw [Thread.wg_frame, retire_noRepeat (o := o.gretSeen) (by exact hrep) htp, Thread.commitProduct, hg]
  rfl

/-- An instruction that writes a result to Gd and completes. -/
theorem Runs.writesG_issue {s th} (h : Runs s th) {i : Instr} {rp settle : Bool} {body : State → Out} {rd : RegIx} {v npc : Word}
    {n : Nat} (hi : exec i s = .next (s.issue th rp settle body))
    (hb : body (s.onThr th Thread.gretSeen) = .done ((s.onThr th Thread.gretSeen).onThr th (fun t => t.wg rd v)) npc n) :
    WritesG i s th rd v npc n := by
  have he := h.issue rp settle body
  rw [hb, conclude_done h.noAsync] at he
  refine ⟨_, hi, ?_⟩
  rw [he]
  refine ⟨Runs.onlyThread _ _ _, ?_⟩
  rw [State.thr_retire_same, State.thr_onThr_same, State.thr_onThr_same, State.thr_onThr_same, retire_wg h.noRepeat h.noTpend]
  exact ⟨fun r => Thread.rg_wg (s.thr th) rd r v, rfl⟩

theorem Runs.writesG {s th} (h : Runs s th) {i : Instr} {rp : Bool} {rd : RegIx} {f : Thread → Word} {v : Word}
    (hi : exec i s = .next (s.issueReg th rp (fun t => t.wg rd (f t)))) (hv : f (s.thr th).gretSeen = v) :
    WritesG i s th rd v ((s.thr th).pc + 4) 1 := by
  refine h.writesG_issue hi ?_
  simp only [State.onThr, State.thr_setThr_same, State.npc, hv]
  rfl

/-! ### Values of Table isa-4 -/

theorem ofBool_decide (p : Prop) [Decidable p] : ofBool (decide p) = truth p := by
  by_cases h : p <;> simp [ofBool, truth, b2n, h]

theorem shiftLeft_eq_ofNat (a : Word) (n : Nat) : a <<< n = BitVec.ofNat 32 (a.toNat * 2 ^ n) := by
  apply BitVec.eq_of_toNat_eq
  simp [Nat.shiftLeft_eq]

theorem ushiftRight_eq_ofNat (a : Word) (n : Nat) : a >>> n = BitVec.ofNat 32 (a.toNat / 2 ^ n) := by
  apply BitVec.eq_of_toNat_eq
  have h : a.toNat / 2 ^ n < 2 ^ 32 := Nat.lt_of_le_of_lt (Nat.div_le_self _ _) a.isLt
  rw [BitVec.toNat_ushiftRight, BitVec.toNat_ofNat, Nat.mod_eq_of_lt h, Nat.shiftRight_eq_div_pow]

theorem sshiftRight_eq_ofInt (a : Word) (n : Nat) : a.sshiftRight n = BitVec.ofInt 32 (a.toInt / 2 ^ n) := by
  rw [BitVec.sshiftRight, Int.shiftRight_eq_div_pow]
  norm_cast

theorem sMin_eq_ofInt (a b : Word) : sMin a b = BitVec.ofInt 32 (min a.toInt b.toInt) := by
  simp only [sMin, BitVec.slt, decide_eq_true_eq]
  split
  · rw [min_eq_left (by omega), BitVec.ofInt_toInt]
  · rw [min_eq_right (by omega), BitVec.ofInt_toInt]
theorem sMax_eq_ofInt (a b : Word) : sMax a b = BitVec.ofInt 32 (max a.toInt b.toInt) := by
  simp only [sMax, BitVec.slt, decide_eq_true_eq]
  split
  · rw [max_eq_right (by omega), BitVec.ofInt_toInt]
  · rw [max_eq_left (by omega), BitVec.ofInt_toInt]
theorem uMin_eq_ofNat (a b : Word) : uMin a b = BitVec.ofNat 32 (min a.toNat b.toNat) := by
  simp only [uMin, BitVec.ult, decide_eq_true_eq]
  split
  · rw [min_eq_left (by omega), BitVec.ofNat_toNat, BitVec.setWidth_eq]
  · rw [min_eq_right (by omega), BitVec.ofNat_toNat, BitVec.setWidth_eq]
theorem uMax_eq_ofNat (a b : Word) : uMax a b = BitVec.ofNat 32 (max a.toNat b.toNat) := by
  simp only [uMax, BitVec.ult, decide_eq_true_eq]
  split
  · rw [max_eq_right (by omega), BitVec.ofNat_toNat, BitVec.setWidth_eq]
  · rw [max_eq_left (by omega), BitVec.ofNat_toNat, BitVec.setWidth_eq]

theorem satWord_eq_clamp32 (i : Int) : satWord i = clamp32 i := rfl

theorem countP_lt_range (k n : Nat) : (List.range n).countP (fun i => decide (k < i)) = n - 1 - k := by
  induction n with
  | zero => simp
  | succ n ih =>
    rw [List.range_succ, List.countP_append, ih, List.countP_singleton]
    split <;> rename_i h <;> simp at h <;> omega

theorem clzWord_eq_count (a : Word) : clzWord a = (List.range 32).countP (fun i => decide (a.toNat < 2 ^ i)) := by
  unfold clzWord
  split
  · next h => subst h; decide
  · next h =>
    have ha : a.toNat ≠ 0 := fun h0 => h (BitVec.eq_of_toNat_eq h0)
    simp only [← Nat.log2_lt ha]
    rw [countP_lt_range]

theorem popBits_eq_count (n v : Nat) : popBits n v = (List.range n).countP (fun i => v.testBit i) := by
  induction n generalizing v with
  | zero => rfl
  | succ n ih =>
    rw [popBits, ih, List.range_succ_eq_map, List.countP_cons, List.countP_map, Nat.add_comm]
    congr 1
    · congr 1
      funext i
      simp [Nat.testBit_succ]
    · rcases Nat.mod_two_eq_zero_or_one v with h | h <;> simp [Nat.testBit_zero, h]

theorem add_sx (a : Word) (i : BitVec 16) : a + sx i = BitVec.ofInt 32 (a.toInt + i.toInt) := by
  rw [BitVec.ofInt_add, BitVec.ofInt_toInt]
  rfl

theorem toInt_sx (i : BitVec 16) : (sx i).toInt = i.toInt := BitVec.toInt_signExtend_of_le (by decide)

theorem setWidth_setWidth_16 (a : Word) : (a.setWidth 16).setWidth 32 = BitVec.ofNat 32 (a.toNat % 65536) := by
  apply BitVec.eq_of_toNat_eq
  simp

theorem toNat_zx (i : BitVec 16) : (zx i).toNat = i.toNat := by
  have := i.isLt
  simp [zx]
  omega

theorem and_zx (a : Word) (i : BitVec 16) : a &&& zx i = BitVec.ofNat 32 (a.toNat &&& i.toNat) := by
  rw [← toNat_zx, ← BitVec.toNat_and, BitVec.ofNat_toNat, BitVec.setWidth_eq]
theorem or_zx (a : Word) (i : BitVec 16) : a ||| zx i = BitVec.ofNat 32 (a.toNat ||| i.toNat) := by
  rw [← toNat_zx, ← BitVec.toNat_or, BitVec.ofNat_toNat, BitVec.setWidth_eq]
theorem xor_zx (a : Word) (i : BitVec 16) : a ^^^ zx i = BitVec.ofNat 32 (a.toNat ^^^ i.toNat) := by
  rw [← toNat_zx, ← BitVec.toNat_xor, BitVec.ofNat_toNat, BitVec.setWidth_eq]

theorem zx_shiftLeft (i : BitVec 16) : zx i <<< 16 = BitVec.ofNat 32 (i.toNat * 65536) := by
  rw [shiftLeft_eq_ofNat, toNat_zx]
  norm_num

variable {s : State} {th : Thr}

theorem aluRows_write (h : Runs s th) (rd rs rt : RegIx) : ∀ e ∈ aluRows,
    WritesG (e.1 th rd rs rt) s th rd (e.2 ((s.thr th).rg rs) ((s.thr th).rg rt)) ((s.thr th).pc + 4) 1 := by
  simp only [aluRows, List.forall_mem_cons]
  exact ⟨h.writesG rfl rfl, h.writesG rfl rfl, h.writesG rfl rfl, h.writesG rfl rfl, h.writesG rfl rfl, h.writesG rfl rfl,
    h.writesG rfl (ofBool_decide _), h.writesG rfl (ofBool_decide _),
    h.writesG rfl (shiftLeft_eq_ofNat _ _), h.writesG rfl (ushiftRight_eq_ofNat _ _), h.writesG rfl (sshiftRight_eq_ofInt _ _),
    h.writesG rfl (sMin_eq_ofInt _ _), h.writesG rfl (sMax_eq_ofInt _ _),
    h.writesG rfl (uMin_eq_ofNat _ _), h.writesG rfl (uMax_eq_ofNat _ _),
    h.writesG rfl (satWord_eq_clamp32 _), h.writesG rfl (satWord_eq_clamp32 _), List.forall_mem_nil _⟩

theorem aluOneRows_write (h : Runs s th) (rd rs : RegIx) : ∀ e ∈ aluOneRows,
    WritesG (e.1 th rd rs) s th rd (e.2 ((s.thr th).rg rs)) ((s.thr th).pc + 4) 1 := by
  simp only [aluOneRows, List.forall_mem_cons]
  exact ⟨h.writesG rfl (congrArg _ (clzWord_eq_count _)), h.writesG rfl (congrArg _ (popBits_eq_count _ _)),
    h.writesG rfl rfl, h.writesG rfl rfl, h.writesG rfl (setWidth_setWidth_16 _), List.forall_mem_nil _⟩

theorem aluImmRows_write (h : Runs s th) (rd rs : RegIx) (imm : BitVec 16) : ∀ e ∈ aluImmRows,
    WritesG (e.1 th rd rs imm) s th rd (e.2 ((s.thr th).rg rs) imm) ((s.thr th).pc + 4) 1 := by
  have hslt (a : Word) : ofBool (a.slt (sx imm)) = truth (a.toInt < imm.toInt) := by
    rw [BitVec.slt, toInt_sx, ofBool_decide]
  simp only [aluImmRows, List.forall_mem_cons]
  exact ⟨h.writesG rfl (add_sx _ _), h.writesG rfl (and_zx _ _), h.writesG rfl (or_zx _ _), h.writesG rfl (xor_zx _ _),
    h.writesG rfl (hslt _), h.writesG rfl (ofBool_decide _), List.forall_mem_nil _⟩

theorem shiftImmRows_write (h : Runs s th) (rd rs : RegIx) (sh : BitVec 5) : ∀ e ∈ shiftImmRows,
    WritesG (e.1 th rd rs sh) s th rd (e.2 ((s.thr th).rg rs) sh.toNat) ((s.thr th).pc + 4) 1 := by
  simp only [shiftImmRows, List.forall_mem_cons]
  exact ⟨h.writesG rfl (shiftLeft_eq_ofNat _ _), h.writesG rfl (ushiftRight_eq_ofNat _ _),
    h.writesG rfl (sshiftRight_eq_ofInt _ _), List.forall_mem_nil _⟩

/-- Settles O3: one instruction of a register form retires with its result in Gd, and each row's value is the table's. -/
theorem integerInstructionsWriteGd : Obligations.IntegerInstructionsWriteGd := fun _ rd rs rt imm sh _ h =>
  ⟨aluRows_write h rd rs rt, aluOneRows_write h rd rs, aluImmRows_write h rd rs imm, shiftImmRows_write h rd rs sh,
    h.writesG rfl (zx_shiftLeft imm)⟩

end Sys2Proof.Claims
end

section
/-!
PROOFS. A precise cause in the place of an instruction, and O5: products and quotients (R49 to R51, R81).
-/

namespace Sys2Proof.Claims
open Sys2Proof.Machine

/-! ### A precise cause in place of an instruction -/

/-- A cause that no debug halt selects (R149). -/
theorem haltSelected_of_code {s : State} {th : Thr} {c : Cause} (hb : c.code ≠ cBreak) (hs : c.code ≠ cStep) :
    s.haltSelected th c = false := by
  simp [State.haltSelected, hb, hs]

/-- A precise cause taken at the PC: entry, with no exception in progress and no floating-point cause waiting. -/
theorem takeCause_enters {s : State} {th : Thr} {c : Cause} (htp : (s.thr th).tpend = 0) (hexl : (s.thr th).exl = false)
    (hf : c.code ≠ cFp) (hb : c.code ≠ cBreak) (hs : c.code ≠ cStep) :
    s.takeCause th c = s.onThr th (fun t => t.enter c (s.thr th).pc (s.reg (Reg.PIER_ENTRY_at th.pier.val))) := by
  simp [State.takeCause, State.takeException, htp, hexl, hf, haltSelected_of_code hb hs]

theorem Runs.takes {s th} (h : Runs s th) (hexl : (s.thr th).exl = false) {i : Instr} {rp settle : Bool} {body : State → Out}
    {code sub : Nat} {einfo : Word} (hi : exec i s = .next (s.issue th rp settle body))
    (hb : body (s.onThr th Thread.gretSeen) = .trap (.mk' code sub einfo))
    (hc : code ≠ cFp ∧ code ≠ cBreak ∧ code ≠ cStep) : Takes i s th code sub einfo := by
  obtain ⟨hf, hbrk, hst⟩ := hc
  have hg : (s.onThr th Thread.gretSeen).thr th = (s.thr th).gretSeen := State.thr_onThr_same _ _ _
  have he := h.issue rp settle body
  rw [hb, State.conclude, takeCause_enters (by rw [hg]; exact h.noTpend) (by rw [hg]; exact hexl) hf hbrk hst] at he
  refine ⟨_, hi, ?_⟩
  rw [he]
  refine ⟨?_, rfl, fun u hu => ?_⟩
  · rw [State.thr_onThr_same, hg]
    rfl
  · rw [State.thr_onThr_other _ _ _ _ hu, State.thr_onThr_other _ _ _ _ hu]

/-! ### Products and quotients -/

/-- A thread changed by an instruction of one slot that retires (R51). -/
theorem Runs.issueReg {s th} (h : Runs s th) {i : Instr} {rp : Bool} {f : Thread → Thread}
    (hi : exec i s = .next (s.issueReg th rp f)) :
    ∃ t, exec i s = .next t ∧ OnlyThread s t th 1 ∧
      t.thr th = (f (s.thr th).gretSeen).commitProduct.retire (s.thr th).gretSeen ((s.thr th).pc + 4) := by
  have he := h.issue rp false (fun s => .done (s.onThr th f) (s.npc th) 1)
  rw [conclude_done h.noAsync] at he
  refine ⟨_, hi, ?_⟩
  rw [State.issueReg, he]
  refine ⟨Runs.onlyThread _ _ _, ?_⟩
  rw [State.thr_retire_same, State.thr_onThr_same, State.thr_onThr_same, State.thr_onThr_same, State.npc, State.thr_onThr_same]
  rfl

/-- The low word of a product taken modulo 2^64. -/
theorem ofNat_low {p : Nat} {x : Int} (h : (p : Int) % 2 ^ 64 = x % 2 ^ 64) :
    BitVec.ofNat 32 (p % 2 ^ 64) = BitVec.ofInt 32 x := by
  apply BitVec.eq_of_toNat_eq
  rw [BitVec.toNat_ofNat, BitVec.toNat_ofInt]
  omega

/-- The high word of a product taken modulo 2^64. -/
theorem ofNat_high {p : Nat} {x : Int} (h : (p : Int) % 2 ^ 64 = x % 2 ^ 64) :
    BitVec.ofNat 32 (p % 2 ^ 64 / 2 ^ 32) = BitVec.ofInt 32 (x / 2 ^ 32) := by
  apply BitVec.eq_of_toNat_eq
  rw [BitVec.toNat_ofNat, BitVec.toNat_ofInt]
  omega

theorem uNat_emod (x : Int) : (uNat 64 x : Int) % 2 ^ 64 = x % 2 ^ 64 := by
  unfold uNat
  omega

/-- A product waits for the instruction after the next one (R51). -/
theorem Runs.multiplies {s th} (h : Runs s th) {i : Instr} {rs rt : RegIx} {f : Word → Word → Nat → Nat} {x : Int}
    (hi : exec i s = .next (s.multiply th rs rt f))
    (hx : (f ((s.thr th).rg rs) ((s.thr th).rg rt) (s.thr th).pair : Int) % 2 ^ 64 = x % 2 ^ 64) :
    ∃ t, exec i s = .next t ∧ OnlyThread s t th 1 ∧
      t.thr th = { retired (s.thr th) ((s.thr th).pc + 4) with
        pendL := some (BitVec.ofInt 32 x), pendH := some (BitVec.ofInt 32 (x / 2 ^ 32)) } := by
  refine ⟨_, hi, ?_⟩
  rw [State.multiply, h.issue]
  simp only [State.conclude, asyncDue_gretSeen, h.noAsync]
  refine ⟨onlyThread_retire (((OnlyThreadsAndRegs.refl s).onThr th _).onThr th _) (fun v hv => ?_) (fun a => rfl) _ _ _, ?_⟩
  · rw [State.thr_onThr_other _ _ _ _ hv, State.thr_onThr_other _ _ _ _ hv]
  · rw [State.thr_retire_same, State.thr_onThr_same, State.npc, State.thr_onThr_same,
      retire_noRepeat (o := (s.thr th).gretSeen) (by exact h.noRepeat) h.noTpend, ← ofNat_low hx, ← ofNat_high hx]
    rfl

theorem mulRows_multiply {s th} (h : Runs s th) (rs rt : RegIx) : ∀ e ∈ mulRows,
    ∃ t, exec (e.1 th rs rt) s = .next t ∧ OnlyThread s t th 1 ∧
      t.thr th = { retired (s.thr th) ((s.thr th).pc + 4) with
        pendL := some (BitVec.ofInt 32 (e.2 ((s.thr th).rg rs) ((s.thr th).rg rt)
          ((s.thr th).pl.toNat + (s.thr th).ph.toNat * 2 ^ 32))),
        pendH := some (BitVec.ofInt 32 (e.2 ((s.thr th).rg rs) ((s.thr th).rg rt)
          ((s.thr th).pl.toNat + (s.thr th).ph.toNat * 2 ^ 32) / 2 ^ 32)) } := by
  have hpair : ((s.thr th).pair : Int) = (s.thr th).pl.toNat + (s.thr th).ph.toNat * 2 ^ 32 := by
    unfold Thread.pair
    push_cast
    rfl
  simp only [mulRows, List.forall_mem_cons, ← hpair]
  refine ⟨h.multiplies rfl (uNat_emod _), h.multiplies rfl ?_, h.multiplies rfl ?_, h.multiplies rfl ?_, List.forall_mem_nil _⟩
  · push_cast
    rfl
  · rw [Nat.cast_add]
    exact Int.ModEq.add_left _ (uNat_emod _)
  · push_cast
    rfl

theorem productVisibleAfterOneInstruction : ProductVisibleAfterOneInstruction := by
  intro th rd rs rt s h
  refine ⟨mulRows_multiply h rs rt, h.writesG rfl rfl, h.writesG rfl rfl, ?_, ?_⟩
  · obtain ⟨t, he, ho, ht⟩ := h.issueReg (i := .mtpl th rs) rfl
    refine ⟨t, he, ho, ?_⟩
    rw [ht, retire_noRepeat (o := (s.thr th).gretSeen) (by exact h.noRepeat) h.noTpend]
    rfl
  · obtain ⟨t, he, ho, ht⟩ := h.issueReg (i := .mtph th rs) rfl
    refine ⟨t, he, ho, ?_⟩
    rw [ht, retire_noRepeat (o := (s.thr th).gretSeen) (by exact h.noRepeat) h.noTpend]
    rfl

/-- A divide by its divisor: 20 cycles, or DIV_ZERO (R49, R50). -/
theorem Runs.divides {s th} (h : Runs s th) {i : Instr} {rd rs rt : RegIx} {fn : Nat} {f : Word → Word → Word}
    (hi : exec i s = .next (s.divide th rd rs rt fn f)) :
    ((s.thr th).rg rt ≠ 0 → WritesG i s th rd (f ((s.thr th).rg rs) ((s.thr th).rg rt)) ((s.thr th).pc + 4) 20) ∧
    ((s.thr th).rg rt = 0 → (s.thr th).exl = false →
      Takes i s th cDivZero 0 (encA 8 rd.val rs.val rt.val fn)) := by
  have hg : (s.onThr th Thread.gretSeen).thr th = (s.thr th).gretSeen := State.thr_onThr_same _ _ _
  have hr (r : RegIx) : (s.thr th).gretSeen.rg r = (s.thr th).rg r := rfl
  refine ⟨fun hz => h.writesG_issue hi ?_, fun hz hexl => h.takes hexl hi ?_ (by decide)⟩
  · simp only [hr, if_neg hz, State.onThr, State.thr_setThr_same]
    rfl
  · simp only [hg, hr, if_pos hz]

theorem dividesWriteGdOrRaiseDivZero : DividesWriteGdOrRaiseDivZero := by
  intro th rd rs rt s h
  simp only [divRows, List.forall_mem_cons]
  have hdiv := h.divides (i := .div th rd rs rt) rfl
  have hdivu := h.divides (i := .divu th rd rs rt) rfl
  have hrem := h.divides (i := .rem th rd rs rt) rfl
  have hremu := h.divides (i := .remu th rd rs rt) rfl
  exact ⟨hdiv, hdivu, hrem, hremu, List.forall_mem_nil _⟩

/-- Settles O5: the multiplies by the product modulo 2^64, the moves and the divides by what their instruction retires. -/
theorem multiplyAndDivide : Obligations.MultiplyAndDivide :=
  ⟨productVisibleAfterOneInstruction, dividesWriteGdOrRaiseDivZero⟩

end Sys2Proof.Claims
end

section
/-!
PROOFS. O18: WAIT (R67) and RPT and RPTI (R86 to R90).
-/

namespace Sys2Proof.Claims
open Sys2Proof.Machine

/-! ### WAIT -/

theorem evPending_congr {s t : State} {p : Nat} (hlo : t.reg (Reg.PIER_EVPEND_LO_at p) = s.reg (Reg.PIER_EVPEND_LO_at p))
    (hhi : t.reg (Reg.PIER_EVPEND_HI_at p) = s.reg (Reg.PIER_EVPEND_HI_at p)) (e : Nat) : t.evPending p e = s.evPending p e := by
  have hlo' (i : Nat) : t.bit (Reg.PIER_EVPEND_LO.PEND p) i = s.bit (Reg.PIER_EVPEND_LO.PEND p) i := by
    unfold State.bit
    rw [show (Reg.PIER_EVPEND_LO.PEND p).addr = Reg.PIER_EVPEND_LO_at p from rfl, hlo]
  have hhi' (i : Nat) : t.bit (Reg.PIER_EVPEND_HI.PEND p) i = s.bit (Reg.PIER_EVPEND_HI.PEND p) i := by
    unfold State.bit
    rw [show (Reg.PIER_EVPEND_HI.PEND p).addr = Reg.PIER_EVPEND_HI_at p from rfl, hhi]
  simp only [State.evPending, State.pairBit, hlo', hhi']

theorem evPend_apart (p : Nat) : Reg.PIER_EVPEND_LO_at p ≠ Reg.PIER_EVPEND_HI_at p := by
  unfold Reg.PIER_EVPEND_LO_at Reg.PIER_EVPEND_HI_at
  omega

theorem bit_setBit (s : State) (f : Fd) {i : Nat} (j : Nat) (v : Bool) (h : f.lo + i < 32) :
    (s.setBit f i v).bit f j = if j = i then v else s.bit f j := by
  split
  · next hj => subst hj; exact State.bit_setBit_same _ _ _ _ h
  · next hj => exact State.bit_setBit_other _ _ _ _ _ _ (.inr (by omega))

/-- The pending bit of one event written leaves the others. -/
theorem evPending_setEvPending (s : State) (p : Nat) {e e' : Nat} (he : e < 64) (he' : e' < 64) (v : Bool) :
    (s.setEvPending p e v).evPending p e' = if e' = e then v else s.evPending p e' := by
  have hlo : (Reg.PIER_EVPEND_LO.PEND p).lo = 0 := rfl
  have hhi : (Reg.PIER_EVPEND_HI.PEND p).lo = 0 := rfl
  unfold State.setEvPending State.evPending State.pairBit
  by_cases h : e < 32 <;> by_cases h' : e' < 32 <;> simp only [h, h', if_true, if_false]
  · exact bit_setBit _ _ _ _ (by omega)
  · rw [State.bit_setBit_other _ _ _ _ _ _ (.inl (evPend_apart p).symm), if_neg (by omega)]
  · rw [State.bit_setBit_other _ _ _ _ _ _ (.inl (evPend_apart p)), if_neg (by omega)]
  · rw [bit_setBit _ _ _ _ (by omega)]
    exact if_congr (by omega) rfl rfl

theorem thr_setEvPending (s : State) (p e : Nat) (v : Bool) (u : Thr) : (s.setEvPending p e v).thr u = s.thr u := by
  unfold State.setEvPending
  split <;> rfl

theorem OnlyThreadsAndRegs.setEvPending {s t : State} (h : OnlyThreadsAndRegs s t) (p e : Nat) (v : Bool) :
    OnlyThreadsAndRegs s (t.setEvPending p e v) := by
  unfold State.setEvPending
  split <;> exact h.setReg _ _

theorem pier_counts_evPend (p : Nat) : Reg.PIER_EVPEND_LO_at p ≠ Reg.PIER_RETIRED_at p ∧ Reg.PIER_EVPEND_HI_at p ≠ Reg.PIER_RETIRED_at p ∧
    Reg.PIER_EVPEND_LO_at p ≠ Reg.PIER_CYCLES_at p ∧ Reg.PIER_EVPEND_HI_at p ≠ Reg.PIER_CYCLES_at p := by
  unfold Reg.PIER_EVPEND_LO_at Reg.PIER_EVPEND_HI_at Reg.PIER_RETIRED_at Reg.PIER_CYCLES_at
  omega

theorem evPending_retire (s : State) (th : Thr) (o : Thread) (npc : Word) (n e : Nat) :
    (s.retire th o npc n).evPending th.pier.val e = s.evPending th.pier.val e := by
  obtain ⟨hlr, hhr, hlc, hhc⟩ := pier_counts_evPend th.pier.val
  exact evPending_congr (State.reg_retire_other _ _ _ _ _ _ hlr hlc) (State.reg_retire_other _ _ _ _ _ _ hhr hhc) e

/-- The lowest event pending in the thread's mask. -/
theorem waitEvent_eq_some {s : State} {th : Thr} {e : Nat} (he : e < 64) (hp : s.evPending th.pier.val e = true)
    (hm : s.evMask th.pier.val th.th.val e = true)
    (hlow : ∀ e', e' < e → ¬ (s.evPending th.pier.val e' = true ∧ s.evMask th.pier.val th.th.val e' = true)) :
    s.waitEvent th = some e := by
  unfold State.waitEvent
  rw [List.find?_range_eq_some]
  refine ⟨by simp [hp, hm], List.mem_range.2 he, fun j hj => ?_⟩
  rw [Bool.not_eq_true', Bool.eq_false_iff, ne_eq, Bool.and_eq_true]
  exact hlow j hj

theorem waitEvent_eq_none {s : State} {th : Thr}
    (h : ∀ e, e < 64 → ¬ (s.evPending th.pier.val e = true ∧ s.evMask th.pier.val th.th.val e = true)) : s.waitEvent th = none := by
  unfold State.waitEvent
  rw [List.find?_range_eq_none]
  intro j hj
  rw [Bool.not_eq_true', Bool.eq_false_iff, ne_eq, Bool.and_eq_true]
  exact h j hj

theorem wait_takes {s th} (h : Runs s th) (rd : RegIx) {e : Nat} (hw : s.waitEvent th = some e) :
    exec (.wait th rd) s = .next (((((s.onThr th Thread.gretSeen).setEvPending th.pier.val e false).onThr th
      (fun t => t.wg rd (BitVec.ofNat 32 e))).onThr th Thread.commitProduct).retire th (s.thr th).gretSeen ((s.thr th).pc + 4) 1) := by
  have hg : (s.onThr th Thread.gretSeen).waitEvent th = some e := hw
  show Host.Outcome.next (s.issue th false true _) = _
  rw [h.issue]
  simp only [hg]
  rw [conclude_done h.noAsync, State.npc, State.thr_onThr_same]
  rfl

theorem wait_waits {s th} (h : Runs s th) (rd : RegIx) (hw : s.waitEvent th = none) :
    exec (.wait th rd) s = .next (((s.onThr th Thread.gretSeen).onThr th (fun t => { t with run := .waiting, waitRd := rd })).incWrap
      (Reg.PIER_CYCLES.COUNT th.pier.val) 1) := by
  have hg : (s.onThr th Thread.gretSeen).waitEvent th = none := hw
  show Host.Outcome.next (s.issue th false true _) = _
  rw [h.issue]
  simp only [hg, State.conclude, asyncDue_gretSeen, h.noAsync]

theorem waitTakesLowestEvent : WaitTakesLowestEvent := by
  intro th rd s h
  refine ⟨fun e he hp hm hlow => ⟨_, wait_takes h rd (waitEvent_eq_some he hp hm hlow), ?_⟩, fun hn => ?_⟩
  · have hs := (OnlyThreadsAndRegs.refl s).onThr th Thread.gretSeen
    refine ⟨((((hs.setEvPending _ _ _).onThr th _).onThr th _).retire th _ _ _).eq, fun u hu => ?_, ?_⟩
    · rw [State.thr_retire_other _ _ _ _ _ _ hu, State.thr_onThr_other _ _ _ _ hu, State.thr_onThr_other _ _ _ _ hu,
        thr_setEvPending, State.thr_onThr_other _ _ _ _ hu]
    rw [State.thr_retire_same, State.thr_onThr_same, State.thr_onThr_same, thr_setEvPending, State.thr_onThr_same,
      retire_wg h.noRepeat h.noTpend]
    refine ⟨fun r => Thread.rg_wg (s.thr th) rd r _, rfl, fun e' he' => ?_⟩
    rw [evPending_retire]
    exact evPending_setEvPending (s.onThr th Thread.gretSeen) _ he he' false
  · refine ⟨_, wait_waits h rd (waitEvent_eq_none hn), ?_⟩
    obtain ⟨-, -, hlc, hhc⟩ := pier_counts_evPend th.pier.val
    rw [State.thr_incWrap, State.thr_onThr_same, State.thr_onThr_same]
    exact ⟨rfl, rfl, fun r => rfl, fun e _ => evPending_congr (State.reg_incWrap_other _ _ _ _ hlc)
      (State.reg_incWrap_other _ _ _ _ hhc) e⟩

/-! ### RPT and RPTI -/

/-- The greatest count of a repeat (R86). -/
def repeatLimit (intr : Bool) : Nat :=
  match intr with
  | false => 256
  | true => 65536

theorem repeatLimit_le (intr : Bool) : repeatLimit intr ≤ 65536 := by cases intr <;> decide

/-- RPT or RPTI of a thread nothing stands before, by its count and the word it repeats (R86, R87). -/
theorem Runs.repeatCommand {s th} (h : Runs s th) {intr : Bool} {rs : RegIx} {rsrc : Bool} {cntm1 : BitVec 16}
    (hpc : ((s.thr th).pc + 4).toNat ≤ 0x1FFFC) (hw : rsrc = true → cntm1 = 0) :
    exec (repeatCommand intr th rs rsrc cntm1) s = .next (
      if (s.thr th).prefixCount rs rsrc cntm1 = 0 ∨ repeatLimit intr < (s.thr th).prefixCount rs rsrc cntm1 then
        s.takeCause th (.mk' cRepeat 1 (BitVec.ofNat 32 ((s.thr th).prefixCount rs rsrc cntm1)))
      else if pierRepeatable (s.ifetch th.pier.val ((s.thr th).pc + 4)) = false then
        s.takeCause th (.mk' cRepeat 2 (s.ifetch th.pier.val ((s.thr th).pc + 4)))
      else (s.onThr th (fun t => t.startRepeat intr ((s.thr th).prefixCount rs rsrc cntm1))).countRetired th.pier.val 1) := by
  have hok : pcOk (s.thr th).pc = true := decide_eq_true h.fetchable
  have hok' : pcOk ((s.thr th).pc + 4) = true := decide_eq_true hpc
  have hz : (rsrc && cntm1 != 0) = false := by
    cases rsrc
    · rfl
    · simp [hw rfl]
  cases intr
  all_goals
    refine congrArg Host.Outcome.next (?_ : ite _ _ _ = _)
    simp only [h.canIssue, headCause_none h.noTpend h.noDeferred, hok, hok', hz, h.noAsync, Bool.not_true,
      Bool.false_eq_true, if_false, Bool.not_eq_true']
    rfl

theorem enter_gretSeen (t : Thread) (c : Cause) (epc entry : Word) : t.gretSeen.enter c epc entry = t.enter c epc entry := by
  have hc : t.gretSeen.endRepeat.commitProduct = { t.endRepeat.commitProduct with viaGret := false } := by
    cases hr : t.rep <;> simp [Thread.endRepeat, Thread.gretSeen, Thread.commitProduct, hr]
  simp only [Thread.enter, hc]
  rfl

theorem Runs.startsRepeat {s th} (h : Runs s th) {intr : Bool} {rs : RegIx} {rsrc : Bool} {cntm1 : BitVec 16}
    (hpc : ((s.thr th).pc + 4).toNat ≤ 0x1FFFC) (hw : rsrc = true → cntm1 = 0)
    (h1 : 1 ≤ (s.thr th).prefixCount rs rsrc cntm1) (h2 : (s.thr th).prefixCount rs rsrc cntm1 ≤ repeatLimit intr)
    (hrep : pierRepeatable (s.ifetch th.pier.val ((s.thr th).pc + 4)) = true) :
    ∃ t, exec (Claims.repeatCommand intr th rs rsrc cntm1) s = .next t ∧ OnlyThread s t th 1 ∧
      t.thr th = (s.thr th).startRepeat intr ((s.thr th).prefixCount rs rsrc cntm1) := by
  refine ⟨_, h.repeatCommand hpc hw, ?_⟩
  rw [if_neg (by omega), if_neg (by rw [hrep]; decide)]
  refine ⟨onlyThread_countRetired ((OnlyThreadsAndRegs.refl s).onThr th _)
    (fun u hu => State.thr_onThr_other _ _ _ _ hu) (fun a => rfl) 1, ?_⟩
  rw [thr_countRetired, State.thr_onThr_same]

/-- A cause that takes the place of RPT or RPTI. -/
theorem Runs.takesRepeat {s th} (h : Runs s th) (hexl : (s.thr th).exl = false) {i : Instr} {sub : Nat} {einfo : Word}
    (hi : exec i s = .next (s.takeCause th (.mk' cRepeat sub einfo))) : Takes i s th cRepeat sub einfo := by
  rw [takeCause_enters h.noTpend hexl (show cRepeat ≠ cFp by decide) (show cRepeat ≠ cBreak by decide)
    (show cRepeat ≠ cStep by decide)] at hi
  refine ⟨_, hi, ?_, rfl, fun u hu => State.thr_onThr_other _ _ _ _ hu⟩
  rw [State.thr_onThr_same, enter_gretSeen]
  rfl

/-- An instruction of the repeatable set, within a repeat that nothing interrupts, writes Gd and counts (R88). -/
theorem add_in_repeat {t u : State} {th : Thr} {rd rs rt : RegIx} (hcl : t.clocked th.pier.val = true)
    (hrun : (t.thr th).run = .running) (hacc : (t.thr th).acc = none) (hstop : (t.thr th).stopReq = false)
    (htp : (t.thr th).tpend = 0) (hd : (t.thr th).defErrs = [])
    (hpc : (t.thr th).pc.toNat ≤ 0x1FFFC) (ha : t.asyncDue th = none) (hu : exec (.add th rd rs rt) t = .next u) :
    u.thr th = ((t.thr th).gretSeen.wg rd ((t.thr th).rg rs + (t.thr th).rg rt)).commitProduct.retire (t.thr th).gretSeen
      ((t.thr th).pc + 4) := by
  have hcan : t.canIssue th true = true := by
    simp [State.canIssue, Thread.atBoundary, hcl, hrun, hacc, hstop]
  have hu' : t.issueReg th true (fun x => x.wg rd (x.rg rs + x.rg rt)) = u := by
    injection hu
  rw [← hu', State.issueReg, issue_of_canIssue hcan htp hd hpc, conclude_done ha, State.thr_retire_same, State.thr_onThr_same,
    State.thr_onThr_same, State.npc, State.thr_onThr_same]
  rfl

/-- Retiring the last time within a repeat ends it (R88). -/
theorem retire_repeat_last {o t : Thread} {r : Repeat} (hrep : t.rep = some r) (hc : t.count - 1 = 0) (npc : Word) :
    ∃ age due, t.retire o npc =
      { t with fpAge := age, rptc := putBits t.rptc 0 17 (t.count - 1), rep := none, pc := npc, stepDue := due } := by
  simp only [Thread.retire, hrep]
  exact ⟨_, if o.ss then some r.prefixPc else t.stepDue, if_pos hc⟩

/-- Retiring within a repeat before the last time counts it down, with the PC held (R88). -/
theorem retire_repeat_more {o t : Thread} {r : Repeat} (hrep : t.rep = some r) (hc : t.count - 1 ≠ 0) (npc : Word) :
    ∃ age due, t.retire o npc = { t with fpAge := age, rptc := putBits t.rptc 0 17 (t.count - 1), stepDue := due } := by
  simp only [Thread.retire, hrep]
  refine ⟨if o.tpend ≠ 0 then o.fpAge + 1 else t.fpAge, if o.ss && r.interruptible then some r.prefixPc else t.stepDue, ?_⟩
  exact if_neg hc

theorem prefixCount_eq (o : Thread) (rs : RegIx) (rsrc : Bool) (cntm1 : BitVec 16) : o.prefixCount rs rsrc cntm1 =
    if o.viaGret = true ∧ getBits o.rptc 31 1 = 1 then getBits o.rptc 0 17
    else if rsrc then (o.rg rs).toNat else cntm1.toNat + 1 := by
  simp [Thread.prefixCount, Thread.resume, Thread.count]

/-- A thread in a repeat, after an instruction of the repeat wrote `v` to Gd. -/
theorem retire_wg_repeat {o x : Thread} {r : Repeat} {rd : RegIx} {v npc : Word} (hrep : o.rep = some r)
    (hx : x = (o.gretSeen.wg rd v).commitProduct.retire o.gretSeen npc) :
    x.count = o.count - 1 ∧ (∀ k, x.rg k = if k = rd ∧ k ≠ 0 then v else o.rg k) ∧
    (if o.count - 1 = 0 then x.rep = none ∧ x.pc = npc else x.rep = o.rep ∧ x.pc = o.pc) := by
  have hlt : o.count < 2 ^ 17 := Nat.mod_lt _ (by decide)
  have hy : (o.gretSeen.wg rd v).commitProduct.rep = o.rep ∧ (o.gretSeen.wg rd v).commitProduct.pc = o.pc ∧
      (o.gretSeen.wg rd v).commitProduct.count = o.count ∧
      ∀ k, (o.gretSeen.wg rd v).commitProduct.rg k = if k = rd ∧ k ≠ 0 then v else o.rg k := by
    refine ⟨?_, ?_, ?_, fun k => Thread.rg_wg o.gretSeen rd k v⟩ <;> rw [Thread.wg_frame] <;> rfl
  generalize (o.gretSeen.wg rd v).commitProduct = y at hx hy
  obtain ⟨hyr, hyp, hyc, hyg⟩ := hy
  have hc : getBits (putBits y.rptc 0 17 (y.count - 1)) 0 17 = o.count - 1 := by
    rw [getBits_putBits_same _ _ _ _ (by decide), hyc, Nat.mod_eq_of_lt (by omega)]
  split
  · next h =>
    obtain ⟨age, due, he⟩ := retire_repeat_last (o := o.gretSeen) (hyr.trans hrep) (hyc ▸ h) npc
    rw [he] at hx
    subst hx
    exact ⟨hc, hyg, rfl, rfl⟩
  · next h =>
    obtain ⟨age, due, he⟩ := retire_repeat_more (o := o.gretSeen) (hyr.trans hrep) (hyc ▸ h) npc
    rw [he] at hx
    subst hx
    exact ⟨hc, hyg, hyr, hyp⟩

theorem startRepeat_count {o : Thread} {intr : Bool} {n : Nat} (h : n ≤ 65536) : (o.startRepeat intr n).count = n := by
  show getBits (BitVec.ofNat 32 n) 0 17 = n
  rw [getBits, BitVec.toNat_ofNat]
  omega

/-- The three outcomes of RPT and RPTI, with the count `n`. -/
theorem Runs.repeatCommand_outcomes {s th} (h : Runs s th) (rd rt : RegIx) (intr : Bool) {rs : RegIx} {rsrc : Bool}
    {cntm1 : BitVec 16} {n : Nat} (hn : (s.thr th).prefixCount rs rsrc cntm1 = n)
    (hpc : ((s.thr th).pc + 4).toNat ≤ 0x1FFFC) (hw : rsrc = true → cntm1 = 0) :
    (1 ≤ n → n ≤ repeatLimit intr → pierRepeatable (s.ifetch th.pier.val ((s.thr th).pc + 4)) = true →
      ∃ t, exec (Claims.repeatCommand intr th rs rsrc cntm1) s = .next t ∧ OnlyThread s t th 1 ∧
        (t.thr th).rep = some ⟨intr, (s.thr th).pc⟩ ∧ (t.thr th).rptc = BitVec.ofNat 32 n ∧ (t.thr th).pc = (s.thr th).pc + 4 ∧
        (t.thr th).g = (s.thr th).g ∧
        (∀ u, exec (.add th rd rs rt) t = .next u → t.asyncDue th = none →
          (u.thr th).count = n - 1 ∧
          (∀ r, (u.thr th).rg r = if r = rd ∧ r ≠ 0 then (s.thr th).rg rs + (s.thr th).rg rt else (s.thr th).rg r) ∧
          (if n = 1 then (u.thr th).rep = none ∧ (u.thr th).pc = (s.thr th).pc + 8
           else (u.thr th).rep = (t.thr th).rep ∧ (u.thr th).pc = (s.thr th).pc + 4))) ∧
    ((s.thr th).exl = false → (n = 0 ∨ repeatLimit intr < n) →
      Takes (Claims.repeatCommand intr th rs rsrc cntm1) s th 0x0C 1 (BitVec.ofNat 32 n)) ∧
    ((s.thr th).exl = false → 1 ≤ n → n ≤ repeatLimit intr → pierRepeatable (s.ifetch th.pier.val ((s.thr th).pc + 4)) = false →
      Takes (Claims.repeatCommand intr th rs rsrc cntm1) s th 0x0C 2 (s.ifetch th.pier.val ((s.thr th).pc + 4))) := by
  refine ⟨fun h1 h2 hr => ?_, fun hexl hout => h.takesRepeat hexl ?_, fun hexl h1 h2 hr => h.takesRepeat hexl ?_⟩
  · obtain ⟨t, he, ho, ht⟩ := h.startsRepeat hpc hw (hn ▸ h1) (hn ▸ h2) hr
    refine ⟨t, he, ho, ?_⟩
    rw [hn] at ht
    obtain ⟨hst, -⟩ := ho
    have hcl : t.clocked th.pier.val = true := by rw [hst]; exact h.clocked
    have hcount : (t.thr th).count = n := by rw [ht]; exact startRepeat_count (h2.trans (repeatLimit_le intr))
    have hrep : (t.thr th).rep = some ⟨intr, (s.thr th).pc⟩ := by rw [ht]; rfl
    refine ⟨hrep, by rw [ht]; rfl, by rw [ht]; rfl, by rw [ht]; rfl, fun u hu ha => ?_⟩
    have hadd := add_in_repeat hcl (by rw [ht]; exact h.running) (by rw [ht]; exact h.noAccess) (by rw [ht]; exact h.noStop)
      (by rw [ht]; exact h.noTpend) (by rw [ht]; exact h.noDeferred) (by rw [ht]; exact hpc) ha hu
    obtain ⟨hc, hg, hend⟩ := retire_wg_repeat hrep hadd
    have hrg (k : RegIx) : (t.thr th).rg k = (s.thr th).rg k := by rw [ht]; rfl
    have hpc4 : (t.thr th).pc = (s.thr th).pc + 4 := by rw [ht]; rfl
    simp only [hrg] at hg
    rw [hcount, hpc4] at hend
    rw [hcount] at hc
    refine ⟨hc, hg, ?_⟩
    by_cases h1' : n = 1
    · rw [if_pos (by omega), BitVec.add_assoc] at hend
      rw [if_pos h1']
      exact hend
    · rw [if_neg (by omega)] at hend
      rw [if_neg h1']
      exact hend
  · rw [h.repeatCommand hpc hw, hn, if_pos hout]
  · rw [h.repeatCommand hpc hw, hn, if_neg (by omega), if_pos hr]

theorem repeatPrefixesCount : RepeatPrefixesCount := by
  intro th rd rs rt rsrc cntm1 s h
  simp only [← prefixCount_eq, List.forall_mem_cons]
  exact ⟨fun hpc hw => h.repeatCommand_outcomes rd rt false rfl hpc hw,
    fun hpc hw => h.repeatCommand_outcomes rd rt true rfl hpc hw, List.forall_mem_nil _⟩

/-- Settles O18: WAIT by the event it finds, RPT and RPTI by the count and the word it repeats. -/
theorem waitAndRepeat : Obligations.WaitAndRepeat := ⟨waitTakesLowestEvent, repeatPrefixesCount⟩

end Sys2Proof.Claims
end

section
/-!
PROOFS. O17: exception entry (R129) and the double exception (R138).
-/

namespace Sys2Proof.Claims
open Sys2Proof.Machine

/-! ### Entry and double exceptions -/

/-- The saved mode bits are those of the thread entered from (R129). -/
theorem enter_saved (t : Thread) (c : Cause) (epc entry : Word) :
    getBits (t.enter c epc entry).tstat 4 1 = b2n t.kernel ∧ getBits (t.enter c epc entry).tstat 5 1 = b2n t.ie ∧
    getBits (t.enter c epc entry).tstat 6 1 = b2n t.ss := by
  have hbit (n : Nat) : getBits t.tstat n 1 = b2n (getBits t.tstat n 1 == 1) := by
    have : getBits t.tstat n 1 < 2 := Nat.mod_lt _ (by decide)
    interval_cases getBits t.tstat n 1 <;> rfl
  have hb (n : Nat) : getBits t.tstat n 1 < 2 := Nat.mod_lt _ (by decide)
  have h0 := hb 0
  have h2 := hb 2
  have h3 := hb 3
  rw [Thread.enter_tstat, Thread.kernel, Thread.ie, Thread.ss, ← hbit, ← hbit, ← hbit]
  refine ⟨?_, ?_, ?_⟩
  all_goals
    rw [getBits_putBits_other _ _ _ _ _ _ (by omega), getBits_putBits_part _ _ _ _ _ _ (by omega) (by omega) (by omega)]
    norm_num
    omega

/-- The stack registers at entry: a Task thread's are exchanged (R129). -/
theorem enter_rg (t : Thread) (c : Cause) (epc entry : Word) (r : RegIx) :
    (t.enter c epc entry).rg r = if t.kernel = false ∧ r = 30 then t.ksp else t.rg r := by
  have hrg (u : Thread) (hu : u.g = t.g) : u.rg r = t.rg r := by unfold Thread.rg; rw [hu]
  have hc : t.endRepeat.commitProduct.g = t.g := t.endRepeat_g
  have hks : t.endRepeat.commitProduct.ksp = t.ksp := t.endRepeat_ksp
  cases hk : t.kernel <;> simp only [Thread.enter, hk, Bool.not_false, Bool.not_true, Bool.false_eq_true, if_true, if_false]
  · show (Thread.wg _ 30 _).rg r = _
    rw [Thread.rg_wg, hks]
    by_cases hr : r = 30
    · subst hr
      rfl
    · rw [if_neg (fun e => hr e.1), if_neg (fun e => hr e.2)]
      exact hrg _ hc
  · rw [if_neg (fun e => absurd e.1 (by decide))]
    exact hrg _ hc

theorem enter_usp (t : Thread) (c : Cause) (epc entry : Word) :
    (t.enter c epc entry).usp = if t.kernel then t.usp else t.rg 30 := by
  have hc : t.endRepeat.commitProduct.usp = t.usp := by
    unfold Thread.endRepeat
    split <;> rfl
  cases hk : t.kernel <;> simp only [Thread.enter, hk, Bool.not_false, Bool.not_true, Bool.false_eq_true, if_true, if_false]
  · rw [Thread.wg_frame]
  · exact hc

/-- Entry from a thread outside a repeat writes the registers R129 names. -/
theorem entered_enter {o t : Thread} {c : Cause} {epc entry : Word} (hg : t.g = o.g) (hts : t.tstat = o.tstat) (hk : t.ksp = o.ksp)
    (hu : t.usp = o.usp) (hrep : t.rep = none) (hd : c.deferred = false) :
    Entered o (t.enter c epc entry) c.code c.sub c.einfo epc entry := by
  have hrg (r : RegIx) : t.rg r = o.rg r := by unfold Thread.rg; rw [hg]
  have hker : t.kernel = o.kernel := by unfold Thread.kernel; rw [hts]
  refine ⟨?_, ?_, Thread.enter_einfo .., ?_,
    ⟨Thread.enter_kernel .., Thread.enter_exl .., Thread.enter_ie .., Thread.enter_ss ..⟩, ?_, ?_, Thread.enter_pc ..⟩
  · rw [Thread.enter_cause, Cause.word, hd]
    rfl
  · rw [Thread.enter_epc, hrep]
  · have hs := enter_saved t c epc entry
    rwa [hker, show t.ie = o.ie by unfold Thread.ie; rw [hts], show t.ss = o.ss by unfold Thread.ss; rw [hts]] at hs
  · rw [enter_rg, enter_usp, hker, hk, hu, hrg]
    cases o.kernel <;> simp
  · intro r hr
    rw [enter_rg, if_neg (fun e => hr e.2), hrg]

/-- A cause that no debug halt selects, taken with EXL 0. -/
theorem takeException_enters {s : State} {th : Thr} {c : Cause} (hexl : (s.thr th).exl = false) (hh : s.haltSelected th c = false)
    (epc : Word) : s.takeException th c epc = s.onThr th (fun t =>
      (if c.code = cFp then t.deliverTpend else t).enter c epc (s.reg (Reg.PIER_ENTRY_at th.pier.val))) := by
  have hh' (f : Thread → Thread) : (s.onThr th f).haltSelected th c = false := hh
  simp [State.takeException, hexl, hh']

theorem entered_takeException {s u : State} {th : Thr} {c : Cause} {o : Thread} (hexl : o.exl = false) (hrep : o.rep = none)
    (hd : c.deferred = false) (hh : u.haltSelected th c = false) {due : Option Word}
    (hu : u.thr th = { o with stepDue := due })
    (he : u.reg (Reg.PIER_ENTRY_at th.pier.val) = s.reg (Reg.PIER_ENTRY_at th.pier.val)) :
    Entered o ((u.takeException th c o.pc).thr th) c.code c.sub c.einfo o.pc (s.reg (Reg.PIER_ENTRY_at th.pier.val)) := by
  rw [takeException_enters (by rw [hu]; exact hexl) hh, State.thr_onThr_same, hu, he]
  split
  · exact entered_enter rfl rfl rfl rfl hrep hd
  · exact entered_enter rfl rfl rfl rfl hrep hd

/-- What clearing the pending bit of a cause can do. -/
theorem clearPending_cases (s : State) (th : Thr) (c : Cause) :
    (∃ i, s.clearPending th c = s.setBit (Reg.PIER_SYSPEND.PEND th.pier.val) i false) ∨
    (∃ i, s.clearPending th c = s.setBit (Reg.PIER_SPF.PEND th.pier.val) i false) ∨
    (∃ e, s.clearPending th c = s.setEvPending th.pier.val e false) ∨
    s.clearPending th c = s.onThr th (fun t => { t with stepDue := none }) ∨
    s.clearPending th c = s := by
  generalize hx : s.clearPending th c = x
  unfold State.clearPending at hx
  dsimp only at hx
  iterate 4
    split at hx
    · exact .inl ⟨_, hx.symm⟩
  split at hx
  · exact .inr (.inl ⟨_, hx.symm⟩)
  split at hx
  · exact .inr (.inr (.inl ⟨_, hx.symm⟩))
  split at hx
  · exact .inr (.inr (.inr (.inl hx.symm)))
  · exact .inr (.inr (.inr (.inr hx.symm)))

theorem thr_clearPending (s : State) (th : Thr) (c : Cause) :
    ∃ due, (s.clearPending th c).thr th = { s.thr th with stepDue := due } := by
  have hsame : s.thr th = { s.thr th with stepDue := (s.thr th).stepDue } := rfl
  obtain ⟨i, h⟩ | ⟨i, h⟩ | ⟨e, h⟩ | h | h := clearPending_cases s th c <;> rw [h]
  · exact ⟨_, hsame⟩
  · exact ⟨_, hsame⟩
  · exact ⟨_, (thr_setEvPending _ _ _ _ _).trans hsame⟩
  · exact ⟨_, State.thr_onThr_same _ _ _⟩
  · exact ⟨_, hsame⟩

theorem reg_setEvPending_other (s : State) (p e : Nat) (v : Bool) {a : Nat} (hl : a ≠ Reg.PIER_EVPEND_LO_at p)
    (hh : a ≠ Reg.PIER_EVPEND_HI_at p) : (s.setEvPending p e v).reg a = s.reg a := by
  unfold State.setEvPending
  split
  · exact State.reg_setBit_other _ _ _ _ _ hl
  · exact State.reg_setBit_other _ _ _ _ _ hh

/-- Clearing the pending bit of a cause touches the registers that hold pending bits alone. -/
theorem reg_clearPending_other (s : State) (th : Thr) (c : Cause) {a : Nat} (hs : a ≠ Reg.PIER_SYSPEND_at th.pier.val)
    (hf : a ≠ Reg.PIER_SPF_at th.pier.val) (hl : a ≠ Reg.PIER_EVPEND_LO_at th.pier.val) (hh : a ≠ Reg.PIER_EVPEND_HI_at th.pier.val) :
    (s.clearPending th c).reg a = s.reg a := by
  obtain ⟨i, h⟩ | ⟨i, h⟩ | ⟨e, h⟩ | h | h := clearPending_cases s th c <;> rw [h]
  · exact State.reg_setBit_other _ _ _ _ _ hs
  · exact State.reg_setBit_other _ _ _ _ _ hf
  · exact reg_setEvPending_other _ _ _ _ hl hh
  · rfl

theorem pending_regs_apart (p : Nat) {a : Nat} (ha : a = Reg.PIER_DBG_CTL_at p ∨ a = Reg.PIER_ENTRY_at p) :
    a ≠ Reg.PIER_SYSPEND_at p ∧ a ≠ Reg.PIER_SPF_at p ∧ a ≠ Reg.PIER_EVPEND_LO_at p ∧ a ≠ Reg.PIER_EVPEND_HI_at p := by
  unfold Reg.PIER_DBG_CTL_at Reg.PIER_ENTRY_at at ha
  unfold Reg.PIER_SYSPEND_at Reg.PIER_SPF_at Reg.PIER_EVPEND_LO_at Reg.PIER_EVPEND_HI_at
  omega

theorem reg_clearPending_dbgCtl (s : State) (th : Thr) (c : Cause) :
    (s.clearPending th c).reg (Reg.PIER_DBG_CTL_at th.pier.val) = s.reg (Reg.PIER_DBG_CTL_at th.pier.val) := by
  obtain ⟨hs, hf, hl, hh⟩ := pending_regs_apart th.pier.val (.inl rfl)
  exact reg_clearPending_other s th c hs hf hl hh

theorem reg_clearPending_entry (s : State) (th : Thr) (c : Cause) :
    (s.clearPending th c).reg (Reg.PIER_ENTRY_at th.pier.val) = s.reg (Reg.PIER_ENTRY_at th.pier.val) := by
  obtain ⟨hs, hf, hl, hh⟩ := pending_regs_apart th.pier.val (.inr rfl)
  exact reg_clearPending_other s th c hs hf hl hh

theorem haltSelected_congr {s t : State} {th : Thr}
    (h : t.reg (Reg.PIER_DBG_CTL_at th.pier.val) = s.reg (Reg.PIER_DBG_CTL_at th.pier.val)) (c : Cause) :
    t.haltSelected th c = s.haltSelected th c := by
  have hb (i : Nat) : t.bit (Reg.PIER_DBG_CTL.HALT_BRK th.pier.val) i = s.bit (Reg.PIER_DBG_CTL.HALT_BRK th.pier.val) i := by
    unfold State.bit
    rw [show (Reg.PIER_DBG_CTL.HALT_BRK th.pier.val).addr = Reg.PIER_DBG_CTL_at th.pier.val from rfl, h]
  have hs (i : Nat) : t.bit (Reg.PIER_DBG_CTL.HALT_STEP th.pier.val) i = s.bit (Reg.PIER_DBG_CTL.HALT_STEP th.pier.val) i := by
    unfold State.bit
    rw [show (Reg.PIER_DBG_CTL.HALT_STEP th.pier.val).addr = Reg.PIER_DBG_CTL_at th.pier.val from rfl, h]
  simp only [State.haltSelected, hb, hs]

/-- The first cause due at the boundary of a thread without deferred and floating-point causes (R136). -/
theorem exec_exceptionEntry {s : State} {th : Thr} (hcl : s.clocked th.pier.val = true) (hrun : (s.thr th).run = .running)
    (hacc : (s.thr th).acc = none) (hstop : (s.thr th).stopReq = false) (htp : (s.thr th).tpend = 0) (hd : (s.thr th).defErrs = []) :
    exec (.exceptionEntry th) s = .next (
      if pcOk (s.thr th).pc = false then s.takeException th (.mk' cIspace 0 (s.thr th).pc) (s.thr th).pc
      else if pierLegal (s.ifetch th.pier.val (s.thr th).pc) = false then
        s.takeException th (.mk' cIllegal 0 (s.ifetch th.pier.val (s.thr th).pc)) (s.thr th).pc
      else (s.asyncDue th).elim s (fun c => (s.clearPending th c).takeException th c (s.thr th).pc)) := by
  have hb : (s.thr th).atBoundary = true := by simp [Thread.atBoundary, hrun, hacc, hstop]
  rw [show exec (.exceptionEntry th) s = execExceptionEntry th s from rfl]
  simp only [execExceptionEntry, State.takeCause, State.takeAsync, hcl, hrun, hb, htp, hd, Bool.not_true, Bool.false_eq_true,
    if_false, bne_self_eq_false, Bool.false_and, List.isEmpty_nil, Bool.not_eq_true', reduceCtorEq, ne_eq, not_true_eq_false]
  cases s.asyncDue th <;> rfl

theorem exceptionEntryWritesRegisters : ExceptionEntryWritesRegisters := by
  intro th s hcl hrun hacc hstop hrep htp hd hexl
  have he := exec_exceptionEntry hcl hrun hacc hstop htp hd
  have hown (c : Cause) (hdef : c.deferred = false) (hh : s.haltSelected th c = false) :
      Entered (s.thr th) ((s.takeException th c (s.thr th).pc).thr th) c.code c.sub c.einfo (s.thr th).pc
        (s.reg (Reg.PIER_ENTRY_at th.pier.val)) :=
    entered_takeException (due := (s.thr th).stepDue) hexl hrep hdef hh rfl rfl
  refine ⟨fun hpc => ⟨_, he, ?_⟩, fun hpc hl => ⟨_, he, ?_⟩, fun c hpc hl hc hdef hh => ⟨_, he, ?_⟩⟩
  · rw [if_pos (show pcOk (s.thr th).pc = false from decide_eq_false (by omega))]
    exact hown (.mk' cIspace 0 (s.thr th).pc) rfl (haltSelected_of_code (show cIspace ≠ cBreak by decide) (show cIspace ≠ cStep by decide))
  · have hok : pcOk (s.thr th).pc = true := decide_eq_true hpc
    rw [if_neg (by rw [hok]; decide), if_pos hl]
    exact hown (.mk' cIllegal 0 _) rfl (haltSelected_of_code (show cIllegal ≠ cBreak by decide) (show cIllegal ≠ cStep by decide))
  · have hok : pcOk (s.thr th).pc = true := decide_eq_true hpc
    rw [if_neg (by rw [hok]; decide), if_neg (by rw [hl]; decide), hc]
    obtain ⟨due, hdue⟩ := thr_clearPending s th c
    exact entered_takeException hexl hrep hdef ((haltSelected_congr (reg_clearPending_dbgCtl s th c) c).trans hh) hdue
      (reg_clearPending_entry s th c)

/-- The second cause of a double exception recorded in the registers of its pier (R138). -/
def recordDouble (s : State) (th : Thr) (c : Cause) (epc : Word) : State :=
  (((s.wf (Reg.PIER_DBLCAUSE.CODE th.pier.val) c.code).wf (Reg.PIER_DBLCAUSE.THREAD th.pier.val) th.th.val).wf
    (Reg.PIER_DBLEPC.ADDR th.pier.val) epc.toNat).setBit (Reg.PIER_EXC_STATUS.DOUBLE th.pier.val) th.th.val true

/-- A thread as a double exception leaves it. -/
def Thread.doubled (t : Thread) (c : Cause) : Thread :=
  { (if c.code = cFp then t.deliverTpend else t).endRepeat.commitProduct with
    stopReq := true, run := .running, acc := none, viaGret := false }

theorem doubled_outside_repeat {t : Thread} {c : Cause} (hc : c.code ≠ cFp) (hrep : t.rep = none) : Thread.doubled t.gretSeen c =
    { t.commitProduct with stopReq := true, run := .running, acc := none, viaGret := false } := by
  have hend : t.gretSeen.endRepeat = t.gretSeen := by
    unfold Thread.endRepeat
    rw [show t.gretSeen.rep = none from hrep]
  simp only [Thread.doubled, if_neg hc, hend]
  rfl

theorem doubleException_eq (s : State) (th : Thr) (c : Cause) (epc : Word) : s.doubleException th c epc =
    ((recordDouble s th c epc).onThr th (Thread.doubled · c)).raiseIf (Reg.PIER_TRAP_CTL.EXC_EVENT th.pier.val)
      (Reg.PIER_TRAP_CTL.EXC_EVENT_EN th.pier.val) := rfl

theorem double_regs_apart (p : Nat) : Reg.PIER_DBLCAUSE_at p ≠ Reg.PIER_DBLEPC_at p ∧ Reg.PIER_DBLCAUSE_at p ≠ Reg.PIER_EXC_STATUS_at p ∧
    Reg.PIER_DBLEPC_at p ≠ Reg.PIER_EXC_STATUS_at p := by
  unfold Reg.PIER_DBLCAUSE_at Reg.PIER_DBLEPC_at Reg.PIER_EXC_STATUS_at
  omega

theorem recordDouble_fields (s : State) (th : Thr) (c : Cause) (epc : Word) :
    (recordDouble s th c epc).rf (Reg.PIER_DBLCAUSE.CODE th.pier.val) = c.code % 2 ^ 8 ∧
    (recordDouble s th c epc).rf (Reg.PIER_DBLCAUSE.THREAD th.pier.val) = th.th.val ∧
    (recordDouble s th c epc).rf (Reg.PIER_DBLEPC.ADDR th.pier.val) = epc.toNat ∧
    (recordDouble s th c epc).bit (Reg.PIER_EXC_STATUS.DOUBLE th.pier.val) th.th.val = true := by
  obtain ⟨hce, hcs, hes⟩ := double_regs_apart th.pier.val
  have hth := th.th.isLt
  refine ⟨?_, ?_, ?_, ?_⟩
  · rw [recordDouble, State.setBit, State.rf_setReg_other _ _ _ _ hcs, State.rf_wf_other _ _ _ _ (.inl hce),
      State.rf_wf_other _ _ _ _ (.inr (.inl (by exact Nat.le_refl 8))), State.rf_wf_same _ _ _ (by exact (by decide : 8 ≤ 32))]
    rfl
  · rw [recordDouble, State.setBit, State.rf_setReg_other _ _ _ _ hcs, State.rf_wf_other _ _ _ _ (.inl hce),
      State.rf_wf_same _ _ _ (by exact (by decide : 11 ≤ 32))]
    exact Nat.mod_eq_of_lt hth
  · rw [recordDouble, State.setBit, State.rf_setReg_other _ _ _ _ hes, State.rf_wf_same _ _ _ (by exact Nat.le_refl 32)]
    exact Nat.mod_eq_of_lt epc.isLt
  · exact State.bit_setBit_same _ _ _ _ (by show 0 + th.th.val < 32; omega)

theorem thr_recordDouble (s : State) (th : Thr) (c : Cause) (epc : Word) (u : Thr) : (recordDouble s th c epc).thr u = s.thr u := by
  rw [recordDouble, State.thr_setBit, State.thr_wf, State.thr_wf, State.thr_wf]

theorem recordDouble_net (s : State) (th : Thr) (c : Cause) (epc : Word) : (recordDouble s th c epc).net = s.net := by
  rw [recordDouble, State.setBit_net, State.wf_net, State.wf_net, State.wf_net]

theorem trapCtl_apart (p : Nat) : Reg.PIER_TRAP_CTL_at p ≠ Reg.PIER_DBLCAUSE_at p ∧ Reg.PIER_TRAP_CTL_at p ≠ Reg.PIER_DBLEPC_at p ∧
    Reg.PIER_TRAP_CTL_at p ≠ Reg.PIER_EXC_STATUS_at p := by
  unfold Reg.PIER_TRAP_CTL_at Reg.PIER_DBLCAUSE_at Reg.PIER_DBLEPC_at Reg.PIER_EXC_STATUS_at
  omega

theorem recordDouble_trapCtl (s : State) (th : Thr) (c : Cause) (epc : Word) :
    (recordDouble s th c epc).reg (Reg.PIER_TRAP_CTL_at th.pier.val) = s.reg (Reg.PIER_TRAP_CTL_at th.pier.val) := by
  obtain ⟨hc, he, hs⟩ := trapCtl_apart th.pier.val
  rw [recordDouble, State.reg_setBit_other _ (Reg.PIER_EXC_STATUS.DOUBLE _) _ _ _ hs,
    State.reg_wf_other _ (Reg.PIER_DBLEPC.ADDR _) _ _ he, State.reg_wf_other _ (Reg.PIER_DBLCAUSE.THREAD _) _ _ hc,
    State.reg_wf_other _ (Reg.PIER_DBLCAUSE.CODE _) _ _ hc]

theorem doubleException_events {s : State} {th : Thr} {c : Cause} {epc : Word}
    (hen : s.on (Reg.PIER_TRAP_CTL.EXC_EVENT_EN th.pier.val) = true) : (s.doubleException th c epc).net.events =
      s.net.events ++ [Fin.ofNat 64 (s.rf (Reg.PIER_TRAP_CTL.EXC_EVENT th.pier.val))] := by
  have hreg (f : Fd) (hf : f.addr = Reg.PIER_TRAP_CTL_at th.pier.val) :
      ((recordDouble s th c epc).onThr th (Thread.doubled · c)).reg f.addr = s.reg f.addr := by
    rw [hf, State.reg_onThr, recordDouble_trapCtl]
  have hev : ev ((recordDouble s th c epc).onThr th (Thread.doubled · c))
      (Reg.PIER_TRAP_CTL.EXC_EVENT th.pier.val, Reg.PIER_TRAP_CTL.EXC_EVENT_EN th.pier.val) =
        ev s (Reg.PIER_TRAP_CTL.EXC_EVENT th.pier.val, Reg.PIER_TRAP_CTL.EXC_EVENT_EN th.pier.val) :=
    ev_congr (hreg _ rfl) (hreg _ rfl)
  rw [doubleException_eq, State.raiseIf_events, hev, ev, if_pos hen, State.onThr_net, recordDouble_net]

/-- A BRK with EXL 1 is a double exception (R138). -/
theorem brk_double {s : State} {th : Thr} (h : Runs s th) (hexl : (s.thr th).exl = true) (code : BitVec 11) :
    exec (.brk th code) s =
      .next ((s.onThr th Thread.gretSeen).doubleException th (.mk' cBreak 0 (zx code)) (s.thr th).pc) := by
  have hg : (s.onThr th Thread.gretSeen).thr th = (s.thr th).gretSeen := State.thr_onThr_same _ _ _
  have htp : (s.thr th).gretSeen.tpend = 0 := h.noTpend
  have hexl' : (s.thr th).gretSeen.exl = true := hexl
  have he := h.issue false false (fun _ => .trap (.mk' cBreak 0 (zx code)))
  simp only [State.conclude, State.takeCause, State.takeException, hg, htp, hexl', ne_eq, not_true_eq_false, if_false, if_true] at he
  exact congrArg _ he

theorem doubleExceptionStopsThread : DoubleExceptionStopsThread := by
  intro th code s h hexl
  refine ⟨_, brk_double h hexl code, ?_⟩
  obtain ⟨hcode, hthread, hepc, hbit⟩ :=
    recordDouble_fields (s.onThr th Thread.gretSeen) th (.mk' cBreak 0 (zx code)) (s.thr th).pc
  have ht : ((s.onThr th Thread.gretSeen).doubleException th (.mk' cBreak 0 (zx code)) (s.thr th).pc).thr th =
      Thread.doubled (s.thr th).gretSeen (.mk' cBreak 0 (zx code)) := by
    rw [doubleException_eq, State.thr_raiseIf, State.thr_onThr_same, thr_recordDouble, State.thr_onThr_same]
  rw [ht, doubled_outside_repeat (show cBreak ≠ cFp by decide) h.noRepeat]
  refine ⟨rfl, rfl, rfl, rfl, rfl, rfl, rfl, ?_, ?_, ?_, ?_, fun hen => ?_⟩
  · rw [doubleException_eq, State.rf_raiseIf, State.rf_onThr, hcode]
    rfl
  · rw [doubleException_eq, State.rf_raiseIf, State.rf_onThr, hthread]
  · rw [doubleException_eq, State.rf_raiseIf, State.rf_onThr, hepc]
  · rw [doubleException_eq, State.bit, State.reg_raiseIf, State.reg_onThr]
    exact hbit
  · rw [doubleException_events (by rw [State.on, State.rf_onThr]; exact hen), State.rf_onThr, State.onThr_net]

/-- Settles O17: entry by the first cause at the boundary, a double exception by the registers that record it. -/
theorem exceptionEntryAndDoubleException : Obligations.ExceptionEntryAndDoubleException :=
  ⟨exceptionEntryWritesRegisters, doubleExceptionStopsThread⟩

end Sys2Proof.Claims
end
section
/-!
PROOFS. Debug access: what each outcome of an access to the I/O space or to a stopped thread leaves (O58).

Choices and readings of this file: none.
-/

namespace Sys2Proof.Claims

open Sys2Proof.Machine

/-! ## The register an address names -/

/-- REG names a register exactly in these ranges. -/
theorem dbgRegOf_isNone (n : Nat) :
    (dbgRegOf n).isNone = true ↔ ¬ (n < 0x60 ∨ (0x80 ≤ n ∧ n < 0xC2) ∨ (0xD0 ≤ n ∧ n < 0xDA)) := by
  unfold dbgRegOf
  repeat' split
  all_goals simp only [Option.isNone_none, Option.isNone_some, Bool.false_eq_true, true_iff, false_iff, not_not]
  all_goals omega

theorem dbgRegOf_g (i : RegIx) : dbgRegOf i.val = some (.g i) := by
  have hi := i.isLt
  simp only [dbgRegOf, hi, if_true, Fin.ofNat_val_eq_self]

theorem dbgRegOf_fLo (i : RegIx) : dbgRegOf (0x20 + i.val) = some (.fLo i) := by
  have hi := i.isLt
  simp only [dbgRegOf, if_neg (show ¬ 0x20 + i.val < 0x20 by omega), if_pos (show 0x20 + i.val < 0x40 by omega),
    Nat.add_sub_cancel_left, Fin.ofNat_val_eq_self]

theorem dbgRegOf_fHi (i : RegIx) : dbgRegOf (0x40 + i.val) = some (.fHi i) := by
  have hi := i.isLt
  simp only [dbgRegOf, if_neg (show ¬ 0x40 + i.val < 0x20 by omega), if_neg (show ¬ 0x40 + i.val < 0x40 by omega),
    if_pos (show 0x40 + i.val < 0x60 by omega), Nat.add_sub_cancel_left, Fin.ofNat_val_eq_self]

theorem dbgRegOf_w (i : WIx) (k : Fin 8) : dbgRegOf (0x80 + 8 * i.val + k.val) = some (.w i k) := by
  have hi := i.isLt
  have hk := k.isLt
  have hreg : (0x80 + 8 * i.val + k.val - 0x80) / 8 = i.val := by omega
  have hword : Fin.ofNat 8 ((0x80 + 8 * i.val + k.val) % 8) = k := Fin.ext (by simp only [Fin.ofNat]; omega)
  simp only [dbgRegOf, if_neg (show ¬ 0x80 + 8 * i.val + k.val < 0x20 by omega),
    if_neg (show ¬ 0x80 + 8 * i.val + k.val < 0x40 by omega), if_neg (show ¬ 0x80 + 8 * i.val + k.val < 0x60 by omega),
    if_pos (show 0x80 ≤ 0x80 + 8 * i.val + k.val ∧ 0x80 + 8 * i.val + k.val < 0xC0 by omega), hreg, hword,
    Fin.ofNat_val_eq_self]

/-! ## One word of a W register written -/

/-- A number below a digit's place, and the digit, are below the next place. -/
theorem low_add_digit_lt (x v e : Nat) (hv : v < 2 ^ 32) : x % 2 ^ e + v * 2 ^ e < 2 ^ (e + 32) := by
  have hlow : x % 2 ^ e < 2 ^ e := Nat.mod_lt _ (Nat.two_pow_pos _)
  calc x % 2 ^ e + v * 2 ^ e < 2 ^ e + v * 2 ^ e := by omega
    _ = (v + 1) * 2 ^ e := by ring
    _ ≤ 2 ^ 32 * 2 ^ e := Nat.mul_le_mul_right _ hv
    _ = 2 ^ (e + 32) := by ring

/-- A digit replaced at a place that `m` divides changes nothing modulo `m`. -/
theorem digit_set_mod (x v m c b : Nat) :
    (x % (m * c) + v * (m * c) + x / (m * c * b) * (m * c * b)) % m = x % m := by
  have hsum : x % (m * c) + v * (m * c) + x / (m * c * b) * (m * c * b) = x % (m * c) + m * (v * c + x / (m * c * b) * (c * b)) := by
    ring
  rw [hsum, Nat.add_mul_mod_self_left, Nat.mod_mul_right_mod]

/-- The 32-bit digits of a number whose digit `k` is replaced by `v`. -/
theorem digit_set (x v k j : Nat) (hv : v < 2 ^ 32) :
    (x % 2 ^ (32 * k) + v * 2 ^ (32 * k) + x / 2 ^ (32 * k + 32) * 2 ^ (32 * k + 32)) / 2 ^ (32 * j) % 2 ^ 32 =
      if j = k then v else x / 2 ^ (32 * j) % 2 ^ 32 := by
  have hpos : 0 < 2 ^ (32 * k) := Nat.two_pow_pos _
  have hlow : x % 2 ^ (32 * k) < 2 ^ (32 * k) := Nat.mod_lt _ hpos
  rcases Nat.lt_trichotomy j k with hjk | rfl | hjk
  · obtain ⟨c, hc⟩ : 2 ^ (32 * j) * 2 ^ 32 ∣ 2 ^ (32 * k) := by
      rw [← pow_add]
      exact pow_dvd_pow 2 (by omega)
    rw [if_neg (by omega), ← Nat.mod_mul_right_div_self, ← Nat.mod_mul_right_div_self, pow_add, hc]
    rw [digit_set_mod]
  · rw [if_pos rfl, pow_add]
    generalize 2 ^ (32 * j) = p at hpos hlow
    calc (x % p + v * p + x / (p * 2 ^ 32) * (p * 2 ^ 32)) / p % 2 ^ 32
        = (x % p + p * (v + 2 ^ 32 * (x / (p * 2 ^ 32)))) / p % 2 ^ 32 := by ring_nf
      _ = v := by rw [Nat.add_mul_div_left _ _ hpos, Nat.div_eq_of_lt hlow, Nat.zero_add, Nat.add_mul_mod_self_left,
                    Nat.mod_eq_of_lt hv]
  · have hdigit := low_add_digit_lt x v (32 * k) hv
    obtain ⟨c, hc⟩ : 2 ^ (32 * k + 32) ∣ 2 ^ (32 * j) := pow_dvd_pow 2 (by omega)
    rw [if_neg (by omega), hc, ← Nat.div_div_eq_div_mul, ← Nat.div_div_eq_div_mul,
      Nat.add_mul_div_right _ _ (Nat.two_pow_pos _), Nat.div_eq_of_lt hdigit, Nat.zero_add]

/-- A 256-bit number with one of its eight words replaced stays within 256 bits. -/
theorem digit_set_lt (x v : Nat) (k : Fin 8) (hx : x < 2 ^ 256) (hv : v < 2 ^ 32) :
    x % 2 ^ (32 * k.val) + v * 2 ^ (32 * k.val) + x / 2 ^ (32 * k.val + 32) * 2 ^ (32 * k.val + 32) < 2 ^ 256 := by
  have hdigit := low_add_digit_lt x v (32 * k.val) hv
  obtain ⟨c, hc⟩ : 2 ^ (32 * k.val + 32) ∣ 2 ^ 256 := pow_dvd_pow 2 (by omega)
  rw [hc] at hx ⊢
  have htop : x / 2 ^ (32 * k.val + 32) < c := Nat.div_lt_of_lt_mul hx
  nlinarith [Nat.mul_le_mul_left (2 ^ (32 * k.val + 32)) htop]

/-- A write of word `k` of a W register changes that word alone. -/
theorem dbgWrite_w_digit (t : Thread) (v : Word) (i : WIx) (k : Fin 8) (j : Nat) :
    ((t.dbgWrite v (.w i k)).rw i).toNat / 2 ^ (32 * j) % 2 ^ 32 =
      if j = k.val then v.toNat else (t.rw i).toNat / 2 ^ (32 * j) % 2 ^ 32 := by
  have hlt := digit_set_lt (t.rw i).toNat v.toNat k (t.rw i).isLt v.isLt
  simp only [Thread.dbgWrite, Thread.rw_ww, if_true, BitVec.toNat_ofNat, Nat.mod_eq_of_lt hlt]
  exact digit_set _ _ _ _ v.isLt

/-! ## The outcome of an access -/

@[simp] theorem State.thr_dbgResult (s : State) (st : Nat) (v : Word) (th : Thr) : (s.dbgResult st v).thr th = s.thr th := rfl


section
variable {s : State} (hup : s.tapUp = true)
include hup

/-- A read that is denied captures its status and data without a value. -/
theorem dbgRegRead_denied {th : Thr} {r : BitVec 8} {st : Nat} (hden : s.dbgDenied th r = some st) :
    Does (.dbgaccRegRead th r) s (fun t => t = { s with dbg := t.dbg, free := t.free } ∧ t.dbg.status = st) :=
  ⟨s.dbgFail st, by
    rw [show exec (.dbgaccRegRead th r) s = execDbgaccRegRead th r s from rfl]
    simp only [execDbgaccRegRead, hup, hden, Bool.not_true, Bool.false_eq_true, if_false], rfl, rfl⟩

/-- A write that is denied captures its status and the word it would have written. -/
theorem dbgRegWrite_denied {th : Thr} {r : BitVec 8} {st : Nat} (v : Word) (hden : s.dbgDenied th r = some st) :
    Does (.dbgaccRegWrite th r v) s (fun t => t = { s with dbg := ⟨st, v⟩ }) :=
  ⟨s.dbgResult st v, by
    rw [show exec (.dbgaccRegWrite th r v) s = execDbgaccRegWrite th r v s from rfl]
    simp only [execDbgaccRegWrite, hup, hden, Bool.not_true, Bool.false_eq_true, if_false], rfl⟩

variable {th : Thr} {r : BitVec 8} {x : DbgReg} (hon : s.online th.pier.val = true) (hst : (s.thr th).run = .stopped)
  (hreg : dbgRegOf r.toNat = some x)
include hon hst hreg

omit hup in
/-- A register of a STOPPED thread of an ONLINE pier may be accessed. -/
theorem dbgDenied_eq_none : s.dbgDenied th r = none := by
  simp [State.dbgDenied, hon, hst, hreg]

theorem dbgRegRead_granted :
    exec (.dbgaccRegRead th r) s = .next (s.dbgResult 0
      ((s.thr th).dbgRead (BitVec.ofNat 32 (s.rf (Reg.PIER_THPC.PC th.pier.val th.th.val))) x)) := by
  rw [show exec (.dbgaccRegRead th r) s = execDbgaccRegRead th r s from rfl]
  simp only [execDbgaccRegRead, hup, dbgDenied_eq_none hon hst hreg, hreg, Bool.not_true, Bool.false_eq_true, if_false]

/-- A register other than the PC: the thread alone is written. -/
theorem dbgRegWrite_granted (v : Word) (hx : x ≠ .special 0) :
    exec (.dbgaccRegWrite th r v) s = .next ((s.onThr th (fun t => t.dbgWrite v x)).dbgResult 0 v) := by
  rw [show exec (.dbgaccRegWrite th r v) s = execDbgaccRegWrite th r v s from rfl]
  simp only [execDbgaccRegWrite, hup, dbgDenied_eq_none hon hst hreg, hreg, hx, Bool.not_true, Bool.false_eq_true, if_false]

/-- What the write of such a register leaves of the thread. -/
theorem dbgRegWrite_leaves (v : Word) (hx : x ≠ .special 0) {P : Thread → Prop} (hP : P ((s.thr th).dbgWrite v x)) :
    Does (.dbgaccRegWrite th r v) s (fun t => P (t.thr th)) :=
  ⟨_, dbgRegWrite_granted hup hon hst hreg v hx, by
    beta_reduce
    rwa [State.thr_dbgResult, State.thr_onThr_same]⟩

end

/-- The PC of a STOPPED thread: PIER_THPC takes it too (R65). -/
theorem dbgRegWrite_pc {s : State} (hup : s.tapUp = true) {th : Thr} {r : BitVec 8} (hon : s.online th.pier.val = true)
    (hst : (s.thr th).run = .stopped) (hreg : dbgRegOf r.toNat = some (.special 0)) (v : Word) :
    exec (.dbgaccRegWrite th r v) s = .next
      (((s.onThr th (fun t => t.dbgWrite v (.special 0))).wf (Reg.PIER_THPC.PC th.pier.val th.th.val) v.toNat).dbgResult 0 v) := by
  rw [show exec (.dbgaccRegWrite th r v) s = execDbgaccRegWrite th r v s from rfl]
  simp only [execDbgaccRegWrite, hup, dbgDenied_eq_none hon hst hreg, hreg, Bool.not_true, Bool.false_eq_true, if_false,
    if_true]

/-! ## The I/O space -/

/-- Each outcome of an access to the I/O space from TS22 and the status it captures. -/
theorem dbgIo_outcomes {s : State} (hup : s.tapUp = true) (a : BitVec 16) (v : Word) (u : State) :
    (∀ d, s.ioRead .debug 54 a.toNat = (.done d, u) →
      Does (.dbgaccIoRead a) s (fun t => t = { u with dbg := ⟨0, BitVec.ofNat 32 d⟩ })) ∧
    (∀ e, s.ioRead .debug 54 a.toNat = (.error e, u) →
      Does (.dbgaccIoRead a) s (fun t => t = { u with dbg := t.dbg, free := t.free } ∧ t.dbg.status = 3)) ∧
    (∀ c, s.ioWrite .debug 54 a.toNat v = (.done c, u) →
      Does (.dbgaccIoWrite a v) s (fun t => t = { u with dbg := ⟨if c = 0 then 0 else 4, v⟩ })) ∧
    (∀ e, s.ioWrite .debug 54 a.toNat v = (.error e, u) → Does (.dbgaccIoWrite a v) s (fun t => t = { u with dbg := ⟨3, v⟩ })) := by
  have hrd : exec (.dbgaccIoRead a) s = execDbgaccIoRead a s := rfl
  have hwr : exec (.dbgaccIoWrite a v) s = execDbgaccIoWrite a v s := rfl
  refine ⟨fun d h => ⟨_, hrd.trans ?_, rfl⟩, fun e h => ⟨u.dbgFail 3, hrd.trans ?_, rfl, rfl⟩,
    fun c h => ⟨_, hwr.trans ?_, rfl⟩, fun e h => ⟨_, hwr.trans ?_, rfl⟩⟩
  · simp only [execDbgaccIoRead, niAon, hup, h, Bool.not_true, Bool.false_eq_true, if_false, State.dbgResult]
  · simp only [execDbgaccIoRead, niAon, hup, h, Bool.not_true, Bool.false_eq_true, if_false]
  · simp only [execDbgaccIoWrite, niAon, hup, h, Bool.not_true, Bool.false_eq_true, if_false, State.dbgResult]
  · simp only [execDbgaccIoWrite, niAon, hup, h, Bool.not_true, Bool.false_eq_true, if_false, State.dbgResult]

/-! ## The obligation -/

/-- Settles O58: the I/O outcomes, the three denials in their order, then one access per kind of register. -/
theorem debugAccessReachesRegistersAndThreads : Obligations.DebugAccessReachesRegistersAndThreads := by
  unfold Obligations.DebugAccessReachesRegistersAndThreads
  intro s hup
  refine ⟨dbgIo_outcomes hup, ?_⟩
  intro th r v n o valid fails
  have hfails : ∀ st, s.dbgDenied th r = some st → fails st := fun st h => ⟨dbgRegRead_denied hup h, dbgRegWrite_denied hup v h⟩
  refine ⟨fun hoff => hfails 6 ?_, fun hon hinv => hfails 5 ?_, fun hon hval hrun => hfails 2 ?_, fun hon hst => ?_⟩
  · simp only [State.dbgDenied, hoff, Bool.not_false, if_true]
  · have hnone := (dbgRegOf_isNone r.toNat).mpr hinv
    simp only [State.dbgDenied, hon, hnone, Bool.not_true, Bool.false_eq_true, if_false, if_true]
  · have hsome : ¬ (dbgRegOf r.toNat).isNone = true := fun h => (dbgRegOf_isNone r.toNat).mp h hval
    have hrun' : (s.thr th).run ≠ .stopped := hrun
    simp only [State.dbgDenied, hon, hsome, hrun', Bool.not_true, Bool.false_eq_true, if_false, if_true, ne_eq, not_false_eq_true]
  have hread : ∀ x, dbgRegOf r.toNat = some x → exec (.dbgaccRegRead th r) s = _ := fun x => dbgRegRead_granted hup hon hst
  refine ⟨fun i hn => ?_, fun i hn => ?_, fun i hn => ?_, fun i k hn => ?_, fun hn => ?_, fun hn => ?_⟩
  · have hreg : dbgRegOf r.toNat = some (.g i) := (congrArg dbgRegOf hn).trans (dbgRegOf_g i)
    refine ⟨⟨_, hread _ hreg, rfl⟩, ⟨_, dbgRegWrite_granted hup hon hst hreg v (by simp), rfl, ?_,
      fun k hk => by rw [State.thr_dbgResult, State.thr_onThr_other _ _ _ _ hk], ?_⟩⟩
    · rw [State.thr_dbgResult, State.thr_onThr_same]
      exact fun r => Thread.rg_wg _ _ _ _
    · rw [State.thr_dbgResult, State.thr_onThr_same, Thread.dbgWrite, Thread.wg]
      split <;> rfl
  · have hreg : dbgRegOf r.toNat = some (.fLo i) := (congrArg dbgRegOf hn).trans (dbgRegOf_fLo i)
    exact ⟨⟨_, hread _ hreg, rfl⟩, dbgRegWrite_leaves hup hon hst hreg v (P := fun t' => FWritten _ t' _ _) (by simp)
      (fun r => Thread.rf_wf _ _ _ _)⟩
  · have hreg : dbgRegOf r.toNat = some (.fHi i) := (congrArg dbgRegOf hn).trans (dbgRegOf_fHi i)
    refine ⟨⟨_, hread _ hreg, ?_⟩, dbgRegWrite_leaves hup hon hst hreg v (P := fun t' => FWritten _ t' _ _) (by simp)
      (fun r => Thread.rf_wf _ _ _ _)⟩
    rw [← Nat.shiftRight_eq_div_pow, ← BitVec.toNat_ushiftRight, BitVec.ofNat_toNat]
    rfl
  · have hreg : dbgRegOf r.toNat = some (.w i k) := (congrArg dbgRegOf hn).trans (dbgRegOf_w i k)
    refine ⟨⟨_, hread _ hreg, ?_⟩, dbgRegWrite_leaves hup hon hst hreg v (by simp)
      (P := fun t' => ∀ j, (t'.rw i).toNat / 2 ^ (32 * j) % 2 ^ 32 =
        if j = k.val then v.toNat else ((s.thr th).rw i).toNat / 2 ^ (32 * j) % 2 ^ 32)
      (dbgWrite_w_digit _ _ _ _)⟩
    rw [← Nat.shiftRight_eq_div_pow, ← BitVec.toNat_ushiftRight, BitVec.ofNat_toNat]
    rfl
  · have hreg : dbgRegOf r.toNat = some .pl := (congrArg dbgRegOf hn).trans rfl
    exact dbgRegWrite_leaves hup hon hst hreg v (P := fun t' => t' = _) (by simp) rfl
  · have hreg : dbgRegOf r.toNat = some (.special 0) := (congrArg dbgRegOf hn).trans rfl
    refine ⟨⟨_, hread _ hreg, rfl⟩, ⟨_, dbgRegWrite_pc hup hon hst hreg v, ?_⟩⟩
    beta_reduce
    rw [State.thr_dbgResult, State.thr_wf, State.thr_onThr_same]
    rfl

end Sys2Proof.Claims
end

section
/-!
PROOFS. Broadcasts: what a pier stop does with one, the round over the stops, and what every pier and thread holds after it (O27).

Choices and readings of this file: none.
-/

namespace Sys2Proof.Claims

open Sys2Proof.Machine

/-! ## The round as visits to the stops -/

/-- What a broadcast does at stop `q`: nothing where no pier is, a drop where it is not ONLINE, else what `take` does. -/
def visit (take : State → Nat → Bool × State) (u : State) (q : Nat) : State :=
  if !u.grade.hasIsland q then u else if !u.online q then u.dropDelivery q else (take u q).2

/-- The round visits its stops one after another. -/
theorem lap_eq_visits (take : State → Nat → Bool × State) (n p : Nat) (acc : Bool) (s : State) :
    (s.lap p n acc take).2 = (List.range' p n).foldl (visit take) s := by
  induction n generalizing p acc s with
  | zero => rfl
  | succ n ih =>
    rw [State.lap, List.range'_succ, List.foldl_cons, visit]
    split
    · exact ih _ _ _
    · split <;> exact ih _ _ _

/-- What every visit keeps, the round keeps. -/
theorem lap_keeps {P : State → Prop} {take : State → Nat → Bool × State} {n : Nat} (acc : Bool) {s : State}
    (hstep : ∀ u q, q < n → P u → P (visit take u q)) (hs : P s) : P (s.lap 0 n acc take).2 := by
  rw [lap_eq_visits]
  refine List.foldlRecOn _ _ hs (fun u hu q hq => hstep u q ?_ hu)
  simpa using hq

/-- The visit to stop `p` leads from what the stops before it keep to what the stops after it keep. -/
theorem lap_at {P Q : State → Prop} {take : State → Nat → Bool × State} {n p : Nat} (hp : p < n) (acc : Bool) {s : State}
    (hbefore : ∀ u q, q < n → q ≠ p → P u → P (visit take u q)) (hat : ∀ u, P u → Q (visit take u p))
    (hafter : ∀ u q, q < n → q ≠ p → Q u → Q (visit take u q)) (hs : P s) : Q (s.lap 0 n acc take).2 := by
  have hsplit : List.range' 0 n = List.range' 0 p ++ p :: List.range' (p + 1) (n - p - 1) := by
    have happ := List.range'_append (s := 0) (m := p) (n := n - p) (step := 1)
    rw [Nat.zero_add, Nat.one_mul, Nat.add_sub_cancel' hp.le] at happ
    rw [← happ, ← List.range'_succ, Nat.sub_add_cancel (by omega)]
  rw [lap_eq_visits, hsplit, List.foldl_append, List.foldl_cons]
  refine List.foldlRecOn _ _ (hat _ (List.foldlRecOn _ _ hs fun u hu q hq => hbefore u q ?_ ?_ hu))
    (fun u hu q hq => hafter u q ?_ ?_ hu)
  all_goals
    simp only [List.mem_range'_1] at hq
    omega

/-- A broadcast that no ONLINE pier accepts is not accepted in its round. -/
theorem lap_refused {P : State → Prop} {take : State → Nat → Bool × State}
    (href : ∀ u q, q < 16 → P u → u.online q = true → (take u q).1 = false) (hstep : ∀ u q, q < 16 → P u → P (visit take u q))
    (n p : Nat) (acc : Bool) (s : State) (hn : p + n ≤ 16) (hs : P s) : (s.lap p n acc take).1 = acc := by
  induction n generalizing p acc s with
  | zero => rfl
  | succ n ih =>
    have hv := hstep s p (by omega) hs
    unfold visit at hv
    rw [State.lap]
    split at hv
    · next h => rw [if_pos h]; exact ih _ _ _ (by omega) hv
    · next h =>
      rw [if_neg h]
      split at hv
      · next h' => rw [if_pos h']; exact ih _ _ _ (by omega) hv
      · next h' =>
        rw [if_neg h', ih _ _ _ (by omega) hv, href s p (by omega) hs (by simpa using h'), Bool.or_false]

/-! ## Drops -/

/-- A bit is the same where its register is. -/
theorem bit_congr {s t : State} {f : Fd} (h : t.reg f.addr = s.reg f.addr) (i : Nat) : t.bit f i = s.bit f i := by
  unfold State.bit
  rw [h]

/-- A field is the same where its register is. -/
theorem rf_congr {s t : State} {f : Fd} (h : t.reg f.addr = s.reg f.addr) : t.rf f = s.rf f := by
  unfold State.rf
  rw [h]

/-- The registers of a drop. -/
def dropRegs : List Nat := [Reg.VIA_EV_DROP_CNT_at, Reg.VIA_EV_DROP_PIER_at]

theorem onlyThreadsAndRegs_dropDelivery (s : State) (p : Nat) : OnlyThreadsAndRegs s (s.dropDelivery p) :=
  ((OnlyThreadsAndRegs.refl s).setReg _ _).setReg _ _

theorem thr_dropDelivery (s : State) (p : Nat) (th : Thr) : (s.dropDelivery p).thr th = s.thr th := by
  rw [State.dropDelivery, State.thr_setBit, State.thr_incSat]

theorem reg_dropDelivery_other (s : State) (p : Nat) {a : Nat} (ha : a ∉ dropRegs) : (s.dropDelivery p).reg a = s.reg a := by
  simp only [dropRegs, List.mem_cons, List.not_mem_nil, or_false, not_or] at ha
  obtain ⟨hcnt, hpier⟩ := ha
  rw [State.dropDelivery, State.reg_setBit_other _ _ _ _ _ hpier, State.reg_incSat_other _ _ _ _ hcnt]

theorem bit_dropDelivery (s : State) (p q : Nat) (hp : p < 16) :
    (s.dropDelivery p).bit Reg.VIA_EV_DROP_PIER.PIER q = (decide (q = p) || s.bit Reg.VIA_EV_DROP_PIER.PIER q) := by
  rw [State.dropDelivery, bit_setBit _ _ _ _ (show 0 + p < 32 by omega)]
  by_cases hq : q = p
  · rw [if_pos hq, decide_eq_true hq, Bool.true_or]
  · rw [if_neg hq, decide_eq_false hq, Bool.false_or]
    exact bit_congr (State.reg_incSat_other _ _ _ _ (by decide)) q

theorem threads_dropDelivery (s : State) (p : Nat) : (s.dropDelivery p).threads = s.threads := by
  rw [State.dropDelivery, State.setBit_threads, State.incSat_threads]

/-! ## A pier takes a broadcast -/

theorem OnlyThreadsAndRegs.trans {s t u : State} (h : OnlyThreadsAndRegs s t) (h' : OnlyThreadsAndRegs t u) :
    OnlyThreadsAndRegs s u := by
  obtain ⟨_, _, rfl⟩ := h
  obtain ⟨_, _, rfl⟩ := h'
  exact ⟨_, _, rfl⟩

/-- Islands stay as they are where only threads and registers change. -/
theorem OnlyThreadsAndRegs.online {s t : State} (h : OnlyThreadsAndRegs s t) (i : Nat) : t.online i = s.online i := by
  obtain ⟨_, _, rfl⟩ := h
  rfl

theorem OnlyThreadsAndRegs.hasIsland {s t : State} (h : OnlyThreadsAndRegs s t) (i : Nat) :
    t.grade.hasIsland i = s.grade.hasIsland i := by
  obtain ⟨_, _, rfl⟩ := h
  rfl

theorem hasIsland_of_online {s : State} {i : Nat} (h : s.online i = true) : s.grade.hasIsland i = true := by
  unfold State.online State.shell at h
  split at h
  · next hg => exact hg
  · exact absurd h (by decide)

/-- State `u` agrees with `s` at pier `p` and outside the registers of broadcasts, and `I` holds of it. -/
structure AgreesAt (I : State → Prop) (mine : Nat → List Nat) (s : State) (p : Nat) (u : State) : Prop where
  inv : I u
  only : OnlyThreadsAndRegs s u
  reg : ∀ a, a ∉ dropRegs → (∀ q, q ≠ p → a ∉ mine q) → u.reg a = s.reg a
  thr : ∀ th, th.pier.val = p → u.thr th = s.thr th

/-- A pier takes a broadcast while `I` holds: it changes its registers `mine` and its own threads, and `I` stays. -/
structure TakesAt (I : State → Prop) (mine : Nat → List Nat) (take : State → Nat → Bool × State) : Prop where
  only : ∀ u q, q < 16 → I u → OnlyThreadsAndRegs u (take u q).2
  keeps : ∀ u q, q < 16 → I u → I (take u q).2
  drops : ∀ u q, I u → I (u.dropDelivery q)
  reg : ∀ u q a, q < 16 → I u → a ∉ mine q → (take u q).2.reg a = u.reg a
  thr : ∀ u q th, q < 16 → I u → th.pier.val ≠ q → (take u q).2.thr th = u.thr th
  apart : ∀ p q a, q ≠ p → a ∈ mine p → a ∉ mine q
  below : ∀ p a, p < 16 → a ∈ mine p → a < 0x1100

namespace TakesAt
variable {I : State → Prop} {mine : Nat → List Nat} {take : State → Nat → Bool × State}

theorem not_dropReg (h : TakesAt I mine take) {p a : Nat} (hp : p < 16) (ha : a ∈ mine p) : a ∉ dropRegs := by
  have hlt := h.below p a hp ha
  simp only [dropRegs, Reg.VIA_EV_DROP_CNT_at, Reg.VIA_EV_DROP_PIER_at, List.mem_cons, List.not_mem_nil, or_false]
  omega

theorem visit_only (h : TakesAt I mine take) {u : State} {q : Nat} (hq : q < 16) (hI : I u) :
    OnlyThreadsAndRegs u (visit take u q) := by
  unfold visit
  split
  · exact .refl u
  · split
    · exact onlyThreadsAndRegs_dropDelivery u q
    · exact h.only u q hq hI

theorem visit_keeps (h : TakesAt I mine take) {u : State} {q : Nat} (hq : q < 16) (hI : I u) : I (visit take u q) := by
  unfold visit
  split
  · exact hI
  · split
    · exact h.drops u q hI
    · exact h.keeps u q hq hI

theorem visit_reg (h : TakesAt I mine take) {u : State} {q a : Nat} (hq : q < 16) (hI : I u) (hd : a ∉ dropRegs)
    (ha : a ∉ mine q) : (visit take u q).reg a = u.reg a := by
  unfold visit
  split
  · rfl
  · split
    · exact reg_dropDelivery_other u q hd
    · exact h.reg u q a hq hI ha

theorem visit_thr (h : TakesAt I mine take) {u : State} {q : Nat} {th : Thr} (hq : q < 16) (hI : I u) (hth : th.pier.val ≠ q) :
    (visit take u q).thr th = u.thr th := by
  unfold visit
  split
  · rfl
  · split
    · exact thr_dropDelivery u q th
    · exact h.thr u q th hq hI hth

/-- What holds all through a round of `n` stops: `I`, and that threads, registers of drops and of the stops' piers alone change. -/
def InRound (I : State → Prop) (mine : Nat → List Nat) (n : Nat) (s u : State) : Prop :=
  I u ∧ OnlyThreadsAndRegs s u ∧ ∀ a, a ∉ dropRegs → (∀ q, q < n → a ∉ mine q) → u.reg a = s.reg a

theorem visit_inRound (h : TakesAt I mine take) {s u : State} {n q : Nat} (hn : n ≤ 16) (hq : q < n) (hu : InRound I mine n s u) :
    InRound I mine n s (visit take u q) := by
  obtain ⟨hIu, hou, hru⟩ := hu
  have hq' : q < 16 := by omega
  exact ⟨h.visit_keeps hq' hIu, hou.trans (h.visit_only hq' hIu),
    fun a hd ha => (h.visit_reg hq' hIu hd (ha q hq)).trans (hru a hd ha)⟩

/-- What the round leaves unchanged, and that it keeps `I`. -/
theorem lap_apart (h : TakesAt I mine take) {s : State} (hI : I s) {n : Nat} (hn : n ≤ 16) (acc : Bool) :
    InRound I mine n s (s.lap 0 n acc take).2 :=
  lap_keeps acc (fun _ _ hq hu => h.visit_inRound hn hq hu) ⟨hI, .refl s, fun _ _ _ => rfl⟩

/-- At an ONLINE pier the round leaves what the pier's own take leaves, from a state that agrees with the first at this pier and
outside the registers of broadcasts. -/
theorem lap_takes (h : TakesAt I mine take) {s : State} (hI : I s) {n p : Nat} (hn : n ≤ 16) (hp : p < n) (acc : Bool)
    (hon : s.online p = true) : ∃ u, AgreesAt I mine s p u ∧
      (∀ a, a ∈ mine p → (s.lap 0 n acc take).2.reg a = (take u p).2.reg a) ∧
      ∀ th, th.pier.val = p → (s.lap 0 n acc take).2.thr th = (take u p).2.thr th := by
  have hp' : p < 16 := by omega
  refine (lap_at (take := take) (s := s) (P := AgreesAt I mine s p) (Q := fun t => I t ∧ ∃ u, AgreesAt I mine s p u ∧
      (∀ a, a ∈ mine p → t.reg a = (take u p).2.reg a) ∧ ∀ th, th.pier.val = p → t.thr th = (take u p).2.thr th)
    hp acc ?before ?here ?after ⟨hI, .refl s, fun _ _ _ => rfl, fun _ _ => rfl⟩).2
  case before =>
    intro u q hq hqp hu
    have hq' : q < 16 := by omega
    exact ⟨h.visit_keeps hq' hu.inv, hu.only.trans (h.visit_only hq' hu.inv),
      fun a hd ha => (h.visit_reg hq' hu.inv hd (ha q hqp)).trans (hu.reg a hd ha),
      fun th hth => (h.visit_thr hq' hu.inv (by omega)).trans (hu.thr th hth)⟩
  case here =>
    intro u hu
    have hv : visit take u p = (take u p).2 := by
      have honu : u.online p = true := (hu.only.online p).trans hon
      rw [visit, hasIsland_of_online honu, honu]
      rfl
    rw [hv]
    exact ⟨h.keeps u p hp' hu.inv, u, hu, fun _ _ => rfl, fun _ _ => rfl⟩
  case after =>
    rintro t q hq hqp ⟨hIt, u, hu, hrt, htt⟩
    have hq' : q < 16 := by omega
    exact ⟨h.visit_keeps hq' hIt, u, hu,
      fun a ha => (h.visit_reg hq' hIt (h.not_dropReg hp' ha) (h.apart p q a hqp ha)).trans (hrt a ha),
      fun th hth => (h.visit_thr hq' hIt (by omega)).trans (htt th hth)⟩

/-- A present pier that is not ONLINE is shown among those that dropped the broadcast. -/
theorem lap_drops (h : TakesAt I mine take) {s : State} (hI : I s) {p : Nat} (hp : p < 16) (acc : Bool)
    (hpres : s.grade.hasIsland p = true) (hoff : s.online p = false) :
    (s.lap 0 16 acc take).2.bit Reg.VIA_EV_DROP_PIER.PIER p = true := by
  refine (lap_at (P := fun u => I u ∧ OnlyThreadsAndRegs s u) (Q := fun t => t.bit Reg.VIA_EV_DROP_PIER.PIER p = true ∧ I t)
    hp acc ?_ ?_ ?_ ⟨hI, .refl s⟩).1
  · rintro u q hq - ⟨hIu, hou⟩
    exact ⟨h.visit_keeps hq hIu, hou.trans (h.visit_only hq hIu)⟩
  · rintro u ⟨hIu, hou⟩
    have hv : visit take u p = u.dropDelivery p := by
      rw [visit, hou.hasIsland, hou.online, hpres, hoff]
      rfl
    rw [hv, bit_dropDelivery u p p hp, decide_eq_true rfl]
    exact ⟨rfl, h.drops u p hIu⟩
  · rintro u q hq - ⟨hb, hIu⟩
    refine ⟨?_, h.visit_keeps hq hIu⟩
    unfold visit
    split
    · exact hb
    · split
      · rw [bit_dropDelivery u q p hq, hb, Bool.or_true]
      · have hfar : Reg.VIA_EV_DROP_PIER_at ∉ mine q := fun hm =>
          absurd (h.below q _ hq hm) (by decide)
        rwa [bit_congr (h.reg u q _ hq hIu hfar)]

end TakesAt

/-! ## The end of a round -/

theorem castRegs_iff {mine : Nat → List Nat} {a : Nat} :
    a ∉ castRegs mine ↔ a ∉ dropRegs ∧ a ≠ Reg.VIA_EV_NOACC_CNT_at ∧ ∀ q, q < 16 → a ∉ mine q := by
  simp only [castRegs, dropRegs, List.mem_append, List.mem_cons, List.not_mem_nil, or_false, List.mem_flatMap, List.mem_range,
    not_or, not_exists, not_and]
  constructor
  · rintro ⟨⟨hcnt, hpier, hno⟩, hmine⟩
    exact ⟨⟨hcnt, hpier⟩, hno, hmine⟩
  · rintro ⟨⟨hcnt, hpier⟩, hno, hmine⟩
    exact ⟨⟨hcnt, hpier, hno⟩, hmine⟩

theorem removed_only (r : Bool × State) : OnlyThreadsAndRegs r.2 (State.removed r) := by
  unfold State.removed
  split
  · exact .refl _
  · exact (OnlyThreadsAndRegs.refl _).setReg _ _

theorem reg_removed (r : Bool × State) {a : Nat} (ha : a ≠ Reg.VIA_EV_NOACC_CNT_at) : (State.removed r).reg a = r.2.reg a := by
  unfold State.removed
  split
  · rfl
  · exact State.reg_incSat_other _ _ _ _ ha

theorem threads_removed (r : Bool × State) : (State.removed r).threads = r.2.threads := by
  unfold State.removed
  split
  · rfl
  · exact State.incSat_threads _ _ _

theorem thr_removed (r : Bool × State) (th : Thr) : (State.removed r).thr th = r.2.thr th := by
  unfold State.thr
  rw [threads_removed]

namespace TakesAt
variable {I : State → Prop} {mine : Nat → List Nat} {take : State → Nat → Bool × State}

/-- A pier's own registers are apart from those of every other broadcast. -/
theorem agrees_mine (h : TakesAt I mine take) {s u : State} {p a : Nat} (hu : AgreesAt I mine s p u) (hp : p < 16) (ha : a ∈ mine p) :
    u.reg a = s.reg a := hu.reg a (h.not_dropReg hp ha) (fun q hq => h.apart p q a hq ha)

/-- A round changes threads and registers, these among the broadcast's, and keeps `I`. -/
theorem removed_apart (h : TakesAt I mine take) {s : State} (hI : I s) :
    OnlyThreadsAndRegs s (State.removed (s.lap 0 16 false take)) ∧
      ∀ a, a ∉ castRegs mine → (State.removed (s.lap 0 16 false take)).reg a = s.reg a := by
  obtain ⟨-, honly, hreg⟩ := h.lap_apart hI (Nat.le_refl 16) false
  refine ⟨honly.trans (removed_only _), fun a ha => ?_⟩
  obtain ⟨hd, hno, hm⟩ := castRegs_iff.mp ha
  rw [reg_removed _ hno, hreg a hd hm]

/-- At an ONLINE pier a round leaves what the pier's own take leaves. -/
theorem removed_takes (h : TakesAt I mine take) {s : State} (hI : I s) {p : Nat} (hp : p < 16) (hon : s.online p = true) :
    ∃ u, AgreesAt I mine s p u ∧ (∀ a, a ∈ mine p → (State.removed (s.lap 0 16 false take)).reg a = (take u p).2.reg a) ∧
      ∀ th, th.pier.val = p → (State.removed (s.lap 0 16 false take)).thr th = (take u p).2.thr th := by
  obtain ⟨u, hu, hreg, hthr⟩ := h.lap_takes hI (Nat.le_refl 16) hp false hon
  refine ⟨u, hu, fun a ha => ?_, fun th hth => (thr_removed _ th).trans (hthr th hth)⟩
  have hlt := h.below p a hp ha
  rw [reg_removed _ (by unfold Reg.VIA_EV_NOACC_CNT_at; omega), hreg a ha]

/-- A round that no ONLINE pier accepts is counted. -/
theorem removed_counts (h : TakesAt I mine take) {s : State} (hI : I s)
    (href : ∀ u q, q < 16 → InRound I mine 16 s u → u.online q = true → (take u q).1 = false) :
    Counted s (State.removed (s.lap 0 16 false take)) Reg.VIA_EV_NOACC_CNT.COUNT := by
  have hacc : (s.lap 0 16 false take).1 = false :=
    lap_refused href (fun _ _ hq hu => h.visit_inRound (Nat.le_refl 16) hq hu) 16 0 false s (Nat.le_refl 16)
      ⟨hI, .refl s, fun _ _ _ => rfl⟩
  have hsame : (s.lap 0 16 false take).2.reg Reg.VIA_EV_NOACC_CNT_at = s.reg Reg.VIA_EV_NOACC_CNT_at :=
    (h.lap_apart hI (Nat.le_refl 16) false).2.2 _ (by decide) fun q hq hm => absurd (h.below q _ hq hm) (by decide)
  unfold Counted State.removed
  rw [hacc, if_neg Bool.false_ne_true, State.rf_incSat _ _ _ (by decide), rf_congr (f := Reg.VIA_EV_NOACC_CNT.COUNT) hsame]

end TakesAt

/-! ## A malformed packet discarded -/

theorem reg_onGau (s : State) (g : Nat) (f : Gau → Gau) (a : Nat) : (s.onGau g f).reg a = s.reg a := rfl
theorem threads_onGau (s : State) (g : Nat) (f : Gau → Gau) : (s.onGau g f).threads = s.threads := rfl

/-- A gauge's count goes up, and its trigger may be due. -/
theorem gauCount_cases (s : State) (g i n : Nat) : (∃ f, s.gauCount g i n = (s.incSat (Reg.GAU_CNT.COUNT g i) n).onGau g f) ∨
    s.gauCount g i n = s.incSat (Reg.GAU_CNT.COUNT g i) n := by
  unfold State.gauCount
  extract_lets
  split
  · exact .inl ⟨_, rfl⟩
  · exact .inr rfl

/-- The registers below the gauges' stay where a gauge counts. -/
theorem reg_tellGauge (s : State) (g : Nat) {a : Nat} (ha : a < 0x3000) : (s.tellGauge g).reg a = s.reg a := by
  have hcnt : a ≠ (Reg.GAU_CNT.COUNT g 4).addr := by
    simp only [Reg.GAU_CNT.COUNT, Reg.GAU_CNT_at]
    omega
  unfold State.tellGauge
  split
  · have hreg := State.reg_incSat_other s _ 1 a hcnt
    obtain ⟨f, hf⟩ | hf := gauCount_cases s g 4 1
    · rw [hf, reg_onGau, hreg]
    · rw [hf, hreg]
  · rfl

theorem threads_tellGauge (s : State) (g : Nat) : (s.tellGauge g).threads = s.threads := by
  unfold State.tellGauge
  split
  · have hthr := State.incSat_threads s (Reg.GAU_CNT.COUNT g 4) 1
    obtain ⟨f, hf⟩ | hf := gauCount_cases s g 4 1
    · rw [hf, threads_onGau, hthr]
    · rw [hf, hthr]
  · rfl

/-- A discarded packet is counted. -/
theorem discard_counted (s : State) (ni : Nat) : Counted s (s.discard ni) Reg.VIA_MALFORMED_CNT.COUNT := by
  have hcount := State.rf_incSat s Reg.VIA_MALFORMED_CNT.COUNT 1 (by decide)
  unfold Counted State.discard
  split
  · exact (rf_congr (f := Reg.VIA_MALFORMED_CNT.COUNT) (reg_tellGauge _ _ (by decide))).trans hcount
  · exact hcount

theorem reg_discard (s : State) (ni : Nat) {a : Nat} (ha : a < 0x3000) (hm : a ≠ Reg.VIA_MALFORMED_CNT_at) :
    (s.discard ni).reg a = s.reg a := by
  have hcount := State.reg_incSat_other s Reg.VIA_MALFORMED_CNT.COUNT 1 a hm
  unfold State.discard
  split
  · exact (reg_tellGauge _ _ ha).trans hcount
  · exact hcount

theorem threads_discard (s : State) (ni : Nat) : (s.discard ni).threads = s.threads := by
  unfold State.discard
  split
  · exact (threads_tellGauge _ _).trans (State.incSat_threads _ _ _)
  · exact State.incSat_threads _ _ _

/-- A count is the same function of its register. -/
theorem Counted.of_reg {s s' t : State} {f : Fd} (h : s'.reg f.addr = s.reg f.addr) (hc : Counted s' t f) : Counted s t f := by
  unfold Counted at hc ⊢
  rw [hc, rf_congr h]

/-- A malformed broadcast is counted where it is discarded, after any part of its round. -/
theorem TakesAt.discard_counted {I : State → Prop} {mine : Nat → List Nat} {take : State → Nat → Bool × State}
    (h : TakesAt I mine take) {s : State} (hI : I s) {n : Nat} (hn : n ≤ 16) (ni : Nat) :
    Counted s ((s.lap 0 n false take).2.discard ni) Reg.VIA_MALFORMED_CNT.COUNT := by
  refine (Claims.discard_counted (s.lap 0 n false take).2 ni).of_reg ?_
  exact (h.lap_apart hI hn false).2.2 _ (by decide) fun q hq hm => absurd (h.below q _ (by omega) hm) (by decide)

end Sys2Proof.Claims
end

section
/-!
PROOFS. Broadcasts at a pier: an event pending or merged, a system cause pending in the threads of its mask, SPAN_FAULT at its thread (O27).

Choices and readings of this file: none.
-/

namespace Sys2Proof.Claims

open Sys2Proof.Machine

/-! ## An event at a pier -/

/-- The registers of a pier that an event changes. -/
def eventRegs (p : Nat) : List Nat := [Reg.PIER_EVPEND_LO_at p, Reg.PIER_EVPEND_HI_at p, Reg.PIER_EVCOAL_at p]

theorem mem_eventRegs {p a : Nat} : a ∈ eventRegs p ↔ a = 0x105 + 0x100 * p ∨ a = 0x106 + 0x100 * p ∨ a = 0x107 + 0x100 * p := by
  simp only [eventRegs, Reg.PIER_EVPEND_LO_at, Reg.PIER_EVPEND_HI_at, Reg.PIER_EVCOAL_at, List.mem_cons, List.not_mem_nil, or_false]

/-- Where no thread is WAITING none is woken. -/
theorem tryWakes_of_none_waiting {s : State} (h : ∀ u, (s.thr u).run ≠ .waiting) (p k n : Nat) : s.tryWakes p k n = s := by
  induction n generalizing k with
  | zero => rfl
  | succ n ih =>
    have hone : s.tryWake (thrOf p k) = s := by rw [State.tryWake, if_neg (h _)]
    rw [State.tryWakes, hone, ih]

/-- An event is merged with the one pending, or becomes pending. -/
theorem acceptEvent_eq {s : State} (h : ∀ u, (s.thr u).run ≠ .waiting) (p e : Nat) :
    s.acceptEvent p e = if s.evPending p e then s.incSat (Reg.PIER_EVCOAL.COUNT p) else s.setEvPending p e true := by
  unfold State.acceptEvent
  split
  · rfl
  · exact tryWakes_of_none_waiting (fun u => by rw [thr_setEvPending]; exact h u) p 0 8

theorem threads_setEvPending (s : State) (p e : Nat) (v : Bool) : (s.setEvPending p e v).threads = s.threads := by
  unfold State.setEvPending
  split <;> rfl

theorem threads_acceptEvent {s : State} (h : ∀ u, (s.thr u).run ≠ .waiting) (p e : Nat) : (s.acceptEvent p e).threads = s.threads := by
  rw [acceptEvent_eq h]
  split
  · exact State.incSat_threads _ _ _
  · exact threads_setEvPending _ _ _ _

theorem thr_of_threads {s t : State} (h : t.threads = s.threads) (th : Thr) : t.thr th = s.thr th := by
  unfold State.thr
  rw [h]

/-- A pier takes an event while no thread is WAITING: its registers change, no thread does. -/
theorem eventAt_takes {s : State} (h : ∀ u, (s.thr u).run ≠ .waiting) (e : Nat) :
    TakesAt (fun u => u.threads = s.threads) eventRegs (State.eventAt e) where
  only u q _ hu := by
    have hnone : ∀ v, (u.thr v).run ≠ .waiting := fun v => by rw [thr_of_threads hu]; exact h v
    unfold State.eventAt
    split
    · rw [acceptEvent_eq hnone]
      split
      · exact (OnlyThreadsAndRegs.refl u).setReg _ _
      · exact (OnlyThreadsAndRegs.refl u).setEvPending _ _ _
    · exact .refl u
  keeps u q _ hu := by
    have hnone : ∀ v, (u.thr v).run ≠ .waiting := fun v => by rw [thr_of_threads hu]; exact h v
    unfold State.eventAt
    split
    · exact (threads_acceptEvent hnone q e).trans hu
    · exact hu
  drops u q hu := by
    rw [threads_dropDelivery, hu]
  reg u q a _ hu ha := by
    have hnone : ∀ v, (u.thr v).run ≠ .waiting := fun v => by rw [thr_of_threads hu]; exact h v
    simp only [eventRegs, List.mem_cons, List.not_mem_nil, or_false, not_or] at ha
    obtain ⟨hlo, hhi, hcoal⟩ := ha
    unfold State.eventAt
    split
    · rw [acceptEvent_eq hnone]
      split
      · exact State.reg_incSat_other _ _ _ _ hcoal
      · exact reg_setEvPending_other _ _ _ _ hlo hhi
    · rfl
  thr u q th _ hu _ := by
    have hnone : ∀ v, (u.thr v).run ≠ .waiting := fun v => by rw [thr_of_threads hu]; exact h v
    unfold State.eventAt
    split
    · exact thr_of_threads (threads_acceptEvent hnone q e) th
    · rfl
  apart p q a hqp ha := by
    rw [mem_eventRegs] at ha ⊢
    omega
  below p a hp ha := by
    rw [mem_eventRegs] at ha
    omega

/-- Whether a pier accepts an event depends on its threads' masks alone. -/
theorem accepts_congr {s t : State} {p : Nat}
    (h : ∀ k, k < 8 →
      ∀ a, a ∈ [Reg.PIER_EVMASK_LO_at p k, Reg.PIER_EVMASK_HI_at p k, Reg.PIER_EVTRAP_LO_at p k, Reg.PIER_EVTRAP_HI_at p k] →
      t.reg a = s.reg a) (e : Nat) : t.accepts p e = s.accepts p e := by
  have hmask : ∀ k, k < 8 → (t.evMask p k e || t.evTrap p k e) = (s.evMask p k e || s.evTrap p k e) := by
    intro k hk
    have hk := h k hk
    unfold State.evMask State.evTrap State.pairBit
    rw [bit_congr (f := Reg.PIER_EVMASK_LO.MASK p k) (hk _ (by simp [Reg.PIER_EVMASK_LO.MASK])),
      bit_congr (f := Reg.PIER_EVMASK_HI.MASK p k) (hk _ (by simp [Reg.PIER_EVMASK_HI.MASK])),
      bit_congr (f := Reg.PIER_EVTRAP_LO.MASK p k) (hk _ (by simp [Reg.PIER_EVTRAP_LO.MASK])),
      bit_congr (f := Reg.PIER_EVTRAP_HI.MASK p k) (hk _ (by simp [Reg.PIER_EVTRAP_HI.MASK]))]
  unfold State.accepts
  rw [Bool.eq_iff_iff, List.any_eq_true, List.any_eq_true]
  refine exists_congr fun k => and_congr_right fun hk => ?_
  rw [hmask k (List.mem_range.mp hk)]

/-- The masks of a pier's threads are apart from the registers of a broadcast. -/
theorem mask_apart {p k a : Nat} (hp : p < 16) (hk : k < 8)
    (ha : a ∈ [Reg.PIER_EVMASK_LO_at p k, Reg.PIER_EVMASK_HI_at p k, Reg.PIER_EVTRAP_LO_at p k, Reg.PIER_EVTRAP_HI_at p k]) :
    a ∉ castRegs eventRegs := by
  simp only [Reg.PIER_EVMASK_LO_at, Reg.PIER_EVMASK_HI_at, Reg.PIER_EVTRAP_LO_at, Reg.PIER_EVTRAP_HI_at, List.mem_cons,
    List.not_mem_nil, or_false] at ha
  refine castRegs_iff.mpr ⟨?_, ?_, fun q hq => ?_⟩
  · simp only [dropRegs, Reg.VIA_EV_DROP_CNT_at, Reg.VIA_EV_DROP_PIER_at, List.mem_cons, List.not_mem_nil, or_false]
    omega
  · unfold Reg.VIA_EV_NOACC_CNT_at
    omega
  · rw [mem_eventRegs]
    omega

/-- An event at a pier: pending where the pier accepts it, the other events as they were, a merged one counted. -/
theorem eventAt_spec {u : State} (hnone : ∀ v, (u.thr v).run ≠ .waiting) (p : Nat) (e : Fin 64) :
    (∀ x : Fin 64, (State.eventAt e.val u p).2.evPending p x.val =
      if x = e then u.evPending p e.val || u.accepts p e.val else u.evPending p x.val) ∧
    (u.evPending p e.val = true → u.accepts p e.val = true → Counted u (State.eventAt e.val u p).2 (Reg.PIER_EVCOAL.COUNT p)) := by
  unfold State.eventAt
  by_cases hacc : u.accepts p e.val = true
  · rw [if_pos hacc, acceptEvent_eq hnone, hacc]
    by_cases hpend : u.evPending p e.val = true
    · rw [if_pos hpend]
      refine ⟨fun x => ?_, fun _ _ => State.rf_incSat _ _ _ (by simp [Reg.PIER_EVCOAL.COUNT])⟩
      have hsame : (u.incSat (Reg.PIER_EVCOAL.COUNT p)).evPending p x.val = u.evPending p x.val := by
        refine evPending_congr (State.reg_incSat_other _ _ _ _ ?_) (State.reg_incSat_other _ _ _ _ ?_) _ <;>
        · simp only [Reg.PIER_EVCOAL.COUNT, Reg.PIER_EVCOAL_at, Reg.PIER_EVPEND_LO_at, Reg.PIER_EVPEND_HI_at]
          omega
      rw [hsame]
      split
      · next hx => rw [hx, hpend, Bool.true_or]
      · rfl
    · rw [if_neg hpend]
      refine ⟨fun x => ?_, fun h => absurd h hpend⟩
      rw [evPending_setEvPending _ _ e.isLt x.isLt, Bool.or_true]
      exact if_congr Fin.val_inj rfl rfl
  · rw [if_neg hacc, eq_false_of_ne_true hacc]
    refine ⟨fun x => ?_, fun _ h => absurd h Bool.false_ne_true⟩
    split
    · next hx => rw [hx, Bool.or_false]
    · rfl

/-! ## A system cause at a pier -/

/-- A system cause pending in one thread. -/
def markCause (c : SysCause) (info : Word) (sub p : Nat) (u : State) (t : Nat) : State :=
  (u.setBit (Reg.PIER_SYSPEND.PEND p) (c.lo + t) true).onThr (thrOf p t) (fun x => x.setInfo c info sub)

/-- The threads of a pier whose mask bit for the cause is 1. -/
def causeThreads (c : SysCause) (u : State) (p : Nat) : List Nat :=
  (List.range 8).filter (fun t => getBits (u.reg (Reg.PIER_SYSMASK_at p)) (c.lo + t) 1 == 1)

theorem causeAt_eq (c : SysCause) (info : Word) (sub : Nat) (u : State) (p : Nat) :
    (State.causeAt c info sub u p).2 = (causeThreads c u p).foldl (markCause c info sub p) u := rfl

theorem mem_causeThreads {c : SysCause} {u : State} {p t : Nat} :
    t ∈ causeThreads c u p ↔ t < 8 ∧ getBits (u.reg (Reg.PIER_SYSMASK_at p)) (c.lo + t) 1 = 1 := by
  rw [causeThreads, List.mem_filter, List.mem_range, beq_iff_eq]

theorem setInfo_setInfo (t : Thread) (c : SysCause) (info : Word) (sub : Nat) :
    (t.setInfo c info sub).setInfo c info sub = t.setInfo c info sub := by cases c <;> rfl

theorem sysCause_bit_lt (c : SysCause) {t : Nat} (ht : t < 8) : (0 : Nat) + (c.lo + t) < 32 := by
  cases c <;> simp only [SysCause.lo] <;> omega

theorem thrOf_pier (p : PierIx) (t : Nat) : (thrOf p.val t).pier.val = p.val := by
  simp [thrOf]

/-- The pending bit and the thread of number `j` after the cause has been marked in the threads of a list. -/
theorem markCauses_at (c : SysCause) (info : Word) (sub : Nat) (th : Thr) (ts : List Nat) (hts : ∀ t ∈ ts, t < 8) (u : State) :
    (ts.foldl (markCause c info sub th.pier.val) u).bit (Reg.PIER_SYSPEND.PEND th.pier.val) (c.lo + th.th.val) =
        (decide (th.th.val ∈ ts) || u.bit (Reg.PIER_SYSPEND.PEND th.pier.val) (c.lo + th.th.val)) ∧
      (ts.foldl (markCause c info sub th.pier.val) u).thr th = if th.th.val ∈ ts then (u.thr th).setInfo c info sub else u.thr th := by
  induction ts generalizing u with
  | nil => simp
  | cons t ts ih =>
    have ht : t < 8 := hts t List.mem_cons_self
    obtain ⟨hbit, hthr⟩ := ih (fun x hx => hts x (List.mem_cons_of_mem _ hx)) (markCause c info sub th.pier.val u t)
    have hb1 : (markCause c info sub th.pier.val u t).bit (Reg.PIER_SYSPEND.PEND th.pier.val) (c.lo + th.th.val) =
        (decide (th.th.val = t) || u.bit (Reg.PIER_SYSPEND.PEND th.pier.val) (c.lo + th.th.val)) := by
      have hset := bit_setBit u (Reg.PIER_SYSPEND.PEND th.pier.val) (c.lo + th.th.val) true (sysCause_bit_lt c ht)
      refine Eq.trans ?_ (hset.trans ?_)
      · exact bit_congr (State.reg_onThr _ _ _ _) _
      · by_cases hj : th.th.val = t
        · rw [if_pos (by rw [hj]), decide_eq_true hj, Bool.true_or]
        · rw [if_neg (by omega), decide_eq_false hj, Bool.false_or]
    have ht1 : (markCause c info sub th.pier.val u t).thr th = if th.th.val = t then (u.thr th).setInfo c info sub else u.thr th := by
      unfold markCause
      by_cases hj : th.th.val = t
      · rw [if_pos hj, ← hj, thrOf_eq, State.thr_onThr_same, State.thr_setBit]
      · have hne : th ≠ thrOf th.pier.val t := by
          intro h
          refine hj ?_
          rw [h]
          simp only [thrOf, Fin.ofNat]
          omega
        rw [if_neg hj, State.thr_onThr_other _ _ _ _ hne, State.thr_setBit]
    rw [List.foldl_cons, hbit, hthr, hb1, ht1]
    by_cases hj : th.th.val = t <;> by_cases hm : th.th.val ∈ ts <;> simp [hj, hm, List.mem_cons, setInfo_setInfo]

/-- A pier takes a system cause: its pending register and its threads change. -/
theorem causeAt_takes (c : SysCause) (info : Word) (sub : Nat) :
    TakesAt (fun _ => True) (fun p => [Reg.PIER_SYSPEND_at p]) (State.causeAt c info sub) where
  only u q _ _ := by
    rw [causeAt_eq]
    exact List.foldlRecOn (motive := OnlyThreadsAndRegs u) _ _ (.refl u) fun v hv t _ => (hv.setReg _ _).onThr _ _
  keeps _ _ _ _ := trivial
  drops _ _ _ := trivial
  reg u q a _ _ ha := by
    have hne : a ≠ Reg.PIER_SYSPEND_at q := by simpa using ha
    rw [causeAt_eq]
    refine List.foldlRecOn (motive := fun v : State => v.reg a = u.reg a) _ _ rfl fun v hv t _ => ?_
    rw [markCause, State.reg_onThr, State.reg_setBit_other _ _ _ _ _ hne, hv]
  thr u q th hq _ hth := by
    rw [causeAt_eq]
    refine List.foldlRecOn (motive := fun v : State => v.thr th = u.thr th) _ _ rfl fun v hv t _ => ?_
    have hne : th ≠ thrOf q t := fun h => hth (by rw [h]; exact thrOf_pier ⟨q, hq⟩ t)
    rw [markCause, State.thr_onThr_other _ _ _ _ hne, State.thr_setBit, hv]
  apart p q a hqp ha := by
    simp only [Reg.PIER_SYSPEND_at, List.mem_singleton] at ha ⊢
    omega
  below p a hp ha := by
    simp only [Reg.PIER_SYSPEND_at, List.mem_singleton] at ha
    omega

end Sys2Proof.Claims
end

section
/-!
PROOFS. The three commands of broadcasts: EVENT, SYSCAUSE and SPANFAULT (O27).

Choices and readings of this file: none.
-/

namespace Sys2Proof.Claims

open Sys2Proof.Machine

/-- A state whose networks alone differ takes a broadcast to a state that differs in threads, registers and networks. -/
theorem OnlyThreadsAndRegs.eq_net {s t : State} {net : Net} (h : OnlyThreadsAndRegs { s with net := net } t) :
    t = { s with io := t.io, threads := t.threads, net := net } := by
  obtain ⟨_, _, rfl⟩ := h
  rfl

/-! ## EVENT -/

/-- The part of the obligation about a broadcast event. -/
def EventsReachPiers : Prop :=
  ∀ (s : State) (i : Nat) (d : Damage) (stop : Fin 24) (e : Fin 64), s.net.events[i]? = some e → (∀ u, (s.thr u).run ≠ .waiting) →
    (castBad d (castFlits tyEvent e.val 0 0) = false → Does (.event i d stop) s (fun t =>
      t = { s with io := t.io, net := { s.net with events := s.net.events.eraseIdx i } } ∧
      (∀ p : PierIx, s.online p.val = true →
        t.evPending p.val e.val = (s.evPending p.val e.val || s.accepts p.val e.val) ∧
        (∀ x : Fin 64, x ≠ e → t.evPending p.val x.val = s.evPending p.val x.val) ∧
        (s.evPending p.val e.val = true → s.accepts p.val e.val = true → Counted s t (Reg.PIER_EVCOAL.COUNT p.val))) ∧
      (∀ p : PierIx, s.grade.hasIsland p.val = true → s.online p.val = false → t.bit Reg.VIA_EV_DROP_PIER.PIER p.val = true) ∧
      ((∀ p : PierIx, s.online p.val = true → s.accepts p.val e.val = false) → Counted s t Reg.VIA_EV_NOACC_CNT.COUNT) ∧
      (∀ a, a ∉ castRegs (fun p => [Reg.PIER_EVPEND_LO_at p, Reg.PIER_EVPEND_HI_at p, Reg.PIER_EVCOAL_at p]) → t.reg a = s.reg a))) ∧
    (castBad d (castFlits tyEvent e.val 0 0) = true → Does (.event i d stop) s (fun t => Counted s t Reg.VIA_MALFORMED_CNT.COUNT ∧
      (∀ p : PierIx, stop.val ≤ p.val → t.evPending p.val e.val = s.evPending p.val e.val)))

/-- The state an event leaves as it sets out. -/
def sentEvent (s : State) (i : Nat) : State := { s with net := { s.net with events := s.net.events.eraseIdx i } }

theorem exec_event {s : State} {i : Nat} {e : Fin 64} (h : s.net.events[i]? = some e) (d : Damage) (stop : Fin 24) :
    exec (.event i d stop) s =
      .next ((sentEvent s i).roundTrip (castBad d (castFlits tyEvent e.val 0 0)) stop.val (State.eventAt e.val)) := by
  rw [show exec (.event i d stop) s = execEvent i d stop s from rfl]
  simp only [execEvent, h, sentEvent]

theorem accepts_sentEvent (s : State) (i p e : Nat) : (sentEvent s i).accepts p e = s.accepts p e :=
  accepts_congr (fun _ _ _ _ => rfl) e

/-- What the whole round of an event leaves at an ONLINE pier. -/
theorem event_round_at {s : State} (hnone : ∀ u, (s.thr u).run ≠ .waiting) (e : Fin 64) (p : PierIx) (hon : s.online p.val = true) :
    (∀ x : Fin 64, (State.removed (s.lap 0 16 false (State.eventAt e.val))).evPending p.val x.val =
      if x = e then s.evPending p.val e.val || s.accepts p.val e.val else s.evPending p.val x.val) ∧
    (s.evPending p.val e.val = true → s.accepts p.val e.val = true →
      Counted s (State.removed (s.lap 0 16 false (State.eventAt e.val))) (Reg.PIER_EVCOAL.COUNT p.val)) := by
  have htakes := eventAt_takes hnone e.val
  obtain ⟨u, hu, hreg, -⟩ := htakes.removed_takes rfl p.isLt hon
  have hnu : ∀ v, (u.thr v).run ≠ .waiting := fun v => by rw [thr_of_threads hu.inv]; exact hnone v
  have hsame : ∀ a, a ∈ eventRegs p.val → u.reg a = s.reg a := fun a ha => htakes.agrees_mine hu p.isLt ha
  have hlo : Reg.PIER_EVPEND_LO_at p.val ∈ eventRegs p.val := by simp [eventRegs]
  have hhi : Reg.PIER_EVPEND_HI_at p.val ∈ eventRegs p.val := by simp [eventRegs]
  have hcoal : Reg.PIER_EVCOAL_at p.val ∈ eventRegs p.val := by simp [eventRegs]
  have hpend : ∀ x, u.evPending p.val x = s.evPending p.val x := evPending_congr (hsame _ hlo) (hsame _ hhi)
  have hacc : u.accepts p.val e.val = s.accepts p.val e.val := by
    refine accepts_congr (fun k hk a ha => ?_) e.val
    obtain ⟨hd, -, hm⟩ := castRegs_iff.mp (mask_apart p.isLt hk ha)
    refine hu.reg a hd fun q hq => ?_
    by_cases hq16 : q < 16
    · exact hm q hq16
    · intro hmem
      rw [mem_eventRegs] at hmem
      simp only [Reg.PIER_EVMASK_LO_at, Reg.PIER_EVMASK_HI_at, Reg.PIER_EVTRAP_LO_at, Reg.PIER_EVTRAP_HI_at, List.mem_cons,
        List.not_mem_nil, or_false] at ha
      omega
  obtain ⟨hat, hcount⟩ := eventAt_spec hnu p.val e
  refine ⟨fun x => ?_, fun hp ha => ?_⟩
  · rw [evPending_congr (hreg _ hlo) (hreg _ hhi), hat x, hpend, hpend, hacc]
  · have hc := (hcount ((hpend _).trans hp) (hacc.trans ha)).of_reg (s := s) (hsame _ hcoal)
    unfold Counted at hc ⊢
    rw [← hc]
    exact rf_congr (hreg _ hcoal)

theorem eventsReachPiers : EventsReachPiers := by
  intro s i d stop e hev hnone
  have htakes := eventAt_takes (s := sentEvent s i) hnone e.val
  have hexec := exec_event hev d stop
  refine ⟨fun hgood => ?_, fun hbad => ?_⟩
  · rw [hgood, State.roundTrip, if_neg Bool.false_ne_true] at hexec
    obtain ⟨honly, hregs⟩ := htakes.removed_apart rfl
    refine ⟨_, hexec, ?_, fun p hon => ?_, fun p hpres hoff => ?_, fun href => ?_, hregs⟩
    · have hthr : (State.removed ((sentEvent s i).lap 0 16 false (State.eventAt e.val))).threads = s.threads :=
        (threads_removed _).trans (htakes.lap_apart rfl (Nat.le_refl 16) false).1
      have heq := honly.eq_net
      rw [hthr] at heq
      exact heq
    · obtain ⟨hat, hcount⟩ := event_round_at (s := sentEvent s i) hnone e p hon
      rw [accepts_sentEvent] at hat hcount
      refine ⟨(hat e).trans (if_pos rfl), fun x hx => (hat x).trans (if_neg hx), hcount⟩
    · have hbit := htakes.lap_drops rfl p.isLt false hpres hoff
      rw [bit_congr (reg_removed _ (by decide))]
      exact hbit
    · refine (htakes.removed_counts rfl fun u q hq hu honu => ?_).of_reg (s := s) (s' := sentEvent s i) rfl
      obtain ⟨-, hou, hru⟩ := hu
      have hmask : ∀ k, k < 8 → ∀ a, a ∈ _ → u.reg a = (sentEvent s i).reg a := fun k hk a ha => by
        obtain ⟨hd, -, hm⟩ := castRegs_iff.mp (mask_apart hq hk ha)
        exact hru a hd hm
      have hacc : u.accepts q e.val = false :=
        (accepts_congr hmask e.val).trans
          ((accepts_sentEvent s i q e.val).trans (href ⟨q, hq⟩ ((hou.online q).symm.trans honu)))
      rw [State.eventAt, hacc]
      rfl
  · rw [hbad, State.roundTrip, if_pos rfl] at hexec
    refine ⟨_, hexec, htakes.discard_counted rfl (Nat.min_le_right _ _) _, fun p hp => ?_⟩
    have hlap := (htakes.lap_apart rfl (Nat.min_le_right stop.val 16) false).2.2
    have hkept : ∀ a, a ∈ eventRegs p.val →
        (((sentEvent s i).lap 0 (min stop.val 16) false (State.eventAt e.val)).2.discard (32 + stop.val)).reg a = s.reg a := by
      intro a ha
      have hfar : ∀ q, q < min stop.val 16 → a ∉ eventRegs q := fun q hq => htakes.apart p.val q a (by omega) ha
      have hlt := htakes.below p.val a p.isLt ha
      exact (reg_discard _ _ (by omega) (by unfold Reg.VIA_MALFORMED_CNT_at; omega)).trans
        (hlap a (htakes.not_dropReg p.isLt ha) hfar)
    exact evPending_congr (hkept _ (by simp [eventRegs])) (hkept _ (by simp [eventRegs])) _

/-! ## SYSCAUSE -/

/-- The part of the obligation about a system cause. -/
def CausesReachThreads : Prop :=
  ∀ (s : State) (i : Nat) (d : Damage) (stop : Fin 24) (c : SysCause) (info : Word) (sub : Nat), s.net.causes[i]? = some (c, info, sub) →
    (castBad d (castFlits tyCause c.code 0 0) = false → Does (.syscause i d stop) s (fun t =>
      t = { s with io := t.io, threads := t.threads, net := { s.net with causes := s.net.causes.eraseIdx i } } ∧
      (∀ a, a ∉ castRegs (fun p => [Reg.PIER_SYSPEND_at p]) → t.reg a = s.reg a) ∧
      ∀ th : Thr, s.online th.pier.val = true → (c = .wdt → th.pier = 0) →
        let k := (match c with | .wdt => 0 | .abutment => 8 | .thermal => 16 | .debt => 24) + th.th.val
        if getBits (s.reg (Reg.PIER_SYSMASK_at th.pier.val)) k 1 = 1 then
          t.bit (Reg.PIER_SYSPEND.PEND th.pier.val) k = true ∧ (c = .abutment → (t.thr th).infoAbt = info) ∧
          (c = .thermal → (t.thr th).infoThm = info) ∧ (c = .debt → (t.thr th).infoDebt = info ∧ (t.thr th).debtSub = sub)
        else t.bit (Reg.PIER_SYSPEND.PEND th.pier.val) k = s.bit (Reg.PIER_SYSPEND.PEND th.pier.val) k ∧ t.thr th = s.thr th)) ∧
    (castBad d (castFlits tyCause c.code 0 0) = true → Does (.syscause i d stop) s (fun t => Counted s t Reg.VIA_MALFORMED_CNT.COUNT))

/-- The state a system cause leaves as it sets out. -/
def sentCause (s : State) (i : Nat) : State := { s with net := { s.net with causes := s.net.causes.eraseIdx i } }

theorem exec_syscause {s : State} {i : Nat} {c : SysCause} {info : Word} {sub : Nat} (h : s.net.causes[i]? = some (c, info, sub))
    (d : Damage) (stop : Fin 24) : exec (.syscause i d stop) s = .next (
      if c = .wdt then
        (if castBad d (castFlits tyCause c.code 0 0) then (sentCause s i).discard 32
          else ((sentCause s i).lap 0 1 false (State.causeAt c info sub)).2)
      else (sentCause s i).roundTrip (castBad d (castFlits tyCause c.code 0 0)) stop.val (State.causeAt c info sub)) := by
  rw [show exec (.syscause i d stop) s = execSyscause i d stop s from rfl]
  simp only [execSyscause, h, sentCause]
  exact (apply_ite Host.Outcome.next _ _ _).symm

/-- The cause at a thread after its pier has taken it: pending with its EINFO where its mask bit is 1, else as it was. -/
theorem causeAt_thread {s u t : State} {c : SysCause} {info : Word} {sub : Nat} {th : Thr}
    (hmask : u.reg (Reg.PIER_SYSMASK_at th.pier.val) = s.reg (Reg.PIER_SYSMASK_at th.pier.val))
    (hpend : u.reg (Reg.PIER_SYSPEND_at th.pier.val) = s.reg (Reg.PIER_SYSPEND_at th.pier.val)) (hthr : u.thr th = s.thr th)
    (htpend : t.reg (Reg.PIER_SYSPEND_at th.pier.val) =
      (State.causeAt c info sub u th.pier.val).2.reg (Reg.PIER_SYSPEND_at th.pier.val))
    (htthr : t.thr th = (State.causeAt c info sub u th.pier.val).2.thr th) :
    if getBits (s.reg (Reg.PIER_SYSMASK_at th.pier.val)) (c.lo + th.th.val) 1 = 1 then
      t.bit (Reg.PIER_SYSPEND.PEND th.pier.val) (c.lo + th.th.val) = true ∧ t.thr th = (s.thr th).setInfo c info sub
    else t.bit (Reg.PIER_SYSPEND.PEND th.pier.val) (c.lo + th.th.val) =
      s.bit (Reg.PIER_SYSPEND.PEND th.pier.val) (c.lo + th.th.val) ∧ t.thr th = s.thr th := by
  obtain ⟨hbit, hth⟩ := markCauses_at c info sub th (causeThreads c u th.pier.val) (fun t ht => (mem_causeThreads.mp ht).1) u
  rw [causeAt_eq] at htpend htthr
  have htbit := bit_congr (f := Reg.PIER_SYSPEND.PEND th.pier.val) htpend (c.lo + th.th.val)
  have hsbit := bit_congr (f := Reg.PIER_SYSPEND.PEND th.pier.val) hpend (c.lo + th.th.val)
  have hmem : th.th.val ∈ causeThreads c u th.pier.val ↔
      getBits (s.reg (Reg.PIER_SYSMASK_at th.pier.val)) (c.lo + th.th.val) 1 = 1 := by
    rw [mem_causeThreads, hmask]
    exact and_iff_right th.th.isLt
  rw [htbit, htthr, hbit, hth, hsbit, hthr]
  split
  · next h => rw [if_pos (hmem.mpr h), decide_eq_true (hmem.mpr h)]; exact ⟨Bool.true_or _, rfl⟩
  · next h => rw [if_neg (mt hmem.mp h), decide_eq_false (mt hmem.mp h)]; exact ⟨Bool.false_or _, rfl⟩

/-- The registers a cause reads and writes at a pier are apart from a drop's and from those of other piers. -/
theorem agrees_cause {s u : State} {p : PierIx} (h : AgreesAt (fun _ => True) (fun p => [Reg.PIER_SYSPEND_at p]) s p.val u) :
    u.reg (Reg.PIER_SYSMASK_at p.val) = s.reg (Reg.PIER_SYSMASK_at p.val) ∧
      u.reg (Reg.PIER_SYSPEND_at p.val) = s.reg (Reg.PIER_SYSPEND_at p.val) := by
  have hp := p.isLt
  constructor
  all_goals
    refine h.reg _ ?_ fun q hq => ?_
    · simp only [dropRegs, Reg.PIER_SYSMASK_at, Reg.PIER_SYSPEND_at, Reg.VIA_EV_DROP_CNT_at, Reg.VIA_EV_DROP_PIER_at, List.mem_cons,
        List.not_mem_nil, or_false]
      omega
    · simp only [Reg.PIER_SYSMASK_at, Reg.PIER_SYSPEND_at, List.mem_singleton]
      omega

/-- A cause's round, P0 alone for WDT_STAGE1: what it changes, and what it leaves at each thread it reaches. -/
theorem cause_round (s : State) (c : SysCause) (info : Word) (sub : Nat) :
    let t := if c = .wdt then (s.lap 0 1 false (State.causeAt c info sub)).2
      else State.removed (s.lap 0 16 false (State.causeAt c info sub))
    OnlyThreadsAndRegs s t ∧ (∀ a, a ∉ castRegs (fun p => [Reg.PIER_SYSPEND_at p]) → t.reg a = s.reg a) ∧
    ∀ th : Thr, s.online th.pier.val = true → (c = .wdt → th.pier = 0) →
      ∃ u, AgreesAt (fun _ => True) (fun p => [Reg.PIER_SYSPEND_at p]) s th.pier.val u ∧
        t.reg (Reg.PIER_SYSPEND_at th.pier.val) = (State.causeAt c info sub u th.pier.val).2.reg (Reg.PIER_SYSPEND_at th.pier.val) ∧
        t.thr th = (State.causeAt c info sub u th.pier.val).2.thr th := by
  have htakes := causeAt_takes c info sub
  intro t
  by_cases hc : c = .wdt
  · obtain ⟨-, honly, hregs⟩ := htakes.lap_apart (s := s) trivial (by decide : 1 ≤ 16) false
    have ht : t = (s.lap 0 1 false (State.causeAt c info sub)).2 := if_pos hc
    rw [ht]
    refine ⟨honly, fun a ha => ?_, fun th hon h0 => ?_⟩
    · obtain ⟨hd, -, hm⟩ := castRegs_iff.mp ha
      exact hregs a hd fun q hq => hm q (by omega)
    · have hp : th.pier.val < 1 := by rw [h0 hc]; decide
      obtain ⟨u, hu, hreg, hthr⟩ := htakes.lap_takes (s := s) trivial (by decide : 1 ≤ 16) hp false hon
      exact ⟨u, hu, hreg _ List.mem_cons_self, hthr th rfl⟩
  · obtain ⟨honly, hregs⟩ := htakes.removed_apart (s := s) trivial
    have ht : t = State.removed (s.lap 0 16 false (State.causeAt c info sub)) := if_neg hc
    rw [ht]
    refine ⟨honly, hregs, fun th hon _ => ?_⟩
    obtain ⟨u, hu, hreg, hthr⟩ := htakes.removed_takes (s := s) trivial th.pier.isLt hon
    exact ⟨u, hu, hreg _ List.mem_cons_self, hthr th rfl⟩

theorem causesReachThreads : CausesReachThreads := by
  intro s i d stop c info sub hcause
  have hexec := exec_syscause hcause d stop
  refine ⟨fun hgood => ?_, fun hbad => ?_⟩
  · rw [hgood, State.roundTrip, if_neg Bool.false_ne_true, if_neg Bool.false_ne_true] at hexec
    obtain ⟨honly, hregs, hat⟩ := cause_round (sentCause s i) c info sub
    refine ⟨_, hexec, honly.eq_net, hregs, fun th hon h0 => ?_⟩
    obtain ⟨u, hu, hreg, hthr⟩ := hat th hon h0
    obtain ⟨hmask, hpend⟩ := agrees_cause hu
    have hspec := causeAt_thread (s := s) hmask hpend (hu.thr th rfl) hreg hthr
    intro k
    have hk : k = c.lo + th.th.val := by cases c <;> rfl
    rw [hk]
    split at hspec
    · next hm =>
      obtain ⟨hbit, hinfo⟩ := hspec
      rw [if_pos hm, hinfo]
      refine ⟨hbit, ?_, ?_, ?_⟩
      · rintro rfl; rfl
      · rintro rfl; rfl
      · rintro rfl; exact ⟨rfl, rfl⟩
    · next hm => exact (if_neg hm).symm ▸ hspec
  · rw [hbad, State.roundTrip, if_pos rfl, if_pos rfl] at hexec
    refine ⟨_, hexec, ?_⟩
    split
    · exact discard_counted (sentCause s i) 32
    · exact (causeAt_takes c info sub).discard_counted (s := sentCause s i) trivial (Nat.min_le_right _ _) _

/-! ## SPANFAULT -/

/-- The part of the obligation about SPAN_FAULT. -/
def SpanFaultsReachThreads : Prop :=
  ∀ (s : State) (i : Nat) (d : Damage) (th : Thr) (info : Word), s.net.spanFaults[i]? = some (th, info) →
    let s' := { s with net := { s.net with spanFaults := s.net.spanFaults.eraseIdx i } }
    let bad := castBad d (castFlits tySpanFault 0 1 (info.toNat + 2 ^ 24 * th.th.val))
    if (s.net.spanFaults.take i).any (fun e => e.1.pier == th.pier) = true then exec (.spanfault i d) s = .next s
    else
      (bad = true → Does (.spanfault i d) s (fun t => t.threads = s.threads ∧ Counted s t Reg.VIA_MALFORMED_CNT.COUNT ∧
        t.bit (Reg.PIER_SPF.PEND th.pier.val) th.th.val = s.bit (Reg.PIER_SPF.PEND th.pier.val) th.th.val)) ∧
      (bad = false → s.online th.pier.val = false → Does (.spanfault i d) s (fun t => t = { s' with io := t.io } ∧
        Counted s t Reg.VIA_EV_DROP_CNT.COUNT ∧ t.bit Reg.VIA_EV_DROP_PIER.PIER th.pier.val = true)) ∧
      (bad = false → s.online th.pier.val = true →
        (s.bit (Reg.PIER_SPF.PEND th.pier.val) th.th.val = false → Does (.spanfault i d) s (fun t =>
          t = { s' with io := t.io, threads := t.threads } ∧ t.bit (Reg.PIER_SPF.PEND th.pier.val) th.th.val = true ∧
          (∀ a, a ≠ Reg.PIER_SPF_at th.pier.val → t.reg a = s.reg a) ∧
          t.thr th = { s.thr th with infoSpan := info } ∧ ∀ u, u ≠ th → t.thr u = s.thr u)) ∧
        (s.bit (Reg.PIER_SPF.PEND th.pier.val) th.th.val = true → Does (.spanfault i d) s (fun t =>
          t = { s' with io := t.io } ∧ Counted s t (Reg.PIER_SPF.LOST th.pier.val) ∧
          ∀ a, a ≠ Reg.PIER_SPF_at th.pier.val → t.reg a = s.reg a)))

/-- The state a SPAN_FAULT leaves as it sets out. -/
def sentSpanFault (s : State) (i : Nat) : State := { s with net := { s.net with spanFaults := s.net.spanFaults.eraseIdx i } }

theorem exec_spanfault {s : State} {i : Nat} {th : Thr} {info : Word} (h : s.net.spanFaults[i]? = some (th, info)) (d : Damage) :
    exec (.spanfault i d) s = if (s.net.spanFaults.take i).any (fun e => e.1.pier == th.pier) then .next s
      else .next (if castBad d (castFlits tySpanFault 0 1 (info.toNat + 2 ^ 24 * th.th.val)) then
          (sentSpanFault s i).discard (32 + th.pier.val)
        else (sentSpanFault s i).spanFaultAt th info) := by
  rw [show exec (.spanfault i d) s = execSpanfault i d s from rfl]
  simp only [execSpanfault, h, sentSpanFault]

theorem spf_below (p : PierIx) : Reg.PIER_SPF_at p.val < 0x1100 := by
  have hp := p.isLt
  unfold Reg.PIER_SPF_at
  omega

/-- SPAN_FAULT at a pier that is not ONLINE is dropped. -/
theorem spanFaultAt_offline {s : State} {th : Thr} (hoff : s.online th.pier.val = false) (info : Word) :
    s.spanFaultAt th info = s.dropDelivery th.pier.val := by
  rw [State.spanFaultAt, hoff]
  rfl

/-- The first SPAN_FAULT of a thread is pending there with its EINFO. -/
theorem spanFaultAt_first {s : State} {th : Thr} (hon : s.online th.pier.val = true)
    (hfree : s.bit (Reg.PIER_SPF.PEND th.pier.val) th.th.val = false) (info : Word) :
    s.spanFaultAt th info = (s.setBit (Reg.PIER_SPF.PEND th.pier.val) th.th.val true).onThr th (fun t => { t with infoSpan := info }) := by
  rw [State.spanFaultAt, hon, hfree]
  rfl

/-- A second one is lost and counted. -/
theorem spanFaultAt_second {s : State} {th : Thr} (hon : s.online th.pier.val = true)
    (hpend : s.bit (Reg.PIER_SPF.PEND th.pier.val) th.th.val = true) (info : Word) :
    s.spanFaultAt th info = s.incSat (Reg.PIER_SPF.LOST th.pier.val) := by
  rw [State.spanFaultAt, hon, hpend]
  rfl

theorem spanFaultsReachThreads : SpanFaultsReachThreads := by
  intro s i d th info hfault s' bad
  have hexec := exec_spanfault hfault d
  split
  · next hbehind => rwa [if_pos hbehind] at hexec
  · next hfirst =>
    rw [if_neg hfirst] at hexec
    refine ⟨fun hbad => ?_, fun hgood hoff => ?_, fun hgood hon => ⟨fun hfree => ?_, fun hpend => ?_⟩⟩
    · rw [if_pos hbad] at hexec
      have hlt := spf_below th.pier
      have hspf : ((sentSpanFault s i).discard (32 + th.pier.val)).reg (Reg.PIER_SPF_at th.pier.val) =
          (sentSpanFault s i).reg (Reg.PIER_SPF_at th.pier.val) :=
        reg_discard _ _ (by omega) (by unfold Reg.VIA_MALFORMED_CNT_at; omega)
      exact ⟨_, hexec, threads_discard (sentSpanFault s i) _, discard_counted (sentSpanFault s i) _,
        bit_congr (f := Reg.PIER_SPF.PEND th.pier.val) hspf _⟩
    · rw [if_neg (ne_true_of_eq_false hgood), spanFaultAt_offline (s := sentSpanFault s i) hoff] at hexec
      refine ⟨_, hexec, ?_, ?_, ?_⟩
      · have heq := (onlyThreadsAndRegs_dropDelivery (sentSpanFault s i) th.pier.val).eq
        rw [threads_dropDelivery] at heq
        exact heq
      · exact (rf_congr (f := Reg.VIA_EV_DROP_CNT.COUNT) (State.reg_setBit_other _ _ _ _ _ (by decide))).trans
          (State.rf_incSat (sentSpanFault s i) Reg.VIA_EV_DROP_CNT.COUNT 1 (by decide))
      · rw [bit_dropDelivery _ _ _ th.pier.isLt, decide_eq_true rfl, Bool.true_or]
    · rw [if_neg (ne_true_of_eq_false hgood), spanFaultAt_first (s := sentSpanFault s i) hon hfree] at hexec
      refine ⟨_, hexec, (((OnlyThreadsAndRegs.refl (sentSpanFault s i)).setReg _ _).onThr _ _).eq_net, ?_, fun a ha => ?_, ?_,
        fun u hu => ?_⟩
      · have hth := th.th.isLt
        exact State.bit_setBit_same (sentSpanFault s i) (Reg.PIER_SPF.PEND th.pier.val) _ _
          (show 0 + th.th.val < 32 by omega)
      · rw [State.reg_onThr]
        exact State.reg_setBit_other _ _ _ _ _ ha
      · rw [State.thr_onThr_same, State.thr_setBit]
        rfl
      · rw [State.thr_onThr_other _ _ _ _ hu, State.thr_setBit]
        rfl
    · rw [if_neg (ne_true_of_eq_false hgood), spanFaultAt_second (s := sentSpanFault s i) hon hpend] at hexec
      exact ⟨_, hexec, ((OnlyThreadsAndRegs.refl (sentSpanFault s i)).setReg _ _).eq_net,
        State.rf_incSat (sentSpanFault s i) (Reg.PIER_SPF.LOST th.pier.val) 1 (by simp [Reg.PIER_SPF.LOST]),
        fun a ha => State.reg_incSat_other (sentSpanFault s i) _ 1 a ha⟩

/-! ## The obligation -/

/-- Settles O27: a round is a visit to each pier stop, and a visit changes nothing at another pier; SPAN_FAULT goes to its pier alone. -/
theorem broadcastsReachPiers : Obligations.BroadcastsReachPiers :=
  ⟨eventsReachPiers, causesReachThreads, spanFaultsReachThreads⟩

end Sys2Proof.Claims
end

section
/-!
PROOFS. The end of a quiesce refuted: two requests with one number (O26).

Choices and readings of this file: none.
-/

namespace Sys2Proof.Claims

open Sys2Proof.Machine

/-- Number 0: P1's mailbox read that P0's core has accepted and not answered. -/
def acceptedRead : Req :=
  { id := 0, who := .access ⟨1, 0⟩, op := .mboxRd 0 0 1, ni := 1, entry := 0, vc := 0, route := 0, tag := 0, sent := true, isl := 1, gen := 0,
    resp := none, held := false, stale := false, lost := false, place := .core 0, back := false }

/-- Number 0 again: a posted store of P0 on its way to the Deck. -/
def postedStore : Req :=
  { id := 0, who := .store ⟨0, 0⟩ 0x10000000, op := .deckWr 0 1 0, ni := 0, entry := 0, vc := 0, route := 0, tag := 0, sent := true, isl := 0,
    gen := 0, resp := none, held := false, stale := false, lost := false, place := .away, back := false }

/-- P0 in QUIESCE with both requests in the network. -/
def sharedNumber : State := { State.reset with
  net := { State.reset.net with reqs := [acceptedRead, postedStore], shells := [(0, { Shell.reset with st := .quiesce })] } }

/-- No request is STALE in the state an outcome leaves. -/
def noneStale : Host.Outcome State Fault Refusal → Bool
  | .next t => t.net.reqs.all (fun r => !r.stale)
  | _ => false

/-- The answer to the accepted read takes the place of both requests, and nothing is left for P0's shell to mark STALE. -/
theorem sharedNumber_noneStale : noneStale (exec (.quiesceTimeout 0) sharedNumber) = true := by decide

/-- Refutes O26: with two requests of one number, the answer to the accepted one overwrites the store that P0 awaits, so the
end of the quiesce leaves no STALE tag for it. -/
theorem not_responsesTimeoutsAndQuiesce : ¬ Obligations.ResponsesTimeoutsAndQuiesce := by
  unfold Obligations.ResponsesTimeoutsAndQuiesce
  rintro ⟨-, -, hquiesce⟩
  have hstores : ∀ r ∈ sharedNumber.net.reqs, r.isl = 0 → ∃ th a, r.who = .store th a := by
    intro r hr h0
    rcases List.mem_pair.mp hr with rfl | rfl
    · exact absurd h0 (by decide)
    · exact ⟨_, _, rfl⟩
  obtain ⟨t, hexec, -, hstale, -⟩ := (hquiesce sharedNumber 0 (by decide)).1 hstores
  obtain ⟨r, hr, -, hrs⟩ := hstale postedStore (by simp [sharedNumber]) rfl rfl
  have hnone := sharedNumber_noneStale
  rw [hexec, noneStale, List.all_eq_true] at hnone
  exact absurd (hnone r hr) (by rw [hrs]; decide)

end Sys2Proof.Claims
end

section
/-!
PROOFS. O4 and O6: branches and jumps (R75), and the corners of the divides (R82).

Choices and readings of this file: log 8.
-/

namespace Sys2Proof.Claims
open Sys2Proof.Machine

/-! ### Branches and jumps -/

/-- A target by the signed offset (R75). -/
theorem branchTarget_eq_ofInt {n : Nat} (hn : n ≤ 32) (pc : Word) (off : BitVec n) :
    branchTarget pc off = BitVec.ofInt 32 (pc.toInt + 4 * off.toInt) := by
  have hoff : (sx off).toInt = off.toInt := BitVec.toInt_signExtend_of_le hn
  rw [← hoff, BitVec.ofInt_add, BitVec.ofInt_mul, BitVec.ofInt_toInt, BitVec.ofInt_toInt]
  rfl

theorem slt_eq_decide (a b : Word) : a.slt b = decide (a.toInt < b.toInt) := rfl

theorem not_slt_eq_decide (a b : Word) : (!a.slt b) = decide (b.toInt ≤ a.toInt) := by
  rw [BitVec.slt, ← decide_not, decide_eq_decide, Int.not_lt]

theorem ult_eq_decide (a b : Word) : a.ult b = decide (a.toNat < b.toNat) := rfl

theorem not_ult_eq_decide (a b : Word) : (!a.ult b) = decide (b.toNat ≤ a.toNat) := by
  rw [BitVec.ult, ← decide_not, decide_eq_decide, Nat.not_lt]

/-- An instruction that changes nothing but the PC and completes in one slot. -/
theorem Runs.jumps {s th} (h : Runs s th) {i : Instr} {rp settle : Bool} {body : State → Out} {npc : Word}
    (hi : exec i s = .next (s.issue th rp settle body))
    (hb : body (s.onThr th Thread.gretSeen) = .done (s.onThr th Thread.gretSeen) npc 1) : Jumps i s th npc := by
  have he := h.issue rp settle body
  rw [hb, conclude_done h.noAsync] at he
  refine ⟨_, hi, ?_⟩
  rw [he]
  refine ⟨onlyThread_retire (((OnlyThreadsAndRegs.refl s).onThr th _).onThr th _) (fun v hv => ?_) (fun a => rfl) _ _ _, ?_⟩
  · rw [State.thr_onThr_other _ _ _ _ hv, State.thr_onThr_other _ _ _ _ hv]
  · rw [State.thr_retire_same, State.thr_onThr_same, State.thr_onThr_same,
      retire_noRepeat (o := (s.thr th).gretSeen) (by exact h.noRepeat) h.noTpend]
    rfl

/-- A conditional branch with condition `c`, stated as `c'` (Table isa-5). -/
theorem Runs.branches {s th} (h : Runs s th) {i : Instr} {ra rb : RegIx} {off : BitVec 16} {c c' : Word → Word → Bool}
    (hi : exec i s = .next (s.branch th ra rb off c)) (hc : ∀ a b, c a b = c' a b) :
    Jumps i s th (if c' ((s.thr th).rg ra) ((s.thr th).rg rb) then BitVec.ofInt 32 ((s.thr th).pc.toInt + 4 * off.toInt)
      else (s.thr th).pc + 4) := by
  refine h.jumps hi ?_
  simp only [State.thr_onThr_same, branchTarget_eq_ofInt (show 16 ≤ 32 by decide), hc]
  rfl

theorem branchRows_jump {s th} (h : Runs s th) (ra rb : RegIx) (off : BitVec 16) : ∀ e ∈ branchRows,
    Jumps (e.1 th ra rb off) s th (if e.2 ((s.thr th).rg ra) ((s.thr th).rg rb) then
      BitVec.ofInt 32 ((s.thr th).pc.toInt + 4 * off.toInt) else (s.thr th).pc + 4) := by
  simp only [branchRows, List.forall_mem_cons]
  exact ⟨h.branches rfl (fun _ _ => rfl), h.branches rfl (fun _ _ => rfl), h.branches rfl slt_eq_decide,
    h.branches rfl not_slt_eq_decide, h.branches rfl ult_eq_decide, h.branches rfl not_ult_eq_decide, List.forall_mem_nil _⟩

theorem j_jumps {s th} (h : Runs s th) (off : BitVec 26) :
    Jumps (.j th off) s th (BitVec.ofInt 32 ((s.thr th).pc.toInt + 4 * off.toInt)) := by
  refine h.jumps rfl ?_
  rw [State.thr_onThr_same, branchTarget_eq_ofInt (by decide)]
  rfl

theorem jal_links {s th} (h : Runs s th) (off : BitVec 26) :
    WritesG (.jal th off) s th 31 ((s.thr th).pc + 4) (BitVec.ofInt 32 ((s.thr th).pc.toInt + 4 * off.toInt)) 1 := by
  refine h.writesG_issue rfl ?_
  simp only [State.onThr, State.thr_setThr_same, branchTarget_eq_ofInt (show 26 ≤ 32 by decide)]
  rfl

/-- JALR by the alignment of its target: link and jump, or ALIGN with neither (R75). -/
theorem Runs.jalr {s th} (h : Runs s th) (rd rs : RegIx) :
    (((s.thr th).rg rs).toNat % 4 = 0 → WritesG (.jalr th rd rs) s th rd ((s.thr th).pc + 4) ((s.thr th).rg rs) 1) ∧
    (((s.thr th).rg rs).toNat % 4 ≠ 0 → (s.thr th).exl = false →
      Takes (.jalr th rd rs) s th cAlign 0 ((s.thr th).rg rs)) := by
  have hg : (s.onThr th Thread.gretSeen).thr th = (s.thr th).gretSeen := State.thr_onThr_same _ _ _
  have hr (r : RegIx) : (s.thr th).gretSeen.rg r = (s.thr th).rg r := rfl
  refine ⟨fun hal => h.writesG_issue rfl ?_, fun hmis hexl => h.takes hexl rfl ?_ (by decide)⟩
  · simp only [hr, if_neg (not_not.2 hal), State.onThr, State.thr_setThr_same]
    rfl
  · simp only [hg, hr, if_pos hmis]

/-- Settles O4: branches and J change the PC alone, JAL and JALR write their link too, and JALR checks its target. -/
theorem branchesAndJumpsSetPc : Obligations.BranchesAndJumpsSetPc := by
  intro th ra rb rd rs off off26 s h
  obtain ⟨hlink, halign⟩ := h.jalr rd rs
  exact ⟨branchRows_jump h ra rb off, j_jumps h off26, jal_links h off26, hlink, halign⟩

/-! ### The corners of the divides -/

/-- A precise cause of SUB 0 leaves its code in CAUSE, and every G register but the stack pointer of a Task thread (R129). -/
theorem Takes.leaves {i : Instr} {s : State} {th : Thr} {code : Nat} {einfo : Word} (h : Takes i s th code 0 einfo) (rd : RegIx)
    (hrd : rd ≠ 30 ∨ (s.thr th).kernel = true) :
    ∃ t, exec i s = .next t ∧ (t.thr th).cause = BitVec.ofNat 32 code ∧ (t.thr th).rg rd = (s.thr th).rg rd := by
  obtain ⟨t, he, ht, -, -⟩ := h
  have hk : ¬ ((s.thr th).kernel = false ∧ rd = 30) := by
    rintro ⟨hk, rfl⟩
    simp [hk] at hrd
  refine ⟨t, he, ?_, ?_⟩
  · rw [ht, Thread.enter_cause]
    rfl
  · rw [ht, enter_gretSeen, enter_rg, if_neg hk]

/-- Settles O6: the quotient and remainder of −2^31 by −1 by the values of DIV and REM, a divisor of 0 by the cause taken. -/
theorem divideCorners : Obligations.DivideCorners := by
  intro th rd rs rt s h
  have hdiv := (h.divides (i := .div th rd rs rt) rfl).1
  have hrem := (h.divides (i := .rem th rd rs rt) rfl).1
  refine ⟨fun hs ht => ?_, fun hz hexl hrd e he => ?_⟩
  · rw [hs, ht] at hdiv hrem
    exact ⟨hdiv (by decide), hrem (by decide)⟩
  · exact ((dividesWriteGdOrRaiseDivZero th rd rs rt s h e he).2 hz hexl).leaves rd hrd

end Sys2Proof.Claims
end

section
/-!
PROOFS. O10: loads and stores of the scratchpad and the own mailbox (R56, R57, R76, R77, R120).

Choices and readings of this file: log 8, 14, 101.
-/

namespace Sys2Proof.Claims
open Sys2Proof.Machine

/-! ### Bytes of the scratchpad and the mailbox -/

theorem getBytes_eq_sum (m : List Host.Cell) (a n : Nat) :
    getBytes m a n = ((List.range n).map (fun k => (SMap.get m 0 (a + k)).toNat * 256 ^ k)).sum := by
  induction n generalizing a with
  | zero => rfl
  | succ n ih =>
    have hshift (k : Nat) : (SMap.get m 0 (a + (k + 1))).toNat * 256 ^ (k + 1) =
        256 * ((SMap.get m 0 (a + 1 + k)).toNat * 256 ^ k) := by
      rw [show a + (k + 1) = a + 1 + k by omega, pow_succ]
      ring
    rw [getBytes, ih, List.range_succ_eq_map, List.map_cons, List.sum_cons, List.map_map, ← List.sum_map_mul_left]
    simp only [Function.comp_def, Nat.succ_eq_add_one, hshift, Nat.add_zero, pow_zero, mul_one]

theorem getBytes_lt (m : List Host.Cell) (a n : Nat) : getBytes m a n < 256 ^ n := by
  induction n generalizing a with
  | zero => exact Nat.one_pos
  | succ n ih =>
    have hbyte := (SMap.get m 0 a).isLt
    have hrest := ih (a + 1)
    rw [getBytes, Nat.pow_succ]
    omega

/-- A byte after bytes were stored. -/
theorem get_setBytes_ite (m : List Host.Cell) (a n v k : Nat) : SMap.get (setBytes m a n v) 0 k =
    if a ≤ k ∧ k < a + n then BitVec.ofNat 8 (v / 256 ^ (k - a)) else SMap.get m 0 k := by
  split
  · next h =>
    have hget := get_setBytes m a n v (k - a) (by omega)
    rwa [show a + (k - a) = k by omega] at hget
  · next h => exact get_setBytes_other _ _ _ _ _ (by omega)

/-- `n` bytes at `a` lie in the scratchpad or in the mailbox (Table pier-5). -/
def InLocal (a n : Nat) : Prop := a + n ≤ 0x10000 ∨ (0x10000 ≤ a ∧ a + n ≤ 0x11000)

theorem localRd_eq_localBytes {a n : Nat} (ha : InLocal a n) (s : State) (p : Nat) : s.localRd p a n = localBytes s p a n := by
  unfold State.localRd localBytes State.spadRd State.mboxRd
  split
  · next hlo =>
    rw [getBytes_eq_sum]
    refine congrArg List.sum (List.map_congr_left fun k hk => ?_)
    have hk' := List.mem_range.1 hk
    rw [localByte, if_pos (by unfold InLocal at ha; omega), Nat.add_assoc]
  · next hhi =>
    rw [getBytes_eq_sum]
    refine congrArg List.sum (List.map_congr_left fun k hk => ?_)
    rw [localByte, if_neg (by omega), Nat.add_assoc, ← Nat.sub_add_comm (by omega)]

theorem localBytes_lt {a n : Nat} (ha : InLocal a n) (s : State) (p : Nat) : localBytes s p a n < 256 ^ n := by
  rw [← localRd_eq_localBytes ha, State.localRd]
  split <;> exact getBytes_lt _ _ _

/-- A byte of a scratchpad or mailbox after a local store. -/
theorem localByte_localWr {a n x : Nat} (ha : InLocal a n) (hx : x < 0x11000) (s : State) (p q v : Nat) :
    localByte (s.localWr p a n v) q x =
      if q = p ∧ a ≤ x ∧ x < a + n then BitVec.ofNat 8 (v / 256 ^ (x - a)) else localByte s q x := by
  unfold InLocal at ha
  unfold State.localWr localByte
  by_cases hlo : a < 0x10000 <;> by_cases hx' : x < 0x10000 <;> simp only [hlo, hx', if_true, if_false]
  · rw [State.spadWr, get_setBytes_ite]
    refine ite_congr (propext (by omega)) (fun hin => ?_) (fun _ => rfl)
    rw [show 0x10000 * q + x - (0x10000 * p + a) = x - a by omega]
  · rw [State.spadWr_mbox, if_neg (by omega)]
  · rw [State.mboxWr_spad, if_neg (by omega)]
  · rw [State.mboxWr, get_setBytes_ite]
    refine ite_congr (propext (by omega)) (fun hin => ?_) (fun _ => rfl)
    rw [show 0x1000 * q + (x - 0x10000) - (0x1000 * p + (a - 0x10000)) = x - a by omega]

theorem localWr_frame (s : State) (p a n v : Nat) :
    s.localWr p a n v = { s with spad := (s.localWr p a n v).spad, mbox := (s.localWr p a n v).mbox } := by
  unfold State.localWr
  split <;> rfl

theorem thr_localWr (s : State) (p a n v : Nat) (th : Thr) : (s.localWr p a n v).thr th = s.thr th := by
  rw [localWr_frame]
  rfl

theorem reg_localWr (s : State) (p a n v b : Nat) : (s.localWr p a n v).reg b = s.reg b := by
  rw [localWr_frame]
  rfl

/-- A byte of a value cut to `n` bytes. -/
theorem byte_of_mod {n i : Nat} (hi : i < n) (v : Nat) :
    BitVec.ofNat 8 (v % 2 ^ (8 * n) / 256 ^ i) = BitVec.ofNat 8 (v / 256 ^ i) := by
  have hpow : (2 : Nat) ^ (8 * n) = 256 ^ i * 256 ^ (n - i) := by
    rw [← pow_add, Nat.add_sub_cancel' hi.le, pow_mul]
    norm_num
  have hdvd : 2 ^ 8 ∣ 256 ^ (n - i) := dvd_pow_self 256 (by omega)
  apply BitVec.eq_of_toNat_eq
  rw [BitVec.toNat_ofNat, BitVec.toNat_ofNat, hpow, Nat.mod_mul_right_div_self, Nat.mod_mod_of_dvd _ hdvd]

/-! ### Addresses and their checks -/

theorem toNat_effAddr (o : Thread) (rb : RegIx) (pi : Bool) (disp : BitVec 12) :
    (effAddr o rb pi disp).toNat = eff o rb pi disp := by
  have hadd : o.rg rb + sx disp = BitVec.ofInt 32 ((o.rg rb).toInt + disp.toInt) := by
    rw [BitVec.ofInt_add, BitVec.ofInt_toInt]
    rfl
  rw [effAddr, eff, hadd]

theorem InLocal.lt {a n : Nat} (ha : InLocal a n) (hn : 0 < n) : a < 0x11000 := by
  unfold InLocal at ha
  omega

theorem isDeck_local (g : Grade) {a : Nat} (ha : a < 0x11000) : isDeck g a = false := by
  unfold isDeck spaceOf
  by_cases hlo : a < 0x10000 <;> simp [hlo, ha]

theorem mapFault_local (g : Grade) {a n : Nat} (ha : InLocal a n) (hn : 0 < n) : mapFault g a n = none := by
  have hlt := ha.lt hn
  unfold InLocal at ha
  unfold mapFault spaceOf
  by_cases hlo : a < 0x10000
  · simp only [hlo, if_true]
    exact if_pos (by omega)
  · simp only [hlo, hlt, if_true, if_false]
    exact if_pos (by omega)

/-- A local access that may proceed passes the checks of D-space (R127, R136). -/
theorem LocalOk.dspaceCheck {s : State} {th : Thr} {a n : Nat} {store : Bool} (h : LocalOk s th a n store) (hn : 0 < n) (al : Nat) :
    s.dspaceCheck th a n al store = none := by
  obtain ⟨hmode, hin⟩ := h
  have htask : (if (s.thr th).kernel then none else s.taskFault th.pier.val a n store) = none := by
    rcases hmode with hk | ht
    · exact if_pos hk
    · rw [ht, ite_self]
  have hdeck : (isDeck s.grade a && a % al != 0) = false := by rw [isDeck_local _ (InLocal.lt hin hn), Bool.false_and]
  simp only [State.dspaceCheck, htask, mapFault_local _ hin hn, hdeck, Bool.false_eq_true, if_false]

theorem taskFault_onThr (s : State) (th : Thr) (f : Thread → Thread) (p a n : Nat) (store : Bool) :
    (s.onThr th f).taskFault p a n store = s.taskFault p a n store := by
  have htwin : (s.onThr th f).twin p = s.twin p := rfl
  have htwins : (s.onThr th f).twins p store = s.twins p store := by rw [State.twins, State.twins, htwin]
  rw [State.taskFault, State.taskFault, htwins]

theorem dspaceCheck_gretSeen (s : State) (th : Thr) (a n al : Nat) (store : Bool) :
    (s.onThr th Thread.gretSeen).dspaceCheck th a n al store = s.dspaceCheck th a n al store := by
  have hk : (s.thr th).gretSeen.kernel = (s.thr th).kernel := rfl
  rw [State.dspaceCheck, State.dspaceCheck, State.thr_onThr_same, hk, taskFault_onThr, State.onThr_grade]

/-! ### Split accesses counted (R57) -/

/-- A split access counted where `b` says so. -/
def splitCounted (s : State) (p : Nat) (b : Bool) : State := if b then s.incSat (Reg.PIER_SPLIT_CNT.COUNT p) else s

theorem splitCounted_eq (s : State) (split : Bool) (p a n : Nat) :
    (if split then s.countSplit p a n else s) = splitCounted s p (split && crosses a n) := by
  cases split <;> rfl

theorem thr_splitCounted (s : State) (p : Nat) (b : Bool) (th : Thr) : (splitCounted s p b).thr th = s.thr th := by
  cases b
  · rfl
  · exact State.thr_incSat _ _ _ _

theorem reg_splitCounted_other (s : State) (p : Nat) (b : Bool) {a : Nat} (ha : a ≠ Reg.PIER_SPLIT_CNT_at p) :
    (splitCounted s p b).reg a = s.reg a := by
  cases b
  · rfl
  · exact State.reg_incSat_other _ _ _ _ ha

theorem reg_splitCounted_congr {s t : State} (h : ∀ a, t.reg a = s.reg a) (p : Nat) (b : Bool) (a : Nat) :
    (splitCounted t p b).reg a = (splitCounted s p b).reg a := by
  cases b
  · exact h a
  · simp only [splitCounted, if_true, State.incSat, State.wf, State.rf, State.reg_setReg, h]

theorem rf_splitCounted (s : State) (p : Nat) (b : Bool) : (splitCounted s p b).rf (Reg.PIER_SPLIT_CNT.COUNT p) =
    min (2 ^ 32 - 1) (s.rf (Reg.PIER_SPLIT_CNT.COUNT p) + b2n b) := by
  have hlt : s.rf (Reg.PIER_SPLIT_CNT.COUNT p) < 2 ^ 32 := getBits_lt _ _ _
  cases b
  · exact (min_eq_right (Nat.le_sub_one_of_lt hlt)).symm
  · exact State.rf_incSat _ _ _ (by exact Nat.le_refl 32)

theorem OnlyThreadsAndRegs.splitCounted {s t : State} (h : OnlyThreadsAndRegs s t) (p : Nat) (b : Bool) :
    OnlyThreadsAndRegs s (splitCounted t p b) := by
  cases b
  · exact h
  · exact h.setReg _ _

theorem split_count_apart (p : Nat) : Reg.PIER_RETIRED_at p ≠ Reg.PIER_SPLIT_CNT_at p ∧
    Reg.PIER_CYCLES_at p ≠ Reg.PIER_SPLIT_CNT_at p := by
  unfold Reg.PIER_RETIRED_at Reg.PIER_CYCLES_at Reg.PIER_SPLIT_CNT_at
  omega

/-- Retiring an access counts it, with its split counted before. -/
theorem countsAccess_retire {s u : State} {th : Thr} {b : Bool} (hu : ∀ a, u.reg a = (splitCounted s th.pier.val b).reg a)
    (o : Thread) (npc : Word) (n : Nat) : CountsAccess s (u.retire th o npc n) th.pier.val n b := by
  obtain ⟨hsr, hsc⟩ := split_count_apart th.pier.val
  obtain ⟨-, -, hregs, hretired, hcycles⟩ :=
    onlyThread_retire (th := th) (OnlyThreadsAndRegs.refl u) (fun _ _ => rfl) (fun _ => rfl) o npc n
  have hother {a : Nat} (ha : a ≠ Reg.PIER_SPLIT_CNT_at th.pier.val) : u.reg a = s.reg a :=
    (hu a).trans (reg_splitCounted_other s _ b ha)
  have hsplit : (u.retire th o npc n).rf (Reg.PIER_SPLIT_CNT.COUNT th.pier.val) =
      (splitCounted s th.pier.val b).rf (Reg.PIER_SPLIT_CNT.COUNT th.pier.val) :=
    rf_congr ((hregs _ hsr.symm hsc.symm).trans (hu _))
  refine ⟨?_, ?_, hsplit.trans (rf_splitCounted s _ b), fun a h1 h2 h3 => (hregs a h1 h2).trans (hother h3)⟩
  · rw [hretired, rf_congr (f := Reg.PIER_RETIRED.COUNT th.pier.val) (hother hsr)]
  · rw [hcycles, rf_congr (f := Reg.PIER_CYCLES.COUNT th.pier.val) (hother hsc)]

/-! ### Registers after an access -/

theorem applyPost_frame (t : Thread) (post : Option (RegIx × Word)) : t.applyPost post = { t with g := (t.applyPost post).g } := by
  cases post with
  | none => rfl
  | some e => exact Thread.wg_frame _ _ _

/-- G registers after the post-increment (R76). -/
theorem rg_applyPost (o t : Thread) (rb : RegIx) (pi : Bool) (disp : BitVec 12) (r : RegIx) :
    (t.applyPost (postInc o rb pi disp)).rg r = if pi ∧ r = rb ∧ r ≠ 0 then o.rg rb + disp.signExtend 32 else t.rg r := by
  cases pi
  · simp [postInc, Thread.applyPost]
  · simp only [postInc, if_true, Thread.applyPost, Thread.rg_wg, true_and]
    rfl

theorem rf_wg (t : Thread) (d : RegIx) (v : Word) (r : RegIx) : (t.wg d v).rf r = t.rf r := by
  rw [Thread.rf, Thread.wg_f, Thread.rf]

theorem rw_wg (t : Thread) (d : RegIx) (v : Word) (r : WIx) : (t.wg d v).rw r = t.rw r := by
  rw [Thread.rw, Thread.wg_w, Thread.rw]

theorem rf_applyPost (t : Thread) (post : Option (RegIx × Word)) (r : RegIx) : (t.applyPost post).rf r = t.rf r := by
  rw [applyPost_frame]
  rfl

theorem rw_applyPost (t : Thread) (post : Option (RegIx × Word)) (r : WIx) : (t.applyPost post).rw r = t.rw r := by
  rw [applyPost_frame]
  rfl

/-- The end of an access changes the G, F and W registers alone. -/
theorem finish_frame (a : Access) (t : Thread) (ht : t.acc = none) (v : Nat) :
    a.finish t v = { t with g := (a.finish t v).g, f := (a.finish t v).f, w := (a.finish t v).w } := by
  have hacc : { t with acc := none } = t := by rw [← ht]
  obtain ⟨kind, post, einfo⟩ := a
  cases kind <;> simp only [Access.finish, hacc] <;> rw [applyPost_frame]
  case loadG => rw [Thread.wg_frame]
  case iload => rw [Thread.wg_frame, Thread.wg_frame t]
  case ioIn => rw [Thread.wg_frame]
  all_goals rfl

/-- A thread whose instruction changed G, F and W registers alone, retired. -/
theorem retire_registers {o x : Thread} (hrep : o.rep = none) (htp : o.tpend = 0)
    (hx : x = { o.gretSeen with g := x.g, f := x.f, w := x.w }) (npc : Word) :
    x.commitProduct.retire o.gretSeen npc = { retired o npc with g := x.g, f := x.f, w := x.w } := by
  generalize x.g = g, x.f = f, x.w = w at hx
  subst hx
  rw [retire_noRepeat (by exact hrep) (by exact htp)]
  rfl

/-! ### Loads -/

/-- The access of format D of a thread: `kind` at its effective address, with its post-increment (R76). -/
def formatD (o : Thread) (kind : AccKind) (rb : RegIx) (pi : Bool) (disp : BitVec 12) : Access :=
  ⟨kind, postInc o rb pi disp, BitVec.ofNat 32 (eff o rb pi disp)⟩

/-- A thread as a load of format D leaves its registers. -/
def afterLoad (o : Thread) (kind : AccKind) (rb : RegIx) (pi : Bool) (disp : BitVec 12) (v : Nat) : Thread :=
  (formatD o kind rb pi disp).finish o.gretSeen v

theorem afterLoad_loadG (o : Thread) (rd : RegIx) (n : Nat) (sg : Bool) (rb : RegIx) (pi : Bool) (disp : BitVec 12) (v : Nat) :
    (∀ r, (afterLoad o (.loadG rd n sg) rb pi disp v).rg r = gAfter o (some (rd, loadExtend n sg v)) rb pi disp r) ∧
    (∀ r, (afterLoad o (.loadG rd n sg) rb pi disp v).rf r = o.rf r) ∧
    (∀ r, (afterLoad o (.loadG rd n sg) rb pi disp v).rw r = o.rw r) := by
  refine ⟨fun r => ?_, fun r => ?_, fun r => ?_⟩
  · exact (rg_applyPost o _ rb pi disp r).trans (ite_congr rfl (fun _ => rfl) (fun _ => Thread.rg_wg _ _ _ _))
  · exact (rf_applyPost _ _ _).trans (rf_wg _ _ _ _)
  · exact (rw_applyPost _ _ _).trans (rw_wg _ _ _ _)

theorem afterLoad_loadF (o : Thread) (rd : RegIx) (n : Nat) (rb : RegIx) (pi : Bool) (disp : BitVec 12) (v : Nat) :
    (∀ r, (afterLoad o (.loadF rd n) rb pi disp v).rg r = gAfter o none rb pi disp r) ∧
    (∀ r, (afterLoad o (.loadF rd n) rb pi disp v).rf r = if r = rd then BitVec.ofNat 64 (v % 2 ^ (8 * n)) else o.rf r) ∧
    (∀ r, (afterLoad o (.loadF rd n) rb pi disp v).rw r = o.rw r) :=
  ⟨fun r => rg_applyPost o _ rb pi disp r, fun _ => (rf_applyPost _ _ _).trans (Thread.rf_wf _ _ _ _), fun _ => rw_applyPost _ _ _⟩

theorem afterLoad_loadW (o : Thread) (wd : WIx) (rb : RegIx) (pi : Bool) (disp : BitVec 12) (v : Nat) :
    (∀ r, (afterLoad o (.loadW wd) rb pi disp v).rg r = gAfter o none rb pi disp r) ∧
    (∀ r, (afterLoad o (.loadW wd) rb pi disp v).rf r = o.rf r) ∧
    (∀ r, (afterLoad o (.loadW wd) rb pi disp v).rw r = if r = wd then BitVec.ofNat 256 v else o.rw r) :=
  ⟨fun r => rg_applyPost o _ rb pi disp r, fun _ => rf_applyPost _ _ _, fun _ => (rw_applyPost _ _ _).trans (Thread.rw_ww _ _ _ _)⟩

theorem sInt_eq_lint {w : Nat} (hw : 0 < w) (v : Nat) : sInt w v = lint w v := by
  obtain ⟨k, rfl⟩ := Nat.exists_eq_add_one.2 hw
  simp only [sInt, lint, BitVec.toInt, BitVec.toNat_ofNat, Nat.add_sub_cancel, pow_succ]
  exact if_congr (by omega) rfl rfl

/-- A loaded value as U extends it (R77). -/
theorem loadExtend_eq {n : Nat} (hn : 0 < n) (u : Bool) (v : Nat) :
    loadExtend n (!u) v = if u then BitVec.ofNat 32 v else BitVec.ofInt 32 (lint (8 * n) v) := by
  cases u
  · exact congrArg (BitVec.ofInt 32) (sInt_eq_lint (by omega) v)
  · rfl

variable {s : State} {th : Thr}

/-- A local load that may proceed retires with its registers (R76, R77, R120). -/
theorem Runs.load_retires (h : Runs s th) {ok : Bool} (hok : ok = true) (w : Word) {rb : RegIx} {pi : Bool} {disp : BitVec 12} {a n : Nat}
    (ha : eff (s.thr th) rb pi disp = a) (hn : 0 < n) (split : Bool) (slots : Nat → Nat) (kind : AccKind)
    (hl : LocalOk s th a n false) :
    s.load th ok w rb pi disp n split slots kind =
      (((splitCounted (s.onThr th Thread.gretSeen) th.pier.val (split && crosses a n)).onThr th
        (fun t => (formatD (s.thr th) kind rb pi disp).finish t (localBytes s th.pier.val a n))).onThr th
        Thread.commitProduct).retire th (s.thr th).gretSeen ((s.thr th).pc + 4) (slots a) := by
  have hin : InLocal a n := hl.2
  have heff : (effAddr (s.thr th).gretSeen rb pi disp).toNat = a := (toNat_effAddr _ _ _ _).trans ha
  have hdeck : isDeck (s.onThr th Thread.gretSeen).grade a = false := isDeck_local _ (hin.lt hn)
  rw [State.load, h.issue]
  simp only [hok, Bool.not_true, Bool.false_eq_true, if_false, State.thr_onThr_same, heff, dspaceCheck_gretSeen, hl.dspaceCheck hn,
    hdeck, localRd_eq_localBytes hin, splitCounted_eq, State.npc, thr_splitCounted]
  rw [conclude_done h.noAsync]
  rfl

/-- A local load completes with the registers that its kind and its post-increment give. -/
theorem Runs.loads (h : Runs s th) {i : Instr} {ok : Bool} {w : Word} {rb : RegIx} {pi : Bool} {disp : BitVec 12} {a n : Nat}
    {split : Bool} {slots : Nat → Nat} {kind : AccKind} (hi : exec i s = .next (s.load th ok w rb pi disp n split slots kind))
    (hok : ok = true) (ha : eff (s.thr th) rb pi disp = a) (hn : 0 < n) (hl : LocalOk s th a n false)
    {g : RegIx → Word} {f : RegIx → DWord} {v : WIx → WVec}
    (hx : (∀ r, (afterLoad (s.thr th) kind rb pi disp (localBytes s th.pier.val a n)).rg r = g r) ∧
      (∀ r, (afterLoad (s.thr th) kind rb pi disp (localBytes s th.pier.val a n)).rf r = f r) ∧
      (∀ r, (afterLoad (s.thr th) kind rb pi disp (localBytes s th.pier.val a n)).rw r = v r)) :
    Loads i s th g f v (slots a) (split && crosses a n) := by
  rw [h.load_retires hok w ha hn split slots kind hl] at hi
  refine ⟨_, hi, OnlyThreadsAndRegs.eq ?_, fun u hu => ?_, countsAccess_retire (fun a => ?_) _ _ _, ?_⟩
  · exact (((((OnlyThreadsAndRegs.refl s).onThr th _).splitCounted _ _).onThr th _).onThr th _).retire th _ _ _
  · rw [State.thr_retire_other _ _ _ _ _ _ hu, State.thr_onThr_other _ _ _ _ hu, State.thr_onThr_other _ _ _ _ hu,
      thr_splitCounted, State.thr_onThr_other _ _ _ _ hu]
  · exact reg_splitCounted_congr (fun b => State.reg_onThr s th _ b) _ _ _
  · rw [State.thr_retire_same, State.thr_onThr_same, State.thr_onThr_same, thr_splitCounted, State.thr_onThr_same,
      retire_registers h.noRepeat h.noTpend (finish_frame _ _ (by exact h.noAccess) _)]
    obtain ⟨hg, hf, hw⟩ := hx
    exact ⟨hg, hf, hw, rfl⟩

theorem localLoadsWriteDestination : LocalLoadsWriteDestination := by
  intro th rd rb wd sz u pi disp s h o a n v slots
  have hn : 0 < n := Nat.two_pow_pos _
  refine ⟨fun hsz hne hl => ?_, fun hsz hl => ?_, fun hl => ?_⟩
  · have hpost : (pi && rd == rb) = false := by simpa using hne
    have hok : (sz != 3 && !(pi && rd == rb)) = true := by
      rw [hpost, bne_iff_ne.2 hsz]
      rfl
    refine h.loads (i := .ld th rd rb sz u pi disp) rfl hok rfl hn hl ?_
    rw [← loadExtend_eq hn]
    exact afterLoad_loadG o rd n (!u) rb pi disp v
  · have hlt : v < 2 ^ (8 * n) := by
      rw [pow_mul]
      exact localBytes_lt hl.2 s _
    have hreg := afterLoad_loadF o rd n rb pi disp v
    rw [Nat.mod_eq_of_lt hlt] at hreg
    exact h.loads (i := .fld th rd rb sz pi disp) rfl (decide_eq_true hsz) rfl hn hl hreg
  · exact h.loads (i := .wld th wd rb pi disp) rfl rfl rfl (by decide) hl (afterLoad_loadW o wd rb pi disp _)

/-! ### Stores -/

/-- A local store that may proceed retires with its bytes in place (R76, R77, R120). -/
theorem Runs.store_retires (h : Runs s th) {ok : Bool} (hok : ok = true) (w : Word) {rb : RegIx} {pi : Bool} {disp : BitVec 12} {a n : Nat}
    (ha : eff (s.thr th) rb pi disp = a) (hn : 0 < n) (split : Bool) (slots : Nat → Nat) (v : Thread → Nat)
    (hl : LocalOk s th a n true) :
    s.store th ok w rb pi disp n split slots v =
      (((splitCounted ((s.onThr th Thread.gretSeen).localWr th.pier.val a n (v (s.thr th).gretSeen))
        th.pier.val (split && crosses a n)).onThr th
        (fun t => t.applyPost (postInc t rb pi disp))).onThr th Thread.commitProduct).retire th (s.thr th).gretSeen
        ((s.thr th).pc + 4) (slots a) := by
  have hin : InLocal a n := hl.2
  have heff : (effAddr (s.thr th).gretSeen rb pi disp).toNat = a := (toNat_effAddr _ _ _ _).trans ha
  have hdeck : isDeck (s.onThr th Thread.gretSeen).grade a = false := isDeck_local _ (hin.lt hn)
  have hpc : (s.thr th).gretSeen.pc = (s.thr th).pc := rfl
  rw [State.store, h.issue]
  simp only [hok, Bool.not_true, Bool.false_eq_true, if_false, State.thr_onThr_same, heff, dspaceCheck_gretSeen, hl.dspaceCheck hn,
    hdeck, splitCounted_eq, State.npc, thr_splitCounted, thr_localWr, hpc]
  rw [conclude_done h.noAsync]

/-- What differs from a device after a local store in threads and registers alone, differs from the device before it in the memories of
the piers too. -/
theorem eq_of_localWr {m t : State} (f : Thread → Thread) {p a n v : Nat} (hm : (s.onThr th f).localWr p a n v = m)
    (h : OnlyThreadsAndRegs m t) : t = { s with threads := t.threads, io := t.io, spad := t.spad, mbox := t.mbox } := by
  obtain ⟨threads, io, rfl⟩ := h
  rw [← hm, localWr_frame]
  rfl

theorem OnlyThreadsAndRegs.localByte {m t : State} (h : OnlyThreadsAndRegs m t) (q x : Nat) :
    Claims.localByte t q x = Claims.localByte m q x := by
  obtain ⟨threads, io, rfl⟩ := h
  rfl

/-- A local store completes with the bytes of `x`, which its value has too, at its address. -/
theorem Runs.stores (h : Runs s th) {i : Instr} {ok : Bool} {w : Word} {rb : RegIx} {pi : Bool} {disp : BitVec 12} {a n : Nat}
    {split : Bool} {slots : Nat → Nat} {v : Thread → Nat} (hi : exec i s = .next (s.store th ok w rb pi disp n split slots v))
    (hok : ok = true) (ha : eff (s.thr th) rb pi disp = a) (hn : 0 < n) (hl : LocalOk s th a n true) {x : Nat}
    (hx : ∀ k < n, BitVec.ofNat 8 (v (s.thr th).gretSeen / 256 ^ k) = BitVec.ofNat 8 (x / 256 ^ k)) :
    Stores i s th a n x (gAfter (s.thr th) none rb pi disp) (slots a) (split && crosses a n) := by
  have hbyte (q y : Nat) (hy : y < 0x11000) := localByte_localWr (hl : _ ∧ _).2 hy (s.onThr th Thread.gretSeen) th.pier.val q
    (v (s.thr th).gretSeen)
  have hthr (u : Thr) := thr_localWr (s.onThr th Thread.gretSeen) th.pier.val a n (v (s.thr th).gretSeen) u
  have hreg (b : Nat) := reg_localWr (s.onThr th Thread.gretSeen) th.pier.val a n (v (s.thr th).gretSeen) b
  rw [h.store_retires hok w ha hn split slots v hl] at hi
  generalize hm : (s.onThr th Thread.gretSeen).localWr _ _ _ _ = m at hi hbyte hthr hreg
  have honly (b : Bool) (f : Thread → Thread) (k : Nat) := ((((OnlyThreadsAndRegs.refl m).splitCounted th.pier.val b).onThr th f).onThr th
    Thread.commitProduct).retire th (s.thr th).gretSeen ((s.thr th).pc + 4) k
  refine ⟨_, hi, eq_of_localWr _ hm (honly _ _ _), fun u hu => ?_, countsAccess_retire (fun a => ?_) _ _ _, ?_⟩
  · rw [State.thr_retire_other _ _ _ _ _ _ hu, State.thr_onThr_other _ _ _ _ hu, State.thr_onThr_other _ _ _ _ hu,
      thr_splitCounted, hthr, State.thr_onThr_other _ _ _ _ hu]
  · exact reg_splitCounted_congr (fun b => (hreg b).trans (State.reg_onThr _ _ _ _)) _ _ _
  · rw [State.thr_retire_same, State.thr_onThr_same, State.thr_onThr_same, thr_splitCounted, hthr, State.thr_onThr_same,
      retire_registers h.noRepeat h.noTpend (by rw [applyPost_frame])]
    refine ⟨fun r => rg_applyPost (s.thr th).gretSeen _ rb pi disp r, ?_, fun q y hy => ?_⟩
    · rw [applyPost_frame]
      rfl
    · rw [(honly _ _ _).localByte, hbyte _ _ hy]
      exact ite_congr rfl (fun hin => hx _ (by omega)) (fun _ => rfl)

theorem localStoresWriteBytes : LocalStoresWriteBytes := by
  intro th rd rb wd sz pi disp s h o a n g slots
  have hn : 0 < n := Nat.two_pow_pos _
  refine ⟨fun hsz hl => ?_, fun hsz hl => ?_, fun hl => ?_⟩
  · exact h.stores (i := .st th rd rb sz pi disp) rfl (bne_iff_ne.2 hsz) rfl hn hl (fun k hk => byte_of_mod hk _)
  · exact h.stores (i := .fst th rd rb sz pi disp) rfl (decide_eq_true hsz) rfl hn hl (fun k hk => byte_of_mod hk _)
  · exact h.stores (i := .wst th wd rb pi disp) rfl rfl rfl (by decide) hl (fun _ _ => rfl)

/-- Settles O10: a local access that may proceed retires, with what its kind loads in its register or its bytes in memory. -/
theorem localAccessesReadAndWrite : Obligations.LocalAccessesReadAndWrite := ⟨localLoadsWriteDestination, localStoresWriteBytes⟩

end Sys2Proof.Claims
end

section
/-!
PROOFS. O13: ILOAD (R80), and look-ups in a latched table (R93 to R97).

Choices and readings of this file: log 8, 14, 101.
-/

namespace Sys2Proof.Claims
open Sys2Proof.Machine

/-! ### ILOAD -/

/-- A byte of bytes read together. -/
theorem ofNat_getBytes {n i : Nat} (hi : i < n) (m : List Host.Cell) (a : Nat) :
    BitVec.ofNat 8 (getBytes m a n / 256 ^ i) = SMap.get m 0 (a + i) := by
  induction n generalizing a i with
  | zero => omega
  | succ n ih =>
    have hbyte := (SMap.get m 0 a).isLt
    rw [getBytes]
    cases i with
    | zero =>
      show _ = SMap.get m 0 a
      apply BitVec.eq_of_toNat_eq
      rw [pow_zero, Nat.div_one, BitVec.toNat_ofNat]
      omega
    | succ j =>
      rw [Nat.pow_succ', ← Nat.div_div_eq_div_mul, show ∀ b c : Nat, b < 2 ^ 8 → (b + 256 * c) / 256 = c by omega,
        ih (by omega), show a + 1 + j = a + (j + 1) by omega]
      exact hbyte

theorem ofNat_localRd {a n i : Nat} (ha : InLocal a n) (hi : i < n) (s : State) (p : Nat) :
    BitVec.ofNat 8 (s.localRd p a n / 256 ^ i) = localByte s p (a + i) := by
  unfold InLocal at ha
  unfold State.localRd localByte State.spadRd State.mboxRd
  by_cases hlo : a < 0x10000
  · rw [if_pos hlo, if_pos (by omega), ofNat_getBytes hi, Nat.add_assoc]
  · rw [if_neg hlo, if_neg (by omega), ofNat_getBytes hi, Nat.add_assoc, ← Nat.sub_add_comm (by omega)]

/-- G registers after an ILOAD: both addresses advanced, once where they are one register (R80, log 101). -/
theorem rg_finish_iload (t : Thread) (rd rs : RegIx) (e : Word) (v : Nat) (r : RegIx) :
    (Access.finish ⟨.iload rd rs, none, e⟩ t v).rg r =
      if r = rs ∧ r ≠ 0 then t.rg rs + 8 else if r = rd ∧ r ≠ 0 then t.rg rd + 8 else t.rg r :=
  (Thread.rg_wg _ _ _ _).trans (ite_congr rfl (fun _ => rfl) (fun _ => Thread.rg_wg _ _ _ _))

theorem finish_iload_frame {t : Thread} (ht : t.acc = none) (rd rs : RegIx) (e : Word) (v : Nat) :
    Access.finish ⟨.iload rd rs, none, e⟩ t v = { t with g := (Access.finish ⟨.iload rd rs, none, e⟩ t v).g } := by
  have hf : (Access.finish ⟨.iload rd rs, none, e⟩ t v).f = t.f := (Thread.wg_f _ _ _).trans (Thread.wg_f _ _ _)
  have hw : (Access.finish ⟨.iload rd rs, none, e⟩ t v).w = t.w := (Thread.wg_w _ _ _).trans (Thread.wg_w _ _ _)
  have hframe := finish_frame ⟨.iload rd rs, none, e⟩ t ht v
  rwa [hf, hw] at hframe

/-- A thread whose instruction changed G registers alone, retired. -/
theorem retire_g {o x : Thread} (hrep : o.rep = none) (htp : o.tpend = 0) (hx : x = { o.gretSeen with g := x.g }) (npc : Word) :
    x.commitProduct.retire o.gretSeen npc = { retired o npc with g := x.g } := by
  have hf : x.f = o.f := (congrArg Thread.f hx).trans rfl
  have hw : x.w = o.w := (congrArg Thread.w hx).trans rfl
  rw [retire_registers hrep htp (by rw [hf, hw]; exact hx), hf, hw]
  rfl

variable {s : State} {th : Thr}

/-- ILOAD of a row of the scratchpad or mailbox in Kernel mode retires with the row in I-space (R80). -/
theorem Runs.iload_retires (h : Runs s th) (rd rs : RegIx) {d a : Nat} (hd : ((s.thr th).rg rd).toNat = d)
    (ha : ((s.thr th).rg rs).toNat = a) (hk : (s.thr th).kernel = true) (hd8 : d % 8 = 0) (ha8 : a % 8 = 0) (hdi : d + 8 ≤ 0x20000)
    (hal : InLocal a 8) : exec (.iload th rd rs) s = .next
      (((((s.onThr th Thread.gretSeen).iwrite8 th.pier.val d (s.localRd th.pier.val a 8)).onThr th
        (fun t => Access.finish ⟨.iload rd rs, none, (s.thr th).rg rs⟩ t (s.localRd th.pier.val a 8))).onThr th
        Thread.commitProduct).retire th (s.thr th).gretSeen ((s.thr th).pc + 4) 1) := by
  have hg (r : RegIx) : (s.thr th).gretSeen.rg r = (s.thr th).rg r := rfl
  have hk' : (s.thr th).gretSeen.kernel = true := hk
  have hpc : (s.thr th).gretSeen.pc = (s.thr th).pc := rfl
  have hrd : (s.onThr th Thread.gretSeen).localRd th.pier.val a 8 = s.localRd th.pier.val a 8 := rfl
  have hdeck : isDeck (s.onThr th Thread.gretSeen).grade a = false := isDeck_local _ (hal.lt (by decide))
  have hmap : mapFault (s.onThr th Thread.gretSeen).grade a 8 = none := mapFault_local _ hal (by decide)
  rw [show exec (.iload th rd rs) s = execIload th rd rs s from rfl, execIload, h.issue]
  simp only [State.thr_onThr_same, hg, hd, ha, hk', hd8, ha8, hdeck, hmap, Bool.not_true, Bool.false_eq_true, if_false, ne_eq,
    not_true_eq_false, if_neg (Nat.not_lt.2 hdi), State.npc, hpc, hrd]
  rw [conclude_done h.noAsync]

/-- What differs from a device after an I-space write in threads and registers alone, differs from the device before it in I-space too. -/
theorem eq_of_iwrite8 {t : State} {f : Thread → Thread} {p d v : Nat}
    (h : OnlyThreadsAndRegs ((s.onThr th f).iwrite8 p d v) t) :
    t = { s with threads := t.threads, io := t.io, ispace := t.ispace } ∧ t.ispace = setBytes s.ispace (0x20000 * p + d) 8 v := by
  obtain ⟨threads, io, rfl⟩ := h
  exact ⟨rfl, rfl⟩

theorem thr_iwrite8 (s : State) (p d v : Nat) (u : Thr) : (s.iwrite8 p d v).thr u = s.thr u := rfl

/-- A row of a scratchpad or mailbox in I-space (R80). -/
theorem get_iwrite8_localRd {p q d a x : Nat} (hd : d + 8 ≤ 0x20000) (ha : InLocal a 8) (hx : x < 0x20000) :
    SMap.get (setBytes s.ispace (0x20000 * p + d) 8 (s.localRd p a 8)) 0 (0x20000 * q + x) =
      if q = p ∧ d ≤ x ∧ x < d + 8 then localByte s p (a + (x - d)) else SMap.get s.ispace 0 (0x20000 * q + x) := by
  rw [get_setBytes_ite]
  refine ite_congr (propext (by omega)) (fun hin => ?_) (fun _ => rfl)
  rw [show 0x20000 * q + x - (0x20000 * p + d) = x - d by omega]
  exact ofNat_localRd ha (by omega) s p

theorem iloadCopiesRow : IloadCopiesRow := by
  intro th rd rs s h o p d a
  have hg : (s.onThr th Thread.gretSeen).thr th = (s.thr th).gretSeen := State.thr_onThr_same _ _ _
  have hr (r : RegIx) : (s.thr th).gretSeen.rg r = (s.thr th).rg r := rfl
  refine ⟨fun hk hd8 ha8 hdi hai => ?_, fun hexl hdi => h.takes hexl rfl ?_ (by decide),
    fun hexl hk hdi => h.takes hexl rfl ?_ (by decide)⟩
  · have hal : InLocal a 8 := by
      unfold InLocal
      omega
    have hi := h.iload_retires rd rs rfl rfl hk hd8 ha8 hdi hal
    have honly (f : Thread → Thread) := (((OnlyThreadsAndRegs.refl ((s.onThr th Thread.gretSeen).iwrite8 p d
      (s.localRd p a 8))).onThr th f).onThr th Thread.commitProduct).retire th o.gretSeen (o.pc + 4) 1
    obtain ⟨hstate, hispace⟩ := eq_of_iwrite8 (honly (fun t => Access.finish ⟨.iload rd rs, none, o.rg rs⟩ t (s.localRd p a 8)))
    refine ⟨_, hi, hstate, fun u hu => ?_, ?_⟩
    · rw [State.thr_retire_other _ _ _ _ _ _ hu, State.thr_onThr_other _ _ _ _ hu, State.thr_onThr_other _ _ _ _ hu, thr_iwrite8,
        State.thr_onThr_other _ _ _ _ hu]
    · rw [State.thr_retire_same, State.thr_onThr_same, State.thr_onThr_same, thr_iwrite8, hg,
        retire_g h.noRepeat h.noTpend (finish_iload_frame (by exact h.noAccess) rd rs _ _), hispace]
      exact ⟨rfl, rg_finish_iload o.gretSeen rd rs _ _, fun q x hx => get_iwrite8_localRd hdi hal hx⟩
  · simp only [hg, hr]
    exact if_pos hdi
  · have hk' : (s.thr th).gretSeen.kernel = false := hk
    simp only [hg, hr, hk', Bool.not_false, if_true]
    exact if_neg (Nat.not_lt.2 hdi)

/-! ### Descriptors and y values of a latched table -/

theorem ofNat_uNat (i : Int) : BitVec.ofNat 32 (uNat 32 i) = BitVec.ofInt 32 i := by
  apply BitVec.eq_of_toNat_eq
  rw [BitVec.toNat_ofNat, BitVec.toNat_ofInt, uNat]
  omega

/-- The device with the descriptor of a look-up in the thread's latch (R93). -/
def latched (s : State) (th : Thr) (d : TblDesc) : State := (s.onThr th Thread.gretSeen).onThr th (fun t => { t with latch := some d })

theorem thr_latched {d : TblDesc} (hd : (s.thr th).latch = some d) : (latched s th d).thr th = (s.thr th).gretSeen := by
  rw [latched, State.thr_onThr_same, State.thr_onThr_same, ← hd]
  rfl

/-- A latched descriptor that is valid is taken as it stands (R93). -/
theorem tblDesc_latched {d : TblDesc} {gt : Word} {h : Bool} (hd : (s.thr th).latch = some d) (ha : d.addr = gt.toNat)
    (h8 : gt.toNat % 8 = 0) (hill : d.illegal h = false) (hmis : d.misaligned = none) :
    (s.onThr th Thread.gretSeen).tblDesc th gt h = (⟨latched s th d, none, 0, 1⟩, d) := by
  have hd' : (s.thr th).gretSeen.latch = some d := hd
  simp only [State.tblDesc, State.thr_onThr_same, h8, hd', ha, hill, hmis, ne_eq, not_true_eq_false, if_false, if_true,
    Bool.false_eq_true]
  rfl

/-- A look-up in a latched table retires with its result (R94 to R97). -/
theorem Runs.lookup_retires (h : Runs s th) {i : Instr} {rt : RegIx} {hw : Bool} {x : Thread → Nat} {put : Thread → Nat → Thread}
    {d : TblDesc} (hi : exec i s = .next (s.lookup th rt hw x put)) (hd : (s.thr th).latch = some d)
    (ha : d.addr = ((s.thr th).rg rt).toNat) (h8 : ((s.thr th).rg rt).toNat % 8 = 0) (hill : d.illegal hw = false)
    (hmis : d.misaligned = none) {res : Fr} {slots : Nat}
    (hlook : (latched s th d).tblLook th ((s.thr th).gretSeen.fctx b32) d (x (s.thr th).gretSeen) 1 =
      ⟨latched s th d, none, res, slots⟩) :
    exec i s = .next ((((latched s th d).onThr th (fun t => (put t res.bits).raiseFlags res.flags)).onThr th
      Thread.commitProduct).retire th (s.thr th).gretSeen ((s.thr th).pc + 4) slots) := by
  have hdesc := tblDesc_latched hd ha h8 hill hmis
  have hr : (s.thr th).gretSeen.rg rt = (s.thr th).rg rt := rfl
  rw [hi, State.lookup, h.issue]
  simp only [State.thr_onThr_same, hr, hdesc, hlook]
  rw [conclude_done h.noAsync, State.npc, State.thr_onThr_same]
  rfl

/-! ### Look-ups in a table of spacing 1 (R94, R97) -/

theorem lint_mod (w v : Nat) : lint w (v % 2 ^ w) = lint w v := by
  rw [lint, lint]
  congr 1
  apply BitVec.eq_of_toNat_eq
  rw [BitVec.toNat_ofNat, BitVec.toNat_ofNat, Nat.mod_mod]

/-- The breakpoint that a look-up without extrapolation comes down to: the value's own, or the end of the table. -/
def knot (d : TblDesc) (x : Nat) : Nat := (max 0 (min ((d.n : Int) - 1) (lint 16 x - lint 16 d.x0.toNat))).toNat

variable {gt : Word} {d : TblDesc}

theorem UnitTable.valid (h : UnitTable s th gt d) : d.illegal true = false ∧ d.misaligned = none := by
  obtain ⟨hy, hx, he, hn, hn', hdx⟩ := h.form
  obtain ⟨hal, -⟩ := h.values
  have hlo : decide (d.n < 2) = false := decide_eq_false (by omega)
  have hhi : decide (65536 < d.n) = false := decide_eq_false (by omega)
  have hbits : getBits 0 4 28 = 0 := rfl
  refine ⟨?_, ?_⟩
  · simp only [TblDesc.illegal, hlo, hhi, he, hy, hx, hdx, hbits, Bool.false_or, Bool.false_eq_true, if_false, if_true,
      bne_self_eq_false, Bool.or_false]
    rfl
  · simp [TblDesc.misaligned, TblDesc.esize, hy, hx, hal]

theorem UnitTable.uni (h : UnitTable s th gt d) : d.uni = (lint 16 d.x0.toNat, 1, lint 16 d.x0.toNat + ((d.n : Int) - 1)) := by
  obtain ⟨hy, hx, he, hn, hn', hdx⟩ := h.form
  have hstep : ((2 ^ ((0 : Word).toNat % 16) : Nat) : Int) = 1 := rfl
  simp only [TblDesc.uni, hy, hdx, if_true, sInt_eq_lint (show 0 < 16 by decide), hstep, mul_one]

theorem UnitTable.loc (h : UnitTable s th gt d) (x : Nat) :
    d.loc x = locate (lint 16 x) (lint 16 d.x0.toNat) (lint 16 d.x0.toNat + ((d.n : Int) - 1)) := by
  obtain ⟨hy, hx, -⟩ := h.form
  simp only [TblDesc.loc, hy, hx, h.uni, sInt_eq_lint (show 0 < 16 by decide), if_true, Bool.false_eq_true, if_false]

/-- Address of a y value. -/
theorem UnitTable.yAt (h : UnitTable s th gt d) {i : Nat} (hi : i < d.n) : d.yAt i = d.yaddr.toNat + 2 * i := by
  obtain ⟨hy, -⟩ := h.form
  obtain ⟨-, hend⟩ := h.values
  rw [TblDesc.yAt, TblDesc.esize, if_pos hy, Nat.mod_eq_of_lt (by omega)]

/-- A y value read from the scratchpad. -/
theorem UnitTable.tblRead (h : UnitTable s th gt d) {i : Nat} (hi : i < d.n) (slots : Nat) :
    s.tblRead th (d.yAt i) 2 slots = ⟨s, none, localBytes s th.pier.val (d.yaddr.toNat + 2 * i) 2, slots + 1⟩ := by
  obtain ⟨-, hend⟩ := h.values
  have hin : InLocal (d.yaddr.toNat + 2 * i) 2 := .inl (by omega)
  have hok : LocalOk s th (d.yaddr.toNat + 2 * i) 2 false := ⟨.inl h.kernel, hin⟩
  rw [h.yAt hi, State.tblRead]
  simp only [hok.dspaceCheck (show 0 < 2 by decide), isDeck_local _ (hin.lt (by decide)), Bool.false_eq_true, if_false,
    localRd_eq_localBytes hin]
  rfl

/-- Two adjacent y values read. -/
theorem UnitTable.pair (h : UnitTable s th gt d) {i v slots : Nat} (hi : i + 1 < d.n) : ∃ v' slots',
    (⟨s, none, v, slots⟩ : TRead).pair th (d.yAt i) (d.yAt (i + 1)) 2 =
      (⟨s, none, localBytes s th.pier.val (d.yaddr.toNat + 2 * i) 2, slots + 1⟩, ⟨s, none, v', slots'⟩) := by
  obtain ⟨-, hend⟩ := h.values
  have hdeck : isDeck s.grade (d.yAt i) = false := isDeck_local _ (by rw [h.yAt (by omega)]; omega)
  simp only [TRead.pair, hdeck, Bool.false_eq_true, and_false, if_false, h.tblRead (show i < d.n by omega), h.tblRead hi]
  split
  · exact ⟨_, _, rfl⟩
  · exact ⟨_, _, rfl⟩

/-- What a look-up without extrapolation finds at a breakpoint, or beyond the table. -/
def atKnot (s : State) (th : Thr) (d : TblDesc) (x slots : Nat) : TRes :=
  ⟨s, none, ⟨uNat 32 (lint 16 (localBytes s th.pier.val (d.yaddr.toNat + 2 * knot d x) 2)), 0⟩, slots⟩

/-- One y value returned. -/
theorem UnitTable.tblOne (h : UnitTable s th gt d) {x i : Nat} (hi : i < d.n) (hx : knot d x = i) (c : FCtx) (slots : Nat) :
    s.tblOne th c d i slots = atKnot s th d x (slots + 1) := by
  obtain ⟨hy, -⟩ := h.form
  have hsize : d.esize = 2 := if_pos hy
  rw [State.tblOne, hsize, h.tblRead hi, if_pos hy, sInt_eq_lint (by decide), atKnot, hx]

/-- In a table of spacing 1 the fraction is 0, so that the interpolation gives the value at the breakpoint. -/
theorem UnitTable.tblInterp (h : UnitTable s th gt d) {x : Nat} (hx : knot d x + 1 < d.n)
    (hxi : lint 16 x - lint 16 d.x0.toNat = knot d x) (c : FCtx) (slots : Nat) :
    ∃ slots', s.tblInterp th c d x slots = atKnot s th d x slots' := by
  obtain ⟨hy, hxm, -⟩ := h.form
  have hsize : d.esize = 2 := if_pos hy
  have hloc : d.loc x = .inside := by
    rw [h.loc, locate, if_neg (by omega), if_neg (by omega), if_neg (by omega)]
  have hindex : s.tblIndex th d x slots = ⟨s, none, knot d x, slots⟩ := by
    simp only [State.tblIndex, hloc, hxm, hy, h.uni, sInt_eq_lint (show 0 < 16 by decide), Bool.false_eq_true, if_false, if_true, hxi,
      Int.ediv_one, Int.toNat_natCast]
  have hfrac : d.fracUni x (knot d x) = .ratio 0 1 := by
    simp only [TblDesc.fracUni, hy, h.uni, sInt_eq_lint (show 0 < 16 by decide), Bool.not_true, Bool.false_and, Bool.false_eq_true,
      if_false, if_true, hxi, mul_one, sub_self]
  obtain ⟨v', slots', hpair⟩ := h.pair hx (v := knot d x) (slots := slots)
  refine ⟨slots', ?_⟩
  simp only [State.tblInterp, hindex, hxm, hfrac, hsize, hpair, hy, Bool.false_eq_true, if_false, if_true,
    sInt_eq_lint (show 0 < 16 by decide), interpI, true_or, atKnot]

/-- A look-up in a latched table of spacing 1 finds the value at the breakpoint, or at the end of the table (R94, R97). -/
theorem UnitTable.tblLook (h : UnitTable s th gt d) (c : FCtx) (x slots : Nat) :
    ∃ slots', s.tblLook th c d x slots = atKnot s th d x slots' := by
  obtain ⟨hy, hxm, he, hn, -⟩ := h.form
  have hknot (i : Nat) (hi : max 0 (min ((d.n : Int) - 1) (lint 16 x - lint 16 d.x0.toNat)) = i) : knot d x = i := by
    rw [knot, hi, Int.toNat_natCast]
  simp only [State.tblLook, hy, Bool.not_true, Bool.false_and, Bool.false_eq_true, if_false, if_true, h.loc, locate, he]
  by_cases hbelow : lint 16 x < lint 16 d.x0.toNat
  · rw [if_pos hbelow]
    exact ⟨_, h.tblOne (by omega) (hknot 0 (by omega)) c slots⟩
  · rw [if_neg hbelow]
    by_cases habove : lint 16 d.x0.toNat + ((d.n : Int) - 1) < lint 16 x
    · rw [if_pos habove]
      exact ⟨_, h.tblOne (by omega) (hknot (d.n - 1) (by omega)) c slots⟩
    · rw [if_neg habove]
      by_cases hlast : lint 16 x = lint 16 d.x0.toNat + ((d.n : Int) - 1)
      · rw [if_pos hlast]
        exact ⟨_, h.tblOne (by omega) (hknot (d.n - 1) (by omega)) c slots⟩
      · rw [if_neg hlast]
        have hin := hknot (lint 16 x - lint 16 d.x0.toNat).toNat (by omega)
        exact h.tblInterp (by omega) (by omega) c slots

/-! ### TLIH, TLI and TLINV -/

theorem raiseFlags_zero (t : Thread) : t.raiseFlags 0 = t.orFlags 0 := by
  rw [Thread.raiseFlags, Nat.zero_and, if_neg (fun h => h.2 rfl)]

/-- A thread whose instruction changed G, F and W registers alone and raised no flag, retired. -/
theorem retire_raiseFlags_zero {o x : Thread} (hrep : o.rep = none) (htp : o.tpend = 0)
    (hx : x = { o.gretSeen with g := x.g, f := x.f, w := x.w }) (npc : Word) :
    (x.raiseFlags 0).commitProduct.retire o.gretSeen npc = { retired (o.raiseFlags 0) npc with g := x.g, f := x.f, w := x.w } := by
  rw [raiseFlags_zero, raiseFlags_zero]
  generalize x.g = g, x.f = f, x.w = w at hx
  subst hx
  rw [retire_noRepeat (by exact hrep) (by exact htp)]
  rfl

theorem latched_only (s : State) (th : Thr) (d : TblDesc) : OnlyThreadsAndRegs s (latched s th d) :=
  ((OnlyThreadsAndRegs.refl s).onThr th _).onThr th _

theorem thr_latched_other (s : State) (d : TblDesc) {th u : Thr} (hu : u ≠ th) : (latched s th d).thr u = s.thr u := by
  rw [latched, State.thr_onThr_other _ _ _ _ hu, State.thr_onThr_other _ _ _ _ hu]

/-- TLIH in a latched table of spacing 1 writes the value at the breakpoint, or at the end of the table (R94, R97). -/
theorem tlih_unitTable (h : Runs s th) {rd rs rt : RegIx} (ht : UnitTable s th ((s.thr th).rg rt) d) :
    ∃ t, exec (.tlih th rd rs rt) s = .next t ∧ t = { s with threads := t.threads, io := t.io } ∧
      (∀ r, (t.thr th).rg r = if r = rd ∧ r ≠ 0 then
        BitVec.ofInt 32 (lint 16 (localBytes s th.pier.val (d.yaddr.toNat + 2 * knot d (((s.thr th).rg rs).toNat % 2 ^ 16)) 2))
        else (s.thr th).rg r) ∧
      (t.thr th).pc = (s.thr th).pc + 4 ∧ (t.thr th).latch = some d := by
  have hthr := thr_latched ht.latched
  have ht' : UnitTable (latched s th d) th ((s.thr th).rg rt) d := by
    refine ⟨?_, ht.addr, ht.aligned, ht.form, ht.values, ?_⟩
    · rw [hthr]
      exact ht.latched
    · rw [hthr]
      exact ht.kernel
  obtain ⟨hill, hmis⟩ := ht.valid
  obtain ⟨slots, hlook⟩ := ht'.tblLook ((s.thr th).gretSeen.fctx b32) (((s.thr th).rg rs).toNat % 2 ^ 16) 1
  refine ⟨_, h.lookup_retires (i := .tlih th rd rs rt) rfl ht.latched ht.addr ht.aligned hill hmis hlook, OnlyThreadsAndRegs.eq ?_, ?_⟩
  · exact (((latched_only s th d).onThr th _).onThr th _).retire th _ _ _
  · rw [State.thr_retire_same, State.thr_onThr_same, State.thr_onThr_same, hthr,
      retire_raiseFlags_zero h.noRepeat h.noTpend (by rw [Thread.wg_frame]), raiseFlags_zero, ofNat_uNat]
    exact ⟨fun r => Thread.rg_wg (s.thr th).gretSeen rd r _, rfl, ht.latched⟩

/-- TLI of a quiet NaN under a latched binary32 table writes that NaN and raises no flag (R95). -/
theorem tli_quietNaN (h : Runs s th) {rd rs rt : RegIx} (hd : (s.thr th).latch = some d) (ha : d.addr = ((s.thr th).rg rt).toNat)
    (h8 : ((s.thr th).rg rt).toNat % 8 = 0) (hy : d.ytype = false) (hill : d.illegal false = false) (hmis : d.misaligned = none)
    (hnan : b32.isNaN (fval (s.thr th) .s rs) = true) (hquiet : b32.isSNaN (fval (s.thr th) .s rs) = false) :
    WritesF (.tli th rd rs rt) s th rd (fval (s.thr th) .s rs) 0 1 := by
  have hlook : (latched s th d).tblLook th ((s.thr th).gretSeen.fctx b32) d (fval (s.thr th) .s rs) 1 =
      ⟨latched s th d, none, ⟨fval (s.thr th) .s rs, 0⟩, 1⟩ := by
    simp only [State.tblLook, hy, hnan, Fmt.quiet, hquiet, Bool.not_false, Bool.true_and, Bool.false_eq_true, if_true, if_false]
  refine ⟨_, h.lookup_retires (i := .tli th rd rs rt) rfl hd ha h8 hill hmis hlook, ?_, ?_⟩
  · exact onlyThread_retire (((latched_only s th d).onThr th _).onThr th _) (fun v hv => by
      rw [State.thr_onThr_other _ _ _ _ hv, State.thr_onThr_other _ _ _ _ hv, thr_latched_other s d hv]) (fun _ => rfl) _ _ _
  · rw [State.thr_retire_same, State.thr_onThr_same, State.thr_onThr_same, thr_latched hd,
      retire_raiseFlags_zero h.noRepeat h.noTpend (by rfl)]
    exact ⟨fun r => Thread.rf_wf (s.thr th) rd r _, by rw [raiseFlags_zero]; rfl⟩

theorem tableLookupsReturnValues : TableLookupsReturnValues := by
  intro th rd rs rt d s h o p x x0
  refine ⟨fun ht => ?_, fun hd ha h8 hy hill hmis hnan hquiet => tli_quietNaN h hd ha (ha ▸ h8) hy hill hmis hnan hquiet, ?_⟩
  · have htlih := tlih_unitTable h (rd := rd) (rs := rs) ht
    rwa [knot, ← lint_mod 16 d.x0.toNat] at htlih
  · obtain ⟨t, he, ho, ht⟩ := h.issueReg (i := .tlinv th) rfl
    refine ⟨t, he, ho, ?_⟩
    rw [ht, retire_noRepeat (o := (s.thr th).gretSeen) (by exact h.noRepeat) h.noTpend]
    rfl

/-- Settles O13: ILOAD by what its checks leave, a look-up by the breakpoint or the NaN it comes down to. -/
theorem iloadAndTableLookups : Obligations.IloadAndTableLookups := ⟨iloadCopiesRow, tableLookupsReturnValues⟩

end Sys2Proof.Claims
end

section
/-!
PROOFS. O7: scalar floating-point instructions (Tables fp-3 to fp-5, R100, R106 to R112, R115, R118).

Choices and readings of this file: log 8, 10.
-/

namespace Sys2Proof.Claims
open Sys2Proof.Machine

/-! ### Flags raised by an instruction that retires -/

/-- Raising flags changes FSTAT and what is kept for the delivery of R117 alone. -/
theorem raiseFlags_frame (t : Thread) (fl : Nat) : t.raiseFlags fl =
    { t with fstat := (t.raiseFlags fl).fstat, fpAddr := (t.raiseFlags fl).fpAddr, fpAge := (t.raiseFlags fl).fpAge } := by
  unfold Thread.raiseFlags
  split <;> rfl

/-- Raising flags depends on no G, F or W register, nor on where GRET led. -/
theorem raiseFlags_registers (t : Thread) (g : SMap Word) (f : SMap DWord) (w : SMap WVec) (fl : Nat) :
    ({ t.gretSeen with g := g, f := f, w := w } : Thread).raiseFlags fl =
      { (t.raiseFlags fl).gretSeen with g := g, f := f, w := w } := by
  have htp : ({ t.gretSeen with g := g, f := f, w := w } : Thread).tpend = t.tpend := rfl
  unfold Thread.raiseFlags
  rw [htp]
  by_cases hnew : t.tpend = 0 ∧ fl &&& getBits t.fctl 3 5 ≠ 0
  · rw [if_pos hnew, if_pos (by exact hnew)]
    rfl
  · rw [if_neg hnew, if_neg (by exact hnew)]
    rfl

/-- A thread whose instruction changed G, F and W registers and raised flags, retired (R115). -/
theorem retire_raiseFlags {o x : Thread} (hrep : o.rep = none) (htp : o.tpend = 0)
    (hx : x = { o.gretSeen with g := x.g, f := x.f, w := x.w }) (fl : Nat) (npc : Word) :
    (x.raiseFlags fl).commitProduct.retire o.gretSeen npc = { retired (o.raiseFlags fl) npc with g := x.g, f := x.f, w := x.w } := by
  generalize x.g = g, x.f = f, x.w = w at hx
  subst hx
  rw [raiseFlags_registers, raiseFlags_frame, retire_noRepeat (by exact hrep) (by exact htp)]
  rfl

theorem raiseFlags_none {t : Thread} (htp : t.tpend = 0) : t.raiseFlags 0 = t := by
  have htp' : getBits t.fstat 5 5 = 0 := htp
  rw [raiseFlags_zero, Thread.orFlags, Nat.zero_and, Nat.or_zero, Nat.or_zero, putBits_getBits, htp, ← htp', putBits_getBits]

variable {s : State} {th : Thr}

/-- An instruction that changes G, F and W registers, to those of `x`, and raises flags completes with both (R115). -/
theorem Runs.raises (h : Runs s th) {i : Instr} {rp settle : Bool} {body : State → Out} {f : Thread → Thread × Nat} {x : Thread}
    {fl n : Nat} (hi : exec i s = .next (s.issue th rp settle body))
    (hb : body (s.onThr th Thread.gretSeen) = .done ((s.onThr th Thread.gretSeen).onThr th (fun t => (f t).1.raiseFlags (f t).2))
      ((s.onThr th Thread.gretSeen).npc th) n)
    (hf : f (s.thr th).gretSeen = (x, fl)) (hx : x = { (s.thr th).gretSeen with g := x.g, f := x.f, w := x.w }) :
    ∃ t, exec i s = .next t ∧ OnlyThread s t th n ∧
      t.thr th = { retired ((s.thr th).raiseFlags fl) ((s.thr th).pc + 4) with g := x.g, f := x.f, w := x.w } := by
  have he := h.issue rp settle body
  rw [hb, conclude_done h.noAsync] at he
  refine ⟨_, hi, ?_⟩
  rw [he, State.npc, State.thr_onThr_same]
  refine ⟨Runs.onlyThread _ _ _, ?_⟩
  rw [State.thr_retire_same, State.thr_onThr_same, State.thr_onThr_same, State.thr_onThr_same, hf]
  exact retire_raiseFlags h.noRepeat h.noTpend hx _ _

/-! ### Results to F and G registers -/

/-- A floating-point instruction that writes Fd (R100, R115). -/
theorem Runs.fpWritesF (h : Runs s th) {i : Instr} {rp : Bool} {n : Nat} {f : Thread → Thread × Nat} {rd : RegIx} {v fl : Nat}
    (hi : exec i s = .next (s.fp th rp n f)) (hf : f (s.thr th).gretSeen = ((s.thr th).gretSeen.fres rd v, fl)) :
    WritesF i s th rd v fl n := by
  obtain ⟨t, he, ho, ht⟩ := h.raises hi rfl hf rfl
  refine ⟨t, he, ho, ?_⟩
  rw [ht]
  exact ⟨fun r => Thread.rf_wf (s.thr th) rd r _, by rw [raiseFlags_frame]; rfl⟩

/-- A floating-point instruction that writes Gd (R115). -/
theorem Runs.fpWritesG (h : Runs s th) {i : Instr} {rp : Bool} {n : Nat} {f : Thread → Thread × Nat} {rd : RegIx} {v : Word} {fl : Nat}
    (hi : exec i s = .next (s.fp th rp n f)) (hf : f (s.thr th).gretSeen = ((s.thr th).gretSeen.wg rd v, fl)) :
    WritesGF i s th rd v fl n := by
  obtain ⟨t, he, ho, ht⟩ := h.raises hi rfl hf (by rw [Thread.wg_frame])
  refine ⟨t, he, ho, ?_⟩
  rw [ht]
  exact ⟨fun r => Thread.rg_wg (s.thr th).gretSeen rd r v, by rw [raiseFlags_frame, Thread.wg_frame]; rfl⟩

/-- A move to Fd raises no flag. -/
theorem Runs.movesF (h : Runs s th) {i : Instr} {rp : Bool} {f : Thread → DWord} {rd : RegIx} {v : Nat}
    (hi : exec i s = .next (s.issueReg th rp (fun t => t.wf rd (f t)))) (hv : f (s.thr th).gretSeen = BitVec.ofNat 64 v) :
    WritesF i s th rd v 0 1 := by
  obtain ⟨t, he, ho, ht⟩ := h.issueReg hi
  refine ⟨t, he, ho, ?_⟩
  rw [ht, hv, raiseFlags_none h.noTpend, retire_registers h.noRepeat h.noTpend rfl]
  exact ⟨fun r => Thread.rf_wf (s.thr th) rd r _, rfl⟩

/-! ### Operands (R100) -/

theorem fop_eq_fval (o : Thread) (z : FSz) (r : RegIx) : o.fop z r = fval o z r := by
  cases z with
  | s => rfl
  | d => exact Nat.mod_eq_of_lt (o.rf r).isLt

/-- Fd ← f Fs Ft (Table fp-3). -/
theorem Runs.fpArith (h : Runs s th) {i : Instr} {z : FSz} {rd rs rt : RegIx} {rp : Bool} {n : Nat}
    {f : FCtx → Nat → Nat → Fr} {r : Fr}
    (hi : exec i s = .next (s.fpArith th z rd rs rt rp n f))
    (hr : f ((s.thr th).fctx z.fmt) (fval (s.thr th) z rs) (fval (s.thr th) z rt) = r) : WritesF i s th rd r.bits r.flags n := by
  refine h.fpWritesF hi ?_
  rw [← hr, ← fop_eq_fval, ← fop_eq_fval]
  rfl

/-- Fd ← f Fs (Table fp-3). -/
theorem Runs.fpUnary (h : Runs s th) {i : Instr} {z : FSz} {rd rs : RegIx} {rp : Bool} {n : Nat} {f : FCtx → Nat → Fr} {r : Fr}
    (hi : exec i s = .next (s.fpUnary th z rd rs rp n f))
    (hr : f ((s.thr th).fctx z.fmt) (fval (s.thr th) z rs) = r) : WritesF i s th rd r.bits r.flags n := by
  refine h.fpWritesF hi ?_
  rw [← hr, ← fop_eq_fval]
  rfl

/-- Fd ← ±(Fs × Ft) ± Fd (R107). -/
theorem Runs.fpFma (h : Runs s th) {i : Instr} {z : FSz} {rd rs rt : RegIx} {np nd : Bool}
    (hi : exec i s = .next (s.fpFma th z rd rs rt np nd)) {r : Fr}
    (hr : ((s.thr th).fctx z.fmt).fma np nd (fval (s.thr th) z rs) (fval (s.thr th) z rt) (fval (s.thr th) z rd) = r) :
    WritesF i s th rd r.bits r.flags 1 := by
  refine h.fpWritesF hi ?_
  rw [← hr, ← fop_eq_fval, ← fop_eq_fval, ← fop_eq_fval]
  rfl

/-- Gd ← the truth of a compare (R111). -/
theorem Runs.fpCmp (h : Runs s th) {i : Instr} {z : FSz} {rd rs rt : RegIx} {k : FCmp} (hi : exec i s = .next (s.fpCmp th z rd rs rt k)) :
    let r := ((s.thr th).fctx z.fmt).cmp k (fval (s.thr th) z rs) (fval (s.thr th) z rt)
    WritesGF i s th rd (if r.1 then 1 else 0) r.2 1 := by
  refine h.fpWritesG hi ?_
  rw [← fop_eq_fval, ← fop_eq_fval, show ∀ b : Bool, (if b then 1 else 0 : Word) = BitVec.ofNat 32 (b2n b) by decide]
  rfl

/-- Gd ← an integer of Fs (R112). -/
theorem Runs.fpToInt (h : Runs s th) {i : Instr} {z : FSz} {rd rs : RegIx} {toZero : Bool} {lo hi : Int}
    (hexec : exec i s = .next (s.fpToInt th z rd rs toZero lo hi)) :
    let c := (s.thr th).fctx z.fmt
    let r := FCtx.toInt { c with rm := if toZero then 1 else c.rm } lo hi (fval (s.thr th) z rs)
    WritesGF i s th rd (BitVec.ofInt 32 r.1) r.2 1 := by
  refine h.fpWritesG hexec ?_
  rw [← fop_eq_fval]
  rfl

/-- Fd ← an integer of Gs (R106). -/
theorem Runs.fpOfInt (h : Runs s th) {i : Instr} {z : FSz} {rd rs : RegIx} {f : Word → Int}
    (hi : exec i s = .next (s.fpOfInt th z rd rs f)) :
    let r := ((s.thr th).fctx z.fmt).ofInt (f ((s.thr th).rg rs))
    WritesF i s th rd r.bits r.flags 1 := h.fpWritesF hi rfl

/-! ### Scalar arithmetic (Table fp-3) -/

theorem divCycles_eq_long (z : FSz) : divCycles z = long 14 28 z := by cases z <;> rfl

theorem sqrtCycles_eq_long (z : FSz) : sqrtCycles z = long 16 30 z := by cases z <;> rfl

theorem signed_not_eq (f : Fmt) (neg : Bool) (mag : Nat) : f.signed (!neg) mag = (if neg then 0 else f.signW) + mag := by
  cases neg <;> rfl

theorem signed_false (f : Fmt) (mag : Nat) : f.signed false mag = mag := Nat.zero_add _

theorem floatArithmeticWritesFd : FloatArithmeticWritesFd := by
  intro th z rd rs rt s h
  simp only [fpRows, List.forall_mem_cons, ← divCycles_eq_long, ← sqrtCycles_eq_long]
  refine ⟨h.fpArith rfl rfl, h.fpArith rfl rfl, h.fpArith rfl rfl, h.fpArith rfl rfl, h.fpArith rfl rfl, h.fpArith rfl rfl,
    h.fpArith (r := ⟨_, 0⟩) rfl rfl, h.fpFma rfl rfl, h.fpFma rfl rfl, h.fpFma rfl rfl, h.fpFma rfl rfl, h.fpUnary rfl rfl,
    h.fpUnary (r := ⟨_, 0⟩) rfl ?_, h.fpUnary (r := ⟨_, 0⟩) rfl ?_, h.fpUnary rfl rfl, List.forall_mem_nil _⟩
  · exact congrArg (Fr.mk · 0) (signed_false _ _)
  · exact congrArg (Fr.mk · 0) (signed_not_eq _ _ _)

/-! ### Compares, classes, conversions and moves (Tables fp-4 and fp-5) -/

theorem fcmpRows_exec (s : State) (th : Thr) (z : FSz) (rd rs rt : RegIx) : ∀ e ∈ fcmpRows,
    exec (e.1 th z rd rs rt) s = .next (s.fpCmp th z rd rs rt e.2) := by
  simp only [fcmpRows, List.forall_mem_cons]
  exact ⟨rfl, rfl, rfl, List.forall_mem_nil _⟩

theorem toIntRows_exec (s : State) (th : Thr) (rd rs : RegIx) : ∀ e ∈ toIntRows,
    exec (e.1 th rd rs) s = .next (s.fpToInt th e.2.1 rd rs e.2.2.1 e.2.2.2.1 e.2.2.2.2) := by
  simp only [toIntRows, List.forall_mem_cons]
  exact ⟨rfl, rfl, rfl, rfl, rfl, rfl, rfl, rfl, List.forall_mem_nil _⟩

theorem ofIntRows_exec (s : State) (th : Thr) (rd rs : RegIx) : ∀ e ∈ ofIntRows,
    exec (e.1 th rd rs) s = .next (s.fpOfInt th e.2.1 rd rs e.2.2) := by
  simp only [ofIntRows, List.forall_mem_cons]
  exact ⟨rfl, rfl, rfl, rfl, List.forall_mem_nil _⟩

theorem extractLsb_high (a : DWord) : a.extractLsb 63 32 = BitVec.ofNat 32 (a.toNat / 2 ^ 32) := by
  apply BitVec.eq_of_toNat_eq
  rw [BitVec.extractLsb_toNat, BitVec.toNat_ofNat, Nat.shiftRight_eq_div_pow]

theorem append_eq_ofNat (a b : Word) : a ++ b = BitVec.ofNat 64 (b.toNat + a.toNat * 2 ^ 32) := by
  have ha := a.isLt
  have hb := b.isLt
  apply BitVec.eq_of_toNat_eq
  rw [BitVec.toNat_append, ← Nat.shiftLeft_add_eq_or_of_lt hb, Nat.shiftLeft_eq, BitVec.toNat_ofNat, Nat.mod_eq_of_lt (by omega),
    Nat.add_comm]

/-- FPBAR with no TPEND bit changes the PC alone (R118). -/
theorem fpbar_jumps (h : Runs s th) : Jumps (.fpbar th) s th ((s.thr th).pc + 4) := by
  have hexec : exec (.fpbar th) s = .next (s.issue th false false (fun s => .done s (s.npc th) 1)) := by
    show execFpbar th s = _
    simp [execFpbar, h.noTpend]
  refine h.jumps hexec ?_
  rw [State.npc, State.thr_onThr_same]
  rfl

theorem floatComparesConversionsAndMoves : FloatComparesConversionsAndMoves := by
  intro th z rd rs rt s h o npc
  refine ⟨fun e he => h.fpCmp (fcmpRows_exec s th z rd rs rt e he), ?_,
    fun e he => h.fpToInt (toIntRows_exec s th rd rs e he), fun e he => h.fpOfInt (ofIntRows_exec s th rd rs e he), ?_,
    h.fpWritesF rfl rfl, h.writesG rfl rfl, h.writesG rfl (extractLsb_high _), h.movesF rfl (BitVec.ofNat_toNat _ _).symm,
    h.movesF rfl (append_eq_ofNat _ _), h.movesF rfl ?_, fpbar_jumps h⟩
  · rw [← fop_eq_fval]
    exact h.fpWritesG rfl rfl
  · rw [← fop_eq_fval]
    exact h.fpWritesF rfl rfl
  · exact ((BitVec.ofNat_toNat _ _).trans (BitVec.setWidth_eq _)).symm

/-- Settles O7: an instruction retires with its result and its flags, and each row's result is the table's. -/
theorem floatInstructionsWriteResults : Obligations.FloatInstructionsWriteResults :=
  ⟨floatArithmeticWritesFd, floatComparesConversionsAndMoves⟩

end Sys2Proof.Claims
end

section
/-!
PROOFS. Lanes of W registers (R101), and O9: short-vector instructions (Tables fp-6 and fp-7, R102, R104, R107, R109, R111 to R113, R115).

Choices and readings of this file: log 8, 10, 16.
-/

namespace Sys2Proof.Claims
open Sys2Proof.Machine

/-! ### Lanes packed into a register (R101) -/

theorem packLanes_lt (w : Nat) (ls : List Nat) : packLanes w ls < 2 ^ (w * ls.length) := by
  induction ls with
  | nil => exact Nat.one_pos
  | cons l t ih =>
    have hl : l % 2 ^ w < 2 ^ w := Nat.mod_lt _ (Nat.two_pow_pos _)
    rw [packLanes, List.length_cons, Nat.mul_succ, Nat.pow_add, Nat.mul_comm (2 ^ (w * t.length))]
    calc l % 2 ^ w + 2 ^ w * packLanes w t < 2 ^ w * (packLanes w t + 1) := by rw [Nat.mul_succ]; omega
      _ ≤ 2 ^ w * 2 ^ (w * t.length) := Nat.mul_le_mul_left _ ih

theorem packLanes_lane (w : Nat) (ls : List Nat) (j : Nat) (hj : j < ls.length) :
    packLanes w ls / 2 ^ (w * j) % 2 ^ w = ls[j] % 2 ^ w := by
  induction ls generalizing j with
  | nil => exact absurd hj (Nat.not_lt_zero _)
  | cons l t ih =>
    cases j with
    | zero => rw [packLanes, Nat.mul_zero, pow_zero, Nat.div_one, Nat.add_mul_mod_self_left, Nat.mod_mod, List.getElem_cons_zero]
    | succ k =>
      have hl : l % 2 ^ w < 2 ^ w := Nat.mod_lt _ (Nat.two_pow_pos _)
      rw [packLanes, Nat.mul_succ, Nat.add_comm (w * k), Nat.pow_add, ← Nat.div_div_eq_div_mul,
        Nat.add_mul_div_left _ _ (Nat.two_pow_pos _), Nat.div_eq_of_lt hl, Nat.zero_add, ih, List.getElem_cons_succ]

/-- A lane of a register is the value packed there, kept to its width. -/
theorem lane_ofLanes {w : Nat} {ls : List Nat} (hlen : w * ls.length ≤ 256) {j : Nat} (hj : j < ls.length) :
    lane (ofLanes w ls) w j = ls[j] % 2 ^ w := by
  have hlt : packLanes w ls < 2 ^ 256 := (packLanes_lt w ls).trans_le (Nat.pow_le_pow_right Nat.two_pos hlen)
  rw [lane, ofLanes, BitVec.toNat_ofNat, Nat.mod_eq_of_lt hlt, packLanes_lane]

theorem lane_ofLanes_range {w n : Nat} (hn : w * n ≤ 256) (f : Nat → Nat) {j : Nat} (hj : j < n) :
    lane (ofLanes w ((List.range n).map f)) w j = f j % 2 ^ w := by
  rw [lane_ofLanes (by simpa using hn) (by simpa using hj), List.getElem_map, List.getElem_range]

theorem lanes_eq_div (ty : VTy) : ty.lanes = 256 / ty.w := by cases ty <;> rfl

theorem laneWidth_pos (ty : VTy) : 0 < ty.w := by cases ty <;> decide

theorem laneWidth_mul_lanes (ty : VTy) : ty.w * ty.lanes = 256 := by cases ty <;> rfl

/-! ### A short-vector instruction completes, or is illegal -/

variable {s : State} {th : Thr} {i : Instr} {ok : Bool} {word : Word} {f : Thread → Thread × Nat}

/-- The body of a legal short-vector instruction. -/
theorem vec_legal (hi : exec i s = .next (s.vec th ok word f)) (hok : ok = true) :
    exec i s = .next (s.issue th true false (fun s => .done (s.onThr th (fun t => (f t).1.raiseFlags (f t).2)) (s.npc th) 1)) := by
  rw [hi, hok]
  rfl

/-- A legal short-vector instruction that writes Wd (R115). -/
theorem Runs.vecWritesW (h : Runs s th) {wd : WIx} {v : WVec} {fl : Nat} (hi : exec i s = .next (s.vec th ok word f)) (hok : ok = true)
    (hf : f (s.thr th).gretSeen = ((s.thr th).gretSeen.ww wd v, fl)) : WritesW i s th wd v fl 1 := by
  obtain ⟨t, he, ho, ht⟩ := h.raises (vec_legal hi hok) rfl hf rfl
  refine ⟨t, he, ho, ?_⟩
  rw [ht]
  exact ⟨fun r => Thread.rw_ww (s.thr th) wd r v, by rw [raiseFlags_frame]; rfl⟩

/-- A legal short-vector instruction that writes Fd (R100, R115). -/
theorem Runs.vecWritesF (h : Runs s th) {rd : RegIx} {v fl : Nat} (hi : exec i s = .next (s.vec th ok word f)) (hok : ok = true)
    (hf : f (s.thr th).gretSeen = ((s.thr th).gretSeen.fres rd v, fl)) : WritesF i s th rd v fl 1 :=
  h.fpWritesF (vec_legal hi hok) hf

/-- A legal short-vector instruction that writes Gd raises no flag. -/
theorem Runs.vecWritesG (h : Runs s th) {rd : RegIx} {v : Word} (hi : exec i s = .next (s.vec th ok word f)) (hok : ok = true)
    (hf : f (s.thr th).gretSeen = ((s.thr th).gretSeen.wg rd v, 0)) : WritesG i s th rd v ((s.thr th).pc + 4) 1 := by
  obtain ⟨t, he, ho, hg, ht⟩ := h.fpWritesG (vec_legal hi hok) hf
  rw [raiseFlags_none h.noTpend] at ht
  exact ⟨t, he, ho, hg, ht⟩

/-- A form that its type does not have raises ILLEGAL with the word (R71, R102). -/
theorem Runs.vecIllegal (h : Runs s th) (hexl : (s.thr th).exl = false) (hi : exec i s = .next (s.vec th ok word f))
    (hok : ok = false) : Takes i s th cIllegal 0 word := by
  subst hok
  exact h.takes hexl hi rfl (by decide)

/-- A legal short-vector instruction that writes the lanes of Wd, the flags of every lane raised (R101, R115). -/
theorem Runs.vecWritesLanes (h : Runs s th) {wd : WIx} {w : Nat} {rs : List Fr} {g : Nat → Fr}
    (hi : exec i s = .next (s.vec th ok word f)) (hok : ok = true)
    (hf : f (s.thr th).gretSeen = ((s.thr th).gretSeen.ww wd (ofLanes w (rs.map Fr.bits)), orAll rs))
    (hr : rs = (List.range (256 / w)).map g) : WritesLanes i s th wd w g := by
  have hflags : orAll rs = ((List.range (256 / w)).map (fun j => (g j).flags)).foldl (· ||| ·) 0 := by
    rw [hr, orAll, List.map_map]
    rfl
  refine ⟨ofLanes w (rs.map Fr.bits), fun j hj => ?_, hflags ▸ h.vecWritesW hi hok hf⟩
  rw [hr, List.map_map, lane_ofLanes_range (Nat.mul_div_le 256 w) _ hj]
  rfl

/-! ### Lane operations (Table fp-6) -/

theorem uNat_eq_ofInt (w : Nat) (i : Int) : uNat w i = (BitVec.ofInt w i).toNat := (BitVec.toNat_ofInt i).symm

theorem satS_eq_lsat (w : Nat) (i : Int) : satS w i = lsat w i := by
  unfold satS lsat
  push_cast
  rfl

theorem zipWith_lanesOf (f : Nat → Nat → Fr) (a b : WVec) (w n : Nat) :
    List.zipWith f (lanesOf a w n) (lanesOf b w n) = (List.range n).map (fun j => f (lane a w j) (lane b w j)) := by
  rw [lanesOf, lanesOf, List.zipWith_map, List.zipWith_self]

/-- A lane operation of the model, `ff` on floating-point lanes and `fi` on integer ones, writes the lanes of a row of Table fp-6. -/
theorem Runs.vecOp (h : Runs s th) {op : Nat} {ty : VTy} {wd ws wt' wt : WIx} {ff : FCtx → Nat → Nat → Fr}
    {fi : Nat → Int → Int → Int} {rf : FCtx → Nat → Nat → Nat → Nat → Fr} {ri : Nat → Int → Int → Int}
    (hi : exec i s = .next (s.vecOp th op ty ok wd ws wt' ff fi)) (hok : ok = true)
    (hff : ∀ c j, ff c (lane ((s.thr th).rw ws) ty.w j) (lane ((s.thr th).rw wt') ty.w j) =
      rf c ty.w (lane ((s.thr th).rw ws) ty.w j) (lane ((s.thr th).rw wt) ty.w j) (lane ((s.thr th).rw wd) ty.w j))
    (hfi : ∀ j, fi ty.w (lint ty.w (lane ((s.thr th).rw ws) ty.w j)) (lint ty.w (lane ((s.thr th).rw wt') ty.w j)) =
      ri ty.w (lint ty.w (lane ((s.thr th).rw ws) ty.w j)) (lint ty.w (lane ((s.thr th).rw wt) ty.w j))) :
    WritesLanes i s th wd ty.w (laneOut (s.thr th) ty wd ws wt rf ri) := by
  refine h.vecWritesLanes hi hok rfl ?_
  rw [zipWith_lanesOf, lanes_eq_div]
  refine List.map_congr_left fun j _ => ?_
  rw [laneOut]
  refine ite_congr rfl (fun _ => hff _ j) (fun _ => ?_)
  rw [uNat_eq_ofInt, sInt_eq_lint (laneWidth_pos ty), sInt_eq_lint (laneWidth_pos ty)]
  exact congrArg (fun x => Fr.mk (BitVec.ofInt ty.w x).toNat 0) (hfi j)

/-- VFMA takes Wd as its addend (R107). -/
theorem Runs.vfma (h : Runs s th) {ty : VTy} (hty : ty.isF = true) (wd ws wt : WIx) (ri : Nat → Int → Int → Int) :
    WritesLanes (.vfma th ty wd ws wt) s th wd ty.w
      (laneOut (s.thr th) ty wd ws wt (fun c _ a b d => c.fma false false a b d) ri) := by
  refine h.vecWritesLanes (i := .vfma th ty wd ws wt) rfl hty rfl ?_
  rw [lanes_eq_div]
  exact List.map_congr_left fun j _ => (if_pos hty).symm

theorem laneRows_write (h : Runs s th) (ty : VTy) (wd ws wt : WIx) : ∀ e ∈ laneRows, e.2.1 ty = true →
    WritesLanes (e.1 th ty wd ws wt) s th wd ty.w (laneOut (s.thr th) ty wd ws wt e.2.2.1 e.2.2.2) := by
  simp only [laneRows, List.forall_mem_cons]
  refine ⟨fun _ => h.vecOp rfl rfl (fun _ _ => rfl) (fun _ => rfl), fun _ => h.vecOp rfl rfl (fun _ _ => rfl) (fun _ => rfl),
    fun _ => h.vecOp rfl rfl (fun _ _ => rfl) (fun _ => rfl), fun hok => h.vfma hok wd ws wt _,
    fun _ => h.vecOp rfl rfl (fun _ _ => rfl) (fun _ => rfl), fun _ => h.vecOp rfl rfl (fun _ _ => rfl) (fun _ => rfl),
    fun _ => h.vecOp rfl rfl (fun _ _ => rfl) (fun _ => satS_eq_lsat _ _),
    fun _ => h.vecOp rfl rfl (fun _ _ => rfl) (fun _ => satS_eq_lsat _ _),
    fun _ => h.vecOp rfl rfl (fun _ _ => rfl) (fun _ => if_congr beq_iff_eq rfl rfl),
    fun _ => h.vecOp rfl rfl (fun _ _ => rfl) (fun _ => if_congr decide_eq_true_iff rfl rfl),
    fun _ => h.vecOp rfl rfl (fun _ _ => rfl) (fun _ => if_congr decide_eq_true_iff rfl rfl),
    fun hok => h.vecOp rfl hok (fun _ _ => rfl) (fun _ => satS_eq_lsat _ _),
    fun hok => h.vecOp rfl hok (fun _ _ => rfl) (fun _ => satS_eq_lsat _ _),
    fun hok => h.vecOp rfl hok (fun _ _ => rfl) (fun _ => satS_eq_lsat _ _), List.forall_mem_nil _⟩

theorem wideRows_write (h : Runs s th) (ty : VTy) (wd ws wt : WIx) : ∀ e ∈ wideRows,
    WritesW (e.1 th ty wd ws wt) s th wd (e.2 ((s.thr th).rw wd) ((s.thr th).rw ws) ((s.thr th).rw wt)) 0 1 := by
  simp only [wideRows, List.forall_mem_cons]
  exact ⟨h.vecWritesW rfl rfl rfl, h.vecWritesW rfl rfl rfl, h.vecWritesW rfl rfl rfl, h.vecWritesW rfl rfl rfl, List.forall_mem_nil _⟩

/-! ### Conversions (Table fp-7) -/

/-- A conversion writes one lane of Wd for each source lane. -/
theorem Runs.vecCvt (h : Runs s th) {fn : Nat} {wd ws wt wt' : WIx} {wOut wIn first : Nat} {both : Bool} {src : Thread → List Nat}
    {cf : Thread → Nat → Fr} {g : Nat → Fr} (hi : exec i s = .next (s.vecCvt th fn wd ws wt' wOut src cf))
    (hsrc : src (s.thr th).gretSeen = (List.range (256 / wOut)).map (cvtLane (s.thr th) ws wt wIn first both))
    (hg : ∀ j, cf (s.thr th).gretSeen (cvtLane (s.thr th) ws wt wIn first both j) = g j) : WritesLanes i s th wd wOut g := by
  refine h.vecWritesLanes hi rfl rfl ?_
  rw [hsrc, List.map_map]
  exact List.map_congr_left fun j _ => hg j

/-- Source lanes from `first` on. -/
theorem lanesOf_drop_eq_cvtLane (o : Thread) (ws wt : WIx) (wIn first n : Nat) :
    (lanesOf (o.rw ws) wIn (first + n)).drop first = (List.range n).map (cvtLane o ws wt wIn first false) := by
  rw [lanesOf, ← List.map_drop, List.range_add, List.drop_left' List.length_range, List.map_map]
  rfl

/-- The first source lanes. -/
theorem lanesOf_take_eq_cvtLane (o : Thread) (ws wt : WIx) (wIn n m : Nat) :
    (lanesOf (o.rw ws) wIn (n + m)).take n = (List.range n).map (cvtLane o ws wt wIn 0 false) := by
  rw [lanesOf, ← List.map_take, List.take_range, min_eq_left (Nat.le_add_right n m)]
  exact List.map_congr_left fun j _ => congrArg _ (Nat.zero_add j).symm

/-- The lanes of Ws go on in Wt. -/
theorem lanesOf_append_eq_cvtLane (o : Thread) (ws wt : WIx) {wIn n : Nat} (hn : 256 / wIn = n) :
    lanesOf (o.rw ws) wIn n ++ lanesOf (o.rw wt) wIn n = (List.range (n + n)).map (cvtLane o ws wt wIn 0 true) := by
  subst hn
  rw [List.range_add, List.map_append, List.map_map, lanesOf, lanesOf]
  congr 1
  · refine List.map_congr_left fun j hj => ?_
    simp [cvtLane, List.mem_range.1 hj]
  · refine List.map_congr_left fun j hj => ?_
    simp [cvtLane]

theorem laneCvtRows_write (h : Runs s th) (wd ws wt : WIx) : ∀ e ∈ laneCvtRows, WritesLanes (e.1 th wd ws wt) s th wd e.2.1
    (fun j => e.2.2.2.2.2 (s.thr th) (cvtLane (s.thr th) ws wt e.2.2.1 e.2.2.2.1 e.2.2.2.2.1 j)) := by
  have h16 (v : Nat) : sInt 16 v = lint 16 v := sInt_eq_lint (by decide) v
  have h8 (v : Nat) : sInt 8 v = lint 8 v := sInt_eq_lint (by decide) v
  simp only [laneCvtRows, List.forall_mem_cons]
  refine ⟨h.vecCvt rfl (lanesOf_take_eq_cvtLane _ ws wt 16 8 8) (fun _ => ?_),
    h.vecCvt rfl (lanesOf_drop_eq_cvtLane _ ws wt 16 8 8) (fun _ => ?_),
    h.vecCvt rfl (lanesOf_append_eq_cvtLane _ ws wt rfl) (fun _ => congrArg (Fr.mk · _) (uNat_eq_ofInt 16 _)),
    h.vecCvt rfl (lanesOf_take_eq_cvtLane _ ws wt 32 4 4) (fun _ => rfl),
    h.vecCvt rfl (lanesOf_drop_eq_cvtLane _ ws wt 32 4 4) (fun _ => rfl),
    h.vecCvt rfl (lanesOf_append_eq_cvtLane _ ws wt rfl) (fun _ => rfl),
    h.vecCvt rfl (lanesOf_take_eq_cvtLane _ ws wt 8 16 16) (fun _ => ?_),
    h.vecCvt rfl (lanesOf_drop_eq_cvtLane _ ws wt 8 16 16) (fun _ => ?_),
    h.vecCvt rfl (lanesOf_append_eq_cvtLane _ ws wt rfl) (fun _ => ?_), List.forall_mem_nil _⟩
  all_goals simp only [h16, h8, uNat_eq_ofInt, satS_eq_lsat]

theorem vectorOperationsWriteLanes : VectorOperationsWriteLanes := fun _ ty wd ws wt _ h =>
  ⟨laneRows_write h ty wd ws wt, wideRows_write h ty wd ws wt, laneCvtRows_write h wd ws wt⟩

/-! ### Moves and sums (Table fp-7) -/

theorem orAll_noFlags (l : List Nat) (g : Nat → Nat) : orAll (l.map (fun j => ⟨g j, 0⟩)) = 0 := by
  rw [orAll, List.map_map]
  induction l with
  | nil => rfl
  | cons _ _ ih => simpa using ih

/-- A move of lanes into Wd raises no flag. -/
theorem Runs.vecMoves (h : Runs s th) {ty : VTy} {wd : WIx} {ls : List Nat} {g : Nat → Nat}
    (hi : exec i s = .next (s.vec th ok word f)) (hok : ok = true)
    (hf : f (s.thr th).gretSeen = ((s.thr th).gretSeen.ww wd (ofLanes ty.w ls), 0)) (hls : ls = (List.range ty.lanes).map g) :
    WritesLanes i s th wd ty.w (fun j => ⟨g j, 0⟩) := by
  refine h.vecWritesLanes (rs := (List.range ty.lanes).map (fun j => ⟨g j, 0⟩)) hi hok ?_ (by rw [lanes_eq_div])
  rw [hf, hls, List.map_map, orAll_noFlags]
  rfl

theorem set_lanesOf (v : WVec) (w n k x : Nat) :
    (lanesOf v w n).set k x = (List.range n).map (fun j => if j = k then x else lane v w j) := by
  refine List.ext_getElem (by simp [lanesOf]) fun j h1 h2 => ?_
  rw [List.getElem_set, List.getElem_map, List.getElem_range]
  simp only [lanesOf, List.getElem_map, List.getElem_range, eq_comm]

/-- The pairwise sum of four binary64 lanes (R113). -/
theorem sumTree_four (c : FCtx) (v0 v1 v2 v3 : Nat) :
    let x := c.add false v0 v1
    let y := c.add false v2 v3
    let r := c.add false x.bits y.bits
    sumTree c 2 [v0, v1, v2, v3] = ⟨r.bits, x.flags ||| y.flags ||| r.flags⟩ := by
  simp [sumTree, sumPairs]

theorem vext_writes (h : Runs s th) {ty : VTy} {ln : BitVec 5} (hln : ln.toNat < ty.lanes) (rd : RegIx) (ws : WIx) :
    if ty.isF then WritesF (.vext th ty rd ws ln) s th rd (lane ((s.thr th).rw ws) ty.w ln.toNat) 0 1
    else WritesG (.vext th ty rd ws ln) s th rd (BitVec.ofInt 32 (lint ty.w (lane ((s.thr th).rw ws) ty.w ln.toNat)))
      ((s.thr th).pc + 4) 1 := by
  have hok := decide_eq_true hln
  cases hty : ty.isF with
  | true => exact h.vecWritesF (i := .vext th ty rd ws ln) rfl hok (by rw [Thread.putLane, if_pos hty]; rfl)
  | false =>
    refine h.vecWritesG (i := .vext th ty rd ws ln) rfl hok ?_
    rw [Thread.putLane, hty, sInt_eq_lint (laneWidth_pos ty)]
    rfl

theorem vsum_integer (h : Runs s th) {ty : VTy} (hty : ty.isF = false) (rd : RegIx) (ws : WIx) :
    WritesG (.vsum th ty rd ws) s th rd
      (BitVec.ofInt 32 ((List.range ty.lanes).map (fun j => lint ty.w (lane ((s.thr th).rw ws) ty.w j))).sum)
      ((s.thr th).pc + 4) 1 := by
  have hsum : (lanesOf ((s.thr th).rw ws) ty.w ty.lanes).map (sInt ty.w) =
      (List.range ty.lanes).map (fun j => lint ty.w (lane ((s.thr th).rw ws) ty.w j)) := by
    rw [lanesOf, List.map_map]
    exact List.map_congr_left fun j _ => sInt_eq_lint (laneWidth_pos ty) _
  refine h.vecWritesG (i := .vsum th ty rd ws) rfl rfl ?_
  rw [hty, ← hsum]
  rfl

theorem vsum_f64 (h : Runs s th) (rd : RegIx) (ws : WIx) :
    let c := (s.thr th).fctx b64
    let x := c.add false (lane ((s.thr th).rw ws) 64 0) (lane ((s.thr th).rw ws) 64 1)
    let y := c.add false (lane ((s.thr th).rw ws) 64 2) (lane ((s.thr th).rw ws) 64 3)
    let r := c.add false x.bits y.bits
    WritesF (.vsum th .f64 rd ws) s th rd r.bits (x.flags ||| y.flags ||| r.flags) 1 := by
  intro c x y r
  have hsum := sumTree_four c (lane ((s.thr th).rw ws) 64 0) (lane ((s.thr th).rw ws) 64 1) (lane ((s.thr th).rw ws) 64 2)
    (lane ((s.thr th).rw ws) 64 3)
  exact h.vecWritesF (i := .vsum th .f64 rd ws) rfl rfl (congrArg (fun q : Fr => ((s.thr th).gretSeen.fres rd q.bits, q.flags)) hsum)

theorem vectorMovesAndSums : VectorMovesAndSums := by
  intro th ty wd ws rd rs ln s h o v l ls
  refine ⟨?_, fun hln => ⟨vext_writes h hln rd ws, ?_⟩, fun hty => vsum_integer h hty rd ws, fun hty => ?_⟩
  · exact h.vecMoves (i := .vsplat th ty wd rs) rfl rfl rfl (by rw [List.map_const', List.length_range]; rfl)
  · exact h.vecMoves (i := .vins th ty wd rs ln) rfl (decide_eq_true hln) rfl (set_lanesOf _ _ _ _ _)
  · subst hty
    exact vsum_f64 h rd ws

/-! ### Illegal forms (R102, R104) -/

theorem vectorFormsIllegal : VectorFormsIllegal := by
  intro th ty wd ws wt rd rs ln s h hexl
  refine ⟨fun hty => h.vecIllegal hexl rfl hty, fun hty => ?_, fun hty => h.vecIllegal hexl rfl (beq_false_of_ne hty), fun hln => ?_⟩
  · have hok : (!ty.isF) = false := by rw [hty]; rfl
    exact ⟨h.vecIllegal hexl rfl hok, h.vecIllegal hexl rfl hok⟩
  · have hok : decide (ln.toNat < ty.lanes) = false := decide_eq_false (Nat.not_lt.2 hln)
    exact ⟨h.vecIllegal hexl rfl hok, h.vecIllegal hexl rfl hok⟩

/-- Settles O9: a legal form writes the lanes that its row gives, with their flags; a form its type does not have is taken as ILLEGAL. -/
theorem vectorInstructionsWriteResults : Obligations.VectorInstructionsWriteResults :=
  ⟨vectorOperationsWriteLanes, vectorMovesAndSums, vectorFormsIllegal⟩

end Sys2Proof.Claims
end

section
/-!
PROOFS. O12: gather and scatter on the scratchpad and the own mailbox (R121, R122).

Choices and readings of this file: log 8.
-/

namespace Sys2Proof.Claims
open Sys2Proof.Machine

variable {s : State} {th : Thr} {ty : VTy} {ws : WIx} {rt : RegIx} {store : Bool}

/-! ### The checks of the lanes (R121, R127) -/

theorem LanesOk.inLocal (h : LanesOk s th ty ws rt store) {j : Nat} (hj : j < ty.lanes) :
    InLocal (laneAddr (s.thr th) ty ws rt j) (ty.w / 8) := by
  obtain ⟨hal, hlt, -⟩ := h j hj
  generalize laneAddr (s.thr th) ty ws rt j = a at hal hlt
  unfold InLocal
  cases ty <;> simp only [VTy.w] at * <;> omega

/-- No lane fails its check. -/
theorem LanesOk.gatherFault (h : LanesOk s th ty ws rt store) : (s.onThr th Thread.gretSeen).gatherFault th ty ws rt store = none := by
  rw [State.gatherFault, List.findSome?_eq_none_iff]
  intro j hj
  obtain ⟨hal, hlt, hmode⟩ := h j (List.mem_range.1 hj)
  have haddr : gatherAddr (s.thr th).gretSeen ty ws rt j = laneAddr (s.thr th) ty ws rt j := rfl
  have hk : (s.thr th).gretSeen.kernel = (s.thr th).kernel := rfl
  have htask : (if (s.thr th).kernel then none else
      s.taskFault th.pier.val (laneAddr (s.thr th) ty ws rt j) (ty.w / 8) store) = none := by
    rcases hmode with hkernel | ht
    · exact if_pos hkernel
    · rw [ht, ite_self]
  simp only [State.gatherCheck, State.thr_onThr_same, haddr, hk, taskFault_onThr, htask, if_neg (Nat.not_le.2 hlt), hal, ne_eq,
    not_true_eq_false, if_false]

/-! ### Gather -/

/-- An instruction that changes G, F and W registers, to those of `x`, completes with them. -/
theorem Runs.changes (h : Runs s th) {i : Instr} {rp settle : Bool} {body : State → Out} {f : Thread → Thread} {x : Thread} {n : Nat}
    (hi : exec i s = .next (s.issue th rp settle body))
    (hb : body (s.onThr th Thread.gretSeen) = .done ((s.onThr th Thread.gretSeen).onThr th f) ((s.onThr th Thread.gretSeen).npc th) n)
    (hf : f (s.thr th).gretSeen = x) (hx : x = { (s.thr th).gretSeen with g := x.g, f := x.f, w := x.w }) :
    ∃ t, exec i s = .next t ∧ OnlyThread s t th n ∧
      t.thr th = { retired (s.thr th) ((s.thr th).pc + 4) with g := x.g, f := x.f, w := x.w } := by
  have he := h.issue rp settle body
  rw [hb, conclude_done h.noAsync] at he
  refine ⟨_, hi, ?_⟩
  rw [he, State.npc, State.thr_onThr_same]
  refine ⟨Runs.onlyThread _ _ _, ?_⟩
  rw [State.thr_retire_same, State.thr_onThr_same, State.thr_onThr_same, State.thr_onThr_same, hf]
  exact retire_registers h.noRepeat h.noTpend hx _

/-- The elements that a gather loads. -/
def gathered (s : State) (th : Thr) (ty : VTy) (ws : WIx) (rt : RegIx) : WVec :=
  ofLanes ty.w ((List.range ty.lanes).map (fun j => s.localRd th.pier.val (laneAddr (s.thr th) ty ws rt j) (ty.w / 8)))

theorem lane_gathered (hok : LanesOk s th ty ws rt store) {j : Nat} (hj : j < ty.lanes) :
    lane (gathered s th ty ws rt) ty.w j = localBytes s th.pier.val (laneAddr (s.thr th) ty ws rt j) (ty.w / 8) := by
  have hlt := localBytes_lt (hok.inLocal hj) s th.pier.val
  have hw : 256 ^ (ty.w / 8) = 2 ^ ty.w := by cases ty <;> rfl
  rw [gathered, lane_ofLanes_range (laneWidth_mul_lanes ty).le _ hj, localRd_eq_localBytes (hok.inLocal hj),
    Nat.mod_eq_of_lt (hw ▸ hlt)]

theorem wgath_loads (h : Runs s th) (hok : LanesOk s th ty ws rt false) (wd : WIx) :
    ∃ t, exec (.wgath th ty wd ws rt) s = .next t ∧ OnlyThread s t th ty.lanes ∧
      (∀ j, j < ty.lanes → lane ((t.thr th).rw wd) ty.w j =
        localBytes s th.pier.val (laneAddr (s.thr th) ty ws rt j) (ty.w / 8)) ∧
      (∀ r, r ≠ wd → (t.thr th).rw r = (s.thr th).rw r) ∧
      t.thr th = { retired (s.thr th) ((s.thr th).pc + 4) with w := (t.thr th).w } := by
  obtain ⟨t, he, ho, ht⟩ := h.changes (i := .wgath th ty wd ws rt) (f := fun t => t.ww wd (gathered s th ty ws rt)) (n := ty.lanes)
    rfl (by simp only [hok.gatherFault, State.thr_onThr_same]; rfl) rfl rfl
  have hrw (r : WIx) : (t.thr th).rw r = if r = wd then gathered s th ty ws rt else (s.thr th).rw r := by
    rw [ht]
    exact Thread.rw_ww (s.thr th) wd r _
  refine ⟨t, he, ho, fun j hj => ?_, fun r hr => (hrw r).trans (if_neg hr), ?_⟩
  · rw [hrw, if_pos rfl, lane_gathered hok hj]
  · rw [ht]
    rfl

/-! ### Scatter -/

/-- A scatter changes the scratchpads and mailboxes alone. -/
theorem scatter_frame (s : State) (p : Nat) (t : Thread) (ty : VTy) (wd ws : WIx) (rt : RegIx) (js : List Nat) :
    ∃ spad mbox, s.scatter p t ty wd ws rt js = { s with spad := spad, mbox := mbox } := by
  induction js generalizing s with
  | nil => exact ⟨s.spad, s.mbox, rfl⟩
  | cons j rest ih =>
    obtain ⟨spad, mbox, hrest⟩ := ih (s.localWr p (gatherAddr t ty ws rt j) (ty.w / 8) (lane (t.rw wd) ty.w j))
    rw [State.scatter, hrest, localWr_frame]
    exact ⟨spad, mbox, rfl⟩

/-- Whether the element of lane `j` covers the byte at `x`. -/
def covers (o : Thread) (ty : VTy) (ws : WIx) (rt : RegIx) (x j : Nat) : Bool :=
  decide (laneAddr o ty ws rt j ≤ x ∧ x < laneAddr o ty ws rt j + ty.w / 8)

/-- A byte after a scatter of lanes `js` in turn: that of the last lane that covers it (R122). -/
def scatteredByte (s : State) (p : Nat) (o : Thread) (ty : VTy) (wd ws : WIx) (rt : RegIx) (js : List Nat) (x : Nat) : Byte :=
  match js.reverse.find? (covers o ty ws rt x) with
  | some j => BitVec.ofNat 8 (lane (o.rw wd) ty.w j / 256 ^ (x - laneAddr o ty ws rt j))
  | none => localByte s p x

/-- A byte after one lane's store and those of the lanes after it. -/
theorem scatteredByte_cons (s : State) (p : Nat) (o : Thread) (ty : VTy) (wd ws : WIx) (rt : RegIx) (j : Nat) (rest : List Nat) {x : Nat}
    (ha : InLocal (laneAddr o ty ws rt j) (ty.w / 8)) (hx : x < 0x11000) :
    scatteredByte (s.localWr p (laneAddr o ty ws rt j) (ty.w / 8) (lane (o.rw wd) ty.w j)) p o ty wd ws rt rest x =
      scatteredByte s p o ty wd ws rt (j :: rest) x := by
  rw [scatteredByte, scatteredByte, List.reverse_cons, List.find?_append]
  cases rest.reverse.find? (covers o ty ws rt x) with
  | some k => rfl
  | none =>
    rw [localByte_localWr ha hx]
    by_cases hc : laneAddr o ty ws rt j ≤ x ∧ x < laneAddr o ty ws rt j + ty.w / 8 <;> simp [covers, hc]

theorem localByte_scatter (p : Nat) (o : Thread) (wd : WIx) (js : List Nat) {x : Nat} (hx : x < 0x11000)
    (ha : ∀ j ∈ js, InLocal (laneAddr o ty ws rt j) (ty.w / 8)) (s : State) (q : Nat) :
    localByte (s.scatter p o ty wd ws rt js) q x =
      if q = p then scatteredByte s p o ty wd ws rt js x else localByte s q x := by
  induction js generalizing s with
  | nil =>
    split
    · next hq => subst hq; rfl
    · rfl
  | cons j rest ih =>
    obtain ⟨hj, hrest⟩ := List.forall_mem_cons.1 ha
    have haddr : gatherAddr o ty ws rt j = laneAddr o ty ws rt j := rfl
    rw [State.scatter, ih hrest, haddr, scatteredByte_cons _ _ _ _ _ _ _ _ _ hj hx, localByte_localWr hj hx]
    exact ite_congr rfl (fun _ => rfl) (fun hq => if_neg (fun hc => hq hc.1))

/-- An instruction that stores to the scratchpads and mailboxes alone completes with its bytes. -/
theorem Runs.storesBytes (h : Runs s th) {i : Instr} {rp settle : Bool} {body : State → Out} {n : Nat} {spad mbox : List Host.Cell}
    (hi : exec i s = .next (s.issue th rp settle body))
    (hb : body (s.onThr th Thread.gretSeen) = .done { s.onThr th Thread.gretSeen with spad := spad, mbox := mbox }
      ((s.onThr th Thread.gretSeen).npc th) n) :
    ∃ t, exec i s = .next t ∧ t = { s with threads := t.threads, io := t.io, spad := spad, mbox := mbox } ∧
      (∀ u, u ≠ th → t.thr u = s.thr u) ∧ t.thr th = retired (s.thr th) ((s.thr th).pc + 4) := by
  have he := h.issue rp settle body
  rw [hb, conclude_done h.noAsync] at he
  refine ⟨_, hi, ?_⟩
  have hthr (u : Thr) : ({ s.onThr th Thread.gretSeen with spad := spad, mbox := mbox } : State).thr u =
      (s.onThr th Thread.gretSeen).thr u := rfl
  have honly : OnlyThreadsAndRegs { s with spad := spad, mbox := mbox } { s.onThr th Thread.gretSeen with spad := spad, mbox := mbox } :=
    ⟨_, s.io, rfl⟩
  rw [he, State.npc, State.thr_onThr_same]
  refine ⟨((honly.onThr th _).retire th _ _ _).eq, fun u hu => ?_, ?_⟩
  · rw [State.thr_retire_other _ _ _ _ _ _ hu, State.thr_onThr_other _ _ _ _ hu, hthr, State.thr_onThr_other _ _ _ _ hu]
  · rw [State.thr_retire_same, State.thr_onThr_same, hthr, State.thr_onThr_same]
    exact retire_registers h.noRepeat h.noTpend rfl _

theorem wscat_stores (h : Runs s th) (hok : LanesOk s th ty ws rt true) (wd : WIx) :
    ∃ t, exec (.wscat th ty wd ws rt) s = .next t ∧
      t = { s with threads := t.threads, io := t.io, spad := t.spad, mbox := t.mbox } ∧
      (∀ u, u ≠ th → t.thr u = s.thr u) ∧ t.thr th = retired (s.thr th) ((s.thr th).pc + 4) ∧
      ∀ (q : PierIx) (x : Nat), x < 0x11000 → localByte t q.val x =
        if q.val = th.pier.val then scatteredByte s th.pier.val (s.thr th) ty wd ws rt (List.range ty.lanes) x
        else localByte s q.val x := by
  obtain ⟨spad, mbox, hm⟩ :=
    scatter_frame (s.onThr th Thread.gretSeen) th.pier.val (s.thr th).gretSeen ty wd ws rt (List.range ty.lanes)
  obtain ⟨t, he, ht, hother, hthr⟩ := h.storesBytes (i := .wscat th ty wd ws rt) (n := ty.lanes) (spad := spad) (mbox := mbox) rfl
    (by simp only [hok.gatherFault, State.thr_onThr_same, hm])
  refine ⟨t, he, ?_, hother, hthr, fun q x hx => ?_⟩
  · rw [ht]
  · have hbyte := localByte_scatter th.pier.val (s.thr th).gretSeen wd (List.range ty.lanes) hx
      (fun j hj => hok.inLocal (List.mem_range.1 hj)) (s.onThr th Thread.gretSeen) q.val
    rw [hm] at hbyte
    rw [ht]
    exact hbyte

/-- Settles O12: the lanes pass their checks; a gather's by the bytes read, a scatter's by the last store that covers a byte. -/
theorem gatherAndScatterLanes : Obligations.GatherAndScatterLanes := fun _ _ wd _ _ _ h =>
  ⟨fun hok => wgath_loads h hok wd, fun hok => wscat_stores h hok wd⟩

end Sys2Proof.Claims
end

section
/-!
PROOFS. O8: the rounding of R106. A magnitude is counted in units of the last place; its two neighbours there are the only finite
values it can round to, and the direction picks one.

Choices and readings of this file: none.
-/

namespace Sys2Proof.Claims
open Sys2Proof.Machine

/-! ### Rounding to an integer -/

/-- `r` is the magnitude `X` rounded to an integer, for a number of sign `neg`, in direction `rm`, with whether it changed. -/
structure RoundsTo (rm : Nat) (neg : Bool) (X : ℚ) (r : Nat × Bool) : Prop where
  neighbour : (r.1 : ℤ) = ⌊X⌋ ∨ (r.1 : ℤ) = ⌈X⌉
  changed : r.2 = true ↔ (r.1 : ℚ) ≠ X
  nearest : rm = 0 → |X - r.1| ≤ X - ⌊X⌋ ∧ |X - r.1| ≤ ⌈X⌉ - X
  towardZero : rm = 1 → (r.1 : ℚ) ≤ X
  down : rm = 2 → if neg then X ≤ r.1 else (r.1 : ℚ) ≤ X
  up : rm = 3 → if neg then (r.1 : ℚ) ≤ X else X ≤ r.1

theorem roundsTo_exact (rm : Nat) (neg : Bool) {X : ℚ} {n : Nat} (hX : X = n) : RoundsTo rm neg X (n, false) := by
  subst hX
  refine ⟨.inl (Int.floor_natCast n).symm, by simp, fun _ => by simp, fun _ => le_rfl, fun _ => ?_, fun _ => ?_⟩
  · split <;> exact le_rfl
  · split <;> exact le_rfl

/-- Whether a magnitude strictly between `q` and `q + 1`, its fraction `lo` / 2^d, goes up (R106). -/
def goesUp (rm : Nat) (neg : Bool) (q lo d : Nat) : Bool :=
  if rm = 0 then decide (2 ^ d < 2 * lo) || (2 * lo == 2 ^ d && q % 2 == 1) else if rm = 1 then false else if rm = 2 then neg else !neg

theorem roundShift_eq (rm : Nat) (neg : Bool) {m d : Nat} (hlo : m % 2 ^ d ≠ 0) : roundShift rm neg m d =
    (if goesUp rm neg (m / 2 ^ d) (m % 2 ^ d) d then m / 2 ^ d + 1 else m / 2 ^ d, true) := by
  simp [roundShift, goesUp, hlo]

theorem div_two_pow_eq (m d : Nat) : (m : ℚ) / 2 ^ d = (m / 2 ^ d : Nat) + (m % 2 ^ d : Nat) / 2 ^ d := by
  have hpos : (0 : ℚ) < 2 ^ d := by positivity
  have hmod : ((m % 2 ^ d : Nat) : ℚ) + (m / 2 ^ d : Nat) * 2 ^ d = m := by exact_mod_cast Nat.mod_add_div' m (2 ^ d)
  field_simp
  linarith

/-- To the nearest: up from the half on, down to the half. -/
theorem goesUp_nearest (neg : Bool) (q lo d : Nat) :
    if goesUp 0 neg q lo d then 1 / 2 ≤ (lo : ℚ) / 2 ^ d else (lo : ℚ) / 2 ^ d ≤ 1 / 2 := by
  have hpos : (0 : ℚ) < 2 ^ d := by positivity
  have hle : (1 / 2 ≤ (lo : ℚ) / 2 ^ d ↔ 2 ^ d ≤ 2 * lo) := by
    rw [le_div_iff₀ hpos, ← Nat.cast_le (α := ℚ)]
    push_cast
    constructor <;> intro h <;> linarith
  have hge : ((lo : ℚ) / 2 ^ d ≤ 1 / 2 ↔ 2 * lo ≤ 2 ^ d) := by
    rw [div_le_iff₀ hpos, ← Nat.cast_le (α := ℚ)]
    push_cast
    constructor <;> intro h <;> linarith
  rw [hle, hge]
  split
  · next hup =>
    simp [goesUp] at hup
    omega
  · next hup =>
    simp [goesUp] at hup
    omega

section
variable {rm : Nat} {neg : Bool} {q : Nat} {t : ℚ} (ht0 : 0 < t) (ht1 : t < 1)
include ht0 ht1

theorem floor_add_fraction : ⌊(q : ℚ) + t⌋ = q := by
  rw [Int.floor_eq_iff]
  push_cast
  constructor <;> linarith

theorem ceil_add_fraction : ⌈(q : ℚ) + t⌉ = q + 1 := by
  rw [Int.ceil_eq_iff]
  push_cast
  constructor <;> linarith

/-- The lower neighbour: toward zero, to the nearest up to the half, down for a positive number, up for a negative one. -/
theorem roundsTo_lower (h0 : rm = 0 → t ≤ 1 / 2) (h2 : rm = 2 → neg = false) (h3 : rm = 3 → neg = true) :
    RoundsTo rm neg (q + t) (q, true) := by
  have hX : |(q : ℚ) + t - q| = t := by rw [add_sub_cancel_left, abs_of_pos ht0]
  have hle : (q : ℚ) ≤ q + t := by linarith
  refine ⟨.inl (floor_add_fraction ht0 ht1).symm, by simp [ht0.ne'], fun h => ?_, fun _ => hle, fun h => ?_, fun h => ?_⟩
  · have hhalf := h0 h
    rw [hX, floor_add_fraction ht0 ht1, ceil_add_fraction ht0 ht1]
    push_cast
    constructor <;> linarith
  · rwa [h2 h, if_neg Bool.false_ne_true]
  · rwa [h3 h, if_pos rfl]

/-- The upper neighbour: to the nearest from the half on, down for a negative number, up for a positive one. -/
theorem roundsTo_upper (h0 : rm = 0 → 1 / 2 ≤ t) (h1 : rm ≠ 1) (h2 : rm = 2 → neg = true) (h3 : rm = 3 → neg = false) :
    RoundsTo rm neg (q + t) (q + 1, true) := by
  have hX : |(q : ℚ) + t - (q + 1 : Nat)| = 1 - t := by
    rw [abs_sub_comm, abs_of_pos (by push_cast; linarith)]
    push_cast
    ring
  have hle : (q : ℚ) + t ≤ (q + 1 : Nat) := by push_cast; linarith
  have hne : ((q + 1 : Nat) : ℚ) ≠ q + t := by push_cast; linarith
  refine ⟨.inr ?_, by simp only [hne, ne_eq, not_false_eq_true], fun h => ?_, fun h => absurd h h1, fun h => ?_, fun h => ?_⟩
  · rw [ceil_add_fraction ht0 ht1]
    push_cast
    rfl
  · have hhalf := h0 h
    rw [hX, floor_add_fraction ht0 ht1, ceil_add_fraction ht0 ht1]
    push_cast
    constructor <;> linarith
  · rwa [h2 h, if_pos rfl]
  · rwa [h3 h, if_neg Bool.false_ne_true]

end

theorem roundShift_roundsTo (rm : Nat) (neg : Bool) (m d : Nat) : RoundsTo rm neg ((m : ℚ) / 2 ^ d) (roundShift rm neg m d) := by
  rw [div_two_pow_eq]
  by_cases hlo : m % 2 ^ d = 0
  · have hr : roundShift rm neg m d = (m / 2 ^ d, false) := by simp [roundShift, hlo]
    rw [hr]
    exact roundsTo_exact rm neg (by rw [hlo]; simp)
  · have hlt : ((m % 2 ^ d : Nat) : ℚ) < 2 ^ d := by exact_mod_cast Nat.mod_lt m (Nat.two_pow_pos d)
    have ht0 : 0 < ((m % 2 ^ d : Nat) : ℚ) / 2 ^ d := by positivity
    have ht1 : ((m % 2 ^ d : Nat) : ℚ) / 2 ^ d < 1 := (div_lt_one (by positivity)).2 hlt
    have hnear := goesUp_nearest neg (m / 2 ^ d) (m % 2 ^ d) d
    rw [roundShift_eq rm neg hlo]
    cases hup : goesUp rm neg (m / 2 ^ d) (m % 2 ^ d) d with
    | false =>
      refine roundsTo_lower ht0 ht1 (fun h => ?_) (fun h => ?_) (fun h => ?_) <;> subst h
      · rwa [hup] at hnear
      · exact hup
      · simpa [goesUp] using hup
    | true =>
      refine roundsTo_upper ht0 ht1 (fun h => ?_) (fun h => ?_) (fun h => ?_) (fun h => ?_) <;> subst h
      · rwa [hup] at hnear
      · exact Bool.false_ne_true hup
      · exact hup
      · simpa [goesUp] using hup

/-- The exact magnitude m × 2^e in units of 2^q, rounded. -/
theorem roundAt_roundsTo (rm : Nat) (neg : Bool) (m : Nat) (e q : Int) :
    RoundsTo rm neg ((m : ℚ) * 2 ^ (e - q)) (roundAt rm neg m e q) := by
  unfold roundAt
  split
  · next h =>
    refine roundsTo_exact rm neg ?_
    push_cast
    rw [← zpow_natCast, Int.toNat_of_nonneg (by omega)]
  · next h =>
    have hX : (m : ℚ) * 2 ^ (e - q) = m / 2 ^ (q - e).toNat := by
      rw [← zpow_natCast, Int.toNat_of_nonneg (by omega), ← neg_sub, zpow_neg, div_eq_mul_inv]
    rw [hX]
    exact roundShift_roundsTo rm neg m _

/-! ### The unit of the last place -/

/-- The exponent of the last place of the format for the exact number `x`: that of its binade, or of the subnormals (R108). -/
def lastPlace (f : Fmt) (x : Dy) : Int := max ((Nat.log2 x.m : Int) + x.e - (f.fb : Int)) (1 - (f.bias : Int) - (f.fb : Int))

/-- The exact magnitude in units of the last place. -/
def inUnits (f : Fmt) (x : Dy) : ℚ := (x.m : ℚ) * 2 ^ (x.e - lastPlace f x)

variable {f : Fmt} {x : Dy}

theorem subnormal_le_lastPlace (f : Fmt) (x : Dy) : 1 - (f.bias : Int) - (f.fb : Int) ≤ lastPlace f x := le_max_right _ _

theorem inUnits_lt (f : Fmt) (x : Dy) : inUnits f x < 2 ^ (f.fb + 1) := by
  have hm : (x.m : ℚ) < 2 ^ (x.m.log2 + 1) := by exact_mod_cast Nat.lt_log2_self
  have hle : (Nat.log2 x.m : Int) + x.e - (f.fb : Int) ≤ lastPlace f x := le_max_left _ _
  calc inUnits f x < 2 ^ (x.m.log2 + 1) * 2 ^ (x.e - lastPlace f x) := by
        rw [inUnits]
        gcongr
    _ = 2 ^ ((x.m.log2 : Int) + 1 + (x.e - lastPlace f x)) := by
        rw [zpow_add₀ two_ne_zero]
        norm_cast
    _ ≤ 2 ^ ((f.fb + 1 : Nat) : Int) := zpow_le_zpow_right₀ one_le_two (by push_cast; omega)
    _ = 2 ^ (f.fb + 1) := zpow_natCast _ _

/-- Above the subnormals the last place is that of the exact number's own binade. -/
theorem le_inUnits (hm : x.m ≠ 0) (hq : lastPlace f x ≠ 1 - (f.bias : Int) - (f.fb : Int)) : 2 ^ f.fb ≤ inUnits f x := by
  have hm' : (2 : ℚ) ^ x.m.log2 ≤ x.m := by exact_mod_cast Nat.log2_self_le hm
  have hle : lastPlace f x = (Nat.log2 x.m : Int) + x.e - (f.fb : Int) := by
    unfold lastPlace at hq ⊢
    omega
  calc (2 : ℚ) ^ f.fb = 2 ^ ((x.m.log2 : Int) + (x.e - lastPlace f x)) := by
        rw [hle, ← zpow_natCast]
        congr 1
        ring
    _ = 2 ^ x.m.log2 * 2 ^ (x.e - lastPlace f x) := by
        rw [zpow_add₀ two_ne_zero]
        norm_cast
    _ ≤ inUnits f x := by
        rw [inUnits]
        gcongr

/-- The exact number rounded to units of the last place. -/
def roundedUnits (f : Fmt) (rm : Nat) (x : Dy) : Nat × Bool := roundAt rm x.neg x.m x.e (lastPlace f x)

theorem roundedUnits_roundsTo (f : Fmt) (rm : Nat) (x : Dy) : RoundsTo rm x.neg (inUnits f x) (roundedUnits f rm x) :=
  roundAt_roundsTo rm x.neg x.m x.e _

theorem roundedUnits_le (f : Fmt) (rm : Nat) (x : Dy) : (roundedUnits f rm x).1 ≤ 2 ^ (f.fb + 1) := by
  have hceil : ⌈inUnits f x⌉ ≤ 2 ^ (f.fb + 1) := Int.ceil_le.2 (by exact_mod_cast (inUnits_lt f x).le)
  have hfloor := Int.floor_le_ceil (inUnits f x)
  zify
  rcases (roundedUnits_roundsTo f rm x).neighbour with h | h <;> omega

theorem le_roundedUnits (rm : Nat) (hm : x.m ≠ 0) (hq : lastPlace f x ≠ 1 - (f.bias : Int) - (f.fb : Int)) :
    2 ^ f.fb ≤ (roundedUnits f rm x).1 := by
  have hfloor : 2 ^ f.fb ≤ ⌊inUnits f x⌋ := Int.le_floor.2 (by exact_mod_cast le_inUnits hm hq)
  have hceil := Int.floor_le_ceil (inUnits f x)
  zify
  rcases (roundedUnits_roundsTo f rm x).neighbour with h | h <;> omega

/-! ### The bits of the result -/

/-- The exponent field less 1 of a number whose last place is that of `x`, 0 for the subnormals. -/
def placeField (f : Fmt) (x : Dy) : Nat := (lastPlace f x + (f.fb : Int) + (f.bias : Int) - 1).toNat

theorem placeField_eq (f : Fmt) (x : Dy) : lastPlace f x = (placeField f x : Int) + 1 - f.bias - f.fb := by
  have h := subnormal_le_lastPlace f x
  unfold placeField
  omega

theorem flags_inexact (changed tiny : Bool) :
    ((if changed then fNX else 0) ||| (if tiny && changed then fUF else 0)) &&& fNX = fNX ↔ changed = true := by
  revert changed tiny
  decide

/-- A result that does not overflow (R106): its bits, and NX where rounding changed it. -/
theorem round_unless_overflow (rm : Nat) (hm : x.m ≠ 0) (ho : (FCtx.round ⟨f, rm, false⟩ x).flags &&& fOF = 0) :
    (FCtx.round ⟨f, rm, false⟩ x).bits = f.signed x.neg (placeField f x * 2 ^ f.fb + (roundedUnits f rm x).1) ∧
    placeField f x * 2 ^ f.fb + (roundedUnits f rm x).1 < f.infP ∧
    ((FCtx.round ⟨f, rm, false⟩ x).flags &&& fNX = fNX ↔ (roundedUnits f rm x).2 = true) := by
  have hplace : (lastPlace f x + (f.fb : Int) + (f.bias : Int) - 1).toNat = placeField f x := rfl
  have hmax : max ((Nat.log2 x.m : Int) + x.e - (f.fb : Int)) (1 - (f.bias : Int) - (f.fb : Int)) = lastPlace f x := rfl
  have hunits : roundAt rm x.neg x.m x.e (lastPlace f x) = roundedUnits f rm x := rfl
  simp only [FCtx.round, if_neg hm, hmax, hplace, hunits, Bool.false_and, Bool.false_eq_true, if_false] at ho ⊢
  generalize (decide ((Nat.log2 x.m : Int) + x.e < 1 - (f.bias : Int)) && _) = tiny at ho ⊢
  split at ho
  · exact absurd ho (show ¬ (fOF ||| fNX) &&& fOF = 0 by decide)
  · next hinf =>
    rw [if_neg hinf]
    exact ⟨rfl, Nat.lt_of_not_le hinf, flags_inexact _ tiny⟩

theorem infP_lt_signW (f : Fmt) : f.infP < f.signW := by
  rw [Fmt.infP, Fmt.signW, Nat.pow_add]
  exact Nat.mul_lt_mul_of_pos_right (Nat.sub_lt (Nat.two_pow_pos _) Nat.one_pos) (Nat.two_pow_pos _)

theorem mag_signed (neg : Bool) {m : Nat} (hm : m < f.signW) : f.mag (f.signed neg m) = m := by
  unfold Fmt.mag Fmt.signed
  cases neg
  · simpa using Nat.mod_eq_of_lt hm
  · simpa using Nat.mod_eq_of_lt hm

theorem neg_signed (neg : Bool) {m : Nat} (hm : m < f.signW) : f.neg (f.signed neg m) = neg := by
  have hpos : 0 < f.signW := Nat.two_pow_pos _
  unfold Fmt.neg Fmt.signed
  cases neg
  · simp [Nat.div_eq_of_lt hm]
  · simp [Nat.add_div_left _ hpos, Nat.div_eq_of_lt hm]

theorem finite_signed (neg : Bool) {m : Nat} (hm : m < f.infP) : Fmt.finite f (f.signed neg m) := by
  have hsign := hm.trans (infP_lt_signW f)
  refine ⟨?_, by rwa [mag_signed neg hsign]⟩
  have hwidth : 2 ^ f.width = 2 * f.signW := by rw [Fmt.width, Nat.pow_succ, Fmt.signW, Nat.mul_comm]
  rw [hwidth, Fmt.signed]
  cases neg <;> simp <;> omega

/-! ### The values of finite bit patterns -/

/-- The exact value of a magnitude with exponent field `ex` and fraction `fr`. -/
theorem dy_of_fields {ex fr b : Nat} (hb : f.mag b = ex * 2 ^ f.fb + fr) (hfr : fr < 2 ^ f.fb) :
    f.dy b = if ex = 0 then ⟨f.neg b, fr, 1 - (f.bias : Int) - (f.fb : Int)⟩
      else ⟨f.neg b, fr + 2 ^ f.fb, (ex : Int) - (f.bias : Int) - (f.fb : Int)⟩ := by
  have hdm : f.mag b / 2 ^ f.fb = ex ∧ f.mag b % 2 ^ f.fb = fr :=
    (Nat.div_mod_unique (Nat.two_pow_pos _)).2 ⟨by rw [hb]; ring, hfr⟩
  obtain ⟨hex, hfrac⟩ := hdm
  rw [Fmt.dy, hex, hfrac]

/-- `N` units of a last place with field `k`, as bits: the mantissa and exponent they stand for (also where `N` carries to the next
binade). -/
theorem dy_units {k N b : Nat} (hb : f.mag b = k * 2 ^ f.fb + N) (hN : N ≤ 2 ^ (f.fb + 1)) (hk : k = 0 ∨ 2 ^ f.fb ≤ N) :
    ((f.dy b).m : ℚ) * 2 ^ (f.dy b).e = N * 2 ^ ((k : Int) + 1 - f.bias - f.fb) := by
  rcases Nat.lt_or_ge N (2 ^ f.fb) with hsub | hnorm
  · obtain rfl : k = 0 := hk.resolve_right (Nat.not_le.2 hsub)
    rw [dy_of_fields hb hsub, if_pos rfl]
    norm_num
  obtain ⟨fr, rfl⟩ := Nat.exists_eq_add_of_le hnorm
  rw [Nat.pow_succ] at hN
  rcases Nat.lt_or_ge fr (2 ^ f.fb) with hfr | hcarry
  · rw [dy_of_fields (ex := k + 1) (by rw [hb]; ring) hfr, if_neg (Nat.succ_ne_zero k)]
    push_cast
    rw [add_comm (fr : ℚ)]
  · obtain rfl : fr = 2 ^ f.fb := by omega
    rw [dy_of_fields (ex := k + 2) (fr := 0) (by rw [hb]; ring) (Nat.two_pow_pos _), if_neg (Nat.succ_ne_zero _)]
    have hexp : ((k + 2 : Nat) : Int) - f.bias - f.fb = 1 + ((k : Int) + 1 - f.bias - f.fb) := by push_cast; ring
    dsimp only
    rw [hexp, zpow_add₀ two_ne_zero]
    push_cast
    ring

/-- A finite bit pattern: fewer units than two binades hold, of a last place not below the subnormals'. -/
theorem dy_bounds (f : Fmt) (b : Nat) : (f.dy b).m < 2 ^ (f.fb + 1) ∧ 1 - (f.bias : Int) - f.fb ≤ (f.dy b).e := by
  have hfr : f.mag b % 2 ^ f.fb < 2 ^ f.fb := Nat.mod_lt _ (Nat.two_pow_pos _)
  unfold Fmt.dy
  rw [Nat.pow_succ]
  generalize f.mag b / 2 ^ f.fb = ex, f.mag b % 2 ^ f.fb = fr at hfr
  dsimp only
  split
  · exact ⟨by dsimp only; omega, le_rfl⟩
  · exact ⟨by dsimp only; omega, by dsimp only; omega⟩

/-! ### No finite value between the neighbours -/

/-- The magnitude of a finite bit pattern, in units of the last place of `x`, lies at or beyond a neighbour of the exact magnitude: it is a
whole number of units, or it is below the binade of `x`. -/
theorem magnitude_beyond_neighbour (hm : x.m ≠ 0) (b : Nat) :
    ((f.dy b).m : ℚ) * 2 ^ ((f.dy b).e - lastPlace f x) ≤ ⌊inUnits f x⌋ ∨
      (⌈inUnits f x⌉ : ℚ) ≤ (f.dy b).m * 2 ^ ((f.dy b).e - lastPlace f x) := by
  obtain ⟨hmant, hexp⟩ := dy_bounds f b
  generalize (f.dy b).m = M, (f.dy b).e = E at *
  rcases le_or_gt (lastPlace f x) E with hle | hlt
  · have hwhole : (M : ℚ) * 2 ^ (E - lastPlace f x) = ((M * 2 ^ (E - lastPlace f x).toNat : Int) : ℚ) := by
      push_cast
      rw [← zpow_natCast, Int.toNat_of_nonneg (by omega)]
    rw [hwhole]
    rcases le_total ((M * 2 ^ (E - lastPlace f x).toNat : Int) : ℚ) (inUnits f x) with h | h
    · exact .inl (by exact_mod_cast Int.le_floor.2 h)
    · exact .inr (by exact_mod_cast Int.ceil_le.2 h)
  · have hfloor : (2 : ℤ) ^ f.fb ≤ ⌊inUnits f x⌋ := Int.le_floor.2 (by exact_mod_cast le_inUnits hm (by omega))
    have hM : (M : ℚ) < 2 ^ (f.fb + 1) := by exact_mod_cast hmant
    refine .inl ?_
    calc (M : ℚ) * 2 ^ (E - lastPlace f x) ≤ 2 ^ (f.fb + 1) * 2 ^ (-1 : ℤ) := by
          gcongr
          · exact one_le_two
          · omega
      _ = 2 ^ f.fb := by
          rw [pow_succ, zpow_neg_one]
          ring
      _ ≤ ⌊inUnits f x⌋ := by exact_mod_cast hfloor

/-! ### Signs -/

/-- `y` units of size `u`, with a sign. -/
def signedUnits (neg : Bool) (y u : ℚ) : ℚ := (if neg then -1 else 1) * y * u

section
variable {neg : Bool} {y z u : ℚ} (hu : 0 < u)
include hu

theorem signedUnits_lt : signedUnits neg y u < signedUnits neg z u ↔ if neg then z < y else y < z := by
  cases neg <;> simp [signedUnits, hu]

theorem signedUnits_le : signedUnits neg y u ≤ signedUnits neg z u ↔ if neg then z ≤ y else y ≤ z := by
  cases neg <;> simp [signedUnits, hu]

theorem signedUnits_inj : signedUnits neg y u = signedUnits neg z u ↔ y = z := by
  cases neg <;> simp [signedUnits, hu.ne']

theorem abs_signedUnits : |signedUnits neg y u| = |y| * u := by
  cases neg <;> simp [signedUnits, abs_mul, abs_of_pos hu]

theorem abs_signedUnits_sub : |signedUnits neg y u - signedUnits neg z u| = |y - z| * u := by
  have hsub : signedUnits neg y u - signedUnits neg z u = signedUnits neg (y - z) u := by
    simp only [signedUnits]
    ring
  rw [hsub, abs_signedUnits hu]

end

/-! ### Values in units of the last place -/

theorem dyRat_eq_signedUnits (f : Fmt) (x : Dy) : dyRat x = signedUnits x.neg (inUnits f x) (2 ^ lastPlace f x) := by
  rw [dyRat, signedUnits, inUnits, mul_assoc, mul_assoc _ _ ((2 : ℚ) ^ lastPlace f x), mul_assoc (x.m : ℚ), ← zpow_add₀ two_ne_zero,
    sub_add_cancel]

theorem rat_result (rm : Nat) (hm : x.m ≠ 0) (hinf : placeField f x * 2 ^ f.fb + (roundedUnits f rm x).1 < f.infP) :
    Fmt.rat f (f.signed x.neg (placeField f x * 2 ^ f.fb + (roundedUnits f rm x).1)) =
      signedUnits x.neg (roundedUnits f rm x).1 (2 ^ lastPlace f x) := by
  have hsign := hinf.trans (infP_lt_signW f)
  have hk : placeField f x = 0 ∨ 2 ^ f.fb ≤ (roundedUnits f rm x).1 := by
    by_cases hq : lastPlace f x = 1 - (f.bias : Int) - (f.fb : Int)
    · have hplace := placeField_eq f x
      exact .inl (by omega)
    · exact .inr (le_roundedUnits rm hm hq)
  rw [Fmt.rat, neg_signed x.neg hsign, mul_assoc, dy_units (mag_signed x.neg hsign) (roundedUnits_le f rm x) hk, ← placeField_eq,
    signedUnits, mul_assoc]

/-- A finite bit pattern, in units of the last place of `x` and with the sign of `x`, lies at or beyond a neighbour. -/
theorem rat_beyond_neighbour (hm : x.m ≠ 0) (b : Nat) : ∃ y : ℚ, Fmt.rat f b = signedUnits x.neg y (2 ^ lastPlace f x) ∧
    (y ≤ ⌊inUnits f x⌋ ∨ (⌈inUnits f x⌉ : ℚ) ≤ y) := by
  have hnear := magnitude_beyond_neighbour (f := f) hm b
  have hscale : ((f.dy b).m : ℚ) * 2 ^ (f.dy b).e =
      (f.dy b).m * 2 ^ ((f.dy b).e - lastPlace f x) * 2 ^ lastPlace f x := by
    rw [mul_assoc, ← zpow_add₀ two_ne_zero, sub_add_cancel]
  have hmag : (0 : ℚ) ≤ (f.dy b).m * 2 ^ ((f.dy b).e - lastPlace f x) := by positivity
  have hfloor : (0 : ℚ) ≤ ⌊inUnits f x⌋ := by
    have hpos : 0 ≤ inUnits f x := by unfold inUnits; positivity
    exact_mod_cast Int.floor_nonneg.2 hpos
  rw [Fmt.rat, mul_assoc, hscale]
  generalize ((f.dy b).m : ℚ) * 2 ^ ((f.dy b).e - lastPlace f x) = y at hnear hmag
  by_cases hneg : f.neg b = x.neg
  · exact ⟨y, by rw [hneg, signedUnits, mul_assoc], hnear⟩
  · refine ⟨-y, ?_, .inl (by linarith)⟩
    rw [Bool.eq_not.2 hneg, signedUnits]
    cases x.neg <;> simp

/-! ### What a rounding selects among the values that lie beyond the neighbours -/

section
variable {rm : Nat} {neg : Bool} {X y : ℚ} {r : Nat × Bool} (h : RoundsTo rm neg X r) (hy : y ≤ ⌊X⌋ ∨ (⌈X⌉ : ℚ) ≤ y)
include h hy

theorem RoundsTo.nearer (h0 : rm = 0) : |X - r.1| ≤ |X - y| := by
  obtain ⟨hlo, hhi⟩ := h.nearest h0
  rcases hy with hy | hy
  · exact (hlo.trans (by linarith)).trans (le_abs_self (X - y))
  · exact (hhi.trans (by linarith)).trans (neg_le_abs (X - y))

theorem RoundsTo.none_between : ¬ ((r.1 < y ∧ y < X) ∨ (X < y ∧ y < r.1) ∨ ((r.1 : ℚ) ≠ X ∧ y = X)) := by
  have hfl := Int.floor_le X
  have hcl := Int.le_ceil X
  have hN : (r.1 : ℚ) = ⌊X⌋ ∨ (r.1 : ℚ) = ⌈X⌉ := h.neighbour.imp (fun e => by exact_mod_cast e) (fun e => by exact_mod_cast e)
  have hinside : (⌊X⌋ : ℚ) ≤ r.1 ∧ (r.1 : ℚ) ≤ ⌈X⌉ := by rcases hN with e | e <;> rw [e] <;> constructor <;> linarith
  rintro (⟨h1, h2⟩ | ⟨h1, h2⟩ | ⟨hne, rfl⟩)
  · rcases hy with hy | hy <;> linarith
  · rcases hy with hy | hy <;> linarith
  · have hwhole : (⌊y⌋ : ℚ) = y ∧ (⌈y⌉ : ℚ) = y := by
      rcases hy with hy | hy
      · have hceil : (⌈y⌉ : ℚ) ≤ ⌊y⌋ := by exact_mod_cast Int.ceil_le.2 hy
        constructor <;> linarith
      · have hfloor : (⌈y⌉ : ℚ) ≤ ⌊y⌋ := by exact_mod_cast Int.le_floor.2 hy
        constructor <;> linarith
    exact hne (hN.elim (fun e => e.trans hwhole.1) (fun e => e.trans hwhole.2))

end

/-- Settles O8: in units of the last place the result is a neighbour of the exact magnitude, the one the direction picks, and no finite
value lies between the neighbours. -/
theorem roundingFollowsDirection : Obligations.RoundingFollowsDirection := by
  intro f rm x _ _ hm r v ho
  obtain ⟨hbits, hinf, hflag⟩ := round_unless_overflow rm hm ho
  have hu : (0 : ℚ) < 2 ^ lastPlace f x := by positivity
  have hr := roundedUnits_roundsTo f rm x
  have hv : v = signedUnits x.neg (roundedUnits f rm x).1 (2 ^ lastPlace f x) :=
    (congrArg (Fmt.rat f) hbits).trans (rat_result rm hm hinf)
  rw [hv, dyRat_eq_signedUnits f x]
  refine ⟨?_, fun h0 b _ => ?_, fun h1 => ?_, fun h2 => ?_, fun h3 => ?_, fun b _ => ?_, ?_⟩
  · rw [hbits]
    exact finite_signed x.neg hinf
  · obtain ⟨y, hy, hbeyond⟩ := rat_beyond_neighbour hm b
    rw [hy, abs_signedUnits_sub hu, abs_signedUnits_sub hu]
    exact mul_le_mul_of_nonneg_right (hr.nearer hbeyond h0) hu.le
  · have hX : 0 ≤ inUnits f x := by unfold inUnits; positivity
    rw [abs_signedUnits hu, abs_signedUnits hu, abs_of_nonneg hX, abs_of_nonneg (Nat.cast_nonneg _)]
    exact mul_le_mul_of_nonneg_right (hr.towardZero h1) hu.le
  · exact (signedUnits_le hu).2 (hr.down h2)
  · exact (signedUnits_le hu).2 (hr.up h3)
  · obtain ⟨y, hy, hbeyond⟩ := rat_beyond_neighbour hm b
    have hnone := hr.none_between hbeyond
    simp only [hy, signedUnits_lt hu, signedUnits_inj hu, ne_eq]
    cases x.neg
    · simpa using hnone
    · rintro (⟨h1, h2⟩ | ⟨h1, h2⟩ | h3)
      exacts [hnone (.inr (.inl ⟨h2, h1⟩)), hnone (.inl ⟨h2, h1⟩), hnone (.inr (.inr h3))]
  · rw [hflag, hr.changed, ne_eq, ne_eq, signedUnits_inj hu]

end Sys2Proof.Claims
end

section
/-!
PROOFS. O16: BRK (R147).
-/

namespace Sys2Proof.Claims
open Sys2Proof.Machine

/-- An instruction that raises a precise cause, before which nothing stands: the cause is taken at its PC (R136). -/
theorem Runs.traps {s th} (h : Runs s th) {i : Instr} {rp settle : Bool} {body : State → Out} {c : Cause}
    (hi : exec i s = .next (s.issue th rp settle body)) (hb : body (s.onThr th Thread.gretSeen) = .trap c) :
    exec i s = .next ((s.onThr th Thread.gretSeen).takeException th c (s.thr th).pc) := by
  have hg : (s.onThr th Thread.gretSeen).thr th = (s.thr th).gretSeen := State.thr_onThr_same _ _ _
  have htp : (s.thr th).gretSeen.tpend = 0 := h.noTpend
  rw [hi, h.issue, hb, State.conclude, State.takeCause, hg, if_neg (by rw [htp]; decide)]
  rfl

/-- Settles O16: BRK raises its cause at its PC, and with no halt selected the cause is entered. -/
theorem brkRaisesDebugBreak : Obligations.BrkRaisesDebugBreak := by
  intro th code s h hexl hhalt
  have hg : (s.onThr th Thread.gretSeen).thr th = (s.thr th).gretSeen := State.thr_onThr_same _ _ _
  have he := h.traps (i := .brk th code) rfl rfl
  have hh : (s.onThr th Thread.gretSeen).haltSelected th (.mk' cBreak 0 (zx code)) = false := by
    rw [haltSelected_congr (State.reg_onThr _ _ _ _)]
    simp only [State.haltSelected, hhalt, Bool.and_false, Bool.false_or]
    rfl
  rw [takeException_enters (by rw [hg]; exact hexl) hh] at he
  refine ⟨_, he, rfl, fun u hu => ?_, ?_⟩
  · rw [State.thr_onThr_other _ _ _ _ hu, State.thr_onThr_other _ _ _ _ hu]
  · have hfp : (Cause.mk' cBreak 0 (zx code)).code ≠ cFp := (by decide : cBreak ≠ cFp)
    rw [State.thr_onThr_same, hg, if_neg hfp, BitVec.ofNat_toNat]
    exact entered_enter (c := .mk' cBreak 0 (zx code)) rfl rfl rfl rfl h.noRepeat rfl

end Sys2Proof.Claims
end

section
/-!
PROOFS. O15: GRET, the return from an exception (R139) and from a gate (R146).

Choices and readings of this file: log 8, 12, 13.
-/

namespace Sys2Proof.Claims
open Sys2Proof.Machine

/-! ### The mode bits of TSTAT (Table trap-1) -/

theorem b2n_lt_two (b : Bool) : b2n b < 2 := by cases b <;> decide

theorem b2n_beq_one (b : Bool) : (b2n b == 1) = b := by cases b <;> rfl

theorem getBits_setMode (t : Thread) (m x i b : Bool) :
    getBits (t.setMode m x i b).tstat 0 1 = b2n m ∧ getBits (t.setMode m x i b).tstat 1 1 = b2n x ∧
    getBits (t.setMode m x i b).tstat 2 1 = b2n i ∧ getBits (t.setMode m x i b).tstat 3 1 = b2n b := by
  have hm := b2n_lt_two m
  have hx := b2n_lt_two x
  have hi := b2n_lt_two i
  have hb := b2n_lt_two b
  refine ⟨?_, ?_, ?_, ?_⟩
  all_goals
    rw [Thread.setMode, getBits_putBits_part _ _ _ _ _ _ (by omega) (by omega) (by omega)]
    norm_num only
    omega

@[simp] theorem setMode_kernel (t : Thread) (m x i b : Bool) : (t.setMode m x i b).kernel = m := by
  obtain ⟨hm, -, -, -⟩ := getBits_setMode t m x i b
  rw [Thread.kernel, hm, b2n_beq_one]

@[simp] theorem setMode_exl (t : Thread) (m x i b : Bool) : (t.setMode m x i b).exl = x := by
  obtain ⟨-, hx, -, -⟩ := getBits_setMode t m x i b
  rw [Thread.exl, hx, b2n_beq_one]

@[simp] theorem setMode_ie (t : Thread) (m x i b : Bool) : (t.setMode m x i b).ie = i := by
  obtain ⟨-, -, hi, -⟩ := getBits_setMode t m x i b
  rw [Thread.ie, hi, b2n_beq_one]

@[simp] theorem setMode_ss (t : Thread) (m x i b : Bool) : (t.setMode m x i b).ss = b := by
  obtain ⟨-, -, -, hb⟩ := getBits_setMode t m x i b
  rw [Thread.ss, hb, b2n_beq_one]

/-- The mode bits and the G registers are apart. -/
theorem setMode_wg_g (t : Thread) (m x i b : Bool) (d : RegIx) (v : Word) : ((t.setMode m x i b).wg d v).g = (t.wg d v).g := by
  unfold Thread.wg
  split <;> rfl

/-! ### The word a GRET reaches (R53, R90) -/

/-- A PC written: bits [1:0] are 0 (R53). -/
theorem putBits_pc (w : Word) : putBits w 0 2 0 = BitVec.ofNat 32 (w.toNat / 4 * 4) := by
  simp [putBits, Nat.mod_one]

/-- RPTC with RESUME cleared. -/
theorem putBits_resume (w : Word) : putBits w 31 1 0 = w &&& 0x7FFFFFFF := by
  apply BitVec.eq_of_toNat_eq
  have hw := w.isLt
  have hand : (w &&& 0x7FFFFFFF).toNat = w.toNat % 2 ^ 31 := Nat.and_two_pow_sub_one_eq_mod _ 31
  rw [hand, putBits, BitVec.toNat_ofNat]
  omega

theorem isPrefix_iff (w : Word) : isPrefix w = true ↔ w.toNat / 2 ^ 26 = 0x1C ∨ w.toNat / 2 ^ 26 = 0x1D := by
  have hop : wOp w = w.toNat / 2 ^ 26 := Nat.mod_eq_of_lt (by have := w.isLt; omega)
  simp only [isPrefix, hop, Bool.or_eq_true, beq_iff_eq]

/-- A thread as a GRET leaves it at its target, with what becomes of RESUME there (R90). -/
def atTarget (s : State) (th : Thr) (t : Thread) : Thread := { t with viaGret := true, rptc := rptcAt s th t.pc }

theorem gretTo_eq {s u : State} {th : Thr} (hi : u.ispace = s.ispace) (hr : (u.thr th).rptc = (s.thr th).rptc) :
    u.gretTo th = u.onThr th (fun _ => atTarget s th (u.thr th)) := by
  have hf (pc : Word) : u.ifetch th.pier.val pc = s.ifetch th.pier.val pc := by unfold State.ifetch; rw [hi]
  have hrptc : (if isPrefix (s.ifetch th.pier.val (u.thr th).pc) then (u.thr th).rptc else putBits (u.thr th).rptc 31 1 0) =
      rptcAt s th (u.thr th).pc := by
    rw [rptcAt, hr, putBits_resume]
    exact if_congr (isPrefix_iff _) rfl rfl
  rw [State.gretTo, State.onThr, State.onThr, hf, hrptc]
  rfl

/-- G registers with a stack pointer written. -/
theorem rg_wg_stack (t : Thread) (v : Word) (r : RegIx) : (t.wg 30 v).rg r = if r = 30 then v else t.rg r := by
  refine (Thread.rg_wg t 30 r v).trans (if_congr ?_ rfl rfl)
  rw [and_iff_left_iff_imp]
  rintro rfl
  decide

@[simp] theorem wg_ss (t : Thread) (d : RegIx) (v : Word) : (t.wg d v).ss = t.ss := by rw [Thread.ss, Thread.wg_tstat, Thread.ss]

/-! ### The return retires (R139, R146) -/

/-- A thread back from a handler: the mode bits restored with EXL 0, its G registers `g`, at `pc`, which GRET led to. -/
def returned (s : State) (th : Thr) (mode ie ss : Bool) (pc : Word) (g : SMap Word) (due : Option Word) : Thread :=
  { retired ((s.thr th).setMode mode false ie ss) pc with
    g := g, viaGret := true, rptc := rptcAt s th pc, stepDue := due }

theorem returned_mode (s : State) (th : Thr) (mode ie ss : Bool) (pc : Word) (g : SMap Word) (due : Option Word) :
    (returned s th mode ie ss pc g due).kernel = mode ∧ (returned s th mode ie ss pc g due).ie = ie ∧
    (returned s th mode ie ss pc g due).ss = ss ∧ (returned s th mode ie ss pc g due).exl = false :=
  ⟨setMode_kernel .., setMode_ie .., setMode_ss .., setMode_exl ..⟩

theorem returned_rg (s : State) (th : Thr) (mode ie ss : Bool) (pc : Word) (t : Thread) (due : Option Word) (r : RegIx) :
    (returned s th mode ie ss pc t.g due).rg r = t.rg r := rfl

/-- A GRET whose effect on its thread is `f` retires with it. -/
theorem Runs.gret_retires {s th} (h : Runs s th) {rp settle : Bool} {body : State → Out} {f : Thread → Thread} {n : Nat}
    {mode ie ss via : Bool} {pc : Word} {g : SMap Word} {due : Option Word}
    (hi : exec (.gret th) s = .next (s.issue th rp settle body))
    (hb : body (s.onThr th Thread.gretSeen) = .done (((s.onThr th Thread.gretSeen).onThr th f).gretTo th)
      ((((s.onThr th Thread.gretSeen).onThr th f).gretTo th).thr th).pc n)
    (hf : f (s.thr th).gretSeen =
      { (s.thr th).gretSeen.setMode mode false ie ss with pc := pc, viaGret := via, stepDue := due, g := g }) :
    ∃ t due, exec (.gret th) s = .next t ∧ OnlyThread s t th n ∧ t.thr th = returned s th mode ie ss pc g due := by
  have hx : ((s.onThr th Thread.gretSeen).onThr th f).thr th = f (s.thr th).gretSeen := by
    rw [State.thr_onThr_same, State.thr_onThr_same]
  have hto := gretTo_eq (s := s) (u := (s.onThr th Thread.gretSeen).onThr th f) (th := th) rfl (by rw [hx, hf]; rfl)
  rw [hto, hx, hf, State.thr_onThr_same] at hb
  have he := h.issue rp settle body
  rw [hb, conclude_done h.noAsync] at he
  refine ⟨_, if (s.thr th).ss then some (s.thr th).pc else due, hi, ?_, ?_⟩
  · rw [he]
    refine onlyThread_retire (((((OnlyThreadsAndRegs.refl s).onThr th _).onThr th _).onThr th _).onThr th _) (fun v hv => ?_)
      (fun a => rfl) _ _ _
    rw [State.thr_onThr_other _ _ _ _ hv, State.thr_onThr_other _ _ _ _ hv, State.thr_onThr_other _ _ _ _ hv,
      State.thr_onThr_other _ _ _ _ hv]
  · rw [he, State.thr_retire_same, State.thr_onThr_same, State.thr_onThr_same,
      retire_noRepeat (o := (s.thr th).gretSeen) (by exact h.noRepeat) h.noTpend]
    rfl

/-! ### From an exception -/

theorem getBits_bit (w : Word) (n : Nat) : getBits w n 1 = b2n (getBits w n 1 == 1) := by
  have : getBits w n 1 < 2 := getBits_lt w n 1
  interval_cases getBits w n 1 <;> rfl

theorem returnFromException_frame (t : Thread) : t.returnFromException =
    { t.setMode (getBits t.tstat 4 1 == 1) false (getBits t.tstat 5 1 == 1) (getBits t.tstat 6 1 == 1) with
      pc := BitVec.ofNat 32 (t.epc.toNat / 4 * 4), viaGret := true, g := t.returnFromException.g } := by
  have hmode : getBits t.tstat 4 1 + 4 * getBits t.tstat 5 1 + 8 * getBits t.tstat 6 1 =
      b2n (getBits t.tstat 4 1 == 1) + 2 * b2n false + 4 * b2n (getBits t.tstat 5 1 == 1) + 8 * b2n (getBits t.tstat 6 1 == 1) := by
    rw [← getBits_bit, ← getBits_bit, ← getBits_bit]
    rfl
  rw [← putBits_pc, Thread.setMode, ← hmode]
  simp only [Thread.returnFromException]
  split
  · rw [Thread.wg_frame]
  · rfl

theorem returnFromException_rg (t : Thread) (r : RegIx) : t.returnFromException.rg r =
    if r = 30 ∧ getBits t.tstat 4 1 = 0 then t.usp else t.rg r := by
  simp only [Thread.returnFromException]
  split
  · next hm =>
    rw [rg_wg_stack]
    exact if_congr (and_iff_left hm).symm rfl rfl
  · next hm =>
    rw [if_neg (fun e => hm e.2)]
    rfl

theorem gretReturnsFromException : GretReturnsFromException := by
  intro th s h hk hexl
  have hg : (s.onThr th Thread.gretSeen).thr th = (s.thr th).gretSeen := State.thr_onThr_same _ _ _
  have hk' : (s.thr th).gretSeen.kernel = true := hk
  have hexl' : (s.thr th).gretSeen.exl = true := hexl
  obtain ⟨t, due, he, ho, ht⟩ := h.gret_retires (n := 1) rfl
    (by simp only [hg, hk', hexl', Bool.not_true, Bool.false_eq_true, if_false, if_true]) (returnFromException_frame _)
  refine ⟨t, he, ho, ?_⟩
  rw [ht]
  obtain ⟨hkernel, hie, hss, hout⟩ := returned_mode s th _ _ _ _ _ due
  exact ⟨rfl, hkernel, hie, hss, hout, fun r => (returned_rg ..).trans (returnFromException_rg _ r), rfl, rfl, rfl, rfl, rfl, rfl, rfl⟩

/-! ### From a gate -/

theorem localBytes_onThr (s : State) (th : Thr) (f : Thread → Thread) (p a n : Nat) :
    localBytes (s.onThr th f) p a n = localBytes s p a n := by
  simp only [localBytes, ((OnlyThreadsAndRegs.refl s).onThr th f).localByte]

/-- A thread as the return from a gate leaves it, by the return address and the TSTAT word of its frame (R146). -/
def gateReturned (ret ts : Word) (t : Thread) : Thread :=
  let u := t.setMode (getBits ts 0 1 == 1) false (getBits ts 2 1 == 1) (getBits ts 3 1 == 1)
  let u := if u.kernel then u.wg 30 (t.rg 30 + 16) else u.wg 30 u.usp
  { u with pc := ret, stepDue := if u.ss then some (ret - 4) else u.stepDue }

theorem gateReturned_frame (ret ts : Word) (t : Thread) : gateReturned ret ts t =
    { t.setMode (getBits ts 0 1 == 1) false (getBits ts 2 1 == 1) (getBits ts 3 1 == 1) with
      pc := ret, viaGret := t.viaGret, stepDue := if getBits ts 3 1 == 1 then some (ret - 4) else t.stepDue,
      g := (t.wg 30 (if getBits ts 0 1 = 1 then t.rg 30 + 16 else t.usp)).g } := by
  rw [← setMode_wg_g]
  simp only [gateReturned, setMode_kernel, beq_iff_eq, ← apply_ite, wg_ss, setMode_ss]
  rw [Thread.wg_frame]
  rfl

theorem spadRd_eq_localBytes {a n : Nat} (ha : a < 0x10000) (hn : a + n ≤ 0x10000) (s : State) (p : Nat) :
    s.spadRd p a n = localBytes s p a n := by
  rw [← localRd_eq_localBytes (.inl hn), State.localRd, if_pos ha]

/-- A frame that passes the stack check lies in the scratchpad. -/
theorem frame_in_scratchpad {s : State} {p : Nat} {f : Word} (h : s.stackBad p f = false) : f.toNat + 16 ≤ 0x10000 := by
  simp only [State.stackBad, Bool.or_eq_false_iff, decide_eq_false_iff_not] at h
  omega

/-- The return from a gate changes its thread alone, by the words `ret` and `ts` of the frame at G30. -/
theorem gateReturn_eq {s : State} {th : Thr} {f ret ts : Word} (hf : (s.thr th).rg 30 = f) (hin : f.toNat + 16 ≤ 0x10000)
    (hret : BitVec.ofNat 32 (localBytes s th.pier.val f.toNat 4) = ret)
    (hts : BitVec.ofNat 32 (localBytes s th.pier.val (f.toNat + 4) 4) = ts) :
    s.gateReturn th = s.onThr th (gateReturned (putBits ret 0 2 0) ts) := by
  subst hf
  rw [State.gateReturn, spadRd_eq_localBytes (by omega) (by omega), spadRd_eq_localBytes (by omega) (by omega), hret, hts]
  rfl

/-- A GRET in Kernel mode with EXL 0 and a good frame retires with the words `ret` and `ts` of the frame. -/
theorem Runs.gret_gate_retires {s : State} {th : Thr} (h : Runs s th) (hk : (s.thr th).kernel = true) (hexl : (s.thr th).exl = false)
    {f ret ts : Word} (hf : (s.thr th).rg 30 = f) (hs : s.stackBad th.pier.val f = false)
    (hret : BitVec.ofNat 32 (localBytes s th.pier.val f.toNat 4) = ret)
    (hts : BitVec.ofNat 32 (localBytes s th.pier.val (f.toNat + 4) 4) = ts) :
    ∃ t due, exec (.gret th) s = .next t ∧ OnlyThread s t th 3 ∧
      t.thr th = returned s th (getBits ts 0 1 == 1) (getBits ts 2 1 == 1) (getBits ts 3 1 == 1) (putBits ret 0 2 0)
        ((s.thr th).gretSeen.wg 30 (if getBits ts 0 1 = 1 then f + 16 else (s.thr th).usp)).g due := by
  have hg : (s.onThr th Thread.gretSeen).thr th = (s.thr th).gretSeen := State.thr_onThr_same _ _ _
  have hk' : (s.thr th).gretSeen.kernel = true := hk
  have hexl' : (s.thr th).gretSeen.exl = false := hexl
  have hrg : (s.thr th).gretSeen.rg 30 = f := hf
  have hbad : (s.onThr th Thread.gretSeen).stackBad th.pier.val f = s.stackBad th.pier.val f := rfl
  have hgate : (s.onThr th Thread.gretSeen).gateReturn th =
      (s.onThr th Thread.gretSeen).onThr th (gateReturned (putBits ret 0 2 0) ts) :=
    gateReturn_eq (by rw [hg, hrg]) (frame_in_scratchpad hs) (by rw [localBytes_onThr, hret]) (by rw [localBytes_onThr, hts])
  have hframe := gateReturned_frame (putBits ret 0 2 0) ts (s.thr th).gretSeen
  rw [hrg] at hframe
  refine h.gret_retires rfl ?_ hframe
  simp only [hg, hk', hexl', hrg, hbad, hs, hgate, Bool.not_true, Bool.false_eq_true, if_false]

theorem gretReturnsFromGate : GretReturnsFromGate := by
  intro th s h hexl o p f ts
  have hg : (s.onThr th Thread.gretSeen).thr th = (s.thr th).gretSeen := State.thr_onThr_same _ _ _
  refine ⟨fun hk hs => ?_, fun hk hs => ?_, fun hk => ?_⟩
  · obtain ⟨t, due, he, ho, ht⟩ := h.gret_gate_retires hk hexl rfl hs rfl rfl
    have hlt : localBytes s p f.toNat 4 < 2 ^ 32 := localBytes_lt (.inl (by have := frame_in_scratchpad hs; omega)) s p
    rw [putBits_pc, BitVec.toNat_ofNat, Nat.mod_eq_of_lt hlt] at ht
    refine ⟨t, he, ho, ?_⟩
    rw [ht]
    obtain ⟨hkernel, hie, hss, hout⟩ := returned_mode s th _ _ _ _ _ due
    exact ⟨rfl, hkernel, hie, hss, hout, rfl, fun r => (returned_rg ..).trans (rg_wg_stack _ _ r)⟩
  · have hk' : (s.thr th).gretSeen.kernel = true := hk
    have hexl' : (s.thr th).gretSeen.exl = false := hexl
    have hbad : (s.onThr th Thread.gretSeen).stackBad th.pier.val ((s.thr th).gretSeen.rg 30) = true := hs
    refine h.takes (sub := 2) hexl (i := .gret th) rfl ?_ (by decide)
    simp only [hg, hk', hexl', hbad, Bool.not_true, Bool.false_eq_true, if_false, if_true]
    rfl
  · have hk' : (s.thr th).gretSeen.kernel = false := hk
    refine h.takes (sub := 0) hexl (i := .gret th) rfl ?_ (by decide)
    simp only [hg, hk', Bool.not_false, if_true]
    rfl

/-- Settles O15: the thread as the return from its exception or its gate leaves it, retired; or the cause of the first check that fails. -/
theorem gretReturns : Obligations.GretReturns := ⟨gretReturnsFromException, gretReturnsFromGate⟩

end Sys2Proof.Claims
end

section
/-!
PROOFS. O14: GATE, its checks in their order and its entry (R142 to R144).
-/

namespace Sys2Proof.Claims
open Sys2Proof.Machine

variable {s : State} {th : Thr} {k : BitVec 8}

/-! ### The checks -/

/-- The scratchpad address of the descriptor that GATE #k reads (R141). -/
def gateAddr (s : State) (th : Thr) (k : BitVec 8) : Nat := s.rf (Reg.PIER_GATE_BASE.BASE th.pier.val) + 32 * k.toNat

/-- The descriptor that GATE #k reads. -/
def gateDescAt (s : State) (th : Thr) (k : BitVec 8) : GateDesc := s.gateDesc th.pier.val (gateAddr s th k)

/-- The first argument of GATE #k that fails its check (R143). -/
def badGateArg (s : State) (th : Thr) (k : BitVec 8) : Option (Nat × Nat) :=
  s.gateArgs th 1 ((gateDescAt s th k).args.take (gateDescAt s th k).nargs)

/-- What GATE #k of a thread nothing stands before does: the first check that fails, or its entry (R142). -/
def gateOutcome (s : State) (th : Thr) (k : BitVec 8) : Out :=
  if min 256 (s.rf (Reg.PIER_GATE_COUNT.COUNT th.pier.val)) ≤ k.toNat ∨ 0x10000 < gateAddr s th k + 32 then
    .trap (.mk' cGateNum 1 (zx k))
  else if (gateDescAt s th k).invalid then .trap (.mk' cGateNum 2 (zx k))
  else if getBits (gateDescAt s th k).ctrl (if (s.thr th).kernel then 2 else 1) 1 = 0 then .trap (.mk' cGateMode 0 (zx k))
  else (badGateArg s th k).elim
    (if s.stackBad th.pier.val (gateSp (s.thr th)) then .trap (.mk' cStack 1 (gateSp (s.thr th)))
      else .gated ((s.onThr th Thread.gretSeen).enterGate th (gateDescAt s th k) (gateSp (s.thr th)) k) (gateDescAt s th k).handler 7)
    (fun e => .trap (.mk' cGateArg e.2 (BitVec.ofNat 32 (e.1 + 256 * k.toNat))))

theorem gateDesc_onThr (s : State) (th : Thr) (f : Thread → Thread) (p a : Nat) : (s.onThr th f).gateDesc p a = s.gateDesc p a := by
  have hrd (b n : Nat) : (s.onThr th f).spadRd p b n = s.spadRd p b n := rfl
  simp only [State.gateDesc, hrd]

theorem stackBad_onThr (s : State) (th : Thr) (f : Thread → Thread) (p : Nat) (w : Word) :
    (s.onThr th f).stackBad p w = s.stackBad p w := rfl

theorem twins_onThr (s : State) (th : Thr) (f : Thread → Thread) (p : Nat) (store : Bool) :
    (s.onThr th f).twins p store = s.twins p store := by
  have htwin : (s.onThr th f).twin p = s.twin p := rfl
  rw [State.twins, State.twins, htwin]

theorem gateArg_gretSeen (s : State) (th : Thr) (w v : Word) : (s.onThr th Thread.gretSeen).gateArg th w v = s.gateArg th w v := by
  have hk : (s.thr th).gretSeen.kernel = (s.thr th).kernel := rfl
  have hrg (r : RegIx) : (s.thr th).gretSeen.rg r = (s.thr th).rg r := rfl
  simp only [State.gateArg, State.thr_onThr_same, twins_onThr, State.onThr_grade, hk, hrg]

theorem gateArgs_gretSeen (s : State) (th : Thr) (j : Nat) (ws : List Word) :
    (s.onThr th Thread.gretSeen).gateArgs th j ws = s.gateArgs th j ws := by
  have hrg (r : RegIx) : (s.thr th).gretSeen.rg r = (s.thr th).rg r := rfl
  induction ws generalizing j with
  | nil => rfl
  | cons w rest ih => simp only [State.gateArgs, gateArg_gretSeen, State.thr_onThr_same, hrg, ih]

theorem exec_gate (s : State) (th : Thr) (k : BitVec 8) : ∃ body, exec (.gate th k) s = .next (s.issue th false true body) ∧
    body (s.onThr th Thread.gretSeen) = gateOutcome s th k := by
  refine ⟨_, rfl, ?_⟩
  have hk : (s.thr th).gretSeen.kernel = (s.thr th).kernel := rfl
  have hsp : (if (s.thr th).kernel then (s.thr th).gretSeen.rg 30 else (s.thr th).gretSeen.ksp) - 16 = gateSp (s.thr th) := rfl
  simp only [State.thr_onThr_same, State.rf_onThr, gateDesc_onThr, gateArgs_gretSeen, stackBad_onThr, hk, hsp]
  refine ite_congr rfl (fun _ => rfl) (fun _ => ite_congr rfl (fun _ => rfl) (fun _ => ite_congr rfl (fun _ => rfl) (fun _ => ?_)))
  unfold badGateArg gateDescAt gateAddr
  cases s.gateArgs th 1 _ <;> rfl

/-- A gate call that passes the checks of its descriptor and its arguments is left to the check of its stack. -/
theorem gateOutcome_of_ok (h : GateOk s th k) : gateOutcome s th k =
    if s.stackBad th.pier.val (gateSp (s.thr th)) then .trap (.mk' cStack 1 (gateSp (s.thr th)))
    else .gated ((s.onThr th Thread.gretSeen).enterGate th (gateDescAt s th k) (gateSp (s.thr th)) k) (gateDescAt s th k).handler 7 := by
  obtain ⟨hcount, hin, hvalid, hmode, harg⟩ := h
  have hvalid' : (gateDescAt s th k).invalid = false := hvalid
  have hmode' : getBits (gateDescAt s th k).ctrl (if (s.thr th).kernel then 2 else 1) 1 = 1 := hmode
  have harg' : badGateArg s th k = none := harg
  rw [gateOutcome, if_neg (by unfold gateAddr; omega), hvalid', if_neg Bool.false_ne_true, if_neg (by omega), harg']
  rfl

theorem gateChecksInOrder : GateChecksInOrder := by
  intro th k s h hexl
  obtain ⟨body, hi, hb⟩ := exec_gate s th k
  have hk : BitVec.ofNat 32 k.toNat = zx k := BitVec.ofNat_toNat 32 k
  have htable : (k.toNat < min 256 (s.rf (Reg.PIER_GATE_COUNT.COUNT th.pier.val)) ∧ gateAddr s th k + 32 ≤ 0x10000) ↔
      ¬ (min 256 (s.rf (Reg.PIER_GATE_COUNT.COUNT th.pier.val)) ≤ k.toNat ∨ 0x10000 < gateAddr s th k + 32) := by omega
  rw [hk]
  refine ⟨fun ht => ?_, fun ht hd => ?_, fun ht hd hm => ?_, fun hok hs => ?_⟩
  · exact h.takes hexl hi (hb.trans (if_pos (not_not.1 (htable.not.1 ht)))) (by decide)
  · exact h.takes hexl hi (hb.trans ((if_neg (htable.1 ht)).trans (if_pos hd))) (by decide)
  · have hd' : (gateDescAt s th k).invalid ≠ true := ne_true_of_eq_false hd
    exact h.takes hexl hi (hb.trans ((if_neg (htable.1 ht)).trans ((if_neg hd').trans (if_pos hm)))) (by decide)
  · exact h.takes hexl hi (hb.trans ((gateOutcome_of_ok hok).trans (if_pos hs))) (by decide)

/-! ### The entry -/

/-- A gate call retires without a step of its own falling due (R146, R148). -/
theorem conclude_gated (ha : s.asyncDue th = none) (u : State) (npc : Word) (n : Nat) :
    (s.onThr th Thread.gretSeen).conclude th (.gated u npc n) =
      (u.onThr th Thread.commitProduct).retire th { (s.thr th).gretSeen with tstat := 0 } npc n := by
  simp [State.conclude, asyncDue_gretSeen, ha]

/-- A thread as the entry of a gate leaves it, before its PC (R144). -/
def gateEntered (d : GateDesc) (sp : Word) (t : Thread) : Thread :=
  let u := if t.kernel then t else { t with usp := t.rg 30 }
  (u.wg 30 sp).setMode true u.exl (getBits d.ctrl 6 1 == 1) false

theorem gateEntered_frame (d : GateDesc) (sp : Word) (t : Thread) : gateEntered d sp t =
    { t.setMode true t.exl (getBits d.ctrl 6 1 == 1) false with
      usp := if t.kernel then t.usp else t.rg 30, g := (t.wg 30 sp).g } := by
  unfold gateEntered
  split <;> rw [Thread.wg_frame] <;> rfl

/-- The frame that a gate call writes (Table trap-6): the return address, TSTAT, the gate's number. -/
def gateFrame (o : Thread) (k : BitVec 8) : Nat := (o.pc + 4).toNat + o.tstat.toNat * 2 ^ 32 + k.toNat * 2 ^ 64

theorem enterGate_eq (s : State) (th : Thr) (d : GateDesc) (sp : Word) (k : BitVec 8) : s.enterGate th d sp k =
    (s.spadWr th.pier.val sp.toNat 16 (gateFrame (s.thr th) k)).onThr th (gateEntered d sp) := rfl

/-- A thread in the handler of a gate: Kernel mode, EXL as before, IE from the descriptor, its G registers `g` and USP `usp`. -/
def inHandler (o : Thread) (ie : Bool) (pc usp : Word) (g : SMap Word) : Thread :=
  { retired (o.setMode true o.exl ie false) pc with usp := usp, g := g, stepDue := o.stepDue }

theorem inHandler_mode (o : Thread) (ie : Bool) (pc usp : Word) (g : SMap Word) :
    (inHandler o ie pc usp g).kernel = true ∧ (inHandler o ie pc usp g).exl = o.exl ∧
    (inHandler o ie pc usp g).ie = ie ∧ (inHandler o ie pc usp g).ss = false :=
  ⟨setMode_kernel .., setMode_exl .., setMode_ie .., setMode_ss ..⟩

theorem inHandler_rg (o t : Thread) (ie : Bool) (pc usp : Word) (r : RegIx) : (inHandler o ie pc usp t.g).rg r = t.rg r := rfl

theorem retire_gateEntered {o : Thread} (hrep : o.rep = none) (htp : o.tpend = 0) (d : GateDesc) (sp npc : Word) :
    (gateEntered d sp o.gretSeen).commitProduct.retire { o.gretSeen with tstat := 0 } npc =
      inHandler o (getBits d.ctrl 6 1 == 1) npc (if o.kernel then o.usp else o.rg 30) (o.gretSeen.wg 30 sp).g := by
  have hss : ({ o.gretSeen with tstat := 0 } : Thread).ss = false := by
    show (getBits 0 3 1 == 1) = false
    decide
  rw [gateEntered_frame, retire_noRepeat (by exact hrep) (by exact htp), hss]
  generalize (o.gretSeen.wg 30 sp).g = g
  rfl

/-! ### Bytes of a stored value -/

theorem sum_bytes (v n : Nat) : ((List.range n).map (fun k => v / 256 ^ k % 256 * 256 ^ k)).sum = v % 256 ^ n := by
  induction n with
  | zero => simp [Nat.mod_one]
  | succ n ih =>
    rw [List.range_succ, List.map_append, List.sum_append, ih, Nat.mod_pow_succ]
    simp [Nat.mul_comm]

/-- A part of the bytes of `v` at `a`, read back. -/
theorem localBytes_of_bytes {t : State} {p a n v : Nat} (h : ∀ j < n, localByte t p (a + j) = BitVec.ofNat 8 (v / 256 ^ j))
    {i m : Nat} (hm : i + m ≤ n) : localBytes t p (a + i) m = v / 256 ^ i % 256 ^ m := by
  rw [← sum_bytes, localBytes]
  refine congrArg List.sum (List.map_congr_left fun j hj => ?_)
  have hj' := List.mem_range.1 hj
  rw [Nat.add_assoc, h _ (by omega), BitVec.toNat_ofNat, Nat.pow_add, Nat.div_div_eq_div_mul]

theorem gateFrame_words (o : Thread) (k : BitVec 8) : gateFrame o k / 256 ^ 0 % 256 ^ 4 = (o.pc + 4).toNat ∧
    gateFrame o k / 256 ^ 4 % 256 ^ 4 = o.tstat.toNat ∧ gateFrame o k / 256 ^ 8 % 256 ^ 8 = k.toNat := by
  have hpc := (o.pc + 4).isLt
  have hts := o.tstat.isLt
  have hk := k.isLt
  unfold gateFrame
  norm_num only
  omega

/-- What differs in threads and registers alone from a device with a scratchpad written. -/
theorem OnlyThreadsAndRegs.eq_of_spadWr {t : State} {p a n v : Nat} (h : OnlyThreadsAndRegs (s.spadWr p a n v) t) :
    t = { s with threads := t.threads, io := t.io, spad := t.spad } := by
  obtain ⟨threads, io, rfl⟩ := h
  rfl

/-- A gate call whose checks hold retires in its handler, its frame stored. -/
theorem Runs.gate_enters (h : Runs s th) (hok : GateOk s th k) {sp : Word} (hsp : gateSp (s.thr th) = sp)
    (hs : s.stackBad th.pier.val sp = false) {d : GateDesc} (hd : gateDescAt s th k = d) :
    ∃ t, exec (.gate th k) s = .next t ∧
      OnlyThreadsAndRegs (s.spadWr th.pier.val sp.toNat 16 (gateFrame (s.thr th) k)) t ∧ (∀ u, u ≠ th → t.thr u = s.thr u) ∧
      t.thr th = inHandler (s.thr th) (getBits d.ctrl 6 1 == 1) d.handler
        (if (s.thr th).kernel then (s.thr th).usp else (s.thr th).rg 30) ((s.thr th).gretSeen.wg 30 sp).g := by
  obtain ⟨body, hi, hb⟩ := exec_gate s th k
  have hthr (p a n v : Nat) (x : State) (u : Thr) : (x.spadWr p a n v).thr u = x.thr u := rfl
  have hframe : gateFrame (s.thr th).gretSeen k = gateFrame (s.thr th) k := rfl
  rw [gateOutcome_of_ok hok, hsp, hs, if_neg Bool.false_ne_true, hd, enterGate_eq, State.thr_onThr_same, hframe] at hb
  refine ⟨_, hi, ?_⟩
  rw [h.issue, hb, conclude_gated h.noAsync]
  refine ⟨?_, fun u hu => ?_, ?_⟩
  · refine OnlyThreadsAndRegs.retire (OnlyThreadsAndRegs.onThr (OnlyThreadsAndRegs.onThr ?_ th _) th _) th _ _ _
    exact ⟨(s.onThr th Thread.gretSeen).threads, s.io, rfl⟩
  · rw [State.thr_retire_other _ _ _ _ _ _ hu, State.thr_onThr_other _ _ _ _ hu, State.thr_onThr_other _ _ _ _ hu, hthr,
      State.thr_onThr_other _ _ _ _ hu]
  · rw [State.thr_retire_same, State.thr_onThr_same, State.thr_onThr_same, hthr, State.thr_onThr_same,
      retire_gateEntered h.noRepeat h.noTpend]

theorem gateEntersHandler : GateEntersHandler := by
  intro th k s h hok hs
  obtain ⟨t, he, honly, hother, ht⟩ := h.gate_enters hok rfl hs rfl
  have hin := frame_in_scratchpad hs
  have hbyte (q x : Nat) (hx : x < 0x11000) : localByte t q x =
      if q = th.pier.val ∧ (gateSp (s.thr th)).toNat ≤ x ∧ x < (gateSp (s.thr th)).toNat + 16 then
        BitVec.ofNat 8 (gateFrame (s.thr th) k / 256 ^ (x - (gateSp (s.thr th)).toNat)) else localByte s q x := by
    have hwr := localByte_localWr (.inl hin) hx s th.pier.val q (gateFrame (s.thr th) k)
    rwa [State.localWr, if_pos (by omega), ← honly.localByte] at hwr
  have hframe (j : Nat) (hj : j < 16) : localByte t th.pier.val ((gateSp (s.thr th)).toNat + j) =
      BitVec.ofNat 8 (gateFrame (s.thr th) k / 256 ^ j) := by
    rw [hbyte _ _ (by omega), if_pos (by omega), Nat.add_sub_cancel_left]
  obtain ⟨hret, hts, hnum⟩ := gateFrame_words (s.thr th) k
  refine ⟨t, he, honly.eq_of_spadWr, ?_⟩
  rw [ht]
  obtain ⟨hkernel, hexl, hie, hss⟩ := inHandler_mode (s.thr th) _ _ _ _
  refine ⟨rfl, hkernel, hexl, hie, hss, rfl, fun r => (inHandler_rg ..).trans (rg_wg_stack _ _ r), rfl, rfl, rfl, rfl, rfl, rfl,
    ?_, ?_, ?_, fun q x hx hout => (hbyte q x hx).trans (if_neg hout), hother⟩
  · exact (localBytes_of_bytes hframe (i := 0) (m := 4) (by decide)).trans hret
  · exact (localBytes_of_bytes hframe (i := 4) (m := 4) (by decide)).trans hts
  · exact (localBytes_of_bytes hframe (i := 8) (m := 8) (by decide)).trans hnum

/-- Settles O14: the checks in their order by the outcome of the call, the entry by the frame stored and the thread retired. -/
theorem gateEntersOrRefuses : Obligations.GateEntersOrRefuses := ⟨gateEntersHandler, gateChecksInOrder⟩

end Sys2Proof.Claims
end

section
/-!
PROOFS. The job of a Span after a step of it: completed groups leave from the front, the next element's fault is noted, and of the
registers SPAN_POS and SPAN_INFLIGHT_PEAK follow. Every command of a Span ends in `State.setJob`, so what it leaves of a group, of the
stores and of the rest of the device is said once here.
-/

namespace Sys2Proof.Machine
open Sys2Proof.Claims

/-! ### One Span's job -/

@[simp] theorem State.span_setSpan_same (s : State) (q : Nat) (v : Option SJob) : (s.setSpan q v).span q = v := SMap.get_set_same _ _ _ _

theorem State.span_setSpan_other (s : State) {p q : Nat} (v : Option SJob) (h : p ≠ q) : (s.setSpan q v).span p = s.span p :=
  SMap.get_set_other _ _ _ _ _ _ h

@[simp] theorem State.rf_setSpan (s : State) (q : Nat) (v : Option SJob) (f : Fd) : (s.setSpan q v).rf f = s.rf f := rfl

@[simp] theorem State.span_wf (s : State) (f : Fd) (v q : Nat) : (s.wf f v).span q = s.span q := rfl

/-- A running job is the Span's, not ended and not aborting. -/
theorem State.running_eq_some {s : State} {q : Nat} {j : SJob} :
    s.running q = some j ↔ s.span q = some j ∧ j.ended = none ∧ j.aborting = false := by
  simp [State.running, Option.filter_eq_some_iff]

/-! ### Changes in the Spans' jobs and in registers -/

/-- `t` differs from `s` in the jobs of the Spans and in registers alone. -/
def SpansAndRegs (s t : State) : Prop := ∃ spans io, t = { s with spans := spans, io := io }

section
variable {s t : State}

theorem SpansAndRegs.refl (s : State) : SpansAndRegs s s := ⟨s.spans, s.io, rfl⟩

theorem SpansAndRegs.setSpan (h : SpansAndRegs s t) (q : Nat) (v : Option SJob) : SpansAndRegs s (t.setSpan q v) := by
  obtain ⟨spans, io, rfl⟩ := h
  exact ⟨_, io, rfl⟩

theorem SpansAndRegs.wf (h : SpansAndRegs s t) (f : Fd) (v : Nat) : SpansAndRegs s (t.wf f v) := by
  obtain ⟨spans, io, rfl⟩ := h
  exact ⟨spans, _, rfl⟩

theorem SpansAndRegs.ite {u : State} {c : Prop} [Decidable c] (ht : SpansAndRegs s t) (hu : SpansAndRegs s u) :
    SpansAndRegs s (if c then t else u) := by
  split <;> assumption

theorem SpansAndRegs.onlyCheck (h : SpansAndRegs s t) : s.OnlyCheck t := by
  obtain ⟨spans, io, rfl⟩ := h
  exact ⟨rfl, rfl, rfl, rfl, rfl, rfl, rfl⟩

theorem SpansAndRegs.slot (h : SpansAndRegs s t) (k : Nat) : t.slot k = s.slot k := by
  obtain ⟨spans, io, rfl⟩ := h
  rfl

end

/-! ### Groups of a job -/

section
variable (j : SJob)

/-- What the steps that touch groups alone leave of a job. -/
structure GroupsOnly (j j' : SJob) : Prop where
  flags : j'.flags = j.flags
  stores : j'.stores = j.stores
  next : j'.next = j.next
  desc : j'.desc = j.desc
  sdt : j'.sdt = j.sdt

theorem SJob.mem_onGroup {g : SGroup} (hg : g ∈ j.groups) (h : SGroup → SGroup) : h g ∈ (j.onGroup g.first h).groups :=
  List.mem_map.2 ⟨g, hg, if_pos rfl⟩

theorem SJob.groupsOnly_onGroup (f : Nat) (h : SGroup → SGroup) : GroupsOnly j (j.onGroup f h) := ⟨rfl, rfl, rfl, rfl, rfl⟩

theorem GroupsOnly.trans {j k l : SJob} (h : GroupsOnly j k) (h' : GroupsOnly k l) : GroupsOnly j l :=
  ⟨h'.flags.trans h.flags, h'.stores.trans h.stores, h'.next.trans h.next, h'.desc.trans h.desc, h'.sdt.trans h.sdt⟩

theorem SJob.groupsOnly_trim (fuel : Nat) : GroupsOnly j (j.trim fuel) := by
  induction fuel generalizing j with
  | zero => exact ⟨rfl, rfl, rfl, rfl, rfl⟩
  | succ fuel ih =>
    unfold SJob.trim
    split
    · exact ⟨rfl, rfl, rfl, rfl, rfl⟩
    · split
      · obtain ⟨hflags, hstores, hnext, hdesc, hsdt⟩ := ih _
        exact ⟨hflags, hstores, hnext, hdesc, hsdt⟩
      · exact ⟨rfl, rfl, rfl, rfl, rfl⟩

/-- A group that is not complete stays. -/
theorem SJob.mem_trim (fuel : Nat) {g : SGroup} (hg : g ∈ j.groups) (hopen : j.complete g = false) : g ∈ (j.trim fuel).groups := by
  induction fuel generalizing j with
  | zero => exact hg
  | succ fuel ih =>
    unfold SJob.trim
    split
    · exact hg
    · next x t hgroups =>
      split
      · next hx =>
        refine ih _ ?_ hopen
        rw [hgroups] at hg
        refine (List.mem_cons.1 hg).resolve_left fun e => ?_
        rw [← e, hopen] at hx
        exact Bool.false_ne_true hx
      · exact hg

/-- A job whose first group is not complete is left as it is. -/
theorem SJob.trim_of_open (fuel : Nat) {g : SGroup} {t : List SGroup} (hg : j.groups = g :: t) (hopen : j.complete g = false) :
    j.trim fuel = j := by
  cases fuel with
  | zero => rfl
  | succ fuel =>
    unfold SJob.trim
    split
    · rfl
    · next x t' hx =>
      rw [hg] at hx
      injection hx with hx _
      rw [← hx, hopen, if_neg Bool.false_ne_true]

theorem SJob.groupsOnly_note : GroupsOnly j j.note := by
  unfold SJob.note
  split
  · exact ⟨rfl, rfl, rfl, rfl, rfl⟩
  · exact j.groupsOnly_onGroup _ _

/-- Noting changes nothing of a group but its fault, and that only where there was none. -/
theorem SJob.noteGroup_eq (g : SGroup) : ∃ f, j.noteGroup g = { g with fault := f } ∧ (g.fault ≠ none → f = g.fault) := by
  unfold SJob.noteGroup
  dsimp only
  split
  · next h =>
    refine ⟨_, rfl, fun hf => absurd ?_ hf⟩
    simp only [Bool.and_eq_true, Option.isNone_iff_eq_none] at h
    obtain ⟨⟨⟨hnone, -⟩, -⟩, -⟩ := h
    exact hnone
  · exact ⟨g.fault, rfl, fun _ => rfl⟩

theorem SJob.mem_note {g : SGroup} (hg : g ∈ j.groups) :
    ∃ f, { g with fault := f } ∈ j.note.groups ∧ (g.fault ≠ none → f = g.fault) := by
  unfold SJob.note
  split
  · exact ⟨g.fault, hg, fun _ => rfl⟩
  · next c hc =>
    by_cases hf : g.first = c.first
    · obtain ⟨f, he, hkeep⟩ := j.noteGroup_eq g
      refine ⟨f, ?_, hkeep⟩
      rw [← he, ← hf]
      exact j.mem_onGroup hg _
    · exact ⟨g.fault, List.mem_map.2 ⟨g, hg, if_neg hf⟩, fun _ => rfl⟩

end

/-! ### The job replaced after a step -/

section
variable (s : State) (q : Nat) (j : SJob) (extra : Nat)

/-- The two registers that follow a step. -/
theorem State.setJob_updates : ∃ pos peak, s.setJob q j extra =
    ((s.setSpan q (some (j.trim 16).note)).wf (Reg.SPAN_POS.INDEX q) pos).wf (Reg.SPAN_INFLIGHT_PEAK.PEAK q) peak := ⟨_, _, rfl⟩

@[simp] theorem State.span_setJob_same : (s.setJob q j extra).span q = some (j.trim 16).note := by
  obtain ⟨pos, peak, h⟩ := s.setJob_updates q j extra
  rw [h, State.span_wf, State.span_wf, State.span_setSpan_same]

theorem State.span_setJob_other {p : Nat} (hne : p ≠ q) : (s.setJob q j extra).span p = s.span p := by
  obtain ⟨pos, peak, h⟩ := s.setJob_updates q j extra
  rw [h, State.span_wf, State.span_wf, State.span_setSpan_other _ _ hne]

theorem State.reg_setJob_other {a : Nat} (hpos : a ≠ Reg.SPAN_POS_at q) (hpeak : a ≠ Reg.SPAN_INFLIGHT_PEAK_at q) :
    (s.setJob q j extra).reg a = s.reg a := by
  obtain ⟨pos, peak, h⟩ := s.setJob_updates q j extra
  rw [h, State.reg_wf_other _ _ _ _ hpeak, State.reg_wf_other _ _ _ _ hpos]
  rfl

end

/-- Nothing of the device but the Spans' jobs and registers changes. -/
theorem SpansAndRegs.setJob {s t : State} (h : SpansAndRegs s t) (q : Nat) (j : SJob) (extra : Nat) :
    SpansAndRegs s (t.setJob q j extra) := by
  obtain ⟨pos, peak, he⟩ := t.setJob_updates q j extra
  rw [he]
  exact ((h.setSpan q _).wf _ _).wf _ _

/-- A group of the job that is not complete is there after the step, its fault noted where it had none. -/
theorem spanNow_setJob (s : State) (q : QIx) (j : SJob) (extra : Nat) {g g' : SGroup} {P : SJob → SGroup → Prop}
    (hmem : g' ∈ j.groups) (hfirst : g'.first = g.first) (hopen : j.complete g' = false)
    (hP : ∀ j' f, GroupsOnly j j' → (g'.fault ≠ none → f = g'.fault) → P j' { g' with fault := f }) :
    SpanNow (s.setJob q.val j extra) q g P := by
  obtain ⟨f, hnoted, hkeep⟩ := (j.trim 16).mem_note (j.mem_trim 16 hmem hopen)
  exact ⟨_, _, State.span_setJob_same _ _ _ _, hnoted, hfirst, hP _ f ((j.groupsOnly_trim 16).trans (SJob.groupsOnly_note _)) hkeep⟩

/-- A group with an element still to come is not complete. -/
theorem SJob.complete_of_nxt_lt {j : SJob} {g : SGroup} (h : g.nxt < g.n) : j.complete g = false := by
  have hne : (g.nxt == g.n) = false := beq_false_of_ne (Nat.ne_of_lt h)
  simp [SJob.complete, hne]

theorem SJob.complete_of_fault {j : SJob} {g : SGroup} (h : g.fault ≠ none) : j.complete g = false := by
  cases hf : g.fault with
  | none => exact absurd hf h
  | some c => simp [SJob.complete, hf]

/-- A group with a store outstanding is not complete. -/
theorem SJob.complete_of_store {j : SJob} {g : SGroup} {t : SStore} (ht : t ∈ j.stores) (hf : t.first = g.first) :
    j.complete g = false := by
  have hany : j.stores.any (fun t => t.first == g.first) = true := List.any_eq_true.2 ⟨t, ht, beq_iff_eq.2 hf⟩
  simp [SJob.complete, hany]

end Sys2Proof.Machine
end

section
/-!
PROOFS. O20. An operation on one element: each row of Tables job-4 to job-6 is one element of `State.spanOp`; the element's result is
chained, stored, or passed over, and its flags join the job's (R160, R163, R185, R191).
-/

namespace Sys2Proof.Machine
open Sys2Proof.Claims

/-! ### The rows -/

/-- Each operation is `State.spanOp` of its OPC and its result; VTLI takes a free value first. -/
theorem exec_spanOpRow (q : QIx) (s : State) :
    ∀ e ∈ spanOpRows, ∃ t, (t = s ∨ t = s.takeFree.2) ∧ exec (e.1 q) s = .next (t.spanOp q e.2.1 e.2.2) := by
  have hrow {i : Instr} {opc : Nat} {f f' : SEnv → Fr} (hi : exec i s = .next (s.spanOp q opc f')) (hf : f' = f) :
      ∃ t, (t = s ∨ t = s.takeFree.2) ∧ exec i s = .next (t.spanOp q opc f) := ⟨s, .inl rfl, hf ▸ hi⟩
  have hbit (n k : Nat) : (n / 2 ^ k % 2 == 1) = n.testBit k := (Nat.testBit_eq_decide_div_mod_eq).symm
  simp only [spanOpRows, List.forall_mem_cons, List.not_mem_nil, false_imp_iff, implies_true, and_true]
  refine ⟨?vadd, ?vsub, ?vmul, ?vfma, ?vfms, ?vfnma, ?vcmul, ?vbfly, ?vcabs2, ?vmov, ?viadd, ?visub, ?vimul, ?vand, ?vor, ?vxor,
    ?vshl, ?vshr, ?vmin, ?vmax, ?vabs, ?vneg, ?vcmp, ?vsel, ?vcvt, ?viota, ?vtli, ?vlut⟩
  case vbfly => exact hrow rfl (funext fun e => by rw [← hbit, ← hbit, Nat.pow_zero, Nat.div_one, Nat.pow_one])
  case vsel => exact hrow rfl (funext fun e => by simp only [plain, ne_eq, ite_not])
  case vcvt => exact hrow rfl (funext fun e => by rw [← hbit]; rfl)
  case vtli => exact ⟨_, .inr rfl, rfl⟩
  all_goals exact hrow rfl rfl

/-! ### The element -/

/-- The job with an element's flags joined (R191), and an out-of-range index noted or not (R176). -/
def SJob.joined (j : SJob) (range : Bool) (fl : Nat) : SJob := { j with indexRange := range, flags := j.flags ||| fl }

section
variable (j : SJob) (g : SGroup) (ss : List SStream) (r : Fr)

/-- What one instruction of an element leaves of a job. -/
theorem SJob.computed_eq : ∃ b, j.computed g ss r =
    if r.flags &&& jFen j.desc ≠ 0 then (j.joined b r.flags).onGroup g.first (fun g => { g with fault := some (0xE, none) })
    else if g.pos + 1 < g.ins.length then
      (j.joined b r.flags).onGroup g.first (fun g => { g with pos := g.pos + 1, chain := g.chain ++ [r.bits] })
    else
      (match g.target j.sdt ss with
        | some t => (j.joined b r.flags).issue g g.nxt t.1 t.2 r.bits
        | none => j.joined b r.flags).onGroup g.first (fun g => g.advance ss) := by
  unfold SJob.computed SJob.raise
  split
  · refine ⟨true, ?_⟩
    by_cases hf : r.flags &&& jFen j.desc ≠ 0
    · simp only [if_pos hf]
      exact if_pos hf
    · simp only [if_neg hf]
      rfl
  · refine ⟨j.indexRange, ?_⟩
    by_cases hf : r.flags &&& jFen j.desc ≠ 0
    · simp only [if_pos hf]
      exact if_pos hf
    · simp only [if_neg hf]
      rfl

end

/-- The group a job is at is one of its own, without a fault and with an element to come. -/
theorem SJob.at_eq_some {j : SJob} {opc : Nat} {g : SGroup} {i : SIns} (h : j.at opc = some (g, i)) :
    g ∈ j.groups ∧ g.fault = none ∧ g.nxt < g.n := by
  unfold SJob.at at h
  dsimp only at h
  split at h
  · cases h
  · next c hc =>
    have hmem := List.mem_of_find?_eq_some hc
    have hcur := List.find?_some hc
    split at h
    · next hready =>
      cases h
      simp only [Bool.and_eq_true, Option.isNone_iff_eq_none] at hready
      obtain ⟨⟨⟨hnone, -⟩, -⟩, -⟩ := hready
      simp only [hnone, Option.isSome_none, Bool.false_or, decide_eq_true_eq] at hcur
      exact ⟨hmem, hnone, hcur⟩
    · cases h

/-! ### The operation -/

/-- An operation of a Span changes its job, registers, and the counter of free values. -/
theorem onlySpan_setJob {s t : State} (ht : t = s ∨ t = s.takeFree.2) (q : QIx) (j : SJob) (extra : Nat) :
    OnlySpan s (t.setJob q.val j extra) q := by
  have hsame : (∀ p, t.span p = s.span p) ∧ (∀ a, t.reg a = s.reg a) := by
    obtain rfl | rfl := ht
    · exact ⟨fun _ => rfl, fun _ => rfl⟩
    · exact ⟨fun _ => rfl, fun _ => rfl⟩
  obtain ⟨hspans, hregs⟩ := hsame
  refine ⟨?_, fun p hp => ?_, fun a hpos hpeak => ?_⟩
  · have h : SpansAndRegs t (t.setJob q.val j extra) := (SpansAndRegs.refl t).setJob q.val j extra
    generalize t.setJob q.val j extra = u at h ⊢
    obtain ⟨spans, io, rfl⟩ := h
    obtain rfl | rfl := ht
    · rfl
    · rfl
  · rw [State.span_setJob_other _ _ _ _ (fun e => hp (Fin.ext e)), hspans]
  · rw [State.reg_setJob_other _ _ _ _ hpos hpeak, hregs]

/-- An element computed where its instruction is next. -/
theorem State.spanOp_eq {s : State} {q : QIx} {j : SJob} {opc : Nat} {g : SGroup} {i : SIns} (hj : s.running q.val = some j)
    (hat : j.at opc = some (g, i)) (f : SEnv → Fr) :
    s.spanOp q opc f =
      s.setJob q.val (j.computed g (groupStreams j.sdt g.sins) (f (spanEnv j g i (Config.freeNat s.free)))) 0 := by
  unfold State.spanOp
  rw [hj]
  dsimp only
  rw [hat]
  rfl

section
variable (s : State) (q : QIx) {j : SJob} {g : SGroup} {ss : List SStream} {r : Fr}

/-- A flag in FEN is the fault FP (R191). -/
theorem spanNow_computed_of_fen (hg : g ∈ j.groups) (hf : r.flags &&& jFen j.desc ≠ 0) :
    SpanNow (s.setJob q.val (j.computed g ss r) 0) q g (fun j' g' =>
      g'.fault = some (0xE, none) ∧ j'.flags = j.flags ||| r.flags ∧ j'.stores = j.stores) := by
  obtain ⟨b, hb⟩ := j.computed_eq g ss r
  rw [hb, if_pos hf]
  have hfault : (some (0xE, none) : Option (Nat × Option Nat)) ≠ none := Option.some_ne_none _
  refine spanNow_setJob s q _ 0 (SJob.mem_onGroup (j.joined b r.flags) hg _) rfl (SJob.complete_of_fault hfault) ?_
  intro j' f hsame hkeep
  exact ⟨hkeep hfault, hsame.flags, hsame.stores⟩

/-- Within a group the result is chained (R160). -/
theorem spanNow_computed_of_chain (hg : g ∈ j.groups) (hlt : g.nxt < g.n) (hf : r.flags &&& jFen j.desc = 0)
    (hpos : g.pos + 1 < g.ins.length) :
    SpanNow (s.setJob q.val (j.computed g ss r) 0) q g (fun j' g' =>
      g'.pos = g.pos + 1 ∧ g'.nxt = g.nxt ∧ g'.chain = g.chain ++ [r.bits] ∧ j'.flags = j.flags ||| r.flags ∧ j'.stores = j.stores) := by
  obtain ⟨b, hb⟩ := j.computed_eq g ss r
  rw [hb, if_neg (not_not.2 hf), if_pos hpos]
  refine spanNow_setJob s q _ 0 (SJob.mem_onGroup (j.joined b r.flags) hg _) rfl (SJob.complete_of_nxt_lt hlt) ?_
  intro j' f hsame _
  exact ⟨rfl, rfl, rfl, hsame.flags, hsame.stores⟩

/-- At the group's end the result of an active element is stored (R163). -/
theorem spanNow_computed_of_store (hg : g ∈ j.groups) (hf : r.flags &&& jFen j.desc = 0) (hpos : g.pos + 1 = g.ins.length)
    {off n : Nat} (ht : g.target j.sdt ss = some (off, n)) :
    SpanNow (s.setJob q.val (j.computed g ss r) 0) q g (fun j' g' =>
      g'.pos = 0 ∧ g'.nxt = g.nxt + 1 ∧ g'.chain = [] ∧ j'.flags = j.flags ||| r.flags ∧
        j'.stores = j.stores ++ [⟨g.first, g.nxt, off, n, r.bits % 2 ^ (8 * n)⟩]) := by
  obtain ⟨b, hb⟩ := j.computed_eq g ss r
  rw [hb, if_neg (not_not.2 hf), if_neg (by omega), ht]
  refine spanNow_setJob s q _ 0 (SJob.mem_onGroup ((j.joined b r.flags).issue g g.nxt off n r.bits) hg _) rfl
    (SJob.complete_of_store (List.mem_append_right _ (List.mem_singleton.2 rfl)) rfl) ?_
  intro j' f hsame _
  exact ⟨rfl, rfl, rfl, hsame.flags, hsame.stores⟩

/-- At the group's end an element that makes no store is passed over. -/
theorem spanNow_computed_of_no_store (hg : g ∈ j.groups) (hf : r.flags &&& jFen j.desc = 0) (hpos : g.pos + 1 = g.ins.length)
    (ht : g.target j.sdt ss = none) (hlt : g.nxt + 1 < g.n) :
    SpanNow (s.setJob q.val (j.computed g ss r) 0) q g (fun j' g' =>
      g'.pos = 0 ∧ g'.nxt = g.nxt + 1 ∧ g'.chain = [] ∧ j'.flags = j.flags ||| r.flags ∧ j'.stores = j.stores) := by
  obtain ⟨b, hb⟩ := j.computed_eq g ss r
  rw [hb, if_neg (not_not.2 hf), if_neg (by omega), ht]
  refine spanNow_setJob s q _ 0 (SJob.mem_onGroup (j.joined b r.flags) hg _) rfl (SJob.complete_of_nxt_lt hlt) ?_
  intro j' f hsame _
  exact ⟨rfl, rfl, rfl, hsame.flags, hsame.stores⟩

end

/-- Settles O20: by its row each operation is one element of `State.spanOp`, and by its flags, its place in the group and its store one of the
four cases of `SJob.computed_eq`. -/
theorem spanOperationsComputeElements : Obligations.SpanOperationsComputeElements := by
  intro q s j g i hj e he hat
  obtain ⟨hg, -, hlt⟩ := SJob.at_eq_some hat
  obtain ⟨t, ht, hexec⟩ := exec_spanOpRow q s e he
  have htj : t.running q.val = some j := by
    obtain rfl | rfl := ht
    · exact hj
    · exact hj
  rw [State.spanOp_eq htj hat] at hexec
  refine ⟨Config.freeNat t.free, _, hexec, onlySpan_setJob ht q _ 0, ?fault, ?chain, ?store, ?pass⟩
  case fault => exact spanNow_computed_of_fen t q hg
  case chain => exact spanNow_computed_of_chain t q hg hlt
  case store => exact fun off n hf hpos => spanNow_computed_of_store t q hg hf hpos
  case pass => exact spanNow_computed_of_no_store t q hg

end Sys2Proof.Machine
end

section
/-!
PROOFS. The returned loads of a group: a load put in or dropped by a squash, the conflicts a job finds, the beat of an element, and a
group nothing has returned for (R158, R163, R166, R168, R169, R206).
-/

namespace Sys2Proof.Machine
open Sys2Proof.Claims

/-! ### Returned loads -/

/-- A look-up by key after an entry is put in its key's place. -/
theorem SMap.find?_insert_erase {α : Type} (m : SMap α) (k i : Nat) (v : α) :
    (SMap.insert (SMap.erase m k) k v).find? (fun e => e.1 == i) = if i = k then some (k, v) else m.find? (fun e => e.1 == i) := by
  have hins (l : SMap α) (hl : ∀ e ∈ l, e.1 ≠ k) : (SMap.insert l k v).find? (fun e => e.1 == i) =
      if i = k then some (k, v) else l.find? (fun e => e.1 == i) := by
    induction l with
    | nil =>
      by_cases hik : i = k
      · simp [SMap.insert, hik]
      · simp [SMap.insert, hik, Ne.symm hik]
    | cons x t ih =>
      have hx : x.1 ≠ k := hl x (by simp)
      have ht := ih (fun e he => hl e (by simp [he]))
      by_cases hlt : k < x.1
      · by_cases hik : i = k
        · simp [SMap.insert, hlt, hik]
        · simp [SMap.insert, hlt, hik, Ne.symm hik]
      · rw [SMap.insert, if_neg hlt, List.find?_cons, List.find?_cons, ht]
        by_cases hik : i = k
        · simp only [hik, if_true, beq_false_of_ne hx]
        · simp [hik]
  rw [hins _ (fun e he => ((SMap.mem_erase m k e).1 he).2)]
  split
  · rfl
  · next hne =>
    rw [SMap.erase, List.find?_filter]
    congr 1
    funext e
    by_cases he : e.1 = i
    · simp [he, hne]
    · simp [he]

section
variable (g : SGroup)

/-- A load put in reads as put in, and the stream's others as before. -/
theorem SGroup.gotAt_putGot (u k m : Nat) (v : SGot) :
    (g.putGot u k v).gotAt u m = if m = k then some v else g.gotAt u m := by
  unfold SGroup.gotAt SGroup.putGot
  rw [SMap.find?_insert_erase]
  by_cases h : m = k
  · simp [h]
  · rw [if_neg (by omega), if_neg h]

/-- A squash drops every returned load from its element on. -/
theorem SGroup.gotAt_squash {u : Nat} (hu : u < 3) {k m : Nat} (hm : k ≤ m) (off n : Nat) : (g.squash k off n).gotAt u m = none := by
  unfold SGroup.gotAt SGroup.squash
  rw [Option.map_eq_none_iff, List.find?_eq_none]
  intro e he
  have hlt := (List.mem_filter.1 he).2
  simp only [decide_eq_true_eq, beq_iff_eq] at hlt ⊢
  omega

end

/-! ### A group nothing has returned for -/

section
variable {g : SGroup} (hgot : g.got = []) (t : List Word) (ss : List SStream)
include hgot

theorem SGroup.gotAt_of_got_nil (u k : Nat) : g.gotAt u k = none := by simp [SGroup.gotAt, hgot]

theorem SGroup.look_of_got_nil (r : Role) (d k : Nat) : g.look ss r d k = none := by
  unfold SGroup.look
  cases ss.idxOf? ⟨d, r⟩ with
  | none => rfl
  | some u => exact SGroup.gotAt_of_got_nil hgot u k

/-- No index is known. -/
theorem SGroup.indexOf_of_got_nil (d x k i : Nat) : g.indexOf t ss d x k ≠ some (some i) := by
  unfold SGroup.indexOf
  rw [SGroup.look_of_got_nil hgot]
  split <;> simp

theorem SGroup.outOfRange_of_got_nil (k : Nat) : g.outOfRange t ss k = false := by
  unfold SGroup.outOfRange
  dsimp only
  split
  · next hi => exact absurd hi (SGroup.indexOf_of_got_nil hgot t ss _ _ _ _)
  · exact Bool.and_false _

theorem SGroup.elemFault_of_got_nil (ixf : Bool) (k : Nat) : g.elemFault t ss ixf k = none := by
  unfold SGroup.elemFault
  split
  · exact congrArg _ (SGroup.gotAt_of_got_nil hgot _ _)
  · rw [SGroup.outOfRange_of_got_nil hgot, Bool.and_false, if_neg Bool.false_ne_true]

theorem SJob.noteGroup_of_got_nil (j : SJob) : j.noteGroup g = g := by
  unfold SJob.noteGroup
  dsimp only
  split
  · next h =>
    simp only [Bool.and_eq_true, Option.isNone_iff_eq_none] at h
    obtain ⟨⟨⟨hnone, -⟩, -⟩, -⟩ := h
    rw [SGroup.elemFault_of_got_nil hgot, Option.map_none, ← hnone]
  · rfl

/-- A job whose one group has had nothing returned is settled. -/
theorem SJob.note_of_got_nil {j : SJob} (hj : j.groups = [g]) : j.note = j := by
  unfold SJob.note
  split
  · rfl
  · next c hc =>
    have hcg : c = g := List.mem_singleton.1 (hj ▸ List.mem_of_find?_eq_some hc)
    subst hcg
    unfold SJob.onGroup
    rw [hj, List.map_singleton, if_pos rfl]
    dsimp only
    rw [SJob.noteGroup_of_got_nil hgot, ← hj]

end

/-! ### Conflicts -/

/-- What a conflict looks at of a group: not its returned loads. -/
theorem SJob.conflict_onGroup_putGot (j : SJob) (f u m : Nat) (v : SGot) (first k : Nat) (off : Int) (n : Nat) :
    (j.onGroup f (fun g => g.putGot u m v)).conflict first k off n = j.conflict first k off n := by
  unfold SJob.conflict SJob.onGroup
  rw [List.takeWhile_map, List.any_map]
  have hfirst : (fun g : SGroup => decide (g.first ≤ first)) ∘ (fun g => if g.first = f then g.putGot u m v else g) =
      fun g => decide (g.first ≤ first) := by
    funext g
    dsimp only [Function.comp]
    split <;> rfl
  rw [hfirst]
  congr 1
  funext g
  dsimp only [Function.comp]
  split <;> rfl

/-! ### Beats -/

theorem foldl_max_le {l : List Nat} {a b : Nat} (ha : a ≤ b) (h : ∀ c ∈ l, c ≤ b) : l.foldl max a ≤ b := by
  induction l generalizing a with
  | nil => exact ha
  | cons c t ih => exact ih (max_le ha (h c (by simp))) (fun x hx => h x (by simp [hx]))

theorem le_foldl_max {l : List Nat} {a c : Nat} (h : c = a ∨ c ∈ l) : c ≤ l.foldl max a := by
  induction l generalizing a c with
  | nil => exact Nat.le_of_eq (h.resolve_right List.not_mem_nil)
  | cons x t ih =>
    rcases h with rfl | h
    · exact le_trans (le_max_left c x) (ih (.inl rfl))
    · rcases List.mem_cons.1 h with rfl | h
      · exact le_trans (le_max_right a c) (ih (.inl rfl))
      · exact ih (.inr h)

theorem lt_foldl_min {l : List Nat} {a b : Nat} (ha : b < a) (h : ∀ c ∈ l, b < c) : b < l.foldl min a := by
  induction l generalizing a with
  | nil => exact ha
  | cons c t ih => exact ih (lt_min ha (h c (by simp))) (fun x hx => h x (by simp [hx]))

/-- An element lies in its own beat (R158, R169). -/
theorem SGroup.mem_beat (g : SGroup) (t : List Word) {k : Nat} (hk : k < g.n) : (g.beat t k).1 ≤ k ∧ k < (g.beat t k).2 := by
  have hw : 0 < groupWidth t g.sins := by
    unfold groupWidth
    split <;> decide
  unfold SGroup.beat
  dsimp only
  generalize groupWidth t g.sins = w at hw
  have hcut : ∀ c ∈ g.cuts, c ≤ k → c ≤ (g.cuts.filter (fun c => decide (c ≤ k))).foldl max 0 := fun c hc hck =>
    le_foldl_max (.inr (List.mem_filter.2 ⟨hc, decide_eq_true hck⟩))
  have hbase : (g.cuts.filter (fun c => decide (c ≤ k))).foldl max 0 ≤ k :=
    foldl_max_le (Nat.zero_le k) (fun c hc => of_decide_eq_true (List.mem_filter.1 hc).2)
  generalize (g.cuts.filter (fun c => decide (c ≤ k))).foldl max 0 = base at hcut hbase
  have hdiv := Nat.div_add_mod (k - base) w
  have hmod := Nat.mod_lt (k - base) hw
  rw [Nat.mul_comm] at hdiv
  refine ⟨by omega, lt_foldl_min (lt_min (by omega) hk) fun c hc => ?_⟩
  obtain ⟨hmem, hlo⟩ := List.mem_filter.1 hc
  have hlo := of_decide_eq_true hlo
  by_contra hck
  have := hcut c hmem (by omega)
  omega

end Sys2Proof.Machine
end

section
/-!
PROOFS. What the Deck, the Viaduct and the Dispatcher's end of other jobs leave of the Spans: their jobs, their registers, the grade; a
free slot stays free, and none begins to wait.
-/

namespace Sys2Proof.Machine
open Sys2Proof.Claims

/-- `t` comes after `s` with every Span as it was: the registers below the Dispatcher's are kept, a FREE slot stays FREE, and no slot is
WAITING that was not. -/
structure State.SpansKept (s t : State) : Prop where
  grade : t.grade = s.grade
  spans : t.spans = s.spans
  cells : ∀ a, a < 0x1500 → t.reg a = s.reg a
  free : ∀ k, (s.slot k).st = .free → (t.slot k).st = .free
  waiting : ∀ k, (t.slot k).st = .waiting → (s.slot k).st = .waiting

namespace State.SpansKept

theorem refl (s : State) : s.SpansKept s := ⟨rfl, rfl, fun _ _ => rfl, fun _ h => h, fun _ h => h⟩

theorem trans {s t u : State} (h : s.SpansKept t) (k : t.SpansKept u) : s.SpansKept u :=
  ⟨k.grade.trans h.grade, k.spans.trans h.spans, fun a ha => (k.cells a ha).trans (h.cells a ha), fun i hi => k.free i (h.free i hi),
    fun i hi => h.waiting i (k.waiting i hi)⟩

variable {s t u : State}

/-- A change outside the grade, the Spans, the slots and the registers. -/
theorem upd (h : s.SpansKept t) (hg : u.grade = t.grade) (hsp : u.spans = t.spans) (hsl : u.slots = t.slots) (hio : u.io = t.io) :
    s.SpansKept u := by
  have hslot (k : Nat) : u.slot k = t.slot k := by rw [State.slot, State.slot, hsl]
  refine h.trans ⟨hg, hsp, fun a _ => ?_, fun k hk => by rwa [hslot], fun k hk => by rwa [← hslot]⟩
  rw [State.reg, State.reg, hio]

theorem ite {c : Prop} [Decidable c] (ht : s.SpansKept t) (hu : s.SpansKept u) : s.SpansKept (if c then t else u) := by
  split <;> assumption

theorem ite_snd {α : Type} {c : Prop} [Decidable c] {x y : α × State} (hx : s.SpansKept x.2) (hy : s.SpansKept y.2) :
    s.SpansKept (if c then x else y).2 := by
  split <;> assumption

/-! ### Registers -/

theorem setReg (h : s.SpansKept t) {a : Nat} {v : Word} (ha : 0x1500 ≤ a) : s.SpansKept (t.setReg a v) :=
  h.trans ⟨rfl, rfl, fun b hb => t.reg_setReg_other a b v (by omega), fun _ hk => hk, fun _ hk => hk⟩

theorem wf (h : s.SpansKept t) {f : Fd} {v : Nat} (hf : 0x1500 ≤ f.addr) : s.SpansKept (t.wf f v) := h.setReg hf

theorem incSat (h : s.SpansKept t) {f : Fd} {n : Nat} (hf : 0x1500 ≤ f.addr) : s.SpansKept (t.incSat f n) := h.wf hf

theorem raise (h : s.SpansKept t) {e : Nat} : s.SpansKept (t.raise e) := h.upd rfl rfl rfl rfl

theorem raiseIf (h : s.SpansKept t) {e en : Fd} : s.SpansKept (t.raiseIf e en) := ite h.raise h

theorem onLdr (h : s.SpansKept t) {f : Ldr → Ldr} : s.SpansKept (t.onLdr f) := h.upd rfl rfl rfl rfl

theorem cause (h : s.SpansKept t) {c : SysCause} {einfo : Word} {sub : Nat} : s.SpansKept (t.cause c einfo sub) := h.upd rfl rfl rfl rfl

theorem trigger (h : s.SpansKept t) {src : Nat} : s.SpansKept (t.trigger src) := h.upd rfl rfl rfl rfl

theorem setShell (h : s.SpansKept t) {isl : Nat} {v : Shell} : s.SpansKept (t.setShell isl v) := h.upd rfl rfl rfl rfl

/-! ### The Deck -/

theorem queueScrub (h : s.SpansKept t) {w : Nat} : s.SpansKept (t.queueScrub w) := ite h (h.upd rfl rfl rfl rfl)

theorem correct (h : s.SpansKept t) {w : Nat} : s.SpansKept (t.correct w) := by
  have hcnt : 0x1500 ≤ (Reg.DECK_CE_CNT.COUNT (deckQuarter (8 * w))).addr := Nat.le_trans (by decide) (Nat.le_add_right 0x1805 _)
  have haddr : 0x1500 ≤ (Reg.DECK_CE_ADDR.ADDR (deckQuarter (8 * w))).addr := Nat.le_trans (by decide) (Nat.le_add_right 0x1806 _)
  exact ((h.incSat hcnt).wf haddr).raiseIf.queueScrub

theorem detectPoison (h : s.SpansKept t) {w : Nat} : s.SpansKept (t.detectPoison w) := by
  have hcnt : 0x1500 ≤ (Reg.DECK_UE_CNT.COUNT (deckQuarter (8 * w))).addr := Nat.le_trans (by decide) (Nat.le_add_right 0x1807 _)
  have haddr : 0x1500 ≤ (Reg.DECK_UE_ADDR.ADDR (deckQuarter (8 * w))).addr := Nat.le_trans (by decide) (Nat.le_add_right 0x1808 _)
  exact ((h.incSat hcnt).wf haddr).raiseIf

theorem checkWord (h : s.SpansKept t) {w : Nat} : s.SpansKept (t.checkWord w).2 := ite_snd h.detectPoison (ite_snd h.correct h)

theorem checkWords {t : State} (h : s.SpansKept t) {w k : Nat} : s.SpansKept (t.checkWords w k).2 :=
  match k with
  | 0 => h
  | _ + 1 => h.checkWord.checkWords

theorem deckRead (h : s.SpansKept t) {a n : Nat} : s.SpansKept (t.deckRead a n).2 := ite_snd h.checkWords h.checkWords

theorem writtenWord (h : s.SpansKept t) {w : Nat} : s.SpansKept (t.writtenWord w) := by
  have hmode : 0x1500 ≤ (Reg.DECK_ECC_INJ.MODE (deckQuarter (8 * w))).addr := Nat.le_trans (by decide) (Nat.le_add_right 0x1809 _)
  have hscrub : s.SpansKept { t with scrubs := t.scrubs.filter (fun x => x != w) } := h.upd rfl rfl rfl rfl
  exact ite ((hscrub.wf hmode).upd rfl rfl rfl rfl) (hscrub.upd rfl rfl rfl rfl)

theorem deckWriteWord (h : s.SpansKept t) {a n v : Nat} : s.SpansKept (t.deckWriteWord a n v).2 := by
  have hpoke {u : State} (hu : s.SpansKept u) (n v : Nat) : s.SpansKept (u.deckPoke a n v) := hu.upd rfl rfl rfl rfl
  exact ite_snd (hpoke h _ _).writtenWord (ite_snd h.checkWord (hpoke h.checkWord _ _).writtenWord)

theorem deckWriteFrom {t : State} (h : s.SpansKept t) {fuel a n v : Nat} : s.SpansKept (t.deckWriteFrom fuel a n v).2 :=
  match fuel with
  | 0 => h
  | _ + 1 => ite_snd h h.deckWriteWord.deckWriteFrom

/-! ### The Viaduct -/

theorem turnAway (h : s.SpansKept t) {ni : Nat} {op : NetOp} : s.SpansKept (t.turnAway ni op).2 := by
  have hoff : s.SpansKept (t.incSat Reg.VIA_OFFLINE_CNT.COUNT) := h.incSat (by decide)
  unfold State.turnAway
  split
  · exact hoff
  · exact ite_snd hoff (ite_snd (h.incSat (by decide)) (ite_snd hoff h))

theorem loseTag (h : s.SpansKept t) {r : Req} : s.SpansKept (t.loseTag r) := by
  have hreqs : s.SpansKept
      { t with net := { t.net with nextId := t.net.nextId + 1, reqs := t.net.reqs ++ [{ r with stale := true, lost := true }] } } :=
    h.upd rfl rfl rfl rfl
  exact hreqs.incSat (by decide)

/-- A response that nothing befalls on its way. -/
theorem comesBack (h : s.SpansKept t) {r : Req} {p : Resp} : s.SpansKept (t.comesBack r p .none).2 := by
  have hlost : s.SpansKept (t.incSat Reg.VIA_ROUTE_ERR_CNT.COUNT) := h.incSat (by decide)
  unfold State.comesBack
  rw [State.backBad_none]
  refine ite_snd hlost.loseTag ?_
  cases p <;> exact h

theorem deckSend (h : s.SpansKept t) {ni vc off n v : Nat} : s.SpansKept (t.deckSend ni vc off n v).2 := by
  have hturn := h.turnAway (ni := ni) (op := .deckWr off n v)
  unfold State.deckSend
  generalize t.turnAway ni (.deckWr off n v) = x at hturn ⊢
  obtain ⟨_ | e, u⟩ := x
  · dsimp only at hturn ⊢
    rw [if_neg (by rw [Req.bad_none]; decide)]
    exact hturn.deckWriteFrom.comesBack
  · exact hturn

theorem deckFetch (h : s.SpansKept t) {ni vc off n : Nat} : s.SpansKept (t.deckFetch ni vc off n).2 := by
  have hturn := h.turnAway (ni := ni) (op := .deckRd off n)
  unfold State.deckFetch
  generalize t.turnAway ni (.deckRd off n) = x at hturn ⊢
  obtain ⟨_ | e, u⟩ := x
  · dsimp only at hturn ⊢
    rw [if_neg (by rw [Req.bad_none]; decide)]
    split <;> exact hturn.deckRead.comesBack
  · exact hturn

theorem toPier (h : s.SpansKept t) {stop p : Nat} {f : State → State} (hf : s.SpansKept (f t)) : s.SpansKept (t.toPier stop p f) := by
  have herr : s.SpansKept (t.incSat Reg.VIA_ROUTE_ERR_CNT.COUNT) := h.incSat (by decide)
  have hdrop : s.SpansKept ((t.incSat Reg.VIA_ROUTE_ERR_CNT.COUNT).dropDelivery p) := (herr.incSat (by decide)).setReg (by decide)
  exact ite hf hdrop

/-! ### A Span's own accesses -/

theorem spanRead (h : s.SpansKept t) {q off n : Nat} : s.SpansKept (t.spanRead q off n).2 := by
  unfold State.spanRead
  refine ite_snd ?_ ?_
  · dsimp only
    split <;> exact h.deckRead
  · dsimp only
    split <;> exact h.deckFetch

theorem spanWrite (h : s.SpansKept t) {q off n v : Nat} : s.SpansKept (t.spanWrite q off n v).2 :=
  ite_snd (deckWriteFrom h) h.deckSend

theorem spanStatus (h : s.SpansKept t) {q off : Nat} {w : Nat × Nat × Nat × Nat} : s.SpansKept (t.spanStatus q off w).2 :=
  ite_snd h.spanWrite h.spanWrite.spanWrite

theorem spanFetch {t : State} (h : s.SpansKept t) {q prog m fuel : Nat} : s.SpansKept (t.spanFetch q prog m fuel).2 :=
  match fuel with
  | 0 => h
  | _ + 1 => ite_snd h (ite_snd h.spanRead (ite_snd h.spanRead.spanFetch h.spanRead))

/-! ### The Dispatcher -/

/-- Closing the dependencies on a slot changes no slot's state (R196). -/
theorem st_closeDeps (m : SMap Slot) (k : Nat) (bad : Bool) (i : Nat) :
    (SMap.get (closeDeps m k bad) Slot.none i).st = (SMap.get m Slot.none i).st := by
  induction m with
  | nil => rfl
  | cons e m ih =>
    have hcons : closeDeps (e :: m) k bad =
        (if e.2.deps.contains k then
          (e.1, { e.2 with deps := e.2.deps.filter (fun x => x != k), depBad := e.2.depBad || bad }) else e) :: closeDeps m k bad := rfl
    rw [hcons, SMap.get_cons, SMap.get_cons]
    by_cases hi : e.1 = i
    · by_cases hk : e.2.deps.contains k = true
      · simp only [hk, hi, if_true]
      · simp only [hk, hi, if_true, if_false, Bool.false_eq_true]
    · by_cases hk : e.2.deps.contains k = true
      · simp only [hk, hi, if_true, if_false, ih]
      · simp only [hk, hi, if_false, Bool.false_eq_true, ih]

theorem swLost (h : s.SpansKept t) {slot tag : Nat} : s.SpansKept (t.swLost slot tag) :=
  ((h.wf (by decide)).wf (by decide)).wf (by decide)

theorem sendSpanFault (h : s.SpansKept t) {stop : Nat} {th : Thr} {tag slot : Nat} : s.SpansKept (t.sendSpanFault stop th tag slot) :=
  h.toPier (h.upd rfl rfl rfl rfl)

/-- A slot replaced by one that does not wait where the old one did not, and is free where the old one was. -/
theorem setSlot (h : s.SpansKept t) {k : Nat} {v : Slot} (hfree : (t.slot k).st = .free → v.st = .free) (hwait : v.st ≠ .waiting) :
    s.SpansKept (t.setSlot k v) := by
  have hslot (i : Nat) : (t.setSlot k v).slot i = if i = k then v else t.slot i := SMap.get_set _ _ _ _ _
  refine h.trans ⟨rfl, rfl, fun _ _ => rfl, fun i hi => ?_, fun i hi => ?_⟩
  · rw [hslot]
    split
    · next hk => exact hfree (hk ▸ hi)
    · exact hi
  · rw [hslot] at hi
    split at hi
    · exact absurd hi hwait
    · exact hi

theorem closeSlots (h : s.SpansKept t) {k : Nat} {bad : Bool} : s.SpansKept { t with slots := closeDeps t.slots k bad } := by
  have hst (i : Nat) : (State.slot { t with slots := closeDeps t.slots k bad } i).st = (t.slot i).st := st_closeDeps _ _ _ _
  exact h.trans ⟨rfl, rfl, fun _ _ => rfl, fun i hi => by rwa [hst], fun i hi => by rwa [hst] at hi⟩

theorem afterStatus (h : s.SpansKept t) {stop k endState : Nat} {ok : Bool} : s.SpansKept (t.afterStatus stop k endState ok) := by
  have hevent (u : Slot) : s.SpansKept (if jEven u.desc then t.raise (jEvent u.desc) else t) := ite h.raise h
  have hfault {x : State} (hx : s.SpansKept x) (u : Slot) (b : Bool) :
      s.SpansKept (if jTrap u.desc && b then x.sendSpanFault stop u.thr (jTag u.desc) k else x) := ite hx.sendSpanFault hx
  have hlost {x : State} (hx : s.SpansKept x) (u : Slot) : s.SpansKept (if ok then x else x.swLost k (jTag u.desc)) := ite hx hx.swLost
  unfold State.afterStatus
  exact ((hlost (hfault (hevent _) _ _) _).setSlot (fun _ => rfl) (by decide)).closeSlots

theorem dispEnd (h : s.SpansKept t) {k endState fault : Nat} : s.SpansKept (t.dispEnd k endState fault) :=
  h.deckSend.deckSend.afterStatus

theorem settleDeps (h : s.SpansKept t) {fuel : Nat} : s.SpansKept (t.settleDeps fuel) := by
  induction fuel generalizing t with
  | zero => exact h
  | succ fuel ih =>
    unfold State.settleDeps
    split
    · exact h
    · next k hk =>
      have hwait : (t.slot k).st = .waiting := by
        have hfound := List.find?_some hk
        simp only [Bool.and_eq_true, beq_iff_eq] at hfound
        exact hfound.1.1
      refine ih (ite h.dispEnd (h.setSlot (fun hfree => ?_) SlotState.noConfusion))
      rw [hwait] at hfree
      exact absurd hfree (by decide)

end State.SpansKept
end Sys2Proof.Machine
end

section
/-!
PROOFS. O22. A group begins (R156, R182, R540), its loads return beat by beat with the conflicts found as they issued (R163 to R168,
R206), a check clears a load or squashes the group from there, and a replay reissues (R169, R170).
-/

namespace Sys2Proof.Machine
open Sys2Proof.Claims

/-! ### GROUP_START -/

/-- A group as it begins. -/
def SGroup.begun (first n : Nat) (ws : List DWord) : SGroup :=
  ⟨first, ws, n, 0, 0, [], [], none, [], SRed.start, 0, none, false⟩

/-- A job that begins its only group is settled as it stands. -/
theorem SJob.settle_begin {j : SJob} {ws : List DWord} (hgroups : j.groups = [])
    (hlen : (groupLens j.sdt (ws.map SIns.parse)).headD 0 ≠ 0) (xlu : Option XTable) :
    (((j.begin ws xlu).trim 16).note).next = j.next + ws.length ∧
      (((j.begin ws xlu).trim 16).note).groups = [SGroup.begun j.next ((groupLens j.sdt (ws.map SIns.parse)).headD 0) ws] := by
  have hbegin : (j.begin ws xlu).groups = [SGroup.begun j.next ((groupLens j.sdt (ws.map SIns.parse)).headD 0) ws] := by
    unfold SJob.begin
    dsimp only
    rw [if_neg hlen, hgroups]
    rfl
  rw [SJob.trim_of_open _ 16 hbegin (SJob.complete_of_nxt_lt (Nat.pos_of_ne_zero hlen)), SJob.note_of_got_nil rfl hbegin]
  exact ⟨rfl, hbegin⟩

section
variable {s : State} {q : QIx} {j : SJob} (hj : s.running q.val = some j)
include hj

/-- With nothing in flight the next group is fetched. -/
theorem exec_groupStart (hgroups : j.groups = []) (hbusy : s.groupBusy j = false) :
    exec (.groupStart q) s = .next (s.startFetched q.val j) := by
  show execGroupStart q s = _
  unfold execGroupStart
  rw [hj]
  simp only [hgroups, hbusy, List.any_nil, List.all_nil, List.isEmpty_nil, Bool.not_true, Bool.and_false, Bool.or_false,
    Bool.false_eq_true, if_false]

omit hj in
/-- A group whose words pass every check, without a table and with no group before it, begins. -/
theorem State.startFetched_of_checks {ws : List DWord} (hgroups : j.groups = [])
    (hfetch : (s.spanFetch q.val (jProg j.desc) j.next s.groupFuel).1 = (ws, 0)) (hvend : ws ≠ [vendWord])
    (hcheck : groupCheck s.grade j.sdt ws = 0) (htype : groupType j.sdt (ws.map SIns.parse) none = false)
    (hxlu : (ws.map SIns.parse).find? SIns.isXlu = none) :
    s.startFetched q.val j = (s.spanFetch q.val (jProg j.desc) j.next s.groupFuel).2.setJob q.val (j.begin ws j.xlu) 0 := by
  have hgrade := (State.SpansKept.spanFetch (.refl s) (q := q.val) (prog := jProg j.desc) (m := j.next) (fuel := s.groupFuel)).grade
  have hused : j.srtUsed = 0 := by simp [SJob.srtUsed, hgroups]
  have haddr : xluAddr j.desc (ws.map SIns.parse) = none := by rw [xluAddr, hxlu]; rfl
  unfold State.startFetched
  dsimp only
  generalize s.spanFetch q.val (jProg j.desc) j.next s.groupFuel = r at hfetch hgrade ⊢
  rw [hfetch, if_neg (not_not.2 rfl), if_neg hvend]
  unfold State.startChecked
  dsimp only
  rw [hgrade, hcheck, if_neg (not_not.2 rfl), htype, if_neg Bool.false_ne_true, hused, if_neg (by simp)]
  unfold State.startXlu
  dsimp only
  rw [haddr]

/-- The group begins (R156, R182, R540). -/
theorem groupStart_begins {ws : List DWord} (hgroups : j.groups = []) (hbusy : s.groupBusy j = false)
    (hfetch : (s.spanFetch q.val (jProg j.desc) j.next s.groupFuel).1 = (ws, 0)) (hvend : ws ≠ [vendWord])
    (hcheck : groupCheck s.grade j.sdt ws = 0) (htype : groupType j.sdt (ws.map SIns.parse) none = false)
    (hxlu : (ws.map SIns.parse).find? SIns.isXlu = none) (hlen : (groupLens j.sdt (ws.map SIns.parse)).headD 0 ≠ 0) :
    ∃ t j', exec (.groupStart q) s = .next t ∧ t.span q.val = some j' ∧ j'.next = j.next + ws.length ∧
      j'.groups = [SGroup.begun j.next ((groupLens j.sdt (ws.map SIns.parse)).headD 0) ws] := by
  obtain ⟨hnext, hbegun⟩ := SJob.settle_begin hgroups hlen j.xlu
  refine ⟨_, _, exec_groupStart hj hgroups hbusy, ?_, hnext, hbegun⟩
  rw [State.startFetched_of_checks hgroups hfetch hvend hcheck htype hxlu, State.span_setJob_same]

end

/-! ### ELEMENT_LOAD_RETURN -/

/-- A load that may issue is of an element of its stream (R164). -/
theorem SJob.lt_of_canLoad {j : SJob} {g : SGroup} {ss : List SStream} {u k : Nat} {r : SStream} (h : j.canLoad g ss u r k = true) :
    k < g.streamLen r := by
  simp only [SJob.canLoad, Bool.and_eq_true, decide_eq_true_eq] at h
  exact h.1.1.1.1.1.2

/-- An element that may issue is among those of its own access (R206). -/
theorem SJob.mem_sharers {j : SJob} {g : SGroup} {ss : List SStream} {u k : Nat} {r : SStream} {off : Int}
    (hreq : g.request j.sdt ss r k = some (some off)) (hcan : j.canLoad g ss u r k = true) :
    (k, off) ∈ j.sharers g ss u r k (off / 8) := by
  unfold SJob.sharers
  dsimp only
  refine List.mem_filterMap.2 ⟨k, ?_, ?_⟩
  · rw [List.mem_range'_1]
    by_cases hr : r.role = .smask
    · rw [if_pos hr]
      omega
    · rw [if_neg hr]
      have hk := SJob.lt_of_canLoad hcan
      rw [SGroup.streamLen, if_neg hr] at hk
      have hbeat := g.mem_beat j.sdt hk
      omega
  · rw [hreq, hcan]
    simp

/-- No element is twice among those of an access. -/
theorem SJob.nodup_sharers (j : SJob) (g : SGroup) (ss : List SStream) (u : Nat) (r : SStream) (k : Nat) (w : Int) :
    ((j.sharers g ss u r k w).map Prod.fst).Nodup := by
  unfold SJob.sharers
  dsimp only
  generalize (if r.role = .smask then (k, k + 1) else g.beat j.sdt k) = b
  have hsub (l : List Nat) (f : Nat → Option (Nat × Int)) (hf : ∀ i, ∀ e ∈ f i, e.1 = i) : ((l.filterMap f).map Prod.fst).Sublist l := by
    induction l with
    | nil => exact .slnil
    | cons i l ih =>
      cases hi : f i with
      | none => rw [List.filterMap_cons_none hi]; exact ih.cons i
      | some e => rw [List.filterMap_cons_some hi, List.map_cons, hf i e hi]; exact ih.cons_cons i
  refine (hsub _ _ fun i e he => ?_).nodup List.nodup_range'
  split at he
  · split at he
    · cases he; rfl
    · cases he
  · cases he

/-- What returns for one element of an access: its lane value or the error, and the conflict found. -/
def SJob.returned (j : SJob) (first ty v err : Nat) (e : Nat × Int) : SGot :=
  ⟨if err = 0 then laneOf ty (v / 256 ^ (e.2.toNat % 8) % 256 ^ tySize ty) else 0, err, j.conflict first e.1 e.2 (tySize ty), false⟩

theorem SJob.onGroup_onGroup (j : SJob) (f : Nat) (h h' : SGroup → SGroup) (hfirst : ∀ g, (h g).first = g.first) :
    (j.onGroup f h).onGroup f h' = j.onGroup f (fun g => h' (h g)) := by
  unfold SJob.onGroup
  dsimp only
  rw [List.map_map]
  congr 2
  funext g
  dsimp only [Function.comp]
  by_cases hg : g.first = f
  · simp only [if_pos hg, hfirst]
  · simp only [if_neg hg]

theorem SJob.onGroup_id (j : SJob) (f : Nat) : j.onGroup f (fun g => g) = j := by
  simp only [SJob.onGroup, ite_self, List.map_id']

theorem SJob.putLoad_eq (j : SJob) (g : SGroup) (u : Nat) (r : SStream) (v err : Nat) (e : Nat × Int) :
    j.putLoad g u r v err e =
      j.onGroup g.first (fun g' => g'.putGot u e.1 (j.returned g.first (SDesc.get j.sdt r.d).ty v err e)) := by
  unfold SJob.putLoad SJob.returned
  dsimp only
  rw [Nat.pow_mul, Nat.pow_mul]

/-- The loads of an access are put in one by one; none changes what the next one's check finds. -/
theorem SJob.foldl_putLoad (j : SJob) (g : SGroup) (u : Nat) (r : SStream) (v err : Nat) (es : List (Nat × Int)) :
    es.foldl (fun x e => x.putLoad g u r v err e) j = j.onGroup g.first (fun g' =>
      es.foldl (fun g' e => g'.putGot u e.1 (j.returned g.first (SDesc.get j.sdt r.d).ty v err e)) g') := by
  induction es generalizing j with
  | nil => exact (j.onGroup_id _).symm
  | cons e es ih =>
    rw [List.foldl_cons, ih, SJob.putLoad_eq, SJob.onGroup_onGroup]
    · congr 1
      funext g'
      rw [List.foldl_cons]
      congr 1
      funext g'' e'
      unfold SJob.returned
      rw [SJob.conflict_onGroup_putGot]
      rfl
    · exact fun _ => rfl

/-- Loads put in change the returned loads of a group alone, and each element put in once reads as put in. -/
theorem SGroup.foldl_putGot (u : Nat) (val : Nat × Int → SGot) (es : List (Nat × Int)) (hes : (es.map Prod.fst).Nodup) (g : SGroup) :
    ∃ got, es.foldl (fun g e => g.putGot u e.1 (val e)) g = { g with got := got } ∧
      (∀ e ∈ es, ({ g with got := got } : SGroup).gotAt u e.1 = some (val e)) ∧
      (∀ m, m ∉ es.map Prod.fst → ({ g with got := got } : SGroup).gotAt u m = g.gotAt u m) := by
  induction es generalizing g with
  | nil => exact ⟨g.got, rfl, fun e he => absurd he List.not_mem_nil, fun _ _ => rfl⟩
  | cons e es ih =>
    obtain ⟨hnot, hnodup⟩ := List.nodup_cons.1 hes
    obtain ⟨got, hfold, hin, hout⟩ := ih hnodup (g.putGot u e.1 (val e))
    refine ⟨got, hfold, fun x hx => ?_, fun m hm => ?_⟩
    · rcases List.mem_cons.1 hx with rfl | hx
      · exact (hout _ hnot).trans ((g.gotAt_putGot ..).trans (if_pos rfl))
      · exact hin x hx
    · obtain ⟨hne, hm⟩ := not_or.1 (fun h => hm (List.mem_cons.2 h))
      exact (hout m hm).trans ((g.gotAt_putGot ..).trans (if_neg hne))

section
variable {s : State} {q : QIx} {j : SJob} (hj : s.running q.val = some j) {gi : Nat} {g : SGroup} (hg : j.groups[gi]? = some g)
include hj hg

section
variable {u : Fin 3} {r : SStream} (hr : (groupStreams j.sdt g.sins)[u.val]? = some r)
include hr

/-- A load that may issue returns, with those of its access. -/
theorem exec_elementLoadReturn {k w : Nat} {d b : Damage} {off : Int}
    (hreq : g.request j.sdt (groupStreams j.sdt g.sins) r k = some (some off))
    (hcan : j.canLoad g (groupStreams j.sdt g.sins) u.val r k = true) (hword : j.wordBusy off.toNat = false)
    (hquarter : s.quarterBusy off.toNat = false) :
    exec (.elementLoadReturn q gi u k d b w) s =
      .next (((s.noteRemote q.val off.toNat w).spanRead q.val (off.toNat / 8 * 8) 8 d b).2.setJob q.val
        ((j.sharers g (groupStreams j.sdt g.sins) u.val r k (off / 8)).foldl (fun x e => x.putLoad g u.val r
          ((s.noteRemote q.val off.toNat w).spanRead q.val (off.toNat / 8 * 8) 8 d b).1.1
          ((s.noteRemote q.val off.toNat w).spanRead q.val (off.toNat / 8 * 8) 8 d b).1.2 e) j)
        (j.sharers g (groupStreams j.sdt g.sins) u.val r k (off / 8)).length) := by
  show execElementLoadReturn q gi u k d b w s = _
  unfold execElementLoadReturn
  simp only [hj, hg, hr, hreq, hcan, hword, hquarter, Bool.not_true, Bool.or_false, Bool.false_eq_true, if_false]

/-- The loads of the access are there afterwards, their checks open (R154, R165, R166, R168). -/
theorem elementLoadReturn_returns (hlt : g.nxt < g.n) {k w : Nat} {d b : Damage} {off : Int}
    (hreq : g.request j.sdt (groupStreams j.sdt g.sins) r k = some (some off))
    (hcan : j.canLoad g (groupStreams j.sdt g.sins) u.val r k = true) (hword : j.wordBusy off.toNat = false)
    (hquarter : s.quarterBusy off.toNat = false) :
    ∃ t, exec (.elementLoadReturn q gi u k d b w) s = .next t ∧
      SpanNow t q g (fun _ g' => g'.nxt = g.nxt ∧ ∀ e ∈ j.sharers g (groupStreams j.sdt g.sins) u.val r k (off / 8),
        g'.gotAt u.val e.1 = some (j.returned g.first (SDesc.get j.sdt r.d).ty
          ((s.noteRemote q.val off.toNat w).spanRead q.val (off.toNat / 8 * 8) 8 d b).1.1
          ((s.noteRemote q.val off.toNat w).spanRead q.val (off.toNat / 8 * 8) 8 d b).1.2 e)) := by
  refine ⟨_, exec_elementLoadReturn hj hg hr hreq hcan hword hquarter, ?_⟩
  generalize (s.noteRemote q.val off.toNat w).spanRead q.val (off.toNat / 8 * 8) 8 d b = v
  have hnodup := j.nodup_sharers g (groupStreams j.sdt g.sins) u.val r k (off / 8)
  generalize j.sharers g (groupStreams j.sdt g.sins) u.val r k (off / 8) = es at hnodup
  obtain ⟨got, hfold, hin, -⟩ := SGroup.foldl_putGot u.val (j.returned g.first (SDesc.get j.sdt r.d).ty v.1.1 v.1.2) es hnodup g
  have hmem := j.mem_onGroup (List.mem_of_getElem? hg)
    (fun g' => es.foldl (fun g' e => g'.putGot u.val e.1 (j.returned g.first (SDesc.get j.sdt r.d).ty v.1.1 v.1.2 e)) g')
  rw [← SJob.foldl_putLoad, hfold] at hmem
  exact spanNow_setJob v.2 q _ es.length hmem rfl (SJob.complete_of_nxt_lt hlt) (fun _ _ _ _ => ⟨rfl, hin⟩)

/-! ### CONFLICT_CHECK -/

/-- A check that finds no conflict clears the load (R166, R168). -/
theorem conflictCheck_clears (hlt : g.nxt < g.n) {k : Nat} {v : SGot} (hv : g.gotAt u.val k = some v) (hclear : v.clear = false)
    (hhit : v.hit = false) :
    ∃ t, exec (.conflictCheck q gi u k) s = .next t ∧
      SpanNow t q g (fun _ g' => g'.gotAt u.val k = some { v with clear := true }) := by
  have hexec : exec (.conflictCheck q gi u k) s =
      .next (s.setJob q.val (j.onGroup g.first (fun g => g.putGot u.val k { v with clear := true })) 0) := by
    show execConflictCheck q gi u k s = _
    unfold execConflictCheck
    simp only [hj, hg, hr, hv, hclear, hhit, Bool.false_eq_true, if_false]
  refine ⟨_, hexec, ?_⟩
  refine spanNow_setJob s q _ 0 (j.mem_onGroup (List.mem_of_getElem? hg) _) rfl (SJob.complete_of_nxt_lt hlt) fun _ _ _ _ => ?_
  exact (g.gotAt_putGot ..).trans (if_pos rfl)

/-- A check that finds a conflict squashes the group's loads from its element on, and the replay is counted (R168, R169). -/
theorem conflictCheck_squashes (hlt : g.nxt < g.n) {k : Nat} {v : SGot} (hv : g.gotAt u.val k = some v) (hclear : v.clear = false)
    (hhit : v.hit = true) :
    ∃ t, exec (.conflictCheck q gi u k) s = .next t ∧
      t.rf (Reg.SPAN_REPLAY_CNT.COUNT q.val) = min (2 ^ 32 - 1) (s.rf (Reg.SPAN_REPLAY_CNT.COUNT q.val) + 1) ∧
      SpanNow t q g (fun _ g' => g'.replay.isSome = true ∧ ∀ (w : Fin 3) (m : Nat), k ≤ m → g'.gotAt w.val m = none) := by
  obtain ⟨off, n, hexec⟩ : ∃ off n, exec (.conflictCheck q gi u k) s =
      .next (((s.incSat (Reg.SPAN_REPLAY_CNT.COUNT q.val)).incSat (Reg.SPAN_SQUASH_CNT.COUNT q.val) (g.issuedFrom j.sdt k)).setJob q.val
        (j.onGroup g.first (fun g => g.squash k off n)) 0) := by
    refine ⟨(((g.request j.sdt (groupStreams j.sdt g.sins) r k).getD none).getD 0).toNat, tySize (SDesc.get j.sdt r.d).ty, ?_⟩
    show execConflictCheck q gi u k s = _
    unfold execConflictCheck
    simp only [hj, hg, hr, hv, hclear, hhit, Bool.false_eq_true, if_false, if_true]
  refine ⟨_, hexec, ?_, ?_⟩
  · have hpos : (Reg.SPAN_REPLAY_CNT.COUNT q.val).addr ≠ Reg.SPAN_POS_at q.val := by
      show 0x1109 + 0x100 * q.val ≠ 0x1104 + 0x100 * q.val
      omega
    have hpeak : (Reg.SPAN_REPLAY_CNT.COUNT q.val).addr ≠ Reg.SPAN_INFLIGHT_PEAK_at q.val := by
      show 0x1109 + 0x100 * q.val ≠ 0x1106 + 0x100 * q.val
      omega
    have hsquash : (Reg.SPAN_REPLAY_CNT.COUNT q.val).addr ≠ (Reg.SPAN_SQUASH_CNT.COUNT q.val).addr := by
      show 0x1109 + 0x100 * q.val ≠ 0x110A + 0x100 * q.val
      omega
    rw [State.rf, State.reg_setJob_other _ _ _ _ hpos hpeak, State.reg_incSat_other _ _ _ _ hsquash]
    exact s.rf_incSat _ _ (by show 0 + 32 ≤ 32; decide)
  · refine spanNow_setJob _ q _ 0 (j.mem_onGroup (List.mem_of_getElem? hg) _) rfl (SJob.complete_of_nxt_lt hlt) fun _ _ _ _ => ?_
    exact ⟨rfl, fun w m hm => g.gotAt_squash w.isLt hm off n⟩

end

/-! ### REPLAY_REISSUE -/

/-- A replay that nothing conflicts with any more is over: the group's loads reissue (R169). -/
theorem replayReissue_reissues (hlt : g.nxt < g.n) {p : Nat × Nat × Nat} (hp : g.replay = some p)
    (hconflict : j.conflict g.first p.1 (p.2.1 : Int) p.2.2 = false) :
    ∃ t, exec (.replayReissue q gi) s = .next t ∧ SpanNow t q g (fun _ g' => g'.replay = none ∧ g'.got = g.got) := by
  have hexec : exec (.replayReissue q gi) s = .next (s.setJob q.val (j.onGroup g.first (fun g => { g with replay := none })) 0) := by
    show execReplayReissue q gi s = _
    unfold execReplayReissue
    simp only [hj, hg, hp, hconflict, Bool.false_eq_true, if_false]
  refine ⟨_, hexec, ?_⟩
  exact spanNow_setJob s q _ 0 (j.mem_onGroup (List.mem_of_getElem? hg) _) rfl (SJob.complete_of_nxt_lt hlt) fun _ _ _ _ => ⟨rfl, rfl⟩

end

/-- Settles O22: GROUP_START, ELEMENT_LOAD_RETURN, CONFLICT_CHECK and REPLAY_REISSUE each by what its `State.setJob` keeps of the group. -/
theorem spanGroupsLoadAndCheck : Obligations.SpanGroupsLoadAndCheck := by
  intro q s j hj
  refine ⟨?start, ?loads⟩
  case start => exact fun ws => groupStart_begins hj
  case loads =>
    intro gi u k w d b g r hg hlt hr
    refine ⟨?load, ?check, ?reissue⟩
    case load =>
      exact fun off hreq hcan hword hquarter =>
        ⟨SJob.mem_sharers hreq hcan, elementLoadReturn_returns hj hg hr hlt hreq hcan hword hquarter⟩
    case check =>
      exact fun v hv hclear => ⟨conflictCheck_clears hj hg hr hlt hv hclear, conflictCheck_squashes hj hg hr hlt hv hclear⟩
    case reissue => exact fun p => replayReissue_reissues hj hg hlt

end Sys2Proof.Machine
end

section
/-!
PROOFS. O23, the Deck's part: the two words of a status word as they stand in the Deck, and what leaves the Deck alone at a job's end
(R199).
-/

namespace Sys2Proof.Machine
open Sys2Proof.Claims

/-! ### Bytes read together -/

theorem State.deckPeek_congr {s t : State} {a n : Nat} (h : ∀ i < n, t.deckByte (a + i) = s.deckByte (a + i)) :
    t.deckPeek a n = s.deckPeek a n := by
  induction n generalizing a with
  | zero => rfl
  | succ n ih =>
    have hfirst : t.deckByte a = s.deckByte a := h 0 (Nat.succ_pos n)
    have hrest : t.deckPeek (a + 1) n = s.deckPeek (a + 1) n := ih fun i hi => by
      have := h (i + 1) (by omega)
      rwa [show a + (i + 1) = a + 1 + i by omega] at this
    rw [State.deckPeek, State.deckPeek, hfirst, hrest]

/-- The Deck as read depends on its bytes and on what unlisted ones read as. -/
theorem State.deckPeek_of_eq {s t : State} (hd : t.deck = s.deck) (hf : t.fills = s.fills) (a n : Nat) :
    t.deckPeek a n = s.deckPeek a n :=
  State.deckPeek_congr fun i _ => by rw [State.deckByte, State.deckByte, hd, hf]

theorem State.deckPeek_lt (s : State) (a n : Nat) : s.deckPeek a n < 256 ^ n := by
  induction n generalizing a with
  | zero => exact Nat.one_pos
  | succ n ih =>
    have hbyte := (s.deckByte a).isLt
    have hrest := ih (a + 1)
    rw [State.deckPeek, Nat.pow_succ']
    omega

/-- Bytes read together are the bytes read apart. -/
theorem State.deckPeek_add (s : State) (a m n : Nat) : s.deckPeek a (m + n) = s.deckPeek a m + 256 ^ m * s.deckPeek (a + m) n := by
  induction m generalizing a with
  | zero => simp [State.deckPeek]
  | succ m ih =>
    rw [Nat.succ_add, State.deckPeek, State.deckPeek, ih, Nat.pow_succ', show a + 1 + m = a + (m + 1) by omega]
    ring

/-- The two halves of a word of 8 bytes. -/
theorem State.deckPeek_halves (s : State) (a : Nat) :
    s.deckPeek a 4 = s.deckPeek a 8 % 2 ^ 32 ∧ s.deckPeek (a + 4) 4 = s.deckPeek a 8 / 2 ^ 32 := by
  have hadd := s.deckPeek_add a 4 4
  have hlo := s.deckPeek_lt a 4
  norm_num only at hadd hlo ⊢
  omega

/-! ### A whole word written -/

/-- What a granted write does to bit errors and scrubs leaves the bytes. -/
theorem State.deckPeek_writtenWord (s : State) (w a n : Nat) : (s.writtenWord w).deckPeek a n = s.deckPeek a n := by
  refine State.deckPeek_of_eq ?_ ?_ a n
  all_goals
    unfold State.writtenWord
    dsimp only
    split <;> rfl

/-- A write of a whole word is one access, never refused for poison (R210). -/
theorem State.deckWrite_word (s : State) {off : Nat} (hoff : off % 8 = 0) (v : Nat) :
    s.deckWrite off 8 v = (false, (s.deckPoke off 8 (v % 2 ^ 64)).writtenWord (off / 8)) := by
  have hwords : wordsTouched off 8 = 1 := by
    unfold wordsTouched
    rw [if_neg (by decide)]
    omega
  have hk : min 8 (8 - off % 8) = 8 := by rw [hoff]; rfl
  unfold State.deckWrite
  rw [hwords]
  unfold State.deckWriteFrom
  rw [if_neg (by decide)]
  dsimp only
  rw [hk]
  rfl

/-- The status word of a Span in its home quarter: both writes succeed, and the words stand in the Deck (R199). -/
theorem State.spanStatus_home (s : State) {q off : Nat} (halign : off % 16 = 0) (hhome : deckQuarter off = q) (w : Nat × Nat × Nat × Nat) :
    (s.spanStatus q off w).2.deckPeek off 8 = (w.1 + 2 ^ 32 * w.2.1) % 2 ^ 64 ∧
      (s.spanStatus q off w).2.deckPeek (off + 8) 8 = (w.2.2.1 + 2 ^ 32 * w.2.2.2) % 2 ^ 64 := by
  have hnear : deckQuarter (off + 8) = q := by
    rw [← hhome]
    unfold deckQuarter
    omega
  have hwrite (t : State) {x : Nat} (hx : x % 8 = 0) (hq : deckQuarter x = q) (v : Nat) :
      t.spanWrite q x 8 v = (0, (t.deckPoke x 8 (v % 2 ^ 64)).writtenWord (x / 8)) := by
    unfold State.spanWrite
    rw [if_pos hq, t.deckWrite_word hx]
    rfl
  have hpeek (t : State) (x v : Nat) : (t.deckPoke x 8 (v % 2 ^ 64)).deckPeek x 8 = v % 2 ^ 64 := by
    rw [State.deckPeek_deckPoke]
    exact Nat.mod_mod _ _
  unfold State.spanStatus
  rw [hwrite s (x := off + 8) (by omega) hnear]
  dsimp only
  rw [if_neg (not_not.2 rfl), hwrite _ (by omega) hhome]
  dsimp only
  refine ⟨by rw [State.deckPeek_writtenWord, hpeek], ?_⟩
  rw [State.deckPeek_writtenWord, State.deckPeek_congr fun i hi => State.deckByte_deckPoke_other _ _ _ _ _ (.inr (by omega)),
    State.deckPeek_writtenWord, hpeek]

/-! ### What leaves the Deck alone -/

namespace State.OnlyCheck
variable {s t u : State}

theorem wf (h : s.OnlyCheck t) {f : Fd} {v : Nat} : s.OnlyCheck (t.wf f v) := h.trans (t.onlyCheck_wf f v)

theorem ite {c : Prop} [Decidable c] (ht : s.OnlyCheck t) (hu : s.OnlyCheck u) : s.OnlyCheck (if c then t else u) := by
  split <;> assumption

/-- A change outside the memories and the threads. -/
theorem upd (h : s.OnlyCheck t) (hd : u.deck = t.deck) (he : u.ecc = t.ecc) (hf : u.fills = t.fills) (hs : u.spad = t.spad)
    (hm : u.mbox = t.mbox) (hi : u.ispace = t.ispace) (ht : u.threads = t.threads) : s.OnlyCheck u :=
  h.trans ⟨hd, he, hf, hs, hm, hi, ht⟩

theorem setBit (h : s.OnlyCheck t) {f : Fd} {i : Nat} {v : Bool} : s.OnlyCheck (t.setBit f i v) := h.upd rfl rfl rfl rfl rfl rfl rfl

theorem raise (h : s.OnlyCheck t) {e : Nat} : s.OnlyCheck (t.raise e) := h.upd rfl rfl rfl rfl rfl rfl rfl

theorem onLdr (h : s.OnlyCheck t) {f : Ldr → Ldr} : s.OnlyCheck (t.onLdr f) := h.upd rfl rfl rfl rfl rfl rfl rfl

theorem cause (h : s.OnlyCheck t) {c : SysCause} {einfo : Word} {sub : Nat} : s.OnlyCheck (t.cause c einfo sub) :=
  h.upd rfl rfl rfl rfl rfl rfl rfl

theorem trigger (h : s.OnlyCheck t) {src : Nat} : s.OnlyCheck (t.trigger src) := h.upd rfl rfl rfl rfl rfl rfl rfl

theorem setShell (h : s.OnlyCheck t) {isl : Nat} {v : Shell} : s.OnlyCheck (t.setShell isl v) := h.upd rfl rfl rfl rfl rfl rfl rfl

theorem sendSpanFault (h : s.OnlyCheck t) {stop : Nat} {th : Thr} {tag slot : Nat} : s.OnlyCheck (t.sendSpanFault stop th tag slot) := by
  have hdrop (p : Nat) : s.OnlyCheck ((t.incSat Reg.VIA_ROUTE_ERR_CNT.COUNT).dropDelivery p) :=
    OnlyCheck.setBit (t := (t.incSat Reg.VIA_ROUTE_ERR_CNT.COUNT).incSat Reg.VIA_EV_DROP_CNT.COUNT) (OnlyCheck.wf (OnlyCheck.wf h))
  exact ite (h.upd rfl rfl rfl rfl rfl rfl rfl) (hdrop _)

theorem afterStatus (h : s.OnlyCheck t) {stop k endState : Nat} {ok : Bool} : s.OnlyCheck (t.afterStatus stop k endState ok) := by
  have hevent (u : Slot) : s.OnlyCheck (if jEven u.desc then t.raise (jEvent u.desc) else t) := ite h.raise h
  have hfault {x : State} (hx : s.OnlyCheck x) (u : Slot) (b : Bool) :
      s.OnlyCheck (if jTrap u.desc && b then x.sendSpanFault stop u.thr (jTag u.desc) k else x) := ite hx.sendSpanFault hx
  have hlost {x : State} (hx : s.OnlyCheck x) (u : Slot) : s.OnlyCheck (if ok then x else x.swLost k (jTag u.desc)) :=
    ite hx hx.wf.wf.wf
  unfold State.afterStatus
  exact (hlost (hfault (hevent _) _ _) _).upd rfl rfl rfl rfl rfl rfl rfl

end State.OnlyCheck

end Sys2Proof.Machine
end

section
/-!
PROOFS. O23. The oldest store acknowledged, the three ends of a job, its completion, and SPAN_CTL (R167, R172, R173, R181, R182, R199,
R201, R202, R206).
-/

namespace Sys2Proof.Machine
open Sys2Proof.Claims

/-! ### STORE_ACKNOWLEDGEMENT -/

/-- A store is among those of its own access (R206). -/
theorem SJob.mem_storesWith {j : SJob} {x : SStore} (hx : x ∈ j.stores) : x ∈ j.storesWith x := by
  unfold SJob.storesWith
  split
  · exact List.mem_singleton.2 rfl
  · split
    · exact List.mem_singleton.2 rfl
    · exact List.mem_filter.2 ⟨hx, by simp⟩

theorem SpansAndRegs.foldl_incWrap {α : Type} {s t : State} (h : SpansAndRegs s t) (f : Fd) (es : List α) :
    SpansAndRegs s (es.foldl (fun s _ => s.incWrap f) t) := by
  induction es generalizing t with
  | nil => exact h
  | cons e es ih => exact ih (h.wf f _)

section
variable {q : QIx} {s : State} {j : SJob} (hj : s.span q.val = some j)
include hj

/-- The bank performs the oldest store and those of its access, and acknowledges them (R167, R206). -/
theorem storeAcknowledgement_performs {x : SStore} {rest : List SStore} {d b : Damage} {w : Nat} (hended : j.ended = none)
    (hstores : j.stores = x :: rest) (hquarter : s.quarterBusy x.off = false) (hbeat : j.beatDone x = true) :
    let r := (s.noteRemote q.val x.off w).spanStore q.val (x.off / 8) ((j.storesWith x).map (fun y => (y.off, y.size, y.v))) d b
    r.1 = 0 → ∃ t, exec (.storeAcknowledgement q d b w) s = .next t ∧ t.deck = r.2.deck ∧ x ∈ j.storesWith x ∧
      (t.span q.val).map SJob.stores = some (j.stores.filter (fun y => !(j.storesWith x).contains y)) := by
  intro r hr
  have hexec : exec (.storeAcknowledgement q d b w) s =
      .next (((j.storesWith x).foldl (fun s _ => s.incWrap (Reg.SPAN_ELEM_CNT.COUNT q.val)) r.2).setJob q.val
        { j with stores := j.stores.filter (fun y => !(j.storesWith x).contains y) } 0) := by
    have hopen : (s.span q.val).filter (fun j => j.ended.isNone) = some j := by rw [hj]; simp [hended]
    show execStoreAcknowledgement q d b w s = _
    unfold execStoreAcknowledgement
    rw [hopen]
    dsimp only
    rw [hstores]
    dsimp only
    rw [hquarter, hbeat, if_neg (by decide), if_neg (not_not.2 hr)]
  refine ⟨_, hexec, ?_, SJob.mem_storesWith (hstores ▸ List.mem_cons_self), ?_⟩
  · exact (((SpansAndRegs.refl r.2).foldl_incWrap _ _).setJob q.val _ 0).onlyCheck.deck
  · rw [State.span_setJob_same]
    exact congrArg some ((SJob.groupsOnly_trim _ 16).trans (SJob.groupsOnly_note _)).stores

/-! ### The ends of a job -/

/-- FAULT at the oldest fault, once every earlier store has completed (R173). -/
theorem jobFaultEnd_ends {g : SGroup} {rest : List SGroup} {f : Nat × Option Nat} (hended : j.ended = none) (hab : j.aborting = false)
    (hgroups : j.groups = g :: rest) (hfault : g.fault = some f) (hstores : j.stores = []) :
    ∃ t e, exec (.jobFaultEnd q) s = .next t ∧ t = { s with spans := t.spans } ∧
      (t.span q.val).bind SJob.ended = some (2, f.1, g.first, e) := by
  have hexec : exec (.jobFaultEnd q) s = .next (s.setSpan q.val (some (j.finish endFault f.1 g.first [g]))) := by
    show execJobFaultEnd q s = _
    unfold execJobFaultEnd
    simp only [State.running_eq_some.2 ⟨hj, hended, hab⟩, hgroups, hfault, hstores, List.isEmpty_nil, Bool.not_true, Bool.false_eq_true,
      if_false]
  exact ⟨_, j.commitAt [g], hexec, rfl, by rw [State.span_setSpan_same]; rfl⟩

/-- DONE at VEND, every group complete (R182, R199). -/
theorem vend_ends (hended : j.ended = none) (hab : j.aborting = false) (hgroups : j.groups = [])
    (hbusy : s.rangeBusy (jProg j.desc + 8 * j.next) 8 = false)
    (hfetch : (s.spanFetch q.val (jProg j.desc) j.next 1).1 = ([vendWord], 0)) :
    ∃ t e, exec (.vend q) s = .next t ∧ (t.span q.val).bind SJob.ended = some (1, 0, j.next, e) := by
  have hexec : exec (.vend q) s =
      .next ((s.spanFetch q.val (jProg j.desc) j.next 1).2.setSpan q.val (some (j.finish endDone 0 j.next []))) := by
    show execVend q s = _
    unfold execVend
    rw [State.running_eq_some.2 ⟨hj, hended, hab⟩]
    dsimp only
    rw [hgroups, hbusy, hfetch, if_neg (by decide), if_pos ⟨rfl, rfl⟩]
  exact ⟨_, j.commitAt [], hexec, by rw [State.span_setSpan_same]; rfl⟩

/-- ABORTED once an aborted job has drained (R201). -/
theorem abortDrained_ends (hended : j.ended = none) (hab : j.aborting = true) (hstores : j.stores = []) :
    ∃ t e, exec (.abortDrained q) s = .next t ∧ t = { s with spans := t.spans } ∧ (t.span q.val).bind SJob.ended = some (3, 0, e) := by
  have hexec : exec (.abortDrained q) s = .next (s.setSpan q.val
      (some (j.finish endAborted 0 ((j.groups.head?.map (fun g => g.first)).getD j.next) j.groups))) := by
    have hopen : (s.span q.val).filter (fun j => j.aborting && j.ended.isNone && j.stores.isEmpty) = some j := by
      rw [hj]; simp [hended, hab, hstores]
    show execAbortDrained q s = _
    unfold execAbortDrained
    rw [hopen]
  exact ⟨_, _, hexec, rfl, by rw [State.span_setSpan_same]; rfl⟩

end

/-! ### JOB_COMPLETION -/

/-- What follows the Span's own record of an ended job: the event and SPAN_FAULT, the slot, the ledger, the other jobs' dependencies, the
island's quiesce (R196, R198, R202, R307). -/
def State.jobReleased (s : State) (q : Nat) (j : SJob) (st raw m : Nat) (u : Slot) (ok : Bool) : State :=
  (((s.afterStatus (16 + q) j.slot st ok).reconcile u.res u.cost m (jTag j.desc) j.slot).onLdr (fun l =>
    { l with raw := l.raw + (raw - l.drawn.getD q 0), drawn := l.drawn.set q 0 }))

theorem exec_jobCompletion {q : QIx} {s : State} {j : SJob} {e : Nat × Nat × Nat × Nat × Bool} (hj : s.span q.val = some j)
    (hended : j.ended = some e) (hbusy : s.rangeBusy (jStatus j.desc) 16 = false) (raw : Nat) :
    let w := statusWords j q.val e.1 e.2.1 e.2.2.1 e.2.2.2.1 e.2.2.2.2 (s.measured raw)
    let r := s.spanStatus q.val (jStatus j.desc) w
    exec (.jobCompletion q raw) s = .next ((((r.2.spanEnded q.val e.1 w.1).jobReleased q.val j e.1 raw (s.measured raw) (s.slot j.slot)
      r.1).settleDeps settleFuel).quiesceNow (16 + q.val)) := by
  intro w r
  show execJobCompletion q raw s = _
  unfold execJobCompletion
  rw [hj]
  dsimp only
  rw [hended]
  dsimp only
  rw [hbusy, if_neg Bool.false_ne_true]
  rfl

section
variable (s : State)

/-- The slot of an ended job is FREE (R202). -/
theorem State.slot_afterStatus_same (stop k endState : Nat) (ok : Bool) : ((s.afterStatus stop k endState ok).slot k).st = .free := by
  unfold State.afterStatus State.slot
  dsimp only
  rw [State.SpansKept.st_closeDeps]
  unfold State.setSlot
  dsimp only
  rw [SMap.get_set_same]
  rfl

/-- The Span is idle, its SPAN_JOB no longer valid (R202). -/
theorem State.spanEnded_idle (q st w0 : Nat) : (s.spanEnded q st w0).span q = none ∧ (s.spanEnded q st w0).rf (Reg.SPAN_JOB.VALID q) = 0 := by
  unfold State.spanEnded
  refine ⟨State.span_setSpan_same _ _ _, ?_⟩
  rw [State.rf_setSpan]
  exact State.rf_wf_same _ _ _ (Nat.le_refl 32)

theorem spansAndRegs_spanEnded (q st w0 : Nat) : SpansAndRegs s (s.spanEnded q st w0) := by
  have hend := (SpansAndRegs.refl s).wf (Reg.SPAN_LAST_END.WORD0 q) w0
  exact ((SpansAndRegs.ite (hend.wf (Reg.SPAN_JOBS_DONE.COUNT q) _) (hend.wf (Reg.SPAN_JOBS_BAD.COUNT q) _)).wf _ _).setSpan _ _

end

section
variable {s t : State}

theorem State.SpansKept.reconcile (h : s.SpansKept t) {r e m tag slot : Nat} : s.SpansKept (t.reconcile r e m tag slot) := by
  have hterms : s.SpansKept ((t.addTerm Reg.LDR_RESERVED.EQ (-(r : Int))).addTerm Reg.LDR_SPENT.EQ m) :=
    (h.wf (by decide)).wf (by decide)
  have havail {x : State} (hx : s.SpansKept x) (d : Int) : s.SpansKept (x.addAvail d) :=
    .ite ((hx.wf (by decide)).wf (by decide)) (hx.wf (by decide))
  have hexc {x : State} (hx : s.SpansKept x) (kind sub : Nat) : s.SpansKept (x.ldrException tag slot kind sub) :=
    (((hx.wf (by decide)).wf (by decide)).wf (by decide)).cause.trigger
  exact .ite (hexc (((havail hterms _).wf (by decide)).incSat (by decide)) _ _) (havail hterms _)

theorem State.SpansKept.jobReleased (h : s.SpansKept t) {q : Nat} {j : SJob} {st raw m : Nat} {u : Slot} {ok : Bool} :
    s.SpansKept (t.jobReleased q j st raw m u ok) := h.afterStatus.reconcile.onLdr

theorem State.SpansKept.quiesceNow (h : s.SpansKept t) {isl : Nat} : s.SpansKept (t.quiesceNow isl) := ite h.setShell h

theorem State.OnlyCheck.reconcile (h : s.OnlyCheck t) {r e m tag slot : Nat} : s.OnlyCheck (t.reconcile r e m tag slot) := by
  have havail {x : State} (hx : s.OnlyCheck x) (d : Int) : s.OnlyCheck (x.addAvail d) := .ite hx.wf.wf hx.wf
  have hexc {x : State} (hx : s.OnlyCheck x) (kind sub : Nat) : s.OnlyCheck (x.ldrException tag slot kind sub) :=
    hx.wf.wf.wf.cause.trigger
  exact .ite (hexc (havail h.wf.wf _).wf.wf _ _) (havail h.wf.wf _)

theorem State.OnlyCheck.jobReleased (h : s.OnlyCheck t) {q : Nat} {j : SJob} {st raw m : Nat} {u : Slot} {ok : Bool} :
    s.OnlyCheck (t.jobReleased q j st raw m u ok) := h.afterStatus.reconcile.onLdr

theorem State.OnlyCheck.quiesceNow (h : s.OnlyCheck t) {isl : Nat} : s.OnlyCheck (t.quiesceNow isl) :=
  .ite h.setShell h

/-- With no job waiting there are no dependencies to settle. -/
theorem State.settleDeps_of_none_waiting (h : ∀ k < 256, (s.slot k).st ≠ .waiting) (fuel : Nat) : s.settleDeps fuel = s := by
  have hclosed : s.closedSlot = none := by
    unfold State.closedSlot
    rw [List.find?_eq_none]
    intro k hk
    simp [h k (List.mem_range.1 hk)]
  cases fuel with
  | zero => rfl
  | succ fuel =>
    unfold State.settleDeps
    rw [hclosed]

end

/-- The first word of a status word has 32 bits, and the halves of both its 8-byte words stand apart (Table job-12). -/
theorem statusWords_halves (j : SJob) (q : Nat) {st fault : Nat} (instr commit : Nat) (cv : Bool) (m : Nat) (hst : st < 16)
    (hfault : fault < 32) :
    let w := statusWords j q st fault instr commit cv m
    (w.1 + 2 ^ 32 * w.2.1) % 2 ^ 64 % 2 ^ 32 = w.1 % 2 ^ 32 ∧ (w.1 + 2 ^ 32 * w.2.1) % 2 ^ 64 / 2 ^ 32 = w.2.1 ∧
      (w.2.2.1 + 2 ^ 32 * w.2.2.2) % 2 ^ 64 / 2 ^ 32 = w.2.2.2 := by
  have htag : jTag j.desc < 2 ^ 16 := getBits_lt _ _ _
  have hbit (c : Bool) : b2n c ≤ 1 := by cases c <;> decide
  have hrange := hbit j.indexRange
  have hcv := hbit cv
  unfold statusWords
  norm_num only at htag ⊢
  omega

/-- The status word written in the home quarter, as any state reads it that leaves the Deck alone (R199). -/
theorem State.OnlyCheck.reads_status {s t : State} {q : Nat} {j : SJob} {st fault instr commit m : Nat} {cv : Bool}
    (h : (s.spanStatus q (jStatus j.desc) (statusWords j q st fault instr commit cv m)).2.OnlyCheck t) (hst : st < 16)
    (hfault : fault < 32) (halign : jStatus j.desc % 16 = 0) (hhome : deckQuarter (jStatus j.desc) = q) :
    t.deckPeek (jStatus j.desc) 4 = (statusWords j q st fault instr commit cv m).1 % 2 ^ 32 ∧
      t.deckPeek (jStatus j.desc + 4) 4 = (statusWords j q st fault instr commit cv m).2.1 ∧
      t.deckPeek (jStatus j.desc + 12) 4 = (statusWords j q st fault instr commit cv m).2.2.2 := by
  obtain ⟨hword0, hword1, hword3⟩ := statusWords_halves j q instr commit cv m hst hfault
  generalize statusWords j q st fault instr commit cv m = w at h hword0 hword1 hword3 ⊢
  obtain ⟨hnear, hfar⟩ := s.spanStatus_home halign hhome w
  rw [← State.deckPeek_of_eq h.deck h.fills] at hnear hfar
  obtain ⟨hlo, hhi⟩ := t.deckPeek_halves (jStatus j.desc)
  obtain ⟨-, hlast⟩ := t.deckPeek_halves (jStatus j.desc + 8)
  exact ⟨by rw [hlo, hnear, hword0], by rw [hhi, hnear, hword1], by rw [← hword3, ← hfar, ← hlast]⟩

/-- The release of an ended job keeps the Spans and frees the slot; with no job waiting, it leaves the Deck alone (R196, R202). -/
theorem State.jobReleased_settled (s : State) (q : Nat) (j : SJob) (st raw m : Nat) (u : Slot) (ok : Bool) (isl : Nat) :
    let t := ((s.jobReleased q j st raw m u ok).settleDeps settleFuel).quiesceNow isl
    s.SpansKept t ∧ (t.slot j.slot).st = .free ∧ ((∀ k < 256, (s.slot k).st ≠ .waiting) → s.OnlyCheck t) := by
  have hreleased : s.SpansKept (s.jobReleased q j st raw m u ok) := (State.SpansKept.refl s).jobReleased
  have hdeck : s.OnlyCheck (s.jobReleased q j st raw m u ok) := (State.OnlyCheck.refl s).jobReleased
  have hfree : ((s.jobReleased q j st raw m u ok).slot j.slot).st = .free :=
    (State.SpansKept.refl _).reconcile.onLdr.free j.slot (s.slot_afterStatus_same _ _ _ _)
  generalize s.jobReleased q j st raw m u ok = x at hreleased hdeck hfree ⊢
  have hsettled : x.SpansKept ((x.settleDeps settleFuel).quiesceNow isl) := (State.SpansKept.refl x).settleDeps.quiesceNow
  refine ⟨hreleased.trans hsettled, hsettled.free _ hfree, fun hnone => ?_⟩
  rw [State.settleDeps_of_none_waiting fun k hk hwait => hnone k hk (hreleased.waiting k hwait)]
  exact hdeck.quiesceNow

/-- The completion frees the slot and leaves the Span idle; in the home quarter, with no job waiting, the status word stands in the Deck
(R199, R202). -/
theorem jobCompletion_completes {q : QIx} {s : State} {j : SJob} (hj : s.span q.val = some j) (raw : Nat)
    {st fault instr commit : Nat} {cv : Bool} (hended : j.ended = some (st, fault, instr, commit, cv)) (hst : st < 16) (hfault : fault < 32)
    (hbusy : s.rangeBusy (jStatus j.desc) 16 = false) :
    ∃ t, exec (.jobCompletion q raw) s = .next t ∧ t.span q.val = none ∧ (t.slot j.slot).st = .free ∧
      t.on (Reg.SPAN_JOB.VALID q.val) = false ∧
      ((∀ k, k < 256 → (s.slot k).st ≠ .waiting) → jStatus j.desc % 16 = 0 → deckQuarter (jStatus j.desc) = q.val →
        t.deckPeek (jStatus j.desc) 4 = (statusWords j q.val st fault instr commit cv (s.measured raw)).1 % 2 ^ 32 ∧
        t.deckPeek (jStatus j.desc + 4) 4 = (statusWords j q.val st fault instr commit cv (s.measured raw)).2.1 ∧
        t.deckPeek (jStatus j.desc + 12) 4 = (statusWords j q.val st fault instr commit cv (s.measured raw)).2.2.2) := by
  refine ⟨_, exec_jobCompletion hj hended hbusy raw, ?_⟩
  dsimp only
  generalize s.measured raw = m
  have hstatus : s.SpansKept (s.spanStatus q.val (jStatus j.desc) (statusWords j q.val st fault instr commit cv m)).2 :=
    (State.SpansKept.refl s).spanStatus
  have hreads (t : State) := State.OnlyCheck.reads_status (s := s) (t := t) (q := q.val) (j := j) (st := st) (fault := fault)
    (instr := instr) (commit := commit) (m := m) (cv := cv)
  generalize s.spanStatus q.val (jStatus j.desc) (statusWords j q.val st fault instr commit cv m) = r at hstatus hreads ⊢
  generalize (statusWords j q.val st fault instr commit cv m).1 = w0 at hreads ⊢
  obtain ⟨hidle, hvalid⟩ := r.2.spanEnded_idle q.val st w0
  have hrecord := spansAndRegs_spanEnded r.2 q.val st w0
  generalize r.2.spanEnded q.val st w0 = x at hidle hvalid hrecord ⊢
  obtain ⟨hkept, hfree, hdeck⟩ := x.jobReleased_settled q.val j st raw m (s.slot j.slot) r.1 (16 + q.val)
  refine ⟨?span, hfree, ?valid, fun hwait halign hhome => ?status⟩
  case span => exact (congrArg (SMap.get · none q.val) hkept.spans).trans hidle
  case valid =>
    have hcell : (Reg.SPAN_JOB.VALID q.val).addr < 0x1500 := by
      have hq := q.isLt
      show 0x1103 + 0x100 * q.val < 0x1500
      omega
    rw [State.on, State.rf, hkept.cells _ hcell]
    exact bne_eq_false_iff_eq.2 hvalid
  case status =>
    have hnone (k : Nat) (hk : k < 256) : (x.slot k).st ≠ .waiting := fun hx =>
      hwait k hk (hstatus.waiting k (hrecord.slot k ▸ hx))
    exact hreads _ (hrecord.onlyCheck.trans (hdeck hnone)) hst hfault halign hhome

theorem spanJobsEnd : SpanJobsEnd := by
  intro q s j hj
  refine ⟨?store, ?fault, ?vend, ?abort, ?completion⟩
  case store => exact fun x rest d b w => storeAcknowledgement_performs hj
  case fault => exact fun g rest f => jobFaultEnd_ends hj
  case vend => exact vend_ends hj
  case abort => exact abortDrained_ends hj
  case completion =>
    intro raw st fault instr commit cv hended hst hfault _ hbusy
    exact jobCompletion_completes hj raw hended hst hfault hbusy

/-! ### SPAN_CTL -/

theorem fieldsAt_spanCtl : ∀ q : QIx, fld 0 1 .rw 1 ∈ fieldsAt (Reg.SPAN_CTL_at q.val) := by decide

/-- RUNAHEAD_EN takes bit 0 of the word written (R172). -/
theorem on_writeReg_spanCtl (s : State) (q : QIx) (v : Word) :
    (s.writeReg .all (Reg.SPAN_CTL_at q.val) v).on (Reg.SPAN_CTL.RUNAHEAD_EN q.val) = v.getLsbD 0 := by
  have hfield : (s.writeReg .all (Reg.SPAN_CTL_at q.val) v).rf (Reg.SPAN_CTL.RUNAHEAD_EN q.val) = getBits v 0 1 :=
    s.getBits_writeReg .all (Reg.SPAN_CTL_at q.val) v (fld 0 1 .rw 1) (fieldsAt_spanCtl q)
  have hbit : (getBits v 0 1).testBit 0 = v.getLsbD 0 := by rw [testBit_getBits]; rfl
  have hlt := getBits_lt v 0 1
  rw [State.on, hfield, ← hbit, Nat.testBit_zero]
  generalize getBits v 0 1 = n at hlt
  interval_cases n <;> rfl

theorem spanControlRefusedUnlessIdle : SpanControlRefusedUnlessIdle := by
  intro q v s
  have hexec : exec (.spanCtlWrite q v) s = .next (s.writeSpanCtl q.val v).st := rfl
  refine ⟨fun hidle => ?idle, fun hbusy => ?busy⟩
  case idle =>
    have hwrite : s.writeSpanCtl q.val v = .ok (s.writeReg .all (Reg.SPAN_CTL_at q.val) v) := by
      rw [State.writeSpanCtl, hidle, Option.isSome_none, if_neg Bool.false_ne_true]
    rw [hwrite] at hexec
    exact ⟨_, hexec, rfl, on_writeReg_spanCtl s q v⟩
  case busy =>
    have hrefuse : s.writeSpanCtl q.val v = s.refused (spanRefuse q.val) 0 := by
      rw [State.writeSpanCtl, if_pos (Option.isSome_iff_ne_none.2 hbusy)]
    rw [hrefuse] at hexec
    refine ⟨_, hexec, ?_, ?_⟩
    · have hone : ((s.wf (Reg.SPAN_STATUS.REFUSED q.val) 1).raiseIf (Reg.SPAN_STATUS.REFUSE_EVENT q.val)
          (Reg.SPAN_STATUS.REFUSE_EVENT_EN q.val)).rf (Reg.SPAN_STATUS.REFUSED q.val) = 1 := by
        rw [State.rf_raiseIf, State.rf_wf_same _ _ _ (by show 8 + 1 ≤ 32; decide)]
        rfl
      exact congrArg (· != 0) hone
    · have hne : (Reg.SPAN_CTL.RUNAHEAD_EN q.val).addr ≠ (spanRefuse q.val).refused.addr := by
        show 0x1102 + 0x100 * q.val ≠ 0x1101 + 0x100 * q.val
        omega
      rw [State.refused_st, State.on, State.on, State.rf, State.rf, s.reg_refuse_other _ _ _ hne (fun f hf => absurd hf (by simp [spanRefuse]))]

/-- Settles O23: the acknowledgement, the ends and the completion of a job each by what its command leaves, SPAN_CTL by the Span's state. -/
theorem spanJobsEndAndControl : Obligations.SpanJobsEndAndControl := ⟨spanJobsEnd, spanControlRefusedUnlessIdle⟩

end Sys2Proof.Machine
end

section
/-!
PROOFS. The Dispatcher's slots: the Deck and the Viaduct leave them alone, and a job ended before its admission frees its own and changes of
the others their dependencies alone (R196, R199, R202).
-/

namespace Sys2Proof.Machine

/-! ### What leaves the slots alone -/

section
variable (s : State)

@[simp] theorem State.queueScrub_slots (w : Nat) : (s.queueScrub w).slots = s.slots := by
  unfold State.queueScrub
  split <;> rfl

@[simp] theorem State.checkWord_slots (w : Nat) : (s.checkWord w).2.slots = s.slots := by
  unfold State.checkWord
  split
  · rw [State.detectPoison, State.raiseIf_slots, State.wf_slots, State.incSat_slots]
  · split
    · rw [State.correct, State.queueScrub_slots, State.raiseIf_slots, State.wf_slots, State.incSat_slots]
    · rfl

@[simp] theorem State.writtenWord_slots (w : Nat) : (s.writtenWord w).slots = s.slots := by
  unfold State.writtenWord
  dsimp only
  split <;> rfl

@[simp] theorem State.deckWriteWord_slots (a n v : Nat) : (s.deckWriteWord a n v).2.slots = s.slots := by
  unfold State.deckWriteWord
  dsimp only
  split
  · rw [State.writtenWord_slots, State.deckPoke_slots]
  · split
    · exact s.checkWord_slots _
    · rw [State.writtenWord_slots, State.deckPoke_slots, State.checkWord_slots]

@[simp] theorem State.deckWriteFrom_slots (fuel a n v : Nat) : (s.deckWriteFrom fuel a n v).2.slots = s.slots := by
  induction fuel generalizing s a n v with
  | zero => rfl
  | succ fuel ih =>
    unfold State.deckWriteFrom
    split
    · rfl
    · exact (ih _ _ _ _).trans (s.deckWriteWord_slots _ _ _)

@[simp] theorem State.turnAway_slots (ni : Nat) (op : NetOp) : (s.turnAway ni op).2.slots = s.slots := by
  unfold State.turnAway
  split
  · exact s.incSat_slots _ _
  · split_ifs
    · exact s.incSat_slots _ _
    · exact s.incSat_slots _ _
    · exact s.incSat_slots _ _
    · rfl

/-- A response that nothing befalls on its way. -/
@[simp] theorem State.comesBack_slots (r : Req) (p : Resp) : (s.comesBack r p .none).2.slots = s.slots := by
  unfold State.comesBack
  rw [State.backBad_none, if_neg Bool.false_ne_true]
  split
  · exact (State.incSat_slots _ _ _).trans (s.incSat_slots Reg.VIA_ROUTE_ERR_CNT.COUNT 1)
  · cases p <;> rfl

@[simp] theorem State.deckSend_slots (ni vc off n v : Nat) : (s.deckSend ni vc off n v).2.slots = s.slots := by
  have hturn := s.turnAway_slots ni (.deckWr off n v)
  unfold State.deckSend
  generalize s.turnAway ni (.deckWr off n v) = x at hturn ⊢
  obtain ⟨_ | e, t⟩ := x
  · dsimp only at hturn ⊢
    rw [if_neg (by rw [Req.bad_none]; decide), State.comesBack_slots, ← hturn]
    exact t.deckWriteFrom_slots _ _ _ _
  · exact hturn

@[simp] theorem State.dispStatus_slots (off w0 w1 : Nat) : (s.dispStatus off w0 w1).2.slots = s.slots := by
  rw [State.dispStatus, State.deckSend_slots, State.deckSend_slots]

@[simp] theorem State.sendSpanFault_slots (stop : Nat) (th : Thr) (tag slot : Nat) :
    (s.sendSpanFault stop th tag slot).slots = s.slots := by
  unfold State.sendSpanFault State.toPier
  split
  · rfl
  · rw [State.dropDelivery, State.setBit_slots, State.incSat_slots, State.incSat_slots]

end

/-! ### The end of a queued job -/

/-- Closing the dependencies on a slot changes of another slot its dependencies alone (R196). -/
theorem get_closeDeps (m : SMap Slot) (k : Nat) (bad : Bool) (i : Nat) :
    ∃ deps b, SMap.get (closeDeps m k bad) Slot.none i = { SMap.get m Slot.none i with deps := deps, depBad := b } := by
  induction m with
  | nil => exact ⟨_, _, rfl⟩
  | cons e m ih =>
    have hcons : closeDeps (e :: m) k bad =
        (if e.2.deps.contains k then
          (e.1, { e.2 with deps := e.2.deps.filter (fun x => x != k), depBad := e.2.depBad || bad }) else e) :: closeDeps m k bad := rfl
    rw [hcons, SMap.get_cons, SMap.get_cons]
    have hkey : (if e.2.deps.contains k then
          (e.1, { e.2 with deps := e.2.deps.filter (fun x => x != k), depBad := e.2.depBad || bad }) else e).1 = e.1 := by
      split <;> rfl
    rw [hkey]
    by_cases hi : e.1 = i
    · rw [if_pos hi, if_pos hi]
      split <;> exact ⟨_, _, rfl⟩
    · rw [if_neg hi, if_neg hi]
      exact ih

/-- The slot of a job whose status word has committed is FREE, and its dependents are closed (R196, R202). -/
theorem State.slots_afterStatus (s : State) (stop k endState : Nat) (ok : Bool) :
    (s.afterStatus stop k endState ok).slots = closeDeps (SMap.set s.slots Slot.none k Slot.none) k (endState != endDone) := by
  have hevent (t : State) (b : Bool) (e : Nat) : (if b then t.raise e else t).slots = t.slots := by
    split
    · exact t.raise_slots e
    · rfl
  have hfault (t : State) (b : Bool) (th : Thr) (tag : Nat) : (if b then t.sendSpanFault stop th tag k else t).slots = t.slots := by
    split
    · exact t.sendSpanFault_slots _ _ _ _
    · rfl
  have hlost (t : State) (tag : Nat) : (if ok then t else t.swLost k tag).slots = t.slots := by
    split
    · rfl
    · rw [State.swLost, State.wf_slots, State.wf_slots, State.wf_slots]
  unfold State.afterStatus State.setSlot
  dsimp only
  rw [hlost, hfault, hevent]

theorem State.slots_dispEnd (s : State) (k endState fault : Nat) :
    (s.dispEnd k endState fault).slots = closeDeps (SMap.set s.slots Slot.none k Slot.none) k (endState != endDone) := by
  rw [State.dispEnd, State.slots_afterStatus, State.dispStatus_slots]

/-- A job ended before its admission leaves every other slot but for its dependencies. -/
theorem State.slot_dispEnd_other (s : State) (endState fault : Nat) {i k : Nat} (hne : i ≠ k) :
    ∃ deps b, (s.dispEnd k endState fault).slot i = { s.slot i with deps := deps, depBad := b } := by
  obtain ⟨deps, b, h⟩ := get_closeDeps (SMap.set s.slots Slot.none k Slot.none) k (endState != endDone) i
  rw [SMap.get_set_other _ _ _ _ _ _ hne] at h
  exact ⟨deps, b, by rw [State.slot, State.slots_dispEnd]; exact h⟩

end Sys2Proof.Machine
end

section
/-!
PROOFS. O24. A submission takes the free slot; aborts free the queued jobs among their targets and make the Spans of the running ones
drain; both are refused from any source but a pier (R193, R194, R196, R201).
-/

namespace Sys2Proof.Machine
open Sys2Proof.Claims

/-! ### Refusals (R194) -/

section
variable (s : State) (src : Src) (v : Word) (reason : Nat)

theorem State.refuse_dispRefuse : s.refuse dispRefuse reason =
    ((s.wf Reg.DISP_STATUS.REFUSED 1).wf Reg.DISP_REFUSE_INFO.REASON reason).raiseIf Reg.DISP_STATUS.REFUSE_EVENT
      Reg.DISP_STATUS.REFUSE_EVENT_EN := rfl

theorem State.dispRefused_slots : (s.dispRefused src v reason).slots = s.slots := by
  unfold State.dispRefused
  dsimp only
  rw [State.incSat_slots, State.wf_slots, State.wf_slots, State.wf_slots, State.wf_slots, State.wf_slots, State.refuse_dispRefuse,
    State.raiseIf_slots, State.wf_slots, State.wf_slots]

theorem State.dispRefused_spans : (s.dispRefused src v reason).spans = s.spans := by
  unfold State.dispRefused
  dsimp only
  rw [State.incSat_spans, State.wf_spans, State.wf_spans, State.wf_spans, State.wf_spans, State.wf_spans, State.refuse_dispRefuse,
    State.raiseIf_spans, State.wf_spans, State.wf_spans]

/-- The sources that are no pier (R194). -/
theorem ne_pier_of_mem {src : Src} (hsrc : src ∈ [Src.fobex, .keystone, .debug]) (th : Thr) : src ≠ .pier th := by
  rintro rfl
  simp at hsrc

/-- The fields that a refusal records beside REFUSED and REASON. -/
def dispRefuseRecord : List Fd :=
  [Reg.DISP_REFUSE_INFO.PIER, Reg.DISP_REFUSE_INFO.THREAD, Reg.DISP_REFUSE_INFO.FOBEX, Reg.DISP_REFUSE_INFO.NONPIER,
    Reg.DISP_REFUSE_ADDR.VALUE, Reg.DISP_REFUSE_CNT.COUNT]

/-- A field apart from those recorded reads as R13's refusal leaves it. -/
theorem State.rf_dispRefused {f : Fd}
    (hf : ∀ g ∈ dispRefuseRecord, f.addr ≠ g.addr ∨ f.lo + f.width ≤ g.lo ∨ g.lo + g.width ≤ f.lo) :
    (s.dispRefused src v reason).rf f = (s.refuse dispRefuse reason).rf f := by
  simp only [dispRefuseRecord, List.forall_mem_cons, List.not_mem_nil, false_imp_iff, implies_true, and_true] at hf
  obtain ⟨hpier, hthread, hfobex, hnonpier, hvalue, hcount⟩ := hf
  unfold State.dispRefused State.incSat
  dsimp only
  rw [State.rf_wf_other _ _ _ _ hcount, State.rf_wf_other _ _ _ _ hvalue, State.rf_wf_other _ _ _ _ hnonpier,
    State.rf_wf_other _ _ _ _ hfobex, State.rf_wf_other _ _ _ _ hthread, State.rf_wf_other _ _ _ _ hpier]

theorem State.on_dispRefused_refused : (s.dispRefused src v reason).on Reg.DISP_STATUS.REFUSED = true := by
  have hone : (s.dispRefused src v reason).rf Reg.DISP_STATUS.REFUSED = 1 := by
    rw [State.rf_dispRefused _ _ _ _ (by decide), State.refuse_dispRefuse, State.rf_raiseIf, State.rf_wf_other _ _ _ _ (.inl (by decide)),
      State.rf_wf_same _ _ _ (by decide)]
    rfl
  rw [State.on, hone]
  rfl

theorem State.rf_dispRefused_reason (hreason : reason < 16) :
    (s.dispRefused src v reason).rf Reg.DISP_REFUSE_INFO.REASON = reason := by
  rw [State.rf_dispRefused _ _ _ _ (by decide), State.refuse_dispRefuse, State.rf_raiseIf, State.rf_wf_same _ _ _ (by decide)]
  exact Nat.mod_eq_of_lt hreason

end

/-- A write from a source that is no pier never waits (R194). -/
theorem State.unlessHeld_of_ne_pier (s : State) {src : Src} (hsrc : ∀ th, src ≠ .pier th) (held : Bool) (r : WRes) :
    s.unlessHeld src held r = r.st := by
  cases src with
  | pier th => exact absurd rfl (hsrc th)
  | fobex | keystone | debug => rfl

theorem State.unlessHeld_pier (s : State) (th : Thr) {held : Bool} (hheld : held = false) (r : WRes) :
    s.unlessHeld (.pier th) held r = r.st := by
  rw [hheld]
  rfl

/-! ### Submission (R193, R196) -/

theorem State.SpansKept.dispRead {s t : State} (h : s.SpansKept t) {off n : Nat} : s.SpansKept (t.dispRead off n).2 := by
  induction n generalizing t off with
  | zero => exact h
  | succ n ih =>
    unfold State.dispRead
    dsimp only
    split
    · exact h.deckFetch
    · exact ih h.deckFetch

/-- The slot of an accepted job, and the acceptance number after it. -/
theorem State.slot_accept (s : State) (th : Thr) (d : List Word) (k : Nat) :
    ((s.accept th d k).slot k).desc = d ∧ ((s.accept th d k).slot k).thr = th ∧ ((s.accept th d k).slot k).seq = s.accepted ∧
      ((s.accept th d k).slot k).st = (if (List.range 256).any (fun u => (s.slot u).holds d) then .waiting else .ready) ∧
      (s.accept th d k).accepted = s.accepted + 1 := by
  have hslot : (s.accept th d k).slot k =
      ⟨if ((List.range 256).filter (fun u => (s.slot u).holds d)).isEmpty then .ready else .waiting, s.accepted, d, th, 0,
        (List.range 256).filter (fun u => (s.slot u).holds d), false, 0, 0, 0⟩ := by
    unfold State.accept State.setSlot
    dsimp only
    rw [State.slot, State.incWrap_slots, SMap.get_set_same]
  rw [hslot]
  refine ⟨rfl, rfl, rfl, ?_, State.incWrap_accepted _ _ _⟩
  dsimp only
  have hempty : ((List.range 256).filter (fun u => (s.slot u).holds d)).isEmpty = !(List.range 256).any (fun u => (s.slot u).holds d) := by
    rw [Bool.eq_iff_iff, List.isEmpty_iff, List.filter_eq_nil_iff, Bool.not_eq_true', List.any_eq_false]
  rw [hempty]
  cases (List.range 256).any (fun u => (s.slot u).holds d) <;> rfl

/-- A good submission of a pier thread is accepted. -/
theorem exec_jobSubmission_good {s : State} {v : Word} (th : Thr) {d : List Word} {k : Nat} (hwait : s.submitWaits v = false)
    (halign : v.toNat % 64 = 0) (hlt : v.toNat < s.grade.deckBytes) (hread : (s.dispRead v.toNat 8).1 = some d)
    (hbad : jBad s.grade d = false) (hspans : (s.dispRead v.toNat 8).2.spansFor d ≠ [])
    (hfree : (s.dispRead v.toNat 8).2.freeSlot = some k) :
    exec (.jobSubmission (.pier th) v) s = .next ((s.dispRead v.toNat 8).2.accept th d k) := by
  have hgrade := ((State.SpansKept.refl s).dispRead (off := v.toNat) (n := 8)).grade
  have hsubmit : s.submit (.pier th) v = .ok ((s.dispRead v.toNat 8).2.accept th d k) := by
    unfold State.submit
    dsimp only
    rw [if_neg (by omega), hread]
    dsimp only
    unfold State.submitDesc
    rw [hgrade, hbad, if_neg Bool.false_ne_true, if_neg (by rwa [List.isEmpty_iff]), hfree]
  show execJobSubmission (.pier th) v s = _
  rw [execJobSubmission, s.unlessHeld_pier th hwait, hsubmit, WRes.ok_st]

/-- A submission from a source that is no pier is refused unread. -/
theorem State.submit_of_ne_pier (s : State) {src : Src} (hsrc : ∀ th, src ≠ .pier th) (v : Word) :
    s.submit src v = ⟨s.dispRefused src v rSource, 3⟩ := by
  cases src with
  | pier th => exact absurd rfl (hsrc th)
  | fobex | keystone | debug => rfl

theorem submissionsTakeSlots : SubmissionsTakeSlots := by
  intro th v s
  refine ⟨fun d k hwait halign hlt hread hbad hspans hfree => ?good, ?source⟩
  case good => exact ⟨_, exec_jobSubmission_good th hwait halign hlt hread hbad hspans hfree, State.slot_accept _ th d k⟩
  case source =>
    intro src hsrc
    have hexec : exec (.jobSubmission src v) s = .next (s.dispRefused src v rSource) := by
      show execJobSubmission src v s = _
      rw [execJobSubmission, s.unlessHeld_of_ne_pier (ne_pier_of_mem hsrc), s.submit_of_ne_pier (ne_pier_of_mem hsrc)]
    exact ⟨_, hexec, s.dispRefused_slots _ _ _, s.on_dispRefused_refused _ _ _, s.rf_dispRefused_reason _ _ _ (by decide)⟩

/-! ### Aborts (R201) -/

/-- `t` comes after `s` by aborts: a slot is FREE or its state and Span are as before, a running job keeps its slot, and a Span's job
differs in the drain alone, which is not taken back. -/
structure State.Aborted (s t : State) : Prop where
  slot : ∀ i, (t.slot i).st = .free ∨ (t.slot i).st = (s.slot i).st ∧ (t.slot i).span = (s.slot i).span
  running : ∀ i, (s.slot i).st = .running → (t.slot i).st = .running
  span : ∀ q j, s.span q = some j → ∃ b, t.span q = some { j with aborting := b } ∧ (j.aborting = true → b = true)

namespace State.Aborted

theorem refl (s : State) : s.Aborted s := ⟨fun _ => .inr ⟨rfl, rfl⟩, fun _ h => h, fun _ j h => ⟨j.aborting, h, id⟩⟩

theorem trans {s t u : State} (h : s.Aborted t) (k : t.Aborted u) : s.Aborted u := by
  refine ⟨fun i => ?_, fun i hi => k.running i (h.running i hi), fun q j hj => ?_⟩
  · rcases k.slot i with hfree | ⟨hst, hspan⟩
    · exact .inl hfree
    · rcases h.slot i with hfree | ⟨hst', hspan'⟩
      · exact .inl (hst.trans hfree)
      · exact .inr ⟨hst.trans hst', hspan.trans hspan'⟩
  · obtain ⟨b, hb, hkeep⟩ := h.span q j hj
    obtain ⟨b', hb', hkeep'⟩ := k.span q _ hb
    exact ⟨b', hb', fun ha => hkeep' (hkeep ha)⟩

/-- A slot that is FREE stays FREE. -/
theorem free {s t : State} (h : s.Aborted t) {i : Nat} (hi : (s.slot i).st = .free) : (t.slot i).st = .free := by
  rcases h.slot i with hfree | ⟨hst, -⟩
  · exact hfree
  · exact hst.trans hi

/-- A Span that drains goes on draining. -/
theorem draining {s t : State} (h : s.Aborted t) {q : Nat} (hq : (s.span q).map SJob.aborting = some true) :
    (t.span q).map SJob.aborting = some true := by
  obtain ⟨j, hj, hab⟩ := Option.map_eq_some_iff.1 hq
  obtain ⟨b, hb, hkeep⟩ := h.span q j hj
  rw [hb, Option.map_some, hkeep hab]

/-- A running job's Span drains. -/
theorem onSpan (s : State) (q : Nat) : s.Aborted (s.onSpan q (fun j => { j with aborting := true })) := by
  refine ⟨fun _ => .inr ⟨rfl, rfl⟩, fun _ h => h, fun p j hj => ?_⟩
  by_cases hp : p = q
  · subst hp
    exact ⟨true, by rw [State.onSpan, State.span_setSpan_same, hj]; rfl, fun _ => rfl⟩
  · exact ⟨j.aborting, by rw [State.onSpan, State.span_setSpan_other _ _ hp, hj], id⟩

/-- A queued job ends. -/
theorem dispEnd {s : State} {k : Nat} (hk : (s.slot k).st ≠ .running) (endState fault : Nat) :
    s.Aborted (s.dispEnd k endState fault) := by
  have hspans : (s.dispEnd k endState fault).spans = s.spans := (State.SpansKept.refl s).dispEnd.spans
  have hother {i : Nat} (hi : i ≠ k) : ((s.dispEnd k endState fault).slot i).st = (s.slot i).st ∧
      ((s.dispEnd k endState fault).slot i).span = (s.slot i).span := by
    obtain ⟨deps, b, h⟩ := s.slot_dispEnd_other endState fault hi
    rw [h]
    exact ⟨rfl, rfl⟩
  refine ⟨fun i => ?_, fun i hi => ?_, fun q j hj => ⟨j.aborting, by rw [State.span, hspans]; exact hj, id⟩⟩
  · by_cases hi : i = k
    · subst hi
      exact .inl (State.slot_afterStatus_same _ _ _ _ _)
    · exact .inr (hother hi)
  · exact (hother (fun e => hk (e ▸ hi))).1.trans hi

theorem abortSlot (s : State) (k : Nat) : s.Aborted (s.abortSlot k) := by
  unfold State.abortSlot
  split
  · exact onSpan s _
  · next hk => exact dispEnd hk _ _

theorem abortAll (s : State) (ks : List Nat) : s.Aborted (s.abortAll ks) := by
  induction ks generalizing s with
  | nil => exact refl s
  | cons k ks ih =>
    unfold State.abortAll
    split
    · exact (abortSlot s k).trans (ih _)
    · exact ih _

end State.Aborted

theorem State.abortAll_append (s : State) (ks ls : List Nat) : s.abortAll (ks ++ ls) = (s.abortAll ks).abortAll ls := by
  induction ks generalizing s with
  | nil => rfl
  | cons k ks ih => exact ih _

/-- A queued job can be aborted. -/
theorem State.abortable_of_queued {s : State} {k : Nat} (hk : (s.slot k).st = .waiting ∨ (s.slot k).st = .ready) :
    s.abortable k = true := by
  unfold State.abortable
  rcases hk with hk | hk
  · simp only [hk]
  · simp only [hk]

/-- A running job can be aborted where its Span neither drains nor has ended nor has found the job's fault. -/
theorem State.abortable_iff_of_running {s : State} {k : Nat} (hk : (s.slot k).st = .running) :
    s.abortable k = true ↔ ∃ j, s.span (s.slot k).span = some j ∧ j.aborting = false ∧ j.ended = none ∧ j.faulting = false := by
  unfold State.abortable
  simp only [hk]
  cases s.span (s.slot k).span with
  | none => simp
  | some j => simp [and_assoc]

section
variable {s : State} {k : Nat} {ks : List Nat}

/-- Every queued job among the targets is ended, its slot FREE. -/
theorem State.abortAll_frees (hk : k ∈ ks) (hst : (s.slot k).st = .waiting ∨ (s.slot k).st = .ready) :
    ((s.abortAll ks).slot k).st = .free := by
  obtain ⟨ls, ms, rfl⟩ := List.append_of_mem hk
  have hbefore := State.Aborted.abortAll s ls
  rw [State.abortAll_append]
  generalize s.abortAll ls = t at hbefore ⊢
  rcases hbefore.slot k with hfree | ⟨hsame, -⟩
  · exact (State.Aborted.abortAll t _).free hfree
  · rw [← hsame] at hst
    unfold State.abortAll State.abortSlot
    rw [if_pos (State.abortable_of_queued hst), if_neg (by rcases hst with h | h <;> rw [h] <;> decide)]
    exact (State.Aborted.abortAll _ ms).free (State.slot_afterStatus_same _ _ _ _ _)

/-- Every running job among the targets that can be aborted drains. -/
theorem State.abortAll_drains (hk : k ∈ ks) (hst : (s.slot k).st = .running) (hab : s.abortable k = true) :
    ((s.abortAll ks).span (s.slot k).span).map SJob.aborting = some true := by
  obtain ⟨ls, ms, rfl⟩ := List.append_of_mem hk
  obtain ⟨j, hj, -, hended, hfault⟩ := (State.abortable_iff_of_running hst).1 hab
  have hbefore := State.Aborted.abortAll s ls
  rw [State.abortAll_append]
  generalize s.abortAll ls = t at hbefore ⊢
  have hrun := hbefore.running k hst
  have hspan : (t.slot k).span = (s.slot k).span := by
    rcases hbefore.slot k with hfree | ⟨-, hspan⟩
    · rw [hrun] at hfree
      exact absurd hfree (by decide)
    · exact hspan
  obtain ⟨b, hb, -⟩ := hbefore.span _ j hj
  rw [← hspan] at hb ⊢
  cases b with
  | true => exact (State.Aborted.abortAll t _).draining (by rw [hb]; rfl)
  | false =>
    have habt : t.abortable k = true := (State.abortable_iff_of_running hrun).2 ⟨_, hb, rfl, hended, hfault⟩
    unfold State.abortAll State.abortSlot
    rw [if_pos habt, if_pos hrun]
    refine (State.Aborted.abortAll _ ms).draining ?_
    rw [State.onSpan, State.span_setSpan_same, hb]
    rfl

end

/-- An abort from a source that is no pier is refused unread. -/
theorem State.abortThese_of_ne_pier (s : State) {src : Src} (hsrc : ∀ th, src ≠ .pier th) (v : Word) (ks : List Nat) :
    s.abortThese src v ks = ⟨s.dispRefused src v rSource, 3⟩ := by
  cases src with
  | pier th => exact absurd rfl (hsrc th)
  | fobex | keystone | debug => rfl

/-- The three commands and their targets: each is `State.abortThese`, waiting for the status words of the queued ones. -/
def abortRows (slot : BitVec 8) (tag : BitVec 16) (s : State) : List ((Src → Instr) × List Nat) :=
  [((fun src => Instr.abortSlot src slot), [slot.toNat]),
    ((fun src => Instr.abortTag src tag), (List.range 256).filter (fun k => jTag (s.slot k).desc == tag.toNat)),
    ((fun src => Instr.abortAll src), List.range 256)]

theorem exec_abortRow (slot : BitVec 8) (tag : BitVec 16) (s : State) : ∀ e ∈ abortRows slot tag s,
    ∃ v, ∀ src, exec (e.1 src) s = .next (s.unlessHeld src (s.abortWaits e.2) (s.abortThese src v e.2)) := by
  simp only [abortRows, List.forall_mem_cons, List.not_mem_nil, false_imp_iff, implies_true, and_true]
  exact ⟨⟨_, fun _ => rfl⟩, ⟨_, fun _ => rfl⟩, ⟨_, fun _ => rfl⟩⟩

theorem abortsEndTheirTargets : AbortsEndTheirTargets := by
  intro th slot tag s e he
  obtain ⟨v, hexec⟩ := exec_abortRow slot tag s e he
  refine ⟨fun k hk hwait hab => ?targets, fun hwait hnone => ?none, fun src hsrc => ?source⟩
  case targets =>
    have hthese : s.abortThese (.pier th) v e.2 = .ok ((s.abortAll e.2).settleDeps settleFuel) := by
      rw [State.abortThese, if_pos (List.any_eq_true.2 ⟨k, hk, hab⟩)]
    have hsettled : (s.abortAll e.2).SpansKept ((s.abortAll e.2).settleDeps settleFuel) := (State.SpansKept.refl _).settleDeps
    refine ⟨_, hexec _, ?_⟩
    rw [s.unlessHeld_pier th hwait, hthese, WRes.ok_st]
    refine ⟨fun hst => hsettled.free k (State.abortAll_frees hk hst), fun hst => ?_⟩
    rw [State.span, hsettled.spans]
    exact State.abortAll_drains hk hst hab
  case none =>
    have hrefused : exec (e.1 (.pier th)) s = .next (s.dispRefused (.pier th) v rAbortNone) := by
      rw [hexec, s.unlessHeld_pier th hwait, State.abortThese, if_neg (by simpa using hnone)]
    exact ⟨_, hrefused, s.dispRefused_slots _ _ _, s.dispRefused_spans _ _ _, s.on_dispRefused_refused _ _ _,
      s.rf_dispRefused_reason _ _ _ (by decide)⟩
  case source =>
    have hrefused : exec (e.1 src) s = .next (s.dispRefused src v rSource) := by
      rw [hexec, s.unlessHeld_of_ne_pier (ne_pier_of_mem hsrc), s.abortThese_of_ne_pier (ne_pier_of_mem hsrc)]
    exact ⟨_, hrefused, s.dispRefused_slots _ _ _, s.dispRefused_spans _ _ _, s.rf_dispRefused_reason _ _ _ (by decide)⟩

/-- Settles O24: a submission by the descriptor it reads and the slot it finds, an abort by what each target's turn leaves of the slots and
the Spans. -/
theorem submissionsAndAborts : Obligations.SubmissionsAndAborts := ⟨submissionsTakeSlots, abortsEndTheirTargets⟩

end Sys2Proof.Machine
end

section
/-!
PROOFS. O21, a reduction's step: it takes the element into its segment, and where the element ends the segment its result is stored or
passed over and the next segment starts anew (R161, R187, R189).
-/

namespace Sys2Proof.Machine
open Sys2Proof.Claims

theorem exec_redRow (q : QIx) (s : State) : ∀ e ∈ redRows, exec (e.1 q) s = .next (s.spanRed q e.2) := by
  simp only [redRows, List.forall_mem_cons, List.not_mem_nil, false_imp_iff, implies_true, and_true]
  exact ⟨rfl, rfl, rfl, rfl, rfl⟩

/-- The instruction a job is at for an operation has its OPC. -/
theorem SJob.opc_of_at {j : SJob} {opc : Nat} {g : SGroup} {i : SIns} (h : j.at opc = some (g, i)) : i.opc = opc := by
  unfold SJob.at at h
  dsimp only at h
  split at h
  · cases h
  · split at h
    · next hready =>
      cases h
      simp only [Bool.and_eq_true, beq_iff_eq] at hready
      exact hready.1.1.2
    · cases h

/-- The segment with the next element of a reduction taken, and the flags raised. -/
def SJob.redTaken (j : SJob) (g : SGroup) (i : SIns) (ss : List SStream) : SRed × Nat :=
  g.red.take (jobCtx j.rm j.ftz i.ct) i.opc i.ct (groupWidth j.sdt g.sins) (segOff i.segsh g.nxt)
    (if (g.source j.sdt ss i 0).2 && !g.dead j.sdt ss then some (g.source j.sdt ss i 0).1 else none)

/-- A group past its next element, that element taken into the segment `r`. -/
def SGroup.taken (g : SGroup) (ss : List SStream) (r : SRed) : SGroup := { g.advance ss with red := r }

/-- A job past an element of a reduction that ends with flags `fl`. -/
def SJob.takenAt (j : SJob) (g : SGroup) (i : SIns) (ss : List SStream) (range : Bool) (fl : Nat) : SJob :=
  (j.joined range fl).onGroup g.first (fun g' => g'.taken ss (j.redTaken g i ss).1)

theorem SJob.mem_takenAt {j : SJob} {g : SGroup} (hg : g ∈ j.groups) (i : SIns) (ss : List SStream) (range : Bool) (fl : Nat) :
    g.taken ss (j.redTaken g i ss).1 ∈ (j.takenAt g i ss range fl).groups := SJob.mem_onGroup (j.joined range fl) hg _

/-- A group past the result of a segment: its mask element dropped, the next segment not begun. -/
def SGroup.closed (g : SGroup) (ss : List SStream) : SGroup :=
  { g with
    results := g.results + 1, red := SRed.start,
    got := g.got.filter (fun e => !(e.1 / 4 == g.results && (ss[e.1 % 4]?).any (fun r => r.role == .smask))) }

section
variable {j : SJob} {g : SGroup} {i : SIns} {ss : List SStream}

/-- With no flag enabled as a fault an element's flags join the job's (R191). -/
theorem SJob.raise_of_no_fen (hfen : jFen j.desc = 0) (range : Bool) (fl : Nat) :
    (if range then { j with indexRange := true } else j).raise g fl = j.joined (range || j.indexRange) fl := by
  cases range with
  | true | false =>
    unfold SJob.raise
    exact if_neg (by show ¬(fl &&& jFen j.desc ≠ 0); rw [hfen, Nat.and_zero]; exact not_not.2 rfl)

/-- An element that ends no segment joins its own, with its flags. -/
theorem SJob.reduced_within (hfen : jFen j.desc = 0) (hend : segEnd i.segsh g.nxt g.n = false) :
    ∃ b, j.reduced g i ss = j.takenAt g i ss b (j.redTaken g i ss).2 := by
  refine ⟨decide (g.pos = 0) && g.outOfRange j.sdt ss g.nxt || j.indexRange, ?_⟩
  unfold SJob.reduced
  dsimp only
  rw [hend, if_neg Bool.false_ne_true, if_neg Bool.false_ne_true, Nat.or_zero, SJob.raise_of_no_fen hfen, SJob.joined, hfen, Nat.and_zero,
    if_neg (not_not.2 rfl)]
  rfl

/-- An element that ends its segment joins it, and the result follows, stored where its mask element is active (R161). -/
theorem SJob.reduced_last (hfen : jFen j.desc = 0) (hend : segEnd i.segsh g.nxt g.n = true) :
    ∃ b fl, j.reduced g i ss =
      (if g.active j.sdt ss .smask g.fin.d g.results = some true then
        (j.takenAt g i ss b fl).issue g g.results ((SDesc.get j.sdt g.fin.d).at g.results).toNat (tySize (SDesc.get j.sdt g.fin.d).ty)
          ((j.redTaken g i ss).1.finish (jobCtx j.rm j.ftz i.ct) i.opc i.ct).1
        else j.takenAt g i ss b fl).onGroup g.first (fun g => g.closed ss) := by
  refine ⟨decide (g.pos = 0) && g.outOfRange j.sdt ss g.nxt || j.indexRange,
    (j.redTaken g i ss).2 ||| ((j.redTaken g i ss).1.finish (jobCtx j.rm j.ftz i.ct) i.opc i.ct).2, ?_⟩
  unfold SJob.reduced
  dsimp only
  rw [hend, if_pos rfl, if_pos rfl, SJob.raise_of_no_fen hfen, SJob.joined, hfen, Nat.and_zero, if_neg (not_not.2 rfl)]
  rfl

end

section
variable {s : State} {q : QIx} {j : SJob} {opc : Nat} {g : SGroup} {i : SIns} (hj : s.running q.val = some j)
  (hat : j.at opc = some (g, i))
include hj hat

/-- An element that ends no segment is taken at once. -/
theorem State.spanRed_within (hend : segEnd i.segsh g.nxt g.n = false) :
    s.spanRed q opc = s.setJob q.val (j.reduced g i (groupStreams j.sdt g.sins)) 0 := by
  unfold State.spanRed
  rw [hj]
  dsimp only
  rw [hat]
  dsimp only
  rw [hend, if_neg Bool.false_ne_true]

/-- An element that ends its segment is taken once the mask element of the result is there, without a fault (R166, R170). -/
theorem State.spanRed_last (hend : segEnd i.segsh g.nxt g.n = true) {active : Bool}
    (hmask : g.active j.sdt (groupStreams j.sdt g.sins) .smask i.d g.results = some active)
    (hclear : g.maskClear (groupStreams j.sdt g.sins) = true) (hfault : g.maskFault (groupStreams j.sdt g.sins) = none) :
    s.spanRed q opc = s.setJob q.val (j.reduced g i (groupStreams j.sdt g.sins)) 0 := by
  unfold State.spanRed
  rw [hj]
  dsimp only
  rw [hat]
  dsimp only
  rw [hend, if_pos rfl, hclear, hfault]
  dsimp only
  rw [hmask]
  rfl

end

section
variable (s : State) (q : QIx) {j : SJob} {g : SGroup} {i : SIns} {ss : List SStream} (hg : g ∈ j.groups) (hfen : jFen j.desc = 0)
include hg hfen

/-- Within a segment the group keeps the segment with the element taken. -/
theorem spanNow_reduced_within (hlt : g.nxt < g.n) (hend : segEnd i.segsh g.nxt g.n = false) :
    SpanNow (s.setJob q.val (j.reduced g i ss) 0) q g (fun j' g' =>
      g'.red = (j.redTaken g i ss).1 ∧ g'.nxt = g.nxt + 1 ∧ j'.flags = j.flags ||| (j.redTaken g i ss).2 ∧ j'.stores = j.stores) := by
  have hnext : g.nxt + 1 < g.n := by
    have hne : g.nxt + 1 ≠ g.n := fun e => by simp [segEnd, e] at hend
    omega
  obtain ⟨b, hb⟩ := SJob.reduced_within (ss := ss) hfen hend
  rw [hb]
  refine spanNow_setJob s q _ 0 (SJob.mem_takenAt hg i ss b _) rfl (SJob.complete_of_nxt_lt hnext) ?_
  intro j' f hsame _
  exact ⟨rfl, rfl, hsame.flags, hsame.stores⟩

/-- At a segment's end a result that its mask leaves out is passed over. -/
theorem spanNow_reduced_masked (hend : segEnd i.segsh g.nxt g.n = true)
    (hmask : g.active j.sdt ss .smask g.fin.d g.results = some false) (hnext : g.nxt + 1 < g.n) :
    SpanNow (s.setJob q.val (j.reduced g i ss) 0) q g (fun j' g' =>
      g'.red = SRed.start ∧ g'.nxt = g.nxt + 1 ∧ g'.results = g.results + 1 ∧ j'.stores = j.stores) := by
  obtain ⟨b, fl, hb⟩ := SJob.reduced_last (ss := ss) hfen hend
  have hmem := SJob.mem_takenAt hg i ss b fl
  rw [hb, if_neg (fun h => by cases hmask.symm.trans h)]
  refine spanNow_setJob s q _ 0 (SJob.mem_onGroup _ hmem _) rfl (SJob.complete_of_nxt_lt hnext) ?_
  intro j' f hsame _
  exact ⟨rfl, rfl, rfl, hsame.stores⟩

/-- At a segment's end an active result is stored (R189). -/
theorem spanNow_reduced_stored (hend : segEnd i.segsh g.nxt g.n = true)
    (hmask : g.active j.sdt ss .smask g.fin.d g.results = some true) :
    SpanNow (s.setJob q.val (j.reduced g i ss) 0) q g (fun j' g' =>
      g'.red = SRed.start ∧ g'.nxt = g.nxt + 1 ∧ g'.results = g.results + 1 ∧
        j'.stores = j.stores ++ [⟨g.first, g.results, ((SDesc.get j.sdt g.fin.d).at g.results).toNat, tySize (SDesc.get j.sdt g.fin.d).ty,
          ((j.redTaken g i ss).1.finish (jobCtx j.rm j.ftz i.ct) i.opc i.ct).1 % 2 ^ (8 * tySize (SDesc.get j.sdt g.fin.d).ty)⟩]) := by
  obtain ⟨b, fl, hb⟩ := SJob.reduced_last (ss := ss) hfen hend
  have hmem := SJob.mem_takenAt hg i ss b fl
  rw [hb, if_pos hmask]
  refine spanNow_setJob s q _ 0 (SJob.mem_onGroup (g := g.taken ss (j.redTaken g i ss).1) _ hmem _) rfl
    (SJob.complete_of_store (List.mem_append_right _ (List.mem_singleton.2 rfl)) rfl) ?_
  intro j' f hsame _
  exact ⟨rfl, rfl, rfl, hsame.stores⟩

end

theorem spanReductionsStoreSegments : SpanReductionsStoreSegments := by
  intro q s j g i hj e he hat hfin _ hfen ss c a x r v sd
  obtain ⟨hg, -, hlt⟩ := SJob.at_eq_some hat
  have hr : r = j.redTaken g i ss := by rw [SJob.redTaken, SJob.opc_of_at hat]; rfl
  have hv : v = (j.redTaken g i ss).1.finish (jobCtx j.rm j.ftz i.ct) i.opc i.ct := by rw [SJob.opc_of_at hat, ← hr]; rfl
  have hexec (h : s.spanRed q e.2 = s.setJob q.val (j.reduced g i ss) 0) :
      exec (e.1 q) s = .next (s.setJob q.val (j.reduced g i ss) 0) := (exec_redRow q s e he).trans (congrArg _ h)
  have honly := onlySpan_setJob (.inl rfl : s = s ∨ s = s.takeFree.2) q (j.reduced g i ss) 0
  rw [hr, hv]
  refine ⟨fun hend => ?within, fun hend hmask hclear hfault hnext => ?masked, fun hend hmask hclear hfault => ?stored⟩
  case within => exact ⟨_, hexec (State.spanRed_within hj hat hend), honly, spanNow_reduced_within s q hg hfen hlt hend⟩
  case masked =>
    refine ⟨_, hexec (State.spanRed_last hj hat hend hmask hclear hfault), honly, ?_⟩
    exact spanNow_reduced_masked s q hg hfen hend (hfin ▸ hmask) hnext
  case stored =>
    refine ⟨_, hexec (State.spanRed_last hj hat hend hmask hclear hfault), honly, ?_⟩
    have hstored := spanNow_reduced_stored s q (i := i) hg hfen hend (hfin ▸ hmask)
    rw [hfin] at hstored
    exact hstored

end Sys2Proof.Machine
end

section
/-!
PROOFS. O21, the values of reductions over integers: the sum modulo 2^32 by the total kept, the least and the greatest with their offsets by
one invariant of the elements taken so far (R187, R189).
-/

namespace Sys2Proof.Machine
open Sys2Proof.Claims

/-! ### Integer elements -/

/-- The order of VMIN and VMAX on integers is the order of their values. -/
theorem ctInt_eq_ival {ct : Nat} (hct : ct = 2 ∨ ct = 5) {v : Nat} (hv : v < 2 ^ 32) : ctInt ct v = ival ct v := by
  rcases hct with rfl | rfl
  · exact sInt_eq_lint (by decide) v
  · show ((v % 2 ^ 32 : Nat) : Int) = v
    rw [Nat.mod_eq_of_lt hv]

/-- What an extreme is the greatest of: the value, or its negative for the least. -/
def redKey (mx : Bool) (ct v : Nat) : Int := if mx then ctInt ct v else -ctInt ct v

/-- VRMAX or VRMIN. -/
def extremeOpc (mx : Bool) : Nat := bif mx then 0x52 else 0x51
/-- VRMAXI or VRMINI. -/
def offsetOpc (mx : Bool) : Nat := bif mx then 0x54 else 0x53

/-- The best element so far with one more. -/
def redPick (mx : Bool) (ct : Nat) (total : Option Nat) (v : Nat) : Nat :=
  match total with
  | none => v
  | some t => if redKey mx ct t < redKey mx ct v then v else t

theorem spMinMax_integer (mx : Bool) (c : FCtx) {ct : Nat} (hct : ct < 6) (t v x : Nat) :
    spMinMax mx c ct ⟨t, v, x⟩ = ⟨redPick mx ct (some t) v, 0⟩ := by
  have hpick : ((decide (ctInt ct v < ctInt ct t) != mx) && ctInt ct t != ctInt ct v) = decide (redKey mx ct t < redKey mx ct v) := by
    rw [Bool.eq_iff_iff]
    cases mx with
    | false => simp [redKey]; omega
    | true => simp [redKey]; omega
  unfold spMinMax redPick
  dsimp only
  rw [if_neg (by omega), hpick]
  simp only [plain, decide_eq_true_eq]

/-- The neutral value gives way to any element (Table job-7). -/
theorem redPick_empty (mx : Bool) {ct : Nat} (hct : ct = 2 ∨ ct = 5) {v : Nat} (hv : v < 2 ^ 32) :
    redPick mx ct (some (redEmpty (extremeOpc mx) ct)) v = v := by
  unfold redPick
  dsimp only
  split
  · rfl
  · next hle =>
    rcases hct with rfl | rfl
    · have hs : ctInt 2 v = if v < 2 ^ 31 then (v : Int) else v - 2 ^ 32 := by
        simp only [ctInt, sInt, if_true, Nat.mod_eq_of_lt hv]
        norm_num
      rw [redKey, redKey, hs] at hle
      cases mx with
      | false =>
        change ¬(-2147483647 < -(if v < 2 ^ 31 then (v : Int) else v - 2 ^ 32)) at hle
        show 2147483647 = v
        omega
      | true =>
        change ¬(-2147483648 < (if v < 2 ^ 31 then (v : Int) else v - 2 ^ 32)) at hle
        show 2147483648 = v
        omega
    · have hu : ctInt 5 v = v := by
        simp only [ctInt, Nat.mod_eq_of_lt hv]
        rfl
      rw [redKey, redKey, hu] at hle
      cases mx with
      | false =>
        change ¬(-4294967295 < -(v : Int)) at hle
        show 4294967295 = v
        omega
      | true =>
        change ¬(0 < (v : Int)) at hle
        show 0 = v
        omega

theorem ordLess_integer (mx : Bool) (c : FCtx) {ct : Nat} (hct : ct < 6) (t v : Nat) :
    (if offsetOpc mx = 0x53 then ordLess c ct v t else ordLess c ct t v) = decide (redKey mx ct t < redKey mx ct v) := by
  have hord (a b : Nat) : ordLess c ct a b = decide (ctInt ct a < ctInt ct b) := if_neg (by omega)
  rw [hord, hord]
  cases mx with
  | false => simp [offsetOpc, redKey]
  | true => simp [offsetOpc, redKey]

/-! ### One element taken -/

section
variable (r : SRed) (c : FCtx) (w off : Nat)

theorem SRed.take_sum {ct : Nat} (hct : ct < 6) (e : Option Nat) : (r.take c 0x50 ct w off e).1 =
    { r with total := e.elim r.total (fun v => some ((r.total.getD 0 + v) % 2 ^ 32)) } := by
  unfold SRed.take
  rw [if_pos rfl, if_pos hct]
  cases e with
  | none | some v => rfl

/-- An inactive element leaves an extreme as it is (R187). -/
theorem SRed.take_none {opc : Nat} (hopc : opc ≠ 0x50) (ct : Nat) : (r.take c opc ct w off none).1 = r := by
  unfold SRed.take
  rw [if_neg hopc]

theorem SRed.total_take_extreme (mx : Bool) {ct : Nat} (hct : ct = 2 ∨ ct = 5) {v : Nat} (hv : v < 2 ^ 32) :
    (r.take c (extremeOpc mx) ct w off (some v)).1.total = some (redPick mx ct r.total v) := by
  have hopc : extremeOpc mx = 0x51 ∨ extremeOpc mx = 0x52 := by cases mx <;> decide
  have hmx : (extremeOpc mx == 0x52) = mx := by cases mx <;> rfl
  unfold SRed.take
  dsimp only
  rw [if_neg (by omega), if_pos hopc, hmx, spMinMax_integer mx c (by omega)]
  cases htotal : r.total with
  | none => rw [Option.getD_none, redPick_empty mx hct hv]; rfl
  | some t => rfl

theorem SRed.take_offset (mx : Bool) {ct : Nat} (hct : ct < 6) (v : Nat) : (r.take c (offsetOpc mx) ct w off (some v)).1 =
    match r.total with
    | none => { r with total := some v, best := off }
    | some t => if redKey mx ct t < redKey mx ct v then { r with total := some v, best := off } else r := by
  have hopc : offsetOpc mx = 0x53 ∨ offsetOpc mx = 0x54 := by cases mx <;> decide
  have hint : (decide (6 ≤ ct) && c.f.isNaN v) = false := by simp; omega
  unfold SRed.take
  dsimp only
  rw [if_neg (by omega), if_neg (by omega), hint, if_neg Bool.false_ne_true]
  cases htotal : r.total with
  | none => rfl
  | some t =>
    dsimp only
    rw [ordLess_integer mx c hct]
    by_cases hlt : redKey mx ct t < redKey mx ct v
    · simp only [hlt, decide_true, if_true]
    · simp only [hlt, decide_false, if_false, Bool.false_eq_true]

end

/-! ### A segment -/

section
variable (c : FCtx) (w : Nat)

/-- The sum modulo 2^32 of the elements taken. -/
theorem total_redAll_sum {ct : Nat} (hct : ct < 6) (r : SRed) (off : Nat) (es : List (Option Nat)) (hr : r.total.getD 0 < 2 ^ 32) :
    (redAll c 0x50 ct w r off es).total.getD 0 = (r.total.getD 0 + (es.filterMap id).sum) % 2 ^ 32 := by
  induction es generalizing r off with
  | nil => exact (Nat.mod_eq_of_lt hr).symm
  | cons e es ih =>
    rw [redAll, SRed.take_sum r c w off hct]
    cases e with
    | none => exact ih _ _ hr
    | some v =>
      rw [ih _ _ (Nat.mod_lt _ (by decide)), List.filterMap_cons_some (f := id) (b := v) rfl, List.sum_cons]
      show ((r.total.getD 0 + v) % 2 ^ 32 + (es.filterMap id).sum) % 2 ^ 32 = _
      rw [Nat.mod_add_mod, Nat.add_assoc]

/-- Element `n` is the first of the greatest by `redKey`, with value `v`. -/
structure FirstBest (mx : Bool) (ct : Nat) (es : List (Option Nat)) (v n : Nat) : Prop where
  at_offset : es[n]? = some (some v)
  greatest : ∀ u, some u ∈ es → redKey mx ct u ≤ redKey mx ct v
  first : ∀ m < n, ∀ u, es[m]? = some (some u) → redKey mx ct u < redKey mx ct v

/-- A segment in progress knows the first best of the elements `es` it has taken. -/
def SRed.Finds (r : SRed) (mx : Bool) (ct : Nat) (es : List (Option Nat)) : Prop :=
  match r.total with
  | none => ∀ u, some u ∉ es
  | some v => FirstBest mx ct es v r.best

variable {mx : Bool} {ct : Nat} {es : List (Option Nat)}

/-- An element that is not greater leaves the first best. -/
theorem FirstBest.snoc {v n : Nat} (h : FirstBest mx ct es v n) {e : Option Nat} (he : ∀ u, e = some u → redKey mx ct u ≤ redKey mx ct v) :
    FirstBest mx ct (es ++ [e]) v n := by
  have hn : n < es.length := (List.getElem?_eq_some_iff.1 h.at_offset).1
  refine ⟨by rw [List.getElem?_append_left hn, h.at_offset], fun u hu => ?_, fun m hm u hu => ?_⟩
  · rcases List.mem_append.1 hu with hu | hu
    · exact h.greatest u hu
    · exact he u (List.mem_singleton.1 hu).symm
  · rw [List.getElem?_append_left (by omega)] at hu
    exact h.first m hm u hu

/-- An element greater than all before it is the first best. -/
theorem FirstBest.of_last {v : Nat} (h : ∀ u, some u ∈ es → redKey mx ct u < redKey mx ct v) :
    FirstBest mx ct (es ++ [some v]) v es.length := by
  refine ⟨List.getElem?_concat_length, fun u hu => ?_, fun m hm u hu => ?_⟩
  · rcases List.mem_append.1 hu with hu | hu
    · exact (h u hu).le
    · cases List.mem_singleton.1 hu
      exact le_rfl
  · rw [List.getElem?_append_left hm] at hu
    exact h u (List.mem_of_getElem? hu)

theorem SRed.finds_take {r : SRed} (hct : ct < 6) (h : r.Finds mx ct es) (e : Option Nat) :
    ((r.take c (offsetOpc mx) ct w es.length e).1).Finds mx ct (es ++ [e]) := by
  cases e with
  | none =>
    rw [SRed.take_none _ _ _ _ (by cases mx <;> decide)]
    unfold SRed.Finds at h ⊢
    cases htotal : r.total with
    | none =>
      rw [htotal] at h
      simpa using h
    | some t =>
      rw [htotal] at h
      exact h.snoc (fun u hu => by cases hu)
  | some v =>
    rw [SRed.take_offset _ _ _ _ mx hct]
    unfold SRed.Finds at h
    cases htotal : r.total with
    | none =>
      rw [htotal] at h
      exact FirstBest.of_last fun u hu => absurd hu (h u)
    | some t =>
      rw [htotal] at h
      dsimp only at h ⊢
      split
      · next hlt => exact FirstBest.of_last fun u hu => (h.greatest u hu).trans_lt hlt
      · next hle =>
        unfold SRed.Finds
        rw [htotal]
        exact h.snoc fun u hu => by cases hu; exact not_lt.1 hle

theorem SRed.finds_redAll (hct : ct < 6) {r : SRed} (h : r.Finds mx ct es) (fs : List (Option Nat)) :
    (redAll c (offsetOpc mx) ct w r es.length fs).Finds mx ct (es ++ fs) := by
  induction fs generalizing r es with
  | nil => rwa [List.append_nil]
  | cons e fs ih =>
    have hstep := ih (SRed.finds_take c w hct h e)
    rwa [List.append_assoc, List.length_append] at hstep

/-- The extreme is the element whose offset its partner finds. -/
theorem total_redAll_extreme (hct : ct = 2 ∨ ct = 5) (hb : ∀ v, some v ∈ es → v < 2 ^ 32) {r t : SRed} (h : r.total = t.total)
    (off : Nat) : (redAll c (extremeOpc mx) ct w r off es).total = (redAll c (offsetOpc mx) ct w t off es).total := by
  induction es generalizing r t off with
  | nil => exact h
  | cons e es ih =>
    refine ih (fun v hv => hb v (List.mem_cons_of_mem _ hv)) ?_ _
    cases e with
    | none => rw [SRed.take_none _ _ _ _ (by cases mx <;> decide), SRed.take_none _ _ _ _ (by cases mx <;> decide), h]
    | some v =>
      rw [SRed.total_take_extreme _ _ _ _ mx hct (hb v List.mem_cons_self), SRed.take_offset _ _ _ _ mx (by omega), h]
      unfold redPick
      cases htotal : t.total with
      | none => rfl
      | some u =>
        dsimp only
        split
        · rfl
        · exact htotal.symm

/-- The result of a whole segment (R189). -/
def redOut (c : FCtx) (ct w : Nat) (es : List (Option Nat)) (opc : Nat) : Nat := ((redAll c opc ct w SRed.start 0 es).finish c opc ct).1

theorem redOut_sum (hct : ct < 6) : redOut c ct w es 0x50 = (es.filterMap id).sum % 2 ^ 32 := by
  have hsum := total_redAll_sum c w hct SRed.start 0 es (by decide)
  unfold redOut SRed.finish
  rw [if_neg (by decide), if_neg (by omega)]
  exact hsum.trans (congrArg (· % 2 ^ 32) (Nat.zero_add _))

/-- The results of the two reductions of an extreme by what the segment has found. -/
theorem redOut_extreme (hct : ct = 2 ∨ ct = 5) (hb : ∀ v, some v ∈ es → v < 2 ^ 32) :
    (∃ v n, FirstBest mx ct es v n ∧ redOut c ct w es (extremeOpc mx) = v ∧ redOut c ct w es (offsetOpc mx) = n) ∨
      (∀ v, some v ∉ es) ∧ redOut c ct w es (extremeOpc mx) = redEmpty (extremeOpc mx) ct ∧
        redOut c ct w es (offsetOpc mx) = 0xFFFFFFFF := by
  have hfinds : (redAll c (offsetOpc mx) ct w SRed.start 0 es).Finds mx ct ([] ++ es) :=
    SRed.finds_redAll c w (by omega) (show SRed.start.Finds mx ct [] from fun _ => List.not_mem_nil) es
  have htotal := total_redAll_extreme c w (mx := mx) hct hb (r := SRed.start) (t := SRed.start) rfl 0
  have hvalue : redOut c ct w es (extremeOpc mx) =
      (redAll c (extremeOpc mx) ct w SRed.start 0 es).total.getD (redEmpty (extremeOpc mx) ct) := by
    unfold redOut SRed.finish
    rw [if_neg (by cases mx <;> decide), if_neg (by omega)]
  have hoffset : redOut c ct w es (offsetOpc mx) =
      if (redAll c (offsetOpc mx) ct w SRed.start 0 es).total.isSome then (redAll c (offsetOpc mx) ct w SRed.start 0 es).best
      else 0xFFFFFFFF := by
    unfold redOut SRed.finish
    rw [if_pos (by cases mx <;> decide)]
  rw [hvalue, hoffset, htotal]
  unfold SRed.Finds at hfinds
  cases hfound : (redAll c (offsetOpc mx) ct w SRed.start 0 es).total with
  | none =>
    rw [hfound] at hfinds
    exact .inr ⟨hfinds, rfl, rfl⟩
  | some v =>
    rw [hfound] at hfinds
    exact .inl ⟨v, _, hfinds, rfl, rfl⟩

/-- The order of the keys is that of the elements' values, or its reverse. -/
theorem redKey_le_iff (mx : Bool) (hct : ct = 2 ∨ ct = 5) {u v : Nat} (hu : u < 2 ^ 32) (hv : v < 2 ^ 32) :
    redKey mx ct u ≤ redKey mx ct v ↔ if mx then ival ct u ≤ ival ct v else ival ct v ≤ ival ct u := by
  unfold redKey
  rw [ctInt_eq_ival hct hu, ctInt_eq_ival hct hv]
  cases mx with
  | false => exact neg_le_neg_iff
  | true => exact Iff.rfl

/-- No element before the first best has its value. -/
theorem FirstBest.ne_of_lt {v n : Nat} (h : FirstBest mx ct es v n) {m : Nat} (hm : m < n) : es[m]? ≠ some (some v) :=
  fun he => lt_irrefl _ (h.first m hm v he)

end

theorem integerReductionValues : IntegerReductionValues := by
  intro c ct w es hct hb
  have hsum := redOut_sum (es := es) c w (show ct < 6 by omega)
  have hmin := redOut_extreme c w (mx := false) hct hb
  have hmax := redOut_extreme c w (mx := true) hct hb
  intro out vs
  have hmem (v : Nat) : v ∈ vs ↔ some v ∈ es := by simp [vs]
  refine ⟨hsum, fun hne => ?some, fun hnil => ?none⟩
  case some =>
    obtain ⟨u, hu⟩ := List.exists_mem_of_ne_nil _ hne
    rw [hmem] at hu
    obtain ⟨a, m, hleast, hleastVal, hleastOff⟩ := hmin.resolve_right fun h => h.1 u hu
    obtain ⟨b, n, hgreatest, hgreatestVal, hgreatestOff⟩ := hmax.resolve_right fun h => h.1 u hu
    have hain := List.mem_of_getElem? hleast.at_offset
    have hbin := List.mem_of_getElem? hgreatest.at_offset
    have hrange (v : Nat) (hv : v ∈ vs) : ival ct a ≤ ival ct v ∧ ival ct v ≤ ival ct b := by
      rw [hmem] at hv
      exact ⟨(redKey_le_iff false hct (hb v hv) (hb a hain)).1 (hleast.greatest v hv),
        (redKey_le_iff true hct (hb v hv) (hb b hbin)).1 (hgreatest.greatest v hv)⟩
    rw [show out 0x51 = a from hleastVal, show out 0x52 = b from hgreatestVal, show out 0x53 = m from hleastOff,
      show out 0x54 = n from hgreatestOff]
    exact ⟨(hmem a).2 hain, (hmem b).2 hbin, hrange, hleast.at_offset, hgreatest.at_offset, fun _ => hleast.ne_of_lt,
      fun _ => hgreatest.ne_of_lt⟩
  case none =>
    have hnone {v n : Nat} {mx : Bool} (h : FirstBest mx ct es v n) : False := by
      have hv := (hmem v).2 (List.mem_of_getElem? h.at_offset)
      rw [hnil] at hv
      exact List.not_mem_nil hv
    obtain ⟨-, hleast, hfirst⟩ := hmin.resolve_left fun ⟨_, _, h, _⟩ => hnone h
    obtain ⟨-, hgreatest, hfirst'⟩ := hmax.resolve_left fun ⟨_, _, h, _⟩ => hnone h
    refine ⟨hleast.trans ?_, hgreatest.trans ?_, hfirst, hfirst'⟩
    · rcases hct with rfl | rfl <;> rfl
    · rcases hct with rfl | rfl <;> rfl

/-- Settles O21: a reduction's step by the segment it leaves, an integer reduction's value by what the elements taken so far determine. -/
theorem spanReductions : Obligations.SpanReductions := ⟨spanReductionsStoreSegments, integerReductionValues⟩

end Sys2Proof.Machine
end

section
/-!
PROOFS. The route table's registers: VIA_RT_SEL selects an implemented entry (R254), VIA_RT_DATA stores an entry that Table via-9 passes
(R238, R239).
-/

namespace Sys2Proof.Machine
open Sys2Proof.Claims

/-- One bit of a word as a field. -/
theorem getBits_one (w : Word) (n : Nat) : getBits w n 1 = (w.getLsbD n).toNat := (Nat.toNat_testBit w.toNat n).symm

/-! ## Table via-9 on a Lattice entry -/

section Lattice
variable {g : Grade} {ni e : Nat} {v : Word}

theorem entryCodes_length (v : Word) (n : Nat) : (entryCodes v n).length = n := by simp [entryCodes]

theorem entryCodes_eq_nil {n : Nat} : entryCodes v n = [] ↔ n = 0 := by simp [entryCodes]

/-- All turn codes but the last are those the walk takes. -/
theorem entryCodes_take (v : Word) (n : Nat) : (entryCodes v n).take (n - 1) = (entryCodes v n).dropLast := by
  rw [List.dropLast_eq_take, entryCodes_length]

/-- Row LENGTH of Table via-9: the turn codes are none or too many. -/
def RouteLength (ts : List Nat) : Prop := ts = [] ∨ 12 < ts.length

/-- Row EJECT of Table via-9: eject stands before the last code, or the last code is another. -/
def RouteEject (ts : List Nat) : Prop := 3 ∈ ts.dropLast ∨ ts.getLast? ≠ some 3

theorem not_routeLength {ts : List Nat} (hne : ts ≠ []) (hle : ts.length ≤ 12) : ¬ RouteLength ts :=
  not_or.2 ⟨hne, Nat.not_lt.2 hle⟩

theorem not_routeEject {ts : List Nat} (hmem : 3 ∉ ts.dropLast) (hlast : ts.getLast? = some 3) : ¬ RouteEject ts :=
  not_or.2 ⟨hmem, not_not.2 hlast⟩

theorem routeLength_iff : RouteLength (entryCodes v (getBits v 2 4)) ↔ getBits v 2 4 = 0 ∨ 12 < getBits v 2 4 := by
  rw [RouteLength, entryCodes_length, entryCodes_eq_nil]

theorem routeEject_iff (h : ¬ RouteLength (entryCodes v (getBits v 2 4))) : RouteEject (entryCodes v (getBits v 2 4)) ↔
    (((entryCodes v (getBits v 2 4)).take (getBits v 2 4 - 1)).contains 3 || (entryCodes v (getBits v 2 4)).getLastD 0 != 3) = true := by
  have hne : entryCodes v (getBits v 2 4) ≠ [] := (not_or.1 h).1
  rw [RouteEject, entryCodes_take, List.getLast?_eq_some_getLast hne, List.getLastD_eq_getLast?, List.getLast?_eq_some_getLast hne]
  simp

theorem validateLattice_length (h : RouteLength (entryCodes v (getBits v 2 4))) : validateLattice g ni e v = 1 :=
  if_pos (routeLength_iff.1 h)

theorem validateLattice_eject (hlen : ¬ RouteLength (entryCodes v (getBits v 2 4))) (h : RouteEject (entryCodes v (getBits v 2 4))) :
    validateLattice g ni e v = 2 :=
  (if_neg (mt routeLength_iff.2 hlen)).trans (if_pos ((routeEject_iff hlen).1 h))

section
variable (hlen : ¬ RouteLength (entryCodes v (getBits v 2 4))) (heject : ¬ RouteEject (entryCodes v (getBits v 2 4)))
include hlen heject

theorem validateLattice_port (h : walkRoute g (ni % 16) (getBits v 0 2) (entryCodes v (getBits v 2 4)).dropLast = none) :
    validateLattice g ni e v = 3 := by
  rw [← entryCodes_take] at h
  simp only [validateLattice, if_neg (mt routeLength_iff.2 hlen), if_neg (mt (routeEject_iff hlen).2 heject), h]

/-- An entry whose walk has every link it needs is judged by the routers visited, then the last of them, then DCLASS. -/
theorem validateLattice_walk {ks : List Nat} {wraps : Bool}
    (h : walkRoute g (ni % 16) (getBits v 0 2) (entryCodes v (getBits v 2 4)).dropLast = some (ks, wraps)) :
    validateLattice g ni e v = if ¬ (ni % 16 :: ks).Nodup then 4 else if ks.getLastD (ni % 16) ≠ e % 32 / 2 then 5
      else if v.getLsbD 30 ≠ wraps then 6 else 0 := by
  rw [← entryCodes_take] at h
  have hclass : (getBits v 30 1 == 1) = v.getLsbD 30 := by
    rw [getBits_one]
    cases v.getLsbD 30 <;> rfl
  simp only [validateLattice, if_neg (mt routeLength_iff.2 hlen), if_neg (mt (routeEject_iff hlen).2 heject), h, hclass, bne_iff_ne,
    Bool.not_eq_true', decide_eq_false_iff_not]

end
end Lattice

/-! ## Table via-9 on a Trestle entry -/

/-- The stop at which a Trestle route ends. -/
def trestleDest (ni : Nat) (v : Word) : Nat :=
  if v.getLsbD 0 = false then (ni - 32 + getBits v 1 5) % 24 else (ni - 32 + 24 - getBits v 1 5) % 24

theorem validateTrestle_eq (ni e : Nat) (v : Word) : validateTrestle ni e v =
    if 23 < getBits v 1 5 then 1 else if trestleDest ni v ≠ e then 5 else if getBits v 6 25 ≠ 0 then 7 else 0 := by
  simp [validateTrestle, trestleDest, getBits_one]

theorem validateRoute_lattice {g : Grade} {ni e : Nat} {v : Word} (h : ni < 32) : validateRoute g ni e v = validateLattice g ni e v :=
  if_pos h

theorem validateRoute_trestle {g : Grade} {ni e : Nat} {v : Word} (h : 32 ≤ ni) : validateRoute g ni e v = validateTrestle ni e v :=
  if_neg (Nat.not_lt.2 h)

/-! ## A route entry written -/

theorem State.rf_lt (s : State) (f : Fd) : s.rf f < 2 ^ f.width := getBits_lt _ _ _

theorem State.route_setRoute_same (s : State) (ni e : Nat) (v : Word) : (s.setRoute ni e v).route ni e = v :=
  SMap.get_set_same _ _ _ _

theorem State.route_setRoute_other (s : State) (v : Word) {ni e n k : Nat} (he : e < 64) (hk : k < 64) (h : ¬ (n = ni ∧ k = e)) :
    (s.setRoute ni e v).route n k = s.route n k :=
  SMap.get_set_other _ _ _ _ _ _ (by omega)

/-! ## A refusal of the Viaduct (R254) -/

theorem State.refuse_via_eq (s : State) : s.refuse viaRefuse 0 =
    (s.wf Reg.VIA_STATUS.REFUSED 1).raiseIf Reg.VIA_STATUS.REFUSE_EVENT Reg.VIA_STATUS.REFUSE_EVENT_EN := rfl

/-- A command that leaves VIA_STATUS but its event fields and nothing else changed, then the refusal, is refused as R13 says. -/
theorem refusesVia_of_exec {i : Instr} {s u : State} (h : exec i s = .next (u.refuse viaRefuse 0)) (hu : Regs s u [Reg.VIA_STATUS_at] [])
    (hev : ev u (Reg.VIA_STATUS.REFUSE_EVENT, Reg.VIA_STATUS.REFUSE_EVENT_EN) =
      ev s (Reg.VIA_STATUS.REFUSE_EVENT, Reg.VIA_STATUS.REFUSE_EVENT_EN)) : Refuses i s viaRefuse 0 := by
  refine ⟨_, h, ?_, ?_, fun f hf => by cases hf⟩
  · rw [u.refuse_via_eq]
    have hregs := regs_raiseIf (regs_wf hu Reg.VIA_STATUS.REFUSED 1 (by decide)) Reg.VIA_STATUS.REFUSE_EVENT Reg.VIA_STATUS.REFUSE_EVENT_EN
    rwa [ev_wf_other _ _ _ _ (by decide) (by decide), hev] at hregs
  · rw [u.refuse_via_eq, State.rf_raiseIf]
    exact u.rf_wf_same _ _ (by decide)

/-! ## The two commands -/

theorem State.writeVia_rtSel (s : State) (v : Word) : s.writeVia Reg.VIA_RT_SEL_at v = s.writeRtSel v := if_pos rfl

theorem State.writeVia_rtData (s : State) (v : Word) : s.writeVia Reg.VIA_RT_DATA_at v = s.writeRtData v :=
  (if_neg (by decide)).trans (if_pos rfl)

theorem regs_writeReg_of {s t : State} {as : List Nat} {es : List (Fin 64)} (ht : Regs s t as es) (p : Permit) {a : Nat} (v : Word)
    (ha : a ∈ as) : Regs s (t.writeReg p a v) as es := by
  obtain ⟨heq, hregs⟩ := ht
  refine ⟨(congrArg (fun u : State => u.setReg a (writeFields p (fieldsAt a) (t.reg a) v)) heq).trans rfl, fun b hb => ?_⟩
  rw [State.writeReg, t.reg_setReg_other a b _ (fun e => hb (e ▸ ha)), hregs b hb]

section
variable {v : Word} {s : State} (hup : s.online islRing = true)
include hup

theorem exec_viaRtSelWrite : exec (.viaRtSelWrite v) s = .next (s.writeRtSel v).st := by
  rw [← s.writeVia_rtSel v]
  exact if_pos hup

theorem exec_viaRtDataWrite : exec (.viaRtDataWrite v) s = .next (s.writeRtData v).st := by
  rw [← s.writeVia_rtData v]
  exact if_pos hup

/-! ## VIA_RT_SEL -/

theorem viaRtSelWrite_selects (h : niPresent s.grade (getBits v 8 6) = true ∧ (getBits v 8 6 < 32 ∨ getBits v 0 6 < 24)) :
    Does (.viaRtSelWrite v) s (fun t => Regs s t [Reg.VIA_RT_SEL_at, Reg.VIA_STATUS_at] [] ∧ t.rf Reg.VIA_RT_SEL.NI = getBits v 8 6 ∧
      t.rf Reg.VIA_RT_SEL.ENTRY = getBits v 0 6 ∧ t.on Reg.VIA_STATUS.SEL_REFUSED = false) := by
  obtain ⟨hni, hentry⟩ := h
  have hok : s.writeRtSel v = .ok ((s.wf Reg.VIA_STATUS.SEL_REFUSED 0).writeReg .all Reg.VIA_RT_SEL_at v) := by
    refine if_neg ?_
    simp [hni]
    omega
  refine ⟨_, by rw [exec_viaRtSelWrite hup, hok, WRes.ok_st], ?_, ?_, ?_, ?_⟩
  · exact regs_writeReg_of (regs_wf (regs_refl s _) Reg.VIA_STATUS.SEL_REFUSED 0 (by decide)) .all v (by decide)
  · exact State.getBits_writeReg _ _ _ v (fld 8 6 .rw 0) (by decide)
  · exact State.getBits_writeReg _ _ _ v (fld 0 6 .rw 0) (by decide)
  · rw [State.on, State.writeReg, State.rf_setReg_other _ _ _ _ (by decide), State.rf_wf_same _ _ _ (by decide)]
    rfl

theorem viaRtSelWrite_refuses (h : ¬ (niPresent s.grade (getBits v 8 6) = true ∧ (getBits v 8 6 < 32 ∨ getBits v 0 6 < 24))) :
    Refuses (.viaRtSelWrite v) s viaRefuse 0 := by
  have hno : s.writeRtSel v = (s.wf Reg.VIA_STATUS.SEL_REFUSED 1).refused viaRefuse 0 := by
    refine if_pos ?_
    cases hni : niPresent s.grade (getBits v 8 6) with
    | false => rfl
    | true => simp [hni] at h ⊢; omega
  refine refusesVia_of_exec (by rw [exec_viaRtSelWrite hup, hno, State.refused_st]) ?_ (ev_wf_other _ _ _ _ (by decide) (by decide))
  exact regs_wf (regs_refl s _) _ _ (by decide)

/-! ## VIA_RT_DATA -/

theorem viaRtDataWrite_refuses (h : s.on Reg.VIA_CTL.LOCK = true ∨ s.on Reg.VIA_STATUS.SEL_REFUSED = true) :
    Refuses (.viaRtDataWrite v) s viaRefuse 0 := by
  have hno : s.writeRtData v = s.refused viaRefuse 0 := if_pos (by simpa using h)
  exact refusesVia_of_exec (by rw [exec_viaRtDataWrite hup, hno, State.refused_st]) (regs_refl s _) rfl

end

/-- The fault code of Table via-9 for `v` at the selected entry; 0 for none. -/
def State.rtFault (s : State) (v : Word) : Nat := validateRoute s.grade (s.rf Reg.VIA_RT_SEL.NI) (s.rf Reg.VIA_RT_SEL.ENTRY) v

/-- VIA_RT_DATA stores `v` in the selected entry, and nothing else changes. -/
def StoresRoute (v : Word) (s : State) : Prop :=
  Does (.viaRtDataWrite v) s (fun t => t = { s with net := t.net } ∧ t.net = { s.net with routes := t.net.routes } ∧
    t.route (s.rf Reg.VIA_RT_SEL.NI) (s.rf Reg.VIA_RT_SEL.ENTRY) = v ∧
    ∀ n e, e < 64 → ¬ (n = s.rf Reg.VIA_RT_SEL.NI ∧ e = s.rf Reg.VIA_RT_SEL.ENTRY) → t.route n e = s.route n e)

/-- VIA_RT_DATA keeps every entry and records route fault `f`. -/
def FaultsRoute (v : Word) (s : State) (f : Nat) : Prop :=
  Does (.viaRtDataWrite v) s (fun t => t.net.routes = s.net.routes ∧ t.on Reg.VIA_STATUS.ROUTE_FAULT = true ∧
    t.rf Reg.VIA_RT_FAULT.CODE = f ∧ t.rf Reg.VIA_RT_FAULT.NI = s.rf Reg.VIA_RT_SEL.NI ∧
    t.rf Reg.VIA_RT_FAULT.ENTRY = s.rf Reg.VIA_RT_SEL.ENTRY)

/-- The state with a route fault recorded and its event raised. -/
def State.routeFaulted (s : State) (f : Nat) : State :=
  ((((s.wf Reg.VIA_STATUS.ROUTE_FAULT 1).wf Reg.VIA_RT_FAULT.CODE f).wf Reg.VIA_RT_FAULT.NI (s.rf Reg.VIA_RT_SEL.NI)).wf
    Reg.VIA_RT_FAULT.ENTRY (s.rf Reg.VIA_RT_SEL.ENTRY)).raiseIf Reg.VIA_STATUS.FAULT_EVENT Reg.VIA_STATUS.FAULT_EVENT_EN

section
variable {v : Word} {s : State}

theorem State.on_routeFaulted (f : Nat) : (s.routeFaulted f).on Reg.VIA_STATUS.ROUTE_FAULT = true := by
  rw [State.on, State.routeFaulted, State.rf_raiseIf, State.rf_wf_other _ _ _ _ (by decide), State.rf_wf_other _ _ _ _ (by decide),
    State.rf_wf_other _ _ _ _ (by decide), State.rf_wf_same _ _ _ (by decide)]
  rfl

theorem State.code_routeFaulted {f : Nat} (hf : f < 16) : (s.routeFaulted f).rf Reg.VIA_RT_FAULT.CODE = f := by
  rw [State.routeFaulted, State.rf_raiseIf, State.rf_wf_other _ _ _ _ (by decide), State.rf_wf_other _ _ _ _ (by decide),
    State.rf_wf_same _ _ _ (by decide)]
  exact Nat.mod_eq_of_lt hf

theorem State.ni_routeFaulted (f : Nat) : (s.routeFaulted f).rf Reg.VIA_RT_FAULT.NI = s.rf Reg.VIA_RT_SEL.NI := by
  rw [State.routeFaulted, State.rf_raiseIf, State.rf_wf_other _ _ _ _ (by decide), State.rf_wf_same _ _ _ (by decide)]
  exact Nat.mod_eq_of_lt (s.rf_lt Reg.VIA_RT_SEL.NI)

theorem State.entry_routeFaulted (f : Nat) : (s.routeFaulted f).rf Reg.VIA_RT_FAULT.ENTRY = s.rf Reg.VIA_RT_SEL.ENTRY := by
  rw [State.routeFaulted, State.rf_raiseIf, State.rf_wf_same _ _ _ (by decide)]
  exact Nat.mod_eq_of_lt (s.rf_lt Reg.VIA_RT_SEL.ENTRY)

theorem State.routes_raiseIf (s : State) (e en : Fd) : (s.raiseIf e en).net.routes = s.net.routes := by
  unfold State.raiseIf
  split <;> rfl

theorem State.routes_routeFaulted (f : Nat) : (s.routeFaulted f).net.routes = s.net.routes := by
  rw [State.routeFaulted, State.routes_raiseIf, State.wf_net, State.wf_net, State.wf_net, State.wf_net]

theorem State.writeRtData_open (hlock : s.on Reg.VIA_CTL.LOCK = false) (hsel : s.on Reg.VIA_STATUS.SEL_REFUSED = false) :
    (s.writeRtData v).st = if v.getLsbD 31 = false ∨ s.rtFault v = 0
      then s.setRoute (s.rf Reg.VIA_RT_SEL.NI) (s.rf Reg.VIA_RT_SEL.ENTRY) v else s.routeFaulted (s.rtFault v) := by
  have hvalid : getBits v 31 1 = 0 ↔ v.getLsbD 31 = false := by rw [getBits_one, Bool.toNat_eq_zero]
  have hcode : validateRoute s.grade (s.rf Reg.VIA_RT_SEL.NI) (s.rf Reg.VIA_RT_SEL.ENTRY) v = s.rtFault v := rfl
  unfold State.writeRtData
  simp only [hlock, hsel, Bool.or_self, Bool.false_eq_true, if_false, hvalid, hcode]
  by_cases h31 : v.getLsbD 31 = false
  · rw [if_pos h31, if_pos (Or.inl h31), WRes.ok_st]
  · by_cases hf : s.rtFault v = 0
    · rw [if_neg h31, if_pos hf, if_pos (Or.inr hf), WRes.ok_st]
    · rw [if_neg h31, if_neg hf, if_neg (not_or.2 ⟨h31, hf⟩)]
      rfl

section
variable (hup : s.online islRing = true) (hlock : s.on Reg.VIA_CTL.LOCK = false) (hsel : s.on Reg.VIA_STATUS.SEL_REFUSED = false)
include hup hlock hsel

theorem storesRoute_of (h : v.getLsbD 31 = false ∨ s.rtFault v = 0) : StoresRoute v s := by
  have hst := s.writeRtData_open (v := v) hlock hsel
  rw [if_pos h] at hst
  exact ⟨_, (exec_viaRtDataWrite hup).trans (congrArg _ hst), rfl, rfl, s.route_setRoute_same _ _ v,
    fun n e he hne => s.route_setRoute_other v (s.rf_lt Reg.VIA_RT_SEL.ENTRY) he hne⟩

theorem faultsRoute_of (hv : v.getLsbD 31 = true) {f : Nat} (h : s.rtFault v = f) (hpos : 0 < f) (hlt : f < 16) : FaultsRoute v s f := by
  have hst := s.writeRtData_open (v := v) hlock hsel
  rw [if_neg (by simp [hv, h]; omega), h] at hst
  exact ⟨_, (exec_viaRtDataWrite hup).trans (congrArg _ hst), s.routes_routeFaulted f, s.on_routeFaulted f, s.code_routeFaulted hlt,
    s.ni_routeFaulted f, s.entry_routeFaulted f⟩

end
end

/-- Settles O31: VIA_RT_SEL by the entries implemented, VIA_RT_DATA by the rows of Table via-9 in their order. -/
theorem routeEntriesAreValidated : Obligations.RouteEntriesAreValidated := by
  intro v s hup
  refine ⟨viaRtSelWrite_selects hup, viaRtSelWrite_refuses hup, viaRtDataWrite_refuses hup, fun hlock hsel => ?_⟩
  have hstores := storesRoute_of (v := v) hup hlock hsel
  refine ⟨fun hinv => hstores (.inl hinv), fun hv hni => ?trestle, fun hv hni => ?lattice⟩
  case trestle =>
    have hfaults {f : Nat} := faultsRoute_of (f := f) hup hlock hsel hv
    have hcode : s.rtFault v = _ := (validateRoute_trestle hni).trans (validateTrestle_eq _ _ v)
    have hle (hhops : getBits v 1 5 ≤ 23) := hcode.trans (if_neg (Nat.not_lt.2 hhops))
    exact ⟨fun hhops => hfaults (hcode.trans (if_pos hhops)) (by decide) (by decide),
      fun hhops hdest => hfaults ((hle hhops).trans (if_pos hdest)) (by decide) (by decide),
      fun hhops hdest hres => hfaults ((hle hhops).trans ((if_neg (not_not.2 hdest)).trans (if_pos hres))) (by decide) (by decide),
      fun hhops hdest hres => hstores (.inr ((hle hhops).trans ((if_neg (not_not.2 hdest)).trans (if_neg (not_not.2 hres)))))⟩
  case lattice =>
    have hfaults {f : Nat} (h : validateLattice s.grade _ _ v = f) :=
      faultsRoute_of hup hlock hsel hv ((validateRoute_lattice hni).trans h)
    refine ⟨fun hlen => hfaults (validateLattice_length hlen) (by decide) (by decide), fun hne hle heject =>
      hfaults (validateLattice_eject (not_routeLength hne hle) heject) (by decide) (by decide), fun hne hle hmem hlast w hw => ?_⟩
    have hlen := not_routeLength hne hle
    have heject := not_routeEject hmem hlast
    refine ⟨fun hnone => hfaults (validateLattice_port hlen heject (hw.symm.trans hnone)) (by decide) (by decide),
      fun ks wraps hsome => ?_⟩
    have hcode := validateLattice_walk (e := s.rf Reg.VIA_RT_SEL.ENTRY) hlen heject (hw.symm.trans hsome)
    refine ⟨fun hdup => hfaults ?_ (by decide) (by decide), fun hnodup hdest => hfaults ?_ (by decide) (by decide),
      fun hnodup hdest hclass => hfaults ?_ (by decide) (by decide), fun hnodup hdest hclass => hstores (.inr ?_)⟩
    · rw [hcode, if_pos hdup]
    · rw [hcode, if_neg (not_not.2 hnodup), if_pos hdest]
    · rw [hcode, if_neg (not_not.2 hnodup), if_neg (not_not.2 hdest), if_pos hclass]
    · rw [State.rtFault, validateRoute_lattice hni, hcode, if_neg (not_not.2 hnodup), if_neg (not_not.2 hdest),
        if_neg (not_not.2 hclass)]

end Sys2Proof.Machine
end

section
/-!
PROOFS. A Deck-ring record acknowledged where the index of the next record outgrows GAU_TRACE_POS.NEXT (R264).
-/

namespace Sys2Proof.Machine
open Sys2Proof.Claims

/-! ## NEXT at its greatest value -/

/-- A record of the present run, waiting for Deck offset 0. -/
def recordAtZero : GauHeld := ⟨0, [1, 2, 3, 4], 0⟩

/-- Gauge 2 waits for the acknowledgement of one record; NEXT has all of its 24 bits set and GAU_RING_COUNT, a field of 32 bits, is larger still. -/
def ringBeyondNext : State :=
  ((State.reset.onGau 2 fun x => { x with held := [recordAtZero] }).wf (Reg.GAU_TRACE_POS.NEXT 2) (2 ^ 24 - 1)).wf
    (Reg.GAU_RING_COUNT.VALUE 2) (2 ^ 24 + 1)

theorem ringBeyondNext_gauge : ringBeyondNext.gauLive 2 = true ∧ (ringBeyondNext.gau 2).due = false ∧
    (ringBeyondNext.gau 2).held = [recordAtZero] ∧ recordAtZero.run = (ringBeyondNext.gau 2).run := by decide

theorem ringBeyondNext_bank_free : ringBeyondNext.quarterBusy 0 = false ∧ ringBeyondNext.bankWanted 0 = false ∧
    ringBeyondNext.bankWanted 8 = false := by decide

theorem ringBeyondNext_next : ringBeyondNext.rf (Reg.GAU_TRACE_POS.NEXT 2) = 2 ^ 24 - 1 := by decide

theorem ringBeyondNext_count : ringBeyondNext.rf (Reg.GAU_RING_COUNT.VALUE 2) = 2 ^ 24 + 1 := by decide

/-- The acknowledgement finds room in the ring, so it writes 2^24 to NEXT, which keeps the low 24 bits of it. -/
theorem next_of_ack_ringBeyondNext {t : State} (h : exec (.traceRecordAck 2) ringBeyondNext = .next t) :
    t.rf (Reg.GAU_TRACE_POS.NEXT 2) = 0 := by
  obtain rfl := Host.Outcome.next.inj h
  decide

/-- Refutes O53: its last clause asks NEXT + 1 after an acknowledgement wherever NEXT + 1 is below GAU_RING_COUNT, but NEXT has 24 bits and the
count 32; from `ringBeyondNext` the command leaves NEXT 0. The clause needs NEXT + 1 < 2^24 beside it: a START refuses a Deck ring of more than
2^20 records (R263), so only such unreached states separate the two. -/
theorem not_gaugesCountAndTrace : ¬ Obligations.GaugesCountAndTrace := by
  rintro ⟨-, -, -, hack⟩
  obtain ⟨hlive, hdue, hheld, hrun⟩ := ringBeyondNext_gauge
  obtain ⟨hbusy, hlow, hhigh⟩ := ringBeyondNext_bank_free
  obtain ⟨t, ht, -, -, hnext⟩ := hack 2 recordAtZero [] ringBeyondNext hlive hdue hheld (by decide) rfl hbusy hlow hhigh
  have hroom : ringBeyondNext.rf (Reg.GAU_TRACE_POS.NEXT 2) + 1 < ringBeyondNext.rf (Reg.GAU_RING_COUNT.VALUE 2) := by
    rw [ringBeyondNext_next, ringBeyondNext_count]
    decide
  have hcarry : t.rf (Reg.GAU_TRACE_POS.NEXT 2) = ringBeyondNext.rf (Reg.GAU_TRACE_POS.NEXT 2) + 1 := hnext hrun hroom
  rw [ringBeyondNext_next] at hcarry
  exact absurd ((next_of_ack_ringBeyondNext ht).symm.trans hcarry) (by decide)

end Sys2Proof.Machine
end

section
/-!
PROOFS. One step of the machine (O1), and the trip that TRIP_CLR ends (O38).
-/

namespace Sys2Proof.Machine
open Sys2Proof.Claims

/-- Settles O1: by whether a command waits. -/
theorem stepRunsFrontCommand : Obligations.StepRunsFrontCommand :=
  ⟨fun c rest s h => by simp only [step, h], fun s h => by simp only [step, h]⟩

/-! ## A trip cleared -/

/-- A trip in effect, the hottest sensor at 0 °C, and one microsecond counted since a mute last followed its sources. -/
def coolTrip : State :=
  { State.reset.wf Reg.LDR_STATUS.TRIP 1 with ldr := { State.reset.ldr with valid := true }, quietUs := 1 }

theorem coolTrip_cool : coolTrip.on Reg.LDR_STATUS.TRIP = true ∧ coolTrip.ldr.valid = true ∧
    lint 16 (coolTrip.rf Reg.THM_MAX.T_MAX) ≤ 16 * ((coolTrip.rf Reg.LDR_THERM.TTRIP : Int) - 5) := by decide

theorem coolTrip_unlocked : coolTrip.on Reg.LDR_CTL.LOCK = false := by decide

/-- The end of the trip changes a mute source, so the count of the microseconds without such a change starts again. -/
theorem quietUs_of_tripClr_coolTrip {t : State} (h : exec (.tripClr .keystone 0) coolTrip = .next t) : t.quietUs = 0 := by
  obtain rfl := Host.Outcome.next.inj h
  decide

/-- Refutes O38: an accepted TRIP_CLR is said to change registers and events alone, but TRIP is a mute source (R461), so the model also sets
`quietUs` back to 0; from `coolTrip`, where it is 1, the state differs. The clause needs `quietUs := 0` beside its registers: `State.tick` keeps
that count at 0 while TRIP is set, so only such unreached states separate the two. -/
theorem not_admissionStepsAndTrips : ¬ Obligations.AdmissionStepsAndTrips := by
  intro h
  obtain ⟨-, -, htrip, -⟩ := h coolTrip
  obtain ⟨-, -, hclear⟩ := htrip .keystone 0 coolTrip_unlocked
  obtain ⟨t, ht, ⟨heq, -⟩, -⟩ := hclear (by decide) coolTrip_cool
  have hquiet : t.quietUs = coolTrip.quietUs := by rw [heq]
  rw [quietUs_of_tripClr_coolTrip ht] at hquiet
  exact absurd hquiet (by decide)

end Sys2Proof.Machine
end

section
/-!
PROOFS. Rules used by the proofs of the later chapters: fields read as Booleans, events raised, refusals, and commands that change registers and
events alone.
-/

namespace Sys2Proof.Machine
open Sys2Proof.Claims

/-! ## Fields read as Booleans -/

section
variable (s : State) (f g : Fd) (v : Nat)

theorem State.on_wf_other (h : g.addr ≠ f.addr ∨ g.lo + g.width ≤ f.lo ∨ f.lo + f.width ≤ g.lo) : (s.wf f v).on g = s.on g := by
  rw [State.on, State.on, s.rf_wf_other f g v h]

theorem State.on_wf_same (h : f.lo + f.width ≤ 32) : (s.wf f v).on f = (v % 2 ^ f.width != 0) := by
  rw [State.on, s.rf_wf_same f v h]

theorem State.rf_incSat_other (n : Nat) (h : g.addr ≠ f.addr ∨ g.lo + g.width ≤ f.lo ∨ f.lo + f.width ≤ g.lo) :
    (s.incSat f n).rf g = s.rf g := s.rf_wf_other f g _ h

theorem State.on_incSat_other (n : Nat) (h : g.addr ≠ f.addr ∨ g.lo + g.width ≤ f.lo ∨ f.lo + f.width ≤ g.lo) :
    (s.incSat f n).on g = s.on g := s.on_wf_other f g _ h

theorem State.rf_incWrap_other (n : Nat) (h : g.addr ≠ f.addr ∨ g.lo + g.width ≤ f.lo ∨ f.lo + f.width ≤ g.lo) :
    (s.incWrap f n).rf g = s.rf g := s.rf_wf_other f g _ h

theorem State.on_incWrap_other (n : Nat) (h : g.addr ≠ f.addr ∨ g.lo + g.width ≤ f.lo ∨ f.lo + f.width ≤ g.lo) :
    (s.incWrap f n).on g = s.on g := s.on_wf_other f g _ h

@[simp] theorem State.on_raiseIf (e en : Fd) : (s.raiseIf e en).on f = s.on f := by rw [State.on, State.on, s.rf_raiseIf]

end

/-! ## Single bits -/

/-- The bits of a field are those of its register. -/
theorem State.bit_congr {s t : State} {f : Fd} (h : t.reg f.addr = s.reg f.addr) (i : Nat) : t.bit f i = s.bit f i := by
  rw [State.bit, State.bit, h]

theorem State.rf_setBit_other (s : State) (f g : Fd) (i : Nat) (v : Bool) (h : g.addr ≠ f.addr) : (s.setBit f i v).rf g = s.rf g := by
  rw [State.rf, State.rf, s.reg_setBit_other _ _ _ _ h]

theorem State.on_setBit_other (s : State) (f g : Fd) (i : Nat) (v : Bool) (h : g.addr ≠ f.addr) : (s.setBit f i v).on g = s.on g := by
  rw [State.on, State.on, s.rf_setBit_other f g i v h]

/-! ## Fields written by their codes (R11, R12) -/

/-- A code whose field takes the value written where the write is permitted. -/
def Acc.takes : Acc → Bool
  | .rw | .rwl | .rwp | .rws => true
  | _ => false

/-- A field of the tables whose code takes what a permitted write gives it. -/
def Fd.takes (p : Permit) (f : Fd) : Bool := (fieldsAt f.addr).any (fun g => g.lo == f.lo && g.width == f.width && p.allows g.acc && g.acc.takes)

/-- A field of the tables that a write does not reach. -/
def Fd.untaken (p : Permit) (f : Fd) : Bool :=
  (fieldsAt f.addr).any (fun g => g.lo == f.lo && g.width == f.width && (!p.allows g.acc || g.acc == .ro || g.acc == .rc || g.acc == .wo))

theorem Acc.written_of_takes {c : Acc} (h : c.takes = true) (old v : Nat) : c.written old v = v := by
  cases c with
  | rw | rwl | rwp | rws => rfl
  | ro | rc | wo | w1c | w1s => cases h

theorem State.rf_writeReg_takes (s : State) (p : Permit) (f : Fd) (v : Word) (h : f.takes p = true) :
    (s.writeReg p f.addr v).rf f = getBits v f.lo f.width := by
  obtain ⟨g, hg, hf⟩ := List.any_eq_true.1 h
  simp only [Bool.and_eq_true, beq_iff_eq] at hf
  obtain ⟨⟨⟨hlo, hwidth⟩, hallow⟩, htakes⟩ := hf
  have hval := s.getBits_writeReg p f.addr v g hg
  rw [FSpec.after, if_pos hallow, Acc.written_of_takes htakes, hlo, hwidth] at hval
  exact hval

theorem State.rf_writeReg_untaken (s : State) (p : Permit) (f : Fd) (v : Word) (h : f.untaken p = true) :
    (s.writeReg p f.addr v).rf f = s.rf f := by
  obtain ⟨g, hg, hf⟩ := List.any_eq_true.1 h
  simp only [Bool.and_eq_true, beq_iff_eq] at hf
  obtain ⟨⟨hlo, hwidth⟩, hkept⟩ := hf
  have hval := s.getBits_writeReg p f.addr v g hg
  rw [FSpec.after, hlo, hwidth] at hval
  refine hval.trans ?_
  split
  · rename_i hallow
    simp only [hallow, Bool.not_true, Bool.false_or, Bool.or_eq_true, beq_iff_eq] at hkept
    rcases hkept with (h | h) | h <;> rw [h] <;> rfl
  · rfl

theorem State.rf_writeReg_other (s : State) (p : Permit) (a : Nat) (v : Word) (f : Fd) (h : f.addr ≠ a) : (s.writeReg p a v).rf f = s.rf f :=
  s.rf_setReg_other _ _ _ h

theorem State.on_writeReg_other (s : State) (p : Permit) (a : Nat) (v : Word) (f : Fd) (h : f.addr ≠ a) : (s.writeReg p a v).on f = s.on f := by
  rw [State.on, State.on, s.rf_writeReg_other p a v f h]

/-- A write of a register in which no field's code refuses it. -/
theorem State.writeOr_ok (s : State) (p : Permit) (r : RefuseAt) (why a : Nat) (v : Word) (h : refuseCode p (fieldsAt a) = 0) :
    s.writeOr p r why a v = .ok (s.writeReg p a v) := by
  simp [State.writeOr, h, WRes.ok]

/-- A write in which some fields are refused for their values, all else permitted. -/
theorem State.writeBut_all (s : State) (r : RefuseAt) (locked why a : Nat) (v : Word) (bad : List Fd) : s.writeBut .all r locked why a v bad =
    if bad = [] then .ok (s.writeReg .all a v) else (s.writeReg .all a (s.keeping v bad)).refused r why := by
  rw [State.writeBut, State.writeOr_all]
  cases bad with
  | nil => rfl
  | cons f fs => rfl

/-! ## Events -/

/-- Raising an event where enabled changes the events in flight alone. -/
theorem State.raiseIf_eq (s : State) (e en : Fd) : s.raiseIf e en = { s with net := { s.net with events := s.net.events ++ ev s (e, en) } } := by
  unfold State.raiseIf ev
  split <;> simp [State.raise]

/-- No bit of one field is a bit of the other. -/
def Fd.apart (f g : Fd) : Bool := decide (f.addr ≠ g.addr ∨ f.lo + f.width ≤ g.lo ∨ g.lo + g.width ≤ f.lo)

theorem Fd.or_of_apart {f g : Fd} (h : f.apart g = true) : f.addr ≠ g.addr ∨ f.lo + f.width ≤ g.lo ∨ g.lo + g.width ≤ f.lo := of_decide_eq_true h

/-- An event's number and enable lie apart from a field. -/
def evApart (p : Fd × Fd) (f : Fd) : Bool := p.1.apart f && p.2.apart f

theorem ev_wf {p : Fd × Fd} {f : Fd} (h : evApart p f = true) (s : State) (v : Nat) : ev (s.wf f v) p = ev s p := by
  obtain ⟨he, hen⟩ := Bool.and_eq_true_iff.1 h
  exact ev_wf_other s f v p (Fd.or_of_apart he) (Fd.or_of_apart hen)

end Sys2Proof.Machine

namespace Sys2Proof.Claims
open Sys2Proof.Machine

/-! ## Changes in registers and events -/

section
variable {s t : State} {as bs : List Nat} {es : List (Fin 64)}

theorem Regs.mono (h : Regs s t as es) (hsub : ∀ a ∈ as, a ∈ bs) : Regs s t bs es :=
  ⟨h.1, fun a ha => h.2 a (fun hm => ha (hsub a hm))⟩

theorem Regs.setReg (ht : Regs s t as es) (a : Nat) (v : Word) (ha : a ∈ as) : Regs s (t.setReg a v) as es := by
  obtain ⟨heq, hregs⟩ := ht
  refine ⟨(congrArg (fun u : State => u.setReg a v) heq).trans rfl, fun b hb => ?_⟩
  rw [t.reg_setReg_other a b v (fun e => hb (e ▸ ha)), hregs b hb]

theorem Regs.wf (ht : Regs s t as es) (f : Fd) (v : Nat) (hf : f.addr ∈ as) : Regs s (t.wf f v) as es := ht.setReg _ _ hf

/-- With no event raised, nothing but registers changes. -/
theorem Regs.eq_io (ht : Regs s t as []) : t = { s with io := t.io } := by
  obtain ⟨heq, -⟩ := ht
  rw [List.append_nil] at heq
  exact heq

theorem Regs.setBit (ht : Regs s t as es) (f : Fd) (i : Nat) (v : Bool) (hf : f.addr ∈ as) : Regs s (t.setBit f i v) as es :=
  ht.setReg _ _ hf

theorem Regs.ite {c : Prop} [Decidable c] {u : State} (ht : Regs s t as es) (hu : Regs s u as es) : Regs s (if c then t else u) as es := by
  split
  · exact ht
  · exact hu

theorem Regs.trans {u : State} (ht : Regs s t as es) (hu : Regs t u as []) : Regs s u as es := by
  obtain ⟨heq, hregs⟩ := ht
  refine ⟨?_, fun a ha => (hu.2 a ha).trans (hregs a ha)⟩
  rw [hu.eq_io]
  exact congrArg (fun x : State => { x with io := u.io }) heq

theorem Regs.incSat (ht : Regs s t as es) (f : Fd) (n : Nat) (hf : f.addr ∈ as) : Regs s (t.incSat f n) as es := ht.wf f _ hf
theorem Regs.incWrap (ht : Regs s t as es) (f : Fd) (n : Nat) (hf : f.addr ∈ as) : Regs s (t.incWrap f n) as es := ht.wf f _ hf

/-- An event raised after others, its number and enable as they were. -/
theorem Regs.raiseIf (ht : Regs s t as es) (e en : Fd) (hp : ev t (e, en) = ev s (e, en)) :
    Regs s (t.raiseIf e en) as (es ++ ev s (e, en)) := by
  obtain ⟨heq, hregs⟩ := ht
  refine ⟨?_, fun a ha => by rw [t.reg_raiseIf, hregs a ha]⟩
  have hevents : t.net.events = s.net.events ++ es := by rw [heq]
  rw [t.raiseIf_eq, hp, hevents, List.append_assoc]
  exact congrArg (fun u : State => { u with net := { u.net with events := s.net.events ++ (es ++ ev s (e, en)) } }) heq

end

/-! ## Refusals (R13) -/

/-- The fields a block shows a refusal with: within their registers, apart from each other and from the event's; the reason fits. -/
def refuseSound (r : RefuseAt) (why : Nat) : Bool :=
  match r.reason with
  | none => false
  | some f =>
    decide (r.refused.width = 1 ∧ r.refused.lo + r.refused.width ≤ 32 ∧ f.lo + f.width ≤ 32 ∧ why < 2 ^ f.width) && r.refused.apart f &&
      (match r.event with | none => true | some p => evApart p r.refused && evApart p f)

/-- What a refusal does to the state it finds. -/
theorem refused_regs {u : State} {r : RefuseAt} {why : Nat} (hr : refuseSound r why = true) :
    Regs u (u.refuse r why) (refuseRegs r) (match r.event with | some p => ev u p | none => []) ∧ (u.refuse r why).rf r.refused = 1 ∧
      ∀ f, r.reason = some f → (u.refuse r why).rf f = why := by
  obtain ⟨refused, reason, event⟩ := r
  cases reason with
  | none => exact absurd hr Bool.false_ne_true
  | some f =>
    simp only [refuseSound, Bool.and_eq_true, decide_eq_true_eq] at hr
    obtain ⟨⟨⟨hone, hrange, hfrange, hwhy⟩, hapart⟩, hevent⟩ := hr
    have hregs : Regs u ((u.wf refused 1).wf f why) [refused.addr, f.addr] [] :=
      ((regs_refl u _).wf refused 1 (by simp)).wf f why (by simp)
    have hset : ((u.wf refused 1).wf f why).rf refused = 1 := by
      rw [State.rf_wf_other _ _ _ _ (Fd.or_of_apart hapart), State.rf_wf_same _ _ _ hrange, hone]; rfl
    have hreason : ((u.wf refused 1).wf f why).rf f = why := by
      rw [State.rf_wf_same _ _ _ hfrange, Nat.mod_eq_of_lt hwhy]
    cases event with
    | none => exact ⟨hregs, hset, by rintro _ ⟨⟩; exact hreason⟩
    | some p =>
      obtain ⟨hevr, hevf⟩ := Bool.and_eq_true_iff.1 hevent
      refine ⟨?_, ?_, ?_⟩
      · exact hregs.raiseIf p.1 p.2 (by rw [ev_wf hevf, ev_wf hevr])
      · exact (State.rf_raiseIf _ _ _ _).trans hset
      · rintro _ ⟨⟩
        exact (State.rf_raiseIf _ _ _ _).trans hreason

/-- A refusal leaves the fields apart from those that show it. -/
theorem State.rf_refuse_apart (u : State) (r : RefuseAt) (why : Nat) (g : Fd) (h : r.refused.apart g = true)
    (h' : ∀ f, r.reason = some f → f.apart g = true) : (u.refuse r why).rf g = u.rf g := by
  have hswap {f : Fd} (hf : f.apart g = true) : g.addr ≠ f.addr ∨ g.lo + g.width ≤ f.lo ∨ f.lo + f.width ≤ g.lo := by
    rcases Fd.or_of_apart hf with h | h | h
    · exact .inl (Ne.symm h)
    · exact .inr (.inr h)
    · exact .inr (.inl h)
  obtain ⟨refused, reason, event⟩ := r
  have hset : (u.wf refused 1).rf g = u.rf g := State.rf_wf_other _ _ _ _ (hswap h)
  cases reason with
  | none =>
    cases event with
    | none => exact hset
    | some e => exact (State.rf_raiseIf _ _ _ _).trans hset
  | some f =>
    have hwhy : ((u.wf refused 1).wf f why).rf g = u.rf g := (State.rf_wf_other _ _ _ _ (hswap (h' f rfl))).trans hset
    cases event with
    | none => exact hwhy
    | some e => exact (State.rf_raiseIf _ _ _ _).trans hwhy

/-- A command whose next state is a refusal is refused as R13 says; `u`: the state after what the write changes all the same. -/
theorem refuses_of_exec_after {i : Instr} {s u : State} {r : RefuseAt} {why : Nat} {also : List Nat} (hr : refuseSound r why = true)
    (hu : Regs s u also []) (hev : ∀ p, r.event = some p → ev u p = ev s p) (h : exec i s = .next (u.refuse r why)) :
    Refuses i s r why also := by
  obtain ⟨⟨heq, hregs⟩, hset, hreason⟩ := refused_regs (u := u) hr
  refine ⟨_, h, ⟨?_, fun a ha => ?_⟩, hset, hreason⟩
  · have hnet : u.net = s.net := by rw [hu.1]; simp
    have hevents : (match r.event with | some p => ev u p | none => []) = (match r.event with | some p => ev s p | none => []) := by
      cases hp : r.event with
      | none => rfl
      | some p => exact hev p hp
    rw [heq, hnet, hevents]
    exact congrArg (fun x : State => { x with
      io := (u.refuse r why).io, net := { s.net with events := s.net.events ++ (match r.event with | some p => ev s p | none => []) } }) hu.1
  · rw [List.mem_append, not_or] at ha
    rw [hregs a ha.1, hu.2 a ha.2]

theorem refuses_of_exec {i : Instr} {s : State} {r : RefuseAt} {why : Nat} (hr : refuseSound r why = true)
    (h : exec i s = .next (s.refuse r why)) : Refuses i s r why :=
  refuses_of_exec_after hr (regs_refl s []) (fun _ _ => rfl) h

/-- Fields of a register are refused for their values: a field of the register apart from those that show the refusal has what the write of the
others left (R12). -/
theorem refused_write_regs {s t : State} {r : RefuseAt} {why a : Nat} {w : Word} (hr : refuseSound r why = true)
    (hapart : ∀ b ∈ refuseRegs r, b ≠ a) (hev : ∀ p, r.event = some p → p.1.addr ≠ a ∧ p.2.addr ≠ a)
    (ht : t = (s.writeReg .all a w).refuse r why) :
    Regs s t (a :: refuseRegs r) (match r.event with | some p => ev s p | none => []) ∧ t.rf r.refused = 1 ∧
      (∀ f, r.reason = some f → t.rf f = why) ∧ ∀ g : Fd, g.addr = a → t.rf g = (s.writeReg .all a w).rf g := by
  subst ht
  obtain ⟨⟨heq, hregs⟩, hset, hreason⟩ := refused_regs (u := s.writeReg .all a w) hr
  refine ⟨⟨?_, fun b hb => ?_⟩, hset, hreason, fun g hg => ?_⟩
  · have hevents : (match r.event with | some p => ev (s.writeReg .all a w) p | none => []) =
        (match r.event with | some p => ev s p | none => []) := by
      cases hp : r.event with
      | none => rfl
      | some p => exact ev_congr (s.reg_setReg_other _ _ _ (hev p hp).1) (s.reg_setReg_other _ _ _ (hev p hp).2)
    exact hevents ▸ heq
  · rw [List.mem_cons, not_or] at hb
    rw [hregs b hb.2]
    exact s.reg_setReg_other _ _ _ hb.1
  · refine State.rf_refuse_apart _ _ _ _ (decide_eq_true (.inl ?_)) (fun f hf => decide_eq_true (.inl ?_))
    · rw [hg]; exact hapart _ (.head _)
    · rw [hg]
      refine hapart _ (.tail _ ?_)
      rw [hf]
      exact .head _

end Sys2Proof.Claims

namespace Sys2Proof.Machine
open Sys2Proof.Claims

/-! ## What a change keeps: some registers, and a view of the rest of the state -/

/-- The state without its registers and the events in flight. -/
def State.bare (s : State) : State := { s with io := [], net := { s.net with events := [] } }

/-- Registers of which `R` holds, and the view `p` of everything but registers and events, are as they were. -/
structure State.Keeps {α : Type} (R : Nat → Prop) (p : State → α) (s t : State) : Prop where
  reg : ∀ a, R a → t.reg a = s.reg a
  rest : p t.bare = p s.bare

namespace State.Keeps
variable {α : Type} {R : Nat → Prop} {p : State → α} {s t u : State}

theorem refl (s : State) : s.Keeps R p s := ⟨fun _ _ => rfl, rfl⟩
theorem trans (h : s.Keeps R p t) (k : t.Keeps R p u) : s.Keeps R p u := ⟨fun a ha => (k.reg a ha).trans (h.reg a ha), k.rest.trans h.rest⟩

/-- A change of something else. -/
theorem of_eq (hio : t.io = s.io) (h : p t.bare = p s.bare) : s.Keeps R p t := ⟨fun _ _ => by rw [State.reg, State.reg, hio], h⟩

theorem setReg (h : s.Keeps R p t) (a : Nat) (v : Word) (ha : ¬ R a) : s.Keeps R p (t.setReg a v) :=
  h.trans ⟨fun b hb => t.reg_setReg_other a b v (fun e => ha (e ▸ hb)), rfl⟩

theorem wf (h : s.Keeps R p t) (f : Fd) (v : Nat) (hf : ¬ R f.addr) : s.Keeps R p (t.wf f v) := h.setReg _ _ hf
theorem incSat (h : s.Keeps R p t) (f : Fd) (n : Nat) (hf : ¬ R f.addr) : s.Keeps R p (t.incSat f n) := h.wf f _ hf
theorem incWrap (h : s.Keeps R p t) (f : Fd) (n : Nat) (hf : ¬ R f.addr) : s.Keeps R p (t.incWrap f n) := h.wf f _ hf
theorem setBit (h : s.Keeps R p t) (f : Fd) (i : Nat) (v : Bool) (hf : ¬ R f.addr) : s.Keeps R p (t.setBit f i v) := h.setReg _ _ hf
theorem writeReg (h : s.Keeps R p t) (q : Permit) (a : Nat) (v : Word) (ha : ¬ R a) : s.Keeps R p (t.writeReg q a v) := h.setReg _ _ ha

theorem raiseIf (h : s.Keeps R p t) (e en : Fd) : s.Keeps R p (t.raiseIf e en) :=
  h.trans ⟨fun a _ => t.reg_raiseIf e en a, by rw [t.raiseIf_eq e en]; rfl⟩

theorem refuse (h : s.Keeps R p t) (r : RefuseAt) (why : Nat) (hr : ∀ a ∈ refuseRegs r, ¬ R a) : s.Keeps R p (t.refuse r why) := by
  obtain ⟨refused, reason, event⟩ := r
  have hset := h.wf refused 1 (hr _ (by simp [refuseRegs]))
  cases reason with
  | none =>
    cases event with
    | none => exact hset
    | some e => exact hset.raiseIf _ _
  | some f =>
    have hwhy := hset.wf f why (hr _ (by simp [refuseRegs]))
    cases event with
    | none => exact hwhy
    | some e => exact hwhy.raiseIf _ _

theorem ite {c : Prop} [Decidable c] (ht : s.Keeps R p t) (hu : s.Keeps R p u) : s.Keeps R p (if c then t else u) := by
  split
  · exact ht
  · exact hu

theorem ite_snd {β : Type} {c : Prop} [Decidable c] {x y : β × State} (hx : s.Keeps R p x.2) (hy : s.Keeps R p y.2) :
    s.Keeps R p (if c then x else y).2 := by
  split
  · exact hx
  · exact hy

theorem rf (h : s.Keeps R p t) (f : Fd) (hf : R f.addr) : t.rf f = s.rf f := by rw [State.rf, State.rf, h.reg _ hf]
theorem on (h : s.Keeps R p t) (f : Fd) (hf : R f.addr) : t.on f = s.on f := by rw [State.on, State.on, h.rf f hf]

/-! ### The DMA's engine: its channels and the network, and the two counts of requests turned away -/

/-- A view that does not show the DMA's channels, the network, or a number the DMA's requests count. -/
structure BesidesDma (R : Nat → Prop) (p : State → α) : Prop where
  offline : ¬ R Reg.VIA_OFFLINE_CNT_at
  route : ¬ R Reg.VIA_ROUTE_ERR_CNT_at
  view : ∀ (s : State) (d : SMap DmaCh) (l : Nat × Nat) (n : Net), p { s with dma := d, dmaTurn := l, net := n } = p s

section
variable (hb : BesidesDma R p)
include hb

theorem of_net (h : s.Keeps R p t) (n : Net) : s.Keeps R p { t with net := n } :=
  h.trans (of_eq rfl (hb.view t.bare t.dma t.dmaTurn { n with events := [] }))

theorem letIn (h : s.Keeps R p t) (r : Req) : s.Keeps R p (t.letIn r).2 :=
  ite_snd (h.incSat Reg.VIA_OFFLINE_CNT.COUNT 1 hb.offline) (ite_snd (h.incSat Reg.VIA_ROUTE_ERR_CNT.COUNT 1 hb.route) (of_net hb h _))

theorem send (h : s.Keeps R p t) (isl ni vc : Nat) (who : Who) (op : NetOp) : s.Keeps R p (t.send isl ni vc who op) := by
  unfold State.send
  dsimp only
  split
  · exact of_net hb (letIn hb (of_net hb h _) _) _
  · exact of_net hb h _

theorem dmaTurned (h : s.Keeps R p t) (d : SMap DmaCh) (l : Nat × Nat) : s.Keeps R p { t with dma := d, dmaTurn := l } :=
  h.trans (of_eq rfl (hb.view t.bare d l { t.net with events := [] }))

theorem issueWrite (h : s.Keeps R p t) : s.Keeps R p t.issueWrite.2 := by
  unfold State.issueWrite
  split
  · exact h
  · split
    · exact h
    · exact send hb (dmaTurned hb h _ _) _ _ _ _ _

theorem issueRead (h : s.Keeps R p t) : s.Keeps R p t.issueRead.2 := by
  unfold State.issueRead
  split
  · exact h
  · split
    · exact h
    · exact send hb (dmaTurned hb h _ _) _ _ _ _ _

theorem dmaEngine (h : s.Keeps R p t) (fuel : Nat) : s.Keeps R p (t.dmaEngine fuel) := by
  induction fuel generalizing t with
  | zero => exact h
  | succ fuel ih => exact ite (ih (issueRead hb (issueWrite hb h))) h

theorem dmaServe (h : s.Keeps R p t) : s.Keeps R p t.dmaServe := dmaEngine hb h _

end

end State.Keeps

end Sys2Proof.Machine
end

section
/-!
PROOFS. Measuring windows of REFCLK, the IOPLL and the CPLL (R269 to R273).
-/

namespace Sys2Proof.Machine
open Sys2Proof.Claims

/-! ## Laws of the PLLs' state -/

section
variable (s : State) (f : Spll → Spll) (g : Fd) (v : Nat)

@[simp] theorem State.rf_onSpll : (s.onSpll f).rf g = s.rf g := rfl
@[simp] theorem State.on_onSpll : (s.onSpll f).on g = s.on g := rfl
@[simp] theorem State.reg_onSpll (a : Nat) : (s.onSpll f).reg a = s.reg a := rfl
@[simp] theorem State.spll_onSpll : (s.onSpll f).spll = f s.spll := rfl
@[simp] theorem State.spll_clkEvent : s.clkEvent.spll = s.spll := State.raiseIf_spll s _ _
@[simp] theorem State.rf_clkEvent : s.clkEvent.rf g = s.rf g := s.rf_raiseIf _ _ _
@[simp] theorem State.on_clkEvent : s.clkEvent.on g = s.on g := s.on_raiseIf _ _ _
@[simp] theorem State.reg_clkEvent (a : Nat) : s.clkEvent.reg a = s.reg a := s.reg_raiseIf _ _ _
@[simp] theorem State.on_openWindow (p : Pll) : (s.openWindow p).on g = s.on g := rfl
@[simp] theorem State.rf_openWindow (p : Pll) : (s.openWindow p).rf g = s.rf g := rfl

end

end Sys2Proof.Machine

namespace Sys2Proof.Claims
open Sys2Proof.Machine

section
variable {s t : State} {x y : Spll} {as : List Nat} {es : List (Fin 64)}

theorem PllRegs.refl (s : State) (as : List Nat) : PllRegs s s s.spll as [] := regs_refl s as

theorem PllRegs.wf (h : PllRegs s t x as es) (f : Fd) (v : Nat) (hf : f.addr ∈ as) : PllRegs s (t.wf f v) x as es :=
  Regs.wf (s := { s with spll := x }) h f v hf

/-- The clock event raised after others, its number and enable as they were. -/
theorem PllRegs.clkEvent (h : PllRegs s t x as []) (hp : clkEv t = clkEv s) : PllRegs s t.clkEvent x as (clkEv s) :=
  Regs.raiseIf (s := { s with spll := x }) h _ _ hp

theorem PllRegs.mono {bs : List Nat} (h : PllRegs s t x as es) (hsub : ∀ a ∈ as, a ∈ bs) : PllRegs s t x bs es :=
  Regs.mono (s := { s with spll := x }) h hsub

theorem PllRegs.incSat (h : PllRegs s t x as es) (f : Fd) (n : Nat) (hf : f.addr ∈ as) : PllRegs s (t.incSat f n) x as es :=
  h.wf f _ hf

theorem PllRegs.onSpll (h : PllRegs s t x as es) (f : Spll → Spll) : PllRegs s (t.onSpll f) (f x) as es :=
  ⟨by rw [State.onSpll, show t.spll = x by rw [h.1]]; exact congrArg (fun u : State => { u with spll := f x }) h.1, h.2⟩

theorem clkEv_wf (s : State) (f : Fd) (v : Nat) (h : evApart (Reg.IOPLL_STATUS.CLK_EVENT, Reg.IOPLL_STATUS.CLK_EVENT_EN) f = true) :
    clkEv (s.wf f v) = clkEv s := ev_wf h s v

end

end Sys2Proof.Claims

namespace Sys2Proof.Machine
open Sys2Proof.Claims

/-- A count within a tolerance of its nominal value. -/
theorem within_iff (count w tol : Nat) : within count w tol = true ↔ inWin count w tol := by simp [within, inWin]

theorem within_false (count w tol : Nat) : within count w tol = false ↔ ¬ inWin count w tol := by
  rw [← within_iff, Bool.not_eq_true]

/-! ## What stopping the converter ports leaves alone (R450) -/

/-- CPLL_STATUS and the PLLs' own state. -/
def State.KeepsCpll (s t : State) : Prop := s.Keeps (· = Reg.CPLL_STATUS_at) State.spll t

namespace State.KeepsCpll
variable {s t : State}

theorem besidesDma : State.Keeps.BesidesDma (· = Reg.CPLL_STATUS_at) State.spll := ⟨by decide, by decide, fun _ _ _ _ => rfl⟩

/-- A port's registers lie above the clock controller's. -/
theorem wfPort (h : s.KeepsCpll t) (f : Fd) (v : Nat) (hf : 0x4200 ≤ f.addr) : s.KeepsCpll (t.wf f v) :=
  State.Keeps.wf h f v (Nat.ne_of_gt (Nat.lt_of_lt_of_le (by decide) hf))

theorem stat_addr (p : Nat) : 0x4200 ≤ Reg.CVP_STAT_at p := by unfold Reg.CVP_STAT_at; omega

/-- A change of the ports' own state, or of the calibration's. -/
theorem port (h : s.KeepsCpll t) (m : SMap CvpPort) (c : Option CvpCal) : s.KeepsCpll { t with cvp := m, cal := c } :=
  State.Keeps.trans h (State.Keeps.of_eq rfl rfl)

theorem endCal (h : s.KeepsCpll t) (p : Nat) : s.KeepsCpll (t.endCal p) :=
  State.Keeps.raiseIf ((((h.wfPort Reg.CVP_CAL_STATUS.STATE 0 (by decide)).wfPort (Reg.CVP_STAT.CAL p) 0 (stat_addr p)).wfPort
    Reg.CVP_STATUS.CAL_BUSY 0 (by decide)).port _ _) _ _

theorem abortCal (h : s.KeepsCpll t) (p : Nat) : s.KeepsCpll (t.abortCal p) :=
  State.Keeps.ite ((h.wfPort Reg.CVP_CAL_STATUS.RESULT 3 (by decide)).endCal p) h

theorem stopPort (h : s.KeepsCpll t) (p cause : Nat) : s.KeepsCpll (t.stopPort p cause) := by
  have hst := (h.wfPort (Reg.CVP_STAT.STATE p) 2 (stat_addr p)).wfPort (Reg.CVP_STAT.STOP_CAUSE p) cause (stat_addr p)
  have hfifo {u : State} (hu : s.KeepsCpll u) (b c : Prop) [Decidable b] [Decidable c] (x y : CvpPort) :
      s.KeepsCpll (if b then u.setCvp p x else (if c then u else u.wf (Reg.CVP_STAT.PAD p) 1).setCvp p y) :=
    State.Keeps.ite (hu.port _ _) (State.KeepsCpll.port (State.Keeps.ite hu (hu.wfPort (Reg.CVP_STAT.PAD p) 1 (stat_addr p))) _ _)
  have hcal := (hfifo hst (t.wf (Reg.CVP_STAT.STATE p) 2 |>.wf (Reg.CVP_STAT.STOP_CAUSE p) cause |>.cvpOut p)
    ((8 - (t.cvpPort p).fifo.length % 8) % 8 = 0) { t.cvpPort p with fifo := [], stopping := false }
    { t.cvpPort p with fifo := (t.cvpPort p).fifo ++ List.replicate ((8 - (t.cvpPort p).fifo.length % 8) % 8) 0, stopping := false }).abortCal p
  exact State.Keeps.dmaServe besidesDma (State.Keeps.ite hcal (State.Keeps.raiseIf hcal _ _))

theorem stopAllPorts (h : s.KeepsCpll t) (p n : Nat) : s.KeepsCpll (t.stopAllPorts p n) := by
  induction n generalizing t p with
  | zero => exact h
  | succ n ih => exact ih (State.Keeps.ite (h.stopPort p 2) h) _

theorem cvpClockFault (s : State) : s.KeepsCpll s.cvpClockFault :=
  State.Keeps.ite ((stopAllPorts (State.Keeps.refl s) 0 8).wfPort Reg.CVP_STATUS.CLK_FAULT 1 (by decide)) (State.Keeps.refl s)

theorem spll (h : s.KeepsCpll t) : t.spll = s.spll := h.rest
theorem on (h : s.KeepsCpll t) (f : Fd) (hf : f.addr = Reg.CPLL_STATUS_at) : t.on f = s.on f := State.Keeps.on h f hf

end State.KeepsCpll

/-! ## The REFCLK monitor (R269) -/

section
variable (s : State) (count : Nat)

/-- The state with the count of the window that ended shown. -/
def State.refCounted : State := s.wf Reg.IOPLL_REF_CNT.COUNT (min 255 count)

theorem State.on_refCounted (f : Fd) (h : f.addr ≠ Reg.IOPLL_REF_CNT_at) : (s.refCounted count).on f = s.on f :=
  State.on_wf_other _ _ _ _ (.inl h)

theorem State.refWindow_present (h : s.on Reg.IOPLL_STATUS.REF_ABSENT = false) :
    s.refWindow count = if 58 ≤ count ∧ count ≤ 70 then (.none, s.refCounted count) else (s.refCounted count).refLost := by
  have h' := s.on_refCounted count Reg.IOPLL_STATUS.REF_ABSENT (by decide)
  simp only [State.refWindow, ← State.refCounted.eq_1, h', h, Bool.not_false, if_true, Bool.and_eq_true, decide_eq_true_eq]

theorem State.refWindow_absent_bad (h : s.on Reg.IOPLL_STATUS.REF_ABSENT = true) (hbad : ¬ (58 ≤ count ∧ count ≤ 70)) :
    s.refWindow count = (.none, (s.refCounted count).onSpll (fun x => { x with refGood := 0 })) := by
  have h' := s.on_refCounted count Reg.IOPLL_STATUS.REF_ABSENT (by decide)
  have hgood : (decide (58 ≤ count) && decide (count ≤ 70)) = false := by
    rw [← Bool.decide_and]; exact decide_eq_false hbad
  simp only [State.refWindow, ← State.refCounted.eq_1, h', h, hgood]
  rfl

/-- The monitor's second good window: REFCLK is present, and every PLL begins a window. -/
def State.refBack : State :=
  (((((s.refCounted count).onSpll (fun x => { x with refGood := 0 })).wf Reg.IOPLL_STATUS.REF_ABSENT 0).openWindow .iopll).openWindow
    .cpll).openWindow .spll

theorem State.refWindow_absent_good (h : s.on Reg.IOPLL_STATUS.REF_ABSENT = true) (hgood : 58 ≤ count ∧ count ≤ 70) :
    s.refWindow count = if s.spll.refGood = 0 then (.none, (s.refCounted count).onSpll (fun x => { x with refGood := 1 }))
      else (.none, (s.refBack count).startUp) := by
  have h' := s.on_refCounted count Reg.IOPLL_STATUS.REF_ABSENT (by decide)
  have hgood' : (decide (58 ≤ count) && decide (count ≤ 70)) = true := by simp [hgood.1, hgood.2]
  simp only [State.refWindow, ← State.refCounted.eq_1, h', h, hgood']
  rfl

theorem State.startUp_of_not_waiting (h : s.spll.phase ≠ .waiting) : s.startUp = s := if_neg (fun hw => h hw.1)

/-- REFCLK is declared absent: the registers, and the good windows counted anew. -/
def State.refGone : State :=
  (((s.wf Reg.IOPLL_STATUS.REF_ABSENT 1).wf Reg.IOPLL_STATUS.REF_LOST 1).incSat Reg.IOPLL_REF_CNT.ABSENT_CNT).clkEvent.onSpll
    (fun x => { x with ioGood := 0, cpGood := 0 })

theorem State.refGone_spState : s.refGone.spState = s.spState := by
  simp -implicitDefEqProofs (disch := decide) only [State.refGone, State.spState, State.rf_onSpll, State.rf_clkEvent, State.rf_incSat_other,
    State.rf_wf_other]

theorem State.refGone_phase : s.refGone.spll.phase = s.spll.phase := by
  rw [State.refGone, State.spll_onSpll, State.spll_clkEvent, State.incSat_spll, State.wf_spll, State.wf_spll]

/-- With nothing in progress the loss of REFCLK ends no hop. -/
theorem State.refLost_idle (hp : s.spll.phase = .idle) (hst : s.spState ≠ spStarting) : s.refLost = (.none, s.refGone) := by
  have hbusy : s.refGone.spBusy = false := by rw [State.spBusy, s.refGone_phase, hp]; rfl
  have hne : s.refGone.spState ≠ spStarting := by rw [s.refGone_spState]; exact hst
  show (if s.refGone.spState = spStarting then _ else if s.refGone.spBusy = true then _ else _) = _
  rw [if_neg hne, hbusy]
  rfl

end

/-! ## The obligation -/

section
variable (s : State) (count : Nat)

theorem exec_refclkMonitorWindow_none {t : State} (h : s.refWindow count = (.none, t)) : exec (.refclkMonitorWindow count) s = .next t := by
  show execRefclkMonitorWindow count s = _
  rw [execRefclkMonitorWindow, h]
  rfl

theorem exec_lockWindow_absent (p : Pll) (h : s.on Reg.IOPLL_STATUS.REF_ABSENT = true) : exec (.lockWindow p count) s = .next s := if_pos h

theorem exec_lockWindow_iopll (h : s.on Reg.IOPLL_STATUS.REF_ABSENT = false) : exec (.lockWindow .iopll count) s = .next (s.ioWindow count) := by
  show execLockWindow .iopll count s = _
  simp [execLockWindow, h]

theorem exec_lockWindow_cpll (h : s.on Reg.IOPLL_STATUS.REF_ABSENT = false) : exec (.lockWindow .cpll count) s = .next (s.cpWindow count) := by
  show execLockWindow .cpll count s = _
  simp [execLockWindow, h]

end

theorem refCounted_regs (s : State) (count : Nat) {as : List Nat} (h : Reg.IOPLL_REF_CNT_at ∈ as) :
    PllRegs s (s.refCounted count) s.spll as [] := (PllRegs.refl s as).wf _ _ h

theorem rf_refCounted (s : State) (count : Nat) : (s.refCounted count).rf Reg.IOPLL_REF_CNT.COUNT = min 255 count := by
  rw [State.refCounted, State.rf_wf_same _ _ _ (by decide), Nat.mod_eq_of_lt]
  exact Nat.lt_of_le_of_lt (Nat.min_le_left _ _) (by decide)

theorem clkEv_refGone (s : State) (count : Nat) :
    clkEv ((((s.refCounted count).wf Reg.IOPLL_STATUS.REF_ABSENT 1).wf Reg.IOPLL_STATUS.REF_LOST 1).incSat Reg.IOPLL_REF_CNT.ABSENT_CNT) =
      clkEv s := by
  rw [State.incSat, clkEv_wf _ _ _ (by decide), clkEv_wf _ _ _ (by decide), clkEv_wf _ _ _ (by decide), State.refCounted,
    clkEv_wf _ _ _ (by decide)]

/-- A window of REFCLK too short or too long is its loss. -/
theorem refclk_lost (s : State) (count : Nat) (h : s.on Reg.IOPLL_STATUS.REF_ABSENT = false) (hbad : ¬ (58 ≤ count ∧ count ≤ 70))
    (hp : s.spll.phase = .idle) (hst : s.spState = 1) : Does (.refclkMonitorWindow count) s (fun t =>
      PllRegs s t { s.spll with ioGood := 0, cpGood := 0 } [Reg.IOPLL_REF_CNT_at, Reg.IOPLL_STATUS_at] (clkEv s) ∧
      t.on Reg.IOPLL_STATUS.REF_ABSENT = true ∧ t.on Reg.IOPLL_STATUS.REF_LOST = true ∧ Counted s t Reg.IOPLL_REF_CNT.ABSENT_CNT ∧
      t.rf Reg.IOPLL_REF_CNT.COUNT = min 255 count) := by
  have hst' : (s.refCounted count).spState ≠ spStarting := by
    rw [State.spState, State.refCounted, State.rf_wf_other _ _ _ _ (by decide), show s.rf Reg.SPLL_STATUS.STATE = 1 from hst]
    decide
  have hregs := ((((refCounted_regs s count (as := [Reg.IOPLL_REF_CNT_at, Reg.IOPLL_STATUS_at]) (by decide)).wf
    Reg.IOPLL_STATUS.REF_ABSENT 1 (by decide)).wf Reg.IOPLL_STATUS.REF_LOST 1 (by decide)).incSat Reg.IOPLL_REF_CNT.ABSENT_CNT 1
    (by decide)).clkEvent (clkEv_refGone s count)
  refine ⟨(s.refCounted count).refGone, exec_refclkMonitorWindow_none s count ((s.refWindow_present count h).trans ((if_neg hbad).trans
    (State.refLost_idle _ hp hst'))), hregs.onSpll _, ?_, ?_, ?_, ?_⟩
  · simp -implicitDefEqProofs (disch := decide) only [State.refGone, State.on_onSpll, State.on_clkEvent, State.on_incSat_other,
      State.on_wf_other, State.on_wf_same]
    rfl
  · simp -implicitDefEqProofs (disch := decide) only [State.refGone, State.on_onSpll, State.on_clkEvent, State.on_incSat_other,
      State.on_wf_same]
    rfl
  · simp -implicitDefEqProofs (disch := decide) only [Counted, State.refGone, State.rf_onSpll, State.rf_clkEvent, State.rf_incSat,
      State.rf_wf_other, State.refCounted]
  · simp -implicitDefEqProofs (disch := decide) only [State.refGone, State.rf_onSpll, State.rf_clkEvent, State.rf_incSat_other,
      State.rf_wf_other, rf_refCounted]

/-- REFCLK back: two good windows in a row. -/
theorem refclk_back (s : State) (count : Nat) (h : s.on Reg.IOPLL_STATUS.REF_ABSENT = true) (hgood : 58 ≤ count ∧ count ≤ 70)
    (hsecond : s.spll.refGood ≠ 0) (hp : s.spll.phase ≠ .waiting) : Does (.refclkMonitorWindow count) s (fun t =>
      PllRegs s t { s.spll with refGood := 0, ioWin := nextWin s, cpWin := nextWin s, spWin := nextWin s }
        [Reg.IOPLL_REF_CNT_at, Reg.IOPLL_STATUS_at] [] ∧ t.on Reg.IOPLL_STATUS.REF_ABSENT = false) := by
  have hwin : ((s.refCounted count).wf Reg.IOPLL_STATUS.REF_ABSENT 0).lockNow = nextWin s := by
    simp -implicitDefEqProofs (disch := decide) only [State.lockNow, nextWin, State.refCounted, State.rf_wf_other]
  have heq : s.refBack count = ((s.refCounted count).wf Reg.IOPLL_STATUS.REF_ABSENT 0).onSpll
      (fun x => { x with refGood := 0, ioWin := nextWin s, cpWin := nextWin s, spWin := nextWin s }) := by
    rw [← hwin]; rfl
  have hregs := ((refCounted_regs s count (as := [Reg.IOPLL_REF_CNT_at, Reg.IOPLL_STATUS_at]) (by decide)).wf
    Reg.IOPLL_STATUS.REF_ABSENT 0 (by decide)).onSpll
      (fun x => { x with refGood := 0, ioWin := nextWin s, cpWin := nextWin s, spWin := nextWin s })
  refine ⟨s.refBack count, exec_refclkMonitorWindow_none s count ((s.refWindow_absent_good count h hgood).trans
    ((if_neg hsecond).trans ?_)), ?_, ?_⟩
  · rw [heq, State.startUp_of_not_waiting]
    exact hp
  · rw [heq]; exact hregs
  · rw [heq, State.on_onSpll, State.on_wf_same _ _ _ (by decide)]
    rfl

/-- The IOPLL's windows (R271, R272). -/
theorem iopll_windows (s : State) (count : Nat) (h : s.on Reg.IOPLL_STATUS.REF_ABSENT = false) :
    let io := { s.spll with ioWin := nextWin s }
    let w := s.spll.ioWin
    (s.on Reg.IOPLL_STATUS.IOPLL_LOCK = true →
      (inWin count w.1 8 → Does (.lockWindow .iopll count) s (fun t => t = { s with spll := io })) ∧
      (¬ inWin count w.1 8 → Does (.lockWindow .iopll count) s (fun t =>
        PllRegs s t { io with ioLost := true, ioGood := 0 } [Reg.IOPLL_STATUS_at] (clkEv s) ∧
        t.on Reg.IOPLL_STATUS.IOPLL_LOCK = false ∧ t.on Reg.IOPLL_STATUS.IOPLL_LOL = true))) ∧
    (s.on Reg.IOPLL_STATUS.IOPLL_LOCK = false →
      (¬ inWin count w.1 w.2 → Does (.lockWindow .iopll count) s (fun t => t = { s with spll := { io with ioGood := 0 } })) ∧
      (inWin count w.1 w.2 → s.spll.ioGood = 0 → Does (.lockWindow .iopll count) s (fun t => t = { s with spll := { io with ioGood := 1 } })) ∧
      (inWin count w.1 w.2 → s.spll.ioGood ≠ 0 → s.spll.phase ≠ .waiting → Does (.lockWindow .iopll count) s (fun t =>
        PllRegs s t { io with ioGood := 0, ioLost := false } [Reg.IOPLL_STATUS_at] [] ∧ t.on Reg.IOPLL_STATUS.IOPLL_LOCK = true))) := by
  have hopen := (PllRegs.refl s [Reg.IOPLL_STATUS_at]).onSpll (fun x => { x with ioWin := nextWin s })
  have hrun {t : State} (ht : s.ioWindow count = t) : exec (.lockWindow .iopll count) s = .next t := by
    rw [exec_lockWindow_iopll s count h, ht]
  refine ⟨fun hlock => ⟨fun hin => ?_, fun hout => ?_⟩, fun hlock => ⟨fun hout => ?_, fun hin hzero => ?_, fun hin hone hp => ?_⟩⟩
  · exact ⟨_, hrun (by simp only [State.ioWindow, State.on_openWindow, hlock, (within_iff _ _ _).2 hin, if_true]; rfl), rfl⟩
  · refine ⟨_, hrun (by simp only [State.ioWindow, State.on_openWindow, hlock, (within_false _ _ _).2 hout, if_true, Bool.false_eq_true, if_false]; rfl), ?_, ?_, ?_⟩
    · refine (((hopen.wf Reg.IOPLL_STATUS.IOPLL_LOCK 0 (by decide)).wf Reg.IOPLL_STATUS.IOPLL_LOL 1 (by decide)).clkEvent ?_).onSpll _
      rw [clkEv_wf _ _ _ (by decide), clkEv_wf _ _ _ (by decide)]
      rfl
    · rw [State.on_onSpll, State.on_clkEvent, State.on_wf_other _ _ _ _ (by decide), State.on_wf_same _ _ _ (by decide)]; rfl
    · rw [State.on_onSpll, State.on_clkEvent, State.on_wf_same _ _ _ (by decide)]; rfl
  · exact ⟨_, hrun (by simp only [State.ioWindow, State.on_openWindow, hlock, (within_false _ _ _).2 hout]; rfl), rfl⟩
  · exact ⟨_, hrun (by simp only [State.ioWindow, State.on_openWindow, hlock, (within_iff _ _ _).2 hin]; exact if_pos hzero), rfl⟩
  · refine ⟨_, hrun (by
      simp only [State.ioWindow, State.on_openWindow, hlock, (within_iff _ _ _).2 hin, Bool.not_true, Bool.false_eq_true, if_false]
      exact (if_neg hone).trans (State.startUp_of_not_waiting _ hp)), ?_, ?_⟩
    · exact (hopen.wf Reg.IOPLL_STATUS.IOPLL_LOCK 1 (by decide)).onSpll _
    · rw [State.on_onSpll, State.on_wf_same _ _ _ (by decide)]; rfl

/-- The CPLL's windows (R271, R273). -/
theorem cpll_windows (s : State) (count : Nat) (h : s.on Reg.IOPLL_STATUS.REF_ABSENT = false) :
    let cp := { s.spll with cpWin := nextWin s }
    let cw := s.spll.cpWin
    (s.on Reg.CPLL_CTL.EN = false → Does (.lockWindow .cpll count) s (fun t => t = { s with spll := cp })) ∧
    (s.on Reg.CPLL_CTL.EN = true → s.on Reg.CPLL_STATUS.LOCK = true →
      (inWin count cw.1 8 → Does (.lockWindow .cpll count) s (fun t => t = { s with spll := cp })) ∧
      (¬ inWin count cw.1 8 → Does (.lockWindow .cpll count) s (fun t =>
        t.on Reg.CPLL_STATUS.LOCK = false ∧ t.on Reg.CPLL_STATUS.LOL = true ∧ t.spll = { cp with cpGood := 0 }))) ∧
    (s.on Reg.CPLL_CTL.EN = true → s.on Reg.CPLL_STATUS.LOCK = false → inWin count cw.1 cw.2 → s.spll.cpGood ≠ 0 →
      Does (.lockWindow .cpll count) s (fun t => PllRegs s t { cp with cpGood := 0 } [Reg.CPLL_STATUS_at] [] ∧
        t.on Reg.CPLL_STATUS.LOCK = true)) := by
  have hopen := (PllRegs.refl s [Reg.CPLL_STATUS_at]).onSpll (fun x => { x with cpWin := nextWin s })
  have hrun {t : State} (ht : s.cpWindow count = t) : exec (.lockWindow .cpll count) s = .next t := by
    rw [exec_lockWindow_cpll s count h, ht]
  refine ⟨fun hen => ?_, fun hen hlock => ⟨fun hin => ?_, fun hout => ?_⟩, fun hen hlock hin hone => ?_⟩
  · exact ⟨_, hrun (by simp only [State.cpWindow, State.on_openWindow, hen]; rfl), rfl⟩
  · exact ⟨_, hrun (by simp only [State.cpWindow, State.on_openWindow, hen, hlock, (within_iff _ _ _).2 hin]; rfl), rfl⟩
  · refine ⟨_, hrun (by simp only [State.cpWindow, State.on_openWindow, hen, hlock, (within_false _ _ _).2 hout, Bool.not_true, Bool.false_eq_true, if_false, if_true]; rfl), ?_, ?_, ?_⟩
    · rw [(State.KeepsCpll.cvpClockFault _).on _ rfl, State.on_onSpll, State.on_clkEvent, State.on_wf_other _ _ _ _ (by decide),
        State.on_wf_same _ _ _ (by decide)]
      rfl
    · rw [(State.KeepsCpll.cvpClockFault _).on _ rfl, State.on_onSpll, State.on_clkEvent, State.on_wf_same _ _ _ (by decide)]
      rfl
    · rw [(State.KeepsCpll.cvpClockFault _).spll, State.spll_onSpll, State.spll_clkEvent]
      rfl
  · refine ⟨_, hrun (by simp only [State.cpWindow, State.on_openWindow, hen, hlock, (within_iff _ _ _).2 hin]; exact if_neg hone), ?_, ?_⟩
    · exact (hopen.wf Reg.CPLL_STATUS.LOCK 1 (by decide)).onSpll _
    · rw [State.on_onSpll, State.on_wf_same _ _ _ (by decide)]; rfl

/-- Settles O33: window by window, the registers a window writes and the PLLs' own state apart. -/
theorem clockWindowsDeclareLock : Obligations.ClockWindowsDeclareLock := by
  intro count s
  refine ⟨⟨fun h hgood => ?_, fun h hbad hp hst => refclk_lost s count h hbad hp hst, fun h hbad => ?_, fun h hgood hfirst => ?_,
    fun h hgood hsecond hp => refclk_back s count h hgood hsecond hp⟩, fun h => ⟨fun p => ?_, ?_⟩, fun h => ?_⟩
  · have hle : min 255 count = count := Nat.min_eq_right (by omega)
    refine ⟨s.refCounted count, exec_refclkMonitorWindow_none s count ((s.refWindow_present count h).trans (if_pos hgood)),
      refCounted_regs s count (by decide), ?_⟩
    rw [rf_refCounted, hle]
  · exact ⟨_, exec_refclkMonitorWindow_none s count (s.refWindow_absent_bad count h hbad), (refCounted_regs s count (by decide)).onSpll _⟩
  · exact ⟨_, exec_refclkMonitorWindow_none s count ((s.refWindow_absent_good count h hgood).trans (if_pos hfirst)),
      (refCounted_regs s count (by decide)).onSpll _⟩
  · exact ⟨s, exec_lockWindow_absent s count p h, rfl⟩
  · exact ⟨s, if_pos h, rfl⟩
  · obtain ⟨hlocked, hunlocked⟩ := iopll_windows s count h
    obtain ⟨hoff, hon, hlock⟩ := cpll_windows s count h
    exact ⟨hlocked, hunlocked, hoff, hon, hlock⟩

end Sys2Proof.Machine
end

section
/-!
PROOFS. The registers of the clock controller (R273, R275, R278, R286, R293).
-/

namespace Sys2Proof.Machine
open Sys2Proof.Claims

section
variable (src : Src) (op : OpIx) (v : Word) (s : State)

/-! ## MEMO_CLR (R278) -/

/-- A refusal of the clock controller leaves the PLLs' own state. -/
theorem State.refuse_clk_spll (why : Nat) : (s.refuse clkRefuse why).spll = s.spll := State.raiseIf_spll _ _ _

theorem State.writeOr_clk_spll (p : Permit) (why a : Nat) : (s.writeOr p clkRefuse why a v).st.spll = s.spll := by
  unfold State.writeOr
  dsimp only
  split
  · rfl
  · exact State.refuse_clk_spll _ _

theorem State.writeSpllCtl_clr : s.writeSpllCtl (putBits v 1 1 1) =
    (s.onSpll Spll.forgetAll).writeOr s.clkPermit clkRefuse 0xD Reg.SPLL_CTL_at (putBits v 1 1 1) := by
  have hbit : getBits (putBits v 1 1 1) 1 1 = 1 := getBits_putBits_same v 1 1 1 (by decide)
  rw [State.writeSpllCtl, hbit]
  rfl

theorem memoClr_holds : Does (.memoClr v) s (fun t => t.spll.memo = s.spll.memo.map (fun m => { m with valid := false }) ∧
    t.spll.phase = s.spll.phase ∧ (s.on Reg.IOPLL_CTL.LOCK = false → t.on Reg.SPLL_CTL.FWHOP = v.getLsbD 0)) := by
  have hspll := State.writeOr_clk_spll (putBits v 1 1 1) (s.onSpll Spll.forgetAll) s.clkPermit 0xD Reg.SPLL_CTL_at
  refine ⟨_, rfl, ?_, ?_, fun hlock => ?_⟩
  · rw [State.writeSpllCtl_clr, hspll]; rfl
  · rw [State.writeSpllCtl_clr, hspll]; rfl
  · have hpermit : s.clkPermit = Permit.all := by rw [State.clkPermit, hlock]; rfl
    have hfwhop := (s.onSpll Spll.forgetAll).rf_writeReg_takes .all Reg.SPLL_CTL.FWHOP (putBits v 1 1 1) (by decide)
    rw [State.writeSpllCtl_clr, hpermit, State.writeOr_all, WRes.ok_st, State.on]
    refine (congrArg (fun n => n != 0) hfwhop).trans ?_
    rw [getBits_putBits_other v 1 1 1 _ _ (.inl (by decide))]
    have hbit := testBit_getBits v 0 1 0
    simp only [Nat.lt_one_iff, decide_true, Bool.true_and] at hbit
    rw [← hbit, Nat.testBit_zero]
    have hlt := getBits_lt v 0 1
    show (getBits v 0 1 != 0) = _
    generalize getBits v 0 1 = b at hlt
    interval_cases b <;> rfl

/-! ## SPLL_OPCFG (R275, R293) -/

theorem State.opcfgBad_iff : s.opcfgBad op.val v = true ↔ ¬ pointOk op.val (getBits v 0 7) (getBits v 8 3) ∨
    (op.val = s.rf Reg.SPLL_STATUS.OP ∨ (s.spll.phase ≠ .idle ∧ op = s.spll.target) ∨ s.spll.queue = some op) := by
  have hbusy : s.spBusy = true ↔ s.spll.phase ≠ .idle := by rw [State.spBusy, bne_iff_ne]
  have hix (t : OpIx) : op.val = t.val ↔ op = t := Fin.ext_iff.symm
  unfold State.opcfgBad pointOk
  cases s.spll.queue with
  | none =>
    simp only [Bool.or_eq_true, decide_eq_true_eq, Bool.and_eq_true, bne_iff_ne, ne_eq, beq_iff_eq, hbusy, hix, Bool.false_eq_true,
      reduceCtorEq]
    rw [or_assoc, or_assoc]
    exact or_congr (by omega) Iff.rfl
  | some t =>
    have hsome : some t = some op ↔ op = t := by rw [Option.some.injEq, eq_comm]
    simp only [Bool.or_eq_true, decide_eq_true_eq, Bool.and_eq_true, bne_iff_ne, ne_eq, beq_iff_eq, hbusy, hix, hsome]
    rw [or_assoc, or_assoc]
    exact or_congr (by omega) Iff.rfl

theorem spllOpcfgWrite_holds (hsrc : src ≠ .fobex) :
    let nn := getBits v 0 7
    let p := getBits v 8 3
    let used := op.val = s.rf Reg.SPLL_STATUS.OP ∨ (s.spll.phase ≠ .idle ∧ op = s.spll.target) ∨ s.spll.queue = some op
    (s.on Reg.IOPLL_CTL.LOCK = true → Refuses (.spllOpcfgWrite src op v) s clkRefuse 0xD) ∧
    (s.on Reg.IOPLL_CTL.LOCK = false → ¬ pointOk op.val nn p ∨ used → Refuses (.spllOpcfgWrite src op v) s clkRefuse 5) ∧
    (s.on Reg.IOPLL_CTL.LOCK = false → pointOk op.val nn p → ¬ used → Does (.spllOpcfgWrite src op v) s (fun t =>
      Regs s t [Reg.SPLL_OPCFG_at op.val] [] ∧ t.rf (Reg.SPLL_OPCFG.N op.val) = nn ∧ t.rf (Reg.SPLL_OPCFG.P op.val) = p)) := by
  have hrun {w : WRes} (h : s.writeOpcfg src op.val v = w) : exec (.spllOpcfgWrite src op v) s = .next w.st := by rw [← h]; rfl
  refine ⟨fun hlock => ?_, fun hlock hbad => ?_, fun hlock hok hused => ?_⟩
  · exact refuses_of_exec (by decide) (hrun ((if_neg hsrc).trans (if_pos hlock)))
  · refine refuses_of_exec (by decide) (hrun ((if_neg hsrc).trans ((if_neg (by simp [hlock])).trans (if_pos ?_))))
    exact (State.opcfgBad_iff op v s).2 hbad
  · have hgood : ¬ s.opcfgBad op.val v = true := fun h => ((State.opcfgBad_iff op v s).1 h).elim (fun hn => hn hok) hused
    have htakes : ∀ n : Fin 4, (Reg.SPLL_OPCFG.N n.val).takes .all = true ∧ (Reg.SPLL_OPCFG.P n.val).takes .all = true := by decide
    exact ⟨s.writeReg .all (Reg.SPLL_OPCFG_at op.val) v, hrun ((if_neg hsrc).trans ((if_neg (by simp [hlock])).trans (if_neg hgood))),
      regs_writeReg s _ _ _, s.rf_writeReg_takes .all (Reg.SPLL_OPCFG.N op.val) v (htakes op).1,
      s.rf_writeReg_takes .all (Reg.SPLL_OPCFG.P op.val) v (htakes op).2⟩

/-! ## Spread (R286) -/

theorem spllSscWrite_holds (hsrc : src ≠ .fobex) : Does (.spllSscWrite src v) s (fun t => Regs s t [Reg.SPLL_SSC_at] [] ∧
    t.rf Reg.SPLL_SSC.EN = getBits v 0 1 ∧ t.rf Reg.SPLL_SSC.MODE = getBits v 1 1 ∧ t.rf Reg.SPLL_SSC.DEPTH = getBits v 2 2) := by
  have hrun : exec (.spllSscWrite src v) s = .next (s.writeReg .all Reg.SPLL_SSC_at v) :=
    congrArg (fun w : WRes => Host.Outcome.next w.st) (if_neg hsrc)
  exact ⟨_, hrun, regs_writeReg s _ _ _, s.rf_writeReg_takes .all Reg.SPLL_SSC.EN v (by decide),
    s.rf_writeReg_takes .all Reg.SPLL_SSC.MODE v (by decide), s.rf_writeReg_takes .all Reg.SPLL_SSC.DEPTH v (by decide)⟩

/-- A bit of a register is 0 or 1. -/
theorem getBits_one_beq (w : Word) (lo : Nat) : (getBits w lo 1 == 1) = (getBits w lo 1 != 0) := by
  have hlt := getBits_lt w lo 1
  generalize getBits w lo 1 = b at hlt
  interval_cases b <;> rfl

/-- Whether spread is suppressed at the point in effect. -/
def State.sscFast (s : State) : Bool :=
  decide (400000 * s.rf (Reg.SPLL_OPCFG.P (s.rf Reg.SPLL_STATUS.OP)) <
    25 * s.rf (Reg.SPLL_OPCFG.N (s.rf Reg.SPLL_STATUS.OP)) * (401 + s.rf Reg.SPLL_SSC.DEPTH))

/-- SPLL_SSC put into effect, in the terms of its fields. -/
theorem State.applySpread_eq : s.applySpread =
    ((s.onSpll (fun x => { x with ssc := s.reg Reg.SPLL_SSC_at })).wf Reg.SPLL_STATUS.SSC_SUPPRESSED
      (b2n (s.on Reg.SPLL_SSC.EN && s.on Reg.SPLL_SSC.MODE && s.sscFast))).wf Reg.SPLL_STATUS.SSC_ACTIVE
      (b2n (s.on Reg.SPLL_SSC.EN && !(s.on Reg.SPLL_SSC.EN && s.on Reg.SPLL_SSC.MODE && s.sscFast))) := by
  have hen : (getBits (s.reg Reg.SPLL_SSC_at) 0 1 == 1) = s.on Reg.SPLL_SSC.EN := getBits_one_beq _ _
  have hmode : (getBits (s.reg Reg.SPLL_SSC_at) 1 1 == 1) = s.on Reg.SPLL_SSC.MODE := getBits_one_beq _ _
  rw [← hen, ← hmode]
  rfl

theorem b2n_bit (b : Bool) : (b2n b % 2 ^ 1 != 0) = b := by cases b <;> rfl

theorem sscApply_holds (h : s.spState = 1) : Does .sscApply s (fun t =>
    let fast := 400000 * s.rf (Reg.SPLL_OPCFG.P (s.rf Reg.SPLL_STATUS.OP)) <
      25 * s.rf (Reg.SPLL_OPCFG.N (s.rf Reg.SPLL_STATUS.OP)) * (401 + s.rf Reg.SPLL_SSC.DEPTH)
    let suppressed := s.on Reg.SPLL_SSC.EN = true ∧ s.on Reg.SPLL_SSC.MODE = true ∧ fast
    PllRegs s t { s.spll with ssc := s.reg Reg.SPLL_SSC_at } [Reg.SPLL_STATUS_at] [] ∧ t.on Reg.SPLL_STATUS.SSC_SUPPRESSED = decide suppressed ∧
    t.on Reg.SPLL_STATUS.SSC_ACTIVE = (s.on Reg.SPLL_SSC.EN && decide (¬ suppressed))) := by
  have hsupp : (s.on Reg.SPLL_SSC.EN && s.on Reg.SPLL_SSC.MODE && s.sscFast) = decide (s.on Reg.SPLL_SSC.EN = true ∧
      s.on Reg.SPLL_SSC.MODE = true ∧ 400000 * s.rf (Reg.SPLL_OPCFG.P (s.rf Reg.SPLL_STATUS.OP)) <
        25 * s.rf (Reg.SPLL_OPCFG.N (s.rf Reg.SPLL_STATUS.OP)) * (401 + s.rf Reg.SPLL_SSC.DEPTH)) := by
    rw [Bool.and_assoc, Bool.decide_and, Bool.decide_and, Bool.decide_eq_true, Bool.decide_eq_true]; rfl
  refine ⟨s.applySpread, congrArg Host.Outcome.next (if_pos h), ?_, ?_, ?_⟩
  · rw [State.applySpread_eq]
    exact (((PllRegs.refl s [Reg.SPLL_STATUS_at]).onSpll (fun x => { x with ssc := s.reg Reg.SPLL_SSC_at })).wf
      Reg.SPLL_STATUS.SSC_SUPPRESSED _ (by decide)).wf Reg.SPLL_STATUS.SSC_ACTIVE _ (by decide)
  · rw [State.applySpread_eq, State.on_wf_other _ _ _ _ (by decide), State.on_wf_same _ _ _ (by decide), hsupp]
    exact b2n_bit _
  · rw [State.applySpread_eq, State.on_wf_same _ _ _ (by decide), hsupp]
    exact (b2n_bit _).trans (by rw [decide_not])

/-! ## CPLL_CTL (R273) -/

/-- A field of two bits by its bits. -/
theorem getBits_two (w : Word) : getBits w 0 2 = getBits w 0 1 + 2 * getBits w 1 1 := by
  unfold getBits
  omega

/-- CPLL_CTL's two bits are taken as written. -/
theorem getBits_cpllCtl : getBits ((s.writeReg .all Reg.CPLL_CTL_at v).reg Reg.CPLL_CTL_at) 0 2 = getBits v 0 2 := by
  have hen := s.rf_writeReg_takes .all Reg.CPLL_CTL.EN v (by decide)
  have hfamily := s.rf_writeReg_takes .all Reg.CPLL_CTL.FAMILY v (by decide)
  rw [getBits_two, getBits_two v]
  exact congrArg₂ (fun x y => x + 2 * y) hen hfamily

theorem cpllCtlWrite_changes (h : getBits v 0 2 ≠ getBits (s.reg Reg.CPLL_CTL_at) 0 2) :
    let st := s.rf (Reg.IOPLL_ISL.STATE islConv)
    (st ≠ 3 → st ≠ 4 → Refuses (.cpllCtlWrite v) s clkRefuse 0xA) ∧
    (st = 3 ∨ st = 4 → Does (.cpllCtlWrite v) s (fun t => PllRegs s t { s.spll with cpGood := 0, cpWin := nextWin s }
        [Reg.CPLL_CTL_at, Reg.CPLL_STATUS_at] [] ∧
      t.on Reg.CPLL_STATUS.LOCK = false ∧ getBits (t.reg Reg.CPLL_CTL_at) 0 2 = getBits v 0 2)) := by
  have hdiff : ¬ (getBits v 0 2 == getBits (s.reg Reg.CPLL_CTL_at) 0 2) = true := by simpa using h
  have hrun {w : WRes} (hw : s.writeCpll v = w) : exec (.cpllCtlWrite v) s = .next w.st := by rw [← hw]; rfl
  refine ⟨fun h3 h4 => ?_, fun hst => ?_⟩
  · exact refuses_of_exec (by decide) (hrun ((if_neg hdiff).trans (if_pos ⟨h3, h4⟩)))
  · have hregs : PllRegs s (s.writeReg .all Reg.CPLL_CTL_at v) s.spll [Reg.CPLL_CTL_at, Reg.CPLL_STATUS_at] [] :=
      (regs_writeReg s .all Reg.CPLL_CTL_at v).mono (by simp)
    have hwin : ((s.writeReg .all Reg.CPLL_CTL_at v).wf Reg.CPLL_STATUS.LOCK 0).lockNow = nextWin s := by
      simp -implicitDefEqProofs (disch := decide) only [State.lockNow, nextWin, State.rf_wf_other, State.rf_writeReg_other]
    have heq : (((s.writeReg .all Reg.CPLL_CTL_at v).wf Reg.CPLL_STATUS.LOCK 0).onSpll (fun x => { x with cpGood := 0 })).openWindow .cpll =
        ((s.writeReg .all Reg.CPLL_CTL_at v).wf Reg.CPLL_STATUS.LOCK 0).onSpll (fun x => { x with cpGood := 0, cpWin := nextWin s }) := by
      rw [← hwin]; rfl
    refine ⟨_, hrun ((if_neg hdiff).trans ((if_neg (fun hn => hst.elim hn.1 hn.2)).trans (congrArg WRes.ok heq))), ?_, ?_, ?_⟩
    · exact (hregs.wf Reg.CPLL_STATUS.LOCK 0 (by decide)).onSpll (fun x => { x with cpGood := 0, cpWin := nextWin s })
    · rw [WRes.ok_st, State.on_onSpll, State.on_wf_same _ _ _ (by decide)]; rfl
    · rw [WRes.ok_st, State.reg_onSpll, State.reg_wf_other _ _ _ _ (by decide), getBits_cpllCtl v s]

/-- Settles O35: register by register; a refusal changes nothing but what shows it. -/
theorem clockRegistersAreChecked : Obligations.ClockRegistersAreChecked := by
  intro src op v s
  refine ⟨memoClr_holds v s, fun hsrc => ⟨?_, ?_⟩, fun hsrc => ⟨spllOpcfgWrite_holds src op v s hsrc, spllSscWrite_holds src v s hsrc⟩,
    sscApply_holds s, fun h => ?_, fun h => ?_, fun h => cpllCtlWrite_changes v s h⟩
  · exact refuses_of_exec (by decide) (congrArg (fun w : WRes => Host.Outcome.next w.st) (if_pos hsrc))
  · exact refuses_of_exec (by decide) (congrArg (fun w : WRes => Host.Outcome.next w.st) (if_pos hsrc))
  · exact ⟨s, congrArg Host.Outcome.next (if_neg h), rfl⟩
  · exact ⟨s, congrArg (fun w : WRes => Host.Outcome.next w.st) (if_pos (by simpa using h)), rfl⟩

end
end Sys2Proof.Machine
end

section
/-!
PROOFS. Hops, searches and relocks of the SPLL (R276 to R278, R281, R283, R285).
-/

namespace Sys2Proof.Machine
open Sys2Proof.Claims

/-! ## Stages (R277, R281) -/

section
variable (s : State) (ph : SpllPhase) (f : Fd)

@[simp] theorem State.rf_spPhase : (s.spPhase ph).rf f = s.rf f := rfl
@[simp] theorem State.on_spPhase : (s.spPhase ph).on f = s.on f := rfl
@[simp] theorem State.reg_spPhase (a : Nat) : (s.spPhase ph).reg a = s.reg a := rfl
@[simp] theorem State.spPhase_net : (s.spPhase ph).net = s.net := rfl
@[simp] theorem State.onSpll_net (g : Spll → Spll) : (s.onSpll g).net = s.net := rfl
@[simp] theorem State.onSpll_ldr (g : Spll → Spll) : (s.onSpll g).ldr = s.ldr := rfl
@[simp] theorem State.spPhase_ldr : (s.spPhase ph).ldr = s.ldr := rfl

theorem State.spPhase_spll : (s.spPhase ph).spll =
    { s.spll with
      phase := ph, spWin := nextWin s,
      cycles := if s.spll.phase = .idle ∨ s.spll.phase = .waiting then s.spll.cycles else s.spll.cycles + s.spll.stageLen } := rfl

end

/-! ## Requests (R283) -/

section
variable (src : Src) (op : OpIx) (s : State)

/-- The point a request names reads as it was written. -/
theorem hopPoint (op : OpIx) : (Fin.ofNat 4 (getBits (BitVec.ofNat 32 op.val) 0 2) : OpIx) = op := by
  fin_cases op <;> rfl

theorem State.spBusy_iff : s.spBusy = true ↔ s.spll.phase ≠ .idle := by rw [State.spBusy, bne_iff_ne]

theorem State.writeHop_fobex (h : src = .fobex) (v : Word) : s.writeHop src v = s.refused clkRefuse 0xE := if_pos h

theorem State.writeHop_noFwhop (h : src ≠ .fobex) (hf : s.on Reg.SPLL_CTL.FWHOP = false) (v : Word) :
    s.writeHop src v = s.refused clkRefuse 3 := (if_neg h).trans (if_pos (by simp [hf]))

theorem State.writeHop_request (h : src ≠ .fobex) (hf : s.on Reg.SPLL_CTL.FWHOP = true) :
    s.writeHop src (BitVec.ofNat 32 op.val) =
      if s.hopReason op = 0 then .ok (s.takeHop op) else s.refused clkRefuse (s.hopReason op) := by
  rw [State.writeHop, if_neg h, if_neg (by simp [hf]), hopPoint]

/-- A request accepted. -/
theorem exec_hopRequest_taken (h : src ≠ .fobex) (hf : s.on Reg.SPLL_CTL.FWHOP = true) (hok : s.hopReason op = 0) :
    exec (.hopRequest src op) s = .next (s.takeHop op) :=
  congrArg (fun w : WRes => Host.Outcome.next w.st) ((s.writeHop_request src op h hf).trans (if_pos hok))

/-- A request refused with its reason. -/
theorem hopRequest_refused (h : src ≠ .fobex) (hf : s.on Reg.SPLL_CTL.FWHOP = true) {why : Nat} (hwhy : s.hopReason op = why)
    (hsound : refuseSound clkRefuse why = true) (hne : why ≠ 0) : Refuses (.hopRequest src op) s clkRefuse why := by
  subst hwhy
  exact refuses_of_exec hsound
    (congrArg (fun w : WRes => Host.Outcome.next w.st) ((s.writeHop_request src op h hf).trans (if_neg hne)))

/-! The reasons, in their order. -/

theorem State.hopReason_busy (h : s.spll.queue ≠ none) : s.hopReason op = 1 := if_pos (Option.isSome_iff_ne_none.2 h)

theorem State.hopReason_free (h : s.spll.queue = none) : s.hopReason op =
    if s.spState ≠ 4 ∧ op.val = (if s.spll.phase ≠ .idle then s.spll.target.val else s.rf Reg.SPLL_STATUS.OP) then 2
    else if s.on Reg.IOPLL_STATUS.REF_ABSENT = true then 4 else 0 := by
  have hnot : ¬ s.spll.queue.isSome = true := by rw [h]; exact Bool.false_ne_true
  simp only [State.hopReason, if_neg hnot, s.spBusy_iff]
  rfl

end

/-! ## A hop starts (R281) -/

section
variable (s : State) (op : OpIx)

/-- What every hop's start does. -/
def State.hopBase : State :=
  ((s.incWrap Reg.SPLL_HOP_CNT.HOPS).onBypass.onSpll (fun x => { x with why := .hop, target := op, cycles := 0 })).wf Reg.SPLL_STATUS.STATE spHop

/-- The memo's entry a hop samples (R280, R285). -/
def State.hopHit : Option Nat :=
  if s.spState = 4 ∨ s.on (Reg.THM_T.FAULT 0) = true then none else s.spll.lookup (s.rf (Reg.SPLL_OPCFG.N op.val))

theorem State.rf_hopBase (f : Fd) (h : f.addr ≠ Reg.SPLL_HOP_CNT_at ∧ f.addr ≠ Reg.SPLL_STATUS_at) : (s.hopBase op).rf f = s.rf f := by
  rw [State.hopBase, State.onBypass, State.rf_wf_other _ _ _ _ (.inl h.2), State.rf_onSpll, State.rf_wf_other _ _ _ _ (.inl h.2),
    State.rf_incWrap_other _ _ _ _ (.inl h.1)]

theorem opcfg_apart (op : OpIx) : (Reg.SPLL_OPCFG.N op.val).addr ≠ Reg.SPLL_HOP_CNT_at ∧ (Reg.SPLL_OPCFG.N op.val).addr ≠ Reg.SPLL_STATUS_at := by
  revert op; decide

theorem State.hopHit_sampled :
    (if (s.spState == spBypass) = true ∨ ((s.incWrap Reg.SPLL_HOP_CNT.HOPS).onBypass.onSpll
        (fun x => { x with why := .hop, target := op, cycles := 0 })).memoOut = true then none
      else ((s.incWrap Reg.SPLL_HOP_CNT.HOPS).onBypass.onSpll (fun x => { x with why := .hop, target := op, cycles := 0 })).spll.lookup
        (((s.incWrap Reg.SPLL_HOP_CNT.HOPS).onBypass.onSpll (fun x => { x with why := .hop, target := op, cycles := 0 })).rf
          (Reg.SPLL_OPCFG.N op.val))) = s.hopHit op := by
  obtain ⟨hcnt, hst⟩ := opcfg_apart op
  rw [State.memoOut, State.on_onSpll, State.rf_onSpll, State.onBypass, State.on_wf_other _ _ _ _ (by decide),
    State.on_incWrap_other _ _ _ _ (by decide), State.rf_wf_other _ _ _ _ (.inl hst), State.rf_incWrap_other _ _ _ _ (.inl hcnt), State.hopHit]
  simp only [beq_iff_eq]
  rfl

theorem State.startHop_hit {b : Nat} (h : s.hopHit op = some b) : s.startHop op =
    (((s.hopBase op).incWrap Reg.SPLL_HOP_CNT.HITS).wf Reg.SPLL_STATUS.BAND b).spPhase (.verify 0) := by
  have hit := s.hopHit_sampled op
  rw [h] at hit
  simp only [State.startHop, Bool.or_eq_true, hit]
  rfl

theorem State.startHop_miss (h : s.hopHit op = none) : s.startHop op = (s.hopBase op).startSearch := by
  have hit := s.hopHit_sampled op
  rw [h] at hit
  simp only [State.startHop, Bool.or_eq_true, hit]
  rfl

theorem State.nextWin_hopBase : nextWin (s.hopBase op) = nextWin s := by
  rw [nextWin, nextWin, s.rf_hopBase op _ (by decide), s.rf_hopBase op _ (by decide)]

theorem State.hopBase_spll : (s.hopBase op).spll = { s.spll with why := .hop, target := op, cycles := 0 } := by
  rw [State.hopBase, State.wf_spll, State.spll_onSpll, State.onBypass, State.wf_spll, State.incWrap_spll]

/-- The PLLs' own state once a hop's first stage has begun. -/
theorem spll_hopStage {s t : State} {op : OpIx} (hidle : s.spll.phase = .idle) (ht : t.spll = (s.hopBase op).spll) (hwin : nextWin t = nextWin s)
    (ph : SpllPhase) : (t.spPhase ph).spll = { s.spll with why := .hop, target := op, cycles := 0, phase := ph, spWin := nextWin s } := by
  rw [State.spPhase_spll, ht, hwin, State.hopBase_spll]
  simp only [hidle, true_or, if_true]

/-- A hop that starts with nothing in progress. -/
theorem hopStarted_startHop (hidle : s.spll.phase = .idle) : HopStarted s (s.startHop op) op := by
  have hhops : (s.hopBase op).rf Reg.SPLL_HOP_CNT.HOPS = (s.rf Reg.SPLL_HOP_CNT.HOPS + 1) % 2 ^ 16 := by
    rw [State.hopBase, State.onBypass, State.rf_wf_other _ _ _ _ (by decide), State.rf_onSpll, State.rf_wf_other _ _ _ _ (by decide),
      State.rf_incWrap _ _ _ (by decide)]
    rfl
  have hhits : (s.hopBase op).rf Reg.SPLL_HOP_CNT.HITS = s.rf Reg.SPLL_HOP_CNT.HITS := by
    rw [State.hopBase, State.onBypass, State.rf_wf_other _ _ _ _ (by decide), State.rf_onSpll, State.rf_wf_other _ _ _ _ (by decide),
      State.rf_incWrap_other _ _ _ _ (by decide)]
  have hstate : (s.hopBase op).rf Reg.SPLL_STATUS.STATE = 2 := State.rf_wf_same _ _ _ (by decide)
  have hop : (s.hopBase op).rf Reg.SPLL_STATUS.OP = s.rf Reg.SPLL_STATUS.OP := by
    rw [State.hopBase, State.onBypass, State.rf_wf_other _ _ _ _ (by decide), State.rf_onSpll, State.rf_wf_other _ _ _ _ (by decide),
      State.rf_incWrap_other _ _ _ _ (by decide)]
  have hssc : (s.hopBase op).on Reg.SPLL_STATUS.SSC_ACTIVE = false := by
    rw [State.hopBase, State.onBypass, State.on_wf_other _ _ _ _ (by decide), State.on_onSpll, State.on_wf_same _ _ _ (by decide)]
    rfl
  have hwin := s.nextWin_hopBase op
  cases hit : s.hopHit op with
  | some b =>
    have hspll := spll_hopStage (t := ((s.hopBase op).incWrap Reg.SPLL_HOP_CNT.HITS).wf Reg.SPLL_STATUS.BAND b) hidle
      (by rw [State.wf_spll, State.incWrap_spll])
      (by
        simp -implicitDefEqProofs (disch := decide) only [nextWin, State.rf_wf_other, State.rf_incWrap_other]
        exact hwin) (.verify 0)
    rw [s.startHop_hit op hit]
    refine ⟨?_, by rw [hspll], by rw [hspll], by rw [hspll], by rw [hspll], by rw [hspll], ?_, ?_, ?_, fun b' hb => ?_, fun hnone => ?_⟩
    · rw [State.spState, State.rf_spPhase, State.rf_wf_other _ _ _ _ (by decide), State.rf_incWrap_other _ _ _ _ (by decide), hstate]
    · rw [State.on_spPhase, State.on_wf_other _ _ _ _ (by decide), State.on_incWrap_other _ _ _ _ (by decide), hssc]
    · rw [State.rf_spPhase, State.rf_wf_other _ _ _ _ (by decide), State.rf_incWrap_other _ _ _ _ (by decide), hhops]
    · rw [State.rf_spPhase, State.rf_wf_other _ _ _ _ (by decide), State.rf_incWrap_other _ _ _ _ (by decide), hop]
    · have hbb : b = b' := Option.some.inj (hit.symm.trans hb)
      subst hbb
      refine ⟨by rw [hspll], ?_, ?_⟩
      · rw [State.rf_spPhase, State.rf_wf_same _ _ _ (by decide)]; rfl
      · rw [State.rf_spPhase, State.rf_wf_other _ _ _ _ (by decide), State.rf_incWrap _ _ _ (by decide), hhits]; rfl
    · exact absurd (hit.symm.trans hnone) (by simp)
  | none =>
    have hspll := spll_hopStage (t := (s.hopBase op).incWrap Reg.SPLL_SEARCH_CNT.SEARCHES) hidle (by rw [State.incWrap_spll])
      (by
        simp -implicitDefEqProofs (disch := decide) only [nextWin, State.rf_incWrap_other]
        exact hwin) (.search 0 0)
    rw [s.startHop_miss op hit, State.startSearch]
    refine ⟨?_, by rw [hspll], by rw [hspll], by rw [hspll], by rw [hspll], by rw [hspll], ?_, ?_, ?_, fun b' hb => ?_,
      fun _ => ⟨by rw [hspll], ?_, ?_⟩⟩
    · rw [State.spState, State.rf_spPhase, State.rf_incWrap_other _ _ _ _ (by decide), hstate]
    · rw [State.on_spPhase, State.on_incWrap_other _ _ _ _ (by decide), hssc]
    · rw [State.rf_spPhase, State.rf_incWrap_other _ _ _ _ (by decide), hhops]
    · rw [State.rf_spPhase, State.rf_incWrap_other _ _ _ _ (by decide), hop]
    · exact absurd (hit.symm.trans hb) (by simp)
    · rw [State.rf_spPhase, State.rf_incWrap _ _ _ (by decide), s.rf_hopBase op _ (by decide)]; rfl
    · rw [State.rf_spPhase, State.rf_incWrap_other _ _ _ _ (by decide), hhits]

end

/-! ## The queued request (R283, R285) -/

section
variable (s : State) (op : OpIx)

/-- The queue taken. -/
def State.dequeued : State := (s.onSpll (fun x => { x with queue := none })).wf Reg.SPLL_STATUS.QUEUED 0

theorem State.rf_dequeued (f : Fd) (h : f.addr ≠ Reg.SPLL_STATUS_at ∨ f.lo + f.width ≤ 5 ∨ 6 ≤ f.lo) : s.dequeued.rf f = s.rf f := by
  rw [State.dequeued, State.rf_wf_other _ _ _ _ h, State.rf_onSpll]

/-- What a hop that starts reads does not depend on the queue. -/
theorem hopStarted_of_dequeued {t : State} (h : HopStarted s.dequeued t op) : HopStarted s t op := by
  have hn : s.dequeued.rf (Reg.SPLL_OPCFG.N op.val) = s.rf (Reg.SPLL_OPCFG.N op.val) := s.rf_dequeued _ (.inl (opcfg_apart op).2)
  have hst : s.dequeued.spState = s.spState := s.rf_dequeued _ (by decide)
  have hfault : s.dequeued.on (Reg.THM_T.FAULT 0) = s.on (Reg.THM_T.FAULT 0) := State.on_wf_other _ _ _ _ (by decide)
  have hwin : nextWin s.dequeued = nextWin s := by rw [nextWin, nextWin, s.rf_dequeued _ (by decide), s.rf_dequeued _ (by decide)]
  have hlookup (n : Nat) : s.dequeued.spll.lookup n = s.spll.lookup n := by rw [State.dequeued, State.wf_spll, State.spll_onSpll]; rfl
  have hmemo : s.dequeued.spll.memo = s.spll.memo := by rw [State.dequeued, State.wf_spll, State.spll_onSpll]
  simp only [HopStarted, hn, hst, hfault, hwin, hlookup, hmemo, s.rf_dequeued Reg.SPLL_HOP_CNT.HOPS (by decide),
    s.rf_dequeued Reg.SPLL_STATUS.OP (by decide), s.rf_dequeued Reg.SPLL_HOP_CNT.HITS (by decide),
    s.rf_dequeued Reg.SPLL_SEARCH_CNT.SEARCHES (by decide)] at h
  exact h

/-- Starting a hop leaves the queue and QUEUED. -/
theorem State.startHop_queue : (s.startHop op).spll.queue = s.spll.queue ∧
    (s.startHop op).on Reg.SPLL_STATUS.QUEUED = s.on Reg.SPLL_STATUS.QUEUED := by
  have hq : (s.hopBase op).on Reg.SPLL_STATUS.QUEUED = s.on Reg.SPLL_STATUS.QUEUED := by
    rw [State.hopBase, State.onBypass, State.on_wf_other _ _ _ _ (by decide), State.on_onSpll, State.on_wf_other _ _ _ _ (by decide),
      State.on_incWrap_other _ _ _ _ (by decide)]
  cases hit : s.hopHit op with
  | some b =>
    rw [s.startHop_hit op hit, State.spPhase_spll, State.wf_spll, State.incWrap_spll, State.hopBase_spll, State.on_spPhase,
      State.on_wf_other _ _ _ _ (by decide), State.on_incWrap_other _ _ _ _ (by decide), hq]
    exact ⟨rfl, rfl⟩
  | none =>
    rw [s.startHop_miss op hit, State.startSearch, State.spPhase_spll, State.incWrap_spll, State.hopBase_spll, State.on_spPhase,
      State.on_incWrap_other _ _ _ _ (by decide), hq]
    exact ⟨rfl, rfl⟩

theorem State.startQueued_eq (hq : s.spll.queue = some op) : s.startQueued =
    if s.spll.phase ≠ .idle ∨ s.on Reg.IOPLL_STATUS.REF_ABSENT = true then s else s.dequeued.startHop op := by
  simp only [State.startQueued, hq, s.spBusy_iff]
  rfl

theorem hopStart_starts (hq : s.spll.queue = some op) (hidle : s.spll.phase = .idle) (href : s.on Reg.IOPLL_STATUS.REF_ABSENT = false) :
    Does .hopStart s (fun t => HopStarted s t op ∧ t.spll.queue = none ∧ t.on Reg.SPLL_STATUS.QUEUED = false) := by
  obtain ⟨hqueue, hqueued⟩ := s.dequeued.startHop_queue op
  have hidle' : s.dequeued.spll.phase = .idle := by rw [State.dequeued, State.wf_spll, State.spll_onSpll]; exact hidle
  refine ⟨s.dequeued.startHop op, congrArg Host.Outcome.next ((s.startQueued_eq op hq).trans (if_neg ?_)),
    hopStarted_of_dequeued s op (hopStarted_startHop _ op hidle'), ?_, ?_⟩
  · simp [hidle, href]
  · rw [hqueue, State.dequeued, State.wf_spll, State.spll_onSpll]
  · rw [hqueued, State.dequeued, State.on_wf_same _ _ _ (by decide)]; rfl

end

/-! ## A step of the search (R277) -/

section
variable (s : State) (count : Nat)

/-- The half of the bands a step keeps (R277). -/
def keptHalf (k lo count : Nat) : Nat := if decide (count < 32) = Config.bandRises then lo + 32 / 2 ^ k else lo

/-- The stage after a step of the search. -/
def stepPhase (k lo count : Nat) : SpllPhase := if k = 5 then .attempt false 0 true else .search (k + 1) (keptHalf k lo count)

theorem State.bandStep_eq {k lo : Nat} (hph : s.spll.phase = .search k lo) (hne : count ≠ 32) :
    s.bandStep count = (s.wf Reg.SPLL_STATUS.BAND (keptHalf k lo count)).spPhase (stepPhase k lo count) := by
  have hhalf : (if (decide (count < 32) == Config.bandRises) = true then lo + 32 / 2 ^ k else lo) = keptHalf k lo count := by
    simp only [keptHalf, beq_iff_eq]
  simp only [State.bandStep, hph, if_neg hne, hhalf]
  unfold stepPhase
  split <;> rfl

theorem bandSearchStep_halves {k lo : Nat} (href : s.on Reg.IOPLL_STATUS.REF_ABSENT = false) (hph : s.spll.phase = .search k lo) (hne : count ≠ 32) :
    Does (.bandSearchStep count) s (fun t =>
        let lo' := if decide (count < 32) = Config.bandRises then lo + 32 / 2 ^ k else lo
        let total := s.spll.cycles + (if s.spll.cycles = 0 then 3 else 0) + 52
        t.rf Reg.SPLL_STATUS.BAND = lo' % 64 ∧ t.spll.phase = (if k = 5 then .attempt false 0 true else .search (k + 1) lo') ∧
        t = { s with io := t.io, spll := { s.spll with phase := t.spll.phase, spWin := nextWin s, cycles := total } } ∧
        ∀ a, a ≠ Reg.SPLL_STATUS_at → t.reg a = s.reg a) := by
  have hrun : exec (.bandSearchStep count) s = .next ((s.wf Reg.SPLL_STATUS.BAND (keptHalf k lo count)).spPhase (stepPhase k lo count)) := by
    rw [← s.bandStep_eq count hph hne]
    exact if_neg (by simp [href])
  have hwin : nextWin (s.wf Reg.SPLL_STATUS.BAND (keptHalf k lo count)) = nextWin s := by
    simp -implicitDefEqProofs (disch := decide) only [nextWin, State.rf_wf_other]
  have hspll : ((s.wf Reg.SPLL_STATUS.BAND (keptHalf k lo count)).spPhase (stepPhase k lo count)).spll =
      { s.spll with
        phase := stepPhase k lo count, spWin := nextWin s, cycles := s.spll.cycles + (if s.spll.cycles = 0 then 3 else 0) + 52 } := by
    rw [State.spPhase_spll, hwin, State.wf_spll]
    simp only [Spll.stageLen, hph, reduceCtorEq, or_self, if_false, Nat.add_assoc]
  refine ⟨_, hrun, ?_, ?_, ?_, fun a ha => ?_⟩
  · rw [State.rf_spPhase, State.rf_wf_same _ _ _ (by decide)]; rfl
  · rw [hspll]; rfl
  · dsimp only
    rw [show ((s.wf Reg.SPLL_STATUS.BAND (keptHalf k lo count)).spPhase (stepPhase k lo count)).spll.phase = stepPhase k lo count by rw [hspll],
      ← hspll]
    rfl
  · rw [State.reg_spPhase, State.reg_wf_other _ _ _ _ ha]

end

/-! ## Lock declared (R278, R281) -/

section
variable (s : State) (count : Nat)

/-- The state in which lock is declared: the memo written, the point in effect. -/
def State.lockBase : State :=
  (((s.onSpll (fun x => x.remember s.spN (s.rf Reg.SPLL_STATUS.BAND) (tagOf s.sensor0))).wf Reg.SPLL_STATUS.STATE spLocked).wf
    Reg.SPLL_STATUS.OP s.spll.target.val).onSpll (fun x => { x with cycles := x.cycles + 3 })

theorem State.remember_target (x : Spll) (n b : Nat) (g : Int) : (x.remember n b g).target = x.target := rfl

theorem State.endLock_hop (hwhy : s.spll.why = .hop) (hfault : s.on (Reg.THM_T.FAULT 0) = false) :
    s.endLock = (.ok, (s.lockBase.applySpread.wf Reg.SPLL_HOP_TIME.CYCLES s.lockBase.applySpread.spll.cycles).clkEvent) := by
  have hhop : (s.spll.why == SpllWhy.hop) = true := by rw [hwhy]; rfl
  have hmemo : s.memoOut = false := hfault
  simp only [State.endLock, hhop, hmemo, if_true, Bool.false_eq_true, if_false]
  rfl

/-- Spread put into effect changes no field of SPLL_STATUS but its own two. -/
theorem State.rf_applySpread (f : Fd) (h : f.addr ≠ Reg.SPLL_STATUS_at ∨ f.lo + f.width ≤ 8 ∨ 10 ≤ f.lo) : s.applySpread.rf f = s.rf f := by
  have hactive : f.addr ≠ Reg.SPLL_STATUS_at ∨ f.lo + f.width ≤ 8 ∨ 9 ≤ f.lo := by omega
  have hsupp : f.addr ≠ Reg.SPLL_STATUS_at ∨ f.lo + f.width ≤ 9 ∨ 10 ≤ f.lo := by omega
  rw [State.applySpread_eq, State.rf_wf_other _ _ _ _ hactive, State.rf_wf_other _ _ _ _ hsupp, State.rf_onSpll]

theorem State.applySpread_spll : s.applySpread.spll = { s.spll with ssc := s.reg Reg.SPLL_SSC_at } := by
  rw [State.applySpread_eq, State.wf_spll, State.wf_spll, State.spll_onSpll]

theorem State.applySpread_net : s.applySpread.net = s.net := by
  rw [State.applySpread_eq, State.wf_net, State.wf_net, State.onSpll_net]

theorem State.applySpread_ldr : s.applySpread.ldr = s.ldr := by
  rw [State.applySpread_eq, State.wf_ldr, State.wf_ldr, State.onSpll_ldr]

/-- A hop that ends with nobody waiting for it. -/
theorem State.hopEnded_quiet (hstep : s.ldr.step = none) (hkey : s.spll.key = .none) (e : HopEnd) : s.hopEnded e = s := by
  have hkeep (ok : Bool) : s.stepHopEnd ok = s := by rw [State.stepHopEnd, hstep]
  have hkeyEnd (ok : Bool) : s.keyHopEnd ok = s := by rw [State.keyHopEnd, hkey]
  cases e <;> simp only [State.hopEnded, hkeep, hkeyEnd]

theorem State.lockBase_spll : s.lockBase.spll =
    { s.spll.remember s.spN (s.rf Reg.SPLL_STATUS.BAND) (tagOf s.sensor0) with
      cycles := (s.spll.remember s.spN (s.rf Reg.SPLL_STATUS.BAND) (tagOf s.sensor0)).cycles + 3 } := by
  rw [State.lockBase, State.spll_onSpll, State.wf_spll, State.wf_spll, State.spll_onSpll]

theorem State.lockBase_net : s.lockBase.net = s.net := by
  rw [State.lockBase, State.onSpll_net, State.wf_net, State.wf_net, State.onSpll_net]

theorem State.lockBase_ldr : s.lockBase.ldr = s.ldr := by
  rw [State.lockBase, State.onSpll_ldr, State.wf_ldr, State.wf_ldr, State.onSpll_ldr]

theorem clkEv_onSpll (g : Spll → Spll) : clkEv (s.onSpll g) = clkEv s := rfl

theorem clkEv_applySpread : clkEv s.applySpread = clkEv s := by
  rw [State.applySpread_eq, clkEv_wf _ _ _ (by decide), clkEv_wf _ _ _ (by decide), clkEv_onSpll]

theorem clkEv_lockBase : clkEv (s.lockBase.applySpread.wf Reg.SPLL_HOP_TIME.CYCLES s.lockBase.applySpread.spll.cycles) = clkEv s := by
  rw [clkEv_wf _ _ _ (by decide), clkEv_applySpread, State.lockBase, clkEv_onSpll, clkEv_wf _ _ _ (by decide), clkEv_wf _ _ _ (by decide),
    clkEv_onSpll]

theorem State.spllWindow_verified (hph : s.spll.phase = .verify 1) (hin : inWin count 32 s.spll.spWin.2) :
    s.spllWindow count = (s.spPhase .idle).endLock := by
  simp only [State.spllWindow, hph, (within_iff _ _ _).2 hin, if_true]
  rfl

theorem exec_lockWindow_spll (h : s.on Reg.IOPLL_STATUS.REF_ABSENT = false) :
    exec (.lockWindow .spll count) s = .next ((s.spllWindow count).2.hopEnded (s.spllWindow count).1) := by
  show execLockWindow .spll count s = _
  simp [execLockWindow, h]

theorem lockWindow_endsHop (href : s.on Reg.IOPLL_STATUS.REF_ABSENT = false) (hph : s.spll.phase = .verify 1)
    (hin : inWin count 32 s.spll.spWin.2) (hwhy : s.spll.why = .hop) (hstep : s.ldr.step = none) (hkey : s.spll.key = .none)
    (hfault : s.on (Reg.THM_T.FAULT 0) = false) : Does (.lockWindow .spll count) s (fun t =>
      t.spState = 1 ∧ t.rf Reg.SPLL_STATUS.OP = s.spll.target.val ∧ t.spll.phase = .idle ∧ t.net.events = s.net.events ++ clkEv s ∧
      t.spll.memo = (s.spll.remember (s.rf (Reg.SPLL_OPCFG.N s.spll.target.val)) (s.rf Reg.SPLL_STATUS.BAND) (tagOf s.sensor0)).memo) := by
  generalize hu : s.spPhase .idle = u
  have huspll : u.spll = { s.spll with phase := .idle, spWin := nextWin s, cycles := u.spll.cycles } := by rw [← hu, State.spPhase_spll]
  have hlock : u.endLock = (.ok, (u.lockBase.applySpread.wf Reg.SPLL_HOP_TIME.CYCLES u.lockBase.applySpread.spll.cycles).clkEvent) :=
    u.endLock_hop (by rw [huspll]; exact hwhy) (by rw [← hu]; exact hfault)
  generalize ht : (u.lockBase.applySpread.wf Reg.SPLL_HOP_TIME.CYCLES u.lockBase.applySpread.spll.cycles).clkEvent = t at hlock
  have htspll : t.spll = { u.lockBase.spll with ssc := u.lockBase.reg Reg.SPLL_SSC_at } := by
    rw [← ht, State.spll_clkEvent, State.wf_spll, State.applySpread_spll]
  have htldr : t.ldr = s.ldr := by
    rw [← ht]
    exact (State.raiseIf_ldr _ _ _).trans ((State.wf_ldr _ _ _).trans ((State.applySpread_ldr _).trans ((State.lockBase_ldr _).trans
      (by rw [← hu, State.spPhase_ldr]))))
  have htrf (f : Fd) (h : f.addr ≠ Reg.SPLL_HOP_TIME_at) (h' : f.addr ≠ Reg.SPLL_STATUS_at ∨ f.lo + f.width ≤ 8 ∨ 10 ≤ f.lo) :
      t.rf f = u.lockBase.rf f := by
    rw [← ht, State.rf_clkEvent, State.rf_wf_other _ _ _ _ (.inl h), State.rf_applySpread _ _ h']
  refine ⟨t, ?_, ?_, ?_, ?_, ?_, ?_⟩
  · rw [exec_lockWindow_spll s count href, s.spllWindow_verified count hph hin, hu, hlock]
    exact congrArg Host.Outcome.next (t.hopEnded_quiet (by rw [htldr, hstep]) (by rw [htspll, State.lockBase_spll, huspll]; exact hkey) .ok)
  · rw [State.spState, htrf _ (by decide) (by decide), State.lockBase, State.rf_onSpll, State.rf_wf_other _ _ _ _ (by decide),
      State.rf_wf_same _ _ _ (by decide)]
    rfl
  · rw [htrf _ (by decide) (by decide), State.lockBase, State.rf_onSpll, State.rf_wf_same _ _ _ (by decide), huspll]
    exact Nat.mod_eq_of_lt s.spll.target.isLt
  · rw [htspll, State.lockBase_spll, huspll]; rfl
  · rw [← ht]
    exact (State.raiseIf_events _ _ _).trans (congrArg₂ (· ++ ·)
      (by rw [State.wf_net, State.applySpread_net, State.lockBase_net, ← hu, State.spPhase_net])
      ((clkEv_lockBase u).trans (by rw [← hu]; rfl)))
  · rw [htspll, State.lockBase_spll, huspll]
    have hrf (f : Fd) : u.rf f = s.rf f := by rw [← hu, State.rf_spPhase]
    rw [State.spN, State.sensor0, huspll, hrf, hrf, hrf]
    rfl

end

/-! ## Loss of lock (R276) -/

section
variable (s : State) (count : Nat)

/-- Without spread a loss-of-lock window is held against W (R271, R286). -/
theorem State.spllHeld_noSpread (h : s.on Reg.SPLL_STATUS.SSC_ACTIVE = false) (hout : ¬ inWin count s.spll.spWin.1 8) :
    s.spllHeld count = false := by
  rw [State.spllHeld, h]
  simp only [Bool.false_and, Bool.false_eq_true, if_false, within_false]
  simp only [inWin] at hout ⊢
  omega

/-- An N forgotten is not found (R276, R278). -/
theorem Spll.lookup_forget (x : Spll) (n : Nat) : (x.forget n).lookup n = none := by
  simp only [Spll.lookup, Spll.forget, Option.map_eq_none_iff, List.find?_eq_none, List.mem_map, Bool.and_eq_true, beq_iff_eq, not_and]
  rintro m ⟨m', -, rfl⟩ hvalid hn
  by_cases hne : m'.n = n
  · rw [if_pos hne] at hvalid
    exact Bool.false_ne_true hvalid
  · rw [if_neg hne] at hn
    exact hne hn

/-- The registers and events of a relock's start. -/
def State.relockBase : State :=
  (((s.wf Reg.SPLL_STATUS.LOL 1).incSat Reg.SPLL_LOL_CNT.COUNT).clkEvent.onBypass).wf Reg.SPLL_STATUS.STATE spRelock

theorem State.startRelock_eq : s.startRelock = (s.relockBase.onSpll (fun x =>
    { (x.forget (s.relockBase.rf (Reg.SPLL_OPCFG.N (s.relockBase.rf Reg.SPLL_STATUS.OP)))) with
      why := .relock, target := Fin.ofNat 4 (s.relockBase.rf Reg.SPLL_STATUS.OP), cycles := 0 })).startSearch := rfl

theorem State.rf_relockBase (f : Fd) (h : f.addr ≠ Reg.SPLL_LOL_CNT_at)
    (h' : f.addr ≠ Reg.SPLL_STATUS_at ∨ (3 ≤ f.lo ∧ f.lo + f.width ≤ 7) ∨ 9 ≤ f.lo) : s.relockBase.rf f = s.rf f := by
  have hstate : f.addr ≠ Reg.SPLL_STATUS_at ∨ f.lo + f.width ≤ 0 ∨ 3 ≤ f.lo := by omega
  have hssc : f.addr ≠ Reg.SPLL_STATUS_at ∨ f.lo + f.width ≤ 8 ∨ 9 ≤ f.lo := by omega
  have hlol : f.addr ≠ Reg.SPLL_STATUS_at ∨ f.lo + f.width ≤ 7 ∨ 8 ≤ f.lo := by omega
  rw [State.relockBase, State.onBypass, State.rf_wf_other _ _ _ _ hstate, State.rf_wf_other _ _ _ _ hssc, State.rf_clkEvent,
    State.rf_incSat_other _ _ _ _ (.inl h), State.rf_wf_other _ _ _ _ hlol]

theorem State.relockBase_spll : s.relockBase.spll = s.spll := by
  rw [State.relockBase, State.onBypass, State.wf_spll, State.wf_spll, State.spll_clkEvent, State.incSat_spll, State.wf_spll]

theorem State.relockBase_events : s.relockBase.net.events = s.net.events ++ clkEv s := by
  rw [State.relockBase, State.onBypass, State.wf_net, State.wf_net]
  refine (State.raiseIf_events _ _ _).trans ?_
  rw [State.incSat_net, State.wf_net]
  refine congrArg (s.net.events ++ ·) ((clkEv_wf _ Reg.SPLL_LOL_CNT.COUNT _ (by decide)).trans (clkEv_wf _ _ _ (by decide)))

theorem opcfgN_apart (n : Nat) : (Reg.SPLL_OPCFG.N n).addr ≠ Reg.SPLL_LOL_CNT_at ∧ (Reg.SPLL_OPCFG.N n).addr ≠ Reg.SPLL_STATUS_at := by
  simp only [Reg.SPLL_OPCFG.N, Reg.SPLL_OPCFG_at, Reg.SPLL_LOL_CNT_at, Reg.SPLL_STATUS_at]
  omega

theorem lockWindow_relocks (href : s.on Reg.IOPLL_STATUS.REF_ABSENT = false) (hph : s.spll.phase = .idle) (hst : s.spState = 1)
    (hssc : s.on Reg.SPLL_STATUS.SSC_ACTIVE = false) (hout : ¬ inWin count s.spll.spWin.1 8) :
    Does (.lockWindow .spll count) s (fun t =>
      t.spState = 3 ∧ t.on Reg.SPLL_STATUS.LOL = true ∧ Counted s t Reg.SPLL_LOL_CNT.COUNT ∧ t.spll.why = .relock ∧
      t.spll.phase = .search 0 0 ∧ t.net.events = s.net.events ++ clkEv s ∧
      t.spll.lookup (s.rf (Reg.SPLL_OPCFG.N (s.rf Reg.SPLL_STATUS.OP))) = none) := by
  have hwindow : s.spllWindow count = (.none, s.startRelock) := by
    simp only [State.spllWindow, hph, s.spllHeld_noSpread count hssc hout, Bool.not_false]
    exact if_pos ⟨hst, trivial⟩
  have hop : s.relockBase.rf Reg.SPLL_STATUS.OP = s.rf Reg.SPLL_STATUS.OP := s.rf_relockBase _ (by decide) (by decide)
  have hn : s.relockBase.rf (Reg.SPLL_OPCFG.N (s.rf Reg.SPLL_STATUS.OP)) = s.rf (Reg.SPLL_OPCFG.N (s.rf Reg.SPLL_STATUS.OP)) :=
    s.rf_relockBase _ (opcfgN_apart _).1 (.inl (opcfgN_apart _).2)
  refine ⟨s.startRelock, ?_, ?_, ?_, ?_, ?_, ?_, ?_, ?_⟩
  · rw [exec_lockWindow_spll s count href, hwindow]; rfl
  · rw [State.startRelock_eq, State.startSearch, State.spState, State.rf_spPhase, State.rf_incWrap_other _ _ _ _ (by decide),
      State.rf_onSpll, State.relockBase, State.rf_wf_same _ _ _ (by decide)]
    rfl
  · rw [State.startRelock_eq, State.startSearch, State.on_spPhase, State.on_incWrap_other _ _ _ _ (by decide), State.on_onSpll,
      State.relockBase, State.onBypass, State.on_wf_other _ _ _ _ (by decide), State.on_wf_other _ _ _ _ (by decide), State.on_clkEvent,
      State.on_incSat_other _ _ _ _ (by decide), State.on_wf_same _ _ _ (by decide)]
    rfl
  · rw [Counted, State.startRelock_eq, State.startSearch, State.rf_spPhase, State.rf_incWrap_other _ _ _ _ (by decide), State.rf_onSpll,
      State.relockBase, State.onBypass, State.rf_wf_other _ _ _ _ (by decide), State.rf_wf_other _ _ _ _ (by decide), State.rf_clkEvent,
      State.rf_incSat _ _ _ (by decide), State.rf_wf_other _ _ _ _ (by decide)]
  · rw [State.startRelock_eq, State.startSearch, State.spPhase_spll, State.incWrap_spll, State.spll_onSpll]
  · rw [State.startRelock_eq, State.startSearch, State.spPhase_spll]
  · rw [State.startRelock_eq, State.startSearch, State.spPhase_net, State.incWrap_net, State.onSpll_net, State.relockBase_events]
  · rw [State.startRelock_eq, State.startSearch, State.spPhase_spll, State.incWrap_spll, State.spll_onSpll, hop, hn, State.relockBase_spll]
    exact s.spll.lookup_forget _

end

/-! ## The obligation -/

/-- Settles O34: each request by the reason it meets, each window and step by the stage it ends. -/
theorem spllHopsAndSearches : Obligations.SpllHopsAndSearches := by
  intro src op count s
  refine ⟨⟨fun hsrc => ?_, fun hsrc hf => ?_, fun hsrc hf => ⟨fun hq => ?_, fun hq hsame => ?_, fun hq hsame href => ?_,
    fun hq hsame href => ⟨fun hidle => ?_, fun hbusy => ?_⟩⟩⟩, fun hq hidle href => ?_, fun hq hidle href => hopStart_starts s op hq hidle href,
    fun hq => ?_, fun href => ⟨fun k lo hph _ hne => bandSearchStep_halves s count href hph hne, ?_, ?_⟩⟩
  · exact refuses_of_exec (by decide) (congrArg (fun w : WRes => Host.Outcome.next w.st) (s.writeHop_fobex src hsrc _))
  · exact refuses_of_exec (by decide) (congrArg (fun w : WRes => Host.Outcome.next w.st) (s.writeHop_noFwhop src hsrc hf _))
  · exact hopRequest_refused src op s hsrc hf (s.hopReason_busy op hq) (by decide) (by decide)
  · exact hopRequest_refused src op s hsrc hf ((s.hopReason_free op hq).trans (if_pos hsame)) (by decide) (by decide)
  · exact hopRequest_refused src op s hsrc hf ((s.hopReason_free op hq).trans ((if_neg hsame).trans (if_pos href))) (by decide) (by decide)
  · have hok : s.hopReason op = 0 := (s.hopReason_free op hq).trans ((if_neg hsame).trans (if_neg (by simp [href])))
    refine ⟨s.startHop op, (exec_hopRequest_taken src op s hsrc hf hok).trans (congrArg Host.Outcome.next (if_neg ?_)),
      hopStarted_startHop s op hidle⟩
    rw [s.spBusy_iff, hidle]
    exact fun h => h rfl
  · have hok : s.hopReason op = 0 := (s.hopReason_free op hq).trans ((if_neg hsame).trans (if_neg (by simp [href])))
    refine ⟨_, (exec_hopRequest_taken src op s hsrc hf hok).trans (congrArg Host.Outcome.next (if_pos (s.spBusy_iff.2 hbusy))), ?_, ?_⟩
    · exact ((PllRegs.refl s [Reg.SPLL_STATUS_at]).onSpll (fun x => { x with queue := some op })).wf Reg.SPLL_STATUS.QUEUED 1 (by decide)
    · rw [State.on_wf_same _ _ _ (by decide)]; rfl
  · exact ⟨s, congrArg Host.Outcome.next ((s.startQueued_eq op hq).trans (if_pos (.inr href))), rfl⟩
  · refine ⟨s, congrArg Host.Outcome.next ?_, rfl⟩
    rw [State.startQueued, hq]
  · exact fun hph hin hwhy hstep hkey hfault => lockWindow_endsHop s count href hph hin hwhy hstep hkey hfault
  · exact fun hph hst hssc hout => lockWindow_relocks s count href hph hst hssc hout

end Sys2Proof.Machine
end

section
/-!
PROOFS. The energy ledger: ticks, windows, closes and the trim (R301 to R303, R305, R317).
-/

namespace Sys2Proof.Machine
open Sys2Proof.Claims

/-! ## Signed numbers in a register -/

theorem uNat_lt (w : Nat) (i : Int) : uNat w i < 2 ^ w := by
  have hpos : (0 : Int) < (2 ^ w : Nat) := by exact_mod_cast Nat.two_pow_pos w
  have hlt := Int.emod_lt_of_pos i hpos
  have hnn := Int.emod_nonneg i hpos.ne'
  rw [uNat]
  omega

theorem uNat_ofNat (w n : Nat) : uNat w n = n % 2 ^ w := by
  rw [uNat, ← Int.natCast_emod, Int.toNat_natCast]

/-- A number in range reads back as it was put in. -/
theorem sInt_uNat_32 {i : Int} (hlo : -2 ^ 31 ≤ i) (hhi : i < 2 ^ 31) : sInt 32 (uNat 32 i) = i := by
  rw [sInt, Nat.mod_eq_of_lt (uNat_lt 32 i), uNat]
  norm_num at hlo hhi ⊢
  split <;> omega

theorem sInt_lt_32 (n : Nat) : -2 ^ 31 ≤ sInt 32 n ∧ sInt 32 n < 2 ^ 31 := by
  rw [sInt]
  have := Nat.mod_lt n (Nat.two_pow_pos 32)
  norm_num at this ⊢
  split <;> omega

theorem sInt_of_lt {n : Nat} (h : n < 2 ^ 31) : sInt 32 n = n := by
  rw [sInt]
  norm_num at h ⊢
  split <;> omega

/-! ## What the judging of the steps leaves of the ledger (R311) -/

/-- The registers of the ledger's terms, and LDR_PALLOW. -/
def bookReg (a : Nat) : Bool := (decide (0x1604 ≤ a) && decide (a ≤ 0x1609)) || a == 0x1624

/-- The ledger's terms and remainders are as they were. -/
def State.KeepsBooks (s t : State) : Prop := s.Keeps (fun a => bookReg a = true) (fun u => (u.ldr.depRem, u.ldr.baseRem)) t

namespace State.KeepsBooks
variable {s t : State}

theorem refl (s : State) : s.KeepsBooks s := State.Keeps.refl s
theorem wf (h : s.KeepsBooks t) (f : Fd) (v : Nat) (hf : bookReg f.addr = false) : s.KeepsBooks (t.wf f v) :=
  State.Keeps.wf h f v (by simp [hf])
theorem incWrap (h : s.KeepsBooks t) (f : Fd) (n : Nat) (hf : bookReg f.addr = false) : s.KeepsBooks (t.incWrap f n) := h.wf f _ hf
theorem onSpll (h : s.KeepsBooks t) (g : Spll → Spll) : s.KeepsBooks (t.onSpll g) := State.Keeps.trans h (State.Keeps.of_eq rfl rfl)
theorem spPhase (h : s.KeepsBooks t) (ph : SpllPhase) : s.KeepsBooks (t.spPhase ph) := State.Keeps.trans h (State.Keeps.of_eq rfl rfl)

/-- A change of the unit that leaves the remainders. -/
theorem onLdr (h : s.KeepsBooks t) (g : Ldr → Ldr) (hd : (g t.ldr).depRem = t.ldr.depRem) (hb : (g t.ldr).baseRem = t.ldr.baseRem) :
    s.KeepsBooks (t.onLdr g) := State.Keeps.trans h (State.Keeps.of_eq rfl (Prod.ext hd hb))

theorem refuseClk (h : s.KeepsBooks t) (why : Nat) : s.KeepsBooks (t.refuse clkRefuse why) := State.Keeps.refuse h _ _ (by decide)

theorem hopBase (h : s.KeepsBooks t) (op : OpIx) : s.KeepsBooks (t.hopBase op) :=
  (((h.incWrap Reg.SPLL_HOP_CNT.HOPS 1 rfl).wf Reg.SPLL_STATUS.SSC_ACTIVE 0 rfl).onSpll _).wf Reg.SPLL_STATUS.STATE _ rfl

theorem startHop (h : s.KeepsBooks t) (op : OpIx) : s.KeepsBooks (t.startHop op) := by
  cases hit : t.hopHit op with
  | some b =>
    rw [t.startHop_hit op hit]
    exact (((h.hopBase op).incWrap Reg.SPLL_HOP_CNT.HITS 1 rfl).wf Reg.SPLL_STATUS.BAND b rfl).spPhase _
  | none =>
    rw [t.startHop_miss op hit]
    exact ((h.hopBase op).incWrap Reg.SPLL_SEARCH_CNT.SEARCHES 1 rfl).spPhase _

theorem takeHop (h : s.KeepsBooks t) (op : OpIx) : s.KeepsBooks (t.takeHop op) :=
  State.Keeps.ite ((h.onSpll _).wf Reg.SPLL_STATUS.QUEUED 1 rfl) (h.startHop op)

theorem ldrHop (h : s.KeepsBooks t) (op : OpIx) : s.KeepsBooks (t.ldrHop op).2 :=
  State.Keeps.ite_snd (h.refuseClk 3) (State.Keeps.ite_snd (h.takeHop op) (h.refuseClk _))

theorem beginStep (h : s.KeepsBooks t) (a b : Nat) : s.KeepsBooks (t.beginStep a b) :=
  State.Keeps.ite (State.Keeps.ite ((h.ldrHop _).onLdr _ rfl rfl) (h.ldrHop _)) ((h.onLdr _ rfl rfl).onLdr _ rfl rfl)

theorem chooseStep (h : s.KeepsBooks t) (a b : Nat) : s.KeepsBooks (t.chooseStep a b) :=
  have hwant := (h.wf Reg.LDR_OP.WANT b rfl).onLdr (fun l => { l with lowCnt := 0, highCnt := 0 }) rfl rfl
  State.Keeps.ite hwant (hwant.beginStep a b)

theorem judgeStep (h : s.KeepsBooks t) : s.KeepsBooks t.judgeStep :=
  State.Keeps.ite h (State.Keeps.ite (h.chooseStep _ _) (State.Keeps.ite (h.chooseStep _ _) h))

theorem countSteps (h : s.KeepsBooks t) (d b : Nat) : s.KeepsBooks (t.countSteps d b) := by
  unfold State.countSteps
  exact h.onLdr _ rfl rfl

theorem markDue (h : s.KeepsBooks t) (g : Ldr → Bool) : s.KeepsBooks (t.onLdr (fun l => { l with due := g l })) := h.onLdr _ rfl rfl

theorem rf (h : s.KeepsBooks t) (f : Fd) (hf : bookReg f.addr = true) : t.rf f = s.rf f := State.Keeps.rf h f hf
theorem avail (h : s.KeepsBooks t) : t.avail = s.avail := by rw [State.avail, State.avail, h.rf _ rfl]
theorem depRem (h : s.KeepsBooks t) : t.ldr.depRem = s.ldr.depRem := congrArg Prod.fst h.rest
theorem baseRem (h : s.KeepsBooks t) : t.ldr.baseRem = s.ldr.baseRem := congrArg Prod.snd h.rest

end State.KeepsBooks

/-! ## A tick (R301, R302) -/

section
variable (s : State)

/-- P_allow is the least of the three limits (R301). -/
theorem pAllow_eq : s.pAllow.1 = allowed s := by
  have htmax : s.tMax = lint 16 (s.rf Reg.THM_MAX.T_MAX) := sInt_eq_lint (by decide) _
  unfold State.pAllow allowed
  rw [htmax]
  simp only [Bool.and_eq_true, Bool.not_eq_true']
  generalize (if s.ldr.valid = true ∧ s.on Reg.THM_MAX.DEGRADED = false then _ else 0) = th
  by_cases hfail : s.on Reg.PMB_STATUS.FAIL = true
  · simp only [hfail, if_true, apply_ite Prod.fst]
    split_ifs <;> omega
  · simp only [hfail, Bool.false_eq_true, if_false]
    by_cases hzero : s.rf Reg.PMB_LIMITS.ILIMIT = 0
    · simp only [hzero, if_true, apply_ite Prod.fst]
      split_ifs <;> omega
    · simp only [hzero, if_false, apply_ite Prod.fst]
      split_ifs <;> omega

/-- LDR_DEBT_MIN apart, recording the lowest AVAIL changes nothing. -/
theorem State.rf_noteMin (f : Fd) (h : f.addr ≠ Reg.LDR_DEBT_MIN.EQ.addr) : s.noteMin.rf f = s.rf f := by
  unfold State.noteMin
  split
  · exact s.rf_wf_other _ _ _ (.inl h)
  · rfl

theorem State.rf_addAvail_other (d : Int) (f : Fd) (h : f.addr ≠ Reg.LDR_DEBT_MIN.EQ.addr) (h' : f.addr ≠ Reg.LDR_AVAIL_at) :
    (s.addAvail d).rf f = s.rf f := by
  rw [State.addAvail, State.rf_noteMin _ _ h, State.rf_wf_other _ _ _ _ (.inl h')]

theorem State.avail_addAvail {d : Int} (hlo : -2 ^ 31 ≤ s.avail + d) (hhi : s.avail + d < 2 ^ 31) : (s.addAvail d).avail = s.avail + d := by
  rw [State.addAvail, State.avail, State.rf_noteMin _ _ (by decide), State.rf_wf_same _ _ _ (by decide),
    show (2 : Nat) ^ Reg.LDR_AVAIL.EQ.width = 2 ^ 32 from rfl, Nat.mod_eq_of_lt (uNat_lt 32 _), sInt_uNat_32 hlo hhi]

/-- A term of 32 bits grown by a number. -/
theorem State.rf_addTerm (f : Fd) (n : Nat) (hlo : f.lo = 0) (hwidth : f.width = 32) : (s.addTerm f n).rf f = (s.rf f + n) % 2 ^ 32 := by
  rw [State.addTerm, s.rf_wf_same _ _ (by omega), hwidth, Nat.mod_eq_of_lt (uNat_lt 32 _), ← Int.natCast_add, uNat_ofNat]

theorem State.rf_addTerm_other (f g : Fd) (d : Int) (h : g.addr ≠ f.addr) : (s.addTerm f d).rf g = s.rf g := s.rf_wf_other _ _ _ (.inl h)

/-- The books of a tick before what exceeds CAPACITY is spilt. -/
def State.booked (d b : Nat) : State :=
  (((s.addTerm Reg.LDR_DEPOSIT.EQ d).addTerm Reg.LDR_SPENT.EQ b).addTerm Reg.LDR_SPENT_BASE.EQ b).addAvail ((d : Int) - b)

theorem State.tickBooks_eq (d b : Nat) : s.tickBooks d b =
    if 0 < (s.booked d b).avail - (s.booked d b).rf Reg.LDR_CAP.CAPACITY then
      ((s.booked d b).wf Reg.LDR_AVAIL.EQ ((s.booked d b).rf Reg.LDR_CAP.CAPACITY)).addTerm Reg.LDR_SPILL.EQ
        ((s.booked d b).avail - (s.booked d b).rf Reg.LDR_CAP.CAPACITY)
    else s.booked d b := rfl

/-- A term the tick does not touch. -/
theorem State.rf_booked_other (d b : Nat) (f : Fd)
    (h : f.addr ∉ [Reg.LDR_DEBT_MIN.EQ.addr, Reg.LDR_AVAIL_at, Reg.LDR_DEPOSIT_at, Reg.LDR_SPENT_at, Reg.LDR_SPENT_BASE_at]) :
    (s.booked d b).rf f = s.rf f := by
  simp only [List.mem_cons, List.not_mem_nil, or_false, not_or] at h
  obtain ⟨hmin, havail, hdep, hspent, hbase⟩ := h
  rw [State.booked, State.rf_addAvail_other _ _ _ hmin havail, State.rf_addTerm_other _ _ _ _ hbase, State.rf_addTerm_other _ _ _ _ hspent,
    State.rf_addTerm_other _ _ _ _ hdep]

theorem State.avail_booked (d b : Nat) (hlo : -2 ^ 31 ≤ s.avail + d - b) (hhi : s.avail + d - b < 2 ^ 31) :
    (s.booked d b).avail = s.avail + d - b := by
  have havail : (((s.addTerm Reg.LDR_DEPOSIT.EQ d).addTerm Reg.LDR_SPENT.EQ b).addTerm Reg.LDR_SPENT_BASE.EQ b).avail = s.avail := by
    rw [State.avail, State.rf_addTerm_other _ _ _ _ (by decide), State.rf_addTerm_other _ _ _ _ (by decide),
      State.rf_addTerm_other _ _ _ _ (by decide), State.avail]
  rw [State.booked, State.avail_addAvail _ (by rw [havail]; omega) (by rw [havail]; omega), havail]
  omega

/-- The books of a tick (R302). -/
theorem State.tickBooks_books (d b : Nat) (hlo : -2 ^ 31 ≤ s.avail + d - b) (hhi : s.avail + d - b < 2 ^ 31) :
    (s.tickBooks d b).avail = min (s.avail + d - b) (s.rf Reg.LDR_CAP.CAPACITY) ∧
    (s.tickBooks d b).rf Reg.LDR_DEPOSIT.EQ = (s.rf Reg.LDR_DEPOSIT.EQ + d) % 2 ^ 32 ∧
    (s.tickBooks d b).rf Reg.LDR_SPENT.EQ = (s.rf Reg.LDR_SPENT.EQ + b) % 2 ^ 32 ∧
    (s.tickBooks d b).rf Reg.LDR_SPENT_BASE.EQ = (s.rf Reg.LDR_SPENT_BASE.EQ + b) % 2 ^ 32 ∧
    (s.tickBooks d b).rf Reg.LDR_SPILL.EQ =
      (s.rf Reg.LDR_SPILL.EQ + (s.avail + d - b - s.rf Reg.LDR_CAP.CAPACITY).toNat) % 2 ^ 32 ∧
    (s.tickBooks d b).rf Reg.LDR_RESERVED.EQ = s.rf Reg.LDR_RESERVED.EQ := by
  have hdep : (s.booked d b).rf Reg.LDR_DEPOSIT.EQ = (s.rf Reg.LDR_DEPOSIT.EQ + d) % 2 ^ 32 := by
    rw [State.booked, State.rf_addAvail_other _ _ _ (by decide) (by decide), State.rf_addTerm_other _ _ _ _ (by decide),
      State.rf_addTerm_other _ _ _ _ (by decide), State.rf_addTerm _ _ _ rfl rfl]
  have hspent : (s.booked d b).rf Reg.LDR_SPENT.EQ = (s.rf Reg.LDR_SPENT.EQ + b) % 2 ^ 32 := by
    rw [State.booked, State.rf_addAvail_other _ _ _ (by decide) (by decide), State.rf_addTerm_other _ _ _ _ (by decide),
      State.rf_addTerm _ _ _ rfl rfl, State.rf_addTerm_other _ _ _ _ (by decide)]
  have hbase : (s.booked d b).rf Reg.LDR_SPENT_BASE.EQ = (s.rf Reg.LDR_SPENT_BASE.EQ + b) % 2 ^ 32 := by
    rw [State.booked, State.rf_addAvail_other _ _ _ (by decide) (by decide), State.rf_addTerm _ _ _ rfl rfl,
      State.rf_addTerm_other _ _ _ _ (by decide), State.rf_addTerm_other _ _ _ _ (by decide)]
  have hspill : (s.booked d b).rf Reg.LDR_SPILL.EQ = s.rf Reg.LDR_SPILL.EQ := s.rf_booked_other d b _ (by decide)
  have hres : (s.booked d b).rf Reg.LDR_RESERVED.EQ = s.rf Reg.LDR_RESERVED.EQ := s.rf_booked_other d b _ (by decide)
  have hcap : (s.booked d b).rf Reg.LDR_CAP.CAPACITY = s.rf Reg.LDR_CAP.CAPACITY := s.rf_booked_other d b _ (by decide)
  have hcaplt : s.rf Reg.LDR_CAP.CAPACITY < 2 ^ 16 := getBits_lt _ _ _
  have hspillLt : s.rf Reg.LDR_SPILL.EQ < 2 ^ 32 := getBits_lt _ _ _
  rw [State.tickBooks_eq, hcap, s.avail_booked d b hlo hhi]
  have havail := s.avail_booked d b hlo hhi
  revert hcaplt hspillLt hlo hhi havail hspill
  generalize s.avail + d - b = x
  generalize s.rf Reg.LDR_CAP.CAPACITY = cap
  generalize s.rf Reg.LDR_SPILL.EQ = spill
  intro hlo hhi hspill hcaplt hspillLt havail
  norm_num at hcaplt hspillLt
  by_cases hover : 0 < x - cap
  · have hmin : min x cap = cap := min_eq_right (sub_pos.1 hover).le
    have hamount : x - cap = ((x - cap).toNat : Nat) := (Int.toNat_of_nonneg hover.le).symm
    rw [if_pos hover]
    refine ⟨?_, ?_, ?_, ?_, ?_, ?_⟩
    · rw [State.avail, State.rf_addTerm_other _ _ _ _ (by decide), State.rf_wf_same _ _ _ (by decide),
        show (2 : Nat) ^ Reg.LDR_AVAIL.EQ.width = 4294967296 from rfl, Nat.mod_eq_of_lt (Nat.lt_of_lt_of_le hcaplt (by decide)),
        sInt_of_lt (Nat.lt_of_lt_of_le hcaplt (by decide)), hmin]
    · rw [State.rf_addTerm_other _ _ _ _ (by decide), State.rf_wf_other _ _ _ _ (by decide), hdep]
    · rw [State.rf_addTerm_other _ _ _ _ (by decide), State.rf_wf_other _ _ _ _ (by decide), hspent]
    · rw [State.rf_addTerm_other _ _ _ _ (by decide), State.rf_wf_other _ _ _ _ (by decide), hbase]
    · rw [hamount, State.rf_addTerm _ _ _ rfl rfl, State.rf_wf_other _ _ _ _ (by decide), hspill, Int.toNat_natCast]
    · rw [State.rf_addTerm_other _ _ _ _ (by decide), State.rf_wf_other _ _ _ _ (by decide), hres]
  · have hle : x - cap ≤ 0 := not_lt.1 hover
    rw [if_neg hover]
    refine ⟨?_, hdep, hspent, hbase, ?_, hres⟩
    · rw [havail, min_eq_left (sub_nonpos.1 hle)]
    · rw [hspill, Int.toNat_of_nonpos hle, Nat.add_zero, Nat.mod_eq_of_lt (by norm_num; exact hspillLt)]

/-- The base charge of a tick before the division by the trim's unit (R302). -/
def State.tickRaw (base : Nat) : Nat := base * s.rf Reg.LDR_TRIM.TRIM + s.ldr.baseRem

/-- The state in which a tick's books are made: P_allow shown, the remainders kept. -/
def State.tickStart (base : Nat) : State :=
  ((s.wf Reg.LDR_PALLOW.P (s.pAllow.1 / 10)).wf Reg.LDR_PALLOW.LIMIT s.pAllow.2).onLdr (fun l =>
    { l with
      depRem := (s.pAllow.1 + l.depRem) % 100, baseRem := s.tickRaw base % 16384000, raw := l.raw + base, ticks := l.ticks + 1 })

/-- The books of a tick made. -/
def State.tickMade (base : Nat) : State := (s.tickStart base).tickBooks ((s.pAllow.1 + s.ldr.depRem) / 100) (s.tickRaw base / 16384000)

/-- Whether a tick makes a closure due (R303). -/
def State.windowFull : Bool :=
  decide (s.rf Reg.LDR_ACCT.PERIOD * 100000 ≤ s.ldr.ticks) || decide (2 ^ 31 ≤ s.rf Reg.LDR_DEPOSIT.EQ) ||
    decide (2 ^ 31 ≤ s.rf Reg.LDR_SPENT.EQ)

theorem State.ledgerTick_eq (base : Nat) : s.ledgerTick base =
    (((s.tickMade base).onLdr (fun l => { l with due := l.due || l.closing || (s.tickMade base).windowFull })).countSteps
      ((s.pAllow.1 + s.ldr.depRem) / 100) (s.tickRaw base / 16384000)).judgeStep := by
  have htrim : ((s.wf Reg.LDR_PALLOW.P (s.pAllow.1 / 10)).wf Reg.LDR_PALLOW.LIMIT s.pAllow.2).rf Reg.LDR_TRIM.TRIM = s.rf Reg.LDR_TRIM.TRIM := by
    rw [State.rf_wf_other _ _ _ _ (by decide), State.rf_wf_other _ _ _ _ (by decide)]
  unfold State.ledgerTick
  dsimp only
  rw [htrim]
  rfl

/-- What a tick does after its books leaves them. -/
theorem ledgerTick_keepsBooks (base : Nat) : (s.tickMade base).KeepsBooks (s.ledgerTick base) := by
  rw [s.ledgerTick_eq base]
  exact (((State.KeepsBooks.refl _).markDue _).countSteps _ _).judgeStep

/-- What precedes a tick's books changes LDR_PALLOW alone. -/
theorem State.rf_tickStart (base : Nat) (f : Fd) (h : f.addr ≠ Reg.LDR_PALLOW_at) : (s.tickStart base).rf f = s.rf f := by
  show ((s.wf Reg.LDR_PALLOW.P _).wf Reg.LDR_PALLOW.LIMIT _).rf f = _
  rw [State.rf_wf_other _ _ _ _ (.inl h), State.rf_wf_other _ _ _ _ (.inl h)]

theorem State.rf_tickBooks_other (d b : Nat) (f : Fd) (h : f.addr ∉ [Reg.LDR_DEBT_MIN.EQ.addr, Reg.LDR_AVAIL_at, Reg.LDR_DEPOSIT_at,
    Reg.LDR_SPENT_at, Reg.LDR_SPENT_BASE_at, Reg.LDR_SPILL_at]) : (s.tickBooks d b).rf f = s.rf f := by
  have hbooked : (s.booked d b).rf f = s.rf f := s.rf_booked_other d b f (fun hm => h (List.mem_append_left [Reg.LDR_SPILL_at] hm))
  simp only [List.mem_cons, List.not_mem_nil, or_false, not_or] at h
  obtain ⟨-, havail, -, -, -, hspill⟩ := h
  rw [State.tickBooks_eq]
  split
  · rw [State.rf_addTerm_other _ _ _ _ hspill, State.rf_wf_other _ _ _ _ (.inl havail), hbooked]
  · exact hbooked

/-- Booking leaves the unit's own state. -/
theorem State.tickBooks_ldr (d b : Nat) : (s.tickBooks d b).ldr = s.ldr := by
  have hmin (t : State) : t.noteMin.ldr = t.ldr := by
    unfold State.noteMin
    split
    · exact t.wf_ldr _ _
    · rfl
  have hbooked : (s.booked d b).ldr = s.ldr := by
    rw [State.booked, State.addAvail, hmin, State.wf_ldr, State.addTerm, State.wf_ldr, State.addTerm, State.wf_ldr, State.addTerm, State.wf_ldr]
  rw [State.tickBooks_eq]
  split
  · rw [State.addTerm, State.wf_ldr, State.wf_ldr, hbooked]
  · exact hbooked

theorem ledgerTick_holds (base : Nat) :
    let p := allowed s
    let d := (p + s.ldr.depRem) / 100
    let b := (base * s.rf Reg.LDR_TRIM.TRIM + s.ldr.baseRem) / 16384000
    let a := s.avail + d - b
    let cap := s.rf Reg.LDR_CAP.CAPACITY
    a < 2 ^ 31 → -2 ^ 31 ≤ a → Does (.ledgerTick base) s (fun t =>
      t.rf Reg.LDR_PALLOW.P = p / 10 % 2 ^ 16 ∧ t.avail = min a cap ∧
      t.rf Reg.LDR_DEPOSIT.EQ = (s.rf Reg.LDR_DEPOSIT.EQ + d) % 2 ^ 32 ∧ t.rf Reg.LDR_SPENT.EQ = (s.rf Reg.LDR_SPENT.EQ + b) % 2 ^ 32 ∧
      t.rf Reg.LDR_SPENT_BASE.EQ = (s.rf Reg.LDR_SPENT_BASE.EQ + b) % 2 ^ 32 ∧
      t.rf Reg.LDR_SPILL.EQ = (s.rf Reg.LDR_SPILL.EQ + (a - cap).toNat) % 2 ^ 32 ∧
      t.rf Reg.LDR_RESERVED.EQ = s.rf Reg.LDR_RESERVED.EQ ∧ t.ldr.depRem = (p + s.ldr.depRem) % 100 ∧
      t.ldr.baseRem = (base * s.rf Reg.LDR_TRIM.TRIM + s.ldr.baseRem) % 16384000) := by
  intro p d b a cap hhi hlo
  have hp : s.pAllow.1 = p := pAllow_eq s
  have hkeep := ledgerTick_keepsBooks s base
  have hstart (f : Fd) (h : f.addr ≠ Reg.LDR_PALLOW_at) := s.rf_tickStart base f h
  have hmade : s.tickMade base = (s.tickStart base).tickBooks d b := by rw [State.tickMade, hp]; rfl
  have havail0 : (s.tickStart base).avail = s.avail := congrArg (sInt 32) (hstart _ (by decide))
  obtain ⟨havail, hdep, hspent, hbase, hspill, hres⟩ := (s.tickStart base).tickBooks_books d b (by rw [havail0]; exact hlo)
    (by rw [havail0]; exact hhi)
  rw [← hmade] at havail hdep hspent hbase hspill hres
  rw [havail0, hstart _ (by decide)] at havail
  rw [hstart _ (by decide)] at hdep hspent hbase hres
  rw [hstart _ (by decide), havail0, hstart _ (by decide)] at hspill
  have hldr : (s.tickMade base).ldr = (s.tickStart base).ldr := by rw [hmade, State.tickBooks_ldr]
  refine ⟨s.ledgerTick base, rfl, ?_, hkeep.avail.trans havail, (hkeep.rf _ rfl).trans hdep, (hkeep.rf _ rfl).trans hspent,
    (hkeep.rf _ rfl).trans hbase, (hkeep.rf _ rfl).trans hspill, (hkeep.rf _ rfl).trans hres, ?_, ?_⟩
  · rw [hkeep.rf _ rfl, hmade, State.rf_tickBooks_other _ _ _ _ (by decide), State.tickStart, hp]
    show ((s.wf Reg.LDR_PALLOW.P _).wf Reg.LDR_PALLOW.LIMIT _).rf Reg.LDR_PALLOW.P = _
    rw [State.rf_wf_other _ _ _ _ (by decide), State.rf_wf_same _ _ _ (by decide)]
    rfl
  · rw [hkeep.depRem, hldr, ← hp]
    rfl
  · rw [hkeep.baseRem, hldr]
    rfl

end

/-! ## Windows (R303) -/

section
variable (s : State)

@[simp] theorem State.reg_onLdr (f : Ldr → Ldr) (a : Nat) : (s.onLdr f).reg a = s.reg a := rfl
@[simp] theorem State.rf_onLdr (f : Ldr → Ldr) (g : Fd) : (s.onLdr f).rf g = s.rf g := rfl
@[simp] theorem State.on_onLdr (f : Ldr → Ldr) (g : Fd) : (s.onLdr f).on g = s.on g := rfl
@[simp] theorem State.ldr_onLdr (f : Ldr → Ldr) : (s.onLdr f).ldr = f s.ldr := rfl

/-- AVAIL as an integer modulo 2^32, in a register of 32 bits. -/
theorem uNat_mod (w : Nat) (i : Int) : uNat w i % 2 ^ w = uNat w i := Nat.mod_eq_of_lt (uNat_lt w i)

/-- Closing a window changes registers and the unit's own state alone. -/
theorem State.closeWindow_eq_io : s.closeWindow =
    { s with io := s.closeWindow.io, ldr := { s.ldr with ticks := 0, due := false, closing := false } } := by
  have hregs {t u : State} {as : List Nat} (h : Regs s t as []) (hu : u = t.onLdr (fun l => { l with ticks := 0, due := false, closing := false })) :
      u = { s with io := u.io, ldr := { s.ldr with ticks := 0, due := false, closing := false } } := by
    subst hu
    exact congrArg (fun x : State => x.onLdr (fun l => { l with ticks := 0, due := false, closing := false })) h.eq_io
  unfold State.closeWindow
  dsimp only
  refine hregs (as := [Reg.LDR_W_AVAIL_at, Reg.LDR_W_RESERVED_at, Reg.LDR_W_SPENT_at, Reg.LDR_W_DEPOSIT_at, Reg.LDR_W_SPILL_at,
    Reg.LDR_DEPOSIT_at, Reg.LDR_SPENT_at, Reg.LDR_SPENT_BASE_at, Reg.LDR_SPILL_at, Reg.LDR_ACCT_at]) ?_ rfl
  refine (((((Regs.wf ?_ _ _ (by decide)).wf _ _ (by decide)).wf _ _ (by decide)).wf _ _ (by decide)).incWrap _ _ (by decide))
  exact ((((Regs.setReg (regs_refl s _) _ _ (by decide)).setReg _ _ (by decide)).setReg _ _ (by decide)).setReg _ _ (by decide)).setReg _ _
    (by decide)

theorem closeWindow_closes (hdue : s.ldr.due = true) : Does .windowClose s (fun t =>
      t = { s with io := t.io, ldr := { s.ldr with ticks := 0, due := false, closing := false } } ∧
      t.reg Reg.LDR_W_AVAIL_at = s.reg Reg.LDR_AVAIL_at ∧ t.reg Reg.LDR_W_RESERVED_at = s.reg Reg.LDR_RESERVED_at ∧
      t.reg Reg.LDR_W_SPENT_at = s.reg Reg.LDR_SPENT_at ∧ t.reg Reg.LDR_W_DEPOSIT_at = s.reg Reg.LDR_DEPOSIT_at ∧
      t.reg Reg.LDR_W_SPILL_at = s.reg Reg.LDR_SPILL_at ∧ t.reg Reg.LDR_AVAIL_at = s.reg Reg.LDR_AVAIL_at ∧
      t.rf Reg.LDR_DEPOSIT.EQ = ((s.avail + s.rf Reg.LDR_RESERVED.EQ) % 2 ^ 32).toNat ∧ t.rf Reg.LDR_SPENT.EQ = 0 ∧
      t.rf Reg.LDR_SPENT_BASE.EQ = 0 ∧ t.rf Reg.LDR_SPILL.EQ = 0 ∧
      t.rf Reg.LDR_ACCT.WINDOWS = (s.rf Reg.LDR_ACCT.WINDOWS + 1) % 2 ^ 16) := by
  refine ⟨s.closeWindow, congrArg Host.Outcome.next (if_pos hdue), s.closeWindow_eq_io, ?_, ?_, ?_, ?_, ?_, ?_, ?_, ?_, ?_, ?_, ?_⟩
  iterate 6
    · simp -implicitDefEqProofs (disch := decide) only [State.closeWindow, State.reg_onLdr, State.reg_incWrap_other, State.reg_wf_other,
        State.reg_setReg_other, State.reg_setReg_same]
  · simp -implicitDefEqProofs (disch := decide) only [State.closeWindow, State.rf_onLdr, State.rf_incWrap_other, State.rf_wf_other,
      State.rf_wf_same, State.rf_setReg_other, State.avail]
    exact uNat_mod 32 _
  iterate 3
    · simp -implicitDefEqProofs (disch := decide) only [State.closeWindow, State.rf_onLdr, State.rf_incWrap_other, State.rf_wf_other,
        State.rf_wf_same, Nat.zero_mod]
  · simp -implicitDefEqProofs (disch := decide) only [State.closeWindow, State.rf_onLdr, State.rf_incWrap, State.rf_wf_other,
      State.rf_setReg_other]
    rfl

/-! ## CLOSE (R303) -/

theorem acct_fields (p : Permit) : refuseCode p (fieldsAt Reg.LDR_ACCT_at) = 0 := by
  obtain ⟨l, q, r⟩ := p
  cases l <;> cases q <;> cases r <;> rfl

theorem acct_takes (p : Permit) : Reg.LDR_ACCT.PERIOD.takes p = true := by
  obtain ⟨l, q, r⟩ := p
  cases l <;> cases q <;> cases r <;> rfl

variable (src : Src) (v : Word)

/-- LDR_ACCT written with CLOSE 1 and a period in range. -/
theorem State.writeLdr_close (hne : getBits v 0 10 ≠ 0) (hle : getBits v 0 10 ≤ 600) :
    s.writeLdr src Reg.LDR_ACCT_at (putBits v 10 1 1) =
      if src = .fobex then (s.writeReg s.ldrPermit Reg.LDR_ACCT_at (putBits v 10 1 1)).refused ldrRefuse 5
      else .ok ((s.writeReg s.ldrPermit Reg.LDR_ACCT_at (putBits v 10 1 1)).onLdr (fun l => { l with closing := true })) := by
  have hperiod : getBits (putBits v 10 1 1) 0 10 = getBits v 0 10 := getBits_putBits_other _ _ _ _ _ _ (.inl (by decide))
  have hclose : getBits (putBits v 10 1 1) 10 1 = 1 := getBits_putBits_same _ _ _ _ (by decide)
  have hrange : s.ldrRange Reg.LDR_ACCT_at (putBits v 10 1 1) = (false, putBits v 10 1 1) := by
    have hin : ¬ (getBits (putBits v 10 1 1) 0 10 = 0 ∨ 600 < getBits (putBits v 10 1 1) 0 10) := by rw [hperiod]; omega
    rw [State.ldrRange, if_neg (by decide), if_neg (by decide), if_pos rfl, if_neg hin]
  have hfields : s.ldrWriteFields Reg.LDR_ACCT_at (putBits v 10 1 1) =
      ([0, 0], s.writeReg s.ldrPermit Reg.LDR_ACCT_at (putBits v 10 1 1)) := by
    simp only [State.ldrWriteFields, hrange, acct_fields, ne_eq, not_true_eq_false, decide_false, Bool.false_and, Bool.not_false,
      Bool.false_eq_true, if_false]
  have hopen : ¬ getBits (putBits v 10 1 1) 10 1 = 0 := by rw [hclose]; decide
  rw [State.writeLdr, if_neg (by decide), if_pos rfl, if_neg hopen, hfields]
  rfl

theorem acctClose_holds (hne : getBits v 0 10 ≠ 0) (hle : getBits v 0 10 ≤ 600) :
    (src ≠ .fobex → Does (.acctClose src v) s (fun t => t = { s with io := t.io, ldr := { s.ldr with closing := true } } ∧
      t.rf Reg.LDR_ACCT.PERIOD = getBits v 0 10 ∧ ∀ a, a ≠ Reg.LDR_ACCT_at → t.reg a = s.reg a)) ∧
    (src = .fobex → Refuses (.acctClose src v) s ldrRefuse 5 [Reg.LDR_ACCT_at]) := by
  have hwrite := s.writeLdr_close src v hne hle
  have hregs := regs_writeReg s s.ldrPermit Reg.LDR_ACCT_at (putBits v 10 1 1)
  have hperiod : (s.writeReg s.ldrPermit Reg.LDR_ACCT_at (putBits v 10 1 1)).rf Reg.LDR_ACCT.PERIOD = getBits v 0 10 :=
    (s.rf_writeReg_takes s.ldrPermit Reg.LDR_ACCT.PERIOD _ (acct_takes _)).trans (getBits_putBits_other _ _ _ _ _ _ (.inl (by decide)))
  revert hwrite hregs hperiod
  generalize s.writeReg s.ldrPermit Reg.LDR_ACCT_at (putBits v 10 1 1) = u
  intro hwrite hregs hperiod
  refine ⟨fun hsrc => ?_, fun hsrc => ?_⟩
  · refine ⟨u.onLdr (fun l => { l with closing := true }), congrArg (fun w : WRes => Host.Outcome.next w.st) (hwrite.trans (if_neg hsrc)),
      congrArg (fun x : State => x.onLdr (fun l => { l with closing := true })) hregs.eq_io, ?_, fun a ha => ?_⟩
    · rw [State.rf_onLdr, hperiod]
    · rw [State.reg_onLdr, hregs.2 a (by simpa using ha)]
  · exact refuses_of_exec_after (by decide) hregs
      (fun p hp => by cases hp; exact ev_congr (hregs.2 _ (by decide)) (hregs.2 _ (by decide)))
      (congrArg (fun w : WRes => Host.Outcome.next w.st) (hwrite.trans (if_pos hsrc)))

/-! ## The trim (R305) -/

variable (drawn : List Nat)

/-- What the jobs have drawn counted, and the interval's estimates begun anew. -/
def State.intervalEnded : State :=
  s.onLdr (fun l => { l with rail := 0, raw := 0, drawn := (List.range 4).map (countedTo s drawn) })

/-- The trim of an interval whose raw estimate is `raw` (R305). -/
def trimNext (old rail raw : Nat) : Nat := max 12288 (min 20480 (max (old - 64) (min (old + 64) (rail * 16384 / raw))))

theorem State.countDrawn_eq : s.countDrawn drawn =
    s.onLdr (fun l => { l with raw := intervalRaw s drawn, drawn := (List.range 4).map (countedTo s drawn) }) := rfl

theorem State.updateTrim_frozen (h : s.on Reg.PMB_STATUS.FAIL = true ∨ intervalRaw s drawn = 0) :
    s.updateTrim drawn = s.intervalEnded drawn := by
  have hcond : (s.countDrawn drawn).on Reg.PMB_STATUS.FAIL = true ∨ (s.countDrawn drawn).ldr.raw = 0 := h
  unfold State.updateTrim
  dsimp only
  rw [if_pos hcond]
  rfl

theorem State.updateTrim_moves (hfail : s.on Reg.PMB_STATUS.FAIL = false) (hraw : intervalRaw s drawn ≠ 0) :
    s.updateTrim drawn = (s.wf Reg.LDR_TRIM.TRIM (trimNext (s.rf Reg.LDR_TRIM.TRIM) s.ldr.rail (intervalRaw s drawn))).intervalEnded drawn := by
  have hcond : ¬ ((s.countDrawn drawn).on Reg.PMB_STATUS.FAIL = true ∨ (s.countDrawn drawn).ldr.raw = 0) := by
    rintro (h | h)
    · exact absurd (hfail.symm.trans h) Bool.false_ne_true
    · exact hraw h
  unfold State.updateTrim
  dsimp only
  rw [if_neg hcond, if_neg (show ¬ (s.countDrawn drawn).ldr.raw = 0 from hraw)]
  rfl

theorem trimUpdate_moves (hfail : s.on Reg.PMB_STATUS.FAIL = false) (hraw : intervalRaw s drawn ≠ 0) : Does (.trimUpdate drawn) s (fun t =>
      let old := s.rf Reg.LDR_TRIM.TRIM
      let new := t.rf Reg.LDR_TRIM.TRIM
      let goal := s.ldr.rail * 16384 / intervalRaw s drawn
      t = { s with io := t.io, ldr := { s.ldr with rail := 0, raw := 0, drawn := (List.range 4).map (countedTo s drawn) } } ∧ (∀ a, a ≠ Reg.LDR_TRIM_at → t.reg a = s.reg a) ∧
      12288 ≤ new ∧ new ≤ 20480 ∧ (12288 ≤ old → old ≤ 20480 → (new : Int) - old ≤ 64 ∧ (old : Int) - new ≤ 64 ∧
        (old ≤ goal + 64 → goal ≤ old + 64 → 12288 ≤ goal → goal ≤ 20480 → new = goal))) := by
  refine ⟨_, congrArg Host.Outcome.next (s.updateTrim_moves drawn hfail hraw), rfl, fun a ha => ?_, ?_⟩
  · rw [State.intervalEnded, State.reg_onLdr, State.reg_wf_other _ _ _ _ ha]
  · have hnew : ((s.wf Reg.LDR_TRIM.TRIM (trimNext (s.rf Reg.LDR_TRIM.TRIM) s.ldr.rail (intervalRaw s drawn))).intervalEnded drawn).rf
        Reg.LDR_TRIM.TRIM = trimNext (s.rf Reg.LDR_TRIM.TRIM) s.ldr.rail (intervalRaw s drawn) := by
      rw [State.intervalEnded, State.rf_onLdr, State.rf_wf_same _ _ _ (by decide)]
      exact Nat.mod_eq_of_lt (Nat.lt_of_le_of_lt (max_le (by decide) (min_le_left _ _)) (by decide : 20480 < 2 ^ 16))
    rw [hnew, trimNext]
    generalize s.rf Reg.LDR_TRIM.TRIM = old
    generalize s.ldr.rail * 16384 / intervalRaw s drawn = goal
    clear hnew
    omega

end

/-- Settles O36: the tick's books are kept by what it does next; a window, a close and an interval each write their own terms. -/
theorem ledgerKeepsItsBooks : Obligations.LedgerKeepsItsBooks := by
  intro s
  refine ⟨fun base => ledgerTick_holds s base, closeWindow_closes s, fun h => ?_, fun src v hne hle => acctClose_holds s src v hne hle,
    fun drawn h => ?_, fun drawn hfail hraw => trimUpdate_moves s drawn hfail hraw⟩
  · exact ⟨s, congrArg Host.Outcome.next (if_neg (by simp [h])), rfl⟩
  · exact ⟨_, congrArg Host.Outcome.next (s.updateTrim_frozen drawn h), rfl⟩

end Sys2Proof.Machine
end

section
/-!
PROOFS. The abutment: trips, clocked sources, their recording, and the release (R457 to R464).
-/

namespace Sys2Proof.Machine
open Sys2Proof.Claims

/-! ## Latches (R458, R460) -/

section
variable (s : State) (i : Nat) (m0 m1 : Bool)

/-- The mutes set by a source that is routed to them. -/
def State.mutedBy : State :=
  if m1 then (if m0 then s.wf Reg.ABT_STATUS.MUTE_0 1 else s).wf Reg.ABT_STATUS.MUTE_1 1 else if m0 then s.wf Reg.ABT_STATUS.MUTE_0 1 else s

theorem mutedBy_regs : Regs s (s.mutedBy m0 m1) [Reg.ABT_STATUS_at, Reg.ABT_SRC_LATCH_at] [] := by
  have hfirst : Regs s (if m0 then s.wf Reg.ABT_STATUS.MUTE_0 1 else s) [Reg.ABT_STATUS_at, Reg.ABT_SRC_LATCH_at] [] :=
    Regs.ite ((regs_refl s _).wf _ _ (by decide)) (regs_refl s _)
  exact Regs.ite (hfirst.wf _ _ (by decide)) hfirst

theorem State.on_mutedBy_0 : (s.mutedBy m0 m1).on Reg.ABT_STATUS.MUTE_0 = (s.on Reg.ABT_STATUS.MUTE_0 || m0) := by
  have hset : (s.wf Reg.ABT_STATUS.MUTE_0 1).on Reg.ABT_STATUS.MUTE_0 = true := by rw [State.on_wf_same _ _ _ (by decide)]; rfl
  cases m0 <;> cases m1
  · exact (Bool.or_false _).symm
  · exact (State.on_wf_other _ _ _ _ (by decide)).trans (Bool.or_false _).symm
  · exact hset.trans (Bool.or_true _).symm
  · exact (State.on_wf_other _ _ _ _ (by decide)).trans (hset.trans (Bool.or_true _).symm)

theorem State.on_mutedBy_1 : (s.mutedBy m0 m1).on Reg.ABT_STATUS.MUTE_1 = (s.on Reg.ABT_STATUS.MUTE_1 || m1) := by
  have hset (t : State) : (t.wf Reg.ABT_STATUS.MUTE_1 1).on Reg.ABT_STATUS.MUTE_1 = true := by rw [State.on_wf_same _ _ _ (by decide)]; rfl
  cases m0 <;> cases m1
  · exact (Bool.or_false _).symm
  · exact (hset _).trans (Bool.or_true _).symm
  · exact (State.on_wf_other _ _ _ _ (by decide)).trans (Bool.or_false _).symm
  · exact (hset _).trans (Bool.or_true _).symm

theorem State.bit_mutedBy (k : Nat) : (s.mutedBy m0 m1).bit Reg.ABT_SRC_LATCH.SRC k = s.bit Reg.ABT_SRC_LATCH.SRC k := by
  refine State.bit_congr ?_ k
  unfold State.mutedBy
  split_ifs
  · rw [State.reg_wf_other _ _ _ _ (by decide), State.reg_wf_other _ _ _ _ (by decide)]
  · rw [State.reg_wf_other _ _ _ _ (by decide)]
  · rw [State.reg_wf_other _ _ _ _ (by decide)]
  · rfl

theorem State.latch_eq : s.latch i m0 m1 =
    if s.bit Reg.ABT_SRC_LATCH.SRC i then (s.mutedBy m0 m1).notQuiet
    else { ((s.mutedBy m0 m1).setBit Reg.ABT_SRC_LATCH.SRC i true) with
      abtNew := (s.mutedBy m0 m1).abtNew ++ [(i, !s.on Reg.ABT_STATUS.MUTE_0 && !s.on Reg.ABT_STATUS.MUTE_1)] }.notQuiet := by
  rw [← s.bit_mutedBy m0 m1 i]
  rfl

/-- What latching does to a state in which an input has just changed. -/
theorem latched_latch (o : BitVec 16) (e : Bool) (hi : i < 21) : Latched s ({ s with ovrIn := o, estopN := e }.latch i m0 m1) i m0 m1 ∧
    ({ s with ovrIn := o, estopN := e }.latch i m0 m1).ovrIn = o ∧ ({ s with ovrIn := o, estopN := e }.latch i m0 m1).estopN = e := by
  generalize hx : ({ s with ovrIn := o, estopN := e } : State) = x
  have hon (f : Fd) : x.on f = s.on f := by rw [← hx]; rfl
  have hbit (k : Nat) : x.bit Reg.ABT_SRC_LATCH.SRC k = s.bit Reg.ABT_SRC_LATCH.SRC k := by rw [← hx]; rfl
  have hregs := mutedBy_regs x m0 m1
  have hm0 := (x.on_mutedBy_0 m0 m1).trans (by rw [hon])
  have hm1 := (x.on_mutedBy_1 m0 m1).trans (by rw [hon])
  have hsrc (k : Nat) := (x.bit_mutedBy m0 m1 k).trans (hbit k)
  rw [x.latch_eq, hbit, hon, hon]
  generalize x.mutedBy m0 m1 = u at hregs hm0 hm1 hsrc
  have hu : u = { s with io := u.io, ovrIn := o, estopN := e } := by
    have h := hregs.eq_io
    rw [← hx] at h
    exact h
  have hother (a : Nat) (ha : a ∉ [Reg.ABT_STATUS_at, Reg.ABT_SRC_LATCH_at]) : u.reg a = s.reg a := (hregs.2 a ha).trans (by rw [← hx]; rfl)
  by_cases hnew : s.bit Reg.ABT_SRC_LATCH.SRC i = true
  · simp only [if_pos hnew]
    refine ⟨⟨⟨?_, hother⟩, hm0, hm1, fun k _ => ?_, ?_⟩, ?_, ?_⟩
    · rw [hu]; rfl
    · rw [show u.notQuiet.bit Reg.ABT_SRC_LATCH.SRC k = u.bit Reg.ABT_SRC_LATCH.SRC k from rfl, hsrc]
      by_cases hk : k = i
      · rw [hk, hnew]; rfl
      · rw [beq_false_of_ne hk, Bool.or_false]
    · rw [hu, if_pos hnew, List.append_nil]; rfl
    · rw [hu]; rfl
    · rw [hu]; rfl
  · rw [Bool.not_eq_true] at hnew
    have hset := (regs_refl u [Reg.ABT_STATUS_at, Reg.ABT_SRC_LATCH_at]).setBit Reg.ABT_SRC_LATCH.SRC i true (by decide)
    have hsame : (u.setBit Reg.ABT_SRC_LATCH.SRC i true).bit Reg.ABT_SRC_LATCH.SRC i = true :=
      u.bit_setBit_same _ _ _ (Nat.lt_trans (Nat.add_lt_add_left hi 0) (by decide))
    have hdiff (k : Nat) (hk : k ≠ i) : (u.setBit Reg.ABT_SRC_LATCH.SRC i true).bit Reg.ABT_SRC_LATCH.SRC k = u.bit Reg.ABT_SRC_LATCH.SRC k :=
      u.bit_setBit_other _ _ _ _ _ (.inr (fun h => hk (Nat.add_left_cancel h)))
    have hon0 : (u.setBit Reg.ABT_SRC_LATCH.SRC i true).on Reg.ABT_STATUS.MUTE_0 = u.on Reg.ABT_STATUS.MUTE_0 :=
      State.on_setBit_other _ _ _ _ _ (by decide)
    have hon1 : (u.setBit Reg.ABT_SRC_LATCH.SRC i true).on Reg.ABT_STATUS.MUTE_1 = u.on Reg.ABT_STATUS.MUTE_1 :=
      State.on_setBit_other _ _ _ _ _ (by decide)
    generalize u.setBit Reg.ABT_SRC_LATCH.SRC i true = w at hset hsame hdiff hon0 hon1
    have hw : w = { s with io := w.io, ovrIn := o, estopN := e } := by
      have h := hset.eq_io
      rw [hu] at h
      exact h
    have hnews : u.abtNew = s.abtNew := by rw [hu]
    rw [hnew, hnews]
    simp only [Bool.false_eq_true, if_false]
    refine ⟨⟨⟨?_, fun a ha => (hset.2 a ha).trans (hother a ha)⟩, hon0.trans hm0, hon1.trans hm1, fun k _ => ?_, ?_⟩, ?_, ?_⟩
    · rw [hw]; rfl
    · show w.bit _ k = _
      by_cases hk : k = i
      · rw [hk, hsame, beq_self_eq_true, Bool.or_true]
      · rw [hdiff k hk, hsrc, beq_false_of_ne hk, Bool.or_false]
    · rw [hnew]; rfl
    · rw [hw]; rfl
    · rw [hw]; rfl

end

/-! ## Trips, clears and clocked sources (R458, R461, R463) -/

theorem abutmentTrip_latches (i : Fin 17) (s : State) :
    (i.val < 16 → Does (.abutmentTrip i) s (fun t => Latched s t i.val (s.bit Reg.ABT_OVR_EN.TO_0 i.val) (s.bit Reg.ABT_OVR_EN.TO_1 i.val) ∧
      t.ovrIn = s.ovrIn ||| BitVec.ofNat 16 (2 ^ i.val) ∧ t.estopN = s.estopN)) ∧
    (i.val = 16 → Does (.abutmentTrip i) s (fun t => Latched s t 16 true true ∧ t.ovrIn = s.ovrIn ∧ t.estopN = false)) :=
  ⟨fun h => ⟨_, congrArg Host.Outcome.next (if_neg (Nat.ne_of_lt h)), latched_latch s _ _ _ _ s.estopN (Nat.lt_trans h (by decide))⟩,
    fun h => ⟨_, congrArg Host.Outcome.next (if_pos h), latched_latch s 16 true true s.ovrIn false (by decide)⟩⟩

/-- One input falls: every other keeps its level. -/
theorem getLsbD_cleared (o : BitVec 16) {i : Nat} (hi : i < 16) (k : Fin 16) :
    (o &&& ~~~(BitVec.ofNat 16 (2 ^ i))).getLsbD k.val = (o.getLsbD k.val && k.val != i) := by
  rw [BitVec.getLsbD_and, BitVec.getLsbD_not, BitVec.getLsbD_ofNat, Nat.testBit_two_pow]
  have hk := k.isLt
  by_cases h : k.val = i
  · subst h; simp
  · simp [h, hk, Ne.symm h]

theorem abutmentSourceClear_clears (i : Fin 17) (s : State) : Does (.abutmentSourceClear i) s (fun t => AbtOnly s t [] ∧ t.abtNew = s.abtNew ∧
    (i.val < 16 → t.estopN = s.estopN ∧ ∀ k : Fin 16, t.ovrIn.getLsbD k.val = (s.ovrIn.getLsbD k.val && k.val != i.val)) ∧
    (i.val = 16 → t.estopN = true ∧ t.ovrIn = s.ovrIn)) := by
  by_cases h : i.val = 16
  · exact ⟨_, congrArg Host.Outcome.next (if_pos h), ⟨rfl, fun _ _ => rfl⟩, rfl, fun hlt => absurd h (Nat.ne_of_lt hlt), fun _ => ⟨rfl, rfl⟩⟩
  · exact ⟨_, congrArg Host.Outcome.next (if_neg h), ⟨rfl, fun _ _ => rfl⟩, rfl, fun hlt => ⟨rfl, getLsbD_cleared s.ovrIn hlt⟩, fun he => absurd he h⟩

theorem State.rf_lt_two {s : State} {f : Fd} (h : f.width = 1) : s.rf f < 2 := by
  calc s.rf f < 2 ^ f.width := getBits_lt _ _ _
    _ = 2 := by rw [h]; rfl

theorem State.on_iff_one {s : State} {f : Fd} (h : f.width = 1) : s.on f = true ↔ s.rf f = 1 := by
  have := State.rf_lt_two (s := s) h
  rw [State.on, bne_iff_ne]
  omega

/-- The bit of ABT_SRC_LIVE of a clocked source is its condition (R461, Table cvp-4). -/
theorem clockedOn_iff (k : Fin 3) (s : State) : s.clockedOn (17 + k.val) = true ↔ (k.val = 0 ∧ s.on Reg.LDR_STATUS.TRIP = true) ∨
    (k.val = 1 ∧ s.on Reg.WDT_STATUS.STAGE1 = true) ∨ (k.val = 2 ∧ s.on Reg.ABT_CTL.FW_MUTE = true) := by
  rw [State.on_iff_one rfl, State.on_iff_one rfl, State.on_iff_one rfl, State.clockedOn, State.srcLive, beq_iff_eq]
  have htrip := State.rf_lt_two (s := s) (f := Reg.LDR_STATUS.TRIP) rfl
  have hstage := State.rf_lt_two (s := s) (f := Reg.WDT_STATUS.STAGE1) rfl
  have hmute := State.rf_lt_two (s := s) (f := Reg.ABT_CTL.FW_MUTE) rfl
  have hovr := s.ovrIn.isLt
  have hestop : b2n (!s.estopN) < 2 := by cases s.estopN <;> decide
  generalize s.rf Reg.LDR_STATUS.TRIP = a at *
  generalize s.rf Reg.WDT_STATUS.STAGE1 = b at *
  generalize s.rf Reg.ABT_CTL.FW_MUTE = c at *
  generalize s.ovrIn.toNat = d at *
  generalize b2n (!s.estopN) = e at *
  fin_cases k <;> norm_num at hovr ⊢ <;> omega

theorem clockedMuteSource_holds (k : Fin 3) (s : State) :
    let live := (k.val = 0 ∧ s.on Reg.LDR_STATUS.TRIP = true) ∨ (k.val = 1 ∧ s.on Reg.WDT_STATUS.STAGE1 = true) ∨ (k.val = 2 ∧ s.on Reg.ABT_CTL.FW_MUTE = true)
    (live → Does (.clockedMuteSource k) s (fun t => Latched s t (17 + k.val) true true)) ∧ (¬ live → Does (.clockedMuteSource k) s (fun t => t = s)) :=
  ⟨fun h => ⟨_, congrArg Host.Outcome.next (if_pos ((clockedOn_iff k s).2 h)),
      (latched_latch s (17 + k.val) true true s.ovrIn s.estopN (by omega)).1⟩,
    fun h => ⟨s, congrArg Host.Outcome.next (if_neg (fun hc => h ((clockedOn_iff k s).1 hc))), rfl⟩⟩

/-! ## Synchronisation (R460) -/

/-- The registers of a trip synchronised. -/
def State.tripCounted (s : State) (fresh : Bool) : State :=
  if fresh then (s.incSat Reg.ABT_TRIP_CNT.COUNT).wf Reg.ABT_TRIP_US.US s.us else s.incSat Reg.ABT_TRIP_CNT.COUNT

theorem tripCounted_regs (s : State) (fresh : Bool) : Regs s (s.tripCounted fresh) [Reg.ABT_TRIP_CNT_at, Reg.ABT_TRIP_US_at] [] :=
  Regs.ite (((regs_refl s _).incSat Reg.ABT_TRIP_CNT.COUNT 1 (by decide)).wf Reg.ABT_TRIP_US.US _ (by decide))
    ((regs_refl s _).incSat Reg.ABT_TRIP_CNT.COUNT 1 (by decide))

theorem State.rf_tripCounted (s : State) (fresh : Bool) : Counted s (s.tripCounted fresh) Reg.ABT_TRIP_CNT.COUNT ∧
    (s.tripCounted fresh).rf Reg.ABT_TRIP_US.US = (if fresh then s.us % 2 ^ 32 else s.rf Reg.ABT_TRIP_US.US) := by
  have hcount := s.rf_incSat Reg.ABT_TRIP_CNT.COUNT 1 (by decide)
  cases fresh
  · exact ⟨hcount, State.rf_incSat_other _ _ _ _ (by decide)⟩
  · exact ⟨(State.rf_wf_other _ _ _ _ (by decide)).trans hcount, State.rf_wf_same _ _ _ (by decide)⟩

theorem State.syncSource_eq (s : State) {i : Nat} {fresh : Bool} {rest : List (Nat × Bool)} (h : s.abtNew = (i, fresh) :: rest) :
    s.syncSource = (({ s with abtNew := rest }.tripCounted fresh).cause .abutment
      (({ s with abtNew := rest }.tripCounted fresh).reg Reg.ABT_SRC_LATCH_at)).trigger 0 := by
  simp only [State.syncSource, h]
  rfl

theorem sourceLatchSync_counts (s : State) {i : Nat} {fresh : Bool} {rest : List (Nat × Bool)} (h : s.abtNew = (i, fresh) :: rest) :
    Does .sourceLatchSync s (fun t =>
      t = { s with io := t.io, abtNew := rest, trigs := s.trigs ++ [0],
                   net := { s.net with causes := s.net.causes ++ [(.abutment, s.reg Reg.ABT_SRC_LATCH_at, 0)] } } ∧
      Counted s t Reg.ABT_TRIP_CNT.COUNT ∧ t.rf Reg.ABT_TRIP_US.US = (if fresh then s.us % 2 ^ 32 else s.rf Reg.ABT_TRIP_US.US) ∧
      ∀ a, a ≠ Reg.ABT_TRIP_CNT_at → a ≠ Reg.ABT_TRIP_US_at → t.reg a = s.reg a) := by
  have hregs := tripCounted_regs { s with abtNew := rest } fresh
  obtain ⟨hcount, hus⟩ := State.rf_tripCounted { s with abtNew := rest } fresh
  refine ⟨s.syncSource, rfl, ?_⟩
  rw [s.syncSource_eq h]
  generalize ({ s with abtNew := rest } : State).tripCounted fresh = u at hregs hcount hus
  have hu : u = { s with io := u.io, abtNew := rest } := hregs.eq_io
  have hreg (a : Nat) (h1 : a ≠ Reg.ABT_TRIP_CNT_at) (h2 : a ≠ Reg.ABT_TRIP_US_at) : u.reg a = s.reg a := hregs.2 a (by simp [h1, h2])
  rw [hreg Reg.ABT_SRC_LATCH_at (by decide) (by decide)]
  exact ⟨congrArg (fun x : State => (x.cause .abutment (s.reg Reg.ABT_SRC_LATCH_at)).trigger 0) hu, hcount, hus, hreg⟩

/-! ## The release (R463, R464) -/

section
variable (src : Src) (v : Word) (s : State)

theorem exec_abtRelease_fobex (h : src = .fobex) : exec (.abtRelease src v) s = .next ((if s.srcLive ≠ 0 then s.notQuiet else s).refuse abtRefuse 7) :=
  congrArg (fun w : WRes => Host.Outcome.next w.st) (if_pos ⟨h, by decide⟩)

theorem exec_abtRelease (h : src ≠ .fobex) : exec (.abtRelease src v) s = .next ((if s.srcLive ≠ 0 then s.notQuiet else s).release v).st :=
  congrArg (fun w : WRes => Host.Outcome.next w.st) ((if_neg (fun hc => h hc.1)).trans (if_pos rfl))

/-- The reason a release is refused, by R463's order; none where it is not. -/
theorem State.release_eq : s.release v =
    if getBits v 0 16 ≠ 0x3C5A then s.refused abtRefuse 4
    else if ¬ (s.on Reg.ABT_STATUS.MUTE_0 = true ∨ s.on Reg.ABT_STATUS.MUTE_1 = true) then s.refused abtRefuse 3
    else if s.srcLive ≠ 0 ∨ s.abtNew ≠ [] then s.refused abtRefuse 1
    else if s.abtQuiet < s.rf Reg.ABT_HOLD.MS then s.refused abtRefuse 2
    else .ok (((s.wf Reg.ABT_STATUS.MUTE_0 0).wf Reg.ABT_STATUS.MUTE_1 0).wf Reg.ABT_SRC_LATCH.SRC 0) := by
  have hmuted : (!s.on Reg.ABT_STATUS.MUTE_0 && !s.on Reg.ABT_STATUS.MUTE_1) = true ↔
      ¬ (s.on Reg.ABT_STATUS.MUTE_0 = true ∨ s.on Reg.ABT_STATUS.MUTE_1 = true) := by
    rw [Bool.and_eq_true, Bool.not_eq_true', Bool.not_eq_true', not_or, Bool.not_eq_true, Bool.not_eq_true]
  have hnew : (!s.abtNew.isEmpty) = true ↔ s.abtNew ≠ [] := by simp
  simp only [State.release, hmuted, hnew]

theorem abtRelease_quietly (hlive : s.srcLive = 0) (hsrc : src ≠ .fobex) {w : WRes} (hw : s.release v = w) :
    exec (.abtRelease src v) s = .next w.st := by
  rw [exec_abtRelease src v s hsrc, if_neg (fun h => h hlive), hw]

/-- With a source live every release is refused. -/
theorem release_live_refused (hlive : s.srcLive ≠ 0) : ∃ why, s.release v = s.refused abtRefuse why := by
  rw [s.release_eq]
  by_cases hkey : getBits v 0 16 ≠ 0x3C5A
  · exact ⟨_, if_pos hkey⟩
  · rw [if_neg hkey]
    by_cases hmuted : ¬ (s.on Reg.ABT_STATUS.MUTE_0 = true ∨ s.on Reg.ABT_STATUS.MUTE_1 = true)
    · exact ⟨_, if_pos hmuted⟩
    · exact ⟨_, (if_neg hmuted).trans (if_pos (.inl hlive))⟩

/-- A refusal of the abutment leaves both mutes. -/
theorem abtRefuse_keepsMutes (u : State) (why : Nat) : (u.refuse abtRefuse why).on Reg.ABT_STATUS.MUTE_0 = u.on Reg.ABT_STATUS.MUTE_0 ∧
    (u.refuse abtRefuse why).on Reg.ABT_STATUS.MUTE_1 = u.on Reg.ABT_STATUS.MUTE_1 ∧ (u.refuse abtRefuse why).on Reg.ABT_STATUS.REFUSED = true := by
  have happ (g : Fd) (h : Reg.ABT_STATUS.REFUSED.apart g = true) (h' : Reg.ABT_STATUS.REASON.apart g = true) :
      (u.refuse abtRefuse why).on g = u.on g := by
    rw [State.on, State.on, State.rf_refuse_apart u abtRefuse why g h (by rintro _ ⟨⟩; exact h')]
  refine ⟨happ _ (by decide) (by decide), happ _ (by decide) (by decide), ?_⟩
  show (((u.wf Reg.ABT_STATUS.REFUSED 1).wf Reg.ABT_STATUS.REASON why).raiseIf _ _).on Reg.ABT_STATUS.REFUSED = true
  rw [State.on_raiseIf, State.on_wf_other _ _ _ _ (by decide), State.on_wf_same _ _ _ (by decide)]
  rfl

theorem abtRelease_live (hlive : s.srcLive ≠ 0) : Does (.abtRelease src v) s (fun t => t.on Reg.ABT_STATUS.MUTE_0 = s.on Reg.ABT_STATUS.MUTE_0 ∧
    t.on Reg.ABT_STATUS.MUTE_1 = s.on Reg.ABT_STATUS.MUTE_1 ∧ t.on Reg.ABT_STATUS.REFUSED = true) := by
  by_cases hsrc : src = .fobex
  · exact ⟨_, (exec_abtRelease_fobex src v s hsrc).trans (by rw [if_pos hlive]), abtRefuse_keepsMutes s.notQuiet 7⟩
  · obtain ⟨why, hwhy⟩ := release_live_refused v s.notQuiet hlive
    exact ⟨_, (exec_abtRelease src v s hsrc).trans (by rw [if_pos hlive, hwhy, State.refused_st]), abtRefuse_keepsMutes s.notQuiet why⟩

theorem abtRelease_quiet (hlive : s.srcLive = 0) :
    let key := getBits v 0 16 = 0x3C5A
    let muted := s.on Reg.ABT_STATUS.MUTE_0 = true ∨ s.on Reg.ABT_STATUS.MUTE_1 = true
    let quiet := min 65535 (s.quietUs / 1000)
    (src = .fobex → Refuses (.abtRelease src v) s abtRefuse 7) ∧
    (src ≠ .fobex → ¬ key → Refuses (.abtRelease src v) s abtRefuse 4) ∧
    (src ≠ .fobex → key → ¬ muted → Refuses (.abtRelease src v) s abtRefuse 3) ∧
    (src ≠ .fobex → key → muted → s.abtNew ≠ [] → Refuses (.abtRelease src v) s abtRefuse 1) ∧
    (src ≠ .fobex → key → muted → s.abtNew = [] → quiet < s.rf Reg.ABT_HOLD.MS → Refuses (.abtRelease src v) s abtRefuse 2) ∧
    (src ≠ .fobex → key → muted → s.abtNew = [] → s.rf Reg.ABT_HOLD.MS ≤ quiet → Does (.abtRelease src v) s (fun t => t = { s with io := t.io } ∧
      t.on Reg.ABT_STATUS.MUTE_0 = false ∧ t.on Reg.ABT_STATUS.MUTE_1 = false ∧ t.rf Reg.ABT_SRC_LATCH.SRC = 0)) := by
  intro key muted quiet
  have hquiet : s.abtQuiet = quiet := if_neg (fun h => h hlive)
  have hrel := s.release_eq v
  have hnone (hnew : s.abtNew = []) : ¬ (s.srcLive ≠ 0 ∨ s.abtNew ≠ []) := by simp [hlive, hnew]
  refine ⟨fun hsrc => ?_, fun hsrc hkey => ?_, fun hsrc hkey hmuted => ?_, fun hsrc hkey hmuted hnew => ?_, fun hsrc hkey hmuted hnew hhold => ?_,
    fun hsrc hkey hmuted hnew hhold => ?_⟩
  · exact refuses_of_exec (by decide) ((exec_abtRelease_fobex src v s hsrc).trans (by rw [if_neg (fun h => h hlive)]))
  · exact refuses_of_exec (by decide) (abtRelease_quietly src v s hlive hsrc (hrel.trans (if_pos hkey)))
  · rw [if_neg (not_not.2 hkey), if_pos hmuted] at hrel
    exact refuses_of_exec (by decide) (abtRelease_quietly src v s hlive hsrc hrel)
  · rw [if_neg (not_not.2 hkey), if_neg (not_not.2 hmuted), if_pos (.inr hnew)] at hrel
    exact refuses_of_exec (by decide) (abtRelease_quietly src v s hlive hsrc hrel)
  · rw [if_neg (not_not.2 hkey), if_neg (not_not.2 hmuted), if_neg (hnone hnew), if_pos (by rw [hquiet]; exact hhold)] at hrel
    exact refuses_of_exec (by decide) (abtRelease_quietly src v s hlive hsrc hrel)
  · rw [if_neg (not_not.2 hkey), if_neg (not_not.2 hmuted), if_neg (hnone hnew), if_neg (by rw [hquiet]; exact not_lt.2 hhold)] at hrel
    refine ⟨_, abtRelease_quietly src v s hlive hsrc hrel, rfl, ?_, ?_, ?_⟩
    · rw [WRes.ok_st, State.on_wf_other _ _ _ _ (by decide), State.on_wf_other _ _ _ _ (by decide), State.on_wf_same _ _ _ (by decide)]; rfl
    · rw [WRes.ok_st, State.on_wf_other _ _ _ _ (by decide), State.on_wf_same _ _ _ (by decide)]; rfl
    · rw [WRes.ok_st, State.rf_wf_same _ _ _ (by decide)]; rfl

end

/-- Settles O54: what a source latches, by whether its bit was latched; a release by the reason it meets. -/
theorem abutmentLatchesAndReleases : Obligations.AbutmentLatchesAndReleases := by
  refine ⟨fun i s => ?_, clockedMuteSource_holds, fun s => ⟨fun h => ?_, fun i fresh rest h => sourceLatchSync_counts s h⟩,
    fun src v s => ⟨abtRelease_quiet src v s, abtRelease_live src v s⟩⟩
  · obtain ⟨hovr, hestop⟩ := abutmentTrip_latches i s
    exact ⟨hovr, hestop, abutmentSourceClear_clears i s⟩
  · refine ⟨s, congrArg Host.Outcome.next ?_, rfl⟩
    rw [State.syncSource, h]

end Sys2Proof.Machine
end

section
/-!
PROOFS. The GIO island: pins, PWM and triggers (R502 to R505, R510, R512).
-/

namespace Sys2Proof.Claims
open Sys2Proof.Machine

/-! ## Changes of the GIO island -/

section
variable {s t : State} {as : List Nat} {es : List (Fin 64)}

/-- A change of registers and events beside the island's own state. -/
theorem gioOnly_of_regs {g : Gio} (h : Regs { s with gio := g } t as es) : GioOnly s t as es := by
  have hg : t.gio = g := by rw [h.1]
  subst hg
  exact h

theorem gioOnly_onGio (h : Regs s t as es) (f : Gio → Gio) : GioOnly s (t.onGio f) as es :=
  ⟨congrArg (fun u : State => u.onGio f) h.1 |>.trans (by rw [h.1]; rfl), h.2⟩

end

end Sys2Proof.Claims

namespace Sys2Proof.Machine
open Sys2Proof.Claims

section
variable (s : State) (n : Nat) (f : Gio → Gio) (g : Fd)

@[simp] theorem State.rf_onGio : (s.onGio f).rf g = s.rf g := rfl
@[simp] theorem State.on_onGio : (s.onGio f).on g = s.on g := rfl
@[simp] theorem State.reg_onGio (a : Nat) : (s.onGio f).reg a = s.reg a := rfl
@[simp] theorem State.gio_onGio : (s.onGio f).gio = f s.gio := rfl

@[simp] theorem State.pwm_setPwm_same (v : PwmCh) : (s.setPwm n v).pwm n = v := SMap.get_set_same _ _ _ _
@[simp] theorem State.uart_setUart_same (v : Uart) : (s.setUart n v).uart n = v := SMap.get_set_same _ _ _ _
@[simp] theorem State.i2c_setI2c_same (v : I2cM) : (s.setI2c n v).i2c n = v := SMap.get_set_same _ _ _ _
@[simp] theorem State.spi_setSpi_same (v : SpiM) : (s.setSpi n v).spi n = v := SMap.get_set_same _ _ _ _

theorem State.pwm_setPwm_other {k : Nat} (v : PwmCh) (h : k ≠ n) : (s.setPwm n v).pwm k = s.pwm k := SMap.get_set_other _ _ _ _ _ _ h
theorem State.uart_setUart_other {k : Nat} (v : Uart) (h : k ≠ n) : (s.setUart n v).uart k = s.uart k := SMap.get_set_other _ _ _ _ _ _ h

/-- While the island is ONLINE a command of it does what it does. -/
theorem exec_of_gioStep {i : Instr} {s t : State} (hon : s.online islGio = true) (h : exec i s = gioStep s t) : exec i s = .next t :=
  h.trans (if_pos hon)

end

/-! ## Output bits and edges (R502, R503) -/

section
variable (s : State) (b : Fin 2) (i : Fin 32) (level : Bool) (v : Word) (hon : s.online islGio = true)

theorem bankMask_and : v &&& bankMask b.val = if b = 0 then v else v &&& 0xFFFF := by
  fin_cases b
  · exact BitVec.and_allOnes
  · rfl

include hon

theorem gpioOset_sets : Does (.gpioOset b v) s (fun t => GioOnly s t [Reg.GPIO_OUT_at b.val] [] ∧ t.reg (Reg.GPIO_OUT_at b.val) =
    s.reg (Reg.GPIO_OUT_at b.val) ||| (if b = 0 then v else v &&& 0xFFFF)) := by
  refine ⟨_, exec_of_gioStep hon rfl, gioOnly_of_regs (g := s.gio) (regs_setReg s _ _), ?_⟩
  rw [State.outBits, State.reg_setReg_same, if_pos rfl, bankMask_and]

theorem gpioOclr_clears : Does (.gpioOclr b v) s (fun t => GioOnly s t [Reg.GPIO_OUT_at b.val] [] ∧
    t.reg (Reg.GPIO_OUT_at b.val) = s.reg (Reg.GPIO_OUT_at b.val) &&& ~~~ v) := by
  refine ⟨_, exec_of_gioStep hon rfl, gioOnly_of_regs (g := s.gio) (regs_setReg s _ _), ?_⟩
  rw [State.outBits, State.reg_setReg_same]
  rfl

end

section
variable (s : State) (b : Fin 2) (i : Fin 32) (level : Bool)

theorem gpioAddrs : ∀ b : Fin 2, Reg.GPIO_RISE_at b.val ≠ Reg.GPIO_IN_at b.val ∧ Reg.GPIO_FALL_at b.val ≠ Reg.GPIO_IN_at b.val ∧
    Reg.GPIO_EDGE_at b.val ≠ Reg.GPIO_IN_at b.val ∧ Reg.GPIO_EVCFG_at ≠ Reg.GPIO_IN_at b.val ∧ Reg.GPIO_EVCFG_at ≠ Reg.GPIO_EDGE_at b.val := by
  decide

/-- An edge selected by RISE or FALL (R503). -/
def State.edgeSel : Bool :=
  (!s.bit (Reg.GPIO_IN.PINS b.val) i.val && level && s.bit (Reg.GPIO_RISE.PINS b.val) i.val) ||
    (s.bit (Reg.GPIO_IN.PINS b.val) i.val && !level && s.bit (Reg.GPIO_FALL.PINS b.val) i.val)

theorem State.edgeSel_iff : s.edgeSel b i level = true ↔
    (s.bit (Reg.GPIO_IN.PINS b.val) i.val = false ∧ level = true ∧ s.bit (Reg.GPIO_RISE.PINS b.val) i.val = true) ∨
      (s.bit (Reg.GPIO_IN.PINS b.val) i.val = true ∧ level = false ∧ s.bit (Reg.GPIO_FALL.PINS b.val) i.val = true) := by
  simp only [State.edgeSel, Bool.or_eq_true, Bool.and_eq_true, Bool.not_eq_true', and_assoc]

theorem State.pinLevel_eq : s.pinLevel b.val i.val level =
    if (s.edgeSel b i level && !s.bit (Reg.GPIO_EDGE.PINS b.val) i.val) = true then
      ((s.setBit (Reg.GPIO_IN.PINS b.val) i.val level).setBit (Reg.GPIO_EDGE.PINS b.val) i.val true).edgeEvent
    else s.setBit (Reg.GPIO_IN.PINS b.val) i.val level := by
  obtain ⟨hrise, hfall, hedge, -, -⟩ := gpioAddrs b
  have hkeep (f : Fd) (h : f.addr ≠ Reg.GPIO_IN_at b.val) : (s.setBit (Reg.GPIO_IN.PINS b.val) i.val level).bit f i.val = s.bit f i.val :=
    State.bit_congr (s.reg_setBit_other _ _ _ _ h) _
  rw [State.pinLevel, hkeep _ hrise, hkeep _ hfall, hkeep _ hedge]
  rfl

theorem gpioEdge_latches (hon : s.online islGio = true) (hpin : b = 0 ∨ i.val < 16) :
    let was := s.bit (Reg.GPIO_IN.PINS b.val) i.val
    let sel := (was = false ∧ level = true ∧ s.bit (Reg.GPIO_RISE.PINS b.val) i.val = true) ∨
      (was = true ∧ level = false ∧ s.bit (Reg.GPIO_FALL.PINS b.val) i.val = true)
    Does (.gpioEdge b i level) s (fun t => t.bit (Reg.GPIO_IN.PINS b.val) i.val = level ∧
      (∀ j : Fin 32, j ≠ i → t.bit (Reg.GPIO_IN.PINS b.val) j.val = s.bit (Reg.GPIO_IN.PINS b.val) j.val) ∧
      (sel → s.bit (Reg.GPIO_EDGE.PINS b.val) i.val = false → GioOnly s t [Reg.GPIO_IN_at b.val, Reg.GPIO_EDGE_at b.val] (edgeEv s) ∧
        t.bit (Reg.GPIO_EDGE.PINS b.val) i.val = true) ∧
      (¬ sel ∨ s.bit (Reg.GPIO_EDGE.PINS b.val) i.val = true → GioOnly s t [Reg.GPIO_IN_at b.val] [])) := by
  intro was sel
  obtain ⟨-, -, hedge, hevIn, hevEdge⟩ := gpioAddrs b
  have hrun : exec (.gpioEdge b i level) s = .next (s.pinLevel b.val i.val level) :=
    (if_neg (show ¬ (b.val = 1 ∧ 16 ≤ i.val) from by rcases hpin with rfl | h <;> omega)).trans (if_pos hon)
  have hin := s.bit_setBit_same (Reg.GPIO_IN.PINS b.val) i.val level (Nat.lt_of_le_of_lt (Nat.zero_add _).le i.isLt)
  have hother (j : Fin 32) (hj : j ≠ i) : (s.setBit (Reg.GPIO_IN.PINS b.val) i.val level).bit (Reg.GPIO_IN.PINS b.val) j.val =
      s.bit (Reg.GPIO_IN.PINS b.val) j.val := s.bit_setBit_other _ _ _ _ _ (.inr (fun h => hj (Fin.ext (Nat.add_left_cancel h))))
  refine ⟨_, hrun, ?_⟩
  rw [s.pinLevel_eq b i level]
  by_cases hlatch : (s.edgeSel b i level && !s.bit (Reg.GPIO_EDGE.PINS b.val) i.val) = true
  · rw [if_pos hlatch]
    obtain ⟨hsel, hclear⟩ := Bool.and_eq_true_iff.1 hlatch
    rw [Bool.not_eq_true'] at hclear
    have hkeepIn (k : Nat) : (((s.setBit (Reg.GPIO_IN.PINS b.val) i.val level).setBit (Reg.GPIO_EDGE.PINS b.val) i.val true).edgeEvent).bit
        (Reg.GPIO_IN.PINS b.val) k = (s.setBit (Reg.GPIO_IN.PINS b.val) i.val level).bit (Reg.GPIO_IN.PINS b.val) k :=
      State.bit_congr ((State.reg_raiseIf _ _ _ _).trans (State.reg_setBit_other _ _ _ _ _ hedge.symm)) k
    refine ⟨(hkeepIn _).trans hin, fun j hj => (hkeepIn _).trans (hother j hj), fun _ _ => ⟨?_, ?_⟩, fun hno => ?_⟩
    · refine gioOnly_of_regs (g := s.gio) ((((regs_refl s _).setBit (Reg.GPIO_IN.PINS b.val) i.val level (.head _)).setBit
        (Reg.GPIO_EDGE.PINS b.val) i.val true (.tail _ (.head _))).raiseIf _ _ (ev_congr ?_ ?_))
      all_goals exact (State.reg_setBit_other _ _ _ _ _ hevEdge).trans (State.reg_setBit_other _ _ _ _ _ hevIn)
    · exact (State.bit_congr (State.reg_raiseIf _ _ _ _) _).trans (State.bit_setBit_same _ _ _ _ (Nat.lt_of_le_of_lt (Nat.zero_add _).le i.isLt))
    · rcases hno with h | h
      · exact absurd ((s.edgeSel_iff b i level).1 hsel) h
      · exact absurd (hclear.symm.trans h) Bool.false_ne_true
  · rw [if_neg hlatch]
    refine ⟨hin, hother, fun hsel hclear => ?_, fun _ => gioOnly_of_regs (g := s.gio) ((regs_refl s _).setBit _ _ _ (.head _))⟩
    exact absurd (by rw [(s.edgeSel_iff b i level).2 hsel, hclear]; rfl) hlatch

end

/-! ## PWM (R504, R505) -/

section
variable (s : State) (c : Fin 16) (v : Word)

theorem pwm_takes : ∀ c : Fin 16, (Reg.PWM_CFG.PRESCALE c.val).takes .all = true ∧ (Reg.PWM_CFG.POL c.val).takes .all = true ∧
    (Reg.PWM_CFG.SAFE c.val).takes .all = true := by decide

theorem pwmAddrs : ∀ c : Fin 16, Reg.PWM_PERIOD_at c.val ≠ Reg.PWM_CFG_at c.val ∧ Reg.PWM_DUTY_at c.val ≠ Reg.PWM_CFG_at c.val ∧
    Reg.WDT_STATUS_at ≠ Reg.PWM_CFG_at c.val ∧ Reg.GPIO_EVCFG_at ≠ Reg.PWM_CFG_at c.val ∧ Reg.GPIO_STATUS_at ≠ Reg.PWM_CFG_at c.val := by decide

theorem pwmPeriodBoundary_loads (hon : s.online islGio = true) (hen : s.on (Reg.PWM_CFG.EN c.val) = true) :
    Does (.pwmPeriodBoundary c) s (fun t => GioOnly s t [] [] ∧ t.pwm c.val =
      ⟨s.rf (Reg.PWM_PERIOD.PERIOD c.val), s.rf (Reg.PWM_DUTY.DUTY c.val), s.on (Reg.PWM_CFG.SAFE c.val) && s.on Reg.WDT_STATUS.STAGE1⟩ ∧
      ∀ k, k ≠ c.val → t.pwm k = s.pwm k) := by
  refine ⟨s.pwmLoad c.val, (if_pos hen).trans (if_pos hon), ?_, ?_, fun k hk => s.pwm_setPwm_other _ _ hk⟩
  · rw [State.pwmLoad, State.setPwm]
    exact gioOnly_onGio (regs_refl s _) _
  rw [State.pwmLoad, State.pwm_setPwm_same, State.pwmHold, Bool.not_true, Bool.false_and, Bool.or_false]

/-- The fields of PWM_CFG that EN keeps from changing (R504). -/
def State.pwmBad : List Fd :=
  (if s.on (Reg.PWM_CFG.EN c.val) = true ∧ getBits v 0 20 ≠ s.rf (Reg.PWM_CFG.PRESCALE c.val) then [Reg.PWM_CFG.PRESCALE c.val] else []) ++
    (if s.on (Reg.PWM_CFG.EN c.val) = true ∧ getBits v 30 1 ≠ s.rf (Reg.PWM_CFG.POL c.val) then [Reg.PWM_CFG.POL c.val] else [])

/-- PWM_CFG written: the register, then the channel. -/
def State.pwmApply (was : Bool) : State :=
  (if (!was && s.on (Reg.PWM_CFG.EN c.val)) = true then s.pwmLoad c.val else s).setPwm c.val
    { (if (!was && s.on (Reg.PWM_CFG.EN c.val)) = true then s.pwmLoad c.val else s).pwm c.val with
      hold := (if (!was && s.on (Reg.PWM_CFG.EN c.val)) = true then s.pwmLoad c.val else s).pwmHold c.val false }

theorem State.writePwmCfg_st : (s.writePwmCfg c.val v).st =
    (s.writeBut .all gioRefuse 4 2 (Reg.PWM_CFG_at c.val) v (s.pwmBad c v)).st.pwmApply c (s.on (Reg.PWM_CFG.EN c.val)) := rfl

theorem exec_pwmCfgWrite (hon : s.online islGio = true) {w : WRes} (hw : s.writeBut .all gioRefuse 4 2 (Reg.PWM_CFG_at c.val) v (s.pwmBad c v) = w) :
    exec (.pwmCfgWrite c v) s = .next (w.st.pwmApply c (s.on (Reg.PWM_CFG.EN c.val))) := by
  rw [← hw]
  exact exec_of_gioStep hon rfl

theorem State.getBits_pwmKept (hen : s.on (Reg.PWM_CFG.EN c.val) = true) :
    getBits (s.keeping v (s.pwmBad c v)) 0 20 = s.rf (Reg.PWM_CFG.PRESCALE c.val) ∧
    getBits (s.keeping v (s.pwmBad c v)) 30 1 = s.rf (Reg.PWM_CFG.POL c.val) ∧
    getBits (s.keeping v (s.pwmBad c v)) 29 1 = getBits v 29 1 := by
  have hpre : s.rf (Reg.PWM_CFG.PRESCALE c.val) % 2 ^ 20 = s.rf (Reg.PWM_CFG.PRESCALE c.val) := Nat.mod_eq_of_lt (getBits_lt _ _ _)
  have hpol : s.rf (Reg.PWM_CFG.POL c.val) % 2 ^ 1 = s.rf (Reg.PWM_CFG.POL c.val) := Nat.mod_eq_of_lt (getBits_lt _ _ _)
  have hput (w : Word) : getBits (putBits w 0 20 (s.rf (Reg.PWM_CFG.PRESCALE c.val))) 0 20 = s.rf (Reg.PWM_CFG.PRESCALE c.val) ∧
      getBits (putBits w 0 20 (s.rf (Reg.PWM_CFG.PRESCALE c.val))) 30 1 = getBits w 30 1 ∧
      getBits (putBits w 0 20 (s.rf (Reg.PWM_CFG.PRESCALE c.val))) 29 1 = getBits w 29 1 :=
    ⟨(getBits_putBits_same _ _ _ _ (by decide)).trans hpre, getBits_putBits_other _ _ _ _ _ _ (.inr (by decide)),
      getBits_putBits_other _ _ _ _ _ _ (.inr (by decide))⟩
  have hput' (w : Word) : getBits (putBits w 30 1 (s.rf (Reg.PWM_CFG.POL c.val))) 0 20 = getBits w 0 20 ∧
      getBits (putBits w 30 1 (s.rf (Reg.PWM_CFG.POL c.val))) 30 1 = s.rf (Reg.PWM_CFG.POL c.val) ∧
      getBits (putBits w 30 1 (s.rf (Reg.PWM_CFG.POL c.val))) 29 1 = getBits w 29 1 :=
    ⟨getBits_putBits_other _ _ _ _ _ _ (.inl (by decide)), (getBits_putBits_same _ _ _ _ (by decide)).trans hpol,
      getBits_putBits_other _ _ _ _ _ _ (.inl (by decide))⟩
  unfold State.pwmBad
  by_cases hp : getBits v 0 20 = s.rf (Reg.PWM_CFG.PRESCALE c.val)
  · rw [if_neg (fun h => h.2 hp)]
    by_cases hq : getBits v 30 1 = s.rf (Reg.PWM_CFG.POL c.val)
    · rw [if_neg (fun h => h.2 hq)]
      exact ⟨hp, hq, rfl⟩
    · rw [if_pos ⟨hen, hq⟩]
      exact ⟨(hput' v).1.trans hp, (hput' v).2.1, (hput' v).2.2⟩
  · rw [if_pos ⟨hen, hp⟩]
    by_cases hq : getBits v 30 1 = s.rf (Reg.PWM_CFG.POL c.val)
    · rw [if_neg (fun h => h.2 hq)]
      exact ⟨(hput v).1, (hput v).2.1.trans hq, (hput v).2.2⟩
    · rw [if_pos ⟨hen, hq⟩]
      exact ⟨(hput' _).1.trans (hput v).1, (hput' _).2.1, (hput' _).2.2.trans (hput v).2.2⟩

theorem State.pwmBad_ne_nil (hen : s.on (Reg.PWM_CFG.EN c.val) = true)
    (hbad : getBits v 0 20 ≠ s.rf (Reg.PWM_CFG.PRESCALE c.val) ∨ getBits v 30 1 ≠ s.rf (Reg.PWM_CFG.POL c.val)) : s.pwmBad c v ≠ [] := by
  unfold State.pwmBad
  rcases hbad with h | h
  · rw [if_pos ⟨hen, h⟩]; exact List.cons_ne_nil _ _
  · refine List.append_ne_nil_of_right_ne_nil _ ?_
    rw [if_pos ⟨hen, h⟩]
    exact List.cons_ne_nil _ _

theorem State.pwmBad_off (hen : s.on (Reg.PWM_CFG.EN c.val) = false) : s.pwmBad c v = [] := by
  simp [State.pwmBad, hen]

/-- The fields of PWM_CFG after a write. -/
theorem State.rf_writePwm (w : Word) : (s.writeReg .all (Reg.PWM_CFG_at c.val) w).rf (Reg.PWM_CFG.PRESCALE c.val) = getBits w 0 20 ∧
    (s.writeReg .all (Reg.PWM_CFG_at c.val) w).rf (Reg.PWM_CFG.POL c.val) = getBits w 30 1 ∧
    (s.writeReg .all (Reg.PWM_CFG_at c.val) w).rf (Reg.PWM_CFG.SAFE c.val) = getBits w 29 1 :=
  ⟨s.rf_writeReg_takes .all (Reg.PWM_CFG.PRESCALE c.val) w (pwm_takes c).1, s.rf_writeReg_takes .all (Reg.PWM_CFG.POL c.val) w (pwm_takes c).2.1,
    s.rf_writeReg_takes .all (Reg.PWM_CFG.SAFE c.val) w (pwm_takes c).2.2⟩

theorem eq_of_ite_kept {p a b : Nat} (h : p = b) : p = if a = b then a else b := by
  split
  · rename_i hab; exact h.trans hab.symm
  · exact h

theorem gioOnly_setPwm {t : State} {as : List Nat} {es : List (Fin 64)} (h : Regs s t as es) (n : Nat) (x : PwmCh) : GioOnly s (t.setPwm n x) as es :=
  gioOnly_onGio h _

theorem pwmCfgWrite_refused (hon : s.online islGio = true) (hen : s.on (Reg.PWM_CFG.EN c.val) = true)
    (hbad : getBits v 0 20 ≠ s.rf (Reg.PWM_CFG.PRESCALE c.val) ∨ getBits v 30 1 ≠ s.rf (Reg.PWM_CFG.POL c.val)) :
    Does (.pwmCfgWrite c v) s (fun t => GioOnly s t [Reg.PWM_CFG_at c.val, Reg.GPIO_STATUS_at] (ev s (Reg.GPIO_EVCFG.REFUSE_EVENT, Reg.GPIO_EVCFG.REFUSE_EN)) ∧
      t.on Reg.GPIO_STATUS.REFUSED = true ∧ t.rf Reg.GPIO_STATUS.REASON = 2 ∧ t.rf (Reg.PWM_CFG.SAFE c.val) = getBits v 29 1 ∧
      (t.rf (Reg.PWM_CFG.PRESCALE c.val) = if getBits v 0 20 = s.rf (Reg.PWM_CFG.PRESCALE c.val) then getBits v 0 20 else s.rf (Reg.PWM_CFG.PRESCALE c.val)) ∧
      (t.rf (Reg.PWM_CFG.POL c.val) = if getBits v 30 1 = s.rf (Reg.PWM_CFG.POL c.val) then getBits v 30 1 else s.rf (Reg.PWM_CFG.POL c.val))) := by
  obtain ⟨hpre, hpol, hsafe⟩ := s.getBits_pwmKept c v hen
  obtain ⟨-, -, -, hev, hst⟩ := pwmAddrs c
  generalize hw : s.keeping v (s.pwmBad c v) = w at hpre hpol hsafe
  obtain ⟨htpre, htpol, htsafe⟩ := s.rf_writePwm c w
  have hwrite : (s.writeBut .all gioRefuse 4 2 (Reg.PWM_CFG_at c.val) v (s.pwmBad c v)).st = (s.writeReg .all (Reg.PWM_CFG_at c.val) w).refuse gioRefuse 2 := by
    rw [State.writeBut_all, if_neg (s.pwmBad_ne_nil c v hen hbad), hw, State.refused_st]
  obtain ⟨hregs, hset, hreason, hfields⟩ := refused_write_regs (r := gioRefuse) (why := 2) (by decide)
    (by intro b hb; rcases List.mem_pair.1 hb with rfl | rfl <;> exact hst) (by rintro _ ⟨⟩; exact ⟨hev, hev⟩) hwrite
  have hrun := exec_pwmCfgWrite s c v hon rfl
  rw [hen] at hrun
  generalize (s.writeBut .all gioRefuse 4 2 (Reg.PWM_CFG_at c.val) v (s.pwmBad c v)).st = u at hrun hregs hset hreason hfields
  refine ⟨u.pwmApply c true, hrun, gioOnly_setPwm s (hregs.mono ?_) _ _, congrArg (· != 0) hset, hreason _ rfl, (hfields _ rfl).trans (htsafe.trans hsafe),
    eq_of_ite_kept ((hfields _ rfl).trans (htpre.trans hpre)), eq_of_ite_kept ((hfields _ rfl).trans (htpol.trans hpol))⟩
  intro a ha
  rcases List.mem_cons.1 ha with rfl | ha
  · exact .head _
  · rcases List.mem_pair.1 ha with rfl | rfl <;> exact .tail _ (.head _)

theorem pwmCfgWrite_loads (hon : s.online islGio = true) (hen : s.on (Reg.PWM_CFG.EN c.val) = false) :
    Does (.pwmCfgWrite c v) s (fun t => GioOnly s t [Reg.PWM_CFG_at c.val] [] ∧
      t.rf (Reg.PWM_CFG.PRESCALE c.val) = getBits v 0 20 ∧ t.rf (Reg.PWM_CFG.POL c.val) = getBits v 30 1 ∧
      (t.on (Reg.PWM_CFG.EN c.val) = true → (t.pwm c.val).period = s.rf (Reg.PWM_PERIOD.PERIOD c.val) ∧ (t.pwm c.val).duty = s.rf (Reg.PWM_DUTY.DUTY c.val)) ∧
      (t.on (Reg.PWM_CFG.SAFE c.val) = true → s.on Reg.WDT_STATUS.STAGE1 = true → (t.pwm c.val).hold = true ∧ ∀ k, t.pwmActive c.val k = false)) := by
  obtain ⟨hper, hduty, hwdt, -, -⟩ := pwmAddrs c
  obtain ⟨htpre, htpol, -⟩ := s.rf_writePwm c v
  have hwrite : (s.writeBut .all gioRefuse 4 2 (Reg.PWM_CFG_at c.val) v (s.pwmBad c v)).st = s.writeReg .all (Reg.PWM_CFG_at c.val) v := by
    rw [s.pwmBad_off c v hen]
    exact congrArg WRes.st ((State.writeBut_all _ _ _ _ _ _ _).trans (if_pos rfl))
  have hrun := exec_pwmCfgWrite s c v hon rfl
  rw [hen, hwrite] at hrun
  have hregs := regs_writeReg s .all (Reg.PWM_CFG_at c.val) v
  generalize s.writeReg .all (Reg.PWM_CFG_at c.val) v = u at hrun hregs htpre htpol
  have hkeep (f : Fd) (h : f.addr ≠ Reg.PWM_CFG_at c.val) : u.rf f = s.rf f := by
    rw [State.rf, State.rf, hregs.2 _ (fun hm => h (List.mem_singleton.1 hm))]
  have hload (x : State) (hx : x = if (!false && u.on (Reg.PWM_CFG.EN c.val)) = true then u.pwmLoad c.val else u) :
      GioOnly s (x.setPwm c.val { x.pwm c.val with hold := x.pwmHold c.val false }) [Reg.PWM_CFG_at c.val] [] ∧ (∀ f, x.rf f = u.rf f) ∧
        (u.on (Reg.PWM_CFG.EN c.val) = true → (x.pwm c.val).period = u.rf (Reg.PWM_PERIOD.PERIOD c.val) ∧
          (x.pwm c.val).duty = u.rf (Reg.PWM_DUTY.DUTY c.val)) := by
    subst hx
    cases hcen : u.on (Reg.PWM_CFG.EN c.val)
    · exact ⟨gioOnly_setPwm s hregs _ _, fun _ => rfl, nofun⟩
    · refine ⟨⟨?_, hregs.2⟩, fun _ => rfl, fun _ => ?_⟩
      · rw [hregs.eq_io, List.append_nil]
        rfl
      · rw [show (if (!false && true) = true then u.pwmLoad c.val else u) = u.pwmLoad c.val from rfl, State.pwmLoad, State.pwm_setPwm_same]
        exact ⟨rfl, rfl⟩
  unfold State.pwmApply at hrun
  generalize hx : (if (!false && u.on (Reg.PWM_CFG.EN c.val)) = true then u.pwmLoad c.val else u) = x at hrun
  obtain ⟨hgio, hrf, hloaded⟩ := hload x hx.symm
  have hxon (f : Fd) : x.on f = u.on f := by rw [State.on, State.on, hrf]
  refine ⟨_, hrun, hgio, (hrf _).trans htpre, (hrf _).trans htpol, fun hcen => ?_, fun hsafe hstage => ?_⟩
  · rw [State.pwm_setPwm_same]
    obtain ⟨hp, hd⟩ := hloaded ((hxon _).symm.trans hcen)
    exact ⟨hp.trans (hkeep _ hper), hd.trans (hkeep _ hduty)⟩
  · have hhold : x.pwmHold c.val false = true := by
      have h1 : x.on (Reg.PWM_CFG.SAFE c.val) = true := hsafe
      have h2 : x.on Reg.WDT_STATUS.STAGE1 = true := by rw [hxon, State.on, hkeep _ hwdt]; exact hstage
      rw [State.pwmHold, h1, h2]; rfl
    rw [State.pwm_setPwm_same]
    refine ⟨hhold, fun k => ?_⟩
    rw [State.pwmActive, State.pwm_setPwm_same]
    simp only [hhold, Bool.not_true, Bool.and_false, Bool.false_and]

end

/-! ## Triggers (R510) -/

section
variable (s : State) (level : Bool) (v : Word)

theorem on_b2n {x : Bool} {t : State} {f : Fd} (h : t.rf f = b2n x) : t.on f = x := by
  rw [State.on, h]; cases x <;> rfl

theorem State.on_wf_b2n (f : Fd) (h : f.lo + 1 ≤ 32) (hw : f.width = 1) : (s.wf f (b2n level)).on f = level := by
  rw [State.on_wf_same _ _ _ (hw ▸ h), hw]; cases level <;> rfl

theorem trigIn_rises (hon : s.online islGio = true) (hin : s.on Reg.GPIO_TRIG.IN = false) :
    Does (.trigIn true) s (fun t => t = { s with io := t.io, trigs := s.trigs ++ [5], net := t.net } ∧
      t.net = { s.net with events := s.net.events ++ edgeEv s } ∧ t.on Reg.GPIO_TRIG.IN = true ∧ t.on Reg.GPIO_TRIG.IN_SEEN = true) := by
  have hrun : s.trigIn true = ({ ((s.wf Reg.GPIO_TRIG.IN 1).wf Reg.GPIO_TRIG.IN_SEEN 1) with trigs := s.trigs ++ [5] } : State).edgeEvent := by
    rw [State.trigIn, hin]; rfl
  have hregs : Regs s ((s.wf Reg.GPIO_TRIG.IN 1).wf Reg.GPIO_TRIG.IN_SEEN 1) [Reg.GPIO_TRIG_at] [] :=
    ((regs_refl s _).wf Reg.GPIO_TRIG.IN 1 (.head _)).wf Reg.GPIO_TRIG.IN_SEEN 1 (.head _)
  have h1 : ((s.wf Reg.GPIO_TRIG.IN 1).wf Reg.GPIO_TRIG.IN_SEEN 1).on Reg.GPIO_TRIG.IN = true :=
    (State.on_wf_other _ _ _ _ (by decide)).trans (s.on_wf_b2n true Reg.GPIO_TRIG.IN (by decide) rfl)
  have h2 : ((s.wf Reg.GPIO_TRIG.IN 1).wf Reg.GPIO_TRIG.IN_SEEN 1).on Reg.GPIO_TRIG.IN_SEEN = true :=
    State.on_wf_b2n _ true Reg.GPIO_TRIG.IN_SEEN (by decide) rfl
  refine ⟨_, exec_of_gioStep hon rfl, ?_⟩
  rw [hrun]
  generalize (s.wf Reg.GPIO_TRIG.IN 1).wf Reg.GPIO_TRIG.IN_SEEN 1 = u at hregs h1 h2
  have hev : ev u (Reg.GPIO_EVCFG.EDGE_EVENT, Reg.GPIO_EVCFG.EDGE_EN) = edgeEv s :=
    ev_congr (hregs.2 _ (by decide)) (hregs.2 _ (by decide))
  rw [State.edgeEvent, State.raiseIf_eq]
  have hu := hregs.eq_io
  have hnet : u.net = s.net := by rw [hu]
  refine ⟨by rw [hu], ?_, h1, h2⟩
  rw [← hev, ← hnet]
  rfl

theorem trigIn_stays (hon : s.online islGio = true) (hno : level = false ∨ s.on Reg.GPIO_TRIG.IN = true) :
    Does (.trigIn level) s (fun t => t = { s with io := t.io } ∧ t.on Reg.GPIO_TRIG.IN = level ∧
      t.on Reg.GPIO_TRIG.IN_SEEN = s.on Reg.GPIO_TRIG.IN_SEEN) := by
  have hrun : s.trigIn level = s.wf Reg.GPIO_TRIG.IN (b2n level) := by
    rw [State.trigIn]
    rcases hno with h | h
    · rw [h]; rfl
    · rw [h]; simp
  refine ⟨_, exec_of_gioStep hon rfl, ?_⟩
  rw [hrun]
  exact ⟨((regs_refl s _).wf Reg.GPIO_TRIG.IN (b2n level) (.head [])).eq_io, s.on_wf_b2n level _ (by decide) rfl, s.on_wf_other _ _ _ (by decide)⟩

/-- GPIO_TRIG written with PULSE (R510). -/
theorem writeTrig_pulse : (s.writeTrig (putBits v 9 1 1)).st =
    (s.writeBut .all gioRefuse 4 1 Reg.GPIO_TRIG_at (putBits (putBits v 9 1 1) 9 1 0)
      (if getBits v 16 16 = 0 then [Reg.GPIO_TRIG.WIDTH] else [])).st.onGio (fun g => { g with pulse := true }) := by
  have hpulse : getBits (putBits v 9 1 1) 9 1 = 1 := getBits_putBits_same _ _ _ _ (by decide)
  have hwidth : getBits (putBits v 9 1 1) 16 16 = getBits v 16 16 := getBits_putBits_other _ _ _ _ _ _ (.inr (by decide))
  rw [State.writeTrig, hpulse, hwidth]
  rfl

theorem getBits_trig {lo width : Nat} (h : lo + width ≤ 9 ∨ 10 ≤ lo) : getBits (putBits (putBits v 9 1 1) 9 1 0) lo width = getBits v lo width :=
  (getBits_putBits_other _ _ _ _ _ _ h).trans (getBits_putBits_other _ _ _ _ _ _ h)

theorem State.rf_writeTrig (w : Word) : (s.writeReg .all Reg.GPIO_TRIG_at w).rf Reg.GPIO_TRIG.WIDTH = getBits w 16 16 ∧
    (s.writeReg .all Reg.GPIO_TRIG_at w).rf Reg.GPIO_TRIG.OUT = getBits w 8 1 :=
  ⟨s.rf_writeReg_takes .all Reg.GPIO_TRIG.WIDTH w (by decide), s.rf_writeReg_takes .all Reg.GPIO_TRIG.OUT w (by decide)⟩

theorem exec_trigPulse (hon : s.online islGio = true) : exec (.trigPulse v) s =
    .next ((s.writeBut .all gioRefuse 4 1 Reg.GPIO_TRIG_at (putBits (putBits v 9 1 1) 9 1 0)
      (if getBits v 16 16 = 0 then [Reg.GPIO_TRIG.WIDTH] else [])).st.onGio (fun g => { g with pulse := true })) :=
  (exec_of_gioStep (t := (s.writeTrig (putBits v 9 1 1)).st) hon rfl).trans (congrArg Host.Outcome.next (writeTrig_pulse s v))

theorem trigPulse_refused (hon : s.online islGio = true) (hw : getBits v 16 16 = 0) : Does (.trigPulse v) s (fun t =>
    GioOnly s t [Reg.GPIO_TRIG_at, Reg.GPIO_STATUS_at] (ev s (Reg.GPIO_EVCFG.REFUSE_EVENT, Reg.GPIO_EVCFG.REFUSE_EN)) ∧
    t.on Reg.GPIO_STATUS.REFUSED = true ∧ t.rf Reg.GPIO_STATUS.REASON = 1 ∧ t.gio = { s.gio with pulse := true } ∧
    t.rf Reg.GPIO_TRIG.WIDTH = s.rf Reg.GPIO_TRIG.WIDTH ∧ t.rf Reg.GPIO_TRIG.OUT = getBits v 8 1) := by
  have hrun := exec_trigPulse s v hon
  rw [if_pos hw] at hrun
  have hkeep : s.keeping (putBits (putBits v 9 1 1) 9 1 0) [Reg.GPIO_TRIG.WIDTH] =
      putBits (putBits (putBits v 9 1 1) 9 1 0) 16 16 (s.rf Reg.GPIO_TRIG.WIDTH) := rfl
  have hwidth : getBits (putBits (putBits (putBits v 9 1 1) 9 1 0) 16 16 (s.rf Reg.GPIO_TRIG.WIDTH)) 16 16 = s.rf Reg.GPIO_TRIG.WIDTH :=
    (getBits_putBits_same _ _ _ _ (by decide)).trans (Nat.mod_eq_of_lt (getBits_lt _ _ _))
  have hout : getBits (putBits (putBits (putBits v 9 1 1) 9 1 0) 16 16 (s.rf Reg.GPIO_TRIG.WIDTH)) 8 1 = getBits v 8 1 :=
    (getBits_putBits_other _ _ _ _ _ _ (.inl (by decide))).trans (getBits_trig v (.inl (by decide)))
  have hwrite : (s.writeBut .all gioRefuse 4 1 Reg.GPIO_TRIG_at (putBits (putBits v 9 1 1) 9 1 0) [Reg.GPIO_TRIG.WIDTH]).st =
      (s.writeReg .all Reg.GPIO_TRIG_at (putBits (putBits (putBits v 9 1 1) 9 1 0) 16 16 (s.rf Reg.GPIO_TRIG.WIDTH))).refuse gioRefuse 1 := by
    rw [State.writeBut_all, if_neg (List.cons_ne_nil _ _), hkeep, State.refused_st]
  obtain ⟨hregs, hset, hreason, hfields⟩ := refused_write_regs (r := gioRefuse) (why := 1) (by decide) (by decide)
    (by rintro _ ⟨⟩; decide) hwrite
  have h1 := (hfields Reg.GPIO_TRIG.WIDTH rfl).trans (s.rf_writeTrig _).1
  have h2 := (hfields Reg.GPIO_TRIG.OUT rfl).trans (s.rf_writeTrig _).2
  generalize (s.writeBut .all gioRefuse 4 1 Reg.GPIO_TRIG_at (putBits (putBits v 9 1 1) 9 1 0) [Reg.GPIO_TRIG.WIDTH]).st = u at hrun hregs hset hreason h1 h2
  have hgio : u.gio = s.gio := by rw [hregs.1]
  refine ⟨_, hrun, gioOnly_onGio (hregs.mono (by decide)) _, ?_⟩
  rw [State.on_onGio, State.rf_onGio, State.rf_onGio, State.rf_onGio, State.gio_onGio, hgio]
  exact ⟨congrArg (· != 0) hset, hreason _ rfl, rfl, h1.trans hwidth, h2.trans hout⟩

@[simp] theorem State.online_onGio (f : Gio → Gio) (isl : Nat) : (s.onGio f).online isl = s.online isl := rfl

theorem State.online_writeReg (p : Permit) (a : Nat) (w : Word) (isl : Nat) : (s.writeReg p a w).online isl = s.online isl := rfl

theorem State.trigOut_onPulse (hon : s.online islGio = true) (b : Bool) :
    (s.onGio (fun g => { g with pulse := b })).trigOut = some (b || s.on Reg.GPIO_TRIG.OUT) := by
  rw [State.trigOut, State.online_onGio, if_pos hon, State.on_onGio, State.gio_onGio]

theorem trigPulse_pulses (hon : s.online islGio = true) (hw : getBits v 16 16 ≠ 0) : Does (.trigPulse v) s (fun t =>
    GioOnly s t [Reg.GPIO_TRIG_at] [] ∧ t.gio = { s.gio with pulse := true } ∧
    t.rf Reg.GPIO_TRIG.WIDTH = getBits v 16 16 ∧ t.trigOut = some true) := by
  have hrun := exec_trigPulse s v hon
  rw [if_neg hw, State.writeBut_all, if_pos rfl, WRes.ok_st] at hrun
  have hregs := regs_writeReg s .all Reg.GPIO_TRIG_at (putBits (putBits v 9 1 1) 9 1 0)
  have h1 : (s.writeReg .all Reg.GPIO_TRIG_at (putBits (putBits v 9 1 1) 9 1 0)).rf Reg.GPIO_TRIG.WIDTH = getBits v 16 16 :=
    (s.rf_writeTrig _).1.trans (getBits_trig v (.inr (by decide)))
  have hiso := (s.online_writeReg .all Reg.GPIO_TRIG_at (putBits (putBits v 9 1 1) 9 1 0) islGio).trans hon
  generalize s.writeReg .all Reg.GPIO_TRIG_at (putBits (putBits v 9 1 1) 9 1 0) = u at hrun hregs h1 hiso
  have hgio : u.gio = s.gio := by rw [hregs.1]
  refine ⟨_, hrun, gioOnly_onGio hregs _, ?_⟩
  rw [State.rf_onGio, State.gio_onGio, hgio]
  exact ⟨rfl, h1, (u.trigOut_onPulse hiso true).trans (congrArg some (Bool.true_or _))⟩

theorem pulseEnd_ends (hon : s.online islGio = true) :
    Does .pulseEnd s (fun t => t = { s with gio := { s.gio with pulse := false } } ∧ t.trigOut = some (s.on Reg.GPIO_TRIG.OUT)) :=
  ⟨_, exec_of_gioStep hon rfl, rfl, (s.trigOut_onPulse hon false).trans (congrArg some (Bool.false_or _))⟩

end

/-- Pins, PWM and triggers (R502 to R505, R510). -/
theorem pinsPwmAndTriggers : PinsPwmAndTriggers := by
  intro s hon
  refine ⟨fun b v => ⟨gpioOset_sets s b v hon, gpioOclr_clears s b v hon⟩, fun b i level => gpioEdge_latches s b i level hon,
    fun c v => ⟨pwmPeriodBoundary_loads s c hon, pwmCfgWrite_refused s c v hon, pwmCfgWrite_loads s c v hon⟩,
    fun level => ⟨?_, trigIn_stays s level hon⟩, fun v => ⟨trigPulse_refused s v hon, trigPulse_pulses s v hon⟩, pulseEnd_ends s hon⟩
  rintro rfl
  exact trigIn_rises s hon

/-! ## UARTs (R506, R507) -/

section
variable (s : State) (u : Fin 4) (b : Byte) (stopOk parOk low : Bool) (hon : s.online islGio = true)

theorem State.uartNext_busy (h : (s.uart u.val).shift ≠ none) : s.uartNext u.val = s := by
  rw [State.uartNext]
  cases hs : (s.uart u.val).shift with
  | none => exact absurd hs h
  | some c => rfl

theorem State.uartNext_empty (h : (s.uart u.val).tx = []) : s.uartNext u.val = s := by
  rw [State.uartNext]
  simp only [h]
  split <;> simp_all

theorem State.uartNext_starts {x : Uart} {c : Byte} {rest : List Byte} (hshift : x.shift = none) (htx : x.tx = c :: rest)
    (hen : s.on (Reg.UART_CFG.EN u.val) = true) : (s.setUart u.val x).uartNext u.val =
      (s.setUart u.val x).setUart u.val { x with tx := rest, shift := some c, de := s.on (Reg.UART_CFG.RS485 u.val) } := by
  have hen' : (s.setUart u.val x).on (Reg.UART_CFG.EN u.val) = true := hen
  rw [State.uartNext]
  simp only [State.uart_setUart_same, hshift, htx, hen', if_true]
  rfl

theorem gioOnly_setUart (x : Uart) : GioOnly s (s.setUart u.val x) [] [] := gioOnly_onGio (regs_refl s _) _

theorem State.setUart_setUart (x y : Uart) : GioOnly s ((s.setUart u.val x).setUart u.val y) [] [] := by
  refine ⟨?_, fun _ _ => rfl⟩
  rw [List.append_nil]
  rfl

include hon

theorem uartTxd_refused (hfull : 64 ≤ (s.uart u.val).tx.length) : Refuses (.uartTxd u b) s gioRefuse 3 :=
  refuses_of_exec (by decide) ((exec_of_gioStep (t := (s.uartTx u.val b).st) hon rfl).trans
    (congrArg (fun w : WRes => Host.Outcome.next w.st) (if_pos hfull)))

theorem exec_uartTxd (hroom : (s.uart u.val).tx.length < 64) :
    exec (.uartTxd u b) s = .next ((s.setUart u.val { s.uart u.val with tx := (s.uart u.val).tx ++ [b] }).uartNext u.val) :=
  (exec_of_gioStep (t := (s.uartTx u.val b).st) hon rfl).trans (congrArg (fun w : WRes => Host.Outcome.next w.st) (if_neg (Nat.not_le.2 hroom)))

theorem uartTxd_waits (hroom : (s.uart u.val).tx.length < 64) (hbusy : (s.uart u.val).shift ≠ none) :
    Does (.uartTxd u b) s (fun t => GioOnly s t [] [] ∧ t.uart u.val = { s.uart u.val with tx := (s.uart u.val).tx ++ [b] } ∧
      ∀ k, k ≠ u.val → t.uart k = s.uart k) := by
  have hrun := exec_uartTxd s u b hon hroom
  rw [State.uartNext_busy _ _ (by rw [State.uart_setUart_same]; exact hbusy)] at hrun
  exact ⟨_, hrun, gioOnly_setUart s u _, s.uart_setUart_same _ _, fun k hk => s.uart_setUart_other _ _ hk⟩

theorem uartTxd_starts (htx : (s.uart u.val).tx = []) (hidle : (s.uart u.val).shift = none) (hen : s.on (Reg.UART_CFG.EN u.val) = true) :
    Does (.uartTxd u b) s (fun t => GioOnly s t [] [] ∧
      t.uart u.val = { s.uart u.val with shift := some b, de := s.on (Reg.UART_CFG.RS485 u.val) }) := by
  have hrun := exec_uartTxd s u b hon (by rw [htx]; decide)
  have hstart := s.uartNext_starts u (x := { s.uart u.val with tx := (s.uart u.val).tx ++ [b] }) (c := b) (rest := []) hidle
    (by rw [htx]; rfl) hen
  refine ⟨_, hrun.trans (congrArg _ hstart), State.setUart_setUart s u _ _, ?_⟩
  rw [State.uart_setUart_same, ← htx]

theorem uartCharacterSent_next (hbusy : (s.uart u.val).shift ≠ none) (hen : s.on (Reg.UART_CFG.EN u.val) = true) :
    Does (.uartCharacterSent u) s (fun t => GioOnly s t [] [] ∧
      ((s.uart u.val).tx = [] → t.uart u.val = { s.uart u.val with shift := none, de := false }) ∧
      (∀ c rest, (s.uart u.val).tx = c :: rest → (t.uart u.val).shift = some c ∧ (t.uart u.val).tx = rest)) := by
  have hrun : exec (.uartCharacterSent u) s = .next (s.uartSent u.val) :=
    (if_pos (Option.isSome_iff_ne_none.2 hbusy)).trans (if_pos hon)
  refine ⟨_, hrun, ?_⟩
  unfold State.uartSent
  cases htx : (s.uart u.val).tx with
  | nil =>
    have hnext := State.uartNext_empty (s.setUart u.val { s.uart u.val with shift := none, de := (s.uart u.val).de && !(s.uart u.val).tx.isEmpty }) u
      (by rw [State.uart_setUart_same]; exact htx)
    rw [hnext, State.uart_setUart_same]
    refine ⟨gioOnly_setUart s u _, fun _ => ?_, nofun⟩
    rw [htx, List.isEmpty_nil, Bool.not_true, Bool.and_false]
  | cons c rest =>
    have hnext := s.uartNext_starts u (x := { s.uart u.val with shift := none, de := (s.uart u.val).de && !(s.uart u.val).tx.isEmpty })
      rfl htx hen
    rw [hnext, State.uart_setUart_same]
    refine ⟨State.setUart_setUart s u _ _, nofun, ?_⟩
    rintro c' rest' ⟨⟩
    exact ⟨rfl, rfl⟩

theorem uartRxdRead_pops : Does (.uartRxdRead u) s (fun t => GioOnly s t [] [] ∧
    t.uart u.val = { s.uart u.val with rx := (s.uart u.val).rx.drop 1 }) :=
  ⟨s.rxdPop u.val, exec_of_gioStep hon rfl, gioOnly_setUart s u _, s.uart_setUart_same _ _⟩

end

section
variable (s : State) (u : Fin 4) (b : Byte) (stopOk parOk low : Bool)

/-- The errors of a character counted (R507). -/
def State.rxCounts (framing parity : Bool) : State :=
  if parity then (if framing then s.incSat (Reg.UART_ERR.FRAMING u.val) else s).incSat (Reg.UART_ERR.PARITY u.val)
  else if framing then s.incSat (Reg.UART_ERR.FRAMING u.val) else s

/-- The errors counted, and a break shown (R507). -/
def State.rxMarks (framing parity : Bool) : State :=
  if low then ((s.rxCounts u framing parity).wf (Reg.UART_STAT.BREAK u.val) 1).serialEvent else s.rxCounts u framing parity

/-- The parity of a character is checked and wrong. -/
def State.rxParity : Bool := !parOk && s.rf (Reg.UART_CFG.PARITY u.val) != 0

theorem State.rxParity_iff : s.rxParity u parOk = true ↔ parOk = false ∧ s.rf (Reg.UART_CFG.PARITY u.val) ≠ 0 := by
  rw [State.rxParity, Bool.and_eq_true, Bool.not_eq_true', bne_iff_ne]

theorem State.uartRx_bad (hen : s.on (Reg.UART_CFG.EN u.val) = true) (hde : (s.uart u.val).de = false)
    (hbad : low = true ∨ (!stopOk) = true ∨ s.rxParity u parOk = true) :
    s.uartRx u.val b stopOk parOk low = s.rxMarks u low (decide (low = true ∨ (!stopOk) = true)) (s.rxParity u parOk) := by
  have hnot : ¬ (!s.on (Reg.UART_CFG.EN u.val) || (s.uart u.val).de) = true := by rw [hen, hde]; exact Bool.false_ne_true
  unfold State.uartRx State.rxMarks State.rxCounts
  simp only [decide_eq_true_eq]
  exact (if_neg hnot).trans (if_pos hbad)

theorem State.uartRx_good (hen : s.on (Reg.UART_CFG.EN u.val) = true) (hde : (s.uart u.val).de = false) (hpar : s.rxParity u parOk = false) :
    s.uartRx u.val b true parOk false =
      if 64 ≤ (s.uart u.val).rx.length then s.incSat (Reg.UART_ERR.OVERRUN u.val)
      else s.setUart u.val { s.uart u.val with rx := (s.uart u.val).rx ++ [b] } := by
  unfold State.rxParity at hpar
  unfold State.uartRx
  simp only [hen, hde, hpar, Bool.not_true, Bool.or_false, Bool.false_eq_true, if_false, or_false]

theorem uartErrAddrs : ∀ u : Fin 4, Reg.UART_STAT_at u.val ≠ Reg.UART_ERR_at u.val ∧ Reg.GPIO_EVCFG_at ≠ Reg.UART_ERR_at u.val ∧
    Reg.GPIO_EVCFG_at ≠ Reg.UART_STAT_at u.val := by decide

theorem State.rxCounts_regs (framing parity : Bool) : Regs s (s.rxCounts u framing parity) [Reg.UART_ERR_at u.val] [] := by
  have hframing : Regs s (if framing then s.incSat (Reg.UART_ERR.FRAMING u.val) else s) [Reg.UART_ERR_at u.val] [] :=
    Regs.ite ((regs_refl s _).incSat (Reg.UART_ERR.FRAMING u.val) 1 (.head _)) (regs_refl s _)
  exact Regs.ite (hframing.incSat (Reg.UART_ERR.PARITY u.val) 1 (.head _)) hframing

theorem State.rxCounts_counted (framing parity : Bool) : (framing = true → Counted s (s.rxCounts u framing parity) (Reg.UART_ERR.FRAMING u.val)) ∧
    (parity = true → Counted s (s.rxCounts u framing parity) (Reg.UART_ERR.PARITY u.val)) := by
  have happart : (Reg.UART_ERR.FRAMING u.val).lo + (Reg.UART_ERR.FRAMING u.val).width ≤ (Reg.UART_ERR.PARITY u.val).lo := Nat.le_refl 8
  have hf : (s.incSat (Reg.UART_ERR.FRAMING u.val)).rf (Reg.UART_ERR.FRAMING u.val) = min (2 ^ 8 - 1) (s.rf (Reg.UART_ERR.FRAMING u.val) + 1) :=
    s.rf_incSat (Reg.UART_ERR.FRAMING u.val) 1 (Nat.le_add_left _ 24)
  have hp (x : State) : (x.incSat (Reg.UART_ERR.PARITY u.val)).rf (Reg.UART_ERR.PARITY u.val) = min (2 ^ 8 - 1) (x.rf (Reg.UART_ERR.PARITY u.val) + 1) :=
    x.rf_incSat (Reg.UART_ERR.PARITY u.val) 1 (Nat.le_add_left _ 16)
  unfold State.rxCounts
  refine ⟨fun h => ?_, fun h => ?_⟩
  · rw [if_pos h]
    cases parity
    · exact hf
    · exact (State.rf_incSat_other _ _ (Reg.UART_ERR.FRAMING u.val) _ (.inr (.inl happart))).trans hf
  · rw [if_pos h]
    cases framing
    · exact hp s
    · refine (hp _).trans ?_
      rw [show (if true = true then s.incSat (Reg.UART_ERR.FRAMING u.val) else s) = s.incSat (Reg.UART_ERR.FRAMING u.val) from if_pos rfl,
        State.rf_incSat_other _ _ (Reg.UART_ERR.PARITY u.val) _ (.inr (.inr happart))]
      rfl

theorem State.rxMarks_shows (framing parity : Bool) : (s.rxMarks u low framing parity).gio = s.gio ∧
    (framing = true → Counted s (s.rxMarks u low framing parity) (Reg.UART_ERR.FRAMING u.val)) ∧
    (parity = true → Counted s (s.rxMarks u low framing parity) (Reg.UART_ERR.PARITY u.val)) ∧
    (s.rxMarks u low framing parity).net.events = s.net.events ++ (if low then serialEv s else []) ∧
    (low = true → (s.rxMarks u low framing parity).on (Reg.UART_STAT.BREAK u.val) = true) := by
  obtain ⟨hstat, hevErr, hevStat⟩ := uartErrAddrs u
  have hregs := s.rxCounts_regs u framing parity
  obtain ⟨hf, hp⟩ := s.rxCounts_counted u framing parity
  unfold State.rxMarks
  generalize s.rxCounts u framing parity = x at hregs hf hp
  have hgio : x.gio = s.gio := by rw [hregs.1]
  have hevents : x.net.events = s.net.events := by rw [hregs.1, List.append_nil]
  cases low with
  | false => exact ⟨hgio, hf, hp, hevents.trans (List.append_nil _).symm, nofun⟩
  | true =>
    have hrf (f : Fd) (h : f.addr = Reg.UART_ERR_at u.val) : ((x.wf (Reg.UART_STAT.BREAK u.val) 1).serialEvent).rf f = x.rf f :=
      (State.rf_raiseIf _ _ _ _).trans (State.rf_wf_other _ _ _ _ (.inl (by rw [h]; exact hstat.symm)))
    have hev : ev (x.wf (Reg.UART_STAT.BREAK u.val) 1) (Reg.GPIO_EVCFG.SERIAL_EVENT, Reg.GPIO_EVCFG.SERIAL_EN) = serialEv s := by
      have hreg : (x.wf (Reg.UART_STAT.BREAK u.val) 1).reg Reg.GPIO_EVCFG_at = s.reg Reg.GPIO_EVCFG_at :=
        (State.reg_wf_other _ _ _ _ hevStat).trans (hregs.2 _ (fun hm => hevErr (List.mem_singleton.1 hm)))
      exact ev_congr hreg hreg
    rw [if_pos rfl]
    refine ⟨(State.raiseIf_gio _ _ _).trans hgio, fun h => (hrf _ rfl).trans (hf h), fun h => (hrf _ rfl).trans (hp h), ?_, fun _ => ?_⟩
    · rw [State.serialEvent, State.raiseIf_events, hev]
      exact congrArg (· ++ serialEv s) hevents
    · rw [State.serialEvent, State.on_raiseIf]
      exact x.on_wf_b2n true (Reg.UART_STAT.BREAK u.val) (Nat.le_add_left 18 14) rfl

theorem uartReceive_received (hon : s.online islGio = true) (hen : s.on (Reg.UART_CFG.EN u.val) = true) (hde : (s.uart u.val).de = false) :
    let x := s.uart u.val
    let par := parOk = false ∧ s.rf (Reg.UART_CFG.PARITY u.val) ≠ 0
    (stopOk = true → low = false → ¬ par → x.rx.length < 64 → Does (.uartReceive u b stopOk parOk low) s (fun t => GioOnly s t [] [] ∧
      t.uart u.val = { x with rx := x.rx ++ [b] })) ∧
    (stopOk = true → low = false → ¬ par → 64 ≤ x.rx.length → Does (.uartReceive u b stopOk parOk low) s (fun t => t = { s with io := t.io } ∧
      Counted s t (Reg.UART_ERR.OVERRUN u.val))) ∧
    (stopOk = false ∨ low = true → Does (.uartReceive u b stopOk parOk low) s (fun t => t.gio = s.gio ∧ Counted s t (Reg.UART_ERR.FRAMING u.val) ∧
      t.net.events = s.net.events ++ (if low then serialEv s else []) ∧ (low = true → t.on (Reg.UART_STAT.BREAK u.val) = true))) ∧
    (par → Does (.uartReceive u b stopOk parOk low) s (fun t => t.gio = s.gio ∧ Counted s t (Reg.UART_ERR.PARITY u.val))) := by
  intro x par
  have hpar : s.rxParity u parOk = true ↔ par := s.rxParity_iff u parOk
  have hrun {t : State} (h : s.uartRx u.val b stopOk parOk low = t) : exec (.uartReceive u b stopOk parOk low) s = .next t := by
    rw [← h]; exact exec_of_gioStep hon rfl
  obtain ⟨hgio, hframing, hparity, hevents, hbreak⟩ := s.rxMarks_shows u low (decide (low = true ∨ (!stopOk) = true)) (s.rxParity u parOk)
  refine ⟨?_, ?_, fun h => ?_, fun h => ?_⟩
  · rintro rfl rfl hok hroom
    have hgood := (s.uartRx_good u b parOk hen hde (Bool.eq_false_iff.2 (fun h => hok (hpar.1 h)))).trans (if_neg (Nat.not_le.2 hroom))
    exact ⟨_, hrun hgood, gioOnly_setUart s u _, s.uart_setUart_same _ _⟩
  · rintro rfl rfl hok hfull
    have hgood := (s.uartRx_good u b parOk hen hde (Bool.eq_false_iff.2 (fun h => hok (hpar.1 h)))).trans (if_pos hfull)
    exact ⟨_, hrun hgood, ((regs_refl s _).incSat (Reg.UART_ERR.OVERRUN u.val) 1 (.head [])).eq_io,
      s.rf_incSat (Reg.UART_ERR.OVERRUN u.val) 1 (Nat.le_add_left _ 8)⟩
  · have hwrong : low = true ∨ (!stopOk) = true := by
      rw [Bool.not_eq_true']
      exact h.symm
    have hbad := s.uartRx_bad u b stopOk parOk low hen hde (hwrong.elim .inl (fun h => .inr (.inl h)))
    exact ⟨_, hrun hbad, hgio, hframing (decide_eq_true hwrong), hevents, hbreak⟩
  · have hbad := s.uartRx_bad u b stopOk parOk low hen hde (.inr (.inr (hpar.2 h)))
    exact ⟨_, hrun hbad, hgio, hparity (hpar.2 h)⟩

theorem uartReceive_off (hon : s.online islGio = true) (hen : s.on (Reg.UART_CFG.EN u.val) = false) :
    Does (.uartReceive u b stopOk parOk low) s (fun t => t = s) :=
  ⟨_, exec_of_gioStep hon rfl, if_pos (by rw [hen]; rfl)⟩

end

/-! ## I²C masters (R508) -/

section
variable (s : State) (m : Fin 2) (v : Word) (b : Byte) (r : Fin 5) (n : Nat) (got : List Byte) (hon : s.online islGio = true)

theorem gioOnly_setI2c (x : I2cM) : GioOnly s (s.setI2c m.val x) [] [] := gioOnly_onGio (regs_refl s _) _

theorem getBits_one_iff (w : Word) (k : Nat) : getBits w k 1 = 1 ↔ w.getLsbD k = true := by
  rw [getBits_one]; cases w.getLsbD k <;> decide

/-- A transfer that needs bytes or room that are not there (R508). -/
theorem i2cFits_iff {rd : Prop} [Decidable rd] {tx rx len : Nat} (hrx : rx ≤ 32) :
    ((¬ rd ∧ tx < len) ∨ (rd ∧ 32 - rx < len)) ↔ ¬ (if rd then rx + len ≤ 32 else len ≤ tx) := by
  by_cases h : rd
  · simp only [h, not_true, false_and, true_and, false_or, if_true]; omega
  · simp only [h, not_false_eq_true, true_and, false_and, or_false, if_false]; omega

include hon

theorem exec_i2cCmd {w : WRes} (h : s.i2cStart m.val v = w) : exec (.i2cCmd m v) s = .next w.st := by
  rw [← h]; exact exec_of_gioStep hon rfl

theorem i2cCmd_busy (hcur : (s.i2c m.val).cur ≠ none) : Refuses (.i2cCmd m v) s gioRefuse 3 :=
  refuses_of_exec (by decide) (exec_i2cCmd s m v hon (if_pos (Option.isSome_iff_ne_none.2 hcur)))

theorem i2cCmd_badLen (hcur : (s.i2c m.val).cur = none) (hlen : getBits v 8 6 = 0 ∨ 32 < getBits v 8 6) : Refuses (.i2cCmd m v) s gioRefuse 1 :=
  refuses_of_exec (by decide) (exec_i2cCmd s m v hon ((if_neg (by rw [hcur]; exact Bool.false_ne_true)).trans (if_pos hlen)))

theorem i2cCmd_unfit (hcur : (s.i2c m.val).cur = none) (hlo : 1 ≤ getBits v 8 6) (hhi : getBits v 8 6 ≤ 32)
    (hfits : ¬ (if getBits v 7 1 = 1 then (s.i2c m.val).rx.length + getBits v 8 6 ≤ 32 else getBits v 8 6 ≤ (s.i2c m.val).tx.length))
    (hrx : (s.i2c m.val).rx.length ≤ 32) : Refuses (.i2cCmd m v) s gioRefuse 2 :=
  refuses_of_exec (by decide) (exec_i2cCmd s m v hon ((if_neg (by rw [hcur]; exact Bool.false_ne_true)).trans
    ((if_neg (by omega)).trans (if_pos ((i2cFits_iff hrx).2 hfits)))))

theorem i2cCmd_starts (hcur : (s.i2c m.val).cur = none) (hlo : 1 ≤ getBits v 8 6) (hhi : getBits v 8 6 ≤ 32)
    (hfits : if getBits v 7 1 = 1 then (s.i2c m.val).rx.length + getBits v 8 6 ≤ 32 else getBits v 8 6 ≤ (s.i2c m.val).tx.length)
    (hen : s.on (Reg.I2C_CFG.EN m.val) = true) :
    Does (.i2cCmd m v) s (fun t => GioOnly s t [] [] ∧ t.i2c m.val = { s.i2c m.val with cur := some v }) := by
  have hroom : ¬ ((¬ getBits v 7 1 = 1 ∧ (s.i2c m.val).tx.length < getBits v 8 6) ∨ (getBits v 7 1 = 1 ∧ 32 - (s.i2c m.val).rx.length < getBits v 8 6)) := by
    by_cases h : getBits v 7 1 = 1
    · rw [if_pos h] at hfits
      rintro (⟨hn, -⟩ | ⟨-, hl⟩)
      · exact hn h
      · omega
    · rw [if_neg h] at hfits
      rintro (⟨-, hl⟩ | ⟨hp, -⟩)
      · omega
      · exact h hp
  have hw : s.i2cStart m.val v = .ok (s.setI2c m.val { s.i2c m.val with cur := some v }) :=
    (if_neg (by rw [hcur]; exact Bool.false_ne_true)).trans ((if_neg (by omega)).trans ((if_neg hroom).trans
      (if_neg (by rw [hen]; exact Bool.false_ne_true))))
  exact ⟨_, exec_i2cCmd s m v hon hw, gioOnly_setI2c s m _, s.i2c_setI2c_same _ _⟩

theorem i2cData_full (hfull : 32 ≤ (s.i2c m.val).tx.length) : Refuses (.i2cData m (some b)) s gioRefuse 3 :=
  refuses_of_exec (by decide) ((exec_of_gioStep (t := (s.i2cPush m.val b).st) hon rfl).trans
    (congrArg (fun w : WRes => Host.Outcome.next w.st) (if_pos hfull)))

theorem i2cData_pushes (hroom : (s.i2c m.val).tx.length < 32) : Does (.i2cData m (some b)) s (fun t => GioOnly s t [] [] ∧
    t.i2c m.val = { s.i2c m.val with tx := (s.i2c m.val).tx ++ [b] }) :=
  ⟨_, (exec_of_gioStep (t := (s.i2cPush m.val b).st) hon rfl).trans
    (congrArg (fun w : WRes => Host.Outcome.next w.st) (if_neg (Nat.not_le.2 hroom))), gioOnly_setI2c s m _, s.i2c_setI2c_same _ _⟩

theorem i2cData_pops : Does (.i2cData m none) s (fun t => GioOnly s t [] [] ∧
    t.i2c m.val = { s.i2c m.val with rx := (s.i2c m.val).rx.drop 1 }) :=
  ⟨s.i2cPop m.val, exec_of_gioStep hon rfl, gioOnly_setI2c s m _, s.i2c_setI2c_same _ _⟩

end

section
variable (s : State) (m : Fin 2) (v : Word) (r : Fin 5) (n : Nat) (got : List Byte)

/-- A master after its transfer with command `v`. -/
def I2cM.ended (x : I2cM) (v : Word) (r n : Nat) (got : List Byte) : I2cM :=
  { (if getBits v 7 1 = 1 then { x with rx := x.rx ++ got.take (getBits v 8 6) }
      else { x with tx := x.tx.drop (if r = 0 then getBits v 8 6 else min n (getBits v 8 6)) }) with
    cur := none, rstart := decide (r = 0) && getBits v 16 1 == 1 }

theorem State.i2cEnd_eq {x : I2cM} (hx : s.i2c m.val = x) (hcur : x.cur = some v) :
    s.i2cEnd m.val r.val n got = ((s.setI2c m.val (x.ended v r.val n got)).wf (Reg.I2C_STAT.RESULT m.val) r.val).serialEvent := by
  obtain ⟨tx, rx, cur, rstart⟩ := x
  subst hcur
  unfold State.i2cEnd
  simp only [hx]
  rfl

theorem I2cM.ended_cases (x : I2cM) : (x.ended v r.val n got).cur = none ∧
    ((x.ended v r.val n got).rstart = true ↔ r.val = 0 ∧ v.getLsbD 16 = true) ∧
    (getBits v 7 1 = 1 → (x.ended v r.val n got).rx = x.rx ++ got.take (getBits v 8 6) ∧ (x.ended v r.val n got).tx = x.tx) ∧
    (¬ getBits v 7 1 = 1 → r.val = 0 → (x.ended v r.val n got).tx = x.tx.drop (getBits v 8 6)) ∧
    (¬ getBits v 7 1 = 1 → r.val ≠ 0 → (x.ended v r.val n got).tx = x.tx.drop (min n (getBits v 8 6))) := by
  refine ⟨rfl, ?_, fun h => ?_, fun h h0 => ?_, fun h h0 => ?_⟩
  · rw [← getBits_one_iff]
    exact (Bool.and_eq_true_iff).trans (and_congr decide_eq_true_iff beq_iff_eq)
  · rw [I2cM.ended, if_pos h]; exact ⟨rfl, rfl⟩
  · rw [I2cM.ended, if_neg h, if_pos h0]
  · rw [I2cM.ended, if_neg h, if_neg h0]

theorem i2cAddrs : ∀ m : Fin 2, Reg.GPIO_EVCFG_at ≠ Reg.I2C_STAT_at m.val ∧ (Reg.I2C_STAT.RESULT m.val).lo + (Reg.I2C_STAT.RESULT m.val).width ≤ 32 ∧
    2 ^ (Reg.I2C_STAT.RESULT m.val).width = 8 := by decide

theorem State.onGio_wf (g : Gio → Gio) (f : Fd) (k : Nat) : (s.onGio g).wf f k = (s.wf f k).onGio g := rfl

/-- An event of the serial masters raised after a register write. -/
theorem gioOnly_serialEvent {t : State} {f : Gio → Gio} {as : List Nat} (h : Regs s t as []) (hev : Reg.GPIO_EVCFG_at ∉ as) :
    GioOnly s ((t.onGio f).serialEvent) as (serialEv s) := by
  have hreg := h.2 _ hev
  have hserial : ev (t.onGio f) (Reg.GPIO_EVCFG.SERIAL_EVENT, Reg.GPIO_EVCFG.SERIAL_EN) = serialEv s := ev_congr hreg hreg
  refine ⟨?_, fun a ha => (State.reg_raiseIf _ _ _ _).trans (h.2 a ha)⟩
  rw [State.serialEvent, State.raiseIf_eq, hserial]
  rw [h.eq_io]
  rfl

theorem i2cTransferEnd_ends (hon : s.online islGio = true) (hcur : (s.i2c m.val).cur = some v) :
    Does (.i2cTransferEnd m r n got) s (fun t => GioOnly s t [Reg.I2C_STAT_at m.val] (serialEv s) ∧ t.rf (Reg.I2C_STAT.RESULT m.val) = r.val ∧
      (t.i2c m.val).cur = none ∧ ((t.i2c m.val).rstart = true ↔ r.val = 0 ∧ v.getLsbD 16 = true) ∧
      (getBits v 7 1 = 1 → (t.i2c m.val).rx = (s.i2c m.val).rx ++ got.take (getBits v 8 6) ∧ (t.i2c m.val).tx = (s.i2c m.val).tx) ∧
      (¬ getBits v 7 1 = 1 → r.val = 0 → (t.i2c m.val).tx = (s.i2c m.val).tx.drop (getBits v 8 6)) ∧
      (¬ getBits v 7 1 = 1 → r.val ≠ 0 → (t.i2c m.val).tx = (s.i2c m.val).tx.drop (min n (getBits v 8 6)))) := by
  obtain ⟨hev, hrange, hwidth⟩ := i2cAddrs m
  generalize hx : s.i2c m.val = x at hcur
  refine ⟨_, exec_of_gioStep hon rfl, ?_⟩
  rw [s.i2cEnd_eq m v r n got hx hcur]
  have hi2c : (((s.setI2c m.val (x.ended v r.val n got)).wf (Reg.I2C_STAT.RESULT m.val) r.val).serialEvent).i2c m.val = x.ended v r.val n got := by
    rw [State.i2c, State.serialEvent, State.raiseIf_gio]
    exact s.i2c_setI2c_same _ _
  beta_reduce
  rw [hi2c]
  refine ⟨?_, ?_, I2cM.ended_cases v r n got x⟩
  · have hregs := (regs_refl s [Reg.I2C_STAT_at m.val]).wf (Reg.I2C_STAT.RESULT m.val) r.val (.head _)
    rw [State.setI2c, State.onGio_wf]
    exact gioOnly_serialEvent s hregs (fun h => hev (List.mem_singleton.1 h))
  · rw [State.serialEvent, State.rf_raiseIf, State.rf_wf_same _ _ _ hrange, hwidth]
    exact Nat.mod_eq_of_lt (by omega)

end

/-! ## SPI masters (R509) -/

section
variable (s : State) (m : Fin 2) (v : Word) (b : Byte) (got : List Byte) (hon : s.online islGio = true)

theorem gioOnly_setSpi (x : SpiM) : GioOnly s (s.setSpi m.val x) [] [] := gioOnly_onGio (regs_refl s _) _

/-- A transfer that needs bytes, room or a slave that it does not have (R509). -/
theorem spiFits_iff {x : SpiM} {len c : Nat} (hrx : x.rx.length ≤ 64) :
    (x.tx.length < len ∨ 64 - x.rx.length < len ∨ (match x.held with | some k => decide (k ≠ c) | none => false) = true) ↔
      ¬ (len ≤ x.tx.length ∧ x.rx.length + len ≤ 64 ∧ ∀ k, x.held = some k → k = c) := by
  have hheld : (match x.held with | some k => decide (k ≠ c) | none => false) = true ↔ ¬ ∀ k, x.held = some k → k = c := by
    cases x.held with
    | none => simp
    | some k => simp
  rw [hheld, not_and_or, not_and_or]
  exact or_congr (by omega) (or_congr (by omega) Iff.rfl)

include hon

theorem exec_spiCmd {w : WRes} (h : s.spiStart m.val v = w) : exec (.spiCmd m v) s = .next w.st := by
  rw [← h]; exact exec_of_gioStep hon rfl

theorem spiCmd_busy (hcur : (s.spi m.val).cur ≠ none) : Refuses (.spiCmd m v) s gioRefuse 3 :=
  refuses_of_exec (by decide) (exec_spiCmd s m v hon (if_pos (Option.isSome_iff_ne_none.2 hcur)))

theorem spiCmd_badLen (hcur : (s.spi m.val).cur = none) (hlen : getBits v 0 7 = 0 ∨ 64 < getBits v 0 7) : Refuses (.spiCmd m v) s gioRefuse 1 :=
  refuses_of_exec (by decide) (exec_spiCmd s m v hon ((if_neg (by rw [hcur]; exact Bool.false_ne_true)).trans (if_pos hlen)))

theorem spiCmd_unfit (hcur : (s.spi m.val).cur = none) (hlo : 1 ≤ getBits v 0 7) (hhi : getBits v 0 7 ≤ 64)
    (hfits : ¬ (getBits v 0 7 ≤ (s.spi m.val).tx.length ∧ (s.spi m.val).rx.length + getBits v 0 7 ≤ 64 ∧
      ∀ c, (s.spi m.val).held = some c → c = getBits v 8 2))
    (hrx : (s.spi m.val).rx.length ≤ 64) : Refuses (.spiCmd m v) s gioRefuse 2 :=
  refuses_of_exec (by decide) (exec_spiCmd s m v hon ((if_neg (by rw [hcur]; exact Bool.false_ne_true)).trans
    ((if_neg (by omega)).trans (if_pos ((spiFits_iff hrx).2 hfits)))))

theorem spiCmd_starts (hcur : (s.spi m.val).cur = none) (hlo : 1 ≤ getBits v 0 7) (hhi : getBits v 0 7 ≤ 64)
    (hfits : getBits v 0 7 ≤ (s.spi m.val).tx.length ∧ (s.spi m.val).rx.length + getBits v 0 7 ≤ 64 ∧
      ∀ c, (s.spi m.val).held = some c → c = getBits v 8 2)
    (hen : s.on (Reg.SPI_CFG.EN m.val) = true) :
    Does (.spiCmd m v) s (fun t => GioOnly s t [] [] ∧ t.spi m.val = { s.spi m.val with cur := some v }) := by
  have hrx : (s.spi m.val).rx.length ≤ 64 := Nat.le_trans (Nat.le_add_right _ _) hfits.2.1
  have hw : s.spiStart m.val v = .ok (s.setSpi m.val { s.spi m.val with cur := some v }) :=
    (if_neg (by rw [hcur]; exact Bool.false_ne_true)).trans ((if_neg (by omega)).trans
      ((if_neg (fun h => (spiFits_iff hrx).1 h hfits)).trans (if_neg (by rw [hen]; exact Bool.false_ne_true))))
  exact ⟨_, exec_spiCmd s m v hon hw, gioOnly_setSpi s m _, s.spi_setSpi_same _ _⟩

theorem spiTransferEnd_ends (hcur : (s.spi m.val).cur = some v) : Does (.spiTransferEnd m got) s (fun t => GioOnly s t [] (serialEv s) ∧
    t.spi m.val = ⟨(s.spi m.val).tx.drop (getBits v 0 7), (s.spi m.val).rx ++ got.take (getBits v 0 7), none,
      if v.getLsbD 10 then some (getBits v 8 2) else none⟩) := by
  have hend : s.spiEnd m.val got = (s.setSpi m.val ⟨(s.spi m.val).tx.drop (getBits v 0 7), (s.spi m.val).rx ++ got.take (getBits v 0 7), none,
      if v.getLsbD 10 then some (getBits v 8 2) else none⟩).serialEvent := by
    unfold State.spiEnd
    simp only [hcur, getBits_one_iff]
  refine ⟨_, exec_of_gioStep hon rfl, ?_⟩
  rw [hend]
  refine ⟨gioOnly_serialEvent s (regs_refl s []) List.not_mem_nil, ?_⟩
  rw [State.spi, State.serialEvent, State.raiseIf_gio]
  exact s.spi_setSpi_same _ _

theorem spiData_full (hfull : 64 ≤ (s.spi m.val).tx.length) : Refuses (.spiData m (some b)) s gioRefuse 3 :=
  refuses_of_exec (by decide) ((exec_of_gioStep (t := (s.spiPush m.val b).st) hon rfl).trans
    (congrArg (fun w : WRes => Host.Outcome.next w.st) (if_pos hfull)))

theorem spiData_pushes (hroom : (s.spi m.val).tx.length < 64) : Does (.spiData m (some b)) s (fun t => GioOnly s t [] [] ∧
    t.spi m.val = { s.spi m.val with tx := (s.spi m.val).tx ++ [b] }) :=
  ⟨_, (exec_of_gioStep (t := (s.spiPush m.val b).st) hon rfl).trans
    (congrArg (fun w : WRes => Host.Outcome.next w.st) (if_neg (Nat.not_le.2 hroom))), gioOnly_setSpi s m _, s.spi_setSpi_same _ _⟩

theorem spiData_pops : Does (.spiData m none) s (fun t => GioOnly s t [] [] ∧
    t.spi m.val = { s.spi m.val with rx := (s.spi m.val).rx.drop 1 }) :=
  ⟨s.spiPop m.val, exec_of_gioStep hon rfl, gioOnly_setSpi s m _, s.spi_setSpi_same _ _⟩

end

/-- UART, I²C and SPI bytes and transfers (R506 to R509, R512). -/
theorem serialPortsMoveBytes : SerialPortsMoveBytes := by
  intro s hon
  refine ⟨fun u b stopOk parOk low => ?_, fun m v b r n got => ?_, fun m v b got => ?_⟩
  · exact ⟨uartTxd_refused s u b hon, uartTxd_waits s u b hon, uartTxd_starts s u b hon, uartCharacterSent_next s u hon,
      uartRxdRead_pops s u hon, uartReceive_received s u b stopOk parOk low hon, uartReceive_off s u b stopOk parOk low hon⟩
  · exact ⟨i2cCmd_busy s m v hon, i2cCmd_badLen s m v hon, i2cCmd_unfit s m v hon, i2cCmd_starts s m v hon,
      i2cTransferEnd_ends s m v r n got hon, i2cData_full s m b hon, i2cData_pushes s m b hon, i2cData_pops s m hon⟩
  · exact ⟨spiCmd_busy s m v hon, spiCmd_badLen s m v hon, spiCmd_unfit s m v hon, spiCmd_starts s m v hon,
      spiTransferEnd_ends s m v got hon, spiData_full s m b hon, spiData_pushes s m b hon, spiData_pops s m hon⟩

/-- Settles O57: each pin, channel and port taken by itself; a command is what its block does while the island is ONLINE. -/
theorem pinsAndSerialPorts : Obligations.PinsAndSerialPorts := ⟨pinsPwmAndTriggers, serialPortsMoveBytes⟩

end Sys2Proof.Machine
end

section
/-!
PROOFS. What every user of the recorder and the Vault may do: EVENT records, queued writes, the write that begins, and gated writes; then the
recorder's time and latches (R352, R354 to R356, R365, R378).
-/

namespace Sys2Proof.Machine
open Sys2Proof.Claims

/-! ## EVENT records (R371) -/

section
variable (s : State) (code a0 a1 a2 : Nat)

/-- The state with one more EVENT record, where one has room. -/
theorem State.evRecord_room (h : s.record.events.length < 128) : s.evRecord code a0 a1 a2 =
    s.onRec (fun r => { r with
      events := r.events ++ [⟨s.stamp, code, a0 % 2 ^ 32, a1 % 2 ^ 32, a2 % 2 ^ 32⟩], rseq := (r.rseq + 1) % 65536 }) :=
  if_neg (Nat.not_le.2 h)

/-- A record queued is the newest. -/
theorem recorded_evRecord {u : State} (h : s.record.events.length < 128) (hu : u.record = s.record) : Recorded s (u.evRecord code a0 a1 a2) code a0 a1 := by
  rw [State.evRecord_room _ _ _ _ _ (by rw [hu]; exact h)]
  exact ⟨_, congrArg (fun r : Rec => r.events ++ _) hu, rfl, rfl, rfl, congrArg Rec.opsec hu⟩

/-- What later changes of other parts leave of it. -/
theorem recorded_congr {s t u : State} {code a0 a1 : Nat} (h : Recorded s t code a0 a1) (hu : u.record.events = t.record.events) :
    Recorded s u code a0 a1 := by
  obtain ⟨e, he, hrest⟩ := h
  exact ⟨e, hu.trans he, hrest⟩

@[simp] theorem State.reg_onRec (f : Rec → Rec) (a : Nat) : (s.onRec f).reg a = s.reg a := rfl
@[simp] theorem State.rf_onRec (f : Rec → Rec) (g : Fd) : (s.onRec f).rf g = s.rf g := rfl
@[simp] theorem State.on_onRec (f : Rec → Rec) (g : Fd) : (s.onRec f).on g = s.on g := rfl

theorem State.loseRecords_eq (n : Nat) : Regs s (s.incSat Reg.REC_LOST.COUNT n) [Reg.REC_LOST_at] [] ∧
    s.loseRecords n = { s with io := (s.incSat Reg.REC_LOST.COUNT n).io, record := { s.record with lost := min (2 ^ 32 - 1) (s.record.lost + n) } } := by
  have hregs := (regs_refl s [Reg.REC_LOST_at]).incSat Reg.REC_LOST.COUNT n (.head _)
  have heq := hregs.eq_io
  refine ⟨hregs, ?_⟩
  rw [State.loseRecords]
  generalize s.incSat Reg.REC_LOST.COUNT n = u at heq
  generalize 2 ^ 32 - 1 = top
  rw [heq]
  rfl

/-- An EVENT record queued, or counted as lost, changes the recorder and the count of lost records alone. -/
theorem State.evRecord_eq : s.evRecord code a0 a1 a2 =
    { s with io := (s.evRecord code a0 a1 a2).io, record := (s.evRecord code a0 a1 a2).record } := by
  by_cases h : 128 ≤ s.record.events.length
  · rw [State.evRecord, if_pos h, (s.loseRecords_eq 1).2]
  · rw [State.evRecord, if_neg h]
    rfl

theorem State.reg_evRecord (a : Nat) (ha : a ≠ Reg.REC_LOST_at) : (s.evRecord code a0 a1 a2).reg a = s.reg a := by
  by_cases h : 128 ≤ s.record.events.length
  · obtain ⟨hregs, heq⟩ := s.loseRecords_eq 1
    rw [State.evRecord, if_pos h, heq]
    exact hregs.2 a (fun hm => ha (List.mem_singleton.1 hm))
  · rw [State.evRecord, if_neg h]
    rfl

@[simp] theorem State.par_evRecord : (s.evRecord code a0 a1 a2).par = s.par := by rw [s.evRecord_eq]
@[simp] theorem State.net_evRecord : (s.evRecord code a0 a1 a2).net = s.net := by rw [s.evRecord_eq]

theorem State.rf_evRecord (f : Fd) (hf : f.addr ≠ Reg.REC_LOST_at) : (s.evRecord code a0 a1 a2).rf f = s.rf f := by
  rw [State.rf, State.rf, s.reg_evRecord _ _ _ _ _ hf]

end

/-! ## Writes of the Vault (R348, R349) -/

section
variable (s : State)

theorem State.vaultBegin_busy (h : s.vault.cur ≠ none) : s.vaultBegin = s := by
  rw [State.vaultBegin]
  cases hc : s.vault.cur with
  | none => exact absurd hc h
  | some w => rfl

theorem State.vaultCaptured_eq (id : Nat) : s.vaultCaptured id = { s with
    record := { s.record with dirty := (s.vaultCaptured id).record.dirty, dirtyLedger := (s.vaultCaptured id).record.dirtyLedger } } := by
  unfold State.vaultCaptured
  split
  · rfl
  · split <;> rfl

/-- A write that begins changes the Vault and the marks of changed shadows alone. -/
theorem State.vaultBegin_eq : s.vaultBegin = { s with
    vault := s.vaultBegin.vault,
    record := { s.record with dirty := s.vaultBegin.record.dirty, dirtyLedger := s.vaultBegin.record.dirtyLedger } } := by
  unfold State.vaultBegin
  split
  · rfl
  · rfl
  · dsimp only
    rw [State.vaultCaptured_eq]
    rfl

@[simp] theorem State.reg_vaultBegin (a : Nat) : s.vaultBegin.reg a = s.reg a := by rw [s.vaultBegin_eq]; rfl
@[simp] theorem State.rf_vaultBegin (f : Fd) : s.vaultBegin.rf f = s.rf f := by rw [State.rf, State.rf, s.reg_vaultBegin]
@[simp] theorem State.on_vaultBegin (f : Fd) : s.vaultBegin.on f = s.on f := by rw [State.on, State.on, s.rf_vaultBegin]
@[simp] theorem State.par_vaultBegin : s.vaultBegin.par = s.par := by rw [s.vaultBegin_eq]
@[simp] theorem State.net_vaultBegin : s.vaultBegin.net = s.net := by rw [s.vaultBegin_eq]
@[simp] theorem State.events_vaultBegin : s.vaultBegin.record.events = s.record.events := by rw [s.vaultBegin_eq]
@[simp] theorem State.reg_vaultQueue (id a : Nat) : (s.vaultQueue id).reg a = s.reg a := rfl
@[simp] theorem State.rf_vaultQueue (id : Nat) (f : Fd) : (s.vaultQueue id).rf f = s.rf f := rfl
@[simp] theorem State.record_vaultQueue (id : Nat) : (s.vaultQueue id).record = s.record := rfl
@[simp] theorem State.net_vaultQueue (id : Nat) : (s.vaultQueue id).net = s.net := rfl
@[simp] theorem State.par_vaultQueue (id : Nat) : (s.vaultQueue id).par = s.par := rfl
@[simp] theorem State.on_vaultQueue (id : Nat) (f : Fd) : (s.vaultQueue id).on f = s.on f := rfl

end

/-! ## Writes gated by presence and power (R378, R391, R392) -/

section
variable {src : Src} {s : State}

theorem presOk_iff (lock : Bool) : (s.permit src lock).presOk = true ↔ presence src s := by
  rw [State.permit, presence, State.winOpen, Bool.and_eq_true, beq_iff_eq, decide_eq_true_iff]

theorem gate_absent (h : ¬ presence src s) : s.gate src = some ⟨s.refuse recRefuse 5, 1⟩ := by
  have hno : (s.permit src true).presOk = false := Bool.eq_false_iff.2 (fun hp => h ((presOk_iff true).1 hp))
  rw [State.gate, hno]
  rfl

theorem gate_pwrfail (h : presence src s) (hp : s.on Reg.REC_STATUS.PWRFAIL = true) : s.gate src = some (s.refused recRefuse 3) := by
  rw [State.gate, (presOk_iff true).2 h, hp]
  rfl

theorem gate_open (h : presence src s) (hp : s.on Reg.REC_STATUS.PWRFAIL = false) : s.gate src = none := by
  rw [State.gate, (presOk_iff true).2 h, hp]
  rfl

end

/-! ## Time (R352, R354 to R356) -/

section
variable (src : Src) (v : Word) (s : State)

theorem sInt_toNat : sInt 32 v.toNat = v.toInt := by
  rw [sInt_eq_lint (by decide), lint, BitVec.ofNat_toNat, BitVec.setWidth_eq]

theorem toInt_bne_zero : (v.toInt != 0) = (v != 0) := by
  rw [Bool.eq_iff_iff, bne_iff_ne, bne_iff_ne, ne_eq, ne_eq, ← BitVec.toInt_zero (w := 32), BitVec.toInt_inj]
  exact Iff.rfl

variable (hup : s.aonUp = true)
include hup

theorem opsecAdvance_counts :
    Does .opsecAdvance s (fun t => t = { s with record := { s.record with opsec := (s.record.opsec + 1) % 2 ^ 40 } }) :=
  ⟨_, if_pos hup, rfl⟩

theorem exec_rtcSlewWrite {w : WRes} (h : s.writeSlew src v = w) : exec (.rtcSlewWrite src v) s = .next w.st := by
  rw [← h]; exact if_pos hup

theorem rtcSlewWrite_busy (h : s.on Reg.RTC_STATUS.SLEWING = true) : Refuses (.rtcSlewWrite src v) s recRefuse 3 :=
  refuses_of_exec (by decide) (exec_rtcSlewWrite src v s hup (if_pos h))

theorem rtcSlewWrite_range (h : s.on Reg.RTC_STATUS.SLEWING = false) (hv : 327680 < v.toInt ∨ v.toInt < -327680) :
    Refuses (.rtcSlewWrite src v) s recRefuse 1 := by
  have hbig : 327680 < (sInt 32 v.toNat).natAbs := by rw [sInt_toNat]; omega
  exact refuses_of_exec (by decide) (exec_rtcSlewWrite src v s hup ((if_neg (by rw [h]; exact Bool.false_ne_true)).trans (if_pos hbig)))

theorem rtcSlewWrite_starts (h : s.on Reg.RTC_STATUS.SLEWING = false) (hhi : v.toInt ≤ 327680) (hlo : -327680 ≤ v.toInt)
    (hroom : s.record.events.length < 128) :
    Does (.rtcSlewWrite src v) s (fun t => t = { s with io := t.io, rtc := { s.rtc with slew := v.toInt, sub := 0 }, record := t.record } ∧
      t.on Reg.RTC_STATUS.SLEWING = (v != 0) ∧ Recorded s t 3 v.toNat (if src = .fobex then 1 else 0)) := by
  have hsmall : ¬ 327680 < (sInt 32 v.toNat).natAbs := by rw [sInt_toNat]; omega
  have hrun := exec_rtcSlewWrite src v s hup ((if_neg (by rw [h]; exact Bool.false_ne_true)).trans (if_neg hsmall))
  rw [WRes.ok_st, sInt_toNat, toInt_bne_zero] at hrun
  generalize hx : ({ s with rtc := { s.rtc with slew := v.toInt, sub := 0 } } : State) = x at hrun
  have hslewing := x.on_wf_b2n (v != 0) Reg.RTC_STATUS.SLEWING (by decide) rfl
  have hregs := (regs_refl x [Reg.RTC_STATUS_at]).wf Reg.RTC_STATUS.SLEWING (b2n (v != 0)) (.head _)
  generalize x.wf Reg.RTC_STATUS.SLEWING (b2n (v != 0)) = u at hrun hslewing hregs
  have hu := hregs.eq_io
  have hrec : u.record = s.record := by rw [hu, ← hx]
  refine ⟨_, hrun, ?_, ?_, recorded_evRecord s 3 v.toNat _ 0 hroom hrec⟩
  · rw [State.evRecord_room _ _ _ _ _ (by rw [hrec]; exact hroom), hu, ← hx]
    rfl
  · rw [State.evRecord_room _ _ _ _ _ (by rw [hrec]; exact hroom), State.on_onRec]
    exact hslewing

theorem slewEnd_ends (h : s.rtc.slew = 0) : Does .slewEnd s (fun t => Regs s t [Reg.RTC_STATUS_at] [] ∧ t.on Reg.RTC_STATUS.SLEWING = false ∧
    t.on Reg.RTC_STATUS.VALID = s.on Reg.RTC_STATUS.VALID) := by
  refine ⟨s.wf Reg.RTC_STATUS.SLEWING 0, if_pos (by rw [hup, h]; rfl), (regs_refl s _).wf _ _ (.head _),
    s.on_wf_b2n false Reg.RTC_STATUS.SLEWING (by decide) rfl, s.on_wf_other _ _ _ (by decide)⟩

omit hup in
theorem slewEnd_waits (h : s.rtc.slew ≠ 0) : Does .slewEnd s (fun t => t = s) :=
  ⟨_, if_neg (by rw [Bool.and_eq_true, beq_iff_eq]; exact fun hc => h hc.2), rfl⟩

/-! ## Calendar steps (R356) -/

theorem exec_calendarStep {w : WRes} (h : s.writeRtcSet src Reg.RTC_SET_FRAC_at (putBits v 31 1 1) = w) :
    exec (.calendarStep src v) s = .next w.st := by
  rw [← h]; exact if_pos hup

theorem calendarStep_absent (h : ¬ presence src s) : Refuses (.calendarStep src v) s recRefuse 5 := by
  refine refuses_of_exec (by decide) (exec_calendarStep src v s hup (w := ⟨s.refuse recRefuse 5, 1⟩) ?_)
  rw [State.writeRtcSet, gate_absent h]

theorem calendarStep_pwrfail (h : presence src s) (hp : s.on Reg.REC_STATUS.PWRFAIL = true) : Refuses (.calendarStep src v) s recRefuse 3 := by
  refine refuses_of_exec (by decide) (exec_calendarStep src v s hup (w := s.refused recRefuse 3) ?_)
  rw [State.writeRtcSet, gate_pwrfail h hp]

omit hup in
theorem State.stepCalendar_steps {u : State} (hroom : s.record.events.length < 128) (hrec : u.record = s.record) (hrtc : u.rtc = s.rtc) (sec frac : Nat) :
    (u.stepCalendar sec frac).rtc = { s.rtc with cal := sec * 2 ^ 15 + frac, slew := 0, sub := 0 } ∧
      (u.stepCalendar sec frac).on Reg.RTC_STATUS.VALID = true ∧ (u.stepCalendar sec frac).on Reg.RTC_STATUS.SLEWING = false ∧
      Recorded s (u.stepCalendar sec frac) 2 s.calSec sec := by
  have hold : u.calSec = s.calSec := by rw [State.calSec, State.calSec, hrtc]
  rw [State.stepCalendar, hold]
  generalize hx : ({ u with rtc := { u.rtc with cal := sec * 2 ^ 15 + frac, slew := 0, sub := 0 } } : State) = x
  have hvalid : ((x.wf Reg.RTC_STATUS.VALID 1).wf Reg.RTC_STATUS.SLEWING 0).on Reg.RTC_STATUS.VALID = true :=
    (State.on_wf_other _ _ _ _ (by decide)).trans (x.on_wf_b2n true Reg.RTC_STATUS.VALID (by decide) rfl)
  have hslewing : ((x.wf Reg.RTC_STATUS.VALID 1).wf Reg.RTC_STATUS.SLEWING 0).on Reg.RTC_STATUS.SLEWING = false :=
    State.on_wf_b2n _ false Reg.RTC_STATUS.SLEWING (by decide) rfl
  have hregs : Regs x ((x.wf Reg.RTC_STATUS.VALID 1).wf Reg.RTC_STATUS.SLEWING 0) [Reg.RTC_STATUS_at] [] :=
    ((regs_refl x _).wf Reg.RTC_STATUS.VALID 1 (.head _)).wf Reg.RTC_STATUS.SLEWING 0 (.head _)
  generalize (x.wf Reg.RTC_STATUS.VALID 1).wf Reg.RTC_STATUS.SLEWING 0 = y at hvalid hslewing hregs
  have hyrec : y.record = s.record := by rw [hregs.eq_io, ← hx]; exact hrec
  have hyrtc : y.rtc = { s.rtc with cal := sec * 2 ^ 15 + frac, slew := 0, sub := 0 } := by rw [hregs.eq_io, ← hx, ← hrtc]
  refine ⟨?_, ?_, ?_, recorded_evRecord s 2 s.calSec sec frac hroom hyrec⟩
  all_goals rw [State.evRecord_room _ _ _ _ _ (by rw [hyrec]; exact hroom)]
  · exact hyrtc
  · exact hvalid
  · exact hslewing

theorem calendarStep_steps (h : presence src s) (hp : s.on Reg.REC_STATUS.PWRFAIL = false) (hroom : s.record.events.length < 128) :
    Does (.calendarStep src v) s (fun t =>
      t.rtc = { s.rtc with cal := s.rf Reg.RTC_SET_SEC.VALUE * 2 ^ 15 + getBits v 0 15, slew := 0, sub := 0 } ∧
      t.on Reg.RTC_STATUS.VALID = true ∧ t.on Reg.RTC_STATUS.SLEWING = false ∧ Recorded s t 2 s.calSec (s.rf Reg.RTC_SET_SEC.VALUE)) := by
  have hgo : getBits (putBits v 31 1 1) 31 1 = 1 := getBits_putBits_same _ _ _ _ (by decide)
  have hfrac : getBits (putBits v 31 1 1) 0 15 = getBits v 0 15 := getBits_putBits_other _ _ _ _ _ _ (.inl (by decide))
  have hset : s.writeRtcSet src Reg.RTC_SET_FRAC_at (putBits v 31 1 1) =
      .ok ((s.writeReg .all Reg.RTC_SET_FRAC_at (putBits (putBits v 31 1 1) 31 1 0)).stepCalendar
        ((s.writeReg .all Reg.RTC_SET_FRAC_at (putBits (putBits v 31 1 1) 31 1 0)).rf Reg.RTC_SET_SEC.VALUE) (getBits v 0 15)) := by
    rw [State.writeRtcSet, gate_open h hp, hfrac, if_pos rfl]
    exact congrArg WRes.ok (if_pos ⟨rfl, hgo⟩)
  have hrun := exec_calendarStep src v s hup hset
  rw [WRes.ok_st] at hrun
  generalize putBits (putBits v 31 1 1) 31 1 0 = w at hrun
  have hsec : (s.writeReg .all Reg.RTC_SET_FRAC_at w).rf Reg.RTC_SET_SEC.VALUE = s.rf Reg.RTC_SET_SEC.VALUE := s.rf_writeReg_other _ _ _ _ (by decide)
  have hregs := regs_writeReg s .all Reg.RTC_SET_FRAC_at w
  generalize s.writeReg .all Reg.RTC_SET_FRAC_at w = u at hrun hsec hregs
  have hu := hregs.eq_io
  refine ⟨_, hrun, ?_⟩
  rw [hsec]
  exact State.stepCalendar_steps s hroom (by rw [hu]) (by rw [hu]) _ _

/-! ## Latches (R352, R354, R365) -/

theorem recOpsecLoRead_latches : Does .recOpsecLoRead s (fun t => t = { s with record := { s.record with opHi := s.record.opsec / 2 ^ 32 } }) :=
  ⟨_, if_pos hup, rfl⟩

theorem rtcSecRead_latches : Does .rtcSecRead s (fun t => t = { s with rtc := { s.rtc with frac := s.rtc.cal % 2 ^ 15 } }) :=
  ⟨_, if_pos hup, rfl⟩

theorem recHistSelWrite_latches : Does (.recHistSelWrite v) s (fun t =>
    t.record = { s.record with bin := SMap.get (s.chan (getBits v 0 6)).bins 0 (getBits v 8 8) } ∧
      t.rf Reg.REC_HIST_SEL.CHANNEL = getBits v 0 6 ∧ t.rf Reg.REC_HIST_SEL.BIN = getBits v 8 8) := by
  have hch : (s.writeReg .all Reg.REC_HIST_SEL_at v).rf Reg.REC_HIST_SEL.CHANNEL = getBits v 0 6 :=
    s.rf_writeReg_takes .all Reg.REC_HIST_SEL.CHANNEL v (by decide)
  have hbin : (s.writeReg .all Reg.REC_HIST_SEL_at v).rf Reg.REC_HIST_SEL.BIN = getBits v 8 8 :=
    s.rf_writeReg_takes .all Reg.REC_HIST_SEL.BIN v (by decide)
  exact ⟨s.writeHistSel v, if_pos hup, rfl, hch, hbin⟩

theorem recChSelWrite_latches : Does (.recChSelWrite v) s (fun t => t.record = { s.record with chan := t.record.chan } ∧
    t.rf Reg.REC_CH_SEL.CHANNEL = getBits v 0 6 ∧ t.record.chan[0]? = some (BitVec.ofNat 32 (s.chan (getBits v 0 6)).taken) ∧
      t.record.chan[2]? = some (BitVec.ofNat 32 (s.chan (getBits v 0 6)).dropped)) := by
  have hch : (s.writeReg .all Reg.REC_CH_SEL_at v).rf Reg.REC_CH_SEL.CHANNEL = getBits v 0 6 :=
    s.rf_writeReg_takes .all Reg.REC_CH_SEL.CHANNEL v (by decide)
  exact ⟨s.writeChSel v, if_pos hup, rfl, hch, rfl, rfl⟩

end

/-- Settles O42: each command is one equation of its block; a step or slew accepted makes its EVENT record. -/
theorem recorderTimeAndLatches : Obligations.RecorderTimeAndLatches := by
  intro src v s hup
  exact ⟨opsecAdvance_counts s hup, rtcSlewWrite_busy src v s hup, rtcSlewWrite_range src v s hup, rtcSlewWrite_starts src v s hup,
    slewEnd_ends s hup, slewEnd_waits s, calendarStep_absent src v s hup, calendarStep_pwrfail src v s hup, calendarStep_steps src v s hup,
    recOpsecLoRead_latches s hup, rtcSecRead_latches s hup, recHistSelWrite_latches v s hup, recChSelWrite_latches v s hup⟩

end Sys2Proof.Machine
end

section
/-!
PROOFS. The watchdog and the trial of an image (R412, R414, R416, R417, R424).
-/

namespace Sys2Proof.Machine
open Sys2Proof.Claims

/-! ## Trials (R412, R414) -/

/-- An UPSEQ latch: a whole register, not one that the end of a trial clears. -/
def upseqLatch (f : Fd) : Prop := f.lo = 0 ∧ f.width = 32 ∧ f.addr ≠ Reg.BOOT_TRIAL_at ∧ f.addr ≠ Reg.BOOT_STATUS_at

theorem upseqLatch_trialLatch (reject : Bool) (k : Nat) : upseqLatch (if reject then rejOf k else confOf k) := by
  have hconf : upseqLatch (confOf k) := by
    rw [confOf]
    split <;> exact ⟨rfl, rfl, by decide, by decide⟩
  have hrej : upseqLatch (rejOf k) := by
    rw [rejOf]
    split <;> exact ⟨rfl, rfl, by decide, by decide⟩
  cases reject
  · exact hconf
  · exact hrej

theorem upseqLatch.ends {f : Fd} (hf : upseqLatch f) (s : State) (q : Nat) (hq : q < 2 ^ 32) :
    Regs s (((s.wf f q).clearTrial).wf Reg.BOOT_STATUS.TRIAL 0) [f.addr, Reg.BOOT_TRIAL_at, Reg.BOOT_STATUS_at] [] ∧
      (((s.wf f q).clearTrial).wf Reg.BOOT_STATUS.TRIAL 0).rf f = q ∧
      (((s.wf f q).clearTrial).wf Reg.BOOT_STATUS.TRIAL 0).rf Reg.BOOT_TRIAL.SLOT = 0 ∧
      (((s.wf f q).clearTrial).wf Reg.BOOT_STATUS.TRIAL 0).rf Reg.BOOT_TRIAL.TRIES = 0 := by
  obtain ⟨hlo, hwidth, htrial, hstatus⟩ := hf
  have hset : (s.wf f q).rf f = q := by
    rw [s.rf_wf_same f q (by rw [hlo, hwidth]), hwidth, Nat.mod_eq_of_lt hq]
  refine ⟨?_, ?_, ?_, ?_⟩
  · exact ((((regs_refl s _).wf f q (.head _)).wf Reg.BOOT_TRIAL.SLOT 0 (.tail _ (.head _))).wf Reg.BOOT_TRIAL.TRIES 0 (.tail _ (.head _))).wf
      Reg.BOOT_STATUS.TRIAL 0 (.tail _ (.tail _ (.head _)))
  · generalize s.wf f q = u at hset
    rw [State.clearTrial, State.rf_wf_other _ _ _ _ (.inl hstatus), State.rf_wf_other _ _ _ _ (.inl htrial),
      State.rf_wf_other _ _ _ _ (.inl htrial)]
    exact hset
  · generalize s.wf f q = u
    rw [State.clearTrial, State.rf_wf_other _ _ _ _ (by decide), State.rf_wf_other _ _ _ _ (by decide), State.rf_wf_same _ _ _ (by decide),
      Nat.zero_mod]
  · generalize s.wf f q = u
    rw [State.clearTrial, State.rf_wf_other _ _ _ _ (by decide), State.rf_wf_same _ _ _ (by decide), Nat.zero_mod]

section
variable (s : State) (src : Src) (v : Word)

/-- A trial confirmed or rejected, as its obligation says. -/
def TrialEnds (i : Instr) (reject : Bool) : Prop :=
  let k := s.rf Reg.BOOT_STATUS.SLOT
  Does i s (fun t => t = { s with io := t.io } ∧ t.rf (if reject then rejOf k else confOf k) = s.rf Reg.BOOT_IMAGE.UPSEQ ∧
    t.rf Reg.BOOT_TRIAL.SLOT = 0 ∧ t.rf Reg.BOOT_TRIAL.TRIES = 0 ∧
    ∀ a, a ∉ [(if reject then rejOf k else confOf k).addr, Reg.BOOT_TRIAL_at, Reg.BOOT_STATUS_at] → t.reg a = s.reg a)

theorem endTrial_eq (reject : Bool) : s.endTrial reject =
    ((s.wf (if reject then rejOf (s.rf Reg.BOOT_STATUS.SLOT) else confOf (s.rf Reg.BOOT_STATUS.SLOT)) (s.rf Reg.BOOT_IMAGE.UPSEQ)).clearTrial).wf
      Reg.BOOT_STATUS.TRIAL 0 := by
  cases reject <;> rfl

theorem trialEnds_of_exec {i : Instr} {reject : Bool} (h : exec i s = .next (s.endTrial reject)) : TrialEnds s i reject := by
  obtain ⟨hregs, hlatch, hslot, htries⟩ := (upseqLatch_trialLatch reject (s.rf Reg.BOOT_STATUS.SLOT)).ends s (s.rf Reg.BOOT_IMAGE.UPSEQ) (getBits_lt _ _ _)
  rw [endTrial_eq] at h
  exact ⟨_, h, hregs.eq_io, hlatch, hslot, htries, hregs.2⟩

theorem exec_toBoot {i : Instr} {f : State → WRes} {w : WRes} (hon : s.online islBoot = true) (hi : exec i s = .next (s.toBoot f)) (h : f s = w) :
    exec i s = .next w.st := by
  rw [hi, State.toBoot, if_pos hon, h]

theorem exec_bootConfirm (hon : s.online islBoot = true) {w : WRes} (h : s.writeConfirm src v = w) : exec (.bootConfirm src v) s = .next w.st :=
  exec_toBoot s (f := fun s => s.writeBoot src Reg.BOOT_CONFIRM_at v) hon rfl h

theorem exec_bootSysreset (hon : s.online islBoot = true) {w : WRes} (h : s.writeSysreset src v = w) : exec (.bootSysreset src v) s = .next w.st :=
  exec_toBoot s (f := fun s => s.writeBoot src Reg.BOOT_SYSRESET_at v) hon rfl h

theorem bootConfirm_cases (hon : s.online islBoot = true) :
    (src = .fobex → Refuses (.bootConfirm src v) s bootRefuse 3) ∧
    (src ≠ .fobex → getBits v 0 16 ≠ 0xC0F1 → Refuses (.bootConfirm src v) s bootRefuse 2) ∧
    (src ≠ .fobex → getBits v 0 16 = 0xC0F1 → ¬ s.on Reg.BOOT_STATUS.TRIAL = true → Refuses (.bootConfirm src v) s bootRefuse 1) ∧
    (src ≠ .fobex → getBits v 0 16 = 0xC0F1 → s.on Reg.BOOT_STATUS.TRIAL = true → TrialEnds s (.bootConfirm src v) (v.getLsbD 16)) := by
  refine ⟨fun hsrc => ?_, fun hsrc hkey => ?_, fun hsrc hkey htrial => ?_, fun hsrc hkey htrial => ?_⟩
  · exact refuses_of_exec (by decide) (exec_bootConfirm s src v hon (if_pos hsrc))
  · exact refuses_of_exec (by decide) (exec_bootConfirm s src v hon ((if_neg hsrc).trans (if_pos hkey)))
  · exact refuses_of_exec (by decide) (exec_bootConfirm s src v hon ((if_neg hsrc).trans ((if_neg (not_not.2 hkey)).trans
      (if_pos (by rw [Bool.eq_false_iff.2 htrial]; rfl)))))
  · have hreject : (getBits v 16 1 == 1) = v.getLsbD 16 := by
      rw [Bool.eq_iff_iff, beq_iff_eq, getBits_one_iff]
    refine trialEnds_of_exec s (exec_bootConfirm s src v hon (w := .ok (s.endTrial (v.getLsbD 16))) ?_)
    rw [← hreject]
    exact (if_neg hsrc).trans ((if_neg (not_not.2 hkey)).trans (if_neg (by rw [htrial]; exact Bool.false_ne_true)))

theorem bootSysreset_cases (hon : s.online islBoot = true) :
    (src = .fobex → Refuses (.bootSysreset src v) s bootRefuse 3) ∧
    (src ≠ .fobex → getBits v 0 16 ≠ 0x5E57 → Refuses (.bootSysreset src v) s bootRefuse 2) := by
  refine ⟨fun hsrc => ?_, fun hsrc hkey => ?_⟩
  · exact refuses_of_exec (by decide) (exec_bootSysreset s src v hon (if_pos hsrc))
  · exact refuses_of_exec (by decide) (exec_bootSysreset s src v hon ((if_neg hsrc).trans (if_pos hkey)))

/-- BOOT_TRIAL_CTL written with one of its bits 1 and the other, `b`, as it is (R390). -/
theorem writeTrialCtl_cases {i : Instr} {w : Word} {b reject : Bool} (hi : exec i s = .next (s.writeTrialCtl src w).st)
    (hw : getBits w 0 2 = if b then 3 else if reject then 2 else 1) :
    (¬ presence src s → Refuses i s bootRefuse 4) ∧
    (presence src s → ¬ s.on Reg.BOOT_STATUS.TRIAL = true ∨ b = true → Refuses i s bootRefuse 1) ∧
    (presence src s → s.on Reg.BOOT_STATUS.TRIAL = true → b = false → TrialEnds s i reject) := by
  have hrun {r : WRes} (h : s.writeTrialCtl src w = r) : exec i s = .next r.st := by rw [hi, h]
  have hsome : getBits w 0 2 ≠ 0 := by rw [hw]; cases b <;> cases reject <;> decide
  have hpass (hp : presence src s) : ¬ (!(s.permit src true).presOk) = true := by
    rw [(presOk_iff true).2 hp]; exact Bool.false_ne_true
  refine ⟨fun hp => ?_, fun hp hbad => ?_, fun hp htrial hb => ?_⟩
  · have hno : (!(s.permit src true).presOk) = true := by
      rw [Bool.not_eq_true', Bool.eq_false_iff, ne_eq, presOk_iff]; exact hp
    exact refuses_of_exec (by decide) (hrun (if_pos hno))
  · have hbad' : getBits w 0 2 = 3 ∨ (!s.on Reg.BOOT_STATUS.TRIAL) = true := by
      rcases hbad with h | h
      · exact .inr (by rw [Bool.eq_false_iff.2 h]; rfl)
      · exact .inl (by rw [hw, h]; rfl)
    exact refuses_of_exec (by decide) (hrun ((if_neg (hpass hp)).trans ((if_neg hsome).trans (if_pos hbad'))))
  · have hgood : ¬ (getBits w 0 2 = 3 ∨ (!s.on Reg.BOOT_STATUS.TRIAL) = true) := by
      rw [htrial, hw, hb]; cases reject <;> decide
    have hreject : (getBits w 0 2 == 2) = reject := by rw [hw, hb]; cases reject <;> rfl
    refine trialEnds_of_exec s (hrun (r := .ok (s.endTrial reject)) ?_)
    rw [← hreject]
    exact (if_neg (hpass hp)).trans ((if_neg hsome).trans (if_neg hgood))

theorem getBits_trialCtl : getBits (putBits v 0 1 1) 0 2 = (if v.getLsbD 1 then 3 else 1) ∧
    getBits (putBits v 1 1 1) 0 2 = (if v.getLsbD 0 then 3 else 2) := by
  have hone (k : Nat) : getBits v k 1 = if v.getLsbD k then 1 else 0 := by rw [getBits_one]; cases v.getLsbD k <;> rfl
  rw [getBits_two, getBits_two, getBits_putBits_same _ _ _ _ (by decide), getBits_putBits_same _ _ _ _ (by decide),
    getBits_putBits_other _ _ _ _ _ _ (.inr (by decide)), getBits_putBits_other _ _ _ _ _ _ (.inl (by decide)), hone, hone]
  constructor
  · cases v.getLsbD 1 <;> rfl
  · cases v.getLsbD 0 <;> rfl

theorem trialCtl_cases (hon : s.online islBoot = true) :
    ∀ e ∈ ([(.trialConfirm, false, 1), (.trialReject, true, 0)] : List ((Src → Word → Instr) × Bool × Nat)),
      (¬ presence src s → Refuses (e.1 src v) s bootRefuse 4) ∧
      (presence src s → ¬ s.on Reg.BOOT_STATUS.TRIAL = true ∨ v.getLsbD e.2.2 = true → Refuses (e.1 src v) s bootRefuse 1) ∧
      (presence src s → s.on Reg.BOOT_STATUS.TRIAL = true → v.getLsbD e.2.2 = false → TrialEnds s (e.1 src v) e.2.1) := by
  obtain ⟨hconfirm, hreject⟩ := getBits_trialCtl v
  intro e he
  rcases List.mem_pair.1 he with rfl | rfl
  · exact writeTrialCtl_cases s src (exec_toBoot s (f := fun s => s.writeBoot src Reg.BOOT_TRIAL_CTL_at (putBits v 0 1 1)) hon rfl rfl) hconfirm
  · exact writeTrialCtl_cases s src (exec_toBoot s (f := fun s => s.writeBoot src Reg.BOOT_TRIAL_CTL_at (putBits v 1 1 1)) hon rfl rfl) hreject

/-! ## The watchdog (R416, R417) -/

variable (hup : s.aonUp = true)
include hup

theorem exec_wdtKeyWrite {w : WRes} (h : s.writeWdtKey src v = w) : exec (.wdtKeyWrite src v) s = .next w.st := by
  rw [← h]; exact if_pos hup

theorem wdtKeyWrite_fobex (hsrc : src = .fobex) : Refuses (.wdtKeyWrite src v) s wdtRefuse 3 :=
  refuses_of_exec (by decide) (exec_wdtKeyWrite s src v hup (if_pos hsrc))

theorem wdtKeyWrite_arms (hsrc : src ≠ .fobex) (harmed : ¬ s.on Reg.WDT_STATUS.ARMED = true) (hkey : getBits v 0 16 = 0x5A5A) :
    Does (.wdtKeyWrite src v) s (fun t => t = { s with io := t.io } ∧ t.on Reg.WDT_STATUS.ARMED = true ∧
      ∀ a, a ≠ Reg.WDT_STATUS_at → t.reg a = s.reg a) := by
  have hregs := (regs_refl s [Reg.WDT_STATUS_at]).wf Reg.WDT_STATUS.ARMED 1 (.head _)
  exact ⟨_, exec_wdtKeyWrite s src v hup ((if_neg hsrc).trans (if_pos ⟨Bool.eq_false_iff.2 harmed, hkey⟩)), hregs.eq_io,
    s.on_wf_b2n true Reg.WDT_STATUS.ARMED (by decide) rfl, fun a ha => hregs.2 a (fun hm => ha (List.mem_singleton.1 hm))⟩

theorem wdtKeyWrite_bad (hsrc : src ≠ .fobex) (hpet : ¬ (s.on Reg.WDT_STATUS.ARMED = true ∧ getBits v 0 16 = 0xA5A5))
    (harm : ¬ (¬ s.on Reg.WDT_STATUS.ARMED = true ∧ getBits v 0 16 = 0x5A5A)) :
    Does (.wdtKeyWrite src v) s (fun t => t = { s with io := t.io } ∧ t.on Reg.WDT_STATUS.ARMED = false ∧ Counted s t Reg.WDT_STATUS.BADKEY) := by
  have hw : s.writeWdtKey src v = .ok ((s.wf Reg.WDT_STATUS.ARMED 0).incSat Reg.WDT_STATUS.BADKEY) :=
    (if_neg hsrc).trans ((if_neg (fun h => harm ⟨Bool.eq_false_iff.1 h.1, h.2⟩)).trans (congrArg WRes.ok (if_neg hpet)))
  have hcount : ((s.wf Reg.WDT_STATUS.ARMED 0).incSat Reg.WDT_STATUS.BADKEY).rf Reg.WDT_STATUS.BADKEY =
      min (2 ^ Reg.WDT_STATUS.BADKEY.width - 1) (s.rf Reg.WDT_STATUS.BADKEY + 1) := by
    rw [State.rf_incSat _ _ _ (by decide), State.rf_wf_other _ _ _ _ (by decide)]
  have hregs := ((regs_refl s [Reg.WDT_STATUS_at]).wf Reg.WDT_STATUS.ARMED 0 (.head _)).incSat Reg.WDT_STATUS.BADKEY 1 (.head _)
  refine ⟨_, exec_wdtKeyWrite s src v hup hw, hregs.eq_io, ?_, hcount⟩
  rw [WRes.ok_st, State.on_incSat_other _ _ _ _ (by decide)]
  exact s.on_wf_b2n false Reg.WDT_STATUS.ARMED (by decide) rfl

omit hup in
/-- The count restarted (R416). -/
theorem State.wdtRestart_restarts (u : State) : ∃ x, u.wdtRestart =
    ({ x with boot := { u.boot with wdtUs := 0 }, quietUs := if u.on Reg.WDT_STATUS.STAGE1 then 0 else u.quietUs } : State) ∧
      Regs u x [Reg.WDT_STATUS_at, Reg.WDT_LEFT_at] [] ∧ x.on Reg.WDT_STATUS.STAGE1 = false ∧
      x.on Reg.WDT_STATUS.ARMED = u.on Reg.WDT_STATUS.ARMED ∧ x.rf Reg.WDT_LEFT.MS = 1000 * u.rf Reg.WDT_CFG.TIMEOUT_S := by
  have hlt : u.rf Reg.WDT_CFG.TIMEOUT_S < 64 := getBits_lt _ _ 6
  have hms : 1000 * u.rf Reg.WDT_CFG.TIMEOUT_S % 2 ^ 16 = 1000 * u.rf Reg.WDT_CFG.TIMEOUT_S := Nat.mod_eq_of_lt (by omega)
  refine ⟨(u.wf Reg.WDT_STATUS.STAGE1 0).wf Reg.WDT_LEFT.MS (1000 * u.rf Reg.WDT_CFG.TIMEOUT_S), ?_, ?_, ?_, ?_, ?_⟩
  · rw [State.wdtRestart]
    cases u.on Reg.WDT_STATUS.STAGE1 <;> rfl
  · exact ((regs_refl u _).wf Reg.WDT_STATUS.STAGE1 0 (.head _)).wf Reg.WDT_LEFT.MS _ (.tail _ (.head _))
  · rw [State.on_wf_other _ _ _ _ (by decide)]
    exact u.on_wf_b2n false Reg.WDT_STATUS.STAGE1 (by decide) rfl
  · rw [State.on_wf_other _ _ _ _ (by decide), State.on_wf_other _ _ _ _ (by decide)]
  · rw [State.rf_wf_same _ _ _ (by decide)]
    exact hms

theorem wdtKeyWrite_pets (hsrc : src ≠ .fobex) (harmed : s.on Reg.WDT_STATUS.ARMED = true) (hkey : getBits v 0 16 = 0xA5A5)
    (hheld : s.on Reg.WDT_STATUS.HELD = false) : Does (.wdtKeyWrite src v) s (fun t =>
      t = { s with io := t.io, boot := { s.boot with wdtUs := 0 }, quietUs := if s.on Reg.WDT_STATUS.STAGE1 then 0 else s.quietUs } ∧
      t.on Reg.WDT_STATUS.ARMED = false ∧ t.on Reg.WDT_STATUS.STAGE1 = false ∧
      t.rf Reg.WDT_LEFT.MS = 1000 * s.rf Reg.WDT_CFG.TIMEOUT_S ∧ ∀ a, a ∉ [Reg.WDT_STATUS_at, Reg.WDT_LEFT_at] → t.reg a = s.reg a) := by
  have hpet : s.writeWdtKey src v = .ok (s.wf Reg.WDT_STATUS.ARMED 0).pet :=
    (if_neg hsrc).trans ((if_neg (fun h => Bool.false_ne_true (h.1.symm.trans harmed))).trans (congrArg WRes.ok (if_pos ⟨harmed, hkey⟩)))
  have hrun := exec_wdtKeyWrite s src v hup hpet
  have hunarmed := s.on_wf_b2n false Reg.WDT_STATUS.ARMED (by decide) rfl
  have hstage : (s.wf Reg.WDT_STATUS.ARMED 0).on Reg.WDT_STATUS.STAGE1 = s.on Reg.WDT_STATUS.STAGE1 := s.on_wf_other _ _ _ (by decide)
  have hfree : (s.wf Reg.WDT_STATUS.ARMED 0).on Reg.WDT_STATUS.HELD = false := (s.on_wf_other _ _ _ (by decide)).trans hheld
  have htime : (s.wf Reg.WDT_STATUS.ARMED 0).rf Reg.WDT_CFG.TIMEOUT_S = s.rf Reg.WDT_CFG.TIMEOUT_S := s.rf_wf_other _ _ _ (by decide)
  have hregs := (regs_refl s [Reg.WDT_STATUS_at, Reg.WDT_LEFT_at]).wf Reg.WDT_STATUS.ARMED 0 (.head _)
  change (s.wf Reg.WDT_STATUS.ARMED 0).on Reg.WDT_STATUS.ARMED = false at hunarmed
  rw [State.pet, hfree] at hrun
  generalize s.wf Reg.WDT_STATUS.ARMED 0 = u at hrun hunarmed hstage htime hregs
  obtain ⟨x, hx, hxregs, hxstage, hxarmed, hxms⟩ := u.wdtRestart_restarts
  refine ⟨u.wdtRestart, hrun, ?_⟩
  have hall := hregs.trans hxregs
  rw [hx]
  refine ⟨?_, hxarmed.trans hunarmed, hxstage, hxms.trans (by rw [htime]), hall.2⟩
  rw [hstage, hall.eq_io, hregs.eq_io]

omit hup

/-- A delivery to a pier whose route is valid. -/
theorem State.toPier_ok {u : State} {stop p : Nat} {f : State → State} (h : u.routeOk (32 + stop) p = true) : u.toPier stop p f = f u := if_pos h

theorem State.notQuiet_wf (u : State) (f : Fd) (k : Nat) : u.notQuiet.wf f k = (u.wf f k).notQuiet := rfl

theorem pwmSafe_gio (u : State) : u.pwmSafe = { u with gio := u.pwmSafe.gio } := by
  have hfold (cs : List Nat) : ∀ u : State, cs.foldl (fun s c => s.setPwm c { s.pwm c with hold := s.pwmHold c false }) u =
      { u with gio := (cs.foldl (fun s c => s.setPwm c { s.pwm c with hold := s.pwmHold c false }) u).gio } := by
    induction cs with
    | nil => exact fun _ => rfl
    | cons c cs ih =>
      intro u
      rw [List.foldl_cons, ih]
      rfl
  exact hfold _ u

theorem wdtStage1_raises (hheld : s.on Reg.WDT_STATUS.HELD = false) (hstage : s.on Reg.WDT_STATUS.STAGE1 = false) (hms : s.rf Reg.WDT_LEFT.MS = 0)
    (hroute : s.routeOk (32 + stopOf islAon) 0 = true) : Does .wdtStage1 s (fun t =>
      t = { s with io := t.io, boot := { s.boot with wdtUs := 0 }, quietUs := 0, trigs := s.trigs ++ [2], net := t.net, gio := t.gio } ∧
      t.net = { s.net with causes := s.net.causes ++ [(.wdt, 0, 0)] } ∧ t.on Reg.WDT_STATUS.STAGE1 = true ∧
      t.rf Reg.WDT_LEFT.MS = s.rf Reg.WDT_CFG.GRACE_MS ∧ ∀ a, a ∉ [Reg.WDT_STATUS_at, Reg.WDT_LEFT_at] → t.reg a = s.reg a) := by
  have hrun : exec .wdtStage1 s = .next s.wdtStage1 := if_neg (by rw [hheld, hstage, hms]; decide)
  have hlt : s.rf Reg.WDT_CFG.GRACE_MS < 2 ^ 14 := getBits_lt _ _ 14
  have hleft : ((s.wf Reg.WDT_STATUS.STAGE1 1).wf Reg.WDT_LEFT.MS (s.rf Reg.WDT_CFG.GRACE_MS)).rf Reg.WDT_LEFT.MS = s.rf Reg.WDT_CFG.GRACE_MS :=
    (State.rf_wf_same _ _ _ (by decide)).trans (Nat.mod_eq_of_lt (Nat.lt_trans hlt (by decide)))
  have hon : ((s.wf Reg.WDT_STATUS.STAGE1 1).wf Reg.WDT_LEFT.MS (s.rf Reg.WDT_CFG.GRACE_MS)).on Reg.WDT_STATUS.STAGE1 = true :=
    (State.on_wf_other _ _ _ _ (by decide)).trans (s.on_wf_b2n true Reg.WDT_STATUS.STAGE1 (by decide) rfl)
  have hregs := ((regs_refl s [Reg.WDT_STATUS_at, Reg.WDT_LEFT_at]).wf Reg.WDT_STATUS.STAGE1 1 (.head _)).wf Reg.WDT_LEFT.MS
    (s.rf Reg.WDT_CFG.GRACE_MS) (.tail _ (.head _))
  generalize hu : (s.wf Reg.WDT_STATUS.STAGE1 1).wf Reg.WDT_LEFT.MS (s.rf Reg.WDT_CFG.GRACE_MS) = u at hleft hon hregs
  have hboot : u.boot = s.boot := by rw [hregs.eq_io]
  have htrigs : u.trigs = s.trigs := by rw [hregs.eq_io]
  have hnet : u.net = s.net := by rw [hregs.eq_io]
  have heq : s.wdtStage1 = (({ u with quietUs := 0, boot := { u.boot with wdtUs := 0 }, trigs := u.trigs ++ [2] } : State).cause .wdt 0).pwmSafe := by
    have hu' : u.routeOk (32 + stopOf islAon) 0 = true := by rw [hregs.eq_io]; exact hroute
    have hroute' : ({ u with quietUs := 0, boot := { u.boot with wdtUs := 0 }, trigs := u.trigs ++ [2] } : State).routeOk (32 + stopOf islAon) 0 =
      true := hu'
    rw [← State.toPier_ok (f := fun s => s.cause .wdt 0) hroute', State.wdtStage1, State.notQuiet_wf, hu]
    rfl
  rw [heq, pwmSafe_gio] at hrun
  refine ⟨_, hrun, ?_, ?_, ?_, ?_, ?_⟩
  · rw [← hboot, ← htrigs, hregs.eq_io]; rfl
  · rw [← hnet]; rfl
  · exact hon
  · exact hleft
  · exact hregs.2

theorem wdtStages_wait (h : s.on Reg.WDT_STATUS.HELD = true ∨ s.rf Reg.WDT_LEFT.MS ≠ 0) :
    Does .wdtStage1 s (fun t => t = s) ∧ Does .wdtStage2 s (fun t => t = s) := by
  have hwait (b : Bool) : (s.on Reg.WDT_STATUS.HELD || b || s.rf Reg.WDT_LEFT.MS != 0) = true := by
    rcases h with h | h
    · rw [h]; rfl
    · rw [bne_iff_ne.2 h, Bool.or_true]
  exact ⟨⟨_, if_pos (hwait _), rfl⟩, ⟨_, if_pos (hwait _), rfl⟩⟩

end

/-- Settles O47: refusals in the order of their checks; what is accepted is one equation of the block. -/
theorem watchdogAndTrials : Obligations.WatchdogAndTrials := by
  refine ⟨fun src v s hon => ?_, fun src v s hup => ?_, fun s => ?_⟩
  · obtain ⟨hfobex, hkey, htrial, hends⟩ := bootConfirm_cases s src v hon
    obtain ⟨hsys, hsyskey⟩ := bootSysreset_cases s src v hon
    exact ⟨hfobex, hkey, htrial, hends, trialCtl_cases s src v hon, hsys, hsyskey⟩
  · exact ⟨wdtKeyWrite_fobex s src v hup, wdtKeyWrite_arms s src v hup, wdtKeyWrite_pets s src v hup, wdtKeyWrite_bad s src v hup⟩
  · exact ⟨wdtStage1_raises s, wdtStages_wait s⟩

end Sys2Proof.Machine
end

section
/-!
PROOFS. The Parapet: the button and its window, the seal, and PAR_CFG (R379 to R383, R385, R387, R388, R392, R393).
-/

namespace Sys2Proof.Claims
open Sys2Proof.Machine

section
variable {s t u : State} {as : List Nat} {es : List (Fin 64)}

theorem parOnly_of_regs (h : Regs s t as es) : ParOnly s t as := by
  refine ⟨?_, h.2⟩
  have hnet : t.net = { s.net with events := t.net.events } := by rw [h.1]
  rw [← hnet, h.1]

theorem ParOnly.trans (h : ParOnly s t as) (k : ParOnly t u as) : ParOnly s u as := by
  refine ⟨?_, fun a ha => (k.2 a ha).trans (h.2 a ha)⟩
  rw [k.1, h.1]

theorem parOnly_onPar (f : Par → Par) : ParOnly t (t.onPar f) as := ⟨rfl, fun _ _ => rfl⟩
theorem parOnly_vaultQueue (id : Nat) : ParOnly t (t.vaultQueue id) as := ⟨rfl, fun _ _ => rfl⟩
theorem parOnly_vaultBegin : ParOnly t t.vaultBegin as := by
  refine ⟨?_, fun a _ => t.reg_vaultBegin a⟩
  rw [t.vaultBegin_eq]

theorem parOnly_evRecord (code a0 a1 a2 : Nat) (h : t.record.events.length < 128) : ParOnly t (t.evRecord code a0 a1 a2) as := by
  rw [State.evRecord_room _ _ _ _ _ h]
  exact ⟨rfl, fun _ _ => rfl⟩

end

end Sys2Proof.Claims

namespace Sys2Proof.Machine
open Sys2Proof.Claims

section
variable (s : State) (f : Par → Par)

@[simp] theorem State.record_onPar : (s.onPar f).record = s.record := rfl
@[simp] theorem State.net_onPar : (s.onPar f).net = s.net := rfl
@[simp] theorem State.par_onPar : (s.onPar f).par = f s.par := rfl
@[simp] theorem State.reg_onPar (a : Nat) : (s.onPar f).reg a = s.reg a := rfl
@[simp] theorem State.on_onPar (g : Fd) : (s.onPar f).on g = s.on g := rfl
@[simp] theorem State.held_onPar : (s.onPar f).held = s.held := rfl
@[simp] theorem State.boot_onPar : (s.onPar f).boot = s.boot := rfl
@[simp] theorem State.calSec_onPar : (s.onPar f).calSec = s.calSec := rfl
@[simp] theorem State.calFrac_onPar : (s.onPar f).calFrac = s.calFrac := rfl

end

/-! ## The window's state (R381) -/

section
variable (s : State) (w : Nat)

theorem setWin_same (h : s.win = w) : s.setWin w = s := if_pos h

/-- A change of the window's state: the field, and the event. -/
theorem setWin_changes (h : s.win ≠ w) (hw : w < 4) : Regs s (s.setWin w) [Reg.PAR_STATUS_at] (presEv s) ∧
    (s.setWin w).rf Reg.PAR_STATUS.WIN = w ∧ ∀ f : Fd, Reg.PAR_STATUS.WIN.apart f = true → (s.setWin w).rf f = s.rf f := by
  have heq : s.setWin w = (s.wf Reg.PAR_STATUS.WIN w).raiseIf Reg.PAR_EVCFG.PRES_EVENT Reg.PAR_EVCFG.PRES_EN := if_neg h
  have hregs := (regs_refl s [Reg.PAR_STATUS_at]).wf Reg.PAR_STATUS.WIN w (.head _)
  have hset : (s.wf Reg.PAR_STATUS.WIN w).rf Reg.PAR_STATUS.WIN = w :=
    (s.rf_wf_same Reg.PAR_STATUS.WIN w (by decide)).trans (Nat.mod_eq_of_lt hw)
  have hother (f : Fd) (hf : Reg.PAR_STATUS.WIN.apart f = true) : (s.wf Reg.PAR_STATUS.WIN w).rf f = s.rf f := by
    refine s.rf_wf_other _ _ _ ?_
    rcases Fd.or_of_apart hf with h | h | h
    · exact .inl (Ne.symm h)
    · exact .inr (.inr h)
    · exact .inr (.inl h)
  rw [heq]
  refine ⟨hregs.raiseIf _ _ (ev_wf (by decide) s w), (State.rf_raiseIf _ _ _ _).trans hset, fun f hf => (State.rf_raiseIf _ _ _ _).trans (hother f hf)⟩

theorem on_of_rf {t : State} {f : Fd} (h : t.rf f = s.rf f) : t.on f = s.on f := by rw [State.on, State.on, h]

/-- The timer set (R381). -/
theorem setTimer_sets : ∃ x, s.setTimer = x.onPar (fun p => { p with winUs := 0 }) ∧ Regs s x [Reg.PAR_WIN_LEFT_at] [] ∧
    x.rf Reg.PAR_WIN_LEFT.SEC = 60 * s.rf Reg.PAR_CFG.WINDOW_MIN := by
  have hlt : s.rf Reg.PAR_CFG.WINDOW_MIN < 64 := getBits_lt _ _ 6
  refine ⟨s.wf Reg.PAR_WIN_LEFT.SEC (60 * s.rf Reg.PAR_CFG.WINDOW_MIN), rfl, (regs_refl s _).wf _ _ (.head _), ?_⟩
  rw [State.rf_wf_same _ _ _ (by decide)]
  exact Nat.mod_eq_of_lt (by rw [show 2 ^ Reg.PAR_WIN_LEFT.SEC.width = 4096 from rfl]; omega)

end

/-! ## The button (R381, R382) -/

section
variable (s : State)

/-- Whether a press that begins may open or renew the window (R381). -/
def State.pressLive : Bool := s.on Reg.PAR_STATUS.ARMED && decide (s.rf Reg.PAR_STATUS.WIN = 0) || decide (s.rf Reg.PAR_STATUS.WIN = 2)

/-- The Parapet with one more window counted. -/
def Par.opened (p : Par) : Par := { p with windows := min (2 ^ 32 - 1) (p.windows + 1) }

/-- The Parapet with a press noted or not. -/
def Par.pressed (p : Par) (b : Bool) : Par := { p with press := b }

theorem pressBegin_down (hbtn : s.on Reg.PAR_STATUS.BTN = true) : Does .pressBegin s (fun t => t = s) :=
  ⟨_, if_pos (by rw [hbtn, Bool.or_true]), rfl⟩

theorem pressEnd_up (hbtn : ¬ s.on Reg.PAR_STATUS.BTN = true) : Does .pressEnd s (fun t => t = s) :=
  ⟨_, if_pos (by rw [Bool.eq_false_iff.2 hbtn]; exact Bool.or_true _), rfl⟩

variable (hup : s.aonUp = true)
include hup

/-- The button down and disarmed, and whether the press may still do something. -/
theorem exec_pressBegin (hbtn : ¬ s.on Reg.PAR_STATUS.BTN = true) : ∃ x, Regs s x [Reg.PAR_STATUS_at] [] ∧ x.on Reg.PAR_STATUS.BTN = true ∧
    x.on Reg.PAR_STATUS.ARMED = false ∧ x.rf Reg.PAR_STATUS.WIN = s.rf Reg.PAR_STATUS.WIN ∧
    exec .pressBegin s = .next (if s.on Reg.PAR_STATUS.ARMED = true ∧ s.rf Reg.PAR_STATUS.WIN = 0
      then (x.onPar (fun p => p.pressed s.pressLive)).setWin wHolding else x.onPar (fun p => p.pressed s.pressLive)) := by
  have hwin : ((s.wf Reg.PAR_STATUS.BTN 1).wf Reg.PAR_STATUS.ARMED 0).rf Reg.PAR_STATUS.WIN = s.rf Reg.PAR_STATUS.WIN :=
    (State.rf_wf_other _ _ _ _ (by decide)).trans (State.rf_wf_other _ _ _ _ (by decide))
  have hdown : ((s.wf Reg.PAR_STATUS.BTN 1).wf Reg.PAR_STATUS.ARMED 0).on Reg.PAR_STATUS.BTN = true :=
    (State.on_wf_other _ _ _ _ (by decide)).trans (s.on_wf_b2n true Reg.PAR_STATUS.BTN (by decide) rfl)
  have hdis : ((s.wf Reg.PAR_STATUS.BTN 1).wf Reg.PAR_STATUS.ARMED 0).on Reg.PAR_STATUS.ARMED = false :=
    State.on_wf_b2n _ false Reg.PAR_STATUS.ARMED (by decide) rfl
  have hregs : Regs s ((s.wf Reg.PAR_STATUS.BTN 1).wf Reg.PAR_STATUS.ARMED 0) [Reg.PAR_STATUS_at] [] :=
    ((regs_refl s _).wf Reg.PAR_STATUS.BTN 1 (.head _)).wf Reg.PAR_STATUS.ARMED 0 (.head _)
  refine ⟨_, hregs, hdown, hdis, hwin, ?_⟩
  have hpress : s.pressLive =
      decide ((s.on Reg.PAR_STATUS.ARMED = true ∧ s.rf Reg.PAR_STATUS.WIN = wClosed) ∨ s.rf Reg.PAR_STATUS.WIN = wOpen) := by
    rw [State.pressLive, Bool.eq_iff_iff, Bool.or_eq_true, Bool.and_eq_true, decide_eq_true_iff, decide_eq_true_iff, decide_eq_true_iff]
    exact Iff.rfl
  have hrun : exec .pressBegin s = _ := if_neg (by rw [hup, Bool.eq_false_iff.2 hbtn]; exact Bool.false_ne_true)
  rw [hpress, hrun]
  generalize (s.wf Reg.PAR_STATUS.BTN 1).wf Reg.PAR_STATUS.ARMED 0 = x at hwin
  have hw : x.win = s.rf Reg.PAR_STATUS.WIN := hwin
  have hw' (f : Par → Par) : (x.onPar f).win = s.rf Reg.PAR_STATUS.WIN := hwin
  rw [hw, hw']
  rfl

theorem pressBegin_up (hbtn : ¬ s.on Reg.PAR_STATUS.BTN = true) :
    let win := s.rf Reg.PAR_STATUS.WIN
    let armed := s.on Reg.PAR_STATUS.ARMED = true
    Does .pressBegin s (fun t => ParOnly s t [Reg.PAR_STATUS_at] ∧ t.on Reg.PAR_STATUS.BTN = true ∧ t.on Reg.PAR_STATUS.ARMED = false ∧
      t.record = s.record ∧ (armed → win = 0 → t.rf Reg.PAR_STATUS.WIN = 1 ∧ t.net.events = s.net.events ++ presEv s) ∧
      (¬ (armed ∧ win = 0) → t.rf Reg.PAR_STATUS.WIN = win ∧ t.net = s.net) ∧
      t.par = { s.par with press := s.on Reg.PAR_STATUS.ARMED && decide (win = 0) || decide (win = 2) }) := by
  intro win armed
  obtain ⟨x, hregs, hdown, hdis, hwin, hrun⟩ := exec_pressBegin s hup hbtn
  generalize hf : (fun p : Par => p.pressed s.pressLive) = f at hrun
  have hpar : x.par = s.par := by rw [hregs.eq_io]
  have hrec : x.record = s.record := by rw [hregs.eq_io]
  have hnet : x.net = s.net := by rw [hregs.eq_io]
  have hframe : ParOnly s (x.onPar f) [Reg.PAR_STATUS_at] := (parOnly_of_regs hregs).trans (parOnly_onPar f)
  have hf' : (x.onPar f).par = { s.par with press := s.on Reg.PAR_STATUS.ARMED && decide (win = 0) || decide (win = 2) } := by
    rw [← hf, ← hpar]; rfl
  by_cases h : s.on Reg.PAR_STATUS.ARMED = true ∧ s.rf Reg.PAR_STATUS.WIN = 0
  · rw [if_pos h] at hrun
    have hne : (x.onPar f).win ≠ wHolding := by
      rw [show (x.onPar f).win = s.rf Reg.PAR_STATUS.WIN from hwin, h.2]; decide
    obtain ⟨hset, hw, hother⟩ := setWin_changes (x.onPar f) wHolding hne (by decide)
    have hev : presEv (x.onPar f) = presEv s := ev_congr (hregs.2 _ (by decide)) (hregs.2 _ (by decide))
    generalize (x.onPar f).setWin wHolding = t at hrun hset hw hother
    refine ⟨t, hrun, hframe.trans (parOnly_of_regs hset), ?_, ?_, ?_, fun _ _ => ⟨hw, ?_⟩, fun hn => absurd h hn, ?_⟩
    · exact (on_of_rf _ (hother _ (by decide))).trans hdown
    · exact (on_of_rf _ (hother _ (by decide))).trans hdis
    · rw [hset.1]; exact hrec
    · rw [hset.1, hev]; exact congrArg (· ++ presEv s) (congrArg Net.events hnet)
    · rw [hset.1]; exact hf'
  · rw [if_neg h] at hrun
    exact ⟨_, hrun, hframe, hdown, hdis, hrec, fun ha hw => absurd ⟨ha, hw⟩ h, fun _ => ⟨hwin, hnet⟩, hf'⟩

/-- The button up, and nothing pending of the press. -/
theorem exec_pressEnd (hbtn : s.on Reg.PAR_STATUS.BTN = true) : ∃ x, Regs s x [Reg.PAR_STATUS_at] [] ∧ x.on Reg.PAR_STATUS.BTN = false ∧
    (∀ f : Fd, Reg.PAR_STATUS.BTN.apart f = true → x.rf f = s.rf f) ∧
    exec .pressEnd s = .next (if (x.onPar (fun p => p.pressed false)).win = wHolding
      then (x.onPar (fun p => p.pressed false)).setWin wClosed
      else if s.par.press then (x.onPar (fun p => p.pressed false)).closePresence 1
      else x.onPar (fun p => p.pressed false)) := by
  refine ⟨s.wf Reg.PAR_STATUS.BTN 0, (regs_refl s _).wf _ _ (.head _), s.on_wf_b2n false Reg.PAR_STATUS.BTN (by decide) rfl, fun f hf => ?_,
    if_neg (by rw [hup, hbtn]; exact Bool.false_ne_true)⟩
  refine s.rf_wf_other _ _ _ ?_
  rcases Fd.or_of_apart hf with h | h | h
  · exact .inl (Ne.symm h)
  · exact .inr (.inr h)
  · exact .inr (.inl h)

theorem pressEnd_holding (hbtn : s.on Reg.PAR_STATUS.BTN = true) (hwin : s.rf Reg.PAR_STATUS.WIN = 1) :
    Does .pressEnd s (fun t => ParOnly s t [Reg.PAR_STATUS_at] ∧ t.record = s.record ∧ t.rf Reg.PAR_STATUS.WIN = 0 ∧
      t.on Reg.PAR_STATUS.BTN = false ∧ t.net.events = s.net.events ++ presEv s) := by
  obtain ⟨x, hregs, hupn, hkeep, hrun⟩ := exec_pressEnd s hup hbtn
  generalize (fun p : Par => p.pressed false) = f at hrun
  have hxwin : (x.onPar f).win = wHolding := (hkeep Reg.PAR_STATUS.WIN (by decide)).trans hwin
  rw [if_pos hxwin] at hrun
  obtain ⟨hset, hw, hother⟩ := setWin_changes (x.onPar f) wClosed (by rw [hxwin]; decide) (by decide)
  have hev : presEv (x.onPar f) = presEv s := ev_congr (hregs.2 _ (by decide)) (hregs.2 _ (by decide))
  have hnet : (x.onPar f).net = s.net := by rw [hregs.eq_io]; rfl
  have hrec : (x.onPar f).record = s.record := by rw [hregs.eq_io]; rfl
  generalize (x.onPar f).setWin wClosed = t at hrun hset hw hother
  refine ⟨t, hrun, ((parOnly_of_regs hregs).trans (parOnly_onPar f)).trans (parOnly_of_regs hset), ?_, hw,
    (on_of_rf _ (hother _ (by decide))).trans hupn, ?_⟩
  · rw [hset.1]; exact hrec
  · rw [hset.1, hev, hnet]

end

/-! ## Closing (R381, R385, R423) -/

section
variable (s : State)

/-- An OPEN window that closes. -/
theorem closePresence_closes (why : Nat) (hwin : s.rf Reg.PAR_STATUS.WIN = 2) (hroom : s.record.events.length < 128) :
    WindowCloses s (s.closePresence why) why ∧ ∀ f : Fd, f.addr = Reg.PAR_STATUS_at → Reg.PAR_STATUS.WIN.apart f = true →
      (s.closePresence why).rf f = s.rf f := by
  obtain ⟨hset, hw, hother⟩ := setWin_changes s wClosed (by rw [State.win, hwin]; decide) (by decide)
  have heq : s.closePresence why = ((((s.setWin wClosed).wf Reg.PAR_WIN_LEFT.SEC 0).onPar
      (fun p => { p with closed := some ⟨why, s.record.rseq, s.rf Reg.PAR_WIN_LEFT.SEC == 0⟩ })).endUpdate).evRecord 0x11 why := if_pos hwin
  rw [heq]
  generalize s.setWin wClosed = u at hset hw hother
  have hleft : (u.wf Reg.PAR_WIN_LEFT.SEC 0).rf Reg.PAR_WIN_LEFT.SEC = 0 := by
    rw [State.rf_wf_same _ _ _ (by decide), Nat.zero_mod]
  have hkeep (f : Fd) (hf : f.addr = Reg.PAR_STATUS_at) : (u.wf Reg.PAR_WIN_LEFT.SEC 0).rf f = u.rf f :=
    State.rf_wf_other _ _ _ _ (.inl (by rw [hf]; decide))
  have hregs : Regs s (u.wf Reg.PAR_WIN_LEFT.SEC 0) [Reg.PAR_STATUS_at, Reg.PAR_WIN_LEFT_at] (presEv s) :=
    (hset.mono (fun a ha => List.mem_singleton.1 ha ▸ .head _)).wf _ _ (.tail _ (.head _))
  have hkeepWin := hkeep Reg.PAR_STATUS.WIN rfl
  generalize u.wf Reg.PAR_WIN_LEFT.SEC 0 = x at hleft hkeep hregs hkeepWin
  generalize (fun p : Par => { p with closed := some ⟨why, s.record.rseq, s.rf Reg.PAR_WIN_LEFT.SEC == 0⟩ }) = f
  have hrec : (x.onPar f).endUpdate.record = s.record := by rw [hregs.1]; rfl
  have hrf (g : Fd) (hg : g.addr ≠ Reg.REC_LOST_at) : ((x.onPar f).endUpdate.evRecord 0x11 why).rf g = x.rf g :=
    State.rf_evRecord _ _ _ _ _ g hg
  refine ⟨⟨(hrf _ (by decide)).trans (hkeepWin.trans hw), (hrf _ (by decide)).trans hleft, ?_,
    recorded_evRecord s 0x11 why 0 0 hroom hrec, ?_, fun a ha => ?_⟩, fun g hg hapart => ?_⟩
  · rw [State.evRecord_eq, hregs.1]; rfl
  · rw [State.evRecord_eq, hregs.1]; rfl
  · rw [State.evRecord_room _ _ _ _ _ (by rw [hrec]; exact hroom)]
    exact hregs.2 a ha
  · exact (hrf g (by rw [hg]; decide)).trans ((hkeep g hg).trans (hother g hapart))

theorem pressEnd_closes (hup : s.aonUp = true) (hroom : s.record.events.length < 128) (hbtn : s.on Reg.PAR_STATUS.BTN = true)
    (hwin : s.rf Reg.PAR_STATUS.WIN = 2) (hpress : s.par.press = true) :
    Does .pressEnd s (fun t => WindowCloses s t 1 ∧ t.on Reg.PAR_STATUS.BTN = false) := by
  obtain ⟨x, hregs, hupn, hkeep, hrun⟩ := exec_pressEnd s hup hbtn
  generalize (fun p : Par => p.pressed false) = f at hrun
  have hxwin : (x.onPar f).rf Reg.PAR_STATUS.WIN = 2 := (hkeep Reg.PAR_STATUS.WIN (by decide)).trans hwin
  rw [if_neg (by rw [State.win, hxwin]; decide), if_pos hpress] at hrun
  have hrec : (x.onPar f).record = s.record := by rw [hregs.eq_io]; rfl
  have hnet : (x.onPar f).net = s.net := by rw [hregs.eq_io]; rfl
  have hfsv : (x.onPar f).fsv = s.fsv := by rw [hregs.eq_io]; rfl
  have hev : presEv (x.onPar f) = presEv s := ev_congr (hregs.2 _ (by decide)) (hregs.2 _ (by decide))
  have hreg (a : Nat) (ha : a ∉ [Reg.PAR_STATUS_at]) : (x.onPar f).reg a = s.reg a := hregs.2 a ha
  have hup' : (x.onPar f).on Reg.PAR_STATUS.BTN = false := hupn
  generalize x.onPar f = y at hrun hxwin hrec hnet hfsv hev hreg hup'
  obtain ⟨⟨hw, hleft, hevents, hrecord, hupd, hframe⟩, hother⟩ := closePresence_closes y 1 hxwin (by rw [hrec]; exact hroom)
  refine ⟨_, hrun, ⟨hw, hleft, ?_, ?_, ?_, fun a ha => ?_⟩, (on_of_rf _ (hother _ rfl (by decide))).trans hup'⟩
  · rw [hevents, hnet, hev]
  · rw [Recorded, hrec] at hrecord; exact hrecord
  · rw [hupd, hfsv]
  · rw [hframe a ha]
    exact hreg a (fun hm => ha (List.mem_singleton.1 hm ▸ .head _))

/-- A press that ends closes no window that is not OPEN: a cause of this cycle stands. -/
theorem closePresence_short {y : State} (hwin : y.rf Reg.PAR_STATUS.WIN ≠ 2) : y.closePresence 1 = y := by
  refine (if_neg hwin).trans ?_
  cases y.par.closed with
  | none => rfl
  | some c => exact if_neg (Nat.not_lt_zero _)

theorem pressEnd_idle (hup : s.aonUp = true) (hbtn : s.on Reg.PAR_STATUS.BTN = true) (hidle : s.rf Reg.PAR_STATUS.WIN = 0 ∨
    s.rf Reg.PAR_STATUS.WIN = 3 ∨ (s.rf Reg.PAR_STATUS.WIN = 2 ∧ s.par.press = false)) :
    Does .pressEnd s (fun t => t = { s with io := t.io, par := { s.par with press := false } } ∧
      t.rf Reg.PAR_STATUS.WIN = s.rf Reg.PAR_STATUS.WIN ∧ t.on Reg.PAR_STATUS.BTN = false) := by
  obtain ⟨x, hregs, hupn, hkeep, hrun⟩ := exec_pressEnd s hup hbtn
  have hxwin : (x.onPar (fun p => p.pressed false)).rf Reg.PAR_STATUS.WIN = s.rf Reg.PAR_STATUS.WIN := hkeep Reg.PAR_STATUS.WIN (by decide)
  have hstay : exec .pressEnd s = .next (x.onPar (fun p => p.pressed false)) := by
    rw [hrun, if_neg (by rw [State.win, hxwin, wHolding]; omega)]
    by_cases hpress : s.par.press = true
    · rw [if_pos hpress, closePresence_short]
      rw [hxwin]
      rcases hidle with h | h | ⟨-, h⟩
      · omega
      · omega
      · exact absurd (h.symm.trans hpress) Bool.false_ne_true
    · rw [if_neg hpress]
  refine ⟨_, hstay, ?_, hxwin, hupn⟩
  rw [hregs.eq_io]
  rfl

/-! ## Holding and expiry (R381, R383) -/

theorem holdReached_opens (hup : s.aonUp = true) (hroom : s.record.events.length < 128) (hbtn : s.on Reg.PAR_STATUS.BTN = true)
    (hwin : s.rf Reg.PAR_STATUS.WIN = 1) :
    Does .holdReached s (fun t => ParOnly s t [Reg.PAR_STATUS_at, Reg.PAR_WIN_LEFT_at] ∧ t.rf Reg.PAR_STATUS.WIN = 2 ∧
      t.rf Reg.PAR_WIN_LEFT.SEC = 60 * s.rf Reg.PAR_CFG.WINDOW_MIN ∧ t.par.windows = min (2 ^ 32 - 1) (s.par.windows + 1) ∧
      t.net.events = s.net.events ++ presEv s ∧ Recorded s t 0x10 0 0) := by
  have hrun : exec .holdReached s = .next s.holdReached := if_pos (by rw [hup, hbtn]; rfl)
  have heq : s.holdReached = ((((((s.onPar (fun p => p.pressed false)).setWin wOpen).setTimer).onPar Par.opened).vaultQueue 3).evRecord 0x10 0).vaultBegin :=
    if_pos hwin
  rw [heq] at hrun
  generalize hu : s.onPar (fun p => p.pressed false) = u at hrun
  have huwin : u.win ≠ wOpen := by
    rw [← hu, State.win, show (s.onPar (fun p => p.pressed false)).rf Reg.PAR_STATUS.WIN = s.rf Reg.PAR_STATUS.WIN from rfl, hwin]; decide
  obtain ⟨hset, hw, hother⟩ := setWin_changes u wOpen huwin (by decide)
  have hmin : (u.setWin wOpen).rf Reg.PAR_CFG.WINDOW_MIN = s.rf Reg.PAR_CFG.WINDOW_MIN := by
    rw [hother _ (by decide), ← hu]; rfl
  obtain ⟨x, hx, hxregs, hxleft⟩ := setTimer_sets (u.setWin wOpen)
  rw [hx] at hrun
  have hframe : ParOnly s ((x.onPar (fun p => { p with winUs := 0 })).onPar Par.opened) [Reg.PAR_STATUS_at, Reg.PAR_WIN_LEFT_at] := by
    have h1 : ParOnly s u [Reg.PAR_STATUS_at, Reg.PAR_WIN_LEFT_at] := hu ▸ parOnly_onPar _
    have h2 := h1.trans (parOnly_of_regs (hset.mono (fun a ha => List.mem_singleton.1 ha ▸ .head _)))
    have h3 := h2.trans (parOnly_of_regs (hxregs.mono (fun a ha => List.mem_singleton.1 ha ▸ .tail _ (.head _))))
    exact (h3.trans (parOnly_onPar _)).trans (parOnly_onPar _)
  have hevents : x.net.events = s.net.events ++ presEv s := by
    have hev : presEv u = presEv s := by rw [← hu]; rfl
    rw [hxregs.eq_io, hset.1, hev, ← hu]; rfl
  have hrecord : x.record = s.record := by rw [hxregs.eq_io, hset.1, ← hu]; rfl
  have hwindows : x.par.windows = s.par.windows := by rw [hxregs.eq_io, hset.1, ← hu]; rfl
  have hxwin : x.rf Reg.PAR_STATUS.WIN = 2 := by
    rw [State.rf, hxregs.2 _ (by decide)]; exact hw
  generalize hy : (x.onPar (fun p => { p with winUs := 0 })).onPar Par.opened = y at hrun hframe
  have hyrf (f : Fd) : y.rf f = x.rf f := by rw [← hy]; rfl
  have hyrec : (y.vaultQueue 3).record = s.record := by rw [← hy]; exact hrecord
  have hroom' : (y.vaultQueue 3).record.events.length < 128 := by rw [hyrec]; exact hroom
  have hrf (f : Fd) (hf : f.addr ≠ Reg.REC_LOST_at) : (((y.vaultQueue 3).evRecord 0x10 0).vaultBegin).rf f = x.rf f := by
    rw [State.rf_vaultBegin, State.rf_evRecord _ _ _ _ _ _ hf, State.rf_vaultQueue, hyrf]
  refine ⟨_, hrun, ((hframe.trans (parOnly_vaultQueue 3)).trans (parOnly_evRecord _ _ _ _ hroom')).trans parOnly_vaultBegin,
    (hrf _ (by decide)).trans hxwin, (hrf _ (by decide)).trans (hxleft.trans (by rw [hmin])), ?_, ?_, ?_⟩
  · rw [State.vaultBegin_eq, State.evRecord_eq, ← hy, ← hwindows]; rfl
  · rw [State.vaultBegin_eq, State.evRecord_eq, ← hy, ← hevents]; rfl
  · exact recorded_congr (recorded_evRecord s 0x10 0 0 0 hroom hyrec) (by rw [State.vaultBegin_eq])

theorem holdReached_renews (hup : s.aonUp = true) (hbtn : s.on Reg.PAR_STATUS.BTN = true)
    (hwin : s.rf Reg.PAR_STATUS.WIN = 2) (hpress : s.par.press = true) :
    Does .holdReached s (fun t => t = { s with io := t.io, par := t.par } ∧
      t.rf Reg.PAR_STATUS.WIN = 2 ∧ t.rf Reg.PAR_WIN_LEFT.SEC = 60 * s.rf Reg.PAR_CFG.WINDOW_MIN) := by
  have hrun : exec .holdReached s = .next s.holdReached := if_pos (by rw [hup, hbtn]; rfl)
  have hwin' : (s.onPar (fun p => p.pressed false)).win = wOpen := hwin
  have heq : s.holdReached = (s.onPar (fun p => p.pressed false)).setTimer :=
    (if_neg (by rw [show (s.onPar (fun p => { p with press := false })).win = wOpen from hwin']; decide)).trans (if_pos ⟨hwin', hpress⟩)
  obtain ⟨x, hx, hxregs, hxleft⟩ := setTimer_sets (s.onPar (fun p => p.pressed false))
  refine ⟨_, hrun, ?_⟩
  rw [heq, hx]
  refine ⟨?_, ?_, hxleft⟩
  · rw [hxregs.eq_io]; rfl
  · exact (congrArg (fun w => getBits w 1 2) (hxregs.2 Reg.PAR_STATUS_at (by decide))).trans hwin

theorem windowExpiry_closes (hup : s.aonUp = true) (hroom : s.record.events.length < 128) (hwin : s.rf Reg.PAR_STATUS.WIN = 2)
    (hleft : s.rf Reg.PAR_WIN_LEFT.SEC = 0) : Does .windowExpiry s (fun t => WindowCloses s t 0) := by
  have hout : s.timerOut = true := (if_pos hwin).trans (by rw [hleft]; rfl)
  exact ⟨s.closePresence 0, if_pos (by rw [hup, hout]; rfl), (closePresence_closes s 0 hwin hroom).1⟩

theorem windowExpiry_waits (hwait : s.timerOut = false) : Does .windowExpiry s (fun t => t = s) :=
  ⟨_, if_neg (by rw [hwait, Bool.and_false]; exact Bool.false_ne_true), rfl⟩

theorem timerOut_left (hwin : s.rf Reg.PAR_STATUS.WIN = 2) (hleft : s.rf Reg.PAR_WIN_LEFT.SEC ≠ 0) : s.timerOut = false :=
  (if_pos hwin).trans (beq_eq_false_iff_ne.2 hleft)

theorem timerOut_closed (hwin : s.rf Reg.PAR_STATUS.WIN ≠ 2) (hclosed : s.par.closed = none) : s.timerOut = false :=
  (if_neg hwin).trans (by rw [hclosed])

/-- Of a press and the timer in one cycle the timer stands (R385). -/
theorem windowExpiry_recauses (hup : s.aonUp = true) {c : PresClose} (hwin : s.rf Reg.PAR_STATUS.WIN ≠ 2) (hclosed : s.par.closed = some c)
    (hdue : c.due = true) (hwhy : c.why = 1) : Does .windowExpiry s (fun t =>
      t = { s with par := t.par, record := { s.record with
        events := s.record.events.map (fun e => if e.stamp.rseq = c.rseq ∧ e.code = 0x11 then { e with a0 := 0 } else e) } } ∧
      t.par = { s.par with closed := some { c with why := 0 } }) := by
  have hout : s.timerOut = true := (if_neg hwin).trans (by rw [hclosed]; exact hdue)
  have hrank : closeRank c.why < closeRank 0 := by rw [hwhy]; decide
  have heq : s.closePresence 0 = s.recause c 0 := by
    refine (if_neg hwin).trans ?_
    rw [hclosed]
    exact if_pos hrank
  refine ⟨s.closePresence 0, if_pos (by rw [hup, hout]; rfl), ?_⟩
  rw [heq]
  exact ⟨rfl, rfl⟩

/-! ## Arming and a stuck button (R382) -/

theorem buttonArmed_arms (hup : s.aonUp = true) (hbtn : ¬ s.on Reg.PAR_STATUS.BTN = true) :
    Does .buttonArmed s (fun t => t = { s with io := t.io } ∧ t.on Reg.PAR_STATUS.ARMED = true ∧
      ∀ a, a ≠ Reg.PAR_STATUS_at → t.reg a = s.reg a) := by
  have hregs := (regs_refl s [Reg.PAR_STATUS_at]).wf Reg.PAR_STATUS.ARMED 1 (.head _)
  exact ⟨_, if_pos (by rw [hup, Bool.eq_false_iff.2 hbtn]; rfl), hregs.eq_io, s.on_wf_b2n true Reg.PAR_STATUS.ARMED (by decide) rfl,
    fun a ha => hregs.2 a (fun hm => ha (List.mem_singleton.1 hm))⟩

theorem btnStuck_shows (hup : s.aonUp = true) (hbtn : s.on Reg.PAR_STATUS.BTN = true) :
    Does .btnStuck s (fun t => t = { s with io := t.io, par := { s.par with press := false } } ∧ t.on Reg.PAR_STATUS.BTN_STUCK = true ∧
      t.rf Reg.PAR_STATUS.WIN = s.rf Reg.PAR_STATUS.WIN) := by
  have hstuck := s.on_wf_b2n true Reg.PAR_STATUS.BTN_STUCK (by decide) rfl
  have hwin : (s.wf Reg.PAR_STATUS.BTN_STUCK 1).rf Reg.PAR_STATUS.WIN = s.rf Reg.PAR_STATUS.WIN := s.rf_wf_other _ _ _ (by decide)
  exact ⟨(s.wf Reg.PAR_STATUS.BTN_STUCK 1).onPar (fun p => p.pressed false), if_pos (by rw [hup, hbtn]; rfl), rfl, hstuck, hwin⟩

end

/-! ## The seal (R387, R388) -/

section
variable (s : State) (b : SealBreak)

/-- The registers that show a break (R388). -/
def State.sealShown : State :=
  ((((s.wf Reg.PAR_STATUS.SEAL_BROKEN 1).wf Reg.PAR_SEAL_SEC.CAL_SEC b.sec).wf Reg.PAR_SEAL_INFO.CAL_FRAC b.frac).wf
    Reg.PAR_SEAL_INFO.CAL_VALID (b2n b.valid)).wf Reg.PAR_SEAL_INFO.ON_VBAT (b2n (!b.powered))

theorem sealShown_regs : Regs s (s.sealShown b) [Reg.PAR_STATUS_at, Reg.PAR_SEAL_SEC_at, Reg.PAR_SEAL_INFO_at] [] :=
  (((((regs_refl s _).wf Reg.PAR_STATUS.SEAL_BROKEN 1 (.head _)).wf Reg.PAR_SEAL_SEC.CAL_SEC b.sec (.tail _ (.head _))).wf
    Reg.PAR_SEAL_INFO.CAL_FRAC b.frac (.tail _ (.tail _ (.head _)))).wf Reg.PAR_SEAL_INFO.CAL_VALID _ (.tail _ (.tail _ (.head _)))).wf
    Reg.PAR_SEAL_INFO.ON_VBAT _ (.tail _ (.tail _ (.head _)))

theorem sealShown_fields (hsec : b.sec < 2 ^ 32) (hfrac : b.frac < 2 ^ 15) : (s.sealShown b).on Reg.PAR_STATUS.SEAL_BROKEN = true ∧
    (s.sealShown b).rf Reg.PAR_SEAL_SEC.CAL_SEC = b.sec ∧ (s.sealShown b).rf Reg.PAR_SEAL_INFO.CAL_FRAC = b.frac ∧
    (s.sealShown b).on Reg.PAR_SEAL_INFO.CAL_VALID = b.valid ∧ (s.sealShown b).on Reg.PAR_SEAL_INFO.ON_VBAT = !b.powered := by
  unfold State.sealShown
  refine ⟨?_, ?_, ?_, ?_, State.on_wf_b2n _ _ Reg.PAR_SEAL_INFO.ON_VBAT (by decide) rfl⟩
  · rw [State.on_wf_other _ _ _ _ (by decide), State.on_wf_other _ _ _ _ (by decide), State.on_wf_other _ _ _ _ (by decide),
      State.on_wf_other _ _ _ _ (by decide)]
    exact s.on_wf_b2n true Reg.PAR_STATUS.SEAL_BROKEN (by decide) rfl
  · rw [State.rf_wf_other _ _ _ _ (by decide), State.rf_wf_other _ _ _ _ (by decide), State.rf_wf_other _ _ _ _ (by decide),
      State.rf_wf_same _ _ _ (by decide)]
    exact Nat.mod_eq_of_lt hsec
  · rw [State.rf_wf_other _ _ _ _ (by decide), State.rf_wf_other _ _ _ _ (by decide), State.rf_wf_same _ _ _ (by decide)]
    exact Nat.mod_eq_of_lt hfrac
  · rw [State.on_wf_other _ _ _ _ (by decide)]
    exact State.on_wf_b2n _ b.valid Reg.PAR_SEAL_INFO.CAL_VALID (by decide) rfl

theorem sealShown_open : (s.sealShown b).on Reg.PAR_STATUS.SEAL_OPEN = s.on Reg.PAR_STATUS.SEAL_OPEN := by
  unfold State.sealShown
  rw [State.on_wf_other _ _ _ _ (by decide), State.on_wf_other _ _ _ _ (by decide), State.on_wf_other _ _ _ _ (by decide),
    State.on_wf_other _ _ _ _ (by decide), State.on_wf_other _ _ _ _ (by decide)]

/-- The Parapet with the break's record (R388). -/
def Par.broken (r : Rec) (p : Par) : Par := { p with recorded := true, brokeOp := r.opsec, brokeCycles := r.cycles }

/-- The state once a break is in its record, before the write begins (R388). -/
def State.sealNoted : State :=
  ((((s.sealShown b).onPar (fun p => p.broken s.record)).vaultQueue 3).evRecord 0x12).raiseIf Reg.PAR_EVCFG.SEAL_EVENT Reg.PAR_EVCFG.SEAL_EN

theorem recordSeal_eq (hlatch : s.par.latch = some b) (hnew : ¬ (s.par.recorded = true ∧ s.on Reg.PAR_STATUS.SEAL_BROKEN = true)) :
    s.recordSeal = (s.sealNoted b).vaultBegin := by
  have hrec : (s.sealShown b).record = s.record := by rw [(sealShown_regs s b).eq_io]
  unfold State.recordSeal State.sealNoted
  rw [hlatch, ← hrec]
  exact if_neg hnew

/-- What the record of a break leaves of registers, and of the Parapet. -/
theorem recordSeal_keeps : s.recordSeal.par.latch = s.par.latch ∧ s.recordSeal.par.miss = s.par.miss ∧ s.recordSeal.par.sealA = s.par.sealA ∧
    s.recordSeal.on Reg.PAR_STATUS.SEAL_OPEN = s.on Reg.PAR_STATUS.SEAL_OPEN ∧
    ∀ a, a ∉ [Reg.PAR_STATUS_at, Reg.PAR_SEAL_SEC_at, Reg.PAR_SEAL_INFO_at, Reg.REC_LOST_at] → s.recordSeal.reg a = s.reg a := by
  cases hlatch : s.par.latch with
  | none =>
    have hsame : s.recordSeal = s := by rw [State.recordSeal, hlatch]
    rw [hsame]
    exact ⟨hlatch, rfl, rfl, rfl, fun _ _ => rfl⟩
  | some b =>
    by_cases hnew : s.par.recorded = true ∧ s.on Reg.PAR_STATUS.SEAL_BROKEN = true
    · have hsame : s.recordSeal = s := by rw [State.recordSeal, hlatch]; exact if_pos hnew
      rw [hsame]
      exact ⟨hlatch, rfl, rfl, rfl, fun _ _ => rfl⟩
    · have hopen := sealShown_open s b
      have hregs := sealShown_regs s b
      have hpar : (s.sealShown b).par = s.par := by rw [hregs.eq_io]
      rw [recordSeal_eq s b hlatch hnew]
      have hnoted : (s.sealNoted b).par = (s.sealShown b).par.broken s.record := by
        rw [State.sealNoted, State.raiseIf_par, State.par_evRecord, State.par_vaultQueue, State.par_onPar]
      have hreg (a : Nat) (ha : a ≠ Reg.REC_LOST_at) : (s.sealNoted b).reg a = (s.sealShown b).reg a := by
        rw [State.sealNoted, State.reg_raiseIf, State.reg_evRecord _ _ _ _ _ _ ha, State.reg_vaultQueue, State.reg_onPar]
      rw [State.par_vaultBegin, State.on_vaultBegin, hnoted, hpar]
      refine ⟨hlatch, rfl, rfl, (on_of_rf _ ?_).trans hopen, fun a ha => ?_⟩
      · rw [State.rf, State.rf, hreg _ (by decide)]
      · rw [State.reg_vaultBegin, hreg a (fun h => ha (h ▸ .tail _ (.tail _ (.tail _ (.head _)))))]
        exact hregs.2 a (fun h => ha (List.mem_append_left [Reg.REC_LOST_at] h))

/-- A break recorded (R388). -/
theorem recordSeal_records (hlatch : s.par.latch = some b) (hnew : ¬ (s.par.recorded = true ∧ s.on Reg.PAR_STATUS.SEAL_BROKEN = true))
    (hsec : b.sec < 2 ^ 32) (hfrac : b.frac < 2 ^ 15) (hroom : s.record.events.length < 128) :
    s.recordSeal.on Reg.PAR_STATUS.SEAL_BROKEN = true ∧ s.recordSeal.rf Reg.PAR_SEAL_SEC.CAL_SEC = b.sec ∧
      s.recordSeal.rf Reg.PAR_SEAL_INFO.CAL_FRAC = b.frac ∧ s.recordSeal.on Reg.PAR_SEAL_INFO.CAL_VALID = b.valid ∧
      s.recordSeal.on Reg.PAR_SEAL_INFO.ON_VBAT = (!b.powered) ∧ s.recordSeal.par.brokeOp = s.record.opsec ∧ Recorded s s.recordSeal 0x12 0 0 ∧
      s.recordSeal.net.events = s.net.events ++ ev s (Reg.PAR_EVCFG.SEAL_EVENT, Reg.PAR_EVCFG.SEAL_EN) := by
  obtain ⟨hbroken, hcal, hcalfrac, hvalid, hvbat⟩ := sealShown_fields s b hsec hfrac
  have hregs := sealShown_regs s b
  rw [recordSeal_eq s b hlatch hnew]
  unfold State.sealNoted
  generalize s.sealShown b = u at hbroken hcal hcalfrac hvalid hvbat hregs
  have hurec : u.record = s.record := by rw [hregs.eq_io]
  have hunet : u.net = s.net := by rw [hregs.eq_io]
  have hrec : ((u.onPar (fun p => p.broken s.record)).vaultQueue 3).record = s.record := by
    rw [State.record_vaultQueue, State.record_onPar, hurec]
  have hnet : ((u.onPar (fun p => p.broken s.record)).vaultQueue 3).net = s.net := by
    rw [State.net_vaultQueue, State.net_onPar, hunet]
  have hreg (a : Nat) : ((u.onPar (fun p => p.broken s.record)).vaultQueue 3).reg a = u.reg a := by
    rw [State.reg_vaultQueue, State.reg_onPar]
  have hop : ((u.onPar (fun p => p.broken s.record)).vaultQueue 3).par.brokeOp = s.record.opsec := by
    rw [State.par_vaultQueue, State.par_onPar, Par.broken]
  generalize (u.onPar (fun p => p.broken s.record)).vaultQueue 3 = y at hrec hnet hreg hop
  have hfield (f : Fd) (hf : f.addr ≠ Reg.REC_LOST_at) :
      ((y.evRecord 0x12).raiseIf Reg.PAR_EVCFG.SEAL_EVENT Reg.PAR_EVCFG.SEAL_EN).vaultBegin.rf f = u.rf f := by
    rw [State.rf_vaultBegin, State.rf_raiseIf, State.rf_evRecord _ _ _ _ _ _ hf, State.rf, hreg, State.rf]
  have hev : ev (y.evRecord 0x12) (Reg.PAR_EVCFG.SEAL_EVENT, Reg.PAR_EVCFG.SEAL_EN) = ev s (Reg.PAR_EVCFG.SEAL_EVENT, Reg.PAR_EVCFG.SEAL_EN) := by
    have hcfg : (y.evRecord 0x12).reg Reg.PAR_EVCFG_at = s.reg Reg.PAR_EVCFG_at := by
      rw [State.reg_evRecord _ _ _ _ _ _ (by decide), hreg]
      exact hregs.2 _ (by decide)
    exact ev_congr hcfg hcfg
  refine ⟨(on_of_rf u (hfield _ (by decide))).trans hbroken, (hfield _ (by decide)).trans hcal, (hfield _ (by decide)).trans hcalfrac,
    (on_of_rf u (hfield _ (by decide))).trans hvalid, (on_of_rf u (hfield _ (by decide))).trans hvbat, ?_, ?_, ?_⟩
  · rw [State.par_vaultBegin, State.raiseIf_par, State.par_evRecord]; exact hop
  · exact recorded_congr (recorded_evRecord s 0x12 0 0 0 hroom hrec) (by rw [State.events_vaultBegin, State.raiseIf_record])
  · rw [State.net_vaultBegin, State.raiseIf_events, hev, State.net_evRecord, hnet]

end

section
variable (s : State) (level : Bool)

/-- The seal latch after a sample (R387). -/
def State.latchAfter (isOpen : Bool) : Option SealBreak :=
  if (isOpen && s.par.latch.isNone) = true then some ⟨s.calSec, s.calFrac, s.on Reg.RTC_STATUS.VALID, !s.held.aon⟩ else s.par.latch

/-- The Parapet after a sample, but for the latch's record (R379, R387). -/
def Par.sampled (p : Par) (level : Bool) (l : Option SealBreak) : Par := { p with sealA := !p.sealA, miss := !(level == !p.sealA), latch := l }

/-- A sample seen, before a break is recorded (R379, R387). -/
theorem State.onPar_onPar (f g : Par → Par) : (s.onPar f).onPar g = s.onPar (fun p => g (f p)) := rfl
theorem State.onPar_wf (f : Par → Par) (g : Fd) (v : Nat) : (s.onPar f).wf g v = (s.wf g v).onPar f := rfl

/-- SEAL_OPEN as a sample leaves it, while the AON domain runs (R387). -/
def State.openShown (isOpen : Bool) : State := if s.held.aon = true then s else s.wf Reg.PAR_STATUS.SEAL_OPEN (b2n isOpen)

theorem openShown_regs (isOpen : Bool) : Regs s (s.openShown isOpen) [Reg.PAR_STATUS_at] [] :=
  Regs.ite (regs_refl s _) ((regs_refl s _).wf _ _ (.head _))

theorem State.calSec_wf (f : Fd) (v : Nat) : (s.wf f v).calSec = s.calSec := rfl
theorem State.calFrac_wf (f : Fd) (v : Nat) : (s.wf f v).calFrac = s.calFrac := rfl

/-- A break latched, where the loop is open and none stands (R387). -/
def State.sealLatched (isOpen : Bool) : State :=
  if (isOpen && s.par.latch.isNone) = true then
    s.onPar (fun p => { p with latch := some ⟨s.calSec, s.calFrac, s.on Reg.RTC_STATUS.VALID, !s.held.aon⟩ })
  else s

/-- A break recorded, where the Vault's record is known (R388). -/
def State.sealEnd : State := if (s.held.aon || s.held.por || (!s.boot.sys && s.boot.phase == .start)) = true then s else s.recordSeal

/-- The pulse alternated, and whether SEAL_B did not follow it (R379, R387). -/
def Par.pulsed (p : Par) (level : Bool) : Par := { p with sealA := !p.sealA, miss := !(level == !p.sealA) }

theorem sealSample_stages : s.sealSample level =
    (((s.onPar (fun p => p.pulsed level)).openShown (!(level == !s.par.sealA) && s.par.miss)).sealLatched
      (!(level == !s.par.sealA) && s.par.miss)).sealEnd := rfl

theorem sealLatched_eq (isOpen : Bool) : s.sealLatched isOpen = s.onPar (fun p => { p with latch := s.latchAfter isOpen }) := by
  unfold State.sealLatched State.latchAfter
  split <;> rfl

theorem openShown_onPar (f : Par → Par) (isOpen : Bool) : (s.onPar f).openShown isOpen = (s.openShown isOpen).onPar f := by
  unfold State.openShown
  rw [State.held_onPar, State.onPar_wf]
  split <;> rfl

theorem latchAfter_openShown (f : Par → Par) (isOpen : Bool) (hf : (f s.par).latch = s.par.latch) :
    ((s.openShown isOpen).onPar f).latchAfter isOpen = s.latchAfter isOpen := by
  have hregs := openShown_regs s isOpen
  have hon : (s.openShown isOpen).on Reg.RTC_STATUS.VALID = s.on Reg.RTC_STATUS.VALID := by
    rw [State.on, State.rf, hregs.2 _ (by decide), State.on, State.rf]
  have hpar : (s.openShown isOpen).par = s.par := by rw [hregs.eq_io]
  have hheld : (s.openShown isOpen).held = s.held := by rw [hregs.eq_io]
  have hsec : (s.openShown isOpen).calSec = s.calSec := by rw [hregs.eq_io]; rfl
  have hfrac : (s.openShown isOpen).calFrac = s.calFrac := by rw [hregs.eq_io]; rfl
  rw [State.latchAfter, State.latchAfter, State.par_onPar, State.calSec_onPar, State.calFrac_onPar, State.on_onPar, State.held_onPar, hpar, hf, hsec, hfrac,
    hon, hheld]

/-- A sample, by what it sees (R379, R387). -/
theorem sealSample_eq : s.sealSample level = ((s.openShown (!(level == !s.par.sealA) && s.par.miss)).onPar
    (fun p => p.sampled level (s.latchAfter (!(level == !s.par.sealA) && s.par.miss)))).sealEnd := by
  rw [sealSample_stages]
  generalize (!(level == !s.par.sealA) && s.par.miss) = isOpen
  rw [openShown_onPar, sealLatched_eq, latchAfter_openShown s _ _ rfl, State.onPar_onPar]
  rfl

theorem sealEnd_keeps (x : State) : x.sealEnd.par.latch = x.par.latch ∧ x.sealEnd.par.miss = x.par.miss ∧ x.sealEnd.par.sealA = x.par.sealA ∧
    x.sealEnd.on Reg.PAR_STATUS.SEAL_OPEN = x.on Reg.PAR_STATUS.SEAL_OPEN ∧
    ∀ a, a ∉ [Reg.PAR_STATUS_at, Reg.PAR_SEAL_SEC_at, Reg.PAR_SEAL_INFO_at, Reg.REC_LOST_at] → x.sealEnd.reg a = x.reg a := by
  unfold State.sealEnd
  split
  · exact ⟨rfl, rfl, rfl, rfl, fun _ _ => rfl⟩
  · exact recordSeal_keeps x

theorem sealSample_samples :
    let m := decide (level = !s.par.sealA)
    Does (.sealSample level) s (fun t => t.par.sealA = !s.par.sealA ∧ t.par.miss = !m ∧
      (m = true ∨ s.par.miss = false → t.par.latch = s.par.latch) ∧ (∀ x, s.par.latch = some x → t.par.latch = some x) ∧
      (m = false → s.par.miss = true → s.par.latch = none →
        t.par.latch = some ⟨s.calSec, s.calFrac, s.on Reg.RTC_STATUS.VALID, !s.held.aon⟩) ∧
      (s.held.aon = false → t.on Reg.PAR_STATUS.SEAL_OPEN = (!m && s.par.miss)) ∧
      ∀ a, a ∉ [Reg.PAR_STATUS_at, Reg.PAR_SEAL_SEC_at, Reg.PAR_SEAL_INFO_at, Reg.REC_LOST_at] → t.reg a = s.reg a) := by
  intro m
  have hm : (level == !s.par.sealA) = m := Bool.beq_eq_decide_eq _ _
  have heq := sealSample_eq s level
  rw [hm] at heq
  have hregs := openShown_regs s (!m && s.par.miss)
  have hpar : (s.openShown (!m && s.par.miss)).par = s.par := by rw [hregs.eq_io]
  have hopen : s.held.aon = false → (s.openShown (!m && s.par.miss)).on Reg.PAR_STATUS.SEAL_OPEN = (!m && s.par.miss) := by
    intro haon
    rw [State.openShown, if_neg (by rw [haon]; exact Bool.false_ne_true)]
    exact s.on_wf_b2n _ Reg.PAR_STATUS.SEAL_OPEN (by decide) rfl
  generalize s.openShown (!m && s.par.miss) = u at heq hregs hpar hopen
  obtain ⟨hlatch, hmiss, hseal, hshown, hkeep⟩ := sealEnd_keeps (u.onPar (fun p => p.sampled level (s.latchAfter (!m && s.par.miss))))
  rw [← heq, State.par_onPar, hpar] at hlatch hmiss hseal
  rw [← heq, State.on_onPar] at hshown
  refine ⟨s.sealSample level, rfl, hseal, hmiss.trans (congrArg (!·) hm), fun h => ?_, fun x hx => ?_, fun h0 h1 hn => ?_, fun h => hshown.trans (hopen h), fun a ha => ?_⟩
  · have hno : (!m && s.par.miss) = false := by rcases h with h | h <;> rw [h] <;> simp
    rw [hlatch, hno]; rfl
  · rw [hlatch, Par.sampled, State.latchAfter, hx, Option.isNone_some, Bool.and_false]
    rfl
  · rw [hlatch, Par.sampled, State.latchAfter, h0, h1, hn]
    rfl
  · rw [heq, hkeep a ha, State.reg_onPar]
    exact hregs.2 a (fun hm => ha (List.mem_singleton.1 hm ▸ .head _))

/-- The second sample in a row that does not read the level driven breaks the seal (R387, R388). -/
theorem sealSample_breaks (hup : s.aonUp = true) (haon : s.held.aon = false) (hphase : s.boot.phase ≠ .start ∨ s.boot.sys = true)
    (hnew : s.on Reg.PAR_STATUS.SEAL_BROKEN = false ∨ s.par.recorded = false) (hmiss : s.par.miss = true) (hlatch : s.par.latch = none)
    (hroom : s.record.events.length < 128) :
    Does (.sealSample s.par.sealA) s (fun t => t.on Reg.PAR_STATUS.SEAL_BROKEN = true ∧ t.rf Reg.PAR_SEAL_SEC.CAL_SEC = s.calSec ∧
      t.rf Reg.PAR_SEAL_INFO.CAL_FRAC = s.calFrac ∧ t.on Reg.PAR_SEAL_INFO.CAL_VALID = s.on Reg.RTC_STATUS.VALID ∧
      t.on Reg.PAR_SEAL_INFO.ON_VBAT = false ∧ t.par.brokeOp = s.record.opsec ∧ Recorded s t 0x12 0 0 ∧
      t.net.events = s.net.events ++ ev s (Reg.PAR_EVCFG.SEAL_EVENT, Reg.PAR_EVCFG.SEAL_EN)) := by
  have hopen : (!(s.par.sealA == !s.par.sealA) && s.par.miss) = true := by rw [hmiss]; cases s.par.sealA <;> rfl
  have heq := sealSample_eq s s.par.sealA
  rw [hopen] at heq
  have hbreak : s.latchAfter true = some ⟨s.calSec, s.calFrac, s.on Reg.RTC_STATUS.VALID, !s.held.aon⟩ := by
    rw [State.latchAfter, hlatch]; rfl
  have hregs := openShown_regs s true
  have hpar : (s.openShown true).par = s.par := by rw [hregs.eq_io]
  have hheld : (s.openShown true).held = s.held := by rw [hregs.eq_io]
  have hboot : (s.openShown true).boot = s.boot := by rw [hregs.eq_io]
  have hrec : (s.openShown true).record = s.record := by rw [hregs.eq_io]
  have hnet : (s.openShown true).net = s.net := by rw [hregs.eq_io]
  have hbroken : (s.openShown true).on Reg.PAR_STATUS.SEAL_BROKEN = s.on Reg.PAR_STATUS.SEAL_BROKEN := by
    rw [State.openShown, if_neg (by rw [haon]; exact Bool.false_ne_true)]
    exact s.on_wf_other _ _ _ (by decide)
  have hev : ev (s.openShown true) (Reg.PAR_EVCFG.SEAL_EVENT, Reg.PAR_EVCFG.SEAL_EN) = ev s (Reg.PAR_EVCFG.SEAL_EVENT, Reg.PAR_EVCFG.SEAL_EN) :=
    ev_congr (hregs.2 _ (by decide)) (hregs.2 _ (by decide))
  have hpor : s.held.por = false := by rw [State.aonUp, Bool.not_eq_true'] at hup; exact hup
  generalize s.openShown true = u at heq hregs hpar hheld hboot hrec hnet hbroken hev
  generalize hy : u.onPar (fun p => p.sampled s.par.sealA (s.latchAfter true)) = y at heq
  have hylatch : y.par.latch = some ⟨s.calSec, s.calFrac, s.on Reg.RTC_STATUS.VALID, !s.held.aon⟩ := by
    rw [← hy, State.par_onPar, Par.sampled, hbreak]
  have hyrecorded : y.par.recorded = s.par.recorded := by rw [← hy, State.par_onPar, Par.sampled, hpar]
  have hyend : y.sealEnd = y.recordSeal := by
    refine if_neg ?_
    rw [← hy, State.held_onPar, State.boot_onPar, hheld, hboot, haon, hpor]
    rcases hphase with h | h
    · simp [h]
    · simp [h]
  have hynew : ¬ (y.par.recorded = true ∧ y.on Reg.PAR_STATUS.SEAL_BROKEN = true) := by
    rw [hyrecorded, ← hy, State.on_onPar, hbroken]
    rcases hnew with h | h
    · rw [h]; exact fun hc => Bool.false_ne_true hc.2
    · rw [h]; exact fun hc => Bool.false_ne_true hc.1
  have hyrec : y.record = s.record := by rw [← hy, State.record_onPar, hrec]
  have hynet : y.net = s.net := by rw [← hy, State.net_onPar, hnet]
  have hyev : ev y (Reg.PAR_EVCFG.SEAL_EVENT, Reg.PAR_EVCFG.SEAL_EN) = ev s (Reg.PAR_EVCFG.SEAL_EVENT, Reg.PAR_EVCFG.SEAL_EN) := by
    rw [← hev, ← hy]
    exact ev_congr (State.reg_onPar _ _ _) (State.reg_onPar _ _ _)
  obtain ⟨h1, h2, h3, h4, h5, h6, h7, h8⟩ := recordSeal_records y _ hylatch hynew (Nat.mod_lt _ (Nat.two_pow_pos 32)) (Nat.mod_lt _ (Nat.two_pow_pos 15))
    (by rw [hyrec]; exact hroom)
  rw [haon] at h5
  rw [hyrec] at h6
  rw [Recorded, hyrec] at h7
  rw [hynet, hyev] at h8
  refine ⟨y.recordSeal, congrArg Host.Outcome.next (heq.trans hyend), h1, h2, h3, h4, h5, h6, h7, h8⟩

end

/-! ## PAR_CFG (R12, R392, R393) -/

section
variable (s : State) (v : Word)

/-- The fields of PAR_CFG whose values are out of range. -/
def parBad : List Fd :=
  (if getBits v 0 4 = 0 ∨ 10 < getBits v 0 4 then [Reg.PAR_CFG.HOLD_S] else []) ++
    (if getBits v 8 6 = 0 ∨ 60 < getBits v 8 6 then [Reg.PAR_CFG.WINDOW_MIN] else [])

/-- A field's value after a write that refuses it if `bad`. -/
theorem getBits_parKept :
    getBits (s.keeping v (parBad v)) 0 4 = (if getBits v 0 4 = 0 ∨ 10 < getBits v 0 4 then s.rf Reg.PAR_CFG.HOLD_S else getBits v 0 4) ∧
    getBits (s.keeping v (parBad v)) 8 6 = (if getBits v 8 6 = 0 ∨ 60 < getBits v 8 6 then s.rf Reg.PAR_CFG.WINDOW_MIN else getBits v 8 6) := by
  have hhold (w : Word) : getBits (putBits w 0 4 (s.rf Reg.PAR_CFG.HOLD_S)) 0 4 = s.rf Reg.PAR_CFG.HOLD_S ∧
      getBits (putBits w 0 4 (s.rf Reg.PAR_CFG.HOLD_S)) 8 6 = getBits w 8 6 :=
    ⟨(getBits_putBits_same _ _ _ _ (by decide)).trans (Nat.mod_eq_of_lt (getBits_lt _ _ _)), getBits_putBits_other _ _ _ _ _ _ (.inr (by decide))⟩
  have hmin (w : Word) : getBits (putBits w 8 6 (s.rf Reg.PAR_CFG.WINDOW_MIN)) 8 6 = s.rf Reg.PAR_CFG.WINDOW_MIN ∧
      getBits (putBits w 8 6 (s.rf Reg.PAR_CFG.WINDOW_MIN)) 0 4 = getBits w 0 4 :=
    ⟨(getBits_putBits_same _ _ _ _ (by decide)).trans (Nat.mod_eq_of_lt (getBits_lt _ _ _)), getBits_putBits_other _ _ _ _ _ _ (.inl (by decide))⟩
  unfold parBad
  by_cases hh : getBits v 0 4 = 0 ∨ 10 < getBits v 0 4
  · by_cases hw : getBits v 8 6 = 0 ∨ 60 < getBits v 8 6
    · rw [if_pos hh, if_pos hw, if_pos hh, if_pos hw]
      exact ⟨(hmin _).2.trans (hhold v).1, (hmin _).1⟩
    · rw [if_pos hh, if_neg hw, if_pos hh, if_neg hw]
      exact hhold v
  · by_cases hw : getBits v 8 6 = 0 ∨ 60 < getBits v 8 6
    · rw [if_neg hh, if_pos hw, if_neg hh, if_pos hw]
      exact ⟨(hmin v).2, (hmin v).1⟩
    · rw [if_neg hh, if_neg hw, if_neg hh, if_neg hw]
      exact ⟨rfl, rfl⟩

theorem State.rf_writeParCfg (w : Word) : (s.writeReg .all Reg.PAR_CFG_at w).rf Reg.PAR_CFG.HOLD_S = getBits w 0 4 ∧
    (s.writeReg .all Reg.PAR_CFG_at w).rf Reg.PAR_CFG.WINDOW_MIN = getBits w 8 6 :=
  ⟨s.rf_writeReg_takes .all Reg.PAR_CFG.HOLD_S w (by decide), s.rf_writeReg_takes .all Reg.PAR_CFG.WINDOW_MIN w (by decide)⟩

theorem parBad_eq_nil : parBad v = [] ↔ (1 ≤ getBits v 0 4 ∧ getBits v 0 4 ≤ 10) ∧ 1 ≤ getBits v 8 6 ∧ getBits v 8 6 ≤ 60 := by
  rw [parBad, List.append_eq_nil_iff]
  refine and_congr ?_ ?_
  · split
    · exact ⟨fun h => absurd h (List.cons_ne_nil _ _), fun h => by omega⟩
    · exact ⟨fun _ => by omega, fun _ => rfl⟩
  · split
    · exact ⟨fun h => absurd h (List.cons_ne_nil _ _), fun h => by omega⟩
    · exact ⟨fun _ => by omega, fun _ => rfl⟩

variable {src : Src}

theorem exec_parCfgWrite (hup : s.aonUp = true) {w : WRes} (h : s.writeParCfg src v = w) : exec (.parCfgWrite src v) s = .next w.st := by
  rw [← h]; exact if_pos hup

theorem parCfgWrite_absent (hup : s.aonUp = true) (h : ¬ presence src s) : Refuses (.parCfgWrite src v) s parRefuse 1 := by
  have hno : (!(s.permit src true).presOk) = true := by
    rw [Bool.not_eq_true', Bool.eq_false_iff, ne_eq, presOk_iff]; exact h
  exact refuses_of_exec (by decide) (exec_parCfgWrite s v hup (if_pos hno))

/-- The register as a write leaves it: its fields, and the refusal where one is out of range. -/
theorem parCfg_written {t : State} (ht : t = (s.writeBut .all parRefuse 2 2 Reg.PAR_CFG_at v (parBad v)).st) :
    t = { s with io := t.io, net := { s.net with events := t.net.events } } ∧
      t.rf Reg.PAR_CFG.HOLD_S = getBits (s.keeping v (parBad v)) 0 4 ∧ t.rf Reg.PAR_CFG.WINDOW_MIN = getBits (s.keeping v (parBad v)) 8 6 ∧
      (parBad v = [] → t.net = s.net ∧ ∀ a, a ≠ Reg.PAR_CFG_at → t.reg a = s.reg a) ∧
      (parBad v ≠ [] → t.on Reg.PAR_STATUS.REFUSED = true ∧ t.rf Reg.PAR_STATUS.REASON = 2 ∧
        t.net.events = s.net.events ++ ev s (Reg.PAR_EVCFG.REFUSE_EVENT, Reg.PAR_EVCFG.REFUSE_EN) ∧
        ∀ a, a ∉ [Reg.PAR_CFG_at, Reg.PAR_STATUS_at] → t.reg a = s.reg a) := by
  by_cases hbad : parBad v = []
  · have hwrite : t = s.writeReg .all Reg.PAR_CFG_at v := by
      rw [ht, State.writeBut_all, if_pos hbad, WRes.ok_st]
    have hkept : s.keeping v (parBad v) = v := by rw [hbad]; rfl
    have hregs := regs_writeReg s .all Reg.PAR_CFG_at v
    obtain ⟨hhold, hmin⟩ := s.rf_writeParCfg v
    rw [← hwrite] at hregs hhold hmin
    have hnet : t.net = s.net := by rw [hregs.eq_io]
    refine ⟨?_, by rw [hkept]; exact hhold, by rw [hkept]; exact hmin, fun _ => ⟨hnet, fun a ha => hregs.2 a (fun hm => ha (List.mem_singleton.1 hm))⟩,
      fun h => absurd hbad h⟩
    rw [hnet, hregs.eq_io]
  · have hwrite : t = (s.writeReg .all Reg.PAR_CFG_at (s.keeping v (parBad v))).refuse parRefuse 2 := by
      rw [ht, State.writeBut_all, if_neg hbad, State.refused_st]
    obtain ⟨hregs, hset, hreason, hfields⟩ := refused_write_regs (r := parRefuse) (why := 2) (by decide) (by decide) (by rintro _ ⟨⟩; decide) hwrite
    obtain ⟨hhold, hmin⟩ := s.rf_writeParCfg (s.keeping v (parBad v))
    refine ⟨?_, (hfields _ rfl).trans hhold, (hfields _ rfl).trans hmin, fun h => absurd h hbad, fun _ => ⟨congrArg (· != 0) hset, hreason _ rfl, ?_, fun a ha => ?_⟩⟩
    · have hnet : t.net = { s.net with events := t.net.events } := by rw [hregs.1]
      rw [← hnet, hregs.1]
    · rw [hregs.1]; rfl
    · refine hregs.2 a (fun hm => ha ?_)
      rcases List.mem_cons.1 hm with rfl | hm
      · exact .head _
      · rcases List.mem_pair.1 hm with rfl | rfl <;> exact .tail _ (.head _)

theorem parCfgWrite_takes (hup : s.aonUp = true) (h : presence src s) (hcur : s.vault.cur ≠ none) :
    let okH := 1 ≤ getBits v 0 4 ∧ getBits v 0 4 ≤ 10
    let okW := 1 ≤ getBits v 8 6 ∧ getBits v 8 6 ≤ 60
    Does (.parCfgWrite src v) s (fun t =>
      t = { s with io := t.io, net := { s.net with events := t.net.events }, vault := { s.vault with queue := s.vault.queue ++ [⟨3, false⟩] } } ∧
      (okH → t.rf Reg.PAR_CFG.HOLD_S = getBits v 0 4) ∧ (¬ okH → t.rf Reg.PAR_CFG.HOLD_S = s.rf Reg.PAR_CFG.HOLD_S) ∧
      (okW → t.rf Reg.PAR_CFG.WINDOW_MIN = getBits v 8 6) ∧ (¬ okW → t.rf Reg.PAR_CFG.WINDOW_MIN = s.rf Reg.PAR_CFG.WINDOW_MIN) ∧
      (okH ∧ okW → t.net = s.net ∧ ∀ a, a ≠ Reg.PAR_CFG_at → t.reg a = s.reg a) ∧
      (¬ (okH ∧ okW) → t.on Reg.PAR_STATUS.REFUSED = true ∧ t.rf Reg.PAR_STATUS.REASON = 2 ∧
        t.net.events = s.net.events ++ ev s (Reg.PAR_EVCFG.REFUSE_EVENT, Reg.PAR_EVCFG.REFUSE_EN) ∧
        ∀ a, a ∉ [Reg.PAR_CFG_at, Reg.PAR_STATUS_at] → t.reg a = s.reg a)) := by
  intro okH okW
  have hpass : ¬ (!(s.permit src true).presOk) = true := by rw [(presOk_iff true).2 h]; exact Bool.false_ne_true
  have hrun : exec (.parCfgWrite src v) s = .next (((s.writeBut .all parRefuse 2 2 Reg.PAR_CFG_at v (parBad v)).st.vaultQueue 3).vaultBegin) :=
    exec_parCfgWrite s v hup (if_neg hpass)
  obtain ⟨heq, hhold, hmin, hok, hrefused⟩ := parCfg_written s v rfl
  obtain ⟨hkeptHold, hkeptMin⟩ := getBits_parKept s v
  rw [hkeptHold] at hhold
  rw [hkeptMin] at hmin
  generalize (s.writeBut .all parRefuse 2 2 Reg.PAR_CFG_at v (parBad v)).st = u at hrun heq hhold hmin hok hrefused
  have hucur : (u.vaultQueue 3).vault.cur ≠ none := by rw [heq]; exact hcur
  rw [State.vaultBegin_busy _ hucur] at hrun
  refine ⟨_, hrun, ?_, fun hH => ?_, fun hH => ?_, fun hW => ?_, fun hW => ?_, fun hHW => ?_, fun hHW => ?_⟩
  · have hvault : u.vault = s.vault := by rw [heq]
    rw [← hvault, State.net_vaultQueue, heq]
    rfl
  · exact hhold.trans (if_neg (by omega))
  · exact hhold.trans (if_pos (by omega))
  · exact hmin.trans (if_neg (by omega))
  · exact hmin.trans (if_pos (by omega))
  · exact hok ((parBad_eq_nil v).2 hHW)
  · exact hrefused (fun hnil => hHW ((parBad_eq_nil v).1 hnil))

end

/-- Settles O45: the window's state changes by its rule, a seal sample by what it sees; a second miss in a row is recorded. -/
theorem windowAndSealFollowTheParapet : Obligations.WindowAndSealFollowTheParapet := by
  refine ⟨fun s hup hroom => ?_, fun s level => sealSample_samples s level, fun s hup haon hphase hnew hmiss hlatch hroom =>
    sealSample_breaks s hup haon hphase hnew hmiss hlatch hroom, fun src v s hup => ⟨parCfgWrite_absent s v hup, parCfgWrite_takes s v hup⟩⟩
  exact ⟨pressBegin_down s, pressBegin_up s hup, pressEnd_up s, pressEnd_holding s hup, pressEnd_closes s hup hroom, pressEnd_idle s hup,
    holdReached_opens s hup hroom, holdReached_renews s hup, windowExpiry_closes s hup hroom,
    fun hwin hleft => windowExpiry_waits s (timerOut_left s hwin hleft), fun hwin hclosed => windowExpiry_waits s (timerOut_closed s hwin hclosed),
    fun c hwin hclosed hdue hwhy => windowExpiry_recauses s hup hwin hclosed hdue hwhy, buttonArmed_arms s hup, btnStuck_shows s hup⟩

end Sys2Proof.Machine
end

section
/-!
PROOFS. The recorder's records: flushes, history clears, snapshot sets and appended pages (R365, R368 to R372).
-/

namespace Sys2Proof.Machine
open Sys2Proof.Claims

/-! ## Flushes (R365) -/

section
variable (s : State)

theorem flush_again (h : s.on Reg.REC_STATUS.FLUSHING = true) : s.flush = { s with record := { s.record with again := true } } := if_pos h

/-- A flush with nothing changed writes TIMEBASE alone. -/
theorem flush_timebase (h : s.on Reg.REC_STATUS.FLUSHING = false) (hlost : s.record.lost ≤ s.record.lostNoted) (hdirty : s.record.dirty = [])
    (hledger : s.record.dirtyLedger = false) :
    s.flush = (((s.vaultFlush [2]).wf Reg.REC_STATUS.FLUSHING 1).onRec (fun r => { r with flush := [2] })).vaultBegin := by
  refine (if_neg (by rw [h]; exact Bool.false_ne_true)).trans ?_
  dsimp only
  rw [if_neg (Nat.not_lt.2 hlost), hdirty, hledger, List.mergeSort_nil]
  rfl

theorem flush_queues (h : s.on Reg.REC_STATUS.FLUSHING = false) (hlost : s.record.lost ≤ s.record.lostNoted) (hdirty : s.record.dirty = [])
    (hledger : s.record.dirtyLedger = false) (hcur : s.vault.cur ≠ none) :
    s.flush = { s with io := s.flush.io, vault := s.flush.vault, record := { s.record with flush := [2] } } ∧
      s.flush.vault = { s.vault with queue := s.vault.queue ++ [⟨2, true⟩] } ∧ s.flush.on Reg.REC_STATUS.FLUSHING = true := by
  have hregs := (regs_refl (s.vaultFlush [2]) [Reg.REC_STATUS_at]).wf Reg.REC_STATUS.FLUSHING 1 (.head _)
  have hon := (s.vaultFlush [2]).on_wf_b2n true Reg.REC_STATUS.FLUSHING (by decide) rfl
  have heq := flush_timebase s h hlost hdirty hledger
  change ((s.vaultFlush [2]).wf Reg.REC_STATUS.FLUSHING 1).on Reg.REC_STATUS.FLUSHING = true at hon
  generalize (s.vaultFlush [2]).wf Reg.REC_STATUS.FLUSHING 1 = u at heq hon hregs
  have hu := hregs.eq_io
  have hvault : u.vault = { s.vault with queue := s.vault.queue ++ [⟨2, true⟩] } := by rw [hu]; rfl
  have hbusy : (u.onRec (fun r => { r with flush := [2] })).vault.cur ≠ none := by
    rw [show (u.onRec (fun r => { r with flush := [2] })).vault = u.vault from rfl, hvault]; exact hcur
  rw [State.vaultBegin_busy _ hbusy] at heq
  rw [heq]
  refine ⟨?_, hvault, hon⟩
  rw [hu]
  rfl

theorem exec_flushes (hup : s.aonUp = true) : ∀ i ∈ [Instr.flush, .recFlushNow .keystone], exec i s = .next s.flush := by
  have hnow : getBits (1 : Word) 0 1 = 1 := by decide
  have hwrite : s.writeRec .keystone Reg.REC_FLUSH_at 1 = .ok (if getBits (1 : Word) 0 1 = 1 then s.flush else s) :=
    (if_neg (show ¬ Reg.REC_FLUSH_at = Reg.REC_CFG_at by decide)).trans (if_pos rfl)
  rw [if_pos hnow] at hwrite
  intro i hi
  rcases List.mem_pair.1 hi with rfl | rfl
  · exact if_pos hup
  · exact (if_pos hup).trans (congrArg (fun w : WRes => Host.Outcome.next w.st) hwrite)

end

/-! ## History clears (R368) -/

section
variable (s : State)

/-- Whether a channel lies among those cleared. -/
theorem clearChans_clears (n fuel : Nat) : (∀ m, (s.clearChans n fuel).chan m = if n ≤ m ∧ m < n + fuel then { Chan.zero with recovered := (s.chan m).recovered }
    else s.chan m) ∧ (s.clearChans n fuel).record.total = s.record.total ∧ (s.clearChans n fuel).record.ledger = s.record.ledger ∧
    (s.clearChans n fuel).record.histClears = s.record.histClears := by
  induction fuel generalizing s n with
  | zero => exact ⟨fun m => (if_neg (by omega)).symm, rfl, rfl, rfl⟩
  | succ k ih =>
    obtain ⟨hchan, htotal, hledger, hclears⟩ := ih ((s.dirtyChan n { Chan.zero with recovered := (s.chan n).recovered }).vaultQueue (0x200 + n)) (n + 1)
    have hone (m : Nat) : ((s.dirtyChan n { Chan.zero with recovered := (s.chan n).recovered }).vaultQueue (0x200 + n)).chan m =
        if m = n then { Chan.zero with recovered := (s.chan n).recovered } else s.chan m := SMap.get_set _ _ _ _ _
    refine ⟨fun m => ?_, htotal, hledger, hclears⟩
    refine (hchan m).trans ?_
    rw [hone m]
    by_cases hm : m = n
    · rw [if_neg (by omega), if_pos hm, if_pos (by omega), hm]
    · rw [if_neg hm]
      by_cases hin : n + 1 ≤ m ∧ m < n + 1 + k
      · rw [if_pos hin, if_pos (by omega)]
      · rw [if_neg hin, if_neg (by omega)]

variable (src : Src) (v : Word) (hup : s.aonUp = true)

/-- REC_CLEAR with GO, as the command writes it. -/
theorem exec_historyClear (hup : s.aonUp = true) {w : WRes} (h : s.writeClear src (putBits v 31 1 1) = w) : exec (.historyClear src v) s = .next w.st := by
  have hwrite : s.writeRec src Reg.REC_CLEAR_at (putBits v 31 1 1) = w := by
    refine ((if_neg (show ¬ Reg.REC_CLEAR_at = Reg.REC_CFG_at by decide)).trans ((if_neg (show ¬ Reg.REC_CLEAR_at = Reg.REC_FLUSH_at by decide)).trans
      ((if_neg (show ¬ Reg.REC_CLEAR_at = Reg.REC_HIST_SEL_at by decide)).trans ((if_neg (show ¬ Reg.REC_CLEAR_at = Reg.REC_CH_SEL_at by decide)).trans
      ((if_neg (show ¬ Reg.REC_CLEAR_at = Reg.REC_LEDGER_SEL_at by decide)).trans (if_pos rfl)))))).trans h
  rw [← hwrite]
  exact if_pos hup

theorem getBits_go {lo width : Nat} (h : lo + width ≤ 31) : getBits (putBits v 31 1 1) lo width = getBits v lo width :=
  getBits_putBits_other _ _ _ _ _ _ (.inl h)

theorem sealOk_iff (h : presence src s) : (s.permit src true).sealOk = s.on Reg.PAR_STATUS.SEAL_BROKEN := by
  have hpres := (presOk_iff (src := src) (s := s) true).2 h
  rw [State.permit] at hpres ⊢
  exact (congrArg (· && s.on Reg.PAR_STATUS.SEAL_BROKEN) hpres).trans (Bool.true_and _)

section
variable {s src}

theorem clear_absent (h : ¬ presence src s) : (!(s.permit src true).presOk) = true := by
  rw [Bool.not_eq_true', Bool.eq_false_iff, ne_eq, presOk_iff]; exact h

theorem clear_present (h : presence src s) : ¬ (!(s.permit src true).presOk) = true := by
  rw [(presOk_iff true).2 h]; exact Bool.false_ne_true

end

include hup

theorem historyClear_refused :
    (¬ presence src s → Refuses (.historyClear src v) s recRefuse 5) ∧
    (presence src s → s.on Reg.PAR_STATUS.SEAL_BROKEN = false → Refuses (.historyClear src v) s recRefuse 6) ∧
    (presence src s → ¬ s.on Reg.PAR_STATUS.SEAL_BROKEN = false → s.on Reg.REC_STATUS.PWRFAIL = true → Refuses (.historyClear src v) s recRefuse 3) ∧
    (presence src s → ¬ s.on Reg.PAR_STATUS.SEAL_BROKEN = false → s.on Reg.REC_STATUS.PWRFAIL = false → getBits v 8 6 < getBits v 0 6 →
      Refuses (.historyClear src v) s recRefuse 1) := by
  have hseal (h : presence src s) (hs : ¬ s.on Reg.PAR_STATUS.SEAL_BROKEN = false) : ¬ (!(s.permit src true).sealOk) = true := by
    rw [sealOk_iff s src h]; simpa using hs
  refine ⟨fun h => ?_, fun h hs => ?_, fun h hs hp => ?_, fun h hs hp hr => ?_⟩
  · exact refuses_of_exec (by decide) (exec_historyClear s src v hup (if_pos (clear_absent h)))
  · exact refuses_of_exec (by decide) (exec_historyClear s src v hup ((if_neg (clear_present h)).trans
      (if_pos (by rw [sealOk_iff s src h, hs]; rfl))))
  · exact refuses_of_exec (by decide) (exec_historyClear s src v hup ((if_neg (clear_present h)).trans ((if_neg (hseal h hs)).trans (if_pos hp))))
  · refine refuses_of_exec (by decide) (exec_historyClear s src v hup ((if_neg (clear_present h)).trans ((if_neg (hseal h hs)).trans
      ((if_neg (by rw [hp]; exact Bool.false_ne_true)).trans (if_pos ?_)))))
    rw [getBits_go v (by decide), getBits_go v (by decide)]
    exact hr

omit hup

/-- The histories that REC_CLEAR names. -/
def State.cleared (x : State) : State :=
  if getBits v 16 1 = 1 then x.clearChans (getBits v 0 6) (getBits v 8 6 + 1 - getBits v 0 6) else x

/-- The ledger as REC_CLEAR leaves it. -/
def State.ledgerCleared (x : State) : State :=
  if getBits v 17 1 = 1 then (x.onRec (fun r => { r with total := 0, next := 0, ledger := [], dirtyLedger := true })).vaultQueue 0x300 else x

theorem clearHistory_eq (x : State) : x.clearHistory v =
    (((((x.cleared v).ledgerCleared v).onRec (fun r => { r with histClears := min (2 ^ 32 - 1) (r.histClears + 1) })).vaultQueue 2).evRecord 5 v.toNat).vaultBegin := rfl

/-- What a record queued and a write begun leave of the histories. -/
theorem histories_kept (y : State) (code a0 : Nat) : ((y.evRecord code a0).vaultBegin).record.histClears = y.record.histClears ∧
    (∀ n, ((y.evRecord code a0).vaultBegin).chan n = y.chan n) ∧ ((y.evRecord code a0).vaultBegin).record.total = y.record.total ∧
    ((y.evRecord code a0).vaultBegin).record.ledger = y.record.ledger := by
  have hev : (y.evRecord code a0).record.histClears = y.record.histClears ∧ (y.evRecord code a0).record.chans = y.record.chans ∧
      (y.evRecord code a0).record.total = y.record.total ∧ (y.evRecord code a0).record.ledger = y.record.ledger := by
    by_cases h : 128 ≤ y.record.events.length
    · rw [State.evRecord, if_pos h, (y.loseRecords_eq 1).2]
      exact ⟨rfl, rfl, rfl, rfl⟩
    · rw [State.evRecord, if_neg h]
      exact ⟨rfl, rfl, rfl, rfl⟩
  obtain ⟨hclears, hchans, htotal, hledger⟩ := hev
  rw [State.vaultBegin_eq]
  refine ⟨hclears, fun n => ?_, htotal, hledger⟩
  rw [State.chan, State.chan, ← hchans]

theorem clearHistory_clears {w : Word} (x : State) (hx : x.record = s.record) (hw : ∀ lo width, lo + width ≤ 31 → getBits w lo width = getBits v lo width)
    (hle : getBits v 0 6 ≤ getBits v 8 6) :
    (x.clearHistory w).record.histClears = min (2 ^ 32 - 1) (s.record.histClears + 1) ∧
    (∀ n, (x.clearHistory w).chan n = if v.getLsbD 16 = true ∧ getBits v 0 6 ≤ n ∧ n ≤ getBits v 8 6 then { Chan.zero with recovered := (s.chan n).recovered }
      else s.chan n) ∧
    (v.getLsbD 17 = true → (x.clearHistory w).record.total = 0 ∧ (x.clearHistory w).record.ledger = []) ∧
    (v.getLsbD 17 = false → (x.clearHistory w).record.total = s.record.total ∧ (x.clearHistory w).record.ledger = s.record.ledger) := by
  have hchan (n : Nat) : x.chan n = s.chan n := by rw [State.chan, State.chan, hx]
  obtain ⟨hcl1, hcl2, hcl3, hcl4⟩ := clearChans_clears x (getBits v 0 6) (getBits v 8 6 + 1 - getBits v 0 6)
  have hcleared : (∀ n, (x.cleared w).chan n = if v.getLsbD 16 = true ∧ getBits v 0 6 ≤ n ∧ n ≤ getBits v 8 6 then
      { Chan.zero with recovered := (s.chan n).recovered } else s.chan n) ∧ (x.cleared w).record.total = s.record.total ∧
      (x.cleared w).record.ledger = s.record.ledger ∧ (x.cleared w).record.histClears = s.record.histClears := by
    unfold State.cleared
    rw [hw 16 1 (by decide), hw 0 6 (by decide), hw 8 6 (by decide)]
    by_cases hb : getBits v 16 1 = 1
    · rw [if_pos hb, hcl2, hcl3, hcl4, hx]
      refine ⟨fun n => ?_, rfl, rfl, rfl⟩
      rw [hcl1 n, hchan]
      exact if_congr ⟨fun h => ⟨(getBits_one_iff v 16).1 hb, by omega⟩, fun h => by obtain ⟨-, hlo, hhi⟩ := h; omega⟩ rfl rfl
    · rw [if_neg hb, hx]
      refine ⟨fun n => ?_, rfl, rfl, rfl⟩
      rw [hchan, if_neg (fun hc => hb ((getBits_one_iff v 16).2 hc.1))]
  obtain ⟨hc, htotal, hledger, hclears⟩ := hcleared
  rw [clearHistory_eq]
  generalize x.cleared w = y at hc htotal hledger hclears
  obtain ⟨hk1, hk2, hk3, hk4⟩ := histories_kept (((y.ledgerCleared w).onRec (fun r => { r with histClears := min (2 ^ 32 - 1) (r.histClears + 1) })).vaultQueue 2)
    5 w.toNat
  have hlc : (y.ledgerCleared w).record.histClears = y.record.histClears ∧ (∀ n, (y.ledgerCleared w).chan n = y.chan n) ∧
      (v.getLsbD 17 = true → (y.ledgerCleared w).record.total = 0 ∧ (y.ledgerCleared w).record.ledger = []) ∧
      (v.getLsbD 17 = false → (y.ledgerCleared w).record.total = y.record.total ∧ (y.ledgerCleared w).record.ledger = y.record.ledger) := by
    unfold State.ledgerCleared
    rw [hw 17 1 (by decide)]
    by_cases hb : getBits v 17 1 = 1
    · rw [if_pos hb]
      exact ⟨rfl, fun _ => rfl, fun _ => ⟨rfl, rfl⟩, fun h => absurd ((getBits_one_iff v 17).1 hb) (by rw [h]; exact Bool.false_ne_true)⟩
    · rw [if_neg hb]
      exact ⟨rfl, fun _ => rfl, fun h => absurd ((getBits_one_iff v 17).2 h) hb, fun _ => ⟨rfl, rfl⟩⟩
  obtain ⟨hl1, hl2, hl3, hl4⟩ := hlc
  refine ⟨?_, fun n => (hk2 n).trans ((hl2 n).trans (hc n)), fun h => ⟨hk3.trans (hl3 h).1, hk4.trans (hl3 h).2⟩,
    fun h => ⟨hk3.trans ((hl4 h).1.trans htotal), hk4.trans ((hl4 h).2.trans hledger)⟩⟩
  rw [hk1, State.record_vaultQueue, State.onRec, hl1, hclears]

theorem historyClear_clears (hup : s.aonUp = true) (h : presence src s) (hs : ¬ s.on Reg.PAR_STATUS.SEAL_BROKEN = false) (hp : s.on Reg.REC_STATUS.PWRFAIL = false)
    (hle : getBits v 0 6 ≤ getBits v 8 6) : Does (.historyClear src v) s (fun t =>
        t.record.histClears = min (2 ^ 32 - 1) (s.record.histClears + 1) ∧
        (∀ n, t.chan n = if v.getLsbD 16 = true ∧ getBits v 0 6 ≤ n ∧ n ≤ getBits v 8 6 then { Chan.zero with recovered := (s.chan n).recovered }
          else s.chan n) ∧
        (v.getLsbD 17 = true → t.record.total = 0 ∧ t.record.ledger = []) ∧
        (v.getLsbD 17 = false → t.record.total = s.record.total ∧ t.record.ledger = s.record.ledger)) := by
  have hseal : ¬ (!(s.permit src true).sealOk) = true := by rw [sealOk_iff s src h]; simpa using hs
  have hgo : getBits (putBits v 31 1 1) 31 1 = 1 := getBits_putBits_same _ _ _ _ (by decide)
  have hrange : ¬ getBits (putBits v 31 1 1) 8 6 < getBits (putBits v 31 1 1) 0 6 := by
    rw [getBits_go v (by decide), getBits_go v (by decide)]; omega
  have hwrite : s.writeClear src (putBits v 31 1 1) =
      .ok ((s.writeReg .all Reg.REC_CLEAR_at (putBits (putBits v 31 1 1) 31 1 0)).clearHistory (putBits v 31 1 1)) :=
    (if_neg (clear_present h)).trans ((if_neg hseal).trans ((if_neg (by rw [hp]; exact Bool.false_ne_true)).trans ((if_neg hrange).trans
      (congrArg WRes.ok (if_pos hgo)))))
  have hregs := regs_writeReg s .all Reg.REC_CLEAR_at (putBits (putBits v 31 1 1) 31 1 0)
  have hrun := exec_historyClear s src v hup hwrite
  generalize s.writeReg .all Reg.REC_CLEAR_at (putBits (putBits v 31 1 1) 31 1 0) = x at hrun hregs
  exact ⟨_, hrun, clearHistory_clears s v x (by rw [hregs.eq_io]) (fun _ _ hlo => getBits_go v hlo) hle⟩

end

/-! ## Snapshot sets (R369, R370) -/

section
variable (s : State)

/-- The source-6 triggers of the sets in a list. -/
theorem foldl_trigs (v : Word) (ks : List Nat) (u : State) :
    ks.foldl (fun s k => if getBits v k 1 = 1 then ({ s with trigs := s.trigs ++ [8 + k] } : State) else s) u =
      { u with trigs := u.trigs ++ (ks.filter (fun k => v.getLsbD k)).map (8 + ·) } := by
  induction ks generalizing u with
  | nil => simp
  | cons k ks ih =>
    rw [List.foldl_cons, ih, List.filter_cons]
    by_cases hk : v.getLsbD k = true
    · rw [if_pos ((getBits_one_iff v k).2 hk), if_pos hk, List.map_cons, List.append_assoc]
      rfl
    · rw [if_neg (fun h => hk ((getBits_one_iff v k).1 h)), if_neg hk]

theorem recSnapFire_cases (src : Src) (mask : BitVec 8) (hup : s.aonUp = true) :
    (src = .fobex → Refuses (.recSnapFire src mask) s recRefuse 4) ∧
    (src ≠ .fobex → Does (.recSnapFire src mask) s (fun t => t = { s with trigs := t.trigs } ∧
      t.trigs = s.trigs ++ ((List.range 8).filter (fun k => mask.getLsbD k)).map (8 + ·))) := by
  have hwrite : s.writeRec src Reg.REC_SNAP_FIRE_at (mask.setWidth 32) = if src = .fobex then s.refused recRefuse 4
      else .ok ((List.range 8).foldl (fun s k => if getBits (mask.setWidth 32) k 1 = 1 then ({ s with trigs := s.trigs ++ [8 + k] } : State) else s) s) :=
    (if_neg (show ¬ Reg.REC_SNAP_FIRE_at = Reg.REC_CFG_at by decide)).trans ((if_neg (show ¬ Reg.REC_SNAP_FIRE_at = Reg.REC_FLUSH_at by decide)).trans
      ((if_neg (show ¬ Reg.REC_SNAP_FIRE_at = Reg.REC_HIST_SEL_at by decide)).trans ((if_neg (show ¬ Reg.REC_SNAP_FIRE_at = Reg.REC_CH_SEL_at by decide)).trans
      ((if_neg (show ¬ Reg.REC_SNAP_FIRE_at = Reg.REC_LEDGER_SEL_at by decide)).trans
      ((if_neg (show ¬ Reg.REC_SNAP_FIRE_at = Reg.REC_CLEAR_at by decide)).trans (if_pos rfl))))))
  have hrun {w : WRes} (h : s.writeRec src Reg.REC_SNAP_FIRE_at (mask.setWidth 32) = w) : exec (.recSnapFire src mask) s = .next w.st := by
    rw [← h]; exact if_pos hup
  refine ⟨fun h => refuses_of_exec (by decide) (hrun (hwrite.trans (if_pos h))), fun h => ⟨_, hrun (hwrite.trans (if_neg h)), ?_⟩⟩
  rw [WRes.ok_st, foldl_trigs]
  refine ⟨rfl, ?_⟩
  have hsame : (List.range 8).filter (fun k => (mask.setWidth 32).getLsbD k) = (List.range 8).filter (fun k => mask.getLsbD k) := by
    refine List.filter_congr (fun k hk => ?_)
    have hlt := List.mem_range.1 hk
    rw [BitVec.getLsbD_setWidth, decide_eq_true (by omega : k < 32), Bool.true_and]
  rw [hsame]

theorem State.snap_setSnap (k : Nat) (v : Option Snap) (j : Nat) : (s.setSnap k v).snap j = if j = k then v else s.snap j := SMap.get_set _ _ _ _ _

theorem State.snap_wf (f : Fd) (v j : Nat) : (s.wf f v).snap j = s.snap j := rfl

theorem State.snap_onRec (f : Rec → Rec) (j : Nat) (hf : (f s.record).snaps = s.record.snaps) : (s.onRec f).snap j = s.snap j :=
  congrArg (fun m => SMap.get m none j) hf

/-- What the firing of other sets leaves of what a set's firing reads: masks, counts, addresses, the time and the sources. -/
structure SnapView (s u : State) : Prop where
  mask : ∀ j, u.rf (Reg.REC_SNAP_CTL.TRIGMASK j) = s.rf (Reg.REC_SNAP_CTL.TRIGMASK j)
  count : ∀ j, u.rf (Reg.REC_SNAP_CTL.COUNT j) = s.rf (Reg.REC_SNAP_CTL.COUNT j)
  addr : ∀ j i, i < 32 → u.rf (Reg.REC_SNAP_ADDR.ADDR j i) = s.rf (Reg.REC_SNAP_ADDR.ADDR j i)
  opsec : u.record.opsec = s.record.opsec
  trigs : u.trigs = s.trigs

variable {s} {t u : State}

theorem SnapView.refl (s : State) : SnapView s s := ⟨fun _ => rfl, fun _ => rfl, fun _ _ _ => rfl, rfl, rfl⟩

theorem SnapView.trans (h : SnapView s t) (k : SnapView t u) : SnapView s u :=
  ⟨fun j => (k.mask j).trans (h.mask j), fun j => (k.count j).trans (h.count j), fun j i hi => (k.addr j i hi).trans (h.addr j i hi),
    k.opsec.trans h.opsec, k.trigs.trans h.trigs⟩

/-- A write of a set's STATE or FIRED. -/
theorem SnapView.ctl (k lo width v : Nat) (hlo : 14 ≤ lo) : SnapView t (t.wf ⟨Reg.REC_SNAP_CTL_at k, lo, width⟩ v) := by
  refine ⟨fun j => t.rf_wf_other _ _ _ (.inr (.inl ?_)), fun j => t.rf_wf_other _ _ _ (.inr (.inl ?_)), fun j i hi => t.rf_wf_other _ _ _ (.inl ?_), rfl, rfl⟩
  · exact Nat.le_trans (show 0 + 7 ≤ 14 by decide) hlo
  · exact Nat.le_trans (show 8 + 6 ≤ 14 by decide) hlo
  · show 0x3B20 + 0x40 * j + i ≠ 0x3B00 + 0x40 * k
    omega

/-- A change of the recorder that leaves the time. -/
theorem SnapView.onRec (f : Rec → Rec) (hf : (f t.record).opsec = t.record.opsec) : SnapView t (t.onRec f) :=
  ⟨fun _ => rfl, fun _ => rfl, fun _ _ _ => rfl, hf, rfl⟩

theorem SnapView.snapReady (k : Nat) (hlost : ∀ x, t.snap k = some x → x.lost = false) :
    SnapView t (t.snapReady k) ∧ ∀ j, (t.snapReady k).snap j = t.snap j := by
  unfold State.snapReady
  cases hx : t.snap k with
  | none => exact ⟨.refl t, fun _ => rfl⟩
  | some x =>
    dsimp only
    rw [hlost x hx, if_neg Bool.false_ne_true]
    split
    · exact ⟨.ctl k 14 2 2 (Nat.le_refl _), fun _ => rfl⟩
    · exact ⟨.refl t, fun _ => rfl⟩

/-- A set's capture after its sources `m` have fired, before it `a`. -/
def Fired (s : State) (k m : Nat) (a b : Option Snap) : Prop :=
  (m = 0 → b = a) ∧ (∀ x, m ≠ 0 → a = some x → b = some { x with merged := min 65535 (x.merged + 1) }) ∧
    (m ≠ 0 → a = none → ∃ x, b = some x ∧ x.cause = m ∧ x.stamp.opsec = s.record.opsec ∧
      x.addrs = (List.range (min 32 (s.rf (Reg.REC_SNAP_CTL.COUNT k)))).map (fun i => s.rf (Reg.REC_SNAP_ADDR.ADDR k i)) ∧ x.merged = 0)

/-- A capture begun (R369). -/
def State.newSnap (t : State) (k m : Nat) : Snap :=
  ⟨t.stamp, m, 0, (List.range (min 32 (t.rf (Reg.REC_SNAP_CTL.COUNT k)))).map (fun i => t.rf (Reg.REC_SNAP_ADDR.ADDR k i)), [], false⟩

theorem fireSet_fires (h : SnapView s t) (k m : Nat) (hm : m ≠ 0) : SnapView s (t.fireSet k m) ∧
    (∀ j, j ≠ k → (t.fireSet k m).snap j = t.snap j) ∧ Fired s k m (t.snap k) ((t.fireSet k m).snap k) := by
  unfold State.fireSet
  cases hx : t.snap k with
  | some x =>
    dsimp only
    refine ⟨h.trans (.onRec _ rfl), fun j hj => (t.snap_setSnap k _ j).trans (if_neg hj), fun h0 => absurd h0 hm, ?_, fun _ hn => nomatch hn⟩
    rintro _ _ ⟨⟩
    exact (t.snap_setSnap k _ k).trans (if_pos rfl)
  | none =>
    dsimp only
    have hnew : (t.newSnap k m).addrs = (List.range (min 32 (s.rf (Reg.REC_SNAP_CTL.COUNT k)))).map (fun i => s.rf (Reg.REC_SNAP_ADDR.ADDR k i)) := by
      rw [State.newSnap, h.count k]
      refine List.map_congr_left (fun i hi => h.addr k i ?_)
      have := List.mem_range.1 hi
      omega
    have hstamp : (t.newSnap k m).stamp.opsec = s.record.opsec := h.opsec
    have hnew' : t.newSnap k m = ⟨t.stamp, m, 0, (List.range (min 32 (t.rf (Reg.REC_SNAP_CTL.COUNT k)))).map (fun i => t.rf (Reg.REC_SNAP_ADDR.ADDR k i)), [],
      false⟩ := rfl
    rw [← hnew']
    generalize hdue : (fun r : Rec => { r with
      snapDue := r.snapDue ++ (List.range (min 32 (t.rf (Reg.REC_SNAP_CTL.COUNT k)))).map (fun i => 32 * k + i) }) = g
    have hview : SnapView s (((((t.setSnap k (some (t.newSnap k m))).nextRseq).wf (Reg.REC_SNAP_CTL.STATE k) 1).incWrap (Reg.REC_SNAP_CTL.FIRED k)).onRec g) :=
      ((((h.trans (.onRec _ rfl)).trans (.onRec _ rfl)).trans (.ctl k 14 2 1 (Nat.le_refl _))).trans (.ctl k 16 16 _ (by decide))).trans (.onRec g (hdue ▸ rfl))
    have hsnap (j : Nat) : (((((t.setSnap k (some (t.newSnap k m))).nextRseq).wf (Reg.REC_SNAP_CTL.STATE k) 1).incWrap (Reg.REC_SNAP_CTL.FIRED k)).onRec g).snap j =
        if j = k then some (t.newSnap k m) else t.snap j := by
      rw [← hdue, State.snap_onRec _ _ _ rfl, State.incWrap, State.snap_wf, State.snap_wf, State.nextRseq, State.snap_onRec _ _ _ rfl,
        State.snap_setSnap]
    generalize ((((t.setSnap k (some (t.newSnap k m))).nextRseq).wf (Reg.REC_SNAP_CTL.STATE k) 1).incWrap (Reg.REC_SNAP_CTL.FIRED k)).onRec g = y at hview hsnap
    have hk := (hsnap k).trans (if_pos rfl)
    obtain ⟨hready, hkeep⟩ := SnapView.snapReady (t := y) k (by rw [hk]; rintro _ ⟨⟩; rfl)
    refine ⟨hview.trans hready, fun j hj => (hkeep j).trans ((hsnap j).trans (if_neg hj)), fun h0 => absurd h0 hm, fun _ _ hn => (nomatch hn),
      fun _ _ => ⟨_, (hkeep k).trans hk, rfl, hstamp, hnew, rfl⟩⟩

theorem setMask_congr (h : SnapView s t) (k : Nat) (srcs : List Nat) : t.setMask k srcs = s.setMask k srcs := by
  rw [State.setMask, State.setMask, h.mask]

/-- Sets from `k` on fire, each by its own mask (R369). -/
theorem fireSets_fires (srcs : List Nat) (h : SnapView s t) (k fuel : Nat) : SnapView s (t.fireSets srcs k fuel) ∧
    (∀ j, j < k ∨ k + fuel ≤ j → (t.fireSets srcs k fuel).snap j = t.snap j) ∧
    ∀ j, k ≤ j → j < k + fuel → Fired s j (s.setMask j srcs) (t.snap j) ((t.fireSets srcs k fuel).snap j) := by
  induction fuel generalizing t k with
  | zero => exact ⟨h, fun _ _ => rfl, fun j hlo hhi => absurd hlo (by omega)⟩
  | succ n ih =>
    rw [State.fireSets, setMask_congr h]
    have hone : SnapView s (if s.setMask k srcs = 0 then t else t.fireSet k (s.setMask k srcs)) ∧
        (∀ j, j ≠ k → (if s.setMask k srcs = 0 then t else t.fireSet k (s.setMask k srcs)).snap j = t.snap j) ∧
        Fired s k (s.setMask k srcs) (t.snap k) ((if s.setMask k srcs = 0 then t else t.fireSet k (s.setMask k srcs)).snap k) := by
      by_cases hm : s.setMask k srcs = 0
      · rw [if_pos hm]
        exact ⟨h, fun _ _ => rfl, fun _ => rfl, fun _ hn => absurd hm hn, fun hn => absurd hm hn⟩
      · rw [if_neg hm]
        exact fireSet_fires h k _ hm
    obtain ⟨hview, hother, hk⟩ := hone
    generalize (if s.setMask k srcs = 0 then t else t.fireSet k (s.setMask k srcs)) = u at hview hother hk
    obtain ⟨hfinal, hout, hin⟩ := ih hview (k + 1)
    refine ⟨hfinal, fun j hj => (hout j (by omega)).trans (hother j (by omega)), fun j hlo hhi => ?_⟩
    by_cases hj : j = k
    · subst hj
      rw [hout j (.inl (Nat.lt_succ_self j))]
      exact hk
    · rw [← hother j hj]
      exact hin j (by omega) (by omega)

theorem keeps_onRec (f : Rec → Rec) (hf : (f t.record).snaps = t.record.snaps) (h : s.Keeps (fun _ => False) (fun s => (s.trigs, s.record.snaps)) t) :
    s.Keeps (fun _ => False) (fun s => (s.trigs, s.record.snaps)) (t.onRec f) :=
  h.trans (State.Keeps.of_eq rfl (congrArg (Prod.mk t.trigs) hf))

/-- What the issue of reads leaves: the sources that have signalled, and the captures. -/
theorem issueReads_keeps (fuel : Nat) (h : s.Keeps (fun _ => False) (fun s => (s.trigs, s.record.snaps)) t) :
    s.Keeps (fun _ => False) (fun s => (s.trigs, s.record.snaps)) (t.issueReads fuel) := by
  have hb : State.Keeps.BesidesDma (fun _ => False) (fun s => (s.trigs, s.record.snaps)) := ⟨not_false, not_false, fun _ _ _ _ => rfl⟩
  induction fuel generalizing t with
  | zero => exact h
  | succ n ih =>
    rw [State.issueReads]
    split
    · exact h
    · split
      · exact ih (State.Keeps.send hb (keeps_onRec _ (by rfl) h) _ _ _ _ _)
      · split
        · exact h
        · exact ih (State.Keeps.send hb (keeps_onRec _ (by rfl) h) _ _ _ _ _)

theorem snapshotFire_fires (hup : s.aonUp = true) : Does .snapshotFire s (fun t => t.trigs = [] ∧ ∀ k, k < 8 →
    Fired s k (s.setMask k s.trigs) (s.snap k) (t.snap k)) := by
  have hview : SnapView { s with trigs := [] } { s with trigs := [] } := .refl _
  obtain ⟨hfinal, -, hin⟩ := fireSets_fires s.trigs hview 0 8
  have hkeeps := issueReads_keeps 8 (State.Keeps.refl (R := fun _ => False) (p := fun s : State => (s.trigs, s.record.snaps))
    (({ s with trigs := [] } : State).fireSets s.trigs 0 8))
  refine ⟨_, if_pos hup, ?_⟩
  generalize ({ s with trigs := [] } : State).fireSets s.trigs 0 8 = u at hfinal hin hkeeps
  obtain ⟨htrigs, hsnaps⟩ := Prod.mk.inj hkeeps.rest
  refine ⟨htrigs.trans hfinal.trigs, fun k hk => ?_⟩
  have hsame : (u.issueReads 8).snap k = u.snap k := congrArg (fun m => SMap.get m none k) hsnaps
  rw [hsame]
  exact hin k (Nat.zero_le k) (by omega)

end

/-! ## Appended pages (R371, R372) -/

section
variable (s : State)

theorem recorderAppend_appends (hup : s.aonUp = true) (hpwr : s.on Reg.REC_STATUS.PWRFAIL = false) (hflc : s.on Reg.FLC_STATUS.PWRFAIL = false)
    (hpage : s.record.page = none) (hsome : packRecords s.waiting 3984 ≠ []) (hcur : s.flc.cur ≠ none) :
    Does .recorderAppend s (fun t => t.record.page.isSome = true ∧ t.record.events = s.record.events ∧
      t.flc.queue = s.flc.queue ++ [⟨.recorder, .append (pagePayload (packRecords s.waiting 3984)) 0 0, 0⟩]) := by
  have hidle : ¬ (s.record.page.isSome = true ∨ (packRecords s.waiting 3984).isEmpty = true) := by
    rw [hpage, List.isEmpty_iff]; simpa using hsome
  have heq : s.appendPage = _ := if_neg hidle
  refine ⟨s.appendPage, if_pos (by rw [hup, hpwr]; rfl), ?_⟩
  rw [heq]
  generalize hu : s.onRec (fun r => { r with page := some ((packRecords s.waiting 3984).filterMap Waiting.set,
    (packRecords s.waiting 3984).length - ((packRecords s.waiting 3984).filterMap Waiting.set).length) }) = u
  have hoff : u.on Reg.FLC_STATUS.PWRFAIL = false := by rw [← hu]; exact hflc
  have hbusy : (u.onFlc (fun x => { x with
      queue := x.queue ++ [⟨.recorder, .append (pagePayload (packRecords s.waiting 3984)) 0 0, 0⟩] })).flc.cur.isSome = true := by
    rw [← hu]; exact Option.isSome_iff_ne_none.2 hcur
  have hrequest : (if u.on Reg.FLC_STATUS.PWRFAIL = true then u.onRec (fun r => { r with page := none })
      else u.flcRequest ⟨.recorder, .append (pagePayload (packRecords s.waiting 3984)) 0 0, 0⟩) =
      u.onFlc (fun x => { x with queue := x.queue ++ [⟨.recorder, .append (pagePayload (packRecords s.waiting 3984)) 0 0, 0⟩] }) := by
    refine (if_neg (by rw [hoff]; exact Bool.false_ne_true)).trans (if_pos ?_)
    rw [hbusy, Bool.true_or, Bool.true_or, Bool.true_or]
  refine (congrArg (fun x : State => x.record.page.isSome = true ∧ x.record.events = s.record.events ∧
    x.flc.queue = s.flc.queue ++ [⟨.recorder, .append (pagePayload (packRecords s.waiting 3984)) 0 0, 0⟩]) hrequest).mpr ?_
  rw [← hu]
  exact ⟨rfl, rfl, rfl⟩

theorem recorderAppend_waits (h : s.record.page ≠ none ∨ s.on Reg.REC_STATUS.PWRFAIL = true) : Does .recorderAppend s (fun t => t = s) := by
  by_cases hup : (s.aonUp && !s.on Reg.REC_STATUS.PWRFAIL) = true
  · refine ⟨s.appendPage, if_pos hup, ?_⟩
    rcases h with h | h
    · exact if_pos (.inl (Option.isSome_iff_ne_none.2 h))
    · rw [h] at hup
      simp at hup
  · exact ⟨_, if_neg hup, rfl⟩

end

/-- Settles O44: what the recorder has to write it takes in one step each; sets fire in turn, each by its own mask. -/
theorem recorderWritesItsRecords : Obligations.RecorderWritesItsRecords := by
  intro s hup
  refine ⟨fun i hi => ⟨fun h => ?_, fun h hlost hdirty hledger hcur => ?_⟩, fun src v => ?_, fun src mask => recSnapFire_cases s src mask hup,
    snapshotFire_fires hup, recorderAppend_appends s hup, recorderAppend_waits s⟩
  · exact ⟨_, exec_flushes s hup i hi, flush_again s h⟩
  · exact ⟨_, exec_flushes s hup i hi, flush_queues s h hlost hdirty hledger hcur⟩
  · obtain ⟨h1, h2, h3, h4⟩ := historyClear_refused s src v hup
    exact ⟨h1, h2, h3, h4, historyClear_clears s src v hup⟩

end Sys2Proof.Machine
end

section
/-!
PROOFS. A request sent: what `State.send` does to the network, in the terms of R228, R237, R248 and R250.
-/

namespace Sys2Proof.Machine
open Sys2Proof.Claims

/-- Some number up to the length of a list is not in it. -/
theorem exists_le_length_not_mem (l : List Nat) : ∃ k, k < l.length + 1 ∧ k ∉ l := by
  by_contra hall
  push Not at hall
  have hsub : Finset.range (l.length + 1) ⊆ l.toFinset := fun k hk => List.mem_toFinset.2 (hall k (Finset.mem_range.1 hk))
  have hcard := (Finset.card_le_card hsub).trans (List.toFinset_card_le l)
  rw [Finset.card_range] at hcard
  omega

section
variable (s : State) (p ni vc : Nat) (who : Who) (op : NetOp)

/-- The tag taken is one that no request of the shell holds (R248). -/
theorem newTag_free : (s.tagHolders ni p).all (fun x => x.tag != s.newTag ni p) = true := by
  rw [State.newTag]
  obtain ⟨k, hk, hnot⟩ := exists_le_length_not_mem ((s.tagHolders ni p).map Req.tag)
  rw [List.length_map] at hk
  cases hfind : (List.range ((s.tagHolders ni p).length + 1)).find? (fun t => !((s.tagHolders ni p).any (fun r => r.tag == t))) with
  | none =>
    have hno := List.find?_eq_none.1 hfind k (List.mem_range.2 hk)
    rw [Bool.not_eq_true, Bool.not_eq_false', List.any_eq_true] at hno
    obtain ⟨r, hr, heq⟩ := hno
    exact absurd (List.mem_map.2 ⟨r, hr, beq_iff_eq.1 heq⟩) hnot
  | some t =>
    have hfree := List.find?_some hfind
    rw [Bool.not_eq_true', List.any_eq_false] at hfree
    rw [List.all_eq_true]
    intro x hx
    exact bne_iff_ne.2 (fun h => hfree x hx (beq_iff_eq.2 h))

/-- The request as its core forms it. -/
def State.formed : Req :=
  { id := s.net.nextId, who := who, op := op, ni := ni, entry := NetOp.entry op, vc := vc, route := 0, tag := 0, sent := false,
    isl := p, gen := (s.shell p).gen, resp := none, held := true, stale := false, lost := false, place := .away, back := false }

/-- The state with the request's number taken. -/
def State.numbered : State := { s with net := { s.net with nextId := s.net.nextId + 1 } }

theorem rf_numbered (f : Fd) : s.numbered.rf f = s.rf f := rfl

/-- A request held in its core's output. -/
theorem send_held (hfree : (s.online p && s.tagFree ni p) = false) :
    s.send p ni vc who op = s.numbered.setReqs (s.net.reqs ++ [s.formed p ni vc who op]) := by
  have hif : (if (s.numbered.online p && s.numbered.tagFree ni p) = true then s.numbered.letIn (s.formed p ni vc who op)
      else (s.formed p ni vc who op, s.numbered)) = (s.formed p ni vc who op, s.numbered) :=
    if_neg (by rw [show (s.numbered.online p && s.numbered.tagFree ni p) = false from hfree]; exact Bool.false_ne_true)
  exact congrArg (fun q : Req × State => q.2.setReqs (q.2.net.reqs ++ [q.1])) hif

theorem send_free (hfree : (s.online p && s.tagFree ni p) = true) {q : Req × State} (hq : s.numbered.letIn (s.formed p ni vc who op) = q) :
    s.send p ni vc who op = q.2.setReqs (q.2.net.reqs ++ [q.1]) := by
  have hif : (if (s.numbered.online p && s.numbered.tagFree ni p) = true then s.numbered.letIn (s.formed p ni vc who op)
      else (s.formed p ni vc who op, s.numbered)) = q := (if_pos hfree).trans hq
  exact congrArg (fun q : Req × State => q.2.setReqs (q.2.net.reqs ++ [q.1])) hif

/-- The shell's own answer (R228, R237). -/
def Req.answered (r : Req) (e : RespErr) : Req := { r with held := false, sent := false, back := true, resp := some (.err e) }

/-- The request as it goes. -/
def Req.gone (r : Req) (s : State) : Req := { r with held := false, sent := true, route := s.route r.ni r.entry, tag := s.newTag r.ni r.isl }

/-- Its packet, put on its first link. -/
def Req.packet (r : Req) (s : State) : Pkt :=
  ⟨r.id, false, r.vc, r.len + 1, netPath s.grade r.op.lattice r.route r.ni r.isl r.entry r.dstIsl, 0⟩

theorem letIn_absent (r : Req) (h : reaches s r.op = false) : s.letIn r = (r.answered .offline, s.incSat Reg.VIA_OFFLINE_CNT.COUNT) := by
  have hno : (!reaches s r.op) = true := by rw [h]; rfl
  exact if_pos hno

theorem letIn_unrouted (r : Req) (h : reaches s r.op = true) (hroute : s.routeOk r.ni r.entry = false) :
    s.letIn r = (r.answered .route, s.incSat Reg.VIA_ROUTE_ERR_CNT.COUNT) := by
  have hyes : ¬ (!reaches s r.op) = true := by rw [h]; exact Bool.false_ne_true
  exact (if_neg hyes).trans (if_pos (by rw [hroute]; rfl))

theorem letIn_goes (r : Req) (h : reaches s r.op = true) (hroute : s.routeOk r.ni r.entry = true) :
    s.letIn r = (r.gone s, s.launch ((r.gone s).packet s)) := by
  have hyes : ¬ (!reaches s r.op) = true := by rw [h]; exact Bool.false_ne_true
  exact (if_neg hyes).trans (if_neg (by rw [hroute]; exact Bool.false_ne_true))

/-- A count that nothing is added to. -/
theorem sat_none (f : Fd) : s.rf f = min (2 ^ f.width - 1) (s.rf f + b2n false) := by
  have hlt : s.rf f < 2 ^ f.width := getBits_lt _ _ _
  generalize 2 ^ f.width = top at hlt
  show s.rf f = min (top - 1) (s.rf f)
  omega

/-- The network after a request numbered is put last. -/
theorem setReqs_net {s u : State} (hnet : u.net = s.numbered.net) (r : Req) :
    (u.setReqs (s.numbered.net.reqs ++ [r])).net = { s.net with nextId := s.net.nextId + 1, reqs := s.net.reqs ++ [r] } :=
  congrArg (fun n : Net => { n with reqs := s.net.reqs ++ [r] }) hnet

/-- What a request sent does, by whether it waits, is answered by the shell or goes (R228, R237, R248, R250). -/
theorem sends_send : Sends s (s.send p ni vc who op) p ni vc who op := by
  have hoff := sat_none s Reg.VIA_OFFLINE_CNT.COUNT
  have hrt := sat_none s Reg.VIA_ROUTE_ERR_CNT.COUNT
  unfold Sends
  dsimp only
  cases hfree : (s.online p && s.tagFree ni p) with
  | false =>
    rw [send_held s p ni vc who op hfree]
    simp only [Bool.false_and, Bool.not_false]
    exact ⟨⟨_, rfl, rfl, rfl, rfl, rfl, rfl, rfl, rfl, rfl, rfl, rfl, rfl, rfl, nofun⟩, fun _ => rfl, rfl, hoff, hrt⟩
  | true =>
    have hreach : reaches s (s.formed p ni vc who op).op = reaches s op := rfl
    simp only [Bool.true_and]
    cases hr : reaches s op with
    | false =>
      have heq := send_free s p ni vc who op hfree (letIn_absent s.numbered (s.formed p ni vc who op) hr)
      rw [heq]
      dsimp only
      have hoff' : (s.numbered.incSat Reg.VIA_OFFLINE_CNT.COUNT).rf Reg.VIA_OFFLINE_CNT.COUNT = min (2 ^ 32 - 1) (s.rf Reg.VIA_OFFLINE_CNT.COUNT + 1) :=
        s.numbered.rf_incSat _ _ (by decide)
      have hrt' : (s.numbered.incSat Reg.VIA_OFFLINE_CNT.COUNT).rf Reg.VIA_ROUTE_ERR_CNT.COUNT = s.rf Reg.VIA_ROUTE_ERR_CNT.COUNT :=
        s.numbered.rf_incSat_other _ _ _ (by decide)
      have hnet : (s.numbered.incSat Reg.VIA_OFFLINE_CNT.COUNT).net = s.numbered.net := rfl
      generalize s.numbered.incSat Reg.VIA_OFFLINE_CNT.COUNT = u at hoff' hrt' hnet
      rw [hnet]
      exact ⟨⟨_, rfl, rfl, rfl, rfl, rfl, rfl, rfl, rfl, rfl, rfl, rfl, rfl, rfl, nofun⟩, fun _ => by rw [setReqs_net hnet],
        by rw [setReqs_net hnet], hoff', hrt'.trans hrt⟩
    | true =>
      simp only [Bool.true_and]
      cases hroute : s.routeOk ni op.entry with
      | false =>
        have heq := send_free s p ni vc who op hfree (letIn_unrouted s.numbered (s.formed p ni vc who op) hr hroute)
        rw [heq]
        dsimp only
        have hrt' : (s.numbered.incSat Reg.VIA_ROUTE_ERR_CNT.COUNT).rf Reg.VIA_ROUTE_ERR_CNT.COUNT =
            min (2 ^ 32 - 1) (s.rf Reg.VIA_ROUTE_ERR_CNT.COUNT + 1) := s.numbered.rf_incSat _ _ (by decide)
        have hoff' : (s.numbered.incSat Reg.VIA_ROUTE_ERR_CNT.COUNT).rf Reg.VIA_OFFLINE_CNT.COUNT = s.rf Reg.VIA_OFFLINE_CNT.COUNT :=
          s.numbered.rf_incSat_other _ _ _ (by decide)
        have hnet : (s.numbered.incSat Reg.VIA_ROUTE_ERR_CNT.COUNT).net = s.numbered.net := rfl
        generalize s.numbered.incSat Reg.VIA_ROUTE_ERR_CNT.COUNT = u at hoff' hrt' hnet
        rw [hnet]
        exact ⟨⟨_, rfl, rfl, rfl, rfl, rfl, rfl, rfl, rfl, rfl, rfl, rfl, rfl, rfl, nofun⟩, fun _ => by rw [setReqs_net hnet],
          by rw [setReqs_net hnet], hoff'.trans hoff, hrt'⟩
      | true =>
        have heq := send_free s p ni vc who op hfree (letIn_goes s.numbered (s.formed p ni vc who op) hr hroute)
        rw [heq]
        exact ⟨⟨_, rfl, rfl, rfl, rfl, rfl, rfl, rfl, rfl, rfl, rfl, rfl, rfl, rfl, fun _ => ⟨rfl, newTag_free s p ni, rfl⟩⟩, nofun, rfl, hoff, hrt⟩

/-- A request sent changes the network and the shell's counts alone. -/
theorem send_eq : s.send p ni vc who op = { s with io := (s.send p ni vc who op).io, net := (s.send p ni vc who op).net } := by
  have hcount (f : Fd) : s.numbered.incSat f = { s.numbered with io := (s.numbered.incSat f).io } :=
    ((regs_refl s.numbered [f.addr]).incSat f 1 (.head _)).eq_io
  cases hfree : (s.online p && s.tagFree ni p) with
  | false => rw [send_held s p ni vc who op hfree]; rfl
  | true =>
    cases hr : reaches s op with
    | false =>
      rw [send_free s p ni vc who op hfree (letIn_absent s.numbered (s.formed p ni vc who op) hr)]
      dsimp only
      rw [hcount]
      rfl
    | true =>
      cases hroute : s.routeOk ni op.entry with
      | false =>
        rw [send_free s p ni vc who op hfree (letIn_unrouted s.numbered (s.formed p ni vc who op) hr hroute)]
        dsimp only
        rw [hcount]
        rfl
      | true =>
        rw [send_free s p ni vc who op hfree (letIn_goes s.numbered (s.formed p ni vc who op) hr hroute)]
        rfl

end

/-! ## Samples dropped and taken (R358 to R362) -/

section
variable (s : State) (n : Nat)

/-- A channel's shadow replaced, due at the next flush. -/
theorem dirtyChan_changes (c : Chan) : (s.dirtyChan n c).chan n = c ∧ (∀ m, m ≠ n → (s.dirtyChan n c).chan m = s.chan m) ∧
    n ∈ (s.dirtyChan n c).record.dirty := by
  refine ⟨SMap.get_set_same _ _ _ _, fun m hm => SMap.get_set_other _ _ _ _ _ _ hm, ?_⟩
  show n ∈ (if s.record.dirty.contains n then s.record.dirty else s.record.dirty ++ [n])
  split
  · next h => exact List.contains_iff_mem.1 h
  · exact List.mem_append_right _ (List.mem_singleton.2 rfl)

theorem dropSample_drops : Dropped s (s.dropSample n) n := dirtyChan_changes s n _

theorem dirtyChan_due (c : Chan) : (s.dirtyChan n c).record.due = s.record.due ∧ (s.dirtyChan n c).record.snapDue = s.record.snapDue := ⟨rfl, rfl⟩

/-- The number an integer channel's word of `k` bits stands for (R358). -/
def intOf (sg : Prop) [Decidable sg] (k x : Nat) : Int := if sg then lint k x else (x % 2 ^ k : Nat)

theorem valueOf_int {vt : Nat} (h : vt < 2) {k : Nat} (hk : 0 < k) (v : Nat) : valueOf vt k v = some (intOf (vt = 1) k v) := by
  rw [valueOf, if_neg (Nat.ne_of_lt h), sInt_eq_lint hk, intOf]
  split <;> rfl

/-- The word of an integer channel's field, for its extremes. -/
theorem valueWord_int {v : Nat} (hv : v < 2 ^ s.chWidth n) :
    s.valueWord n v = BitVec.ofInt 32 (intOf (s.chType n = 1) (s.chWidth n) v) := by
  have hk : 0 < s.chWidth n := Nat.succ_pos _
  rw [State.valueWord, intOf]
  split
  · rw [uNat_eq_ofInt, sInt_eq_lint hk, BitVec.ofNat_toNat, BitVec.setWidth_eq]
  · rw [Nat.mod_eq_of_lt hv, BitVec.ofInt_natCast]

theorem linBin_eq_bin (x ofs wid : Int) : linBin x ofs wid = bin x ofs wid := by
  rw [linBin, bin]
  by_cases hlow : x < ofs
  · rw [if_pos hlow, if_pos (by omega)]
  · rw [if_neg hlow, if_neg (by omega)]
    by_cases hhigh : ofs + 254 * wid ≤ x
    · rw [if_pos hhigh, if_pos (by omega)]
    · rw [if_neg hhigh, if_neg (by omega)]

/-- The bin of an integer in linear mode (R359). -/
theorem binOf_int (h : Integers s n) (x : Int) : s.binOf n x = some (bin x (intOf (s.chType n = 1) 32 (s.rf (Reg.REC_CH_OFS.VALUE n)))
    (intOf (s.chType n = 1) 32 (s.rf (Reg.REC_CH_WID.VALUE n)))) := by
  obtain ⟨hvt, hmode, hwid⟩ := h
  change s.chType n < 2 at hvt
  have hwid' : 0 < intOf (s.chType n = 1) 32 (s.rf (Reg.REC_CH_WID.VALUE n)) := by
    have hlt : s.rf (Reg.REC_CH_WID.VALUE n) < 2 ^ 32 := getBits_lt _ _ _
    rw [intOf, Nat.mod_eq_of_lt hlt]
    exact hwid
  rw [State.binOf]
  rw [if_neg (by intro hc; exact absurd hc.1 (Nat.ne_of_lt hvt)), valueOf_int hvt (by decide), valueOf_int hvt (by decide)]
  dsimp only
  rw [hmode, if_neg Bool.false_ne_true, if_pos hwid', linBin_eq_bin]

/-- Whether an integer replaces an extreme. -/
theorem beats_int (h : s.chType n < 2) (x : Int) (e : Option Ext) :
    s.beats n x e true = !(e.map (fun e => decide (intOf (s.chType n = 1) 32 e.v.toNat ≤ x))).getD false ∧
    s.beats n x e false = !(e.map (fun e => decide (x ≤ intOf (s.chType n = 1) 32 e.v.toNat))).getD false := by
  cases e with
  | none => exact ⟨rfl, rfl⟩
  | some e =>
    rw [State.beats, State.beats, valueOf_int h (by decide), Option.map_some, Option.map_some, Option.getD_some, Option.getD_some,
      ← decide_not, ← decide_not]
    exact ⟨decide_eq_decide.2 not_le.symm, decide_eq_decide.2 not_le.symm⟩

/-- The bin of a field value of an integer channel. -/
def State.intBin (s : State) (n v : Nat) : Nat :=
  bin (intOf (s.chType n = 1) (s.chWidth n) v) (intOf (s.chType n = 1) 32 (s.rf (Reg.REC_CH_OFS.VALUE n)))
    (intOf (s.chType n = 1) 32 (s.rf (Reg.REC_CH_WID.VALUE n)))

/-- A channel's shadow with one integer sample more. -/
def State.intSampled (s : State) (n v : Nat) : Chan :=
  let x := intOf (s.chType n = 1) (s.chWidth n) v
  let c := s.chan n
  { c with
    taken := c.taken + 1, bins := SMap.set c.bins 0 (s.intBin n v) (SMap.get c.bins 0 (s.intBin n v) + 1),
    mn := if s.beats n x c.mn true then some (s.extNow (BitVec.ofInt 32 x)) else c.mn,
    mx := if s.beats n x c.mx false then some (s.extNow (BitVec.ofInt 32 x)) else c.mx,
    tat := if intOf (s.chType n = 1) 32 (s.rf (Reg.REC_CH_THR.VALUE n)) ≤ x then c.tat + s.rf (Reg.REC_CH_RATE.PERIOD n) else c.tat }

theorem takeSample_int (h : Integers s n) (w : Word) : s.takeSample n (s.chField n w) = s.dirtyChan n (s.intSampled n (s.chField n w)) := by
  have hv : s.chField n w < 2 ^ s.chWidth n := getBits_lt _ _ _
  generalize s.chField n w = v at hv ⊢
  have hvt : s.chType n < 2 := h.1
  have hval : valueOf (s.chType n) (s.chWidth n) v = some (intOf (s.chType n = 1) (s.chWidth n) v) := valueOf_int hvt (Nat.succ_pos _) v
  rw [State.takeSample, hval]
  dsimp only
  rw [binOf_int s n h]
  rw [valueOf_int hvt (by decide), valueWord_int s n hv, State.intSampled]
  simp only [decide_eq_true_eq]
  rfl

/-- A sample of an integer channel taken. -/
theorem takeSample_samples (h : Integers s n) (v : Word) : Sampled s (s.takeSample n (s.chField n v)) n v := by
  have hvt : s.chType n < 2 := h.1
  have hless := (beats_int s n hvt (intOf (s.chType n = 1) (s.chWidth n) (s.chField n v)) (s.chan n).mn).1
  have hmore := (beats_int s n hvt (intOf (s.chType n = 1) (s.chWidth n) (s.chField n v)) (s.chan n).mx).2
  obtain ⟨hchan, hother, hdirty⟩ := dirtyChan_changes s n (s.intSampled n (s.chField n v))
  rw [takeSample_int s n h v]
  unfold Sampled
  dsimp only
  rw [hchan]
  refine ⟨rfl, rfl, fun k => ?_, rfl, fun hmn => ?_, fun hmx => ?_, fun e he hle => ?_, fun e he hle => ?_, hother, hdirty⟩
  · have hset : SMap.get (s.intSampled n (s.chField n v)).bins 0 k = if k = s.intBin n (s.chField n v) then
        SMap.get (s.chan n).bins 0 (s.intBin n (s.chField n v)) + 1 else SMap.get (s.chan n).bins 0 k :=
      SMap.get_set (s.chan n).bins 0 k (s.intBin n (s.chField n v)) (SMap.get (s.chan n).bins 0 (s.intBin n (s.chField n v)) + 1)
    refine hset.trans ?_
    change _ = SMap.get (s.chan n).bins 0 k + if k = s.intBin n (s.chField n v) then 1 else 0
    by_cases hk : k = s.intBin n (s.chField n v)
    · rw [if_pos hk, if_pos hk, hk]
    · rw [if_neg hk, if_neg hk, Nat.add_zero]
  · exact if_pos (hless.trans (congrArg not hmn))
  · exact if_pos (hmore.trans (congrArg not hmx))
  · have hle' : intOf (s.chType n = 1) 32 e.v.toNat ≤ intOf (s.chType n = 1) (s.chWidth n) (s.chField n v) := hle
    rw [he, Option.map_some, Option.getD_some, decide_eq_true hle'] at hless
    exact if_neg (by rw [he, hless]; exact Bool.false_ne_true)
  · have hle' : intOf (s.chType n = 1) (s.chWidth n) (s.chField n v) ≤ intOf (s.chType n = 1) 32 e.v.toNat := hle
    rw [he, Option.map_some, Option.getD_some, decide_eq_true hle'] at hmore
    exact if_neg (by rw [he, hmore]; exact Bool.false_ne_true)

end

/-! ## Sampled reads (R357, R360) -/

section
variable (s : State)

/-- With no read due none is issued. -/
theorem issueReads_none (h : NoReadsDue s) (fuel : Nat) : s.issueReads fuel = s := by
  cases fuel with
  | zero => rfl
  | succ k =>
    obtain ⟨hdue, hsnap⟩ := h
    rw [State.issueReads, hsnap, hdue]
    split <;> rfl

variable (n : Fin 64)

theorem exec_channelSample (hup : s.aonUp = true) : exec (.channelSample n) s = .next (s.channelDue n.val) := if_pos hup

theorem channelSample_idle (hup : s.aonUp = true) (h : ¬ (s.rf (Reg.REC_CH_SRC.KIND n.val) = 1 ∧ s.on (Reg.REC_CH_SRC.EN n.val) = true)) :
    Does (.channelSample n) s (fun t => t = s) := by
  refine ⟨_, exec_channelSample s n hup, if_pos ?_⟩
  by_cases hkind : s.rf (Reg.REC_CH_SRC.KIND n.val) = 1
  · exact .inr (.inl (by rw [Bool.eq_false_iff.2 (fun hen => h ⟨hkind, hen⟩)]; rfl))
  · exact .inl hkind

/-- A channel that samples, its period expired. -/
theorem channelDue_samples (hkind : s.rf (Reg.REC_CH_SRC.KIND n.val) = 1) (hen : s.on (Reg.REC_CH_SRC.EN n.val) = true)
    (hpwr : s.on Reg.REC_STATUS.PWRFAIL = false) : s.channelDue n.val =
    (if s.record.due.contains n.val then s.dropSample n.val else s.onRec (fun r => { r with due := r.due ++ [n.val] })).issueReads 8 := by
  refine if_neg ?_
  rw [hen, hpwr]
  rintro (hno | hno | hno)
  · exact hno hkind
  · exact Bool.false_ne_true hno
  · exact Bool.false_ne_true hno

theorem channelSample_drops (hup : s.aonUp = true) (hkind : s.rf (Reg.REC_CH_SRC.KIND n.val) = 1) (hen : s.on (Reg.REC_CH_SRC.EN n.val) = true)
    (hpwr : s.on Reg.REC_STATUS.PWRFAIL = false) (hdue : n.val ∈ s.record.due) (hout : 8 ≤ s.samplesOut) :
    Does (.channelSample n) s (fun t => Dropped s t n.val ∧ t.net = s.net) := by
  have hrun := exec_channelSample s n hup
  have hfull : (s.dropSample n.val).issueReads 8 = s.dropSample n.val := if_pos hout
  rw [channelDue_samples s n hkind hen hpwr, if_pos (List.contains_iff_mem.2 hdue), hfull] at hrun
  exact ⟨_, hrun, dropSample_drops s n.val, rfl⟩

theorem channelSample_reads (hup : s.aonUp = true) (hkind : s.rf (Reg.REC_CH_SRC.KIND n.val) = 1) (hen : s.on (Reg.REC_CH_SRC.EN n.val) = true)
    (hpwr : s.on Reg.REC_STATUS.PWRFAIL = false) (hnone : NoReadsDue s) (hout : s.samplesOut < 8) :
    Does (.channelSample n) s (fun t => t.record = s.record ∧ t = { s with io := t.io, net := t.net } ∧
      Sends s t islAon 54 0 (.sample n.val) (.ioRd (s.rf (Reg.REC_CH_SRC.ADDR n.val)))) := by
  obtain ⟨hdue, hsnap⟩ := hnone
  have hrun := exec_channelSample s n hup
  have hnot : ¬ s.record.due.contains n.val = true := by rw [hdue]; exact Bool.false_ne_true
  have hone : (s.onRec (fun r => { r with due := r.due ++ [n.val] })) = s.onRec (fun r => { r with due := [n.val] }) := by
    rw [State.onRec, State.onRec, hdue]
    rfl
  have hissue : (s.onRec (fun r => { r with due := [n.val] })).issueReads 8 =
      (s.send islAon 54 0 (.sample n.val) (.ioRd (s.rf (Reg.REC_CH_SRC.ADDR n.val)))).issueReads 7 := by
    have hroom : ¬ 8 ≤ (s.onRec (fun r => { r with due := [n.val] })).samplesOut := Nat.not_le.2 hout
    have hleast : leastOf [n.val] = n.val := Nat.min_self _
    have hfilter : [n.val].filter (· != n.val) = s.record.due := by rw [List.filter_singleton, bne_self_eq_false, hdue]; rfl
    have hback : s.onRec (fun r => { r with due := [n.val].filter (· != n.val) }) = s := by rw [hfilter, State.onRec]
    rw [State.issueReads, if_neg hroom, show (s.onRec (fun r => { r with due := [n.val] })).record.snapDue = [] from hsnap]
    dsimp only [State.onRec] at hback ⊢
    rw [hleast, hback]
    rfl
  have hkeeps := send_eq s islAon 54 0 (.sample n.val) (.ioRd (s.rf (Reg.REC_CH_SRC.ADDR n.val)))
  have hsends := sends_send s islAon 54 0 (.sample n.val) (.ioRd (s.rf (Reg.REC_CH_SRC.ADDR n.val)))
  rw [channelDue_samples s n hkind hen hpwr, if_neg hnot, hone, hissue] at hrun
  generalize s.send islAon 54 0 (.sample n.val) (.ioRd (s.rf (Reg.REC_CH_SRC.ADDR n.val))) = u at hrun hkeeps hsends
  have hrec : u.record = s.record := by rw [hkeeps]
  rw [issueReads_none u ⟨by rw [hrec]; exact hdue, by rw [hrec]; exact hsnap⟩] at hrun
  exact ⟨u, hrun, hrec, hkeeps, hsends⟩

/-! ## Responses to sampled reads (R360, R362) -/

theorem if_online_admitHeld {u : State} (k : Nat) (h : ∀ x ∈ u.net.reqs, x.isl = k → x.held = false) :
    (if u.online k then u.admitHeld k u.net.reqs else u) = u := by
  rw [u.admitHeld_none k h, ite_self]

/-- What a response that is delivered does at its requester. -/
def State.handOver (s : State) (w : Who) (p : Resp) : State :=
  match p with
  | .data v => s.tookData w v
  | .ack _ => s.tookData w 0
  | .err e => s.tookError w (some e)
  | .busy => s.tookError w none

/-- A response at the shell of a request whose tag is good is delivered (R248). -/
theorem receive_answered {r : Req} {p : Resp} (h : Answered s r p) {kind : Req → Resp → Bool} (hkind : kind r p = true) :
    s.receive r.id .none kind = (s.dropReq r.id).handOver r.who p := by
  obtain ⟨hreq, hresp, hback, hstale, hgen, hheld⟩ := h
  have hadmit := if_online_admitHeld (u := s.dropReq r.id) r.isl (fun x hx => hheld x (List.mem_of_mem_filter hx))
  have hgood : ¬ (r.sent && (r.stale || r.gen != ((s.dropReq r.id).shell r.isl).gen)) = true := by
    rw [hstale, show ((s.dropReq r.id).shell r.isl).gen = r.gen from hgen.symm, bne_self_eq_false, Bool.false_or, Bool.and_false]
    exact Bool.false_ne_true
  rw [State.receive, hreq]
  dsimp only
  rw [hresp]
  dsimp only
  rw [hkind, hback]
  refine (if_neg (show ¬ (!true) = true from Bool.false_ne_true)).trans ((if_pos rfl).trans ?_)
  rw [State.atShell, State.backBad_none, Bool.and_false, if_neg Bool.false_ne_true]
  unfold State.deliver
  dsimp only
  rw [hadmit, if_neg hgood]
  rfl

theorem exec_sampleResponse {r : Req} {p : Resp} (h : Answered s r p) (hwho : r.who = .sample n.val) :
    exec (.sampleResponse r.id .none) s = .next ((s.dropReq r.id).handOver r.who p) :=
  congrArg Host.Outcome.next (receive_answered s h (kind := fun r _ => match r.who with | .sample _ => true | _ => false) (by rw [hwho]))

theorem sampled_dropReq (id : Nat) {t : State} {v : Word} (h : Sampled (s.dropReq id) t n.val v) : Sampled s t n.val v := h
theorem dropped_dropReq (id : Nat) {t : State} (h : Dropped (s.dropReq id) t n.val) : Dropped s t n.val := h
theorem integers_dropReq (id : Nat) (h : Integers s n.val) : Integers (s.dropReq id) n.val := h
theorem gone_dirtyChan (r : Req) (m : Nat) (c : Chan) : Gone s ((s.dropReq r.id).dirtyChan m c) r := rfl

/-- A sample's outcome, with no further read due. -/
theorem sampled_none (u : State) (h : NoReadsDue u) : u.sampled n.val none = u.dropSample n.val := by
  rw [State.sampled, if_neg (Nat.not_le.2 n.isLt)]
  exact issueReads_none (u.dropSample n.val) h 8

theorem sampled_some (u : State) (h : NoReadsDue u) (hint : Integers u n.val) (v : Word) :
    u.sampled n.val (some v) = u.takeSample n.val (u.chField n.val v) := by
  rw [State.sampled, if_neg (Nat.not_le.2 n.isLt)]
  rw [takeSample_int u n.val hint v]
  exact issueReads_none (u.dirtyChan n.val _) h 8

theorem sampleResponse_takes {r : Req} {v : Nat} (h : Answered s r (.data v)) (hwho : r.who = .sample n.val) (hnone : NoReadsDue s)
    (hint : Integers s n.val) : Does (.sampleResponse r.id .none) s (fun t => Gone s t r ∧ Sampled s t n.val (BitVec.ofNat 32 v)) := by
  have hrun := exec_sampleResponse s n h hwho
  have htook : (s.dropReq r.id).handOver r.who (.data v) = (s.dropReq r.id).sampled n.val (some (BitVec.ofNat 32 v)) := by rw [hwho]; rfl
  rw [htook, sampled_some n (s.dropReq r.id) hnone hint] at hrun
  refine ⟨_, hrun, ?_, sampled_dropReq s n r.id (takeSample_samples (s.dropReq r.id) n.val hint _)⟩
  rw [takeSample_int (s.dropReq r.id) n.val hint]
  exact gone_dirtyChan s r _ _

theorem sampleResponse_drops {r : Req} {e : RespErr} (h : Answered s r (.err e)) (hwho : r.who = .sample n.val) (hnone : NoReadsDue s) :
    Does (.sampleResponse r.id .none) s (fun t => Gone s t r ∧ Dropped s t n.val) := by
  have hrun := exec_sampleResponse s n h hwho
  have htook : (s.dropReq r.id).handOver r.who (.err e) = (s.dropReq r.id).sampled n.val none := by rw [hwho]; rfl
  rw [htook, sampled_none n (s.dropReq r.id) hnone] at hrun
  exact ⟨_, hrun, gone_dirtyChan s r _ _, dropped_dropReq s n r.id (dropSample_drops _ _)⟩

/-! ## Values pushed (R364) -/

variable (src : Src) (v : Word)

theorem exec_recPush (hup : s.aonUp = true) {w : WRes} (h : s.writePush src n.val v = w) : exec (.recPush src n v) s = .next w.st := by
  rw [← h]; exact if_pos hup

theorem recPush_fobex (hup : s.aonUp = true) (hsrc : src = .fobex) : Refuses (.recPush src n v) s recRefuse 4 :=
  refuses_of_exec (by decide) (exec_recPush s n src v hup (if_pos hsrc))

/-- A channel that takes values pushed. -/
def PushLive (s : State) (n : Nat) : Prop :=
  s.rf (Reg.REC_CH_SRC.KIND n) = 2 ∧ s.on (Reg.REC_CH_SRC.EN n) = true ∧ s.on Reg.REC_STATUS.PWRFAIL = false

theorem pushLive_iff : PushLive s n.val ↔ ¬ (s.rf (Reg.REC_CH_SRC.KIND n.val) ≠ 2 ∨ !s.on (Reg.REC_CH_SRC.EN n.val) ∨ s.on Reg.REC_STATUS.PWRFAIL) := by
  rw [PushLive]
  cases s.on (Reg.REC_CH_SRC.EN n.val) <;> cases s.on Reg.REC_STATUS.PWRFAIL <;> simp

theorem recPush_ignored (hup : s.aonUp = true) (hsrc : src ≠ .fobex) (hdead : ¬ PushLive s n.val) :
    Does (.recPush src n v) s (fun t => Regs s t [Reg.REC_PUSH_IGN_at] [] ∧ Counted s t Reg.REC_PUSH_IGN.COUNT) := by
  have hrun := exec_recPush s n src v hup ((if_neg hsrc).trans (if_pos (not_not.1 (fun hc => hdead ((pushLive_iff s n).2 hc)))))
  exact ⟨_, hrun, (regs_refl s _).incSat _ 1 (.head _), s.rf_incSat _ _ (by decide)⟩

theorem recPush_takes (hup : s.aonUp = true) (hsrc : src ≠ .fobex) (hlive : PushLive s n.val) (hint : Integers s n.val) :
    Does (.recPush src n v) s (fun t => t = { s with record := t.record, free := t.free } ∧ Sampled s t n.val v) := by
  have hrun := exec_recPush s n src v hup ((if_neg hsrc).trans (if_neg ((pushLive_iff s n).1 hlive)))
  refine ⟨_, hrun, ?_, takeSample_samples s n.val hint v⟩
  rw [WRes.ok_st, takeSample_int s n.val hint]
  rfl

/-! ## A channel's configuration (R363) -/

variable (i : Fin 5)

theorem exec_channelConfigWrite (hup : s.aonUp = true) {w : WRes} (h : s.writeChan src n.val i.val v = w) :
    exec (.channelConfigWrite src n i v) s = .next w.st := by
  rw [← h]; exact if_pos hup

@[simp] theorem State.vault_onRec (f : Rec → Rec) : (s.onRec f).vault = s.vault := rfl

/-- The fields of a channel's registers take what a permitted write gives them. -/
theorem chanFields_take : ∀ (n : Fin 64) (i : Fin 5), (fieldsAt (Reg.REC_CH_SRC_at n.val + i.val)).all (fun f => f.acc.takes) = true := by decide

/-- Word `j` of the channel's registers after the write. -/
def chanWord (s : State) (n : Fin 64) (i : Fin 5) (v : Word) (j : Nat) : Word := if j = i.val then v else s.reg (Reg.REC_CH_SRC_at n.val + j)

theorem channelConfig_absent (hup : s.aonUp = true) (h : ¬ presence src s) : Refuses (.channelConfigWrite src n i v) s recRefuse 5 := by
  refine refuses_of_exec (by decide) (exec_channelConfigWrite s n src v i hup (w := ⟨s.refuse recRefuse 5, 1⟩) ?_)
  rw [State.writeChan, gate_absent h]

theorem channelConfig_pwrfail (hup : s.aonUp = true) (h : presence src s) (hp : s.on Reg.REC_STATUS.PWRFAIL = true) :
    Refuses (.channelConfigWrite src n i v) s recRefuse 3 := by
  refine refuses_of_exec (by decide) (exec_channelConfigWrite s n src v i hup (w := s.refused recRefuse 3) ?_)
  rw [State.writeChan, gate_pwrfail h hp]

section
variable (hup : s.aonUp = true) (h : presence src s) (hp : s.on Reg.REC_STATUS.PWRFAIL = false)
include hup h hp

theorem channelConfig_taken (htaken : (s.chan n.val).taken ≠ 0) (hchange : mapChange i.val (s.reg (Reg.REC_CH_SRC_at n.val + i.val)) v = true) :
    Refuses (.channelConfigWrite src n i v) s recRefuse 2 := by
  refine refuses_of_exec (by decide) (exec_channelConfigWrite s n src v i hup (w := s.refused recRefuse 2) ?_)
  rw [State.writeChan, gate_open h hp]
  exact if_pos ⟨htaken, hchange⟩

variable (hfree : (s.chan n.val).taken = 0 ∨ ¬ mapChange i.val (s.reg (Reg.REC_CH_SRC_at n.val + i.val)) v = true)
include hfree

theorem channelConfig_range (hrange : ¬ chanInRange (chanWord s n i v 0) (chanWord s n i v 1) (chanWord s n i v 2) (chanWord s n i v 3) = true) :
    Refuses (.channelConfigWrite src n i v) s recRefuse 1 := by
  refine refuses_of_exec (by decide) (exec_channelConfigWrite s n src v i hup (w := s.refused recRefuse 1) ?_)
  rw [State.writeChan, gate_open h hp]
  refine (if_neg (fun hc => hfree.elim hc.1 (fun hno => hno hc.2))).trans (if_pos ?_)
  rw [Bool.not_eq_true'] 
  exact Bool.eq_false_iff.2 hrange

/-- A write of a channel's register, accepted. -/
theorem writeChan_takes (hrange : chanInRange (chanWord s n i v 0) (chanWord s n i v 1) (chanWord s n i v 2) (chanWord s n i v 3) = true) :
    ∃ f : Rec → Rec, (∀ r : Rec, (f r).events = r.events ∧ (f r).opsec = r.opsec) ∧
      exec (.channelConfigWrite src n i v) s =
        .next (((((s.writeReg .all (Reg.REC_CH_SRC_at n.val + i.val) v).onRec f).vaultQueue (0x100 + n.val)).evRecord 4
          (Reg.REC_CH_SRC_at n.val + i.val) v.toNat).vaultBegin) := by
  have hok : ¬ ((s.chan n.val).taken ≠ 0 ∧ mapChange i.val (s.reg (Reg.REC_CH_SRC_at n.val + i.val)) v = true) :=
    fun hc => hfree.elim hc.1 (fun hno => hno hc.2)
  have hin : ¬ (!chanInRange (chanWord s n i v 0) (chanWord s n i v 1) (chanWord s n i v 2) (chanWord s n i v 3)) = true := by
    rw [hrange]; exact Bool.false_ne_true
  have hwrite : s.writeChan src n.val i.val v = .ok ((((if (s.writeReg .all (Reg.REC_CH_SRC_at n.val + i.val) v).on (Reg.REC_CH_SRC.EN n.val) then
      s.writeReg .all (Reg.REC_CH_SRC_at n.val + i.val) v
      else (s.writeReg .all (Reg.REC_CH_SRC_at n.val + i.val) v).onRec (fun r => { r with due := r.due.filter (· != n.val) })).vaultQueue
        (0x100 + n.val)).evRecord 4 (Reg.REC_CH_SRC_at n.val + i.val) v.toNat).vaultBegin) := by
    rw [State.writeChan, gate_open h hp]
    exact (if_neg hok).trans (if_neg hin)
  have hrun := exec_channelConfigWrite s n src v i hup hwrite
  rw [WRes.ok_st] at hrun
  by_cases hen : (s.writeReg .all (Reg.REC_CH_SRC_at n.val + i.val) v).on (Reg.REC_CH_SRC.EN n.val) = true
  · rw [if_pos hen] at hrun
    exact ⟨id, fun _ => ⟨rfl, rfl⟩, hrun⟩
  · rw [if_neg hen] at hrun
    exact ⟨fun r => { r with due := r.due.filter (· != n.val) }, fun _ => ⟨rfl, rfl⟩, hrun⟩

theorem channelConfig_takes (hrange : chanInRange (chanWord s n i v 0) (chanWord s n i v 1) (chanWord s n i v 2) (chanWord s n i v 3) = true)
    (hcur : s.vault.cur ≠ none) (hroom : s.record.events.length < 128) :
    Does (.channelConfigWrite src n i v) s (fun t => Recorded s t 4 (Reg.REC_CH_SRC_at n.val + i.val) v.toNat ∧
      t.vault.queue = s.vault.queue ++ [⟨0x100 + n.val, false⟩] ∧
        ∀ f ∈ fieldsAt (Reg.REC_CH_SRC_at n.val + i.val), getBits (t.reg (Reg.REC_CH_SRC_at n.val + i.val)) f.lo f.width = getBits v f.lo f.width) := by
  obtain ⟨f, hf, hrun⟩ := writeChan_takes s n src v i hup h hp hfree hrange
  have hfields : ∀ g ∈ fieldsAt (Reg.REC_CH_SRC_at n.val + i.val),
      getBits ((s.writeReg .all (Reg.REC_CH_SRC_at n.val + i.val) v).reg (Reg.REC_CH_SRC_at n.val + i.val)) g.lo g.width = getBits v g.lo g.width := by
    intro g hg
    rw [s.getBits_writeReg _ _ _ g hg, FSpec.after_all, Acc.written_of_takes (List.all_eq_true.1 (chanFields_take n i) g hg)]
  have hx := (regs_writeReg s .all (Reg.REC_CH_SRC_at n.val + i.val) v).eq_io
  generalize s.writeReg .all (Reg.REC_CH_SRC_at n.val + i.val) v = x at hrun hfields hx
  have hvault : ((x.onRec f).vaultQueue (0x100 + n.val)).vault = { s.vault with queue := s.vault.queue ++ [⟨0x100 + n.val, false⟩] } := by
    rw [hx]; rfl
  have hevents : ((x.onRec f).vaultQueue (0x100 + n.val)).record.events = s.record.events := by
    rw [State.record_vaultQueue, show (x.onRec f).record = f x.record from rfl, (hf _).1, hx]
  have hopsec : ((x.onRec f).vaultQueue (0x100 + n.val)).record.opsec = s.record.opsec := by
    rw [State.record_vaultQueue, show (x.onRec f).record = f x.record from rfl, (hf _).2, hx]
  have hreg : ((x.onRec f).vaultQueue (0x100 + n.val)).reg (Reg.REC_CH_SRC_at n.val + i.val) = x.reg (Reg.REC_CH_SRC_at n.val + i.val) := by
    rw [State.reg_vaultQueue, State.reg_onRec]
  generalize (x.onRec f).vaultQueue (0x100 + n.val) = y at hrun hvault hevents hopsec hreg
  rw [State.evRecord_room _ _ _ _ _ (by rw [hevents]; exact hroom)] at hrun
  rw [State.vaultBegin_busy _ (by rw [State.vault_onRec, hvault]; exact hcur)] at hrun
  refine ⟨_, hrun, ⟨_, congrArg (fun l => l ++ _) hevents, rfl, rfl, rfl, hopsec⟩, ?_, ?_⟩
  · rw [State.vault_onRec, hvault]
  · rw [State.reg_onRec, hreg]
    exact hfields

end

end

/-- Settles O43: a period either issues the channel's one read or drops a sample; an integer sample taken is one equation of its shadow. -/
theorem channelsTakeSamples : Obligations.ChannelsTakeSamples := by
  intro n s hup
  refine ⟨fun hkind hen hpwr => ⟨channelSample_reads s n hup hkind hen hpwr, channelSample_drops s n hup hkind hen hpwr⟩, channelSample_idle s n hup,
    fun r p h hwho hnone => ⟨fun v hp hint => ?_, fun e hp => ?_⟩, fun src v => ⟨recPush_fobex s n src v hup, recPush_ignored s n src v hup,
    recPush_takes s n src v hup⟩, fun src i v => ⟨channelConfig_absent s n src v i hup, channelConfig_pwrfail s n src v i hup,
    channelConfig_taken s n src v i hup, channelConfig_range s n src v i hup, fun h hp hfree hrange hcur hroom =>
      channelConfig_takes s n src v i hup h hp hfree hrange hcur hroom⟩⟩
  · subst hp
    exact sampleResponse_takes s n h hwho hnone hint
  · subst hp
    exact sampleResponse_drops s n h hwho hnone

end Sys2Proof.Machine
end

section
/-!
PROOFS. The flash controller: what a change of it leaves alone, the register path, the page buffers and the wait states (R326, R329, R331, R332,
R334, R335).
-/

namespace Sys2Proof.Machine
open Sys2Proof.Claims

/-! ## What the flash controller leaves alone -/

/-- Nothing changes but the flash store, the Vault's queue and registers among `as`. -/
def FlcOnly (s t : State) (as : List Nat) : Prop :=
  t = { s with io := t.io, flc := t.flc, vault := t.vault } ∧ ∀ a, a ∉ as → t.reg a = s.reg a

section
variable {s t u : State} {as : List Nat}

theorem flcOnly_of_regs (h : Regs s t as []) : FlcOnly s t as := by
  refine ⟨?_, h.2⟩
  have heq := h.eq_io
  rw [heq]

theorem FlcOnly.trans (h : FlcOnly s t as) (k : FlcOnly t u as) : FlcOnly s u as := by
  refine ⟨?_, fun a ha => (k.2 a ha).trans (h.2 a ha)⟩
  rw [k.1, h.1]

theorem FlcOnly.mono {bs : List Nat} (h : FlcOnly s t as) (hsub : ∀ a ∈ as, a ∈ bs) : FlcOnly s t bs :=
  ⟨h.1, fun a ha => h.2 a (fun hm => ha (hsub a hm))⟩

theorem flcOnly_onFlc (f : Flc → Flc) : FlcOnly t (t.onFlc f) as := ⟨rfl, fun _ _ => rfl⟩
theorem flcOnly_refl : FlcOnly t t as := ⟨rfl, fun _ _ => rfl⟩
theorem flcOnly_vaultQueue (id : Nat) : FlcOnly t (t.vaultQueue id) as := ⟨rfl, fun _ _ => rfl⟩
theorem flcOnly_wf (f : Fd) (v : Nat) (hf : f.addr ∈ as) : FlcOnly t (t.wf f v) as := flcOnly_of_regs ((regs_refl t as).wf f v hf)

theorem FlcOnly.ite {c : Prop} [Decidable c] (ht : FlcOnly s t as) (hu : FlcOnly s u as) : FlcOnly s (if c then t else u) as := by
  split
  · exact ht
  · exact hu

theorem FlcOnly.on (h : FlcOnly s t as) (f : Fd) (hf : f.addr ∉ as) : t.on f = s.on f := by
  rw [State.on, State.on, State.rf, State.rf, h.2 _ hf]

theorem FlcOnly.rf (h : FlcOnly s t as) (f : Fd) (hf : f.addr ∉ as) : t.rf f = s.rf f := by rw [State.rf, State.rf, h.2 _ hf]

end

/-- The registers that the accounting shows its counts in (R338). -/
def recountRegs : List Nat := [Reg.FLC_PG_RETIRED_at, Reg.FLC_PG_VALID_at, Reg.FLC_PG_STALE_at, Reg.FLC_PG_FREE_at, Reg.FLC_HEALTH_at]

theorem recount_regs (s : State) : Regs s s.recount recountRegs [] := by
  unfold State.recount
  split
  · exact regs_refl _ _
  · exact (((((((regs_refl s recountRegs).wf _ _ (by decide)).wf _ _ (by decide)).wf _ _ (by decide)).wf _ _ (by decide)).wf _ _ (by decide)).wf _ _ (by decide))

@[simp] theorem State.flc_recount (s : State) : s.recount.flc = s.flc := by rw [(recount_regs s).eq_io]

/-- The registers that the die's operations change besides the counts of reads and failures. -/
def startRegs : List Nat := Reg.FLC_STATUS_at :: Reg.FLC_J_TAIL_at :: recountRegs

theorem recount_flcOnly (s : State) : FlcOnly s s.recount startRegs := (flcOnly_of_regs (recount_regs s)).mono (by decide)

theorem dueTail_eq (s : State) : ∃ d, s.dueTail = s.onFlc (fun x => { x with tailDue := d }) := by
  unfold State.dueTail
  dsimp only
  split
  · exact ⟨_, rfl⟩
  · exact ⟨s.flc.tailDue, rfl⟩

/-- Entering a block changes the head and its index alone. -/
theorem enterBlock_eq (s : State) (b : Nat) : ∃ d, s.enterBlock b = ((s.onFlc (fun x => { x with
    headBlk := b, headPg := 0, first := SMap.set x.first 0 b (s.rf Reg.FLC_J_HEAD.JSN + 1), tailDue := d })).vaultQueue
      (0x500 + (b - 128) / 64)).vaultQueue 0x520 := by
  obtain ⟨d, hd⟩ := dueTail_eq (s.onFlc (fun x => { x with
    headBlk := b, headPg := 0, first := SMap.set x.first 0 b (s.rf Reg.FLC_J_HEAD.JSN + 1) }))
  refine ⟨d, ?_⟩
  rw [State.enterBlock, hd]
  rfl

theorem intendTgt_flcOnly (s : State) : FlcOnly s s.intendTgt startRegs := by
  rw [State.intendTgt]
  split
  · exact (flcOnly_onFlc (t := s) _).trans (recount_flcOnly _)
  · exact recount_flcOnly s

theorem enterBlock_flcOnly (s : State) (b : Nat) : FlcOnly s (s.enterBlock b) startRegs := by
  obtain ⟨d, hd⟩ := enterBlock_eq s b
  rw [hd]
  exact ((flcOnly_onFlc _).trans (flcOnly_vaultQueue _)).trans (flcOnly_vaultQueue _)

/-- An operation that starts on the die: it leaves the queue, the die is busy. -/
def State.onDie (s : State) (j : FJob) : State :=
  (((s.onFlc (fun x => { x with queue := dropJob x.queue j })).wf Reg.FLC_STATUS.DIE_BUSY 1).onFlc (fun x => { x with cur := some j }))

theorem onDie_flcOnly (s : State) (j : FJob) : FlcOnly s (s.onDie j) startRegs :=
  ((flcOnly_onFlc _).trans (flcOnly_wf Reg.FLC_STATUS.DIE_BUSY 1 (.head _))).trans (flcOnly_onFlc _)

theorem onDie_busy (s : State) (j : FJob) : (s.onDie j).on Reg.FLC_STATUS.DIE_BUSY = true :=
  (s.onFlc (fun x => { x with queue := dropJob x.queue j })).on_wf_b2n true Reg.FLC_STATUS.DIE_BUSY (by decide) rfl

theorem onDie_flc (s : State) (j : FJob) : (s.onDie j).flc = { s.flc with queue := dropJob s.flc.queue j, cur := some j } := rfl

theorem onDie_on (s : State) (j : FJob) (f : Fd) (h : f.addr ≠ Reg.FLC_STATUS_at ∨ f.lo + f.width ≤ 3 ∨ 4 ≤ f.lo) : (s.onDie j).on f = s.on f :=
  (s.onFlc (fun x => { x with queue := dropJob x.queue j })).on_wf_other Reg.FLC_STATUS.DIE_BUSY f 1 h

/-- Where an append enters a block on its start. -/
def State.entering (s : State) : Prop :=
  ¬ (s.appendAt.1 = s.flc.headBlk ∧ s.appendAt.2 ≠ 0 ∨ SMap.get s.flc.first 0 s.appendAt.1 ≠ 0 ∧ s.appendAt.1 = s.flc.headBlk)

/-- What a start does after it takes the die: an append takes its page, the head entering a block where it must. -/
theorem flcStart_append (s : State) (j : FJob) {p k n : Nat} (hop : j.op = .append p k n) : s.flcStart j =
    ((if (s.onDie j).appendAt.1 = (s.onDie j).flc.headBlk ∧ (s.onDie j).appendAt.2 ≠ 0 ∨
        SMap.get (s.onDie j).flc.first 0 (s.onDie j).appendAt.1 ≠ 0 ∧ (s.onDie j).appendAt.1 = (s.onDie j).flc.headBlk then s.onDie j
      else (s.onDie j).enterBlock (s.onDie j).appendAt.1).onFlc (fun x => { x with tgt := (s.onDie j).appendAt })).recount := by
  rw [State.flcStart, hop]
  rfl

theorem flcStart_read (s : State) (j : FJob) {b p : Nat} (hop : j.op = .read b p) :
    s.flcStart j = (s.onDie j).onFlc (fun x => { x with tgt := ((s.onDie j).physOf b, p) }) := by
  rw [State.flcStart, hop]
  rfl

theorem flcStart_jread (s : State) (j : FJob) {k : Nat} (hop : j.op = .jread k) : s.flcStart j = s.onDie j := by
  rw [State.flcStart, hop]
  rfl

theorem flcStart_flcOnly (s : State) (j : FJob) : FlcOnly s (s.flcStart j) startRegs := by
  refine (onDie_flcOnly s j).trans ?_
  rw [State.flcStart]
  change FlcOnly (s.onDie j) (match j.op with
    | .append _ _ _ => ((if (s.onDie j).appendAt.1 = (s.onDie j).flc.headBlk ∧ (s.onDie j).appendAt.2 ≠ 0 ∨
        SMap.get (s.onDie j).flc.first 0 (s.onDie j).appendAt.1 ≠ 0 ∧ (s.onDie j).appendAt.1 = (s.onDie j).flc.headBlk then s.onDie j
      else (s.onDie j).enterBlock (s.onDie j).appendAt.1).onFlc (fun x => { x with tgt := (s.onDie j).appendAt })).recount
    | .erase lb _ => ((s.onDie j).onFlc (fun x => { x with tgt := ((s.onDie j).physOf lb, 0) })).intendTgt
    | .respare lb => ((s.onDie j).onFlc (fun x => { x with tgt := ((s.onDie j).physOf lb, 0) })).intendTgt
    | .tail b => ((((s.onDie j).onFlc (fun x => { x with tgt := (b, 0) }))).wf Reg.FLC_J_TAIL.JSN
        ((((s.onDie j).onFlc (fun x => { x with tgt := (b, 0) }))).tailFrom ((((s.onDie j).onFlc (fun x => { x with tgt := (b, 0) }))).nextGood b))).intendTgt
    | .program lb pg _ => (s.onDie j).onFlc (fun x => { x with tgt := ((s.onDie j).physOf lb, pg) })
    | .read b pg => (s.onDie j).onFlc (fun x => { x with tgt := ((s.onDie j).physOf b, pg) })
    | .jread _ => s.onDie j
    | .bbt pg _ => (s.onDie j).onFlc (fun x => { x with tgt := (0, pg) })) startRegs
  generalize s.onDie j = u
  cases j.op with
  | append p k n => exact ((FlcOnly.ite flcOnly_refl (enterBlock_flcOnly u _)).trans (flcOnly_onFlc _)).trans (recount_flcOnly _)
  | erase lb r => exact (flcOnly_onFlc _).trans (intendTgt_flcOnly _)
  | respare lb => exact (flcOnly_onFlc _).trans (intendTgt_flcOnly _)
  | tail b => exact ((flcOnly_onFlc _).trans (flcOnly_wf _ _ (by decide))).trans (intendTgt_flcOnly _)
  | program lb pg d => exact flcOnly_onFlc _
  | read b pg => exact flcOnly_onFlc _
  | jread k => exact flcOnly_refl
  | bbt pg w => exact flcOnly_onFlc _

/-- A grant changes the flash store, the Vault's queue and the controller's registers alone. -/
theorem flcGrant_flcOnly (s : State) : FlcOnly s s.flcGrant startRegs := by
  unfold State.flcGrant
  split
  · exact flcOnly_refl
  · split
    · exact flcStart_flcOnly s _
    · exact flcOnly_refl

theorem flcRequest_flcOnly (s : State) (j : FJob) : FlcOnly s (s.flcRequest j) startRegs := (flcOnly_onFlc _).trans (flcGrant_flcOnly _)

/-! ## An idle controller starts a request (R328) -/

/-- The operations of the register path and what each finds in FLC_CMD. -/
def FOp.moves (op : FOp) : Bool := match op with | .read _ _ | .append _ _ _ | .jread _ => true | _ => false

/-- The parts of the flash store that the start of a read or an append leaves. -/
theorem flcStart_moves (s : State) (j : FJob) (hop : j.op.moves = true) : (s.flcStart j).flc.cur = some j ∧
    (s.flcStart j).flc.queue = dropJob s.flc.queue j ∧ (s.flcStart j).on Reg.FLC_STATUS.DIE_BUSY = true ∧
    (s.flcStart j).on Reg.FLC_STATUS.CMD_BUSY = s.on Reg.FLC_STATUS.CMD_BUSY ∧
    (s.flcStart j).flc.pages = s.flc.pages ∧ (s.flcStart j).flc.bufs = s.flc.bufs := by
  have hbusy := onDie_busy s j
  have hcmd := onDie_on s j Reg.FLC_STATUS.CMD_BUSY (by decide)
  have hflc := onDie_flc s j
  cases hj : j.op with
  | read b p =>
    rw [flcStart_read s j hj]
    exact ⟨rfl, rfl, hbusy, hcmd, rfl, rfl⟩
  | jread k =>
    rw [flcStart_jread s j hj]
    exact ⟨rfl, rfl, hbusy, hcmd, rfl, rfl⟩
  | append p k n =>
    rw [flcStart_append s j hj]
    generalize s.onDie j = u at hbusy hcmd hflc
    generalize hx : (if u.appendAt.1 = u.flc.headBlk ∧ u.appendAt.2 ≠ 0 ∨ SMap.get u.flc.first 0 u.appendAt.1 ≠ 0 ∧ u.appendAt.1 = u.flc.headBlk
      then u else u.enterBlock u.appendAt.1) = x
    have hview : x.flc.cur = u.flc.cur ∧ x.flc.queue = u.flc.queue ∧ x.flc.pages = u.flc.pages ∧ x.flc.bufs = u.flc.bufs ∧
        ∀ f, x.on f = u.on f := by
      rw [← hx]
      split
      · exact ⟨rfl, rfl, rfl, rfl, fun _ => rfl⟩
      · obtain ⟨d, hd⟩ := enterBlock_eq u u.appendAt.1
        rw [hd]
        exact ⟨rfl, rfl, rfl, rfl, fun _ => rfl⟩
    obtain ⟨hcur, hqueue, hpages, hbufs, hon⟩ := hview
    have hrec (f : Fd) (hf : f.addr = Reg.FLC_STATUS_at) : (x.onFlc (fun y => { y with tgt := u.appendAt })).recount.on f = u.on f := by
      rw [(flcOnly_of_regs (recount_regs _)).on f (by rw [hf]; decide)]
      exact hon f
    rw [hrec _ rfl, hrec _ rfl, State.flc_recount]
    refine ⟨?_, ?_, hbusy, hcmd, ?_, ?_⟩
    · exact hcur.trans (by rw [hflc])
    · exact hqueue.trans (by rw [hflc])
    · exact hpages.trans (by rw [hflc])
    · exact hbufs.trans (by rw [hflc])
  | program | erase | respare | tail | bbt => rw [hj] at hop; exact absurd hop Bool.false_ne_true

theorem dropJob_self (j : FJob) : dropJob [j] j = [] := if_pos rfl

/-- The one request that waits, granted. -/
theorem granted_one {s : State} {j : FJob} (hqueue : s.flc.queue = [j]) (hhold : s.flc.hold = false) (hwho : j.who = .reg)
    (hstart : s.startable j = true) : s.granted = some j := by
  have hany (r : Nat) : [j].any (fun j => j.who.rank == r && s.startable j) = (4 == r) := by
    rw [List.any_cons, List.any_nil, Bool.or_false, hstart, Bool.and_true, hwho]
    rfl
  have hfind : (List.range 6).find? (fun r => [j].any (fun j => j.who.rank == r && s.startable j)) = some 4 := by
    simp only [hany]
    decide
  have hgrant : s.granted = (match (List.range 6).find? (fun r => [j].any (fun j => j.who.rank == r && s.startable j)) with
      | some r => [j].find? (fun j => j.who.rank == r && s.startable j)
      | none => none) := by
    rw [State.granted, hhold, if_neg Bool.false_ne_true, hqueue] <;> rfl
  have hrank : (j.who.rank == 4 && s.startable j) = true := by rw [hwho, hstart]; rfl
  rw [hgrant, hfind]
  dsimp only
  rw [List.find?_cons, hrank]

/-- Whether a request can start depends on the head, the table and the pages alone. -/
theorem startable_congr {s t : State} (j : FJob) (hblk : t.flc.headBlk = s.flc.headBlk) (hpg : t.flc.headPg = s.flc.headPg) (hbad : t.flc.bad = s.flc.bad)
    (hpages : t.flc.pages = s.flc.pages) : t.startable j = s.startable j := by
  have hgood (b : Nat) : t.goodBlock b = s.goodBlock b := by rw [State.goodBlock, State.goodBlock, hbad]
  have hused (b : Nat) : t.blockUsed b = s.blockUsed b := by rw [State.blockUsed, State.blockUsed, hpages]
  have hnext (b : Nat) : t.nextGood b = s.nextGood b := by unfold State.nextGood; rw [show t.goodBlock = s.goodBlock from funext hgood]
  have hat : t.appendAt = s.appendAt := by rw [State.appendAt, State.appendAt, hblk, hpg, hgood, hnext]
  rw [State.startable, State.startable, hat, hused]

/-- A request of the register path made of an idle controller starts. -/
theorem flcRequest_starts {s : State} {j : FJob} (hidle : FlashIdle s) (hwho : j.who = .reg) (hstart : s.startable j = true) :
    s.flcRequest j = (s.onFlc (fun x => { x with queue := x.queue ++ [j] })).flcStart j := by
  obtain ⟨hcur, hpend, hqueue, hpwr, hinit, hhold⟩ := hidle
  have hstart' : (s.onFlc (fun x => { x with queue := x.queue ++ [j] })).startable j = true := by
    rw [startable_congr (s := s) (t := s.onFlc (fun x => { x with queue := x.queue ++ [j] })) j rfl rfl rfl rfl, hstart]
  have hgrant : (s.onFlc (fun x => { x with queue := x.queue ++ [j] })).granted = some j :=
    granted_one (congrArg (· ++ [j]) hqueue) hhold hwho hstart'
  have hfree : ¬ ((s.onFlc (fun x => { x with queue := x.queue ++ [j] })).flc.cur.isSome || (s.onFlc (fun x => { x with queue := x.queue ++ [j] })).flc.pend.isSome ||
      (s.onFlc (fun x => { x with queue := x.queue ++ [j] })).on Reg.FLC_STATUS.PWRFAIL || (s.onFlc (fun x => { x with queue := x.queue ++ [j] })).on Reg.FLC_STATUS.INIT) = true := by
    rw [show (s.onFlc (fun x => { x with queue := x.queue ++ [j] })).flc.cur = none from hcur,
      show (s.onFlc (fun x => { x with queue := x.queue ++ [j] })).flc.pend = none from hpend,
      show (s.onFlc (fun x => { x with queue := x.queue ++ [j] })).on Reg.FLC_STATUS.PWRFAIL = false from hpwr,
      show (s.onFlc (fun x => { x with queue := x.queue ++ [j] })).on Reg.FLC_STATUS.INIT = false from hinit]
    exact Bool.false_ne_true
  rw [State.flcRequest, State.flcGrant, if_neg hfree, hgrant]

/-- A request made of a busy die waits. -/
theorem flcRequest_waits {s : State} {j : FJob} (h : s.flc.cur ≠ none) : s.flcRequest j = s.onFlc (fun x => { x with queue := x.queue ++ [j] }) := by
  refine if_pos ?_
  rw [show (s.onFlc (fun x => { x with queue := x.queue ++ [j] })).flc.cur.isSome = true from Option.isSome_iff_ne_none.2 h]
  rfl

/-! ## FLC_CMD (R331, R332, R334, R335) -/

section
variable (src : Src) (v : Word) (s : State)

/-- The operation FLC_CMD asks for by its code. -/
def flcOp (s : State) (v : Word) (k : Nat) : FOp :=
  if k = 1 then .read (s.rf Reg.FLC_ADDR.BLOCK) (s.rf Reg.FLC_ADDR.PAGE)
  else if k = 2 then .append (getBytes s.flc.bufs (0x2000 * getBits v 4 1) 4000) 1 0 else .jread (s.rf Reg.FLC_JSN.JSN)

/-- Its length. -/
def flcLen (k : Nat) : Nat := if k = 2 then 4000 else 0

theorem flcOp_moves (k : Nat) : (flcOp s v k).moves = true := by
  unfold flcOp
  split
  · rfl
  · split <;> rfl

section
variable {k : Nat}

theorem getBits_flcCmd (hk : k < 16) : getBits (putBits v 0 4 k) 0 4 = k ∧ getBits (putBits v 0 4 k) 4 1 = getBits v 4 1 ∧
    getBits (putBits v 0 4 k) 8 13 = getBits v 8 13 := by
  refine ⟨?_, getBits_putBits_other _ _ _ _ _ _ (.inr (by decide)), getBits_putBits_other _ _ _ _ _ _ (.inr (by decide))⟩
  exact (getBits_putBits_same _ _ _ _ (by decide)).trans (Nat.mod_eq_of_lt hk)

/-- The reason of a refusal, by the first that holds. -/
theorem cmdReason_eq (h1 : 1 ≤ k) (h3 : k ≤ 3) : s.cmdReason src (putBits v 0 4 k) =
    if src = .fobex then 7
    else if s.on Reg.FLC_STATUS.INIT ∨ s.on Reg.FLC_STATUS.DIE_FAULT then 5
    else if s.on Reg.FLC_STATUS.PWRFAIL then 0xA
    else if s.on Reg.FLC_STATUS.CMD_BUSY then 1
    else if getBits v 8 13 ≠ flcLen k then 4
    else if k = 1 ∧ ((112 ≤ s.rf Reg.FLC_ADDR.BLOCK ∧ s.rf Reg.FLC_ADDR.BLOCK ≤ 127) ∨
      (s.rf Reg.FLC_ADDR.BLOCK < 128 ∧ 128 ≤ s.rf Reg.FLC_ADDR.PAGE)) then 3 else 0 := by
  obtain ⟨hop, -, hlen⟩ := getBits_flcCmd v (k := k) (by omega)
  have hblock : s.rf Reg.FLC_ADDR.BLOCK < 2048 := getBits_lt _ _ _
  have hpage : s.rf Reg.FLC_ADDR.PAGE < 256 := getBits_lt _ _ _
  have hregion : (k = 1 ∧ (2047 < s.rf Reg.FLC_ADDR.BLOCK ∨ 112 ≤ s.rf Reg.FLC_ADDR.BLOCK ∧ s.rf Reg.FLC_ADDR.BLOCK ≤ 127 ∨
      blockPages (s.rf Reg.FLC_ADDR.BLOCK) ≤ s.rf Reg.FLC_ADDR.PAGE)) ↔ k = 1 ∧ ((112 ≤ s.rf Reg.FLC_ADDR.BLOCK ∧ s.rf Reg.FLC_ADDR.BLOCK ≤ 127) ∨
      (s.rf Reg.FLC_ADDR.BLOCK < 128 ∧ 128 ≤ s.rf Reg.FLC_ADDR.PAGE)) := by
    unfold blockPages
    split <;> omega
  rw [State.cmdReason, hop, hlen, if_neg (show ¬ (k = 8 ∨ k = 9) by omega), if_neg (show ¬ (k = 0 ∨ 3 < k) by omega)]
  simp only [hregion]
  rfl

theorem writeFlcCmd_refused {why : Nat} (hwhy : s.cmdReason src v = why) (h : why ≠ 0) : s.writeFlcCmd src v = s.refused flcRefuse why := by
  subst hwhy
  exact if_pos h

theorem writeFlcCmd_takes (h1 : 1 ≤ k) (h3 : k ≤ 3) (hwhy : s.cmdReason src (putBits v 0 4 k) = 0) :
    s.writeFlcCmd src (putBits v 0 4 k) = .ok ((s.wf Reg.FLC_STATUS.CMD_BUSY 1).flcRequest ⟨.reg, flcOp s v k, getBits v 4 1⟩) := by
  obtain ⟨hop, hbuf, -⟩ := getBits_flcCmd v (k := k) (by omega)
  refine (if_neg (not_not.2 hwhy)).trans ?_
  rw [hop, hbuf]
  rfl

end

/-- R331 for one of the three commands, `k` its code: what it asks for, or the first reason it is refused for. -/
theorem flcCmd_cases {i : Instr} {k : Nat} (h1 : 1 ≤ k) (h3 : k ≤ 3) (hi : exec i s = .next (s.writeFlcCmd src (putBits v 0 4 k)).st) :
    let job : FJob := ⟨.reg, flcOp s v k, getBits v 4 1⟩
    let b := s.rf Reg.FLC_ADDR.BLOCK
    let region := (∃ b p, flcOp s v k = .read b p) ∧ ((112 ≤ b ∧ b ≤ 127) ∨ (b < 128 ∧ 128 ≤ s.rf Reg.FLC_ADDR.PAGE))
    let dead := s.on Reg.FLC_STATUS.INIT = true ∨ s.on Reg.FLC_STATUS.DIE_FAULT = true
    let free := ¬ dead ∧ s.on Reg.FLC_STATUS.PWRFAIL = false
    (src = .fobex → Refuses i s flcRefuse 7) ∧
    (src ≠ .fobex → (dead → Refuses i s flcRefuse 5) ∧
      (¬ dead → s.on Reg.FLC_STATUS.PWRFAIL = true → Refuses i s flcRefuse 0xA) ∧
      (free → s.on Reg.FLC_STATUS.CMD_BUSY = true → Refuses i s flcRefuse 1) ∧
      (free → s.on Reg.FLC_STATUS.CMD_BUSY = false → getBits v 8 13 ≠ flcLen k → Refuses i s flcRefuse 4) ∧
      (free → s.on Reg.FLC_STATUS.CMD_BUSY = false → getBits v 8 13 = flcLen k → region → Refuses i s flcRefuse 3) ∧
      (free → s.on Reg.FLC_STATUS.CMD_BUSY = false → getBits v 8 13 = flcLen k → ¬ region →
        (s.flc.cur ≠ none → Does i s (fun t => t = { s with io := t.io, flc := { s.flc with queue := s.flc.queue ++ [job] } } ∧
          t.on Reg.FLC_STATUS.CMD_BUSY = true ∧ ∀ a, a ≠ Reg.FLC_STATUS_at → t.reg a = s.reg a)) ∧
        (FlashIdle s → (∀ p k' n, flcOp s v k = .append p k' n → s.appendAt.2 ≠ 0 ∨ s.blockUsed s.appendAt.1 = false) →
          Does i s (fun t => t.flc.cur = some job ∧ t.flc.queue = [] ∧ t.on Reg.FLC_STATUS.CMD_BUSY = true ∧
            t.on Reg.FLC_STATUS.DIE_BUSY = true ∧ t.flc.pages = s.flc.pages ∧ t.flc.bufs = s.flc.bufs)))) := by
  dsimp only
  have hwhy := cmdReason_eq src v s h1 h3
  have href {why : Nat} (hr : refuseSound flcRefuse why = true) (hne : why ≠ 0) (h : s.cmdReason src (putBits v 0 4 k) = why) : Refuses i s flcRefuse why := by
    rw [writeFlcCmd_refused src _ s h hne] at hi
    exact refuses_of_exec hr hi
  have hread : (∃ b p, flcOp s v k = .read b p) ↔ k = 1 := by
    unfold flcOp
    refine ⟨fun ⟨b, p, h⟩ => ?_, fun h => ⟨_, _, if_pos h⟩⟩
    by_contra hne
    rw [if_neg hne] at h
    split at h <;> cases h
  rw [hread]
  refine ⟨fun hsrc => href (by decide) (by decide) (hwhy.trans (if_pos hsrc)), fun hsrc => ?_⟩
  rw [if_neg hsrc] at hwhy
  refine ⟨fun hdead => href (by decide) (by decide) (hwhy.trans (if_pos hdead)), fun hdead hpwr => ?_, fun ⟨hdead, hpwr⟩ hbusy => ?_,
    fun ⟨hdead, hpwr⟩ hbusy hlen => ?_, fun ⟨hdead, hpwr⟩ hbusy hlen hreg => ?_, fun ⟨hdead, hpwr⟩ hbusy hlen hreg => ?_⟩
  all_goals rw [if_neg hdead] at hwhy
  · exact href (by decide) (by decide) (hwhy.trans (if_pos hpwr))
  all_goals rw [if_neg (by rw [hpwr]; exact Bool.false_ne_true)] at hwhy
  · exact href (by decide) (by decide) (hwhy.trans (if_pos hbusy))
  all_goals rw [if_neg (by rw [hbusy]; exact Bool.false_ne_true)] at hwhy
  · exact href (by decide) (by decide) (hwhy.trans (if_pos hlen))
  all_goals rw [if_neg (not_not.2 hlen)] at hwhy
  · exact href (by decide) (by decide) (hwhy.trans (if_pos hreg))
  rw [if_neg hreg] at hwhy
  rw [writeFlcCmd_takes src v s h1 h3 hwhy, WRes.ok_st] at hi
  have hregs := (regs_refl s [Reg.FLC_STATUS_at]).wf Reg.FLC_STATUS.CMD_BUSY 1 (.head _)
  have hcmd := s.on_wf_b2n true Reg.FLC_STATUS.CMD_BUSY (by decide) rfl
  have hother (f : Fd) (hf : f.addr ≠ Reg.FLC_STATUS_at ∨ f.lo + f.width ≤ 1 ∨ 2 ≤ f.lo) : (s.wf Reg.FLC_STATUS.CMD_BUSY 1).on f = s.on f :=
    s.on_wf_other Reg.FLC_STATUS.CMD_BUSY f 1 hf
  have hpwr' := hother Reg.FLC_STATUS.PWRFAIL (by decide)
  have hinit' := hother Reg.FLC_STATUS.INIT (by decide)
  change (s.wf Reg.FLC_STATUS.CMD_BUSY 1).on Reg.FLC_STATUS.CMD_BUSY = true at hcmd
  generalize s.wf Reg.FLC_STATUS.CMD_BUSY 1 = u at hi hregs hcmd hpwr' hinit'
  clear hother
  have hu := hregs.eq_io
  have hflc : u.flc = s.flc := by rw [hu]
  refine ⟨fun hcur => ?_, fun hidle hroom => ?_⟩
  · rw [flcRequest_waits (by rw [hflc]; exact hcur)] at hi
    refine ⟨_, hi, ?_, hcmd, fun a ha => hregs.2 a (fun hm => ha (List.mem_singleton.1 hm))⟩
    rw [State.onFlc, hflc, hu]
  · obtain ⟨hcur, hpend, hqueue, hpwrfail, hinit, hhold⟩ := hidle
    have hstart : u.startable ⟨.reg, flcOp s v k, getBits v 4 1⟩ = true := by
      rw [startable_congr (s := s) _ (by rw [hflc]) (by rw [hflc]) (by rw [hflc]) (by rw [hflc]), State.startable]
      split
      · next p k' n heq =>
        rcases hroom p k' n heq with h | h
        · rw [bne_iff_ne.2 h, Bool.true_or]
        · rw [h, Bool.not_false, Bool.or_true]
      · rfl
    rw [flcRequest_starts (s := u) ⟨by rw [hflc]; exact hcur, by rw [hflc]; exact hpend, by rw [hflc]; exact hqueue, hpwr'.trans hpwrfail,
      hinit'.trans hinit, by rw [hflc]; exact hhold⟩ rfl hstart] at hi
    obtain ⟨hc, hq, hdie, hcmd', hpages, hbufs⟩ := flcStart_moves (u.onFlc (fun x => { x with queue := x.queue ++ [⟨.reg, flcOp s v k, getBits v 4 1⟩] }))
      ⟨.reg, flcOp s v k, getBits v 4 1⟩ (flcOp_moves v s k)
    refine ⟨_, hi, hc, hq.trans ?_, hcmd'.trans hcmd, hdie, hpages.trans ?_, hbufs.trans ?_⟩
    · rw [show (u.onFlc (fun x => { x with queue := x.queue ++ [⟨.reg, flcOp s v k, getBits v 4 1⟩] })).flc.queue =
        u.flc.queue ++ [⟨.reg, flcOp s v k, getBits v 4 1⟩] from rfl, hflc, hqueue]
      exact dropJob_self _
    · rw [← hflc]
      rfl
    · rw [← hflc]
      rfl

/-! ## Page buffers and wait states (R326, R329) -/

theorem bufAdvance_regs : Regs s s.bufAdvance [Reg.FLC_BUF_ADDR_at] [] ∧ s.bufAdvance.rf Reg.FLC_BUF_ADDR.OFFSET = nextOffset s := by
  refine ⟨(regs_refl s _).wf _ _ (.head _), (s.rf_wf_same _ _ (by decide)).trans (Nat.mod_eq_of_lt ?_)⟩
  show nextOffset s < 2 ^ 13
  have hlt : s.rf Reg.FLC_BUF_ADDR.OFFSET < 2 ^ 13 := getBits_lt _ _ _
  unfold nextOffset
  split <;> omega

section
variable (hon : s.online islFlash = true)
include hon

theorem exec_toFlash {i : Instr} {f : State → WRes} {w : WRes} (hi : exec i s = .next (s.toFlash f)) (h : f s = w) : exec i s = .next w.st := by
  rw [hi, State.toFlash, if_pos hon, h]

theorem flcBufDataRead_advances :
    Does (.flcBufDataAccess src none) s (fun t => Regs s t [Reg.FLC_BUF_ADDR_at] [] ∧ t.rf Reg.FLC_BUF_ADDR.OFFSET = nextOffset s) :=
  ⟨_, exec_toFlash s hon (f := fun s => .ok s.readBuf.2) rfl rfl, bufAdvance_regs s⟩

theorem flcBufDataWrite_cases (w : Word) :
    let b := s.rf Reg.FLC_BUF_ADDR.BUF
    (src = .fobex → Refuses (.flcBufDataAccess src (some w)) s flcRefuse 7) ∧
    (src ≠ .fobex → s.bufOwned b = true → Refuses (.flcBufDataAccess src (some w)) s flcRefuse 8) ∧
    (src ≠ .fobex → s.bufOwned b = false → Does (.flcBufDataAccess src (some w)) s (fun t =>
      t = { s with io := t.io, flc := { s.flc with bufs := t.flc.bufs } } ∧ t.rf Reg.FLC_BUF_ADDR.OFFSET = nextOffset s ∧
      Stored s.flc.bufs t.flc.bufs (0x2000 * b + s.rf Reg.FLC_BUF_ADDR.OFFSET) 4 w.toNat ∧
      ∀ a, a ≠ Reg.FLC_BUF_ADDR_at → t.reg a = s.reg a)) := by
  have hrun {r : WRes} (h : s.writeBuf src w = r) : exec (.flcBufDataAccess src (some w)) s = .next r.st := by
    refine exec_toFlash s hon (f := fun s => s.writeFlc src Reg.FLC_BUF_DATA_at w) rfl ?_
    exact (if_neg (show ¬ Reg.FLC_BUF_DATA_at = Reg.FLC_CMD_at by decide)).trans ((if_pos rfl).trans h)
  refine ⟨fun hsrc => refuses_of_exec (by decide) (hrun (if_pos hsrc)),
    fun hsrc hown => refuses_of_exec (by decide) (hrun ((if_neg hsrc).trans (if_pos hown))), fun hsrc hown => ?_⟩
  have hexec := hrun ((if_neg hsrc).trans (if_neg (by rw [hown]; exact Bool.false_ne_true)))
  rw [WRes.ok_st] at hexec
  generalize hu : s.onFlc (fun x => { x with bufs := setBytes x.bufs (0x2000 * s.rf Reg.FLC_BUF_ADDR.BUF + s.rf Reg.FLC_BUF_ADDR.OFFSET) 4 w.toNat }) = u at hexec
  obtain ⟨hregs, hoff⟩ := bufAdvance_regs u
  have hnext : nextOffset u = nextOffset s := by rw [← hu]; rfl
  generalize u.bufAdvance = t at hexec hregs hoff
  have ht := hregs.eq_io
  have hbufs : t.flc.bufs = setBytes s.flc.bufs (0x2000 * s.rf Reg.FLC_BUF_ADDR.BUF + s.rf Reg.FLC_BUF_ADDR.OFFSET) 4 w.toNat := by rw [ht, ← hu]; rfl
  refine ⟨t, hexec, ?_, hoff.trans hnext, fun x => ?_, fun a ha => ?_⟩
  · rw [hbufs, ht, ← hu]
    rfl
  · rw [hbufs, get_setBytes_ite]
  · rw [hregs.2 a (fun hm => ha (List.mem_singleton.1 hm)), ← hu]
    rfl

theorem flcRdwaitWrite_cases :
    let d := s.rf (Reg.IOPLL_ISL.DIV islFlash)
    let least := if d = 0 then 5 else if d = 1 then 4 else 2
    (getBits v 0 4 < least → Refuses (.flcRdwaitWrite src v) s flcRefuse 6) ∧
    (least ≤ getBits v 0 4 → Does (.flcRdwaitWrite src v) s (fun t =>
      Regs s t [Reg.FLC_RDWAIT_at] [] ∧ t.rf Reg.FLC_RDWAIT.WAIT = getBits v 0 4)) := by
  have hleast : s.rdwaitMin = (if s.rf (Reg.IOPLL_ISL.DIV islFlash) = 0 then 5 else if s.rf (Reg.IOPLL_ISL.DIV islFlash) = 1 then 4 else 2) := rfl
  have hrun {r : WRes} (h : (if getBits v 0 4 < s.rdwaitMin then s.refused flcRefuse 6 else .ok (s.writeReg .all Reg.FLC_RDWAIT_at v)) = r) :
      exec (.flcRdwaitWrite src v) s = .next r.st := by
    refine exec_toFlash s hon (f := fun s => s.writeFlc src Reg.FLC_RDWAIT_at v) rfl ?_
    exact (if_neg (show ¬ Reg.FLC_RDWAIT_at = Reg.FLC_CMD_at by decide)).trans ((if_neg (show ¬ Reg.FLC_RDWAIT_at = Reg.FLC_BUF_DATA_at by decide)).trans
      ((if_neg (show ¬ Reg.FLC_RDWAIT_at = Reg.FLC_BUF_ADDR_at by decide)).trans ((if_pos rfl).trans h)))
  dsimp only
  rw [← hleast]
  refine ⟨fun h => refuses_of_exec (by decide) (hrun (if_pos h)), fun h => ⟨_, hrun (if_neg (Nat.not_lt.2 h)), regs_writeReg s .all _ v, ?_⟩⟩
  exact s.rf_writeReg_takes .all Reg.FLC_RDWAIT.WAIT v (by decide)

end

end

/-- Settles O39: the three commands are one case analysis of FLC_CMD's reasons; a request of an idle die is the only one that waits, and starts. -/
theorem flashRegisterPath : Obligations.FlashRegisterPath := by
  intro src v s hon
  refine ⟨fun e he => ?_, flcBufDataWrite_cases src s hon, flcBufDataRead_advances src s hon, flcRdwaitWrite_cases src v s hon⟩
  have hcmd {i : Instr} {k : Nat} (hi : exec i s = .next (s.toFlash (fun s => s.writeFlc src Reg.FLC_CMD_at (putBits v 0 4 k)))) :
      exec i s = .next (s.writeFlcCmd src (putBits v 0 4 k)).st := exec_toFlash s hon hi (if_pos rfl)
  simp only [List.mem_cons, List.not_mem_nil, or_false] at he
  rcases he with rfl | rfl | rfl
  · exact flcCmd_cases src v s (k := 1) (by decide) (by decide) (hcmd rfl)
  · exact flcCmd_cases src v s (k := 2) (by decide) (by decide) (hcmd rfl)
  · exact flcCmd_cases src v s (k := 3) (by decide) (by decide) (hcmd rfl)

end Sys2Proof.Machine
end

section
/-!
PROOFS. The sensors: the readings of a set, the hottest of them, the throttle and the trip (R295, R296, R314, R315).
-/

namespace Sys2Proof.Machine
open Sys2Proof.Claims

/-! ## Readings (R296) -/

section
variable (rs : List (Option Int))

theorem thmValid_getD (i : Nat) : thmValid (rs.getD i none) = reading rs i := by
  rw [reading]
  cases rs.getD i none with
  | none => rfl
  | some t => simp [thmValid, Option.filter]

/-- The 24 readings of a set. -/
def readings (rs : List (Option Int)) : List (Option Int) := (List.range 24).map (fun i => rs.getD i none)

theorem readings_length : (readings rs).length = 24 := by rw [readings, List.length_map, List.length_range]

theorem thmValid_readings {i : Nat} (hi : i < 24) : thmValid ((readings rs).getD i none) = reading rs i := by
  have hget : (readings rs).getD i none = rs.getD i none := by
    rw [readings, List.getD_eq_getElem?_getD, List.getElem?_map, List.getElem?_range hi]
    rfl
  rw [hget, thmValid_getD]

/-- How many readings are faults. -/
def faultCount (rs : List (Option Int)) : Nat := (List.range 24).countP (fun i => (reading rs i).isNone)

theorem faults_readings : ((readings rs).filter (fun r => (thmValid r).isNone)).length = faultCount rs := by
  rw [← List.countP_eq_length_filter, readings, List.countP_map, faultCount]
  exact List.countP_congr (fun i _ => by rw [Function.comp_apply, thmValid_getD])

theorem faultCount_eq_all : faultCount rs = 24 ↔ ∀ i, i < 24 → reading rs i = none := by
  have hall := List.countP_eq_length (p := fun i => (reading rs i).isNone) (l := List.range 24)
  rw [List.length_range] at hall
  rw [faultCount, hall]
  simp only [List.mem_range, Option.isNone_iff_eq_none]

theorem faultCount_le : faultCount rs ≤ 24 := List.countP_le_length.trans (by rw [List.length_range])

end

/-! ## The hottest sensor (R295) -/

/-- Position `k` of a list whose first place is `i` holds the highest valid reading, none before it as high. -/
def Hottest (l : List (Option Int)) (i : Nat) (q : Int × Nat) : Prop :=
  (∃ k, k < l.length ∧ q.2 = i + k ∧ thmValid (l.getD k none) = some q.1) ∧
    ∀ k v, k < l.length → thmValid (l.getD k none) = some v → v < q.1 ∨ (v = q.1 ∧ q.2 ≤ i + k)

theorem hottest_none {l : List (Option Int)} {i : Nat} (h : hottest l i = none) (k : Nat) (hk : k < l.length) : thmValid (l.getD k none) = none := by
  induction l generalizing i k with
  | nil => exact absurd hk (Nat.not_lt_zero _)
  | cons r t ih =>
    rw [hottest] at h
    cases hr : thmValid r with
    | some v =>
      rw [hr] at h
      cases ht : hottest t (i + 1) with
      | none => rw [ht] at h; cases h
      | some q => rw [ht] at h; dsimp only at h; split at h <;> cases h
    | none =>
      rw [hr] at h
      cases k with
      | zero => exact hr
      | succ k => exact ih h k (Nat.lt_of_succ_lt_succ hk)

theorem hottest_spec {l : List (Option Int)} {i : Nat} {q : Int × Nat} (h : hottest l i = some q) : Hottest l i q := by
  induction l generalizing i q with
  | nil => cases h
  | cons r t ih =>
    rw [hottest] at h
    cases hr : thmValid r with
    | none =>
      rw [hr] at h
      obtain ⟨⟨k, hk, hq, hv⟩, hall⟩ := ih h
      refine ⟨⟨k + 1, Nat.succ_lt_succ hk, by omega, hv⟩, fun k v hk hv => ?_⟩
      cases k with
      | zero => rw [List.getD_cons_zero, hr] at hv; cases hv
      | succ k =>
        rcases hall k v (Nat.lt_of_succ_lt_succ hk) hv with hlt | ⟨heq, hle⟩
        · exact .inl hlt
        · exact .inr ⟨heq, by omega⟩
    | some w =>
      rw [hr] at h
      cases ht : hottest t (i + 1) with
      | none =>
        rw [ht] at h
        obtain rfl := Option.some.inj h
        refine ⟨⟨0, Nat.succ_pos _, rfl, hr⟩, fun k v hk hv => ?_⟩
        cases k with
        | zero => exact .inr ⟨Option.some.inj (hv.symm.trans hr), Nat.le_refl _⟩
        | succ k => rw [List.getD_cons_succ, hottest_none ht k (Nat.lt_of_succ_lt_succ hk)] at hv; cases hv
      | some p =>
        rw [ht] at h
        obtain ⟨⟨k, hk, hp, hpv⟩, hall⟩ := ih ht
        dsimp only at h
        split at h
        · next hle =>
          obtain rfl := Option.some.inj h
          refine ⟨⟨0, Nat.succ_pos _, rfl, hr⟩, fun k v hk hv => ?_⟩
          cases k with
          | zero => exact .inr ⟨Option.some.inj (hv.symm.trans hr), Nat.le_refl _⟩
          | succ k =>
            rcases hall k v (Nat.lt_of_succ_lt_succ hk) hv with hlt | ⟨heq, -⟩
            · exact .inl (by omega)
            · rcases Int.lt_or_eq_of_le (heq ▸ hle) with hlt | heq'
              · exact .inl hlt
              · exact .inr ⟨heq', by dsimp only; omega⟩
        · next hgt =>
          obtain rfl := Option.some.inj h
          refine ⟨⟨k + 1, Nat.succ_lt_succ hk, by omega, hpv⟩, fun k v hk hv => ?_⟩
          cases k with
          | zero =>
            obtain rfl := Option.some.inj (hv.symm.trans hr)
            exact .inl (by omega)
          | succ k =>
            rcases hall k v (Nat.lt_of_succ_lt_succ hk) hv with hlt | ⟨heq, hle⟩
            · exact .inl hlt
            · exact .inr ⟨heq, by omega⟩

section
variable (rs : List (Option Int))

theorem hottest_isSome : (hottest (readings rs) 0).isSome = true ↔ faultCount rs < 24 := by
  have hle := faultCount_le rs
  cases h : hottest (readings rs) 0 with
  | none =>
    have hall : faultCount rs = 24 := (faultCount_eq_all rs).2 (fun i hi => by
      rw [← thmValid_readings rs hi]
      exact hottest_none h i (by rw [readings_length]; exact hi))
    exact ⟨fun hf => absurd hf Bool.false_ne_true, fun hlt => by omega⟩
  | some q =>
    obtain ⟨⟨k, hk, -, hv⟩, -⟩ := hottest_spec h
    rw [readings_length] at hk
    rw [thmValid_readings rs hk] at hv
    refine ⟨fun _ => Nat.lt_of_le_of_ne hle (fun heq => ?_), fun _ => rfl⟩
    rw [(faultCount_eq_all rs).1 heq k hk] at hv
    cases hv

/-- The sensor that R295 names is the one found. -/
theorem hottest_eq {k : Nat} {m : Int} (hk : k < 24) (hm : reading rs k = some m)
    (hmax : ∀ i v, i < 24 → reading rs i = some v → v < m ∨ (v = m ∧ k ≤ i)) : hottest (readings rs) 0 = some (m, k) := by
  have hlen := readings_length rs
  cases h : hottest (readings rs) 0 with
  | none =>
    have hno := hottest_none h k (by rw [hlen]; exact hk)
    rw [thmValid_readings rs hk, hm] at hno
    cases hno
  | some q =>
    obtain ⟨⟨j, hj, hq, hv⟩, hall⟩ := hottest_spec h
    rw [hlen] at hj
    rw [thmValid_readings rs hj] at hv
    have hone := hall k m (by rw [hlen]; exact hk) (by rw [thmValid_readings rs hk, hm])
    have htwo := hmax j q.1 hj hv
    obtain ⟨v, n⟩ := q
    dsimp only at hq hone htwo
    have hval : v = m := by omega
    have hpos : n = k := by omega
    rw [hval, hpos]

end

/-! ## Readings stored -/

theorem thmT_at_inj {i k : Nat} : Reg.THM_T_at i = Reg.THM_T_at k ↔ i = k := by unfold Reg.THM_T_at; omega

/-- A set of readings stored from sensor `i` on. -/
theorem putReadings_puts (l : List (Option Int)) (i : Nat) (s : State) :
    s.putReadings l i = { s with io := (s.putReadings l i).io } ∧
    (∀ a, (∀ k, k < l.length → a ≠ Reg.THM_T_at (i + k)) → (s.putReadings l i).reg a = s.reg a) ∧
    ∀ k, k < l.length → (s.putReadings l i).rf (Reg.THM_T.T (i + k)) =
        (match thmValid (l.getD k none) with | some v => (BitVec.ofInt 16 v).toNat | none => s.rf (Reg.THM_T.T (i + k))) ∧
      (s.putReadings l i).on (Reg.THM_T.FAULT (i + k)) = (thmValid (l.getD k none)).isNone := by
  induction l generalizing i s with
  | nil => exact ⟨rfl, fun _ _ => rfl, fun k hk => absurd hk (Nat.not_lt_zero _)⟩
  | cons r t ih =>
    have hput : ∃ u, s.putReadings (r :: t) i = u.putReadings t (i + 1) ∧ Regs s u [Reg.THM_T_at i] [] ∧
        u.rf (Reg.THM_T.T i) = (match thmValid r with | some v => (BitVec.ofInt 16 v).toNat | none => s.rf (Reg.THM_T.T i)) ∧
        u.on (Reg.THM_T.FAULT i) = (thmValid r).isNone := by
      refine ⟨_, rfl, ?_⟩
      cases thmValid r with
      | none =>
        exact ⟨(regs_refl s _).wf _ _ (.head _), s.rf_wf_other _ _ _ (.inr (.inl (Nat.le_refl _))), s.on_wf_b2n true (Reg.THM_T.FAULT i) (show 16 + 1 ≤ 32 by decide) rfl⟩
      | some v =>
        refine ⟨((regs_refl s _).wf _ _ (.head _)).wf _ _ (.head _), ?_, State.on_wf_b2n _ false (Reg.THM_T.FAULT i) (show 16 + 1 ≤ 32 by decide) rfl⟩
        rw [State.rf_wf_other _ _ _ _ (.inr (.inl (Nat.le_refl _))), State.rf_wf_same _ _ _ (show 0 + 16 ≤ 32 by decide), uNat_eq_ofInt]
        exact Nat.mod_eq_of_lt (BitVec.isLt _)
    obtain ⟨u, hu, hregs, hT, hF⟩ := hput
    obtain ⟨heq, hreg, hget⟩ := ih (i + 1) u
    have hue := hregs.eq_io
    rw [hu]
    generalize u.putReadings t (i + 1) = w at heq hreg hget
    have hkeep {f : Fd} (hf : ∀ k, k < t.length → f.addr ≠ Reg.THM_T_at (i + 1 + k)) : w.rf f = u.rf f := by rw [State.rf, State.rf, hreg _ hf]
    refine ⟨by rw [heq, hue], fun a ha => ?_, fun k hk => ?_⟩
    · rw [hreg a (fun k hk h => ha (k + 1) (Nat.succ_lt_succ hk) (by rw [h]; exact congrArg Reg.THM_T_at (by omega)))]
      exact hregs.2 a (fun hm => ha 0 (Nat.succ_pos _) (List.mem_singleton.1 hm))
    · have happart (f : Fd) (hf : f.addr = Reg.THM_T_at i) : ∀ k, k < t.length → f.addr ≠ Reg.THM_T_at (i + 1 + k) := by
        intro k _ h
        rw [hf] at h
        exact absurd (thmT_at_inj.1 h) (by omega)
      cases k with
      | zero => exact ⟨(hkeep (happart _ rfl)).trans hT, (by rw [State.on, hkeep (happart _ rfl)]; exact hF)⟩
      | succ k =>
        have hne : Reg.THM_T_at (i + (k + 1)) ∉ [Reg.THM_T_at i] := by
          rw [List.mem_singleton, thmT_at_inj]; omega
        have hold : u.rf (Reg.THM_T.T (i + (k + 1))) = s.rf (Reg.THM_T.T (i + (k + 1))) := by
          rw [State.rf, State.rf]
          exact congrArg (fun w => getBits w 0 16) (hregs.2 _ hne)
        have hone := hget k (Nat.lt_of_succ_lt_succ hk)
        rw [show i + 1 + k = i + (k + 1) by omega, hold] at hone
        exact hone

/-! ## Running jobs aborted (R315) -/

/-- Aborting jobs that run makes their Spans drain, and nothing else. -/
theorem abortAll_running (s : State) (ks : List Nat) (h : ∀ k ∈ ks, (s.slot k).st = .running) :
    s.abortAll ks = { s with spans := (s.abortAll ks).spans } := by
  induction ks generalizing s with
  | nil => rfl
  | cons k ks ih =>
    obtain ⟨hk, hks⟩ := List.forall_mem_cons.1 h
    rw [State.abortAll]
    split
    · have hone : s.abortSlot k = s.onSpan (s.slot k).span (fun j => { j with aborting := true }) := if_pos hk
      rw [hone]
      exact ih (s.onSpan (s.slot k).span (fun j => { j with aborting := true })) hks
    · exact ih s hks

theorem abortRunning_spans (s : State) : s.abortRunning = { s with spans := s.abortRunning.spans } :=
  abortAll_running s _ (fun _ hk => beq_iff_eq.1 (List.mem_filter.1 hk).2)

/-- The state after the THERMAL cause of a trip, its running jobs draining. -/
def State.tripped (s t : State) : State :=
  { s with
    io := t.io, quietUs := 0, net := { s.net with causes := s.net.causes ++ [(.thermal, s.thermInfo, 0)] }, spans := t.spans,
    trigs := s.trigs ++ [1] }

/-- What a trip leaves of the state. -/
structure Trips (s t : State) : Prop where
  rest : t = s.tripped t
  reg : ∀ a, a ≠ Reg.LDR_STATUS_at → t.reg a = s.reg a
  trip : t.on Reg.LDR_STATUS.TRIP = true
  seen : t.on Reg.LDR_STATUS.TRIP_SEEN = true
  throttle : t.rf Reg.LDR_STATUS.THROTTLE = 2

theorem trip_trips (s : State) : Trips s s.trip := by
  have hregs : Regs s.notQuiet (((s.wf Reg.LDR_STATUS.TRIP 1).notQuiet).wf Reg.LDR_STATUS.TRIP_SEEN 1) [Reg.LDR_STATUS_at] [] :=
    ((regs_refl s.notQuiet _).wf Reg.LDR_STATUS.TRIP 1 (.head _)).wf Reg.LDR_STATUS.TRIP_SEEN 1 (.head _)
  have htrip : (((s.wf Reg.LDR_STATUS.TRIP 1).notQuiet).wf Reg.LDR_STATUS.TRIP_SEEN 1).on Reg.LDR_STATUS.TRIP = true :=
    (State.on_wf_other _ _ _ _ (by decide)).trans (s.on_wf_b2n true Reg.LDR_STATUS.TRIP (by decide) rfl)
  have hseen : (((s.wf Reg.LDR_STATUS.TRIP 1).notQuiet).wf Reg.LDR_STATUS.TRIP_SEEN 1).on Reg.LDR_STATUS.TRIP_SEEN = true :=
    State.on_wf_b2n _ true Reg.LDR_STATUS.TRIP_SEEN (by decide) rfl
  have hdef : s.trip = ((((((s.wf Reg.LDR_STATUS.TRIP 1).notQuiet).wf Reg.LDR_STATUS.TRIP_SEEN 1).cause .thermal
      (((s.wf Reg.LDR_STATUS.TRIP 1).notQuiet).wf Reg.LDR_STATUS.TRIP_SEEN 1).thermInfo).abortRunning).wf Reg.LDR_STATUS.THROTTLE 2).trigger 1 := rfl
  generalize ((s.wf Reg.LDR_STATUS.TRIP 1).notQuiet).wf Reg.LDR_STATUS.TRIP_SEEN 1 = u at hregs htrip hseen hdef
  have hu := hregs.eq_io
  have hinfo : u.thermInfo = s.thermInfo := by
    rw [State.thermInfo, State.thermInfo, State.rf, State.rf, State.rf, State.rf, hregs.2 Reg.THM_MAX.SENSOR.addr (by decide),
      hregs.2 Reg.THM_MAX.T_MAX.addr (by decide)]
    rfl
  have hab := abortRunning_spans (u.cause .thermal u.thermInfo)
  have habio : (u.cause .thermal u.thermInfo).abortRunning.io = u.io := by rw [hab]; rfl
  rw [hinfo] at hdef hab habio
  rw [hdef]
  generalize (u.cause .thermal s.thermInfo).abortRunning = w at hab habio
  have hw := (regs_refl w [Reg.LDR_STATUS_at]).wf Reg.LDR_STATUS.THROTTLE 2 (.head _)
  have hthr : (w.wf Reg.LDR_STATUS.THROTTLE 2).rf Reg.LDR_STATUS.THROTTLE = 2 := w.rf_wf_same _ _ (by decide)
  have hkeep {f : Fd} (hf : f.addr ≠ Reg.LDR_STATUS_at ∨ f.lo + f.width ≤ 8 ∨ 10 ≤ f.lo) : (w.wf Reg.LDR_STATUS.THROTTLE 2).on f = u.on f := by
    rw [w.on_wf_other Reg.LDR_STATUS.THROTTLE f 2 hf, State.on, State.on, State.rf, State.rf, State.reg, State.reg, habio]
  have htrip' := (hkeep (f := Reg.LDR_STATUS.TRIP) (by decide)).trans htrip
  have hseen' := (hkeep (f := Reg.LDR_STATUS.TRIP_SEEN) (by decide)).trans hseen
  clear hkeep
  generalize w.wf Reg.LDR_STATUS.THROTTLE 2 = x at hw hthr htrip' hseen'
  have hx := hw.eq_io
  refine ⟨?_, fun a ha => ?_, htrip', hseen', hthr⟩
  · rw [State.trigger, hx, hab, State.cause, hu]
    rfl
  · have ha' : a ∉ [Reg.LDR_STATUS_at] := fun hm => ha (List.mem_singleton.1 hm)
    have hwu : w.reg a = u.reg a := by rw [State.reg, State.reg, habio]
    exact (hw.2 a ha').trans (hwu.trans (hregs.2 a ha'))

/-! ## A set of readings judged (R295 to R297) -/

/-- The registers of the sensors. -/
def isThm (a : Nat) : Prop := 0x1680 ≤ a ∧ a ≤ 0x1699

/-- The readings stored, DEGRADED and VALID shown: what every later step of a set starts from. -/
structure Stores (rs : List (Option Int)) (s t : State) : Prop where
  rest : t = { s with io := t.io, spll := t.spll, ldr := { s.ldr with valid := decide (faultCount rs < 24) } }
  reg : ∀ a, ¬ isThm a → t.reg a = s.reg a
  shown : ∀ i, i < 24 → t.rf (Reg.THM_T.T i) = (match reading rs i with | some v => (BitVec.ofInt 16 v).toNat | none => s.rf (Reg.THM_T.T i)) ∧
    t.on (Reg.THM_T.FAULT i) = (reading rs i).isNone
  degraded : t.on Reg.THM_MAX.DEGRADED = decide (4 ≤ faultCount rs)

section
variable (rs : List (Option Int)) (s : State)

theorem memoReading_eq (r : Option Int) : s.memoReading r = { s with spll := (s.memoReading r).spll } := by
  cases r <;> rfl

/-- The first half of a set: stored, and the memo aged. -/
def State.stored (s : State) (rs : List (Option Int)) : State :=
  ((((s.putReadings (readings rs) 0).memoReading (thmValid ((readings rs).headD none))).onLdr
    (fun l => { l with valid := (hottest (readings rs) 0).isSome })).wf Reg.THM_MAX.DEGRADED (b2n (decide (4 ≤ faultCount rs))))

theorem thmT_lt {i : Nat} (hi : i < 24) : Reg.THM_T_at i < Reg.THM_MAX_at ∧ isThm (Reg.THM_T_at i) := by
  unfold Reg.THM_T_at Reg.THM_MAX_at isThm
  omega

theorem stored_stores : Stores rs s (s.stored rs) := by
  obtain ⟨heq, hreg, hget⟩ := putReadings_puts (readings rs) 0 s
  rw [readings_length] at hreg hget
  have hmemo := memoReading_eq (s.putReadings (readings rs) 0) (thmValid ((readings rs).headD none))
  have hvalid : (hottest (readings rs) 0).isSome = decide (faultCount rs < 24) := by
    rw [Bool.eq_iff_iff, hottest_isSome, decide_eq_true_iff]
  rw [State.stored, hvalid]
  generalize hvb : decide (faultCount rs < 24) = b
  generalize hdb : decide (4 ≤ faultCount rs) = d
  generalize s.putReadings (readings rs) 0 = x at heq hreg hget hmemo
  generalize x.memoReading (thmValid ((readings rs).headD none)) = y at hmemo
  have hyio : y.io = x.io := by rw [hmemo]
  have hyreg (a : Nat) : (y.onLdr (fun l => { l with valid := b })).reg a = x.reg a := by
    rw [State.reg, State.reg]
    exact congrArg (fun io => SMap.get io (regReset a) a) hyio
  have hyeq : y.onLdr (fun l => { l with valid := b }) =
      { s with io := (y.onLdr (fun l => { l with valid := b })).io, spll := (y.onLdr (fun l => { l with valid := b })).spll, ldr := { s.ldr with valid := b } } := by
    rw [State.onLdr]
    dsimp only
    rw [hmemo, heq]
  generalize y.onLdr (fun l => { l with valid := b }) = z at hyreg hyeq
  have hregs := (regs_refl z [Reg.THM_MAX_at]).wf Reg.THM_MAX.DEGRADED (b2n d) (.head _)
  have hdeg : (z.wf Reg.THM_MAX.DEGRADED (b2n d)).on Reg.THM_MAX.DEGRADED = d := z.on_wf_b2n d Reg.THM_MAX.DEGRADED (by decide) rfl
  generalize z.wf Reg.THM_MAX.DEGRADED (b2n d) = w at hregs hdeg
  have hw := hregs.eq_io
  have hother (f : Fd) (hf : f.addr ≠ Reg.THM_MAX_at) : w.rf f = x.rf f := by
    rw [State.rf, State.rf, hregs.2 _ (fun hm => hf (List.mem_singleton.1 hm)), hyreg]
  refine ⟨?_, fun a ha => ?_, fun i hi => ?_, hdeg.trans hdb.symm⟩
  · rw [hw, hyeq, hvb]
  · rw [hregs.2 a (fun hm => ha (by rw [List.mem_singleton.1 hm]; unfold isThm Reg.THM_MAX_at; omega)), hyreg]
    exact hreg a (fun k hk h => ha (by rw [h, Nat.zero_add]; exact (thmT_lt hk).2))
  · have hne := Nat.ne_of_lt (thmT_lt hi).1
    obtain ⟨hT, hF⟩ := hget i hi
    rw [Nat.zero_add, thmValid_readings rs hi] at hT hF
    refine ⟨(hother (Reg.THM_T.T i) hne).trans hT, ?_⟩
    rw [State.on, hother (Reg.THM_T.FAULT i) hne]
    exact hF

end

/-! ## The hottest shown, the throttle judged (R314) -/

section
variable (u : State) (m : Int) (k : Nat)

/-- The hottest reading shown, its peak, SHDN and the throttle. -/
def State.shown (u : State) (m : Int) (k : Nat) : State :=
  let s := (u.wf Reg.THM_MAX.T_MAX (uNat 16 m)).wf Reg.THM_MAX.SENSOR k
  let s := if sInt 16 (s.rf Reg.THM_PEAK.T) < m then s.wf Reg.THM_PEAK.T (uNat 16 m) else s
  let s := if 2000 ≤ m then s.onLdr (fun l => { l with shdn := true }) else s
  s.wf Reg.LDR_STATUS.THROTTLE (if s.on Reg.LDR_STATUS.TRIP then 2 else s.throttle m)

theorem throttle_lt (s : State) (t : Int) : s.throttle t < 4 := by
  unfold State.throttle
  dsimp only
  split
  · decide
  · split <;> decide

theorem throttle_congr {s t : State} (h : t.reg Reg.LDR_STATUS_at = s.reg Reg.LDR_STATUS_at) (h' : t.reg Reg.LDR_THROTTLE_at = s.reg Reg.LDR_THROTTLE_at) :
    t.throttle m = s.throttle m := by
  have hrf {f : Fd} (hf : f.addr = Reg.LDR_STATUS_at ∨ f.addr = Reg.LDR_THROTTLE_at) : t.rf f = s.rf f := by
    rw [State.rf, State.rf]
    rcases hf with hf | hf
    · rw [hf, h]
    · rw [hf, h']
  rw [State.throttle, State.throttle, hrf (f := Reg.LDR_STATUS.THROTTLE) (.inl rfl), hrf (f := Reg.LDR_THROTTLE.T1) (.inr rfl), hrf (f := Reg.LDR_THROTTLE.T2) (.inr rfl),
    hrf (f := Reg.LDR_THROTTLE.HYST) (.inr rfl)]

theorem shown_shows (hk : k < 24) : (u.shown m k) = { u with io := (u.shown m k).io, ldr := { u.ldr with shdn := u.ldr.shdn || decide (2000 ≤ m) } } ∧
    (∀ a, a ∉ [Reg.THM_MAX_at, Reg.THM_PEAK_at, Reg.LDR_STATUS_at] → (u.shown m k).reg a = u.reg a) ∧
    (u.shown m k).rf Reg.THM_MAX.T_MAX = (BitVec.ofInt 16 m).toNat ∧ (u.shown m k).rf Reg.THM_MAX.SENSOR = k ∧
    (u.shown m k).on Reg.THM_MAX.DEGRADED = u.on Reg.THM_MAX.DEGRADED ∧
    (u.shown m k).on Reg.LDR_STATUS.TRIP = u.on Reg.LDR_STATUS.TRIP ∧
    (u.on Reg.LDR_STATUS.TRIP = false → (u.shown m k).rf Reg.LDR_STATUS.THROTTLE = u.throttle m) := by
  have hregs := ((regs_refl u [Reg.THM_MAX_at, Reg.THM_PEAK_at]).wf Reg.THM_MAX.T_MAX (uNat 16 m) (.head _)).wf Reg.THM_MAX.SENSOR k (.head _)
  have hmax : ((u.wf Reg.THM_MAX.T_MAX (uNat 16 m)).wf Reg.THM_MAX.SENSOR k).rf Reg.THM_MAX.T_MAX = (BitVec.ofInt 16 m).toNat := by
    rw [State.rf_wf_other _ _ _ _ (by decide), State.rf_wf_same _ _ _ (by decide), uNat_eq_ofInt]
    exact Nat.mod_eq_of_lt (BitVec.isLt _)
  have hsensor : ((u.wf Reg.THM_MAX.T_MAX (uNat 16 m)).wf Reg.THM_MAX.SENSOR k).rf Reg.THM_MAX.SENSOR = k :=
    (State.rf_wf_same _ _ _ (by decide)).trans (Nat.mod_eq_of_lt (show k < 32 by omega))
  have hdeg : ((u.wf Reg.THM_MAX.T_MAX (uNat 16 m)).wf Reg.THM_MAX.SENSOR k).on Reg.THM_MAX.DEGRADED = u.on Reg.THM_MAX.DEGRADED := by
    rw [State.on_wf_other _ _ _ _ (by decide), State.on_wf_other _ _ _ _ (by decide)]
  rw [State.shown]
  dsimp only
  generalize (u.wf Reg.THM_MAX.T_MAX (uNat 16 m)).wf Reg.THM_MAX.SENSOR k = x at hregs hmax hsensor hdeg
  have hpeak : ∃ y, (if sInt 16 (x.rf Reg.THM_PEAK.T) < m then x.wf Reg.THM_PEAK.T (uNat 16 m) else x) = y ∧
      Regs u y [Reg.THM_MAX_at, Reg.THM_PEAK_at] [] ∧ y.reg Reg.THM_MAX_at = x.reg Reg.THM_MAX_at := by
    refine ⟨_, rfl, ?_⟩
    split
    · exact ⟨hregs.wf _ _ (.tail _ (.head _)), x.reg_setReg_other _ _ _ (by decide)⟩
    · exact ⟨hregs, rfl⟩
  obtain ⟨y, hy, hyregs, hymax⟩ := hpeak
  rw [hy]
  have hyrf {f : Fd} (hf : f.addr = Reg.THM_MAX_at) : y.rf f = x.rf f := by rw [State.rf, State.rf, hf, hymax]
  have hshdn : ∃ z, (if 2000 ≤ m then y.onLdr (fun l => { l with shdn := true }) else y) = z ∧ z.io = y.io ∧
      z = { y with ldr := { y.ldr with shdn := y.ldr.shdn || decide (2000 ≤ m) } } := by
    refine ⟨_, rfl, ?_⟩
    split
    · next h => exact ⟨rfl, by rw [decide_eq_true h, Bool.or_true]; rfl⟩
    · next h => exact ⟨rfl, by rw [decide_eq_false h, Bool.or_false]⟩
  obtain ⟨z, hz, hzio, hzeq⟩ := hshdn
  rw [hz]
  have hzreg (a : Nat) : z.reg a = y.reg a := by rw [State.reg, State.reg, hzio]
  have hzrf (f : Fd) : z.rf f = y.rf f := by rw [State.rf, State.rf, hzreg]
  have hzon (f : Fd) : z.on f = y.on f := by rw [State.on, State.on, hzrf]
  have hstat (f : Fd) (hf : f.addr ∉ [Reg.THM_MAX_at, Reg.THM_PEAK_at]) : z.on f = u.on f := by
    rw [hzon, State.on, State.on, State.rf, State.rf, hyregs.2 _ hf]
  have hthr : z.throttle m = u.throttle m :=
    throttle_congr m ((hzreg _).trans (hyregs.2 _ (by decide))) ((hzreg _).trans (hyregs.2 _ (by decide)))
  have htrip := hstat Reg.LDR_STATUS.TRIP (by decide)
  rw [htrip, hthr]
  generalize hval : (if u.on Reg.LDR_STATUS.TRIP then 2 else u.throttle m) = val
  have hw := (regs_refl z [Reg.LDR_STATUS_at]).wf Reg.LDR_STATUS.THROTTLE val (.head _)
  have hset : (z.wf Reg.LDR_STATUS.THROTTLE val).rf Reg.LDR_STATUS.THROTTLE = val % 4 := z.rf_wf_same _ _ (by decide)
  have hthm {f : Fd} (hf : f.addr = Reg.THM_MAX_at) : (z.wf Reg.LDR_STATUS.THROTTLE val).rf f = x.rf f :=
    (z.rf_wf_other _ _ _ (.inl (by rw [hf]; decide))).trans ((hzrf f).trans (hyrf hf))
  have htrip' := (z.on_wf_other Reg.LDR_STATUS.THROTTLE Reg.LDR_STATUS.TRIP val (by decide)).trans htrip
  generalize z.wf Reg.LDR_STATUS.THROTTLE val = w at hw hset hthm htrip'
  have hweq := hw.eq_io
  have hyeq := hyregs.eq_io
  refine ⟨?_, fun a ha => ?_, (hthm rfl).trans hmax, (hthm rfl).trans hsensor, ?_, htrip', fun hno => ?_⟩
  · rw [hweq, hzeq, hyeq]
  · rw [hw.2 a (fun hm => ha (by rw [List.mem_singleton.1 hm]; decide)), hzreg]
    exact hyregs.2 a (fun hm => ha (List.mem_of_mem_filter (p := fun b => b != Reg.LDR_STATUS_at) (by
      rw [show [Reg.THM_MAX_at, Reg.THM_PEAK_at, Reg.LDR_STATUS_at].filter (fun b => b != Reg.LDR_STATUS_at) = [Reg.THM_MAX_at, Reg.THM_PEAK_at] from rfl]
      exact hm)))
  · rw [State.on, hthm rfl]
    exact hdeg
  · rw [hset, ← hval, hno]
    exact Nat.mod_eq_of_lt (throttle_lt u m)

end

/-! ## Sensors judged -/

section
variable (rs : List (Option Int)) (s : State)

/-- Whether the hottest reading, none where all are faults, is at TTRIP. -/
def State.tooHot (s : State) (top : Option (Int × Nat)) : Bool :=
  match top with | none => false | some q => decide ((16 * s.rf Reg.LDR_THERM.TTRIP : Nat) ≤ q.1)

theorem thermalSample_eq : s.thermalSample rs =
    (fun u : State => if !u.on Reg.LDR_STATUS.TRIP && (u.tooHot (hottest (readings rs) 0) || decide (12 ≤ faultCount rs)) then u.trip else u)
      (match hottest (readings rs) 0 with | none => s.stored rs | some q => (s.stored rs).shown q.1 q.2) := by
  rw [State.stored, ← faults_readings]
  rfl

/-- The state before the trip is judged. -/
structure Judged (s t : State) : Prop where
  rest : t = { s with io := t.io, spll := t.spll, ldr := t.ldr }
  valid : t.ldr.valid = decide (faultCount rs < 24)
  reg : ∀ a, ¬ isThm a → a ≠ Reg.LDR_STATUS_at → t.reg a = s.reg a
  trip : t.on Reg.LDR_STATUS.TRIP = s.on Reg.LDR_STATUS.TRIP
  shown : ∀ i, i < 24 → t.rf (Reg.THM_T.T i) = (match reading rs i with | some v => (BitVec.ofInt 16 v).toNat | none => s.rf (Reg.THM_T.T i)) ∧
    t.on (Reg.THM_T.FAULT i) = (reading rs i).isNone
  degraded : t.on Reg.THM_MAX.DEGRADED = decide (4 ≤ faultCount rs)

theorem Stores.judged {s t : State} (h : Stores rs s t) : Judged rs s t where
  rest := by rw [h.rest]
  valid := by rw [h.rest]
  reg a ha _ := h.reg a ha
  trip := by rw [State.on, State.on, State.rf, State.rf, h.reg Reg.LDR_STATUS.TRIP.addr (show ¬ isThm Reg.LDR_STATUS_at by unfold isThm Reg.LDR_STATUS_at; omega)]
  shown := h.shown
  degraded := h.degraded

theorem Judged.of_shown {s t : State} (h : Judged rs s t) {m : Int} {k : Nat} (hk : k < 24) : Judged rs s (t.shown m k) := by
  obtain ⟨heq, hreg, -, -, hdeg, htrip, -⟩ := shown_shows t m k hk
  have hvalid : (t.shown m k).ldr.valid = t.ldr.valid := by rw [heq]
  have hrest := h.rest
  generalize t.shown m k = u at heq hreg hdeg htrip hvalid
  refine ⟨by rw [heq, hrest], hvalid.trans h.valid, fun a ha hne => ?_, htrip.trans h.trip, fun i hi => ?_, hdeg.trans h.degraded⟩
  · refine (hreg a (fun hm => ?_)).trans (h.reg a ha hne)
    simp only [List.mem_cons, List.not_mem_nil, or_false] at hm
    rcases hm with rfl | rfl | rfl
    · exact ha (by unfold isThm Reg.THM_MAX_at; omega)
    · exact ha (by unfold isThm Reg.THM_PEAK_at; omega)
    · exact hne rfl
  · have hne : Reg.THM_T_at i ∉ [Reg.THM_MAX_at, Reg.THM_PEAK_at, Reg.LDR_STATUS_at] := by
      simp only [List.mem_cons, List.not_mem_nil, or_false, not_or]
      unfold Reg.THM_T_at Reg.THM_MAX_at Reg.THM_PEAK_at Reg.LDR_STATUS_at
      omega
    have hsame := hreg _ hne
    obtain ⟨hT, hF⟩ := h.shown i hi
    refine ⟨?_, ?_⟩
    · rw [State.rf] at hT ⊢
      exact (congrArg (fun w => getBits w 0 16) hsame).trans hT
    · rw [State.on, State.rf] at hF ⊢
      exact (congrArg (fun w => getBits w 16 1 != 0) hsame).trans hF

/-- The state of the whole statement that every outcome of a set has. -/
theorem judged_outcome {s u t : State} (h : Judged rs s u) (ht : t = u ∨ Trips u t) :
    (∀ i, i < 24 → t.rf (Reg.THM_T.T i) = (match reading rs i with | some v => (BitVec.ofInt 16 v).toNat | none => s.rf (Reg.THM_T.T i)) ∧
      t.on (Reg.THM_T.FAULT i) = (reading rs i).isNone) ∧
    t.on Reg.THM_MAX.DEGRADED = decide (4 ≤ faultCount rs) ∧ (t.ldr.valid = true ↔ faultCount rs < 24) := by
  rcases ht with rfl | ht
  · exact ⟨h.shown, h.degraded, by rw [h.valid, decide_eq_true_iff]⟩
  · have hrf {f : Fd} (hf : f.addr ≠ Reg.LDR_STATUS_at) : t.rf f = u.rf f := by rw [State.rf, State.rf, ht.reg _ hf]
    have hon {f : Fd} (hf : f.addr ≠ Reg.LDR_STATUS_at) : t.on f = u.on f := by rw [State.on, State.on, hrf hf]
    have hne (i : Nat) : Reg.THM_T_at i ≠ Reg.LDR_STATUS_at := by unfold Reg.THM_T_at Reg.LDR_STATUS_at; omega
    refine ⟨fun i hi => ?_, (hon (by decide)).trans h.degraded, ?_⟩
    · rw [hrf (f := Reg.THM_T.T i) (hne i), hon (f := Reg.THM_T.FAULT i) (hne i)]
      exact h.shown i hi
    · rw [show t.ldr = u.ldr by rw [ht.rest]; rfl, h.valid, decide_eq_true_iff]

/-- What the hottest reading brings about. -/
theorem hottest_outcome {k : Nat} {m : Int} (hk : k < 24) (hm : reading rs k = some m)
    (hmax : ∀ i v, i < 24 → reading rs i = some v → v < m ∨ (v = m ∧ k ≤ i)) :
    (s.thermalSample rs).rf Reg.THM_MAX.T_MAX = (BitVec.ofInt 16 m).toNat ∧ (s.thermalSample rs).rf Reg.THM_MAX.SENSOR = k ∧
    (2000 ≤ m → (s.thermalSample rs).ldr.shdn = true) ∧
    (s.on Reg.LDR_STATUS.TRIP = false → (16 * s.rf Reg.LDR_THERM.TTRIP : Nat) ≤ m ∨ 12 ≤ faultCount rs →
      (s.thermalSample rs).on Reg.LDR_STATUS.TRIP = true ∧ (s.thermalSample rs).on Reg.LDR_STATUS.TRIP_SEEN = true ∧
      (s.thermalSample rs).rf Reg.LDR_STATUS.THROTTLE = 2 ∧
      (SysCause.thermal, BitVec.ofNat 32 (k + 65536 * (BitVec.ofInt 16 m).toNat), 0) ∈ (s.thermalSample rs).net.causes) ∧
    (s.on Reg.LDR_STATUS.TRIP = false → m < (16 * s.rf Reg.LDR_THERM.TTRIP : Nat) → faultCount rs < 12 →
      (s.thermalSample rs).on Reg.LDR_STATUS.TRIP = false ∧ (s.thermalSample rs).spans = s.spans ∧
      (s.thermalSample rs).rf Reg.LDR_STATUS.THROTTLE = s.throttle m) := by
  have hstored := (stored_stores rs s).judged
  have hj := hstored.of_shown rs (m := m) hk
  obtain ⟨heq, -, hT, hS, -, htrip, hthr⟩ := shown_shows (s.stored rs) m k hk
  have hshdn : 2000 ≤ m → ((s.stored rs).shown m k).ldr.shdn = true := fun h => by
    rw [heq, decide_eq_true h]
    exact Bool.or_true _
  have hthr' : s.on Reg.LDR_STATUS.TRIP = false → ((s.stored rs).shown m k).rf Reg.LDR_STATUS.THROTTLE = s.throttle m := fun h => by
    have hreg {a : Nat} (ha : ¬ isThm a) : (s.stored rs).reg a = s.reg a := (stored_stores rs s).reg a ha
    rw [hthr (hstored.trip.trans h)]
    exact throttle_congr m (hreg (by unfold isThm Reg.LDR_STATUS_at; omega)) (hreg (by unfold isThm Reg.LDR_THROTTLE_at; omega))
  have hrun := thermalSample_eq rs s
  rw [hottest_eq rs hk hm hmax] at hrun
  dsimp only at hrun
  rw [hrun]
  clear heq htrip hthr hstored hrun
  generalize (s.stored rs).shown m k = u at hj hT hS hshdn hthr'
  have httrip : u.rf Reg.LDR_THERM.TTRIP = s.rf Reg.LDR_THERM.TTRIP := by
    rw [State.rf, State.rf, hj.reg Reg.LDR_THERM.TTRIP.addr (show ¬ isThm Reg.LDR_THERM_at by unfold isThm Reg.LDR_THERM_at; omega) (by decide)]
  have hot : u.tooHot (some (m, k)) = decide ((16 * s.rf Reg.LDR_THERM.TTRIP : Nat) ≤ m) := by rw [State.tooHot, httrip]
  rw [hot, hj.trip]
  by_cases hjudge : (!s.on Reg.LDR_STATUS.TRIP && (decide ((16 * s.rf Reg.LDR_THERM.TTRIP : Nat) ≤ m) || decide (12 ≤ faultCount rs))) = true
  · rw [if_pos hjudge]
    have ht := trip_trips u
    generalize u.trip = t at ht
    have hrf {f : Fd} (hf : f.addr ≠ Reg.LDR_STATUS_at) : t.rf f = u.rf f := by rw [State.rf, State.rf, ht.reg _ hf]
    refine ⟨(hrf (by decide)).trans hT, (hrf (by decide)).trans hS, fun h => ?_, fun _ _ => ⟨ht.trip, ht.seen, ht.throttle, ?_⟩, fun hno hcool hfew => ?_⟩
    · rw [show t.ldr = u.ldr by rw [ht.rest]; rfl]
      exact hshdn h
    · have hinfo : u.thermInfo = BitVec.ofNat 32 (k + 65536 * (BitVec.ofInt 16 m).toNat) := by
        rw [State.thermInfo, hT, hS]
        rfl
      rw [show t.net.causes = u.net.causes ++ [(.thermal, u.thermInfo, 0)] by rw [ht.rest]; rfl, hinfo]
      exact List.mem_append_right _ (List.mem_singleton.2 rfl)
    · rw [Bool.and_eq_true, Bool.or_eq_true, decide_eq_true_iff, decide_eq_true_iff] at hjudge
      omega
  · rw [if_neg hjudge]
    refine ⟨hT, hS, hshdn, fun hno hhot => absurd ?_ hjudge, fun hno _ _ => ⟨hj.trip.trans hno, by rw [hj.rest], hthr' hno⟩⟩
    rw [hno, Bool.not_false, Bool.true_and, Bool.or_eq_true, decide_eq_true_iff, decide_eq_true_iff]
    exact hhot

/-- Every set of readings ends in one of the two ways. -/
theorem thermalSample_judged : ∃ u, Judged rs s u ∧ (s.thermalSample rs = u ∨ Trips u (s.thermalSample rs)) := by
  have hall : ∃ u, Judged rs s u ∧ (match hottest (readings rs) 0 with | none => s.stored rs | some q => (s.stored rs).shown q.1 q.2) = u := by
    refine ⟨_, ?_, rfl⟩
    cases h : hottest (readings rs) 0 with
    | none => exact (stored_stores rs s).judged
    | some q =>
      obtain ⟨⟨k, hk, hq, -⟩, -⟩ := hottest_spec h
      rw [readings_length] at hk
      exact (stored_stores rs s).judged.of_shown rs (by omega)
  obtain ⟨u, hu, heq⟩ := hall
  refine ⟨u, hu, ?_⟩
  rw [thermalSample_eq, heq]
  dsimp only
  split
  · exact .inr (trip_trips u)
  · exact .inl rfl

end

end Sys2Proof.Machine
end

section
/-!
PROOFS. A round of PMBus polls: the words it gives, what it stores, and when it shows FAIL (R298 to R300).
-/

namespace Sys2Proof.Machine
open Sys2Proof.Claims

/-! ## Numbers (R299) -/

/-- The two ways of rounding to the nearest agree for an exponent of five bits. -/
theorem scaleRound_eq_nearest (m k : Nat) {e : Nat} (he : e < 32) : scaleRound m k e = nearest m k e := by
  unfold scaleRound nearest
  split
  · rfl
  · have hhalf : 2 ^ (32 - e) = 2 * 2 ^ (31 - e) := by rw [show 32 - e = 31 - e + 1 by omega, pow_succ]; ring
    have hwhole : 2 ^ (33 - e) = 2 * 2 ^ (32 - e) := by rw [show 33 - e = 32 - e + 1 by omega, pow_succ]; ring
    have hsum : 2 * (m * k) + 2 ^ (32 - e) = 2 * (m * k + 2 ^ (31 - e)) := by rw [hhalf]; ring
    rw [hsum, hwhole, Nat.mul_div_mul_left _ _ (by decide)]

theorem iout10_eq (w : BitVec 16) : iout10 w = if w.getLsbD 10 then 0 else nearest (w.toNat % 2 ^ 10) 100 (w.toNat / 2 ^ 11) := by
  have hbit : w.getLsbD 10 = decide (w.toNat / 2 ^ 10 % 2 = 1) := Nat.testBit_eq_decide_div_mod_eq
  have hlt : w.toNat / 2 ^ 11 < 32 := by have := w.isLt; omega
  rw [iout10, scaleRound_eq_nearest _ _ hlt, hbit]
  simp only [decide_eq_true_eq]

/-- A mantissa of 16 bits (R299). -/
theorem voutMantissa_lt {mv e : Nat} (hmv : mv < 1024) (he : e < 16 ∨ 17 ≤ e) (h32 : e < 32) : voutMantissa mv e < 2 ^ 16 := by
  unfold voutMantissa
  split
  · have hpow : 1 ≤ 2 ^ e := Nat.one_le_two_pow
    refine (Nat.div_lt_iff_lt_mul (by positivity)).2 ?_
    nlinarith
  · have hpow : 2 ^ (32 - e) ≤ 2 ^ 15 := Nat.pow_le_pow_right (by decide) (by omega)
    refine (Nat.div_lt_iff_lt_mul (by decide)).2 ?_
    nlinarith

/-! ## Transactions (R298, R300) -/

section
variable (s : State)

theorem adr_read : ∀ a, a < 128 → BitVec.ofNat 8 (2 * a + 1) = BitVec.ofNat 8 (2 * a) ||| 1 := by decide

theorem pmbAsk_eq (code : Byte) (w : BitVec 16) : s.pmbAsk code ++ pmbWord w = readBytesOf s code w := by
  rw [State.pmbAsk, adr_read _ (getBits_lt _ _ _)]
  rfl

theorem pmbGot_answered {code : Byte} {r : PmbReply} (h : PmbAnswered s code r) : s.pmbGot code r = some r.word := by
  obtain ⟨hack, hlow, hpec⟩ := h
  rw [State.pmbGot, pmbAsk_eq, hack, hlow]
  refine if_neg ?_
  cases hp : s.on Reg.PMB_CFG.PEC with
  | false => exact Bool.false_ne_true
  | true =>
    rw [hpec hp, bne_self_eq_false]
    exact Bool.false_ne_true

theorem pmbGot_failed {code : Byte} {r : PmbReply} (h : PmbFailed s code r) : s.pmbGot code r = none := by
  rw [State.pmbGot, pmbAsk_eq]
  refine if_pos ?_
  rcases h with h | h | ⟨hon, hpec⟩
  · rw [h]; rfl
  · rw [h, Bool.or_true, Bool.true_or]
  · rw [hon, bne_iff_ne.2 hpec, Bool.true_and, Bool.or_true]

theorem pmbGot_congr {t : State} (h : t.reg Reg.PMB_CFG_at = s.reg Reg.PMB_CFG_at) (code : Byte) (r : PmbReply) : t.pmbGot code r = s.pmbGot code r := by
  have hrf (f : Fd) (hf : f.addr = Reg.PMB_CFG_at) : t.rf f = s.rf f := by rw [State.rf, State.rf, hf, h]
  rw [State.pmbGot, State.pmbGot, State.pmbAsk, State.pmbAsk, State.on, State.on, hrf Reg.PMB_CFG.ADDR rfl, hrf Reg.PMB_CFG.PEC rfl]

theorem voutMv_eq {t : State} (h : t.reg Reg.PMB_CFG_at = s.reg Reg.PMB_CFG_at) (v : BitVec 16) :
    t.voutMv v = nearest v.toNat 1000 (s.rf Reg.PMB_CFG.VEXP) := by
  rw [State.voutMv, scaleRound_eq_nearest _ _ (getBits_lt _ _ _), State.rf, State.rf]
  exact congrArg (fun w => nearest v.toNat 1000 (getBits w 9 5)) h

end

/-! ## A poll judged (R300) -/

/-- What the judgement of a poll leaves as it is. -/
structure Polls (s t : State) : Prop where
  rest : t = { s with io := t.io, net := t.net, ldr := { s.ldr with fails := t.ldr.fails, oks := t.ldr.oks } }
  reg : ∀ a, a ∉ [Reg.PMB_STATUS_at, Reg.LDR_STATUS_at, Reg.LDR_TRIM_at] → t.reg a = s.reg a
  alert : t.on Reg.PMB_STATUS.ALERT = s.on Reg.PMB_STATUS.ALERT

section
variable (s : State)

theorem ldrEvent_polls : s.ldrEvent = { s with net := s.ldrEvent.net } := by rw [State.ldrEvent, State.raiseIf_eq]

/-- FAIL, PMB_FAIL and FROZEN shown or taken back. -/
def State.pmbShow (s : State) (v : Nat) : State := ((s.wf Reg.PMB_STATUS.FAIL v).wf Reg.LDR_STATUS.PMB_FAIL v).wf Reg.LDR_TRIM.FROZEN v

theorem pmbShow_shows (b : Bool) : Regs s (s.pmbShow (b2n b)) [Reg.PMB_STATUS_at, Reg.LDR_STATUS_at, Reg.LDR_TRIM_at] [] ∧
    (s.pmbShow (b2n b)).on Reg.PMB_STATUS.FAIL = b ∧ (s.pmbShow (b2n b)).on Reg.LDR_STATUS.PMB_FAIL = b ∧
    (s.pmbShow (b2n b)).on Reg.LDR_TRIM.FROZEN = b ∧ (s.pmbShow (b2n b)).on Reg.PMB_STATUS.ALERT = s.on Reg.PMB_STATUS.ALERT ∧
    (s.pmbShow (b2n b)).rf Reg.PMB_STATUS.ERRS = s.rf Reg.PMB_STATUS.ERRS := by
  refine ⟨(((regs_refl s _).wf _ _ (.head _)).wf _ _ (.tail _ (.head _))).wf _ _ (.tail _ (.tail _ (.head _))), ?_, ?_, ?_, ?_, ?_⟩
  · rw [State.pmbShow, State.on_wf_other _ _ _ _ (by decide), State.on_wf_other _ _ _ _ (by decide), State.on_wf_b2n _ _ _ (by decide) rfl]
  · rw [State.pmbShow, State.on_wf_other _ _ _ _ (by decide), State.on_wf_b2n _ _ _ (by decide) rfl]
  · rw [State.pmbShow, State.on_wf_b2n _ _ _ (by decide) rfl]
  · rw [State.pmbShow, State.on_wf_other _ _ _ _ (by decide), State.on_wf_other _ _ _ _ (by decide), State.on_wf_other _ _ _ _ (by decide)]
  · rw [State.pmbShow, State.rf_wf_other _ _ _ _ (by decide), State.rf_wf_other _ _ _ _ (by decide), State.rf_wf_other _ _ _ _ (by decide)]

/-- A poll counted: successes, or failures and errors in a row. -/
def State.counted (s : State) (ok : Bool) : State :=
  if ok then s.onLdr (fun l => { l with fails := 0, oks := l.oks + 1 })
  else (s.incSat Reg.PMB_STATUS.ERRS).onLdr (fun l => { l with fails := l.fails + 1, oks := 0 })

/-- FAIL judged by the counts. -/
def State.judgePolls (x : State) : State :=
  if !x.on Reg.PMB_STATUS.FAIL ∧ 3 ≤ x.ldr.fails then (x.pmbShow 1).ldrEvent
  else if x.on Reg.PMB_STATUS.FAIL ∧ 3 ≤ x.ldr.oks then x.pmbShow 0 else x

theorem pollResult_eq (ok : Bool) : s.pollResult ok = (s.counted ok).judgePolls := rfl

theorem counted_counts (ok : Bool) : (s.counted ok).ldr = { s.ldr with fails := if ok then 0 else s.ldr.fails + 1, oks := if ok then s.ldr.oks + 1 else 0 } ∧
    (s.counted ok) = { s with io := (s.counted ok).io, ldr := (s.counted ok).ldr } ∧
    (∀ a, a ∉ [Reg.PMB_STATUS_at] → (s.counted ok).reg a = s.reg a) ∧
    (s.counted ok).on Reg.PMB_STATUS.FAIL = s.on Reg.PMB_STATUS.FAIL ∧ (s.counted ok).on Reg.PMB_STATUS.ALERT = s.on Reg.PMB_STATUS.ALERT ∧
    (s.counted ok).rf Reg.PMB_STATUS.ERRS = (if ok then s.rf Reg.PMB_STATUS.ERRS else min 255 (s.rf Reg.PMB_STATUS.ERRS + 1)) := by
  cases ok with
  | true => exact ⟨rfl, rfl, fun _ _ => rfl, rfl, rfl, rfl⟩
  | false =>
    have hregs := (regs_refl s [Reg.PMB_STATUS_at]).incSat Reg.PMB_STATUS.ERRS 1 (.head _)
    have herrs : (s.incSat Reg.PMB_STATUS.ERRS).rf Reg.PMB_STATUS.ERRS = min 255 (s.rf Reg.PMB_STATUS.ERRS + 1) := s.rf_incSat _ _ (by decide)
    have hfail : (s.incSat Reg.PMB_STATUS.ERRS).on Reg.PMB_STATUS.FAIL = s.on Reg.PMB_STATUS.FAIL := s.on_incSat_other _ _ _ (by decide)
    have halert : (s.incSat Reg.PMB_STATUS.ERRS).on Reg.PMB_STATUS.ALERT = s.on Reg.PMB_STATUS.ALERT := s.on_incSat_other _ _ _ (by decide)
    have hdef : s.counted false = (s.incSat Reg.PMB_STATUS.ERRS).onLdr (fun l => { l with fails := l.fails + 1, oks := 0 }) := rfl
    rw [hdef]
    generalize s.incSat Reg.PMB_STATUS.ERRS = x at hregs herrs hfail halert
    have hx := hregs.eq_io
    have hldr : x.ldr = s.ldr := by rw [hx]
    refine ⟨?_, ?_, hregs.2, hfail, halert, herrs⟩
    · rw [State.onLdr, hldr]
      rfl
    · rw [State.onLdr]
      dsimp only
      rw [hx]

theorem judgePolls_judges (x : State) : x.judgePolls = { x with io := x.judgePolls.io, net := x.judgePolls.net } ∧
    (∀ a, a ∉ [Reg.PMB_STATUS_at, Reg.LDR_STATUS_at, Reg.LDR_TRIM_at] → x.judgePolls.reg a = x.reg a) ∧
    x.judgePolls.on Reg.PMB_STATUS.ALERT = x.on Reg.PMB_STATUS.ALERT ∧ x.judgePolls.rf Reg.PMB_STATUS.ERRS = x.rf Reg.PMB_STATUS.ERRS := by
  obtain ⟨hregs, -, -, -, halert, herrs⟩ := pmbShow_shows x true
  obtain ⟨hregs', -, -, -, halert', herrs'⟩ := pmbShow_shows x false
  rw [show b2n true = 1 from rfl] at hregs halert herrs
  rw [show b2n false = 0 from rfl] at hregs' halert' herrs'
  rw [State.judgePolls]
  generalize x.pmbShow 1 = y at hregs halert herrs
  generalize x.pmbShow 0 = z at hregs' halert' herrs'
  split
  · have hev := ldrEvent_polls y
    have hrf (f : Fd) : y.ldrEvent.rf f = y.rf f := State.rf_raiseIf _ _ _ _
    have hreg (a : Nat) : y.ldrEvent.reg a = y.reg a := by rw [hev]; rfl
    generalize y.ldrEvent = w at hev hrf hreg
    refine ⟨?_, fun a ha => (hreg a).trans (hregs.2 a ha), ?_, (hrf _).trans herrs⟩
    · rw [hev, hregs.eq_io]
    · rw [State.on, hrf]
      exact halert
  · split
    · exact ⟨by rw [hregs'.eq_io], hregs'.2, halert', herrs'⟩
    · exact ⟨rfl, fun _ _ => rfl, rfl, rfl⟩

theorem pollResult_polls (ok : Bool) : Polls s (s.pollResult ok) := by
  obtain ⟨hldr, heq, hreg, -, halert, -⟩ := counted_counts s ok
  rw [pollResult_eq]
  generalize s.counted ok = x at hldr heq hreg halert
  obtain ⟨heq', hreg', halert', -⟩ := judgePolls_judges x
  generalize x.judgePolls = t at heq' hreg' halert'
  have htldr : t.ldr = x.ldr := by rw [heq']
  refine ⟨?_, fun a ha => (hreg' a ha).trans (hreg a (fun hm => ha (by rw [List.mem_singleton.1 hm]; exact .head _))), halert'.trans halert⟩
  rw [heq', heq, hldr]

/-- A poll that succeeds counts; the third in a row ends FAIL. -/
theorem pollResult_ok : (s.pollResult true).ldr.oks = s.ldr.oks + 1 ∧
    (s.pollResult true).on Reg.PMB_STATUS.FAIL = (s.on Reg.PMB_STATUS.FAIL && decide (s.ldr.oks + 1 < 3)) := by
  obtain ⟨hldr, -, -, hfail, -, -⟩ := counted_counts s true
  rw [pollResult_eq]
  generalize s.counted true = x at hldr hfail
  obtain ⟨heq, -, -, -⟩ := judgePolls_judges x
  have hfails : x.ldr.fails = 0 := by rw [hldr]; rfl
  have hoks : x.ldr.oks = s.ldr.oks + 1 := by rw [hldr]; rfl
  refine ⟨by rw [heq, hoks], ?_⟩
  rw [State.judgePolls, hfails, hoks, if_neg (fun hc => absurd hc.2 (Nat.not_succ_le_zero 2)), hfail]
  split
  · next h =>
    have hoff : (x.pmbShow 0).on Reg.PMB_STATUS.FAIL = false := (pmbShow_shows x false).2.1
    rw [hoff, h.1, decide_eq_false (by omega)]
    rfl
  · next h =>
    rw [hfail]
    cases hf : s.on Reg.PMB_STATUS.FAIL with
    | false => rfl
    | true =>
      rw [decide_eq_true (show s.ldr.oks + 1 < 3 by by_contra hc; exact h ⟨hf, by omega⟩)]
      rfl

/-- FAIL is shown wherever a poll shows it. -/
def FailShown (s : State) : Prop := s.on Reg.PMB_STATUS.FAIL = true ∧ s.on Reg.LDR_STATUS.PMB_FAIL = true ∧ s.on Reg.LDR_TRIM.FROZEN = true

/-- A poll that fails counts; the third in a row shows FAIL. -/
theorem pollResult_failed : (s.pollResult false).ldr.fails = s.ldr.fails + 1 ∧
    (s.pollResult false).rf Reg.PMB_STATUS.ERRS = min 255 (s.rf Reg.PMB_STATUS.ERRS + 1) ∧
    (FailShown s ∨ (s.on Reg.PMB_STATUS.FAIL = false ∧ 3 ≤ s.ldr.fails + 1) → FailShown (s.pollResult false)) ∧
    (s.on Reg.PMB_STATUS.FAIL = false → s.ldr.fails + 1 < 3 → (s.pollResult false).on Reg.PMB_STATUS.FAIL = false) := by
  obtain ⟨hldr, -, hreg, hfail, -, herrs⟩ := counted_counts s false
  rw [pollResult_eq]
  generalize s.counted false = x at hldr hreg hfail herrs
  have hfails : x.ldr.fails = s.ldr.fails + 1 := by rw [hldr]; rfl
  have hoks : x.ldr.oks = 0 := by rw [hldr]; rfl
  obtain ⟨heq, -, -, herrs'⟩ := judgePolls_judges x
  refine ⟨by rw [heq, hfails], herrs'.trans herrs, fun h => ?_, fun hno hfew => ?_⟩
  · rcases h with ⟨hon, hpmb, hfrozen⟩ | ⟨hno, hmany⟩
    · rw [State.judgePolls, hfail, hon, if_neg (fun hc => absurd hc.1 Bool.false_ne_true), hoks, if_neg (fun hc => absurd hc.2 (Nat.not_succ_le_zero 2))]
      have hsame (f : Fd) (hf : f.addr ∉ [Reg.PMB_STATUS_at]) : x.on f = s.on f := by rw [State.on, State.on, State.rf, State.rf, hreg _ hf]
      exact ⟨hfail.trans hon, (hsame _ (by decide)).trans hpmb, (hsame _ (by decide)).trans hfrozen⟩
    · rw [State.judgePolls, hfail, hno, hfails, if_pos ⟨rfl, hmany⟩]
      obtain ⟨-, hf, hp, hz, -, -⟩ := pmbShow_shows x true
      rw [show b2n true = 1 from rfl] at hf hp hz
      have hon (f : Fd) : (x.pmbShow 1).ldrEvent.on f = (x.pmbShow 1).on f := State.on_raiseIf _ _ _ _
      exact ⟨(hon _).trans hf, (hon _).trans hp, (hon _).trans hz⟩
  · rw [State.judgePolls, hfail, hno, hfails, if_neg (fun hc => absurd hc.2 (by omega)), if_neg (fun hc => absurd hc.1 Bool.false_ne_true)]
    exact hfail.trans hno

end

/-! ## A VOUT_COMMAND in its place (R298) -/

/-- What the place of a VOUT_COMMAND leaves. -/
structure SentVout (s t : State) : Prop where
  rest : t = { s with io := t.io, ldr := { s.ldr with vcmd := t.ldr.vcmd, sent := t.ldr.sent }, free := t.free }
  reg : ∀ a, a ∉ [Reg.PMB_VOUT_at, Reg.PMB_STATUS_at] → t.reg a = s.reg a
  read : t.rf Reg.PMB_VOUT.READ = s.rf Reg.PMB_VOUT.READ
  fail : t.on Reg.PMB_STATUS.FAIL = s.on Reg.PMB_STATUS.FAIL
  alert : t.on Reg.PMB_STATUS.ALERT = s.on Reg.PMB_STATUS.ALERT

section
variable (s : State)

theorem sentVout_refl : SentVout s s := ⟨rfl, fun _ _ => rfl, rfl, rfl, rfl⟩

theorem pmbWrite_eq (mv : Nat) : s.pmbWrite 0x21 (BitVec.ofNat 16 (voutMantissa mv (s.rf Reg.PMB_CFG.VEXP))) = voutBytes s mv := by
  have hlow (m : Nat) : (BitVec.ofNat 16 m).setWidth 8 = BitVec.ofNat 8 m := by
    apply BitVec.eq_of_toNat_eq
    simp only [BitVec.toNat_setWidth, BitVec.toNat_ofNat]
    exact Nat.mod_mod_of_dvd m (by decide)
  have hhigh (m : Nat) : (BitVec.ofNat 16 m >>> 8).setWidth 8 = BitVec.ofNat 8 (m / 256) := by
    apply BitVec.eq_of_toNat_eq
    simp only [BitVec.toNat_setWidth, BitVec.toNat_ushiftRight, BitVec.toNat_ofNat, Nat.shiftRight_eq_div_pow]
    omega
  rw [State.pmbWrite, pmbWord, hlow, hhigh, voutBytes]
  rfl

theorem sendVout_none (cmd : PmbReply) (h : s.ldr.vcmd = none) : s.sendVout cmd = s := by rw [State.sendVout, h]

/-- The state once a VOUT_COMMAND has passed on the bus, its mantissa `w`. -/
def voutSent (c : VoutCmd) (w : Nat × State) : State :=
  ((w.2.pmbSent (w.2.pmbWrite 0x21 (BitVec.ofNat 16 w.1))).wf Reg.PMB_VOUT.CMD c.mv).onLdr (fun l => { l with vcmd := none })

/-- The mantissa sent, with what it leaves of the free values. -/
def State.mantissa (s : State) (mv : Nat) : Nat × State :=
  if voutMantissa mv (s.rf Reg.PMB_CFG.VEXP) < 2 ^ 16 then (voutMantissa mv (s.rf Reg.PMB_CFG.VEXP), s) else (s.takeFree.1, s.takeFree.2)

theorem mantissa_keeps (mv : Nat) : ∃ n, (s.mantissa mv).2 = { s with free := n } := by
  unfold State.mantissa
  split
  · exact ⟨s.free, rfl⟩
  · exact ⟨s.free + 1, rfl⟩

/-- A waiting VOUT_COMMAND: dropped, left, or sent. -/
theorem sendVout_some (cmd : PmbReply) {c : VoutCmd} (h : s.ldr.vcmd = some c) : s.sendVout cmd =
    if c.by' = .step ∧ s.on Reg.SPLL_CTL.FWHOP then s.onLdr (fun l => { l with vcmd := none })
    else if c.by' = .step ∧ s.spState = spBypass then s
    else if cmd.ack && !cmd.low then voutSent c (s.mantissa c.mv) else (voutSent c (s.mantissa c.mv)).incSat Reg.PMB_STATUS.ERRS := by
  rw [State.sendVout, h]
  rfl

theorem sentVout_vcmd (v : Option VoutCmd) : SentVout s (s.onLdr (fun l => { l with vcmd := v })) := ⟨rfl, fun _ _ => rfl, rfl, rfl, rfl⟩

theorem voutSent_sends (c : VoutCmd) (hsent : s.ldr.sent = []) : SentVout s (voutSent c (s.mantissa c.mv)) ∧
    (voutSent c (s.mantissa c.mv)).ldr.vcmd = none ∧ (voutSent c (s.mantissa c.mv)).rf Reg.PMB_VOUT.CMD = c.mv % 2 ^ 16 ∧
    (c.mv < 1024 → s.rf Reg.PMB_CFG.VEXP < 16 ∨ 17 ≤ s.rf Reg.PMB_CFG.VEXP →
      (voutSent c (s.mantissa c.mv)).ldr.sent.head? = some (voutBytes s c.mv)) := by
  obtain ⟨n, hn⟩ := mantissa_keeps s c.mv
  have hbytes : c.mv < 1024 → s.rf Reg.PMB_CFG.VEXP < 16 ∨ 17 ≤ s.rf Reg.PMB_CFG.VEXP →
      s.pmbWrite 0x21 (BitVec.ofNat 16 (s.mantissa c.mv).1) = voutBytes s c.mv := fun hmv he => by
    rw [State.mantissa, if_pos (voutMantissa_lt hmv he (getBits_lt _ _ _)), pmbWrite_eq]
  rw [voutSent, hn]
  generalize (s.mantissa c.mv).1 = m at hbytes
  have hwrite : State.pmbWrite { s with free := n } 0x21 (BitVec.ofNat 16 m) = s.pmbWrite 0x21 (BitVec.ofNat 16 m) := rfl
  rw [hwrite]
  generalize s.pmbWrite 0x21 (BitVec.ofNat 16 m) = bs at hbytes
  generalize hx : State.pmbSent { s with free := n } bs = x
  have hxldr : x.ldr = { s.ldr with sent := [bs] } := by
    rw [← hx, State.pmbSent, State.onLdr, hsent]
    rfl
  have hxeq : x = { s with ldr := x.ldr, free := n } := by rw [← hx]; rfl
  have hxreg (a : Nat) : x.reg a = s.reg a := by rw [hxeq]; rfl
  have hregs := (regs_refl x [Reg.PMB_VOUT_at]).wf Reg.PMB_VOUT.CMD c.mv (.head _)
  have hread := x.rf_wf_other Reg.PMB_VOUT.CMD Reg.PMB_VOUT.READ c.mv (by decide)
  have hcmd : (x.wf Reg.PMB_VOUT.CMD c.mv).rf Reg.PMB_VOUT.CMD = c.mv % 2 ^ 16 := x.rf_wf_same _ _ (by decide)
  generalize x.wf Reg.PMB_VOUT.CMD c.mv = y at hregs hread hcmd
  have hy := hregs.eq_io
  have hyldr : y.ldr = { s.ldr with sent := [bs] } := by rw [hy, ← hxldr]
  have hyreg {a : Nat} (ha : a ≠ Reg.PMB_VOUT_at) : y.reg a = s.reg a := (hregs.2 a (fun hm => ha (List.mem_singleton.1 hm))).trans (hxreg a)
  have hyon {f : Fd} (hf : f.addr ≠ Reg.PMB_VOUT_at) : y.on f = s.on f := by rw [State.on, State.on, State.rf, State.rf, hyreg hf]
  have hxread : x.rf Reg.PMB_VOUT.READ = s.rf Reg.PMB_VOUT.READ := by rw [State.rf, State.rf, hxreg]
  refine ⟨⟨?_, fun a ha => hyreg (fun he => ha (by rw [he]; exact .head _)), hread.trans hxread, hyon (by decide), hyon (by decide)⟩, rfl, hcmd,
    fun hmv he => ?_⟩
  · rw [State.onLdr, hyldr, hy, hxeq]
  · rw [← hbytes hmv he]
    exact congrArg (fun l : Ldr => l.sent.head?) hyldr

theorem spState_bypass (s : State) : s.spState = spBypass ↔ s.rf Reg.SPLL_STATUS.STATE = 4 := Iff.rfl

/-- The errors counted change nothing of what a command's place is judged by. -/
theorem SentVout.incErrs {s t : State} (h : SentVout s t) : SentVout s (t.incSat Reg.PMB_STATUS.ERRS) ∧
    (t.incSat Reg.PMB_STATUS.ERRS).ldr = t.ldr ∧ (t.incSat Reg.PMB_STATUS.ERRS).rf Reg.PMB_VOUT.CMD = t.rf Reg.PMB_VOUT.CMD := by
  have hregs := (regs_refl t [Reg.PMB_STATUS_at]).incSat Reg.PMB_STATUS.ERRS 1 (.head _)
  have hfail : (t.incSat Reg.PMB_STATUS.ERRS).on Reg.PMB_STATUS.FAIL = t.on Reg.PMB_STATUS.FAIL := t.on_incSat_other _ _ _ (by decide)
  have halert : (t.incSat Reg.PMB_STATUS.ERRS).on Reg.PMB_STATUS.ALERT = t.on Reg.PMB_STATUS.ALERT := t.on_incSat_other _ _ _ (by decide)
  generalize t.incSat Reg.PMB_STATUS.ERRS = u at hregs hfail halert
  have hu := hregs.eq_io
  have hrf (f : Fd) (hf : f.addr ∉ [Reg.PMB_STATUS_at]) : u.rf f = t.rf f := by rw [State.rf, State.rf, hregs.2 _ hf]
  refine ⟨⟨by rw [hu, h.rest], fun a ha => ?_, (hrf _ (by decide)).trans h.read, hfail.trans h.fail, halert.trans h.alert⟩, by rw [hu], hrf _ (by decide)⟩
  exact (hregs.2 a (fun hm => ha (.tail _ hm))).trans (h.reg a ha)

/-- A round's VOUT_COMMAND takes its place, `t` the state after it. -/
theorem sendVout_places (cmd : PmbReply) (hsent : s.ldr.sent = []) : SentVout s (s.sendVout cmd) ∧ VoutPlace s (s.sendVout cmd) := by
  cases h : s.ldr.vcmd with
  | none =>
    rw [sendVout_none s cmd h, VoutPlace, h]
    exact ⟨sentVout_refl s, rfl, rfl⟩
  | some c =>
    rw [sendVout_some s cmd h, VoutPlace, h]
    dsimp only
    by_cases hdrop : c.by' = .step ∧ s.on Reg.SPLL_CTL.FWHOP = true
    · rw [if_pos hdrop]
      refine ⟨sentVout_vcmd s none, fun _ _ => ⟨rfl, rfl⟩, fun _ hf => ?_, fun hc => ?_⟩
      · rw [hdrop.2] at hf; cases hf
      · rcases hc with hc | ⟨hf, -⟩
        · exact absurd hdrop.1 hc
        · rw [hdrop.2] at hf; cases hf
    · rw [if_neg hdrop]
      by_cases hwait : c.by' = .step ∧ s.spState = spBypass
      · rw [if_pos hwait]
        refine ⟨sentVout_refl s, fun h1 h2 => absurd ⟨h1, h2⟩ hdrop, fun _ _ _ => ⟨h, rfl⟩, fun hc => ?_⟩
        rcases hc with hc | ⟨-, hc⟩
        · exact absurd hwait.1 hc
        · exact absurd ((spState_bypass s).1 hwait.2) hc
      · rw [if_neg hwait]
        obtain ⟨hkeep, hvcmd, hcmd, hbytes⟩ := voutSent_sends s c hsent
        generalize voutSent c (s.mantissa c.mv) = t at hkeep hvcmd hcmd hbytes
        have hend : ∀ u, SentVout s u → u.ldr = t.ldr → u.rf Reg.PMB_VOUT.CMD = t.rf Reg.PMB_VOUT.CMD → SentVout s u ∧
            (c.by' = .step → s.on Reg.SPLL_CTL.FWHOP = true → u.ldr.vcmd = none ∧ u.rf Reg.PMB_VOUT.CMD = s.rf Reg.PMB_VOUT.CMD) ∧
            (c.by' = .step → s.on Reg.SPLL_CTL.FWHOP = false → s.rf Reg.SPLL_STATUS.STATE = 4 →
              u.ldr.vcmd = some c ∧ u.rf Reg.PMB_VOUT.CMD = s.rf Reg.PMB_VOUT.CMD) ∧
            (c.by' ≠ .step ∨ (s.on Reg.SPLL_CTL.FWHOP = false ∧ s.rf Reg.SPLL_STATUS.STATE ≠ 4) →
              u.ldr.vcmd = none ∧ u.rf Reg.PMB_VOUT.CMD = c.mv % 2 ^ 16 ∧
              (c.mv < 1024 → s.rf Reg.PMB_CFG.VEXP < 16 ∨ 17 ≤ s.rf Reg.PMB_CFG.VEXP → u.ldr.sent.head? = some (voutBytes s c.mv))) := by
          intro u hu hldr hrf
          refine ⟨hu, fun h1 h2 => absurd ⟨h1, h2⟩ hdrop, fun h1 _ h3 => absurd ⟨h1, (spState_bypass s).2 h3⟩ hwait, fun _ => ?_⟩
          rw [hldr, hrf]
          exact ⟨hvcmd, hcmd, hbytes⟩
        split
        · exact hend t hkeep rfl rfl
        · obtain ⟨hkeep', hldr, hrf⟩ := hkeep.incErrs
          exact hend _ hkeep' hldr hrf

end

/-! ## A round of polls (R298) -/

/-- The registers that a round of polls writes. -/
def pollRegs : List Nat := [Reg.PMB_STATUS_at, Reg.LDR_STATUS_at, Reg.LDR_TRIM_at, Reg.PMB_VOUT_at, Reg.PMB_IOUT_at]

/-- What a poll of a round leaves: the counts and the transactions noted apart, the Load-rating unit and the SPLL are as they were. -/
structure PollStep (s t : State) : Prop where
  ldr : t.ldr = { s.ldr with fails := t.ldr.fails, oks := t.ldr.oks, sent := t.ldr.sent }
  sent : ∃ l, t.ldr.sent = s.ldr.sent ++ l
  spll : t.spll = s.spll
  reg : ∀ a, a ∉ pollRegs → t.reg a = s.reg a

section
variable {s t u : State}

theorem PollStep.trans (h : PollStep s t) (k : PollStep t u) : PollStep s u := by
  obtain ⟨l, hl⟩ := h.sent
  obtain ⟨m, hm⟩ := k.sent
  refine ⟨?_, ⟨l ++ m, by rw [hm, hl, List.append_assoc]⟩, k.spll.trans h.spll, fun a ha => (k.reg a ha).trans (h.reg a ha)⟩
  rw [k.ldr, h.ldr]

theorem Polls.step (h : Polls s t) : PollStep s t := by
  have hldr : t.ldr = { s.ldr with fails := t.ldr.fails, oks := t.ldr.oks } := by rw [h.rest]
  refine ⟨by rw [hldr], ⟨[], by rw [hldr, List.append_nil]⟩, by rw [h.rest], fun a ha => h.reg a (fun hm => ha ?_)⟩
  simp only [List.mem_cons, List.not_mem_nil, or_false] at hm
  simp only [pollRegs, List.mem_cons, List.not_mem_nil, or_false]
  tauto

theorem pmbSent_step (bs : List Byte) : PollStep s (s.pmbSent bs) := ⟨rfl, ⟨[bs], rfl⟩, rfl, fun _ _ => rfl⟩

theorem wf_step (f : Fd) (v : Nat) (hf : f.addr ∈ pollRegs) : PollStep s (s.wf f v) := by
  have hregs := (regs_refl s [f.addr]).wf f v (.head _)
  have heq := hregs.eq_io
  exact ⟨by rw [heq], ⟨[], by rw [heq, List.append_nil]⟩, by rw [heq], fun a ha => hregs.2 a (fun hm => ha (by rw [List.mem_singleton.1 hm]; exact hf))⟩

theorem reg_ldrEvent (t : State) (a : Nat) : t.ldrEvent.reg a = t.reg a := by rw [State.reg, State.reg, ldrEvent_polls]

theorem PollStep.event (h : PollStep s t) : PollStep s t.ldrEvent := by
  have heq := ldrEvent_polls t
  have hldr : t.ldrEvent.ldr = t.ldr := by rw [heq]
  have hspll : t.ldrEvent.spll = t.spll := by rw [heq]
  have hreg := reg_ldrEvent t
  generalize t.ldrEvent = u at hldr hspll hreg
  exact ⟨by rw [hldr]; exact h.ldr, by rw [hldr]; exact h.sent, hspll.trans h.spll, fun a ha => (hreg a).trans (h.reg a ha)⟩

theorem PollStep.cfg (h : PollStep s t) : t.reg Reg.PMB_CFG_at = s.reg Reg.PMB_CFG_at := h.reg _ (by decide)

end

/-- Fields of PMB_VOUT, PMB_IOUT and ALERT are not judged by a poll. -/
theorem Polls.rf {s t : State} (h : Polls s t) (f : Fd) (hf : f.addr = Reg.PMB_VOUT_at ∨ f.addr = Reg.PMB_IOUT_at) : t.rf f = s.rf f := by
  rw [State.rf, State.rf, h.reg _ (by rcases hf with hf | hf <;> rw [hf] <;> decide)]

/-- The transactions of a round, each as it is judged. -/
def State.vout (s : State) (r : PmbReply) : State := (s.pmbSent (s.pmbRead 0x8B r)).pollVout (s.pmbGot 0x8B r)
def State.iout (s : State) (r : PmbReply) : State := (s.pmbSent (s.pmbRead 0x8C r)).pollIout (s.pmbGot 0x8C r)
def State.sword (s : State) (r : PmbReply) : State := (s.pmbSent (s.pmbRead 0x79 r)).pollStatus (s.pmbGot 0x79 r)

/-- The state a round begins with: a command in its place. -/
def State.placed (s : State) (cmd : PmbReply) : State := (s.onLdr (fun l => { l with sent := [] })).sendVout cmd

section
variable (s : State) (cmd v i w : PmbReply)

theorem placed_places : SentVout s (s.placed cmd) ∧ VoutPlace s (s.placed cmd) := by
  obtain ⟨hkeep, hplace⟩ := sendVout_places (s.onLdr (fun l => { l with sent := [] })) cmd rfl
  refine ⟨⟨hkeep.rest, hkeep.reg, hkeep.read, hkeep.fail, hkeep.alert⟩, hplace⟩

/-- A round with no up-step polls all three. -/
theorem pmbusPoll_eq (h : s.ldr.step = none) : s.pmbusPoll cmd v i w =
    (match (s.placed cmd).pmbGot 0x8B v, ((s.placed cmd).vout v).pmbGot 0x8C i with
    | some x, some y => ((((s.placed cmd).vout v).iout i).sword w).onLdr (fun l => { l with
        rail := l.rail + (((((s.placed cmd).vout v).iout i).sword w).voutMv x * iout10 y * 10 *
          (if ((((s.placed cmd).vout v).iout i).sword w).on Reg.PMB_CFG.SPEED then 1 else 2)) })
    | _, _ => (((s.placed cmd).vout v).iout i).sword w) := by
  rw [State.pmbusPoll, h]
  rfl

/-- READ_VOUT answered: stored. -/
theorem vout_stores {x : State} {r : PmbReply} {mv : Nat} (hgot : x.pmbGot 0x8B r = some r.word) (hmv : x.voutMv r.word = mv) (hlt : mv < 2 ^ 16)
    (hstep : x.ldr.step = none) (hkey : x.spll.key ≠ .volt) : PollStep x (x.vout r) ∧ (x.vout r).rf Reg.PMB_VOUT.READ = mv ∧
    (x.vout r).rf Reg.PMB_VOUT.CMD = x.rf Reg.PMB_VOUT.CMD ∧ (x.vout r).ldr.oks = x.ldr.oks + 1 ∧
    (x.vout r).on Reg.PMB_STATUS.FAIL = (x.on Reg.PMB_STATUS.FAIL && decide (x.ldr.oks + 1 < 3)) ∧
    (x.vout r).on Reg.PMB_STATUS.ALERT = x.on Reg.PMB_STATUS.ALERT := by
  have hpolls := pollResult_polls (x.pmbSent (x.pmbRead 0x8B r)) true
  obtain ⟨hoks, hfail⟩ := pollResult_ok (x.pmbSent (x.pmbRead 0x8B r))
  have hdef : x.vout r = ((((x.pmbSent (x.pmbRead 0x8B r)).pollResult true).putReading Reg.PMB_VOUT.READ mv).stepVout mv).keyVout mv := by
    rw [State.vout, hgot, ← hmv]
    rfl
  rw [hdef]
  have hfirst := (pmbSent_step (s := x) (x.pmbRead 0x8B r)).trans hpolls.step
  change (State.pollResult _ true).ldr.oks = x.ldr.oks + 1 at hoks
  change (State.pollResult _ true).on _ = (x.on _ && decide (x.ldr.oks + 1 < 3)) at hfail
  have hcmd : ((x.pmbSent (x.pmbRead 0x8B r)).pollResult true).rf Reg.PMB_VOUT.CMD = x.rf Reg.PMB_VOUT.CMD := hpolls.rf _ (.inl rfl)
  have halert : ((x.pmbSent (x.pmbRead 0x8B r)).pollResult true).on Reg.PMB_STATUS.ALERT = x.on Reg.PMB_STATUS.ALERT := hpolls.alert
  generalize (x.pmbSent (x.pmbRead 0x8B r)).pollResult true = y at hoks hfail hcmd halert hfirst
  have hput : y.putReading Reg.PMB_VOUT.READ mv = y.wf Reg.PMB_VOUT.READ mv := if_pos hlt
  have hw := wf_step (s := y) Reg.PMB_VOUT.READ mv (by decide)
  have hread : (y.wf Reg.PMB_VOUT.READ mv).rf Reg.PMB_VOUT.READ = mv := (y.rf_wf_same _ _ (by decide)).trans (Nat.mod_eq_of_lt hlt)
  have hcmd' := (y.rf_wf_other Reg.PMB_VOUT.READ Reg.PMB_VOUT.CMD mv (by decide)).trans hcmd
  have hfail' := (y.on_wf_other Reg.PMB_VOUT.READ Reg.PMB_STATUS.FAIL mv (by decide)).trans hfail
  have halert' := (y.on_wf_other Reg.PMB_VOUT.READ Reg.PMB_STATUS.ALERT mv (by decide)).trans halert
  have hoks' : (y.wf Reg.PMB_VOUT.READ mv).ldr.oks = y.ldr.oks := rfl
  rw [hput]
  generalize y.wf Reg.PMB_VOUT.READ mv = z at hw hread hcmd' hfail' halert' hoks'
  have hall := hfirst.trans hw
  have hzstep : z.ldr.step = none := by rw [hall.ldr]; exact hstep
  have hno : z.stepVout mv = z := by rw [State.stepVout, hzstep]
  rw [hno, show z.keyVout mv = z from if_neg (fun hc => hkey (by rw [← hall.spll]; exact hc.1))]
  exact ⟨hall, hread, hcmd', hoks'.trans hoks, hfail', halert'⟩

/-- READ_IOUT answered: stored. -/
theorem iout_stores {x : State} {r : PmbReply} {ma : Nat} (hgot : x.pmbGot 0x8C r = some r.word) (hma : iout10 r.word = ma) (hlt : ma < 2 ^ 16) :
    PollStep x (x.iout r) ∧ (x.iout r).rf Reg.PMB_IOUT.READ = ma ∧
    (x.iout r).reg Reg.PMB_VOUT_at = x.reg Reg.PMB_VOUT_at ∧ (x.iout r).ldr.oks = x.ldr.oks + 1 ∧
    (x.iout r).on Reg.PMB_STATUS.FAIL = (x.on Reg.PMB_STATUS.FAIL && decide (x.ldr.oks + 1 < 3)) ∧
    (x.iout r).on Reg.PMB_STATUS.ALERT = x.on Reg.PMB_STATUS.ALERT := by
  have hpolls := pollResult_polls (x.pmbSent (x.pmbRead 0x8C r)) true
  obtain ⟨hoks, hfail⟩ := pollResult_ok (x.pmbSent (x.pmbRead 0x8C r))
  have hdef : x.iout r = ((x.pmbSent (x.pmbRead 0x8C r)).pollResult true).putReading Reg.PMB_IOUT.READ ma := by
    rw [State.iout, hgot, ← hma]
    rfl
  rw [hdef, show State.putReading _ Reg.PMB_IOUT.READ ma = State.wf _ Reg.PMB_IOUT.READ ma from if_pos hlt]
  have hfirst := (pmbSent_step (s := x) (x.pmbRead 0x8C r)).trans hpolls.step
  change (State.pollResult _ true).ldr.oks = x.ldr.oks + 1 at hoks
  change (State.pollResult _ true).on _ = (x.on _ && decide (x.ldr.oks + 1 < 3)) at hfail
  have hvout : ((x.pmbSent (x.pmbRead 0x8C r)).pollResult true).reg Reg.PMB_VOUT_at = x.reg Reg.PMB_VOUT_at := hpolls.reg _ (by decide)
  have halert : ((x.pmbSent (x.pmbRead 0x8C r)).pollResult true).on Reg.PMB_STATUS.ALERT = x.on Reg.PMB_STATUS.ALERT := hpolls.alert
  generalize (x.pmbSent (x.pmbRead 0x8C r)).pollResult true = y at hoks hfail hvout halert hfirst
  exact ⟨hfirst.trans (wf_step Reg.PMB_IOUT.READ ma (by decide)), (y.rf_wf_same _ _ (by decide)).trans (Nat.mod_eq_of_lt hlt),
    (y.reg_setReg_other _ _ _ (by decide)).trans hvout, hoks, (y.on_wf_other Reg.PMB_IOUT.READ Reg.PMB_STATUS.FAIL ma (by decide)).trans hfail,
    (y.on_wf_other Reg.PMB_IOUT.READ Reg.PMB_STATUS.ALERT ma (by decide)).trans halert⟩

/-- STATUS_WORD answered: stored, an alert where a bit is set. -/
theorem sword_stores {x : State} {r : PmbReply} (hgot : x.pmbGot 0x79 r = some r.word) :
    PollStep x (x.sword r) ∧ (x.sword r).rf Reg.PMB_STATUS.SWORD = r.word.toNat ∧
    (x.sword r).reg Reg.PMB_VOUT_at = x.reg Reg.PMB_VOUT_at ∧ (x.sword r).reg Reg.PMB_IOUT_at = x.reg Reg.PMB_IOUT_at ∧
    (x.sword r).on Reg.PMB_STATUS.FAIL = (x.on Reg.PMB_STATUS.FAIL && decide (x.ldr.oks + 1 < 3)) ∧
    (x.sword r).on Reg.PMB_STATUS.ALERT = (x.on Reg.PMB_STATUS.ALERT || r.word != 0) := by
  have hpolls := pollResult_polls (x.pmbSent (x.pmbRead 0x79 r)) true
  obtain ⟨-, hfail⟩ := pollResult_ok (x.pmbSent (x.pmbRead 0x79 r))
  have hdef : x.sword r = (fun y : State => if r.word = 0 then y else (y.wf Reg.PMB_STATUS.ALERT 1).ldrEvent)
      (((x.pmbSent (x.pmbRead 0x79 r)).pollResult true).wf Reg.PMB_STATUS.SWORD r.word.toNat) := by
    rw [State.sword, hgot]
    rfl
  rw [hdef]
  dsimp only
  have hfirst := (pmbSent_step (s := x) (x.pmbRead 0x79 r)).trans hpolls.step
  change (State.pollResult _ true).on _ = (x.on _ && decide (x.ldr.oks + 1 < 3)) at hfail
  have hvout : ((x.pmbSent (x.pmbRead 0x79 r)).pollResult true).reg Reg.PMB_VOUT_at = x.reg Reg.PMB_VOUT_at := hpolls.reg _ (by decide)
  have hiout : ((x.pmbSent (x.pmbRead 0x79 r)).pollResult true).reg Reg.PMB_IOUT_at = x.reg Reg.PMB_IOUT_at := hpolls.reg _ (by decide)
  have halert : ((x.pmbSent (x.pmbRead 0x79 r)).pollResult true).on Reg.PMB_STATUS.ALERT = x.on Reg.PMB_STATUS.ALERT := hpolls.alert
  generalize (x.pmbSent (x.pmbRead 0x79 r)).pollResult true = y at hfail hvout hiout halert hfirst
  have hw := hfirst.trans (wf_step (s := y) Reg.PMB_STATUS.SWORD r.word.toNat (by decide))
  have hsword : (y.wf Reg.PMB_STATUS.SWORD r.word.toNat).rf Reg.PMB_STATUS.SWORD = r.word.toNat :=
    (y.rf_wf_same _ _ (by decide)).trans (Nat.mod_eq_of_lt r.word.isLt)
  have hreg (a : Nat) (ha : a ≠ Reg.PMB_STATUS_at) : (y.wf Reg.PMB_STATUS.SWORD r.word.toNat).reg a = y.reg a := y.reg_setReg_other _ _ _ ha
  have hfail' := (y.on_wf_other Reg.PMB_STATUS.SWORD Reg.PMB_STATUS.FAIL r.word.toNat (by decide)).trans hfail
  have halert' := (y.on_wf_other Reg.PMB_STATUS.SWORD Reg.PMB_STATUS.ALERT r.word.toNat (by decide)).trans halert
  have hv := (hreg Reg.PMB_VOUT_at (by decide)).trans hvout
  have hi := (hreg Reg.PMB_IOUT_at (by decide)).trans hiout
  clear hreg
  generalize y.wf Reg.PMB_STATUS.SWORD r.word.toNat = z at hw hsword hfail' halert' hv hi
  by_cases h : r.word = 0
  · rw [if_pos h]
    refine ⟨hw, hsword, hv, hi, hfail', halert'.trans ?_⟩
    rw [h, bne_self_eq_false, Bool.or_false]
  · rw [if_neg h]
    have hstep := hw.trans (wf_step (s := z) Reg.PMB_STATUS.ALERT 1 (by decide))
    have hset : (z.wf Reg.PMB_STATUS.ALERT 1).on Reg.PMB_STATUS.ALERT = true := z.on_wf_b2n true Reg.PMB_STATUS.ALERT (by decide) rfl
    have hreg (a : Nat) (ha : a ≠ Reg.PMB_STATUS_at) : (z.wf Reg.PMB_STATUS.ALERT 1).reg a = z.reg a := z.reg_setReg_other _ _ _ ha
    have hfail'' := (z.on_wf_other Reg.PMB_STATUS.ALERT Reg.PMB_STATUS.FAIL 1 (by decide)).trans hfail'
    have hsword' := (z.rf_wf_other Reg.PMB_STATUS.ALERT Reg.PMB_STATUS.SWORD 1 (by decide)).trans hsword
    have hv' := (hreg Reg.PMB_VOUT_at (by decide)).trans hv
    have hi' := (hreg Reg.PMB_IOUT_at (by decide)).trans hi
    clear hreg
    generalize z.wf Reg.PMB_STATUS.ALERT 1 = e at hstep hset hfail'' hsword' hv' hi'
    refine ⟨hstep.event, (State.rf_raiseIf _ _ _ _).trans hsword', (reg_ldrEvent e _).trans hv', (reg_ldrEvent e _).trans hi',
      (State.on_raiseIf _ _ _ _).trans hfail'', (State.on_raiseIf _ _ _ _).trans (hset.trans ?_)⟩
    rw [bne_iff_ne.2 h, Bool.or_true]

/-- A command's place is kept by the polls after it. -/
theorem voutPlace_keep {s t u : State} (h : VoutPlace s t) (hvcmd : u.ldr.vcmd = t.ldr.vcmd) (hcmd : u.rf Reg.PMB_VOUT.CMD = t.rf Reg.PMB_VOUT.CMD)
    (hsent : ∃ l, u.ldr.sent = t.ldr.sent ++ l) : VoutPlace s u := by
  obtain ⟨l, hl⟩ := hsent
  have hhead {b : List Byte} (hb : t.ldr.sent.head? = some b) : u.ldr.sent.head? = some b := by
    rw [hl, List.head?_append, hb]
    rfl
  rw [VoutPlace] at h ⊢
  cases hc : s.ldr.vcmd with
  | none =>
    rw [hc] at h
    dsimp only at h ⊢
    rw [hvcmd, hcmd]
    exact h
  | some c =>
    rw [hc] at h
    dsimp only at h ⊢
    rw [hvcmd, hcmd]
    obtain ⟨h1, h2, h3⟩ := h
    exact ⟨h1, h2, fun hcase => ⟨(h3 hcase).1, (h3 hcase).2.1, fun ha hb => hhead ((h3 hcase).2.2 ha hb)⟩⟩

theorem SentVout.cfg {s t : State} (h : SentVout s t) : t.reg Reg.PMB_CFG_at = s.reg Reg.PMB_CFG_at := h.reg _ (by decide)

/-- The two numbers a round stores. -/
def voutOf (s : State) (v : PmbReply) : Nat := nearest v.word.toNat 1000 (s.rf Reg.PMB_CFG.VEXP)
def ioutOf (i : PmbReply) : Nat := if i.word.getLsbD 10 then 0 else nearest (i.word.toNat % 2 ^ 10) 100 (i.word.toNat / 2 ^ 11)

/-- A round in which every poll is answered (R298, R299). -/
theorem pmbusPoll_answered (hstep : s.ldr.step = none) (hkey : s.spll.key ≠ .volt) (hmv : voutOf s v < 2 ^ 16) (hma : ioutOf i < 2 ^ 16)
    (hv : PmbAnswered s 0x8B v) (hi : PmbAnswered s 0x8C i) (hw : PmbAnswered s 0x79 w) : Does (.pmbusPoll cmd v i w) s (fun t =>
      t.rf Reg.PMB_VOUT.READ = voutOf s v ∧ t.rf Reg.PMB_IOUT.READ = ioutOf i ∧ t.rf Reg.PMB_STATUS.SWORD = w.word.toNat ∧
      t.on Reg.PMB_STATUS.FAIL = false ∧ t.on Reg.PMB_STATUS.ALERT = (s.on Reg.PMB_STATUS.ALERT || w.word != 0) ∧
      t.ldr.rail = s.ldr.rail + voutOf s v * ioutOf i * 10 * (if s.on Reg.PMB_CFG.SPEED then 1 else 2) ∧ VoutPlace s t) := by
  obtain ⟨hkeep, hplace⟩ := placed_places s cmd
  have hrun := pmbusPoll_eq s cmd v i w hstep
  generalize s.placed cmd = a at hkeep hplace hrun
  have haldr : a.ldr.step = none ∧ a.ldr.rail = s.ldr.rail := by rw [hkeep.rest]; exact ⟨hstep, rfl⟩
  have hakey : a.spll.key ≠ .volt := by rw [hkeep.rest]; exact hkey
  have hgotv : a.pmbGot 0x8B v = some v.word := (pmbGot_congr s hkeep.cfg _ _).trans (pmbGot_answered s hv)
  obtain ⟨hb, hbread, hbcmd, hboks, hbfail, hbalert⟩ := vout_stores hgotv (voutMv_eq s hkeep.cfg v.word) hmv haldr.1 hakey
  rw [hgotv] at hrun
  generalize a.vout v = b at hb hbread hbcmd hboks hbfail hbalert hrun
  have hbcfg := hb.cfg.trans hkeep.cfg
  have hgoti : b.pmbGot 0x8C i = some i.word := (pmbGot_congr s hbcfg _ _).trans (pmbGot_answered s hi)
  obtain ⟨hc, hcread, hcvout, hcoks, hcfail, hcalert⟩ := iout_stores hgoti (iout10_eq i.word) hma
  rw [hgoti] at hrun
  generalize b.iout i = c at hc hcread hcvout hcoks hcfail hcalert hrun
  have hccfg := hc.cfg.trans hbcfg
  have hgotw : c.pmbGot 0x79 w = some w.word := (pmbGot_congr s hccfg _ _).trans (pmbGot_answered s hw)
  obtain ⟨hd, hdsword, hdvout, hdiout, hdfail, hdalert⟩ := sword_stores hgotw
  generalize c.sword w = d at hd hdsword hdvout hdiout hdfail hdalert hrun
  have hdcfg := hd.cfg.trans hccfg
  have hall := (hb.trans hc).trans hd
  have hrail : d.ldr.rail = s.ldr.rail := by rw [hall.ldr]; exact haldr.2
  have hspeed : d.on Reg.PMB_CFG.SPEED = s.on Reg.PMB_CFG.SPEED := by
    rw [State.on, State.on, State.rf, State.rf]
    exact congrArg (fun w => getBits w 7 1 != 0) hdcfg
  have hvoutrf (f : Fd) (hf : f.addr = Reg.PMB_VOUT_at) : d.rf f = b.rf f := by rw [State.rf, State.rf, hf, hdvout, hcvout]
  dsimp only at hrun
  rw [voutMv_eq s hdcfg, iout10_eq, hspeed] at hrun
  refine ⟨_, congrArg Host.Outcome.next hrun, (hvoutrf Reg.PMB_VOUT.READ rfl).trans hbread, ?_, hdsword, ?_, ?_, ?_, ?_⟩
  · refine Eq.trans ?_ hcread
    exact congrArg (fun w => getBits w 0 16) hdiout
  · refine hdfail.trans ?_
    rw [hcoks, hboks, decide_eq_false (show ¬ a.ldr.oks + 1 + 1 + 1 < 3 by omega), Bool.and_false]
  · refine hdalert.trans ?_
    rw [hcalert, hbalert, hkeep.alert]
  · exact congrArg (· + _) hrail
  · refine voutPlace_keep hplace ?_ ((hvoutrf Reg.PMB_VOUT.CMD rfl).trans hbcmd) hall.sent
    exact (congrArg Ldr.vcmd hall.ldr :)

/-- A transaction that fails, judged. -/
theorem failed_poll (x : State) (bs : List Byte) : PollStep x ((x.pmbSent bs).pollResult false) ∧
    ((x.pmbSent bs).pollResult false).rf Reg.PMB_VOUT.READ = x.rf Reg.PMB_VOUT.READ ∧
    ((x.pmbSent bs).pollResult false).ldr.fails = x.ldr.fails + 1 ∧
    ((x.pmbSent bs).pollResult false).rf Reg.PMB_STATUS.ERRS = min 255 (x.rf Reg.PMB_STATUS.ERRS + 1) ∧
    (FailShown x ∨ (x.on Reg.PMB_STATUS.FAIL = false ∧ 3 ≤ x.ldr.fails + 1) → FailShown ((x.pmbSent bs).pollResult false)) ∧
    (x.on Reg.PMB_STATUS.FAIL = false → x.ldr.fails + 1 < 3 → ((x.pmbSent bs).pollResult false).on Reg.PMB_STATUS.FAIL = false) := by
  have hpolls := pollResult_polls (x.pmbSent bs) false
  exact ⟨(pmbSent_step bs).trans hpolls.step, hpolls.rf _ (.inl rfl), pollResult_failed (x.pmbSent bs)⟩

/-- FAIL shown, or still short of the third failure. -/
def FailSoFar (s : State) : Prop := FailShown s ∨ s.on Reg.PMB_STATUS.FAIL = false

theorem failed_soFar {x : State} (bs : List Byte) (h : FailSoFar x) : FailSoFar ((x.pmbSent bs).pollResult false) := by
  obtain ⟨-, -, -, -, hshown, hnot⟩ := failed_poll x bs
  rcases h with h | h
  · exact .inl (hshown (.inl h))
  · by_cases hmany : 3 ≤ x.ldr.fails + 1
    · exact .inl (hshown (.inr ⟨h, hmany⟩))
    · exact .inr (hnot h (by omega))

/-- A round in which no poll is answered (R300). -/
theorem pmbusPoll_failed (hstep : s.ldr.step = none) (hno : s.on Reg.PMB_STATUS.FAIL = false) (hvcmd : s.ldr.vcmd = none)
    (hv : PmbFailed s 0x8B v) (hi : PmbFailed s 0x8C i) (hw : PmbFailed s 0x79 w) : Does (.pmbusPoll cmd v i w) s (fun t =>
      t.on Reg.PMB_STATUS.FAIL = true ∧ t.on Reg.LDR_STATUS.PMB_FAIL = true ∧ t.on Reg.LDR_TRIM.FROZEN = true ∧
      t.rf Reg.PMB_STATUS.ERRS = min 255 (s.rf Reg.PMB_STATUS.ERRS + 3) ∧ t.rf Reg.PMB_VOUT.READ = s.rf Reg.PMB_VOUT.READ) := by
  have hplaced : s.placed cmd = s.onLdr (fun l => { l with sent := [] }) := sendVout_none _ cmd hvcmd
  have hrun := pmbusPoll_eq s cmd v i w hstep
  rw [hplaced] at hrun
  have hafail : (s.onLdr (fun l => { l with sent := [] })).on Reg.PMB_STATUS.FAIL = false := hno
  have haerrs : (s.onLdr (fun l => { l with sent := [] })).rf Reg.PMB_STATUS.ERRS = s.rf Reg.PMB_STATUS.ERRS := rfl
  have haread : (s.onLdr (fun l => { l with sent := [] })).rf Reg.PMB_VOUT.READ = s.rf Reg.PMB_VOUT.READ := rfl
  have hacfg : (s.onLdr (fun l => { l with sent := [] })).reg Reg.PMB_CFG_at = s.reg Reg.PMB_CFG_at := rfl
  generalize s.onLdr (fun l => { l with sent := [] }) = a at hrun hafail haerrs haread hacfg
  have hgotv : a.pmbGot 0x8B v = none := (pmbGot_congr s hacfg _ _).trans (pmbGot_failed s hv)
  have hvout : a.vout v = (a.pmbSent (a.pmbRead 0x8B v)).pollResult false := by rw [State.vout, hgotv]; rfl
  obtain ⟨hb, hbread, hbfails, hberrs, hbshown, hbnot⟩ := failed_poll a (a.pmbRead 0x8B v)
  have hbso := failed_soFar (a.pmbRead 0x8B v) (.inr hafail)
  rw [hgotv, hvout] at hrun
  generalize (a.pmbSent (a.pmbRead 0x8B v)).pollResult false = b at hb hbread hbfails hberrs hbshown hbnot hbso hrun
  have hbcfg := hb.cfg.trans hacfg
  have hgoti : b.pmbGot 0x8C i = none := (pmbGot_congr s hbcfg _ _).trans (pmbGot_failed s hi)
  have hiout : b.iout i = (b.pmbSent (b.pmbRead 0x8C i)).pollResult false := by rw [State.iout, hgoti]; rfl
  obtain ⟨hc, hcread, hcfails, hcerrs, hcshown, hcnot⟩ := failed_poll b (b.pmbRead 0x8C i)
  have hcso := failed_soFar (b.pmbRead 0x8C i) hbso
  rw [hiout] at hrun
  generalize (b.pmbSent (b.pmbRead 0x8C i)).pollResult false = c at hc hcread hcfails hcerrs hcshown hcnot hcso hrun
  have hccfg := hc.cfg.trans hbcfg
  have hgotw : c.pmbGot 0x79 w = none := (pmbGot_congr s hccfg _ _).trans (pmbGot_failed s hw)
  have hsword : c.sword w = (c.pmbSent (c.pmbRead 0x79 w)).pollResult false := by rw [State.sword, hgotw]; rfl
  obtain ⟨hd, hdread, hdfails, hderrs, hdshown, hdnot⟩ := failed_poll c (c.pmbRead 0x79 w)
  rw [hsword] at hrun
  generalize (c.pmbSent (c.pmbRead 0x79 w)).pollResult false = d at hd hdread hdfails hderrs hdshown hdnot hrun
  have hshown : FailShown d := by
    refine hdshown ?_
    rcases hcso with h | h
    · exact .inl h
    · exact .inr ⟨h, by omega⟩
  obtain ⟨hfail, hpmb, hfrozen⟩ := hshown
  refine ⟨d, congrArg Host.Outcome.next hrun, hfail, hpmb, hfrozen, ?_, ?_⟩
  · rw [hderrs, hcerrs, hberrs, haerrs]
    omega
  · rw [hdread, hcread, hbread, haread]

end

/-- Settles O37: a set of readings is stored, its hottest found and judged once; each poll of a round stores its number or counts a failure. -/
theorem sensorsAndPollsAreJudged : Obligations.SensorsAndPollsAreJudged := by
  refine ⟨fun rs s => ?_, fun cmd v i w s hstep hkey => ⟨fun hmv hma hv hi hw => pmbusPoll_answered s cmd v i w hstep hkey hmv hma hv hi hw,
    fun hno hvcmd hv hi hw => pmbusPoll_failed s cmd v i w hstep hno hvcmd hv hi hw⟩⟩
  obtain ⟨u, hu, ht⟩ := thermalSample_judged rs s
  obtain ⟨hshown, hdeg, hvalid⟩ := judged_outcome rs hu ht
  exact ⟨_, rfl, hshown, hdeg, hvalid, fun k m hk hm hmax => hottest_outcome rs s hk hm hmax⟩

end Sys2Proof.Machine
end

section
/-!
PROOFS. The panel (spec/20): what one key's turn of a scan changes, what it leaves to the other keys, and PNL_CTL written.
-/

namespace Sys2Proof.Machine
open Sys2Proof.Claims

/-! ## What a change leaves to the keys -/

/-- Nothing changes but registers, keys and events. -/
def OnlyKeys (s t : State) : Prop :=
  t = { s with io := t.io, panel := { s.panel with keys := t.panel.keys }, net := { s.net with events := t.net.events } }

theorem OnlyKeys.trans {s t u : State} (h : OnlyKeys s t) (h' : OnlyKeys t u) : OnlyKeys s u :=
  Eq.trans h' (congrArg (fun x : State => { x with
    io := u.io, panel := { x.panel with keys := u.panel.keys }, net := { x.net with events := u.net.events } }) h)

theorem onlyKeys_setReg (s : State) (a : Nat) (v : Word) : OnlyKeys s (s.setReg a v) := rfl

theorem State.panel_setReg (s : State) (a : Nat) (v : Word) : (s.setReg a v).panel = s.panel := rfl

theorem State.key_setReg (s : State) (a : Nat) (v : Word) (k : Nat) : (s.setReg a v).key k = s.key k := rfl

theorem OnlyKeys.panel {s t : State} (h : OnlyKeys s t) : t.panel = { s.panel with keys := t.panel.keys } := congrArg State.panel h

/-- The fields with a bit for each key that a scan judges by. -/
def keyBits : List Fd := [Reg.PNL_KEYS.TOUCHED, Reg.PNL_KEYS.SUSPECT, Reg.PNL_STUCK.STUCK]

/-- Key k alone has changed: its record, its baseline and its bits. -/
structure Touches (k : Nat) (s t : State) : Prop where
  only : OnlyKeys s t
  reg : ∀ a, a ≠ Reg.PNL_COUNT_at k → a ≠ Reg.PNL_KEYS_at → a ≠ Reg.PNL_STUCK_at → t.reg a = s.reg a
  count : t.rf (Reg.PNL_COUNT.COUNT k) = s.rf (Reg.PNL_COUNT.COUNT k)
  key : ∀ j, j ≠ k → t.key j = s.key j
  bit : ∀ f ∈ keyBits, ∀ j, j < 12 → j ≠ k → t.bit f j = s.bit f j

/-- Key k reads as it did: its record, its registers and bits, and the settings of the panel. -/
structure SameKey (k : Nat) (s t : State) : Prop where
  only : OnlyKeys s t
  reg : ∀ a, a ≠ Reg.PNL_KEYS_at → a ≠ Reg.PNL_STUCK_at → (∀ j, j < 12 → j ≠ k → a ≠ Reg.PNL_COUNT_at j) → t.reg a = s.reg a
  key : t.key k = s.key k
  bit : ∀ f ∈ keyBits, t.bit f k = s.bit f k

theorem SameKey.refl (k : Nat) (s : State) : SameKey k s s := ⟨rfl, fun _ _ _ _ => rfl, rfl, fun _ _ => rfl⟩

theorem SameKey.trans {k : Nat} {s t u : State} (h : SameKey k s t) (h' : SameKey k t u) : SameKey k s u :=
  ⟨h.only.trans h'.only, fun a h1 h2 h3 => (h'.reg a h1 h2 h3).trans (h.reg a h1 h2 h3), h'.key.trans h.key,
    fun f hf => (h'.bit f hf).trans (h.bit f hf)⟩

theorem Touches.sameKey {j k : Nat} {s t : State} (h : Touches j s t) (hj : j < 12) (hk : k < 12) (hjk : j ≠ k) : SameKey k s t :=
  ⟨h.only, fun a h1 h2 h3 => h.reg a (h3 j hj hjk) h1 h2, h.key k hjk.symm, fun f hf => h.bit f hf k hk hjk.symm⟩

namespace Touches
variable {k : Nat} {s t u : State}

theorem refl (k : Nat) (s : State) : Touches k s s := ⟨rfl, fun _ _ _ _ => rfl, rfl, fun _ _ => rfl, fun _ _ _ _ _ => rfl⟩

theorem trans (h : Touches k s t) (h' : Touches k t u) : Touches k s u :=
  ⟨h.only.trans h'.only, fun a h1 h2 h3 => (h'.reg a h1 h2 h3).trans (h.reg a h1 h2 h3), h'.count.trans h.count,
    fun j hj => (h'.key j hj).trans (h.key j hj), fun f hf j h1 h2 => (h'.bit f hf j h1 h2).trans (h.bit f hf j h1 h2)⟩

theorem ite {c : Prop} [Decidable c] (ht : Touches k s t) (hu : Touches k s u) : Touches k s (if c then t else u) := by
  split
  · exact ht
  · exact hu

theorem setPnlKey (h : Touches k s t) (v : Key) : Touches k s (t.setPnlKey k v) :=
  h.trans ⟨rfl, fun _ _ _ _ => rfl, rfl, fun _ hj => SMap.get_set_other _ _ _ _ _ _ hj, fun _ _ _ _ _ => rfl⟩

theorem raiseIf (h : Touches k s t) (e en : Fd) : Touches k s (t.raiseIf e en) := by
  have honly : OnlyKeys t (t.raiseIf e en) := by unfold State.raiseIf; split <;> rfl
  have hpanel : (t.raiseIf e en).panel = t.panel := by unfold State.raiseIf; split <;> rfl
  refine h.trans ⟨honly, fun a _ _ _ => t.reg_raiseIf e en a, t.rf_raiseIf _ _ _, fun j _ => ?_, fun f _ j _ _ => State.bit_congr (t.reg_raiseIf e en _) j⟩
  rw [State.key, State.key, hpanel]

/-- The baseline lies in the key's own register, apart from its count. -/
theorem baseline (h : Touches k s t) (v : Nat) : Touches k s (t.wf (Reg.PNL_COUNT.BASELINE k) v) := by
  have hcount := t.rf_wf_other (Reg.PNL_COUNT.BASELINE k) (Reg.PNL_COUNT.COUNT k) v (.inr (.inl (Nat.le_refl 16)))
  refine h.trans ⟨onlyKeys_setReg _ _ _, fun a ha _ _ => t.reg_wf_other _ _ _ ha, hcount, fun _ _ => State.key_setReg _ _ _ _, fun f hf j _ _ => ?_⟩
  refine State.bit_congr (t.reg_wf_other _ _ _ ?_) j
  have hfar : 0x4A10 ≤ Reg.PNL_COUNT_at k := Nat.le_add_right _ _
  have hnear : f.addr < 0x4A10 := (by decide : ∀ g ∈ keyBits, g.addr < 0x4A10) f hf
  exact (hnear.trans_le hfar).ne

/-- A bit of the key in one of the fields that hold one for each key. -/
theorem setBit (h : Touches k s t) (hk : k < 12) (f : Fd) (hf : f ∈ Reg.PNL_STUCK.STUCK_SEEN :: keyBits) (v : Bool) :
    Touches k s (t.setBit f k v) := by
  have haddr : f.addr = Reg.PNL_KEYS_at ∨ f.addr = Reg.PNL_STUCK_at :=
    (by decide : ∀ g ∈ Reg.PNL_STUCK.STUCK_SEEN :: keyBits, g.addr = Reg.PNL_KEYS_at ∨ g.addr = Reg.PNL_STUCK_at) f hf
  have hlo : f.lo = 0 ∨ f.lo = 16 := (by decide : ∀ g ∈ Reg.PNL_STUCK.STUCK_SEEN :: keyBits, g.lo = 0 ∨ g.lo = 16) f hf
  have hcount : Reg.PNL_COUNT_at k ≠ f.addr := by
    have hfar : (0x4A10 : Nat) ≤ Reg.PNL_COUNT_at k := Nat.le_add_right _ _
    have hnear : f.addr < 0x4A10 := by rcases haddr with h | h <;> rw [h] <;> decide
    exact (hnear.trans_le hfar).ne'
  refine h.trans ⟨onlyKeys_setReg _ _ _, fun a _ h1 h2 => t.reg_setBit_other _ _ _ _ ?_, t.rf_setBit_other _ _ _ _ hcount, fun _ _ => State.key_setReg _ _ _ _, fun g hg j hj hjk => ?_⟩
  · rcases haddr with h | h <;> rw [h] <;> assumption
  · have hglo : g.lo = 0 ∨ g.lo = 16 := (by decide : ∀ g ∈ keyBits, g.lo = 0 ∨ g.lo = 16) g hg
    exact t.bit_setBit_other _ _ _ _ _ (.inr (by omega))

theorem setTouched (h : Touches k s t) (hk : k < 12) (v : Bool) : Touches k s (t.setTouched k v) :=
  h.trans (((refl k t).ite (((refl k t).setBit hk Reg.PNL_KEYS.TOUCHED (by decide) v).raiseIf _ _)))

theorem flagEvent (h : Touches k s t) : Touches k s t.flagEvent := h.raiseIf _ _

/-! ## What each part of a key's turn changes -/

section
variable (h : Touches k s t) (n c : Nat)
include h

theorem trackKey : Touches k s (t.trackKey k n c) := h.ite (h.baseline _)

variable (hk : k < 12)
include hk

theorem rebaseKey : Touches k s (t.rebaseKey k c) :=
  ((((h.baseline c).setBit hk _ (by decide) false).setBit hk _ (by decide) false).setTouched hk false).setPnlKey _

theorem initKey : Touches k s (t.initKey k n c) := by
  have hbase := (h.baseline (((t.key k).sum + c) / 16)).setPnlKey Key.zero
  exact (h.setPnlKey _).ite (((hbase.setBit hk Reg.PNL_KEYS.SUSPECT (by decide) true).flagEvent).ite hbase)

theorem suspectKey : Touches k s (t.suspectKey k n c) :=
  (((h.setBit hk _ (by decide) false).baseline c).setPnlKey _).ite (h.setPnlKey _)

theorem recoverKey : Touches k s (t.recoverKey k c) :=
  (((h.baseline c).setBit hk _ (by decide) false).setPnlKey _).ite (h.setPnlKey _)

theorem judgeKey : Touches k s (t.judgeKey k c) := by
  have hset (v : Key) := h.setPnlKey v
  exact (((hset _).setTouched hk false).ite (hset _)).ite (((hset _).setTouched hk true).ite (hset _))

theorem maxOnKey : Touches k s (t.maxOnKey k c) :=
  ((((((h.setTouched hk false).setBit hk _ (by decide) true).setBit hk _ (by decide) true).flagEvent).baseline c).setPnlKey _).ite
    (h.setPnlKey _)

end

end Touches

/-! ## A key's turn -/

/-- The turn of a key begins with its count shown. -/
def State.showCount (s : State) (k c : Nat) : State := s.wf (Reg.PNL_COUNT.COUNT k) (min 0xFFFF c)

section
variable (s : State) (k n c : Nat)

theorem showCount_only : OnlyKeys s (s.showCount k c) := onlyKeys_setReg _ _ _

theorem State.showCount_sameKey {j : Nat} (hj : j < 12) (h : j ≠ k) : SameKey k s (s.showCount j c) := by
  have hfar : (0x4A10 : Nat) ≤ Reg.PNL_COUNT_at j := Nat.le_add_right _ _
  refine ⟨onlyKeys_setReg _ _ _, fun a _ _ ha => s.reg_wf_other _ _ _ (ha j hj h), State.key_setReg _ _ _ _, fun f hf => State.bit_congr (s.reg_wf_other _ _ _ ?_) k⟩
  have hnear : f.addr < 0x4A10 := (by decide : ∀ g ∈ keyBits, g.addr < 0x4A10) f hf
  exact (hnear.trans_le hfar).ne

/-- A key's turn once its count is shown. -/
def State.turn (s : State) (k n c : Nat) : State :=
  let again := s.panel.rebase / 2 ^ k % 2 = 1
  let s := if again then s.rebaseKey k c else s
  if n ≤ 16 then s.initKey k n c
  else if again then s
  else if s.bit Reg.PNL_KEYS.SUSPECT k then s.suspectKey k n c
  else ((((s.recoverKey k c).judgeKey k c).maxOnKey k c).trackKey k n c)

theorem State.scanKey_eq : s.scanKey k n c = (s.showCount k c).turn k n (min 0xFFFF c) := rfl

theorem State.turn_touches (hk : k < 12) : Touches k s (s.turn k n c) := by
  unfold State.turn
  have hbegun : Touches k s (if s.panel.rebase / 2 ^ k % 2 = 1 then s.rebaseKey k c else s) :=
    ((Touches.refl k s).rebaseKey c hk).ite (Touches.refl k s)
  refine (hbegun.initKey n c hk).ite (hbegun.ite ((hbegun.suspectKey n c hk).ite ?_))
  exact ((((hbegun.recoverKey c hk).judgeKey c hk).maxOnKey c hk).trackKey n c)

theorem State.scanKey_only (hk : k < 12) : OnlyKeys s (s.scanKey k n c) :=
  (showCount_only s k c).trans ((s.showCount k c).turn_touches k n _ hk).only

/-- The turn of another key. -/
theorem State.scanKey_sameKey {j : Nat} (hj : j < 12) (hk : k < 12) (h : j ≠ k) : SameKey k s (s.scanKey j n c) :=
  (s.showCount_sameKey k c hj h).trans (((s.showCount j c).turn_touches j n _ hj).sameKey hj hk h)

theorem State.rf_scanKey_count (hk : k < 12) : (s.scanKey k n c).rf (Reg.PNL_COUNT.COUNT k) = min 0xFFFF c := by
  rw [s.scanKey_eq, ((s.showCount k c).turn_touches k n _ hk).count]
  refine (s.rf_wf_same (Reg.PNL_COUNT.COUNT k) _ (show 0 + 16 ≤ 32 by decide)).trans (Nat.mod_eq_of_lt ?_)
  exact (Nat.min_le_left _ _).trans_lt (show 0xFFFF < 2 ^ 16 by decide)

end

/-- The turns of keys past k. -/
theorem State.scanKeys_sameKey (cs : List Nat) (s : State) (n i : Nat) {k : Nat} (hk : k < i) (hlen : i + cs.length ≤ 12) :
    SameKey k s (s.scanKeys n i cs) := by
  induction cs generalizing s i with
  | nil => exact SameKey.refl k s
  | cons c cs ih =>
    rw [List.length_cons] at hlen
    exact (s.scanKey_sameKey k n c (by omega) (by omega) (by omega)).trans (ih (s.scanKey i n c) (i + 1) (by omega) (by omega))

/-- A scan is key k's turn, between changes that key k does not see. -/
theorem State.scanKeys_turn (cs : List Nat) (s : State) (n i : Nat) {k : Nat} (hik : i ≤ k) (hk : k < i + cs.length) (hlen : i + cs.length ≤ 12) :
    ∃ x, SameKey k s x ∧ SameKey k (x.scanKey k n (cs.getD (k - i) 0)) (s.scanKeys n i cs) := by
  induction cs generalizing s i with
  | nil => exact absurd hk (by simp; omega)
  | cons c cs ih =>
    rw [List.length_cons] at hk hlen
    rcases Nat.eq_or_lt_of_le hik with rfl | hlt
    · refine ⟨s, SameKey.refl i s, ?_⟩
      rw [Nat.sub_self]
      exact State.scanKeys_sameKey cs _ n (i + 1) (by omega) (by omega)
    · obtain ⟨x, hx, ht⟩ := ih (s.scanKey i n c) (i + 1) hlt (by omega) (by omega)
      refine ⟨x, (s.scanKey_sameKey k n c (by omega) (by omega) (by omega)).trans hx, ?_⟩
      rw [show k - i = (k - (i + 1)) + 1 by omega]
      exact ht

theorem State.scanKeys_only (cs : List Nat) (s : State) (n i : Nat) (hlen : i + cs.length ≤ 12) : OnlyKeys s (s.scanKeys n i cs) := by
  induction cs generalizing s i with
  | nil => exact rfl
  | cons c cs ih =>
    rw [List.length_cons] at hlen
    exact (s.scanKey_only i n c (by omega)).trans (ih (s.scanKey i n c) (i + 1) (by omega))

/-! ## What key k's turn finds and leaves -/

/-- What a key's turn judges by reads as it did: all of `SameKey` but the count shown. -/
structure KeyView (k : Nat) (s t : State) : Prop where
  panel : t.panel = { s.panel with keys := t.panel.keys }
  rf : ∀ f : Fd, f.addr ≠ Reg.PNL_KEYS_at → f.addr ≠ Reg.PNL_STUCK_at → (∀ j, j < 12 → j ≠ k → f.addr ≠ Reg.PNL_COUNT_at j) →
    (f.addr = Reg.PNL_COUNT_at k → 16 ≤ f.lo) → t.rf f = s.rf f
  key : t.key k = s.key k
  bit : ∀ f ∈ keyBits, t.bit f k = s.bit f k

/-- What a turn leaves of key k: its record, its baseline and its bits. -/
structure KeyShown (k : Nat) (s t : State) : Prop where
  key : t.key k = s.key k
  baseline : t.rf (Reg.PNL_COUNT.BASELINE k) = s.rf (Reg.PNL_COUNT.BASELINE k)
  bit : ∀ f ∈ keyBits, t.bit f k = s.bit f k

theorem countAddr_ne {k a : Nat} (h : a < 0x4A10) : Reg.PNL_COUNT_at k ≠ a := (h.trans_le (Nat.le_add_right _ _)).ne'

theorem countAddr_inj {j k : Nat} (h : j ≠ k) : Reg.PNL_COUNT_at k ≠ Reg.PNL_COUNT_at j := fun e => h (Nat.add_left_cancel e).symm

theorem SameKey.shown {k : Nat} {s t : State} (h : SameKey k s t) : KeyShown k s t := by
  refine ⟨h.key, ?_, h.bit⟩
  rw [State.rf, State.rf, h.reg (Reg.PNL_COUNT.BASELINE k).addr (countAddr_ne (by decide)) (countAddr_ne (by decide)) (fun _ _ hj => countAddr_inj hj)]

theorem SameKey.showCount {k : Nat} {s t : State} (h : SameKey k s t) (c : Nat) : KeyView k s (t.showCount k c) := by
  have hpanel : (t.showCount k c).panel = t.panel := State.panel_setReg _ _ _
  refine ⟨?_, fun f h1 h2 h3 h4 => ?_, (State.key_setReg _ _ _ _).trans h.key, fun f hf => ?_⟩
  · rw [hpanel]; exact h.only.panel
  · have hshown : (t.showCount k c).rf f = t.rf f := by
      refine t.rf_wf_other _ _ _ ?_
      by_cases ha : f.addr = Reg.PNL_COUNT_at k
      · exact .inr (.inr (h4 ha))
      · exact .inl ha
    rw [hshown, State.rf, State.rf, h.reg _ h1 h2 h3]
  · rw [← h.bit f hf]
    refine State.bit_congr (t.reg_wf_other _ _ _ ?_) k
    exact (countAddr_ne ((by decide : ∀ g ∈ keyBits, g.addr < 0x4A10) f hf)).symm

/-- The registers of a setting lie apart from those a scan changes. -/
theorem KeyView.setting {k : Nat} {s y : State} (hk : k < 12) (hy : KeyView k s y) (f : Fd) (h : f.addr < 0x4A05 ∨ 0x4A20 ≤ f.addr) :
    y.rf f = s.rf f := by
  have hkeys : Reg.PNL_KEYS_at = 0x4A05 := rfl
  have hstuck : Reg.PNL_STUCK_at = 0x4A06 := rfl
  have hcount (j : Nat) : Reg.PNL_COUNT_at j = 0x4A10 + j := rfl
  have hapart (j : Nat) (hj : j < 12) : f.addr ≠ Reg.PNL_COUNT_at j := by have := hcount j; omega
  exact hy.rf f (by omega) (by omega) (fun j hj _ => hapart j hj) (fun e => absurd e (hapart k hk))

/-- What ends a scan once every key has had its turn. -/
def State.scanned (s : State) (n : Nat) : State :=
  let s := { s with panel := { s.panel with scans := n, rebase := 0 } }
  if n = 16 then s.wf Reg.PNL_STATUS.INIT 0 else s

section
variable (s : State) (n : Nat)

theorem State.reg_scanned (a : Nat) (h : a ≠ Reg.PNL_STATUS_at) : (s.scanned n).reg a = s.reg a := by
  unfold State.scanned
  split
  · exact State.reg_wf_other _ _ _ _ h
  · rfl

theorem State.panel_scanned : (s.scanned n).panel = { s.panel with scans := n, rebase := 0 } := by
  unfold State.scanned
  split <;> rfl

theorem State.net_scanned : (s.scanned n).net = s.net := by
  unfold State.scanned
  split <;> rfl

theorem State.scanned_eq : s.scanned n = { s with io := (s.scanned n).io, panel := (s.scanned n).panel } := by
  unfold State.scanned
  split <;> rfl

theorem State.scanned_shown {k : Nat} : KeyShown k s (s.scanned n) := by
  have hreg (f : Fd) (hf : f ∈ keyBits) : f.addr ≠ Reg.PNL_STATUS_at := (by decide : ∀ g ∈ keyBits, g.addr ≠ Reg.PNL_STATUS_at) f hf
  refine ⟨?_, ?_, fun f hf => State.bit_congr (s.reg_scanned n _ (hreg f hf)) k⟩
  · rw [State.key, State.key, s.panel_scanned]
  · rw [State.rf, State.rf, s.reg_scanned n (Reg.PNL_COUNT.BASELINE k).addr (countAddr_ne (by decide))]

theorem State.scanned_init : (s.scanned 16).on Reg.PNL_STATUS.INIT = false := by
  rw [State.scanned, if_pos rfl, State.on_wf_same _ _ _ (by decide)]
  rfl

end

theorem KeyShown.trans {k : Nat} {s t u : State} (h : KeyShown k s t) (h' : KeyShown k t u) : KeyShown k s u :=
  ⟨h'.key.trans h.key, h'.baseline.trans h.baseline, fun f hf => (h'.bit f hf).trans (h.bit f hf)⟩

section
variable (s : State) (cs : List Nat) (hlen : cs.length = 12)
include hlen

theorem State.scan_eq : s.scan cs = (s.scanKeys (s.panel.scans + 1) 0 cs).scanned (s.panel.scans + 1) := by
  rw [State.scan, List.take_of_length_le hlen.le]
  rfl

/-- A scan, as key k sees it: its turn at a state that it reads as the first one. -/
theorem State.scan_turn {k : Nat} (hk : k < 12) : ∃ y, KeyView k s y ∧
    KeyShown k (y.turn k (s.panel.scans + 1) (min 0xFFFF (cs.getD k 0))) (s.scan cs) := by
  obtain ⟨x, hx, ht⟩ := State.scanKeys_turn cs s (s.panel.scans + 1) 0 (Nat.zero_le k) (by omega) (by omega)
  rw [State.scanKey_eq] at ht
  refine ⟨_, hx.showCount (cs.getD k 0), ?_⟩
  rw [s.scan_eq cs hlen]
  exact ht.shown.trans (State.scanned_shown _ _)

theorem State.scan_only : PanelOnly s (s.scan cs) ∧ (s.scan cs).panel.scans = s.panel.scans + 1 ∧ (s.scan cs).panel.rebase = 0 := by
  rw [s.scan_eq cs hlen]
  have honly := State.scanKeys_only cs s (s.panel.scans + 1) 0 (by omega)
  generalize s.scanKeys (s.panel.scans + 1) 0 cs = t at honly
  refine ⟨?_, by rw [t.panel_scanned], by rw [t.panel_scanned]⟩
  unfold PanelOnly
  rw [t.net_scanned]
  exact (t.scanned_eq _).trans (congrArg (fun x : State => { x with
    io := (t.scanned (s.panel.scans + 1)).io, panel := (t.scanned (s.panel.scans + 1)).panel }) honly)

theorem State.scan_count {k : Nat} (hk : k < 12) : (s.scan cs).rf (Reg.PNL_COUNT.COUNT k) = min 0xFFFF (cs.getD k 0) := by
  obtain ⟨x, -, ht⟩ := State.scanKeys_turn cs s (s.panel.scans + 1) 0 (Nat.zero_le k) (by omega) (by omega)
  rw [s.scan_eq cs hlen, State.rf, State.reg_scanned _ _ (Reg.PNL_COUNT.COUNT k).addr (countAddr_ne (by decide)),
    ht.reg (Reg.PNL_COUNT.COUNT k).addr (countAddr_ne (by decide)) (countAddr_ne (by decide)) (fun _ _ hj => countAddr_inj hj)]
  exact x.rf_scanKey_count k _ _ hk

end

/-! ## The four kinds of turn -/

theorem keyBit_apart (k : Nat) (f : Fd) (hf : f ∈ Reg.PNL_STUCK.STUCK_SEEN :: keyBits) : f.addr ≠ Reg.PNL_COUNT_at k :=
  (countAddr_ne ((by decide : ∀ g ∈ Reg.PNL_STUCK.STUCK_SEEN :: keyBits, g.addr < 0x4A10) f hf)).symm

section
variable (s : State) (k c : Nat) (v : Bool)

theorem State.key_setPnlKey (x : Key) : (s.setPnlKey k x).key k = x := SMap.get_set_same _ _ _ _

theorem State.rf_setPnlKey (x : Key) (f : Fd) : (s.setPnlKey k x).rf f = s.rf f := rfl
theorem State.bit_setPnlKey (x : Key) (f : Fd) (i : Nat) : (s.setPnlKey k x).bit f i = s.bit f i := rfl

theorem State.bit_baseline (x : Nat) (f : Fd) (hf : f ∈ keyBits) : (s.wf (Reg.PNL_COUNT.BASELINE k) x).bit f k = s.bit f k :=
  State.bit_congr (s.reg_wf_other _ _ _ (keyBit_apart k f (.tail _ hf))) k

theorem State.rf_baseline {x : Nat} (hx : x < 2 ^ 16) : (s.wf (Reg.PNL_COUNT.BASELINE k) x).rf (Reg.PNL_COUNT.BASELINE k) = x :=
  (s.rf_wf_same (Reg.PNL_COUNT.BASELINE k) x (Nat.le_refl 32)).trans (Nat.mod_eq_of_lt hx)

theorem State.rf_baseline_setBit (f : Fd) (hf : f ∈ Reg.PNL_STUCK.STUCK_SEEN :: keyBits) :
    (s.setBit f k v).rf (Reg.PNL_COUNT.BASELINE k) = s.rf (Reg.PNL_COUNT.BASELINE k) :=
  s.rf_setBit_other _ _ _ _ (keyBit_apart k f hf).symm

theorem State.bit_raiseIf (e en f : Fd) (i : Nat) : (s.raiseIf e en).bit f i = s.bit f i := State.bit_congr (s.reg_raiseIf e en _) i

theorem State.key_raiseIf (e en : Fd) : (s.raiseIf e en).key k = s.key k := by
  unfold State.raiseIf
  split <;> rfl

theorem State.bit_setTouched (hk : k < 12) : (s.setTouched k v).bit Reg.PNL_KEYS.TOUCHED k = v := by
  unfold State.setTouched
  split
  · next h => exact h
  · exact (State.bit_raiseIf _ _ _ _ _).trans (s.bit_setBit_same _ _ _ (show 0 + k < 32 by omega))

/-- TOUCHED of a key changed: its record, its baseline and its other bits stay. -/
theorem State.setTouched_keeps : (s.setTouched k v).key k = s.key k ∧
    (s.setTouched k v).rf (Reg.PNL_COUNT.BASELINE k) = s.rf (Reg.PNL_COUNT.BASELINE k) ∧
    (s.setTouched k v).bit Reg.PNL_KEYS.SUSPECT k = s.bit Reg.PNL_KEYS.SUSPECT k ∧
    (s.setTouched k v).bit Reg.PNL_STUCK.STUCK k = s.bit Reg.PNL_STUCK.STUCK k := by
  unfold State.setTouched
  split
  · exact ⟨rfl, rfl, rfl, rfl⟩
  · refine ⟨(State.key_raiseIf _ _ _ _).trans (State.key_setReg _ _ _ _), (State.rf_raiseIf _ _ _ _).trans (s.rf_baseline_setBit _ _ _ (by decide)), ?_, ?_⟩
    · exact (State.bit_raiseIf _ _ _ _ _).trans (s.bit_setBit_other _ _ _ _ _ (.inr (show 16 + k ≠ 0 + k by omega)))
    · exact (State.bit_raiseIf _ _ _ _ _).trans (s.bit_setBit_other _ _ _ _ _ (.inl (by decide)))

/-- A rebase takes the count as the baseline and clears the key's marks (R499). -/
theorem State.rebaseKey_rebases (hk : k < 12) (hc : c < 2 ^ 16) : (s.rebaseKey k c).rf (Reg.PNL_COUNT.BASELINE k) = c ∧
    (s.rebaseKey k c).bit Reg.PNL_KEYS.TOUCHED k = false ∧ (s.rebaseKey k c).bit Reg.PNL_KEYS.SUSPECT k = false ∧
    (s.rebaseKey k c).bit Reg.PNL_STUCK.STUCK k = false := by
  have hsuspect := (s.wf (Reg.PNL_COUNT.BASELINE k) c).bit_setBit_same Reg.PNL_KEYS.SUSPECT k false (show 16 + k < 32 by omega)
  have hbase := ((s.wf (Reg.PNL_COUNT.BASELINE k) c).rf_baseline_setBit k false Reg.PNL_KEYS.SUSPECT (by decide)).trans (s.rf_baseline k hc)
  generalize hu : (s.wf (Reg.PNL_COUNT.BASELINE k) c).setBit Reg.PNL_KEYS.SUSPECT k false = u at hsuspect hbase
  have hstuck := u.bit_setBit_same Reg.PNL_STUCK.STUCK k false (show 0 + k < 32 by omega)
  have hsuspect' := (u.bit_setBit_other Reg.PNL_STUCK.STUCK Reg.PNL_KEYS.SUSPECT k k false (.inl (by decide))).trans hsuspect
  have hbase' := (u.rf_baseline_setBit k false Reg.PNL_STUCK.STUCK (by decide)).trans hbase
  generalize hw : u.setBit Reg.PNL_STUCK.STUCK k false = w at hstuck hsuspect' hbase'
  obtain ⟨-, hkeepB, hkeepS, hkeepT⟩ := w.setTouched_keeps k false
  have htouched := w.bit_setTouched k false hk
  rw [State.rebaseKey, hu, hw]
  generalize w.setTouched k false = z at hkeepB hkeepS hkeepT htouched
  rw [State.rf_setPnlKey, State.bit_setPnlKey, State.bit_setPnlKey, State.bit_setPnlKey]
  exact ⟨hkeepB.trans hbase', htouched, hkeepS.trans hsuspect', hkeepT.trans hstuck⟩

theorem State.turn_init {n : Nat} (hr : s.panel.rebase.testBit k = false) (hn : n ≤ 16) : s.turn k n c = s.initKey k n c := by
  have h : ¬ s.panel.rebase / 2 ^ k % 2 = 1 := by
    rw [Nat.testBit_eq_decide_div_mod_eq] at hr
    exact of_decide_eq_false hr
  rw [State.turn]
  simp only [if_neg h, if_pos hn]

theorem State.turn_rebase {n : Nat} (hr : s.panel.rebase.testBit k = true) (hn : 16 < n) : s.turn k n c = s.rebaseKey k c := by
  have h : s.panel.rebase / 2 ^ k % 2 = 1 := by
    rw [Nat.testBit_eq_decide_div_mod_eq] at hr
    exact of_decide_eq_true hr
  rw [State.turn]
  simp only [if_pos h, if_neg hn.not_ge]

theorem State.turn_judges {n : Nat} (hr : s.panel.rebase.testBit k = false) (hn : 16 < n) (hs : s.bit Reg.PNL_KEYS.SUSPECT k = false) :
    s.turn k n c = (((s.recoverKey k c).judgeKey k c).maxOnKey k c).trackKey k n c := by
  have h : ¬ s.panel.rebase / 2 ^ k % 2 = 1 := by
    rw [Nat.testBit_eq_decide_div_mod_eq] at hr
    exact of_decide_eq_false hr
  rw [State.turn]
  simp only [if_neg h, if_neg hn.not_ge, hs, Bool.false_eq_true, if_false]

theorem State.initKey_sums {n : Nat} (hn : n < 16) : ((s.initKey k n c).key k).sum = (s.key k).sum + c := by
  rw [State.initKey, if_pos hn, State.key_setPnlKey]

theorem dist_eq_natAbs (a b : Nat) : dist a b = ((a : Int) - b).natAbs := by
  unfold dist
  omega

/-- The sixteenth count makes the baseline; it is suspect where it is far from the saved reference (R493, R494). -/
theorem State.initKey_baseline (hk : k < 12) (hsum : (s.key k).sum + c < 2 ^ 20) :
    (s.initKey k 16 c).rf (Reg.PNL_COUNT.BASELINE k) = ((s.key k).sum + c) / 16 ∧
    (s.on Reg.PNL_STATUS.NOREF = false → s.bit Reg.PNL_KEYS.SUSPECT k = false → ((s.initKey k 16 c).bit Reg.PNL_KEYS.SUSPECT k = true ↔
      s.rf Reg.PNL_STUCK_THRESH.THRESH < ((((s.key k).sum + c) / 16 : Nat) - (s.rf (Reg.PNL_REF.REF k) : Nat) : Int).natAbs)) := by
  generalize hb : ((s.key k).sum + c) / 16 = b
  have hrange : b < 2 ^ 16 := by omega
  have hbase := s.rf_baseline k hrange
  have hsuspect := s.bit_baseline k b Reg.PNL_KEYS.SUSPECT (by decide)
  have hapart (f : Fd) (h : f.addr < 0x4A10 ∨ 0x4A20 ≤ f.addr) : (s.wf (Reg.PNL_COUNT.BASELINE k) b).rf f = s.rf f := by
    refine s.rf_wf_other _ _ _ (.inl ?_)
    have : (Reg.PNL_COUNT.BASELINE k).addr = 0x4A10 + k := rfl
    omega
  have hnoref := hapart Reg.PNL_STATUS.NOREF (.inl (by decide))
  have hthresh := hapart Reg.PNL_STUCK_THRESH.THRESH (.inl (by decide))
  have href := hapart (Reg.PNL_REF.REF k) (.inr (Nat.le_add_right _ _))
  rw [State.initKey, if_neg (Nat.lt_irrefl 16), hb]
  generalize s.wf (Reg.PNL_COUNT.BASELINE k) b = w at *
  have hset : ((w.setPnlKey k Key.zero).setBit Reg.PNL_KEYS.SUSPECT k true).flagEvent.bit Reg.PNL_KEYS.SUSPECT k = true :=
    (State.bit_raiseIf _ _ _ _ _).trans (State.bit_setBit_same _ _ _ _ (show 16 + k < 32 by omega))
  have hsetBase : ((w.setPnlKey k Key.zero).setBit Reg.PNL_KEYS.SUSPECT k true).flagEvent.rf (Reg.PNL_COUNT.BASELINE k) = b :=
    (State.rf_raiseIf _ _ _ _).trans ((State.rf_baseline_setBit _ k true _ (by decide)).trans ((w.rf_setPnlKey k _ _).trans hbase))
  have hreads := w.rf_setPnlKey k Key.zero
  have hbits := w.bit_setPnlKey k Key.zero
  have hfar : ((!(w.setPnlKey k Key.zero).on Reg.PNL_STATUS.NOREF) = true ∧
      (w.setPnlKey k Key.zero).rf Reg.PNL_STUCK_THRESH.THRESH < dist b ((w.setPnlKey k Key.zero).rf (Reg.PNL_REF.REF k))) ↔
      s.on Reg.PNL_STATUS.NOREF = false ∧ s.rf Reg.PNL_STUCK_THRESH.THRESH < ((b : Int) - (s.rf (Reg.PNL_REF.REF k) : Nat)).natAbs := by
    rw [State.on, hreads, hreads, hreads, hnoref, hthresh, href, dist_eq_natAbs, Bool.not_eq_true', ← State.on]
  dsimp only
  split
  · next h => exact ⟨hsetBase, fun _ _ => ⟨fun _ => (hfar.1 h).2, fun _ => hset⟩⟩
  · next h =>
    refine ⟨(hreads _).trans hbase, fun hn hs => ⟨fun ht => ?_, fun ht => absurd (hfar.2 ⟨hn, ht⟩) h⟩⟩
    rw [hbits, hsuspect, hs] at ht
    exact absurd ht Bool.false_ne_true

end

/-! ## An ordinary turn (R495) -/

section
variable (s : State) (k c : Nat)

/-- Scans in a row at or above ON. -/
def State.upCount : Nat := if (s.rf Reg.PNL_THR.ON : Nat) ≤ s.delta k c then (s.key k).up + 1 else 0
/-- Scans in a row below OFF. -/
def State.downCount : Nat := if s.delta k c < (s.rf Reg.PNL_THR.OFF : Nat) then (s.key k).down + 1 else 0

theorem State.recoverKey_idle (hneg : (s.key k).neg = 0) (hd : -(s.rf Reg.PNL_THR.NEG : Int) < s.delta k c) :
    s.recoverKey k c = s.setPnlKey k (s.key k) := by
  rw [State.recoverKey, if_neg hd.not_ge, if_neg (by decide : ¬ 5 ≤ 0)]
  refine congrArg _ ?_
  generalize s.key k = x at hneg
  exact (congrArg (fun n => { x with neg := n }) hneg).symm

/-- The key with its counts of scans in a row. -/
def State.withCounts : State := s.setPnlKey k { s.key k with up := s.upCount k c, down := s.downCount k c }

theorem State.judgeKey_eq : s.judgeKey k c =
    if (s.withCounts k c).bit Reg.PNL_KEYS.TOUCHED k then
      (if 2 ≤ s.downCount k c then (s.withCounts k c).setTouched k false else s.withCounts k c)
    else if 2 ≤ s.upCount k c then (s.withCounts k c).setTouched k true else s.withCounts k c := rfl

theorem State.rf_setTouched (v : Bool) (f : Fd) (h : f.addr ≠ Reg.PNL_KEYS_at) : (s.setTouched k v).rf f = s.rf f := by
  unfold State.setTouched
  split
  · rfl
  · exact (State.rf_raiseIf _ _ _ _).trans (s.rf_setBit_other _ _ _ _ h)

/-- Judging a key changes its counts and TOUCHED, and nothing else that a turn reads. -/
theorem State.judgeKey_keeps : ((s.judgeKey k c).key k) = { s.key k with up := s.upCount k c, down := s.downCount k c } ∧
    ∀ f : Fd, f.addr ≠ Reg.PNL_KEYS_at → (s.judgeKey k c).rf f = s.rf f := by
  have hkey : (s.withCounts k c).key k = { s.key k with up := s.upCount k c, down := s.downCount k c } := s.key_setPnlKey k _
  have hrf (f : Fd) : (s.withCounts k c).rf f = s.rf f := s.rf_setPnlKey k _ f
  rw [s.judgeKey_eq]
  generalize s.withCounts k c = w at hkey hrf
  have hset (v : Bool) : (w.setTouched k v).key k = { s.key k with up := s.upCount k c, down := s.downCount k c } ∧
      ∀ f : Fd, f.addr ≠ Reg.PNL_KEYS_at → (w.setTouched k v).rf f = s.rf f :=
    ⟨(w.setTouched_keeps k v).1.trans hkey, fun f hf => (w.rf_setTouched k v f hf).trans (hrf f)⟩
  split
  · split
    · exact hset false
    · exact ⟨hkey, fun f _ => hrf f⟩
  · split
    · exact hset true
    · exact ⟨hkey, fun f _ => hrf f⟩

/-- TOUCHED is set at the second scan at or above ON and cleared at the second below OFF. -/
theorem State.judgeKey_touched (hk : k < 12) : (s.judgeKey k c).bit Reg.PNL_KEYS.TOUCHED k =
    if s.bit Reg.PNL_KEYS.TOUCHED k then decide (s.downCount k c < 2) else decide (2 ≤ s.upCount k c) := by
  have hbit : (s.withCounts k c).bit Reg.PNL_KEYS.TOUCHED k = s.bit Reg.PNL_KEYS.TOUCHED k := s.bit_setPnlKey k _ _ k
  rw [s.judgeKey_eq, hbit]
  generalize s.withCounts k c = w at hbit
  split
  · next ht =>
    split
    · next hd => rw [w.bit_setTouched k _ hk, decide_eq_false hd.not_gt]
    · next hd => rw [hbit, ht, decide_eq_true (Nat.lt_of_not_ge hd)]
  · next ht =>
    split
    · next hu => rw [w.bit_setTouched k _ hk, decide_eq_true hu]
    · next hu => rw [hbit, Bool.eq_false_iff.2 ht, decide_eq_false hu]

theorem State.maxOnKey_holds (h : (s.key k).held + 1 < 100 * s.rf Reg.PNL_TIME.MAXON_S) : ∃ n, s.maxOnKey k c = s.setPnlKey k { s.key k with held := n } := by
  rw [State.maxOnKey]
  exact ⟨_, if_neg (by split <;> omega)⟩

theorem State.trackKey_keeps (n : Nat) : (s.trackKey k n c).key k = s.key k ∧
    (s.trackKey k n c).bit Reg.PNL_KEYS.TOUCHED k = s.bit Reg.PNL_KEYS.TOUCHED k ∧
    (s.bit Reg.PNL_KEYS.TOUCHED k = true → s.trackKey k n c = s) := by
  rw [State.trackKey]
  split
  · exact ⟨rfl, rfl, fun _ => rfl⟩
  · next h => exact ⟨State.key_setReg _ _ _ _, s.bit_baseline k _ _ (by decide), fun ht => absurd (.inl ht) h⟩

/-- A key in the ordinary scans: judged, held on, and followed. -/
theorem State.turn_plain (n : Nat) (hk : k < 12) (hr : s.panel.rebase.testBit k = false) (hn : 16 < n) (hs : s.bit Reg.PNL_KEYS.SUSPECT k = false)
    (hheld : (s.key k).held + 1 < 100 * s.rf Reg.PNL_TIME.MAXON_S) (hneg : (s.key k).neg = 0)
    (hd : -(s.rf Reg.PNL_THR.NEG : Int) < s.delta k c) :
    ((s.turn k n c).key k).up = s.upCount k c ∧
    (s.turn k n c).bit Reg.PNL_KEYS.TOUCHED k =
      (if s.bit Reg.PNL_KEYS.TOUCHED k then decide (s.downCount k c < 2) else decide (2 ≤ s.upCount k c)) ∧
    ((s.turn k n c).bit Reg.PNL_KEYS.TOUCHED k = true → (s.turn k n c).rf (Reg.PNL_COUNT.BASELINE k) = s.rf (Reg.PNL_COUNT.BASELINE k)) := by
  rw [s.turn_judges k c hr hn hs, s.recoverKey_idle k c hneg hd]
  have hkey := s.key_setPnlKey k (s.key k)
  have hrf := s.rf_setPnlKey k (s.key k)
  have hbit := s.bit_setPnlKey k (s.key k)
  generalize s.setPnlKey k (s.key k) = u at hkey hrf hbit
  have hup : u.upCount k c = s.upCount k c := by rw [State.upCount, State.upCount, State.delta, State.delta, hrf, hrf, hkey]
  have hdown : u.downCount k c = s.downCount k c := by rw [State.downCount, State.downCount, State.delta, State.delta, hrf, hrf, hkey]
  obtain ⟨hjkey, hjrf⟩ := u.judgeKey_keeps k c
  have htouched := u.judgeKey_touched k c hk
  rw [hup, hdown, hbit] at htouched
  rw [hup] at hjkey
  generalize u.judgeKey k c = w at hjkey hjrf htouched
  obtain ⟨m, hm⟩ := w.maxOnKey_holds k c (by rw [hjkey, hjrf _ (by decide), hrf, hkey]; exact hheld)
  have hwkey := w.key_setPnlKey k { w.key k with held := m }
  have hwrf := w.rf_setPnlKey k { w.key k with held := m }
  have hwbit := w.bit_setPnlKey k { w.key k with held := m }
  rw [hm]
  generalize w.setPnlKey k { w.key k with held := m } = x at hwkey hwrf hwbit
  obtain ⟨htkey, htbit, htrack⟩ := x.trackKey_keeps k c n
  refine ⟨?_, ?_, fun ht => ?_⟩
  · rw [htkey, hwkey, hjkey]
  · rw [htbit, hwbit, htouched]
  · rw [htbit] at ht
    rw [htrack ht, hwrf, hjrf _ (countAddr_ne (by decide)), hrf]

end

/-! ## The panel written -/

theorem panelOnly_trans {s t u : State} (h : PanelOnly s t) (h' : PanelOnly t u) : PanelOnly s u :=
  Eq.trans h' (congrArg (fun x : State => { x with io := u.io, panel := u.panel, net := { x.net with events := u.net.events } }) h)

theorem panelOnly_setReg (s : State) (a : Nat) (v : Word) : PanelOnly s (s.setReg a v) := rfl

theorem panelOnly_of_regs {s t : State} {as : List Nat} {es : List (Fin 64)} (h : Regs s t as es) : PanelOnly s t := by
  obtain ⟨heq, -⟩ := h
  have hpanel : t.panel = s.panel := by rw [heq]
  have hev : t.net.events = s.net.events ++ es := by rw [heq]
  rw [PanelOnly, hpanel, hev]
  exact heq

theorem panelOnly_of_eq {s t : State} (h : t = { s with io := t.io, panel := t.panel }) : PanelOnly s t := by
  have hnet : t.net = s.net := by rw [h]
  rw [PanelOnly, hnet]
  exact h

theorem panelOnly_panel (s : State) (p : Panel) : PanelOnly s { s with panel := p } := rfl

/-- The first `n` references loaded from a record's body (R493). -/
def State.loadRefs (s : State) (w n : Nat) : State :=
  (List.range n).foldl (fun s k => s.wf (Reg.PNL_REF.REF k) (bytesAt w (4 + 2 * k) 2)) s

section
variable (s : State) (w n : Nat)

theorem State.loadRefs_succ : s.loadRefs w (n + 1) = (s.loadRefs w n).wf (Reg.PNL_REF.REF n) (bytesAt w (4 + 2 * n) 2) := by
  rw [State.loadRefs, List.range_succ, List.foldl_append]
  rfl

theorem refAddr_ne {j k : Nat} (h : j ≠ k) : (Reg.PNL_REF.REF j).addr ≠ (Reg.PNL_REF.REF k).addr := fun e => h (Nat.add_left_cancel e)

theorem State.loadRefs_only : PanelOnly s (s.loadRefs w n) ∧ (s.loadRefs w n).panel = s.panel ∧
    ∀ a, a < 0x4A20 → (s.loadRefs w n).reg a = s.reg a := by
  induction n with
  | zero => exact ⟨rfl, rfl, fun _ _ => rfl⟩
  | succ n ih =>
    obtain ⟨honly, hpanel, hreg⟩ := ih
    rw [State.loadRefs_succ]
    refine ⟨panelOnly_trans honly (panelOnly_setReg _ _ _), (State.panel_setReg _ _ _).trans hpanel, fun a ha => ?_⟩
    rw [State.reg_wf_other _ _ _ _ (ha.trans_le (Nat.le_add_right _ _) : a < (Reg.PNL_REF.REF n).addr).ne, hreg a ha]

theorem State.rf_loadRefs {k : Nat} (hk : k < n) : (s.loadRefs w n).rf (Reg.PNL_REF.REF k) = w / 256 ^ (4 + 2 * k) % 2 ^ 16 := by
  induction n with
  | zero => exact absurd hk (Nat.not_lt_zero k)
  | succ n ih =>
    rw [State.loadRefs_succ]
    rcases Nat.lt_succ_iff_lt_or_eq.1 hk with hlt | rfl
    · rw [State.rf_wf_other _ _ _ _ (.inl (refAddr_ne hlt.ne)), ih hlt]
    · refine (State.rf_wf_same _ _ _ (show 0 + 16 ≤ 32 by decide)).trans ?_
      rw [bytesAt]
      exact Nat.mod_mod _ _

end

section
variable (s : State)

/-- The panel as it begins: no scans counted, INIT 1, no key suspect. -/
def State.panelBegun : State := (({ s with panel := Panel.reset }).wf Reg.PNL_STATUS.INIT 1).wf Reg.PNL_KEYS.SUSPECT 0

theorem State.panelBegun_only : PanelOnly s s.panelBegun ∧ s.panelBegun.panel = Panel.reset ∧ s.panelBegun.on Reg.PNL_STATUS.INIT = true ∧
    ∀ a, a ≠ Reg.PNL_STATUS_at → a ≠ Reg.PNL_KEYS_at → s.panelBegun.reg a = s.reg a := by
  have honly := panelOnly_panel s Panel.reset
  have hpanel : ({ s with panel := Panel.reset } : State).panel = Panel.reset := rfl
  have hregs (a : Nat) : ({ s with panel := Panel.reset } : State).reg a = s.reg a := rfl
  rw [State.panelBegun]
  generalize ({ s with panel := Panel.reset } : State) = u at honly hpanel hregs
  refine ⟨panelOnly_trans honly (panelOnly_trans (panelOnly_setReg _ _ _) (panelOnly_setReg _ _ _)),
    (State.panel_setReg _ _ _).trans ((State.panel_setReg _ _ _).trans hpanel), ?_, fun a h1 h2 => ?_⟩
  · rw [State.on_wf_other _ _ _ _ (.inl (by decide)), State.on_wf_same _ _ _ (by decide)]
    rfl
  · rw [State.reg_wf_other _ _ _ _ h2, State.reg_wf_other _ _ _ _ h1, hregs]

theorem vaultRead_congr {s t : State} (h : t.vault = s.vault) (id : Nat) : t.vaultRead id = s.vaultRead id := by
  rw [State.vaultRead, State.vaultRead, h]

theorem vault_setReg (s : State) (a : Nat) (v : Word) : (s.setReg a v).vault = s.vault := rfl

theorem State.panelBegun_vault : s.panelBegun.vault = s.vault := (vault_setReg _ _ _).trans (vault_setReg _ _ _)

theorem State.panelOn_cases : (s.vaultRead 4 = none ∧ s.panelOn = s.panelBegun.wf Reg.PNL_STATUS.NOREF 1) ∨
    ∃ w, s.vaultRead 4 = some w ∧ s.panelOn = (s.panelBegun.loadRefs w 12).wf Reg.PNL_STATUS.NOREF (1 - bytesAt w 0 1 % 2) := by
  rw [← vaultRead_congr s.panelBegun_vault]
  unfold State.panelOn
  dsimp only
  split
  · next h => exact .inl ⟨h, rfl⟩
  · next w h => exact .inr ⟨w, h, rfl⟩

theorem noref_bit (w : Nat) : ((1 - bytesAt w 0 1 % 2) % 2 ^ 1 != 0) = !w.testBit 0 := by
  have hbyte : bytesAt w 0 1 % 2 = w % 2 := by
    rw [bytesAt, Nat.pow_zero, Nat.div_one]
    omega
  rw [hbyte, Nat.testBit_zero]
  rcases Nat.mod_two_eq_zero_or_one w with h | h <;> rw [h] <;> rfl

/-- EN became 1: the baselines begin and the saved reference is loaded (R493). -/
theorem State.panelOn_starts : PanelOnly s s.panelOn ∧ s.panelOn.panel = Panel.reset ∧ s.panelOn.on Reg.PNL_STATUS.INIT = true ∧
    s.panelOn.reg Reg.PNL_CTL_at = s.reg Reg.PNL_CTL_at ∧
    (s.vaultRead 4 = none → s.panelOn.on Reg.PNL_STATUS.NOREF = true) ∧
    ∀ w, s.vaultRead 4 = some w → s.panelOn.on Reg.PNL_STATUS.NOREF = !w.testBit 0 ∧
      ∀ k, k < 12 → s.panelOn.rf (Reg.PNL_REF.REF k) = w / 256 ^ (4 + 2 * k) % 2 ^ 16 := by
  obtain ⟨honly, hpanel, hinit, hreg⟩ := s.panelBegun_only
  have hcases := s.panelOn_cases
  generalize s.panelOn = t at hcases
  generalize s.panelBegun = u at honly hpanel hinit hreg hcases
  have hctl := hreg Reg.PNL_CTL_at (by decide) (by decide)
  rcases hcases with ⟨hread, rfl⟩ | ⟨w, hread, rfl⟩
  · refine ⟨panelOnly_trans honly (panelOnly_setReg _ _ _), (State.panel_setReg _ _ _).trans hpanel, ?_, ?_, fun _ => ?_, fun w hw => nomatch hread.symm.trans hw⟩
    · exact (State.on_wf_other _ _ _ _ (.inr (by decide))).trans hinit
    · exact (State.reg_wf_other _ _ _ _ (by decide)).trans hctl
    · exact State.on_wf_same _ _ _ (by decide)
  · obtain ⟨hlonly, hlpanel, hlreg⟩ := u.loadRefs_only w 12
    have hrefs (k : Nat) (hk : k < 12) := u.rf_loadRefs w 12 hk
    generalize u.loadRefs w 12 = x at hlonly hlpanel hlreg hrefs
    have hxinit : x.on Reg.PNL_STATUS.INIT = true := by
      rw [State.on, State.rf, hlreg _ (by decide), ← State.rf, ← State.on, hinit]
    refine ⟨panelOnly_trans (panelOnly_trans honly hlonly) (panelOnly_setReg _ _ _), ((State.panel_setReg _ _ _).trans hlpanel).trans hpanel, ?_, ?_, fun h => (nomatch hread.symm.trans h), ?_⟩
    · exact (State.on_wf_other _ _ _ _ (.inr (by decide))).trans hxinit
    · exact ((State.reg_wf_other _ _ _ _ (by decide)).trans (hlreg _ (by decide))).trans hctl
    · intro w' hw
      obtain rfl : w = w' := Option.some.inj (hread.symm.trans hw)
      refine ⟨(State.on_wf_same _ _ _ (by decide)).trans (noref_bit w), fun k hk => ?_⟩
      refine (State.rf_wf_other _ _ _ _ (.inl ?_)).trans (hrefs k hk)
      exact ((by decide : Reg.PNL_STATUS.NOREF.addr < 0x4A20).trans_le (Nat.le_add_right _ _)).ne'

end

/-! ## PNL_CTL written -/

theorem State.cur_vaultQueue (s : State) (id : Nat) : (s.vaultQueue id).vault.cur = s.vault.cur := rfl
theorem State.queue_vaultQueue (s : State) (id : Nat) : (s.vaultQueue id).vault.queue = s.vault.queue ++ [⟨id, false⟩] := rfl

/-- No field of PNL_CTL needs a window; with LOCK 0 none is refused. -/
theorem pnlCtl_fields : ∀ a b : Bool, refuseCode ⟨true, a, b⟩ (fieldsAt Reg.PNL_CTL_at) = 0 := by decide

/-- EN takes what is written. -/
theorem pnlCtl_en : ∀ a b : Bool, Reg.PNL_CTL.EN.takes ⟨true, a, b⟩ = true := by decide

section
variable (s : State) (src : Src) (v : Word)

/-- PNL_CTL as written, its commands apart. -/
def State.pnlWritten : State :=
  s.writeReg (s.permit src true) Reg.PNL_CTL_at (putBits (putBits v 2 1 0) 16 12 0)

/-- The REBASE bits of a write kept for the next scan (R499). -/
def State.marked (m : Nat) : State := { s with panel := { s.panel with rebase := s.panel.rebase ||| m } }

theorem State.pnlWritten_only : PanelOnly s (s.pnlWritten src v) ∧ s.pnlWritten src v = { s with io := (s.pnlWritten src v).io } ∧
    (s.pnlWritten src v).vault = s.vault ∧ ∀ a, a ≠ Reg.PNL_CTL_at → (s.pnlWritten src v).reg a = s.reg a :=
  ⟨panelOnly_setReg _ _ _, rfl, vault_setReg _ _ _, fun _ ha => s.reg_setReg_other _ _ _ ha⟩

theorem State.pnlWritten_en : (s.pnlWritten src v).on Reg.PNL_CTL.EN = (getBits v 0 1 != 0) := by
  have hen := s.rf_writeReg_takes (s.permit src true) Reg.PNL_CTL.EN (putBits (putBits v 2 1 0) 16 12 0) (pnlCtl_en _ _)
  rw [State.pnlWritten, State.on]
  refine congrArg (· != 0) (hen.trans ?_)
  exact (getBits_putBits_other _ _ _ _ _ _ (.inl (show 0 + 1 ≤ 16 by decide))).trans
    (getBits_putBits_other _ _ _ _ _ _ (.inl (show 0 + 1 ≤ 2 by decide)))

theorem State.reg_marked (m a : Nat) : (s.marked m).reg a = s.reg a := rfl
theorem State.rf_marked (m : Nat) (f : Fd) : (s.marked m).rf f = s.rf f := rfl
theorem State.on_marked (m : Nat) (f : Fd) : (s.marked m).on f = s.on f := rfl

/-- PNL_CTL written and the REBASE bits kept, and nothing else. -/
theorem State.pnlWritten_marked (m : Nat) : let u := (s.pnlWritten src v).marked m
    u = { s with io := u.io, panel := u.panel } ∧ u.panel = { s.panel with rebase := s.panel.rebase ||| m } ∧
      ∀ a, a ≠ Reg.PNL_CTL_at → u.reg a = s.reg a := by
  obtain ⟨-, heq, -, hregs⟩ := s.pnlWritten_only src v
  generalize s.pnlWritten src v = u at heq hregs
  have hpanel : u.panel = s.panel := by rw [heq]
  refine ⟨?_, ?_, fun a ha => (u.reg_marked m a).trans (hregs a ha)⟩
  · rw [State.marked, hpanel]
    exact congrArg (fun x : State => { x with panel := { s.panel with rebase := s.panel.rebase ||| m } }) heq
  · rw [State.marked, hpanel]

theorem refSavable_iff {t : State} (hen : t.on Reg.PNL_CTL.EN = true) (hregs : ∀ a, a ≠ Reg.PNL_CTL_at → t.reg a = s.reg a) :
    t.refSavable = true ↔ s.on Reg.PNL_STATUS.INIT = false ∧ s.rf Reg.PNL_KEYS.TOUCHED = 0 ∧ s.rf Reg.PNL_KEYS.SUSPECT = 0 ∧
      s.rf Reg.PNL_STUCK.STUCK = 0 := by
  have hrf (f : Fd) (hf : f.addr ≠ Reg.PNL_CTL_at) : t.rf f = s.rf f := by rw [State.rf, State.rf, hregs _ hf]
  have hon (f : Fd) (hf : f.addr ≠ Reg.PNL_CTL_at) : t.on f = s.on f := by rw [State.on, State.on, hrf f hf]
  rw [State.refSavable, hen, hon _ (by decide), hrf _ (by decide), hrf _ (by decide), hrf _ (by decide)]
  simp only [Bool.true_and, Bool.and_eq_true, Bool.not_eq_true', beq_iff_eq, and_assoc]

variable (hlock : s.on Reg.PNL_CTL.LOCK = false)
include hlock

theorem State.writePnlCtl_writes : s.writeOr (s.permit src (!s.on Reg.PNL_CTL.LOCK)) pnlRefuse 3 Reg.PNL_CTL_at (putBits (putBits v 2 1 0) 16 12 0) =
    .ok (s.pnlWritten src v) := by
  rw [hlock]
  exact s.writeOr_ok _ _ _ _ _ (pnlCtl_fields _ _)

/-- EN set where it was 0, with no save asked for. -/
theorem State.writePnlCtl_enables (hen : s.on Reg.PNL_CTL.EN = false) (hset : getBits v 0 1 = 1) (hsave : getBits v 2 1 = 0) :
    (s.writePnlCtl src v).st = ((s.pnlWritten src v).panelOn).marked (getBits v 16 12) := by
  have hon : (s.pnlWritten src v).on Reg.PNL_CTL.EN = true := by rw [s.pnlWritten_en, hset]; rfl
  rw [State.writePnlCtl, s.writePnlCtl_writes src v hlock]
  simp only [WRes.ok, hen, hon, hsave, Bool.not_false, Bool.and_true, if_true]
  rfl

/-- EN left at 1: the panel runs on. -/
theorem State.writePnlCtl_runs (hen : s.on Reg.PNL_CTL.EN = true) (hset : getBits v 0 1 = 1) :
    (s.writePnlCtl src v).st =
      if getBits v 2 1 = 0 then (s.pnlWritten src v).marked (getBits v 16 12)
      else if ((s.pnlWritten src v).marked (getBits v 16 12)).refSavable then
        (((s.pnlWritten src v).marked (getBits v 16 12)).vaultQueue 4).vaultBegin
      else ((s.pnlWritten src v).marked (getBits v 16 12)).refuse pnlRefuse 2 := by
  have hon : (s.pnlWritten src v).on Reg.PNL_CTL.EN = true := by rw [s.pnlWritten_en, hset]; rfl
  rw [State.writePnlCtl, s.writePnlCtl_writes src v hlock]
  simp only [WRes.ok, hen, hon, Bool.not_true, Bool.false_and, Bool.and_false, Bool.false_eq_true, if_false]
  rw [State.marked]
  split
  · rfl
  · split <;> rfl

end

theorem exec_writePnl {i : Instr} {s : State} {src : Src} {w : Word} (hon : s.online islPanel = true)
    (h : exec i s = if s.online islPanel then .next (s.writePnl src Reg.PNL_CTL_at w).st else .next s) :
    exec i s = .next (s.writePnlCtl src w).st := by
  rw [h, if_pos hon, State.writePnl, if_pos rfl]

section
variable (s : State) (src : Src) (v : Word) (hup : s.online islPanel = true) (hlock : s.on Reg.PNL_CTL.LOCK = false)

include hup hlock in
theorem panelEnable_enables (hen : s.on Reg.PNL_CTL.EN = false) (hsave : getBits v 2 1 = 0) : Does (.panelEnable src v) s (fun t => PanelOnly s t ∧
    t.on Reg.PNL_CTL.EN = true ∧ t.on Reg.PNL_STATUS.INIT = true ∧ t.panel = { Panel.reset with rebase := getBits v 16 12 } ∧
    (s.vaultRead 4 = none → t.on Reg.PNL_STATUS.NOREF = true) ∧
    ∀ w, s.vaultRead 4 = some w → t.on Reg.PNL_STATUS.NOREF = !w.testBit 0 ∧
      ∀ k, k < 12 → t.rf (Reg.PNL_REF.REF k) = w / 256 ^ (4 + 2 * k) % 2 ^ 16) := by
  have hset : getBits (putBits v 0 1 1) 0 1 = 1 := getBits_putBits_same _ _ _ _ (by decide)
  have hsave' : getBits (putBits v 0 1 1) 2 1 = 0 := (getBits_putBits_other _ _ _ _ _ _ (.inr (by decide))).trans hsave
  have hmask : getBits (putBits v 0 1 1) 16 12 = getBits v 16 12 := getBits_putBits_other _ _ _ _ _ _ (.inr (by decide))
  have hon := s.pnlWritten_en src (putBits v 0 1 1)
  have hrun := s.writePnlCtl_enables src (putBits v 0 1 1) hlock hen hset hsave'
  obtain ⟨hwonly, -, hwvault, -⟩ := s.pnlWritten_only src (putBits v 0 1 1)
  rw [hset] at hon
  rw [hmask] at hrun
  have hwread := vaultRead_congr hwvault 4
  refine ⟨_, exec_writePnl hup rfl, ?_⟩
  rw [hrun]
  generalize s.pnlWritten src (putBits v 0 1 1) = u at hwonly hon hwread
  obtain ⟨honly, hpanel, hinit, hctl, hnone, hsome⟩ := u.panelOn_starts
  rw [hwread] at hnone hsome
  have hen' : u.panelOn.on Reg.PNL_CTL.EN = true := by
    rw [State.on, State.rf, show u.panelOn.reg Reg.PNL_CTL.EN.addr = u.reg Reg.PNL_CTL.EN.addr from hctl, ← State.rf, ← State.on, hon]
    rfl
  generalize u.panelOn = x at honly hpanel hinit hnone hsome hen'
  have hrf := x.rf_marked (getBits v 16 12)
  have hon' := x.on_marked (getBits v 16 12)
  have hmarked : (x.marked (getBits v 16 12)).panel = { Panel.reset with rebase := getBits v 16 12 } := by
    rw [State.marked, hpanel]
    exact congrArg (fun n => { Panel.reset with rebase := n }) (Nat.zero_or _)
  have honly' : PanelOnly x (x.marked (getBits v 16 12)) := panelOnly_panel _ _
  generalize x.marked (getBits v 16 12) = t at hrf hon' hmarked honly'
  refine ⟨panelOnly_trans hwonly (panelOnly_trans honly honly'), ?_, ?_, hmarked, fun h => ?_, fun w hw => ?_⟩
  · rw [hon', hen']
  · rw [hon', hinit]
  · rw [hon', hnone h]
  · obtain ⟨hnoref, hrefs⟩ := hsome w hw
    exact ⟨(hon' _).trans hnoref, fun k hk => (hrf _).trans (hrefs k hk)⟩

variable (hset : getBits v 0 1 = 1) (hen : s.on Reg.PNL_CTL.EN = true)
include hset

/-- What a save finds: a panel as it was, but for PNL_CTL and the REBASE bits kept. -/
theorem saveRef_finds : let u := (s.pnlWritten src (putBits v 2 1 1)).marked (getBits v 16 12)
    u = { s with io := u.io, panel := u.panel } ∧ (∀ a, a ≠ Reg.PNL_CTL_at → u.reg a = s.reg a) ∧ (u.refSavable = true ↔
      s.on Reg.PNL_STATUS.INIT = false ∧ s.rf Reg.PNL_KEYS.TOUCHED = 0 ∧ s.rf Reg.PNL_KEYS.SUSPECT = 0 ∧ s.rf Reg.PNL_STUCK.STUCK = 0) := by
  have hset' : getBits (putBits v 2 1 1) 0 1 = 1 := (getBits_putBits_other _ _ _ _ _ _ (.inl (by decide))).trans hset
  obtain ⟨heq, -, hregs⟩ := s.pnlWritten_marked src (putBits v 2 1 1) (getBits v 16 12)
  have hon : ((s.pnlWritten src (putBits v 2 1 1)).marked (getBits v 16 12)).on Reg.PNL_CTL.EN = true :=
    (State.on_marked _ _ _).trans ((s.pnlWritten_en src (putBits v 2 1 1)).trans (by rw [hset']; rfl))
  exact ⟨heq, hregs, refSavable_iff s hon hregs⟩

include hup hlock hen

theorem saveRef_runs : exec (.saveRef src v) s =
    .next (let u := (s.pnlWritten src (putBits v 2 1 1)).marked (getBits v 16 12)
      if u.refSavable then (u.vaultQueue 4).vaultBegin else u.refuse pnlRefuse 2) := by
  have hset' : getBits (putBits v 2 1 1) 0 1 = 1 := (getBits_putBits_other _ _ _ _ _ _ (.inl (by decide))).trans hset
  have hsave : getBits (putBits v 2 1 1) 2 1 = 1 := getBits_putBits_same _ _ _ _ (by decide)
  have hmask : getBits (putBits v 2 1 1) 16 12 = getBits v 16 12 := getBits_putBits_other _ _ _ _ _ _ (.inr (by decide))
  rw [exec_writePnl hup (i := .saveRef src v) (src := src) (w := putBits v 2 1 1) rfl, s.writePnlCtl_runs src _ hlock hen hset', hsave, hmask,
    if_neg Nat.one_ne_zero]

theorem saveRef_saves (hok : s.on Reg.PNL_STATUS.INIT = false ∧ s.rf Reg.PNL_KEYS.TOUCHED = 0 ∧ s.rf Reg.PNL_KEYS.SUSPECT = 0 ∧
    s.rf Reg.PNL_STUCK.STUCK = 0) (hbusy : s.vault.cur ≠ none) : Does (.saveRef src v) s (fun t =>
      t = { s with io := t.io, panel := t.panel, vault := t.vault } ∧ t.vault.queue = s.vault.queue ++ [⟨4, false⟩] ∧
      ∀ a, a ≠ Reg.PNL_CTL_at → t.reg a = s.reg a) := by
  refine ⟨_, saveRef_runs s src v hup hlock hset hen, ?_⟩
  obtain ⟨heq, hregs, hsavable⟩ := saveRef_finds s src v hset
  generalize (s.pnlWritten src (putBits v 2 1 1)).marked (getBits v 16 12) = u at heq hregs hsavable
  have hvault : u.vault = s.vault := by rw [heq]
  have hcur : (u.vaultQueue 4).vault.cur ≠ none := by
    rw [State.cur_vaultQueue, hvault]
    exact hbusy
  dsimp only
  rw [if_pos (hsavable.2 hok), State.vaultBegin_busy _ hcur]
  refine ⟨?_, ?_, fun a ha => (u.reg_vaultQueue 4 a).trans (hregs a ha)⟩
  · exact (congrArg (fun x : State => x.vaultQueue 4) heq).trans (by rw [State.vaultQueue, State.vaultQueue, hvault])
  · rw [State.queue_vaultQueue, hvault]

theorem saveRef_refused (hno : ¬ (s.on Reg.PNL_STATUS.INIT = false ∧ s.rf Reg.PNL_KEYS.TOUCHED = 0 ∧ s.rf Reg.PNL_KEYS.SUSPECT = 0 ∧
    s.rf Reg.PNL_STUCK.STUCK = 0)) : Does (.saveRef src v) s (fun t => PanelOnly s t ∧ t.on Reg.PNL_STATUS.REFUSED = true ∧
      t.rf Reg.PNL_STATUS.REASON = 2) := by
  refine ⟨_, saveRef_runs s src v hup hlock hset hen, ?_⟩
  obtain ⟨heq, -, hsavable⟩ := saveRef_finds s src v hset
  generalize (s.pnlWritten src (putBits v 2 1 1)).marked (getBits v 16 12) = u at heq hsavable
  dsimp only
  rw [if_neg (fun h => hno (hsavable.1 h))]
  obtain ⟨hregs, hset, hreason⟩ := refused_regs (u := u) (r := pnlRefuse) (why := 2) (by decide)
  generalize u.refuse pnlRefuse 2 = t at hregs hset hreason
  refine ⟨panelOnly_trans (panelOnly_of_eq heq) (panelOnly_of_regs hregs), ?_, hreason _ rfl⟩
  · rw [State.on, show t.rf Reg.PNL_STATUS.REFUSED = 1 from hset]
    rfl

theorem rebase_marks (mask : BitVec 12) (hsave : getBits v 2 1 = 0) : Does (.rebase src mask v) s (fun t =>
    t = { s with io := t.io, panel := t.panel } ∧ t.panel = { s.panel with rebase := s.panel.rebase ||| mask.toNat } ∧
      ∀ a, a ≠ Reg.PNL_CTL_at → t.reg a = s.reg a) := by
  have hset' : getBits (putBits v 16 12 mask.toNat) 0 1 = 1 := (getBits_putBits_other _ _ _ _ _ _ (.inl (by decide))).trans hset
  have hsave' : getBits (putBits v 16 12 mask.toNat) 2 1 = 0 := (getBits_putBits_other _ _ _ _ _ _ (.inl (by decide))).trans hsave
  have hmask : getBits (putBits v 16 12 mask.toNat) 16 12 = mask.toNat :=
    (getBits_putBits_same _ _ _ _ (by decide)).trans (Nat.mod_eq_of_lt mask.isLt)
  have hrun := s.writePnlCtl_runs src (putBits v 16 12 mask.toNat) hlock hen hset'
  rw [if_pos hsave', hmask] at hrun
  refine ⟨_, exec_writePnl hup rfl, ?_⟩
  rw [hrun]
  exact s.pnlWritten_marked src _ _

end

/-! ## A scan -/

/-- A key in the ordinary scans, as the scan finds and leaves it. -/
theorem State.scan_plain (s : State) (cs : List Nat) (hlen : cs.length = 12) {k : Nat} (hk : k < 12) (hplain : Plain s k) {c : Nat} (hc : c = min 0xFFFF (cs.getD k 0))
    (hd : -(s.rf Reg.PNL_THR.NEG : Int) < s.delta k c) : ((s.scan cs).key k).up = s.upCount k c ∧
    (s.scan cs).bit Reg.PNL_KEYS.TOUCHED k =
      (if s.bit Reg.PNL_KEYS.TOUCHED k then decide (s.downCount k c < 2) else decide (2 ≤ s.upCount k c)) ∧
    ((s.scan cs).bit Reg.PNL_KEYS.TOUCHED k = true → (s.scan cs).rf (Reg.PNL_COUNT.BASELINE k) = s.rf (Reg.PNL_COUNT.BASELINE k)) := by
  obtain ⟨hscans, hrebase, hsuspect, hheld, hneg⟩ := hplain
  obtain ⟨y, hy, ht⟩ := s.scan_turn cs hlen hk
  rw [← hc] at ht
  have hbase : y.rf (Reg.PNL_COUNT.BASELINE k) = s.rf (Reg.PNL_COUNT.BASELINE k) :=
    hy.rf _ (countAddr_ne (by decide)) (countAddr_ne (by decide)) (fun _ _ hj => countAddr_inj hj) (fun _ => Nat.le_refl 16)
  have hdelta : y.delta k c = s.delta k c := by rw [State.delta, State.delta, hbase]
  have hup : y.upCount k c = s.upCount k c := by rw [State.upCount, State.upCount, hdelta, hy.setting hk Reg.PNL_THR.ON (.inl (by decide)), hy.key]
  have hdown : y.downCount k c = s.downCount k c := by
    rw [State.downCount, State.downCount, hdelta, hy.setting hk Reg.PNL_THR.OFF (.inl (by decide)), hy.key]
  have hturn := y.turn_plain k c (s.panel.scans + 1) hk (by rw [hy.panel, hrebase]) (by omega) (by rw [hy.bit _ (by decide), hsuspect])
    (by rw [hy.key, hy.setting hk _ (.inl (by decide))]; exact hheld) (by rw [hy.key, hneg])
    (by rw [hdelta, hy.setting hk _ (.inl (by decide))]; exact hd)
  rw [hup, hdown, hbase, hy.bit _ (by decide), ← ht.key, ← ht.baseline, ← ht.bit _ (.head _)] at hturn
  exact hturn

section
variable (s : State) (cs : List Nat) (hup : s.online islPanel = true) (hlen : cs.length = 12)
include hup

theorem panelScan_off (hen : s.on Reg.PNL_CTL.EN = false) : Does (.panelScan cs) s (fun t => t = s) :=
  ⟨s, if_neg (by rw [hup, hen]; decide), rfl⟩

theorem exec_panelScan (hen : s.on Reg.PNL_CTL.EN = true) : exec (.panelScan cs) s = .next (s.scan cs) :=
  if_pos (by rw [hup, hen]; rfl)

variable (hen : s.on Reg.PNL_CTL.EN = true)
include hlen hen

theorem panelScan_counts {k : Nat} (hk : k < 12) : Does (.panelScan cs) s (fun t => PanelOnly s t ∧ t.panel.scans = s.panel.scans + 1 ∧
    t.panel.rebase = 0 ∧ t.rf (Reg.PNL_COUNT.COUNT k) = min 0xFFFF (cs.getD k 0)) := by
  refine ⟨_, exec_panelScan s cs hup hen, ?_⟩
  obtain ⟨honly, hscans, hrebase⟩ := s.scan_only cs hlen
  exact ⟨honly, hscans, hrebase, s.scan_count cs hlen hk⟩

theorem panelScan_sums {k : Nat} (hk : k < 12) (hn : s.panel.scans + 1 < 16) (hr : s.panel.rebase.testBit k = false) :
    Does (.panelScan cs) s (fun t => (t.key k).sum = (s.key k).sum + min 0xFFFF (cs.getD k 0)) := by
  refine ⟨_, exec_panelScan s cs hup hen, ?_⟩
  obtain ⟨y, hy, ht⟩ := s.scan_turn cs hlen hk
  have hyr : y.panel.rebase.testBit k = false := by rw [hy.panel, hr]
  rw [ht.key, y.turn_init k _ hyr (by omega), y.initKey_sums k _ hn, hy.key]

theorem panelScan_baseline {k : Nat} (hk : k < 12) (hn : s.panel.scans + 1 = 16) (hr : s.panel.rebase.testBit k = false)
    (hsum : (s.key k).sum + min 0xFFFF (cs.getD k 0) < 2 ^ 20) : Does (.panelScan cs) s (fun t =>
      t.rf (Reg.PNL_COUNT.BASELINE k) = ((s.key k).sum + min 0xFFFF (cs.getD k 0)) / 16 ∧ t.on Reg.PNL_STATUS.INIT = false ∧
      (s.on Reg.PNL_STATUS.NOREF = false → s.bit Reg.PNL_KEYS.SUSPECT k = false → (t.bit Reg.PNL_KEYS.SUSPECT k = true ↔
        s.rf Reg.PNL_STUCK_THRESH.THRESH <
          ((((s.key k).sum + min 0xFFFF (cs.getD k 0)) / 16 : Nat) - (s.rf (Reg.PNL_REF.REF k) : Nat) : Int).natAbs))) := by
  refine ⟨_, exec_panelScan s cs hup hen, ?_⟩
  obtain ⟨y, hy, ht⟩ := s.scan_turn cs hlen hk
  have hyr : y.panel.rebase.testBit k = false := by rw [hy.panel, hr]
  have hinit : (s.scan cs).on Reg.PNL_STATUS.INIT = false := by rw [s.scan_eq cs hlen, hn]; exact State.scanned_init _
  rw [hn, y.turn_init k _ hyr (Nat.le_refl 16)] at ht
  rw [← hy.key] at hsum
  obtain ⟨hbase, hsuspect⟩ := y.initKey_baseline k _ hk hsum
  rw [State.on, hy.setting hk Reg.PNL_STATUS.NOREF (.inl (by decide)), ← State.on, hy.bit Reg.PNL_KEYS.SUSPECT (by decide),
    hy.setting hk Reg.PNL_STUCK_THRESH.THRESH (.inl (by decide)), hy.setting hk (Reg.PNL_REF.REF k) (.inr (Nat.le_add_right _ _)), hy.key] at hsuspect
  rw [hy.key] at hbase
  refine ⟨ht.baseline.trans hbase, hinit, fun hnr hs => ?_⟩
  rw [ht.bit Reg.PNL_KEYS.SUSPECT (by decide)]
  exact hsuspect hnr hs

theorem panelScan_rebases {k : Nat} (hk : k < 12) (hn : 17 ≤ s.panel.scans + 1) (hr : s.panel.rebase.testBit k = true) :
    Does (.panelScan cs) s (fun t => t.rf (Reg.PNL_COUNT.BASELINE k) = min 0xFFFF (cs.getD k 0) ∧ t.bit Reg.PNL_KEYS.TOUCHED k = false ∧
      t.bit Reg.PNL_KEYS.SUSPECT k = false ∧ t.bit Reg.PNL_STUCK.STUCK k = false) := by
  refine ⟨_, exec_panelScan s cs hup hen, ?_⟩
  obtain ⟨y, hy, ht⟩ := s.scan_turn cs hlen hk
  have hyr : y.panel.rebase.testBit k = true := by rw [hy.panel, hr]
  rw [y.turn_rebase k _ hyr (by omega)] at ht
  obtain ⟨hbase, htouched, hsuspect, hstuck⟩ := y.rebaseKey_rebases k (min 0xFFFF (cs.getD k 0)) hk
    ((Nat.min_le_left _ _).trans_lt (show 0xFFFF < 2 ^ 16 by decide))
  rw [ht.baseline, ht.bit _ (.head _), ht.bit _ (.tail _ (.head _)), ht.bit _ (.tail _ (.tail _ (.head _)))]
  exact ⟨hbase, htouched, hsuspect, hstuck⟩

end

/-- Settles O56: PNL_CTL written to start, save and rebase; a scan as one key's turn between turns that this key does not see, judged by the
kinds of turn. -/
theorem panelScansItsKeys : Obligations.PanelScansItsKeys := by
  refine ⟨fun src v mask s hup hlock => ⟨fun hen hsave => panelEnable_enables s src v hup hlock hen hsave, fun hset hen => ⟨fun hok hbusy => ?_,
    fun hno => ?_, fun hsave => ?_⟩⟩,
    fun cs k s hup hk hlen => ⟨panelScan_off s cs hup, fun hen => ⟨panelScan_counts s cs hup hlen hen hk,
      panelScan_sums s cs hup hlen hen hk, panelScan_baseline s cs hup hlen hen hk, panelScan_rebases s cs hup hlen hen hk, fun hplain hd => ?_⟩⟩⟩
  · exact saveRef_saves s src v hup hlock hset hen hok hbusy
  · exact saveRef_refused s src v hup hlock hset hen hno
  · exact rebase_marks s src v hup hlock hset hen mask hsave
  · have hrun := exec_panelScan s cs hup hen
    obtain ⟨hup', htouched, hbase⟩ := s.scan_plain cs hlen hk hplain rfl hd
    generalize s.scan cs = t at hrun hup' htouched hbase
    refine ⟨fun ht h1 h2 => ⟨t, hrun, ?_⟩, fun ht h1 h2 => ⟨t, hrun, ?_⟩, fun ht h1 h2 => ⟨t, hrun, ?_⟩, fun ht h1 => ⟨t, hrun, ?_⟩⟩
    · have hcount : s.upCount k (min 0xFFFF (cs.getD k 0)) = (s.key k).up + 1 := if_pos h2
      have hset : t.bit Reg.PNL_KEYS.TOUCHED k = true := by
        rw [htouched, ht, hcount]
        exact decide_eq_true (Nat.succ_le_succ h1)
      exact ⟨hset, hbase hset⟩
    · have hcount : s.upCount k (min 0xFFFF (cs.getD k 0)) = (s.key k).up + 1 := if_pos h2
      dsimp only
      rw [htouched, hup', ht, hcount, h1]
      exact ⟨rfl, rfl⟩
    · have hcount : s.downCount k (min 0xFFFF (cs.getD k 0)) = (s.key k).down + 1 := if_pos h2
      dsimp only
      rw [htouched, ht, hcount]
      exact decide_eq_false (by omega)
    · have hcount : s.downCount k (min 0xFFFF (cs.getD k 0)) = 0 := if_neg h1.not_gt
      dsimp only
      rw [htouched, ht, hcount]
      rfl

end Sys2Proof.Machine
end

section
/-!
PROOFS. The MACs (spec/19): byte strings, what a MAC's operations change, frames sent, and frames received and checked.
-/

namespace Sys2Proof.Machine
open Sys2Proof.Claims

/-! ## Byte strings -/

theorem length_toBytes (w n : Nat) : (toBytes w n).length = n := by
  induction n generalizing w with
  | zero => rfl
  | succ n ih => rw [toBytes, List.length_cons, ih]

theorem length_toBe (w n : Nat) : (toBe w n).length = n := by rw [toBe, List.length_reverse, length_toBytes]

/-- Every element is a byte. -/
def Octets (bs : List Nat) : Prop := ∀ b ∈ bs, b < 256

theorem octets_toBytes (w n : Nat) : Octets (toBytes w n) := by
  induction n generalizing w with
  | zero => intro b hb; cases hb
  | succ n ih =>
    intro b hb
    rcases List.mem_cons.1 hb with rfl | h
    · exact Nat.mod_lt _ (by decide)
    · exact ih _ b h

theorem octets_toBe (w n : Nat) : Octets (toBe w n) := fun b hb => octets_toBytes w n b (List.mem_reverse.1 hb)

theorem Octets.append {as bs : List Nat} (ha : Octets as) (hb : Octets bs) : Octets (as ++ bs) := by
  intro b h
  rcases List.mem_append.1 h with h | h
  · exact ha b h
  · exact hb b h

theorem natsOf_octetsOf {bs : List Nat} (h : Octets bs) : natsOf (octetsOf bs) = bs := by
  induction bs with
  | nil => rfl
  | cons b t ih =>
    have hb : (BitVec.ofNat 8 b).toNat = b := Nat.mod_eq_of_lt (h b (.head _))
    have ht := ih (fun c hc => h c (.tail _ hc))
    rw [natsOf, octetsOf, List.map_cons, List.map_cons, hb]
    exact congrArg (b :: ·) ht

theorem octets_natsOf (bs : List Byte) : Octets (natsOf bs) := by
  intro b hb
  obtain ⟨x, -, rfl⟩ := List.mem_map.1 hb
  exact x.isLt

theorem length_natsOf (bs : List Byte) : (natsOf bs).length = bs.length := List.length_map _

theorem Octets.drop {bs : List Nat} (h : Octets bs) (n : Nat) : Octets (bs.drop n) := fun b hb => h b (List.mem_of_mem_drop hb)
theorem Octets.take {bs : List Nat} (h : Octets bs) (n : Nat) : Octets (bs.take n) := fun b hb => h b (List.mem_of_mem_take hb)

/-- A slice within the first part of a string. -/
theorem slice_append_left (as bs : List Nat) (off n : Nat) (h : off + n ≤ as.length) : slice (as ++ bs) off n = slice as off n := by
  rw [slice, slice, List.drop_append_of_le_length (by omega), List.take_append_of_le_length (by rw [List.length_drop]; omega)]

/-- A slice past the first part of a string. -/
theorem slice_append_right (as bs : List Nat) (off n : Nat) (h : as.length ≤ off) : slice (as ++ bs) off n = slice bs (off - as.length) n := by
  rw [slice, slice, List.drop_append, List.drop_eq_nil_of_le h, List.nil_append]

theorem slice_self (as : List Nat) : slice as 0 as.length = as := List.take_length

/-! ## A MAC replaced -/

section
variable (s t : State) (m : Nat)

@[simp] theorem State.mac_setMac_same (v : Mac) : (s.setMac m v).mac m = v := SMap.get_set_same _ _ _ _

theorem State.mac_setMac_other (v : Mac) {k : Nat} (h : k ≠ m) : (s.setMac m v).mac k = s.mac k := SMap.get_set_other _ _ _ _ _ _ h

@[simp] theorem State.reg_setMac (v : Mac) (a : Nat) : (s.setMac m v).reg a = s.reg a := rfl
@[simp] theorem State.rf_setMac (v : Mac) (f : Fd) : (s.setMac m v).rf f = s.rf f := rfl
@[simp] theorem State.on_setMac (v : Mac) (f : Fd) : (s.setMac m v).on f = s.on f := rfl

@[simp] theorem State.mac_onMac_same (f : Mac → Mac) : (s.onMac m f).mac m = f (s.mac m) := s.mac_setMac_same m _

theorem State.mac_onMac_other (f : Mac → Mac) {k : Nat} (h : k ≠ m) : (s.onMac m f).mac k = s.mac k := s.mac_setMac_other m _ h

end

theorem mac_congr {s t : State} (h : t.eth.macs = s.eth.macs) (m : Nat) : t.mac m = s.mac m := by rw [State.mac, State.mac, h]

theorem MacOnly.mono {s t : State} {as bs : List Nat} (h : MacOnly s t as) (hsub : ∀ a ∈ as, a ∈ bs) : MacOnly s t bs :=
  ⟨h.1, fun a ha => h.2 a (fun hm => ha (hsub a hm))⟩

theorem macOnly_refl (s : State) (as : List Nat) : MacOnly s s as := ⟨rfl, fun _ _ => rfl⟩

theorem macOnly_trans {s t u : State} {as : List Nat} (h : MacOnly s t as) (h' : MacOnly t u as) : MacOnly s u as :=
  ⟨Eq.trans h'.1 (congrArg (fun x : State => { x with io := u.io, eth := { x.eth with macs := u.eth.macs } }) h.1),
    fun a ha => (h'.2 a ha).trans (h.2 a ha)⟩

theorem macOnly_setMac (s : State) (m : Nat) (v : Mac) (as : List Nat) : MacOnly s (s.setMac m v) as := ⟨rfl, fun _ _ => rfl⟩

theorem macOnly_onMac (s : State) (m : Nat) (f : Mac → Mac) (as : List Nat) : MacOnly s (s.onMac m f) as := macOnly_setMac s m _ as

theorem macOnly_setReg (s : State) (a : Nat) (v : Word) {as : List Nat} (h : a ∈ as) : MacOnly s (s.setReg a v) as :=
  ⟨rfl, fun b hb => s.reg_setReg_other a b v (fun e => hb (e ▸ h))⟩

theorem macOnly_wf (s : State) (f : Fd) (v : Nat) {as : List Nat} (h : f.addr ∈ as) : MacOnly s (s.wf f v) as := macOnly_setReg s _ _ h

theorem State.mac_setReg (s : State) (a : Nat) (v : Word) (m : Nat) : (s.setReg a v).mac m = s.mac m := rfl
theorem State.eth_setReg (s : State) (a : Nat) (v : Word) : (s.setReg a v).eth = s.eth := rfl

/-! ## Discards counted (Table fsv-2) -/

section
variable (s : State) (m code : Nat)

theorem State.drop_mac : (s.drop m code).mac m =
    { s.mac m with drops := SMap.set (s.mac m).drops 0 code (min (2 ^ 32 - 1) (SMap.get (s.mac m).drops 0 code + 1)) } := s.mac_onMac_same m _

theorem State.drop_counts : SMap.get ((s.drop m code).mac m).drops 0 code = min (2 ^ 32 - 1) (SMap.get (s.mac m).drops 0 code + 1) := by
  rw [s.drop_mac]
  exact SMap.get_set_same _ _ _ _

theorem macOnly_drop (as : List Nat) : MacOnly s (s.drop m code) as := macOnly_onMac s m _ as

theorem discarded_drop : Discarded s (s.drop m code) m code := by
  refine ⟨macOnly_drop s m code [], fun c => ?_, fun k => ?_⟩
  · rw [s.drop_mac, SMap.get_set]
    split
    · next h => rw [h]
    · rfl
  · split
    · next h => rw [h, s.drop_mac]
    · next h => exact s.mac_onMac_other m _ h

end

/-! ## Transmission (R470) -/

section
variable (s : State) (m : Nat)

theorem State.txNext_idle (h : (s.mac m).sending ≠ none ∨ s.canSend m = false) : s.txNext m = s := by
  rw [State.txNext]
  refine if_pos ?_
  rcases h with h | h
  · rw [Option.isSome_iff_ne_none.2 h, Bool.true_or]
  · rw [h, Bool.not_false, Bool.or_true]

theorem State.txNext_empty (h : (s.mac m).txq = []) : s.txNext m = s := by
  rw [State.txNext, h]
  split <;> rfl

theorem firstOf_head (q : List TxFrame) (g : TxFrame) : firstOf (g :: q) g.cls = some g := by
  exact List.find?_cons_of_pos (beq_self_eq_true g.cls)

theorem firstOf_below {q : List TxFrame} {c : Nat} (h : ∀ f ∈ q, c < f.cls) : firstOf q c = none := by
  rw [firstOf, List.find?_eq_none]
  intro f hf
  have := h f hf
  simp only [beq_iff_eq]
  omega

/-- The head of the queue, of the lowest class there. -/
theorem findSome_firstOf {q : List TxFrame} {g : TxFrame} (hle : ∀ h ∈ q, g.cls ≤ h.cls) (hcls : g.cls < 4) :
    (List.range 4).findSome? (firstOf (g :: q)) = some g := by
  have hall : ∀ f ∈ g :: q, g.cls ≤ f.cls := by
    intro f hf
    rcases List.mem_cons.1 hf with rfl | h
    · exact Nat.le_refl _
    · exact hle f h
  have hsplit : List.range 4 = List.range g.cls ++ g.cls :: (List.range (3 - g.cls)).map (fun i => g.cls + 1 + i) :=
    (by decide : ∀ n : Fin 4, List.range 4 = List.range n.val ++ n.val :: (List.range (3 - n.val)).map (fun i => n.val + 1 + i)) ⟨g.cls, hcls⟩
  have hbelow : (List.range g.cls).findSome? (firstOf (g :: q)) = none := by
    rw [List.findSome?_eq_none_iff]
    intro c hc
    exact firstOf_below (fun f hf => (List.mem_range.1 hc).trans_le (hall f hf))
  rw [hsplit, List.findSome?_append, hbelow, Option.none_or, List.findSome?_cons, firstOf_head]

/-- The frame at the head of the queue starts where none of a lower class waits. -/
theorem State.txNext_starts {g : TxFrame} {rest : List TxFrame} (hidle : (s.mac m).sending = none) (hcan : s.canSend m = true)
    (hq : (s.mac m).txq = g :: rest) (hcls : g.cls < 4) (hle : ∀ h ∈ rest, g.cls ≤ h.cls) :
    s.txNext m = s.setMac m { s.mac m with txq := rest, sending := some g } := by
  have hdrop : dropFrame (g :: rest) g = rest := by rw [dropFrame, if_pos rfl]
  rw [State.txNext]
  dsimp only
  rw [hidle, hcan, if_neg (by decide), hq, findSome_firstOf hle hcls]
  dsimp only
  rw [hdrop]

theorem macOnly_txNext (as : List Nat) : MacOnly s (s.txNext m) as := by
  rw [State.txNext]
  split
  · exact macOnly_refl s as
  · split
    · exact macOnly_setMac s m _ as
    · exact macOnly_refl s as

/-- A frame queued on a MAC that is sending waits. -/
theorem State.txFrame_waits (cls stream : Nat) (bs : List Nat) (h : Sending s m) :
    s.txFrame m cls stream bs = s.onMac m (fun x => { x with txq := x.txq ++ [⟨cls, stream, octetsOf bs⟩] }) := by
  rw [State.txFrame]
  refine State.txNext_idle _ m (.inl ?_)
  rw [State.mac_onMac_same]
  exact h

theorem macOnly_txFrame (cls stream : Nat) (bs : List Nat) (as : List Nat) : MacOnly s (s.txFrame m cls stream bs) as :=
  macOnly_trans (macOnly_onMac s m _ as) (macOnly_txNext _ m as)

theorem octets_etherHead (da ty : Nat) : Octets (s.etherHead m da ty) := by
  rw [State.etherHead]
  refine (((octets_toBe da 6).append (octets_toBe (macAddr m) 6)).append ?_).append (octets_toBe ty 2)
  split
  · exact (show Octets [0x81, 0] from (by decide : ∀ b ∈ [0x81, 0], b < 256)).append (octets_toBe _ 2)
  · intro b hb; cases hb

/-- What goes on the wire: the addresses, and without a tag the EtherType and what follows it. -/
theorem State.etherHead_reads (da ty : Nat) (rest : List Nat) :
    slice (s.etherHead m da ty ++ rest) 0 12 = toBe da 6 ++ toBe (macAddr m) 6 ∧
    (s.on (Reg.ETH_VLAN.VEN m) = false → slice (s.etherHead m da ty ++ rest) 12 2 = toBe ty 2 ∧ (s.etherHead m da ty ++ rest).drop 14 = rest) := by
  have haddr : (toBe da 6 ++ toBe (macAddr m) 6).length = 12 := by rw [List.length_append, length_toBe, length_toBe]
  rw [State.etherHead]
  refine ⟨?_, fun hven => ?_⟩
  · rw [List.append_assoc, List.append_assoc, slice_append_left _ _ _ _ (by rw [haddr])]
    have h := slice_self (toBe da 6 ++ toBe (macAddr m) 6)
    rw [haddr] at h
    exact h
  · have hty : (toBe ty 2).length = 2 := length_toBe ty 2
    rw [hven, if_neg Bool.false_ne_true, List.append_nil, List.append_assoc]
    refine ⟨?_, ?_⟩
    · rw [slice_append_right _ _ _ _ haddr.le, haddr, slice_append_left _ _ _ _ hty.ge]
      have h := slice_self (toBe ty 2)
      rw [hty] at h
      exact h
    · rw [← List.append_assoc]
      exact List.drop_left' (by rw [List.length_append, haddr, hty])

/-- One frame more waits, to an address, of a type, with what follows. -/
theorem queued_txFrame (cls stream da ty : Nat) (rest : List Nat) (P : List Nat → Prop) (h : Sending s m) (hrest : Octets rest) (hP : P rest) :
    Queued s (s.txFrame m cls stream (s.etherHead m da ty ++ rest)) m cls da ty P := by
  obtain ⟨haddr, hbody⟩ := s.etherHead_reads m da ty rest
  have hbytes : natsOf (octetsOf (s.etherHead m da ty ++ rest)) = s.etherHead m da ty ++ rest :=
    natsOf_octetsOf ((octets_etherHead s m da ty).append hrest)
  rw [s.txFrame_waits m cls stream _ h]
  refine ⟨⟨cls, stream, octetsOf (s.etherHead m da ty ++ rest)⟩, ?_, rfl, ?_, fun hven => ?_⟩
  · rw [State.mac_onMac_same]
  · rw [hbytes, haddr]
  · obtain ⟨hty, hdrop⟩ := hbody hven
    rw [hbytes, hdrop]
    exact ⟨hty, hP⟩

theorem queued_congr {s s' t : State} {m cls da ty : Nat} {P : List Nat → Prop} (h : Queued s' t m cls da ty P) (hmac : (s'.mac m).txq = (s.mac m).txq)
    (hven : s'.on (Reg.ETH_VLAN.VEN m) = s.on (Reg.ETH_VLAN.VEN m)) : Queued s t m cls da ty P := by
  rw [Queued, hmac, hven] at h
  exact h

end

end Sys2Proof.Machine
end

section
/-!
PROOFS. Frames received (R465, R468 to R474): the checks of Table fsv-1, ARP, IPv4 and the datagrams for firmware.
-/

namespace Sys2Proof.Machine
open Sys2Proof.Claims

/-! ## The checks of Table fsv-1 -/

theorem framePartsOf_tagged {f : List Nat} (h : beAt f 12 2 = 0x8100) :
    framePartsOf f = ⟨true, beAt f 14 2 % 4096, beAt f 16 2, (f.take (f.length - 4)).drop 18⟩ := by
  rw [framePartsOf]
  simp only [h, decide_true, if_true]

theorem framePartsOf_plain {f : List Nat} (h : beAt f 12 2 ≠ 0x8100) :
    framePartsOf f = ⟨false, beAt f 14 2 % 4096, beAt f 12 2, (f.take (f.length - 4)).drop 14⟩ := by
  rw [framePartsOf]
  simp only [h, decide_false, if_false]

/-- A second tag, or an 802.1ad tag. -/
def twoTags (f : List Nat) : Bool :=
  beAt f 12 2 == 0x88A8 || ((framePartsOf f).tagged && ((framePartsOf f).type == 0x8100 || (framePartsOf f).type == 0x88A8))

theorem twoTags_tagged {f : List Nat} (h : beAt f 12 2 = 0x8100) : twoTags f = (beAt f 16 2 == 0x8100 || beAt f 16 2 == 0x88A8) := by
  rw [twoTags, framePartsOf_tagged h, h]
  rfl

theorem twoTags_plain {f : List Nat} (h : beAt f 12 2 ≠ 0x8100) : twoTags f = (beAt f 12 2 == 0x88A8) := by
  rw [twoTags, framePartsOf_plain h]
  exact Bool.or_false _

section
variable (s : State) (m : Nat) (f : List Nat) (full : Bool)

theorem frameCheck_fcs : s.frameCheck m f false full = some 0x00 := rfl

theorem frameCheck_eq : s.frameCheck m f true full =
    if f.length < 64 then some 0x01
    else if !twoTags f ∧ (if (framePartsOf f).tagged then 1522 else 1518) < f.length then some 0x02
    else if twoTags f then some 0x03
    else if !isPause f ∧ beAt f 0 6 ≠ macAddr m ∧ beAt f 0 6 ≠ hwAll then some 0x04
    else if !isPause f ∧ !s.vlanOk m (framePartsOf f) then some 0x03
    else if !isPause f ∧ (framePartsOf f).type ≠ 0x0800 ∧ (framePartsOf f).type ≠ 0x0806 then some 0x05
    else if full then some 0x06
    else none := rfl

theorem frameCheck_short (h : f.length < 64) : s.frameCheck m f true full = some 0x01 := by rw [frameCheck_eq, if_pos h]

theorem isPause_plain (hty : beAt f 12 2 ≠ 0x8100) (hpause : beAt f 12 2 ≠ 0x8808) : isPause f = false := by
  rw [isPause, framePartsOf_plain hty]
  dsimp only
  rw [beq_false_of_ne hpause, Bool.false_and, Bool.false_and]

section
variable (hlen : 64 ≤ f.length)
include hlen

theorem frameCheck_twoTags (h : twoTags f = true) : s.frameCheck m f true full = some 0x03 := by
  rw [frameCheck_eq, if_neg hlen.not_gt, h, if_neg (fun h => Bool.false_ne_true h.1), if_pos rfl]

theorem frameCheck_longTagged (hty : beAt f 12 2 = 0x8100) (h1 : beAt f 16 2 ≠ 0x8100) (h2 : beAt f 16 2 ≠ 0x88A8) (h : 1522 < f.length) :
    s.frameCheck m f true full = some 0x02 := by
  have htags : twoTags f = false := by rw [twoTags_tagged hty, beq_false_of_ne h1, beq_false_of_ne h2]; rfl
  have htagged : (framePartsOf f).tagged = true := by rw [framePartsOf_tagged hty]
  rw [frameCheck_eq, if_neg hlen.not_gt, htags, htagged]
  exact if_pos ⟨rfl, h⟩

section
variable (hty : beAt f 12 2 ≠ 0x8100)
include hty

variable (hstag : beAt f 12 2 ≠ 0x88A8)
include hstag

/-- An untagged frame is judged by its length and, past that, as the rest of the table says. -/
theorem frameCheck_plain : s.frameCheck m f true full =
    if 1518 < f.length then some 0x02
    else if !isPause f ∧ beAt f 0 6 ≠ macAddr m ∧ beAt f 0 6 ≠ hwAll then some 0x04
    else if !isPause f ∧ !s.vlanOk m (framePartsOf f) then some 0x03
    else if !isPause f ∧ beAt f 12 2 ≠ 0x0800 ∧ beAt f 12 2 ≠ 0x0806 then some 0x05
    else if full then some 0x06
    else none := by
  have htags : twoTags f = false := by rw [twoTags_plain hty, beq_false_of_ne hstag]
  have htagged : (framePartsOf f).tagged = false := by rw [framePartsOf_plain hty]
  have htype : (framePartsOf f).type = beAt f 12 2 := by rw [framePartsOf_plain hty]
  rw [frameCheck_eq, if_neg hlen.not_gt, htags, htagged, htype]
  simp only [Bool.not_false, true_and, Bool.false_eq_true, if_false]

variable (hshort : f.length ≤ 1518) (hpause : beAt f 12 2 ≠ 0x8808)
include hshort hpause

theorem frameCheck_address (h1 : beAt f 0 6 ≠ macAddr m) (h2 : beAt f 0 6 ≠ 2 ^ 48 - 1) : s.frameCheck m f true full = some 0x04 := by
  rw [frameCheck_plain s m f full hlen hty hstag, if_neg hshort.not_gt, isPause_plain f hty hpause]
  exact if_pos ⟨rfl, h1, h2⟩

variable (hda : beAt f 0 6 = macAddr m ∨ beAt f 0 6 = 2 ^ 48 - 1) (hven : s.on (Reg.ETH_VLAN.VEN m) = false)
include hda hven

/-- An untagged frame to the MAC or to all, where tags are not asked for: its EtherType and the buffer are judged. -/
theorem frameCheck_here : s.frameCheck m f true full =
    if beAt f 12 2 ≠ 0x0800 ∧ beAt f 12 2 ≠ 0x0806 then some 0x05 else if full then some 0x06 else none := by
  have hvlan : s.vlanOk m (framePartsOf f) = true := by
    rw [State.vlanOk, hven, framePartsOf_plain hty]
    rfl
  have hda' : ¬ (beAt f 0 6 ≠ macAddr m ∧ beAt f 0 6 ≠ hwAll) := fun h => hda.elim h.1 h.2
  rw [frameCheck_plain s m f full hlen hty hstag, if_neg hshort.not_gt, isPause_plain f hty hpause, hvlan]
  simp only [Bool.not_false, true_and, Bool.not_true, Bool.false_eq_true, and_false, if_false, hda']

end

end

/-! ## What an accepted frame does -/

/-- A frame counted as received. -/
def State.rxCounted : State := s.incWrap (Reg.ETH_RX_FRAMES.COUNT m)

theorem rxCounted_only : MacOnly s (s.rxCounted m) [Reg.ETH_RX_FRAMES_at m] := macOnly_setReg s _ _ (.head _)

theorem State.mac_rxCounted (k : Nat) : (s.rxCounted m).mac k = s.mac k := State.mac_setReg _ _ _ _

theorem State.eth_rxCounted : (s.rxCounted m).eth = s.eth := State.eth_setReg _ _ _

theorem State.rf_rxCounted : (s.rxCounted m).rf (Reg.ETH_RX_FRAMES.COUNT m) = (s.rf (Reg.ETH_RX_FRAMES.COUNT m) + 1) % 2 ^ 32 :=
  s.rf_wf_same (Reg.ETH_RX_FRAMES.COUNT m) _ (Nat.le_refl 32)

theorem rxFrame_dropped {fcs : Bool} {c : Nat} (h : s.frameCheck m f fcs full = some c) : s.rxFrame m f fcs full = s.drop m c := by
  rw [State.rxFrame, h]

theorem rxFrame_accepted {fcs : Bool} (h : s.frameCheck m f fcs full = none) (hp : isPause f = false) : s.rxFrame m f fcs full =
    if s.rf (Reg.ETH_IPCFG.MODE m) = 0 then s.rxCounted m
    else if (framePartsOf f).type = 0x0806 then (s.rxCounted m).rxArp m (framePartsOf f).body
    else (s.rxCounted m).rxIp m (beAt f 6 6) (framePartsOf f).body := by
  have hmode : (s.rxCounted m).rf (Reg.ETH_IPCFG.MODE m) = s.rf (Reg.ETH_IPCFG.MODE m) := by
    refine s.rf_wf_other _ _ _ (.inl ?_)
    show 0x4644 + 0x20 * m ≠ 0x464C + 0x20 * m
    omega
  rw [State.rxFrame, h, ← hmode]
  dsimp only
  rw [hp, if_neg Bool.false_ne_true]
  rfl

end

/-! ## ARP (R472) -/

section
variable (s : State) (m : Nat) (p : List Nat)

theorem slice_sub {bs l : List Nat} {n : Nat} (h : slice bs 0 n = l) (off k : Nat) (hk : off + k ≤ n) : slice bs off k = (l.drop off).take k := by
  subst h
  rw [slice, slice, List.drop_zero, List.drop_take, List.take_take, Nat.min_eq_left (by omega)]

/-- A request for the own address is answered with the MAC's. -/
theorem rxArp_answers (hmode : s.rf (Reg.ETH_IPCFG.MODE m) ≠ 0) (hown : s.rf (Reg.ETH_IPADDR.VALUE m) ≠ 0) (hlen : 28 ≤ p.length)
    (hhead : slice p 0 8 = [0, 1, 8, 0, 6, 4, 0, 1]) (htarget : beAt p 24 4 = s.rf (Reg.ETH_IPADDR.VALUE m)) :
    s.rxArp m p = s.txFrame m 0 0 (s.etherHead m (beAt p 8 6) 0x0806 ++ ([0, 1, 8, 0, 6, 4, 0, 2] ++ toBe (macAddr m) 6 ++
      toBe (s.rf (Reg.ETH_IPADDR.VALUE m)) 4 ++ toBe (beAt p 8 6) 6 ++ toBe (beAt p 14 4) 4)) := by
  have hfmt : slice p 0 6 = [0, 1, 8, 0, 6, 4] := slice_sub hhead 0 6 (by decide)
  have hop : beAt p 6 2 = 1 := by rw [beAt, slice_sub hhead 6 2 (by decide)]; rfl
  have haddr : s.ipAddr m = s.rf (Reg.ETH_IPADDR.VALUE m) := if_neg hmode
  rw [State.rxArp, if_neg (fun h => h.elim hmode (fun h => h ⟨hfmt, hlen⟩)), hop, haddr, if_pos ⟨rfl, htarget, hown⟩, State.txArp, haddr]
  simp only [List.append_assoc]
  rfl

end

/-! ## IPv4 (R471) and datagrams for firmware (R474) -/

section
variable (s : State) (m hw : Nat) (b : List Nat)

theorem rxIp_malformed (h : beAt b 0 1 ≠ 0x45 ∨ csum16 (slice b 0 20) ≠ 0 ∨ b.length < beAt b 2 2) : s.rxIp m hw b = s.drop m 0x07 := by
  rw [State.rxIp]
  refine if_pos ?_
  rcases h with h | h | h
  · exact .inl h
  · exact .inr (.inr (.inl h))
  · exact .inr (.inr (.inr (.inr h)))

variable {total proto src dst : Nat} (hdr : IpHeader b total proto src dst)
include hdr

/-- A packet whose header is sound is judged by its fragment field, its destination and its protocol. -/
theorem rxIp_sound : s.rxIp m hw b =
    if beAt b 6 2 % 2 ^ 14 ≠ 0 then s.drop m 0x08
    else if ¬ ((dst = s.ipAddr m ∧ s.ipAddr m ≠ 0) ∨ dst = ipAll ∨ dst = s.ipSubAll m) then s.drop m 0x09
    else if proto = 1 then s.rxIcmp m hw src (decide (¬ (dst = s.ipAddr m ∧ s.ipAddr m ≠ 0))) (slice b 20 (total - 20))
    else if proto = 17 then s.rxUdp m hw src dst (decide (¬ (dst = s.ipAddr m ∧ s.ipAddr m ≠ 0))) (slice b 20 (total - 20))
    else s.drop m 0x0A := by
  obtain ⟨hlen, htot, hmin, hver, htotal, hsum, hproto, hsrc, hdst⟩ := hdr
  rw [State.rxIp]
  dsimp only
  rw [hver, htotal, hsum, hproto, hsrc, hdst, if_neg (by omega)]

theorem rxIp_fragment (h : beAt b 6 2 % 2 ^ 14 ≠ 0) : s.rxIp m hw b = s.drop m 0x08 := by rw [rxIp_sound s m hw b hdr, if_pos h]

variable (hfrag : beAt b 6 2 % 2 ^ 14 = 0)
include hfrag

theorem rxIp_elsewhere (h1 : dst ≠ s.ipAddr m) (h2 : dst ≠ 2 ^ 32 - 1) (h3 : dst ≠ s.ipSubAll m) : s.rxIp m hw b = s.drop m 0x09 := by
  rw [rxIp_sound s m hw b hdr, if_neg (not_not.2 hfrag), if_pos (fun h => h.elim (fun h => h1 h.1) (fun h => h.elim h2 h3))]

variable (hown : s.ipAddr m ≠ 0) (hdst : dst = s.ipAddr m)
include hown hdst

theorem rxIp_protocol (h1 : proto ≠ 1) (h2 : proto ≠ 17) : s.rxIp m hw b = s.drop m 0x0A := by
  rw [rxIp_sound s m hw b hdr, if_neg (not_not.2 hfrag), if_neg (not_not.2 (.inl ⟨hdst, hown⟩)), if_neg h1, if_neg h2]

theorem rxIp_udp (h : proto = 17) : s.rxIp m hw b = s.rxUdp m hw src dst false (slice b 20 (total - 20)) := by
  have hcast : decide (¬ (dst = s.ipAddr m ∧ s.ipAddr m ≠ 0)) = false := decide_eq_false (not_not.2 ⟨hdst, hown⟩)
  rw [rxIp_sound s m hw b hdr, if_neg (not_not.2 hfrag), if_neg (not_not.2 (.inl ⟨hdst, hown⟩)), h, if_neg (by decide), if_pos rfl, hcast]

end

section
variable (s : State) (m hw src dst : Nat) (u : List Nat)

/-- A datagram without a checksum, for a firmware port. -/
theorem rxUdp_firmware (hlen : beAt u 4 2 = u.length) (hsum : beAt u 6 2 = 0) (hport : beAt u 2 2 = s.rf (Reg.ETH_FW_PORT.PORT_A 0))
    (hne : beAt u 2 2 ≠ 0) (hne' : beAt u 2 2 ≠ 68) (hne'' : beAt u 2 2 ≠ 47110) :
    s.rxUdp m hw src dst false u = s.rxFw m src (beAt u 0 2) (beAt u 2 2) (u.drop 8) := by
  rw [State.rxUdp, hlen, List.take_length, if_neg (fun h => h.1 hsum), if_neg hne'', if_neg hne', if_pos ⟨hne, .inl hport⟩, if_neg Bool.false_ne_true]

theorem rxFw_full (ip sport dport : Nat) (p : List Nat) (h : 16384 < (s.eth.frx.map (fun d => d.data.length)).sum + p.length) :
    s.rxFw m ip sport dport p = s.drop m 0x12 := if_pos h

theorem rxFw_queues (ip sport dport : Nat) (p : List Nat) (h : (s.eth.frx.map (fun d => d.data.length)).sum + p.length ≤ 16384) :
    (s.rxFw m ip sport dport p).eth.frx = s.eth.frx ++ [⟨m, ip, sport, dport, octetsOf p⟩] ∧
    ∀ f, (s.rxFw m ip sport dport p).rf f = s.rf f := by
  rw [State.rxFw]
  dsimp only
  rw [if_neg h.not_gt]
  split
  · refine ⟨?_, fun f => State.rf_raiseIf _ _ _ _⟩
    rw [State.raiseIf_eq]
    rfl
  · exact ⟨rfl, fun _ => rfl⟩

end

/-! ## Frames received -/

section
variable (m : Fin 2) (f : List Byte) (fcs full : Bool) (s : State) (hup : s.ethUp = true)
include hup

theorem frameReceive_closed (hserves : s.ethServes = false) : Does (.frameReceive m f fcs full) s (fun t => Discarded s t m.val 0x11) := by
  refine ⟨s.drop m.val 0x11, ?_, discarded_drop s m.val 0x11⟩
  rw [show exec (.frameReceive m f fcs full) s = execFrameReceive m f fcs full s from rfl, execFrameReceive, hup, hserves]
  rfl

variable (hserves : s.ethServes = true)
include hserves

theorem frameReceive_noLink (hlink : s.on (Reg.ETH_LINK.UP m.val) = false) : Does (.frameReceive m f fcs full) s (fun t => t = s) := by
  refine ⟨s, ?_, rfl⟩
  rw [show exec (.frameReceive m f fcs full) s = execFrameReceive m f fcs full s from rfl, execFrameReceive, hup, hserves, hlink]
  rfl

variable (hlink : s.on (Reg.ETH_LINK.UP m.val) = true)
include hlink

theorem exec_frameReceive : exec (.frameReceive m f fcs full) s = .next (s.rxFrame m.val (natsOf f) fcs full) := by
  rw [show exec (.frameReceive m f fcs full) s = execFrameReceive m f fcs full s from rfl, execFrameReceive, hup, hserves, hlink]
  rfl

theorem frameReceive_discards {c : Nat} (h : s.frameCheck m.val (natsOf f) fcs full = some c) :
    Does (.frameReceive m f fcs full) s (fun t => Discarded s t m.val c) :=
  ⟨s.drop m.val c, (exec_frameReceive m f fcs full s hup hserves hlink).trans (by rw [rxFrame_dropped s m.val _ full h]), discarded_drop s m.val c⟩

end

/-- The counter of received frames lies apart from the registers frames are judged by. -/
theorem rxFramesAddr : ∀ m : Fin 2, (∀ a ∈ [Reg.ETH_VLAN_at m.val, Reg.ETH_IPCFG_at m.val, Reg.ETH_IPADDR_at m.val, Reg.ETH_NETMASK_at m.val,
    Reg.ETH_FW_PORT_at 0], a ≠ Reg.ETH_RX_FRAMES_at m.val) := by decide

section
variable (m : Fin 2) (s : State)

theorem State.rf_rxCounted_other (f : Fd) (h : f.addr ∈ [Reg.ETH_VLAN_at m.val, Reg.ETH_IPCFG_at m.val, Reg.ETH_IPADDR_at m.val,
    Reg.ETH_NETMASK_at m.val, Reg.ETH_FW_PORT_at 0]) : (s.rxCounted m.val).rf f = s.rf f :=
  s.rf_wf_other _ _ _ (.inl (rxFramesAddr m f.addr h))

theorem State.mode_rxCounted : (s.rxCounted m.val).rf (Reg.ETH_IPCFG.MODE m.val) = s.rf (Reg.ETH_IPCFG.MODE m.val) :=
  s.rf_rxCounted_other m _ (.tail _ (.head _))

theorem State.value_rxCounted : (s.rxCounted m.val).rf (Reg.ETH_IPADDR.VALUE m.val) = s.rf (Reg.ETH_IPADDR.VALUE m.val) :=
  s.rf_rxCounted_other m _ (.tail _ (.tail _ (.head _)))

theorem State.ipAddr_rxCounted : (s.rxCounted m.val).ipAddr m.val = s.ipAddr m.val := by
  rw [State.ipAddr, State.ipAddr, s.mode_rxCounted, s.value_rxCounted]

theorem State.ipSubAll_rxCounted : (s.rxCounted m.val).ipSubAll m.val = s.ipSubAll m.val := by
  rw [State.ipSubAll, State.ipSubAll, s.ipAddr_rxCounted, s.rf_rxCounted_other m (Reg.ETH_NETMASK.VALUE m.val) (.tail _ (.tail _ (.tail _ (.head _))))]

theorem State.ven_rxCounted : (s.rxCounted m.val).on (Reg.ETH_VLAN.VEN m.val) = s.on (Reg.ETH_VLAN.VEN m.val) := by
  rw [State.on, State.on, s.rf_rxCounted_other m _ (.head _)]

/-- A frame counted as received and then discarded. -/
theorem rxCounted_drop (c : Nat) : ((s.rxCounted m.val).drop m.val c).rf (Reg.ETH_RX_FRAMES.COUNT m.val) =
      (s.rf (Reg.ETH_RX_FRAMES.COUNT m.val) + 1) % 2 ^ 32 ∧
    SMap.get (((s.rxCounted m.val).drop m.val c).mac m.val).drops 0 c = min (2 ^ 32 - 1) (SMap.get (s.mac m.val).drops 0 c + 1) ∧
    MacOnly s ((s.rxCounted m.val).drop m.val c) [Reg.ETH_RX_FRAMES_at m.val] := by
  refine ⟨(State.rf_setMac _ _ _ _).trans (s.rf_rxCounted m.val), ?_, macOnly_trans (rxCounted_only s m.val) (macOnly_drop _ _ _ _)⟩
  rw [State.drop_counts, s.mac_rxCounted]

end

/-- What a datagram for firmware comes to: the words of its header that its handling judges. -/
theorem rxIp_firmware (m : Fin 2) (s : State) (hw : Nat) {body : List Nat} (hmode : s.rf (Reg.ETH_IPCFG.MODE m.val) ≠ 0) {total src dst : Nat} (hdr : IpHeader body total 17 src dst) (hfrag : beAt body 6 2 % 2 ^ 14 = 0)
    (hown : s.rf (Reg.ETH_IPADDR.VALUE m.val) ≠ 0) (hdst : dst = s.rf (Reg.ETH_IPADDR.VALUE m.val)) {u : List Nat}
    (hu : u = slice body 20 (total - 20)) (hulen : beAt u 4 2 = total - 20) (hsum : beAt u 6 2 = 0)
    (hport : beAt u 2 2 = s.rf (Reg.ETH_FW_PORT.PORT_A 0)) (h0 : beAt u 2 2 ≠ 0) (h68 : beAt u 2 2 ≠ 68) (hfsv : beAt u 2 2 ≠ 47110) :
    (s.rxCounted m.val).rxIp m.val hw body =
      (s.rxCounted m.val).rxFw m.val src (beAt u 0 2) (beAt u 2 2) (u.drop 8) ∧ u.length = total - 20 := by
  obtain ⟨hlen, htot, hmin, -⟩ := id hdr
  have haddr : (s.rxCounted m.val).ipAddr m.val = s.rf (Reg.ETH_IPADDR.VALUE m.val) := (s.ipAddr_rxCounted m).trans (if_neg hmode)
  have hlength : u.length = total - 20 := by
    rw [hu, slice, List.length_take, List.length_drop]
    omega
  have hport' : beAt u 2 2 = (s.rxCounted m.val).rf (Reg.ETH_FW_PORT.PORT_A 0) := by
    rw [s.rf_rxCounted_other m (Reg.ETH_FW_PORT.PORT_A 0) (.tail _ (.tail _ (.tail _ (.tail _ (.head _)))))]
    exact hport
  refine ⟨?_, hlength⟩
  rw [rxIp_udp _ m.val _ body hdr hfrag (by rw [haddr]; exact hown) (by rw [haddr]; exact hdst) rfl, ← hu]
  exact rxUdp_firmware _ m.val _ src dst u (by rw [hulen, hlength]) hsum hport' h0 h68 hfsv

/-! ## A frame for this MAC, accepted -/

section
variable (m : Fin 2) (f : List Byte) (s : State) (hup : s.ethUp = true) (hserves : s.ethServes = true) (hlink : s.on (Reg.ETH_LINK.UP m.val) = true)
  (hlen : 64 ≤ f.length) (hshort : f.length ≤ 1518) (hty : beAt (natsOf f) 12 2 = 0x0800 ∨ beAt (natsOf f) 12 2 = 0x0806)
  (hda : beAt (natsOf f) 0 6 = macAddr m.val ∨ beAt (natsOf f) 0 6 = 2 ^ 48 - 1) (hven : s.on (Reg.ETH_VLAN.VEN m.val) = false)
include hup hserves hlink hlen hshort hty hda hven

theorem exec_acceptedFrame : exec (.frameReceive m f true false) s = .next (
    if s.rf (Reg.ETH_IPCFG.MODE m.val) = 0 then s.rxCounted m.val
    else if beAt (natsOf f) 12 2 = 0x0806 then (s.rxCounted m.val).rxArp m.val (((natsOf f).take ((natsOf f).length - 4)).drop 14)
    else (s.rxCounted m.val).rxIp m.val (beAt (natsOf f) 6 6) (((natsOf f).take ((natsOf f).length - 4)).drop 14)) := by
  have htag : beAt (natsOf f) 12 2 ≠ 0x8100 := by omega
  have hpause : beAt (natsOf f) 12 2 ≠ 0x8808 := by omega
  have hstag : beAt (natsOf f) 12 2 ≠ 0x88A8 := by omega
  have hcheck := frameCheck_here s m.val (natsOf f) false (by rw [length_natsOf]; exact hlen) htag hstag (by rw [length_natsOf]; exact hshort)
    hpause hda hven
  rw [if_neg (fun h => hty.elim h.1 h.2), if_neg Bool.false_ne_true] at hcheck
  rw [exec_frameReceive m f true false s hup hserves hlink, rxFrame_accepted s m.val (natsOf f) false hcheck (isPause_plain (natsOf f) htag hpause),
    framePartsOf_plain htag]

theorem frameReceive_off (hmode : s.rf (Reg.ETH_IPCFG.MODE m.val) = 0) : Does (.frameReceive m f true false) s (fun t =>
    t.rf (Reg.ETH_RX_FRAMES.COUNT m.val) = (s.rf (Reg.ETH_RX_FRAMES.COUNT m.val) + 1) % 2 ^ 32 ∧ MacOnly s t [Reg.ETH_RX_FRAMES_at m.val] ∧
    t.eth = s.eth) := by
  refine ⟨_, exec_acceptedFrame m f s hup hserves hlink hlen hshort hty hda hven, ?_⟩
  rw [if_pos hmode]
  exact ⟨s.rf_rxCounted m.val, rxCounted_only s m.val, s.eth_rxCounted m.val⟩

variable (hmode : s.rf (Reg.ETH_IPCFG.MODE m.val) ≠ 0)
include hmode

variable {body : List Nat} (hb : body = ((natsOf f).take ((natsOf f).length - 4)).drop 14)
include hb

theorem frameReceive_arp (hown : s.rf (Reg.ETH_IPADDR.VALUE m.val) ≠ 0) (harp : beAt (natsOf f) 12 2 = 0x0806) (hsend : Sending s m.val)
    (hhead : slice body 0 8 = [0, 1, 8, 0, 6, 4, 0, 1]) (htarget : beAt body 24 4 = s.rf (Reg.ETH_IPADDR.VALUE m.val)) :
    Does (.frameReceive m f true false) s (fun t =>
      t.rf (Reg.ETH_RX_FRAMES.COUNT m.val) = (s.rf (Reg.ETH_RX_FRAMES.COUNT m.val) + 1) % 2 ^ 32 ∧ MacOnly s t [Reg.ETH_RX_FRAMES_at m.val] ∧
      Queued s t m.val 0 (beAt body 8 6) 0x0806 (fun b => b = [0, 1, 8, 0, 6, 4, 0, 2] ++ toBe (macAddr m.val) 6 ++
        toBe (s.rf (Reg.ETH_IPADDR.VALUE m.val)) 4 ++ toBe (beAt body 8 6) 6 ++ toBe (beAt body 14 4) 4)) := by
  have hbody : 28 ≤ body.length := by
    rw [hb, List.length_drop, List.length_take, length_natsOf]
    omega
  have hrun := exec_acceptedFrame m f s hup hserves hlink hlen hshort hty hda hven
  rw [if_neg hmode, if_pos harp, ← hb] at hrun
  have hans := rxArp_answers (s.rxCounted m.val) m.val body (by rw [s.mode_rxCounted]; exact hmode) (by rw [s.value_rxCounted]; exact hown) hbody
    hhead (by rw [s.value_rxCounted]; exact htarget)
  rw [s.value_rxCounted] at hans
  have hcount := s.rf_rxCounted m.val
  have honly := rxCounted_only s m.val
  have hmac := s.mac_rxCounted m.val m.val
  have hven' := s.ven_rxCounted m
  generalize s.rxCounted m.val = u at *
  have hsend' : Sending u m.val := by rw [Sending, hmac]; exact hsend
  refine ⟨_, hrun, ?_⟩
  rw [hans]
  refine ⟨?_, macOnly_trans honly (macOnly_txFrame _ _ _ _ _ _), queued_congr (queued_txFrame u m.val _ _ _ _ _ _ hsend' ?_ rfl) (by rw [hmac]) hven'⟩
  · rw [u.txFrame_waits m.val _ _ _ hsend']
    exact (State.rf_setMac _ _ _ _).trans hcount
  · exact ((((show Octets [0, 1, 8, 0, 6, 4, 0, 2] from (by decide : ∀ b ∈ [0, 1, 8, 0, 6, 4, 0, 2], b < 256)).append (octets_toBe _ _)).append
      (octets_toBe _ _)).append (octets_toBe _ _)).append (octets_toBe _ _)

variable (hip : beAt (natsOf f) 12 2 = 0x0800)
include hip

theorem exec_acceptedIp : exec (.frameReceive m f true false) s = .next ((s.rxCounted m.val).rxIp m.val (beAt (natsOf f) 6 6) body) := by
  rw [exec_acceptedFrame m f s hup hserves hlink hlen hshort hty hda hven, if_neg hmode, if_neg (by rw [hip]; decide), hb]

theorem frameReceive_badIp {c : Nat}
    (h : (s.rxCounted m.val).rxIp m.val (beAt (natsOf f) 6 6) body = (s.rxCounted m.val).drop m.val c) :
    Does (.frameReceive m f true false) s (fun t =>
      t.rf (Reg.ETH_RX_FRAMES.COUNT m.val) = (s.rf (Reg.ETH_RX_FRAMES.COUNT m.val) + 1) % 2 ^ 32 ∧
      SMap.get (t.mac m.val).drops 0 c = min (2 ^ 32 - 1) (SMap.get (s.mac m.val).drops 0 c + 1) ∧ MacOnly s t [Reg.ETH_RX_FRAMES_at m.val]) :=
  ⟨_, (exec_acceptedIp m f s hup hserves hlink hlen hshort hty hda hven hmode hb hip).trans (by rw [h]), rxCounted_drop m s c⟩

end

/-! ## Frames sent (R470) -/

theorem State.formStreams_idle (s : State) (h : ∀ n, n < 4 → (s.strm n).owner = none) : s.formStreams = s := by
  have hone (n : Nat) (hn : n < 4) : s.formStream n = s := by
    rw [State.formStream, h n hn]
    rfl
  show (((s.formStream 0).formStream 1).formStream 2).formStream 3 = s
  rw [hone 0 (by decide), hone 1 (by decide), hone 2 (by decide), hone 3 (by decide)]

theorem strm_congr {s t : State} (h : t.fsv = s.fsv) (n : Nat) : t.strm n = s.strm n := by rw [State.strm, State.strm, h]

theorem macOnly_fsv {s t : State} {as : List Nat} (h : MacOnly s t as) : t.fsv = s.fsv := by rw [h.1]

theorem State.reg_txNext (s : State) (m a : Nat) : (s.txNext m).reg a = s.reg a := (macOnly_txNext s m []).2 a List.not_mem_nil

section
variable (m : Fin 2) (s : State)

/-- A frame out: counted, a firmware datagram as sent. -/
def State.txOut (f : TxFrame) : State :=
  let s := (s.onMac m.val (fun x => { x with sending := none })).incWrap (Reg.ETH_TX_FRAMES.COUNT m.val)
  if f.cls = 2 then s.incWrap Reg.ETH_FTX_STAT.SENT else s

theorem txAddr : ∀ m : Fin 2, Reg.ETH_TX_FRAMES_at m.val ≠ Reg.ETH_FTX_STAT_at ∧ Reg.ETH_LINK_at m.val ≠ Reg.ETH_TX_FRAMES_at m.val ∧
    Reg.ETH_LINK_at m.val ≠ Reg.ETH_FTX_STAT_at := by decide

theorem State.txOut_counts (f : TxFrame) : MacOnly s (s.txOut m f) [Reg.ETH_TX_FRAMES_at m.val, Reg.ETH_FTX_STAT_at] ∧
    (s.txOut m f).mac m.val = { s.mac m.val with sending := none } ∧
    (s.txOut m f).rf (Reg.ETH_TX_FRAMES.COUNT m.val) = (s.rf (Reg.ETH_TX_FRAMES.COUNT m.val) + 1) % 2 ^ 32 ∧
    (f.cls = 2 → (s.txOut m f).rf Reg.ETH_FTX_STAT.SENT = (s.rf Reg.ETH_FTX_STAT.SENT + 1) % 2 ^ Reg.ETH_FTX_STAT.SENT.width) ∧
    (s.txOut m f).canSend m.val = s.canSend m.val := by
  obtain ⟨h1, h2, h3⟩ := txAddr m
  have honly := macOnly_onMac s m.val (fun x => { x with sending := none }) [Reg.ETH_TX_FRAMES_at m.val, Reg.ETH_FTX_STAT_at]
  have hmac := s.mac_onMac_same m.val (fun x => { x with sending := none })
  have hrf (g : Fd) : (s.onMac m.val (fun x => { x with sending := none })).rf g = s.rf g := s.rf_setMac _ _ g
  rw [State.txOut]
  generalize s.onMac m.val (fun x => { x with sending := none }) = u at *
  have honly1 := macOnly_trans honly (macOnly_wf u (Reg.ETH_TX_FRAMES.COUNT m.val) (u.rf (Reg.ETH_TX_FRAMES.COUNT m.val) + 1) (.head _))
  have hmac1 : (u.incWrap (Reg.ETH_TX_FRAMES.COUNT m.val)).mac m.val = { s.mac m.val with sending := none } := (State.mac_setReg _ _ _ _).trans hmac
  have hcount1 : (u.incWrap (Reg.ETH_TX_FRAMES.COUNT m.val)).rf (Reg.ETH_TX_FRAMES.COUNT m.val) = (s.rf (Reg.ETH_TX_FRAMES.COUNT m.val) + 1) % 2 ^ 32 := by
    rw [← hrf]
    exact u.rf_wf_same (Reg.ETH_TX_FRAMES.COUNT m.val) _ (Nat.le_refl 32)
  have hother1 (g : Fd) (hg : g.addr ≠ Reg.ETH_TX_FRAMES_at m.val) : (u.incWrap (Reg.ETH_TX_FRAMES.COUNT m.val)).rf g = s.rf g :=
    (u.rf_incWrap_other _ _ _ (.inl hg)).trans (hrf g)
  have hcan {t : State} (hl : ∀ g : Fd, g.addr = Reg.ETH_LINK_at m.val → t.rf g = s.rf g) : t.canSend m.val = s.canSend m.val := by
    rw [State.canSend, State.canSend, State.on, State.on, State.on, State.on, hl _ rfl, hl _ rfl]
  have honly1' : MacOnly s (u.incWrap (Reg.ETH_TX_FRAMES.COUNT m.val)) [Reg.ETH_TX_FRAMES_at m.val, Reg.ETH_FTX_STAT_at] := honly1
  generalize u.incWrap (Reg.ETH_TX_FRAMES.COUNT m.val) = v at honly1' hmac1 hcount1 hother1
  dsimp only
  split
  · refine ⟨macOnly_trans honly1' (macOnly_wf v _ _ (.tail _ (.head _))), (State.mac_setReg _ _ _ _).trans hmac1, ?_, fun _ => ?_, hcan fun g hg => ?_⟩
    · rw [v.rf_incWrap_other _ _ _ (.inl h1), hcount1]
    · rw [← hother1 Reg.ETH_FTX_STAT.SENT h1.symm]
      exact v.rf_wf_same _ _ (by decide)
    · rw [v.rf_incWrap_other _ _ _ (.inl (by rw [hg]; exact h3)), hother1 g (by rw [hg]; exact h2)]
  · next hcls => exact ⟨honly1', hmac1, hcount1, fun h => absurd h hcls, hcan fun g hg => hother1 g (by rw [hg]; exact h2)⟩

theorem frameTransmitEnd_ends {f : TxFrame} (hf : (s.mac m.val).sending = some f) (hidle : ∀ n, n < 4 → (s.strm n).owner = none) :
    Does (.frameTransmitEnd m) s (fun t => MacOnly s t [Reg.ETH_TX_FRAMES_at m.val, Reg.ETH_FTX_STAT_at] ∧
      t.rf (Reg.ETH_TX_FRAMES.COUNT m.val) = (s.rf (Reg.ETH_TX_FRAMES.COUNT m.val) + 1) % 2 ^ 32 ∧
      (f.cls = 2 → t.rf Reg.ETH_FTX_STAT.SENT = (s.rf Reg.ETH_FTX_STAT.SENT + 1) % 2 ^ Reg.ETH_FTX_STAT.SENT.width) ∧
      ((s.mac m.val).txq = [] ∨ s.canSend m.val = false → (t.mac m.val).sending = none ∧ (t.mac m.val).txq = (s.mac m.val).txq) ∧
      (∀ g rest, s.canSend m.val = true → (s.mac m.val).txq = g :: rest → g.cls < 4 → (∀ h ∈ rest, g.cls ≤ h.cls) →
        (t.mac m.val).sending = some g ∧ (t.mac m.val).txq = rest)) := by
  have hrun : exec (.frameTransmitEnd m) s = .next (((s.txOut m f).txNext m.val).formStreams) := by
    rw [show exec (.frameTransmitEnd m) s = execFrameTransmitEnd m s from rfl, execFrameTransmitEnd, hf]
    rfl
  obtain ⟨honly, hmac, hcount, hsent, hcan⟩ := s.txOut_counts m f
  generalize s.txOut m f = u at *
  have hnext := macOnly_txNext u m.val [Reg.ETH_TX_FRAMES_at m.val, Reg.ETH_FTX_STAT_at]
  have hstrm (n : Nat) (hn : n < 4) : ((u.txNext m.val).strm n).owner = none := by
    rw [strm_congr (macOnly_fsv (macOnly_trans honly hnext)) n]
    exact hidle n hn
  rw [State.formStreams_idle _ hstrm] at hrun
  refine ⟨_, hrun, macOnly_trans honly hnext, ?_, fun hc => ?_, fun h => ?_, fun g rest hcs hq hcls hle => ?_⟩
  · rw [State.rf, u.reg_txNext, ← State.rf, hcount]
  · rw [State.rf, u.reg_txNext, ← State.rf, hsent hc]
  · have hsame : u.txNext m.val = u := by
      rcases h with h | h
      · exact u.txNext_empty m.val (by rw [hmac]; exact h)
      · exact u.txNext_idle m.val (.inr (by rw [hcan]; exact h))
    rw [hsame, hmac]
    exact ⟨rfl, rfl⟩
  · rw [u.txNext_starts m.val (by rw [hmac]) (by rw [hcan]; exact hcs) (by rw [hmac]; exact hq) hcls hle, State.mac_setMac_same]
    exact ⟨rfl, rfl⟩

theorem frameTransmitEnd_idle (h : (s.mac m.val).sending = none) : Does (.frameTransmitEnd m) s (fun t => t = s) := by
  refine ⟨s, ?_, rfl⟩
  rw [show exec (.frameTransmitEnd m) s = execFrameTransmitEnd m s from rfl, execFrameTransmitEnd, h]

theorem txDiscard_drops (hq : (s.mac m.val).txq ≠ []) (hidle : ∀ n, n < 4 → (s.strm n).owner = none) : Does (.txDiscard m) s (fun t =>
    MacOnly s t [] ∧ (t.mac m.val).txq = (s.mac m.val).txq.drop 1 ∧
    SMap.get (t.mac m.val).drops 0 0x13 = min (2 ^ 32 - 1) (SMap.get (s.mac m.val).drops 0 0x13 + 1)) := by
  have hrun : exec (.txDiscard m) s = .next (((s.onMac m.val (fun x => { x with txq := x.txq.drop 1 })).drop m.val 0x13).formStreams) :=
    if_neg (by rw [List.isEmpty_iff]; exact hq)
  have honly := macOnly_onMac s m.val (fun x => { x with txq := x.txq.drop 1 }) []
  have hmac := s.mac_onMac_same m.val (fun x => { x with txq := x.txq.drop 1 })
  generalize s.onMac m.val (fun x => { x with txq := x.txq.drop 1 }) = u at *
  have honly' := macOnly_trans honly (macOnly_drop u m.val 0x13 [])
  rw [State.formStreams_idle _ (fun n hn => by rw [strm_congr (macOnly_fsv honly') n]; exact hidle n hn)] at hrun
  refine ⟨_, hrun, honly', ?_, ?_⟩
  · rw [State.drop_mac, hmac]
  · rw [State.drop_counts, hmac]

theorem pauseExpiry_resumes (hpaused : s.on (Reg.ETH_LINK.PAUSED m.val) = true) : Does (.pauseExpiry m) s (fun t =>
    MacOnly s t [Reg.ETH_LINK_at m.val] ∧ t.on (Reg.ETH_LINK.PAUSED m.val) = false ∧
    t.on (Reg.ETH_LINK.UP m.val) = s.on (Reg.ETH_LINK.UP m.val) ∧ (Sending s m.val → t.eth = s.eth) ∧
    (∀ g, (s.mac m.val).sending = none → s.on (Reg.ETH_LINK.UP m.val) = true → (s.mac m.val).txq = [g] → g.cls < 4 →
      (t.mac m.val).sending = some g ∧ (t.mac m.val).txq = [])) := by
  have hrun : exec (.pauseExpiry m) s = .next ((s.wf (Reg.ETH_LINK.PAUSED m.val) 0).txNext m.val) := if_pos hpaused
  have honly := macOnly_wf s (Reg.ETH_LINK.PAUSED m.val) 0 (as := [Reg.ETH_LINK_at m.val]) (.head _)
  have hp : (s.wf (Reg.ETH_LINK.PAUSED m.val) 0).on (Reg.ETH_LINK.PAUSED m.val) = false :=
    s.on_wf_same (Reg.ETH_LINK.PAUSED m.val) 0 (show 4 + 1 ≤ 32 by decide)
  have hup : (s.wf (Reg.ETH_LINK.PAUSED m.val) 0).on (Reg.ETH_LINK.UP m.val) = s.on (Reg.ETH_LINK.UP m.val) :=
    s.on_wf_other (Reg.ETH_LINK.PAUSED m.val) (Reg.ETH_LINK.UP m.val) 0 (.inr (.inl (show 0 + 1 ≤ 4 by decide)))
  have hmac : (s.wf (Reg.ETH_LINK.PAUSED m.val) 0).mac m.val = s.mac m.val := State.mac_setReg _ _ _ _
  have heth : (s.wf (Reg.ETH_LINK.PAUSED m.val) 0).eth = s.eth := State.eth_setReg _ _ _
  generalize s.wf (Reg.ETH_LINK.PAUSED m.val) 0 = u at *
  refine ⟨_, hrun, macOnly_trans honly (macOnly_txNext u m.val _), ?_, ?_, fun hs => ?_, fun g hs hl hq hcls => ?_⟩
  · rw [State.on, State.rf, u.reg_txNext, ← State.rf, ← State.on, hp]
  · rw [State.on, State.rf, u.reg_txNext, ← State.rf, ← State.on, hup]
  · rw [u.txNext_idle m.val (.inl (by rw [hmac]; exact hs)), heth]
  · have hcan : u.canSend m.val = true := by rw [State.canSend, hp, hup, hl]; rfl
    rw [u.txNext_starts m.val (by rw [hmac]; exact hs) hcan (by rw [hmac]; exact hq) hcls (fun h hh => absurd hh List.not_mem_nil), State.mac_setMac_same]
    exact ⟨rfl, rfl⟩

end

/-- Settles O49: Table fsv-1 as one list of checks, then ARP, IPv4 and the firmware's datagrams after the frame is counted; frames sent by class. -/
theorem framesAreCheckedAndServed : Obligations.FramesAreCheckedAndServed := by
  refine ⟨fun m f fcs full s hup => ⟨frameReceive_closed m f fcs full s hup, frameReceive_noLink m f fcs full s hup, fun hserves hlink => ?_⟩,
    fun m s => ⟨fun f hf => frameTransmitEnd_ends m s hf, frameTransmitEnd_idle m s, txDiscard_drops m s, pauseExpiry_resumes m s⟩⟩
  have hdisc {c : Nat} := frameReceive_discards m f fcs full s hup hserves hlink (c := c)
  have hn : (natsOf f).length = f.length := length_natsOf f
  refine ⟨fun hfcs => hdisc (by rw [hfcs]; rfl), fun hfcs h => hdisc (by rw [hfcs]; exact frameCheck_short s m.val _ full (by rw [hn]; exact h)),
    fun hfcs hlen hty => ⟨fun h => hdisc ?_, fun h1 h2 h => hdisc ?_⟩, fun hfcs hlen hty => ⟨fun h hstag => hdisc ?_, fun hstag => hdisc ?_,
      fun hshort hstag hpause h1 h2 => hdisc ?_, fun hshort hstag hpause hda hven => ⟨fun h1 h2 => hdisc ?_, fun hty' hfull => hdisc ?_, ?_⟩⟩⟩
  · subst hfcs
    refine frameCheck_twoTags s m.val _ full (by rw [hn]; exact hlen) ?_
    rw [twoTags_tagged hty]
    rcases h with h | h <;> rw [h] <;> rfl
  · subst hfcs
    exact frameCheck_longTagged s m.val _ full (by rw [hn]; exact hlen) hty h1 h2 (by rw [hn]; exact h)
  · subst hfcs
    rw [frameCheck_plain s m.val _ full (by rw [hn]; exact hlen) hty hstag, if_pos (by rw [hn]; exact h)]
  · subst hfcs
    exact frameCheck_twoTags s m.val _ full (by rw [hn]; exact hlen) (by rw [twoTags_plain hty, hstag]; rfl)
  · subst hfcs
    exact frameCheck_address s m.val _ full (by rw [hn]; exact hlen) hty hstag (by rw [hn]; exact hshort) hpause h1 h2
  · subst hfcs
    rw [frameCheck_here s m.val _ full (by rw [hn]; exact hlen) hty hstag (by rw [hn]; exact hshort) hpause hda hven, if_pos ⟨h1, h2⟩]
  · subst hfcs
    rw [frameCheck_here s m.val _ full (by rw [hn]; exact hlen) hty hstag (by rw [hn]; exact hshort) hpause hda hven,
      if_neg (fun h => hty'.elim h.1 h.2), hfull, if_pos rfl]
  · intro hty' hfull
    subst hfcs hfull
    refine ⟨fun hmode => frameReceive_off m f s hup hserves hlink hlen hshort hty' hda hven hmode, fun hmode hown harp hsend hhead htarget =>
      frameReceive_arp m f s hup hserves hlink hlen hshort hty' hda hven hmode rfl hown harp hsend hhead htarget, fun hmode hip => ?_⟩
    have hbad {c : Nat} := frameReceive_badIp m f s hup hserves hlink hlen hshort hty' hda hven hmode rfl hip (c := c)
    have haddr : (s.rxCounted m.val).ipAddr m.val = s.rf (Reg.ETH_IPADDR.VALUE m.val) := (s.ipAddr_rxCounted m).trans (if_neg hmode)
    refine ⟨fun h => hbad (rxIp_malformed _ m.val _ _ h), fun total proto src dst hdr => ⟨fun h => hbad (rxIp_fragment _ m.val _ _ hdr h),
      fun hfrag hown h1 h2 h3 => hbad (rxIp_elsewhere _ m.val _ _ hdr hfrag (by rw [haddr]; exact h1) h2 (by rw [s.ipSubAll_rxCounted]; exact h3)),
      fun hfrag hown hdst h1 h2 => hbad (rxIp_protocol _ m.val _ _ hdr hfrag (by rw [haddr]; exact hown) (by rw [haddr]; exact hdst) h1 h2), ?_⟩⟩
    intro hfrag hown hdst hproto hmin u port hulen hsum hport h0 h68 hfsv
    subst hproto
    obtain ⟨hrx, hlength⟩ := rxIp_firmware m s (beAt (natsOf f) 6 6) hmode hdr hfrag hown hdst rfl hulen hsum hport h0 h68 hfsv
    have hrun := exec_acceptedIp m f s hup hserves hlink hlen hshort hty' hda hven hmode rfl hip
    have hdata (u : List Nat) (hu : u.length = total - 20) : (u.drop 8).length = total - 28 := by rw [List.length_drop, hu]; omega
    have hcount := s.rf_rxCounted m.val
    have heth := s.eth_rxCounted m.val
    rw [hrx] at hrun
    refine ⟨fun hroom => ⟨_, hrun, ?_⟩, fun hroom => ?_⟩
    · obtain ⟨hq, hrf⟩ := rxFw_queues (s.rxCounted m.val) m.val src _ _ _ (by rw [heth, hdata _ hlength]; exact hroom)
      dsimp only
      rw [hrf, hcount, hq, heth]
      exact ⟨rfl, rfl⟩
    · refine hbad (hrx.trans (rxFw_full _ _ _ _ _ _ ?_))
      rw [heth, hdata _ hlength]
      exact hroom

end Sys2Proof.Machine
end

section
/-!
PROOFS. Packets sent (spec/19): the bytes of an IPv4 header, of a UDP datagram and of a DHCP message, on a MAC that is sending another frame.
-/

namespace Sys2Proof.Machine
open Sys2Proof.Claims

/-! ## The bytes of a packet -/

/-- An IPv4 header as R471 sends it. -/
def ipHead (len id proto c src dst : Nat) : List Nat :=
  [0x45, 0] ++ toBe len 2 ++ toBe id 2 ++ [0x40, 0, 64, proto] ++ toBe c 2 ++ toBe src 4 ++ toBe dst 4

/-- A UDP header. -/
def udpHead (sport dport len c : Nat) : List Nat := toBe sport 2 ++ toBe dport 2 ++ toBe len 2 ++ toBe c 2

section
variable (len id proto c src dst : Nat) (pl : List Nat)

theorem octets_cons {b : Nat} {bs : List Nat} (hb : b < 256) (h : Octets bs) : Octets (b :: bs) := by
  intro x hx
  rcases List.mem_cons.1 hx with rfl | hx
  · exact hb
  · exact h x hx

theorem octets_of_all {bs : List Nat} (h : bs.all (fun b => b < 256) = true) : Octets bs :=
  fun b hb => of_decide_eq_true (List.all_eq_true.1 h b hb)

theorem octets_nil : Octets [] := fun _ hb => nomatch hb

theorem octets_ipHead (h : proto < 256) : Octets (ipHead len id proto c src dst) := by
  have hfix : Octets [0x40, 0, 64, proto] :=
    octets_cons (by decide) (octets_cons (by decide) (octets_cons (by decide) (octets_cons h octets_nil)))
  have hver : Octets [0x45, 0] := octets_cons (by decide) (octets_cons (by decide) octets_nil)
  exact (((((hver.append (octets_toBe _ _)).append (octets_toBe _ _)).append hfix).append (octets_toBe _ _)).append (octets_toBe _ _)).append (octets_toBe _ _)

theorem octets_udpHead (sport dport : Nat) : Octets (udpHead sport dport len c) :=
  (((octets_toBe _ _).append (octets_toBe _ _)).append (octets_toBe _ _)).append (octets_toBe _ _)

theorem ipHead_reads : slice (ipHead len id proto c src dst ++ pl) 9 1 = [proto] ∧
    slice (ipHead len id proto c src dst ++ pl) 12 8 = toBe src 4 ++ toBe dst 4 ∧
    slice (ipHead len id proto c src dst ++ pl) 16 4 = toBe dst 4 ∧ (ipHead len id proto c src dst ++ pl).drop 20 = pl ∧
    ∀ k n, slice (ipHead len id proto c src dst ++ pl) (20 + k) n = slice pl k n := by
  refine ⟨rfl, rfl, rfl, rfl, fun k n => ?_⟩
  have hlen : (ipHead len id proto c src dst).length = 20 := rfl
  rw [slice_append_right _ _ _ _ (by omega), hlen, Nat.add_sub_cancel_left]

theorem udpHead_reads (sport dport : Nat) : slice (udpHead sport dport len c ++ pl) 0 4 = toBe sport 2 ++ toBe dport 2 ∧
    (udpHead sport dport len c ++ pl).drop 8 = pl ∧ ∀ k n, slice (udpHead sport dport len c ++ pl) (8 + k) n = slice pl k n := by
  refine ⟨rfl, rfl, fun k n => ?_⟩
  have hlen : (udpHead sport dport len c).length = 8 := rfl
  rw [slice_append_right _ _ _ _ (by omega), hlen, Nat.add_sub_cancel_left]

end

/-! ## Packets queued on a MAC that is sending -/

section
variable (s : State) (m cls stream hw src dst : Nat) (pl : List Nat)

/-- A MAC's next identification. -/
def State.nextIdent : State := s.onMac m (fun x => { x with ident := ((s.mac m).ident + 1) % 2 ^ 16 })

theorem State.mac_nextIdent : (s.nextIdent m).mac m = { s.mac m with ident := ((s.mac m).ident + 1) % 2 ^ 16 } := s.mac_onMac_same m _

theorem State.ven_nextIdent : (s.nextIdent m).on (Reg.ETH_VLAN.VEN m) = s.on (Reg.ETH_VLAN.VEN m) := s.on_setMac m _ _

theorem macOnly_nextIdent (as : List Nat) : MacOnly s (s.nextIdent m) as := macOnly_onMac s m _ as

theorem State.sending_nextIdent (h : Sending s m) : Sending (s.nextIdent m) m := by
  rw [Sending, s.mac_nextIdent]
  exact h

theorem State.txIp_eq (proto : Nat) : ∃ len id c, s.txIp m cls stream hw src dst proto pl =
    (s.nextIdent m).txFrame m cls stream ((s.nextIdent m).etherHead m hw 0x0800 ++ (ipHead len id proto c src dst ++ pl)) := by
  refine ⟨20 + pl.length, (s.mac m).ident, csum16 (ipHead (20 + pl.length) (s.mac m).ident proto 0 src dst), ?_⟩
  rw [← List.append_assoc]
  rfl

theorem macOnly_txIp (proto : Nat) (as : List Nat) : MacOnly s (s.txIp m cls stream hw src dst proto pl) as := by
  obtain ⟨len, id, c, h⟩ := s.txIp_eq m cls stream hw src dst pl proto
  rw [h]
  exact macOnly_trans (macOnly_nextIdent s m as) (macOnly_txFrame _ m _ _ _ as)

theorem macOnly_txUdp (sport dport : Nat) (as : List Nat) : MacOnly s (s.txUdp m cls stream hw src dst sport dport pl) as :=
  macOnly_txIp s m cls stream hw src dst _ 17 as

section
variable (hs : Sending s m) (hpl : Octets pl)
include hs

/-- What a packet queued leaves of its MAC. -/
theorem State.txIp_mac (proto : Nat) : ((s.txIp m cls stream hw src dst proto pl).mac m).dhcp = (s.mac m).dhcp ∧
    ((s.txIp m cls stream hw src dst proto pl).mac m).sending = (s.mac m).sending := by
  obtain ⟨len, id, c, h⟩ := s.txIp_eq m cls stream hw src dst pl proto
  rw [h, State.txFrame_waits _ m cls stream _ (s.sending_nextIdent m hs), State.mac_onMac_same, s.mac_nextIdent]
  exact ⟨rfl, rfl⟩

include hpl

theorem queued_txIp {proto : Nat} (hproto : proto < 256) {P : List Nat → Prop} (hP : ∀ len id c, P (ipHead len id proto c src dst ++ pl)) :
    Queued s (s.txIp m cls stream hw src dst proto pl) m cls hw 0x0800 P := by
  obtain ⟨len, id, c, h⟩ := s.txIp_eq m cls stream hw src dst pl proto
  rw [h]
  refine queued_congr (queued_txFrame (s.nextIdent m) m cls stream hw 0x0800 _ P (s.sending_nextIdent m hs) ?_ (hP len id c)) ?_ (s.ven_nextIdent m)
  · exact (octets_ipHead len id proto c src dst hproto).append hpl
  · rw [s.mac_nextIdent]

theorem queued_txUdp (sport dport : Nat) {P : List Nat → Prop}
    (hP : ∀ len id c n c', P (ipHead len id 17 c src dst ++ (udpHead sport dport n c' ++ pl))) :
    Queued s (s.txUdp m cls stream hw src dst sport dport pl) m cls hw 0x0800 P := by
  have hudp (c : Nat) : Octets (toBe sport 2 ++ toBe dport 2 ++ toBe (8 + pl.length) 2 ++ toBe c 2 ++ pl) :=
    (octets_udpHead (8 + pl.length) c sport dport).append hpl
  exact queued_txIp s m cls stream hw src dst _ hs (hudp _) (by decide) (fun len id c => hP len id c (8 + pl.length) _)

end

end

/-! ## DHCP messages (Table fsv-4) -/

/-- The fixed part of a client's message, its type option last. -/
def dhcpHead (xid bcast own mac ty : Nat) : List Nat :=
  [1, 1, 6, 0] ++ toBe xid 4 ++ [0, 0] ++ toBe bcast 2 ++ toBe own 4 ++ List.replicate 12 0 ++ toBe mac 6 ++ List.replicate 202 0 ++
    [0x63, 0x82, 0x53, 0x63, 53, 1, ty]

theorem dhcpHead_reads (xid bcast own mac ty : Nat) (rest : List Nat) :
    slice (dhcpHead xid bcast own mac ty ++ rest) 236 7 = [0x63, 0x82, 0x53, 0x63, 53, 1, ty] := by
  have hlen : ([1, 1, 6, 0] ++ toBe xid 4 ++ [0, 0] ++ toBe bcast 2 ++ toBe own 4 ++ List.replicate 12 0 ++ toBe mac 6 ++ List.replicate 202 0).length =
      236 := by
    simp only [List.length_append, length_toBe, List.length_replicate, List.length_cons, List.length_nil]
  rw [dhcpHead, List.append_assoc, slice_append_right _ _ _ _ hlen.le, hlen]
  rfl

theorem octets_replicate (n : Nat) : Octets (List.replicate n 0) := fun _ hb => (List.eq_of_mem_replicate hb).trans_lt (by decide)

theorem octets_dhcpHead (xid bcast own mac : Nat) {ty : Nat} (h : ty < 256) : Octets (dhcpHead xid bcast own mac ty) := by
  have hop : Octets [1, 1, 6, 0] := octets_of_all rfl
  have hgap : Octets [0, 0] := octets_of_all rfl
  have hcookie : Octets [0x63, 0x82, 0x53, 0x63, 53, 1, ty] :=
    (octets_of_all (bs := [0x63, 0x82, 0x53, 0x63, 53, 1]) rfl).append (octets_cons h octets_nil)
  exact ((((((((hop.append (octets_toBe _ _)).append hgap).append (octets_toBe _ _)).append (octets_toBe _ _)).append (octets_replicate _)).append
    (octets_toBe _ _)).append (octets_replicate _)).append hcookie)

section
variable (s : State) (m ty : Nat) (bcast : Bool) (opts : List Nat)

theorem State.txDhcp_eq : s.txDhcp m ty bcast opts =
    s.txUdp m 0 0 (if bcast then hwAll else (s.mac m).dhcp.hw) (s.ipAddr m) (if bcast then ipAll else (s.mac m).dhcp.server) 68 67
      (dhcpHead (s.mac m).dhcp.xid (if s.ipAddr m = 0 then 0x8000 else 0) (s.ipAddr m) (macAddr m) ty ++ (opts ++ [255])) := by
  rw [← List.append_assoc]
  cases bcast <;> rfl

theorem macOnly_txDhcp (as : List Nat) : MacOnly s (s.txDhcp m ty bcast opts) as := by
  rw [s.txDhcp_eq]
  exact macOnly_txUdp _ _ _ _ _ _ _ _ _ _ as

variable (hs : Sending s m)
include hs

theorem State.txDhcp_mac : ((s.txDhcp m ty bcast opts).mac m).dhcp = (s.mac m).dhcp := by
  rw [s.txDhcp_eq]
  exact (State.txIp_mac s m _ _ _ _ _ _ hs 17).1

/-- A message of a type queued, to all or to the server. -/
theorem queued_txDhcp (hty : ty < 256) (hopts : Octets opts) :
    Queued s (s.txDhcp m ty bcast opts) m 0 (if bcast then 2 ^ 48 - 1 else (s.mac m).dhcp.hw) 0x0800 (IsDhcp ty) := by
  rw [s.txDhcp_eq]
  refine queued_txUdp s m 0 0 _ _ _ _ hs ((octets_dhcpHead _ _ _ _ hty).append (hopts.append (octets_of_all rfl))) 68 67 (fun len id c n c' => ?_)
  generalize hpl : dhcpHead (s.mac m).dhcp.xid (if s.ipAddr m = 0 then 0x8000 else 0) (s.ipAddr m) (macAddr m) ty ++ (opts ++ [255]) = pl
  obtain ⟨hproto, -, -, -, hpast⟩ := ipHead_reads len id 17 c (s.ipAddr m) (if bcast then ipAll else (s.mac m).dhcp.server) (udpHead 68 67 n c' ++ pl)
  obtain ⟨hports, -, hdata⟩ := udpHead_reads n c' pl 68 67
  refine ⟨hproto, (hpast 0 4).trans hports, ?_⟩
  rw [hpast 244 7, hdata 236 7, ← hpl, dhcpHead_reads]

end

end Sys2Proof.Machine
end

section
/-!
PROOFS. ARP, the links, MDIO and the DHCP client, and the firmware's datagram queues (R465, R466, R472, R475, R491).
-/

namespace Sys2Proof.Machine
open Sys2Proof.Claims

/-! ## ARP (R472) -/

/-- An ARP message's body. -/
def arpBody (op mac ip thw tip : Nat) : List Nat :=
  [0, 1, 8, 0, 6, 4] ++ toBe op 2 ++ toBe mac 6 ++ toBe ip 4 ++ toBe thw 6 ++ toBe tip 4

theorem octets_arpBody (op mac ip thw tip : Nat) : Octets (arpBody op mac ip thw tip) :=
  (((((octets_of_all (bs := [0, 1, 8, 0, 6, 4]) rfl).append (octets_toBe _ _)).append (octets_toBe _ _)).append (octets_toBe _ _)).append
    (octets_toBe _ _)).append (octets_toBe _ _)

theorem arpBody_reads (mac ip thw tip : Nat) : slice (arpBody 1 mac ip thw tip) 0 8 = [0, 1, 8, 0, 6, 4, 0, 1] ∧
    slice (arpBody 1 mac ip thw tip) 24 4 = toBe tip 4 := ⟨rfl, rfl⟩

section
variable (s : State) (m : Nat)

theorem State.txArp_eq (op hw thw tip : Nat) : s.txArp m op hw thw tip =
    s.txFrame m 0 0 (s.etherHead m hw 0x0806 ++ arpBody op (macAddr m) (s.ipAddr m) thw tip) := by
  rw [State.txArp, arpBody]
  simp only [List.append_assoc]

theorem macOnly_txArp (op hw thw tip : Nat) (as : List Nat) : MacOnly s (s.txArp m op hw thw tip) as := by
  rw [s.txArp_eq]
  exact macOnly_txFrame s m _ _ _ as

theorem State.txNext_eth : s.txNext m = { s with eth := (s.txNext m).eth } := by
  rw [State.txNext]
  split
  · rfl
  · split <;> rfl

theorem State.txFrame_eth (cls stream : Nat) (bs : List Nat) : s.txFrame m cls stream bs = { s with eth := (s.txFrame m cls stream bs).eth } :=
  (s.onMac m (fun x => { x with txq := x.txq ++ [⟨cls, stream, octetsOf bs⟩] })).txNext_eth m

theorem State.txArp_eth (op hw thw tip : Nat) : s.txArp m op hw thw tip = { s with eth := (s.txArp m op hw thw tip).eth } := by
  rw [s.txArp_eq]
  exact s.txFrame_eth m _ _ _

/-- A request for an address queued. -/
theorem queued_arpRequest (tip : Nat) (hs : Sending s m) : Queued s (s.txArp m 1 hwAll 0 tip) m 0 (2 ^ 48 - 1) 0x0806
    (fun b => slice b 0 8 = [0, 1, 8, 0, 6, 4, 0, 1] ∧ slice b 24 4 = toBe tip 4) := by
  rw [s.txArp_eq]
  exact queued_txFrame s m 0 0 _ 0x0806 _ _ hs (octets_arpBody _ _ _ _ _) (arpBody_reads _ _ _ _)

theorem macOnly_ftx {s t : State} {as : List Nat} (h : MacOnly s t as) : t.eth.ftx = s.eth.ftx ∧ t.eth.words = s.eth.words := by
  rw [h.1]
  exact ⟨rfl, rfl⟩

end

section
variable (i : Fin 2) (f : FwOut) (s : State) (hf : s.eth.ftx[i.val]? = some f)
include hf

/-- The datagram's tries counted. -/
def State.triedOnce (s : State) (i : Nat) (f : FwOut) : State := s.onEth (fun x => { x with ftx := x.ftx.set i { f with tries := f.tries + 1 } })

theorem exec_arpRetry (htries : f.tries < 3) : exec (.arpRetry i) s = .next (
    if s.rf (Reg.ETH_IPCFG.MODE f.mac) = 0 then s.triedOnce i.val f else (s.triedOnce i.val f).txArp f.mac 1 hwAll 0 f.hop) := by
  rw [show exec (.arpRetry i) s = .next (s.arpRetry i.val) from rfl, State.arpRetry, hf]
  dsimp only
  rw [if_neg htries.not_ge]
  rfl

theorem arpRetry_off (htries : f.tries < 3) (hmode : s.rf (Reg.ETH_IPCFG.MODE f.mac) = 0) : Does (.arpRetry i) s (fun t =>
    t = { s with eth := { s.eth with ftx := s.eth.ftx.set i.val { f with tries := f.tries + 1 } } }) :=
  ⟨_, exec_arpRetry i f s hf htries, if_pos hmode⟩

theorem arpRetry_asks (htries : f.tries < 3) (hmode : s.rf (Reg.ETH_IPCFG.MODE f.mac) ≠ 0) (hs : Sending s f.mac) :
    Does (.arpRetry i) s (fun t => t = { s with eth := t.eth } ∧ t.eth.ftx = s.eth.ftx.set i.val { f with tries := f.tries + 1 } ∧
      Queued s t f.mac 0 (2 ^ 48 - 1) 0x0806 (fun b => slice b 0 8 = [0, 1, 8, 0, 6, 4, 0, 1] ∧ slice b 24 4 = toBe f.hop 4)) := by
  refine ⟨_, exec_arpRetry i f s hf htries, ?_⟩
  rw [if_neg hmode]
  have hmac : (s.triedOnce i.val f).mac f.mac = s.mac f.mac := rfl
  have hon (g : Fd) : (s.triedOnce i.val f).on g = s.on g := rfl
  have heth : s.triedOnce i.val f = { s with eth := (s.triedOnce i.val f).eth } := rfl
  have hftx : (s.triedOnce i.val f).eth.ftx = s.eth.ftx.set i.val { f with tries := f.tries + 1 } := rfl
  generalize s.triedOnce i.val f = u at *
  have hsend : Sending u f.mac := by rw [Sending, hmac]; exact hs
  refine ⟨?_, (macOnly_ftx (macOnly_txArp u f.mac 1 hwAll 0 f.hop [])).1.trans hftx,
    queued_congr (queued_arpRequest u f.mac f.hop hsend) (by rw [hmac]) (hon _)⟩
  exact (u.txArp_eth f.mac 1 hwAll 0 f.hop).trans (congrArg (fun x : State => { x with eth := (u.txArp f.mac 1 hwAll 0 f.hop).eth }) heth)

theorem arpRetry_gives_up (htries : 3 ≤ f.tries) : Does (.arpRetry i) s (fun t => t = { s with eth := t.eth } ∧
    t.eth.ftx = s.eth.ftx.eraseIdx i.val ∧
    SMap.get (t.mac f.mac).drops 0 0x14 = min (2 ^ 32 - 1) (SMap.get (s.mac f.mac).drops 0 0x14 + 1)) := by
  have hrun : exec (.arpRetry i) s = .next ((s.onEth (fun x => { x with ftx := x.ftx.eraseIdx i.val })).drop f.mac 0x14) := by
    rw [show exec (.arpRetry i) s = .next (s.arpRetry i.val) from rfl, State.arpRetry, hf]
    dsimp only
    rw [if_pos htries]
  refine ⟨_, hrun, rfl, rfl, ?_⟩
  rw [State.drop_counts]
  rfl

end

theorem arpAge_ages (m : Fin 2) (ip : BitVec 32) (s : State) : Does (.arpAge m ip) s (fun t => MacOnly s t [] ∧
    (t.mac m.val).arp = (s.mac m.val).arp.filter (fun e => e.ip != ip.toNat) ∧ (t.mac m.val).txq = (s.mac m.val).txq) := by
  refine ⟨_, rfl, macOnly_onMac s m.val _ [], ?_, ?_⟩ <;> rw [State.mac_onMac_same]

/-! ## Links (R465) -/

section
variable (s : State) (m : Nat) (up half : Bool) (speed : Nat)

/-- The fields of a link's register written. -/
def State.linkWritten : State := ((s.wf (Reg.ETH_LINK.UP m) (b2n up)).wf (Reg.ETH_LINK.HALF m) (b2n half)).wf (Reg.ETH_LINK.SPEED m) speed

theorem State.linkWritten_reads (hspeed : speed < 4) : Regs s (s.linkWritten m up half speed) [Reg.ETH_LINK_at m] [] ∧
    (s.linkWritten m up half speed).on (Reg.ETH_LINK.UP m) = up ∧ (s.linkWritten m up half speed).on (Reg.ETH_LINK.HALF m) = half ∧
    (s.linkWritten m up half speed).rf (Reg.ETH_LINK.SPEED m) = speed ∧ (s.linkWritten m up half speed).mac m = s.mac m := by
  rw [State.linkWritten]
  have hregs1 := (regs_refl s [Reg.ETH_LINK_at m]).wf (Reg.ETH_LINK.UP m) (b2n up) (.head _)
  have hup1 := s.on_wf_b2n up (Reg.ETH_LINK.UP m) (show 0 + 1 ≤ 32 by decide) rfl
  have hmac1 : (s.wf (Reg.ETH_LINK.UP m) (b2n up)).mac m = s.mac m := State.mac_setReg _ _ _ _
  generalize s.wf (Reg.ETH_LINK.UP m) (b2n up) = u at *
  have hregs2 := hregs1.wf (Reg.ETH_LINK.HALF m) (b2n half) (.head _)
  have hup2 := (u.on_wf_other (Reg.ETH_LINK.HALF m) (Reg.ETH_LINK.UP m) (b2n half) (.inr (.inl (Nat.le_refl 1)))).trans hup1
  have hhalf2 := u.on_wf_b2n half (Reg.ETH_LINK.HALF m) (show 1 + 1 ≤ 32 by decide) rfl
  have hmac2 : (u.wf (Reg.ETH_LINK.HALF m) (b2n half)).mac m = s.mac m := (State.mac_setReg _ _ _ _).trans hmac1
  generalize u.wf (Reg.ETH_LINK.HALF m) (b2n half) = w at *
  refine ⟨hregs2.wf (Reg.ETH_LINK.SPEED m) speed (.head _), ?_, ?_, ?_, (State.mac_setReg _ _ _ _).trans hmac2⟩
  · exact (w.on_wf_other (Reg.ETH_LINK.SPEED m) (Reg.ETH_LINK.UP m) speed (.inr (.inl (show 0 + 1 ≤ 2 by decide)))).trans hup2
  · exact (w.on_wf_other (Reg.ETH_LINK.SPEED m) (Reg.ETH_LINK.HALF m) speed (.inr (.inl (Nat.le_refl 2)))).trans hhalf2
  · exact (w.rf_wf_same (Reg.ETH_LINK.SPEED m) speed (show 2 + 2 ≤ 32 by decide)).trans (Nat.mod_eq_of_lt hspeed)

/-- A link set on a MAC that is sending: its fields, and LINK_EVENT where they changed. -/
theorem State.setLink_sets (hs : Sending s m) (hspeed : speed < 4) (hev : Reg.ETH_LINK_at m ≠ Reg.ETH_EVCFG_at) :
    Regs s (s.setLink m up half speed) [Reg.ETH_LINK_at m]
      (if (s.setLink m up half speed).reg (Reg.ETH_LINK_at m) = s.reg (Reg.ETH_LINK_at m) then [] else linkEv s) ∧
    (s.setLink m up half speed).on (Reg.ETH_LINK.UP m) = up ∧ (s.setLink m up half speed).on (Reg.ETH_LINK.HALF m) = half ∧
    (s.setLink m up half speed).rf (Reg.ETH_LINK.SPEED m) = speed := by
  obtain ⟨hregs, hup, hhalf, hsp, hmac⟩ := s.linkWritten_reads m up half speed hspeed
  have heq : s.setLink m up half speed = (if (s.linkWritten m up half speed).reg (Reg.ETH_LINK_at m) = s.reg (Reg.ETH_LINK_at m)
      then s.linkWritten m up half speed else (s.linkWritten m up half speed).linkEvent).txNext m := rfl
  rw [heq]
  generalize s.linkWritten m up half speed = u at *
  have hne : ∀ g : Fd, g.addr = Reg.ETH_EVCFG_at → u.reg g.addr = s.reg g.addr :=
    fun g hg => hregs.2 _ (by rw [hg, List.mem_singleton]; exact hev.symm)
  have hlink : ev u (Reg.ETH_EVCFG.LINK_EVENT, Reg.ETH_EVCFG.LINK_EN) = linkEv s := ev_congr (hne _ rfl) (hne _ rfl)
  have hsend : Sending u m := by rw [Sending, hmac]; exact hs
  split
  · next h =>
    rw [u.txNext_idle m (.inl hsend), if_pos h]
    exact ⟨hregs, hup, hhalf, hsp⟩
  · next h =>
    have hmac' : u.linkEvent.mac m = u.mac m := by
      rw [State.linkEvent, u.raiseIf_eq]
      rfl
    have hidle : u.linkEvent.txNext m = u.linkEvent := State.txNext_idle _ m (.inl (by rw [hmac']; exact hsend))
    have hreg (a : Nat) : u.linkEvent.reg a = u.reg a := u.reg_raiseIf _ _ a
    rw [hidle, hreg, if_neg h]
    refine ⟨hregs.raiseIf Reg.ETH_EVCFG.LINK_EVENT Reg.ETH_EVCFG.LINK_EN hlink, ?_, ?_, ?_⟩
    · exact (u.on_raiseIf _ _ _).trans hup
    · exact (u.on_raiseIf _ _ _).trans hhalf
    · exact (State.rf_raiseIf _ _ _ _).trans hsp

end

/-- What a poll that sets the link leaves. -/
theorem phyPoll_links (m : Fin 2) (r1 r4 r5 r9 r10 : BitVec 16) (s : State) (hs : Sending s m.val) {up half : Bool} {sp : Nat} (hsp : sp < 4)
    (hrun : exec (.phyPoll m r1 r4 r5 r9 r10) s = .next (s.setLink m.val up half sp)) : Does (.phyPoll m r1 r4 r5 r9 r10) s (fun t =>
      Regs s t [Reg.ETH_LINK_at m.val] (if t.reg (Reg.ETH_LINK_at m.val) = s.reg (Reg.ETH_LINK_at m.val) then [] else linkEv s) ∧
      t.on (Reg.ETH_LINK.UP m.val) = up ∧ t.on (Reg.ETH_LINK.HALF m.val) = half ∧ t.rf (Reg.ETH_LINK.SPEED m.val) = sp) :=
  ⟨_, hrun, s.setLink_sets m.val up half sp hs hsp ((by decide : ∀ m : Fin 2, Reg.ETH_LINK_at m.val ≠ Reg.ETH_EVCFG_at) m)⟩

section
variable (m : Fin 2) (r1 r4 r5 r9 r10 : BitVec 16) (s : State) (hup : s.ethUp = true) (hserves : s.ethServes = true)
  (hen : s.on (Reg.ETH_MAC_CFG.EN m.val) = true) (hspeed : s.rf (Reg.ETH_MAC_CFG.SPEED m.val) = 0)
include hup hserves hen hspeed

theorem exec_phyPoll : exec (.phyPoll m r1 r4 r5 r9 r10) s = .next (
    if r1.getLsbD 2 = true ∧ r1.getLsbD 5 = true then
      (match resolveLink r4 r5 r9 r10 with
       | none => s.setLink m.val false false 0
       | some (sp, half) => s.setLink m.val (!half) half sp)
    else s.setLink m.val false false 0) := by
  rw [show exec (.phyPoll m r1 r4 r5 r9 r10) s = execPhyPoll m r1 r4 r5 r9 r10 s from rfl, execPhyPoll, if_pos hup, State.phyPoll, hserves, hen, hspeed]
  cases r1.getLsbD 2 <;> cases r1.getLsbD 5 <;> rfl

variable (hs : Sending s m.val)
include hs

theorem phyPoll_down (h : ¬ (r1.getLsbD 2 = true ∧ r1.getLsbD 5 = true)) : Does (.phyPoll m r1 r4 r5 r9 r10) s (fun t =>
      Regs s t [Reg.ETH_LINK_at m.val] (if t.reg (Reg.ETH_LINK_at m.val) = s.reg (Reg.ETH_LINK_at m.val) then [] else linkEv s) ∧
      t.on (Reg.ETH_LINK.UP m.val) = false ∧ t.on (Reg.ETH_LINK.HALF m.val) = false ∧ t.rf (Reg.ETH_LINK.SPEED m.val) = 0) := by
  refine phyPoll_links m r1 r4 r5 r9 r10 s hs (by decide) ?_
  rw [exec_phyPoll m r1 r4 r5 r9 r10 s hup hserves hen hspeed, if_neg h]

variable (h : r1.getLsbD 2 = true ∧ r1.getLsbD 5 = true)
include h

theorem phyPoll_resolved {sp : Nat} (hsp : sp < 4) (hres : resolveLink r4 r5 r9 r10 = some (sp, false)) : Does (.phyPoll m r1 r4 r5 r9 r10) s (fun t =>
      Regs s t [Reg.ETH_LINK_at m.val] (if t.reg (Reg.ETH_LINK_at m.val) = s.reg (Reg.ETH_LINK_at m.val) then [] else linkEv s) ∧
      t.on (Reg.ETH_LINK.UP m.val) = true ∧ t.on (Reg.ETH_LINK.HALF m.val) = false ∧ t.rf (Reg.ETH_LINK.SPEED m.val) = sp) := by
  refine phyPoll_links m r1 r4 r5 r9 r10 s hs hsp ?_
  rw [exec_phyPoll m r1 r4 r5 r9 r10 s hup hserves hen hspeed, if_pos h, hres]
  rfl

theorem phyPoll_unresolved (hres : resolveLink r4 r5 r9 r10 = none) : Does (.phyPoll m r1 r4 r5 r9 r10) s (fun t =>
      Regs s t [Reg.ETH_LINK_at m.val] (if t.reg (Reg.ETH_LINK_at m.val) = s.reg (Reg.ETH_LINK_at m.val) then [] else linkEv s) ∧
      t.on (Reg.ETH_LINK.UP m.val) = false ∧ t.on (Reg.ETH_LINK.HALF m.val) = false ∧ t.rf (Reg.ETH_LINK.SPEED m.val) = 0) := by
  refine phyPoll_links m r1 r4 r5 r9 r10 s hs (by decide) ?_
  rw [exec_phyPoll m r1 r4 r5 r9 r10 s hup hserves hen hspeed, if_pos h, hres]

end

/-! ## MDIO (R466) -/

section
variable (src : Src) (v : Word) (data : BitVec 16) (s : State) (hup : s.ethUp = true)

theorem State.writeEth_fobex (a : Nat) : s.writeEth .fobex a v = s.refused ethRefuse 3 := by rw [State.writeEth, if_pos rfl]

include hup

theorem exec_mdioCmd (hsrc : src ≠ .fobex) : exec (.mdioCmd src v) s = .next (s.mdioCmd v).st := by
  rw [show exec (.mdioCmd src v) s = execMdioCmd src v s from rfl, execMdioCmd, if_pos hup, State.writeEth, if_neg hsrc, if_pos rfl]

theorem mdioCmd_fobex (hsrc : src = .fobex) : Refuses (.mdioCmd src v) s ethRefuse 3 := by
  subst hsrc
  exact refuses_of_exec (by decide) ((if_pos hup).trans (congrArg (fun w : WRes => Host.Outcome.next w.st) (s.writeEth_fobex v _)))

theorem mdioCmd_busy (hsrc : src ≠ .fobex) (hbusy : s.on Reg.ETH_STATUS.MDIO_BUSY = true) : Refuses (.mdioCmd src v) s ethRefuse 1 :=
  refuses_of_exec (by decide) ((exec_mdioCmd src v s hup hsrc).trans (congrArg (fun w : WRes => Host.Outcome.next w.st) (if_pos hbusy)))

theorem mdioCmd_starts (hsrc : src ≠ .fobex) (hidle : s.on Reg.ETH_STATUS.MDIO_BUSY = false) : Does (.mdioCmd src v) s (fun t =>
    t = { s with io := t.io, eth := { s.eth with mdio := some v } } ∧ t.on Reg.ETH_STATUS.MDIO_BUSY = true) := by
  refine ⟨_, (exec_mdioCmd src v s hup hsrc).trans (congrArg (fun w : WRes => Host.Outcome.next w.st) (if_neg (Bool.eq_false_iff.1 hidle))), rfl, ?_⟩
  exact s.on_wf_same Reg.ETH_STATUS.MDIO_BUSY 1 (by decide)

omit hup

theorem mdioComplete_ends {w : Word} (hw : s.eth.mdio = some w) : Does (.mdioComplete data) s (fun t =>
    t = { s with io := t.io, eth := { s.eth with mdio := none } } ∧ t.on Reg.ETH_STATUS.MDIO_BUSY = false ∧
    t.rf Reg.ETH_MDIO_DATA.DATA = if w.getLsbD 16 then s.rf Reg.ETH_MDIO_DATA.DATA else data.toNat) := by
  have hrun : exec (.mdioComplete data) s = .next (
      if getBits w 16 1 = 1 then (s.wf Reg.ETH_STATUS.MDIO_BUSY 0).onEth (fun x => { x with mdio := none })
      else ((s.wf Reg.ETH_STATUS.MDIO_BUSY 0).onEth (fun x => { x with mdio := none })).wf Reg.ETH_MDIO_DATA.DATA data.toNat) := by
    rw [show exec (.mdioComplete data) s = .next (s.mdioEnd data) from rfl, State.mdioEnd, hw]
  have heq : (s.wf Reg.ETH_STATUS.MDIO_BUSY 0).onEth (fun x => { x with mdio := none }) =
      { s with io := ((s.wf Reg.ETH_STATUS.MDIO_BUSY 0).onEth (fun x => { x with mdio := none })).io, eth := { s.eth with mdio := none } } := rfl
  have hbusy : ((s.wf Reg.ETH_STATUS.MDIO_BUSY 0).onEth (fun x => { x with mdio := none })).on Reg.ETH_STATUS.MDIO_BUSY = false :=
    s.on_wf_same Reg.ETH_STATUS.MDIO_BUSY 0 (by decide)
  have hdata : ((s.wf Reg.ETH_STATUS.MDIO_BUSY 0).onEth (fun x => { x with mdio := none })).rf Reg.ETH_MDIO_DATA.DATA = s.rf Reg.ETH_MDIO_DATA.DATA :=
    s.rf_wf_other _ _ _ (.inl (by decide))
  refine ⟨_, hrun, ?_⟩
  generalize (s.wf Reg.ETH_STATUS.MDIO_BUSY 0).onEth (fun x => { x with mdio := none }) = u at *
  by_cases h : w.getLsbD 16 = true
  · rw [if_pos ((getBits_one_iff w 16).2 h), if_pos h]
    exact ⟨heq, hbusy, hdata⟩
  · rw [if_neg (fun hb => h ((getBits_one_iff w 16).1 hb)), if_neg h]
    refine ⟨?_, (u.on_wf_other _ _ _ (.inl (by decide))).trans hbusy, ?_⟩
    · exact congrArg (fun x : State => { x with io := (u.wf Reg.ETH_MDIO_DATA.DATA data.toNat).io }) heq
    · exact (u.rf_wf_same _ _ (by decide)).trans (Nat.mod_eq_of_lt data.isLt)

end

/-! ## The DHCP client (R475) -/

theorem octets_discover (m : Nat) : Octets ([61, 7, 1] ++ toBe (macAddr m) 6 ++ [55, 4, 1, 3, 51, 54]) :=
  ((octets_of_all (bs := [61, 7, 1]) rfl).append (octets_toBe _ _)).append (octets_of_all rfl)

theorem octets_request (a b : Nat) : Octets ([50, 4] ++ toBe a 4 ++ [54, 4] ++ toBe b 4) :=
  (((octets_of_all (bs := [50, 4]) rfl).append (octets_toBe _ _)).append (octets_of_all rfl)).append (octets_toBe _ _)

section
variable (s : State) (m : Nat)

/-- The client's message repeated: its transmissions counted. -/
def State.sentAgain : State := s.onDhcp m (fun d => { d with sends := d.sends + 1 })

theorem State.mac_sentAgain : (s.sentAgain m).mac m = { s.mac m with dhcp := { (s.mac m).dhcp with sends := (s.mac m).dhcp.sends + 1 } } :=
  s.mac_onMac_same m _

variable (hs : Sending s m)
include hs

/-- A message repeated is one frame more, and the client's count. -/
theorem sentAgain_txDhcp (ty : Nat) (bcast : Bool) (opts : List Nat) (hty : ty < 256) (hopts : Octets opts) :
    MacOnly s ((s.sentAgain m).txDhcp m ty bcast opts) [] ∧
    Queued s ((s.sentAgain m).txDhcp m ty bcast opts) m 0 (if bcast then 2 ^ 48 - 1 else (s.mac m).dhcp.hw) 0x0800 (IsDhcp ty) ∧
    (((s.sentAgain m).txDhcp m ty bcast opts).mac m).dhcp = { (s.mac m).dhcp with sends := (s.mac m).dhcp.sends + 1 } := by
  have hmac := s.mac_sentAgain m
  have honly : MacOnly s (s.sentAgain m) [] :=
    macOnly_onMac s m (fun x => { x with dhcp := { x.dhcp with sends := x.dhcp.sends + 1 } }) []
  have hven : (s.sentAgain m).on (Reg.ETH_VLAN.VEN m) = s.on (Reg.ETH_VLAN.VEN m) := s.on_setMac m _ _
  generalize s.sentAgain m = u at *
  have hsend : Sending u m := by rw [Sending, hmac]; exact hs
  have hq := queued_txDhcp u m ty bcast opts hsend hty hopts
  have hhw : (u.mac m).dhcp.hw = (s.mac m).dhcp.hw := by rw [hmac]
  rw [hhw] at hq
  refine ⟨macOnly_trans honly (macOnly_txDhcp u m ty bcast opts []), queued_congr hq (by rw [hmac]) hven, ?_⟩
  rw [u.txDhcp_mac m ty bcast opts hsend, hmac]

end

/-- The client's registers, apart from each other and from those a message is sent by. -/
theorem dhcpAddrs : ∀ m : Fin 2, (∀ a ∈ [Reg.ETH_IPADDR_at m.val, Reg.ETH_NETMASK_at m.val, Reg.ETH_GATEWAY_at m.val, Reg.ETH_DHCP_at m.val],
    a ≠ Reg.ETH_EVCFG_at ∧ a ≠ Reg.ETH_VLAN_at m.val) ∧ (∀ a ∈ [Reg.ETH_NETMASK_at m.val, Reg.ETH_GATEWAY_at m.val, Reg.ETH_DHCP_at m.val],
    Reg.ETH_IPADDR_at m.val ≠ a) := by decide

/-- The registers of the client. -/
def dhcpRegs (m : Nat) : List Nat := [Reg.ETH_IPADDR_at m, Reg.ETH_NETMASK_at m, Reg.ETH_GATEWAY_at m, Reg.ETH_DHCP_at m]

section
variable (s : State) (m : Fin 2)

theorem State.clearLease_clears : Regs s (s.clearLease m.val) (dhcpRegs m.val) [] ∧ (s.clearLease m.val).rf (Reg.ETH_IPADDR.VALUE m.val) = 0 ∧
    (s.clearLease m.val).rf (Reg.ETH_DHCP.LEFT m.val) = 0 := by
  obtain ⟨-, happ⟩ := dhcpAddrs m
  have hregs := (((((regs_refl s (dhcpRegs m.val)).wf (Reg.ETH_IPADDR.VALUE m.val) 0 (.head _)).wf (Reg.ETH_NETMASK.VALUE m.val) 0
    (.tail _ (.head _))).wf (Reg.ETH_GATEWAY.VALUE m.val) 0 (.tail _ (.tail _ (.head _)))).wf (Reg.ETH_DHCP.LEFT m.val) 0
    (.tail _ (.tail _ (.tail _ (.head _)))))
  refine ⟨hregs, ?_, ?_⟩
  · rw [State.clearLease, State.rf_wf_other _ _ _ _ (.inl (happ _ (.tail _ (.tail _ (.head _))))),
      State.rf_wf_other _ _ _ _ (.inl (happ _ (.tail _ (.head _)))), State.rf_wf_other _ _ _ _ (.inl (happ _ (.head _)))]
    exact (s.rf_wf_same (Reg.ETH_IPADDR.VALUE m.val) 0 (Nat.le_refl 32)).trans (Nat.zero_mod _)
  · exact (State.rf_wf_same _ (Reg.ETH_DHCP.LEFT m.val) 0 (Nat.le_refl 32)).trans (Nat.zero_mod _)

theorem regs_mac {s t : State} {as : List Nat} {es : List (Fin 64)} (h : Regs s t as es) : t.eth = s.eth := by rw [h.1]

/-- ETH_DHCP.STATE changed: LINK_EVENT. -/
theorem State.dhcpState_sets (st : Nat) (hst : st < 8) : Regs s (s.dhcpState m.val st) [Reg.ETH_DHCP_at m.val] (linkEv s) ∧
    (s.dhcpState m.val st).rf (Reg.ETH_DHCP.STATE m.val) = st ∧
    (s.dhcpState m.val st).rf (Reg.ETH_DHCP.LEFT m.val) = s.rf (Reg.ETH_DHCP.LEFT m.val) := by
  obtain ⟨happ, -⟩ := dhcpAddrs m
  have hev : ∀ g : Fd, g.addr = Reg.ETH_EVCFG_at → (s.wf (Reg.ETH_DHCP.STATE m.val) st).reg g.addr = s.reg g.addr :=
    fun g hg => s.reg_wf_other _ _ _ (by rw [hg]; exact (happ _ (.tail _ (.tail _ (.tail _ (.head _))))).1.symm)
  have hregs := ((regs_refl s [Reg.ETH_DHCP_at m.val]).wf (Reg.ETH_DHCP.STATE m.val) st (.head _)).raiseIf Reg.ETH_EVCFG.LINK_EVENT
    Reg.ETH_EVCFG.LINK_EN (ev_congr (hev _ rfl) (hev _ rfl))
  refine ⟨hregs, ?_, ?_⟩
  · exact (State.rf_raiseIf _ _ _ _).trans ((s.rf_wf_same (Reg.ETH_DHCP.STATE m.val) st (show 0 + 3 ≤ 32 by decide)).trans (Nat.mod_eq_of_lt hst))
  · exact (State.rf_raiseIf _ _ _ _).trans (s.rf_wf_other _ _ _ (.inr (.inr (show 0 + 3 ≤ 8 by decide))))

/-- A state of the client entered and a message sent. -/
theorem dhcpState_asks (hs : Sending s m.val) (st ty : Nat) (bcast : Bool) (opts : List Nat) (hst : st < 8) (hty : ty < 256) (hopts : Octets opts) :
    let t := (s.dhcpState m.val st).txDhcp m.val ty bcast opts
    t.rf (Reg.ETH_DHCP.STATE m.val) = st ∧ t.rf (Reg.ETH_DHCP.LEFT m.val) = s.rf (Reg.ETH_DHCP.LEFT m.val) ∧
      t.rf (Reg.ETH_IPADDR.VALUE m.val) = s.rf (Reg.ETH_IPADDR.VALUE m.val) ∧
      Queued s t m.val 0 (if bcast then 2 ^ 48 - 1 else (s.mac m.val).dhcp.hw) 0x0800 (IsDhcp ty) ∧ t.net.events = s.net.events ++ linkEv s := by
  obtain ⟨hregs, hstate, hleft⟩ := s.dhcpState_sets m st hst
  obtain ⟨happ, happ'⟩ := dhcpAddrs m
  have heth := regs_mac hregs
  have hreg (a : Nat) (ha : a ≠ Reg.ETH_DHCP_at m.val) : (s.dhcpState m.val st).reg a = s.reg a := hregs.2 a (by rw [List.mem_singleton]; exact ha)
  have hevents : (s.dhcpState m.val st).net.events = s.net.events ++ linkEv s := by rw [hregs.1]
  generalize s.dhcpState m.val st = u at *
  have hmac : u.mac m.val = s.mac m.val := mac_congr (by rw [heth]) m.val
  have hven : u.on (Reg.ETH_VLAN.VEN m.val) = s.on (Reg.ETH_VLAN.VEN m.val) := by
    rw [State.on, State.on, State.rf, State.rf, hreg (Reg.ETH_VLAN.VEN m.val).addr (happ _ (.tail _ (.tail _ (.tail _ (.head _))))).2.symm]
  have haddr : u.rf (Reg.ETH_IPADDR.VALUE m.val) = s.rf (Reg.ETH_IPADDR.VALUE m.val) := by
    rw [State.rf, State.rf, hreg (Reg.ETH_IPADDR.VALUE m.val).addr (happ' _ (.tail _ (.tail _ (.head _))))]
  have hsend : Sending u m.val := by rw [Sending, hmac]; exact hs
  have hq := queued_txDhcp u m.val ty bcast opts hsend hty hopts
  rw [hmac] at hq
  obtain ⟨honly, htreg⟩ := macOnly_txDhcp u m.val ty bcast opts []
  have htrf (g : Fd) : (u.txDhcp m.val ty bcast opts).rf g = u.rf g := by rw [State.rf, State.rf, htreg _ List.not_mem_nil]
  have hnet : (u.txDhcp m.val ty bcast opts).net = u.net := by rw [honly]
  generalize u.txDhcp m.val ty bcast opts = t at *
  refine ⟨?_, ?_, ?_, queued_congr hq (by rw [hmac]) hven, ?_⟩
  · rw [htrf, hstate]
  · rw [htrf, hleft]
  · rw [htrf, haddr]
  · rw [hnet, hevents]

/-- A new transaction begun. -/
def State.newXid (s : State) (m : Nat) : State := s.takeFree.2.onDhcp m (fun d => { d with xid := s.takeFree.1 % 2 ^ 32, sends := 1 })

theorem State.reg_newXid (m a : Nat) : (s.newXid m).reg a = s.reg a := rfl
theorem State.net_newXid (m : Nat) : (s.newXid m).net = s.net := rfl

theorem State.mac_newXid (m : Nat) : ((s.newXid m).mac m).txq = (s.mac m).txq ∧ ((s.newXid m).mac m).sending = (s.mac m).sending := by
  have hmac : s.takeFree.2.mac m = s.mac m := by rw [State.mac, State.mac, State.takeFree_eth]
  rw [State.newXid, State.onDhcp, State.mac_onMac_same, hmac]
  exact ⟨rfl, rfl⟩

/-- The client as it enters INIT, before its state changes. -/
def State.dhcpCleared : State := (s.clearLease m.val).newXid m.val

theorem State.dhcpCleared_clears : (s.dhcpCleared m).rf (Reg.ETH_IPADDR.VALUE m.val) = 0 ∧ (s.dhcpCleared m).rf (Reg.ETH_DHCP.LEFT m.val) = 0 ∧
    ((s.dhcpCleared m).mac m.val).txq = (s.mac m.val).txq ∧ ((s.dhcpCleared m).mac m.val).sending = (s.mac m.val).sending ∧
    (s.dhcpCleared m).net = s.net ∧ ∀ a, a ∉ dhcpRegs m.val → (s.dhcpCleared m).reg a = s.reg a := by
  obtain ⟨hregs, haddr, hleft⟩ := s.clearLease_clears m
  have hnet : (s.clearLease m.val).net = s.net := by rw [hregs.eq_io]
  have hmac : (s.clearLease m.val).mac m.val = s.mac m.val := mac_congr (by rw [regs_mac hregs]) m.val
  rw [State.dhcpCleared]
  generalize s.clearLease m.val = u at *
  obtain ⟨htxq, hsending⟩ := u.mac_newXid m.val
  have hreg := u.reg_newXid m.val
  rw [hmac] at htxq hsending
  refine ⟨?_, ?_, htxq, hsending, (u.net_newXid m.val).trans hnet, fun a ha => (hreg a).trans (hregs.2 a ha)⟩
  · rw [State.rf, hreg, ← State.rf, haddr]
  · rw [State.rf, hreg, ← State.rf, hleft]

theorem dhcpInit_inits (hs : Sending s m.val) : let t := s.dhcpInit m.val
    t.rf (Reg.ETH_DHCP.STATE m.val) = 1 ∧ t.rf (Reg.ETH_IPADDR.VALUE m.val) = 0 ∧ t.rf (Reg.ETH_DHCP.LEFT m.val) = 0 ∧
      Queued s t m.val 0 (2 ^ 48 - 1) 0x0800 (IsDhcp 1) ∧ t.net.events = s.net.events ++ linkEv s := by
  have heq : s.dhcpInit m.val = ((s.dhcpCleared m).dhcpState m.val 1).txDhcp m.val 1 true ([61, 7, 1] ++ toBe (macAddr m.val) 6 ++ [55, 4, 1, 3, 51, 54]) := rfl
  obtain ⟨haddr, hleft, htxq, hsending, hnet, hreg⟩ := s.dhcpCleared_clears m
  obtain ⟨happ, -⟩ := dhcpAddrs m
  intro t
  have ht : t = s.dhcpInit m.val := rfl
  rw [heq] at ht
  generalize s.dhcpCleared m = u at *
  have hsend : Sending u m.val := by rw [Sending, hsending]; exact hs
  obtain ⟨h1, h2, h3, h4, h5⟩ := dhcpState_asks u m hsend 1 1 true _ (by decide) (by decide) (octets_discover m.val)
  rw [← ht] at h1 h2 h3 h4 h5
  have hev : linkEv u = linkEv s := ev_congr (hreg _ (fun h => (happ _ h).1 rfl)) (hreg _ (fun h => (happ _ h).1 rfl))
  have hven : u.on (Reg.ETH_VLAN.VEN m.val) = s.on (Reg.ETH_VLAN.VEN m.val) := by
    rw [State.on, State.on, State.rf, State.rf, hreg (Reg.ETH_VLAN.VEN m.val).addr (fun h => (happ _ h).2 rfl)]
  exact ⟨h1, h3.trans haddr, h2.trans hleft, queued_congr h4 htxq hven, by rw [h5, hnet, hev]⟩

end

end Sys2Proof.Machine
end

section
/-!
PROOFS. The DHCP client's timers and the firmware's datagram queues (R475, R491).
-/

namespace Sys2Proof.Machine
open Sys2Proof.Claims

/-! ## The client's timers (R475) -/

section
variable (m : Fin 2) (s : State) (hserves : s.ethServes = true) (hmode : s.rf (Reg.ETH_IPCFG.MODE m.val) = 2)
include hserves hmode

theorem dhcpOn_of_mode : s.dhcpOn m.val = true := by rw [State.dhcpOn, hserves, hmode]; rfl

theorem exec_dhcpRetransmit : exec (.dhcpRetransmit m) s = .next (s.dhcpAgain m.val) := if_pos (dhcpOn_of_mode m s hserves hmode)

variable (hs : Sending s m.val)
include hs

theorem dhcpRetransmit_discovers (hst : s.rf (Reg.ETH_DHCP.STATE m.val) = 1) : Does (.dhcpRetransmit m) s (fun t => MacOnly s t [] ∧
    Queued s t m.val 0 (2 ^ 48 - 1) 0x0800 (IsDhcp 1) ∧ (t.mac m.val).dhcp = { (s.mac m.val).dhcp with sends := (s.mac m.val).dhcp.sends + 1 }) := by
  refine ⟨_, exec_dhcpRetransmit m s hserves hmode, ?_⟩
  rw [State.dhcpAgain, hst, if_pos rfl]
  exact sentAgain_txDhcp s m.val hs 1 true _ (by decide) (octets_discover m.val)

theorem dhcpRetransmit_requests (hst : s.rf (Reg.ETH_DHCP.STATE m.val) = 2) (hn : (s.mac m.val).dhcp.sends < 4) :
    Does (.dhcpRetransmit m) s (fun t => MacOnly s t [] ∧ Queued s t m.val 0 (2 ^ 48 - 1) 0x0800 (IsDhcp 3) ∧
      (t.mac m.val).dhcp = { (s.mac m.val).dhcp with sends := (s.mac m.val).dhcp.sends + 1 }) := by
  refine ⟨_, exec_dhcpRetransmit m s hserves hmode, ?_⟩
  rw [State.dhcpAgain, hst, if_neg (by decide), if_pos rfl, if_neg hn.not_ge]
  exact sentAgain_txDhcp s m.val hs 3 true _ (by decide) (octets_request _ _)

theorem dhcpRetransmit_restarts (hst : s.rf (Reg.ETH_DHCP.STATE m.val) = 2) (hn : 4 ≤ (s.mac m.val).dhcp.sends) :
    Does (.dhcpRetransmit m) s (fun t => t.rf (Reg.ETH_DHCP.STATE m.val) = 1 ∧ t.rf (Reg.ETH_IPADDR.VALUE m.val) = 0 ∧
      t.rf (Reg.ETH_DHCP.LEFT m.val) = 0 ∧ Queued s t m.val 0 (2 ^ 48 - 1) 0x0800 (IsDhcp 1) ∧ t.net.events = s.net.events ++ linkEv s) := by
  refine ⟨_, exec_dhcpRetransmit m s hserves hmode, ?_⟩
  rw [State.dhcpAgain, hst, if_neg (by decide), if_pos rfl, if_pos hn]
  exact dhcpInit_inits s m hs

theorem dhcpRetransmit_renews (hst : s.rf (Reg.ETH_DHCP.STATE m.val) = 4) : Does (.dhcpRetransmit m) s (fun t => MacOnly s t [] ∧
    Queued s t m.val 0 (s.mac m.val).dhcp.hw 0x0800 (IsDhcp 3)) := by
  refine ⟨_, exec_dhcpRetransmit m s hserves hmode, ?_⟩
  rw [State.dhcpAgain, hst, if_neg (by decide), if_neg (by decide), if_pos rfl]
  obtain ⟨honly, hq, -⟩ := sentAgain_txDhcp s m.val hs 3 false [] (by decide) octets_nil
  exact ⟨honly, hq⟩

theorem dhcpRetransmit_rebinds (hst : s.rf (Reg.ETH_DHCP.STATE m.val) = 5) : Does (.dhcpRetransmit m) s (fun t => MacOnly s t [] ∧
    Queued s t m.val 0 (2 ^ 48 - 1) 0x0800 (IsDhcp 3)) := by
  refine ⟨_, exec_dhcpRetransmit m s hserves hmode, ?_⟩
  rw [State.dhcpAgain, hst, if_neg (by decide), if_neg (by decide), if_neg (by decide), if_pos rfl]
  obtain ⟨honly, hq, -⟩ := sentAgain_txDhcp s m.val hs 3 true [] (by decide) octets_nil
  exact ⟨honly, hq⟩

variable (hlease : (s.mac m.val).dhcp.lease ≠ 0xFFFFFFFF)
include hlease

omit hserves hmode hs in
theorem leaseFinite_of_ne : s.leaseFinite m.val = true := bne_iff_ne.2 hlease

theorem dhcpT1_renews (hst : s.rf (Reg.ETH_DHCP.STATE m.val) = 3) : Does (.dhcpT1 m) s (fun t => t.rf (Reg.ETH_DHCP.STATE m.val) = 4 ∧
    Queued s t m.val 0 (s.mac m.val).dhcp.hw 0x0800 (IsDhcp 3) ∧ t.net.events = s.net.events ++ linkEv s) := by
  obtain ⟨hstate, -, -, hq, hev⟩ := dhcpState_asks s m hs 4 3 false [] (by decide) (by decide) octets_nil
  exact ⟨_, if_pos ⟨dhcpOn_of_mode m s hserves hmode, hst, leaseFinite_of_ne m s hlease⟩, hstate, hq, hev⟩

theorem dhcpT2_rebinds (hst : s.rf (Reg.ETH_DHCP.STATE m.val) = 4) : Does (.dhcpT2 m) s (fun t => t.rf (Reg.ETH_DHCP.STATE m.val) = 5 ∧
    Queued s t m.val 0 (2 ^ 48 - 1) 0x0800 (IsDhcp 3)) := by
  obtain ⟨hstate, -, -, hq, -⟩ := dhcpState_asks s m hs 5 3 true [] (by decide) (by decide) octets_nil
  exact ⟨_, if_pos ⟨dhcpOn_of_mode m s hserves hmode, hst, leaseFinite_of_ne m s hlease⟩, hstate, hq⟩

theorem leaseExpiry_restarts (hst : 3 ≤ s.rf (Reg.ETH_DHCP.STATE m.val)) : Does (.leaseExpiry m) s (fun t =>
    t.rf (Reg.ETH_DHCP.STATE m.val) = 1 ∧ t.rf (Reg.ETH_IPADDR.VALUE m.val) = 0 ∧ t.rf (Reg.ETH_DHCP.LEFT m.val) = 0 ∧
      Queued s t m.val 0 (2 ^ 48 - 1) 0x0800 (IsDhcp 1) ∧ t.net.events = s.net.events ++ linkEv s) :=
  ⟨_, if_pos ⟨dhcpOn_of_mode m s hserves hmode, hst, leaseFinite_of_ne m s hlease⟩, dhcpInit_inits s m hs⟩

end

/-- A lease without an end is not renewed. -/
theorem endlessLease (m : Fin 2) (s : State) (h : (s.mac m.val).dhcp.lease = 0xFFFFFFFF) : Does (.dhcpT1 m) s (fun t => t = s) ∧
    Does (.dhcpT2 m) s (fun t => t = s) ∧ Does (.leaseExpiry m) s (fun t => t = s) := by
  have hfin : ¬ s.leaseFinite m.val = true := by rw [State.leaseFinite, h]; decide
  exact ⟨⟨s, if_neg (fun hc => hfin hc.2.2), rfl⟩, ⟨s, if_neg (fun hc => hfin hc.2.2), rfl⟩, ⟨s, if_neg (fun hc => hfin hc.2.2), rfl⟩⟩

/-! ## Datagrams read by firmware (R491) -/

/-- ETH_FRX_DATA holds no field that a read clears. -/
theorem clearRc_frxData (w : Word) : clearRc (fieldsAt Reg.ETH_FRX_DATA_at) w = w := rfl

section
variable (src : Src) (v : Word) (s : State)

/-- What a read of a register leaves before its queues move on. -/
def State.rcRead (a : Nat) : State := if src.clears then s.setReg a (clearRc (fieldsAt a) (s.reg a)) else s

theorem State.rcRead_frxData : s.rcRead src Reg.ETH_FRX_DATA_at = { s with io := (s.rcRead src Reg.ETH_FRX_DATA_at).io } ∧
    ∀ a, (s.rcRead src Reg.ETH_FRX_DATA_at).reg a = s.reg a := by
  rw [State.rcRead, clearRc_frxData]
  split
  · refine ⟨rfl, fun a => ?_⟩
    by_cases ha : a = Reg.ETH_FRX_DATA_at
    · rw [ha, State.reg_setReg_same]
    · exact s.reg_setReg_other _ _ _ ha
  · exact ⟨rfl, fun _ => rfl⟩

theorem State.busRead_frxData : (s.busRead src Reg.ETH_FRX_DATA_at).2 = (s.rcRead src Reg.ETH_FRX_DATA_at).frxRead := rfl

theorem State.reg_frxRead (a : Nat) : s.frxRead.reg a = s.reg a := rfl

variable (hup : s.ethUp = true)
include hup

theorem ethFrxDataRead_moves : Does (.ethFrxDataRead src) s (fun t =>
    t = { s with io := t.io, eth := { s.eth with frxAt := s.eth.frxAt + 1 } } ∧ ∀ a, t.reg a = s.reg a) := by
  refine ⟨_, (if_pos hup).trans (congrArg Host.Outcome.next (s.busRead_frxData src)), ?_⟩
  obtain ⟨heq, hreg⟩ := s.rcRead_frxData src
  generalize s.rcRead src Reg.ETH_FRX_DATA_at = u at heq hreg
  exact ⟨congrArg State.frxRead heq, fun a => (u.reg_frxRead a).trans (hreg a)⟩

theorem refused_fobex {i : Instr} {a : Nat} (hi : exec i s = if s.ethUp then .next (s.writeEth src a v).st else .next s) (hsrc : src = .fobex) :
    Refuses i s ethRefuse 3 := by
  subst hsrc
  exact refuses_of_exec (by decide) (hi.trans ((if_pos hup).trans (congrArg (fun w : WRes => Host.Outcome.next w.st) (s.writeEth_fobex v _))))

variable (hsrc : src ≠ .fobex)
include hsrc

theorem exec_ethFrxPop : exec (.ethFrxPop src v) s = .next s.frxPop := by
  rw [show exec (.ethFrxPop src v) s = execEthFrxPop src v s from rfl, execEthFrxPop, if_pos hup, State.writeEth, if_neg hsrc]
  rfl

theorem exec_ethFtxDataWrite : exec (.ethFtxDataWrite src v) s = .next (s.ftxData v).st := by
  rw [show exec (.ethFtxDataWrite src v) s = execEthFtxDataWrite src v s from rfl, execEthFtxDataWrite, if_pos hup, State.writeEth, if_neg hsrc]
  rfl

theorem exec_ethFtxSend : exec (.ethFtxSend src v) s = .next (s.ftxSend v).st := by
  rw [show exec (.ethFtxSend src v) s = execEthFtxSend src v s from rfl, execEthFtxSend, if_pos hup, State.writeEth, if_neg hsrc]
  rfl

theorem ethFtxDataWrite_full (h : 2 ≤ s.fwWaiting) : Refuses (.ethFtxDataWrite src v) s ethRefuse 6 :=
  refuses_of_exec (by decide) ((exec_ethFtxDataWrite src v s hup hsrc).trans (congrArg (fun w : WRes => Host.Outcome.next w.st) (if_pos h)))

theorem ethFtxDataWrite_stages (h : s.fwWaiting < 2) : Does (.ethFtxDataWrite src v) s (fun t =>
    t = { s with eth := { s.eth with words := s.eth.words ++ [v] } }) :=
  ⟨_, (exec_ethFtxDataWrite src v s hup hsrc).trans (congrArg (fun w : WRes => Host.Outcome.next w.st) (if_neg h.not_ge)), rfl⟩

end

/-! ## A datagram sent (R491) -/

/-- The staged words make a datagram of the length asked for. -/
def State.ftxLenOk (s : State) (v : Word) : Prop := 1 ≤ getBits v 0 11 ∧ getBits v 0 11 ≤ 1472 ∧ s.eth.words.length = (getBits v 0 11 + 3) / 4

theorem ftxLenOk_iff (s : State) (v : Word) : ¬ s.ftxLenOk v ↔
    getBits v 0 11 = 0 ∨ 1472 < getBits v 0 11 ∨ s.eth.words.length ≠ (getBits v 0 11 + 3) / 4 := by
  unfold State.ftxLenOk
  omega

theorem sportBad_iff (p : Nat) : sportBad p = true ↔ p ∈ [0, 67, 68, 47110] := by
  rw [sportBad]
  simp only [Bool.or_eq_true, beq_iff_eq, List.mem_cons, List.not_mem_nil, or_false, or_assoc]

/-- The bytes staged. -/
def State.staged (s : State) : List Nat := s.eth.words.flatMap (fun w => toBytes w.toNat 4)

theorem octets_staged (s : State) : Octets s.staged := by
  intro b hb
  obtain ⟨w, -, h⟩ := List.mem_flatMap.1 hb
  exact octets_toBytes _ _ b h

section
variable (src : Src) (v : Word) (s : State) (hup : s.ethUp = true) (hsrc : src ≠ .fobex)
include hup hsrc

theorem ethFtxSend_refuses {why : Nat} (hr : refuseSound ethRefuse why = true) (h : s.ftxSend v = s.refused ethRefuse why) :
    Refuses (.ethFtxSend src v) s ethRefuse why :=
  refuses_of_exec hr ((exec_ethFtxSend src v s hup hsrc).trans (congrArg (fun w : WRes => Host.Outcome.next w.st) h))

theorem ethFtxSend_length (h : ¬ s.ftxLenOk v) : Refuses (.ethFtxSend src v) s ethRefuse 5 :=
  ethFtxSend_refuses src v s hup hsrc (by decide) (if_pos ((ftxLenOk_iff s v).1 h))

variable (hlen : s.ftxLenOk v)
include hlen

theorem ethFtxSend_port (h : s.rf Reg.ETH_FTX_PORTS.SRC ∈ [0, 67, 68, 47110]) : Refuses (.ethFtxSend src v) s ethRefuse 4 :=
  ethFtxSend_refuses src v s hup hsrc (by decide)
    ((if_neg (fun hb => (ftxLenOk_iff s v).2 hb hlen)).trans (if_pos ((sportBad_iff _).2 h)))

variable (hport : s.rf Reg.ETH_FTX_PORTS.SRC ∉ [0, 67, 68, 47110])
include hport

theorem ethFtxSend_busy (h : 2 ≤ s.fwWaiting) : Refuses (.ethFtxSend src v) s ethRefuse 6 :=
  ethFtxSend_refuses src v s hup hsrc (by decide)
    ((if_neg (fun hb => (ftxLenOk_iff s v).2 hb hlen)).trans ((if_neg (fun hb => hport ((sportBad_iff _).1 hb))).trans (if_pos h)))

variable (hroom : s.fwWaiting < 2)
include hroom

theorem ethFtxSend_noAddress (h : s.ipAddr (getBits v 16 1) = 0) : Refuses (.ethFtxSend src v) s ethRefuse 1 :=
  ethFtxSend_refuses src v s hup hsrc (by decide)
    ((if_neg (fun hb => (ftxLenOk_iff s v).2 hb hlen)).trans ((if_neg (fun hb => hport ((sportBad_iff _).1 hb))).trans
      ((if_neg hroom.not_ge).trans (if_pos h))))

variable (haddr : s.ipAddr (getBits v 16 1) ≠ 0)
include haddr

/-- The staged words taken. -/
def State.unstaged (s : State) : State := s.onEth (fun x => { x with words := [] })

theorem exec_ftxRoute : exec (.ethFtxSend src v) s = .next (s.unstaged.fwRoute (getBits v 16 1) (s.rf Reg.ETH_FTX_DST.VALUE)
    (s.rf Reg.ETH_FTX_PORTS.SRC) (s.rf Reg.ETH_FTX_PORTS.DST) ((octetsOf s.staged).take (getBits v 0 11))) := by
  rw [exec_ethFtxSend src v s hup hsrc, State.ftxSend, if_neg (fun hb => (ftxLenOk_iff s v).2 hb hlen),
    if_neg (fun hb => hport ((sportBad_iff _).1 hb)), if_neg hroom.not_ge, if_neg haddr]
  rfl

end

/-! ## The datagram's way: no route, a known address, or an ARP request -/

theorem toBytes_mod (w n : Nat) : toBytes (w % 256 ^ n) n = toBytes w n := by
  induction n generalizing w with
  | zero => rfl
  | succ n ih =>
    have hhead : w % 256 ^ (n + 1) % 256 = w % 256 := Nat.mod_mod_of_dvd w (Dvd.intro_left (256 ^ n) rfl)
    have htail : w % 256 ^ (n + 1) / 256 = w / 256 % 256 ^ n := by rw [Nat.pow_succ', Nat.mod_mul_right_div_self]
    rw [toBytes, toBytes, hhead, htail, ih]

theorem toBe_mod (w n : Nat) : toBe (w % 256 ^ n) n = toBe w n := by rw [toBe, toBe, toBytes_mod]

theorem natsOf_take (bs : List Nat) (n : Nat) (h : Octets bs) : natsOf ((octetsOf bs).take n) = bs.take n := by
  rw [natsOf, List.map_take]
  exact congrArg (List.take n) (natsOf_octetsOf h)

section
variable (s : State) (m ip sport dport : Nat) (p : List Byte)

/-- The address lies on the MAC's own subnet. -/
def State.onSubnet : Prop := ip &&& s.rf (Reg.ETH_NETMASK.VALUE m) = s.ipAddr m &&& s.rf (Reg.ETH_NETMASK.VALUE m)

theorem fwRoute_none (hfar : ¬ s.onSubnet m ip) (hgw : s.rf (Reg.ETH_GATEWAY.VALUE m) = 0) : s.fwRoute m ip sport dport p = s.drop m 0x15 :=
  if_pos ⟨hfar, hgw⟩

theorem fwRoute_near (hnear : s.onSubnet m ip) : s.fwRoute m ip sport dport p =
    match (s.arpLook m ip).1 with
    | some hw => (s.arpLook m ip).2.sendFw ⟨m, ip, ip, sport, dport, p, 0⟩ hw
    | none => (s.onEth (fun x => { x with ftx := x.ftx ++ [⟨m, ip, ip, sport, dport, p, 1⟩] })).txArp m 1 hwAll 0 ip := by
  have h : ip &&& s.rf (Reg.ETH_NETMASK.VALUE m) = s.ipAddr m &&& s.rf (Reg.ETH_NETMASK.VALUE m) := hnear
  rw [State.fwRoute]
  simp only [h, not_true, false_and, if_false, if_true] <;> rfl

/-- An entry of the ARP cache becomes its first. -/
def State.arpUsed (e : ArpEnt) : State := s.setMac m { s.mac m with arp := e :: (s.mac m).arp.filter (fun y => y.ip != ip) }

theorem arpLook_finds {e : ArpEnt} (he : e ∈ (s.mac m).arp) (hip : e.ip = ip) (hone : ∀ e' ∈ (s.mac m).arp, e'.ip = ip → e' = e) :
    s.arpLook m ip = (some e.hw, s.arpUsed m ip e) := by
  have hfind : (s.mac m).arp.find? (fun x => x.ip == ip) = some e := by
    cases hf : (s.mac m).arp.find? (fun x => x.ip == ip) with
    | none => exact absurd (beq_iff_eq.2 hip) (List.find?_eq_none.1 hf e he)
    | some x =>
      have hx : x.ip = ip := beq_iff_eq.1 (List.find?_some (p := fun x : ArpEnt => x.ip == ip) hf)
      rw [hone x (List.mem_of_find?_eq_some hf) hx]
  rw [State.arpLook, hfind]
  rfl

theorem arpLook_misses (h : ∀ e ∈ (s.mac m).arp, e.ip ≠ ip) : s.arpLook m ip = (none, s) := by
  have hfind : (s.mac m).arp.find? (fun x => x.ip == ip) = none :=
    List.find?_eq_none.2 (fun x hx hb => h x hx (beq_iff_eq.1 hb))
  rw [State.arpLook, hfind]

variable (hnear : s.onSubnet m ip) (hs : Sending s m)
include hnear hs

/-- A datagram to a known address is queued on its MAC. -/
theorem fwRoute_sends {e : ArpEnt} (he : e ∈ (s.mac m).arp) (hip : e.ip = ip) (hone : ∀ e' ∈ (s.mac m).arp, e'.ip = ip → e' = e) :
    MacOnly s (s.fwRoute m ip sport dport p) [] ∧ Queued s (s.fwRoute m ip sport dport p) m 2 (e.hw % 2 ^ 48) 0x0800 (fun b =>
      slice b 9 1 = [17] ∧ slice b 16 4 = toBe ip 4 ∧ slice b 20 4 = toBe sport 2 ++ toBe dport 2 ∧ b.drop 28 = natsOf p) := by
  have heq : s.fwRoute m ip sport dport p =
      (s.arpUsed m ip e).txUdp m 2 0 e.hw ((s.arpUsed m ip e).ipAddr m) ip sport dport (natsOf p) := by
    rw [fwRoute_near s m ip sport dport p hnear, arpLook_finds s m ip he hip hone]
    rfl
  have hmac : (s.arpUsed m ip e).mac m = { s.mac m with arp := e :: (s.mac m).arp.filter (fun y => y.ip != ip) } := s.mac_setMac_same m _
  have honly : MacOnly s (s.arpUsed m ip e) [] := macOnly_setMac s m _ []
  have hven : (s.arpUsed m ip e).on (Reg.ETH_VLAN.VEN m) = s.on (Reg.ETH_VLAN.VEN m) := s.on_setMac m _ _
  rw [heq]
  generalize s.arpUsed m ip e = u at *
  have hsend : Sending u m := by rw [Sending, hmac]; exact hs
  have hq := queued_txUdp u m 2 0 e.hw (u.ipAddr m) ip (natsOf p) hsend (octets_natsOf p) sport dport
    (P := fun b => slice b 9 1 = [17] ∧ slice b 16 4 = toBe ip 4 ∧ slice b 20 4 = toBe sport 2 ++ toBe dport 2 ∧ b.drop 28 = natsOf p)
    (fun len id c n c' => ⟨rfl, rfl, rfl, rfl⟩)
  refine ⟨macOnly_trans honly (macOnly_txUdp _ _ _ _ _ _ _ _ _ _ []), ?_⟩
  obtain ⟨f, htxq, hcls, hda, hbody⟩ := queued_congr hq (by rw [hmac]) hven
  refine ⟨f, htxq, hcls, ?_, hbody⟩
  rw [hda, ← toBe_mod e.hw 6, show 256 ^ 6 = 2 ^ 48 by norm_num]

/-- A datagram to an address not yet known waits, and the address is asked for. -/
theorem fwRoute_asks (hmiss : ∀ e ∈ (s.mac m).arp, e.ip ≠ ip) : (s.fwRoute m ip sport dport p).eth.words = s.eth.words ∧
    (s.fwRoute m ip sport dport p).eth.ftx.length = s.eth.ftx.length + 1 ∧
    Queued s (s.fwRoute m ip sport dport p) m 0 (2 ^ 48 - 1) 0x0806
      (fun b => slice b 0 8 = [0, 1, 8, 0, 6, 4, 0, 1] ∧ slice b 24 4 = toBe ip 4) := by
  have heq : s.fwRoute m ip sport dport p =
      (s.onEth (fun x => { x with ftx := x.ftx ++ [⟨m, ip, ip, sport, dport, p, 1⟩] })).txArp m 1 hwAll 0 ip := by
    rw [fwRoute_near s m ip sport dport p hnear, arpLook_misses s m ip hmiss]
  have hmac : (s.onEth (fun x => { x with ftx := x.ftx ++ [⟨m, ip, ip, sport, dport, p, 1⟩] })).mac m = s.mac m := rfl
  have hwords : (s.onEth (fun x => { x with ftx := x.ftx ++ [⟨m, ip, ip, sport, dport, p, 1⟩] })).eth.words = s.eth.words := rfl
  have hftx : (s.onEth (fun x => { x with ftx := x.ftx ++ [⟨m, ip, ip, sport, dport, p, 1⟩] })).eth.ftx =
      s.eth.ftx ++ [⟨m, ip, ip, sport, dport, p, 1⟩] := rfl
  have hon (f : Fd) : (s.onEth (fun x => { x with ftx := x.ftx ++ [⟨m, ip, ip, sport, dport, p, 1⟩] })).on f = s.on f := rfl
  rw [heq]
  generalize s.onEth (fun x => { x with ftx := x.ftx ++ [⟨m, ip, ip, sport, dport, p, 1⟩] }) = u at *
  obtain ⟨hkeepF, hkeepW⟩ := macOnly_ftx (macOnly_txArp u m 1 hwAll 0 ip [])
  have hsend : Sending u m := by rw [Sending, hmac]; exact hs
  refine ⟨by rw [hkeepW, hwords], by rw [hkeepF, hftx, List.length_append, List.length_singleton],
    queued_congr (queued_arpRequest u m ip hsend) (by rw [hmac]) (hon _)⟩

end

section
variable (s : State) (m : Nat)

theorem State.rf_unstaged (f : Fd) : s.unstaged.rf f = s.rf f := rfl
theorem State.on_unstaged (f : Fd) : s.unstaged.on f = s.on f := rfl
theorem State.mac_unstaged : s.unstaged.mac m = s.mac m := rfl
theorem State.words_unstaged : s.unstaged.eth.words = [] := rfl
theorem State.ftx_unstaged : s.unstaged.eth.ftx = s.eth.ftx := rfl

theorem State.onSubnet_unstaged (ip : Nat) : s.unstaged.onSubnet m ip ↔ s.onSubnet m ip := Iff.rfl

end

theorem getLsbD_zero16 (k : Nat) : (0 : BitVec 16).getLsbD k = false := by simp

/-- Settles O50: ARP, links, MDIO and the DHCP client by what each queues on a MAC that is sending, and the firmware's datagrams by the checks of
the table and the ARP cache. -/
theorem clientsAndFirmwareQueues : Obligations.ClientsAndFirmwareQueues := by
  refine ⟨fun i f s hf _ => ⟨arpRetry_off i f s hf, arpRetry_asks i f s hf, arpRetry_gives_up i f s hf⟩, arpAge_ages,
    fun m r1 r4 r5 r9 r10 s hup hserves hen hspeed hs => ⟨phyPoll_down m r1 r4 r5 r9 r10 s hup hserves hen hspeed hs, ?_, ?_, ?_, ?_⟩,
    fun src v data s hup => ⟨mdioCmd_fobex src v s hup, mdioCmd_busy src v s hup, mdioCmd_starts src v s hup, fun w => mdioComplete_ends data s⟩,
    fun m s hserves hmode hs => ⟨dhcpRetransmit_discovers m s hserves hmode hs, dhcpRetransmit_requests m s hserves hmode hs,
      dhcpRetransmit_restarts m s hserves hmode hs, dhcpRetransmit_renews m s hserves hmode hs, dhcpRetransmit_rebinds m s hserves hmode hs,
      fun hst hl => dhcpT1_renews m s hserves hmode hs hl hst, fun hst hl => dhcpT2_rebinds m s hserves hmode hs hl hst,
      fun hst hl => leaseExpiry_restarts m s hserves hmode hs hl hst, endlessLease m s⟩,
    fun src v s hup => ⟨ethFrxDataRead_moves src s hup, fun hsrc => ⟨refused_fobex src v s hup rfl hsrc, refused_fobex src v s hup rfl hsrc,
      refused_fobex src v s hup rfl hsrc⟩, fun hsrc => ⟨⟨_, exec_ethFrxPop src v s hup hsrc, rfl⟩, ethFtxDataWrite_full src v s hup hsrc,
      ethFtxDataWrite_stages src v s hup hsrc, ethFtxSend_length src v s hup hsrc, ethFtxSend_port src v s hup hsrc, ethFtxSend_busy src v s hup hsrc,
      ethFtxSend_noAddress src v s hup hsrc, fun hlen hport hroom haddr => ?_⟩⟩⟩
  · intro hlink h9 h11
    refine phyPoll_resolved m r1 r4 r5 r9 r10 s hup hserves hen hspeed hs hlink (by decide) ?_
    rw [resolveLink, h9, h11]
    rfl
  · intro hlink h9 h8 h4 h5
    refine phyPoll_resolved m r1 r4 r5 r9 r10 s hup hserves hen hspeed hs hlink (by decide) ?_
    rw [resolveLink, h9, h8]
    simp only [Bool.false_and, Bool.false_eq_true, if_false, h4, h5, Bool.and_self, if_true]
  · intro hlink h9 h8 h7 h4 h5
    refine phyPoll_resolved m r1 r4 r5 r9 r10 s hup hserves hen hspeed hs hlink (by decide) ?_
    rw [resolveLink, h9]
    simp only [getLsbD_zero16, Bool.false_and, Bool.false_eq_true, if_false, h8, h7, h4, h5, Bool.and_self, if_true]
  · intro hlink h9 h4
    refine phyPoll_unresolved m r1 r4 r5 r9 r10 s hup hserves hen hspeed hs hlink ?_
    rw [resolveLink, h9, h4]
    simp only [getLsbD_zero16, Bool.false_and, Bool.false_eq_true, if_false]
  · have hrun := exec_ftxRoute src v s hup hsrc hlen hport hroom haddr
    refine ⟨fun hfar hgw => ⟨_, hrun, ?_⟩, fun e he hnear hip hone hs => ⟨_, hrun, ?_⟩, fun hnear hmiss hs => ⟨_, hrun, ?_⟩⟩
    · dsimp only
      rw [fwRoute_none s.unstaged _ _ _ _ _ hfar hgw]
      exact ⟨rfl, s.unstaged.drop_counts _ _⟩
    · obtain ⟨honly, hq⟩ := fwRoute_sends s.unstaged (getBits v 16 1) (s.rf Reg.ETH_FTX_DST.VALUE) (s.rf Reg.ETH_FTX_PORTS.SRC)
        (s.rf Reg.ETH_FTX_PORTS.DST) ((octetsOf s.staged).take (getBits v 0 11)) hnear hs he hip hone
      rw [natsOf_take _ _ (octets_staged s)] at hq
      exact ⟨(macOnly_ftx honly).2, queued_congr hq rfl rfl⟩
    · obtain ⟨hwords, hftx, hq⟩ := fwRoute_asks s.unstaged (getBits v 16 1) (s.rf Reg.ETH_FTX_DST.VALUE) (s.rf Reg.ETH_FTX_PORTS.SRC)
        (s.rf Reg.ETH_FTX_PORTS.DST) ((octetsOf s.staged).take (getBits v 0 11)) hnear hs hmiss
      exact ⟨hwords, hftx, queued_congr hq rfl rfl⟩

end Sys2Proof.Machine
end

section
/-!
PROOFS. The Fobex engine's replies to a peer on a MAC that does not exist: the statements bound no peer's MAC by 2, and MAC 6's address mode
would lie in FSV_REQ_CNT, which the reply itself counts up.
-/

namespace Sys2Proof.Machine
open Sys2Proof.Claims

/-- The register that would hold the address mode of a MAC 6. -/
theorem ipCfg_six : (Reg.ETH_IPCFG.MODE 6).addr = Reg.FSV_REQ_CNT_at := rfl

section
variable (s : State) (r : FReq) (st : FStat) (data : List Nat)

/-- A request counted at 4 leaves MAC 6 without an address mode. -/
theorem rf_mode_six (h : s.reg Reg.FSV_REQ_CNT_at = 3) : (s.incWrap Reg.FSV_REQ_CNT.COUNT).rf (Reg.ETH_IPCFG.MODE 6) = 0 := by
  have hcount : s.rf Reg.FSV_REQ_CNT.COUNT = 3 := by rw [State.rf, show s.reg Reg.FSV_REQ_CNT.COUNT.addr = 3 from h]; rfl
  rw [State.incWrap, hcount, State.rf, ipCfg_six]
  rw [show (s.wf Reg.FSV_REQ_CNT.COUNT (3 + 1)).reg Reg.FSV_REQ_CNT_at = putBits (s.reg Reg.FSV_REQ_CNT_at) 0 32 4 from s.reg_setReg_same _ _, h]
  rfl

theorem State.answer_silent (p : Peer) (op session seq : Nat) (hst : st ≠ .busy) (hmode : s.rf (Reg.ETH_IPCFG.MODE p.mac) = 0) :
    s.answer p op session seq st data = s := by
  rw [State.answer, if_neg hst]
  exact if_pos hmode

/-- With the count at 3, a reply to a peer on MAC 6 is not sent. -/
theorem State.finish_silent (hmac : r.peer.mac = 6) (hst : st ≠ .busy) (h : s.reg Reg.FSV_REQ_CNT_at = 3) : (s.finish r st data).eth = s.eth := by
  have hcount : (s.onFsv (fun x => { x with reqs := x.reqs.erase r })).reg Reg.FSV_REQ_CNT_at = 3 := h
  have heth : (s.onFsv (fun x => { x with reqs := x.reqs.erase r })).eth = s.eth := rfl
  rw [State.finish]
  generalize s.onFsv (fun x => { x with reqs := x.reqs.erase r }) = u at hcount heth
  rw [State.answer_silent _ st data _ _ _ _ hst (by rw [hmac]; exact rf_mode_six u hcount)]
  have heth' : (u.incWrap Reg.FSV_REQ_CNT.COUNT).eth = s.eth := (State.eth_setReg _ _ _).trans heth
  split
  · exact heth'
  · exact heth'

/-- So it is not replied to. -/
theorem not_replied_finish (hmac : r.peer.mac = 6) (hst : st ≠ .busy) (h : s.reg Reg.FSV_REQ_CNT_at = 3) (code : Nat) (bytes : List Nat) :
    ¬ Replied s (s.finish r st data) r code bytes := by
  rintro ⟨⟨f, htxq, -⟩, -⟩
  have hsame := mac_congr (congrArg Eth.macs (s.finish_silent r st data hmac hst h)) r.peer.mac
  rw [hsame] at htxq
  exact absurd (List.self_eq_append_right.1 htxq) (List.cons_ne_nil f [])

end

/-! ## The counterexamples -/

/-- A peer on MAC 6. -/
def farPeer : Peer := ⟨6, 0, 0, 0, 0⟩

/-- A request from it, in session slot 0, with one byte of data. -/
def farRequest (op : Nat) : FReq := ⟨some 0, farPeer, false, op, 0, 0, [0], false⟩

/-- The reset state with that request waiting, its MAC sending, three requests counted, and the window as last seen open. -/
def farState (op : Nat) : State :=
  { (State.reset.setReg Reg.FSV_REQ_CNT_at 3).setMac 6 { Mac.reset with sending := some ⟨0, 0, []⟩ } with
    fsv := { State.reset.fsv with reqs := [farRequest op], upd := none }, par := { State.reset.par with was := 2 } }

section
variable (op : Nat)

theorem reg_farState : (farState op).reg Reg.FSV_REQ_CNT_at = 3 :=
  show (State.reset.setReg Reg.FSV_REQ_CNT_at 3).reg Reg.FSV_REQ_CNT_at = 3 from State.reg_setReg_same _ _ _

theorem waiting_farState : Waiting' (farState op) (farRequest op) op [] := by
  refine ⟨rfl, List.not_mem_nil, rfl, rfl, ?_, ?_⟩
  · have hmac : (farState op).mac 6 = { Mac.reset with sending := some ⟨0, 0, []⟩ } :=
      (State.reset.setReg Reg.FSV_REQ_CNT_at 3).mac_setMac_same 6 _
    show ((farState op).mac 6).sending ≠ none
    rw [hmac]
    exact Option.some_ne_none _
  · show getBits ((farState op).reg Reg.FSV_REQ_CNT_at) 0 2 ≠ 0
    rw [reg_farState]
    decide

end

theorem exec_bye_far : exec .bye (farState 0x02) = .next ((farState 0x02).finish (farRequest 0x02) .badLength []) := rfl

theorem exec_updateData_far : exec .updateData (farState 0x51) = .next ((farState 0x51).finish (farRequest 0x51) .notInState []) := rfl

/-- Refutes O51: a peer's MAC is not bounded. The address mode of a MAC 6 would be bits of FSV_REQ_CNT, which the end of a request counts up
before its reply goes out: in `farState`, where the count is 3, a BYE with data ends with the mode 0 and sends no reply. With the peer's MAC below
2 the clauses name registers of their own. -/
theorem not_fobexRequestsAreAnswered : ¬ Obligations.FobexRequestsAreAnswered := by
  intro h
  obtain ⟨-, hbye, -⟩ := h (farState 0x02) (farRequest 0x02) []
  obtain ⟨t, ht, hreplied⟩ := (hbye (waiting_farState 0x02)).1 (List.cons_ne_nil _ _)
  obtain rfl : (farState 0x02).finish (farRequest 0x02) .badLength [] = t := Host.Outcome.next.inj (exec_bye_far.symm.trans ht)
  exact not_replied_finish _ _ _ _ rfl (by decide) (reg_farState 0x02) _ _ hreplied

/-- Refutes O52: as O51, for an UPDATE_DATA from a peer on MAC 6 with no update begun. -/
theorem not_updatesStreamsAndTimeouts : ¬ Obligations.UpdatesStreamsAndTimeouts := by
  intro h
  obtain ⟨hupd, -⟩ := h
  obtain ⟨-, hdata, -⟩ := hupd (farState 0x51) (farRequest 0x51) [] 0 rfl
  obtain ⟨-, hnone, -⟩ := hdata (waiting_farState 0x51)
  obtain ⟨t, ht, hreplied⟩ := hnone (Nat.le_refl 2) rfl
  obtain rfl : (farState 0x51).finish (farRequest 0x51) .notInState [] = t := Host.Outcome.next.inj (exec_updateData_far.symm.trans ht)
  exact not_replied_finish _ _ _ _ rfl (by decide) (reg_farState 0x51) _ _ hreplied

end Sys2Proof.Machine
end

section
/-!
PROOFS. The converter ports (spec/18): what their operations leave unchanged, and the end of a frame while nothing ends the port.
-/

namespace Sys2Proof.Machine
open Sys2Proof.Claims

/-! ## The DMA engine with no descriptor in hand -/

section
variable {s : State}

theorem State.writeReady_idle {c : Nat} (h : (s.dmaCh c).cur = none) : s.writeReady c = none := by
  have hissues (side : DmaDesc → Nat × Nat) : s.dmaIssues c side = none := by rw [State.dmaIssues, h]; rfl
  rw [State.writeReady]
  dsimp only
  rw [hissues]
  exact ite_self _

theorem State.readReady_idle {c : Nat} (h : (s.dmaCh c).cur = none) : s.readReady c = none := by
  have hissues (side : DmaDesc → Nat × Nat) : s.dmaIssues c side = none := by rw [State.dmaIssues, h]; rfl
  rw [State.readReady, hissues]
  exact ite_self _

/-- With no channel ready none is picked. -/
theorem State.dmaPick_none {last : Nat} {ready : Nat → Bool} (h : ∀ c, c < 16 → ready c = false) : s.dmaPick last ready = none := by
  have horder : ∀ c ∈ (List.range 16).map (fun i => (last + 1 + i) % 16), ready c = false := by
    intro c hc
    obtain ⟨i, -, rfl⟩ := List.mem_map.1 hc
    exact h _ (Nat.mod_lt _ (by decide))
  have hprio : ((List.range 16).map (fun i => (last + 1 + i) % 16)).find? (fun c => s.on (Reg.DMA_CH_CTL.PRIO c) && ready c) = none :=
    List.find?_eq_none.2 (fun c hc => by rw [horder c hc, Bool.and_false]; exact Bool.false_ne_true)
  have hany : ((List.range 16).map (fun i => (last + 1 + i) % 16)).find? ready = none :=
    List.find?_eq_none.2 (fun c hc => by rw [horder c hc]; exact Bool.false_ne_true)
  rw [State.dmaPick]
  rw [hprio, hany]
  rfl

theorem State.dmaServe_idle (h : DmaIdle s) : s.dmaServe = s := by
  have hwrite : s.issueWrite = (false, s) := by
    rw [State.issueWrite, State.dmaPick_none (fun c hc => by rw [State.writeReady_idle (h c hc)]; rfl)]
  have hread : s.issueRead = (false, s) := by
    rw [State.issueRead, State.dmaPick_none (fun c hc => by rw [State.readReady_idle (h c hc)]; rfl)]
  rw [State.dmaServe, dmaFuel, State.dmaEngine]
  rw [hwrite]
  dsimp only
  rw [hread]
  rfl

theorem dmaIdle_congr {t : State} (h : t.dma = s.dma) (hidle : DmaIdle s) : DmaIdle t := by
  intro c hc
  rw [State.dmaCh, h]
  exact hidle c hc

end

/-! ## What an operation on the ports leaves unchanged -/

section
variable {s t : State} {as : List Nat} {es : List (Fin 64)}

theorem portsOnly_refl (s : State) (as : List Nat) : PortsOnly s s as [] := ⟨by rw [List.append_nil], fun _ _ => rfl⟩

theorem portsOnly_regs {u : State} {es' : List (Fin 64)} (h : PortsOnly s t as es) (hu : Regs t u as es') : PortsOnly s u as (es ++ es') := by
  obtain ⟨heq, hregs⟩ := h
  obtain ⟨hueq, huregs⟩ := hu
  have hcvp : u.cvp = t.cvp := by rw [hueq]
  have hcal : u.cal = t.cal := by rw [hueq]
  refine ⟨?_, fun a ha => (huregs a ha).trans (hregs a ha)⟩
  rw [hcvp, hcal, ← List.append_assoc]
  exact hueq.trans (congrArg (fun x : State => { x with io := u.io, net := { x.net with events := x.net.events ++ es' } }) heq)

theorem portsOnly_port (h : PortsOnly s t as es) (m : SMap CvpPort) (c : Option CvpCal) : PortsOnly s { t with cvp := m, cal := c } as es :=
  ⟨congrArg (fun x : State => { x with cvp := m, cal := c }) h.1, h.2⟩

theorem portsOnly_setCvp (h : PortsOnly s t as es) (p : Nat) (v : CvpPort) : PortsOnly s (t.setCvp p v) as es := portsOnly_port h _ _

theorem portsOnly_wf (h : PortsOnly s t as es) (f : Fd) (v : Nat) (hf : f.addr ∈ as) : PortsOnly s (t.wf f v) as es := by
  have hw := portsOnly_regs h ((regs_refl t as).wf f v hf)
  rwa [List.append_nil] at hw

theorem portsOnly_incSat (h : PortsOnly s t as es) (f : Fd) (n : Nat) (hf : f.addr ∈ as) : PortsOnly s (t.incSat f n) as es := portsOnly_wf h f _ hf

theorem portsOnly_incWrap (h : PortsOnly s t as es) (f : Fd) (n : Nat) (hf : f.addr ∈ as) : PortsOnly s (t.incWrap f n) as es := portsOnly_wf h f _ hf

/-- PORT_EVENT raised, its number and enable as they were. -/
theorem portsOnly_portEvent (h : PortsOnly s t as []) (hev : Reg.CVP_EVCFG_at ∉ as) : PortsOnly s t.portEvent as (portEv s) := by
  have hreg := h.2 _ hev
  have he := portsOnly_regs h ((regs_refl t as).raiseIf Reg.CVP_EVCFG.PORT_EVENT Reg.CVP_EVCFG.PORT_EN rfl)
  rw [List.nil_append, List.nil_append, ev_congr (s := s) hreg hreg] at he
  exact he

theorem portsOnly_dmaIdle (h : PortsOnly s t as es) (hidle : DmaIdle s) : DmaIdle t := dmaIdle_congr (congrArg State.dma h.1) hidle

end

section
variable (s : State) (p : Nat) (h : CvpPort) (f : Fd) (v : Nat)

@[simp] theorem State.cvpPort_setCvp_same : (s.setCvp p h).cvpPort p = h := SMap.get_set_same _ _ _ _
theorem State.cvpPort_setCvp_other {q : Nat} (hq : q ≠ p) : (s.setCvp p h).cvpPort q = s.cvpPort q := SMap.get_set_other _ _ _ _ _ _ hq
@[simp] theorem State.cvpPort_wf (q : Nat) : (s.wf f v).cvpPort q = s.cvpPort q := rfl
@[simp] theorem State.cvpPort_incWrap (q n : Nat) : (s.incWrap f n).cvpPort q = s.cvpPort q := rfl
@[simp] theorem State.cvpPort_incSat (q n : Nat) : (s.incSat f n).cvpPort q = s.cvpPort q := rfl
@[simp] theorem State.rf_setCvp : (s.setCvp p h).rf f = s.rf f := rfl
@[simp] theorem State.on_setCvp : (s.setCvp p h).on f = s.on f := rfl
@[simp] theorem State.cvpState_setCvp (q : Nat) : (s.setCvp p h).cvpState q = s.cvpState q := rfl

theorem State.cvp_raiseIf (e en : Fd) : (s.raiseIf e en).cvp = s.cvp := by rw [State.raiseIf_eq]

theorem State.cvpPort_congr {t : State} (ht : t.cvp = s.cvp) : t.cvpPort p = s.cvpPort p := by rw [State.cvpPort, ht, State.cvpPort]

@[simp] theorem State.cvpPort_portEvent : s.portEvent.cvpPort p = s.cvpPort p := State.cvpPort_congr _ _ (s.cvp_raiseIf _ _)
@[simp] theorem State.rf_portEvent : s.portEvent.rf f = s.rf f := s.rf_raiseIf _ _ _
@[simp] theorem State.on_portEvent : s.portEvent.on f = s.on f := s.on_raiseIf _ _ _

end

/-! ## The end of a frame (R446, R455) -/

/-- The coefficients of the registers taken for the next frame. -/
def State.coefficientsTaken (s : State) (p : Nat) : State :=
  s.onCvp p (fun h => { h with force := (List.range 8).map (fun i => s.reg (Reg.CVP_OFS_at p i)) })

section
variable {s u : State} {p : Nat} {as : List Nat} {es : List (Fin 64)}

@[simp] theorem State.cvpPort_coefficientsTaken : (u.coefficientsTaken p).cvpPort p = { u.cvpPort p with
    force := (List.range 8).map (fun i => u.reg (Reg.CVP_OFS_at p i)) } := u.cvpPort_setCvp_same _ _

@[simp] theorem State.rf_coefficientsTaken (f : Fd) : (u.coefficientsTaken p).rf f = u.rf f := rfl
@[simp] theorem State.on_coefficientsTaken (f : Fd) : (u.coefficientsTaken p).on f = u.on f := rfl

theorem portsOnly_coefficientsTaken (h : PortsOnly s u as es) : PortsOnly s (u.coefficientsTaken p) as es := portsOnly_setCvp h _ _

/-- A frame that does not stop the port ends with the coefficients taken. -/
theorem State.frameEnd_goes {period : Nat} (hf : Frames s p period) (hu : PortsOnly s u as es) (hcfg : Reg.CVP_CFG_at p ∉ as)
    (hcpll : Reg.CPLL_CTL_at ∉ as) (hstop : (u.cvpPort p).stopping = false) : u.frameEnd p period = u.coefficientsTaken p := by
  obtain ⟨-, -, hidle, -, hrate⟩ := hf
  have hfollows : u.cvpFollows p = s.cvpFollows p := congrArg (· == 0) (rf_congr (f := Reg.CVP_CFG.MASTER p) (hu.2 _ hcfg))
  have hlimit : u.cvpLimit = s.cvpLimit :=
    congrArg (fun n : Nat => if n = 0 then 960 else 1024) (rf_congr (f := Reg.CPLL_CTL.FAMILY) (hu.2 _ hcpll))
  have hslow : ¬ (u.cvpFollows p = true ∧ period < u.cvpLimit) := by
    rw [hfollows, hlimit]
    exact fun ⟨h, hlt⟩ => absurd (hrate h) (Nat.not_le_of_lt hlt)
  have hgo : ((u.coefficientsTaken p).cvpPort p).stopping = false := by rw [State.cvpPort_coefficientsTaken]; exact hstop
  have hserved := State.dmaServe_idle (portsOnly_dmaIdle (portsOnly_coefficientsTaken (p := p) hu) hidle)
  exact (if_neg hslow).trans ((if_neg (fun e => Bool.false_ne_true (hgo.symm.trans e))).trans hserved)

end

end Sys2Proof.Machine
end

section
/-!
PROOFS. Frames of the converter ports (R444 to R450, R455, R462): the bytes a frame becomes, the slots taken from a FIFO, and what ends a port.
-/

namespace Sys2Proof.Machine
open Sys2Proof.Claims

/-! ## Bytes of a slot (Table cvp-2) -/

theorem bytesOf_eq (v n : Nat) : bytesOf v n = (List.range n).map (fun k => BitVec.ofNat 8 (v / 256 ^ k)) := by
  induction n generalizing v with
  | zero => rfl
  | succ n ih =>
    rw [bytesOf, ih, List.range_succ_eq_map, List.map_cons, List.map_map, pow_zero, Nat.div_one]
    refine congrArg (_ :: ·) (List.map_congr_left (fun k _ => ?_))
    rw [Function.comp, Nat.div_div_eq_div_mul, Nat.succ_eq_add_one, pow_succ']

theorem slotBytes_eq_slot {bits : Nat} (hbits : 0 < bits) (size : Nat) (v ofs : Word) : slotBytes bits size v ofs = slot bits size v ofs := by
  have hofs : sInt 32 ofs.toNat = ofs.toInt := by rw [sInt_eq_lint (by decide), lint, BitVec.ofNat_toNat, BitVec.setWidth_eq]
  rw [slotBytes, bytesOf_eq, rawSample, sInt_eq_lint hbits, hofs, satS_eq_lsat]
  rfl

theorem frameBytes_eq (bits size : Nat) (vs ofs : List Word) (i n : Nat) :
    frameBytes bits size vs ofs i n = (List.range' i n).flatMap (fun j => slotBytes bits size (vs.getD j 0) (ofs.getD j 0)) := by
  induction n generalizing i with
  | zero => rfl
  | succ n ih => rw [frameBytes, ih, List.range'_succ, List.flatMap_cons]

/-- Bits taken the most significant first. -/
theorem foldl_bits (b : Nat → Bool) (w : Nat) : (List.range w).foldl (fun a k => 2 * a + b2n (b k)) 0 =
    ((List.range w).map (fun k => if b k then 2 ^ (w - 1 - k) else 0)).sum := by
  induction w with
  | zero => rfl
  | succ w ih =>
    have hdouble : (List.range w).map (fun k => if b k then 2 ^ (w + 1 - 1 - k) else 0) =
        (List.range w).map (fun k => 2 * (if b k then 2 ^ (w - 1 - k) else 0)) := by
      refine List.map_congr_left (fun k hk => ?_)
      have hexp : w + 1 - 1 - k = w - 1 - k + 1 := by have := List.mem_range.1 hk; omega
      rw [hexp, pow_succ', mul_ite, mul_zero]
    rw [List.range_succ, List.foldl_append, List.map_append, List.sum_append, hdouble, List.sum_map_mul_left, ih]
    simp [b2n]

section
variable (s : State) (p : Nat)

theorem State.cvpBits_range : 0 < s.cvpBits p ∧ s.cvpBits p ≤ 32 := by
  rw [State.cvpBits]
  generalize s.rf (Reg.CVP_CFG.WIDTH p) = n
  match n with
  | 0 | 1 | 2 | 3 => decide
  | n + 4 => exact ⟨show 0 < 32 by decide, Nat.le_refl 32⟩

theorem State.slotRaw_eq_rawOf (line : List (Bool × Bool)) (i : Nat) : s.slotRaw p line i = rawOf s p line i :=
  congrArg (BitVec.ofNat 32) (foldl_bits (fun k => s.sdBit p line (s.cvpBits p * i + k)) (s.cvpBits p))

theorem State.frameBytes_frameRaw (line : List (Bool × Bool)) (ofs : List Word) :
    frameBytes (s.cvpBits p) (s.cvpSize p) (s.frameRaw p line) ofs 0 (s.cvpSlots p) =
      (List.range (s.cvpSlots p)).flatMap (fun i => Claims.slot (s.cvpBits p) (s.cvpSize p) (rawOf s p line i) (ofs.getD i 0)) := by
  rw [frameBytes_eq, ← List.range_eq_range']
  refine List.flatMap_congr (fun i hi => ?_)
  have hslot : (s.frameRaw p line).getD i 0 = s.slotRaw p line i := by
    rw [State.frameRaw, List.getD_eq_getElem _ _ (by rw [List.length_map, List.length_range]; exact List.mem_range.1 hi), List.getElem_map,
      List.getElem_range]
  rw [hslot, s.slotRaw_eq_rawOf, slotBytes_eq_slot (s.cvpBits_range p).1]

end

/-! ## Slots taken from a FIFO -/

theorem ofBytes_map_toNat (bs : List Byte) : ofBytes (bs.map BitVec.toNat) = bs.foldr (fun b acc => b.toNat + 256 * acc) 0 := by
  induction bs with
  | nil => rfl
  | cons b bs ih => rw [List.map_cons, ofBytes, ih, List.foldr_cons]

theorem slotsOut_eq (size : Nat) (bs : List Byte) (n : Nat) :
    slotsOut size bs n = (List.range n).map (fun i => BitVec.ofNat 32 (ofBytes (((bs.drop (i * size)).take size).map BitVec.toNat))) := by
  induction n generalizing bs with
  | zero => rfl
  | succ n ih =>
    rw [slotsOut, ih, List.range_succ_eq_map, List.map_cons, List.map_map, Nat.zero_mul, List.drop_zero, ofBytes_map_toNat]
    refine congrArg (_ :: ·) (List.map_congr_left (fun i _ => ?_))
    rw [Function.comp, List.drop_drop, Nat.succ_mul, Nat.add_comm size]

/-- The slots of a frame as they go out, or zeros while muted. -/
theorem State.slots_sent (s : State) (p : Nat) (bs : List Byte) :
    (if s.zeroed p then List.replicate (s.cvpSlots p) 0
      else (slotsOut (s.cvpSize p) bs (s.cvpSlots p)).map (fun w => BitVec.ofNat 32 (w.toNat % 2 ^ s.cvpBits p))) =
    (List.range (s.cvpSlots p)).map (fun i => if s.zeroed p then (0 : Word) else
      BitVec.ofNat 32 (ofBytes (((bs.drop (i * s.cvpSize p)).take (s.cvpSize p)).map BitVec.toNat) % 2 ^ s.cvpBits p)) := by
  cases s.zeroed p with
  | true => simp
  | false =>
    simp only [Bool.false_eq_true, if_false]
    rw [slotsOut_eq, List.map_map]
    refine List.map_congr_left (fun i _ => ?_)
    rw [Function.comp, BitVec.toNat_ofNat, Nat.mod_mod_of_dvd _ (Nat.pow_dvd_pow 2 (s.cvpBits_range p).2)]

/-! ## What is counted, and shown with an event (R449, R450) -/

/-- A frame that goes wrong: counted, its flag set, PORT_EVENT. -/
def State.mishap (s : State) (cnt flag : Fd) : State := ((s.incSat cnt).wf flag 1).portEvent

section
variable {s u : State} {cnt flag : Fd}

theorem mishap_counts (h : PortsOnly s u [] []) (hne : cnt.addr ≠ flag.addr) (hcnt : cnt.lo + cnt.width ≤ 32) (hflag : flag.lo + 1 ≤ 32)
    (hone : flag.width = 1) (hev : Reg.CVP_EVCFG_at ∉ [cnt.addr, flag.addr]) :
    PortsOnly s (u.mishap cnt flag) [cnt.addr, flag.addr] (portEv s) ∧ Counted s (u.mishap cnt flag) cnt ∧ (u.mishap cnt flag).on flag = true ∧
      ∀ q, (u.mishap cnt flag).cvpPort q = u.cvpPort q := by
  have h' : PortsOnly s u [cnt.addr, flag.addr] [] := ⟨h.1, fun a _ => h.2 a List.not_mem_nil⟩
  refine ⟨portsOnly_portEvent (portsOnly_wf (portsOnly_incSat h' cnt 1 (.head _)) flag 1 (.tail _ (.head _))) hev, ?_, ?_, fun q => ?_⟩
  · rw [Counted, State.mishap, State.rf_portEvent, State.rf_wf_other _ _ _ _ (.inl hne), State.rf_incSat _ _ _ hcnt,
      rf_congr (h.2 _ List.not_mem_nil)]
  · rw [State.mishap, State.on_portEvent, State.on_wf_same _ _ _ (by rw [hone]; exact hflag), hone]
    rfl
  · rw [State.mishap, State.cvpPort_portEvent]
    rfl

end

/-! ## Input frames (R444, R449, R450) -/

section
variable {s : State} {p : Fin 8} {line : List (Bool × Bool)} {bad : Bool} {period : Nat}

theorem State.calFrame_none (h : s.cal = none) (n : Nat) (vs : List Word) : s.calFrame n vs = s := by rw [State.calFrame, h]
theorem State.calBad_none (h : s.cal = none) (n : Nat) : s.calBad n = s := by rw [State.calBad, h]

/-- A port with a whole input frame in its FIFO. -/
def State.frameTaken (s : State) (p : Nat) (line : List (Bool × Bool)) : CvpPort :=
  let bs := frameBytes (s.cvpBits p) (s.cvpSize p) (s.frameRaw p line) (s.cvpPort p).force 0 (s.cvpSlots p)
  { s.cvpPort p with fifo := (s.cvpPort p).fifo ++ bs }

theorem State.takeFrame_room {s : State} {p : Nat} {line : List (Bool × Bool)} (h : (s.cvpPort p).fifo.length + (frameBytes (s.cvpBits p)
    (s.cvpSize p) (s.frameRaw p line) (s.cvpPort p).force 0 (s.cvpSlots p)).length ≤ 512) :
    s.takeFrame p (s.frameRaw p line) = (s.setCvp p (s.frameTaken p line)).incWrap (Reg.CVP_FRAMES.COUNT p) := if_pos h

/-- A frame of a running input port. -/
theorem exec_inputFrame (hrun : s.cvpState p.val = 1) (hin : s.cvpOut p.val = false) : exec (.inputFrame p line bad period) s =
    .next ((if bad && s.cvpFollows p.val then s.frameError p.val
      else (s.calFrame p.val (s.frameRaw p.val line)).takeFrame p.val (s.frameRaw p.val line)).frameEnd p.val period) :=
  congrArg Host.Outcome.next (if_pos (by rw [hrun, hin]; rfl))

/-- A frame that ends no port ends with the coefficients taken. -/
theorem inputFrame_ends {u : State} {as : List Nat} {es : List (Fin 64)} (hf : Frames s p.val period) (hin : s.cvpOut p.val = false)
    (hu : (if bad && s.cvpFollows p.val then s.frameError p.val
      else (s.calFrame p.val (s.frameRaw p.val line)).takeFrame p.val (s.frameRaw p.val line)) = u)
    (hports : PortsOnly s u as es) (hcfg : Reg.CVP_CFG_at p.val ∉ as) (hcpll : Reg.CPLL_CTL_at ∉ as)
    (hstop : (u.cvpPort p.val).stopping = (s.cvpPort p.val).stopping) :
    exec (.inputFrame p line bad period) s = .next (u.coefficientsTaken p.val) := by
  have hgo : (s.cvpPort p.val).stopping = false := hf.2.2.2.1
  rw [exec_inputFrame hf.1 hin, hu, State.frameEnd_goes hf hports hcfg hcpll (hstop.trans hgo)]

section
variable (hf : Frames s p.val period) (hin : s.cvpOut p.val = false)
include hf hin

theorem inputFrame_taken (hgood : ¬ (bad = true ∧ s.cvpFollows p.val = true))
    (hroom : (s.cvpPort p.val).fifo.length + ((List.range (s.cvpSlots p.val)).flatMap (fun i =>
      slot (s.cvpBits p.val) (s.cvpSize p.val) (rawOf s p.val line i) ((s.cvpPort p.val).force.getD i 0))).length ≤ 512) :
    Does (.inputFrame p line bad period) s (fun t => PortsOnly s t [Reg.CVP_FRAMES_at p.val] [] ∧
      (t.cvpPort p.val).fifo = (s.cvpPort p.val).fifo ++ (List.range (s.cvpSlots p.val)).flatMap (fun i =>
        slot (s.cvpBits p.val) (s.cvpSize p.val) (rawOf s p.val line i) ((s.cvpPort p.val).force.getD i 0)) ∧
      t.rf (Reg.CVP_FRAMES.COUNT p.val) = (s.rf (Reg.CVP_FRAMES.COUNT p.val) + 1) % 2 ^ (Reg.CVP_FRAMES.COUNT p.val).width) := by
  rw [← State.frameBytes_frameRaw] at hroom ⊢
  have hu : (if bad && s.cvpFollows p.val then s.frameError p.val
      else (s.calFrame p.val (s.frameRaw p.val line)).takeFrame p.val (s.frameRaw p.val line)) =
      (s.setCvp p.val (s.frameTaken p.val line)).incWrap (Reg.CVP_FRAMES.COUNT p.val) := by
    rw [if_neg (fun h => hgood (Bool.and_eq_true_iff.1 h)), State.calFrame_none hf.2.1, State.takeFrame_room hroom]
  have hports : PortsOnly s ((s.setCvp p.val (s.frameTaken p.val line)).incWrap (Reg.CVP_FRAMES.COUNT p.val)) [Reg.CVP_FRAMES_at p.val] [] :=
    portsOnly_incWrap (portsOnly_setCvp (portsOnly_refl s _) _ _) _ 1 (.head _)
  have hport : ((s.setCvp p.val (s.frameTaken p.val line)).incWrap (Reg.CVP_FRAMES.COUNT p.val)).cvpPort p.val = s.frameTaken p.val line := by
    rw [State.cvpPort_incWrap, State.cvpPort_setCvp_same]
  have haddr := (by decide : ∀ p : Fin 8, Reg.CVP_CFG_at p.val ∉ [Reg.CVP_FRAMES_at p.val] ∧ Reg.CPLL_CTL_at ∉ [Reg.CVP_FRAMES_at p.val]) p
  refine ⟨_, inputFrame_ends hf hin hu hports haddr.1 haddr.2 (by rw [hport]; rfl), portsOnly_coefficientsTaken hports, ?_, ?_⟩
  · rw [State.cvpPort_coefficientsTaken, hport]
    rfl
  · rw [State.rf_coefficientsTaken]
    exact (s.setCvp p.val (s.frameTaken p.val line)).rf_incWrap _ 1 (show 0 + 32 ≤ 32 by decide)

/-- A frame that goes wrong leaves the FIFO as it was. -/
theorem inputFrame_mishap {cnt flag : Fd} (hu : (if bad && s.cvpFollows p.val then s.frameError p.val
      else (s.calFrame p.val (s.frameRaw p.val line)).takeFrame p.val (s.frameRaw p.val line)) = s.mishap cnt flag)
    (hne : cnt.addr ≠ flag.addr) (hcnt : cnt.lo + cnt.width ≤ 32) (hflag : flag.lo + 1 ≤ 32) (hone : flag.width = 1)
    (hapart : ∀ a ∈ [Reg.CVP_EVCFG_at, Reg.CVP_CFG_at p.val, Reg.CPLL_CTL_at], a ∉ [cnt.addr, flag.addr]) :
    Does (.inputFrame p line bad period) s (fun t => PortsOnly s t [cnt.addr, flag.addr] (portEv s) ∧
      (t.cvpPort p.val).fifo = (s.cvpPort p.val).fifo ∧ Counted s t cnt ∧ t.on flag = true) := by
  obtain ⟨hports, hcount, hon, hport⟩ := mishap_counts (portsOnly_refl s []) hne hcnt hflag hone (hapart _ (.head _))
  refine ⟨_, inputFrame_ends hf hin hu hports (hapart _ (by simp)) (hapart _ (by simp)) (by rw [hport]), portsOnly_coefficientsTaken hports, ?_,
    hcount, hon⟩
  rw [State.cvpPort_coefficientsTaken, hport]

end

end

end Sys2Proof.Machine
end

section
/-!
PROOFS. Output frames and stops of the converter ports (R446 to R450, R462).
-/

namespace Sys2Proof.Machine
open Sys2Proof.Claims

theorem portsOnly_trans {s t u : State} {as : List Nat} {es es' : List (Fin 64)} (h : PortsOnly s t as es) (h' : PortsOnly t u as es') :
    PortsOnly s u as (es ++ es') := by
  obtain ⟨heq, hregs⟩ := h
  obtain ⟨heq', hregs'⟩ := h'
  refine ⟨?_, fun a ha => (hregs' a ha).trans (hregs a ha)⟩
  rw [← List.append_assoc]
  exact heq'.trans (congrArg (fun x : State => { x with
    io := u.io, cvp := u.cvp, cal := u.cal, net := { x.net with events := x.net.events ++ es' } }) heq)

theorem portsOnly_mono {s t : State} {as bs : List Nat} {es : List (Fin 64)} (h : PortsOnly s t as es) (hsub : ∀ a ∈ as, a ∈ bs) :
    PortsOnly s t bs es := ⟨h.1, fun a ha => h.2 a (fun hm => ha (hsub a hm))⟩

/-- What R449 counts and flags lies apart from the ports' settings. -/
theorem mishapAddrs : ∀ p : Fin 8, ∀ a ∈ [Reg.CVP_EVCFG_at, Reg.CVP_CFG_at p.val, Reg.CPLL_CTL_at],
    a ∉ [Reg.CVP_OVR_CNT_at p.val, Reg.CVP_STAT_at p.val] ∧ a ∉ [Reg.CVP_UND_CNT_at p.val, Reg.CVP_STAT_at p.val] ∧
      a ∉ [Reg.CVP_FERR_CNT_at p.val, Reg.CVP_STAT_at p.val] := by decide

/-- The counts lie in registers of their own. -/
theorem countAddrs : ∀ p : Fin 8, Reg.CVP_OVR_CNT_at p.val ≠ Reg.CVP_STAT_at p.val ∧ Reg.CVP_UND_CNT_at p.val ≠ Reg.CVP_STAT_at p.val ∧
    Reg.CVP_FERR_CNT_at p.val ≠ Reg.CVP_STAT_at p.val ∧ Reg.CVP_CFG_at p.val ∉ [Reg.CVP_FRAMES_at p.val] ∧
    Reg.CPLL_CTL_at ∉ [Reg.CVP_FRAMES_at p.val] := by decide

section
variable {s : State} {p : Fin 8} {line : List (Bool × Bool)} {bad : Bool} {period : Nat}

/-! ## Input frames dropped -/

theorem State.takeFrame_full {n : Nat} (h : 512 < (s.cvpPort n).fifo.length + (frameBytes (s.cvpBits n) (s.cvpSize n) (s.frameRaw n line)
    (s.cvpPort n).force 0 (s.cvpSlots n)).length) :
    s.takeFrame n (s.frameRaw n line) = s.mishap (Reg.CVP_OVR_CNT.COUNT n) (Reg.CVP_STAT.OVERRUN n) := if_neg (Nat.not_le_of_lt h)

theorem inputFrame_overrun (hf : Frames s p.val period) (hin : s.cvpOut p.val = false) (hgood : ¬ (bad = true ∧ s.cvpFollows p.val = true))
    (hfull : 512 < (s.cvpPort p.val).fifo.length + ((List.range (s.cvpSlots p.val)).flatMap (fun i =>
      slot (s.cvpBits p.val) (s.cvpSize p.val) (rawOf s p.val line i) ((s.cvpPort p.val).force.getD i 0))).length) :
    Does (.inputFrame p line bad period) s (fun t => PortsOnly s t [Reg.CVP_OVR_CNT_at p.val, Reg.CVP_STAT_at p.val] (portEv s) ∧
      (t.cvpPort p.val).fifo = (s.cvpPort p.val).fifo ∧ Counted s t (Reg.CVP_OVR_CNT.COUNT p.val) ∧ t.on (Reg.CVP_STAT.OVERRUN p.val) = true) := by
  rw [← State.frameBytes_frameRaw] at hfull
  refine inputFrame_mishap hf hin (cnt := Reg.CVP_OVR_CNT.COUNT p.val) (flag := Reg.CVP_STAT.OVERRUN p.val) ?_ (countAddrs p).1
    (show 0 + 32 ≤ 32 by decide) (show 4 + 1 ≤ 32 by decide) rfl (fun a ha => (mishapAddrs p a ha).1)
  rw [if_neg (fun h => hgood (Bool.and_eq_true_iff.1 h)), State.calFrame_none hf.2.1, State.takeFrame_full hfull]

theorem State.frameError_none (hcal : s.cal = none) (n : Nat) :
    s.frameError n = s.mishap (Reg.CVP_FERR_CNT.COUNT n) (Reg.CVP_STAT.FRAME_ERR n) := by
  rw [State.frameError, State.calBad_none hcal, State.mishap]

theorem inputFrame_lost (hf : Frames s p.val period) (hin : s.cvpOut p.val = false) (hlost : bad = true ∧ s.cvpFollows p.val = true) :
    Does (.inputFrame p line bad period) s (fun t => PortsOnly s t [Reg.CVP_FERR_CNT_at p.val, Reg.CVP_STAT_at p.val] (portEv s) ∧
      (t.cvpPort p.val).fifo = (s.cvpPort p.val).fifo ∧ Counted s t (Reg.CVP_FERR_CNT.COUNT p.val) ∧ t.on (Reg.CVP_STAT.FRAME_ERR p.val) = true) := by
  refine inputFrame_mishap hf hin (cnt := Reg.CVP_FERR_CNT.COUNT p.val) (flag := Reg.CVP_STAT.FRAME_ERR p.val) ?_ (countAddrs p).2.2.1
    (show 0 + 32 ≤ 32 by decide) (show 6 + 1 ≤ 32 by decide) rfl (fun a ha => (mishapAddrs p a ha).2.2)
  rw [if_pos (Bool.and_eq_true_iff.2 hlost), State.frameError_none hf.2.1]

/-! ## Output frames -/

/-- A port with a frame taken from its FIFO and sent. -/
def State.frameGiven (s : State) (p : Nat) : CvpPort :=
  { s.cvpPort p with
    fifo := (s.cvpPort p).fifo.drop (s.cvpSlots p * s.cvpSize p),
    tx := if s.zeroed p then List.replicate (s.cvpSlots p) 0
      else (slotsOut (s.cvpSize p) (s.cvpPort p).fifo (s.cvpSlots p)).map (fun w => BitVec.ofNat 32 (w.toNat % 2 ^ s.cvpBits p)) }

theorem State.giveFrame_whole {n : Nat} (h : s.cvpSlots n * s.cvpSize n ≤ (s.cvpPort n).fifo.length) :
    s.giveFrame n = (s.setCvp n (s.frameGiven n)).incWrap (Reg.CVP_FRAMES.COUNT n) := if_pos h

theorem State.giveFrame_short {n : Nat} (h : (s.cvpPort n).fifo.length < s.cvpSlots n * s.cvpSize n) :
    s.giveFrame n = (s.sendZeros n).mishap (Reg.CVP_UND_CNT.COUNT n) (Reg.CVP_STAT.UNDERRUN n) := if_neg (Nat.not_le_of_lt h)

@[simp] theorem State.cvpPort_sendZeros (n : Nat) : (s.sendZeros n).cvpPort n = { s.cvpPort n with tx := List.replicate (s.cvpSlots n) 0 } :=
  s.cvpPort_setCvp_same _ _

/-- A frame of a running output port. -/
theorem exec_outputFrame (hrun : s.cvpState p.val = 1) (hout : s.cvpOut p.val = true) : exec (.outputFrame p bad period) s =
    .next ((if (s.cvpPort p.val).stopping then s else if bad && s.cvpFollows p.val then (s.sendZeros p.val).frameError p.val
      else s.giveFrame p.val).frameEnd p.val period) :=
  congrArg Host.Outcome.next (if_pos (by rw [hrun, hout]; rfl))

/-- A frame whole in time that ends no port ends with the coefficients taken. -/
theorem outputFrame_ends {u : State} {as : List Nat} {es : List (Fin 64)} (hf : Frames s p.val period) (hout : s.cvpOut p.val = true)
    (hgood : ¬ (bad = true ∧ s.cvpFollows p.val = true)) (hu : s.giveFrame p.val = u)
    (hports : PortsOnly s u as es) (hcfg : Reg.CVP_CFG_at p.val ∉ as) (hcpll : Reg.CPLL_CTL_at ∉ as)
    (hstop : (u.cvpPort p.val).stopping = (s.cvpPort p.val).stopping) :
    exec (.outputFrame p bad period) s = .next (u.coefficientsTaken p.val) := by
  have hgo : (s.cvpPort p.val).stopping = false := hf.2.2.2.1
  rw [exec_outputFrame hf.1 hout, hgo, if_neg Bool.false_ne_true, if_neg (fun h => hgood (Bool.and_eq_true_iff.1 h)), hu,
    State.frameEnd_goes hf hports hcfg hcpll (hstop.trans hgo)]

theorem outputFrame_given (hf : Frames s p.val period) (hout : s.cvpOut p.val = true) (hgood : ¬ (bad = true ∧ s.cvpFollows p.val = true))
    (hwhole : s.cvpSlots p.val * s.cvpSize p.val ≤ (s.cvpPort p.val).fifo.length) :
    Does (.outputFrame p bad period) s (fun t => PortsOnly s t [Reg.CVP_FRAMES_at p.val] [] ∧
      (t.cvpPort p.val).fifo = (s.cvpPort p.val).fifo.drop (s.cvpSlots p.val * s.cvpSize p.val) ∧
      (t.cvpPort p.val).tx = (List.range (s.cvpSlots p.val)).map (fun i => if s.zeroed p.val then 0 else
        BitVec.ofNat 32 (ofBytes ((((s.cvpPort p.val).fifo.drop (i * s.cvpSize p.val)).take (s.cvpSize p.val)).map BitVec.toNat) % 2 ^ s.cvpBits p.val))) := by
  have hports : PortsOnly s ((s.setCvp p.val (s.frameGiven p.val)).incWrap (Reg.CVP_FRAMES.COUNT p.val)) [Reg.CVP_FRAMES_at p.val] [] :=
    portsOnly_incWrap (portsOnly_setCvp (portsOnly_refl s _) _ _) _ 1 (.head _)
  have hport : ((s.setCvp p.val (s.frameGiven p.val)).incWrap (Reg.CVP_FRAMES.COUNT p.val)).cvpPort p.val = s.frameGiven p.val := by
    rw [State.cvpPort_incWrap, State.cvpPort_setCvp_same]
  obtain ⟨-, -, -, hcfg, hcpll⟩ := countAddrs p
  refine ⟨_, outputFrame_ends hf hout hgood (State.giveFrame_whole hwhole) hports hcfg hcpll (by rw [hport]; rfl),
    portsOnly_coefficientsTaken hports, ?_, ?_⟩
  · rw [State.cvpPort_coefficientsTaken, hport]
    rfl
  · rw [State.cvpPort_coefficientsTaken, hport]
    exact s.slots_sent p.val _

theorem outputFrame_underrun (hf : Frames s p.val period) (hout : s.cvpOut p.val = true) (hgood : ¬ (bad = true ∧ s.cvpFollows p.val = true))
    (hshort : (s.cvpPort p.val).fifo.length < s.cvpSlots p.val * s.cvpSize p.val) :
    Does (.outputFrame p bad period) s (fun t => PortsOnly s t [Reg.CVP_UND_CNT_at p.val, Reg.CVP_STAT_at p.val] (portEv s) ∧
      (t.cvpPort p.val).fifo = (s.cvpPort p.val).fifo ∧ (t.cvpPort p.val).tx = List.replicate (s.cvpSlots p.val) 0 ∧
      Counted s t (Reg.CVP_UND_CNT.COUNT p.val) ∧ t.on (Reg.CVP_STAT.UNDERRUN p.val) = true) := by
  have hzeros : PortsOnly s (s.sendZeros p.val) [] [] := portsOnly_setCvp (portsOnly_refl s _) _ _
  have hapart := mishapAddrs p
  obtain ⟨hports, hcount, hon, hport⟩ := mishap_counts (cnt := Reg.CVP_UND_CNT.COUNT p.val) (flag := Reg.CVP_STAT.UNDERRUN p.val) hzeros
    (countAddrs p).2.1 (show 0 + 32 ≤ 32 by decide) (show 5 + 1 ≤ 32 by decide) rfl (hapart _ (.head _)).2.1
  have hgive := State.giveFrame_short hshort
  generalize (s.sendZeros p.val).mishap (Reg.CVP_UND_CNT.COUNT p.val) (Reg.CVP_STAT.UNDERRUN p.val) = u at hports hcount hon hport hgive
  refine ⟨_, outputFrame_ends hf hout hgood hgive hports (hapart _ (by simp)).2.1 (hapart _ (by simp)).2.1
    (by rw [hport, State.cvpPort_sendZeros]), portsOnly_coefficientsTaken hports, ?_, ?_, ?_, (State.on_coefficientsTaken _).trans hon⟩
  · rw [State.cvpPort_coefficientsTaken, hport, State.cvpPort_sendZeros]
  · rw [State.cvpPort_coefficientsTaken, hport, State.cvpPort_sendZeros]
  · rw [Counted, State.rf_coefficientsTaken]
    exact hcount

end

/-! ## A port stopped (R448, R450) -/

section
variable (s : State) (p cause : Nat)

/-- The FIFO of a port that stops: an output's is emptied, an input's last word padded. -/
def State.fifoClosed : State :=
  if s.cvpOut p then s.setCvp p { s.cvpPort p with fifo := [], stopping := false }
  else
    let short := (8 - (s.cvpPort p).fifo.length % 8) % 8
    (if short = 0 then s else s.wf (Reg.CVP_STAT.PAD p) 1).setCvp p
      { s.cvpPort p with fifo := (s.cvpPort p).fifo ++ List.replicate short 0, stopping := false }

theorem State.stopPort_eq : s.stopPort p cause =
    (if cause = 0 then (((s.wf (Reg.CVP_STAT.STATE p) 2).wf (Reg.CVP_STAT.STOP_CAUSE p) cause).fifoClosed p).abortCal p
      else ((((s.wf (Reg.CVP_STAT.STATE p) 2).wf (Reg.CVP_STAT.STOP_CAUSE p) cause).fifoClosed p).abortCal p).portEvent).dmaServe := rfl

theorem State.abortCal_none (h : s.cal = none) : s.abortCal p = s := by
  have hshort : s.calShort p = false := by rw [State.calShort, h]; exact Bool.and_false _
  rw [State.abortCal, hshort]
  rfl

theorem portsOnly_fifoClosed {u : State} {as : List Nat} {es : List (Fin 64)} (h : PortsOnly u s as es) (hp : Reg.CVP_STAT_at p ∈ as) :
    PortsOnly u (s.fifoClosed p) as es := by
  unfold State.fifoClosed
  dsimp only
  split
  · exact portsOnly_setCvp h _ _
  · split
    · exact portsOnly_setCvp h _ _
    · exact portsOnly_setCvp (portsOnly_wf h (Reg.CVP_STAT.PAD p) 1 hp) _ _

/-- Padding is shown in a bit of its own. -/
theorem State.rf_fifoClosed (f : Fd) (h : f.lo + f.width ≤ 7) : (s.fifoClosed p).rf f = s.rf f := by
  unfold State.fifoClosed
  dsimp only
  split
  · rfl
  · split
    · rfl
    · exact s.rf_wf_other _ _ _ (.inr (.inl h))

theorem State.fifo_fifoClosed (h : s.cvpOut p = true) : ((s.fifoClosed p).cvpPort p).fifo = [] := by
  rw [State.fifoClosed, if_pos h, State.cvpPort_setCvp_same]

theorem State.cal_fifoClosed : (s.fifoClosed p).cal = s.cal := by
  unfold State.fifoClosed
  dsimp only
  split
  · rfl
  · split <;> rfl

theorem stopPort_stops (hcal : s.cal = none) (hidle : DmaIdle s) (hcause : cause < 4) (hapart : Reg.CVP_STAT_at p ≠ Reg.CVP_CFG_at p)
    (hev : Reg.CVP_STAT_at p ≠ Reg.CVP_EVCFG_at) :
    PortsOnly s (s.stopPort p cause) [Reg.CVP_STAT_at p] (if cause = 0 then [] else portEv s) ∧ (s.stopPort p cause).cvpState p = 2 ∧
      (s.stopPort p cause).rf (Reg.CVP_STAT.STOP_CAUSE p) = cause ∧ (s.cvpOut p = true → ((s.stopPort p cause).cvpPort p).fifo = []) := by
  generalize hu : (s.wf (Reg.CVP_STAT.STATE p) 2).wf (Reg.CVP_STAT.STOP_CAUSE p) cause = u
  have hports : PortsOnly s u [Reg.CVP_STAT_at p] [] :=
    hu ▸ portsOnly_wf (portsOnly_wf (portsOnly_refl s _) (Reg.CVP_STAT.STATE p) 2 (.head _)) (Reg.CVP_STAT.STOP_CAUSE p) cause (.head _)
  have hstate : u.rf (Reg.CVP_STAT.STATE p) = 2 := by
    rw [← hu, State.rf_wf_other _ _ _ _ (.inr (.inl (show 0 + 2 ≤ 2 by decide))), State.rf_wf_same _ _ _ (show 0 + 2 ≤ 32 by decide)]
    rfl
  have hwhy : u.rf (Reg.CVP_STAT.STOP_CAUSE p) = cause := by
    rw [← hu, State.rf_wf_same _ _ _ (show 2 + 2 ≤ 32 by decide)]
    exact Nat.mod_eq_of_lt hcause
  have hcalu : u.cal = none := by rw [← hu]; exact hcal
  have hout : u.cvpOut p = s.cvpOut p := congrArg (· == 1) (rf_congr (f := Reg.CVP_CFG.DIR p) (hports.2 _ (fun h => hapart (List.mem_singleton.1 h).symm)))
  have hclosed := portsOnly_fifoClosed u p hports (.head _)
  have hclosedState := (u.rf_fifoClosed p (Reg.CVP_STAT.STATE p) (show 0 + 2 ≤ 7 by decide)).trans hstate
  have hclosedWhy := (u.rf_fifoClosed p (Reg.CVP_STAT.STOP_CAUSE p) (show 2 + 2 ≤ 7 by decide)).trans hwhy
  rw [State.stopPort_eq, hu, State.abortCal_none _ _ ((u.cal_fifoClosed p).trans hcalu)]
  split
  · rw [State.dmaServe_idle (portsOnly_dmaIdle hclosed hidle)]
    exact ⟨hclosed, hclosedState, hclosedWhy, fun h => u.fifo_fifoClosed p (hout.trans h)⟩
  · have hevent := portsOnly_portEvent hclosed (fun h => hev (List.mem_singleton.1 h).symm)
    rw [State.dmaServe_idle (portsOnly_dmaIdle hevent hidle)]
    refine ⟨hevent, (State.rf_portEvent _ _).trans hclosedState, (State.rf_portEvent _ _).trans hclosedWhy, fun h => ?_⟩
    rw [State.cvpPort_portEvent]
    exact u.fifo_fifoClosed p (hout.trans h)

end

section
variable {s : State} {p : Fin 8} {bad : Bool} {period : Nat}

theorem statAddrs : ∀ p : Fin 8, Reg.CVP_STAT_at p.val ≠ Reg.CVP_CFG_at p.val ∧ Reg.CVP_STAT_at p.val ≠ Reg.CVP_EVCFG_at := by decide

/-- A stop asked for takes effect at the boundary before the next frame. -/
theorem outputFrame_stops (hrun : s.cvpState p.val = 1) (hout : s.cvpOut p.val = true) (hstop : (s.cvpPort p.val).stopping = true)
    (hleads : s.cvpFollows p.val = false) (hcal : s.cal = none) (hidle : DmaIdle s) :
    Does (.outputFrame p bad period) s (fun t => PortsOnly s t [Reg.CVP_STAT_at p.val] [] ∧ t.cvpState p.val = 2 ∧
      t.rf (Reg.CVP_STAT.STOP_CAUSE p.val) = 0 ∧ (t.cvpPort p.val).fifo = []) := by
  have htaken : PortsOnly s (s.coefficientsTaken p.val) [Reg.CVP_STAT_at p.val] [] := portsOnly_coefficientsTaken (portsOnly_refl s _)
  have hend : s.frameEnd p.val period = (s.coefficientsTaken p.val).stopPort p.val 0 :=
    (if_neg (fun h => Bool.false_ne_true (hleads.symm.trans h.1))).trans
      (if_pos ((congrArg CvpPort.stopping State.cvpPort_coefficientsTaken).trans hstop))
  obtain ⟨hne, hev⟩ := statAddrs p
  obtain ⟨hports, hstate, hwhy, hfifo⟩ := stopPort_stops (s.coefficientsTaken p.val) p.val 0 hcal (portsOnly_dmaIdle htaken hidle) (by decide) hne hev
  refine ⟨_, ?_, portsOnly_trans htaken hports, hstate, hwhy, hfifo hout⟩
  rw [exec_outputFrame hrun hout, if_pos hstop, hend]

theorem followerClockLoss_stops (hrun : s.cvpState p.val = 1) (hfollows : s.cvpFollows p.val = true) (hcal : s.cal = none) (hidle : DmaIdle s) :
    Does (.followerClockLoss p) s (fun t => PortsOnly s t [Reg.CVP_STAT_at p.val] (portEv s) ∧ t.cvpState p.val = 2 ∧
      t.rf (Reg.CVP_STAT.STOP_CAUSE p.val) = 2) := by
  obtain ⟨hne, hev⟩ := statAddrs p
  obtain ⟨hports, hstate, hwhy, -⟩ := stopPort_stops s p.val 2 hcal hidle (by decide) hne hev
  exact ⟨_, congrArg Host.Outcome.next (if_pos (by rw [hrun, hfollows]; rfl)), hports, hstate, hwhy⟩

end

end Sys2Proof.Machine
end

section
/-!
PROOFS. Converter ports started and stopped, offsets written, a calibration begun (R448, R451, R453, R455).
-/

namespace Sys2Proof.Machine
open Sys2Proof.Claims

/-! ## Ports of a mask -/

theorem maskPorts_one : ∀ p : Fin 8, maskPorts (BitVec.ofNat 8 (2 ^ p.val)).toNat = [p.val] := by decide

theorem mem_maskPorts (m q : Nat) : q ∈ maskPorts m ↔ q < 8 ∧ m.testBit q = true := by
  rw [maskPorts, List.mem_filter, List.mem_range, Nat.testBit_eq_decide_div_mod_eq, decide_eq_true_eq, beq_iff_eq]

/-- A port's settings lie in no port's status. -/
theorem cfg_ne_stat (p q : Nat) : Reg.CVP_CFG_at p ≠ Reg.CVP_STAT_at q := by unfold Reg.CVP_CFG_at Reg.CVP_STAT_at; omega

theorem stat_inj {p q : Nat} (h : p ≠ q) : Reg.CVP_STAT_at p ≠ Reg.CVP_STAT_at q := by unfold Reg.CVP_STAT_at; omega

/-! ## What reaches CONV -/

section
variable {s : State} {src : Src} (hon : s.online islConv = true)
include hon

theorem State.toCvp_fobex (f : State → WRes) (hsrc : src = .fobex) : s.toCvp src f = s.refuse cvpRefuse 6 := by
  rw [State.toCvp, hon, if_neg (by decide), if_pos hsrc]
  rfl

theorem State.toCvp_other (f : State → WRes) (hsrc : src ≠ .fobex) : s.toCvp src f = (f s).st := by
  rw [State.toCvp, hon, if_neg (by decide), if_neg hsrc]

end

/-! ## START -/

section
variable {s : State} {src : Src} {p : Fin 8} (hon : s.online islConv = true) (hsrc : src ≠ .fobex)
include hon hsrc

theorem portStart_refused {why : Nat} (hsound : refuseSound cvpRefuse why = true) (hwhy : why ≠ 0) (h : s.startRefused p.val = why) :
    Refuses (.portStart src (BitVec.ofNat 8 (2 ^ p.val))) s cvpRefuse why := by
  refine refuses_of_exec hsound (congrArg Host.Outcome.next ?_)
  have hfind : [p.val].find? (fun q => s.startRefused q != 0) = some p.val := by
    rw [List.find?_cons_of_pos (by rw [h]; exact bne_iff_ne.2 hwhy)]
  rw [State.toCvp_other hon _ hsrc, State.writeStart, maskPorts_one, hfind]
  exact congrArg (s.refuse cvpRefuse) h

end

/-! ### All of a mask started -/

section
variable (s : State) (p : Nat)

theorem State.cvpState_startPort {q : Nat} : (s.startPort p).cvpState q = if q = p then 1 else s.cvpState q := by
  have hset : (s.startPort p).cvpState q = (s.wf (Reg.CVP_STAT.STATE p) 1).rf (Reg.CVP_STAT.STATE q) := rfl
  rw [hset]
  split
  · next h => rw [h, State.rf_wf_same _ _ _ (show 0 + 2 ≤ 32 by decide)]; rfl
  · next h => exact s.rf_wf_other _ _ _ (.inl (stat_inj h))

theorem State.cvpOut_startPort (q : Nat) : (s.startPort p).cvpOut q = s.cvpOut q :=
  congrArg (· == 1) (s.rf_wf_other (Reg.CVP_STAT.STATE p) (Reg.CVP_CFG.DIR q) 1 (.inl (cfg_ne_stat q p)))

theorem State.cvpPort_startPort_other {q : Nat} (h : q ≠ p) : (s.startPort p).cvpPort q = s.cvpPort q := State.cvpPort_setCvp_other _ _ _ h

theorem State.fifo_startPort (h : s.cvpOut p = false) : ((s.startPort p).cvpPort p).fifo = [] := by
  have hfifo : ((s.startPort p).cvpPort p).fifo = if (s.wf (Reg.CVP_STAT.STATE p) 1).cvpOut p then (s.cvpPort p).fifo else [] :=
    congrArg CvpPort.fifo (State.cvpPort_setCvp_same _ _ _)
  have hout : (s.wf (Reg.CVP_STAT.STATE p) 1).cvpOut p = false := (s.cvpOut_startPort p p).trans h
  rw [hfifo, hout]
  rfl

/-- Nothing but registers and ports changes. -/
theorem State.startPorts_only (ps : List Nat) : s.startPorts ps = { s with io := (s.startPorts ps).io, cvp := (s.startPorts ps).cvp } := by
  induction ps generalizing s with
  | nil => rfl
  | cons p ps ih => exact ih (s.startPort p)

theorem State.cvpState_startPorts (ps : List Nat) (q : Nat) : (s.startPorts ps).cvpState q = if q ∈ ps then 1 else s.cvpState q := by
  induction ps generalizing s with
  | nil => rfl
  | cons p ps ih =>
    rw [State.startPorts, ih, State.cvpState_startPort]
    by_cases hq : q = p <;> by_cases hps : q ∈ ps <;> simp [hq, hps]

theorem State.cvpPort_startPorts_other (ps : List Nat) {q : Nat} (h : q ∉ ps) : (s.startPorts ps).cvpPort q = s.cvpPort q := by
  induction ps generalizing s with
  | nil => rfl
  | cons p ps ih =>
    obtain ⟨hp, hps⟩ := not_or.1 (fun e => h (List.mem_cons.2 e))
    exact (ih (s.startPort p) hps).trans (s.cvpPort_startPort_other p hp)

theorem State.fifo_startPorts (ps : List Nat) {q : Nat} (h : q ∈ ps) (hin : s.cvpOut q = false) : ((s.startPorts ps).cvpPort q).fifo = [] := by
  induction ps generalizing s with
  | nil => exact absurd h List.not_mem_nil
  | cons p ps ih =>
    by_cases hps : q ∈ ps
    · exact ih (s.startPort p) hps ((s.cvpOut_startPort p q).trans hin)
    · have hqp : q = p := (List.mem_cons.1 h).resolve_right hps
      rw [State.startPorts, State.cvpPort_startPorts_other _ _ hps, hqp]
      exact s.fifo_startPort p (hqp ▸ hin)

end

section
variable {s : State} {src : Src} {mask : BitVec 8} (hon : s.online islConv = true) (hsrc : src ≠ .fobex)
include hon hsrc

theorem portStart_starts (hidle : DmaIdle s) (hok : ∀ q, q < 8 → mask.getLsbD q = true → s.startRefused q = 0) :
    Does (.portStart src mask) s (fun t =>
      t = { s with io := t.io, cvp := t.cvp } ∧ (∀ q, q < 8 → t.cvpState q = if mask.getLsbD q then 1 else s.cvpState q) ∧
      (∀ q, q < 8 → mask.getLsbD q = true → s.cvpOut q = false → (t.cvpPort q).fifo = []) ∧
      (∀ q, q < 8 → mask.getLsbD q = false → t.cvpPort q = s.cvpPort q)) := by
  have hmem (q : Nat) (hq : q < 8) : q ∈ maskPorts mask.toNat ↔ mask.getLsbD q = true :=
    (mem_maskPorts _ _).trans ⟨fun h => h.2, fun h => ⟨hq, h⟩⟩
  have hfind : (maskPorts mask.toNat).find? (fun q => s.startRefused q != 0) = none := by
    refine List.find?_eq_none.2 (fun q hq => ?_)
    obtain ⟨hlt, hbit⟩ := (mem_maskPorts _ _).1 hq
    rw [hok q hlt hbit]
    decide
  have hserved : (s.startPorts (maskPorts mask.toNat)).dmaServe = s.startPorts (maskPorts mask.toNat) :=
    State.dmaServe_idle (dmaIdle_congr (congrArg State.dma (s.startPorts_only _)) hidle)
  refine ⟨s.startPorts (maskPorts mask.toNat), congrArg Host.Outcome.next ?_, s.startPorts_only _, fun q hq => ?_, fun q hq hbit hin => ?_,
    fun q hq hbit => ?_⟩
  · rw [State.toCvp_other hon _ hsrc, State.writeStart, hfind]
    exact hserved
  · rw [State.cvpState_startPorts]
    exact if_congr (hmem q hq) rfl rfl
  · exact s.fifo_startPorts _ ((hmem q hq).2 hbit) hin
  · exact s.cvpPort_startPorts_other _ (fun h => Bool.false_ne_true (hbit.symm.trans ((hmem q hq).1 h)))

end

/-! ## STOP -/

section
variable {s : State} {src : Src} {p : Fin 8} (hon : s.online islConv = true) (hsrc : src ≠ .fobex)
include hon hsrc

theorem exec_portStop : exec (.portStop src (BitVec.ofNat 8 (2 ^ p.val))) s = .next (if s.cvpState p.val = 1
    then s.onCvp p.val (fun h => { h with stopping := true }) else s.refuse cvpRefuse 1) := by
  refine congrArg Host.Outcome.next ?_
  rw [State.toCvp_other hon _ hsrc, State.writeStop, maskPorts_one]
  by_cases hrun : s.cvpState p.val = 1
  · simp [hrun, State.stopPorts, WRes.ok]
  · simp [hrun, State.stopPorts, State.refused]

theorem portStop_refused (hstill : s.cvpState p.val ≠ 1) : Refuses (.portStop src (BitVec.ofNat 8 (2 ^ p.val))) s cvpRefuse 1 :=
  refuses_of_exec (by decide) ((exec_portStop hon hsrc).trans (congrArg Host.Outcome.next (if_neg hstill)))

theorem portStop_stops (hrun : s.cvpState p.val = 1) : Does (.portStop src (BitVec.ofNat 8 (2 ^ p.val))) s (fun t =>
    t = { s with cvp := t.cvp } ∧ t.cvpPort p.val = { s.cvpPort p.val with stopping := true } ∧ ∀ q, q ≠ p.val → t.cvpPort q = s.cvpPort q) :=
  ⟨_, (exec_portStop hon hsrc).trans (congrArg Host.Outcome.next (if_pos hrun)), rfl, s.cvpPort_setCvp_same _ _,
    fun _ hq => s.cvpPort_setCvp_other _ _ hq⟩

end

/-! ## Offsets written (R455) -/

section
variable {s : State} {src : Src} {p i : Fin 8} {v : Word} (hon : s.online islConv = true) (hsrc : src ≠ .fobex)
include hon hsrc

theorem exec_cvpOfsWrite : exec (.cvpOfsWrite src p i v) s = .next (if s.on (Reg.CVP_STAT.CAL p.val) then s.refuse cvpRefuse 1
    else s.writeReg .all (Reg.CVP_OFS_at p.val i.val) v) := by
  refine congrArg Host.Outcome.next ((State.toCvp_other hon _ hsrc).trans ?_)
  rw [State.writeOfs]
  split <;> rfl

theorem cvpOfsWrite_refused (hcal : s.on (Reg.CVP_STAT.CAL p.val) = true) : Refuses (.cvpOfsWrite src p i v) s cvpRefuse 1 :=
  refuses_of_exec (by decide) ((exec_cvpOfsWrite hon hsrc).trans (congrArg Host.Outcome.next (if_pos hcal)))

theorem cvpOfsWrite_writes (hcal : s.on (Reg.CVP_STAT.CAL p.val) = false) : Does (.cvpOfsWrite src p i v) s (fun t => t = { s with io := t.io } ∧
    t.rf (Reg.CVP_OFS.OFS p.val i.val) = getBits v 0 (Reg.CVP_OFS.OFS p.val i.val).width ∧
    ∀ a, a ≠ Reg.CVP_OFS_at p.val i.val → t.reg a = s.reg a) := by
  have htakes := (by decide : ∀ p i : Fin 8, (Reg.CVP_OFS.OFS p.val i.val).takes .all = true) p i
  refine ⟨_, (exec_cvpOfsWrite hon hsrc).trans (congrArg Host.Outcome.next (if_neg (by rw [hcal]; exact Bool.false_ne_true))), rfl, ?_,
    fun a ha => s.reg_setReg_other _ _ _ ha⟩
  exact s.rf_writeReg_takes .all (Reg.CVP_OFS.OFS p.val i.val) v htakes

end

/-! ## A calibration begun (R453) -/

section
variable (p : BitVec 3) (mask : BitVec 8) (l : BitVec 4)

/-- The word that CALIBRATION_START writes. -/
def calWord : Word := BitVec.ofNat 32 (p.toNat + 256 * mask.toNat + 65536 * l.toNat + 2 ^ 31)

theorem getBits_calWord : getBits (calWord p mask l) 31 1 = 1 ∧ getBits (calWord p mask l) 0 3 = p.toNat ∧
    getBits (calWord p mask l) 8 8 = mask.toNat ∧ getBits (calWord p mask l) 16 4 = l.toNat := by
  have hp : p.toNat < 8 := p.isLt
  have hm : mask.toNat < 256 := mask.isLt
  have hl : l.toNat < 16 := l.isLt
  simp only [getBits, calWord, BitVec.toNat_ofNat]
  refine ⟨?_, ?_, ?_, ?_⟩ <;> omega

/-- The registers a calibration's beginning writes lie apart from those it is judged by. -/
theorem calAddrs : ∀ n : Fin 8, Reg.CVP_STAT_at n.val ≠ Reg.CVP_CAL_CTL_at ∧ Reg.CVP_CFG_at n.val ≠ Reg.CVP_CAL_CTL_at ∧
    Reg.CVP_STAT_at n.val ≠ Reg.CVP_CAL_STATUS_at ∧ Reg.CVP_STAT_at n.val ≠ Reg.CVP_STATUS_at := by decide

variable {p mask l} {s : State} {src : Src}

/-- What R453 asks of a calibration. -/
def CalReady (s : State) (n m l : Nat) : Prop :=
  s.cvpOut n = false ∧ s.cvpState n = 1 ∧ m ≠ 0 ∧ m < 2 ^ s.cvpSlots n ∧ 8 ≤ l ∧ s.cal = none

theorem State.calRefused_iff {n m l : Nat} : s.calRefused n m l = true ↔ ¬ CalReady s n m l := by
  unfold State.calRefused CalReady
  cases s.cal with
  | none =>
    cases s.cvpOut n with
    | true => simp
    | false => simp; omega
  | some k => simp

theorem State.cvpOut_congr {t : State} {n : Nat} (h : t.rf (Reg.CVP_CFG.DIR n) = s.rf (Reg.CVP_CFG.DIR n)) : t.cvpOut n = s.cvpOut n := by
  rw [State.cvpOut, h, State.cvpOut]

theorem State.cvpSlots_congr {t : State} {n : Nat} (h : t.rf (Reg.CVP_CFG.SLOTS n) = s.rf (Reg.CVP_CFG.SLOTS n)) :
    t.cvpSlots n = s.cvpSlots n := by rw [State.cvpSlots, h, State.cvpSlots]

theorem State.cal_writeReg (q : Permit) (a : Nat) (v : Word) : (s.writeReg q a v).cal = s.cal := rfl

theorem State.calRefused_congr {t : State} {n m l : Nat} (hout : t.cvpOut n = s.cvpOut n) (hstate : t.cvpState n = s.cvpState n)
    (hslots : t.cvpSlots n = s.cvpSlots n) (hcal : t.cal = s.cal) : t.calRefused n m l = s.calRefused n m l := by
  rw [State.calRefused, State.calRefused, hout, hstate, hslots, hcal]

theorem State.calRefused_writeReg (v : Word) (m k : Nat) :
    (s.writeReg .all Reg.CVP_CAL_CTL_at v).calRefused p.toNat m k = s.calRefused p.toNat m k := by
  obtain ⟨hstat, hcfg, -, -⟩ := calAddrs ⟨p.toNat, p.isLt⟩
  have hdir := s.rf_writeReg_other .all Reg.CVP_CAL_CTL_at v (Reg.CVP_CFG.DIR p.toNat) hcfg
  have hslots := s.rf_writeReg_other .all Reg.CVP_CAL_CTL_at v (Reg.CVP_CFG.SLOTS p.toNat) hcfg
  have hstate := s.rf_writeReg_other .all Reg.CVP_CAL_CTL_at v (Reg.CVP_STAT.STATE p.toNat) hstat
  exact State.calRefused_congr (State.cvpOut_congr hdir) hstate (State.cvpSlots_congr hslots) (s.cal_writeReg _ _ _)

theorem execCalibrationStart_eq : exec (.calibrationStart src p mask l) s = .next (s.toCvp src (fun s => s.writeCal (calWord p mask l))) := by
  rw [show exec (.calibrationStart src p mask l) s = execCalibrationStart src p mask l s from rfl, execCalibrationStart, calWord]

variable (hon : s.online islConv = true) (hsrc : src ≠ .fobex)
include hon hsrc

theorem State.toCvp_writeCal (v : Word) : s.toCvp src (fun s => s.writeCal v) = (s.writeCal v).st := State.toCvp_other hon _ hsrc

theorem exec_calibrationStart : exec (.calibrationStart src p mask l) s = .next (s.writeCal (calWord p mask l)).st :=
  execCalibrationStart_eq.trans (congrArg Host.Outcome.next (State.toCvp_writeCal hon hsrc _))

theorem calibrationStart_refused (h : ¬ CalReady s p.toNat mask.toNat l.toNat) :
    Refuses (.calibrationStart src p mask l) s cvpRefuse 5 [Reg.CVP_CAL_CTL_at] := by
  obtain ⟨hgo, hp, hm, hl⟩ := getBits_calWord p mask l
  have hexec : exec (.calibrationStart src p mask l) s = .next ((s.writeReg .all Reg.CVP_CAL_CTL_at (calWord p mask l)).refuse cvpRefuse 5) := by
    rw [exec_calibrationStart hon hsrc, State.writeCal]
    dsimp only
    rw [hgo, hp, hm, hl, State.calRefused_writeReg, State.calRefused_iff.2 h]
    rfl
  refine refuses_of_exec_after (by decide) ((regs_refl s _).setReg _ _ (.head _)) ?_ hexec
  rintro _ ⟨⟩
  exact ev_congr (s.reg_setReg_other _ _ _ (by decide)) (s.reg_setReg_other _ _ _ (by decide))

/-- The registers a calibration's beginning shows itself in. -/
def State.calShown (s : State) (n : Nat) : State :=
  ((s.setReg Reg.CVP_CAL_STATUS_at 1).wf (Reg.CVP_STAT.CAL n) 1).wf Reg.CVP_STATUS.CAL_BUSY 1

omit hon hsrc in
theorem State.calShown_only (n : Nat) : s.calShown n = { s with io := (s.calShown n).io } := rfl

omit hon hsrc in
theorem State.rf_withCal (k : Option CvpCal) (f : Fd) : { s with cal := k }.rf f = s.rf f := rfl

omit hon hsrc in
theorem State.on_withCal (k : Option CvpCal) (f : Fd) : { s with cal := k }.on f = s.on f := rfl

omit hon hsrc in
theorem calShown_shows (n : Fin 8) : (s.calShown n.val).rf Reg.CVP_CAL_STATUS.STATE = 1 ∧ (s.calShown n.val).on (Reg.CVP_STAT.CAL n.val) = true ∧
    (s.calShown n.val).on Reg.CVP_STATUS.CAL_BUSY = true ∧ (s.calShown n.val).cvpState n.val = s.cvpState n.val := by
  obtain ⟨-, -, hcal, hstatus⟩ := calAddrs n
  refine ⟨?_, ?_, ?_, ?_⟩
  · rw [State.calShown, State.rf_wf_other _ _ _ _ (.inl (show Reg.CVP_CAL_STATUS_at ≠ Reg.CVP_STATUS_at by decide)),
      State.rf_wf_other _ _ _ _ (.inl hcal.symm), State.rf, show (s.setReg Reg.CVP_CAL_STATUS_at 1).reg Reg.CVP_CAL_STATUS.STATE.addr = 1 from
        s.reg_setReg_same _ _]
    rfl
  · rw [State.calShown, State.on_wf_other _ _ _ _ (.inl hstatus), State.on_wf_same _ _ _ (show 8 + 1 ≤ 32 by decide)]
    rfl
  · rw [State.calShown, State.on_wf_same _ _ _ (show 2 + 1 ≤ 32 by decide)]
    rfl
  · rw [State.calShown, State.cvpState, State.rf_wf_other _ _ _ _ (.inl hstatus), State.rf_wf_other _ _ _ _ (.inr (.inl (show 0 + 2 ≤ 8 by decide)))]
    exact s.rf_setReg_other _ _ _ hcal

theorem calibrationStart_begins (h : CalReady s p.toNat mask.toNat l.toNat) :
    Does (.calibrationStart src p mask l) s (fun t => t = { s with io := t.io, cal := t.cal } ∧ t.rf Reg.CVP_CAL_STATUS.STATE = 1 ∧
      t.on (Reg.CVP_STAT.CAL p.toNat) = true ∧ t.on Reg.CVP_STATUS.CAL_BUSY = true ∧ t.cvpState p.toNat = 1 ∧
      t.cal = some ⟨p.toNat, mask.toNat, l.toNat, false, 0, List.replicate 8 0, List.replicate 8 0, List.replicate 8 false⟩) := by
  obtain ⟨hgo, hp, hm, hl⟩ := getBits_calWord p mask l
  have hready : s.calRefused p.toNat mask.toNat l.toNat = false := Bool.not_eq_true _ ▸ fun hr => State.calRefused_iff.1 hr h
  have hexec : exec (.calibrationStart src p mask l) s = .next { (s.writeReg .all Reg.CVP_CAL_CTL_at (calWord p mask l)).calShown p.toNat with
      cal := some ⟨p.toNat, mask.toNat, l.toNat, false, 0, List.replicate 8 0, List.replicate 8 0, List.replicate 8 false⟩ } := by
    rw [exec_calibrationStart hon hsrc, State.writeCal]
    dsimp only
    rw [hgo, hp, hm, hl, State.calRefused_writeReg, hready]
    rfl
  have hkept := s.rf_writeReg_other .all Reg.CVP_CAL_CTL_at (calWord p mask l) (Reg.CVP_STAT.STATE p.toNat) (calAddrs ⟨p.toNat, p.isLt⟩).1
  have honly : s.writeReg .all Reg.CVP_CAL_CTL_at (calWord p mask l) =
      { s with io := (s.writeReg .all Reg.CVP_CAL_CTL_at (calWord p mask l)).io } := rfl
  generalize s.writeReg .all Reg.CVP_CAL_CTL_at (calWord p mask l) = w at hexec hkept honly
  obtain ⟨hstate, hcal, hbusy, hrun⟩ := calShown_shows (s := w) ⟨p.toNat, p.isLt⟩
  have hshown := w.calShown_only p.toNat
  generalize w.calShown p.toNat = u at hexec hstate hcal hbusy hrun hshown
  refine ⟨_, hexec, ?_, (State.rf_withCal _ _).trans hstate, (State.on_withCal _ _).trans hcal, (State.on_withCal _ _).trans hbusy, ?_, rfl⟩
  · rw [hshown, honly]
  · exact (State.rf_withCal _ _).trans (hrun.trans (hkept.trans h.2.1))

end

end Sys2Proof.Machine
end

section
/-!
PROOFS. A calibration to its end (R453 to R456), and the obligation on converter ports.
-/

namespace Sys2Proof.Machine
open Sys2Proof.Claims

/-! ## The mean of the samples (R454) -/

theorem isMean_roundMean (sum : Int) (l : Nat) : IsMean sum l (roundMean sum l) := by
  have hpos : (0 : Int) < 2 ^ l := Int.pow_pos (by decide)
  unfold IsMean roundMean
  dsimp only
  generalize (2 : Int) ^ l = n at hpos
  have hdiv := Int.emod_add_mul_ediv sum n
  have hlo := Int.emod_nonneg sum hpos.ne'
  have hhi := Int.emod_lt_of_pos sum hpos
  generalize sum / n = q at hdiv
  generalize sum % n = r at hdiv hlo hhi
  have hq : q * n - sum = -r := by rw [← hdiv]; ring
  have hq1 : (q + 1) * n - sum = n - r := by rw [← hdiv]; ring
  split
  · rw [hq]; omega
  · split
    · rw [hq1]; omega
    · split
      · rw [hq]; omega
      · rw [hq1]; omega

/-! ## What the report and the coefficients leave unchanged -/

/-- The registers that tell how a calibration ended. -/
def calRegs : List Nat := [Reg.CVP_CAL_STATUS_at, Reg.CVP_CAL_MEAN_at, Reg.CVP_CAL_VAR_at]

theorem ofs_apart (p i : Nat) : Reg.CVP_OFS_at p i ∉ calRegs := by
  have hlow : ∀ a ∈ calRegs, a < 0x4248 := by decide
  intro h
  have := hlow _ h
  unfold Reg.CVP_OFS_at at this
  omega

theorem ofs_inj (p : Nat) {i j : Nat} (h : i ≠ j) : Reg.CVP_OFS_at p i ≠ Reg.CVP_OFS_at p j := by unfold Reg.CVP_OFS_at; omega

section
variable (s : State) (k : CvpCal)

theorem State.withIo_wf (f : Fd) (v : Nat) (x : SMap Word) : { s.wf f v with io := x } = { s with io := x } := rfl

theorem State.wf_only (f : Fd) (v : Nat) : s.wf f v = { s with io := (s.wf f v).io } := rfl

theorem State.calReport_only (i : Nat) : s.calReport k i = { s with io := (s.calReport k i).io } := by
  rw [State.calReport]
  exact (State.wf_only _ _ _).trans ((State.withIo_wf _ _ _ _).trans (State.withIo_wf _ _ _ _))

theorem State.reg_calReport (i : Nat) {a : Nat} (h : a ∉ calRegs) : (s.calReport k i).reg a = s.reg a := by
  simp only [calRegs, List.mem_cons, List.not_mem_nil, or_false, not_or] at h
  obtain ⟨hstatus, hmean, hvar⟩ := h
  rw [State.calReport, State.reg_wf_other _ _ _ _ hvar, State.reg_wf_other _ _ _ _ hmean, State.reg_wf_other _ _ _ _ hstatus]

/-- The report names the slot, and leaves how it ended. -/
theorem State.rf_calReport (i : Nat) : (s.calReport k i).rf Reg.CVP_CAL_STATUS.SLOT = i % 8 ∧
    ∀ f : Fd, f.addr = Reg.CVP_CAL_STATUS_at → f.lo + f.width ≤ 8 → (s.calReport k i).rf f = s.rf f := by
  have hvar : Reg.CVP_CAL_STATUS_at ≠ Reg.CVP_CAL_VAR_at ∧ Reg.CVP_CAL_STATUS_at ≠ Reg.CVP_CAL_MEAN_at := by decide
  constructor
  · rw [State.calReport, State.rf_wf_other _ _ _ _ (.inl hvar.1), State.rf_wf_other _ _ _ _ (.inl hvar.2),
      State.rf_wf_same _ _ _ (show 8 + 3 ≤ 32 by decide)]
    rfl
  · intro f hf hlo
    rw [State.calReport, State.rf_wf_other _ _ _ _ (.inl (hf ▸ hvar.1)), State.rf_wf_other _ _ _ _ (.inl (hf ▸ hvar.2)),
      State.rf_wf_other _ _ _ _ (.inr (.inl hlo))]

theorem State.calTake_only (is : List Nat) : s.calTake k is = { s with io := (s.calTake k is).io } := by
  induction is generalizing s with
  | nil => rfl
  | cons i is ih =>
    rw [State.calTake]
    exact (ih _).trans (State.withIo_wf _ _ _ _)

theorem State.reg_calTake_other (is : List Nat) {a : Nat} (h : ∀ i ∈ is, a ≠ Reg.CVP_OFS_at k.port i) : (s.calTake k is).reg a = s.reg a := by
  induction is generalizing s with
  | nil => rfl
  | cons i is ih =>
    rw [State.calTake, ih _ (fun j hj => h j (.tail _ hj))]
    exact s.reg_wf_other _ _ _ (h i (.head _))

/-- A coefficient taken is its slot's mean. -/
theorem State.rf_calTake (is : List Nat) {i : Nat} (h : i ∈ is) : (s.calTake k is).rf (Reg.CVP_OFS.OFS k.port i) =
    (roundMean (k.sum.getD i 0) k.log2n % 2 ^ (Reg.CVP_OFS.OFS k.port i).width).toNat := by
  induction is generalizing s with
  | nil => exact absurd h List.not_mem_nil
  | cons j is ih =>
    by_cases his : i ∈ is
    · rw [State.calTake]
      exact ih _ his
    · obtain rfl : i = j := (List.mem_cons.1 h).resolve_right his
      have hkept := (s.wf (Reg.CVP_OFS.OFS k.port i) (uNat 32 (roundMean (k.sum.getD i 0) k.log2n))).reg_calTake_other k is
        (a := Reg.CVP_OFS_at k.port i) (fun j hj => ofs_inj k.port (fun e => his (e ▸ hj)))
      rw [State.calTake, rf_congr (f := Reg.CVP_OFS.OFS k.port i) hkept, State.rf_wf_same _ _ _ (show 0 + 32 ≤ 32 by decide)]
      exact Nat.mod_eq_of_lt ((Int.toNat_lt (Int.emod_nonneg _ (by decide))).2 (Int.emod_lt_of_pos _ (by decide)))

/-! ## The result decided (R454, R455) -/

/-- The result is judged by the limits, which its own state leaves alone. -/
theorem State.calCause_wf (v : Nat) : (s.wf Reg.CVP_CAL_STATUS.STATE v).calCause k = s.calCause k := by
  funext i
  have hmean := s.rf_wf_other Reg.CVP_CAL_STATUS.STATE Reg.CVP_CAL_LIM_MEAN.LIMIT v (.inl (by decide))
  have hvar := s.rf_wf_other Reg.CVP_CAL_STATUS.STATE Reg.CVP_CAL_LIM_VAR.LIMIT v (.inl (by decide))
  rw [State.calCause, State.calCause, hmean, hvar]

theorem State.calCause_lt (i : Nat) : s.calCause k i < 4 := by
  unfold State.calCause
  dsimp only
  split
  · decide
  · split
    · decide
    · split <;> decide

theorem State.calDecide_passed (h : ∀ i, i < 8 → k.mask.testBit i = true → s.calCause k i = 0) : s.calDecide k =
    (((s.wf Reg.CVP_CAL_STATUS.STATE 3).wf Reg.CVP_CAL_STATUS.RESULT 1).calReport k (k.largest (maskPorts k.mask))).calTake k (maskPorts k.mask) := by
  have hfind : (maskPorts k.mask).find? (fun i => s.calCause k i != 0) = none := by
    refine List.find?_eq_none.2 (fun i hi => ?_)
    obtain ⟨hlt, hbit⟩ := (mem_maskPorts _ _).1 hi
    rw [h i hlt hbit]
    decide
  rw [State.calDecide]
  rw [State.calCause_wf, hfind]

theorem State.calDecide_failed {i : Nat} (hi : i < 8) (hbit : k.mask.testBit i = true) (hcause : s.calCause k i ≠ 0)
    (hfirst : ∀ j, j < i → k.mask.testBit j = true → s.calCause k j = 0) : s.calDecide k =
      (((s.wf Reg.CVP_CAL_STATUS.STATE 3).wf Reg.CVP_CAL_STATUS.RESULT 2).wf Reg.CVP_CAL_STATUS.CAUSE (s.calCause k i)).calReport k i := by
  have hfind : (maskPorts k.mask).find? (fun i => s.calCause k i != 0) = some i := by
    rw [maskPorts, List.find?_filter, List.find?_range_eq_some]
    have htest (j : Nat) : (k.mask / 2 ^ j % 2 == 1) = k.mask.testBit j := by rw [Nat.testBit_eq_decide_div_mod_eq]; rfl
    refine ⟨?_, List.mem_range.2 hi, fun j hj => ?_⟩
    · rw [htest, hbit, bne_iff_ne.2 hcause]; rfl
    · rw [htest]
      cases hb : k.mask.testBit j with
      | false => rfl
      | true => rw [hfirst j hj hb]; rfl
  rw [State.calDecide]
  rw [State.calCause_wf, hfind]

end

section
variable {s : State} {k : CvpCal} (hcal : s.cal = some k)
include hcal

theorem calibrationSettled_settles (hstate : s.rf Reg.CVP_CAL_STATUS.STATE = 1) : Does .calibrationSettled s (fun t =>
    t = { s with io := t.io, cal := some { k with skip := true } } ∧ t.rf Reg.CVP_CAL_STATUS.STATE = 2) := by
  have hacc : s.calAccumulate = { s with cal := some { k with skip := true } }.wf Reg.CVP_CAL_STATUS.STATE 2 := by rw [State.calAccumulate, hcal]
  refine ⟨_, congrArg Host.Outcome.next ((if_pos hstate).trans hacc), rfl, ?_⟩
  rw [State.rf_wf_same _ _ _ (show 0 + 2 ≤ 32 by decide)]
  rfl

theorem exec_calibrationResult (hstate : s.rf Reg.CVP_CAL_STATUS.STATE = 2) (hframes : k.frames = 2 ^ k.log2n) :
    exec .calibrationResult s = .next (s.calDecide k) := by
  rw [show exec .calibrationResult s = execCalibrationResult s from rfl, execCalibrationResult, hcal]
  exact congrArg Host.Outcome.next (if_pos ⟨hstate, hframes⟩)

theorem calibrationResult_passes (hstate : s.rf Reg.CVP_CAL_STATUS.STATE = 2) (hframes : k.frames = 2 ^ k.log2n)
    (h : ∀ i, i < 8 → k.mask.testBit i = true → s.calCause k i = 0) :
    Does .calibrationResult s (fun t => t.cal = s.cal ∧ t.cvp = s.cvp ∧ t.rf Reg.CVP_CAL_STATUS.STATE = 3 ∧ t.rf Reg.CVP_CAL_STATUS.RESULT = 1 ∧
      (∀ i, i < 8 → k.mask.testBit i = true → ∃ m, IsMean (k.sum.getD i 0) k.log2n m ∧
        t.rf (Reg.CVP_OFS.OFS k.port i) = (m % 2 ^ (Reg.CVP_OFS.OFS k.port i).width).toNat) ∧
      (∀ i, i < 8 → k.mask.testBit i = false → t.reg (Reg.CVP_OFS_at k.port i) = s.reg (Reg.CVP_OFS_at k.port i))) := by
  have hexec := (exec_calibrationResult hcal hstate hframes).trans (congrArg Host.Outcome.next (s.calDecide_passed k h))
  generalize hu : (s.wf Reg.CVP_CAL_STATUS.STATE 3).wf Reg.CVP_CAL_STATUS.RESULT 1 = u at hexec
  have hu3 : u.rf Reg.CVP_CAL_STATUS.STATE = 3 := by
    rw [← hu, State.rf_wf_other _ _ _ _ (.inr (.inl (show 0 + 2 ≤ 2 by decide))), State.rf_wf_same _ _ _ (show 0 + 2 ≤ 32 by decide)]
    rfl
  have hu1 : u.rf Reg.CVP_CAL_STATUS.RESULT = 1 := by rw [← hu, State.rf_wf_same _ _ _ (show 2 + 2 ≤ 32 by decide)]; rfl
  have honly : u = { s with io := u.io } := by rw [← hu]; rfl
  have hureg {a : Nat} (ha : a ∉ calRegs) : u.reg a = s.reg a := by
    have hne : a ≠ Reg.CVP_CAL_STATUS_at := fun e => ha (e ▸ .head _)
    rw [← hu, State.reg_wf_other _ _ _ _ hne, State.reg_wf_other _ _ _ _ hne]
  obtain ⟨-, hrep⟩ := u.rf_calReport k (k.largest (maskPorts k.mask))
  have hrepOnly := u.calReport_only k (k.largest (maskPorts k.mask))
  have hrepReg {a : Nat} := u.reg_calReport k (k.largest (maskPorts k.mask)) (a := a)
  generalize u.calReport k (k.largest (maskPorts k.mask)) = w at hexec hrep hrepOnly hrepReg
  have htake (f : Fd) (hf : f.addr = Reg.CVP_CAL_STATUS_at) : (w.calTake k (maskPorts k.mask)).rf f = w.rf f :=
    rf_congr (w.reg_calTake_other k _ (fun i _ e => ofs_apart k.port i (by rw [← e, hf]; exact .head _)))
  have htakeOnly := w.calTake_only k (maskPorts k.mask)
  refine ⟨_, hexec, ?_, ?_, ?_, ?_, fun i hi hbit => ?_, fun i hi hbit => ?_⟩
  · rw [htakeOnly, hrepOnly, honly]
  · rw [htakeOnly, hrepOnly, honly]
  · rw [htake _ rfl, hrep _ rfl (show 0 + 2 ≤ 8 by decide), hu3]
  · rw [htake _ rfl, hrep _ rfl (show 2 + 2 ≤ 8 by decide), hu1]
  · exact ⟨_, isMean_roundMean _ _, w.rf_calTake k _ ((mem_maskPorts _ _).2 ⟨hi, hbit⟩)⟩
  · have hother : ∀ j ∈ maskPorts k.mask, Reg.CVP_OFS_at k.port i ≠ Reg.CVP_OFS_at k.port j := by
      intro j hj
      refine ofs_inj k.port (fun e => ?_)
      exact Bool.false_ne_true (hbit.symm.trans (e ▸ ((mem_maskPorts _ _).1 hj).2))
    rw [w.reg_calTake_other k _ hother, hrepReg (ofs_apart _ _), hureg (ofs_apart _ _)]

theorem calibrationResult_fails (hstate : s.rf Reg.CVP_CAL_STATUS.STATE = 2) (hframes : k.frames = 2 ^ k.log2n) {i : Nat} (hi : i < 8)
    (hbit : k.mask.testBit i = true) (hcause : s.calCause k i ≠ 0) (hfirst : ∀ j, j < i → k.mask.testBit j = true → s.calCause k j = 0) :
    Does .calibrationResult s (fun t => t.rf Reg.CVP_CAL_STATUS.STATE = 3 ∧ t.rf Reg.CVP_CAL_STATUS.RESULT = 2 ∧
      t.rf Reg.CVP_CAL_STATUS.SLOT = i ∧ t.rf Reg.CVP_CAL_STATUS.CAUSE = s.calCause k i ∧ (k.clip.getD i false = true → s.calCause k i = 1) ∧
      ∀ j, j < 8 → t.reg (Reg.CVP_OFS_at k.port j) = s.reg (Reg.CVP_OFS_at k.port j)) := by
  have hexec := (exec_calibrationResult hcal hstate hframes).trans (congrArg Host.Outcome.next (s.calDecide_failed k hi hbit hcause hfirst))
  have hlt := s.calCause_lt k i
  have hclip : k.clip.getD i false = true → s.calCause k i = 1 := fun h => if_pos h
  generalize s.calCause k i = c at hexec hlt hclip
  generalize hu : ((s.wf Reg.CVP_CAL_STATUS.STATE 3).wf Reg.CVP_CAL_STATUS.RESULT 2).wf Reg.CVP_CAL_STATUS.CAUSE c = u at hexec
  have hu3 : u.rf Reg.CVP_CAL_STATUS.STATE = 3 := by
    rw [← hu, State.rf_wf_other _ _ _ _ (.inr (.inl (show 0 + 2 ≤ 4 by decide))),
      State.rf_wf_other _ _ _ _ (.inr (.inl (show 0 + 2 ≤ 2 by decide))), State.rf_wf_same _ _ _ (show 0 + 2 ≤ 32 by decide)]
    rfl
  have hu2 : u.rf Reg.CVP_CAL_STATUS.RESULT = 2 := by
    rw [← hu, State.rf_wf_other _ _ _ _ (.inr (.inl (show 2 + 2 ≤ 4 by decide))), State.rf_wf_same _ _ _ (show 2 + 2 ≤ 32 by decide)]
    rfl
  have huc : u.rf Reg.CVP_CAL_STATUS.CAUSE = c := by
    rw [← hu, State.rf_wf_same _ _ _ (show 4 + 2 ≤ 32 by decide)]
    exact Nat.mod_eq_of_lt hlt
  have hureg {a : Nat} (ha : a ∉ calRegs) : u.reg a = s.reg a := by
    have hne : a ≠ Reg.CVP_CAL_STATUS_at := fun e => ha (e ▸ .head _)
    rw [← hu, State.reg_wf_other _ _ _ _ hne, State.reg_wf_other _ _ _ _ hne, State.reg_wf_other _ _ _ _ hne]
  obtain ⟨hslot, hrep⟩ := u.rf_calReport k i
  refine ⟨_, hexec, ?_, ?_, ?_, ?_, hclip, fun j _ => ?_⟩
  · rw [hrep _ rfl (show 0 + 2 ≤ 8 by decide), hu3]
  · rw [hrep _ rfl (show 2 + 2 ≤ 8 by decide), hu2]
  · rw [hslot, Nat.mod_eq_of_lt hi]
  · rw [hrep _ rfl (show 4 + 2 ≤ 8 by decide), huc]
  · rw [u.reg_calReport k i (ofs_apart _ _), hureg (ofs_apart _ _)]

theorem calibrationRestored_ends (hport : k.port < 8) (hstate : s.rf Reg.CVP_CAL_STATUS.STATE = 3) : Does .calibrationRestored s (fun t =>
    t.cal = none ∧ t.rf Reg.CVP_CAL_STATUS.STATE = 0 ∧ t.on (Reg.CVP_STAT.CAL k.port) = false ∧ t.on Reg.CVP_STATUS.CAL_BUSY = false ∧
    t.net.events = s.net.events ++ ev s (Reg.CVP_EVCFG.CAL_EVENT, Reg.CVP_EVCFG.CAL_EN)) := by
  obtain ⟨-, -, hstatus, hbusy⟩ := calAddrs ⟨k.port, hport⟩
  have hexec : exec .calibrationRestored s = .next (s.endCal k.port) := by
    rw [show exec .calibrationRestored s = execCalibrationRestored s from rfl, execCalibrationRestored, hcal]
    exact congrArg Host.Outcome.next (if_pos hstate)
  rw [State.endCal] at hexec
  generalize hu : ((s.wf Reg.CVP_CAL_STATUS.STATE 0).wf (Reg.CVP_STAT.CAL k.port) 0).wf Reg.CVP_STATUS.CAL_BUSY 0 = u at hexec
  have hustate : u.rf Reg.CVP_CAL_STATUS.STATE = 0 := by
    rw [← hu, State.rf_wf_other _ _ _ _ (.inl (show Reg.CVP_CAL_STATUS_at ≠ Reg.CVP_STATUS_at by decide)),
      State.rf_wf_other _ _ _ _ (.inl hstatus.symm), State.rf_wf_same _ _ _ (show 0 + 2 ≤ 32 by decide)]
    rfl
  have hucal : u.on (Reg.CVP_STAT.CAL k.port) = false := by
    rw [← hu, State.on_wf_other _ _ _ _ (.inl hbusy), State.on_wf_same _ _ _ (show 8 + 1 ≤ 32 by decide)]
    rfl
  have hubusy : u.on Reg.CVP_STATUS.CAL_BUSY = false := by
    rw [← hu, State.on_wf_same _ _ _ (show 2 + 1 ≤ 32 by decide)]
    rfl
  have hunet : u.net = s.net := by rw [← hu]; rfl
  have huev : u.reg Reg.CVP_EVCFG_at = s.reg Reg.CVP_EVCFG_at := by
    have hstat : Reg.CVP_EVCFG_at ≠ Reg.CVP_STAT_at k.port := by unfold Reg.CVP_EVCFG_at Reg.CVP_STAT_at; omega
    rw [← hu, State.reg_wf_other _ _ _ _ (show Reg.CVP_EVCFG_at ≠ Reg.CVP_STATUS_at by decide), State.reg_wf_other _ _ _ _ hstat,
      State.reg_wf_other _ _ _ _ (show Reg.CVP_EVCFG_at ≠ Reg.CVP_CAL_STATUS_at by decide)]
  have hev : ev { u with cal := none } (Reg.CVP_EVCFG.CAL_EVENT, Reg.CVP_EVCFG.CAL_EN) = ev s (Reg.CVP_EVCFG.CAL_EVENT, Reg.CVP_EVCFG.CAL_EN) :=
    ev_congr huev huev
  have hrf (f : Fd) : { u with cal := none }.rf f = u.rf f := State.rf_withCal _ _
  have hon (f : Fd) : { u with cal := none }.on f = u.on f := State.on_withCal _ _
  refine ⟨_, hexec, ?_, ?_, ?_, ?_, ?_⟩
  · rw [State.raiseIf_eq]
  · rw [State.rf_raiseIf, hrf, hustate]
  · rw [State.on_raiseIf, hon, hucal]
  · rw [State.on_raiseIf, hon, hubusy]
  · rw [State.raiseIf_eq, hev, hunet]

end

/-- Settles O55, operation by operation: START and STOP judged port by port, a frame by whether it is whole and fits, a calibration's result by its
first failing slot. -/
theorem converterPortsMoveFrames : Obligations.ConverterPortsMoveFrames := by
  unfold Obligations.ConverterPortsMoveFrames
  refine ⟨fun src p mask s hon => ⟨?_, ?_, ?_, ?_, ?_, ?_, ?_, ?_⟩, fun p line bad period s => ⟨?_, ?_, ?_, ?_, ?_⟩,
    fun src p mask l s hon => ⟨?_, ?_, ?_⟩, fun s k hcal hport => ⟨?_, ?_, ?_⟩, fun src p i v s hon => ⟨?_, ?_, ?_⟩⟩
  · exact fun hsrc => ⟨refuses_of_exec (by decide) (congrArg Host.Outcome.next (State.toCvp_fobex hon _ hsrc)),
      refuses_of_exec (by decide) (congrArg Host.Outcome.next (State.toCvp_fobex hon _ hsrc))⟩
  · exact fun hsrc hrun => portStart_refused hon hsrc (by decide) (by decide) (if_pos hrun)
  · intro hsrc hstill hformat
    refine portStart_refused hon hsrc (by decide) (by decide) ((if_neg hstill).trans (if_pos ?_))
    by_contra hno
    exact hformat ⟨fun e => hno (.inl e), Nat.le_of_not_lt (fun h => hno (.inr h))⟩
  · intro hsrc hstill hformat hslow
    obtain ⟨hwidth, hlen⟩ := hformat
    refine portStart_refused hon hsrc (by decide) (by decide) ((if_neg hstill).trans ((if_neg ?_).trans (if_pos ?_)))
    · exact fun h => h.elim hwidth (Nat.not_lt_of_le hlen)
    · exact ⟨by rw [Bool.eq_false_iff.2 (fun e => hslow (.inl e))]; rfl, Nat.lt_of_not_le (fun h => hslow (.inr h))⟩
  · intro hsrc hstill hformat hslow hlock
    obtain ⟨hwidth, hlen⟩ := hformat
    refine portStart_refused hon hsrc (by decide) (by decide) ((if_neg hstill).trans ((if_neg ?_).trans ((if_neg ?_).trans (if_pos ?_))))
    · exact fun h => h.elim hwidth (Nat.not_lt_of_le hlen)
    · rintro ⟨hf, hlt⟩
      exact hslow.elim (fun e => by rw [e] at hf; exact Bool.false_ne_true hf) (Nat.not_le_of_lt hlt)
    · rw [hlock]; rfl
  · exact fun hsrc hidle hok => portStart_starts hon hsrc hidle hok
  · exact fun hsrc hstill => portStop_refused hon hsrc hstill
  · exact fun hsrc hrun => portStop_stops hon hsrc hrun
  · exact fun hf hin => ⟨fun hgood hroom => inputFrame_taken hf hin hgood hroom, fun hgood hfull => inputFrame_overrun hf hin hgood hfull,
      fun hlost => inputFrame_lost hf hin hlost⟩
  · exact fun hf hout hgood => ⟨fun hwhole => outputFrame_given hf hout hgood hwhole, fun hshort => outputFrame_underrun hf hout hgood hshort⟩
  · exact fun hrun hout hstop hleads hcal hidle => outputFrame_stops hrun hout hstop hleads hcal hidle
  · exact fun hrun hfollows hcal hidle => followerClockLoss_stops hrun hfollows hcal hidle
  · intro hstill
    have hno (b : Bool) : ¬ (decide (s.cvpState p.val = 1) && b) = true := by rw [decide_eq_false hstill]; exact Bool.false_ne_true
    exact ⟨⟨s, congrArg Host.Outcome.next (if_neg (hno _)), rfl⟩, ⟨s, congrArg Host.Outcome.next (if_neg (hno _)), rfl⟩⟩
  · exact fun hsrc => refuses_of_exec (by decide) (congrArg Host.Outcome.next (State.toCvp_fobex hon _ hsrc))
  · exact fun hsrc hno => calibrationStart_refused hon hsrc (fun h => hno ⟨h.1, h.2.1, fun e => h.2.2.1 (by rw [e]; rfl), h.2.2.2⟩)
  · intro hsrc hok
    obtain ⟨hout, hrun, hmask, hrest⟩ := hok
    exact calibrationStart_begins hon hsrc ⟨hout, hrun, fun e => hmask (BitVec.eq_of_toNat_eq e), hrest⟩
  · exact fun hstate => calibrationSettled_settles hcal hstate
  · exact fun hstate hframes => ⟨fun h => calibrationResult_passes hcal hstate hframes h,
      fun i hi hbit hcause hfirst => calibrationResult_fails hcal hstate hframes hi hbit hcause hfirst⟩
  · exact fun hstate => calibrationRestored_ends hcal hport hstate
  · exact fun hsrc => refuses_of_exec (by decide) (congrArg Host.Outcome.next (State.toCvp_fobex hon _ hsrc))
  · exact fun hsrc hcal => cvpOfsWrite_refused hon hsrc hcal
  · exact fun hsrc hcal => cvpOfsWrite_writes hon hsrc hcal

end Sys2Proof.Machine
end

section
/-!
PROOFS. Records of the Vault as bytes: what a copy holds, which copy is current, and what the start and the end of a write leave readable
(R346 to R348).
-/

namespace Sys2Proof.Machine
open Sys2Proof.Claims

/-! ## Fields packed -/

theorem pack_lt (fs : List (Nat × Nat)) : pack fs < 256 ^ (fs.map Prod.snd).sum := by
  induction fs with
  | nil => exact Nat.one_pos
  | cons f t ih =>
    obtain ⟨v, n⟩ := f
    have hv : v % 256 ^ n < 256 ^ n := Nat.mod_lt _ (Nat.pow_pos (by decide))
    rw [pack, List.map_cons, List.sum_cons, pow_add]
    calc v % 256 ^ n + 256 ^ n * pack t < 256 ^ n + 256 ^ n * pack t := Nat.add_lt_add_right hv _
      _ = 256 ^ n * (pack t + 1) := by ring
      _ ≤ 256 ^ n * 256 ^ (t.map Prod.snd).sum := Nat.mul_le_mul_left _ ih

theorem pack_cons_mod (v n : Nat) (t : List (Nat × Nat)) : pack ((v, n) :: t) % 256 ^ n = v % 256 ^ n := by
  rw [pack, Nat.add_mul_mod_self_left, Nat.mod_mod]

theorem pack_cons_div (v n : Nat) (t : List (Nat × Nat)) : pack ((v, n) :: t) / 256 ^ n = pack t := by
  have hpos : 0 < 256 ^ n := Nat.pow_pos (by decide)
  rw [pack, Nat.add_mul_div_left _ _ hpos, Nat.div_eq_of_lt (Nat.mod_lt _ hpos), Nat.zero_add]

/-- Bytes past the first field. -/
theorem bytesAt_pack_cons (v n : Nat) (t : List (Nat × Nat)) (k m : Nat) : bytesAt (pack ((v, n) :: t)) (n + k) m = bytesAt (pack t) k m := by
  rw [bytesAt, bytesAt, pow_add, ← Nat.div_div_eq_div_mul, pack_cons_div]

/-- Bytes within the first field. -/
theorem bytesAt_mod (w n : Nat) {off m : Nat} (h : off + m ≤ n) : bytesAt (w % 256 ^ n) off m = bytesAt w off m := by
  obtain ⟨k, rfl⟩ := Nat.exists_eq_add_of_le h
  have hdvd : 256 ^ m ∣ 256 ^ (m + k) := Nat.pow_dvd_pow 256 (Nat.le_add_right m k)
  rw [bytesAt, bytesAt, Nat.add_assoc, pow_add 256 off, Nat.mod_mul_right_div_self, Nat.mod_mod_of_dvd _ hdvd]

theorem bytesAt_pack_first (v n : Nat) (t : List (Nat × Nat)) {off m : Nat} (h : off + m ≤ n) :
    bytesAt (pack ((v, n) :: t)) off m = bytesAt v off m := by
  rw [← bytesAt_mod _ n h, pack_cons_mod, bytesAt_mod _ n h]

theorem bytesAt_zero (w n : Nat) : bytesAt w 0 n = w % 256 ^ n := by rw [bytesAt, pow_zero, Nat.div_one]

theorem sum_map_snd_range (f : Nat → Nat) (n k : Nat) : (((List.range n).map (fun i => (f i, k))).map Prod.snd).sum = n * k := by
  rw [List.map_map]
  simp [Function.comp_def]

/-! ## CRC-32C -/

theorem crcBit_lt {c : Nat} (h : c < 2 ^ 32) : crcBit c < 2 ^ 32 := by
  unfold crcBit
  split
  · exact Nat.xor_lt_two_pow (by omega) (by decide)
  · omega

theorem crcByte_lt {c b : Nat} (hc : c < 2 ^ 32) (hb : b < 2 ^ 32) : crcByte c b < 2 ^ 32 := by
  have hfold (n x : Nat) (hx : x < 2 ^ 32) : (List.range n).foldl (fun x _ => crcBit x) x < 2 ^ 32 := by
    induction n with
    | zero => exact hx
    | succ n ih => rw [List.range_succ, List.foldl_append]; exact crcBit_lt ih
  exact hfold 8 _ (Nat.xor_lt_two_pow hc hb)

theorem crc32c_lt {bs : List Nat} (h : Octets bs) : crc32c bs < 2 ^ 32 := by
  have hfold (l : List Nat) (hl : Octets l) (x : Nat) (hx : x < 2 ^ 32) : l.foldl crcByte x < 2 ^ 32 := by
    induction l generalizing x with
    | nil => exact hx
    | cons b t ih => exact ih (fun c hc => hl c (.tail _ hc)) _ (crcByte_lt hx ((hl b (.head _)).trans (by decide)))
  exact Nat.xor_lt_two_pow (hfold bs h _ (by decide)) (by decide)

/-! ## A copy formed (Table rec-1) -/

section
variable (id seq body : Nat)

theorem vaultLen_range : 32 ≤ vaultLen id ∧ vaultLen id < 2 ^ 16 := by
  unfold vaultLen
  split_ifs <;> decide

/-- The bytes of a copy: the header, its CRC, the body. -/
theorem raw_vaultCopy : (vaultCopy id seq body).raw = pack [(vaultHead id seq, 12),
    (crc32c (toBytes (vaultHead id seq) 12 ++ toBytes body (vaultLen id - 16)), 4), (body, vaultLen id - 16)] := rfl

theorem body_vaultCopy : (vaultCopy id seq body).body = body % 256 ^ (vaultLen id - 16) := by
  rw [VCopy.body, raw_vaultCopy, show 2 ^ 128 = 256 ^ 12 * 256 ^ 4 by norm_num, ← Nat.div_div_eq_div_mul, pack_cons_div, pack_cons_div, pack, pack,
    Nat.mul_zero, Nat.add_zero]

theorem seq_vaultCopy : (vaultCopy id seq body).seq = seq % 2 ^ 32 := by
  have hhead : bytesAt (vaultHead id seq) 0 4 = seq % 2 ^ 32 % 256 ^ 4 := by rw [bytesAt_zero, vaultHead, pack_cons_mod]
  rw [VCopy.seq, raw_vaultCopy, bytesAt_pack_first _ _ _ (by decide), hhead]
  exact Nat.mod_mod _ _

theorem id_vaultCopy (hid : id < 2 ^ 16) : (vaultCopy id seq body).id = id := by
  have hhead : bytesAt (vaultHead id seq) 4 2 = id % 256 ^ 2 := by
    rw [vaultHead, show 4 = 4 + 0 from rfl, bytesAt_pack_cons, bytesAt_zero, pack_cons_mod]
  rw [VCopy.id, raw_vaultCopy, bytesAt_pack_first _ _ _ (by decide), hhead]
  exact Nat.mod_eq_of_lt hid

theorem len_vaultCopy : (vaultCopy id seq body).len = vaultLen id := by
  have hhead : bytesAt (vaultHead id seq) 6 2 = vaultLen id % 256 ^ 2 := by
    rw [vaultHead, show 6 = 4 + (2 + 0) from rfl, bytesAt_pack_cons, bytesAt_pack_cons, bytesAt_zero, pack_cons_mod]
  rw [VCopy.len, raw_vaultCopy, bytesAt_pack_first _ _ _ (by decide), hhead]
  exact Nat.mod_eq_of_lt (vaultLen_range id).2

/-- The CRC of a copy matches what it holds. -/
theorem crc_vaultCopy : (vaultCopy id seq body).crc = crc32c (toBytes (vaultCopy id seq body).raw 12 ++
    toBytes (vaultCopy id seq body).body (vaultLen id - 16)) := by
  have hhead : toBytes (vaultCopy id seq body).raw 12 = toBytes (vaultHead id seq) 12 := by
    rw [raw_vaultCopy, ← toBytes_mod, pack_cons_mod, toBytes_mod]
  have hcrc : (vaultCopy id seq body).crc = crc32c (toBytes (vaultHead id seq) 12 ++ toBytes body (vaultLen id - 16)) % 256 ^ 4 := by
    rw [VCopy.crc, raw_vaultCopy, show 12 = 12 + 0 from rfl, bytesAt_pack_cons, bytesAt_zero, pack_cons_mod]
  rw [hcrc, hhead, body_vaultCopy, toBytes_mod]
  exact Nat.mod_eq_of_lt (crc32c_lt ((octets_toBytes _ _).append (octets_toBytes _ _)))

/-- A copy formed is valid at its place. -/
theorem ok_vaultCopy (hid : id < 2 ^ 16) : (vaultCopy id seq body).ok id = true := by
  have htorn : (vaultCopy id seq body).torn = false := rfl
  rw [VCopy.ok, htorn, id_vaultCopy id seq body hid, len_vaultCopy, ← crc_vaultCopy, beq_self_eq_true, beq_self_eq_true, beq_self_eq_true]
  rfl

end

/-! ## The current copy (R347) -/

/-- A record with the copy about to be written over torn. -/
def VRec.torn (r : VRec) (overB : Bool) : VRec := if overB then { r with b := { r.b with torn := true } } else { r with a := { r.a with torn := true } }
/-- A record with one copy replaced. -/
def VRec.written (r : VRec) (overB : Bool) (c : VCopy) : VRec := if overB then { r with b := c } else { r with a := c }
/-- SEQ of the copy that stays. -/
def VRec.stays (r : VRec) (overB : Bool) : Nat := if overB then r.a.seq else r.b.seq

theorem VCopy.ok_torn (c : VCopy) (id : Nat) : VCopy.ok { c with torn := true } id = false := rfl

theorem VCopy.seq_lt (c : VCopy) : c.seq < 2 ^ 32 := Nat.mod_lt _ (by decide)

section
variable (r : VRec) (id : Nat)

/-- Tearing the copy that is not current leaves the current one. -/
theorem VRec.current_torn : (r.torn (r.currentB id != some true)).current id = r.current id := by
  unfold VRec.torn VRec.current VRec.currentB
  cases ha : r.a.ok id with
  | true =>
    cases hb : r.b.ok id with
    | true =>
      cases hlater : seqLater r.b.seq r.a.seq with
      | true => simp [hb, VCopy.ok_torn]
      | false => simp [ha, VCopy.ok_torn]
    | false => simp [ha, VCopy.ok_torn]
  | false =>
    cases hb : r.b.ok id with
    | true => simp [hb, VCopy.ok_torn]
    | false => simp [ha, VCopy.ok_torn]

/-- The copy one SEQ later than the other is current. -/
theorem VRec.current_written (overB : Bool) {c : VCopy} (hok : c.ok id = true) (hseq : c.seq = (r.stays overB + 1) % 2 ^ 32) :
    (r.written overB c).current id = some c := by
  have ha := r.a.seq_lt
  have hb := r.b.seq_lt
  cases overB with
  | true =>
    have hlater : seqLater c.seq r.a.seq = true := by
      rw [hseq, seqLater, Bool.and_eq_true, decide_eq_true_iff, decide_eq_true_iff]
      simp only [VRec.stays, if_true]
      omega
    unfold VRec.written VRec.current VRec.currentB
    cases r.a.ok id <;> simp [hok, hlater]
  | false =>
    have hlater : seqLater r.b.seq c.seq = false := by
      rw [hseq, seqLater, Bool.and_eq_false_iff, decide_eq_false_iff_not, decide_eq_false_iff_not]
      simp only [VRec.stays, Bool.false_eq_true, if_false]
      omega
    unfold VRec.written VRec.current VRec.currentB
    cases r.b.ok id <;> simp [hok, hlater]

end

/-! ## Bodies fit their records (Table rec-1) -/

theorem lt_ite {c : Prop} [Decidable c] {a b n : Nat} (ha : c → a < n) (hb : ¬ c → b < n) : (if c then a else b) < n := by
  split
  · next h => exact ha h
  · next h => exact hb h

theorem State.vaultBody_lt (s : State) (id : Nat) : s.vaultBody id < 256 ^ (vaultLen id - 16) := by
  have hpack (fs : List (Nat × Nat)) {n : Nat} (hlen : vaultLen id = n) (h : (fs.map Prod.snd).sum + 16 ≤ n) : pack fs < 256 ^ (vaultLen id - 16) :=
    (pack_lt fs).trans_le (Nat.pow_le_pow_right (by decide) (by omega))
  have hsmall (n : Nat) (h : n < 2 ^ 32) : n < 256 ^ (vaultLen id - 16) := by
    have hlen := (vaultLen_range id).1
    have hle : 256 ^ 16 ≤ 256 ^ (vaultLen id - 16) := Nat.pow_le_pow_right (by decide) (by omega)
    exact h.trans_le ((show 2 ^ 32 ≤ 256 ^ 16 by norm_num).trans hle)
  rw [State.vaultBody]
  refine lt_ite (fun h => hpack _ (n := 64) (by rw [h]; rfl) (show 6 + 16 ≤ 64 by decide)) (fun _ => ?_)
  refine lt_ite (fun h => hpack _ (n := 64) (by rw [h]; rfl) (show 8 + (4 + (4 + (4 + (4 + 4)))) + 16 ≤ 64 by decide)) (fun _ => ?_)
  refine lt_ite (fun h => hpack _ (n := 64) (by rw [h]; rfl) (show 4 + (4 + (4 + (8 + (4 + (4 + (4 + (4 + 4))))))) + 16 ≤ 64 by decide)) (fun _ => ?_)
  refine lt_ite (fun h => hpack _ (n := 64) (by rw [h]; rfl) ?_) (fun _ => ?_)
  · rw [List.map_cons, List.sum_cons, sum_map_snd_range]
    decide
  refine lt_ite (fun h => hsmall _ ((getBits_lt _ _ _).trans_le (Nat.pow_le_pow_right (by decide) (by decide)))) (fun h5 => ?_)
  refine lt_ite (fun h => hpack _ (n := 96) (by unfold vaultLen; split_ifs <;> omega) ?_) (fun h6 => ?_)
  · rw [List.map_cons, List.sum_cons, sum_map_snd_range]
    exact (show 4 + 32 * 2 + 16 ≤ 96 by decide)
  refine lt_ite (fun h => hpack _ (n := 48) (by unfold vaultLen; split_ifs <;> omega) ?_) (fun h7 => ?_)
  · rw [sum_map_snd_range]
    decide
  refine lt_ite (fun h => hpack _ (n := 1624) (by unfold vaultLen; split_ifs <;> omega) ?_) (fun h8 => ?_)
  · rw [List.map_append, List.map_append, List.sum_append, List.sum_append, sum_map_snd_range]
    exact (show 8 + (8 + (8 + (20 + (20 + 4)))) + 256 * 6 + 4 + 16 ≤ 1624 by decide)
  refine lt_ite (fun h => hpack _ (n := 1056) (by rw [h]; rfl) ?_) (fun h9 => ?_)
  · rw [List.map_append, List.sum_append, sum_map_snd_range]
    exact (show 4 + (4 + 8) + 64 * 16 + 16 ≤ 1056 by decide)
  refine lt_ite (fun h => hpack _ (n := 1040) (by unfold vaultLen; split_ifs <;> omega) ?_) (fun h10 => ?_)
  · rw [sum_map_snd_range]
  refine lt_ite (fun h => hpack _ (n := 528) (by unfold vaultLen; split_ifs <;> omega) ?_) (fun h11 => ?_)
  · rw [sum_map_snd_range]
  refine lt_ite (fun h => hpack _ (n := 32) (by rw [h]; rfl) (show 2 + (2 + 4) + 16 ≤ 32 by decide)) (fun _ => hsmall 0 (by decide))

theorem factoryBody_lt (id : Nat) : factoryBody id < 256 ^ (vaultLen id - 16) := by
  unfold factoryBody
  split
  · exact Nat.pow_pos (by decide)
  · exact State.vaultBody_lt _ _

/-! ## Records read -/

section
variable (s : State) (id : Nat)

/-- The factory's copy A is current. -/
theorem current_factory (hid : id < 2 ^ 16) :
    VRec.current ⟨vaultCopy id 1 (factoryBody id), vaultCopy id 0 (factoryBody id)⟩ id = some (vaultCopy id 1 (factoryBody id)) := by
  have hlater : seqLater (vaultCopy id 0 (factoryBody id)).seq (vaultCopy id 1 (factoryBody id)).seq = false := by
    rw [seq_vaultCopy, seq_vaultCopy]
    decide
  rw [VRec.current, VRec.currentB, ok_vaultCopy id 1 _ hid, ok_vaultCopy id 0 _ hid, hlater]
  rfl

/-- What is read of a record is the body of its current copy. -/
theorem State.vaultRead_eq (hid : id < 2 ^ 16) : s.vaultRead id = ((s.vrec id).current id).map VCopy.body := by
  rw [State.vaultRead, State.vrec]
  cases SMap.get s.vault.recs none id with
  | some r => rfl
  | none =>
    dsimp only
    rw [current_factory id hid, Option.map_some, body_vaultCopy, Nat.mod_eq_of_lt (factoryBody_lt id)]

theorem State.vaultRead_setVrec_same (r : VRec) : (s.setVrec id r).vaultRead id = (r.current id).map VCopy.body := by
  rw [State.vaultRead, State.setVrec, SMap.get_set_same]

theorem State.vaultRead_setVrec_other (r : VRec) {k : Nat} (h : k ≠ id) : (s.setVrec id r).vaultRead k = s.vaultRead k := by
  rw [State.vaultRead, State.vaultRead, State.setVrec, SMap.get_set_other _ _ _ _ _ _ h]

theorem State.vaultCurrent_setVrec_same (r : VRec) : (s.setVrec id r).vaultCurrent id = r.current id := by
  rw [State.vaultCurrent, State.setVrec, SMap.get_set_same]

/-- A record rewritten with the same current copy reads as before. -/
theorem State.vaultRead_setVrec_current (hid : id < 2 ^ 16) {r : VRec} (h : r.current id = (s.vrec id).current id) (k : Nat) :
    (s.setVrec id r).vaultRead k = s.vaultRead k := by
  by_cases hk : k = id
  · rw [hk, State.vaultRead_setVrec_same, h, s.vaultRead_eq id hid]
  · exact s.vaultRead_setVrec_other id r hk

end

end Sys2Proof.Machine
end

section
/-!
PROOFS. Writes of the Vault, its check at a start, and PWRFAIL_N (R345 to R350, R353, R366).
-/

namespace Sys2Proof.Machine
open Sys2Proof.Claims

/-! ## A write begins (R348, R349) -/

section
variable (s : State)

theorem State.vault_vaultCaptured (id : Nat) : (s.vaultCaptured id).vault = s.vault := by rw [s.vaultCaptured_eq]

theorem State.vaultBegin_idle (hcur : s.vault.cur = none) (hqueue : s.vault.queue = []) : s.vaultBegin = s := by
  rw [State.vaultBegin, hcur, hqueue]

/-- The write that begins: over the copy that is not current, which is torn. -/
theorem State.vault_vaultBegin {q : VReq} {rest : List VReq} (hcur : s.vault.cur = none) (hqueue : s.vault.queue = q :: rest) :
    s.vaultBegin.vault = { (s.setVrec q.id ((s.vrec q.id).torn ((s.vrec q.id).currentB q.id != some true))).vault with
      queue := rest, cur := some ⟨q.id, (s.vrec q.id).currentB q.id != some true, s.vaultBody q.id, q.flush⟩ } := by
  rw [State.vaultBegin, hcur, hqueue]
  dsimp only
  rw [State.vault_vaultCaptured]
  cases (s.vrec q.id).currentB q.id with
  | none => rfl
  | some b => cases b <;> rfl

theorem State.vaultRead_recs {t : State} (h : t.vault.recs = s.vault.recs) (k : Nat) : t.vaultRead k = s.vaultRead k := by
  rw [State.vaultRead, State.vaultRead, h]

theorem State.vaultCurrent_recs {t : State} (h : t.vault.recs = s.vault.recs) (k : Nat) : t.vaultCurrent k = s.vaultCurrent k := by
  rw [State.vaultCurrent, State.vaultCurrent, h]

/-- A write that begins leaves every record readable as it was. -/
theorem State.vaultRead_vaultBegin (hids : ∀ q ∈ s.vault.queue, q.id < 2 ^ 16) (k : Nat) : s.vaultBegin.vaultRead k = s.vaultRead k := by
  by_cases hcur : s.vault.cur = none
  · cases hqueue : s.vault.queue with
    | nil => rw [s.vaultBegin_idle hcur hqueue]
    | cons q rest =>
      have hid : q.id < 2 ^ 16 := hids q (by rw [hqueue]; exact .head _)
      have hrecs : s.vaultBegin.vault.recs = (s.setVrec q.id ((s.vrec q.id).torn ((s.vrec q.id).currentB q.id != some true))).vault.recs := by
        rw [s.vault_vaultBegin hcur hqueue]
      rw [State.vaultRead_recs _ hrecs]
      exact s.vaultRead_setVrec_current q.id hid (VRec.current_torn _ _) k
  · rw [s.vaultBegin_busy hcur]

theorem mem_vaultIds_lt (id : Nat) (h : id ∈ vaultIds) : id < 2 ^ 16 := by
  simp only [vaultIds, List.mem_append, List.mem_map, List.mem_range, List.mem_cons, List.not_mem_nil, or_false] at h
  rcases h with ((((((h | ⟨k, hk, rfl⟩) | ⟨k, hk, rfl⟩) | ⟨k, hk, rfl⟩) | h) | ⟨k, hk, rfl⟩) | ⟨k, hk, rfl⟩) | h <;> omega

theorem vaultRecordWrite_begins {q : VReq} {rest : List VReq} (hup : s.aonUp = true) (hcur : s.vault.cur = none)
    (hqueue : s.vault.queue = q :: rest) (hid : q.id ∈ vaultIds) : Does .vaultRecordWrite s (fun t =>
      ∃ w, t.vault.cur = some w ∧ w.id = q.id ∧ w.flush = q.flush ∧ w.body = s.vaultBody q.id ∧ t.vault.queue = rest ∧
        ∀ k, t.vaultRead k = s.vaultRead k) := by
  have hvault := s.vault_vaultBegin hcur hqueue
  refine ⟨_, if_pos hup, _, by rw [hvault], rfl, rfl, rfl, by rw [hvault], fun k => ?_⟩
  have hrecs : s.vaultBegin.vault.recs = (s.setVrec q.id ((s.vrec q.id).torn ((s.vrec q.id).currentB q.id != some true))).vault.recs := by rw [hvault]
  rw [State.vaultRead_recs _ hrecs]
  exact s.vaultRead_setVrec_current q.id (mem_vaultIds_lt _ hid) (VRec.current_torn _ _) k

end

/-! ## A write ends (R348, R349) -/

section
variable {s : State} {w : VWrite} (hcur : s.vault.cur = some w)
include hcur

/-- The state after a write that read back as written. -/
theorem State.vaultEnd_good : s.vaultEnd true = { s with vault :=
    { (s.setVrec w.id ((s.vrec w.id).written w.overB (vaultCopy w.id ((s.vrec w.id).stays w.overB + 1) w.body))).vault with cur := none } } := by
  rw [State.vaultEnd, hcur]
  rfl

theorem exec_vaultWriteComplete (ok : Bool) : exec (.vaultWriteComplete ok) s =
    .next (((if w.flush then (s.vaultEnd ok).flushed w.id else s.vaultEnd ok).flcResume).vaultBegin) := by
  rw [show exec (.vaultWriteComplete ok) s = execVaultWriteComplete ok s from rfl, execVaultWriteComplete, hcur]

omit hcur in
/-- With no flush in progress and no completion held back, the end of a write sets nothing else going. -/
theorem State.resumed_quiet {u : State} (hflush : u.on Reg.REC_STATUS.FLUSHING = false) (hpend : u.flc.pend = none) :
    (if w.flush then u.flushed w.id else u).flcResume = u := by
  have hflushed : u.flushed w.id = u := by rw [State.flushed, hflush]; rfl
  rw [hflushed, ite_self, State.flcResume, hpend]

theorem vaultWriteComplete_good (hqueue : s.vault.queue = []) (hflush : s.on Reg.REC_STATUS.FLUSHING = false) (hpend : s.flc.pend = none)
    (hid : w.id ∈ vaultIds) : Does (.vaultWriteComplete true) s (fun t => t = { s with vault := t.vault } ∧ t.vault.cur = none ∧
      t.vaultRead w.id = some (w.body % 256 ^ (vaultLen w.id - 16)) ∧
      (∃ c, t.vaultCurrent w.id = some c ∧ c.id = w.id ∧ c.len = vaultLen w.id ∧ c.crc = crc32c (toBytes c.raw 12 ++ toBytes c.body (vaultLen w.id - 16))) ∧
      ∀ k, k ≠ w.id → t.vaultRead k = s.vaultRead k) := by
  have hlt := mem_vaultIds_lt _ hid
  have hnew := VRec.current_written (s.vrec w.id) w.id w.overB (c := vaultCopy w.id ((s.vrec w.id).stays w.overB + 1) w.body)
    (ok_vaultCopy _ _ _ hlt) (seq_vaultCopy _ _ _)
  have hexec := exec_vaultWriteComplete hcur true
  rw [State.vaultEnd_good hcur] at hexec
  generalize hc : vaultCopy w.id ((s.vrec w.id).stays w.overB + 1) w.body = c at hexec hnew
  generalize (s.vrec w.id).written w.overB c = r at hexec hnew
  generalize hu : ({ s with vault := { (s.setVrec w.id r).vault with cur := none } } : State) = u at hexec
  have honly : u = { s with vault := u.vault } := by rw [← hu]
  have hrecs : u.vault.recs = (s.setVrec w.id r).vault.recs := by rw [← hu]
  have hidle : u.vault.cur = none ∧ u.vault.queue = [] := by rw [← hu]; exact ⟨rfl, hqueue⟩
  have huflush : u.on Reg.REC_STATUS.FLUSHING = false := by rw [← hu]; exact hflush
  rw [State.resumed_quiet huflush (by rw [honly]; exact hpend), State.vaultBegin_idle _ hidle.1 hidle.2] at hexec
  refine ⟨u, hexec, honly, hidle.1, ?_, ⟨c, ?_, ?_, ?_, ?_⟩, fun k hk => ?_⟩
  · rw [State.vaultRead_recs _ hrecs, State.vaultRead_setVrec_same, hnew, Option.map_some, ← hc, body_vaultCopy]
  · rw [State.vaultCurrent_recs _ hrecs, State.vaultCurrent_setVrec_same, hnew]
  · rw [← hc, id_vaultCopy _ _ _ hlt]
  · rw [← hc, len_vaultCopy]
  · rw [← hc]
    exact crc_vaultCopy _ _ _
  · rw [State.vaultRead_recs _ hrecs]
    exact s.vaultRead_setVrec_other _ _ hk

/-- A verify failure: VAULT_FAULT, a ledger entry and an EVENT record. -/
theorem State.vaultEnd_bad : s.vaultEnd false = ((({ s with vault := { s.vault with cur := none } }.wf Reg.AON_STATUS.VAULT_FAULT 1).ledgerEntry 4 w.id
    (b2n w.overB)).evRecord 8 w.id (b2n w.overB)) := by
  rw [State.vaultEnd, hcur]
  rfl

omit hcur in
@[simp] theorem State.total_evRecord (u : State) (code a0 a1 a2 : Nat) : (u.evRecord code a0 a1 a2).record.total = u.record.total := by
  rw [State.evRecord]
  split
  · rw [(u.loseRecords_eq 1).2]
  · rfl

omit hcur in
theorem ledgerEntry_shows (u : State) (kind a0 a1 : Nat) : (u.ledgerEntry kind a0 a1).record.total = min (2 ^ 32 - 1) (u.record.total + 1) ∧
    (u.ledgerEntry kind a0 a1).vault = { u.vault with queue := u.vault.queue ++ [⟨0x300, false⟩] } ∧ (u.ledgerEntry kind a0 a1).flc = u.flc ∧
    ∀ a, (u.ledgerEntry kind a0 a1).reg a = u.reg a := ⟨rfl, rfl, rfl, fun _ => rfl⟩

theorem vaultWriteComplete_bad (hqueue : s.vault.queue = []) (hflush : s.on Reg.REC_STATUS.FLUSHING = false) (hpend : s.flc.pend = none) :
    Does (.vaultWriteComplete false) s (fun t => t.on Reg.AON_STATUS.VAULT_FAULT = true ∧
      t.record.total = min (2 ^ 32 - 1) (s.record.total + 1) ∧ ∀ k, t.vaultRead k = s.vaultRead k) := by
  have hexec := exec_vaultWriteComplete hcur false
  rw [State.vaultEnd_bad hcur] at hexec
  generalize hx : { s with vault := { s.vault with cur := none } }.wf Reg.AON_STATUS.VAULT_FAULT 1 = x at hexec
  have hxregs : Regs { s with vault := { s.vault with cur := none } } x [Reg.AON_STATUS_at] [] := hx ▸ (regs_refl _ _).wf _ _ (.head _)
  have hxeq := hxregs.eq_io
  have hxon : x.on Reg.AON_STATUS.VAULT_FAULT = true := by
    rw [← hx]
    exact State.on_wf_b2n _ true Reg.AON_STATUS.VAULT_FAULT (by decide) rfl
  have hxflush : x.reg Reg.REC_STATUS_at = s.reg Reg.REC_STATUS_at := hxregs.2 _ (by decide)
  obtain ⟨htotal, hvault, hflc, hregs⟩ := ledgerEntry_shows x 4 w.id (b2n w.overB)
  generalize x.ledgerEntry 4 w.id (b2n w.overB) = y at hexec htotal hvault hflc hregs
  have hev := y.evRecord_eq 8 w.id (b2n w.overB) 0
  have hevreg (a : Nat) (ha : a ≠ Reg.REC_LOST_at) := y.reg_evRecord 8 w.id (b2n w.overB) 0 a ha
  have hevtotal := y.total_evRecord 8 w.id (b2n w.overB) 0
  generalize y.evRecord 8 w.id (b2n w.overB) 0 = u at hexec hev hevreg hevtotal
  have huvault : u.vault = { s.vault with cur := none, queue := [⟨0x300, false⟩] } := by
    rw [hev]
    show y.vault = _
    rw [hvault, hxeq]
    show ({ s.vault with cur := none, queue := s.vault.queue ++ [⟨0x300, false⟩] } : Vault) = _
    rw [hqueue]
    rfl
  have huflc : u.flc = s.flc := by
    rw [hev]
    show y.flc = _
    rw [hflc, hxeq]
  have huflush : u.on Reg.REC_STATUS.FLUSHING = false := by
    rw [State.on, rf_congr (f := Reg.REC_STATUS.FLUSHING) ((hevreg _ (by decide)).trans ((hregs _).trans hxflush))]
    exact hflush
  rw [State.resumed_quiet huflush (by rw [huflc]; exact hpend)] at hexec
  refine ⟨_, hexec, ?_, ?_, fun k => ?_⟩
  · rw [State.on_vaultBegin, State.on, rf_congr (f := Reg.AON_STATUS.VAULT_FAULT) ((hevreg _ (by decide)).trans (hregs _))]
    exact hxon
  · have hkept : u.vaultBegin.record.total = u.record.total := by rw [u.vaultBegin_eq]
    rw [hkept, hevtotal, htotal, hxeq]
  · have hids : ∀ q ∈ u.vault.queue, q.id < 2 ^ 16 := by
      rw [huvault]
      intro q hq
      rw [List.mem_singleton.1 hq]
      decide
    rw [State.vaultRead_vaultBegin u hids]
    exact State.vaultRead_recs s (by rw [huvault]) k

end

/-! ## The check at a start (R350, R353) -/

/-- Operating seconds and power cycles. -/
def State.times (s : State) : Nat × Nat := (s.record.opsec, s.record.cycles)

section
variable (s : State)

theorem State.times_wf (f : Fd) (v : Nat) : (s.wf f v).times = s.times := rfl
theorem State.times_setReg (a : Nat) (v : Word) : (s.setReg a v).times = s.times := rfl
theorem State.times_raiseIf (e en : Fd) : (s.raiseIf e en).times = s.times := by rw [s.raiseIf_eq]; rfl
theorem State.times_onPar (f : Par → Par) : (s.onPar f).times = s.times := rfl
theorem State.times_vaultQueue (id : Nat) : (s.vaultQueue id).times = s.times := rfl
theorem State.times_vaultBegin : s.vaultBegin.times = s.times := by rw [s.vaultBegin_eq]; rfl
theorem State.times_setChan (n : Nat) (c : Chan) : (s.setChan n c).times = s.times := rfl
theorem State.times_ledgerEntry (kind a0 a1 : Nat) : (s.ledgerEntry kind a0 a1).times = s.times := rfl

theorem State.times_loseRecords (n : Nat) : (s.loseRecords n).times = s.times := by
  have hrec : (s.loseRecords n).record = { s.record with lost := min (2 ^ 32 - 1) (s.record.lost + n) } := by rw [(s.loseRecords_eq n).2]
  rw [State.times, State.times, hrec]

theorem State.times_evRecord (code a0 a1 a2 : Nat) : (s.evRecord code a0 a1 a2).times = s.times := by
  rw [State.evRecord]
  split
  · exact s.times_loseRecords 1
  · rfl

theorem times_foldl {α : Type} {f : State → α → State} (h : ∀ s a, (f s a).times = s.times) (l : List α) : (l.foldl f s).times = s.times := by
  induction l generalizing s with
  | nil => rfl
  | cons a l ih => exact (ih _).trans (h s a)

theorem State.times_loadSeal : s.loadSeal.times = s.times := by
  unfold State.loadSeal
  split
  · rfl
  · dsimp only
    rw [State.times_onPar, State.times_setReg, State.times_wf, State.times_wf, State.times_wf, State.times_wf, State.times_wf]

theorem State.times_loadSet (k : Nat) : (s.loadSet k).times = s.times := by
  unfold State.loadSet
  split
  · rfl
  · dsimp only
    rw [times_foldl _ (fun u i => u.times_wf _ _), State.times_wf, State.times_wf]

theorem State.times_loadChCfg (n : Nat) : (s.loadChCfg n).times = s.times := by
  unfold State.loadChCfg
  split
  · rfl
  · exact times_foldl _ (fun u i => u.times_setReg _ _) _

theorem State.times_loadChan (n : Nat) : (s.loadChan n).times = s.times := s.times_setChan n _

theorem State.times_loadLedger : s.loadLedger.times = s.times := by
  unfold State.loadLedger
  split <;> rfl

theorem State.times_noteLost (id : Nat) : (s.noteLost id).times = s.times := by
  rw [State.noteLost, State.times_ledgerEntry, State.times_wf]

theorem State.times_recordSeal : s.recordSeal.times = s.times := by
  unfold State.recordSeal
  split
  · rfl
  · split
    · rfl
    · dsimp only
      rw [State.times_vaultBegin, State.times_raiseIf, State.times_evRecord, State.times_vaultQueue, State.times_onPar, State.times_wf, State.times_wf,
        State.times_wf, State.times_wf, State.times_wf]

theorem State.times_checkSeal : s.checkSeal.times = s.times := by
  have hlost : (if s.par.vbatLost then ((s.onPar (fun p => { p with vbatLost := false, losses := min (2 ^ 32 - 1) (p.losses + 1) })).wf
      Reg.PAR_STATUS.VBAT_LOST 1).vaultQueue 3 else s).times = s.times := by
    split
    · rw [State.times_vaultQueue, State.times_wf, State.times_onPar]
    · rfl
  rw [State.checkSeal, State.times_recordSeal]
  generalize (if s.par.vbatLost then ((s.onPar (fun p => { p with vbatLost := false, losses := min (2 ^ 32 - 1) (p.losses + 1) })).wf
      Reg.PAR_STATUS.VBAT_LOST 1).vaultQueue 3 else s) = x at hlost
  split
  · rw [State.times_evRecord, State.times_vaultQueue, State.times_onPar, hlost]
  · exact hlost

theorem State.times_deckReady : s.deckReady.times = s.times := times_foldl _ (fun u _ => u.times_wf _ _) _

/-- TIMEBASE read at a start. -/
theorem State.times_loadShadows {w : Nat} (h : s.vaultRead 2 = some w) : s.loadShadows.times = (bytesAt w 0 5, bytesAt w 8 4) := by
  rw [State.loadShadows]
  generalize hu : (s.wf Reg.REC_VAULT_STATUS.REPAIRED (min 255 s.vaultHalf.length)).wf Reg.REC_VAULT_STATUS.LOST (min 255 s.vaultLost.length) = u
  have hvault : u.vault = s.vault := by
    rw [← hu]
    exact (vault_setReg _ _ _).trans (vault_setReg _ _ _)
  have hbase : u.loadTimebase.times = (bytesAt w 0 5, bytesAt w 8 4) := by rw [State.loadTimebase, vaultRead_congr hvault, h]; rfl
  rw [times_foldl _ State.times_noteLost, State.times_loadLedger, times_foldl _ State.times_loadChan, times_foldl _ State.times_loadChCfg,
    times_foldl _ State.times_loadSet]
  refine Eq.trans ?_ ((State.times_loadSeal _).trans hbase)
  split <;> rfl

theorem vaultCheck_por {s : State} (hsys : s.boot.sys = false) {y : State}
    (hy : (s.loadShadows.onRec (fun r => { r with cycles := min (2 ^ 32 - 1) (r.cycles + 1) })).checkSeal.deckReady = y) :
    s.vaultCheck [] = ({ y with boot := { y.boot with phase := .checked } }.vaultQueue 2).vaultBegin := by
  subst hy
  rw [State.vaultCheck, hsys]
  rfl

variable {s} (hphase : s.boot.phase = .start)
include hphase

omit hphase in
theorem vaultCheck_waits (hspll : s.rf Reg.SPLL_STATUS.STATE = 0) (flips : List (Nat × Bool × Nat)) : Does (.vaultCheck flips) s (fun t => t = s) :=
  ⟨s, if_neg (fun h => h.2.2.2 hspll), rfl⟩

variable (hkey : s.spll.key = .none) (hheld : s.held.any = false) (hspll : s.rf Reg.SPLL_STATUS.STATE ≠ 0)
include hkey hheld hspll

theorem exec_vaultCheck (flips : List (Nat × Bool × Nat)) : exec (.vaultCheck flips) s = .next (s.vaultCheck flips) :=
  if_pos ⟨hphase, hkey, by rw [hheld]; rfl, hspll⟩

theorem vaultCheck_counts (hsys : s.boot.sys = true) : Does (.vaultCheck []) s (fun t => t.boot.phase = .checked ∧
    t.record.resets = min (2 ^ 32 - 1) (s.record.resets + 1)) := by
  refine ⟨_, exec_vaultCheck hphase hkey hheld hspll [], ?_⟩
  rw [State.vaultCheck, hsys]
  rw [if_pos rfl, State.vaultBegin_eq]
  exact ⟨rfl, rfl⟩

theorem vaultCheck_loads (hsys : s.boot.sys = false) {w : Nat} (hw : s.vaultRead 2 = some w) : Does (.vaultCheck []) s (fun t =>
    t.boot.phase = .checked ∧ t.record.opsec = bytesAt w 0 5 ∧ t.record.cycles = min (2 ^ 32 - 1) (bytesAt w 8 4 + 1)) := by
  have hload := s.times_loadShadows hw
  obtain ⟨hop, hcyc⟩ := Prod.mk.inj hload
  refine ⟨_, exec_vaultCheck hphase hkey hheld hspll [], ?_⟩
  have hpor := vaultCheck_por hsys rfl
  generalize s.loadShadows = x at hop hcyc hpor
  have htimes : ((x.onRec (fun r => { r with cycles := min (2 ^ 32 - 1) (r.cycles + 1) })).checkSeal.deckReady).times =
      (bytesAt w 0 5, min (2 ^ 32 - 1) (bytesAt w 8 4 + 1)) := by
    rw [State.times_deckReady, State.times_checkSeal, ← hop, ← hcyc]
    rfl
  generalize (x.onRec (fun r => { r with cycles := min (2 ^ 32 - 1) (r.cycles + 1) })).checkSeal.deckReady = y at htimes hpor
  obtain ⟨hyop, hycyc⟩ := Prod.mk.inj htimes
  rw [hpor, State.vaultBegin_eq]
  exact ⟨rfl, hyop, hycyc⟩

end

theorem State.on_onFlc (s : State) (x : Flc → Flc) (f : Fd) : (s.onFlc x).on f = s.on f := rfl

/-! ## What a start on the die leaves of FLC_STATUS -/

section
variable {f : Fd} (hf : f.addr = Reg.FLC_STATUS_at)
include hf

theorem on_recount (s : State) : s.recount.on f = s.on f := (flcOnly_of_regs (recount_regs s)).on f (by rw [hf]; decide)

theorem on_intendTgt (s : State) : s.intendTgt.on f = s.on f := by
  rw [State.intendTgt, on_recount hf]
  split <;> rfl

omit hf in
theorem on_enterBlock (s : State) (b : Nat) : (s.enterBlock b).on f = s.on f := by
  obtain ⟨d, hd⟩ := enterBlock_eq s b
  rw [hd]
  rfl

/-- An operation that starts shows DIE_BUSY alone. -/
theorem on_flcStart (s : State) (j : FJob) (h : f.lo + f.width ≤ 3 ∨ 4 ≤ f.lo) : (s.flcStart j).on f = s.on f := by
  have hdie := onDie_on s j f (.inr h)
  unfold State.flcStart
  dsimp only
  split
  · rw [on_recount hf]
    refine Eq.trans ?_ hdie
    rw [State.on_onFlc]
    split
    · rfl
    · exact on_enterBlock _ _
  · exact (on_intendTgt hf _).trans hdie
  · exact (on_intendTgt hf _).trans hdie
  · refine (on_intendTgt hf _).trans ((State.on_wf_other _ _ _ _ (.inl ?_)).trans hdie)
    rw [hf]
    decide
  · exact hdie
  · exact hdie
  · exact hdie
  · exact hdie

theorem on_flcGrant (s : State) (h : f.lo + f.width ≤ 3 ∨ 4 ≤ f.lo) : s.flcGrant.on f = s.on f := by
  unfold State.flcGrant
  split
  · rfl
  · split
    · exact on_flcStart hf s _ h
    · rfl

end

/-! ## PWRFAIL_N (R345, R366) -/

section
variable (s : State)

/-- What a flush leaves alone: REC_STATUS but for FLUSHING, other registers, and the counts of power failures. -/
theorem flush_keeps : s.flush.pwrLow = s.pwrLow ∧ s.flush.record.pwrfails = s.record.pwrfails ∧ s.flush.flc = s.flc ∧
    s.flush.on Reg.REC_STATUS.PWRFAIL = s.on Reg.REC_STATUS.PWRFAIL ∧ ∀ a, a ≠ Reg.REC_STATUS_at → s.flush.reg a = s.reg a := by
  unfold State.flush
  split
  · exact ⟨rfl, rfl, rfl, rfl, fun _ _ => rfl⟩
  · dsimp only
    generalize hx : (if s.record.lostNoted < s.record.lost then
      (s.ledgerNote 3 (s.record.lost - s.record.lostNoted) 0).onRec (fun r => { r with lostNoted := r.lost }) else s) = x
    have hkept : x.pwrLow = s.pwrLow ∧ x.record.pwrfails = s.record.pwrfails ∧ x.flc = s.flc ∧ x.io = s.io := by
      rw [← hx]
      split <;> exact ⟨rfl, rfl, rfl, rfl⟩
    obtain ⟨hlow, hfails, hflc, hio⟩ := hkept
    have hxreg (a : Nat) : x.reg a = s.reg a := by rw [State.reg, State.reg, hio]
    generalize [2] ++ (x.record.dirty.mergeSort (· ≤ ·)).map (0x200 + ·) ++ (if x.record.dirtyLedger then [0x300] else []) = ids
    have hregs := (regs_refl (x.vaultFlush ids) [Reg.REC_STATUS_at]).wf Reg.REC_STATUS.FLUSHING 1 (.head _)
    have hpwr : ((x.vaultFlush ids).wf Reg.REC_STATUS.FLUSHING 1).on Reg.REC_STATUS.PWRFAIL = x.on Reg.REC_STATUS.PWRFAIL :=
      (x.vaultFlush ids).on_wf_other _ _ _ (by decide)
    generalize (x.vaultFlush ids).wf Reg.REC_STATUS.FLUSHING 1 = u at hregs hpwr
    have hu := hregs.eq_io
    refine ⟨?_, ?_, ?_, ?_, fun a ha => ?_⟩
    · rw [State.vaultBegin_eq]
      show u.pwrLow = _
      rw [hu]
      exact hlow
    · rw [State.vaultBegin_eq]
      show u.record.pwrfails = _
      rw [hu]
      exact hfails
    · rw [State.vaultBegin_eq]
      show u.flc = _
      rw [hu]
      exact hflc
    · rw [State.on_vaultBegin, State.on_onRec, hpwr, State.on, rf_congr (hxreg _)]
      rfl
    · rw [State.reg_vaultBegin, State.reg_onRec, hregs.2 a (fun hm => ha (List.mem_singleton.1 hm))]
      exact hxreg a

theorem pwrfailAssert_shows (hlow : s.pwrLow = false) (hup : s.aonUp = true) (hcur : s.flc.cur = none) (hqueue : s.flc.queue = []) :
    Does .pwrfailAssert s (fun t => t.pwrLow = true ∧ t.record.pwrfails = min (2 ^ 32 - 1) (s.record.pwrfails + 1) ∧
      t.on Reg.REC_STATUS.PWRFAIL = true ∧ t.on Reg.AON_STATUS.PWRFAIL = true ∧ t.on Reg.FLC_STATUS.PWRFAIL = true) := by
  have hexec : exec .pwrfailAssert s = .next s.pwrfail :=
    (if_neg (by rw [hlow]; exact Bool.false_ne_true)).trans (if_neg (by rw [hup]; exact Bool.false_ne_true))
  rw [State.pwrfail] at hexec
  generalize hx : (s.wf Reg.REC_STATUS.PWRFAIL 1).wf Reg.AON_STATUS.PWRFAIL 1 = x at hexec
  have hrec : x.on Reg.REC_STATUS.PWRFAIL = true := by
    rw [← hx, State.on_wf_other _ _ _ _ (by decide)]
    exact s.on_wf_b2n true Reg.REC_STATUS.PWRFAIL (by decide) rfl
  have haon : x.on Reg.AON_STATUS.PWRFAIL = true := by
    rw [← hx]
    exact State.on_wf_b2n _ true Reg.AON_STATUS.PWRFAIL (by decide) rfl
  have honly : x = { s with io := x.io } := by
    rw [← hx]
    exact (((regs_refl s [Reg.REC_STATUS_at, Reg.AON_STATUS_at]).wf _ _ (by decide)).wf _ _ (by decide)).eq_io
  generalize hy : ({ x.onRec (fun r => { r with due := [], pwrfails := min (2 ^ 32 - 1) (r.pwrfails + 1), pwrUs := 0, losing := true }) with
    pwrLow := true } : State) = y at hexec
  have hylow : y.pwrLow = true := by rw [← hy]
  have hyflc : y.flc = s.flc := by rw [← hy, honly]; rfl
  have hyfails : y.record.pwrfails = min (2 ^ 32 - 1) (s.record.pwrfails + 1) := by rw [← hy, honly]; rfl
  have hyon (f : Fd) : y.on f = x.on f := by rw [← hy]; rfl
  obtain ⟨hflow, hffails, hfflc, hfpwr, hfreg⟩ := flush_keeps y
  generalize y.flush = f at hexec hflow hffails hfflc hfpwr hfreg
  generalize hg : (if f.online islPanel && f.refSavable then f.vaultQueue 4 else f) = g at hexec
  have hgkept : g.pwrLow = f.pwrLow ∧ g.record = f.record ∧ g.flc = f.flc ∧ g.io = f.io := by
    rw [← hg]
    split <;> exact ⟨rfl, rfl, rfl, rfl⟩
  obtain ⟨hglow, hgrec, hgflc, hgio⟩ := hgkept
  have hgon (e : Fd) : g.on e = f.on e := by rw [State.on, State.on, State.rf, State.rf, State.reg, State.reg, hgio]
  have hfail : g.flcPowerFail = g.wf Reg.FLC_STATUS.PWRFAIL 1 := by
    have hflc : (g.wf Reg.FLC_STATUS.PWRFAIL 1).flc = s.flc := by
      show g.flc = _
      rw [hgflc, hfflc, hyflc]
    rw [State.flcPowerFail, hflc, hcur]
    dsimp only
    rw [hflc, hqueue]
    rfl
  rw [hfail] at hexec
  have hwregs := (regs_refl g [Reg.FLC_STATUS_at]).wf Reg.FLC_STATUS.PWRFAIL 1 (.head _)
  have hwon : (g.wf Reg.FLC_STATUS.PWRFAIL 1).on Reg.FLC_STATUS.PWRFAIL = true := g.on_wf_b2n true Reg.FLC_STATUS.PWRFAIL (by decide) rfl
  generalize g.wf Reg.FLC_STATUS.PWRFAIL 1 = z at hexec hwregs hwon
  have hz := hwregs.eq_io
  have hzon (e : Fd) (he : e.addr ≠ Reg.FLC_STATUS_at) : z.on e = g.on e := by
    rw [State.on, State.on, rf_congr (hwregs.2 _ (fun hm => he (List.mem_singleton.1 hm)))]
  refine ⟨_, hexec, ?_, ?_, ?_, ?_, ?_⟩
  · rw [State.vaultBegin_eq]
    show z.pwrLow = true
    rw [hz]
    exact hglow.trans (hflow.trans hylow)
  · rw [State.vaultBegin_eq]
    show z.record.pwrfails = _
    rw [hz]
    show g.record.pwrfails = _
    rw [hgrec, hffails, hyfails]
  · rw [State.on_vaultBegin, hzon _ (by decide), hgon, hfpwr, hyon, hrec]
  · rw [State.on_vaultBegin, hzon _ (by decide), hgon, State.on, rf_congr (f := Reg.AON_STATUS.PWRFAIL) (hfreg _ (by decide))]
    exact (hyon _).trans haon
  · rw [State.on_vaultBegin, hwon]

theorem pwrfailDeassert_records (hlow : s.pwrLow = true) (hup : s.aonUp = true) (hroom : s.record.events.length < 128) :
    Does .pwrfailDeassert s (fun t => t.pwrLow = false ∧ t.on Reg.REC_STATUS.PWRFAIL = false ∧ t.on Reg.AON_STATUS.PWRFAIL = false ∧
      t.on Reg.FLC_STATUS.PWRFAIL = false ∧ ∃ e, t.record.events = s.record.events ++ [e] ∧ e.code = 9 ∧ e.a0 = min (2 ^ 32 - 1) s.record.pwrUs) := by
  have hexec : exec .pwrfailDeassert s = .next s.pwrGood :=
    (if_neg (by rw [hlow]; exact Bool.false_ne_true)).trans (if_neg (by rw [hup]; exact Bool.false_ne_true))
  rw [State.pwrGood] at hexec
  generalize hx : ({ s with pwrLow := false } : State).showPwrfail false = x at hexec
  rw [State.showPwrfail] at hx
  have honly : x = { s with pwrLow := false, io := x.io } := by
    rw [← hx]
    exact ((((regs_refl { s with pwrLow := false } [Reg.REC_STATUS_at, Reg.AON_STATUS_at, Reg.FLC_STATUS_at]).wf _ _ (by decide)).wf _ _
      (by decide)).wf _ _ (by decide)).eq_io
  have hrec : x.on Reg.REC_STATUS.PWRFAIL = false := by
    rw [← hx, State.on_wf_other _ _ _ _ (by decide), State.on_wf_other _ _ _ _ (by decide)]
    exact State.on_wf_b2n _ false Reg.REC_STATUS.PWRFAIL (by decide) rfl
  have haon : x.on Reg.AON_STATUS.PWRFAIL = false := by
    rw [← hx, State.on_wf_other _ _ _ _ (by decide)]
    exact State.on_wf_b2n _ false Reg.AON_STATUS.PWRFAIL (by decide) rfl
  have hflc : x.on Reg.FLC_STATUS.PWRFAIL = false := by
    rw [← hx]
    exact State.on_wf_b2n _ false Reg.FLC_STATUS.PWRFAIL (by decide) rfl
  have hxrec : x.record = s.record := by rw [honly]
  have hxlow : x.pwrLow = false := by rw [honly]
  obtain ⟨e, hevents, hcode, ha0, -, -⟩ := recorded_evRecord s 9 (min (2 ^ 32 - 1) x.record.pwrUs) 0 0 hroom hxrec
  have hev := x.evRecord_eq 9 (min (2 ^ 32 - 1) x.record.pwrUs) 0 0
  have hevon (f : Fd) (hf : f.addr ≠ Reg.REC_LOST_at) : (x.evRecord 9 (min (2 ^ 32 - 1) x.record.pwrUs) 0 0).on f = x.on f := by
    rw [State.on, State.on, x.rf_evRecord _ _ _ _ _ hf]
  generalize x.evRecord 9 (min (2 ^ 32 - 1) x.record.pwrUs) 0 0 = y at hexec hevents hev hevon
  have hgrant := flcGrant_flcOnly y
  have hpwr := on_flcGrant (f := Reg.FLC_STATUS.PWRFAIL) rfl y (by decide)
  generalize y.flcGrant = t at hexec hgrant hpwr
  have htrec : t.record = y.record := by rw [hgrant.1]
  have htlow : t.pwrLow = y.pwrLow := by rw [hgrant.1]
  refine ⟨t, hexec, ?_, ?_, ?_, ?_, e, ?_, hcode, ?_⟩
  · rw [htlow, hev]
    exact hxlow
  · rw [hgrant.on _ (by decide), hevon _ (by decide), hrec]
  · rw [hgrant.on _ (by decide), hevon _ (by decide), haon]
  · rw [hpwr, hevon _ (by decide), hflc]
  · rw [htrec, hevents]
  · have hlt : min (2 ^ 32 - 1) s.record.pwrUs < 2 ^ 32 := (Nat.min_le_left _ _).trans_lt (by decide)
    rw [ha0, hxrec, Nat.mod_eq_of_lt hlt]

end

/-- Settles O41: a record reads the same while its copy that is not current is torn, and the new copy is one SEQ later than the other. -/
theorem vaultAndPowerFailure : Obligations.VaultAndPowerFailure := by
  intro s
  refine ⟨fun hphase hspll flips => vaultCheck_waits hspll flips, fun hlow => ⟨s, if_pos hlow, rfl⟩,
    fun hlow => ⟨s, if_pos (by rw [hlow]; rfl), rfl⟩, fun hlow hup hcur hqueue => pwrfailAssert_shows s hlow hup hcur hqueue,
    fun hlow hup hroom => pwrfailDeassert_records s hlow hup hroom,
    fun q rest hup hcur hqueue hid => vaultRecordWrite_begins s hup hcur hqueue hid,
    fun w hcur hqueue hflush hpend hid => ⟨vaultWriteComplete_good hcur hqueue hflush hpend hid, vaultWriteComplete_bad hcur hqueue hflush hpend⟩,
    fun hphase hkey hheld hspll => ⟨fun hsys => vaultCheck_counts hphase hkey hheld hspll hsys,
      fun hsys w hw => vaultCheck_loads hphase hkey hheld hspll hsys hw⟩⟩

end Sys2Proof.Machine
end

section
/-!
PROOFS. The end of a flash operation (R324, R325, R331, R334): what is granted next, FLC_RESULT, and the page a read leaves in its buffer.
-/

namespace Sys2Proof.Machine
open Sys2Proof.Claims

/-! ## What is granted (R328) -/

section
variable (s : State) (j : FJob)

theorem granted_none (h : s.flc.queue = []) : s.granted = none := by
  have hbest : (List.range 6).find? (fun r => ([] : List FJob).any (fun j => j.who.rank == r && s.startable j)) = none :=
    List.find?_eq_none.2 (fun _ _ => Bool.false_ne_true)
  rw [State.granted, h, List.filter_nil, ite_self, hbest]

theorem flcGrant_none (h : s.flc.queue = []) : s.flcGrant = s := by
  rw [State.flcGrant, granted_none s h]
  exact ite_self s

/-- The one request that waits is granted, whoever made it. -/
theorem granted_single (hqueue : s.flc.queue = [j]) (hhold : s.flc.hold = false) (hstart : s.startable j = true) : s.granted = some j := by
  have hany (r : Nat) : [j].any (fun j => j.who.rank == r && s.startable j) = (j.who.rank == r) := by
    rw [List.any_cons, List.any_nil, Bool.or_false, hstart, Bool.and_true]
  have hbest : (List.range 6).find? (fun r => [j].any (fun j => j.who.rank == r && s.startable j)) = some j.who.rank := by
    simp only [hany]
    cases j.who <;> rfl
  have hrank : (j.who.rank == j.who.rank && s.startable j) = true := by rw [hstart, beq_self_eq_true]; rfl
  rw [State.granted, hhold, if_neg Bool.false_ne_true, hqueue, hbest]
  dsimp only
  rw [List.find?_cons, hrank]

/-- A request of an idle controller starts, whoever made it. -/
theorem flcRequest_goes (hidle : FlashIdle s) (hstart : ∀ p k n, j.op ≠ .append p k n) :
    s.flcRequest j = (s.onFlc (fun x => { x with queue := x.queue ++ [j] })).flcStart j := by
  obtain ⟨hcur, hpend, hqueue, hpwr, hinit, hhold⟩ := hidle
  have hfree : ¬ (s.flc.cur.isSome || s.flc.pend.isSome || s.on Reg.FLC_STATUS.PWRFAIL || s.on Reg.FLC_STATUS.INIT) = true := by
    rw [hcur, hpend, hpwr, hinit]
    exact Bool.false_ne_true
  have hcan : (s.onFlc (fun x => { x with queue := x.queue ++ [j] })).startable j = true := by
    rw [State.startable]
    split
    · next p k n heq => exact absurd heq (hstart p k n)
    · rfl
  have hgrant := granted_single (s.onFlc (fun x => { x with queue := x.queue ++ [j] })) j (congrArg (· ++ [j]) hqueue) hhold hcan
  refine (if_neg hfree).trans ?_
  rw [hgrant]

end

/-! ## What a start leaves of the die -/

/-- The die's pages, the table of blocks, the records and the buffers. -/
def Flc.store (x : Flc) : SMap (Option FPage) × SMap Nat × SMap (Option (Bool × Nat)) × List Host.Cell × List Nat :=
  (x.pages, x.bad, x.fields, x.bufs, x.scanned)

section
variable (s : State)

theorem store_intendTgt : s.intendTgt.flc.store = s.flc.store := by
  rw [State.intendTgt, State.flc_recount]
  split <;> rfl

theorem store_enterBlock (b : Nat) : (s.enterBlock b).flc.store = s.flc.store := by
  obtain ⟨d, hd⟩ := enterBlock_eq s b
  rw [hd]
  rfl

theorem store_onFlc_tgt (t : Nat × Nat) : (s.onFlc (fun x => { x with tgt := t })).flc.store = s.flc.store := rfl

theorem store_wf (f : Fd) (v : Nat) : (s.wf f v).flc.store = s.flc.store := rfl

theorem store_flcStart (j : FJob) : (s.flcStart j).flc.store = s.flc.store := by
  have hdie : (s.onDie j).flc.store = s.flc.store := by rw [onDie_flc]; rfl
  unfold State.flcStart
  dsimp only
  split
  · rw [State.flc_recount]
    refine Eq.trans ?_ hdie
    rw [store_onFlc_tgt]
    split
    · rfl
    · exact store_enterBlock _ _
  · rw [store_intendTgt]
    exact hdie
  · rw [store_intendTgt]
    exact hdie
  · rw [store_intendTgt, store_wf]
    exact hdie
  · exact hdie
  · exact hdie
  · exact hdie
  · exact hdie

theorem store_flcGrant : s.flcGrant.flc.store = s.flc.store := by
  unfold State.flcGrant
  split
  · rfl
  · split
    · exact store_flcStart s _
    · rfl

end

/-! ## The result of a register-path command (R331) -/

/-- What the result leaves in the page buffers. -/
def Flc.moved (x : Flc) (e : FEnd) : Flc :=
  match e.job.op with
  | .read _ _ => if e.err ≤ 3 then { x with bufs := setBytes x.bufs (0x2000 * e.job.buf) 4352 e.data } else x
  | .jread _ => if e.err ≤ 1 then { x with bufs := setBytes x.bufs (0x2000 * e.job.buf) 4048 e.data } else x
  | _ => x

/-- The value FLC_RESULT takes. -/
def FEnd.result (e : FEnd) : Word := BitVec.ofNat 32 (e.err + 2 ^ 4 * b2n e.reloc + 2 ^ 5 * e.shift + 2 ^ 8 * e.corr)

theorem result_fields (e : FEnd) (herr : e.err < 16) (hshift : e.shift < 8) (hcorr : e.corr < 64) :
    getBits e.result 0 4 = e.err ∧ getBits e.result 8 6 = e.corr := by
  have hreloc : b2n e.reloc < 2 := by cases e.reloc <;> decide
  simp only [getBits, FEnd.result, BitVec.toNat_ofNat]
  omega

/-- The registers in which a command of the register path ends. -/
def doneRegs : List Nat := [Reg.FLC_RESULT_at, Reg.FLC_JSN_at, Reg.FLC_STATUS_at]

/-- FLC_RESULT, and the data to where the command wants them. -/
def State.handed (s : State) (e : FEnd) : State :=
  let u := (s.setReg Reg.FLC_RESULT_at e.result).onFlc (fun x => x.moved e)
  match e.job.op with
  | .append _ _ _ => if e.err = 0 then u.wf Reg.FLC_JSN.JSN e.data else u
  | _ => u

section
variable (s : State) (e : FEnd)

theorem regDone_eq : s.regDone e = (((s.handed e).wf Reg.FLC_STATUS.DONE 1).wf Reg.FLC_STATUS.CMD_BUSY 0).raiseIf Reg.FLC_EVCFG.DONE_EVENT
    Reg.FLC_EVCFG.DONE_EN := by
  unfold State.regDone State.handed Flc.moved
  dsimp only
  cases e.job.op with
  | read b p => dsimp only; split <;> rfl
  | jread k => dsimp only; split <;> rfl
  | append p k n => dsimp only; split <;> rfl
  | program | erase | respare | tail | bbt => rfl

theorem handed_only : s.handed e = { s with io := (s.handed e).io, flc := s.flc.moved e } := by
  unfold State.handed
  dsimp only
  split
  · split <;> rfl
  · rfl

theorem reg_handed {a : Nat} (ha : a ∉ doneRegs) : (s.handed e).reg a = s.reg a := by
  simp only [doneRegs, List.mem_cons, List.not_mem_nil, or_false, not_or] at ha
  obtain ⟨hres, hjsn, -⟩ := ha
  have hset := s.reg_setReg_other Reg.FLC_RESULT_at a e.result hres
  unfold State.handed
  dsimp only
  split
  · split
    · exact (State.reg_wf_other _ _ _ _ hjsn).trans hset
    · exact hset
  · exact hset

theorem reg_handed_result : (s.handed e).reg Reg.FLC_RESULT_at = e.result := by
  have hset := s.reg_setReg_same Reg.FLC_RESULT_at e.result
  unfold State.handed
  dsimp only
  split
  · split
    · exact (State.reg_wf_other _ _ _ _ (by decide)).trans hset
    · exact hset
  · exact hset

theorem on_handed (f : Fd) (hf : f.addr = Reg.FLC_STATUS_at) : (s.handed e).on f = s.on f := by
  have hset : ((s.setReg Reg.FLC_RESULT_at e.result).onFlc (fun x => x.moved e)).on f = s.on f := by
    rw [State.on, State.on, rf_congr (t := (s.setReg Reg.FLC_RESULT_at e.result).onFlc (fun x => x.moved e))
      (s.reg_setReg_other Reg.FLC_RESULT_at f.addr e.result (by rw [hf]; decide))]
  unfold State.handed
  dsimp only
  split
  · split
    · exact (State.on_wf_other _ _ _ _ (.inl (by rw [hf]; decide))).trans hset
    · exact hset
  · exact hset

theorem rf_handed_jsn {p k n : Nat} (hop : e.job.op = .append p k n) (herr : e.err = 0) : (s.handed e).rf Reg.FLC_JSN.JSN = e.data % 2 ^ 32 := by
  rw [State.handed, hop]
  dsimp only
  rw [if_pos herr, State.rf_wf_same _ _ _ (show 0 + 32 ≤ 32 by decide)]
  rfl

/-- What the end of a register-path command shows. -/
structure RegEnded (s : State) (e : FEnd) (t : State) : Prop where
  err : t.rf Reg.FLC_RESULT.ERR = e.err
  corr : t.rf Reg.FLC_RESULT.CORR = e.corr
  done : t.on Reg.FLC_STATUS.DONE = true
  free : t.on Reg.FLC_STATUS.CMD_BUSY = false
  idle : t.on Reg.FLC_STATUS.DIE_BUSY = s.on Reg.FLC_STATUS.DIE_BUSY
  fault : t.on Reg.FLC_STATUS.FAULT = s.on Reg.FLC_STATUS.FAULT
  jsn : ∀ p k n, e.job.op = .append p k n → e.err = 0 → t.rf Reg.FLC_JSN.JSN = e.data % 2 ^ 32
  flc : t.flc = s.flc.moved e
  vault : t.vault = s.vault
  reg : ∀ a, a ∉ doneRegs → t.reg a = s.reg a

theorem regDone_ends (herr : e.err < 16) (hshift : e.shift < 8) (hcorr : e.corr < 64) : RegEnded s e (s.regDone e) := by
  obtain ⟨hfe, hfc⟩ := result_fields e herr hshift hcorr
  have honly := handed_only s e
  have hreg {a : Nat} := reg_handed s e (a := a)
  have hres := reg_handed_result s e
  have hon := on_handed s e
  have hjsn {p k n : Nat} := rf_handed_jsn s e (p := p) (k := k) (n := n)
  rw [regDone_eq]
  generalize s.handed e = u at honly hreg hres hon hjsn
  have hregs := ((regs_refl u [Reg.FLC_STATUS_at]).wf Reg.FLC_STATUS.DONE 1 (.head _)).wf Reg.FLC_STATUS.CMD_BUSY 0 (.head _)
  have hdone : ((u.wf Reg.FLC_STATUS.DONE 1).wf Reg.FLC_STATUS.CMD_BUSY 0).on Reg.FLC_STATUS.DONE = true :=
    (State.on_wf_other _ _ _ _ (by decide)).trans (u.on_wf_b2n true Reg.FLC_STATUS.DONE (by decide) rfl)
  have hfree : ((u.wf Reg.FLC_STATUS.DONE 1).wf Reg.FLC_STATUS.CMD_BUSY 0).on Reg.FLC_STATUS.CMD_BUSY = false :=
    State.on_wf_b2n _ false Reg.FLC_STATUS.CMD_BUSY (by decide) rfl
  have hidle : ((u.wf Reg.FLC_STATUS.DONE 1).wf Reg.FLC_STATUS.CMD_BUSY 0).on Reg.FLC_STATUS.DIE_BUSY = u.on Reg.FLC_STATUS.DIE_BUSY :=
    (State.on_wf_other _ _ _ _ (by decide)).trans (State.on_wf_other _ _ _ _ (by decide))
  have hfault : ((u.wf Reg.FLC_STATUS.DONE 1).wf Reg.FLC_STATUS.CMD_BUSY 0).on Reg.FLC_STATUS.FAULT = u.on Reg.FLC_STATUS.FAULT :=
    (State.on_wf_other _ _ _ _ (by decide)).trans (State.on_wf_other _ _ _ _ (by decide))
  generalize (u.wf Reg.FLC_STATUS.DONE 1).wf Reg.FLC_STATUS.CMD_BUSY 0 = x at hregs hdone hfree hidle hfault
  have hx := hregs.eq_io
  have hxreg (a : Nat) (ha : a ≠ Reg.FLC_STATUS_at) : x.reg a = u.reg a := hregs.2 a (fun hm => ha (List.mem_singleton.1 hm))
  have hxres : x.reg Reg.FLC_RESULT_at = e.result := (hxreg _ (by decide)).trans hres
  have hkept : (x.raiseIf Reg.FLC_EVCFG.DONE_EVENT Reg.FLC_EVCFG.DONE_EN).flc = s.flc.moved e ∧
      (x.raiseIf Reg.FLC_EVCFG.DONE_EVENT Reg.FLC_EVCFG.DONE_EN).vault = s.vault := by
    rw [State.raiseIf_eq]
    constructor
    · show x.flc = _
      rw [hx, honly]
    · show x.vault = _
      rw [hx, honly]
  constructor
  · rw [State.rf_raiseIf, State.rf, show x.reg Reg.FLC_RESULT.ERR.addr = e.result from hxres]
    exact hfe
  · rw [State.rf_raiseIf, State.rf, show x.reg Reg.FLC_RESULT.CORR.addr = e.result from hxres]
    exact hfc
  · rw [State.on_raiseIf, hdone]
  · rw [State.on_raiseIf, hfree]
  · rw [State.on_raiseIf, hidle, hon _ rfl]
  · rw [State.on_raiseIf, hfault, hon _ rfl]
  · intro p k n hop herr0
    rw [State.rf_raiseIf, rf_congr (f := Reg.FLC_JSN.JSN) (hxreg _ (by decide)), hjsn hop herr0]
  · exact hkept.1
  · exact hkept.2
  · intro a ha
    rw [State.reg_raiseIf, hxreg a (fun e => ha (by rw [e]; decide)), hreg ha]

end

/-! ## The end of an operation with nothing waiting -/

/-- The registers that show the end of a register-path command and the accounts after it. -/
def endRegs : List Nat := doneRegs ++ recountRegs

section
variable {s : State} {e : FEnd}

theorem bbtPending_idle (h : VaultIdle s) : s.bbtPending = false := by
  obtain ⟨hcur, hqueue⟩ := h
  rw [State.bbtPending, State.vaultPending, hcur, hqueue]
  rfl

theorem flc_vaultBegin (s : State) : s.vaultBegin.flc = s.flc := by rw [s.vaultBegin_eq]

/-- The die free and its result handed over, with no other request waiting. -/
theorem dieFree_flcDone (hqueue : s.flc.queue = []) (hpending : s.bbtPending = false) (hwho : e.job.who = .reg) (herr : e.err < 16)
    (hshift : e.shift < 8) (hcorr : e.corr < 64) : let t := s.dieFree.flcDone e
      t.rf Reg.FLC_RESULT.ERR = e.err ∧ t.rf Reg.FLC_RESULT.CORR = e.corr ∧ t.on Reg.FLC_STATUS.DONE = true ∧
      t.on Reg.FLC_STATUS.CMD_BUSY = false ∧ t.on Reg.FLC_STATUS.DIE_BUSY = false ∧
      (∀ p k n, e.job.op = .append p k n → e.err = 0 → t.rf Reg.FLC_JSN.JSN = e.data % 2 ^ 32) ∧
      t.flc = { s.flc with cur := none }.moved e ∧ ∀ a, a ∉ endRegs → t.reg a = s.reg a := by
  dsimp only
  have hdie : s.dieFree.on Reg.FLC_STATUS.DIE_BUSY = false := State.on_wf_b2n _ false Reg.FLC_STATUS.DIE_BUSY (by decide) rfl
  have hflc : s.dieFree.flc = { s.flc with cur := none } := rfl
  have hreg (a : Nat) (ha : a ≠ Reg.FLC_STATUS_at) : s.dieFree.reg a = s.reg a :=
    (s.onFlc (fun x => { x with cur := none })).reg_wf_other Reg.FLC_STATUS.DIE_BUSY 0 a ha
  have hpend : s.dieFree.bbtPending = false := hpending
  generalize s.dieFree = u at hdie hflc hreg hpend
  have hended := regDone_ends u e herr hshift hcorr
  have hend : u.flcDone e = ((u.regDone e).recount.flcGrant).vaultBegin := by rw [State.flcDone, if_neg (by rw [hpend]; exact Bool.false_ne_true), State.flcEnd, hwho]
  generalize u.regDone e = x at hended hend
  have hmoved : x.flc.queue = [] := by
    rw [hended.flc, hflc]
    unfold Flc.moved
    split
    · split <;> exact hqueue
    · split <;> exact hqueue
    · exact hqueue
  rw [hend, flcGrant_none _ (by rw [State.flc_recount]; exact hmoved)]
  have hrec := recount_regs x
  have hrecReg (a : Nat) (ha : a ∉ recountRegs) : x.recount.vaultBegin.reg a = x.reg a := by rw [State.reg_vaultBegin]; exact hrec.2 a ha
  have hrecRf (f : Fd) (hf : f.addr ∉ recountRegs) : x.recount.vaultBegin.rf f = x.rf f := rf_congr (hrecReg _ hf)
  have hrecOn (f : Fd) (hf : f.addr ∉ recountRegs) : x.recount.vaultBegin.on f = x.on f := by rw [State.on, State.on, hrecRf f hf]
  refine ⟨?_, ?_, ?_, ?_, ?_, ?_, ?_, ?_⟩
  · rw [hrecRf _ (by decide), hended.err]
  · rw [hrecRf _ (by decide), hended.corr]
  · rw [hrecOn _ (by decide), hended.done]
  · rw [hrecOn _ (by decide), hended.free]
  · rw [hrecOn _ (by decide), hended.idle, hdie]
  · intro p k n hop herr0
    rw [hrecRf _ (by decide), hended.jsn p k n hop herr0]
  · rw [flc_vaultBegin, State.flc_recount, hended.flc, hflc]
  · intro a ha
    rw [endRegs, List.mem_append, not_or] at ha
    rw [hrecReg a ha.2, hended.reg a ha.1, hreg a (fun e => ha.1 (by rw [e]; decide))]

end

end Sys2Proof.Machine
end

section
/-!
PROOFS. Reads of the die (R323, R324, R331): how a page is classified, what a read counts, and the bytes it leaves.
-/

namespace Sys2Proof.Machine
open Sys2Proof.Claims

/-! ## Classification (R323, R324) -/

theorem foldl_max (es : List Nat) (m : Nat) : m ≤ es.foldl max m ∧ (∀ e ∈ es, e ≤ es.foldl max m) ∧ (es.foldl max m ∈ es ∨ es.foldl max m = m) := by
  induction es generalizing m with
  | nil => exact ⟨Nat.le_refl m, fun _ h => absurd h List.not_mem_nil, .inr rfl⟩
  | cons x t ih =>
    obtain ⟨hlow, hall, hmem⟩ := ih (max m x)
    refine ⟨(Nat.le_max_left m x).trans hlow, fun e he => ?_, ?_⟩
    · rcases List.mem_cons.1 he with rfl | he
      · exact (Nat.le_max_right m e).trans hlow
      · exact hall e he
    · rcases hmem with h | h
      · exact .inl (.tail _ h)
      · rw [List.foldl_cons, h]
        rcases Nat.le_total m x with hle | hle
        · rw [Nat.max_eq_right hle]
          exact .inl (.head _)
        · exact .inr (Nat.max_eq_left hle)

theorem decodeSet_some {t : Nat} {es : List Nat} (h : ∀ e ∈ es, e ≤ t) : decodeSet t es = some (es.foldl max 0, es.sum) :=
  if_pos (List.all_eq_true.2 (fun e he => decide_eq_true (h e he)))

theorem decodeSet_none {t : Nat} {es : List Nat} (h : ∃ e ∈ es, t < e) : decodeSet t es = none := by
  obtain ⟨e, he, hlt⟩ := h
  exact if_neg (fun hall => absurd (of_decide_eq_true (List.all_eq_true.1 hall e he)) (Nat.not_le_of_lt hlt))

theorem firstDecode_none {ts : List (Option (Nat × Nat))} (h : ∀ x ∈ ts, x = none) (n : Nat) : firstDecode ts n = none := by
  induction ts generalizing n with
  | nil => rfl
  | cons x t ih =>
    obtain rfl : x = none := h x (.head _)
    exact ih (fun y hy => h y (.tail _ hy)) (n + 1)

theorem codeT_eq (b : Nat) : (if decide (128 ≤ b) then 40 else 16) = codeT b := by
  unfold codeT
  by_cases h : b < 128
  · rw [decide_eq_false (Nat.not_le_of_lt h), if_pos h]; rfl
  · rw [decide_eq_true (Nat.le_of_not_lt h), if_neg h]; rfl

theorem sets_eq (b : Nat) : (if decide (128 ≤ b) then 8 else 1) = if b < 128 then 1 else 8 := by
  by_cases h : b < 128
  · rw [decide_eq_false (Nat.not_le_of_lt h), if_pos h]; rfl
  · rw [decide_eq_true (Nat.le_of_not_lt h), if_neg h]; rfl

section
variable {pv : FPage} (hpv : pv.ok = true) (b sticky : Nat)
include hpv

/-- A page that the first set of levels decodes. -/
theorem classify_first {es : List Nat} (rest : List (List Nat)) (inv ok : Bool) (h : ∀ e ∈ es, e ≤ codeT b) :
    classify (some pv) (decide (128 ≤ b)) sticky ⟨es :: rest, inv, ok⟩ =
      ⟨0, if decide (128 ≤ b) then sticky % 8 else 0, es.foldl max 0, es.sum, 0⟩ := by
  have htries : ∃ n, ((es :: rest).take (if decide (128 ≤ b) then 8 else 1)).map (decodeSet (if decide (128 ≤ b) then 40 else 16)) =
      some (es.foldl max 0, es.sum) :: n := by
    rw [codeT_eq]
    split <;> exact ⟨_, congrArg (· :: _) (decodeSet_some h)⟩
  obtain ⟨n, hn⟩ := htries
  rw [classify]
  rw [hn, hpv, firstDecode]
  rfl

/-- A page that no set of levels decodes. -/
theorem classify_hopeless {o : DieOut} (h : Hopeless b o) : (classify (some pv) (decide (128 ≤ b)) sticky o).err = 1 ∧
    (classify (some pv) (decide (128 ≤ b)) sticky o).bits = 0 ∧ (classify (some pv) (decide (128 ≤ b)) sticky o).shift = 0 ∧
    (classify (some pv) (decide (128 ≤ b)) sticky o).corr = 0 := by
  have hnone : firstDecode ((o.tries.take (if decide (128 ≤ b) then 8 else 1)).map (decodeSet (if decide (128 ≤ b) then 40 else 16))) 0 = none := by
    refine firstDecode_none (fun x hx => ?_) 0
    obtain ⟨es, hes, rfl⟩ := List.mem_map.1 hx
    rw [sets_eq] at hes
    rw [codeT_eq]
    exact decodeSet_none (h es hes)
  rw [classify]
  rw [hnone, hpv]
  exact ⟨rfl, rfl, rfl, rfl⟩

end

/-! ## What a read changes (R336, R337) -/

/-- The registers that a read may change. -/
def readRegs : List Nat := [Reg.FLC_CE_CNT_at, Reg.FLC_UE_CNT_at, Reg.FLC_RETRY_CNT_at, Reg.FLC_STATUS_at, Reg.REC_STATUS_at, Reg.REC_LOST_at]

/-- Nothing but what a read leaves has changed: counts, a sticky shift, a fault reported. -/
structure ReadKeeps (s x : State) : Prop where
  flc : ∃ sh, x.flc = { s.flc with shift := sh }
  pending : x.bbtPending = s.bbtPending
  reg : ∀ a, a ∉ readRegs → x.reg a = s.reg a

theorem ReadKeeps.trans {s x y : State} (h : ReadKeeps s x) (h' : ReadKeeps x y) : ReadKeeps s y := by
  obtain ⟨sh, hsh⟩ := h.flc
  obtain ⟨sh', hsh'⟩ := h'.flc
  exact ⟨⟨sh', by rw [hsh', hsh]⟩, h'.pending.trans h.pending, fun a ha => (h'.reg a ha).trans (h.reg a ha)⟩

section
variable (s : State)

theorem bbtPending_congr {t : State} (h : t.vault = s.vault) : t.bbtPending = s.bbtPending := by
  rw [State.bbtPending, State.bbtPending, State.vaultPending, State.vaultPending, h]

theorem readKeeps_regs {x : State} (h : Regs s x readRegs []) : ReadKeeps s x := by
  have hx := h.eq_io
  exact ⟨⟨s.flc.shift, by rw [hx]⟩, bbtPending_congr s (by rw [hx]), h.2⟩

theorem readKeeps_shift (sh : SMap Nat) : ReadKeeps s (s.onFlc (fun x => { x with shift := sh })) := ⟨⟨sh, rfl⟩, rfl, fun _ _ => rfl⟩

/-- The counts of a read. -/
def State.readCounted (s : State) (r : Rd) : State :=
  let s := s.incSat Reg.FLC_CE_CNT.COUNT r.bits
  let s := if r.err = 1 then s.incSat Reg.FLC_UE_CNT.COUNT else s
  s.incSat Reg.FLC_RETRY_CNT.COUNT r.extra

theorem countRead_eq (b : Nat) (r : Rd) : s.countRead b r = if r.err = 0 ∧ 128 ≤ b
    then (s.readCounted r).onFlc (fun x => { x with shift := SMap.set x.shift 0 b r.shift }) else s.readCounted r := rfl

theorem readCounted_counts (r : Rd) : Regs s (s.readCounted r) readRegs [] ∧
    (s.readCounted r).rf Reg.FLC_CE_CNT.COUNT = min (2 ^ 32 - 1) (s.rf Reg.FLC_CE_CNT.COUNT + r.bits) ∧
    (r.err = 1 → (s.readCounted r).rf Reg.FLC_UE_CNT.COUNT = min (2 ^ 32 - 1) (s.rf Reg.FLC_UE_CNT.COUNT + 1)) := by
  unfold State.readCounted
  dsimp only
  have hce := s.rf_incSat Reg.FLC_CE_CNT.COUNT r.bits (show 0 + 32 ≤ 32 by decide)
  have hregs := (regs_refl s readRegs).incSat Reg.FLC_CE_CNT.COUNT r.bits (by decide)
  have hueKept := s.rf_incSat_other Reg.FLC_CE_CNT.COUNT Reg.FLC_UE_CNT.COUNT r.bits (.inl (by decide))
  generalize s.incSat Reg.FLC_CE_CNT.COUNT r.bits = u at hce hregs hueKept
  have hue := u.rf_incSat Reg.FLC_UE_CNT.COUNT 1 (show 0 + 32 ≤ 32 by decide)
  have hceKept := u.rf_incSat_other Reg.FLC_UE_CNT.COUNT Reg.FLC_CE_CNT.COUNT 1 (.inl (by decide))
  have hregs' := hregs.incSat Reg.FLC_UE_CNT.COUNT 1 (by decide)
  have hretry (x : State) (f : Fd) (hf : f.addr ≠ Reg.FLC_RETRY_CNT_at) : (x.incSat Reg.FLC_RETRY_CNT.COUNT r.extra).rf f = x.rf f :=
    x.rf_incSat_other _ f _ (.inl hf)
  split
  · refine ⟨hregs'.incSat _ _ (by decide), ?_, fun _ => ?_⟩
    · rw [hretry _ _ (by decide), hceKept, hce]
      rfl
    · rw [hretry _ _ (by decide), hue, hueKept]
      rfl
  · next hne =>
    refine ⟨hregs.incSat _ _ (by decide), ?_, fun h => absurd h hne⟩
    rw [hretry _ _ (by decide), hce]
    rfl

theorem readKeeps_countRead (b : Nat) (r : Rd) : ReadKeeps s (s.countRead b r) := by
  have hcounted := readKeeps_regs s (readCounted_counts s r).1
  rw [countRead_eq]
  split
  · exact hcounted.trans (readKeeps_shift _ _)
  · exact hcounted

theorem State.rf_onFlc (g : Flc → Flc) (f : Fd) : (s.onFlc g).rf f = s.rf f := rfl

theorem rf_countRead (b : Nat) (r : Rd) (f : Fd) : (s.countRead b r).rf f = (s.readCounted r).rf f := by
  rw [countRead_eq]
  split
  · exact State.rf_onFlc _ _ _
  · rfl

/-- A log-path failure reported changes the recorder, the Vault's queue and the registers that show it. -/
theorem logFault_shows (kind a0 a1 code arg : Nat) : (s.logFault kind a0 a1 code arg).flc = s.flc ∧
    (s.logFault kind a0 a1 code arg).vault = { s.vault with queue := s.vault.queue ++ [⟨0x300, false⟩] } ∧
    (s.logFault kind a0 a1 code arg).on Reg.FLC_STATUS.FAULT = true ∧
    ∀ a, a ∉ [Reg.FLC_STATUS_at, Reg.REC_STATUS_at, Reg.REC_LOST_at] → (s.logFault kind a0 a1 code arg).reg a = s.reg a := by
  have hset : (s.wf Reg.FLC_STATUS.FAULT 1).on Reg.FLC_STATUS.FAULT = true := s.on_wf_b2n true Reg.FLC_STATUS.FAULT (by decide) rfl
  have hregs := (regs_refl s [Reg.FLC_STATUS_at]).wf Reg.FLC_STATUS.FAULT 1 (.head _)
  rw [State.logFault, State.flcFault]
  generalize s.wf Reg.FLC_STATUS.FAULT 1 = u at hset hregs
  have hu := hregs.eq_io
  have hev := (regs_refl u []).raiseIf Reg.FLC_EVCFG.FAULT_EVENT Reg.FLC_EVCFG.FAULT_EN rfl
  have hevOn (f : Fd) := u.on_raiseIf f Reg.FLC_EVCFG.FAULT_EVENT Reg.FLC_EVCFG.FAULT_EN
  generalize u.raiseIf Reg.FLC_EVCFG.FAULT_EVENT Reg.FLC_EVCFG.FAULT_EN = v at hev hevOn
  obtain ⟨-, hlvault, hlflc, hlreg⟩ := ledgerEntry_shows v kind a0 a1
  generalize v.ledgerEntry kind a0 a1 = x at hlvault hlflc hlreg
  have hwregs := (regs_refl x [Reg.REC_STATUS_at]).wf Reg.REC_STATUS.LOG_FAULT 1 (.head _)
  generalize x.wf Reg.REC_STATUS.LOG_FAULT 1 = y at hwregs
  have hy := hwregs.eq_io
  have hev' := (regs_refl y []).raiseIf Reg.REC_EVCFG.FAULT_EVENT Reg.REC_EVCFG.FAULT_EN rfl
  generalize y.raiseIf Reg.REC_EVCFG.FAULT_EVENT Reg.REC_EVCFG.FAULT_EN = z at hev'
  have hz := z.evRecord_eq 6 code arg 0
  have hzreg (a : Nat) (ha : a ≠ Reg.REC_LOST_at) := z.reg_evRecord 6 code arg 0 a ha
  generalize z.evRecord 6 code arg 0 = t at hz hzreg
  have hflc : t.flc = s.flc := by
    rw [hz]
    show z.flc = _
    rw [hev'.1]
    show y.flc = _
    rw [hy]
    show x.flc = _
    rw [hlflc, hev.1]
    show u.flc = _
    rw [hu]
  have hvault : t.vault = { s.vault with queue := s.vault.queue ++ [⟨0x300, false⟩] } := by
    rw [hz]
    show z.vault = _
    rw [hev'.1]
    show y.vault = _
    rw [hy]
    show x.vault = _
    rw [hlvault, hev.1]
    show ({ u.vault with queue := u.vault.queue ++ [⟨0x300, false⟩] } : Vault) = _
    rw [hu]
  have hreg (a : Nat) (hlost : a ≠ Reg.REC_LOST_at) (hrec : a ≠ Reg.REC_STATUS_at) : t.reg a = u.reg a := by
    rw [hzreg a hlost, hev'.2 a List.not_mem_nil, hwregs.2 a (fun hm => hrec (List.mem_singleton.1 hm)), hlreg, hev.2 a List.not_mem_nil]
  refine ⟨hflc, hvault, ?_, fun a ha => ?_⟩
  · rw [State.on, rf_congr (f := Reg.FLC_STATUS.FAULT) (hreg _ (by decide) (by decide))]
    exact hset
  · simp only [List.mem_cons, List.not_mem_nil, or_false, not_or] at ha
    obtain ⟨hstat, hrec, hlost⟩ := ha
    rw [hreg a hlost hrec]
    exact hregs.2 a (fun hm => hstat (List.mem_singleton.1 hm))

/-- A ledger record to be written holds no completion back. -/
theorem bbtPending_ledger {t : State} (h : t.vault = { s.vault with queue := s.vault.queue ++ [⟨0x300, false⟩] }) : t.bbtPending = s.bbtPending := by
  rw [State.bbtPending, State.bbtPending, State.vaultPending, State.vaultPending, h]
  dsimp only
  rw [List.any_append]
  exact congrArg (· || _) (Bool.or_false _)

theorem readKeeps_logFault (kind a0 a1 code arg : Nat) : ReadKeeps s (s.logFault kind a0 a1 code arg) := by
  obtain ⟨hflc, hvault, -, hreg⟩ := logFault_shows s kind a0 a1 code arg
  exact ⟨⟨s.flc.shift, hflc⟩, bbtPending_ledger s hvault, fun a ha => hreg a (fun hm => ha ((by decide : ∀ a ∈ [Reg.FLC_STATUS_at, Reg.REC_STATUS_at,
    Reg.REC_LOST_at], a ∈ readRegs) a hm))⟩

/-! ## Bytes read -/

theorem readBytes_only (b p : Nat) (r : Rd) : (s.readBytes b p r).2 = { s with free := (s.readBytes b p r).2.free } := by
  unfold State.readBytes
  dsimp only
  split
  · split
    · split <;> rfl
    · rfl
  · rfl

theorem readKeeps_readBytes (b p : Nat) (r : Rd) : ReadKeeps s (s.readBytes b p r).2 := by
  rw [readBytes_only]
  exact ⟨⟨s.flc.shift, rfl⟩, rfl, fun _ _ => rfl⟩

/-- Bytes of the data area of a page read GOOD. -/
theorem readBytes_data {b p : Nat} {r : Rd} {q : FPage} (herr : r.err = 0) (hwait : s.rdwaitLow = false) (hq : s.fpage b p = some q) {i : Nat}
    (hi : i < if b < 128 then 4128 else 4048) : (s.readBytes b p r).1 / 256 ^ i % 256 = q.data / 256 ^ i % 256 := by
  have hbyte (w : Nat) : bytesAt w i 1 = w / 256 ^ i % 256 := by rw [bytesAt, pow_one]
  have hpage : bytesAt (s.pageBytes b p q.data) i 1 = bytesAt q.data i 1 := by
    unfold State.pageBytes
    split
    · next h => rw [if_pos h] at hi; exact bytesAt_pack_first _ _ _ hi
    · next h => rw [if_neg h] at hi; exact bytesAt_pack_first _ _ _ hi
  have hlen : i + 1 ≤ if b < 128 then 4128 else 4048 := hi
  rw [← hbyte, ← hbyte, State.readBytes]
  dsimp only
  rw [if_pos ⟨herr, by rw [hwait]; rfl⟩, hq]
  dsimp only
  split
  · exact hpage
  · rw [bytesAt_pack_first _ _ _ hlen, hpage]

/-! ## A read ends (R331) -/

variable {s} {j : FJob} {b pg : Nat} {o : DieOut}

/-- The state after a read's counts, and the report of one that failed. -/
def State.readShown (s : State) (j : FJob) (b pg : Nat) (r : Rd) : State :=
  let x := s.countRead (s.physOf b) r
  if r.err = 1 ∧ 128 ≤ s.physOf b ∧ j.who ≠ .boot then
    x.logFault 2 ((x.fpage (s.physOf b) pg).elim 0 FPage.jsn) (s.physOf b) 1 (s.physOf b) else x

theorem endRead_eq {r : Rd} (hgood : s.goodBlock (s.physOf b) = true) (hcls : s.classifyPage (s.fpage (s.physOf b) pg) (s.physOf b) o = (r, s)) :
    s.endRead j b pg o = (⟨j, r.err, false, r.shift, r.corr, ((s.readShown j b pg r).readBytes (s.physOf b) pg r).1⟩,
      ((s.readShown j b pg r).readBytes (s.physOf b) pg r).2) := by
  rw [State.endRead]
  dsimp only
  rw [hgood, hcls]
  rfl

theorem readKeeps_readShown (r : Rd) : ReadKeeps s (s.readShown j b pg r) := by
  unfold State.readShown
  dsimp only
  split
  · exact (readKeeps_countRead s _ r).trans (readKeeps_logFault _ _ _ _ _ _)
  · exact readKeeps_countRead s _ r

theorem rf_readShown (r : Rd) {f : Fd} (hf : f.addr ∉ [Reg.FLC_STATUS_at, Reg.REC_STATUS_at, Reg.REC_LOST_at]) :
    (s.readShown j b pg r).rf f = (s.readCounted r).rf f := by
  have hcount := rf_countRead s (s.physOf b) r f
  unfold State.readShown
  dsimp only
  split
  · rw [rf_congr ((logFault_shows _ _ _ _ _ _).2.2.2 _ hf), hcount]
  · exact hcount

theorem classifyPage_eq {p : Option FPage} {c : Nat} (hwait : s.rdwaitLow = false) :
    s.classifyPage p c o = (classify p (decide (128 ≤ c)) (SMap.get s.flc.shift 0 c) o, s) := by
  rw [State.classifyPage, hwait]
  rfl

/-- What reads keep keeps the wait states and the pages. -/
theorem ReadKeeps.views {x : State} (h : ReadKeeps s x) : x.rdwaitLow = s.rdwaitLow ∧ ∀ c p, x.fpage c p = s.fpage c p := by
  obtain ⟨⟨sh, hsh⟩, -, hreg⟩ := h
  have hwait := rf_congr (f := Reg.FLC_RDWAIT.WAIT) (hreg _ (by decide))
  have hdiv := rf_congr (f := Reg.IOPLL_ISL.DIV islFlash) (hreg _ (by decide))
  refine ⟨?_, fun c p => ?_⟩
  · rw [State.rdwaitLow, State.rdwaitLow, State.rdwaitFor, State.rdwaitFor, hwait, hdiv]
  · rw [State.fpage, State.fpage, hsh]

end

end Sys2Proof.Machine
end

section
/-!
PROOFS. READ as it ends (R324, R325, R331, R336): decoded, beyond its code, or timed out.
-/

namespace Sys2Proof.Machine
open Sys2Proof.Claims

section
variable {s : State} {j : FJob} {b pg : Nat}

theorem dieComplete_ended {e : FEnd} {u : State} {o : DieOut} (hcur : s.flc.cur = some j) (hend : s.dieEnd j o = (some e, u)) :
    s.dieComplete o = u.dieFree.flcDone e := by
  rw [State.dieComplete, hcur]
  dsimp only
  rw [hend]

/-- An operation that goes on elsewhere. -/
theorem dieComplete_goesOn {u : State} {o : DieOut} (hcur : s.flc.cur = some j) (hend : s.dieEnd j o = (none, u)) :
    s.dieComplete o = (u.dieFree.recount.flcGrant).vaultBegin := by
  rw [State.dieComplete, hcur]
  dsimp only
  rw [hend]

theorem dieEnd_read (o : DieOut) (hop : j.op = .read b pg) : s.dieEnd j o = (some (s.endRead j b pg o).1, (s.endRead j b pg o).2) := by
  rw [State.dieEnd, hop]

/-- The page buffers a READ leaves: its page where the read moved one. -/
theorem moved_read {x : Flc} {e : FEnd} (hop : e.job.op = .read b pg) :
    x.moved e = { x with bufs := if e.err ≤ 3 then setBytes x.bufs (0x2000 * e.job.buf) 4352 e.data else x.bufs } := by
  rw [Flc.moved, hop]
  dsimp only
  split <;> rfl

variable (hcur : s.flc.cur = some j) (hwho : j.who = .reg) (hop : j.op = .read b pg) (hqueue : s.flc.queue = []) (hidle : VaultIdle s)
include hcur hwho hop hqueue hidle

/-- The state in which a READ of a good block, its page classified as `r`, ends. -/
theorem read_ends {o : DieOut} {pv : FPage} {r : Rd} (hgood : s.goodBlock (s.physOf b) = true) (hpage : s.fpage (s.physOf b) pg = some pv)
    (hwait : s.rdwaitLow = false) (hcls : classify (some pv) (decide (128 ≤ s.physOf b)) (SMap.get s.flc.shift 0 (s.physOf b)) o = r)
    (herr : r.err ≤ 1) (hshift : r.shift < 8) (hcorr : r.corr < 64) : Does (.dieOperationComplete o) s (fun t =>
      t.rf Reg.FLC_RESULT.ERR = r.err ∧ t.rf Reg.FLC_RESULT.CORR = r.corr ∧ t.on Reg.FLC_STATUS.DONE = true ∧
      t.on Reg.FLC_STATUS.CMD_BUSY = false ∧ t.on Reg.FLC_STATUS.DIE_BUSY = false ∧ t.flc.cur = none ∧ t.flc.pages = s.flc.pages ∧
      t.rf Reg.FLC_CE_CNT.COUNT = min (2 ^ 32 - 1) (s.rf Reg.FLC_CE_CNT.COUNT + r.bits) ∧
      (r.err = 1 → t.rf Reg.FLC_UE_CNT.COUNT = min (2 ^ 32 - 1) (s.rf Reg.FLC_UE_CNT.COUNT + 1)) ∧
      (r.err = 0 → ∀ x, x < (if s.physOf b < 128 then 4128 else 4048) →
        SMap.get t.flc.bufs 0 (0x2000 * j.buf + x) = BitVec.ofNat 8 (pv.data / 256 ^ x))) := by
  have hend := endRead_eq (j := j) (o := o) hgood ((classifyPage_eq hwait).trans (congrArg (·, s) (hpage ▸ hcls)))
  have hkeeps := readKeeps_readShown (s := s) (j := j) (b := b) (pg := pg) r
  obtain ⟨-, hce, hue⟩ := readCounted_counts s r
  have hshown {f : Fd} := rf_readShown (s := s) (j := j) (b := b) (pg := pg) r (f := f)
  have hcount : (s.readShown j b pg r).rf Reg.FLC_CE_CNT.COUNT = _ := (hshown (by decide)).trans hce
  have hcountUe (h : r.err = 1) : (s.readShown j b pg r).rf Reg.FLC_UE_CNT.COUNT = _ := (hshown (by decide)).trans (hue h)
  generalize s.readShown j b pg r = u at hend hkeeps hcount hcountUe
  obtain ⟨hwaitU, hpageU⟩ := hkeeps.views
  have hdata {i : Nat} (h0 : r.err = 0) := readBytes_data u (b := s.physOf b) (p := pg) h0 (hwaitU.trans hwait) ((hpageU _ _).trans hpage) (i := i)
  have hmore := readKeeps_readBytes u (s.physOf b) pg r
  have hmoreReg (a : Nat) : (u.readBytes (s.physOf b) pg r).2.reg a = u.reg a := by rw [readBytes_only]; rfl
  have hall := hkeeps.trans hmore
  generalize u.readBytes (s.physOf b) pg r = d at hend hdata hmore hmoreReg hall
  have hnext : s.dieComplete o = d.2.dieFree.flcDone ⟨j, r.err, false, r.shift, r.corr, d.1⟩ :=
    dieComplete_ended hcur ((dieEnd_read o hop).trans (by rw [hend]))
  obtain ⟨sh, hflc⟩ := hall.flc
  have hdone := dieFree_flcDone (s := d.2) (e := ⟨j, r.err, false, r.shift, r.corr, d.1⟩) (by rw [hflc]; exact hqueue)
    (hall.pending.trans (bbtPending_idle hidle)) hwho (Nat.lt_of_le_of_lt herr (by decide)) hshift hcorr
  rw [← hnext] at hdone
  generalize ht : s.dieComplete o = t at hdone
  obtain ⟨hERR, hCORR, hDONE, hCMD, hDIE, -, htflc, htreg⟩ := hdone
  rw [moved_read (e := ⟨j, r.err, false, r.shift, r.corr, d.1⟩) hop, hflc] at htflc
  refine ⟨t, congrArg Host.Outcome.next ht, hERR, hCORR, hDONE, hCMD, hDIE, ?_, ?_, ?_, fun h => ?_, fun h0 x hx => ?_⟩
  · rw [htflc]
  · rw [htflc]
  · rw [rf_congr (f := Reg.FLC_CE_CNT.COUNT) ((htreg _ (by decide)).trans (hmoreReg _))]
    exact hcount
  · rw [rf_congr (f := Reg.FLC_UE_CNT.COUNT) ((htreg _ (by decide)).trans (hmoreReg _))]
    exact hcountUe h
  · have hlt : x < 4352 := by split at hx <;> omega
    rw [htflc]
    dsimp only
    rw [if_pos (herr.trans (by decide)), get_setBytes_ite, if_pos ⟨Nat.le_add_right _ _, Nat.add_lt_add_left hlt _⟩, Nat.add_sub_cancel_left]
    refine BitVec.eq_of_toNat_eq ?_
    rw [BitVec.toNat_ofNat, BitVec.toNat_ofNat]
    exact hdata h0 hx

theorem read_decoded {pv : FPage} {es : List Nat} {rest : List (List Nat)} {inv ok : Bool} (hgood : s.goodBlock (s.physOf b) = true)
    (hpage : s.fpage (s.physOf b) pg = some pv) (hpv : pv.ok = true) (hwait : s.rdwaitLow = false) (hes : ∀ e ∈ es, e ≤ codeT (s.physOf b)) :
    Does (.dieOperationComplete ⟨es :: rest, inv, ok⟩) s (fun t =>
      t.rf Reg.FLC_RESULT.ERR = 0 ∧ (∀ e ∈ es, e ≤ t.rf Reg.FLC_RESULT.CORR) ∧ (t.rf Reg.FLC_RESULT.CORR ∈ es ∨ t.rf Reg.FLC_RESULT.CORR = 0) ∧
      t.rf Reg.FLC_CE_CNT.COUNT = min (2 ^ Reg.FLC_CE_CNT.COUNT.width - 1) (s.rf Reg.FLC_CE_CNT.COUNT + es.sum) ∧ t.on Reg.FLC_STATUS.DONE = true ∧
      t.on Reg.FLC_STATUS.CMD_BUSY = false ∧ t.on Reg.FLC_STATUS.DIE_BUSY = false ∧ t.flc.cur = none ∧ t.flc.pages = s.flc.pages ∧
      ∀ x, x < (if s.physOf b < 128 then 4128 else 4048) →
        SMap.get t.flc.bufs 0 (0x2000 * j.buf + x) = BitVec.ofNat 8 (pv.data / 256 ^ x)) := by
  obtain ⟨-, hle, hmem⟩ := foldl_max es 0
  have hcorr : es.foldl max 0 < 64 := by
    have hcode : codeT (s.physOf b) < 64 := by unfold codeT; split <;> decide
    rcases hmem with h | h
    · exact Nat.lt_of_le_of_lt (hes _ h) hcode
    · rw [h]; decide
  have hshift : (if decide (128 ≤ s.physOf b) = true then SMap.get s.flc.shift 0 (s.physOf b) % 8 else 0) < 8 := by
    split
    · exact Nat.mod_lt _ (by decide)
    · decide
  obtain ⟨t, hexec, hERR, hCORR, hDONE, hCMD, hDIE, hnone, hpages, hce, -, hbytes⟩ := read_ends hcur hwho hop hqueue hidle hgood hpage hwait
    (classify_first hpv (s.physOf b) (SMap.get s.flc.shift 0 (s.physOf b)) rest inv ok hes) (Nat.zero_le 1) hshift hcorr
  dsimp only at hCORR
  refine ⟨t, hexec, hERR, ?_, ?_, hce, hDONE, hCMD, hDIE, hnone, hpages, hbytes rfl⟩
  · rw [hCORR]
    exact hle
  · rw [hCORR]
    exact hmem

theorem read_hopeless {pv : FPage} {o : DieOut} (hgood : s.goodBlock (s.physOf b) = true) (hpage : s.fpage (s.physOf b) pg = some pv)
    (hpv : pv.ok = true) (hwait : s.rdwaitLow = false) (ho : Hopeless (s.physOf b) o) : Does (.dieOperationComplete o) s (fun t =>
      t.rf Reg.FLC_RESULT.ERR = 1 ∧ t.on Reg.FLC_STATUS.DONE = true ∧ t.rf Reg.FLC_CE_CNT.COUNT = s.rf Reg.FLC_CE_CNT.COUNT ∧
      t.rf Reg.FLC_UE_CNT.COUNT = min (2 ^ Reg.FLC_UE_CNT.COUNT.width - 1) (s.rf Reg.FLC_UE_CNT.COUNT + 1) ∧ t.flc.pages = s.flc.pages) := by
  obtain ⟨herr, hbits, hshift, hcorr⟩ := classify_hopeless hpv (s.physOf b) (SMap.get s.flc.shift 0 (s.physOf b)) ho
  obtain ⟨t, hexec, hERR, -, hDONE, -, -, -, hpages, hce, hue, -⟩ := read_ends hcur hwho hop hqueue hidle hgood hpage hwait rfl
    (by rw [herr]) (by rw [hshift]; decide) (by rw [hcorr]; decide)
  have hlt : s.rf Reg.FLC_CE_CNT.COUNT < 2 ^ 32 := getBits_lt _ _ 32
  refine ⟨t, hexec, hERR.trans herr, hDONE, ?_, hue herr, hpages⟩
  rw [hce, hbits, Nat.add_zero]
  exact Nat.min_eq_right (Nat.le_sub_one_of_lt hlt)

theorem read_timesOut : Does .flcOperationTimeout s (fun t => t.rf Reg.FLC_RESULT.ERR = 8 ∧ t.on Reg.FLC_STATUS.DONE = true ∧
    t.on Reg.FLC_STATUS.CMD_BUSY = false ∧ t.on Reg.FLC_STATUS.DIE_BUSY = false ∧ t.flc.cur = none ∧ t.flc.pages = s.flc.pages ∧
    t.flc.bufs = s.flc.bufs) := by
  have hcut : s.dieCut j 8 = s.dieFree.flcDone (fend j 8) := by
    rw [State.dieCut, State.interrupt, State.tailAgain, hop]
  have hexec : exec .flcOperationTimeout s = .next (s.dieFree.flcDone (fend j 8)) := by
    rw [← hcut, show exec .flcOperationTimeout s = execFlcOperationTimeout s from rfl, execFlcOperationTimeout, hcur]
  have hdone := dieFree_flcDone (s := s) (e := fend j 8) hqueue (bbtPending_idle hidle) hwho (by decide : 8 < 16) (by decide : 0 < 8) (by decide : 0 < 64)
  generalize s.dieFree.flcDone (fend j 8) = t at hexec hdone
  obtain ⟨hERR, -, hDONE, hCMD, hDIE, -, htflc, -⟩ := hdone
  rw [moved_read (e := fend j 8) hop] at htflc
  refine ⟨t, hexec, hERR, hDONE, hCMD, hDIE, ?_, ?_, ?_⟩
  · rw [htflc]
  · rw [htflc]
  · rw [htflc]
    rfl

end

end Sys2Proof.Machine
end

section
/-!
PROOFS. APPEND as it ends (R334, R340): the page under the next JSN, or its block retired.
-/

namespace Sys2Proof.Machine
open Sys2Proof.Claims

/-! ## A page of the log (R322) -/

theorem jsn_logMeta (k erases src : Nat) : bytesAt (logMeta k erases src) 0 4 = k % 2 ^ 32 := by
  rw [logMeta, bytesAt_pack_first k 4 _ (le_refl 4), bytesAt_zero]
  norm_num

/-- The bytes an APPEND of payload `pl` programs. -/
def logPage (pl k erases src : Nat) : Nat := pack [(pl, 4000), (logMeta k erases src, 48)]

theorem jsn_logPage {k : Nat} (pl erases src : Nat) (ok : Bool) (hk : k < 2 ^ 32) : (FPage.mk (logPage pl k erases src) ok).jsn = k := by
  have hmeta := bytesAt_pack_cons pl 4000 [(logMeta k erases src, 48)] 0 4
  have hfirst := bytesAt_pack_first (logMeta k erases src) 48 [] (off := 0) (m := 4) (by decide)
  calc (FPage.mk (logPage pl k erases src) ok).jsn = bytesAt (pack [(logMeta k erases src, 48)]) 0 4 := hmeta
    _ = k % 2 ^ 32 := hfirst.trans (jsn_logMeta k erases src)
    _ = k := Nat.mod_eq_of_lt hk

/-! ## What the end of an operation leaves alone -/

/-- The retired blocks, FAULT and the head's JSN. -/
def State.retired (s : State) : SMap Nat × Bool × Nat := (s.flc.bad, s.on Reg.FLC_STATUS.FAULT, s.rf Reg.FLC_J_HEAD.JSN)

section
variable (s : State)

theorem retired_recount : s.recount.retired = s.retired := by
  have hregs := recount_regs s
  rw [State.retired, State.retired, State.flc_recount, on_recount rfl, rf_congr (f := Reg.FLC_J_HEAD.JSN) (hregs.2 _ (by decide))]

theorem retired_onFlc (g : Flc → Flc) (h : (g s.flc).bad = s.flc.bad) : (s.onFlc g).retired = s.retired := by
  rw [State.retired, State.retired, State.on_onFlc, State.rf_onFlc]
  exact congrArg (·, _) h

theorem retired_flcGrant : s.flcGrant.retired = s.retired := by
  have hbad : s.flcGrant.flc.bad = s.flc.bad := congrArg (fun x => x.2.1) (store_flcGrant s)
  rw [State.retired, State.retired, hbad, on_flcGrant rfl s (by decide), rf_congr (f := Reg.FLC_J_HEAD.JSN) ((flcGrant_flcOnly s).2 _ (by decide))]

theorem retired_vaultBegin : s.vaultBegin.retired = s.retired := by
  rw [State.retired, State.retired, flc_vaultBegin, State.on_vaultBegin, State.rf_vaultBegin]

theorem retired_dieFree : s.dieFree.retired = s.retired := by
  have hfault : s.dieFree.on Reg.FLC_STATUS.FAULT = s.on Reg.FLC_STATUS.FAULT := State.on_wf_other _ _ _ _ (by decide)
  have hhead : s.dieFree.reg Reg.FLC_J_HEAD_at = s.reg Reg.FLC_J_HEAD_at := State.reg_wf_other _ _ _ _ (by decide)
  rw [State.retired, State.retired, hfault, rf_congr (f := Reg.FLC_J_HEAD.JSN) hhead]
  rfl

theorem retired_regDone {e : FEnd} (herr : e.err < 16) (hshift : e.shift < 8) (hcorr : e.corr < 64) : (s.regDone e).retired = s.retired := by
  have hended := regDone_ends s e herr hshift hcorr
  have hmoved : (s.flc.moved e).bad = s.flc.bad := by
    unfold Flc.moved
    split
    · split <;> rfl
    · split <;> rfl
    · rfl
  rw [State.retired, State.retired, hended.flc, hmoved, hended.fault, rf_congr (f := Reg.FLC_J_HEAD.JSN) (hended.reg _ (by decide))]

/-- A completion of the register path, held back or not. -/
theorem retired_flcDone {e : FEnd} (hwho : e.job.who = .reg) (herr : e.err < 16) (hshift : e.shift < 8) (hcorr : e.corr < 64) :
    (s.flcDone e).retired = s.retired := by
  unfold State.flcDone
  split
  · rw [retired_vaultBegin, retired_recount]
    exact retired_onFlc s _ rfl
  · rw [State.flcEnd, hwho]
    dsimp only
    rw [retired_vaultBegin, retired_flcGrant, retired_recount, retired_regDone s herr hshift hcorr]

theorem retired_goOn (j : FJob) (op : FOp) : (s.goOn j op).2.retired = s.retired ∧
    ((s.goOn j op).1 = none ∨ (s.goOn j op).1 = some (fend j 9)) := by
  unfold State.goOn
  split
  · exact ⟨rfl, .inr rfl⟩
  · exact ⟨retired_onFlc s _ rfl, .inl rfl⟩

end

/-- What an operation of the register path leaves shown when it ends or goes on elsewhere. -/
theorem retired_dieComplete {s u : State} {j : FJob} {r : Option FEnd} {o : DieOut} (hcur : s.flc.cur = some j) (hwho : j.who = .reg)
    (hend : s.dieEnd j o = (r, u)) (hr : r = none ∨ ∃ n, n < 16 ∧ r = some (fend j n)) : (s.dieComplete o).retired = u.retired := by
  rcases hr with rfl | ⟨n, hn, rfl⟩
  · rw [dieComplete_goesOn hcur hend, retired_vaultBegin, retired_flcGrant, retired_recount, retired_dieFree]
  · rw [dieComplete_ended hcur hend, retired_flcDone _ (e := fend j n) hwho hn (by decide : 0 < 8) (by decide : 0 < 64), retired_dieFree]

/-! ## APPEND (R334) -/

section
variable {s : State} {j : FJob} {pl src tries : Nat} (hcur : s.flc.cur = some j) (hwho : j.who = .reg) (hop : j.op = .append pl src tries)
  (hhead : s.rf Reg.FLC_J_HEAD.JSN < 0xFFFFFFFF)
include hcur hwho hop hhead

omit hcur hwho hop hhead in
/-- What a page programmed at the head changes. -/
theorem programmed_views (s : State) (n b p : Nat) (v : Option FPage) :
    let t := (s.onFlc (fun x => { x with headPg := n })).setFpage b p v
    t.flc = { s.flc with headPg := n, pages := SMap.set s.flc.pages none (256 * b + p) v } ∧ t.vault = s.vault ∧ ∀ a, t.reg a = s.reg a :=
  ⟨rfl, rfl, fun _ => rfl⟩

omit hcur hwho hop hhead in
theorem markBad_views (s : State) (b reason : Nat) : (s.markBad b reason).flc.bad = SMap.set s.flc.bad 0 b reason ∧
    ∀ a, (s.markBad b reason).reg a = s.reg a := ⟨rfl, fun _ => rfl⟩

omit hcur hwho hop hhead in
theorem wf_views (s : State) (f : Fd) (v : Nat) : (s.wf f v).flc = s.flc ∧ (s.wf f v).vault = s.vault := ⟨rfl, rfl⟩

/-- The state in which an APPEND that the die took ends. -/
def State.appended (s : State) (pl src : Nat) : State :=
  ((s.onFlc (fun x => { x with headPg := s.flc.tgt.2 + 1 })).setFpage s.flc.tgt.1 s.flc.tgt.2
    (some ⟨logPage pl (s.rf Reg.FLC_J_HEAD.JSN) (SMap.get s.flc.erases 0 s.flc.tgt.1) src, true⟩)).wf Reg.FLC_J_HEAD.JSN (s.rf Reg.FLC_J_HEAD.JSN + 1)

/-- The block of an APPEND that failed, retired. -/
def State.appendSpoilt (s : State) (pl src : Nat) : State :=
  (((s.onFlc (fun x => { x with headPg := s.flc.tgt.2 + 1 })).setFpage s.flc.tgt.1 s.flc.tgt.2
    (some ⟨logPage pl (s.rf Reg.FLC_J_HEAD.JSN) (SMap.get s.flc.erases 0 s.flc.tgt.1) src, false⟩)).markBad s.flc.tgt.1 2).logFault 1
      s.flc.tgt.1 6 6 s.flc.tgt.1

omit hcur hwho in
theorem dieEnd_append_ok (inv : Bool) (reads : List (List Nat)) : s.dieEnd j ⟨reads, inv, true⟩ =
    (some { fend j 0 with reloc := tries != 0, data := s.rf Reg.FLC_J_HEAD.JSN }, s.appended pl src) := by
  rw [State.dieEnd, hop]
  dsimp only
  rw [State.endAppend]
  dsimp only
  rw [if_neg (Nat.ne_of_lt hhead), if_pos rfl]
  rfl

omit hcur hwho in
theorem dieEnd_append_bad (inv : Bool) (reads : List (List Nat)) : ∃ r u, s.dieEnd j ⟨reads, inv, false⟩ = (r, u) ∧
    u.retired = (s.appendSpoilt pl src).retired ∧ (r = none ∨ ∃ n, n < 16 ∧ r = some (fend j n)) := by
  have hend : s.dieEnd j ⟨reads, inv, false⟩ = if tries = 2 then (some (fend j 6), s.appendSpoilt pl src)
      else (s.appendSpoilt pl src).goOn j (.append pl src (tries + 1)) := by
    rw [State.dieEnd, hop]
    dsimp only
    rw [State.endAppend]
    dsimp only
    rw [if_neg (Nat.ne_of_lt hhead), if_neg Bool.false_ne_true]
    rfl
  generalize s.appendSpoilt pl src = w at hend
  rw [hend]
  split
  · exact ⟨_, _, rfl, rfl, .inr ⟨6, by decide, rfl⟩⟩
  · obtain ⟨hkept, hr⟩ := retired_goOn w j (.append pl src (tries + 1))
    exact ⟨_, _, rfl, hkept, hr.imp_right (fun h => ⟨9, by decide, h⟩)⟩

omit hcur hwho hop hhead in
theorem retired_appendSpoilt : (s.appendSpoilt pl src).retired = (SMap.set s.flc.bad 0 s.flc.tgt.1 2, true, s.rf Reg.FLC_J_HEAD.JSN) := by
  unfold State.appendSpoilt
  obtain ⟨hflc0, -, hreg0⟩ := programmed_views s (s.flc.tgt.2 + 1) s.flc.tgt.1 s.flc.tgt.2
    (some ⟨logPage pl (s.rf Reg.FLC_J_HEAD.JSN) (SMap.get s.flc.erases 0 s.flc.tgt.1) src, false⟩)
  generalize (s.onFlc (fun x => { x with headPg := s.flc.tgt.2 + 1 })).setFpage s.flc.tgt.1 s.flc.tgt.2
    (some ⟨logPage pl (s.rf Reg.FLC_J_HEAD.JSN) (SMap.get s.flc.erases 0 s.flc.tgt.1) src, false⟩) = v at hflc0 hreg0
  obtain ⟨hbad, hreg⟩ := markBad_views v s.flc.tgt.1 2
  generalize v.markBad s.flc.tgt.1 2 = w at hbad hreg
  obtain ⟨hflc, -, hfault, hkept⟩ := logFault_shows w 1 s.flc.tgt.1 6 6 s.flc.tgt.1
  rw [State.retired, hflc, hbad, hflc0, hfault, rf_congr (f := Reg.FLC_J_HEAD.JSN) ((hkept _ (by decide)).trans ((hreg _).trans (hreg0 _)))]

theorem append_fails (inv : Bool) (reads : List (List Nat)) : Does (.dieOperationComplete ⟨reads, inv, false⟩) s (fun t =>
    t.goodBlock s.flc.tgt.1 = false ∧ t.on Reg.FLC_STATUS.FAULT = true ∧ t.rf Reg.FLC_J_HEAD.JSN = s.rf Reg.FLC_J_HEAD.JSN) := by
  obtain ⟨r, u, hend, hu, hr⟩ := dieEnd_append_bad hop hhead inv reads
  have hview := (retired_dieComplete hcur hwho hend hr).trans (hu.trans retired_appendSpoilt)
  refine ⟨_, rfl, ?_⟩
  generalize s.dieComplete ⟨reads, inv, false⟩ = t at hview
  obtain ⟨hbad, hfault, hjsn⟩ : t.flc.bad = _ ∧ t.on Reg.FLC_STATUS.FAULT = true ∧ t.rf Reg.FLC_J_HEAD.JSN = s.rf Reg.FLC_J_HEAD.JSN := by
    simpa only [State.retired, Prod.mk.injEq] using hview
  refine ⟨?_, hfault, hjsn⟩
  rw [State.goodBlock, hbad, SMap.get_set_same]
  rfl

omit hcur hwho hop hhead in
theorem appended_shows (hjsn : s.rf Reg.FLC_J_HEAD.JSN < 0xFFFFFFFF) : (s.appended pl src).flc = { s.flc with
      headPg := s.flc.tgt.2 + 1, pages := SMap.set s.flc.pages none (256 * s.flc.tgt.1 + s.flc.tgt.2)
        (some ⟨logPage pl (s.rf Reg.FLC_J_HEAD.JSN) (SMap.get s.flc.erases 0 s.flc.tgt.1) src, true⟩) } ∧
    (s.appended pl src).vault = s.vault ∧ (s.appended pl src).rf Reg.FLC_J_HEAD.JSN = s.rf Reg.FLC_J_HEAD.JSN + 1 := by
  unfold State.appended
  obtain ⟨hflc, hvault, -⟩ := programmed_views s (s.flc.tgt.2 + 1) s.flc.tgt.1 s.flc.tgt.2
    (some ⟨logPage pl (s.rf Reg.FLC_J_HEAD.JSN) (SMap.get s.flc.erases 0 s.flc.tgt.1) src, true⟩)
  generalize (s.onFlc (fun x => { x with headPg := s.flc.tgt.2 + 1 })).setFpage s.flc.tgt.1 s.flc.tgt.2
    (some ⟨logPage pl (s.rf Reg.FLC_J_HEAD.JSN) (SMap.get s.flc.erases 0 s.flc.tgt.1) src, true⟩) = v at hflc hvault
  obtain ⟨hwflc, hwvault⟩ := wf_views v Reg.FLC_J_HEAD.JSN (s.rf Reg.FLC_J_HEAD.JSN + 1)
  refine ⟨hwflc.trans hflc, hwvault.trans hvault, ?_⟩
  rw [State.rf_wf_same _ _ _ (show 0 + 32 ≤ 32 by decide)]
  exact Nat.mod_eq_of_lt (Nat.succ_lt_succ hjsn)

theorem append_succeeds (hqueue : s.flc.queue = []) (hidle : VaultIdle s) (inv : Bool) (reads : List (List Nat)) :
    Does (.dieOperationComplete ⟨reads, inv, true⟩) s (fun t =>
      t.rf Reg.FLC_RESULT.ERR = 0 ∧ t.rf Reg.FLC_JSN.JSN = s.rf Reg.FLC_J_HEAD.JSN ∧ t.rf Reg.FLC_J_HEAD.JSN = s.rf Reg.FLC_J_HEAD.JSN + 1 ∧
      t.on Reg.FLC_STATUS.DONE = true ∧ t.flc.headPg = s.flc.tgt.2 + 1 ∧ ∃ q, t.fpage s.flc.tgt.1 s.flc.tgt.2 = some q ∧ q.ok = true ∧
        q.jsn = s.rf Reg.FLC_J_HEAD.JSN ∧ q.data % 256 ^ 4000 = pl % 256 ^ 4000) := by
  have hexec := dieComplete_ended hcur (dieEnd_append_ok hop hhead inv reads)
  obtain ⟨hflc, hvault, hjsn⟩ := appended_shows (pl := pl) (src := src) hhead
  have hpending : (s.appended pl src).bbtPending = false := (bbtPending_congr s hvault).trans (bbtPending_idle hidle)
  generalize s.appended pl src = u at hexec hflc hpending hjsn
  have hdone := dieFree_flcDone (s := u) (e := { fend j 0 with reloc := tries != 0, data := s.rf Reg.FLC_J_HEAD.JSN }) (by rw [hflc]; exact hqueue)
    hpending hwho (by decide : 0 < 16) (by decide : 0 < 8) (by decide : 0 < 64)
  rw [← hexec] at hdone
  refine ⟨_, rfl, ?_⟩
  generalize s.dieComplete ⟨reads, inv, true⟩ = t at hdone
  obtain ⟨hERR, -, hDONE, -, -, hJSN, htflc, htreg⟩ := hdone
  have hlt : s.rf Reg.FLC_J_HEAD.JSN < 2 ^ 32 := hhead.trans (by decide)
  have hmoved : t.flc = { u.flc with cur := none } := by
    rw [htflc, Flc.moved]
    dsimp only [fend]
    rw [hop]
  refine ⟨hERR, (hJSN pl src tries hop rfl).trans (Nat.mod_eq_of_lt hlt), ?_, hDONE, ?_, ?_⟩
  · rw [rf_congr (f := Reg.FLC_J_HEAD.JSN) (htreg _ (by decide)), hjsn]
  · rw [hmoved, hflc]
  · refine ⟨⟨logPage pl (s.rf Reg.FLC_J_HEAD.JSN) (SMap.get s.flc.erases 0 s.flc.tgt.1) src, true⟩, ?_, rfl, jsn_logPage _ _ _ _ hlt,
      pack_cons_mod pl 4000 _⟩
    rw [State.fpage, hmoved, hflc, SMap.get_set_same]

end

end Sys2Proof.Machine
end

section
/-!
PROOFS. Erases, copy records and programs as they are asked for (R335, R342, R420), and initialisation (R343, R344).
-/

namespace Sys2Proof.Machine
open Sys2Proof.Claims

/-! ## Maintenance (R335, R339, R342) -/

section
variable {s : State}

theorem flcStart_tail (s : State) (j : FJob) {b : Nat} (hop : j.op = .tail b) : s.flcStart j =
    (((s.onDie j).onFlc (fun x => { x with tgt := (b, 0) })).wf Reg.FLC_J_TAIL.JSN
      (((s.onDie j).onFlc (fun x => { x with tgt := (b, 0) })).tailFrom (((s.onDie j).onFlc (fun x => { x with tgt := (b, 0) })).nextGood b))).intendTgt := by
  rw [State.flcStart, hop]
  rfl

theorem flcStart_bbt (s : State) (j : FJob) {pg body : Nat} (hop : j.op = .bbt pg body) :
    s.flcStart j = (s.onDie j).onFlc (fun x => { x with tgt := (0, pg) }) := by
  rw [State.flcStart, hop]
  rfl

/-- The intent cell of a good block programmed before its erase. -/
theorem flc_intendTgt (h : s.goodBlock s.flc.tgt.1 = true) :
    s.intendTgt.flc = { s.flc with intent := SMap.set s.flc.intent true s.flc.tgt.1 false } := by
  rw [State.intendTgt, State.flc_recount, if_pos h]
  rfl

theorem flc_wf (s : State) (f : Fd) (v : Nat) : (s.wf f v).flc = s.flc := rfl

/-- The store once the erase of a good tail block has begun. -/
theorem flc_flcStart_tail (s : State) (j : FJob) {b : Nat} (hop : j.op = .tail b) (hgood : s.goodBlock b = true) : (s.flcStart j).flc =
    { s.flc with queue := dropJob s.flc.queue j, cur := some j, tgt := (b, 0), intent := SMap.set s.flc.intent true b false } := by
  have htgt (v : Nat) : (((s.onDie j).onFlc (fun x => { x with tgt := (b, 0) })).wf Reg.FLC_J_TAIL.JSN v).flc =
      { s.flc with queue := dropJob s.flc.queue j, cur := some j, tgt := (b, 0) } := by rw [flc_wf]; rfl
  rw [flcStart_tail s j hop]
  generalize ((s.onDie j).onFlc (fun x => { x with tgt := (b, 0) })).tailFrom _ = v
  specialize htgt v
  generalize ((s.onDie j).onFlc (fun x => { x with tgt := (b, 0) })).wf Reg.FLC_J_TAIL.JSN v = u at htgt
  rw [flc_intendTgt (by rw [State.goodBlock, htgt]; exact hgood), htgt]

theorem tailErase_starts {b : Nat} (hdue : s.flc.tailDue = some b) (hidle : FlashIdle s) (hgood : s.goodBlock b = true) :
    Does .tailErase s (fun t => t.flc.tailDue = none ∧ t.flc.cur = some ⟨.maint, .tail b, 0⟩ ∧ SMap.get t.flc.intent true b = false ∧
      t.flc.pages = s.flc.pages) := by
  obtain ⟨hcur, hpend, hqueue, hpwr, hinit, hhold⟩ := hidle
  have hexec : exec .tailErase s = .next ((s.onFlc (fun x => { x with tailDue := none })).flcRequest ⟨.maint, .tail b, 0⟩) := by
    rw [show exec .tailErase s = execTailErase s from rfl, execTailErase, hdue]
    exact if_neg (by rw [hpwr]; exact Bool.false_ne_true)
  rw [flcRequest_goes (s.onFlc (fun x => { x with tailDue := none })) _ ⟨hcur, hpend, hqueue, hpwr, hinit, hhold⟩ (fun _ _ _ => FOp.noConfusion)] at hexec
  have hflc := flc_flcStart_tail ((s.onFlc (fun x => { x with tailDue := none })).onFlc (fun x => { x with queue := x.queue ++ [⟨.maint, .tail b, 0⟩] }))
    ⟨.maint, .tail b, 0⟩ rfl hgood
  refine ⟨_, hexec, by rw [hflc]; rfl, by rw [hflc], ?_, by rw [hflc]; rfl⟩
  rw [hflc]
  exact SMap.get_set_same s.flc.intent true b false

theorem copyRecord_starts {p : Nat} (hunrec : s.flc.unrec ≠ []) (hidle : FlashIdle s) (hp : p < 128) (hfree : SMap.get s.flc.fields none p = none)
    (hused : ∀ q, q < p → SMap.get s.flc.fields none q ≠ none) : Does .bbtCopyRecord s (fun t =>
      t.flc.cur = some ⟨.maint, .bbt p (s.bbtRecord (s.flc.unrec.take 12)), 0⟩ ∧ t.flc.fields = s.flc.fields) := by
  have hfind : (List.range 128).find? (fun p => (SMap.get s.flc.fields none p).isNone) = some p := by
    rw [List.find?_range_eq_some]
    refine ⟨by rw [hfree]; rfl, List.mem_range.2 hp, fun q hq => ?_⟩
    obtain ⟨v, hv⟩ := Option.ne_none_iff_exists'.1 (hused q hq)
    rw [hv]
    rfl
  have hexec : exec .bbtCopyRecord s = .next (s.flcRequest ⟨.maint, .bbt p (s.bbtRecord (s.flc.unrec.take 12)), 0⟩) := by
    obtain ⟨hcur, -, hqueue, hpwr, hinit, -⟩ := hidle
    rw [show exec .bbtCopyRecord s = execBbtCopyRecord s from rfl, execBbtCopyRecord]
    dsimp only
    rw [hfind, hcur, hqueue, hpwr, hinit, List.isEmpty_eq_false_iff.2 hunrec]
    rfl
  rw [flcRequest_goes _ _ hidle (fun _ _ _ => FOp.noConfusion), flcStart_bbt _ _ rfl] at hexec
  exact ⟨_, hexec, rfl, rfl⟩

theorem copyRecord_none (hunrec : s.flc.unrec = []) : Does .bbtCopyRecord s (fun t => t = s) := by
  refine ⟨s, ?_, rfl⟩
  rw [show exec .bbtCopyRecord s = execBbtCopyRecord s from rfl, execBbtCopyRecord]
  dsimp only
  split
  · rw [hunrec]
    rfl
  · rfl

/-- An operation of the engine waits while the die is busy. -/
theorem fsvRequest_waits (j : FJob) (hcur : s.flc.cur ≠ none) (hpwr : s.on Reg.FLC_STATUS.PWRFAIL = false) :
    s.fsvRequest j = s.onFlc (fun x => { x with queue := x.queue ++ [j] }) :=
  (if_neg (by rw [hpwr]; exact Bool.false_ne_true)).trans (flcRequest_waits hcur)

section
variable {r : FReq} {u : Upd} (hreq : s.updReq = some r) (hupd : s.fsv.upd = some u) (hdie : s.fsvOnDie = false) (hcur : s.flc.cur ≠ none)
  (hpwr : s.on Reg.FLC_STATUS.PWRFAIL = false)
include hreq hupd hdie hcur hpwr

theorem flcProgram_waits (hop : r.op = 0x51) : Does .flcProgram s (fun t => t = { s with flc := { s.flc with
    queue := s.flc.queue ++ [⟨.fsv, .program (regionBase u.target + u.next / 128) (u.next % 128) u.page, 0⟩] } }) := by
  refine ⟨_, congrArg Host.Outcome.next ?_, rfl⟩
  rw [State.programNext, hreq, hupd]
  dsimp only
  rw [if_neg (by rw [hdie]; exact Bool.false_ne_true), if_pos hop]
  exact fsvRequest_waits _ hcur hpwr

theorem flcErase_waits (hop : r.op = 0x50) (herased : u.erased < 48) : Does .flcErase s (fun t => t = { s with flc := { s.flc with
    queue := s.flc.queue ++ [⟨.fsv, .erase (regionBase u.target + u.erased) false, 0⟩] } }) := by
  refine ⟨_, congrArg Host.Outcome.next ?_, rfl⟩
  rw [State.eraseNext, hreq, hupd]
  dsimp only
  rw [if_pos ⟨hop, herased, by rw [hdie]; rfl⟩]
  exact fsvRequest_waits _ hcur hpwr

end

end

/-! ## Initialisation (R343, R344) -/

/-- The pages, the blocks found with an erase cut short, and DIE_FAULT. -/
def State.initView (s : State) : SMap (Option FPage) × List Nat × Bool := (s.flc.pages, s.flc.scanned, s.on Reg.FLC_STATUS.DIE_FAULT)

section
variable (s : State)

theorem initView_onFlc (g : Flc → Flc) (hpages : (g s.flc).pages = s.flc.pages) (hscanned : (g s.flc).scanned = s.flc.scanned) :
    (s.onFlc g).initView = s.initView := by
  rw [State.initView, State.initView, State.on_onFlc, ← hpages, ← hscanned]
  rfl

theorem initView_wf (f : Fd) (v : Nat) (h : f.addr ≠ Reg.FLC_STATUS_at ∨ f.lo + f.width ≤ 6 ∨ 7 ≤ f.lo) : (s.wf f v).initView = s.initView := by
  rw [State.initView, State.initView, flc_wf, State.on_wf_other _ _ _ _ (h.imp Ne.symm Or.symm)]

theorem initView_vaultQueues (ids : List Nat) : (ids.foldl State.vaultQueue s).initView = s.initView := by
  induction ids generalizing s with
  | nil => rfl
  | cons id t ih => exact (ih (s.vaultQueue id)).trans rfl

theorem initView_reconcileTables : s.reconcileTables.initView = s.initView := by
  unfold State.reconcileTables
  dsimp only
  rw [initView_vaultQueues]
  exact initView_onFlc s _ rfl rfl

theorem initView_loadIndex : s.loadIndex.initView = s.initView := by
  unfold State.loadIndex
  dsimp only
  split
  · exact initView_onFlc s _ rfl rfl
  · rw [initView_wf _ _ _ (.inl (by decide)), initView_onFlc _ _ rfl rfl]
    exact initView_onFlc s _ rfl rfl

theorem initView_scanHead (fuel : Nat) : (s.scanHead fuel).initView = s.initView := by
  induction fuel generalizing s with
  | zero => rfl
  | succ n ih =>
    have hjsn (c : Prop) [Decidable c] (v : Nat) : (if c then s.wf Reg.FLC_J_HEAD.JSN v else s).initView = s.initView := by
      split
      · exact initView_wf s _ _ (.inl (by decide))
      · rfl
    rw [State.scanHead]
    split
    · rfl
    · dsimp only
      split
      · exact hjsn _ _
      · rw [ih, initView_onFlc _ _ rfl rfl]
        exact hjsn _ _

theorem initView_dueTail : s.dueTail.initView = s.initView := by
  obtain ⟨d, hd⟩ := dueTail_eq s
  rw [hd]
  exact initView_onFlc s _ rfl rfl

theorem initView_recount : s.recount.initView = s.initView := by
  rw [State.initView, State.initView, State.flc_recount, on_recount rfl]

theorem initView_flcGrant : s.flcGrant.initView = s.initView := by
  have hstore := store_flcGrant s
  rw [State.initView, State.initView, on_flcGrant rfl s (by decide), show s.flcGrant.flc.pages = s.flc.pages from congrArg Prod.fst hstore,
    show s.flcGrant.flc.scanned = s.flc.scanned from congrArg (fun x => x.2.2.2.2) hstore]

/-- Initialisation where the die answers and no erase was cut short. -/
theorem flcInit_eq (hinit : s.on Reg.FLC_STATUS.INIT = true) (hfault : s.on Reg.FLC_STATUS.DIE_FAULT = false)
    (hintent : ∀ b, b < 2048 → SMap.get s.flc.intent true b = true) (fails : List Nat) : ∃ x : State,
      x.initView = (s.flc.pages, [], s.on Reg.FLC_STATUS.DIE_FAULT) ∧ s.flcInit true fails = ((x.wf Reg.FLC_STATUS.INIT 0).recount).flcGrant := by
  have hzero : (List.range 2048).filter (fun b => !(SMap.get s.flc.intent true b)) = [] := by
    refine List.filter_eq_nil_iff.2 (fun b hb => ?_)
    rw [hintent b (List.mem_range.1 hb)]
    exact Bool.false_ne_true
  have hscanned : (s.onFlc (fun x => { x with scanned := [] })).initView = (s.flc.pages, [], s.on Reg.FLC_STATUS.DIE_FAULT) := rfl
  unfold State.flcInit
  rw [if_neg (by rw [hinit, hfault]; decide), if_neg (by decide)]
  simp only [hzero, List.any_nil, List.filter_nil, State.reErase, State.respareAll, Bool.false_eq_true, if_false]
  refine ⟨_, ?_, rfl⟩
  refine Eq.trans ?_ hscanned
  generalize s.onFlc (fun x => { x with scanned := [] }) = u
  have hloaded : (u.reconcileTables.loadIndex.scanHead 256).initView = u.initView := by
    rw [initView_scanHead, initView_loadIndex, initView_reconcileTables]
  generalize u.reconcileTables.loadIndex.scanHead 256 = v at hloaded
  rw [← hloaded]
  have htail (k : Nat) : ((v.wf Reg.FLC_J_TAIL.JSN k).dueTail.onFlc (fun x => { x with points := [] })).initView = v.initView := by
    rw [initView_onFlc _ _ rfl rfl, initView_dueTail, initView_wf _ _ _ (.inl (by decide))]
  specialize htail (v.tailFrom (v.nextGood v.flc.headBlk))
  generalize (v.wf Reg.FLC_J_TAIL.JSN (v.tailFrom (v.nextGood v.flc.headBlk))).dueTail.onFlc (fun x => { x with points := [] }) = w at htail
  split
  · rw [initView_wf _ _ _ (.inr (.inr (by decide))), htail]
  · exact htail

theorem exec_flcInit (hup : s.online islFlash = true) (hphase : s.boot.phase ≠ .start) (hpwr : s.on Reg.FLC_STATUS.PWRFAIL = false)
    (dieOk : Bool) (fails : List Nat) : exec (.flcInit dieOk fails) s = .next (s.flcInit dieOk fails).vaultBegin := by
  refine if_neg ?_
  rw [hup, hpwr, beq_eq_false_iff_ne.2 hphase]
  exact Bool.false_ne_true

theorem flcInit_dead (hup : s.online islFlash = true) (hphase : s.boot.phase ≠ .start) (hpwr : s.on Reg.FLC_STATUS.PWRFAIL = false)
    (hinit : s.on Reg.FLC_STATUS.INIT = true) (hfault : s.on Reg.FLC_STATUS.DIE_FAULT = false) (fails : List Nat) :
    Does (.flcInit false fails) s (fun t => t.on Reg.FLC_STATUS.DIE_FAULT = true ∧ t.on Reg.FLC_STATUS.INIT = true ∧ t.flc = s.flc) := by
  have hend : s.flcInit false fails = s.wf Reg.FLC_STATUS.DIE_FAULT 1 :=
    (if_neg (by rw [hinit, hfault]; decide)).trans (if_pos rfl)
  have hexec := exec_flcInit s hup hphase hpwr false fails
  rw [hend] at hexec
  refine ⟨_, hexec, ?_, ?_, ?_⟩
  · rw [State.on_vaultBegin]
    exact s.on_wf_b2n true Reg.FLC_STATUS.DIE_FAULT (by decide) rfl
  · rw [State.on_vaultBegin, State.on_wf_other _ _ _ _ (by decide), hinit]
  · rw [flc_vaultBegin, flc_wf]

theorem flcInit_runs (hup : s.online islFlash = true) (hphase : s.boot.phase ≠ .start) (hpwr : s.on Reg.FLC_STATUS.PWRFAIL = false)
    (hinit : s.on Reg.FLC_STATUS.INIT = true) (hfault : s.on Reg.FLC_STATUS.DIE_FAULT = false)
    (hintent : ∀ b, b < 2048 → SMap.get s.flc.intent true b = true) (fails : List Nat) : Does (.flcInit true fails) s (fun t =>
      t.on Reg.FLC_STATUS.INIT = false ∧ t.on Reg.FLC_STATUS.DIE_FAULT = false ∧ t.flc.pages = s.flc.pages ∧ t.flc.scanned = []) := by
  obtain ⟨x, hx, heq⟩ := flcInit_eq s hinit hfault hintent fails
  have hexec := exec_flcInit s hup hphase hpwr true fails
  rw [heq] at hexec
  have hview : ((x.wf Reg.FLC_STATUS.INIT 0).recount.flcGrant).initView = (s.flc.pages, [], false) := by
    rw [initView_flcGrant, initView_recount, initView_wf _ _ _ (.inr (.inl (by decide))), hx, hfault]
  obtain ⟨hpages, hscanned, hdie⟩ : _ = _ ∧ _ = _ ∧ _ = _ := by simpa only [State.initView, Prod.mk.injEq] using hview
  refine ⟨_, hexec, ?_, ?_, ?_, ?_⟩
  · rw [State.on_vaultBegin, on_flcGrant rfl _ (by decide), on_recount rfl]
    exact x.on_wf_b2n false Reg.FLC_STATUS.INIT (by decide) rfl
  · rw [State.on_vaultBegin, hdie]
  · rw [flc_vaultBegin, hpages]
  · rw [flc_vaultBegin, hscanned]

end

end Sys2Proof.Machine
end

section
/-!
PROOFS. The flash operations' ends, put together.
-/

namespace Sys2Proof.Machine
open Sys2Proof.Claims

/-- Settles O40: each operation's end is followed through the die being freed, its result handed over and the next request granted. -/
theorem flashOperationsEnd : Obligations.FlashOperationsEnd := by
  unfold Obligations.FlashOperationsEnd
  intro s
  refine ⟨?_, ?_, ?_, ?_, ?_, ?_, copyRecord_none, ?_, ?_⟩
  · intro j b pg pv es rest ok inv hcur hwho hop _ hqueue hidle _ hgood hpage hpv hwait hes
    exact read_decoded hcur hwho hop hqueue hidle hgood hpage hpv hwait hes
  · intro j b pg pv o hcur hwho hop _ hqueue hidle _ hgood hpage hpv hwait ho
    exact read_hopeless hcur hwho hop hqueue hidle hgood hpage hpv hwait ho
  · intro j pl src tries inv reads hcur hwho hop _ hqueue hidle _ hhead _
    exact ⟨append_succeeds hcur hwho hop hhead hqueue hidle inv reads, append_fails hcur hwho hop hhead inv reads⟩
  · intro j b pg hcur hwho hop hqueue hidle
    exact read_timesOut hcur hwho hop hqueue hidle
  · intro b hdue hidle hgood
    exact tailErase_starts hdue hidle hgood
  · intro p hunrec hidle hp hfree hused
    exact copyRecord_starts hunrec hidle hp hfree hused
  · intro r u hreq hupd hdie hcur hpwr
    exact ⟨flcProgram_waits hreq hupd hdie hcur hpwr, flcErase_waits hreq hupd hdie hcur hpwr⟩
  · intro hup hphase hpwr hinit hfault fails
    exact ⟨flcInit_dead s hup hphase hpwr hinit hfault fails, fun hintent => flcInit_runs s hup hphase hpwr hinit hfault hintent fails⟩

end Sys2Proof.Machine
end

section
/-!
PROOFS. The sequencer's reads of flash (R327, R404 to R407): what they count, and that the containers read the same after them.
-/

namespace Sys2Proof.Machine
open Sys2Proof.Claims

/-! ## Containers that read the same -/

/-- The flash, its wait states and DIE_FAULT as they were. -/
structure SameFlash (s t : State) : Prop where
  flc : t.flc = s.flc
  grade : t.grade = s.grade
  wait : t.rdwaitLow = s.rdwaitLow
  dead : t.on Reg.FLC_STATUS.DIE_FAULT = s.on Reg.FLC_STATUS.DIE_FAULT

namespace SameFlash
variable {s t : State} (h : SameFlash s t) (errs : List (Nat × List Nat)) (r : Nat)
include h

theorem goodBlock (b : Nat) : t.goodBlock b = s.goodBlock b := by rw [State.goodBlock, State.goodBlock, h.flc]

theorem fpage (b p : Nat) : t.fpage b p = s.fpage b p := by rw [State.fpage, State.fpage, h.flc]

theorem contAt (p : Nat) : t.contAt r p = s.contAt r p := by simp only [State.contAt, State.physOf, h.flc]

theorem bootGood (k : Nat) : t.bootGood errs k = s.bootGood errs k := by
  simp only [State.bootGood, h.goodBlock, h.fpage, h.wait]

theorem contPage (p : Nat) : t.contPage errs r p = s.contPage errs r p := by
  simp only [State.contPage, h.contAt, h.fpage, h.bootGood]

theorem contBytes (n : Nat) : t.contBytes errs r n = s.contBytes errs r n := by simp only [State.contBytes, h.contPage]

theorem contHead : t.contHead errs r = s.contHead errs r := by simp only [State.contHead, h.contPage, h.contBytes]

theorem contCommit (d : Head1) : t.contCommit errs r d = s.contCommit errs r d := by simp only [State.contCommit, h.contPage]

theorem committed : t.committed errs r = s.committed errs r := by simp only [State.committed, h.contHead, h.contCommit]

theorem contSections (d : Head1) : t.contSections errs r d = s.contSections errs r d := by simp only [State.contSections, h.contBytes]

theorem contOf : t.contOf errs r = s.contOf errs r := by simp only [State.contOf, h.contHead, h.contSections]

theorem bootCommitted : t.bootCommitted errs r = s.bootCommitted errs r := by simp only [State.bootCommitted, h.dead, h.committed]

theorem verifyCode : t.verifyCode errs r = s.verifyCode errs r := by
  simp only [State.verifyCode, h.contHead, h.contCommit, h.contPage, h.contSections, h.contBytes, h.grade]

theorem bootVerify : t.bootVerify errs r = s.bootVerify errs r := by simp only [State.bootVerify, h.dead, h.verifyCode]

/-- With the wait states that verification sets, data are read as they are. -/
theorem verified : t.verified r = s.verified r := by
  have hlow (u : State) : (u.wf Reg.FLC_RDWAIT.WAIT 15).rdwaitLow = false := by
    rw [State.rdwaitLow, u.rf_wf_same Reg.FLC_RDWAIT.WAIT 15 (show 0 + 4 ≤ 32 by decide)]
    rfl
  have hsame : SameFlash (s.wf Reg.FLC_RDWAIT.WAIT 15) (t.wf Reg.FLC_RDWAIT.WAIT 15) :=
    ⟨h.flc, h.grade, by rw [hlow, hlow], by rw [State.on_wf_other _ _ _ _ (by decide), State.on_wf_other _ _ _ _ (by decide), h.dead]⟩
  exact hsame.contOf [] r

end SameFlash

section
variable {s t : State}

/-- The registers that the containers' reading rests on. -/
def flashRegs : List Nat := [Reg.FLC_RDWAIT_at, Reg.IOPLL_ISL_at islFlash, Reg.FLC_STATUS_at]

theorem sameFlash_of {as : List Nat} (hflc : t.flc = s.flc) (hgrade : t.grade = s.grade) (hreg : ∀ a, a ∉ as → t.reg a = s.reg a)
    (has : ∀ a ∈ flashRegs, a ∉ as) : SameFlash s t := by
  have hwait := rf_congr (f := Reg.FLC_RDWAIT.WAIT) (hreg _ (has _ (by decide)))
  have hdiv := rf_congr (f := Reg.IOPLL_ISL.DIV islFlash) (hreg _ (has _ (by decide)))
  have hdead := rf_congr (f := Reg.FLC_STATUS.DIE_FAULT) (hreg _ (has _ (by decide)))
  refine ⟨hflc, hgrade, ?_, by rw [State.on, State.on, hdead]⟩
  rw [State.rdwaitLow, State.rdwaitLow, State.rdwaitFor, State.rdwaitFor, hwait, hdiv]

theorem sameFlash_regs {as : List Nat} {es : List (Fin 64)} (h : Regs s t as es) (has : ∀ a ∈ flashRegs, a ∉ as) : SameFlash s t :=
  sameFlash_of (by rw [h.1]) (by rw [h.1]) h.2 has

end

/-! ## The counts of the sequencer's reads (R333) -/

section
variable (s : State) (errs : List (Nat × List Nat)) (r : Nat)

theorem regs_bootReads (ps : List Nat) : Regs s (s.bootReads errs r ps) readCounts [] := by
  induction ps generalizing s with
  | nil => exact regs_refl s _
  | cons p t ih =>
    refine Regs.trans (t := (s.bootReads errs r [p])) ?_ (ih _)
    unfold State.bootReads
    rw [List.foldl_cons, List.foldl_nil]
    dsimp only
    split
    · exact regs_refl s _
    · split
      · exact regs_refl s _
      · split
        · exact (regs_refl s _).incSat _ _ (by decide)
        · exact (regs_refl s _).incSat _ _ (by decide)

theorem regs_verifyReads : Regs s (s.verifyReads errs r) readCounts [] := by
  unfold State.verifyReads
  split
  · exact regs_refl s _
  · exact regs_bootReads s errs r _

theorem regs_foldl_bootReads (ps : State → Nat → List Nat) (rs : List Nat) :
    Regs s (rs.foldl (fun s r => s.bootReads errs r (ps s r)) s) readCounts [] := by
  induction rs generalizing s with
  | nil => exact regs_refl s _
  | cons r t ih => exact (regs_bootReads s errs r _).trans (ih _)

theorem regs_selectReads : Regs s (s.selectReads errs) readCounts [] := by
  unfold State.selectReads
  split
  · exact regs_refl s _
  · exact regs_foldl_bootReads s errs (fun s r => [0] ++ ((s.contHead errs r).map Head1.n).toList) _

theorem sameFlash_verifyReads : SameFlash s (s.verifyReads errs r) := sameFlash_regs (regs_verifyReads s errs r) (by decide)

theorem sameFlash_selectReads : SameFlash s (s.selectReads errs) := sameFlash_regs (regs_selectReads s errs) (by decide)

end

/-- A step of the sequence is due: its phase. -/
theorem phase_of_seqAt {s : State} {p : BootPhase} (h : s.seqAt p = true) : s.boot.phase = p := by
  simp only [State.seqAt, Bool.and_eq_true, decide_eq_true_eq] at h
  exact h.1.1

theorem phase_of_readAt {s : State} {p : BootPhase} (h : s.readAt p = true) : s.boot.phase = p := by
  simp only [State.readAt, Bool.and_eq_true] at h
  exact phase_of_seqAt h.1.1

end Sys2Proof.Machine
end

section
/-!
PROOFS. Slot selection (R406, R413).
-/

namespace Sys2Proof.Machine
open Sys2Proof.Claims

/-! ## The candidates in order (R406) -/

/-- UPSEQ of a user slot that is a candidate. -/
def State.userSeq (s : State) (errs : List (Nat × List Nat)) (k : Nat) : Option Nat :=
  match s.bootCommitted errs k with
  | some q => if q ≠ s.rf (rejOf k) then some q else none
  | none => none

/-- The user slots in order of UPSEQ, A first where they are equal. -/
def inOrder (x y : Option Nat) : List Nat :=
  match x, y with
  | some a, some b => if b ≤ a then [1, 2] else [2, 1]
  | some _, none => [1]
  | none, some _ => [2]
  | none, none => []

theorem mem_inOrder (x y : Option Nat) (j : Nat) : j ∈ inOrder x y ↔ (j = 1 ∧ x.isSome) ∨ (j = 2 ∧ y.isSome) := by
  cases x with
  | none => cases y with
    | none => simp [inOrder]
    | some b => simp [inOrder]
  | some a => cases y with
    | none => simp [inOrder]
    | some b =>
      rw [inOrder]
      split
      · simp
      · simp [or_comm]

section
variable (s : State) (errs : List (Nat × List Nat))

theorem candidates_eq : s.candidates errs =
    inOrder (s.userSeq errs 1) (s.userSeq errs 2) ++ (if (s.bootCommitted errs 0).isSome then [0] else []) := rfl

variable {s errs}

theorem userSeq_of {k q : Nat} (hq : s.bootCommitted errs k = some q) (hne : q ≠ s.rf (rejOf k)) : s.userSeq errs k = some q := by
  rw [State.userSeq, hq]
  exact if_pos hne

theorem userSeq_isSome {k : Nat} (hk : k < 3) (h0 : k ≠ 0) : (s.userSeq errs k).isSome ↔ Candidate s errs k := by
  constructor
  · intro h
    unfold State.userSeq at h
    split at h
    · next q hq =>
      split at h
      · next hne => exact ⟨hk, q, hq, fun _ => hne⟩
      · cases h
    · cases h
  · rintro ⟨-, q, hq, hne⟩
    rw [userSeq_of hq (hne h0)]
    rfl

theorem bootCommitted_isSome : (s.bootCommitted errs 0).isSome ↔ Candidate s errs 0 := by
  rw [Option.isSome_iff_exists]
  exact ⟨fun ⟨q, hq⟩ => ⟨by decide, q, hq, fun h => absurd rfl h⟩, fun ⟨_, q, hq, _⟩ => ⟨q, hq⟩⟩

theorem mem_candidates (j : Nat) : j ∈ s.candidates errs ↔ Candidate s errs j := by
  have h1 := userSeq_isSome (s := s) (errs := errs) (k := 1) (by decide) (by decide)
  have h2 := userSeq_isSome (s := s) (errs := errs) (k := 2) (by decide) (by decide)
  have h0 := bootCommitted_isSome (s := s) (errs := errs)
  have hzero : j ∈ (if (s.bootCommitted errs 0).isSome then [0] else []) ↔ j = 0 ∧ Candidate s errs 0 := by
    rw [← h0]
    split
    · next h => simp [h]
    · next h => simp [h]
  rw [candidates_eq, List.mem_append, mem_inOrder, h1, h2, hzero]
  constructor
  · rintro ((⟨rfl, h⟩ | ⟨rfl, h⟩) | ⟨rfl, h⟩) <;> exact h
  · intro h
    obtain hj | hj | hj : j = 0 ∨ j = 1 ∨ j = 2 := by have := h.1; omega
    · exact .inr ⟨hj, hj ▸ h⟩
    · exact .inl (.inl ⟨hj, hj ▸ h⟩)
    · exact .inl (.inr ⟨hj, hj ▸ h⟩)

/-- The factory image comes last. -/
theorem candidates_factory (h : 0 ∈ s.candidates errs) : (s.candidates errs).getLast? = some 0 := by
  have hsome := bootCommitted_isSome.2 ((mem_candidates 0).1 h)
  rw [candidates_eq, if_pos hsome]
  exact List.getLast?_concat

theorem candidates_first {a b : Nat} (h1 : Candidate s errs 1) (h2 : Candidate s errs 2) (ha : s.bootCommitted errs 1 = some a)
    (hb : s.bootCommitted errs 2 = some b) : (s.candidates errs).head? = some (if b ≤ a then 1 else 2) := by
  obtain ⟨-, a', ha', hne1⟩ := h1
  obtain rfl : a' = a := Option.some.inj (ha'.symm.trans ha)
  obtain ⟨-, b', hb', hne2⟩ := h2
  obtain rfl : b' = b := Option.some.inj (hb'.symm.trans hb)
  rw [candidates_eq, userSeq_of ha (hne1 (by decide)), userSeq_of hb (hne2 (by decide)), inOrder]
  split <;> rfl

theorem candidates_congr {t : State} (h : SameFlash s t) (h1 : t.rf (rejOf 1) = s.rf (rejOf 1)) (h2 : t.rf (rejOf 2) = s.rf (rejOf 2)) :
    t.candidates errs = s.candidates errs := by
  rw [candidates_eq, candidates_eq, State.userSeq, State.userSeq, State.userSeq, State.userSeq, h.bootCommitted, h.bootCommitted, h.bootCommitted, h1, h2]

end

/-! ## SLOT_SELECTION -/

section
variable {s : State} {errs : List (Nat × List Nat)}

/-- Nothing but the sequencer and registers has changed since a state. -/
theorem seqOnly_onBoot {u : State} {as : List Nat} (h : Regs s u as []) (f : Boot → Boot) {p : BootPhase} (hf : (f u.boot).phase = p) :
    SeqOnly s (u.onBoot f) p as := by
  refine ⟨?_, hf, h.2⟩
  rw [State.onBoot, h.eq_io]

/-- The trial given up: its UPSEQ rejected, the latch cleared. -/
theorem abandonTrial_gives {k : Nat} (hk : k = 1 ∨ k = 2) (hslot : s.rf Reg.BOOT_TRIAL.SLOT = k) (hsys : s.boot.sys = true)
    (hcause : s.rf Reg.BOOT_RESET_CAUSE.CAUSE = 1) : ∃ u : State, s.abandonTrial errs = u.onBoot (fun b => { b with revert := some k }) ∧
      Regs s u [(rejOf k).addr, Reg.BOOT_TRIAL_at] [] ∧ u.rf Reg.BOOT_TRIAL.SLOT = 0 ∧ u.rf Reg.BOOT_TRIAL.TRIES = 0 ∧
      u.rf (rejOf k) = (s.contHead errs k).elim 0 Head1.upseq % 2 ^ 32 := by
  subst hslot
  generalize hk' : s.rf Reg.BOOT_TRIAL.SLOT = k at hk
  refine ⟨(s.wf (rejOf k) ((s.contHead errs k).elim 0 Head1.upseq)).clearTrial, ?_, ?_, ?_, ?_, ?_⟩
  · rw [State.abandonTrial]
    rw [hk', if_pos ⟨hsys, hcause, hk⟩]
  · exact (((regs_refl s _).wf (rejOf k) _ (.head _)).wf Reg.BOOT_TRIAL.SLOT 0 (.tail _ (.head _))).wf Reg.BOOT_TRIAL.TRIES 0 (.tail _ (.head _))
  · rw [State.clearTrial, State.rf_wf_other _ _ _ _ (by decide), State.rf_wf_same _ _ _ (show 0 + 2 ≤ 32 by decide)]
    rfl
  · rw [State.clearTrial, State.rf_wf_same _ _ _ (show 2 + 2 ≤ 32 by decide)]
    rfl
  · rw [State.clearTrial]
    rcases hk with rfl | rfl
    · rw [State.rf_wf_other _ _ _ _ (by decide), State.rf_wf_other _ _ _ _ (by decide)]
      exact State.rf_wf_same _ _ _ (show 0 + 32 ≤ 32 by decide)
    · rw [State.rf_wf_other _ _ _ _ (by decide), State.rf_wf_other _ _ _ _ (by decide)]
      exact State.rf_wf_same _ _ _ (show 0 + 32 ≤ 32 by decide)

variable (hdue : s.readAt .checked = true) (hinit : s.on Reg.FLC_STATUS.INIT = false)
include hdue hinit

theorem exec_slotSelection : exec (.slotSelection errs) s = .next (((s.abandonTrial errs).selectReads errs).onBoot
    (fun b => { b with cands := ((s.abandonTrial errs).selectReads errs).candidates errs, phase := .chosen })) :=
  if_pos ⟨hdue, .inl (by rw [hinit]; rfl)⟩

theorem slotSelection_chooses (hkept : ¬ (s.boot.sys = true ∧ s.rf Reg.BOOT_RESET_CAUSE.CAUSE = 1 ∧
      (s.rf Reg.BOOT_TRIAL.SLOT = 1 ∨ s.rf Reg.BOOT_TRIAL.SLOT = 2))) : Does (.slotSelection errs) s (fun t =>
      SeqOnly s t .chosen readCounts ∧ (∀ j, j ∈ t.boot.cands ↔ Candidate s errs j) ∧ (0 ∈ t.boot.cands → t.boot.cands.getLast? = some 0) ∧
      (∀ a b, Candidate s errs 1 → Candidate s errs 2 → s.bootCommitted errs 1 = some a → s.bootCommitted errs 2 = some b →
        t.boot.cands.head? = some (if b ≤ a then 1 else 2))) := by
  have hexec := exec_slotSelection (errs := errs) hdue hinit
  rw [show s.abandonTrial errs = s from if_neg hkept] at hexec
  have hregs := regs_selectReads s errs
  have hcands : (s.selectReads errs).candidates errs = s.candidates errs := candidates_congr (sameFlash_selectReads s errs)
    (rf_congr (hregs.2 _ (by decide))) (rf_congr (hregs.2 _ (by decide)))
  rw [hcands] at hexec
  refine ⟨_, hexec, seqOnly_onBoot hregs _ rfl, fun j => ?_, fun h => ?_, fun a b h1 h2 ha hb => ?_⟩
  · exact mem_candidates j
  · exact candidates_factory h
  · exact candidates_first h1 h2 ha hb

theorem slotSelection_abandons {k : Nat} (hk : k = 1 ∨ k = 2) (hslot : s.rf Reg.BOOT_TRIAL.SLOT = k) (hsys : s.boot.sys = true)
    (hcause : s.rf Reg.BOOT_RESET_CAUSE.CAUSE = 1) : Does (.slotSelection errs) s (fun t =>
      SeqOnly s t .chosen ([(rejOf k).addr, Reg.BOOT_TRIAL_at] ++ readCounts) ∧ t.rf Reg.BOOT_TRIAL.SLOT = 0 ∧ t.rf Reg.BOOT_TRIAL.TRIES = 0 ∧
      t.rf (rejOf k) = (s.contHead errs k).elim 0 Head1.upseq % 2 ^ 32 ∧ t.boot.revert = some k) := by
  have hexec := exec_slotSelection (errs := errs) hdue hinit
  obtain ⟨u, hu, hregs, hSLOT, hTRIES, hREJ⟩ := abandonTrial_gives (errs := errs) hk hslot hsys hcause
  rw [hu] at hexec
  have hreads := regs_selectReads (u.onBoot (fun b => { b with revert := some k })) errs
  generalize (u.onBoot (fun b => { b with revert := some k })).selectReads errs = x at hexec hreads
  have hx := hreads.eq_io
  have hboot : x.boot = { u.boot with revert := some k } := by rw [hx]; rfl
  have hreg (a : Nat) (ha : a ∉ readCounts) : x.reg a = u.reg a := hreads.2 a ha
  have hrej : (rejOf k).addr ∉ readCounts := by rcases hk with rfl | rfl <;> decide
  refine ⟨_, hexec, ⟨?_, rfl, fun a ha => ?_⟩, ?_, ?_, ?_, ?_⟩
  · rw [State.onBoot, hx, State.onBoot, hregs.eq_io]
  · rw [List.mem_append, not_or] at ha
    exact (hreg a ha.2).trans (hregs.2 a ha.1)
  · exact (rf_congr (t := x) (hreg _ (by decide))).trans hSLOT
  · exact (rf_congr (t := x) (hreg _ (by decide))).trans hTRIES
  · exact (rf_congr (t := x) (hreg _ hrej)).trans hREJ
  · show x.boot.revert = _
    rw [hboot]

end

end Sys2Proof.Machine
end

section
/-!
PROOFS. The MACs as they start (R465): what that leaves alone.
-/

namespace Sys2Proof.Machine
open Sys2Proof.Claims

/-- The registers in which the MACs show their links and addresses. -/
def macRegs : List Nat := [Reg.ETH_LINK_at 0, Reg.ETH_LINK_at 1] ++ dhcpRegs 0 ++ dhcpRegs 1

/-- Nothing but the MACs, events, values nothing states and the MACs' registers has changed. -/
def EthOnly (s t : State) : Prop := t = { s with io := t.io, net := t.net, free := t.free, eth := t.eth } ∧ ∀ a, a ∉ macRegs → t.reg a = s.reg a

namespace EthOnly
variable {s t u : State}

theorem refl (s : State) : EthOnly s s := ⟨rfl, fun _ _ => rfl⟩

theorem trans (h : EthOnly s t) (k : EthOnly t u) : EthOnly s u :=
  ⟨by rw [k.1, h.1], fun a ha => (k.2 a ha).trans (h.2 a ha)⟩

theorem wf (s : State) (f : Fd) (v : Nat) (hf : f.addr ∈ macRegs) : EthOnly s (s.wf f v) :=
  ⟨rfl, fun _ ha => s.reg_wf_other f v _ (fun e => ha (e ▸ hf))⟩

theorem raiseIf (s : State) (e en : Fd) : EthOnly s (s.raiseIf e en) := ⟨by rw [s.raiseIf_eq], fun a _ => s.reg_raiseIf e en a⟩

theorem takeFree (s : State) : EthOnly s s.takeFree.2 := ⟨rfl, fun _ _ => rfl⟩

theorem macOnly (h : MacOnly s t []) : EthOnly s t := ⟨by rw [h.1], fun a _ => h.2 a List.not_mem_nil⟩

theorem ite {c : Prop} [Decidable c] (h : EthOnly s t) (k : EthOnly s u) : EthOnly s (if c then t else u) := by
  split
  · exact h
  · exact k

end EthOnly

section
variable (s : State) {m : Nat} (hm : m = 0 ∨ m = 1)
include hm

theorem ethOnly_setLink (up half : Bool) (speed : Nat) : EthOnly s (s.setLink m up half speed) := by
  have haddr : Reg.ETH_LINK_at m ∈ macRegs := by rcases hm with rfl | rfl <;> decide
  have hwritten : EthOnly s (((s.wf (Reg.ETH_LINK.UP m) (b2n up)).wf (Reg.ETH_LINK.HALF m) (b2n half)).wf (Reg.ETH_LINK.SPEED m) speed) :=
    ((EthOnly.wf s _ _ haddr).trans (EthOnly.wf _ _ _ haddr)).trans (EthOnly.wf _ _ _ haddr)
  have hevent := hwritten.ite (c := (((s.wf (Reg.ETH_LINK.UP m) (b2n up)).wf (Reg.ETH_LINK.HALF m) (b2n half)).wf (Reg.ETH_LINK.SPEED m) speed).reg
    (Reg.ETH_LINK_at m) = s.reg (Reg.ETH_LINK_at m)) (hwritten.trans (EthOnly.raiseIf _ Reg.ETH_EVCFG.LINK_EVENT Reg.ETH_EVCFG.LINK_EN))
  exact hevent.trans (EthOnly.macOnly (macOnly_txNext _ m []))

theorem ethOnly_fixLink : EthOnly s (s.fixLink m) :=
  .ite (.refl s) (.ite (ethOnly_setLink s hm _ _ _) (.ite (.refl s) (ethOnly_setLink s hm _ _ _)))

theorem ethOnly_clearLease : EthOnly s (s.clearLease m) := by
  rcases hm with rfl | rfl
  · exact (((EthOnly.wf s _ _ (by decide)).trans (EthOnly.wf _ _ _ (by decide))).trans (EthOnly.wf _ _ _ (by decide))).trans (EthOnly.wf _ _ _ (by decide))
  · exact (((EthOnly.wf s _ _ (by decide)).trans (EthOnly.wf _ _ _ (by decide))).trans (EthOnly.wf _ _ _ (by decide))).trans (EthOnly.wf _ _ _ (by decide))

theorem ethOnly_dhcpState (st : Nat) : EthOnly s (s.dhcpState m st) := by
  have haddr : (Reg.ETH_DHCP.STATE m).addr ∈ macRegs := by rcases hm with rfl | rfl <;> decide
  exact (EthOnly.wf s _ st haddr).trans (EthOnly.raiseIf _ Reg.ETH_EVCFG.LINK_EVENT Reg.ETH_EVCFG.LINK_EN)

omit hm in
theorem ethOnly_newXid : EthOnly s (s.newXid m) := (EthOnly.takeFree s).trans (EthOnly.macOnly (macOnly_onMac s.takeFree.2 m
  (fun x => { x with dhcp := { x.dhcp with xid := s.takeFree.1 % 2 ^ 32, sends := 1 } }) []))

omit hm in
theorem ethOnly_txDiscover : EthOnly s (s.txDiscover m) := EthOnly.macOnly (macOnly_txDhcp s m _ _ _ [])

theorem ethOnly_dhcpInit : EthOnly s (s.dhcpInit m) := by
  have hsteps := ((ethOnly_clearLease s hm).trans (ethOnly_newXid (s.clearLease m) (m := m))).trans (ethOnly_dhcpState _ hm 1)
  exact hsteps.trans (ethOnly_txDiscover _)

theorem ethOnly_ipStart : EthOnly s (s.ipStart m) :=
  .ite (.refl s) (.ite (ethOnly_dhcpInit s hm) (.ite (.ite (.refl s) (EthOnly.macOnly (macOnly_txArp _ m _ _ _ _ []))) (.refl s)))

end

theorem ethOnly_ethStart (s : State) : EthOnly s s.ethStart :=
  (((ethOnly_fixLink s (.inl rfl)).trans (ethOnly_fixLink _ (.inr rfl))).trans (ethOnly_ipStart _ (.inl rfl))).trans (ethOnly_ipStart _ (.inr rfl))

end Sys2Proof.Machine
end

section
/-!
PROOFS. Verification (R407, R408, R412): HALTED, the next candidate, the image chosen.
-/

namespace Sys2Proof.Machine
open Sys2Proof.Claims

section
variable (s : State)

theorem State.boot_wf (f : Fd) (v : Nat) : (s.wf f v).boot = s.boot := rfl
theorem State.rf_onBoot (g : Boot → Boot) (f : Fd) : (s.onBoot g).rf f = s.rf f := rfl
theorem State.rf_bootPhase (p : BootPhase) (f : Fd) : (s.bootPhase p).rf f = s.rf f := rfl
theorem State.on_bootPhase (p : BootPhase) (f : Fd) : (s.bootPhase p).on f = s.on f := rfl
theorem State.reg_bootPhase (p : BootPhase) (a : Nat) : (s.bootPhase p).reg a = s.reg a := rfl
theorem State.boot_onBoot (g : Boot → Boot) : (s.onBoot g).boot = g s.boot := rfl
theorem State.record_onBoot (g : Boot → Boot) : (s.onBoot g).record = s.record := rfl
theorem State.record_wf (f : Fd) (v : Nat) : (s.wf f v).record = s.record := rfl

end

theorem recorded_from {s u t : State} {code a0 a1 : Nat} (h : u.record = s.record) (hr : Recorded u t code a0 a1) : Recorded s t code a0 a1 := by
  unfold Recorded at hr ⊢
  rw [← h]
  exact hr

/-! ## The defaults container (R409) -/

section
variable {s : State} {errs : List (Nat × List Nat)}

theorem defaultsChecked_fail (h : s.bootVerify errs 3 ≠ 0) :
    s.defaultsChecked errs = ([], (s.verifyReads errs 3).wf Reg.BOOT_FAIL.DEFAULTS (s.bootVerify errs 3)) := if_neg h

theorem defaultsChecked_pass (h : s.bootVerify errs 3 = 0) :
    s.defaultsChecked errs = (ovls (s.verified 3), (s.verifyReads errs 3).onBoot (fun b => { b with defaults := true })) := by
  rw [State.defaultsChecked]
  rw [if_pos h, (sameFlash_verifyReads s errs 3).verified]

theorem boot_verifyReads (r : Nat) : (s.verifyReads errs r).boot = s.boot := by rw [(regs_verifyReads s errs r).eq_io]

/-- With no record to apply, only the container is read. -/
theorem halt_none (hrevert : s.boot.revert = none) (h : s.bootVerify errs 3 ≠ 0 ∨ ovls (s.verified 3) = []) (hphase : s.boot.phase ≠ .start) :
    ∃ u : State, s.halt errs = ((u.bootPhase .halted).wf Reg.BOOT_STATUS.STATE 2).ethStart := by
  have hd : ∃ u : State, s.defaultsChecked errs = ([], u) ∧ u.boot.phase = s.boot.phase := by
    by_cases hc : s.bootVerify errs 3 = 0
    · rw [defaultsChecked_pass hc, h.resolve_left (not_not.2 hc)]
      exact ⟨_, rfl, by rw [State.boot_onBoot, boot_verifyReads]⟩
    · rw [defaultsChecked_fail hc]
      exact ⟨_, rfl, congrArg Boot.phase (boot_verifyReads 3)⟩
  obtain ⟨u, hu, hup⟩ := hd
  refine ⟨u, ?_⟩
  rw [State.halt, hrevert]
  dsimp only
  rw [hu]
  refine if_neg ?_
  rw [show (u.overlays [] []).restarted = (u.boot.phase == .start) from rfl, hup, beq_eq_false_iff_ne.2 hphase]
  exact Bool.false_ne_true

theorem verification_halts (hdue : s.readAt .chosen = true) (hrevert : s.boot.revert = none) (hcands : s.boot.cands = [])
    (h : s.bootVerify errs 3 ≠ 0 ∨ ovls (s.verified 3) = []) :
    Does (.verification errs) s (fun t => t.boot.phase = .halted ∧ t.rf Reg.BOOT_STATUS.STATE = 2) := by
  have hexec : exec (.verification errs) s = .next (s.halt errs) := by
    rw [show exec (.verification errs) s = execVerification errs s from rfl, execVerification, if_pos hdue, hcands]
  obtain ⟨u, hu⟩ := halt_none hrevert h (by rw [phase_of_readAt hdue]; decide)
  have hstate : ((u.bootPhase .halted).wf Reg.BOOT_STATUS.STATE 2).rf Reg.BOOT_STATUS.STATE = 2 := State.rf_wf_same _ _ _ (show 0 + 2 ≤ 32 by decide)
  have hboot : ((u.bootPhase .halted).wf Reg.BOOT_STATUS.STATE 2).boot.phase = .halted := rfl
  rw [hu] at hexec
  generalize (u.bootPhase .halted).wf Reg.BOOT_STATUS.STATE 2 = x at hexec hstate hboot
  obtain ⟨heq, hreg⟩ := ethOnly_ethStart x
  refine ⟨_, hexec, ?_, ?_⟩
  · rw [heq]
    exact hboot
  · rw [rf_congr (f := Reg.BOOT_STATUS.STATE) (hreg _ (by decide)), hstate]

end

/-! ## A candidate that fails (R408) -/

theorem failOf_cases (k : Nat) : failOf k = Reg.BOOT_FAIL.A ∨ failOf k = Reg.BOOT_FAIL.B ∨ failOf k = Reg.BOOT_FAIL.FACTORY := by
  unfold failOf
  split
  · exact .inl rfl
  · split
    · exact .inr (.inl rfl)
    · exact .inr (.inr rfl)

theorem failOf_addr (k : Nat) : (failOf k).addr = Reg.BOOT_FAIL_at ∧ (failOf k).lo + (failOf k).width ≤ 32 ∧ (failOf k).width = 4 := by
  rcases failOf_cases k with h | h | h <;> rw [h] <;> decide

section
variable (u : State) (errs : List (Nat × List Nat)) (k code n : Nat) (r : List Nat)

theorem fallBack_next : u.fallBack errs k code (n :: r) =
    (((u.wf (failOf k) code).onBoot (fun b => { b with cands := n :: r })).incSat Reg.BOOT_STATUS.FALLBACKS).evRecord 0x20 k n := rfl

theorem fallBack_shows (hroom : u.record.events.length < 128) : let t := u.fallBack errs k code (n :: r)
    t.boot.phase = u.boot.phase ∧ t.boot.cands = n :: r ∧ t.rf (failOf k) = code % 16 ∧ Counted u t Reg.BOOT_STATUS.FALLBACKS ∧
      Recorded u t 0x20 k n := by
  obtain ⟨haddr, hfits, hwidth⟩ := failOf_addr k
  dsimp only
  rw [fallBack_next]
  have hfail : (u.wf (failOf k) code).rf (failOf k) = code % 16 := by
    rw [State.rf_wf_same _ _ _ hfits, hwidth]
    rfl
  have hcount : (u.wf (failOf k) code).rf Reg.BOOT_STATUS.FALLBACKS = u.rf Reg.BOOT_STATUS.FALLBACKS :=
    State.rf_wf_other _ _ _ _ (.inl (by rw [haddr]; decide))
  have hrec := u.record_wf (failOf k) code
  have hboot := u.boot_wf (failOf k) code
  generalize u.wf (failOf k) code = v at hfail hcount hrec hboot
  have hfail' : ((v.onBoot (fun b => { b with cands := n :: r })).incSat Reg.BOOT_STATUS.FALLBACKS).rf (failOf k) = code % 16 := by
    rw [State.rf_incSat_other _ _ _ _ (.inl (by rw [haddr]; decide)), State.rf_onBoot, hfail]
  have hcount' := (v.onBoot (fun b => { b with cands := n :: r })).rf_incSat Reg.BOOT_STATUS.FALLBACKS 1 (show 12 + 4 ≤ 32 by decide)
  rw [State.rf_onBoot, hcount] at hcount'
  have hboot' : ((v.onBoot (fun b => { b with cands := n :: r })).incSat Reg.BOOT_STATUS.FALLBACKS).boot = { v.boot with cands := n :: r } := rfl
  have hrec' : ((v.onBoot (fun b => { b with cands := n :: r })).incSat Reg.BOOT_STATUS.FALLBACKS).record = v.record := rfl
  generalize (v.onBoot (fun b => { b with cands := n :: r })).incSat Reg.BOOT_STATUS.FALLBACKS = w at hfail' hcount' hboot' hrec'
  have hev : (w.evRecord 0x20 k n).boot = w.boot := by rw [w.evRecord_eq]
  refine ⟨?_, ?_, ?_, ?_, recorded_evRecord u _ _ _ _ hroom (hrec'.trans hrec)⟩
  · rw [hev, hboot', hboot]
  · rw [hev, hboot']
  · rw [State.rf_evRecord _ _ _ _ _ _ (by rw [haddr]; decide), hfail']
  · unfold Counted
    rw [State.rf_evRecord _ _ _ _ _ _ (by decide), hcount']

end

/-! ## A candidate chosen (R412) -/

section
variable {s u : State} {k q : Nat} {trial : Bool}

theorem chooseImage_eq (h : u.boot.revert = none) : u.chooseImage k q trial =
    (((u.wf Reg.BOOT_STATUS.SLOT k).wf Reg.BOOT_STATUS.TRIAL (b2n trial)).wf Reg.BOOT_IMAGE.UPSEQ q).bootPhase .verified := by
  rw [State.chooseImage]
  rw [State.boot_wf, State.boot_wf, State.boot_wf, h]

theorem chosen_of (hregs : Regs s u (Reg.BOOT_TRIAL_at :: readCounts) []) (hrevert : s.boot.revert = none) (hk : k < 3) (hq : q < 2 ^ 32) :
    Chosen s (u.chooseImage k q trial) k q trial ∧ (u.chooseImage k q trial).reg Reg.BOOT_TRIAL_at = u.reg Reg.BOOT_TRIAL_at := by
  have hu := hregs.eq_io
  have huboot : u.boot = s.boot := by rw [hu]
  rw [chooseImage_eq (by rw [huboot]; exact hrevert)]
  have hx := (((regs_refl u [Reg.BOOT_STATUS_at, Reg.BOOT_IMAGE_at]).wf Reg.BOOT_STATUS.SLOT k (.head _)).wf Reg.BOOT_STATUS.TRIAL (b2n trial)
    (.head _)).wf Reg.BOOT_IMAGE.UPSEQ q (.tail _ (.head _))
  have hSLOT : (((u.wf Reg.BOOT_STATUS.SLOT k).wf Reg.BOOT_STATUS.TRIAL (b2n trial)).wf Reg.BOOT_IMAGE.UPSEQ q).rf Reg.BOOT_STATUS.SLOT = k := by
    rw [State.rf_wf_other _ _ _ _ (by decide), State.rf_wf_other _ _ _ _ (by decide), State.rf_wf_same _ _ _ (show 2 + 2 ≤ 32 by decide)]
    exact Nat.mod_eq_of_lt (hk.trans (by decide))
  have hTRIAL : (((u.wf Reg.BOOT_STATUS.SLOT k).wf Reg.BOOT_STATUS.TRIAL (b2n trial)).wf Reg.BOOT_IMAGE.UPSEQ q).on Reg.BOOT_STATUS.TRIAL = trial := by
    rw [State.on_wf_other _ _ _ _ (by decide)]
    exact State.on_wf_b2n _ trial Reg.BOOT_STATUS.TRIAL (by decide) rfl
  have hSEQ : (((u.wf Reg.BOOT_STATUS.SLOT k).wf Reg.BOOT_STATUS.TRIAL (b2n trial)).wf Reg.BOOT_IMAGE.UPSEQ q).rf Reg.BOOT_IMAGE.UPSEQ = q := by
    rw [State.rf_wf_same _ _ _ (show 0 + 32 ≤ 32 by decide)]
    exact Nat.mod_eq_of_lt hq
  generalize ((u.wf Reg.BOOT_STATUS.SLOT k).wf Reg.BOOT_STATUS.TRIAL (b2n trial)).wf Reg.BOOT_IMAGE.UPSEQ q = x at hx hSLOT hTRIAL hSEQ
  refine ⟨⟨rfl, (x.rf_bootPhase _ _).trans hSLOT, (x.on_bootPhase _ _).trans hTRIAL, (x.rf_bootPhase _ _).trans hSEQ, ?_, fun a ha => ?_⟩,
    (x.reg_bootPhase _ _).trans (hx.2 _ (by decide))⟩
  · rw [State.bootPhase, State.onBoot, hx.eq_io, hu]
  · simp only [List.mem_append, not_or, List.mem_cons, List.not_mem_nil, or_false] at ha
    obtain ⟨⟨hstat, himg, htrial⟩, hcounts⟩ := ha
    have hset : x.reg a = u.reg a := hx.2 a (by simp only [List.mem_cons, List.not_mem_nil, or_false, not_or]; exact ⟨hstat, himg⟩)
    exact (x.reg_bootPhase _ _).trans (hset.trans (hregs.2 a (by rw [List.mem_cons, not_or]; exact ⟨htrial, hcounts⟩)))

end

/-! ## VERIFICATION -/

section
variable {s : State} {errs : List (Nat × List Nat)} {k : Nat} {rest : List Nat} (hdue : s.readAt .chosen = true) (hcands : s.boot.cands = k :: rest)
include hdue hcands

theorem exec_verification_fails (hc : s.bootVerify errs k ≠ 0) :
    exec (.verification errs) s = .next ((s.verifyReads errs k).fallBack errs k (s.bootVerify errs k) rest) := by
  rw [show exec (.verification errs) s = execVerification errs s from rfl, execVerification, if_pos hdue, hcands]
  exact if_pos hc

theorem exec_verification_passes (hc : s.bootVerify errs k = 0) : exec (.verification errs) s =
    .next ((s.verifyReads errs k).trialRule errs k ((s.contHead errs k).elim 0 Head1.upseq) rest) := by
  rw [show exec (.verification errs) s = execVerification errs s from rfl, execVerification, if_pos hdue, hcands]
  dsimp only
  rw [if_neg (not_not.2 hc), (sameFlash_verifyReads s errs k).contHead]

omit hcands in
/-- What a candidate that fails shows, the next one being `n`. -/
theorem fallBack_does {u : State} {code n : Nat} {r : List Nat} (hexec : exec (.verification errs) s = .next (u.fallBack errs k code (n :: r)))
    (hphase : u.boot.phase = s.boot.phase) (hrec : u.record = s.record) (hcount : u.rf Reg.BOOT_STATUS.FALLBACKS = s.rf Reg.BOOT_STATUS.FALLBACKS)
    (hroom : s.record.events.length < 127) : Does (.verification errs) s (fun t => t.boot.phase = .chosen ∧ t.boot.cands = n :: r ∧
      t.rf (failOf k) = code % 16 ∧ Counted s t Reg.BOOT_STATUS.FALLBACKS ∧ Recorded s t 0x20 k n) := by
  obtain ⟨hp, hc, hf, hcnt, hr⟩ := fallBack_shows u errs k code n r (by rw [hrec]; exact hroom.trans (by decide))
  refine ⟨_, hexec, (hp.trans hphase).trans (phase_of_readAt hdue), hc, hf, ?_, recorded_from hrec hr⟩
  unfold Counted at hcnt ⊢
  rw [hcnt, hcount]

theorem verification_fails (hc : s.bootVerify errs k ≠ 0) (hroom : s.record.events.length < 127) {n : Nat} {r : List Nat} (hrest : rest = n :: r) :
    Does (.verification errs) s (fun t => t.boot.phase = .chosen ∧ t.boot.cands = rest ∧ t.rf (failOf k) = s.bootVerify errs k % 16 ∧
      Counted s t Reg.BOOT_STATUS.FALLBACKS ∧ Recorded s t 0x20 k n) := by
  subst hrest
  have hregs := regs_verifyReads s errs k
  exact fallBack_does hdue (exec_verification_fails hdue hcands hc) (congrArg Boot.phase (boot_verifyReads k)) (by rw [hregs.eq_io])
    (rf_congr (hregs.2 _ (by decide))) hroom

section
variable (hrevert : s.boot.revert = none) (hc : s.bootVerify errs k = 0)
include hrevert hc

/-- The image booted as before: the factory's, or a user image confirmed. -/
theorem verification_normal (hk : k < 3) (hq : (s.contHead errs k).elim 0 Head1.upseq < 2 ^ 32)
    (hconf : k = 0 ∨ s.rf (confOf k) = (s.contHead errs k).elim 0 Head1.upseq) : Does (.verification errs) s (fun t =>
      Chosen s t k ((s.contHead errs k).elim 0 Head1.upseq) false ∧ t.reg Reg.BOOT_TRIAL_at = s.reg Reg.BOOT_TRIAL_at) := by
  have hregs := regs_verifyReads s errs k
  have hexec := exec_verification_passes hdue hcands hc
  generalize (s.contHead errs k).elim 0 Head1.upseq = q at hexec hq hconf
  have hconfAddr : (confOf k).addr ∉ readCounts := by unfold confOf; split <;> decide
  have hrule : (s.verifyReads errs k).trialRule errs k q rest = (s.verifyReads errs k).chooseImage k q false :=
    if_pos (hconf.imp_right (fun h => (rf_congr (hregs.2 _ hconfAddr)).trans h))
  rw [hrule] at hexec
  obtain ⟨hchosen, htrial⟩ := chosen_of (q := q) (trial := false) (hregs.mono (fun a ha => .tail _ ha)) hrevert hk hq
  exact ⟨_, hexec, hchosen, htrial.trans (hregs.2 _ (by decide))⟩

section
variable (h0 : k ≠ 0) (hconf : s.rf (confOf k) ≠ (s.contHead errs k).elim 0 Head1.upseq)
include h0 hconf

omit hdue hcands hrevert hc in
theorem trialRule_eq : (s.verifyReads errs k).trialRule errs k ((s.contHead errs k).elim 0 Head1.upseq) rest =
    if s.rf Reg.BOOT_TRIAL.SLOT = k then
      (if s.rf Reg.BOOT_TRIAL.TRIES = 3 then
        ((((s.verifyReads errs k).wf (rejOf k) ((s.contHead errs k).elim 0 Head1.upseq)).clearTrial).onBoot
          (fun b => { b with revert := some k })).fallBack errs k 0xA rest
       else ((s.verifyReads errs k).wf Reg.BOOT_TRIAL.TRIES (s.rf Reg.BOOT_TRIAL.TRIES + 1)).chooseImage k
          ((s.contHead errs k).elim 0 Head1.upseq) true)
    else (((s.verifyReads errs k).wf Reg.BOOT_TRIAL.SLOT k).wf Reg.BOOT_TRIAL.TRIES 1).chooseImage k ((s.contHead errs k).elim 0 Head1.upseq) true := by
  have hregs := regs_verifyReads s errs k
  have hconfAddr : (confOf k).addr ∉ readCounts := by unfold confOf; split <;> decide
  have hc := rf_congr (hregs.2 _ hconfAddr)
  have hs := rf_congr (f := Reg.BOOT_TRIAL.SLOT) (hregs.2 _ (by decide))
  have ht := rf_congr (f := Reg.BOOT_TRIAL.TRIES) (hregs.2 _ (by decide))
  generalize s.verifyReads errs k = u at hc hs ht
  rw [← hs, ← ht]
  exact if_neg (not_or.2 ⟨h0, by rw [hc]; exact hconf⟩)

theorem verification_triesAgain (hk : k < 3) (hq : (s.contHead errs k).elim 0 Head1.upseq < 2 ^ 32) (hslot : s.rf Reg.BOOT_TRIAL.SLOT = k)
    (htries : s.rf Reg.BOOT_TRIAL.TRIES < 3) : Does (.verification errs) s (fun t =>
      Chosen s t k ((s.contHead errs k).elim 0 Head1.upseq) true ∧ t.rf Reg.BOOT_TRIAL.SLOT = k ∧
      t.rf Reg.BOOT_TRIAL.TRIES = s.rf Reg.BOOT_TRIAL.TRIES + 1) := by
  have hexec := exec_verification_passes hdue hcands hc
  rw [trialRule_eq h0 hconf, if_pos hslot, if_neg (Nat.ne_of_lt htries)] at hexec
  have hreads := regs_verifyReads s errs k
  have hslotKept := rf_congr (f := Reg.BOOT_TRIAL.SLOT) (hreads.2 _ (by decide))
  generalize s.verifyReads errs k = u at hexec hreads hslotKept
  have hregs : Regs s (u.wf Reg.BOOT_TRIAL.TRIES (s.rf Reg.BOOT_TRIAL.TRIES + 1)) (Reg.BOOT_TRIAL_at :: readCounts) [] :=
    (hreads.mono (fun a ha => .tail _ ha)).wf _ _ (.head _)
  have hS := (u.rf_wf_other Reg.BOOT_TRIAL.TRIES Reg.BOOT_TRIAL.SLOT (s.rf Reg.BOOT_TRIAL.TRIES + 1) (by decide)).trans (hslotKept.trans hslot)
  have hT := (u.rf_wf_same Reg.BOOT_TRIAL.TRIES (s.rf Reg.BOOT_TRIAL.TRIES + 1) (show 2 + 2 ≤ 32 by decide)).trans
    (Nat.mod_eq_of_lt (show s.rf Reg.BOOT_TRIAL.TRIES + 1 < 4 from Nat.succ_lt_succ htries))
  generalize u.wf Reg.BOOT_TRIAL.TRIES (s.rf Reg.BOOT_TRIAL.TRIES + 1) = x at hexec hregs hS hT
  obtain ⟨hchosen, htrial⟩ := chosen_of (trial := true) hregs hrevert hk hq
  exact ⟨_, hexec, hchosen, (rf_congr htrial).trans hS, (rf_congr htrial).trans hT⟩

theorem verification_triesFirst (hk : k < 3) (hq : (s.contHead errs k).elim 0 Head1.upseq < 2 ^ 32) (hslot : s.rf Reg.BOOT_TRIAL.SLOT ≠ k) :
    Does (.verification errs) s (fun t => Chosen s t k ((s.contHead errs k).elim 0 Head1.upseq) true ∧ t.rf Reg.BOOT_TRIAL.SLOT = k ∧
      t.rf Reg.BOOT_TRIAL.TRIES = 1) := by
  have hexec := exec_verification_passes hdue hcands hc
  rw [trialRule_eq h0 hconf, if_neg hslot] at hexec
  have hreads := regs_verifyReads s errs k
  generalize s.verifyReads errs k = u at hexec hreads
  have hregs : Regs s ((u.wf Reg.BOOT_TRIAL.SLOT k).wf Reg.BOOT_TRIAL.TRIES 1) (Reg.BOOT_TRIAL_at :: readCounts) [] :=
    ((hreads.mono (fun a ha => .tail _ ha)).wf _ _ (.head _)).wf _ _ (.head _)
  have hS : ((u.wf Reg.BOOT_TRIAL.SLOT k).wf Reg.BOOT_TRIAL.TRIES 1).rf Reg.BOOT_TRIAL.SLOT = k := by
    rw [State.rf_wf_other _ _ _ _ (by decide), State.rf_wf_same _ _ _ (show 0 + 2 ≤ 32 by decide)]
    exact Nat.mod_eq_of_lt (hk.trans (by decide))
  have hT : ((u.wf Reg.BOOT_TRIAL.SLOT k).wf Reg.BOOT_TRIAL.TRIES 1).rf Reg.BOOT_TRIAL.TRIES = 1 := by
    rw [State.rf_wf_same _ _ _ (show 2 + 2 ≤ 32 by decide)]
    rfl
  generalize (u.wf Reg.BOOT_TRIAL.SLOT k).wf Reg.BOOT_TRIAL.TRIES 1 = x at hexec hregs hS hT
  obtain ⟨hchosen, htrial⟩ := chosen_of (trial := true) hregs hrevert hk hq
  exact ⟨_, hexec, hchosen, (rf_congr htrial).trans hS, (rf_congr htrial).trans hT⟩

omit hrevert in
/-- The third start of a trial not confirmed. -/
theorem verification_exhausts (hroom : s.record.events.length < 127) (hslot : s.rf Reg.BOOT_TRIAL.SLOT = k) (htries : s.rf Reg.BOOT_TRIAL.TRIES = 3)
    {n : Nat} {r : List Nat} (hrest : rest = n :: r) : Does (.verification errs) s (fun t => t.boot.phase = .chosen ∧ t.boot.cands = rest ∧
      t.rf (failOf k) = 0xA % 16 ∧ Counted s t Reg.BOOT_STATUS.FALLBACKS ∧ Recorded s t 0x20 k n) := by
  have hexec := exec_verification_passes hdue hcands hc
  rw [trialRule_eq h0 hconf, if_pos hslot, if_pos htries] at hexec
  subst hrest
  have hreads := regs_verifyReads s errs k
  have hrejAddr : (rejOf k).addr ≠ Reg.BOOT_STATUS_at := by unfold rejOf; split <;> decide
  have hregs : Regs s (((s.verifyReads errs k).wf (rejOf k) ((s.contHead errs k).elim 0 Head1.upseq)).clearTrial)
      ((rejOf k).addr :: Reg.BOOT_TRIAL_at :: readCounts) [] :=
    (((hreads.mono (fun a ha => .tail _ (.tail _ ha))).wf (rejOf k) _ (.head _)).wf Reg.BOOT_TRIAL.SLOT 0 (.tail _ (.head _))).wf Reg.BOOT_TRIAL.TRIES 0
      (.tail _ (.head _))
  have hcount : (((s.verifyReads errs k).wf (rejOf k) ((s.contHead errs k).elim 0 Head1.upseq)).clearTrial).rf Reg.BOOT_STATUS.FALLBACKS =
      s.rf Reg.BOOT_STATUS.FALLBACKS := by
    refine rf_congr (hregs.2 _ ?_)
    rw [List.mem_cons, not_or]
    exact ⟨Ne.symm hrejAddr, by decide⟩
  generalize ((s.verifyReads errs k).wf (rejOf k) ((s.contHead errs k).elim 0 Head1.upseq)).clearTrial = u at hexec hregs hcount
  have hu := hregs.eq_io
  exact fallBack_does hdue hexec (by rw [State.onBoot, hu]) (by rw [State.record_onBoot, hu]) hcount hroom

end
end
end

end Sys2Proof.Machine
end

section
/-!
PROOFS. Overlays (R402, R409).
-/

namespace Sys2Proof.Machine
open Sys2Proof.Claims

/-! ## Overlay records applied -/

section
variable (s : State) (o : Ovl)

theorem overlays_none (rs : List MRole) : s.overlays rs [] = s := rfl

/-- One record of the defaults, the sequence not restarted. -/
theorem overlays_one (hpier : o.perPier = false) (hphase : s.boot.phase ≠ .start) : s.overlays [] [o] = s.overlayAt o o.addr := by
  have haddrs : ovlAddrs s.grade [] o = [o.addr] := if_neg (by rw [hpier]; exact Bool.false_ne_true)
  rw [State.overlays, List.foldl_cons, List.foldl_nil, haddrs, List.foldl_cons, List.foldl_nil]
  refine if_neg ?_
  rw [State.restarted, beq_eq_false_iff_ne.2 hphase]
  exact Bool.false_ne_true

variable {s o} {u : State}

theorem overlayAt_whole (hmask : o.mask = 0xFFFFFFFF) (hwrite : s.ioWrite .keystone niBoot o.addr (BitVec.ofNat 32 o.value) = (.done 0, u)) :
    s.overlayAt o o.addr = u := by
  rw [State.overlayAt]
  dsimp only
  rw [if_pos hmask, hwrite]
  exact if_pos rfl

theorem overlayAt_fails {e : IoEnd} (hmask : o.mask = 0xFFFFFFFF)
    (hwrite : s.ioWrite .keystone niBoot o.addr (BitVec.ofNat 32 o.value) = (e, u)) (he : e ≠ .done 0) :
    s.overlayAt o o.addr = u.incSat Reg.BOOT_STATUS.OVL_ERR := by
  rw [State.overlayAt]
  dsimp only
  rw [if_pos hmask, hwrite]
  cases e with
  | done code => exact if_neg (fun h => he (congrArg IoEnd.done h))
  | error c => rfl

theorem overlayAt_masked {v : Nat} {w : State} (hmask : o.mask ≠ 0xFFFFFFFF) (hread : s.ioRead .keystone niBoot o.addr = (.done v, u))
    (hwrite : u.ioWrite .keystone niBoot o.addr (BitVec.ofNat 32 ((v &&& (0xFFFFFFFF - o.mask)) ||| (o.value &&& o.mask))) = (.done 0, w)) :
    s.overlayAt o o.addr = w := by
  rw [State.overlayAt]
  dsimp only
  rw [if_neg hmask, hread]
  dsimp only
  rw [hwrite]
  exact if_pos rfl

end

/-! ## OVERLAY_APPLY -/

theorem goesOn_eq (u : State) (p : BootPhase) : (if u.restarted then u else u.bootPhase p) = goesOn u p := by
  unfold goesOn State.restarted
  simp only [beq_iff_eq]
  rfl

theorem goesOn_running {u : State} {p : BootPhase} (h : u.boot.phase ≠ .start) : goesOn u p = u.bootPhase p := if_neg h

section
variable {s : State} {errs : List (Nat × List Nat)} (hdue : s.readAt .verified = true) (hown : early (ovls s.imageOf) = [])
include hdue hown

theorem exec_overlayApply {os : List Ovl} {u : State} (hd : s.defaultsChecked errs = (os, u)) :
    exec (.overlayApply errs) s = .next (goesOn (u.overlays [] (early os)) .overlaid) := by
  rw [show exec (.overlayApply errs) s = execOverlayApply errs s from rfl, execOverlayApply, if_pos hdue]
  dsimp only
  rw [hd, goesOn_eq]
  have hlast (x : State) : x.overlays (roles s.imageOf) ((ovls s.imageOf).filter (fun o => !o.last)) = x := by
    rw [show (ovls s.imageOf).filter (fun o => !o.last) = [] from hown, overlays_none]
  rw [hlast]
  rfl

theorem overlayApply_noDefaults (hc : s.bootVerify errs 3 ≠ 0) : Does (.overlayApply errs) s (fun t =>
    SeqOnly s t .overlaid (Reg.BOOT_FAIL_at :: readCounts) ∧ t.rf Reg.BOOT_FAIL.DEFAULTS = s.bootVerify errs 3 % 16) := by
  have hexec := exec_overlayApply hdue hown (defaultsChecked_fail hc)
  have hregs : Regs s ((s.verifyReads errs 3).wf Reg.BOOT_FAIL.DEFAULTS (s.bootVerify errs 3)) (Reg.BOOT_FAIL_at :: readCounts) [] :=
    ((regs_verifyReads s errs 3).mono (fun a ha => .tail _ ha)).wf _ _ (.head _)
  have hnibble := (s.verifyReads errs 3).rf_wf_same Reg.BOOT_FAIL.DEFAULTS (s.bootVerify errs 3) (show 12 + 4 ≤ 32 by decide)
  generalize (s.verifyReads errs 3).wf Reg.BOOT_FAIL.DEFAULTS (s.bootVerify errs 3) = u at hexec hregs hnibble
  have hphase : u.boot.phase ≠ .start := by rw [hregs.eq_io, phase_of_readAt hdue]; decide
  rw [show u.overlays [] (early []) = u from rfl, goesOn_running hphase] at hexec
  exact ⟨_, hexec, seqOnly_onBoot hregs _ rfl, (u.rf_bootPhase _ _).trans hnibble⟩

theorem overlayApply_noRecords (hc : s.bootVerify errs 3 = 0) (hnone : early (ovls (s.verified 3)) = []) :
    Does (.overlayApply errs) s (fun t => SeqOnly s t .overlaid readCounts ∧ t.boot.defaults = true) := by
  have hexec := exec_overlayApply hdue hown (defaultsChecked_pass hc)
  rw [hnone, overlays_none, goesOn_running (by rw [State.boot_onBoot, boot_verifyReads, phase_of_readAt hdue]; decide)] at hexec
  exact ⟨_, hexec, seqOnly_onBoot (regs_verifyReads s errs 3) (fun b => { b with defaults := true, phase := .overlaid }) rfl, rfl⟩

end

theorem counted_bootPhase (u : State) (p : BootPhase) : Counted u ((u.incSat Reg.BOOT_STATUS.OVL_ERR).bootPhase p) Reg.BOOT_STATUS.OVL_ERR :=
  (State.rf_bootPhase _ _ _).trans (u.rf_incSat Reg.BOOT_STATUS.OVL_ERR 1 (show 16 + 16 ≤ 32 by decide))

section
variable {s s' : State} {errs : List (Nat × List Nat)} {o : Ovl} (hdue : s.readAt .verified = true) (hown : early (ovls s.imageOf) = [])
  (hc : s.bootVerify errs 3 = 0) (hone : early (ovls (s.verified 3)) = [o]) (hpier : o.perPier = false)
  (hs' : s' = (s.verifyReads errs 3).onBoot (fun b => { b with defaults := true }))
include hdue hown hc hone hpier hs'

/-- A single record of the defaults is applied to the state after the container was read. -/
theorem exec_overlayApply_one {v : State} (hv : s'.overlayAt o o.addr = v) : exec (.overlayApply errs) s = .next (goesOn v .overlaid) := by
  have hexec := exec_overlayApply hdue hown (defaultsChecked_pass hc)
  rwa [hone, ← hs', overlays_one _ _ hpier (by rw [hs', State.boot_onBoot, boot_verifyReads, phase_of_readAt hdue]; decide), hv] at hexec

theorem overlayApply_one :
    (∀ u, o.mask = 0xFFFFFFFF → s'.ioWrite .keystone 53 o.addr (BitVec.ofNat 32 o.value) = (.done 0, u) →
      Does (.overlayApply errs) s (fun t => t = goesOn u .overlaid)) ∧
    (∀ u v w, o.mask ≠ 0xFFFFFFFF → s'.ioRead .keystone 53 o.addr = (.done v, u) →
      u.ioWrite .keystone 53 o.addr (BitVec.ofNat 32 ((v &&& (0xFFFFFFFF - o.mask)) ||| (o.value &&& o.mask))) = (.done 0, w) →
      Does (.overlayApply errs) s (fun t => t = goesOn w .overlaid)) ∧
    (∀ u e, o.mask = 0xFFFFFFFF → s'.ioWrite .keystone 53 o.addr (BitVec.ofNat 32 o.value) = (e, u) → e ≠ .done 0 → u.boot.phase ≠ .start →
      Does (.overlayApply errs) s (fun t => Counted u t Reg.BOOT_STATUS.OVL_ERR ∧ t.boot.phase = .overlaid)) := by
  refine ⟨fun u hmask hwrite => ?_, fun u v w hmask hread hwrite => ?_, fun u e hmask hwrite he hphase => ?_⟩
  · exact ⟨_, exec_overlayApply_one hdue hown hc hone hpier hs' (overlayAt_whole hmask hwrite), rfl⟩
  · exact ⟨_, exec_overlayApply_one hdue hown hc hone hpier hs' (overlayAt_masked hmask hread hwrite), rfl⟩
  · have hexec := exec_overlayApply_one hdue hown hc hone hpier hs' (overlayAt_fails hmask hwrite he)
    rw [goesOn_running (by rw [State.incSat_boot]; exact hphase)] at hexec
    exact ⟨_, hexec, counted_bootPhase u _, rfl⟩

end

end Sys2Proof.Machine
end

section
/-!
PROOFS. Sections loaded into the piers of their role and the Deck (R410).
-/

namespace Sys2Proof.Machine
open Sys2Proof.Claims

/-! ## What loading leaves alone -/

/-- The threads, the mailboxes, the grade and the shells as they were. -/
structure LoadKeeps (s t : State) : Prop where
  threads : t.threads = s.threads
  mbox : t.mbox = s.mbox
  grade : t.grade = s.grade
  shells : t.net.shells = s.net.shells

namespace LoadKeeps
variable {s t u : State}

theorem refl (s : State) : LoadKeeps s s := ⟨rfl, rfl, rfl, rfl⟩

theorem trans (h : LoadKeeps s t) (k : LoadKeeps t u) : LoadKeeps s u :=
  ⟨k.threads.trans h.threads, k.mbox.trans h.mbox, k.grade.trans h.grade, k.shells.trans h.shells⟩

theorem online (h : LoadKeeps s t) (p : Nat) : t.online p = s.online p := by
  rw [State.online, State.online, State.shell_congr h.grade h.shells]

end LoadKeeps

section
variable (s : State)

theorem onlyMem_writtenWord (w : Nat) : (s.writtenWord w).threads = s.threads ∧ (s.writtenWord w).mbox = s.mbox ∧
    (s.writtenWord w).ispace = s.ispace ∧ (s.writtenWord w).spad = s.spad := by
  unfold State.writtenWord
  dsimp only
  split <;> exact ⟨rfl, rfl, rfl, rfl⟩

/-- A Deck write changes no thread and no memory of a pier. -/
theorem onlyMem_deckWriteWord (a n v : Nat) : (s.deckWriteWord a n v).2.threads = s.threads ∧ (s.deckWriteWord a n v).2.mbox = s.mbox ∧
    (s.deckWriteWord a n v).2.ispace = s.ispace ∧ (s.deckWriteWord a n v).2.spad = s.spad := by
  unfold State.deckWriteWord
  dsimp only
  split
  · exact onlyMem_writtenWord (s.deckPoke a 8 v) _
  · have hcheck := s.onlyCheck_checkWord (a / 8)
    split
    · exact ⟨hcheck.threads, hcheck.mbox, hcheck.ispace, hcheck.spad⟩
    · obtain ⟨hth, hmb, his, hsp⟩ := onlyMem_writtenWord ((s.checkWord (a / 8)).2.deckPoke a n v) (a / 8)
      exact ⟨hth.trans hcheck.threads, hmb.trans hcheck.mbox, his.trans hcheck.ispace, hsp.trans hcheck.spad⟩

theorem onlyMem_deckWriteFrom (fuel a n v : Nat) : (s.deckWriteFrom fuel a n v).2.threads = s.threads ∧
    (s.deckWriteFrom fuel a n v).2.mbox = s.mbox ∧ (s.deckWriteFrom fuel a n v).2.ispace = s.ispace ∧
    (s.deckWriteFrom fuel a n v).2.spad = s.spad := by
  induction fuel generalizing s a n v with
  | zero => exact ⟨rfl, rfl, rfl, rfl⟩
  | succ fuel ih =>
    rw [State.deckWriteFrom]
    split
    · exact ⟨rfl, rfl, rfl, rfl⟩
    · dsimp only
      obtain ⟨hth, hmb, his, hsp⟩ := onlyMem_deckWriteWord s a (min n (8 - a % 8)) (v % 2 ^ (8 * min n (8 - a % 8)))
      obtain ⟨hth', hmb', his', hsp'⟩ := ih (s.deckWriteWord a (min n (8 - a % 8)) (v % 2 ^ (8 * min n (8 - a % 8)))).2
        (a + min n (8 - a % 8)) (n - min n (8 - a % 8)) (v / 2 ^ (8 * min n (8 - a % 8)))
      exact ⟨hth'.trans hth, hmb'.trans hmb, his'.trans his, hsp'.trans hsp⟩

theorem loadKeeps_deckWrite (a n v : Nat) : LoadKeeps s (s.deckWrite a n v).2 := by
  obtain ⟨hth, hmb, -, -⟩ := onlyMem_deckWriteFrom s (wordsTouched a n) a n v
  have hsame := State.SameIslands.deckWriteFrom s (wordsTouched a n) a n v
  exact ⟨hth, hmb, hsame.grade, hsame.shells⟩

end

/-! ## A section loaded into a pier -/

section
variable (s : State) (img : List Sec) (i : Nat) (x : Sec)

theorem loadPier_only (p : Nat) : s.loadPier img i x p = { s with ispace := (s.loadPier img i x p).ispace, spad := (s.loadPier img i x p).spad } := by
  unfold State.loadPier
  dsimp only
  split
  · rfl
  · split <;> rfl

theorem loadKeeps_loadPier (p : Nat) : LoadKeeps s (s.loadPier img i x p) := by
  rw [loadPier_only]
  exact ⟨rfl, rfl, rfl, rfl⟩

theorem deck_loadPier (p : Nat) : (s.loadPier img i x p).deck = s.deck := by rw [loadPier_only]

theorem ispace_loadPier (p : Nat) (h : x.ty ≠ 2) : (s.loadPier img i x p).ispace = s.ispace := by
  unfold State.loadPier
  dsimp only
  rw [if_neg h]
  split <;> rfl

theorem spad_loadPier (p : Nat) (h : x.ty = 2) : (s.loadPier img i x p).spad = s.spad := by
  unfold State.loadPier
  dsimp only
  rw [if_pos h]
  split <;> rfl

theorem get_loadPier (p a : Nat) (h : x.ty = 2) : SMap.get (s.loadPier img i x p).ispace 0 a =
    if s.online p = true ∧ 0x20000 * p + bytesAt x.body 0 4 ≤ a ∧ a < 0x20000 * p + bytesAt x.body 0 4 + (x.size - 8) then
      BitVec.ofNat 8 (secCopy s.grade img i p x / 256 ^ (a - (0x20000 * p + bytesAt x.body 0 4))) else SMap.get s.ispace 0 a := by
  unfold State.loadPier
  dsimp only
  rw [if_pos h]
  by_cases hon : s.online p = true
  · rw [if_neg (by rw [hon]; decide), get_setBytes_ite]
    simp only [hon, true_and]
  · rw [if_pos (by rw [Bool.eq_false_iff.2 hon]; rfl), if_neg (fun hc => hon hc.1)]

theorem loadKeeps_piers (ps : List Nat) : LoadKeeps s (ps.foldl (fun s p => s.loadPier img i x p) s) := by
  induction ps generalizing s with
  | nil => exact .refl s
  | cons p t ih => exact (loadKeeps_loadPier s img i x p).trans (ih _)

theorem deck_piers (ps : List Nat) : (ps.foldl (fun s p => s.loadPier img i x p) s).deck = s.deck := by
  induction ps generalizing s with
  | nil => rfl
  | cons p t ih => exact (ih _).trans (deck_loadPier s img i x p)

theorem ispace_piers (ps : List Nat) (h : x.ty ≠ 2) : (ps.foldl (fun s p => s.loadPier img i x p) s).ispace = s.ispace := by
  induction ps generalizing s with
  | nil => rfl
  | cons p t ih => exact (ih _).trans (ispace_loadPier s img i x p h)

theorem spad_piers (ps : List Nat) (h : x.ty = 2) : (ps.foldl (fun s p => s.loadPier img i x p) s).spad = s.spad := by
  induction ps generalizing s with
  | nil => rfl
  | cons p t ih => exact (ih _).trans (spad_loadPier s img i x p h)

end

/-! ## I-space of a pier after its sections (Table pier-2) -/

section
variable {img : List Sec} {g : Grade} {x : Sec} {i p k : Nat}

/-- The address of a byte of a pier's I-space. -/
def isAt (p : Nat) (x : Sec) (k : Nat) : Nat := 0x20000 * p + bytesAt x.body 0 4 + k

/-- Another pier's I-space lies elsewhere. -/
theorem loadPier_elsewhere (s : State) {y : Sec} {j p' a : Nat} (hy : y.ty = 2) (hfits : bytesAt y.body 0 4 + (y.size - 8) ≤ 0x20000) (hne : p' ≠ p)
    (hlo : 0x20000 * p ≤ a) (hhi : a < 0x20000 * p + 0x20000) : SMap.get (s.loadPier img j y p').ispace 0 a = SMap.get s.ispace 0 a := by
  rw [get_loadPier s img j y p' a hy]
  refine if_neg (fun h => ?_)
  obtain ⟨-, hle, hlt⟩ := h
  rcases Nat.lt_or_gt_of_ne hne with h | h
  · have : 0x20000 * p' + 0x20000 ≤ 0x20000 * p := by omega
    omega
  · have : 0x20000 * p + 0x20000 ≤ 0x20000 * p' := by omega
    omega

theorem piers_elsewhere (s : State) {y : Sec} {j a : Nat} (ps : List Nat) (hy : y.ty = 2) (hfits : bytesAt y.body 0 4 + (y.size - 8) ≤ 0x20000)
    (hne : ∀ p' ∈ ps, p' ≠ p) (hlo : 0x20000 * p ≤ a) (hhi : a < 0x20000 * p + 0x20000) :
    SMap.get (ps.foldl (fun s p => s.loadPier img j y p) s).ispace 0 a = SMap.get s.ispace 0 a := by
  induction ps generalizing s with
  | nil => rfl
  | cons q t ih =>
    exact (ih _ (fun p' hp' => hne p' (.tail _ hp'))).trans (loadPier_elsewhere s hy hfits (hne q (.head _)) hlo hhi)

section
variable (hx : x.ty = 2) (hfits : bytesAt x.body 0 4 + (x.size - 8) ≤ 0x20000) (hk : k < x.size - 8)
include hx hfits hk

omit hx in
theorem isAt_range : 0x20000 * p ≤ isAt p x k ∧ isAt p x k < 0x20000 * p + 0x20000 := by
  unfold isAt
  omega

omit hfits in
/-- The pier's own copy. -/
theorem loadPier_copies (s : State) (hon : s.online p = true) :
    SMap.get (s.loadPier img i x p).ispace 0 (isAt p x k) = BitVec.ofNat 8 (secCopy s.grade img i p x / 256 ^ k) := by
  rw [get_loadPier s img i x p _ hx, isAt, if_pos ⟨hon, Nat.le_add_right _ _, Nat.add_lt_add_left hk _⟩, Nat.add_sub_cancel_left]

/-- A copy loaded stays while its section is loaded into the piers of the role. -/
theorem piers_keepCopy (s : State) (ps : List Nat) (hon : s.online p = true)
    (hcopy : SMap.get s.ispace 0 (isAt p x k) = BitVec.ofNat 8 (secCopy s.grade img i p x / 256 ^ k)) :
    SMap.get (ps.foldl (fun s p => s.loadPier img i x p) s).ispace 0 (isAt p x k) = BitVec.ofNat 8 (secCopy s.grade img i p x / 256 ^ k) := by
  induction ps generalizing s with
  | nil => exact hcopy
  | cons q t ih =>
    have hkeeps := loadKeeps_loadPier s img i x q
    have hstep : SMap.get (s.loadPier img i x q).ispace 0 (isAt p x k) = BitVec.ofNat 8 (secCopy s.grade img i p x / 256 ^ k) := by
      by_cases hq : q = p
      · subst hq
        exact loadPier_copies hx hk s hon
      · obtain ⟨hlo, hhi⟩ := isAt_range (p := p) hfits hk
        exact (loadPier_elsewhere s hx hfits hq hlo hhi).trans hcopy
    have hrest := ih (s.loadPier img i x q) ((hkeeps.online p).trans hon) (by rw [hkeeps.grade]; exact hstep)
    rw [hkeeps.grade] at hrest
    exact hrest

theorem piers_copy (s : State) (ps : List Nat) (hp : p ∈ ps) (hon : s.online p = true) :
    SMap.get (ps.foldl (fun s p => s.loadPier img i x p) s).ispace 0 (isAt p x k) = BitVec.ofNat 8 (secCopy s.grade img i p x / 256 ^ k) := by
  induction ps generalizing s with
  | nil => cases hp
  | cons q t ih =>
    have hkeeps := loadKeeps_loadPier s img i x q
    rw [List.foldl_cons, ← hkeeps.grade]
    by_cases hq : p = q
    · subst hq
      exact piers_keepCopy hx hfits hk _ t ((hkeeps.online p).trans hon) (by rw [hkeeps.grade]; exact loadPier_copies hx hk s hon)
    · exact ih _ ((List.mem_cons.1 hp).resolve_left hq) ((hkeeps.online p).trans hon)

end
end

/-! ## A section -/

/-- The piers of a section's role. -/
def rolePiers (g : Grade) (img : List Sec) (x : Sec) : List Nat := (List.range g.piers).filter (fun p => roleOf (roles img) p == some x.arg)

theorem mem_rolePiers {g : Grade} {img : List Sec} {x : Sec} {p : Nat} :
    p ∈ rolePiers g img x ↔ p < g.piers ∧ roleOf (roles img) p = some x.arg := by
  rw [rolePiers, List.mem_filter, List.mem_range, beq_iff_eq]

section
variable (s : State) (img : List Sec) (i : Nat)

theorem loadSection_none (h : img[i]? = none) : s.loadSection img i = s := by rw [State.loadSection, h]

theorem loadSection_some {x : Sec} (h : img[i]? = some x) : s.loadSection img i =
    if x.ty = 2 ∨ x.ty = 3 then (rolePiers s.grade img x).foldl (fun s p => s.loadPier img i x p) s
    else if x.ty = 4 then (s.deckWrite (bytesAt x.body 0 4) (x.size - 8) (secCopy s.grade img i 0 x)).2
    else s := by
  rw [State.loadSection, h]
  rfl

theorem loadKeeps_loadSection : LoadKeeps s (s.loadSection img i) := by
  cases h : img[i]? with
  | none => rw [loadSection_none s img i h]; exact .refl s
  | some x =>
    rw [loadSection_some s img i h]
    split
    · exact loadKeeps_piers s img i x _
    · split
      · exact loadKeeps_deckWrite s _ _ _
      · exact .refl s

theorem deck_loadSection (h4 : ∀ y ∈ img, y.ty ≠ 4) : (s.loadSection img i).deck = s.deck := by
  cases h : img[i]? with
  | none => rw [loadSection_none s img i h]
  | some x =>
    rw [loadSection_some s img i h, if_neg (h4 x (List.mem_of_getElem? h))]
    split
    · exact deck_piers s img i x _
    · rfl

theorem ispace_loadSection (hkeep : ∀ x, img[i]? = some x → x.ty ≠ 2) : (s.loadSection img i).ispace = s.ispace := by
  cases h : img[i]? with
  | none => rw [loadSection_none s img i h]
  | some x =>
    rw [loadSection_some s img i h]
    split
    · exact ispace_piers s img i x _ (hkeep x h)
    · split
      · exact (onlyMem_deckWriteFrom s _ _ _ _).2.2.1
      · rfl

theorem spad_loadSection (h3 : ∀ y ∈ img, y.ty ≠ 3) : (s.loadSection img i).spad = s.spad := by
  cases h : img[i]? with
  | none => rw [loadSection_none s img i h]
  | some x =>
    rw [loadSection_some s img i h]
    split
    · next hty => exact spad_piers s img i x _ (hty.resolve_right (h3 x (List.mem_of_getElem? h)))
    · split
      · exact (onlyMem_deckWriteFrom s _ _ _ _).2.2.2
      · rfl

end

/-! ## The sections in order -/

section
variable (s : State) (img : List Sec) (js : List Nat)

theorem loadKeeps_sections : LoadKeeps s (js.foldl (fun s i => s.loadSection img i) s) := by
  induction js generalizing s with
  | nil => exact .refl s
  | cons j t ih => exact (loadKeeps_loadSection s img j).trans (ih _)

theorem deck_sections (h : ∀ y ∈ img, y.ty ≠ 4) : (js.foldl (fun s i => s.loadSection img i) s).deck = s.deck := by
  induction js generalizing s with
  | nil => rfl
  | cons j t ih => exact (ih _).trans (deck_loadSection s img j h)

theorem ispace_sections (h : ∀ y ∈ img, y.ty ≠ 2) : (js.foldl (fun s i => s.loadSection img i) s).ispace = s.ispace := by
  induction js generalizing s with
  | nil => rfl
  | cons j t ih => exact (ih _).trans (ispace_loadSection s img j (fun x hx => h x (List.mem_of_getElem? hx)))

theorem spad_sections (h : ∀ y ∈ img, y.ty ≠ 3) : (js.foldl (fun s i => s.loadSection img i) s).spad = s.spad := by
  induction js generalizing s with
  | nil => rfl
  | cons j t ih => exact (ih _).trans (spad_loadSection s img j h)

end

section
variable {img : List Sec} {i p k : Nat} {x : Sec} (hi : img[i]? = some x) (hx : x.ty = 2) (hrole : roleOf (roles img) p = some x.arg)
  (hothers : ∀ j y, img[j]? = some y → y.ty = 2 → bytesAt y.body 0 4 + (y.size - 8) ≤ 0x20000 ∧ (roleOf (roles img) p = some y.arg → j = i))
  (hk : k < x.size - 8)
include hi hx hrole hothers hk

/-- The section's own load. -/
theorem loadSection_copies (s : State) (hp : p < s.grade.piers) (hon : s.online p = true) :
    SMap.get (s.loadSection img i).ispace 0 (isAt p x k) = BitVec.ofNat 8 (secCopy s.grade img i p x / 256 ^ k) := by
  rw [loadSection_some s img i hi, if_pos (.inl hx)]
  exact piers_copy hx (hothers i x hi hx).1 hk s _ (mem_rolePiers.2 ⟨hp, hrole⟩) hon

omit hrole in
/-- No other section of the pier's role. -/
theorem loadSection_leaves (s : State) {j : Nat} (hj : j ≠ i) :
    SMap.get (s.loadSection img j).ispace 0 (isAt p x k) = SMap.get s.ispace 0 (isAt p x k) := by
  by_cases hty : ∀ y, img[j]? = some y → y.ty ≠ 2
  · rw [ispace_loadSection s img j hty]
  · push Not at hty
    obtain ⟨y, hy, hy2⟩ := hty
    obtain ⟨hfits, honly⟩ := hothers j y hy hy2
    obtain ⟨hlo, hhi⟩ := isAt_range (p := p) (hothers i x hi hx).1 hk
    rw [loadSection_some s img j hy, if_pos (.inl hy2)]
    exact piers_elsewhere s _ hy2 hfits (p := p) (fun p' hp' he => hj (honly (by rw [← he]; exact (mem_rolePiers.1 hp').2))) hlo hhi

theorem sections_keepCopy (s : State) (js : List Nat) (hp : p < s.grade.piers) (hon : s.online p = true)
    (hcopy : SMap.get s.ispace 0 (isAt p x k) = BitVec.ofNat 8 (secCopy s.grade img i p x / 256 ^ k)) :
    SMap.get (js.foldl (fun s i => s.loadSection img i) s).ispace 0 (isAt p x k) = BitVec.ofNat 8 (secCopy s.grade img i p x / 256 ^ k) := by
  induction js generalizing s with
  | nil => exact hcopy
  | cons j t ih =>
    have hkeeps := loadKeeps_loadSection s img j
    have hstep : SMap.get (s.loadSection img j).ispace 0 (isAt p x k) = BitVec.ofNat 8 (secCopy s.grade img i p x / 256 ^ k) := by
      by_cases hj : j = i
      · subst hj
        exact loadSection_copies hi hx hrole hothers hk s hp hon
      · exact (loadSection_leaves hi hx hothers hk s hj).trans hcopy
    have hrest := ih (s.loadSection img j) (by rw [hkeeps.grade]; exact hp) ((hkeeps.online p).trans hon) (by rw [hkeeps.grade]; exact hstep)
    rw [hkeeps.grade] at hrest
    exact hrest

theorem sections_copy (s : State) (js : List Nat) (hmem : i ∈ js) (hp : p < s.grade.piers) (hon : s.online p = true) :
    SMap.get (js.foldl (fun s i => s.loadSection img i) s).ispace 0 (isAt p x k) = BitVec.ofNat 8 (secCopy s.grade img i p x / 256 ^ k) := by
  induction js generalizing s with
  | nil => cases hmem
  | cons j t ih =>
    have hkeeps := loadKeeps_loadSection s img j
    rw [List.foldl_cons, ← hkeeps.grade]
    by_cases hj : i = j
    · subst hj
      exact sections_keepCopy hi hx hrole hothers hk _ t (by rw [hkeeps.grade]; exact hp) ((hkeeps.online p).trans hon)
        (by rw [hkeeps.grade]; exact loadSection_copies hi hx hrole hothers hk s hp hon)
    · exact ih _ ((List.mem_cons.1 hmem).resolve_left hj) (by rw [hkeeps.grade]; exact hp) ((hkeeps.online p).trans hon)

end

/-! ## ROLE_INSTANTIATION -/

section
variable {s : State} {errs : List (Nat × List Nat)}

/-- The container is read again before it is loaded. -/
theorem loadImage_only : (s.loadImage errs).2 = { s with io := (s.loadImage errs).2.io, free := (s.loadImage errs).2.free } := by
  rw [State.loadImage]
  dsimp only
  rw [(regs_bootReads s errs _ _).eq_io]

theorem roleInstantiation_loads (hdue : s.readAt .overlaid = true) : let img := (s.loadImage errs).1
    Does (.roleInstantiation errs) s (fun t => t.boot.phase = .loaded ∧ t.threads = s.threads ∧ t.mbox = s.mbox ∧
      (∀ (i p : Nat) (x : Sec), img[i]? = some x → x.ty = 2 → p < s.grade.piers → s.online p = true → roleOf (roles img) p = some x.arg →
        (∀ j y, img[j]? = some y → y.ty = 2 → bytesAt y.body 0 4 + (y.size - 8) ≤ 0x20000 ∧ (roleOf (roles img) p = some y.arg → j = i)) →
        ∀ k, k < x.size - 8 → SMap.get t.ispace 0 (0x20000 * p + bytesAt x.body 0 4 + k) = BitVec.ofNat 8 (secCopy s.grade img i p x / 256 ^ k)) ∧
      ((∀ y ∈ img, y.ty ≠ 4) → t.deck = s.deck) ∧ ((∀ y ∈ img, y.ty ≠ 2) → t.ispace = s.ispace) ∧ ((∀ y ∈ img, y.ty ≠ 3) → t.spad = s.spad)) := by
  dsimp only
  have hexec : exec (.roleInstantiation errs) s = .next (((List.range (s.loadImage errs).1.length).foldl
      (fun u i => u.loadSection (s.loadImage errs).1 i) (s.loadImage errs).2).bootPhase .loaded) := if_pos hdue
  have hread := loadImage_only (s := s) (errs := errs)
  generalize (s.loadImage errs).2 = u at hexec hread
  generalize (s.loadImage errs).1 = img at hexec
  have hgrade : u.grade = s.grade := by rw [hread]
  have hshells : u.net.shells = s.net.shells := by rw [hread]
  have hon (p : Nat) : u.online p = s.online p := by rw [State.online, State.online, State.shell_congr hgrade hshells]
  have hkeeps := loadKeeps_sections u img (List.range img.length)
  refine ⟨_, hexec, rfl, hkeeps.threads.trans (by rw [hread]), hkeeps.mbox.trans (by rw [hread]), ?_, fun h => ?_, fun h => ?_, fun h => ?_⟩
  · intro i p x hi hx hp hup hrole hothers k hk
    have hlt : i < img.length := (List.getElem?_eq_some_iff.1 hi).1
    have hcopy := sections_copy hi hx hrole hothers hk u (List.range img.length) (List.mem_range.2 hlt) (by rw [hgrade]; exact hp) ((hon p).trans hup)
    rw [hgrade] at hcopy
    exact hcopy
  · exact (deck_sections u img _ h).trans (by rw [hread])
  · exact (ispace_sections u img _ h).trans (by rw [hread])
  · exact (spad_sections u img _ h).trans (by rw [hread])

end

end Sys2Proof.Machine
end

section
/-!
PROOFS. Routes written and release (R403, R411), and the sequence as a whole.
-/

namespace Sys2Proof.Machine
open Sys2Proof.Claims

/-! ## ROUTES_WRITE -/

section
variable {s : State} (hdue : s.seqAt .loaded = true) (htable : ofType s.imageOf 8 = [])
include hdue htable

theorem exec_routesWrite {rts : List (Nat × Nat × Word × Bool)}
    (hrts : ((ofType s.imageOf 7).filter (fun x => x.arg == s.grade.shape)).flatMap routesOf = rts) : exec .routesWrite s =
      .next ((rts.foldl (fun s q => (s.seqWrite Reg.VIA_RT_SEL_at (2 ^ 8 * q.1 + q.2.1)).seqWrite Reg.VIA_RT_DATA_at q.2.2.1.toNat) s).bootPhase .routed) := by
  rw [show exec .routesWrite s = execRoutesWrite s from rfl, execRoutesWrite, if_pos hdue]
  dsimp only
  rw [hrts, htable, List.foldl_nil]

theorem routesWrite_none (hrts : ((ofType s.imageOf 7).filter (fun x => x.arg == s.grade.shape)).flatMap routesOf = []) :
    Does .routesWrite s (fun t => SeqOnly s t .routed []) := ⟨_, exec_routesWrite hdue htable hrts, seqOnly_onBoot (regs_refl s []) _ rfl⟩

theorem routesWrite_one {q : Nat × Nat × Word × Bool} {u w : State}
    (hrts : ((ofType s.imageOf 7).filter (fun x => x.arg == s.grade.shape)).flatMap routesOf = [q])
    (hsel : (s.ioWrite .keystone 53 Reg.VIA_RT_SEL_at (BitVec.ofNat 32 (2 ^ 8 * q.1 + q.2.1))).2 = u)
    (hdata : (u.ioWrite .keystone 53 Reg.VIA_RT_DATA_at (BitVec.ofNat 32 q.2.2.1.toNat)).2 = w) :
    Does .routesWrite s (fun t => t = { w with boot := { w.boot with phase := .routed } }) := by
  subst hsel hdata
  exact ⟨_, exec_routesWrite hdue htable hrts, rfl⟩

end

/-! ## RELEASE (R411, R416) -/

section
variable (s : State)

theorem startRole_none (p : Nat) : s.startRole [] p = s := by
  have hnone : (roleOf [] p).bind (fun i => ([] : List MRole)[i]?) = none := by cases roleOf [] p <;> rfl
  rw [State.startRole, hnone]

theorem startRoles_none (ps : List Nat) : ps.foldl (fun s p => s.startRole [] p) s = s := by
  induction ps with
  | nil => rfl
  | cons p t ih => rw [List.foldl_cons, startRole_none, ih]

/-- The state with BOOT_STATUS, BOOT_TIME and the watchdog as release sets them. -/
def State.begun (s : State) : State :=
  ((((s.wf Reg.BOOT_STATUS.STATE 1).wf Reg.BOOT_TIME.MS (min 65535 (s.boot.us / 1000))).wdtRestart).wf Reg.WDT_STATUS.HELD 0)

theorem begun_shows : s.begun.rf Reg.BOOT_STATUS.STATE = 1 ∧ s.begun.on Reg.WDT_STATUS.HELD = false ∧
    s.begun.rf Reg.WDT_LEFT.MS = 1000 * s.rf Reg.WDT_CFG.TIMEOUT_S ∧ s.begun.rf Reg.BOOT_TIME.MS = min 65535 (s.boot.us / 1000) ∧
    s.begun.rf Reg.BOOT_RESET_CAUSE.CAUSE = s.rf Reg.BOOT_RESET_CAUSE.CAUSE ∧ s.begun.threads = s.threads ∧ s.begun.record = s.record ∧
    s.begun.boot.sys = s.boot.sys := by
  unfold State.begun
  have hregs := ((regs_refl s [Reg.BOOT_STATUS_at, Reg.BOOT_TIME_at]).wf Reg.BOOT_STATUS.STATE 1 (.head _)).wf Reg.BOOT_TIME.MS
    (min 65535 (s.boot.us / 1000)) (.tail _ (.head _))
  have hstate : ((s.wf Reg.BOOT_STATUS.STATE 1).wf Reg.BOOT_TIME.MS (min 65535 (s.boot.us / 1000))).rf Reg.BOOT_STATUS.STATE = 1 := by
    rw [State.rf_wf_other _ _ _ _ (by decide), State.rf_wf_same _ _ _ (show 0 + 2 ≤ 32 by decide)]
    rfl
  have htime : ((s.wf Reg.BOOT_STATUS.STATE 1).wf Reg.BOOT_TIME.MS (min 65535 (s.boot.us / 1000))).rf Reg.BOOT_TIME.MS =
      min 65535 (s.boot.us / 1000) := by
    rw [State.rf_wf_same _ _ _ (show 0 + 16 ≤ 32 by decide)]
    exact Nat.mod_eq_of_lt (Nat.lt_of_le_of_lt (Nat.min_le_left _ _) (by decide))
  generalize (s.wf Reg.BOOT_STATUS.STATE 1).wf Reg.BOOT_TIME.MS (min 65535 (s.boot.us / 1000)) = u at hregs hstate htime
  have hu := hregs.eq_io
  obtain ⟨x, hx, hxregs, -, -, hleft⟩ := u.wdtRestart_restarts
  have hreg (a : Nat) (ha : a ∉ [Reg.WDT_STATUS_at, Reg.WDT_LEFT_at]) : u.wdtRestart.reg a = u.reg a := by
    rw [hx]
    exact hxregs.2 a ha
  have hms : u.wdtRestart.rf Reg.WDT_LEFT.MS = 1000 * u.rf Reg.WDT_CFG.TIMEOUT_S := by
    rw [hx]
    exact hleft
  have hcfg := rf_congr (f := Reg.WDT_CFG.TIMEOUT_S) (hregs.2 _ (by decide))
  have hcause := rf_congr (f := Reg.BOOT_RESET_CAUSE.CAUSE) (hregs.2 _ (by decide))
  have hkept : u.wdtRestart.threads = s.threads ∧ u.wdtRestart.record = s.record ∧ u.wdtRestart.boot.sys = s.boot.sys := by
    rw [hx]
    refine ⟨?_, ?_, ?_⟩
    · show x.threads = _
      rw [hxregs.eq_io, hu]
    · show x.record = _
      rw [hxregs.eq_io, hu]
    · show u.boot.sys = _
      rw [hu]
  obtain ⟨hthreads, hrecord, hsys⟩ := hkept
  generalize u.wdtRestart = v at hreg hms hthreads hrecord hsys
  refine ⟨?_, v.on_wf_b2n false Reg.WDT_STATUS.HELD (by decide) rfl, ?_, ?_, ?_, hthreads, hrecord, hsys⟩
  · rw [State.rf_wf_other _ _ _ _ (by decide), rf_congr (f := Reg.BOOT_STATUS.STATE) (hreg _ (by decide)), hstate]
  · rw [State.rf_wf_other _ _ _ _ (by decide), hms, hcfg]
  · rw [State.rf_wf_other _ _ _ _ (by decide), rf_congr (f := Reg.BOOT_TIME.MS) (hreg _ (by decide)), htime]
  · rw [State.rf_wf_other _ _ _ _ (by decide), rf_congr (f := Reg.BOOT_RESET_CAUSE.CAUSE) (hreg _ (by decide)), hcause]

variable {s}

theorem exec_release (hdue : s.seqAt .routed = true) (hvault : s.vaultPending (fun id => id == 2) = false) (hdefaults : s.boot.defaults = false)
    (hroles : roles s.imageOf = []) (hlast : (ovls s.imageOf).filter (fun o => o.last) = []) : exec .release s =
      .next ((s.begun.evRecord 1 (b2n s.begun.boot.sys) (s.begun.rf Reg.BOOT_RESET_CAUSE.CAUSE) (s.begun.rf Reg.BOOT_STATUS.SLOT)).bootPhase
        .released).ethStart := by
  rw [show exec .release s = execRelease s from rfl, execRelease, if_pos ⟨hdue, by rw [hvault]; rfl⟩]
  dsimp only
  rw [hroles, startRoles_none, if_neg (show ¬ s.boot.defaults = true by rw [hdefaults]; exact Bool.false_ne_true)]
  simp only [hlast, overlays_none]
  refine if_neg ?_
  rw [State.restarted, phase_of_seqAt hdue]
  decide

theorem release_releases (hdue : s.seqAt .routed = true) (hvault : s.vaultPending (fun id => id == 2) = false) (hdefaults : s.boot.defaults = false)
    (hroles : roles s.imageOf = []) (hlast : (ovls s.imageOf).filter (fun o => o.last) = []) (hroom : s.record.events.length < 128) :
    Does .release s (fun t => t.boot.phase = .released ∧ t.rf Reg.BOOT_STATUS.STATE = 1 ∧ t.on Reg.WDT_STATUS.HELD = false ∧
      t.rf Reg.WDT_LEFT.MS = 1000 * s.rf Reg.WDT_CFG.TIMEOUT_S ∧ t.rf Reg.BOOT_TIME.MS = min 65535 (s.boot.us / 1000) ∧ t.threads = s.threads ∧
      Recorded s t 1 (b2n s.boot.sys) (s.rf Reg.BOOT_RESET_CAUSE.CAUSE)) := by
  have hexec := exec_release hdue hvault hdefaults hroles hlast
  obtain ⟨hstate, hheld, hleft, htime, hcause, hthreads, hrecord, hsys⟩ := begun_shows s
  rw [hcause, hsys] at hexec
  generalize s.begun = u at hexec hstate hheld hleft htime hthreads hrecord
  have hrec := recorded_evRecord s 1 (b2n s.boot.sys) (s.rf Reg.BOOT_RESET_CAUSE.CAUSE) (u.rf Reg.BOOT_STATUS.SLOT) hroom hrecord
  have heq := u.evRecord_eq 1 (b2n s.boot.sys) (s.rf Reg.BOOT_RESET_CAUSE.CAUSE) (u.rf Reg.BOOT_STATUS.SLOT)
  have hreg (a : Nat) (ha : a ≠ Reg.REC_LOST_at) := u.reg_evRecord 1 (b2n s.boot.sys) (s.rf Reg.BOOT_RESET_CAUSE.CAUSE) (u.rf Reg.BOOT_STATUS.SLOT) a ha
  generalize u.evRecord 1 (b2n s.boot.sys) (s.rf Reg.BOOT_RESET_CAUSE.CAUSE) (u.rf Reg.BOOT_STATUS.SLOT) = v at hexec hrec heq hreg
  have hvthreads : v.threads = u.threads := by rw [heq]
  obtain ⟨honly, hkept⟩ := ethOnly_ethStart (v.bootPhase .released)
  have hall (a : Nat) (hmac : a ∉ macRegs) (hlost : a ≠ Reg.REC_LOST_at) : (v.bootPhase .released).ethStart.reg a = u.reg a :=
    (hkept a hmac).trans ((v.reg_bootPhase _ _).trans (hreg a hlost))
  have hphase : (v.bootPhase .released).ethStart.boot.phase = .released := by
    rw [honly]
    rfl
  have hthr : (v.bootPhase .released).ethStart.threads = v.threads := by
    rw [honly]
    rfl
  have hevents : (v.bootPhase .released).ethStart.record.events = v.record.events := by
    rw [honly]
    rfl
  generalize (v.bootPhase .released).ethStart = t at hexec hall hphase hthr hevents
  refine ⟨t, hexec, hphase, ?_, ?_, ?_, ?_, hthr.trans (hvthreads.trans hthreads), recorded_congr hrec hevents⟩
  · rw [rf_congr (f := Reg.BOOT_STATUS.STATE) (hall _ (by decide) (by decide)), hstate]
  · rw [State.on, rf_congr (f := Reg.WDT_STATUS.HELD) (hall _ (by decide) (by decide))]
    exact hheld
  · rw [rf_congr (f := Reg.WDT_LEFT.MS) (hall _ (by decide) (by decide)), hleft]
  · rw [rf_congr (f := Reg.BOOT_TIME.MS) (hall _ (by decide) (by decide)), htime]

end

/-- Settles O48, step by step: the containers read the same after the sequencer's own reads, so each step's choice is that of the state before it. -/
theorem bootSequenceRuns : Obligations.BootSequenceRuns := by
  unfold Obligations.BootSequenceRuns
  refine ⟨?_, ?_, ?_, ?_, ?_, ?_⟩
  · intro errs s hdue hinit
    exact ⟨slotSelection_chooses hdue hinit, fun ⟨hsys, hcause, hk⟩ => slotSelection_abandons hdue hinit hk rfl hsys hcause⟩
  · intro errs s hdue hrevert hroom
    refine ⟨verification_halts hdue hrevert, fun k rest hcands hk => ⟨?_, ?_, ?_, ?_⟩⟩
    · intro hc n r hrest
      exact verification_fails hdue hcands hc hroom hrest
    · intro hc hq hconf
      exact verification_normal hdue hcands hrevert hc hk hq hconf
    · intro hc hq h0 hconf hslot
      exact ⟨verification_triesAgain hdue hcands hrevert hc h0 hconf hk hq hslot,
        fun htries n r hrest => verification_exhausts hdue hcands hc h0 hconf hroom hslot htries hrest⟩
    · intro hc hq h0 hconf hslot
      exact verification_triesFirst hdue hcands hrevert hc h0 hconf hk hq hslot
  · intro errs s hdue
    refine ⟨fun hc hown => overlayApply_noDefaults hdue hown hc, fun hc hown hnone => overlayApply_noRecords hdue hown hc hnone, ?_⟩
    intro o hc hown hone hpier
    exact overlayApply_one hdue hown hc hone hpier rfl
  · intro errs s hdue
    exact roleInstantiation_loads hdue
  · intro s hdue htable
    exact ⟨routesWrite_none hdue htable, fun q u w hrts hsel hdata => routesWrite_one hdue htable hrts hsel hdata⟩
  · intro s hdue hvault hdefaults hroles hlast hroom
    exact release_releases hdue hvault hdefaults hroles hlast hroom

end Sys2Proof.Machine
end
